-- ==== Sys2Proof/Word.lean ====
section
/-! DEFINITION. Words of the part and the plainest reading of their bytes and bits. -/

namespace Sys2Proof

/-- A byte of a packet, a line or a structure. -/
abbrev Byte := BitVec 8

/-- A BAR0 register (R35). -/
abbrev Word := BitVec 32

/-- A 64-bit value (R9, R52). -/
abbrev DWord := BitVec 64

/-- A line of 128 bytes; byte `i` is bits `8 i + 7 : 8 i` (01, "Part address and home tile"). -/
abbrev Line := BitVec 1024

/-- Sparse data by key: pairs with strictly rising keys, none equal to what an unlisted key reads as. -/
abbrev Tbl (V : Type) := List (Nat × V)

end Sys2Proof
end

