-- ==== Sys2Proof/Syntax.lean ====
section
/-! DEFINITION. The commands of the block: one constructor per row of the opcode table, with what the row
carries from outside (packet fields, register values, flits, messages, readings, results of checks). -/

namespace Sys2Proof

/-- The path by which an Opyan command came (R52, R71): SQ `sq` of a host port, with the serial number `idx` under which its
entry was fetched (assumption 11), or the sideband. -/
inductive Path where
  | ring (port sq idx : Nat)
  | sideband
  deriving DecidableEq, Repr

/-- The header of an Opyan command as it reaches its opcode (R52): its path and tag, the no_int flag, and
whether some reserved bit of the packet is not 0 (R53). -/
structure Ctx where
  path  : Path
  tag   : BitVec 16
  noInt : Bool
  rsv   : Bool
  deriving DecidableEq, Repr

/-- A host-memory read of an ownership word (R78): `ok` is false for an error completion or poison. -/
structure SlotRead where
  ok   : Bool
  word : DWord
  deriving DecidableEq, Repr

/-- Bytes read from host memory; `ok` is false when the read returned poison or an error completion. -/
structure HostData where
  ok    : Bool
  bytes : List Byte
  deriving DecidableEq, Repr

/-- What the media answer for the lines of a command that come from media: the lines whose first pass fails (R168); the number of
other members of a line's stripe whose codewords fail to decode, beside those the part knows to be unavailable (R164); the lines
that decode cleanly and fail their check, each with the cause, 1 tag or 2 KID (R381, R396); and the bits that each line's codewords
have corrected, by channel (R189). -/
structure MediaEnv where
  recon  : List Nat
  unrec  : List (Nat × Nat)
  forged : List (Nat × Nat) := []
  corr   : List (Nat × Nat × Nat) := []
  deriving DecidableEq, Repr

/-- A token (R457). `zeros` says that every byte the table requires to be 0 is 0; `sigOk` is the outcome of
the XMSS verification of its signature. -/
structure Token where
  present : Bool
  own     : SlotRead
  magic   : Word
  format  : BitVec 16
  purpose : Byte
  signer  : Byte
  serial  : DWord
  number  : DWord
  state   : Byte
  zeros   : Bool
  bind    : BitVec 256
  sigOk   : Bool
  deriving DecidableEq, Repr

/-- One entry of a returned ring fetch (R50): the packet, and whether its data was bad. -/
structure Fetched where
  bad    : Bool
  packet : BitVec 512
  deriving DecidableEq, Repr

/-- A request of a near cache to a home (R198). -/
inductive ReqKind where
  | readS | readX | upgrade | claim
  deriving DecidableEq, Repr

/-- The state a DATA message grants (R198). -/
inductive Grant where
  | s | e | m
  deriving DecidableEq, Repr

/-- The answers of a holder to a snoop (R198) other than GONE. -/
inductive AckKind where
  | i | s
  deriving DecidableEq, Repr

/-- A line as messages carry it: data, KID, content epoch and the internal poison tag (R194, R199, R361). -/
structure Content where
  data   : Line
  kid    : Nat
  epoch  : Nat
  poison : Bool
  deriving DecidableEq, Repr

/-- The outcome of an error-code check: clean, corrected with a count of bits, or uncorrectable. -/
inductive Ecc where
  | clean
  | corrected (bits : Nat)
  | bad
  deriving DecidableEq, Repr

/-- A received flit (R259): its 8 header bytes, the first the lowest, and its 128 payload bytes, after correction and descrambling;
and the codewords of 544 symbols, as received, that hold bits of the flit and were not listed with an earlier one (R244,
R267). -/
structure Flit where
  hdr       : DWord
  payload   : Line
  codewords : List (List Nat)
  deriving DecidableEq, Repr

/-- The operation of a REQ payload (R289). -/
inductive ReqOp where
  | branch | jump | loopExit | stop | unknown
  deriving DecidableEq, Repr

/-- The payload of a REQ flit (R289). -/
structure ReqBody where
  route   : Nat
  op      : ReqOp
  cut     : Bool
  land    : Nat
  segment : Nat
  offset  : Nat
  rtag    : Word
  rsv     : Bool
  cycle   : Nat
  deriving DecidableEq, Repr

/-- What went wrong with a received flit (R267): an uncorrectable codeword with its header good, a header
whose hcrc fails, or a gap before a good flit of the kind named. -/
inductive BadFlit where
  | idle
  | capHdrGood (region : Nat)
  | reqHdrGood
  | ctrl
  | hcrc
  | gap (seq : Nat) (cap : Option Nat)
  deriving DecidableEq, Repr

/-- The kinds of CTRL CONFIG content checked by R256. -/
structure ConfigBody where
  version : BitVec 16
  lanes   : Nat
  capable : Bool
  required : Bool
  crData  : Nat
  crCtrl  : Nat
  nonce   : DWord
  deriving DecidableEq, Repr

/-- A segment entry of a route (R282) as the table of ROUTE_DEFINE holds it. -/
structure Segment where
  line   : Nat
  loopTo : Nat
  lines  : Nat
  kind   : BitVec 2
  land   : Bool
  next   : Nat
  rep    : Nat
  rsv    : Bool
  deriving DecidableEq, Repr

/-- A piece the stager or weeder programs (R117): a whole folio in a folio slot, a leaf at a data position
and quarter, or a note page at a position. -/
inductive Piece where
  | folio (f slot : Nat)
  | leaf (l pos quarter : Nat)
  | note (pos : Nat)
  deriving DecidableEq, Repr

/-- The STATUS of one started operation (R151, R161): the plane's channel, target and block, and how it ended. -/
inductive OpEnd where
  | done | busy | progFail | eraseFail
  deriving DecidableEq, Repr

structure OpStatus where
  ch     : Nat
  target : Nat
  block  : Nat
  status : OpEnd
  deriving DecidableEq, Repr

/-- The unit whose reset closes passes, and whether its reset is orderly (R355, R356). -/
inductive PassReset where
  | curator (tile : Nat) (orderly : Bool)
  | hostPort (port : Nat) (orderly : Bool)
  | media (tile ch : Nat)
  | ddr (tile k : Nat)
  | port (tile : Nat)
  | saddle (tile k : Nat)
  deriving DecidableEq, Repr

/-- What a media target shows at boot: its place (`key` is 4 × (16 × tile + channel) + target), its parameter page and
default drift table (R154), and the first item of R155 that it fails among those its pages do not show, 0 for none. -/
structure TargetEnv where
  key   : Nat
  page  : List Byte
  table : List Byte
  item  : Nat
  deriving DecidableEq, Repr

/-- What a boot finds: the media targets that answer, the DDR5 of each tile in GiB, the rate code of each channel that does
not train at 8.0 GT/s (by 16 × tile + channel), and the bad blocks the targets keep (channel and block; R155, R491). -/
structure BootEnv where
  targets : List TargetEnv
  ddr     : List Nat
  rates   : List (Nat × Nat)
  bad     : List (Nat × Nat)
  deriving DecidableEq, Repr

/-- The commands: one constructor per row of the opcode table, in its order. -/
inductive Instr where
  | identify (c : Ctx) (cns tile : Byte) (slot : Word) (own : SlotRead)
  | getFeature (c : Ctx) (fid : Byte)
  | setFeature (c : Ctx) (fid : Byte) (value : DWord)
  | readX (c : Ctx) (pa : DWord) (len slot : Word) (own : SlotRead) (env : MediaEnv)
  | writeX (c : Ctx) (pa : DWord) (len slot : Word) (own : SlotRead) (data : HostData) (env : MediaEnv)
  | copy (c : Ctx) (src dst len : DWord) (env : MediaEnv)
  | zeroRange (c : Ctx) (pa len : DWord) (env : MediaEnv)
  | discard (c : Ctx) (pa len : DWord)
  | flushRange (c : Ctx) (pa len : DWord)
  | invalRange (c : Ctx) (pa len : DWord)
  | epochClose (c : Ctx) (mode : Byte)
  | epochQuery (c : Ctx) (mode : Byte)
  | routeDefine (c : Ctx) (tile : Byte) (route : BitVec 16) (slot count : Word) (latency : BitVec 16)
      (port : Byte) (own : SlotRead) (data : HostData)
  | routeArm (c : Ctx) (tile : Byte) (route vector : BitVec 16) (start : Byte)
  | routeRetire (c : Ctx) (tile : Byte) (route : BitVec 16) (mode : Byte)
  | pinLines (c : Ctx) (tile : Byte) (pa : DWord) (lines : Word) (env : MediaEnv)
  | unpinLines (c : Ctx) (tile : Byte) (pa : DWord) (lines : Word)
  | captureOpen (c : Ctx) (tile port region flags : Byte) (vector : BitVec 16) (pa len : DWord)
  | captureClose (c : Ctx) (tile port region mode : Byte)
  | captureDrain (c : Ctx) (tile port region : Byte)
  | getLog (c : Ctx) (log tile : Byte) (slot : Word) (own : SlotRead) (offset : DWord)
  | clearLog (c : Ctx) (log tile : Byte) (slot : Word) (tok : Token)
  | sensorRead (c : Ctx) (tile sensor : Byte)
  | faultInject (c : Ctx) (tile : Byte) (source : BitVec 12) (slot : Word) (tok : Token) (mask : DWord)
      (count : BitVec 16)
  | powerState (c : Ctx) (state : Byte)
  | fwStage (c : Ctx) (slot : Word) (own : SlotRead) (offset : Word) (flags : Byte) (data : HostData)
      (sigOk : Bool)
  | fwActivate (c : Ctx) (mode : Byte)
  | attest (c : Ctx) (slot : Word) (own : SlotRead) (nonce : BitVec 256) (reserveOk : Bool)
  | keyCreate (c : Ctx) (kid : Byte) (pa len : DWord)
  | keyRetire (c : Ctx) (kid : Byte) (slot : Word) (tok : Token)
  | rightsSet (c : Ctx) (kid master rights : Byte)
  | spareStatus (c : Ctx) (tile : Byte) (slot : Word) (own : SlotRead)
  | format (c : Ctx) (spare : Byte) (slot : Word) (tok : Token)
  | mediaProfile (c : Ctx) (action tile channel target : Byte) (slot : Word) (own : SlotRead)
      (data : HostData)
  | lifecycle (port : Nat) (tok : Token)
  | sensorDisable (port : Nat) (tok : Token)
  | roleSwap (port : Nat)
  | ownerSet (port : Nat) (key : BitVec 544)
  | rootRevoke (port : Nat) (tok : Token)
  | mbClaim (port : Nat)
  | mbRelease (port : Nat)
  | mbIdleTimeout
  | registerWrite (port : Nat) (offset : BitVec 24) (size : Nat) (value : DWord)
  | sqDoorbell (port sq : Nat) (tail : BitVec 12)
  | cqDoorbell (port cq : Nat) (head : BitVec 12)
  | sqCfgWrite (port sq : Nat) (value : Word)
  | cqCfgWrite (port cq : Nat) (value : Word)
  | fetchResume (port : Nat)
  | sqFetchIssue (port : Nat)
  | sqFetchReturn (port sq first : Nat) (entries : List Fetched)
  | fencedCommandStart (port sq : Nat)
  | curatorCommandExecute
  | completionCollect (port : Nat) (credit : Bool)
  | cqCoalTimer (port cq : Nat)
  | msixPendingSend (port vector : Nat)
  | xwWinCfgWrite (port win : Nat) (value : Word)
  | windowDrainEnd (port win : Nat)
  | dwAptWrite (port : Nat) (value : Word)
  | dwRead (port : Nat) (offset : DWord) (len : Nat) (env : MediaEnv)
  | dwStore (port : Nat) (offset : DWord) (bytes : List (Option Byte)) (env : MediaEnv)
  | epoCtrlClose (port : Nat)
  | autoCloseExpiry
  | sealArrive (tile : Nat)
  | sealReport (tile : Nat)
  | sealWalkStep (tile : Nat)
  | markerWrite (tile : Nat)
  | abortStart
  | rollbackEnd
  | coordinatorTakeover
  | coordinatorTakeback
  | partTimeFailover
  | stripeProgram (tile spn : Nat) (pieces : List Piece) (pad : Nat)
  | stripeProgramDone (tile spn : Nat)
  | coolingSweep (tile : Nat)
  | folioMerge (tile folio spn slot : Nat)
  | weedRelocate (tile victim dest spn : Nat)
  | relocVerifyDone (tile : Nat) (ok : Bool)
  | relocEraseDone (tile : Nat) (ok : Bool)
  | lostScanDone (tile : Nat)
  | rebuildScan (tile : Nat)
  | slotGrant (tile ch : Nat)
  | phaseStart (tile : Nat)
  | phaseStatusCheck (tile : Nat) (ends : List OpStatus)
  | stretchExpiry (tile ch target block : Nat) (prog : Bool)
  | lineReadDispatch (tile line : Nat)
  | codewordDecoded (tile line ch : Nat) (ecc : Ecc) (kidOk tagOk : Bool)
  | rescueHoldTimeout (tile ch line : Nat)
  | mediaTempPoll (tile ch target : Nat) (eighths : Int)
  | mediaAlert (tile ch target : Nat) (crc thermal : Bool)
  | calibrationRead (tile ch block : Nat) (corrected : List (Nat × Nat))
  | mediaScrubRead (tile ch block spn : Nat) (ecc : Ecc) (forged : Option (Nat × Nat))
  | ddrScrubStep (tile block : Nat) (ecc : Ecc)
  | sramScrubStep (tile array way : Nat) (dirty : Bool) (ecc : Ecc)
  | reqReadS (src line : Nat) (env : MediaEnv) (peers : List Nat)
  | reqReadX (src line : Nat) (env : MediaEnv) (peers : List Nat)
  | upgrade (src line : Nat) (env : MediaEnv) (peers : List Nat)
  | claim (src line epoch : Nat) (peers : List Nat)
  | evict (src line : Nat) (c : Content)
  | writeback (src line : Nat) (c : Content)
  | snpS (dst line : Nat)
  | snpI (dst line : Nat)
  | snpF (dst line : Nat)
  | data (dst line : Nat) (g : Grant) (c : Content)
  | grant (dst line : Nat)
  | nack (dst line : Nat)
  | nackResend (dst line : Nat)
  | ticket (dst line num : Nat)
  | evictAck (dst line : Nat)
  | wbAck (dst line : Nat)
  | ackNp (src line : Nat)
  | ackI (src line : Nat) (kind : AckKind) (c : Option Content)
  | ackD (src line : Nat) (c : Content)
  | gone (src line : Nat)
  | done (src line : Nat)
  | victimEvict (tile line : Nat)
  | ncLockWrite (port tile : Nat) (value : Word)
  | pinnedRefill (tile line : Nat)
  | landingReeval (tile entry : Nat)
  | slkBondWrite (port tile : Nat) (value : Word)
  | slkPortCfgWrite (port tile sp : Nat) (value : Word)
  | slkGcmKeyWrite (port tile sp i : Nat) (value : Word)
  | rekey (port tile sp : Nat)
  | portResetDone (tile sp : Nat)
  | signalDetect (tile sp : Nat)
  | eqFrame (tile sp lane : Nat) (control : BitVec 128) (inverted rxGood : Bool)
  | eqTimeout (tile sp : Nat)
  | lockMarker (tile sp lane : Nat) (marker : BitVec 40) (phase : Byte)
  | lockTimeout (tile sp : Nat)
  | config (tile sp : Nat) (f : Flit)
  | configAck (tile sp : Nat) (f : Flit)
  | configRepeat (tile sp : Nat)
  | configTimeout (tile sp : Nat)
  | retrain (tile sp : Nat) (cause : Byte)
  | idle (tile sp : Nat) (f : Flit)
  | req (tile sp cycle : Nat) (f : Flit)
  | cap (tile sp : Nat) (f : Flit)
  | tag (tile sp : Nat) (f : Flit)
  | rekeyReceive (tile sp : Nat) (f : Flit)
  | retrainReceive (tile sp : Nat) (f : Flit)
  | badFlit (tile sp : Nat) (b : BadFlit)
  | tagTimeout (tile sp : Nat)
  | rekeyTimeout (tile sp : Nat)
  | gcmGroupClose (tile sp : Nat)
  | dataFlitSend (tile sp cycle : Nat)
  | switchTakeEffect (tile sp : Nat)
  | prefetchRead (tile sp : Nat) (env : MediaEnv)
  | lineArrive (tile sp line : Nat) (c : Content)
  | retireComplete (tile route : Nat)
  | ingestRead (tile sp : Nat) (upset : BitVec 82)
  | recordCommit (tile sp region : Nat)
  | homeStatePublish (home : Nat)
  | passReset (r : PassReset) (items : Nat) (writes : Bool)
  | passReopen (tile pass : Nat)
  | saddleFrame (tile k : Nat) (crcOk : Bool)
  | ddrBurstRead (tile sub block : Nat) (device : Nat) (ecc : Ecc) (macOk : Bool)
  | tractFirstWrite (tile tract : Nat)
  | minorOverflow (tile leaf : Nat)
  | counterEvict (tile node : Nat)
  | ddrRekey (port tile : Nat)
  | ddrRekeyDone (tile : Nat)
  | keyRotationDone (kid : Nat)
  | ddrTempPoll (tile k : Nat) (hottest : Int) (above : Bool)
  | haltBroadcastArrive (tile : Nat)
  | tamperTrip (tile sensor : Nat) (reading : DWord)
  | faultWindowEnd (tile source : Nat)
  | fltSrcCfgWrite (port tile source : Nat) (value : Word)
  | escalationCancel (actor tile slot : Nat)
  | escalationNow (actor tile slot : Nat)
  | escalationExpiry (tile slot : Nat)
  | tileReadyTimeout (tile : Nat)
  | anlRdLoad (port : Nat) (seq : Word)
  | annalsMirror (cur tile : Nat) (flashOk : Bool)
  | spareSample
  | sensorHistorySample
  | heartbeat (cur : Nat)
  | curatorTakeover (cause : BitVec 2)
  | standbySynced
  | sensorConvert (tile sensor : Nat) (eighths : Int)
  | powerdownWaitEnd
  | enable
  | disable
  | wait
  | check
  | jumpStep
  | seqEnd
  | monitorScan (monitor : Nat) (mv : Nat)
  | holdOffExpiry
  | pwrOffReq
  | pwrOnReq
  | supplyOkFall
  | supplyOkReturn
  | vaonFall
  | por
  | coldReset
  | warmReset (port : Nat) (value : Word)
  | tileReset (tile : Nat)
  | flr (port : Nat)
  | perst (port : Nat) (low : Bool)
  | hostLinkLoss (port : Nat)
  | curReset (cur : Nat)
  | p1Wake
  | p3DurabilityTimeout
  | transitionDone
  | bootReady (b : BootEnv)
  | seqCommit (port : Nat)
  | seqCommitDone (flashOk : Bool)
  | pmcCfgWrite (port tile i : Nat) (value : Word)
  | pmcCntWrite (port tile i : Nat) (high : Bool) (value : Word)
  | clearTd (port tile : Nat)
  | clearProg (port tile : Nat)
  | freeze (port : Nat)
  | thaw (port : Nat)
  | snap (port : Nat)
  | pmcActionAtT (tile : Nat)
  | laneSignalTimeout (tile sp lane : Nat)
  | conversionMissed (tile sensor : Nat)
  | tileReady (tile : Nat)
  | hostLinkUp (port : Nat) (speed width : Byte) (msixEn fmask : Bool)
  | resetNRelease
  | fwRestartTimeout (cur : Nat)
  | curatorRestartDone (version : Word)
  deriving DecidableEq, Repr

end Sys2Proof
end

