-- ==== Sys2Proof/Decode.lean ====
section
/-! DEFINITION. The commands a word spells by the opcode table's bits. No row of the table gives bits: every command
reaches the block by a packet, a register access, a message, a pin or a timer, so no word spells one. -/

namespace Sys2Proof

/-- The command a word of `nbits` bits spells (assumption 12). -/
def decodeTableWord (_nbits _w : Nat) : Option Instr := none

end Sys2Proof
end

