-- ==== Sys2Proof/Machine/Crc.lean ====
section
/-! DEFINITION. CRC-8, and CRC-32C, as page headers, sequencer programs, drift tables and Annals records carry it (R144, R173, R413, R465),
and the bytes of numbers and structures. -/

namespace Sys2Proof.Machine

/-- Eight steps of the reflected CRC-32C polynomial. -/
def crcByte (c : Nat) (b : Byte) : Nat :=
  (List.range 8).foldl (fun c _ => if c % 2 = 1 then c / 2 ^^^ 0x82F63B78 else c / 2) (c ^^^ b.toNat)

/-- CRC-32C: initial value and final inversion FFFF_FFFFh. -/
def crc32c (l : List Byte) : Nat := l.foldl crcByte 0xFFFFFFFF ^^^ 0xFFFFFFFF

/-- One bit into the CRC-8 with polynomial 0x07. -/
def crc8Step (c : Nat) (b : Bool) : Nat :=
  let d := (c / 128 % 2 == 1) != b
  if d then (2 * c % 256) ^^^ 0x07 else 2 * c % 256

/-- A little-endian number. -/
def leNat (l : List Byte) : Nat := l.foldr (fun b a => b.toNat + 256 * a) 0

/-- The number in bytes `off` to `off + n - 1`. -/
def byteField (l : List Byte) (off n : Nat) : Nat := leNat ((l.drop off).take n)

/-- Little-endian bytes of a number. -/
def leBytes (n v : Nat) : List Byte :=
  (List.range n).map (fun i => BitVec.ofNat 8 (v / 256 ^ i))

/-- Bytes laid out by offset; every byte that no piece covers is 0. -/
def layout (n : Nat) (pieces : List (Nat × List Byte)) : List Byte :=
  (List.range n).map (fun i =>
    match pieces.find? (fun p => p.1 ≤ i && i < p.1 + p.2.length) with
    | some p => p.2.getD (i - p.1) 0
    | none => 0)

end Sys2Proof.Machine
end

