-- ==== Sys2Proof/Config.lean ====
section
/-! DEFINITION. What the part leaves open: free values, each an opaque constant with no body. -/

namespace Sys2Proof.Config

/-- A value the manual does not fix (a key, a nonce, a signature, bytes left unspecified), drawn by a
counter of State (assumption 10). -/
opaque free : Nat → DWord

/-- The syndrome or check result that the record of a fault event shows, by the same counter (R414, assumption 95). -/
opaque syndrome : Nat → DWord

/-- The near-cache way pseudo-LRU chooses out of 16 when no way of the set is invalid (R192 names the
policy and no order), by the same counter (assumption 13). -/
opaque victim : Nat → Nat

/-- The reading of a tile's rail monitor, in mV: by 256 × tile + sensor code, and the counter (R60, R434, assumption 54). -/
opaque railReading : Nat → Nat → BitVec 12

/-- The result of a reading whose sensor is not converting or not in use (assumption 54). -/
opaque noReading : Nat → DWord

/-- The DDR5 controller, of the two of a tile, whose devices hold a line, by the line's DDR5 address, modulo 2: the manual gives
no interleave (R109, R499, assumption 98). -/
opaque ddrController : Nat → Nat

/-- Byte `i` of the media code's 64 bytes of parity over the 544 bytes of a codeword, which R142 does not give. -/
opaque mediaCode : List Byte → Nat → Byte

/-- Byte `i` of the header code's bytes over the content of a header codeword, which R144 and R145 do not give. -/
opaque headerCode : List Byte → Nat → Byte

/-- A line of the staging records, the epoch log or a block table of a tile, whose layouts R109, R115 and R178 do not give. -/
opaque recordLine : Nat → Nat → BitVec 1024

/-- The key that KID 0 of a new part holds: 64 bytes of XTS key and 32 of tag key (R384, R391). -/
opaque firstKey : BitVec 768

/-- Byte `i` of the digest of the body of a firmware image, by its version (R452, assumption 55). -/
opaque imageDigest : Word → Nat → Byte

/-- Byte `i` of the identity certificate of a part, by its serial number (R453, assumption 55). -/
opaque certificate : DWord → Nat → Byte

/-- The length of a handshake of a channel of an event pass that begins at a part time (R352, assumption 84). -/
opaque handshake : Nat → Nat → Nat

end Sys2Proof.Config
end

