-- ==== Sys2Proof/Machine/State.lean ====
section
/-! DEFINITION. The machine's state as plain data: everything the manual gives the part, grouped by chapter,
and the state after a power-on reset. -/

namespace Sys2Proof.Machine

/-- The member of the family (R1). -/
inductive Member where
  | vzm2020 | vzm2040 | vzm2080
  deriving DecidableEq, Repr

/-- The strap balls, or their values as sampled (R38, R488). -/
structure Straps where
  tiles    : BitVec 2
  hostmode : Bool
  barmode  : Bool
  curator  : Bool
  boot     : Bool
  profile  : Bool
  seqprog  : Bool
  spare    : BitVec 2
  deriving DecidableEq, Repr

/-- The registers held as register bits: configuration, event bits, counters. The others are read from
the objects below (INVENTORY.md, State). -/
inductive Reg where
  | ringSqBaseLo | ringSqBaseHi | ringCqBaseLo | ringCqBaseHi | ringCqCoal | ringGctrl | ringFlrDrops
  | hpEvent
  | xwWinBaseLo | xwWinBaseHi | xwOwnBaseLo | xwOwnBaseHi | xwViol
  | dwApt | dwOor | dwWrLost
  | catCfg | catPace | catFree | catRate | catRbld | catSplits | catMerges | catRefused | catRelocs | catPads
  | catDestFail
  | medCfg | medScrub | medMlad | medSpare | medWear | medRetired | medPfail | medEfail | medRecon
  | medBusyrec | medHedge | medUnrec | medRoWrites | medDegraded
  | calStat | calStretches | calResets | drfStat | drfUncal | drfCrc | drfHyst
  | ncLock | ncWaydis | ncVacated | ncVacPaLo | ncVacPaHi | ncRefills | ncPinRefused | ncEvicts | ncCe
  | dirWaydis | dirNacks | dirTickets | dirNotpresent | dirOverflow | dirGone | dirRot | dirCe
  | slkBond | slkPortCfg | slkFecCorr | slkFecUncorr | slkHdrErr | slkSeqGap | slkReqLost | slkProto
  | slkCreditStall | slkRetrains | slkTagFail | slkLane | slkGcmKey
  | rtePortCfg | rteLate | rteUnderrun | rteReqRej | rtePoison | rteSuperseded | rteUnready | rteLastLate
  | rteLastReq | rteRouteEvt | rteRoutePos
  | capFlitsLo | capFlitsHi | capPassLo | capPassHi | capLinesLo | capLinesHi | capRewound | capDropped
  | capOrphan | capParity | capBpUs | capRgnEvt
  | pasResets | pasDiscard | pasLast | slReplay
  | cryDeny | cryTagRecon | cryMinorOvf | cryRekeyPtr
  | eccScrubDdr | eccScrubSram | eccWalk | eccDdrCe | eccDdrUe | eccDev | eccSramCe | eccSramUe | eccLost
  | eccLostAddrLo | eccLostAddrHi | eccLostLen
  | fltSumD | fltEsc | anlRdTile | anlRdSeq | anlRdStat | anlRdData | anlUnmirrored | anlSuppr | anlBoot
  | anlRate | fltLast
  | curFwRun | curFwMin | curFwImg | curTamperCfg | curTamperStat | curAlarmA1 | curMbRpl | curMbResLo
  | curMbResHi | curMbBuf
  | tmpDdr
  | partBoot | pwrCfg | seqFault | seqCommit | seqMon | seqProg
  | pmcCfg
  deriving DecidableEq, Repr

/-! ## Host ports, rings and windows -/

/-- A submission ring (R43). -/
structure Sq where
  enable  : Bool := false
  sizeM1  : BitVec 12 := 0
  cq      : BitVec 6 := 0
  urgent  : Bool := false
  burstM1 : BitVec 3 := 0
  err     : Bool := false
  code    : BitVec 5 := 0
  head    : Nat := 0
  tail    : Nat := 0
  deriving DecidableEq, Repr

/-- A completion entry before it is given its phase (R56). -/
structure Cqe where
  tag    : BitVec 16
  cls    : Byte
  code   : Byte
  sqHead : Nat
  sq     : Nat
  noInt  : Bool
  result : DWord
  deriving DecidableEq, Repr

/-- A completion ring (R43), its reserved entries (R49), the completions held for it (R46) and its
unsignalled entries (R70). -/
structure Cq where
  enable   : Bool := false
  intEn    : Bool := false
  sizeM1   : BitVec 12 := 0
  vector   : BitVec 11 := 0
  err      : Bool := false
  code     : BitVec 5 := 0
  head     : Nat := 0
  tail     : Nat := 0
  phase    : Bool := false
  reserved : Nat := 0
  held     : List Cqe := []
  unsig    : Nat := 0
  oldest   : Option Nat := none
  deriving DecidableEq, Repr

/-- A ring fetch outstanding (R48): its SQ, the serial number of its first command (assumption 11), its first entry and
count, the CQ in which entries are reserved for it (R49), whether its data is to be dropped (R44, R50), and the data that
returned ahead of an earlier fetch of the same SQ. -/
structure Fetch where
  sq    : Nat
  first : Nat
  entry : Nat
  count : Nat
  cq    : Nat
  dead  : Bool
  got   : Option (List Fetched)
  deriving DecidableEq, Repr

/-- A parameter of a packet (R52, R60): its lowest bit and its width in the packet, its value, and the bits of that value
that are reserved. -/
structure Param where
  lo    : Nat
  n     : Nat
  value : Nat
  rsv   : Nat
  deriving DecidableEq, Repr

/-- A command fetched and not completed (R61): its port, SQ and serial number (assumption 11), its packet, the SQ head after
it (R47), the completion ring its entry was reserved in, whether it has started, whether it has passed every check that
precedes its effects (R63), whether it counts as in flight for the window its slot field names (R75), and whether its reply
is to be discarded (R64). -/
structure Cmd where
  port    : Nat
  sq      : Nat
  idx     : Nat
  packet  : BitVec 512
  next    : Nat
  cq      : Nat
  started : Bool
  passed  : Bool
  held    : Bool
  dropped : Bool
  deriving DecidableEq, Repr

/-- A Direct Window access that a port holds (R105): a store with its bytes, or a read of a length, what the media answer for its
lines, and whether a rollback held it (R534). -/
structure HeldAccess where
  offset : DWord
  len    : Nat
  store  : Option (List (Option Byte))
  env    : MediaEnv
  rolled : Bool := false
  deriving DecidableEq, Repr

/-- A host port (R2): its link, reset pin, MSI-X capability (R70), fetch rotation and outstanding fetches
(R48), the source the collector's next scan starts with and whether it last found no posted-write credit (R68), held Direct
Window accesses (R105), and whether a close of EPO_CTRL waits for the stores among them (R91). -/
structure HostPort where
  linkUp   : Bool := false
  speed    : Byte := 0
  width    : Byte := 0
  perstLow : Bool := false
  msixEn   : Bool := false
  fmask    : Bool := false
  rotUrg   : Nat := 0
  rotNorm  : Nat := 0
  nextSrc  : Nat := 0
  noCredit : Bool := false
  fetches  : List Fetch := []
  heldDw   : List HeldAccess := []
  closeHeld : Bool := false
  deriving DecidableEq, Repr

/-- An MSI-X table entry (R70); masked after reset, as PCI Express defines. -/
structure Msix where
  addr : DWord := 0
  data : Word := 0
  mask : Bool := true
  deriving DecidableEq, Repr

/-- An exchange window (R75). -/
structure Win where
  enable   : Bool := false
  shift    : BitVec 5 := 12
  slotsM1  : BitVec 18 := 0
  draining : Bool := false
  deriving DecidableEq, Repr

/-- Features of R60. -/
structure Features where
  wall   : DWord := 0
  wallAt : Nat := 0
  auto   : Nat := 4000
  policy : Nat := 0
  deriving DecidableEq, Repr

/-- The host side: `serial` numbers the commands as they are fetched; `cmds` holds the commands that are not completed, those
that have started in the order of their starts, then the others in the order of their fetches; `srcQ` holds a source's
staging queue, at most 8 entries, and `srcWait` the replies a source holds while its queue is full (R67). -/
structure HostState where
  ports    : Tbl HostPort := []
  sqs      : Tbl Sq := []
  cqs      : Tbl Cq := []
  serial   : Nat := 0
  cmds     : List Cmd := []
  srcQ     : Tbl (List (Nat × Cqe)) := []
  srcWait  : Tbl (List (Nat × Cqe)) := []
  msix     : Tbl Msix := []
  pba      : Tbl Bool := []
  wins     : Tbl Win := []
  features : Features := {}
  deriving DecidableEq, Repr

/-! ## Outputs and messages -/

/-- What the part sends out: host-memory writes (data, ownership words, completion entries; R47, R51), reads of ring entries
(R40, R48), MSI-X messages (R70), Direct Window completions (R87, R93, R397), sideband and mailbox replies (R71, R433), flits,
CTRL flits and credit returns (R259, R262, R265), pad words ahead of a flit (R247), lock-marked codewords (R254), and on a media channel a command packet with its target select, the data of
a LOAD and the target reset (R149 to R151), and what is written to DDR5 (R370, R374). -/
inductive Out where
  | hostWrite (port : Nat) (addr : Nat) (bytes : List Byte)
  | hostRead (port : Nat) (addr : Nat) (bytes : Nat)
  | msix (port vector : Nat)
  | dwReply (port : Nat) (ok poisoned : Bool) (bytes : List Byte)
  | unsupported (port : Nat)
  | sideband (tag : BitVec 16) (cls code : Byte) (result : DWord) (bytes : List Byte)
  | flit (tile sp : Nat) (cycle : Option Nat) (hdr : DWord) (payload : Line)
  | streamStart (tile sp : Nat)
  | pads (tile sp n : Nat)
  | locking (tile sp : Nat)
  | training (tile lane : Nat) (control : BitVec 128)
  | mediaCmd (tile ch cs : Nat) (packet : BitVec 80)
  | mediaData (tile ch : Nat) (bytes : List Byte)
  | mediaReset (tile ch : Nat)
  | ddrWrite (tile addr : Nat) (bytes : List Byte)
  deriving DecidableEq, Repr

/-- A coherence message sent (R198): from a tile to a tile, about a line. -/
inductive MsgKind where
  | req (k : ReqKind) | evict | writeback | snpS | snpI | snpF | data (g : Grant) | grant | nack
  | ticket (n : Nat) | evictAck | wbAck | ackNp | ackI | ackS | ackD | gone | done
  deriving DecidableEq, Repr

/-- A message in flight, with the requester's miss-entry number (R199) and the tiles it passes from its source to its destination
(R26, R27). -/
structure Msg where
  kind : MsgKind
  src  : Nat
  dst  : Nat
  line : Nat
  content : Option Content := none
  entry : Nat := 0
  via  : List Nat := []
  deriving DecidableEq, Repr

/-! ## Epochs -/

/-- A close trigger (R95, R534). -/
inductive Trigger where
  | close (c : Option Ctx) (mode : Nat)
  | ctrl
  | auto
  | capture (c : Ctx) (mode : Nat) (region : Nat)
  | undoLog
  | power
  | powerDown
  deriving DecidableEq, Repr

/-- A reply that waits for an epoch to be sealed (mode 0) or durable (mode 1), and the source it comes from (R60, R67, R310). -/
structure Waiter where
  ctx   : Ctx
  epoch : Nat
  mode  : Nat
  src   : Nat
  deriving DecidableEq, Repr

/-- A seal in progress (R96): its epoch, the tiles it has reached and those that have reported, and the
triggers it serves. -/
structure Sealing where
  n        : Nat
  arrived  : List Nat
  reported : List Nat
  triggers : List Trigger
  deriving DecidableEq, Repr

/-- The seal walk of a tile (R220): the epoch it covers, the next set, and the sets still to visit. -/
structure Walk where
  upto : Nat
  set  : Nat
  left : Nat
  deriving DecidableEq, Repr

structure EpochState where
  openE      : Nat := 1
  sealed     : Nat := 0
  durable    : Nat := 0
  abortFirst : Nat := 0
  abortLast  : Nat := 0
  aborts     : Nat := 0
  rollback   : Bool := false
  sealing    : Option Sealing := none
  later      : List Trigger := []
  heldTrig   : List Trigger := []
  autoStart  : Nat := 0
  written    : Bool := false
  writtenNext : Bool := false
  coord      : Nat := 0
  timeTile   : Nat := 0
  waiters    : List Waiter := []
  stamp      : Tbl Nat := []
  walks      : Tbl (Option Walk) := []
  walked     : Tbl Nat := []
  marker     : Tbl Nat := []
  undoFull   : BitVec 8 := 0
  deriving DecidableEq, Repr

/-! ## Catalogue, staging and media -/

/-- Where an entry's data lives (R111, R112): unmapped, on media at a stripe page with a position and
quarter (a folio slot k is position 4 k, quarter 0), split into a leaf group, or lost. -/
inductive Place where
  | unmapped
  | media (spn pos quarter : Nat)
  | split (group : Nat)
  | lost
  deriving DecidableEq, Repr

/-- A folio or leaf entry (R111, R112). `wrong` is the kind, 4 to 7, that a fault left in it (R113). -/
structure Entry where
  place : Place := .unmapped
  reloc : Bool := false
  wrong : Option Nat := none
  deriving DecidableEq, Repr

/-- A line as staging or media hold it, in the clear (assumption 9). -/
structure Stored where
  data   : Line := 0
  poison : Bool := false
  deriving DecidableEq, Repr

/-- A staging buffer (R115): whether it holds a leaf, its folio or leaf index, its epoch, its first tract counted from the
staging base of its home, the staged lines by line index, and its leaves that hold a line of a capture region (R325). -/
structure Buf where
  leaf    : Bool
  key     : Nat
  epoch   : Nat
  tract   : Nat
  lines   : Tbl (Option Stored)
  capture : List Nat
  deriving DecidableEq, Repr

/-- An undo entry (R125). -/
structure Undo where
  leaf  : Bool
  key   : Nat
  epoch : Nat
  old   : Entry
  index : Nat := 0
  deriving DecidableEq, Repr

/-- A note (R129) and the epoch it is programmed in. -/
structure Note where
  leaf  : Nat
  count : Nat
  epoch : Nat
  deriving DecidableEq, Repr

/-- A piece on a stripe page: what it covers, its lines by line index, KID, key version and the KID the metadata
carries (R117, R129, R142). -/
structure PageItem where
  piece : Piece
  lines : Tbl Stored
  kid   : Nat
  ver   : Nat
  notes : List Note
  deriving DecidableEq, Repr

/-- A stripe page (R117, R120, R144): epoch, write sequence, reloc flag, its pieces, whether its program has completed, whether
it merges a folio (R124), the members that were not programmed, and the write bands and stamp of its headers. -/
structure Page where
  epoch      : Nat
  seq        : Nat
  reloc      : Bool
  items      : List PageItem
  programmed : Bool
  merge      : Bool
  missing    : List Nat
  wbands     : List Nat
  wtime      : DWord
  deriving DecidableEq, Repr

/-- A stripe block (R130, R146, R180, R183), with its member block on each channel and the stripe pages whose program failed
(R182). -/
structure StripeBlock where
  members   : List Nat := []
  closed    : Bool := false
  degraded  : Bool := false
  scheduled : Bool := false
  free      : Bool := true
  burnt     : List Nat := []
  deriving DecidableEq, Repr

/-- A relocation in progress (R131): victim and destination blocks, the source and destination pages of its last copy,
the step last completed, what is left of the victim's live set, fixed in step 1, page by page, and whether a destination of its
own has brought the spare to its floor (R132). -/
structure Reloc where
  victim : Nat
  dest   : Nat
  src    : Nat
  spn    : Nat
  step   : Nat
  todo   : List (Nat × List PageItem)
  own    : Bool := false
  deriving DecidableEq, Repr

/-- A line of the Catalogue cache (R114): the 128-byte line of the folio table or of the leaf pool that it holds, and whether it
is to be written back. -/
structure CatLine where
  line  : Nat
  dirty : Bool
  deriving DecidableEq, Repr

/-- A fault event that an operation on lines has met: its tile and source, whether an injection made it, and its address
(R401, R403). -/
structure DueFault where
  tile   : Nat
  id     : Nat
  inject : Bool
  addr   : Nat
  deriving DecidableEq, Repr

/-- The Catalogue engine, stager and weeder (04). `groups` lists the leaf groups in use on each tile, `lost` the LOST ranges and
`found` the folios in them whose entries have been set since (R135); `cooledAt` is when each tile last cooled and `mergeDue` the
folios that sweep left to be merged (R122, R124); `weedAt` is when the weeding budget next allows a page (R134); `cache` the sets
of the Catalogue caches, most recently used line first (R114). `want` lists the entries whose oldest buffer a
write waits for (R116), and `broken` those whose kind a fault has spoilt (R113). `stuck`, `forged` and `faults` are the model's own:
what made the operation in hand wait, or stop the part, and the fault events it has met (assumption 99). -/
structure CatState where
  folios  : Tbl Entry := []
  leaves  : Tbl Entry := []
  bufs    : List Buf := []
  undo    : List Undo := []
  heat    : Tbl Nat := []
  seqs    : Tbl Nat := []
  groups  : Tbl (List Nat) := []
  pages   : Tbl (Option Page) := []
  blocks  : Tbl StripeBlock := []
  relocs  : Tbl (Option Reloc) := []
  notes   : Tbl (List Note) := []
  lost    : List (Nat × Nat) := []
  found   : List Nat := []
  cooledAt : Tbl Nat := []
  mergeDue : List Nat := []
  weedAt  : Tbl Nat := []
  cache   : Tbl (List CatLine) := []
  want    : List (Bool × Nat) := []
  broken  : List (Bool × Nat) := []
  stuck   : Bool := false
  forged  : Option (Nat × Nat) := none
  faults  : List DueFault := []
  deriving DecidableEq, Repr

/-! ## Media channels -/

/-- A media target (R155 to R157, R170, R442). -/
structure Target where
  present   : Bool := false
  qualified : Bool := false
  mapped    : Bool := false
  failItem  : Nat := 0
  failed    : Bool := false
  temp      : Int := 0
  band      : Nat := 0
  hot       : Bool := false
  alert     : Bool := false
  page      : List Byte := []
  polledAt  : Nat := 0
  crcErrs   : Nat := 0
  deriving DecidableEq, Repr

/-- A window waiting on a channel's bus (R158, R159). -/
inductive WindowKind where
  | rescue | foreground | background
  deriving DecidableEq, Repr

/-- `spn`, `unit` and `offs` are the stripe page, the codeword and the read offsets of its READ_CW (R150, R166). -/
structure Window where
  kind  : WindowKind
  line  : Nat
  slots : Nat
  spn   : Nat
  unit  : Nat
  offs  : List Byte
  deriving DecidableEq, Repr

/-- The background windows that are no program loads (R158, R159): the header area of a page in the boot scan, its summary in a
scan of lost ranges, a codeword read by the scrubber, the weeder or a calibration, and the status windows with STATUS and
GET_TEMP. -/
inductive BackKind where
  | header | summary | scrub | weed | calib | status | temp | block
  deriving DecidableEq, Repr

/-- Such a window of a channel: the member block and stripe page it is about, and the unit of its packet. -/
structure BackWin where
  kind  : BackKind
  block : Nat
  spn   : Nat
  unit  : Nat
  deriving DecidableEq, Repr

/-- A program or erase segment of a phase (R160, R161); `seg` is the erase segment, 0 for a program. -/
structure StartedOp where
  ch     : Nat
  target : Nat
  block  : Nat
  spn    : Nat
  prog   : Bool
  seg    : Nat
  deriving DecidableEq, Repr

/-- A media channel (R153, R159, R190). `loads` holds the programs being loaded and the chunks each still needs (R162), `back`
the other background windows that wait and `carried` those whose result has not been taken, `turn` says that a load
is the next background window, `ended` holds the read windows whose codeword has not been decoded, each with whether a read
waited behind it (R501), and `sensing` when each plane last took a READ_CW (R161). -/
structure Chan where
  trained  : Bool := false
  degraded : Bool := false
  rate     : BitVec 2 := 3
  caCrc    : Nat := 0
  queue    : List Window := []
  sinceBg  : Nat := 0
  granted  : Option Window := none
  heldCmds : List (Nat × Nat) := []
  loads    : List (StartedOp × Nat) := []
  back     : List BackWin := []
  carried  : List BackWin := []
  turn     : Bool := false
  ended    : List (Window × Bool) := []
  engineReset : Bool := false
  sensing : List (Nat × Nat) := []
  deriving DecidableEq, Repr

/-- A member block record (R172, R176, R179, R189): `marks` holds the time mark and write band of each eighth;
a count of senses that is not there is the one that the last rebuild scan gave every block. -/
structure MBlock where
  marks   : Tbl (DWord × Nat) := []
  retired : Bool := false
  bad     : Bool := false
  erases  : Nat := 0
  senses  : Option Nat := none
  corrBits : Nat := 0
  uncal   : Bool := false
  ageCls  : Nat := 15
  calAt   : Nat := 0
  deriving DecidableEq, Repr

/-- How a line read runs (R164 to R168). -/
inductive ReadMode where
  | direct | rescue | hedged | second
  deriving DecidableEq, Repr

/-- A line read in progress: its method, the member of the line, members asked, good codewords, failures. -/
structure LineRead where
  mode   : ReadMode
  member : Nat
  asked  : List Nat
  good   : List Nat
  failed : List Nat
  deriving DecidableEq, Repr

/-- A tile's slot calendar (R160, R161): `due` holds the operations of the phase that wait for a sense to end, `freeAt` when the
last stretch ended, `begun` the number of the last phase that has begun. -/
structure Calendar where
  phase      : Nat := 0
  started    : List StartedOp := []
  ready      : List StartedOp := []
  due        : List StartedOp := []
  freeAt     : Nat := 0
  begun      : Option Nat := none
  stretching : Option Nat := none
  startAt    : Nat := 0
  deriving DecidableEq, Repr

/-- A tile's spare figures (R184), drift table (R174), and the count of senses that its last rebuild scan gave every block (R179). -/
structure Spare where
  c0   : Nat := 0
  h    : Nat := 0
  q    : Nat := 0
  ppb  : Nat := 0
  maxOff : Nat := 0
  classId : BitVec 16 := 0
  loaded : Option (List Byte) := none
  next   : Option (List Byte) := none
  dflt   : List Byte := []
  senseBase : Nat := 0
  deriving DecidableEq, Repr

/-- The media (05). `warned` says which spare warnings each tile has given since its baseline (R186), `calFirst` lists the member
blocks that foreground reads moved to the front of the calibration sweep (R176), `scrubbed` is when the scrubber last read each
stripe page on each channel (R178). -/
structure MediaState where
  chans    : Tbl Chan := []
  targets  : Tbl Target := []
  mblocks  : Tbl MBlock := []
  reads    : Tbl (Option LineRead) := []
  cals     : Tbl Calendar := []
  spares   : Tbl Spare := []
  readOnly : Bool := false
  baseline : Bool := false
  spareSet : Option (BitVec 2) := none
  warned   : Tbl (BitVec 2) := []
  calFirst : List Nat := []
  scrubbed : Tbl Nat := []
  deriving DecidableEq, Repr

/-! ## Coherence -/

/-- A near-cache line state (R201). -/
inductive LState where
  | i | s | e | m | ev | refill
  deriving DecidableEq, Repr

/-- A near-cache line of a tile (R194): `up` while its own UPGRADE or CLAIM is outstanding (R201), `wb`
while a WRITEBACK of it is not yet acknowledged (R219). -/
structure NcLine where
  st     : LState := .i
  pin    : Bool := false
  epoch  : Nat := 0
  kid    : Nat := 0
  way    : Nat := 0
  up     : Bool := false
  wb     : Bool := false
  poison : Bool := false
  data   : Line := 0
  deriving DecidableEq, Repr

/-- A miss entry (R195, R208, R209): its number on its tile, which messages carry (R199), the request sent, the refusals it has
had, its ticket, and whether it waits for something other than the home (an eviction of its own tile, R214, or a TILE reset,
R222). -/
structure Miss where
  num      : Nat := 0
  kind     : ReqKind
  stream   : Bool
  reserved : Bool
  refusals : Nat
  ticketed : Bool
  waiting  : Bool
  nackAt   : Option Nat
  deriving DecidableEq, Repr

/-- A directory entry's state (R204). -/
inductive DState where
  | free | sh | ex
  deriving DecidableEq, Repr

structure Dir where
  st       : DState := .free
  sharers  : BitVec 8 := 0
  pins     : BitVec 8 := 0
  busy     : Bool := false
  ticketed : Bool := false
  way      : Nat := 0
  used     : Nat := 0
  deriving DecidableEq, Repr

/-- A request that waits at its home: a ticket (R209), or the request a back-invalidation serves (R218). -/
structure Tkt where
  line  : Nat
  tile  : Nat
  kind  : ReqKind
  epoch : Nat
  env   : MediaEnv
  deriving DecidableEq, Repr

/-- A home transaction (R205, R206): who asked for what, whether it is an upgrade of a sharer, the answers awaited, the
line a holder returned and whether dirty, whether a holder keeps its copy, the tiles that answered GONE, whether the grant
has been sent, the request that a back-invalidation of this line makes room for, and whether it is a back-invalidation (R218). -/
structure Tx where
  req    : Nat
  kind   : ReqKind
  epoch  : Nat
  env    : MediaEnv
  shared : Bool
  await  : List Nat
  line   : Option Content
  dirty  : Bool
  kept   : Bool
  gone   : List Nat
  sent   : Bool
  room   : Option Tkt
  inval  : Bool := false
  deriving DecidableEq, Repr

/-- An eviction buffer (R195, R212). -/
structure EvBuf where
  tile : Nat
  line : Nat
  sent : Bool
  deriving DecidableEq, Repr

/-- The corrected-error window of a way (R228). -/
structure CeWin where
  count : Nat := 0
  start : Nat := 0
  deriving DecidableEq, Repr

/-- A request that waits for a miss entry of its tile (R195). -/
structure MissWait where
  tile     : Nat
  line     : Nat
  kind     : ReqKind
  reserved : Bool
  deriving DecidableEq, Repr

structure CohState where
  nc       : Tbl NcLine := []
  miss     : Tbl (Option Miss) := []
  waits    : List MissWait := []
  evbufs   : List EvBuf := []
  dir      : Tbl Dir := []
  txs      : Tbl (Option Tx) := []
  tickets  : List Tkt := []
  wbUsed   : Tbl Nat := []
  ceWins   : Tbl CeWin := []
  dirCeWins : Tbl CeWin := []
  saddleUp : Tbl (BitVec 3) := []
  replay   : Tbl Bool := []
  useCtr   : Nat := 0
  deriving DecidableEq, Repr

/-! ## Streams, routes, capture -/

/-- A stream port's training state (R252). -/
inductive PState where
  | disabled | reset | detect | eq | lock | config | active | retrain | failed
  deriving DecidableEq, Repr

/-- A flit of a GCM group (R273): its seq; for a CAP flit its region and record; bytes 0 to 5 of its header, as a number; and its
payload as it crosses the link; and when it was received (R274). -/
structure GFlit where
  seq     : Nat
  record  : Option (Nat × Nat)
  aad     : Nat
  payload : Line
  came    : Nat := 0
  deriving DecidableEq, Repr

/-- The GCM group of one direction (R273): its flits not yet covered by a verified TAG; the group counter; and when the first
(sending) or last (receiving) of them came. -/
structure Group where
  flits : List GFlit := []
  ctr   : Nat := 0
  stamp : Nat := 0
  deriving DecidableEq, Repr

/-- A stream port of a tile (07): training state and since when (R252); GCM and precoding in use; receive phase (R250); EQ
timeouts in a row, retrains, tag failures and uncorrectable codewords with their times (R257, R258); bad headers in a row
(R269); per lane the ready frames, held requests, transmitter taps and marked codewords (R253, R254); the CONFIG exchange
(R256) with the seq of each CONFIG sent; sequence numbers and whether a REQ_LOST already covers the next gap (R267); credits held,
outstanding, and freed and not yet returned, by class and oldest first (R264, R265); GCM groups, the 36 bytes of each
direction's key and salt, and rekey (R271 to R276); CTRL flits that wait for a credit; when its fault source was last raised (R270); the stream word, modulo 17, at which its
flits begin (R247); when CONFIG was last sent (R256); and whether the last flit was bad, and the last codeword of the last one, which the
next may share (R257, R270). -/
structure SPort where
  st        : PState := .disabled
  since     : Nat := 0
  gcm       : Bool := false
  precode   : Bool := false
  rxPhase   : Byte := 0
  eqTmo     : Nat := 0
  retrains  : List Nat := []
  tagFails  : List Nat := []
  uncorr    : List Nat := []
  faultAt   : Option Nat := none
  badHdrs   : Nat := 0
  readyRun  : Tbl Nat := []
  heldReq   : Tbl Bool := []
  taps      : Tbl Int := []
  tapStatus : Tbl Nat := []
  lockRun   : Tbl Nat := []
  cfgGot    : Bool := false
  cfgAcked  : Bool := false
  cfgSeqs   : List Nat := []
  myNonce   : DWord := 0
  peerNonce : DWord := 0
  txSeq     : BitVec 16 := 0
  rxSeq     : BitVec 16 := 0
  lostGap   : Bool := false
  dataCr    : Nat := 0
  ctrlCr    : Nat := 0
  capOut    : Nat := 0
  reqOut    : Nat := 0
  ctrlOut   : Nat := 0
  freed     : List Nat := []
  tx        : Group := {}
  rx        : Group := {}
  keyWords  : BitVec 8 := 0
  keyTx     : List Nat := []
  keyRx     : List Nat := []
  keyNew    : Nat := 0
  rekeyAt   : Option Nat := none
  rekeySent : Option Nat := none
  ctrlQ     : List (Nat × Line) := []
  word17    : Nat := 0
  cfgAt     : Nat := 0
  badRun    : Bool := false
  lastCw    : List Nat := []
  deriving DecidableEq, Repr

/-- A route's state (R281). -/
inductive RState where
  | empty | defined | armed | active | ended | retiring
  deriving DecidableEq, Repr

/-- A definition (R280, R284). -/
structure RouteDef where
  port  : Nat
  lat   : Nat
  depth : Nat
  segs  : List Segment
  epoch : Nat
  deriving DecidableEq, Repr

structure Route where
  st     : RState := .empty
  defn   : Option RouteDef := none
  older  : List (Nat × RouteDef) := []
  vector : Nat := 0
  vport  : Nat := 0
  dirty  : Nat := 0
  deriving DecidableEq, Repr

/-- A landing table entry (R297, R299). -/
structure Landing where
  route : Nat
  seg   : Nat
  ready : Bool
  deriving DecidableEq, Repr

/-- A switchback on the stack with its passes left (R286). -/
structure Frame where
  seg  : Nat
  left : Nat
  deriving DecidableEq, Repr

/-- The walk position of a path: segment, line in it and stack (R286). -/
structure Pos where
  seg   : Nat
  off   : Nat
  stack : List Frame
  deriving DecidableEq, Repr

/-- A pending switch (R292, R293, R295): its route, where the new path starts (none for STOP), its target cycle, cut, the
commit horizon of a cut, whether it is on time, the next position to read ahead on its path, and the lines so read. -/
structure Switch where
  route   : Nat
  start   : Option Pos
  cycle   : Nat
  cut     : Bool
  horizon : Nat
  onTime  : Bool
  fetch   : Option Pos
  lines   : List Nat
  deriving DecidableEq, Repr

/-- A line being read ahead (R287, R288): the content that the read found, and whether it missed and so holds a stream miss entry
(R195). -/
structure Ahead where
  line    : Nat
  content : Content
  missed  : Bool
  deriving DecidableEq, Repr

/-- A port engine (R280, R286, R287, R291, R300): the current route, the next position to send, whether the walk has ended,
the next position to read and how many lines are read ahead, whether the next flit carries path start and from which cycle,
the position last sent, pending switches oldest first, the delivery buffer, reads in flight, lines read that wait in the near cache for
a place in the buffer, lines to be read again, whether the path that starts is on time (R296), and whether the flit that is due
waits for its line or for a credit. -/
structure Engine where
  current    : Option Nat := none
  pos        : Option Pos := none
  fetchPos   : Option Pos := none
  ahead      : Nat := 0
  pathStart  : Bool := false
  target     : Option Nat := none
  sentPos    : Option Pos := none
  switches   : List Switch := []
  buffer     : List (Nat × Content) := []
  flight     : List Ahead := []
  parked     : List (Nat × Content) := []
  again      : List Nat := []
  onTime     : Bool := false
  underrun   : Bool := false
  creditWait : Bool := false
  deriving DecidableEq, Repr

/-- A region's state (R308). -/
inductive CState where
  | closed | opened | closing
  deriving DecidableEq, Repr

/-- A mark of a region (R327). -/
structure Mark where
  epoch : Nat
  fill  : Nat
  recs  : Nat
  deriving DecidableEq, Repr

/-- A record in progress at the encoder (R312, R316): its number in the session, flits and bad flits, when its first flit
came, body words so far, the open pass run, bad run and LIT group. -/
structure Rec where
  num    : Nat := 0
  flits  : Nat := 0
  bad    : Nat := 0
  tFirst : Nat := 0
  words  : Nat := 0
  pass   : Nat := 0
  badRun : Nat := 0
  lit    : List Line := []
  deriving DecidableEq, Repr

/-- A record at the capture engine (R321, R323): the body words of its first line, held on die, those of the line being
filled, body words taken, lines written after the first, whether it is dropped, whether its last word has come, and what that
word carries. -/
structure ERec where
  num     : Nat := 0
  first   : List DWord := []
  words   : List DWord := []
  taken   : Nat := 0
  written : Nat := 0
  dropped : Bool := false
  closed  : Bool := false
  flits   : Nat := 0
  bad     : Nat := 0
  tFirst  : Nat := 0
  deriving DecidableEq, Repr

/-- A capture region (R308, R309, R314, R324, R327); `started` counts the records begun in its session. -/
structure Region where
  st      : CState := .closed
  drop    : Bool := false
  raw     : Bool := false
  full    : Bool := false
  base    : Nat := 0
  units   : Nat := 0
  vector  : Nat := 0
  vport   : Nat := 0
  session : Nat := 0
  started : Nat := 0
  fill    : Nat := 0
  recs    : Nat := 0
  dur     : Nat := 0
  openE   : Nat := 0
  closeE  : Nat := 0
  rewound : Nat := 0
  dropped : Nat := 0
  rewSince : Nat := 0
  dropSince : Nat := 0
  marks   : List Mark := []
  enc     : Option Rec := none
  eng     : Option ERec := none
  deriving DecidableEq, Repr

/-- A word of the ingest FIFO (R317), with the record facts its last word carries to the engine. -/
structure FWord where
  region : Nat
  first  : Bool
  last   : Bool
  rawWord : Bool
  data   : DWord
  num    : Nat
  flits  : Nat
  bad    : Nat
  tFirst : Nat
  deriving DecidableEq, Repr

/-- A port's ingest FIFO and CAP credits (R317, R318, R319, R326). -/
structure Ingest where
  bank    : Bool := false
  words0  : List FWord := []
  words1  : List FWord := []
  wr0     : Nat := 0
  wr1     : Nat := 0
  bp      : Bool := false
  bpAt    : Nat := 0
  skipping : List Nat := []
  deriving DecidableEq, Repr

structure LinkState where
  ports : Tbl SPort := []
  deriving DecidableEq, Repr

structure RouteState where
  routes  : Tbl Route := []
  engines : Tbl Engine := []
  landing : Tbl (Option Landing) := []
  deriving DecidableEq, Repr

structure CapState where
  regions : Tbl Region := []
  ingests : Tbl Ingest := []
  stalled : BitVec 8 := 0
  seen    : Tbl (BitVec 8) := []
  written : List Nat := []
  deriving DecidableEq, Repr

/-! ## Passes, data protection -/

/-- A counter-tree leaf (R369, R371) or an interior node (R372) in the counter cache: dirty, and its counter
in the parent. -/
structure Leaf where
  major  : Nat := 0
  minors : Tbl Nat := []
  deriving DecidableEq, Repr

structure CNode where
  cached : Bool := false
  dirty  : Bool := false
  ctr    : Nat := 0
  mac    : DWord := 0
  deriving DecidableEq, Repr

/-- A key version: its XTS key and its tag key (R391). -/
structure KeyVer where
  xts : BitVec 512
  tag : BitVec 256
  deriving DecidableEq, Repr

/-- A KID (R384, R387, R388). -/
inductive KState where
  | empty | live | rotating | retiring | retired | binding
  deriving DecidableEq, Repr

structure Kid where
  st      : KState := .empty
  version : Nat := 0
  curKey  : Option KeyVer := none
  prevKey : Option KeyVer := none
  rotSeq  : Tbl Nat := []
  deriving DecidableEq, Repr

/-- A region of the region table (R383, R386), in 64 KiB units. -/
structure KRegion where
  base : Nat
  units : Nat
  kid  : Nat
  bind : Tbl Nat
  deriving DecidableEq, Repr

structure CryState where
  passes   : Tbl Bool := []
  tracts   : Tbl Bool := []
  leaves   : Tbl Leaf := []
  major    : Tbl Nat := []
  nodes    : Tbl CNode := []
  ddrKey   : Tbl (BitVec 256) := []
  treeKey  : Tbl (BitVec 256) := []
  oldKey   : Tbl (Option (BitVec 256 × BitVec 256)) := []
  rekeying : Tbl Bool := []
  devHits  : Tbl (List (Nat × Nat)) := []
  lostList : Tbl (List (Nat × Nat)) := []
  kids     : Tbl Kid := []
  regions  : List KRegion := []
  rights   : Tbl (BitVec 2) := []
  halted   : BitVec 8 := 0
  haltCause : Nat := 0
  haltTile : Nat := 0
  haltAddr : DWord := 0
  deriving DecidableEq, Repr

/-! ## Faults and Annals -/

/-- A fault source (R403, R405). -/
structure Src where
  base   : Nat
  nThr   : Nat
  winLog : Nat
  raised : Bool
  winAt  : Option Nat
  window : Nat
  total  : Nat
  tLast  : Nat
  deriving DecidableEq, Repr

/-- An escalation slot (R407). -/
structure Slot where
  opened   : Bool := false
  fatal    : Bool := false
  source   : Nat := 0
  deadline : Nat := 0
  deriving DecidableEq, Repr

/-- An armed injection (R411). -/
structure Inj where
  tile   : Nat
  source : Nat
  mask   : DWord
  count  : Nat
  deriving DecidableEq, Repr

structure FaultState where
  shakes : Tbl (Nat × Bool) := []
  srcs   : Tbl Src := []
  slots  : Tbl Slot := []
  inj    : List Inj := []
  halted : BitVec 8 := 0
  failed : BitVec 8 := 0
  resets : List (Nat × Nat) := []
  resetting : List (Nat × Nat) := []
  deriving DecidableEq, Repr

/-- An Annals record (R413). -/
structure ARec where
  code   : BitVec 16
  sev    : Nat
  raised : Bool
  inject : Bool
  repUpd : Bool
  opened : Bool
  tile   : Nat
  source : Nat
  rep    : Nat
  tFirst : Nat
  tLast  : Nat
  seq    : Nat
  boot   : Nat
  addr   : DWord
  value  : DWord
  aux    : DWord
  deriving DecidableEq, Repr

/-- A token bucket (R415): what is missing from a full bucket, in 10⁻⁹ tokens, as of `time`, and the events
suppressed since the last admitted record. -/
structure Bucket where
  missing : Nat := 0
  time    : Nat := 0
  suppr   : Nat := 0
  deriving DecidableEq, Repr

/-- A spare history entry (R421). -/
structure SpareRec where
  t : Nat
  boot : Nat
  tile : Nat
  cause : Nat
  remaining : Nat
  good : Nat
  retired : Nat
  detail : Nat
  deriving DecidableEq, Repr

/-- A sensor history entry (R422), its readings as stored. -/
structure SensorRec where
  t : Nat
  boot : Nat
  tile : Nat
  level : Nat
  ddr : Nat
  jmax : List Int
  mmax : Int
  mtgt : Nat
  deriving DecidableEq, Repr

/-- The Annals (12). `due` holds records made while neither a ring nor a Curator could take them. -/
structure AnnalsState where
  rings    : Tbl (List ARec) := []
  nextSeq  : Tbl Nat := []
  buckets  : Tbl Bucket := []
  mirrors  : Tbl (List ARec) := []
  mirrored : Tbl Nat := []
  lostN    : Tbl Nat := []
  lostSeq  : Tbl Nat := []
  due      : List ARec := []
  spareH   : List SpareRec := []
  sensorH  : List SensorRec := []
  deriving DecidableEq, Repr

/-! ## Curator, thermal -/

inductive Standby where
  | synced | syncing | failed | none
  deriving DecidableEq, Repr

inductive Life where
  | blank | opened | sealed | scrapped
  deriving DecidableEq, Repr

/-- A management command waiting in the Curator queue (R62), or a mailbox request of a port; `params` are those of a packet
that came on the sideband, `committed` is set once its journal entry has committed (R66). -/
structure Mgmt where
  ctx       : Option Ctx
  mailbox   : Option Nat
  opcode    : Byte
  params    : List Param
  committed : Bool
  deriving DecidableEq, Repr

/-- An image slot of a Curator flash (R443, R445): whether its image is valid, and what the header of a valid image says; the
digest only where the part has verified the image itself. -/
structure Image where
  version : Word := 0
  floor   : Word := 0
  valid   : Bool := false
  digest  : Option (BitVec 256) := none
  deriving DecidableEq, Repr

/-- The staged image (R446): bytes staged, whether its last chunk has come, and the verified version and floor. -/
structure Staged where
  total    : Nat := 0
  ended    : Bool := false
  verified : Option (Word × Word) := none
  deriving DecidableEq, Repr

/-- A firmware activation in progress (R447): its command, new version, and step. -/
structure Activation where
  ctx     : Ctx
  version : Word
  floor   : Word
  step    : Nat
  since   : Nat
  deriving DecidableEq, Repr

/-- The mailbox (R432): its owner, whether a request runs, when the owner last used it, and the payload bytes of the request. -/
structure Mailbox where
  owner : Option Nat := none
  busy  : Bool := false
  last  : Nat := 0
  len   : Nat := 0
  deriving DecidableEq, Repr

/-- The attestation report being paged on the sideband (R454): the pieces sent, and when the last was. -/
structure Report where
  nonce : BitVec 256
  bytes : List Byte
  piece : Nat
  last  : Nat
  deriving DecidableEq, Repr

/-- The Curator (13): `restart` is the only running unit while it restarts and none is primary, `active` the image slot
that a unit's parameter store records, `chunks` the bytes staged into image slots, by 2^23 × (2 × tile + slot) + offset, where an
unlisted byte is erased flash (R443, R446). A new part boots its Curator after reset (R491). -/
structure CuratorState where
  primary    : Option Nat := none
  restart    : Option Nat := some 0
  standby    : Standby := .none
  beat       : Tbl Nat := []
  fails      : List (Nat × Nat) := []
  dead       : List Nat := []
  queue      : List Mgmt := []
  images     : Tbl Image := []
  chunks     : Tbl Byte := []
  runSlot    : Tbl Nat := []
  active     : Tbl (Option Nat) := []
  staged     : Staged := {}
  activation : Option Activation := none
  mailbox    : Mailbox := {}
  lifecycle  : Life := .opened
  rootGen    : Nat := 1
  returns    : Nat := 0
  revoked    : BitVec 4 := 0
  ownerKey   : Option (BitVec 544) := none
  lastSundim : Nat := 0
  lastOwner  : Nat := 0
  reserved   : Tbl Nat := []
  nextIndex  : Tbl Nat := []
  report     : Option Report := none
  a1Trips    : List (Nat × Nat) := []
  serial     : DWord := 0
  deriving DecidableEq, Repr

/-- A junction sensor (R434, R439): `same` conversions in a row have read alike, since when the tile's sensors read `refs`,
and `moved` says that another working one has moved by 2 °C from there. -/
structure Sensor where
  enabled : Bool := true
  broken  : Bool := false
  cause   : Nat := 0
  reading : Int := 0
  same    : Nat := 0
  refs    : List Int := []
  moved   : Bool := false
  maxIv   : Int := -32768
  convAt  : Nat := 0
  deriving DecidableEq, Repr

structure ThermalState where
  sensors   : Tbl Sensor := []
  level     : Tbl Nat := []
  ddrForced : Tbl (BitVec 2) := []
  maxLevel  : Tbl Nat := []
  maxDdr    : Tbl Nat := []
  lastSample : Nat := 0
  lastSpare  : Nat := 0
  deriving DecidableEq, Repr

/-! ## Power and counters -/

/-- The sequencer's states (R471). -/
inductive SeqSt where
  | down | rising | up | falling | holdOff
  deriving DecidableEq, Repr

/-- A sequencer program (R465, R466). -/
structure Program where
  steps   : List DWord
  sdEntry : Nat
  autoOn  : Bool
  restart : Bool
  minOff  : Nat
  deriving DecidableEq, Repr

/-- An armed monitor (R466, R470). -/
structure Armed where
  lo : Nat
  hi : Nat
  shutDown : Bool
  deriving DecidableEq, Repr

/-- The power states (R478). -/
inductive PwrSt where
  | p0 | p1 | p2 | p3
  deriving DecidableEq, Repr

/-- A transition in progress (R479): its target, its command, the epoch P3 waits for, when it began, and
whether it has reached its shut-down program. -/
structure Transition where
  target : PwrSt
  ctx    : Option Ctx
  sealAt : Nat
  began  : Nat
  replied : Bool
  deriving DecidableEq, Repr

/-- The power sequencer, its straps, its enables and the curator's power state (chapter 14).
`fresh` has one bit per monitor: it is set when the monitor has been scanned since the current step
began, so that a CHECK step reads a scan of its own (R467). -/
structure PowerState where
  pins       : Straps
  straps     : Straps
  vaonOk     : Bool := true
  supplyOk   : Bool := true
  resetN     : Bool := true
  st         : SeqSt := .down
  step       : Nat := 0
  stepAt     : Nat := 0
  fresh      : BitVec 32 := 0
  offAt      : Nat := 0
  prog       : Program
  builtin    : Bool := true
  progBad    : Bool := false
  flash      : List Byte := []
  onLatched  : Bool := false
  offLatched : Bool := false
  en         : BitVec 24 := 0
  armed      : Tbl (Option Armed) := []
  commitBusy : Bool := false
  commitImg  : List Byte := []
  quietAt    : Nat := 0
  commitOk   : Bool := false
  islands    : Bool := false
  pwr        : PwrSt := .p0
  trans      : Option Transition := none
  down       : Option (Nat × Nat) := none
  ready      : Bool := false
  scanning   : Bool := false
  scanned    : List Nat := []
  strapBad   : Bool := false
  lastReset  : Nat := 0
  resetAt    : Nat := 0
  mediaPages : Tbl Nat := []
  ddrGib     : Tbl Nat := []
  warmBoot   : Bool := false
  deriving DecidableEq, Repr

/-- A scheduled freeze, thaw or snapshot (R503). -/
structure PmcAction where
  freeze : Bool
  thaw   : Bool
  snap   : Bool
  t      : Nat
  acted  : List Nat
  deriving DecidableEq, Repr

structure PmcState where
  shakes     : Tbl (Nat × Bool) := []
  cnt        : Tbl Nat := []
  snapCnt    : Tbl Nat := []
  td         : Tbl Nat := []
  tdSnap     : Tbl Nat := []
  frozenT    : BitVec 8 := 0
  frozen     : Bool := false
  busy       : Bool := false
  done       : BitVec 8 := 0
  seq        : Nat := 0
  snapTime   : Nat := 0
  freezeTime : Nat := 0
  action     : Option PmcAction := none
  deriving DecidableEq, Repr

/-! ## The whole part -/

/-- The part (R20), grouped by chapter. `now` is part time (R11), `unstored` what the parameter store still holds for
registers whose last write it has not committed (R16). `out`, `net`, `freeCtr` and `pending` are the
model's own: what was sent out, the coherence messages in flight, the free values drawn, the commands
waiting, first in, first out (assumptions 2 and 10). -/
structure State where
  member  : Member
  now     : Nat
  regs    : Tbl Word
  unstored : Tbl (Option Word)
  host    : HostState
  epo     : EpochState
  cat     : CatState
  med     : MediaState
  coh     : CohState
  lnk     : LinkState
  rte     : RouteState
  cap     : CapState
  cry     : CryState
  flt     : FaultState
  anl     : AnnalsState
  cur     : CuratorState
  thm     : ThermalState
  pwr     : PowerState
  pmc     : PmcState
  out     : List Out
  net     : List Msg
  freeCtr : Nat
  pending : List Instr
  deriving DecidableEq, Repr

/-- Why the machine stops with a fault: nothing does. A command about a unit that the member does not have finds nothing that
acts (R20, R21, R25, R36), and every other command has an effect. -/
inductive Fault where
  deriving DecidableEq, Repr

/-- Why a command has no meaning in the model. -/
inductive Refusal where
  /-- The command has no meaning yet; raised by an arm of exec only; safe. -/
  | notModelled (mnemonic : String)
  deriving DecidableEq, Repr

/-- The straps of a board that fits the member's tile count and leaves every other strap at 0 (assumption 8). -/
def Straps.fitted : Straps :=
  { tiles := 0, hostmode := false, barmode := false, curator := false, boot := false, profile := false,
    seqprog := false, spare := 0 }

/-- The built-in sequencer program (R469): for n from 0 to 23, ENABLE n and CHECK n, then WAIT 2,000 µs and END; then
for n from 23 down to 0, DISABLE n and WAIT 1,000 µs, and END. -/
def Program.builtin : Program :=
  { steps :=
      (List.range 24).flatMap (fun n =>
        [ BitVec.ofNat 64 (0x1 * 2 ^ 60 + n),
          BitVec.ofNat 64 (0x4 * 2 ^ 60 + 2 * 2 ^ 54 + n * 2 ^ 48 + 1000 * 2 ^ 36 + 4095 * 2 ^ 24 + 20 * 2 ^ 16
            + (50 + 2 * (23 - n)) * 2 ^ 8 + (50 + 2 * (23 - n))) ])
      ++ [ BitVec.ofNat 64 (0x3 * 2 ^ 60 + 2000), BitVec.ofNat 64 (0x6 * 2 ^ 60) ]
      ++ (List.range 24).flatMap (fun k =>
        [ BitVec.ofNat 64 (0x2 * 2 ^ 60 + (23 - k)), BitVec.ofNat 64 (0x3 * 2 ^ 60 + 1000) ])
      ++ [ BitVec.ofNat 64 (0x6 * 2 ^ 60) ],
    sdEntry := 50, autoOn := true, restart := true, minOff := 100 }

/-- The power state right after a power-on reset: aon reset released, straps sampled, the sequencer DOWN with
the built-in program, every other island in reset (R464, R471, R491 step 2). -/
def PowerState.reset : PowerState :=
  { pins := Straps.fitted, straps := Straps.fitted, prog := Program.builtin }

/-- A new part right after a power-on reset (R94, R484): every register at its reset value (no register
listed), part time 0, epoch 1 open with D = 0, memory, queues and caches empty, ready not reported. -/
def State.reset : State :=
  { member := .vzm2020, now := 0, regs := [], unstored := [], host := {}, epo := {}, cat := {}, med := {}, coh := {},
    lnk := {}, rte := {}, cap := {},
    cry := {},
    flt := {}, anl := {}, cur := {}, thm := {}, pwr := PowerState.reset, pmc := {},
    out := [], net := [], freeCtr := 0, pending := [] }

end Sys2Proof.Machine
end

