-- ==== Sys2Proof/Machine/Tbl.lean ====
section
/-! DEFINITION. Sparse tables in canonical form: keys strictly rising, no entry equal to what an unlisted key
reads as. -/

namespace Sys2Proof.Machine

variable {V : Type}

/-- The value at a key; an unlisted key reads as the default `d`. -/
def tget (d : Nat → V) (m : Tbl V) (k : Nat) : V :=
  (m.lookup k).getD (d k)

/-- The table without the keys `p` names. -/
def tdrop (p : Nat → Bool) (m : Tbl V) : Tbl V :=
  m.filter (fun e => !p e.1)

/-- Insertion in key order, replacing. -/
def tput : Tbl V → Nat → V → Tbl V
  | [], k, v => [(k, v)]
  | e :: m, k, v =>
    if k < e.1 then (k, v) :: e :: m else if k = e.1 then (k, v) :: m else e :: tput m k v

/-- A write: the default removes the entry. -/
def tset [DecidableEq V] (d : Nat → V) (m : Tbl V) (k : Nat) (v : V) : Tbl V :=
  if v = d k then tdrop (· == k) m else tput m k v

/-- Every listed entry changed by `f`; the unlisted ones keep the default. -/
def tmap [DecidableEq V] (d : Nat → V) (f : Nat → V → V) (m : Tbl V) : Tbl V :=
  (m.map (fun e => (e.1, f e.1 e.2))).filter (fun e => e.2 ≠ d e.1)

/-- The canonical form. -/
def twf [DecidableEq V] (d : Nat → V) (m : Tbl V) : Bool :=
  decide (m.Pairwise (fun a b => a.1 < b.1)) && m.all (fun e => decide (e.2 ≠ d e.1))

end Sys2Proof.Machine
end

