-- ==== Sys2Proof/Machine/Regs.lean ====
section
/-! DEFINITION. The register file: the fields of every register held as bits, with access, reset value and
survival class (R13, R14, R15), and reading, writing, counting and resetting it. -/

namespace Sys2Proof.Machine

/-- R13. -/
inductive Access where
  | ro | rw | w1c | w1s | wo | rwl
  deriving DecidableEq, Repr

/-- R15. -/
inductive Cls where
  | n | c | w | v
  deriving DecidableEq, Repr

/-- Whose copy of a register an address reaches (R37): a tile's, a host port's, or the one shared copy. -/
inductive RUnit where
  | tile | port | shared
  deriving DecidableEq, Repr

/-- A field of a register (R12). -/
structure RField where
  hi    : Nat
  lo    : Nat
  acc   : Access
  reset : Nat
  cls   : Cls
  deriving DecidableEq, Repr

/-- A register or an array of them: offset of the first (in BAR0, or in a tile's region) and stride. -/
structure RDesc where
  reg    : Reg
  unit   : RUnit
  base   : Nat
  stride : Nat
  count  : Nat
  fields : List RField
  deriving DecidableEq, Repr

/-- Rows of the register table (1), each with the rule that gives it. -/
def regTable1 : List RDesc :=
  [⟨.ringSqBaseLo, .port, 0x20000, 0x40, 64,
    [⟨31, 12, .rw, 0, .v⟩]⟩,  -- R43
   ⟨.ringSqBaseHi, .port, 0x20004, 0x40, 64,
    [⟨31, 0, .rw, 0, .v⟩]⟩,  -- R43
   ⟨.ringCqBaseLo, .port, 0x20010, 0x40, 64,
    [⟨31, 12, .rw, 0, .v⟩]⟩,  -- R43
   ⟨.ringCqBaseHi, .port, 0x20014, 0x40, 64,
    [⟨31, 0, .rw, 0, .v⟩]⟩,  -- R43
   ⟨.ringCqCoal, .port, 0x20020, 0x40, 64,
    [⟨23, 16, .rw, 0, .v⟩, ⟨15, 0, .rw, 0, .v⟩]⟩,  -- R43
   ⟨.ringGctrl, .port, 0x24000, 0x0, 1,
    [⟨31, 31, .ro, 0, .v⟩, ⟨1, 1, .w1c, 0, .v⟩, ⟨0, 0, .w1s, 0, .v⟩]⟩,  -- R43
   ⟨.ringFlrDrops, .port, 0x24004, 0x0, 1,
    [⟨31, 0, .ro, 0, .c⟩]⟩,  -- R43
   ⟨.hpEvent, .port, 0x10100, 0x0, 1,
    [⟨6, 0, .w1c, 0, .v⟩]⟩,  -- R69
   ⟨.xwWinBaseLo, .port, 0x40000, 0x20, 4,
    [⟨31, 12, .rw, 0, .v⟩]⟩,  -- R75
   ⟨.xwWinBaseHi, .port, 0x40004, 0x20, 4,
    [⟨31, 0, .rw, 0, .v⟩]⟩,  -- R75
   ⟨.xwOwnBaseLo, .port, 0x40008, 0x20, 4,
    [⟨31, 12, .rw, 0, .v⟩]⟩,  -- R75
   ⟨.xwOwnBaseHi, .port, 0x4000c, 0x20, 4,
    [⟨31, 0, .rw, 0, .v⟩]⟩,  -- R75
   ⟨.xwViol, .port, 0x40100, 0x0, 1,
    [⟨31, 0, .ro, 0, .v⟩]⟩,  -- R75
   ⟨.dwApt, .port, 0x50000, 0x0, 1,
    [⟨18, 0, .rw, 0, .v⟩]⟩,  -- R85
   ⟨.dwOor, .port, 0x50008, 0x0, 1,
    [⟨31, 0, .ro, 0, .v⟩]⟩,  -- R85
   ⟨.dwWrLost, .port, 0x5000c, 0x0, 1,
    [⟨31, 0, .ro, 0, .v⟩]⟩,  -- R85
   ⟨.catCfg, .tile, 0x10000, 0x0, 1,
    [⟨31, 31, .rw, 1, .n⟩, ⟨23, 16, .rw, 6, .n⟩, ⟨15, 8, .rw, 0, .n⟩, ⟨7, 4, .rw, 4, .n⟩, ⟨3, 0, .rw, 4, .n⟩]⟩,  -- R140
   ⟨.catPace, .tile, 0x10004, 0x0, 1,
    [⟨31, 24, .rw, 0xa, .n⟩, ⟨23, 16, .rw, 0x14, .n⟩, ⟨15, 0, .ro, 0, .v⟩]⟩,  -- R140
   ⟨.catFree, .tile, 0x10008, 0x0, 1,
    [⟨31, 0, .ro, 0, .v⟩]⟩,  -- R140
   ⟨.catRate, .tile, 0x10018, 0x0, 1,
    [⟨31, 16, .ro, 0x1f4, .v⟩, ⟨15, 0, .ro, 0, .v⟩]⟩,  -- R140
   ⟨.catRbld, .tile, 0x1001c, 0x0, 1,
    [⟨31, 31, .ro, 0, .v⟩, ⟨30, 30, .ro, 0, .v⟩, ⟨15, 0, .ro, 0, .v⟩]⟩,  -- R140
   ⟨.catSplits, .tile, 0x10020, 0x0, 1,
    [⟨31, 0, .ro, 0, .c⟩]⟩,  -- R140
   ⟨.catMerges, .tile, 0x10024, 0x0, 1,
    [⟨31, 0, .ro, 0, .c⟩]⟩,  -- R140
   ⟨.catRefused, .tile, 0x10028, 0x0, 1,
    [⟨31, 0, .ro, 0, .c⟩]⟩,  -- R140
   ⟨.catRelocs, .tile, 0x1002c, 0x0, 1,
    [⟨31, 0, .ro, 0, .c⟩]⟩]  -- R140

/-- Rows of the register table (2), each with the rule that gives it. -/
def regTable2 : List RDesc :=
  [⟨.catPads, .tile, 0x10030, 0x0, 1,
    [⟨31, 0, .ro, 0, .c⟩]⟩,  -- R140
   ⟨.catDestFail, .tile, 0x10034, 0x0, 1,
    [⟨31, 0, .ro, 0, .c⟩]⟩,  -- R140
   ⟨.medCfg, .tile, 0x20000, 0x0, 1,
    [⟨31, 16, .rw, 0x3e8, .n⟩, ⟨15, 0, .rw, 0xc8, .n⟩]⟩,  -- R190
   ⟨.medScrub, .tile, 0x20004, 0x0, 1,
    [⟨31, 24, .rw, 0x30, .n⟩, ⟨15, 0, .rw, 0xa8, .n⟩]⟩,  -- R190
   ⟨.medMlad, .tile, 0x20008, 0x0, 1,
    [⟨15, 0, .rw, 0x40, .n⟩]⟩,  -- R190
   ⟨.medSpare, .tile, 0x2000c, 0x0, 1,
    [⟨31, 31, .ro, 0, .v⟩, ⟨30, 30, .ro, 0, .v⟩, ⟨29, 29, .ro, 0, .v⟩, ⟨13, 0, .ro, 0, .v⟩]⟩,  -- R190
   ⟨.medWear, .tile, 0x20010, 0x0, 1,
    [⟨15, 0, .ro, 0, .v⟩]⟩,  -- R190
   ⟨.medRetired, .tile, 0x20014, 0x0, 1,
    [⟨31, 0, .ro, 0, .v⟩]⟩,  -- R190
   ⟨.medPfail, .tile, 0x20018, 0x0, 1,
    [⟨31, 0, .ro, 0, .c⟩]⟩,  -- R190
   ⟨.medEfail, .tile, 0x2001c, 0x0, 1,
    [⟨31, 0, .ro, 0, .c⟩]⟩,  -- R190
   ⟨.medRecon, .tile, 0x20020, 0x0, 1,
    [⟨31, 0, .ro, 0, .c⟩]⟩,  -- R190
   ⟨.medBusyrec, .tile, 0x20024, 0x0, 1,
    [⟨31, 0, .ro, 0, .c⟩]⟩,  -- R190
   ⟨.medHedge, .tile, 0x20028, 0x0, 1,
    [⟨31, 0, .ro, 0, .c⟩]⟩,  -- R190
   ⟨.medUnrec, .tile, 0x2002c, 0x0, 1,
    [⟨31, 0, .ro, 0, .c⟩]⟩,  -- R190
   ⟨.medRoWrites, .tile, 0x20030, 0x0, 1,
    [⟨31, 0, .ro, 0, .c⟩]⟩,  -- R190
   ⟨.medDegraded, .tile, 0x20034, 0x0, 1,
    [⟨31, 0, .ro, 0, .v⟩]⟩,  -- R190
   ⟨.calStat, .tile, 0x30000, 0x0, 1,
    [⟨31, 31, .ro, 0, .v⟩, ⟨30, 30, .ro, 0, .v⟩, ⟨2, 0, .ro, 0, .v⟩]⟩,  -- R191
   ⟨.calStretches, .tile, 0x30004, 0x0, 1,
    [⟨31, 0, .ro, 0, .c⟩]⟩,  -- R191
   ⟨.calResets, .tile, 0x30008, 0x0, 1,
    [⟨31, 0, .ro, 0, .c⟩]⟩,  -- R191
   ⟨.drfStat, .tile, 0x38000, 0x0, 1,
    [⟨31, 31, .ro, 0, .v⟩, ⟨30, 30, .ro, 0, .v⟩, ⟨29, 29, .ro, 1, .v⟩, ⟨15, 0, .ro, 0, .v⟩]⟩,  -- R191
   ⟨.drfUncal, .tile, 0x38004, 0x0, 1,
    [⟨23, 0, .ro, 0, .v⟩]⟩,  -- R191
   ⟨.drfCrc, .tile, 0x38008, 0x0, 1,
    [⟨31, 0, .ro, 0, .v⟩]⟩,  -- R191
   ⟨.drfHyst, .tile, 0x3800c, 0x0, 1,
    [⟨3, 0, .rw, 2, .n⟩]⟩,  -- R191
   ⟨.ncLock, .tile, 0x40000, 0x0, 1,
    [⟨15, 0, .rw, 0, .w⟩]⟩,  -- R236
   ⟨.ncWaydis, .tile, 0x40004, 0x0, 1,
    [⟨31, 16, .ro, 0, .v⟩, ⟨15, 0, .ro, 0, .n⟩]⟩]  -- R236

/-- Rows of the register table (3), each with the rule that gives it. -/
def regTable3 : List RDesc :=
  [⟨.ncVacated, .tile, 0x40010, 0x0, 1,
    [⟨31, 0, .ro, 0, .c⟩]⟩,  -- R236
   ⟨.ncVacPaLo, .tile, 0x40014, 0x0, 1,
    [⟨31, 7, .ro, 0, .v⟩]⟩,  -- R236
   ⟨.ncVacPaHi, .tile, 0x40018, 0x0, 1,
    [⟨16, 0, .ro, 0, .v⟩]⟩,  -- R236
   ⟨.ncRefills, .tile, 0x4001c, 0x0, 1,
    [⟨31, 0, .ro, 0, .c⟩]⟩,  -- R236
   ⟨.ncPinRefused, .tile, 0x40020, 0x0, 1,
    [⟨31, 0, .ro, 0, .c⟩]⟩,  -- R236
   ⟨.ncEvicts, .tile, 0x40028, 0x0, 1,
    [⟨31, 0, .ro, 0, .c⟩]⟩,  -- R236
   ⟨.ncCe, .tile, 0x40100, 0x4, 16,
    [⟨1, 0, .ro, 0, .c⟩]⟩,  -- R236
   ⟨.dirWaydis, .tile, 0x48004, 0x0, 1,
    [⟨15, 0, .ro, 0, .n⟩]⟩,  -- R237
   ⟨.dirNacks, .tile, 0x48008, 0x0, 1,
    [⟨31, 0, .ro, 0, .c⟩]⟩,  -- R237
   ⟨.dirTickets, .tile, 0x4800c, 0x0, 1,
    [⟨31, 0, .ro, 0, .c⟩]⟩,  -- R237
   ⟨.dirNotpresent, .tile, 0x48010, 0x0, 1,
    [⟨31, 0, .ro, 0, .c⟩]⟩,  -- R237
   ⟨.dirOverflow, .tile, 0x48014, 0x0, 1,
    [⟨31, 0, .ro, 0, .c⟩]⟩,  -- R237
   ⟨.dirGone, .tile, 0x48018, 0x0, 1,
    [⟨31, 0, .ro, 0, .c⟩]⟩,  -- R237
   ⟨.dirRot, .tile, 0x48020, 0x0, 1,
    [⟨2, 0, .ro, 0, .v⟩]⟩,  -- R237
   ⟨.dirCe, .tile, 0x48100, 0x4, 16,
    [⟨1, 0, .ro, 0, .c⟩]⟩,  -- R237
   ⟨.slkBond, .tile, 0x50000, 0x0, 1,
    [⟨2, 0, .rw, 0, .n⟩, ⟨5, 3, .rw, 0, .n⟩, ⟨8, 6, .rw, 0, .n⟩, ⟨11, 9, .rw, 0, .n⟩, ⟨14, 12, .rw, 0, .n⟩, ⟨17, 15, .rw, 0, .n⟩, ⟨20, 18, .rw, 0, .n⟩, ⟨23, 21, .rw, 0, .n⟩]⟩,  -- R279
   ⟨.slkPortCfg, .tile, 0x50100, 0x40, 8,
    [⟨31, 31, .rw, 0, .n⟩, ⟨30, 30, .rw, 0, .n⟩, ⟨29, 29, .rw, 0, .n⟩, ⟨7, 0, .rw, 4, .n⟩]⟩,  -- R279
   ⟨.slkFecCorr, .tile, 0x5010c, 0x40, 8,
    [⟨31, 0, .ro, 0, .c⟩]⟩,  -- R279
   ⟨.slkFecUncorr, .tile, 0x50110, 0x40, 8,
    [⟨31, 0, .ro, 0, .c⟩]⟩,  -- R279
   ⟨.slkHdrErr, .tile, 0x50114, 0x40, 8,
    [⟨31, 0, .ro, 0, .c⟩]⟩,  -- R279
   ⟨.slkSeqGap, .tile, 0x50118, 0x40, 8,
    [⟨31, 0, .ro, 0, .c⟩]⟩,  -- R279
   ⟨.slkReqLost, .tile, 0x5011c, 0x40, 8,
    [⟨31, 0, .ro, 0, .c⟩]⟩,  -- R279
   ⟨.slkProto, .tile, 0x50120, 0x40, 8,
    [⟨31, 0, .ro, 0, .c⟩]⟩,  -- R279
   ⟨.slkCreditStall, .tile, 0x50124, 0x40, 8,
    [⟨31, 0, .ro, 0, .c⟩]⟩,  -- R279
   ⟨.slkRetrains, .tile, 0x50128, 0x40, 8,
    [⟨31, 0, .ro, 0, .c⟩]⟩]  -- R279

/-- Rows of the register table (4), each with the rule that gives it. -/
def regTable4 : List RDesc :=
  [⟨.slkTagFail, .tile, 0x5012c, 0x40, 8,
    [⟨31, 0, .ro, 0, .c⟩]⟩,  -- R279
   ⟨.slkLane, .tile, 0x50400, 0x4, 8,
    [⟨31, 31, .ro, 0, .v⟩, ⟨30, 30, .ro, 0, .v⟩, ⟨23, 16, .ro, 0, .v⟩, ⟨15, 8, .ro, 0, .v⟩, ⟨7, 0, .ro, 0, .v⟩]⟩,  -- R279
   ⟨.slkGcmKey, .tile, 0x50800, 0x4, 64,
    [⟨31, 0, .wo, 0, .w⟩]⟩,  -- R279
   ⟨.rtePortCfg, .tile, 0x58100, 0x40, 8,
    [⟨12, 0, .rw, 0x400, .n⟩]⟩,  -- R307
   ⟨.rteLate, .tile, 0x58108, 0x40, 8,
    [⟨31, 0, .ro, 0, .c⟩]⟩,  -- R307
   ⟨.rteUnderrun, .tile, 0x5810c, 0x40, 8,
    [⟨31, 0, .ro, 0, .c⟩]⟩,  -- R307
   ⟨.rteReqRej, .tile, 0x58110, 0x40, 8,
    [⟨31, 0, .ro, 0, .c⟩]⟩,  -- R307
   ⟨.rtePoison, .tile, 0x58114, 0x40, 8,
    [⟨31, 0, .ro, 0, .c⟩]⟩,  -- R307
   ⟨.rteSuperseded, .tile, 0x58118, 0x40, 8,
    [⟨31, 0, .ro, 0, .c⟩]⟩,  -- R307
   ⟨.rteUnready, .tile, 0x5811c, 0x40, 8,
    [⟨31, 0, .ro, 0, .c⟩]⟩,  -- R307
   ⟨.rteLastLate, .tile, 0x58120, 0x40, 8,
    [⟨25, 16, .ro, 0, .v⟩, ⟨15, 0, .ro, 0, .v⟩]⟩,  -- R307
   ⟨.rteLastReq, .tile, 0x58124, 0x40, 8,
    [⟨31, 0, .ro, 0, .v⟩]⟩,  -- R307
   ⟨.rteRouteEvt, .tile, 0x59004, 0x8, 1024,
    [⟨7, 7, .w1c, 0, .v⟩, ⟨6, 6, .w1c, 0, .v⟩, ⟨5, 5, .w1c, 0, .v⟩, ⟨4, 4, .w1c, 0, .v⟩, ⟨3, 3, .w1c, 0, .v⟩, ⟨2, 2, .w1c, 0, .v⟩, ⟨1, 1, .w1c, 0, .v⟩, ⟨0, 0, .w1c, 0, .v⟩]⟩,  -- R307
   ⟨.rteRoutePos, .tile, 0x5b000, 0x4, 1024,
    [⟨19, 16, .ro, 0, .v⟩, ⟨15, 0, .ro, 0, .v⟩]⟩,  -- R307
   ⟨.capFlitsLo, .tile, 0x60104, 0x40, 8,
    [⟨31, 0, .ro, 0, .c⟩]⟩,  -- R332
   ⟨.capFlitsHi, .tile, 0x60108, 0x40, 8,
    [⟨31, 0, .ro, 0, .c⟩]⟩,  -- R332
   ⟨.capPassLo, .tile, 0x6010c, 0x40, 8,
    [⟨31, 0, .ro, 0, .c⟩]⟩,  -- R332
   ⟨.capPassHi, .tile, 0x60110, 0x40, 8,
    [⟨31, 0, .ro, 0, .c⟩]⟩,  -- R332
   ⟨.capLinesLo, .tile, 0x60114, 0x40, 8,
    [⟨31, 0, .ro, 0, .c⟩]⟩,  -- R332
   ⟨.capLinesHi, .tile, 0x60118, 0x40, 8,
    [⟨31, 0, .ro, 0, .c⟩]⟩,  -- R332
   ⟨.capRewound, .tile, 0x6011c, 0x40, 8,
    [⟨31, 0, .ro, 0, .c⟩]⟩,  -- R332
   ⟨.capDropped, .tile, 0x60120, 0x40, 8,
    [⟨31, 0, .ro, 0, .c⟩]⟩,  -- R332
   ⟨.capOrphan, .tile, 0x60124, 0x40, 8,
    [⟨31, 0, .ro, 0, .c⟩]⟩,  -- R332
   ⟨.capParity, .tile, 0x60128, 0x40, 8,
    [⟨31, 0, .ro, 0, .c⟩]⟩,  -- R332
   ⟨.capBpUs, .tile, 0x6012c, 0x40, 8,
    [⟨31, 0, .ro, 0, .c⟩]⟩,  -- R332
   ⟨.capRgnEvt, .tile, 0x6101c, 0x40, 512,
    [⟨6, 6, .w1c, 0, .v⟩, ⟨5, 5, .w1c, 0, .v⟩, ⟨4, 4, .w1c, 0, .v⟩, ⟨3, 3, .w1c, 0, .v⟩, ⟨2, 2, .w1c, 0, .v⟩, ⟨1, 1, .w1c, 0, .v⟩, ⟨0, 0, .w1c, 0, .v⟩]⟩]  -- R332

/-- Rows of the register table (5), each with the rule that gives it. -/
def regTable5 : List RDesc :=
  [⟨.pasResets, .tile, 0xa0004, 0x0, 1,
    [⟨31, 0, .ro, 0, .c⟩]⟩,  -- R358
   ⟨.pasDiscard, .tile, 0xa0008, 0x0, 1,
    [⟨31, 0, .ro, 0, .c⟩]⟩,  -- R358
   ⟨.pasLast, .tile, 0xa000c, 0x0, 1,
    [⟨31, 16, .ro, 0, .c⟩, ⟨15, 15, .ro, 0, .c⟩, ⟨14, 14, .ro, 0, .c⟩, ⟨13, 13, .ro, 0, .c⟩, ⟨6, 0, .ro, 0, .c⟩]⟩,  -- R358
   ⟨.slReplay, .tile, 0xa0010, 0x4, 3,
    [⟨31, 0, .ro, 0, .c⟩]⟩,  -- R358
   ⟨.cryDeny, .tile, 0x70014, 0x0, 1,
    [⟨31, 0, .ro, 0, .c⟩]⟩,  -- R399
   ⟨.cryTagRecon, .tile, 0x70018, 0x0, 1,
    [⟨31, 0, .ro, 0, .c⟩]⟩,  -- R399
   ⟨.cryMinorOvf, .tile, 0x7001c, 0x0, 1,
    [⟨31, 0, .ro, 0, .c⟩]⟩,  -- R399
   ⟨.cryRekeyPtr, .tile, 0x70020, 0x0, 1,
    [⟨31, 0, .ro, 0, .c⟩]⟩,  -- R399
   ⟨.eccScrubDdr, .tile, 0x78000, 0x0, 1,
    [⟨15, 0, .rw, 0x18, .n⟩]⟩,  -- R400
   ⟨.eccScrubSram, .tile, 0x78004, 0x0, 1,
    [⟨15, 0, .rw, 0x3c, .n⟩]⟩,  -- R400
   ⟨.eccWalk, .tile, 0x78008, 0x0, 1,
    [⟨31, 31, .ro, 0, .v⟩, ⟨30, 30, .ro, 0, .v⟩, ⟨13, 0, .ro, 0, .v⟩]⟩,  -- R400
   ⟨.eccDdrCe, .tile, 0x7800c, 0x0, 1,
    [⟨31, 0, .ro, 0, .c⟩]⟩,  -- R400
   ⟨.eccDdrUe, .tile, 0x78010, 0x0, 1,
    [⟨31, 0, .ro, 0, .c⟩]⟩,  -- R400
   ⟨.eccDev, .tile, 0x78014, 0x4, 4,
    [⟨31, 31, .ro, 0, .n⟩, ⟨3, 0, .ro, 0, .n⟩]⟩,  -- R400
   ⟨.eccSramCe, .tile, 0x78024, 0x0, 1,
    [⟨31, 0, .ro, 0, .c⟩]⟩,  -- R400
   ⟨.eccSramUe, .tile, 0x78028, 0x0, 1,
    [⟨31, 0, .ro, 0, .c⟩]⟩,  -- R400
   ⟨.eccLost, .tile, 0x78030, 0x0, 1,
    [⟨31, 0, .ro, 0, .c⟩]⟩,  -- R400
   ⟨.eccLostAddrLo, .tile, 0x78034, 0x0, 1,
    [⟨31, 0, .ro, 0, .c⟩]⟩,  -- R400
   ⟨.eccLostAddrHi, .tile, 0x78038, 0x0, 1,
    [⟨31, 0, .ro, 0, .c⟩]⟩,  -- R400
   ⟨.eccLostLen, .tile, 0x7803c, 0x0, 1,
    [⟨31, 0, .ro, 0, .c⟩]⟩,  -- R400
   ⟨.fltSumD, .shared, 0x60004, 0x0, 1,
    [⟨7, 0, .w1c, 0, .v⟩]⟩,  -- R424
   ⟨.fltEsc, .shared, 0x60008, 0x0, 1,
    [⟨19, 16, .rw, 2, .n⟩, ⟨15, 0, .rw, 0x7d0, .n⟩]⟩,  -- R424
   ⟨.anlRdTile, .shared, 0x60100, 0x0, 1,
    [⟨2, 0, .rw, 0, .v⟩]⟩,  -- R424
   ⟨.anlRdSeq, .shared, 0x60104, 0x0, 1,
    [⟨31, 0, .rw, 0, .v⟩]⟩,  -- R424
   ⟨.anlRdStat, .shared, 0x60108, 0x0, 1,
    [⟨31, 31, .ro, 0, .v⟩, ⟨30, 30, .ro, 0, .v⟩, ⟨29, 29, .ro, 0, .v⟩]⟩]  -- R424

/-- Rows of the register table (6), each with the rule that gives it. -/
def regTable6 : List RDesc :=
  [⟨.anlRdData, .shared, 0x60140, 0x4, 16,
    [⟨31, 0, .ro, 0, .v⟩]⟩,  -- R424
   ⟨.anlUnmirrored, .shared, 0x60240, 0x4, 8,
    [⟨31, 0, .ro, 0, .c⟩]⟩,  -- R424
   ⟨.anlSuppr, .shared, 0x60260, 0x0, 1,
    [⟨31, 0, .ro, 0, .c⟩]⟩,  -- R424
   ⟨.anlBoot, .shared, 0x60264, 0x0, 1,
    [⟨14, 0, .ro, 0, .n⟩]⟩,  -- R424
   ⟨.anlRate, .shared, 0x60300, 0x4, 16,
    [⟨31, 16, .rw, 0x40, .n⟩, ⟨7, 0, .rw, 0x40, .n⟩]⟩,  -- R424
   ⟨.fltLast, .tile, 0x80004, 0x0, 1,
    [⟨31, 29, .ro, 0, .v⟩, ⟨28, 28, .ro, 0, .v⟩, ⟨27, 27, .ro, 0, .v⟩, ⟨11, 0, .ro, 0, .v⟩]⟩,  -- R425
   ⟨.curFwRun, .shared, 0x900004, 0x0, 1,
    [⟨31, 0, .ro, 0, .v⟩]⟩,  -- R462
   ⟨.curFwMin, .shared, 0x900008, 0x0, 1,
    [⟨31, 0, .ro, 0, .n⟩]⟩,  -- R462
   ⟨.curFwImg, .shared, 0x900010, 0x4, 4,
    [⟨31, 0, .ro, 0, .v⟩]⟩,  -- R462
   ⟨.curTamperCfg, .shared, 0x900020, 0x0, 1,
    [⟨1, 0, .rwl, 2, .n⟩, ⟨3, 2, .rwl, 2, .n⟩, ⟨5, 4, .rwl, 1, .n⟩, ⟨7, 6, .rwl, 3, .n⟩, ⟨9, 8, .rwl, 1, .n⟩]⟩,  -- R462
   ⟨.curTamperStat, .shared, 0x900024, 0x0, 1,
    [⟨4, 0, .ro, 0, .v⟩]⟩,  -- R462
   ⟨.curAlarmA1, .shared, 0x900028, 0x0, 1,
    [⟨31, 0, .ro, 0, .c⟩]⟩,  -- R462
   ⟨.curMbRpl, .shared, 0x90010c, 0x0, 1,
    [⟨31, 24, .ro, 0, .v⟩, ⟨23, 16, .ro, 0, .v⟩, ⟨15, 0, .ro, 0, .v⟩]⟩,  -- R462
   ⟨.curMbResLo, .shared, 0x900110, 0x0, 1,
    [⟨31, 0, .ro, 0, .v⟩]⟩,  -- R462
   ⟨.curMbResHi, .shared, 0x900114, 0x0, 1,
    [⟨31, 0, .ro, 0, .v⟩]⟩,  -- R462
   ⟨.curMbBuf, .shared, 0x901000, 0x4, 1024,
    [⟨31, 0, .rw, 0, .v⟩]⟩,  -- R462
   ⟨.tmpDdr, .shared, 0x70004, 0x0, 1,
    [⟨1, 0, .ro, 0, .v⟩, ⟨3, 2, .ro, 0, .v⟩, ⟨5, 4, .ro, 0, .v⟩, ⟨7, 6, .ro, 0, .v⟩, ⟨9, 8, .ro, 0, .v⟩, ⟨11, 10, .ro, 0, .v⟩, ⟨13, 12, .ro, 0, .v⟩, ⟨15, 14, .ro, 0, .v⟩, ⟨17, 16, .ro, 0, .v⟩, ⟨19, 18, .ro, 0, .v⟩, ⟨21, 20, .ro, 0, .v⟩, ⟨23, 22, .ro, 0, .v⟩, ⟨25, 24, .ro, 0, .v⟩, ⟨27, 26, .ro, 0, .v⟩, ⟨29, 28, .ro, 0, .v⟩, ⟨31, 30, .ro, 0, .v⟩]⟩,  -- R463
   ⟨.partBoot, .shared, 0xc, 0x0, 1,
    [⟨31, 0, .ro, 0, .v⟩]⟩,  -- R493
   ⟨.pwrCfg, .shared, 0x70404, 0x0, 1,
    [⟨15, 0, .rw, 0x2710, .n⟩]⟩,  -- R494
   ⟨.seqFault, .shared, 0x7800c, 0x0, 1,
    [⟨31, 31, .w1c, 0, .v⟩, ⟨28, 24, .ro, 0, .v⟩, ⟨23, 16, .ro, 0, .v⟩, ⟨11, 0, .ro, 0, .v⟩]⟩,  -- R495
   ⟨.seqCommit, .shared, 0x78014, 0x0, 1,
    [⟨31, 31, .ro, 0, .v⟩, ⟨7, 0, .ro, 0, .v⟩]⟩,  -- R495
   ⟨.seqMon, .shared, 0x78100, 0x4, 32,
    [⟨11, 0, .ro, 0, .v⟩]⟩,  -- R495
   ⟨.seqProg, .shared, 0x79000, 0x4, 516,
    [⟨31, 0, .rwl, 0, .v⟩]⟩,  -- R495
   ⟨.pmcCfg, .tile, 0x90100, 0x4, 64,
    [⟨31, 31, .rw, 0, .w⟩, ⟨30, 30, .rw, 0, .w⟩, ⟨23, 16, .rw, 0, .w⟩, ⟨15, 8, .rw, 0, .w⟩]⟩]  -- R506

/-- Every register held as bits, in the order of `Reg`. -/
def regTable : List RDesc :=
  regTable1 ++ regTable2 ++ regTable3 ++ regTable4 ++ regTable5 ++ regTable6

/-- The row of a register. -/
def Reg.desc (r : Reg) : RDesc :=
  regTable.getD r.ctorIdx ⟨r, .shared, 0, 0, 0, []⟩

/-- Bits `hi : lo` of a word, as a number. -/
def bits (w : Nat) (hi lo : Nat) : Nat :=
  w / 2 ^ lo % 2 ^ (hi + 1 - lo)

/-- A word with bits `hi : lo` replaced. -/
def setBits (w : Nat) (hi lo v : Nat) : Nat :=
  w - bits w hi lo * 2 ^ lo + (v % 2 ^ (hi + 1 - lo)) * 2 ^ lo

/-- The value of a register at reset. -/
def RDesc.resetWord (d : RDesc) : Nat :=
  d.fields.foldl (fun a f => setBits a f.hi f.lo f.reset) 0

/-- The key of register `r`, copy `u`, index `i`. -/
def regKey (r : Reg) (u i : Nat) : Nat :=
  (r.ctorIdx * 16 + u) * 4096 + i

/-- The register a key names. -/
def keyDesc (k : Nat) : Option RDesc :=
  regTable[k / 65536]?

/-- What an unlisted register reads as: its reset value. -/
def regDefault (k : Nat) : Word :=
  match keyDesc k with
  | some d => BitVec.ofNat 32 d.resetWord
  | none => 0

/-- A register's value. -/
def State.reg (s : State) (r : Reg) (u i : Nat) : Nat :=
  (tget regDefault s.regs (regKey r u i)).toNat

/-- A field of a register. -/
def State.field (s : State) (r : Reg) (u i hi lo : Nat) : Nat :=
  bits (s.reg r u i) hi lo

/-- The part's own write of a whole register. -/
def State.putReg (r : Reg) (u i v : Nat) (s : State) : State :=
  { s with regs := tset regDefault s.regs (regKey r u i) (BitVec.ofNat 32 v) }

/-- The part's own write of a field. -/
def State.putField (r : Reg) (u i hi lo v : Nat) (s : State) : State :=
  s.putReg r u i (setBits (s.reg r u i) hi lo v)

/-- A saturating counter in bits `hi : lo` rises by `n`. -/
def State.count (r : Reg) (u i hi lo n : Nat) (s : State) : State :=
  s.putField r u i hi lo (min (s.field r u i hi lo + n) (2 ^ (hi + 1 - lo) - 1))

/-- A 32-bit saturating counter rises by 1. -/
def State.bump (r : Reg) (u i : Nat) (s : State) : State :=
  s.count r u i 31 0 1

/-- A 64-bit saturating counter in a LO and HI pair rises by `n`. -/
def State.count64 (lo hi : Reg) (u i n : Nat) (s : State) : State :=
  let v := min (s.reg hi u i * 2 ^ 32 + s.reg lo u i + n) (2 ^ 64 - 1)
  (s.putReg lo u i (v % 2 ^ 32)).putReg hi u i (v / 2 ^ 32)

/-- One field of a write (R13): the value the field has after it. RO, W1S and WO fields hold nothing a write
leaves; an RWL field is written where its own rule lets it (`rwl`). -/
def RField.written (f : RField) (rwl : Bool) (old w : Nat) : Nat :=
  match f.acc with
  | .rw => bits w f.hi f.lo
  | .rwl => if rwl then bits w f.hi f.lo else bits old f.hi f.lo
  | .w1c => ((BitVec.ofNat 32 (bits old f.hi f.lo)) &&& ~~~(BitVec.ofNat 32 (bits w f.hi f.lo))).toNat
  | .ro | .w1s | .wo => bits old f.hi f.lo

/-- A host's write of a register by its access codes (R13); reserved bits stay 0 (R14). -/
def RDesc.write (d : RDesc) (rwl : Bool) (old w : Nat) : Nat :=
  d.fields.foldl (fun a f => setBits a f.hi f.lo (f.written rwl old w)) 0

/-- The word with every field but the N fields of another word (R15). -/
def RDesc.withN (d : RDesc) (w n : Nat) : Nat :=
  d.fields.foldl (fun a f => if f.cls == .n then setBits a f.hi f.lo (bits n f.hi f.lo) else a) w

/-- A host's write is taken at once; what the parameter store holds of N fields stays until the write is committed (R16). -/
def State.writeReg (r : Reg) (u i : Nat) (rwl : Bool) (w : Nat) (s : State) : State :=
  let old := s.reg r u i
  let new := r.desc.write rwl old w
  let s1 := s.putReg r u i new
  let k := regKey r u i
  if r.desc.withN old new == old || (tget (fun _ => none) s.unstored k).isSome then s1
  else { s1 with unstored := tset (fun _ => none) s1.unstored k (some (BitVec.ofNat 32 old)) }

/-- The keys above those of the registers, at which the parameter store's fault sources stand (R16, R425). -/
def srcStore : Nat := 2 ^ 40

/-- The N fields of a fault source as one word. -/
def Src.stored (v : Src) : Nat := v.base * 2 ^ 16 + v.nThr * 2 ^ 8 + v.winLog

/-- A source with the N fields of a stored word. -/
def Src.restored (v : Src) (w : Nat) : Src :=
  { v with base := w / 2 ^ 16, nThr := w / 2 ^ 8 % 256, winLog := w % 256 }

/-- The parameter store has committed every write (R16). -/
def State.commitStore (s : State) : State := { s with unstored := [] }

/-- Power is lost: N fields whose last write was not committed have their stored values again (R16). -/
def State.loseUnstored (s : State) : State :=
  { s with
    regs := s.unstored.foldl (fun m e =>
      match e.2, keyDesc e.1 with
      | some w, some d => tset regDefault m e.1 (BitVec.ofNat 32 (d.withN (tget regDefault m e.1).toNat w.toNat))
      | _, _ => m) s.regs
    unstored := [] }

/-- The resets and power events of R15, R479, R483 and R485. -/
inductive Rst where
  | flr (p : Nat)
  | cur
  | tile (t : Nat)
  | warm | cold | por | p2 | p3
  deriving DecidableEq, Repr

/-- Registers of the aon island, which only a POR resets (R32, R484). -/
def Reg.aon : Reg → Bool
  | .seqFault | .seqCommit | .seqMon | .seqProg => true
  | _ => false

/-- Registers of the Curator's own block, which a reset of the primary Curator also resets (assumption 17). -/
def Reg.cur : Reg → Bool
  | .curMbRpl | .curMbResLo | .curMbResHi | .curMbBuf => true
  | _ => false

/-- Whether a reset is a reset of the block that holds copy `u` of a register (R15, R43, R484). -/
def RDesc.hit (d : RDesc) (u : Nat) : Rst → Bool
  | .por => true
  | .cold | .warm | .p3 => !d.reg.aon
  | .tile t => u == t && d.unit != .shared
  | .flr p => u == p && d.unit == .port
  | .p2 => d.unit == .port
  | .cur => d.reg.cur

/-- Whether a field of a class loses its value (R15). -/
def Cls.lost (k : Cls) (hit : Bool) (ownTile : Bool) : Rst → Bool
  | .por | .cold | .p3 => (k == .c || k == .w || k == .v) && hit
  | .warm => (k == .w || k == .v) && hit
  | .tile _ => hit && (k == .v || (k == .w && ownTile))
  | .flr _ | .p2 | .cur => hit && k == .v

/-- The registers after a reset (R15). -/
def resetRegs (e : Rst) (m : Tbl Word) : Tbl Word :=
  tmap regDefault (fun k w =>
    match keyDesc k with
    | none => w
    | some d =>
      let hit := d.hit (k / 4096 % 16) e
      BitVec.ofNat 32 (d.fields.foldl (fun a f =>
        if f.cls.lost hit (d.unit == .tile) e then setBits a f.hi f.lo f.reset else a) w.toNat)) m

/-- The register an address of BAR0 reaches through a port (R33, R34, R37), if it is one held as bits: register,
copy and index. -/
def locate (tiles port off : Nat) : Option (Reg × Nat × Nat) :=
  let inTile := decide (0x100000 ≤ off ∧ off < 0x900000)
  let t := off / 0x100000 - 1
  let o := if inTile then off % 0x100000 else off
  let hit (d : RDesc) : Bool :=
    ((d.unit == .tile) == inTile) && decide (d.base ≤ o) &&
      (if d.stride = 0 then o == d.base
       else (o - d.base) % d.stride == 0 && decide ((o - d.base) / d.stride < d.count))
  if inTile && decide (tiles ≤ t) then none
  else
    match regTable.find? hit with
    | none => none
    | some d =>
      some (d.reg,
        match d.unit with
        | .tile => t
        | .port => port
        | .shared => 0,
        if d.stride = 0 then 0 else (o - d.base) / d.stride)

end Sys2Proof.Machine
end

