-- ==== Sys2Proof/Machine/Ops.lean ====
section
/-! DEFINITION. The named operations of the whole part: its units, outputs and messages, the Annals, and the
raising of vectors. -/

namespace Sys2Proof.Machine

/-! ## Units -/

/-- Populated tiles (R1). -/
def Member.tiles : Member → Nat
  | .vzm2020 => 2
  | .vzm2040 => 4
  | .vzm2080 => 8

def State.tiles (s : State) : Nat := s.member.tiles

/-- Dual host mode (R38, R488). -/
def State.dual (s : State) : Bool := !s.pwr.straps.hostmode

/-- The host ports in use: HP0, and HP1 in dual host mode (R69, R488). -/
def State.ports (s : State) : List Nat := if s.dual then [0, 1] else [0]

def State.hasTile (s : State) (t : Nat) : Bool := decide (t < s.tiles)

def State.hasPort (s : State) (p : Nat) : Bool := s.ports.contains p

/-- The tiles of the part, in order. -/
def State.tileList (s : State) : List Nat := List.range s.tiles

/-- A saddle link of the member (R25). -/
def State.hasSaddle (s : State) (k : Nat) : Bool := decide (2 ^ (k + 1) ≤ s.tiles)

/-- The effect `f`, if the unit that acts exists on this member; an absent unit does nothing (R20, R36, assumption 3). -/
def withUnit (present : Bool) (f : State → State) (s : State) : Host.Outcome State Fault Refusal :=
  .next (if present then f s else s)

/-- The core islands run: the sequencer is UP and the state is P0 or P1, whose clocks restart on use, or P2 while it is left for
a shut-down (R472, R478). -/
def State.coreUp (s : State) : Bool :=
  s.pwr.st == .up && (s.pwr.pwr == .p0 || s.pwr.pwr == .p1 ||
    (s.pwr.pwr == .p2 && (s.pwr.down.isSome || s.pwr.trans.any (fun x => x.target == .p3))))

/-- The port and host islands run: in P0 and P1, with the islands out of reset (R32, R471, R478). -/
def State.portsUp (s : State) : Bool := s.pwr.st == .up && s.pwr.islands && (s.pwr.pwr == .p0 || s.pwr.pwr == .p1)

/-- The host island of a port runs and its link is up, so that accesses through it reach the part (R32, R489). -/
def State.hostUp (s : State) (p : Nat) : Bool :=
  s.portsUp &&
    (tget (fun _ => ({} : HostPort)) s.host.ports p).linkUp

/-- The part serves traffic: ready (R492) and in no security halt (R397). -/
def State.serving (s : State) : Bool :=
  s.pwr.ready && s.coreUp && s.cry.haltCause == 0

/-- A tile that is halted, failed, or under a TILE reset runs nothing (R410). -/
def State.tileRuns (s : State) (t : Nat) : Bool :=
  s.hasTile t && !s.flt.halted.getLsbD t && !s.flt.failed.getLsbD t && !s.flt.resetting.any (fun e => e.1 == t)

/-- A tile has not drained every sealed epoch: its marker is below the last one (R98). -/
def State.draining (s : State) (t : Nat) : Bool := decide (tget (fun _ => 0) s.epo.marker t < s.epo.sealed)

/-- The core, media and DDR5 clocks of a tile: gated in P1, but for a tile that drains (R478, R481). -/
def State.ungated (s : State) (t : Nat) : Bool := s.pwr.pwr != .p1 || s.draining t

/-- A tile's data islands run: its agents and its core island do, its clocks are not gated, and the part is in no security halt (R32,
R397, R478, R481). -/
def State.coreRuns (s : State) (t : Nat) : Bool :=
  s.tileRuns t && s.coreUp && s.cry.haltCause == 0 && s.ungated t

def State.image (s : State) (t b : Nat) : Image := tget (fun _ => {}) s.cur.images (2 * t + b)

/-- An image slot of a Curator's boot flash holds 8 MiB (R443). -/
def imageSpace : Nat := 8 * 2 ^ 20

/-- The Curator units that run (R426). -/
def State.curators (s : State) : List Nat :=
  match s.cur.primary with
  | none => []
  | some p => if s.cur.standby == .synced || s.cur.standby == .syncing then [p, 1 - p] else [p]

/-! ## Part addresses (R28, R108) -/

/-- The fold of a folio index (R28). -/
def fold (f : Nat) : Nat :=
  (List.range 11).foldl (fun a k => a ^^^ (f / 8 ^ k % 8)) 0

/-- The home tile of a folio (R28). -/
def homeFolio (tiles f : Nat) : Nat := fold f % tiles

/-- The tile-local index of a folio (R108). -/
def localFolio (tiles f : Nat) : Nat := f / 8 * (8 / tiles) + fold f / tiles

/-- Lines of a folio and of a leaf. -/
def folioOf (line : Nat) : Nat := line / 512
def leafOf (line : Nat) : Nat := line / 32

/-- The home tile of a line. -/
def State.home (s : State) (line : Nat) : Nat := homeFolio s.tiles (folioOf line)

/-! ## Flat keys -/

/-- Stream port `p` of tile `t`. -/
def portKey (t p : Nat) : Nat := 8 * t + p

/-- Ring or window tables of a host port: SQ and CQ `n`. -/
def ringKey (p n : Nat) : Nat := 64 * p + n

def winKey (p w : Nat) : Nat := 4 * p + w

def vecKey (p v : Nat) : Nat := 2048 * p + v

/-- Channel `c` of tile `t`. -/
def chanKey (t c : Nat) : Nat := 16 * t + c

/-- Target `k` of channel `c` of tile `t`. -/
def targetKey (t c k : Nat) : Nat := 4 * (16 * t + c) + k

/-- Near-cache line `line` on tile `t`. -/
def ncKey (t line : Nat) : Nat := t * 2 ^ 42 + line

/-- Stripe page `spn` of tile `t`. -/
def pageKey (t spn : Nat) : Nat := t * 2 ^ 28 + spn

/-- Route slot `r` of tile `t`. -/
def routeKey (t r : Nat) : Nat := 1024 * t + r

/-- Capture region `r` of port `p` of tile `t`. -/
def regionKey (t p r : Nat) : Nat := 64 * portKey t p + r

/-- Fault source `id` of tile `t`. -/
def srcKey (t id : Nat) : Nat := 4096 * t + id

/-- Escalation slot `n` of tile `t`. -/
def slotKey (t n : Nat) : Nat := 32 * t + n

/-! ## Access to the tables of State -/

def State.port (s : State) (p : Nat) : HostPort := tget (fun _ => {}) s.host.ports p

def State.setPort (p : Nat) (v : HostPort) (s : State) : State :=
  { s with host := { s.host with ports := tset (fun _ => {}) s.host.ports p v } }

def State.sq (s : State) (p n : Nat) : Sq := tget (fun _ => {}) s.host.sqs (ringKey p n)

def State.setSq (p n : Nat) (v : Sq) (s : State) : State :=
  { s with host := { s.host with sqs := tset (fun _ => {}) s.host.sqs (ringKey p n) v } }

/-- A CQ after reset names vector `n` (R43). -/
def cqDefault (k : Nat) : Cq := { vector := BitVec.ofNat 11 (k % 64) }

def State.cq (s : State) (p n : Nat) : Cq := tget cqDefault s.host.cqs (ringKey p n)

def State.setCq (p n : Nat) (v : Cq) (s : State) : State :=
  { s with host := { s.host with cqs := tset cqDefault s.host.cqs (ringKey p n) v } }

def State.win (s : State) (p w : Nat) : Win := tget (fun _ => {}) s.host.wins (winKey p w)

def State.setWin (p w : Nat) (v : Win) (s : State) : State :=
  { s with host := { s.host with wins := tset (fun _ => {}) s.host.wins (winKey p w) v } }

def State.setCmds (l : List Cmd) (s : State) : State :=
  { s with host := { s.host with cmds := l } }

/-! ## Outputs, messages, free values -/

def State.emit (o : Out) (s : State) : State := { s with out := s.out ++ [o] }

/-- A saddle link of a tile that is trained on both sides (R25, R39). -/
def State.linkUp (s : State) (t k : Nat) : Bool :=
  s.hasSaddle k && (tget (fun _ => (0 : BitVec 3)) s.coh.saddleUp t).getLsbD k &&
    (tget (fun _ => (0 : BitVec 3)) s.coh.saddleUp (t ^^^ 2 ^ k)).getLsbD k

/-- The ways of `n` hops from one tile to another over links that are up. Which of several equally short ways round a failed link a
message takes is left open; the model puts lower links first at each tile (DESIGN CHOICE, assumption 98). -/
def State.walks (s : State) (n a b : Nat) : List (List Nat) :=
  match n with
  | 0 => if a = b then [[a]] else []
  | n + 1 => ((List.range 3).filter (fun k => s.linkUp a k)).flatMap (fun k =>
      (s.walks n (a ^^^ 2 ^ k) b).map (fun l => a :: l))

/-- The tiles a message passes from its source to its destination: the differing bits of the tile numbers from the lowest to
the highest, which is the first of the shortest ways (R26); round a failed link, the shortest way that remains (R27). -/
def State.saddlePath (s : State) (a b : Nat) : List Nat :=
  ((List.range 8).findSome? (fun n => (s.walks n a b).head?)).getD []

/-- The number of the requester's miss entry for a line: that of the tile which asks, is answered, or whose request a snoop
serves; 0 for a write-back, which has none (R199). -/
def State.entryOf (s : State) (m : Msg) : Nat :=
  let num (t : Nat) : Nat := ((tget (fun _ => none) s.coh.miss (ncKey t m.line)).map Miss.num).getD 0
  match m.kind with
  | .req _ | .done => num m.src
  | .data _ | .grant | .nack | .ticket _ => num m.dst
  | .snpS | .snpI | .snpF | .ackNp | .ackI | .ackS | .ackD | .gone =>
    match tget (fun _ => none) s.coh.txs m.line with
    | some x => num x.req
    | none => 0
  | .evict | .writeback | .evictAck | .wbAck => 0

def State.send (m : Msg) (s : State) : State :=
  { s with net := s.net ++ [{ m with entry := s.entryOf m, via := s.saddlePath m.src m.dst }] }

/-- A message that arrives leaves the messages in flight. -/
def State.receive (m : Msg) (s : State) : State :=
  { s with net := s.net.eraseP (fun x => { x with entry := 0, via := [] } == { m with entry := 0, via := [] }) }

/-- Whether a way takes a saddle link. -/
def takesLink (t k : Nat) : List Nat → Bool
  | a :: b :: l => (a == t && b == t ^^^ 2 ^ k) || (b == t && a == t ^^^ 2 ^ k) || takesLink t k (b :: l)
  | _ => false

/-- Messages that would cross a failed link go round it (R27). -/
def State.reroute (t k : Nat) (s : State) : State :=
  { s with net := s.net.map (fun m => if takesLink t k m.via then { m with via := s.saddlePath m.src m.dst } else m) }

/-- `n` free values are drawn; the first is `Config.free s.freeCtr` (assumption 10). -/
def State.drawn (n : Nat) (s : State) : State := { s with freeCtr := s.freeCtr + n }

/-- `k` free values as one value of `w` bits, the first drawn lowest (assumption 10). -/
def State.freeBits (s : State) (w k : Nat) : BitVec w :=
  (List.range k).foldl (fun a i => a ||| ((Config.free (s.freeCtr + i)).setWidth w <<< (64 * i))) 0

/-! ## Performance counters (R496, R499) -/

/-- The islands an event belongs to. -/
inductive Island where
  | core | media | ddr | port | saddle | host | cur | aon
  deriving DecidableEq, Repr

/-- A row of the event table: island, instances 0 to `n` - 1, and whether level mode is allowed. -/
structure PmcEvent where
  island : Island
  n      : Nat
  level  : Bool
  deriving DecidableEq, Repr

/-- The event table (R499). -/
def pmcEvent (code : Nat) : Option PmcEvent :=
  if 0x01 ≤ code ∧ code ≤ 0x0C then some ⟨.core, 1, false⟩
  else if 0x0D ≤ code ∧ code ≤ 0x10 then some ⟨.core, 1, true⟩
  else if code = 0x11 then some ⟨.core, 1, false⟩
  else if code = 0x12 then some ⟨.core, 1, true⟩
  else if code = 0x13 ∨ code = 0x14 then some ⟨.core, 8, false⟩
  else if 0x20 ≤ code ∧ code ≤ 0x25 then some ⟨.media, 16, false⟩
  else if code = 0x26 ∨ code = 0x27 then some ⟨.media, 16, true⟩
  else if 0x30 ≤ code ∧ code ≤ 0x33 then some ⟨.ddr, 2, false⟩
  else if 0x40 ≤ code ∧ code ≤ 0x46 then some ⟨.port, 8, false⟩
  else if code = 0x47 then some ⟨.port, 8, true⟩
  else if code = 0x50 ∨ code = 0x51 then some ⟨.saddle, 3, false⟩
  else if code = 0x52 then some ⟨.saddle, 3, true⟩
  else if 0x60 ≤ code ∧ code ≤ 0x62 then some ⟨.host, 1, false⟩
  else if code = 0x63 then some ⟨.host, 1, true⟩
  else if code = 0x70 then some ⟨.cur, 1, true⟩
  else if code = 0x71 then some ⟨.aon, 1, false⟩
  else none

/-! ## Event passes (R351, R352, R354) -/

/-- The shortest and longest handshake of an event pass from an island into the core, in ns: 2 to 3 cycles of each and one more of the
sender's (R352). The core has none. -/
def Island.handshake : Island → Option (Nat × Nat)
  | .core => none
  | .media => some (4, 6)
  | .ddr => some (3, 5)
  | .port | .saddle => some (3, 4)
  | .host => some (4, 6)
  | .cur => some (7, 10)
  | .aon => some (121, 163)

/-- The island that a fault source's unit lies in (R354, R403). -/
def unitIsland (u : Nat) : Island :=
  if u = 0x01 ∨ u = 0x02 then .media
  else if u = 0x03 ∨ u = 0x04 then .ddr
  else if u = 0x08 then .saddle
  else if u = 0x09 ∨ u = 0x0B then .port
  else if u = 0x0C then .host
  else if u = 0x0D ∨ u = 0x0F then .cur
  else if u = 0x10 ∨ u = 0x11 then .aon
  else .core

/-- A pulse reaches a channel of an event pass: whether the core counts it, and the channel's handshake, its end and its pending bit,
after it. In pulse mode the first pulse within a handshake is pending, and the next is sent at its end; further ones are lost. The
VZM-2080 counts each (R351 to R354). How long a handshake takes is a free value within its bounds. -/
def pulse (m : Member) (i : Island) (k now : Nat) (l : Tbl (Nat × Bool)) : Bool × Tbl (Nat × Bool) :=
  match m, i.handshake with
  | .vzm2020, some (lo, hi) | .vzm2040, some (lo, hi) =>
    let len := lo + Config.handshake k now % (hi - lo + 1)
    let (fin, more) := tget (fun _ => (0, false)) l k
    let (fin, more) := if more && decide (fin ≤ now) then (fin + len, false) else (fin, more)
    if fin ≤ now then (true, tset (fun _ => (0, false)) l k (now + len, false))
    else if more then (false, l)
    else (true, tset (fun _ => (0, false)) l k (fin, true))
  | _, _ => (true, l)

/-- Adds 1 to each enabled edge-mode counter of tile `t` that names the event and that its event pass lets it count, unless the part is
frozen (R354, R496). -/
def State.pmcEdge (t ev inst : Nat) (s : State) : State :=
  if s.pmc.frozenT.getLsbD t then s
  else
    let hit (i : Nat) : Bool :=
      let c := s.reg .pmcCfg t i
      bits c 31 31 == 1 && bits c 30 30 == 0 && bits c 23 16 == ev &&
        (bits c 15 8 == inst || bits c 15 8 == 255)
    if (List.range 64).any hit then
      let (counts, l) := pulse s.member ((pmcEvent ev).elim .core (·.island)) ((256 * t + ev) * 256 + inst) s.now s.pmc.shakes
      { s with pmc := { s.pmc with
          shakes := l
          cnt := if counts then (List.range 64).foldl (fun m i =>
            if hit i then
              tset (fun _ => 0) m (64 * t + i) (min (tget (fun _ => 0) m (64 * t + i) + 1) (2 ^ 64 - 1))
            else m) s.pmc.cnt else s.pmc.cnt } }
    else s

/-- `n` occurrences of an event. -/
def State.pmcEdges (t ev inst n : Nat) (s : State) : State :=
  (List.range n).foldl (fun s _ => s.pmcEdge t ev inst) s

/-- Adds to a top-down category of a group of tile `t`: group `p` a port, `8 + c` a channel (R500, R501). -/
def State.topDown (t group cat n : Nat) (s : State) : State :=
  if s.pmc.frozenT.getLsbD t then s
  else
    let k := (24 * t + group) * 4 + cat
    { s with pmc := { s.pmc with
        td := tset (fun _ => 0) s.pmc.td k (min (tget (fun _ => 0) s.pmc.td k + n) (2 ^ 64 - 1)) } }

/-! ## The Annals (R413 to R419) -/

/-- An event as it asks for a record. `sev` is 7 for an event that is not a fault. -/
structure AEvent where
  code   : Nat
  sev    : Nat := 7
  raised : Bool := false
  inject : Bool := false
  opened : Bool := false
  source : Nat := 0
  addr   : Nat := 0
  value  : Nat := 0
  aux    : Nat := 0
  deriving DecidableEq, Repr

/-- Categories 8h to Bh are privileged (R414). -/
def privileged (code : Nat) : Bool := decide (8 ≤ code / 4096 ∧ code / 4096 ≤ 11)

def bucketKey (t code : Nat) : Nat := 65536 * t + code

/-- The tokens missing from a bucket now, in 10⁻⁹ tokens (R415). -/
def State.missing (s : State) (t code : Nat) : Nat :=
  let b := tget (fun _ => {}) s.anl.buckets (bucketKey t code)
  b.missing - s.field .anlRate 0 (code / 4096) 31 16 * (s.now - b.time)

/-- Whether a bucket holds a token (R415). -/
def State.hasToken (s : State) (t code : Nat) : Bool :=
  decide (s.missing t code + 10 ^ 9 ≤ s.field .anlRate 0 (code / 4096) 7 0 * 10 ^ 9)

def AEvent.toRec (e : AEvent) (t rep now seq boot : Nat) : ARec :=
  { code := BitVec.ofNat 16 e.code, sev := e.sev, raised := e.raised, inject := e.inject, repUpd := false,
    opened := e.opened, tile := t, source := e.source, rep := rep, tFirst := now, tLast := now, seq := seq,
    boot := boot, addr := BitVec.ofNat 64 e.addr, value := BitVec.ofNat 64 e.value,
    aux := BitVec.ofNat 64 e.aux }

/-- The ring limit (R417). -/
def ringLimit : Nat := 16384

/-- The mirror limit (R418). -/
def mirrorLimit : Nat := 524288

/-- The sequence number up to which some running Curator unit has mirrored tile `t`'s ring (R418). -/
def State.mirroredTo (s : State) (t : Nat) : Nat :=
  (s.curators.map (fun c => tget (fun _ => 0) s.anl.mirrored (8 * c + t))).foldl max 0

/-- A record enters tile `t`'s ring with the next sequence number; the oldest leaves a full ring, and is lost if
no unit has mirrored it (R417, R418). -/
def State.ringWrite (t : Nat) (e : AEvent) (rep : Nat) (s : State) : State :=
  let seq := tget (fun _ => 0) s.anl.nextSeq t
  let ring := tget (fun _ => []) s.anl.rings t
  let r := e.toRec t rep s.now seq (s.field .anlBoot 0 0 14 0)
  let full := decide (ringLimit ≤ ring.length)
  let gone : Option ARec := if full then ring.head? else none
  let lost : Bool := match gone with
    | some g => decide (s.mirroredTo t ≤ g.seq)
    | none => false
  let s1 : State := if lost then s.bump .anlUnmirrored 0 t else s
  { s1 with anl := { s1.anl with
      rings := tset (fun _ => []) s1.anl.rings t ((if full then ring.tail else ring) ++ [r])
      nextSeq := tset (fun _ => 0) s1.anl.nextSeq t ((seq + 1) % 2 ^ 32)
      lostN := if lost then tset (fun _ => 0) s1.anl.lostN t (tget (fun _ => 0) s1.anl.lostN t + 1)
        else s1.anl.lostN
      lostSeq := if lost && tget (fun _ => 0) s1.anl.lostN t == 0 then
          tset (fun _ => 0) s1.anl.lostSeq t ((gone.map ARec.seq).getD 0)
        else s1.anl.lostSeq } }

/-- The newest record with a code takes a repeat (R416). The list is oldest first. -/
def repeatNewest (code now : Nat) (l : List ARec) : List ARec :=
  let rec go : List ARec → List ARec
    | [] => []
    | r :: rs =>
      if r.code == BitVec.ofNat 16 code then
        { r with rep := min (r.rep + 1) 65535, tLast := now, repUpd := true } :: rs
      else r :: go rs
  (go l.reverse).reverse

/-- Records of aon and Curator events in P2, in P3 and while the part is off go straight into the mirrors, with seq
FFFF_FFFFh (R419, R478); they wait where no Curator runs yet (assumption 53). -/
def State.mirrorWrite (t : Nat) (e : AEvent) (s : State) : State :=
  let r := e.toRec t 0 s.now (2 ^ 32 - 1) (s.field .anlBoot 0 0 14 0)
  { s with anl := { s.anl with
      due := if s.curators.isEmpty then s.anl.due ++ [r] else s.anl.due
      mirrors := s.curators.foldl (fun m c =>
        let l := tget (fun _ => []) m c
        tset (fun _ => []) m c ((if mirrorLimit ≤ l.length then l.tail else l) ++ [r])) s.anl.mirrors } }

/-- A bucket after an event: a token taken or not, the suppressed count cleared or raised (R415). -/
def State.setBucket (t code : Nat) (take : Bool) (suppr : Nat) (s : State) : State :=
  { s with anl := { s.anl with
      buckets := tset (fun _ => {}) s.anl.buckets (bucketKey t code)
        { missing := s.missing t code + (if take then 10 ^ 9 else 0), time := s.now, suppr := suppr } } }

/-- An event asks for a record on tile `t` (R415, R416, R419). -/
def State.annal (t : Nat) (e : AEvent) (s : State) : State :=
  if s.pwr.pwr == .p2 || s.pwr.pwr == .p3 || s.pwr.st != .up then s.mirrorWrite t e
  else
    let token := s.hasToken t e.code
    let suppr := (tget (fun _ => {}) s.anl.buckets (bucketKey t e.code)).suppr
    if privileged e.code then
      if token then (s.setBucket t e.code true 0).ringWrite t e 0
      else if (tget (fun _ => []) s.anl.rings t).any (fun r => r.code == BitVec.ofNat 16 e.code) then
        { s with anl := { s.anl with
            rings := tset (fun _ => []) s.anl.rings t
              (repeatNewest e.code s.now (tget (fun _ => []) s.anl.rings t)) } }
      else s.ringWrite t e 0
    else if token || (2 ≤ e.sev && e.sev ≤ 4) then
      (s.setBucket t e.code token 0).ringWrite t e (min suppr 65535)
    else (s.setBucket t e.code false (suppr + 1)).bump .anlSuppr 0 0

/-- A register write ignored or refused, or an action refused: record 0x5001 (R414). `actor` is the port, or FFh
for the Curator. -/
def State.refusedWrite (t actor off value : Nat) (s : State) : State :=
  s.annal t { code := 0x5001, addr := off, value := value, aux := actor }

/-- The BAR0 base of tile `t`'s region (R33). -/
def tileBase (t : Nat) : Nat := 0x100000 * (t + 1)

/-! ## Vectors (R69, R70) -/

/-- Whether one MSI-X message of a vector can be sent at once. -/
def State.canSend (s : State) (p v : Nat) : Bool :=
  let h := s.port p
  h.msixEn && !h.fmask && h.linkUp && !(tget (fun _ => {}) s.host.msix (vecKey p v)).mask

/-- One raise of vector `v` on port `p`. -/
def State.raiseVector (p v : Nat) (s : State) : State :=
  if tget (fun _ => false) s.host.pba (vecKey p v) then s
  else if s.canSend p v then s.emit (.msix p v)
  else { s with host := { s.host with pba := tset (fun _ => false) s.host.pba (vecKey p v) true } }

/-- Event cause `k` on port `p`: vector 64 + k is raised when its bit of HP_EVENT changes from 0 to 1. -/
def State.raiseOn (p k : Nat) (s : State) : State :=
  if s.field .hpEvent p 0 k k = 1 then s
  else (s.putField .hpEvent p 0 k k 1).raiseVector p (64 + k)

/-- An event vector on every host port in use. -/
def State.raiseEvent (k : Nat) (s : State) : State :=
  s.ports.foldl (fun s p => s.raiseOn p k) s

/-- A bit of a route's RTE_ROUTE_EVT (R279): its vector is raised when the bit changes from 0 to 1. -/
def State.routeEvent (t r bit : Nat) (s : State) : State :=
  if s.field .rteRouteEvt t r bit bit = 1 then s
  else
    let v := tget (fun _ => ({} : Route)) s.rte.routes (routeKey t r)
    let s := s.putField .rteRouteEvt t r bit bit 1
    if v.vector = 0 then s else s.raiseVector v.vport v.vector

/-- A bit of a region's CAP_RGN_EVT (R307), in the same way. -/
def State.regionEvent (t p r bit : Nat) (s : State) : State :=
  let i := 64 * p + r
  if s.field .capRgnEvt t i bit bit = 1 then s
  else
    let v := tget (fun _ => ({} : Region)) s.cap.regions (regionKey t p r)
    let s := s.putField .capRgnEvt t i bit bit 1
    if v.vector = 0 then s else s.raiseVector v.vport v.vector

/-! ## Power states (R478, R480) -/

/-- The number of a power state. -/
def PwrSt.code : PwrSt → Nat
  | .p0 => 0
  | .p1 => 1
  | .p2 => 2
  | .p3 => 3

/-- P1 ends: the time that every stream port's credits were withheld counts in CAP_BP_US, but where backpressure counts it already
(R331, R332). -/
def State.endQuiet (s : State) : State :=
  if s.pwr.pwr != .p1 then s
  else s.tileList.foldl (fun s t => (List.range 8).foldl (fun (s : State) p =>
    if (tget (fun _ => ({} : Ingest)) s.cap.ingests (portKey t p)).bp || s.field .slkBond t 0 (3 * p + 2) (3 * p) = 0 then s
    else s.count .capBpUs t p 31 0 ((s.now - s.pwr.quietAt) / 1000)) s) s

/-- The power state changes: recorded as 0x9002, vector 67 on both ports (R69, R414). -/
def State.enterPower (v : PwrSt) (s : State) : State :=
  let s1 := (s.endQuiet.annal 0 { code := 0x9002, addr := s.pwr.pwr.code, value := v.code }).raiseEvent 3
  { s1 with pwr := { s1.pwr with pwr := v, quietAt := s1.now } }

/-- Work that a quiet part cannot serve returns it to P0 (R480). -/
def State.wake (s : State) : State := if s.pwr.pwr == .p1 then s.enterPower .p0 else s

end Sys2Proof.Machine
end

