-- ==== Sys2Proof/Machine/Flags.lean ====
section
/-! DEFINITION. Status classes and codes (R57), status replies (R56) and the completion path (R51, R64, R67). -/

namespace Sys2Proof.Machine

/-- A status class and code (R57). -/
structure Status where
  cls  : Nat
  code : Nat
  deriving DecidableEq, Repr

namespace Status

/-- 00h/00h. -/
def done : Status := ⟨0, 0⟩
/-- 00h/01h: a line needed stripe reconstruction. -/
def rebuilt : Status := ⟨0, 1⟩
/-- 01h: Curator queue full, role change, firmware activation. -/
def queueFull : Status := ⟨1, 1⟩
def roleChange : Status := ⟨1, 2⟩
def activating : Status := ⟨1, 3⟩
/-- 02h. -/
def opcode : Status := ⟨2, 1⟩
def reserved : Status := ⟨2, 2⟩
def range : Status := ⟨2, 3⟩
def length : Status := ⟨2, 4⟩
def slotWindow : Status := ⟨2, 5⟩
def slotGen : Status := ⟨2, 6⟩
def slotOwn : Status := ⟨2, 7⟩
def slotLen : Status := ⟨2, 8⟩
def param : Status := ⟨2, 9⟩
def unknown : Status := ⟨2, 10⟩
def state : Status := ⟨2, 11⟩
def path : Status := ⟨2, 12⟩
/-- 03h/01h: a line of the range is unrecoverable. -/
def lost : Status := ⟨3, 1⟩
/-- 04h: host memory read failed; data with an internal poison tag. -/
def hostRead : Status := ⟨4, 1⟩
def poison : Status := ⟨4, 2⟩
/-- 05h. -/
def right : Status := ⟨5, 1⟩
def lifecycle : Status := ⟨5, 2⟩
def token : Status := ⟨5, 3⟩
def tokenUsed : Status := ⟨5, 4⟩
def retired : Status := ⟨5, 5⟩
/-- 06h: aborted after starting, before starting. -/
def aborted : Status := ⟨6, 1⟩
def abortedBefore : Status := ⟨6, 2⟩
/-- 07h/01h: the part is read-only. -/
def readOnly : Status := ⟨7, 1⟩

end Status

/-- The pairs of R57. No other pair occurs. -/
def Status.listed (st : Status) : Bool :=
  (st.cls == 0 && st.code ≤ 1) || (st.cls == 1 && 1 ≤ st.code && st.code ≤ 3) ||
  (st.cls == 2 && 1 ≤ st.code && st.code ≤ 12) || (st.cls == 3 && st.code == 1) ||
  (st.cls == 4 && 1 ≤ st.code && st.code ≤ 2) || (st.cls == 5 && 1 ≤ st.code && st.code ≤ 5) ||
  (st.cls == 6 && 1 ≤ st.code && st.code ≤ 2) || (st.cls == 7 && st.code == 1)

/-- The sources of a port's completion collector (R67): 0 the interpreter, 1 the Curator, then for each tile its
four copy engines and its stream-control unit. -/
def srcInterp : Nat := 0
def srcCurator : Nat := 1
def srcCopy (t : Nat) : Nat := 2 + 5 * t
def srcStream (t : Nat) : Nat := 2 + 5 * t + 4

/-- The sources of a port, S = 5 T + 2 (R67). -/
def State.sources (s : State) : Nat := 5 * s.tiles + 2

/-- The key of source `src` of port `p`. -/
def srcQKey (p src : Nat) : Nat := 64 * p + src

/-- A 16-byte completion entry with its phase bit (R56). -/
def Cqe.bytes (e : Cqe) (phase : Bool) : List Byte :=
  leBytes 2 e.tag.toNat ++ [e.cls, e.code] ++ leBytes 2 (e.sqHead % 4096)
    ++ [BitVec.ofNat 8 (e.sq % 64), if phase then 1 else 0] ++ leBytes 8 e.result.toNat

/-- A fetched command by its ring entry. -/
def Cmd.is (k : Cmd) (p q i : Nat) : Bool := k.port == p && k.sq == q && k.idx == i

def State.findCmd (s : State) (p q i : Nat) : Option Cmd := s.host.cmds.find? (fun k => k.is p q i)

/-- The packet bytes `off` to `off + n - 1`, little-endian (R52). -/
def pkt (p : BitVec 512) (off n : Nat) : Nat := p.toNat / 2 ^ (8 * off) % 2 ^ (8 * n)

def Cmd.opcode (k : Cmd) : Nat := pkt k.packet 0 1

/-- The completion entry that answers a command: the SQ head after it (R47). -/
def Cmd.cqe (k : Cmd) (st : Status) (result : Nat) : Cqe :=
  { tag := BitVec.ofNat 16 (pkt k.packet 2 2), cls := BitVec.ofNat 8 st.cls, code := BitVec.ofNat 8 st.code,
    sqHead := k.next, sq := k.sq,
    noInt := pkt k.packet 1 1 / 2 % 2 == 1, result := BitVec.ofNat 64 result }

/-- The staging queue of a source, and the replies the source holds while that is full (R67). -/
def State.staged (s : State) (p src : Nat) : List (Nat × Cqe) := tget (fun _ => []) s.host.srcQ (srcQKey p src)

def State.waiting (s : State) (p src : Nat) : List (Nat × Cqe) := tget (fun _ => []) s.host.srcWait (srcQKey p src)

def State.setStaged (p src : Nat) (l : List (Nat × Cqe)) (s : State) : State :=
  { s with host := { s.host with srcQ := tset (fun _ => []) s.host.srcQ (srcQKey p src) l } }

def State.setWaiting (p src : Nat) (l : List (Nat × Cqe)) (s : State) : State :=
  { s with host := { s.host with srcWait := tset (fun _ => []) s.host.srcWait (srcQKey p src) l } }

/-- The entries of a staging queue (R67). -/
def stagingDepth : Nat := 8

/-- A completion of a source: it enters the staging queue, or waits at its source while that is full (R67). -/
def State.stageCqe (p src : Nat) (e : Nat × Cqe) (s : State) : State :=
  if (s.staged p src).length < stagingDepth && (s.waiting p src).isEmpty then s.setStaged p src (s.staged p src ++ [e])
  else s.setWaiting p src (s.waiting p src ++ [e])

/-- The request of a ring command leaves the Curator queue as it completes (R62); one of the sideband has left it by then. -/
def State.leaveQueue (c : Ctx) (s : State) : State :=
  match c.path with
  | .sideband => s
  | .ring _ _ _ => { s with cur := { s.cur with queue := s.cur.queue.eraseP (fun m => m.ctx.any (fun x => x.path == c.path)) } }

/-- The header of a ring command (R52). -/
def Cmd.ctx (k : Cmd) : Ctx :=
  { path := .ring k.port k.sq k.idx, tag := BitVec.ofNat 16 (pkt k.packet 2 2),
    noInt := pkt k.packet 1 1 / 2 % 2 == 1, rsv := false }

/-- The reply to a ring command leaves by its source, or is discarded and counted (R64); the command is no longer
outstanding and leaves the Curator queue (R62). -/
def State.answer (src : Nat) (k : Cmd) (st : Status) (result : Nat) (s : State) : State :=
  let s1 := (s.setCmds (s.host.cmds.filter (fun j => !j.is k.port k.sq k.idx))).leaveQueue k.ctx
  if k.dropped then s1.bump .ringFlrDrops k.port 0 else s1.stageCqe k.port src (k.cq, k.cqe st result)

/-- Whether a command came through a port's rings. -/
def onPort (c : Ctx) (p : Nat) : Bool :=
  match c.path with
  | .ring q _ _ => q == p
  | .sideband => false

/-- The reply to a command (R56, R71). -/
def State.replyWith (src : Nat) (c : Ctx) (st : Status) (result : Nat) (bytes : List Byte) (s : State) : State :=
  match c.path with
  | .sideband => s.emit (.sideband c.tag (BitVec.ofNat 8 st.cls) (BitVec.ofNat 8 st.code)
      (BitVec.ofNat 64 result) bytes)
  | .ring p q i =>
    match s.findCmd p q i with
    | none => s
    | some k => s.answer src k st result

def State.reply (src : Nat) (c : Ctx) (st : Status) (result : Nat) (s : State) : State :=
  s.replyWith src c st result []

/-- What an action that the manual calls refused in the Annals names as its actor (R414). -/
def actorOf (c : Ctx) : Nat :=
  match c.path with
  | .ring p _ _ => p
  | .sideband => 255

/-- Misuse for which the manual states no response: recorded in the Annals, with a code of the model's choice (R19; assumption
67). -/
def State.misuse (c : Ctx) (opc : Nat) (s : State) : State :=
  s.refusedWrite (if actorOf c = 1 then 1 else 0) (actorOf c) 0 opc

/-- Opcodes the sideband accepts (R72). -/
def sidebandOpcode (opc : Nat) : Bool :=
  opc == 0x01 || (0x40 ≤ opc && opc ≤ 0x44) || opc == 0x4A

/-- The byte ranges a command names, each with whether it writes (R60, R61); a capture region is written through its session,
and KEY_CREATE binds its range to a key. -/
def Cmd.ranges (k : Cmd) : List (Nat × Nat × Bool) :=
  let f := pkt k.packet
  match k.opcode with
  | 0x10 => [(f 8 8, f 16 4, false)]
  | 0x11 => [(f 8 8, f 16 4, true)]
  | 0x12 => [(f 8 8, f 24 8, false), (f 16 8, f 24 8, true)]
  | 0x13 | 0x14 => [(f 8 8, f 16 8, true)]
  | 0x15 | 0x16 => [(f 8 8, f 16 8, false)]
  | 0x23 | 0x24 => [(f 16 8, 128 * f 24 4, false)]
  | 0x28 | 0x50 => [(f 16 8, f 24 8, true)]
  | _ => []

/-- Two byte ranges share a line. -/
def shareLine (a n b m : Nat) : Bool :=
  decide (0 < n ∧ 0 < m ∧ a / 128 ≤ (b + m - 1) / 128 ∧ b / 128 ≤ (a + n - 1) / 128)

/-- Two commands name ranges that share a line, and at least one of them writes it (R61). -/
def Cmd.clashes (j k : Cmd) : Bool :=
  j.ranges.any (fun a => k.ranges.any (fun b => (a.2.2 || b.2.2) && shareLine a.1 a.2.1 b.1 b.2.1))

/-- A command waits for an earlier one of its SQ that it clashes with, so that the two take effect in ring order (R61). -/
def State.heldBack (s : State) (k : Cmd) : Bool :=
  (s.host.cmds.takeWhile (fun j => !j.is k.port k.sq k.idx)).any (fun j =>
    j.port == k.port && j.sq == k.sq && j.clashes k)

/-! ### Parameters (R52, R53, R60) -/

/-- A parameter of `n` bytes at a byte offset of the packet. -/
def par (off n value : Nat) : Param := { lo := 8 * off, n := 8 * n, value := value, rsv := 0 }

/-- One whose bits from `k` up are reserved. -/
def parTop (off n k value : Nat) : Param := { par off n value with rsv := 2 ^ (8 * n) - 2 ^ k }

/-- A part address: bits 63 to 49 are reserved (R54). -/
def parPa (off value : Nat) : Param := parTop off 8 49 value

/-- A slot reference: bits 28 to 26 are reserved (R55). -/
def parSlot (off value : Nat) : Param := { par off 4 value with rsv := 7 * 2 ^ 26 }

/-- A parameter has a reserved bit that is not 0. -/
def Param.bad (f : Param) : Bool := f.value &&& f.rsv != 0

/-- A slot reference that names a slot (R55). -/
def Param.namesSlot (f : Param) : Bool := f.rsv == 7 * 2 ^ 26 && decide (2 ^ 31 ≤ f.value)

/-- Whether a packet is the one that a row tells of: its tag, its no_int flag and its parameters are the row's, and the row
says whether some bit is set that no parameter names (R52, R53, assumption 11). -/
def Cmd.fits (k : Cmd) (c : Ctx) (ps : List Param) : Bool :=
  k.ctx.tag == c.tag && k.ctx.noInt == c.noInt &&
    ps.all (fun f => k.packet.toNat / 2 ^ f.lo % 2 ^ f.n == f.value) &&
    c.rsv == (k.packet.toNat / 2 ^ 64 != (ps.map (fun f => f.value * 2 ^ (f.lo - 64))).sum)

/-! ### Commands that are there to run -/

/-- The head of the Curator queue: in the security halt only the sideband is served (R62, R397). -/
def State.queueHead (s : State) : Option Mgmt :=
  if s.cry.haltCause == 0 then s.cur.queue.head? else s.cur.queue.find? (fun m => m.ctx.any (fun c => c.path == .sideband))

/-- Whether a committed request of the Curator queue's head is that of a row (R62, R66). -/
def State.atHead (s : State) (opc : Nat) (c : Ctx) (ps : List Param) : Bool :=
  match s.queueHead with
  | some m => m.committed && m.opcode.toNat == opc &&
      m.ctx.any (fun x => x.path == c.path && (c.path != .sideband || (x == c && m.params == ps)))
  | none => false

/-- The sources of the completion collector that a ring command can reply through (R67): the interpreter; a copy engine of the
home of the first line of its range (assumption 18), the stream-control unit of its tile, or the Curator. -/
def State.sourcesOf (s : State) (k : Cmd) : List Nat :=
  let o := k.opcode
  if 0x40 ≤ o then [srcInterp, srcCurator]
  else if 0x10 ≤ o ∧ o ≤ 0x16 then [srcInterp, srcCopy (s.home (pkt k.packet 8 8 / 128))]
  else if 0x20 ≤ o then [srcInterp, srcStream (pkt k.packet 8 1)]
  else [srcInterp]

/-- None of them holds a reply back: one that does waits (R67). -/
def State.sourceFree (s : State) (k : Cmd) : Bool := (s.sourcesOf k).all (fun x => (s.waiting k.port x).isEmpty)

/-- Whether a command of an opcode is there to run. On a ring it was fetched and started, its packet is the row's, it waits
for no earlier one (R61) nor for its source (R67) and, from 40h upward, it is the committed head of the Curator queue (R62,
R66). On the sideband a Curator is primary (R430), and a management command is that head in the same way. -/
def State.runs (s : State) (opc : Nat) (c : Ctx) (ps : List Param) : Bool :=
  match c.path with
  | .sideband => s.cur.primary.isSome && (opc < 0x40 || !sidebandOpcode opc || s.atHead opc c ps)
  | .ring p q i =>
    match s.findCmd p q i with
    | none => false
    | some k =>
      k.started && k.opcode == opc && k.fits c ps && s.cry.haltCause == 0 && !s.heldBack k && s.sourceFree k &&
        (decide (opc < 0x40) || s.atHead opc c ps)

/-- A management command arrives on the sideband (R62): a Curator is primary, and the row is not that of the committed head. Two
requests may have the same tag (R52). -/
def State.arrives (s : State) (opc : Nat) (c : Ctx) (ps : List Param) : Bool :=
  c.path == .sideband && s.cur.primary.isSome && decide (0x40 ≤ opc) && sidebandOpcode opc &&
    !s.atHead opc c ps

/-- The Curator queue is about to be empty no longer: an event of the primary's tile (R499). -/
def State.curWork (s : State) : State :=
  match s.cur.primary with
  | some p => if s.cur.queue.isEmpty then s.pmcEdge p 0x70 0 else s
  | none => s

/-- It enters the Curator queue, or finds it full (R62). -/
def State.enqueue (opc : Nat) (c : Ctx) (ps : List Param) (s : State) : State :=
  if 32 ≤ s.cur.queue.length then s.reply srcCurator c .queueFull 0
  else
    let s := s.curWork
    { s with cur := { s.cur with
      queue := s.cur.queue ++
        [{ ctx := some c, mailbox := none, opcode := BitVec.ofNat 8 opc, params := ps, committed := false }] } }

/-- Commands each lifecycle state allows (R455). -/
def lifeAllows (l : Life) (opc : Nat) : Bool :=
  match l with
  | .blank => opc == 0x01
  | .opened | .sealed => true
  | .scrapped => opc == 0x01 || opc == 0x40 || opc == 0x42 || opc == 0x4A

/-- The checks every opcode shares, in order: path (R72), reserved bits, a slot on the sideband among them (R53, R72), lifecycle (R455), the security halt
on the sideband (R397; FAULT_INJECT has its own order, R412), mis-set straps (R489). -/
def State.precheck (s : State) (opc : Nat) (c : Ctx) (ps : List Param) : Option Status :=
  let side := c.path == .sideband
  if side && !sidebandOpcode opc then some .path
  else if c.rsv || ps.any (fun f => f.bad || (side && f.namesSlot)) then some .reserved
  else if !lifeAllows s.cur.lifecycle opc then some .lifecycle
  else if side && s.cry.haltCause != 0 && (opc == 0x41 || opc == 0x44) then some .state
  else if s.pwr.strapBad && opc != 0x01 then some .state
  else none

/-- The request of a management command on the sideband leaves the Curator queue as it is executed (R62). -/
def State.leaveHead (opc : Nat) (c : Ctx) (s : State) : State :=
  match c.path, s.queueHead with
  | .sideband, some m =>
    if 0x40 ≤ opc && sidebandOpcode opc then { s with cur := { s.cur with queue := s.cur.queue.erase m } } else s
  | _, _ => s

/-- A command runs: it enters the Curator queue where it arrives on the sideband; otherwise nothing happens where none is
there to run, a failed shared check answers, or its body does. -/
def State.command (opc src : Nat) (c : Ctx) (ps : List Param) (body : State → State) (s : State) : State :=
  if s.arrives opc c ps then s.enqueue opc c ps
  else if s.runs opc c ps then
    match s.precheck opc c ps with
    | some st => (s.leaveHead opc c).reply src c st 0
    | none => body (s.leaveHead opc c)
  else s

end Sys2Proof.Machine
end

