-- ==== Sys2Proof/Machine/Fetches.lean ====
section
/-! DEFINITION. Ring indices, ring errors, and the entries of a fetch as they enter (R43, R45, R47 to R50). -/

namespace Sys2Proof.Machine

/-- A BAR0 write through a port reaches its register: the port is in use and its island runs, and the part is in no security
halt (R32, R397). -/
def State.takesWrite (s : State) (port : Nat) : Bool :=
  s.hasPort port && s.hostUp port && s.cry.haltCause == 0

/-- A BAR0 write through a port. What earlier writes left to be stored has been stored by then (R16). -/
def State.bar0 (port : Nat) (f : State → State) (s : State) : Host.Outcome State Fault Refusal :=
  withUnit (s.takesWrite port) (fun s => f s.commitStore) s

/-- A BAR0 write through a port to a register of a tile; where the tile or the register is absent, it is ignored (R36). -/
def State.tileWrite (port tile : Nat) (ok : Bool) (f : State → State) (s : State) : Host.Outcome State Fault Refusal :=
  withUnit (s.takesWrite port && s.hasTile tile && ok) (fun s => f s.commitStore) s

/-! ## Configuration (R43, R44, R46) -/

def Sq.size (q : Sq) : Nat := q.sizeM1.toNat + 1
def Cq.size (q : Cq) : Nat := q.sizeM1.toNat + 1

/-- The distance from index `a` forward to `b` in a ring of `n`. -/
def ringDist (n a b : Nat) : Nat := (b + n - a) % n

/-- BAR0 offsets of the ring registers (R43). -/
def sqCfgOff (n : Nat) : Nat := 0x20008 + 0x40 * n
def cqCfgOff (n : Nat) : Nat := 0x20018 + 0x40 * n
def sqDbOff (n : Nat) : Nat := 0x28000 + 8 * n
def cqDbOff (n : Nat) : Nat := 0x28004 + 8 * n

/-- A ring error or a refused doorbell is recorded as 0x1005 (R414). -/
def State.ringRecord (p addr value : Nat) (s : State) : State :=
  s.annal p { code := 0x1005, addr := addr, value := value, aux := p }

/-- An SQ enters error (R45). -/
def State.sqError (p n code : Nat) (s : State) : State :=
  (s.setSq p n { s.sq p n with err := true, code := BitVec.ofNat 5 code }).ringRecord p n code

/-- Releases reserved entries of a CQ (R44, R50). -/
def State.release (p c n : Nat) (s : State) : State :=
  s.setCq p c { s.cq p c with reserved := (s.cq p c).reserved - n }

/-- The commands of a fetch's good entries. -/
def Fetch.cmds (f : Fetch) (p size : Nat) (es : List Fetched) : List Cmd :=
  ((List.range es.length).zip es).map (fun e =>
    { port := p, sq := f.sq, idx := f.first + e.1, packet := e.2.packet, next := (f.entry + e.1 + 1) % size, cq := f.cq,
      started := false, passed := false, held := false, dropped := false })

/-- The entries of one fetch enter: the good ones become commands; a bad one puts the SQ in error with code 02h, and
drops itself and everything after it in the SQ (R50). A fetch given up releases its reservations (R44). -/
def State.placeFetch (p : Nat) (f : Fetch) (es : List Fetched) (s : State) : State :=
  if f.dead then s.release p f.cq f.count
  else
    let good := (es.take f.count).takeWhile (fun e => !e.bad)
    let s1 := good.foldl (fun (s : State) _ => s.pmcEdge p 0x61 0)
      (s.setCmds (s.host.cmds ++ f.cmds p (s.sq p f.sq).size good))
    if good.length = f.count then s1
    else
      let s2 := (s1.sqError p f.sq 2).release p f.cq (f.count - good.length)
      let h := s2.port p
      (s2.setPort p { h with
        fetches := h.fetches.map (fun x => if x.sq == f.sq then { x with dead := true } else x) }).raiseEvent 1

/-- Fetch is paused on a port (R63). -/
def State.paused (s : State) (p : Nat) : Bool := s.field .ringGctrl p 0 31 31 == 1

/-- Places the fetches of an SQ whose data has returned, oldest first, as far as no earlier one that still counts is
outstanding (R48), and none while fetch is paused (R63). -/
def State.placeReady (p q fuel : Nat) (s : State) : State :=
  match fuel with
  | 0 => s
  | fuel + 1 =>
    let h := s.port p
    match h.fetches.find? (fun f => f.sq == q && !(f.dead && f.got.isNone)) with
    | none => s
    | some f =>
      match f.got with
      | none => s
      | some es =>
        if s.paused p && !f.dead then s
        else ((s.setPort p { h with fetches := h.fetches.erase f }).placeFetch p f es).placeReady p q fuel

end Sys2Proof.Machine
end

