-- ==== Sys2Proof/Machine/Galois.lean ====
section
/-! DEFINITION. Binary fields and Reed–Solomon codes: the stripe parity of R147 and the FEC of a stream link (R244) are
instances. -/

namespace Sys2Proof.Machine

/-- The product of two elements of GF(2 ^ m), whose field polynomial `p` includes x ^ m. -/
def gfMul (m p a b : Nat) : Nat :=
  (List.range m).foldl (fun acc i =>
    let d := if 2 ^ m ≤ 2 * acc then (2 * acc) ^^^ p else 2 * acc
    if b.testBit (m - 1 - i) then d ^^^ a else d) 0

/-- A power of an element. -/
def gfPow (m p a : Nat) : Nat → Nat
  | 0 => 1
  | n + 1 => gfMul m p a (gfPow m p a n)

/-- The inverse of a non-zero element: its power 2 ^ m - 2; 0 for 0. -/
def gfInv (m p a : Nat) : Nat :=
  (List.range (m - 1)).foldl (fun acc _ => gfMul m p (gfMul m p acc acc) (gfMul m p a a)) 1

/-- A Reed–Solomon code: its field, and how many check symbols it has; its generator has the roots α ^ 0, α ^ 1, … with
α = 0x02. -/
structure RsCode where
  m     : Nat
  poly  : Nat
  check : Nat

/-- α ^ i. -/
def RsCode.alpha (c : RsCode) (i : Nat) : Nat := gfPow c.m c.poly 2 i

/-- A polynomial, highest power first, times (x - r). -/
def RsCode.timesRoot (c : RsCode) (r : Nat) (l : List Nat) : List Nat :=
  List.zipWith (fun a b => a ^^^ b) (l ++ [0]) (0 :: l.map (fun a => gfMul c.m c.poly r a))

/-- The generator polynomial, highest power first. -/
def RsCode.generator (c : RsCode) : List Nat :=
  (List.range c.check).foldl (fun l i => c.timesRoot (c.alpha i) l) [1]

/-- One step of the division by the generator `1 :: g`: the remainder takes the next message symbol. -/
def RsCode.divide (c : RsCode) (g : List Nat) (rem : List Nat) (sym : Nat) : List Nat :=
  let k := rem.headD 0 ^^^ sym
  List.zipWith (fun a b => a ^^^ b) (rem.tail ++ [0]) (g.map (fun x => gfMul c.m c.poly k x))

/-- The check symbols of a systematic codeword, highest power first: the remainder of the message times x ^ check. -/
def RsCode.parity (c : RsCode) (msg : List Nat) : List Nat :=
  msg.foldl (c.divide c.generator.tail) (List.replicate c.check 0)

/-- Syndrome `i` of a word, highest power first: its value at α ^ i. -/
def RsCode.syndrome (c : RsCode) (w : List Nat) (i : Nat) : Nat :=
  w.foldl (fun acc x => gfMul c.m c.poly acc (c.alpha i) ^^^ x) 0

/-- Whether a word is a codeword. -/
def RsCode.holds (c : RsCode) (w : List Nat) : Bool := (List.range c.check).all (fun i => c.syndrome w i == 0)

/-- The coefficients, lowest power first, of the polynomial that is 1 at `x` and 0 at every element of `others`. -/
def RsCode.indicator (c : RsCode) (x : Nat) (others : List Nat) : List Nat :=
  others.foldl (fun l y =>
    let k := gfInv c.m c.poly (x ^^^ y)
    ((List.zipWith (fun a b => a ^^^ b) (0 :: l) (l.map (fun a => gfMul c.m c.poly y a) ++ [0])).map
      (fun a => gfMul c.m c.poly k a))) [1]

/-- The symbol at a position of `gone`, at most `check` of them, from the symbols of a word elsewhere; positions count from the
highest power. -/
def RsCode.fill (c : RsCode) (w : List Nat) (gone : List Nat) (pos : Nat) : Nat :=
  let n := w.length
  let known := (List.range n).map (fun i => if gone.contains i then 0 else w.getD i 0)
  let loc (i : Nat) : Nat := c.alpha (n - 1 - i)
  let coef := c.indicator (loc pos) ((gone.filter (· != pos)).map loc)
  (List.range coef.length).foldl (fun acc i =>
    acc ^^^ gfMul c.m c.poly (coef.getD i 0) (c.syndrome known i)) 0

/-! ## Correction of errors -/

/-- A state of the Berlekamp–Massey recursion: the connection polynomial and the one before its last change of length, lowest power
first, the length, the steps since, and the discrepancy at that change. -/
structure Locator where
  poly : List Nat := [1]
  prev : List Nat := [1]
  len  : Nat := 0
  gap  : Nat := 1
  disc : Nat := 1

/-- One syndrome more. -/
def RsCode.locate (c : RsCode) (syn : List Nat) (x : Locator) (n : Nat) : Locator :=
  let d := (List.range (min x.len n + 1)).foldl (fun a i =>
    a ^^^ gfMul c.m c.poly (x.poly.getD i 0) (syn.getD (n - i) 0)) 0
  if d = 0 then { x with gap := x.gap + 1 }
  else
    let k := gfMul c.m c.poly d (gfInv c.m c.poly x.disc)
    let shifted := List.replicate x.gap 0 ++ x.prev.map (fun a => gfMul c.m c.poly k a)
    let p := (List.range (max x.poly.length shifted.length)).map (fun i => x.poly.getD i 0 ^^^ shifted.getD i 0)
    if 2 * x.len ≤ n then { poly := p, prev := x.poly, len := n + 1 - x.len, gap := 1, disc := d }
    else { x with poly := p, gap := x.gap + 1 }

/-- The positions at which a word is in error, as its syndromes locate them. -/
def RsCode.errorsAt (c : RsCode) (x : Locator) (n : Nat) : List Nat :=
  (List.range n).filter (fun pos =>
    let r := gfInv c.m c.poly (c.alpha (n - 1 - pos))
    x.poly.foldr (fun a acc => gfMul c.m c.poly acc r ^^^ a) 0 == 0)

/-- A received word after correction of up to `t` symbols; none where it cannot be corrected. -/
def RsCode.correct (c : RsCode) (t : Nat) (w : List Nat) : Option (List Nat) :=
  if c.holds w then some w
  else
    let syn := (List.range c.check).map (fun i => c.syndrome w i)
    let x := (List.range c.check).foldl (c.locate syn) {}
    let gone := c.errorsAt x w.length
    let fixed := (List.range w.length).map (fun i => if gone.contains i then c.fill w gone i else w.getD i 0)
    if decide (x.len ≤ t) && gone.length == x.len && c.holds fixed then some fixed else none

/-- How many symbols of two words differ. -/
def symbolErrors (a b : List Nat) : Nat := ((List.zip a b).filter (fun x => x.1 != x.2)).length

/-- The stripe parity's code: 4 check symbols over GF(2 ^ 8) with x ^ 8 + x ^ 4 + x ^ 3 + x ^ 2 + 1 (R147). -/
def stripeCode : RsCode := { m := 8, poly := 0x11D, check := 4 }

end Sys2Proof.Machine
end

