-- ==== Sys2Proof/Machine/Aes.lean ====
section
/-! DEFINITION. AES-256 and its XTS mode, which R379 and R370 name; both are other standards' (FIPS 197, IEEE 1619; PRESUMED,
assumption 55). -/

namespace Sys2Proof.Machine

/-- A byte rotated left. -/
def rotByte (x n : Nat) : Nat := (x * 2 ^ n ||| x / 2 ^ (8 - n)) % 256

/-- The S-box: the inverse in GF(2 ^ 8) with x ^ 8 + x ^ 4 + x ^ 3 + x + 1, and its affine map. -/
def aesSub (x : Nat) : Nat :=
  let i := gfInv 8 0x11B x
  i ^^^ rotByte i 1 ^^^ rotByte i 2 ^^^ rotByte i 3 ^^^ rotByte i 4 ^^^ 0x63

def xorBytes (a b : List Nat) : List Nat := List.zipWith (fun x y => x ^^^ y) a b

/-- Word `i` of a key schedule that holds its words so far. -/
def aesWord (w : List (List Nat)) (i : Nat) : List Nat :=
  let last := w.getD (i - 1) []
  let t :=
    if i % 8 = 0 then xorBytes ((last.tail ++ [last.headD 0]).map aesSub) [gfPow 8 0x11B 2 (i / 8 - 1), 0, 0, 0]
    else if i % 8 = 4 then last.map aesSub else last
  xorBytes (w.getD (i - 8) []) t

/-- The 60 words of the key schedule of a key of 32 bytes. -/
def aesSchedule (key : List Nat) : List (List Nat) :=
  (List.range 52).foldl (fun w i => w ++ [aesWord w (i + 8)]) ((List.range 8).map (fun i => (key.drop (4 * i)).take 4))

/-- The key of a round: 16 bytes. -/
def aesRoundKey (w : List (List Nat)) (r : Nat) : List Nat := ((w.drop (4 * r)).take 4).flatten

/-- Bytes of the state after its rows shift: byte `4 c + r` comes from column `c + r`. -/
def aesShift (st : List Nat) : List Nat :=
  (List.range 16).map (fun i => st.getD ((4 * (i / 4 + i % 4) + i % 4) % 16) 0)

/-- One column of the state, mixed. -/
def aesMixCol (c : List Nat) : List Nat :=
  (List.range 4).map (fun i =>
    let x (k : Nat) : Nat := c.getD ((i + k) % 4) 0
    gfMul 8 0x11B (x 0) 2 ^^^ gfMul 8 0x11B (x 1) 3 ^^^ x 2 ^^^ x 3)

def aesMix (st : List Nat) : List Nat :=
  (List.range 4).flatMap (fun c => aesMixCol ((st.drop (4 * c)).take 4))

/-- AES-256 of one block of 16 bytes under a key of 32. -/
def aes256 (key block : List Nat) : List Nat :=
  let w := aesSchedule key
  let mid := (List.range 13).foldl (fun st r =>
    xorBytes (aesMix (aesShift (st.map aesSub))) (aesRoundKey w (r + 1))) (xorBytes block (aesRoundKey w 0))
  xorBytes (aesShift (mid.map aesSub)) (aesRoundKey w 14)

/-! ## XTS (IEEE 1619) -/

/-- A tweak of 16 bytes, the lowest first, times α in GF(2 ^ 128). -/
def xtsNext (t : List Nat) : List Nat :=
  let n := t.foldr (fun b a => b + 256 * a) 0
  let d := if 2 ^ 128 ≤ 2 * n then (2 * n % 2 ^ 128) ^^^ 0x87 else 2 * n
  (List.range 16).map (fun i => d / 256 ^ i % 256)

/-- The blocks of a data unit under a tweak and its successors. -/
def xtsBlocks (key : List Nat) : List Nat → List (List Nat) → List Nat
  | _, [] => []
  | t, b :: l => xorBytes (aes256 key (xorBytes b t)) t ++ xtsBlocks key (xtsNext t) l

/-- AES-256-XTS of a data unit of whole blocks, under a key of 64 bytes and the number of the unit. -/
def xtsEncrypt (key : List Nat) (unit : Nat) (data : List Nat) : List Nat :=
  let t := aes256 (key.drop 32) ((List.range 16).map (fun i => unit / 256 ^ i % 256))
  xtsBlocks (key.take 32) t ((List.range (data.length / 16)).map (fun i => (data.drop (16 * i)).take 16))

end Sys2Proof.Machine
end

