-- ==== Sys2Proof/Machine/Packets.lean ====
section
/-! DEFINITION. The parameters of each opcode, at their offsets in the packet, and their reserved bits (R52 to R55, R60). -/

namespace Sys2Proof.Machine

/-- The parameters of IDENTIFY. -/
def identifyParams (cns tile : Byte) (slot : Word) : List Param :=
  [par 8 1 cns.toNat, par 9 1 tile.toNat, parSlot 12 slot.toNat]

/-- The parameters of GET_FEATURE. -/
def getFeatureParams (fid : Byte) : List Param :=
  [par 8 1 fid.toNat]

/-- The parameters of SET_FEATURE. -/
def setFeatureParams (fid : Byte) (value : DWord) : List Param :=
  [par 8 1 fid.toNat, par 16 8 value.toNat]

/-- The parameters of READ_X. -/
def readXParams (pa : DWord) (len slot : Word) : List Param :=
  [parPa 8 pa.toNat, par 16 4 len.toNat, parSlot 20 slot.toNat]

/-- The parameters of WRITE_X. -/
def writeXParams (pa : DWord) (len slot : Word) : List Param :=
  [parPa 8 pa.toNat, par 16 4 len.toNat, parSlot 20 slot.toNat]

/-- The parameters of COPY. -/
def copyParams (src dst len : DWord) : List Param :=
  [parPa 8 src.toNat, parPa 16 dst.toNat, par 24 8 len.toNat]

/-- The parameters of ZERO_RANGE, DISCARD, FLUSH_RANGE and INVAL_RANGE. -/
def rangeParams (pa len : DWord) : List Param :=
  [parPa 8 pa.toNat, par 16 8 len.toNat]

/-- The parameters of EPOCH_CLOSE and EPOCH_QUERY. -/
def epochParams (mode : Byte) : List Param :=
  [par 8 1 mode.toNat]

/-- The parameters of ROUTE_DEFINE. -/
def routeDefineParams (tile : Byte) (route : BitVec 16) (slot count : Word) (latency : BitVec 16) (port : Byte) : List Param :=
  [par 8 1 tile.toNat, par 10 2 route.toNat, parSlot 12 slot.toNat, par 16 4 count.toNat, par 20 2 latency.toNat,
    par 22 1 port.toNat]

/-- The parameters of ROUTE_ARM. -/
def routeArmParams (tile : Byte) (route vector : BitVec 16) (start : Byte) : List Param :=
  [par 8 1 tile.toNat, par 10 2 route.toNat, par 12 2 vector.toNat, par 14 1 start.toNat]

/-- The parameters of ROUTE_RETIRE. -/
def routeRetireParams (tile : Byte) (route : BitVec 16) (mode : Byte) : List Param :=
  [par 8 1 tile.toNat, par 10 2 route.toNat, par 12 1 mode.toNat]

/-- The parameters of PIN_LINES and UNPIN_LINES. -/
def pinParams (tile : Byte) (pa : DWord) (lines : Word) : List Param :=
  [par 8 1 tile.toNat, parPa 16 pa.toNat, par 24 4 lines.toNat]

/-- The parameters of CAPTURE_OPEN. -/
def captureOpenParams (tile port region flags : Byte) (vector : BitVec 16) (pa len : DWord) : List Param :=
  [par 8 1 tile.toNat, par 9 1 port.toNat, par 10 1 region.toNat, parTop 11 1 2 flags.toNat, par 12 2 vector.toNat,
    parPa 16 pa.toNat, par 24 8 len.toNat]

/-- The parameters of CAPTURE_CLOSE. -/
def captureCloseParams (tile port region mode : Byte) : List Param :=
  [par 8 1 tile.toNat, par 9 1 port.toNat, par 10 1 region.toNat, par 11 1 mode.toNat]

/-- The parameters of CAPTURE_DRAIN. -/
def captureDrainParams (tile port region : Byte) : List Param :=
  [par 8 1 tile.toNat, par 9 1 port.toNat, par 10 1 region.toNat]

/-- The parameters of GET_LOG. -/
def getLogParams (log tile : Byte) (slot : Word) (offset : DWord) : List Param :=
  [par 8 1 log.toNat, par 9 1 tile.toNat, parSlot 12 slot.toNat, par 16 8 offset.toNat]

/-- The parameters of CLEAR_LOG. -/
def clearLogParams (log tile : Byte) (slot : Word) : List Param :=
  [par 8 1 log.toNat, par 9 1 tile.toNat, parSlot 12 slot.toNat]

/-- The parameters of SENSOR_READ. -/
def sensorReadParams (tile sensor : Byte) : List Param :=
  [par 8 1 tile.toNat, par 9 1 sensor.toNat]

/-- The parameters of FAULT_INJECT. -/
def faultInjectParams (tile : Byte) (source : BitVec 12) (slot : Word) (mask : DWord) (count : BitVec 16) : List Param :=
  [par 8 1 tile.toNat, { lo := 80, n := 12, value := source.toNat, rsv := 0 }, parSlot 12 slot.toNat, par 16 8 mask.toNat,
    par 24 2 count.toNat]

/-- The parameters of POWER_STATE. -/
def powerStateParams (state : Byte) : List Param :=
  [par 8 1 state.toNat]

/-- The parameters of FW_STAGE. -/
def fwStageParams (slot offset : Word) (flags : Byte) : List Param :=
  [parSlot 12 slot.toNat, par 16 4 offset.toNat, parTop 20 1 1 flags.toNat]

/-- The parameters of FW_ACTIVATE. -/
def fwActivateParams (mode : Byte) : List Param :=
  [parTop 8 1 0 mode.toNat]

/-- The parameters of ATTEST. -/
def attestParams (slot : Word) (nonce : BitVec 256) : List Param :=
  [parSlot 12 slot.toNat, par 16 32 nonce.toNat]

/-- The parameters of KEY_CREATE. -/
def keyCreateParams (kid : Byte) (pa len : DWord) : List Param :=
  [par 8 1 kid.toNat, parPa 16 pa.toNat, par 24 8 len.toNat]

/-- The parameters of KEY_RETIRE. -/
def keyRetireParams (kid : Byte) (slot : Word) : List Param :=
  [par 8 1 kid.toNat, parSlot 12 slot.toNat]

/-- The parameters of RIGHTS_SET. -/
def rightsSetParams (kid master rights : Byte) : List Param :=
  [par 8 1 kid.toNat, par 9 1 master.toNat, parTop 10 1 2 rights.toNat]

/-- The parameters of SPARE_STATUS. -/
def spareStatusParams (tile : Byte) (slot : Word) : List Param :=
  [par 8 1 tile.toNat, parSlot 12 slot.toNat]

/-- The parameters of FORMAT. -/
def formatParams (spare : Byte) (slot : Word) : List Param :=
  [par 8 1 spare.toNat, parSlot 12 slot.toNat]

/-- The parameters of MEDIA_PROFILE. -/
def mediaProfileParams (action tile channel target : Byte) (slot : Word) : List Param :=
  [par 8 1 action.toNat, par 9 1 tile.toNat, par 10 1 channel.toNat, par 11 1 target.toNat, parSlot 12 slot.toNat]

end Sys2Proof.Machine
end

