-- ==== Sys2Proof/Machine/Operands.lean ====
section
/-! DEFINITION. Operand forms: part addresses, homes and capacity (R24, R28, R139), ranges (R54), slot references
and ownership words (R55, R78 to R81), key identifiers and rights (R383, R392, R393). -/

namespace Sys2Proof.Machine

/-! ## Capacity -/

/-- The spare fraction in % of an encoding (R139). -/
def sparePct (e : Nat) : Nat :=
  match e with
  | 0 => 10
  | 1 => 7
  | 2 => 15
  | _ => 28

/-- The spare setting in force: the stored one, or the strap on a part that has stored none (R490). -/
def State.spareEnc (s : State) : Nat :=
  (s.med.spareSet.getD s.pwr.straps.spare).toNat

/-- User folios of a tile with `pages` pages of mapped raw media: 2^26 pages are a TiB (R139, R143). -/
def userFolios (pages enc : Nat) : Nat := pages * 3 * (100 - sparePct enc) / 1600

/-- The user capacity in bytes (R24, R139). -/
def State.capacity (s : State) : Nat :=
  let f := (s.tileList.map (fun t => userFolios (tget (fun _ => 0) s.pwr.mediaPages t) s.spareEnc)).min?.getD 0
  65536 * 8 * (s.tiles * f / 8)

/-- The lines a byte range touches, and those wholly inside it. -/
def linesOf (pa len : Nat) : List Nat :=
  if len = 0 then [] else (List.range ((pa + len - 1) / 128 - pa / 128 + 1)).map (· + pa / 128)

def wholeLines (pa len : Nat) : List Nat :=
  (linesOf pa len).filter (fun l => pa ≤ 128 * l && 128 * l + 128 ≤ pa + len)

/-- The folios a byte range touches. -/
def foliosOf (pa len : Nat) : List Nat :=
  if len = 0 then [] else (List.range ((pa + len - 1) / 65536 - pa / 65536 + 1)).map (· + pa / 65536)

/-- Length and range of a command, the length first (R54). -/
def State.rangeCheck (s : State) (pa len limit : Nat) : Option Status :=
  if len = 0 ∨ limit < len then some .length
  else if s.capacity < pa + len then some .range
  else none

/-! ## Key identifiers and rights -/

/-- The KID of a folio: its region's, or 0 (R383). -/
def State.kidOf (s : State) (f : Nat) : Nat :=
  match s.cry.regions.find? (fun r => r.base ≤ f && f < r.base + r.units) with
  | some r => r.kid
  | none => 0

/-- KID 0 is never EMPTY (R384). -/
def kidDefault (k : Nat) : Kid := if k = 0 then { st := .live, version := 1 } else {}

def State.kid (s : State) (k : Nat) : Kid := tget kidDefault s.cry.kids k

def State.setKid (k : Nat) (v : Kid) (s : State) : State :=
  { s with cry := { s.cry with kids := tset kidDefault s.cry.kids k v } }

/-- The current key version of a KID; KID 0 of a new part holds one from the first (R384). -/
def State.curKeyOf (s : State) (k : Nat) : KeyVer :=
  (s.kid k).curKey.getD { xts := Config.firstKey.setWidth 512, tag := (Config.firstKey >>> 512).setWidth 256 }

/-- The key of a version of a KID: the current one, or the previous one (R387). -/
def State.keyOf (s : State) (k ver : Nat) : KeyVer :=
  if ver = (s.kid k).version then s.curKeyOf k else (s.kid k).prevKey.getD (s.curKeyOf k)

/-- Default rights (R392): masters 0 to 5 read and write every KID, 6 and 7 none. -/
def rightsDefault (k : Nat) : BitVec 2 := if k < 6 * 256 then 3 else 0

def State.rights (s : State) (master kid : Nat) : BitVec 2 :=
  tget rightsDefault s.cry.rights (256 * master + kid)

/-- The refusal of a master's access to a KID (R393), if any. -/
def State.denied (s : State) (master kid : Nat) (write : Bool) : Option Status :=
  match (s.kid kid).st with
  | .live | .rotating =>
    if (s.rights master kid).getLsbD (if write then 1 else 0) then none else some .right
  | .empty | .retiring | .retired | .binding => some .retired

/-- The first refusal over the KIDs a range touches (R393). -/
def State.deniedRange (s : State) (master pa len : Nat) (write : Bool) : Option Status :=
  (foliosOf pa len).findSome? (fun f => s.denied master (s.kidOf f) write)

/-- The master a copy engine acts for (R392): 2 for HP0 rings, 3 for HP1 rings. -/
def copyMaster (p : Nat) : Nat := 2 + p

/-- A refusal counts in CRY_DENY of the home and asks for a record (R393). -/
def State.deny (master line : Nat) (s : State) : State :=
  let t := s.home line
  (s.bump .cryDeny t 0).annal t
    { code := 0x1003, addr := 128 * line, value := master + 256 * s.kidOf (folioOf line) }

/-! ## Slots -/

/-- A slot reference (R55). -/
structure SlotRef where
  present : Bool
  window  : Nat
  index   : Nat
  gen     : Nat
  deriving DecidableEq, Repr

def slotRef (w : Nat) : SlotRef :=
  { present := bits w 31 31 == 1, window := bits w 30 29, index := bits w 25 8,
    gen := bits w 7 0 }

/-- The length and generation of an ownership word (R78). -/
def ownLen (w : DWord) : Nat := bits w.toNat 47 16
def ownGen (w : DWord) : Nat := bits w.toNat 15 8
def ownOwn (w : DWord) : Bool := w.getLsbD 0

/-- A window is active while registered and not draining (R75). -/
def Win.active (w : Win) : Bool := w.enable && !w.draining

def Win.slotSize (w : Win) : Nat := 2 ^ w.shift.toNat

/-- The opcodes whose slot field is at bytes 20 to 23; every other one that has one has it at 12 to 15 (R60). -/
def Cmd.slotWord (k : Cmd) : Option Nat :=
  let o := k.opcode
  let w :=
    if o == 0x10 || o == 0x11 then some (pkt k.packet 20 4)
    else if o == 0x01 || o == 0x20 || o == 0x40 || o == 0x41 || o == 0x43 || o == 0x48 || o == 0x4A || o == 0x51 ||
        o == 0x58 || o == 0x59 || o == 0x5A then some (pkt k.packet 12 4)
    else none
  w.filter (fun w => (slotRef w).present)

/-- Commands in flight on port `p` that name a slot of window `w` (R75); those of before an FLR are no longer held. -/
def State.inflight (s : State) (p w : Nat) : List Cmd :=
  s.host.cmds.filter (fun k => k.port == p && k.held &&
    match k.slotWord with
    | some x => (slotRef x).window == w
    | none => false)

/-- Whether a command that started earlier and is in flight on the port names the same slot (R80 check 6); commands stand in
the order of their starts. -/
def State.slotBusy (s : State) (p q i : Nat) (r : SlotRef) : Bool :=
  let earlier := s.host.cmds.takeWhile (fun k => !k.is p q i)
  earlier.any (fun k => k.port == p && k.held &&
    match k.slotWord with
    | some x => (slotRef x).window == r.window && (slotRef x).index == r.index
    | none => false)

/-- The outcome of the checks of R80. -/
inductive SlotCheck where
  | absent
  | fail (st : Status) (counted : Bool)
  | pass (r : SlotRef)
  deriving DecidableEq, Repr

/-- R80, in its order. `needed`: the opcode needs a slot (R55); `lenOk`: the length check of R79 on the window and
the word. A command dispatched before an FLR goes on with the slot it named (R64). -/
def State.slotCheck (s : State) (p q i : Nat) (slot : Word) (own : SlotRead) (needed : Bool)
    (lenOk : Win → DWord → Bool) : SlotCheck :=
  let r := slotRef slot.toNat
  let w := s.win p r.window
  let k := s.findCmd p q i
  let held := k.any (fun k => k.held)
  if !r.present then (if needed then .fail .slotWindow false else .absent)
  else if k.any (fun k => k.dropped && k.passed) then .pass r
  else if !(w.active || (w.draining && held)) || decide (w.slotsM1.toNat < r.index) then .fail .slotWindow false
  else if !own.ok then .fail .hostRead false
  else if !ownOwn own.word then .fail .slotOwn true
  else if ownGen own.word != r.gen then .fail .slotGen true
  else if !lenOk w own.word then .fail .slotLen false
  else if s.slotBusy p q i r then .fail .state true
  else .pass r

/-- The bus address of an ownership word and of a slot (R74). -/
def State.ownAddr (s : State) (p : Nat) (r : SlotRef) : Nat :=
  s.reg .xwOwnBaseHi p r.window * 2 ^ 32 + s.reg .xwOwnBaseLo p r.window + 8 * r.index

def State.slotAddr (s : State) (p : Nat) (r : SlotRef) : Nat :=
  s.reg .xwWinBaseHi p r.window * 2 ^ 32 + s.reg .xwWinBaseLo p r.window
    + (s.win p r.window).slotSize * r.index

/-- An illegal host action counts in XW_VIOL and is recorded (R82). -/
def State.violation (p : Nat) (r : SlotRef) (word : DWord) (s : State) : State :=
  (s.bump .xwViol p 0).annal p
    { code := 0x1001, addr := s.ownAddr p r, value := word.toNat, aux := p + 256 * r.window }

/-- The word of step 6: own 0, gen + 1, length and status (R78, R81). -/
def returnWord (st : Status) (len gen : Nat) : Nat :=
  st.cls * 2 ^ 56 + st.code * 2 ^ 48 + len % 2 ^ 32 * 2 ^ 16 + (gen + 1) % 256 * 2 ^ 8

/-- The part returns a slot, unless the reply is one R64 discards. -/
def State.returnSlot (p q i : Nat) (r : SlotRef) (st : Status) (len : Nat) (s : State) : State :=
  match s.findCmd p q i with
  | some k =>
    if k.dropped then s else s.emit (.hostWrite p (s.ownAddr p r) (leBytes 8 (returnWord st len r.gen)))
  | none => s

/-- Data written to a destination slot, unless R64 forbids it. -/
def State.writeSlot (p q i : Nat) (r : SlotRef) (bytes : List Byte) (s : State) : State :=
  match s.findCmd p q i with
  | some k => if k.dropped then s else s.emit (.hostWrite p (s.slotAddr p r) bytes)
  | none => s

/-- A command that names a slot, on its ring or on the sideband. `dest` computes what the command answers once its
slot has passed: status, result, data for a destination slot, length returned, and its effect. A failed check
answers with no other effect (R55). -/
structure SlotAnswer where
  st     : Status
  result : Nat := 0
  data   : List Byte := []
  len    : Nat := 0
  after  : State

/-- A slot command's tail: data, ownership word, reply, in this order (R51, R81). -/
def State.slotReply (src : Nat) (c : Ctx) (r : Option SlotRef) (a : SlotAnswer) (_s : State) : State :=
  match c.path, r with
  | .ring p q i, some r =>
    let s1 := if a.data.isEmpty then a.after else a.after.writeSlot p q i r a.data
    (s1.returnSlot p q i r a.st a.len).reply src c a.st a.result
  | _, _ => a.after.replyWith src c a.st a.result a.data

/-- Runs the slot checks of R80, then `body`. On the sideband no slot is named (R72). -/
def State.withSlot (src : Nat) (c : Ctx) (slot : Word) (own : SlotRead) (needed : Bool)
    (lenOk : Win → DWord → Bool) (body : Option SlotRef → State → SlotAnswer) (s : State) : State :=
  match c.path with
  | .sideband => s.slotReply src c none (body none s)
  | .ring p q i =>
    match s.slotCheck p q i slot own needed lenOk with
    | .absent => s.slotReply src c none (body none s)
    | .fail st counted =>
      let s1 := if counted then s.violation p (slotRef slot.toNat) own.word else s
      s1.reply src c st 0
    | .pass r => s.slotReply src c (some r) (body (some r) s)

/-- The size of the named slot; 4,096 bytes inline on the sideband (R71). -/
def State.slotSpace (s : State) (c : Ctx) (r : Option SlotRef) : Nat :=
  match c.path, r with
  | .ring p _ _, some r => (s.win p r.window).slotSize
  | _, _ => 4096

end Sys2Proof.Machine
end

