-- ==== Sys2Proof/Machine/Members.lean ====
section
/-! DEFINITION. Members of stripe pages: channels, targets, member blocks, drift entries, and which members a read may use
(R146, R153, R160, R164, R170 to R180). -/

namespace Sys2Proof.Machine

/-! ## Targets, channels and clocks -/

/-- A target and a channel of a tile. -/
def State.target (s : State) (t c k : Nat) : Target := tget (fun _ => {}) s.med.targets (targetKey t c k)

def State.setTarget (t c k : Nat) (v : Target) (s : State) : State :=
  { s with med := { s.med with targets := tset (fun _ => {}) s.med.targets (targetKey t c k) v } }

def State.chan (s : State) (t c : Nat) : Chan := tget (fun _ => {}) s.med.chans (chanKey t c)

def State.setChan (t c : Nat) (v : Chan) (s : State) : State :=
  { s with med := { s.med with chans := tset (fun _ => {}) s.med.chans (chanKey t c) v } }

/-- Wall-clock time now, 0 while unknown (R60). -/
def State.wallNow (s : State) : Nat :=
  let f := s.host.features
  if f.wall = 0 then 0 else (f.wall.toNat + (s.now - f.wallAt)) % 2 ^ 64

/-! ## Blocks and pages (R146) -/

/-- Member block `b` of channel `c` of tile `t`. A channel numbers its blocks over all its targets. -/
def mblockKey (t c b : Nat) : Nat := chanKey t c * 2 ^ 32 + b

def State.mblock (s : State) (t c b : Nat) : MBlock := tget (fun _ => {}) s.med.mblocks (mblockKey t c b)

def State.setMblock (t c b : Nat) (v : MBlock) (s : State) : State :=
  { s with med := { s.med with mblocks := tset (fun _ => {}) s.med.mblocks (mblockKey t c b) v } }

/-- Stripe block `b` of tile `t`. -/
def blockKey (t b : Nat) : Nat := t * 2 ^ 32 + b

def State.block (s : State) (t b : Nat) : StripeBlock := tget (fun _ => {}) s.cat.blocks (blockKey t b)

def State.setBlock (t b : Nat) (v : StripeBlock) (s : State) : State :=
  { s with cat := { s.cat with blocks := tset (fun _ => {}) s.cat.blocks (blockKey t b) v } }

def State.spare (s : State) (t : Nat) : Spare := tget (fun _ => {}) s.med.spares t

def State.setSpare (t : Nat) (v : Spare) (s : State) : State :=
  { s with med := { s.med with spares := tset (fun _ => {}) s.med.spares t v } }

/-- The member block of a stripe block on a channel. -/
def StripeBlock.member (v : StripeBlock) (c : Nat) : Nat := v.members.getD c 0

/-- The target of a member block: a channel's block numbers run over its targets in equal shares of 2 ^ 24. -/
def blockTarget (b : Nat) : Nat := b / 2 ^ 24 % 4

/-- The plane of a member block on its channel: a target's share holds its planes in turn, 2 ^ 16 blocks each (R150). -/
def planeOf (b : Nat) : Nat := b / 2 ^ 16

/-- A target in use: mapped, and not failed (R23, R156, R183). -/
def Target.used (v : Target) : Bool := v.mapped && !v.failed

/-- Whether a member block's target has failed (R164, R183). -/
def State.targetFailed (s : State) (t c b : Nat) : Bool := (s.target t c (blockTarget b)).failed

def State.cal (s : State) (t : Nat) : Calendar := tget (fun _ => {}) s.med.cals t

def State.setCal (t : Nat) (v : Calendar) (s : State) : State :=
  { s with med := { s.med with cals := tset (fun _ => {}) s.med.cals t v } }

/-- The band of the target that holds a stripe block's member on a channel. -/
def State.memberBand (s : State) (t c b : Nat) : Nat := (s.target t c (blockTarget ((s.block t b).member c))).band

/-- The drift table in use on a tile (R174). -/
def State.driftTable (s : State) (t : Nat) : List Byte := (s.spare t).loaded.getD (s.spare t).dflt

def State.page (s : State) (t spn : Nat) : Option Page := tget (fun _ => none) s.cat.pages (pageKey t spn)

def State.setPage (t spn : Nat) (v : Option Page) (s : State) : State :=
  { s with cat := { s.cat with pages := tset (fun _ => none) s.cat.pages (pageKey t spn) v } }

/-- Pages per block of a tile (R146), as enumerated; 1 before that. -/
def State.ppb (s : State) (t : Nat) : Nat := max 1 (tget (fun _ => ({} : Spare)) s.med.spares t).ppb

/-! ## The calendar and drift (R160, R170 to R180) -/

/-- The phase group that part time gives: 8 phases of 24 µs in a frame (R160). -/
def State.phaseNow (s : State) : Nat := s.now / 24000 % 8

/-- The upper edges of age classes 0 to 14, in seconds (R171). -/
def ageEdges : List Nat :=
  [60, 240, 900, 3600, 14400, 43200, 86400, 259200, 604800, 1209600, 2592000, 7862400, 15724800, 31536000, 94608000]

/-- The age class of an age in seconds: the first class whose edge lies above it (R171). -/
def ageClass (sec : Nat) : Nat := (ageEdges.takeWhile (fun e => e ≤ sec)).length

/-- The lower edge of a class, in seconds. -/
def classEdge (c : Nat) : Nat := if c = 0 then 0 else ageEdges.getD (c - 1) 0

/-- The age in seconds that a stamp shows now, if its form makes it known (R171, R175, R176). -/
def State.stampAge (s : State) (w : DWord) : Option Nat :=
  if w.getLsbD 63 then
    if s.wallNow = 0 then none else some ((s.wallNow / 1000000 - bits w.toNat 62 0) / 1000)
  else if bits w.toNat 62 48 == s.field .anlBoot 0 0 14 0 then some ((s.now / 1000 - bits w.toNat 47 0) / 1000000)
  else none

/-- The age class a read of a page uses: its eighth's mark, a calibrated block's effective age, otherwise class 15; class 0
in the Mladlet profile (R172, R176, R189). -/
def State.readClass (s : State) (t c spn : Nat) : Nat :=
  let b := s.mblock t c ((s.block t (spn / s.ppb t)).member c)
  if s.pwr.straps.profile then 0
  else
    match (b.marks.lookup (spn % s.ppb t * 8 / s.ppb t)).bind (fun m => s.stampAge m.1) with
    | some a => ageClass a
    | none => if b.uncal || b.ageCls == 15 then 15 else ageClass (classEdge b.ageCls + (s.now - b.calAt) / 1000000000)

/-- The number of a drift entry (R173). -/
def driftEntry (age wband cband : Nat) : Nat := (age * 12 + wband) * 12 + cband

/-- The write band a read uses: its eighth's mark; in the Mladlet profile the current band (R172, R189). -/
def State.readBand (s : State) (t c spn : Nat) : Nat :=
  let cb := s.memberBand t c (spn / s.ppb t)
  if s.pwr.straps.profile then cb
  else (((s.mblock t c ((s.block t (spn / s.ppb t)).member c)).marks.lookup (spn % s.ppb t * 8 / s.ppb t)).map
    (fun x => x.2)).getD cb

/-- The bytes of the drift entry that a read of a stripe page's member uses, from the table in use (R173, R174): its three
offsets and its margin. -/
def State.entryBytes (s : State) (t c spn : Nat) : List Byte :=
  ((s.driftTable t).drop (64 + 4 * driftEntry (s.readClass t c spn) (s.readBand t c spn)
    (s.memberBand t c (spn / s.ppb t)))).take 4

/-- The margin of that entry: 0 normal, 1 low, 2 critical (R173). -/
def State.driftMargin (s : State) (t c spn : Nat) : Nat := byteField (s.entryBytes t c spn) 3 1 % 4

/-- Whether the entry of some eighth of a member block has critical margin now (R180). -/
def State.critical (s : State) (t c b : Nat) : Bool :=
  !s.pwr.straps.profile && (List.range 8).any (fun e =>
    let spn := b * s.ppb t + e * s.ppb t / 8
    ((s.mblock t c ((s.block t b).member c)).marks.lookup e).isSome && s.driftMargin t c spn == 2)

/-- A stripe block is scheduled for rewrite; several triggers rewrite it once (R180). -/
def State.schedule (t b : Nat) (s : State) : State :=
  if (s.block t b).free then s else s.setBlock t b { s.block t b with scheduled := true }

/-- The READ_CW senses of a member block: every count starts anew at a rebuild scan (R179). -/
def State.senses (s : State) (t c m : Nat) : Nat := (s.mblock t c m).senses.getD (s.spare t).senseBase

/-- A plane of a channel takes a READ_CW now: it is sensed 140 ns later, the 5 ns of the packet and tRD (R152, R161). -/
def State.startSense (t c m : Nat) (s : State) : State :=
  let h := s.chan t c
  s.setChan t c { h with
    sensing := (planeOf m, s.now) :: h.sensing.filter (fun e => e.1 != planeOf m && decide (s.now < e.2 + 140)) }

/-- `n` senses of a member block of a stripe block are counted; at the threshold it is scheduled (R179). -/
def State.countSenses (t c m b n : Nat) (s : State) : State :=
  let k := s.senses t c m + n
  let s1 := s.setMblock t c m { s.mblock t c m with senses := some k }
  if s.field .medCfg t 0 31 16 * 1000 ≤ k then s1.schedule t b else s1

/-- A READ_CW to the member of a stripe block. -/
def State.sense (t c b : Nat) (s : State) : State :=
  let m := (s.block t b).member c
  (s.startSense t c m).countSenses t c m b 1

/-- DRF_UNCAL shows the member blocks awaiting calibration. -/
def State.showUncal (t : Nat) (s : State) : State :=
  let n := (s.med.mblocks.filter (fun e => e.1 / 2 ^ 32 / 16 == t && e.2.uncal)).length
  (s.putField .drfUncal t 0 23 0 n).putField .drfStat t 0 30 30 (if n = 0 then 0 else 1)

/-- Corrected bits count per block in the Mladlet profile, where the threshold schedules a rewrite (R189). -/
def State.mladBits (t c b n : Nat) (s : State) : State :=
  if !s.pwr.straps.profile then s
  else
    let m := (s.block t b).member c
    let v := s.mblock t c m
    let s1 := s.setMblock t c m { v with corrBits := v.corrBits + n }
    if s.field .medMlad t 0 15 0 ≤ v.corrBits + n then s1.schedule t b else s1

/-! ## Members of a stripe page (R146, R153, R164) -/

/-- The channel of data position `p` of a stripe page (R146). -/
def dataChan (spn p : Nat) : Nat := (4 * (spn % 4) + 4 + p) % 16

/-- Whether an operation uses the plane of a member block of a channel. -/
def StartedOp.onPlane (o : StartedOp) (c block : Nat) : Bool := o.ch == c && planeOf o.block == planeOf block

/-- A plane counts as busy from 400 ns before its scheduled start, in the first 1 µs of its group's phase, until its STATUS shows
it idle. -/
def State.planeBusy (s : State) (t c block : Nat) : Bool :=
  let v := s.cal t
  let soon (o : StartedOp) : Bool :=
    (decide (23600 ≤ s.now % 24000) && o.ch % 8 == (s.phaseNow + 1) % 8) ||
      (decide (s.now % 24000 < 1000) && o.ch % 8 == s.phaseNow)
  v.started.any (fun o => o.onPlane c block) || v.due.any (fun o => o.onPlane c block) ||
    v.ready.any (fun o => o.onPlane c block && soon o)

/-- A member block that is out of use: retired, or with a bad mark (R182, R183, R190). -/
def MBlock.out (b : MBlock) : Bool := b.retired || b.bad

/-- Whether a member is unavailable for a read (R153, R164): its block is out of use or its target failed, its channel runs below
8.0 GT/s, is untrained or has its engine reset, its plane is busy, or its page was never programmed. -/
def State.unavailable (s : State) (t c spn : Nat) : Bool :=
  let m := (s.block t (spn / s.ppb t)).member c
  (s.mblock t c m).out || s.targetFailed t c m || (s.chan t c).rate != 0 || (s.chan t c).engineReset || s.planeBusy t c m ||
    (((s.page t spn).map (fun p => p.missing.contains c)).getD false)

/-- The members of a stripe page that a read may use. -/
def State.available (s : State) (t spn : Nat) : List Nat :=
  (List.range 16).filter (fun c => !s.unavailable t c spn)

/-- How many members of a stripe page a read may not use. -/
def State.gone (s : State) (t spn : Nat) : Nat := 16 - (s.available t spn).length

/-! ## Fault sources and their checks (R403, R411) -/

/-- The source ID of a numbered unit (R403). -/
def srcId (unit inst : Nat) : Nat := 128 * unit + inst

/-- The check bits an injection can invert, by unit: parity 1, KID and SECDED 8, line tag 56, others 64 (R204, R361, R380). -/
def checkWidth (id : Nat) : Nat :=
  if id / 128 = 0x06 ∨ id / 128 = 0x0A then 1
  else if id = srcId 0x14 0 then 56
  else if id = srcId 0x14 1 ∨ id / 128 = 0x05 then 8
  else 64

/-- Whether the next check of a source is made with check bits inverted (R411). -/
def State.injects (s : State) (t id : Nat) : Bool :=
  s.flt.inj.any (fun j => j.tile == t && j.source == id && bits j.mask.toNat (checkWidth id - 1) 0 != 0)

/-- One check of a source is made: whether an armed injection inverts some of its check bits, and the state after, with
one check fewer to invert. -/
def State.check (t id : Nat) (s : State) : Bool × State :=
  match s.flt.inj.find? (fun j => j.tile == t && j.source == id) with
  | none => (false, s)
  | some j =>
    let left := if j.count ≤ 1 then s.flt.inj.filter (fun x => !(x.tile == t && x.source == id))
      else s.flt.inj.map (fun x => if x.tile == t && x.source == id then { x with count := x.count - 1 } else x)
    (bits j.mask.toNat (checkWidth id - 1) 0 != 0, { s with flt := { s.flt with inj := left } })

/-- The source of a target's codewords: unit 4 c + k (R403). -/
def State.targetSrc (s : State) (t c spn : Nat) : Nat :=
  srcId 0x02 (4 * c + blockTarget ((s.block t (spn / s.ppb t)).member c))

/-- The source of the pass that carries codewords from channel `c` into the core (R336, R403). -/
def codewordPass (c : Nat) : Nat := srcId 0x06 (42 + c)

/-- A fault event that the operation in hand has met (R401; assumption 99). -/
def State.dueFault (t id : Nat) (inject : Bool) (addr : Nat) (s : State) : State :=
  { s with cat := { s.cat with faults := s.cat.faults ++ [{ tile := t, id := id, inject := inject, addr := addr }] } }

/-! ## Line reads as whole operations (R164 to R168, R179, R180) -/

/-- How the dispatcher reads a line of the member on channel `c`: a rescue where the member is unavailable, hedged where its
drift entry says so (never in the Mladlet profile), otherwise direct (R165 to R167, R189). -/
def State.readMode (s : State) (t c spn : Nat) : ReadMode :=
  if s.unavailable t c spn then .rescue
  else if !s.pwr.straps.profile && s.driftMargin t c spn != 0 then .hedged
  else .direct

/-- A foreground read of an uncalibrated block moves it to the front of the sweep (R176). -/
def State.wantCal (t c m : Nat) (s : State) : State :=
  if (s.mblock t c m).uncal then
    { s with med := { s.med with
        calFirst := mblockKey t c m :: s.med.calFirst.filter (fun k => k != mblockKey t c m) } }
  else s

/-- One sense of the member on a channel by a read for an agent. -/
def State.agentSense (t spn c : Nat) (s : State) : State :=
  (s.sense t c (spn / s.ppb t)).wantCal t c ((s.block t (spn / s.ppb t)).member c)

/-- A line of data position `pos` of a stripe page is read for an agent: its method is counted, the members it senses are, and
a critical entry schedules its block (R164 to R168, R179, R180, R190). -/
def State.mediaRead (t spn pos : Nat) (s : State) : State :=
  let c := dataChan spn pos
  match s.readMode t c spn with
  | .rescue => (((s.available t spn).foldl (fun s x => s.agentSense t spn x) s).bump .medBusyrec t 0).pmcEdge t 0x21 c
  | .hedged =>
    let s1 := (((s.available t spn).foldl (fun s x => s.agentSense t spn x) s).bump .medHedge t 0).pmcEdge t 0x22 c
    if s.driftMargin t c spn = 2 then s1.schedule t (spn / s.ppb t) else s1
  | .direct | .second => s.agentSense t spn c

/-- The first pass of such a read has failed: a direct read is followed by a rescue, which counts; the block's count of corrected
bits rises by 16 in the Mladlet profile (R168, R189). -/
def State.firstPassFailed (t spn pos : Nat) (s : State) : State :=
  let c := dataChan spn pos
  let s1 := (s.pmcEdge t 0x23 c).mladBits t c (spn / s.ppb t) 16
  if s.readMode t c spn == .direct then
    ((s.available t spn).filter (· != c)).foldl (fun s x => s.agentSense t spn x) (s1.bump .medRecon t 0)
  else s1

/-- A codeword that such a read has asked for comes back: one that fails its decode is an event of its target's source, one that fails
parity on its way of its pass's (R361, R403). -/
def State.checkCodeword (t spn line c : Nat) (failed : Bool) (s : State) : State :=
  let (p, s1) := s.check t (codewordPass c)
  if p then s1.dueFault t (codewordPass c) true (128 * line)
  else
    let (i, s2) := s1.check t (s1.targetSrc t c spn)
    if failed then s2.dueFault t (s2.targetSrc t c spn) i (128 * line) else s2

/-- The checkers of a line's KID and tag, 14h instances 1 and 0: a rebuilt line that fails one of them counts, and is an event of its
instance (R381). -/
def State.checkTags (t line : Nat) (bent : Option Nat) (s : State) : State :=
  let (k, s1) := s.check t (srcId 0x14 1)
  let (g, s2) := if bent == some 1 then (false, s1) else s1.check t (srcId 0x14 0)
  match bent with
  | some n => (s2.bump .cryTagRecon t 0).dueFault t (srcId 0x14 n) (if n = 1 then k else g) (128 * line)
  | none => s2

/-- The bits that the codewords of such a read have corrected, by channel, count for their blocks (R189). -/
def State.sumBits (t spn : Nat) (l : List (Nat × Nat)) (s : State) : State :=
  l.foldl (fun s e => s.mladBits t e.1 (spn / s.ppb t) e.2) s

/-- The corrected bits of a read by the part itself, whose codeword no row tells of, are a free value (R189). -/
def State.ownBits (t c b : Nat) (s : State) : State :=
  if s.pwr.straps.profile then (s.drawn 1).mladBits t c b ((Config.free s.freeCtr).toNat % 4864) else s

end Sys2Proof.Machine
end

