-- ==== Sys2Proof/Machine/Tables.lean ====
section
/-! DEFINITION. Reading the tables of near caches, directories and Catalogues: lines, entries (R108, R111, R112) and staging buffers
(R115). -/

namespace Sys2Proof.Machine

/-! ## Tables -/

def State.nc (s : State) (t line : Nat) : NcLine := tget (fun _ => {}) s.coh.nc (ncKey t line)

def State.setNc (t line : Nat) (v : NcLine) (s : State) : State :=
  { s with coh := { s.coh with nc := tset (fun _ => {}) s.coh.nc (ncKey t line) v } }

/-- The directory entry of a line, at its home. -/
def State.dir (s : State) (line : Nat) : Dir := tget (fun _ => {}) s.coh.dir line

def State.setDir (line : Nat) (v : Dir) (s : State) : State :=
  { s with coh := { s.coh with dir := tset (fun _ => {}) s.coh.dir line v } }

def State.folio (s : State) (f : Nat) : Entry := tget (fun _ => {}) s.cat.folios f

def State.leaf (s : State) (l : Nat) : Entry := tget (fun _ => {}) s.cat.leaves l

/-- A folio entry, or the leaf entry where `leaf`. -/
def State.entry (s : State) (leaf : Bool) (key : Nat) : Entry := if leaf then s.leaf key else s.folio key

/-- The home tile of an entry's folio. -/
def State.entryHome (s : State) (leaf : Bool) (key : Nat) : Nat :=
  homeFolio s.tiles (if leaf then key / 16 else key)

/-- The 128-byte line of its tile's folio table, or of the leaf pool (from 2 ^ 32 on), that holds an entry (R108, R114). -/
def State.catLine (s : State) (leaf : Bool) (key : Nat) : Nat :=
  if leaf then
    match (s.folio (key / 16)).place with
    | .split g => 2 ^ 32 + g
    | .unmapped | .media _ _ _ | .lost => 2 ^ 32
  else localFolio s.tiles key / 16

/-- The Catalogue cache has 4,096 sets of 16 lines (R114); which set a line uses is its number modulo 4,096 (DESIGN CHOICE,
assumption 98). -/
def catSets : Nat := 4096

/-! ## Staging buffers (R115) -/

/-- Whether a line's data is held by leaf: its folio is split. -/
def State.byLeaf (s : State) (line : Nat) : Bool :=
  match (s.folio (folioOf line)).place with
  | .split _ => true
  | _ => false

/-- The entry that owns a line now. -/
def State.owner (s : State) (line : Nat) : Bool × Nat :=
  if s.byLeaf line then (true, leafOf line) else (false, folioOf line)

/-- The staging buffers of an entry, newest first. -/
def State.bufsOf (s : State) (leaf : Bool) (key : Nat) : List Buf :=
  s.cat.bufs.filter (fun b => b.leaf == leaf && b.key == key)

/-- A line in a buffer. -/
def Buf.line (b : Buf) (line : Nat) : Option Stored := tget (fun _ => none) b.lines line

/-- Tracts of a buffer: 16 for a folio, one for a leaf (R115). -/
def bufTracts (leaf : Bool) : Nat := if leaf then 1 else 16

/-- A tile and a tile-local folio index (R108) as one number. -/
def lostKey (t i : Nat) : Nat := t * 2 ^ 33 + i

/-- The tiles' lists of lost ranges (R378): a folio whose tile-local index lies in one is treated as LOST, until its entry is set
anew (R135). -/
def State.lostFolio (s : State) (f : Nat) : Bool :=
  let k := lostKey (homeFolio s.tiles f) (localFolio s.tiles f)
  s.cat.lost.any (fun r => r.1 ≤ k && k < r.1 + r.2) && !s.cat.found.contains f

end Sys2Proof.Machine
end

