-- ==== Sys2Proof/Machine/Entries.lean ====
section
/-! DEFINITION. What the tables of a tile's DDR5 hold, byte by byte: folio and leaf entries (R111, R112), staging records (R115),
the undo log (R125) and notes (R129). -/

namespace Sys2Proof.Machine

/-! ## Folio and leaf entries -/

/-- The kind of an entry; 0b100 to 0b111 are never written (R111, R113). -/
def Place.kind : Place → Nat
  | .unmapped => 0
  | .media _ _ _ => 1
  | .split _ => 2
  | .lost => 3

/-- The low 34 bits of an entry: a folio's slot, or a leaf's data position and quarter, and the stripe page or the leaf group. -/
def Place.low (leaf : Bool) : Place → Nat
  | .unmapped | .lost => 0
  | .media spn pos quarter => spn + if leaf then quarter * 2 ^ 28 + pos * 2 ^ 30 else pos / 4 * 2 ^ 28
  | .split g => g

/-- The eight bytes of an entry as a number: kind, staged, reloc, sbuf and the place (R111, R112). -/
def entryWord (leaf : Bool) (e : Entry) (newest : Option Buf) : Nat :=
  e.place.low leaf + (match newest with
    | some b => b.tract * 2 ^ 34 + 2 ^ 59
    | none => 0) + (if e.reloc then 2 ^ 58 else 0) + e.wrong.getD e.place.kind * 2 ^ 61

/-- An entry as the tables hold it now: one of a LOST range has kind LOST until it is set anew (R135). -/
def State.entryNow (s : State) (leaf : Bool) (key : Nat) : Nat :=
  let e := s.entry leaf key
  entryWord leaf (if !leaf && s.lostFolio key then { e with place := .lost } else e) (s.bufsOf leaf key).head?

/-! ## Staging records -/

/-- The record of a staging tract (R115): its line mask, the epoch of its buffer, the first tract of the buffer before it in the
chain, and its owner's local index. -/
structure TractRec where
  mask  : BitVec 32
  epoch : Nat
  prev  : Option Nat
  owner : Nat
  deriving DecidableEq, Repr

/-- The buffer that holds a staging tract of a tile. -/
def State.bufAt (s : State) (t n : Nat) : Option Buf :=
  s.cat.bufs.find? (fun b => s.entryHome b.leaf b.key == t && decide (b.tract ≤ n ∧ n < b.tract + bufTracts b.leaf))

/-- The leaf that a tract of a buffer holds. -/
def Buf.leafAt (b : Buf) (n : Nat) : Nat := if b.leaf then b.key else 16 * b.key + (n - b.tract)

/-- The local index of an entry: a folio's on its tile, or leaf group × 16 + leaf (R108, R125). -/
def State.entryIndex (s : State) (leaf : Bool) (key : Nat) : Nat :=
  if leaf then s.catLine true key % 2 ^ 32 * 16 + key % 16 else localFolio s.tiles key

/-- A bit for each line of a leaf that a buffer holds. -/
def Buf.mask (b : Buf) (leaf : Nat) : BitVec 32 :=
  BitVec.ofNat 32 (((List.range 32).filter (fun i => (b.line (32 * leaf + i)).isSome)).foldl (fun a i => a + 2 ^ i) 0)

/-- The record of a staging tract of a tile. -/
def State.tractRec (s : State) (t n : Nat) : Option TractRec :=
  (s.bufAt t n).map (fun b =>
    { mask := b.mask (b.leafAt n), epoch := b.epoch,
      prev := (((s.bufsOf b.leaf b.key).dropWhile (· != b)).tail.head?).map (fun x => x.tract),
      owner := s.entryIndex b.leaf b.key })

/-! ## The undo log -/

/-- An entry of a tile's undo log: an epoch mark, or the previous value of an entry (R125). -/
inductive LogEntry where
  | mark (epoch : Nat)
  | entry (u : Undo)
  deriving DecidableEq, Repr

/-- A tile's undo log, oldest first: a mark opens the entries of each epoch. -/
def State.undoLog (s : State) (t : Nat) : List LogEntry :=
  ((s.cat.undo.filter (fun u => s.entryHome u.leaf u.key == t)).reverse).foldl (fun l u =>
    if l.contains (.mark u.epoch) then l ++ [.entry u] else l ++ [.mark u.epoch, .entry u]) []

/-- The 16 bytes of an undo entry (R125). The staging buffer that an old value names is the newest of the epochs before it. -/
def State.undoBytes (s : State) (e : LogEntry) : List Byte :=
  match e with
  | .mark n => leBytes 8 n ++ leBytes 4 0 ++ [0xFE, 0, 0, 0]
  | .entry u =>
    let buf := ((s.bufsOf u.leaf u.key).filter (fun b => decide (b.epoch < u.epoch))).head?
    leBytes 8 (entryWord u.leaf u.old buf) ++ leBytes 4 u.index ++ [if u.leaf then 1 else 0, 0, 0, 0]

/-! ## Notes -/

/-- The 16 bytes of a note (R129). -/
def Note.bytes (n : Note) : List Byte := leBytes 8 n.leaf ++ leBytes 4 n.count ++ leBytes 4 0

/-! ## Where an index of a table points -/

/-- The folio of a tile with a local index (R108): one of eight with the same bits above the fold. -/
def State.folioAt (s : State) (t i : Nat) : Nat :=
  let per := 8 / s.tiles
  (((List.range 8).map (fun k => 8 * (i / per) + k)).find? (fun f =>
    homeFolio s.tiles f == t && localFolio s.tiles f == i)).getD 0

/-- The folio of a tile that a leaf group belongs to. -/
def State.groupFolio (s : State) (t g : Nat) : Option Nat :=
  (s.cat.folios.find? (fun e => e.2.place == .split g && homeFolio s.tiles e.1 == t)).map (fun e => e.1)

end Sys2Proof.Machine
end

