-- ==== Sys2Proof/Machine/Keccak.lean ====
section
/-! DEFINITION. SHAKE256 and KMAC256, which R373, R380, R450 and R452 name; both are other standards' (FIPS 202, NIST SP
800-185; PRESUMED, assumption 55). -/

namespace Sys2Proof.Machine

/-- A lane of 64 bits rotated left. -/
def rotLane (x n : Nat) : Nat := (x * 2 ^ n ||| x / 2 ^ (64 - n)) % 2 ^ 64

/-- The lanes but lane (0, 0) in the order of the permutation's walk, which goes from (1, 0) by (x, y) to (y, 2 x + 3 y). -/
def laneWalk : Nat → Nat × Nat → List (Nat × Nat)
  | 0, _ => []
  | n + 1, p => p :: laneWalk n (p.2, (2 * p.1 + 3 * p.2) % 5)

/-- How far lane x + 5 y is rotated: the sum of 1 to k for the lane that comes k-th in the walk. -/
def keccakRot (l : Nat) : Nat :=
  let k := ((laneWalk 24 (1, 0)).idxOf (l % 5, l / 5) + 1) % 25
  k * (k + 1) / 2 % 64

/-- The shift register x^8 + x^6 + x^5 + x^4 + 1 after some steps from 1. -/
def keccakShift : Nat → Nat
  | 0 => 1
  | n + 1 => let r := 2 * keccakShift n; if 256 ≤ r then r ^^^ 0x171 else r

/-- The constant of a round: 7 bits of the register, bit j at place 2^j - 1. -/
def keccakConst (r : Nat) : Nat :=
  (List.range 7).foldl (fun v j => v + keccakShift (7 * r + j) % 2 * 2 ^ (2 ^ j - 1)) 0

/-- One round of the permutation. -/
def keccakRound (a : List Nat) (rc : Nat) : List Nat :=
  let at' (l : List Nat) (x y : Nat) : Nat := l.getD (x % 5 + 5 * (y % 5)) 0
  let c := (List.range 5).map (fun x => at' a x 0 ^^^ at' a x 1 ^^^ at' a x 2 ^^^ at' a x 3 ^^^ at' a x 4)
  let d := (List.range 5).map (fun x => c.getD ((x + 4) % 5) 0 ^^^ rotLane (c.getD ((x + 1) % 5) 0) 1)
  let t := (List.range 25).map (fun i => a.getD i 0 ^^^ d.getD (i % 5) 0)
  let b := (List.range 25).map (fun i =>
    let x := i % 5
    let y := i / 5
    -- the lane that moves to (x, y) comes from (x + 3 y, x)
    rotLane (at' t (x + 3 * y) x) (keccakRot ((x + 3 * y) % 5 + 5 * x)))
  (List.range 25).map (fun i =>
    let x := i % 5
    let y := i / 5
    at' b x y ^^^ ((2 ^ 64 - 1 - at' b (x + 1) y) &&& at' b (x + 2) y) ^^^ (if i = 0 then rc else 0))

def keccak (a : List Nat) : List Nat := (List.range 24).foldl (fun a r => keccakRound a (keccakConst r)) a

/-- The bytes of a state's lanes, the lowest first. -/
def laneBytes (a : List Nat) : List Nat := a.flatMap (fun x => (List.range 8).map (fun i => x / 256 ^ i % 256))

/-- A block of 136 bytes goes into the state. -/
def absorb (a : List Nat) (block : List Nat) : List Nat :=
  keccak ((List.range 25).map (fun i =>
    a.getD i 0 ^^^ (if i < 17 then ((block.drop (8 * i)).take 8).foldr (fun b x => b + 256 * x) 0 else 0)))

/-- A message padded to whole blocks, with the suffix byte of its function. -/
def padded (suffix : Nat) (msg : List Nat) : List Nat :=
  let n := 135 - msg.length % 136
  if n = 0 then msg ++ [suffix + 128] else msg ++ [suffix] ++ List.replicate (n - 1) 0 ++ [128]

/-- The state after a message. -/
def sponge (suffix : Nat) (msg : List Nat) : List Nat :=
  let m := padded suffix msg
  (List.range (m.length / 136)).foldl (fun a i => absorb a ((m.drop (136 * i)).take 136)) (List.replicate 25 0)

/-- The first bytes of SHAKE256, at most 136. -/
def shake256 (n : Nat) (msg : List Nat) : List Nat := (laneBytes (sponge 0x1F msg)).take n

/-- The shortest big-endian bytes of a number, at least one. -/
def beShort (v : Nat) : List Nat :=
  if v < 256 then [v] else if v < 2 ^ 16 then [v / 256, v % 256] else [v / 2 ^ 16 % 256, v / 256 % 256, v % 256]

def leftEncode (v : Nat) : List Nat := (beShort v).length :: beShort v

def encodeString (l : List Nat) : List Nat := leftEncode (8 * l.length) ++ l

def bytePad (l : List Nat) : List Nat :=
  let x := leftEncode 136 ++ l
  x ++ List.replicate ((136 - x.length % 136) % 136) 0

/-- The bytes of an ASCII string. -/
def asciiBytes (t : String) : List Nat := t.toList.map Char.toNat

/-- KMAC256 with an output of `n` bytes, at most 136, and a customisation string. -/
def kmac256 (key msg : List Nat) (n : Nat) (custom : String) : List Nat :=
  let head := bytePad (encodeString (asciiBytes "KMAC") ++ encodeString (asciiBytes custom))
  (laneBytes (sponge 0x04 (head ++ bytePad (encodeString key) ++ msg ++ beShort (8 * n) ++ [(beShort (8 * n)).length]))).take n

end Sys2Proof.Machine
end

