-- ==== Sys2Proof/Machine/CounterTree.lean ====
section
/-! DEFINITION. The layout and content of a tile's DDR5 (R109, R363), its counter-mode cipher and counters (R369 to R371) and its
counter tree (R372 to R375). -/

namespace Sys2Proof.Machine

/-! ## The layout of a tile's DDR5 (R109, R363) -/

/-- Where each region starts: counter store at 0, leaf pool, undo log, staging records and epoch log, folio table, stripe
sequence table, heat table, block tables, staging, and the end. -/
structure DdrMap where
  leafPool : Nat
  undo     : Nat
  records  : Nat
  folio    : Nat
  seq      : Nat
  heat     : Nat
  block    : Nat
  staging  : Nat
  top      : Nat
  deriving DecidableEq, Repr

/-- The next 4 KiB boundary. -/
def pageUp (n : Nat) : Nat := (n + 4095) / 4096 * 4096

/-- Bytes of `mib` MiB for each TiB (2 ^ 26 pages) of raw media. -/
def mapBytes (mib pages : Nat) : Nat := mib * pages / 2 ^ 6

def State.ddrMap (s : State) (t : Nat) : DdrMap :=
  let d := tget (fun _ => 0) s.pwr.ddrGib t * 2 ^ 30
  let g := tget (fun _ => 0) s.pwr.mediaPages t
  let leafPool := pageUp (d / 64)
  let undo := leafPool + 512 * 2 ^ 20
  let records := undo + 256 * 2 ^ 20
  let folio := records + 512 * 2 ^ 20
  let seq := pageUp (folio + mapBytes 96 g)
  let heat := pageUp (seq + mapBytes 32 g)
  let block := pageUp (heat + mapBytes 12 g)
  let staging := pageUp (block + mapBytes 20 g)
  { leafPool, undo, records, folio, seq, heat, block, staging, top := d }

/-- The bytes of a range that lie in a region, as offsets in it: first and past the last. -/
def overlap (a len base limit : Nat) : Option (Nat × Nat) :=
  let lo := max a base
  let hi := min (a + len) limit
  if lo < hi then some (lo - base, hi - base) else none

/-! ## What a line of a tile's DDR5 holds -/

/-- A line as a table lays it out. -/
def lineOf (l : List Byte) : Line := BitVec.ofNat 1024 (leNat l)

/-- The line of the leaf pool that a group occupies (R108). -/
def State.groupLine (s : State) (t g : Nat) : Line :=
  lineOf (match s.groupFolio t g with
    | some f => (List.range 16).flatMap (fun j => leBytes 8 (s.entryNow true (16 * f + j)))
    | none => [])

/-- A line of the undo log: eight entries. -/
def State.logLine (s : State) (t n : Nat) : Line :=
  lineOf ((((s.undoLog t).drop (8 * n)).take 8).flatMap s.undoBytes)

/-- A line of the folio table: sixteen entries. -/
def State.folioLine (s : State) (t n : Nat) : Line :=
  lineOf ((List.range 16).flatMap (fun i => leBytes 8 (s.entryNow false (s.folioAt t (16 * n + i)))))

/-- A line of the stripe sequence table: the sequences of sixteen stripe pages (R120). -/
def State.seqLine (s : State) (t n : Nat) : Line :=
  lineOf ((List.range 16).flatMap (fun i => leBytes 8 (((s.page t (16 * n + i)).map (fun p => p.seq)).getD 0)))

/-- A line of the heat table: a byte of each folio (R122). -/
def State.heatLine (s : State) (t n : Nat) : Line :=
  lineOf ((List.range 128).flatMap (fun i => leBytes 1 (tget (fun _ => 0) s.cat.heat (s.folioAt t (128 * n + i)))))

/-- A line of staging. -/
def State.stagedAt (s : State) (t n : Nat) : Line :=
  match s.bufAt t (n / 32) with
  | some b => ((b.line (32 * b.leafAt (n / 32) + n % 32)).getD {}).data
  | none => 0

/-- The line at an address of a tile's DDR5 (R109), outside the counter store. How the staging records, the epoch log and the
block tables lie in theirs the manual does not give: those lines are values of Config (assumption 9). -/
def State.ddrLine (s : State) (t a : Nat) : Line :=
  let m := s.ddrMap t
  if a < m.undo then s.groupLine t ((a - m.leafPool) / 128)
  else if a < m.records then s.logLine t ((a - m.undo) / 128)
  else if a < m.folio then Config.recordLine t (a / 128)
  else if a < m.seq then s.folioLine t ((a - m.folio) / 128)
  else if a < m.heat then s.seqLine t ((a - m.seq) / 128)
  else if a < m.block then s.heatLine t ((a - m.heat) / 128)
  else if a < m.staging then Config.recordLine t (a / 128)
  else s.stagedAt t ((a - m.staging) / 128)

/-- The entries of `w` bytes that a range of offsets touches: first and count. -/
def touched (w : Nat) (r : Nat × Nat) : Nat × Nat := (r.1 / w, (r.2 + w - 1) / w - r.1 / w)

/-! ## The counter tree (R369 to R374) -/

/-- A block of the counter store: leaf or node `j` of a level, the leaves first and each level after the one below it
(assumption 20). -/
def nodeOf (n lvl fuel b : Nat) : Option (Nat × Nat) :=
  match fuel with
  | 0 => none
  | fuel + 1 =>
    if b < n then some (lvl, b)
    else if n ≤ 64 then none else nodeOf ((n + 7) / 8) (lvl + 1) fuel (b - n)

/-- The leaves of a tile. -/
def State.leafCount (s : State) (t : Nat) : Nat := ((s.ddrMap t).top - (s.ddrMap t).leafPool) / 8192

/-- What a leaf or node covers: DDR5 start and length. -/
def State.covers (s : State) (t lvl j : Nat) : Nat × Nat :=
  let m := s.ddrMap t
  let a := m.leafPool + 8192 * 8 ^ lvl * j
  (a, min (8192 * 8 ^ lvl) (m.top - a))

def tractKey (t n : Nat) : Nat := t * 2 ^ 24 + n
def leafKey (t i : Nat) : Nat := t * 2 ^ 32 + i
def nodeKey (t lvl j : Nat) : Nat := t * 2 ^ 40 + lvl * 2 ^ 32 + j

def State.tractValid (s : State) (t n : Nat) : Bool := tget (fun _ => false) s.cry.tracts (tractKey t n)

/-- The highest major a tile has issued (R371, R378). -/
def State.topMajor (s : State) (t : Nat) : Nat := tget (fun _ => 0) s.cry.major t

/-- A block of the counter tree. -/
def State.cnode (s : State) (t lvl j : Nat) : CNode := tget (fun _ => {}) s.cry.nodes (nodeKey t lvl j)

def State.setCnode (t lvl j : Nat) (v : CNode) (s : State) : State :=
  { s with cry := { s.cry with nodes := tset (fun _ => {}) s.cry.nodes (nodeKey t lvl j) v } }

/-- A block of the counter tree is changed in the counter cache (R374). -/
def State.dirtyNode (t lvl j : Nat) (s : State) : State :=
  s.setCnode t lvl j { s.cnode t lvl j with cached := true, dirty := true }

/-! ## The counter-mode cipher (R370) -/

/-- The IV of the 16-byte unit at an address: major, minor and address. -/
def ddrIv (major minor a : Nat) : Nat := major * 2 ^ 64 + minor * 2 ^ 58 + a / 16 % 2 ^ 32

/-- The 16 bytes of a 128-bit block, the most significant first, as AES takes them (assumption 9). -/
def blockBytes (v : Nat) : List Nat := (List.range 16).map (fun i => v / 256 ^ (15 - i) % 256)

/-- A line as DDR5 holds it: each unit of 16 bytes exclusive-ored with AES-256 of its IV under K_ddr. -/
def ddrCipher (key : BitVec 256) (major minor a : Nat) (data : Line) : List Byte :=
  let k := (leBytes 32 key.toNat).map BitVec.toNat
  (List.range 8).flatMap (fun u =>
    (xorBytes (((leBytes 128 data.toNat).drop (16 * u)).take 16 |>.map BitVec.toNat)
      (aes256 k (blockBytes (ddrIv major minor (a + 16 * u))))).map (BitVec.ofNat 8))

/-- The keys of a tract's DDR5, K_ddr and K_tree: while a rekey runs, the new ones below CRY_REKEY_PTR, the old ones from there on
(R376). -/
def State.ddrKeys (s : State) (t n : Nat) : BitVec 256 × BitVec 256 :=
  match tget (fun _ => none) s.cry.oldKey t with
  | some old => if n < s.reg .cryRekeyPtr t 0 then (tget (fun _ => 0) s.cry.ddrKey t, tget (fun _ => 0) s.cry.treeKey t) else old
  | none => (tget (fun _ => 0) s.cry.ddrKey t, tget (fun _ => 0) s.cry.treeKey t)

/-- A line of DDR5 is written under the major and minor that its leaf holds now. -/
def State.writeDdr (t i j : Nat) (s : State) : State :=
  let l := tget (fun _ => ({} : Leaf)) s.cry.leaves (leafKey t i)
  let a := (s.ddrMap t).leafPool + 8192 * i + 128 * j
  (s.pmcEdge t 0x31 (Config.ddrController a % 2)).emit (.ddrWrite t a (ddrCipher (s.ddrKeys t (a / 4096)).1 l.major (tget (fun _ => 0) l.minors j) a
    (s.ddrLine t a)))

/-- A leaf whose major is 0 has not been written since its range was last initialised; its first write gives it a major
above every one issued. -/
def State.freshLeaf (t i : Nat) (s : State) : State :=
  let l := tget (fun _ => ({} : Leaf)) s.cry.leaves (leafKey t i)
  if l.major = 0 then
    { s with cry := { s.cry with
      major := tset (fun _ => 0) s.cry.major t (s.topMajor t + 1)
      leaves := tset (fun _ => {}) s.cry.leaves (leafKey t i) { major := s.topMajor t + 1, minors := [] } } }
  else s

/-- A minor would pass 63: the leaf takes one above the highest major, its minors restart, and its 64 lines are
re-encrypted one by one (R371). -/
def State.majorUp (t i : Nat) (s : State) : State :=
  let s1 := (({ s with cry := { s.cry with
    major := tset (fun _ => 0) s.cry.major t (s.topMajor t + 1)
    leaves := tset (fun _ => {}) s.cry.leaves (leafKey t i) { major := s.topMajor t + 1, minors := [] } } } : State).bump
      .cryMinorOvf t 0).dirtyNode t 0 i
  (List.range 64).foldl (fun s j => s.writeDdr t i j) s1

/-- A write of a line of DDR5 increments its minor (R370). -/
def State.bumpMinor (t i j : Nat) (s : State) : State :=
  let s1 := s.freshLeaf t i
  let l := tget (fun _ => ({} : Leaf)) s1.cry.leaves (leafKey t i)
  let n := tget (fun _ => 0) l.minors j
  if n = 63 then s1.majorUp t i
  else ({ s1 with cry := { s1.cry with
    leaves := tset (fun _ => {}) s1.cry.leaves (leafKey t i) { l with minors := tset (fun _ => 0) l.minors j (n + 1) } } } :
      State).dirtyNode t 0 i

/-- A line at an address of a tile's DDR5 is written anew: under a new counter, where its tract is valid (R31, R370). The first write
to an invalid tract is a row of its own (R364). -/
def State.ddrStore (t a : Nat) (s : State) : State :=
  let c := a - (s.ddrMap t).leafPool
  if s.tractValid t (a / 4096) then (s.bumpMinor t (c / 8192) (c / 128 % 64)).writeDdr t (c / 8192) (c / 128 % 64) else s

/-- Where a tile's DDR5 holds a line of its folio table, or from 2 ^ 32 on of its leaf pool (R108). -/
def State.catAddr (s : State) (t l : Nat) : Nat :=
  if l < 2 ^ 32 then (s.ddrMap t).folio + 128 * l else (s.ddrMap t).leafPool + 128 * (l - 2 ^ 32)

/-- The top level, whose nodes have their counters in the root, of `n` leaves (R372). -/
def topLevel (n fuel : Nat) : Nat :=
  match fuel with
  | 0 => 0
  | fuel + 1 => if n ≤ 64 then 0 else topLevel ((n + 7) / 8) fuel + 1

/-- The counter bits of a leaf, its major above its 64 minors, or of a node, the counters of its 8 children (R369, R372). -/
def State.nodeBits (s : State) (t lvl j : Nat) : Nat :=
  if lvl = 0 then
    let l := tget (fun _ => ({} : Leaf)) s.cry.leaves (leafKey t j)
    l.major * 2 ^ 384 + (List.range 64).foldl (fun a i => a + tget (fun _ => 0) l.minors i * 2 ^ (6 * i)) 0
  else (List.range 8).foldl (fun a i => a + (s.cnode t (lvl - 1) (8 * j + i)).ctr * 2 ^ (56 * i)) 0

/-- The DDR5 address of a leaf or node of `n` leaves: the leaves lie first, then each level after the one below it (assumption
20). -/
def nodeAddr (n lvl j : Nat) : Nat :=
  match lvl with
  | 0 => 64 * j
  | lvl + 1 => 64 * n + nodeAddr ((n + 7) / 8) lvl j

/-- The MAC of a leaf or node under K_tree (R373), by the first tract that it covers (R376), for the counter its parent holds for it; its first output byte is its lowest
(assumption 9). -/
def State.nodeMac (s : State) (t lvl j ctr : Nat) : DWord :=
  let tract := ((s.ddrMap t).leafPool + 8192 * 8 ^ lvl * j) / 4096
  let key := (leBytes 32 (s.ddrKeys t tract).2.toNat).map BitVec.toNat
  let msg := (leBytes 56 (s.nodeBits t lvl j) ++ leBytes 8 (nodeAddr (s.leafCount t) lvl j) ++ leBytes 8 ctr).map BitVec.toNat
  BitVec.ofNat 64 (leNat ((kmac256 key msg 8 "VZ NODE").map (BitVec.ofNat 8)))

/-- A leaf or node leaves the counter cache: its parent's counter for it rises, its MAC is recomputed, and it is written to
DDR5. The parent is then dirty in the cache, but for the root, which lies on die (R374). -/
def State.evictAt (t lvl j : Nat) (s : State) : State :=
  let v := s.cnode t lvl j
  let ctr := (v.ctr + 1) % 2 ^ 56
  let mac := s.nodeMac t lvl j ctr
  let a := nodeAddr (s.leafCount t) lvl j
  let s1 := ((s.setCnode t lvl j { cached := false, dirty := false, ctr := ctr, mac := mac }).pmcEdge t 0x31
    (Config.ddrController a % 2)).emit (.ddrWrite t a (leBytes 8 mac.toNat ++ leBytes 56 (s.nodeBits t lvl j)))
  if lvl = topLevel (s.leafCount t) 9 then s1 else s1.dirtyNode t (lvl + 1) (j / 8)

/-- A block of the counter store leaves the counter cache. -/
def State.evictNode (t b : Nat) (s : State) : State :=
  (nodeOf (s.leafCount t) 0 9 b).elim s (fun x => s.evictAt t x.1 x.2)

/-- The counter cache of a tile writes back every dirty block, each level before the one above it (R375). -/
def State.writeBackNodes (t : Nat) (s : State) : State :=
  (List.range 9).foldl (fun s lvl =>
    (s.cry.nodes.filter (fun e => e.1 / 2 ^ 32 == 2 ^ 8 * t + lvl && e.2.dirty)).foldl (fun s e =>
      s.evictAt t lvl (e.1 % 2 ^ 32)) s) s

end Sys2Proof.Machine
end

