-- ==== Sys2Proof/Machine/Lines.lean ====
section
/-! DEFINITION. Lines of user space: where a line's content is (R113), staging (R115), the undo log (R125), and the
reads and writes of agents through near caches as whole operations (R89, R201, R202, R205, R219, R235). -/

namespace Sys2Proof.Machine

/-! ## The Catalogue cache (R114) -/

/-- An entry is used in the Catalogue cache of its home: a hit, or a miss that fetches its line into the place of the least
recently used one of its set, which is written back where dirty (R114, assumption 98). -/
def State.useEntry (leaf : Bool) (key : Nat) (write : Bool) (s : State) : State :=
  let l := s.catLine leaf key
  let k := catSets * s.entryHome leaf key + l % catSets
  let set := tget (fun _ => []) s.cat.cache k
  let was := (set.find? (fun x => x.line == l)).any (fun x => x.dirty)
  let rest := set.filter (fun x => x.line != l)
  let s1 := if set.any (fun x => x.line == l) then s
    else
      ((rest.drop 15).filter (fun x => x.dirty)).foldl (fun (s : State) x =>
        s.ddrStore (s.entryHome leaf key) (s.catAddr (s.entryHome leaf key) x.line))
        (s.pmcEdge (s.entryHome leaf key) 0x0B 0)
  { s1 with cat := { s1.cat with
      cache := tset (fun _ => []) s1.cat.cache k ({ line := l, dirty := write || was } :: rest.take 15) } }

/-- An entry is set, in the Catalogue cache (R114); one in a LOST range is exact from then on (R135). -/
def State.setEntry (leaf : Bool) (key : Nat) (v : Entry) (s : State) : State :=
  let s := s.useEntry leaf key true
  { s with cat := { s.cat with
      folios := if leaf then s.cat.folios else tset (fun _ => {}) s.cat.folios key v
      leaves := if leaf then tset (fun _ => {}) s.cat.leaves key v else s.cat.leaves
      found := if leaf || s.cat.lost.isEmpty || s.cat.found.contains key then s.cat.found else key :: s.cat.found } }

/-! ## Epoch stamps (R96) -/

/-- The epoch tile `t` stamps on a write that becomes visible now. -/
def State.stampOf (s : State) (t : Nat) : Nat :=
  let v := tget (fun _ => 0) s.epo.stamp t
  if v = 0 then s.epo.openE else v

/-- Bit `t` alone. -/
def tileBit (t : Nat) : BitVec 8 := BitVec.ofNat 8 (2 ^ t)

/-- The tiles of a bit vector. -/
def tilesOf (b : BitVec 8) : List Nat := (List.range 8).filter (fun t => b.getLsbD t)

/-! ## The undo log (R125) -/

def State.hasUndo (s : State) (leaf : Bool) (key : Nat) : Bool :=
  s.cat.undo.any (fun u => u.leaf == leaf && u.key == key)

/-- The highest epoch in which an entry was changed above D, 0 when it has no undo entry (R194). -/
def State.undoEpoch (s : State) (leaf : Bool) (key : Nat) : Nat :=
  (s.cat.undo.filter (fun u => u.leaf == leaf && u.key == key)).foldl (fun a u => max a u.epoch) 0

/-- The undo entries of a tile in its log, with the mark that opens the entries of each epoch (R125). -/
def State.undoCount (s : State) (t : Nat) : Nat :=
  let l := s.cat.undo.filter (fun u => s.entryHome u.leaf u.key == t)
  l.length + ((l.map (fun u => u.epoch)).eraseDups).length

/-- A tile's undo log holds 16 Mi entries (R109); its trigger is at 90 % (R95). -/
def undoLimit : Nat := 16777216

def State.undoHigh (s : State) (t : Nat) : Bool := decide (undoLimit * 9 ≤ s.undoCount t * 10)

def State.undoFull (s : State) (t : Nat) : Bool := decide (undoLimit ≤ s.undoCount t)

/-- The operation in hand must wait (R98, R100, R116, R133). -/
def State.wait (b : Bool) (s : State) : State :=
  { s with cat := { s.cat with stuck := s.cat.stuck || b } }

/-- The first change of an entry in an epoch writes one undo entry with its previous value (R125); it waits while the log is full
(R100). -/
def State.undo (leaf : Bool) (key epoch : Nat) (s : State) : State :=
  if s.cat.undo.any (fun u => u.leaf == leaf && u.key == key && u.epoch == epoch) then s
  else
    let h := s.entryHome leaf key
    let s := s.wait (s.undoFull h)
    let s := if s.undoCount h + 1 = undoLimit then s.pmcEdge h 0x0F 0 else s
    { s with cat := { s.cat with
      undo := { leaf := leaf, key := key, epoch := epoch, old := s.entry leaf key, index := s.entryIndex leaf key } ::
        s.cat.undo } }

/-! ## Leaf groups (R109, R124, R126) -/

/-- Whether a leaf group is still named: by a folio entry of its tile, or by the old value of an undo entry, which a rollback
could restore (R124, R126). -/
def State.groupNamed (s : State) (t g : Nat) : Bool :=
  s.cat.folios.any (fun e => e.2.place == .split g && homeFolio s.tiles e.1 == t) ||
    s.cat.undo.any (fun u => !u.leaf && u.old.place == .split g && s.entryHome false u.key == t)

/-- The leaf groups of a tile that nothing names are free (R124, R126). -/
def State.sweepGroups (t : Nat) (s : State) : State :=
  { s with cat := { s.cat with
      groups := tset (fun _ => []) s.cat.groups t ((tget (fun _ => []) s.cat.groups t).filter (fun g => s.groupNamed t g)) } }

/-! ## Staging (R115) -/

/-- Replaces the first buffer that `p` names. -/
def updateFirst (p : Buf → Bool) (f : Buf → Buf) : List Buf → List Buf
  | [] => []
  | b :: bs => if p b then f b :: bs else b :: updateFirst p f bs

/-- A line whose newest content a capture engine wrote (R325, assumption 36). -/
def State.captured (s : State) (line : Nat) : Bool := s.cap.written.contains line

/-- The capture tracts of a buffer after a line joins it. -/
def State.tract (s : State) (line : Nat) (l : List Nat) : List Nat :=
  if s.captured line && !l.contains (leafOf line) then leafOf line :: l else l

/-! ### Staging room (R109, R115, R116, R133) -/

/-- Tracts of staging on a tile: what the other regions of its DDR5 leave (R109, R363). -/
def State.stagingTracts (s : State) (t : Nat) : Nat := ((s.ddrMap t).top - (s.ddrMap t).staging) / 4096

/-- The tracts a tile's buffers hold. -/
def State.tractsUsed (s : State) (t : Nat) : List Nat :=
  (s.cat.bufs.filter (fun b => s.entryHome b.leaf b.key == t)).flatMap (fun b =>
    (List.range (bufTracts b.leaf)).map (· + b.tract))

/-- The tracts a new buffer takes, by its first: 16 free ones aligned to 16 for a folio, one for a leaf. The manual leaves open
which; the model takes the lowest (DESIGN CHOICE, assumption 98). -/
def State.freeTract (s : State) (t : Nat) (leaf : Bool) : Nat :=
  let used := s.tractsUsed t
  let n := bufTracts leaf
  ((List.range (used.length + 1)).find? (fun i => !(List.range n).any (fun j => used.contains (n * i + j)))).getD 0 * n

/-- Whether a tile's staging has no room for a new buffer. -/
def State.tractsFull (s : State) (t : Nat) (leaf : Bool) : Bool :=
  decide (s.stagingTracts t < s.freeTract t leaf + bufTracts leaf)

/-- A write-back that would open a third buffer waits (R116). -/
def State.stageWaits (s : State) (line epoch : Nat) : Bool :=
  let (leaf, key) := s.owner line
  match s.bufsOf leaf key with
  | b :: _ :: _ => b.epoch != epoch
  | _ => false

/-- Staged bytes of a tile not yet programmed (R133). -/
def State.stagedBytes (s : State) (t : Nat) : Nat :=
  (s.cat.bufs.filter (fun b => s.entryHome b.leaf b.key == t)).foldl (fun a b => a + 128 * b.lines.length) 0

/-- Free stripe capacity of a tile may not fall below its staged bytes plus 1 GiB (R133). CAT_FREE holds it in MiB. -/
def State.stagingFull (s : State) (t : Nat) : Bool :=
  decide (s.reg .catFree t 0 * 2 ^ 20 < s.stagedBytes t + 128 + 2 ^ 30)

/-- The newest buffer of a line's owner, where it is one of the epoch: a write-back of the line merges into it (R115). -/
def State.joins (s : State) (line epoch : Nat) : Option Buf :=
  let (leaf, key) := s.owner line
  match (s.bufsOf leaf key).head? with
  | some b => if b.epoch == epoch then some b else none
  | none => none

/-- Whether a write-back of a line must wait: it would open a third buffer, break the floor of free capacity, or find no tract
(R116, R133). One that replaces a line its buffer holds adds nothing. -/
def State.stageBlocked (s : State) (line epoch : Nat) : Bool :=
  match s.joins line epoch with
  | some b => (b.line line).isNone && s.stagingFull (s.home line)
  | none => s.stageWaits line epoch || s.stagingFull (s.home line) || s.tractsFull (s.home line) (s.owner line).1

/-- A write waits for the stager to program the oldest buffer of an entry (R116). -/
def State.askStager (leaf : Bool) (key : Nat) (b : Bool) (s : State) : State :=
  if b && !s.cat.want.contains (leaf, key) then { s with cat := { s.cat with want := (leaf, key) :: s.cat.want } } else s

/-- What an operation that had to wait leaves behind: that it waits for the stager (R116). -/
def State.asking (t s : State) : State := { s with cat := { s.cat with want := t.cat.want } }

/-- Where a tile's DDR5 holds a line in a staging buffer (R115). -/
def State.stagedAddr (s : State) (b : Buf) (line : Nat) : Nat :=
  (s.ddrMap (s.entryHome b.leaf b.key)).staging + 4096 * (b.tract + if b.leaf then 0 else leafOf line % 16) + 128 * (line % 32)

/-- The line last put into the newest buffer of its owner is written to DDR5 (R31, R370). -/
def State.storeStaged (line : Nat) (s : State) : State :=
  match (s.bufsOf (s.owner line).1 (s.owner line).2).head? with
  | some b => s.ddrStore (s.home line) (s.stagedAddr b line)
  | none => s

/-- The home puts a written-back line in the newest buffer of its epoch, or opens a new buffer ahead of the older one, with its
undo entry (R115, R125). -/
def State.stage (line : Nat) (v : Stored) (epoch : Nat) (s : State) : State :=
  let (leaf, key) := s.owner line
  let mine (b : Buf) : Bool := b.leaf == leaf && b.key == key
  let s := ((s.askStager leaf key (s.stageWaits line epoch)).wait (s.stageBlocked line epoch)).pmcEdge (s.entryHome leaf key) 0x0C 0
  if (s.joins line epoch).isSome then
    ({ s with cat := { s.cat with
        bufs := updateFirst mine (fun b => { b with
          lines := tset (fun _ => none) b.lines line (some v), capture := s.tract line b.capture }) s.cat.bufs } } :
      State).storeStaged line
  else
    let s1 := (s.undo leaf key epoch).useEntry leaf key true
    ({ s1 with cat := { s1.cat with
        bufs := { leaf := leaf, key := key, epoch := epoch, tract := s1.freeTract (s1.entryHome leaf key) leaf,
                  lines := [(line, some v)], capture := s1.tract line [] } :: s1.cat.bufs } } : State).storeStaged line

/-! ## Content at the home (R113) -/

/-- What a read of a line on media meets: its place, whether the direct codeword failed its first pass, the bits that its codewords
had corrected by channel (R189), the channels whose codewords failed, and the checker that a rebuilt line failed (R381). -/
structure MediaHit where
  spn   : Nat
  pos   : Nat
  again : Bool
  bits  : List (Nat × Nat)
  fails : List Nat
  bent  : Option Nat := none
  deriving DecidableEq, Repr

/-- What the home finds for a line: its content and epoch, whether its first pass failed and the stripe rebuilt it, and its read from
media; unrecoverable, with the members lost where its stripe failed (R164) and its read where there was one; or a line that decodes
and fails its check, by the cause (R381, R396). -/
inductive Fill where
  | ok (v : Stored) (epoch : Nat) (rebuilt : Bool) (read : Option MediaHit)
  | unrec (members : Option Nat) (read : Option MediaHit := none)
  | forged (cause : Nat)
  deriving DecidableEq, Repr

/-- The item of a page that covers a line, at a folio slot or at a data position and quarter (R112). -/
def Page.item (p : Page) (line pos quarter : Nat) : Option PageItem :=
  p.items.find? (fun i =>
    match i.piece with
    | .folio f slot => f == folioOf line && slot == pos / 4
    | .leaf l q r => l == leafOf line && q == pos && r == quarter
    | .note _ => false)

/-- The lost ranges of a tile's stripe sequence table, as stripe page numbers, and of its block tables, as stripe blocks
(R378): pages there are unrecoverable until rebuilt. -/
def State.lostPage (s : State) (t spn block : Nat) : Bool :=
  (tget (fun _ => []) s.cry.lostList (2 * t)).any (fun r => r.1 ≤ spn && spn < r.1 + r.2) ||
    (tget (fun _ => []) s.cry.lostList (2 * t + 1)).any (fun r => r.1 ≤ block && block < r.1 + r.2)

/-- The place of leaf `j` of a folio whose entry names `p` (R112). -/
def leafPlace (p : Place) (j : Nat) : Place :=
  match p with
  | .media spn pos _ => .media spn (pos + j / 4) (j % 4)
  | .unmapped | .split _ | .lost => p

/-- The channels whose codewords fail in a read of a line: the direct one, where its first pass or an injection makes it fail; and,
where others are read, those that an injection makes fail and as many more as the media name, the lowest channels first, which no
operand says (R164 to R168, R411; DESIGN CHOICE, assumption 98). -/
def State.failing (s : State) (t line spn pos : Nat) (env : MediaEnv) : List Nat :=
  let c := dataChan spn pos
  let bent (x : Nat) : Bool := s.injects t (s.targetSrc t x spn) || s.injects t (codewordPass x)
  let avail := s.available t spn
  let first := if avail.contains c && (env.recon.contains line || bent c) then [c] else []
  if first.isEmpty && s.readMode t c spn == .direct then []
  else
    let others := avail.filter (· != c)
    let l := others.filter bent
    first ++ l ++ (others.filter (fun x => !bent x)).take ((env.unrec.lookup line).getD 0 - l.length)

/-- The checker that a line which decodes fails: 1 its tag, 2 its KID, which is compared first (R381, R411). -/
def State.mismatch (s : State) (t line : Nat) (env : MediaEnv) : Option Nat :=
  if s.injects t (srcId 0x14 1) then some 2
  else
    match env.forged.lookup line with
    | some c => some c
    | none => if s.injects t (srcId 0x14 0) then some 1 else none

/-- A line on media: with more than 4 members of its stripe page unavailable, or failing with none that decodes directly, it is
unrecoverable (R164); a line that fails its check after a direct decode stops the part, and a rebuilt one is unrecoverable (R381). -/
def State.fromMedia (s : State) (line spn pos quarter epoch : Nat) (env : MediaEnv) : Fill :=
  let t := s.home line
  let c := dataChan spn pos
  let fails := s.failing t line spn pos env
  let clean := (s.available t spn).contains c && !fails.contains c
  let lostN := s.gone t spn + fails.length
  let hit : MediaHit := { spn := spn, pos := pos, again := fails.contains c, fails := fails,
                          bits := (env.corr.filter (fun e => e.1 == line)).map (fun e => e.2) }
  if s.lostPage t spn (spn / s.ppb t) then .unrec none
  else if 4 < s.gone t spn then .unrec (some lostN)
  else if !clean && decide (4 < lostN) then .unrec (some lostN) (some hit)
  else
    match s.mismatch t line env with
    | some cause => if clean then .forged cause else .unrec (some lostN) (some { hit with bent := some (if cause = 2 then 1 else 0) })
    | none =>
      match (s.page t spn).bind (fun p => p.item line pos quarter) with
      | none => .unrec none
      | some i => .ok (tget (fun _ => {}) i.lines line) epoch (fails.contains c) (some hit)

/-- A line from the place that names its leaf. -/
def State.fromPlace (s : State) (line : Nat) (p : Place) (epoch : Nat) (env : MediaEnv) : Fill :=
  match p with
  | .unmapped => .ok {} epoch false none
  | .split _ => .ok {} epoch false none
  | .lost => .unrec none
  | .media spn pos quarter => s.fromMedia line spn pos quarter epoch env

/-- The place of a line's leaf by the entries: its leaf entry's, or its folio's slot (R112). -/
def State.placeOf (s : State) (line : Nat) : Place :=
  if s.byLeaf line then (s.leaf (leafOf line)).place
  else leafPlace (s.folio (folioOf line)).place (leafOf line % 16)

/-- The newest staged copy of a line, with its epoch. -/
def State.stagedLine (s : State) (line : Nat) : Option (Stored × Nat) :=
  s.cat.bufs.findSome? (fun b =>
    if (b.leaf && b.key == leafOf line) || (!b.leaf && b.key == folioOf line) then
      (b.line line).map (fun v => (v, b.epoch))
    else none)

/-- The entry that says where a line's leaf lies has a kind that only a fault leaves (R113). -/
def State.entryWrong (s : State) (line : Nat) : Bool := (s.entry (s.owner line).1 (s.owner line).2).wrong.isSome

/-- Staged lines first, newest buffer first, then the entry (R113); a line homed on a failed tile is unrecoverable (R410), and so is
one of a spoilt entry. -/
def State.homeFill (s : State) (line : Nat) (env : MediaEnv) : Fill :=
  if s.flt.failed.getLsbD (s.home line) then .unrec none
  else
    match s.stagedLine line with
    | some (v, e) => .ok v e false none
    | none =>
      if s.lostFolio (folioOf line) || s.entryWrong line then .unrec none
      else s.fromPlace line (s.placeOf line)
        (if s.byLeaf line then s.undoEpoch true (leafOf line) else s.undoEpoch false (folioOf line)) env

/-- An entry found with a kind of 0b100 to 0b111 is an uncorrectable error of the block that holds it (R113): its range is lost when
the block next idles (DESIGN CHOICE, assumption 98). -/
def State.spoilt (line : Nat) (s : State) : State :=
  let e := s.owner line
  if s.entryWrong line && !s.cat.broken.contains e then { s with cat := { s.cat with broken := e :: s.cat.broken } } else s

/-- A line's read from media is counted, and its codewords are checked (R164 to R168, R189, R361, R403). -/
def State.readHit (line : Nat) (h : MediaHit) (s : State) : State :=
  let t := s.home line
  let c := dataChan h.spn h.pos
  let asked := if !h.again && s.readMode t c h.spn == .direct then [c] else s.available t h.spn
  let s1 := (s.mediaRead t h.spn h.pos).sumBits t h.spn h.bits
  let s2 := if h.again then s1.firstPassFailed t h.spn h.pos else s1
  asked.foldl (fun s x => s.checkCodeword t h.spn line x (h.fails.contains x)) s2

/-- The home's read of a line uses its entry in the Catalogue cache, and the media where the line lies there (R113, R114,
R164, R189). -/
def State.homeRead (line : Nat) (f : Fill) (s : State) : State :=
  let (leaf, key) := s.owner line
  let s := s.useEntry leaf key false
  match f with
  | .ok _ _ _ (some h) => (s.readHit line h).checkTags (s.home line) line none
  | .unrec _ (some h) => if h.bent.isSome then (s.readHit line h).checkTags (s.home line) line h.bent else s.readHit line h
  | .unrec none none => s.spoilt line
  | .unrec (some _) none | .ok _ _ _ none | .forged _ => s

/-- A line that fails its check stops the part (R396): the operation in hand ends with the security halt. -/
def State.markForged (line cause : Nat) (s : State) : State :=
  { s with cat := { s.cat with forged := s.cat.forged.or (some (line, cause)) } }

/-- A line that its stripe cannot rebuild counts in MED_UNREC and is recorded as 0x2005 on its home (R164, R414). -/
def State.mediaLost (line : Nat) (members : Option Nat) (s : State) : State :=
  match members with
  | none => s
  | some n => (s.bump .medUnrec (s.home line) 0).annal (s.home line) { code := 0x2005, addr := 128 * line, value := n }

/-! ## Near caches -/

/-- The set of a line (R192). -/
def ncSet (line : Nat) : Nat := line % 16384

/-- The lines tile `t` holds in a set, with their ways. -/
def State.setLines (s : State) (t set : Nat) : List (Nat × NcLine) :=
  (s.coh.nc.filter (fun e => e.1 / 2 ^ 42 == t && ncSet (e.1 % 2 ^ 42) == set)).map
    (fun e => (e.1 % 2 ^ 42, e.2))

/-- Locked and disabled ways (R223, R229). -/
def State.locked (s : State) (t w : Nat) : Bool := bits (s.reg .ncLock t 0) w w == 1

def State.disabled (s : State) (t w : Nat) : Bool := bits (s.reg .ncWaydis t 0) w w == 1

/-- The ways ordinary fills may enter. -/
def State.fillWays (s : State) (t : Nat) : List Nat :=
  (List.range 16).filter (fun w => !s.locked t w && !s.disabled t w)

/-- An invalid way of a set that fills may enter (R192). Which of several is left open; the model takes the lowest (DESIGN CHOICE,
assumption 98). -/
def State.freeWay (s : State) (t line : Nat) : Option Nat :=
  let used := (s.setLines t (ncSet line)).map (fun e => e.2.way)
  (s.fillWays t).find? (fun w => !used.contains w)

/-- A vacant locked slot of a line's set (R224). Which of several it takes is left open; the model takes the lowest way (DESIGN
CHOICE, assumption 98). -/
def State.vacantSlot (s : State) (t line : Nat) : Option Nat :=
  let used := (s.setLines t (ncSet line)).map (fun e => e.2.way)
  (List.range 16).find? (fun w => s.locked t w && !used.contains w)

/-- The victim of a full set: the line in the way that pseudo-LRU chooses (assumption 13), leaving out lines with an
UPGRADE or CLAIM outstanding, lines in EV and refills. -/
def State.victim (s : State) (t line : Nat) : Option (Nat × NcLine) :=
  let cand := (s.setLines t (ncSet line)).filter (fun e =>
    !s.locked t e.2.way && !e.2.up && e.2.st != .ev && e.2.st != .refill)
  cand[Config.victim s.freeCtr % cand.length]?

def State.missOf (s : State) (t line : Nat) : Option Miss := tget (fun _ => none) s.coh.miss (ncKey t line)

def State.setMiss (t line : Nat) (v : Option Miss) (s : State) : State :=
  { s with coh := { s.coh with miss := tset (fun _ => none) s.coh.miss (ncKey t line) v } }

/-- The transaction of a line at its home. -/
def State.tx (s : State) (line : Nat) : Option Tx := tget (fun _ => none) s.coh.txs line

def State.setTx (line : Nat) (v : Option Tx) (s : State) : State :=
  { s with coh := { s.coh with txs := tset (fun _ => none) s.coh.txs line v } }

def State.setBusy (line : Nat) (b : Bool) (s : State) : State := s.setDir line { s.dir line with busy := b }

/-- The tile's coherence units run, and so does the line's home: no TILE reset, halt or failure (R410). -/
def State.cohRuns (s : State) (t line : Nat) : Bool := s.coreUp && s.tileRuns t && s.tileRuns (s.home line)

/-! ### Misses, credit and busy lines -/

/-- The miss entries of a tile that `p` names. -/
def State.misses (s : State) (t : Nat) (p : Miss → Bool) : Nat :=
  (s.coh.miss.filter (fun e => e.1 / 2 ^ 42 == t &&
    match e.2 with
    | some m => p m
    | none => false)).length

/-- Agent miss entries of a tile in use, and stream ones (R195). -/
def State.missCount (s : State) (t : Nat) (stream : Bool) : Nat := s.misses t (fun m => m.stream == stream)

/-- No agent miss entry is free: there are 256, and 16 of them are kept for refills of pinned lines (R195). -/
def State.missFull (s : State) (t : Nat) (reserved : Bool) : Bool :=
  decide (256 ≤ s.missCount t false) || (!reserved && decide (240 ≤ s.misses t (fun m => !m.stream && !m.reserved)))

/-- A request leaves for the line's home. -/
def State.sendReq (t line : Nat) (k : ReqKind) (s : State) : State :=
  s.send { kind := .req k, src := t, dst := s.home line, line := line }

/-- A request that waited is sent. -/
def State.releaseMiss (t line : Nat) (s : State) : State :=
  match s.missOf t line with
  | some m =>
    if m.waiting then (s.setMiss t line (some { m with waiting := false })).sendReq t line m.kind else s
  | none => s

/-- Whether a line is busy at its home: a transaction, or a request for it that waits for a place (R206, R218). -/
def State.lineBusy (s : State) (line : Nat) : Bool :=
  (s.dir line).busy || s.coh.txs.any (fun e => match e.2 with
    | some x => (match x.room with
      | some q => q.line == line
      | none => false)
    | none => false)

/-- The key of a tile's WB credit at a home. -/
def wbKey (home t : Nat) : Nat := 8 * home + t

/-- WB credit of a tile at a home: 32 buffers, none while write-backs must wait (R133, R200). -/
def State.wbCredit (s : State) (t line : Nat) : Bool :=
  decide (tget (fun _ => 0) s.coh.wbUsed (wbKey (s.home line) t) < 32) && !s.stagingFull (s.home line)

/-- Eviction buffers of a tile in use (R195). -/
def State.evictBufs (s : State) (t : Nat) : Nat := (s.coh.evbufs.filter (fun b => b.tile == t)).length

/-- The line a holder's answer carries. -/
def NcLine.content (v : NcLine) : Content := { data := v.data, kid := v.kid, epoch := v.epoch, poison := v.poison }

/-- The EVICT that tile `t` has sent for a line, or its acknowledgement. -/
def Msg.ofEvict (t line : Nat) (m : Msg) : Bool :=
  m.line == line && ((m.kind == .evict && m.src == t) || (m.kind == .evictAck && m.dst == t))

/-- A WRITEBACK of tile `t` for a line on its way, or its acknowledgement. -/
def Msg.ofWb (t line : Nat) (m : Msg) : Bool :=
  m.line == line && ((m.kind == .writeback && m.src == t) || (m.kind == .wbAck && m.dst == t))

/-- WB credit of a tile comes back (R200). -/
def State.wbBack (t home n : Nat) (s : State) : State :=
  let k := wbKey home t
  { s with coh := { s.coh with wbUsed := tset (fun _ => 0) s.coh.wbUsed k (tget (fun _ => 0) s.coh.wbUsed k - n) } }

/-- An eviction ends: its buffer, its way and its credit are free, and a request of the tile that waited for it is sent (R212,
R214). -/
def State.clearEv (t line : Nat) (s : State) : State :=
  let sent := s.coh.evbufs.any (fun b => b.tile == t && b.line == line && b.sent)
  let s1 : State := { s with
    coh := { s.coh with evbufs := s.coh.evbufs.filter (fun b => !(b.tile == t && b.line == line)) }
    net := s.net.filter (fun m => !m.ofEvict t line) }
  ((s1.wbBack t (s.home line) (if sent then 1 else 0)).setNc t line {}).releaseMiss t line

/-- A directory entry as its home keeps it: free once it names no tile, unless it is busy or has a ticket (R193, R205). -/
def Dir.settled (d : Dir) : Dir := if d.sharers == 0 && d.pins == 0 && !d.busy && !d.ticketed then {} else d

/-- The home clears a tile's bit in a line's entry (R205, R211). -/
def State.dropSharer (t line : Nat) (s : State) : State :=
  let d := s.dir line
  s.setDir line { d with sharers := d.sharers &&& ~~~tileBit t }.settled

/-- A line in EV as part of a whole operation: its EVICT is accepted, unless the home has taken it already, and its line goes to
staging under its epoch; the sender's bit clears (R212 to R214). A transaction of the line that has had GONE needs that EVICT
itself (R213). -/
def State.takeEvict (t line : Nat) (s : State) : State :=
  let v := s.nc t line
  if v.st != .ev then s
  else if s.net.any (fun m => m.kind == .evictAck && m.ofEvict t line) then s.clearEv t line
  else
    ((((s.wait (s.lineBusy line)).stage line { data := v.data, poison := v.poison } v.epoch).clearEv t line).dropSharer t line)

/-- The content of a WRITEBACK is accepted (R206). -/
def State.stageWb (line : Nat) (m : Msg) (s : State) : State :=
  match m.kind, m.content with
  | .writeback, some c => s.stage line { data := c.data, poison := c.poison } c.epoch
  | _, _ => s

/-- A tile's WRITEBACK of a line as part of a whole operation: its home accepts it where it is still on its way, and it is
acknowledged (R206, R219). -/
def State.takeWb (t line : Nat) (s : State) : State :=
  let mine := s.net.filter (fun m => m.ofWb t line)
  if mine.isEmpty then s
  else
    let s1 := mine.foldl (fun s m => s.stageWb line m) s
    let s2 : State := { s1.wbBack t (s.home line) mine.length with net := s1.net.filter (fun m => !m.ofWb t line) }
    s2.setNc t line { s2.nc t line with wb := false }

/-- Every WB message of a line that is on its way is taken first (R206, R207, R213). -/
def State.takeWbs (line : Nat) (s : State) : State :=
  s.tileList.foldl (fun s t => (s.takeWb t line).takeEvict t line) s

/-- The home of a line is halted or under a TILE reset and will return: what needs it waits (R222, R304, R410). -/
def State.homeAway (s : State) (line : Nat) : Bool :=
  !s.tileRuns (s.home line) && !s.flt.failed.getLsbD (s.home line)

/-- An operation on a line that is busy at its home, or has a ticket there, or whose home is away, waits, and so does one during a
rollback (R206, R209, R221, R222, R233). -/
def State.waitBusy (line : Nat) (s : State) : State :=
  s.wait (s.lineBusy line || (s.dir line).ticketed || s.homeAway line || s.epo.rollback)

/-- A miss joins the entry that its tile already has for the line, and one of an agent waits while no agent entry is free (R195). -/
def State.waitMiss (t line : Nat) (stream : Bool) (s : State) : State :=
  s.wait ((s.missOf t line).isSome || s.coh.waits.any (fun w => w.tile == t && w.line == line) ||
    (!stream && s.missFull t false))

/-- What may have to wait is done, or left for later with none of its effects (R100, R116, R133). -/
def State.attempt (f : State → State) (s : State) : State :=
  let t := f s
  if t.cat.stuck && !s.cat.stuck then t.asking s else t

/-- A tile loses a line: a pinned slot, and one in REFILL, goes to REFILL (R223, R226), any other to I. -/
def State.invalidate (t line : Nat) (s : State) : State :=
  let v := s.nc t line
  s.setNc t line (if v.pin || v.st == .refill then
      { v with st := .refill, up := false, wb := false, poison := false, data := 0, epoch := 0 }
    else {})

/-- A dirty line leaves its tile by EVICT as part of a whole operation: by an eviction buffer and with WB credit, accepted and
acknowledged by its home (R196, R200, R212). -/
def State.evictNow (t line : Nat) (s : State) : State :=
  let s1 := (s.takeWb t line).wait (decide (32 ≤ s.evictBufs t) || !s.wbCredit t line || s.homeAway line)
  let v := s1.nc t line
  ((((s1.stage line { data := v.data, poison := v.poison } v.epoch).setNc t line {}).dropSharer t line).bump .ncEvicts t 0).pmcEdge
    t 0x04 0

/-- Makes room for a line of tile `t` as one whole operation: a free way, or the victim's after it has left (clean
silently, dirty by EVICT; R201, R212); it waits where no line may leave (R196). Answers the way. -/
def State.makeRoom (t line : Nat) (s : State) : Nat × State :=
  match s.freeWay t line with
  | some w => (w, s)
  | none =>
    match s.victim t line with
    | none => (0, s.wait true)
    | some (vl, v) => (v.way, if v.st == .m then (s.drawn 1).evictNow t vl else (s.drawn 1).setNc t vl {})

/-- Whether a near cache holds a readable copy. -/
def NcLine.readable (v : NcLine) : Bool := v.st == .s || v.st == .e || v.st == .m

/-- The epoch a tile's last seal walk covered, and the walk under way. -/
def State.walked (s : State) (t : Nat) : Nat := tget (fun _ => 0) s.epo.walked t

def State.walk (s : State) (t : Nat) : Option Walk := tget (fun _ => none) s.epo.walks t

def State.setWalk (t : Nat) (v : Option Walk) (s : State) : State :=
  { s with epo := { s.epo with walks := tset (fun _ => none) s.epo.walks t v } }

/-- Sets of a near cache (R192). -/
def ncSets : Nat := 16384

/-- Dirty content of an epoch that a tile's walk covers reaches the tile late: the walk visits its set, or a walk under way
every set, once more (R98 step 1, R220). -/
def State.rewalk (t line epoch : Nat) (s : State) : State :=
  match s.walk t with
  | some w => if epoch ≤ w.upto then s.setWalk t (some { w with left := ncSets }) else s
  | none =>
    if 0 < epoch && decide (epoch ≤ s.walked t) then
      s.setWalk t (some { upto := s.walked t, set := ncSet line, left := 1 })
    else s

/-- Installs a line on tile `t` in a state, in its own slot where it has one. Content of a later epoch waits for a write-back
of the line that its home has not acknowledged (R98, R219). -/
def State.install (t line : Nat) (st : LState) (v : Stored) (epoch : Nat) (s : State) : State :=
  let old := s.nc t line
  let kid := s.kidOf (folioOf line)
  let s := if st == .m then (s.rewalk t line epoch).wait (old.wb && decide (old.epoch < epoch)) else s
  if old.st == .i then
    let (w, s1) := s.makeRoom t line
    s1.setNc t line { st, epoch, kid, way := w, poison := v.poison, data := v.data }
  else s.setNc t line { old with st, epoch, kid, up := false, poison := v.poison, data := v.data }

/-! ### Snoops as part of a whole operation (R201, R205, R211) -/

/-- SNP_I to a tile: what it surrenders dirty. Its bit clears, and an answer ACK_NP counts. -/
def State.snoopI (line o : Nat) (s : State) : Option NcLine × State :=
  let v := s.nc o line
  let s1 := s.pmcEdge (s.home line) 0x08 0
  if v.readable then (if v.st == .m then some v else none, (s1.invalidate o line).dropSharer o line)
  else (none, (s1.bump .dirNotpresent (s.home line) 0).dropSharer o line)

/-- SNP_I to several tiles: the dirty line that one of them surrenders. -/
def State.snoopAll (line : Nat) (ts : List Nat) (s : State) : Option NcLine × State :=
  ts.foldl (fun a o =>
    let (x, s1) := a.2.snoopI line o
    (a.1.or x, s1)) (none, s)

/-- A surrendered line goes to staging under its epoch (R213, R218, R235). -/
def State.stageKept (line : Nat) (v : Option NcLine) (s : State) : State :=
  match v with
  | some v => s.stage line { data := v.data, poison := v.poison } v.epoch
  | none => s

/-- Every holder of a line gives it up by SNP_I: dirty content goes to staging, pinned copies are refilled (R218, R226). -/
def State.recall (line : Nat) (ts : List Nat) (s : State) : State :=
  let (v, s1) := (s.takeWbs line).snoopAll line ts
  s1.stageKept line v

/-- A directory entry is freed once its holders have given the line up; pins stay with their tiles. -/
def State.freeEntry (line : Nat) (s : State) : State :=
  let s1 := s.recall line (tilesOf (s.dir line).sharers)
  let d := s1.dir line
  s1.setDir line (Dir.settled { pins := d.pins, way := d.way, used := d.used, ticketed := d.ticketed })

/-- The directory set of a line (R192). -/
def dirSet (line : Nat) : Nat := (line % 65536) ^^^ (line / 65536 % 65536)

/-- An entry that holds a place in its set. -/
def Dir.held (d : Dir) : Bool := d.st != .free || d.busy || d.pins != 0

/-- The code of an entry's state; 0b11 is never written (R204). -/
def DState.code : DState → Nat
  | .free => 0
  | .sh => 1
  | .ex => 2

/-- A directory entry as the 48 bits of R204. -/
def Dir.word (d : Dir) (line : Nat) : BitVec 48 :=
  BitVec.ofNat 48 (bits line 41 16 * 2 ^ 22 + d.st.code * 2 ^ 20 + d.sharers.toNat * 2 ^ 12 + d.pins.toNat * 2 ^ 4 +
    d.busy.toNat * 8 + d.ticketed.toNat * 4)

/-- The entries of a line's directory set at its home. -/
def State.dirEntries (s : State) (line : Nat) : List (Nat × Dir) :=
  s.coh.dir.filter (fun e => e.2.held && dirSet e.1 == dirSet line && s.home e.1 == s.home line)

/-- An enabled way of a line's directory set that holds no entry (R192, R232). Which of several is left open; the model takes the
lowest (DESIGN CHOICE, assumption 98). -/
def State.dirFree (s : State) (line : Nat) : Option Nat :=
  let h := s.home line
  let used := (s.dirEntries line).map (fun e => e.2.way)
  (List.range 16).find? (fun w => bits (s.reg .dirWaydis h 0) w w == 0 && !used.contains w)

/-- The least recently used entry of a full set that is neither busy, pinned nor ticketed (R218). -/
def State.dirOldest (s : State) (line : Nat) : Option (Nat × Dir) :=
  ((s.dirEntries line).filter (fun e => !e.2.busy && e.2.pins == 0 && !e.2.ticketed)).foldl
    (fun a e => match a with
      | none => some e
      | some x => if e.2.used < x.2.used then some e else a) none

/-- Place for a line's entry as one whole operation: its own, a free way of its set, or that of a line that is
back-invalidated; it waits where none qualifies (R218). It is now the most recently used. A request or a grant counts as a use for the LRU of R192, a snoop
answer or a write-back does not (DESIGN CHOICE, assumption 98). -/
def State.dirRoom (line : Nat) (s : State) : State :=
  let s1 : State := { s with coh := { s.coh with useCtr := s.coh.useCtr + 1 } }
  let mark (w : Nat) (s : State) : State := s.setDir line { s.dir line with way := w, used := s.coh.useCtr }
  if (s.dir line).held then mark (s.dir line).way s1
  else
    match s1.dirFree line with
    | some w => mark w s1
    | none =>
      match s1.dirOldest line with
      | none => s1.wait true
      | some (v, d) =>
        mark d.way (((s1.freeEntry v).bump .dirOverflow (s.home line) 0).pmcEdge (s.home line) 9 0)

/-- The directory entry after a grant to `t` alone, and to `t` beside the holders (R205). -/
def State.dirOwn (t line : Nat) (s : State) : State :=
  let s := s.dirRoom line
  s.setDir line { s.dir line with st := .ex, sharers := tileBit t }

def State.dirShare (t line : Nat) (s : State) : State :=
  let s := s.dirRoom line
  s.setDir line { s.dir line with st := .sh, sharers := (s.dir line).sharers ||| tileBit t }

/-- What an agent's read of a line finds. -/
structure LineRes where
  v       : Stored
  rebuilt : Bool
  unrec   : Bool
  epoch   : Nat := 0
  deriving DecidableEq, Repr

/-- An agent's lookup in its near cache is counted, with its hit or miss (R499). -/
def State.lookup (t : Nat) (hit : Bool) (s : State) : State :=
  (s.pmcEdge t 0x01 0).pmcEdge t (if hit then 0x02 else 0x03) 0

/-! ### Misses of agents as whole operations -/

/-- The data of a line that a tile holds. -/
def NcLine.stored (v : NcLine) : Stored := { data := v.data, poison := v.poison }

/-- A dirty line that another tile surrendered is granted with M and its epoch (R205). -/
def State.takeDirty (t line : Nat) (v : NcLine) (s : State) : LineRes × State :=
  ({ v := v.stored, rebuilt := false, unrec := false, epoch := v.epoch }, (s.install t line .m v.stored v.epoch).dirOwn t line)

/-- Home data for a request (R205): E where no other tile keeps the line, S otherwise. -/
def State.missHome (k : ReqKind) (t line : Nat) (env : MediaEnv) (s : State) : LineRes × State :=
  let s0 := s.homeRead line (s.homeFill line env)
  match s.homeFill line env with
  | .unrec n _ => ({ v := {}, rebuilt := false, unrec := true }, s0.mediaLost line n)
  | .forged c => ({ v := {}, rebuilt := false, unrec := true }, s0.markForged line c)
  | .ok c e r _ =>
    ({ v := c, rebuilt := r, unrec := false, epoch := e },
      if k == .readS && (s0.dir line).sharers &&& ~~~tileBit t != 0 then (s0.install t line .s c e).dirShare t line
      else (s0.install t line .e c e).dirOwn t line)

/-- READ_S of an entry EX {o} (R205): ACK_D brings the dirty line, ACK_S the clean one of a holder in E. -/
def State.missHeld (t line o : Nat) (env : MediaEnv) (s : State) : LineRes × State :=
  let v := s.nc o line
  match v.st with
  | .m =>
    let (_, s1) := s.snoopI line o
    s1.takeDirty t line v
  | .e =>
    ({ v := v.stored, rebuilt := false, unrec := false, epoch := v.epoch },
      ((((s.pmcEdge (s.home line) 0x08 0).setNc o line { v with st := .s }).install t line .s v.stored v.epoch).dirShare t line))
  | .s => (s.pmcEdge (s.home line) 0x08 0).missHome .readS t line env
  | .i | .ev | .refill =>
    let (_, s1) := s.snoopI line o
    s1.missHome .readS t line env

/-- The tiles other than `t` that a line's entry names. -/
def State.sharersBut (s : State) (t line : Nat) : List Nat := (tilesOf (s.dir line).sharers).filter (· != t)

/-- A READ_S or READ_X of tile `t` is served as one whole operation (R205). -/
def State.missLine (k : ReqKind) (t line : Nat) (env : MediaEnv) (s : State) : LineRes × State :=
  let s0 := s.pmcEdge (s.home line) 0x07 0
  if k == .readS then
    match (s.dir line).st, (s.sharersBut t line).head? with
    | .ex, some o => s0.missHeld t line o env
    | _, _ => s0.missHome .readS t line env
  else
    match s0.snoopAll line (s.sharersBut t line) with
    | (some v, s1) => s1.takeDirty t line v
    | (none, s1) => s1.missHome k t line env

/-- A request of tile `t` reaches the home of its line once nothing keeps it waiting; WB messages of the line come first (R195,
R206, R207, R214). -/
def State.atHome (t line : Nat) (stream : Bool) (s : State) : State :=
  ((s.waitMiss t line stream).waitBusy line).takeWbs line

/-- A READ_S of tile `t` that must hold the line afterwards. -/
def State.fetchLine (t line : Nat) (env : MediaEnv) (s : State) : LineRes × State := (s.atHome t line true).missLine .readS t line env

/-- An access of an agent to a pinned slot in REFILL waits for the refill (R201, R226). -/
def State.waitRefill (t line : Nat) (s : State) : State := s.wait ((s.nc t line).st == .refill)

/-- An agent of tile `t`, or a port engine, reads a line as one whole operation: a hit, or a miss (R201). A read whose fill finds no
place at once takes its data all the same, and the line is not held: reads do not wait for the undo log (R100; assumption 99). -/
def State.readBy (stream : Bool) (t line : Nat) (env : MediaEnv) (s : State) : LineRes × State :=
  let v := s.nc t line
  let s := (s.waitRefill t line).lookup t v.readable
  if v.readable then ({ v := v.stored, rebuilt := false, unrec := false, epoch := v.epoch }, s)
  else
    let s1 := s.atHome t line stream
    let (r, s2) := s1.missLine .readS t line env
    (r, s1.attempt (fun _ => s2))

def State.readLine (t line : Nat) (env : MediaEnv) (s : State) : LineRes × State := s.readBy false t line env

/-- The open epoch, or the one after it while a seal is in progress, carries a write (R95, R96). -/
def State.carried (e : Nat) (s : State) : State :=
  { s with epo := { s.epo with
      written := s.epo.written || e == s.epo.openE
      writtenNext := s.epo.writtenNext || e != s.epo.openE } }

/-- CLAIM of tile `t` for a write that carries epoch `e` (R205, R235): every other holder gives the line up; dirty content of a lower
epoch goes to staging, the rest is discarded. -/
def State.claimLine (t line e : Nat) (s : State) : State :=
  let s1 := s.atHome t line false
  let (v, s2) := (s1.pmcEdge (s1.home line) 0x07 0).snoopAll line (s1.sharersBut t line)
  (s2.stageKept line (v.filter (fun v => decide (v.epoch < e)))).dirOwn t line

/-- A narrow write takes its line: a hit, ownership by UPGRADE of a line in S, or READ_X (R201, R202, R205). -/
def State.ownLine (t line : Nat) (env : MediaEnv) (s : State) : LineRes × State :=
  let v := s.nc t line
  let hit := v.st == .m || v.st == .e
  let s := (s.waitRefill t line).lookup t hit
  if hit then ({ v := v.stored, rebuilt := false, unrec := false, epoch := v.epoch }, s)
  else
    let s1 := s.atHome t line false
    if v.st == .s && (s1.dir line).st == .sh && (s1.dir line).sharers.getLsbD t then
      let (_, s2) := (s1.pmcEdge (s1.home line) 0x07 0).snoopAll line (s1.sharersBut t line)
      ({ v := v.stored, rebuilt := false, unrec := false, epoch := v.epoch }, (s2.setNc t line { v with st := .e, up := false }).dirOwn t line)
    else s1.missLine .readX t line env

/-- A write into a line that its tile holds alone (R201, R219): the tile's own older dirty content is written back first, with
credit, and acknowledged; the line is then in M with the epoch of the write. -/
def State.writeHeld (t line e : Nat) (data : Line) (s : State) : State :=
  let own := s.nc t line
  let s1 := if own.st == .m && decide (own.epoch < e) then
      ((s.wait (!s.wbCredit t line || s.homeAway line)).stage line own.stored own.epoch)
    else s
  let s2 : State := { s1 with cap := { s1.cap with written := s1.cap.written.filter (· != line) } }
  (s2.install t line .m { data := data, poison := false } e).carried e

/-- An agent of tile `t` writes a whole line, as one whole operation: a hit, or CLAIM; the line is held in M with the epoch the tile
stamps (R89, R202, R235). -/
def State.writeLine (t line : Nat) (data : Line) (s : State) : State :=
  let e := s.stampOf t
  let hit := (s.nc t line).st == .m || (s.nc t line).st == .e
  let s := (s.waitRefill t line).lookup t hit
  (if hit then s else s.claimLine t line e).writeHeld t line e data

/-- Bytes of a line, and a line of bytes. -/
def lineBytes (l : Line) : List Byte := (List.range 128).map (fun i => l.extractLsb' (8 * i) 8)

def lineOfBytes (b : List Byte) : Line :=
  BitVec.ofNat 1024 (b.foldr (fun x a => x.toNat + 256 * a) 0)

/-- A line with some bytes replaced: byte `i` by `f i` where it gives one. -/
def mergeLine (l : Line) (f : Nat → Option Byte) : Line :=
  lineOfBytes ((List.range 128).map (fun i => (f i).getD (l.extractLsb' (8 * i) 8)))

/-- How a narrow merge ended: done, or the line failed to verify or holds poison (R93, R395). -/
inductive Merge where
  | done (rebuilt : Bool)
  | unrec
  | poison
  deriving DecidableEq, Repr

/-- A narrow write: the line is taken, merged where it verifies, and held in M (R89, R93, R202, R395). -/
def State.mergeInto (t line : Nat) (f : Nat → Option Byte) (env : MediaEnv) (s : State) : Merge × State :=
  let e := s.stampOf t
  let (r, s1) := s.ownLine t line env
  if r.unrec then (.unrec, s1)
  else if r.v.poison then (.poison, s1)
  else (.done r.rebuilt, s1.writeHeld t line e (mergeLine r.v.data f))

/-- A write of the bytes `f` gives to a line: whole where every byte is given (R89). -/
def State.writeBytes (t line : Nat) (f : Nat → Option Byte) (env : MediaEnv) (s : State) : Merge × State :=
  if (List.range 128).all (fun i => (f i).isSome) then (.done false, s.writeLine t line (mergeLine 0 f))
  else s.mergeInto t line f env

end Sys2Proof.Machine
end

