-- ==== Sys2Proof/Machine/Epochs.lean ====
section
/-! DEFINITION. Durability epochs: close triggers (R95, R96, R534), seals, D (R98), and the start of an epoch abort
(R63, R102, R103). -/

namespace Sys2Proof.Machine

/-- The tiles that answer a seal: every populated tile that is not failed (R410). -/
def State.sealTiles (s : State) : List Nat := s.tileList.filter (fun t => !s.flt.failed.getLsbD t)

/-- A coordinator runs unless tiles 0 and 1 have both failed (R97). -/
def State.coordinated (s : State) : Bool := !(s.flt.failed.getLsbD 0 && s.flt.failed.getLsbD 1)

/-- A seal of the open epoch starts for some triggers; the auto-close timer starts a new interval, which counts from the start
of the seal (R95, R96; DESIGN CHOICE, assumption 98). -/
def State.startSeal (trs : List Trigger) (s : State) : State :=
  { s with epo := { s.epo with
      sealing := some { n := s.epo.openE, arrived := [], reported := [], triggers := trs }
      later := []
      autoStart := s.now } }

/-- Triggers act together on the open epoch, each under its own rule (R95, R96, R534): an auto-close expiry seals it only
if it carries a write, and starts a new interval whether or not it sealed. -/
def State.actTriggers (trs : List Trigger) (s : State) : State :=
  let acting := trs.filter (fun t => t != .auto || s.epo.written)
  if acting.isEmpty then
    { s with epo := { s.epo with
        later := [], autoStart := if trs.contains .auto then s.now else s.epo.autoStart } }
  else s.startSeal acting

/-- A close trigger reaches the coordinator: held by a rollback, and with those it held until they act (R534), left for the next
epoch by a seal in progress (R96), otherwise it starts the seal of the open epoch. -/
def State.trigger (tr : Trigger) (s : State) : State :=
  if s.epo.rollback || (!s.epo.heldTrig.isEmpty && tr != .auto) then
    { s with epo := { s.epo with heldTrig := s.epo.heldTrig ++ [tr] } }
  else if s.epo.sealing.isSome || !s.coordinated then
    { s with epo := { s.epo with later := s.epo.later ++ [tr] } }
  else s.actTriggers [tr]

/-- The undo log of a home reaches 90 %: a close trigger, once for each time that it does (R95). -/
def State.undoTrigger (t : Nat) (s : State) : State :=
  if s.undoHigh t && !s.epo.undoFull.getLsbD t then
    ({ s with epo := { s.epo with undoFull := s.epo.undoFull ||| tileBit t } } : State).trigger .undoLog
  else s

/-- The homes whose undo logs have fallen below 90 % can reach it again (R95). -/
def State.undoLow (s : State) : State :=
  { s with epo := { s.epo with
      undoFull := s.tileList.foldl (fun m t => if s.undoHigh t then m else m &&& ~~~tileBit t) s.epo.undoFull } }

/-- A reply that names an epoch is due once that epoch is sealed (mode 0) or durable (mode 1). -/
def State.awaitEpoch (c : Ctx) (e mode src : Nat) (s : State) : State :=
  { s with epo := { s.epo with waiters := s.epo.waiters ++ [{ ctx := c, epoch := e, mode := mode, src := src }] } }

/-- Replies now due, each from its own source (R60, R67, R310). -/
def State.answerWaiters (s : State) : State :=
  let due (w : Waiter) : Bool := if w.mode == 0 then w.epoch ≤ s.epo.sealed else w.epoch ≤ s.epo.durable
  let s1 : State := { s with epo := { s.epo with waiters := s.epo.waiters.filter (fun w => !due w) } }
  (s.epo.waiters.filter due).foldl (fun s w => s.reply w.src w.ctx .done w.epoch) s1

/-- What a trigger asks for once its epoch `n` is SEALED (R95). -/
def State.afterSeal (n : Nat) (s : State) : Trigger → State
  | .close (some c) mode => s.awaitEpoch c n mode srcInterp
  | .capture c mode k =>
    let r := tget (fun _ => ({} : Region)) s.cap.regions k
    let s1 : State := { s with cap := { s.cap with
      regions := tset (fun _ => {}) s.cap.regions k { r with closeE := n } } }
    s1.awaitEpoch c n mode (srcStream (k / 512))
  | .power => { s with pwr := { s.pwr with trans := s.pwr.trans.map (fun x => { x with sealAt := n }) } }
  | .powerDown => { s with pwr := { s.pwr with down := s.pwr.down.map (fun x => (n, x.2)) } }
  | .close none _ | .ctrl | .auto | .undoLog => s

/-- Once every tile has reported to a coordinator, epoch n is SEALED and n + 1 opens; triggers left for it start its seal at
once (R96, R97). -/
def State.finishSeal (s : State) : State :=
  match s.epo.sealing with
  | none => s
  | some g =>
    if s.coordinated && s.sealTiles.all (fun t => g.reported.contains t) then
      let s1 : State := { s with epo := { s.epo with
        sealed := g.n, openE := g.n + 1, sealing := none, stamp := [], written := s.epo.writtenNext,
        writtenNext := false } }
      let s2 := (g.triggers.foldl (fun s t => s.afterSeal g.n t) s1).answerWaiters
      if s2.coordinated then s2.actTriggers s2.epo.later else s2
    else s

/-- The highest marker every populated tile holds (R98). -/
def State.lowMarker (s : State) : Nat :=
  ((s.tileList.map (fun t => tget (fun _ => 0) s.epo.marker t)).min?).getD 0

/-- The marks a region keeps at D: the newest at or below it, and every later one (R327). -/
def keepMarks (d : Nat) (m : List Mark) : List Mark :=
  (m.filter (fun x => x.epoch ≤ d)).drop ((m.filter (fun x => x.epoch ≤ d)).length - 1) ++
    m.filter (fun x => d < x.epoch)

/-- A region once D is `d` (R308, R327, R328). -/
def Region.atDurable (d : Nat) (r : Region) : Region :=
  let m := keepMarks d r.marks
  let dur := match m.head? with
    | some x => if x.epoch ≤ d then x.fill else r.dur
    | none => r.dur
  { r with marks := m, dur := dur, st := if r.st == .closing && r.closeE != 0 && decide (r.closeE ≤ d) then .closed else r.st,
           eng := if r.st == .closing && r.closeE != 0 && decide (r.closeE ≤ d) then none else r.eng }

/-- The regions that close once D is `d`. -/
def State.closingRegions (s : State) (d : Nat) : List Nat :=
  (s.cap.regions.filter (fun e => e.2.st == .closing && e.2.closeE != 0 && decide (e.2.closeE ≤ d))).map (fun e => e.1)

/-- D rises: undo entries and older route definitions of durable epochs are freed (R100, R284), as are leaf groups
that nothing names any longer (R124), what capture regions had committed becomes durable and CLOSING regions close (R308, R310, R328),
and replies that waited are due. -/
def State.advanceD (s : State) : State :=
  let d := max s.epo.durable s.lowMarker
  if d = s.epo.durable then s
  else
    let s1 : State := { s with
      epo := { s.epo with durable := d }
      cat := { s.cat with undo := s.cat.undo.filter (fun u => d < u.epoch) }
      rte := { s.rte with
        routes := tmap (fun _ => {}) (fun _ r => { r with older := r.older.filter (fun x => d < x.1) }) s.rte.routes }
      cap := { s.cap with regions := tmap (fun _ => {}) (fun _ r => r.atDurable d) s.cap.regions } }
    let s2 := (s1.tileList.foldl (fun s t => s.sweepGroups t) s1).undoLow
    ((s.closingRegions d).foldl (fun s k => s.regionEvent (k / 512) (k / 64 % 8) (k % 64) 5) s2).answerWaiters

/-- The parameters of a data-path opcode (R60). -/
def dataParams (opc : Nat) : List Param :=
  match opc with
  | 0x01 => identifyParams 0 0 0
  | 0x02 => getFeatureParams 0
  | 0x03 => setFeatureParams 0 0
  | 0x10 | 0x11 => readXParams 0 0 0
  | 0x12 => copyParams 0 0 0
  | 0x13 | 0x14 | 0x15 | 0x16 => rangeParams 0 0
  | 0x18 | 0x19 => epochParams 0
  | 0x20 => routeDefineParams 0 0 0 0 0 0
  | 0x21 => routeArmParams 0 0 0 0
  | 0x22 => routeRetireParams 0 0 0
  | 0x23 | 0x24 => pinParams 0 0 0
  | 0x28 => captureOpenParams 0 0 0 0 0 0 0
  | 0x29 => captureCloseParams 0 0 0 0
  | 0x2A => captureDrainParams 0 0 0
  | _ => []

/-- A data-path packet has a reserved bit that is not 0 (R52, R53). -/
def Cmd.rsvSet (k : Cmd) : Bool :=
  let named := ((dataParams k.opcode).map (fun f => (2 ^ f.n - 1 - f.rsv) * 2 ^ (f.lo - 64))).sum
  k.packet.toNat / 2 ^ 64 ||| named != named

/-- The greatest length of a command on a range (R54, R60). -/
def State.lengthLimit (s : State) (opc : Nat) : Nat :=
  match opc with
  | 0x10 | 0x11 => 2 ^ 20
  | 0x12 => 2 ^ 36
  | _ => s.capacity

/-- Whether the slot that a command names can have passed R80: its window and index, no other command in flight with it, and
its size; the ownership word is the host's. -/
def State.slotCanPass (s : State) (k : Cmd) : Bool :=
  match k.slotWord with
  | none => !(k.opcode == 0x01 || k.opcode == 0x10 || k.opcode == 0x11 || k.opcode == 0x20)
  | some w =>
    let r := slotRef w
    let v := s.win k.port r.window
    k.held && decide (r.index ≤ v.slotsM1.toNat) && !s.slotBusy k.port k.sq k.idx r &&
      (if k.opcode == 0x10 then decide (pkt k.packet 16 4 ≤ v.slotSize)
       else k.opcode != 0x01 || decide (4096 ≤ v.slotSize))

/-- Whether a command that has started can have passed the checks before its effects (R53, R54, R63, R80). -/
def State.mayHavePassed (s : State) (k : Cmd) : Bool :=
  !k.rsvSet && k.ranges.all (fun r => (s.rangeCheck r.1 r.2.1 (s.lengthLimit k.opcode)).isNone) && s.slotCanPass k

/-- The commands whose effects have come and whose replies wait for an epoch: those of waiting replies and of close triggers
that have not reported (R60, R95). -/
def State.closers (s : State) : List Ctx :=
  let of (t : Trigger) : Option Ctx := match t with
    | .close c _ => c
    | .capture c _ _ => some c
    | _ => none
  s.epo.waiters.map (fun w => w.ctx) ++ s.epo.later.filterMap of ++
    (match s.epo.sealing with
     | some g => g.triggers.filterMap of
     | none => [])

/-- The length that an abort returns in a command's slot (R79, R84): that of the ownership word, which the slot's length check
found equal to what the packet says, for a source, and for a destination a free value up to the bytes the command writes. -/
def Cmd.returned (k : Cmd) (v : Nat) : Nat :=
  match k.opcode with
  | 0x11 => pkt k.packet 16 4
  | 0x20 => 16 * pkt k.packet 16 4
  | 0x10 => v % (pkt k.packet 16 4 + 1)
  | 0x01 => v % 4097
  | _ => 0

/-- How an abort answers one command (R63, R84): code 01h, with its slot returned, where it had started, as those that wait for
an epoch have. Whether another command, which can pass its checks, had passed them by then is a free value (assumption 22). -/
def State.abortCommand (ws : List Ctx) (k : Cmd) (s : State) : State :=
  let v := (Config.free s.freeCtr).toNat
  let s1 := s.drawn 1
  if k.passed || ws.any (fun c => c.path == k.ctx.path) || (k.started && s.mayHavePassed k && v % 2 == 1) then
    match k.slotWord with
    | none => s1.reply srcInterp k.ctx .aborted 0
    | some w => (s1.returnSlot k.port k.sq k.idx (slotRef w) .aborted (k.returned (v / 2))).reply srcInterp k.ctx .aborted 0
  else s1.reply srcInterp k.ctx .abortedBefore 0

/-- Whether a later fetch of the same SQ has returned. -/
def Fetch.passed (f : Fetch) (l : List Fetch) : Bool :=
  l.any (fun g => g.sq == f.sq && decide (f.first < g.first) && g.got.isSome)

/-- A fetch whose data has not returned is given up: its entries stay in their ring and its reservations are released. One
that a later fetch of its SQ has passed stays outstanding, and its entries enter after fetch resumes (assumption 93). -/
def State.giveUp (p : Nat) (l : List Fetch) (f : Fetch) (s : State) : State :=
  if f.got.isSome || f.dead || f.passed l then s
  else
    let s1 := (s.release p f.cq f.count).setSq p f.sq { s.sq p f.sq with head := f.entry }
    s1.setPort p { s1.port p with fetches := (s1.port p).fetches.erase f }

/-- The entries of fetches whose data has returned are commands that had not started (R63). -/
def State.placeReturned (p : Nat) (f : Fetch) (s : State) : State :=
  match f.got with
  | none => s
  | some es => (s.setPort p { s.port p with fetches := (s.port p).fetches.erase f }).placeFetch p f es

/-- What an abort makes of the fetches of a port (R63). -/
def State.dropFetches (p : Nat) (s : State) : State :=
  let l := (s.port p).fetches
  l.foldl (fun s f => s.placeReturned p f) (l.reverse.foldl (fun s f => s.giveUp p l f) s)

/-- The triggers an abort overtakes and holds (R534); EPOCH_CLOSE and CAPTURE_CLOSE are answered with class 06h. -/
def Trigger.survives : Trigger → Bool
  | .close (some _) _ | .capture _ _ _ => false
  | .close none _ | .ctrl | .auto | .undoLog | .power | .powerDown => true

/-- An epoch abort starts; one that meets a rollback merges into it (R102). The highest epoch opened is that of the tiles
which a seal in progress has reached (assumption 41). A marker of a discarded epoch, which some tiles hold, counts for none:
a DISCARDED epoch stays so (R94). -/
def State.startAbort (s : State) : State :=
  if s.epo.rollback then s
  else
    let overtaken := (match s.epo.sealing with
      | some g => g.triggers
      | none => []) ++ s.epo.later
    let s0 := s
    let s1 : State := { s with epo := { s.epo with
      rollback := true
      abortFirst := s.epo.durable + 1
      abortLast := if s.epo.stamp.isEmpty then s.epo.openE else s.epo.openE + 1
      sealed := s.epo.durable
      aborts := min (s.epo.aborts + 1) 65535
      sealing := none
      later := []
      heldTrig := s.epo.heldTrig ++ overtaken.filter Trigger.survives
      waiters := s.epo.waiters.filter (fun w => w.ctx.path == .sideband)
      stamp := []
      walks := []
      walked := tmap (fun _ => 0) (fun _ n => min n s.epo.durable) s.epo.walked
      marker := tmap (fun _ => 0) (fun _ n => min n s.epo.durable) s.epo.marker
      written := false
      writtenNext := false } }
    let s2 := s.ports.foldl (fun (s : State) p =>
      ((s.dropFetches p).putField .ringGctrl p 0 31 31 1).putField .ringGctrl p 0 1 1 1) s1
    let s3 := (s2.host.cmds.filter (fun k => k.opcode < 0x40)).foldl (fun s k => s.abortCommand s0.closers k) s2
    s.tileList.foldl (fun s t => s.pmcEdge t 0x10 0) (s3.raiseEvent 1)

end Sys2Proof.Machine
end

