-- ==== Sys2Proof/Machine/Faults.lean ====
section
/-! DEFINITION. Fault sources, counting and severity (R401 to R406), escalation and tile halts (R407 to R410), armed
injections (R411), mirroring (R418), and the start of the security halt (R396). -/

namespace Sys2Proof.Machine

/-- Floor and default base severity of a unit code, and whether its sources have checkers (R403). -/
structure UnitInfo where
  floor   : Nat
  base    : Nat
  checked : Bool
  deriving DecidableEq, Repr

def unitInfo (u : Nat) : Option UnitInfo :=
  match u with
  | 0x00 => some ⟨3, 4, true⟩
  | 0x01 => some ⟨0, 1, true⟩
  | 0x02 => some ⟨0, 1, true⟩
  | 0x03 => some ⟨3, 3, true⟩
  | 0x04 => some ⟨0, 1, true⟩
  | 0x05 => some ⟨0, 1, true⟩
  | 0x06 => some ⟨3, 3, true⟩
  | 0x07 => some ⟨0, 2, false⟩
  | 0x08 => some ⟨0, 1, true⟩
  | 0x09 => some ⟨0, 1, true⟩
  | 0x0A => some ⟨0, 1, true⟩
  | 0x0B => some ⟨0, 0, false⟩
  | 0x0C => some ⟨0, 2, true⟩
  | 0x0D => some ⟨2, 2, false⟩
  | 0x0E => some ⟨3, 3, true⟩
  | 0x0F => some ⟨0, 2, false⟩
  | 0x10 => some ⟨2, 2, false⟩
  | 0x11 => some ⟨2, 2, false⟩
  | 0x12 => some ⟨3, 4, true⟩
  | 0x13 => some ⟨3, 3, true⟩
  | 0x14 => some ⟨0, 2, true⟩
  | _ => none

/-- Whether pass `n` exists on tile `t` (R336). -/
def State.hasPass (s : State) (t n : Nat) : Bool :=
  let hostOnly := n == 0 || n == 1 || (84 ≤ n && n ≤ 87) || n == 90 || n == 113
  s.hasTile t && decide (n ≤ 114) && !(hostOnly && decide (2 ≤ t)) &&
    !(78 ≤ n && n ≤ 80 && !s.hasSaddle (n - 78)) && !(81 ≤ n && n ≤ 83 && !s.hasSaddle (n - 81)) &&
    !(110 ≤ n && n ≤ 112 && !s.hasSaddle (n - 110))

/-- Whether a source exists on a tile (R403). -/
def State.hasSource (s : State) (t id : Nat) : Bool :=
  let i := id % 128
  s.hasTile t &&
    match id / 128 with
    | 0x00 | 0x07 | 0x0E | 0x12 | 0x13 => i == 0
    | 0x01 => decide (i < 16)
    | 0x02 => decide (i < 64)
    | 0x03 => decide (i < 2)
    | 0x04 => decide (i < 4)
    | 0x05 => decide (i < 13)
    | 0x06 => s.hasPass t i
    | 0x08 => s.hasSaddle i
    | 0x09 | 0x0A | 0x0B => decide (i < 8)
    | 0x0C | 0x0D | 0x0F => i == 0 && decide (t < 2)
    | 0x10 => decide (i < 8 ∨ (16 ≤ i ∧ i < 32))
    | 0x11 => i == 0 && t == 0
    | 0x14 => decide (i < 3)
    | _ => false

/-- A source before any event: base of R403, threshold and window of R405. -/
def srcDefault (k : Nat) : Src :=
  let b := match unitInfo (k % 4096 / 128) with
    | some u => u.base
    | none => 0
  { base := b, nThr := if b ≤ 1 then 16 else 0, winLog := 20, raised := false, winAt := none, window := 0,
    total := 0, tLast := 0 }

def State.src (s : State) (t id : Nat) : Src := tget srcDefault s.flt.srcs (srcKey t id)

def State.setSrc (t id : Nat) (v : Src) (s : State) : State :=
  { s with flt := { s.flt with srcs := tset srcDefault s.flt.srcs (srcKey t id) v } }

/-- The severity the next event takes (R405). -/
def Src.current (v : Src) : Nat := if v.raised then min 4 (v.base + 1) else v.base

/-- The window's length in ns (R405). -/
def Src.winLen (v : Src) : Nat := 2 ^ v.winLog * 1000000

/-- Windows that have ended by `now`: raised clears after one that counted fewer than n_thr events, or after a whole
window length with no event (R405). -/
def Src.settle (v : Src) (now : Nat) : Src :=
  let heard := decide (now < v.tLast + v.winLen)
  match v.winAt with
  | none => { v with raised := v.raised && heard }
  | some w =>
    if now < w + v.winLen then v
    else { v with winAt := none, window := 0, raised := v.raised && decide (v.nThr ≤ v.window) && heard }

/-- One event counted (R405). -/
def Src.counted (v : Src) (now : Nat) : Src :=
  let v := v.settle now
  let n := if v.winAt.isSome then v.window + 1 else 1
  { v with winAt := some (v.winAt.getD now), window := n, total := v.total + 1, tLast := now,
           raised := v.raised || (v.nThr != 0 && decide (v.nThr ≤ n)) }

def State.slot (s : State) (t n : Nat) : Slot := tget (fun _ => {}) s.flt.slots (slotKey t n)

def State.setSlot (t n : Nat) (v : Slot) (s : State) : State :=
  { s with flt := { s.flt with slots := tset (fun _ => {}) s.flt.slots (slotKey t n) v } }

/-- A tile becomes failed (R410): its bit sets, vector 66 is raised, and seals no longer wait for it. -/
def State.failTile (t : Nat) (s : State) : State :=
  let s1 : State := { s with flt := { s.flt with
    failed := s.flt.failed ||| tileBit t, resetting := s.flt.resetting.filter (fun e => e.1 != t) } }
  (s1.raiseEvent 2).finishSeal

/-- TILE resets of a tile within the last 24 h (R410). -/
def State.recentResets (s : State) (t : Nat) : Nat :=
  (s.flt.resets.filter (fun e => e.1 == t && decide (s.now < e.2 + 86400000000000))).length

/-- Whether no Curator runs that could reset a tile: none is primary, or the one on that tile has no standby (R410). -/
def State.noReset (s : State) (t : Nat) : Bool :=
  match s.cur.primary with
  | none => true
  | some p => p == t && s.cur.standby != .synced && s.cur.standby != .syncing

/-- A tile halt (R410): its agents and engines stop; it is failed at once where its retries are spent or no Curator
runs to reset it. -/
def State.tileHalt (t : Nat) (s : State) : State :=
  let s1 : State := { s with flt := { s.flt with halted := s.flt.halted ||| tileBit t } }
  if s.field .fltEsc 0 0 19 16 ≤ s.recentResets t || s.noReset t then s1.failTile t else s1

/-- An escalation proceeds by its severity (R409). -/
def State.proceed (t sev : Nat) (s : State) : State := if sev = 4 then s.tileHalt t else s.startAbort

/-- An escalation whose deadline has passed, or that has no slot: record 0xF002 (R409). -/
def State.escalate (t id sev slot : Nat) (s : State) : State :=
  (s.annal t { code := 0xF002, addr := id, value := sev, aux := slot }).proceed t sev

/-- The escalation side of an event at severity abort or fatal (R407). -/
def State.openSlot (t id sev : Nat) (s : State) : State :=
  if s.cry.haltCause != 0 then s
  else
    let timer := s.field .fltEsc 0 0 15 0
    match (List.range 32).find? (fun n => (s.slot t n).opened && (s.slot t n).source == id) with
    | some n => if sev = 4 then s.setSlot t n { s.slot t n with fatal := true } else s
    | none =>
      match (List.range 32).find? (fun n => !(s.slot t n).opened) with
      | some n =>
        if timer = 0 then s.escalate t id sev 0xFF
        else s.setSlot t n { opened := true, fatal := sev == 4, source := id, deadline := s.now + timer * 1000 }
      | none => s.escalate t id sev 0xFF

/-- What else an event is recorded with (R414). -/
structure FaultInfo where
  minSev : Nat := 0
  inject : Bool := false
  addr   : Nat := 0
  aux    : Nat := 0
  deriving DecidableEq, Repr

/-- A fault event of a source (R401, R405, R407): counted, recorded, signalled, and escalated by its severity, which is
the higher of the source's and the one another rule names. The syndrome or check result that the record shows is a free
value (R414, assumption 95). -/
def State.event (t id : Nat) (i : FaultInfo) (s : State) : State :=
  let v := (s.src t id).counted s.now
  let sev := max v.current i.minSev
  let s1 := s.setSrc t id v
  let fresh := decide (3 ≤ sev) && s.cry.haltCause == 0 && s.field .fltEsc 0 0 15 0 != 0 &&
    !(List.range 32).any (fun n => (s.slot t n).opened && (s.slot t n).source == id) &&
    (List.range 32).any (fun n => !(s.slot t n).opened)
  let s2 := s1.annal t { code := id / 128, sev := sev, raised := v.raised, inject := i.inject, opened := fresh,
                         source := id, addr := i.addr, value := (Config.syndrome s.freeCtr).toNat, aux := i.aux }
  let s3 := (s2.drawn 1).putReg .fltLast t 0
    (sev * 2 ^ 29 + (if v.raised then 2 ^ 28 else 0) + (if i.inject then 2 ^ 27 else 0) + id)
  let s4 : State := if sev = 2 then s3.putField .fltSumD 0 0 t t 1 else s3
  let s5 : State := if 2 ≤ sev then s4.raiseEvent 2 else s4
  if 3 ≤ sev then s5.openSlot t id sev else s5

/-- A fault event of a source: one of an island other than core reaches it by its event pass, which on the VZM-2020 and VZM-2040 may
lose it (R354, R406). -/
def State.fault (t id : Nat) (i : FaultInfo) (s : State) : State :=
  let (counts, l) := pulse s.member (unitIsland (id / 128)) (srcKey t id) s.now s.flt.shakes
  let s1 : State := { s with flt := { s.flt with shakes := l } }
  if counts then s1.event t id i else s1

/-- An item crosses pass `n` of a tile: whether an armed injection makes it fail parity there, which is an event of the pass's
source (R361, R403, R411). -/
def State.passItem (t n : Nat) (s : State) : Bool × State :=
  let (p, s1) := s.check t (srcId 0x06 n)
  if p then (true, s1.fault t (srcId 0x06 n) { inject := true, aux := n }) else (false, s1)

/-! ## The parameter store's fault sources (R16, R425) -/

/-- What the store holds of a source stays until a write of its N fields is committed (R16). -/
def State.storeSrc (t id : Nat) (old : Src) (s : State) : State :=
  let k := srcStore + srcKey t id
  if old.stored == (s.src t id).stored || (tget (fun _ => none) s.unstored k).isSome then s
  else { s with unstored := tset (fun _ => none) s.unstored k (some (BitVec.ofNat 32 old.stored)) }

/-- Power is lost: sources whose last write was not committed have their stored fields again (R16). -/
def State.loseSources (s : State) : State :=
  { s with flt := { s.flt with
      srcs := s.unstored.foldl (fun m e =>
        match e.2 with
        | some w =>
          if srcStore ≤ e.1 then
            tset srcDefault m (e.1 - srcStore) ((tget srcDefault m (e.1 - srcStore)).restored w.toNat)
          else m
        | none => m) s.flt.srcs } }

/-! ## Mirroring (R418) -/

/-- Records mirrored ahead of the others. -/
def ARec.urgent (r : ARec) : Bool := privileged r.code.toNat || r.sev == 3 || r.sev == 4

/-- The ring's record of the same event, where repeats have updated it since (R416). -/
def ARec.updated (ring : List ARec) (r : ARec) : ARec :=
  (ring.find? (fun x => x.tile == r.tile && x.seq == r.seq && x.boot == r.boot)).getD r

/-- Curator `c` copies tile `t`'s new ring records into its mirror, the urgent ones first, and rewrites its copies that a
repeat updated; the oldest leave a full mirror. -/
def State.mirrorTile (c t : Nat) (s : State) : State :=
  let k := 8 * c + t
  let ring := tget (fun _ => []) s.anl.rings t
  let fresh := ring.filter (fun r => tget (fun _ => 0) s.anl.mirrored k ≤ r.seq)
  let l := (tget (fun _ => []) s.anl.mirrors c).map (ARec.updated ring) ++ fresh.filter ARec.urgent ++
    fresh.filter (fun r => !r.urgent)
  { s with anl := { s.anl with
      mirrors := tset (fun _ => []) s.anl.mirrors c (l.drop (l.length - mirrorLimit))
      mirrored := tset (fun _ => 0) s.anl.mirrored k (tget (fun _ => 0) s.anl.nextSeq t) } }

/-! ## The security halt (R396) -/

/-- Lanes of a tile show nothing: they are idle, powered down, or train afresh (R238, R252, R279). -/
def State.idleLanes (t : Nat) (lanes : List Nat) (s : State) : State := lanes.foldl (fun s l => s.putReg .slkLane t l 0) s

/-- The stream ports of a tile are DISABLED (R277, R397). -/
def State.disablePorts (t : Nat) (s : State) : State :=
  let s1 := s.idleLanes t (List.range 8)
  { s1 with lnk := { s1.lnk with ports := tdrop (fun k => k / 8 == t) s1.lnk.ports } }

/-- The part enters the security halt: cause, tile and address are kept and recorded, the record is mirrored, the
detecting tile stops and vector 66 is raised once on each port (R396, R397). A later cause changes nothing. -/
def State.securityHalt (cause t addr : Nat) (s : State) : State :=
  if s.cry.haltCause != 0 then s
  else
    let s1 := s.annal t { code := 0x8001, addr := addr, value := cause, aux := t }
    let s2 := s1.curators.foldl (fun s c => s.mirrorTile c t) s1
    let s3 : State := { s2 with cry := { s2.cry with
      haltCause := cause, haltTile := t, haltAddr := BitVec.ofNat 64 addr, halted := s2.cry.halted ||| tileBit t } }
    (s3.raiseEvent 2).disablePorts t

/-! ## Operations that may have to wait (R93, R95, R98, R100, R116, R133, R396) -/

/-- The undo-log triggers of the tiles, after an operation that wrote undo entries (R95). -/
def State.undoTriggers (s : State) : State := s.tileList.foldl (fun s t => s.undoTrigger t) s

/-- The fault events that an operation on lines has met are raised (R401, R403). -/
def State.tellFaults (s : State) : State :=
  if s.cat.faults.isEmpty then s
  else
    s.cat.faults.foldl (fun (s : State) e => s.fault e.tile e.id { inject := e.inject, addr := e.addr, aux := if e.id / 128 = 6 then e.id % 128 else 0 })
      { s with cat := { s.cat with faults := [] } }

/-- A whole operation on lines: it waits, with no effect but that it asks the stager for room, where one of its writes must wait
(R98, R100, R116, R133); a
line that fails its check on the way stops the part (R396); otherwise it is done, and an undo log that has reached 90 % asks for
a seal (R95). That an operation waits as a whole is the model's choice (DESIGN CHOICE, assumption 99). -/
def State.whole (f : State → State) (s : State) : State :=
  let t := f s
  match t.cat.forged with
  | some (line, cause) => s.securityHalt cause (s.home line) (128 * line)
  | none => if t.cat.stuck then t.asking s else t.tellFaults.undoTriggers

/-- An operation that waits for nothing (R222): what would have made it wait is forgotten. -/
def State.pressed (f : State → State) (s : State) : State :=
  let t := f s
  { t with cat := { t.cat with stuck := s.cat.stuck, forged := s.cat.forged } }

/-- A Curator role changes: recorded as 0xB002, vector 68 on both ports (R428). -/
def State.roleChanged (t version : Nat) (s : State) : State :=
  (s.raiseEvent 4).annal t { code := 0xB002, addr := version, value := t }

end Sys2Proof.Machine
end

