-- ==== Sys2Proof/Machine/Views.lean ====
section
/-! DEFINITION. Registers that show the state of objects, as IDENTIFY and the logs report them (R38, R39, R140, R190,
R279, R424, R425, R463), and the structures of IDENTIFY (R60). -/

namespace Sys2Proof.Machine

/-- A flag as a bit. -/
def bit (b : Bool) (n : Nat) : Nat := if b then 2 ^ n else 0

/-- PART_INFO.member (R38). -/
def Member.code : Member → Nat
  | .vzm2020 => 0x20
  | .vzm2040 => 0x40
  | .vzm2080 => 0x80

/-- PART_INFO (R38). -/
def State.partInfo (s : State) : Nat :=
  let p := s.pwr.straps
  2 ^ 28 + s.member.code * 2 ^ 16 + p.tiles.toNat * 2 ^ 12 + s.tiles * 2 ^ 8 + bit p.profile 7 + bit p.hostmode 6
    + bit p.barmode 5 + bit p.curator 4 + bit p.seqprog 3 + bit p.boot 2 + p.spare.toNat

/-- The unit shown as primary: the one that is, the only running one while it restarts, or the one the strap names. -/
def State.shownPrimary (s : State) : Nat :=
  s.cur.primary.getD (s.cur.restart.getD (if s.pwr.straps.curator then 1 else 0))

/-- The role of the Curator unit of a tile (R39, R426); the strap's roles show until the part is ready. -/
def State.curRole (s : State) (t : Nat) : Nat :=
  if 2 ≤ t then 0
  else if s.shownPrimary == t then 1
  else if s.cur.dead.contains t then 3
  else
    match s.cur.standby with
    | .synced | .syncing => 2
    | .failed => 3
    | .none => if s.pwr.ready then 0 else 2

/-- Whether a tile's core is stopped: the part is off, or in P2 or P3 (R73, R419, R478). -/
def State.coreStopped (s : State) : Bool := s.pwr.st != .up || s.pwr.pwr == .p2 || s.pwr.pwr == .p3

/-- TILE_INFO (R39). Its measured fields read 0 while the core is stopped (R73), and from a reset of the tile until it is
ready again. -/
def State.tileInfo (s : State) (t : Nat) : Nat :=
  let measured := if s.coreStopped || s.flt.resetting.any (fun e => e.1 == t) then 0
    else tget (fun _ => 0) s.pwr.mediaPages t / 2 ^ 26 % 256 * 2 ^ 24 + tget (fun _ => 0) s.pwr.ddrGib t % 256 * 2 ^ 16
  measured + (tget (fun _ => (0 : BitVec 3)) s.coh.saddleUp t).toNat * 2 ^ 10 + s.curRole t * 2 ^ 8 + t

/-- The saddle links of a tile train with the neighbours that run, on both sides. -/
def State.saddlesUp (t : Nat) (s : State) : State :=
  let ks := (List.range 3).filter (fun k => s.hasSaddle k && s.tileRuns (t ^^^ 2 ^ k))
  { s with coh := { s.coh with
      saddleUp := ks.foldl (fun m k =>
        let n := t ^^^ 2 ^ k
        tset (fun _ => 0) (tset (fun _ => 0) m n (tget (fun _ => 0) m n ||| BitVec.ofNat 3 (2 ^ k))) t
          (tget (fun _ => 0) m t ||| BitVec.ofNat 3 (2 ^ k))) s.coh.saddleUp } }

/-- MED_CH_STAT (R190). -/
def State.chStat (s : State) (t c : Nat) : Nat :=
  let h := s.chan t c
  bit h.trained 31 + bit h.degraded 30 + h.rate.toNat * 2 ^ 28
    + (List.range 4).foldl (fun a k => a + bit (s.target t c k).present (24 + k) + bit (s.target t c k).used (20 + k)) 0
    + min h.caCrc 65535

/-- MED_SPARE (R190): read_only shows on every tile (R187). -/
def State.medSpare (s : State) (t : Nat) : Nat :=
  setBits (s.reg .medSpare t 0) 31 31 (bit s.med.readOnly 0)

/-- The code of a port's training state (R252). -/
def PState.code : PState → Nat
  | .disabled => 0
  | .reset => 1
  | .detect => 2
  | .eq => 3
  | .lock => 4
  | .config => 5
  | .active => 6
  | .retrain => 7
  | .failed => 8

def State.sport (s : State) (t p : Nat) : SPort := tget (fun _ => {}) s.lnk.ports (portKey t p)

def State.setSport (t p : Nat) (v : SPort) (s : State) : State :=
  { s with lnk := { s.lnk with ports := tset (fun _ => {}) s.lnk.ports (portKey t p) v } }

/-- The width of a stream port, 0 where SLK_BOND defines none (R238). -/
def widthOf (code : Nat) : Nat :=
  match code with
  | 1 => 1
  | 2 => 2
  | 3 => 4
  | 4 => 8
  | _ => 0

def State.width (s : State) (t p : Nat) : Nat := widthOf (s.field .slkBond t 0 (3 * p + 2) (3 * p))

/-- A port that a command may name (R240). -/
def State.hasSport (s : State) (t p : Nat) : Bool := s.hasTile t && decide (p < 8) && s.width t p != 0

/-- SLK_PORT_STAT (R279). -/
def State.portStat (s : State) (t p : Nat) : Nat :=
  let v := s.sport t p
  v.st.code * 2 ^ 28 + bit v.gcm 27 + bit v.precode 26 + min v.dataCr 255 * 2 ^ 16 + v.rxPhase.toNat

/-- A junction sensor of a tile. -/
def State.sensor (s : State) (t k : Nat) : Sensor := tget (fun _ => {}) s.thm.sensors (8 * t + k)

/-- 106 °C in 0.125 °C, as a broken sensor counts (R435). -/
def brokenReading : Int := 848

/-- The counted readings of a tile (R435). -/
def State.counted (s : State) (t : Nat) : List Int :=
  ((List.range 8).map (fun k => s.sensor t k)).filterMap (fun v =>
    if !v.enabled then none else if v.broken then some brokenReading else some v.reading)

/-- A signed number in 16 bits. -/
def signed16 (i : Int) : Nat := (BitVec.ofInt 16 i).toNat

/-- TMP_TILE (R463). -/
def State.tmpTile (s : State) (t : Nat) : Nat :=
  tget (fun _ => 0) s.thm.level t * 2 ^ 30 + signed16 ((s.counted t).max?.getD 0)

/-- FLT_STAT (R425). -/
def State.fltStat (s : State) (t : Nat) : Nat :=
  bit (s.flt.halted.getLsbD t) 31 + bit (s.flt.failed.getLsbD t) 30
    + ((List.range 32).filter (fun n => (s.slot t n).opened)).length * 2 ^ 16 + min (s.recentResets t) 15

/-- DW_APT reads 0 in full mode (R85). -/
def State.dwBase (s : State) (p : Nat) : Nat :=
  if s.pwr.straps.barmode then s.field .dwApt p 0 18 0 else 0

/-- The part structure (R60). -/
def State.identifyPart (s : State) : List Byte :=
  layout 4096
    [(0, leBytes 4 s.partInfo), (4, leBytes 2 0x0100), (8, leBytes 8 s.capacity), (16, leBytes 8 s.cur.serial.toNat),
     (24, leBytes 8 s.epo.openE), (32, leBytes 8 s.epo.durable), (40, leBytes 4 (s.reg .curFwRun 0 0)),
     (44, leBytes 2 64), (46, leBytes 2 4096)]

/-- The tile structure (R60, R73). -/
def State.identifyTile (s : State) (t : Nat) : List Byte :=
  let run (v : Nat) : Nat := if s.coreStopped then 0 else v
  layout 4096
    [(0, leBytes 4 (s.tileInfo t)), (4, leBytes 4 (run (s.medSpare t))), (8, leBytes 8 (s.capacity / s.tiles)),
     (16, (List.range 16).flatMap (fun c => leBytes 4 (run (s.chStat t c)))),
     (80, leBytes 4 (if s.coreStopped then setBits (s.reg .catPace t 0) 15 0 0 else s.reg .catPace t 0)),
     (84, leBytes 4 (s.reg .slkBond t 0)),
     (88, (List.range 8).flatMap (fun p => leBytes 4 (s.portStat t p))),
     (120, leBytes 4 (s.tmpTile t)), (124, leBytes 4 (s.fltStat t))]

/-- The host-port structure (R60). -/
def State.identifyPort (s : State) (p : Nat) : List Byte :=
  let h := s.port p
  layout 4096
    [(0, [BitVec.ofNat 8 p, h.speed, h.width, BitVec.ofNat 8 (bit s.dual 0 + bit (s.port (1 - p)).linkUp 1)]),
     (4, leBytes 2 64), (6, leBytes 2 4096), (8, [4, 12, 20, if s.pwr.straps.barmode then 1 else 0]),
     (12, leBytes 4 (s.dwBase p)),
     (16, leBytes 8 (if s.pwr.straps.barmode then 2 ^ 36 else 2 ^ 49)), (24, leBytes 2 2048)]

/-- The value of a feature (R60), if there is one of that number. -/
def State.feature (s : State) (fid : Nat) : Option Nat :=
  match fid with
  | 1 => some s.wallNow
  | 2 => some s.host.features.auto
  | 3 => some s.host.features.policy
  | _ => none

/-- The feature list (R60): wall-clock time is of class C, the others of class N. -/
def State.identifyFeatures (s : State) : List Byte :=
  layout 4096 ([1, 2, 3].flatMap (fun f =>
    [(16 * (f - 1), [BitVec.ofNat 8 f, if f = 1 then 1 else 0]),
     (16 * (f - 1) + 8, leBytes 8 ((s.feature f).getD 0))]))

end Sys2Proof.Machine
end

