-- ==== Sys2Proof/Machine/Ways.lean ====
section
/-! DEFINITION. Locked and disabled ways, pinned lines and vacated locks (R223 to R232). -/

namespace Sys2Proof.Machine

/-- The lines tile `t` holds in a way, REFILL included. -/
def State.wayLines (s : State) (t w : Nat) : List (Nat × NcLine) :=
  (s.coh.nc.filter (fun e => e.1 / 2 ^ 42 == t && e.2.way == w)).map (fun e => (e.1 % 2 ^ 42, e.2))

/-- A way with no line in any set. -/
def State.wayVacant (s : State) (t w : Nat) : Bool := (s.wayLines t w).isEmpty

/-- The home's pin bit of a line for tile `t`. -/
def State.setPin (t line : Nat) (on : Bool) (s : State) : State :=
  let d := s.dir line
  s.setDir line { d with pins := if on then d.pins ||| tileBit t else d.pins &&& ~~~tileBit t }.settled

/-- A tile's line leaves for good as one whole operation: a dirty line by EVICT into its home's staging, a clean one
silently; one whose EVICT has been sent is gone. -/
def State.sendAway (t line : Nat) (s : State) : State :=
  let s1 := s.takeEvict t line
  if (s1.nc t line).st == .m then s1.evictNow t line else s1.setNc t line {}

/-- Lines leave one by one; one that must wait stays for now, and leaves later (R223, R229, R196; assumption 99). -/
def State.sendEach (t : Nat) (lines : List Nat) (s : State) : State :=
  lines.foldl (fun s l => s.attempt (fun s => s.sendAway t l)) s

/-- The lines that must still leave the locked and disabled ways of a tile: those that are not pinned. -/
def State.leaving (s : State) (t : Nat) : List Nat :=
  (s.coh.nc.filter (fun e => e.1 / 2 ^ 42 == t && !e.2.pin && e.2.st != .refill &&
    (s.locked t e.2.way || s.disabled t e.2.way))).map (fun e => e.1 % 2 ^ 42)

/-- A pinned line's slot is vacated: counted, its PA kept, recorded as 0x4001 with vector 70 on both ports, and the
home clears the pin bit (R227, R414). -/
def State.vacate (t line : Nat) (s : State) : State :=
  let s1 := (s.setNc t line {}).bump .ncVacated t 0
  let s2 := (s1.putField .ncVacPaLo t 0 31 7 (line % 2 ^ 25)).putField .ncVacPaHi t 0 16 0 (line / 2 ^ 25)
  ((s2.setPin t line false).annal t { code := 0x4001, addr := 128 * line, value := t }).raiseEvent 6

/-! ## Way disable -/

/-- The number of ways a near cache has disabled. -/
def State.disabledWays (s : State) (t : Nat) : Nat := ((List.range 16).filter (fun w => s.disabled t w)).length

/-- Record 0x4002 with a degraded fault of the array (R229 to R232). -/
def State.wayNotice (t w dir pending : Nat) (s : State) : State :=
  (s.fault t (srcId 0x05 (if dir = 1 then 2 else 0)) { minSev := 2, aux := w }).annal t
    { code := 0x4002, addr := w, value := dir, aux := pending }

/-- An unlocked way is disabled: its dirty lines leave by EVICT, its clean ones are dropped, its bit sets (R229). -/
def State.disableWay (t w : Nat) (s : State) : State :=
  let s1 := s.sendEach t ((s.wayLines t w).map (fun e => e.1))
  ((s1.putField .ncWaydis t 0 w w 1).putField .ncWaydis t 0 (16 + w) (16 + w) 0).wayNotice t w 0 0

/-- The pinned lines of a way move, set by set, into another locked way (R230). -/
def State.moveWay (t w w' : Nat) (s : State) : State :=
  (s.wayLines t w).foldl (fun s e => s.setNc t e.1 { e.2 with way := w' }) s

/-- A locked, wholly vacant way other than `w` (R230). Which of several takes the lines is left open; the model takes the lowest
(DESIGN CHOICE, assumption 98). -/
def State.spareLocked (s : State) (t w : Nat) : Option Nat :=
  (List.range 16).find? (fun x => x != w && s.locked t x && !s.disabled t x && s.wayVacant t x)

/-- A way reaches its count of corrected errors (R229 to R231). -/
def State.wayReached (t w : Nat) (s : State) : State :=
  if s.disabled t w then s
  else if 4 ≤ s.disabledWays t then s.wayNotice t w 0 0
  else if !s.locked t w then s.disableWay t w
  else
    match s.spareLocked t w with
    | some x => ((s.moveWay t w x).putField .ncLock t 0 w w 0).disableWay t w
    | none => (s.putField .ncWaydis t 0 (16 + w) (16 + w) 1).wayNotice t w 0 1

/-- Pending disables happen once a locked way is wholly vacant, or the way is an ordinary one (R230), while fewer than 4 ways are
disabled (R231). -/
def State.settlePending (t : Nat) (s : State) : State :=
  (List.range 16).foldl (fun s w =>
    if s.field .ncWaydis t 0 (16 + w) (16 + w) = 0 || decide (4 ≤ s.disabledWays t) then s
    else if !s.locked t w then s.disableWay t w
    else
      match s.spareLocked t w with
      | some x => ((s.moveWay t w x).putField .ncLock t 0 w w 0).disableWay t w
      | none => s) s

/-- A pinned line is written back if dirty, and its slot is vacated (R227). -/
def State.vacateKept (t line : Nat) (s : State) : State :=
  let s1 := s.takeWb t line
  let v := s1.nc t line
  (if v.st == .m then s1.stage line v.stored v.epoch else s1).vacate t line

/-- An uncorrectable error in a way disables it at once while fewer than 4 are disabled; its pinned lines are vacated
(R231). -/
def State.wayFailed (t w : Nat) (s : State) : State :=
  if s.disabled t w then s
  else if 4 ≤ s.disabledWays t then s.wayNotice t w 0 0
  else
    ((((s.wayLines t w).filter (fun e => e.2.pin)).foldl (fun s e => s.vacateKept t e.1) s).putField .ncLock t 0 w w
      0).disableWay t w

/-! ## NC_LOCK (R223) -/

/-- The bits of a 16-bit value. -/
def ones (v : Nat) : Nat := ((List.range 16).filter (fun w => bits v w w == 1)).length

/-- Whether a value of NC_LOCK.ways is refused. -/
def State.lockRefused (s : State) (t v : Nat) : Bool :=
  let dis := bits (s.reg .ncWaydis t 0) 15 0
  decide (8 < ones v) || (List.range 16).any (fun w => bits v w w == 1 && bits dis w w == 1) ||
    decide (((List.range 16).filter (fun w => bits v w w == 0 && bits dis w w == 0)).length < 4)

/-- The lock bit of a way sets: its lines leave, and its slots stay locked and vacant. -/
def State.lockWay (t w : Nat) (s : State) : State :=
  (s.putField .ncLock t 0 w w 1).sendEach t ((s.wayLines t w).map (fun e => e.1))

/-- The lock bit of a way clears: its pinned lines become ordinary ones in place, a slot in REFILL among them. -/
def State.unlockWay (t w : Nat) (s : State) : State :=
  ((s.wayLines t w).foldl (fun s e => (s.setNc t e.1 { e.2 with pin := false }).setPin t e.1 false) s).putField
    .ncLock t 0 w w 0

/-- NC_LOCK lies at this offset of BAR0 for tile `t` (R236). -/
def ncLockOff (t : Nat) : Nat := tileBase t + 0x40000

/-- The ways that NC_LOCK names are locked and the others are not (R223); disablements that waited for a lock follow (R230). -/
def State.setWays (t v : Nat) (s : State) : State :=
  ((List.range 16).foldl (fun s w =>
    if bits v w w == 1 && !s.locked t w then s.lockWay t w
    else if bits v w w == 0 && s.locked t w then s.unlockWay t w
    else s) s).settlePending t

/-- A write of NC_LOCK through port `p` (R223, R230). -/
def State.writeNcLock (p t value : Nat) (s : State) : State :=
  let v := value % 2 ^ 16
  if s.lockRefused t v then s.refusedWrite t p (ncLockOff t) value
  else
    s.whole (fun s => s.setWays t v)

/-! ## Pins (R224 to R226) -/

/-- Pinned entries in a line's directory set at its home. -/
def State.pinnedInSet (s : State) (line : Nat) : Nat :=
  (s.coh.dir.filter (fun e => e.2.pins != 0 && dirSet e.1 == dirSet line && s.home e.1 == s.home line)).length

/-- A pinned slot takes its line by READ_S as one whole operation; a line that is unrecoverable fills the slot with
internal poison (R224, R226). -/
def State.fillPinned (t line : Nat) (env : MediaEnv) (s : State) : State :=
  let (r, s1) := s.fetchLine t line env
  if r.unrec then
    (s1.setNc t line { s1.nc t line with st := .s, poison := true, data := 0, epoch := 0 }).dirShare t line
  else s1

/-- PIN_LINES on one line: whether it is pinned afterwards. An eviction of the line on its tile, or a miss of it, ends first (R195,
R214). -/
def State.pinLine (t line : Nat) (env : MediaEnv) (s : State) : Bool × State :=
  let s := (s.wait (s.missOf t line).isSome).takeEvict t line
  let v := s.nc t line
  if v.pin then (true, s)
  else
    match s.vacantSlot t line with
    | none => (false, s.bump .ncPinRefused t 0)
    | some w =>
      if s.pinnedInSet line < 10 || (s.dir line).pins != 0 then
        if v.readable then (true, (s.setNc t line { v with pin := true, way := w }).setPin t line true)
        else
          let s1 := s.setNc t line { st := .refill, pin := true, way := w, kid := s.kidOf (folioOf line) }
          (true, (s1.fillPinned t line env).setPin t line true)
      else (false, s.bump .ncPinRefused t 0)

/-- UNPIN_LINES on one line: whether it had been pinned. -/
def State.unpinLine (t line : Nat) (s : State) : Bool × State :=
  if (s.nc t line).pin then (true, (s.sendAway t line).setPin t line false) else (false, s)

/-- The longest range of PIN_LINES and UNPIN_LINES, in lines. -/
def pinLimit : Nat := 131072

/-- The checks that PIN_LINES and UNPIN_LINES share (R54, R60). No rule orders them where several fail; the model answers an absent
tile first, then a misaligned address, then the length and the range (DESIGN CHOICE, assumption 98). -/
def State.pinCheck (s : State) (tile pa lines : Nat) : Option Status :=
  if !s.hasTile tile then some .unknown
  else if pa % 128 ≠ 0 then some .param
  else s.rangeCheck pa (128 * lines) (128 * pinLimit)

/-- Runs a pin operation over lines, counting those it answers for. -/
def pinRun (f : Nat → State → Bool × State) (lines : List Nat) (s : State) : Nat × State :=
  lines.foldl (fun a l =>
    let (b, s1) := f l a.2
    (if b then a.1 + 1 else a.1, s1)) (0, s)

def execPinLines (c : Ctx) (tile : Byte) (pa : DWord) (lines : Word) (env : MediaEnv) (s : State) :
    Host.Outcome State Fault Refusal :=
  .next (s.command 0x23 srcInterp c (pinParams tile pa lines) (State.whole fun s =>
    let t := tile.toNat
    match s.pinCheck t pa.toNat lines.toNat with
    | some st => s.reply srcInterp c st 0
    | none =>
      if s.field .ncLock t 0 15 0 = 0 then s.reply (srcStream t) c .state 0
      else
        let (n, s1) := pinRun (fun l s => s.pinLine t l env) (linesOf pa.toNat (128 * lines.toNat)) s
        s1.reply (srcStream t) c .done n))

def execUnpinLines (c : Ctx) (tile : Byte) (pa : DWord) (lines : Word) (s : State) :
    Host.Outcome State Fault Refusal :=
  .next (s.command 0x24 srcInterp c (pinParams tile pa lines) (State.whole fun s =>
    let t := tile.toNat
    match s.pinCheck t pa.toNat lines.toNat with
    | some st => s.reply srcInterp c st 0
    | none =>
      let (n, s1) := pinRun (fun l s => s.unpinLine t l) (linesOf pa.toNat (128 * lines.toNat)) s
      (s1.settlePending t).reply (srcStream t) c .done n))

/-- A write of NC_LOCK through a port. -/
def execNcLockWrite (port tile : Nat) (value : Word) (s : State) : Host.Outcome State Fault Refusal :=
  s.tileWrite port tile true (fun s => s.writeNcLock port tile value.toNat)

end Sys2Proof.Machine
end

