-- ==== Sys2Proof/Machine/Blocks.lean ====
section
/-! DEFINITION. Stripe blocks and member blocks, retirement, spares and read-only entry (R144, R146, R175, R181 to R187). -/

namespace Sys2Proof.Machine

/-- The stripe blocks of a tile. -/
def State.blocksOf (s : State) (t : Nat) : List (Nat × StripeBlock) :=
  (s.cat.blocks.filter (fun e => e.1 / 2 ^ 32 == t)).map (fun e => (e.1 % 2 ^ 32, e.2))

/-- The stripe pages of a tile. -/
def State.pagesOf (s : State) (t : Nat) : List (Nat × Page) :=
  s.cat.pages.filterMap (fun e => if e.1 / 2 ^ 28 == t then e.2.map (fun p => (e.1 % 2 ^ 28, p)) else none)

/-! ## Spares (R184 to R187) -/

/-- Retired member blocks of a channel's targets in use. -/
def State.retiredOn (s : State) (t c : Nat) : Nat :=
  (s.med.mblocks.filter (fun e => e.1 / 2 ^ 32 == chanKey t c && e.2.out &&
    (s.target t c (blockTarget (e.1 % 2 ^ 32))).used)).length

/-- Blocks of a target by its parameter page: dies × planes × blocks per plane (R154). -/
def pageBlocks (page : List Byte) : Nat := byteField page 6 1 * byteField page 7 1 * byteField page 8 4

/-- Pages per block of a target (R154). -/
def pagePpb (page : List Byte) : Nat := byteField page 12 2

/-- Good blocks of a channel: those of its targets in use that are not retired or bad; an untrained channel's all count as
retired (R153, R184). -/
def State.goodOn (s : State) (t c : Nat) : Nat :=
  if (s.chan t c).rate == 3 then 0
  else (((List.range 4).map (fun k => s.target t c k)).filter Target.used).foldl
    (fun a v => a + pageBlocks v.page) 0 - s.retiredOn t c

/-- Good blocks on the channel with the fewest. -/
def State.goodBlocks (s : State) (t : Nat) : Nat :=
  ((List.range 16).map (fun c => s.goodOn t c)).min?.getD 0

/-- Good data capacity C in bytes (R184). -/
def State.goodCapacity (s : State) (t : Nat) : Nat := 12 * 16384 * s.ppb t * s.goodBlocks t

/-- Spare remaining in 0.01 % (R184). The quotient has no value for a baseline with C0 at or below H + Q; the model reads 0 there
and stays writable until spare is gone (DESIGN CHOICE, assumption 98). -/
def State.remaining (s : State) (t : Nat) : Nat :=
  let v := s.spare t
  let base := v.c0 - v.h - v.q
  if base = 0 then 0 else (s.goodCapacity t - v.h - v.q) * 10000 / base

/-- A tile's spare has reached 0: its good capacity is no more than its user share and its reserve (R184, R187). -/
def State.spareGone (s : State) (t : Nat) : Bool :=
  decide (s.goodCapacity t ≤ (s.spare t).h + (s.spare t).q)

/-- The spare history holds 32,768 entries (R421). -/
def spareLimit : Nat := 32768

/-- The primary Curator writes a spare history entry; the oldest leaves a full history (R421). -/
def State.spareEntry (t cause detail : Nat) (s : State) : State :=
  if s.cur.primary.isNone then s
  else
    let e : SpareRec := { t := s.now, boot := s.field .anlBoot 0 0 14 0, tile := t, cause := cause,
                          remaining := min 65535 (s.remaining t), good := s.goodBlocks t, retired := s.reg .medRetired t 0,
                          detail := detail }
    { s with anl := { s.anl with
        spareH := (if spareLimit ≤ s.anl.spareH.length then s.anl.spareH.tail else s.anl.spareH) ++ [e] } }

/-- A spare baseline fixes C0, H and Q together (R184). -/
def State.takeBaseline (t : Nat) (s : State) : State :=
  let c := s.goodCapacity t
  let s0 : State := { s with med := { s.med with warned := tset (fun _ => 0) s.med.warned t 0 } }
  let s1 := s0.setSpare t { s.spare t with c0 := c, h := s.capacity / s.tiles, q := c / 100 }
  (s1.putField .medSpare t 0 13 0 (min 16383 (s1.remaining t))).spareEntry t 5 0

/-- One spare warning or read-only entry: recorded as 0x2004, vector 69, and in the spare history (R186, R187, R421). -/
def State.spareNotice (t level : Nat) (s : State) : State :=
  ((s.annal t { code := 0x2004, addr := t, value := s.remaining t, aux := level }).raiseEvent 5).spareEntry t
    (if level = 0 then 4 else 3) 0

/-- A spare warning of a tile, given once since its baseline: bit 0 for 10 %, bit 1 for 3 % (R186). -/
def State.spareWarn (t bit level : Nat) (s : State) : State :=
  let w := tget (fun _ => (0 : BitVec 2)) s.med.warned t
  let s1 := s.putField .medSpare t 0 (29 + bit) (29 + bit) 1
  if w.getLsbD bit then s1
  else
    ({ s1 with med := { s1.med with
        warned := tset (fun _ => 0) s1.med.warned t (w ||| BitVec.ofNat 2 (2 ^ bit)) } } : State).spareNotice t level

/-- Whether a relocation whose own destination brought the spare to its floor still runs: read-only entry waits for its last step
(R132). -/
def State.relocates (s : State) (t : Nat) : Bool := (tget (fun _ => none) s.cat.relocs t).any (fun r => r.own)

/-- A tile's spare figures are brought up to date (R132, R186, R187). -/
def State.spareCheck (t : Nat) (s : State) : State :=
  if !s.med.baseline then s
  else
    let r := s.remaining t
    let s1 := s.putField .medSpare t 0 13 0 (min 16383 r)
    let s2 := if r < 1000 then s1.spareWarn t 0 10 else s1
    let s3 := if r < 300 then s2.spareWarn t 1 3 else s2
    if s3.spareGone t && !s3.med.readOnly && !s3.relocates t then
      ({ s3 with med := { s3.med with readOnly := true } } : State).spareNotice t 0
    else s3

/-- MED_DEGRADED shows the degraded stripe blocks that await relocation (R183). -/
def State.showDegraded (t : Nat) (s : State) : State :=
  s.putReg .medDegraded t 0 ((s.blocksOf t).filter (fun e => e.2.degraded)).length

/-- The stripe blocks whose member on a channel `p` names become degraded (R183). -/
def State.degrade (t c : Nat) (p : Nat → Bool) (s : State) : State :=
  ((s.blocksOf t).foldl (fun s e =>
    if !e.2.free && p (e.2.member c) then s.setBlock t e.1 { e.2 with degraded := true } else s) s).showDegraded t

/-- The member blocks of a channel that count as retired: those retired or with a bad mark; on a channel that has not trained,
every one in use too (R153, R190). -/
def State.retiredCount (s : State) (t c : Nat) : Nat :=
  let out := (s.med.mblocks.filter (fun e => e.1 / 2 ^ 32 == chanKey t c && e.2.out)).length
  if (s.chan t c).rate == 3 then
    out + ((s.blocksOf t).filter (fun e => !e.2.free && !(s.mblock t c (e.2.member c)).out)).length
  else out

/-- MED_RETIRED shows them (R190). -/
def State.showRetired (t : Nat) (s : State) : State :=
  s.putReg .medRetired t 0 ((List.range 16).foldl (fun a c => a + s.retiredCount t c) 0)

/-! ## Measured registers that follow the blocks (R134, R140, R181) -/

/-- Free stripe data capacity of a tile in MiB (R140). -/
def State.showFree (t : Nat) (s : State) : State :=
  let burnt := (s.blocksOf t).foldl (fun a e => a + e.2.burnt.length) 0
  s.putReg .catFree t 0 ((s.goodCapacity t - 12 * 16384 * ((s.pagesOf t).length + burnt)) / 2 ^ 20)

/-- The good blocks of a channel that are known: on a target in use, neither retired nor bad. -/
def State.knownBlocks (s : State) (t c : Nat) : List MBlock :=
  (s.med.mblocks.filter (fun e => e.1 / 2 ^ 32 == chanKey t c && !e.2.out &&
    (s.target t c (blockTarget (e.1 % 2 ^ 32))).used)).map (fun e => e.2)

/-- The lowest erase count of a channel's good blocks; one that no record tells of has none (R181). -/
def State.leastErased (s : State) (t c : Nat) : Nat :=
  let known := (s.knownBlocks t c).map (fun m => m.erases)
  if known.length < s.goodOn t c then 0 else known.min?.getD 0

/-- The spread of erase counts of a channel's good blocks (R181). -/
def State.spreadOn (s : State) (t c : Nat) : Nat :=
  ((s.knownBlocks t c).map (fun m => m.erases)).max?.getD 0 - s.leastErased t c

/-- MED_WEAR shows the largest spread (R181). -/
def State.showWear (t : Nat) (s : State) : State :=
  s.putReg .medWear t 0 (min 65535 (((List.range 16).map (fun c => s.spreadOn t c)).max?.getD 0))

/-- Targets in use on the channel with the fewest. -/
def State.leastTargets (s : State) (t : Nat) : Nat :=
  (((List.range 16).map (fun c => ((List.range 4).filter (fun k => (s.target t c k).used)).length)).min?).getD 0

/-- Stripe data program capacity P in 0.01 GB/s: 5 GB/s for each target on the least-populated channel. -/
def State.progCap (s : State) (t : Nat) : Nat := 500 * s.leastTargets t

/-- The background share b in %: larger values are taken as 50 (R134, R140). -/
def State.bgShare (s : State) (t : Nat) : Nat := min 50 (s.field .catPace t 0 31 24)

/-- The sustained user write U in 0.01 GB/s, for relocated bytes per byte freed of `r` / 256. -/
def State.userRate (s : State) (t r : Nat) : Nat :=
  min 500 (s.progCap t * (100 - s.bgShare t) * 256 / (100 * (256 + r)))

/-- CAT_PACE.prog_cap reports P. -/
def State.showCap (t : Nat) (s : State) : State := s.putField .catPace t 0 15 0 (s.progCap t)

/-- CAT_RATE reports U and r for the current victim. -/
def State.showRate (t r : Nat) (s : State) : State :=
  (s.putField .catRate t 0 15 0 (min 65535 r)).putField .catRate t 0 31 16 (s.userRate t r)

/-- The figures that follow which blocks are good and which targets are in use (R134, R140, R181, R190). -/
def State.showBlocks (t : Nat) (s : State) : State :=
  ((((s.showRetired t).showWear t).showFree t).showCap t).showRate t (s.field .catRate t 0 15 0)

/-- A member block is retired (R182, R183): cause 1 program, 2 erase, 3 stretch. -/
def State.retireBlock (t c b cause : Nat) (s : State) : State :=
  if (s.mblock t c b).retired then s
  else
    let s1 := (s.setMblock t c b { s.mblock t c b with retired := true }).showBlocks t
    let s2 := s1.annal t { code := 0x2003, addr := c + 256 * b, value := cause }
    ((s2.degrade t c (· == b)).spareEntry t 1 (c + 256 * (b % 2 ^ 24))).spareCheck t

/-! ## Block allocation (R181) -/

/-- The member blocks in use on a channel. -/
def State.membersOn (s : State) (t c : Nat) : List Nat :=
  ((s.blocksOf t).filter (fun e => !e.2.free)).map (fun e => e.2.member c)

/-- Up to `n` block numbers of each plane of a channel's targets in use, the lowest first. -/
def State.blockNumbers (s : State) (t c n : Nat) : List Nat :=
  ((List.range 4).filter (fun k => (s.target t c k).used)).flatMap (fun k =>
    let page := (s.target t c k).page
    (List.range (byteField page 6 1 * byteField page 7 1)).flatMap (fun pl =>
      (List.range (min n (byteField page 8 4))).map (fun i => k * 2 ^ 24 + pl * 2 ^ 16 + i)))

/-- The free block of a channel with the lowest erase count, the lowest number first. -/
def State.pickBlock (s : State) (t c : Nat) : Nat :=
  let used := s.membersOn t c
  let known := (s.med.mblocks.filter (fun e => e.1 / 2 ^ 32 == chanKey t c)).length
  let cand := (s.blockNumbers t c (used.length + known + 1)).filter (fun b =>
    !used.contains b && !(s.mblock t c b).out)
  cand.foldl (fun a b => if (s.mblock t c b).erases < (s.mblock t c a).erases then b else a) (cand.headD 0)

/-- Whether a stripe page may be programmed: it holds nothing, no program of it has failed, and its block is not closed or
degraded (R182, R183) or unknown (R378). -/
def State.pageFree (s : State) (t spn : Nat) : Bool :=
  let v := s.block t (spn / s.ppb t)
  (s.page t spn).isNone && !v.burnt.contains spn && !v.closed && !v.degraded && decide (spn < 2 ^ 28) &&
    !s.lostPage t spn (spn / s.ppb t)

/-- A stripe block is taken into use, unless it is already. -/
def State.openBlock (t b : Nat) (s : State) : State :=
  if (s.block t b).free then
    s.setBlock t b { members := (List.range 16).map (fun c => s.pickBlock t c), free := false }
  else s

/-! ## Program loads and operations (R160 to R162) -/

/-- A page loads in 34 codeword windows (R158). -/
def pageChunks : Nat := 34

/-- Whether a member block is programmed and erased: its channel has trained, its target has not failed, and it is not
out of use (R153, R182, R183). -/
def State.carries (s : State) (t c b : Nat) : Bool :=
  (s.chan t c).rate != 3 && !(s.mblock t c b).out && !s.targetFailed t c b

/-- The loads of a stripe page are queued for its members (R162, R182). -/
def State.queueLoads (t spn : Nat) (s : State) : State :=
  let b := spn / s.ppb t
  (List.range 16).foldl (fun (s : State) c =>
    let m := (s.block t b).member c
    let h := s.chan t c
    if !s.carries t c m then s
    else s.setChan t c { h with loads := h.loads ++
      [({ ch := c, target := blockTarget m, block := m, spn := spn, prog := true, seg := 0 }, pageChunks)] }) s

/-- Erase segments of a block of a target, by its parameter page (R154). -/
def pageSegs (page : List Byte) : Nat := max 1 (byteField page 14 1)

/-- The erase segments of a stripe block's members are ready for their phases (R131 step 6, R151, R161). -/
def State.queueErase (t b : Nat) (s : State) : State :=
  let v := s.cal t
  s.setCal t { v with ready := v.ready ++ ((List.range 16).filter (fun c =>
      s.carries t c ((s.block t b).member c))).flatMap (fun c =>
    let m := (s.block t b).member c
    (List.range (pageSegs (s.target t c (blockTarget m)).page)).map (fun g =>
      { ch := c, target := blockTarget m, block := m, spn := b * s.ppb t, prog := false, seg := g })) }

/-- Whether some operation that `p` names is still to load, to start or to end on a tile. -/
def State.opsPending (s : State) (t : Nat) (p : StartedOp → Bool) : Bool :=
  (s.cal t).ready.any p || (s.cal t).due.any p || (s.cal t).started.any p ||
    (List.range 16).any (fun c => (s.chan t c).loads.any (fun e => p e.1))

/-! ## Stamps and bands (R170, R172, R175) -/

/-- The write time stamp now (R175). -/
def State.wtimeNow (s : State) : DWord :=
  if s.wallNow = 0 then
    BitVec.ofNat 64 (s.field .anlBoot 0 0 14 0 * 2 ^ 48 + s.now / 1000 % 2 ^ 48)
  else BitVec.ofNat 64 (2 ^ 63 + s.wallNow / 1000000)

/-- The marks of a stripe page that has been programmed: the first page of an eighth leaves its stamp and write band in the
records of its members (R172). -/
def State.markEighth (t spn : Nat) (p : Page) (s : State) : State :=
  let b := spn / s.ppb t
  let e := spn % s.ppb t * 8 / s.ppb t
  (List.range 16).foldl (fun (s : State) c =>
    let m := (s.block t b).member c
    let v := s.mblock t c m
    if (v.marks.lookup e).isSome || p.missing.contains c then s
    else s.setMblock t c m { v with marks := tput v.marks e (p.wtime, p.wbands.getD c 0) }) s

/-! ## Measured registers (R140, R174, R181, R190, R191) -/

/-- DRF_CRC and DRF_STAT show the table in use and whether wall-clock time is known (R191). -/
def State.showDrift (t : Nat) (s : State) : State :=
  let b := s.driftTable t
  (((s.putReg .drfCrc t 0 (byteField b 8 4)).putField .drfStat t 0 15 0 (byteField b 2 2)).putField .drfStat t 0 29 29
    (if (s.spare t).loaded.isSome then 0 else 1)).putField .drfStat t 0 31 31 (if s.host.features.wall = 0 then 0 else 1)

/-! ## The weeding budget (R134) -/

/-- Whether the weeding budget allows a page now (R134). -/
def State.weedReady (s : State) (t : Nat) : Bool :=
  decide (0 < s.progCap t * s.bgShare t) && decide (tget (fun _ => 0) s.cat.weedAt t ≤ s.now)

/-- The weeding budget after one stripe page of 12 x 16 KiB at the share b of P. -/
def State.weedSpent (t : Nat) (s : State) : State :=
  { s with cat := { s.cat with
      weedAt := tset (fun _ => 0) s.cat.weedAt t (s.now + 12 * 16384 * 10000 / (s.progCap t * s.bgShare t)) } }

/-- The figures of a tile's media are measured again after its registers were reset. -/
def State.measure (t : Nat) (s : State) : State :=
  ((((((s.showRetired t).showWear t).showDegraded t).showFree t).showUncal t).showDrift t).showCap t

/-- MED_SPARE after a reset of its tile: the tile's figures, with no new notice (R186). -/
def State.showSpare (t : Nat) (s : State) : State :=
  if !s.med.baseline then s
  else
    let r := s.remaining t
    ((s.putField .medSpare t 0 13 0 (min 16383 r)).putField .medSpare t 0 29 29 (if r < 1000 then 1 else 0)).putField .medSpare t 0 30 30
      (if r < 300 then 1 else 0)

end Sys2Proof.Machine
end

