-- ==== Sys2Proof/Machine/Data.lean ====
section
/-! DEFINITION. Opcodes 01h to 19h: identification, features, and the data commands of the copy engines (R60, R127, R128,
R187, R233 to R235, R393, R395). -/

namespace Sys2Proof.Machine

/-! ## IDENTIFY and features -/

/-- What IDENTIFY answers once its slot has passed (R60). -/
def State.identified (c : Ctx) (cns tile : Nat) (s : State) : SlotAnswer :=
  let give (b : List Byte) : SlotAnswer := { st := .done, data := b, len := 4096, after := s }
  match cns with
  | 0 => give s.identifyPart
  | 1 => if s.hasTile tile then give (s.identifyTile tile) else { st := .unknown, after := s }
  | 2 =>
    match c.path with
    | .ring p _ _ => give (s.identifyPort p)
    | .sideband => { st := .path, after := s }
  | 3 => give s.identifyFeatures
  | _ => { st := .param, after := s }

/-- R60; with mis-set straps only the part structure is served (R489). -/
def execIdentify (c : Ctx) (cns tile : Byte) (slot : Word) (own : SlotRead) (s : State) :
    Host.Outcome State Fault Refusal :=
  .next (s.command 0x01 srcInterp c (identifyParams cns tile slot) (fun s =>
    if cns != 1 && tile != 0 then s.reply srcInterp c .reserved 0
    else if s.pwr.strapBad && cns != 0 then s.reply srcInterp c .state 0
    else s.withSlot srcInterp c slot own true (fun w _ => decide (4096 ≤ w.slotSize))
      (fun _ s => s.identified c cns.toNat tile.toNat)))

def execGetFeature (c : Ctx) (fid : Byte) (s : State) : Host.Outcome State Fault Refusal :=
  .next (s.command 0x02 srcInterp c (getFeatureParams fid) (fun s =>
    match s.feature fid.toNat with
    | none => s.reply srcInterp c .unknown 0
    | some v => s.reply srcInterp c .done v))

/-- The time stamp of a page or block once wall-clock time is set: a boot-relative stamp of the current boot takes
wall-clock form (R175, R177). -/
def restamp (boot now wall : Nat) (w : DWord) : DWord :=
  if !w.getLsbD 63 && bits w.toNat 62 48 == boot then
    BitVec.ofNat 64 (2 ^ 63 + (wall + bits w.toNat 47 0 * 1000 - now) / 1000000)
  else w

/-- Wall-clock time is set; 0 makes it unknown (R60, R177). The stamps of the block records take their form; headers on media keep
theirs. A block whose newest eighth then has a wall-clock stamp has
a known age and awaits no calibration. -/
def State.setWall (v : Nat) (s : State) : State :=
  let stamp := restamp (s.field .anlBoot 0 0 14 0) s.now v
  let block (b : MBlock) : MBlock :=
    let m := b.marks.map (fun e => (e.1, (stamp e.2.1, e.2.2)))
    { b with marks := m, uncal := b.uncal && !(match m.getLast? with
      | some e => e.2.1.getLsbD 63
      | none => false) }
  let s1 : State := if v = 0 then s else { s with
    med := { s.med with mblocks := tmap (fun _ => {}) (fun _ b => block b) s.med.mblocks } }
  let s2 := s.tileList.foldl (fun s t => s.putField .drfStat t 0 31 31 (if v = 0 then 0 else 1)) s1
  let s3 := s.tileList.foldl (fun s t => s.showUncal t) s2
  { s3 with host := { s3.host with
      features := { s3.host.features with wall := BitVec.ofNat 64 v, wallAt := s.now } } }

/-- The auto-close interval has run out: set, and past its length from its start (R95). -/
def State.autoDue (s : State) : Bool :=
  s.host.features.auto != 0 && decide (s.epo.autoStart + s.host.features.auto * 1000 ≤ s.now)

/-- The auto-close timer expires (R95, R534). -/
def State.autoExpiry (s : State) : State :=
  if s.autoDue then
    let s1 : State := { s with epo := { s.epo with autoStart := s.now } }
    s1.trigger .auto
  else s

/-- The auto-close interval is set (R95). -/
def State.setAuto (v : Nat) (s : State) : State :=
  let start := if s.host.features.auto = 0 && v != 0 then s.now else s.epo.autoStart
  let s1 : State := { s with
    host := { s.host with features := { s.host.features with auto := v } }
    epo := { s.epo with autoStart := start } }
  s1.autoExpiry

/-- A feature is set, if the value lies in its range (R60). -/
def State.setFeature (fid v : Nat) (s : State) : Option State :=
  match fid with
  | 1 => some (s.setWall v)
  | 2 => if v = 0 ∨ (100 ≤ v ∧ v ≤ 1000000) then some (s.setAuto v) else none
  | _ => if v ≤ 1 then some { s with host := { s.host with features := { s.host.features with policy := v } } }
    else none

def execSetFeature (c : Ctx) (fid : Byte) (value : DWord) (s : State) : Host.Outcome State Fault Refusal :=
  .next (s.command 0x03 srcInterp c (setFeatureParams fid value) (fun s =>
    match s.feature fid.toNat with
    | none => s.reply srcInterp c .unknown 0
    | some old =>
      match s.setFeature fid.toNat value.toNat with
      | none => s.reply srcInterp c .param 0
      | some t => t.reply srcInterp c .done old))

/-! ## READ_X and WRITE_X -/

/-- The longest READ_X or WRITE_X. -/
def xferLimit : Nat := 2 ^ 20

/-- The master of a ring command's copy engines (R392). -/
def masterOf (c : Ctx) : Nat :=
  match c.path with
  | .ring p _ _ => copyMaster p
  | .sideband => copyMaster 0

/-- The copy engine whose reply answers a range: engine 0 of the home of its first line (assumption 18). -/
def State.engineOf (s : State) (pa : Nat) : Nat := srcCopy (s.home (pa / 128))

/-- What a copy engine has read so far: bytes, whether some line was rebuilt, and the first failing line. -/
structure ReadRun where
  bytes   : List Byte
  rebuilt : Bool
  fail    : Option (Status × Nat)
  after   : State

/-- The bytes `pa` to `pa + len - 1` of a line. -/
def lineSlice (line pa len : Nat) (l : Line) : List Byte :=
  let lo := pa - 128 * line
  let hi := min 128 (pa + len - 128 * line)
  ((lineBytes l).take hi).drop lo

/-- Reads a range line by line, each on its home, up to the first line that fails (R57, R164). -/
def State.readRange (pa len : Nat) (env : MediaEnv) (s : State) : ReadRun :=
  (linesOf pa len).foldl (fun a l =>
    if a.fail.isSome then a
    else
      let (r, s1) := a.after.readLine (a.after.home l) l env
      if r.unrec then { a with fail := some (.lost, 128 * l), after := s1 }
      else if r.v.poison then { a with fail := some (.poison, 128 * l), after := s1 }
      else { a with bytes := a.bytes ++ lineSlice l pa len r.v.data, rebuilt := a.rebuilt || r.rebuilt, after := s1 })
    { bytes := [], rebuilt := false, fail := none, after := s }

/-- What the writes of a command came to: the highest epoch carried, whether a line was rebuilt, and the first failing
line. -/
structure WriteRun where
  epoch   : Nat
  rebuilt : Bool
  fail    : Option (Status × Nat)
  after   : State

/-- One line of a writing command, on tile `t`. A line that fails to verify is left as it was, and the others follow
(R57, R395). -/
def WriteRun.line (t l : Nat) (f : Nat → Option Byte) (env : MediaEnv) (a : WriteRun) : WriteRun :=
  let e := a.after.stampOf t
  match a.after.writeBytes t l f env with
  | (.done r, s1) => { epoch := max a.epoch e, rebuilt := a.rebuilt || r, fail := a.fail, after := s1 }
  | (.unrec, s1) => { a with fail := some (a.fail.getD (.lost, 128 * l)), after := s1 }
  | (.poison, s1) => { a with fail := some (a.fail.getD (.poison, 128 * l)), after := s1 }

/-- The bytes of line `l` that a range covers, from a byte string that starts at `pa`. -/
def rangeBytes (pa len : Nat) (b : Nat → Byte) (l i : Nat) : Option Byte :=
  if pa ≤ 128 * l + i ∧ 128 * l + i < pa + len then some (b (128 * l + i - pa)) else none

/-- Writes a range; `at l` is the tile whose copy engine writes line `l`. -/
def State.writeRange (lines : List Nat) (pa len : Nat) (b : Nat → Byte) (tileOf : State → Nat → Nat) (env : MediaEnv)
    (s : State) : WriteRun :=
  lines.foldl (fun a l => a.line (tileOf a.after l) l (rangeBytes pa len b l) env)
    { epoch := 0, rebuilt := false, fail := none, after := s }

/-- The status and result of a command's lines (R56, R57). -/
def verdict (fail : Option (Status × Nat)) (rebuilt : Bool) (result : Nat) : Status × Nat :=
  match fail with
  | some (st, pa) => (st, pa)
  | none => (if rebuilt then .rebuilt else .done, result)

/-- READ_X once its slot has passed (R60, R79, R393). -/
def State.readDone (c : Ctx) (pa len : Nat) (env : MediaEnv) (s : State) : SlotAnswer :=
  match s.deniedRange (masterOf c) pa len false with
  | some st => { st := st, after := s.deny (masterOf c) (pa / 128) }
  | none =>
    let r := s.readRange pa len env
    let (st, res) := verdict r.fail r.rebuilt len
    { st := st, result := res, data := r.bytes, len := r.bytes.length, after := r.after }

def execReadX (c : Ctx) (pa : DWord) (len slot : Word) (own : SlotRead) (env : MediaEnv) (s : State) :
    Host.Outcome State Fault Refusal :=
  .next (s.command 0x10 srcInterp c (readXParams pa len slot) (State.whole fun s =>
    match s.rangeCheck pa.toNat len.toNat xferLimit with
    | some st => s.reply srcInterp c st 0
    | none => s.withSlot (s.engineOf pa.toNat) c slot own true (fun w _ => decide (len.toNat ≤ w.slotSize))
        (fun _ s => s.readDone c pa.toNat len.toNat env)))

/-- WRITE_X once its slot has passed (R60, R79, R187, R393). -/
def State.writeDone (c : Ctx) (pa len : Nat) (data : HostData) (env : MediaEnv) (s : State) : SlotAnswer :=
  if s.med.readOnly then { st := .readOnly, len := len, after := s }
  else
    match s.deniedRange (masterOf c) pa len true with
    | some st => { st := st, len := len, after := s.deny (masterOf c) (pa / 128) }
    | none =>
      if !data.ok then { st := .hostRead, len := len, after := s }
      else
        let r := s.writeRange (linesOf pa len) pa len (fun i => data.bytes.getD i 0) (fun s l => s.home l) env
        let (st, res) := verdict r.fail r.rebuilt r.epoch
        { st := st, result := res, len := len, after := r.after }

def execWriteX (c : Ctx) (pa : DWord) (len slot : Word) (own : SlotRead) (data : HostData) (env : MediaEnv)
    (s : State) : Host.Outcome State Fault Refusal :=
  .next (s.command 0x11 srcInterp c (writeXParams pa len slot) (State.whole fun s =>
    match s.rangeCheck pa.toNat len.toNat xferLimit with
    | some st => s.reply srcInterp c st 0
    | none => s.withSlot (s.engineOf pa.toNat) c slot own true (fun _ w => ownLen w == len.toNat)
        (fun _ s => s.writeDone c pa.toNat len.toNat data env)))

/-! ## Commands on ranges -/

/-- The longest COPY. -/
def copyLimit : Nat := 2 ^ 36

/-- A refusal by rights or retired keys answers with nothing changed but the counts (R393). -/
def State.guarded (c : Ctx) (pa len : Nat) (write : Bool) (body : State → State) (s : State) : State :=
  match s.deniedRange (masterOf c) pa len write with
  | some st => (s.deny (masterOf c) (pa / 128)).reply (s.engineOf pa) c st 0
  | none => body s

/-- COPY after its checks: the source is read as through a buffer, and a copy engine of the source's home writes the
destination line (R29, R60): for a line whose bytes come from two homes, that of its first byte (DESIGN CHOICE,
assumption 98). -/
def State.copyRange (c : Ctx) (src dst len : Nat) (env : MediaEnv) (s : State) : State :=
  let r := s.readRange src len env
  let from' (s : State) (l : Nat) : Nat := s.home ((max dst (128 * l) - dst + src) / 128)
  match r.fail with
  | some (st, pa) => r.after.reply (s.engineOf src) c st pa
  | none =>
    let w := r.after.writeRange (linesOf dst len) dst len (fun i => r.bytes.getD i 0) from' env
    let (st, res) := verdict w.fail (r.rebuilt || w.rebuilt) w.epoch
    w.after.reply (s.engineOf src) c st res

def execCopy (c : Ctx) (src dst len : DWord) (env : MediaEnv) (s : State) : Host.Outcome State Fault Refusal :=
  .next (s.command 0x12 srcInterp c (copyParams src dst len) (State.whole fun s =>
    match s.rangeCheck src.toNat len.toNat copyLimit with
    | some st => s.reply srcInterp c st 0
    | none =>
      match s.rangeCheck dst.toNat len.toNat copyLimit with
      | some st => s.reply srcInterp c st 0
      | none =>
        if s.med.readOnly then s.reply (s.engineOf src.toNat) c .readOnly 0
        else s.guarded c src.toNat len.toNat false (fun s =>
          s.guarded c dst.toNat len.toNat true (fun s =>
            s.copyRange c src.toNat dst.toNat len.toNat env))))

/-- Folios and leaves wholly inside a range. -/
def wholeFolios (pa len : Nat) : List Nat :=
  (foliosOf pa len).filter (fun f => pa ≤ 65536 * f && 65536 * f + 65536 ≤ pa + len)

def wholeLeaves (pa len : Nat) : List Nat :=
  ((foliosOf pa len).flatMap (fun f => (List.range 16).map (· + 16 * f))).filter (fun l =>
    pa ≤ 4096 * l && 4096 * l + 4096 ≤ pa + len)

/-- The leaves of a range outside its whole folios that are mapped by leaf. -/
def State.splitLeaves (s : State) (pa len : Nat) : List Nat :=
  (wholeLeaves pa len).filter (fun l =>
    !(wholeFolios pa len).contains (l / 16) && (match (s.folio (l / 16)).place with
      | .split _ => true
      | _ => false))

/-- A note is queued for the stager of a tile (R129). -/
def State.addNote (t leaf count epoch : Nat) (s : State) : State :=
  { s with cat := { s.cat with
      notes := tset (fun _ => []) s.cat.notes t
        (tget (fun _ => []) s.cat.notes t ++ [{ leaf := leaf, count := count, epoch := epoch }]) } }

/-- A folio or leaf entry is set UNMAPPED in the epoch its home stamps, with its undo entry and a note; the group of a
split folio is free once nothing names it (R125, R127, R128). -/
def State.unmap (leaf : Bool) (key : Nat) (s : State) : State :=
  let t := s.entryHome leaf key
  let e := s.stampOf t
  let s3 := ((s.undo leaf key e).setEntry leaf key { place := .unmapped, reloc := false }).sweepGroups t
  (s3.addNote t (if leaf then key else 16 * key) (if leaf then 1 else 16) e).carried e

/-- DISCARD after its checks (R127). -/
def State.discardRange (c : Ctx) (pa len : Nat) (s : State) : State :=
  let leaves := s.splitLeaves pa len
  let s1 := (wholeFolios pa len).foldl (fun s f => s.unmap false f) s
  let s2 := leaves.foldl (fun s l => s.unmap true l) s1
  s2.reply (s.engineOf pa) c .done 0

def execDiscard (c : Ctx) (pa len : DWord) (s : State) : Host.Outcome State Fault Refusal :=
  .next (s.command 0x14 srcInterp c (rangeParams pa len) (State.whole fun s =>
    match s.rangeCheck pa.toNat len.toNat s.capacity with
    | some st => s.reply srcInterp c st 0
    | none =>
      if s.med.readOnly then s.reply (s.engineOf pa.toNat) c .readOnly 0
      else s.guarded c pa.toNat len.toNat true (fun s =>
        s.discardRange c pa.toNat len.toNat)))

/-! ### ZERO_RANGE (R128, R234, R235) -/

/-- The lines of a folio or leaf entry. -/
def entryLines (leaf : Bool) (key : Nat) : List Nat :=
  if leaf then (List.range 32).map (· + 32 * key) else (List.range 512).map (· + 512 * key)

/-- Once a line is not busy, dirty content of it in any near cache, or on its way, with an epoch below `e` goes to staging; a holder
keeps the line clean, and one that is leaving by EVICT is gone (R206, R213, R234). -/
def State.stageOlder (line e : Nat) (s : State) : State :=
  s.tileList.foldl (fun s t =>
    let v := s.nc t line
    if v.st == .m && decide (v.epoch < e) then
      (s.stage line { data := v.data, poison := v.poison } v.epoch).setNc t line { v with st := .e }
    else s) ((s.waitBusy line).takeWbs line)

/-- The entries of a range that ZERO_RANGE unmaps whole: folios, and leaves of split folios outside them. -/
def State.zeroEntries (s : State) (pa len : Nat) : List (Bool × Nat) :=
  (wholeFolios pa len).map (fun f => (false, f)) ++ (s.splitLeaves pa len).map (fun l => (true, l))

/-- The buffers that hold lines of an entry: its own, and those of the leaves of a folio. -/
def Buf.covers (b : Buf) (leaf : Bool) (key : Nat) : Bool :=
  (b.leaf == leaf && b.key == key) || (!leaf && b.leaf && b.key / 16 == key)

/-- Whether a piece lies in a folio or leaf. -/
def pieceIn (leaf : Bool) (key : Nat) : Piece → Bool
  | .folio f _ => !leaf && f == key
  | .leaf l _ _ => if leaf then l == key else l / 16 == key
  | .note _ => false

/-- A page whose program has not completed no longer programs the pieces of a folio or leaf that has become zero (R128). -/
def Page.without (leaf : Bool) (key : Nat) (p : Page) : Page :=
  if p.programmed || p.reloc then p else { p with items := p.items.filter (fun i => !pieceIn leaf key i.piece) }

/-- One whole folio or leaf becomes zero: the open epoch's buffer is dropped, with what is being programmed of it, every near
cache loses its lines without writing them back, and the entry is UNMAPPED with a note. -/
def State.zeroEntry (leaf : Bool) (key : Nat) (s : State) : State :=
  let s1 : State := { s with cat := { s.cat with
    bufs := s.cat.bufs.filter (fun b => !b.covers leaf key)
    pages := s.cat.pages.map (fun e =>
      if e.1 / 2 ^ 28 == s.entryHome leaf key then (e.1, e.2.map (Page.without leaf key)) else e) } }
  let s2 := (entryLines leaf key).foldl (fun (s : State) l =>
    let (_, s3) := (s.waitBusy l).snoopAll l (tilesOf (s.dir l).sharers)
    s3) s1
  s2.unmap leaf key

/-- Whether a whole folio or leaf still waits for an older buffer to be programmed (R128). -/
def State.zeroWaits (s : State) (leaf : Bool) (key : Nat) : Bool :=
  s.cat.bufs.any (fun b => b.covers leaf key && decide (b.epoch < s.stampOf (s.entryHome leaf key)))

/-- ZERO_RANGE after its checks. Dirty lines of lower epochs of its whole folios and leaves go to staging first; while a
buffer of a lower epoch remains, the command waits. -/
def State.zeroRange (c : Ctx) (pa len : Nat) (env : MediaEnv) (s : State) : State :=
  let es := s.zeroEntries pa len
  let s1 := es.foldl (fun s e => (entryLines e.1 e.2).foldl (fun s l => s.stageOlder l (s.stampOf (s.home l))) s) s
  if es.any (fun e => s1.zeroWaits e.1 e.2) then s1
  else
    let e := es.foldl (fun a x => max a (s1.stampOf (s1.entryHome x.1 x.2))) 0
    let s2 := es.foldl (fun s x => s.zeroEntry x.1 x.2) s1
    let rest := (linesOf pa len).filter (fun l => !es.any (fun x => if x.1 then leafOf l == x.2 else folioOf l == x.2))
    let w := s2.writeRange rest pa len (fun _ => 0) (fun s l => s.home l) env
    let (st, res) := verdict w.fail w.rebuilt (max e w.epoch)
    w.after.reply (s.engineOf pa) c st res

def execZeroRange (c : Ctx) (pa len : DWord) (env : MediaEnv) (s : State) : Host.Outcome State Fault Refusal :=
  .next (s.command 0x13 srcInterp c (rangeParams pa len) (State.whole fun s =>
    match s.rangeCheck pa.toNat len.toNat s.capacity with
    | some st => s.reply srcInterp c st 0
    | none =>
      if s.med.readOnly then s.reply (s.engineOf pa.toNat) c .readOnly 0
      else s.guarded c pa.toNat len.toNat true (fun s =>
        s.zeroRange c pa.toNat len.toNat env)))

/-! ### FLUSH_RANGE and INVAL_RANGE (R227, R233) -/

/-- SNP_F to a tile: a line in M is written back and kept in E; one that is not there answers ACK_NP (R201, R211, R233). -/
def State.snoopF (l o : Nat) (s : State) : State :=
  let v := s.nc o l
  let s1 := s.pmcEdge (s.home l) 0x08 0
  if v.st == .m then (s1.stage l v.stored v.epoch).setNc o l { v with st := .e }
  else if v.readable then s1
  else (s1.bump .dirNotpresent (s.home l) 0).dropSharer o l

/-- A line is written back, once it is not busy and what is on its way has been accepted, by SNP_F to every tile that its entry names
(R206, R213, R233). -/
def State.flushLine (l : Nat) (s : State) : State :=
  let s1 := (s.waitBusy l).takeWbs l
  (tilesOf (s1.dir l).sharers).foldl (fun s o => s.snoopF l o) s1

def execFlushRange (c : Ctx) (pa len : DWord) (s : State) : Host.Outcome State Fault Refusal :=
  .next (s.command 0x15 srcInterp c (rangeParams pa len) (State.whole fun s =>
    match s.rangeCheck pa.toNat len.toNat s.capacity with
    | some st => s.reply srcInterp c st 0
    | none => ((linesOf pa.toNat len.toNat).foldl (fun s l => s.flushLine l) s).reply (s.engineOf pa.toNat) c .done 0))

/-- SNP_I of INVAL_RANGE to a tile: a dirty line goes to staging; a pinned one is vacated (R227, R233). -/
def State.snoopOut (l o : Nat) (s : State) : State :=
  if (s.nc o l).pin then ((s.pmcEdge (s.home l) 0x08 0).vacateKept o l).dropSharer o l
  else
    let (v, s1) := s.snoopI l o
    s1.stageKept l v

/-- A line leaves every near cache that its entry names, written back where dirty. Counts the line if one was pinned. -/
def State.invalLine (l : Nat) (n : Nat × State) : Nat × State :=
  let s1 := (n.2.waitBusy l).takeWbs l
  let pinned := s1.tileList.any (fun t => (s1.nc t l).pin)
  let d := s1.dir l
  (if pinned then n.1 + 1 else n.1, (tilesOf (d.sharers ||| d.pins)).foldl (fun s o => s.snoopOut l o) s1)

/-- INVAL_RANGE; a locked way that it leaves wholly vacant lets a pending disable happen (R230). -/
def State.invalRange (c : Ctx) (pa len : Nat) (s : State) : State :=
  let r := (linesOf pa len).foldl (fun a l => State.invalLine l a) (0, s)
  (r.2.tileList.foldl (fun s t => s.settlePending t) r.2).reply (s.engineOf pa) c .done r.1

def execInvalRange (c : Ctx) (pa len : DWord) (s : State) : Host.Outcome State Fault Refusal :=
  .next (s.command 0x16 srcInterp c (rangeParams pa len) (State.whole fun s =>
    match s.rangeCheck pa.toNat len.toNat s.capacity with
    | some st => s.reply srcInterp c st 0
    | none => s.invalRange c pa.toNat len.toNat))

/-! ## Epoch commands (R60, R95) -/

def execEpochClose (c : Ctx) (mode : Byte) (s : State) : Host.Outcome State Fault Refusal :=
  .next (s.command 0x18 srcInterp c (epochParams mode) (fun s =>
    if 1 < mode.toNat then (s.misuse c 0x18).reply srcInterp c .param 0
    else s.trigger (.close (some c) mode.toNat)))

def execEpochQuery (c : Ctx) (mode : Byte) (s : State) : Host.Outcome State Fault Refusal :=
  .next (s.command 0x19 srcInterp c (epochParams mode) (fun s =>
    match mode.toNat with
    | 0 => s.reply srcInterp c .done s.epo.openE
    | 1 => s.reply srcInterp c .done s.epo.durable
    | _ => (s.misuse c 0x19).reply srcInterp c .param 0))

end Sys2Proof.Machine
end

