-- ==== Sys2Proof/Machine/Witis.lean ====
section
/-! DEFINITION. The packets of the Witis media channel (R149 to R151) and the windows of its bus (R153, R158). -/

namespace Sys2Proof.Machine

/-- The command codes of the channel (R151). -/
inductive WitisCmd where
  | nop | readCw | load | program | eraseSeg | status | getTemp | getBlock | paramRead | train | reset
  deriving DecidableEq, Repr

def WitisCmd.code : WitisCmd → Nat
  | .nop => 0x00
  | .readCw => 0x01
  | .load => 0x08
  | .program => 0x09
  | .eraseSeg => 0x0A
  | .status => 0x10
  | .getTemp => 0x11
  | .getBlock => 0x12
  | .paramRead => 0x18
  | .train => 0x1C
  | .reset => 0x3F

/-- CRC-8 of the 72 bits [79:8] of a packet, the most significant first, from 0x00 (R150). -/
def crc8 (head : BitVec 72) : BitVec 8 :=
  BitVec.ofNat 8 ((List.range 72).foldl (fun c i => crc8Step c (head.getLsbD (71 - i))) 0)

/-- A packet (R150). -/
structure Packet where
  cmd   : WitisCmd
  die   : Nat := 0
  plane : Nat := 0
  block : Nat := 0
  page  : Nat := 0
  unit  : Nat := 0
  offs  : List Byte := []

/-- The 80 bits of a packet, its CRC in the lowest eight. -/
def Packet.bits (p : Packet) : BitVec 80 :=
  let head : BitVec 72 :=
    BitVec.ofNat 6 p.cmd.code ++ BitVec.ofNat 4 p.die ++ BitVec.ofNat 2 p.plane ++ BitVec.ofNat 16 p.block
      ++ BitVec.ofNat 12 p.page ++ BitVec.ofNat 6 p.unit ++ (0 : BitVec 2) ++ p.offs.getD 0 0 ++ p.offs.getD 1 0
      ++ p.offs.getD 2 0
  head ++ crc8 head

/-- A packet about a member block of a channel: its plane and block by the parameter page of its target (R150, R154). -/
def State.blockPacket (s : State) (t c m : Nat) (cmd : WitisCmd) (page unit : Nat) (offs : List Byte) : Packet :=
  let planes := max 1 (byteField (s.target t c (blockTarget m)).page 7 1)
  let pl := m / 2 ^ 16 % 256
  { cmd := cmd, die := pl / planes, plane := pl % planes, block := m % 2 ^ 16, page := page, unit := unit, offs := offs }

/-- A packet is sent to a target of a channel: MC_CS_N of the target is low (R149, R150). -/
def State.sendPacket (t c k : Nat) (p : Packet) (s : State) : State := s.emit (.mediaCmd t c k p.bits)

/-- A packet about a member block is sent to its target. -/
def State.sendBlock (t c m : Nat) (cmd : WitisCmd) (page unit : Nat) (offs : List Byte) (s : State) : State :=
  s.sendPacket t c (blockTarget m) (s.blockPacket t c m cmd page unit offs)

/-! ## Windows of a channel's bus (R153, R158) -/

/-- The bus rate of a channel in 0.1 GT/s (R153). -/
def rateOf (rate : BitVec 2) : Nat := if rate == 1 then 64 else if rate == 2 then 40 else 80

/-- The whole slots of 20 ns that a transfer of some bytes needs, with 2 ns of turnaround on each side (R152, R153, R158). -/
def windowSlots (bytes : Nat) (rate : BitVec 2) : Nat := (10 * bytes + 24 * rateOf rate - 1) / (20 * rateOf rate)

/-- Slots of a codeword window at the channel's rate: 4, 5 or 8 (R153, R158). -/
def codewordSlots (rate : BitVec 2) : Nat := windowSlots 608 rate

/-- Slots of a background window that is no load (R158). -/
def BackKind.slots (rate : BitVec 2) : BackKind → Nat
  | .header => windowSlots 1024 rate
  | .summary => windowSlots 128 rate
  | .status | .temp | .block => windowSlots 8 rate
  | .scrub | .weed | .calib => codewordSlots rate

end Sys2Proof.Machine
end

