-- ==== Sys2Proof/Machine/Catalogue.lean ====
section
/-! DEFINITION. The stager, splitting and merging, weeding and the header scans (R116 to R138, R382, R387). -/

namespace Sys2Proof.Machine

/-! ## Pieces of a stripe page (R117) -/

/-- The quarters of data pages a piece fills: folio slot `k` is quarters 16 k to 16 k + 15. -/
def pieceQuarters : Piece → List Nat
  | .folio _ k => (List.range 16).map (· + 16 * k)
  | .leaf _ p q => [4 * p + q]
  | .note p => (List.range 4).map (· + 4 * p)

/-- Whether a list has no repeats. -/
def noRepeats (l : List Nat) : Bool :=
  match l with
  | [] => true
  | a :: r => !r.contains a && noRepeats r

/-- Pieces that fit one stripe page: twelve data pages, no quarter filled twice, and no leaf or note in a folio's slot. -/
def piecesFit (l : List Piece) : Bool :=
  (l.flatMap pieceQuarters).all (fun q => decide (q < 48)) && noRepeats (l.flatMap pieceQuarters)

/-- The entry a piece holds, if any. -/
def pieceEntry : Piece → Option (Bool × Nat)
  | .folio f _ => some (false, f)
  | .leaf l _ _ => some (true, l)
  | .note _ => none

/-- Where an entry points for a piece on page `spn` (R111, R112). -/
def piecePlace (spn : Nat) : Piece → Place
  | .folio _ k => .media spn (4 * k) 0
  | .leaf _ p q => .media spn p q
  | .note _ => .unmapped

/-- The staging buffer of an entry that is programmed next: the one of the lowest epoch, wherever it stands in the chain (R118). -/
def State.oldestBuf (s : State) (leaf : Bool) (key : Nat) : Option Buf :=
  (s.bufsOf leaf key).foldl (fun a b =>
    match a with
    | none => some b
    | some x => if b.epoch ≤ x.epoch then some b else a) none

/-- The notes of a tile that wait for a note page of epoch `e` (R129). -/
def State.notesOf (s : State) (t e : Nat) : List Note := (tget (fun _ => []) s.cat.notes t).filter (fun n => n.epoch == e)

/-- The lowest epoch staged or noted on a tile (R118). -/
def State.lowestStaged (s : State) (t : Nat) : Option Nat :=
  ((s.cat.bufs.filter (fun b => s.entryHome b.leaf b.key == t)).map (fun b => b.epoch) ++
    (tget (fun _ => []) s.cat.notes t).map (fun n => n.epoch)).min?

/-- Whether two entries are one, or one of them is a leaf of the other. -/
def sameFolio (leaf : Bool) (key : Nat) (l : Bool) (k : Nat) : Bool :=
  (l == leaf && k == key) || (!leaf && l && k / 16 == key) || (leaf && !l && key / 16 == k)

/-- Whether a note covers some leaf of a folio, or a leaf. -/
def Note.covers (n : Note) (leaf : Bool) (key : Nat) : Bool :=
  if leaf then n.leaf ≤ key && key < n.leaf + n.count else n.leaf < 16 * key + 16 && 16 * key < n.leaf + n.count

/-- Whether a piece of a page holds something of a folio or leaf, its notes too. -/
def PageItem.touches (i : PageItem) (leaf : Bool) (key : Nat) : Bool :=
  (pieceEntry i.piece).any (fun x => sameFolio leaf key x.1 x.2) || i.notes.any (fun n => n.covers leaf key)

/-- Whether an entry's piece is being relocated: it is in what is left of the live set of the tile's victim (R131). -/
def State.relocating (s : State) (t : Nat) (leaf : Bool) (key : Nat) : Bool :=
  match tget (fun _ => none) s.cat.relocs t with
  | some r => decide (r.step < 6) && r.todo.any (fun e => e.2.any (fun i => i.touches leaf key))
  | none => false

/-- Whether a page of the stager that is not programmed yet holds a piece of a folio (R121). -/
def State.programming (s : State) (t : Nat) (leaf : Bool) (key : Nat) : Bool :=
  (s.pagesOf t).any (fun e => !e.2.programmed && !e.2.reloc && e.2.items.any (fun i =>
    (pieceEntry i.piece).any (fun x => sameFolio leaf key x.1 x.2)))

/-- Whether such a page holds notes. -/
def State.notesBusy (s : State) (t : Nat) : Bool :=
  (s.pagesOf t).any (fun e => !e.2.programmed && !e.2.reloc && e.2.items.any (fun i => (pieceEntry i.piece).isNone))

/-- Whether an entry is LOST, or a leaf of a LOST one (R135). -/
def State.pieceLost (s : State) (leaf : Bool) (key : Nat) : Bool :=
  s.lostFolio (if leaf then key / 16 else key) || (s.entry leaf key).place == .lost

/-- Whether a folio is being merged on a tile: a page that merges it is being programmed (R124). -/
def State.merging (s : State) (t f : Nat) : Bool :=
  (s.pagesOf t).any (fun e => e.2.merge && !e.2.programmed && e.2.items.any (fun i => pieceEntry i.piece == some (false, f)))

/-- Leaf groups in use and free on a tile (R109). -/
def State.groupsUsed (s : State) (t : Nat) : Nat := (tget (fun _ => []) s.cat.groups t).length

def State.groupsFree (s : State) (t : Nat) : Nat := 4194304 - s.groupsUsed t

/-- Whether the stager may program a piece in epoch `e`: staged on this tile with that epoch, mapped as the piece says,
and being neither relocated, merged nor in a page that is being programmed (R121, R124, R131). A folio waits for the leaf buffers
it had while it was split; a leaf of a folio that is no longer split needs a free leaf group. A piece of a LOST entry waits for
the scan where its buffer does not hold every line (R119, R135). -/
def State.pieceReady (s : State) (t e : Nat) (p : Piece) : Bool :=
  match (pieceEntry p) with
  | none => !(s.notesOf t e).isEmpty && !s.notesBusy t && ((s.notesOf t e).take 1024).all (fun n =>
      match tget (fun _ => none) s.cat.relocs t with
      | some r => 6 ≤ r.step || r.todo.all (fun x => x.2.all (fun i => match pieceEntry i.piece with
          | some y => !n.covers y.1 y.2
          | none => i.notes.all (fun m => m.leaf + m.count ≤ n.leaf || n.leaf + n.count ≤ m.leaf)))
      | none => true)
  | some (leaf, key) =>
    s.entryHome leaf key == t && !s.programming t leaf key && !s.relocating t leaf key && !s.merging t (if leaf then key / 16 else key) &&
      (if leaf then s.byLeaf (32 * key) || decide (0 < s.groupsFree t)
       else !s.cat.bufs.any (fun b => b.leaf && b.key / 16 == key)) &&
      match s.oldestBuf leaf key with
      | some b => b.epoch == e && (!s.pieceLost leaf key || (entryLines leaf key).all (fun l => (b.line l).isSome))
      | none => false

/-! ## Heat and splitting (R122, R123) -/

def State.heat (s : State) (f : Nat) : Nat := tget (fun _ => 0) s.cat.heat f

def State.warm (f : Nat) (s : State) : State :=
  { s with cat := { s.cat with heat := tset (fun _ => 0) s.cat.heat f (min 255 (s.heat f + 1)) } }

/-- The leaf group a split allocates: a free one. Which is left open; the model takes the lowest (DESIGN CHOICE, assumption
98). -/
def State.freeGroup (s : State) (t : Nat) : Nat :=
  let used := tget (fun _ => []) s.cat.groups t
  ((List.range (used.length + 1)).find? (fun g => !used.contains g)).getD 0

/-- A leaf group is in use. -/
def State.takeGroup (t g : Nat) (s : State) : State :=
  { s with cat := { s.cat with groups := tset (fun _ => []) s.cat.groups t (tget (fun _ => []) s.cat.groups t ++ [g]) } }

/-- A folio buffer cut into the leaf buffers that hold its tracts (R123). -/
def Buf.cut (b : Buf) : List Buf :=
  ((List.range 16).map (fun j =>
    { b with leaf := true, key := 16 * b.key + j, tract := b.tract + j,
             lines := b.lines.filter (fun e => leafOf e.1 == 16 * b.key + j) })).filter (fun x => !x.lines.isEmpty)

/-- A folio becomes SPLIT (R123): it takes a group, its 16 leaf entries point into its current pages, and each leaf takes its
tract of the buffers. Every entry that changes has its undo entry (R125). -/
def State.splitFolio (t f epoch : Nat) (s : State) : State :=
  let old := s.folio f
  let g := s.freeGroup t
  let s1 := (((s.wait (decide (s.groupsFree t = 0))).undo false f epoch).setEntry false f
    { place := .split g, reloc := false }).takeGroup t g
  let s2 := (List.range 16).foldl (fun s j =>
    (s.undo true (16 * f + j) epoch).setEntry true (16 * f + j) { place := leafPlace old.place j, reloc := old.reloc }) s1
  { s2 with cat := { s2.cat with bufs := s2.cat.bufs.flatMap (fun b => if !b.leaf && b.key == f then b.cut else [b]) } }

/-- Whether a folio's heat calls for a split at its next program. -/
def State.splitDue (s : State) (t f : Nat) : Bool :=
  !s.byLeaf (512 * f) && decide (s.field .catCfg t 0 23 16 < s.heat f) && s.field .catCfg t 0 31 31 == 1

/-- The folio of a piece is split if that is due; a split refused for want of free groups is counted. -/
def State.maybeSplit (t epoch : Nat) (p : Piece) (s : State) : State :=
  match (pieceEntry p) with
  | none => s
  | some (leaf, key) =>
    let f := if leaf then key / 16 else key
    if s.splitDue t f && !(s.bufsOf false f).isEmpty then
      if 262144 ≤ s.groupsFree t then (s.splitFolio t f epoch).bump .catSplits t 0 else s.bump .catRefused t 0
    else s

/-- The heat that a program of a piece adds (R122). -/
def State.heatPiece (t : Nat) (p : Piece) (s : State) : State :=
  match p with
  | .folio f _ =>
    let staged := (List.range 16).filter (fun j =>
      (s.oldestBuf false f).any (fun b => b.lines.any (fun e => leafOf e.1 == 16 * f + j)))
    if staged.length < s.field .catCfg t 0 3 0 then s.warm f else s
  | .leaf l _ _ => s.warm (l / 16)
  | .note _ => s

/-! ## Programming (R117 to R121) -/

/-- A line of a piece: from its oldest buffer, otherwise from where its entry points (R119). -/
def State.pieceLine (s : State) (b : Buf) (l : Nat) : Stored :=
  match b.line l with
  | some v => v
  | none =>
    match s.fromPlace l (s.placeOf l) 0 { recon := [], unrec := [] } with
    | .ok v _ _ _ => v
    | .unrec _ _ | .forged _ => { poison := true }

/-- The lines a list of line indices holds, those of zeros left out. -/
def packLines (f : Nat → Stored) (l : List Nat) : Tbl Stored :=
  (l.map (fun i => (i, f i))).filter (fun e => e.2 ≠ {})

/-- A piece as its page holds it, with its KID and the version its lines are encrypted under (R142, R387). -/
def State.pageItem (s : State) (t e : Nat) (p : Piece) : PageItem :=
  match (pieceEntry p) with
  | none =>
    { piece := p, lines := [], kid := 0, ver := 0, notes := (s.notesOf t e).take 1024 }
  | some (leaf, key) =>
    let kid := s.kidOf (if leaf then key / 16 else key)
    { piece := p, kid := kid, ver := (s.kid kid).version, notes := [],
      lines := match s.oldestBuf leaf key with
        | some b => packLines (s.pieceLine b) (entryLines leaf key)
        | none => [] }

/-- The next write sequence of a tile (R120). -/
def State.nextSeq (s : State) (t : Nat) : Nat := tget (fun _ => 0) s.cat.seqs t

/-- A stripe page is laid out in its stripe block and its loads are queued: it takes the tile's next write sequence and the stamp
of now, and its block is in use, and closed by its last page (R120, R144, R162, R181). -/
def State.addPage (t spn epoch : Nat) (reloc merge : Bool) (items : List PageItem) (s : State) : State :=
  let b := spn / s.ppb t
  let s1 := s.openBlock t b
  let s2 := s1.setPage t spn (some
    { epoch := epoch, seq := s1.nextSeq t, reloc := reloc, items := items, programmed := false, merge := merge,
      missing := (List.range 16).filter (fun c => !s1.carries t c ((s1.block t b).member c)),
      wbands := (List.range 16).map (fun c => s1.memberBand t c b), wtime := s1.wtimeNow })
  let s3 := if spn % s.ppb t + 1 = s.ppb t then s2.setBlock t b { s2.block t b with closed := true } else s2
  (({ s3 with cat := { s3.cat with seqs := tset (fun _ => 0) s3.cat.seqs t (s3.nextSeq t + 1) } } : State).showFree
    t).queueLoads t spn

/-- The first notes of an epoch leave the tile's list, once their page is programmed. -/
def State.takeNotes (t e n : Nat) (s : State) : State :=
  { s with cat := { s.cat with
      notes := tset (fun _ => []) s.cat.notes t ((s.notesOf t e).drop n ++
        (tget (fun _ => []) s.cat.notes t).filter (fun n => n.epoch != e)) } }

/-- The oldest buffers of a tile that a write waits for, a write-back on its way or a whole operation, since it would open a third
(R116). -/
def State.urgent (s : State) (t : Nat) : List Buf :=
  s.cat.bufs.filter (fun b => s.entryHome b.leaf b.key == t && s.oldestBuf b.leaf b.key == some b &&
    ((s.cat.want.contains (b.leaf, b.key) && decide (2 ≤ (s.bufsOf b.leaf b.key).length)) || s.net.any (fun m => (m.kind == .evict || m.kind == .writeback) && s.owner m.line == (b.leaf, b.key) &&
      m.content.any (fun c => s.stageWaits m.line c.epoch))))

/-- The epoch of the stripe page the stager programs next: that of a buffer a write-back waits for, otherwise the lowest staged
(R116, R118). -/
def State.programEpoch (s : State) (t : Nat) : Nat :=
  (((s.urgent t).map (fun b => b.epoch)).min?).getD ((s.lowestStaged t).getD s.epo.openE)

/-- The data page positions that pieces leave unfilled (R117). -/
def padsFor (l : List Piece) : Nat := 12 - (((l.flatMap pieceQuarters).map (fun q => q / 4)).eraseDups).length

/-- The stager programs a stripe page with those of the pieces that are ready in its epoch; a page closed early, so that a sealed
epoch can be drained, has pads in the positions left (R118). A buffer that a write-back waits for goes first (R116). It programs
nothing where no piece is ready, the pieces and pads are not one page, or the page cannot be programmed. -/
def State.stripeProgram (t spn : Nat) (pieces : List Piece) (pad : Nat) (s : State) : State :=
  let e := s.programEpoch t
  let s1 := (pieces.filter (fun p => s.pieceReady t e p)).foldl (fun s p => s.maybeSplit t e p) s
  let ready := pieces.filter (fun p => s1.pieceReady t e p)
  let first := (s1.urgent t).isEmpty ||
    ready.any (fun p => (s1.urgent t).any (fun b => pieceEntry p == some (b.leaf, b.key)))
  if ready.isEmpty || !piecesFit ready || !s1.pageFree t spn || !first || pad != padsFor ready ||
      (pad != 0 && decide (s.epo.sealed < e)) then s
  else
    let items := ready.map (fun p => s1.pageItem t e p)
    let s2 := ready.foldl (fun s p => s.heatPiece t p) s1
    (s2.addPage t spn e false false items).count .catPads t 0 31 0 pad

/-- A buffer loses the lines a page has programmed; lines changed since then stay. -/
def Buf.programmed (b : Buf) (i : PageItem) : Buf :=
  { b with lines := b.lines.filter (fun e => e.2 != some (tget (fun _ => {}) i.lines e.1)) }

/-- One piece of a programmed page: its entry points at it, and its buffer is freed (R121, R125). A leaf of a folio that
is no longer SPLIT maps its folio by leaf again, the other leaves UNMAPPED (R127); that it then takes a leaf group, which
CAT_SPLITS does not count, is the model's choice (DESIGN CHOICE, assumption 98). -/
def State.placeItem (t spn epoch : Nat) (i : PageItem) (s : State) : State :=
  match (pieceEntry i.piece) with
  | none => s
  | some (leaf, key) =>
    let s0 := if leaf && !s.byLeaf (32 * key) then s.splitFolio t (key / 16) epoch else s
    let s1 := ((s0.undo leaf key epoch).setEntry leaf key { place := piecePlace spn i.piece, reloc := false }).sweepGroups t
    { s1 with cat := { s1.cat with
        want := s1.cat.want.filter (fun x => x != (leaf, key))
        bufs := (s1.cat.bufs.map (fun b =>
          if b.leaf == leaf && b.key == key && b.epoch == epoch then b.programmed i else b)).filter
            (fun b => !b.lines.isEmpty) } }

/-- The merged folio of a programmed page: its entry becomes MEDIA with an undo entry, which keeps its leaf group until the merge
is durable (R124). One whose folio has taken staged lines or an undo entry since stays split, and the page is dead. -/
def State.mergeDone (t spn : Nat) (i : PageItem) (s : State) : State :=
  match i.piece with
  | .folio f k =>
    if s.byLeaf (512 * f) && !s.cat.bufs.any (fun b => b.covers false f) && !s.hasUndo false f &&
        !(List.range 16).any (fun j => s.hasUndo true (16 * f + j)) then
      let s1 := (s.undo false f (s.stampOf t)).setEntry false f { place := .media spn (4 * k) 0, reloc := true }
      ({ s1 with cat := { s1.cat with mergeDue := s1.cat.mergeDue.filter (fun x => x != f) } } : State).bump .catMerges t 0
    else s
  | .leaf _ _ _ | .note _ => s

/-- A stripe page's program completes, once no member of it is still to be loaded, started or ended (R121, R161, R172). A
relocation's page is complete once it is verified (R131). -/
def State.programDone (t spn : Nat) (s : State) : State :=
  match s.page t spn with
  | none => s
  | some p =>
    if p.programmed || (p.reloc && !p.merge) || s.opsPending t (fun o => o.prog && o.spn == spn) then s
    else
      let s1 := (s.setPage t spn (some { p with programmed := true })).markEighth t spn p
      if p.merge then p.items.foldl (fun s i => s.mergeDone t spn i) s1
      else (p.items.foldl (fun s i => s.placeItem t spn p.epoch i) s1).takeNotes t p.epoch
        (((p.items.map (fun i => i.notes.length)).max?).getD 0)

def execStripeProgram (tile spn : Nat) (pieces : List Piece) (pad : Nat) (s : State) :
    Host.Outcome State Fault Refusal :=
  withUnit (s.hasTile tile) (State.whole fun s =>
    if s.coreRuns tile then s.stripeProgram tile spn pieces pad else s) s

def execStripeProgramDone (tile spn : Nat) (s : State) : Host.Outcome State Fault Refusal :=
  withUnit (s.hasTile tile) (State.whole fun s =>
    if s.coreRuns tile then s.programDone tile spn else s) s

/-! ## Cooling and merging (R122, R124) -/

/-- A cooling sweep halves every heat byte of the tile; split folios that it leaves at or below CAT_CFG.merge_thr are to be merged
(R122, R124). -/
def State.cool (t : Nat) (s : State) : State :=
  let mine (f : Nat) : Bool := homeFolio s.tiles f == t
  let s1 : State := { s with cat := { s.cat with
    heat := tmap (fun _ => 0) (fun f v => if mine f then v / 2 else v) s.cat.heat
    cooledAt := tset (fun _ => 0) s.cat.cooledAt t s.now } }
  let cold := (s.cat.folios.map (fun e => e.1)).filter (fun f =>
    mine f && s1.byLeaf (512 * f) && decide (s1.heat f ≤ s1.field .catCfg t 0 15 8))
  { s1 with cat := { s1.cat with mergeDue := s1.cat.mergeDue.filter (fun f => !mine f) ++ cold } }

/-- Whether a tile's next sweep is due: 2 ^ CAT_CFG.cool_log s of part time after its last (R122). -/
def State.coolDue (s : State) (t : Nat) : Bool :=
  decide (tget (fun _ => 0) s.cat.cooledAt t + 2 ^ s.field .catCfg t 0 7 4 * 1000000000 ≤ s.now)

def execCoolingSweep (tile : Nat) (s : State) : Host.Outcome State Fault Refusal :=
  withUnit (s.hasTile tile) (fun s => if s.coreRuns tile && s.coolDue tile then s.cool tile else s) s

/-- The conditions of a merge (R124): no leaf has staged lines, no undo entry, none is LOST (R135), and nothing of the folio is being
relocated. -/
def State.mergeClear (s : State) (t f : Nat) : Bool :=
  homeFolio s.tiles f == t && s.byLeaf (512 * f) && !s.cat.bufs.any (fun b => b.covers false f) && !s.hasUndo false f &&
    !(List.range 16).any (fun j => s.hasUndo true (16 * f + j) || s.pieceLost true (16 * f + j)) && !s.relocating t false f &&
    !s.merging t f

/-- The coldest split folio of a tile. -/
def State.coldest (s : State) (t f : Nat) : Bool :=
  s.cat.folios.all (fun e => homeFolio s.tiles e.1 != t || !s.byLeaf (512 * e.1) || decide (s.heat f ≤ s.heat e.1))

/-- Whether a split folio may merge now: the last sweep left it cold, or few groups are free and it is the coldest (R124). -/
def State.mergeable (s : State) (t f : Nat) : Bool :=
  s.mergeClear t f && (s.cat.mergeDue.contains f || (decide (s.groupsFree t < 524288) && s.coldest t f))

/-- The highest original epoch among a folio's leaves on media. -/
def State.leafEpoch (s : State) (t f : Nat) : Nat :=
  ((List.range 16).map (fun j =>
    match (s.leaf (16 * f + j)).place with
    | .media p _ _ => ((s.page t p).map (fun x => x.epoch)).getD 0
    | .unmapped | .split _ | .lost => 0)).foldl max 0

/-- A folio's leaves as one piece of a page (R124 step 1). -/
def State.mergeItem (s : State) (f slot : Nat) : PageItem :=
  let kid := s.kidOf f
  { piece := .folio f slot, kid := kid, ver := (s.kid kid).version, notes := [],
    lines := packLines (fun l => match s.fromPlace l (s.leaf (leafOf l)).place 0 { recon := [], unrec := [] } with
      | .ok v _ _ _ => v
      | .unrec _ _ | .forged _ => { poison := true }) (entryLines false f) }

/-- Background reads of quarters of a stripe page (R131 step 2, R159): eight codewords each, from the member that holds them, or
from every other one where that member cannot be read. -/
def State.queueReads (t src : Nat) (quarters : List Nat) (s : State) : State :=
  let b := src / s.ppb t
  quarters.foldl (fun (s : State) q =>
    let c := dataChan src (q / 4)
    let from' := if s.carries t c ((s.block t b).member c) then [c] else s.available t src
    from'.foldl (fun (s : State) c =>
      let h := s.chan t c
      s.setChan t c { h with back := h.back ++ (List.range 8).map (fun k =>
        { kind := .weed, block := (s.block t b).member c, spn := src, unit := 8 * (q % 4) + k }) }) s) s

/-- The leaves of a folio are read for its merge (R124 step 1). -/
def State.queueMergeReads (t f : Nat) (s : State) : State :=
  (List.range 16).foldl (fun s j =>
    match (s.leaf (16 * f + j)).place with
    | .media spn pos q => s.queueReads t spn [4 * pos + q]
    | .unmapped | .split _ | .lost => s) s

/-! ## What the headers say of a leaf (R137, R386) -/

/-- The binding sequence of a folio's region on a tile (R386). -/
def State.bindSeq (s : State) (t f : Nat) : Nat :=
  match s.cry.regions.find? (fun r => r.base ≤ f && f < r.base + r.units) with
  | some r => tget (fun _ => 0) r.bind t
  | none => 0

/-- Where the header scan finds a leaf, by the sequence of each page that covers it. -/
def State.covering (s : State) (t limit l : Nat) : List (Nat × Place) :=
  (s.pagesOf t).flatMap (fun e =>
    if e.2.programmed && e.2.epoch ≤ limit && s.bindSeq t (l / 16) ≤ e.2.seq then
      e.2.items.filterMap (fun i =>
        match i.piece with
        | .folio f k => if f == l / 16 then some (e.2.seq, leafPlace (.media e.1 (4 * k) 0) (l % 16)) else none
        | .leaf x p q => if x == l then some (e.2.seq, .media e.1 p q) else none
        | .note _ => if i.notes.any (fun n => n.leaf ≤ l && l < n.leaf + n.count) then some (e.2.seq, .unmapped)
            else none)
    else [])

/-! ## Weeding (R130 to R134) -/

/-- A folio whose KID is RETIRED: its media pieces are dead to the weeder (R389). -/
def State.retiredFolio (s : State) (f : Nat) : Bool := (s.kid (s.kidOf f)).st == .retired

/-- The places that a piece's entry or, for a folio, its leaf entries may name on a page. -/
def State.pointsAt (s : State) (spn : Nat) (p : Piece) : List (Bool × Nat) :=
  match p with
  | .folio f k =>
    if s.retiredFolio f then []
    else if (s.folio f).place = .media spn (4 * k) 0 then [(false, f)]
    else if s.byLeaf (512 * f) then
      ((List.range 16).filter (fun j => (s.leaf (16 * f + j)).place = .media spn (4 * k + j / 4) (j % 4))).map
        (fun j => (true, 16 * f + j))
    else []
  | .leaf l a b =>
    if !s.retiredFolio (l / 16) && s.byLeaf (32 * l) && (s.leaf l).place = .media spn a b then [(true, l)] else []
  | .note _ => []

/-- The runs of leaves from `a` on, out of `n`, that `w` holds for. -/
def winRuns (w : Nat → Bool) (a n : Nat) : List (Nat × Nat) :=
  ((List.range n).foldl (fun (l : List (Nat × Nat)) i =>
    if !w (a + i) then l
    else
      match l with
      | (x, k) :: r => if x + k = a + i then (x, k + 1) :: r else (a + i, 1) :: l
      | [] => [(a + i, 1)]) []).reverse

/-- What is live of the notes of a page: the leaves for which they are still the newest piece (R129). -/
def State.liveNotes (s : State) (t seq : Nat) (i : PageItem) : List Note :=
  i.notes.flatMap (fun n => (winRuns (fun l => (s.covering t (2 ^ 64) l).all (fun x => decide (x.1 ≤ seq))) n.leaf n.count).map
    (fun r => { n with leaf := r.1, count := r.2 }))

/-- The live notes of a page. -/
def State.pageNotes (s : State) (t : Nat) (p : Page) : List Note := p.items.flatMap (fun i => s.liveNotes t p.seq i)

/-- The live pieces of a page, with the entries that point at them. -/
def State.livePieces (s : State) (spn : Nat) (p : Page) : List (Bool × Nat) :=
  p.items.flatMap (fun i => s.pointsAt spn i.piece)

/-- Whether a page holds live pieces of KID `k` under its previous version (R387, R388). -/
def State.underOld (s : State) (t k spn : Nat) (p : Page) : Bool :=
  decide (p.seq < tget (fun _ => 0) (s.kid k).rotSeq t) &&
    (s.livePieces spn p).any (fun x => s.kidOf (if x.1 then x.2 / 16 else x.2) == k)

/-- CRY_KID_OLD (R388). -/
def State.kidOld (s : State) (t k : Nat) : Nat := ((s.pagesOf t).filter (fun e => s.underOld t k e.1 e.2)).length

/-- The KIDs that are ROTATING. -/
def State.rotatingKids (s : State) : List Nat :=
  (List.range 256).filter (fun k => (s.kid k).st == .rotating)

/-- The pages of a stripe block. -/
def State.blockPages (s : State) (t b : Nat) : List (Nat × Page) :=
  (s.pagesOf t).filter (fun e => e.1 / s.ppb t == b)

/-- Live bytes of a stripe block: its pieces, and 16 for each live note (R129, R130). -/
def State.liveBytes (s : State) (t b : Nat) : Nat :=
  (s.blockPages t b).foldl (fun a e =>
    (s.livePieces e.1 e.2).foldl (fun a x => a + if x.1 then 4096 else 65536) (a + 16 * (s.pageNotes t e.2).length)) 0

/-- Whether an undo entry names a page of a block as its old value. -/
def State.undoPoints (s : State) (t b : Nat) : Bool :=
  s.cat.undo.any (fun u => match u.old.place with
    | .media spn _ _ => s.entryHome u.leaf u.key == t && spn / s.ppb t == b
    | .unmapped | .split _ | .lost => false)

/-- A victim candidate (R130): closed or degraded, and every referenced piece relocatable; its live notes are of epochs up to D
(R131), and no entry or table that says what is live in it is lost (R135, R378). -/
def State.candidate (s : State) (t b : Nat) : Bool :=
  let v := s.block t b
  !v.free && (v.closed || v.degraded) && !s.undoPoints t b && !s.lostPage t (b * s.ppb t) b &&
    (s.blockPages t b).all (fun e => e.2.programmed &&
      e.2.items.all (fun i => (pieceEntry i.piece).all (fun x => !s.pieceLost x.1 x.2)) && (s.livePieces e.1 e.2).all (fun x =>
      !s.hasUndo x.1 x.2 && !(x.1 && s.hasUndo false (x.2 / 16))) &&
        (s.pageNotes t e.2).all (fun n => decide (n.epoch ≤ s.epo.durable)))

/-- The oldest write sequence of a block. -/
def State.oldestSeq (s : State) (t b : Nat) : Nat := ((s.blockPages t b).map (fun e => e.2.seq)).min?.getD 0

/-- Whether weeding runs by free capacity (R133): below hi_water, in 0.1 % of the tile's data capacity. -/
def State.lowWater (s : State) (t : Nat) : Bool :=
  decide (s.reg .catFree t 0 * 2 ^ 20 * 1000 < s.field .catPace t 0 23 16 * s.goodCapacity t)

/-- Erase counts on a channel spread beyond MED_CFG.wear_spread, and block `b` holds its least-erased block (R181). -/
def State.wearVictim (s : State) (t b : Nat) : Bool :=
  (List.range 16).any (fun c =>
    decide (s.field .medCfg t 0 15 0 < s.spreadOn t c) &&
      (s.mblock t c ((s.block t b).member c)).erases == s.leastErased t c)

/-- A block that holds live pieces under a previous key version is rewritten (R388). -/
def State.rotVictim (s : State) (t b : Nat) : Bool :=
  s.rotatingKids.any (fun k => (s.blockPages t b).any (fun e => s.underOld t k e.1 e.2))

/-- Whether the weeder takes a block as its victim: degraded ones ahead of all other weeding, then those scheduled for rewrite, by
wear or for a key rotation, and, below hi_water, the one with the fewest live bytes and the oldest sequence (R130, R178, R181,
R183, R388). -/
def State.victimOk (s : State) (t b : Nat) : Bool :=
  let v := s.block t b
  let cands := (s.blocksOf t).filter (fun e => s.candidate t e.1)
  let best := cands.all (fun e =>
    decide (s.liveBytes t b < s.liveBytes t e.1 ∨
      (s.liveBytes t b = s.liveBytes t e.1 ∧ s.oldestSeq t b ≤ s.oldestSeq t e.1)))
  s.candidate t b && (v.degraded || (!cands.any (fun e => e.2.degraded) &&
    (v.scheduled || s.wearVictim t b || s.rotVictim t b || (s.lowWater t && best))))

/-- Whether a degraded stripe block can be relocated: its pieces go ahead of all other weeding (R183). -/
def State.degradedWaits (s : State) (t : Nat) : Bool := (s.blocksOf t).any (fun e => e.2.degraded && s.candidate t e.1)

/-- A folio's leaves are programmed as one slot with the reloc flag and the highest original epoch among them, under the weeding
budget (R124, R134); its entry changes once the program has completed. -/
def State.mergeFolio (t f spn slot : Nat) (s : State) : State :=
  if s.mergeable t f && s.pageFree t spn && s.weedReady t && !s.degradedWaits t then
    ((s.queueMergeReads t f).addPage t spn (s.leafEpoch t f) true true [s.mergeItem f slot]).weedSpent t
  else s

def execFolioMerge (tile folio spn slot : Nat) (s : State) : Host.Outcome State Fault Refusal :=
  withUnit (s.hasTile tile) (fun s =>
    if s.coreRuns tile then s.mergeFolio tile folio spn (slot % 3) else s) s

/-- The live pieces of a page: each at the place it had; a folio slot whose folio entry has moved to leaves is copied leaf by leaf
(R130). -/
def State.copyItems (s : State) (spn : Nat) (p : Page) : List PageItem :=
  p.items.flatMap (fun i =>
    match i.piece with
    | .note _ => []
    | .folio f k =>
      if !s.retiredFolio f && (s.folio f).place = .media spn (4 * k) 0 then [i]
      else (s.pointsAt spn i.piece).map (fun x =>
        let j := x.2 % 16
        { i with piece := .leaf x.2 (4 * k + j / 4) (j % 4), lines := i.lines.filter (fun e => leafOf e.1 == x.2) })
    | .leaf _ _ _ => if (s.pointsAt spn i.piece).isEmpty then [] else [i])

/-- Notes in lists of up to 1,024, one for each note page (R129). -/
def notePages : Nat → List Note → List (List Note)
  | 0, _ => []
  | fuel + 1, l => if l.isEmpty then [] else l.take 1024 :: notePages fuel (l.drop 1024)

/-- The note pages that the live notes of a victim are compacted into, with the page of the first of them (R129). -/
def State.noteCopies (s : State) (t b : Nat) : List (Nat × List PageItem) :=
  let notes := (s.blockPages t b).flatMap (fun e => s.pageNotes t e.2)
  match (s.blockPages t b).find? (fun e => !(s.pageNotes t e.2).isEmpty) with
  | some e => (notePages notes.length notes).map (fun l =>
      (e.1, [{ piece := .note 0, lines := [], kid := 0, ver := 0, notes := l }]))
  | none => []

/-- The live set of a victim, fixed when it is selected (R131 step 1): what is to be copied of each of its pages, then its notes. -/
def State.liveSet (s : State) (t b : Nat) : List (Nat × List PageItem) :=
  ((s.blockPages t b).map (fun e => (e.1, s.copyItems e.1 e.2))).filter (fun e => !e.2.isEmpty) ++ s.noteCopies t b

/-- A piece as its copy is programmed: its lines are encrypted anew under the current version of its KID (R382). -/
def State.recrypted (s : State) (i : PageItem) : PageItem :=
  if i.notes.isEmpty then { i with ver := (s.kid i.kid).version } else i

/-- The original epoch of a copied page: the highest of its pieces', those of a source page of epoch `e` and its notes' own (R131
step 3). -/
def copyEpoch (e : Nat) (items : List PageItem) : Nat :=
  (items.map (fun i => if i.notes.isEmpty then e else (i.notes.map (fun n => n.epoch)).foldl max 0)).foldl max 0

/-- What is left to copy of a victim: the tile's relocation of it, or its live set where none has begun (R131). -/
def State.toCopy (s : State) (t b : Nat) : List (Nat × List PageItem) :=
  match tget (fun _ => none) s.cat.relocs t with
  | some r => r.todo
  | none => s.liveSet t b

/-- Relocated bytes that a victim costs per byte freed, in 1/256 (R134). -/
def State.victimRatio (s : State) (t b : Nat) : Nat :=
  let all := 12 * 16384 * s.ppb t
  if all ≤ s.liveBytes t b then 65535 else 256 * s.liveBytes t b / (all - s.liveBytes t b)

/-- The relocation of a tile is noted. -/
def State.setReloc (t : Nat) (r : Option Reloc) (s : State) : State :=
  { s with cat := { s.cat with relocs := tset (fun _ => none) s.cat.relocs t r } }

/-- One copy of a relocation: the next page of the victim's live set is read and programmed to a destination page with the reloc
flag, its original epoch and a new sequence, under the weeding budget (R131 steps 1 to 3, R134). A victim with nothing live goes on
to its erase. -/
def State.relocate (t victim dest spn : Nat) (s : State) : State :=
  let cur := tget (fun _ => none) s.cat.relocs t
  let going := match cur with
    | some r => r.victim == victim && r.step == 5
    | none => s.victimOk t victim
  let todo := s.toCopy t victim
  let r : Reloc := { victim := victim, dest := dest, src := 0, spn := 0, step := 6, todo := todo, own := cur.any (fun r => r.own) }
  if !going || !s.pageFree t spn || spn / s.ppb t != dest || dest == victim || !s.weedReady t then s
  else
    let s1 := if cur.isNone then s.showRate t (s.victimRatio t victim) else s
    match todo with
    | [] => (s1.setReloc t (some r)).queueErase t victim
    | (src, items) :: _ =>
      let l := items.map s.recrypted
      (((s1.queueReads t src (l.flatMap (fun i => pieceQuarters i.piece))).addPage t spn
        (copyEpoch (((s.page t src).map Page.epoch).getD 0) l) true false l).setReloc t
          (some { r with src := src, spn := spn, step := 3 })).weedSpent t

def execWeedRelocate (tile victim dest spn : Nat) (s : State) : Host.Outcome State Fault Refusal :=
  withUnit (s.hasTile tile) (fun s =>
    if s.coreRuns tile then s.relocate tile victim dest spn else s) s

/-- The entries that a page's pieces may be named by: a folio's, and its leaves'. -/
def Page.entries (p : Page) : List (Bool × Nat) :=
  (p.items.flatMap (fun i =>
    match i.piece with
    | .folio f _ => (false, f) :: (List.range 16).map (fun j => (true, 16 * f + j))
    | .leaf l _ _ => [(true, l)]
    | .note _ => [])).eraseDups

/-- An entry that still names the source page names its copy, in the Catalogue cache (R114, R131 step 5). -/
def State.repointEntry (t src dst : Nat) (e : Bool × Nat) (s : State) : State :=
  match (s.entry e.1 e.2).place with
  | .media spn pos q =>
    if spn == src && s.entryHome e.1 e.2 == t then s.setEntry e.1 e.2 { place := .media dst pos q, reloc := true } else s
  | .unmapped | .split _ | .lost => s

/-- Every entry, and every old value of an undo entry, that still names a piece of the source page names its copy
(R131 step 5). -/
def State.repoint (t src dst : Nat) (p : Page) (s : State) : State :=
  let s1 := p.entries.foldl (fun s e => s.repointEntry t src dst e) s
  let old (u : Undo) : Undo :=
    match u.old.place with
    | .media spn pos q =>
      if spn == src && s.entryHome u.leaf u.key == t && p.entries.contains (u.leaf, u.key) then
        { u with old := { place := .media dst pos q, reloc := true } }
      else u
    | .unmapped | .split _ | .lost => u
  { s1 with cat := { s1.cat with undo := s1.cat.undo.map old } }

/-- A copy is verified: the page counts as programmed, its pieces' entries name it, and the victim is erased where nothing of its
live set is left (R131 steps 4 to 6). -/
def State.copyDone (t : Nat) (r : Reloc) (p : Page) (s : State) : State :=
  let s1 := (s.setPage t r.spn (some { p with programmed := true })).markEighth t r.spn p
  let done := (s1.repoint t r.src r.spn p).bump .catRelocs t 0
  if r.todo.tail.isEmpty then
    (done.setReloc t (some { r with step := 6, todo := [] })).queueErase t r.victim
  else done.setReloc t (some { r with step := 5, todo := r.todo.tail })

/-- A stripe page whose program has failed holds nothing and is not programmed again (R182). -/
def State.failPage (t spn : Nat) (s : State) : State :=
  match s.page t spn with
  | none => s
  | some p =>
    if p.programmed then s
    else
    let b := spn / s.ppb t
    ((s.setPage t spn none).setBlock t b { s.block t b with burnt := spn :: (s.block t b).burnt }).showFree t

/-- A page that a relocation programs has failed: the copy is made again on another stripe page, and read-only entry by the spare that
this costs waits for its last step (R132). -/
def State.copyAgain (t spn : Nat) (s : State) : State :=
  match tget (fun _ => none) s.cat.relocs t with
  | some r =>
    if r.spn = spn && r.step == 3 then (s.setReloc t (some { r with step := 5, own := true })).bump .catDestFail t 0 else s
  | none => s

/-- Read-only entry waits only where a relocation's own destination has brought the spare to its floor (R132). -/
def State.settleOwn (t : Nat) (s : State) : State :=
  match tget (fun _ => none) s.cat.relocs t with
  | some r => if r.own && !s.spareGone t then s.setReloc t (some { r with own := false }) else s
  | none => s

/-- A destination page has failed its read-back: its block is retired (R132). Neither the cause of its record 0x2003 nor whether
MED_PFAIL counts it is stated; the model records cause 1 and does not count it (DESIGN CHOICE, assumption 98). -/
def State.copyFailed (t c : Nat) (r : Reloc) (s : State) : State :=
  (((s.copyAgain t r.spn).failPage t r.spn).retireBlock t c ((s.block t (r.spn / s.ppb t)).member c) 1).settleOwn t

/-- The destination is read back and verified once its program has ended, or has failed; on which channel is a free value (R131
steps 4 and 5, R132). -/
def State.verified (t : Nat) (ok : Bool) (s : State) : State :=
  match tget (fun _ => none) s.cat.relocs t with
  | none => s
  | some r =>
    match s.page t r.spn with
    | none => s
    | some p =>
      if r.step != 3 || s.opsPending t (fun o => o.prog && o.spn == r.spn) then s
      else if ok then s.copyDone t r p
      else (s.drawn 1).copyFailed t ((Config.free s.freeCtr).toNat % 16) r

def execRelocVerifyDone (tile : Nat) (ok : Bool) (s : State) : Host.Outcome State Fault Refusal :=
  withUnit (s.hasTile tile) (fun s =>
    if s.coreRuns tile then s.verified tile ok else s) s

/-- Every page of a stripe block is gone and its good members are free again, their erase counts one higher (R131
steps 6 and 7, R172, R183). No rule says whether an erase clears the count of senses; the model clears it (DESIGN CHOICE,
assumption 98). -/
def State.freeBlock (t b : Nat) (s : State) : State :=
  let v := s.block t b
  let s1 := (List.range 16).foldl (fun (s : State) c =>
    let m := s.mblock t c (v.member c)
    s.setMblock t c (v.member c)
      { m with marks := [], erases := m.erases + 1, senses := some 0, corrBits := 0, uncal := false }) s
  let s2 : State := { s1 with cat := { s1.cat with
    pages := tdrop (fun k => k / 2 ^ 28 == t && k % 2 ^ 28 / s.ppb t == b) s1.cat.pages } }
  ((((s2.setBlock t b {}).showFree t).showDegraded t).showUncal t).showWear t

/-- The member blocks of a dissolved stripe block that lie on failed targets are retired (R183). Which cause their record 0x2003
carries is left open: the model writes 3 (DESIGN CHOICE, assumption 98). -/
def State.retireFailed (t : Nat) (v : StripeBlock) (s : State) : State :=
  (List.range 16).foldl (fun (s : State) c =>
    if s.targetFailed t c (v.member c) then s.retireBlock t c (v.member c) 3 else s) s

/-- The victim is erased once nothing live remains in it; an erase that failed retires one of its member blocks, a free
value saying on which channel. -/
def State.erased (t : Nat) (ok : Bool) (s : State) : State :=
  match tget (fun _ => none) s.cat.relocs t with
  | none => s
  | some r =>
    if r.step != 6 || s.opsPending t (fun o => !o.prog && o.spn == r.victim * s.ppb t) then s
    else
      let c := (Config.free s.freeCtr).toNat % 16
      let s1 := if ok then s else
        ((s.drawn 1).bump .medEfail t 0).retireBlock t c ((s.block t r.victim).member c) 2
      let s2 : State := { s1 with cat := { s1.cat with relocs := tset (fun _ => none) s1.cat.relocs t none } }
      ((s2.freeBlock t r.victim).retireFailed t (s.block t r.victim)).spareCheck t

def execRelocEraseDone (tile : Nat) (ok : Bool) (s : State) : Host.Outcome State Fault Refusal :=
  withUnit (s.hasTile tile) (fun s =>
    if s.coreRuns tile then s.erased tile ok else s) s

/-! ## Scans of the media (R135 to R138, R387) -/

/-- The page with the newest sequence wins a leaf (R137 step 3). -/
def newest (l : List (Nat × Place)) : Place :=
  (l.foldl (fun (a : Option (Nat × Place)) x =>
    match a with
    | none => some x
    | some y => if y.1 < x.1 then some x else a) none).elim .unmapped (fun x => x.2)

/-- The entry of a folio by the places of its 16 leaves: MEDIA where one folio slot wins them all, UNMAPPED where
nothing does, otherwise SPLIT (R137 step 4). -/
def scanFolio (w : Nat → Place) (group : Nat) (isSlot : Nat → Nat → Bool) : Place :=
  match w 0 with
  | .media spn pos 0 =>
    if pos % 4 = 0 && isSlot spn pos && (List.range 16).all (fun j => w j == .media spn (pos + j / 4) (j % 4)) then
      .media spn pos 0
    else .split group
  | .media _ _ _ | .split _ | .lost => .split group
  | .unmapped => if (List.range 16).all (fun j => w j == .unmapped) then .unmapped else .split group

/-- A folio's entries as the headers give them, from pages of epochs up to `limit`. -/
def State.scanEntry (t limit f : Nat) (s : State) : State :=
  let w (j : Nat) : Place := newest (s.covering t limit (16 * f + j))
  let isSlot (spn pos : Nat) : Bool :=
    match s.page t spn with
    | some p => p.items.any (fun i => i.piece == .folio f (pos / 4))
    | none => false
  let g := s.freeGroup t
  let pl := scanFolio w g isSlot
  match pl with
  | .split _ =>
    let s1 := (s.setEntry false f { place := pl }).takeGroup t g
    (List.range 16).foldl (fun s j => s.setEntry true (16 * f + j) { place := w j }) s1
  | .unmapped | .media _ _ _ | .lost => s.setEntry false f { place := pl }

/-- The LOST leaf entries of a split folio as the headers give them. -/
def State.scanLeaves (t limit f : Nat) (s : State) : State :=
  (List.range 16).foldl (fun (s : State) j =>
    if (s.leaf (16 * f + j)).place == .lost then
      s.setEntry true (16 * f + j) { place := newest (s.covering t limit (16 * f + j)) }
    else s) s

/-- The folios that some page of a tile names. -/
def State.namedFolios (s : State) (t : Nat) : List Nat :=
  ((s.pagesOf t).flatMap (fun e => e.2.items.filterMap (fun i => (pieceEntry i.piece).map (fun x =>
    if x.1 then x.2 / 16 else x.2)))).eraseDups

/-- The scan of lost ranges completes: the covered entries that nothing has set since, and the tables, become exact; its duration is a
reading (R135, R140, R378). -/
def State.lostScanDone (t : Nat) (s : State) : State :=
  let mine (f : Nat) : Bool := homeFolio s.tiles f == t
  let fs := ((s.namedFolios t) ++ s.cat.folios.map (fun e => e.1)).eraseDups.filter mine
  let s1 := fs.foldl (fun s f =>
    if s.lostFolio f || (s.folio f).place == .lost then s.scanEntry t (2 ^ 64) f
    else if s.byLeaf (512 * f) then s.scanLeaves t (2 ^ 64) f else s) s
  (((({ s1 with
      cat := { s1.cat with lost := s1.cat.lost.filter (fun r => r.1 / 2 ^ 33 != t),
                           found := s1.cat.found.filter (fun f => !mine f) }
      cry := { s1.cry with lostList := tdrop (fun k => k / 2 == t) s1.cry.lostList } } : State).sweepGroups t).putField
    .catRbld t 0 30 30 0).drawn 1).putField .catRbld t 0 15 0 ((Config.free s1.freeCtr).toNat % 65536)

/-- Whether summaries or block records are still to be read on a tile (R135, R159, R378). -/
def State.scanWaits (s : State) (t : Nat) : Bool :=
  (List.range 16).any (fun c => (s.chan t c).back.any (fun w => w.kind == .summary || w.kind == .block))

def execLostScanDone (tile : Nat) (s : State) : Host.Outcome State Fault Refusal :=
  withUnit (s.hasTile tile) (fun s => if s.coreRuns tile && !s.scanWaits tile then s.lostScanDone tile else s) s

/-- D as a boot finds it: the lowest over tiles of the highest marker (R106). -/
def State.bootD (s : State) : Nat := s.lowMarker

/-- A page of an epoch above D is dead from now on (R104, R137 step 2). -/
def State.killPages (t d : Nat) (s : State) : State :=
  { s with cat := { s.cat with
      pages := s.cat.pages.map (fun e => (e.1, e.2.map (fun p =>
        if e.1 / 2 ^ 28 == t && d < p.epoch then { p with items := [] } else p))) } }

/-- A stripe page whose program a reset cut short does not count as programmed: it holds nothing (R148). -/
def State.killUnprogrammed (t : Nat) (s : State) : State :=
  ((s.pagesOf t).filter (fun e => !e.2.programmed)).foldl (fun s e => s.failPage t e.1) s

/-- A header window of the boot scan: READ_CW of a whole header area, and its slots (R158, R501). -/
def State.headerWindow (t c spn : Nat) (s : State) : State :=
  ((s.sendBlock t c ((s.block t (spn / s.ppb t)).member c) .readCw (spn % s.ppb t) 33 []).topDown t (8 + c) 0
    (BackKind.header.slots (s.chan t c).rate)).ownBits t c (spn / s.ppb t)

/-- The header area of every page of a tile is read, on each channel that holds one (R137 step 2, R158). -/
def State.readHeaders (t : Nat) (s : State) : State :=
  (s.pagesOf t).foldl (fun (s : State) e =>
    (List.range 16).foldl (fun (s : State) c => if e.2.missing.contains c then s else s.headerWindow t c e.1) s) s

/-- Which members of a stripe page have a header whose summary and body both fail to decode is a free value: its headers come from
another member, and where no member's decode the page is ignored (R148). -/
def State.killUnread (t : Nat) (s : State) : State :=
  (s.pagesOf t).foldl (fun (s : State) e =>
    let s1 := s.drawn 1
    if (List.range 16).all (fun c => e.2.missing.contains c || (Config.free s.freeCtr).getLsbD c) then
      s1.setPage t e.1 (some { e.2 with items := [] })
    else s1) s

/-- The marks of a tile's member blocks as the headers of its stripe pages give them, oldest page first (R172). -/
def State.restoreMarks (t : Nat) (s : State) : State :=
  let s1 : State := { s with med := { s.med with
    mblocks := tmap (fun _ => {}) (fun k b => if k / 2 ^ 36 == t then { b with marks := [] } else b) s.med.mblocks } }
  let l := (s1.pagesOf t).filter (fun e => e.2.programmed)
  l.foldl (fun s e => s.markEighth t e.1 e.2) s1

/-- The full scan of one tile (R137): entries from the winners, sequence one above the highest, heat, undo log and
staging empty; every block's age is unknown and its sense count starts at half the threshold (R176, R179). Its duration
is a reading. -/
def State.rebuildScan (t : Nat) (s : State) : State :=
  let d := s.bootD
  let s1 := (((s.readHeaders t).killPages t d).killUnprogrammed t).killUnread t
  let mine (leaf : Bool) (k : Nat) : Bool := s1.entryHome leaf k == t
  let s2 : State := { s1 with cat := { s1.cat with
    folios := tdrop (mine false) s1.cat.folios
    leaves := tdrop (mine true) s1.cat.leaves
    heat := tdrop (mine false) s1.cat.heat
    undo := s1.cat.undo.filter (fun u => !mine u.leaf u.key)
    bufs := s1.cat.bufs.filter (fun b => !mine b.leaf b.key)
    groups := tset (fun _ => []) s1.cat.groups t []
    notes := tset (fun _ => []) s1.cat.notes t []
    relocs := tset (fun _ => none) s1.cat.relocs t none
    cache := tdrop (fun k => k / catSets == t) s1.cat.cache
    mergeDue := s1.cat.mergeDue.filter (fun f => !mine false f)
    lost := s1.cat.lost.filter (fun r => r.1 / 2 ^ 33 != t)
    found := s1.cat.found.filter (fun f => !mine false f)
    seqs := tset (fun _ => 0) s1.cat.seqs t (((s1.pagesOf t).map (fun e => e.2.seq + 1)).max?.getD 0) } }
  let s3 := ((s2.namedFolios t).foldl (fun s f => s.scanEntry t d f) s2).restoreMarks t
  let native := !s.pwr.straps.profile
  let s4 : State := { s3 with med := { s3.med with
    mblocks := tmap (fun _ => {}) (fun k b =>
      if k / 2 ^ 36 == t then
        { b with uncal := native && !b.marks.isEmpty, senses := none }
      else b) s3.med.mblocks
    spares := tset (fun _ => {}) s3.med.spares t { s3.spare t with senseBase := s.field .medCfg t 0 31 16 * 500 } } }
  let s5 := ((((s4.drawn 1).putReg .catRbld t 0 ((Config.free s4.freeCtr).toNat % 65536)).putReg .catRate t 0
    (500 * 65536)).showUncal t).showFree t
  { s5 with pwr := { s5.pwr with scanned := if s5.pwr.scanned.contains t then s5.pwr.scanned else s5.pwr.scanned ++ [t] } }

/-- A tile's scan runs during a boot that needs one (R136). -/
def execRebuildScan (tile : Nat) (s : State) : Host.Outcome State Fault Refusal :=
  withUnit (s.hasTile tile) (fun s => if s.pwr.scanning then s.rebuildScan tile else s) s

end Sys2Proof.Machine
end

