-- ==== Sys2Proof/Machine/Coherence.lean ====
section
/-! DEFINITION. The coherence protocol message by message: requests and misses, the home's transactions, conflicts and
tickets, snoops and their answers, evictions and write-backs (R195 to R219, R226). -/

namespace Sys2Proof.Machine

/-! ## Requests (R195, R202, R208) -/

/-- The number of the miss entry that a request takes: agent entries are 0 to 255, stream ones follow (R195). Which free one is left
open; the model takes the lowest (DESIGN CHOICE, assumption 98). -/
def State.freeEntryNum (s : State) (t : Nat) (stream : Bool) : Nat :=
  let used := s.coh.miss.filterMap (fun e => if e.1 / 2 ^ 42 == t then e.2.map Miss.num else none)
  let low := if stream then 256 else 0
  (((List.range (used.length + 1)).map (· + low)).find? (fun n => !used.contains n)).getD low

/-- A request takes a miss entry and is sent. It waits in the entry while the tile itself holds the line in EV (R214) or while its
home is under a TILE reset (R222). A line in S is held for its UPGRADE or CLAIM (R201). -/
def State.allot (t line : Nat) (k : ReqKind) (stream reserved : Bool) (s : State) : State :=
  let v := s.nc t line
  let wait := v.st == .ev || !s.tileRuns (s.home line)
  let s0 := if v.st == .s && (k == .upgrade || k == .claim) then s.setNc t line { v with up := true } else s
  let s1 := (s0.setMiss t line (some { num := s0.freeEntryNum t stream, kind := k, stream, reserved, refusals := 0, ticketed := false, waiting := wait,
                                       nackAt := none })).pmcEdge t 0x03 0
  let s2 := if !stream && s1.missCount t false == 256 then s1.pmcEdge t 0x0D 0 else s1
  if wait then s2 else s2.sendReq t line k

/-- A miss of a tile: it joins an entry the line already has; otherwise it takes one, or waits until one is free (R195). -/
def State.issue (t line : Nat) (k : ReqKind) (stream reserved : Bool) (s : State) : State :=
  if (s.missOf t line).isSome || s.coh.waits.any (fun w => w.tile == t && w.line == line) then s
  else if !stream && s.missFull t reserved then
    { s with coh := { s.coh with waits := s.coh.waits ++ [{ tile := t, line, kind := k, reserved }] } }
  else s.allot t line k stream reserved

/-- A miss entry is freed, and the oldest request of the tile that waited for one takes it: a refill first (R195, R226). -/
def State.freeMiss (t line : Nat) (s : State) : State :=
  let s1 := s.setMiss t line none
  let mine := s1.coh.waits.filter (fun w => w.tile == t && !s1.missFull t w.reserved)
  match (mine.find? (fun w => w.reserved)).or mine.head? with
  | none => s1
  | some w =>
    let s2 : State := { s1 with coh := { s1.coh with waits := s1.coh.waits.erase w } }
    s2.allot t w.line w.kind false w.reserved

/-! ## The home's answers -/

/-- The line and epoch a message carries as content (R199). -/
def State.contentOf (s : State) (line : Nat) (v : Stored) (epoch : Nat) : Content :=
  { data := v.data, kid := s.kidOf (folioOf line), epoch, poison := v.poison }

/-- A grant of a transaction is sent, the entry takes the state after it, and the line waits for DONE (R205, R206). -/
def State.grantTx (line : Nat) (x : Tx) (k : MsgKind) (c : Option Content) (s : State) : State :=
  let s1 := if k == .data .s then s.dirShare x.req line else s.dirOwn x.req line
  (s1.setTx line (some { x with sent := true, await := [], gone := [] })).send
    { kind := k, src := s.home line, dst := x.req, line := line, content := c }

/-- The home data of a transaction (R205, R213): E where no other tile keeps the line, S otherwise; a line that is
unrecoverable goes with internal poison (R226). -/
def State.homeData (line : Nat) (x : Tx) (s : State) : State :=
  let g : Grant := if x.kind == .readS && (s.dir line).sharers &&& ~~~tileBit x.req != 0 then .s else .e
  let f := s.homeFill line x.env
  let s := s.homeRead line f
  match f with
  | .forged c => s.markForged line c
  | .unrec n _ =>
    (s.mediaLost line n).grantTx line x (.data g) (some (s.contentOf line { data := 0, poison := true } 0))
  | .ok v e _ _ => s.grantTx line x (.data g) (some (s.contentOf line v e))

/-- A transaction whose answers are all in (R205): ownership without data, the line a holder surrendered, the clean line
of a holder that keeps it, or home data. A CLAIM sends a dirty line of a lower epoch to staging (R235). -/
def State.finishGrant (line : Nat) (x : Tx) (s : State) : State :=
  if x.kind == .claim then
    let s1 := match x.line with
      | some c => if x.dirty && decide (c.epoch < x.epoch) then
          s.stage line { data := c.data, poison := c.poison } c.epoch else s
      | none => s
    s1.grantTx line x .grant none
  else if x.kind == .upgrade && x.shared then s.grantTx line x .grant none
  else
    match x.line with
    | some c =>
      if x.dirty then s.grantTx line x (.data .m) (some c)
      else if x.kept then s.grantTx line x (.data .s) (some c)
      else s.homeData line x
    | none => s.homeData line x

/-- Snoops leave for some tiles (R205); each counts. -/
def State.snoop (line : Nat) (k : MsgKind) (ts : List Nat) (s : State) : State :=
  ts.foldl (fun s t => (s.send { kind := k, src := s.home line, dst := t, line := line }).pmcEdge (s.home line) 0x08 0) s

/-- The home begins to serve a request for a line that is not busy and has its place in the directory (R205). -/
def State.serve (q : Tkt) (s : State) : State :=
  let d := s.dir q.line
  let others := (tilesOf d.sharers).filter (· != q.tile)
  let shared := d.st == .sh && d.sharers.getLsbD q.tile
  let x : Tx := { req := q.tile, kind := q.kind, epoch := q.epoch, env := q.env, shared, await := [], line := none,
                  dirty := false, kept := false, gone := [], sent := false, room := none }
  let ts := if q.kind == .readS then (if d.st == .ex then others else []) else others
  let s1 := (((s.dirRoom q.line).setBusy q.line true).pmcEdge (s.home q.line) 0x07 0)
  if ts.isEmpty then s1.finishGrant q.line x
  else (s1.setTx q.line (some { x with await := ts })).snoop q.line (if q.kind == .readS then .snpS else .snpI) ts

/-- A request is refused: NACK, or TICKET in place of its fourth refusal (R206, R209). Which number a TICKET carries is left open;
the model sends the count of tickets the part already holds (DESIGN CHOICE, assumption 98). -/
def State.refuse (q : Tkt) (s : State) : State :=
  let h := s.home q.line
  let n := match s.missOf q.tile q.line with
    | some m => m.refusals
    | none => 0
  if 3 ≤ n then
    let s1 : State := { s with coh := { s.coh with tickets := s.coh.tickets ++ [q] } }
    ((s1.setDir q.line { s1.dir q.line with ticketed := true }).bump .dirTickets h 0).send
      { kind := .ticket s.coh.tickets.length, src := h, dst := q.tile, line := q.line }
  else (s.bump .dirNacks h 0).send { kind := .nack, src := h, dst := q.tile, line := q.line }

/-- The entry in the way of a request is back-invalidated: SNP_I to every tile in its sharers (R218). -/
def State.backInvalidate (q : Tkt) (v : Nat) (s : State) : State :=
  let h := s.home q.line
  let ts := tilesOf (s.dir v).sharers
  let x : Tx := { req := h, kind := .claim, epoch := 0, env := q.env, shared := false, await := ts, line := none,
                  dirty := false, kept := false, gone := [], sent := false, room := some q, inval := true }
  let s1 := ((s.setBusy v true).bump .dirOverflow h 0).pmcEdge h 0x09 0
  if ts.isEmpty then (s1.setDir v {}).serve q
  else (s1.setTx v (some x)).snoop v .snpI ts

/-- A request for a line that is not busy is served, once its entry has a place: its own, a free one, or that of an entry that is
back-invalidated; none where no entry qualifies (R218). -/
def State.letIn (q : Tkt) (s : State) : Option State :=
  if (s.dir q.line).held || (s.dirFree q.line).isSome then some (s.serve q)
  else (s.dirOldest q.line).map (fun e => s.backInvalidate q e.1)

/-- A REQ reaches its home (R205, R206, R209, R218). No new REQ is accepted while a rollback runs (R221). -/
def State.arrive (q : Tkt) (s : State) : State :=
  if !s.cohRuns (s.home q.line) q.line || s.epo.rollback then s
  else
    let s1 := s.receive { kind := .req q.kind, src := q.tile, dst := s.home q.line, line := q.line }
    if s1.lineBusy q.line || s1.coh.tickets.any (fun k => k.line == q.line) then s1.refuse q
    else (s1.letIn q).getD (s1.refuse q)

/-! ## The end of a transaction -/

/-- The ticket that is due when a line stops being busy: its oldest, or else one of its directory set that found no place. -/
def State.dueTicket (s : State) (line : Nat) : Option Tkt :=
  (s.coh.tickets.find? (fun k => k.line == line)).or
    (s.coh.tickets.find? (fun k => s.home k.line == s.home line && dirSet k.line == dirSet line && !s.lineBusy k.line))

/-- The oldest ticket of a line that is no longer busy is served as though its request had just arrived; one that finds no place in
its directory set keeps its ticket (R209, R218). -/
def State.nextTicket (line : Nat) (s : State) : State :=
  match s.dueTicket line with
  | none => s
  | some q =>
    let l := s.coh.tickets.erase q
    let s1 : State := { s with coh := { s.coh with tickets := l } }
    ((s1.setDir q.line { s1.dir q.line with ticketed := l.any (fun k => k.line == q.line) }).letIn q).getD s

/-- The line stops being busy (R206). -/
def State.unbusy (line : Nat) (s : State) : State :=
  let d := s.dir line
  ((s.setTx line none).setDir line { d with busy := false }.settled).nextTicket line

/-- A back-invalidated entry is free, and the request that waited for its place is served; a reset may have taken that request
away (R218, R222). -/
def State.invalDone (line : Nat) (x : Tx) (s : State) : State :=
  let s1 := match x.line with
    | some c => if x.dirty then s.stage line { data := c.data, poison := c.poison } c.epoch else s
    | none => s
  let s2 := (s1.setTx line none).setDir line { ticketed := s1.coh.tickets.any (fun k => k.line == line) }
  (match x.room with
    | some q => if (s2.missOf q.tile q.line).isSome then s2.serve q else s2
    | none => s2).nextTicket line

/-- An answer is in: the last one completes the transaction, or the back-invalidation (R205, R218). -/
def State.settleTx (line : Nat) (x : Tx) (s : State) : State :=
  if !x.await.isEmpty then s.setTx line (some x)
  else if x.inval then s.invalDone line x
  else s.finishGrant line x

/-! ## Write-backs (R196, R200, R212, R219) -/

/-- A WB message leaves with credit. -/
def State.sendWb (t line : Nat) (k : MsgKind) (v : NcLine) (s : State) : State :=
  let w := wbKey (s.home line) t
  let n := tget (fun _ => 0) s.coh.wbUsed w + 1
  let s1 : State := { s with coh := { s.coh with wbUsed := tset (fun _ => 0) s.coh.wbUsed w n } }
  let s2 := if n = 32 then s1.pmcEdge (s.home line) 0x0E 0 else s1
  s2.send { kind := k, src := t, dst := s.home line, line := line,
            content := some { data := v.data, kid := v.kid, epoch := v.epoch, poison := v.poison } }

/-- The EVICT of a line in an eviction buffer is sent once there is credit (R212). -/
def State.sendEvict (t line : Nat) (s : State) : State :=
  if s.wbCredit t line then
    let s1 : State := { s with coh := { s.coh with
      evbufs := s.coh.evbufs.map (fun b => if b.tile == t && b.line == line then { b with sent := true } else b) } }
    ((s1.sendWb t line .evict (s.nc t line)).bump .ncEvicts t 0).pmcEdge t 0x04 0
  else s

/-- A write-back's credit returns; an eviction that waited for it is sent. Which of several is left open; the model takes the first
of the buffer list (DESIGN CHOICE, assumption 98). -/
def State.wbReturn (t home : Nat) (s : State) : State :=
  let s1 := s.wbBack t home 1
  match s1.coh.evbufs.find? (fun b => b.tile == t && !b.sent && s1.home b.line == home) with
  | some b => s1.sendEvict t b.line
  | none => s1

/-- A WB message reaches the home of its line: staged under its epoch at once, even while the line is busy (R206, R212);
one that would open a third staging buffer, or find staging full, waits (R116, R133). -/
def State.acceptWb (src line : Nat) (k : MsgKind) (c : Content) (f : State → State) (s : State) : State :=
  let named := (s.dir line).sharers.getLsbD src || s.net.any (fun m => m.kind == k && m.src == src && m.line == line)
  if !s.cohRuns (s.home line) line || s.stageBlocked line c.epoch || !named then s
  else
    let s1 := s.receive { kind := k, src := src, dst := s.home line, line := line, content := some c }
    f (s1.stage line { data := c.data, poison := c.poison } c.epoch)

/-- After an eviction notice: the sender's bit clears, an empty entry is freed, and a transaction that had GONE from the
sender goes on (R212, R213). -/
def State.evicted (src line : Nat) (s : State) : State :=
  let d := s.dir line
  let s1 := (s.setDir line { d with sharers := d.sharers &&& ~~~tileBit src }.settled).send
    { kind := .evictAck, src := s.home line, dst := src, line := line }
  match s1.tx line with
  | none => s1
  | some x =>
    if x.gone.contains src then
      s1.settleTx line { x with await := x.await.filter (· != src), gone := x.gone.filter (· != src) }
    else s1

/-! ## Simultaneous arrivals (R207, R215) -/

/-- A WB message of a tile for a line, on its way to the line's home. -/
def State.wbFrom (s : State) (t line : Nat) : Option Msg :=
  s.net.find? (fun m => m.src == t && m.line == line && m.dst == s.home line && (m.kind == .evict || m.kind == .writeback))

/-- EVICT at the home. -/
def State.evictArrives (src line : Nat) (c : Content) (s : State) : State :=
  s.acceptWb src line .evict c (fun s => s.evicted src line)

/-- WRITEBACK at the home. -/
def State.writebackArrives (src line : Nat) (c : Content) (s : State) : State :=
  s.acceptWb src line .writeback c (fun s => s.send { kind := .wbAck, src := s.home line, dst := src, line := line })

/-- WB messages of some tiles for a line are taken ahead of every REQ of the same cycle (R207). -/
def State.wbFirst (line : Nat) (ts : List Nat) (s : State) : State :=
  ts.foldl (fun (s : State) t =>
    match s.wbFrom t line with
    | none => s
    | some m =>
      match m.content with
      | none => s
      | some c => if m.kind == .evict then s.evictArrives t line c else s.writebackArrives t line c) s

/-- A WRITEBACK of a tile for a line is on its way. -/
def State.wbUnderway (s : State) (t line : Nat) : Bool :=
  s.net.any (fun m => m.kind == .writeback && m.src == t && m.line == line)

/-- A WRITEBACK that a tile sent for a line ahead of what follows is accepted. -/
def State.wbBefore (t line : Nat) (s : State) : State := if s.wbUnderway t line then s.wbFirst line [t] else s

/-- A snoop answer of a tile reaches the home; an answer nobody awaits changes nothing (R205). A WRITEBACK that the tile sent for the
line before it is accepted first (DEDUCED: messages of one tile for one line arrive in the order sent, R26; assumption 58); while
that has to wait, so does the answer. -/
def State.answered (src line : Nat) (k : MsgKind) (c : Option Content) (f : Tx → Tx) (clear : Bool) (s : State) : State :=
  let s0 := s.wbBefore src line
  match s0.tx line with
  | none => s
  | some x =>
    if !s.cohRuns (s.home line) line || !x.await.contains src || s0.wbUnderway src line then s
    else
      let s1 := s0.receive { kind := k, src := src, dst := s.home line, line := line, content := c }
      let d := s1.dir line
      let s2 := if clear then s1.setDir line { d with sharers := d.sharers &&& ~~~tileBit src } else s1
      s2.settleTx line { f x with await := x.await.filter (· != src) }

/-- A REQ of a tile for a line that is on its way to the line's home; a CLAIM's write takes the epoch its tile stamps now. -/
def State.reqFrom (s : State) (t line : Nat) (env : MediaEnv) : Option Tkt :=
  s.net.findSome? (fun m =>
    match m.kind with
    | .req k => if m.src == t && m.line == line && m.dst == s.home line then
        some { line, tile := t, kind := k, epoch := s.stampOf t, env } else none
    | _ => none)

/-- The tile that comes first in the rotation, which starts at the tile after the one last chosen (R207). -/
def rotated (tiles last : Nat) (ts : List Nat) : Option Nat :=
  ((List.range tiles).map (fun i => (last + 1 + i) % tiles)).find? (fun t => ts.contains t)

/-- A REQ that loses to another of its cycle (R207). -/
def State.loses (q : Tkt) (s : State) : State :=
  if !s.cohRuns (s.home q.line) q.line || s.epo.rollback then s
  else (s.receive { kind := .req q.kind, src := q.tile, dst := s.home q.line, line := q.line }).refuse q

/-- A REQ reaches its home, with the messages for the line that reach it from `peers` in the same cycle: WB messages first, then
the REQ that the rotation chooses, and the others are refused (R207, R215). -/
def State.arrivals (q : Tkt) (peers : List Nat) (s : State) : State :=
  let h := s.home q.line
  let s1 := s.wbFirst q.line (q.tile :: peers)
  let all := q :: (peers.filter (fun t => t != q.tile)).eraseDups.filterMap (fun t => s1.reqFrom t q.line q.env)
  if all.length ≤ 1 then s1.arrive q
  else
    match rotated s.tiles (s.field .dirRot h 0 2 0) (all.map (fun k => k.tile)) with
    | none => s1.arrive q
    | some w =>
      (all.filter (fun k => k.tile != w)).foldl (fun s k => s.loses k)
        ((all.filter (fun k => k.tile == w)).foldl (fun s k => s.arrive k) (s1.putField .dirRot h 0 2 0 w))

/-- A tile that asks for a line may do so now: it waits for no refill of the line (R201, R226). -/
def State.mayAsk (s : State) (t line : Nat) : Bool :=
  s.hasTile t && s.tileRuns t && ((s.nc t line).st != .refill || (s.missOf t line).isSome)

/-- A tile without a message of its own for a line, in the state from which it sends a request of a kind (R201). -/
def State.fresh (s : State) (t line : Nat) (k : ReqKind) : Bool :=
  let st := (s.nc t line).st
  s.mayAsk t line && (s.missOf t line).isNone && (s.wbFrom t line).isNone &&
    (match k with
      | .upgrade => st == .s
      | .claim => st == .i || st == .s
      | .readS | .readX => st == .i)

/-- The first requests of `peers` that meet a request in its cycle (R207, R215, R216): a peer with no message of its own on the way sends
one of the same kind (DESIGN CHOICE, assumption 98). -/
def State.meet (q : Tkt) (peers : List Nat) (s : State) : State :=
  peers.foldl (fun (s : State) t =>
    if t != q.tile && s.fresh t q.line q.kind then s.issue t q.line q.kind false false else s) s

/-- A request of a tile's agent: it takes a miss entry, where it has none (R195), and reaches the line's home once it has been sent.
It has not left its tile while it waits there for an entry, for a refill or an eviction of the tile or for the home's reset (R195,
R201, R214, R222), after a NACK until it is resent (R208), or with a ticket (R209); nor does one whose line is already asked for
otherwise. -/
def State.requested (q : Tkt) (f : State → State) (s : State) : State :=
  if s.coreUp && s.mayAsk q.tile q.line then
    let s1 := s.issue q.tile q.line q.kind false false
    if s1.net.any (fun m => m.kind == .req q.kind && m.src == q.tile && m.line == q.line) then f s1 else s1
  else s

/-- A REQ row: the request, and its arrival with the messages of `peers`. -/
def reqRow (q : Tkt) (peers : List Nat) (s : State) : Host.Outcome State Fault Refusal :=
  withUnit (s.hasTile q.tile) (State.whole fun s => s.requested q (fun s => (s.meet q peers).arrivals q peers)) s

/-! ## The rows: requests -/

def execReqReadS (src line : Nat) (env : MediaEnv) (peers : List Nat) (s : State) : Host.Outcome State Fault Refusal :=
  reqRow { line, tile := src, kind := .readS, epoch := 0, env } peers s

def execReqReadX (src line : Nat) (env : MediaEnv) (peers : List Nat) (s : State) : Host.Outcome State Fault Refusal :=
  reqRow { line, tile := src, kind := .readX, epoch := 0, env } peers s

def execUpgrade (src line : Nat) (env : MediaEnv) (peers : List Nat) (s : State) : Host.Outcome State Fault Refusal :=
  reqRow { line, tile := src, kind := .upgrade, epoch := 0, env } peers s

/-- `epoch` is the epoch the claiming write carries (R235). -/
def execClaim (src line epoch : Nat) (peers : List Nat) (s : State) : Host.Outcome State Fault Refusal :=
  reqRow { line, tile := src, kind := .claim, epoch, env := { recon := [], unrec := [] } } peers s

/-! ## The rows: write-backs -/

def execEvict (src line : Nat) (c : Content) (s : State) : Host.Outcome State Fault Refusal :=
  withUnit (s.hasTile src) (State.whole fun s => s.evictArrives src line c) s

def execWriteback (src line : Nat) (c : Content) (s : State) : Host.Outcome State Fault Refusal :=
  withUnit (s.hasTile src) (State.whole fun s => s.writebackArrives src line c) s

/-! ## The rows: snoops (R201) -/

/-- A holder answers its line's home. -/
def State.reply2 (dst line : Nat) (k : MsgKind) (c : Option Content) (s : State) : State :=
  s.send { kind := k, src := dst, dst := s.home line, line := line, content := c }

/-- SNP_S by state (R201). -/
def State.answerS (dst line : Nat) (s : State) : State :=
  let v := s.nc dst line
  match v.st with
  | .i | .refill => s.reply2 dst line .ackNp none
  | .s => s.reply2 dst line .ackS none
  | .e => (s.setNc dst line { v with st := .s }).reply2 dst line .ackS (some v.content)
  | .m => (s.invalidate dst line).reply2 dst line .ackD (some v.content)
  | .ev => s.reply2 dst line .gone none

/-- SNP_I by state (R201). -/
def State.answerI (dst line : Nat) (s : State) : State :=
  let v := s.nc dst line
  match v.st with
  | .i | .refill => s.reply2 dst line .ackNp none
  | .s | .e => (s.invalidate dst line).reply2 dst line .ackI none
  | .m => (s.invalidate dst line).reply2 dst line .ackD (some v.content)
  | .ev => s.reply2 dst line .gone none

/-- SNP_F by state (R201). -/
def State.answerF (dst line : Nat) (s : State) : State :=
  let v := s.nc dst line
  match v.st with
  | .i | .refill => s.reply2 dst line .ackNp none
  | .s | .e => s.reply2 dst line .ackI none
  | .m => ((s.sendWb dst line .writeback v).setNc dst line { v with st := .e, wb := true }).reply2 dst line .ackI none
  | .ev => s.reply2 dst line .gone none

/-- A snoop reaches a holder whose units run. -/
def State.snooped (dst line : Nat) (k : MsgKind) (f : State → State) (s : State) : State :=
  if s.cohRuns dst line then f (s.receive { kind := k, src := s.home line, dst := dst, line := line }) else s

def execSnpS (dst line : Nat) (s : State) : Host.Outcome State Fault Refusal :=
  withUnit (s.hasTile dst) (fun s => s.snooped dst line .snpS (fun s => s.answerS dst line)) s

def execSnpI (dst line : Nat) (s : State) : Host.Outcome State Fault Refusal :=
  withUnit (s.hasTile dst) (fun s => s.snooped dst line .snpI (fun s => s.answerI dst line)) s

def execSnpF (dst line : Nat) (s : State) : Host.Outcome State Fault Refusal :=
  withUnit (s.hasTile dst) (fun s => s.snooped dst line .snpF (fun s => s.answerF dst line)) s

/-! ## The rows: answers to a requester -/

/-- The state a DATA message grants. -/
def grantState : Grant → LState
  | .s => .s
  | .e => .e
  | .m => .m

/-- A clean victim of a full set is dropped silently; answers whether the line has a place now (R196, R201). -/
def State.fillPlace (t line : Nat) (s : State) : Bool × State :=
  if (s.nc t line).st != .i || (s.freeWay t line).isSome then (true, s)
  else
    match s.victim t line with
    | none => (false, s)
    | some (v, x) => if x.st == .m then (false, s) else (true, (s.drawn 1).setNc t v {})

/-- A grant is installed, DONE is sent and the miss entry is freed (R201). -/
def State.granted (dst line : Nat) (st : LState) (v : Stored) (epoch kid : Nat) (s : State) : State :=
  let s1 := s.install dst line st v epoch
  ((s1.setNc dst line { s1.nc dst line with kid }).send
    { kind := .done, src := dst, dst := s.home line, line := line }).freeMiss dst line

/-- DATA at a requester; a fill whose set has only a dirty victim waits (R196). -/
def execData (dst line : Nat) (g : Grant) (c : Content) (s : State) : Host.Outcome State Fault Refusal :=
  withUnit (s.hasTile dst) (State.whole fun s =>
    if s.cohRuns dst line then
      let (ok, s1) := s.fillPlace dst line
      if ok then
        (s1.receive { kind := .data g, src := s.home line, dst := dst, line := line, content := some c }).granted dst line
          (grantState g) { data := c.data, poison := c.poison } c.epoch c.kid
      else s
    else s) s

/-- A line whose bytes the manual leaves open, from 16 free values. -/
def State.freeLine (s : State) : Line := s.freeBits 1024 16

/-- GRANT at a requester: it installs the line in E, and the write that asked for it makes it M (R201). The row gives no data of that
write: the line's bytes are free values, and its epoch is the one the tile stamps. -/
def execGrant (dst line : Nat) (s : State) : Host.Outcome State Fault Refusal :=
  withUnit (s.hasTile dst) (State.whole fun s =>
    if s.cohRuns dst line then
      let (ok, s1) := s.fillPlace dst line
      if ok then
        let s2 := s1.receive { kind := .grant, src := s.home line, dst := dst, line := line }
        let e := s2.stampOf dst
        ((s2.drawn 16).granted dst line .m { data := s2.freeLine } e (s.kidOf (folioOf line))).carried e
      else s
    else s) s

/-- A refusal that reaches a requester whose request is outstanding. -/
def State.refused (dst line : Nat) (k : MsgKind) (ev : Nat) (f : Miss → Miss) (s : State) : State :=
  match s.missOf dst line with
  | none => s
  | some m =>
    if s.cohRuns dst line then
      ((s.receive { kind := k, src := s.home line, dst := dst, line := line }).setMiss dst line (some (f m))).pmcEdge dst ev 0
    else s

def execNack (dst line : Nat) (s : State) : Host.Outcome State Fault Refusal :=
  withUnit (s.hasTile dst) (fun s =>
    s.refused dst line .nack 0x05 (fun m => { m with refusals := m.refusals + 1, nackAt := some s.now })) s

/-- 16 cyc(core) are 10 ns (R7, R208). -/
def execNackResend (dst line : Nat) (s : State) : Host.Outcome State Fault Refusal :=
  withUnit (s.hasTile dst) (fun s =>
    match s.missOf dst line with
    | none => s
    | some m =>
      match m.nackAt with
      | none => s
      | some t =>
        if s.cohRuns dst line && decide (t + 10 ≤ s.now) then
          (s.setMiss dst line (some { m with nackAt := none })).sendReq dst line m.kind
        else s) s

def execTicket (dst line num : Nat) (s : State) : Host.Outcome State Fault Refusal :=
  withUnit (s.hasTile dst) (fun s => s.refused dst line (.ticket num) 0x06 (fun m => { m with ticketed := true })) s

/-- The eviction buffer and the way are free, and a request that waited for the acknowledgement is issued with the line in
I (R212, R214). -/
def execEvictAck (dst line : Nat) (s : State) : Host.Outcome State Fault Refusal :=
  withUnit (s.hasTile dst) (State.whole fun s =>
    if s.cohRuns dst line && (s.nc dst line).st == .ev then
      let s1 := (s.receive { kind := .evictAck, src := s.home line, dst := dst, line := line }).setNc dst line {}
      let s2 : State := { s1 with coh := { s1.coh with
        evbufs := s1.coh.evbufs.filter (fun b => !(b.tile == dst && b.line == line)) } }
      (s2.wbReturn dst (s.home line)).releaseMiss dst line
    else s) s

def execWbAck (dst line : Nat) (s : State) : Host.Outcome State Fault Refusal :=
  withUnit (s.hasTile dst) (fun s =>
    if s.cohRuns dst line && ((s.nc dst line).wb || s.net.any (fun m => m.kind == .wbAck && m.dst == dst && m.line == line)) then
      ((s.receive { kind := .wbAck, src := s.home line, dst := dst, line := line }).setNc dst line
        { s.nc dst line with wb := false }).wbReturn dst (s.home line)
    else s) s

/-! ## The rows: answers to a home -/

def execAckNp (src line : Nat) (s : State) : Host.Outcome State Fault Refusal :=
  withUnit (s.hasTile src) (State.whole fun s =>
    match s.tx line with
    | some x => if x.await.contains src && s.cohRuns (s.home line) line then
        (s.bump .dirNotpresent (s.home line) 0).answered src line .ackNp none id true else s
    | none => s) s

/-- ACK_I: the holder's copy is gone. ACK_S: it keeps a shared copy, and sends the clean line it held in E. -/
def execAckI (src line : Nat) (kind : AckKind) (c : Option Content) (s : State) : Host.Outcome State Fault Refusal :=
  withUnit (s.hasTile src) (State.whole fun s =>
    match kind with
    | .i => s.answered src line .ackI c id true
    | .s => s.answered src line .ackS c (fun x => { x with line := c, dirty := false, kept := true }) false) s

def execAckD (src line : Nat) (c : Content) (s : State) : Host.Outcome State Fault Refusal :=
  withUnit (s.hasTile src) (State.whole fun s =>
    s.answered src line .ackD (some c) (fun x => { x with line := some c, dirty := true }) true) s

/-- GONE: the home waits for the EVICT, unless it has come already (R213). -/
def execGone (src line : Nat) (s : State) : Host.Outcome State Fault Refusal :=
  withUnit (s.hasTile src) (State.whole fun s =>
    match s.tx line with
    | some x =>
      if x.await.contains src && !x.gone.contains src && s.cohRuns (s.home line) line then
        let s1 := (s.bump .dirGone (s.home line) 0).receive { kind := .gone, src := src, dst := s.home line, line := line }
        if (s.dir line).sharers.getLsbD src then s1.setTx line (some { x with gone := src :: x.gone })
        else s1.settleTx line { x with await := x.await.filter (· != src) }
      else s
    | none => s) s

/-- DONE: the line stops being busy and its oldest ticket is served (R206, R209). -/
def execDone (src line : Nat) (s : State) : Host.Outcome State Fault Refusal :=
  withUnit (s.hasTile src) (State.whole fun s =>
    match s.tx line with
    | some x =>
      if x.sent && x.req == src && s.cohRuns (s.home line) line then
        (s.receive { kind := .done, src := src, dst := s.home line, line := line }).unbusy line
      else s
    | none => s) s

/-! ## The rows: victims and refills -/

/-- A fill's victim leaves: a clean one silently, a dirty one by an eviction buffer in EV, where one of the 32 is free
(R196, R201, R212). A pinned line, one with an UPGRADE or CLAIM outstanding and one on its way are never chosen. -/
def State.evictVictim (t line : Nat) (s : State) : State :=
  let v := s.nc t line
  if v.pin || v.up || v.wb then s
  else
    match v.st with
    | .s | .e => s.setNc t line {}
    | .m =>
      if s.evictBufs t < 32 then
        let s1 := s.setNc t line { v with st := .ev }
        let s2 : State := { s1 with coh := { s1.coh with
          evbufs := s1.coh.evbufs ++ [{ tile := t, line := line, sent := false }] } }
        s2.sendEvict t line
      else s
    | .i | .ev | .refill => s

def execVictimEvict (tile line : Nat) (s : State) : Host.Outcome State Fault Refusal :=
  withUnit (s.hasTile tile) (fun s => if s.cohRuns tile line then s.evictVictim tile line else s) s

/-- A slot in REFILL fetches its line again from a reserved miss entry; each refill counts. It waits for a rollback to
end (R221, R226). A line whose home has failed fills it with internal poison (R222, R226). -/
def State.refill (t line : Nat) (s : State) : State :=
  if (s.nc t line).st == .refill && (s.missOf t line).isNone && !s.coh.waits.any (fun w => w.tile == t && w.line == line) &&
      !s.epo.rollback then
    if s.flt.failed.getLsbD (s.home line) then
      ((s.setNc t line { s.nc t line with st := .s, poison := true, data := 0 }).bump .ncRefills t 0).pmcEdge t 0x0A 0
    else ((s.issue t line .readS false true).bump .ncRefills t 0).pmcEdge t 0x0A 0
  else s

def execPinnedRefill (tile line : Nat) (s : State) : Host.Outcome State Fault Refusal :=
  withUnit (s.hasTile tile) (fun s => if s.coreUp && s.tileRuns tile then s.refill tile line else s) s

end Sys2Proof.Machine
end

