-- ==== Sys2Proof/Machine/Rings.lean ====
section
/-! DEFINITION. Command rings: configuration, doorbells, fetching, starting commands, completions and vectors (R40 to
R70). -/

namespace Sys2Proof.Machine

/-- The fields of a RING_SQ_CFG write (R43). -/
def Sq.fields (q : Sq) (w : Nat) : Sq :=
  { q with sizeM1 := BitVec.ofNat 12 (bits w 27 16), cq := BitVec.ofNat 6 (bits w 15 10),
           urgent := bits w 9 9 == 1, burstM1 := BitVec.ofNat 3 (bits w 8 6) }

/-- An SQ bound to a CQ that is in error is in error with it, and vector 64 is raised (R46, R69). -/
def State.bindError (p n : Nat) (s : State) : State :=
  if (s.cq p (s.sq p n).cq.toNat).err && !(s.sq p n).err then (s.sqError p n 4).raiseOn p 0 else s

/-- A write of RING_SQ_CFG (R44); setting enable starts the ring from entry 0 (R43). -/
def State.writeSqCfg (p n w : Nat) (s : State) : State :=
  let q := s.sq p n
  let f := q.fields w
  let en := bits w 31 31 == 1
  if q.enable then
    let s1 : State := if f != q then s.refusedWrite p p (sqCfgOff n) w else s
    if en then s1
    else
      let h := s1.port p
      (s1.setSq p n { q with enable := false }).setPort p
        { h with fetches := h.fetches.map (fun x => if x.sq == n && x.got.isNone then { x with dead := true } else x) }
  else if en && f.sizeM1 == 0 then ((s.setSq p n f).refusedWrite p p (sqCfgOff n) w).bindError p n
  else if en then (s.setSq p n { f with enable := true, err := false, code := 0, head := 0, tail := 0 }).bindError p n
  else (s.setSq p n f).bindError p n

/-- Whether the coalescing of a CQ calls for a raise (R43, R70). -/
def State.coalesced (s : State) (p n unsig : Nat) : Bool :=
  let c := s.field .ringCqCoal p n 23 16
  decide (1 ≤ unsig) && (c == 0 || decide (c ≤ unsig))

/-- A raise of a CQ's vector signals every unsignalled entry (R70). -/
def State.signalCq (p n : Nat) (s : State) : State :=
  let q := s.cq p n
  (s.setCq p n { q with unsig := 0, oldest := none }).raiseVector p q.vector.toNat

/-- A CQ's vector is raised where its unsignalled entries meet RING_CQ_COAL and int_en is 1 (R70). -/
def State.coalesce (p n : Nat) (s : State) : State :=
  let q := s.cq p n
  if q.intEn && s.coalesced p n q.unsig then s.signalCq p n else s

/-- The bus address of an entry of a CQ and of an SQ (R40). -/
def State.cqAddr (s : State) (p n i : Nat) : Nat :=
  s.reg .ringCqBaseHi p n * 2 ^ 32 + s.reg .ringCqBaseLo p n + 16 * i

def State.sqAddr (s : State) (p n i : Nat) : Nat :=
  s.reg .ringSqBaseHi p n * 2 ^ 32 + s.reg .ringSqBaseLo p n + 64 * i

/-- A CQ after one more entry at its device write index: the index and the phase move on, the entry takes the place reserved
for it (R47, R49), and it counts as unsignalled unless its no_int flag is set (R70). -/
def Cq.entered (q : Cq) (e : Cqe) (now : Nat) : Cq :=
  let wrap := decide (q.head + 1 = q.size)
  { q with
    head := if wrap then 0 else q.head + 1
    phase := if wrap then !q.phase else q.phase
    reserved := q.reserved - 1
    unsig := if e.noInt then q.unsig else q.unsig + 1
    oldest := if e.noInt then q.oldest else some (q.oldest.getD now) }

/-- One entry takes its place in the CQ, and may raise its vector (R47, R70). -/
def State.enterCqe (p n : Nat) (e : Cqe) (s : State) : State :=
  let s1 := (s.setCq p n ((s.cq p n).entered e s.now)).pmcEdge p 0x62 0
  if e.noInt then s1 else s1.coalesce p n

/-- Completion entries that leave for one CQ in one cycle are written in one posted write, each whole and with the phase of
its pass (R47, R68); where the ring wraps among them they are two. Vectors follow the write. -/
def State.writeCqes (p n : Nat) (es : List Cqe) (s : State) : State :=
  let q := s.cq p n
  let room := q.size - q.head
  let before := es.take room
  let after := es.drop room
  let bytes (ph : Bool) (l : List Cqe) : List Byte := l.flatMap (fun e => e.bytes ph)
  let s1 := if before.isEmpty then s else s.emit (.hostWrite p (s.cqAddr p n q.head) (bytes q.phase before))
  let s2 := if after.isEmpty then s1 else s1.emit (.hostWrite p (s.cqAddr p n 0) (bytes (!q.phase) after))
  es.foldl (fun s e => s.enterCqe p n e) s2

/-- The entries a CQ can take before it is full, one behind its head (R42). -/
def Cq.space (q : Cq) : Nat := q.size - 1 - ringDist q.size q.tail q.head

/-- Completions leave the collector for a CQ: written as far as there is room, the rest held behind those the CQ holds
already (R46), which is while it is in error, disabled or full. -/
def State.deliver (p n : Nat) (es : List Cqe) (s : State) : State :=
  let q := s.cq p n
  let k := if q.enable && !q.err && q.held.isEmpty then q.space else 0
  let s1 := s.writeCqes p n (es.take k)
  s1.setCq p n { s1.cq p n with held := q.held ++ es.drop k }

/-- The completions a CQ holds are written in order, each by itself, as far as the ring has room (R42, R46). -/
def State.deliverHeld (p n : Nat) (s : State) : State :=
  let q := s.cq p n
  q.held.foldl (fun s e => s.deliver p n [e]) (s.setCq p n { q with held := [] })

/-- The fields of a RING_CQ_CFG write; vectors 64 to 127 are not taken (R44). -/
def Cq.fields (q : Cq) (w : Nat) : Cq :=
  let v := bits w 10 0
  { q with intEn := bits w 30 30 == 1, sizeM1 := BitVec.ofNat 12 (bits w 27 16),
           vector := if 64 ≤ v ∧ v ≤ 127 then q.vector else BitVec.ofNat 11 v }

/-- A write of RING_CQ_CFG (R44); setting enable starts the ring from entry 0 with phase 1 and writes the completions
held for it (R43, R46). The unsignalled count and its timer are kept through a clear and a set of enable (DESIGN CHOICE,
assumption 98), and a write that sets int_en may raise the vector (R70). -/
def State.writeCqCfg (p n w : Nat) (s : State) : State :=
  let q := s.cq p n
  let f := q.fields w
  let en := bits w 31 31 == 1
  let bad := decide (64 ≤ bits w 10 0 ∧ bits w 10 0 ≤ 127)
  if q.enable then
    let s1 : State := if f != q || bad then s.refusedWrite p p (cqCfgOff n) w else s
    if en then s1 else s1.setCq p n { q with enable := false }
  else
    let s1 : State := if bad || (en && f.sizeM1 == 0) then s.refusedWrite p p (cqCfgOff n) w else s
    if en && f.sizeM1 != 0 then
      ((s1.setCq p n { f with enable := true, err := false, code := 0, head := 0, tail := 0, phase := true }).coalesce
        p n).deliverHeld p n
    else (s1.setCq p n f).coalesce p n

/-! ## Doorbells and errors (R45, R46) -/

/-- A CQ enters error, and with it every SQ bound to it (R45, R46); vector 64 is raised on this port. An SQ that was in error
already takes err_code 04h and a record of its own (DESIGN CHOICE, assumption 98). -/
def State.cqError (p n code : Nat) (s : State) : State :=
  let s1 := (s.setCq p n { s.cq p n with err := true, code := BitVec.ofNat 5 code }).ringRecord p n code
  let bound := (List.range 64).filter (fun q => (s.sq p q).cq.toNat == n)
  (bound.foldl (fun s q => s.sqError p q 4) s1).raiseOn p 0

/-- A new SQ tail (R45). A doorbell of a ring that is in error already has no effect (DESIGN CHOICE, assumption 98). -/
def State.sqTail (p n v : Nat) (s : State) : State :=
  let q := s.sq p n
  if !q.enable then s.ringRecord p (sqDbOff n) 4
  else if q.err then s
  else if q.size ≤ v then (s.sqError p n 1).raiseOn p 0
  else s.setSq p n { q with tail := v }

/-- A new CQ head (R45); of a CQ in error already, as for an SQ (assumption 98). -/
def State.cqHead (p n v : Nat) (s : State) : State :=
  let q := s.cq p n
  if !q.enable then s.ringRecord p (cqDbOff n) 4
  else if q.err then s
  else if q.size ≤ v then s.cqError p n 1
  else if ringDist q.size q.tail q.head < ringDist q.size q.tail v then s.cqError p n 3
  else (s.setCq p n { q with tail := v }).deliverHeld p n

/-! ## Fetching (R48, R49) -/

/-- Unreserved free entries of a CQ (R42, R49). -/
def Cq.room (q : Cq) : Nat := q.size - 1 - ringDist q.size q.tail q.head - q.reserved

/-- The port's interpreter may fetch: the part serves, the tile runs, fetch is not paused (R61, R63, R492), and no Direct Window
store of the port still waits to become visible (R62, R91). -/
def State.mayFetch (s : State) (p : Nat) : Bool :=
  s.serving && s.tileRuns p && !s.paused p && !s.epo.rollback &&
    (s.port p).heldDw.all (fun h => h.store.isNone) &&
    decide (((s.port p).fetches.filter (fun f => f.got.isNone)).length < 16)

/-- How many entries a turn of an SQ would fetch. -/
def State.fetchable (s : State) (p n : Nat) : Nat :=
  let q := s.sq p n
  let c := s.cq p q.cq.toNat
  if q.enable && !q.err && c.enable && !c.err then
    min (q.burstM1.toNat + 1) (min (ringDist q.size q.head q.tail) c.room)
  else 0

/-- The next SQ of a class in rotating ring order from `start`. -/
def State.nextSq (s : State) (p start : Nat) (urgent : Bool) : Option Nat :=
  ((List.range 64).map (fun i => (start + i) % 64)).find? (fun n =>
    (s.sq p n).urgent == urgent && decide (0 < s.fetchable p n))

/-- A fetch of the next `k` entries of an SQ: their completion entries are reserved (R49), their serial numbers given, and the
host read goes out, in two where the ring wraps among them (R40, R48). -/
def State.fetchEntries (p n k : Nat) (s : State) : State :=
  let q := s.sq p n
  let c := s.cq p q.cq.toNat
  let h := s.port p
  let a := min k (q.size - q.head)
  let s1 := s.emit (.hostRead p (s.sqAddr p n q.head) (64 * a))
  let s2 := if a < k then s1.emit (.hostRead p (s.sqAddr p n 0) (64 * (k - a))) else s1
  let s3 := ((s2.setSq p n { q with head := (q.head + k) % q.size }).setCq p q.cq.toNat
    { c with reserved := c.reserved + k }).setPort p { h with
      fetches := h.fetches ++ [{ sq := n, first := s.host.serial, entry := q.head, count := k, cq := q.cq.toNat,
                                 dead := false, got := none }] }
  { s3 with host := { s3.host with serial := s.host.serial + k } }

/-- One fetch of the next SQ in turn, urgent rings first (R48), after reserving its completion entries (R49). -/
def State.issueFetch (p : Nat) (s : State) : State :=
  if s.mayFetch p then
    let h := s.port p
    let pick := match s.nextSq p h.rotUrg true with
      | some n => some (n, true)
      | none => (s.nextSq p h.rotNorm false).map (fun n => (n, false))
    match pick with
    | none => s
    | some (n, urg) =>
      let k := s.fetchable p n
      let h1 : HostPort := { h with
        rotUrg := if urg then (n + 1) % 64 else h.rotUrg
        rotNorm := if urg then h.rotNorm else (n + 1) % 64 }
      (s.setPort p h1).fetchEntries p n k
  else s

/-! ## Starting commands (R53, R58, R61, R62) -/

/-- The opcodes of the opcode table (R59). -/
def opcodes : List Nat :=
  [0x01, 0x02, 0x03, 0x10, 0x11, 0x12, 0x13, 0x14, 0x15, 0x16, 0x18, 0x19, 0x20, 0x21, 0x22, 0x23, 0x24, 0x28, 0x29,
   0x2A, 0x40, 0x41, 0x42, 0x43, 0x44, 0x48, 0x49, 0x4A, 0x50, 0x51, 0x52, 0x58, 0x59, 0x5A]

def Cmd.fenced (k : Cmd) : Bool := pkt k.packet 1 1 % 2 == 1

/-- The reserved bits of the header (R52). -/
def Cmd.headerRsv (k : Cmd) : Bool := pkt k.packet 1 1 / 4 != 0 || pkt k.packet 4 4 != 0

/-- Marks a command as started, behind those started before it; one that names a slot of an active window is in flight for
it (R75). -/
def State.markStarted (k : Cmd) (s : State) : State :=
  let held := match k.slotWord with
    | some w => (s.win k.port (slotRef w).window).active
    | none => false
  let others := s.host.cmds.filter (fun j => !j.is k.port k.sq k.idx)
  s.setCmds (others.filter (fun j => j.started) ++ [{ k with started := true, held := held }] ++
    others.filter (fun j => !j.started))

/-- A command starts: its packet checks, then, from opcode 40h upward, the Curator queue (R53, R58, R61, R62, R430). A reserved
parameter bit of a management command is found as the Curator runs it, so after the answers of the queue (DESIGN CHOICE,
assumption 98). -/
def State.startCmd (k : Cmd) (s : State) : State :=
  if k.headerRsv then s.reply srcInterp k.ctx .reserved 0
  else if !opcodes.contains k.opcode then s.reply srcInterp k.ctx .opcode 0
  else if k.opcode < 0x40 then s.wake.markStarted k
  else if s.cur.primary.isNone then s.reply srcInterp k.ctx .roleChange 0
  else if 32 ≤ s.cur.queue.length then s.reply srcInterp k.ctx .queueFull 0
  else
    let s1 := (s.markStarted k).curWork
    { s1 with cur := { s1.cur with
      queue := s1.cur.queue ++ [{ ctx := some k.ctx, mailbox := none, opcode := BitVec.ofNat 8 k.opcode, params := [],
                                  committed := false }] } }

/-- The commands of an SQ that have not started, in ring order. -/
def State.unstarted (s : State) (p q : Nat) : List Cmd :=
  s.host.cmds.filter (fun k => k.port == p && k.sq == q && !k.started)

/-- The tiles whose operation tables a command takes an entry of (R22, R29): the homes of its lines, whose copy engines work for
it, the tile that it names, or else its port's. -/
def State.worksOn (s : State) (k : Cmd) : List Nat :=
  let o := k.opcode
  if 0x10 ≤ o ∧ o ≤ 0x16 then
    (k.ranges.flatMap (fun r => (foliosOf r.1 (min r.2.1 (16 * 65536))).map (fun f => s.home (512 * f)))).eraseDups
  else if 0x20 ≤ o then [pkt k.packet 8 1]
  else [k.port]

/-- The operations in flight that a tile's operation table holds (R22): the started data-path commands that work there. -/
def State.opsOn (s : State) (t : Nat) : Nat :=
  (s.host.cmds.filter (fun k => k.started && decide (k.opcode < 0x40) && (s.worksOn k).contains t)).length

/-- The entries of an operation table (R22). -/
def opTable : Nat := 4096

/-- An operation table that a command needs is full. -/
def State.opsFull (s : State) (k : Cmd) : Bool :=
  decide (k.opcode < 0x40) && (s.worksOn k).any (fun t => decide (opTable ≤ s.opsOn t))

/-- A command that may start now: its source holds no reply back (R67), its tile's operation table has room (R22), and, where
it is fenced, no earlier command of its SQ is left (R61). -/
def State.mayStart (s : State) (k : Cmd) : Bool :=
  (s.waiting k.port srcInterp).isEmpty && !s.opsFull k &&
    (!k.fenced || (s.host.cmds.find? (fun j => j.port == k.port && j.sq == k.sq)).any (fun j => j.idx == k.idx))

/-- Commands of an SQ start in ring order, as far as the first that may not (R61). -/
def State.startSome (p q fuel : Nat) (s : State) : State :=
  match fuel with
  | 0 => s
  | fuel + 1 =>
    match (s.unstarted p q).head? with
    | some k => if s.mayStart k then (s.startCmd k).startSome p q fuel else s
    | none => s

/-- The commands of an SQ that may start do. -/
def State.startReady (p q : Nat) (s : State) : State := s.startSome p q (s.unstarted p q).length

/-- The data of a fetch returns (R48, R50, R61); `first` is the serial number of its first command. -/
def State.fetchReturns (p q first : Nat) (es : List Fetched) (s : State) : State :=
  let h := s.port p
  let mark (f : Fetch) : Fetch := if f.sq == q && f.first == first && f.got.isNone then { f with got := some es } else f
  ((s.setPort p { h with fetches := h.fetches.map mark }).placeReady p q h.fetches.length).startReady p q

/-! ## Completions (R67, R68) -/

/-- The non-empty sources of a port in service order (R68). -/
def State.nonEmpty (s : State) (p : Nat) : List Nat :=
  ((List.range s.sources).map (fun i => ((s.port p).nextSrc + i) % s.sources)).filter (fun x => !(s.staged p x).isEmpty)

/-- One entry leaves a source's staging queue, and one that waits at the source takes its place (R67). -/
def State.takeCqe (p x : Nat) (s : State) : State :=
  let w := s.waiting p x
  let s1 := (s.setStaged p x ((s.staged p x).tail ++ w.take 1)).setWaiting p x w.tail
  s1.setPort p { s1.port p with nextSrc := (x + 1) % s1.sources }

/-- The heads of some staging queues, by CQ, the CQs in the order they come. -/
def groupCqes (l : List (Nat × Cqe)) : List (Nat × List Cqe) :=
  ((l.map (fun e => e.1)).eraseDups).map (fun n => (n, (l.filter (fun e => e.1 == n)).map (fun e => e.2)))

/-- The collector takes one entry from each of up to 4 non-empty sources, and those of one CQ leave together; without
posted-write credit it holds (R68). -/
def State.collect (p : Nat) (credit : Bool) (s : State) : State :=
  if credit then
    let xs := (s.nonEmpty p).take 4
    let es := xs.filterMap (fun x => (s.staged p x).head?)
    (groupCqes es).foldl (fun s g => s.deliver p g.1 g.2)
      (xs.foldl (fun s x => s.takeCqe p x) (s.setPort p { s.port p with noCredit := false }))
  else
    let s1 := if (s.port p).noCredit then s else s.pmcEdge p 0x63 0
    s1.setPort p { s1.port p with noCredit := true }

/-! ## The rows -/

def execSqDoorbell (port sq : Nat) (tail : BitVec 12) (s : State) : Host.Outcome State Fault Refusal :=
  s.bar0 port (fun s => s.sqTail port (sq % 64) tail.toNat)

def execCqDoorbell (port cq : Nat) (head : BitVec 12) (s : State) : Host.Outcome State Fault Refusal :=
  s.bar0 port (fun s => s.cqHead port (cq % 64) head.toNat)

def execSqCfgWrite (port sq : Nat) (value : Word) (s : State) : Host.Outcome State Fault Refusal :=
  s.bar0 port (fun s => s.writeSqCfg port (sq % 64) value.toNat)

def execCqCfgWrite (port cq : Nat) (value : Word) (s : State) : Host.Outcome State Fault Refusal :=
  s.bar0 port (fun s => s.writeCqCfg port (cq % 64) value.toNat)

/-- R63, R107: writing RING_GCTRL.resume resumes fetch on the port. -/
def State.resumeFetch (p : Nat) (s : State) : State :=
  let s1 := s.putField .ringGctrl p 0 31 31 0
  ((s1.port p).fetches.map (fun f => f.sq)).eraseDups.foldl (fun s q =>
    (s.placeReady p q (s.port p).fetches.length).startReady p q) s1

def execFetchResume (port : Nat) (s : State) : Host.Outcome State Fault Refusal :=
  s.bar0 port (fun s => s.resumeFetch port)

def execSqFetchIssue (port : Nat) (s : State) : Host.Outcome State Fault Refusal :=
  withUnit (s.hasPort port) (fun s => s.issueFetch port) s

def execSqFetchReturn (port sq first : Nat) (entries : List Fetched) (s : State) : Host.Outcome State Fault Refusal :=
  withUnit (s.hasPort port && s.hostUp port) (fun s => s.fetchReturns port (sq % 64) first entries) s

def execFencedCommandStart (port sq : Nat) (s : State) : Host.Outcome State Fault Refusal :=
  withUnit (s.hasPort port) (fun s => s.startReady port (sq % 64)) s

/-- The head of the Curator queue is journaled; its entry commits, and its effects follow as its own row (R62, R66). -/
def State.commitHead (s : State) : State :=
  match s.queueHead with
  | some h => { s with cur := { s.cur with
      queue := s.cur.queue.map (fun m => if m == h then { m with committed := true } else m) } }
  | none => s

def execCuratorCommandExecute (s : State) : Host.Outcome State Fault Refusal :=
  .next (if s.cur.primary.isSome then s.commitHead else s)

def execCompletionCollect (port : Nat) (credit : Bool) (s : State) : Host.Outcome State Fault Refusal :=
  withUnit (s.hasPort port) (fun s => if s.cry.haltCause != 0 || !s.portsUp then s else s.collect port credit) s

/-- The oldest unsignalled entry is as old as RING_CQ_COAL.time says, in 100 ns units; 0 is no timer (R43, R70). -/
def State.coalDue (s : State) (p n : Nat) : Bool :=
  let t := s.field .ringCqCoal p n 15 0
  match (s.cq p n).oldest with
  | some o => t != 0 && decide (o + 100 * t ≤ s.now)
  | none => false

def execCqCoalTimer (port cq : Nat) (s : State) : Host.Outcome State Fault Refusal :=
  withUnit (s.hasPort port) (fun s =>
    if s.coalDue port (cq % 64) && (s.cq port (cq % 64)).intEn then s.signalCq port (cq % 64) else s) s

/-- A held raise is sent once it can be (R70). -/
def State.sendPending (p v : Nat) (s : State) : State :=
  if tget (fun _ => false) s.host.pba (vecKey p v) && s.canSend p v then
    ({ s with host := { s.host with pba := tset (fun _ => false) s.host.pba (vecKey p v) false } } : State).emit
      (.msix p v)
  else s

def execMsixPendingSend (port vector : Nat) (s : State) : Host.Outcome State Fault Refusal :=
  withUnit (s.hasPort port) (fun s => s.sendPending port (vector % 2048)) s

end Sys2Proof.Machine
end

