-- ==== Sys2Proof/Machine/Windows.lean ====
section
/-! DEFINITION. Exchange windows (R74 to R83) and the Direct Window (R85 to R93, R105, R187, R492). -/

namespace Sys2Proof.Machine

/-! ## Exchange windows -/

/-- XW_WIN_CFG of window `n` (R75). -/
def winCfgOff (n : Nat) : Nat := 0x40010 + 0x20 * n

/-- The fields of a write of XW_WIN_CFG other than enable (R75). -/
def Win.fields (v : Win) (w : Nat) : Win :=
  { v with shift := BitVec.ofNat 5 (bits w 24 20), slotsM1 := BitVec.ofNat 18 (bits w 17 0) }

/-- Whether enable is refused (R76): slot size out of range, or a window above 1 GiB. -/
def Win.refused (v : Win) : Bool :=
  decide (v.shift.toNat < 12 ∨ 20 < v.shift.toNat ∨ 2 ^ 30 < (v.slotsM1.toNat + 1) * v.slotSize)

/-- A write of XW_WIN_CFG through port `p` (R76, R82). -/
def State.writeWinCfg (p n w : Nat) (s : State) : State :=
  let v := s.win p n
  let f := v.fields w
  let en := bits w 31 31 == 1
  if v.enable || v.draining then
    let s1 : State := if f != v || (en && v.draining) then s.refusedWrite p p (winCfgOff n) w else s
    if v.enable && !en then s1.setWin p n { v with enable := false, draining := !(s.inflight p n).isEmpty }
    else s1
  else if en && f.refused then (s.setWin p n f).refusedWrite p p (winCfgOff n) w
  else s.setWin p n { f with enable := en }

def execXwWinCfgWrite (port win : Nat) (value : Word) (s : State) : Host.Outcome State Fault Refusal :=
  s.bar0 port (fun s => s.writeWinCfg port (win % 4) value.toNat)

/-- draining clears once no command in flight names the window (R82). -/
def State.drainEnd (p n : Nat) (s : State) : State :=
  if (s.win p n).draining && (s.inflight p n).isEmpty then s.setWin p n { s.win p n with draining := false } else s

def execWindowDrainEnd (port win : Nat) (s : State) : Host.Outcome State Fault Refusal :=
  withUnit (s.hasPort port) (fun s => s.drainEnd port (win % 4)) s

/-! ## Direct Window -/

/-- A write of DW_APT; in full mode it is ignored (R85, R86). -/
def State.writeApt (p w : Nat) (s : State) : State :=
  if s.pwr.straps.barmode then s.putField .dwApt p 0 18 0 w else s

def execDwAptWrite (port : Nat) (value : Word) (s : State) : Host.Outcome State Fault Refusal :=
  s.bar0 port (fun s => s.writeApt port value.toNat)

/-- The part address of a BAR2 offset (R85). -/
def State.dwPa (s : State) (p off : Nat) : Nat := s.dwBase p * 2 ^ 30 + off

/-- An access beyond the user capacity is counted and recorded (R87). -/
def State.outOfRange (p pa : Nat) (s : State) : State :=
  (s.bump .dwOor p 0).annal p { code := 0x1002, addr := pa, value := p }

/-- A line that the host-window agent reads: its data, or nothing where the reply is poisoned (R92, R93). -/
def State.dwLine (p l : Nat) (env : MediaEnv) (s : State) : Option Line × State :=
  if (s.denied p (s.kidOf (folioOf l)) false).isSome then (none, s.deny p l)
  else
    let (r, s1) := s.readLine p l env
    if r.unrec || r.v.poison then (none, s1) else (some r.v.data, s1)

/-- The bytes of a BAR2 read, line by line; bytes beyond the capacity read as zero (R87). Some line may poison it. -/
def State.dwBytes (p pa len : Nat) (env : MediaEnv) (s : State) : Option (List Byte) × State :=
  (linesOf pa len).foldl (fun a l =>
    if a.2.capacity ≤ 128 * l then (a.1.map (fun b => b ++ lineSlice l pa len 0), a.2)
    else
      match a.2.dwLine p l env with
      | (none, s1) => (none, s1)
      | (some d, s1) => (a.1.map (fun b => b ++ lineSlice l pa len d), s1)) (some [], s)

/-- A BAR2 read is served (R87 to R93). -/
def State.serveRead (p pa len : Nat) (env : MediaEnv) (s : State) : State :=
  let s0 : State := if s.capacity < pa + max 1 len then s.outOfRange p pa else s
  match s0.dwBytes p pa len env with
  | (some b, s1) =>
    let (bad, s2) := s1.passItem p 1
    s2.emit (.dwReply p true bad (if bad then [] else b))
  | (none, s1) => s1.emit (.dwReply p true true [])

/-- A discarded store line is counted and recorded (R92, R93): cause 1 rights, 2 failed merge. -/
def State.storeLost (p l cause : Nat) (s : State) : State :=
  (s.bump .dwWrLost p 0).annal p { code := 0x1004, addr := 128 * l, value := cause, aux := p }

/-- The bytes a store puts into a line. -/
def storeBytes (pa : Nat) (b : List (Option Byte)) (l i : Nat) : Option Byte :=
  if pa ≤ 128 * l + i then (b.getD (128 * l + i - pa) none) else none

/-- One line of a store: discarded without the right or where the merge fails, or written (R89, R92, R93). A line
none of whose bytes is enabled is left alone. -/
def State.storeLine (p pa : Nat) (b : List (Option Byte)) (env : MediaEnv) (l : Nat) (s : State) : State :=
  let f := storeBytes pa b l
  if !(List.range 128).any (fun i => (f i).isSome) || decide (s.capacity ≤ 128 * l) then s
  else if (s.denied p (s.kidOf (folioOf l)) true).isSome then (s.deny p l).storeLost p l 1
  else
    match s.writeBytes p l f env with
    | (.done _, s1) => s1
    | (.unrec, s1) => (s1.storeLost p l 2).raiseEvent 2
    | (.poison, s1) => (s1.storeLost p l 2).raiseEvent 2

/-- A BAR2 write is served (R87 to R93); while the part is read-only it is discarded and counted at the home of its
first line (R187). -/
def State.serveStore (p pa : Nat) (b : List (Option Byte)) (env : MediaEnv) (s : State) : State :=
  let s0 : State := if s.capacity < pa + b.length then s.outOfRange p pa else s
  if s0.med.readOnly then
    if s0.capacity ≤ pa then s0 else s0.bump .medRoWrites (s0.home (pa / 128)) 0
  else (linesOf pa b.length).foldl (fun s l => s.storeLine p pa b env l) s0

/-- A BAR2 request waits for the end of a rollback (R105), with the address it arrived at. -/
def State.holdDw (p : Nat) (h : HeldAccess) (s : State) : State :=
  let v := s.port p
  s.setPort p { v with heldDw := v.heldDw ++ [h] }

/-- Whether BAR2 is served: the part is ready and not halted, in a lifecycle state that has a data path (R397, R455, R492). -/
def State.bar2Open (s : State) : Bool :=
  s.serving && (s.cur.lifecycle == .opened || s.cur.lifecycle == .sealed)

def State.bar2 (s : State) (p : Nat) : Bool := s.bar2Open && s.tileRuns p

/-- An AtomicOp request of BAR2 is an Unsupported Request (R88); the opcode table has no row for one. -/
def State.bar2Atomic (p : Nat) (s : State) : State := s.emit (.unsupported p)

/-- A BAR2 request is served. -/
def State.serveDw (p : Nat) (h : HeldAccess) (s : State) : State :=
  match h.store with
  | some b => s.serveStore p h.offset.toNat b h.env
  | none => s.serveRead p h.offset.toNat h.len h.env

/-- The requests a port holds are served in order, up to the first that must wait (R105; assumption 99). -/
def State.serveHeld (p : Nat) : List HeldAccess → State → State
  | [], s => s.setPort p { s.port p with heldDw := [] }
  | h :: l, s =>
    let t := s.serveDw p h
    match t.cat.forged with
    | some (line, cause) => s.securityHalt cause (s.home line) (128 * line)
    | none =>
      if t.cat.stuck then (t.asking s).setPort p { s.port p with heldDw := h :: l } else t.tellFaults.undoTriggers.serveHeld p l

/-- A write of EPO_CTRL.close that met stores of its port which still waited is a trigger once they are visible (R91). -/
def State.closeLate (p : Nat) (s : State) : State :=
  let h := s.port p
  if h.closeHeld && h.heldDw.all (fun x => x.store.isNone) then (s.setPort p { h with closeHeld := false }).trigger .ctrl
  else s

/-- Held triggers act together on the epoch that the rollback opened, once every store it held is visible (R534). -/
def State.actHeld (s : State) : State :=
  if s.epo.rollback || s.epo.heldTrig.isEmpty ||
      s.ports.any (fun p => (s.port p).heldDw.any (fun h => h.rolled && h.store.isSome)) then s
  else
    let high := s.tileList.any (fun t => s.undoHigh t)
    let trs := s.epo.heldTrig.filter (fun t => t != .auto && (t != .undoLog || high))
    let s1 : State := { s with epo := { s.epo with heldTrig := [] } }
    if trs.isEmpty then s1
    else if s1.coordinated then s1.actTriggers trs
    else { s1 with epo := { s1.epo with later := trs } }

/-- Requests held by a rollback, and those that a write of theirs made wait, proceed in order (R105); then what waited for their
stores. -/
def State.releaseHeld (p : Nat) (s : State) : State := ((s.serveHeld p (s.port p).heldDw).closeLate p).actHeld

/-- A BAR2 request is accepted: a rollback holds it, otherwise it is served after those the port holds (R105). -/
def State.takeDw (p : Nat) (h : HeldAccess) (s : State) : State :=
  let s := (s.pmcEdge p 0x60 0).wake.holdDw p h
  if s.epo.rollback then s else s.releaseHeld p

/-- A BAR2 Memory Read: Completer Abort before ready, in the security halt and in BLANK and SCRAPPED (assumption 56), otherwise
held or served. One that reaches a stopped tile is not answered. -/
def execDwRead (port : Nat) (offset : DWord) (len : Nat) (env : MediaEnv) (s : State) :
    Host.Outcome State Fault Refusal :=
  withUnit (s.hasPort port) (fun s =>
    if !s.hostUp port then s
    else if !s.bar2Open then s.emit (.dwReply port false false [])
    else if !s.tileRuns port then s
    else s.takeDw port { offset := BitVec.ofNat 64 (s.dwPa port offset.toNat), len := len, store := none, env := env }) s

/-- A BAR2 Memory Write: discarded before ready and in the security halt, otherwise held or served. -/
def execDwStore (port : Nat) (offset : DWord) (bytes : List (Option Byte)) (env : MediaEnv) (s : State) :
    Host.Outcome State Fault Refusal :=
  withUnit (s.hasPort port) (fun s =>
    if !s.hostUp port || !s.bar2 port then s
    else s.takeDw port { offset := BitVec.ofNat 64 (s.dwPa port offset.toNat), len := bytes.length, store := some bytes,
                         env := env }) s

end Sys2Proof.Machine
end

