-- ==== Sys2Proof/Machine/Resets.lean ====
section
/-! DEFINITION. What a reset leaves: rings and windows of a port, the blocks of a tile, every island but aon, and the
recovery to D (R15, R65, R83, R106, R126, R222, R277, R304, R329, R398, R417, R484). -/

namespace Sys2Proof.Machine

/-! ## Host ports -/

/-- The replies a port still owes: staged, held for a ring, and of commands in the part. -/
def State.owed (s : State) (p : Nat) : Nat :=
  ((s.host.srcQ ++ s.host.srcWait).filter (fun e => e.1 / 64 == p)).foldl (fun a e => a + e.2.length) 0
    + (s.host.cqs.filter (fun e => e.1 / 64 == p)).foldl (fun a e => a + e.2.held.length) 0

/-- The rings, windows, vectors and held accesses of a port return to their reset values (R43, R70, R83). -/
def State.clearBank (p : Nat) (s : State) : State :=
  let h := s.port p
  let s1 := s.setPort p { h with
    msixEn := false, fmask := false, rotUrg := 0, rotNorm := 0, nextSrc := 0, fetches := [], heldDw := [] }
  { s1 with host := { s1.host with
      sqs := tdrop (fun k => k / 64 == p) s1.host.sqs
      cqs := tdrop (fun k => k / 64 == p) s1.host.cqs
      srcQ := tdrop (fun k => k / 64 == p) s1.host.srcQ
      srcWait := tdrop (fun k => k / 64 == p) s1.host.srcWait
      msix := tdrop (fun k => k / 2048 == p) s1.host.msix
      pba := tdrop (fun k => k / 2048 == p) s1.host.pba
      wins := tdrop (fun k => k / 4 == p) s1.host.wins } }

/-- A host port resets as by an FLR (R64, R83): commands already started complete inside the part with their replies
discarded, the others are gone, replies not yet written are discarded and counted. -/
def State.flrPort (p : Nat) (s : State) : State :=
  let n := s.owed p
  let s1 : State := { s with regs := resetRegs (.flr p) s.regs }
  let s2 := (s1.clearBank p).count .ringFlrDrops p 0 31 0 n
  s2.setCmds ((s2.host.cmds.filter (fun k => k.port != p || k.started)).map (fun k =>
    if k.port == p then { k with dropped := true, passed := k.passed || k.held, held := false } else k))

/-- The commands of a port end without a reply (R65). -/
def State.endCmds (p : Nat) (s : State) : State :=
  { s with
    host := { s.host with cmds := s.host.cmds.filter (fun k => k.port != p) }
    cur := { s.cur with queue := s.cur.queue.filter (fun m => !m.ctx.any (fun c => onPort c p)) }
    epo := { s.epo with waiters := s.epo.waiters.filter (fun w => !onPort w.ctx p) } }

/-! ## Recovery to D (R104, R106, R126) -/

/-- One undo entry is replayed: the old value returns. -/
def State.undoOne (u : Undo) (s : State) : State := s.setEntry u.leaf u.key u.old

/-- A near-cache line of an epoch above D is dropped, a pinned one to be refilled (R104). -/
def NcLine.atD (d : Nat) (v : NcLine) : NcLine :=
  if v.epoch ≤ d then v
  else if v.pin || v.st == .refill then { v with st := .refill, up := false, wb := false, poison := false, data := 0, epoch := 0 }
  else {}

/-- Catalogue, staging and media return to D: the undo log is replayed from the newest entry back, the leaf groups that no entry
names any longer are free, staging above D is dropped and pages above D are dead (R104, R126). -/
def State.restoreData (d : Nat) (s : State) : State :=
  let s1 := (s.cat.undo.filter (fun u => d < u.epoch)).foldl (fun s u => s.undoOne u) s
  let s2 : State := { s1 with cat := { s1.cat with
    undo := s1.cat.undo.filter (fun u => u.epoch ≤ d)
    bufs := s1.cat.bufs.filter (fun b => b.epoch ≤ d)
    notes := tmap (fun _ => []) (fun _ l => l.filter (fun n => n.epoch ≤ d)) s1.cat.notes } }
  s2.tileList.foldl (fun s t => (s.killPages t d).sweepGroups t) s2

/-- No boot has ever been ready: no epoch has been discarded since the part was made (R101). -/
def State.neverBooted (s : State) : Bool := s.field .anlBoot 0 0 14 0 == 0 && s.lowMarker == 0 && s.med.spareSet.isNone

/-- The epochs as a boot finds them (R106). Markers above D, on tiles that are ahead, are those of discarded epochs. -/
def State.bootEpochs (s : State) : State :=
  let d := s.lowMarker
  let high := s.tileList.foldl (fun a t => max a (tget (fun _ => 0) s.epo.marker t)) 0
  { s with epo := { s.epo with
      openE := high + 1, sealed := d, durable := d, abortFirst := if s.neverBooted then 0 else d + 1, abortLast := high, aborts := 0,
      rollback := false, sealing := none, later := [], heldTrig := [], autoStart := s.now, written := false,
      writtenNext := false, waiters := [], stamp := [], walks := [], walked := [], coord := 0, timeTile := 0,
      marker := tmap (fun _ => 0) (fun _ n => min n d) s.epo.marker, undoFull := 0 } }

/-! ## Tiles -/

/-- Fault sources after a reset of their block: windows and raised are of class V, totals of class C (R425). -/
def Src.afterReset (total : Bool) (v : Src) : Src :=
  { v with raised := false, winAt := none, window := 0, total := if total then 0 else v.total,
           tLast := if total then 0 else v.tLast }

/-- The near-cache lines after tile `t` reset: its own are gone, and other tiles lose every line homed on it without
writing it back, their pinned ones to be refilled (R222). -/
def State.resetLine (t : Nat) (s : State) (k : Nat) (v : NcLine) : NcLine :=
  if k / 2 ^ 42 == t then {}
  else if s.home (k % 2 ^ 42) == t then
    if v.pin || v.st == .refill then { v with st := .refill, up := false, wb := false, poison := false, data := 0, epoch := 0 }
    else {}
  else v

/-- A directory entry without a tile's bits. -/
def Dir.without (t : Nat) (v : Dir) : Dir :=
  { v with sharers := v.sharers &&& ~~~tileBit t, pins := v.pins &&& ~~~tileBit t,
           st := if v.sharers &&& ~~~tileBit t == 0 then .free else v.st }

/-- A transaction after tile `t` reset: its own tile's are gone, and no answer of `t` is awaited. -/
def Tx.without (t : Nat) (x : Tx) : Option Tx :=
  if x.req == t then none
  else some { x with await := x.await.filter (· != t), gone := x.gone.filter (· != t),
                     room := x.room.filter (fun q => q.tile != t) }

/-- The saddle links of a tile lose their training on both sides (R39). -/
def CohState.dropSaddles (t : Nat) (c : CohState) : CohState :=
  let down (m : Tbl (BitVec 3)) (k : Nat) : Tbl (BitVec 3) :=
    tset (fun _ => 0) m (t ^^^ 2 ^ k) (tget (fun _ => 0) m (t ^^^ 2 ^ k) &&& ~~~(BitVec.ofNat 3 (2 ^ k)))
  { c with saddleUp := (List.range 3).foldl down (tset (fun _ => 0) c.saddleUp t 0) }

/-- The coherence state after tile `t` reset (R222): what others had asked of it waits in their miss entries until it is ready; the
oldest ticket of a line whose transaction was its own is served (R209). -/
def State.resetCoh (t : Nat) (s : State) : State :=
  let mine (l : Nat) : Bool := match s.tx l with
    | some x => x.req == t
    | none => false
  let s1 : State := { s with
    coh := { s.coh with
      nc := tmap (fun _ => {}) (fun k v => s.resetLine t k v) s.coh.nc
      miss := tmap (fun _ => none) (fun k v =>
        if s.home (k % 2 ^ 42) == t then v.map (fun m => { m with waiting := true, nackAt := none, ticketed := false }) else v)
        (tdrop (fun k => k / 2 ^ 42 == t) s.coh.miss)
      waits := s.coh.waits.filter (fun w => w.tile != t)
      evbufs := s.coh.evbufs.filter (fun b => b.tile != t && s.home b.line != t)
      dir := tmap (fun _ => {}) (fun k v =>
        if s.home k == t then {}
        else { v.without t with busy := v.busy && !mine k
                                ticketed := s.coh.tickets.any (fun q => q.tile != t && q.line == k) }) s.coh.dir
      txs := tmap (fun _ => none) (fun k v => if s.home k == t then none else v.bind (Tx.without t)) s.coh.txs
      tickets := s.coh.tickets.filter (fun k => k.tile != t && s.home k.line != t)
      wbUsed := tdrop (fun k => k / 8 == t || k % 8 == t) s.coh.wbUsed
      saddleUp := (s.coh.dropSaddles t).saddleUp }
    net := s.net.filter (fun m => m.src != t && m.dst != t) }
  let s2 := (s1.coh.txs.filterMap (fun e => e.2.map (fun x => (e.1, x)))).foldl (fun s e =>
    if e.2.await.isEmpty && !e.2.sent then s.settleTx e.1 e.2 else s) s1
  ((s1.coh.tickets.map (fun k => k.line)).eraseDups).foldl (fun (s : State) l => if s.lineBusy l then s else s.nextTicket l) s2

/-- Every port of a tile with stored enable trains from RESET (R277). -/
def State.trainPorts (t : Nat) (s : State) : State :=
  (List.range 8).foldl (fun (s : State) p =>
    if s.field .slkPortCfg t p 31 31 = 1 && s.hasSport t p && (s.sport t p).st == .disabled then
      s.setSport t p { s.sport t p with st := .reset, since := s.now }
    else s) s

/-- The blocks of one tile return to reset, but for what belongs to the whole part (R222, R277, R304, R329, R375, R417,
R425, R506). The counter cache is written back first (R375). -/
def State.resetTile (t : Nat) (s : State) : State :=
  let s0 := s.writeBackNodes t
  let s1 : State := { s0 with regs := resetRegs (.tile t) s0.regs }
  let s2 := ((s1.pressed (fun s => s.resetCoh t)).disablePorts t).killUnprogrammed t
  { s2 with
    med := { s2.med with
      reads := tdrop (fun k => s2.home k == t) s2.med.reads
      cals := tdrop (· == t) s2.med.cals
      chans := tmap (fun _ => {}) (fun k h =>
        if k / 16 == t then { h with queue := [], granted := none, heldCmds := [], loads := [], back := [], carried := [],
                                     ended := [], sinceBg := 0,
                                     caCrc := 0 } else h) s2.med.chans }
    rte := { s2.rte with
      routes := tdrop (fun k => k / 1024 == t) s2.rte.routes
      engines := tdrop (fun k => k / 8 == t) s2.rte.engines
      landing := tdrop (fun k => k / 4096 == t) s2.rte.landing }
    cap := { s2.cap with
      regions := tdrop (fun k => k / 512 == t) s2.cap.regions
      ingests := tdrop (fun k => k / 8 == t) s2.cap.ingests }
    cry := { s2.cry with
      passes := tdrop (fun k => k / 128 == t) s2.cry.passes
      nodes := tmap (fun _ => {}) (fun k n => if k / 2 ^ 40 == t then { n with cached := false } else n) s2.cry.nodes
      devHits := tdrop (fun k => k / 64 == t) s2.cry.devHits }
    flt := { s2.flt with
      slots := tdrop (fun k => k / 32 == t) s2.flt.slots
      srcs := tmap srcDefault (fun k v => if k / 4096 == t then v.afterReset false else v) s2.flt.srcs
      inj := s2.flt.inj.filter (fun j => j.tile != t) }
    anl := { s2.anl with rings := tset (fun _ => []) s2.anl.rings t [] }
    cat := { s2.cat with relocs := tset (fun _ => none) s2.cat.relocs t none
                         cache := tdrop (fun k => k / catSets == t) s2.cat.cache }
    pmc := { s2.pmc with
      cnt := tdrop (fun k => k / 64 == t) s2.pmc.cnt
      snapCnt := tdrop (fun k => k / 64 == t) s2.pmc.snapCnt
      td := tdrop (fun k => k / 96 == t) s2.pmc.td
      tdSnap := tdrop (fun k => k / 96 == t) s2.pmc.tdSnap
      frozenT := s2.pmc.frozenT &&& ~~~tileBit t } }

/-! ## The whole part -/

/-- A class C count or state is kept by WARM and lost on COLD, POR and P3 (R15). -/
def Rst.hard : Rst → Bool
  | .cold | .por | .p3 => true
  | .flr _ | .cur | .tile _ | .warm | .p2 => false

/-- Every island but aon returns to reset: WARM keeps the DDR5 content and what is of class C, the others discard both
(R15, R65, R83, R136, R153, R222, R277, R304, R329, R365, R397, R398, R417, R484). -/
def State.resetIslands (e : Rst) (s : State) : State :=
  let hard := e.hard
  let s1 : State := { s with regs := resetRegs e s.regs }
  { s1 with
    host := { s1.host with
      ports := tmap (fun _ => {}) (fun _ h => { perstLow := h.perstLow }) s1.host.ports
      sqs := [], cqs := [], cmds := [], srcQ := [], srcWait := [], msix := [], pba := [], wins := []
      features := if hard then { s1.host.features with wall := 0, wallAt := 0 } else s1.host.features }
    coh := { nc := [], ceWins := if hard then [] else s1.coh.ceWins,
             dirCeWins := if hard then [] else s1.coh.dirCeWins }
    lnk := {}, rte := {}, cap := {}
    med := { s1.med with
      chans := if hard then [] else tmap (fun _ => {}) (fun _ (h : Chan) =>
        if h.degraded then { trained := h.trained, degraded := true, rate := h.rate } else {}) s1.med.chans
      targets := if hard then [] else tmap (fun _ => {}) (fun _ (v : Target) => { failed := v.failed }) s1.med.targets
      reads := [], cals := [] }
    cat := { s1.cat with
      relocs := []
      folios := if hard then [] else s1.cat.folios
      leaves := if hard then [] else s1.cat.leaves
      bufs := if hard then [] else s1.cat.bufs
      undo := if hard then [] else s1.cat.undo
      heat := if hard then [] else s1.cat.heat
      groups := if hard then [] else s1.cat.groups
      mergeDue := if hard then [] else s1.cat.mergeDue
      found := if hard then [] else s1.cat.found
      cache := [], weedAt := [], want := [], broken := [], faults := []
      notes := if hard then [] else s1.cat.notes
      lost := if hard then [] else s1.cat.lost }
    cry := { s1.cry with
      passes := []
      tracts := if hard then [] else s1.cry.tracts
      leaves := if hard then [] else s1.cry.leaves
      major := if hard then [] else s1.cry.major
      nodes := if hard then [] else tmap (fun _ => {}) (fun _ n => { n with cached := false }) s1.cry.nodes
      rekeying := if hard then [] else s1.cry.rekeying
      oldKey := if hard then [] else s1.cry.oldKey
      lostList := if hard then [] else s1.cry.lostList
      devHits := []
      halted := if hard then 0 else s1.cry.halted
      haltCause := if hard then 0 else s1.cry.haltCause
      haltTile := if hard then 0 else s1.cry.haltTile
      haltAddr := if hard then 0 else s1.cry.haltAddr }
    flt := { s1.flt with
      slots := [], inj := [], shakes := [], halted := 0, resetting := []
      failed := if hard then 0 else s1.flt.failed
      resets := if hard then [] else s1.flt.resets
      srcs := tmap srcDefault (fun _ v => v.afterReset hard) s1.flt.srcs }
    anl := { s1.anl with
      rings := if hard then [] else s1.anl.rings
      nextSeq := if hard then [] else s1.anl.nextSeq }
    cur := { s1.cur with
      queue := [], mailbox := {}, staged := {}, activation := none, report := none
      fails := if hard then [] else s1.cur.fails
      dead := if hard then [] else s1.cur.dead }
    thm := { s1.thm with
      level := [], ddrForced := [], maxLevel := [], maxDdr := []
      sensors := tmap (fun _ => {}) (fun _ v =>
        if hard then { v with broken := false, cause := 0, same := 0, refs := [], moved := false, reading := 0 }
        else { v with reading := 0 }) s1.thm.sensors }
    pwr := { s1.pwr with
      pwr := .p0, trans := none, down := none, ready := false, scanning := false, scanned := []
      mediaPages := [], ddrGib := [], resetAt := s1.now }
    pmc := {}
    net := [] }

/-- An image slot that was written and holds no valid image, or one below CUR_FW_MIN (R445). -/
def State.imageBad (s : State) (t b : Nat) : Bool :=
  let v := s.image t b
  if v.valid then decide (v.version.toNat < s.reg .curFwMin 0 0)
  else s.cur.chunks.any (fun e => e.1 / imageSpace == 2 * t + b)

/-- The image a unit boots from: the one its store records as active, otherwise the one STRAP_BOOT prefers; the other one, where that is
not valid (R445). -/
def State.bootSlot (s : State) (t : Nat) : Nat :=
  let b := (tget (fun _ => none) s.cur.active t).getD (if s.pwr.straps.boot then 1 else 0)
  if s.imageBad t b && !s.imageBad t (1 - b) then 1 - b else b

/-- The unit that boots as primary: the one STRAP_CURATOR names, unless it stays failed or has no valid image (R426, R429, R445,
R489). -/
def State.bootPrimary (s : State) : Nat :=
  let t := if s.pwr.straps.curator && !s.pwr.strapBad then 1 else 0
  if s.cur.dead.contains t || (s.imageBad t 0 && s.imageBad t 1) then 1 - t else t

/-- Both Curator units reboot (R426, R491 step 6). -/
def State.rebootCurators (s : State) : State :=
  { s with cur := { s.cur with
      primary := none, restart := some s.bootPrimary, standby := .none, beat := []
      runSlot := [0, 1].foldl (fun m t => tset (fun _ => 0) m t (s.bootSlot t)) s.cur.runSlot } }

/-- No program that a reset of the part cut short counts (R148). -/
def State.killAll (s : State) : State := s.tileList.foldl (fun s t => s.killUnprogrammed t) s

/-- The part after WARM: the counter caches written back, the Catalogue brought to D, its Curators rebooting, every stored-enabled port training, and its boot
without a scan to come (R106, R126, R277, R484). -/
def State.afterWarm (s : State) : State :=
  let s1 := (((s.tileList.foldl (fun s t => s.writeBackNodes t) s).resetIslands .warm).restoreData s.lowMarker).killAll
  let s2 := s1.bootEpochs
  let s3 := (s2.tileList.foldl (fun s t => s.trainPorts t) s2).rebootCurators
  let last := if s.pwr.ready then 2 else min 2 s.pwr.lastReset
  { s3 with pwr := { s3.pwr with warmBoot := true, lastReset := last, islands := true } }

/-- The part under reset with its DDR5 content gone: a scan rebuilds the Catalogue once the islands run again (R106,
R136). -/
def State.afterHard (e : Rst) (s : State) : State :=
  let s1 := (s.resetIslands e).bootEpochs
  { s1 with pwr := { s1.pwr with warmBoot := false } }

/-- The islands other than aon are released: the boot that scans begins, as CAT_RBLD.active shows, and the stored-enabled ports
train (R140, R277, R471, R491). Mis-set straps keep every tile but tile 0 in reset (R489). -/
def State.releaseIslands (s : State) : State :=
  let s1 : State := { s with pwr := { s.pwr with islands := true, scanning := true, resetAt := s.now } }
  if s.pwr.strapBad then s1
  else s1.tileList.foldl (fun s t => (s.trainPorts t).putField .catRbld t 0 31 31 1) s1

end Sys2Proof.Machine
end

