-- ==== Sys2Proof/Machine/Seq.lean ====
section
/-! DEFINITION. The rail sequencer: its programs, steps, monitors and requests (R464 to R476), and the commit of a program
(R495). -/

namespace Sys2Proof.Machine

/-! ## Programs (R465, R466, R468) -/

/-- The parts of a step. -/
def stepOp (w : DWord) : Nat := bits w.toNat 63 60
def stepN (w : DWord) : Nat := bits w.toNat 4 0
def stepMon (w : DWord) : Nat := bits w.toNat 52 48
def stepArm (w : DWord) : Nat := bits w.toNat 55 54
def stepLo (w : DWord) : Nat := bits w.toNat 47 36
def stepHi (w : DWord) : Nat := bits w.toNat 35 24
def stepTimeout (w : DWord) : Nat := bits w.toNat 23 16
def stepElse (w : DWord) : Nat := bits w.toNat 15 8
def stepUnwind (w : DWord) : Nat := bits w.toNat 7 0

/-- A step that R466 encodes, in a program of `n` steps. -/
def stepValid (n : Nat) (w : DWord) : Bool :=
  match stepOp w with
  | 1 | 2 => bits w.toNat 59 5 == 0 && decide (stepN w ≤ 23)
  | 3 => bits w.toNat 59 32 == 0
  | 4 => bits w.toNat 59 56 == 0 && bits w.toNat 53 53 == 0 && stepArm w != 3 && decide (stepLo w ≤ stepHi w) &&
      decide (stepElse w < n) && decide (stepUnwind w < n)
  | 5 => bits w.toNat 59 8 == 0 && decide (bits w.toNat 7 0 < n)
  | 6 => bits w.toNat 59 0 == 0
  | _ => false

/-- The steps of an image. -/
def imageSteps (b : List Byte) : List DWord :=
  (List.range (byteField b 6 2)).map (fun i => BitVec.ofNat 64 (byteField b (16 + 8 * i) 8))

/-- The header of an image is as R465 gives it. -/
def imageHeader (b : List Byte) : Bool :=
  byteField b 0 4 == 0x51535A56 && byteField b 4 2 == 1 && decide (1 ≤ byteField b 6 2 ∧ byteField b 6 2 ≤ 256) &&
    decide (byteField b 8 1 < byteField b 6 2) && decide (byteField b 9 1 < 4)

/-- The CRC covers bytes 0 to 11 and every step. -/
def imageCrc (b : List Byte) : Bool :=
  byteField b 12 4 == crc32c (b.take 12 ++ (b.drop 16).take (8 * byteField b 6 2))

/-- What is wrong with an image: 02h header or step, 01h CRC, 00h nothing (R468, R495). -/
def imageError (b : List Byte) : Nat :=
  if !imageHeader b then 2
  else if !imageCrc b then 1
  else if (imageSteps b).all (stepValid (byteField b 6 2)) then 0 else 2

/-- The program an image holds. -/
def imageProgram (b : List Byte) : Program :=
  { steps := imageSteps b, sdEntry := byteField b 8 1, autoOn := byteField b 9 1 % 2 == 1,
    restart := byteField b 9 1 / 2 % 2 == 1, minOff := max 100 (byteField b 10 2) }

/-! ## States (R471) -/

/-- The step being run, while a program runs. -/
def State.seqStep (s : State) : Option DWord :=
  if s.pwr.st == .rising || s.pwr.st == .falling then s.pwr.prog.steps[s.pwr.step]? else none

/-- The next step starts; no monitor has been scanned since. -/
def State.goStep (n : Nat) (s : State) : State :=
  { s with pwr := { s.pwr with step := n, stepAt := s.now, fresh := 0 } }

/-- The shut-down program is entered at a step: every island but aon enters reset, every monitor is disarmed, latched
requests that led here are acted on, and the Curator on the primary tile goes on in its shelf form (R470, R471, R474, R478). -/
def State.enterFalling (n : Nat) (s : State) : State :=
  let was := s.pwr.pwr
  let s1 := if s.pwr.st == .up then s.afterHard .cold else s
  { s1 with
    cur := { s1.cur with standby := .none }
    pwr := { s1.pwr with
      st := .falling, step := n, stepAt := s.now, fresh := 0, armed := [], islands := false, offLatched := false, pwr := was,
      trans := none, down := none, ready := false, scanning := false } }

/-- The power-up program starts from step 0. -/
def State.startRising (s : State) : State :=
  { s with pwr := { s.pwr with st := .rising, step := 0, stepAt := s.now, fresh := 0, onLatched := false, offLatched := false } }

/-- The shut-down entry of a fault while rising: the unwind step of the first CHECK at or after the current step, or
sd_entry (R473). -/
def State.unwindStep (s : State) : Nat :=
  match (s.pwr.prog.steps.drop s.pwr.step).find? (fun w => stepOp w == 4) with
  | some w => stepUnwind w
  | none => s.pwr.prog.sdEntry

/-- A fault that shuts down, and a loss of the input supply (R470, R473, R475). -/
def State.shutDown (s : State) : State :=
  match s.pwr.st with
  | .up => s.enterFalling s.pwr.prog.sdEntry
  | .rising => s.enterFalling s.unwindStep
  | .down | .falling | .holdOff => s

/-- A failed CHECK or armed monitor: recorded as 0x9003, with an event of source 11h, and kept in SEQ_FAULT (R467,
R470). -/
def State.railFault (m mv : Nat) (s : State) : State :=
  let s1 := s.annal 0 { code := 0x9003, addr := m, value := mv }
  (s1.fault 0 (srcId 0x11 0) {}).putReg .seqFault 0 0
    (2 ^ 31 + m * 2 ^ 24 + s.pwr.step % 256 * 2 ^ 16 + mv % 4096)

/-! ## Requests (R472 to R475) -/

/-- A transition to a power state starts (R479). -/
def State.startTransition (v : PwrSt) (c : Option Ctx) (s : State) : State :=
  { s with pwr := { s.pwr with
      trans := some { target := v, ctx := c, sealAt := 0, began := s.now, replied := c.isNone } } }

/-- An on request (R472, R474). In UP it returns P1 and P2 to P0. -/
def State.onRequest (s : State) : State :=
  match s.pwr.st with
  | .down => s.startRising
  | .falling | .holdOff => { s with pwr := { s.pwr with onLatched := true } }
  | .rising => s
  | .up =>
    if (s.pwr.pwr == .p1 || s.pwr.pwr == .p2) && s.pwr.trans.isNone then s.startTransition .p0 none else s

/-- The orderly off request in UP: the open epoch is sealed and its durability awaited, unless no Curator is primary or
the part is in the security halt (R437, R472). An entry to P3 runs the shut-down program already, and another transition goes on
(R483). -/
def State.orderlyOff (s : State) : State :=
  if s.cur.primary.isNone || s.cry.haltCause != 0 then s.enterFalling s.pwr.prog.sdEntry
  else if s.pwr.down.isSome || s.pwr.trans.any (fun x => x.target == .p3) then s
  else
    ({ s with pwr := { s.pwr with down := some (0, s.now) } } : State).trigger .powerDown

/-- An off request of PWR_OFF_REQ_N (R472, R473, R474). -/
def State.offRequest (s : State) : State :=
  match s.pwr.st with
  | .up => s.orderlyOff
  | .rising => { s with pwr := { s.pwr with offLatched := true } }
  | .down | .falling | .holdOff => s

/-! ## The rows -/

/-- ENABLE n drives SEQ_EN[n] high. -/
def execEnable (s : State) : Host.Outcome State Fault Refusal :=
  .next (match s.seqStep with
    | some w =>
      if stepOp w == 1 then
        ({ s with pwr := { s.pwr with en := s.pwr.en ||| BitVec.ofNat 24 (2 ^ stepN w) } } : State).goStep (s.pwr.step + 1)
      else s
    | none => s)

/-- DISABLE n drives SEQ_EN[n] low. -/
def execDisable (s : State) : Host.Outcome State Fault Refusal :=
  .next (match s.seqStep with
    | some w =>
      if stepOp w == 2 then
        ({ s with pwr := { s.pwr with en := s.pwr.en &&& ~~~BitVec.ofNat 24 (2 ^ stepN w) } } : State).goStep
          (s.pwr.step + 1)
      else s
    | none => s)

/-- WAIT ends t µs after it starts. -/
def execWait (s : State) : Host.Outcome State Fault Refusal :=
  .next (match s.seqStep with
    | some w =>
      if stepOp w == 3 && decide (s.pwr.stepAt + bits w.toNat 31 0 * 1000 ≤ s.now) then s.goStep (s.pwr.step + 1) else s
    | none => s)

/-- A CHECK at a scan of its monitor: a latched off request goes to its unwind step; a reading in range passes and arms;
at the timeout the sequencer goes to else, which lies in the shut-down program where it is at or beyond sd_entry (R467,
R473). -/
def State.checkStep (w : DWord) (s : State) : State :=
  let m := stepMon w
  let mv := s.field .seqMon 0 m 11 0
  if s.pwr.st == .rising && s.pwr.offLatched then s.enterFalling (stepUnwind w)
  else if stepLo w ≤ mv && mv ≤ stepHi w then
    let s1 : State := if stepArm w = 0 then s else
      { s with pwr := { s.pwr with
          armed := tset (fun _ => none) s.pwr.armed m
            (some { lo := stepLo w, hi := stepHi w, shutDown := stepArm w == 2 }) } }
    s1.goStep (s.pwr.step + 1)
  else if stepTimeout w = 0 || s.pwr.stepAt + stepTimeout w * 1000000 ≤ s.now then
    let s1 := s.railFault m mv
    if s.pwr.st == .rising && decide (s.pwr.prog.sdEntry ≤ stepElse w) then s1.enterFalling (stepElse w)
    else s1.goStep (stepElse w)
  else { s with pwr := { s.pwr with fresh := 0 } }

/-- CHECK evaluates its monitor at a scan of it, from the first one after the step begins. -/
def execCheck (s : State) : Host.Outcome State Fault Refusal :=
  .next (match s.seqStep with
    | some w => if stepOp w == 4 && s.pwr.fresh.getLsbD (stepMon w) then s.checkStep w else s
    | none => s)

/-- JUMP continues at its target. -/
def execJumpStep (s : State) : Host.Outcome State Fault Refusal :=
  .next (match s.seqStep with
    | some w => if stepOp w == 5 then s.goStep (bits w.toNat 7 0) else s
    | none => s)

/-- END ends power-up in UP, where the islands leave reset while RESET_N is high, and shut-down in HOLD_OFF (R467,
R471). -/
def State.endStep (s : State) : State :=
  if s.pwr.st == .rising then
    let off := s.pwr.offLatched
    let s1 : State := { s with pwr := { s.pwr with st := .up, offLatched := false } }
    let s2 := if s1.pwr.pwr == .p0 then s1 else s1.enterPower .p0
    let s3 := if s2.pwr.resetN then s2.releaseIslands else s2
    if off then s3.orderlyOff else s3
  else { s with pwr := { s.pwr with st := .holdOff, offAt := s.now } }

def execSeqEnd (s : State) : Host.Outcome State Fault Refusal :=
  .next (match s.seqStep with
    | some w => if stepOp w == 6 then s.endStep else s
    | none => s)

/-- The highest reading of the converter, in mV; an input above it reads as it (R470; DEDUCED, assumption 34). -/
def monitorTop : Nat := 2000

/-- The converter reads an input; an armed monitor outside its range acts (R470). -/
def State.scanMonitor (m mv : Nat) (s : State) : State :=
  let s0 := s.putField .seqMon 0 m 11 0 (min mv monitorTop)
  let s1 : State := { s0 with pwr := { s0.pwr with fresh := s0.pwr.fresh ||| BitVec.ofNat 32 (2 ^ m) } }
  match tget (fun _ => none) s.pwr.armed m with
  | none => s1
  | some a =>
    if a.lo ≤ min mv monitorTop && min mv monitorTop ≤ a.hi then s1
    else
      let s2 := s1.railFault m (min mv monitorTop)
      if a.shutDown then s2.shutDown else s2

/-- Input m is read in a µs of part time whose count modulo 32 is m (R470). -/
def State.scans (s : State) (m : Nat) : Bool := s.pwr.vaonOk && s.now / 1000 % 32 == m

def execMonitorScan (monitor mv : Nat) (s : State) : Host.Outcome State Fault Refusal :=
  withUnit (decide (monitor < 32)) (fun s => if s.scans monitor then s.scanMonitor monitor mv else s) s

/-- min_off passes in HOLD_OFF (R471, R474). -/
def execHoldOffExpiry (s : State) : Host.Outcome State Fault Refusal :=
  .next (if s.pwr.st == .holdOff && decide (s.pwr.offAt + max 100 s.pwr.prog.minOff * 1000000 ≤ s.now) then
      if s.pwr.onLatched then s.startRising else { s with pwr := { s.pwr with st := .down } }
    else s)

def execPwrOffReq (s : State) : Host.Outcome State Fault Refusal :=
  .next (if s.pwr.vaonOk then s.offRequest else s)

def execPwrOnReq (s : State) : Host.Outcome State Fault Refusal :=
  .next (if s.pwr.vaonOk then s.onRequest else s)

/-- SUPPLY_OK falls (R475). -/
def execSupplyOkFall (s : State) : Host.Outcome State Fault Refusal :=
  .next (if s.pwr.vaonOk then ({ s with pwr := { s.pwr with supplyOk := false } } : State).shutDown else s)

/-- SUPPLY_OK returns: an on request where the restart flag is set (R472, R475); it asks nothing of a sequencer in
UP. -/
def execSupplyOkReturn (s : State) : Host.Outcome State Fault Refusal :=
  .next (
    let s1 : State := { s with pwr := { s.pwr with supplyOk := true } }
    if s.pwr.vaonOk && s.pwr.prog.restart && s.pwr.st != .up then s1.onRequest else s1)

/-- RESET_N rises while the sequencer is UP: the islands are released (R471). -/
def execResetNRelease (s : State) : Host.Outcome State Fault Refusal :=
  .next (
    let s1 : State := { s with pwr := { s.pwr with resetN := true } }
    if s.pwr.st == .up && !s.pwr.islands then s1.releaseIslands else s1)

/-! ## The commit of a program (R495) -/

/-- The image in SEQ_PROG. -/
def State.stagedImage (s : State) : List Byte :=
  (List.range 516).flatMap (fun i => leBytes 4 (s.reg .seqProg 0 i))

/-- SEQ_CTRL lies at this offset of BAR0. -/
def seqCtrlOff : Nat := 0x78010

/-- SEQ_CTRL.commit: in SEALED and SCRAPPED it is read-only; otherwise the image is checked, and its flash write starts
where it is valid (R13, R468, R495). -/
def State.commitProgram (p : Nat) (s : State) : State :=
  if s.cur.lifecycle == .sealed || s.cur.lifecycle == .scrapped then s.refusedWrite 0 p seqCtrlOff 1
  else if s.pwr.commitBusy then s
  else
    let e := imageError s.stagedImage
    if e = 0 then
      ({ s with pwr := { s.pwr with commitBusy := true, commitImg := s.stagedImage } } : State).putReg .seqCommit 0 0 (2 ^ 31)
    else s.putReg .seqCommit 0 0 e

def execSeqCommit (port : Nat) (s : State) : Host.Outcome State Fault Refusal :=
  s.bar0 port (fun s => s.commitProgram port)

/-- The flash write of a program finishes. -/
def execSeqCommitDone (flashOk : Bool) (s : State) : Host.Outcome State Fault Refusal :=
  .next (
    if s.pwr.commitBusy then
      let b := s.pwr.commitImg
      ({ s with pwr := { s.pwr with
          commitBusy := false, commitImg := [], commitOk := flashOk, flash := if flashOk then b else s.pwr.flash } } : State).putReg
        .seqCommit 0 0 (if flashOk then 0 else 3)
    else s)

end Sys2Proof.Machine
end

