-- ==== Sys2Proof/Machine/Thermal.lean ====
section
/-! DEFINITION. Junction sensors, thermal levels and DDR5 refresh rates (R434 to R441). -/

namespace Sys2Proof.Machine

def State.setSensor (t k : Nat) (v : Sensor) (s : State) : State :=
  { s with thm := { s.thm with sensors := tset (fun _ => {}) s.thm.sensors (8 * t + k) v } }

/-! ## Levels (R435) -/

/-- Degrees Celsius in steps of 0.125 °C. -/
def degC (n : Int) : Int := 8 * n

/-- Throttle is forced by a DDR5 device or a media target (R441, R442). -/
def State.forced (s : State) (t : Nat) : Bool :=
  tget (fun _ => (0 : BitVec 2)) s.thm.ddrForced t != 0 ||
    s.med.targets.any (fun e => e.1 / 64 == t && (e.2.hot || e.2.alert))

/-- The highest reading of a working sensor. -/
def State.workingMax (s : State) (t : Nat) : Option Int :=
  (((List.range 8).map (fun k => s.sensor t k)).filterMap (fun v =>
    if v.enabled && !v.broken then some v.reading else none)).max?

/-- Whether some counted reading has reached a temperature. -/
def State.reaches (s : State) (t : Nat) (n : Int) : Bool := (s.counted t).any (fun r => degC n ≤ r)

def State.levelOf (s : State) (t : Nat) : Nat := tget (fun _ => 0) s.thm.level t

/-- The level after a conversion: it rises to what is reached and falls one level at a time; shut-down is never left. -/
def State.nextLevel (s : State) (t : Nat) : Nat :=
  let up := if (s.workingMax t).any (fun r => degC 115 ≤ r) then 3
    else if s.reaches t 105 || s.forced t then 2
    else if s.reaches t 95 then 1 else 0
  let l := s.levelOf t
  if l < up then up
  else if l = 2 && !s.reaches t 100 && !s.forced t then 1
  else if l = 1 && !s.reaches t 90 then 0
  else l

/-- The sensor with the highest counted reading. -/
def State.hottest (s : State) (t : Nat) : Nat :=
  let r (k : Nat) : Int :=
    let v := s.sensor t k
    if !v.enabled then -32768 else if v.broken then brokenReading else v.reading
  (List.range 8).foldl (fun a k => if r a < r k then k else a) 0

/-- Throttle shows in CAL_STAT (R163). -/
def State.showThrottle (t : Nat) (s : State) : State :=
  s.putField .calStat t 0 31 31 (if 2 ≤ s.levelOf t then 1 else 0)

/-- The shut-down level starts the orderly power-down program, by the aon island where no Curator is primary (R437,
R438). It takes over from a transition in progress (R483); while RISING its step 4 is an off request that is latched (R473). -/
def State.thermalOff (s : State) : State :=
  if s.pwr.st == .rising then { s with pwr := { s.pwr with offLatched := true } }
  else if s.pwr.st != .up then s
  else if s.cry.haltCause != 0 then s.enterFalling s.pwr.prog.sdEntry
  else if s.pwr.down.isSome then s
  else ({ s with pwr := { s.pwr with down := some (0, s.now), trans := none } } : State).trigger .powerDown

/-- A tile's level is set anew; a change is recorded with vector 67, and the record of the shut-down level is mirrored
first (R435, R437). -/
def State.relevel (t : Nat) (s : State) : State :=
  let l := s.levelOf t
  let n := s.nextLevel t
  if n = l then s
  else
    let k := s.hottest t
    let mC := BitVec.ofInt 64 ((if (s.sensor t k).broken then brokenReading else (s.sensor t k).reading) * 125)
    let s1 := (s.annal t { code := 0xA001, addr := k, value := mC.toNat, aux := n }).raiseEvent 3
    let s2 : State := { s1 with thm := { s1.thm with
      level := tset (fun _ => 0) s1.thm.level t n
      maxLevel := tset (fun _ => 0) s1.thm.maxLevel t (max n (tget (fun _ => 0) s1.thm.maxLevel t)) } }
    let s3 := s2.showThrottle t
    if n = 3 then (s3.curators.foldl (fun s c => s.mirrorTile c t) s3).thermalOff else s3

/-! ## Sensors (R434, R439) -/

/-- A sensor is declared broken (R439): a degraded event of source 10h, record 0xA002, and the level follows. -/
def State.sensorBroken (t k cause : Nat) (s : State) : State :=
  let s1 := s.setSensor t k { s.sensor t k with broken := true, cause := cause }
  let s2 := s1.fault t (srcId 0x10 k) { minSev := 2 }
  (s2.annal t { code := 0xA002, addr := k, value := cause }).relevel t

/-- The stuck test of a sensor's own conversion: its run of like readings, and the readings of the tile where the run
began. -/
def Sensor.run (v : Sensor) (r : Int) (all : List Int) : Sensor :=
  if r = v.reading && !v.refs.isEmpty then { v with same := v.same + 1 }
  else { v with same := 1, refs := all, moved := false }

/-- Another working sensor's conversion, as a run sees it. -/
def Sensor.seen (v : Sensor) (j : Nat) (r : Int) : Sensor :=
  match v.refs[j]? with
  | none => v
  | some x => { v with moved := v.moved || decide (degC 2 ≤ (r - x).natAbs) }

/-- A conversion completes: its reading, the stuck and range tests, and the level (R434, R435, R439). In fallback a stuck
sensor is not recognised (R438). -/
def State.convert (t k : Nat) (r : Int) (s : State) : State :=
  let v := s.sensor t k
  let all := (List.range 8).map (fun j => if j = k then r else (s.sensor t j).reading)
  let v1 := { (v.run r all) with reading := r, convAt := s.now, maxIv := max v.maxIv r }
  let works := v.enabled && !v.broken
  let s1 := ((s.setSensor t k v1).pmcEdge t 0x71 0)
  let s2 := if works then
      (List.range 8).foldl (fun s j => if j = k then s else s.setSensor t j ((s.sensor t j).seen k r)) s1
    else s1
  if !works then s2
  else if r < degC (-40) || degC 150 < r then s2.sensorBroken t k 2
  else if 4096 ≤ v1.same && v1.moved && s.cur.primary.isSome then s2.sensorBroken t k 1
  else s2.relevel t

def execSensorConvert (tile sensor : Nat) (eighths : Int) (s : State) : Host.Outcome State Fault Refusal :=
  withUnit (s.hasTile tile && decide (sensor < 8)) (fun s => if s.pwr.vaonOk then s.convert tile sensor eighths else s) s

/-- No conversion completes within 3 ms (R439). -/
def State.missed (t k : Nat) (s : State) : State :=
  let v := s.sensor t k
  if v.enabled && !v.broken && decide (v.convAt + 3000000 ≤ s.now) then s.sensorBroken t k 3 else s

def execConversionMissed (tile sensor : Nat) (s : State) : Host.Outcome State Fault Refusal :=
  withUnit (s.hasTile tile && decide (sensor < 8)) (fun s => if s.pwr.vaonOk then s.missed tile sensor else s) s

/-- The wait of the orderly power-down program ends: its epoch is durable, or 1 s has passed (R437, R472). -/
def execPowerdownWaitEnd (s : State) : Host.Outcome State Fault Refusal :=
  .next (match s.pwr.down with
    | none => s
    | some (n, t0) =>
      if (n != 0 && decide (n ≤ s.epo.durable)) || decide (t0 + 1000000000 ≤ s.now) then
        s.enterFalling s.pwr.prog.sdEntry
      else s)

/-! ## DDR5 (R441) -/

/-- The refresh rate of a controller: TMP_DDR's code for DDR5 channel `k` of tile `t`. -/
def State.ddrRate (s : State) (t k : Nat) : Nat := s.field .tmpDdr 0 0 (4 * t + 2 * k + 1) (4 * t + 2 * k)

/-- The rate after a reading of the hottest device, in °C: up at 85 and 95, down one step at 5 °C below. -/
def nextRate (cur : Nat) (c : Int) : Nat :=
  let up := if 95 ≤ c then 2 else if 85 ≤ c then 1 else 0
  if cur < up then up
  else if cur = 2 && decide (c ≤ 90) then 1
  else if cur = 1 && decide (c ≤ 80) then 0
  else cur

/-- MR4 is read: the refresh rate, and a device above its operating limit forces throttle (R441). -/
def State.pollDdr (t k : Nat) (c : Int) (above : Bool) (s : State) : State :=
  let n := nextRate (s.ddrRate t k) c
  let s1 := s.putField .tmpDdr 0 0 (4 * t + 2 * k + 1) (4 * t + 2 * k) n
  let b : BitVec 2 := BitVec.ofNat 2 (2 ^ k)
  let old := tget (fun _ => (0 : BitVec 2)) s1.thm.ddrForced t
  let s2 : State := { s1 with thm := { s1.thm with
    ddrForced := tset (fun _ => 0) s1.thm.ddrForced t (if above then old ||| b else old &&& ~~~b)
    maxDdr := tset (fun _ => 0) s1.thm.maxDdr (2 * t + k) (max n (tget (fun _ => 0) s1.thm.maxDdr (2 * t + k))) } }
  s2.relevel t

def execDdrTempPoll (tile k : Nat) (hottest : Int) (above : Bool) (s : State) : Host.Outcome State Fault Refusal :=
  withUnit (s.hasTile tile && decide (k < 2)) (fun s =>
    if s.coreUp && s.ungated tile then s.pollDdr tile k hottest above else s) s

end Sys2Proof.Machine
end

