-- ==== Sys2Proof/Machine/Tokens.lean ====
section
/-! DEFINITION. Signed tokens: their checks, in order, and their use (R457, R458). -/

namespace Sys2Proof.Machine

/-- The lifecycle state as CUR_STAT and tokens code it (R462). -/
def Life.code : Life → Nat
  | .blank => 0
  | .opened => 1
  | .sealed => 2
  | .scrapped => 3

/-- The owner key's signer number (R457). -/
def ownerSigner : Nat := 0x10

/-- A Sundim root key that is not revoked. -/
def State.rootSigner (s : State) (n : Nat) : Bool := decide (n < 4) && !s.cur.revoked.getLsbD n

/-- The signer of purposes 02h to 06h: the owner key once one is installed, a Sundim root key until then (R458). -/
def State.commonSigner (s : State) (n : Nat) : Bool :=
  if s.cur.ownerKey.isSome then n == ownerSigner else s.rootSigner n

/-- The first check of R458 that a token fails. -/
def State.tokenFails (s : State) (t : Token) (purpose bind : Nat) (signer : Nat → Bool) : Option Status :=
  if t.magic != 0x4B545A56 || t.format != 1 || !t.zeros then some .token
  else if !signer t.signer.toNat then some .token
  else if !t.sigOk then some .token
  else if t.serial != s.cur.serial then some .tokenUsed
  else if t.number.toNat ≤ (if t.signer.toNat = ownerSigner then s.cur.lastOwner else s.cur.lastSundim) then some .tokenUsed
  else if t.purpose.toNat != purpose || t.bind.toNat != bind then some .tokenUsed
  else if t.state.toNat != Life.code s.cur.lifecycle then some .lifecycle
  else none

/-- A token that passed is consumed: its number is the last accepted of its signer class (R458). -/
def State.useToken (t : Token) (s : State) : State :=
  { s with cur := { s.cur with
      lastOwner := if t.signer.toNat = ownerSigner then t.number.toNat else s.cur.lastOwner
      lastSundim := if t.signer.toNat = ownerSigner then s.cur.lastSundim else t.number.toNat } }

/-- A command that uses a token, once its slot has passed (R55, R79, R457). `optional`: it may be absent in OPEN and BLANK,
and is missed with 05h/02h elsewhere; a token that is required is missed with 05h/03h. -/
def State.withToken (t : Token) (present optional : Bool) (purpose bind : Nat) (s : State) (body : State → SlotAnswer) :
    SlotAnswer :=
  if !present then
    if optional then
      if s.cur.lifecycle == .sealed then { st := .lifecycle, after := s } else body s
    else { st := .token, after := s }
  else
    match s.tokenFails t purpose bind (fun n => s.commonSigner n) with
    | some st => { st := st, after := s }
    | none => body (s.useToken t)

/-- A Curator command with a token in a slot of its ring, or inline on the sideband (R72, R79). The slot's length is
returned whole; a word length below a token's holds no signature that verifies (R457). -/
def State.tokenCommand (opc : Nat) (c : Ctx) (ps : List Param) (slot : Word) (t : Token) (optional : Bool) (purpose bind : Nat)
    (body : State → SlotAnswer) (s : State) : State :=
  s.command opc srcCurator c ps (fun s =>
    s.withSlot srcCurator c slot t.own false (fun w x => decide (1 ≤ ownLen x ∧ ownLen x ≤ w.slotSize)) (fun r s =>
      let present := match c.path with
        | .sideband => t.present
        | .ring _ _ _ => r.isSome
      let cut := r.isSome && decide (ownLen t.own.word < 2948)
      { (if cut then { st := .token, after := s } else s.withToken t present optional purpose bind body) with
        len := ownLen t.own.word }))

end Sys2Proof.Machine
end

