-- ==== Sys2Proof/Machine/Logs.lean ====
section
/-! DEFINITION. The Annals as bytes (R413), their logs and clearing (R420 to R423), mirroring (R418), histories (R421, R422)
and the Annals read port (R424). -/

namespace Sys2Proof.Machine

/-! ## Bytes of the logs -/

/-- Bytes 0 to 59 of a record (R413). -/
def ARec.body (r : ARec) : List Byte :=
  leBytes 2 r.code.toNat ++
    leBytes 1 (r.sev + bit r.raised 3 + bit r.inject 4 + bit r.repUpd 5 + bit r.opened 6) ++ leBytes 1 r.tile ++
    leBytes 2 r.source ++ leBytes 2 r.rep ++ leBytes 8 r.tFirst ++ leBytes 8 r.tLast ++ leBytes 4 r.seq ++
    leBytes 2 r.boot ++ leBytes 2 0 ++ leBytes 8 r.addr.toNat ++ leBytes 8 r.value.toNat ++ leBytes 8 r.aux.toNat ++
    leBytes 4 0

/-- A record of 64 bytes. -/
def ARec.bytes (r : ARec) : List Byte := r.body ++ leBytes 4 (crc32c r.body)

/-- A fault-summary entry (R420). -/
def Src.bytes (v : Src) (t id : Nat) : List Byte :=
  leBytes 1 t ++ leBytes 1 (v.base + 8 * v.current + bit v.raised 6) ++ leBytes 2 id ++
    leBytes 4 (min v.total (2 ^ 32 - 1)) ++ leBytes 8 v.tLast

/-- A spare history entry (R421). -/
def SpareRec.bytes (r : SpareRec) : List Byte :=
  leBytes 8 r.t ++ leBytes 2 r.boot ++ leBytes 1 r.tile ++ leBytes 1 r.cause ++ leBytes 2 r.remaining ++ leBytes 2 0 ++
    leBytes 4 r.good ++ leBytes 4 r.retired ++ leBytes 4 r.detail ++ leBytes 4 0

/-- A sensor history entry (R422); `ddr` holds the rate of DDR5 channel 0 and, times 4, that of channel 1. -/
def SensorRec.bytes (r : SensorRec) : List Byte :=
  leBytes 8 r.t ++ leBytes 2 r.boot ++ leBytes 1 r.tile ++ leBytes 1 (r.level + 4 * r.ddr) ++
    r.jmax.flatMap (fun j => leBytes 2 (signed16 j)) ++ leBytes 2 (signed16 r.mmax) ++ leBytes 1 r.mtgt ++ leBytes 1 0

/-! ## Orders (R420) -/

/-- Insertion into a list in order, after its equals. -/
def insertBy {A : Type} (le : A → A → Bool) (x : A) : List A → List A
  | [] => [x]
  | y :: l => if le x y then x :: y :: l else y :: insertBy le x l

/-- A list in order; equals keep their order. -/
def sortBy {A : Type} (le : A → A → Bool) (l : List A) : List A := l.foldr (insertBy le) []

/-- Keys compared one after the other. -/
def lexLe : List Nat → List Nat → Bool
  | a :: l, b :: m => decide (a < b) || (a == b && lexLe l m)
  | _, _ => true

/-- The Annals of every tile, as the Curator unit `c` serves them. -/
def State.allRecords (s : State) (c : Nat) : List ARec :=
  let fresh := s.tileList.flatMap (fun t =>
    (tget (fun _ => []) s.anl.rings t).filter (fun r => tget (fun _ => 0) s.anl.mirrored (8 * c + t) ≤ r.seq))
  sortBy (fun a b => lexLe [a.tFirst, a.tile, a.seq] [b.tFirst, b.tile, b.seq]) (tget (fun _ => []) s.anl.mirrors c ++ fresh)

/-- The tiles a log's tile byte names. -/
def State.namedTiles (s : State) (tile : Nat) : List Nat := if tile = 255 then s.tileList else [tile]

/-- The records or entries of a log, in its order. A summary has one entry for each source with a total count. -/
def State.logEntries (s : State) (c log tile : Nat) : List (List Byte) :=
  match log with
  | 1 => ((if tile = 255 then s.allRecords c else tget (fun _ => []) s.anl.rings tile)).map ARec.bytes
  | 2 => (s.flt.srcs.filter (fun e => e.2.total != 0 && (s.namedTiles tile).contains (e.1 / 4096))).map
      (fun e => (e.2.settle s.now).bytes (e.1 / 4096) (e.1 % 4096))
  | 3 => (sortBy (fun a b => lexLe [a.t, a.tile] [b.t, b.tile])
      (s.anl.spareH.filter (fun r => (s.namedTiles tile).contains r.tile))).map SpareRec.bytes
  | _ => (sortBy (fun a b => lexLe [a.t, a.tile] [b.t, b.tile])
      (s.anl.sensorH.filter (fun r => (s.namedTiles tile).contains r.tile))).map SensorRec.bytes

/-- The size of a log's records or entries. -/
def entrySize (log : Nat) : Nat :=
  match log with
  | 1 => 64
  | 2 => 16
  | _ => 32

/-- Whole records from a byte offset on, as many as fit. An offset inside a record starts at the next (assumption 43). -/
def State.logBytes (s : State) (c log tile off space : Nat) : List Byte :=
  let n := entrySize log
  (((s.logEntries c log tile).drop ((off + n - 1) / n)).take (space / n)).flatten

/-! ## GET_LOG and CLEAR_LOG -/

/-- A log and a tile that exist, or the status that says they do not (R57). -/
def State.logStatus (s : State) (log tile : Nat) : Option Status :=
  if log = 0 ∨ 4 < log then some .unknown
  else if tile != 255 && !s.hasTile tile then some .unknown
  else none

/-- GET_LOG once its slot has passed. -/
def State.getLog (c : Ctx) (log tile off : Nat) (r : Option SlotRef) (s : State) : SlotAnswer :=
  match s.logStatus log tile with
  | some st => { st := st, after := s }
  | none =>
    let b := s.logBytes (s.cur.primary.getD 0) log tile off (s.slotSpace c r)
    { st := .done, result := b.length, data := b, len := b.length, after := s }

def execGetLog (c : Ctx) (log tile : Byte) (slot : Word) (own : SlotRead) (offset : DWord) (s : State) :
    Host.Outcome State Fault Refusal :=
  .next (s.command 0x40 srcCurator c (getLogParams log tile slot offset) (fun s =>
    s.withSlot srcCurator c slot own true (fun _ _ => true) (fun r s => s.getLog c log.toNat tile.toNat offset.toNat r)))

/-- The record of a clear: the first on its tile, written whatever its bucket holds (R423). -/
def State.clearRecord (t cleared aux : Nat) (s : State) : State :=
  let e : AEvent := { code := 0xF001, addr := cleared, aux := aux,
                      value := (tget (fun _ => 0) s.anl.nextSeq t + 2 ^ 32 - 1) % 2 ^ 32 }
  if s.coreUp then (s.setBucket t 0xF001 (s.hasToken t 0xF001) 0).ringWrite t e 0 else s.mirrorWrite t e

/-- A clear of log 01h on one tile. -/
def State.clearRing (aux t : Nat) (s : State) : State :=
  let n := (tget (fun _ => []) s.anl.rings t).length
  let s1 : State := { s with anl := { s.anl with
    rings := tset (fun _ => []) s.anl.rings t []
    mirrors := tmap (fun _ => []) (fun _ l => l.filter (fun r => r.tile != t)) s.anl.mirrors } }
  s1.clearRecord t n aux

/-- A clear of log 02h on one tile. -/
def State.clearSources (aux t : Nat) (s : State) : State :=
  let s1 : State := { s with flt := { s.flt with
    srcs := tmap srcDefault (fun k v => if k / 4096 == t then v.afterReset true else v) s.flt.srcs } }
  s1.clearRecord t 0 aux

/-- CLEAR_LOG once its token has passed. -/
def State.clearLog (log tile : Nat) (s : State) : SlotAnswer :=
  match s.logStatus log tile with
  | some st => { st := st, after := s }
  | none =>
    if 3 ≤ log then { st := .param, after := s }
    else
      let f := if log = 1 then State.clearRing tile else State.clearSources tile
      { st := .done, after := (s.namedTiles tile).foldl (fun s t => f t s) s }

def execClearLog (c : Ctx) (log tile : Byte) (slot : Word) (tok : Token) (s : State) : Host.Outcome State Fault Refusal :=
  .next (s.tokenCommand 0x41 c (clearLogParams log tile slot) slot tok false 2 (log.toNat + 256 * tile.toNat) (fun s => s.clearLog log.toNat tile.toNat))

/-! ## Mirroring (R418) -/

/-- Losses are reported once the mirror has caught up. -/
def State.reportLost (t : Nat) (s : State) : State :=
  let n := tget (fun _ => 0) s.anl.lostN t
  if n = 0 then s
  else
    let s1 : State := { s with anl := { s.anl with lostN := tset (fun _ => 0) s.anl.lostN t 0 } }
    (s1.annal t { code := 0xF006, addr := n, value := tget (fun _ => 0) s.anl.lostSeq t }).raiseEvent 2

/-- The oldest record that unit `c` has not mirrored fails to write: the unit goes on with its next record. -/
def State.mirrorFail (c t : Nat) (s : State) : State :=
  let k := 8 * c + t
  match (tget (fun _ => []) s.anl.rings t).find? (fun r => tget (fun _ => 0) s.anl.mirrored k ≤ r.seq) with
  | none => s
  | some r =>
    let s1 : State := { s with anl := { s.anl with mirrored := tset (fun _ => 0) s.anl.mirrored k (r.seq + 1) } }
    s1.fault c (srcId 0x0F 0) {}

def execAnnalsMirror (cur tile : Nat) (flashOk : Bool) (s : State) : Host.Outcome State Fault Refusal :=
  withUnit (decide (cur < 2) && s.hasTile tile) (fun s =>
    if !s.curators.contains cur then s
    else if flashOk then (s.mirrorTile cur tile).reportLost tile
    else s.mirrorFail cur tile) s

/-! ## Histories (R421, R422) -/

/-- The daily sample of every tile. -/
def State.sampleSpares (s : State) : State :=
  let s1 := s.tileList.foldl (fun s t => s.spareEntry t 6 0) s
  { s1 with thm := { s1.thm with lastSpare := s1.now } }

def execSpareSample (s : State) : Host.Outcome State Fault Refusal :=
  .next (if s.cur.primary.isSome && decide (s.thm.lastSpare + 86400000000000 ≤ s.now) then s.sampleSpares else s)

/-- The sensor history holds 98,304 entries. -/
def sensorLimit : Nat := 98304

/-- The hottest media target of a tile: its temperature and its number 4c + k. With no target the entry's value is open. -/
def State.hottestTarget (s : State) (t : Nat) : Int × Nat :=
  let l := s.med.targets.filter (fun e => e.1 / 64 == t && e.2.present)
  match l with
  | [] => (((Config.free s.freeCtr).setWidth 16).toInt, 0)
  | e :: l => l.foldl (fun a e => if a.1 < e.2.temp then (e.2.temp, e.1 % 64) else a) (e.2.temp, e.1 % 64)

/-- The shelf form of the entries, in P3 and while the rails are off. -/
def State.shelf (s : State) : Bool := s.pwr.pwr == .p3 || s.pwr.st != .up

/-- The sensor entry of a tile for the interval that ends now. -/
def State.sensorEntry (s : State) (t : Nat) : SensorRec :=
  let m := if s.shelf then (0, 0) else s.hottestTarget t
  { t := s.now, boot := s.field .anlBoot 0 0 14 0, tile := t
    level := tget (fun _ => 0) s.thm.maxLevel t
    ddr := if s.shelf then 0 else tget (fun _ => 0) s.thm.maxDdr (2 * t) + 4 * tget (fun _ => 0) s.thm.maxDdr (2 * t + 1)
    jmax := (List.range 8).map (fun k =>
      let v := s.sensor t k
      if v.enabled && !v.broken then v.maxIv else -32768)
    mmax := m.1, mtgt := m.2 }

/-- An entry for each tile; the maxima of the next interval start at what is in force now. -/
def State.sampleSensors (s : State) : State :=
  let l := s.anl.sensorH ++ s.tileList.map (fun t => s.sensorEntry t)
  { s with
    anl := { s.anl with sensorH := l.drop (l.length - sensorLimit) }
    thm := { s.thm with
      lastSample := s.now
      maxLevel := s.thm.level
      maxDdr := (List.range (2 * s.tiles)).foldl (fun m k =>
        tset (fun _ => 0) m k (s.ddrRate (k / 2) (k % 2))) []
      sensors := tmap (fun _ => {}) (fun _ v => { v with maxIv := -32768 }) s.thm.sensors }
    freeCtr := s.freeCtr + 1 }

def execSensorHistorySample (s : State) : Host.Outcome State Fault Refusal :=
  .next (if s.cur.primary.isSome && decide (s.thm.lastSample + 60000000000 ≤ s.now) then s.sampleSensors else s)

/-! ## The read port (R424) -/

/-- ANL_RD_DATA takes the bytes of a record. -/
def State.showRecord (r : ARec) (s : State) : State :=
  (List.range 16).foldl (fun s i => s.putReg .anlRdData 0 i (byteField r.bytes (4 * i) 4)) s

/-- A write of ANL_RD_SEQ loads that record of the tile ANL_RD_TILE names; FFFF_FFFFh loads the newest. -/
def State.loadRecord (seq : Nat) (s : State) : State :=
  let t := s.field .anlRdTile 0 0 2 0
  let ring := tget (fun _ => []) s.anl.rings t
  let newest := seq == 2 ^ 32 - 1
  let hit := if newest then ring.getLast? else ring.find? (fun r => r.seq == seq)
  let gone := hit.isNone && !newest && decide (seq < tget (fun _ => 0) s.anl.nextSeq t)
  let s1 := (s.putReg .anlRdSeq 0 0 seq).putReg .anlRdStat 0 0 (bit hit.isSome 31 + bit gone 30)
  match hit with
  | some r => s1.showRecord r
  | none => s1

def execAnlRdLoad (port : Nat) (seq : Word) (s : State) : Host.Outcome State Fault Refusal :=
  s.bar0 port (fun s => s.loadRecord seq.toNat)

end Sys2Proof.Machine
end

