-- ==== Sys2Proof/Machine/Ddr.lean ====
section
/-! DEFINITION. DDR5 bursts, the tract valid map and lost ranges (R109, R359 to R378), and the SRAM and DDR5 scrub walks
(R228 to R232, R362, R366). -/

namespace Sys2Proof.Machine

/-! ## Lost ranges (R377, R378) -/

/-- Lost ranges a tile lists. -/
def State.listedLost (s : State) (t : Nat) : Nat :=
  (s.cat.lost.filter (fun r => r.1 / 2 ^ 33 == t)).length
    + (tget (fun _ => []) s.cry.lostList (2 * t)).length + (tget (fun _ => []) s.cry.lostList (2 * t + 1)).length

/-- The summaries of a tile's pages are read in background windows (R135, R158, R159). -/
def State.queueScan (t : Nat) (s : State) : State :=
  (s.pagesOf t).foldl (fun (s : State) e =>
    (List.range 16).foldl (fun (s : State) c =>
      let m := (s.block t (e.1 / s.ppb t)).member c
      let h := s.chan t c
      if e.2.missing.contains c || !s.carries t c m || h.back.any (fun w => w.kind == .summary && w.spn == e.1) then s
      else s.setChan t c { h with back := h.back ++ [{ kind := .summary, block := m, spn := e.1, unit := 32 }] }) s) s

/-- A scan of lost Catalogue ranges runs (R135). -/
def State.partialScan (t : Nat) (s : State) : State := (s.queueScan t).putField .catRbld t 0 30 30 1

/-- A range of folio-table entries is LOST. -/
def State.loseFolios (t first count : Nat) (s : State) : State :=
  ({ s with cat := { s.cat with lost := s.cat.lost ++ [(lostKey t first, count)] } } : State).partialScan t

/-- GET_BLOCK of the members of the stripe blocks of a range, in status windows (R151, R158, R378). -/
def State.queueBlocks (t first count : Nat) (s : State) : State :=
  ((s.blocksOf t).filter (fun e => !e.2.free && decide (first ≤ e.1 ∧ e.1 < first + count))).foldl (fun (s : State) e =>
    (List.range 16).foldl (fun (s : State) c =>
      let h := s.chan t c
      if !s.carries t c (e.2.member c) then s
      else s.setChan t c { h with back := h.back ++
        [{ kind := .block, block := e.2.member c, spn := e.1 * s.ppb t, unit := 0 }] }) s) s

/-- A range of stripe sequence entries (table 0) or block tables (table 1) is lost. -/
def State.loseTable (t table first count : Nat) (s : State) : State :=
  let k := 2 * t + table
  let s := if table = 1 then s.queueBlocks t first count else s
  ({ s with cry := { s.cry with
    lostList := tset (fun _ => []) s.cry.lostList k (tget (fun _ => []) s.cry.lostList k ++ [(first, count)]) } } :
      State).partialScan t

/-- The leaf entries of a range of leaf groups are LOST. -/
def State.loseGroups (t first count : Nat) (s : State) : State :=
  let fs := s.cat.folios.filterMap (fun e =>
    match e.2.place with
    | .split g => if homeFolio s.tiles e.1 == t && decide (first ≤ g ∧ g < first + count) then some e.1 else none
    | .unmapped | .media _ _ _ | .lost => none)
  if fs.isEmpty then s
  else
    (fs.foldl (fun s f => (List.range 16).foldl (fun s j =>
      s.setEntry true (16 * f + j) { place := .lost, reloc := false }) s) s).partialScan t

/-- Every table of a tile is LOST, where 64 ranges are listed already. -/
def State.loseAll (t : Nat) (s : State) : State :=
  ((s.loseFolios t 0 (2 ^ 33)).loseTable t 0 0 (2 ^ 28)).loseTable t 1 0 (2 ^ 32)

/-- The undo entries that a range of the log holds; the log lies oldest first from its base (assumption 20). -/
def State.undoIn (s : State) (t first count : Nat) : List Undo :=
  (((s.undoLog t).drop first).take count).filterMap (fun e => match e with
    | .entry u => some u
    | .mark _ => none)

/-- A part of a lost range that lies in a region, if there is one, has its effect. -/
def State.onOverlap (o : Option (Nat × Nat)) (f : Nat × Nat → State → State) (s : State) : State :=
  match o with
  | some r => f r s
  | none => s

/-- The heat of a range of folios is lost. -/
def State.loseHeat (t : Nat) (r : Nat × Nat) (s : State) : State :=
  { s with cat := { s.cat with
      heat := tdrop (fun f => homeFolio s.tiles f == t && decide (r.1 ≤ localFolio s.tiles f) &&
        decide (localFolio s.tiles f < r.2)) s.cat.heat } }

/-- Which block tables a lost range held is a free value. -/
def State.loseBlocks (t : Nat) (s : State) : State :=
  (s.drawn 2).loseTable t 1 (Config.free s.freeCtr).toNat (Config.free (s.freeCtr + 1)).toNat

/-- What a lost range does to the regions it touches, but for the aborts. -/
def State.loseRegions (t a len : Nat) (s : State) : State :=
  let m := s.ddrMap t
  if 64 ≤ s.listedLost t then s.loseAll t
  else
    ((((s.onOverlap (overlap a len m.leafPool m.undo) (fun r s => s.loseGroups t (touched 128 r).1 (touched 128 r).2)).onOverlap
      (overlap a len m.folio m.seq) (fun r s => s.loseFolios t (touched 8 r).1 (touched 8 r).2)).onOverlap
      (overlap a len m.seq m.heat) (fun r s => s.loseTable t 0 (touched 8 r).1 (touched 8 r).2)).onOverlap
      (overlap a len m.heat m.block) (fun r s => s.loseHeat t r)).onOverlap
      (overlap a len m.block m.staging) (fun _ s => s.loseBlocks t)

/-- The undo log, the staging records and epoch log, and staging: the entries whose undo entry is lost become LOST, and
the part aborts (R102, R378). -/
def State.loseEpochData (t a len : Nat) (s : State) : State :=
  let m := s.ddrMap t
  let gone := match overlap a len m.undo m.records with
    | some r => s.undoIn t (touched 16 r).1 (touched 16 r).2
    | none => []
  let s1 : State := gone.foldl (fun s u => s.setEntry u.leaf u.key { place := .lost, reloc := false }) s
  let s2 : State := { s1 with cat := { s1.cat with
    undo := s1.cat.undo.filter (fun u => !gone.any (fun v => v.leaf == u.leaf && v.key == u.key)) } }
  let s2 := if gone.isEmpty then s2 else s2.partialScan t
  if (overlap a len m.undo m.folio).isSome || (overlap a len m.staging m.top).isSome then s2.startAbort else s2

/-- The interior nodes, by level and index, that cover nothing outside a range of offsets from the leaf pool. -/
def innerNodes (lo hi levels : Nat) : List (Nat × Nat) :=
  (List.range levels).flatMap (fun k =>
    let w := 8192 * 8 ^ (k + 1)
    (List.range (hi / w - (lo + w - 1) / w)).map (fun i => (k + 1, (lo + w - 1) / w + i)))

/-- The interior nodes that cover nothing beyond a range are written anew: dirty in the counter cache (R374, R378). -/
def State.newNodes (t a len : Nat) (s : State) : State :=
  (innerNodes (a - (s.ddrMap t).leafPool) (a + len - (s.ddrMap t).leafPool) (topLevel (s.leafCount t) 9)).foldl
    (fun s x => s.dirtyNode t x.1 x.2) s

/-- A range is lost: counted, kept in ECC_LOST_ADDR and ECC_LOST_LEN, recorded as 0x2006, reinitialised, and each region
it touches treated (R377, R378, R414). -/
def State.lostRange (t a len kib : Nat) (s : State) : State :=
  let s1 := (((s.bump .eccLost t 0).putReg .eccLostAddrLo t 0 (a % 2 ^ 32)).putReg .eccLostAddrHi t 0 (a / 2 ^ 32)).putReg
    .eccLostLen t 0 kib
  let s2 := s1.annal t { code := 0x2006, addr := a, value := kib }
  let base := (s.ddrMap t).leafPool
  let s3 : State := { s2 with cry := { s2.cry with
    tracts := tdrop (fun k => k / 2 ^ 24 == t && decide (a ≤ k % 2 ^ 24 * 4096) &&
      decide (k % 2 ^ 24 * 4096 + 4096 ≤ a + len)) s2.cry.tracts
    leaves := tdrop (fun k => k / 2 ^ 32 == t && decide (a ≤ base + 8192 * (k % 2 ^ 32)) &&
      decide (base + 8192 * (k % 2 ^ 32) + 8192 ≤ a + len)) s2.cry.leaves } }
  ((s3.newNodes t a len).loseRegions t a len).loseEpochData t a len

/-- A block of 64 bytes is one of the counter store (R363). -/
def State.inStore (s : State) (t block : Nat) : Bool := decide (64 * block < (s.ddrMap t).leafPool)

/-- The 128-byte line of a block is lost; the length in KiB it shows is a free value. -/
def State.lostLine (t block : Nat) (s : State) : State :=
  (s.drawn 1).lostRange t (block / 2 * 128) 128 ((Config.free s.freeCtr).toNat % 2 ^ 32)

/-- A block of the counter store or of data is uncorrectable: what its leaf or node covers is lost, or its line. The
length in KiB that a single line shows is a free value. -/
def State.lostBlock (t block : Nat) (s : State) : State :=
  if s.inStore t block then
    (nodeOf (s.leafCount t) 0 9 block).elim s (fun x =>
      s.lostRange t (s.covers t x.1 x.2).1 (s.covers t x.1 x.2).2 ((s.covers t x.1 x.2).2 / 1024))
  else s.lostLine t block

/-! ## Bursts (R359, R360) -/

/-- The key of a device's corrected bursts. -/
def devKey (t sub dev : Nat) : Nat := 64 * t + 16 * (sub % 4) + dev % 16

/-- The device of a subchannel that is marked failed, if any. -/
def State.markedDev (s : State) (t sub : Nat) : Option Nat :=
  if s.field .eccDev t sub 31 31 = 1 then some (s.field .eccDev t sub 3 0) else none

/-- A corrected burst of a device: the 16th different one within 1 s marks it (R360). -/
def State.devHit (t sub dev block : Nat) (s : State) : State :=
  let k := devKey t sub dev
  let recent := (tget (fun _ => []) s.cry.devHits k).filter (fun h => h.1 != block && decide (s.now < h.2 + 1000000000))
  let hits := recent ++ [(block, s.now)]
  let keep (l : List (Nat × Nat)) (s : State) : State :=
    { s with cry := { s.cry with devHits := tset (fun _ => []) s.cry.devHits k l } }
  if 16 ≤ hits.length && (s.markedDev t sub).isNone then
    (((keep [] s).putReg .eccDev t sub (2 ^ 31 + dev % 16)).fault t (srcId 0x04 sub) { minSev := 2 }).annal t
      { code := 0x2007, addr := sub, value := dev }
  else keep hits s

/-- What a burst shows, and on which device, where a test injection hits a clean one. -/
def injectedEcc (inj : Bool) (ecc : Ecc) : Ecc := if inj && ecc == .clean then .corrected 1 else ecc

def injectedDev (inj : Bool) (ecc : Ecc) (dev : Nat) : Nat := if inj && ecc == .clean then 8 else dev

/-- A burst is uncorrectable: it is so itself, or a second device fails beside a marked one (R360). -/
def State.burstBad (s : State) (t sub dev : Nat) (ecc : Ecc) : Bool :=
  ecc == .bad ||
    match s.markedDev t sub, ecc with
    | some d, .corrected _ => d != dev % 16
    | _, _ => false

/-- The outcome of a burst's code (R359, R360, R422). -/
def State.burstEcc (t sub block dev : Nat) (ecc : Ecc) (inj : Bool) (s : State) : State :=
  let i : FaultInfo := { inject := inj, addr := 64 * block }
  if s.burstBad t sub dev ecc then ((s.bump .eccDdrUe t 0).fault t (srcId 0x04 sub) i).lostBlock t block
  else if ecc == .clean then s
  else (((s.bump .eccDdrCe t 0).pmcEdge t 0x33 (sub / 2)).fault t (srcId 0x04 sub) i).devHit t sub dev block

/-- The check of a block of the counter store by its MAC (R372, R397). -/
def State.burstMac (t block : Nat) (macOk : Bool) (s : State) : State :=
  let (inj, s1) := s.check t (srcId 0x14 2)
  if inj || !macOk then s1.securityHalt 3 t (64 * block) else s1

/-- A DDR5 burst is read and decoded: an injection into its check symbols lies in one device; an error of a second device
beside a marked one is detected, never corrected; a clean leaf or node whose MAC differs is tampering (R359, R360, R377,
R396, R411). -/
def State.burst (t sub block dev : Nat) (ecc : Ecc) (macOk : Bool) (s : State) : State :=
  if !s.inStore t block && !s.tractValid t (block / 64) then s
  else
    let (inj, s1) := s.check t (srcId 0x04 sub)
    let s2 := s1.burstEcc t sub block (injectedDev inj ecc dev) (injectedEcc inj ecc) inj
    if s1.burstBad t sub (injectedDev inj ecc dev) (injectedEcc inj ecc) || !s.inStore t block then s2
    else s2.burstMac t block macOk

/-- Whether a tile's DDR5 is at work: in self-refresh in P1, unless the tile drains, and in P2 (R478, R481). -/
def State.ddrRuns (s : State) (t : Nat) : Bool := s.coreRuns t

/-- A read of a block reaches DDR5: a block of the counter store, or of a tract that holds data. A read of another one is answered
with zeros on die (R363). -/
def State.inDdr (s : State) (t block : Nat) : Bool := s.inStore t block || s.tractValid t (block / 64)

def execDdrBurstRead (tile sub block device : Nat) (ecc : Ecc) (macOk : Bool) (s : State) :
    Host.Outcome State Fault Refusal :=
  withUnit (s.hasTile tile && decide (sub < 4) && decide (device < 10)) (fun s =>
    if s.ddrRuns tile && s.inDdr tile block then ((s.pmcEdge tile 0x30 (sub / 2)).passItem tile (76 + sub / 2)).2.burst tile sub block device ecc macOk
    else s) s

/-- The DDR5 walk reads a block: an error is handled as the same error found by a read (R366). Its subchannel, and the
device a correction lies in, are free values. -/
def execDdrScrubStep (tile block : Nat) (ecc : Ecc) (s : State) : Host.Outcome State Fault Refusal :=
  withUnit (s.hasTile tile) (fun s =>
    if s.ddrRuns tile && s.inDdr tile block then
      (s.drawn 2).burst tile ((Config.free s.freeCtr).toNat % 4) block ((Config.free (s.freeCtr + 1)).toNat % 10) ecc true
    else s) s

/-! ## Tracts and counters (R364, R370, R371, R374, R376) -/

/-- Every line of a tract is written: each under a new counter, and a tract is 32 lines of a leaf (R370). -/
def State.rewriteTract (t n : Nat) (s : State) : State :=
  let c := n * 4096 - (s.ddrMap t).leafPool
  (List.range 32).foldl (fun s j =>
    (s.bumpMinor t (c / 8192) (c / 128 % 64 + j)).writeDdr t (c / 8192) (c / 128 % 64 + j)) s

/-- The first write to an invalid tract: every block of it is written as encrypted zeros or with its data, then its bit
sets (R364). -/
def State.firstWrite (t n : Nat) (s : State) : State :=
  let m := s.ddrMap t
  if s.tractValid t n || decide (n * 4096 < m.leafPool) || decide (m.top < n * 4096 + 4096) then s
  else
    let s1 := s.rewriteTract t n
    { s1 with cry := { s1.cry with tracts := tset (fun _ => false) s1.cry.tracts (tractKey t n) true } }

def execTractFirstWrite (tile tract : Nat) (s : State) : Host.Outcome State Fault Refusal :=
  withUnit (s.hasTile tile) (fun s => if s.ddrRuns tile then s.firstWrite tile tract else s) s

def execMinorOverflow (tile leaf : Nat) (s : State) : Host.Outcome State Fault Refusal :=
  withUnit (s.hasTile tile) (fun s =>
    if s.ddrRuns tile && decide (leaf < s.leafCount tile) then s.majorUp tile leaf else s) s

def execCounterEvict (tile node : Nat) (s : State) : Host.Outcome State Fault Refusal :=
  withUnit (s.hasTile tile) (fun s => if s.ddrRuns tile then s.evictNode tile node else s) s

/-- New DDR5 and tree keys of a tile, from its generator: free values. -/
def State.newDdrKeys (t : Nat) (s : State) : State :=
  { s with
    cry := { s.cry with
      ddrKey := tset (fun _ => 0) s.cry.ddrKey t (s.freeBits 256 4)
      treeKey := tset (fun _ => 0) s.cry.treeKey t ((s.drawn 4).freeBits 256 4) }
    freeCtr := s.freeCtr + 8 }

/-- A tile takes a rekey by its register in P1 too, where BAR0 is served (R480). -/
def State.takesRekey (s : State) (t : Nat) : Bool := s.tileRuns t && s.cry.haltCause == 0 && s.coreUp

/-- CRY_CTRL.ddr_rekey starts a rekey; while one runs it is ignored (R376). -/
def State.startRekey (t : Nat) (s : State) : State :=
  if tget (fun _ => false) s.cry.rekeying t then s
  else
    let old := (tget (fun _ => (0 : BitVec 256)) s.cry.ddrKey t, tget (fun _ => (0 : BitVec 256)) s.cry.treeKey t)
    let s1 := s.newDdrKeys t
    ({ s1 with cry := { s1.cry with
      oldKey := tset (fun _ => none) s1.cry.oldKey t (some old)
      rekeying := tset (fun _ => false) s1.cry.rekeying t true } } : State).putReg .cryRekeyPtr t 0 0

def execDdrRekey (port tile : Nat) (s : State) : Host.Outcome State Fault Refusal :=
  s.tileWrite port tile true (fun s => if s.takesRekey tile then s.startRekey tile else s)

/-- The valid tracts of a tile. -/
def State.validTracts (s : State) (t : Nat) : List Nat :=
  (s.cry.tracts.filter (fun e => e.1 / 2 ^ 24 == t)).map (fun e => e.1 % 2 ^ 24)

/-- The rekey walk ends: it has rewritten every valid tract under the new keys, and the old ones are zeroed (R376). -/
def State.rekeyDone (t : Nat) (s : State) : State :=
  let s1 := (s.validTracts t).foldl (fun s n => s.rewriteTract t n) (s.putReg .cryRekeyPtr t 0 ((s.ddrMap t).top / 4096))
  { s1 with cry := { s1.cry with
    oldKey := tset (fun _ => none) s1.cry.oldKey t none
    rekeying := tset (fun _ => false) s1.cry.rekeying t false } }

def execDdrRekeyDone (tile : Nat) (s : State) : Host.Outcome State Fault Refusal :=
  withUnit (s.hasTile tile) (fun s =>
    if s.ddrRuns tile && tget (fun _ => false) s.cry.rekeying tile then s.rekeyDone tile else s) s

/-! ## The SRAM walk (R228 to R232, R362, R366) -/

/-- A way's corrected-error window (R228). -/
def CeWin.hit (w : CeWin) (now : Nat) : CeWin :=
  if w.count = 0 || w.start + 86400000000000 ≤ now then { count := 1, start := now } else { w with count := w.count + 1 }

/-- A corrected error in a near-cache way. -/
def State.ncCorrected (t w : Nat) (s : State) : State :=
  let v := (tget (fun _ => ({} : CeWin)) s.coh.ceWins (16 * t + w)).hit s.now
  let s1 : State := { s with coh := { s.coh with ceWins := tset (fun _ => {}) s.coh.ceWins (16 * t + w) v } }
  let s2 := s1.putReg .ncCe t w (min v.count 3)
  if v.count = 3 then s2.wayReached t w else s2

/-- The lines whose directory entries lie in a way of a home. -/
def State.dirWay (s : State) (t w : Nat) : List (Nat × Dir) :=
  s.coh.dir.filter (fun e => s.home e.1 == t && e.2.way == w && e.2.held)

/-- A pinned entry of a way that is being disabled moves to another way of its set: a free one, or that of an entry which is
back-invalidated for it (R218, R232). -/
def State.movePinned (line : Nat) (s : State) : State :=
  match s.dirFree line with
  | some w => s.setDir line { s.dir line with way := w }
  | none =>
    match s.dirOldest line with
    | none => s.wait true
    | some (v, d) =>
      let s1 := (s.freeEntry v).bump .dirOverflow (s.home line) 0
      s1.setDir line { s1.dir line with way := d.way }

/-- A directory way is disabled: at most 2; its pinned entries move, the others are back-invalidated (R232). -/
def State.dirReached (t w : Nat) (s : State) : State :=
  let n := ((List.range 16).filter (fun x => bits (s.reg .dirWaydis t 0) x x == 1)).length
  if bits (s.reg .dirWaydis t 0) w w = 1 then s
  else if 2 ≤ n then s.wayNotice t w 1 0
  else
    let s1 := (s.dirWay t w).foldl (fun (s : State) e =>
      if e.2.pins != 0 then s.movePinned e.1 else ((s.wait (s.lineBusy e.1)).freeEntry e.1).bump .dirOverflow t 0) s
    (s1.putField .dirWaydis t 0 w w 1).wayNotice t w 1 0

/-- A corrected error in a directory way. -/
def State.dirCorrected (t w : Nat) (s : State) : State :=
  let v := (tget (fun _ => ({} : CeWin)) s.coh.dirCeWins (16 * t + w)).hit s.now
  let s1 : State := { s with coh := { s.coh with dirCeWins := tset (fun _ => {}) s.coh.dirCeWins (16 * t + w) v } }
  let s2 := s1.putReg .dirCe t w (min v.count 3)
  if v.count = 3 then s2.dirReached t w else s2

/-- The dirty lines of a tile's Catalogue cache (R114). -/
def State.dirtyCat (s : State) (t : Nat) : List Nat :=
  (s.cat.cache.filter (fun e => e.1 / catSets == t)).flatMap (fun e => (e.2.filter (fun x => x.dirty)).map (fun x => x.line))

/-- A dirty Catalogue cache line is lost with its 16 entries (R135, R362). -/
def State.catLineLost (t v : Nat) (s : State) : State :=
  let l := s.dirtyCat t
  match l[v % l.length]? with
  | none => s
  | some x => if x < 2 ^ 32 then s.loseFolios t (16 * x) 16 else s.loseGroups t (x - 2 ^ 32) 1

/-- A dirty node of the counter cache is lost, with the range that it covers (R362). -/
def State.cnodeLost (t v : Nat) (s : State) : State :=
  let l := s.cry.nodes.filter (fun e => e.1 / 2 ^ 40 == t && e.2.cached && e.2.dirty)
  match l[v % l.length]? with
  | none => s
  | some e =>
    let r := s.covers t (e.1 / 2 ^ 32 % 2 ^ 8) (e.1 % 2 ^ 32)
    s.lostRange t r.1 r.2 (r.2 / 1024)

/-- The range of a word of the tract valid map: 64 tracts, or what DDR5 has of them at its end (R362). -/
def State.mapWord (s : State) (t v : Nat) : Nat × Nat :=
  let n := ((s.ddrMap t).top + 262143) / 262144
  let a := v % n * 262144
  (a, min 262144 ((s.ddrMap t).top - a))

/-- What an uncorrectable SRAM word loses (R362). Which line, entry, node or map word it was is a free value `v`. -/
def State.sramLost (t array w v : Nat) (dirty : Bool) (s : State) : State :=
  if array ≤ 1 then
    let l := (s.wayLines t w).filter (fun e => dirty == (e.2.st == .m) && e.2.st != .refill)
    let s1 := match l[v % l.length]? with
      | none => s
      | some (line, c) =>
        let s1 := if dirty then s.setNc t line { c with poison := true } else s
        if c.pin then s1.vacateKept t line else if dirty then s1 else s1.invalidate t line
    s1.wayFailed t w
  else if array = 2 then
    let l := s.dirWay t w
    match l[v % l.length]? with
    | none => s
    | some (line, _) => (((s.wait (s.lineBusy line)).recall line s.tileList).freeEntry line)
  else if array = 3 then (if dirty then s.catLineLost t v else s)
  else if array = 4 then (if dirty then s.cnodeLost t v else s)
  else if array = 6 then s.lostRange t (s.mapWord t v).1 (s.mapWord t v).2 ((s.mapWord t v).2 / 1024)
  else s

/-- A word of an SRAM array is read (R228, R361, R362, R366). An injection of one bit is corrected, one of more is not
(R411). -/
def State.sramStep (t array w : Nat) (dirty : Bool) (ecc : Ecc) (s : State) : State :=
  let (inj, s1) := s.check t (srcId 0x05 array)
  let one := match s.flt.inj.find? (fun j => j.tile == t && j.source == srcId 0x05 array) with
    | some j => ((List.range (checkWidth (srcId 0x05 array))).filter (fun i => j.mask.getLsbD i)).length == 1
    | none => false
  let ecc := if inj then (if one && ecc == .clean then .corrected 1 else .bad) else ecc
  match ecc with
  | .clean => s1
  | .corrected _ =>
    let s2 := (s1.bump .eccSramCe t 0).fault t (srcId 0x05 array) { inject := inj, aux := w }
    if array ≤ 1 then s2.ncCorrected t w else if array = 2 then s2.dirCorrected t w else s2
  | .bad =>
    let sev := if 7 ≤ array || array = 1 || (array = 0 && dirty) then 3 else 0
    let s2 := (s1.bump .eccSramUe t 0).fault t (srcId 0x05 array) { inject := inj, minSev := sev, aux := w }
    (s2.drawn 1).sramLost t array w (Config.free s2.freeCtr).toNat dirty

def execSramScrubStep (tile array way : Nat) (dirty : Bool) (ecc : Ecc) (s : State) : Host.Outcome State Fault Refusal :=
  withUnit (s.hasTile tile && decide (array < 13) && decide (way < 16)) (State.whole fun s =>
    if s.ddrRuns tile then s.sramStep tile array way dirty ecc else s) s

end Sys2Proof.Machine
end

