-- ==== Sys2Proof/Machine/Flits.lean ====
section
/-! DEFINITION. The stream link below its states: flits and their headers (R259 to R263, R289), the message stream with its pad
words, scrambler, FEC and lanes (R241, R244 to R247, R269), departures (R249 to R251), the frames of EQ and LOCK (R253, R254),
and AES-256-GCM over groups of flits (R271 to R273). -/

namespace Sys2Proof.Machine

/-! ## Flits (R259 to R262) -/

/-- One byte into the CRC-16 with polynomial 0x1021, the most significant bit first (R259). -/
def crc16Byte (c : Nat) (b : Byte) : Nat :=
  (List.range 8).foldl (fun c _ => if 32768 ≤ c then (2 * c % 65536) ^^^ 0x1021 else 2 * c % 65536) (c ^^^ (b.toNat * 256))

/-- The header CRC, from 0xFFFF. -/
def crc16 (l : List Byte) : Nat := l.foldl crc16Byte 0xFFFF

inductive FlitKind where
  | idle | data | req | cap | ctrl
  deriving DecidableEq, Repr

def FlitKind.code : FlitKind → Nat
  | .idle => 0
  | .data => 1
  | .req => 2
  | .cap => 3
  | .ctrl => 4

/-- A flit of this kind consumes a sequence number (R260). -/
def FlitKind.numbered (k : FlitKind) : Bool := k != .idle

/-- The fields of a header before its CRC (R259). -/
structure HdrFields where
  kind    : FlitKind
  poison  : Bool := false
  id      : Nat := 0
  seq     : Nat
  credit  : Nat := 0
  cclass  : Nat := 0
  routeHi : Nat := 0
  tflags  : Nat := 0

/-- Bytes 0 to 5 of a header, as a number. -/
def HdrFields.low (f : HdrFields) : Nat :=
  f.kind.code + 128 * f.poison.toNat + 2 ^ 8 * (f.id % 256) + 2 ^ 16 * (f.seq % 65536) +
    2 ^ 32 * (f.tflags % 32 + 32 * (f.routeHi % 4) + 128 * (f.cclass % 4) + 512 * (f.credit % 128))

/-- The 8 header bytes, byte 0 the lowest. -/
def HdrFields.word (f : HdrFields) : DWord := BitVec.ofNat 64 (f.low + 2 ^ 48 * crc16 (leBytes 6 f.low))

end Sys2Proof.Machine

namespace Sys2Proof

open Machine

def Flit.field (f : Flit) (hi lo : Nat) : Nat := bits f.hdr.toNat hi lo

def Flit.poisoned (f : Flit) : Bool := f.hdr.getLsbD 7

def Flit.id (f : Flit) : Nat := f.field 15 8

def Flit.seq (f : Flit) : Nat := f.field 31 16

def Flit.tflags (f : Flit) : Nat := f.field 36 32

/-- The route slot that a REQ names (R289). -/
def Flit.route (f : Flit) : Nat := f.id + 256 * f.field 38 37

/-- The credits a flit returns: their class and number (R265). -/
def Flit.cclass (f : Flit) : Nat := f.field 40 39

def Flit.credit (f : Flit) : Nat := f.field 47 41

/-- Bytes 0 to 5 of the header: what GCM authenticates (R273). -/
def Flit.aad (f : Flit) : Nat := f.field 47 0

/-- The header's CRC is good. -/
def Flit.hcrcOk (f : Flit) : Bool := f.field 63 48 == crc16 (leBytes 6 f.aad)

/-- A header of this kind holds 0 wherever R259 and R260 require it (R261); an IDLE flit's payload is 0 too. -/
def Flit.legal (k : FlitKind) (f : Flit) : Bool :=
  f.field 3 0 == k.code && f.field 6 4 == 0 &&
    match k with
    | .idle => !f.poisoned && f.id == 0 && f.field 38 32 == 0 && f.payload == 0
    | .data => decide (f.tflags < 2)
    | .req => !f.poisoned && f.tflags == 0
    | .cap => decide (f.id < 64) && decide (f.tflags < 4) && f.field 38 37 == 0
    | .ctrl => !f.poisoned && decide (1 ≤ f.id ∧ f.id ≤ 6) && f.field 38 32 == 0

end Sys2Proof

namespace Sys2Proof.Machine

/-- Bytes of a payload, and the number that some of them hold. -/
def payloadBytes (l : Line) : List Byte := leBytes 128 l.toNat

def payloadField (l : Line) (off n : Nat) : Nat := l.toNat / 256 ^ off % 256 ^ n

/-- A payload whose bytes from 0 on are the pieces given, each a number and its bytes; the rest is 0. -/
def payloadOf (pieces : List (Nat × Nat)) : Line :=
  BitVec.ofNat 1024 (pieces.foldr (fun x a => x.2 % 256 ^ x.1 + 256 ^ x.1 * a) 0)

/-- The 136 bytes of a flit (R259). -/
def flitBytes (hdr : DWord) (payload : Line) : List Byte := leBytes 8 hdr.toNat ++ payloadBytes payload

/-- The operation of a REQ by its first byte (R289). -/
def reqOp (v : Nat) : ReqOp :=
  match v with
  | 1 => .branch
  | 2 => .jump
  | 3 => .loopExit
  | 4 => .stop
  | _ => .unknown

/-- The request in a REQ payload (R289); `cycle` is the port cycle of its last bit (R250). -/
def reqOf (route cycle : Nat) (l : Line) : ReqBody where
  route := route
  op := reqOp (payloadField l 0 1)
  cut := l.getLsbD 8
  land := payloadField l 2 1
  segment := payloadField l 4 2
  offset := payloadField l 8 3
  rtag := BitVec.ofNat 32 (payloadField l 12 4)
  rsv := bits (payloadField l 1 1) 7 1 != 0 || payloadField l 3 1 != 0 || payloadField l 6 2 != 0 || payloadField l 11 1 != 0 ||
    payloadField l 16 112 != 0
  cycle := cycle

/-- The content of a CTRL CONFIG (R263). -/
def configOf (l : Line) : ConfigBody where
  version := BitVec.ofNat 16 (payloadField l 0 2)
  lanes := payloadField l 2 1
  capable := l.getLsbD 24
  required := l.getLsbD 25
  crData := payloadField l 4 2
  crCtrl := payloadField l 10 2
  nonce := BitVec.ofNat 64 (payloadField l 12 8)

/-! ## The message stream (R246, R247, R269) -/

/-- A word at a flit boundary that a receiver skips as a pad word (R269). -/
def padWord (w : DWord) : Bool :=
  bits w.toNat 6 4 != 0 && decide (5 ≤ ((List.range 8).filter (fun i => w.extractLsb' (8 * i) 8 == 0xFF)).length)

/-- The words of a flit. -/
def flitWords (hdr : DWord) (payload : Line) : List DWord :=
  hdr :: (List.range 16).map (fun i => payload.extractLsb' (64 * i) 64)

/-- Whole flits of 17 words out of received words, pad words skipped between them (R247, R269). -/
def frames : Nat → List DWord → List (List DWord)
  | 0, _ => []
  | n + 1, l =>
    match l with
    | [] => []
    | w :: ws =>
      if padWord w then frames n ws else if l.length < 17 then [] else l.take 17 :: frames n (l.drop 17)

/-- The bits of stream words, each byte's least significant first. -/
def wordBits (l : List DWord) : List Bool := l.flatMap (fun w => (List.range 64).map (fun i => w.getLsbD i))

/-- The generator x^31 + x^28 + 1 as it is loaded after LOCK (R246). -/
def scrambleInit : BitVec 31 := 0x7FFFFFFF

/-- One step of the generator: its output bit and the next state. -/
def scrambleStep (r : BitVec 31) : Bool × BitVec 31 :=
  let b := (r.getLsbD 30) != (r.getLsbD 27)
  (b, BitVec.ofNat 31 (2 * r.toNat + b.toNat))

/-- Message bits XORed with the generator's output, and its state after them. Scrambling twice gives the bits back. -/
def scramble : BitVec 31 → List Bool → List Bool × BitVec 31
  | r, [] => ([], r)
  | r, b :: l =>
    let (k, r1) := scrambleStep r
    let (l1, r2) := scramble r1 l
    ((b != k) :: l1, r2)

/-! ## FEC (R244) -/

/-- RS(544,514) over GF(2 ^ 10) with x^10 + x^3 + 1, as IEEE 802.3 clause 119 gives it (PRESUMED, assumption 55). -/
def linkCode : RsCode := { m := 10, poly := 0x409, check := 30 }

/-- Bits of a codeword's message, and of one symbol. -/
def msgBits : Nat := 5140

def bitsNat (l : List Bool) : Nat := l.foldr (fun b a => b.toNat + 2 * a) 0

/-- Message bits fill the data symbols in order, the first bit of each as its LSB (R245). -/
def msgSymbols (l : List Bool) : List Nat := (List.range 514).map (fun k => bitsNat ((l.drop (10 * k)).take 10))

/-- A codeword: 514 message symbols and 30 of parity. -/
def codeword (l : List Bool) : List Nat := msgSymbols l ++ linkCode.parity (msgSymbols l)

/-- A received codeword after correction of up to 15 symbols; none where it cannot be corrected. -/
def corrected (w : List Nat) : Option (List Nat) := linkCode.correct 15 w

end Sys2Proof.Machine

namespace Sys2Proof

open Machine

/-- The codewords of a flit that the FEC cannot correct, and those that it corrects (R244). -/
def Flit.lost (f : Flit) : Nat := (f.codewords.filter (fun w => (corrected w).isNone)).length

def Flit.fixed (f : Flit) : Nat := (f.codewords.filter (fun w => !linkCode.holds w && (corrected w).isSome)).length

end Sys2Proof

namespace Sys2Proof.Machine

/-- The message bits of a codeword. -/
def codewordBits (w : List Nat) : List Bool :=
  (w.take 514).flatMap (fun x => (List.range 10).map (fun i => x.testBit i))

/-! ## Lanes (R241, R245) -/

/-- The symbols of a codeword that lane `j` of a port of width `w` carries: those k with k mod w = j. -/
def laneSymbols (w j : Nat) (cw : List Nat) : List Nat :=
  ((List.range cw.length).filter (fun k => k % w == j)).map (fun k => cw.getD k 0)

/-- The bits of a lane, each symbol's least significant first. -/
def laneBits (syms : List Nat) : List Bool := syms.flatMap (fun x => (List.range 10).map (fun i => x.testBit i))

/-- Pairs of bits as PAM4 symbols, the first bit of each pair its LSB. -/
def pamPairs : List Bool → List Nat
  | a :: b :: l => (a.toNat + 2 * b.toNat) :: pamPairs l
  | _ => []

/-- Gray coding: the level, 0 for −3 to 3 for +3, of a symbol (R241). -/
def grayLevel (v : Nat) : Nat :=
  match v with
  | 0 => 0
  | 1 => 1
  | 3 => 2
  | _ => 3

/-- Precoding by 1/(1 + D) mod 4, from the last level sent (R241). -/
def precode : Nat → List Nat → List Nat
  | _, [] => []
  | y, x :: l => (x + 4 - y) % 4 :: precode ((x + 4 - y) % 4) l

/-- The codewords that flits fill from the first message bit after LOCK on; bits that do not fill a codeword wait. -/
def streamCodewords (words : List DWord) : List (List Nat) :=
  let b := (scramble scrambleInit (wordBits words)).1
  (List.range (b.length / msgBits)).map (fun c => codeword ((b.drop (msgBits * c)).take msgBits))

/-- What lane `j` of a port of width `w` sends: PAM4 levels, precoded where `pre`. -/
def laneStream (w j : Nat) (pre : Bool) (words : List DWord) : List Nat :=
  let l := (pamPairs (laneBits ((streamCodewords words).flatMap (laneSymbols w j)))).map grayLevel
  if pre then precode 0 l else l

/-! ## Departures (R249 to R251) -/

/-- The place on its lane, in bits from the start of codeword 0, of message bit `m` of a port of width `w`. -/
def lanePlace (w m : Nat) : Nat := m / msgBits * (5440 / w) + m % msgBits / 10 / w * 10 + m % 10

/-- The stream word with which a flit that departs in cycle `c` begins: the first that starts at or after the start of the
cycle. -/
def departWord (w c : Nat) : Nat :=
  let base := 64 * c / (5440 / w) * msgBits / 64
  ((List.range 84).map (· + base)).find? (fun n => 64 * c ≤ lanePlace w (64 * n)) |>.getD base

/-! ## Training and lock (R253, R254) -/

/-- CRC-8 with polynomial 0x07 over bytes, from 0. -/
def crc8Bytes (l : List Byte) : Nat :=
  l.foldl (fun c b => (List.range 8).foldl (fun c i => crc8Step c (b.getLsbD (7 - i))) c) 0

/-- The 16 bytes of a control field whose CRC is good (R253). -/
def eqCrcOk (ctl : BitVec 128) : Bool := ctl.toNat / 2 ^ 120 == crc8Bytes (leBytes 15 ctl.toNat)

/-- Byte `i` of a control field. -/
def eqByte (ctl : BitVec 128) (i : Nat) : Nat := ctl.toNat / 256 ^ i % 256

/-- The control field that the part sends on a lane. -/
def eqControl (lane request status flags : Nat) : BitVec 128 :=
  let low := lane % 8 + 2 ^ 8 * (request % 256) + 2 ^ 16 * (status % 256) + 2 ^ 24 * (flags % 4)
  BitVec.ofNat 128 (low + 2 ^ 120 * crc8Bytes (leBytes 15 low))

/-- Bits of a feedback shift register with the given taps, the newest bit first in the register. -/
def prbs (taps : List Nat) : Nat → List Bool → List Bool
  | 0, _ => []
  | n + 1, r =>
    let b := taps.foldl (fun a k => a != r.getD (k - 1) false) false
    b :: prbs taps n (b :: r.dropLast)

/-- PRBS13 as PAM4 levels, from a state of its 13-bit register (PRESUMED: x^13 + x^12 + x^2 + x + 1, assumption 55). -/
def prbs13 (seed : BitVec 13) (n : Nat) : List Int :=
  (pamPairs (prbs [13, 12, 2, 1] (2 * n) ((List.range 13).map (fun i => seed.getLsbD i)))).map (fun v => 2 * (grayLevel v : Int) - 3)

/-- The levels of a training frame (R253): 32 UI at +3, 32 at −3, each bit of the control field as two UI, and 7,872 UI of PRBS13,
whose register the manual gives no start for. -/
def eqFrame (ctl : BitVec 128) (seed : BitVec 13) : List Int :=
  List.replicate 32 3 ++ List.replicate 32 (-3) ++
    (List.range 128).flatMap (fun i => let v : Int := if ctl.getLsbD i then 3 else -3; [v, v]) ++ prbs13 seed 7872

/-- The marker of a lane of the port (R254). -/
def lockMarker (lane : Nat) : BitVec 40 := 0x5AC3960FE0 ^^^ BitVec.ofNat 40 lane

/-- What a lane of a port of width `w` sends of a codeword in LOCK (R254): its marker in its first 4 symbols, then PRBS31 from a state
of its register. -/
def lockLane (w lane : Nat) (seed : BitVec 31) : List Bool :=
  (List.range 40).map (fun i => (lockMarker lane).getLsbD i) ++
    prbs [31, 28] (5440 / w - 40) ((List.range 31).map (fun i => seed.getLsbD i))

/-! ## AES-256-GCM (R271 to R273; NIST SP 800-38D, PRESUMED, assumption 55) -/

/-- A product in GF(2 ^ 128) with the bit order of GHASH. -/
def ghashMul (x y : Nat) : Nat :=
  ((List.range 128).foldl (fun (a : Nat × Nat) i =>
    (if x.testBit (127 - i) then a.1 ^^^ a.2 else a.1,
     if a.2 % 2 = 1 then a.2 / 2 ^^^ (0xE1 * 2 ^ 120) else a.2 / 2)) (0, y)).1

/-- Bytes, the first highest, as a number. -/
def beNat (l : List Nat) : Nat := l.foldl (fun a b => 256 * a + b) 0

/-- GHASH of bytes that zeros pad to whole blocks. -/
def ghash (h y : Nat) (l : List Nat) : Nat :=
  (List.range ((l.length + 15) / 16)).foldl (fun a i =>
    let b := (l.drop (16 * i)).take 16
    ghashMul (a ^^^ beNat (b ++ List.replicate (16 - b.length) 0)) h) y

/-- Block `i` of the key stream of a key of 32 bytes and an IV of 12. -/
def gcmBlock (key iv : List Nat) (i : Nat) : List Nat :=
  aes256 key (iv ++ [i / 2 ^ 24 % 256, i / 2 ^ 16 % 256, i / 256 % 256, i % 256])

/-- The tag over authenticated bytes and ciphertext. -/
def gcmTag (key iv aad ct : List Nat) : List Nat :=
  let h := beNat (aes256 key (List.replicate 16 0))
  let y := ghashMul (ghash h (ghash h 0 aad) ct ^^^ (8 * aad.length * 2 ^ 64 + 8 * ct.length)) h
  xorBytes ((List.range 16).map (fun i => y / 256 ^ (15 - i) % 256)) (gcmBlock key iv 1)

/-- The key and salt of a direction (R272): 36 bytes out of the port key, a label and the two nonces, each number with its lowest
byte first (assumption 55). -/
def directionKey (key : Nat) (label : String) (part peer : DWord) : List Nat :=
  let le (n v : Nat) : List Nat := (List.range n).map (fun i => v / 256 ^ i % 256)
  shake256 36 (le 32 key ++ asciiBytes label ++ le 8 part.toNat ++ le 8 peer.toNat)

/-- The IV of a group: salt and group counter (R273). -/
def groupIv (dirKey : List Nat) (ctr : Nat) : List Nat := dirKey.drop 32 ++ (List.range 8).map (fun i => ctr / 256 ^ i % 256)

/-- The payload of flit `i` of a group, encrypted or decrypted: its bytes are 128 i to 128 i + 127 of the group's text. -/
def groupCrypt (dirKey : List Nat) (ctr i : Nat) (l : Line) : Line :=
  let key := dirKey.take 32
  let iv := groupIv dirKey ctr
  let ks := (List.range 8).flatMap (fun b => gcmBlock key iv (2 + 8 * i + b))
  l ^^^ BitVec.ofNat 1024 (ks.foldr (fun b a => b + 256 * a) 0)

/-- The tag of a group from bytes 0 to 5 of its headers and its payloads as sent, as a number with its first byte lowest. -/
def groupTag (dirKey : List Nat) (ctr : Nat) (l : List (Nat × Line)) : Nat :=
  let le (n v : Nat) : List Nat := (List.range n).map (fun i => v / 256 ^ i % 256)
  (gcmTag (dirKey.take 32) (groupIv dirKey ctr) (l.flatMap (fun x => le 6 x.1)) (l.flatMap (fun x => le 128 x.2.toNat))).foldr
    (fun b a => b + 256 * a) 0

end Sys2Proof.Machine
end

