-- ==== Sys2Proof/Machine/Ports.lean ====
section
/-! DEFINITION. What a stream port sends: headers with credit returns (R259, R260, R265), IDLE, DATA and CTRL flits (R255, R262,
R264), GCM groups (R273), and the lanes (R245, R246). -/

namespace Sys2Proof.Machine

/-! ## Credit returns (R265) -/

/-- Freed credits of a class that no flit has returned yet. -/
def SPort.owed (v : SPort) (cls : Nat) : Nat := (v.freed.filter (fun c => c == cls)).length

/-- `n` credits of a class are free. -/
def SPort.free (cls n : Nat) (v : SPort) : SPort := { v with freed := v.freed ++ List.replicate n cls }

/-- The class and number of credits that the next flit returns: all of the class of the oldest, up to 127. -/
def SPort.returns (v : SPort) : Nat × Nat :=
  match v.freed.head? with
  | none => (0, 0)
  | some c => (c, min 127 (v.owed c))

/-- A list without its first `n` elements that `p` holds of. -/
def dropFirst (p : Nat → Bool) : Nat → List Nat → List Nat
  | 0, l => l
  | _ + 1, [] => []
  | n + 1, a :: l => if p a then dropFirst p n l else a :: dropFirst p (n + 1) l

/-- The credits that a flit returns are the peer's again. -/
def SPort.returned (v : SPort) : SPort :=
  let (c, n) := v.returns
  let w := { v with freed := dropFirst (fun x => x == c) n v.freed }
  match c with
  | 1 => { w with capOut := v.capOut + n }
  | 2 => { w with reqOut := v.reqOut + n }
  | 3 => { w with ctrlOut := v.ctrlOut + n }
  | _ => w

/-! ## Flits (R255, R259, R260) -/

/-- The header of the next flit, with its sequence number and credit returns. -/
def SPort.hdr (v : SPort) (k : FlitKind) (poison : Bool) (id routeHi tflags : Nat) : DWord :=
  (HdrFields.mk k poison id v.txSeq.toNat v.returns.2 v.returns.1 routeHi tflags).word

/-- A flit leaves: its number is consumed unless it is IDLE, and its credits are returned. `cycle` is the port cycle in which a
DATA flit departs (R251). -/
def State.sendFlit (t p : Nat) (k : FlitKind) (cycle : Option Nat) (hdr : DWord) (payload : Line) (s : State) : State :=
  let v := (s.sport t p).returned
  (s.setSport t p { v with txSeq := if k.numbered then v.txSeq + 1 else v.txSeq }).emit (.flit t p cycle hdr payload)

/-- The port sends an IDLE flit in place of a DATA flit: 17 words of a starved category (R255, R500). -/
def State.idleFlit (t p cat : Nat) (s : State) : State :=
  ((s.sendFlit t p .idle none ((s.sport t p).hdr .idle false 0 0 0) 0).pmcEdge t 0x43 p).topDown t p cat 17

/-- A DATA flit as its GCM group holds it: encrypted, with bytes 0 to 5 of its header (R273). -/
def SPort.sealed (v : SPort) (payload : Line) : Line :=
  if v.gcm then groupCrypt v.keyTx v.tx.ctr v.tx.flits.length payload else payload

/-- A DATA flit leaves, with a credit, and joins the group being sent (R259, R264, R273). A line that could not be recovered goes as
zeros with poison set (R260). -/
def State.sendDataFlit (t p r cycle : Nat) (start poison : Bool) (line : Line) (s : State) : State :=
  let v := s.sport t p
  let h := v.hdr .data poison (r % 256) (r / 256) start.toNat
  let payload := v.sealed (if poison then 0 else line)
  let s1 := s.sendFlit t p .data (some cycle) h payload
  let w := s1.sport t p
  s1.setSport t p { w with
    dataCr := w.dataCr - 1
    tx := if v.gcm then { v.tx with
        flits := v.tx.flits ++ [{ seq := v.txSeq.toNat, record := none, aad := bits h.toNat 47 0, payload := payload }]
        stamp := if v.tx.flits.isEmpty then s.now else v.tx.stamp }
      else v.tx }

/-- Pad words go ahead of the first DATA flit of a new path: every other word since the port's stream began belongs to flits of 17
words, so that their number is fixed by its departure word (R247, R251, R293). They are sent, and are wasted slots (R500). -/
def State.padTo (t p cycle : Nat) (s : State) : State :=
  let v := s.sport t p
  let d := departWord (s.width t p) cycle % 17
  let n := (d + 17 - v.word17) % 17
  let s1 := s.setSport t p { v with word17 := d }
  ((if n = 0 then s1 else s1.emit (.pads t p n)).pmcEdges t 0x44 p n).topDown t p 1 n

/-! ## CTRL flits (R262, R264) -/

/-- A CTRL flit leaves whatever credit there is: in CONFIG, and the RETRAIN that ends a session (R256, R257). -/
def State.putCtrl (t p sub : Nat) (payload : Line) (s : State) : State :=
  s.sendFlit t p .ctrl none ((s.sport t p).hdr .ctrl false sub 0 0) payload

/-- A CTRL flit leaves and consumes a credit (R264). -/
def State.spendCtrl (t p sub : Nat) (payload : Line) (s : State) : State :=
  (s.setSport t p { s.sport t p with ctrlCr := (s.sport t p).ctrlCr - 1 }).putCtrl t p sub payload

/-- A switch is pending on a port, or its new path has not sent its first DATA flit: CTRL flits take their turn from the port engine
(R293). -/
def State.ctrlHeld (s : State) (t p : Nat) : Bool :=
  let e := tget (fun _ => ({} : Engine)) s.rte.engines (portKey t p)
  !e.switches.isEmpty || (e.pathStart && e.target.isSome)

/-- A CTRL flit with a credit leaves; without one, or behind others, or while a switch is pending, it waits (R264, R293). Its 17 words are
wasted slots (R500). -/
def State.sendCtrl (t p sub : Nat) (payload : Line) (s : State) : State :=
  let v := s.sport t p
  if v.ctrlCr = 0 || !v.ctrlQ.isEmpty || s.ctrlHeld t p then s.setSport t p { v with ctrlQ := v.ctrlQ ++ [(sub, payload)] }
  else (s.spendCtrl t p sub payload).topDown t p 1 17

/-- The oldest CTRL flit that waits leaves, where there is a credit. -/
def State.nextCtrl (t p : Nat) (s : State) : State :=
  let v := s.sport t p
  match v.ctrlQ with
  | [] => s
  | (sub, l) :: q =>
    if v.ctrlCr = 0 then s else ((s.setSport t p { v with ctrlQ := q }).spendCtrl t p sub l).topDown t p 1 17

/-- CTRL flits that waited leave as far as credits go, where no switch holds them back (R264, R293). -/
def State.drainCtrl (t p n : Nat) (s : State) : State :=
  if s.ctrlHeld t p then s else (List.range n).foldl (fun s _ => s.nextCtrl t p) s

/-- REQ_LOST: the seq expected and the seq received (R262, R267). -/
def State.sendLost (t p exp got : Nat) (s : State) : State :=
  (s.bump .slkReqLost t p).sendCtrl t p 5 (payloadOf [(2, exp), (2, got)])

/-! ## Lanes (R245, R246) -/

/-- The words a port has sent since its message stream began after LOCK. IDLE flits with which it fills the time between two
commands are no outputs of the model (assumption 3). -/
def portWords (t p : Nat) (l : List Out) : List DWord :=
  l.foldl (fun a o =>
    match o with
    | .streamStart t' p' => if t' == t && p' == p then [] else a
    | .flit t' p' _ h b => if t' == t && p' == p then a ++ flitWords h b else a
    | .pads t' p' n => if t' == t && p' == p then a ++ List.replicate n (BitVec.allOnes 64) else a
    | _ => a) []

/-- The PAM4 levels that lane `j` of a port has sent in whole codewords since LOCK. -/
def State.laneLevels (s : State) (t p j : Nat) : List Nat :=
  laneStream (s.width t p) j (s.sport t p).precode (portWords t p s.out)

end Sys2Proof.Machine
end

