-- ==== Sys2Proof/Machine/Routes.lean ====
section
/-! DEFINITION. Routes: segment tables and the walk, arming and retiring, decisions on requests, landing entries, reading
ahead, sending and switching (R280 to R306). -/

namespace Sys2Proof.Machine

/-! ## Tables -/

def State.route (s : State) (t r : Nat) : Route := tget (fun _ => {}) s.rte.routes (routeKey t r)

def State.setRoute (t r : Nat) (v : Route) (s : State) : State :=
  { s with rte := { s.rte with routes := tset (fun _ => {}) s.rte.routes (routeKey t r) v } }

def State.engine (s : State) (t p : Nat) : Engine := tget (fun _ => {}) s.rte.engines (portKey t p)

def State.setEngine (t p : Nat) (v : Engine) (s : State) : State :=
  { s with rte := { s.rte with engines := tset (fun _ => {}) s.rte.engines (portKey t p) v } }

/-- Entry `i` of a tile's landing table. -/
def landKey (t i : Nat) : Nat := 4096 * t + i

def State.setLanding (t i : Nat) (v : Option Landing) (s : State) : State :=
  { s with rte := { s.rte with landing := tset (fun _ => none) s.rte.landing (landKey t i) v } }

/-- A route that is armed on its port (R281). -/
def Route.armed (v : Route) : Bool := v.st == .armed || v.st == .active || v.st == .ended || v.st == .retiring

/-- The routes of a tile that hold a definition bound to a port. -/
def State.routesOn (s : State) (t p : Nat) : List (Nat × Route) :=
  ((s.rte.routes.filter (fun e => e.1 / 1024 == t)).map (fun e => (e.1 % 1024, e.2))).filter (fun e =>
    match e.2.defn with
    | some d => d.port == p
    | none => false)

/-! ## Segment tables (R282, R283) -/

/-- Entry `i` of a segment table of 16-byte entries (R282). -/
def segOf (l : List Byte) (i : Nat) : Segment :=
  let b (off n : Nat) : Nat := byteField l (16 * i + off) n
  { line := bits (b 0 6) 41 0, loopTo := b 6 2, lines := b 8 3, kind := BitVec.ofNat 2 (b 11 1), land := (b 11 1).testBit 2
    next := b 12 2, rep := b 14 2, rsv := bits (b 0 6) 47 42 != 0 || bits (b 11 1) 7 3 != 0 }

/-- The entries of a table. -/
def segsOf (count : Nat) (l : List Byte) : List Segment := (List.range count).map (segOf l)

/-- A landing target. -/
def landSegs (segs : List Segment) : List Nat :=
  (List.range segs.length).filter (fun i => match segs[i]? with
    | some g => g.land
    | none => false)

/-- A field that R282 requires to be 0 is not. -/
def segReserved (g : Segment) : Bool :=
  g.rsv || (g.kind != 1 && (g.loopTo != 0 || g.rep != 0)) || (g.kind == 2 && g.next != 0)

/-- A kind, next, loop_to or line count that R283 refuses. -/
def segBad (n i : Nat) (g : Segment) : Bool :=
  g.kind == 3 || decide (n ≤ g.next) || (g.kind == 1 && (decide (n ≤ g.loopTo) || decide (i < g.loopTo))) || g.lines == 0

/-- The body of the switchback at `i` is linear, and switchbacks inside it have their bodies inside it (R282). -/
def bodyOk (segs : List Segment) (i : Nat) (g : Segment) : Bool :=
  g.kind != 1 || (List.range i).all (fun j => decide (j < g.loopTo) ||
    match segs[j]? with
    | some h => h.kind != 2 && h.next == j + 1 && (h.kind != 1 || decide (g.loopTo ≤ h.loopTo))
    | none => true)

/-- The switchbacks whose body holds a segment. -/
def holders (segs : List Segment) (i : Nat) : List Nat :=
  (List.range segs.length).filter (fun j => match segs[j]? with
    | some g => g.kind == 1 && decide (g.loopTo ≤ i) && decide (i ≤ j)
    | none => false)

/-- `f` holds of some segment of a table. -/
def anySeg (segs : List Segment) (f : Nat → Segment → Bool) : Bool :=
  (List.range segs.length).any (fun i => match segs[i]? with
    | some g => f i g
    | none => false)

/-- The segment entries of a tile's pool in use, and the landing entries, definitions held for R284 among them. -/
def State.segsUsed (s : State) (t : Nat) : Nat :=
  (s.rte.routes.filter (fun e => e.1 / 1024 == t)).foldl (fun a e =>
    a + (match e.2.defn with
      | some d => d.segs.length
      | none => 0) + e.2.older.foldl (fun a x => a + x.2.segs.length) 0) 0

def State.landsUsed (s : State) (t : Nat) : Nat :=
  (s.rte.routes.filter (fun e => e.1 / 1024 == t)).foldl (fun a e =>
    a + (match e.2.defn with
      | some d => (landSegs d.segs).length
      | none => 0) + e.2.older.foldl (fun a x => a + (landSegs x.2.segs).length) 0) 0

/-- The table checks of R283, in its order. -/
def State.tableCheck (s : State) (t : Nat) (segs : List Segment) : Option Status :=
  if segs.any segReserved then some .reserved
  else if anySeg segs (fun i g => segBad segs.length i g || !bodyOk segs i g || decide (8 < (holders segs i).length)) then
    some .param
  else if segs.any (fun g => decide (s.capacity < 128 * (g.line + g.lines))) then some .range
  else if 256 < (landSegs segs).length then some .param
  else if 65536 < s.segsUsed t + segs.length || 4096 < s.landsUsed t + (landSegs segs).length then some .param
  else none

/-! ## The walk (R286) -/

/-- The position after the segment of `p` (R286): the next segment, the first of the body again, or none after END. -/
def RouteDef.leave (d : RouteDef) (p : Pos) : Option Pos :=
  match d.segs[p.seg]? with
  | none => none
  | some g =>
    if g.kind == 2 then none
    else if g.kind == 1 then
      let st : List Frame := match p.stack with
        | f :: rest =>
          if f.seg == p.seg then (if g.rep == 0 then p.stack else { f with left := f.left - 1 } :: rest)
          else { seg := p.seg, left := g.rep - 1 } :: p.stack
        | [] => [{ seg := p.seg, left := g.rep - 1 }]
      if g.rep == 0 || decide (0 < ((st.head?.map (fun f => f.left)).getD 0)) then
        some { seg := g.loopTo, off := 0, stack := st }
      else some { seg := g.next, off := 0, stack := st.tail }
    else some { seg := g.next, off := 0, stack := p.stack }

/-- The position after the line at `p`. -/
def RouteDef.next (d : RouteDef) (p : Pos) : Option Pos :=
  match d.segs[p.seg]? with
  | none => none
  | some g => if p.off + 1 < g.lines then some { p with off := p.off + 1 } else d.leave p

/-- The line at a position. -/
def RouteDef.line (d : RouteDef) (p : Pos) : Option Nat := (d.segs[p.seg]?).map (fun g => g.line + p.off)

/-- The innermost switchback whose body holds a segment (R283, R289). -/
def RouteDef.enclosing (d : RouteDef) (seg : Nat) : Option Nat := (holders d.segs seg).head?

/-! ## Landing runs (R297, R298) -/

/-- t_req of a port width, in cyc(port) (R292). -/
def treq (w : Nat) : Nat :=
  match w with
  | 1 => 113
  | 2 => 71
  | 4 => 50
  | _ => 39

/-- N of R298 for a latency and a width. -/
def landDepth (l w : Nat) : Nat := max 1 (((treq w + 1537 - l) * w * 257 + 4623) / 4624)

/-- The first `want` distinct lines of the walk from a position (R298). A walk that comes back to a segment with the same
stack meets no further line. -/
def RouteDef.run (d : RouteDef) (want : Nat) : Nat → Pos → List (Nat × List Frame) → List Nat → List Nat
  | 0, _, _, acc => acc
  | fuel + 1, p, seen, acc =>
    if want ≤ acc.length || seen.contains (p.seg, p.stack) then acc
    else
      match d.segs[p.seg]? with
      | none => acc
      | some g =>
        let fresh := ((List.range (min g.lines (want + acc.length))).map (· + g.line)).filter (fun l => !acc.contains l)
        let acc := acc ++ fresh.take (want - acc.length)
        match d.leave p with
        | none => acc
        | some q => d.run want fuel q ((p.seg, p.stack) :: seen) acc

/-- The landing run of a land segment. -/
def RouteDef.landingRun (d : RouteDef) (seg : Nat) : List Nat :=
  d.run d.depth (2 ^ 32) { seg, off := 0, stack := [] } [] []

/-- Every line of a run is pinned on the tile and none is in REFILL (R299). -/
def State.runReady (s : State) (t : Nat) (lines : List Nat) : Bool :=
  lines.all (fun l => (s.nc t l).pin && (s.nc t l).readable)

/-- The landing entries of a tile in use. -/
def State.landings (s : State) (t : Nat) : List (Nat × Landing) :=
  (s.rte.landing.filter (fun e => e.1 / 4096 == t)).filterMap (fun e => e.2.map (fun x => (e.1 % 4096, x)))

/-- The entry of a land segment of a route. -/
def State.landingOf (s : State) (t r seg : Nat) : Option Landing :=
  ((s.landings t).find? (fun e => e.2.route == r && e.2.seg == seg)).map (fun e => e.2)

/-- The entries of a route leave the landing table. -/
def State.dropLandings (t r : Nat) (s : State) : State :=
  { s with rte := { s.rte with
    landing := tmap (fun _ => none) (fun k v =>
      match v with
      | some x => if k / 4096 == t && x.route == r then none else v
      | none => none) s.rte.landing } }

/-- A route's land segments take free entries, lowest first (R297). -/
def State.takeLandings (t r : Nat) (d : RouteDef) (s : State) : State :=
  (landSegs d.segs).foldl (fun (s : State) g =>
    match (List.range 4096).find? (fun i => (tget (fun _ => (none : Option Landing)) s.rte.landing (landKey t i)).isNone) with
    | some i => s.setLanding t i (some { route := r, seg := g, ready := s.runReady t (d.landingRun g) })
    | none => s) s

/-! ## Ending and leaving (R302 to R304) -/

/-- REQ credits are free: the port's next flits return them to the peer, which holds at most 16 (R264, R265, R292). -/
def State.returnReq (t p n : Nat) (s : State) : State :=
  let v := s.sport t p
  let k := min n (16 - v.reqOut - v.owed 2)
  if k = 0 then s else s.setSport t p (v.free 2 k)

/-- Only some lines stay among those read ahead. -/
def Engine.keepRead (l : List Nat) (e : Engine) : Engine :=
  { e with buffer := e.buffer.filter (fun b => l.contains b.1), flight := e.flight.filter (fun f => l.contains f.line)
           parked := e.parked.filter (fun b => l.contains b.1), again := e.again.filter (fun x => l.contains x) }

/-- The lines read ahead for pending switches. -/
def Engine.switchLines (e : Engine) : List Nat := e.switches.flatMap (fun x => x.lines)

/-- The engine has no walk; what it has read for pending switches stays (R295). -/
def Engine.halted (e : Engine) : Engine :=
  { e.keepRead e.switchLines with
    pos := none, fetchPos := none, ahead := 0, pathStart := false, target := none, sentPos := none, underrun := false
    creditWait := false, onTime := false }

/-- Pending switches are gone, with what had been read for them alone. -/
def Engine.noSwitches (e : Engine) : Engine :=
  let e1 := { e with switches := [] }
  if e.pos.isNone then e1.keepRead [] else e1

/-- Where the current path is: the position of its last DATA flit, or its first while none has departed (R291). -/
def Engine.here (e : Engine) : Option Pos := if e.pathStart then e.pos else e.sentPos

/-- The current route becomes ENDED with an event bit; it stays where its walk has ended (R291, R302, R304). -/
def State.endRoute (t p bit : Nat) (s : State) : State :=
  let e := s.engine t p
  match e.current with
  | none => s
  | some r =>
    let v := s.route t r
    let s1 := if v.st == .active then s.setRoute t r { v with st := .ended } else s
    (s1.setEngine t p { e.halted with sentPos := e.here }).routeEvent t r bit

/-- A route leaves its port: DEFINED, no longer current, and retired sets (R303). -/
def State.freeRoute (t r : Nat) (s : State) : State :=
  let v := s.route t r
  match v.defn with
  | none => s
  | some d =>
    let e := s.engine t d.port
    let s1 := if e.current == some r then s.setEngine t d.port { e.halted with current := none, switches := e.switches } else s
    (s1.setRoute t r { v with st := .defined }).routeEvent t r 5

/-- Pending switches to a route, and of it, are cancelled and their credits returned (R303). -/
def State.cancelSwitches (t p r : Nat) (s : State) : State :=
  let e := s.engine t p
  let gone := e.switches.filter (fun x => x.route == r)
  (s.setEngine t p { e with switches := e.switches.filter (fun x => x.route != r) }).returnReq t p gone.length

/-- A port leaves ACTIVE: its current route is ENDED with link_stop and pending switches are dropped (R304). -/
def State.routesDown (t p : Nat) (s : State) : State :=
  let s1 := s.setEngine t p (s.engine t p).noSwitches
  s1.endRoute t p 6

/-- Entry to P1 (R304): as by STOP with cut. -/
def State.routesQuiet (s : State) : State :=
  s.tileList.foldl (fun s t => (List.range 8).foldl (fun (s : State) p =>
    match (s.engine t p).current with
    | none => s
    | some _ =>
      let n := (s.engine t p).switches.length
      let s1 := (s.setEngine t p (s.engine t p).noSwitches).returnReq t p n
      s1.endRoute t p 0) s) s

/-! ## ROUTE_DEFINE, ROUTE_ARM, ROUTE_RETIRE -/

/-- A checked table becomes the definition of a slot; the one it replaces is held until the new one's epoch is durable
(R283, R284). -/
def State.define (t r : Nat) (d : RouteDef) (s : State) : State :=
  let v := s.route t r
  let older := match v.defn with
    | some x => (d.epoch, x) :: v.older
    | none => v.older
  ((s.dropLandings t r).setRoute t r { v with st := .defined, defn := some d, older }).takeLandings t r d

/-- ROUTE_DEFINE once its slot has passed (R283). -/
def State.defined (t r count lat p : Nat) (data : HostData) (s : State) : SlotAnswer :=
  let segs := segsOf count data.bytes
  let fail (st : Status) : SlotAnswer := { st, len := 16 * count, after := s }
  if lat < 280 || 1700 < lat || count = 0 || 65536 < count then fail .param
  else if (s.route t r).armed then fail .state
  else if !data.ok then fail .hostRead
  else
    match s.tableCheck t segs with
    | some st => fail st
    | none =>
      let depth := if (landSegs segs).isEmpty then 0 else landDepth lat (s.width t p)
      { st := .done, len := 16 * count, after := s.define t r { port := p, lat, depth, segs, epoch := s.stampOf t } }

def execRouteDefine (c : Ctx) (tile : Byte) (route : BitVec 16) (slot count : Word) (latency : BitVec 16) (port : Byte)
    (own : SlotRead) (data : HostData) (s : State) : Host.Outcome State Fault Refusal :=
  .next (s.command 0x20 srcInterp c (routeDefineParams tile route slot count latency port) (fun s =>
    if !s.hasSport tile.toNat port.toNat then s.reply srcInterp c .unknown 0
    else if 1024 ≤ route.toNat then (s.misuse c 0x20).reply srcInterp c .unknown 0
    else s.withSlot (srcStream tile.toNat) c slot own true (fun _ w => ownLen w == 16 * count.toNat)
      (fun _ s => s.defined tile.toNat route.toNat count.toNat latency.toNat port.toNat data)))

/-- A route becomes current and walks from a position (R285, R289). -/
def State.startPath (t p r : Nat) (at' : Pos) (target : Option Nat) (onTime : Bool) (s : State) : State :=
  let e := s.engine t p
  (s.setRoute t r { s.route t r with st := .active }).setEngine t p
    { e.halted with current := some r, pos := some at', fetchPos := some at', pathStart := true, target, onTime }

/-- A vector that ROUTE_ARM and CAPTURE_OPEN may name (R285, R309). -/
def vectorOk (v : Nat) : Bool := v == 0 || (decide (128 ≤ v) && decide (v ≤ 2047))

/-- The port a command came through; HP0 for the sideband. -/
def portOf (c : Ctx) : Nat :=
  match c.path with
  | .ring p _ _ => p
  | .sideband => 0

def execRouteArm (c : Ctx) (tile : Byte) (route vector : BitVec 16) (start : Byte) (s : State) :
    Host.Outcome State Fault Refusal :=
  .next (s.command 0x21 srcInterp c (routeArmParams tile route vector start) (fun s =>
    let t := tile.toNat
    let r := route.toNat
    let v := s.route t r
    if !s.hasTile t then s.reply srcInterp c .unknown 0
    else if 1024 ≤ r then (s.misuse c 0x21).reply srcInterp c .unknown 0
    else
      match v.defn with
      | none => s.reply (srcStream t) c .unknown 0
      | some d =>
        if !s.hasSport t d.port then s.reply (srcStream t) c .unknown 0
        else if v.st != .defined || (s.routesOn t d.port).any (fun e => e.2.armed && e.2.defn.map (fun x => x.lat) != some d.lat)
            || s.field .slkPortCfg t d.port 31 31 = 0 || (start == 1 && (s.engine t d.port).current.isSome) then
          s.reply (srcStream t) c .state 0
        else if !vectorOk vector.toNat then s.reply (srcStream t) c .param 0
        else if 2 ≤ start.toNat then (s.misuse c 0x21).reply (srcStream t) c .param 0
        else
          let s1 := s.setRoute t r { v with st := .armed, vector := vector.toNat, vport := portOf c }
          (if start = 1 then s1.startPath t d.port r { seg := 0, off := 0, stack := [] } none false else s1).reply (srcStream t) c
            .done 0))

/-- The next line goes on with the segment pass of the last DATA flit that departed (R303). -/
def Engine.midPass (e : Engine) : Bool :=
  match e.sentPos, e.pos with
  | some a, some b => b.seg == a.seg && b.off == a.off + 1
  | _, _ => false

/-- A RETIRING route sends what is left of its segment pass, which may be nothing (R303). -/
def State.endPass (t p : Nat) (s : State) : State :=
  if (s.engine t p).midPass then s else s.setEngine t p (s.engine t p).halted

/-- ROUTE_RETIRE on a route with a definition: one it had replaced stays allocated until its epoch is durable (R284, R303). -/
def State.retire (t r mode : Nat) (d : RouteDef) (s : State) : State :=
  let v := s.route t r
  match v.st with
  | .empty => s
  | .defined => (s.dropLandings t r).setRoute t r { older := v.older.map (fun x => (x.1, { x.2 with epoch := 2 ^ 64 })) }
  | .armed => (s.cancelSwitches t d.port r).freeRoute t r
  | .active | .ended | .retiring =>
    if mode = 0 then ((s.cancelSwitches t d.port r).setRoute t r { v with st := .retiring }).endPass t d.port
    else (s.cancelSwitches t d.port r).freeRoute t r

def execRouteRetire (c : Ctx) (tile : Byte) (route : BitVec 16) (mode : Byte) (s : State) :
    Host.Outcome State Fault Refusal :=
  .next (s.command 0x22 srcInterp c (routeRetireParams tile route mode) (fun s =>
    let t := tile.toNat
    let r := route.toNat
    if !s.hasTile t then s.reply srcInterp c .unknown 0
    else if 1024 ≤ r then (s.misuse c 0x22).reply srcInterp c .unknown 0
    else if 2 ≤ mode.toNat then (s.misuse c 0x22).reply srcInterp c .param 0
    else
      match (s.route t r).defn with
      | none => s.reply (srcStream t) c .unknown 0
      | some d =>
        if (s.route t r).st == .retiring && mode == 0 then s.reply (srcStream t) c .state 0
        else (s.retire t r mode.toNat d).reply (srcStream t) c .done 0))

/-- A RETIRING route whose segment pass is over, or that sends nothing, becomes DEFINED (R303). -/
def execRetireComplete (tile route : Nat) (s : State) : Host.Outcome State Fault Refusal :=
  withUnit (s.hasTile tile && decide (route < 1024)) (fun s =>
    let v := s.route tile route
    match v.defn with
    | none => s
    | some d =>
      if v.st == .retiring && (s.engine tile d.port).pos.isNone then s.freeRoute tile route else s) s

/-! ## Decisions (R289 to R296) -/

/-- The route that is current at a decision (R291). -/
def Engine.currentAt (e : Engine) : Option Nat :=
  match e.switches.getLast? with
  | some x => some x.route
  | none => e.current

/-- The position of a request (R291): the start of the newest pending path, or else where the current path is. -/
def Engine.position (e : Engine) : Option Pos := ((e.switches.filterMap (fun x => x.start)).getLast?).or e.here

/-- Where the new path of a request starts: none where the request must be rejected, `some none` for STOP (R289, R290). R289 gives
the segment and offset fields a meaning for JUMP only; any other request with one of them nonzero is rejected (DESIGN CHOICE,
assumption 98). -/
def State.pathOf (s : State) (t p : Nat) (b : ReqBody) : Option (Option Pos) :=
  let e := s.engine t p
  let v := s.route t b.route
  let current := e.currentAt == some b.route
  match v.defn with
  | none => none
  | some d =>
    if d.port ≠ p || !v.armed || v.st == .retiring || b.rsv then none
    else
      match b.op with
      | .unknown => none
      | .branch =>
        if b.segment ≠ 0 || b.offset ≠ 0 then none
        else ((landSegs d.segs)[b.land]?).map (fun g => some { seg := g, off := 0, stack := [] })
      | .jump =>
        match d.segs[b.segment]? with
        | some g => if b.land = 0 && b.offset < g.lines then some (some { seg := b.segment, off := b.offset, stack := [] }) else none
        | none => none
      | .stop => if current && b.land = 0 && b.segment = 0 && b.offset = 0 then some none else none
      | .loopExit =>
        if !current || b.land ≠ 0 || b.segment ≠ 0 || b.offset ≠ 0 then none
        else
          match e.position with
          | none => none
          | some q =>
            match d.enclosing q.seg with
            | none => none
            | some i =>
              (d.segs[i]?).map (fun g => some
                { seg := g.next, off := 0, stack := q.stack.filter (fun f => !(decide (g.loopTo ≤ f.seg) && decide (f.seg ≤ i))) })

/-- A request is rejected: no effect, its credit returned, counted, req_rej set, recorded (R290). -/
def State.rejectReq (t p : Nat) (b : ReqBody) (s : State) : State :=
  let s1 := ((s.returnReq t p 1).bump .rteReqRej t p).annal t
    { code := 0x3002, addr := b.route, value := b.rtag.toNat, aux := p }
  s1.routeEvent t (b.route % 1024) 4

/-- A request is decided (R290 to R296, R299): rejected, or scheduled as a switch at r + L. One that finds the part in P1 is not on time
(R295, R480). -/
def State.decideReq (t p : Nat) (b : ReqBody) (s : State) : State :=
  let awake := s.pwr.pwr == .p0
  let s := (s.wake.pmcEdge t 0x42 p).putReg .rteLastReq t p b.rtag.toNat
  match s.pathOf t p b, (s.route t b.route).defn with
  | some start, some d =>
    let entry := match start with
      | some q => if q.off = 0 then s.landingOf t b.route q.seg else none
      | none => none
    let ready := match entry with
      | some x => x.ready
      | none => false
    let s1 := if entry.isSome && !ready then s.bump .rteUnready t p else s
    let e := s1.engine t p
    s1.setEngine t p { e with switches := e.switches ++
      [{ route := b.route, start, cycle := b.cycle + d.lat, cut := b.cut, horizon := b.cycle + treq (s.width t p) + 32,
         onTime := start.isNone || (awake && (decide (1680 ≤ d.lat) || ready)), fetch := start, lines := [] }] }
  | _, _ => s.rejectReq t p b

/-! ## Switches (R293 to R302) -/

/-- The oldest pending switch takes effect at its target: the old path ends, the REQ's credit goes back, and the new path
starts or the route is ENDED. A path that has sent nothing by then is superseded (R292, R295, R301, R302). -/
def State.takeSwitch (t p : Nat) (s : State) : State :=
  let e := s.engine t p
  match e.switches with
  | [] => s
  | x :: xs =>
    let s1 : State := (s.setEngine t p { e with switches := xs }).returnReq t p 1
    let s2 : State := if e.pathStart && e.target.isSome then s1.bump .rteSuperseded t p else s1
    match x.start with
    | none =>
      let s3 := s2.endRoute t p 0
      s3.drainCtrl t p (s3.sport t p).ctrlQ.length
    | some q =>
      let s3 : State := match e.current with
        | some c =>
          if c == x.route then s2
          else if (State.route s2 t c).st == RState.retiring then s2.freeRoute t c
          else s2.setRoute t c { s2.route t c with st := .armed }
        | none => s2
      let s4 := s3.startPath t p x.route q (some x.cycle) x.onTime
      let k := e.keepRead (x.lines ++ (s4.engine t p).switchLines)
      s4.setEngine t p { s4.engine t p with
        fetchPos := x.fetch, ahead := x.lines.length, buffer := k.buffer, flight := k.flight, parked := k.parked, again := k.again }

def execSwitchTakeEffect (tile sp : Nat) (s : State) : Host.Outcome State Fault Refusal :=
  withUnit (s.hasSport tile sp) (fun s =>
    if s.coreUp && s.tileRuns tile && (s.sport tile sp).st == .active then s.takeSwitch tile sp else s) s

/-! ## Reading ahead (R287, R288) -/

/-- The delivery buffer holds 512 lines (R287). -/
def bufferLimit : Nat := 512

/-- A place for a line among the reads in flight (R287). -/
def State.mayRead (s : State) (t p : Nat) : Bool := decide ((s.engine t p).flight.length < 128 * s.width t p)

/-- The read of one line, which is then in flight with the content it found (R287, R288): a line that the port engines' master may not
read, or that cannot be recovered, as poison (R393). A read that misses waits for a rollback to end (R305), and holds a stream miss
entry until its line arrives (R195). -/
def State.readAhead (t p line : Nat) (env : MediaEnv) (s : State) : State :=
  let put (v : Stored) (epoch : Nat) (missed : Bool) (s : State) : State :=
    s.setEngine t p { s.engine t p with flight := (s.engine t p).flight ++
      [{ line := line, content := { data := v.data, kid := s.kidOf (folioOf line), epoch := epoch, poison := v.poison }, missed := missed }] }
  let bad : Stored := { poison := true }
  let s1 := s.pmcEdge t 0x13 p
  match s.denied 4 (s.kidOf (folioOf line)) false with
  | some _ => put bad 0 false (s1.deny 4 line)
  | none =>
    let hit := (s1.nc t line).readable
    let (r, s2) := s1.readBy true t line env
    if r.unrec then put bad 0 (!hit) s2 else put r.v r.epoch (!hit) s2

/-- The next line to read: one that was evicted before it could leave, else along the path of the oldest pending switch that has lines left to read, else along the current
path, up to RTE_PORT_CFG.depth lines ahead (R287). -/
def State.prefetch (t p : Nat) (env : MediaEnv) (s : State) : State :=
  let e := s.engine t p
  let depth := s.field .rtePortCfg t p 12 0
  let held (l : Nat) : Bool := s.epo.rollback && !(s.nc t l).readable
  if !s.mayRead t p then s
  else if let l :: rest := e.again then
    if held l then s else (s.setEngine t p { e with again := rest }).readAhead t p l env
  else
    match e.switches.findIdx? (fun x => x.fetch.isSome && decide (x.lines.length < depth)) with
    | some i =>
      match e.switches[i]? with
      | some x =>
        match x.fetch, (s.route t x.route).defn with
        | some q, some d =>
          match d.line q with
          | some l =>
            if held l then s
            else (s.setEngine t p { e with switches := e.switches.set i { x with fetch := d.next q, lines := x.lines ++ [l] }
              }).readAhead t p l env
          | none => s
        | _, _ => s
      | none => s
    | none =>
      match e.current, e.fetchPos with
      | some r, some q =>
        match (s.route t r).defn with
        | some d =>
          match d.line q with
          | some l =>
            if held l || decide (depth ≤ e.ahead) then s
            else (s.setEngine t p { e with fetchPos := d.next q, ahead := e.ahead + 1 }).readAhead t p l env
          | none => s
        | none => s
      | _, _ => s

def execPrefetchRead (tile sp : Nat) (env : MediaEnv) (s : State) : Host.Outcome State Fault Refusal :=
  withUnit (s.hasSport tile sp) (State.whole fun s =>
    if s.coreUp && s.tileRuns tile then s.prefetch tile sp env else s) s

/-- The content with which a line that was read goes on: what the tile's near cache holds, or what the read found (R288). -/
def State.readContent (s : State) (t line : Nat) (c : Content) : Content :=
  if !c.poison && (s.nc t line).readable then (s.nc t line).content else c

/-- A line in flight has come: into the delivery buffer, or, while that is full, to wait in the near cache (R287). -/
def State.arrived (t p : Nat) (f : Ahead) (s : State) : State :=
  let e := s.engine t p
  let e1 := { e with flight := e.flight.erase f }
  s.setEngine t p (if e.parked.isEmpty && decide (e.buffer.length < bufferLimit) then
      { e1 with buffer := e.buffer ++ [(f.line, s.readContent t f.line f.content)] }
    else { e1 with parked := e.parked ++ [(f.line, f.content)] })

/-- A line that fails parity on its way to the port is delivered as poison (R361). -/
def State.failArrive (t p : Nat) (f : Ahead) (s : State) : State :=
  let e := s.engine t p
  (s.setEngine t p { e with flight := e.flight.map (fun g => if g == f then { f with content := { f.content with data := 0, poison := true } } else g) }).arrived t p
    { f with content := { f.content with data := 0, poison := true } }

/-- A place in the delivery buffer is free: the oldest line that waits in the near cache takes it, or is read again where other traffic has
evicted it (R287). -/
def State.unpark (t p : Nat) (s : State) : State :=
  let e := s.engine t p
  match e.parked with
  | [] => s
  | (l, c) :: rest =>
    s.setEngine t p (if c.poison || (s.nc t l).readable then
        { e with parked := rest, buffer := e.buffer ++ [(l, s.readContent t l c)] }
      else { e with parked := rest, again := e.again ++ [l] })

/-- A line in flight arrives. Its content is the line's own between the read and now (R288), so that what the message gives adds
nothing. -/
def execLineArrive (tile sp line : Nat) (_c : Content) (s : State) : Host.Outcome State Fault Refusal :=
  withUnit (s.hasSport tile sp) (fun s =>
    match (s.engine tile sp).flight.find? (fun f => f.line == line) with
    | some f =>
      if s.coreUp && s.tileRuns tile then
        let (bad, s1) := s.passItem tile (10 + sp)
        if bad then s1.failArrive tile sp f else s1.arrived tile sp f
      else s
    | none => s) s

/-! ## Sending (R286, R293, R294, R300, R302) -/

/-- Whether the words of a flit that departs in a cycle end before the departure word of the target of a pending switch (R293). -/
def Engine.fits (e : Engine) (w cycle : Nat) : Bool :=
  match e.switches.head? with
  | none => true
  | some x => decide (departWord w cycle + 17 ≤ departWord w x.cycle)

/-- Whether a DATA flit of the old path may depart: nothing of a cut path beyond its horizon (R293). -/
def Engine.maySend (e : Engine) (w cycle : Nat) : Bool :=
  match e.switches.head? with
  | none => true
  | some x => !x.cut || decide (departWord w cycle ≤ departWord w x.horizon)

/-- The cycle of a departure: the first flit of an on-time path departs at its target, whenever its turn comes, unless what R295 excepts
has held it back. -/
def Engine.departs (e : Engine) (cycle : Nat) : Nat :=
  match e.target with
  | some x => if e.pathStart && e.onTime then x else cycle
  | none => cycle

/-- What R295 excepts: a rollback, or the line's home under a reset, or a writer that contends for the line. -/
def State.excepted (s : State) (l : Nat) : Bool :=
  s.epo.rollback || s.homeAway l || s.lineBusy l || (s.dir l).ticketed

/-- The line that is due is not in the buffer: IDLE flits until it comes; an episode of a path under way counts once
(R300). -/
def State.underrun (t p r : Nat) (s : State) : State :=
  let e := s.engine t p
  let s0 := if s.ctrlHeld t p && e.switches.isEmpty then s.nextCtrl t p else s
  let s1 := (s0.setEngine t p { s0.engine t p with onTime := false }).idleFlit t p 3
  if e.underrun || e.pathStart then s1
  else ((s1.setEngine t p { e with underrun := true, onTime := false }).bump .rteUnderrun t p).routeEvent t r 3

/-- The flit that is due finds no DATA credit (R266, R295). -/
def State.creditStall (t p : Nat) (s : State) : State :=
  let e := s.engine t p
  let s1 := s.idleFlit t p 3
  if e.creditWait then s1
  else ((s1.setEngine t p { e with creditWait := true, onTime := false }).bump .slkCreditStall t p).pmcEdge t 0x47 p

/-- A first flit that departs later than its target (R300). -/
def State.lateFlit (t p r : Nat) (by' : Nat) (s : State) : State :=
  (((s.bump .rteLate t p).putField .rteLastLate t p 25 16 r).putField .rteLastLate t p 15 0 (min by' 65535)).routeEvent t r 2

/-- The line at the walk's position departs as a DATA flit; the walk goes on, or has sent its END segment (R286, R288,
R302), and RTE_ROUTE_POS shows it (R307). A RETIRING route stops at the end of its segment pass (R303). -/
def State.sendLine (t p r cycle : Nat) (d : RouteDef) (q : Pos) (l : Nat) (c : Content) (s : State) : State :=
  let e := s.engine t p
  let v := s.route t r
  let s0 := if e.pathStart then s.padTo t p cycle else s
  let s1 := (s0.sendDataFlit t p r cycle e.pathStart c.poison c.data).pmcEdge t 0x40 p
  let s2 := (if c.poison then s1.bump .rtePoison t p else s1).topDown t p (if c.poison then 1 else 0) 17
  let s3 := match e.target with
    | some x =>
      if e.pathStart && decide (departWord (s.width t p) x < departWord (s.width t p) cycle) then s2.lateFlit t p r (cycle - x) else s2
    | none => s2
  let nxt := d.next q
  let fin : Bool := match nxt with
    | some y => v.st == .retiring && (y.seg != q.seg || y.off != q.off + 1)
    | none => true
  let s4 := (s3.setRoute t r { s3.route t r with dirty := max v.dirty c.epoch }).setEngine t p { e with
    pos := if fin then none else nxt, sentPos := some q, pathStart := false, target := none, underrun := false,
    creditWait := false, onTime := false, ahead := e.ahead - 1, buffer := e.buffer.erase (l, c) }
  let s5 := (s4.putReg .rteRoutePos t r (q.stack.length * 2 ^ 16 + q.seg)).unpark t p
  let s6 := s5.drainCtrl t p (s5.sport t p).ctrlQ.length
  if nxt.isNone && v.st == .active then s6.endRoute t p 0 else s6

/-- A GCM group that holds its 16 flits is closed by its TAG before another flit joins the next (R273). -/
def SPort.groupDue (v : SPort) : Bool := v.gcm && decide (16 ≤ v.tx.flits.length)

/-- The key of the next group is not known yet: the peer's answer to a REKEY is due (R276). -/
def SPort.keyDue (v : SPort) : Bool := v.gcm && v.rekeySent.isSome && v.rekeyAt == some v.tx.ctr

/-- The flit that the walk's position has due, at a credit (R266, R286, R294, R300). -/
def State.dueFlit (t p r cycle : Nat) (d : RouteDef) (q : Pos) (l : Nat) (s : State) : State :=
  let e := s.engine t p
  let cr := (s.sport t p).dataCr
  if cr = 0 then s.creditStall t p
  else if cr < 2 && !e.switches.isEmpty then s.idleFlit t p 2
  else
    match e.buffer.find? (fun b => b.1 == l) with
    | some b => s.sendLine t p r (e.departs cycle) d q l b.2
    | none => if e.onTime && !s.excepted l then s else s.underrun t p r

/-- The port engine's turn at a port cycle (R286). While a switch is pending, a flit that would reach the departure word of its target
is not sent, since pad words fill what is left, and CTRL flits go first (R293). An on-time path waits for its first line (R295). -/
def State.sendData (t p cycle : Nat) (s : State) : State :=
  let e := s.engine t p
  let w := s.width t p
  let v := s.sport t p
  if !e.fits w cycle then s
  else if !e.switches.isEmpty && !v.ctrlQ.isEmpty && decide (0 < v.ctrlCr) then s.nextCtrl t p
  else
    match e.current, e.pos with
    | some r, some q =>
      match (s.route t r).defn with
      | none => s
      | some d =>
        let early := match e.target with
          | some x => decide (departWord w cycle < departWord w x)
          | none => false
        if early || v.groupDue || v.keyDue || !e.maySend w cycle then s.idleFlit t p 2
        else
          match d.line q with
          | none => s
          | some l => s.dueFlit t p r cycle d q l
    | _, _ => s.idleFlit t p 2

def execDataFlitSend (tile sp cycle : Nat) (s : State) : Host.Outcome State Fault Refusal :=
  withUnit (s.hasSport tile sp) (fun s =>
    if s.coreUp && s.tileRuns tile && (s.sport tile sp).st == .active then s.sendData tile sp cycle else s) s

/-! ## Landing entries (R299) -/

/-- An entry is evaluated anew; an armed route's entry that stops being ready sets land_lost. -/
def State.reevaluate (t i : Nat) (x : Landing) (s : State) : State :=
  match (s.route t x.route).defn with
  | none => s
  | some d =>
    let now := s.runReady t (d.landingRun x.seg)
    let s1 := s.setLanding t i (some { x with ready := now })
    if x.ready && !now && (s.route t x.route).armed then s1.routeEvent t x.route 1 else s1

def execLandingReeval (tile entry : Nat) (s : State) : Host.Outcome State Fault Refusal :=
  withUnit (s.hasTile tile && decide (entry < 4096)) (fun s =>
    match tget (fun _ => (none : Option Landing)) s.rte.landing (landKey tile entry) with
    | some x => if s.coreUp && s.tileRuns tile then s.reevaluate tile entry x else s
    | none => s) s

/-! ## Rollback (R305) -/

/-- A definition of a discarded epoch is retired as by mode 1: the slot keeps its earlier definition, or is EMPTY. -/
def State.undefine (t r d : Nat) (v : Route) (s : State) : State :=
  let s1 := match v.defn with
    | some x => if v.armed then (s.cancelSwitches t x.port r).freeRoute t r else s
    | none => s
  let s2 := s1.dropLandings t r
  match (v.older.filter (fun x => x.2.epoch ≤ d)).head? with
  | some x => ((s2.setRoute t r { s2.route t r with
      st := .defined, defn := some x.2, older := v.older.filter (fun y => y.2.epoch < x.2.epoch) }).takeLandings t r x.2).routeEvent
      t r 7
  | none => (s2.setRoute t r { s2.route t r with st := .empty, defn := none, older := [] }).routeEvent t r 7

/-- The lines read ahead whose content lies above D are dropped, to be read again (R305). -/
def Engine.atD (d : Nat) (e : Engine) : Engine :=
  let gone := (e.buffer ++ e.parked ++ e.flight.map (fun f => (f.line, f.content))).filter (fun b => decide (d < b.2.epoch))
  { e with
    buffer := e.buffer.filter (fun b => decide (b.2.epoch ≤ d)), parked := e.parked.filter (fun b => decide (b.2.epoch ≤ d))
    flight := e.flight.filter (fun f => decide (f.content.epoch ≤ d)), again := gone.map (fun b => b.1) ++ e.again }

/-- The end of a rollback to D on the routes of a tile: buffered lines above D are read again, routes that sent such lines
set rollback, and definitions above D go (R305). -/
def State.routesRollback (t d : Nat) (s : State) : State :=
  let s1 := (List.range 8).foldl (fun (s : State) p => s.setEngine t p ((s.engine t p).atD d)) s
  (s1.rte.routes.filter (fun e => e.1 / 1024 == t)).foldl (fun s e =>
    let r := e.1 % 1024
    let s2 := if d < e.2.dirty then (s.setRoute t r { s.route t r with dirty := 0 }).routeEvent t r 7 else s
    match e.2.defn with
    | some x => if d < x.epoch then s2.undefine t r d (s2.route t r) else s2
    | none => s2) s1

end Sys2Proof.Machine
end

