-- ==== Sys2Proof/Machine/Capture.lean ====
section
/-! DEFINITION. Fail capture: regions, the encoder, the ingest FIFO and its credits, the engine's lines, commits, rewinds and
drops, stall conditions, marks and rollback (R308 to R331). -/

namespace Sys2Proof.Machine

/-! ## Tables -/

def State.region (s : State) (t p r : Nat) : Region := tget (fun _ => {}) s.cap.regions (regionKey t p r)

def State.setRegion (t p r : Nat) (v : Region) (s : State) : State :=
  { s with cap := { s.cap with regions := tset (fun _ => {}) s.cap.regions (regionKey t p r) v } }

def State.ingest (s : State) (t p : Nat) : Ingest := tget (fun _ => {}) s.cap.ingests (portKey t p)

def State.setIngest (t p : Nat) (v : Ingest) (s : State) : State :=
  { s with cap := { s.cap with ingests := tset (fun _ => {}) s.cap.ingests (portKey t p) v } }

/-- The regions of a port that are not at reset. -/
def State.regionsOn (s : State) (t p : Nat) : List Nat :=
  (s.cap.regions.filter (fun e => e.1 / 64 == portKey t p)).map (fun e => e.1 % 64)

/-! ## Words (R314 to R316) -/

/-- The 16 payload words of a flit, little-endian (R314). -/
def lineWords (l : Line) : List DWord := (List.range 16).map (fun j => l.extractLsb' (64 * j) 64)

/-- The nonzero bytes of a flit, in ascending position. -/
def nonzero (l : Line) : List (Nat × Nat) :=
  ((List.range 128).map (fun i => (i, (l.extractLsb' (8 * i) 8).toNat))).filter (fun e => e.2 != 0)

/-- Pairs packed from bit 0, 16 bits each (R315). -/
def pairWord (ps : List (Nat × Nat)) : Nat := ps.foldr (fun e a => e.1 * 256 + e.2 + 65536 * a) 0

/-- The pair words after a SPARSE word: 4 pairs each (R315). -/
def pairWords : Nat → List (Nat × Nat) → List DWord
  | 0, _ => []
  | _, [] => []
  | n + 1, ps => BitVec.ofNat 64 (pairWord (ps.take 4)) :: pairWords n (ps.drop 4)

/-- A flit with 1 to 16 nonzero bytes as a SPARSE word and its pair words (R315, R316). -/
def sparse (nz : List (Nat × Nat)) : List DWord :=
  BitVec.ofNat 64 (2 * 2 ^ 60 + (nz.length - 1) * 2 ^ 56 + pairWord (nz.take 3)) :: pairWords 16 (nz.drop 3)

/-- What is pending is written out: a pass run as RUN, a bad run as BAD, an open group as LIT with its payloads (R316). -/
def Rec.flush (r : Rec) : List DWord × Rec :=
  let out := (if r.pass = 0 then [] else [BitVec.ofNat 64 (2 ^ 60 + r.pass)]) ++
    (if r.badRun = 0 then [] else [BitVec.ofNat 64 (4 * 2 ^ 60 + r.badRun)]) ++
    (if r.lit.isEmpty then [] else BitVec.ofNat 64 (3 * 2 ^ 60 + r.lit.length) :: r.lit.flatMap lineWords)
  (out, { r with pass := 0, badRun := 0, lit := [] })

/-- The longest run of a RUN or BAD word (R315). -/
def runLimit : Nat := 2 ^ 48 - 1

/-- One flit through the encoder (R316); with encoding off its payload, or 128 bytes of FFh where it is poisoned (R315). -/
def Rec.flit (raw poison : Bool) (payload : Line) (r : Rec) : List DWord × Rec :=
  let r := { r with flits := r.flits + 1, bad := if poison then r.bad + 1 else r.bad }
  if raw then (lineWords (if poison then BitVec.allOnes 1024 else payload), r)
  else if poison then
    let (w, r) := if r.badRun = 0 || r.badRun = runLimit then r.flush else ([], r)
    (w, { r with badRun := r.badRun + 1 })
  else
    let nz := nonzero payload
    if nz.isEmpty then
      let (w, r) := if r.pass = 0 || r.pass = runLimit then r.flush else ([], r)
      (w, { r with pass := r.pass + 1 })
    else if nz.length ≤ 16 then
      let (w, r) := r.flush
      (w ++ sparse nz, r)
    else
      let (w, r) := if r.lit.isEmpty then r.flush else ([], r)
      let r := { r with lit := r.lit ++ [payload] }
      if r.lit.length = 64 then
        let (v, r) := r.flush
        (w ++ v, r)
      else (w, r)

/-- Words an open run or group still holds. -/
def Rec.held (r : Rec) : Nat :=
  (if r.pass = 0 then 0 else 1) + (if r.badRun = 0 then 0 else 1) + (if r.lit.isEmpty then 0 else 1 + 16 * r.lit.length)

/-! ## The FIFO and its credits (R317 to R319) -/

/-- Words of a bank. -/
def bankWords : Nat := 1088

/-- The encoder's output enters the bank being filled, or the other once that has been read to its end (R318). -/
def Ingest.push (ws : List FWord) (i : Ingest) : Ingest :=
  let wr := if i.bank then i.wr1 else i.wr0
  let other := if i.bank then i.words0 else i.words1
  let swap := decide (bankWords < wr + ws.length) && other.isEmpty
  if swap then
    if i.bank then { i with bank := false, words0 := ws, wr0 := ws.length }
    else { i with bank := true, words1 := ws, wr1 := ws.length }
  else if i.bank then { i with words1 := i.words1 ++ ws, wr1 := i.wr1 + ws.length }
  else { i with words0 := i.words0 ++ ws, wr0 := i.wr0 + ws.length }

/-- The next word the engine reads: the other bank is older than the one being filled (R318). -/
def Ingest.pop (i : Ingest) : Option (FWord × Ingest) :=
  let zero : Option (FWord × Ingest) := match i.words0 with
    | [] => none
    | w :: ws => some (w, { i with words0 := ws })
  let one : Option (FWord × Ingest) := match i.words1 with
    | [] => none
    | w :: ws => some (w, { i with words1 := ws })
  if i.bank then zero.or one else one.or zero

/-- Every word in the FIFO, oldest first. -/
def Ingest.all (i : Ingest) : List FWord := if i.bank then i.words0 ++ i.words1 else i.words1 ++ i.words0

/-- The words the encoder can still write without waiting (R319). -/
def State.writable (s : State) (t p : Nat) : Nat :=
  let i := s.ingest t p
  let free := bankWords - (if i.bank then i.wr1 else i.wr0)
  let other := if (if i.bank then i.words0 else i.words1).isEmpty then bankWords else 0
  free + other - (s.regionsOn t p).foldl (fun a r => a + (match (s.region t p r).enc with
    | some e => e.held
    | none => 0)) 0

/-- CAP credits are free as far as the FIFO allows, 17 words each, and none under backpressure or outside P0 (R265, R319,
R326, R331). -/
def State.grantCap (t p : Nat) (s : State) : State :=
  let v := s.sport t p
  let n := min 128 (s.writable t p / 17)
  let k := n - v.capOut - v.owed 1
  if v.st == .active && !(s.ingest t p).bp && s.pwr.pwr == .p0 && decide (0 < k) then s.setSport t p (v.free 1 k) else s

/-- Backpressure begins, and ends with its time counted in µs (R326, R332). -/
def State.press (t p : Nat) (s : State) : State :=
  let i := s.ingest t p
  if i.bp then s else s.setIngest t p { i with bp := true, bpAt := s.now }

def State.relieve (t p : Nat) (s : State) : State :=
  let i := s.ingest t p
  if i.bp then (s.setIngest t p { i with bp := false, bpAt := 0 }).count .capBpUs t p 31 0 ((s.now - i.bpAt) / 1000) else s

/-! ## Rewind and drop (R322 to R324) -/

/-- Record 0x3003 of a region, with its cause (R535). -/
def State.lossRecord (t p r cause : Nat) (s : State) : State :=
  s.annal t { code := 0x3003, addr := p + 256 * r, value := (s.region t p r).recs, aux := cause }

/-- A rewind is counted, sets its event bit and asks for a record (R324). -/
def State.countRewind (t p r cause : Nat) (s : State) : State :=
  let v := s.region t p r
  (((s.setRegion t p r { v with rewound := min 65535 (v.rewound + 1), rewSince := v.rewSince + 1 }).bump .capRewound t p
    ).regionEvent t p r 1).lossRecord t p r cause

/-- A drop in the same way; a full region or a read-only part sets its bit too (R323, R324). -/
def State.countDrop (t p r cause : Nat) (s : State) : State :=
  let v := s.region t p r
  let s1 := ((s.setRegion t p r { v with
      dropped := min 65535 (v.dropped + 1), dropSince := v.dropSince + 1, full := v.full || cause == 0x12
      eng := v.eng.map (fun e => { e with dropped := true }) }).bump .capDropped t p).regionEvent t p r 2
  let s2 := if cause = 0x12 then s1.regionEvent t p r 3 else if cause = 0x13 then s1.regionEvent t p r 4 else s1
  s2.lossRecord t p r cause

/-- The words of a region after its last end word, which belong to the record in progress. -/
def openTail (r : Nat) (l : List FWord) : List FWord × Bool :=
  l.foldr (fun w a => if w.region == r then (if a.2 then (w :: a.1, true) else if w.last then (w :: a.1, true) else a)
    else (w :: a.1, a.2)) ([], false)

/-- The FIFO without the record in progress of a region, and whether an end word of the region is left. -/
def Ingest.cut (r : Nat) (i : Ingest) : Ingest × Bool :=
  let (new, f1) := openTail r (if i.bank then i.words1 else i.words0)
  let old := if i.bank then i.words0 else i.words1
  let (kept, f2) := if f1 then (old, true) else openTail r old
  (if i.bank then { i with words1 := new, words0 := kept } else { i with words0 := new, words1 := kept }, f1 || f2)

/-- The record in progress of a region is rewound (R322); one the engine has dropped already only ends. -/
def State.rewind (t p r cause : Nat) (s : State) : State :=
  let v := s.region t p r
  match v.enc with
  | none => s
  | some _ =>
    let (i, ended) := (s.ingest t p).cut r
    let dead := !ended && (match v.eng with
      | some e => e.dropped && !e.closed
      | none => false)
    let mine := !ended && (match v.eng with
      | some e => !e.closed
      | none => false)
    let s1 := (s.setIngest t p i).setRegion t p r { v with enc := none, eng := if mine then none else v.eng }
    if dead then s1 else s1.countRewind t p r cause

/-- Every record in progress on a port is rewound. -/
def State.rewindPort (t p cause : Nat) (s : State) : State :=
  (s.regionsOn t p).foldl (fun s r => s.rewind t p r cause) s

/-- The words in a port's FIFO are lost: each record whose end word is there, and that the engine has not dropped, is rewound
(R320, R356). -/
def State.loseFifo (t p cause : Nat) (s : State) : State :=
  let i := s.ingest t p
  let s1 := ((i.words0 ++ i.words1).filter (fun w => w.last)).foldl (fun (s : State) w =>
    let v := s.region t p w.region
    let part := v.eng.filter (fun e => !e.closed && e.num == w.num)
    let s1 := if part.isSome then s.setRegion t p w.region { v with eng := none } else s
    if part.any (fun e => e.dropped) then s1 else s1.countRewind t p w.region cause) s
  s1.setIngest t p { i with words0 := [], words1 := [], wr0 := 0, wr1 := 0 }

/-- A record the engine has begun and not committed is rewound too: its remaining words are discarded (R320, R330). -/
def State.rewindEngine (t p r cause : Nat) (s : State) : State :=
  let v := s.region t p r
  match v.eng with
  | none => s
  | some e =>
    let i := s.ingest t p
    let s1 := (s.setRegion t p r { v with eng := none }).setIngest t p
      { i with skipping := if e.closed || i.skipping.contains r then i.skipping else r :: i.skipping }
    if e.dropped then s1 else s1.countRewind t p r cause

/-! ## Stall conditions (R325, R326) -/

/-- Capture occupancy of a home, in bytes: its staging tracts that hold a line of a capture region. -/
def State.captureOcc (s : State) (h : Nat) : Nat :=
  (s.cat.bufs.filter (fun b => s.entryHome b.leaf b.key == h)).foldl (fun a b => a + 4096 * b.capture.length) 0

/-- Its limit (R110). -/
def State.captureLimit (s : State) (h : Nat) : Nat :=
  let m := s.ddrMap h
  min (32 * 2 ^ 30) (m.top - m.staging - 8 * 2 ^ 30)

/-- A stall condition holds for lines homed on a tile, as the home sees it. -/
def State.stalledAt (s : State) (h : Nat) : Bool :=
  decide (s.captureLimit h ≤ s.captureOcc h) || s.stagingFull h || s.flt.resetting.any (fun e => e.1 == h)

/-- As the capture engines of a tile see it; a rollback holds for every line. -/
def State.stalled (s : State) (t line : Nat) : Bool :=
  s.epo.rollback || (tget (fun _ => (0 : BitVec 8)) s.cap.seen t).getLsbD (s.home line)

/-- A home publishes its state to the capture engine of every tile; its start is event 12h (R325, R499). -/
def State.publish (h : Nat) (s : State) : State :=
  let b := s.stalledAt h
  let put (v : BitVec 8) : BitVec 8 := if b then v ||| tileBit h else v &&& ~~~tileBit h
  let s1 : State := { s with cap := { s.cap with
    stalled := put s.cap.stalled
    seen := s.tileList.foldl (fun m t => tset (fun _ => (0 : BitVec 8)) m t (put (tget (fun _ => 0) m t))) s.cap.seen } }
  if b && !s.cap.stalled.getLsbD h then s1.pmcEdge h 0x12 0 else s1

def execHomeStatePublish (home : Nat) (s : State) : Host.Outcome State Fault Refusal :=
  withUnit (s.hasTile home) (fun s => if s.coreUp then s.publish home else s) s

/-! ## The encoder side (R312) -/

/-- The record in progress of a region takes words: `last` marks the end of the record. -/
def State.feed (t p r : Nat) (e : Rec) (ws : List DWord) (last : Bool) (s : State) : State :=
  let v := s.region t p r
  let n := ws.length
  let fs := ((List.range n).zip ws).map (fun x =>
    ({ region := r, first := e.words == 0 && x.1 == 0, last := last && x.1 + 1 == n, rawWord := v.raw, data := x.2,
       num := e.num, flits := e.flits, bad := e.bad, tFirst := e.tFirst } : FWord))
  (s.setIngest t p ((s.ingest t p).push fs)).setRegion t p r
    { v with enc := if last then none else some { e with words := e.words + n } }

/-- A CAP flit of a region at the encoder: an orphan, or a flit of a record (R312, R316, R322). The flit's seq is kept with
its record while a GCM group covers it. -/
def State.capFlit (t p r : Nat) (start stop poison : Bool) (payload : Line) (s : State) : State :=
  let s := (s.count64 .capFlitsLo .capFlitsHi t p 1).pmcEdge t 0x41 p
  let v := s.region t p r
  if v.st != .opened || (v.enc.isNone && !start) then (s.bump .capOrphan t p).grantCap t p
  else
    let s1 := if start then s.rewind t p r 3 else s
    let v1 := s1.region t p r
    let e0 : Rec := if start then { num := v1.started, tFirst := s.now } else v1.enc.getD {}
    let s2 := if start then s1.setRegion t p r { v1 with started := v1.started + 1, enc := some e0 } else s1
    let s3 := if !v.raw && !poison && payload == 0 then s2.count64 .capPassLo .capPassHi t p 1 else s2
    let (w, e1) := e0.flit v.raw poison payload
    let (w', e2) := if stop then e1.flush else ([], e1)
    if 65535 * 16 < e0.words + w.length + w'.length + e2.held then
      ((s3.setRegion t p r { s3.region t p r with enc := some e0 }).rewind t p r 7).grantCap t p
    else (s3.feed t p r e2 (w ++ w') stop).grantCap t p

/-! ## The engine side (R318 to R323) -/

/-- What stands in the way of a line that a record needs (R323, R325): a drop with its cause, a wait under backpressure, or
nothing. -/
inductive Hindrance where
  | drop (cause : Nat)
  | wait
  | clear
  deriving DecidableEq, Repr

/-- The line `j` of a region from its fill. -/
def Region.lineAt (v : Region) (j : Nat) : Nat := 512 * v.base + v.fill + j

def State.hindrance (s : State) (t p r j : Nat) : Hindrance :=
  let v := s.region t p r
  let line := v.lineAt j
  if s.med.readOnly then .drop 0x13
  else if v.full || 512 * v.units ≤ v.fill + j then .drop 0x12
  else if (s.denied 5 (s.kidOf (folioOf line)) true).isSome then .drop 0x14
  else if s.stalled t line then (if v.drop then .drop 0x11 else .wait)
  else .clear

/-- The record is dropped; a refusal for want of a right is recorded as well (R323, R393). -/
def State.dropRecord (t p r j cause : Nat) (s : State) : State :=
  let s1 := if cause = 0x14 then s.deny 5 ((s.region t p r).lineAt j) else s
  s1.countDrop t p r cause

/-- A line of up to 16 words, PAD after them (R315). -/
def wordLine (ws : List DWord) : Line :=
  BitVec.ofNat 1024 (ws.foldr (fun w a => w.toNat + 2 ^ 64 * a) 0)

/-- A word joins its record: the first 8 stay on die, each 16 after them make a line (R314, R321). -/
def ERec.take (w : FWord) (e : ERec) : ERec :=
  let e := { e with taken := e.taken + 1, closed := w.last, flits := w.flits, bad := w.bad, tFirst := w.tFirst }
  if e.first.length < 8 then { e with first := e.first ++ [w.data] } else { e with words := e.words ++ [w.data] }

/-- The words of a line that is complete, or the last of its record. -/
def ERec.full (e : ERec) : Bool := e.words.length == 16 || (e.closed && !e.words.isEmpty)

/-- A capture engine writes a line, which counts for the occupancy of its home from then on (R325). -/
def State.captureLine (t line : Nat) (data : Line) (s : State) : State :=
  let s1 := s.writeLine t line data
  { s1 with cap := { s1.cap with written := line :: s1.cap.written } }

/-- A word of a record goes to the engine; `i` is the FIFO without it. A word that belongs to no record, to one that is dropped
or to a region that has closed is discarded. The word stays where the record must wait for its line (R321, R323, R326). -/
def State.takeWord (t p : Nat) (w : FWord) (i : Ingest) (s : State) : State :=
  let r := w.region
  let v := s.region t p r
  let go (s : State) : State := s.setIngest t p { i with
    skipping := if w.first then i.skipping.filter (· != r) else i.skipping }
  let open' : Option ERec := if v.st == .closed then none else if w.first then some { num := w.num } else v.eng
  match open' with
  | none => go s
  | some e =>
    if !w.first && i.skipping.contains r then go s
    else if w.first && v.eng.isSome then s
    else if e.dropped then (go s).setRegion t p r { v with eng := if w.last then none else some e }
    else
      let e1 := e.take w
      let j := 1 + e.written
      if w.first && v.full then
        let s1 := ((go s).setRegion t p r { v with eng := some e1 }).dropRecord t p r 0 0x12
        if w.last then s1.setRegion t p r { s1.region t p r with eng := none } else s1
      else if !e1.full then ((go s).setRegion t p r { v with eng := some e1 }).relieve t p
      else
        match s.hindrance t p r j with
        | .wait => (s.press t p).regionEvent t p r 0
        | .drop cause =>
          let s1 := ((go s).setRegion t p r { v with eng := some e1 }).dropRecord t p r j cause
          if w.last then s1.setRegion t p r { s1.region t p r with eng := none } else s1
        | .clear =>
          (((go s).captureLine t (v.lineAt j) (wordLine e1.words)).setRegion t p r
            { v with eng := some { e1 with words := [], written := j } }).relieve t p

/-- A word that fails its parity check (R320). -/
def State.parityError (t p : Nat) (i : Ingest) (inj : Bool) (s : State) : State :=
  let s1 := (((s.setIngest t p i).bump .capParity t p).fault t (srcId 0x0A p) { inject := inj, aux := 18 + p }).rewindPort t p 4
  let s2 := (s1.regionsOn t p).foldl (fun s r =>
    match (s.region t p r).eng with
    | some e => if e.closed then s else s.rewindEngine t p r 4
    | none => s) s1
  s2.setIngest t p { s2.ingest t p with skipping := List.range 64 }

/-- The 9-bit tag of a FIFO word (R317). -/
def FWord.tag (w : FWord) : Nat := w.region % 64 + 64 * w.first.toNat + 128 * w.last.toNat + 256 * w.rawWord.toNat

/-- The bits a parity bit covers in a word of 64 data bits, 9 of tag and 9 of parity: a data byte, or the tag, and the parity bit
itself (R317). -/
def parityGroup (i : Nat) : List Nat := (if i < 8 then (List.range 8).map (· + 8 * i) else (List.range 9).map (· + 64)) ++ [73 + i]

/-- Bits that changed while a word was in the FIFO break its even parity where an odd number of them lies in a group. -/
def parityOk (upset : BitVec 82) : Bool :=
  (List.range 9).all (fun i => ((parityGroup i).filter (fun b => upset.getLsbD b)).length % 2 == 0)

/-- A word after changes that its parity does not show. -/
def FWord.changed (upset : BitVec 82) (w : FWord) : FWord :=
  let tag := w.tag ^^^ bits upset.toNat 72 64
  { w with data := w.data ^^^ upset.extractLsb' 0 64, region := tag % 64, first := tag.testBit 6, last := tag.testBit 7
           rawWord := tag.testBit 8 }

/-- The engine reads one word of a port's FIFO, and checks its parity (R318, R320). In P1 it stops reading (R331). -/
def State.ingestWord (t p : Nat) (upset : BitVec 82) (s : State) : State :=
  if s.pwr.pwr != .p0 then s
  else
    match (s.ingest t p).pop with
    | none => s.relieve t p
    | some (w, i) =>
      let (inj, s1) := s.check t (srcId 0x0A p)
      if !parityOk upset || inj then s1.parityError t p i inj else s1.takeWord t p (w.changed upset) i

def execIngestRead (tile sp : Nat) (upset : BitVec 82) (s : State) : Host.Outcome State Fault Refusal :=
  withUnit (s.hasSport tile sp) (State.whole fun s =>
    if s.coreUp && s.tileRuns tile then (s.ingestWord tile sp upset).grantCap tile sp else s) s

/-! ## Commit (R314, R321) -/

/-- The 64-byte header of a record (R314). -/
def recHeader (t p r lines : Nat) (v : Region) (e : ERec) : List Byte :=
  let flags := (if v.raw then 1 else 0) + (if e.bad != 0 then 2 else 0) + (if v.dropSince + v.rewSince != 0 then 4 else 0)
  let h := leBytes 2 0xCA9E ++ [1, BitVec.ofNat 8 flags, BitVec.ofNat 8 r, BitVec.ofNat 8 (32 * t + p), 0, 0]
    ++ leBytes 4 lines ++ leBytes 4 (8 * e.taken) ++ leBytes 8 v.recs ++ leBytes 8 e.flits ++ leBytes 8 v.session
    ++ leBytes 8 e.tFirst ++ leBytes 4 v.dropSince ++ leBytes 4 v.rewSince ++ leBytes 4 e.bad
  h ++ leBytes 4 (crc32c h)

/-- The first line of a record: its header and the first 8 body words. -/
def headLine (t p r : Nat) (v : Region) (e : ERec) : Line :=
  lineOfBytes (recHeader t p r (1 + e.written) v e ++ e.first.flatMap (fun w => leBytes 8 w.toNat))

/-- The tags that cover a record have verified: no flit of it waits for a TAG (R274). -/
def State.tagsDone (s : State) (t p r num : Nat) : Bool :=
  !(s.sport t p).rx.flits.any (fun f => f.record == some (r, num))

/-- A record whose last word has come is committed: the header line is written, the fill moves over the record and its
number rises (R321). A stall condition of that line holds it back or drops it (R323, R326). -/
def State.commit (t p r : Nat) (s : State) : State :=
  let v := s.region t p r
  match v.eng with
  | none => s
  | some e =>
    if !e.closed || e.dropped || !s.tagsDone t p r e.num then s
    else
      match s.hindrance t p r 0 with
      | .wait => (s.press t p).regionEvent t p r 0
      | .drop cause =>
        let s1 := s.dropRecord t p r 0 cause
        s1.setRegion t p r { s1.region t p r with eng := none }
      | .clear =>
        let n := 1 + e.written
        ((((s.captureLine t (v.lineAt 0) (headLine t p r v e)).setRegion t p r { v with
          fill := v.fill + n, recs := v.recs + 1, dropSince := 0, rewSince := 0, eng := none }).count64
            .capLinesLo .capLinesHi t p n).pmcEdge t 0x14 p).relieve t p

def execRecordCommit (tile sp region : Nat) (s : State) : Host.Outcome State Fault Refusal :=
  withUnit (s.hasSport tile sp && decide (region < 64)) (State.whole fun s =>
    if s.coreUp && s.tileRuns tile && s.pwr.pwr == .p0 then s.commit tile sp region else s) s

/-- Every region of a port whose record may be committed commits it. -/
def State.commitAll (t p : Nat) (s : State) : State := (s.regionsOn t p).foldl (fun s r => s.commit t p r) s

/-- The engine works through the words in the FIFO, committing as it goes (R311). -/
def State.drain (t p : Nat) : Nat → State → State
  | 0, s => s.commitAll t p
  | n + 1, s => State.drain t p n ((s.commitAll t p).ingestWord t p 0)

/-! ## CAPTURE_OPEN, CAPTURE_CLOSE, CAPTURE_DRAIN -/

/-- The checks of R309, in its order. -/
def State.openCheck (s : State) (t p r vector pa len : Nat) : Option Status :=
  let overlaps := s.cap.regions.any (fun e => e.2.st != .closed &&
    decide (65536 * e.2.base < pa + len) && decide (pa < 65536 * (e.2.base + e.2.units)))
  if !s.hasSport t p then some .unknown
  else if 64 ≤ r || !vectorOk vector || pa % 65536 ≠ 0 || len % 65536 ≠ 0 then some .param
  else if len = 0 || 256 * 2 ^ 30 < len then some .length
  else if s.capacity < pa + len then some .range
  else if (s.region t p r).st != .closed then some .state
  else if overlaps then some .state
  else if s.med.readOnly then some .readOnly
  else none

def execCaptureOpen (c : Ctx) (tile port region flags : Byte) (vector : BitVec 16) (pa len : DWord) (s : State) :
    Host.Outcome State Fault Refusal :=
  .next (s.command 0x28 srcInterp c (captureOpenParams tile port region flags vector pa len) (fun s =>
    let t := tile.toNat
    match s.openCheck t port.toNat region.toNat vector.toNat pa.toNat len.toNat with
    | some st => s.reply srcInterp c st 0
    | none =>
      (s.setRegion t port.toNat region.toNat
        { st := .opened, drop := flags.getLsbD 0 || s.host.features.policy == 1, raw := flags.getLsbD 1,
          base := pa.toNat / 65536, units := len.toNat / 65536, vector := vector.toNat, vport := portOf c,
          session := s.now, openE := s.stampOf t }).reply (srcStream t) c .done 0))

def execCaptureClose (c : Ctx) (tile port region mode : Byte) (s : State) : Host.Outcome State Fault Refusal :=
  .next (s.command 0x29 srcInterp c (captureCloseParams tile port region mode) (fun s =>
    let t := tile.toNat
    let p := port.toNat
    let r := region.toNat
    if !s.hasSport t p then s.reply srcInterp c .unknown 0
    else if 64 ≤ r then s.reply srcInterp c .param 0
    else if 2 ≤ mode.toNat then (s.misuse c 0x29).reply srcInterp c .param 0
    else
      match (s.region t p r).st with
      | .closed => s.reply (srcStream t) c .unknown 0
      | .closing => s.reply (srcStream t) c .state 0
      | .opened =>
        let s1 := s.rewind t p r 8
        (s1.setRegion t p r { s1.region t p r with st := .closing, closeE := 0 }).trigger
          (.capture c mode.toNat (regionKey t p r))))

def execCaptureDrain (c : Ctx) (tile port region : Byte) (s : State) : Host.Outcome State Fault Refusal :=
  .next (s.command 0x2A srcInterp c (captureDrainParams tile port region) (State.whole fun s =>
    let t := tile.toNat
    let p := port.toNat
    let r := region.toNat
    if !s.hasSport t p then s.reply srcInterp c .unknown 0
    else if 64 ≤ r then s.reply srcInterp c .param 0
    else if (s.region t p r).st == .closed then s.reply (srcStream t) c .unknown 0
    else
      let s1 := s.drain t p (s.ingest t p).all.length
      s1.reply (srcStream t) c .done (128 * (s1.region t p r).fill)))

/-! ## Marks, rollback and ports that leave ACTIVE (R327, R330, R331) -/

/-- The mark a seal of epoch `n` writes for a region (R327). -/
def Region.mark (n : Nat) (v : Region) : Region :=
  let last := match v.marks.getLast? with
    | some m => m.fill
    | none => 0
  if v.st == .closed || v.fill == last then v
  else { v with marks := v.marks ++ [{ epoch := n, fill := v.fill, recs := v.recs }] }

def State.markTile (t n : Nat) (s : State) : State :=
  { s with cap := { s.cap with
    regions := tmap (fun _ => {}) (fun k v => if k / 512 == t then v.mark n else v) s.cap.regions } }

/-- A region after a rollback to D (R330). -/
def Region.rolledBack (d : Nat) (v : Region) : Region :=
  let marks := v.marks.filter (fun m => m.epoch ≤ d)
  let (fill, recs) := match marks.getLast? with
    | some m => (m.fill, m.recs)
    | none => (0, 0)
  { v with marks, fill, recs, st := if v.st == .closing && (v.closeE == 0 || decide (d < v.closeE)) then .opened else v.st,
           closeE := if decide (d < v.closeE) then 0 else v.closeE }

/-- The end of a rollback on the capture of a tile (R330). -/
def State.captureRollback (t d : Nat) (s : State) : State :=
  let s1 := (List.range 8).foldl (fun s p => (s.regionsOn t p).foldl (fun s r => (s.rewind t p r 9).rewindEngine t p r 9) s) s
  (List.range 8).foldl (fun s p => (s.regionsOn t p).foldl (fun s r =>
    let v := s.region t p r
    if v.st == .closed then s
    else
      let w := v.rolledBack d
      let s2 := s.setRegion t p r w
      if w.fill != v.fill then s2.regionEvent t p r 6 else s2) s) s1

end Sys2Proof.Machine
end

