-- ==== Sys2Proof/Machine/Link.lean ====
section
/-! DEFINITION. The stream link: bonding, training, flits and credits, errors and retrains, encryption (R238 to R277). -/

namespace Sys2Proof.Machine

/-! ## States (R252, R257, R258) -/

/-- The tile's stream unit runs in P0 and P1 (R252, R277). -/
def State.linkRuns (s : State) (t : Nat) : Bool := s.coreUp && s.tileRuns t

/-- A DISABLED port keeps its loaded key (R272). -/
def SPort.off (v : SPort) : SPort := { keyWords := v.keyWords }

/-- A port in RESET (R252). -/
def SPort.fresh (v : SPort) (now : Nat) : SPort := { v.off with st := .reset, since := now }

/-- Every lane of the port, as lanes of the tile. -/
def State.portLanes (s : State) (t p : Nat) : List Nat :=
  (List.range (widthOf (bits (s.reg .slkBond t 0) (3 * p + 2) (3 * p)))).map (· + p)

/-- The records of flits whose TAG has not come are rewound: they can no longer be verified (R274, R275). -/
def State.rewindUntagged (t p : Nat) (s : State) : State :=
  (((s.sport t p).rx.flits.filterMap (fun f => f.record)).dedup).foldl (fun (s : State) g =>
    let w := s.region t p g.1
    let i := s.ingest t p
    let keep (x : FWord) : Bool := !(x.region == g.1 && x.num == g.2)
    let live := (match w.enc with
        | some e => e.num == g.2
        | none => false) || (match w.eng with
        | some e => e.num == g.2 && !e.dropped
        | none => false) || i.all.any (fun x => !keep x)
    let s2 := (s.setIngest t p { i with words0 := i.words0.filter keep, words1 := i.words1.filter keep }).setRegion t p g.1
      { w with enc := w.enc.filter (fun e => e.num != g.2), eng := w.eng.filter (fun e => e.num != g.2) }
    if live then s2.countRewind t p g.1 5 else s2) s

/-- What a port that leaves ACTIVE does to its route and its records, those whose TAG has not come among them (R274, R304, R331). -/
def State.leaveActive (t p : Nat) (s : State) : State :=
  if (s.sport t p).st == .active then ((s.routesDown t p).rewindUntagged t p).rewindPort t p 6 else s

/-- A port enters FAILED: degraded fault and record 0x3001 (R258, R270, R535). -/
def State.failPort (t p cause : Nat) (s : State) : State :=
  let s1 := (s.leaveActive t p).idleLanes t (s.portLanes t p)
  ((s1.setSport t p { (s1.sport t p).off with st := .failed, since := s.now }).fault t (srcId 0x09 p)
    { minSev := 2 }).annal t { code := 0x3001, addr := p, value := 8, aux := cause }

/-- The times of a list within a span before now. -/
def recent (now span : Nat) (l : List Nat) : List Nat := l.filter (fun x => decide (now < x + span))

/-- An ACTIVE port retrains: counted, CTRL RETRAIN sent, then LOCK at once, or FAILED after 8 within 1 s (R257, R258). R257 and R264
leave open what a port does that holds no CTRL credit then; the model sends no RETRAIN (DESIGN CHOICE, assumption 98). -/
def State.retrainPort (t p cause : Nat) (s : State) : State :=
  if (s.sport t p).st != .active then s
  else
    let s0 := s.bump .slkRetrains t p
    let s1 := (if (s.sport t p).ctrlCr = 0 then s0 else s0.spendCtrl t p 6 0).leaveActive t p
    let v := s1.sport t p
    let l := s.now :: recent s.now 1000000000 v.retrains
    let s2 := ((s1.setSport t p { v.off with st := .lock, since := s.now, precode := v.precode, taps := v.taps, tapStatus := v.tapStatus, retrains := l,
                                             tagFails := v.tagFails, faultAt := v.faultAt }).fault t (srcId 0x09 p) {}).annal t
      { code := 0x3001, addr := p, value := 7, aux := cause }
    if 8 ≤ l.length then s2.failPort t p 0x12 else s2.emit (.locking t p)

/-- A tag failure (R275): its group's CAP records are rewound, it is counted and recorded, and the port retrains, or fails
after 3 within 1 s (R258). -/
def State.tagFailure (t p ctr : Nat) (s : State) : State :=
  let v := s.sport t p
  let s1 := s.rewindUntagged t p
  let l := s.now :: recent s.now 1000000000 v.tagFails
  let s3 := ((s1.setSport t p { s1.sport t p with tagFails := l }).bump .slkTagFail t p).annal t
    { code := 0x8003, addr := p, value := ctr }
  if 3 ≤ l.length then s3.failPort t p 0x13 else s3.retrainPort t p 4

/-! ## Registers (R238, R239, R272, R276, R279) -/

def slkBondOff (t : Nat) : Nat := tileBase t + 0x50000

/-- The code of width_p in a SLK_BOND value. -/
def bondCode (v p : Nat) : Nat := bits v (3 * p + 2) (3 * p)

/-- The lanes of a port. -/
def bondLanes (v p : Nat) : List Nat := (List.range (widthOf (bondCode v p))).map (· + p)

/-- A value that breaks R238 (R239). -/
def bondBad (v : Nat) : Bool :=
  (List.range 8).any (fun p =>
    let w := widthOf (bondCode v p)
    decide (4 < bondCode v p) || (w != 0 && (p % w != 0 || decide (8 < p + w)))) ||
  (List.range 8).any (fun l => decide (1 < ((List.range 8).filter (fun p => (bondLanes v p).contains l)).length))

/-- The ports whose width changes. -/
def State.bondChanged (s : State) (t v : Nat) : List Nat :=
  (List.range 8).filter (fun p => bondCode v p != bondCode (s.reg .slkBond t 0) p)

/-- A port with an armed route or an open capture region (R239). -/
def State.portInUse (s : State) (t p : Nat) : Bool :=
  (s.routesOn t p).any (fun e => e.2.armed) || (s.regionsOn t p).any (fun r => (s.region t p r).st == .opened)

/-- A port goes to RESET where it is enabled and exists and its tile runs in P0 or P1, else to DISABLED (R252). -/
def State.restartPort (t p : Nat) (s : State) : State :=
  let s1 := s.leaveActive t p
  let on := s1.field .slkPortCfg t p 31 31 = 1 && s1.hasSport t p && s1.linkRuns t
  (s1.setSport t p (if on then (s1.sport t p).fresh s.now else (s1.sport t p).off)).idleLanes t (s.portLanes t p)

/-- A write of SLK_BOND (R239). -/
def State.writeBond (a t v : Nat) (s : State) : State :=
  let ch := s.bondChanged t v
  if bondBad v || ch.any (fun p => s.portInUse t p) then s.refusedWrite t a (slkBondOff t) v
  else
    let s1 := ch.foldl (fun s p => (s.leaveActive t p).idleLanes t (s.portLanes t p)) s
    ch.foldl (fun s p => s.restartPort t p) (s1.writeReg .slkBond t 0 false v)

/-- A write of SLK_PORT_CFG; a retrain_thr of 0 is ignored (R252, R257). -/
def State.writePortCfg (t p v : Nat) (s : State) : State :=
  let v := if bits v 7 0 = 0 then setBits v 7 0 (s.field .slkPortCfg t p 7 0) else v
  let old := s.field .slkPortCfg t p 31 31
  let s1 := s.writeReg .slkPortCfg t p false v
  if bits v 31 31 = old then s1 else s1.restartPort t p

def execSlkBondWrite (port tile : Nat) (value : Word) (s : State) : Host.Outcome State Fault Refusal :=
  s.tileWrite port tile true (fun s => s.writeBond port tile (value.toNat % 2 ^ 24))

def execSlkPortCfgWrite (port tile sp : Nat) (value : Word) (s : State) : Host.Outcome State Fault Refusal :=
  s.tileWrite port tile (decide (sp < 8)) (fun s => s.writePortCfg tile sp value.toNat)

/-- One word of a port key (R272). -/
def State.writeKey (t p i v : Nat) (s : State) : State :=
  (s.putReg .slkGcmKey t (8 * p + i) v).setSport t p
    { s.sport t p with keyWords := (s.sport t p).keyWords ||| tileBit i }

def execSlkGcmKeyWrite (port tile sp i : Nat) (value : Word) (s : State) : Host.Outcome State Fault Refusal :=
  s.tileWrite port tile (decide (sp < 8 ∧ i < 8)) (fun s => s.writeKey tile sp i value.toNat)

/-- The port key as loaded. -/
def State.portKeyWords (s : State) (t p : Nat) : Nat :=
  (List.range 8).foldl (fun a i => a + s.reg .slkGcmKey t (8 * p + i) * 2 ^ (32 * i)) 0

/-- A rekey starts: the group counter from which new keys apply, the newly loaded key, a new nonce (R276). -/
def State.startRekeyPort (t p ctr : Nat) (s : State) : State :=
  let nonce := Config.free s.freeCtr
  let s1 := s.drawn 1
  (s1.setSport t p { s1.sport t p with rekeyAt := some ctr, keyNew := s.portKeyWords t p, myNonce := nonce }).sendCtrl t p 4
    (payloadOf [(8, ctr), (8, nonce.toNat)])

/-- SLK_PORT_CTRL.rekey: new keys from the 16th group on; it asks nothing of a port that does not run GCM. -/
def State.rekeyPort (t p : Nat) (s : State) : State :=
  let v := s.sport t p
  if s.cry.haltCause == 0 && s.linkRuns t && v.st == .active && v.gcm then
    let s1 := s.startRekeyPort t p (v.tx.ctr + 16)
    s1.setSport t p { s1.sport t p with rekeySent := some s.now }
  else s

def execRekey (port tile sp : Nat) (s : State) : Host.Outcome State Fault Refusal :=
  s.tileWrite port tile (decide (sp < 8)) (fun s => s.rekeyPort tile sp)

/-! ## Training (R252 to R258) -/

/-- A port whose tile runs, in a state. -/
def State.portIn (s : State) (t p : Nat) (st : PState) : Bool := s.linkRuns t && (s.sport t p).st == st

/-- The port's states keep the time of its RESET until signal has been found (R258). -/
def execPortResetDone (tile sp : Nat) (s : State) : Host.Outcome State Fault Refusal :=
  withUnit (s.hasSport tile sp) (fun s =>
    let v := s.sport tile sp
    if s.portIn tile sp .reset && decide (v.since + 100000 ≤ s.now) then s.setSport tile sp { v with st := .detect } else s) s

/-- The control field of the training frame that the part sends on a lane next: what it asks of the peer's taps and whether it wants precoding are free
values, the status answers the peer's request, and `good` says that its receiver is satisfied (R253). -/
def State.answerEq (t p lane : Nat) (good : Bool) (s : State) : State :=
  let v := (Config.free s.freeCtr).toNat
  (s.drawn 1).emit (.training t (p + lane)
    (eqControl lane v (tget (fun _ => 0) (s.sport t p).tapStatus lane) (good.toNat + 2 * (v / 256 % 2))))

/-- Signal on every lane: the port enters EQ, and each lane begins to send training frames (R252, R253). It repeats them; the model sends a
new one where its control field can change, in answer to a frame of the peer. -/
def execSignalDetect (tile sp : Nat) (s : State) : Host.Outcome State Fault Refusal :=
  withUnit (s.hasSport tile sp) (fun s =>
    if s.portIn tile sp .detect then
      let s1 := s.setSport tile sp { s.sport tile sp with
        st := .eq, since := s.now, readyRun := [], heldReq := [], taps := [], tapStatus := [], precode := false }
      (s.portLanes tile sp).foldl (fun (s : State) l =>
        (s.putReg .slkLane tile l (2 ^ 31)).answerEq tile sp (l - sp) false) s1
    else s) s

/-- One transmitter tap after a request: hold, increment, decrement, preset. The manual gives no value for a preset and no limits;
the model presets to 0 and stops at -128 and 127 (R253; DESIGN CHOICE, assumption 98). -/
def tapStep (req : Nat) (v : Int) : Int :=
  match req with
  | 1 => min 127 (v + 1)
  | 2 => max (-128) (v - 1)
  | 3 => 0
  | _ => v

/-- The status of a tap after a request: not updated, updated, at its minimum, at its maximum (R253). -/
def tapStatus (req : Nat) (v : Int) : Nat :=
  if req = 0 then 0 else if tapStep req v == -128 then 2 else if tapStep req v == 127 then 3 else 1

/-- The taps of a lane after its request byte. -/
def tapsAfter (lane req : Nat) (m : Tbl Int) : Tbl Int :=
  (List.range 4).foldl (fun m k =>
    tset (fun _ => (0 : Int)) m (4 * lane + k) (tapStep (bits req (2 * k + 1) (2 * k)) (tget (fun _ => 0) m (4 * lane + k)))) m

/-- The status byte of a lane after its request byte. -/
def statusAfter (lane req : Nat) (m : Tbl Int) : Nat :=
  (List.range 4).foldl (fun a k =>
    a + 4 ^ k * tapStatus (bits req (2 * k + 1) (2 * k)) (tget (fun _ => 0) m (4 * lane + k))) 0

/-- EQ ends: the port goes to LOCK, in which it sends lock-marked codewords, with its receivers' estimates measured (R254). -/
def State.eqDone (t p : Nat) (s : State) : State :=
  let s1 := (s.setSport t p { s.sport t p with st := .lock, since := s.now, lockRun := [] }).emit (.locking t p)
  (s.portLanes t p).foldl (fun s l => (s.drawn 1).putField .slkLane t l 7 0 (Config.free s.freeCtr).toNat) s1

/-- A training frame of a lane (R253): its tap request is acted on once, until it returns to hold, its ready flag is counted, and
the part's next frame answers it. -/
def State.trainFrame (t p lane : Nat) (ctl : BitVec 128) (inverted good : Bool) (s : State) : State :=
  let v := s.sport t p
  let req := eqByte ctl 1
  let held := tget (fun _ => false) v.heldReq lane
  let act := req != 0 && !held
  let taps := if act then tapsAfter lane req v.taps else v.taps
  let status := if act then statusAfter lane req v.taps else if req = 0 then 0 else tget (fun _ => 0) v.tapStatus lane
  let n := if ctl.getLsbD 24 && good then tget (fun _ => 0) v.readyRun lane + 1 else 0
  let v1 := { v with taps, precode := v.precode || ctl.getLsbD 25, tapStatus := tset (fun _ => 0) v.tapStatus lane status
                     heldReq := tset (fun _ => false) v.heldReq lane (req != 0)
                     readyRun := tset (fun _ => 0) v.readyRun lane n }
  let tap (k : Nat) : Nat := (BitVec.ofInt 8 (tget (fun _ => (0 : Int)) taps (4 * lane + k))).toNat
  let s1 := ((((s.setSport t p v1).putField .slkLane t (p + lane) 23 16 (tap 1)).putField .slkLane t (p + lane) 15 8 (tap 3)
    ).putField .slkLane t (p + lane) 30 30 (if inverted then 1 else 0)).answerEq t p lane good
  if (List.range (s.width t p)).all (fun l => decide (4 ≤ tget (fun _ => 0) v1.readyRun l)) then s1.eqDone t p else s1

/-- A frame whose CRC fails is ignored. -/
def execEqFrame (tile sp lane : Nat) (control : BitVec 128) (inverted rxGood : Bool) (s : State) :
    Host.Outcome State Fault Refusal :=
  withUnit (s.hasSport tile sp && decide (lane < s.width tile sp)) (fun s =>
    if s.portIn tile sp .eq && eqCrcOk control then s.trainFrame tile sp lane control inverted rxGood else s) s

def execEqTimeout (tile sp : Nat) (s : State) : Host.Outcome State Fault Refusal :=
  withUnit (s.hasSport tile sp) (fun s =>
    let v := s.sport tile sp
    if s.portIn tile sp .eq && decide (v.since + 50000000 ≤ s.now) then
      let s1 := s.setSport tile sp { v with st := .detect, since := s.now, eqTmo := v.eqTmo + 1 }
      if 8 ≤ v.eqTmo + 1 then s1.failPort tile sp 0x11 else s1
    else s) s

/-- GCM capability and requirement of the part's end (R271). A key counts as loaded once all eight words of SLK_GCM_KEY have been
written since the last reset (DESIGN CHOICE, assumption 98). -/
def State.gcmCapable (s : State) (t p : Nat) : Bool :=
  s.field .slkPortCfg t p 30 30 == 1 && (s.sport t p).keyWords == BitVec.allOnes 8

def State.gcmRequired (s : State) (t p : Nat) : Bool := s.field .slkPortCfg t p 29 29 == 1

/-- The payload of the part's CTRL CONFIG (R263). -/
def State.configPayload (s : State) (t p : Nat) : Line :=
  payloadOf [(2, 0x0100), (1, s.width t p), (1, (s.gcmCapable t p).toNat + 2 * (s.gcmRequired t p).toNat), (2, 0), (2, 128),
    (2, 16), (2, 32), (8, (s.sport t p).myNonce.toNat), (8, s.cur.serial.toNat), (1, 32 * t + p)]

/-- CTRL CONFIG is sent, with its seq and the session nonce, before any credit is granted (R256, R263, R264). -/
def State.sendConfig (t p : Nat) (s : State) : State :=
  let v := s.sport t p
  (s.setSport t p { v with cfgSeqs := v.cfgSeqs ++ [v.txSeq.toNat], cfgAt := s.now }).putCtrl t p 1 (s.configPayload t p)

/-- The port is locked: its message stream begins, and it enters CONFIG with a new nonce (R246, R254, R256). -/
def State.enterConfig (t p : Nat) (phase : Byte) (s : State) : State :=
  let s1 := s.drawn 1
  ((s1.setSport t p { s1.sport t p with
    st := .config, since := s.now, eqTmo := 0, rxPhase := phase, cfgGot := false, cfgAcked := false, cfgSeqs := [], txSeq := 0
    word17 := 0, ctrlCr := 0, ctrlOut := 32, freed := [], ctrlQ := [], lastCw := [], badRun := false
    myNonce := Config.free s.freeCtr }).emit (.streamStart t p)).sendConfig t p

/-- A lock-marked codeword on a lane (R254). -/
def State.marked (t p lane : Nat) (phase : Byte) (s : State) : State :=
  let v := s.sport t p
  let run := tset (fun _ => 0) v.lockRun lane (tget (fun _ => 0) v.lockRun lane + 1)
  let s1 := s.setSport t p { v with lockRun := run }
  if (List.range (s.width t p)).all (fun l => decide (4 ≤ tget (fun _ => 0) run l)) then s1.enterConfig t p phase else s1

/-- A codeword without the lane's marker ends its run of marked ones (R254). -/
def State.unmarked (t p lane : Nat) (s : State) : State :=
  let v := s.sport t p
  s.setSport t p { v with lockRun := tset (fun _ => 0) v.lockRun lane 0 }

def execLockMarker (tile sp lane : Nat) (marker : BitVec 40) (phase : Byte) (s : State) : Host.Outcome State Fault Refusal :=
  withUnit (s.hasSport tile sp && decide (lane < s.width tile sp)) (fun s =>
    if s.portIn tile sp .lock then
      if marker == lockMarker lane then s.marked tile sp lane phase else s.unmarked tile sp lane
    else s) s

/-- LOCK ends after 1 ms (R252). A port that keeps failing codeword lock reaches FAILED (R242): the model counts a LOCK timeout with the
EQ timeouts of R258 (DEDUCED, assumption 64). -/
def execLockTimeout (tile sp : Nat) (s : State) : Host.Outcome State Fault Refusal :=
  withUnit (s.hasSport tile sp) (fun s =>
    let v := s.sport tile sp
    if s.portIn tile sp .lock && decide (v.since + 1000000 ≤ s.now) then
      let s1 := s.setSport tile sp { v with st := .detect, since := s.now, eqTmo := v.eqTmo + 1 }
      if 8 ≤ v.eqTmo + 1 then s1.failPort tile sp 0x11 else s1
    else s) s

/-- Back from CONFIG to LOCK (R256). -/
def State.backToLock (t p : Nat) (s : State) : State :=
  (s.setSport t p { s.sport t p with st := .lock, since := s.now, lockRun := [] }).emit (.locking t p)

/-- A received CONFIG that fails (R256). -/
def State.configFails (s : State) (t p : Nat) (b : ConfigBody) : Bool :=
  b.version != 0x0100 || b.lanes != s.width t p || (s.gcmRequired t p && !b.capable) || (b.required && !s.gcmCapable t p)

/-- The keys of a port's two directions out of a port key and the two nonces (R272). -/
def SPort.keys (v : SPort) (key : Nat) : List Nat × List Nat :=
  (directionKey key "VZSL P>Q" v.myNonce v.peerNonce, directionKey key "VZSL Q>P" v.myNonce v.peerNonce)

/-- CONFIG acknowledged both ways: the port is ACTIVE with its initial credits, sequence numbers at 0 and its keys derived
(R252, R255, R264, R272). -/
def State.activate (t p : Nat) (s : State) : State :=
  let v := s.sport t p
  if v.cfgGot && v.cfgAcked then
    let k := v.keys (s.portKeyWords t p)
    s.setSport t p { v with st := .active, since := s.now, txSeq := 0, rxSeq := 0, badHdrs := 0, lostGap := false,
                            capOut := 128, reqOut := 16, tx := {}, rx := {}, keyTx := k.1,
                            keyRx := k.2, keyNew := 0, rekeyAt := none, rekeySent := none, uncorr := [] }
  else s

/-! ## Receiving flits (R259 to R270) -/

/-- A sequence gap before a good flit (R267, R322): every record in progress on the port is rewound, and a gap whose next
good flit is not CAP brings a REQ_LOST, unless one covers it already. -/
def State.seqGap (t p seq : Nat) (cap : Bool) (s : State) : State :=
  let v := s.sport t p
  let s1 := s.bump .slkSeqGap t p
  let s2 := if cap || v.lostGap then s1 else s1.sendLost t p v.rxSeq.toNat seq
  s2.rewindPort t p 2

/-- Returned credits are honoured (R264). -/
def State.takeCredit (t p cls n : Nat) (s : State) : State :=
  let v := s.sport t p
  match cls with
  | 0 => s.setSport t p { v with dataCr := v.dataCr + n }
  | 3 => (s.setSport t p { v with ctrlCr := v.ctrlCr + n }).drainCtrl t p v.ctrlQ.length
  | _ => s

/-- The header of a good flit: credits, the expected sequence, the run of bad headers (R261, R264, R267, R269). -/
def State.header (t p : Nat) (f : Flit) (k : FlitKind) (s : State) : State :=
  let s1 := s.takeCredit t p f.cclass f.credit
  let d := (f.seq + 65536 - (s1.sport t p).rxSeq.toNat) % 65536
  let s2 := if 0 < d && d < 32768 then s1.seqGap t p f.seq (k == .cap) else s1
  let v := s2.sport t p
  let s3 := s2.setSport t p { v with
    rxSeq := BitVec.ofNat 16 (if k.numbered then f.seq + 1 else f.seq), badHdrs := 0, lostGap := false, badRun := false }
  if f.legal k then s3 else s3.bump .slkProto t p

/-- An uncorrectable codeword (R257, R270): counted; the port's source is raised at most once a second; retrain_thr of them
within 1 ms retrain the port. -/
def State.uncorrectable (t p : Nat) (inj : Bool) (s : State) : State :=
  let v := s.sport t p
  let l := s.now :: recent s.now 1000000 v.uncorr
  let due := inj || (match v.faultAt with
    | some x => decide (x + 1000000000 ≤ s.now)
    | none => true)
  let s1 := ((s.setSport t p { v with uncorr := l, faultAt := if due then some s.now else v.faultAt }).bump .slkFecUncorr t p
    ).pmcEdge t 0x45 p
  let s2 := if due then s1.fault t (srcId 0x09 p) { inject := inj } else s1
  if s.field .slkPortCfg t p 7 0 ≤ l.length then s2.retrainPort t p 1 else s2

/-- The codewords of a flit that no flit before it has shown: the first may be the last one of the flit before (R244, R257). -/
def SPort.newCws (v : SPort) (f : Flit) : Flit :=
  match f.codewords with
  | c :: l => if c == v.lastCw then { f with codewords := l } else f
  | [] => f

/-- Corrected codewords are counted, each once (R270). -/
def State.countFixed (t p : Nat) (f : Flit) (s : State) : State :=
  let v := s.sport t p
  let s1 := (List.range (v.newCws f).fixed).foldl (fun s _ => s.bump .slkFecCorr t p) s
  s1.setSport t p { s1.sport t p with lastCw := f.codewords.getLast?.getD v.lastCw }

/-- The buffer of a flit that is discarded is free at once, and its credit goes back (R261, R265). -/
def State.freeFlit (t p : Nat) (b : BadFlit) (s : State) : State :=
  let v := s.sport t p
  match b with
  | .ctrl => s.setSport t p ({ v with ctrlOut := v.ctrlOut - 1 }.free 3 1)
  | .reqHdrGood => s.setSport t p ({ v with reqOut := v.reqOut - 1 }.free 2 1)
  | .capHdrGood _ => (s.setSport t p { v with capOut := v.capOut - 1 }).grantCap t p
  | .idle | .hcrc | .gap _ _ => s

/-- A header that cannot be read: the second in a row retrains the port; otherwise a REQ_LOST is sent, which covers the gap that may
follow, and every record in progress is rewound (R267, R269, R322). -/
def State.lostHeader (t p : Nat) (s : State) : State :=
  let v := s.sport t p
  if 2 ≤ v.badHdrs + 1 then s.retrainPort t p 2
  else
    let s1 := s.setSport t p { v with badHdrs := v.badHdrs + 1, lostGap := true }
    (s1.sendLost t p v.rxSeq.toNat v.rxSeq.toNat).rewindPort t p 2

/-- The header of a bad flit was good: the expected sequence goes to one above its seq where its kind consumes a number, and the run of
bad headers ends (R267, R269). -/
def SPort.badSeen (v : SPort) (seq : Option Nat) : SPort :=
  { v with rxSeq := (match seq with
             | some q => BitVec.ofNat 16 (q + 1)
             | none => v.rxSeq), badHdrs := 0, lostGap := false }

/-- What a bad flit with a good header loses, by its type; `seq` is the one its header gives (R267). -/
def State.badKind (t p : Nat) (b : BadFlit) (seq : Nat) (s : State) : State :=
  let v := s.sport t p
  if v.st != .active then s
  else
    match b with
    | .idle => s.setSport t p (v.badSeen none)
    | .ctrl => (s.setSport t p (v.badSeen (some seq))).freeFlit t p b
    | .capHdrGood region => ((s.setSport t p (v.badSeen (some seq))).rewind t p region 1).freeFlit t p b
    | .reqHdrGood => ((s.setSport t p (v.badSeen (some seq))).sendLost t p v.rxSeq.toNat seq).freeFlit t p b
    | .hcrc | .gap _ _ => s

/-- A flit that arrives bad as a command of its own (R267). Its header's seq is the expected one. A codeword that cannot be corrected
spoils several flits and counts once (R257, R270): whether the codeword of a bad flit that follows another is a new one is a free value
(assumption 63). -/
def State.badFlit (t p : Nat) (b : BadFlit) (s : State) : State :=
  let v := s.sport t p
  let more := v.badRun && (Config.free s.freeCtr).getLsbD 0
  let s1 := (if v.badRun then s.drawn 1 else s).setSport t p { v with badRun := true }
  match b with
  | .idle | .ctrl | .capHdrGood _ | .reqHdrGood =>
    (if more then s1 else s1.uncorrectable t p false).badKind t p b v.rxSeq.toNat
  | .hcrc => ((s.bump .slkHdrErr t p).pmcEdge t 0x46 p).lostHeader t p
  | .gap seq cap =>
    let s1 := s.seqGap t p seq cap.isSome
    s1.setSport t p { s1.sport t p with rxSeq := BitVec.ofNat 16 seq, lostGap := false }

/-- A flit with bits in uncorrectable codewords, each of which counts once: bad by its type, or unreadable (R257, R267, R270). An
injection makes one of its own uncorrectable (R411). -/
def State.lostFlit (t p : Nat) (f : Flit) (b : BadFlit) (fresh : Nat) (inj : Bool) (s : State) : State :=
  let s1 := (List.range (if inj then fresh + 1 else fresh)).foldl (fun s _ => s.uncorrectable t p inj) s
  let s2 := s1.setSport t p { s1.sport t p with badRun := true }
  if (s2.sport t p).st != .active then s1 else if f.hcrcOk then s2.badKind t p b f.seq else s2.lostHeader t p

/-- The record a CAP flit belongs to. -/
def State.recordOf (s : State) (t p r : Nat) (start : Bool) : Option (Nat × Nat) :=
  let v := s.region t p r
  if v.st != .opened then none
  else if start then some (r, v.started)
  else v.enc.map (fun e => (r, e.num))

/-- The payload of a REQ or CAP flit, decrypted under its group where the port runs GCM: a group closes after 16 flits (R273, R274). -/
def SPort.plain (v : SPort) (f : Flit) : Line :=
  let n := v.rx.flits.length
  if v.gcm then groupCrypt v.keyRx (v.rx.ctr + n / 16) (n % 16) f.payload else f.payload

/-- A REQ or CAP flit joins the GCM group being received (R273). -/
def SPort.grouped (v : SPort) (f : Flit) (now : Nat) (rec : Option (Nat × Nat)) : SPort :=
  if v.gcm then { v with rx := { v.rx with
    flits := v.rx.flits ++ [{ seq := f.seq, record := rec, aad := f.aad, payload := f.payload, came := now }] } } else v

/-- The flit's place in its group, where its kind has one. -/
def State.joinGroup (t p : Nat) (f : Flit) (k : FlitKind) (s : State) : State :=
  match k with
  | .req => s.setSport t p ((s.sport t p).grouped f s.now none)
  | .cap => s.setSport t p ((s.sport t p).grouped f s.now
      (if f.legal .cap then s.recordOf t p (f.id % 64) (f.tflags.testBit 1) else none))
  | .idle | .data | .ctrl => s

/-- A flit at an ACTIVE port: its codewords are corrected, and an armed injection makes one uncorrectable (R411); a bad flit is
handled by its type; otherwise its header is taken and it joins its group, and `act` acts on its payload where it is legal. The
buffer of a CTRL flit is free at once (assumption 61). A flit beyond the credits granted is discarded (R266). -/
def State.flit (t p : Nat) (f : Flit) (k : FlitKind) (bad : BadFlit) (act : Line → State → State) (s : State) : State :=
  if !s.portIn t p .active then s
  else
    let (inj, s1) := s.check t (srcId 0x09 p)
    let fresh := ((s1.sport t p).newCws f).lost
    let s2 := s1.countFixed t p f
    if inj || decide (0 < f.lost) then s2.lostFlit t p f bad fresh inj
    else if !f.hcrcOk then s2.badFlit t p .hcrc
    else
      let s3 := s2.header t p f k
      let l := (s3.sport t p).plain f
      let s4 := s3.joinGroup t p f k
      let v := s4.sport t p
      if !f.legal k then s4.freeFlit t p bad
      else
        match k with
        | .ctrl => if v.ctrlOut = 0 then s4.bump .slkProto t p else act f.payload (s4.freeFlit t p bad)
        | .req => if v.reqOut = 0 then s4.bump .slkProto t p else act l (s4.setSport t p { v with reqOut := v.reqOut - 1 })
        | .cap => if v.capOut = 0 then s4.bump .slkProto t p else act l (s4.setSport t p { v with capOut := v.capOut - 1 })
        | .idle | .data => s4

/-! ## The rows: flits -/

def execIdle (tile sp : Nat) (f : Flit) (s : State) : Host.Outcome State Fault Refusal :=
  withUnit (s.hasSport tile sp) (fun s => s.flit tile sp f .idle .idle (fun _ s => s)) s

/-- A REQ flit is decided on arrival (R274, R292); `cycle` is the port cycle of its last message bit (R250). -/
def execReq (tile sp cycle : Nat) (f : Flit) (s : State) : Host.Outcome State Fault Refusal :=
  withUnit (s.hasSport tile sp) (fun s => s.flit tile sp f .req .reqHdrGood (fun l s =>
    s.decideReq tile sp (reqOf f.route cycle l))) s

/-- A CAP flit: its region, and whether it starts or ends a record or is poisoned, are in its header (R260, R312). -/
def execCap (tile sp : Nat) (f : Flit) (s : State) : Host.Outcome State Fault Refusal :=
  withUnit (s.hasSport tile sp) (fun s =>
    s.flit tile sp f .cap (.capHdrGood (f.id % 64)) (fun l s =>
      s.capFlit tile sp (f.id % 64) (f.tflags.testBit 1) (f.tflags.testBit 0) f.poisoned l)) s

/-- The subtype a CTRL command acts on; a flit whose id says another is no such command, and is handled as an unknown subtype
(R261, R262). -/
def State.ofSubtype (t p n : Nat) (f : Flit) (act : State → State) (s : State) : State :=
  if f.id == n then act s else s.bump .slkProto t p

/-- A CTRL flit in CONFIG: a good one is acted on; corrected and uncorrectable codewords and bad headers are counted (R270, R279). -/
def State.configFlit (t p : Nat) (f : Flit) (act : State → State) (s : State) : State :=
  let fresh := ((s.sport t p).newCws f).lost
  let s1 := s.countFixed t p f
  if 0 < f.lost then (List.range fresh).foldl (fun s _ => (s.bump .slkFecUncorr t p).pmcEdge t 0x45 p) s1
  else if !f.hcrcOk then (s1.bump .slkHdrErr t p).pmcEdge t 0x46 p
  else if !f.legal .ctrl then s1.bump .slkProto t p
  else act s1

/-- CONFIG_ACK, which names the seq of the CONFIG it answers (R262). -/
def configAck (seq : Nat) : Line := payloadOf [(2, seq)]

/-- A CONFIG that does not fail: what it says is kept, the first one grants its credits, and it is answered with one of them (R256, R263,
R264, R271). -/
def State.configured (t p seq : Nat) (b : ConfigBody) (s : State) : State :=
  let v := s.sport t p
  ((s.setSport t p { v with
    cfgGot := true, peerNonce := b.nonce, dataCr := if v.cfgGot then v.dataCr else b.crData
    ctrlCr := if v.cfgGot then v.ctrlCr else b.crCtrl
    gcm := s.gcmCapable t p && b.capable && (s.gcmRequired t p || b.required) }).sendCtrl t p 2 (configAck seq)).activate t p

/-- A CTRL CONFIG: in CONFIG it is checked and answered; an ACTIVE port answers a repeated one that is valid (R256). -/
def execConfig (tile sp : Nat) (f : Flit) (s : State) : Host.Outcome State Fault Refusal :=
  withUnit (s.hasSport tile sp) (fun s =>
    if s.portIn tile sp .config then
      s.configFlit tile sp f (State.ofSubtype tile sp 1 f (fun s =>
        let b := configOf f.payload
        if s.configFails tile sp b then s.backToLock tile sp else s.configured tile sp f.seq b))
    else s.flit tile sp f .ctrl .ctrl (fun _ => State.ofSubtype tile sp 1 f (fun s =>
      if s.configFails tile sp (configOf f.payload) then s else s.sendCtrl tile sp 2 (configAck f.seq)))) s

/-- A CTRL CONFIG_ACK that names a CONFIG the part has sent (R252, R256); the credit that it used is free at once (R264, R265). -/
def execConfigAck (tile sp : Nat) (f : Flit) (s : State) : Host.Outcome State Fault Refusal :=
  withUnit (s.hasSport tile sp) (fun s =>
    if s.portIn tile sp .config then
      s.configFlit tile sp f (State.ofSubtype tile sp 2 f (fun s =>
        let v := { (s.sport tile sp).free 3 1 with ctrlOut := (s.sport tile sp).ctrlOut - 1 }
        if v.cfgSeqs.contains (payloadField f.payload 0 2) then
          (s.setSport tile sp { v with cfgAcked := true }).activate tile sp
        else s.setSport tile sp v))
    else s.flit tile sp f .ctrl .ctrl (fun _ => State.ofSubtype tile sp 2 f id)) s

def execConfigRepeat (tile sp : Nat) (s : State) : Host.Outcome State Fault Refusal :=
  withUnit (s.hasSport tile sp) (fun s =>
    let v := s.sport tile sp
    if s.portIn tile sp .config && !v.cfgAcked && decide (v.cfgAt + 4000 ≤ s.now) then s.sendConfig tile sp else s) s

def execConfigTimeout (tile sp : Nat) (s : State) : Host.Outcome State Fault Refusal :=
  withUnit (s.hasSport tile sp) (fun s =>
    if s.portIn tile sp .config && decide ((s.sport tile sp).since + 100000 ≤ s.now) then s.backToLock tile sp else s) s

def execRetrain (tile sp : Nat) (cause : Byte) (s : State) : Host.Outcome State Fault Refusal :=
  withUnit (s.hasSport tile sp) (fun s =>
    if s.linkRuns tile then s.retrainPort tile sp cause.toNat else s) s

def execRetrainReceive (tile sp : Nat) (f : Flit) (s : State) : Host.Outcome State Fault Refusal :=
  withUnit (s.hasSport tile sp) (fun s =>
    s.flit tile sp f .ctrl .ctrl (fun _ => State.ofSubtype tile sp 6 f (State.retrainPort tile sp 3))) s

def execBadFlit (tile sp : Nat) (b : BadFlit) (s : State) : Host.Outcome State Fault Refusal :=
  withUnit (s.hasSport tile sp) (fun s => if s.portIn tile sp .active then s.badFlit tile sp b else s) s

def execLaneSignalTimeout (tile sp lane : Nat) (s : State) : Host.Outcome State Fault Refusal :=
  withUnit (s.hasSport tile sp && decide (lane < s.width tile sp)) (fun s =>
    let v := s.sport tile sp
    if s.portIn tile sp .detect && s.field .slkLane tile (sp + lane) 31 31 == 0 && decide (v.since + 1000000000 ≤ s.now) then
      s.failPort tile sp 0x14
    else s) s

/-! ## The rows: encryption (R273 to R276) -/

/-- A direction's key once its group counter reaches the one a rekey names: derived from the newly loaded key and the REKEY nonces,
which need the peer's answer (R276). -/
def SPort.switchKeys (v : SPort) : SPort :=
  if v.rekeySent.isSome then v
  else
    let tx := v.rekeyAt == some v.tx.ctr
    let rx := v.rekeyAt == some v.rx.ctr
    let past := match v.rekeyAt with
      | some c => decide (c ≤ v.tx.ctr) && decide (c ≤ v.rx.ctr)
      | none => false
    let k := v.keys v.keyNew
    { v with keyTx := if tx then k.1 else v.keyTx, keyRx := if rx then k.2 else v.keyRx,
             rekeyAt := if past then none else v.rekeyAt }

/-- The flits up to the one with a seq. -/
def upTo (last : Nat) (l : List GFlit) : List GFlit :=
  l.takeWhile (fun f => f.seq != last) ++ (l.find? (fun f => f.seq == last)).toList

/-- A TAG: the flits it names are the oldest unverified ones, its counter is theirs and its tag is theirs; else it is a tag failure
(R273 to R275). -/
def State.tagged (t p : Nat) (l : Line) (s : State) : State :=
  let v := s.sport t p
  let first := payloadField l 0 2
  let last := payloadField l 2 2
  let group := upTo last v.rx.flits
  if !v.gcm then s
  else if v.rx.flits.head?.map (fun f => f.seq) == some first && v.rx.flits.any (fun f => f.seq == last) &&
      payloadField l 4 8 == v.rx.ctr &&
      payloadField l 12 16 == groupTag v.keyRx v.rx.ctr (group.map (fun f => (f.aad, f.payload))) then
    s.setSport t p ({ v with rx := { v.rx with flits := v.rx.flits.drop group.length, ctr := v.rx.ctr + 1 } }.switchKeys)
  else s.tagFailure t p v.rx.ctr

def execTag (tile sp : Nat) (f : Flit) (s : State) : Host.Outcome State Fault Refusal :=
  withUnit (s.hasSport tile sp) (fun s => s.flit tile sp f .ctrl .ctrl (fun l => State.ofSubtype tile sp 3 f (State.tagged tile sp l))) s

/-- A REKEY that answers the part's own, or asks for one: the part answers with its own REKEY for the same counter. -/
def State.rekeyed (t p : Nat) (counter nonce : DWord) (s : State) : State :=
  let v := s.sport t p
  if !v.gcm then s
  else
    match v.rekeySent with
    | some _ =>
      if v.rekeyAt == some counter.toNat then s.setSport t p ({ v with rekeySent := none, peerNonce := nonce }.switchKeys) else s
    | none => (s.setSport t p { v with peerNonce := nonce }).startRekeyPort t p counter.toNat

def execRekeyReceive (tile sp : Nat) (f : Flit) (s : State) : Host.Outcome State Fault Refusal :=
  withUnit (s.hasSport tile sp) (fun s => s.flit tile sp f .ctrl .ctrl (fun l => State.ofSubtype tile sp 4 f
    (State.rekeyed tile sp (BitVec.ofNat 64 (payloadField l 0 8)) (BitVec.ofNat 64 (payloadField l 8 8))))) s

/-- The flits of the group being received whose TAG is due next: at most 16, and none that came 256 cyc(port) (146.3 ns) or more after
the first, when its sender closes the group (R273). -/
def SPort.dueGroup (v : SPort) : List GFlit :=
  match v.rx.flits with
  | [] => []
  | f :: l => (f :: l).take 16 |>.filter (fun g => decide (g.came ≤ f.came + 147))

/-- 512 cyc(port) after the group's last flit are 292.6 ns (R7, R274). -/
def execTagTimeout (tile sp : Nat) (s : State) : Host.Outcome State Fault Refusal :=
  withUnit (s.hasSport tile sp) (fun s =>
    let v := s.sport tile sp
    match v.dueGroup.getLast? with
    | some f => if s.portIn tile sp .active && v.gcm && decide (f.came + 293 ≤ s.now) then s.tagFailure tile sp v.rx.ctr else s
    | none => s) s

def execRekeyTimeout (tile sp : Nat) (s : State) : Host.Outcome State Fault Refusal :=
  withUnit (s.hasSport tile sp) (fun s =>
    let v := s.sport tile sp
    match v.rekeySent with
    | some x =>
      if s.portIn tile sp .active && decide (x + 100000 ≤ s.now) then s.tagFailure tile sp (v.rekeyAt.getD 0) else s
    | none => s) s

/-- A group closes after 16 flits, or 256 cyc(port) (146.3 ns) after its first, with one TAG: its first and last seq, its counter
and its tag (R273). -/
def execGcmGroupClose (tile sp : Nat) (s : State) : Host.Outcome State Fault Refusal :=
  withUnit (s.hasSport tile sp) (fun s =>
    let v := s.sport tile sp
    match v.tx.flits.head?, v.tx.flits.getLast? with
    | some a, some b =>
      if s.portIn tile sp .active && v.gcm && (decide (16 ≤ v.tx.flits.length) || decide (v.tx.stamp + 147 ≤ s.now)) then
        (s.setSport tile sp ({ v with tx := { ctr := v.tx.ctr + 1 } }.switchKeys)).sendCtrl tile sp 3
          (payloadOf [(2, a.seq), (2, b.seq), (8, v.tx.ctr),
            (16, groupTag v.keyTx v.tx.ctr (v.tx.flits.map (fun f => (f.aad, f.payload))))])
      else s
    | _, _ => s) s

end Sys2Proof.Machine
end

