-- ==== Sys2Proof/Machine/PageFormat.lean ====
section
/-! DEFINITION. The bytes of a media page: ciphertext and tags of its lines (R379, R380), codewords (R141, R142), headers (R144,
R145) and the stripe parity (R146, R147). -/

namespace Sys2Proof.Machine

/-! ## Lines (R379, R380) -/

/-- A line as media hold it: AES-256-XTS with the line's index PA[48:7] as the number of the data unit (R379). The low 256 bits of
the key encrypt the data, the high ones the tweak (assumption 9). -/
def mediaCipher (k : KeyVer) (line : Nat) (v : Line) : List Byte :=
  (xtsEncrypt ((leBytes 64 k.xts.toNat).map BitVec.toNat) line ((leBytes 128 v.toNat).map BitVec.toNat)).map (BitVec.ofNat 8)

/-- The tag of a line: 7 bytes over its ciphertext, its index, the write sequence of its stripe page and its KID (R380). -/
def lineTag (k : KeyVer) (cipher : List Byte) (line seq kid : Nat) : List Byte :=
  (kmac256 ((leBytes 32 k.tag.toNat).map BitVec.toNat)
    ((cipher ++ leBytes 8 line ++ leBytes 8 seq ++ leBytes 1 kid).map BitVec.toNat) 7 "VZ TAG").map (BitVec.ofNat 8)

/-- The line metadata: the KID in bits [7:0] and the tag above it (R142, R380). -/
def lineMeta (k : KeyVer) (cipher : List Byte) (line seq kid : Nat) : List Byte :=
  BitVec.ofNat 8 kid :: lineTag k cipher line seq kid

/-! ## Data pages (R141, R142) -/

/-- The line of a page that line `i` of the leaf in quarter `q` is, and the codeword that holds a page line (R141). -/
def pageLine (q i : Nat) : Nat := 32 * q + i

def pageUnit (n : Nat) : Nat := n / 4

/-- The piece in a quarter of a stripe page's data pages, and the leaf it holds there. -/
def Page.quarter (p : Page) (g : Nat) : Option (PageItem × Nat) :=
  (p.items.find? (fun i => (pieceQuarters i.piece).contains g)).map (fun i =>
    (i, match i.piece with
      | .folio f k => 16 * f + (g - 16 * k)
      | .leaf l _ _ => l
      | .note _ => 0))

/-- Some bytes of a list, zeros past its end. -/
def slice (l : List Byte) (off n : Nat) : List Byte := (List.range n).map (fun i => l.getD (off + i) 0)

/-- Line `n` of a data page and its metadata. Those of a note page are its notes, which have no part address, as they are; where
nothing lies they are 0 (assumption 9). -/
def State.pageLineBytes (s : State) (p : Page) (pos n : Nat) : List Byte × List Byte :=
  match p.quarter (4 * pos + n / 32) with
  | none => (List.replicate 128 0, List.replicate 8 0)
  | some (i, leaf) =>
    match i.piece with
    | .note _ => (slice (i.notes.flatMap Note.bytes) (128 * n) 128, List.replicate 8 0)
    | .folio _ _ | .leaf _ _ _ =>
      let line := 32 * leaf + n % 32
      let k := s.keyOf i.kid i.ver
      let c := mediaCipher k line (tget (fun _ => {}) i.lines line).data
      (c, lineMeta k c line p.seq i.kid)

/-- Codeword `k` of a data page: four lines, their metadata, and the parity of the media code (R142). -/
def State.dataCodeword (s : State) (p : Page) (pos k : Nat) : List Byte :=
  let l := (List.range 4).map (fun i => s.pageLineBytes p pos (4 * k + i))
  let body := l.flatMap (fun x => x.1) ++ l.flatMap (fun x => x.2)
  body ++ (List.range 64).map (fun i => Config.mediaCode body i)

/-! ## Parity (R146, R147) -/

/-- The position that a channel holds of a stripe page: 0 to 11 data, 12 to 15 parity (R146). -/
def memberPos (spn c : Nat) : Nat := (c + 28 - 4 * (spn % 4)) % 16

/-- The channel of parity `j` of a stripe page (R146). -/
def parityChan (spn j : Nat) : Nat := 4 * (spn % 4) + j

/-- Parity `j` of one byte of the twelve data positions (R147). -/
def parityByte (data : List Byte) (j : Nat) : Byte :=
  BitVec.ofNat 8 ((stripeCode.parity (data.map BitVec.toNat)).getD j 0)

/-- The byte at position `pos` of a stripe, rebuilt from the members that are not `gone`, at most four (R147). -/
def rebuildByte (members : List Byte) (gone : List Nat) (pos : Nat) : Byte :=
  BitVec.ofNat 8 (stripeCode.fill (members.map BitVec.toNat) gone pos)

/-- Codeword `k` of the page at a position. -/
def State.codeword (s : State) (p : Page) (pos k : Nat) : List Byte :=
  if pos < 12 then s.dataCodeword p pos k
  else
    let data := (List.range 12).map (fun d => s.dataCodeword p d k)
    (List.range 608).map (fun b => parityByte (data.map (fun l => l.getD b 0)) (pos - 12))

/-! ## Headers (R144, R145) -/

/-- The kind of a page at a position. -/
def Page.kindAt (p : Page) (pos : Nat) : Nat :=
  if 12 ≤ pos then 5
  else
    match (List.range 4).findSome? (fun q => p.quarter (4 * pos + q)) with
    | none => 4
    | some (i, _) =>
      match i.piece with
      | .folio _ _ => 1
      | .leaf _ _ _ => 2
      | .note _ => 3

/-- A quarter entry of a qmap: the leaf and its valid bit (R144). -/
def Page.qmapEntry (p : Page) (g : Nat) : List Byte :=
  match p.quarter g with
  | none => leBytes 6 0
  | some (i, leaf) =>
    match i.piece with
    | .note _ => leBytes 6 0
    | .folio _ _ | .leaf _ _ _ => leBytes 6 (leaf % 2 ^ 37 + 2 ^ 47)

/-- The qmap of a data position; a parity page has none. -/
def Page.qmap (p : Page) (pos : Nat) : List Byte :=
  if 12 ≤ pos then List.replicate 24 0 else (List.range 4).flatMap (fun q => p.qmapEntry (4 * pos + q))

/-- Bytes followed by their CRC-32C. -/
def withCrc (l : List Byte) : List Byte := l ++ leBytes 4 (crc32c l)

/-- The 96 bytes of a summary (R144). -/
def Page.summary (p : Page) (spn c : Nat) : List Byte :=
  let pos := memberPos spn c
  withCrc (layout 92
    [(0, leBytes 1 (p.kindAt pos)), (1, leBytes 1 (if p.reloc then 1 else 0)), (2, leBytes 1 pos),
     (3, leBytes 1 (p.wbands.getD c 0)), (4, leBytes 4 (spn % 2 ^ 28)), (8, leBytes 8 p.seq), (16, leBytes 8 p.epoch),
     (24, leBytes 8 p.wtime.toNat), (32, p.qmap pos)])

/-- The 800 bytes of a body: the qmaps of all data positions, the erase count of the member block, and their CRC (R145). -/
def Page.body (p : Page) (erases : Nat) : List Byte :=
  withCrc (layout 796 [(0, (List.range 12).flatMap p.qmap), (288, leBytes 4 erases)])

/-- The 1,024 bytes of a header area: each codeword with its header code (R141, R144, R145). -/
def Page.header (p : Page) (spn c erases : Nat) : List Byte :=
  let a := p.summary spn c
  let b := p.body erases
  a ++ (List.range 32).map (fun i => Config.headerCode a i) ++ b ++ (List.range 96).map (fun i => Config.headerCode b i)

/-! ## What a page is loaded with (R141, R158) -/

/-- Chunk `i` of the page that channel `c` holds of a stripe page: codewords 0 to 31, then the halves of the header area. -/
def State.pageChunk (s : State) (t spn c i : Nat) : List Byte :=
  match s.page t spn with
  | none => []
  | some p =>
    if i < 32 then s.codeword p (memberPos spn c) i
    else
      let m := (s.block t (spn / s.ppb t)).member c
      slice (p.header spn c (s.mblock t c m).erases) (512 * (i - 32)) 512

/-- The 20,480 bytes of a media page: the header area, then codewords 0 to 31 (R141). -/
def State.pageBytes (s : State) (t spn c : Nat) : List Byte :=
  s.pageChunk t spn c 32 ++ s.pageChunk t spn c 33 ++ (List.range 32).flatMap (fun k => s.pageChunk t spn c k)

end Sys2Proof.Machine
end

