-- ==== Sys2Proof/Machine/Media.lean ====
section
/-! DEFINITION. Media channels: the slot calendar, program phases, line reads, drift, temperature and the media scrubber
(R158 to R180, R189, R343, R442, R501). -/

namespace Sys2Proof.Machine

/-- Whether a tile's media run: idle in P2, clock gated in P1 unless the tile drains (R397, R478, R481). -/
def State.mediaRuns (s : State) (t : Nat) : Bool := s.coreRuns t

/-! ## Slots (R153, R158, R159, R501) -/

/-- A plane never has a READ_CW while it programs or erases (R155, R161). -/
def State.planeIdle (s : State) (t c block : Nat) : Bool := !(s.cal t).started.any (fun o => o.onPlane c block)

/-- The member block of a stripe page on a channel. -/
def State.memberOf (s : State) (t c spn : Nat) : Nat := (s.block t (spn / s.ppb t)).member c

/-- Whether a load may go on: it is the oldest of its plane, the plane's buffer holds no other program, and the reads of a
relocation or merge are done (R131, R151, R162). -/
def State.loadable (s : State) (t c : Nat) (o : StartedOp) : Bool :=
  let v := s.cal t
  let mine (x : StartedOp) : Bool := x.prog && x.onPlane c o.block
  ((s.chan t c).loads.find? (fun e => mine e.1)).map (fun e => e.1) == some o &&
    !v.ready.any mine && !v.due.any mine && !v.started.any mine &&
    !(((s.page t o.spn).map (fun p => p.reloc)).getD false &&
      (List.range 16).any (fun x => (s.chan t x).back.any (fun w => w.kind == .weed)))

/-- Whether a background window may be granted: a status window after 21.5 µs of its phase, a read where its plane is idle. -/
def State.backReady (s : State) (t c : Nat) (w : BackWin) : Bool :=
  match w.kind with
  | .status => decide ((s.cal t).startAt + 21500 ≤ s.now)
  | .temp | .block => true
  | .header | .summary | .scrub | .weed | .calib => s.planeIdle t c w.block

/-- What a slot boundary grants. -/
inductive Granted where
  | read (w : Window)
  | load (o : StartedOp) (left : Nat)
  | back (w : BackWin)
  deriving DecidableEq, Repr

/-- The background work that comes next. Loads and other windows take turns (DESIGN CHOICE, assumption 98). -/
def State.nextBack (s : State) (t c : Nat) : Option Granted :=
  let h := s.chan t c
  let load := (h.loads.find? (fun e => s.loadable t c e.1)).map (fun e => Granted.load e.1 e.2)
  let back := (h.back.find? (s.backReady t c)).map Granted.back
  if h.turn then load.or back else back.or load

/-- The read that comes next: rescue reads, then foreground reads oldest first. -/
def State.nextRead (s : State) (t c : Nat) : Option Granted :=
  let q := (s.chan t c).queue.filter (fun w => s.planeIdle t c (s.memberOf t c w.spn))
  ((q.find? (fun w => w.kind == .rescue)).or (q.find? (fun w => w.kind == .foreground))).map Granted.read

/-- The window the engine grants next (R159): rescue reads, foreground reads, then background work, which receives at least one
window in every three while it waits. -/
def State.pickWindow (s : State) (t c : Nat) : Option Granted :=
  let back := s.nextBack t c
  if 2 ≤ (s.chan t c).sinceBg && back.isSome then back else (s.nextRead t c).or back

/-- A load's chunk has been carried; a load with none left is a program ready for its phase (R162). -/
def State.loadChunk (t c : Nat) (o : StartedOp) (left : Nat) (s : State) : State :=
  let h := s.chan t c
  if 1 < left then
    s.setChan t c { h with loads := h.loads.map (fun e => if e.1 == o then (o, left - 1) else e) }
  else
    let v := s.cal t
    (s.setChan t c { h with loads := h.loads.filter (fun e => e.1 != o) }).setCal t { v with ready := v.ready ++ [o] }

/-- A granted load: the packet and the data of its chunk (R150, R158, R162). -/
def State.grantLoad (t c : Nat) (o : StartedOp) (left : Nat) (s : State) : State :=
  let i := pageChunks - left
  let s1 := (s.sendBlock t c o.block .load (o.spn % s.ppb t) i []).emit (.mediaData t c (s.pageChunk t o.spn c i))
  (s1.setChan t c { s1.chan t c with sinceBg := 0, turn := false }).loadChunk t c o left

/-- The read offsets that a member of a stripe page takes (R173). -/
def State.memberOffs (s : State) (t c spn : Nat) : List Byte := (s.entryBytes t c spn).take 3

/-- Whether the result of a background window is taken by a later event. -/
def BackKind.answers : BackKind → Bool
  | .status | .temp | .scrub | .calib => true
  | .header | .summary | .weed | .block => false

/-- The packet of a background window. A calibration sends its own, with the offsets of its classes (R176). The bits that a read
of no later row has corrected count as a free value (R189). -/
def State.sendBack (t c : Nat) (w : BackWin) (s : State) : State :=
  match w.kind with
  | .status => s.sendBlock t c w.block .status 0 0 []
  | .temp => s.sendBlock t c w.block .getTemp 0 0 []
  | .block => s.sendBlock t c w.block .getBlock 0 0 []
  | .calib => s
  | .header | .summary | .scrub | .weed =>
    let s1 := (s.sendBlock t c w.block .readCw (w.spn % s.ppb t) w.unit (s.memberOffs t c w.spn)).sense t c (w.spn / s.ppb t)
    if w.kind.answers then s1 else s1.ownBits t c (w.spn / s.ppb t)

/-- A granted background window that is no load. -/
def State.grantBack (t c : Nat) (w : BackWin) (s : State) : State :=
  let s1 := s.sendBack t c w
  let h := s1.chan t c
  s1.setChan t c { h with
    back := h.back.erase w, carried := if w.kind.answers then h.carried ++ [w] else h.carried, sinceBg := 0, turn := true }

/-- A granted read: its packet is sent and its sense counted; its slots are counted once its codeword is decoded (R150, R166,
R179, R501). -/
def State.grantRead (t c : Nat) (w : Window) (s : State) : State :=
  let h := s.chan t c
  let rest := h.queue.erase w
  let s1 := s.setChan t c { h with
    granted := some w, queue := rest, ended := h.ended ++ [(w, !rest.isEmpty)],
    sinceBg := if (s.nextBack t c).isSome then h.sinceBg + 1 else 0 }
  ((s1.pmcEdge t 0x20 c).sendBlock t c (s.memberOf t c w.spn) .readCw (w.spn % s.ppb t) w.unit w.offs).sense t c
    (w.spn / s.ppb t)

/-- A background window of some slots is on the bus. -/
def State.busBack (t c slots : Nat) (s : State) : State :=
  let h := s.chan t c
  (s.setChan t c { h with
    granted := some { kind := .background, line := 0, slots := slots, spn := 0, unit := 0, offs := [] } }).topDown t (8 + c)
      (if h.queue.isEmpty then 0 else 3) slots

/-- A free slot boundary of a channel. A read window's slots are counted once its codeword is decoded; a background
window's, and an idle slot, at once. -/
def State.grantSlot (t c : Nat) (s : State) : State :=
  let h := s.chan t c
  if h.rate == 3 then s
  else
    let s1 := if h.granted.isNone then s.pmcEdge t 0x27 c else s
    match s.pickWindow t c with
    | none => (s.setChan t c { h with granted := none }).topDown t (8 + c) 2 1
    | some (.load o n) => (s1.busBack t c (codewordSlots h.rate)).grantLoad t c o n
    | some (.back w) => (s1.busBack t c (w.kind.slots h.rate)).grantBack t c w
    | some (.read w) => s1.grantRead t c w

def execSlotGrant (tile ch : Nat) (s : State) : Host.Outcome State Fault Refusal :=
  withUnit (s.hasTile tile && decide (ch < 16)) (fun s => if s.mediaRuns tile then s.grantSlot tile ch else s) s

/-- A decoded codeword's window is counted: wasted where its transfer is discarded, starved-back where a read waited behind
it, otherwise retired (R501). -/
def State.countWindow (t c line : Nat) (discarded : Bool) (s : State) : State :=
  let h := s.chan t c
  match h.ended.find? (fun e => e.1.line == line) with
  | none => s
  | some e =>
    (s.setChan t c { h with ended := h.ended.erase e }).topDown t (8 + c)
      (if discarded then 1 else if e.2 then 3 else 0) e.1.slots

/-! ## Background work of a phase (R159, R170, R176, R178) -/

/-- Background windows join those that wait on a channel. -/
def State.queueBack (t c : Nat) (l : List BackWin) (s : State) : State :=
  s.setChan t c { s.chan t c with back := (s.chan t c).back ++ l }

/-- Whether a window of a kind waits or has been carried on a channel. -/
def State.hasBack (s : State) (t c : Nat) (k : BackKind) : Bool :=
  (s.chan t c).back.any (fun w => w.kind == k) || (s.chan t c).carried.any (fun w => w.kind == k)

/-- GET_TEMP of every target that answers, once per ms (R170). -/
def State.queueTemps (t c : Nat) (s : State) : State :=
  ((List.range 4).filter (fun k => (s.target t c k).present && decide ((s.target t c k).polledAt + 1000000 ≤ s.now))).foldl
    (fun (s : State) k => (s.setTarget t c k { s.target t c k with polledAt := s.now }).queueBack t c
      [{ kind := .temp, block := k * 2 ^ 24, spn := 0, unit := 0 }]) s

/-- Hours between two scrub reads of a codeword: MED_SCRUB.period_h, or 168 in the Mladlet profile (R178, R189). -/
def State.scrubHours (s : State) (t : Nat) : Nat :=
  if s.pwr.straps.profile then 168 else s.field .medScrub t 0 15 0

/-- The stripe page that the scrubber reads next on a channel: a programmed one not read for a period. Reads begin half a period
early, so that none is late (DESIGN CHOICE, assumption 98). -/
def State.scrubDue (s : State) (t c : Nat) : Option Nat :=
  ((s.pagesOf t).find? (fun e => e.2.programmed && !e.2.missing.contains c && s.carries t c (s.memberOf t c e.1) &&
    decide (tget (fun _ => 0) s.med.scrubbed (16 * pageKey t e.1 + c) + s.scrubHours t * 1800000000000 ≤ s.now))).map
      (fun e => e.1)

/-- The 32 codewords of that page join the background reads, where none of the scrubber's waits. -/
def State.queueScrub (t c : Nat) (s : State) : State :=
  if s.hasBack t c .scrub then s
  else
    match s.scrubDue t c with
    | none => s
    | some spn =>
      ({ s with med := { s.med with
        scrubbed := tset (fun _ => 0) s.med.scrubbed (16 * pageKey t spn + c) s.now } } : State).queueBack t c
          ((List.range 32).map (fun k => { kind := .scrub, block := s.memberOf t c spn, spn := spn, unit := k }))

/-- The member block of a channel that is calibrated next: one that a foreground read moved to the front, otherwise the first that
waits (R176). -/
def State.calNext (s : State) (t c : Nat) : Option Nat :=
  let mine (k : Nat) : Bool := k / 2 ^ 32 == chanKey t c && (tget (fun _ => ({} : MBlock)) s.med.mblocks k).uncal
  ((s.med.calFirst.find? mine).or ((s.med.mblocks.map (fun e => e.1)).find? mine)).map (fun k => k % 2 ^ 32)

/-- Up to 4 codeword windows of its calibration join the background reads. -/
def State.queueCal (t c : Nat) (s : State) : State :=
  if s.hasBack t c .calib then s
  else
    match s.calNext t c with
    | none => s
    | some m => s.queueBack t c (List.replicate 4 { kind := .calib, block := m, spn := 0, unit := 0 })

/-- The background windows that a phase finds due on the tile's channels. -/
def State.queueDue (t : Nat) (s : State) : State :=
  (List.range 16).foldl (fun (s : State) c =>
    if (s.chan t c).rate == 3 then s else ((s.queueTemps t c).queueScrub t c).queueCal t c) s

/-- A carried window of a kind about a member block is taken. -/
def State.takeBack (t c : Nat) (k : BackKind) (p : BackWin → Bool) (s : State) : State :=
  let h := s.chan t c
  s.setChan t c { h with carried := h.carried.eraseP (fun w => w.kind == k && p w) }

/-- Whether such a window has been carried. -/
def State.carriedBack (s : State) (t c : Nat) (k : BackKind) (p : BackWin → Bool) : Bool :=
  (s.chan t c).carried.any (fun w => w.kind == k && p w)

/-! ## Phases (R160, R161, R163) -/

/-- At most one operation of a plane runs in a phase: the first of each. -/
def onePerPlane (ops : List StartedOp) : List StartedOp :=
  ops.foldl (fun acc o => if acc.any (fun x => x.onPlane o.ch o.block) then acc else acc ++ [o]) []

/-- The operations of a phase group that start: every erase, and of each target at most half of its programs, rounded up,
while throttle is in force (R161, R163). -/
def startable (throttled : Bool) (ops : List StartedOp) : List StartedOp :=
  if !throttled then ops
  else
    ops.foldl (fun acc o =>
      let mine (x : StartedOp) : Bool := x.prog && x.ch == o.ch && x.target == o.target
      if !o.prog || decide ((acc.filter mine).length < ((ops.filter mine).length + 1) / 2) then acc ++ [o] else acc) []

/-- A table written by MEDIA_PROFILE applies from the next frame boundary (R174). -/
def State.applyTable (t : Nat) (s : State) : State :=
  match (s.spare t).next with
  | none => s
  | some b =>
    (s.setSpare t { s.spare t with loaded := some b, next := none }).showDrift t

/-- When the phase that runs now began: aligned on part time, or at the end of the stretch that made it wait (R160, R161). -/
def State.phaseStart (s : State) (t : Nat) : Nat := max (s.now / 24000 * 24000) (s.cal t).freeAt

/-- Whether a plane has a READ_CW that is not yet sensed: its packet left less than 140 ns ago (R161). -/
def State.unsensed (s : State) (t : Nat) (o : StartedOp) : Bool :=
  (s.chan t o.ch).sensing.any (fun e => e.1 == planeOf o.block && decide (s.now < e.2 + 140))

/-- An operation starts: its packet is sent, and STATUS of its target will be read (R151, R161). -/
def State.startOp (t : Nat) (o : StartedOp) (s : State) : State :=
  let w : BackWin := { kind := .status, block := o.block, spn := 0, unit := 0 }
  let asked := (s.chan t o.ch).back.any (fun x => x.kind == .status && blockTarget x.block == o.target)
  let s1 := (s.pmcEdge t (if o.prog then 0x24 else 0x25) o.ch).sendBlock t o.ch o.block
    (if o.prog then .program else .eraseSeg) (if o.prog then o.spn % s.ppb t else 0) o.seg []
  let v := s1.cal t
  let s2 := s1.setCal t { v with started := v.started ++ [o], due := v.due.erase o }
  if asked then s2 else s2.queueBack t o.ch [w]

/-- The operations of the running phase that are due start in its first 1 µs, each once its plane has no READ_CW that is not yet
sensed (R161). -/
def State.startDue (t : Nat) (s : State) : State :=
  if s.phaseStart t + 1000 ≤ s.now then s
  else ((s.cal t).due.filter (fun o => !s.unsensed t o)).foldl (fun s o => s.startOp t o) s

/-- A phase begins once in its 24 µs: its group's ready operations are due, one of each plane. It waits while the phase before it
is stretched or has operations that have not ended (R160, R161). Operations that could not start in time wait for the group's
next phase. -/
def State.startPhase (t : Nat) (s : State) : State :=
  let v := s.cal t
  if v.stretching.isSome then s
  else if v.begun == some (s.now / 24000) then s.startDue t
  else if !v.started.isEmpty then s
  else
    let g := s.phaseNow
    let ready := v.due ++ v.ready
    let go := startable (decide (2 ≤ s.levelOf t)) (onePerPlane (ready.filter (fun o => o.ch % 8 == g)))
    let s1 := (s.setCal t { v with
      phase := g, startAt := s.phaseStart t, begun := some (s.now / 24000), due := go,
      ready := ready.filter (fun o => !go.contains o) }).putField .calStat t 0 2 0 g
    let s2 := (s1.startDue t).queueDue t
    if g = 0 then s2.applyTable t else s2

def execPhaseStart (tile : Nat) (s : State) : Host.Outcome State Fault Refusal :=
  withUnit (s.hasTile tile) (fun s => if s.mediaRuns tile then s.startPhase tile else s) s

/-- An operation of a member block that has ended leaves the phase. -/
def State.endOp (t c block : Nat) (s : State) : State :=
  let v := s.cal t
  s.setCal t { v with started := v.started.filter (fun o => !(o.ch == c && o.block == block)) }

/-- The operations that `p` names are not started any more. -/
def State.cancelOps (t : Nat) (p : StartedOp → Bool) (s : State) : State :=
  let v := s.cal t
  (List.range 16).foldl (fun (s : State) x =>
    let h := s.chan t x
    s.setChan t x { h with loads := h.loads.filter (fun e => !p e.1) })
    (s.setCal t { v with ready := v.ready.filter (fun o => !p o), due := v.due.filter (fun o => !p o) })

/-- A failed program: its member block is retired with a cause, its stripe page is programmed again elsewhere, and its
staged buffers and notes stay (R121, R132, R182). -/
def State.programFailed (t c block spn cause : Nat) (s : State) : State :=
  ((((((s.endOp t c block).cancelOps t (fun o => o.prog && o.spn == spn)).copyAgain t spn).failPage t spn).bump
    .medPfail t 0).retireBlock t c block cause).settleOwn t

/-- A failed erase segment leaves its stripe block degraded, and the failed member is retired (R183). -/
def State.eraseFailed (t c block cause : Nat) (s : State) : State :=
  (((s.endOp t c block).cancelOps t (fun o => !o.prog && o.ch == c && o.block == block)).bump .medEfail t 0).retireBlock
    t c block cause

/-- A target still busy at the check stretches the phase (R161). -/
def State.stretch (t : Nat) (s : State) : State :=
  let v := s.cal t
  if v.stretching.isSome then s
  else
    ((((s.setCal t { v with stretching := some s.now }).putField .calStat t 0 30 30 1).bump .calStretches t 0).pmcEdge
      t 0x26 v.phase).pmcEdge t 0x26 (v.phase + 8)

/-- A phase is no longer stretched once nothing of it is busy. -/
def State.unstretch (t : Nat) (s : State) : State :=
  let v := s.cal t
  if v.started.isEmpty && v.stretching.isSome then
    (s.setCal t { v with stretching := none, freeAt := s.now }).putField .calStat t 0 30 30 0
  else s

/-- The STATUS of one started operation. -/
def State.opStatus (t : Nat) (s : State) (e : OpStatus) : State :=
  match (s.cal t).started.find? (fun o => o.ch == e.ch && o.target == e.target && o.block == e.block) with
  | none => s
  | some o =>
    match e.status with
    | .done => s.endOp t o.ch o.block
    | .busy => s.stretch t
    | .progFail => if o.prog then s.programFailed t o.ch o.block o.spn 1 else s.endOp t o.ch o.block
    | .eraseFail => if o.prog then s.endOp t o.ch o.block else s.eraseFailed t o.ch o.block 2

/-- A status window of a target is taken, and its count of command CRC errors starts anew (R151); while one of its operations runs, another is asked for. -/
def State.statusTaken (t c k : Nat) (s : State) : State :=
  let s0 := s.takeBack t c .status (fun w => blockTarget w.block == k)
  let s1 := s0.setTarget t c k { s0.target t c k with crcErrs := 0 }
  if (s1.cal t).started.any (fun o => o.ch == c && o.target == k) then
    s1.queueBack t c [{ kind := .status, block := k * 2 ^ 24, spn := 0, unit := 0 }]
  else s1

/-- The completion check: what the STATUS of those targets says whose status windows have been carried (R161). -/
def State.checkPhase (t : Nat) (ends : List OpStatus) (s : State) : State :=
  let got := ends.filter (fun e => s.carriedBack t e.ch .status (fun w => blockTarget w.block == e.target))
  let s1 := got.foldl (State.opStatus t) s
  (((got.map (fun e => (e.ch, e.target))).eraseDups).foldl (fun s x => s.statusTaken t x.1 x.2) s1).unstretch t

def execPhaseStatusCheck (tile : Nat) (ends : List OpStatus) (s : State) : Host.Outcome State Fault Refusal :=
  withUnit (s.hasTile tile) (fun s =>
    if s.mediaRuns tile && decide ((s.cal tile).startAt + 21500 ≤ s.now) then s.checkPhase tile ends else s) s

/-- A target fails: its channel shows degraded, and every stripe block with a member on it becomes degraded (R153, R164,
R183). -/
def State.failTarget (t c k : Nat) (s : State) : State :=
  let s1 := s.setTarget t c k { s.target t c k with failed := true }
  (((s1.setChan t c { s1.chan t c with degraded := true }).degrade t c (fun b => blockTarget b == k)).showBlocks t).spareCheck t

/-- A stretched phase reaches 16 µs: the target is reset and marked degraded, and its operation has failed (R161, R182,
R183). The expiry is an event of the channel engine's source (R403). -/
def State.expireStretch (t c k block : Nat) (prog : Bool) (s : State) : State :=
  match (s.cal t).started.find? (fun o => o.ch == c && o.target == k && o.block == block && o.prog == prog) with
  | none => s
  | some o =>
    if (s.cal t).stretching.all (fun w => decide (s.now < w + 16000)) then s
    else
      let s1 := ((s.sendPacket t c k { cmd := .reset }).bump .calResets t 0).fault t (srcId 0x01 c) { aux := c }
      let s2 := if prog then s1.programFailed t c block o.spn 3 else s1.eraseFailed t c block 3
      (s2.unstretch t).failTarget t c k

def execStretchExpiry (tile ch target block : Nat) (prog : Bool) (s : State) : Host.Outcome State Fault Refusal :=
  withUnit (s.hasTile tile && decide (ch < 16) && decide (target < 4)) (fun s =>
    if s.mediaRuns tile then s.expireStretch tile ch target block prog else s) s

/-! ## Line reads (R146, R164 to R168) -/

/-- Where the entries say a line is on media: its stripe page, data position and quarter. -/
def State.mediaPlace (s : State) (line : Nat) : Option (Nat × Nat × Nat) :=
  match s.placeOf line with
  | .media spn pos q => if s.lostFolio (folioOf line) then none else some (spn, pos, q)
  | .unmapped | .split _ | .lost => none

def State.lineRead (s : State) (line : Nat) : Option LineRead := tget (fun _ => none) s.med.reads line

def State.setLineRead (line : Nat) (v : Option LineRead) (s : State) : State :=
  { s with med := { s.med with reads := tset (fun _ => none) s.med.reads line v } }

/-- The offsets that every READ_CW of a line's read carries: those of the member that holds it (R166). -/
def State.readOffs (s : State) (t line : Nat) : List Byte :=
  match s.mediaPlace line with
  | some (spn, p, _) => s.memberOffs t (dataChan spn p) spn
  | none => []

/-- The codeword that holds a line (R141). -/
def State.readUnit (s : State) (line : Nat) : Nat :=
  match s.mediaPlace line with
  | some (_, _, q) => pageUnit (pageLine q (line % 32))
  | none => 0

/-- A read window of a line on a channel. -/
def State.readWindow (s : State) (t c spn line : Nat) (k : WindowKind) (offs : List Byte) : Window :=
  { kind := k, line := line, slots := codewordSlots (s.chan t c).rate, spn := spn, unit := s.readUnit line, offs := offs }

/-- A read window enters a channel's queue; a foreground read of an uncalibrated block moves it to the front (R176). -/
def State.ask (t spn line : Nat) (k : WindowKind) (offs : List Byte) (c : Nat) (s : State) : State :=
  let h := s.chan t c
  (s.setChan t c { h with queue := h.queue ++ [s.readWindow t c spn line k offs] }).wantCal t c (s.memberOf t c spn)

/-- A held rescue command is placed in a channel's engine (R343). -/
def State.hold (t line c : Nat) (s : State) : State :=
  let h := s.chan t c
  s.setChan t c { h with heldCmds := h.heldCmds ++ [(line, s.now)] }

/-- The held rescue commands of a line are dropped (R343). -/
def State.unhold (t line : Nat) (s : State) : State :=
  (List.range 16).foldl (fun (s : State) c =>
    let h := s.chan t c
    s.setChan t c { h with heldCmds := h.heldCmds.filter (fun e => e.1 != line) }) s

/-- The line cannot be rebuilt: its read ends (R164). -/
def State.endLost (t line n : Nat) (s : State) : State :=
  ((s.setLineRead line none).unhold t line).mediaLost line (some n)

/-- A line's read begins on some members. -/
def State.beginRead (t spn line : Nat) (r : LineRead) (s : State) : State :=
  let offs := s.readOffs t line
  let s1 := r.asked.foldl (fun s c =>
    s.ask t spn line (if r.mode != .rescue && c == r.member then .foreground else .rescue) offs c) s
  s1.setLineRead line (some r)

/-- The home's dispatcher chooses direct, rescue or hedged (R164 to R168, R180, R189), and counts it. -/
def State.dispatch (t line : Nat) (s : State) : State :=
  match s.mediaPlace line with
  | none => s
  | some (spn, p, _) =>
    let c := dataChan spn p
    let avail := s.available t spn
    let r : LineRead := { mode := s.readMode t c spn, member := c, asked := avail, good := [], failed := [] }
    if (s.page t spn).isNone || (s.lineRead line).isSome || s.home line != t then s
    else if avail.length < 12 then s.endLost t line (16 - avail.length)
    else
      match s.readMode t c spn with
      | .rescue => ((s.beginRead t spn line r).bump .medBusyrec t 0).pmcEdge t 0x21 c
      | .hedged =>
        let s2 := ((s.beginRead t spn line r).bump .medHedge t 0).pmcEdge t 0x22 c
        if s.driftMargin t c spn = 2 then s2.schedule t (spn / s.ppb t) else s2
      | .direct | .second =>
        (avail.filter (· != c)).foldl (fun s x => s.hold t line x) (s.beginRead t spn line { r with asked := [c] })

def execLineReadDispatch (tile line : Nat) (s : State) : Host.Outcome State Fault Refusal :=
  withUnit (s.hasTile tile) (fun s => if s.mediaRuns tile then s.dispatch tile line else s) s

/-- The line check of a directly decoded codeword (R381, R396): KID, then tag; an injection into one of these checkers
makes it fail (R411). A mismatch is a security halt. -/
def State.checkDirect (t line : Nat) (kidOk tagOk : Bool) (s : State) : State :=
  let (k, s1) := s.check t (srcId 0x14 1)
  if k || !kidOk then s1.securityHalt 2 t (128 * line)
  else
    let (g, s2) := s1.check t (srcId 0x14 0)
    if g || !tagOk then s2.securityHalt 1 t (128 * line) else s2

/-- The line check of a rebuilt line (R381): a mismatch makes it unrecoverable, with no halt. -/
def State.checkRebuilt (t line n : Nat) (kidOk tagOk : Bool) (s : State) : State :=
  let (k, s1) := s.check t (srcId 0x14 1)
  if k || !kidOk then
    ((s1.bump .cryTagRecon t 0).fault t (srcId 0x14 1) { inject := k, addr := 128 * line }).endLost t line n
  else
    let (g, s2) := s1.check t (srcId 0x14 0)
    if g || !tagOk then
      ((s2.bump .cryTagRecon t 0).fault t (srcId 0x14 0) { inject := g, addr := 128 * line }).endLost t line n
    else (s2.setLineRead line none).unhold t line

/-- A rescue goes on or ends: rebuilt from 12 good members, or unrecoverable with more than 4 missing (R164, R166). A
hedged read waits for its direct codeword first (R167). -/
def State.settleRead (t line : Nat) (kidOk tagOk : Bool) (r : LineRead) (s : State) : State :=
  let waitsDirect := r.mode == .hedged && !r.failed.contains r.member
  let left := r.asked.filter (fun c => !r.good.contains c && !r.failed.contains c)
  if waitsDirect then s.setLineRead line (some r)
  else if 12 ≤ r.good.length then s.checkRebuilt t line r.failed.length kidOk tagOk
  else if r.good.length + left.length < 12 then s.endLost t line (16 - r.good.length - left.length)
  else s.setLineRead line (some r)

/-- A codeword that a window carried returns and is decoded (R166 to R168, R361, R381, R403). -/
def State.decoded (t line c : Nat) (ecc : Ecc) (kidOk tagOk : Bool) (s : State) : State :=
  match (s.chan t c).ended.find? (fun e => e.1.line == line) with
  | none => s
  | some (w, _) =>
    let spn := w.spn
    let b := spn / s.ppb t
    let (par, s0) := s.passItem t (42 + c)
    let (inj, s1) := if par then (false, s0) else s0.check t (s.targetSrc t c spn)
    let bad := ecc == .bad || inj || par
    let s2 := if bad && !par then s1.fault t (s1.targetSrc t c spn) { inject := inj, addr := 128 * line } else s1
    let s3 := match ecc with
      | .corrected n => if par then s2 else s2.mladBits t c b n
      | .clean | .bad => s2
    match s3.lineRead line with
    | none => s3.countWindow t c line true
    | some r =>
      if !r.asked.contains c || r.good.contains c || r.failed.contains c then s3.countWindow t c line true
      else
        let direct := c == r.member && (r.mode == .direct || r.mode == .hedged)
        let s4 := s3.countWindow t c line bad
        if direct && !bad then ((s4.setLineRead line none).unhold t line).checkDirect t line kidOk tagOk
        else if direct then
          let s5 := (s4.pmcEdge t 0x23 c).mladBits t c b 16
          if r.mode == .hedged then s5.settleRead t line kidOk tagOk { r with failed := r.failed ++ [c] }
          else
            let more := (s5.available t spn).filter (· != c)
            let s6 := more.foldl (fun s x => s.ask t spn line .rescue w.offs x) ((s5.unhold t line).bump .medRecon t 0)
            s6.settleRead t line kidOk tagOk { r with mode := .second, asked := more, failed := [c] }
        else if bad then s4.settleRead t line kidOk tagOk { r with failed := r.failed ++ [c] }
        else s4.settleRead t line kidOk tagOk { r with good := r.good ++ [c] }

def execCodewordDecoded (tile line ch : Nat) (ecc : Ecc) (kidOk tagOk : Bool) (s : State) :
    Host.Outcome State Fault Refusal :=
  withUnit (s.hasTile tile && decide (ch < 16)) (fun s =>
    if s.mediaRuns tile then s.decoded tile line ch ecc kidOk tagOk else s) s

/-- A held rescue command neither released nor cancelled within 2 µs is dropped (R343). -/
def execRescueHoldTimeout (tile ch line : Nat) (s : State) : Host.Outcome State Fault Refusal :=
  withUnit (s.hasTile tile && decide (ch < 16)) (fun s =>
    let h := s.chan tile ch
    s.setChan tile ch { h with
      heldCmds := h.heldCmds.filter (fun e => !(e.1 == line && decide (e.2 + 2000 ≤ s.now))) }) s

/-! ## Temperature and alerts (R170, R442) -/

/-- The band of a temperature in 0.125 °C: ⌊(t + 10) / 10⌋, limited to 0 to 11 (R170). -/
def bandOf (eighths : Int) : Nat := min 11 ((eighths + 80) / 80).toNat

/-- The band after a reading, which must pass the band edge by the hysteresis (R170). -/
def nextBand (cur hyst : Nat) (eighths : Int) : Nat :=
  let up := bandOf (eighths - degC hyst)
  let down := bandOf (eighths + degC hyst)
  if cur < up then up else if down < cur then down else cur

/-- The stripe blocks of a tile with an entry that is critical now are scheduled for rewrite (R180). -/
def State.scheduleCritical (t : Nat) (s : State) : State :=
  (s.blocksOf t).foldl (fun s e =>
    if !e.2.free && (List.range 16).any (fun c => s.critical t c e.1) then s.schedule t e.1 else s) s

/-- A target's temperature, read in a status window (R170). -/
def State.pollMedia (t c k : Nat) (e : Int) (s : State) : State :=
  let mine (w : BackWin) : Bool := blockTarget w.block == k
  if !s.carriedBack t c .temp mine then s
  else
    let v := s.target t c k
    (((s.takeBack t c .temp mine).setTarget t c k { v with
      temp := e, band := nextBand v.band (s.field .drfHyst t 0 3 0) e, hot := decide (degC 95 ≤ e) }).scheduleCritical
        t).relevel t

def execMediaTempPoll (tile ch target : Nat) (eighths : Int) (s : State) : Host.Outcome State Fault Refusal :=
  withUnit (s.hasTile tile && decide (ch < 16) && decide (target < 4)) (fun s =>
    if s.mediaRuns tile then s.pollMedia tile ch target eighths else s) s

/-- A target asserts MC_ALERT_N: a command CRC error is counted and is an event of the channel engine's source; a thermal
alarm forces throttle while it lasts (R151, R155, R190, R403, R442). The target counts the error in byte 2 of its STATUS too. -/
def State.mediaAlert (t c k : Nat) (crc thermal : Bool) (s : State) : State :=
  let s1 := if crc then
      (s.setChan t c { s.chan t c with caCrc := min 65535 ((s.chan t c).caCrc + 1) }).fault t (srcId 0x01 c) { aux := c }
    else s
  let v := s1.target t c k
  (s1.setTarget t c k { v with alert := thermal, crcErrs := if crc then min 255 (v.crcErrs + 1) else v.crcErrs }).relevel t

def execMediaAlert (tile ch target : Nat) (crc thermal : Bool) (s : State) : Host.Outcome State Fault Refusal :=
  withUnit (s.hasTile tile && decide (ch < 16) && decide (target < 4)) (fun s =>
    if s.mediaRuns tile then s.mediaAlert tile ch target crc thermal else s) s

/-! ## Calibration and scrubbing (R176, R178) -/

/-- The classes of a calibration are a binary search over 0 to 15: it starts at 8, and each next one lies 4, 2, then 1 above or
below the last; on which side is the part's choice (DESIGN CHOICE, assumption 98). -/
def binarySearch : Nat → Nat → List Nat → Bool
  | _, _, [] => true
  | at', step, c :: l => (c == at' + step || c + step == at') && binarySearch c (step / 2) l

def calClasses (l : List Nat) : Bool :=
  match l with
  | [] => false
  | c :: rest => c == 8 && decide (rest.length < 4) && binarySearch 8 4 rest

/-- The offsets for a block's newest eighth at an age class (R173, R176). -/
def State.classOffs (s : State) (t c m cls : Nat) : List Byte :=
  let v := s.mblock t c m
  let cb := (s.target t c (blockTarget m)).band
  let wb := ((v.marks.getLast?).map (fun e => e.2.2)).getD cb
  ((s.driftTable t).drop (64 + 4 * driftEntry cls wb cb)).take 3

/-- A calibration reads one codeword of the newest eighth at the offsets of its classes (R150, R176). Which codeword is left open;
the model reads codeword 0 of the eighth's first page (DESIGN CHOICE, assumption 98). -/
def State.calReads (t c m : Nat) (l : List Nat) (s : State) : State :=
  let e := (((s.mblock t c m).marks.getLast?).map (fun e => e.1)).getD 0
  l.foldl (fun (s : State) cls =>
    (s.sendBlock t c m .readCw (e * s.ppb t / 8) 0 (s.classOffs t c m cls)).startSense t c m) s

/-- The senses of a calibration count for the stripe block that the member lies in (R179). -/
def State.calSenses (t c m n : Nat) (s : State) : State :=
  match (s.blocksOf t).find? (fun e => !e.2.free && e.2.member c == m) with
  | some e => s.countSenses t c m e.1 n
  | none => s.setMblock t c m { s.mblock t c m with senses := some (s.senses t c m + n) }

/-- Whether every read of a calibration has been carried. -/
def State.calCarried (s : State) (t c m : Nat) (n : Nat) : Bool :=
  decide (n ≤ ((s.chan t c).carried.filter (fun w => w.kind == .calib && w.block == m)).length)

/-- The windows of a calibration are done with. -/
def State.calTaken (t c m : Nat) (s : State) : State :=
  let keep (w : BackWin) : Bool := !(w.kind == .calib && w.block == m)
  let h := s.chan t c
  let s1 := s.setChan t c { h with back := h.back.filter keep, carried := h.carried.filter keep }
  { s1 with med := { s1.med with calFirst := s1.med.calFirst.filter (fun k => k != mblockKey t c m) } }

/-- A calibration takes the class that decodes with the fewest corrected bits, the first read among equals; the block's effective
write time is then the lower edge of that class (R176). -/
def State.calibrate (t c m : Nat) (l : List (Nat × Nat)) (s : State) : State :=
  let v := s.mblock t c m
  match l with
  | [] => s
  | x :: rest =>
    if !v.uncal || !calClasses (l.map (fun e => e.1)) || !s.calCarried t c m l.length then s
    else
      let best := rest.foldl (fun a y => if y.2 < a.2 then y else a) x
      ((((s.calReads t c m (l.map (fun e => e.1))).calTaken t c m).setMblock t c m { v with
        uncal := false, ageCls := best.1, calAt := s.now }).calSenses t c m l.length).showUncal t

def execCalibrationRead (tile ch block : Nat) (corrected : List (Nat × Nat)) (s : State) :
    Host.Outcome State Fault Refusal :=
  withUnit (s.hasTile tile && decide (ch < 16)) (fun s =>
    if s.mediaRuns tile then s.calibrate tile ch block corrected else s) s

/-- The codewords of the other members of a stripe page are read to rebuild one that failed (R178). -/
def State.scrubRebuild (t c : Nat) (w : BackWin) (s : State) : State :=
  ((s.available t w.spn).filter (· != c)).foldl (fun s x =>
    s.queueBack t x [{ kind := .weed, block := s.memberOf t x w.spn, spn := w.spn, unit := w.unit }]) s

/-- Corrected bits that schedule a rewrite: more than MED_SCRUB.rewrite_bits of one codeword, or in the Mladlet profile the count
of the block (R178, R189). -/
def State.scrubBits (t c b n : Nat) (s : State) : State :=
  let s1 := s.mladBits t c b n
  if !s.pwr.straps.profile && decide (s.field .medScrub t 0 31 24 < n) then s1.schedule t b else s1

/-- The line of a codeword that the scrubber's tag check names, if it is live data (R366). -/
def State.scrubLine (s : State) (t c : Nat) (w : BackWin) (i : Nat) : Option Nat :=
  ((s.page t w.spn).bind (fun p => p.quarter (4 * memberPos w.spn c + w.unit / 8))).bind (fun x =>
    if memberPos w.spn c < 12 && !(s.pointsAt w.spn x.1.piece).isEmpty then some (32 * x.2 + 4 * (w.unit % 8) + i % 4)
    else none)

/-- The media scrubber reads a codeword of a member block on stripe page `spn` in a background window: many corrected bits, or a
failure, schedule its stripe block for rewrite, and a codeword that fails is rebuilt; the tags of one that decodes are checked
(R178, R189, R366, R381, R403). -/
def State.scrubRead (t c m spn : Nat) (ecc : Ecc) (forged : Option (Nat × Nat)) (s : State) : State :=
  let b := spn / s.ppb t
  match (s.chan t c).carried.find? (fun w => w.kind == .scrub && w.block == m && w.spn == spn) with
  | none => s
  | some w =>
    let s0 := s.takeBack t c .scrub (· == w)
    if (s.page t spn).isNone || (s.block t b).member c != m then s0
    else
      let (inj, s1) := s0.check t (s0.targetSrc t c spn)
      if inj || ecc == .bad then
        let s2 := (s1.fault t (s1.targetSrc t c spn) { inject := inj }).scrubRebuild t c w
        if s.pwr.straps.profile then s2.mladBits t c b 16 else s2.schedule t b
      else
        let s2 := match ecc with
          | .corrected n => s1.scrubBits t c b n
          | .clean | .bad => s1
        match forged with
        | none => s2
        | some (i, cause) =>
          match s.scrubLine t c w i with
          | some line => s2.securityHalt (if cause = 2 then 2 else 1) t (128 * line)
          | none => s2

def execMediaScrubRead (tile ch block spn : Nat) (ecc : Ecc) (forged : Option (Nat × Nat)) (s : State) :
    Host.Outcome State Fault Refusal :=
  withUnit (s.hasTile tile && decide (ch < 16)) (fun s =>
    if s.mediaRuns tile then s.scrubRead tile ch block spn ecc forged else s) s

end Sys2Proof.Machine
end

