-- ==== Sys2Proof/Machine/Passes.lean ====
section
/-! DEFINITION. One-sided resets of passes (R355 to R358) and saddle frames (R27, R344). -/

namespace Sys2Proof.Machine

/-- A pass is closed between its reset and its reopening. -/
def passKey (t n : Nat) : Nat := 128 * t + n

def State.passClosed (s : State) (t n : Nat) : Bool := tget (fun _ => false) s.cry.passes (passKey t n)

def State.setPass (t n : Nat) (closed : Bool) (s : State) : State :=
  { s with cry := { s.cry with passes := tset (fun _ => false) s.cry.passes (passKey t n) closed } }

/-- The tile whose passes a reset closes. -/
def resetTileOf : PassReset → Nat
  | .curator t _ | .hostPort t _ | .media t _ | .ddr t _ | .port t | .saddle t _ => t

/-- The passes that a reset closes, lowest first (R356). -/
def resetPasses : PassReset → List Nat
  | .curator _ _ => [84, 85, 86, 87, 113]
  | .hostPort _ _ => [0, 1, 90]
  | .media _ c => [26 + c, 42 + c, 58 + c, 92 + c]
  | .ddr _ k => [74 + k, 76 + k, 108 + k]
  | .port _ => (List.range 24).map (· + 2) ++ [91]
  | .saddle _ k => [78 + k, 81 + k, 110 + k]

/-- The side that is reset is the lowest pass's receiving side (R355). -/
def resetReceives : PassReset → Bool
  | .curator _ _ | .hostPort _ _ | .port _ => false
  | .media _ _ | .ddr _ _ | .saddle _ _ => true

/-- Whether the reset is orderly (R356). -/
def resetOrderly : PassReset → Bool
  | .curator _ o | .hostPort _ o => o
  | .media _ _ | .ddr _ _ | .port _ | .saddle _ _ => false

/-- Whether an abort follows (R356): always for a port island; for the host island's fault reset, a DDR5 controller and a
saddle interface where a write was discarded. -/
def resetAborts (r : PassReset) (writes : Bool) : Bool :=
  match r with
  | .port _ => true
  | .hostPort _ o => !o && writes
  | .ddr _ _ | .saddle _ _ => writes
  | .curator _ _ | .media _ _ => false

/-- The unit of a reset exists on the member. -/
def State.hasReset (s : State) (r : PassReset) : Bool :=
  s.hasTile (resetTileOf r) &&
    match r with
    | .curator t _ => decide (t < 2)
    | .hostPort p _ => s.hasPort p
    | .media _ c => decide (c < 16)
    | .ddr _ k => decide (k < 2)
    | .port _ => true
    | .saddle _ k => decide (k < 3) && s.hasSaddle k

/-- PAS_LAST of a reset (R358). -/
def lastWord (items : Nat) (writes orderly side : Bool) (pass : Nat) : Nat :=
  min items 65535 * 2 ^ 16 + (if writes then 2 ^ 15 else 0) + (if orderly then 2 ^ 14 else 0)
    + (if side then 2 ^ 13 else 0) + pass

/-- Steps 1 to 4 of R355 on a tile: the passes close, the reset is counted with the items it discarded, and the
crossing-reset source has one event. -/
def State.closePasses (t : Nat) (l : List Nat) (items : Nat) (writes orderly side : Bool) (s : State) : State :=
  let s1 := l.foldl (fun s n => s.setPass t n true) s
  ((((s1.bump .pasResets t 0).count .pasDiscard t 0 31 0 items).putReg .pasLast t 0
    (lastWord items writes orderly side (l.headD 0))).fault t (srcId 0x07 0) { aux := l.headD 0 })

/-! ## What the reset unit loses (R356) -/

/-- A line read that had asked a channel: a direct one is rescued from the other members, any other goes on without it. -/
def State.rescueRead (t c line : Nat) (s : State) : State :=
  match s.lineRead line, s.mediaPlace line with
  | some r, some (spn, _, _) =>
    if !r.asked.contains c || r.good.contains c || r.failed.contains c then s
    else if r.mode == .direct then
      let more := (s.available t spn).filter (· != c)
      let s1 := more.foldl (fun s x => s.ask t spn line .rescue (s.readOffs t line) x) ((s.unhold t line).bump .medBusyrec t 0)
      s1.settleRead t line true true { r with mode := .rescue, asked := more, failed := [c] }
    else s.settleRead t line true true { r with failed := r.failed ++ [c] }
  | _, _ => s

/-- A media channel engine is reset: program loads are redone, reads in flight are rescued with the member unavailable. -/
def State.resetChannel (t c : Nat) (s : State) : State :=
  let h := s.chan t c
  let s1 := s.setChan t c { h with
    engineReset := true, queue := [], granted := none, heldCmds := [], ended := [],
    loads := h.loads.map (fun e => (e.1, pageChunks)) }
  ((s1.med.reads.map (fun e => e.1)).filter (fun l => s1.home l == t)).foldl (fun s l => s.rescueRead t c l) s1

/-- A port island is reset: its records are rewound, the words in flight are lost and its ports leave ACTIVE (R320, R356). -/
def State.resetPortIsland (t : Nat) (s : State) : State :=
  let s1 := (List.range 8).foldl (fun s p => ((s.rewindPort t p 4).leaveActive t p).loseFifo t p 4) s
  (List.range 8).foldl (fun (s : State) p => if (s.sport t p).st == .failed then s
    else (s.setSport t p (s.sport t p).off).idleLanes t (s.portLanes t p)) s1

/-- What a reset takes from the unit it resets. -/
def State.resetUnit (r : PassReset) (s : State) : State :=
  match r with
  | .media t c => s.resetChannel t c
  | .port t => s.resetPortIsland t
  | .curator _ _ | .hostPort _ _ | .ddr _ _ | .saddle _ _ => s

/-- The fault sources of the unit that a reset names. -/
def resetSource (r : PassReset) (id : Nat) : Bool :=
  match r with
  | .curator _ _ => id / 128 == 0x0D || id / 128 == 0x0F
  | .hostPort _ _ => id / 128 == 0x0C
  | .media _ c => id == srcId 0x01 c || id / 4 == srcId 0x02 (4 * c) / 4
  | .ddr _ k => id == srcId 0x03 k || id / 2 == srcId 0x04 (2 * k) / 2
  | .port _ => id / 128 == 0x09 || id / 128 == 0x0A || id / 128 == 0x0B
  | .saddle _ k => id == srcId 0x08 k

/-- Armed injections are lost on a reset of their source's block (R411). -/
def State.disarm (r : PassReset) (s : State) : State :=
  { s with flt := { s.flt with
    inj := s.flt.inj.filter (fun j => !(j.tile == resetTileOf r && resetSource r j.source)) } }

/-- A one-sided reset: the unit loses what it held, its passes close and an abort follows where R356 says so. A reset whose
passes are closed already is none (R355). -/
def State.passReset (r : PassReset) (items : Nat) (writes : Bool) (s : State) : State :=
  let t := resetTileOf r
  if !s.tileRuns t || s.passClosed t ((resetPasses r).headD 0) then s
  else
    let a := resetAborts r writes
    let s1 := ((s.resetUnit r).disarm r).closePasses t (resetPasses r) items a (resetOrderly r) (resetReceives r)
    if a then s1.startAbort else s1

def execPassReset (r : PassReset) (items : Nat) (writes : Bool) (s : State) : Host.Outcome State Fault Refusal :=
  withUnit (s.hasReset r) (fun s => if s.coreUp then s.passReset r items writes else s) s

/-- Step 5 of R355: the pass is open and empty. A media engine back in service is available again, and a port island's
enabled ports train once its first pass reopens. -/
def execPassReopen (tile pass : Nat) (s : State) : Host.Outcome State Fault Refusal :=
  withUnit (s.hasPass tile pass) (fun s =>
    if !s.passClosed tile pass then s
    else
      let s1 := s.setPass tile pass false
      if 26 ≤ pass ∧ pass < 42 then
        s1.setChan tile (pass - 26) { s1.chan tile (pass - 26) with engineReset := false }
      else if pass = 2 && s.portsUp then s1.trainPorts tile
      else s1) s

/-! ## Saddle frames (R27, R344) -/

def linkKey (t k : Nat) : Nat := 4 * t + k

/-- A saddle link goes down at both its tiles: a degraded fault, or on the VZM-2020 the failure of tile 1 (R27). -/
def State.linkDown (t k : Nat) (s : State) : State :=
  let down (u : Nat) (m : Tbl (BitVec 3)) : Tbl (BitVec 3) :=
    tset (fun _ => 0) m u (tget (fun _ => (0 : BitVec 3)) m u &&& ~~~(BitVec.ofNat 3 (2 ^ k)))
  let s1 : State := { s with coh := { s.coh with
    saddleUp := down (t ^^^ 2 ^ k) (down t s.coh.saddleUp), replay := tset (fun _ => false) s.coh.replay (linkKey t k) false } }
  let s2 := s1.fault t (srcId 0x08 k) { minSev := 2, aux := k }
  if s.member = .vzm2020 then s2.failTile 1 else s2.reroute t k

/-- A tile sends a frame on a link (R344). One that fails its CRC is replayed once, counted and an event of the link's source; a second failure takes the
link down (R344). An injection into the frame checker makes a frame fail, one into the pass to the link is only an event (R361,
R411). -/
def State.frame (t k : Nat) (crcOk : Bool) (s : State) : State :=
  let (inj, s1) := (((s.pmcEdge t 0x50 k).pmcEdge t 0x52 k).passItem t (78 + k)).2.check t (srcId 0x08 k)
  let again := tget (fun _ => false) s1.coh.replay (linkKey t k)
  if crcOk && !inj then
    { s1 with coh := { s1.coh with replay := tset (fun _ => false) s1.coh.replay (linkKey t k) false } }
  else if again then s1.linkDown t k
  else
    let s2 := ((s1.bump .slReplay t k).pmcEdge t 0x51 k).fault t (srcId 0x08 k) { inject := inj, aux := k }
    { s2 with coh := { s2.coh with replay := tset (fun _ => false) s2.coh.replay (linkKey t k) true } }

def execSaddleFrame (tile k : Nat) (crcOk : Bool) (s : State) : Host.Outcome State Fault Refusal :=
  withUnit (s.hasTile tile && decide (k < 3) && s.hasSaddle k) (fun s =>
    if s.coreUp && (tget (fun _ => (0 : BitVec 3)) s.coh.saddleUp tile).getLsbD k then s.frame tile k crcOk else s) s

end Sys2Proof.Machine
end

