-- ==== Sys2Proof/Machine/Curators.lean ====
section
/-! DEFINITION. The Curator units: roles, failover and restarts (R426 to R431), the mailbox (R432, R433), firmware (R444 to
R448) and attestation (R449 to R454). -/

namespace Sys2Proof.Machine

/-! ## Images and versions (R443, R445) -/

/-- An image slot changes; CUR_FW_IMG shows its version, 0 where it is not valid (R462). -/
def State.setImage (t b : Nat) (v : Image) (s : State) : State :=
  ({ s with cur := { s.cur with images := tset (fun _ => {}) s.cur.images (2 * t + b) v } } : State).putReg
    .curFwImg 0 (2 * t + b) (if v.valid then v.version.toNat else 0)

/-- The place of a byte of an image slot. -/
def chunkKey (t b off : Nat) : Nat := imageSpace * (2 * t + b) + off

/-- Bytes written into an image slot from an offset on. -/
def State.writeChunk (t b off : Nat) (l : List Byte) (s : State) : State :=
  { s with cur := { s.cur with
      chunks := (l.foldl (fun (a : Nat × Tbl Byte) x => (a.1 + 1, tset (fun _ => 0xFF) a.2 (chunkKey t b a.1) x))
        (off, s.cur.chunks)).2 } }

/-- `n` entries of a table of bytes from a key on, FFh where none is listed. -/
def bytesFrom : Nat → Nat → Tbl Byte → List Byte
  | 0, _, _ => []
  | n + 1, k, l =>
    match l.dropWhile (fun e => decide (e.1 < k)) with
    | (j, v) :: r => if j = k then v :: bytesFrom n (k + 1) r else 0xFF :: bytesFrom n (k + 1) ((j, v) :: r)
    | [] => 0xFF :: bytesFrom n (k + 1) []

/-- `n` bytes of an image slot from an offset on. -/
def State.slotBytes (s : State) (t b off n : Nat) : List Byte := bytesFrom n (chunkKey t b off) s.cur.chunks

/-- An image is copied into another slot (R447). -/
def State.copyImage (t b t' b' : Nat) (s : State) : State :=
  let own := (s.cur.chunks.filter (fun e => e.1 / imageSpace == 2 * t + b)).map (fun e =>
    (chunkKey t' b' (e.1 % imageSpace), e.2))
  let s1 : State := { s with cur := { s.cur with
    chunks := own.foldl (fun m e => tset (fun _ => 0xFF) m e.1 e.2)
      (tdrop (fun k => k / imageSpace == 2 * t' + b') s.cur.chunks) } }
  s1.setImage t' b' (s.image t b)

/-- The slot a unit runs from. -/
def State.runSlot (s : State) (t : Nat) : Nat := tget (fun _ => 0) s.cur.runSlot t

def State.setRunSlot (t b : Nat) (s : State) : State :=
  { s with cur := { s.cur with runSlot := tset (fun _ => 0) s.cur.runSlot t b } }

/-- The version a unit runs: its image's, or a free value where that image has not been measured. -/
def State.runVersion (s : State) (t : Nat) : Word :=
  let v := s.image t (s.runSlot t)
  if v.valid then v.version else (Config.free s.freeCtr).setWidth 32

/-! ## The mailbox (R432, R433) -/

/-- The reply to a mailbox request: its status and result, and the mailbox is no longer busy. -/
def State.mbAnswer (st : Status) (result : Nat) (s : State) : State :=
  let s1 : State := { s with cur := { s.cur with
    queue := s.cur.queue.filter (fun m => m.mailbox.isNone)
    mailbox := { s.cur.mailbox with busy := false, last := s.now } } }
  ((s1.putReg .curMbRpl 0 0 (st.cls * 2 ^ 24 + st.code * 2 ^ 16)).putReg .curMbResLo 0 0 (result % 2 ^ 32)).putReg
    .curMbResHi 0 0 (result / 2 ^ 32)

/-- Whether a mailbox request of a port is the committed head of the Curator queue. -/
def State.mbRuns (s : State) (port code : Nat) : Bool :=
  match s.cur.queue.head? with
  | some m => m.ctx.isNone && m.mailbox == some port && m.opcode.toNat == code && m.committed
  | none => false

/-- The checks every mailbox request shares: lifecycle (R455) and mis-set straps (R489). -/
def State.mbCheck (s : State) (code : Nat) : Option Status :=
  if s.cur.lifecycle == .scrapped || (s.cur.lifecycle == .blank && code != 1) then some .lifecycle
  else if s.pwr.strapBad then some .state
  else none

/-- A mailbox request runs where its operands are the payload that was written (`fits`): its body gives status, result and
effect (R432, R433). -/
def State.mbRequest (port code : Nat) (fits : Bool) (body : State → Status × Nat × State) (s : State) : State :=
  if s.mbRuns port code && fits then
    match s.mbCheck code with
    | some st => s.mbAnswer st 0
    | none =>
      let (st, v, s1) := body s
      s1.mbAnswer st v
  else s

/-- The codes of R433. -/
def mbCodes : List Nat := [1, 2, 3, 4, 5]

/-- A write of CUR_MB_REQ by the owner starts a request, which takes an entry of the Curator queue (R432, R433). While no
unit is primary nothing answers (R430). -/
def State.mbStart (port code len : Nat) (s : State) : State :=
  if s.cur.mailbox.busy || s.cur.primary.isNone then s
  else if !mbCodes.contains code then s.mbAnswer .opcode 0
  else if 32 ≤ s.cur.queue.length then s.mbAnswer .queueFull 0
  else
    let s := s.curWork
    { s with cur := { s.cur with
        mailbox := { s.cur.mailbox with busy := true, last := s.now, len := len }
        queue := s.cur.queue ++
          [{ ctx := none, mailbox := some port, opcode := BitVec.ofNat 8 code, params := [], committed := false }] } }

/-- A claim succeeds only when the mailbox is free; the owner's is an access of it. -/
def State.mbClaim (port : Nat) (s : State) : State :=
  if s.cur.primary.isNone then s
  else
    match s.cur.mailbox.owner with
    | none => { s with cur := { s.cur with mailbox := { s.cur.mailbox with owner := some port, last := s.now } } }
    | some o =>
      if o = port then { s with cur := { s.cur with mailbox := { s.cur.mailbox with last := s.now } } } else s

def State.mbRelease (port : Nat) (s : State) : State :=
  if s.cur.mailbox.owner == some port then
    { s with cur := { s.cur with mailbox := { s.cur.mailbox with owner := none } } }
  else s

def execMbClaim (port : Nat) (s : State) : Host.Outcome State Fault Refusal :=
  s.bar0 port (fun s => s.mbClaim port)

def execMbRelease (port : Nat) (s : State) : Host.Outcome State Fault Refusal :=
  s.bar0 port (fun s => s.mbRelease port)

/-- The mailbox is due to free itself: owned, idle, and untouched for 1 s. -/
def State.mbIdle (s : State) : Bool :=
  s.cur.mailbox.owner.isSome && !s.cur.mailbox.busy && decide (s.cur.mailbox.last + 1000000000 ≤ s.now)

def execMbIdleTimeout (s : State) : Host.Outcome State Fault Refusal :=
  .next (if s.mbIdle then { s with cur := { s.cur with mailbox := { s.cur.mailbox with owner := none } } } else s)

/-! ## Roles (R427 to R431) -/

/-- The share of the index space that belongs to one unit (R451). -/
def indexSpan : Nat := 2 ^ 39

/-- The end of the block of signature indices that a unit has reserved, and its next index (R451). -/
def State.reservedEnd (s : State) (t : Nat) : Nat := tget (fun t => t * indexSpan) s.cur.reserved t

def State.nextIndex (s : State) (t : Nat) : Nat := tget (fun t => t * indexSpan) s.cur.nextIndex t

/-- A unit becomes primary: it starts at its reserved end, and CUR_FW_RUN shows what it runs (R451, R462). -/
def State.makePrimary (t : Nat) (s : State) : State :=
  let s1 : State := { s with cur := { s.cur with
    primary := some t, restart := none, report := none
    nextIndex := tset (fun t => t * indexSpan) s.cur.nextIndex t (s.reservedEnd t) } }
  (s1.putReg .curFwRun 0 0 (s.runVersion t).toNat).drawn 1

/-- The queued requests whose journal entries had not committed complete with 01h/02h (R66). -/
def State.dropQueue (s : State) : State :=
  let t := (s.cur.queue.filter (fun m => !m.committed)).foldl (fun s m =>
    match m.ctx with
    | some c => s.reply srcCurator c .roleChange 0
    | none => s.mbAnswer .roleChange 0) s
  { t with cur := { t.cur with queue := t.cur.queue.filter (fun m => m.committed) } }

/-- An activation ends, and its command completes. -/
def State.endActivation (st : Status) (result : Nat) (s : State) : State :=
  match s.cur.activation with
  | some a => ({ s with cur := { s.cur with activation := none } } : State).reply srcCurator a.ctx st result
  | none => s

/-- Failures of a unit within 24 h. -/
def State.recentFails (s : State) (t : Nat) : Nat :=
  (s.cur.fails.filter (fun e => e.1 == t && decide (s.now < e.2 + 86400000000000))).length

/-- The passes of a unit close: in an orderly way by its reset, as a fault by its failure; the items discarded are a free value
(R356). -/
def State.curPasses (t : Nat) (orderly : Bool) (s : State) : State :=
  (s.passReset (.curator t orderly) ((Config.free s.freeCtr).toNat % 65536) false).drawn 1

/-- The other unit takes over from a primary that has failed (R66, R356, R428, R429, R448). -/
def State.takeOver (p : Nat) (s : State) : State :=
  let s1 := ((s.curPasses p false).dropQueue).endActivation .roleChange 0
  let s2 := s1.makePrimary (1 - p)
  let s3 : State := { s2 with cur := { s2.cur with standby := .failed, fails := s2.cur.fails ++ [(p, s2.now)] } }
  let s4 : State := if 3 ≤ s3.recentFails p then { s3 with cur := { s3.cur with dead := s3.cur.dead ++ [p] } } else s3
  s4.roleChanged (1 - p) (s4.reg .curFwRun 0 0)

/-- A standby that can take over. -/
def State.hasStandby (s : State) : Bool := s.cur.standby == .synced || s.cur.standby == .syncing

/-- The primary has failed for a cause: 0 its heartbeats, 1 its tile, 2 its source 0Dh at fatal (R428). -/
def State.primaryFailed (s : State) (p cause : Nat) : Bool :=
  match cause with
  | 0 => decide (tget (fun _ => 0) s.cur.beat p + 3000000 ≤ s.now)
  | 1 => !s.tileRuns p
  | 2 => (s.src p (srcId 0x0D 0)).total != 0 && (s.src p (srcId 0x0D 0)).current == 4
  | _ => false

def execCuratorTakeover (cause : BitVec 2) (s : State) : Host.Outcome State Fault Refusal :=
  .next (match s.cur.primary with
    | some p => if s.hasStandby && s.primaryFailed p cause.toNat then s.takeOver p else s
    | none => s)

/-- An orderly swap: the queue is handed on intact, and the former primary is the synced standby (R431). -/
def State.swapRoles (p : Nat) (s : State) : State :=
  let s1 := s.makePrimary (1 - p)
  s1.roleChanged (1 - p) (s1.reg .curFwRun 0 0)

/-- The unit restarts from one of its images. -/
def State.restartFrom (t b : Nat) (s : State) : State := (s.setRunSlot t b).curPasses t true

def execRoleSwap (port : Nat) (s : State) : Host.Outcome State Fault Refusal :=
  withUnit (s.hasPort port) (fun s => s.mbRequest port 3 true (fun s =>
    if s.cur.activation.isSome then (.activating, 0, s)
    else
      match s.cur.primary with
      | some p => if s.cur.standby == .synced then (.done, 1 - p, s.swapRoles p) else (.state, 0, s)
      | none => (.state, 0, s))) s

/-- A unit sends its heartbeat; one that restarted from a new image goes on to sync (R428, R447). -/
def State.heartbeat (t : Nat) (s : State) : State :=
  let other := s.cur.primary != some t
  { s with cur := { s.cur with
      beat := tset (fun _ => 0) s.cur.beat t s.now
      activation := s.cur.activation.map (fun a =>
        if other && (a.step == 1 || a.step == 3) then { a with step := a.step + 1 } else a) } }

def execHeartbeat (cur : Nat) (s : State) : Host.Outcome State Fault Refusal :=
  withUnit (decide (cur < 2)) (fun s => if s.curators.contains cur then s.heartbeat cur else s) s

/-- The standby has synced before the roles swap in an activation: they swap, and the former primary copies the image into its
inactive slot and restarts from it (R447 steps 3 and 4). -/
def State.activateSwap (p : Nat) (a : Activation) (s : State) : State :=
  let s1 := s.swapRoles p
  let b := 1 - s1.runSlot p
  let s2 := (s1.copyImage (1 - p) (s1.runSlot (1 - p)) p b).restartFrom p b
  { s2 with cur := { s2.cur with
      standby := .syncing, activation := some { a with step := 3, since := s2.now } } }

/-- An activation is complete: where the image runs on both units, the floor rises and both stores record it as active (R444,
R447 step 5); where no standby runs, the primary's store records it. -/
def State.activateDone (a : Activation) (s : State) : State :=
  let both := a.step == 4
  let s1 : State := { s with cur := { s.cur with
    active := (if both then [0, 1] else s.cur.primary.toList).foldl (fun m t =>
      tset (fun _ => none) m t (some (s.runSlot t))) s.cur.active } }
  (if both then s1.putReg .curFwMin 0 0 a.floor.toNat else s1).endActivation .done a.version.toNat

/-- The standby reports synced (R427, R447). -/
def State.synced (p : Nat) (s : State) : State :=
  let s1 : State := { s with cur := { s.cur with standby := .synced } }
  match s.cur.activation with
  | none => s1
  | some a =>
    if a.step = 2 then s1.activateSwap p a
    else if a.step = 4 then s1.activateDone a
    else s

def execStandbySynced (s : State) : Host.Outcome State Fault Refusal :=
  .next (match s.cur.primary with
    | some p => if s.cur.standby == .syncing then s.synced p else s
    | none => s)

/-- No heartbeat comes within 2 s of a restart from a new image: the unit returns to its previous one (R448). -/
def State.restartLate (t : Nat) (s : State) : State :=
  ((s.setRunSlot t (1 - s.runSlot t)).endActivation .state 0)

/-- The unit that an activation restarts. -/
def State.restarting (s : State) (a : Activation) : Option Nat :=
  match s.cur.primary with
  | some p => if a.step = 1 ∨ a.step = 3 then some (1 - p) else none
  | none => if a.step = 5 then s.cur.restart else none

def execFwRestartTimeout (cur : Nat) (s : State) : Host.Outcome State Fault Refusal :=
  withUnit (decide (cur < 2)) (fun s =>
    match s.cur.activation with
    | some a =>
      if s.restarting a == some cur && decide (a.since + 2000000000 ≤ s.now) then s.restartLate cur else s
    | none => s) s

/-- Records that no Curator could take enter the mirrors (assumption 53). -/
def State.writeDue (s : State) : State :=
  { s with anl := { s.anl with
      due := []
      mirrors := s.curators.foldl (fun m c =>
        let l := tget (fun _ => []) m c ++ s.anl.due
        tset (fun _ => []) m c (l.drop (l.length - mirrorLimit))) s.anl.mirrors } }

/-- The other unit rejoins as standby once the part is ready, unless it stays failed (R426, R429). -/
def State.startStandby (s : State) : State :=
  match s.cur.primary with
  | some p =>
    if s.pwr.ready && s.pwr.st == .up && !s.cur.dead.contains (1 - p) && s.cur.standby == .none then
      { s with cur := { s.cur with standby := .syncing } }
    else s
  | none => s

/-- The only running unit has restarted, with the version it measured, and serves as primary (R430, R447, R491). -/
def State.restarted (t : Nat) (version : Word) (s : State) : State :=
  let b := s.runSlot t
  let s1 := (s.setImage t b { s.image t b with version := version, valid := true }).makePrimary t
  let s2 := (s1.writeDue).startStandby
  match s.cur.activation with
  | some a => if a.step = 5 then (s2.roleChanged t version.toNat).activateDone a else s2
  | none => s2

def execCuratorRestartDone (version : Word) (s : State) : Host.Outcome State Fault Refusal :=
  .next (match s.cur.restart with
    | some t => if s.cur.primary.isNone && s.pwr.vaonOk then s.restarted t version else s
    | none => s)

/-- Reset kinds as record 0x9001 names them. -/
def State.noteReset (kind value : Nat) (s : State) : State := s.annal 0 { code := 0x9001, addr := kind, value := value }

/-- A CUR reset of a unit (R429): a primary hands over to a standby, or restarts alone; any other rejoins as standby,
unless it stays failed. -/
def State.curReset (t : Nat) (s : State) : State :=
  if s.cur.dead.contains t then s
  else if s.cur.primary == some t then
    let s1 := (s.noteReset 5 t).curPasses t true
    if s.hasStandby then
      let s2 := s1.takeOver t
      if s2.cur.dead.contains t then s2 else { s2 with cur := { s2.cur with standby := .syncing } }
    else
      let s2 := (s1.dropQueue).endActivation .roleChange 0
      { s2 with
        regs := resetRegs .cur s2.regs
        cur := { s2.cur with primary := none, restart := some t, mailbox := {}, report := none, staged := {} } }
  else if s.cur.primary.isSome && s.pwr.st == .up then
    let s1 := (s.noteReset 5 t).curPasses t true
    { s1 with cur := { s1.cur with standby := .syncing } }
  else s

def execCurReset (cur : Nat) (s : State) : Host.Outcome State Fault Refusal :=
  withUnit (decide (cur < 2)) (fun s => s.curReset cur) s

/-! ## Firmware (R446, R447) -/

/-- The target slot: the one not in use on the standby, or on the primary where no standby runs. -/
def State.targetSlot (s : State) (p : Nat) : Nat × Nat :=
  let t := if s.hasStandby then 1 - p else p
  (t, 1 - s.runSlot t)

/-- A chunk is written: what was verified is so no longer. -/
def State.stageChunk (t b off : Nat) (l : List Byte) (last : Bool) (s : State) : State :=
  let g := s.cur.staged
  ((({ s with cur := { s.cur with
      staged := { total := (if g.ended then 0 else g.total) + l.length, ended := last, verified := none } } } : State).setImage
    t b { s.image t b with valid := false }).writeChunk t b off l)

/-- What the header of an image says (R444), from its first 4 KiB: `good` where its magic, its key index and the bytes that are
0 are as the format has them. -/
structure ImageHeader where
  good    : Bool
  version : Word
  length  : Nat
  root    : Nat
  floor   : Word
  digest  : BitVec 256
  deriving DecidableEq, Repr

def imageHeaderOf (b : List Byte) : ImageHeader :=
  { good := byteField b 0 4 == 0x57465A56 && byteField b 13 3 == 0 && byteField b 52 76 == 0 && byteField b 2948 1148 == 0
    version := BitVec.ofNat 32 (byteField b 4 4), length := byteField b 8 4, root := byteField b 12 1
    floor := BitVec.ofNat 32 (byteField b 16 4), digest := BitVec.ofNat 256 (byteField b 20 32) }

/-- The digest of a body as a header holds it. -/
def bodyDigest (l : List Byte) : BitVec 256 :=
  BitVec.ofNat 256 (leNat ((shake256 32 (l.map BitVec.toNat)).map (BitVec.ofNat 8)))

/-- The verification of the whole image in a slot (R444 to R446); `sigOk` is the outcome of the signature's. A malformed header
is taken as a digest that fails (DESIGN CHOICE, assumption 98). -/
def State.verifyImage (t b : Nat) (sigOk : Bool) (s : State) : Status × State :=
  let h := imageHeaderOf (s.slotBytes t b 0 4096)
  if !sigOk || !s.rootSigner h.root then (.token, s)
  else if !h.good || h.version.toNat < s.reg .curFwMin 0 0 || imageSpace - 4096 < h.length ||
      h.digest != bodyDigest (s.slotBytes t b 4096 h.length) then (.param, s)
  else
    (.done, ({ s with cur := { s.cur with staged := { s.cur.staged with verified := some (h.version, h.floor) } } } :
      State).setImage t b { version := h.version, floor := h.floor, valid := true, digest := some h.digest })

/-- FW_STAGE once its slot has passed. One that fails makes no change (R57). -/
def State.fwStage (off : Nat) (last : Bool) (n : Nat) (data : HostData) (sigOk : Bool) (s : State) : SlotAnswer :=
  if s.cur.activation.isSome then { st := .activating, len := n, after := s }
  else if imageSpace < off + n then { st := .param, len := n, after := s }
  else if !data.ok then { st := .hostRead, len := n, after := s }
  else
    let (t, b) := s.targetSlot (s.cur.primary.getD 0)
    let s1 := s.stageChunk t b off ((List.range n).map (fun i => data.bytes.getD i 0)) last
    if last then
      let (st, s2) := s1.verifyImage t b sigOk
      if st = .done then { st := st, result := s2.cur.staged.total, len := n, after := s2 }
      else { st := st, len := n, after := s }
    else { st := .done, result := s1.cur.staged.total, len := n, after := s1 }

def execFwStage (c : Ctx) (slot : Word) (own : SlotRead) (offset : Word) (flags : Byte) (data : HostData)
    (sigOk : Bool) (s : State) : Host.Outcome State Fault Refusal :=
  .next (s.command 0x48 srcCurator c (fwStageParams slot offset flags) (fun s =>
    s.withSlot srcCurator c slot own true (fun w x => decide (1 ≤ ownLen x ∧ ownLen x ≤ w.slotSize))
      (fun _ s => s.fwStage offset.toNat (flags.toNat == 1) (ownLen own.word) data sigOk)))

/-- An activation starts: the standby restarts from the target slot, or the primary where no standby runs (R447). Its command
leaves the queue and completes later. -/
def State.startActivation (c : Ctx) (p : Nat) (v f : Word) (s : State) : State :=
  let (t, b) := s.targetSlot p
  let s0 := s.leaveQueue c
  let s1 : State := { s0 with cur := { s0.cur with
    activation := some { ctx := c, version := v, floor := f, step := if t = p then 5 else 1, since := s.now } } }
  let s2 := s1.restartFrom t b
  if t = p then
    let s3 := s2.dropQueue
    { s3 with cur := { s3.cur with primary := none, restart := some p } }
  else { s2 with cur := { s2.cur with standby := .syncing } }

/-- FW_ACTIVATE: the image that was staged must be the one in the target slot, which a swap of the roles or the loss of the standby
changes (R446, R447). -/
def State.fwActivate (c : Ctx) (s : State) : State :=
  if s.cur.activation.isSome then s.reply srcCurator c .activating 0
  else
    match s.cur.staged.verified, s.cur.primary with
    | some (v, f), some p =>
      let i := s.image (s.targetSlot p).1 (s.targetSlot p).2
      if s.cur.standby == .syncing || !i.valid || i.version != v then s.reply srcCurator c .state 0
      else s.startActivation c p v f
    | _, _ => s.reply srcCurator c .state 0

def execFwActivate (c : Ctx) (mode : Byte) (s : State) : Host.Outcome State Fault Refusal :=
  .next (s.command 0x49 srcCurator c (fwActivateParams mode) (fun s => s.fwActivate c))

/-! ## Attestation (R450 to R454) -/

/-- `n` bytes of free values, from the `k`-th on. -/
def freeBytes (n k : Nat) : List Byte :=
  (List.range n).map (fun i => (Config.free (k + i / 8)).extractLsb' (8 * (i % 8)) 8)

/-- A digest as 32 bytes. -/
def digest (f : Nat → Byte) : List Byte := (List.range 32).map f

/-- The digest of the body of the image that a unit runs: the one the part verified, a free value by its version otherwise. -/
def State.runDigest (s : State) (t : Nat) : List Byte :=
  match (s.image t (s.runSlot t)).digest with
  | some d => leBytes 32 d.toNat
  | none => digest (Config.imageDigest (s.runVersion t))

/-- The SHAKE256 digest of some bytes, 32 bytes long (R452). -/
def shakeDigest (l : List Byte) : List Byte := (shake256 32 (l.map BitVec.toNat)).map (BitVec.ofNat 8)

/-- The length of a report. -/
def reportBytes : Nat := 8772

/-- The identity certificate (R453): its key and signature are the part's own. -/
def State.certificate (s : State) : List Byte :=
  let own (off n : Nat) : List Byte := (List.range n).map (fun i => Config.certificate s.cur.serial (off + i))
  layout 2908
    [(0, [0x56, 0x5A, 0x49, 0x43]), (4, leBytes 2 1), (6, own 6 1), (8, leBytes 8 s.cur.serial.toNat), (16, own 16 68),
     (88, own 88 2820)]

/-- The report that unit `t` signs (R452); the signature and the digest of the settings are free values. -/
def State.attestReport (s : State) (t : Nat) (nonce : BitVec 256) : List Byte :=
  layout reportBytes
    [(0, [0x56, 0x5A, 0x41, 0x52]), (4, leBytes 2 1), (8, leBytes 4 reportBytes), (12, leBytes 4 256),
     (16, leBytes 32 nonce.toNat), (48, leBytes 8 s.cur.serial.toNat), (56, leBytes 4 s.partInfo),
     (60, leBytes 1 (Life.code s.cur.lifecycle)), (61, leBytes 1 t), (62, leBytes 2 (s.field .anlBoot 0 0 14 0)),
     (64, leBytes 8 s.now), (72, leBytes 8 s.epo.durable), (80, leBytes 4 (s.reg .curFwRun 0 0)),
     (84, (List.range 4).flatMap (fun i => leBytes 4 (s.reg .curFwImg 0 i))), (100, leBytes 4 (s.reg .curFwMin 0 0)),
     (104, leBytes 1 s.cur.rootGen), (105, leBytes 1 (s.cur.revoked.toNat + bit s.cur.ownerKey.isSome 4)),
     (108, leBytes 4 (s.reg .curAlarmA1 0 0)), (112, s.runDigest t),
     (144, freeBytes 32 s.freeCtr),
     (176, match s.cur.ownerKey with
       | some k => shakeDigest (leBytes 68 k.toNat)
       | none => []),
     (256, freeBytes 5605 (s.freeCtr + 4)), (5864, s.certificate)]

/-- Free values a report draws: 4 for the digest, 701 for the signature. -/
def reportFree : Nat := 705

/-- The next index of a Curator is used, its reservation reaching to `e`. -/
def State.useIndex (t e : Nat) (s : State) : State :=
  { s with cur := { s.cur with
    reserved := tset (fun t => t * indexSpan) s.cur.reserved t e
    nextIndex := tset (fun t => t * indexSpan) s.cur.nextIndex t (s.nextIndex t + 1) } }

/-- An index is used to sign: a new block of 1,024 is reserved first where the last one is used up. No index is left where the
reservation fails or the unit's half is exhausted (R451). -/
def State.takeIndex (t : Nat) (reserveOk : Bool) (s : State) : Option State :=
  let n := s.nextIndex t
  let e := s.reservedEnd t
  if (t + 1) * indexSpan ≤ n then none
  else if n < e then some (s.useIndex t e)
  else if reserveOk then some (s.useIndex t (e + 1024))
  else none

/-- A report is signed. -/
def State.sign (nonce : BitVec 256) (reserveOk : Bool) (s : State) : Option (List Byte × State) :=
  let t := s.cur.primary.getD 0
  (s.takeIndex t reserveOk).map (fun s1 => (s.attestReport t nonce, s1.drawn reportFree))

/-- The pieces of a report on the sideband. -/
def pieceBytes : Nat := 4096

/-- The next piece of a report is handed out (R453). -/
def State.givePiece (r : Report) (s : State) : SlotAnswer :=
  { st := .done, result := reportBytes, data := (r.bytes.drop (pieceBytes * r.piece)).take pieceBytes
    after := { s with cur := { s.cur with report := some { r with piece := r.piece + 1, last := s.now } } } }

/-- A report is signed and its first piece handed out. -/
def State.newReport (nonce : BitVec 256) (reserveOk : Bool) (s : State) : SlotAnswer :=
  (s.sign nonce reserveOk).elim { st := .state, after := s }
    (fun x => x.2.givePiece { nonce := nonce, bytes := x.1, piece := 0, last := s.now })

/-- A report goes on: the same nonce, pieces left, and the last one at most 10 s ago. -/
def Report.goesOn (r : Report) (nonce : BitVec 256) (now : Nat) : Bool :=
  r.nonce == nonce && decide (r.piece < 3) && decide (now ≤ r.last + 10000000000)

/-- ATTEST on the sideband: the next piece of the report with this nonce, or the first of a new one (R454). -/
def State.attestPiece (nonce : BitVec 256) (reserveOk : Bool) (s : State) : SlotAnswer :=
  s.cur.report.elim (s.newReport nonce reserveOk)
    (fun r => if r.goesOn nonce s.now then s.givePiece r else s.newReport nonce reserveOk)

/-- ATTEST into a slot. -/
def State.attestSlot (c : Ctx) (r : Option SlotRef) (nonce : BitVec 256) (reserveOk : Bool) (s : State) : SlotAnswer :=
  if s.slotSpace c r < reportBytes then { st := .param, after := s }
  else
    match s.sign nonce reserveOk with
    | some (b, s1) => { st := .done, result := reportBytes, data := b, len := reportBytes, after := s1 }
    | none => { st := .state, after := s }

def execAttest (c : Ctx) (slot : Word) (own : SlotRead) (nonce : BitVec 256) (reserveOk : Bool) (s : State) :
    Host.Outcome State Fault Refusal :=
  .next (s.command 0x4A srcCurator c (attestParams slot nonce) (fun s =>
    s.withSlot srcCurator c slot own true (fun _ _ => true) (fun r s =>
      match c.path with
      | .sideband => s.attestPiece nonce reserveOk
      | .ring _ _ _ => s.attestSlot c r nonce reserveOk)))

end Sys2Proof.Machine
end

