-- ==== Sys2Proof/Machine/Protection.lean ====
section
/-! DEFINITION. Key identifiers: binding, rotation, retirement (R385 to R390), rights (R394), and the arrival of the security
halt (R396, R397). -/

namespace Sys2Proof.Machine

/-! ## Ranges of 64 KiB units, which are folios -/

/-- Whether something is in flight about a folio that `p` names: a transaction, a message or a miss about a line of it, a page
that is being programmed or copied and carries a piece of it. -/
def State.foliosBusy (s : State) (p : Nat → Bool) : Bool :=
  let piece (i : Piece) : Bool := match i with
    | .folio f _ => p f
    | .leaf l _ _ => p (l / 16)
    | .note _ => false
  s.coh.txs.any (fun e => p (folioOf e.1)) || s.net.any (fun m => p (folioOf m.line)) ||
    s.coh.miss.any (fun e => p (folioOf (e.1 % 2 ^ 42))) ||
    s.cat.pages.any (fun e => match e.2 with
      | some g => !g.programmed && g.items.any (fun i => piece i.piece)
      | none => false) ||
    s.cat.relocs.any (fun e => match e.2 with
      | some r => r.todo.any (fun x => x.2.any (fun i => piece i.piece))
      | none => false)

/-- Every near cache loses the lines of the folios that `p` names without writing them back; pinned lines are vacated
(R227, R386 step 2, R389 step 2). -/
def State.dropFolios (p : Nat → Bool) (s : State) : State :=
  let held := (s.coh.nc.map (fun e => (e.1 / 2 ^ 42, e.1 % 2 ^ 42, e.2.pin))).filter (fun e => p (folioOf e.2.1))
  let s1 := held.foldl (fun (s : State) e =>
    if e.2.2 then s.vacate e.1 e.2.1 else if (s.nc e.1 e.2.1).st == .ev then s.clearEv e.1 e.2.1 else s.setNc e.1 e.2.1 {}) s
  { s1 with
    coh := { s1.coh with
      dir := tdrop (fun l => p (folioOf l)) s1.coh.dir
      evbufs := s1.coh.evbufs.filter (fun b => !p (folioOf b.line)) }
    cat := { s1.cat with bufs := s1.cat.bufs.filter (fun b => !p (if b.leaf then b.key / 16 else b.key)) } }

/-- Step 3 of R386: entries and the old values of their undo entries are UNMAPPED, and their leaf groups are free. -/
def State.unbindFolios (p : Nat → Bool) (s : State) : State :=
  let s1 : State := { s with cat := { s.cat with
      folios := tdrop p s.cat.folios
      leaves := tdrop (fun l => p (l / 16)) s.cat.leaves
      undo := s.cat.undo.map (fun u => if p (if u.leaf then u.key / 16 else u.key) then { u with old := {} } else u)
      notes := tmap (fun _ => []) (fun _ l => l.filter (fun n => !p (n.leaf / 16))) s.cat.notes
      mergeDue := s.cat.mergeDue.filter (fun f => !p f) } }
  s1.tileList.foldl (fun s t => s.sweepGroups t) s1

/-! ## Keys -/

/-- Every tile's next write sequence (R386 step 4, R388 step 2). -/
def State.seqsNow (s : State) : Tbl Nat :=
  s.tileList.foldl (fun m t => tset (fun _ => 0) m t (s.nextSeq t)) []

/-- A new key version: free values (R368, R391). -/
def State.freshKey (s : State) : KeyVer := { xts := s.freeBits 512 8, tag := (s.drawn 8).freeBits 256 4 }

/-- A KID has its first key, or a new one after its retirement. -/
def State.newKey (k : Nat) (s : State) : State :=
  (s.setKid k { st := .live, version := (s.kid k).version + 1, curKey := some s.freshKey }).drawn 12

/-- A rotation: a new version, with the version in use as the previous one (R388). -/
def State.rotateKey (k : Nat) (s : State) : State :=
  let v := s.kid k
  (s.setKid k { st := .rotating, version := v.version + 1, curKey := some s.freshKey, prevKey := some (s.curKeyOf k),
                rotSeq := s.seqsNow }).drawn 12

def State.regionsOf (s : State) (k : Nat) : List KRegion := s.cry.regions.filter (fun r => r.kid == k)

/-- A region is bound, in the place of an equal one if there is one (R386 steps 4 and 5). -/
def State.bindRegion (k b n : Nat) (s : State) : State :=
  { s with cry := { s.cry with
      regions := s.cry.regions.filter (fun r => !(r.base == b && r.units == n)) ++
        [{ base := b, units := n, kid := k, bind := s.seqsNow }] } }

/-- Whether a folio lies in one of some ranges. -/
def inRanges (l : List (Nat × Nat)) (f : Nat) : Bool := l.any (fun r => decide (r.1 ≤ f ∧ f < r.1 + r.2))

/-- What KEY_CREATE does (R385). -/
inductive KeyAct where
  | fail (st : Status)
  | rotate
  | bind (fresh : Bool) (ranges : List (Nat × Nat))
  deriving DecidableEq, Repr

/-- The table of R385 from its second row on, in its order; `b` and `n` are the range's first unit and its units. -/
def State.keyAction (s : State) (k b n : Nat) : KeyAct :=
  let same (r : KRegion) : Bool := r.kid == k && r.base == b && r.units == n
  let meets (r : KRegion) : Bool := decide (r.base < b + n ∧ b < r.base + r.units)
  let equal := s.cry.regions.any same
  let own := (s.regionsOf k).map (fun r => (r.base, r.units))
  let st := (s.kid k).st
  if k = 0 then .rotate
  else if st == .retiring || st == .binding then .fail .state
  else if s.cry.regions.any (fun r => meets r && !same r) then .fail .state
  else if !equal && (decide (1024 ≤ s.cry.regions.length) ||
      decide (2 ^ 24 < (own.map (fun r => r.2)).foldl (· + ·) 0 + n)) then .fail .param
  else
    match st with
    | .empty => .bind true [(b, n)]
    | .live => if equal then .rotate else .bind false [(b, n)]
    | .retired => .bind true (if equal then own else own ++ [(b, n)])
    | .rotating | .retiring | .binding => if equal then .fail .state else .bind false [(b, n)]

/-- Ranges are bound to a KID, which has a new key where it had none (R386). -/
def State.bindRanges (k : Nat) (fresh : Bool) (l : List (Nat × Nat)) (s : State) : State :=
  let s1 := (s.dropFolios (inRanges l)).unbindFolios (inRanges l)
  let s2 := if fresh then s1.newKey k else s1
  l.foldl (fun s r => s.bindRegion k r.1 r.2) s2

/-- KEY_CREATE after its range checks. It waits for a rollback to end and for what is in flight in its ranges (R63, R386). -/
def State.keyCreate (c : Ctx) (k b n : Nat) (s : State) : State :=
  match s.keyAction k b n with
  | .fail st => s.reply srcCurator c st 0
  | .rotate =>
    if s.med.readOnly then s.reply srcCurator c .readOnly 0
    else if s.epo.rollback then s
    else (s.rotateKey k).reply srcCurator c .done 0
  | .bind fresh l =>
    if s.med.readOnly then s.reply srcCurator c .readOnly 0
    else if s.epo.rollback || s.foliosBusy (inRanges l) then s
    else (s.bindRanges k fresh l).reply srcCurator c .done 0

def execKeyCreate (c : Ctx) (kid : Byte) (pa len : DWord) (s : State) : Host.Outcome State Fault Refusal :=
  .next (s.command 0x50 srcCurator c (keyCreateParams kid pa len) (fun s =>
    match s.rangeCheck pa.toNat len.toNat (2 ^ 40) with
    | some st => s.reply srcCurator c st 0
    | none =>
      if pa.toNat % 65536 ≠ 0 || len.toNat % 65536 ≠ 0 then s.reply srcCurator c .param 0
      else s.keyCreate c kid.toNat (pa.toNat / 65536) (len.toNat / 65536)))

/-! ## KEY_RETIRE (R389) -/

/-- A folio of a KID's regions. -/
def State.ofKid (s : State) (k f : Nat) : Bool := (s.regionsOf k).any (fun r => decide (r.base ≤ f ∧ f < r.base + r.units))

/-- KEY_RETIRE once its token rule is met. -/
def State.keyRetire (k : Nat) (s : State) : SlotAnswer :=
  let v := s.kid k
  if k = 0 then { st := .state, after := s }
  else
    match v.st with
    | .empty | .retired => { st := .retired, after := s }
    | .retiring | .binding => { st := .state, after := s }
    | .live | .rotating =>
      { st := .done, after := (s.dropFolios (fun f => s.ofKid k f)).setKid k
          { v with st := .retired, curKey := none, prevKey := none } }

def execKeyRetire (c : Ctx) (kid : Byte) (slot : Word) (tok : Token) (s : State) : Host.Outcome State Fault Refusal :=
  .next (if s.epo.rollback || s.foliosBusy (fun f => s.ofKid kid.toNat f) then s
    else s.tokenCommand 0x51 c (keyRetireParams kid slot) slot tok true 4 kid.toNat (fun s => s.keyRetire kid.toNat))

/-! ## RIGHTS_SET (R394) -/

def State.setRights (m k : Nat) (v : BitVec 2) (s : State) : State :=
  { s with cry := { s.cry with rights := tset rightsDefault s.cry.rights (256 * m + k) v } }

def execRightsSet (c : Ctx) (kid master rights : Byte) (s : State) : Host.Outcome State Fault Refusal :=
  .next (s.command 0x52 srcCurator c (rightsSetParams kid master rights) (fun s =>
    let m := master.toNat
    let k := kid.toNat
    if 8 ≤ m then s.reply srcCurator c .param 0
    else if s.cur.lifecycle == .sealed && decide (6 ≤ m) && rights != 0 then s.reply srcCurator c .lifecycle 0
    else (s.setRights m k (rights.setWidth 2)).reply srcCurator c .done (s.rights m k).toNat))

/-! ## Rotation (R388) -/

/-- No page is left under the previous version on any tile: it is zeroed, and the KID is LIVE. -/
def State.rotationDone (k : Nat) (s : State) : State :=
  if (s.kid k).st == .rotating && s.tileList.all (fun t => s.kidOld t k == 0) then
    s.setKid k { s.kid k with st := .live, prevKey := none }
  else s

def execKeyRotationDone (kid : Nat) (s : State) : Host.Outcome State Fault Refusal :=
  withUnit (decide (kid < 256)) (fun s => if s.cry.haltCause == 0 then s.rotationDone kid else s) s

/-! ## The security halt reaches a tile (R396, R397) -/

def State.haltReaches (t : Nat) (s : State) : State :=
  ({ s with cry := { s.cry with halted := s.cry.halted ||| tileBit t } } : State).disablePorts t

def execHaltBroadcastArrive (tile : Nat) (s : State) : Host.Outcome State Fault Refusal :=
  withUnit (s.hasTile tile) (fun s => if s.cry.haltCause != 0 then s.haltReaches tile else s) s

end Sys2Proof.Machine
end

