-- ==== Sys2Proof/Machine/MediaCmds.lean ====
section
/-! DEFINITION. SPARE_STATUS, FORMAT and MEDIA_PROFILE (R139, R157, R174, R184, R185, R188, R390). -/

namespace Sys2Proof.Machine

/-! ## SPARE_STATUS (R184, R185) -/

/-- A tile's entry. -/
def State.spareBytes (s : State) (t : Nat) : List Byte :=
  let m := s.medSpare t
  leBytes 1 t ++
    leBytes 1 (bits m 29 29 + 2 * bits m 30 30 + 4 * bits m 31 31 +
      bit ((List.range 16).any (fun c => (s.chan t c).degraded)) 3) ++
    leBytes 2 (min 65535 (s.remaining t)) ++ leBytes 4 (s.goodBlocks t) ++ leBytes 4 (s.reg .medRetired t 0) ++
    leBytes 4 (s.reg .medDegraded t 0)

/-- Whole entries that fit a space. -/
def fitting (n space : Nat) (l : List (List Byte)) : List Byte := (l.take (space / n)).flatten

/-- The spare remaining that a tile byte names: the lowest for FFh. -/
def State.spareResult (s : State) (tile : Nat) : Nat :=
  ((s.namedTiles tile).map (fun t => s.remaining t)).min?.getD 0

/-- SPARE_STATUS once its slot, if it names one, has passed. -/
def State.spareStatus (c : Ctx) (tile : Nat) (r : Option SlotRef) (s : State) : SlotAnswer :=
  if tile != 255 && !s.hasTile tile then { st := .unknown, after := s }
  else
    let b := if r.isSome then fitting 16 (s.slotSpace c r) (s.tileList.map (fun t => s.spareBytes t)) else []
    { st := .done, result := s.spareResult tile, data := b, len := b.length, after := s }

def execSpareStatus (c : Ctx) (tile : Byte) (slot : Word) (own : SlotRead) (s : State) : Host.Outcome State Fault Refusal :=
  .next (s.command 0x58 srcCurator c (spareStatusParams tile slot) (fun s =>
    s.withSlot srcCurator c slot own false (fun _ _ => true) (fun r s => s.spareStatus c tile.toNat r)))

/-! ## FORMAT (R139, R188, R390) -/

/-- The spare setting that a FORMAT leaves: the named one, or the one in force for FFh. -/
def State.formatSetting (s : State) (spare : Nat) : Option (BitVec 2) :=
  if spare = 255 then s.med.spareSet else some (BitVec.ofNat 2 spare)

/-- The part with another spare setting. -/
def State.withSetting (v : Option (BitVec 2)) (s : State) : State := { s with med := { s.med with spareSet := v } }

/-- A setting that leaves every tile's spare remaining above 0: C0 above H + Q on each (R184, R188). -/
def State.settingFits (s : State) : Bool :=
  s.tileList.all (fun t => decide (s.capacity / s.tiles + s.goodCapacity t / 100 < s.goodCapacity t))

/-- User space reads zero: near caches, staging, the Catalogue, its undo log and the tract maps are empty, and every page is
dead (R60, R365). -/
def State.emptySpace (s : State) : State :=
  let s1 := s.dropFolios (fun _ => true)
  { s1 with
    cat := { s1.cat with
      folios := [], leaves := [], bufs := [], undo := [], groups := [], notes := [], lost := [], found := [],
      mergeDue := [], cache := []
      pages := s1.cat.pages.map (fun e => (e.1, e.2.map (fun p => { p with items := [] }))) }
    cry := { s1.cry with tracts := [], lostList := [] } }

/-- Every KID but 0 is empty, the region table is clear, and KID 0 has a new key with no previous version (R390). -/
def State.emptyKids (s : State) : State :=
  let s1 : State := { s with cry := { s.cry with kids := tdrop (fun k => k != 0) s.cry.kids, regions := [] } }
  s1.newKey 0

/-- A new spare baseline on every tile ends read-only and its warnings (R184, R188). -/
def State.newBaselines (s : State) : State :=
  let s1 : State := { s with med := { s.med with readOnly := false, baseline := true } }
  s1.tileList.foldl (fun (s : State) t =>
    ((s.putField .medSpare t 0 29 29 0).putField .medSpare t 0 30 30 0).takeBaseline t) s1

/-- FORMAT, where its setting fits. -/
def State.formatPart (spare : Nat) (s : State) : State :=
  (((s.withSetting (s.formatSetting spare)).emptySpace).emptyKids).newBaselines

/-- FORMAT once its token has passed. -/
def State.format (spare : Nat) (s : State) : SlotAnswer :=
  if spare != 255 && decide (4 ≤ spare) then { st := .param, after := s }
  else if !(s.withSetting (s.formatSetting spare)).settingFits then { st := .state, after := s }
  else { st := .done, after := s.formatPart spare }

/-- What acts on user space as a whole waits for a rollback to end and for what is in flight (R63, assumption 46). -/
def State.spaceBusy (s : State) : Bool := s.epo.rollback || s.foliosBusy (fun _ => true)

def execFormat (c : Ctx) (spare : Byte) (slot : Word) (tok : Token) (s : State) : Host.Outcome State Fault Refusal :=
  .next (if s.spaceBusy then s
    else s.tokenCommand 0x59 c (formatParams spare slot) slot tok false 5 spare.toNat (fun s => s.format spare.toNat))

/-! ## MEDIA_PROFILE (R157, R174) -/

/-- A drift table's size (R173). -/
def driftBytes : Nat := 9280

/-- A signed byte's magnitude. -/
def magnitude (b : Byte) : Nat := b.toInt.natAbs

/-- A table that a tile accepts (R174). -/
def Spare.accepts (v : Spare) (b : List Byte) : Bool :=
  crc32c ((b.drop 64).take 9216) == byteField b 8 4 && byteField b 2 2 == v.classId.toNat &&
    (List.range 2304).all (fun e =>
      let at4 (k : Nat) : Byte := b.getD (64 + 4 * e + k) 0
      (at4 3).toNat % 4 != 3 && [0, 1, 2].all (fun k => decide (magnitude (at4 k) ≤ v.maxOff)))

/-- A parameter page whose CRC is good (R154). -/
def pageGood (page : List Byte) : Bool := crc32c (page.take 4092) == byteField page 4092 4

/-- The 4,160-byte entry of a target (R157). -/
def State.profileEntry (s : State) (t c k : Nat) : List Byte :=
  let v := s.target t c k
  layout 4160
    [(0, leBytes 1 c ++ leBytes 1 k ++ leBytes 1 (bit v.present 0 + bit v.qualified 1 +
        bit (v.present && pageGood v.page) 2 + bit v.mapped 3) ++ leBytes 1 v.failItem ++
        leBytes 2 (s.chan t c).rate.toNat),
     (64, if v.present then v.page.take 4096 else [])]

/-- What a channel or target byte names out of `n`. -/
def named (n b : Nat) : List Nat := if b = 255 then List.range n else [b]

/-- MEDIA_PROFILE once its slot has passed. -/
def State.mediaProfile (c : Ctx) (action tile ch target : Nat) (r : Option SlotRef) (data : HostData) (s : State) : SlotAnswer :=
  let send (b : List Byte) : SlotAnswer := { st := .done, result := b.length, data := b, len := b.length, after := s }
  if 3 ≤ action then { st := .param, after := s }
  else if !s.hasTile tile then { st := .unknown, after := s }
  else if action = 0 then send ((s.driftTable tile).take (s.slotSpace c r))
  else if action = 1 then
    if !data.ok then { st := .hostRead, after := s }
    else if !(s.spare tile).accepts data.bytes then { st := .param, len := driftBytes, after := s }
    else { st := .done, result := driftBytes, len := driftBytes,
           after := s.setSpare tile { s.spare tile with next := some data.bytes } }
  else if (16 ≤ ch && ch != 255) || (4 ≤ target && target != 255) then { st := .param, after := s }
  else send (fitting 4160 (s.slotSpace c r)
    ((named 16 ch).flatMap (fun x => (named 4 target).map (fun k => s.profileEntry tile x k))))

def execMediaProfile (c : Ctx) (action tile channel target : Byte) (slot : Word) (own : SlotRead) (data : HostData)
    (s : State) : Host.Outcome State Fault Refusal :=
  .next (s.command 0x5A srcCurator c (mediaProfileParams action tile channel target slot) (fun s =>
    if action != 2 && (channel != 0 || target != 0) then s.reply srcCurator c .reserved 0
    else s.withSlot srcCurator c slot own true (fun _ w => action != 1 || ownLen w == driftBytes)
      (fun r s => s.mediaProfile c action.toNat tile.toNat channel.toNat target.toNat r data)))

end Sys2Proof.Machine
end

