-- ==== Sys2Proof/Machine/Lifecycle.lean ====
section
/-! DEFINITION. SENSOR_READ (R60), sensor enables (R440), the owner key, root keys and lifecycle (R433, R449, R455, R456),
tamper alarms and zeroize (R459 to R461). -/

namespace Sys2Proof.Machine

/-! ## SENSOR_READ -/

/-- m°C of a reading in steps of 0.125 °C, signed in 64 bits. -/
def milliC (eighths : Int) : Nat := (BitVec.ofInt 64 (125 * eighths)).toNat

/-- The result of SENSOR_READ for a sensor code, if there is one of that number: a junction in m°C, a rail monitor in mV (a free
reading, assumption 54) or a media target in m°C, a free value where no target answers. -/
def State.sensorResult (s : State) (t code : Nat) : Option Nat :=
  if code < 8 then some (milliC (s.sensor t code).reading)
  else if 16 ≤ code ∧ code < 32 then some (Config.railReading (256 * t + code) s.freeCtr).toNat
  else if 64 ≤ code ∧ code < 128 then
    let v := s.target t ((code - 64) / 4) (code % 4)
    some (if v.present then milliC v.temp else (Config.noReading (256 * t + code)).toNat)
  else none

def execSensorRead (c : Ctx) (tile sensor : Byte) (s : State) : Host.Outcome State Fault Refusal :=
  .next (s.command 0x42 srcCurator c (sensorReadParams tile sensor) (fun s =>
    if !s.hasTile tile.toNat then s.reply srcCurator c .unknown 0
    else
      match s.sensorResult tile.toNat sensor.toNat with
      | some v => (s.drawn 1).reply srcCurator c .done v
      | none => s.reply srcCurator c .param 0))

/-! ## Tokens in the mailbox -/

/-- The first `n` words of CUR_MB_BUF as one number, its first byte lowest (R432). -/
def State.mbValue (s : State) (n : Nat) : Nat :=
  (List.range n).foldr (fun i a => s.reg .curMbBuf 0 i + 2 ^ 32 * a) 0

/-- The length of a token (R457). -/
def tokenBytes : Nat := 2948

/-- A token is the one whose first 128 bytes are a number `w`. -/
def tokenReads (t : Token) (w : Nat) : Bool :=
  t.magic.toNat == bits w 31 0 && t.format.toNat == bits w 47 32 && t.purpose.toNat == bits w 55 48 &&
    t.signer.toNat == bits w 63 56 && t.serial.toNat == bits w 127 64 && t.number.toNat == bits w 191 128 &&
    t.state.toNat == bits w 199 192 && t.zeros == (bits w 255 200 == 0 && bits w 1023 512 == 0) &&
    t.bind.toNat == bits w 511 256

/-- A token is the payload of the mailbox request: none where the payload has another length (R432, R457). -/
def State.mbHolds (s : State) (t : Token) : Bool :=
  t.present == (s.cur.mailbox.len == tokenBytes) && (!t.present || tokenReads t (s.mbValue 32))

/-- A mailbox request with a token: its checks, then the body (R433, R457, R458). -/
def State.mbToken (t : Token) (purpose bind : Nat) (signer : Nat → Bool) (body : State → Status × Nat × State) (s : State) :
    Status × Nat × State :=
  if !t.present then (.token, 0, s)
  else
    match s.tokenFails t purpose bind signer with
    | some st => (st, 0, s)
    | none => body (s.useToken t)

/-- The low byte `n` of a binding. -/
def boundByte (t : Token) (n : Nat) : Nat := t.bind.toNat / 256 ^ n % 256

/-! ## SENSOR_DISABLE (R440) -/

/-- The enabled, working sensors of a tile but one. -/
def State.otherWorking (s : State) (t k : Nat) : Bool :=
  (List.range 8).any (fun j => j != k && (s.sensor t j).enabled && !(s.sensor t j).broken)

/-- A sensor's enable changes; a disabled sensor is no longer broken (R439). -/
def State.enableSensor (t k : Nat) (on : Bool) (s : State) : State :=
  let v := s.sensor t k
  (s.setSensor t k (if on then { v with enabled := true }
    else { v with enabled := false, broken := false, cause := 0, same := 0, refs := [], moved := false })).relevel t

/-- SENSOR_DISABLE once its token has passed. -/
def State.sensorSwitch (t k op : Nat) (s : State) : Status × Nat × State :=
  if !s.hasTile t then (.unknown, 0, s)
  else if 8 ≤ k ∨ 2 ≤ op then (.param, 0, s)
  else if op = 0 ∧ !s.otherWorking t k then (.state, 0, s)
  else if op = 1 ∧ (s.sensor t k).broken then (.state, 0, s)
  else (.done, bit (s.sensor t k).enabled 0, s.enableSensor t k (op == 1))

def execSensorDisable (port : Nat) (tok : Token) (s : State) : Host.Outcome State Fault Refusal :=
  withUnit (s.hasPort port) (fun s => s.mbRequest port 2 (s.mbHolds tok) (fun s =>
    s.mbToken tok 6 (tok.bind.toNat % 2 ^ 24) (fun n => s.commonSigner n)
      (fun s => s.sensorSwitch (boundByte tok 0) (boundByte tok 1) (boundByte tok 2)))) s

/-! ## Keys (R433, R449) -/

/-- The owner key is installed in OPEN only, and its signer's number starts again (R458). A payload that is no key of 68 bytes
is a parameter out of range (DESIGN CHOICE, assumption 98). -/
def State.setOwner (key : BitVec 544) (s : State) : Status × Nat × State :=
  if s.cur.lifecycle != .opened then (.lifecycle, 0, s)
  else if s.cur.mailbox.len != 68 then (.param, 0, s)
  else (.done, 0, { s with cur := { s.cur with ownerKey := some key, lastOwner := 0 } })

def execOwnerSet (port : Nat) (key : BitVec 544) (s : State) : Host.Outcome State Fault Refusal :=
  withUnit (s.hasPort port) (fun s => s.mbRequest port 4 (key.toNat == s.mbValue 17) (fun s => s.setOwner key)) s

/-- Whether root key `k` is the last one not revoked. -/
def State.lastRoot (s : State) (k : Nat) : Bool :=
  s.rootSigner k && !(List.range 4).any (fun j => j != k && s.rootSigner j)

/-- A root key's fuse is blown. -/
def State.revokeRoot (k : Nat) (s : State) : Status × Nat × State :=
  if 4 ≤ k then (.param, 0, s)
  else
    let r := s.cur.revoked ||| BitVec.ofNat 4 (2 ^ k)
    (.done, r.toNat, { s with cur := { s.cur with revoked := r } })

def execRootRevoke (port : Nat) (tok : Token) (s : State) : Host.Outcome State Fault Refusal :=
  withUnit (s.hasPort port) (fun s => s.mbRequest port 5 (s.mbHolds tok) (fun s =>
    let k := boundByte tok 0
    if tok.present && s.lastRoot k then (.state, 0, s)
    else s.mbToken tok 7 (tok.bind.toNat % 256) (fun n => s.rootSigner n && n != k) (fun s => s.revokeRoot k))) s

/-! ## Zeroize (R461) -/

/-- An entry whose media data can no longer be read (assumption 49). -/
def Entry.unread (v : Entry) : Entry :=
  match v.place with
  | .media _ _ _ => { v with place := .lost }
  | .unmapped | .split _ | .lost => v

/-- Data that only DDR5 held, in the clear no more, is lost with its keys. -/
def State.loseStaged (s : State) : State :=
  let s1 := s.cat.bufs.foldl (fun s b => s.setEntry b.leaf b.key { s.entry b.leaf b.key with place := .lost }) s
  { s1 with cat := { s1.cat with bufs := [], undo := [], notes := [] } }

/-- Zeroize: the next generation, every key slot, that of KID 0 too, and every tile's DDR5 keys cleared. Nothing written to
media before can be read. -/
def State.zeroize (s : State) : State :=
  let s1 : State := { s with
    cur := { s.cur with rootGen := min 63 (s.cur.rootGen + 1) }
    cry := { s.cry with
      kids := tset kidDefault (tmap kidDefault (fun _ v => { v with curKey := none, prevKey := none }) s.cry.kids) 0
        { tget kidDefault s.cry.kids 0 with curKey := some { xts := 0, tag := 0 }, prevKey := none }
      ddrKey := [], treeKey := [], oldKey := [] }
    cat := { s.cat with
      folios := tmap (fun _ => {}) (fun _ v => v.unread) s.cat.folios
      leaves := tmap (fun _ => {}) (fun _ v => v.unread) s.cat.leaves } }
  s1.loseStaged

/-! ## LIFECYCLE (R455, R456) -/

/-- The lifecycle moves: recorded as 0xB001. -/
def State.setLife (v : Life) (s : State) : State :=
  let s1 := s.annal 0 { code := 0xB001, addr := Life.code s.cur.lifecycle, value := Life.code v }
  { s1 with cur := { s1.cur with lifecycle := v } }

/-- The state a code names. -/
def lifeOf (n : Nat) : Life :=
  match n with
  | 0 => .blank
  | 1 => .opened
  | 2 => .sealed
  | _ => .scrapped

/-- The signers of a transition (R456); of a target that no transition reaches, any. -/
def State.lifeSigner (s : State) (target n : Nat) : Bool :=
  let owner := s.cur.ownerKey.isSome && n == ownerSigner
  match s.cur.lifecycle, lifeOf target with
  | .blank, .opened => s.rootSigner n
  | .opened, .sealed => owner
  | _, _ => owner || s.rootSigner n

/-- SEALED to OPEN: zeroize and FORMAT with spare FFh come before the reply, and the tiles draw new DDR5 keys. Where that FORMAT's
spare setting does not fit, user space is emptied all the same, but the part stays read-only and keeps its baselines (R188; DESIGN
CHOICE, assumption 98). -/
def State.reopen (s : State) : State :=
  let s1 := s.zeroize
  let s2 := s1.tileList.foldl (fun s t => s.newDdrKeys t) s1
  let s3 := if s2.settingFits then s2.formatPart 255 else s2.emptySpace.emptyKids
  ({ s3 with cur := { s3.cur with returns := s3.cur.returns + 1 } } : State).setLife .opened

/-- LIFECYCLE once its token has passed. -/
def State.moveLife (target : Nat) (s : State) : Status × Nat × State :=
  if 4 ≤ target then (.param, 0, s)
  else
    match s.cur.lifecycle, lifeOf target with
    | .blank, .opened => (.done, 1, ({ s with cur := { s.cur with rootGen := 1 } } : State).setLife .opened)
    | .opened, .sealed => (.done, 2, s.setLife .sealed)
    | .sealed, .opened =>
      if 31 ≤ s.cur.returns ∨ 63 ≤ s.cur.rootGen then (.state, 0, s) else (.done, 1, s.reopen)
    | .opened, .scrapped | .sealed, .scrapped => (.done, 3, (s.zeroize).setLife .scrapped)
    | _, _ => (.state, 0, s)

/-- A return to OPEN waits, as FORMAT does, for a rollback to end and for what is in flight (assumption 46). -/
def State.lifeWaits (s : State) (tok : Token) : Bool :=
  s.cur.lifecycle == .sealed && boundByte tok 0 == 1 && s.spaceBusy

def execLifecycle (port : Nat) (tok : Token) (s : State) : Host.Outcome State Fault Refusal :=
  withUnit (s.hasPort port) (fun s =>
    if s.lifeWaits tok then s
    else s.mbRequest port 1 (s.mbHolds tok) (fun s =>
      s.mbToken tok 1 (tok.bind.toNat % 256) (fun n => s.lifeSigner (boundByte tok 0) n)
        (fun s => s.moveLife (boundByte tok 0)))) s

/-! ## Tamper alarms (R459, R460) -/

/-- The level set for a sensor. -/
def State.tamperLevel (s : State) (k : Nat) : Nat := s.field .curTamperCfg 0 0 (2 * k + 1) (2 * k)

/-- The A1 trips of a sensor within the last second. -/
def State.recentA1 (s : State) (key : Nat) : Nat :=
  (s.cur.a1Trips.filter (fun e => e.1 == key && decide (s.now < e.2 + 1000000000))).length

/-- A3: zeroize, SCRAPPED, and the security halt. -/
def State.scrap (t : Nat) (s : State) : State :=
  let s1 := s.zeroize
  (if s1.cur.lifecycle == .scrapped then s1 else s1.setLife .scrapped).securityHalt 4 t 0

/-- A trip at its level, which the eighth A1 trip within 1 s raises to A2. -/
def State.trip (t k : Nat) (reading : DWord) (s : State) : State :=
  let key := 8 * t + k
  let first := s.tamperLevel k
  let level := if first = 1 ∧ 7 ≤ s.recentA1 key then 2 else first
  let s1 := s.annal t { code := 0x8002, addr := k, value := level, aux := reading.toNat }
  let s2 := s1.putField .curTamperStat 0 0 k k 1
  if level = 1 then
    ({ s2 with cur := { s2.cur with a1Trips := s2.cur.a1Trips ++ [(key, s2.now)] } } : State).bump .curAlarmA1 0 0
  else if level = 2 then s2.securityHalt 4 t 0
  else if level = 3 then s2.scrap t
  else s2

/-- Sensor 4 watches in SEALED only. -/
def execTamperTrip (tile sensor : Nat) (reading : DWord) (s : State) : Host.Outcome State Fault Refusal :=
  withUnit (s.hasTile tile && decide (sensor < 5)) (fun s =>
    if s.pwr.vaonOk && (sensor != 4 || s.cur.lifecycle == .sealed) then s.trip tile sensor reading else s) s

end Sys2Proof.Machine
end

