-- ==== Sys2Proof/Machine/Power.lean ====
section
/-! DEFINITION. Power states and their transitions (R478 to R483). -/

namespace Sys2Proof.Machine

/-! ## POWER_STATE (R479, R482) -/

/-- The state a code names. -/
def pwrOf (n : Nat) : PwrSt :=
  match n with
  | 0 => .p0
  | 1 => .p1
  | 2 => .p2
  | _ => .p3

/-- Whether a code names the current state: in UP, or in P3. -/
def State.isState (s : State) (n : Nat) : Bool :=
  s.pwr.pwr.code == n && (s.pwr.st == .up || n == 3)

/-- What refuses a POWER_STATE that is neither of the current state nor an on request (R482). -/
def State.powerRefused (s : State) (n : Nat) : Bool :=
  !s.pwr.ready || s.pwr.st != .up || s.pwr.trans.isSome || s.pwr.down.isSome || !s.flt.resetting.isEmpty ||
    s.pwr.onLatched || s.pwr.offLatched || (s.pwr.pwr == .p2 && n == 1)

/-- A transition asked for by a command, which ends later and leaves the Curator queue; P2 and P3 seal the open epoch first. -/
def State.enterBy (c : Ctx) (n : Nat) (s : State) : State :=
  let s1 := (s.leaveQueue c).startTransition (pwrOf n) (some c)
  if 2 ≤ n then s1.trigger .power else s1

def State.powerState (c : Ctx) (n : Nat) (s : State) : State :=
  if 4 ≤ n then s.reply srcCurator c .param 0
  else if s.isState n then s.reply srcCurator c .done n
  else if c.path == .sideband && n == 0 && s.pwr.st != .up then (s.onRequest).reply srcCurator c .done 3
  else if s.powerRefused n then s.reply srcCurator c .state 0
  else s.enterBy c n

def execPowerState (c : Ctx) (state : Byte) (s : State) : Host.Outcome State Fault Refusal :=
  .next (s.command 0x44 srcCurator c (powerStateParams state) (fun s => s.powerState c state.toNat))

/-! ## The steps of a transition (R479) -/

/-- The transition ends in its target state. -/
def State.endTransition (s : State) : State := { s with pwr := { s.pwr with trans := none } }

/-- The command of a transition completes, once. -/
def State.replyTransition (x : Transition) (st : Status) (s : State) : State :=
  match x.ctx with
  | some c =>
    if x.replied then s
    else
      ({ s with pwr := { s.pwr with trans := some { x with replied := true } } } : State).reply srcCurator c st
        (if st = .done then s.pwr.pwr.code else 0)
  | none => s

/-- The reply of a transition has been written: it is no longer staged nor held for its ring (R482). -/
def State.replyOut (s : State) (x : Transition) : Bool :=
  x.replied &&
    match x.ctx with
    | some c =>
      match c.path with
      | .ring p _ _ =>
        (tget (fun _ => []) s.host.srcQ (srcQKey p srcCurator)).isEmpty &&
          (s.waiting p srcCurator).isEmpty && s.host.cqs.all (fun e => e.1 / 64 != p || e.2.held.isEmpty)
      | .sideband => true
    | none => true

/-- Agents have finished: no data-path command runs, no home transaction is in flight, no rollback runs. -/
def State.agentsQuiet (s : State) : Bool :=
  s.coh.txs.isEmpty && !s.epo.rollback && !s.host.cmds.any (fun k => k.started && decide (k.opcode < 0x40))

/-- The part runs again: from P2 the stored-enabled stream ports train. -/
def State.toRun (s : State) : State :=
  let s1 := s.enterPower .p0
  if s.pwr.pwr == .p2 then s1.tileList.foldl (fun s t => s.trainPorts t) s1 else s1

/-- P2: each host port treated as by an FLR with its link down, stream ports DISABLED, islands stopped. -/
def State.toHold (s : State) : State :=
  let s1 := s.ports.foldl (fun (s : State) p =>
    let s' := s.flrPort p
    s'.setPort p { s'.port p with linkUp := false }) s
  let s2 := s1.tileList.foldl (fun s t =>
    (List.range 8).foldl (fun (s : State) p =>
      let s' := s.leaveActive t p
      (s'.setSport t p (s'.sport t p).off).idleLanes t (s.portLanes t p)) s) s1
  s2.enterPower .p2

/-- P3: the records reach the mirrors, and the shut-down program runs from sd_entry. -/
def State.toShelf (s : State) : State :=
  let s1 := s.enterPower .p3
  let s2 := s1.curators.foldl (fun s c => s.tileList.foldl (fun s t => s.mirrorTile c t) s) s1
  s2.enterFalling s2.pwr.prog.sdEntry

/-- A transition's steps have run. For P2 and P3 the sealed epoch comes first (for P3 until it is durable), then the
reply, and the state changes once the reply is written. A reset in progress is waited for (R483). -/
def State.transition (x : Transition) (s : State) : State :=
  let held := !s.flt.resetting.isEmpty || (x.ctx.isSome && s.cur.primary.isNone)
  if held then s
  else
    match x.target with
    | .p0 => ((s.replyTransition x .done).toRun).endTransition
    | .p1 => if s.agentsQuiet then ((s.replyTransition x .done).routesQuiet.enterPower .p1).endTransition else s
    | .p2 =>
      if x.sealAt = 0 ∨ s.epo.rollback then s
      else if !x.replied then s.replyTransition x .done
      else if s.replyOut x then (s.toHold).endTransition else s
    | .p3 =>
      if x.sealAt = 0 ∨ s.epo.rollback ∨ s.epo.durable < x.sealAt then s
      else if !x.replied then s.replyTransition x .done
      else if s.replyOut x then s.toShelf else s

def execTransitionDone (s : State) : Host.Outcome State Fault Refusal :=
  .next (match s.pwr.trans with
    | some x => if s.pwr.st == .up then s.transition x else s
    | none => s)

/-- The durability wait of an entry to P3 has run out. -/
def State.durTimeout (s : State) (x : Transition) : Bool :=
  x.target == .p3 && !x.replied && decide (x.began + s.field .pwrCfg 0 0 15 0 * 1000000 ≤ s.now)

/-- The command completes with 02h/0Bh and the part stays in P0, where it returns from P1 or P2. -/
def State.abandonP3 (x : Transition) (s : State) : State :=
  let s1 := (s.replyTransition x .state).endTransition
  if s1.pwr.pwr == .p0 then s1 else s1.toRun

def execP3DurabilityTimeout (s : State) : Host.Outcome State Fault Refusal :=
  .next (match s.pwr.trans with
    | some x => if s.pwr.st == .up && s.durTimeout x then s.abandonP3 x else s
    | none => s)

/-- Work that a quiet part cannot serve returns it to P0 (R480). -/
def execP1Wake (s : State) : Host.Outcome State Fault Refusal :=
  .next (if s.pwr.st == .up then s.wake else s)

end Sys2Proof.Machine
end

