-- ==== Sys2Proof/Machine/PartResets.lean ====
section
/-! DEFINITION. Power-on, COLD, WARM, TILE and port resets, and host links (R476, R483 to R489). -/

namespace Sys2Proof.Machine

/-! ## VAON and POR (R464, R476, R484, R488) -/

/-- VAON falls below 1.62 V: every island is in reset and every enable falls. -/
def State.loseVaon (s : State) : State :=
  let s1 := (s.loseSources.loseUnstored).afterHard .por
  { s1 with
    cur := { s1.cur with primary := none, restart := none, standby := .none }
    pwr := { s1.pwr with
      vaonOk := false, st := .down, islands := false, en := 0, armed := [], onLatched := false, offLatched := false
      commitBusy := false, commitImg := [], pwr := .p0 } }

def execVaonFall (s : State) : Host.Outcome State Fault Refusal :=
  .next (if s.pwr.vaonOk then s.loseVaon else s)

/-- The part's times start again with part time at 0. -/
def State.zeroTimes (s : State) : State :=
  { s with
    now := 0
    anl := { s.anl with buckets := [] }
    epo := { s.epo with autoStart := 0 }
    flt := { s.flt with resets := [] }
    cur := { s.cur with a1Trips := [], beat := [] }
    thm := { s.thm with
      lastSample := 0, lastSpare := 0
      sensors := tmap (fun _ => {}) (fun _ v => { v with convAt := 0 }) s.thm.sensors }
    med := { s.med with
      scrubbed := []
      mblocks := tmap (fun _ => {}) (fun _ b => { b with calAt := 0 }) s.med.mblocks }
    pwr := { s.pwr with stepAt := 0, offAt := 0, resetAt := 0 } }

/-- The tile count that the tile straps name (R488). -/
def strapTiles (v : BitVec 2) : Option Nat :=
  match v.toNat with
  | 0 => some 2
  | 1 => some 4
  | 2 => some 8
  | _ => none

/-- The straps are sampled. -/
def State.sampleStraps (s : State) : State :=
  { s with pwr := { s.pwr with straps := s.pwr.pins, strapBad := strapTiles s.pwr.pins.tiles != some s.tiles } }

/-- The program to run: the flash's where its strap asks for it and it is valid, otherwise the built-in one (R468). -/
def State.chooseProgram (s : State) : State :=
  if !s.pwr.straps.seqprog then
    { s with pwr := { s.pwr with prog := Program.builtin, builtin := true, progBad := false } }
  else if imageError s.pwr.flash = 0 then
    { s with pwr := { s.pwr with prog := imageProgram s.pwr.flash, builtin := false, progBad := false } }
  else
    ({ s with pwr := { s.pwr with prog := Program.builtin, builtin := true, progBad := true } } : State).fault 0
      (srcId 0x11 0) {}

/-- VAON rises above 1.71 V: everything resets, straps are sampled, the Curators boot, and the power-up program runs where
auto_on is set (R476, R491). -/
def State.powerOn (s : State) : State :=
  let s0 : State := { s with pwr := { s.pwr with vaonOk := true } }
  let s1 := ((s0.afterHard .por).zeroTimes).sampleStraps
  let s2 := s1.rebootCurators
  let s3 : State := { s2 with pwr := { s2.pwr with
    st := .down, step := 0, en := 0, armed := [], lastReset := 0, islands := false } }
  let s4 := (s3.chooseProgram).noteReset 0 0
  if s4.pwr.prog.autoOn then s4.startRising else s4

def execPor (s : State) : Host.Outcome State Fault Refusal :=
  .next (if s.pwr.vaonOk then s else s.powerOn)

/-! ## COLD and WARM (R483, R484, R486) -/

/-- PART_STAT.last_reset after a reset: where the boot of an earlier one had not completed, that of the harsher of the two
(R17). -/
def State.lastAfter (s : State) (kind : Nat) : Nat := if s.pwr.ready then kind else min kind s.pwr.lastReset

/-- A COLD reset of a running part; its islands stay in reset until they are released. -/
def State.coldStart (s : State) : State :=
  let s1 := (s.afterHard .cold).rebootCurators
  { s1 with pwr := { s1.pwr with islands := false, lastReset := s.lastAfter 1 } }

/-- A WARM reset. One that comes before the boot of a COLD reset or a POR has completed leaves every field as the harsher one
does (R17). -/
def State.warmStart (s : State) : State :=
  if s.pwr.ready || s.pwr.warmBoot then s.afterWarm else (s.coldStart).releaseIslands

/-- RESET_N is low for 1 µs. While RISING it only holds the islands in reset; off, the reset is recorded. -/
def State.resetLow (s : State) : State :=
  let s1 : State := { s with pwr := { s.pwr with resetN := false } }
  match s1.pwr.st with
  | .up => (s1.coldStart).noteReset 1 0
  | .rising => s1
  | .down | .falling | .holdOff => s1.noteReset 1 0

def execColdReset (s : State) : Host.Outcome State Fault Refusal :=
  .next (if s.pwr.vaonOk then s.resetLow else s)

/-- The BAR0 offset of PART_RESET. -/
def partResetOff : Nat := 0x8

/-- A write of PART_RESET: the key with warm starts a WARM reset, which is only recorded once the part is off; any other
write is ignored and recorded (R483, R486). -/
def State.writePartReset (p w : Nat) (s : State) : State :=
  if bits w 31 16 = 0x5741 ∧ bits w 0 0 = 1 then
    match s.pwr.st with
    | .up => if s.pwr.islands then (s.warmStart).noteReset 2 0 else s
    | .rising => s
    | .down | .falling | .holdOff => s.noteReset 2 0
  else s.refusedWrite 0 p partResetOff w

def execWarmReset (port : Nat) (value : Word) (s : State) : Host.Outcome State Fault Refusal :=
  s.bar0 port (fun s => s.writePartReset port value.toNat)

/-! ## TILE resets (R65, R222, R356, R410, R484) -/

/-- The items a reset discards are a free value. -/
def State.discarded (s : State) : Nat := (Config.free s.freeCtr).toNat % 65536

/-- The passes of a tile's neighbours toward it close. -/
def State.closeNeighbours (t : Nat) (s : State) : State :=
  ((List.range 3).filter (fun k => s.hasSaddle k && s.tileRuns (t ^^^ 2 ^ k))).foldl (fun s k =>
    (s.closePasses (t ^^^ 2 ^ k) [78 + k, 81 + k, 110 + k] s.discarded true false true).drawn 1) s

/-- What a TILE reset takes from the host port and the Curator of the tile. -/
def State.resetHostSide (t : Nat) (s : State) : State :=
  if 2 ≤ t then s
  else
    let s1 := (s.endCmds t).clearBank t
    let s2 := s1.setPort t { s1.port t with linkUp := false }
    if s2.cur.primary == some (1 - t) then { s2 with cur := { s2.cur with standby := .failed } } else s2

/-- The Curator resets a tile: its blocks reset, its neighbours close their passes, and the epoch aborts. -/
def State.tileReset (t : Nat) (s : State) : State :=
  let s1 := (s.resetTile t).resetHostSide t
  let s2 : State := { s1 with
    flt := { s1.flt with resets := s1.flt.resets ++ [(t, s1.now)], resetting := s1.flt.resetting ++ [(t, s1.now)] }
    pwr := { s1.pwr with lastReset := s.lastAfter 3 } }
  ((s2.closeNeighbours t).noteReset 3 t).startAbort

/-- A Curator on another tile gives the reset; a failed tile, one under reset and a part in the security halt get none. -/
def State.canReset (s : State) (t : Nat) : Bool :=
  s.coreUp && s.cry.haltCause == 0 && !s.flt.failed.getLsbD t && !s.flt.resetting.any (fun e => e.1 == t) &&
    (match s.cur.primary with
     | some p => p != t
     | none => false)

def execTileReset (tile : Nat) (s : State) : Host.Outcome State Fault Refusal :=
  withUnit (s.hasTile tile) (fun s => if s.canReset tile then s.tileReset tile else s) s

/-! ## Host ports (R64, R83, R356, R485) -/

def execFlr (port : Nat) (s : State) : Host.Outcome State Fault Refusal :=
  withUnit (s.hasPort port) (fun s =>
    if s.hostUp port then (s.flrPort port).noteReset 4 port else s) s

/-- The passes of a host port alone close, in an orderly way. -/
def State.closeHost (p : Nat) (s : State) : State :=
  if s.passClosed p 0 then s
  else (s.closePasses p [0, 1, 90] s.discarded false true false).drawn 1

/-- PERST# of one port falls: alone it resets that port, with its partner low, or in single host mode, it is a COLD reset
that ends at once. -/
def State.perstFalls (p : Nat) (s : State) : State :=
  let s1 := s.setPort p { s.port p with perstLow := true, linkUp := false }
  if s.pwr.st != .up || !s.pwr.islands then s1
  else if !s.dual || (s.port (1 - p)).perstLow then
    ((s1.coldStart).noteReset 1 0).releaseIslands
  else (s1.closeHost p).flrPort p

def execPerst (port : Nat) (low : Bool) (s : State) : Host.Outcome State Fault Refusal :=
  withUnit (s.hasPort port) (fun s =>
    if !low then s.setPort port { s.port port with perstLow := false }
    else if (s.port port).perstLow then s
    else s.perstFalls port) s

def execHostLinkLoss (port : Nat) (s : State) : Host.Outcome State Fault Refusal :=
  withUnit (s.hasPort port) (fun s =>
    if (s.port port).linkUp then (s.setPort port { s.port port with linkUp := false }).closeHost port else s) s

/-- A host link can train: the islands run, PERST# is high and the straps fit the part (R489). -/
def State.canTrain (s : State) (p : Nat) : Bool :=
  s.pwr.st == .up && s.pwr.islands && (s.pwr.pwr == .p0 || s.pwr.pwr == .p1) && !(s.port p).perstLow && !s.pwr.strapBad

/-- A link has trained; the host has set the MSI-X capability as given. -/
def State.linkTrains (p : Nat) (speed width : Byte) (en fmask : Bool) (s : State) : State :=
  s.setPort p { s.port p with linkUp := true, speed := speed, width := width, msixEn := en, fmask := fmask }

def execHostLinkUp (port : Nat) (speed width : Byte) (msixEn fmask : Bool) (s : State) : Host.Outcome State Fault Refusal :=
  withUnit (s.hasPort port) (fun s =>
    if s.canTrain port then s.linkTrains port speed width msixEn fmask else s) s

end Sys2Proof.Machine
end

