-- ==== Sys2Proof/Machine/Boot.lean ====
section
/-! DEFINITION. The boot of the part up to ready (R23, R106, R153 to R156, R175, R184, R417, R490 to R492). -/

namespace Sys2Proof.Machine

/-! ## Targets (R154 to R156) -/

/-- A target that answers at boot, with its channel and number. -/
structure Found where
  ch   : Nat
  k    : Nat
  page : List Byte
  table : List Byte
  item : Nat

/-- The targets of a tile, in target-major order (R23). -/
def foundOn (t : Nat) (e : BootEnv) : List Found :=
  (List.range 64).filterMap (fun n =>
    let k := n / 16
    let c := n % 16
    (e.targets.find? (fun v => v.key == targetKey t c k)).map (fun v =>
      { ch := c, k := k, page := v.page, table := v.table, item := v.item }))

/-- Pages of a target: dies × planes × blocks per plane × pages per block. -/
def pageCount (page : List Byte) : Nat := pageBlocks page * pagePpb page

/-- A drift table whose CRC is good (R173). -/
def tableGood (b : List Byte) : Bool := crc32c ((b.drop 64).take 9216) == byteField b 8 4

/-- Drift class identifier of a parameter page. -/
def pageClass (page : List Byte) : Nat := byteField page 4 2

/-- What item 8 of R155 compares. -/
def pageShape (page : List Byte) : List Nat := [pagePpb page, byteField page 6 1, byteField page 7 1, pageClass page]

/-- The items of R155 that a target fails by itself, 0 for none: 1, 3 and 9 show in its pages. -/
def Found.ownItem (v : Found) : Nat :=
  ([if pageGood v.page && tableGood v.table then 0 else 1, v.item,
    if byteField v.page 6 1 * byteField v.page 7 1 < 8 then 3 else 0,
    if 2 ^ 26 < pageCount v.page then 9 else 0].filter (· != 0)).min?.getD 0

/-- The shape of a tile's media: that of its first target that fails no other item. -/
def refShape (l : List Found) : Option (List Nat) := (l.find? (fun v => v.ownItem == 0)).map (fun v => pageShape v.page)

/-- The first item that a target fails, item 8 among them. -/
def Found.failItem (v : Found) (ref : Option (List Nat)) : Nat :=
  let eight := if ref.isSome && ref != some (pageShape v.page) then 8 else 0
  ([v.ownItem, eight].filter (· != 0)).min?.getD 0

/-! ## Mapping (R23) -/

/-- The targets mapped while their summed pages stay at or below the limit: none after the first that would exceed it. -/
def mapTargets (limit : Nat) : Nat → List Found → List Found
  | _, [] => []
  | sum, v :: l =>
    if sum + pageCount v.page ≤ limit then v :: mapTargets limit (sum + pageCount v.page) l else []

/-- The pages of media that a tile's DDR5 supports. -/
def ddrLimit (gib : Nat) : Nat := (gib - 16) * 4 / 3 * 2 ^ 26

/-- The GiB of DDR5 that raw media of some pages require. -/
def gibFor (pages : Nat) : Nat := 16 + (3 * pages + 4 * 2 ^ 26 - 1) / (4 * 2 ^ 26)

/-! ## A tile at boot -/

/-- A channel's targets are reset and it trains at the rate given, or not at all where none of them answers; below 8.0 GT/s it is
degraded, and untrained its member blocks count as retired. A degraded channel does not train again after a WARM reset (R149,
R151, R153). -/
def State.trainChan (t c : Nat) (e : BootEnv) (s : State) : State :=
  if s.pwr.warmBoot && (s.chan t c).degraded then s
  else
  let answers := e.targets.any (fun v => v.key / 4 == chanKey t c)
  let rate := if answers then (e.rates.lookup (chanKey t c)).getD 0 % 4 else 3
  let s0 := (List.range 4).foldl (fun s k => s.sendPacket t c k { cmd := .train }) (s.emit (.mediaReset t c))
  let s1 := s0.setChan t c { s0.chan t c with
    trained := rate != 3, degraded := rate != 0, rate := BitVec.ofNat 2 rate, engineReset := false }
  let s2 := if rate = 3 then s1.degrade t c (fun _ => true) else s1
  if rate = 0 then s2 else s2.fault t (srcId 0x01 c) { minSev := 2, aux := rate }

/-- A target as its boot leaves it, its parameter area read; one that does not qualify is recorded (R154, R156, R421). -/
def State.foundTarget (t : Nat) (v : Found) (item : Nat) (mapped : Bool) (s : State) : State :=
  let s0 := (List.range 16).foldl (fun s n => s.sendPacket t v.ch v.k { cmd := .paramRead, page := n }) s
  let s1 := s0.setTarget t v.ch v.k { s0.target t v.ch v.k with
    present := true, qualified := item == 0, mapped := mapped, failItem := item, page := v.page }
  if item = 0 then s1
  else (s1.annal t { code := 0x2001, addr := v.ch + 256 * v.k, value := item }).spareEntry t 2 (v.ch + 256 * v.k)

/-- GET_BLOCK of a member block, and the slots of its status window (R151, R158, R501). -/
def State.blockWindow (t c b : Nat) (s : State) : State :=
  (s.sendBlock t c b .getBlock 0 0 []).topDown t (8 + c) 0 (BackKind.block.slots (s.chan t c).rate)

/-- The member blocks of a tile that its records or its boot tell of. -/
def State.toldBlocks (s : State) (t : Nat) (bad : List (Nat × Nat)) : List (Nat × Nat) :=
  let known := (s.med.mblocks.filter (fun x => x.1 / 2 ^ 36 == t)).map (fun x => (x.1 / 2 ^ 32 % 16, x.1 % 2 ^ 32))
  known ++ bad.filter (fun x => !known.contains x)

/-- What GET_BLOCK returns of a tile's blocks: their targets keep erase counts and bad marks, and a bad block leaves its stripe block
degraded (R151, R155, R183). -/
def State.badBlocks (t : Nat) (e : BootEnv) (s : State) : State :=
  let bad := (e.bad.filter (fun x => x.1 / 16 == t)).map (fun x => (x.1 % 16, x.2))
  bad.foldl (fun (s : State) x =>
    (s.setMblock t x.1 x.2 { s.mblock t x.1 x.2 with bad := true }).degrade t x.1 (· == x.2))
    ((s.toldBlocks t bad).foldl (fun s x => s.blockWindow t x.1 x.2) s)

/-- A target that holds members of stripe blocks and is not in use at this boot, absent or not qualified, has failed (R183). -/
def State.missTargets (t : Nat) (s : State) : State :=
  (List.range 64).foldl (fun (s : State) n =>
    let c := n / 4
    let k := n % 4
    if !(s.target t c k).used && (s.membersOn t c).any (fun b => blockTarget b == k) then s.failTarget t c k else s) s

/-- The media figures of a tile: pages per block, drift class and offsets, and the table in use (R154, R174). -/
def State.setMedia (t : Nat) (l : List Found) (pages gib : Nat) (s : State) : State :=
  let s1 : State := { s with pwr := { s.pwr with
    mediaPages := tset (fun _ => 0) s.pwr.mediaPages t pages
    ddrGib := tset (fun _ => 0) s.pwr.ddrGib t gib } }
  match l.head? with
  | some v => s1.setSpare t { s1.spare t with
      ppb := pagePpb v.page, classId := BitVec.ofNat 16 (pageClass v.page), maxOff := byteField v.page 16 1, dflt := v.table }
  | none => s1

/-- The media and links of one tile. -/
def State.bootTile (e : BootEnv) (t : Nat) (s : State) : State :=
  let found := foundOn t e
  let ref := refShape found
  let good := found.filter (fun v => v.failItem ref == 0)
  let gib := e.ddr.getD t 0
  let mapped := mapTargets (ddrLimit gib) 0 good
  let pages := mapped.foldl (fun a v => a + pageCount v.page) 0
  let all := good.foldl (fun a v => a + pageCount v.page) 0
  let s1 := (List.range 16).foldl (fun s c => s.trainChan t c e) ((s.saddlesUp t).setMedia t good pages gib)
  let s2 := ((found.foldl (fun s v =>
    s.foundTarget t v (v.failItem ref) (mapped.any (fun m => m.ch == v.ch && m.k == v.k))) s1).missTargets t).badBlocks t e
  let s3 := s2.measure t
  if mapped.length = good.length then s3
  else s3.annal t { code := 0x2002, addr := pages / 2 ^ 26, value := gibFor all }

/-! ## Ready (R491, R492) -/

/-- A boot that scans raises the boot number; its sequences restart with empty rings, once their records are mirrored
(R175, R417), and each tile has new DDR5 keys. -/
def State.newBoot (s : State) : State :=
  let s1 := s.curators.foldl (fun s c => s.tileList.foldl (fun s t => s.mirrorTile c t) s) s
  let s2 := s1.putField .anlBoot 0 0 14 0 ((s1.field .anlBoot 0 0 14 0 + 1) % 2 ^ 15)
  let s3 : State := { s2 with anl := { s2.anl with rings := [], nextSeq := [], mirrored := [] } }
  s3.tileList.foldl (fun s t => s.newDdrKeys t) s3

/-- The spare setting of a new part is stored and its baseline taken; the spare of any other is brought up to date (R184,
R490). -/
def State.bootSpare (s : State) : State :=
  match s.med.spareSet with
  | some _ => s.tileList.foldl (fun s t => s.spareCheck t) s
  | none => (s.withSetting (some s.pwr.straps.spare)).newBaselines

/-- The boot reports ready: PART_BOOT counts from the reset, and the auto-close timer starts. -/
def State.reportReady (s : State) : State :=
  let s1 : State := { s with
    pwr := { s.pwr with ready := true, scanning := false }
    epo := { s.epo with autoStart := s.now } }
  (s1.putReg .partBoot 0 0 (min ((s.now - s.pwr.resetAt) / 1000000) (2 ^ 32 - 1))).startStandby

def State.bootReady (e : BootEnv) (s : State) : State :=
  let s1 := if s.pwr.warmBoot then s else s.newBoot
  let s2 := s1.tileList.foldl (fun s t => s.bootTile e t) s1
  (s2.bootSpare).reportReady

/-- The scans of a boot that needs them are complete. -/
def State.scansDone (s : State) : Bool := s.pwr.warmBoot || s.tileList.all (fun t => s.pwr.scanned.contains t)

def execBootReady (b : BootEnv) (s : State) : Host.Outcome State Fault Refusal :=
  .next (if s.pwr.st == .up && s.pwr.islands && s.pwr.pwr == .p0 && !s.pwr.ready && !s.pwr.strapBad && s.scansDone then
      s.bootReady b
    else s)

end Sys2Proof.Machine
end

