-- ==== Sys2Proof/Machine/Counters.lean ====
section
/-! DEFINITION. Performance counters: their programming (R496 to R499), clears (R502, R506), freeze and snapshot (R503 to
R505). -/

namespace Sys2Proof.Machine

/-! ## Events (R497, R499) -/

/-- The fields of PMC_CFG (R506). -/
def cfgOn (w : Nat) : Bool := bits w 31 31 == 1
def cfgLevel (w : Nat) : Bool := bits w 30 30 == 1
def cfgEvent (w : Nat) : Nat := bits w 23 16
def cfgInst (w : Nat) : Nat := bits w 15 8

/-- The island copy that a setting counts in: each channel, DDR5 controller and saddle link is its own. -/
def pmcIsland (w : Nat) : Option (Island × Nat) :=
  (pmcEvent (cfgEvent w)).map (fun e =>
    match e.island with
    | .media | .ddr | .saddle => (e.island, cfgInst w)
    | .core | .port | .host | .cur | .aon => (e.island, 0))

/-- The other counters of a tile that take a channel or an accumulator of the same island. -/
def State.pmcUsers (s : State) (t i w : Nat) : Nat :=
  ((List.range 64).filter (fun j =>
    let c := s.reg .pmcCfg t j
    j != i && cfgOn c && cfgLevel c == cfgLevel w && pmcIsland c == pmcIsland w)).length

/-- 16 channels of an event pass, 4 level accumulators (R497). -/
def pmcLimit (level : Bool) : Nat := if level then 4 else 16

/-- Whether R498 lets a write of PMC_CFG through. -/
def State.cfgAllowed (s : State) (t i w : Nat) : Bool :=
  match pmcEvent (cfgEvent w) with
  | none => false
  | some e =>
    let core := e.island == .core
    let here := match e.island with
      | .host | .cur => decide (t < 2)
      | .core | .media | .ddr | .port | .saddle | .aon => true
    let old := s.reg .pmcCfg t i
    here && (decide (cfgInst w < e.n) || (cfgInst w == 255 && core && decide (1 < e.n))) && (!cfgLevel w || e.level) &&
      (core || !cfgOn w || decide (s.pmcUsers t i w < pmcLimit (cfgLevel w))) &&
      !(cfgOn old && cfgOn w && (cfgEvent old != cfgEvent w || cfgInst old != cfgInst w || cfgLevel old != cfgLevel w))

/-- The BAR0 offset of PMC_CFG `i`. -/
def pmcCfgOff (t i : Nat) : Nat := tileBase t + 0x90100 + 4 * i

def State.writePmcCfg (p t i w : Nat) (s : State) : State :=
  if s.cfgAllowed t i w then s.writeReg .pmcCfg t i false w else s.refusedWrite t p (pmcCfgOff t i) w

def execPmcCfgWrite (port tile i : Nat) (value : Word) (s : State) : Host.Outcome State Fault Refusal :=
  s.tileWrite port tile (decide (i < 64)) (fun s => s.writePmcCfg port tile i value.toNat)

/-- PMC_CNT sets one half of a counter. -/
def State.writePmcCnt (t i : Nat) (high : Bool) (w : Nat) (s : State) : State :=
  let k := 64 * t + i
  let v := tget (fun _ => 0) s.pmc.cnt k
  { s with pmc := { s.pmc with
      cnt := tset (fun _ => 0) s.pmc.cnt k (if high then w * 2 ^ 32 + v % 2 ^ 32 else v / 2 ^ 32 * 2 ^ 32 + w) } }

def execPmcCntWrite (port tile i : Nat) (high : Bool) (value : Word) (s : State) : Host.Outcome State Fault Refusal :=
  s.tileWrite port tile (decide (i < 64)) (fun s => s.writePmcCnt tile i high value.toNat)

/-! ## Level mode (R496, R497) -/

/-- The cycles of an island per ns, as a fraction (R12). -/
def Island.rate : Island → Nat × Nat
  | .core | .ddr => (8, 5)
  | .port => (7, 4)
  | .media | .host => (1, 1)
  | .saddle => (2, 1)
  | .cur => (1, 2)
  | .aon => (1, 40)

/-- The cycles of an island that end in the ns that follows a part time. -/
def Island.cycles (i : Island) (now : Nat) : Nat :=
  (now + 1) * i.rate.1 / i.rate.2 - now * i.rate.1 / i.rate.2

/-- Whether a tile's copy of an island is clocked: the core, media, DDR5 and saddle islands in P0, and in P1 while the tile drains,
the port and host islands in P0 and P1 (R32, R478, R481, R496). -/
def State.clocked (s : State) (t : Nat) (i : Island) : Bool :=
  let up := s.pwr.st == .up && s.pwr.islands && s.tileRuns t
  match i with
  | .core | .media | .ddr | .saddle => up && (s.pwr.pwr == .p0 || (s.pwr.pwr == .p1 && s.draining t))
  | .port | .host => up && (s.pwr.pwr == .p0 || s.pwr.pwr == .p1)
  | .cur => s.curators.contains t
  | .aon => s.pwr.vaonOk

/-- Whether the condition of an event that level mode may count holds (R499). -/
def State.levelHolds (s : State) (t code inst : Nat) : Bool :=
  match code with
  | 0x0D => decide (256 ≤ (s.coh.miss.filter (fun e => e.1 / 2 ^ 42 == t && e.2.any (fun m => !m.stream))).length)
  | 0x0E => s.stagingFull t || s.tileList.any (fun u => decide (32 ≤ tget (fun _ => 0) s.coh.wbUsed (wbKey t u)))
  | 0x0F => s.undoFull t
  | 0x10 => s.epo.rollback
  | 0x12 => s.cap.stalled.getLsbD t
  | 0x26 => (s.cal t).stretching.isSome && (s.cal t).phase == inst % 8
  | 0x27 => (s.chan t inst).granted.isSome
  | 0x47 => (s.engine t inst).creditWait
  | 0x52 => s.net.any (fun m => takesLink t inst m.via)
  | 0x63 => (s.port t).noCredit
  | 0x70 => s.cur.primary == some t && !s.cur.queue.isEmpty
  | _ => false

/-- What a counter's level adds in a ns: 1 for each cycle of its event's island while its condition holds. -/
def State.levelStep (s : State) (t i : Nat) : Nat :=
  let c := s.reg .pmcCfg t i
  match pmcEvent (cfgEvent c) with
  | some e =>
    if cfgOn c && cfgLevel c && s.clocked t e.island && s.levelHolds t (cfgEvent c) (cfgInst c) then e.island.cycles s.now else 0
  | none => 0

/-- A ns passes for the counters in level mode of every tile that is not frozen. -/
def State.levels (s : State) : State :=
  { s with pmc := { s.pmc with
      cnt := (s.tileList.filter (fun t => !s.pmc.frozenT.getLsbD t)).foldl (fun m t =>
        (List.range 64).foldl (fun m i =>
          tset (fun _ => 0) m (64 * t + i) (min (tget (fun _ => 0) m (64 * t + i) + s.levelStep t i) (2 ^ 64 - 1))) m)
        s.pmc.cnt } }

/-! ## Clears (R502, R506) -/

def State.clearTopDown (t : Nat) (s : State) : State :=
  { s with pmc := { s.pmc with td := tdrop (fun k => k / 96 == t) s.pmc.td } }

def State.clearCounters (t : Nat) (s : State) : State :=
  { s with pmc := { s.pmc with cnt := tdrop (fun k => k / 64 == t) s.pmc.cnt } }

def execClearTd (port tile : Nat) (s : State) : Host.Outcome State Fault Refusal :=
  s.tileWrite port tile true (fun s => s.clearTopDown tile)

def execClearProg (port tile : Nat) (s : State) : Host.Outcome State Fault Refusal :=
  s.tileWrite port tile true (fun s => s.clearCounters tile)

/-! ## Freeze, thaw and snapshot (R503 to R505) -/

/-- The BAR0 offset of PMC_FREEZE. -/
def pmcFreezeOff : Nat := 0x80000

/-- A write of PMC_FREEZE: the actions it schedules at T, 2,000 ns on. A freeze of a frozen part and a thaw of one that is
not have no effect; a write while one is scheduled, or of both, is ignored and recorded (R504). -/
def State.pmcRequest (p w : Nat) (s : State) : State :=
  if w % 8 = 0 then s
  else if s.pmc.busy || bits w 1 0 == 3 then s.refusedWrite 0 p pmcFreezeOff w
  else
    let f := bits w 0 0 == 1 && !s.pmc.frozen
    let h := bits w 1 1 == 1 && s.pmc.frozen
    let n := bits w 2 2 == 1
    if f || h || n then
      { s with pmc := { s.pmc with
          busy := true, done := 0, action := some { freeze := f, thaw := h, snap := n, t := s.now + 2000, acted := [] } } }
    else s

def execFreeze (port : Nat) (s : State) : Host.Outcome State Fault Refusal := s.bar0 port (fun s => s.pmcRequest port 1)

def execThaw (port : Nat) (s : State) : Host.Outcome State Fault Refusal := s.bar0 port (fun s => s.pmcRequest port 2)

def execSnap (port : Nat) (s : State) : Host.Outcome State Fault Refusal := s.bar0 port (fun s => s.pmcRequest port 4)

/-- What the part shows of an action, from the first tile that meets it on. -/
def State.pmcShown (a : PmcAction) (s : State) : State :=
  { s with pmc := { s.pmc with
      frozen := (s.pmc.frozen || a.freeze) && !a.thaw
      freezeTime := if a.freeze then a.t else s.pmc.freezeTime
      seq := if a.snap then (s.pmc.seq + 1) % 65536 else s.pmc.seq
      snapTime := if a.snap then a.t else s.pmc.snapTime } }

/-- Entries of one table replace those of another for the keys of a tile. -/
def copyKeys (n t : Nat) (src dst : Tbl Nat) : Tbl Nat :=
  (src.filter (fun e => e.1 / n == t)).foldr (fun e m => tset (fun _ => 0) m e.1 e.2) (tdrop (fun k => k / n == t) dst)

/-- A tile acts: it freezes or counts again, and copies its counters. -/
def State.pmcAct (t : Nat) (a : PmcAction) (s : State) : State :=
  { s with pmc := { s.pmc with
      frozenT := if a.freeze then s.pmc.frozenT ||| tileBit t else if a.thaw then s.pmc.frozenT &&& ~~~tileBit t
        else s.pmc.frozenT
      snapCnt := if a.snap then copyKeys 64 t s.pmc.cnt s.pmc.snapCnt else s.pmc.snapCnt
      tdSnap := if a.snap then copyKeys 96 t s.pmc.td s.pmc.tdSnap else s.pmc.tdSnap
      done := s.pmc.done ||| tileBit t } }

/-- A tile meets T: one that is failed, halted or under a TILE reset does not act. The request ends once every tile has met
T, or 4 µs after it. -/
def State.pmcMeet (t : Nat) (a : PmcAction) (s : State) : State :=
  let s1 := if a.acted.isEmpty then s.pmcShown a else s
  let late := decide (a.t + 4000 < s.now)
  let s2 := if s1.tileRuns t && !late then s1.pmcAct t a else s1
  let acted := a.acted ++ [t]
  let ends := late || s.tileList.all (fun u => acted.contains u)
  { s2 with pmc := { s2.pmc with busy := !ends, action := if ends then none else some { a with acted := acted } } }

def execPmcActionAtT (tile : Nat) (s : State) : Host.Outcome State Fault Refusal :=
  withUnit (s.hasTile tile) (fun s =>
    match s.pmc.action with
    | some a => if a.t ≤ s.now && !a.acted.contains tile then s.pmcMeet tile a else s
    | none => s) s

end Sys2Proof.Machine
end

