-- ==== Sys2Proof/Machine/Seals.lean ====
section
/-! DEFINITION. Seals tile by tile (R96, R220, R327), markers (R98), rollback to D (R103, R104, R221, R534) and the
coordinators (R97). -/

namespace Sys2Proof.Machine

/-! ## Close triggers of registers and timers (R95) -/

/-- A write of EPO_CTRL.close: stores of its port that still wait come first (R91); a rollback holds it after them (R534). -/
def State.closeNow (p : Nat) (s : State) : State :=
  let h := s.port p
  if s.epo.rollback || h.heldDw.all (fun x => x.store.isNone) then s.trigger .ctrl
  else s.setPort p { h with closeHeld := true }

def execEpoCtrlClose (port : Nat) (s : State) : Host.Outcome State Fault Refusal :=
  s.bar0 port (fun s => if s.coreUp then s.closeNow port else s)

def execAutoCloseExpiry (s : State) : Host.Outcome State Fault Refusal :=
  .next (if s.coreUp then s.autoExpiry else s)

/-! ## Seals (R96, R220) -/

/-- A walk covers epoch `n` from now on; one that has not ended goes on and covers both seals (R220, assumption 42). -/
def State.beginWalk (t n : Nat) (s : State) : State :=
  s.setWalk t (some { upto := n, set := ((s.walk t).map Walk.set).getD 0, left := ncSets })

/-- The broadcast of the seal of epoch `n` reaches a tile: it stamps n + 1 from now on, its regions take their marks and its
near cache begins its walk. -/
def State.sealReaches (t n : Nat) (g : Sealing) (s : State) : State :=
  let s1 : State := { s with epo := { s.epo with
    sealing := some { g with arrived := g.arrived ++ [t] }, stamp := tset (fun _ => 0) s.epo.stamp t (n + 1) } }
  ((s1.markTile t n).beginWalk t n).pmcEdge t 0x11 0

def execSealArrive (tile : Nat) (s : State) : Host.Outcome State Fault Refusal :=
  withUnit (s.hasTile tile) (fun s =>
    match s.epo.sealing with
    | some g => if s.coreUp && s.tileRuns tile && !g.arrived.contains tile then s.sealReaches tile g.n g else s
    | none => s) s

/-- A tile's report of the seal reaches the coordinator. -/
def State.sealReported (t : Nat) (g : Sealing) (s : State) : State :=
  let s1 : State := { s with epo := { s.epo with sealing := some { g with reported := g.reported ++ [t] } } }
  s1.finishSeal

def execSealReport (tile : Nat) (s : State) : Host.Outcome State Fault Refusal :=
  withUnit (s.hasTile tile) (fun s =>
    match s.epo.sealing with
    | some g =>
      if s.coreUp && s.coordinated && g.arrived.contains tile && !g.reported.contains tile then s.sealReported tile g
      else s
    | none => s) s

/-- The walk sends a WRITEBACK of a dirty line, which goes to E, where the home has credit for it. -/
def State.walkLine (t upto : Nat) (s : State) (line : Nat) : State :=
  let v := s.nc t line
  if v.st == .m && decide (v.epoch ≤ upto) && s.wbCredit t line then
    (s.sendWb t line .writeback v).setNc t line { v with st := .e, wb := true }
  else s

/-- The walk visits its next set; it leaves the set once no dirty line of the sealed epochs is in it (R220). -/
def State.walkStep (t : Nat) (w : Walk) (s : State) : State :=
  let s1 := ((s.setLines t w.set).map (fun e => e.1)).foldl (fun s l => s.walkLine t w.upto l) s
  if (s1.setLines t w.set).any (fun e => e.2.st == .m && decide (e.2.epoch ≤ w.upto)) then s1
  else if w.left ≤ 1 then
    let s2 := s1.setWalk t none
    { s2 with epo := { s2.epo with walked := tset (fun _ => 0) s2.epo.walked t (max (s2.walked t) w.upto) } }
  else s1.setWalk t (some { w with set := (w.set + 1) % ncSets, left := w.left - 1 })

def execSealWalkStep (tile : Nat) (s : State) : Host.Outcome State Fault Refusal :=
  withUnit (s.hasTile tile) (fun s =>
    match s.walk tile with
    | some w => if s.coreUp && s.tileRuns tile then s.walkStep tile w else s
    | none => s) s

/-! ## Markers (R98) -/

/-- Epochs of dirty content that has not reached its home's staging: dirty near-cache lines, unacknowledged write-backs,
content that a transaction or a message carries. -/
def State.unstaged (s : State) : List Nat :=
  (s.coh.nc.filter (fun e => e.2.st == .m || e.2.st == .ev || e.2.wb)).map (fun e => e.2.epoch) ++
    s.coh.txs.filterMap (fun e => e.2.bind (fun x => if x.dirty then x.line.map Content.epoch else none)) ++
    s.net.filterMap (fun m => match m.kind with
      | .evict | .writeback | .ackD | .data .m => m.content.map Content.epoch
      | _ => none)

/-- The highest sealed epoch that is drained on a tile: every tile's walk has ended for it, and nothing of it or below is
unstaged, or staged or noted on this tile. -/
def State.drainedTo (s : State) (t : Nat) : Nat :=
  let walks := (s.tileList.map (fun o => s.walked o)).foldl min s.epo.sealed
  let own := (s.cat.bufs.filter (fun b => s.entryHome b.leaf b.key == t)).map (fun b => b.epoch) ++
    (tget (fun _ => []) s.cat.notes t).map (fun n => n.epoch)
  (s.unstaged ++ own).foldl (fun a e => min a (e - 1)) walks

/-- The marker of the highest epoch drained (R98); D may rise. -/
def State.writeMarker (t : Nat) (s : State) : State :=
  let n := s.drainedTo t
  if tget (fun _ => 0) s.epo.marker t < n then
    let s1 : State := { s with epo := { s.epo with marker := tset (fun _ => 0) s.epo.marker t n } }
    s1.advanceD
  else s

def execMarkerWrite (tile : Nat) (s : State) : Host.Outcome State Fault Refusal :=
  withUnit (s.hasTile tile) (fun s =>
    if s.coreUp && s.tileRuns tile && s.cry.haltCause == 0 then s.writeMarker tile else s) s

/-! ## Abort and rollback (R102 to R104, R221, R534) -/

def execAbortStart (s : State) : Host.Outcome State Fault Refusal :=
  .next (if s.coreUp && s.cry.haltCause == 0 then s.startAbort else s)

/-- The tiles that lose a line in the rollback walk: its content there is above D. -/
def State.losers (s : State) (d line : Nat) : BitVec 8 :=
  (s.tileList.filter (fun t => (s.nc t line).st != .i && decide (d < (s.nc t line).epoch))).foldl (fun b t => b ||| tileBit t) 0

/-- A directory entry after the rollback walk: the bits of the lines invalidated clear (R221). -/
def State.dirAtD (s : State) (d line : Nat) (v : Dir) : Dir :=
  let h := v.sharers &&& ~~~s.losers d line
  { v with sharers := h, st := if h == 0 then .free else v.st }.settled

/-- Every near cache drops the lines above D; what was being written back is above D and is dropped with it (R221). -/
def State.cohRollback (d : Nat) (s : State) : State :=
  let s1 : State := { s with
    coh := { s.coh with
      nc := tmap (fun _ => {}) (fun _ v => { (v.atD d) with wb := false }) s.coh.nc
      evbufs := []
      wbUsed := [] }
    net := s.net.filter (fun m => m.kind != .evict && m.kind != .writeback && m.kind != .evictAck && m.kind != .wbAck) }
  { s1 with coh := { s1.coh with dir := tmap (fun _ => {}) (fun l v => s.dirAtD d l v) s1.coh.dir } }

/-- Requests that waited for an eviction of their own tile, or for a home that has become ready, are sent (R214, R222). -/
def State.releaseMisses (s : State) : State :=
  (s.coh.miss.map (fun e => e.1)).foldl (fun s k =>
    let t := k / 2 ^ 42
    let l := k % 2 ^ 42
    if (s.nc t l).st != .ev && s.tileRuns t && s.tileRuns (s.home l) then s.releaseMiss t l else s) s

/-- An entry to P2 or P3 whose sealed epoch was discarded seals again (R483). -/
def State.resealPower (d : Nat) (s : State) : State :=
  match s.pwr.trans with
  | some x =>
    if d < x.sealAt then
      { s with
        pwr := { s.pwr with trans := some { x with sealAt := 0 } }
        epo := { s.epo with heldTrig := s.epo.heldTrig ++ [.power] } }
    else s
  | none => s

/-- The rollback ends: every object is at D, a new epoch opens, held accesses and then held triggers proceed. -/
def State.endRollback (s : State) : State :=
  let d := s.epo.durable
  let s1 := (s.cohRollback d).restoreData d
  let s2 := s1.tileList.foldl (fun s t => (s.routesRollback t d).captureRollback t d) s1
  let s3 : State := { s2 with epo := { s2.epo with
    rollback := false, openE := s2.epo.abortLast + 1, autoStart := s2.now } }
  let s4 := ((s3.resealPower d).releaseMisses).undoLow
  let s5 := s4.ports.foldl (fun (s : State) p =>
    s.setPort p { s.port p with heldDw := (s.port p).heldDw.map (fun h => { h with rolled := true }) }) s4
  (s5.ports.foldl (fun s p => s.releaseHeld p) s5).actHeld

/-- A rollback lets every transaction in flight at a home complete first (R221). -/
def execRollbackEnd (s : State) : Host.Outcome State Fault Refusal :=
  .next (if s.epo.rollback && s.coreUp && s.cry.haltCause == 0 && s.coh.txs.isEmpty then s.endRollback else s)

/-! ## Coordinators and part time (R97) -/

/-- Tile 1's coordinator takes the active role while tile 0 does not run, and finishes a seal in progress. -/
def execCoordinatorTakeover (s : State) : Host.Outcome State Fault Refusal :=
  .next (if s.coreUp && s.epo.coord == 0 && !s.tileRuns 0 && s.tileRuns 1 then
    let s1 : State := { s with epo := { s.epo with coord := 1 } }
    s1.finishSeal
  else s)

/-- Tile 0's coordinator takes it back at a seal boundary once tile 0 runs again. -/
def execCoordinatorTakeback (s : State) : Host.Outcome State Fault Refusal :=
  .next (if s.coreUp && s.epo.coord == 1 && s.tileRuns 0 && s.epo.sealing.isNone then
    { s with epo := { s.epo with coord := 0 } }
  else s)

/-- Tile 1 distributes part time from its own copy. -/
def execPartTimeFailover (s : State) : Host.Outcome State Fault Refusal :=
  .next { s with epo := { s.epo with timeTile := 1 } }

end Sys2Proof.Machine
end

