-- ==== Sys2Proof/Machine/Escalation.lean ====
section
/-! DEFINITION. Fault sources as the host sets them (R404, R405), escalation slots (R408, R409), injections (R411, R412) and
the end of a tile's reset (R410). -/

namespace Sys2Proof.Machine

/-! ## Injection (R412) -/

/-- The checks of R412 that follow the token rule, in their order. -/
def State.injectStatus (s : State) (t id count : Nat) : Option Status :=
  let armed := s.flt.inj.filter (fun j => j.tile == t)
  if s.coreStopped || s.cry.haltCause != 0 then some .state
  else if !s.hasSource t id then some .unknown
  else if !(unitInfo (id / 128)).any (fun u => u.checked) || count == 0 then some .param
  else if (id / 128 == 0x12 || id / 128 == 0x14) && s.cur.lifecycle != .opened then some .lifecycle
  else if decide (16 ≤ armed.length) && !armed.any (fun j => j.source == id) then some .state
  else none

/-- A source is armed, or disarmed by a mask of 0: recorded as 0xF005 (R412). -/
def State.arm (t id : Nat) (mask : DWord) (count : Nat) (s : State) : State :=
  let others := s.flt.inj.filter (fun j => !(j.tile == t && j.source == id))
  let s1 : State := { s with flt := { s.flt with
    inj := if mask == 0 then others else others ++ [{ tile := t, source := id, mask := mask, count := count }] } }
  s1.annal t { code := 0xF005, addr := id, value := mask.toNat, aux := count }

/-- FAULT_INJECT once its token rule is met. -/
def State.inject (t id : Nat) (mask : DWord) (count : Nat) (s : State) : SlotAnswer :=
  match s.injectStatus t id count with
  | some st => { st := st, after := s }
  | none => { st := .done, after := s.arm t id mask count }

def execFaultInject (c : Ctx) (tile : Byte) (source : BitVec 12) (slot : Word) (tok : Token) (mask : DWord)
    (count : BitVec 16) (s : State) : Host.Outcome State Fault Refusal :=
  .next (s.tokenCommand 0x43 c (faultInjectParams tile source slot mask count) slot tok true 3
    (source.toNat + 2 ^ 16 * tile.toNat + 2 ^ 32 * count.toNat + 2 ^ 64 * mask.toNat)
    (fun s => s.inject tile.toNat source.toNat mask count.toNat))

/-! ## Sources (R404, R405) -/

/-- Windows that have ended are settled. -/
def State.windowEnd (t id : Nat) (s : State) : State := s.setSrc t id ((s.src t id).settle s.now)

def execFaultWindowEnd (tile source : Nat) (s : State) : Host.Outcome State Fault Refusal :=
  withUnit (s.hasSource tile source) (fun s => s.windowEnd tile source) s

/-- FLT_SRC_CFG of a source. -/
def srcCfgOff (t id : Nat) : Nat := tileBase t + 0x88000 + 8 * id

/-- A source after a write of its register: a base of 5 to 7 keeps the old one (R404), an n_thr of 0 clears raised (R405). -/
def Src.written (v : Src) (floor w : Nat) : Src :=
  let base := bits w 31 29
  { v with base := if 5 ≤ base then v.base else max base floor
           nThr := bits w 15 8
           winLog := bits w 4 0
           raised := v.raised && bits w 15 8 != 0 }

/-- A write of FLT_SRC_CFG; an ID that names no source holds nothing (R403). -/
def State.writeSrc (p t id w : Nat) (s : State) : State :=
  if !s.hasSource t id then s
  else
    let floor := match unitInfo (id / 128) with
      | some u => u.floor
      | none => 0
    let s1 := (s.setSrc t id (((s.src t id).settle s.now).written floor w)).storeSrc t id (s.src t id)
    if 5 ≤ bits w 31 29 then s1.refusedWrite t p (srcCfgOff t id) w else s1

def execFltSrcCfgWrite (port tile source : Nat) (value : Word) (s : State) : Host.Outcome State Fault Refusal :=
  s.tileWrite port tile true (fun s => s.writeSrc port tile (source % 4096) value.toNat)

/-! ## Escalation slots (R408, R409) -/

/-- FLT_PEND_ACT of a slot. -/
def pendActOff (t n : Nat) : Nat := tileBase t + 0x80104 + 8 * n

/-- Who may act on a slot: a host port, or the primary Curator. -/
def State.hasActor (s : State) (actor : Nat) : Bool := if actor = 255 then s.cur.primary.isSome else s.takesWrite actor

/-- A slot that an action can still reach: open, before the cycle of its deadline. -/
def State.slotOpen (s : State) (t n : Nat) : Bool := (s.slot t n).opened && decide (s.now < (s.slot t n).deadline)

/-- A write of FLT_PEND_ACT: 1 cancel, 2 now, 3 both, which is no action (R408). -/
def State.actOnSlot (actor t n w : Nat) (s : State) : State :=
  let v := s.slot t n
  if s.cry.haltCause != 0 || w % 4 == 0 then s
  else if w % 4 == 3 || !s.slotOpen t n then s.refusedWrite t actor (pendActOff t n) w
  else
    let s1 := (s.setSlot t n {}).annal t
      { code := if w % 4 = 1 then 0xF003 else 0xF004, addr := v.source, value := actor, aux := n }
    if w % 4 = 1 then s1 else s1.proceed t (if v.fatal then 4 else 3)

/-- The write comes by BAR0, unless the primary Curator makes it. -/
def State.slotWrite (actor t n w : Nat) (s : State) : State :=
  if actor = 255 then s.actOnSlot actor t n w else s.commitStore.actOnSlot actor t n w

def execEscalationCancel (actor tile slot : Nat) (s : State) : Host.Outcome State Fault Refusal :=
  withUnit (s.hasActor actor && s.hasTile tile && decide (slot < 32)) (fun s => s.slotWrite actor tile slot 1) s

def execEscalationNow (actor tile slot : Nat) (s : State) : Host.Outcome State Fault Refusal :=
  withUnit (s.hasActor actor && s.hasTile tile && decide (slot < 32)) (fun s => s.slotWrite actor tile slot 2) s

/-- A slot's deadline passes: it closes and escalates (R409). In the security halt it stays frozen. -/
def State.expire (t n : Nat) (s : State) : State :=
  let v := s.slot t n
  if s.cry.haltCause != 0 || !v.opened || decide (s.now < v.deadline) then s
  else (s.setSlot t n {}).escalate t v.source (if v.fatal then 4 else 3) n

def execEscalationExpiry (tile slot : Nat) (s : State) : Host.Outcome State Fault Refusal :=
  withUnit (s.hasTile tile && decide (slot < 32)) (fun s => s.expire tile slot) s

/-! ## The end of a tile's reset (R410) -/

/-- A tile's halted flags clear, and it is under reset no longer. -/
def State.unhalt (t : Nat) (s : State) : State :=
  { s with flt := { s.flt with
      halted := s.flt.halted &&& ~~~tileBit t, resetting := s.flt.resetting.filter (fun e => e.1 != t) } }

/-- A tile reports ready: its halted flags clear, its stored-enabled ports train and requests held for its homes are sent
(R222, R277, R410). -/
def State.tileIsReady (t : Nat) (s : State) : State :=
  (((((((s.unhalt t).measure t).showSpare t).spareCheck t).showThrottle t).saddlesUp t).trainPorts t).releaseMisses

/-- The tile is under a TILE reset. -/
def State.underReset (s : State) (t : Nat) : Bool := s.flt.resetting.any (fun e => e.1 == t)

def execTileReady (tile : Nat) (s : State) : Host.Outcome State Fault Refusal :=
  withUnit (s.hasTile tile) (fun s => if s.underReset tile then s.tileIsReady tile else s) s

/-- A tile that has not reported ready 1 s after its reset is failed; requests to its homes end as unrecoverable (R410). -/
def State.readyTimeout (t : Nat) (s : State) : State :=
  if s.flt.resetting.any (fun e => e.1 == t && decide (e.2 + 1000000000 ≤ s.now)) then
    let s1 : State := { s with coh := { s.coh with miss := tdrop (fun k => s.home (k % 2 ^ 42) == t) s.coh.miss } }
    s1.failTile t
  else s

def execTileReadyTimeout (tile : Nat) (s : State) : Host.Outcome State Fault Refusal :=
  withUnit (s.hasTile tile) (fun s => s.readyTimeout tile) s

end Sys2Proof.Machine
end

