-- ==== Sys2Proof/Machine/Bar0.lean ====
section
/-! DEFINITION. A BAR0 write by its address (R13, R33 to R37): registers with a behaviour of their own reach the operation
of their row, the others take the write by their access codes. -/

namespace Sys2Proof.Machine

/-! ## Fields that refuse a value -/

/-- The word with one field as it stands. -/
def keepField (old w hi lo : Nat) : Nat := setBits w hi lo (bits old hi lo)

/-- What a write stores where a register's own rule changes or ignores a value (R122, R178, R287, R366, R404, R407, R424,
R462, R494). -/
def adjust (r : Reg) (old w : Nat) : Nat :=
  let only (ok : Bool) (hi lo : Nat) : Nat := if ok then w else keepField old w hi lo
  match r with
  | .catCfg => only (bits w 3 0 != 0) 3 0
  | .medScrub | .eccScrubDdr | .eccScrubSram => only (bits w 15 0 != 0) 15 0
  | .rtePortCfg => only (decide (64 ≤ bits w 12 0 ∧ bits w 12 0 ≤ 4096)) 12 0
  | .fltEsc => if 1 ≤ bits w 15 0 ∧ bits w 15 0 ≤ 99 then setBits w 15 0 100 else w
  | .anlRate => only (bits w 7 0 != 0) 7 0
  | .pwrCfg => if bits w 15 0 < 100 then setBits w 15 0 100 else w
  | .curTamperCfg => (List.range 5).foldl (fun a j =>
      if bits w (2 * j + 1) (2 * j) = 0 then keepField old a (2 * j + 1) (2 * j) else a) w
  | _ => w

/-- RWL fields are writable in BLANK and OPEN (R455). -/
def State.rwlOpen (s : State) : Bool := s.cur.lifecycle == .blank || s.cur.lifecycle == .opened

/-- A write of a register held as bits: in a state that makes RWL fields read-only, one that would change such a field is
refused and recorded (R13). CAT_RATE follows the background share (R134). -/
def State.writePlain (p off : Nat) (r : Reg) (u i w : Nat) (s : State) : State :=
  let old := s.reg r u i
  let v := adjust r old w
  if !s.rwlOpen && r.desc.write true old v != r.desc.write false old v then
    s.refusedWrite (if r.desc.unit = .port then p else 0) p off w
  else
    let s1 := s.writeReg r u i s.rwlOpen v
    match r with
    | .ringCqCoal => s1.coalesce u i
    | .catPace => s1.showRate u (s1.field .catRate u 0 15 0)
    | _ => s1

/-! ## The mailbox (R432) -/

/-- A write of CUR_MB_BUF or CUR_MB_REQ by the owner; by any other port it is ignored and recorded. -/
def State.mbWrite (p off w : Nat) (s : State) : State :=
  if s.cur.mailbox.owner != some p then s.refusedWrite 0 p off w
  else if off = 0x900108 then s.mbStart p (bits w 31 24) (bits w 12 0)
  else
    ({ s with cur := { s.cur with mailbox := { s.cur.mailbox with last := s.now } } } : State).putReg .curMbBuf 0
      ((off - 0x901000) / 4) w

/-! ## MSI-X (R70) -/

/-- One word of the MSI-X table. -/
def State.writeMsix (p v k w : Nat) (s : State) : State :=
  let e := tget (fun _ => {}) s.host.msix (vecKey p v)
  let e' : Msix := match k with
    | 0 => { e with addr := BitVec.ofNat 64 (e.addr.toNat / 2 ^ 32 * 2 ^ 32 + w) }
    | 1 => { e with addr := BitVec.ofNat 64 (w * 2 ^ 32 + e.addr.toNat % 2 ^ 32) }
    | 2 => { e with data := BitVec.ofNat 32 w }
    | _ => { e with mask := w % 2 == 1 }
  { s with host := { s.host with msix := tset (fun _ => {}) s.host.msix (vecKey p v) e' } }

/-! ## Addresses with a behaviour of their own -/

/-- An address in an array of `n` registers: the index, and the offset within the entry. -/
def inArray (off base stride n : Nat) : Option (Nat × Nat) :=
  if base ≤ off ∧ off < base + stride * n then some ((off - base) / stride, (off - base) % stride) else none

/-- A write of RING_GCTRL (R43, R63): abort_seen is cleared by its 1, resume by its own. -/
def State.writeGctrl (p w : Nat) (s : State) : State :=
  let s1 := s.writeReg .ringGctrl p 0 false w
  if w % 2 = 1 then s1.resumeFetch p else s1

/-- A write of CUR_MB_CLAIM. -/
def State.writeClaim (p w : Nat) (s : State) : State :=
  let s1 := if bits w 0 0 = 1 then s.mbClaim p else s
  if bits w 1 1 = 1 then s1.mbRelease p else s1

/-- The part-wide and port-banked blocks. -/
def State.writePart (p off w : Nat) (s : State) : Option State :=
  if off = 0x8 then some (s.writePartReset p w)
  else if off = 0x24000 then some (s.writeGctrl p w)
  else if off = 0x50000 then some (s.writeApt p w)
  else if off = 0x30028 then some (if w % 2 = 1 && s.coreUp then s.trigger .ctrl else s)
  else if off = 0x60104 then some (s.loadRecord w)
  else if off = 0x78010 then some (if w % 2 = 1 then s.commitProgram p else s)
  else if off = 0x80000 then some (s.pmcRequest p w)
  else if off = 0x900100 then some (s.writeClaim p w)
  else if off = 0x900108 ∨ (0x901000 ≤ off ∧ off < 0x902000) then some (s.mbWrite p off w)
  else
    match inArray off 0x18000 16 2048, inArray off 0x20000 0x40 64, inArray off 0x28000 8 64, inArray off 0x40010 0x20 4 with
    | some (v, k), _, _, _ => some (s.writeMsix p v (k / 4) w)
    | _, some (n, 0x8), _, _ => some (s.writeSqCfg p n w)
    | _, some (n, 0x18), _, _ => some (s.writeCqCfg p n w)
    | _, _, some (n, 0), _ => some (s.sqTail p n (w % 4096))
    | _, _, some (n, 4), _ => some (s.cqHead p n (w % 4096))
    | _, _, _, some (n, 0) => some (s.writeWinCfg p n w)
    | _, _, _, _ => none

/-- The region of a tile, by the offset within it. -/
def State.writeTile (p t o w : Nat) (s : State) : Option State :=
  if o = 0x40000 then some (s.writeNcLock p t w)
  else if o = 0x50000 then some (s.writeBond p t (w % 2 ^ 24))
  else if o = 0x70004 then some (if w % 2 = 1 && s.takesRekey t then s.startRekey t else s)
  else if o = 0x90004 then
    let s1 := if bits w 1 1 = 1 then s.clearTopDown t else s
    some (if bits w 0 0 = 1 then s1.clearCounters t else s1)
  else
    match inArray o 0x50100 0x40 8, inArray o 0x50800 4 64, inArray o 0x80104 8 32, inArray o 0x88000 8 4096,
      inArray o 0x90100 4 64, inArray o 0x90400 8 64 with
    | some (q, 0), _, _, _, _, _ => some (s.writePortCfg t q w)
    | some (q, 4), _, _, _, _, _ => some (if w % 2 = 1 then s.rekeyPort t q else s)
    | _, some (n, 0), _, _, _, _ => some (s.writeKey t (n / 8) (n % 8) w)
    | _, _, some (n, 0), _, _, _ => some (s.actOnSlot p t n w)
    | _, _, _, some (id, 0), _, _ => some (s.writeSrc p t id w)
    | _, _, _, _, some (i, 0), _ => some (s.writePmcCfg p t i w)
    | _, _, _, _, _, some (i, k) => if k % 4 = 0 then some (s.writePmcCnt t i (k == 4) w) else none
    | _, _, _, _, _, _ => none

/-- A write of one register; an address that holds none ignores it (R36). -/
def State.writeWord (p off w : Nat) (s : State) : State :=
  let inTile := decide (0x100000 ≤ off ∧ off < 0x900000)
  let t := off / 0x100000 - 1
  if inTile && !s.hasTile t then s
  else
    match if inTile then s.writeTile p t (off % 0x100000) w else s.writePart p off w with
    | some s1 => s1
    | none =>
      match locate s.tiles p off with
      | some (r, u, i) => s.writePlain p off r u i w
      | none => s

/-- An access of BAR0 that is not naturally aligned, or of another size than 4 or 8 bytes (R35). -/
def State.refuseAccess (p off size : Nat) (s : State) : State :=
  (s.emit (.unsupported p)).annal p { code := 0x1005, addr := off, value := size, aux := p }

/-- A BAR0 write: naturally aligned, of 4 bytes, or of 8 that reach two registers, the lower half first; any other is an
Unsupported Request and recorded (R35). -/
def State.bar0Write (p off size : Nat) (v : DWord) (s : State) : State :=
  if size = 4 ∧ off % 4 = 0 then s.writeWord p off (v.toNat % 2 ^ 32)
  else if size = 8 ∧ off % 8 = 0 then (s.writeWord p off (v.toNat % 2 ^ 32)).writeWord p (off + 4) (v.toNat / 2 ^ 32)
  else s.refuseAccess p off size

def execRegisterWrite (port : Nat) (offset : BitVec 24) (size : Nat) (value : DWord) (s : State) :
    Host.Outcome State Fault Refusal :=
  s.bar0 port (fun s => s.bar0Write port offset.toNat size value)

end Sys2Proof.Machine
end

