-- ==== Sys2Proof/Machine/Dispatch.lean ====
section
/-! DEFINITION. Which meaning each command has. -/

namespace Sys2Proof.Machine

/-- The effect of a command on everything but the queue. -/
def exec (i : Instr) (s : State) : Host.Outcome State Fault Refusal :=
  match i with
  | .identify c cns tile slot own => Sys2Proof.Machine.execIdentify c cns tile slot own s
  | .getFeature c fid => Sys2Proof.Machine.execGetFeature c fid s
  | .setFeature c fid value => Sys2Proof.Machine.execSetFeature c fid value s
  | .readX c pa len slot own env => Sys2Proof.Machine.execReadX c pa len slot own env s
  | .writeX c pa len slot own data env => Sys2Proof.Machine.execWriteX c pa len slot own data env s
  | .copy c src dst len env => Sys2Proof.Machine.execCopy c src dst len env s
  | .zeroRange c pa len env => Sys2Proof.Machine.execZeroRange c pa len env s
  | .discard c pa len => Sys2Proof.Machine.execDiscard c pa len s
  | .flushRange c pa len => Sys2Proof.Machine.execFlushRange c pa len s
  | .invalRange c pa len => Sys2Proof.Machine.execInvalRange c pa len s
  | .epochClose c mode => Sys2Proof.Machine.execEpochClose c mode s
  | .epochQuery c mode => Sys2Proof.Machine.execEpochQuery c mode s
  | .routeDefine c tile route slot count latency port own data => Sys2Proof.Machine.execRouteDefine c tile route slot count latency port own data s
  | .routeArm c tile route vector start => Sys2Proof.Machine.execRouteArm c tile route vector start s
  | .routeRetire c tile route mode => Sys2Proof.Machine.execRouteRetire c tile route mode s
  | .pinLines c tile pa lines env => Sys2Proof.Machine.execPinLines c tile pa lines env s
  | .unpinLines c tile pa lines => Sys2Proof.Machine.execUnpinLines c tile pa lines s
  | .captureOpen c tile port region flags vector pa len => Sys2Proof.Machine.execCaptureOpen c tile port region flags vector pa len s
  | .captureClose c tile port region mode => Sys2Proof.Machine.execCaptureClose c tile port region mode s
  | .captureDrain c tile port region => Sys2Proof.Machine.execCaptureDrain c tile port region s
  | .getLog c log tile slot own offset => Sys2Proof.Machine.execGetLog c log tile slot own offset s
  | .clearLog c log tile slot tok => Sys2Proof.Machine.execClearLog c log tile slot tok s
  | .sensorRead c tile sensor => Sys2Proof.Machine.execSensorRead c tile sensor s
  | .faultInject c tile source slot tok mask count => Sys2Proof.Machine.execFaultInject c tile source slot tok mask count s
  | .powerState c state => Sys2Proof.Machine.execPowerState c state s
  | .fwStage c slot own offset flags data sigOk => Sys2Proof.Machine.execFwStage c slot own offset flags data sigOk s
  | .fwActivate c mode => Sys2Proof.Machine.execFwActivate c mode s
  | .attest c slot own nonce reserveOk => Sys2Proof.Machine.execAttest c slot own nonce reserveOk s
  | .keyCreate c kid pa len => Sys2Proof.Machine.execKeyCreate c kid pa len s
  | .keyRetire c kid slot tok => Sys2Proof.Machine.execKeyRetire c kid slot tok s
  | .rightsSet c kid master rights => Sys2Proof.Machine.execRightsSet c kid master rights s
  | .spareStatus c tile slot own => Sys2Proof.Machine.execSpareStatus c tile slot own s
  | .format c spare slot tok => Sys2Proof.Machine.execFormat c spare slot tok s
  | .mediaProfile c action tile channel target slot own data => Sys2Proof.Machine.execMediaProfile c action tile channel target slot own data s
  | .lifecycle port tok => Sys2Proof.Machine.execLifecycle port tok s
  | .sensorDisable port tok => Sys2Proof.Machine.execSensorDisable port tok s
  | .roleSwap port => Sys2Proof.Machine.execRoleSwap port s
  | .ownerSet port key => Sys2Proof.Machine.execOwnerSet port key s
  | .rootRevoke port tok => Sys2Proof.Machine.execRootRevoke port tok s
  | .mbClaim port => Sys2Proof.Machine.execMbClaim port s
  | .mbRelease port => Sys2Proof.Machine.execMbRelease port s
  | .mbIdleTimeout => Sys2Proof.Machine.execMbIdleTimeout s
  | .registerWrite port offset size value => Sys2Proof.Machine.execRegisterWrite port offset size value s
  | .sqDoorbell port sq tail => Sys2Proof.Machine.execSqDoorbell port sq tail s
  | .cqDoorbell port cq head => Sys2Proof.Machine.execCqDoorbell port cq head s
  | .sqCfgWrite port sq value => Sys2Proof.Machine.execSqCfgWrite port sq value s
  | .cqCfgWrite port cq value => Sys2Proof.Machine.execCqCfgWrite port cq value s
  | .fetchResume port => Sys2Proof.Machine.execFetchResume port s
  | .sqFetchIssue port => Sys2Proof.Machine.execSqFetchIssue port s
  | .sqFetchReturn port sq first entries => Sys2Proof.Machine.execSqFetchReturn port sq first entries s
  | .fencedCommandStart port sq => Sys2Proof.Machine.execFencedCommandStart port sq s
  | .curatorCommandExecute => Sys2Proof.Machine.execCuratorCommandExecute s
  | .completionCollect port credit => Sys2Proof.Machine.execCompletionCollect port credit s
  | .cqCoalTimer port cq => Sys2Proof.Machine.execCqCoalTimer port cq s
  | .msixPendingSend port vector => Sys2Proof.Machine.execMsixPendingSend port vector s
  | .xwWinCfgWrite port win value => Sys2Proof.Machine.execXwWinCfgWrite port win value s
  | .windowDrainEnd port win => Sys2Proof.Machine.execWindowDrainEnd port win s
  | .dwAptWrite port value => Sys2Proof.Machine.execDwAptWrite port value s
  | .dwRead port offset len env => Sys2Proof.Machine.execDwRead port offset len env s
  | .dwStore port offset bytes env => Sys2Proof.Machine.execDwStore port offset bytes env s
  | .epoCtrlClose port => Sys2Proof.Machine.execEpoCtrlClose port s
  | .autoCloseExpiry => Sys2Proof.Machine.execAutoCloseExpiry s
  | .sealArrive tile => Sys2Proof.Machine.execSealArrive tile s
  | .sealReport tile => Sys2Proof.Machine.execSealReport tile s
  | .sealWalkStep tile => Sys2Proof.Machine.execSealWalkStep tile s
  | .markerWrite tile => Sys2Proof.Machine.execMarkerWrite tile s
  | .abortStart => Sys2Proof.Machine.execAbortStart s
  | .rollbackEnd => Sys2Proof.Machine.execRollbackEnd s
  | .coordinatorTakeover => Sys2Proof.Machine.execCoordinatorTakeover s
  | .coordinatorTakeback => Sys2Proof.Machine.execCoordinatorTakeback s
  | .partTimeFailover => Sys2Proof.Machine.execPartTimeFailover s
  | .stripeProgram tile spn pieces pad => Sys2Proof.Machine.execStripeProgram tile spn pieces pad s
  | .stripeProgramDone tile spn => Sys2Proof.Machine.execStripeProgramDone tile spn s
  | .coolingSweep tile => Sys2Proof.Machine.execCoolingSweep tile s
  | .folioMerge tile folio spn slot => Sys2Proof.Machine.execFolioMerge tile folio spn slot s
  | .weedRelocate tile victim dest spn => Sys2Proof.Machine.execWeedRelocate tile victim dest spn s
  | .relocVerifyDone tile ok => Sys2Proof.Machine.execRelocVerifyDone tile ok s
  | .relocEraseDone tile ok => Sys2Proof.Machine.execRelocEraseDone tile ok s
  | .lostScanDone tile => Sys2Proof.Machine.execLostScanDone tile s
  | .rebuildScan tile => Sys2Proof.Machine.execRebuildScan tile s
  | .slotGrant tile ch => Sys2Proof.Machine.execSlotGrant tile ch s
  | .phaseStart tile => Sys2Proof.Machine.execPhaseStart tile s
  | .phaseStatusCheck tile ends => Sys2Proof.Machine.execPhaseStatusCheck tile ends s
  | .stretchExpiry tile ch target block prog => Sys2Proof.Machine.execStretchExpiry tile ch target block prog s
  | .lineReadDispatch tile line => Sys2Proof.Machine.execLineReadDispatch tile line s
  | .codewordDecoded tile line ch ecc kidOk tagOk => Sys2Proof.Machine.execCodewordDecoded tile line ch ecc kidOk tagOk s
  | .rescueHoldTimeout tile ch line => Sys2Proof.Machine.execRescueHoldTimeout tile ch line s
  | .mediaTempPoll tile ch target eighths => Sys2Proof.Machine.execMediaTempPoll tile ch target eighths s
  | .mediaAlert tile ch target crc thermal => Sys2Proof.Machine.execMediaAlert tile ch target crc thermal s
  | .calibrationRead tile ch block corrected => Sys2Proof.Machine.execCalibrationRead tile ch block corrected s
  | .mediaScrubRead tile ch block spn ecc forged => Sys2Proof.Machine.execMediaScrubRead tile ch block spn ecc forged s
  | .ddrScrubStep tile block ecc => Sys2Proof.Machine.execDdrScrubStep tile block ecc s
  | .sramScrubStep tile array way dirty ecc => Sys2Proof.Machine.execSramScrubStep tile array way dirty ecc s
  | .reqReadS src line env peers => Sys2Proof.Machine.execReqReadS src line env peers s
  | .reqReadX src line env peers => Sys2Proof.Machine.execReqReadX src line env peers s
  | .upgrade src line env peers => Sys2Proof.Machine.execUpgrade src line env peers s
  | .claim src line epoch peers => Sys2Proof.Machine.execClaim src line epoch peers s
  | .evict src line c => Sys2Proof.Machine.execEvict src line c s
  | .writeback src line c => Sys2Proof.Machine.execWriteback src line c s
  | .snpS dst line => Sys2Proof.Machine.execSnpS dst line s
  | .snpI dst line => Sys2Proof.Machine.execSnpI dst line s
  | .snpF dst line => Sys2Proof.Machine.execSnpF dst line s
  | .data dst line g c => Sys2Proof.Machine.execData dst line g c s
  | .grant dst line => Sys2Proof.Machine.execGrant dst line s
  | .nack dst line => Sys2Proof.Machine.execNack dst line s
  | .nackResend dst line => Sys2Proof.Machine.execNackResend dst line s
  | .ticket dst line num => Sys2Proof.Machine.execTicket dst line num s
  | .evictAck dst line => Sys2Proof.Machine.execEvictAck dst line s
  | .wbAck dst line => Sys2Proof.Machine.execWbAck dst line s
  | .ackNp src line => Sys2Proof.Machine.execAckNp src line s
  | .ackI src line kind c => Sys2Proof.Machine.execAckI src line kind c s
  | .ackD src line c => Sys2Proof.Machine.execAckD src line c s
  | .gone src line => Sys2Proof.Machine.execGone src line s
  | .done src line => Sys2Proof.Machine.execDone src line s
  | .victimEvict tile line => Sys2Proof.Machine.execVictimEvict tile line s
  | .ncLockWrite port tile value => Sys2Proof.Machine.execNcLockWrite port tile value s
  | .pinnedRefill tile line => Sys2Proof.Machine.execPinnedRefill tile line s
  | .landingReeval tile entry => Sys2Proof.Machine.execLandingReeval tile entry s
  | .slkBondWrite port tile value => Sys2Proof.Machine.execSlkBondWrite port tile value s
  | .slkPortCfgWrite port tile sp value => Sys2Proof.Machine.execSlkPortCfgWrite port tile sp value s
  | .slkGcmKeyWrite port tile sp idx value => Sys2Proof.Machine.execSlkGcmKeyWrite port tile sp idx value s
  | .rekey port tile sp => Sys2Proof.Machine.execRekey port tile sp s
  | .portResetDone tile sp => Sys2Proof.Machine.execPortResetDone tile sp s
  | .signalDetect tile sp => Sys2Proof.Machine.execSignalDetect tile sp s
  | .eqFrame tile sp lane control inverted rxGood => Sys2Proof.Machine.execEqFrame tile sp lane control inverted rxGood s
  | .eqTimeout tile sp => Sys2Proof.Machine.execEqTimeout tile sp s
  | .lockMarker tile sp lane marker phase => Sys2Proof.Machine.execLockMarker tile sp lane marker phase s
  | .lockTimeout tile sp => Sys2Proof.Machine.execLockTimeout tile sp s
  | .config tile sp f => Sys2Proof.Machine.execConfig tile sp f s
  | .configAck tile sp f => Sys2Proof.Machine.execConfigAck tile sp f s
  | .configRepeat tile sp => Sys2Proof.Machine.execConfigRepeat tile sp s
  | .configTimeout tile sp => Sys2Proof.Machine.execConfigTimeout tile sp s
  | .retrain tile sp cause => Sys2Proof.Machine.execRetrain tile sp cause s
  | .idle tile sp f => Sys2Proof.Machine.execIdle tile sp f s
  | .req tile sp cycle f => Sys2Proof.Machine.execReq tile sp cycle f s
  | .cap tile sp f => Sys2Proof.Machine.execCap tile sp f s
  | .tag tile sp f => Sys2Proof.Machine.execTag tile sp f s
  | .rekeyReceive tile sp f => Sys2Proof.Machine.execRekeyReceive tile sp f s
  | .retrainReceive tile sp f => Sys2Proof.Machine.execRetrainReceive tile sp f s
  | .badFlit tile sp b => Sys2Proof.Machine.execBadFlit tile sp b s
  | .tagTimeout tile sp => Sys2Proof.Machine.execTagTimeout tile sp s
  | .rekeyTimeout tile sp => Sys2Proof.Machine.execRekeyTimeout tile sp s
  | .gcmGroupClose tile sp => Sys2Proof.Machine.execGcmGroupClose tile sp s
  | .dataFlitSend tile sp cycle => Sys2Proof.Machine.execDataFlitSend tile sp cycle s
  | .switchTakeEffect tile sp => Sys2Proof.Machine.execSwitchTakeEffect tile sp s
  | .prefetchRead tile sp env => Sys2Proof.Machine.execPrefetchRead tile sp env s
  | .lineArrive tile sp line c => Sys2Proof.Machine.execLineArrive tile sp line c s
  | .retireComplete tile route => Sys2Proof.Machine.execRetireComplete tile route s
  | .ingestRead tile sp upset => Sys2Proof.Machine.execIngestRead tile sp upset s
  | .recordCommit tile sp region => Sys2Proof.Machine.execRecordCommit tile sp region s
  | .homeStatePublish home => Sys2Proof.Machine.execHomeStatePublish home s
  | .passReset r items writes => Sys2Proof.Machine.execPassReset r items writes s
  | .passReopen tile pass => Sys2Proof.Machine.execPassReopen tile pass s
  | .saddleFrame tile k crcOk => Sys2Proof.Machine.execSaddleFrame tile k crcOk s
  | .ddrBurstRead tile sub block device ecc macOk => Sys2Proof.Machine.execDdrBurstRead tile sub block device ecc macOk s
  | .tractFirstWrite tile tract => Sys2Proof.Machine.execTractFirstWrite tile tract s
  | .minorOverflow tile leaf => Sys2Proof.Machine.execMinorOverflow tile leaf s
  | .counterEvict tile node => Sys2Proof.Machine.execCounterEvict tile node s
  | .ddrRekey port tile => Sys2Proof.Machine.execDdrRekey port tile s
  | .ddrRekeyDone tile => Sys2Proof.Machine.execDdrRekeyDone tile s
  | .keyRotationDone kid => Sys2Proof.Machine.execKeyRotationDone kid s
  | .ddrTempPoll tile k hottest above => Sys2Proof.Machine.execDdrTempPoll tile k hottest above s
  | .haltBroadcastArrive tile => Sys2Proof.Machine.execHaltBroadcastArrive tile s
  | .tamperTrip tile sensor reading => Sys2Proof.Machine.execTamperTrip tile sensor reading s
  | .faultWindowEnd tile source => Sys2Proof.Machine.execFaultWindowEnd tile source s
  | .fltSrcCfgWrite port tile source value => Sys2Proof.Machine.execFltSrcCfgWrite port tile source value s
  | .escalationCancel actor tile slot => Sys2Proof.Machine.execEscalationCancel actor tile slot s
  | .escalationNow actor tile slot => Sys2Proof.Machine.execEscalationNow actor tile slot s
  | .escalationExpiry tile slot => Sys2Proof.Machine.execEscalationExpiry tile slot s
  | .tileReadyTimeout tile => Sys2Proof.Machine.execTileReadyTimeout tile s
  | .anlRdLoad port seq => Sys2Proof.Machine.execAnlRdLoad port seq s
  | .annalsMirror cur tile flashOk => Sys2Proof.Machine.execAnnalsMirror cur tile flashOk s
  | .spareSample => Sys2Proof.Machine.execSpareSample s
  | .sensorHistorySample => Sys2Proof.Machine.execSensorHistorySample s
  | .heartbeat cur => Sys2Proof.Machine.execHeartbeat cur s
  | .curatorTakeover cause => Sys2Proof.Machine.execCuratorTakeover cause s
  | .standbySynced => Sys2Proof.Machine.execStandbySynced s
  | .sensorConvert tile sensor eighths => Sys2Proof.Machine.execSensorConvert tile sensor eighths s
  | .powerdownWaitEnd => Sys2Proof.Machine.execPowerdownWaitEnd s
  | .enable => Sys2Proof.Machine.execEnable s
  | .disable => Sys2Proof.Machine.execDisable s
  | .wait => Sys2Proof.Machine.execWait s
  | .check => Sys2Proof.Machine.execCheck s
  | .jumpStep => Sys2Proof.Machine.execJumpStep s
  | .seqEnd => Sys2Proof.Machine.execSeqEnd s
  | .monitorScan monitor mv => Sys2Proof.Machine.execMonitorScan monitor mv s
  | .holdOffExpiry => Sys2Proof.Machine.execHoldOffExpiry s
  | .pwrOffReq => Sys2Proof.Machine.execPwrOffReq s
  | .pwrOnReq => Sys2Proof.Machine.execPwrOnReq s
  | .supplyOkFall => Sys2Proof.Machine.execSupplyOkFall s
  | .supplyOkReturn => Sys2Proof.Machine.execSupplyOkReturn s
  | .vaonFall => Sys2Proof.Machine.execVaonFall s
  | .por => Sys2Proof.Machine.execPor s
  | .coldReset => Sys2Proof.Machine.execColdReset s
  | .warmReset port value => Sys2Proof.Machine.execWarmReset port value s
  | .tileReset tile => Sys2Proof.Machine.execTileReset tile s
  | .flr port => Sys2Proof.Machine.execFlr port s
  | .perst port low => Sys2Proof.Machine.execPerst port low s
  | .hostLinkLoss port => Sys2Proof.Machine.execHostLinkLoss port s
  | .curReset cur => Sys2Proof.Machine.execCurReset cur s
  | .p1Wake => Sys2Proof.Machine.execP1Wake s
  | .p3DurabilityTimeout => Sys2Proof.Machine.execP3DurabilityTimeout s
  | .transitionDone => Sys2Proof.Machine.execTransitionDone s
  | .bootReady b => Sys2Proof.Machine.execBootReady b s
  | .seqCommit port => Sys2Proof.Machine.execSeqCommit port s
  | .seqCommitDone flashOk => Sys2Proof.Machine.execSeqCommitDone flashOk s
  | .pmcCfgWrite port tile idx value => Sys2Proof.Machine.execPmcCfgWrite port tile idx value s
  | .pmcCntWrite port tile idx high value => Sys2Proof.Machine.execPmcCntWrite port tile idx high value s
  | .clearTd port tile => Sys2Proof.Machine.execClearTd port tile s
  | .clearProg port tile => Sys2Proof.Machine.execClearProg port tile s
  | .freeze port => Sys2Proof.Machine.execFreeze port s
  | .thaw port => Sys2Proof.Machine.execThaw port s
  | .snap port => Sys2Proof.Machine.execSnap port s
  | .pmcActionAtT tile => Sys2Proof.Machine.execPmcActionAtT tile s
  | .laneSignalTimeout tile sp lane => Sys2Proof.Machine.execLaneSignalTimeout tile sp lane s
  | .conversionMissed tile sensor => Sys2Proof.Machine.execConversionMissed tile sensor s
  | .tileReady tile => Sys2Proof.Machine.execTileReady tile s
  | .hostLinkUp port speed width msixEn fmask => Sys2Proof.Machine.execHostLinkUp port speed width msixEn fmask s
  | .resetNRelease => Sys2Proof.Machine.execResetNRelease s
  | .fwRestartTimeout cur => Sys2Proof.Machine.execFwRestartTimeout cur s
  | .curatorRestartDone version => Sys2Proof.Machine.execCuratorRestartDone version s

end Sys2Proof.Machine
end

