-- ==== Sys2Proof/Machine/Upkeep.lean ====
section
/-! DEFINITION. What goes on as time passes: whatever had to wait is tried again (R90, R113, R209, R212, R214, R222, R223, R229, R230). -/

namespace Sys2Proof.Machine

/-- BAR2 requests of a port that still wait are tried again (R90, R105). -/
def State.tendPort (p : Nat) (s : State) : State :=
  if s.epo.rollback || (s.port p).heldDw.isEmpty || !s.bar2 p then s else s.releaseHeld p

/-- EVICTs that waited for credit are sent where there is some now (R133, R200, R212). -/
def State.tendEvicts (s : State) : State :=
  (s.coh.evbufs.filter (fun b => !b.sent)).foldl (fun (s : State) b =>
    if s.cohRuns b.tile b.line then s.sendEvict b.tile b.line else s) s

/-- The oldest ticket of each line that is not busy is served, where its directory set has a place (R209, R218). -/
def State.tendTickets (s : State) : State :=
  if s.epo.rollback then s
  else
    ((s.coh.tickets.map (fun k => k.line)).eraseDups).foldl (fun (s : State) l =>
      if s.lineBusy l || !s.tileRuns (s.home l) then s else s.attempt (fun s => s.nextTicket l)) s

/-- The ways of a tile that wait to be emptied or disabled (R223, R229, R230). -/
def State.tendWays (t : Nat) (s : State) : State :=
  if s.tileRuns t then (s.sendEach t (s.leaving t)).attempt (fun s => s.settlePending t) else s

/-- The range that holds a spoilt entry is lost (R113). -/
def State.tendBroken (s : State) : State :=
  s.cat.broken.foldl (fun (s : State) e =>
    let t := s.entryHome e.1 e.2
    if s.ddrRuns t && (s.entry e.1 e.2).wrong.isSome then s.lostLine t (s.catAddr t (s.catLine e.1 e.2) / 64) else s)
    { s with cat := { s.cat with broken := [] } }

/-- Whatever had to wait is tried again while time passes (assumption 99). -/
def State.tend (s : State) : State :=
  if s.coreUp && s.cry.haltCause == 0 then
    (s.tileList.foldl (fun s t => s.tendWays t)
      ((s.ports.foldl (fun s p => s.tendPort p) s.tendBroken.releaseMisses).tendEvicts.tendTickets)).tellFaults.undoTriggers
  else s

end Sys2Proof.Machine
end

