-- ==== Sys2Proof/Machine/Step.lean ====
section
/-! DEFINITION. One step of the block: the command at the front of the queue, or an idle nanosecond. -/

namespace Sys2Proof.Machine

/-- Part time passes (R11): one nanosecond of the 64-bit count (assumption 1), in which what had to wait is tried again and the
counters in level mode count the cycles of their islands (R496). -/
def State.idle (s : State) : State :=
  let s1 := s.tend.levels
  { s1 with now := (s1.now + 1) % 2 ^ 64 }

/-- Takes the command at the front of the queue and runs it on the state with the queue's rest; on an empty queue the
block idles (assumption 1). -/
def step (s : State) : Host.Outcome State Fault Refusal :=
  match s.pending with
  | [] => .next s.idle
  | c :: rest => exec c { s with pending := rest }

/-- The state with the command a word spells put at the front of the queue; unchanged where it spells none
(assumption 12). -/
def State.withFetchWord (s : State) (nbits w : Nat) : State :=
  match decodeTableWord nbits w with
  | none => s
  | some c => { s with pending := c :: s.pending }

end Sys2Proof.Machine
end

