-- ==== Sys2Proof/Machine/Reads.lean ====
section
/-! DEFINITION. What a BAR0 read returns (R13, R14, R33 to R37, R397): a register held as bits by its row of the register
table, every other one from the object it shows. The opcode table has no row for a register read, so no command asks
(assumption 96). -/

namespace Sys2Proof.Machine

/-! ## Codes of states that registers show -/

/-- SEQ_STAT.sstate (R471). -/
def SeqSt.code : SeqSt → Nat
  | .down => 0
  | .rising => 1
  | .up => 2
  | .falling => 3
  | .holdOff => 4

/-- RTE_ROUTE_STAT.state (R281). -/
def RState.code : RState → Nat
  | .empty => 0
  | .defined => 1
  | .armed => 2
  | .active => 3
  | .ended => 4
  | .retiring => 5

/-- CAP_RGN_STAT.state (R308). -/
def CState.code : CState → Nat
  | .closed => 0
  | .opened => 1
  | .closing => 2

/-- CRY_KID.state (R384). -/
def KState.code : KState → Nat
  | .empty => 0
  | .live => 1
  | .rotating => 2
  | .retiring => 3
  | .retired => 4
  | .binding => 5

/-- CUR_STAT.standby (R462). -/
def Standby.code : Standby → Nat
  | .synced => 0
  | .syncing => 1
  | .failed => 2
  | .none => 3

/-- The kind of a pass in PAS_STAT (R336): 0 data, 1 control, 2 event. -/
def passKind (n : Nat) : Nat :=
  if 90 ≤ n then 2 else if (58 ≤ n && n ≤ 73) || (86 ≤ n && n ≤ 89) then 1 else 0

/-! ## Words -/

/-- The lower or the upper word of a 64-bit register pair. -/
def halfWord (k v : Nat) : Nat := v / 2 ^ (32 * k) % 2 ^ 32

/-- One bit for each number below `n` that `f` holds of. -/
def bitsOf (n : Nat) (f : Nat → Bool) : Nat := (List.range n).foldl (fun a i => a + bit (f i) i) 0

/-- What a row's fields read as: WO and W1S fields and reserved bits are 0 (R13, R14). -/
def RDesc.shown (d : RDesc) (w : Nat) : Nat :=
  d.fields.foldl (fun a f => if f.acc == .wo || f.acc == .w1s then a else setBits a f.hi f.lo (bits w f.hi f.lo)) 0

/-- A register held as bits; DW_APT reads 0 in full mode (R85), and MED_SPARE shows read-only on every tile (R187). -/
def State.readBits (s : State) (r : Reg) (u i : Nat) : Nat :=
  match r with
  | .dwApt => s.dwBase u
  | .medSpare => s.medSpare u
  | r => r.desc.shown (s.reg r u i)

/-! ## Registers of the part and of the ports -/

/-- RING_SQ_CFG and RING_SQ_STAT (R43). -/
def State.sqCfg (s : State) (p n : Nat) : Nat :=
  let q := s.sq p n
  bit q.enable 31 + q.sizeM1.toNat * 2 ^ 16 + q.cq.toNat * 2 ^ 10 + bit q.urgent 9 + q.burstM1.toNat * 2 ^ 6

def State.sqStat (s : State) (p n : Nat) : Nat :=
  let q := s.sq p n
  bit (q.enable && !q.err) 31 + bit q.err 30 + bit (s.field .ringGctrl p 0 31 31 == 1) 29 + q.code.toNat * 2 ^ 24
    + q.head % 4096 * 2 ^ 12 + q.tail % 4096

/-- RING_CQ_CFG and RING_CQ_STAT (R43), whose head field is the device's write index (`head`) and whose tail field is the
last doorbell (`tail`). -/
def State.cqCfg (s : State) (p n : Nat) : Nat :=
  let q := s.cq p n
  bit q.enable 31 + bit q.intEn 30 + q.sizeM1.toNat * 2 ^ 16 + q.vector.toNat

def State.cqStat (s : State) (p n : Nat) : Nat :=
  let q := s.cq p n
  bit (q.enable && !q.err) 31 + bit q.err 30 + bit q.phase 29 + q.code.toNat * 2 ^ 24 + q.head % 4096 * 2 ^ 12
    + q.tail % 4096

/-- XW_WIN_CFG and XW_WIN_STAT (R75). -/
def State.winCfg (s : State) (p n : Nat) : Nat :=
  let w := s.win p n
  bit w.enable 31 + w.shift.toNat * 2 ^ 20 + w.slotsM1.toNat

def State.winStat (s : State) (p n : Nat) : Nat :=
  bit (s.win p n).enable 31 + bit (s.win p n).draining 30 + (s.inflight p n).length % 2 ^ 16

/-- One word of an MSI-X table entry (R70). -/
def State.msixWord (s : State) (p v k : Nat) : Nat :=
  let e := tget (fun _ => ({} : Msix)) s.host.msix (vecKey p v)
  match k with
  | 0 => halfWord 0 e.addr.toNat
  | 1 => halfWord 1 e.addr.toNat
  | 2 => e.data.toNat
  | _ => bit e.mask 0

/-- PART_STAT (R493). -/
def State.partStat (s : State) : Nat :=
  bit s.pwr.ready 31 + bit s.pwr.scanning 30 + bit s.pwr.strapBad 29 + s.pwr.lastReset % 16

/-- The EPO block (R101); EPO_CTRL reads 0. -/
def State.epoWord (s : State) (o : Nat) : Nat :=
  let e := s.epo
  match o / 8 with
  | 0 => halfWord (o / 4 % 2) e.openE
  | 1 => halfWord (o / 4 % 2) e.sealed
  | 2 => halfWord (o / 4 % 2) e.durable
  | 3 => halfWord (o / 4 % 2) e.abortFirst
  | 4 => halfWord (o / 4 % 2) e.abortLast
  | _ =>
    if o = 0x2C then
      bit e.rollback 31 + bit e.sealing.isSome 30 + bit (s.tileList.any (fun t => s.undoFull t)) 29 + min e.aborts 65535
    else 0

/-- FLT_SUM_A (R424). -/
def State.fltSumA (s : State) : Nat :=
  let open' (fatal : Bool) (t : Nat) : Bool :=
    (List.range 32).any (fun n => (s.slot t n).opened && (s.slot t n).fatal == fatal)
  bitsOf 8 (open' true) * 2 ^ 24 + bitsOf 8 (open' false) * 2 ^ 16 + s.flt.halted.toNat * 2 ^ 8 + s.flt.failed.toNat

/-- ANL_HEAD: the last seq issued, all ones before the first (R424). -/
def State.anlHead (s : State) (t : Nat) : Nat := (tget (fun _ => 0) s.anl.nextSeq t + 2 ^ 32 - 1) % 2 ^ 32

/-- ANL_TAIL: the oldest seq retained, ANL_HEAD + 1 where the ring is empty (R424). -/
def State.anlTail (s : State) (t : Nat) : Nat :=
  ((tget (fun _ => []) s.anl.rings t).map ARec.seq).min?.getD (tget (fun _ => 0) s.anl.nextSeq t % 2 ^ 32)

/-- TMP_SUM (R463): a broken sensor, a DDR5 device or a media target forces throttle. -/
def State.tmpSum (s : State) : Nat :=
  let broken (t : Nat) : Bool := (List.range 8).any (fun k => (s.sensor t k).enabled && (s.sensor t k).broken)
  bitsOf 8 (fun t => s.hasTile t && s.levelOf t == 2) * 2 ^ 24
    + bitsOf 8 (fun t => s.hasTile t && decide (1 ≤ s.levelOf t)) * 2 ^ 16
    + bitsOf 8 (fun t => s.hasTile t && (broken t || s.forced t)) * 2 ^ 8

/-- TMP_SENS (R463). -/
def State.tmpSens (s : State) (t k : Nat) : Nat :=
  let v := s.sensor t k
  bit v.enabled 31 + bit v.broken 30 + v.cause % 4 * 2 ^ 28 + signed16 v.reading

/-- PWR_STAT (R494); with no transition in progress its target is the current state (assumption 96). -/
def State.pwrStat (s : State) : Nat :=
  bit s.pwr.trans.isSome 31 + ((s.pwr.trans.map (fun x => x.target.code)).getD s.pwr.pwr.code) * 2 ^ 28
    + s.pwr.pwr.code * 2 ^ 24

/-- SEQ_STAT, SEQ_EN_OUT and SEQ_ARMED (R495); SEQ_CTRL reads 0. -/
def State.seqWord (s : State) (o : Nat) : Nat :=
  let w := s.pwr
  match o with
  | 0 => w.st.code * 2 ^ 29 + bit w.onLatched 28 + bit w.offLatched 27 + bit w.builtin 26 + bit w.progBad 25
      + w.step % 256 * 2 ^ 16
  | 4 => w.en.toNat
  | 8 => bitsOf 32 (fun m => (tget (fun _ => (none : Option Armed)) w.armed m).isSome)
  | _ => 0

/-- The PMC snapshot block (R507); PMC_FREEZE reads 0. -/
def State.snapWord (s : State) (o : Nat) : Nat :=
  match o with
  | 0x4 => bit s.pmc.busy 31 + bit s.pmc.frozen 30 + s.pmc.done.toNat * 2 ^ 16 + s.pmc.seq % 2 ^ 16
  | 0x8 => halfWord 0 s.pmc.snapTime
  | 0xC => halfWord 1 s.pmc.snapTime
  | 0x10 => halfWord 0 s.pmc.freezeTime
  | 0x14 => halfWord 1 s.pmc.freezeTime
  | _ => 0

/-- CUR_STAT (R462). -/
def State.curStat (s : State) : Nat :=
  let c := s.cur
  c.primary.getD 0 % 2 * 2 ^ 31 + c.standby.code * 2 ^ 29 + bit c.activation.isSome 28 + bit c.primary.isNone 27
    + c.lifecycle.code * 2 ^ 24 + c.rootGen % 64

/-- The Curator registers that are not held as bits (R462); CUR_MB_CLAIM and CUR_MB_REQ read 0. -/
def State.curWord (s : State) (o : Nat) : Option Nat :=
  let c := s.cur
  match inArray o 0x30 8 8 with
  | some (t, k) => some (if s.hasTile t then halfWord (k / 4) (s.reservedEnd t) else 0)
  | none =>
    match o with
    | 0 => some s.curStat
    | 0x2C => some (bit c.ownerKey.isSome 8 + c.revoked.toNat)
    | 0x104 => some (((c.mailbox.owner.map (fun p => p + 1)).getD 0) % 4 * 2 ^ 30 + bit c.mailbox.busy 29)
    | _ => none

/-- The part-wide and port-banked registers that are not held as bits. -/
def State.readPart (s : State) (p off : Nat) : Option Nat :=
  if off = 0 then some s.partInfo
  else if off = 0x4 then some s.partStat
  else if 0x11000 ≤ off ∧ off < 0x11100 then
    some (bitsOf 32 (fun i => tget (fun _ => false) s.host.pba (vecKey p (8 * (off - 0x11000) + i))))
  else if 0x30000 ≤ off ∧ off < 0x30030 then some (s.epoWord (off - 0x30000))
  else if off = 0x50004 then some (bit s.epo.rollback 31)
  else if off = 0x60000 then some s.fltSumA
  else if 0x78000 ≤ off ∧ off < 0x7800C then some (s.seqWord (off - 0x78000))
  else if off = 0x70000 then some s.tmpSum
  else if off = 0x70400 then some s.pwrStat
  else if 0x80000 ≤ off ∧ off < 0x80018 then some (s.snapWord (off - 0x80000))
  else if 0x900000 ≤ off ∧ off < 0x910000 then s.curWord (off - 0x900000)
  else
    match inArray off 0x18000 16 2048, inArray off 0x20000 0x40 64, inArray off 0x40010 0x20 4, inArray off 0x60200 4 8,
      inArray off 0x60220 4 8, inArray off 0x70100 4 64, inArray off 0x70200 4 8 with
    | some (v, k), _, _, _, _, _, _ => some (s.msixWord p v (k / 4))
    | _, some (n, 0x8), _, _, _, _, _ => some (s.sqCfg p n)
    | _, some (n, 0xC), _, _, _, _, _ => some (s.sqStat p n)
    | _, some (n, 0x18), _, _, _, _, _ => some (s.cqCfg p n)
    | _, some (n, 0x1C), _, _, _, _, _ => some (s.cqStat p n)
    | _, _, some (n, 0), _, _, _, _ => some (s.winCfg p n)
    | _, _, some (n, 4), _, _, _, _ => some (s.winStat p n)
    | _, _, _, some (t, _), _, _, _ => some (s.anlHead t)
    | _, _, _, _, some (t, _), _, _ => some (s.anlTail t)
    | _, _, _, _, _, some (i, _), _ => some (if s.hasTile (i / 8) then s.tmpSens (i / 8) (i % 8) else 0)
    | _, _, _, _, _, _, some (t, _) => some (if s.hasTile t then s.tmpTile t else 0)
    | _, _, _, _, _, _, _ => none

/-! ## Registers of a tile -/

/-- Stream miss entries that the reads ahead of a tile's port engines hold (R195, R287). -/
def State.streamReads (s : State) (t : Nat) : Nat :=
  (List.range 8).foldl (fun a p => a + ((s.engine t p).flight.filter (fun f => f.missed)).length) 0

/-- The NC registers that show the near cache (R236): pinned lines, vacant locked slots, eviction buffers and agent miss
entries, stream miss entries. -/
def State.ncWord (s : State) (t o : Nat) : Option Nat :=
  match o with
  | 0x8 => some (s.coh.nc.filter (fun e => e.1 / 2 ^ 42 == t && e.2.pin)).length
  | 0xC => some (((List.range 16).filter (fun w => s.locked t w)).foldl (fun a w =>
      a + (ncSets - (s.wayLines t w).length)) 0)
  | 0x24 => some (s.evictBufs t % 64 * 2 ^ 16 + s.missCount t false % 512)
  | 0x2C => some ((s.missCount t true + s.streamReads t) % 2048)
  | 0x8000 => some (s.coh.dir.filter (fun e => s.home e.1 == t && e.2.held)).length
  | 0x801C => some (s.coh.tickets.filter (fun x => s.home x.line == t)).length
  | _ => none

/-- RTE_PORT_STAT (R307). -/
def State.rtePortStat (s : State) (t p : Nat) : Nat :=
  let e := s.engine t p
  bit e.current.isSome 31 + e.current.getD 0 % 1024 * 2 ^ 16 + e.switches.length % 32

/-- RTE_ROUTE_STAT (R307); a route without a definition has no port, latency or depth. -/
def State.routeStat (s : State) (t r : Nat) : Nat :=
  let v := s.route t r
  v.st.code * 2 ^ 29 +
    match v.defn with
    | none => 0
    | some d => d.port % 8 * 2 ^ 26 + d.lat % 2048 * 2 ^ 15 + (if (landSegs d.segs).isEmpty then 0 else d.depth % 1024)

/-- RTE_LAND (R307). -/
def State.landWord (s : State) (t i : Nat) : Nat :=
  match tget (fun _ => (none : Option Landing)) s.rte.landing (landKey t i) with
  | none => 0
  | some x => 2 ^ 31 + bit x.ready 30 + x.route % 1024 * 2 ^ 16 + x.seg % 2 ^ 16

/-- CAP_PORT_STAT (R332). -/
def State.capPortStat (s : State) (t p : Nat) : Nat :=
  let i := s.ingest t p
  bit (i.bp || s.pwr.pwr == .p1) 31 + bit i.bank 30 + min 255 (s.sport t p).capOut * 2 ^ 22
    + min 127 ((List.range 64).filter (fun r => (s.region t p r).enc.isSome)).length * 2 ^ 15

/-- CAP_BP_US: the time under backpressure, that of the stretch in progress included (R326, R332). -/
def State.bpTime (s : State) (t p : Nat) : Nat :=
  let i := s.ingest t p
  min (2 ^ 32 - 1) (s.reg .capBpUs t p +
    (if i.bp then (s.now - i.bpAt) / 1000 else if s.pwr.pwr == .p1 then (s.now - s.pwr.quietAt) / 1000 else 0))

/-- The registers of a capture region (R332). -/
def State.regionWord (s : State) (t n k : Nat) : Option Nat :=
  let v := s.region t (n / 64) (n % 64)
  match k with
  | 0x0 => some (v.st.code * 2 ^ 30 + bit v.drop 29 + bit v.raw 28 + bit v.full 27 + bit v.enc.isSome 26
      + v.base / 2 ^ 32 % 2 * 2 ^ 25 + v.vector % 2048)
  | 0x4 => some (v.base % 2 ^ 32)
  | 0x8 => some (v.units % 2 ^ 23)
  | 0xC => some (v.fill % 2 ^ 32)
  | 0x10 => some (v.dur % 2 ^ 32)
  | 0x14 => some (v.recs % 2 ^ 32)
  | 0x18 => some (min v.rewound 65535 * 2 ^ 16 + min v.dropped 65535)
  | 0x20 => some (halfWord 0 v.session)
  | 0x24 => some (halfWord 1 v.session)
  | _ => none

/-- PAS_STAT (R358). A pass is in its reset within one command, and what a data pass carries is a free value
(assumptions 57, 96). -/
def State.passStat (s : State) (t n : Nat) : Nat :=
  if s.hasPass t n then
    bit (!s.passClosed t n) 31 + bit (s.passClosed t n) 30 + passKind n * 2 ^ 28
      + (if passKind n = 0 then (Config.free s.freeCtr).toNat % 256 else 0)
  else 0

/-- ECC_WALK: which walks run and how far the DDR5 walk has come is timing, a free value (R366; assumption 57). -/
def State.eccWalk (s : State) : Nat :=
  let v := (Config.free s.freeCtr).toNat
  v % 4 * 2 ^ 30 + v / 4 % 10001

/-- The CRY registers that are not held as bits (R399); CRY_CTRL reads 0. -/
def State.cryWord (s : State) (t o : Nat) : Option Nat :=
  let c := s.cry
  let rgn (r : Nat) : Option KRegion := c.regions[r]?
  match o with
  | 0x0 => some (bit (c.haltCause != 0) 31 + bit (tget (fun _ => false) c.rekeying t) 30 + c.regions.length % 2048)
  | 0x8 => some (c.haltCause % 16 * 2 ^ 28 + c.haltTile % 8 * 2 ^ 25)
  | 0xC => some (halfWord 0 c.haltAddr.toNat)
  | 0x10 => some (halfWord 1 c.haltAddr.toNat)
  | o =>
    match inArray o 0x400 4 256, inArray o 0x800 4 256, inArray o 0x1000 0x40 8, inArray o 0x2000 0x10 1024 with
    | some (k, _), _, _, _ =>
      some ((s.kid k).st.code * 2 ^ 29 + (s.kid k).version % 256 * 2 ^ 16 + (s.regionsOf k).length % 2048)
    | _, some (k, _), _, _ => some (s.kidOld t k)
    | _, _, some (m, j), _ =>
      some ((List.range 16).foldl (fun a i => a + (s.rights m (16 * (j / 4) + i)).toNat * 2 ^ (2 * i)) 0)
    | _, _, _, some (r, k) =>
      match rgn r, k with
      | none, _ => some 0
      | some x, 0 => some (x.base % 2 ^ 32)
      | some x, 4 => some (2 ^ 31 + x.kid % 256 * 2 ^ 23 + x.units / 2 ^ 32 % 2 * 2 + x.base / 2 ^ 32 % 2)
      | some x, 8 => some (x.units % 2 ^ 32)
      | some x, _ => some (tget (fun _ => 0) x.bind t % 2 ^ 32)
    | _, _, _, _ => none

/-- FLT_INJ, FLT_PEND, FLT_SRC_CFG and FLT_SRC_CNT (R425); FLT_PEND_ACT reads 0. -/
def State.fltWord (s : State) (t o : Nat) : Option Nat :=
  match inArray o 0x40 8 16, inArray o 0x100 8 32, inArray o 0x8000 8 4096 with
  | some (j, 0), _, _ => some (match (s.flt.inj.filter (fun x => x.tile == t))[j]? with
    | none => 0
    | some x => 2 ^ 31 + x.source % 4096 * 2 ^ 16 + x.count % 2 ^ 16)
  | _, some (n, 0), _ =>
    let v := s.slot t n
    some (if v.opened then
      2 ^ 31 + bit v.fatal 30 + v.source % 4096 * 2 ^ 16 + min 65535 ((v.deadline - s.now) / 1000) else 0)
  | _, _, some (id, k) =>
    if s.hasSource t id then
      let v := (s.src t id).settle s.now
      let u := (unitInfo (id / 128)).getD ⟨0, 0, false⟩
      some (if k = 0 then v.base * 2 ^ 29 + u.floor * 2 ^ 26 + v.current * 2 ^ 23 + bit v.raised 22 + v.nThr % 256 * 2 ^ 8
          + v.winLog % 32
        else if k = 4 then min 65535 v.total * 2 ^ 16 + min 65535 v.window
        else 0)
    else some 0
  | _, _, _ => none

/-- The PMC registers of a tile that are not held as bits (R506); PMC_CTRL reads 0. -/
def State.pmcWord (s : State) (t o : Nat) : Option Nat :=
  let get (m : Tbl Nat) (k : Nat) : Nat := tget (fun _ => 0) m k
  let group (g k : Nat) : Nat :=
    halfWord (k / 4 % 2) (get (if k < 0x20 then s.pmc.td else s.pmc.tdSnap) ((24 * t + g) * 4 + k / 8 % 4))
  if o = 0 then some (bit (s.pmc.frozenT.getLsbD t) 31)
  else
    match inArray o 0x400 8 64, inArray o 0x800 8 64, inArray o 0x1000 0x40 8, inArray o 0x1400 0x40 16 with
    | some (i, k), _, _, _ => some (halfWord (k / 4) (get s.pmc.cnt (64 * t + i)))
    | _, some (i, k), _, _ => some (halfWord (k / 4) (get s.pmc.snapCnt (64 * t + i)))
    | _, _, some (p, k), _ => some (group p k)
    | _, _, _, some (c, k) => some (group (8 + c) k)
    | _, _, _, _ => none

/-- The registers of a tile's region that are not held as bits, by the offset within it. -/
def State.readTile (s : State) (t o : Nat) : Option Nat :=
  match o with
  | 0 => some (s.tileInfo t)
  | 0x1000C => some (s.stagedBytes t / 2 ^ 20)
  | 0x10010 => some (s.groupsUsed t)
  | 0x10014 => some (s.undoCount t)
  | 0x58000 => some (65536 - s.segsUsed t)
  | 0x58004 => some (4096 - s.landsUsed t)
  | 0x60000 => some (s.captureOcc t / 2 ^ 20)
  | 0x60004 => some (s.captureLimit t / 2 ^ 20)
  | 0x60008 => some (if s.epo.rollback then s.tileList.foldl (fun b h => b ||| tileBit h) 0 else tget (fun _ => (0 : BitVec 8)) s.cap.seen t).toNat
  | 0x7802C => some (s.cry.tracts.filter (fun e => e.1 / 2 ^ 24 == t && e.2)).length
  | 0x78008 => some s.eccWalk
  | 0x80000 => some (s.fltStat t)
  | 0xA0000 => some (bit (s.member == .vzm2080) 0)
  | o =>
    match inArray o 0x20100 4 16, inArray o 0x50108 0x40 8, inArray o 0x58104 0x40 8, inArray o 0x59000 8 1024,
      inArray o 0x5C000 4 4096, inArray o 0x60100 0x40 8, inArray o 0x61000 0x40 512, inArray o 0xA0100 4 128 with
    | some (c, _), _, _, _, _, _, _, _ => some (s.chStat t c)
    | _, some (p, 0), _, _, _, _, _, _ => some (s.portStat t p)
    | _, _, some (p, 0), _, _, _, _, _ => some (s.rtePortStat t p)
    | _, _, _, some (r, 0), _, _, _, _ => some (s.routeStat t r)
    | _, _, _, _, some (i, _), _, _, _ => some (s.landWord t i)
    | _, _, _, _, _, some (p, 0), _, _ => some (s.capPortStat t p)
    | _, _, _, _, _, some (p, 0x2C), _, _ => some (s.bpTime t p)
    | _, _, _, _, _, _, some (n, k), _ => s.regionWord t n k
    | _, _, _, _, _, _, _, some (n, _) => some (s.passStat t n)
    | _, _, _, _, _, _, _, _ =>
      if 0x40000 ≤ o ∧ o < 0x50000 then s.ncWord t (o - 0x40000)
      else if 0x70000 ≤ o ∧ o < 0x78000 then s.cryWord t (o - 0x70000)
      else if 0x80000 ≤ o ∧ o < 0x90000 then s.fltWord t (o - 0x80000)
      else if 0x90000 ≤ o ∧ o < 0xA0000 then s.pmcWord t (o - 0x90000)
      else none

/-! ## A read -/

/-- What stays readable while the part is halted: PART, the FLT/ANL view, the Curator mailbox and every CRY block (R397). -/
def readableHalted (off : Nat) : Bool :=
  decide (off < 0x10000) || decide (0x60000 ≤ off ∧ off < 0x70000) || decide (0x900000 ≤ off ∧ off < 0x910000) ||
    (decide (0x100000 ≤ off ∧ off < 0x900000) && decide (0x70000 ≤ off % 0x100000 ∧ off % 0x100000 < 0x78000))

/-- The register at an aligned offset, as port `p` reads it; an address that holds none reads 0 (R36). -/
def State.readReg (s : State) (p off : Nat) : Nat :=
  let inTile := decide (0x100000 ≤ off ∧ off < 0x900000)
  let t := off / 0x100000 - 1
  if inTile && !s.hasTile t then 0
  else
    match if inTile then s.readTile t (off % 0x100000) else s.readPart p off with
    | some w => w
    | none =>
      match locate s.tiles p off with
      | some (r, u, i) => s.readBits r u i
      | none => 0

/-- A 4-byte read, in a security halt too (R397). -/
def State.readWord (s : State) (p off : Nat) : Word :=
  if s.cry.haltCause != 0 && !readableHalted off then 0xFFFFFFFF else BitVec.ofNat 32 (s.readReg p off)

/-- A BAR0 read: naturally aligned, of 4 bytes, or of 8 that reach two registers, the lower half first (R35). -/
def State.bar0Read (s : State) (p off size : Nat) : Option DWord :=
  if size = 4 ∧ off % 4 = 0 then some ((s.readWord p off).setWidth 64)
  else if size = 8 ∧ off % 8 = 0 then some (s.readWord p (off + 4) ++ s.readWord p off)
  else none

/-- The state after a BAR0 read: one of another size or alignment is an Unsupported Request, and recorded (R35). -/
def State.afterRead (p off size : Nat) (s : State) : State :=
  if (s.bar0Read p off size).isSome then s else s.refuseAccess p off size

/-- What a read of the port's configuration space finds in the Interrupt Pin register: the function never signals INTx
(R70). -/
def interruptPin : Nat := 0

end Sys2Proof.Machine
end

