-- ==== Sys2Proof/Safety.lean ====
section
/-! DEFINITION. What counts as a safe run, in the terms claims use: outcomes, acceptance of commands, and what a command
leaves as it was. -/

namespace Sys2Proof.Machine

/-- An outcome that is a next state meeting a condition. -/
def Yields (o : Host.Outcome State Fault Refusal) (p : State → Prop) : Prop :=
  ∃ t, o = .next t ∧ p t

/-- The fields of State. -/
inductive Field where
  | member | now | regs | unstored | host | epo | cat | med | coh | lnk | rte | cap | cry | flt | anl | cur | thm | pwr | pmc | out
  | net | freeCtr | pending
  deriving DecidableEq, Repr

/-- A field reads the same in two states. -/
def Field.same (f : Field) (s t : State) : Prop :=
  match f with
  | .member => t.member = s.member
  | .now => t.now = s.now
  | .regs => t.regs = s.regs
  | .unstored => t.unstored = s.unstored
  | .host => t.host = s.host
  | .epo => t.epo = s.epo
  | .cat => t.cat = s.cat
  | .med => t.med = s.med
  | .coh => t.coh = s.coh
  | .lnk => t.lnk = s.lnk
  | .rte => t.rte = s.rte
  | .cap => t.cap = s.cap
  | .cry => t.cry = s.cry
  | .flt => t.flt = s.flt
  | .anl => t.anl = s.anl
  | .cur => t.cur = s.cur
  | .thm => t.thm = s.thm
  | .pwr => t.pwr = s.pwr
  | .pmc => t.pmc = s.pmc
  | .out => t.out = s.out
  | .net => t.net = s.net
  | .freeCtr => t.freeCtr = s.freeCtr
  | .pending => t.pending = s.pending

/-- Every field but those named is as it was. -/
def ChangesOnly (fs : List Field) (s t : State) : Prop := ∀ f, f ∉ fs → f.same s t

/-- A step, if it answers a next state, changes the named fields at most. -/
def Keeps (o : Host.Outcome State Fault Refusal) (fs : List Field) (s : State) : Prop :=
  ∀ t, o = .next t → ChangesOnly fs s t

/-- A step, if it answers a next state, changes the named registers at most, among those held as register bits. -/
def KeepsRegs (o : Host.Outcome State Fault Refusal) (rs : List Reg) (s : State) : Prop :=
  ∀ t, o = .next t → ∀ r u i, r ∉ rs → t.reg r u i = s.reg r u i

/-- The fuses are in order: a root key is left, and the root generation and the returns to OPEN are within their ranges
(R449, R456, R461). -/
def State.fusesOk (s : State) : Bool :=
  decide (s.cur.rootGen ≤ 63) && decide (s.cur.returns ≤ 31) && s.cur.revoked != 15

/-- A command of an opcode with the parameters of a row is there to run and passes the checks that every opcode shares (R53,
R61, R62, R72, R397, R455, R489); it does not just arrive on the sideband. -/
def State.accepts (s : State) (opc : Nat) (c : Ctx) (ps : List Param) : Bool :=
  !s.arrives opc c ps && s.runs opc c ps && (s.precheck opc c ps).isNone

end Sys2Proof.Machine
end

