-- ==== Sys2Proof/Certificates/Slice0/Obligations.lean ====
section
/-! DEFINITION. The statements for the provers, one definition each. Every clause of a statement is over all states and operands
that meet its premises, and the docstring names the rules of the spec it rests on and the assumptions that enter it. -/

open Sys2Proof Sys2Proof.Machine

/-- A doorbell in range sets its index; one out of range puts the ring in error; a disabled ring is left alone. A doorbell
of an enabled SQ that is in no error sets its tail where the value is below the ring size; at or above the size the
ring is in error with code 01h and nothing else of it changes; a disabled ring is left as it is and the doorbell
recorded as 0x1005; a ring in error takes no doorbell. The CQ head doorbell does the same for a CQ, and a head that
would pass the device write index puts the CQ in error with code 03h. That a ring in error takes no doorbell and
leaves no record is the model's choice (assumption 98). Rests on R45, R414; assumptions 23, 24, 98. -/
def Obligations.DoorbellRule : Prop :=
    (∀ (p n : Nat) (v : BitVec 12) (s : State), s.takesWrite p = true →
      n < 64 →
      (s.sq p n).enable = true →
      (s.sq p n).err = false →
      v.toNat < (s.sq p n).size →
      exec (.sqDoorbell p n v) s = .next (s.commitStore.setSq p n { s.sq p n with tail := v.toNat })) ∧
    (∀ (p n : Nat) (v : BitVec 12) (s : State), s.takesWrite p = true →
      n < 64 →
      (s.sq p n).enable = true →
      (s.sq p n).err = false →
      (s.sq p n).size ≤ v.toNat →
      Yields (exec (.sqDoorbell p n v) s) (fun t => t.sq p n = { s.sq p n with err := true, code := 1 })) ∧
    (∀ (p n : Nat) (v : BitVec 12) (s : State), s.takesWrite p = true →
      n < 64 →
      (s.sq p n).enable = false →
      exec (.sqDoorbell p n v) s = .next (s.commitStore.ringRecord p (sqDbOff n) 4)) ∧
    (∀ (p n : Nat) (v : BitVec 12) (s : State), s.takesWrite p = true →
      n < 64 →
      (s.sq p n).enable = true →
      (s.sq p n).err = true →
      exec (.sqDoorbell p n v) s = .next s.commitStore) ∧
    (∀ (p n : Nat) (v : BitVec 12) (s : State), s.takesWrite p = true →
      n < 64 →
      (s.cq p n).enable = true →
      (s.cq p n).err = false →
      (s.cq p n).held = [] →
      v.toNat < (s.cq p n).size →
      ringDist (s.cq p n).size (s.cq p n).tail v.toNat ≤ ringDist (s.cq p n).size (s.cq p n).tail (s.cq p n).head →
      exec (.cqDoorbell p n v) s = .next (s.commitStore.setCq p n { s.cq p n with tail := v.toNat })) ∧
    (∀ (p n : Nat) (v : BitVec 12) (s : State), s.takesWrite p = true →
      n < 64 →
      (s.cq p n).enable = true →
      (s.cq p n).err = false →
      v.toNat < (s.cq p n).size →
      ringDist (s.cq p n).size (s.cq p n).tail (s.cq p n).head < ringDist (s.cq p n).size (s.cq p n).tail v.toNat →
      Yields (exec (.cqDoorbell p n v) s) (fun t => (t.cq p n).err = true ∧ (t.cq p n).code = 3)) ∧
    (∀ (p n : Nat) (v : BitVec 12) (s : State), s.takesWrite p = true →
      n < 64 →
      (s.cq p n).enable = true →
      (s.cq p n).err = false →
      (s.cq p n).size ≤ v.toNat →
      Yields (exec (.cqDoorbell p n v) s) (fun t => t.cq p n = { s.cq p n with err := true, code := 1 })) ∧
    (∀ (p n : Nat) (v : BitVec 12) (s : State), s.takesWrite p = true →
      n < 64 →
      (s.cq p n).enable = true →
      (s.cq p n).err = true →
      exec (.cqDoorbell p n v) s = .next s.commitStore) ∧
    (∀ (p n : Nat) (v : BitVec 12) (s : State), s.takesWrite p = true →
      n < 64 →
      (s.cq p n).enable = false →
      exec (.cqDoorbell p n v) s = .next (s.commitStore.ringRecord p (cqDbOff n) 4))

/-- A ring whose enable is set starts from entry 0; one whose enable is cleared stops; what a write may not change is
recorded. A write of RING_SQ_CFG or RING_CQ_CFG of a disabled ring of 2 or more entries that sets enable takes its
fields and starts the ring from entry 0 with no error, an SQ where its CQ is in no error and a CQ that holds no
completion, with phase 1. An SQ enabled on a CQ in error enters error 04h. Setting enable with a size of 1 entry
leaves an SQ disabled and is recorded. A write that clears enable disables the ring, and the data of the fetches of an
SQ still outstanding is dropped. A write that leaves enable 1 and would change another field of an SQ changes no field
and is recorded. A write with a vector from 64 to 127 leaves the vector of a CQ, and that of a disabled CQ is
recorded. Rests on R43, R44, R45, R46; assumption 98. -/
def Obligations.RingEnableStartsEmpty : Prop :=
    (∀ (p n : Nat) (w : Word) (s : State), s.takesWrite p = true →
      n < 64 →
      (s.sq p n).enable = false →
      bits w.toNat 31 31 = 1 →
      ((s.sq p n).fields w.toNat).sizeM1 ≠ 0 →
      (s.cq p ((s.sq p n).fields w.toNat).cq.toNat).err = false →
      exec (.sqCfgWrite p n w) s = .next (s.commitStore.setSq p n { (s.sq p n).fields w.toNat with enable := true, err := false, code := 0, head := 0, tail := 0 })) ∧
    (∀ (p n : Nat) (w : Word) (s : State), s.takesWrite p = true →
      n < 64 →
      (s.sq p n).enable = false →
      bits w.toNat 31 31 = 1 →
      ((s.sq p n).fields w.toNat).sizeM1 ≠ 0 →
      (s.cq p ((s.sq p n).fields w.toNat).cq.toNat).err = true →
      Yields (exec (.sqCfgWrite p n w) s) (fun t => t.sq p n = { (s.sq p n).fields w.toNat with enable := true, err := true, code := 4, head := 0, tail := 0 })) ∧
    (∀ (p n : Nat) (w : Word) (s : State), s.takesWrite p = true →
      n < 64 →
      (s.sq p n).enable = false →
      (s.sq p n).err = false →
      bits w.toNat 31 31 = 1 →
      ((s.sq p n).fields w.toNat).sizeM1 = 0 →
      (s.cq p ((s.sq p n).fields w.toNat).cq.toNat).err = false →
      exec (.sqCfgWrite p n w) s = .next ((s.commitStore.setSq p n ((s.sq p n).fields w.toNat)).refusedWrite p p (sqCfgOff n) w.toNat) ∧ ((s.sq p n).fields w.toNat).enable = false) ∧
    (∀ (p n : Nat) (w : Word) (s : State), s.takesWrite p = true →
      n < 64 →
      (s.sq p n).enable = true →
      bits w.toNat 31 31 = 0 →
      Yields (exec (.sqCfgWrite p n w) s) (fun t => t.sq p n = { s.sq p n with enable := false } ∧ ∀ f ∈ (t.port p).fetches, f.sq = n → f.got = none → f.dead = true)) ∧
    (∀ (p n : Nat) (w : Word) (s : State), s.takesWrite p = true →
      n < 64 →
      (s.sq p n).enable = true →
      bits w.toNat 31 31 = 1 →
      (s.sq p n).fields w.toNat ≠ s.sq p n →
      exec (.sqCfgWrite p n w) s = .next (s.commitStore.refusedWrite p p (sqCfgOff n) w.toNat)) ∧
    (∀ (p n : Nat) (w : Word) (s : State), s.takesWrite p = true →
      n < 64 →
      (s.cq p n).enable = false →
      (s.cq p n).held = [] →
      bits w.toNat 31 31 = 1 →
      ((s.cq p n).fields w.toNat).sizeM1 ≠ 0 →
      bits w.toNat 10 0 < 64 ∨ 127 < bits w.toNat 10 0 →
      ((s.cq p n).fields w.toNat).intEn = false ∨ (s.cq p n).unsig = 0 →
      exec (.cqCfgWrite p n w) s = .next (s.commitStore.setCq p n { (s.cq p n).fields w.toNat with enable := true, err := false, code := 0, head := 0, tail := 0, phase := true })) ∧
    (∀ (p n : Nat) (w : Word) (s : State), s.takesWrite p = true →
      n < 64 →
      64 ≤ bits w.toNat 10 0 →
      bits w.toNat 10 0 ≤ 127 →
      Yields (exec (.cqCfgWrite p n w) s) (fun t => (t.cq p n).vector = (s.cq p n).vector)) ∧
    (∀ (p n : Nat) (w : Word) (s : State), s.takesWrite p = true →
      n < 64 →
      64 ≤ bits w.toNat 10 0 →
      bits w.toNat 10 0 ≤ 127 →
      (s.cq p n).enable = false →
      bits w.toNat 31 31 = 0 →
      ((s.cq p n).fields w.toNat).intEn = false →
      exec (.cqCfgWrite p n w) s = .next ((s.commitStore.refusedWrite p p (cqCfgOff n) w.toNat).setCq p n ((s.cq p n).fields w.toNat))) ∧
    (∀ (p n : Nat) (w : Word) (s : State), s.takesWrite p = true →
      n < 64 →
      (s.cq p n).enable = true →
      bits w.toNat 31 31 = 0 →
      Yields (exec (.cqCfgWrite p n w) s) (fun t => t.cq p n = { s.cq p n with enable := false }))

/-- A turn of fetching reserves completion entries and reads on; a returned fenced command waits for those before it. A
turn of the fetch engine that may fetch and finds an urgent ring with work reads the entries that burst, tail and
completion room allow: the head moves on, as many completion entries are reserved, the fetch is outstanding, and the
host read of the entries goes out, in one where the ring does not wrap among them. A bad entry puts its SQ in error
with code 02h; the data of a dead fetch is dropped and its reservation released in the ring where it was made. A
returned fenced command waits while an earlier one of its SQ is left, and starts once it is alone. A ZERO_RANGE or
DISCARD whose range shares a line with that of an earlier command of its SQ, one of them writing, changes nothing
until that command has completed (assumption 11). Resuming clears the pause of fetching. Rests on R40, R48, R49, R50,
R61, R63; assumptions 11, 16. -/
def Obligations.FetchAndStart : Prop :=
    (∀ (p n : Nat) (s : State), s.hasPort p = true →
      s.mayFetch p = true →
      s.nextSq p (s.port p).rotUrg true = some n →
      (s.sq p n).head + s.fetchable p n ≤ (s.sq p n).size →
      Yields (exec (.sqFetchIssue p) s) (fun t =>
        t.sq p n = { s.sq p n with head := ((s.sq p n).head + s.fetchable p n) % (s.sq p n).size } ∧
        t.cq p (s.sq p n).cq.toNat = { s.cq p (s.sq p n).cq.toNat with
          reserved := (s.cq p (s.sq p n).cq.toNat).reserved + s.fetchable p n } ∧
        t.host.serial = s.host.serial + s.fetchable p n ∧
        t.out = s.out ++ [.hostRead p (s.sqAddr p n (s.sq p n).head) (64 * s.fetchable p n)] ∧
        (t.port p).fetches = (s.port p).fetches ++
          [{ sq := n, first := s.host.serial, entry := (s.sq p n).head, count := s.fetchable p n, cq := (s.sq p n).cq.toNat, dead := false,
             got := none }])) ∧
    (∀ (p n : Nat) (f : Fetch) (e : Fetched) (s : State), s.hasPort p = true →
      s.hostUp p = true →
      n < 64 →
      s.paused p = false →
      (s.port p).fetches = [f] →
      f.sq = n →
      f.got = none →
      f.count = 1 →
      s.unstarted p n = [] →
      f.dead = false →
      e.bad = true →
      Yields (exec (.sqFetchReturn p n f.first [e]) s) (fun t => (t.sq p n).err = true ∧ (t.sq p n).code = 2 ∧ (t.port p).fetches = [] ∧ t.host.cmds = s.host.cmds)) ∧
    (∀ (p n : Nat) (f : Fetch) (e : Fetched) (s : State), s.hasPort p = true →
      s.hostUp p = true →
      n < 64 →
      s.paused p = false →
      (s.port p).fetches = [f] →
      f.sq = n →
      f.got = none →
      f.count = 1 →
      s.unstarted p n = [] →
      f.dead = true →
      Yields (exec (.sqFetchReturn p n f.first [e]) s) (fun t => t.host.cmds = s.host.cmds ∧ (t.port p).fetches = [] ∧ (t.cq p f.cq).reserved = (s.cq p f.cq).reserved - 1)) ∧
    (∀ (p n : Nat) (f : Fetch) (e : Fetched) (j : Cmd) (s : State), s.hasPort p = true →
      s.hostUp p = true →
      n < 64 →
      s.paused p = false →
      (s.port p).fetches = [f] →
      f.sq = n →
      f.got = none →
      f.count = 1 →
      s.unstarted p n = [] →
      f.dead = false →
      e.bad = false →
      pkt e.packet 1 1 % 2 = 1 →
      j ∈ s.host.cmds →
      j.port = p →
      j.sq = n →
      ∀ k ∈ s.host.cmds, k.idx ≠ f.first →
      f.entry + 1 < (s.sq p n).size →
      Yields (exec (.sqFetchReturn p n f.first [e]) s) (fun t => t.host.cmds = s.host.cmds ++
        [{ port := p, sq := n, idx := f.first, packet := e.packet, next := f.entry + 1, cq := f.cq, started := false, passed := false,
           held := false, dropped := false }])) ∧
    (∀ (p n : Nat) (k : Cmd) (s : State), s.hasPort p = true →
      n < 64 →
      s.host.cmds = [k] →
      k.port = p →
      k.sq = n →
      k.started = false →
      k.fenced = true →
      k.headerRsv = false →
      opcodes.contains k.opcode = true →
      k.opcode < 0x40 →
      k.slotWord = none →
      s.pwr.pwr = .p0 →
      s.waiting p srcInterp = [] →
      Yields (exec (.fencedCommandStart p n) s) (fun t => t.host.cmds = [{ k with started := true, held := false }])) ∧
    (∀ (c : Ctx) (pa len : DWord) (env : MediaEnv) (p q i : Nat) (k : Cmd) (s : State), c.path = .ring p q i →
      s.findCmd p q i = some k →
      s.heldBack k = true →
      exec (.zeroRange c pa len env) s = .next s) ∧
    (∀ (c : Ctx) (pa len : DWord) (p q i : Nat) (k : Cmd) (s : State), c.path = .ring p q i →
      s.findCmd p q i = some k →
      s.heldBack k = true →
      exec (.discard c pa len) s = .next s) ∧
    (∀ (p : Nat) (s : State), s.takesWrite p = true →
      Yields (exec (.fetchResume p) s) (fun t => t.field .ringGctrl p 0 31 31 = 0))

/-- A collected completion is written whole at the device write index; without credit the collector holds. With posted-
write credit the collector takes one entry of a source and writes it at the completion ring's write index with the
current phase, and the index moves on; without credit it holds, which counts once; a completion for a ring that is
disabled or in error is held for it. The coalescing timer, where it is due and the ring has its interrupt enabled,
signals every unsignalled entry by the ring's vector; a pending vector that may be sent is sent and no longer pending.
The head of the Curator queue commits. Rests on R47, R62, R66, R68, R70; assumptions 15, 16, 97. -/
def Obligations.CompletionsReachTheHost : Prop :=
    (∀ (p : Nat) (s : State), s.hasPort p = true →
      s.portsUp = true →
      s.cry.haltCause = 0 →
      (s.port p).noCredit = true →
      exec (.completionCollect p false) s = .next (s.setPort p { s.port p with noCredit := true })) ∧
    (∀ (p : Nat) (s : State), s.hasPort p = true →
      s.portsUp = true →
      s.cry.haltCause = 0 →
      (s.port p).noCredit = false →
      Yields (exec (.completionCollect p false) s) (fun t => t.out = s.out ∧ t.host.srcQ = s.host.srcQ ∧ t.port p = { s.port p with noCredit := true } ∧ t.pmc = (s.pmcEdge p 0x63 0).pmc)) ∧
    (∀ (p x n : Nat) (e : Cqe) (rest : List (Nat × Cqe)) (s : State), s.hasPort p = true →
      s.portsUp = true →
      s.cry.haltCause = 0 →
      s.nonEmpty p = [x] →
      s.staged p x = (n, e) :: rest →
      s.waiting p x = [] →
      (s.cq p n).enable = true →
      (s.cq p n).err = false →
      (s.cq p n).held = [] →
      0 < (s.cq p n).space →
      (s.cq p n).head < (s.cq p n).size →
      (s.cq p n).intEn = false →
      Yields (exec (.completionCollect p true) s) (fun t =>
        t.out = s.out ++ [.hostWrite p (s.cqAddr p n (s.cq p n).head) (e.bytes (s.cq p n).phase)] ∧
        (t.cq p n).head = (if (s.cq p n).head + 1 = (s.cq p n).size then 0 else (s.cq p n).head + 1) ∧
        (t.cq p n).phase = (if (s.cq p n).head + 1 = (s.cq p n).size then !(s.cq p n).phase else (s.cq p n).phase) ∧
        t.staged p x = rest)) ∧
    (∀ (p x n : Nat) (e : Cqe) (rest : List (Nat × Cqe)) (s : State), s.hasPort p = true →
      s.portsUp = true →
      s.cry.haltCause = 0 →
      s.nonEmpty p = [x] →
      s.staged p x = (n, e) :: rest →
      ((s.cq p n).enable = false ∨ (s.cq p n).err = true) →
      Yields (exec (.completionCollect p true) s) (fun t => t.out = s.out ∧ t.cq p n = { s.cq p n with held := (s.cq p n).held ++ [e] })) ∧
    (∀ (p n : Nat) (s : State), s.hasPort p = true →
      n < 64 →
      s.coalDue p n = true →
      (s.cq p n).intEn = true →
      exec (.cqCoalTimer p n) s = .next ((s.setCq p n { s.cq p n with unsig := 0, oldest := none }).raiseVector p (s.cq p n).vector.toNat)) ∧
    (∀ (p v : Nat) (s : State), s.hasPort p = true →
      v < 2048 →
      tget (fun _ => false) s.host.pba (vecKey p v) = true →
      s.canSend p v = true →
      Yields (exec (.msixPendingSend p v) s) (fun t => t.out = s.out ++ [.msix p v] ∧ tget (fun _ => false) t.host.pba (vecKey p v) = false)) ∧
    (∀ (m : Mgmt) (ms : List Mgmt) (s : State), s.cur.primary.isSome = true →
      s.cry.haltCause = 0 →
      s.cur.queue = m :: ms →
      m ∉ ms →
      exec .curatorCommandExecute s = .next { s with cur := { s.cur with queue := { m with committed := true } :: ms } })

/-- A window takes its configuration while unregistered, refuses an enable out of range, and drains when unregistered in
use. A write of XW_WIN_CFG of a window that is neither registered nor draining takes its fields and its enable, but an
enable with a slot size or a window size out of range leaves it unregistered and is recorded. Clearing enable
unregisters it; it drains while commands in flight name it and draining ends once none does. DW_APT takes its base in
aperture mode and ignores writes in full mode. Rests on R75, R76, R82, R85, R86; assumption 23. -/
def Obligations.WindowRules : Prop :=
    (∀ (p n : Nat) (w : Word) (s : State), s.takesWrite p = true →
      n < 4 →
      (s.win p n).enable = false →
      (s.win p n).draining = false →
      bits w.toNat 31 31 = 1 →
      ((s.win p n).fields w.toNat).refused = false →
      exec (.xwWinCfgWrite p n w) s = .next (s.commitStore.setWin p n { (s.win p n).fields w.toNat with enable := true })) ∧
    (∀ (p n : Nat) (w : Word) (s : State), s.takesWrite p = true →
      n < 4 →
      (s.win p n).enable = false →
      (s.win p n).draining = false →
      bits w.toNat 31 31 = 1 →
      ((s.win p n).fields w.toNat).refused = true →
      exec (.xwWinCfgWrite p n w) s = .next ((s.commitStore.setWin p n ((s.win p n).fields w.toNat)).refusedWrite p p (winCfgOff n) w.toNat) ∧ ((s.win p n).fields w.toNat).enable = false) ∧
    (∀ (p n : Nat) (w : Word) (s : State), s.takesWrite p = true →
      n < 4 →
      (s.win p n).enable = true →
      bits w.toNat 31 31 = 0 →
      Yields (exec (.xwWinCfgWrite p n w) s) (fun t => t.win p n = { s.win p n with enable := false, draining := !(s.inflight p n).isEmpty })) ∧
    (∀ (p n : Nat) (s : State), s.hasPort p = true →
      n < 4 →
      (s.win p n).draining = true →
      (s.inflight p n).isEmpty = true →
      exec (.windowDrainEnd p n) s = .next (s.setWin p n { s.win p n with draining := false })) ∧
    (∀ (p n : Nat) (s : State), s.hasPort p = true →
      n < 4 →
      (s.inflight p n).isEmpty = false →
      exec (.windowDrainEnd p n) s = .next s) ∧
    (∀ (p : Nat) (w : Word) (s : State), s.takesWrite p = true →
      s.pwr.straps.barmode = true →
      exec (.dwAptWrite p w) s = .next (s.commitStore.putField .dwApt p 0 18 0 w.toNat)) ∧
    (∀ (p : Nat) (w : Word) (s : State), s.takesWrite p = true →
      s.pwr.straps.barmode = false →
      exec (.dwAptWrite p w) s = .next s.commitStore)

/-- The Direct Window reads and writes lines as the host-window agent, completes with an abort before ready, and holds
during a rollback. A BAR2 read that the part does not serve completes with an abort. Otherwise a read or a store takes
its place behind those the port holds; on a port that holds none it is served at once, as far as none of its lines
must wait, and the port holds nothing after. A read of one line inside the capacity without the right answers as
poisoned; a store while the part is read-only is discarded and counted once at the home of its first line; during a
rollback an access is held and nothing else of it happens. Rests on R85, R87, R93, R105, R187, R492; assumptions 19,
25, 56, 99. -/
def Obligations.DirectWindowServes : Prop :=
    (∀ (p : Nat) (o : DWord) (n : Nat) (env : MediaEnv) (s : State), s.hasPort p = true →
      s.hostUp p = true →
      s.bar2Open = false →
      exec (.dwRead p o n env) s = .next (s.emit (.dwReply p false false []))) ∧
    (∀ (p : Nat) (o : DWord) (n : Nat) (env : MediaEnv) (s : State), s.hasPort p = true →
      s.hostUp p = true →
      s.bar2 p = true →
      s.epo.rollback = false →
      s.pwr.pwr = .p0 →
      (s.port p).heldDw = [] →
      (s.port p).closeHeld = false →
      s.epo.heldTrig = [] →
      ((((s.pmcEdge p 0x60 0).holdDw p { offset := BitVec.ofNat 64 (s.dwPa p o.toNat), len := n, store := none, env := env }).serveRead p (BitVec.ofNat 64 (s.dwPa p o.toNat)).toNat n env)).cat.stuck = false →
      ((((s.pmcEdge p 0x60 0).holdDw p { offset := BitVec.ofNat 64 (s.dwPa p o.toNat), len := n, store := none, env := env }).serveRead p (BitVec.ofNat 64 (s.dwPa p o.toNat)).toNat n env)).cat.forged = none →
      exec (.dwRead p o n env) s = .next (((((s.pmcEdge p 0x60 0).holdDw p { offset := BitVec.ofNat 64 (s.dwPa p o.toNat), len := n, store := none, env := env }).serveRead p (BitVec.ofNat 64 (s.dwPa p o.toNat)).toNat n env)).tellFaults.undoTriggers.setPort p { ((((s.pmcEdge p 0x60 0).holdDw p { offset := BitVec.ofNat 64 (s.dwPa p o.toNat), len := n, store := none, env := env }).serveRead p (BitVec.ofNat 64 (s.dwPa p o.toNat)).toNat n env)).tellFaults.undoTriggers.port p with heldDw := [] })) ∧
    (∀ (p : Nat) (o : DWord) (n : Nat) (env : MediaEnv) (s : State), s.hasPort p = true →
      s.hostUp p = true →
      s.bar2 p = true →
      s.epo.rollback = false →
      s.pwr.pwr = .p0 →
      (s.port p).heldDw = [] →
      (s.port p).closeHeld = false →
      s.epo.heldTrig = [] →
      s.cat.stuck = false →
      s.cat.forged = none →
      s.dwPa p o.toNat < 2 ^ 64 →
      0 < n →
      o.toNat % 128 + n ≤ 128 →
      s.dwPa p o.toNat + n ≤ s.capacity →
      (s.denied p (s.kidOf (folioOf (s.dwPa p o.toNat / 128))) false).isSome = true →
      Yields (exec (.dwRead p o n env) s) (fun t => (t.out.drop s.out.length).head? = some (.dwReply p true true []) ∧ (t.port p).heldDw = [])) ∧
    (∀ (p : Nat) (o : DWord) (n : Nat) (env : MediaEnv) (s : State), s.hasPort p = true →
      s.hostUp p = true →
      s.bar2 p = true →
      s.epo.rollback = true →
      Yields (exec (.dwRead p o n env) s) (fun t => (t.port p).heldDw = (s.port p).heldDw ++ [{ offset := BitVec.ofNat 64 (s.dwPa p o.toNat), len := n, store := none, env := env }])) ∧
    (∀ (p : Nat) (o : DWord) (b : List (Option Byte)) (env : MediaEnv) (s : State), s.hasPort p = true →
      s.bar2 p = false →
      exec (.dwStore p o b env) s = .next s) ∧
    (∀ (p : Nat) (o : DWord) (b : List (Option Byte)) (env : MediaEnv) (s : State), s.hasPort p = true →
      s.hostUp p = true →
      s.bar2 p = true →
      s.epo.rollback = false →
      s.pwr.pwr = .p0 →
      (s.port p).heldDw = [] →
      (s.port p).closeHeld = false →
      s.epo.heldTrig = [] →
      s.cat.stuck = false →
      s.cat.forged = none →
      s.med.readOnly = true →
      s.dwPa p o.toNat < 2 ^ 64 →
      s.dwPa p o.toNat + b.length ≤ s.capacity →
      0 < b.length →
      exec (.dwStore p o b env) s = .next (((((s.pmcEdge p 0x60 0).holdDw p { offset := BitVec.ofNat 64 (s.dwPa p o.toNat), len := b.length, store := some b, env := env }).bump .medRoWrites (s.home (s.dwPa p o.toNat / 128)) 0)).tellFaults.undoTriggers.setPort p { ((((s.pmcEdge p 0x60 0).holdDw p { offset := BitVec.ofNat 64 (s.dwPa p o.toNat), len := b.length, store := some b, env := env }).bump .medRoWrites (s.home (s.dwPa p o.toNat / 128)) 0)).tellFaults.undoTriggers.port p with heldDw := [] })) ∧
    (∀ (p : Nat) (o : DWord) (b : List (Option Byte)) (env : MediaEnv) (s : State), s.hasPort p = true →
      s.hostUp p = true →
      s.bar2 p = true →
      s.epo.rollback = false →
      s.pwr.pwr = .p0 →
      (s.port p).heldDw = [] →
      (s.port p).closeHeld = false →
      s.epo.heldTrig = [] →
      ((((s.pmcEdge p 0x60 0).holdDw p { offset := BitVec.ofNat 64 (s.dwPa p o.toNat), len := b.length, store := some b, env := env }).serveStore p (BitVec.ofNat 64 (s.dwPa p o.toNat)).toNat b env)).cat.stuck = false →
      ((((s.pmcEdge p 0x60 0).holdDw p { offset := BitVec.ofNat 64 (s.dwPa p o.toNat), len := b.length, store := some b, env := env }).serveStore p (BitVec.ofNat 64 (s.dwPa p o.toNat)).toNat b env)).cat.forged = none →
      exec (.dwStore p o b env) s = .next (((((s.pmcEdge p 0x60 0).holdDw p { offset := BitVec.ofNat 64 (s.dwPa p o.toNat), len := b.length, store := some b, env := env }).serveStore p (BitVec.ofNat 64 (s.dwPa p o.toNat)).toNat b env)).tellFaults.undoTriggers.setPort p { ((((s.pmcEdge p 0x60 0).holdDw p { offset := BitVec.ofNat 64 (s.dwPa p o.toNat), len := b.length, store := some b, env := env }).serveStore p (BitVec.ofNat 64 (s.dwPa p o.toNat)).toNat b env)).tellFaults.undoTriggers.port p with heldDw := [] })) ∧
    (∀ (p : Nat) (o : DWord) (b : List (Option Byte)) (env : MediaEnv) (s : State), s.hasPort p = true →
      s.hostUp p = true →
      s.bar2 p = true →
      s.epo.rollback = true →
      Yields (exec (.dwStore p o b env) s) (fun t => (t.port p).heldDw = (s.port p).heldDw ++ [{ offset := BitVec.ofNat 64 (s.dwPa p o.toNat), len := b.length, store := some b, env := env }]))

/-- A BAR0 write reaches the operation of its register, one not naturally aligned is an Unsupported Request; an absent
tile takes none and reads as 0. A 4-byte write to a doorbell or configuration address of a submission or completion
ring does what the row of that register does, with the index the address gives; a write of a size or alignment R35
does not allow is answered as an Unsupported Request; a write to a tile the member lacks changes nothing, and a read
there gives 0; PWR_CFG reads back its 16 bits as written; in SEALED a write that would change the RWL fields of
CUR_TAMPER_CFG is refused and recorded; in a security halt a register outside the blocks that stay readable reads
FFFF_FFFFh. Rests on R13, R14, R34, R35, R36, R43, R397; assumptions 48, 96. -/
def Obligations.RegisterWriteReachesItsRow : Prop :=
    (∀ (p n : Nat) (o : BitVec 24) (v : DWord) (s : State), s.takesWrite p = true →
      n < 64 →
      o.toNat = sqDbOff n →
      v.toNat < 4096 →
      exec (.registerWrite p o 4 v) s = .next (s.commitStore.sqTail p n v.toNat)) ∧
    (∀ (p n : Nat) (o : BitVec 24) (v : DWord) (s : State), s.takesWrite p = true →
      n < 64 →
      o.toNat = sqCfgOff n →
      v.toNat < 2 ^ 32 →
      exec (.registerWrite p o 4 v) s = .next (s.commitStore.writeSqCfg p n v.toNat)) ∧
    (∀ (p n : Nat) (o : BitVec 24) (v : DWord) (s : State), s.takesWrite p = true →
      n < 64 →
      o.toNat = cqDbOff n →
      v.toNat < 4096 →
      exec (.registerWrite p o 4 v) s = .next (s.commitStore.cqHead p n v.toNat)) ∧
    (∀ (p n : Nat) (o : BitVec 24) (v : DWord) (s : State), s.takesWrite p = true →
      n < 64 →
      o.toNat = cqCfgOff n →
      v.toNat < 2 ^ 32 →
      exec (.registerWrite p o 4 v) s = .next (s.commitStore.writeCqCfg p n v.toNat)) ∧
    (∀ (p sz : Nat) (o : BitVec 24) (v : DWord) (s : State), s.takesWrite p = true →
      ¬(sz = 4 ∧ o.toNat % 4 = 0) →
      ¬(sz = 8 ∧ o.toNat % 8 = 0) →
      Yields (exec (.registerWrite p o sz v) s) (fun t => t.out = s.out ++ [.unsupported p])) ∧
    (∀ (p : Nat) (o : BitVec 24) (v : DWord) (s : State), s.takesWrite p = true →
      0x100000 ≤ o.toNat →
      o.toNat < 0x900000 →
      s.hasTile (o.toNat / 0x100000 - 1) = false →
      o.toNat % 4 = 0 →
      exec (.registerWrite p o 4 v) s = .next s.commitStore) ∧
    (∀ (p : Nat) (v : DWord) (s : State), s.takesWrite p = true →
      v.toNat < 2 ^ 32 →
      100 ≤ v.toNat % 2 ^ 16 →
      Yields (exec (.registerWrite p 0x70404 4 v) s) (fun t => (t.readWord p 0x70404).toNat = v.toNat % 2 ^ 16)) ∧
    (∀ (p : Nat) (v : DWord) (s : State), s.takesWrite p = true →
      v.toNat < 2 ^ 32 →
      s.cur.lifecycle = .sealed →
      Reg.curTamperCfg.desc.write true (s.reg .curTamperCfg 0 0) (adjust .curTamperCfg (s.reg .curTamperCfg 0 0) v.toNat) ≠ Reg.curTamperCfg.desc.write false (s.reg .curTamperCfg 0 0) (adjust .curTamperCfg (s.reg .curTamperCfg 0 0) v.toNat) →
      exec (.registerWrite p 0x900020 4 v) s = .next (s.commitStore.refusedWrite 0 p 0x900020 v.toNat)) ∧
    (∀ (p o : Nat) (s : State), 0x100000 ≤ o →
      o < 0x900000 →
      s.hasTile (o / 0x100000 - 1) = false →
      s.cry.haltCause = 0 →
      s.readWord p o = 0) ∧
    (∀ (p o : Nat) (s : State), s.cry.haltCause ≠ 0 →
      readableHalted o = false →
      s.readWord p o = 0xFFFFFFFF)

/-- GET_FEATURE and SET_FEATURE answer the value and the old value; EPOCH_QUERY answers the open epoch or D. An accepted
GET_FEATURE answers a feature's value, and SET_FEATURE sets a value in range and answers the old one; a feature of no
such number and a value out of range are refused with nothing set. EPOCH_QUERY answers the open epoch with mode 0 and
D with mode 1. EPOCH_CLOSE begins the seal of the open epoch where no seal is in progress and no rollback runs; a mode
above 1 is refused and recorded, which is the model's reading (assumption 67). Rests on R56, R60, R94, R95, R96;
assumptions 11, 67. -/
def Obligations.FeaturesAndEpochQueries : Prop :=
    (∀ (c : Ctx) (f : Byte) (v : Nat) (s : State), s.accepts 0x02 c (getFeatureParams f) = true →
      s.feature f.toNat = some v →
      exec (.getFeature c f) s = .next (s.reply srcInterp c .done v)) ∧
    (∀ (c : Ctx) (f : Byte) (s : State), s.accepts 0x02 c (getFeatureParams f) = true →
      s.feature f.toNat = none →
      exec (.getFeature c f) s = .next (s.reply srcInterp c .unknown 0)) ∧
    (∀ (c : Ctx) (v : DWord) (s : State), s.accepts 0x03 c (setFeatureParams 3 v) = true →
      v.toNat ≤ 1 →
      exec (.setFeature c 3 v) s = .next ({ s with host := { s.host with features := { s.host.features with policy := v.toNat } } }.reply srcInterp c .done s.host.features.policy)) ∧
    (∀ (c : Ctx) (v : DWord) (s : State), s.accepts 0x03 c (setFeatureParams 2 v) = true →
      100 ≤ v.toNat →
      v.toNat ≤ 1000000 →
      exec (.setFeature c 2 v) s = .next ((s.setAuto v.toNat).reply srcInterp c .done s.host.features.auto)) ∧
    (∀ (c : Ctx) (v : DWord) (s : State), s.accepts 0x03 c (setFeatureParams 2 v) = true →
      v.toNat ≠ 0 →
      v.toNat < 100 →
      exec (.setFeature c 2 v) s = .next (s.reply srcInterp c .param 0)) ∧
    (∀ (c : Ctx) (v : DWord) (s : State), s.accepts 0x03 c (setFeatureParams 1 v) = true →
      exec (.setFeature c 1 v) s = .next ((s.setWall v.toNat).reply srcInterp c .done s.wallNow)) ∧
    (∀ (c : Ctx) (f : Byte) (v : DWord) (x : Nat) (s : State), s.accepts 0x03 c (setFeatureParams f v) = true →
      s.feature f.toNat = some x →
      s.setFeature f.toNat v.toNat = none →
      exec (.setFeature c f v) s = .next (s.reply srcInterp c .param 0)) ∧
    (∀ (c : Ctx) (f : Byte) (v : DWord) (s : State), s.accepts 0x03 c (setFeatureParams f v) = true →
      s.feature f.toNat = none →
      exec (.setFeature c f v) s = .next (s.reply srcInterp c .unknown 0)) ∧
    (∀ (c : Ctx) (s : State), s.accepts 0x19 c (epochParams 0) = true →
      exec (.epochQuery c 0) s = .next (s.reply srcInterp c .done s.epo.openE)) ∧
    (∀ (c : Ctx) (s : State), s.accepts 0x19 c (epochParams 1) = true →
      exec (.epochQuery c 1) s = .next (s.reply srcInterp c .done s.epo.durable)) ∧
    (∀ (c : Ctx) (m : Byte) (s : State), s.accepts 0x18 c (epochParams m) = true →
      m.toNat ≤ 1 →
      s.epo.rollback = false →
      s.epo.heldTrig = [] →
      s.epo.sealing = none →
      s.coordinated = true →
      Yields (exec (.epochClose c m) s) (fun t => t.epo.sealing = some { n := s.epo.openE, arrived := [], reported := [], triggers := [.close (some c) m.toNat] } ∧ t.epo.autoStart = s.now)) ∧
    (∀ (c : Ctx) (m : Byte) (s : State), s.accepts 0x18 c (epochParams m) = true →
      1 < m.toNat →
      exec (.epochClose c m) s = .next ((s.misuse c 0x18).reply srcInterp c .param 0))

/-- IDENTIFY, READ_X and WRITE_X move their data, return the slot and then answer, once their slot has passed R80. Once
its slot has passed the checks, IDENTIFY writes the part structure to the slot, returns the slot with length 4,096 and
answers; READ_X of a range the port may read writes the bytes read, returns the slot with their count and answers the
length; WRITE_X writes the bytes of the slot and answers the highest epoch its lines carry. On the sideband IDENTIFY
answers with the structure inline. WRITE_X on a read-only part writes no line, returns its slot and answers 07h/01h;
READ_X of a range that the port may not read returns its slot with no bytes and answers the refusal. Rests on R51,
R56, R60, R71, R79, R81, R187, R393; assumptions 11, 25, 26, 27, 98, 99. -/
def Obligations.TransferCommands : Prop :=
    (∀ (c : Ctx) (w : Word) (o : SlotRead) (s : State), s.accepts 0x01 c (identifyParams 0 0 w) = true →
      c.path = .sideband →
      (slotRef w.toNat).present = false →
      exec (.identify c 0 0 w o) s = .next (s.emit (.sideband c.tag 0 0 0 s.identifyPart))) ∧
    (∀ (p q i : Nat) (c : Ctx) (w : Word) (o : SlotRead) (r : SlotRef) (s : State), s.accepts 0x01 c (identifyParams 0 0 w) = true →
      c.path = .ring p q i →
      s.slotCheck p q i w o true (fun v _ => decide (4096 ≤ v.slotSize)) = .pass r →
      exec (.identify c 0 0 w o) s = .next (((s.writeSlot p q i r s.identifyPart).returnSlot p q i r .done 4096).reply srcInterp c .done 0)) ∧
    (∀ (p q i : Nat) (c : Ctx) (a : DWord) (n w : Word) (o : SlotRead) (e : MediaEnv) (r : SlotRef) (s : State), s.accepts 0x10 c (readXParams a n w) = true →
      c.path = .ring p q i →
      s.rangeCheck a.toNat n.toNat xferLimit = none →
      s.slotCheck p q i w o true (fun v _ => decide (n.toNat ≤ v.slotSize)) = .pass r →
      s.deniedRange (masterOf c) a.toNat n.toNat false = none →
      (s.readRange a.toNat n.toNat e).fail.isNone = true →
      (s.readRange a.toNat n.toNat e).rebuilt = false →
      (s.readRange a.toNat n.toNat e).bytes.isEmpty = false →
      (((((s.readRange a.toNat n.toNat e).after.writeSlot p q i r (s.readRange a.toNat n.toNat e).bytes).returnSlot
        p q i r .done (s.readRange a.toNat n.toNat e).bytes.length).reply (s.engineOf a.toNat) c .done n.toNat)).cat.stuck = false →
      (((((s.readRange a.toNat n.toNat e).after.writeSlot p q i r (s.readRange a.toNat n.toNat e).bytes).returnSlot
        p q i r .done (s.readRange a.toNat n.toNat e).bytes.length).reply (s.engineOf a.toNat) c .done n.toNat)).cat.forged = none →
      exec (.readX c a n w o e) s = .next (((((s.readRange a.toNat n.toNat e).after.writeSlot p q i r (s.readRange a.toNat n.toNat e).bytes).returnSlot
        p q i r .done (s.readRange a.toNat n.toNat e).bytes.length).reply (s.engineOf a.toNat) c .done n.toNat)).tellFaults.undoTriggers) ∧
    (∀ (p q i : Nat) (c : Ctx) (a : DWord) (n w : Word) (o : SlotRead) (e : MediaEnv) (r : SlotRef) (x : Status) (s : State), s.accepts 0x10 c (readXParams a n w) = true →
      c.path = .ring p q i →
      s.rangeCheck a.toNat n.toNat xferLimit = none →
      s.slotCheck p q i w o true (fun v _ => decide (n.toNat ≤ v.slotSize)) = .pass r →
      s.deniedRange (masterOf c) a.toNat n.toNat false = some x →
      s.cat.stuck = false →
      s.cat.forged = none →
      n.toNat ≠ 0 →
      exec (.readX c a n w o e) s = .next ((((s.deny (masterOf c) (a.toNat / 128)).returnSlot p q i r x 0).reply (s.engineOf a.toNat) c x 0).tellFaults.undoTriggers)) ∧
    (∀ (p q i : Nat) (c : Ctx) (a : DWord) (n w : Word) (o : SlotRead) (d : HostData) (e : MediaEnv) (r : SlotRef) (s : State), s.accepts 0x11 c (writeXParams a n w) = true →
      c.path = .ring p q i →
      s.rangeCheck a.toNat n.toNat xferLimit = none →
      s.slotCheck p q i w o true (fun _ v => ownLen v == n.toNat) = .pass r →
      s.med.readOnly = false →
      s.deniedRange (masterOf c) a.toNat n.toNat true = none →
      d.ok = true →
      (s.writeRange (linesOf a.toNat n.toNat) a.toNat n.toNat (fun i => d.bytes.getD i 0) (fun s l => s.home l) e).fail.isNone = true →
      (s.writeRange (linesOf a.toNat n.toNat) a.toNat n.toNat (fun i => d.bytes.getD i 0) (fun s l => s.home l) e).rebuilt = false →
      (((((s.writeRange (linesOf a.toNat n.toNat) a.toNat n.toNat (fun i => d.bytes.getD i 0)
        (fun s l => s.home l) e).after).returnSlot p q i r .done n.toNat).reply (s.engineOf a.toNat) c .done
        (s.writeRange (linesOf a.toNat n.toNat) a.toNat n.toNat (fun i => d.bytes.getD i 0) (fun s l => s.home l) e).epoch)).cat.stuck = false →
      (((((s.writeRange (linesOf a.toNat n.toNat) a.toNat n.toNat (fun i => d.bytes.getD i 0)
        (fun s l => s.home l) e).after).returnSlot p q i r .done n.toNat).reply (s.engineOf a.toNat) c .done
        (s.writeRange (linesOf a.toNat n.toNat) a.toNat n.toNat (fun i => d.bytes.getD i 0) (fun s l => s.home l) e).epoch)).cat.forged = none →
      exec (.writeX c a n w o d e) s = .next (((((s.writeRange (linesOf a.toNat n.toNat) a.toNat n.toNat (fun i => d.bytes.getD i 0)
        (fun s l => s.home l) e).after).returnSlot p q i r .done n.toNat).reply (s.engineOf a.toNat) c .done
        (s.writeRange (linesOf a.toNat n.toNat) a.toNat n.toNat (fun i => d.bytes.getD i 0) (fun s l => s.home l) e).epoch)).tellFaults.undoTriggers) ∧
    (∀ (p q i : Nat) (c : Ctx) (a : DWord) (n w : Word) (o : SlotRead) (d : HostData) (e : MediaEnv) (r : SlotRef) (s : State), s.accepts 0x11 c (writeXParams a n w) = true →
      c.path = .ring p q i →
      s.rangeCheck a.toNat n.toNat xferLimit = none →
      s.slotCheck p q i w o true (fun _ v => ownLen v == n.toNat) = .pass r →
      s.med.readOnly = true →
      (((s.returnSlot p q i r .readOnly n.toNat).reply (s.engineOf a.toNat) c .readOnly 0)).cat.stuck = false →
      (((s.returnSlot p q i r .readOnly n.toNat).reply (s.engineOf a.toNat) c .readOnly 0)).cat.forged = none →
      exec (.writeX c a n w o d e) s = .next (((s.returnSlot p q i r .readOnly n.toNat).reply (s.engineOf a.toNat) c .readOnly 0)).tellFaults.undoTriggers)

/-- COPY, ZERO_RANGE and DISCARD change their range on a writable part; FLUSH_RANGE and INVAL_RANGE act on every near
cache that holds a line. An accepted COPY whose ranges are in bounds and permitted reads its source and writes its
destination; ZERO_RANGE of a range that holds no whole folio or split leaf writes zero bytes; DISCARD unmaps every
folio wholly inside its range; after FLUSH_RANGE no near cache that a line's directory entry names holds it dirty,
after INVAL_RANGE none of them holds it. On a read-only part COPY, ZERO_RANGE and DISCARD answer 07h/01h and change
nothing. Rests on R54, R60, R127, R128, R187, R227, R233; assumptions 11, 18, 25, 26, 29, 99. -/
def Obligations.RangeCommands : Prop :=
    (∀ (c : Ctx) (a b n : DWord) (e : MediaEnv) (s : State), s.accepts 0x12 c (copyParams a b n) = true →
      b.toNat < 2 ^ 49 →
      s.rangeCheck a.toNat n.toNat copyLimit = none →
      s.rangeCheck b.toNat n.toNat copyLimit = none →
      s.med.readOnly = false →
      s.deniedRange (masterOf c) a.toNat n.toNat false = none →
      s.deniedRange (masterOf c) b.toNat n.toNat true = none →
      ((s.copyRange c a.toNat b.toNat n.toNat e)).cat.stuck = false →
      ((s.copyRange c a.toNat b.toNat n.toNat e)).cat.forged = none →
      exec (.copy c a b n e) s = .next ((s.copyRange c a.toNat b.toNat n.toNat e)).tellFaults.undoTriggers) ∧
    (∀ (c : Ctx) (a b n : DWord) (e : MediaEnv) (s : State), s.accepts 0x12 c (copyParams a b n) = true →
      b.toNat < 2 ^ 49 →
      s.rangeCheck a.toNat n.toNat copyLimit = none →
      s.rangeCheck b.toNat n.toNat copyLimit = none →
      s.med.readOnly = true →
      ((s.reply (s.engineOf a.toNat) c .readOnly 0)).cat.stuck = false →
      ((s.reply (s.engineOf a.toNat) c .readOnly 0)).cat.forged = none →
      exec (.copy c a b n e) s = .next ((s.reply (s.engineOf a.toNat) c .readOnly 0)).tellFaults.undoTriggers) ∧
    (∀ (c : Ctx) (a n : DWord) (e : MediaEnv) (s : State), s.accepts 0x13 c (rangeParams a n) = true →
      s.rangeCheck a.toNat n.toNat s.capacity = none →
      s.med.readOnly = false →
      s.deniedRange (masterOf c) a.toNat n.toNat true = none →
      s.zeroEntries a.toNat n.toNat = [] →
      (s.writeRange (linesOf a.toNat n.toNat) a.toNat n.toNat (fun _ => 0) (fun s l => s.home l) e).fail.isNone = true →
      (s.writeRange (linesOf a.toNat n.toNat) a.toNat n.toNat (fun _ => 0) (fun s l => s.home l) e).rebuilt = false →
      (((s.writeRange (linesOf a.toNat n.toNat) a.toNat n.toNat (fun _ => 0) (fun s l => s.home l) e).after.reply
        (s.engineOf a.toNat) c .done (s.writeRange (linesOf a.toNat n.toNat) a.toNat n.toNat (fun _ => 0) (fun s l => s.home l) e).epoch)).cat.stuck = false →
      (((s.writeRange (linesOf a.toNat n.toNat) a.toNat n.toNat (fun _ => 0) (fun s l => s.home l) e).after.reply
        (s.engineOf a.toNat) c .done (s.writeRange (linesOf a.toNat n.toNat) a.toNat n.toNat (fun _ => 0) (fun s l => s.home l) e).epoch)).cat.forged = none →
      exec (.zeroRange c a n e) s = .next (((s.writeRange (linesOf a.toNat n.toNat) a.toNat n.toNat (fun _ => 0) (fun s l => s.home l) e).after.reply
        (s.engineOf a.toNat) c .done (s.writeRange (linesOf a.toNat n.toNat) a.toNat n.toNat (fun _ => 0) (fun s l => s.home l) e).epoch)).tellFaults.undoTriggers) ∧
    (∀ (c : Ctx) (a n : DWord) (e : MediaEnv) (s : State), s.accepts 0x13 c (rangeParams a n) = true →
      s.rangeCheck a.toNat n.toNat s.capacity = none →
      s.med.readOnly = false →
      s.deniedRange (masterOf c) a.toNat n.toNat true = none →
      ((s.zeroRange c a.toNat n.toNat e)).cat.stuck = false →
      ((s.zeroRange c a.toNat n.toNat e)).cat.forged = none →
      exec (.zeroRange c a n e) s = .next ((s.zeroRange c a.toNat n.toNat e)).tellFaults.undoTriggers) ∧
    (∀ (c : Ctx) (a n : DWord) (e : MediaEnv) (s : State), s.accepts 0x13 c (rangeParams a n) = true →
      s.rangeCheck a.toNat n.toNat s.capacity = none →
      s.med.readOnly = true →
      ((s.reply (s.engineOf a.toNat) c .readOnly 0)).cat.stuck = false →
      ((s.reply (s.engineOf a.toNat) c .readOnly 0)).cat.forged = none →
      exec (.zeroRange c a n e) s = .next ((s.reply (s.engineOf a.toNat) c .readOnly 0)).tellFaults.undoTriggers) ∧
    (∀ (c : Ctx) (a n : DWord) (s : State), s.accepts 0x14 c (rangeParams a n) = true →
      s.rangeCheck a.toNat n.toNat s.capacity = none →
      s.med.readOnly = false →
      s.deniedRange (masterOf c) a.toNat n.toNat true = none →
      (s.discardRange c a.toNat n.toNat).cat.stuck = false →
      (s.discardRange c a.toNat n.toNat).cat.forged = none →
      Yields (exec (.discard c a n) s) (fun t => t = (s.discardRange c a.toNat n.toNat).tellFaults.undoTriggers ∧ ∀ f ∈ wholeFolios a.toNat n.toNat, (t.folio f).place = .unmapped)) ∧
    (∀ (c : Ctx) (a n : DWord) (s : State), s.accepts 0x14 c (rangeParams a n) = true →
      s.rangeCheck a.toNat n.toNat s.capacity = none →
      s.med.readOnly = true →
      ((s.reply (s.engineOf a.toNat) c .readOnly 0)).cat.stuck = false →
      ((s.reply (s.engineOf a.toNat) c .readOnly 0)).cat.forged = none →
      exec (.discard c a n) s = .next ((s.reply (s.engineOf a.toNat) c .readOnly 0)).tellFaults.undoTriggers) ∧
    (∀ (c : Ctx) (a n : DWord) (s : State), s.accepts 0x15 c (rangeParams a n) = true →
      s.rangeCheck a.toNat n.toNat s.capacity = none →
      (((linesOf a.toNat n.toNat).foldl (fun s l => s.flushLine l) s)).cat.stuck = false →
      (((linesOf a.toNat n.toNat).foldl (fun s l => s.flushLine l) s)).cat.forged = none →
      Yields (exec (.flushRange c a n) s) (fun t => ∀ l ∈ linesOf a.toNat n.toNat, ∀ k ∈ s.tileList, (s.dir l).sharers.getLsbD k = true → (t.nc k l).st ≠ .m ∧ (t.nc k l).st ≠ .ev)) ∧
    (∀ (c : Ctx) (a n : DWord) (s : State), s.accepts 0x16 c (rangeParams a n) = true →
      s.rangeCheck a.toNat n.toNat s.capacity = none →
      (s.invalRange c a.toNat n.toNat).cat.stuck = false →
      (s.invalRange c a.toNat n.toNat).cat.forged = none →
      Yields (exec (.invalRange c a n) s) (fun t => ∀ l ∈ linesOf a.toNat n.toNat, ∀ k ∈ s.tileList, ((s.dir l).sharers ||| (s.dir l).pins).getLsbD k = true → (t.nc k l).st = .i))

/-- A close trigger seals the open epoch, waits for the next where a seal is in progress, and is held by a rollback. A
write of 1 to the close bit of EPO_CTRL begins the seal of the open epoch where no seal is in progress and no rollback
runs; during a seal it is left for the next epoch; during a rollback it is held, and behind stores of its port that
still wait it is kept for their end. The auto-close timer seals an epoch that carries a write, and one that carries
none only starts its interval again; a timer that has not run out does nothing. Rests on R95, R96, R534. -/
def Obligations.CloseTriggers : Prop :=
    (∀ (p : Nat) (s : State), s.takesWrite p = true →
      s.coreUp = true →
      s.epo.rollback = false →
      s.epo.heldTrig = [] →
      (s.port p).heldDw = [] →
      s.epo.sealing = none →
      s.coordinated = true →
      Yields (exec (.epoCtrlClose p) s) (fun t => t.epo = { s.epo with sealing := some { n := s.epo.openE, arrived := [], reported := [], triggers := [.ctrl] }, later := [], autoStart := s.now })) ∧
    (∀ (p : Nat) (s : State), s.takesWrite p = true →
      s.coreUp = true →
      s.epo.rollback = false →
      s.epo.heldTrig = [] →
      (s.port p).heldDw = [] →
      s.epo.sealing.isSome = true →
      Yields (exec (.epoCtrlClose p) s) (fun t => t.epo = { s.epo with later := s.epo.later ++ [.ctrl] })) ∧
    (∀ (p : Nat) (s : State), s.takesWrite p = true →
      s.coreUp = true →
      s.epo.rollback = false →
      (s.port p).heldDw.all (fun h => h.store.isNone) = false →
      exec (.epoCtrlClose p) s = .next (s.commitStore.setPort p { s.port p with closeHeld := true })) ∧
    (∀ (p : Nat) (s : State), s.takesWrite p = true →
      s.coreUp = true →
      s.epo.rollback = true →
      Yields (exec (.epoCtrlClose p) s) (fun t => t.epo = { s.epo with heldTrig := s.epo.heldTrig ++ [.ctrl] })) ∧
    (∀ (s : State), s.coreUp = true →
      s.autoDue = true →
      s.epo.rollback = false →
      s.epo.sealing = none →
      s.coordinated = true →
      s.epo.written = true →
      Yields (exec .autoCloseExpiry s) (fun t => t.epo.sealing = some { n := s.epo.openE, arrived := [], reported := [], triggers := [.auto] })) ∧
    (∀ (s : State), s.coreUp = true →
      s.autoDue = true →
      s.epo.rollback = false →
      s.epo.sealing = none →
      s.coordinated = true →
      s.epo.written = false →
      Yields (exec .autoCloseExpiry s) (fun t => t.epo = { s.epo with later := [], autoStart := s.now })) ∧
    (∀ (s : State), s.autoDue = false →
      exec .autoCloseExpiry s = .next s)

/-- A seal reaches each tile once, which then stamps the next epoch; the last report seals the epoch and opens the next.
The broadcast of a seal of epoch n reaches a running tile that it had not reached: the tile stamps n + 1 from now on
and its near cache begins a walk that covers n. A tile's report is taken once; when every tile that is not failed has
reported, n is SEALED, n + 1 is open and no seal is in progress. Rests on R96, R97, R220; assumption 42. -/
def Obligations.SealReachesEveryTile : Prop :=
    (∀ (k : Nat) (g : Sealing) (s : State), s.hasTile k = true →
      s.epo.sealing = some g →
      s.coreUp = true →
      s.tileRuns k = true →
      g.arrived.contains k = false →
      Yields (exec (.sealArrive k) s) (fun t => t.stampOf k = g.n + 1 ∧ (t.walk k).map Walk.upto = some g.n ∧
        t.epo.sealing = some { g with arrived := g.arrived ++ [k] })) ∧
    (∀ (k : Nat) (g : Sealing) (s : State), s.hasTile k = true →
      s.epo.sealing = some g →
      g.arrived.contains k = true →
      exec (.sealArrive k) s = .next s) ∧
    (∀ (k : Nat) (g : Sealing) (s : State), s.hasTile k = true →
      s.epo.sealing = some g →
      s.coreUp = true →
      s.coordinated = true →
      g.arrived.contains k = true →
      g.reported.contains k = false →
      s.sealTiles.all (fun j => (g.reported ++ [k]).contains j) = false →
      Yields (exec (.sealReport k) s) (fun t => t.epo = { s.epo with sealing := some { g with reported := g.reported ++ [k] } })) ∧
    (∀ (k : Nat) (g : Sealing) (s : State), s.hasTile k = true →
      s.epo.sealing = some g →
      s.coreUp = true →
      s.coordinated = true →
      g.arrived.contains k = true →
      g.reported.contains k = false →
      s.sealTiles.all (fun j => (g.reported ++ [k]).contains j) = true →
      Yields (exec (.sealReport k) s) (fun t => t.epo.sealed = g.n ∧ t.epo.openE = g.n + 1 ∧ (s.epo.later = [] → t.epo.sealing = none ∧ t.epo.stamp = []))) ∧
    (∀ (k : Nat) (w : Walk) (s : State), s.hasTile k = true →
      s.walk k = some w →
      s.coreUp = true →
      s.tileRuns k = true →
      (s.setLines k w.set) = [] →
      1 < w.left →
      exec (.sealWalkStep k) s = .next (s.setWalk k (some { w with set := (w.set + 1) % ncSets, left := w.left - 1 }))) ∧
    (∀ (k : Nat) (w : Walk) (s : State), s.hasTile k = true →
      s.walk k = some w →
      s.coreUp = true →
      s.tileRuns k = true →
      (s.setLines k w.set) = [] →
      w.left ≤ 1 →
      Yields (exec (.sealWalkStep k) s) (fun t => t.walk k = none ∧ t.walked k = max (s.walked k) w.upto))

/-- A marker records the highest epoch drained and never falls, and D is at most what every tile's marker holds or was so
before. Writing a marker on a running tile raises the tile's marker to the highest epoch drained there where that is
higher, and D afterwards is the larger of the old D and the lowest marker; nothing is written where no higher epoch is
drained. Rests on R98, R100; assumption 70. -/
def Obligations.MarkersRaiseD : Prop :=
    (∀ (k : Nat) (s : State), s.hasTile k = true →
      s.coreUp = true →
      s.tileRuns k = true →
      s.cry.haltCause = 0 →
      tget (fun _ => 0) s.epo.marker k < s.drainedTo k →
      Yields (exec (.markerWrite k) s) (fun t => tget (fun _ => 0) t.epo.marker k = s.drainedTo k ∧ t.epo.durable = max s.epo.durable t.lowMarker)) ∧
    (∀ (k : Nat) (s : State), s.hasTile k = true →
      s.drainedTo k ≤ tget (fun _ => 0) s.epo.marker k →
      exec (.markerWrite k) s = .next s) ∧
    (∀ (k : Nat) (s : State), s.hasTile k = true →
      Yields (exec (.markerWrite k) s) (fun t => s.epo.durable ≤ t.epo.durable ∧ ∀ j ∈ s.tileList, tget (fun _ => 0) s.epo.marker j ≤ tget (fun _ => 0) t.epo.marker j))

/-- An abort names the epochs it discards and starts the rollback; the rollback's end opens an epoch above them;
coordinators hand over. An epoch abort discards the epochs from D + 1 to the highest opened, stops a seal in progress
and starts the rollback; one that meets a rollback merges into it. The end of the rollback opens the epoch above the
highest discarded and leaves D where it was. Tile 1's coordinator takes over while tile 0 does not run, tile 0 takes
the role back at a seal boundary, and tile 1 may distribute part time. Rests on R97, R102, R103, R104; assumptions 22,
41, 71, 72, 93. -/
def Obligations.AbortAndRollback : Prop :=
    (∀ (s : State), s.coreUp = true →
      s.cry.haltCause = 0 →
      s.epo.rollback = false →
      Yields (exec .abortStart s) (fun t => t.epo.rollback = true ∧ t.epo.abortFirst = s.epo.durable + 1 ∧ s.epo.openE ≤ t.epo.abortLast ∧
        t.epo.sealing = none ∧ t.epo.durable = s.epo.durable ∧ t.epo.aborts = min (s.epo.aborts + 1) 65535)) ∧
    (∀ (s : State), s.epo.rollback = true →
      exec .abortStart s = .next s) ∧
    (∀ (s : State), s.epo.rollback = true →
      s.coreUp = true →
      s.cry.haltCause = 0 →
      s.coh.txs = [] →
      s.epo.sealing = none →
      Yields (exec .rollbackEnd s) (fun t => t.epo.rollback = false ∧ t.epo.openE = s.epo.abortLast + 1 ∧ t.epo.durable = s.epo.durable)) ∧
    (∀ (s : State), s.coreUp = true →
      s.epo.coord = 0 →
      s.tileRuns 0 = false →
      s.tileRuns 1 = true →
      s.epo.sealing = none →
      exec .coordinatorTakeover s = .next { s with epo := { s.epo with coord := 1 } }) ∧
    (∀ (s : State), s.coreUp = true →
      s.epo.coord = 1 →
      s.tileRuns 0 = true →
      s.epo.sealing = none →
      exec .coordinatorTakeback s = .next { s with epo := { s.epo with coord := 0 } }) ∧
    (∀ (s : State), exec .partTimeFailover s = .next { s with epo := { s.epo with timeTile := 1 } })

/-- A stripe page takes the lowest staged epoch and the next write sequence; its entries point at it once its program
completes. The stager programs a staged folio that is not to be split into a free stripe page: the page takes the
lowest staged epoch and the tile's next write sequence and is not yet complete. When the program of a page completes,
the entry of each of its folio slots points at it. A cooling sweep halves the heat of the tile's folios. A split folio
that may merge is programmed as one slot of a page with the reloc flag and the highest epoch of its leaves; its entry
stays until that program has completed, and becomes MEDIA with the reloc flag then. Rests on R111, R117, R118, R120,
R121, R122, R124; assumptions 32, 98. -/
def Obligations.StagerProgramsPages : Prop :=
    (∀ (k spn f n e : Nat) (s : State), s.hasTile k = true →
      s.coreRuns k = true →
      s.cat.stuck = false →
      s.cat.forged = none →
      n < 3 →
      s.programEpoch k = e →
      s.urgent k = [] →
      e ≤ s.epo.sealed →
      s.pieceReady k e (.folio f n) = true →
      s.splitDue k f = false →
      s.pageFree k spn = true →
      Yields (exec (.stripeProgram k spn [.folio f n] 8) s) (fun t => (t.page k spn).map Page.epoch = some e ∧
        (t.page k spn).map Page.seq = some (s.nextSeq k) ∧ (t.page k spn).map Page.programmed = some false ∧ t.nextSeq k = s.nextSeq k + 1 ∧
        t.reg .catPads k 0 = (s.count .catPads k 0 31 0 8).reg .catPads k 0)) ∧
    (∀ (k spn pad : Nat) (l : List Piece) (s : State), s.hasTile k = true →
      s.coreRuns k = true →
      l.all (fun p => decide (s.pieceReady k (s.programEpoch k) p = false)) = true →
      (s).cat.stuck = false →
      (s).cat.forged = none →
      exec (.stripeProgram k spn l pad) s = .next (s).tellFaults.undoTriggers) ∧
    (∀ (k spn f n : Nat) (g : Page) (i : PageItem) (s : State), s.hasTile k = true →
      s.coreRuns k = true →
      s.page k spn = some g →
      g.programmed = false →
      g.reloc = false →
      g.merge = false →
      s.opsPending k (fun o => o.prog && o.spn == spn) = false →
      g.items = [i] →
      i.piece = .folio f n →
      (s.programDone k spn).cat.stuck = false →
      s.cat.forged = none →
      Yields (exec (.stripeProgramDone k spn) s) (fun t => (t.page k spn).map Page.programmed = some true ∧ t.folio f = { place := .media spn (4 * n) 0, reloc := false })) ∧
    (∀ (k f : Nat) (s : State), s.hasTile k = true →
      s.coreRuns k = true →
      s.coolDue k = true →
      homeFolio s.tiles f = k →
      Yields (exec (.coolingSweep k) s) (fun t => t.heat f = s.heat f / 2 ∧ tget (fun _ => 0) t.cat.cooledAt k = s.now)) ∧
    (∀ (k f : Nat) (s : State), s.hasTile k = true →
      s.coolDue k = false →
      exec (.coolingSweep k) s = .next s) ∧
    (∀ (k f spn n : Nat) (s : State), s.hasTile k = true →
      s.coreRuns k = true →
      n < 3 →
      s.mergeable k f = true →
      s.pageFree k spn = true →
      s.weedReady k = true →
      Yields (exec (.folioMerge k f spn n) s) (fun t => t.folio f = s.folio f ∧ (t.page k spn).map Page.reloc = some true ∧ (t.page k spn).map Page.epoch = some (s.leafEpoch k f))) ∧
    (∀ (k spn f n : Nat) (g : Page) (i : PageItem) (s : State), s.hasTile k = true →
      s.coreRuns k = true →
      s.page k spn = some g →
      g.programmed = false →
      g.merge = true →
      s.opsPending k (fun o => o.prog && o.spn == spn) = false →
      g.items = [i] →
      i.piece = .folio f n →
      s.byLeaf (512 * f) = true →
      s.cat.bufs = [] →
      s.cat.undo = [] →
      (s.programDone k spn).cat.stuck = false →
      s.cat.forged = none →
      Yields (exec (.stripeProgramDone k spn) s) (fun t => t.folio f = { place := .media spn (4 * n) 0, reloc := true })) ∧
    (∀ (k f spn n : Nat) (s : State), s.hasTile k = true →
      s.coreRuns k = true →
      s.mergeable k f = false →
      exec (.folioMerge k f spn n) s = .next s)

/-- A relocated page keeps its epoch and takes the reloc flag; entries move once its copy is verified; an erased victim
has no page left. The weeder copies the next live page of a victim to its destination with the reloc flag and the
page's epoch, and awaits its verification; a verified copy counts one relocation and leaves the rest of the live pages
to copy, or the erase where none is left; a failed one is given up and its page holds nothing; when the erase of a
victim ends, no page of that block is left and the tile's relocation is over. Rests on R130, R131, R132; assumptions
31, 32. -/
def Obligations.WeederKeepsEpochs : Prop :=
    (∀ (k v d spn src : Nat) (l : List PageItem) (m : List (Nat × List PageItem)) (s : State), s.hasTile k = true →
      s.coreRuns k = true →
      tget (fun _ => none) s.cat.relocs k = none →
      s.victimOk k v = true →
      s.pageFree k spn = true →
      s.weedReady k = true →
      spn / s.ppb k = d →
      d ≠ v →
      s.liveSet k v = (src, l) :: m →
      Yields (exec (.weedRelocate k v d spn) s) (fun t => (t.page k spn).map Page.epoch =
          some (copyEpoch (((s.page k src).map Page.epoch).getD 0) (l.map s.recrypted)) ∧
        (t.page k spn).map Page.reloc = some true ∧ (t.page k spn).map Page.items = some (l.map s.recrypted) ∧
        tget (fun _ => none) t.cat.relocs k = some { victim := v, dest := d, src := src, spn := spn, step := 3, todo := (src, l) :: m })) ∧
    (∀ (k : Nat) (r : Reloc) (g : Page) (s : State), s.hasTile k = true →
      s.coreRuns k = true →
      tget (fun _ => none) s.cat.relocs k = some r →
      r.step = 3 →
      s.opsPending k (fun o => o.prog && o.spn == r.spn) = false →
      s.page k r.spn = some g →
      Yields (exec (.relocVerifyDone k true) s) (fun t => t.reg .catRelocs k 0 = (s.bump .catRelocs k 0).reg .catRelocs k 0 ∧
        tget (fun _ => none) t.cat.relocs k = some { r with step := if r.todo.tail.isEmpty then 6 else 5, todo := r.todo.tail })) ∧
    (∀ (k : Nat) (r : Reloc) (g : Page) (s : State), s.hasTile k = true →
      s.coreRuns k = true →
      tget (fun _ => none) s.cat.relocs k = some r →
      r.step = 3 →
      s.opsPending k (fun o => o.prog && o.spn == r.spn) = false →
      s.page k r.spn = some g →
      g.programmed = false →
      Yields (exec (.relocVerifyDone k false) s) (fun t => t.page k r.spn = none ∧ (tget (fun _ => none) t.cat.relocs k).map Reloc.step = some 5)) ∧
    (∀ (k spn : Nat) (r : Reloc) (s : State), s.hasTile k = true →
      s.coreRuns k = true →
      tget (fun _ => none) s.cat.relocs k = some r →
      r.step = 6 →
      s.opsPending k (fun o => !o.prog && o.spn == r.victim * s.ppb k) = false →
      spn < 2 ^ 28 →
      spn / s.ppb k = r.victim →
      Yields (exec (.relocEraseDone k true) s) (fun t => t.page k spn = none ∧ tget (fun _ => none) t.cat.relocs k = none)) ∧
    (∀ (k : Nat) (s : State), s.hasTile k = true →
      s.coreRuns k = true →
      s.scanWaits k = false →
      Yields (exec (.lostScanDone k) s) (fun t => t.field .catRbld k 0 30 30 = 0 ∧ ∀ r ∈ t.cat.lost, r.1 / 2 ^ 33 ≠ k)) ∧
    (∀ (k : Nat) (s : State), s.hasTile k = true →
      s.pwr.scanning = true →
      Yields (exec (.rebuildScan k) s) (fun t => k ∈ t.pwr.scanned ∧ (∀ u ∈ t.cat.undo, t.entryHome u.leaf u.key ≠ k) ∧ ∀ b ∈ t.cat.bufs, t.entryHome b.leaf b.key ≠ k)) ∧
    (∀ (k : Nat) (s : State), s.hasTile k = true →
      s.pwr.scanning = false →
      exec (.rebuildScan k) s = .next s)

/-- A granted slot carries a waiting rescue window first; a phase starts its group's operations and ends them by their
STATUS. At a free slot of a trained channel a rescue window whose plane is idle goes first where background work has
waited for fewer than two windows: it leaves the queue, its packet is sent and its codeword will be decoded. With
nothing waiting the slot is idle. A new phase that no stretch delays makes the ready operation of the group that part
time gives start. A carried STATUS done ends an operation; one that is still busy stretches the phase. A stretch that
reaches 16 µs resets the target, marks it failed and ends its operation. Rests on R150, R158, R159, R160, R161, R182;
assumptions 37, 98. -/
def Obligations.ChannelSlotsAndPhases : Prop :=
    (∀ (k c : Nat) (w : Window) (s : State), s.hasTile k = true →
      c < 16 →
      s.mediaRuns k = true →
      (s.chan k c).rate ≠ 3 →
      (s.chan k c).sinceBg < 2 →
      ((s.chan k c).queue.filter (fun x => s.planeIdle k c (s.memberOf k c x.spn))).find? (fun x => x.kind == .rescue) = some w →
      Yields (exec (.slotGrant k c) s) (fun t => (t.chan k c).granted = some w ∧ (t.chan k c).queue = (s.chan k c).queue.erase w ∧
        (t.chan k c).ended = (s.chan k c).ended ++ [(w, !((s.chan k c).queue.erase w).isEmpty)] ∧
        t.out = (s.sendBlock k c (s.memberOf k c w.spn) .readCw (w.spn % s.ppb k) w.unit w.offs).out)) ∧
    (∀ (k c : Nat) (s : State), s.hasTile k = true →
      c < 16 →
      s.mediaRuns k = true →
      (s.chan k c).rate = 3 →
      exec (.slotGrant k c) s = .next s) ∧
    (∀ (k c : Nat) (s : State), s.hasTile k = true →
      c < 16 →
      s.mediaRuns k = true →
      (s.chan k c).rate ≠ 3 →
      (s.chan k c).queue = [] →
      (s.chan k c).loads = [] →
      (s.chan k c).back = [] →
      exec (.slotGrant k c) s = .next ((s.setChan k c { s.chan k c with granted := none }).topDown k (8 + c) 2 1)) ∧
    (∀ (k : Nat) (o : StartedOp) (s : State), s.hasTile k = true →
      s.mediaRuns k = true →
      (s.cal k).stretching = none →
      (s.cal k).started = [] →
      (s.cal k).due = [] →
      (s.cal k).ready = [o] →
      o.ch % 8 = s.phaseNow →
      s.levelOf k < 2 →
      (s.cal k).begun ≠ some (s.now / 24000) →
      s.now < s.phaseStart k + 1000 →
      s.unsensed k o = false →
      Yields (exec (.phaseStart k) s) (fun t => (t.cal k).phase = s.phaseNow ∧ (t.cal k).startAt = s.phaseStart k ∧
        (t.cal k).begun = some (s.now / 24000) ∧ (t.cal k).started = [o] ∧ (t.cal k).due = [] ∧ (t.cal k).ready = [])) ∧
    (∀ (k : Nat) (s : State), s.hasTile k = true →
      s.mediaRuns k = true →
      (s.cal k).stretching.isSome = true →
      exec (.phaseStart k) s = .next s) ∧
    (∀ (k : Nat) (o : StartedOp) (s : State), s.hasTile k = true →
      s.mediaRuns k = true →
      (s.cal k).startAt + 21500 ≤ s.now →
      (s.cal k).started = [o] →
      s.carriedBack k o.ch .status (fun x => blockTarget x.block == o.target) = true →
      Yields (exec (.phaseStatusCheck k [⟨o.ch, o.target, o.block, .done⟩]) s) (fun t => (t.cal k).started = [] ∧ (t.cal k).stretching = none)) ∧
    (∀ (k : Nat) (o : StartedOp) (s : State), s.hasTile k = true →
      s.mediaRuns k = true →
      (s.cal k).startAt + 21500 ≤ s.now →
      (s.cal k).started = [o] →
      (s.cal k).stretching = none →
      s.carriedBack k o.ch .status (fun x => blockTarget x.block == o.target) = true →
      Yields (exec (.phaseStatusCheck k [⟨o.ch, o.target, o.block, .busy⟩]) s) (fun t => (t.cal k).started = [o] ∧ (t.cal k).stretching = some s.now ∧ t.field .calStat k 0 30 30 = 1)) ∧
    (∀ (k : Nat) (o : StartedOp) (n : Nat) (s : State), s.hasTile k = true →
      o.ch < 16 →
      o.target < 4 →
      s.mediaRuns k = true →
      (s.cal k).started = [o] →
      (s.cal k).stretching = some n →
      n + 16000 ≤ s.now →
      Yields (exec (.stretchExpiry k o.ch o.target o.block o.prog) s) (fun t => (t.target k o.ch o.target).failed = true ∧ (t.cal k).started = [] ∧ (t.cal k).stretching = none))

/-- A line is read direct, hedged or by rescue as its members and margin say; a good direct codeword ends the read; a lost
stripe is counted. Where the member of a mapped line is available and its drift entry has no margin the read is
direct: one member is asked; where it has one, all available members are asked at once; where the member is not
available and at least twelve others are, it is a rescue and counted busy; with fewer than twelve available the read
ends and the line is unrecoverable. A good direct codeword whose checks pass ends the read; one whose tag does not
match is a security halt. A held rescue command is dropped after 2 µs. Rests on R146, R164, R165, R166, R167, R343,
R396; assumption 40. -/
def Obligations.LineReadMethods : Prop :=
    (∀ (k l spn p q : Nat) (s : State), s.hasTile k = true →
      s.mediaRuns k = true →
      s.mediaPlace l = some (spn, p, q) →
      (s.page k spn).isSome = true →
      s.lineRead l = none →
      s.home l = k →
      12 ≤ (s.available k spn).length →
      (s.available k spn).contains (dataChan spn p) = true →
      s.driftMargin k (dataChan spn p) spn = 0 →
      Yields (exec (.lineReadDispatch k l) s) (fun t => t.lineRead l = some { mode := .direct, member := dataChan spn p, asked := [dataChan spn p], good := [], failed := [] })) ∧
    (∀ (k l spn p q : Nat) (s : State), s.hasTile k = true →
      s.mediaRuns k = true →
      s.mediaPlace l = some (spn, p, q) →
      (s.page k spn).isSome = true →
      s.lineRead l = none →
      s.home l = k →
      12 ≤ (s.available k spn).length →
      (s.available k spn).contains (dataChan spn p) = true →
      s.pwr.straps.profile = false →
      s.driftMargin k (dataChan spn p) spn ≠ 0 →
      Yields (exec (.lineReadDispatch k l) s) (fun t => t.lineRead l = some { mode := .hedged, member := dataChan spn p, asked := s.available k spn, good := [], failed := [] } ∧ t.reg .medHedge k 0 = (s.bump .medHedge k 0).reg .medHedge k 0)) ∧
    (∀ (k l spn p q : Nat) (s : State), s.hasTile k = true →
      s.mediaRuns k = true →
      s.mediaPlace l = some (spn, p, q) →
      (s.page k spn).isSome = true →
      s.lineRead l = none →
      s.home l = k →
      12 ≤ (s.available k spn).length →
      (s.available k spn).contains (dataChan spn p) = false →
      dataChan spn p < 16 →
      Yields (exec (.lineReadDispatch k l) s) (fun t => t.lineRead l = some { mode := .rescue, member := dataChan spn p, asked := s.available k spn, good := [], failed := [] } ∧ t.reg .medBusyrec k 0 = (s.bump .medBusyrec k 0).reg .medBusyrec k 0)) ∧
    (∀ (k l spn p q : Nat) (s : State), s.hasTile k = true →
      s.mediaRuns k = true →
      s.mediaPlace l = some (spn, p, q) →
      (s.page k spn).isSome = true →
      s.lineRead l = none →
      s.home l = k →
      (s.available k spn).length < 12 →
      Yields (exec (.lineReadDispatch k l) s) (fun t => t.lineRead l = none)) ∧
    (∀ (k l : Nat) (s : State), s.hasTile k = true →
      s.mediaPlace l = none →
      exec (.lineReadDispatch k l) s = .next s) ∧
    (∀ (k l c : Nat) (w : Window) (b : Bool) (r : LineRead) (s : State), s.hasTile k = true →
      c < 16 →
      s.mediaRuns k = true →
      (s.chan k c).ended.find? (fun e => e.1.line == l) = some (w, b) →
      s.flt.inj = [] →
      s.lineRead l = some r →
      r.asked = [c] →
      r.member = c →
      r.mode = .direct →
      r.good = [] →
      r.failed = [] →
      Yields (exec (.codewordDecoded k l c .clean true true) s) (fun t => t.lineRead l = none ∧ t.cry = s.cry ∧ (t.chan k c).ended = (s.chan k c).ended.erase (w, b))) ∧
    (∀ (k l c : Nat) (w : Window) (b : Bool) (r : LineRead) (s : State), s.hasTile k = true →
      c < 16 →
      s.mediaRuns k = true →
      (s.chan k c).ended.find? (fun e => e.1.line == l) = some (w, b) →
      s.flt.inj = [] →
      s.lineRead l = some r →
      r.asked = [c] →
      r.member = c →
      r.mode = .direct →
      r.good = [] →
      r.failed = [] →
      Yields (exec (.codewordDecoded k l c .clean true false) s) (fun t => t.cry.haltCause = 1 ∧ t.cry.haltTile = k)) ∧
    (∀ (k c l : Nat) (s : State), s.hasTile k = true →
      c < 16 →
      Yields (exec (.rescueHoldTimeout k c l) s) (fun t => ∀ e ∈ (t.chan k c).heldCmds, e ∈ (s.chan k c).heldCmds ∧ ¬(e.1 = l ∧ e.2 + 2000 ≤ s.now)))

/-- A temperature sets the band with hysteresis; a calibration read takes the class with the fewest corrections; the
scrubber schedules a failing block. A temperature poll takes its status window, stores the reading and the band it
gives, schedules what is critical now, and sets the tile's level; an alert sets or clears the target's alarm. A
calibration read of a block that awaits one takes the class with the fewest corrected bits, from now. A scrub read
that fails, or corrects more bits than the threshold, schedules the stripe block in use for rewrite; one that no
window carried does nothing. Rests on R158, R170, R176, R178, R180, R442; assumptions 15, 98. -/
def Obligations.MediaHealth : Prop :=
    (∀ (k c j : Nat) (e : Int) (s : State), s.hasTile k = true →
      c < 16 →
      j < 4 →
      s.mediaRuns k = true →
      s.carriedBack k c .temp (fun x => blockTarget x.block == j) = true →
      exec (.mediaTempPoll k c j e) s = .next ((((s.takeBack k c .temp (fun x => blockTarget x.block == j)).setTarget k c j { s.target k c j with
        temp := e, band := nextBand (s.target k c j).band (s.field .drfHyst k 0 3 0) e, hot := decide (degC 95 ≤ e) }).scheduleCritical k).relevel k)) ∧
    (∀ (k c j : Nat) (e : Int) (s : State), s.hasTile k = true →
      c < 16 →
      j < 4 →
      s.mediaRuns k = true →
      s.carriedBack k c .temp (fun x => blockTarget x.block == j) = false →
      exec (.mediaTempPoll k c j e) s = .next s) ∧
    (∀ (k c j : Nat) (a : Bool) (s : State), s.hasTile k = true →
      c < 16 →
      j < 4 →
      s.mediaRuns k = true →
      exec (.mediaAlert k c j false a) s = .next ((s.setTarget k c j { s.target k c j with alert := a }).relevel k)) ∧
    (∀ (k c j : Nat) (a : Bool) (s : State), s.hasTile k = true →
      c < 16 →
      j < 4 →
      s.mediaRuns k = true →
      exec (.mediaAlert k c j true a) s = .next ((((s.setChan k c { s.chan k c with caCrc := min 65535 ((s.chan k c).caCrc + 1) }).fault k (srcId 0x01 c) { aux := c }).setTarget k c j { ((s.setChan k c { s.chan k c with caCrc := min 65535 ((s.chan k c).caCrc + 1) }).fault k (srcId 0x01 c) { aux := c }).target k c j with alert := a, crcErrs := min 255 ((((s.setChan k c { s.chan k c with caCrc := min 65535 ((s.chan k c).caCrc + 1) }).fault k (srcId 0x01 c) { aux := c }).target k c j).crcErrs + 1) }).relevel k)) ∧
    (∀ (k c b : Nat) (x y : Nat × Nat) (s : State), s.hasTile k = true →
      c < 16 →
      s.mediaRuns k = true →
      (s.mblock k c b).uncal = true →
      calClasses [x.1, y.1] = true →
      s.calCarried k c b 2 = true →
      x.2 ≤ y.2 →
      Yields (exec (.calibrationRead k c b [x, y]) s) (fun t => t.mblock k c b = { s.mblock k c b with uncal := false, ageCls := x.1, calAt := s.now, senses := some (s.senses k c b + 2) })) ∧
    (∀ (k c b : Nat) (x y : Nat × Nat) (s : State), s.hasTile k = true →
      c < 16 →
      s.mediaRuns k = true →
      (s.mblock k c b).uncal = true →
      calClasses [x.1, y.1] = true →
      s.calCarried k c b 2 = true →
      y.2 < x.2 →
      Yields (exec (.calibrationRead k c b [x, y]) s) (fun t => t.mblock k c b = { s.mblock k c b with uncal := false, ageCls := y.1, calAt := s.now, senses := some (s.senses k c b + 2) })) ∧
    (∀ (k c : Nat) (w : BackWin) (f : Option (Nat × Nat)) (s : State), s.hasTile k = true →
      c < 16 →
      s.mediaRuns k = true →
      s.pwr.straps.profile = false →
      (s.page k w.spn).isSome = true →
      (s.block k (w.spn / s.ppb k)).free = false →
      (s.block k (w.spn / s.ppb k)).member c = w.block →
      (s.chan k c).carried.find? (fun x => x.kind == .scrub && x.block == w.block && x.spn == w.spn) = some w →
      Yields (exec (.mediaScrubRead k c w.block w.spn .bad f) s) (fun t => (t.block k (w.spn / s.ppb k)).scheduled = true)) ∧
    (∀ (k c n : Nat) (w : BackWin) (s : State), s.hasTile k = true →
      c < 16 →
      s.mediaRuns k = true →
      s.pwr.straps.profile = false →
      (s.page k w.spn).isSome = true →
      (s.block k (w.spn / s.ppb k)).free = false →
      (s.block k (w.spn / s.ppb k)).member c = w.block →
      (s.chan k c).carried.find? (fun x => x.kind == .scrub && x.block == w.block && x.spn == w.spn) = some w →
      s.field .medScrub k 0 31 24 < n →
      Yields (exec (.mediaScrubRead k c w.block w.spn (.corrected n) none) s) (fun t => (t.block k (w.spn / s.ppb k)).scheduled = true)) ∧
    (∀ (k c m spn : Nat) (e : Ecc) (f : Option (Nat × Nat)) (s : State), s.hasTile k = true →
      c < 16 →
      (s.chan k c).carried.find? (fun x => x.kind == .scrub && x.block == m && x.spn == spn) = none →
      exec (.mediaScrubRead k c m spn e f) s = .next s)

/-- A burst of an invalid tract reads nothing; a corrected one is counted; an uncorrectable one loses its range; a wrong
MAC halts the part. A DDR5 burst outside the counter store in a tract that is not valid changes nothing, and a clean
one of a valid tract nothing but its event counter. A correction outside a marked device counts in ECC_DDR_CE, an
uncorrectable burst in ECC_DDR_UE with a lost range. A clean block of the counter store whose MAC is wrong begins the
security halt with cause 3. The DDR5 walk treats what it reads in the same way, on a subchannel and a device that are
free values. Rests on R359, R360, R364, R366, R372, R377, R396; assumptions 4, 38. -/
def Obligations.DdrBurstOutcomes : Prop :=
    (∀ (k u b d : Nat) (e : Ecc) (m : Bool) (s : State), s.hasTile k = true →
      u < 4 →
      d < 10 →
      s.ddrRuns k = true →
      s.inStore k b = false →
      s.tractValid k (b / 64) = false →
      exec (.ddrBurstRead k u b d e m) s = .next s) ∧
    (∀ (k u b d : Nat) (m : Bool) (s : State), s.hasTile k = true →
      u < 4 →
      d < 10 →
      s.ddrRuns k = true →
      s.inStore k b = false →
      s.tractValid k (b / 64) = true →
      s.flt.inj = [] →
      exec (.ddrBurstRead k u b d .clean m) s = .next (s.pmcEdge k 0x30 (u / 2))) ∧
    (∀ (k u b d : Nat) (n : Nat) (m : Bool) (s : State), s.hasTile k = true →
      u < 4 →
      d < 10 →
      s.ddrRuns k = true →
      s.inStore k b = false →
      s.tractValid k (b / 64) = true →
      s.flt.inj = [] →
      s.markedDev k u = none →
      Yields (exec (.ddrBurstRead k u b d (.corrected n) m) s) (fun t => t.reg .eccDdrCe k 0 = (s.bump .eccDdrCe k 0).reg .eccDdrCe k 0 ∧ t.cry.lostList = s.cry.lostList)) ∧
    (∀ (k u b d : Nat) (m : Bool) (s : State), s.hasTile k = true →
      u < 4 →
      d < 10 →
      s.ddrRuns k = true →
      s.inStore k b = false →
      s.tractValid k (b / 64) = true →
      Yields (exec (.ddrBurstRead k u b d .bad m) s) (fun t => t.reg .eccDdrUe k 0 = (s.bump .eccDdrUe k 0).reg .eccDdrUe k 0 ∧ t.reg .eccLost k 0 = (s.bump .eccLost k 0).reg .eccLost k 0)) ∧
    (∀ (k u b d : Nat) (s : State), s.hasTile k = true →
      u < 4 →
      d < 10 →
      s.ddrRuns k = true →
      s.inStore k b = true →
      s.flt.inj = [] →
      Yields (exec (.ddrBurstRead k u b d .clean false) s) (fun t => t.cry.haltCause = 3 ∧ t.cry.haltTile = k)) ∧
    (∀ (k b : Nat) (e : Ecc) (s : State), s.hasTile k = true →
      s.ddrRuns k = true →
      s.inDdr k b = false →
      exec (.ddrScrubStep k b e) s = .next s) ∧
    (∀ (k b : Nat) (e : Ecc) (s : State), s.hasTile k = true →
      s.ddrRuns k = true →
      s.inDdr k b = true →
      exec (.ddrScrubStep k b e) s = .next ((s.drawn 2).burst k ((Config.free s.freeCtr).toNat % 4) b ((Config.free (s.freeCtr + 1)).toNat % 10) e true)) ∧
    (∀ (k b : Nat) (s : State), s.hasTile k = true →
      s.ddrRuns k = true →
      s.inDdr k b = true →
      s.flt.inj = [] →
      exec (.ddrScrubStep k b .clean) s = .next (s.drawn 2)) ∧
    (∀ (k a w : Nat) (d : Bool) (s : State), s.cat.stuck = false →
      s.cat.forged = none →
      s.hasTile k = true →
      a < 13 →
      w < 16 →
      s.ddrRuns k = true →
      s.flt.inj = [] →
      exec (.sramScrubStep k a w d .clean) s = .next s.undoTriggers) ∧
    (∀ (k a w n : Nat) (d : Bool) (s : State), s.hasTile k = true →
      a < 13 →
      w < 16 →
      s.ddrRuns k = true →
      s.flt.inj = [] →
      (s.sramStep k a w d (.corrected n)).cat.stuck = false →
      (s.sramStep k a w d (.corrected n)).cat.forged = none →
      Yields (exec (.sramScrubStep k a w d (.corrected n)) s) (fun t => t.reg .eccSramCe k 0 = (s.bump .eccSramCe k 0).reg .eccSramCe k 0)) ∧
    (∀ (k a w : Nat) (d : Bool) (s : State), s.hasTile k = true →
      a < 13 →
      w < 16 →
      s.ddrRuns k = true →
      (s.sramStep k a w d .bad).cat.stuck = false →
      (s.sramStep k a w d .bad).cat.forged = none →
      Yields (exec (.sramScrubStep k a w d .bad) s) (fun t => t.reg .eccSramUe k 0 = (s.bump .eccSramUe k 0).reg .eccSramUe k 0))

/-- A first write makes its tract valid; a minor overflow takes a major above every one issued; an evicted node's counter
rises; a rekey keeps the old keys. The first write of an invalid tract inside the DDR5 beyond the counter store makes
that tract and no other valid. A minor overflow gives the leaf one above the highest major the tile has issued and
restarts its minors. A node that leaves the counter cache is clean with its counter one higher, and its parent is
dirty where it is not the root. A rekey keeps the keys in use as old keys until it ends, and one that meets a rekey
changes nothing. Rests on R364, R370, R371, R374, R376; assumptions 9, 10, 20, 55. -/
def Obligations.CountersNeverRepeat : Prop :=
    (∀ (k n : Nat) (s : State), s.hasTile k = true →
      s.ddrRuns k = true →
      s.tractValid k n = false →
      (s.ddrMap k).leafPool ≤ n * 4096 →
      n * 4096 + 4096 ≤ (s.ddrMap k).top →
      Yields (exec (.tractFirstWrite k n) s) (fun t => t.tractValid k n = true ∧ s.topMajor k ≤ t.topMajor k)) ∧
    (∀ (k n m : Nat) (s : State), s.hasTile k = true →
      s.ddrRuns k = true →
      n < 2 ^ 24 →
      m < 2 ^ 24 →
      m ≠ n →
      Yields (exec (.tractFirstWrite k n) s) (fun t => t.tractValid k m = s.tractValid k m)) ∧
    (∀ (k n : Nat) (s : State), s.hasTile k = true →
      s.ddrRuns k = true →
      s.tractValid k n = true →
      exec (.tractFirstWrite k n) s = .next s) ∧
    (∀ (k i : Nat) (s : State), s.hasTile k = true →
      s.ddrRuns k = true →
      i < s.leafCount k →
      Yields (exec (.minorOverflow k i) s) (fun t => t.topMajor k = s.topMajor k + 1 ∧ tget (fun _ => ({} : Leaf)) t.cry.leaves (leafKey k i) = { major := s.topMajor k + 1, minors := [] })) ∧
    (∀ (k b l j : Nat) (s : State), s.hasTile k = true →
      s.ddrRuns k = true →
      nodeOf (s.leafCount k) 0 9 b = some (l, j) →
      j < 2 ^ 32 →
      Yields (exec (.counterEvict k b) s) (fun t =>
        (tget (fun _ => ({} : CNode)) t.cry.nodes (nodeKey k l j)).ctr = ((tget (fun _ => ({} : CNode)) s.cry.nodes (nodeKey k l j)).ctr + 1) % 2 ^ 56 ∧
        (tget (fun _ => ({} : CNode)) t.cry.nodes (nodeKey k l j)).dirty = false ∧
        (l ≠ topLevel (s.leafCount k) 9 → (tget (fun _ => ({} : CNode)) t.cry.nodes (nodeKey k (l + 1) (j / 8))).dirty = true))) ∧
    (∀ (p k : Nat) (s : State), s.takesWrite p = true →
      s.hasTile k = true →
      s.ddrRuns k = true →
      tget (fun _ => false) s.cry.rekeying k = false →
      Yields (exec (.ddrRekey p k) s) (fun t => tget (fun _ => false) t.cry.rekeying k = true ∧ tget (fun _ => none) t.cry.oldKey k =
        some (tget (fun _ => (0 : BitVec 256)) s.cry.ddrKey k, tget (fun _ => (0 : BitVec 256)) s.cry.treeKey k))) ∧
    (∀ (p k : Nat) (s : State), s.takesWrite p = true →
      s.hasTile k = true →
      tget (fun _ => false) s.cry.rekeying k = true →
      exec (.ddrRekey p k) s = .next s.commitStore) ∧
    (∀ (k : Nat) (s : State), s.hasTile k = true →
      s.ddrRuns k = true →
      tget (fun _ => false) s.cry.rekeying k = true →
      Yields (exec (.ddrRekeyDone k) s) (fun t => tget (fun _ => false) t.cry.rekeying k = false ∧ tget (fun _ => none) t.cry.oldKey k = none))

/-- KEY_CREATE binds or rotates, KEY_RETIRE erases the keys, RIGHTS_SET answers the old rights, and a rotation ends when
no old page is left. An accepted KEY_CREATE with an aligned range in bounds rotates a KID or binds the range to it,
with a new key where the KID had none, while the part is writable and nothing about the range is in flight. KEY_RETIRE
in OPEN without a token leaves a LIVE KID RETIRED with no key. RIGHTS_SET stores the rights of a master and answers
the old ones; reserved bits and masters above 7 are refused. A rotation ends once no page is left under the previous
version. Rests on R383, R385, R386, R388, R389, R394; assumptions 44, 45, 46. -/
def Obligations.KeyCommands : Prop :=
    (∀ (c : Ctx) (k : Byte) (a n : DWord) (s : State), s.accepts 0x50 c (keyCreateParams k a n) = true →
      a.toNat % 65536 = 0 →
      n.toNat % 65536 = 0 →
      s.rangeCheck a.toNat n.toNat (2 ^ 40) = none →
      s.keyAction k.toNat (a.toNat / 65536) (n.toNat / 65536) = .rotate →
      s.med.readOnly = false →
      s.epo.rollback = false →
      exec (.keyCreate c k a n) s = .next ((s.rotateKey k.toNat).reply srcCurator c .done 0) ∧ ((s.rotateKey k.toNat).kid k.toNat).version = (s.kid k.toNat).version + 1 ∧ ((s.rotateKey k.toNat).kid k.toNat).prevKey = some (s.curKeyOf k.toNat)) ∧
    (∀ (c : Ctx) (k : Byte) (a n : DWord) (f : Bool) (l : List (Nat × Nat)) (s : State), s.accepts 0x50 c (keyCreateParams k a n) = true →
      a.toNat % 65536 = 0 →
      n.toNat % 65536 = 0 →
      s.rangeCheck a.toNat n.toNat (2 ^ 40) = none →
      s.keyAction k.toNat (a.toNat / 65536) (n.toNat / 65536) = .bind f l →
      s.med.readOnly = false →
      s.epo.rollback = false →
      s.foliosBusy (inRanges l) = false →
      exec (.keyCreate c k a n) s = .next ((s.bindRanges k.toNat f l).reply srcCurator c .done 0)) ∧
    (∀ (c : Ctx) (k : Byte) (a n : DWord) (s : State), s.accepts 0x50 c (keyCreateParams k a n) = true →
      s.rangeCheck a.toNat n.toNat (2 ^ 40) = none →
      ¬(a.toNat % 65536 = 0 ∧ n.toNat % 65536 = 0) →
      exec (.keyCreate c k a n) s = .next (s.reply srcCurator c .param 0)) ∧
    (∀ (p q i : Nat) (c : Ctx) (k : Byte) (o : Token) (s : State), s.accepts 0x51 c (keyRetireParams k 0) = true →
      c.path = .ring p q i →
      s.epo.rollback = false →
      s.foliosBusy (fun f => s.ofKid k.toNat f) = false →
      s.cur.lifecycle = .opened →
      k ≠ 0 →
      (s.kid k.toNat).st = .live →
      Yields (exec (.keyRetire c k 0 o) s) (fun t => (t.kid k.toNat).st = .retired ∧ (t.kid k.toNat).curKey = none ∧ (t.kid k.toNat).prevKey = none)) ∧
    (∀ (p q i : Nat) (c : Ctx) (k : Byte) (o : Token) (s : State), s.accepts 0x51 c (keyRetireParams k 0) = true →
      c.path = .ring p q i →
      s.epo.rollback = false →
      s.foliosBusy (fun f => s.ofKid k.toNat f) = false →
      s.cur.lifecycle = .sealed →
      exec (.keyRetire c k 0 o) s = .next (s.reply srcCurator c .lifecycle 0)) ∧
    (∀ (c : Ctx) (k m r : Byte) (s : State), s.accepts 0x52 c (rightsSetParams k m r) = true →
      r.toNat < 4 →
      m.toNat < 8 →
      s.cur.lifecycle = .opened →
      Yields (exec (.rightsSet c k m r) s) (fun t => t = (s.setRights m.toNat k.toNat (r.setWidth 2)).reply srcCurator c .done (s.rights m.toNat k.toNat).toNat ∧ t.rights m.toNat k.toNat = r.setWidth 2)) ∧
    (∀ (p q i : Nat) (c : Ctx) (k m r : Byte) (s : State), c.path = .ring p q i →
      s.runs 0x52 c (rightsSetParams k m r) = true →
      4 ≤ r.toNat →
      exec (.rightsSet c k m r) s = .next (s.reply srcCurator c .reserved 0)) ∧
    (∀ (k : Nat) (s : State), k < 256 →
      s.cry.haltCause = 0 →
      (s.kid k).st = .rotating →
      s.tileList.all (fun t => s.kidOld t k == 0) = true →
      exec (.keyRotationDone k) s = .next (s.setKid k { s.kid k with st := .live, prevKey := none })) ∧
    (∀ (k : Nat) (s : State), k < 256 →
      (s.kid k).st ≠ .rotating →
      exec (.keyRotationDone k) s = .next s)

/-- ROUTE_DEFINE of a table that passes its checks defines the route, ROUTE_ARM arms a DEFINED route, and ROUTE_RETIRE
acts by the route's state. An accepted ROUTE_DEFINE whose slot and table pass every check leaves the route DEFINED
with that table, latency, port and landing depth; a table that fails leaves the routes as they were. ROUTE_ARM of a
DEFINED route on an enabled port makes it ARMED, or ACTIVE and current at its first line with start 1; a vector out of
range is refused. ROUTE_RETIRE empties a DEFINED route, takes an ARMED one back to DEFINED with the retired event, and
by mode sets an ACTIVE route RETIRING or DEFINED. A RETIRING route that sends nothing becomes DEFINED. Rests on R281,
R283, R285, R297, R303; assumptions 11, 67. -/
def Obligations.RouteTablesAndArming : Prop :=
    (∀ (q0 q i : Nat) (x : SlotRef) (c : Ctx) (k : Byte) (r : BitVec 16) (w n : Word) (lat : BitVec 16) (p : Byte) (o : SlotRead) (h : HostData) (s : State), s.accepts 0x20 c (routeDefineParams k r w n lat p) = true →
      s.hasSport k.toNat p.toNat = true →
      r.toNat < 1024 →
      280 ≤ lat.toNat →
      lat.toNat ≤ 1700 →
      n.toNat ≠ 0 →
      n.toNat ≤ 65536 →
      (s.route k.toNat r.toNat).armed = false →
      c.path = .ring q0 q i →
      s.slotCheck q0 q i w o true (fun _ v => ownLen v == 16 * n.toNat) = .pass x →
      h.ok = true →
      s.tableCheck k.toNat (segsOf n.toNat h.bytes) = none →
      Yields (exec (.routeDefine c k r w n lat p o h) s) (fun t => (t.route k.toNat r.toNat).st = .defined ∧ (t.route k.toNat r.toNat).defn = some
        { port := p.toNat, lat := lat.toNat, depth := if (landSegs (segsOf n.toNat h.bytes)).isEmpty then 0
          else landDepth lat.toNat (s.width k.toNat p.toNat), segs := segsOf n.toNat h.bytes, epoch := s.stampOf k.toNat })) ∧
    (∀ (q0 q i : Nat) (x : SlotRef) (c : Ctx) (k : Byte) (r : BitVec 16) (w n : Word) (lat : BitVec 16) (p : Byte) (o : SlotRead) (h : HostData) (s : State), s.accepts 0x20 c (routeDefineParams k r w n lat p) = true →
      s.hasSport k.toNat p.toNat = true →
      r.toNat < 1024 →
      280 ≤ lat.toNat →
      lat.toNat ≤ 1700 →
      n.toNat ≠ 0 →
      n.toNat ≤ 65536 →
      (s.route k.toNat r.toNat).armed = false →
      c.path = .ring q0 q i →
      s.slotCheck q0 q i w o true (fun _ v => ownLen v == 16 * n.toNat) = .pass x →
      h.ok = true →
      (s.tableCheck k.toNat (segsOf n.toNat h.bytes)).isSome = true →
      Yields (exec (.routeDefine c k r w n lat p o h) s) (fun t => t.rte = s.rte)) ∧
    (∀ (c : Ctx) (k : Byte) (r v : BitVec 16) (d : RouteDef) (s : State), s.accepts 0x21 c (routeArmParams k r v 0) = true →
      s.hasTile k.toNat = true →
      r.toNat < 1024 →
      (s.route k.toNat r.toNat).st = .defined →
      (s.route k.toNat r.toNat).defn = some d →
      s.hasSport k.toNat d.port = true →
      (s.routesOn k.toNat d.port).any (fun e => e.2.armed && e.2.defn.map (fun x => x.lat) != some d.lat) = false →
      s.field .slkPortCfg k.toNat d.port 31 31 ≠ 0 →
      vectorOk v.toNat = true →
      exec (.routeArm c k r v 0) s = .next ((s.setRoute k.toNat r.toNat { s.route k.toNat r.toNat with st := .armed, vector := v.toNat, vport := portOf c }).reply (srcStream k.toNat) c .done 0)) ∧
    (∀ (c : Ctx) (k : Byte) (r v : BitVec 16) (d : RouteDef) (s : State), s.accepts 0x21 c (routeArmParams k r v 1) = true →
      s.hasTile k.toNat = true →
      r.toNat < 1024 →
      (s.route k.toNat r.toNat).st = .defined →
      (s.route k.toNat r.toNat).defn = some d →
      s.hasSport k.toNat d.port = true →
      (s.routesOn k.toNat d.port).any (fun e => e.2.armed && e.2.defn.map (fun x => x.lat) != some d.lat) = false →
      s.field .slkPortCfg k.toNat d.port 31 31 ≠ 0 →
      vectorOk v.toNat = true →
      (s.engine k.toNat d.port).current = none →
      Yields (exec (.routeArm c k r v 1) s) (fun t => (t.route k.toNat r.toNat).st = .active ∧ (t.engine k.toNat d.port).current = some r.toNat
        ∧ (t.engine k.toNat d.port).pos = some { seg := 0, off := 0, stack := [] } ∧ (t.engine k.toNat d.port).pathStart = true)) ∧
    (∀ (c : Ctx) (k : Byte) (r v : BitVec 16) (s : State), s.accepts 0x21 c (routeArmParams k r v 0) = true →
      s.hasTile k.toNat = true →
      r.toNat < 1024 →
      (s.route k.toNat r.toNat).defn = none →
      exec (.routeArm c k r v 0) s = .next (s.reply (srcStream k.toNat) c .unknown 0)) ∧
    (∀ (c : Ctx) (k : Byte) (r : BitVec 16) (m : Byte) (d : RouteDef) (s : State), s.accepts 0x22 c (routeRetireParams k r m) = true →
      s.hasTile k.toNat = true →
      r.toNat < 1024 →
      m.toNat < 2 →
      (s.route k.toNat r.toNat).defn = some d →
      (s.route k.toNat r.toNat).st = .defined →
      Yields (exec (.routeRetire c k r m) s) (fun t => (t.route k.toNat r.toNat).st = .empty ∧ (t.route k.toNat r.toNat).defn = none ∧ ∀ e ∈ t.landings k.toNat, e.2.route ≠ r.toNat)) ∧
    (∀ (c : Ctx) (k : Byte) (r : BitVec 16) (m : Byte) (d : RouteDef) (s : State), s.accepts 0x22 c (routeRetireParams k r m) = true →
      s.hasTile k.toNat = true →
      r.toNat < 1024 →
      m.toNat < 2 →
      (s.route k.toNat r.toNat).defn = some d →
      (s.route k.toNat r.toNat).st = .armed →
      Yields (exec (.routeRetire c k r m) s) (fun t => (t.route k.toNat r.toNat).st = .defined ∧ t.field .rteRouteEvt k.toNat r.toNat 5 5 = 1 ∧ ∀ x ∈ (t.engine k.toNat d.port).switches, x.route ≠ r.toNat)) ∧
    (∀ (c : Ctx) (k : Byte) (r : BitVec 16) (m : Byte) (d : RouteDef) (s : State), s.accepts 0x22 c (routeRetireParams k r m) = true →
      s.hasTile k.toNat = true →
      r.toNat < 1024 →
      m.toNat < 2 →
      (s.route k.toNat r.toNat).defn = some d →
      (s.route k.toNat r.toNat).st = .active →
      Yields (exec (.routeRetire c k r m) s) (fun t => (t.route k.toNat r.toNat).st = (if m = 0 then .retiring else .defined) ∧ ∀ x ∈ (t.engine k.toNat d.port).switches, x.route ≠ r.toNat)) ∧
    (∀ (k r : Nat) (d : RouteDef) (s : State), s.hasTile k = true →
      r < 1024 →
      (s.route k r).defn = some d →
      (s.route k r).st = .retiring →
      (s.engine k d.port).pos = none →
      Yields (exec (.retireComplete k r) s) (fun t => (t.route k r).st = .defined ∧ t.field .rteRouteEvt k r 5 5 = 1)) ∧
    (∀ (k r : Nat) (s : State), s.hasTile k = true →
      r < 1024 →
      (s.route k r).st ≠ .retiring →
      exec (.retireComplete k r) s = .next s)

/-- A due line departs as a DATA flit with its credit and number, the walk goes on or ends; switches take effect oldest
first; reads run ahead along the walk. On an ACTIVE port, the line at the walk's position, when it is in the buffer
and a DATA credit is held, departs as a DATA flit: one credit and one number go, and the walk moves on, or ends the
route after END. Without the line the port underruns; without a credit it stalls; with no route it sends IDLE. The
oldest switch frees its REQ credit and starts the new path, or ends the route for STOP. Reads move the read position
on, a line that arrives enters the buffer or, while that is full, waits in the near cache, and a landing entry is
ready exactly when its run is. Rests on R266, R286, R287, R288, R292, R295, R299, R300, R302; assumptions 66, 68, 69,
98. -/
def Obligations.PortEnginesWalkTheirRoutes : Prop :=
    (∀ (k p n r l : Nat) (q : Pos) (d : RouteDef) (y : Pos) (x : Content) (rest : List (Nat × Content)) (s : State), s.hasSport k p = true →
      s.coreUp = true →
      s.tileRuns k = true →
      (s.sport k p).st = .active →
      (s.engine k p).current = some r →
      (s.engine k p).pos = some q →
      (s.route k r).defn = some d →
      d.line q = some l →
      (s.engine k p).target = none →
      (s.engine k p).switches = [] →
      d.next q = some y →
      (s.route k r).st = .active →
      (s.sport k p).dataCr ≠ 0 →
      (s.engine k p).buffer = (l, x) :: rest →
      Yields (exec (.dataFlitSend k p n) s) (fun t => (t.engine k p).pos = some y ∧ (t.engine k p).sentPos = some q ∧ (t.engine k p).buffer = rest
        ∧ (t.sport k p).dataCr = (s.sport k p).dataCr - 1 ∧ (t.sport k p).txSeq = (s.sport k p).txSeq + 1
        ∧ t.out = s.out ++ [.flit k p (some n) ((s.sport k p).hdr .data x.poison (r % 256) (r / 256) (s.engine k p).pathStart.toNat)
          ((s.sport k p).sealed (if x.poison then 0 else x.data))])) ∧
    (∀ (k p n r l : Nat) (q : Pos) (d : RouteDef) (x : Content) (rest : List (Nat × Content)) (s : State), s.hasSport k p = true →
      s.coreUp = true →
      s.tileRuns k = true →
      (s.sport k p).st = .active →
      (s.engine k p).current = some r →
      (s.engine k p).pos = some q →
      (s.route k r).defn = some d →
      d.line q = some l →
      (s.engine k p).target = none →
      (s.engine k p).switches = [] →
      d.next q = none →
      (s.route k r).st = .active →
      (s.sport k p).dataCr ≠ 0 →
      (s.engine k p).buffer = (l, x) :: rest →
      Yields (exec (.dataFlitSend k p n) s) (fun t => (t.engine k p).pos = none ∧ (t.route k r).st = .ended ∧ t.field .rteRouteEvt k r 0 0 = 1)) ∧
    (∀ (k p n r l : Nat) (q : Pos) (d : RouteDef) (s : State), s.hasSport k p = true →
      s.coreUp = true →
      s.tileRuns k = true →
      (s.sport k p).st = .active →
      (s.engine k p).current = some r →
      (s.engine k p).pos = some q →
      (s.route k r).defn = some d →
      d.line q = some l →
      (s.engine k p).target = none →
      (s.engine k p).switches = [] →
      (s.sport k p).dataCr ≠ 0 →
      (s.engine k p).buffer = [] →
      (s.engine k p).underrun = false →
      (s.engine k p).pathStart = false →
      (s.engine k p).onTime = false →
      Yields (exec (.dataFlitSend k p n) s) (fun t => (t.engine k p).pos = some q ∧ (t.engine k p).underrun = true ∧ t.reg .rteUnderrun k p = (s.bump .rteUnderrun k p).reg .rteUnderrun k p)) ∧
    (∀ (k p n r l : Nat) (q : Pos) (d : RouteDef) (s : State), s.hasSport k p = true →
      s.coreUp = true →
      s.tileRuns k = true →
      (s.sport k p).st = .active →
      (s.engine k p).current = some r →
      (s.engine k p).pos = some q →
      (s.route k r).defn = some d →
      d.line q = some l →
      (s.engine k p).target = none →
      (s.engine k p).switches = [] →
      (s.sport k p).dataCr = 0 →
      (s.engine k p).creditWait = false →
      Yields (exec (.dataFlitSend k p n) s) (fun t => (t.engine k p).pos = some q ∧ (t.engine k p).creditWait = true ∧ t.reg .slkCreditStall k p = (s.bump .slkCreditStall k p).reg .slkCreditStall k p)) ∧
    (∀ (k p n : Nat) (s : State), s.hasSport k p = true →
      s.coreUp = true →
      s.tileRuns k = true →
      (s.sport k p).st = .active →
      (s.engine k p).current = none →
      exec (.dataFlitSend k p n) s = .next (s.idleFlit k p 2)) ∧
    (∀ (k p : Nat) (x : Switch) (xs : List Switch) (q : Pos) (s : State), s.hasSport k p = true →
      s.coreUp = true →
      s.tileRuns k = true →
      (s.sport k p).st = .active →
      (s.engine k p).switches = x :: xs →
      x.start = some q →
      (s.sport k p).reqOut + (s.sport k p).owed 2 < 16 →
      Yields (exec (.switchTakeEffect k p) s) (fun t => (t.engine k p).current = some x.route ∧ (t.engine k p).pos = some q ∧ (t.engine k p).pathStart = true
        ∧ (t.engine k p).target = some x.cycle ∧ (t.engine k p).switches = xs ∧ (t.route k x.route).st = .active ∧ (t.sport k p).freed = (s.sport k p).freed ++ [2])) ∧
    (∀ (k p r : Nat) (x : Switch) (xs : List Switch) (s : State), s.hasSport k p = true →
      s.coreUp = true →
      s.tileRuns k = true →
      (s.sport k p).st = .active →
      (s.engine k p).switches = x :: xs →
      x.start = none →
      (s.engine k p).current = some r →
      (s.route k r).st = .active →
      Yields (exec (.switchTakeEffect k p) s) (fun t => (t.engine k p).pos = none ∧ (t.engine k p).switches = xs ∧ (t.route k r).st = .ended ∧ t.field .rteRouteEvt k r 0 0 = 1)) ∧
    (∀ (k p : Nat) (s : State), s.hasSport k p = true →
      s.coreUp = true →
      s.tileRuns k = true →
      (s.engine k p).switches = [] →
      exec (.switchTakeEffect k p) s = .next s) ∧
    (∀ (k p r l : Nat) (q : Pos) (d : RouteDef) (e : MediaEnv) (s : State), s.hasSport k p = true →
      s.coreUp = true →
      s.tileRuns k = true →
      s.mayRead k p = true →
      (s.engine k p).switches = [] →
      (s.engine k p).current = some r →
      (s.engine k p).fetchPos = some q →
      (s.route k r).defn = some d →
      d.line q = some l →
      s.epo.rollback = false →
      (s.engine k p).ahead < s.field .rtePortCfg k p 12 0 →
      (s.prefetch k p e).cat.stuck = false →
      (s.prefetch k p e).cat.forged = none →
      Yields (exec (.prefetchRead k p e) s) (fun t => (t.engine k p).fetchPos = d.next q ∧ (t.engine k p).ahead = (s.engine k p).ahead + 1
        ∧ (t.engine k p).buffer.length + (t.engine k p).flight.length = (s.engine k p).buffer.length + (s.engine k p).flight.length + 1)) ∧
    (∀ (k p : Nat) (e : MediaEnv) (s : State), s.hasSport k p = true →
      s.coreUp = true →
      s.tileRuns k = true →
      s.cat.stuck = false →
      s.cat.forged = none →
      s.mayRead k p = false →
      exec (.prefetchRead k p e) s = .next s.tellFaults.undoTriggers) ∧
    (∀ (k p l : Nat) (c : Content) (f : Ahead) (s : State), s.hasSport k p = true →
      s.coreUp = true →
      s.tileRuns k = true →
      s.flt.inj = [] →
      (s.engine k p).flight.find? (fun f => f.line == l) = some f →
      (s.engine k p).parked = [] →
      (s.engine k p).buffer.length < bufferLimit →
      exec (.lineArrive k p l c) s = .next (s.setEngine k p { s.engine k p with flight := (s.engine k p).flight.erase f, buffer := (s.engine k p).buffer ++ [(f.line, s.readContent k f.line f.content)] })) ∧
    (∀ (k p l : Nat) (c : Content) (f : Ahead) (s : State), s.hasSport k p = true →
      s.coreUp = true →
      s.tileRuns k = true →
      s.flt.inj = [] →
      (s.engine k p).flight.find? (fun f => f.line == l) = some f →
      bufferLimit ≤ (s.engine k p).buffer.length →
      exec (.lineArrive k p l c) s = .next (s.setEngine k p { s.engine k p with flight := (s.engine k p).flight.erase f, parked := (s.engine k p).parked ++ [(f.line, f.content)] })) ∧
    (∀ (k p l : Nat) (c : Content) (s : State), s.hasSport k p = true →
      s.coreUp = true →
      s.tileRuns k = true →
      (s.engine k p).flight.find? (fun f => f.line == l) = none →
      exec (.lineArrive k p l c) s = .next s) ∧
    (∀ (k i : Nat) (x : Landing) (d : RouteDef) (s : State), s.hasTile k = true →
      i < 4096 →
      s.coreUp = true →
      s.tileRuns k = true →
      tget (fun _ => (none : Option Landing)) s.rte.landing (landKey k i) = some x →
      (s.route k x.route).defn = some d →
      Yields (exec (.landingReeval k i) s) (fun t => tget (fun _ => (none : Option Landing)) t.rte.landing (landKey k i) = some { x with ready := s.runReady k (d.landingRun x.seg) }))

/-- A region opens empty, CLOSE rewinds the record in progress, words join their record, a commit moves the fill, a home
publishes its stall. An accepted CAPTURE_OPEN that passes its checks opens the region at fill 0 with the operands
given; one that fails changes no region. CAPTURE_CLOSE rewinds the record in progress and the region is CLOSING; a
mode or region out of range is refused. CAPTURE_DRAIN answers 128 times the fill once the words held are worked off.
The first word of a record begins it at the engine; a word that fails parity rewinds every record of its port. A
complete record with nothing in its way is committed. A home publishes its stall condition to every tile. Rests on
R309, R310, R311, R312, R318, R320, R321, R325; assumptions 36, 67, 69, 70, 99. -/
def Obligations.CaptureRegionsAndRecords : Prop :=
    (∀ (c : Ctx) (k p r f : Byte) (v : BitVec 16) (a n : DWord) (s : State), s.accepts 0x28 c (captureOpenParams k p r f v a n) = true →
      f.toNat < 4 →
      a.toNat < 2 ^ 49 →
      s.openCheck k.toNat p.toNat r.toNat v.toNat a.toNat n.toNat = none →
      Yields (exec (.captureOpen c k p r f v a n) s) (fun t => t.region k.toNat p.toNat r.toNat =
        { st := .opened, drop := f.getLsbD 0 || s.host.features.policy == 1, raw := f.getLsbD 1, base := a.toNat / 65536, units := n.toNat / 65536,
          vector := v.toNat, vport := portOf c, session := s.now, openE := s.stampOf k.toNat })) ∧
    (∀ (c : Ctx) (k p r f : Byte) (v : BitVec 16) (a n : DWord) (s : State), s.accepts 0x28 c (captureOpenParams k p r f v a n) = true →
      (s.openCheck k.toNat p.toNat r.toNat v.toNat a.toNat n.toNat).isSome = true →
      Yields (exec (.captureOpen c k p r f v a n) s) (fun t => t.cap = s.cap)) ∧
    (∀ (c : Ctx) (k p r m : Byte) (s : State), s.accepts 0x29 c (captureCloseParams k p r m) = true →
      s.hasSport k.toNat p.toNat = true →
      r.toNat < 64 →
      m.toNat < 2 →
      (s.region k.toNat p.toNat r.toNat).st = .opened →
      Yields (exec (.captureClose c k p r m) s) (fun t => (t.region k.toNat p.toNat r.toNat).st = .closing ∧ (t.region k.toNat p.toNat r.toNat).enc = none)) ∧
    (∀ (c : Ctx) (k p r m : Byte) (s : State), s.accepts 0x29 c (captureCloseParams k p r m) = true →
      s.hasSport k.toNat p.toNat = true →
      r.toNat < 64 →
      2 ≤ m.toNat →
      exec (.captureClose c k p r m) s = .next ((s.misuse c 0x29).reply srcInterp c .param 0)) ∧
    (∀ (c : Ctx) (k p r : Byte) (s : State), s.accepts 0x2A c (captureDrainParams k p r) = true →
      s.hasSport k.toNat p.toNat = true →
      r.toNat < 64 →
      (s.region k.toNat p.toNat r.toNat).st ≠ .closed →
      ((s.drain k.toNat p.toNat (s.ingest k.toNat p.toNat).all.length).reply (srcStream k.toNat) c .done
        (128 * ((s.drain k.toNat p.toNat (s.ingest k.toNat p.toNat).all.length).region k.toNat p.toNat r.toNat).fill)).cat.stuck = false →
      ((s.drain k.toNat p.toNat (s.ingest k.toNat p.toNat).all.length).reply (srcStream k.toNat) c .done
        (128 * ((s.drain k.toNat p.toNat (s.ingest k.toNat p.toNat).all.length).region k.toNat p.toNat r.toNat).fill)).cat.forged = none →
      exec (.captureDrain c k p r) s = .next ((s.drain k.toNat p.toNat (s.ingest k.toNat p.toNat).all.length).reply (srcStream k.toNat) c .done
        (128 * ((s.drain k.toNat p.toNat (s.ingest k.toNat p.toNat).all.length).region k.toNat p.toNat r.toNat).fill)).tellFaults.undoTriggers) ∧
    (∀ (c : Ctx) (k p r : Byte) (s : State), s.accepts 0x2A c (captureDrainParams k p r) = true →
      s.hasSport k.toNat p.toNat = true →
      r.toNat < 64 →
      (s.region k.toNat p.toNat r.toNat).st = .closed →
      (s.reply (srcStream k.toNat) c .unknown 0).cat.stuck = false →
      (s.reply (srcStream k.toNat) c .unknown 0).cat.forged = none →
      exec (.captureDrain c k p r) s = .next (s.reply (srcStream k.toNat) c .unknown 0).tellFaults.undoTriggers) ∧
    (∀ (k p : Nat) (w : FWord) (i : Ingest) (s : State), s.hasSport k p = true →
      s.coreUp = true →
      s.tileRuns k = true →
      s.pwr.pwr = .p0 →
      s.flt.inj = [] →
      (s.ingest k p).pop = some (w, i) →
      w.first = true →
      w.last = false →
      (s.region k p w.region).st ≠ .closed →
      (s.region k p w.region).eng = none →
      (s.region k p w.region).full = false →
      (s.ingestWord k p 0).cat.stuck = false →
      (s.ingestWord k p 0).cat.forged = none →
      Yields (exec (.ingestRead k p 0) s) (fun t => (t.region k p w.region).eng = some (ERec.take w { num := w.num }))) ∧
    (∀ (k p : Nat) (w : FWord) (i : Ingest) (s : State), s.hasSport k p = true →
      s.coreUp = true →
      s.tileRuns k = true →
      s.pwr.pwr = .p0 →
      s.flt.inj = [] →
      (s.ingest k p).pop = some (w, i) →
      (s.region k p w.region).st = .closed →
      (s.region k p w.region).eng = none →
      (s.ingestWord k p 0).cat.stuck = false →
      (s.ingestWord k p 0).cat.forged = none →
      Yields (exec (.ingestRead k p 0) s) (fun t => (t.region k p w.region).eng = none)) ∧
    (∀ (k p : Nat) (u : BitVec 82) (w : FWord) (i : Ingest) (s : State), s.hasSport k p = true →
      s.coreUp = true →
      s.tileRuns k = true →
      parityOk u = false →
      s.pwr.pwr = .p0 →
      s.flt.inj = [] →
      (s.ingest k p).pop = some (w, i) →
      (s.ingestWord k p u).cat.stuck = false →
      (s.ingestWord k p u).cat.forged = none →
      Yields (exec (.ingestRead k p u) s) (fun t => ∀ r ∈ List.range 64, (t.region k p r).enc = none)) ∧
    (∀ (k p r : Nat) (e : ERec) (s : State), s.hasSport k p = true →
      s.coreUp = true →
      s.tileRuns k = true →
      r < 64 →
      s.pwr.pwr = .p0 →
      (s.region k p r).eng = some e →
      e.closed = true →
      e.dropped = false →
      s.tagsDone k p r e.num = true →
      s.hindrance k p r 0 = .clear →
      (s.commit k p r).cat.stuck = false →
      (s.commit k p r).cat.forged = none →
      Yields (exec (.recordCommit k p r) s) (fun t => (t.region k p r).fill = (s.region k p r).fill + 1 + e.written ∧ (t.region k p r).recs = (s.region k p r).recs + 1 ∧ (t.region k p r).eng = none)) ∧
    (∀ (k p r : Nat) (e : ERec) (s : State), s.hasSport k p = true →
      s.coreUp = true →
      s.tileRuns k = true →
      s.cat.stuck = false →
      s.cat.forged = none →
      r < 64 →
      (s.region k p r).eng = some e →
      e.closed = false →
      exec (.recordCommit k p r) s = .next s.tellFaults.undoTriggers) ∧
    (∀ (h : Nat) (s : State), s.hasTile h = true →
      s.coreUp = true →
      h < 8 →
      Yields (exec (.homeStatePublish h) s) (fun t => t.cap.stalled.getLsbD h = s.stalledAt h ∧ ∀ k ∈ s.tileList, (tget (fun _ => (0 : BitVec 8)) t.cap.seen k).getLsbD h = s.stalledAt h))

/-- The home answers a request for an idle line: data and ownership, a grant to the sole sharer or a claimer, or a snoop
of the owner; a busy line refuses. A READ_S or READ_X of an idle line that no tile holds is answered with DATA in E
from the home; an UPGRADE of the only sharer and a CLAIM with a GRANT; each leaves the requester the owner and the
line busy. A request of a tile that has none outstanding takes a miss entry first. A READ_S of a line that another
tile owns sends it SNP_S and waits for its answer. A request for a busy line is refused, by NACK, or by TICKET in
place of its fourth refusal. Of two requests that arrive together the rotation chooses one, which the register shows,
and the other is refused. Rests on R195, R198, R205, R206, R207, R209, R213, R235; assumptions 14, 57, 58, 98. -/
def Obligations.HomeServesRequests : Prop :=
    (∀ (r l n : Nat) (e : MediaEnv) (v : Stored) (b : Bool) (x : Option MediaHit) (s : State), s.cat.stuck = false →
      s.cat.forged = none →
      s.hasTile r = true →
      s.coreUp = true →
      s.tileRuns r = true →
      s.tileRuns (s.home l) = true →
      s.epo.rollback = false →
      (s.missOf r l).isSome = true →
      s.wbFrom r l = none →
      s.net.any (fun m => m.kind == .req .readS && m.src == r && m.line == l) = true →
      s.lineBusy l = false →
      s.coh.tickets = [] →
      s.dir l = {} →
      (s.dirFree l).isSome = true →
      s.homeFill l e = .ok v n b x →
      Yields (exec (.reqReadS r l e []) s) (fun t => t.net = ((s.receive { kind := .req .readS, src := r, dst := s.home l, line := l }).send { kind := .data .e, src := s.home l, dst := r, line := l, content := some (s.contentOf l v n) }).net ∧ (t.dir l).busy = true ∧ (t.dir l).st = .ex ∧ (t.dir l).sharers = tileBit r)) ∧
    (∀ (r l n : Nat) (e : MediaEnv) (v : Stored) (b : Bool) (x : Option MediaHit) (s : State), s.cat.stuck = false →
      s.cat.forged = none →
      s.hasTile r = true →
      s.coreUp = true →
      s.tileRuns r = true →
      s.tileRuns (s.home l) = true →
      s.epo.rollback = false →
      s.missOf r l = none →
      s.coh.waits = [] →
      s.missFull r false = false →
      (s.nc r l).st ≠ .ev →
      (s.nc r l).st ≠ .refill →
      s.wbFrom r l = none →
      s.net.any (fun m => m.kind == .req .readS && m.src == r && m.line == l) = false →
      s.lineBusy l = false →
      s.coh.tickets = [] →
      s.dir l = {} →
      (s.dirFree l).isSome = true →
      s.homeFill l e = .ok v n b x →
      Yields (exec (.reqReadS r l e []) s) (fun t => (t.missOf r l).map Miss.kind = some .readS ∧ t.net = (({ t with net := s.net } : State).send { kind := .data .e, src := s.home l, dst := r, line := l, content := some (s.contentOf l v n) }).net ∧ (t.dir l).busy = true ∧ (t.dir l).st = .ex ∧ (t.dir l).sharers = tileBit r)) ∧
    (∀ (r l n : Nat) (e : MediaEnv) (v : Stored) (b : Bool) (x : Option MediaHit) (s : State), s.cat.stuck = false →
      s.cat.forged = none →
      s.hasTile r = true →
      s.coreUp = true →
      s.tileRuns r = true →
      s.tileRuns (s.home l) = true →
      s.epo.rollback = false →
      (s.missOf r l).isSome = true →
      s.wbFrom r l = none →
      s.net.any (fun m => m.kind == .req .readX && m.src == r && m.line == l) = true →
      s.lineBusy l = false →
      s.coh.tickets = [] →
      s.dir l = {} →
      (s.dirFree l).isSome = true →
      s.homeFill l e = .ok v n b x →
      Yields (exec (.reqReadX r l e []) s) (fun t => t.net = ((s.receive { kind := .req .readX, src := r, dst := s.home l, line := l }).send { kind := .data .e, src := s.home l, dst := r, line := l, content := some (s.contentOf l v n) }).net ∧ (t.dir l).busy = true ∧ (t.dir l).st = .ex ∧ (t.dir l).sharers = tileBit r)) ∧
    (∀ (r l : Nat) (e : MediaEnv) (s : State), s.cat.stuck = false →
      s.cat.forged = none →
      s.hasTile r = true →
      s.coreUp = true →
      s.tileRuns r = true →
      s.tileRuns (s.home l) = true →
      s.epo.rollback = false →
      (s.missOf r l).isSome = true →
      s.wbFrom r l = none →
      s.net.any (fun m => m.kind == .req .upgrade && m.src == r && m.line == l) = true →
      s.lineBusy l = false →
      s.coh.tickets = [] →
      (s.dir l).st = .sh →
      (s.dir l).sharers = tileBit r →
      Yields (exec (.upgrade r l e []) s) (fun t => t.net = ((s.receive { kind := .req .upgrade, src := r, dst := s.home l, line := l }).send { kind := .grant, src := s.home l, dst := r, line := l }).net ∧ (t.dir l).busy = true ∧ (t.dir l).st = .ex ∧ (t.dir l).sharers = tileBit r)) ∧
    (∀ (r l n : Nat) (s : State), s.cat.stuck = false →
      s.cat.forged = none →
      s.hasTile r = true →
      s.coreUp = true →
      s.tileRuns r = true →
      s.tileRuns (s.home l) = true →
      s.epo.rollback = false →
      (s.missOf r l).isSome = true →
      s.wbFrom r l = none →
      s.net.any (fun m => m.kind == .req .claim && m.src == r && m.line == l) = true →
      s.lineBusy l = false →
      s.coh.tickets = [] →
      s.dir l = {} →
      (s.dirFree l).isSome = true →
      Yields (exec (.claim r l n []) s) (fun t => t.net = ((s.receive { kind := .req .claim, src := r, dst := s.home l, line := l }).send { kind := .grant, src := s.home l, dst := r, line := l }).net ∧ (t.dir l).busy = true ∧ (t.dir l).st = .ex ∧ (t.dir l).sharers = tileBit r)) ∧
    (∀ (r o l : Nat) (e : MediaEnv) (s : State), s.cat.stuck = false →
      s.cat.forged = none →
      s.hasTile r = true →
      s.coreUp = true →
      s.tileRuns r = true →
      s.tileRuns (s.home l) = true →
      s.epo.rollback = false →
      (s.missOf r l).isSome = true →
      s.wbFrom r l = none →
      s.net.any (fun m => m.kind == .req .readS && m.src == r && m.line == l) = true →
      s.lineBusy l = false →
      s.coh.tickets = [] →
      (s.dir l).st = .ex →
      (s.dir l).sharers = tileBit o →
      o < 8 →
      o ≠ r →
      Yields (exec (.reqReadS r l e []) s) (fun t => t.net = (({ t with net := (s.receive { kind := .req .readS, src := r, dst := s.home l, line := l }).net } : State).send { kind := .snpS, src := s.home l, dst := o, line := l }).net ∧ (t.tx l).map Tx.await = some [o] ∧ (t.dir l).busy = true)) ∧
    (∀ (r l : Nat) (e : MediaEnv) (s : State), s.cat.stuck = false →
      s.cat.forged = none →
      s.hasTile r = true →
      s.coreUp = true →
      s.tileRuns r = true →
      s.tileRuns (s.home l) = true →
      s.epo.rollback = false →
      (s.missOf r l).isSome = true →
      s.wbFrom r l = none →
      s.net.any (fun m => m.kind == .req .readX && m.src == r && m.line == l) = true →
      s.lineBusy l = true →
      (s.missOf r l).map Miss.refusals = some 0 →
      Yields (exec (.reqReadX r l e []) s) (fun t => t.net = ((s.receive { kind := .req .readX, src := r, dst := s.home l, line := l }).send { kind := .nack, src := s.home l, dst := r, line := l }).net ∧ t.coh.tickets = s.coh.tickets)) ∧
    (∀ (r l : Nat) (e : MediaEnv) (s : State), s.cat.stuck = false →
      s.cat.forged = none →
      s.hasTile r = true →
      s.coreUp = true →
      s.tileRuns r = true →
      s.tileRuns (s.home l) = true →
      s.epo.rollback = false →
      (s.missOf r l).isSome = true →
      s.wbFrom r l = none →
      s.net.any (fun m => m.kind == .req .readX && m.src == r && m.line == l) = true →
      s.lineBusy l = true →
      (s.missOf r l).map Miss.refusals = some 3 →
      Yields (exec (.reqReadX r l e []) s) (fun t => t.coh.tickets = s.coh.tickets ++ [{ line := l, tile := r, kind := .readX, epoch := 0, env := e }] ∧ (t.dir l).ticketed = true)) ∧
    (∀ (r p w l : Nat) (k : Tkt) (e : MediaEnv) (s : State), s.cat.stuck = false →
      s.cat.forged = none →
      s.hasTile r = true →
      s.coreUp = true →
      s.tileRuns r = true →
      s.tileRuns (s.home l) = true →
      s.epo.rollback = false →
      (s.missOf r l).isSome = true →
      s.wbFrom r l = none →
      s.net.any (fun m => m.kind == .req .readX && m.src == r && m.line == l) = true →
      p ≠ r →
      s.wbFrom p l = none →
      s.lineBusy l = true →
      (s.missOf p l).map Miss.refusals = some 0 →
      (s.missOf r l).map Miss.refusals = some 0 →
      s.reqFrom p l e = some k →
      rotated s.tiles (s.field .dirRot (s.home l) 0 2 0) [r, p] = some w →
      Yields (exec (.reqReadX r l e [p]) s) (fun t => t.field .dirRot (s.home l) 0 2 0 = w % 8 ∧ t.net.any (fun m => m.kind == .nack && m.dst == p && m.line == l) = true))

/-- A holder answers a snoop by the state its near cache has the line in. SNP_S finds a line absent (ACK_NP), shared
(ACK_S, kept), in E (ACK_S with the line, kept in S), dirty (ACK_D with the line, given up) or in EV (GONE). SNP_I
gives up a line in S or E with ACK_I and a dirty one with ACK_D and the line. SNP_F leaves a line in S or E where it
is with ACK_I, and writes a dirty one back, kept in E. Rests on R198, R201; assumption 14. -/
def Obligations.SnoopsByState : Prop :=
    (∀ (d l : Nat) (s : State), s.hasTile d = true →
      s.cohRuns d l = true →
      (s.nc d l).st = .i →
      Yields (exec (.snpS d l) s) (fun t => t.net = ((s.receive { kind := .snpS, src := s.home l, dst := d, line := l }).send { kind := .ackNp, src := d, dst := s.home l, line := l }).net ∧ t.coh = s.coh)) ∧
    (∀ (d l : Nat) (s : State), s.hasTile d = true →
      s.cohRuns d l = true →
      (s.nc d l).st = .s →
      Yields (exec (.snpS d l) s) (fun t => t.net = ((s.receive { kind := .snpS, src := s.home l, dst := d, line := l }).send { kind := .ackS, src := d, dst := s.home l, line := l }).net ∧ t.coh = s.coh)) ∧
    (∀ (d l : Nat) (s : State), s.hasTile d = true →
      s.cohRuns d l = true →
      (s.nc d l).st = .e →
      Yields (exec (.snpS d l) s) (fun t => t.net = ((s.receive { kind := .snpS, src := s.home l, dst := d, line := l }).send { kind := .ackS, src := d, dst := s.home l, line := l, content := some (s.nc d l).content }).net ∧ t.nc d l = { s.nc d l with st := .s })) ∧
    (∀ (d l : Nat) (s : State), s.hasTile d = true →
      s.cohRuns d l = true →
      (s.nc d l).st = .m →
      Yields (exec (.snpS d l) s) (fun t => t.net = ((s.receive { kind := .snpS, src := s.home l, dst := d, line := l }).send { kind := .ackD, src := d, dst := s.home l, line := l, content := some (s.nc d l).content }).net ∧ (t.nc d l).readable = false)) ∧
    (∀ (d l : Nat) (s : State), s.hasTile d = true →
      s.cohRuns d l = true →
      (s.nc d l).st = .ev →
      Yields (exec (.snpS d l) s) (fun t => t.net = ((s.receive { kind := .snpS, src := s.home l, dst := d, line := l }).send { kind := .gone, src := d, dst := s.home l, line := l }).net ∧ t.coh = s.coh)) ∧
    (∀ (d l : Nat) (s : State), s.hasTile d = true →
      s.cohRuns d l = true →
      (s.nc d l).st = .i →
      Yields (exec (.snpI d l) s) (fun t => t.net = ((s.receive { kind := .snpI, src := s.home l, dst := d, line := l }).send { kind := .ackNp, src := d, dst := s.home l, line := l }).net ∧ t.coh = s.coh)) ∧
    (∀ (d l : Nat) (s : State), s.hasTile d = true →
      s.cohRuns d l = true →
      (s.nc d l).st = .s →
      Yields (exec (.snpI d l) s) (fun t => t.net = ((s.receive { kind := .snpI, src := s.home l, dst := d, line := l }).send { kind := .ackI, src := d, dst := s.home l, line := l }).net ∧ (t.nc d l).readable = false)) ∧
    (∀ (d l : Nat) (s : State), s.hasTile d = true →
      s.cohRuns d l = true →
      (s.nc d l).st = .e →
      Yields (exec (.snpI d l) s) (fun t => t.net = ((s.receive { kind := .snpI, src := s.home l, dst := d, line := l }).send { kind := .ackI, src := d, dst := s.home l, line := l }).net ∧ (t.nc d l).readable = false)) ∧
    (∀ (d l : Nat) (s : State), s.hasTile d = true →
      s.cohRuns d l = true →
      (s.nc d l).st = .m →
      Yields (exec (.snpI d l) s) (fun t => t.net = ((s.receive { kind := .snpI, src := s.home l, dst := d, line := l }).send { kind := .ackD, src := d, dst := s.home l, line := l, content := some (s.nc d l).content }).net ∧ (t.nc d l).readable = false)) ∧
    (∀ (d l : Nat) (s : State), s.hasTile d = true →
      s.cohRuns d l = true →
      (s.nc d l).st = .ev →
      Yields (exec (.snpI d l) s) (fun t => t.net = ((s.receive { kind := .snpI, src := s.home l, dst := d, line := l }).send { kind := .gone, src := d, dst := s.home l, line := l }).net ∧ t.coh = s.coh)) ∧
    (∀ (d l : Nat) (s : State), s.hasTile d = true →
      s.cohRuns d l = true →
      (s.nc d l).st = .i →
      Yields (exec (.snpF d l) s) (fun t => t.net = ((s.receive { kind := .snpF, src := s.home l, dst := d, line := l }).send { kind := .ackNp, src := d, dst := s.home l, line := l }).net ∧ t.coh = s.coh)) ∧
    (∀ (d l : Nat) (s : State), s.hasTile d = true →
      s.cohRuns d l = true →
      (s.nc d l).st = .e →
      Yields (exec (.snpF d l) s) (fun t => t.net = ((s.receive { kind := .snpF, src := s.home l, dst := d, line := l }).send { kind := .ackI, src := d, dst := s.home l, line := l }).net ∧ t.coh = s.coh)) ∧
    (∀ (d l : Nat) (s : State), s.hasTile d = true →
      s.cohRuns d l = true →
      (s.nc d l).st = .ev →
      Yields (exec (.snpF d l) s) (fun t => t.net = ((s.receive { kind := .snpF, src := s.home l, dst := d, line := l }).send { kind := .gone, src := d, dst := s.home l, line := l }).net ∧ t.coh = s.coh)) ∧
    (∀ (d l : Nat) (s : State), s.hasTile d = true →
      s.cohRuns d l = true →
      (s.nc d l).st = .m →
      Yields (exec (.snpF d l) s) (fun t => t.nc d l = { s.nc d l with st := .e, wb := true } ∧ t.net = (((s.receive { kind := .snpF, src := s.home l, dst := d, line := l }).send { kind := .writeback, src := d, dst := s.home l, line := l, content := some (s.nc d l).content }).send { kind := .ackI, src := d, dst := s.home l, line := l }).net))

/-- A grant is installed and answered with DONE; a refusal is counted at its miss entry, resent after its wait, or waits
with its ticket. DATA with a place for it installs the line with its bytes, epoch and KID in the state granted, frees
the miss entry and sends DONE; GRANT installs it and the write that asked for it makes it M, with the open epoch of
the tile, the KID of its folio and bytes that the row leaves free (assumption 98), and DONE is sent. NACK counts a
refusal and notes when it came; after 16 core cycles the request is sent again. TICKET marks the miss as ticketed.
Rests on R199, R201, R208, R209; assumptions 14, 59, 98. -/
def Obligations.RequesterTakesItsAnswer : Prop :=
    (∀ (d l : Nat) (g : Grant) (c : Content) (s : State), s.cat.stuck = false →
      s.cat.forged = none →
      s.hasTile d = true →
      s.cohRuns d l = true →
      (s.fillPlace d l).1 = true →
      (s.nc d l).wb = false →
      Yields (exec (.data d l g c) s) (fun t => (t.nc d l).st = grantState g ∧ (t.nc d l).data = c.data ∧ (t.nc d l).epoch = c.epoch ∧ (t.nc d l).kid = c.kid ∧ (t.nc d l).poison = c.poison ∧ t.missOf d l = none ∧ t.net = ((s.receive { kind := .data g, src := s.home l, dst := d, line := l, content := some c }).send { kind := .done, src := d, dst := s.home l, line := l }).net)) ∧
    (∀ (d l : Nat) (s : State), s.cat.stuck = false →
      s.cat.forged = none →
      s.hasTile d = true →
      s.cohRuns d l = true →
      (s.fillPlace d l).1 = true →
      (s.nc d l).wb = false →
      Yields (exec (.grant d l) s) (fun t => (t.nc d l).st = .m ∧ (t.nc d l).epoch = s.stampOf d ∧ (t.nc d l).kid = s.kidOf (folioOf l) ∧ t.missOf d l = none ∧ t.net = ((s.receive { kind := .grant, src := s.home l, dst := d, line := l }).send { kind := .done, src := d, dst := s.home l, line := l }).net)) ∧
    (∀ (d l : Nat) (m : Miss) (s : State), s.hasTile d = true →
      s.cohRuns d l = true →
      s.missOf d l = some m →
      Yields (exec (.nack d l) s) (fun t => t.missOf d l = some { m with refusals := m.refusals + 1, nackAt := some s.now })) ∧
    (∀ (d l w : Nat) (m : Miss) (s : State), s.hasTile d = true →
      s.cohRuns d l = true →
      s.missOf d l = some m →
      m.nackAt = some w →
      w + 10 ≤ s.now →
      Yields (exec (.nackResend d l) s) (fun t => t.missOf d l = some { m with nackAt := none } ∧ t.net = (s.send { kind := .req m.kind, src := d, dst := s.home l, line := l }).net)) ∧
    (∀ (d l w : Nat) (m : Miss) (s : State), s.hasTile d = true →
      s.missOf d l = some m →
      m.nackAt = some w →
      s.now < w + 10 →
      exec (.nackResend d l) s = .next s) ∧
    (∀ (d l n : Nat) (m : Miss) (s : State), s.hasTile d = true →
      s.cohRuns d l = true →
      s.missOf d l = some m →
      Yields (exec (.ticket d l n) s) (fun t => t.missOf d l = some { m with ticketed := true }))

/-- A write-back is staged at its home and acknowledged; a dirty victim waits in EV for its acknowledgement; a refill
fetches a pinned line again. EVICT and WRITEBACK of a tile that the directory names are staged under their epoch and
acknowledged, and EVICT clears the sender's bit. A clean victim leaves silently, a dirty one goes to EV in an eviction
buffer while one is free, and EVICT_ACK frees its way. WB_ACK clears the mark of the write-back. A slot in REFILL
issues READ_S from a reserved miss entry and is counted, while no rollback runs. Rests on R195, R201, R212, R219,
R226; assumptions 14, 58, 60, 99. -/
def Obligations.WriteBacksAndVictims : Prop :=
    (∀ (r l : Nat) (c : Content) (s : State), s.hasTile r = true →
      s.cohRuns (s.home l) l = true →
      s.stageBlocked l c.epoch = false →
      (s.dir l).sharers.getLsbD r = true →
      s.tx l = none →
      (s.dir l).busy = false →
      (s.evictArrives r l c).cat.stuck = false →
      (s.evictArrives r l c).cat.forged = none →
      Yields (exec (.evict r l c) s) (fun t => t.cat.bufs = (s.stage l { data := c.data, poison := c.poison } c.epoch).cat.bufs ∧ (t.dir l).sharers = (s.dir l).sharers &&& ~~~tileBit r ∧ t.net = ((s.receive { kind := .evict, src := r, dst := s.home l, line := l, content := some c }).send { kind := .evictAck, src := s.home l, dst := r, line := l }).net)) ∧
    (∀ (r l : Nat) (c : Content) (s : State), s.hasTile r = true →
      s.cohRuns (s.home l) l = true →
      s.stageBlocked l c.epoch = false →
      (s.dir l).sharers.getLsbD r = true →
      (s.writebackArrives r l c).cat.stuck = false →
      (s.writebackArrives r l c).cat.forged = none →
      Yields (exec (.writeback r l c) s) (fun t => t.cat.bufs = (s.stage l { data := c.data, poison := c.poison } c.epoch).cat.bufs ∧ t.coh = s.coh ∧ t.net = ((s.receive { kind := .writeback, src := r, dst := s.home l, line := l, content := some c }).send { kind := .wbAck, src := s.home l, dst := r, line := l }).net)) ∧
    (∀ (r l : Nat) (c : Content) (s : State), s.cat.stuck = false →
      s.cat.forged = none →
      s.hasTile r = true →
      s.stageBlocked l c.epoch = true →
      exec (.evict r l c) s = .next s.undoTriggers ∧ exec (.writeback r l c) s = .next s.undoTriggers) ∧
    (∀ (d l : Nat) (s : State), s.cat.stuck = false →
      s.cat.forged = none →
      s.hasTile d = true →
      s.cohRuns d l = true →
      (s.nc d l).st = .ev →
      Yields (exec (.evictAck d l) s) (fun t => t.nc d l = {} ∧ ∀ b ∈ t.coh.evbufs, ¬(b.tile = d ∧ b.line = l))) ∧
    (∀ (d l : Nat) (s : State), s.hasTile d = true →
      s.cohRuns d l = true →
      (s.nc d l).wb = true →
      Yields (exec (.wbAck d l) s) (fun t => t.nc d l = { s.nc d l with wb := false })) ∧
    (∀ (d l : Nat) (s : State), s.hasTile d = true →
      s.cohRuns d l = true →
      (s.nc d l).pin = false →
      (s.nc d l).up = false →
      (s.nc d l).wb = false →
      (s.nc d l).st = .e →
      exec (.victimEvict d l) s = .next (s.setNc d l {})) ∧
    (∀ (d l : Nat) (s : State), s.hasTile d = true →
      s.cohRuns d l = true →
      (s.nc d l).pin = false →
      (s.nc d l).up = false →
      (s.nc d l).wb = false →
      (s.nc d l).st = .m →
      s.evictBufs d < 32 →
      Yields (exec (.victimEvict d l) s) (fun t => t.nc d l = { s.nc d l with st := .ev } ∧ t.evictBufs d = s.evictBufs d + 1)) ∧
    (∀ (d l : Nat) (s : State), s.hasTile d = true →
      s.cohRuns d l = true →
      (s.nc d l).pin = true →
      exec (.victimEvict d l) s = .next s) ∧
    (∀ (d l : Nat) (s : State), s.hasTile d = true →
      s.coreUp = true →
      s.tileRuns d = true →
      (s.nc d l).st = .refill →
      s.missOf d l = none →
      s.epo.rollback = false →
      Yields (exec (.pinnedRefill d l) s) (fun t => (t.missOf d l).map Miss.kind = some .readS ∧ (t.missOf d l).map Miss.reserved = some true ∧ t.reg .ncRefills d 0 = (s.bump .ncRefills d 0).reg .ncRefills d 0))

/-- Each snoop answer is taken once; the last one grants the line, and DONE ends the transaction. An answer of a tile the
home awaits is no longer awaited; ACK_NP, ACK_I and ACK_D clear its sharer bit, ACK_S keeps it and marks the copy
kept, ACK_D and ACK_S carry the line. The last ACK_D of a READ_X sends the dirty line to the requester in M. GONE of a
tile still named is remembered and counted. DONE of the requester ends the transaction and the line is not busy; an
answer nobody awaits changes nothing. Rests on R205, R206, R213; assumptions 14, 58. -/
def Obligations.HomeCollectsAnswers : Prop :=
    (∀ (r l : Nat) (x : Tx) (s : State), s.cat.stuck = false →
      s.cat.forged = none →
      s.hasTile r = true →
      s.cohRuns (s.home l) l = true →
      s.tx l = some x →
      x.await.contains r = true →
      (x.await.filter (· != r)).isEmpty = false →
      Yields (exec (.ackNp r l) s) (fun t => t.tx l = some { x with await := x.await.filter (· != r) } ∧ (t.dir l).sharers = (s.dir l).sharers &&& ~~~tileBit r ∧ t.reg .dirNotpresent (s.home l) 0 = (s.bump .dirNotpresent (s.home l) 0).reg .dirNotpresent (s.home l) 0)) ∧
    (∀ (r l : Nat) (x : Tx) (s : State), s.cat.stuck = false →
      s.cat.forged = none →
      s.hasTile r = true →
      s.cohRuns (s.home l) l = true →
      s.tx l = some x →
      x.await.contains r = true →
      (x.await.filter (· != r)).isEmpty = false →
      Yields (exec (.ackI r l .i none) s) (fun t => t.tx l = some { x with await := x.await.filter (· != r) } ∧ (t.dir l).sharers = (s.dir l).sharers &&& ~~~tileBit r)) ∧
    (∀ (r l : Nat) (x : Tx) (c : Option Content) (s : State), s.cat.stuck = false →
      s.cat.forged = none →
      s.hasTile r = true →
      s.cohRuns (s.home l) l = true →
      s.tx l = some x →
      x.await.contains r = true →
      (x.await.filter (· != r)).isEmpty = false →
      Yields (exec (.ackI r l .s c) s) (fun t => t.tx l = some { x with await := x.await.filter (· != r), line := c, dirty := false, kept := true } ∧ t.dir l = s.dir l)) ∧
    (∀ (r l : Nat) (x : Tx) (c : Content) (s : State), s.cat.stuck = false →
      s.cat.forged = none →
      s.hasTile r = true →
      s.cohRuns (s.home l) l = true →
      s.tx l = some x →
      x.await.contains r = true →
      (x.await.filter (· != r)).isEmpty = false →
      Yields (exec (.ackD r l c) s) (fun t => t.tx l = some { x with await := x.await.filter (· != r), line := some c, dirty := true } ∧ (t.dir l).sharers = (s.dir l).sharers &&& ~~~tileBit r)) ∧
    (∀ (r l : Nat) (x : Tx) (c : Content) (s : State), s.cat.stuck = false →
      s.cat.forged = none →
      s.hasTile r = true →
      s.cohRuns (s.home l) l = true →
      s.tx l = some x →
      x.await = [r] →
      x.room = none →
      x.kind = .readX →
      r < 8 →
      x.req < 8 →
      (s.dir l).held = true →
      Yields (exec (.ackD r l c) s) (fun t => (t.tx l).map Tx.sent = some true ∧ (t.dir l).st = .ex ∧ (t.dir l).sharers = tileBit x.req ∧ t.net = ((s.receive { kind := .ackD, src := r, dst := s.home l, line := l, content := some c }).send { kind := .data .m, src := s.home l, dst := x.req, line := l, content := some c }).net)) ∧
    (∀ (r l : Nat) (x : Tx) (s : State), s.cat.stuck = false →
      s.cat.forged = none →
      s.hasTile r = true →
      s.cohRuns (s.home l) l = true →
      s.tx l = some x →
      x.await.contains r = true →
      x.gone.contains r = false →
      (s.dir l).sharers.getLsbD r = true →
      Yields (exec (.gone r l) s) (fun t => t.tx l = some { x with gone := r :: x.gone } ∧ t.reg .dirGone (s.home l) 0 = (s.bump .dirGone (s.home l) 0).reg .dirGone (s.home l) 0)) ∧
    (∀ (r l : Nat) (x : Tx) (s : State), s.cat.stuck = false →
      s.cat.forged = none →
      s.hasTile r = true →
      s.cohRuns (s.home l) l = true →
      s.tx l = some x →
      x.await.contains r = false →
      exec (.ackNp r l) s = .next s.undoTriggers ∧ exec (.gone r l) s = .next s.undoTriggers) ∧
    (∀ (r l : Nat) (x : Tx) (s : State), s.cat.stuck = false →
      s.cat.forged = none →
      s.hasTile r = true →
      s.cohRuns (s.home l) l = true →
      s.tx l = some x →
      x.sent = true →
      x.req = r →
      s.coh.tickets = [] →
      Yields (exec (.done r l) s) (fun t => t.tx l = none ∧ (t.dir l).busy = false)) ∧
    (∀ (r l : Nat) (x : Tx) (s : State), s.cat.stuck = false →
      s.cat.forged = none →
      s.hasTile r = true →
      s.cohRuns (s.home l) l = true →
      s.tx l = some x →
      x.req ≠ r →
      exec (.done r l) s = .next s.undoTriggers)

/-- GET_LOG returns whole entries of a log, the read port shows the record asked for, CLEAR_LOG leaves only its own
record, mirrors and histories take what is due. An accepted GET_LOG on the sideband answers whole records of the log
from the offset, with their byte count; a log or tile that does not exist is refused. CLEAR_LOG without its token is
refused; of log 01h with it, it leaves in the tile's ring no record but 0xF001. A write of ANL_RD_SEQ that names a
record of the tile loads its 64 bytes; one that does not reads not found. A unit that serves mirrors every record of a
tile. Spare samples are taken once a day, sensor samples once a minute, at most 98,304 kept. Rests on R57, R71, R413,
R418, R420, R421, R422, R423, R424; assumptions 43, 78. -/
def Obligations.LogsAreReadAndCleared : Prop :=
    (∀ (c : Ctx) (g k : Byte) (w : Word) (o : SlotRead) (a : DWord) (s : State), s.accepts 0x40 c (getLogParams g k w a) = true →
      c.path = .sideband →
      (slotRef w.toNat).present = false →
      s.logStatus g.toNat k.toNat = none →
      exec (.getLog c g k w o a) s = .next ((s.leaveHead 0x40 c).emit (.sideband c.tag 0 0 (BitVec.ofNat 64 (s.logBytes (s.cur.primary.getD 0) g.toNat k.toNat a.toNat 4096).length)
        (s.logBytes (s.cur.primary.getD 0) g.toNat k.toNat a.toNat 4096)))) ∧
    (∀ (c : Ctx) (g k : Byte) (w : Word) (o : SlotRead) (a : DWord) (s : State), s.accepts 0x40 c (getLogParams g k w a) = true →
      c.path = .sideband →
      (slotRef w.toNat).present = false →
      s.logStatus g.toNat k.toNat = none →
      entrySize g.toNat ∣ (s.logBytes (s.cur.primary.getD 0) g.toNat k.toNat a.toNat 4096).length ∧ (s.logBytes (s.cur.primary.getD 0) g.toNat k.toNat a.toNat 4096).length ≤ 4096) ∧
    (∀ (c : Ctx) (g k : Byte) (w : Word) (o : SlotRead) (a : DWord) (s : State), s.accepts 0x40 c (getLogParams g k w a) = true →
      c.path = .sideband →
      (slotRef w.toNat).present = false →
      s.logStatus g.toNat k.toNat = some .unknown →
      exec (.getLog c g k w o a) s = .next ((s.leaveHead 0x40 c).reply srcCurator c .unknown 0)) ∧
    (∀ (c : Ctx) (g k : Byte) (w : Word) (x : Token) (s : State), s.accepts 0x41 c (clearLogParams g k w) = true →
      c.path = .sideband →
      (slotRef w.toNat).present = false →
      x.present = false →
      exec (.clearLog c g k w x) s = .next ((s.leaveHead 0x41 c).reply srcCurator c .token 0)) ∧
    (∀ (c : Ctx) (k : Byte) (w : Word) (x : Token) (s : State), s.accepts 0x41 c (clearLogParams 1 k w) = true →
      c.path = .sideband →
      (slotRef w.toNat).present = false →
      x.present = true →
      s.hasTile k.toNat = true →
      s.coreUp = true →
      s.tokenFails x 2 (1 + 256 * k.toNat) (fun n => s.commonSigner n) = none →
      Yields (exec (.clearLog c 1 k w x) s) (fun t => (tget (fun _ => []) t.anl.rings k.toNat).length = 1 ∧ ∀ r ∈ tget (fun _ => []) t.anl.rings k.toNat, r.code = 0xF001)) ∧
    (∀ (p n : Nat) (r : ARec) (s : State), s.takesWrite p = true →
      n < 2 ^ 32 - 1 →
      (tget (fun _ => []) s.anl.rings (s.field .anlRdTile 0 0 2 0)).find? (fun r => r.seq == n) = some r →
      Yields (exec (.anlRdLoad p (BitVec.ofNat 32 n)) s) (fun t => t.field .anlRdStat 0 0 31 31 = 1 ∧ t.reg .anlRdSeq 0 0 = n ∧ ∀ i ∈ List.range 16, t.reg .anlRdData 0 i = byteField r.bytes (4 * i) 4)) ∧
    (∀ (p n : Nat) (s : State), s.takesWrite p = true →
      n < 2 ^ 32 - 1 →
      (tget (fun _ => []) s.anl.rings (s.field .anlRdTile 0 0 2 0)).find? (fun r => r.seq == n) = none →
      Yields (exec (.anlRdLoad p (BitVec.ofNat 32 n)) s) (fun t => t.field .anlRdStat 0 0 31 31 = 0 ∧ t.field .anlRdStat 0 0 30 30 = (if n < tget (fun _ => 0) s.anl.nextSeq (s.field .anlRdTile 0 0 2 0) then 1 else 0))) ∧
    (∀ (u k : Nat) (s : State), u < 2 →
      s.hasTile k = true →
      s.curators.contains u = true →
      tget (fun _ => 0) s.anl.lostN k = 0 →
      Yields (exec (.annalsMirror u k true) s) (fun t => t.anl.rings = s.anl.rings ∧ tget (fun _ => 0) t.anl.mirrored (8 * u + k) = tget (fun _ => 0) s.anl.nextSeq k)) ∧
    (∀ (u k : Nat) (b : Bool) (s : State), u < 2 →
      s.hasTile k = true →
      s.curators.contains u = false →
      exec (.annalsMirror u k b) s = .next s) ∧
    (∀ (s : State), s.cur.primary.isSome = true →
      s.thm.lastSpare + 86400000000000 ≤ s.now →
      Yields (exec .spareSample s) (fun t => t.thm.lastSpare = s.now ∧ ∀ k ∈ s.tileList, t.anl.spareH.any (fun e => e.tile == k && e.cause == 6 && e.t == s.now) = true)) ∧
    (∀ (s : State), s.now < s.thm.lastSpare + 86400000000000 →
      exec .spareSample s = .next s) ∧
    (∀ (s : State), s.cur.primary.isSome = true →
      s.thm.lastSample + 60000000000 ≤ s.now →
      Yields (exec .sensorHistorySample s) (fun t => t.thm.lastSample = s.now ∧ t.thm.maxLevel = s.thm.level ∧ t.anl.sensorH.length ≤ 98304 ∧ t.anl.sensorH.length = min 98304 (s.anl.sensorH.length + s.tileList.length))) ∧
    (∀ (s : State), s.now < s.thm.lastSample + 60000000000 →
      exec .sensorHistorySample s = .next s) ∧
    (∀ (c : Ctx) (k n : Byte) (v : Nat) (s : State), s.accepts 0x42 c (sensorReadParams k n) = true →
      s.hasTile k.toNat = true →
      s.sensorResult k.toNat n.toNat = some v →
      exec (.sensorRead c k n) s = .next (((s.leaveHead 0x42 c).drawn 1).reply srcCurator c .done v)) ∧
    (∀ (c : Ctx) (k n : Byte) (s : State), s.accepts 0x42 c (sensorReadParams k n) = true →
      s.hasTile k.toNat = true →
      s.sensorResult k.toNat n.toNat = none →
      exec (.sensorRead c k n) s = .next ((s.leaveHead 0x42 c).reply srcCurator c .param 0))

/-- Injections arm and disarm sources, FLT_SRC_CFG sets a source above its floor, escalation slots close when acted on or
at their deadline, a tile's reset ends. FAULT_INJECT, with its checks met, arms the source with its mask and count, or
disarms it with mask 0; where a check fails no source is armed. A write of FLT_SRC_CFG sets base (never below the
unit's floor), n_thr and win_log; a base of 5 to 7 keeps the old one. A cancelled slot closes without escalation; one
acted on now, or whose deadline passes, closes and escalates; a slot that is not open refuses the action. A tile that
reports ready is no longer halted or in reset; one that has not after 1 s is failed. Rests on R403, R404, R405, R408,
R409, R410, R412; assumptions 77, 95. -/
def Obligations.FaultSourcesAndSlots : Prop :=
    (∀ (c : Ctx) (k : Byte) (i : BitVec 12) (w : Word) (x : Token) (m : DWord) (n : BitVec 16) (s : State), s.accepts 0x43 c (faultInjectParams k i w m n) = true →
      c.path = .sideband →
      (slotRef w.toNat).present = false →
      x.present = false →
      s.cur.lifecycle ≠ .sealed →
      s.injectStatus k.toNat i.toNat n.toNat = none →
      m ≠ 0 →
      Yields (exec (.faultInject c k i w x m n) s) (fun t => t.flt.inj.find? (fun j => j.tile == k.toNat && j.source == i.toNat) = some { tile := k.toNat, source := i.toNat, mask := m, count := n.toNat })) ∧
    (∀ (c : Ctx) (k : Byte) (i : BitVec 12) (w : Word) (x : Token) (m : DWord) (n : BitVec 16) (s : State), s.accepts 0x43 c (faultInjectParams k i w m n) = true →
      c.path = .sideband →
      (slotRef w.toNat).present = false →
      x.present = false →
      s.cur.lifecycle ≠ .sealed →
      s.injectStatus k.toNat i.toNat n.toNat = none →
      m = 0 →
      Yields (exec (.faultInject c k i w x m n) s) (fun t => t.flt.inj.find? (fun j => j.tile == k.toNat && j.source == i.toNat) = none)) ∧
    (∀ (c : Ctx) (k : Byte) (i : BitVec 12) (w : Word) (x : Token) (m : DWord) (n : BitVec 16) (s : State), s.accepts 0x43 c (faultInjectParams k i w m n) = true →
      c.path = .sideband →
      (slotRef w.toNat).present = false →
      x.present = false →
      s.cur.lifecycle ≠ .sealed →
      (s.injectStatus k.toNat i.toNat n.toNat).isSome = true →
      Yields (exec (.faultInject c k i w x m n) s) (fun t => t.flt = s.flt)) ∧
    (∀ (k i : Nat) (s : State), s.hasSource k i = true →
      ((s.src k i).winAt.isSome = true ∧ ∀ w, (s.src k i).winAt = some w → w + (s.src k i).winLen ≤ s.now) →
      Yields (exec (.faultWindowEnd k i) s) (fun t => (t.src k i).winAt = none ∧ (t.src k i).window = 0 ∧ (t.src k i).total = (s.src k i).total)) ∧
    (∀ (p k i : Nat) (u : UnitInfo) (w : Word) (s : State), s.takesWrite p = true →
      i < 4096 →
      s.hasSource k i = true →
      unitInfo (i / 128) = some u →
      bits w.toNat 31 29 < 5 →
      Yields (exec (.fltSrcCfgWrite p k i w) s) (fun t => (t.src k i).base = max (bits w.toNat 31 29) u.floor ∧ (t.src k i).nThr = bits w.toNat 15 8 ∧ (t.src k i).winLog = bits w.toNat 4 0)) ∧
    (∀ (p k i : Nat) (w : Word) (s : State), s.takesWrite p = true →
      i < 4096 →
      s.hasSource k i = true →
      5 ≤ bits w.toNat 31 29 →
      Yields (exec (.fltSrcCfgWrite p k i w) s) (fun t => (t.src k i).base = (s.src k i).base ∧ (t.src k i).nThr = bits w.toNat 15 8 ∧ (t.src k i).winLog = bits w.toNat 4 0)) ∧
    (∀ (a k n : Nat) (s : State), s.hasActor a = true →
      s.hasTile k = true →
      n < 32 →
      s.cry.haltCause = 0 →
      s.slotOpen k n = true →
      Yields (exec (.escalationCancel a k n) s) (fun t => (t.slot k n).opened = false ∧ t.flt.halted = s.flt.halted ∧ t.epo = s.epo)) ∧
    (∀ (a k n : Nat) (s : State), s.hasActor a = true →
      s.hasTile k = true →
      n < 32 →
      s.cry.haltCause = 0 →
      s.slotOpen k n = false →
      exec (.escalationCancel a k n) s = .next ((if a = 255 then s else s.commitStore).refusedWrite k a (pendActOff k n) 1)) ∧
    (∀ (a k n : Nat) (s : State), s.hasActor a = true →
      s.hasTile k = true →
      n < 32 →
      s.cry.haltCause = 0 →
      s.slotOpen k n = false →
      exec (.escalationNow a k n) s = .next ((if a = 255 then s else s.commitStore).refusedWrite k a (pendActOff k n) 2)) ∧
    (∀ (a k n : Nat) (s : State), s.hasActor a = true →
      s.hasTile k = true →
      n < 32 →
      s.cry.haltCause = 0 →
      s.slotOpen k n = true →
      (s.slot k n).fatal = false →
      s.epo.rollback = false →
      Yields (exec (.escalationNow a k n) s) (fun t => (t.slot k n).opened = false ∧ t.epo.rollback = true)) ∧
    (∀ (k n : Nat) (s : State), s.hasTile k = true →
      n < 32 →
      s.cry.haltCause = 0 →
      (s.slot k n).opened = true →
      (s.slot k n).deadline ≤ s.now →
      (s.slot k n).fatal = false →
      s.epo.rollback = false →
      Yields (exec (.escalationExpiry k n) s) (fun t => (t.slot k n).opened = false ∧ t.epo.rollback = true)) ∧
    (∀ (k n : Nat) (s : State), s.hasTile k = true →
      n < 32 →
      s.now < (s.slot k n).deadline →
      exec (.escalationExpiry k n) s = .next s) ∧
    (∀ (k : Nat) (s : State), s.hasTile k = true →
      k < 8 →
      s.underReset k = true →
      Yields (exec (.tileReady k) s) (fun t => t.underReset k = false ∧ t.flt.halted.getLsbD k = false ∧ t.reg .anlBoot 0 0 = s.reg .anlBoot 0 0)) ∧
    (∀ (k : Nat) (s : State), s.hasTile k = true →
      k < 8 →
      s.flt.resetting.any (fun e => e.1 == k && decide (e.2 + 1000000000 ≤ s.now)) = true →
      Yields (exec (.tileReadyTimeout k) s) (fun t => t.underReset k = false ∧ t.flt.failed.getLsbD k = true)) ∧
    (∀ (k : Nat) (s : State), s.hasTile k = true →
      s.underReset k = false →
      exec (.tileReady k) s = .next s) ∧
    (∀ (k : Nat) (s : State), s.hasTile k = true →
      s.underReset k = false →
      exec (.tileReadyTimeout k) s = .next s)

/-- A one-sided reset closes its passes and counts what it discarded; closed passes are not reset again; a reopened pass
is open. A one-sided reset on a running tile whose passes are open closes every pass of the reset, counts one reset,
and aborts the open epochs where R356 says so; where its passes are closed already nothing happens. A closed pass that
reopens is open, and a media engine is then back in service. A saddle frame with a good CRC ends a replay, a first bad
one is replayed and counted, and a second one takes the link down. The halt broadcast stops a tile and disables its
ports. Rests on R344, R355, R356, R358, R397; assumption 73. -/
def Obligations.PassesCloseAndReopen : Prop :=
    (∀ (r : PassReset) (n p : Nat) (w : Bool) (s : State), s.hasReset r = true →
      s.coreUp = true →
      s.tileRuns (resetTileOf r) = true →
      s.passClosed (resetTileOf r) ((resetPasses r).headD 0) = false →
      p ∈ resetPasses r →
      Yields (exec (.passReset r n w) s) (fun t => t.passClosed (resetTileOf r) p = true ∧ t.reg .pasResets (resetTileOf r) 0 = (s.bump .pasResets (resetTileOf r) 0).reg .pasResets (resetTileOf r) 0)) ∧
    (∀ (r : PassReset) (n : Nat) (w : Bool) (s : State), s.hasReset r = true →
      s.coreUp = true →
      s.tileRuns (resetTileOf r) = true →
      s.passClosed (resetTileOf r) ((resetPasses r).headD 0) = false →
      resetAborts r w = true →
      Yields (exec (.passReset r n w) s) (fun t => t.epo.rollback = true)) ∧
    (∀ (r : PassReset) (n : Nat) (w : Bool) (s : State), s.hasReset r = true →
      s.passClosed (resetTileOf r) ((resetPasses r).headD 0) = true →
      exec (.passReset r n w) s = .next s) ∧
    (∀ (k p : Nat) (s : State), s.hasPass k p = true →
      s.passClosed k p = true →
      Yields (exec (.passReopen k p) s) (fun t => t.passClosed k p = false ∧ (26 ≤ p → p < 42 → (t.chan k (p - 26)).engineReset = false))) ∧
    (∀ (k p : Nat) (s : State), s.hasPass k p = true →
      s.passClosed k p = false →
      exec (.passReopen k p) s = .next s) ∧
    (∀ (k j : Nat) (s : State), s.hasTile k = true →
      j < 3 →
      s.hasSaddle j = true →
      s.coreUp = true →
      (tget (fun _ => (0 : BitVec 3)) s.coh.saddleUp k).getLsbD j = true →
      s.flt.inj = [] →
      exec (.saddleFrame k j true) s = .next { s with coh := { s.coh with replay := tset (fun _ => false) s.coh.replay (linkKey k j) false } }) ∧
    (∀ (k j : Nat) (s : State), s.hasTile k = true →
      j < 3 →
      s.hasSaddle j = true →
      s.coreUp = true →
      (tget (fun _ => (0 : BitVec 3)) s.coh.saddleUp k).getLsbD j = true →
      tget (fun _ => false) s.coh.replay (linkKey k j) = false →
      Yields (exec (.saddleFrame k j false) s) (fun t => tget (fun _ => false) t.coh.replay (linkKey k j) = true ∧ t.reg .slReplay k j = (s.bump .slReplay k j).reg .slReplay k j)) ∧
    (∀ (k j : Nat) (s : State), s.hasTile k = true →
      j < 3 →
      s.hasSaddle j = true →
      s.coreUp = true →
      (tget (fun _ => (0 : BitVec 3)) s.coh.saddleUp k).getLsbD j = true →
      tget (fun _ => false) s.coh.replay (linkKey k j) = true →
      Yields (exec (.saddleFrame k j false) s) (fun t => (tget (fun _ => (0 : BitVec 3)) t.coh.saddleUp k).getLsbD j = false ∧ (tget (fun _ => (0 : BitVec 3)) t.coh.saddleUp (k ^^^ 2 ^ j)).getLsbD j = false)) ∧
    (∀ (k p : Nat) (s : State), s.hasTile k = true →
      s.cry.haltCause ≠ 0 →
      p < 8 →
      Yields (exec (.haltBroadcastArrive k) s) (fun t => t.cry.halted.getLsbD k = true ∧ t.sport k p = {}))

/-- NC_LOCK takes a legal value only; pinning needs a locked way and answers how many lines are pinned; unpinning takes
each pin away. A write of NC_LOCK that locks more than eight ways, a disabled way, or leaves fewer than four to
ordinary fills is refused and recorded; otherwise the lock bits are those written. PIN_LINES with no way locked
answers 02h/0Bh, otherwise the number of lines pinned; after UNPIN_LINES no line of the range is pinned on the tile. A
misaligned address is refused. Rests on R54, R60, R223, R224, R225; assumptions 13, 29, 98. -/
def Obligations.PinsAndLocks : Prop :=
    (∀ (p k : Nat) (w : Word) (s : State), s.takesWrite p = true →
      s.hasTile k = true →
      s.commitStore.lockRefused k (w.toNat % 2 ^ 16) = true →
      exec (.ncLockWrite p k w) s = .next (s.commitStore.refusedWrite k p (ncLockOff k) w.toNat)) ∧
    (∀ (p k : Nat) (w : Word) (s : State), s.takesWrite p = true →
      s.hasTile k = true →
      s.commitStore.lockRefused k (w.toNat % 2 ^ 16) = false →
      bits (s.reg .ncWaydis k 0) 31 16 = 0 →
      (s.commitStore.setWays k (w.toNat % 2 ^ 16)).cat.stuck = false →
      (s.commitStore.setWays k (w.toNat % 2 ^ 16)).cat.forged = none →
      Yields (exec (.ncLockWrite p k w) s) (fun t => t.field .ncLock k 0 15 0 = w.toNat % 2 ^ 16)) ∧
    (∀ (c : Ctx) (k : Byte) (a : DWord) (n : Word) (e : MediaEnv) (s : State), s.accepts 0x23 c (pinParams k a n) = true →
      s.pinCheck k.toNat a.toNat n.toNat = none →
      s.field .ncLock k.toNat 0 15 0 = 0 →
      (s.reply (srcStream k.toNat) c .state 0).cat.stuck = false →
      (s.reply (srcStream k.toNat) c .state 0).cat.forged = none →
      exec (.pinLines c k a n e) s = .next (s.reply (srcStream k.toNat) c .state 0).tellFaults.undoTriggers) ∧
    (∀ (c : Ctx) (k : Byte) (a : DWord) (n : Word) (e : MediaEnv) (s : State), s.accepts 0x23 c (pinParams k a n) = true →
      s.pinCheck k.toNat a.toNat n.toNat = none →
      s.field .ncLock k.toNat 0 15 0 ≠ 0 →
      ((pinRun (fun l s => s.pinLine k.toNat l e) (linesOf a.toNat (128 * n.toNat)) s).2.reply (srcStream k.toNat) c .done
        (pinRun (fun l s => s.pinLine k.toNat l e) (linesOf a.toNat (128 * n.toNat)) s).1).cat.stuck = false →
      ((pinRun (fun l s => s.pinLine k.toNat l e) (linesOf a.toNat (128 * n.toNat)) s).2.reply (srcStream k.toNat) c .done
        (pinRun (fun l s => s.pinLine k.toNat l e) (linesOf a.toNat (128 * n.toNat)) s).1).cat.forged = none →
      exec (.pinLines c k a n e) s = .next ((pinRun (fun l s => s.pinLine k.toNat l e) (linesOf a.toNat (128 * n.toNat)) s).2.reply (srcStream k.toNat) c .done
        (pinRun (fun l s => s.pinLine k.toNat l e) (linesOf a.toNat (128 * n.toNat)) s).1).tellFaults.undoTriggers) ∧
    (∀ (c : Ctx) (k : Byte) (a : DWord) (e : MediaEnv) (s : State), s.accepts 0x23 c (pinParams k a 1) = true →
      s.pinCheck k.toNat a.toNat 1 = none →
      s.field .ncLock k.toNat 0 15 0 ≠ 0 →
      (s.vacantSlot k.toNat (a.toNat / 128)).isSome = true →
      s.pinnedInSet (a.toNat / 128) < 10 →
      ((pinRun (fun l s => s.pinLine k.toNat l e) (linesOf a.toNat (128 * (1 : Word).toNat)) s).2).cat.stuck = false →
      ((pinRun (fun l s => s.pinLine k.toNat l e) (linesOf a.toNat (128 * (1 : Word).toNat)) s).2).cat.forged = none →
      Yields (exec (.pinLines c k a 1 e) s) (fun t => (t.nc k.toNat (a.toNat / 128)).pin = true)) ∧
    (∀ (c : Ctx) (k : Byte) (a : DWord) (n : Word) (s : State), s.accepts 0x24 c (pinParams k a n) = true →
      s.pinCheck k.toNat a.toNat n.toNat = none →
      ((pinRun (fun l s => s.unpinLine k.toNat l) (linesOf a.toNat (128 * n.toNat)) s).2.settlePending k.toNat).cat.stuck = false →
      ((pinRun (fun l s => s.unpinLine k.toNat l) (linesOf a.toNat (128 * n.toNat)) s).2.settlePending k.toNat).cat.forged = none →
      Yields (exec (.unpinLines c k a n) s) (fun t => ∀ l ∈ linesOf a.toNat (128 * n.toNat), (t.nc k.toNat l).pin = false)) ∧
    (∀ (c : Ctx) (k : Byte) (a : DWord) (n : Word) (e : MediaEnv) (s : State), s.accepts 0x23 c (pinParams k a n) = true →
      s.hasTile k.toNat = true →
      a.toNat < 2 ^ 49 →
      a.toNat % 128 ≠ 0 →
      (s.reply srcInterp c .param 0).cat.stuck = false →
      (s.reply srcInterp c .param 0).cat.forged = none →
      exec (.pinLines c k a n e) s = .next (s.reply srcInterp c .param 0).tellFaults.undoTriggers)

/-- SLK_BOND takes a legal bonding, a changed enable restarts its port, key words are held, and a rekey names the group
sixteen on. A SLK_BOND value that breaks the bonding rules is refused and recorded; one that changes no port with an
armed route or an open region gives every port its width. A changed enable of an existing port of a tile whose links
run puts it in RESET now. A key word is stored and marked as loaded. A rekey on an ACTIVE port that runs GCM applies
from the 16th group on; on any other port it asks nothing. Rests on R238, R239, R252, R272, R276; assumption 65. -/
def Obligations.LinkRegisters : Prop :=
    (∀ (a k : Nat) (w : Word) (s : State), s.takesWrite a = true →
      s.hasTile k = true →
      bondBad (w.toNat % 2 ^ 24) = true →
      exec (.slkBondWrite a k w) s = .next (s.commitStore.refusedWrite k a (slkBondOff k) (w.toNat % 2 ^ 24))) ∧
    (∀ (a k p : Nat) (w : Word) (s : State), s.takesWrite a = true →
      s.hasTile k = true →
      p < 8 →
      bondBad (w.toNat % 2 ^ 24) = false →
      (s.commitStore.bondChanged k (w.toNat % 2 ^ 24)).any (fun p => s.commitStore.portInUse k p) = false →
      Yields (exec (.slkBondWrite a k w) s) (fun t => t.width k p = widthOf (bondCode (w.toNat % 2 ^ 24) p))) ∧
    (∀ (a k p : Nat) (w : Word) (s : State), s.takesWrite a = true →
      s.hasSport k p = true →
      s.field .slkPortCfg k p 31 31 = 0 →
      bits w.toNat 31 31 = 1 →
      s.linkRuns k = true →
      Yields (exec (.slkPortCfgWrite a k p w) s) (fun t => (t.sport k p).st = .reset ∧ (t.sport k p).since = s.now)) ∧
    (∀ (a k p : Nat) (w : Word) (s : State), s.takesWrite a = true →
      s.hasSport k p = true →
      bits w.toNat 31 31 = s.field .slkPortCfg k p 31 31 →
      Yields (exec (.slkPortCfgWrite a k p w) s) (fun t => t.lnk = s.lnk)) ∧
    (∀ (a k p i : Nat) (w : Word) (s : State), s.takesWrite a = true →
      s.hasTile k = true →
      p < 8 →
      i < 8 →
      Yields (exec (.slkGcmKeyWrite a k p i w) s) (fun t => t.reg .slkGcmKey k (8 * p + i) = w.toNat ∧ (t.sport k p).keyWords.getLsbD i = true)) ∧
    (∀ (a k p : Nat) (s : State), s.takesWrite a = true →
      s.hasTile k = true →
      p < 8 →
      s.portIn k p .active = true →
      (s.sport k p).gcm = true →
      Yields (exec (.rekey a k p) s) (fun t => (t.sport k p).rekeyAt = some ((s.sport k p).tx.ctr + 16) ∧ (t.sport k p).rekeySent = some s.now)) ∧
    (∀ (a k p : Nat) (s : State), s.takesWrite a = true →
      s.hasTile k = true →
      p < 8 →
      (s.sport k p).gcm = false →
      exec (.rekey a k p) s = .next s.commitStore)

/-- A port trains from RESET through DETECT, EQ and LOCK to CONFIG, each step under its own condition, and goes back on
its timeouts. RESET ends after 100 µs in DETECT; signal takes the port to EQ; the fourth good ready frame of a one-
lane port ends EQ in LOCK and an EQ frame with a bad CRC changes nothing; the fourth lock marker of the lane in a row
ends LOCK in CONFIG, and a codeword without it ends the run. EQ goes back to DETECT after 50 ms and LOCK after 1 ms,
and the port fails at the eighth such time in a row (that LOCK counts with EQ is the model's reading of R242,
assumption 64); a lane without signal for 1 s fails the port. Rests on R252, R253, R254, R258; assumptions 15, 64, 98. -/
def Obligations.TrainingAdvances : Prop :=
    (∀ (k p : Nat) (s : State), s.hasSport k p = true →
      s.portIn k p .reset = true →
      (s.sport k p).since + 100000 ≤ s.now →
      exec (.portResetDone k p) s = .next (s.setSport k p { s.sport k p with st := .detect })) ∧
    (∀ (k p : Nat) (s : State), s.hasSport k p = true →
      s.now < (s.sport k p).since + 100000 →
      exec (.portResetDone k p) s = .next s) ∧
    (∀ (k p : Nat) (s : State), s.hasSport k p = true →
      s.portIn k p .detect = true →
      Yields (exec (.signalDetect k p) s) (fun t => (t.sport k p).st = .eq ∧ (t.sport k p).since = s.now)) ∧
    (∀ (k p l : Nat) (x : BitVec 128) (a g : Bool) (s : State), s.hasSport k p = true →
      s.portIn k p .eq = true →
      l < s.width k p →
      eqCrcOk x = false →
      exec (.eqFrame k p l x a g) s = .next s) ∧
    (∀ (k p : Nat) (x : BitVec 128) (a : Bool) (s : State), s.hasSport k p = true →
      s.portIn k p .eq = true →
      s.width k p = 1 →
      eqCrcOk x = true →
      x.getLsbD 24 = true →
      tget (fun _ => 0) (s.sport k p).readyRun 0 = 3 →
      Yields (exec (.eqFrame k p 0 x a true) s) (fun t => (t.sport k p).st = .lock ∧ (t.sport k p).since = s.now ∧ (t.sport k p).eqTmo = (s.sport k p).eqTmo)) ∧
    (∀ (k p : Nat) (s : State), s.hasSport k p = true →
      s.portIn k p .eq = true →
      (s.sport k p).since + 50000000 ≤ s.now →
      (s.sport k p).eqTmo < 7 →
      exec (.eqTimeout k p) s = .next (s.setSport k p { s.sport k p with st := .detect, since := s.now, eqTmo := (s.sport k p).eqTmo + 1 })) ∧
    (∀ (k p : Nat) (s : State), s.hasSport k p = true →
      s.portIn k p .eq = true →
      (s.sport k p).since + 50000000 ≤ s.now →
      7 ≤ (s.sport k p).eqTmo →
      Yields (exec (.eqTimeout k p) s) (fun t => (t.sport k p).st = .failed)) ∧
    (∀ (k p : Nat) (f : Byte) (s : State), s.hasSport k p = true →
      s.portIn k p .lock = true →
      s.width k p = 1 →
      tget (fun _ => 0) (s.sport k p).lockRun 0 = 3 →
      Yields (exec (.lockMarker k p 0 (lockMarker 0) f) s) (fun t => (t.sport k p).st = .config ∧ (t.sport k p).rxPhase = f ∧ (t.sport k p).cfgGot = false ∧ (t.sport k p).cfgAcked = false)) ∧
    (∀ (k p l : Nat) (m : BitVec 40) (f : Byte) (s : State), s.hasSport k p = true →
      s.portIn k p .lock = true →
      l < s.width k p →
      m ≠ lockMarker l →
      exec (.lockMarker k p l m f) s = .next (s.unmarked k p l)) ∧
    (∀ (k p : Nat) (s : State), s.hasSport k p = true →
      s.portIn k p .lock = true →
      (s.sport k p).since + 1000000 ≤ s.now →
      (s.sport k p).eqTmo < 7 →
      exec (.lockTimeout k p) s = .next (s.setSport k p { s.sport k p with st := .detect, since := s.now, eqTmo := (s.sport k p).eqTmo + 1 })) ∧
    (∀ (k p : Nat) (s : State), s.hasSport k p = true →
      s.portIn k p .lock = true →
      (s.sport k p).since + 1000000 ≤ s.now →
      7 ≤ (s.sport k p).eqTmo →
      Yields (exec (.lockTimeout k p) s) (fun t => (t.sport k p).st = .failed)) ∧
    (∀ (k p l : Nat) (s : State), s.hasSport k p = true →
      s.portIn k p .detect = true →
      l < s.width k p →
      s.field .slkLane k (p + l) 31 31 = 0 →
      (s.sport k p).since + 1000000000 ≤ s.now →
      Yields (exec (.laneSignalTimeout k p l) s) (fun t => (t.sport k p).st = .failed))

/-- A CONFIG that fails sends the port back to LOCK; once CONFIG has come and is acknowledged the port is ACTIVE with its
credits. In CONFIG, a legal CONFIG that fails its checks takes the port back to LOCK; one that passes is acknowledged
and its credits are held, and the port is ACTIVE with 128 CAP and 16 REQ credits out where its own CONFIG is
acknowledged already. An acknowledgement of a CONFIG that was sent makes the port ACTIVE where the peer's has come.
CONFIG is repeated every 4 µs until acknowledged, and given up after 100 µs. Rests on R252, R256, R262, R263, R264;
assumptions 61, 98. -/
def Obligations.ConfigExchangeRule : Prop :=
    (∀ (k p : Nat) (f : Flit) (s : State), s.hasSport k p = true →
      s.portIn k p .config = true →
      f.lost = 0 →
      f.fixed = 0 →
      f.hcrcOk = true →
      f.legal .ctrl = true →
      f.id = 1 →
      s.configFails k p (configOf f.payload) = true →
      exec (.config k p f) s = .next (s.backToLock k p)) ∧
    (∀ (k p : Nat) (f : Flit) (s : State), s.hasSport k p = true →
      s.portIn k p .config = true →
      f.lost = 0 →
      f.fixed = 0 →
      f.hcrcOk = true →
      f.legal .ctrl = true →
      f.id = 1 →
      s.configFails k p (configOf f.payload) = false →
      (s.sport k p).cfgAcked = false →
      (s.sport k p).cfgGot = false →
      (s.sport k p).ctrlQ = [] →
      (s.engine k p).switches = [] →
      payloadField f.payload 10 2 ≠ 0 →
      Yields (exec (.config k p f) s) (fun t => (t.sport k p).st = .config ∧ (t.sport k p).cfgGot = true ∧ (t.sport k p).dataCr = payloadField f.payload 4 2
        ∧ (t.sport k p).ctrlCr + 1 = payloadField f.payload 10 2 ∧ t.out = s.out ++ [.flit k p none ((s.sport k p).hdr .ctrl false 2 0 0) (payloadOf [(2, f.seq)])])) ∧
    (∀ (k p : Nat) (f : Flit) (s : State), s.hasSport k p = true →
      s.portIn k p .config = true →
      f.lost = 0 →
      f.fixed = 0 →
      f.hcrcOk = true →
      f.legal .ctrl = true →
      f.id = 1 →
      s.configFails k p (configOf f.payload) = false →
      (s.sport k p).cfgAcked = true →
      Yields (exec (.config k p f) s) (fun t => (t.sport k p).st = .active ∧ (t.sport k p).capOut = 128 ∧ (t.sport k p).reqOut = 16 ∧ (t.sport k p).txSeq = 0 ∧ (t.sport k p).rxSeq = 0)) ∧
    (∀ (k p : Nat) (f : Flit) (s : State), s.hasSport k p = true →
      s.portIn k p .config = true →
      f.lost = 0 →
      f.fixed = 0 →
      f.hcrcOk = true →
      f.legal .ctrl = true →
      f.id = 2 →
      (s.sport k p).cfgSeqs.contains (payloadField f.payload 0 2) = true →
      (s.sport k p).cfgGot = true →
      Yields (exec (.configAck k p f) s) (fun t => (t.sport k p).st = .active ∧ (t.sport k p).capOut = 128 ∧ (t.sport k p).reqOut = 16)) ∧
    (∀ (k p : Nat) (f : Flit) (s : State), s.hasSport k p = true →
      s.portIn k p .config = true →
      f.lost = 0 →
      f.fixed = 0 →
      f.hcrcOk = true →
      f.legal .ctrl = true →
      f.id = 2 →
      (s.sport k p).cfgSeqs.contains (payloadField f.payload 0 2) = false →
      Yields (exec (.configAck k p f) s) (fun t => (t.sport k p).st = .config ∧ (t.sport k p).cfgAcked = (s.sport k p).cfgAcked)) ∧
    (∀ (k p : Nat) (s : State), s.hasSport k p = true →
      s.portIn k p .config = true →
      (s.sport k p).cfgAcked = false →
      (s.sport k p).cfgAt + 4000 ≤ s.now →
      exec (.configRepeat k p) s = .next (s.sendConfig k p)) ∧
    (∀ (k p : Nat) (s : State), s.hasSport k p = true →
      s.portIn k p .config = true →
      (s.sport k p).since + 100000 ≤ s.now →
      exec (.configTimeout k p) s = .next (s.backToLock k p))

/-- A good REQ is decided, a good CAP joins its record, IDLE gives credits; a flit without a credit is a protocol error;
bad flits and gaps move the number on. A legal flit with the number expected honours its DATA credits; IDLE takes no
number, REQ and CAP take one. A REQ with a credit takes it and is decided on its payload, decrypted where the port
runs GCM; one that names a legal path is scheduled as the newest switch at its cycle plus the route's latency, and one
that does not is rejected. A CAP with a credit takes it and goes to its region as its header says; one that starts a
record in an open region starts it. A CAP or REQ flit that had no credit is a protocol error. A CTRL flit with an
uncorrectable codeword below the retrain threshold takes its number; a second bad header in a row retrains the port; a
gap sets the expected number. A retrain, begun here or received, takes an ACTIVE port with fewer than seven retrains
within 1 s to LOCK and counts. Rests on R257, R260, R261, R264, R266, R267, R269, R290, R292, R312; assumptions 4, 61,
62, 63. -/
def Obligations.FlitsInOrder : Prop :=
    (∀ (k p : Nat) (f : Flit) (s : State), s.hasSport k p = true →
      s.portIn k p .active = true →
      s.flt.inj = [] →
      f.lost = 0 →
      f.hcrcOk = true →
      f.legal .idle = true →
      f.seq = (s.sport k p).rxSeq.toNat →
      f.cclass = 0 →
      Yields (exec (.idle k p f) s) (fun t => (t.sport k p).rxSeq = (s.sport k p).rxSeq ∧ (t.sport k p).dataCr = (s.sport k p).dataCr + f.credit ∧ (t.sport k p).badHdrs = 0)) ∧
    (∀ (k p n : Nat) (f : Flit) (s : State), s.hasSport k p = true →
      s.portIn k p .active = true →
      s.flt.inj = [] →
      f.lost = 0 →
      f.hcrcOk = true →
      f.legal .req = true →
      f.seq = (s.sport k p).rxSeq.toNat →
      (s.sport k p).reqOut ≠ 0 →
      exec (.req k p n f) s = .next (((((s.countFixed k p f).header k p f .req).joinGroup k p f .req).setSport k p { (((s.countFixed k p f).header k p f .req).joinGroup k p f .req).sport k p with
        reqOut := ((((s.countFixed k p f).header k p f .req).joinGroup k p f .req).sport k p).reqOut - 1 }).decideReq k p (reqOf f.route n ((((s.countFixed k p f).header k p f .req).sport k p).plain f)))) ∧
    (∀ (k p n : Nat) (f : Flit) (x : Option Pos) (d : RouteDef) (s : State), s.hasSport k p = true →
      s.portIn k p .active = true →
      s.flt.inj = [] →
      f.lost = 0 →
      f.hcrcOk = true →
      f.legal .req = true →
      f.seq = (s.sport k p).rxSeq.toNat →
      (s.sport k p).reqOut ≠ 0 →
      (s.sport k p).gcm = false →
      s.pathOf k p (reqOf f.route n f.payload) = some x →
      (s.route k f.route).defn = some d →
      Yields (exec (.req k p n f) s) (fun t => (t.engine k p).switches.map (fun y => (y.route, y.start, y.cycle)) =
        (s.engine k p).switches.map (fun y => (y.route, y.start, y.cycle)) ++ [(f.route, x, n + d.lat)] ∧
        (t.sport k p).reqOut + 1 = (s.sport k p).reqOut ∧ (t.sport k p).rxSeq = (s.sport k p).rxSeq + 1)) ∧
    (∀ (k p n : Nat) (f : Flit) (s : State), s.hasSport k p = true →
      s.portIn k p .active = true →
      s.flt.inj = [] →
      f.lost = 0 →
      f.hcrcOk = true →
      f.legal .req = true →
      f.seq = (s.sport k p).rxSeq.toNat →
      f.cclass = 0 →
      (s.sport k p).reqOut = 0 →
      Yields (exec (.req k p n f) s) (fun t => (t.sport k p).rxSeq = (s.sport k p).rxSeq + 1 ∧ t.reg .slkProto k p = (s.bump .slkProto k p).reg .slkProto k p ∧ t.rte = s.rte)) ∧
    (∀ (k p n : Nat) (f : Flit) (s : State), s.hasSport k p = true →
      s.portIn k p .active = true →
      s.flt.inj = [] →
      f.lost = 0 →
      f.hcrcOk = true →
      f.legal .req = true →
      f.seq = (s.sport k p).rxSeq.toNat →
      f.cclass = 0 →
      (s.sport k p).reqOut ≠ 0 →
      (s.sport k p).gcm = false →
      s.pathOf k p (reqOf f.route n f.payload) = none →
      Yields (exec (.req k p n f) s) (fun t => (t.sport k p).rxSeq = (s.sport k p).rxSeq + 1 ∧ t.reg .rteReqRej k p = (s.bump .rteReqRej k p).reg .rteReqRej k p ∧ t.reg .rteLastReq k p = payloadField f.payload 12 4 ∧ (t.engine k p).switches = (s.engine k p).switches)) ∧
    (∀ (k p : Nat) (f : Flit) (s : State), s.hasSport k p = true →
      s.portIn k p .active = true →
      s.flt.inj = [] →
      f.lost = 0 →
      f.hcrcOk = true →
      f.legal .cap = true →
      f.seq = (s.sport k p).rxSeq.toNat →
      (s.sport k p).capOut ≠ 0 →
      exec (.cap k p f) s = .next (((((s.countFixed k p f).header k p f .cap).joinGroup k p f .cap).setSport k p { (((s.countFixed k p f).header k p f .cap).joinGroup k p f .cap).sport k p with
        capOut := ((((s.countFixed k p f).header k p f .cap).joinGroup k p f .cap).sport k p).capOut - 1 }).capFlit k p (f.id % 64) (f.tflags.testBit 1) (f.tflags.testBit 0) f.poisoned ((((s.countFixed k p f).header k p f .cap).sport k p).plain f))) ∧
    (∀ (k p : Nat) (f : Flit) (s : State), s.hasSport k p = true →
      s.portIn k p .active = true →
      s.flt.inj = [] →
      f.lost = 0 →
      f.hcrcOk = true →
      f.legal .cap = true →
      f.seq = (s.sport k p).rxSeq.toNat →
      (s.sport k p).capOut ≠ 0 →
      f.tflags = 2 →
      (s.region k p f.id).st = .opened →
      (s.region k p f.id).enc = none →
      Yields (exec (.cap k p f) s) (fun t => (t.region k p f.id).started = (s.region k p f.id).started + 1 ∧ (t.region k p f.id).enc.map Rec.num = some (s.region k p f.id).started ∧
        (t.sport k p).rxSeq = (s.sport k p).rxSeq + 1)) ∧
    (∀ (k p : Nat) (f : Flit) (s : State), s.hasSport k p = true →
      s.portIn k p .active = true →
      s.flt.inj = [] →
      f.lost = 0 →
      f.hcrcOk = true →
      f.legal .cap = true →
      f.seq = (s.sport k p).rxSeq.toNat →
      f.cclass = 0 →
      (s.sport k p).capOut = 0 →
      Yields (exec (.cap k p f) s) (fun t => (t.sport k p).rxSeq = (s.sport k p).rxSeq + 1 ∧ t.reg .slkProto k p = (s.bump .slkProto k p).reg .slkProto k p ∧ t.cap = s.cap)) ∧
    (∀ (k p : Nat) (f : Flit) (s : State), s.hasSport k p = true →
      s.portIn k p .active = true →
      s.flt.inj = [] →
      f.lost = 0 →
      f.hcrcOk = true →
      f.legal .cap = true →
      f.seq = (s.sport k p).rxSeq.toNat →
      f.cclass = 0 →
      (s.sport k p).capOut ≠ 0 →
      (s.region k p (f.id % 64)).st ≠ .opened →
      Yields (exec (.cap k p f) s) (fun t => (t.sport k p).rxSeq = (s.sport k p).rxSeq + 1 ∧ t.reg .capOrphan k p = (s.bump .capOrphan k p).reg .capOrphan k p)) ∧
    (∀ (k p : Nat) (s : State), s.hasSport k p = true →
      s.portIn k p .active = true →
      (s.sport k p).uncorr = [] →
      1 < s.field .slkPortCfg k p 7 0 →
      Yields (exec (.badFlit k p .ctrl) s) (fun t => (t.sport k p).rxSeq = (s.sport k p).rxSeq + 1 ∧ (t.sport k p).st = .active)) ∧
    (∀ (k p : Nat) (q : Nat) (s : State), s.hasSport k p = true →
      s.portIn k p .active = true →
      Yields (exec (.badFlit k p (.gap q none)) s) (fun t => (t.sport k p).rxSeq = BitVec.ofNat 16 q)) ∧
    (∀ (k p : Nat) (s : State), s.hasSport k p = true →
      s.portIn k p .active = true →
      (s.sport k p).badHdrs = 1 →
      (s.sport k p).retrains = [] →
      Yields (exec (.badFlit k p .hcrc) s) (fun t => (t.sport k p).st = .lock)) ∧
    (∀ (k p : Nat) (c : Byte) (s : State), s.hasSport k p = true →
      s.portIn k p .active = true →
      (recent s.now 1000000000 (s.sport k p).retrains).length < 7 →
      Yields (exec (.retrain k p c) s) (fun t => (t.sport k p).st = .lock ∧ t.reg .slkRetrains k p = (s.bump .slkRetrains k p).reg .slkRetrains k p)) ∧
    (∀ (k p : Nat) (f : Flit) (s : State), s.hasSport k p = true →
      s.portIn k p .active = true →
      s.flt.inj = [] →
      f.lost = 0 →
      f.hcrcOk = true →
      f.legal .ctrl = true →
      f.seq = (s.sport k p).rxSeq.toNat →
      f.id = 6 →
      f.cclass = 0 →
      (s.sport k p).ctrlOut ≠ 0 →
      (recent s.now 1000000000 (s.sport k p).retrains).length < 7 →
      Yields (exec (.retrainReceive k p f) s) (fun t => (t.sport k p).st = .lock))

/-- A TAG that verifies covers the oldest flits and moves the counter on; any other, or one that comes too late, retrains
the port; a group closes with its TAG. A TAG that names the oldest unverified flit, carries the group counter and the
tag of that flit takes it away and the counter goes on; one with another tag is a tag failure, which retrains the port
or fails it at the third within 1 s. The REKEY that answers the part's own ends the wait for it. Flits without a TAG
for 293 ns, and a REKEY without an answer for 100 µs, are tag failures. A full or old group closes with the counter
one higher. Rests on R258, R273, R274, R275, R276; assumptions 55, 61. -/
def Obligations.GcmGroupsVerify : Prop :=
    (∀ (k p : Nat) (f : Flit) (g : GFlit) (s : State), s.hasSport k p = true →
      s.portIn k p .active = true →
      s.flt.inj = [] →
      f.lost = 0 →
      f.hcrcOk = true →
      f.legal .ctrl = true →
      f.seq = (s.sport k p).rxSeq.toNat →
      f.id = 3 →
      f.cclass = 0 →
      (s.sport k p).ctrlOut ≠ 0 →
      (s.sport k p).gcm = true →
      (s.sport k p).rx.flits = [g] →
      payloadField f.payload 0 2 = g.seq →
      payloadField f.payload 2 2 = g.seq →
      payloadField f.payload 4 8 = (s.sport k p).rx.ctr →
      payloadField f.payload 12 16 = groupTag (s.sport k p).keyRx (s.sport k p).rx.ctr [(g.aad, g.payload)] →
      Yields (exec (.tag k p f) s) (fun t => (t.sport k p).rx.flits = [] ∧ (t.sport k p).rx.ctr = (s.sport k p).rx.ctr + 1 ∧ (t.sport k p).st = .active)) ∧
    (∀ (k p : Nat) (f : Flit) (g : GFlit) (s : State), s.hasSport k p = true →
      s.portIn k p .active = true →
      s.flt.inj = [] →
      f.lost = 0 →
      f.hcrcOk = true →
      f.legal .ctrl = true →
      f.seq = (s.sport k p).rxSeq.toNat →
      f.id = 3 →
      f.cclass = 0 →
      (s.sport k p).ctrlOut ≠ 0 →
      (s.sport k p).gcm = true →
      (s.sport k p).rx.flits = [g] →
      payloadField f.payload 12 16 ≠ groupTag (s.sport k p).keyRx (s.sport k p).rx.ctr [(g.aad, g.payload)] →
      Yields (exec (.tag k p f) s) (fun t => ((t.sport k p).st = .lock ∨ (t.sport k p).st = .failed) ∧ t.reg .slkTagFail k p = (s.bump .slkTagFail k p).reg .slkTagFail k p)) ∧
    (∀ (k p : Nat) (f : Flit) (s : State), s.hasSport k p = true →
      s.portIn k p .active = true →
      s.flt.inj = [] →
      f.lost = 0 →
      f.hcrcOk = true →
      f.legal .ctrl = true →
      f.seq = (s.sport k p).rxSeq.toNat →
      f.id = 4 →
      f.cclass = 0 →
      (s.sport k p).ctrlOut ≠ 0 →
      (s.sport k p).gcm = true →
      (s.sport k p).rekeySent.isSome = true →
      (s.sport k p).rekeyAt = some (payloadField f.payload 0 8) →
      Yields (exec (.rekeyReceive k p f) s) (fun t => (t.sport k p).rekeySent = none ∧ (t.sport k p).peerNonce.toNat = payloadField f.payload 8 8)) ∧
    (∀ (k p : Nat) (s : State), s.hasSport k p = true →
      s.portIn k p .active = true →
      (s.sport k p).gcm = true →
      (s.sport k p).rx.flits.isEmpty = false →
      (s.sport k p).rx.stamp + 293 ≤ s.now →
      Yields (exec (.tagTimeout k p) s) (fun t => (t.sport k p).st = .lock ∨ (t.sport k p).st = .failed)) ∧
    (∀ (k p : Nat) (x : Nat) (s : State), s.hasSport k p = true →
      s.portIn k p .active = true →
      (s.sport k p).rekeySent = some x →
      x + 100000 ≤ s.now →
      Yields (exec (.rekeyTimeout k p) s) (fun t => (t.sport k p).st = .lock ∨ (t.sport k p).st = .failed)) ∧
    (∀ (k p : Nat) (s : State), s.hasSport k p = true →
      s.portIn k p .active = true →
      (s.sport k p).gcm = true →
      (s.sport k p).tx.flits.isEmpty = false →
      (s.sport k p).tx.stamp + 147 ≤ s.now →
      Yields (exec (.gcmGroupClose k p) s) (fun t => (t.sport k p).tx.flits = [] ∧ (t.sport k p).tx.ctr = (s.sport k p).tx.ctr + 1)) ∧
    (∀ (k p : Nat) (s : State), s.hasSport k p = true →
      (s.sport k p).tx.flits = [] →
      exec (.gcmGroupClose k p) s = .next s)

/-- The mailbox has one owner, a standby takes over from a failed primary, roles swap on request, a restarted unit is
primary again. A port that claims a free mailbox owns it and one that claims another's changes nothing; its owner
releases it, and it frees itself after 1 s without access. A standby takes over from a primary that has failed: it is
primary, the other failed, and no request is left that had not committed. ROLE_SWAP with a synced standby makes it
primary and keeps both in service. A standby that reports synced is synced. A CUR reset of the only unit leaves none
until it has restarted; a failed unit is not reset. Rests on R426, R427, R428, R429, R430, R431, R432, R433;
assumptions 79, 94. -/
def Obligations.MailboxAndRoles : Prop :=
    (∀ (p : Nat) (s : State), s.takesWrite p = true →
      s.cur.primary.isSome = true →
      s.cur.mailbox.owner = none →
      Yields (exec (.mbClaim p) s) (fun t => t.cur.mailbox = { s.cur.mailbox with owner := some p, last := s.now })) ∧
    (∀ (p q : Nat) (s : State), s.takesWrite p = true →
      s.cur.mailbox.owner = some q →
      q ≠ p →
      exec (.mbClaim p) s = .next s.commitStore ∧ exec (.mbRelease p) s = .next s.commitStore) ∧
    (∀ (p : Nat) (s : State), s.takesWrite p = true →
      s.cur.mailbox.owner = some p →
      Yields (exec (.mbRelease p) s) (fun t => t.cur.mailbox = { s.cur.mailbox with owner := none })) ∧
    (∀ (p : Nat) (s : State), s.cur.mailbox.owner = some p →
      s.cur.mailbox.busy = false →
      s.cur.mailbox.last + 1000000000 ≤ s.now →
      Yields (exec .mbIdleTimeout s) (fun t => t.cur.mailbox = { s.cur.mailbox with owner := none })) ∧
    (∀ (s : State), s.now < s.cur.mailbox.last + 1000000000 →
      exec .mbIdleTimeout s = .next s) ∧
    (∀ (u : Nat) (s : State), u < 2 →
      s.curators.contains u = true →
      Yields (exec (.heartbeat u) s) (fun t => tget (fun _ => 0) t.cur.beat u = s.now)) ∧
    (∀ (x : BitVec 2) (p : Nat) (s : State), s.cur.primary = some p →
      s.hasStandby = true →
      s.primaryFailed p x.toNat = true →
      s.cur.queue.all (fun m => m.ctx.isSome || m.mailbox.isSome) = true →
      Yields (exec (.curatorTakeover x) s) (fun t => t.cur.primary = some (1 - p) ∧ t.cur.standby = .failed ∧ t.cur.activation = none
        ∧ (∀ m ∈ t.cur.queue, m.committed = true) ∧ t.nextIndex (1 - p) = s.reservedEnd (1 - p))) ∧
    (∀ (x : BitVec 2) (p : Nat) (s : State), s.cur.primary = some p →
      s.primaryFailed p x.toNat = false →
      exec (.curatorTakeover x) s = .next s) ∧
    (∀ (s : State), s.cur.primary.isSome = true →
      s.cur.standby = .syncing →
      s.cur.activation = none →
      Yields (exec .standbySynced s) (fun t => t.cur.standby = .synced ∧ t.cur.primary = s.cur.primary)) ∧
    (∀ (p q : Nat) (s : State), s.hasPort p = true →
      s.mbRuns p 3 = true →
      s.mbCheck 3 = none →
      s.cur.activation = none →
      s.cur.primary = some q →
      q < 2 →
      s.cur.standby = .synced →
      Yields (exec (.roleSwap p) s) (fun t => t.cur.primary = some (1 - q) ∧ t.cur.standby = .synced ∧ t.cur.mailbox.busy = false ∧ t.reg .curMbRpl 0 0 = 0 ∧ t.reg .curMbResLo 0 0 = 1 - q)) ∧
    (∀ (p : Nat) (s : State), s.hasPort p = true →
      s.mbRuns p 3 = true →
      s.mbCheck 3 = none →
      s.cur.activation = none →
      s.cur.standby ≠ .synced →
      exec (.roleSwap p) s = .next (s.mbAnswer .state 0)) ∧
    (∀ (u : Nat) (s : State), u < 2 →
      s.cur.dead.contains u = true →
      exec (.curReset u) s = .next s) ∧
    (∀ (u : Nat) (s : State), u < 2 →
      s.cur.dead.contains u = false →
      s.cur.primary = some u →
      s.hasStandby = false →
      Yields (exec (.curReset u) s) (fun t => t.cur.primary = none ∧ t.cur.restart = some u ∧ t.cur.mailbox = {})) ∧
    (∀ (v : Word) (u : Nat) (s : State), s.cur.restart = some u →
      s.cur.primary = none →
      s.pwr.vaonOk = true →
      s.cur.activation = none →
      Yields (exec (.curatorRestartDone v) s) (fun t => t.cur.primary = some u ∧ t.cur.restart = none ∧ t.reg .curFwRun 0 0 = v.toNat))

/-- Chunks leave the target slot unverified, a verified image starts an activation on the standby, a late restart falls
back, reports use one index each. A chunk of FW_STAGE marks the target slot not valid and nothing verified; a last
chunk whose image verifies at or above the floor makes it valid with its version, and one whose image does not changes
nothing. FW_ACTIVATE with a verified image and a synced standby restarts the standby from the target slot; without a
verified image it is refused. A unit that sends no heartbeat within 2 s of its restart returns to its previous slot
and the activation ends. ATTEST uses the next index and hands out the first piece of its report; without an index it
is refused. Rests on R443, R446, R447, R448, R451, R453, R454; assumptions 51, 52, 55, 87, 98. -/
def Obligations.FirmwareAndReports : Prop :=
    (∀ (p0 q i : Nat) (r : SlotRef) (c : Ctx) (w : Word) (o : SlotRead) (a : Word) (d : HostData) (g : Bool) (u b : Nat) (s : State), s.accepts 0x48 c (fwStageParams w a 0) = true →
      c.path = .ring p0 q i →
      s.slotCheck p0 q i w o true (fun w x => decide (1 ≤ ownLen x ∧ ownLen x ≤ w.slotSize)) = .pass r →
      s.cur.activation = none →
      a.toNat + ownLen o.word ≤ 8388608 →
      d.ok = true →
      s.targetSlot (s.cur.primary.getD 0) = (u, b) →
      Yields (exec (.fwStage c w o a 0 d g) s) (fun t => (t.image u b).valid = false ∧ t.cur.staged.verified = none ∧ t.cur.staged.ended = false)) ∧
    (∀ (p0 q i : Nat) (r : SlotRef) (c : Ctx) (w : Word) (o : SlotRead) (a : Word) (d : HostData) (g : Bool) (h : ImageHeader) (u b : Nat) (s : State), s.accepts 0x48 c (fwStageParams w a 1) = true →
      c.path = .ring p0 q i →
      s.slotCheck p0 q i w o true (fun w x => decide (1 ≤ ownLen x ∧ ownLen x ≤ w.slotSize)) = .pass r →
      s.cur.activation = none →
      a.toNat + ownLen o.word ≤ 8388608 →
      d.ok = true →
      s.targetSlot (s.cur.primary.getD 0) = (u, b) →
      imageHeaderOf ((s.stageChunk u b a.toNat ((List.range (ownLen o.word)).map (fun i => d.bytes.getD i 0)) true).slotBytes u b 0 4096) = h →
      h.good = true →
      s.rootSigner h.root = true →
      h.length + 4096 ≤ imageSpace →
      h.digest = bodyDigest ((s.stageChunk u b a.toNat ((List.range (ownLen o.word)).map (fun i => d.bytes.getD i 0)) true).slotBytes u b 4096 h.length) →
      g = true →
      s.reg .curFwMin 0 0 ≤ h.version.toNat →
      Yields (exec (.fwStage c w o a 1 d g) s) (fun t => t.image u b = { version := h.version, floor := h.floor, valid := true, digest := some h.digest } ∧ t.cur.staged.verified = some (h.version, h.floor))) ∧
    (∀ (p0 q i : Nat) (r : SlotRef) (c : Ctx) (w : Word) (o : SlotRead) (a : Word) (d : HostData) (g : Bool) (h : ImageHeader) (u b : Nat) (s : State), s.accepts 0x48 c (fwStageParams w a 1) = true →
      c.path = .ring p0 q i →
      s.slotCheck p0 q i w o true (fun w x => decide (1 ≤ ownLen x ∧ ownLen x ≤ w.slotSize)) = .pass r →
      s.cur.activation = none →
      a.toNat + ownLen o.word ≤ 8388608 →
      d.ok = true →
      s.targetSlot (s.cur.primary.getD 0) = (u, b) →
      imageHeaderOf ((s.stageChunk u b a.toNat ((List.range (ownLen o.word)).map (fun i => d.bytes.getD i 0)) true).slotBytes u b 0 4096) = h →
      h.good = true →
      s.rootSigner h.root = true →
      h.length + 4096 ≤ imageSpace →
      h.digest = bodyDigest ((s.stageChunk u b a.toNat ((List.range (ownLen o.word)).map (fun i => d.bytes.getD i 0)) true).slotBytes u b 4096 h.length) →
      h.version.toNat < s.reg .curFwMin 0 0 →
      Yields (exec (.fwStage c w o a 1 d g) s) (fun t => t.image u b = s.image u b ∧ t.cur.staged = s.cur.staged ∧ t.cur.chunks = s.cur.chunks)) ∧
    (∀ (p0 q i : Nat) (r : SlotRef) (c : Ctx) (w : Word) (o : SlotRead) (a : Word) (d : HostData) (u b : Nat) (s : State), s.accepts 0x48 c (fwStageParams w a 1) = true →
      c.path = .ring p0 q i →
      s.slotCheck p0 q i w o true (fun w x => decide (1 ≤ ownLen x ∧ ownLen x ≤ w.slotSize)) = .pass r →
      s.cur.activation = none →
      a.toNat + ownLen o.word ≤ 8388608 →
      d.ok = true →
      s.targetSlot (s.cur.primary.getD 0) = (u, b) →
      Yields (exec (.fwStage c w o a 1 d false) s) (fun t => t.image u b = s.image u b ∧ t.cur.staged = s.cur.staged ∧ t.cur.chunks = s.cur.chunks)) ∧
    (∀ (c : Ctx) (v f : Word) (p b : Nat) (s : State), s.accepts 0x49 c (fwActivateParams 0) = true →
      s.cur.activation = none →
      s.cur.staged.verified = some (v, f) →
      s.cur.primary = some p →
      p < 2 →
      s.cur.standby = .synced →
      s.targetSlot p = (1 - p, b) →
      (s.image (1 - p) b).valid = true →
      (s.image (1 - p) b).version = v →
      Yields (exec (.fwActivate c 0) s) (fun t => t.cur.activation = some { ctx := c, version := v, floor := f, step := 1, since := s.now } ∧ t.runSlot (1 - p) = b ∧ t.cur.standby = .syncing)) ∧
    (∀ (c : Ctx) (v f : Word) (p k b : Nat) (s : State), s.accepts 0x49 c (fwActivateParams 0) = true →
      s.cur.activation = none →
      s.cur.staged.verified = some (v, f) →
      s.cur.primary = some p →
      s.targetSlot p = (k, b) →
      (s.image k b).valid = false ∨ (s.image k b).version ≠ v →
      exec (.fwActivate c 0) s = .next (s.reply srcCurator c .state 0)) ∧
    (∀ (c : Ctx) (s : State), s.accepts 0x49 c (fwActivateParams 0) = true →
      s.cur.activation = none →
      s.cur.staged.verified = none →
      exec (.fwActivate c 0) s = .next (s.reply srcCurator c .state 0)) ∧
    (∀ (u : Nat) (a : Activation) (s : State), u < 2 →
      s.cur.activation = some a →
      s.restarting a = some u →
      a.since + 2000000000 ≤ s.now →
      Yields (exec (.fwRestartTimeout u) s) (fun t => t.cur.activation = none ∧ t.runSlot u = 1 - s.runSlot u)) ∧
    (∀ (u : Nat) (s : State), u < 2 →
      s.cur.activation = none →
      exec (.fwRestartTimeout u) s = .next s) ∧
    (∀ (c : Ctx) (w : Word) (o : SlotRead) (n : BitVec 256) (p : Nat) (s : State), s.accepts 0x4A c (attestParams w n) = true →
      c.path = .sideband →
      (slotRef w.toNat).present = false →
      s.cur.report = none →
      s.cur.primary = some p →
      s.nextIndex p < s.reservedEnd p →
      s.nextIndex p < (p + 1) * indexSpan →
      Yields (exec (.attest c w o n true) s) (fun t => t.nextIndex p = s.nextIndex p + 1 ∧ (t.cur.report.map (fun r => (r.nonce, r.piece))) = some (n, 1))) ∧
    (∀ (c : Ctx) (w : Word) (o : SlotRead) (n : BitVec 256) (p : Nat) (s : State), s.accepts 0x4A c (attestParams w n) = true →
      c.path = .sideband →
      (slotRef w.toNat).present = false →
      s.cur.report = none →
      s.cur.primary = some p →
      s.reservedEnd p ≤ s.nextIndex p →
      exec (.attest c w o n false) s = .next ((s.leaveHead 0x4A c).reply srcCurator c .state 0))

/-- LIFECYCLE makes the transitions of R456 and no other, keys are set and revoked, sensors are disabled while another
works, a trip acts at its level. With a token that passes, LIFECYCLE takes BLANK to OPEN with root generation 1, OPEN
to SEALED, SEALED to OPEN counting one return, and OPEN or SEALED to SCRAPPED; any other transition is refused.
OWNER_SET installs the key in OPEN and is refused elsewhere. ROOT_REVOKE revokes its key but not the last one.
SENSOR_DISABLE changes the enable and is refused for the last working sensor. A tamper trip at level 1 counts; at
level 2 it halts the part, at level 3 it scraps it too. Rests on R433, R440, R449, R455, R456, R459, R460, R461;
assumptions 49, 50, 75, 80, 81, 98. -/
def Obligations.LifecycleKeysAndTamper : Prop :=
    (∀ (p : Nat) (x : Token) (s : State), s.hasPort p = true →
      s.mbRuns p 1 = true →
      s.mbCheck 1 = none →
      x.present = true →
      s.mbHolds x = true →
      s.tokenFails x 1 (x.bind.toNat % 256) (fun n => s.lifeSigner (boundByte x 0) n) = none →
      s.cur.lifecycle = .blank →
      boundByte x 0 = 1 →
      Yields (exec (.lifecycle p x) s) (fun t => t.cur.lifecycle = .opened ∧ t.cur.rootGen = 1 ∧ t.cur.mailbox.busy = false ∧ t.reg .curMbRpl 0 0 = 0)) ∧
    (∀ (p : Nat) (x : Token) (s : State), s.hasPort p = true →
      s.mbRuns p 1 = true →
      s.mbCheck 1 = none →
      x.present = true →
      s.mbHolds x = true →
      s.tokenFails x 1 (x.bind.toNat % 256) (fun n => s.lifeSigner (boundByte x 0) n) = none →
      s.cur.lifecycle = .opened →
      boundByte x 0 = 2 →
      Yields (exec (.lifecycle p x) s) (fun t => t.cur.lifecycle = .sealed ∧ t.cur.rootGen = s.cur.rootGen ∧ t.cat = s.cat)) ∧
    (∀ (p : Nat) (x : Token) (s : State), s.hasPort p = true →
      s.mbRuns p 1 = true →
      s.mbCheck 1 = none →
      x.present = true →
      s.mbHolds x = true →
      s.tokenFails x 1 (x.bind.toNat % 256) (fun n => s.lifeSigner (boundByte x 0) n) = none →
      s.cur.lifecycle = .sealed →
      boundByte x 0 = 1 →
      s.spaceBusy = false →
      s.cur.returns < 31 →
      s.cur.rootGen < 63 →
      Yields (exec (.lifecycle p x) s) (fun t => t.cur.lifecycle = .opened ∧ t.cur.rootGen = s.cur.rootGen + 1 ∧ t.cur.returns = s.cur.returns + 1)) ∧
    (∀ (p : Nat) (x : Token) (s : State), s.hasPort p = true →
      s.mbRuns p 1 = true →
      s.mbCheck 1 = none →
      x.present = true →
      s.mbHolds x = true →
      s.tokenFails x 1 (x.bind.toNat % 256) (fun n => s.lifeSigner (boundByte x 0) n) = none →
      s.cur.lifecycle = .opened →
      boundByte x 0 = 3 →
      Yields (exec (.lifecycle p x) s) (fun t => t.cur.lifecycle = .scrapped ∧ t.cur.rootGen = min 63 (s.cur.rootGen + 1) ∧ t.cat.bufs = [])) ∧
    (∀ (p : Nat) (x : Token) (s : State), s.hasPort p = true →
      s.mbRuns p 1 = true →
      s.mbCheck 1 = none →
      x.present = true →
      s.mbHolds x = true →
      s.tokenFails x 1 (x.bind.toNat % 256) (fun n => s.lifeSigner (boundByte x 0) n) = none →
      s.cur.lifecycle = .opened →
      boundByte x 0 = 1 →
      exec (.lifecycle p x) s = .next ((s.useToken x).mbAnswer .state 0)) ∧
    (∀ (p : Nat) (k : BitVec 544) (s : State), s.hasPort p = true →
      s.mbRuns p 4 = true →
      s.mbCheck 4 = none →
      k.toNat = s.mbValue 17 →
      s.cur.lifecycle = .opened →
      s.cur.mailbox.len = 68 →
      Yields (exec (.ownerSet p k) s) (fun t => t.cur.ownerKey = some k ∧ t.cur.lastOwner = 0 ∧ t.cur.mailbox.busy = false)) ∧
    (∀ (p : Nat) (k : BitVec 544) (s : State), s.hasPort p = true →
      s.mbRuns p 4 = true →
      s.mbCheck 4 = none →
      k.toNat = s.mbValue 17 →
      s.cur.lifecycle = .sealed →
      exec (.ownerSet p k) s = .next (s.mbAnswer .lifecycle 0)) ∧
    (∀ (p : Nat) (x : Token) (s : State), s.hasPort p = true →
      s.mbRuns p 5 = true →
      s.mbCheck 5 = none →
      x.present = true →
      s.mbHolds x = true →
      s.tokenFails x 7 (x.bind.toNat % 256) (fun n => s.rootSigner n && n != boundByte x 0) = none →
      s.lastRoot (boundByte x 0) = false →
      boundByte x 0 < 4 →
      Yields (exec (.rootRevoke p x) s) (fun t => t.cur.revoked = s.cur.revoked ||| BitVec.ofNat 4 (2 ^ boundByte x 0) ∧ t.reg .curMbRpl 0 0 = 0)) ∧
    (∀ (p : Nat) (x : Token) (s : State), s.hasPort p = true →
      s.mbRuns p 5 = true →
      s.mbCheck 5 = none →
      x.present = true →
      s.mbHolds x = true →
      s.lastRoot (boundByte x 0) = true →
      exec (.rootRevoke p x) s = .next (s.mbAnswer .state 0)) ∧
    (∀ (p : Nat) (x : Token) (s : State), s.hasPort p = true →
      s.mbRuns p 2 = true →
      s.mbCheck 2 = none →
      x.present = true →
      s.mbHolds x = true →
      s.tokenFails x 6 (x.bind.toNat % 2 ^ 24) (fun n => s.commonSigner n) = none →
      s.hasTile (boundByte x 0) = true →
      boundByte x 1 < 8 →
      boundByte x 2 = 0 →
      s.otherWorking (boundByte x 0) (boundByte x 1) = true →
      exec (.sensorDisable p x) s = .next (((s.useToken x).enableSensor (boundByte x 0) (boundByte x 1) false).mbAnswer .done (bit (s.sensor (boundByte x 0) (boundByte x 1)).enabled 0))) ∧
    (∀ (p : Nat) (x : Token) (s : State), s.hasPort p = true →
      s.mbRuns p 2 = true →
      s.mbCheck 2 = none →
      x.present = true →
      s.mbHolds x = true →
      s.tokenFails x 6 (x.bind.toNat % 2 ^ 24) (fun n => s.commonSigner n) = none →
      s.hasTile (boundByte x 0) = true →
      boundByte x 1 < 8 →
      boundByte x 2 = 0 →
      s.otherWorking (boundByte x 0) (boundByte x 1) = false →
      exec (.sensorDisable p x) s = .next ((s.useToken x).mbAnswer .state 0)) ∧
    (∀ (k i : Nat) (r : DWord) (s : State), s.hasTile k = true →
      i < 5 →
      s.pwr.vaonOk = true →
      i ≠ 4 ∨ s.cur.lifecycle = .sealed →
      s.tamperLevel i = 1 →
      s.recentA1 (8 * k + i) < 7 →
      Yields (exec (.tamperTrip k i r) s) (fun t => t.cur.a1Trips = s.cur.a1Trips ++ [(8 * k + i, s.now)] ∧ t.cry.haltCause = s.cry.haltCause ∧ t.field .curTamperStat 0 0 i i = 1)) ∧
    (∀ (k i : Nat) (r : DWord) (s : State), s.hasTile k = true →
      i < 5 →
      s.pwr.vaonOk = true →
      i ≠ 4 ∨ s.cur.lifecycle = .sealed →
      s.tamperLevel i = 2 →
      s.cry.haltCause = 0 →
      Yields (exec (.tamperTrip k i r) s) (fun t => t.cry.haltCause = 4 ∧ t.cry.haltTile = k ∧ t.cur.lifecycle = s.cur.lifecycle)) ∧
    (∀ (k i : Nat) (r : DWord) (s : State), s.hasTile k = true →
      i < 5 →
      s.pwr.vaonOk = true →
      i ≠ 4 ∨ s.cur.lifecycle = .sealed →
      s.tamperLevel i = 3 →
      Yields (exec (.tamperTrip k i r) s) (fun t => t.cry.haltCause ≠ 0 ∧ t.cur.lifecycle = .scrapped)) ∧
    (∀ (k : Nat) (r : DWord) (s : State), s.hasTile k = true →
      s.cur.lifecycle ≠ .sealed →
      exec (.tamperTrip k 4 r) s = .next s)

/-- SPARE_STATUS answers the spare remaining, FORMAT empties user space and takes a new baseline, MEDIA_PROFILE answers
the drift table or stores the next one. An accepted SPARE_STATUS of a ring that names no slot answers the spare
remaining of its tile, and for FFh a value that is no more than that of any tile. FORMAT with its token and a setting
of 0 to 3 that fits leaves every folio and leaf without an entry, nothing staged, every KID but 0 EMPTY and the region
table clear, the part writable with that setting, and each tile with a baseline of its good capacity; one that does
not fit uses its token, returns its slot and is answered 02h/0Bh, and nothing else changes; one that meets a rollback
or work on user space in flight changes nothing yet (assumption 46). MEDIA_PROFILE action 0 writes the bytes of the
table in use that fit in the slot and answers their number; action 1 stores a table that the tile accepts for its next
reset, and leaves the media state as it was for one that it does not accept. Rests on R139, R157, R174, R184, R185,
R188, R390; assumptions 46, 47. -/
def Obligations.MediaManagement : Prop :=
    (∀ (p0 q i : Nat) (c : Ctx) (k : Byte) (w : Word) (o : SlotRead) (s : State), s.accepts 0x58 c (spareStatusParams k w) = true →
      c.path = .ring p0 q i →
      (slotRef w.toNat).present = false →
      s.hasTile k.toNat = true →
      k.toNat ≠ 255 →
      exec (.spareStatus c k w o) s = .next (s.reply srcCurator c .done (s.remaining k.toNat))) ∧
    (∀ (p0 q i : Nat) (c : Ctx) (w : Word) (o : SlotRead) (s : State), s.accepts 0x58 c (spareStatusParams 255 w) = true →
      c.path = .ring p0 q i →
      (slotRef w.toNat).present = false →
      Yields (exec (.spareStatus c 255 w o) s) (fun t => ∃ v, t = s.reply srcCurator c .done v ∧ ∀ k ∈ s.tileList, v ≤ s.remaining k)) ∧
    (∀ (p0 q i : Nat) (r : SlotRef) (c : Ctx) (a : Byte) (w : Word) (x : Token) (s : State), s.spaceBusy = false →
      s.accepts 0x59 c (formatParams a w) = true →
      c.path = .ring p0 q i →
      s.slotCheck p0 q i w x.own false (fun w x => decide (1 ≤ ownLen x ∧ ownLen x ≤ w.slotSize)) = .pass r →
      x.present = true →
      2948 ≤ ownLen x.own.word →
      s.tokenFails x 5 a.toNat (fun n => s.commonSigner n) = none →
      a.toNat < 4 →
      (s.withSetting (s.formatSetting a.toNat)).settingFits = true →
      Yields (exec (.format c a w x) s) (fun t => t.cat.folios = [] ∧ t.cat.leaves = [] ∧ t.cat.bufs = [] ∧ t.cry.regions = [] ∧ t.med.readOnly = false ∧ t.med.spareSet = some (BitVec.ofNat 2 a.toNat) ∧ (∀ n ∈ List.range 256, n ≠ 0 → (t.kid n).st = .empty) ∧ ∀ k ∈ s.tileList, (t.spare k).c0 = t.goodCapacity k ∧ (t.spare k).q = t.goodCapacity k / 100)) ∧
    (∀ (p0 q i : Nat) (r : SlotRef) (c : Ctx) (a : Byte) (w : Word) (x : Token) (s : State), s.spaceBusy = false →
      s.accepts 0x59 c (formatParams a w) = true →
      c.path = .ring p0 q i →
      s.slotCheck p0 q i w x.own false (fun w x => decide (1 ≤ ownLen x ∧ ownLen x ≤ w.slotSize)) = .pass r →
      x.present = true →
      2948 ≤ ownLen x.own.word →
      s.tokenFails x 5 a.toNat (fun n => s.commonSigner n) = none →
      a.toNat < 4 →
      (s.withSetting (s.formatSetting a.toNat)).settingFits = false →
      exec (.format c a w x) s = .next (((s.useToken x).returnSlot p0 q i r .state (ownLen x.own.word)).reply srcCurator c .state 0)) ∧
    (∀ (c : Ctx) (a : Byte) (w : Word) (x : Token) (s : State), s.spaceBusy = true →
      exec (.format c a w x) s = .next s) ∧
    (∀ (p0 q i : Nat) (r : SlotRef) (c : Ctx) (k : Byte) (w : Word) (o : SlotRead) (d : HostData) (s : State), s.accepts 0x5A c (mediaProfileParams 0 k 0 0 w) = true →
      c.path = .ring p0 q i →
      s.slotCheck p0 q i w o true (fun _ _ => true) = .pass r →
      s.hasTile k.toNat = true →
      ((s.driftTable k.toNat).take (s.win p0 r.window).slotSize).isEmpty = false →
      Yields (exec (.mediaProfile c 0 k 0 0 w o d) s) (fun t => t = (((s.writeSlot p0 q i r ((s.driftTable k.toNat).take (s.win p0 r.window).slotSize)).returnSlot p0 q i r .done ((s.driftTable k.toNat).take (s.win p0 r.window).slotSize).length).reply srcCurator c .done ((s.driftTable k.toNat).take (s.win p0 r.window).slotSize).length))) ∧
    (∀ (p q i : Nat) (c : Ctx) (k : Byte) (w : Word) (o : SlotRead) (d : HostData) (r : SlotRef) (s : State), s.accepts 0x5A c (mediaProfileParams 1 k 0 0 w) = true →
      c.path = .ring p q i →
      s.slotCheck p q i w o true (fun _ v => ownLen v == driftBytes) = .pass r →
      s.hasTile k.toNat = true →
      d.ok = true →
      (s.spare k.toNat).accepts d.bytes = true →
      Yields (exec (.mediaProfile c 1 k 0 0 w o d) s) (fun t => (t.spare k.toNat).next = some d.bytes)) ∧
    (∀ (p q i : Nat) (c : Ctx) (k : Byte) (w : Word) (o : SlotRead) (d : HostData) (r : SlotRef) (s : State), s.accepts 0x5A c (mediaProfileParams 1 k 0 0 w) = true →
      c.path = .ring p q i →
      s.slotCheck p q i w o true (fun _ v => ownLen v == driftBytes) = .pass r →
      s.hasTile k.toNat = true →
      d.ok = true →
      (s.spare k.toNat).accepts d.bytes = false →
      Yields (exec (.mediaProfile c 1 k 0 0 w o d) s) (fun t => t.med = s.med))

/-- ENABLE, DISABLE, WAIT, CHECK, JUMP and END do what R467 gives them, and a step of another kind is left alone. While a
program runs, ENABLE and DISABLE set their enable and go on; WAIT goes on once its time has passed; CHECK, once its
monitor has been scanned since the step began, goes on with a reading in range, arming its monitor as it says, enters
the shut-down program where a latched off request or a timeout leads there, and otherwise waits; JUMP goes to its
target; END of power-up is UP with the islands released while RESET_N is high, END of shut-down is HOLD_OFF. With no
program running nothing happens. Rests on R466, R467, R470, R471, R473; assumptions 15, 34. -/
def Obligations.SequencerSteps : Prop :=
    (∀ (w : DWord) (s : State), s.seqStep = some w →
      stepOp w = 1 →
      exec .enable s = .next { s with pwr := { s.pwr with en := s.pwr.en ||| BitVec.ofNat 24 (2 ^ stepN w), step := s.pwr.step + 1, stepAt := s.now, fresh := 0 } }) ∧
    (∀ (w : DWord) (s : State), s.seqStep = some w →
      stepOp w = 2 →
      exec .disable s = .next { s with pwr := { s.pwr with en := s.pwr.en &&& ~~~BitVec.ofNat 24 (2 ^ stepN w), step := s.pwr.step + 1, stepAt := s.now, fresh := 0 } }) ∧
    (∀ (w : DWord) (s : State), s.seqStep = some w →
      stepOp w = 3 →
      s.pwr.stepAt + bits w.toNat 31 0 * 1000 ≤ s.now →
      exec .wait s = .next { s with pwr := { s.pwr with step := s.pwr.step + 1, stepAt := s.now, fresh := 0 } }) ∧
    (∀ (w : DWord) (s : State), s.seqStep = some w →
      stepOp w = 3 →
      s.now < s.pwr.stepAt + bits w.toNat 31 0 * 1000 →
      exec .wait s = .next s) ∧
    (∀ (w : DWord) (s : State), s.seqStep = some w →
      stepOp w = 4 →
      s.pwr.fresh.getLsbD (stepMon w) = true →
      s.pwr.st = .falling ∨ s.pwr.offLatched = false →
      stepLo w ≤ s.field .seqMon 0 (stepMon w) 11 0 →
      s.field .seqMon 0 (stepMon w) 11 0 ≤ stepHi w →
      Yields (exec .check s) (fun t => t.pwr.step = s.pwr.step + 1 ∧ t.pwr.st = s.pwr.st ∧ (stepArm w ≠ 0 → tget (fun _ => none) t.pwr.armed (stepMon w) = some { lo := stepLo w, hi := stepHi w, shutDown := stepArm w == 2 }))) ∧
    (∀ (w : DWord) (s : State), s.seqStep = some w →
      stepOp w = 4 →
      s.pwr.fresh.getLsbD (stepMon w) = true →
      s.pwr.st = .rising →
      s.pwr.offLatched = true →
      Yields (exec .check s) (fun t => t.pwr.st = .falling ∧ t.pwr.step = stepUnwind w ∧ t.pwr.armed = [])) ∧
    (∀ (w : DWord) (s : State), s.seqStep = some w →
      stepOp w = 4 →
      s.pwr.fresh.getLsbD (stepMon w) = true →
      s.pwr.st = .rising →
      s.pwr.offLatched = false →
      stepHi w < s.field .seqMon 0 (stepMon w) 11 0 →
      s.pwr.stepAt + stepTimeout w * 1000000 ≤ s.now →
      s.pwr.prog.sdEntry ≤ stepElse w →
      Yields (exec .check s) (fun t => t.pwr.st = .falling ∧ t.pwr.step = stepElse w ∧ t.field .seqFault 0 0 31 31 = 1 ∧ t.field .seqFault 0 0 28 24 = stepMon w)) ∧
    (∀ (w : DWord) (s : State), s.seqStep = some w →
      stepOp w = 4 →
      s.pwr.fresh.getLsbD (stepMon w) = true →
      s.pwr.offLatched = false →
      stepHi w < s.field .seqMon 0 (stepMon w) 11 0 →
      stepTimeout w ≠ 0 →
      s.now < s.pwr.stepAt + stepTimeout w * 1000000 →
      exec .check s = .next { s with pwr := { s.pwr with fresh := 0 } }) ∧
    (∀ (w : DWord) (s : State), s.seqStep = some w →
      stepOp w = 4 →
      s.pwr.fresh.getLsbD (stepMon w) = false →
      exec .check s = .next s) ∧
    (∀ (w : DWord) (s : State), s.seqStep = some w →
      stepOp w = 5 →
      exec .jumpStep s = .next { s with pwr := { s.pwr with step := bits w.toNat 7 0, stepAt := s.now, fresh := 0 } }) ∧
    (∀ (w : DWord) (s : State), s.seqStep = some w →
      stepOp w = 6 →
      s.pwr.st = .rising →
      s.pwr.offLatched = false →
      Yields (exec .seqEnd s) (fun t => t.pwr.st = .up ∧ t.pwr.pwr = .p0 ∧ (s.pwr.resetN = true → t.pwr.islands = true))) ∧
    (∀ (w : DWord) (s : State), s.seqStep = some w →
      stepOp w = 6 →
      s.pwr.st = .falling →
      exec .seqEnd s = .next { s with pwr := { s.pwr with st := .holdOff, offAt := s.now } }) ∧
    (∀ (s : State), s.seqStep = none →
      exec .enable s = .next s ∧ exec .disable s = .next s ∧ exec .wait s = .next s ∧ exec .check s = .next s ∧ exec .jumpStep s = .next s ∧ exec .seqEnd s = .next s)

/-- Scans act on armed monitors, requests and supply changes start and stop programs, VAON and POR reset everything, a
program commit is checked and written. A scan keeps its reading; an armed monitor out of range that shuts down takes
UP to the shut-down program. HOLD_OFF ends after min_off, in DOWN or rising where an on request is latched. Off
requests latch while rising and take UP with no primary straight down; on requests start the power-up program from
DOWN. A loss of supply shuts down; RESET_N releases the islands. A fall of VAON drops every enable; POR then samples
the straps, starts part time at 0 and runs the program where auto_on is set. A commit of a valid image is written; an
invalid one is refused with its error. Rests on R464, R468, R470, R471, R472, R473, R474, R475, R476, R488, R495;
assumption 34. -/
def Obligations.SequencerRequests : Prop :=
    (∀ (m v : Nat) (s : State), m < 32 →
      s.scans m = true →
      tget (fun _ => (none : Option Armed)) s.pwr.armed m = none →
      Yields (exec (.monitorScan m v) s) (fun t => t.field .seqMon 0 m 11 0 = min v monitorTop ∧ t.pwr = { s.pwr with fresh := s.pwr.fresh ||| BitVec.ofNat 32 (2 ^ m) })) ∧
    (∀ (m v : Nat) (a : Armed) (s : State), m < 32 →
      s.scans m = true →
      tget (fun _ => (none : Option Armed)) s.pwr.armed m = some a →
      a.shutDown = true →
      a.hi < min v monitorTop →
      s.pwr.st = .up →
      Yields (exec (.monitorScan m v) s) (fun t => t.pwr.st = .falling ∧ t.pwr.step = s.pwr.prog.sdEntry ∧ t.pwr.islands = false ∧ t.pwr.armed = [])) ∧
    (∀ (s : State), s.pwr.st = .holdOff →
      s.pwr.offAt + max 100 s.pwr.prog.minOff * 1000000 ≤ s.now →
      Yields (exec .holdOffExpiry s) (fun t => t.pwr.st = (if s.pwr.onLatched then .rising else .down))) ∧
    (∀ (s : State), s.pwr.st = .holdOff →
      s.now < s.pwr.offAt + max 100 s.pwr.prog.minOff * 1000000 →
      exec .holdOffExpiry s = .next s) ∧
    (∀ (s : State), s.pwr.vaonOk = true →
      s.pwr.st = .rising →
      exec .pwrOffReq s = .next { s with pwr := { s.pwr with offLatched := true } }) ∧
    (∀ (s : State), s.pwr.vaonOk = true →
      s.pwr.st = .up →
      s.cur.primary = none →
      Yields (exec .pwrOffReq s) (fun t => t.pwr.st = .falling ∧ t.pwr.step = s.pwr.prog.sdEntry)) ∧
    (∀ (s : State), s.pwr.vaonOk = true →
      s.pwr.st = .up →
      s.cur.primary.isSome = true →
      s.cry.haltCause = 0 →
      s.pwr.down = none →
      s.pwr.trans.any (fun x => x.target == .p3) = false →
      Yields (exec .pwrOffReq s) (fun t => t.pwr.st = .up ∧ t.pwr.down.isSome = true)) ∧
    (∀ (s : State), s.pwr.vaonOk = true →
      s.pwr.st = .down →
      Yields (exec .pwrOnReq s) (fun t => t.pwr.st = .rising ∧ t.pwr.step = 0)) ∧
    (∀ (s : State), s.pwr.vaonOk = true →
      s.pwr.st = .up →
      s.pwr.pwr = .p1 →
      s.pwr.trans = none →
      Yields (exec .pwrOnReq s) (fun t => t.pwr.trans = some { target := .p0, ctx := none, sealAt := 0, began := s.now, replied := true })) ∧
    (∀ (s : State), s.pwr.vaonOk = true →
      s.pwr.st = .up →
      Yields (exec .supplyOkFall s) (fun t => t.pwr.supplyOk = false ∧ t.pwr.st = .falling ∧ t.pwr.step = s.pwr.prog.sdEntry)) ∧
    (∀ (s : State), s.pwr.vaonOk = true →
      s.pwr.prog.restart = true →
      s.pwr.st = .down →
      Yields (exec .supplyOkReturn s) (fun t => t.pwr.supplyOk = true ∧ t.pwr.st = .rising ∧ t.pwr.step = 0)) ∧
    (∀ (s : State), s.pwr.prog.restart = false →
      exec .supplyOkReturn s = .next { s with pwr := { s.pwr with supplyOk := true } }) ∧
    (∀ (s : State), s.pwr.st = .up →
      s.pwr.islands = false →
      Yields (exec .resetNRelease s) (fun t => t.pwr.resetN = true ∧ t.pwr.islands = true ∧ t.pwr.resetAt = s.now)) ∧
    (∀ (p : Nat) (s : State), s.takesWrite p = true →
      s.cur.lifecycle = .opened →
      s.pwr.commitBusy = false →
      Yields (exec (.seqCommit p) s) (fun t => t.reg .seqCommit 0 0 = (if imageError s.stagedImage = 0 then 2 ^ 31 else imageError s.stagedImage) ∧ t.pwr.commitBusy = decide (imageError s.stagedImage = 0) ∧ (imageError s.stagedImage = 0 → t.pwr.commitImg = s.stagedImage) ∧ t.pwr.flash = s.pwr.flash)) ∧
    (∀ (p : Nat) (s : State), s.takesWrite p = true →
      s.cur.lifecycle = .sealed →
      exec (.seqCommit p) s = .next (s.commitStore.refusedWrite 0 p seqCtrlOff 1)) ∧
    (∀ (s : State), s.pwr.commitBusy = true →
      Yields (exec (.seqCommitDone true) s) (fun t => t.pwr.flash = s.pwr.commitImg ∧ t.pwr.commitBusy = false ∧ t.reg .seqCommit 0 0 = 0) ∧ Yields (exec (.seqCommitDone false) s) (fun t => t.pwr.flash = s.pwr.flash ∧ t.pwr.commitBusy = false ∧ t.reg .seqCommit 0 0 = 3)) ∧
    (∀ (s : State), s.pwr.vaonOk = true →
      Yields (exec .vaonFall s) (fun t => t.pwr.vaonOk = false ∧ t.pwr.st = .down ∧ t.pwr.en = 0 ∧ t.pwr.islands = false ∧ t.cur.primary = none)) ∧
    (∀ (s : State), s.pwr.vaonOk = false →
      Yields (exec .por s) (fun t => t.pwr.vaonOk = true ∧ t.now = 0 ∧ t.pwr.straps = s.pwr.pins ∧ t.pwr.lastReset = 0 ∧ t.pwr.en = 0 ∧ t.pwr.st = (if t.pwr.prog.autoOn then .rising else .down) ∧ t.host.sqs = [] ∧ t.host.cqs = [])) ∧
    (∀ (s : State), s.pwr.vaonOk = true →
      exec .por s = .next s)

/-- COLD, WARM, TILE and port resets leave what R484 gives them, a lost link closes its passes, a link that can train
comes up as given. RESET_N low on a running part is a COLD reset: the islands are in reset and no Curator is primary.
A write of PART_RESET with its key is a WARM reset and any other is refused; before the part is ready the harsher
reset stays the last. A TILE reset is in progress, aborts the open epochs and is the last reset. FLR leaves of the
port's commands only started ones, whose results are dropped. PERST# of one port in dual host mode resets that port
alone, in single host mode it is a COLD reset. A lost link closes the passes of its port. A link that can train comes
up with its speed and width. Rests on R64, R83, R356, R410, R483, R484, R485, R486, R489; assumptions 39, 73, 83. -/
def Obligations.ResetsAndLinks : Prop :=
    (∀ (s : State), s.pwr.vaonOk = true →
      s.pwr.st = .up →
      Yields (exec .coldReset s) (fun t => t.pwr.resetN = false ∧ t.pwr.islands = false ∧ t.pwr.lastReset = s.lastAfter 1 ∧ t.pwr.ready = false ∧ t.cur.primary = none ∧ t.coh.nc = [] ∧ t.host.cmds = [])) ∧
    (∀ (s : State), s.pwr.vaonOk = false →
      exec .coldReset s = .next s) ∧
    (∀ (p : Nat) (w : Word) (s : State), s.takesWrite p = true →
      bits w.toNat 31 16 = 0x5741 →
      bits w.toNat 0 0 = 1 →
      s.pwr.st = .up →
      s.pwr.islands = true →
      s.pwr.ready = true →
      Yields (exec (.warmReset p w) s) (fun t => t.pwr.lastReset = 2 ∧ t.pwr.islands = true ∧ t.pwr.warmBoot = true ∧ t.cur.primary = none ∧ t.host.cmds = [])) ∧
    (∀ (p : Nat) (w : Word) (s : State), s.takesWrite p = true →
      bits w.toNat 31 16 ≠ 0x5741 →
      exec (.warmReset p w) s = .next (s.commitStore.refusedWrite 0 p partResetOff w.toNat)) ∧
    (∀ (p : Nat) (w : Word) (s : State), s.takesWrite p = true →
      bits w.toNat 31 16 = 0x5741 →
      bits w.toNat 0 0 = 1 →
      s.pwr.st = .up →
      s.pwr.islands = true →
      s.pwr.ready = false →
      s.pwr.lastReset = 1 →
      Yields (exec (.warmReset p w) s) (fun t => t.pwr.lastReset = 1)) ∧
    (∀ (k : Nat) (s : State), s.hasTile k = true →
      s.canReset k = true →
      Yields (exec (.tileReset k) s) (fun t => t.underReset k = true ∧ t.pwr.lastReset = s.lastAfter 3 ∧ t.epo.rollback = true)) ∧
    (∀ (k : Nat) (s : State), s.hasTile k = true →
      s.canReset k = false →
      exec (.tileReset k) s = .next s) ∧
    (∀ (p : Nat) (s : State), s.hasPort p = true →
      s.hostUp p = true →
      Yields (exec (.flr p) s) (fun t => ∀ c ∈ t.host.cmds, c.port = p → c.started = true ∧ c.dropped = true)) ∧
    (∀ (p : Nat) (s : State), s.hasPort p = true →
      exec (.perst p false) s = .next (s.setPort p { s.port p with perstLow := false })) ∧
    (∀ (p : Nat) (s : State), s.hasPort p = true →
      (s.port p).perstLow = false →
      s.pwr.st = .up →
      s.pwr.islands = true →
      s.dual = true →
      (s.port (1 - p)).perstLow = false →
      Yields (exec (.perst p true) s) (fun t => (t.port p).linkUp = false ∧ (t.port p).perstLow = true ∧ t.pwr.lastReset = s.pwr.lastReset ∧ t.pwr.islands = true)) ∧
    (∀ (p : Nat) (s : State), s.hasPort p = true →
      (s.port p).perstLow = false →
      s.pwr.st = .up →
      s.pwr.islands = true →
      s.dual = false →
      Yields (exec (.perst p true) s) (fun t => t.pwr.lastReset = s.lastAfter 1 ∧ t.pwr.islands = true ∧ t.cur.primary = none)) ∧
    (∀ (p : Nat) (s : State), s.hasPort p = true →
      (s.port p).linkUp = true →
      Yields (exec (.hostLinkLoss p) s) (fun t => (t.port p).linkUp = false ∧ t.passClosed p 0 = true)) ∧
    (∀ (p : Nat) (s : State), s.hasPort p = true →
      (s.port p).linkUp = false →
      exec (.hostLinkLoss p) s = .next s) ∧
    (∀ (p : Nat) (a b : Byte) (m f : Bool) (s : State), s.hasPort p = true →
      s.canTrain p = true →
      exec (.hostLinkUp p a b m f) s = .next (s.setPort p { s.port p with linkUp := true, speed := a, width := b, msixEn := m, fmask := f })) ∧
    (∀ (p : Nat) (a b : Byte) (m f : Bool) (s : State), s.hasPort p = true →
      s.canTrain p = false →
      exec (.hostLinkUp p a b m f) s = .next s)

/-- POWER_STATE starts the transition asked for or is refused, P1 and P0 are entered, P3 waits for durability and is
abandoned at its timeout, boot reports ready. POWER_STATE of a code above 3 is refused, of the current state it
answers at once; where nothing refuses it, P1 starts a transition whose command ends later. A transition to P1 ends in
P1 once the agents are quiet, one to P0 ends in P0; P3 waits until its epoch is durable, and at its timeout the
transition ends in P0. Work returns P1 to P0. Boot of an UP part that is not ready, its scans done, reports ready and
starts the auto-close timer. Rests on R478, R479, R480, R482, R483, R491, R492; assumptions 74, 82. -/
def Obligations.PowerStatesAndBoot : Prop :=
    (∀ (c : Ctx) (n : Byte) (s : State), s.accepts 0x44 c (powerStateParams n) = true →
      4 ≤ n.toNat →
      exec (.powerState c n) s = .next ((s.leaveHead 0x44 c).reply srcCurator c .param 0)) ∧
    (∀ (c : Ctx) (n : Byte) (s : State), s.accepts 0x44 c (powerStateParams n) = true →
      n.toNat < 4 →
      s.isState n.toNat = true →
      exec (.powerState c n) s = .next ((s.leaveHead 0x44 c).reply srcCurator c .done n.toNat)) ∧
    (∀ (c : Ctx) (s : State), s.accepts 0x44 c (powerStateParams 1) = true →
      s.isState 1 = false →
      s.powerRefused 1 = false →
      Yields (exec (.powerState c 1) s) (fun t => t.pwr.trans = some { target := .p1, ctx := some c, sealAt := 0, began := s.now, replied := false } ∧ t.pwr.pwr = s.pwr.pwr)) ∧
    (∀ (c : Ctx) (s : State), s.accepts 0x44 c (powerStateParams 1) = true →
      s.isState 1 = false →
      s.powerRefused 1 = true →
      exec (.powerState c 1) s = .next ((s.leaveHead 0x44 c).reply srcCurator c .state 0)) ∧
    (∀ (x : Transition) (s : State), s.pwr.st = .up →
      s.pwr.trans = some x →
      x.target = .p1 →
      x.ctx = none ∨ s.cur.primary.isSome = true →
      s.flt.resetting = [] →
      s.agentsQuiet = true →
      Yields (exec .transitionDone s) (fun t => t.pwr.pwr = .p1 ∧ t.pwr.trans = none)) ∧
    (∀ (x : Transition) (s : State), s.pwr.st = .up →
      s.pwr.trans = some x →
      x.target = .p0 →
      x.ctx = none ∨ s.cur.primary.isSome = true →
      s.flt.resetting = [] →
      Yields (exec .transitionDone s) (fun t => t.pwr.pwr = .p0 ∧ t.pwr.trans = none)) ∧
    (∀ (x : Transition) (s : State), s.pwr.trans = some x →
      x.target = .p3 →
      s.epo.durable < x.sealAt →
      exec .transitionDone s = .next s) ∧
    (∀ (x : Transition) (s : State), s.pwr.st = .up →
      s.pwr.trans = some x →
      s.durTimeout x = true →
      Yields (exec .p3DurabilityTimeout s) (fun t => t.pwr.trans = none ∧ t.pwr.pwr = .p0)) ∧
    (∀ (s : State), s.pwr.trans = none →
      exec .p3DurabilityTimeout s = .next s ∧ exec .transitionDone s = .next s) ∧
    (∀ (s : State), s.pwr.st = .up →
      s.pwr.pwr = .p1 →
      Yields (exec .p1Wake s) (fun t => t.pwr.pwr = .p0 ∧ t.coh = s.coh ∧ t.epo = s.epo)) ∧
    (∀ (s : State), s.pwr.pwr ≠ .p1 →
      exec .p1Wake s = .next s) ∧
    (∀ (b : BootEnv) (s : State), s.pwr.st = .up →
      s.pwr.islands = true →
      s.pwr.pwr = .p0 →
      s.pwr.ready = false →
      s.pwr.strapBad = false →
      s.scansDone = true →
      Yields (exec (.bootReady b) s) (fun t => t.pwr.ready = true ∧ t.pwr.scanning = false ∧ t.epo.autoStart = s.now)) ∧
    (∀ (b : BootEnv) (s : State), s.pwr.ready = true →
      exec (.bootReady b) s = .next s)

/-- A conversion is kept and raises the level it reaches, a sensor out of range or silent is broken, DDR5 refresh follows
its temperature, the power-down wait ends. A conversion in range of a working sensor on a tile below 115 °C is kept,
and at 95 °C or more the tile's level is at least 1, at 105 °C or more at least 2. A reading above 150 °C breaks its
sensor with cause 2, and 3 ms without a conversion with cause 3. MR4 sets the refresh rate of its controller by R441.
The orderly power-down program goes to the shut-down program once its epoch is durable or 1 s has passed, and waits
until then. Rests on R434, R435, R437, R439, R441, R472; assumption 35. -/
def Obligations.SensorsAndRefresh : Prop :=
    (∀ (k i : Nat) (r : Int) (s : State), s.hasTile k = true →
      i < 8 →
      s.pwr.vaonOk = true →
      (s.sensor k i).enabled = true →
      (s.sensor k i).broken = false →
      (s.sensor k i).same < 4095 →
      -320 ≤ r →
      r < 920 →
      (List.range 8).all (fun j => decide ((s.sensor k j).reading < 920)) = true →
      Yields (exec (.sensorConvert k i r) s) (fun t => (t.sensor k i).reading = r ∧ (t.sensor k i).convAt = s.now ∧ (t.sensor k i).broken = false ∧ (760 ≤ r → 1 ≤ t.levelOf k) ∧ (840 ≤ r → 2 ≤ t.levelOf k))) ∧
    (∀ (k i : Nat) (r : Int) (s : State), s.hasTile k = true →
      i < 8 →
      s.pwr.vaonOk = true →
      (s.sensor k i).enabled = false →
      Yields (exec (.sensorConvert k i r) s) (fun t => (t.sensor k i).reading = r ∧ t.thm.level = s.thm.level ∧ t.anl = s.anl)) ∧
    (∀ (k i : Nat) (r : Int) (s : State), s.hasTile k = true →
      i < 8 →
      s.pwr.vaonOk = true →
      (s.sensor k i).enabled = true →
      (s.sensor k i).broken = false →
      1200 < r →
      (List.range 8).all (fun j => decide ((s.sensor k j).reading < 920)) = true →
      Yields (exec (.sensorConvert k i r) s) (fun t => (t.sensor k i).broken = true ∧ (t.sensor k i).cause = 2)) ∧
    (∀ (k i : Nat) (s : State), s.hasTile k = true →
      i < 8 →
      s.pwr.vaonOk = true →
      (s.sensor k i).enabled = true →
      (s.sensor k i).broken = false →
      (s.sensor k i).convAt + 3000000 ≤ s.now →
      (List.range 8).all (fun j => decide ((s.sensor k j).reading < 920)) = true →
      Yields (exec (.conversionMissed k i) s) (fun t => (t.sensor k i).broken = true ∧ (t.sensor k i).cause = 3)) ∧
    (∀ (k i : Nat) (s : State), s.hasTile k = true →
      i < 8 →
      s.now < (s.sensor k i).convAt + 3000000 →
      exec (.conversionMissed k i) s = .next s) ∧
    (∀ (k i : Nat) (c : Int) (a : Bool) (s : State), s.hasTile k = true →
      i < 2 →
      s.coreUp = true →
      s.ungated k = true →
      (List.range 8).all (fun j => decide ((s.sensor k j).reading < 920)) = true →
      Yields (exec (.ddrTempPoll k i c a) s) (fun t => t.ddrRate k i = nextRate (s.ddrRate k i) c ∧ (tget (fun _ => (0 : BitVec 2)) t.thm.ddrForced k).getLsbD i = a ∧ (a = true → 2 ≤ t.levelOf k))) ∧
    (∀ (k i : Nat) (c : Int) (a : Bool) (s : State), s.hasTile k = true →
      i < 2 →
      s.coreUp = false ∨ s.ungated k = false →
      exec (.ddrTempPoll k i c a) s = .next s) ∧
    (∀ (n x : Nat) (s : State), s.pwr.down = some (n, x) →
      n ≠ 0 →
      n ≤ s.epo.durable →
      Yields (exec .powerdownWaitEnd s) (fun t => t.pwr.st = .falling ∧ t.pwr.step = s.pwr.prog.sdEntry ∧ t.pwr.down = none)) ∧
    (∀ (n x : Nat) (s : State), s.pwr.down = some (n, x) →
      s.epo.durable < n →
      s.now < x + 1000000000 →
      exec .powerdownWaitEnd s = .next s)

/-- PMC_CFG takes an allowed setting only, counters are set and cleared, and a freeze, thaw or snapshot acts on every
running tile at its time T. A write of PMC_CFG that R498 allows is stored, any other is refused. PMC_CNT sets one half
of a counter and leaves the other; clears take every counter of the tile to 0. A freeze of a part that counts, a thaw
of a frozen one and a snapshot are scheduled 2,000 ns on; where one is scheduled already the write is refused, and a
freeze of a frozen part has no effect. At T a running tile freezes, counts again or copies its counters, and its done
bit is set. Rests on R496, R498, R502, R503, R504, R505, R506; assumption 84. -/
def Obligations.CountersAreProgrammedAndFrozen : Prop :=
    (∀ (p k i : Nat) (w : Word) (s : State), s.takesWrite p = true →
      s.hasTile k = true →
      i < 64 →
      s.cfgAllowed k i w.toNat = true →
      Yields (exec (.pmcCfgWrite p k i w) s) (fun t => cfgOn (t.reg .pmcCfg k i) = cfgOn w.toNat ∧ cfgLevel (t.reg .pmcCfg k i) = cfgLevel w.toNat ∧ cfgEvent (t.reg .pmcCfg k i) = cfgEvent w.toNat ∧ cfgInst (t.reg .pmcCfg k i) = cfgInst w.toNat)) ∧
    (∀ (p k i : Nat) (w : Word) (s : State), s.takesWrite p = true →
      s.hasTile k = true →
      i < 64 →
      s.cfgAllowed k i w.toNat = false →
      exec (.pmcCfgWrite p k i w) s = .next (s.commitStore.refusedWrite k p (pmcCfgOff k i) w.toNat)) ∧
    (∀ (p k i : Nat) (w : Word) (s : State), s.takesWrite p = true →
      s.hasTile k = true →
      i < 64 →
      Yields (exec (.pmcCntWrite p k i false w) s) (fun t => tget (fun _ => 0) t.pmc.cnt (64 * k + i) % 2 ^ 32 = w.toNat ∧ tget (fun _ => 0) t.pmc.cnt (64 * k + i) / 2 ^ 32 = tget (fun _ => 0) s.pmc.cnt (64 * k + i) / 2 ^ 32)) ∧
    (∀ (p k i : Nat) (w : Word) (s : State), s.takesWrite p = true →
      s.hasTile k = true →
      i < 64 →
      Yields (exec (.pmcCntWrite p k i true w) s) (fun t => tget (fun _ => 0) t.pmc.cnt (64 * k + i) / 2 ^ 32 = w.toNat ∧ tget (fun _ => 0) t.pmc.cnt (64 * k + i) % 2 ^ 32 = tget (fun _ => 0) s.pmc.cnt (64 * k + i) % 2 ^ 32)) ∧
    (∀ (p k : Nat) (s : State), s.takesWrite p = true →
      s.hasTile k = true →
      Yields (exec (.clearTd p k) s) (fun t => (∀ j ∈ List.range 96, tget (fun _ => 0) t.pmc.td (96 * k + j) = 0) ∧ t.pmc.cnt = s.pmc.cnt)) ∧
    (∀ (p k : Nat) (s : State), s.takesWrite p = true →
      s.hasTile k = true →
      Yields (exec (.clearProg p k) s) (fun t => (∀ j ∈ List.range 64, tget (fun _ => 0) t.pmc.cnt (64 * k + j) = 0) ∧ t.pmc.td = s.pmc.td)) ∧
    (∀ (p : Nat) (s : State), s.takesWrite p = true →
      s.pmc.busy = false →
      s.pmc.frozen = false →
      Yields (exec (.freeze p) s) (fun t => t.pmc.busy = true ∧ t.pmc.done = 0 ∧ t.pmc.action = some { freeze := true, thaw := false, snap := false, t := s.now + 2000, acted := [] }) ∧ exec (.thaw p) s = .next s.commitStore) ∧
    (∀ (p : Nat) (s : State), s.takesWrite p = true →
      s.pmc.busy = false →
      s.pmc.frozen = true →
      Yields (exec (.thaw p) s) (fun t => t.pmc.busy = true ∧ t.pmc.done = 0 ∧ t.pmc.action = some { freeze := false, thaw := true, snap := false, t := s.now + 2000, acted := [] }) ∧ exec (.freeze p) s = .next s.commitStore) ∧
    (∀ (p : Nat) (s : State), s.takesWrite p = true →
      s.pmc.busy = false →
      Yields (exec (.snap p) s) (fun t => t.pmc.busy = true ∧ t.pmc.done = 0 ∧ t.pmc.action = some { freeze := false, thaw := false, snap := true, t := s.now + 2000, acted := [] })) ∧
    (∀ (p : Nat) (s : State), s.takesWrite p = true →
      s.pmc.busy = true →
      exec (.freeze p) s = .next (s.commitStore.refusedWrite 0 p pmcFreezeOff 1) ∧ exec (.thaw p) s = .next (s.commitStore.refusedWrite 0 p pmcFreezeOff 2) ∧ exec (.snap p) s = .next (s.commitStore.refusedWrite 0 p pmcFreezeOff 4)) ∧
    (∀ (k : Nat) (a : PmcAction) (s : State), s.hasTile k = true →
      k < 8 →
      s.tileRuns k = true →
      s.pmc.action = some a →
      a.t ≤ s.now →
      s.now ≤ a.t + 4000 →
      a.acted.contains k = false →
      Yields (exec (.pmcActionAtT k) s) (fun t => t.pmc.done.getLsbD k = true ∧ (a.freeze = true → t.pmc.frozenT.getLsbD k = true) ∧ (a.freeze = false → a.thaw = true → t.pmc.frozenT.getLsbD k = false)
        ∧ (a.snap = true → ∀ i ∈ List.range 64, tget (fun _ => 0) t.pmc.snapCnt (64 * k + i) = tget (fun _ => 0) s.pmc.cnt (64 * k + i)))) ∧
    (∀ (k : Nat) (a : PmcAction) (s : State), s.hasTile k = true →
      s.pmc.action = some a →
      s.now < a.t →
      exec (.pmcActionAtT k) s = .next s)

/-- A step at a state with a command at the front of its queue is exec of that command on the state with the rest of the
queue. For every command c, queue rest and state s, step of s with c at the front of its queue is exec of c on s with
the queue rest. The queue is the model's own (assumption 2); the rules of the spec are what exec gives. Rests on R20,
R52; assumption 2. -/
def Obligations.StepRunsTheFrontCommand : Prop :=
    (∀ (c : Instr) (rest : List Instr) (s : State), step { s with pending := c :: rest } = exec c { s with pending := rest })

/-- With no command waiting, a step tries again what had to wait, then counts one nanosecond of time (assumptions 1 and
99, the model's choice). A step on an empty queue gives what had to wait its next try; of the state that leaves, it
adds 1 to the 64-bit part time, the counters in level mode count the cycles of that nanosecond, and nothing else
changes. That a step is a nanosecond, and that what waits is tried then, is the model's choice (assumptions 1 and 99).
Rests on R11, R496; assumptions 1, 99. -/
def Obligations.AnEmptyQueueIdles : Prop :=
    (∀ (s : State), s.pending = [] →
      step s = .next { s.tend with now := (s.tend.now + 1) % 2 ^ 64, pmc := s.tend.levels.pmc })

/-- After a power-on reset the rings, windows, ports, routes and regions are at their reset states, epoch 1 is open with D
= 0, and the fuses are in order. State.reset has part time 0, no ring enabled, no window registered, every stream port
DISABLED, every route EMPTY, every region CLOSED, every near-cache line in I, epoch 1 open with nothing durable and no
rollback, no command waiting, and the sequencer in DOWN with every enable low. The fuse invariant holds of it. The
member, the straps and the lifecycle state of State.reset are the model's choice (assumptions 7 and 8). Rests on R11,
R43, R94, R201, R252, R281, R308, R471; assumptions 7, 8, 16, 89. -/
def Obligations.ResetLeavesThePartOff : Prop :=
    (State.reset.now = 0 ∧ (∀ i, (tget (fun _ => ({} : Sq)) State.reset.host.sqs i).enable = false) ∧ (∀ i, (tget (fun _ => ({} : Cq)) State.reset.host.cqs i).enable = false)
      ∧ (∀ p w, (State.reset.win p w).enable = false) ∧ (∀ k p, (State.reset.sport k p).st = .disabled) ∧ (∀ k r, (State.reset.route k r).st = .empty)
      ∧ (∀ k p r, (State.reset.region k p r).st = .closed) ∧ (∀ k l, (State.reset.nc k l).st = .i)) ∧
    (State.reset.epo.openE = 1 ∧ State.reset.epo.durable = 0 ∧ State.reset.epo.rollback = false ∧ State.reset.pending = []
      ∧ State.reset.pwr.st = .down ∧ State.reset.pwr.en = 0 ∧ State.reset.fusesOk = true)

/-- Every step keeps the fuses in order: a root key is left, the root generation is at most 63, and the returns to OPEN
are at most 31. For every state whose fuses are in order (the root generation at most 63, the returns from SEALED to
OPEN at most 31, not every root key revoked), a step that answers a next state leaves them in order, whichever command
it runs. Rests on R433, R449, R456, R461. -/
def Obligations.FusesStayInOrder : Prop :=
    (∀ (s t : State), s.fusesOk = true →
      step s = .next t →
      t.fusesOk = true)

/-- Only LIFECYCLE and TAMPER_TRIP move the lifecycle, along the transitions there are; a root key stays revoked; only POR
samples the straps. A command that changes the lifecycle state is LIFECYCLE or TAMPER_TRIP. LIFECYCLE moves it only
from BLANK to OPEN, OPEN to SEALED, SEALED to OPEN, or OPEN or SEALED to SCRAPPED; TAMPER_TRIP only to SCRAPPED. No
command restores a revoked root key. Outside BLANK no command lowers the root generation of a part whose fuses are in
order. No command but POR changes the sampled straps. Rests on R455, R456, R460, R461, R484, R488. -/
def Obligations.LifecycleAndStrapsMoveOnlyByTheirOwn : Prop :=
    (∀ (c : Instr) (s t : State), exec c s = .next t →
      t.cur.lifecycle ≠ s.cur.lifecycle →
      (∃ p x, c = .lifecycle p x) ∨ (∃ k i r, c = .tamperTrip k i r)) ∧
    (∀ (p : Nat) (x : Token) (s t : State), exec (.lifecycle p x) s = .next t →
      t.cur.lifecycle = s.cur.lifecycle ∨ (s.cur.lifecycle, t.cur.lifecycle) ∈ [(Life.blank, Life.opened), (.opened, .sealed), (.sealed, .opened), (.opened, .scrapped), (.sealed, .scrapped)]) ∧
    (∀ (k i : Nat) (r : DWord) (s t : State), exec (.tamperTrip k i r) s = .next t →
      t.cur.lifecycle = s.cur.lifecycle ∨ t.cur.lifecycle = .scrapped) ∧
    (∀ (c : Instr) (s t : State), exec c s = .next t →
      s.cur.revoked &&& ~~~t.cur.revoked = 0) ∧
    (∀ (c : Instr) (s t : State), exec c s = .next t →
      s.fusesOk = true →
      s.cur.lifecycle ≠ .blank →
      s.cur.rootGen ≤ t.cur.rootGen) ∧
    (∀ (c : Instr) (s t : State), c ≠ .por →
      exec c s = .next t →
      t.pwr.straps = s.pwr.straps)

/-- No command changes the queue or the member of the family, and a step takes exactly the command at the front. Whatever
command runs, exec leaves the waiting commands and the member as they were, and only POR moves part time; no command
leaves one of the marks by which an operation of the model waits as a whole (assumption 99); a step that runs a
command leaves the rest of the queue. Rests on R1, R11; assumptions 1, 2, 99. -/
def Obligations.CommandsLeaveTheQueueAndMember : Prop :=
    (∀ (c : Instr) (s t : State), exec c s = .next t →
      t.pending = s.pending ∧ t.member = s.member) ∧
    (∀ (c : Instr) (s t : State), c ≠ .por →
      exec c s = .next t →
      t.now = s.now) ∧
    (∀ (c : Instr) (s t : State), s.cat.stuck = false →
      s.cat.forged = none →
      exec c s = .next t →
      t.cat.stuck = false ∧ t.cat.forged = none) ∧
    (∀ (c : Instr) (rest : List Instr) (s t : State), s.pending = c :: rest →
      step s = .next t →
      t.pending = rest)

/-- A write of PART_RESET with the key 0x5741 and warm starts a WARM reset; any other write is ignored and recorded as
0x5001. On a running part, a write of PART_RESET whose key field is 0x5741 and whose warm bit is 1 starts a WARM
reset: the last reset is WARM and no Curator is primary until it has restarted. Any other write changes nothing but
what recording 0x5001 changes. Rests on R486. -/
def Obligations.PartResetTakesItsKey : Prop :=
    (∀ (p : Nat) (w : Word) (s : State), s.takesWrite p = true →
      s.pwr.st = .up →
      s.pwr.islands = true →
      s.pwr.ready = true →
      bits w.toNat 31 16 = 0x5741 ∧ bits w.toNat 0 0 = 1 →
      Yields (exec (.warmReset p w) s) (fun t => t.pwr.lastReset = 2 ∧ t.pwr.warmBoot = true ∧ t.pwr.ready = false ∧ t.cur.primary = none)) ∧
    (∀ (p : Nat) (w : Word) (s : State), s.takesWrite p = true →
      ¬(bits w.toNat 31 16 = 0x5741 ∧ bits w.toNat 0 0 = 1) →
      Yields (exec (.warmReset p w) s) (fun t => t = s.commitStore.annal 0 { code := 0x5001, addr := 8, value := w.toNat, aux := p } ∧ t.pwr = s.pwr ∧ t.cur = s.cur ∧ t.host = s.host))

/-- A command that names a port of a tile which SLK_BOND does not define completes with 02h/0Ah. Each command that names a
stream port of a tile (ROUTE_DEFINE, CAPTURE_OPEN, CAPTURE_CLOSE, CAPTURE_DRAIN, and ROUTE_ARM through the route's
definition), once accepted with its reserved bits 0, answers 02h/0Ah and does nothing else where the tile has no port
of that number. Rests on R240. -/
def Obligations.CommandsNameBondedPorts : Prop :=
    (∀ (c : Ctx) (k : Byte) (r : BitVec 16) (w n : Word) (l : BitVec 16) (p : Byte) (o : SlotRead) (h : HostData) (s : State), s.accepts 0x20 c (routeDefineParams k r w n l p) = true →
      s.hasSport k.toNat p.toNat = false →
      exec (.routeDefine c k r w n l p o h) s = .next (s.reply srcInterp c ⟨2, 0x0A⟩ 0)) ∧
    (∀ (c : Ctx) (k p r f : Byte) (v : BitVec 16) (a n : DWord) (s : State), s.accepts 0x28 c (captureOpenParams k p r f v a n) = true →
      f.toNat < 4 →
      a.toNat < 2 ^ 49 →
      s.hasSport k.toNat p.toNat = false →
      exec (.captureOpen c k p r f v a n) s = .next (s.reply srcInterp c ⟨2, 0x0A⟩ 0)) ∧
    (∀ (c : Ctx) (k p r m : Byte) (s : State), s.accepts 0x29 c (captureCloseParams k p r m) = true →
      s.hasSport k.toNat p.toNat = false →
      exec (.captureClose c k p r m) s = .next (s.reply srcInterp c ⟨2, 0x0A⟩ 0)) ∧
    (∀ (c : Ctx) (k p r : Byte) (s : State), s.accepts 0x2A c (captureDrainParams k p r) = true →
      s.hasSport k.toNat p.toNat = false →
      (s.reply srcInterp c ⟨2, 0x0A⟩ 0).cat.stuck = false →
      (s.reply srcInterp c ⟨2, 0x0A⟩ 0).cat.forged = none →
      exec (.captureDrain c k p r) s = .next (s.reply srcInterp c ⟨2, 0x0A⟩ 0).tellFaults.undoTriggers) ∧
    (∀ (c : Ctx) (k : Byte) (r v : BitVec 16) (m : Byte) (d : RouteDef) (s : State), s.accepts 0x21 c (routeArmParams k r v m) = true →
      s.hasTile k.toNat = true →
      r.toNat < 1024 →
      (s.route k.toNat r.toNat).defn = some d →
      s.hasSport k.toNat d.port = false →
      exec (.routeArm c k r v m) s = .next (s.reply (srcStream k.toNat) c ⟨2, 0x0A⟩ 0))

/-- Each command of the host, epoch, Catalogue and media families changes only the groups of state named for it. For every
command from IDENTIFY to the media and SRAM scrubs, in the table's order: where exec answers a next state, every group
of state not named for the command is as it was (the queue and the member always). A group holds one chapter's state;
the register table and the sent outputs are groups of their own. Rests on R53, R61, R94, R108, R151; assumptions 2,
25. -/
def Obligations.FramesOfHostAndMediaCommands : Prop :=
    (∀ (c : Ctx) (cns tile : Byte) (slot : Word) (own : SlotRead) (s : State),
      Keeps (exec (.identify c cns tile slot own) s) [.regs, .host, .anl, .cur, .pmc, .out] s) ∧
    (∀ (c : Ctx) (fid : Byte) (s : State),
      Keeps (exec (.getFeature c fid) s) [.regs, .host, .cur, .pmc, .out] s) ∧
    (∀ (c : Ctx) (fid : Byte) (value : DWord) (s : State),
      Keeps (exec (.setFeature c fid value) s) [.regs, .host, .epo, .med, .cur, .pmc, .out] s) ∧
    (∀ (c : Ctx) (pa : DWord) (len slot : Word) (own : SlotRead) (env : MediaEnv) (s : State),
      Keeps (exec (.readX c pa len slot own env) s) [.regs, .host, .epo, .cat, .med, .coh, .lnk, .cap, .cry, .flt, .anl, .cur, .pwr, .pmc, .out, .net, .freeCtr] s) ∧
    (∀ (c : Ctx) (pa : DWord) (len slot : Word) (own : SlotRead) (data : HostData) (env : MediaEnv) (s : State),
      Keeps (exec (.writeX c pa len slot own data env) s) [.regs, .host, .epo, .cat, .med, .coh, .lnk, .cap, .cry, .flt, .anl, .cur, .pwr, .pmc, .out, .net, .freeCtr] s) ∧
    (∀ (c : Ctx) (src dst len : DWord) (env : MediaEnv) (s : State),
      Keeps (exec (.copy c src dst len env) s) [.regs, .host, .epo, .cat, .med, .coh, .lnk, .cap, .cry, .flt, .anl, .cur, .pwr, .pmc, .out, .net, .freeCtr] s) ∧
    (∀ (c : Ctx) (pa len : DWord) (env : MediaEnv) (s : State),
      Keeps (exec (.zeroRange c pa len env) s) [.regs, .host, .epo, .cat, .med, .coh, .lnk, .cap, .cry, .flt, .anl, .cur, .pwr, .pmc, .out, .net, .freeCtr] s) ∧
    (∀ (c : Ctx) (pa len : DWord) (s : State),
      Keeps (exec (.discard c pa len) s) [.regs, .host, .epo, .cat, .lnk, .cap, .cry, .flt, .anl, .cur, .pwr, .pmc, .out, .freeCtr] s) ∧
    (∀ (c : Ctx) (pa len : DWord) (s : State),
      Keeps (exec (.flushRange c pa len) s) [.regs, .host, .epo, .cat, .coh, .lnk, .cap, .cry, .flt, .anl, .cur, .pwr, .pmc, .out, .net, .freeCtr] s) ∧
    (∀ (c : Ctx) (pa len : DWord) (s : State),
      Keeps (exec (.invalRange c pa len) s) [.regs, .host, .epo, .cat, .coh, .lnk, .cap, .cry, .flt, .anl, .cur, .pwr, .pmc, .out, .net, .freeCtr] s) ∧
    (∀ (c : Ctx) (mode : Byte) (s : State),
      Keeps (exec (.epochClose c mode) s) [.regs, .host, .epo, .anl, .cur, .pmc, .out] s) ∧
    (∀ (c : Ctx) (mode : Byte) (s : State),
      Keeps (exec (.epochQuery c mode) s) [.regs, .host, .anl, .cur, .pmc, .out] s) ∧
    (∀ (c : Ctx) (tile : Byte) (route : BitVec 16) (slot count : Word) (latency : BitVec 16) (port : Byte) (own : SlotRead) (data : HostData) (s : State),
      Keeps (exec (.routeDefine c tile route slot count latency port own data) s) [.regs, .host, .rte, .anl, .cur, .pmc, .out] s) ∧
    (∀ (c : Ctx) (tile : Byte) (route vector : BitVec 16) (start : Byte) (s : State),
      Keeps (exec (.routeArm c tile route vector start) s) [.regs, .host, .rte, .anl, .cur, .pmc, .out] s) ∧
    (∀ (c : Ctx) (tile : Byte) (route : BitVec 16) (mode : Byte) (s : State),
      Keeps (exec (.routeRetire c tile route mode) s) [.regs, .host, .lnk, .rte, .anl, .cur, .pmc, .out] s) ∧
    (∀ (c : Ctx) (tile : Byte) (pa : DWord) (lines : Word) (env : MediaEnv) (s : State),
      Keeps (exec (.pinLines c tile pa lines env) s) [.regs, .host, .epo, .cat, .med, .coh, .lnk, .cap, .cry, .flt, .anl, .cur, .pwr, .pmc, .out, .net, .freeCtr] s) ∧
    (∀ (c : Ctx) (tile : Byte) (pa : DWord) (lines : Word) (s : State),
      Keeps (exec (.unpinLines c tile pa lines) s) [.regs, .host, .epo, .cat, .coh, .lnk, .cap, .cry, .flt, .anl, .cur, .pwr, .pmc, .out, .net, .freeCtr] s) ∧
    (∀ (c : Ctx) (tile port region flags : Byte) (vector : BitVec 16) (pa len : DWord) (s : State),
      Keeps (exec (.captureOpen c tile port region flags vector pa len) s) [.regs, .host, .cap, .cur, .pmc, .out] s) ∧
    (∀ (c : Ctx) (tile port region mode : Byte) (s : State),
      Keeps (exec (.captureClose c tile port region mode) s) [.regs, .host, .epo, .cap, .anl, .cur, .pmc, .out] s) ∧
    (∀ (c : Ctx) (tile port region : Byte) (s : State),
      Keeps (exec (.captureDrain c tile port region) s) [.regs, .host, .epo, .cat, .coh, .lnk, .cap, .cry, .flt, .anl, .cur, .pwr, .pmc, .out, .net, .freeCtr] s) ∧
    (∀ (c : Ctx) (log tile : Byte) (slot : Word) (own : SlotRead) (offset : DWord) (s : State),
      Keeps (exec (.getLog c log tile slot own offset) s) [.regs, .host, .anl, .cur, .pmc, .out] s) ∧
    (∀ (c : Ctx) (log tile : Byte) (slot : Word) (tok : Token) (s : State),
      Keeps (exec (.clearLog c log tile slot tok) s) [.regs, .host, .flt, .anl, .cur, .pmc, .out] s) ∧
    (∀ (c : Ctx) (tile sensor : Byte) (s : State),
      Keeps (exec (.sensorRead c tile sensor) s) [.regs, .host, .cur, .pmc, .out, .freeCtr] s) ∧
    (∀ (c : Ctx) (tile : Byte) (source : BitVec 12) (slot : Word) (tok : Token) (mask : DWord) (count : BitVec 16) (s : State),
      Keeps (exec (.faultInject c tile source slot tok mask count) s) [.regs, .host, .flt, .anl, .cur, .pmc, .out] s) ∧
    (∀ (c : Ctx) (state : Byte) (s : State),
      Keeps (exec (.powerState c state) s) [.regs, .host, .epo, .cur, .pwr, .pmc, .out] s) ∧
    (∀ (c : Ctx) (slot : Word) (own : SlotRead) (offset : Word) (flags : Byte) (data : HostData) (sigOk : Bool) (s : State),
      Keeps (exec (.fwStage c slot own offset flags data sigOk) s) [.regs, .host, .anl, .cur, .pmc, .out] s) ∧
    (∀ (c : Ctx) (mode : Byte) (s : State),
      Keeps (exec (.fwActivate c mode) s) [.regs, .host, .epo, .cat, .med, .coh, .lnk, .rte, .cap, .cry, .flt, .anl, .cur, .pwr, .pmc, .out, .net, .freeCtr] s) ∧
    (∀ (c : Ctx) (slot : Word) (own : SlotRead) (nonce : BitVec 256) (reserveOk : Bool) (s : State),
      Keeps (exec (.attest c slot own nonce reserveOk) s) [.regs, .host, .anl, .cur, .pmc, .out, .freeCtr] s) ∧
    (∀ (c : Ctx) (kid : Byte) (pa len : DWord) (s : State),
      Keeps (exec (.keyCreate c kid pa len) s) [.regs, .host, .epo, .cat, .med, .coh, .cap, .cry, .flt, .anl, .cur, .pmc, .out, .net, .freeCtr] s) ∧
    (∀ (c : Ctx) (kid : Byte) (slot : Word) (tok : Token) (s : State),
      Keeps (exec (.keyRetire c kid slot tok) s) [.regs, .host, .epo, .cat, .med, .coh, .cap, .cry, .flt, .anl, .cur, .pmc, .out, .net, .freeCtr] s) ∧
    (∀ (c : Ctx) (kid master rights : Byte) (s : State),
      Keeps (exec (.rightsSet c kid master rights) s) [.regs, .host, .cry, .cur, .pmc, .out] s) ∧
    (∀ (c : Ctx) (tile : Byte) (slot : Word) (own : SlotRead) (s : State),
      Keeps (exec (.spareStatus c tile slot own) s) [.regs, .host, .anl, .cur, .pmc, .out] s) ∧
    (∀ (c : Ctx) (spare : Byte) (slot : Word) (tok : Token) (s : State),
      Keeps (exec (.format c spare slot tok) s) [.regs, .host, .epo, .cat, .med, .coh, .cap, .cry, .flt, .anl, .cur, .pmc, .out, .net, .freeCtr] s) ∧
    (∀ (c : Ctx) (action tile channel target : Byte) (slot : Word) (own : SlotRead) (data : HostData) (s : State),
      Keeps (exec (.mediaProfile c action tile channel target slot own data) s) [.regs, .host, .med, .anl, .cur, .pmc, .out] s) ∧
    (∀ (port : Nat) (tok : Token) (s : State),
      Keeps (exec (.lifecycle port tok) s) [.regs, .host, .epo, .cat, .med, .coh, .cap, .cry, .flt, .anl, .cur, .pmc, .out, .net, .freeCtr] s) ∧
    (∀ (port : Nat) (tok : Token) (s : State),
      Keeps (exec (.sensorDisable port tok) s) [.regs, .host, .epo, .cat, .med, .coh, .lnk, .rte, .cap, .cry, .flt, .anl, .cur, .thm, .pwr, .pmc, .out, .net] s) ∧
    (∀ (port : Nat) (s : State),
      Keeps (exec (.roleSwap port) s) [.regs, .host, .anl, .cur, .out, .freeCtr] s) ∧
    (∀ (port : Nat) (key : BitVec 544) (s : State),
      Keeps (exec (.ownerSet port key) s) [.regs, .cur] s) ∧
    (∀ (port : Nat) (tok : Token) (s : State),
      Keeps (exec (.rootRevoke port tok) s) [.regs, .cur] s) ∧
    (∀ (port : Nat) (s : State),
      Keeps (exec (.mbClaim port) s) [.unstored, .cur] s) ∧
    (∀ (port : Nat) (s : State),
      Keeps (exec (.mbRelease port) s) [.unstored, .cur] s) ∧
    (∀ (s : State),
      Keeps (exec .mbIdleTimeout s) [.cur] s) ∧
    (∀ (port : Nat) (offset : BitVec 24) (size : Nat) (value : DWord) (s : State),
      Keeps (exec (.registerWrite port offset size value) s) [.regs, .unstored, .host, .epo, .cat, .med, .coh, .lnk, .rte, .cap, .cry, .flt, .anl, .cur, .thm, .pwr, .pmc, .out, .net, .freeCtr] s) ∧
    (∀ (port sq : Nat) (tail : BitVec 12) (s : State),
      Keeps (exec (.sqDoorbell port sq tail) s) [.regs, .unstored, .host, .anl, .out] s) ∧
    (∀ (port cq : Nat) (head : BitVec 12) (s : State),
      Keeps (exec (.cqDoorbell port cq head) s) [.regs, .unstored, .host, .anl, .pmc, .out] s) ∧
    (∀ (port sq : Nat) (value : Word) (s : State),
      Keeps (exec (.sqCfgWrite port sq value) s) [.regs, .unstored, .host, .anl, .out] s) ∧
    (∀ (port cq : Nat) (value : Word) (s : State),
      Keeps (exec (.cqCfgWrite port cq value) s) [.regs, .unstored, .host, .anl, .pmc, .out] s) ∧
    (∀ (port : Nat) (s : State),
      Keeps (exec (.fetchResume port) s) [.regs, .unstored, .host, .anl, .cur, .pwr, .pmc, .out] s) ∧
    (∀ (port : Nat) (s : State),
      Keeps (exec (.sqFetchIssue port) s) [.host, .out] s) ∧
    (∀ (port sq first : Nat) (entries : List Fetched) (s : State),
      Keeps (exec (.sqFetchReturn port sq first entries) s) [.regs, .host, .anl, .cur, .pwr, .pmc, .out] s) ∧
    (∀ (port sq : Nat) (s : State),
      Keeps (exec (.fencedCommandStart port sq) s) [.regs, .host, .anl, .cur, .pwr, .pmc, .out] s) ∧
    (∀ (s : State),
      Keeps (exec .curatorCommandExecute s) [.cur] s) ∧
    (∀ (port : Nat) (credit : Bool) (s : State),
      Keeps (exec (.completionCollect port credit) s) [.host, .pmc, .out] s) ∧
    (∀ (port cq : Nat) (s : State),
      Keeps (exec (.cqCoalTimer port cq) s) [.host, .out] s) ∧
    (∀ (port vector : Nat) (s : State),
      Keeps (exec (.msixPendingSend port vector) s) [.host, .out] s) ∧
    (∀ (port win : Nat) (value : Word) (s : State),
      Keeps (exec (.xwWinCfgWrite port win value) s) [.regs, .unstored, .host, .anl] s) ∧
    (∀ (port win : Nat) (s : State),
      Keeps (exec (.windowDrainEnd port win) s) [.host] s) ∧
    (∀ (port : Nat) (value : Word) (s : State),
      Keeps (exec (.dwAptWrite port value) s) [.regs, .unstored] s) ∧
    (∀ (port : Nat) (offset : DWord) (len : Nat) (env : MediaEnv) (s : State),
      Keeps (exec (.dwRead port offset len env) s) [.regs, .host, .epo, .cat, .med, .coh, .lnk, .cap, .cry, .flt, .anl, .cur, .pwr, .pmc, .out, .net, .freeCtr] s) ∧
    (∀ (port : Nat) (offset : DWord) (bytes : List (Option Byte)) (env : MediaEnv) (s : State),
      Keeps (exec (.dwStore port offset bytes env) s) [.regs, .host, .epo, .cat, .med, .coh, .lnk, .cap, .cry, .flt, .anl, .cur, .pwr, .pmc, .out, .net, .freeCtr] s) ∧
    (∀ (port : Nat) (s : State),
      Keeps (exec (.epoCtrlClose port) s) [.unstored, .host, .epo] s) ∧
    (∀ (s : State),
      Keeps (exec .autoCloseExpiry s) [.epo] s) ∧
    (∀ (tile : Nat) (s : State),
      Keeps (exec (.sealArrive tile) s) [.regs, .epo, .cat, .med, .coh, .rte, .cap, .cry, .flt, .anl, .pmc, .out, .net, .freeCtr] s) ∧
    (∀ (tile : Nat) (s : State),
      Keeps (exec (.sealReport tile) s) [.regs, .host, .epo, .cat, .med, .coh, .rte, .cap, .cry, .flt, .anl, .cur, .pwr, .pmc, .out, .net, .freeCtr] s) ∧
    (∀ (tile : Nat) (s : State),
      Keeps (exec (.sealWalkStep tile) s) [.epo, .coh, .pmc, .net] s) ∧
    (∀ (tile : Nat) (s : State),
      Keeps (exec (.markerWrite tile) s) [.regs, .host, .epo, .cat, .rte, .cap, .cur, .pmc, .out] s) ∧
    (∀ (s : State),
      Keeps (exec .abortStart s) [.regs, .host, .epo, .anl, .cur, .pmc, .out, .freeCtr] s) ∧
    (∀ (s : State),
      Keeps (exec .rollbackEnd s) [.regs, .host, .epo, .cat, .med, .coh, .lnk, .rte, .cap, .cry, .flt, .anl, .cur, .pwr, .pmc, .out, .net, .freeCtr] s) ∧
    (∀ (s : State),
      Keeps (exec .coordinatorTakeover s) [.regs, .host, .epo, .cap, .cur, .pwr, .out] s) ∧
    (∀ (s : State),
      Keeps (exec .coordinatorTakeback s) [.epo] s) ∧
    (∀ (s : State),
      Keeps (exec .partTimeFailover s) [.epo] s) ∧
    (∀ (tile spn : Nat) (pieces : List Piece) (pad : Nat) (s : State),
      Keeps (exec (.stripeProgram tile spn pieces pad) s) [.regs, .host, .epo, .cat, .med, .lnk, .cap, .cry, .flt, .anl, .cur, .pwr, .pmc, .out, .freeCtr] s) ∧
    (∀ (tile spn : Nat) (s : State),
      Keeps (exec (.stripeProgramDone tile spn) s) [.regs, .host, .epo, .cat, .med, .lnk, .cap, .cry, .flt, .anl, .cur, .pwr, .pmc, .out, .freeCtr] s) ∧
    (∀ (tile : Nat) (s : State),
      Keeps (exec (.coolingSweep tile) s) [.cat] s) ∧
    (∀ (tile folio spn slot : Nat) (s : State),
      Keeps (exec (.folioMerge tile folio spn slot) s) [.regs, .cat, .med] s) ∧
    (∀ (tile victim dest spn : Nat) (s : State),
      Keeps (exec (.weedRelocate tile victim dest spn) s) [.regs, .cat, .med] s) ∧
    (∀ (tile : Nat) (ok : Bool) (s : State),
      Keeps (exec (.relocVerifyDone tile ok) s) [.regs, .host, .cat, .med, .cry, .anl, .pmc, .out, .freeCtr] s) ∧
    (∀ (tile : Nat) (ok : Bool) (s : State),
      Keeps (exec (.relocEraseDone tile ok) s) [.regs, .host, .cat, .med, .anl, .out, .freeCtr] s) ∧
    (∀ (tile : Nat) (s : State),
      Keeps (exec (.lostScanDone tile) s) [.regs, .cat, .cry, .pmc, .out, .freeCtr] s) ∧
    (∀ (tile : Nat) (s : State),
      Keeps (exec (.rebuildScan tile) s) [.regs, .cat, .med, .cry, .pwr, .pmc, .out, .freeCtr] s) ∧
    (∀ (tile ch : Nat) (s : State),
      Keeps (exec (.slotGrant tile ch) s) [.regs, .epo, .cat, .med, .coh, .cap, .cry, .flt, .anl, .pmc, .out, .net, .freeCtr] s) ∧
    (∀ (tile : Nat) (s : State),
      Keeps (exec (.phaseStart tile) s) [.regs, .med, .pmc, .out] s) ∧
    (∀ (tile : Nat) (ends : List OpStatus) (s : State),
      Keeps (exec (.phaseStatusCheck tile ends) s) [.regs, .host, .epo, .cat, .med, .anl, .pmc, .out] s) ∧
    (∀ (tile ch target block : Nat) (prog : Bool) (s : State),
      Keeps (exec (.stretchExpiry tile ch target block prog) s) [.regs, .host, .epo, .cat, .med, .cap, .flt, .anl, .cur, .pwr, .pmc, .out, .freeCtr] s) ∧
    (∀ (tile line : Nat) (s : State),
      Keeps (exec (.lineReadDispatch tile line) s) [.regs, .epo, .cat, .med, .coh, .cap, .cry, .flt, .anl, .pmc, .out, .net, .freeCtr] s) ∧
    (∀ (tile line ch : Nat) (ecc : Ecc) (kidOk tagOk : Bool) (s : State),
      Keeps (exec (.codewordDecoded tile line ch ecc kidOk tagOk) s) [.regs, .host, .epo, .cat, .med, .coh, .lnk, .cap, .cry, .flt, .anl, .cur, .pwr, .pmc, .out, .net, .freeCtr] s) ∧
    (∀ (tile ch line : Nat) (s : State),
      Keeps (exec (.rescueHoldTimeout tile ch line) s) [.med] s) ∧
    (∀ (tile ch target : Nat) (eighths : Int) (s : State),
      Keeps (exec (.mediaTempPoll tile ch target eighths) s) [.regs, .host, .epo, .cat, .med, .coh, .lnk, .rte, .cap, .cry, .flt, .anl, .cur, .thm, .pwr, .pmc, .out, .net] s) ∧
    (∀ (tile ch target : Nat) (crc thermal : Bool) (s : State),
      Keeps (exec (.mediaAlert tile ch target crc thermal) s) [.regs, .host, .epo, .cat, .med, .coh, .lnk, .rte, .cap, .cry, .flt, .anl, .cur, .thm, .pwr, .pmc, .out, .net, .freeCtr] s) ∧
    (∀ (tile ch block : Nat) (corrected : List (Nat × Nat)) (s : State),
      Keeps (exec (.calibrationRead tile ch block corrected) s) [.regs, .epo, .cat, .med, .out] s) ∧
    (∀ (tile ch block spn : Nat) (ecc : Ecc) (forged : Option (Nat × Nat)) (s : State),
      Keeps (exec (.mediaScrubRead tile ch block spn ecc forged) s) [.regs, .host, .epo, .cat, .med, .lnk, .cap, .cry, .flt, .anl, .cur, .pwr, .pmc, .out, .freeCtr] s) ∧
    (∀ (tile block : Nat) (ecc : Ecc) (s : State),
      Keeps (exec (.ddrScrubStep tile block ecc) s) [.regs, .host, .epo, .cat, .med, .lnk, .cap, .cry, .flt, .anl, .cur, .pwr, .pmc, .out, .freeCtr] s) ∧
    (∀ (tile array way : Nat) (dirty : Bool) (ecc : Ecc) (s : State),
      Keeps (exec (.sramScrubStep tile array way dirty ecc) s) [.regs, .host, .epo, .cat, .med, .coh, .lnk, .cap, .cry, .flt, .anl, .cur, .pwr, .pmc, .out, .net, .freeCtr] s)

/-- Each command of the coherence, stream, capture, fault, Curator, power and counter families changes only the groups of
state named for it. For every command from the home requests to the Curator's restart, in the table's order: where
exec answers a next state, every group of state not named for the command is as it was. Rests on R198, R249, R286,
R312, R344, R403, R426, R464, R496; assumption 2. -/
def Obligations.FramesOfLinkAndPartCommands : Prop :=
    (∀ (src line : Nat) (env : MediaEnv) (peers : List Nat) (s : State),
      Keeps (exec (.reqReadS src line env peers) s) [.regs, .host, .epo, .cat, .med, .coh, .lnk, .cap, .cry, .flt, .anl, .cur, .pwr, .pmc, .out, .net, .freeCtr] s) ∧
    (∀ (src line : Nat) (env : MediaEnv) (peers : List Nat) (s : State),
      Keeps (exec (.reqReadX src line env peers) s) [.regs, .host, .epo, .cat, .med, .coh, .lnk, .cap, .cry, .flt, .anl, .cur, .pwr, .pmc, .out, .net, .freeCtr] s) ∧
    (∀ (src line : Nat) (env : MediaEnv) (peers : List Nat) (s : State),
      Keeps (exec (.upgrade src line env peers) s) [.regs, .host, .epo, .cat, .med, .coh, .lnk, .cap, .cry, .flt, .anl, .cur, .pwr, .pmc, .out, .net, .freeCtr] s) ∧
    (∀ (src line epoch : Nat) (peers : List Nat) (s : State),
      Keeps (exec (.claim src line epoch peers) s) [.regs, .host, .epo, .cat, .med, .coh, .lnk, .cap, .cry, .flt, .anl, .cur, .pwr, .pmc, .out, .net, .freeCtr] s) ∧
    (∀ (src line : Nat) (c : Content) (s : State),
      Keeps (exec (.evict src line c) s) [.regs, .host, .epo, .cat, .med, .coh, .lnk, .cap, .cry, .flt, .anl, .cur, .pwr, .pmc, .out, .net, .freeCtr] s) ∧
    (∀ (src line : Nat) (c : Content) (s : State),
      Keeps (exec (.writeback src line c) s) [.regs, .host, .epo, .cat, .med, .coh, .lnk, .cap, .cry, .flt, .anl, .cur, .pwr, .pmc, .out, .net, .freeCtr] s) ∧
    (∀ (dst line : Nat) (s : State),
      Keeps (exec (.snpS dst line) s) [.coh, .net] s) ∧
    (∀ (dst line : Nat) (s : State),
      Keeps (exec (.snpI dst line) s) [.coh, .net] s) ∧
    (∀ (dst line : Nat) (s : State),
      Keeps (exec (.snpF dst line) s) [.coh, .pmc, .net] s) ∧
    (∀ (dst line : Nat) (g : Grant) (c : Content) (s : State),
      Keeps (exec (.data dst line g c) s) [.regs, .host, .epo, .cat, .med, .coh, .lnk, .cap, .cry, .flt, .anl, .cur, .pwr, .pmc, .out, .net, .freeCtr] s) ∧
    (∀ (dst line : Nat) (s : State),
      Keeps (exec (.grant dst line) s) [.regs, .host, .epo, .cat, .med, .coh, .lnk, .cap, .cry, .flt, .anl, .cur, .pwr, .pmc, .out, .net, .freeCtr] s) ∧
    (∀ (dst line : Nat) (s : State),
      Keeps (exec (.nack dst line) s) [.coh, .pmc, .net] s) ∧
    (∀ (dst line : Nat) (s : State),
      Keeps (exec (.nackResend dst line) s) [.coh, .net] s) ∧
    (∀ (dst line num : Nat) (s : State),
      Keeps (exec (.ticket dst line num) s) [.coh, .pmc, .net] s) ∧
    (∀ (dst line : Nat) (s : State),
      Keeps (exec (.evictAck dst line) s) [.regs, .host, .epo, .cat, .med, .coh, .lnk, .cap, .cry, .flt, .anl, .cur, .pwr, .pmc, .out, .net, .freeCtr] s) ∧
    (∀ (dst line : Nat) (s : State),
      Keeps (exec (.wbAck dst line) s) [.regs, .epo, .cat, .med, .coh, .cap, .cry, .flt, .anl, .pmc, .out, .net, .freeCtr] s) ∧
    (∀ (src line : Nat) (s : State),
      Keeps (exec (.ackNp src line) s) [.regs, .host, .epo, .cat, .med, .coh, .lnk, .cap, .cry, .flt, .anl, .cur, .pwr, .pmc, .out, .net, .freeCtr] s) ∧
    (∀ (src line : Nat) (kind : AckKind) (c : Option Content) (s : State),
      Keeps (exec (.ackI src line kind c) s) [.regs, .host, .epo, .cat, .med, .coh, .lnk, .cap, .cry, .flt, .anl, .cur, .pwr, .pmc, .out, .net, .freeCtr] s) ∧
    (∀ (src line : Nat) (c : Content) (s : State),
      Keeps (exec (.ackD src line c) s) [.regs, .host, .epo, .cat, .med, .coh, .lnk, .cap, .cry, .flt, .anl, .cur, .pwr, .pmc, .out, .net, .freeCtr] s) ∧
    (∀ (src line : Nat) (s : State),
      Keeps (exec (.gone src line) s) [.regs, .host, .epo, .cat, .med, .coh, .lnk, .cap, .cry, .flt, .anl, .cur, .pwr, .pmc, .out, .net, .freeCtr] s) ∧
    (∀ (src line : Nat) (s : State),
      Keeps (exec (.done src line) s) [.regs, .host, .epo, .cat, .med, .coh, .lnk, .cap, .cry, .flt, .anl, .cur, .pwr, .pmc, .out, .net, .freeCtr] s) ∧
    (∀ (tile line : Nat) (s : State),
      Keeps (exec (.victimEvict tile line) s) [.regs, .epo, .cat, .med, .coh, .cap, .cry, .flt, .anl, .pmc, .out, .net, .freeCtr] s) ∧
    (∀ (port tile : Nat) (value : Word) (s : State),
      Keeps (exec (.ncLockWrite port tile value) s) [.regs, .unstored, .host, .epo, .cat, .coh, .lnk, .cap, .cry, .flt, .anl, .cur, .pwr, .pmc, .out, .net, .freeCtr] s) ∧
    (∀ (tile line : Nat) (s : State),
      Keeps (exec (.pinnedRefill tile line) s) [.regs, .epo, .cat, .med, .coh, .cap, .cry, .flt, .anl, .pmc, .out, .net, .freeCtr] s) ∧
    (∀ (tile entry : Nat) (s : State),
      Keeps (exec (.landingReeval tile entry) s) [.regs, .host, .rte, .out] s) ∧
    (∀ (port tile : Nat) (value : Word) (s : State),
      Keeps (exec (.slkBondWrite port tile value) s) [.regs, .unstored, .host, .lnk, .rte, .cap, .anl, .out] s) ∧
    (∀ (port tile sp : Nat) (value : Word) (s : State),
      Keeps (exec (.slkPortCfgWrite port tile sp value) s) [.regs, .unstored, .host, .lnk, .rte, .cap, .anl, .out] s) ∧
    (∀ (port tile sp i : Nat) (value : Word) (s : State),
      Keeps (exec (.slkGcmKeyWrite port tile sp i value) s) [.regs, .unstored, .lnk] s) ∧
    (∀ (port tile sp : Nat) (s : State),
      Keeps (exec (.rekey port tile sp) s) [.unstored, .lnk, .pmc, .out, .freeCtr] s) ∧
    (∀ (tile sp : Nat) (s : State),
      Keeps (exec (.portResetDone tile sp) s) [.lnk] s) ∧
    (∀ (tile sp : Nat) (s : State),
      Keeps (exec (.signalDetect tile sp) s) [.regs, .lnk, .out, .freeCtr] s) ∧
    (∀ (tile sp lane : Nat) (control : BitVec 128) (inverted rxGood : Bool) (s : State),
      Keeps (exec (.eqFrame tile sp lane control inverted rxGood) s) [.regs, .lnk, .out, .freeCtr] s) ∧
    (∀ (tile sp : Nat) (s : State),
      Keeps (exec (.eqTimeout tile sp) s) [.regs, .host, .epo, .lnk, .rte, .cap, .flt, .anl, .cur, .pwr, .pmc, .out, .freeCtr] s) ∧
    (∀ (tile sp lane : Nat) (marker : BitVec 40) (phase : Byte) (s : State),
      Keeps (exec (.lockMarker tile sp lane marker phase) s) [.lnk, .out, .freeCtr] s) ∧
    (∀ (tile sp : Nat) (s : State),
      Keeps (exec (.lockTimeout tile sp) s) [.regs, .host, .epo, .lnk, .rte, .cap, .flt, .anl, .cur, .pwr, .pmc, .out, .freeCtr] s) ∧
    (∀ (tile sp : Nat) (f : Flit) (s : State),
      Keeps (exec (.config tile sp f) s) [.regs, .host, .epo, .lnk, .rte, .cap, .flt, .anl, .cur, .pwr, .pmc, .out, .freeCtr] s) ∧
    (∀ (tile sp : Nat) (f : Flit) (s : State),
      Keeps (exec (.configAck tile sp f) s) [.regs, .host, .epo, .lnk, .rte, .cap, .flt, .anl, .cur, .pwr, .pmc, .out, .freeCtr] s) ∧
    (∀ (tile sp : Nat) (s : State),
      Keeps (exec (.configRepeat tile sp) s) [.lnk, .out] s) ∧
    (∀ (tile sp : Nat) (s : State),
      Keeps (exec (.configTimeout tile sp) s) [.lnk, .out] s) ∧
    (∀ (tile sp : Nat) (cause : Byte) (s : State),
      Keeps (exec (.retrain tile sp cause) s) [.regs, .host, .epo, .lnk, .rte, .cap, .flt, .anl, .cur, .pwr, .pmc, .out, .freeCtr] s) ∧
    (∀ (tile sp : Nat) (f : Flit) (s : State),
      Keeps (exec (.idle tile sp f) s) [.regs, .host, .epo, .lnk, .rte, .cap, .flt, .anl, .cur, .pwr, .pmc, .out, .freeCtr] s) ∧
    (∀ (tile sp cycle : Nat) (f : Flit) (s : State),
      Keeps (exec (.req tile sp cycle f) s) [.regs, .host, .epo, .lnk, .rte, .cap, .flt, .anl, .cur, .pwr, .pmc, .out, .freeCtr] s) ∧
    (∀ (tile sp : Nat) (f : Flit) (s : State),
      Keeps (exec (.cap tile sp f) s) [.regs, .host, .epo, .lnk, .rte, .cap, .flt, .anl, .cur, .pwr, .pmc, .out, .freeCtr] s) ∧
    (∀ (tile sp : Nat) (f : Flit) (s : State),
      Keeps (exec (.tag tile sp f) s) [.regs, .host, .epo, .lnk, .rte, .cap, .flt, .anl, .cur, .pwr, .pmc, .out, .freeCtr] s) ∧
    (∀ (tile sp : Nat) (f : Flit) (s : State),
      Keeps (exec (.rekeyReceive tile sp f) s) [.regs, .host, .epo, .lnk, .rte, .cap, .flt, .anl, .cur, .pwr, .pmc, .out, .freeCtr] s) ∧
    (∀ (tile sp : Nat) (f : Flit) (s : State),
      Keeps (exec (.retrainReceive tile sp f) s) [.regs, .host, .epo, .lnk, .rte, .cap, .flt, .anl, .cur, .pwr, .pmc, .out, .freeCtr] s) ∧
    (∀ (tile sp : Nat) (b : BadFlit) (s : State),
      Keeps (exec (.badFlit tile sp b) s) [.regs, .host, .epo, .lnk, .rte, .cap, .flt, .anl, .cur, .pwr, .pmc, .out, .freeCtr] s) ∧
    (∀ (tile sp : Nat) (s : State),
      Keeps (exec (.tagTimeout tile sp) s) [.regs, .host, .epo, .lnk, .rte, .cap, .flt, .anl, .cur, .pwr, .pmc, .out, .freeCtr] s) ∧
    (∀ (tile sp : Nat) (s : State),
      Keeps (exec (.rekeyTimeout tile sp) s) [.regs, .host, .epo, .lnk, .rte, .cap, .flt, .anl, .cur, .pwr, .pmc, .out, .freeCtr] s) ∧
    (∀ (tile sp : Nat) (s : State),
      Keeps (exec (.gcmGroupClose tile sp) s) [.lnk, .pmc, .out] s) ∧
    (∀ (tile sp cycle : Nat) (s : State),
      Keeps (exec (.dataFlitSend tile sp cycle) s) [.regs, .host, .epo, .cat, .med, .coh, .lnk, .rte, .cap, .cry, .flt, .anl, .pmc, .out, .net, .freeCtr] s) ∧
    (∀ (tile sp : Nat) (s : State),
      Keeps (exec (.switchTakeEffect tile sp) s) [.regs, .host, .lnk, .rte, .pmc, .out] s) ∧
    (∀ (tile sp : Nat) (env : MediaEnv) (s : State),
      Keeps (exec (.prefetchRead tile sp env) s) [.regs, .host, .epo, .cat, .med, .coh, .lnk, .rte, .cap, .cry, .flt, .anl, .cur, .pwr, .pmc, .out, .net, .freeCtr] s) ∧
    (∀ (tile sp line : Nat) (_c : Content) (s : State),
      Keeps (exec (.lineArrive tile sp line _c) s) [.regs, .host, .epo, .cat, .med, .coh, .rte, .cap, .cry, .flt, .anl, .cur, .pwr, .pmc, .out, .net, .freeCtr] s) ∧
    (∀ (tile route : Nat) (s : State),
      Keeps (exec (.retireComplete tile route) s) [.regs, .host, .rte, .out] s) ∧
    (∀ (tile sp : Nat) (upset : BitVec 82) (s : State),
      Keeps (exec (.ingestRead tile sp upset) s) [.regs, .host, .epo, .cat, .coh, .lnk, .cap, .cry, .flt, .anl, .cur, .pwr, .pmc, .out, .net, .freeCtr] s) ∧
    (∀ (tile sp region : Nat) (s : State),
      Keeps (exec (.recordCommit tile sp region) s) [.regs, .host, .epo, .cat, .coh, .lnk, .cap, .cry, .flt, .anl, .cur, .pwr, .pmc, .out, .net, .freeCtr] s) ∧
    (∀ (home : Nat) (s : State),
      Keeps (exec (.homeStatePublish home) s) [.cap, .pmc] s) ∧
    (∀ (r : PassReset) (items : Nat) (writes : Bool) (s : State),
      Keeps (exec (.passReset r items writes) s) [.regs, .host, .epo, .cat, .med, .coh, .lnk, .rte, .cap, .cry, .flt, .anl, .cur, .pwr, .pmc, .out, .net, .freeCtr] s) ∧
    (∀ (tile pass : Nat) (s : State),
      Keeps (exec (.passReopen tile pass) s) [.med, .lnk, .cry] s) ∧
    (∀ (tile k : Nat) (crcOk : Bool) (s : State),
      Keeps (exec (.saddleFrame tile k crcOk) s) [.regs, .host, .epo, .coh, .cap, .flt, .anl, .cur, .pwr, .pmc, .out, .net, .freeCtr] s) ∧
    (∀ (tile sub block device : Nat) (ecc : Ecc) (macOk : Bool) (s : State),
      Keeps (exec (.ddrBurstRead tile sub block device ecc macOk) s) [.regs, .host, .epo, .cat, .med, .lnk, .cap, .cry, .flt, .anl, .cur, .pwr, .pmc, .out, .freeCtr] s) ∧
    (∀ (tile tract : Nat) (s : State),
      Keeps (exec (.tractFirstWrite tile tract) s) [.regs, .cry, .pmc, .out] s) ∧
    (∀ (tile leaf : Nat) (s : State),
      Keeps (exec (.minorOverflow tile leaf) s) [.regs, .cry, .pmc, .out] s) ∧
    (∀ (tile node : Nat) (s : State),
      Keeps (exec (.counterEvict tile node) s) [.cry, .pmc, .out] s) ∧
    (∀ (port tile : Nat) (s : State),
      Keeps (exec (.ddrRekey port tile) s) [.regs, .unstored, .cry, .freeCtr] s) ∧
    (∀ (tile : Nat) (s : State),
      Keeps (exec (.ddrRekeyDone tile) s) [.regs, .cry, .pmc, .out] s) ∧
    (∀ (kid : Nat) (s : State),
      Keeps (exec (.keyRotationDone kid) s) [.cry] s) ∧
    (∀ (tile k : Nat) (hottest : Int) (above : Bool) (s : State),
      Keeps (exec (.ddrTempPoll tile k hottest above) s) [.regs, .host, .epo, .cat, .med, .coh, .lnk, .rte, .cap, .cry, .flt, .anl, .cur, .thm, .pwr, .pmc, .out, .net] s) ∧
    (∀ (tile : Nat) (s : State),
      Keeps (exec (.haltBroadcastArrive tile) s) [.regs, .lnk, .cry] s) ∧
    (∀ (tile sensor : Nat) (reading : DWord) (s : State),
      Keeps (exec (.tamperTrip tile sensor reading) s) [.regs, .host, .cat, .lnk, .cry, .anl, .cur, .pmc, .out] s) ∧
    (∀ (tile source : Nat) (s : State),
      Keeps (exec (.faultWindowEnd tile source) s) [.flt] s) ∧
    (∀ (port tile source : Nat) (value : Word) (s : State),
      Keeps (exec (.fltSrcCfgWrite port tile source value) s) [.regs, .unstored, .flt, .anl] s) ∧
    (∀ (actor tile slot : Nat) (s : State),
      Keeps (exec (.escalationCancel actor tile slot) s) [.regs, .unstored, .host, .epo, .cap, .flt, .anl, .cur, .pwr, .pmc, .out, .freeCtr] s) ∧
    (∀ (actor tile slot : Nat) (s : State),
      Keeps (exec (.escalationNow actor tile slot) s) [.regs, .unstored, .host, .epo, .cap, .flt, .anl, .cur, .pwr, .pmc, .out, .freeCtr] s) ∧
    (∀ (tile slot : Nat) (s : State),
      Keeps (exec (.escalationExpiry tile slot) s) [.regs, .host, .epo, .cap, .flt, .anl, .cur, .pwr, .pmc, .out, .freeCtr] s) ∧
    (∀ (tile : Nat) (s : State),
      Keeps (exec (.tileReadyTimeout tile) s) [.regs, .host, .epo, .coh, .cap, .flt, .cur, .pwr, .out] s) ∧
    (∀ (port : Nat) (seq : Word) (s : State),
      Keeps (exec (.anlRdLoad port seq) s) [.regs, .unstored] s) ∧
    (∀ (cur tile : Nat) (flashOk : Bool) (s : State),
      Keeps (exec (.annalsMirror cur tile flashOk) s) [.regs, .host, .epo, .cap, .flt, .anl, .cur, .pwr, .pmc, .out, .freeCtr] s) ∧
    (∀ (s : State),
      Keeps (exec .spareSample s) [.anl, .thm] s) ∧
    (∀ (s : State),
      Keeps (exec .sensorHistorySample s) [.anl, .thm, .freeCtr] s) ∧
    (∀ (cur : Nat) (s : State),
      Keeps (exec (.heartbeat cur) s) [.cur] s) ∧
    (∀ (cause : BitVec 2) (s : State),
      Keeps (exec (.curatorTakeover cause) s) [.regs, .host, .epo, .cat, .med, .coh, .lnk, .rte, .cap, .cry, .flt, .anl, .cur, .pwr, .pmc, .out, .net, .freeCtr] s) ∧
    (∀ (s : State),
      Keeps (exec .standbySynced s) [.regs, .host, .epo, .cat, .med, .coh, .lnk, .rte, .cap, .cry, .flt, .anl, .cur, .pwr, .pmc, .out, .net, .freeCtr] s) ∧
    (∀ (tile sensor : Nat) (eighths : Int) (s : State),
      Keeps (exec (.sensorConvert tile sensor eighths) s) [.regs, .host, .epo, .cat, .med, .coh, .lnk, .rte, .cap, .cry, .flt, .anl, .cur, .thm, .pwr, .pmc, .out, .net, .freeCtr] s) ∧
    (∀ (s : State),
      Keeps (exec .powerdownWaitEnd s) [.regs, .host, .epo, .cat, .med, .coh, .lnk, .rte, .cap, .cry, .flt, .anl, .cur, .thm, .pwr, .pmc, .net] s) ∧
    (∀ (s : State),
      Keeps (exec .enable s) [.pwr] s) ∧
    (∀ (s : State),
      Keeps (exec .disable s) [.pwr] s) ∧
    (∀ (s : State),
      Keeps (exec .wait s) [.pwr] s) ∧
    (∀ (s : State),
      Keeps (exec .check s) [.regs, .host, .epo, .cat, .med, .coh, .lnk, .rte, .cap, .cry, .flt, .anl, .cur, .thm, .pwr, .pmc, .out, .net, .freeCtr] s) ∧
    (∀ (s : State),
      Keeps (exec .jumpStep s) [.pwr] s) ∧
    (∀ (s : State),
      Keeps (exec .seqEnd s) [.regs, .host, .epo, .cat, .med, .coh, .lnk, .rte, .cap, .cry, .flt, .anl, .cur, .thm, .pwr, .pmc, .out, .net] s) ∧
    (∀ (monitor mv : Nat) (s : State),
      Keeps (exec (.monitorScan monitor mv) s) [.regs, .host, .epo, .cat, .med, .coh, .lnk, .rte, .cap, .cry, .flt, .anl, .cur, .thm, .pwr, .pmc, .out, .net, .freeCtr] s) ∧
    (∀ (s : State),
      Keeps (exec .holdOffExpiry s) [.pwr] s) ∧
    (∀ (s : State),
      Keeps (exec .pwrOffReq s) [.regs, .host, .epo, .cat, .med, .coh, .lnk, .rte, .cap, .cry, .flt, .anl, .cur, .thm, .pwr, .pmc, .net] s) ∧
    (∀ (s : State),
      Keeps (exec .pwrOnReq s) [.pwr] s) ∧
    (∀ (s : State),
      Keeps (exec .supplyOkFall s) [.regs, .host, .epo, .cat, .med, .coh, .lnk, .rte, .cap, .cry, .flt, .anl, .cur, .thm, .pwr, .pmc, .net] s) ∧
    (∀ (s : State),
      Keeps (exec .supplyOkReturn s) [.pwr] s) ∧
    (∀ (s : State),
      Keeps (exec .vaonFall s) [.regs, .unstored, .host, .epo, .cat, .med, .coh, .lnk, .rte, .cap, .cry, .flt, .anl, .cur, .thm, .pwr, .pmc, .net] s) ∧
    (∀ (s : State),
      Keeps (exec .por s) [.now, .regs, .host, .epo, .cat, .med, .coh, .lnk, .rte, .cap, .cry, .flt, .anl, .cur, .thm, .pwr, .pmc, .out, .net, .freeCtr] s) ∧
    (∀ (s : State),
      Keeps (exec .coldReset s) [.regs, .host, .epo, .cat, .med, .coh, .lnk, .rte, .cap, .cry, .flt, .anl, .cur, .thm, .pwr, .pmc, .net] s) ∧
    (∀ (port : Nat) (value : Word) (s : State),
      Keeps (exec (.warmReset port value) s) [.regs, .unstored, .host, .epo, .cat, .med, .coh, .lnk, .rte, .cap, .cry, .flt, .anl, .cur, .thm, .pwr, .pmc, .out, .net] s) ∧
    (∀ (tile : Nat) (s : State),
      Keeps (exec (.tileReset tile) s) [.regs, .host, .epo, .cat, .med, .coh, .lnk, .rte, .cap, .cry, .flt, .anl, .cur, .pwr, .pmc, .out, .net, .freeCtr] s) ∧
    (∀ (port : Nat) (s : State),
      Keeps (exec (.flr port) s) [.regs, .host, .anl] s) ∧
    (∀ (port : Nat) (low : Bool) (s : State),
      Keeps (exec (.perst port low) s) [.regs, .host, .epo, .cat, .med, .coh, .lnk, .rte, .cap, .cry, .flt, .anl, .cur, .thm, .pwr, .pmc, .out, .net, .freeCtr] s) ∧
    (∀ (port : Nat) (s : State),
      Keeps (exec (.hostLinkLoss port) s) [.regs, .host, .epo, .cap, .cry, .flt, .anl, .cur, .pwr, .pmc, .out, .freeCtr] s) ∧
    (∀ (cur : Nat) (s : State),
      Keeps (exec (.curReset cur) s) [.regs, .host, .epo, .cat, .med, .coh, .lnk, .rte, .cap, .cry, .flt, .anl, .cur, .pwr, .pmc, .out, .net, .freeCtr] s) ∧
    (∀ (s : State),
      Keeps (exec .p1Wake s) [.regs, .host, .anl, .pwr, .out] s) ∧
    (∀ (s : State),
      Keeps (exec .p3DurabilityTimeout s) [.regs, .host, .lnk, .anl, .cur, .pwr, .out] s) ∧
    (∀ (s : State),
      Keeps (exec .transitionDone s) [.regs, .host, .epo, .cat, .med, .coh, .lnk, .rte, .cap, .cry, .flt, .anl, .cur, .thm, .pwr, .pmc, .out, .net] s) ∧
    (∀ (b : BootEnv) (s : State),
      Keeps (exec (.bootReady b) s) [.regs, .host, .epo, .cat, .med, .coh, .cap, .cry, .flt, .anl, .cur, .pwr, .pmc, .out, .freeCtr] s) ∧
    (∀ (port : Nat) (s : State),
      Keeps (exec (.seqCommit port) s) [.regs, .unstored, .anl, .pwr] s) ∧
    (∀ (flashOk : Bool) (s : State),
      Keeps (exec (.seqCommitDone flashOk) s) [.regs, .pwr] s) ∧
    (∀ (port tile i : Nat) (value : Word) (s : State),
      Keeps (exec (.pmcCfgWrite port tile i value) s) [.regs, .unstored, .anl] s) ∧
    (∀ (port tile i : Nat) (high : Bool) (value : Word) (s : State),
      Keeps (exec (.pmcCntWrite port tile i high value) s) [.unstored, .pmc] s) ∧
    (∀ (port tile : Nat) (s : State),
      Keeps (exec (.clearTd port tile) s) [.unstored, .pmc] s) ∧
    (∀ (port tile : Nat) (s : State),
      Keeps (exec (.clearProg port tile) s) [.unstored, .pmc] s) ∧
    (∀ (port : Nat) (s : State),
      Keeps (exec (.freeze port) s) [.regs, .unstored, .anl, .pmc] s) ∧
    (∀ (port : Nat) (s : State),
      Keeps (exec (.thaw port) s) [.regs, .unstored, .anl, .pmc] s) ∧
    (∀ (port : Nat) (s : State),
      Keeps (exec (.snap port) s) [.regs, .unstored, .anl, .pmc] s) ∧
    (∀ (tile : Nat) (s : State),
      Keeps (exec (.pmcActionAtT tile) s) [.pmc] s) ∧
    (∀ (tile sp lane : Nat) (s : State),
      Keeps (exec (.laneSignalTimeout tile sp lane) s) [.regs, .host, .epo, .lnk, .rte, .cap, .flt, .anl, .cur, .pwr, .pmc, .out, .freeCtr] s) ∧
    (∀ (tile sensor : Nat) (s : State),
      Keeps (exec (.conversionMissed tile sensor) s) [.regs, .host, .epo, .cat, .med, .coh, .lnk, .rte, .cap, .cry, .flt, .anl, .cur, .thm, .pwr, .pmc, .out, .net, .freeCtr] s) ∧
    (∀ (tile : Nat) (s : State),
      Keeps (exec (.tileReady tile) s) [.regs, .host, .med, .coh, .lnk, .flt, .anl, .out, .net] s) ∧
    (∀ (port : Nat) (speed width : Byte) (msixEn fmask : Bool) (s : State),
      Keeps (exec (.hostLinkUp port speed width msixEn fmask) s) [.host] s) ∧
    (∀ (s : State),
      Keeps (exec .resetNRelease s) [.regs, .lnk, .pwr] s) ∧
    (∀ (cur : Nat) (s : State),
      Keeps (exec (.fwRestartTimeout cur) s) [.regs, .host, .cur, .out] s) ∧
    (∀ (version : Word) (s : State),
      Keeps (exec (.curatorRestartDone version) s) [.regs, .host, .anl, .cur, .out, .freeCtr] s)

/-- A register command changes only its own registers and those that recording a refused write or raising an event
changes. For every ring, window, aperture, source, key, bonding, port, read-port, program, counter, mailbox-key,
tamper and rekey command named: where exec answers a next state, every register held as register bits, but those named
for the command, reads as before. ANL_SUPPR and ANL_UNMIRRORED are named where the command may record; HP_EVENT where
it may raise an event. Rests on R43, R75, R84, R239, R404, R424, R486, R498; assumption 23. -/
def Obligations.RegisterFrames : Prop :=
    (∀ (port sq : Nat) (tail : BitVec 12) (s : State),
      KeepsRegs (exec (.sqDoorbell port sq tail) s) [.anlSuppr, .anlUnmirrored, .hpEvent] s) ∧
    (∀ (port cq : Nat) (head : BitVec 12) (s : State),
      KeepsRegs (exec (.cqDoorbell port cq head) s) [.anlSuppr, .anlUnmirrored, .hpEvent] s) ∧
    (∀ (port sq : Nat) (value : Word) (s : State),
      KeepsRegs (exec (.sqCfgWrite port sq value) s) [.anlSuppr, .anlUnmirrored, .hpEvent] s) ∧
    (∀ (port cq : Nat) (value : Word) (s : State),
      KeepsRegs (exec (.cqCfgWrite port cq value) s) [.anlSuppr, .anlUnmirrored] s) ∧
    (∀ (port win : Nat) (value : Word) (s : State),
      KeepsRegs (exec (.xwWinCfgWrite port win value) s) [.anlSuppr, .anlUnmirrored] s) ∧
    (∀ (port : Nat) (value : Word) (s : State),
      KeepsRegs (exec (.dwAptWrite port value) s) [.dwApt] s) ∧
    (∀ (port tile source : Nat) (value : Word) (s : State),
      KeepsRegs (exec (.fltSrcCfgWrite port tile source value) s) [.anlSuppr, .anlUnmirrored] s) ∧
    (∀ (port tile sp i : Nat) (value : Word) (s : State),
      KeepsRegs (exec (.slkGcmKeyWrite port tile sp i value) s) [.slkGcmKey] s) ∧
    (∀ (port tile : Nat) (value : Word) (s : State),
      KeepsRegs (exec (.slkBondWrite port tile value) s) [.anlSuppr, .anlUnmirrored, .capRewound, .capRgnEvt, .rteRouteEvt, .slkBond, .slkLane] s) ∧
    (∀ (port tile sp : Nat) (value : Word) (s : State),
      KeepsRegs (exec (.slkPortCfgWrite port tile sp value) s) [.anlSuppr, .anlUnmirrored, .capRewound, .capRgnEvt, .rteRouteEvt, .slkLane, .slkPortCfg] s) ∧
    (∀ (port : Nat) (seq : Word) (s : State),
      KeepsRegs (exec (.anlRdLoad port seq) s) [.anlRdData, .anlRdSeq, .anlRdStat] s) ∧
    (∀ (port : Nat) (s : State),
      KeepsRegs (exec (.seqCommit port) s) [.anlSuppr, .anlUnmirrored, .seqCommit] s) ∧
    (∀ (flashOk : Bool) (s : State),
      KeepsRegs (exec (.seqCommitDone flashOk) s) [.seqCommit] s) ∧
    (∀ (port tile i : Nat) (value : Word) (s : State),
      KeepsRegs (exec (.pmcCfgWrite port tile i value) s) [.anlSuppr, .anlUnmirrored, .pmcCfg] s) ∧
    (∀ (port : Nat) (s : State),
      KeepsRegs (exec (.freeze port) s) [.anlSuppr, .anlUnmirrored] s) ∧
    (∀ (port : Nat) (s : State),
      KeepsRegs (exec (.thaw port) s) [.anlSuppr, .anlUnmirrored] s) ∧
    (∀ (port : Nat) (s : State),
      KeepsRegs (exec (.snap port) s) [.anlSuppr, .anlUnmirrored] s) ∧
    (∀ (port : Nat) (key : BitVec 544) (s : State),
      KeepsRegs (exec (.ownerSet port key) s) [.curMbResHi, .curMbResLo, .curMbRpl] s) ∧
    (∀ (port : Nat) (tok : Token) (s : State),
      KeepsRegs (exec (.rootRevoke port tok) s) [.curMbResHi, .curMbResLo, .curMbRpl] s) ∧
    (∀ (tile sensor : Nat) (reading : DWord) (s : State),
      KeepsRegs (exec (.tamperTrip tile sensor reading) s) [.anlSuppr, .anlUnmirrored, .cryMinorOvf, .curAlarmA1, .curTamperStat, .hpEvent, .slkLane] s) ∧
    (∀ (port tile : Nat) (s : State),
      KeepsRegs (exec (.ddrRekey port tile) s) [.cryRekeyPtr] s) ∧
    (∀ (tile : Nat) (s : State),
      KeepsRegs (exec (.ddrRekeyDone tile) s) [.cryMinorOvf, .cryRekeyPtr] s) ∧
    (∀ (s : State),
      KeepsRegs (exec (.p1Wake ) s) [.anlSuppr, .anlUnmirrored, .capBpUs, .hpEvent, .slkBond] s) ∧
    (∀ (tile line : Nat) (s : State),
      KeepsRegs (exec (.pinnedRefill tile line) s) [.anlSuppr, .anlUnmirrored, .cryMinorOvf, .cryTagRecon, .dirNotpresent, .dirOverflow, .medBusyrec, .medHedge, .medRecon, .medUnrec, .ncEvicts, .ncRefills] s) ∧
    (∀ (port : Nat) (s : State),
      KeepsRegs (exec (.fetchResume port) s) [.anlSuppr, .anlUnmirrored, .capBpUs, .hpEvent, .ringFlrDrops, .ringGctrl, .slkBond] s)
end

