-- ==== Sys2Proof/Laws/Keep.lean ====
section
/-! SUPPORT. A fold or a choice of steps that each keep a field keeps it. -/

namespace Sys2Proof.Machine

set_option Elab.async false
set_option linter.unusedTactic false
set_option linter.unusedSimpArgs false
set_option linter.unusedVariables false

@[simp] theorem ite_member (c : Prop) [Decidable c] (a b : State) :
    (if c then a else b).member = if c then a.member else b.member := by split <;> rfl

@[simp] theorem foldl_member (A : Type) (f : State → A → State) (h : ∀ s x, (f s x).member = s.member) (l : List A) (s : State) :
    (l.foldl f s).member = s.member := by
  induction l generalizing s with
  | nil => rfl
  | cons x l ih => rw [List.foldl_cons, ih, h]

@[simp] theorem foldr_member (A : Type) (f : A → State → State) (h : ∀ x s, (f x s).member = s.member) (l : List A) (s : State) :
    (l.foldr f s).member = s.member := by
  induction l with
  | nil => rfl
  | cons x l ih => rw [List.foldr_cons, h, ih]

@[simp] theorem foldl_snd_member (A B : Type) (f : B × State → A → B × State) (h : ∀ a x, (f a x).2.member = a.2.member) (l : List A) (a : B × State) :
    (l.foldl f a).2.member = a.2.member := by
  induction l generalizing a with
  | nil => rfl
  | cons x l ih => rw [List.foldl_cons, ih, h]

@[simp] theorem ite_now (c : Prop) [Decidable c] (a b : State) :
    (if c then a else b).now = if c then a.now else b.now := by split <;> rfl

@[simp] theorem foldl_now (A : Type) (f : State → A → State) (h : ∀ s x, (f s x).now = s.now) (l : List A) (s : State) :
    (l.foldl f s).now = s.now := by
  induction l generalizing s with
  | nil => rfl
  | cons x l ih => rw [List.foldl_cons, ih, h]

@[simp] theorem foldr_now (A : Type) (f : A → State → State) (h : ∀ x s, (f x s).now = s.now) (l : List A) (s : State) :
    (l.foldr f s).now = s.now := by
  induction l with
  | nil => rfl
  | cons x l ih => rw [List.foldr_cons, h, ih]

@[simp] theorem foldl_snd_now (A B : Type) (f : B × State → A → B × State) (h : ∀ a x, (f a x).2.now = a.2.now) (l : List A) (a : B × State) :
    (l.foldl f a).2.now = a.2.now := by
  induction l generalizing a with
  | nil => rfl
  | cons x l ih => rw [List.foldl_cons, ih, h]

@[simp] theorem ite_regs (c : Prop) [Decidable c] (a b : State) :
    (if c then a else b).regs = if c then a.regs else b.regs := by split <;> rfl

@[simp] theorem foldl_regs (A : Type) (f : State → A → State) (h : ∀ s x, (f s x).regs = s.regs) (l : List A) (s : State) :
    (l.foldl f s).regs = s.regs := by
  induction l generalizing s with
  | nil => rfl
  | cons x l ih => rw [List.foldl_cons, ih, h]

@[simp] theorem foldr_regs (A : Type) (f : A → State → State) (h : ∀ x s, (f x s).regs = s.regs) (l : List A) (s : State) :
    (l.foldr f s).regs = s.regs := by
  induction l with
  | nil => rfl
  | cons x l ih => rw [List.foldr_cons, h, ih]

@[simp] theorem foldl_snd_regs (A B : Type) (f : B × State → A → B × State) (h : ∀ a x, (f a x).2.regs = a.2.regs) (l : List A) (a : B × State) :
    (l.foldl f a).2.regs = a.2.regs := by
  induction l generalizing a with
  | nil => rfl
  | cons x l ih => rw [List.foldl_cons, ih, h]

@[simp] theorem ite_unstored (c : Prop) [Decidable c] (a b : State) :
    (if c then a else b).unstored = if c then a.unstored else b.unstored := by split <;> rfl

@[simp] theorem foldl_unstored (A : Type) (f : State → A → State) (h : ∀ s x, (f s x).unstored = s.unstored) (l : List A) (s : State) :
    (l.foldl f s).unstored = s.unstored := by
  induction l generalizing s with
  | nil => rfl
  | cons x l ih => rw [List.foldl_cons, ih, h]

@[simp] theorem foldr_unstored (A : Type) (f : A → State → State) (h : ∀ x s, (f x s).unstored = s.unstored) (l : List A) (s : State) :
    (l.foldr f s).unstored = s.unstored := by
  induction l with
  | nil => rfl
  | cons x l ih => rw [List.foldr_cons, h, ih]

@[simp] theorem foldl_snd_unstored (A B : Type) (f : B × State → A → B × State) (h : ∀ a x, (f a x).2.unstored = a.2.unstored) (l : List A) (a : B × State) :
    (l.foldl f a).2.unstored = a.2.unstored := by
  induction l generalizing a with
  | nil => rfl
  | cons x l ih => rw [List.foldl_cons, ih, h]

@[simp] theorem ite_host (c : Prop) [Decidable c] (a b : State) :
    (if c then a else b).host = if c then a.host else b.host := by split <;> rfl

@[simp] theorem foldl_host (A : Type) (f : State → A → State) (h : ∀ s x, (f s x).host = s.host) (l : List A) (s : State) :
    (l.foldl f s).host = s.host := by
  induction l generalizing s with
  | nil => rfl
  | cons x l ih => rw [List.foldl_cons, ih, h]

@[simp] theorem foldr_host (A : Type) (f : A → State → State) (h : ∀ x s, (f x s).host = s.host) (l : List A) (s : State) :
    (l.foldr f s).host = s.host := by
  induction l with
  | nil => rfl
  | cons x l ih => rw [List.foldr_cons, h, ih]

@[simp] theorem foldl_snd_host (A B : Type) (f : B × State → A → B × State) (h : ∀ a x, (f a x).2.host = a.2.host) (l : List A) (a : B × State) :
    (l.foldl f a).2.host = a.2.host := by
  induction l generalizing a with
  | nil => rfl
  | cons x l ih => rw [List.foldl_cons, ih, h]

@[simp] theorem ite_epo (c : Prop) [Decidable c] (a b : State) :
    (if c then a else b).epo = if c then a.epo else b.epo := by split <;> rfl

@[simp] theorem foldl_epo (A : Type) (f : State → A → State) (h : ∀ s x, (f s x).epo = s.epo) (l : List A) (s : State) :
    (l.foldl f s).epo = s.epo := by
  induction l generalizing s with
  | nil => rfl
  | cons x l ih => rw [List.foldl_cons, ih, h]

@[simp] theorem foldr_epo (A : Type) (f : A → State → State) (h : ∀ x s, (f x s).epo = s.epo) (l : List A) (s : State) :
    (l.foldr f s).epo = s.epo := by
  induction l with
  | nil => rfl
  | cons x l ih => rw [List.foldr_cons, h, ih]

@[simp] theorem foldl_snd_epo (A B : Type) (f : B × State → A → B × State) (h : ∀ a x, (f a x).2.epo = a.2.epo) (l : List A) (a : B × State) :
    (l.foldl f a).2.epo = a.2.epo := by
  induction l generalizing a with
  | nil => rfl
  | cons x l ih => rw [List.foldl_cons, ih, h]

@[simp] theorem ite_cat (c : Prop) [Decidable c] (a b : State) :
    (if c then a else b).cat = if c then a.cat else b.cat := by split <;> rfl

@[simp] theorem foldl_cat (A : Type) (f : State → A → State) (h : ∀ s x, (f s x).cat = s.cat) (l : List A) (s : State) :
    (l.foldl f s).cat = s.cat := by
  induction l generalizing s with
  | nil => rfl
  | cons x l ih => rw [List.foldl_cons, ih, h]

@[simp] theorem foldr_cat (A : Type) (f : A → State → State) (h : ∀ x s, (f x s).cat = s.cat) (l : List A) (s : State) :
    (l.foldr f s).cat = s.cat := by
  induction l with
  | nil => rfl
  | cons x l ih => rw [List.foldr_cons, h, ih]

@[simp] theorem foldl_snd_cat (A B : Type) (f : B × State → A → B × State) (h : ∀ a x, (f a x).2.cat = a.2.cat) (l : List A) (a : B × State) :
    (l.foldl f a).2.cat = a.2.cat := by
  induction l generalizing a with
  | nil => rfl
  | cons x l ih => rw [List.foldl_cons, ih, h]

@[simp] theorem ite_med (c : Prop) [Decidable c] (a b : State) :
    (if c then a else b).med = if c then a.med else b.med := by split <;> rfl

@[simp] theorem foldl_med (A : Type) (f : State → A → State) (h : ∀ s x, (f s x).med = s.med) (l : List A) (s : State) :
    (l.foldl f s).med = s.med := by
  induction l generalizing s with
  | nil => rfl
  | cons x l ih => rw [List.foldl_cons, ih, h]

@[simp] theorem foldr_med (A : Type) (f : A → State → State) (h : ∀ x s, (f x s).med = s.med) (l : List A) (s : State) :
    (l.foldr f s).med = s.med := by
  induction l with
  | nil => rfl
  | cons x l ih => rw [List.foldr_cons, h, ih]

@[simp] theorem foldl_snd_med (A B : Type) (f : B × State → A → B × State) (h : ∀ a x, (f a x).2.med = a.2.med) (l : List A) (a : B × State) :
    (l.foldl f a).2.med = a.2.med := by
  induction l generalizing a with
  | nil => rfl
  | cons x l ih => rw [List.foldl_cons, ih, h]

@[simp] theorem ite_coh (c : Prop) [Decidable c] (a b : State) :
    (if c then a else b).coh = if c then a.coh else b.coh := by split <;> rfl

@[simp] theorem foldl_coh (A : Type) (f : State → A → State) (h : ∀ s x, (f s x).coh = s.coh) (l : List A) (s : State) :
    (l.foldl f s).coh = s.coh := by
  induction l generalizing s with
  | nil => rfl
  | cons x l ih => rw [List.foldl_cons, ih, h]

@[simp] theorem foldr_coh (A : Type) (f : A → State → State) (h : ∀ x s, (f x s).coh = s.coh) (l : List A) (s : State) :
    (l.foldr f s).coh = s.coh := by
  induction l with
  | nil => rfl
  | cons x l ih => rw [List.foldr_cons, h, ih]

@[simp] theorem foldl_snd_coh (A B : Type) (f : B × State → A → B × State) (h : ∀ a x, (f a x).2.coh = a.2.coh) (l : List A) (a : B × State) :
    (l.foldl f a).2.coh = a.2.coh := by
  induction l generalizing a with
  | nil => rfl
  | cons x l ih => rw [List.foldl_cons, ih, h]

@[simp] theorem ite_lnk (c : Prop) [Decidable c] (a b : State) :
    (if c then a else b).lnk = if c then a.lnk else b.lnk := by split <;> rfl

@[simp] theorem foldl_lnk (A : Type) (f : State → A → State) (h : ∀ s x, (f s x).lnk = s.lnk) (l : List A) (s : State) :
    (l.foldl f s).lnk = s.lnk := by
  induction l generalizing s with
  | nil => rfl
  | cons x l ih => rw [List.foldl_cons, ih, h]

@[simp] theorem foldr_lnk (A : Type) (f : A → State → State) (h : ∀ x s, (f x s).lnk = s.lnk) (l : List A) (s : State) :
    (l.foldr f s).lnk = s.lnk := by
  induction l with
  | nil => rfl
  | cons x l ih => rw [List.foldr_cons, h, ih]

@[simp] theorem foldl_snd_lnk (A B : Type) (f : B × State → A → B × State) (h : ∀ a x, (f a x).2.lnk = a.2.lnk) (l : List A) (a : B × State) :
    (l.foldl f a).2.lnk = a.2.lnk := by
  induction l generalizing a with
  | nil => rfl
  | cons x l ih => rw [List.foldl_cons, ih, h]

@[simp] theorem ite_rte (c : Prop) [Decidable c] (a b : State) :
    (if c then a else b).rte = if c then a.rte else b.rte := by split <;> rfl

@[simp] theorem foldl_rte (A : Type) (f : State → A → State) (h : ∀ s x, (f s x).rte = s.rte) (l : List A) (s : State) :
    (l.foldl f s).rte = s.rte := by
  induction l generalizing s with
  | nil => rfl
  | cons x l ih => rw [List.foldl_cons, ih, h]

@[simp] theorem foldr_rte (A : Type) (f : A → State → State) (h : ∀ x s, (f x s).rte = s.rte) (l : List A) (s : State) :
    (l.foldr f s).rte = s.rte := by
  induction l with
  | nil => rfl
  | cons x l ih => rw [List.foldr_cons, h, ih]

@[simp] theorem foldl_snd_rte (A B : Type) (f : B × State → A → B × State) (h : ∀ a x, (f a x).2.rte = a.2.rte) (l : List A) (a : B × State) :
    (l.foldl f a).2.rte = a.2.rte := by
  induction l generalizing a with
  | nil => rfl
  | cons x l ih => rw [List.foldl_cons, ih, h]

@[simp] theorem ite_cap (c : Prop) [Decidable c] (a b : State) :
    (if c then a else b).cap = if c then a.cap else b.cap := by split <;> rfl

@[simp] theorem foldl_cap (A : Type) (f : State → A → State) (h : ∀ s x, (f s x).cap = s.cap) (l : List A) (s : State) :
    (l.foldl f s).cap = s.cap := by
  induction l generalizing s with
  | nil => rfl
  | cons x l ih => rw [List.foldl_cons, ih, h]

@[simp] theorem foldr_cap (A : Type) (f : A → State → State) (h : ∀ x s, (f x s).cap = s.cap) (l : List A) (s : State) :
    (l.foldr f s).cap = s.cap := by
  induction l with
  | nil => rfl
  | cons x l ih => rw [List.foldr_cons, h, ih]

@[simp] theorem foldl_snd_cap (A B : Type) (f : B × State → A → B × State) (h : ∀ a x, (f a x).2.cap = a.2.cap) (l : List A) (a : B × State) :
    (l.foldl f a).2.cap = a.2.cap := by
  induction l generalizing a with
  | nil => rfl
  | cons x l ih => rw [List.foldl_cons, ih, h]

@[simp] theorem ite_cry (c : Prop) [Decidable c] (a b : State) :
    (if c then a else b).cry = if c then a.cry else b.cry := by split <;> rfl

@[simp] theorem foldl_cry (A : Type) (f : State → A → State) (h : ∀ s x, (f s x).cry = s.cry) (l : List A) (s : State) :
    (l.foldl f s).cry = s.cry := by
  induction l generalizing s with
  | nil => rfl
  | cons x l ih => rw [List.foldl_cons, ih, h]

@[simp] theorem foldr_cry (A : Type) (f : A → State → State) (h : ∀ x s, (f x s).cry = s.cry) (l : List A) (s : State) :
    (l.foldr f s).cry = s.cry := by
  induction l with
  | nil => rfl
  | cons x l ih => rw [List.foldr_cons, h, ih]

@[simp] theorem foldl_snd_cry (A B : Type) (f : B × State → A → B × State) (h : ∀ a x, (f a x).2.cry = a.2.cry) (l : List A) (a : B × State) :
    (l.foldl f a).2.cry = a.2.cry := by
  induction l generalizing a with
  | nil => rfl
  | cons x l ih => rw [List.foldl_cons, ih, h]

@[simp] theorem ite_flt (c : Prop) [Decidable c] (a b : State) :
    (if c then a else b).flt = if c then a.flt else b.flt := by split <;> rfl

@[simp] theorem foldl_flt (A : Type) (f : State → A → State) (h : ∀ s x, (f s x).flt = s.flt) (l : List A) (s : State) :
    (l.foldl f s).flt = s.flt := by
  induction l generalizing s with
  | nil => rfl
  | cons x l ih => rw [List.foldl_cons, ih, h]

@[simp] theorem foldr_flt (A : Type) (f : A → State → State) (h : ∀ x s, (f x s).flt = s.flt) (l : List A) (s : State) :
    (l.foldr f s).flt = s.flt := by
  induction l with
  | nil => rfl
  | cons x l ih => rw [List.foldr_cons, h, ih]

@[simp] theorem foldl_snd_flt (A B : Type) (f : B × State → A → B × State) (h : ∀ a x, (f a x).2.flt = a.2.flt) (l : List A) (a : B × State) :
    (l.foldl f a).2.flt = a.2.flt := by
  induction l generalizing a with
  | nil => rfl
  | cons x l ih => rw [List.foldl_cons, ih, h]

@[simp] theorem ite_anl (c : Prop) [Decidable c] (a b : State) :
    (if c then a else b).anl = if c then a.anl else b.anl := by split <;> rfl

@[simp] theorem foldl_anl (A : Type) (f : State → A → State) (h : ∀ s x, (f s x).anl = s.anl) (l : List A) (s : State) :
    (l.foldl f s).anl = s.anl := by
  induction l generalizing s with
  | nil => rfl
  | cons x l ih => rw [List.foldl_cons, ih, h]

@[simp] theorem foldr_anl (A : Type) (f : A → State → State) (h : ∀ x s, (f x s).anl = s.anl) (l : List A) (s : State) :
    (l.foldr f s).anl = s.anl := by
  induction l with
  | nil => rfl
  | cons x l ih => rw [List.foldr_cons, h, ih]

@[simp] theorem foldl_snd_anl (A B : Type) (f : B × State → A → B × State) (h : ∀ a x, (f a x).2.anl = a.2.anl) (l : List A) (a : B × State) :
    (l.foldl f a).2.anl = a.2.anl := by
  induction l generalizing a with
  | nil => rfl
  | cons x l ih => rw [List.foldl_cons, ih, h]

@[simp] theorem ite_cur (c : Prop) [Decidable c] (a b : State) :
    (if c then a else b).cur = if c then a.cur else b.cur := by split <;> rfl

@[simp] theorem foldl_cur (A : Type) (f : State → A → State) (h : ∀ s x, (f s x).cur = s.cur) (l : List A) (s : State) :
    (l.foldl f s).cur = s.cur := by
  induction l generalizing s with
  | nil => rfl
  | cons x l ih => rw [List.foldl_cons, ih, h]

@[simp] theorem foldr_cur (A : Type) (f : A → State → State) (h : ∀ x s, (f x s).cur = s.cur) (l : List A) (s : State) :
    (l.foldr f s).cur = s.cur := by
  induction l with
  | nil => rfl
  | cons x l ih => rw [List.foldr_cons, h, ih]

@[simp] theorem foldl_snd_cur (A B : Type) (f : B × State → A → B × State) (h : ∀ a x, (f a x).2.cur = a.2.cur) (l : List A) (a : B × State) :
    (l.foldl f a).2.cur = a.2.cur := by
  induction l generalizing a with
  | nil => rfl
  | cons x l ih => rw [List.foldl_cons, ih, h]

@[simp] theorem ite_thm (c : Prop) [Decidable c] (a b : State) :
    (if c then a else b).thm = if c then a.thm else b.thm := by split <;> rfl

@[simp] theorem foldl_thm (A : Type) (f : State → A → State) (h : ∀ s x, (f s x).thm = s.thm) (l : List A) (s : State) :
    (l.foldl f s).thm = s.thm := by
  induction l generalizing s with
  | nil => rfl
  | cons x l ih => rw [List.foldl_cons, ih, h]

@[simp] theorem foldr_thm (A : Type) (f : A → State → State) (h : ∀ x s, (f x s).thm = s.thm) (l : List A) (s : State) :
    (l.foldr f s).thm = s.thm := by
  induction l with
  | nil => rfl
  | cons x l ih => rw [List.foldr_cons, h, ih]

@[simp] theorem foldl_snd_thm (A B : Type) (f : B × State → A → B × State) (h : ∀ a x, (f a x).2.thm = a.2.thm) (l : List A) (a : B × State) :
    (l.foldl f a).2.thm = a.2.thm := by
  induction l generalizing a with
  | nil => rfl
  | cons x l ih => rw [List.foldl_cons, ih, h]

@[simp] theorem ite_pwr (c : Prop) [Decidable c] (a b : State) :
    (if c then a else b).pwr = if c then a.pwr else b.pwr := by split <;> rfl

@[simp] theorem foldl_pwr (A : Type) (f : State → A → State) (h : ∀ s x, (f s x).pwr = s.pwr) (l : List A) (s : State) :
    (l.foldl f s).pwr = s.pwr := by
  induction l generalizing s with
  | nil => rfl
  | cons x l ih => rw [List.foldl_cons, ih, h]

@[simp] theorem foldr_pwr (A : Type) (f : A → State → State) (h : ∀ x s, (f x s).pwr = s.pwr) (l : List A) (s : State) :
    (l.foldr f s).pwr = s.pwr := by
  induction l with
  | nil => rfl
  | cons x l ih => rw [List.foldr_cons, h, ih]

@[simp] theorem foldl_snd_pwr (A B : Type) (f : B × State → A → B × State) (h : ∀ a x, (f a x).2.pwr = a.2.pwr) (l : List A) (a : B × State) :
    (l.foldl f a).2.pwr = a.2.pwr := by
  induction l generalizing a with
  | nil => rfl
  | cons x l ih => rw [List.foldl_cons, ih, h]

@[simp] theorem ite_pmc (c : Prop) [Decidable c] (a b : State) :
    (if c then a else b).pmc = if c then a.pmc else b.pmc := by split <;> rfl

@[simp] theorem foldl_pmc (A : Type) (f : State → A → State) (h : ∀ s x, (f s x).pmc = s.pmc) (l : List A) (s : State) :
    (l.foldl f s).pmc = s.pmc := by
  induction l generalizing s with
  | nil => rfl
  | cons x l ih => rw [List.foldl_cons, ih, h]

@[simp] theorem foldr_pmc (A : Type) (f : A → State → State) (h : ∀ x s, (f x s).pmc = s.pmc) (l : List A) (s : State) :
    (l.foldr f s).pmc = s.pmc := by
  induction l with
  | nil => rfl
  | cons x l ih => rw [List.foldr_cons, h, ih]

@[simp] theorem foldl_snd_pmc (A B : Type) (f : B × State → A → B × State) (h : ∀ a x, (f a x).2.pmc = a.2.pmc) (l : List A) (a : B × State) :
    (l.foldl f a).2.pmc = a.2.pmc := by
  induction l generalizing a with
  | nil => rfl
  | cons x l ih => rw [List.foldl_cons, ih, h]

@[simp] theorem ite_out (c : Prop) [Decidable c] (a b : State) :
    (if c then a else b).out = if c then a.out else b.out := by split <;> rfl

@[simp] theorem foldl_out (A : Type) (f : State → A → State) (h : ∀ s x, (f s x).out = s.out) (l : List A) (s : State) :
    (l.foldl f s).out = s.out := by
  induction l generalizing s with
  | nil => rfl
  | cons x l ih => rw [List.foldl_cons, ih, h]

@[simp] theorem foldr_out (A : Type) (f : A → State → State) (h : ∀ x s, (f x s).out = s.out) (l : List A) (s : State) :
    (l.foldr f s).out = s.out := by
  induction l with
  | nil => rfl
  | cons x l ih => rw [List.foldr_cons, h, ih]

@[simp] theorem foldl_snd_out (A B : Type) (f : B × State → A → B × State) (h : ∀ a x, (f a x).2.out = a.2.out) (l : List A) (a : B × State) :
    (l.foldl f a).2.out = a.2.out := by
  induction l generalizing a with
  | nil => rfl
  | cons x l ih => rw [List.foldl_cons, ih, h]

@[simp] theorem ite_net (c : Prop) [Decidable c] (a b : State) :
    (if c then a else b).net = if c then a.net else b.net := by split <;> rfl

@[simp] theorem foldl_net (A : Type) (f : State → A → State) (h : ∀ s x, (f s x).net = s.net) (l : List A) (s : State) :
    (l.foldl f s).net = s.net := by
  induction l generalizing s with
  | nil => rfl
  | cons x l ih => rw [List.foldl_cons, ih, h]

@[simp] theorem foldr_net (A : Type) (f : A → State → State) (h : ∀ x s, (f x s).net = s.net) (l : List A) (s : State) :
    (l.foldr f s).net = s.net := by
  induction l with
  | nil => rfl
  | cons x l ih => rw [List.foldr_cons, h, ih]

@[simp] theorem foldl_snd_net (A B : Type) (f : B × State → A → B × State) (h : ∀ a x, (f a x).2.net = a.2.net) (l : List A) (a : B × State) :
    (l.foldl f a).2.net = a.2.net := by
  induction l generalizing a with
  | nil => rfl
  | cons x l ih => rw [List.foldl_cons, ih, h]

@[simp] theorem ite_freeCtr (c : Prop) [Decidable c] (a b : State) :
    (if c then a else b).freeCtr = if c then a.freeCtr else b.freeCtr := by split <;> rfl

@[simp] theorem foldl_freeCtr (A : Type) (f : State → A → State) (h : ∀ s x, (f s x).freeCtr = s.freeCtr) (l : List A) (s : State) :
    (l.foldl f s).freeCtr = s.freeCtr := by
  induction l generalizing s with
  | nil => rfl
  | cons x l ih => rw [List.foldl_cons, ih, h]

@[simp] theorem foldr_freeCtr (A : Type) (f : A → State → State) (h : ∀ x s, (f x s).freeCtr = s.freeCtr) (l : List A) (s : State) :
    (l.foldr f s).freeCtr = s.freeCtr := by
  induction l with
  | nil => rfl
  | cons x l ih => rw [List.foldr_cons, h, ih]

@[simp] theorem foldl_snd_freeCtr (A B : Type) (f : B × State → A → B × State) (h : ∀ a x, (f a x).2.freeCtr = a.2.freeCtr) (l : List A) (a : B × State) :
    (l.foldl f a).2.freeCtr = a.2.freeCtr := by
  induction l generalizing a with
  | nil => rfl
  | cons x l ih => rw [List.foldl_cons, ih, h]

@[simp] theorem ite_pending (c : Prop) [Decidable c] (a b : State) :
    (if c then a else b).pending = if c then a.pending else b.pending := by split <;> rfl

@[simp] theorem foldl_pending (A : Type) (f : State → A → State) (h : ∀ s x, (f s x).pending = s.pending) (l : List A) (s : State) :
    (l.foldl f s).pending = s.pending := by
  induction l generalizing s with
  | nil => rfl
  | cons x l ih => rw [List.foldl_cons, ih, h]

@[simp] theorem foldr_pending (A : Type) (f : A → State → State) (h : ∀ x s, (f x s).pending = s.pending) (l : List A) (s : State) :
    (l.foldr f s).pending = s.pending := by
  induction l with
  | nil => rfl
  | cons x l ih => rw [List.foldr_cons, h, ih]

@[simp] theorem foldl_snd_pending (A B : Type) (f : B × State → A → B × State) (h : ∀ a x, (f a x).2.pending = a.2.pending) (l : List A) (a : B × State) :
    (l.foldl f a).2.pending = a.2.pending := by
  induction l generalizing a with
  | nil => rfl
  | cons x l ih => rw [List.foldl_cons, ih, h]

@[simp] theorem ite_pwr_straps (c : Prop) [Decidable c] (a b : State) :
    (if c then a else b).pwr.straps = if c then a.pwr.straps else b.pwr.straps := by split <;> rfl

@[simp] theorem foldl_pwr_straps (A : Type) (f : State → A → State) (h : ∀ s x, (f s x).pwr.straps = s.pwr.straps) (l : List A) (s : State) :
    (l.foldl f s).pwr.straps = s.pwr.straps := by
  induction l generalizing s with
  | nil => rfl
  | cons x l ih => rw [List.foldl_cons, ih, h]

@[simp] theorem foldr_pwr_straps (A : Type) (f : A → State → State) (h : ∀ x s, (f x s).pwr.straps = s.pwr.straps) (l : List A) (s : State) :
    (l.foldr f s).pwr.straps = s.pwr.straps := by
  induction l with
  | nil => rfl
  | cons x l ih => rw [List.foldr_cons, h, ih]

@[simp] theorem foldl_snd_pwr_straps (A B : Type) (f : B × State → A → B × State) (h : ∀ a x, (f a x).2.pwr.straps = a.2.pwr.straps) (l : List A) (a : B × State) :
    (l.foldl f a).2.pwr.straps = a.2.pwr.straps := by
  induction l generalizing a with
  | nil => rfl
  | cons x l ih => rw [List.foldl_cons, ih, h]

@[simp] theorem ite_cur_lifecycle (c : Prop) [Decidable c] (a b : State) :
    (if c then a else b).cur.lifecycle = if c then a.cur.lifecycle else b.cur.lifecycle := by split <;> rfl

@[simp] theorem foldl_cur_lifecycle (A : Type) (f : State → A → State) (h : ∀ s x, (f s x).cur.lifecycle = s.cur.lifecycle) (l : List A) (s : State) :
    (l.foldl f s).cur.lifecycle = s.cur.lifecycle := by
  induction l generalizing s with
  | nil => rfl
  | cons x l ih => rw [List.foldl_cons, ih, h]

@[simp] theorem foldr_cur_lifecycle (A : Type) (f : A → State → State) (h : ∀ x s, (f x s).cur.lifecycle = s.cur.lifecycle) (l : List A) (s : State) :
    (l.foldr f s).cur.lifecycle = s.cur.lifecycle := by
  induction l with
  | nil => rfl
  | cons x l ih => rw [List.foldr_cons, h, ih]

@[simp] theorem foldl_snd_cur_lifecycle (A B : Type) (f : B × State → A → B × State) (h : ∀ a x, (f a x).2.cur.lifecycle = a.2.cur.lifecycle) (l : List A) (a : B × State) :
    (l.foldl f a).2.cur.lifecycle = a.2.cur.lifecycle := by
  induction l generalizing a with
  | nil => rfl
  | cons x l ih => rw [List.foldl_cons, ih, h]

@[simp] theorem ite_cur_rootGen (c : Prop) [Decidable c] (a b : State) :
    (if c then a else b).cur.rootGen = if c then a.cur.rootGen else b.cur.rootGen := by split <;> rfl

@[simp] theorem foldl_cur_rootGen (A : Type) (f : State → A → State) (h : ∀ s x, (f s x).cur.rootGen = s.cur.rootGen) (l : List A) (s : State) :
    (l.foldl f s).cur.rootGen = s.cur.rootGen := by
  induction l generalizing s with
  | nil => rfl
  | cons x l ih => rw [List.foldl_cons, ih, h]

@[simp] theorem foldr_cur_rootGen (A : Type) (f : A → State → State) (h : ∀ x s, (f x s).cur.rootGen = s.cur.rootGen) (l : List A) (s : State) :
    (l.foldr f s).cur.rootGen = s.cur.rootGen := by
  induction l with
  | nil => rfl
  | cons x l ih => rw [List.foldr_cons, h, ih]

@[simp] theorem foldl_snd_cur_rootGen (A B : Type) (f : B × State → A → B × State) (h : ∀ a x, (f a x).2.cur.rootGen = a.2.cur.rootGen) (l : List A) (a : B × State) :
    (l.foldl f a).2.cur.rootGen = a.2.cur.rootGen := by
  induction l generalizing a with
  | nil => rfl
  | cons x l ih => rw [List.foldl_cons, ih, h]

@[simp] theorem ite_cur_returns (c : Prop) [Decidable c] (a b : State) :
    (if c then a else b).cur.returns = if c then a.cur.returns else b.cur.returns := by split <;> rfl

@[simp] theorem foldl_cur_returns (A : Type) (f : State → A → State) (h : ∀ s x, (f s x).cur.returns = s.cur.returns) (l : List A) (s : State) :
    (l.foldl f s).cur.returns = s.cur.returns := by
  induction l generalizing s with
  | nil => rfl
  | cons x l ih => rw [List.foldl_cons, ih, h]

@[simp] theorem foldr_cur_returns (A : Type) (f : A → State → State) (h : ∀ x s, (f x s).cur.returns = s.cur.returns) (l : List A) (s : State) :
    (l.foldr f s).cur.returns = s.cur.returns := by
  induction l with
  | nil => rfl
  | cons x l ih => rw [List.foldr_cons, h, ih]

@[simp] theorem foldl_snd_cur_returns (A B : Type) (f : B × State → A → B × State) (h : ∀ a x, (f a x).2.cur.returns = a.2.cur.returns) (l : List A) (a : B × State) :
    (l.foldl f a).2.cur.returns = a.2.cur.returns := by
  induction l generalizing a with
  | nil => rfl
  | cons x l ih => rw [List.foldl_cons, ih, h]

@[simp] theorem ite_cur_revoked (c : Prop) [Decidable c] (a b : State) :
    (if c then a else b).cur.revoked = if c then a.cur.revoked else b.cur.revoked := by split <;> rfl

@[simp] theorem foldl_cur_revoked (A : Type) (f : State → A → State) (h : ∀ s x, (f s x).cur.revoked = s.cur.revoked) (l : List A) (s : State) :
    (l.foldl f s).cur.revoked = s.cur.revoked := by
  induction l generalizing s with
  | nil => rfl
  | cons x l ih => rw [List.foldl_cons, ih, h]

@[simp] theorem foldr_cur_revoked (A : Type) (f : A → State → State) (h : ∀ x s, (f x s).cur.revoked = s.cur.revoked) (l : List A) (s : State) :
    (l.foldr f s).cur.revoked = s.cur.revoked := by
  induction l with
  | nil => rfl
  | cons x l ih => rw [List.foldr_cons, h, ih]

@[simp] theorem foldl_snd_cur_revoked (A B : Type) (f : B × State → A → B × State) (h : ∀ a x, (f a x).2.cur.revoked = a.2.cur.revoked) (l : List A) (a : B × State) :
    (l.foldl f a).2.cur.revoked = a.2.cur.revoked := by
  induction l generalizing a with
  | nil => rfl
  | cons x l ih => rw [List.foldl_cons, ih, h]

end Sys2Proof.Machine
end

