-- ==== Sys2Proof/Laws/KeptHost.lean ====
section
/-! SUPPORT. What each operation leaves as it was: whole parts of the state, and of the power and Curator parts the
straps, the life-cycle state and the fuse words. The lemma of an operation that a row calls itself, or that four or more
operations call, is a simp lemma; the others are cited by name. -/

namespace Sys2Proof.Machine

set_option Elab.async false
set_option linter.unusedTactic false
set_option linter.unusedSimpArgs false
set_option linter.unusedVariables false

@[simp] theorem State.putReg_kept (r : Reg) (u i v : Nat) (s : State) :
    (State.putReg r u i v s).member = s.member ∧
    (State.putReg r u i v s).now = s.now ∧
    (State.putReg r u i v s).unstored = s.unstored ∧
    (State.putReg r u i v s).host = s.host ∧
    (State.putReg r u i v s).epo = s.epo ∧
    (State.putReg r u i v s).cat = s.cat ∧
    (State.putReg r u i v s).med = s.med ∧
    (State.putReg r u i v s).coh = s.coh ∧
    (State.putReg r u i v s).lnk = s.lnk ∧
    (State.putReg r u i v s).rte = s.rte ∧
    (State.putReg r u i v s).cap = s.cap ∧
    (State.putReg r u i v s).cry = s.cry ∧
    (State.putReg r u i v s).flt = s.flt ∧
    (State.putReg r u i v s).anl = s.anl ∧
    (State.putReg r u i v s).cur = s.cur ∧
    (State.putReg r u i v s).thm = s.thm ∧
    (State.putReg r u i v s).pwr = s.pwr ∧
    (State.putReg r u i v s).pmc = s.pmc ∧
    (State.putReg r u i v s).out = s.out ∧
    (State.putReg r u i v s).net = s.net ∧
    (State.putReg r u i v s).freeCtr = s.freeCtr ∧
    (State.putReg r u i v s).pending = s.pending := by
  unfold State.putReg
  simp

@[simp] theorem State.putField_kept (r : Reg) (u i hi lo v : Nat) (s : State) :
    (State.putField r u i hi lo v s).member = s.member ∧
    (State.putField r u i hi lo v s).now = s.now ∧
    (State.putField r u i hi lo v s).unstored = s.unstored ∧
    (State.putField r u i hi lo v s).host = s.host ∧
    (State.putField r u i hi lo v s).epo = s.epo ∧
    (State.putField r u i hi lo v s).cat = s.cat ∧
    (State.putField r u i hi lo v s).med = s.med ∧
    (State.putField r u i hi lo v s).coh = s.coh ∧
    (State.putField r u i hi lo v s).lnk = s.lnk ∧
    (State.putField r u i hi lo v s).rte = s.rte ∧
    (State.putField r u i hi lo v s).cap = s.cap ∧
    (State.putField r u i hi lo v s).cry = s.cry ∧
    (State.putField r u i hi lo v s).flt = s.flt ∧
    (State.putField r u i hi lo v s).anl = s.anl ∧
    (State.putField r u i hi lo v s).cur = s.cur ∧
    (State.putField r u i hi lo v s).thm = s.thm ∧
    (State.putField r u i hi lo v s).pwr = s.pwr ∧
    (State.putField r u i hi lo v s).pmc = s.pmc ∧
    (State.putField r u i hi lo v s).out = s.out ∧
    (State.putField r u i hi lo v s).net = s.net ∧
    (State.putField r u i hi lo v s).freeCtr = s.freeCtr ∧
    (State.putField r u i hi lo v s).pending = s.pending := by
  unfold State.putField
  simp

@[simp] theorem State.count_kept (r : Reg) (u i hi lo n : Nat) (s : State) :
    (State.count r u i hi lo n s).member = s.member ∧
    (State.count r u i hi lo n s).now = s.now ∧
    (State.count r u i hi lo n s).unstored = s.unstored ∧
    (State.count r u i hi lo n s).host = s.host ∧
    (State.count r u i hi lo n s).epo = s.epo ∧
    (State.count r u i hi lo n s).cat = s.cat ∧
    (State.count r u i hi lo n s).med = s.med ∧
    (State.count r u i hi lo n s).coh = s.coh ∧
    (State.count r u i hi lo n s).lnk = s.lnk ∧
    (State.count r u i hi lo n s).rte = s.rte ∧
    (State.count r u i hi lo n s).cap = s.cap ∧
    (State.count r u i hi lo n s).cry = s.cry ∧
    (State.count r u i hi lo n s).flt = s.flt ∧
    (State.count r u i hi lo n s).anl = s.anl ∧
    (State.count r u i hi lo n s).cur = s.cur ∧
    (State.count r u i hi lo n s).thm = s.thm ∧
    (State.count r u i hi lo n s).pwr = s.pwr ∧
    (State.count r u i hi lo n s).pmc = s.pmc ∧
    (State.count r u i hi lo n s).out = s.out ∧
    (State.count r u i hi lo n s).net = s.net ∧
    (State.count r u i hi lo n s).freeCtr = s.freeCtr ∧
    (State.count r u i hi lo n s).pending = s.pending := by
  unfold State.count
  simp

@[simp] theorem State.bump_kept (r : Reg) (u i : Nat) (s : State) :
    (State.bump r u i s).member = s.member ∧
    (State.bump r u i s).now = s.now ∧
    (State.bump r u i s).unstored = s.unstored ∧
    (State.bump r u i s).host = s.host ∧
    (State.bump r u i s).epo = s.epo ∧
    (State.bump r u i s).cat = s.cat ∧
    (State.bump r u i s).med = s.med ∧
    (State.bump r u i s).coh = s.coh ∧
    (State.bump r u i s).lnk = s.lnk ∧
    (State.bump r u i s).rte = s.rte ∧
    (State.bump r u i s).cap = s.cap ∧
    (State.bump r u i s).cry = s.cry ∧
    (State.bump r u i s).flt = s.flt ∧
    (State.bump r u i s).anl = s.anl ∧
    (State.bump r u i s).cur = s.cur ∧
    (State.bump r u i s).thm = s.thm ∧
    (State.bump r u i s).pwr = s.pwr ∧
    (State.bump r u i s).pmc = s.pmc ∧
    (State.bump r u i s).out = s.out ∧
    (State.bump r u i s).net = s.net ∧
    (State.bump r u i s).freeCtr = s.freeCtr ∧
    (State.bump r u i s).pending = s.pending := by
  unfold State.bump
  simp

theorem State.count64_kept (lo hi : Reg) (u i n : Nat) (s : State) :
    (State.count64 lo hi u i n s).member = s.member ∧
    (State.count64 lo hi u i n s).now = s.now ∧
    (State.count64 lo hi u i n s).unstored = s.unstored ∧
    (State.count64 lo hi u i n s).host = s.host ∧
    (State.count64 lo hi u i n s).epo = s.epo ∧
    (State.count64 lo hi u i n s).cat = s.cat ∧
    (State.count64 lo hi u i n s).med = s.med ∧
    (State.count64 lo hi u i n s).coh = s.coh ∧
    (State.count64 lo hi u i n s).lnk = s.lnk ∧
    (State.count64 lo hi u i n s).rte = s.rte ∧
    (State.count64 lo hi u i n s).cap = s.cap ∧
    (State.count64 lo hi u i n s).cry = s.cry ∧
    (State.count64 lo hi u i n s).flt = s.flt ∧
    (State.count64 lo hi u i n s).anl = s.anl ∧
    (State.count64 lo hi u i n s).cur = s.cur ∧
    (State.count64 lo hi u i n s).thm = s.thm ∧
    (State.count64 lo hi u i n s).pwr = s.pwr ∧
    (State.count64 lo hi u i n s).pmc = s.pmc ∧
    (State.count64 lo hi u i n s).out = s.out ∧
    (State.count64 lo hi u i n s).net = s.net ∧
    (State.count64 lo hi u i n s).freeCtr = s.freeCtr ∧
    (State.count64 lo hi u i n s).pending = s.pending := by
  unfold State.count64
  simp

@[simp] theorem State.writeReg_kept (r : Reg) (u i : Nat) (rwl : Bool) (w : Nat) (s : State) :
    (State.writeReg r u i rwl w s).member = s.member ∧
    (State.writeReg r u i rwl w s).now = s.now ∧
    (State.writeReg r u i rwl w s).host = s.host ∧
    (State.writeReg r u i rwl w s).epo = s.epo ∧
    (State.writeReg r u i rwl w s).cat = s.cat ∧
    (State.writeReg r u i rwl w s).med = s.med ∧
    (State.writeReg r u i rwl w s).coh = s.coh ∧
    (State.writeReg r u i rwl w s).lnk = s.lnk ∧
    (State.writeReg r u i rwl w s).rte = s.rte ∧
    (State.writeReg r u i rwl w s).cap = s.cap ∧
    (State.writeReg r u i rwl w s).cry = s.cry ∧
    (State.writeReg r u i rwl w s).flt = s.flt ∧
    (State.writeReg r u i rwl w s).anl = s.anl ∧
    (State.writeReg r u i rwl w s).cur = s.cur ∧
    (State.writeReg r u i rwl w s).thm = s.thm ∧
    (State.writeReg r u i rwl w s).pwr = s.pwr ∧
    (State.writeReg r u i rwl w s).pmc = s.pmc ∧
    (State.writeReg r u i rwl w s).out = s.out ∧
    (State.writeReg r u i rwl w s).net = s.net ∧
    (State.writeReg r u i rwl w s).freeCtr = s.freeCtr ∧
    (State.writeReg r u i rwl w s).pending = s.pending := by
  unfold State.writeReg
  simp

@[simp] theorem State.commitStore_kept (s : State) :
    (State.commitStore s).member = s.member ∧
    (State.commitStore s).now = s.now ∧
    (State.commitStore s).regs = s.regs ∧
    (State.commitStore s).host = s.host ∧
    (State.commitStore s).epo = s.epo ∧
    (State.commitStore s).cat = s.cat ∧
    (State.commitStore s).med = s.med ∧
    (State.commitStore s).coh = s.coh ∧
    (State.commitStore s).lnk = s.lnk ∧
    (State.commitStore s).rte = s.rte ∧
    (State.commitStore s).cap = s.cap ∧
    (State.commitStore s).cry = s.cry ∧
    (State.commitStore s).flt = s.flt ∧
    (State.commitStore s).anl = s.anl ∧
    (State.commitStore s).cur = s.cur ∧
    (State.commitStore s).thm = s.thm ∧
    (State.commitStore s).pwr = s.pwr ∧
    (State.commitStore s).pmc = s.pmc ∧
    (State.commitStore s).out = s.out ∧
    (State.commitStore s).net = s.net ∧
    (State.commitStore s).freeCtr = s.freeCtr ∧
    (State.commitStore s).pending = s.pending := by
  unfold State.commitStore
  simp

theorem State.loseUnstored_kept (s : State) :
    (State.loseUnstored s).member = s.member ∧
    (State.loseUnstored s).now = s.now ∧
    (State.loseUnstored s).host = s.host ∧
    (State.loseUnstored s).epo = s.epo ∧
    (State.loseUnstored s).cat = s.cat ∧
    (State.loseUnstored s).med = s.med ∧
    (State.loseUnstored s).coh = s.coh ∧
    (State.loseUnstored s).lnk = s.lnk ∧
    (State.loseUnstored s).rte = s.rte ∧
    (State.loseUnstored s).cap = s.cap ∧
    (State.loseUnstored s).cry = s.cry ∧
    (State.loseUnstored s).flt = s.flt ∧
    (State.loseUnstored s).anl = s.anl ∧
    (State.loseUnstored s).cur = s.cur ∧
    (State.loseUnstored s).thm = s.thm ∧
    (State.loseUnstored s).pwr = s.pwr ∧
    (State.loseUnstored s).pmc = s.pmc ∧
    (State.loseUnstored s).out = s.out ∧
    (State.loseUnstored s).net = s.net ∧
    (State.loseUnstored s).freeCtr = s.freeCtr ∧
    (State.loseUnstored s).pending = s.pending := by
  unfold State.loseUnstored
  simp

@[simp] theorem State.setPort_kept (p : Nat) (v : HostPort) (s : State) :
    (State.setPort p v s).member = s.member ∧
    (State.setPort p v s).now = s.now ∧
    (State.setPort p v s).regs = s.regs ∧
    (State.setPort p v s).unstored = s.unstored ∧
    (State.setPort p v s).epo = s.epo ∧
    (State.setPort p v s).cat = s.cat ∧
    (State.setPort p v s).med = s.med ∧
    (State.setPort p v s).coh = s.coh ∧
    (State.setPort p v s).lnk = s.lnk ∧
    (State.setPort p v s).rte = s.rte ∧
    (State.setPort p v s).cap = s.cap ∧
    (State.setPort p v s).cry = s.cry ∧
    (State.setPort p v s).flt = s.flt ∧
    (State.setPort p v s).anl = s.anl ∧
    (State.setPort p v s).cur = s.cur ∧
    (State.setPort p v s).thm = s.thm ∧
    (State.setPort p v s).pwr = s.pwr ∧
    (State.setPort p v s).pmc = s.pmc ∧
    (State.setPort p v s).out = s.out ∧
    (State.setPort p v s).net = s.net ∧
    (State.setPort p v s).freeCtr = s.freeCtr ∧
    (State.setPort p v s).pending = s.pending := by
  unfold State.setPort
  simp

@[simp] theorem State.setSq_kept (p n : Nat) (v : Sq) (s : State) :
    (State.setSq p n v s).member = s.member ∧
    (State.setSq p n v s).now = s.now ∧
    (State.setSq p n v s).regs = s.regs ∧
    (State.setSq p n v s).unstored = s.unstored ∧
    (State.setSq p n v s).epo = s.epo ∧
    (State.setSq p n v s).cat = s.cat ∧
    (State.setSq p n v s).med = s.med ∧
    (State.setSq p n v s).coh = s.coh ∧
    (State.setSq p n v s).lnk = s.lnk ∧
    (State.setSq p n v s).rte = s.rte ∧
    (State.setSq p n v s).cap = s.cap ∧
    (State.setSq p n v s).cry = s.cry ∧
    (State.setSq p n v s).flt = s.flt ∧
    (State.setSq p n v s).anl = s.anl ∧
    (State.setSq p n v s).cur = s.cur ∧
    (State.setSq p n v s).thm = s.thm ∧
    (State.setSq p n v s).pwr = s.pwr ∧
    (State.setSq p n v s).pmc = s.pmc ∧
    (State.setSq p n v s).out = s.out ∧
    (State.setSq p n v s).net = s.net ∧
    (State.setSq p n v s).freeCtr = s.freeCtr ∧
    (State.setSq p n v s).pending = s.pending := by
  unfold State.setSq
  simp

@[simp] theorem State.setCq_kept (p n : Nat) (v : Cq) (s : State) :
    (State.setCq p n v s).member = s.member ∧
    (State.setCq p n v s).now = s.now ∧
    (State.setCq p n v s).regs = s.regs ∧
    (State.setCq p n v s).unstored = s.unstored ∧
    (State.setCq p n v s).epo = s.epo ∧
    (State.setCq p n v s).cat = s.cat ∧
    (State.setCq p n v s).med = s.med ∧
    (State.setCq p n v s).coh = s.coh ∧
    (State.setCq p n v s).lnk = s.lnk ∧
    (State.setCq p n v s).rte = s.rte ∧
    (State.setCq p n v s).cap = s.cap ∧
    (State.setCq p n v s).cry = s.cry ∧
    (State.setCq p n v s).flt = s.flt ∧
    (State.setCq p n v s).anl = s.anl ∧
    (State.setCq p n v s).cur = s.cur ∧
    (State.setCq p n v s).thm = s.thm ∧
    (State.setCq p n v s).pwr = s.pwr ∧
    (State.setCq p n v s).pmc = s.pmc ∧
    (State.setCq p n v s).out = s.out ∧
    (State.setCq p n v s).net = s.net ∧
    (State.setCq p n v s).freeCtr = s.freeCtr ∧
    (State.setCq p n v s).pending = s.pending := by
  unfold State.setCq
  simp

theorem State.setWin_kept (p w : Nat) (v : Win) (s : State) :
    (State.setWin p w v s).member = s.member ∧
    (State.setWin p w v s).now = s.now ∧
    (State.setWin p w v s).regs = s.regs ∧
    (State.setWin p w v s).unstored = s.unstored ∧
    (State.setWin p w v s).epo = s.epo ∧
    (State.setWin p w v s).cat = s.cat ∧
    (State.setWin p w v s).med = s.med ∧
    (State.setWin p w v s).coh = s.coh ∧
    (State.setWin p w v s).lnk = s.lnk ∧
    (State.setWin p w v s).rte = s.rte ∧
    (State.setWin p w v s).cap = s.cap ∧
    (State.setWin p w v s).cry = s.cry ∧
    (State.setWin p w v s).flt = s.flt ∧
    (State.setWin p w v s).anl = s.anl ∧
    (State.setWin p w v s).cur = s.cur ∧
    (State.setWin p w v s).thm = s.thm ∧
    (State.setWin p w v s).pwr = s.pwr ∧
    (State.setWin p w v s).pmc = s.pmc ∧
    (State.setWin p w v s).out = s.out ∧
    (State.setWin p w v s).net = s.net ∧
    (State.setWin p w v s).freeCtr = s.freeCtr ∧
    (State.setWin p w v s).pending = s.pending := by
  unfold State.setWin
  simp

@[simp] theorem State.setCmds_kept (l : List Cmd) (s : State) :
    (State.setCmds l s).member = s.member ∧
    (State.setCmds l s).now = s.now ∧
    (State.setCmds l s).regs = s.regs ∧
    (State.setCmds l s).unstored = s.unstored ∧
    (State.setCmds l s).epo = s.epo ∧
    (State.setCmds l s).cat = s.cat ∧
    (State.setCmds l s).med = s.med ∧
    (State.setCmds l s).coh = s.coh ∧
    (State.setCmds l s).lnk = s.lnk ∧
    (State.setCmds l s).rte = s.rte ∧
    (State.setCmds l s).cap = s.cap ∧
    (State.setCmds l s).cry = s.cry ∧
    (State.setCmds l s).flt = s.flt ∧
    (State.setCmds l s).anl = s.anl ∧
    (State.setCmds l s).cur = s.cur ∧
    (State.setCmds l s).thm = s.thm ∧
    (State.setCmds l s).pwr = s.pwr ∧
    (State.setCmds l s).pmc = s.pmc ∧
    (State.setCmds l s).out = s.out ∧
    (State.setCmds l s).net = s.net ∧
    (State.setCmds l s).freeCtr = s.freeCtr ∧
    (State.setCmds l s).pending = s.pending := by
  unfold State.setCmds
  simp

@[simp] theorem State.emit_kept (o : Out) (s : State) :
    (State.emit o s).member = s.member ∧
    (State.emit o s).now = s.now ∧
    (State.emit o s).regs = s.regs ∧
    (State.emit o s).unstored = s.unstored ∧
    (State.emit o s).host = s.host ∧
    (State.emit o s).epo = s.epo ∧
    (State.emit o s).cat = s.cat ∧
    (State.emit o s).med = s.med ∧
    (State.emit o s).coh = s.coh ∧
    (State.emit o s).lnk = s.lnk ∧
    (State.emit o s).rte = s.rte ∧
    (State.emit o s).cap = s.cap ∧
    (State.emit o s).cry = s.cry ∧
    (State.emit o s).flt = s.flt ∧
    (State.emit o s).anl = s.anl ∧
    (State.emit o s).cur = s.cur ∧
    (State.emit o s).thm = s.thm ∧
    (State.emit o s).pwr = s.pwr ∧
    (State.emit o s).pmc = s.pmc ∧
    (State.emit o s).net = s.net ∧
    (State.emit o s).freeCtr = s.freeCtr ∧
    (State.emit o s).pending = s.pending := by
  unfold State.emit
  simp

@[simp] theorem State.send_kept (m : Msg) (s : State) :
    (State.send m s).member = s.member ∧
    (State.send m s).now = s.now ∧
    (State.send m s).regs = s.regs ∧
    (State.send m s).unstored = s.unstored ∧
    (State.send m s).host = s.host ∧
    (State.send m s).epo = s.epo ∧
    (State.send m s).cat = s.cat ∧
    (State.send m s).med = s.med ∧
    (State.send m s).coh = s.coh ∧
    (State.send m s).lnk = s.lnk ∧
    (State.send m s).rte = s.rte ∧
    (State.send m s).cap = s.cap ∧
    (State.send m s).cry = s.cry ∧
    (State.send m s).flt = s.flt ∧
    (State.send m s).anl = s.anl ∧
    (State.send m s).cur = s.cur ∧
    (State.send m s).thm = s.thm ∧
    (State.send m s).pwr = s.pwr ∧
    (State.send m s).pmc = s.pmc ∧
    (State.send m s).out = s.out ∧
    (State.send m s).freeCtr = s.freeCtr ∧
    (State.send m s).pending = s.pending := by
  unfold State.send
  simp

@[simp] theorem State.receive_kept (m : Msg) (s : State) :
    (State.receive m s).member = s.member ∧
    (State.receive m s).now = s.now ∧
    (State.receive m s).regs = s.regs ∧
    (State.receive m s).unstored = s.unstored ∧
    (State.receive m s).host = s.host ∧
    (State.receive m s).epo = s.epo ∧
    (State.receive m s).cat = s.cat ∧
    (State.receive m s).med = s.med ∧
    (State.receive m s).coh = s.coh ∧
    (State.receive m s).lnk = s.lnk ∧
    (State.receive m s).rte = s.rte ∧
    (State.receive m s).cap = s.cap ∧
    (State.receive m s).cry = s.cry ∧
    (State.receive m s).flt = s.flt ∧
    (State.receive m s).anl = s.anl ∧
    (State.receive m s).cur = s.cur ∧
    (State.receive m s).thm = s.thm ∧
    (State.receive m s).pwr = s.pwr ∧
    (State.receive m s).pmc = s.pmc ∧
    (State.receive m s).out = s.out ∧
    (State.receive m s).freeCtr = s.freeCtr ∧
    (State.receive m s).pending = s.pending := by
  unfold State.receive
  simp

theorem State.reroute_kept (t k : Nat) (s : State) :
    (State.reroute t k s).member = s.member ∧
    (State.reroute t k s).now = s.now ∧
    (State.reroute t k s).regs = s.regs ∧
    (State.reroute t k s).unstored = s.unstored ∧
    (State.reroute t k s).host = s.host ∧
    (State.reroute t k s).epo = s.epo ∧
    (State.reroute t k s).cat = s.cat ∧
    (State.reroute t k s).med = s.med ∧
    (State.reroute t k s).coh = s.coh ∧
    (State.reroute t k s).lnk = s.lnk ∧
    (State.reroute t k s).rte = s.rte ∧
    (State.reroute t k s).cap = s.cap ∧
    (State.reroute t k s).cry = s.cry ∧
    (State.reroute t k s).flt = s.flt ∧
    (State.reroute t k s).anl = s.anl ∧
    (State.reroute t k s).cur = s.cur ∧
    (State.reroute t k s).thm = s.thm ∧
    (State.reroute t k s).pwr = s.pwr ∧
    (State.reroute t k s).pmc = s.pmc ∧
    (State.reroute t k s).out = s.out ∧
    (State.reroute t k s).freeCtr = s.freeCtr ∧
    (State.reroute t k s).pending = s.pending := by
  unfold State.reroute
  simp

@[simp] theorem State.drawn_kept (n : Nat) (s : State) :
    (State.drawn n s).member = s.member ∧
    (State.drawn n s).now = s.now ∧
    (State.drawn n s).regs = s.regs ∧
    (State.drawn n s).unstored = s.unstored ∧
    (State.drawn n s).host = s.host ∧
    (State.drawn n s).epo = s.epo ∧
    (State.drawn n s).cat = s.cat ∧
    (State.drawn n s).med = s.med ∧
    (State.drawn n s).coh = s.coh ∧
    (State.drawn n s).lnk = s.lnk ∧
    (State.drawn n s).rte = s.rte ∧
    (State.drawn n s).cap = s.cap ∧
    (State.drawn n s).cry = s.cry ∧
    (State.drawn n s).flt = s.flt ∧
    (State.drawn n s).anl = s.anl ∧
    (State.drawn n s).cur = s.cur ∧
    (State.drawn n s).thm = s.thm ∧
    (State.drawn n s).pwr = s.pwr ∧
    (State.drawn n s).pmc = s.pmc ∧
    (State.drawn n s).out = s.out ∧
    (State.drawn n s).net = s.net ∧
    (State.drawn n s).pending = s.pending := by
  unfold State.drawn
  simp

@[simp] theorem State.pmcEdge_kept (t ev inst : Nat) (s : State) :
    (State.pmcEdge t ev inst s).member = s.member ∧
    (State.pmcEdge t ev inst s).now = s.now ∧
    (State.pmcEdge t ev inst s).regs = s.regs ∧
    (State.pmcEdge t ev inst s).unstored = s.unstored ∧
    (State.pmcEdge t ev inst s).host = s.host ∧
    (State.pmcEdge t ev inst s).epo = s.epo ∧
    (State.pmcEdge t ev inst s).cat = s.cat ∧
    (State.pmcEdge t ev inst s).med = s.med ∧
    (State.pmcEdge t ev inst s).coh = s.coh ∧
    (State.pmcEdge t ev inst s).lnk = s.lnk ∧
    (State.pmcEdge t ev inst s).rte = s.rte ∧
    (State.pmcEdge t ev inst s).cap = s.cap ∧
    (State.pmcEdge t ev inst s).cry = s.cry ∧
    (State.pmcEdge t ev inst s).flt = s.flt ∧
    (State.pmcEdge t ev inst s).anl = s.anl ∧
    (State.pmcEdge t ev inst s).cur = s.cur ∧
    (State.pmcEdge t ev inst s).thm = s.thm ∧
    (State.pmcEdge t ev inst s).pwr = s.pwr ∧
    (State.pmcEdge t ev inst s).out = s.out ∧
    (State.pmcEdge t ev inst s).net = s.net ∧
    (State.pmcEdge t ev inst s).freeCtr = s.freeCtr ∧
    (State.pmcEdge t ev inst s).pending = s.pending := by
  unfold State.pmcEdge
  simp

theorem State.pmcEdges_kept (t ev inst n : Nat) (s : State) :
    (State.pmcEdges t ev inst n s).member = s.member ∧
    (State.pmcEdges t ev inst n s).now = s.now ∧
    (State.pmcEdges t ev inst n s).regs = s.regs ∧
    (State.pmcEdges t ev inst n s).unstored = s.unstored ∧
    (State.pmcEdges t ev inst n s).host = s.host ∧
    (State.pmcEdges t ev inst n s).epo = s.epo ∧
    (State.pmcEdges t ev inst n s).cat = s.cat ∧
    (State.pmcEdges t ev inst n s).med = s.med ∧
    (State.pmcEdges t ev inst n s).coh = s.coh ∧
    (State.pmcEdges t ev inst n s).lnk = s.lnk ∧
    (State.pmcEdges t ev inst n s).rte = s.rte ∧
    (State.pmcEdges t ev inst n s).cap = s.cap ∧
    (State.pmcEdges t ev inst n s).cry = s.cry ∧
    (State.pmcEdges t ev inst n s).flt = s.flt ∧
    (State.pmcEdges t ev inst n s).anl = s.anl ∧
    (State.pmcEdges t ev inst n s).cur = s.cur ∧
    (State.pmcEdges t ev inst n s).thm = s.thm ∧
    (State.pmcEdges t ev inst n s).pwr = s.pwr ∧
    (State.pmcEdges t ev inst n s).out = s.out ∧
    (State.pmcEdges t ev inst n s).net = s.net ∧
    (State.pmcEdges t ev inst n s).freeCtr = s.freeCtr ∧
    (State.pmcEdges t ev inst n s).pending = s.pending := by
  unfold State.pmcEdges
  (try dsimp only)
  refine ⟨foldl_member _ _ ?_ _ _, foldl_now _ _ ?_ _ _, foldl_regs _ _ ?_ _ _, foldl_unstored _ _ ?_ _ _, foldl_host _ _ ?_ _ _, foldl_epo _ _ ?_ _ _, foldl_cat _ _ ?_ _ _, foldl_med _ _ ?_ _ _, foldl_coh _ _ ?_ _ _, foldl_lnk _ _ ?_ _ _, foldl_rte _ _ ?_ _ _, foldl_cap _ _ ?_ _ _, foldl_cry _ _ ?_ _ _, foldl_flt _ _ ?_ _ _, foldl_anl _ _ ?_ _ _, foldl_cur _ _ ?_ _ _, foldl_thm _ _ ?_ _ _, foldl_pwr _ _ ?_ _ _, foldl_out _ _ ?_ _ _, foldl_net _ _ ?_ _ _, foldl_freeCtr _ _ ?_ _ _, foldl_pending _ _ ?_ _ _⟩
  all_goals
    intro s x
    (try dsimp only)
    repeat' split
    all_goals simp

@[simp] theorem State.topDown_kept (t group cat n : Nat) (s : State) :
    (State.topDown t group cat n s).member = s.member ∧
    (State.topDown t group cat n s).now = s.now ∧
    (State.topDown t group cat n s).regs = s.regs ∧
    (State.topDown t group cat n s).unstored = s.unstored ∧
    (State.topDown t group cat n s).host = s.host ∧
    (State.topDown t group cat n s).epo = s.epo ∧
    (State.topDown t group cat n s).cat = s.cat ∧
    (State.topDown t group cat n s).med = s.med ∧
    (State.topDown t group cat n s).coh = s.coh ∧
    (State.topDown t group cat n s).lnk = s.lnk ∧
    (State.topDown t group cat n s).rte = s.rte ∧
    (State.topDown t group cat n s).cap = s.cap ∧
    (State.topDown t group cat n s).cry = s.cry ∧
    (State.topDown t group cat n s).flt = s.flt ∧
    (State.topDown t group cat n s).anl = s.anl ∧
    (State.topDown t group cat n s).cur = s.cur ∧
    (State.topDown t group cat n s).thm = s.thm ∧
    (State.topDown t group cat n s).pwr = s.pwr ∧
    (State.topDown t group cat n s).out = s.out ∧
    (State.topDown t group cat n s).net = s.net ∧
    (State.topDown t group cat n s).freeCtr = s.freeCtr ∧
    (State.topDown t group cat n s).pending = s.pending := by
  unfold State.topDown
  simp

theorem State.ringWrite_kept (t : Nat) (e : AEvent) (rep : Nat) (s : State) :
    (State.ringWrite t e rep s).member = s.member ∧
    (State.ringWrite t e rep s).now = s.now ∧
    (State.ringWrite t e rep s).unstored = s.unstored ∧
    (State.ringWrite t e rep s).host = s.host ∧
    (State.ringWrite t e rep s).epo = s.epo ∧
    (State.ringWrite t e rep s).cat = s.cat ∧
    (State.ringWrite t e rep s).med = s.med ∧
    (State.ringWrite t e rep s).coh = s.coh ∧
    (State.ringWrite t e rep s).lnk = s.lnk ∧
    (State.ringWrite t e rep s).rte = s.rte ∧
    (State.ringWrite t e rep s).cap = s.cap ∧
    (State.ringWrite t e rep s).cry = s.cry ∧
    (State.ringWrite t e rep s).flt = s.flt ∧
    (State.ringWrite t e rep s).cur = s.cur ∧
    (State.ringWrite t e rep s).thm = s.thm ∧
    (State.ringWrite t e rep s).pwr = s.pwr ∧
    (State.ringWrite t e rep s).pmc = s.pmc ∧
    (State.ringWrite t e rep s).out = s.out ∧
    (State.ringWrite t e rep s).net = s.net ∧
    (State.ringWrite t e rep s).freeCtr = s.freeCtr ∧
    (State.ringWrite t e rep s).pending = s.pending := by
  unfold State.ringWrite
  simp

theorem State.mirrorWrite_kept (t : Nat) (e : AEvent) (s : State) :
    (State.mirrorWrite t e s).member = s.member ∧
    (State.mirrorWrite t e s).now = s.now ∧
    (State.mirrorWrite t e s).regs = s.regs ∧
    (State.mirrorWrite t e s).unstored = s.unstored ∧
    (State.mirrorWrite t e s).host = s.host ∧
    (State.mirrorWrite t e s).epo = s.epo ∧
    (State.mirrorWrite t e s).cat = s.cat ∧
    (State.mirrorWrite t e s).med = s.med ∧
    (State.mirrorWrite t e s).coh = s.coh ∧
    (State.mirrorWrite t e s).lnk = s.lnk ∧
    (State.mirrorWrite t e s).rte = s.rte ∧
    (State.mirrorWrite t e s).cap = s.cap ∧
    (State.mirrorWrite t e s).cry = s.cry ∧
    (State.mirrorWrite t e s).flt = s.flt ∧
    (State.mirrorWrite t e s).cur = s.cur ∧
    (State.mirrorWrite t e s).thm = s.thm ∧
    (State.mirrorWrite t e s).pwr = s.pwr ∧
    (State.mirrorWrite t e s).pmc = s.pmc ∧
    (State.mirrorWrite t e s).out = s.out ∧
    (State.mirrorWrite t e s).net = s.net ∧
    (State.mirrorWrite t e s).freeCtr = s.freeCtr ∧
    (State.mirrorWrite t e s).pending = s.pending := by
  unfold State.mirrorWrite
  simp

theorem State.setBucket_kept (t code : Nat) (take : Bool) (suppr : Nat) (s : State) :
    (State.setBucket t code take suppr s).member = s.member ∧
    (State.setBucket t code take suppr s).now = s.now ∧
    (State.setBucket t code take suppr s).regs = s.regs ∧
    (State.setBucket t code take suppr s).unstored = s.unstored ∧
    (State.setBucket t code take suppr s).host = s.host ∧
    (State.setBucket t code take suppr s).epo = s.epo ∧
    (State.setBucket t code take suppr s).cat = s.cat ∧
    (State.setBucket t code take suppr s).med = s.med ∧
    (State.setBucket t code take suppr s).coh = s.coh ∧
    (State.setBucket t code take suppr s).lnk = s.lnk ∧
    (State.setBucket t code take suppr s).rte = s.rte ∧
    (State.setBucket t code take suppr s).cap = s.cap ∧
    (State.setBucket t code take suppr s).cry = s.cry ∧
    (State.setBucket t code take suppr s).flt = s.flt ∧
    (State.setBucket t code take suppr s).cur = s.cur ∧
    (State.setBucket t code take suppr s).thm = s.thm ∧
    (State.setBucket t code take suppr s).pwr = s.pwr ∧
    (State.setBucket t code take suppr s).pmc = s.pmc ∧
    (State.setBucket t code take suppr s).out = s.out ∧
    (State.setBucket t code take suppr s).net = s.net ∧
    (State.setBucket t code take suppr s).freeCtr = s.freeCtr ∧
    (State.setBucket t code take suppr s).pending = s.pending := by
  unfold State.setBucket
  simp

@[simp] theorem State.annal_kept (t : Nat) (e : AEvent) (s : State) :
    (State.annal t e s).member = s.member ∧
    (State.annal t e s).now = s.now ∧
    (State.annal t e s).unstored = s.unstored ∧
    (State.annal t e s).host = s.host ∧
    (State.annal t e s).epo = s.epo ∧
    (State.annal t e s).cat = s.cat ∧
    (State.annal t e s).med = s.med ∧
    (State.annal t e s).coh = s.coh ∧
    (State.annal t e s).lnk = s.lnk ∧
    (State.annal t e s).rte = s.rte ∧
    (State.annal t e s).cap = s.cap ∧
    (State.annal t e s).cry = s.cry ∧
    (State.annal t e s).flt = s.flt ∧
    (State.annal t e s).cur = s.cur ∧
    (State.annal t e s).thm = s.thm ∧
    (State.annal t e s).pwr = s.pwr ∧
    (State.annal t e s).pmc = s.pmc ∧
    (State.annal t e s).out = s.out ∧
    (State.annal t e s).net = s.net ∧
    (State.annal t e s).freeCtr = s.freeCtr ∧
    (State.annal t e s).pending = s.pending := by
  have k1 := State.mirrorWrite_kept
  have k2 := State.ringWrite_kept
  have k3 := State.setBucket_kept
  unfold State.annal
  simp [k1, k2, k3]

@[simp] theorem State.refusedWrite_kept (t actor off value : Nat) (s : State) :
    (State.refusedWrite t actor off value s).member = s.member ∧
    (State.refusedWrite t actor off value s).now = s.now ∧
    (State.refusedWrite t actor off value s).unstored = s.unstored ∧
    (State.refusedWrite t actor off value s).host = s.host ∧
    (State.refusedWrite t actor off value s).epo = s.epo ∧
    (State.refusedWrite t actor off value s).cat = s.cat ∧
    (State.refusedWrite t actor off value s).med = s.med ∧
    (State.refusedWrite t actor off value s).coh = s.coh ∧
    (State.refusedWrite t actor off value s).lnk = s.lnk ∧
    (State.refusedWrite t actor off value s).rte = s.rte ∧
    (State.refusedWrite t actor off value s).cap = s.cap ∧
    (State.refusedWrite t actor off value s).cry = s.cry ∧
    (State.refusedWrite t actor off value s).flt = s.flt ∧
    (State.refusedWrite t actor off value s).cur = s.cur ∧
    (State.refusedWrite t actor off value s).thm = s.thm ∧
    (State.refusedWrite t actor off value s).pwr = s.pwr ∧
    (State.refusedWrite t actor off value s).pmc = s.pmc ∧
    (State.refusedWrite t actor off value s).out = s.out ∧
    (State.refusedWrite t actor off value s).net = s.net ∧
    (State.refusedWrite t actor off value s).freeCtr = s.freeCtr ∧
    (State.refusedWrite t actor off value s).pending = s.pending := by
  unfold State.refusedWrite
  simp

@[simp] theorem State.raiseVector_kept (p v : Nat) (s : State) :
    (State.raiseVector p v s).member = s.member ∧
    (State.raiseVector p v s).now = s.now ∧
    (State.raiseVector p v s).regs = s.regs ∧
    (State.raiseVector p v s).unstored = s.unstored ∧
    (State.raiseVector p v s).epo = s.epo ∧
    (State.raiseVector p v s).cat = s.cat ∧
    (State.raiseVector p v s).med = s.med ∧
    (State.raiseVector p v s).coh = s.coh ∧
    (State.raiseVector p v s).lnk = s.lnk ∧
    (State.raiseVector p v s).rte = s.rte ∧
    (State.raiseVector p v s).cap = s.cap ∧
    (State.raiseVector p v s).cry = s.cry ∧
    (State.raiseVector p v s).flt = s.flt ∧
    (State.raiseVector p v s).anl = s.anl ∧
    (State.raiseVector p v s).cur = s.cur ∧
    (State.raiseVector p v s).thm = s.thm ∧
    (State.raiseVector p v s).pwr = s.pwr ∧
    (State.raiseVector p v s).pmc = s.pmc ∧
    (State.raiseVector p v s).net = s.net ∧
    (State.raiseVector p v s).freeCtr = s.freeCtr ∧
    (State.raiseVector p v s).pending = s.pending := by
  unfold State.raiseVector
  simp

@[simp] theorem State.raiseOn_kept (p k : Nat) (s : State) :
    (State.raiseOn p k s).member = s.member ∧
    (State.raiseOn p k s).now = s.now ∧
    (State.raiseOn p k s).unstored = s.unstored ∧
    (State.raiseOn p k s).epo = s.epo ∧
    (State.raiseOn p k s).cat = s.cat ∧
    (State.raiseOn p k s).med = s.med ∧
    (State.raiseOn p k s).coh = s.coh ∧
    (State.raiseOn p k s).lnk = s.lnk ∧
    (State.raiseOn p k s).rte = s.rte ∧
    (State.raiseOn p k s).cap = s.cap ∧
    (State.raiseOn p k s).cry = s.cry ∧
    (State.raiseOn p k s).flt = s.flt ∧
    (State.raiseOn p k s).anl = s.anl ∧
    (State.raiseOn p k s).cur = s.cur ∧
    (State.raiseOn p k s).thm = s.thm ∧
    (State.raiseOn p k s).pwr = s.pwr ∧
    (State.raiseOn p k s).pmc = s.pmc ∧
    (State.raiseOn p k s).net = s.net ∧
    (State.raiseOn p k s).freeCtr = s.freeCtr ∧
    (State.raiseOn p k s).pending = s.pending := by
  unfold State.raiseOn
  simp

@[simp] theorem State.raiseEvent_kept (k : Nat) (s : State) :
    (State.raiseEvent k s).member = s.member ∧
    (State.raiseEvent k s).now = s.now ∧
    (State.raiseEvent k s).unstored = s.unstored ∧
    (State.raiseEvent k s).epo = s.epo ∧
    (State.raiseEvent k s).cat = s.cat ∧
    (State.raiseEvent k s).med = s.med ∧
    (State.raiseEvent k s).coh = s.coh ∧
    (State.raiseEvent k s).lnk = s.lnk ∧
    (State.raiseEvent k s).rte = s.rte ∧
    (State.raiseEvent k s).cap = s.cap ∧
    (State.raiseEvent k s).cry = s.cry ∧
    (State.raiseEvent k s).flt = s.flt ∧
    (State.raiseEvent k s).anl = s.anl ∧
    (State.raiseEvent k s).cur = s.cur ∧
    (State.raiseEvent k s).thm = s.thm ∧
    (State.raiseEvent k s).pwr = s.pwr ∧
    (State.raiseEvent k s).pmc = s.pmc ∧
    (State.raiseEvent k s).net = s.net ∧
    (State.raiseEvent k s).freeCtr = s.freeCtr ∧
    (State.raiseEvent k s).pending = s.pending := by
  unfold State.raiseEvent
  simp

@[simp] theorem State.routeEvent_kept (t r bit : Nat) (s : State) :
    (State.routeEvent t r bit s).member = s.member ∧
    (State.routeEvent t r bit s).now = s.now ∧
    (State.routeEvent t r bit s).unstored = s.unstored ∧
    (State.routeEvent t r bit s).epo = s.epo ∧
    (State.routeEvent t r bit s).cat = s.cat ∧
    (State.routeEvent t r bit s).med = s.med ∧
    (State.routeEvent t r bit s).coh = s.coh ∧
    (State.routeEvent t r bit s).lnk = s.lnk ∧
    (State.routeEvent t r bit s).rte = s.rte ∧
    (State.routeEvent t r bit s).cap = s.cap ∧
    (State.routeEvent t r bit s).cry = s.cry ∧
    (State.routeEvent t r bit s).flt = s.flt ∧
    (State.routeEvent t r bit s).anl = s.anl ∧
    (State.routeEvent t r bit s).cur = s.cur ∧
    (State.routeEvent t r bit s).thm = s.thm ∧
    (State.routeEvent t r bit s).pwr = s.pwr ∧
    (State.routeEvent t r bit s).pmc = s.pmc ∧
    (State.routeEvent t r bit s).net = s.net ∧
    (State.routeEvent t r bit s).freeCtr = s.freeCtr ∧
    (State.routeEvent t r bit s).pending = s.pending := by
  unfold State.routeEvent
  simp

@[simp] theorem State.regionEvent_kept (t p r bit : Nat) (s : State) :
    (State.regionEvent t p r bit s).member = s.member ∧
    (State.regionEvent t p r bit s).now = s.now ∧
    (State.regionEvent t p r bit s).unstored = s.unstored ∧
    (State.regionEvent t p r bit s).epo = s.epo ∧
    (State.regionEvent t p r bit s).cat = s.cat ∧
    (State.regionEvent t p r bit s).med = s.med ∧
    (State.regionEvent t p r bit s).coh = s.coh ∧
    (State.regionEvent t p r bit s).lnk = s.lnk ∧
    (State.regionEvent t p r bit s).rte = s.rte ∧
    (State.regionEvent t p r bit s).cap = s.cap ∧
    (State.regionEvent t p r bit s).cry = s.cry ∧
    (State.regionEvent t p r bit s).flt = s.flt ∧
    (State.regionEvent t p r bit s).anl = s.anl ∧
    (State.regionEvent t p r bit s).cur = s.cur ∧
    (State.regionEvent t p r bit s).thm = s.thm ∧
    (State.regionEvent t p r bit s).pwr = s.pwr ∧
    (State.regionEvent t p r bit s).pmc = s.pmc ∧
    (State.regionEvent t p r bit s).net = s.net ∧
    (State.regionEvent t p r bit s).freeCtr = s.freeCtr ∧
    (State.regionEvent t p r bit s).pending = s.pending := by
  unfold State.regionEvent
  simp

theorem State.endQuiet_kept (s : State) :
    (State.endQuiet s).member = s.member ∧
    (State.endQuiet s).now = s.now ∧
    (State.endQuiet s).unstored = s.unstored ∧
    (State.endQuiet s).host = s.host ∧
    (State.endQuiet s).epo = s.epo ∧
    (State.endQuiet s).cat = s.cat ∧
    (State.endQuiet s).med = s.med ∧
    (State.endQuiet s).coh = s.coh ∧
    (State.endQuiet s).lnk = s.lnk ∧
    (State.endQuiet s).rte = s.rte ∧
    (State.endQuiet s).cap = s.cap ∧
    (State.endQuiet s).cry = s.cry ∧
    (State.endQuiet s).flt = s.flt ∧
    (State.endQuiet s).anl = s.anl ∧
    (State.endQuiet s).cur = s.cur ∧
    (State.endQuiet s).thm = s.thm ∧
    (State.endQuiet s).pwr = s.pwr ∧
    (State.endQuiet s).pmc = s.pmc ∧
    (State.endQuiet s).out = s.out ∧
    (State.endQuiet s).net = s.net ∧
    (State.endQuiet s).freeCtr = s.freeCtr ∧
    (State.endQuiet s).pending = s.pending := by
  unfold State.endQuiet
  simp

@[simp] theorem State.enterPower_kept (v : PwrSt) (s : State) :
    (State.enterPower v s).member = s.member ∧
    (State.enterPower v s).now = s.now ∧
    (State.enterPower v s).unstored = s.unstored ∧
    (State.enterPower v s).epo = s.epo ∧
    (State.enterPower v s).cat = s.cat ∧
    (State.enterPower v s).med = s.med ∧
    (State.enterPower v s).coh = s.coh ∧
    (State.enterPower v s).lnk = s.lnk ∧
    (State.enterPower v s).rte = s.rte ∧
    (State.enterPower v s).cap = s.cap ∧
    (State.enterPower v s).cry = s.cry ∧
    (State.enterPower v s).flt = s.flt ∧
    (State.enterPower v s).cur = s.cur ∧
    (State.enterPower v s).thm = s.thm ∧
    (State.enterPower v s).pmc = s.pmc ∧
    (State.enterPower v s).net = s.net ∧
    (State.enterPower v s).freeCtr = s.freeCtr ∧
    (State.enterPower v s).pending = s.pending ∧
    (State.enterPower v s).pwr.straps = s.pwr.straps := by
  have k1 := State.endQuiet_kept
  unfold State.enterPower
  simp [k1]

@[simp] theorem State.wake_kept (s : State) :
    (State.wake s).member = s.member ∧
    (State.wake s).now = s.now ∧
    (State.wake s).unstored = s.unstored ∧
    (State.wake s).epo = s.epo ∧
    (State.wake s).cat = s.cat ∧
    (State.wake s).med = s.med ∧
    (State.wake s).coh = s.coh ∧
    (State.wake s).lnk = s.lnk ∧
    (State.wake s).rte = s.rte ∧
    (State.wake s).cap = s.cap ∧
    (State.wake s).cry = s.cry ∧
    (State.wake s).flt = s.flt ∧
    (State.wake s).cur = s.cur ∧
    (State.wake s).thm = s.thm ∧
    (State.wake s).pmc = s.pmc ∧
    (State.wake s).net = s.net ∧
    (State.wake s).freeCtr = s.freeCtr ∧
    (State.wake s).pending = s.pending ∧
    (State.wake s).pwr.straps = s.pwr.straps := by
  unfold State.wake
  repeat' split
  all_goals simp [*]

theorem State.setStaged_kept (p src : Nat) (l : List (Nat × Cqe)) (s : State) :
    (State.setStaged p src l s).member = s.member ∧
    (State.setStaged p src l s).now = s.now ∧
    (State.setStaged p src l s).regs = s.regs ∧
    (State.setStaged p src l s).unstored = s.unstored ∧
    (State.setStaged p src l s).epo = s.epo ∧
    (State.setStaged p src l s).cat = s.cat ∧
    (State.setStaged p src l s).med = s.med ∧
    (State.setStaged p src l s).coh = s.coh ∧
    (State.setStaged p src l s).lnk = s.lnk ∧
    (State.setStaged p src l s).rte = s.rte ∧
    (State.setStaged p src l s).cap = s.cap ∧
    (State.setStaged p src l s).cry = s.cry ∧
    (State.setStaged p src l s).flt = s.flt ∧
    (State.setStaged p src l s).anl = s.anl ∧
    (State.setStaged p src l s).cur = s.cur ∧
    (State.setStaged p src l s).thm = s.thm ∧
    (State.setStaged p src l s).pwr = s.pwr ∧
    (State.setStaged p src l s).pmc = s.pmc ∧
    (State.setStaged p src l s).out = s.out ∧
    (State.setStaged p src l s).net = s.net ∧
    (State.setStaged p src l s).freeCtr = s.freeCtr ∧
    (State.setStaged p src l s).pending = s.pending := by
  unfold State.setStaged
  simp

theorem State.setWaiting_kept (p src : Nat) (l : List (Nat × Cqe)) (s : State) :
    (State.setWaiting p src l s).member = s.member ∧
    (State.setWaiting p src l s).now = s.now ∧
    (State.setWaiting p src l s).regs = s.regs ∧
    (State.setWaiting p src l s).unstored = s.unstored ∧
    (State.setWaiting p src l s).epo = s.epo ∧
    (State.setWaiting p src l s).cat = s.cat ∧
    (State.setWaiting p src l s).med = s.med ∧
    (State.setWaiting p src l s).coh = s.coh ∧
    (State.setWaiting p src l s).lnk = s.lnk ∧
    (State.setWaiting p src l s).rte = s.rte ∧
    (State.setWaiting p src l s).cap = s.cap ∧
    (State.setWaiting p src l s).cry = s.cry ∧
    (State.setWaiting p src l s).flt = s.flt ∧
    (State.setWaiting p src l s).anl = s.anl ∧
    (State.setWaiting p src l s).cur = s.cur ∧
    (State.setWaiting p src l s).thm = s.thm ∧
    (State.setWaiting p src l s).pwr = s.pwr ∧
    (State.setWaiting p src l s).pmc = s.pmc ∧
    (State.setWaiting p src l s).out = s.out ∧
    (State.setWaiting p src l s).net = s.net ∧
    (State.setWaiting p src l s).freeCtr = s.freeCtr ∧
    (State.setWaiting p src l s).pending = s.pending := by
  unfold State.setWaiting
  simp

theorem State.stageCqe_kept (p src : Nat) (e : Nat × Cqe) (s : State) :
    (State.stageCqe p src e s).member = s.member ∧
    (State.stageCqe p src e s).now = s.now ∧
    (State.stageCqe p src e s).regs = s.regs ∧
    (State.stageCqe p src e s).unstored = s.unstored ∧
    (State.stageCqe p src e s).epo = s.epo ∧
    (State.stageCqe p src e s).cat = s.cat ∧
    (State.stageCqe p src e s).med = s.med ∧
    (State.stageCqe p src e s).coh = s.coh ∧
    (State.stageCqe p src e s).lnk = s.lnk ∧
    (State.stageCqe p src e s).rte = s.rte ∧
    (State.stageCqe p src e s).cap = s.cap ∧
    (State.stageCqe p src e s).cry = s.cry ∧
    (State.stageCqe p src e s).flt = s.flt ∧
    (State.stageCqe p src e s).anl = s.anl ∧
    (State.stageCqe p src e s).cur = s.cur ∧
    (State.stageCqe p src e s).thm = s.thm ∧
    (State.stageCqe p src e s).pwr = s.pwr ∧
    (State.stageCqe p src e s).pmc = s.pmc ∧
    (State.stageCqe p src e s).out = s.out ∧
    (State.stageCqe p src e s).net = s.net ∧
    (State.stageCqe p src e s).freeCtr = s.freeCtr ∧
    (State.stageCqe p src e s).pending = s.pending := by
  have k1 := State.setStaged_kept
  have k2 := State.setWaiting_kept
  unfold State.stageCqe
  simp [k1, k2]

theorem State.leaveQueue_kept (c : Ctx) (s : State) :
    (State.leaveQueue c s).member = s.member ∧
    (State.leaveQueue c s).now = s.now ∧
    (State.leaveQueue c s).regs = s.regs ∧
    (State.leaveQueue c s).unstored = s.unstored ∧
    (State.leaveQueue c s).host = s.host ∧
    (State.leaveQueue c s).epo = s.epo ∧
    (State.leaveQueue c s).cat = s.cat ∧
    (State.leaveQueue c s).med = s.med ∧
    (State.leaveQueue c s).coh = s.coh ∧
    (State.leaveQueue c s).lnk = s.lnk ∧
    (State.leaveQueue c s).rte = s.rte ∧
    (State.leaveQueue c s).cap = s.cap ∧
    (State.leaveQueue c s).cry = s.cry ∧
    (State.leaveQueue c s).flt = s.flt ∧
    (State.leaveQueue c s).anl = s.anl ∧
    (State.leaveQueue c s).thm = s.thm ∧
    (State.leaveQueue c s).pwr = s.pwr ∧
    (State.leaveQueue c s).pmc = s.pmc ∧
    (State.leaveQueue c s).out = s.out ∧
    (State.leaveQueue c s).net = s.net ∧
    (State.leaveQueue c s).freeCtr = s.freeCtr ∧
    (State.leaveQueue c s).pending = s.pending ∧
    (State.leaveQueue c s).cur.lifecycle = s.cur.lifecycle ∧
    (State.leaveQueue c s).cur.rootGen = s.cur.rootGen ∧
    (State.leaveQueue c s).cur.returns = s.cur.returns ∧
    (State.leaveQueue c s).cur.revoked = s.cur.revoked := by
  unfold State.leaveQueue
  dsimp only
  repeat' split
  all_goals simp

theorem State.answer_kept (src : Nat) (k : Cmd) (st : Status) (result : Nat) (s : State) :
    (State.answer src k st result s).member = s.member ∧
    (State.answer src k st result s).now = s.now ∧
    (State.answer src k st result s).unstored = s.unstored ∧
    (State.answer src k st result s).epo = s.epo ∧
    (State.answer src k st result s).cat = s.cat ∧
    (State.answer src k st result s).med = s.med ∧
    (State.answer src k st result s).coh = s.coh ∧
    (State.answer src k st result s).lnk = s.lnk ∧
    (State.answer src k st result s).rte = s.rte ∧
    (State.answer src k st result s).cap = s.cap ∧
    (State.answer src k st result s).cry = s.cry ∧
    (State.answer src k st result s).flt = s.flt ∧
    (State.answer src k st result s).anl = s.anl ∧
    (State.answer src k st result s).thm = s.thm ∧
    (State.answer src k st result s).pwr = s.pwr ∧
    (State.answer src k st result s).pmc = s.pmc ∧
    (State.answer src k st result s).out = s.out ∧
    (State.answer src k st result s).net = s.net ∧
    (State.answer src k st result s).freeCtr = s.freeCtr ∧
    (State.answer src k st result s).pending = s.pending ∧
    (State.answer src k st result s).cur.lifecycle = s.cur.lifecycle ∧
    (State.answer src k st result s).cur.rootGen = s.cur.rootGen ∧
    (State.answer src k st result s).cur.returns = s.cur.returns ∧
    (State.answer src k st result s).cur.revoked = s.cur.revoked := by
  have k1 := State.leaveQueue_kept
  have k2 := State.stageCqe_kept
  unfold State.answer
  simp [k1, k2]

theorem State.replyWith_kept (src : Nat) (c : Ctx) (st : Status) (result : Nat) (bytes : List Byte) (s : State) :
    (State.replyWith src c st result bytes s).member = s.member ∧
    (State.replyWith src c st result bytes s).now = s.now ∧
    (State.replyWith src c st result bytes s).unstored = s.unstored ∧
    (State.replyWith src c st result bytes s).epo = s.epo ∧
    (State.replyWith src c st result bytes s).cat = s.cat ∧
    (State.replyWith src c st result bytes s).med = s.med ∧
    (State.replyWith src c st result bytes s).coh = s.coh ∧
    (State.replyWith src c st result bytes s).lnk = s.lnk ∧
    (State.replyWith src c st result bytes s).rte = s.rte ∧
    (State.replyWith src c st result bytes s).cap = s.cap ∧
    (State.replyWith src c st result bytes s).cry = s.cry ∧
    (State.replyWith src c st result bytes s).flt = s.flt ∧
    (State.replyWith src c st result bytes s).anl = s.anl ∧
    (State.replyWith src c st result bytes s).thm = s.thm ∧
    (State.replyWith src c st result bytes s).pwr = s.pwr ∧
    (State.replyWith src c st result bytes s).pmc = s.pmc ∧
    (State.replyWith src c st result bytes s).net = s.net ∧
    (State.replyWith src c st result bytes s).freeCtr = s.freeCtr ∧
    (State.replyWith src c st result bytes s).pending = s.pending ∧
    (State.replyWith src c st result bytes s).cur.lifecycle = s.cur.lifecycle ∧
    (State.replyWith src c st result bytes s).cur.rootGen = s.cur.rootGen ∧
    (State.replyWith src c st result bytes s).cur.returns = s.cur.returns ∧
    (State.replyWith src c st result bytes s).cur.revoked = s.cur.revoked := by
  have k1 := State.answer_kept
  unfold State.replyWith
  repeat' split
  all_goals simp [k1, *]

@[simp] theorem State.reply_kept (src : Nat) (c : Ctx) (st : Status) (result : Nat) (s : State) :
    (State.reply src c st result s).member = s.member ∧
    (State.reply src c st result s).now = s.now ∧
    (State.reply src c st result s).unstored = s.unstored ∧
    (State.reply src c st result s).epo = s.epo ∧
    (State.reply src c st result s).cat = s.cat ∧
    (State.reply src c st result s).med = s.med ∧
    (State.reply src c st result s).coh = s.coh ∧
    (State.reply src c st result s).lnk = s.lnk ∧
    (State.reply src c st result s).rte = s.rte ∧
    (State.reply src c st result s).cap = s.cap ∧
    (State.reply src c st result s).cry = s.cry ∧
    (State.reply src c st result s).flt = s.flt ∧
    (State.reply src c st result s).anl = s.anl ∧
    (State.reply src c st result s).thm = s.thm ∧
    (State.reply src c st result s).pwr = s.pwr ∧
    (State.reply src c st result s).pmc = s.pmc ∧
    (State.reply src c st result s).net = s.net ∧
    (State.reply src c st result s).freeCtr = s.freeCtr ∧
    (State.reply src c st result s).pending = s.pending ∧
    (State.reply src c st result s).cur.lifecycle = s.cur.lifecycle ∧
    (State.reply src c st result s).cur.rootGen = s.cur.rootGen ∧
    (State.reply src c st result s).cur.returns = s.cur.returns ∧
    (State.reply src c st result s).cur.revoked = s.cur.revoked := by
  have k1 := State.replyWith_kept
  unfold State.reply
  simp [k1]

@[simp] theorem State.misuse_kept (c : Ctx) (opc : Nat) (s : State) :
    (State.misuse c opc s).member = s.member ∧
    (State.misuse c opc s).now = s.now ∧
    (State.misuse c opc s).unstored = s.unstored ∧
    (State.misuse c opc s).host = s.host ∧
    (State.misuse c opc s).epo = s.epo ∧
    (State.misuse c opc s).cat = s.cat ∧
    (State.misuse c opc s).med = s.med ∧
    (State.misuse c opc s).coh = s.coh ∧
    (State.misuse c opc s).lnk = s.lnk ∧
    (State.misuse c opc s).rte = s.rte ∧
    (State.misuse c opc s).cap = s.cap ∧
    (State.misuse c opc s).cry = s.cry ∧
    (State.misuse c opc s).flt = s.flt ∧
    (State.misuse c opc s).cur = s.cur ∧
    (State.misuse c opc s).thm = s.thm ∧
    (State.misuse c opc s).pwr = s.pwr ∧
    (State.misuse c opc s).pmc = s.pmc ∧
    (State.misuse c opc s).out = s.out ∧
    (State.misuse c opc s).net = s.net ∧
    (State.misuse c opc s).freeCtr = s.freeCtr ∧
    (State.misuse c opc s).pending = s.pending := by
  unfold State.misuse
  simp

theorem State.curWork_kept (s : State) :
    (State.curWork s).member = s.member ∧
    (State.curWork s).now = s.now ∧
    (State.curWork s).regs = s.regs ∧
    (State.curWork s).unstored = s.unstored ∧
    (State.curWork s).host = s.host ∧
    (State.curWork s).epo = s.epo ∧
    (State.curWork s).cat = s.cat ∧
    (State.curWork s).med = s.med ∧
    (State.curWork s).coh = s.coh ∧
    (State.curWork s).lnk = s.lnk ∧
    (State.curWork s).rte = s.rte ∧
    (State.curWork s).cap = s.cap ∧
    (State.curWork s).cry = s.cry ∧
    (State.curWork s).flt = s.flt ∧
    (State.curWork s).anl = s.anl ∧
    (State.curWork s).cur = s.cur ∧
    (State.curWork s).thm = s.thm ∧
    (State.curWork s).pwr = s.pwr ∧
    (State.curWork s).out = s.out ∧
    (State.curWork s).net = s.net ∧
    (State.curWork s).freeCtr = s.freeCtr ∧
    (State.curWork s).pending = s.pending := by
  unfold State.curWork
  repeat' split
  all_goals simp [*]

theorem State.enqueue_kept (opc : Nat) (c : Ctx) (ps : List Param) (s : State) :
    (State.enqueue opc c ps s).member = s.member ∧
    (State.enqueue opc c ps s).now = s.now ∧
    (State.enqueue opc c ps s).unstored = s.unstored ∧
    (State.enqueue opc c ps s).epo = s.epo ∧
    (State.enqueue opc c ps s).cat = s.cat ∧
    (State.enqueue opc c ps s).med = s.med ∧
    (State.enqueue opc c ps s).coh = s.coh ∧
    (State.enqueue opc c ps s).lnk = s.lnk ∧
    (State.enqueue opc c ps s).rte = s.rte ∧
    (State.enqueue opc c ps s).cap = s.cap ∧
    (State.enqueue opc c ps s).cry = s.cry ∧
    (State.enqueue opc c ps s).flt = s.flt ∧
    (State.enqueue opc c ps s).anl = s.anl ∧
    (State.enqueue opc c ps s).thm = s.thm ∧
    (State.enqueue opc c ps s).pwr = s.pwr ∧
    (State.enqueue opc c ps s).net = s.net ∧
    (State.enqueue opc c ps s).freeCtr = s.freeCtr ∧
    (State.enqueue opc c ps s).pending = s.pending ∧
    (State.enqueue opc c ps s).cur.lifecycle = s.cur.lifecycle ∧
    (State.enqueue opc c ps s).cur.rootGen = s.cur.rootGen ∧
    (State.enqueue opc c ps s).cur.returns = s.cur.returns ∧
    (State.enqueue opc c ps s).cur.revoked = s.cur.revoked := by
  have k1 := State.curWork_kept
  unfold State.enqueue
  dsimp only
  repeat' split
  all_goals simp [k1]

theorem State.leaveHead_kept (opc : Nat) (c : Ctx) (s : State) :
    (State.leaveHead opc c s).member = s.member ∧
    (State.leaveHead opc c s).now = s.now ∧
    (State.leaveHead opc c s).regs = s.regs ∧
    (State.leaveHead opc c s).unstored = s.unstored ∧
    (State.leaveHead opc c s).host = s.host ∧
    (State.leaveHead opc c s).epo = s.epo ∧
    (State.leaveHead opc c s).cat = s.cat ∧
    (State.leaveHead opc c s).med = s.med ∧
    (State.leaveHead opc c s).coh = s.coh ∧
    (State.leaveHead opc c s).lnk = s.lnk ∧
    (State.leaveHead opc c s).rte = s.rte ∧
    (State.leaveHead opc c s).cap = s.cap ∧
    (State.leaveHead opc c s).cry = s.cry ∧
    (State.leaveHead opc c s).flt = s.flt ∧
    (State.leaveHead opc c s).anl = s.anl ∧
    (State.leaveHead opc c s).thm = s.thm ∧
    (State.leaveHead opc c s).pwr = s.pwr ∧
    (State.leaveHead opc c s).pmc = s.pmc ∧
    (State.leaveHead opc c s).out = s.out ∧
    (State.leaveHead opc c s).net = s.net ∧
    (State.leaveHead opc c s).freeCtr = s.freeCtr ∧
    (State.leaveHead opc c s).pending = s.pending ∧
    (State.leaveHead opc c s).cur.lifecycle = s.cur.lifecycle ∧
    (State.leaveHead opc c s).cur.rootGen = s.cur.rootGen ∧
    (State.leaveHead opc c s).cur.returns = s.cur.returns ∧
    (State.leaveHead opc c s).cur.revoked = s.cur.revoked := by
  unfold State.leaveHead
  dsimp only
  repeat' split
  all_goals simp

@[simp] theorem State.command_member (opc src : Nat) (c : Ctx) (ps : List Param) (body : State → State) (s : State) (h : ∀ s, (body s).member = s.member) :
    (State.command opc src c ps body s).member = s.member := by
  have k1 := State.enqueue_kept
  have k2 := State.leaveHead_kept
  unfold State.command
  (try dsimp only)
  repeat' split
  all_goals simp [k1, k2, h]

@[simp] theorem State.command_now (opc src : Nat) (c : Ctx) (ps : List Param) (body : State → State) (s : State) (h : ∀ s, (body s).now = s.now) :
    (State.command opc src c ps body s).now = s.now := by
  have k1 := State.enqueue_kept
  have k2 := State.leaveHead_kept
  unfold State.command
  (try dsimp only)
  repeat' split
  all_goals simp [k1, k2, h]

@[simp] theorem State.command_unstored (opc src : Nat) (c : Ctx) (ps : List Param) (body : State → State) (s : State) (h : ∀ s, (body s).unstored = s.unstored) :
    (State.command opc src c ps body s).unstored = s.unstored := by
  have k1 := State.enqueue_kept
  have k2 := State.leaveHead_kept
  unfold State.command
  (try dsimp only)
  repeat' split
  all_goals simp [k1, k2, h]

@[simp] theorem State.command_epo (opc src : Nat) (c : Ctx) (ps : List Param) (body : State → State) (s : State) (h : ∀ s, (body s).epo = s.epo) :
    (State.command opc src c ps body s).epo = s.epo := by
  have k1 := State.enqueue_kept
  have k2 := State.leaveHead_kept
  unfold State.command
  (try dsimp only)
  repeat' split
  all_goals simp [k1, k2, h]

@[simp] theorem State.command_cat (opc src : Nat) (c : Ctx) (ps : List Param) (body : State → State) (s : State) (h : ∀ s, (body s).cat = s.cat) :
    (State.command opc src c ps body s).cat = s.cat := by
  have k1 := State.enqueue_kept
  have k2 := State.leaveHead_kept
  unfold State.command
  (try dsimp only)
  repeat' split
  all_goals simp [k1, k2, h]

@[simp] theorem State.command_med (opc src : Nat) (c : Ctx) (ps : List Param) (body : State → State) (s : State) (h : ∀ s, (body s).med = s.med) :
    (State.command opc src c ps body s).med = s.med := by
  have k1 := State.enqueue_kept
  have k2 := State.leaveHead_kept
  unfold State.command
  (try dsimp only)
  repeat' split
  all_goals simp [k1, k2, h]

@[simp] theorem State.command_coh (opc src : Nat) (c : Ctx) (ps : List Param) (body : State → State) (s : State) (h : ∀ s, (body s).coh = s.coh) :
    (State.command opc src c ps body s).coh = s.coh := by
  have k1 := State.enqueue_kept
  have k2 := State.leaveHead_kept
  unfold State.command
  (try dsimp only)
  repeat' split
  all_goals simp [k1, k2, h]

@[simp] theorem State.command_lnk (opc src : Nat) (c : Ctx) (ps : List Param) (body : State → State) (s : State) (h : ∀ s, (body s).lnk = s.lnk) :
    (State.command opc src c ps body s).lnk = s.lnk := by
  have k1 := State.enqueue_kept
  have k2 := State.leaveHead_kept
  unfold State.command
  (try dsimp only)
  repeat' split
  all_goals simp [k1, k2, h]

@[simp] theorem State.command_rte (opc src : Nat) (c : Ctx) (ps : List Param) (body : State → State) (s : State) (h : ∀ s, (body s).rte = s.rte) :
    (State.command opc src c ps body s).rte = s.rte := by
  have k1 := State.enqueue_kept
  have k2 := State.leaveHead_kept
  unfold State.command
  (try dsimp only)
  repeat' split
  all_goals simp [k1, k2, h]

@[simp] theorem State.command_cap (opc src : Nat) (c : Ctx) (ps : List Param) (body : State → State) (s : State) (h : ∀ s, (body s).cap = s.cap) :
    (State.command opc src c ps body s).cap = s.cap := by
  have k1 := State.enqueue_kept
  have k2 := State.leaveHead_kept
  unfold State.command
  (try dsimp only)
  repeat' split
  all_goals simp [k1, k2, h]

@[simp] theorem State.command_cry (opc src : Nat) (c : Ctx) (ps : List Param) (body : State → State) (s : State) (h : ∀ s, (body s).cry = s.cry) :
    (State.command opc src c ps body s).cry = s.cry := by
  have k1 := State.enqueue_kept
  have k2 := State.leaveHead_kept
  unfold State.command
  (try dsimp only)
  repeat' split
  all_goals simp [k1, k2, h]

@[simp] theorem State.command_flt (opc src : Nat) (c : Ctx) (ps : List Param) (body : State → State) (s : State) (h : ∀ s, (body s).flt = s.flt) :
    (State.command opc src c ps body s).flt = s.flt := by
  have k1 := State.enqueue_kept
  have k2 := State.leaveHead_kept
  unfold State.command
  (try dsimp only)
  repeat' split
  all_goals simp [k1, k2, h]

@[simp] theorem State.command_anl (opc src : Nat) (c : Ctx) (ps : List Param) (body : State → State) (s : State) (h : ∀ s, (body s).anl = s.anl) :
    (State.command opc src c ps body s).anl = s.anl := by
  have k1 := State.enqueue_kept
  have k2 := State.leaveHead_kept
  unfold State.command
  (try dsimp only)
  repeat' split
  all_goals simp [k1, k2, h]

@[simp] theorem State.command_thm (opc src : Nat) (c : Ctx) (ps : List Param) (body : State → State) (s : State) (h : ∀ s, (body s).thm = s.thm) :
    (State.command opc src c ps body s).thm = s.thm := by
  have k1 := State.enqueue_kept
  have k2 := State.leaveHead_kept
  unfold State.command
  (try dsimp only)
  repeat' split
  all_goals simp [k1, k2, h]

@[simp] theorem State.command_pwr (opc src : Nat) (c : Ctx) (ps : List Param) (body : State → State) (s : State) (h : ∀ s, (body s).pwr = s.pwr) :
    (State.command opc src c ps body s).pwr = s.pwr := by
  have k1 := State.enqueue_kept
  have k2 := State.leaveHead_kept
  unfold State.command
  (try dsimp only)
  repeat' split
  all_goals simp [k1, k2, h]

@[simp] theorem State.command_net (opc src : Nat) (c : Ctx) (ps : List Param) (body : State → State) (s : State) (h : ∀ s, (body s).net = s.net) :
    (State.command opc src c ps body s).net = s.net := by
  have k1 := State.enqueue_kept
  have k2 := State.leaveHead_kept
  unfold State.command
  (try dsimp only)
  repeat' split
  all_goals simp [k1, k2, h]

@[simp] theorem State.command_freeCtr (opc src : Nat) (c : Ctx) (ps : List Param) (body : State → State) (s : State) (h : ∀ s, (body s).freeCtr = s.freeCtr) :
    (State.command opc src c ps body s).freeCtr = s.freeCtr := by
  have k1 := State.enqueue_kept
  have k2 := State.leaveHead_kept
  unfold State.command
  (try dsimp only)
  repeat' split
  all_goals simp [k1, k2, h]

@[simp] theorem State.command_pending (opc src : Nat) (c : Ctx) (ps : List Param) (body : State → State) (s : State) (h : ∀ s, (body s).pending = s.pending) :
    (State.command opc src c ps body s).pending = s.pending := by
  have k1 := State.enqueue_kept
  have k2 := State.leaveHead_kept
  unfold State.command
  (try dsimp only)
  repeat' split
  all_goals simp [k1, k2, h]

@[simp] theorem State.command_cur_lifecycle (opc src : Nat) (c : Ctx) (ps : List Param) (body : State → State) (s : State) (h : ∀ s, (body s).cur.lifecycle = s.cur.lifecycle) :
    (State.command opc src c ps body s).cur.lifecycle = s.cur.lifecycle := by
  have k1 := State.enqueue_kept
  have k2 := State.leaveHead_kept
  unfold State.command
  (try dsimp only)
  repeat' split
  all_goals simp [k1, k2, h]

@[simp] theorem State.command_cur_rootGen (opc src : Nat) (c : Ctx) (ps : List Param) (body : State → State) (s : State) (h : ∀ s, (body s).cur.rootGen = s.cur.rootGen) :
    (State.command opc src c ps body s).cur.rootGen = s.cur.rootGen := by
  have k1 := State.enqueue_kept
  have k2 := State.leaveHead_kept
  unfold State.command
  (try dsimp only)
  repeat' split
  all_goals simp [k1, k2, h]

@[simp] theorem State.command_cur_returns (opc src : Nat) (c : Ctx) (ps : List Param) (body : State → State) (s : State) (h : ∀ s, (body s).cur.returns = s.cur.returns) :
    (State.command opc src c ps body s).cur.returns = s.cur.returns := by
  have k1 := State.enqueue_kept
  have k2 := State.leaveHead_kept
  unfold State.command
  (try dsimp only)
  repeat' split
  all_goals simp [k1, k2, h]

@[simp] theorem State.command_cur_revoked (opc src : Nat) (c : Ctx) (ps : List Param) (body : State → State) (s : State) (h : ∀ s, (body s).cur.revoked = s.cur.revoked) :
    (State.command opc src c ps body s).cur.revoked = s.cur.revoked := by
  have k1 := State.enqueue_kept
  have k2 := State.leaveHead_kept
  unfold State.command
  (try dsimp only)
  repeat' split
  all_goals simp [k1, k2, h]

@[simp] theorem State.ringRecord_kept (p addr value : Nat) (s : State) :
    (State.ringRecord p addr value s).member = s.member ∧
    (State.ringRecord p addr value s).now = s.now ∧
    (State.ringRecord p addr value s).unstored = s.unstored ∧
    (State.ringRecord p addr value s).host = s.host ∧
    (State.ringRecord p addr value s).epo = s.epo ∧
    (State.ringRecord p addr value s).cat = s.cat ∧
    (State.ringRecord p addr value s).med = s.med ∧
    (State.ringRecord p addr value s).coh = s.coh ∧
    (State.ringRecord p addr value s).lnk = s.lnk ∧
    (State.ringRecord p addr value s).rte = s.rte ∧
    (State.ringRecord p addr value s).cap = s.cap ∧
    (State.ringRecord p addr value s).cry = s.cry ∧
    (State.ringRecord p addr value s).flt = s.flt ∧
    (State.ringRecord p addr value s).cur = s.cur ∧
    (State.ringRecord p addr value s).thm = s.thm ∧
    (State.ringRecord p addr value s).pwr = s.pwr ∧
    (State.ringRecord p addr value s).pmc = s.pmc ∧
    (State.ringRecord p addr value s).out = s.out ∧
    (State.ringRecord p addr value s).net = s.net ∧
    (State.ringRecord p addr value s).freeCtr = s.freeCtr ∧
    (State.ringRecord p addr value s).pending = s.pending := by
  unfold State.ringRecord
  simp

@[simp] theorem State.sqError_kept (p n code : Nat) (s : State) :
    (State.sqError p n code s).member = s.member ∧
    (State.sqError p n code s).now = s.now ∧
    (State.sqError p n code s).unstored = s.unstored ∧
    (State.sqError p n code s).epo = s.epo ∧
    (State.sqError p n code s).cat = s.cat ∧
    (State.sqError p n code s).med = s.med ∧
    (State.sqError p n code s).coh = s.coh ∧
    (State.sqError p n code s).lnk = s.lnk ∧
    (State.sqError p n code s).rte = s.rte ∧
    (State.sqError p n code s).cap = s.cap ∧
    (State.sqError p n code s).cry = s.cry ∧
    (State.sqError p n code s).flt = s.flt ∧
    (State.sqError p n code s).cur = s.cur ∧
    (State.sqError p n code s).thm = s.thm ∧
    (State.sqError p n code s).pwr = s.pwr ∧
    (State.sqError p n code s).pmc = s.pmc ∧
    (State.sqError p n code s).out = s.out ∧
    (State.sqError p n code s).net = s.net ∧
    (State.sqError p n code s).freeCtr = s.freeCtr ∧
    (State.sqError p n code s).pending = s.pending := by
  unfold State.sqError
  simp

theorem State.release_kept (p c n : Nat) (s : State) :
    (State.release p c n s).member = s.member ∧
    (State.release p c n s).now = s.now ∧
    (State.release p c n s).regs = s.regs ∧
    (State.release p c n s).unstored = s.unstored ∧
    (State.release p c n s).epo = s.epo ∧
    (State.release p c n s).cat = s.cat ∧
    (State.release p c n s).med = s.med ∧
    (State.release p c n s).coh = s.coh ∧
    (State.release p c n s).lnk = s.lnk ∧
    (State.release p c n s).rte = s.rte ∧
    (State.release p c n s).cap = s.cap ∧
    (State.release p c n s).cry = s.cry ∧
    (State.release p c n s).flt = s.flt ∧
    (State.release p c n s).anl = s.anl ∧
    (State.release p c n s).cur = s.cur ∧
    (State.release p c n s).thm = s.thm ∧
    (State.release p c n s).pwr = s.pwr ∧
    (State.release p c n s).pmc = s.pmc ∧
    (State.release p c n s).out = s.out ∧
    (State.release p c n s).net = s.net ∧
    (State.release p c n s).freeCtr = s.freeCtr ∧
    (State.release p c n s).pending = s.pending := by
  unfold State.release
  simp

theorem State.placeFetch_kept (p : Nat) (f : Fetch) (es : List Fetched) (s : State) :
    (State.placeFetch p f es s).member = s.member ∧
    (State.placeFetch p f es s).now = s.now ∧
    (State.placeFetch p f es s).unstored = s.unstored ∧
    (State.placeFetch p f es s).epo = s.epo ∧
    (State.placeFetch p f es s).cat = s.cat ∧
    (State.placeFetch p f es s).med = s.med ∧
    (State.placeFetch p f es s).coh = s.coh ∧
    (State.placeFetch p f es s).lnk = s.lnk ∧
    (State.placeFetch p f es s).rte = s.rte ∧
    (State.placeFetch p f es s).cap = s.cap ∧
    (State.placeFetch p f es s).cry = s.cry ∧
    (State.placeFetch p f es s).flt = s.flt ∧
    (State.placeFetch p f es s).cur = s.cur ∧
    (State.placeFetch p f es s).thm = s.thm ∧
    (State.placeFetch p f es s).pwr = s.pwr ∧
    (State.placeFetch p f es s).net = s.net ∧
    (State.placeFetch p f es s).freeCtr = s.freeCtr ∧
    (State.placeFetch p f es s).pending = s.pending := by
  have k1 := State.release_kept
  unfold State.placeFetch
  simp [k1]

theorem State.placeReady_kept (p q fuel : Nat) (s : State) :
    (State.placeReady p q fuel s).member = s.member ∧
    (State.placeReady p q fuel s).now = s.now ∧
    (State.placeReady p q fuel s).unstored = s.unstored ∧
    (State.placeReady p q fuel s).epo = s.epo ∧
    (State.placeReady p q fuel s).cat = s.cat ∧
    (State.placeReady p q fuel s).med = s.med ∧
    (State.placeReady p q fuel s).coh = s.coh ∧
    (State.placeReady p q fuel s).lnk = s.lnk ∧
    (State.placeReady p q fuel s).rte = s.rte ∧
    (State.placeReady p q fuel s).cap = s.cap ∧
    (State.placeReady p q fuel s).cry = s.cry ∧
    (State.placeReady p q fuel s).flt = s.flt ∧
    (State.placeReady p q fuel s).cur = s.cur ∧
    (State.placeReady p q fuel s).thm = s.thm ∧
    (State.placeReady p q fuel s).pwr = s.pwr ∧
    (State.placeReady p q fuel s).net = s.net ∧
    (State.placeReady p q fuel s).freeCtr = s.freeCtr ∧
    (State.placeReady p q fuel s).pending = s.pending := by
  have k1 := State.placeFetch_kept
  induction fuel generalizing s with
  | zero => simp [k1, State.placeReady]
  | succ n ih =>
    unfold State.placeReady
    dsimp only
    repeat' split
    all_goals simp [k1, ih]

@[simp] theorem State.setKid_kept (k : Nat) (v : Kid) (s : State) :
    (State.setKid k v s).member = s.member ∧
    (State.setKid k v s).now = s.now ∧
    (State.setKid k v s).regs = s.regs ∧
    (State.setKid k v s).unstored = s.unstored ∧
    (State.setKid k v s).host = s.host ∧
    (State.setKid k v s).epo = s.epo ∧
    (State.setKid k v s).cat = s.cat ∧
    (State.setKid k v s).med = s.med ∧
    (State.setKid k v s).coh = s.coh ∧
    (State.setKid k v s).lnk = s.lnk ∧
    (State.setKid k v s).rte = s.rte ∧
    (State.setKid k v s).cap = s.cap ∧
    (State.setKid k v s).flt = s.flt ∧
    (State.setKid k v s).anl = s.anl ∧
    (State.setKid k v s).cur = s.cur ∧
    (State.setKid k v s).thm = s.thm ∧
    (State.setKid k v s).pwr = s.pwr ∧
    (State.setKid k v s).pmc = s.pmc ∧
    (State.setKid k v s).out = s.out ∧
    (State.setKid k v s).net = s.net ∧
    (State.setKid k v s).freeCtr = s.freeCtr ∧
    (State.setKid k v s).pending = s.pending := by
  unfold State.setKid
  simp

@[simp] theorem State.deny_kept (master line : Nat) (s : State) :
    (State.deny master line s).member = s.member ∧
    (State.deny master line s).now = s.now ∧
    (State.deny master line s).unstored = s.unstored ∧
    (State.deny master line s).host = s.host ∧
    (State.deny master line s).epo = s.epo ∧
    (State.deny master line s).cat = s.cat ∧
    (State.deny master line s).med = s.med ∧
    (State.deny master line s).coh = s.coh ∧
    (State.deny master line s).lnk = s.lnk ∧
    (State.deny master line s).rte = s.rte ∧
    (State.deny master line s).cap = s.cap ∧
    (State.deny master line s).cry = s.cry ∧
    (State.deny master line s).flt = s.flt ∧
    (State.deny master line s).cur = s.cur ∧
    (State.deny master line s).thm = s.thm ∧
    (State.deny master line s).pwr = s.pwr ∧
    (State.deny master line s).pmc = s.pmc ∧
    (State.deny master line s).out = s.out ∧
    (State.deny master line s).net = s.net ∧
    (State.deny master line s).freeCtr = s.freeCtr ∧
    (State.deny master line s).pending = s.pending := by
  unfold State.deny
  simp

theorem State.violation_kept (p : Nat) (r : SlotRef) (word : DWord) (s : State) :
    (State.violation p r word s).member = s.member ∧
    (State.violation p r word s).now = s.now ∧
    (State.violation p r word s).unstored = s.unstored ∧
    (State.violation p r word s).host = s.host ∧
    (State.violation p r word s).epo = s.epo ∧
    (State.violation p r word s).cat = s.cat ∧
    (State.violation p r word s).med = s.med ∧
    (State.violation p r word s).coh = s.coh ∧
    (State.violation p r word s).lnk = s.lnk ∧
    (State.violation p r word s).rte = s.rte ∧
    (State.violation p r word s).cap = s.cap ∧
    (State.violation p r word s).cry = s.cry ∧
    (State.violation p r word s).flt = s.flt ∧
    (State.violation p r word s).cur = s.cur ∧
    (State.violation p r word s).thm = s.thm ∧
    (State.violation p r word s).pwr = s.pwr ∧
    (State.violation p r word s).pmc = s.pmc ∧
    (State.violation p r word s).out = s.out ∧
    (State.violation p r word s).net = s.net ∧
    (State.violation p r word s).freeCtr = s.freeCtr ∧
    (State.violation p r word s).pending = s.pending := by
  unfold State.violation
  simp

theorem State.returnSlot_kept (p q i : Nat) (r : SlotRef) (st : Status) (len : Nat) (s : State) :
    (State.returnSlot p q i r st len s).member = s.member ∧
    (State.returnSlot p q i r st len s).now = s.now ∧
    (State.returnSlot p q i r st len s).regs = s.regs ∧
    (State.returnSlot p q i r st len s).unstored = s.unstored ∧
    (State.returnSlot p q i r st len s).host = s.host ∧
    (State.returnSlot p q i r st len s).epo = s.epo ∧
    (State.returnSlot p q i r st len s).cat = s.cat ∧
    (State.returnSlot p q i r st len s).med = s.med ∧
    (State.returnSlot p q i r st len s).coh = s.coh ∧
    (State.returnSlot p q i r st len s).lnk = s.lnk ∧
    (State.returnSlot p q i r st len s).rte = s.rte ∧
    (State.returnSlot p q i r st len s).cap = s.cap ∧
    (State.returnSlot p q i r st len s).cry = s.cry ∧
    (State.returnSlot p q i r st len s).flt = s.flt ∧
    (State.returnSlot p q i r st len s).anl = s.anl ∧
    (State.returnSlot p q i r st len s).cur = s.cur ∧
    (State.returnSlot p q i r st len s).thm = s.thm ∧
    (State.returnSlot p q i r st len s).pwr = s.pwr ∧
    (State.returnSlot p q i r st len s).pmc = s.pmc ∧
    (State.returnSlot p q i r st len s).net = s.net ∧
    (State.returnSlot p q i r st len s).freeCtr = s.freeCtr ∧
    (State.returnSlot p q i r st len s).pending = s.pending := by
  unfold State.returnSlot
  repeat' split
  all_goals simp [*]

theorem State.writeSlot_kept (p q i : Nat) (r : SlotRef) (bytes : List Byte) (s : State) :
    (State.writeSlot p q i r bytes s).member = s.member ∧
    (State.writeSlot p q i r bytes s).now = s.now ∧
    (State.writeSlot p q i r bytes s).regs = s.regs ∧
    (State.writeSlot p q i r bytes s).unstored = s.unstored ∧
    (State.writeSlot p q i r bytes s).host = s.host ∧
    (State.writeSlot p q i r bytes s).epo = s.epo ∧
    (State.writeSlot p q i r bytes s).cat = s.cat ∧
    (State.writeSlot p q i r bytes s).med = s.med ∧
    (State.writeSlot p q i r bytes s).coh = s.coh ∧
    (State.writeSlot p q i r bytes s).lnk = s.lnk ∧
    (State.writeSlot p q i r bytes s).rte = s.rte ∧
    (State.writeSlot p q i r bytes s).cap = s.cap ∧
    (State.writeSlot p q i r bytes s).cry = s.cry ∧
    (State.writeSlot p q i r bytes s).flt = s.flt ∧
    (State.writeSlot p q i r bytes s).anl = s.anl ∧
    (State.writeSlot p q i r bytes s).cur = s.cur ∧
    (State.writeSlot p q i r bytes s).thm = s.thm ∧
    (State.writeSlot p q i r bytes s).pwr = s.pwr ∧
    (State.writeSlot p q i r bytes s).pmc = s.pmc ∧
    (State.writeSlot p q i r bytes s).net = s.net ∧
    (State.writeSlot p q i r bytes s).freeCtr = s.freeCtr ∧
    (State.writeSlot p q i r bytes s).pending = s.pending := by
  unfold State.writeSlot
  repeat' split
  all_goals simp [*]

theorem State.slotReply_kept (src : Nat) (c : Ctx) (r : Option SlotRef) (a : SlotAnswer) (s : State) :
    (State.slotReply src c r a s).member = a.after.member ∧
    (State.slotReply src c r a s).now = a.after.now ∧
    (State.slotReply src c r a s).unstored = a.after.unstored ∧
    (State.slotReply src c r a s).epo = a.after.epo ∧
    (State.slotReply src c r a s).cat = a.after.cat ∧
    (State.slotReply src c r a s).med = a.after.med ∧
    (State.slotReply src c r a s).coh = a.after.coh ∧
    (State.slotReply src c r a s).lnk = a.after.lnk ∧
    (State.slotReply src c r a s).rte = a.after.rte ∧
    (State.slotReply src c r a s).cap = a.after.cap ∧
    (State.slotReply src c r a s).cry = a.after.cry ∧
    (State.slotReply src c r a s).flt = a.after.flt ∧
    (State.slotReply src c r a s).anl = a.after.anl ∧
    (State.slotReply src c r a s).thm = a.after.thm ∧
    (State.slotReply src c r a s).pwr = a.after.pwr ∧
    (State.slotReply src c r a s).pmc = a.after.pmc ∧
    (State.slotReply src c r a s).net = a.after.net ∧
    (State.slotReply src c r a s).freeCtr = a.after.freeCtr ∧
    (State.slotReply src c r a s).pending = a.after.pending ∧
    (State.slotReply src c r a s).cur.lifecycle = a.after.cur.lifecycle ∧
    (State.slotReply src c r a s).cur.rootGen = a.after.cur.rootGen ∧
    (State.slotReply src c r a s).cur.returns = a.after.cur.returns ∧
    (State.slotReply src c r a s).cur.revoked = a.after.cur.revoked := by
  have k1 := State.replyWith_kept
  have k2 := State.returnSlot_kept
  have k3 := State.writeSlot_kept
  unfold State.slotReply
  split
  · dsimp only; split <;> simp [k1, k2, k3]
  · simp [k1, k2, k3]

@[simp] theorem State.withSlot_member (src : Nat) (c : Ctx) (slot : Word) (own : SlotRead) (needed : Bool) (lenOk : Win → DWord → Bool) (body : Option SlotRef → State → SlotAnswer) (s : State) (h : ∀ r s, (body r s).after.member = s.member) :
    (State.withSlot src c slot own needed lenOk body s).member = s.member := by
  have k1 := State.slotReply_kept
  have k2 := State.violation_kept
  unfold State.withSlot
  (try dsimp only)
  repeat' split
  all_goals simp [k1, k2, h]

@[simp] theorem State.withSlot_now (src : Nat) (c : Ctx) (slot : Word) (own : SlotRead) (needed : Bool) (lenOk : Win → DWord → Bool) (body : Option SlotRef → State → SlotAnswer) (s : State) (h : ∀ r s, (body r s).after.now = s.now) :
    (State.withSlot src c slot own needed lenOk body s).now = s.now := by
  have k1 := State.slotReply_kept
  have k2 := State.violation_kept
  unfold State.withSlot
  (try dsimp only)
  repeat' split
  all_goals simp [k1, k2, h]

@[simp] theorem State.withSlot_unstored (src : Nat) (c : Ctx) (slot : Word) (own : SlotRead) (needed : Bool) (lenOk : Win → DWord → Bool) (body : Option SlotRef → State → SlotAnswer) (s : State) (h : ∀ r s, (body r s).after.unstored = s.unstored) :
    (State.withSlot src c slot own needed lenOk body s).unstored = s.unstored := by
  have k1 := State.slotReply_kept
  have k2 := State.violation_kept
  unfold State.withSlot
  (try dsimp only)
  repeat' split
  all_goals simp [k1, k2, h]

@[simp] theorem State.withSlot_epo (src : Nat) (c : Ctx) (slot : Word) (own : SlotRead) (needed : Bool) (lenOk : Win → DWord → Bool) (body : Option SlotRef → State → SlotAnswer) (s : State) (h : ∀ r s, (body r s).after.epo = s.epo) :
    (State.withSlot src c slot own needed lenOk body s).epo = s.epo := by
  have k1 := State.slotReply_kept
  have k2 := State.violation_kept
  unfold State.withSlot
  (try dsimp only)
  repeat' split
  all_goals simp [k1, k2, h]

@[simp] theorem State.withSlot_cat (src : Nat) (c : Ctx) (slot : Word) (own : SlotRead) (needed : Bool) (lenOk : Win → DWord → Bool) (body : Option SlotRef → State → SlotAnswer) (s : State) (h : ∀ r s, (body r s).after.cat = s.cat) :
    (State.withSlot src c slot own needed lenOk body s).cat = s.cat := by
  have k1 := State.slotReply_kept
  have k2 := State.violation_kept
  unfold State.withSlot
  (try dsimp only)
  repeat' split
  all_goals simp [k1, k2, h]

@[simp] theorem State.withSlot_med (src : Nat) (c : Ctx) (slot : Word) (own : SlotRead) (needed : Bool) (lenOk : Win → DWord → Bool) (body : Option SlotRef → State → SlotAnswer) (s : State) (h : ∀ r s, (body r s).after.med = s.med) :
    (State.withSlot src c slot own needed lenOk body s).med = s.med := by
  have k1 := State.slotReply_kept
  have k2 := State.violation_kept
  unfold State.withSlot
  (try dsimp only)
  repeat' split
  all_goals simp [k1, k2, h]

@[simp] theorem State.withSlot_coh (src : Nat) (c : Ctx) (slot : Word) (own : SlotRead) (needed : Bool) (lenOk : Win → DWord → Bool) (body : Option SlotRef → State → SlotAnswer) (s : State) (h : ∀ r s, (body r s).after.coh = s.coh) :
    (State.withSlot src c slot own needed lenOk body s).coh = s.coh := by
  have k1 := State.slotReply_kept
  have k2 := State.violation_kept
  unfold State.withSlot
  (try dsimp only)
  repeat' split
  all_goals simp [k1, k2, h]

@[simp] theorem State.withSlot_lnk (src : Nat) (c : Ctx) (slot : Word) (own : SlotRead) (needed : Bool) (lenOk : Win → DWord → Bool) (body : Option SlotRef → State → SlotAnswer) (s : State) (h : ∀ r s, (body r s).after.lnk = s.lnk) :
    (State.withSlot src c slot own needed lenOk body s).lnk = s.lnk := by
  have k1 := State.slotReply_kept
  have k2 := State.violation_kept
  unfold State.withSlot
  (try dsimp only)
  repeat' split
  all_goals simp [k1, k2, h]

@[simp] theorem State.withSlot_rte (src : Nat) (c : Ctx) (slot : Word) (own : SlotRead) (needed : Bool) (lenOk : Win → DWord → Bool) (body : Option SlotRef → State → SlotAnswer) (s : State) (h : ∀ r s, (body r s).after.rte = s.rte) :
    (State.withSlot src c slot own needed lenOk body s).rte = s.rte := by
  have k1 := State.slotReply_kept
  have k2 := State.violation_kept
  unfold State.withSlot
  (try dsimp only)
  repeat' split
  all_goals simp [k1, k2, h]

@[simp] theorem State.withSlot_cap (src : Nat) (c : Ctx) (slot : Word) (own : SlotRead) (needed : Bool) (lenOk : Win → DWord → Bool) (body : Option SlotRef → State → SlotAnswer) (s : State) (h : ∀ r s, (body r s).after.cap = s.cap) :
    (State.withSlot src c slot own needed lenOk body s).cap = s.cap := by
  have k1 := State.slotReply_kept
  have k2 := State.violation_kept
  unfold State.withSlot
  (try dsimp only)
  repeat' split
  all_goals simp [k1, k2, h]

@[simp] theorem State.withSlot_cry (src : Nat) (c : Ctx) (slot : Word) (own : SlotRead) (needed : Bool) (lenOk : Win → DWord → Bool) (body : Option SlotRef → State → SlotAnswer) (s : State) (h : ∀ r s, (body r s).after.cry = s.cry) :
    (State.withSlot src c slot own needed lenOk body s).cry = s.cry := by
  have k1 := State.slotReply_kept
  have k2 := State.violation_kept
  unfold State.withSlot
  (try dsimp only)
  repeat' split
  all_goals simp [k1, k2, h]

@[simp] theorem State.withSlot_flt (src : Nat) (c : Ctx) (slot : Word) (own : SlotRead) (needed : Bool) (lenOk : Win → DWord → Bool) (body : Option SlotRef → State → SlotAnswer) (s : State) (h : ∀ r s, (body r s).after.flt = s.flt) :
    (State.withSlot src c slot own needed lenOk body s).flt = s.flt := by
  have k1 := State.slotReply_kept
  have k2 := State.violation_kept
  unfold State.withSlot
  (try dsimp only)
  repeat' split
  all_goals simp [k1, k2, h]

@[simp] theorem State.withSlot_thm (src : Nat) (c : Ctx) (slot : Word) (own : SlotRead) (needed : Bool) (lenOk : Win → DWord → Bool) (body : Option SlotRef → State → SlotAnswer) (s : State) (h : ∀ r s, (body r s).after.thm = s.thm) :
    (State.withSlot src c slot own needed lenOk body s).thm = s.thm := by
  have k1 := State.slotReply_kept
  have k2 := State.violation_kept
  unfold State.withSlot
  (try dsimp only)
  repeat' split
  all_goals simp [k1, k2, h]

@[simp] theorem State.withSlot_pwr (src : Nat) (c : Ctx) (slot : Word) (own : SlotRead) (needed : Bool) (lenOk : Win → DWord → Bool) (body : Option SlotRef → State → SlotAnswer) (s : State) (h : ∀ r s, (body r s).after.pwr = s.pwr) :
    (State.withSlot src c slot own needed lenOk body s).pwr = s.pwr := by
  have k1 := State.slotReply_kept
  have k2 := State.violation_kept
  unfold State.withSlot
  (try dsimp only)
  repeat' split
  all_goals simp [k1, k2, h]

@[simp] theorem State.withSlot_pmc (src : Nat) (c : Ctx) (slot : Word) (own : SlotRead) (needed : Bool) (lenOk : Win → DWord → Bool) (body : Option SlotRef → State → SlotAnswer) (s : State) (h : ∀ r s, (body r s).after.pmc = s.pmc) :
    (State.withSlot src c slot own needed lenOk body s).pmc = s.pmc := by
  have k1 := State.slotReply_kept
  have k2 := State.violation_kept
  unfold State.withSlot
  (try dsimp only)
  repeat' split
  all_goals simp [k1, k2, h]

@[simp] theorem State.withSlot_net (src : Nat) (c : Ctx) (slot : Word) (own : SlotRead) (needed : Bool) (lenOk : Win → DWord → Bool) (body : Option SlotRef → State → SlotAnswer) (s : State) (h : ∀ r s, (body r s).after.net = s.net) :
    (State.withSlot src c slot own needed lenOk body s).net = s.net := by
  have k1 := State.slotReply_kept
  have k2 := State.violation_kept
  unfold State.withSlot
  (try dsimp only)
  repeat' split
  all_goals simp [k1, k2, h]

@[simp] theorem State.withSlot_freeCtr (src : Nat) (c : Ctx) (slot : Word) (own : SlotRead) (needed : Bool) (lenOk : Win → DWord → Bool) (body : Option SlotRef → State → SlotAnswer) (s : State) (h : ∀ r s, (body r s).after.freeCtr = s.freeCtr) :
    (State.withSlot src c slot own needed lenOk body s).freeCtr = s.freeCtr := by
  have k1 := State.slotReply_kept
  have k2 := State.violation_kept
  unfold State.withSlot
  (try dsimp only)
  repeat' split
  all_goals simp [k1, k2, h]

@[simp] theorem State.withSlot_pending (src : Nat) (c : Ctx) (slot : Word) (own : SlotRead) (needed : Bool) (lenOk : Win → DWord → Bool) (body : Option SlotRef → State → SlotAnswer) (s : State) (h : ∀ r s, (body r s).after.pending = s.pending) :
    (State.withSlot src c slot own needed lenOk body s).pending = s.pending := by
  have k1 := State.slotReply_kept
  have k2 := State.violation_kept
  unfold State.withSlot
  (try dsimp only)
  repeat' split
  all_goals simp [k1, k2, h]

@[simp] theorem State.withSlot_cur_lifecycle (src : Nat) (c : Ctx) (slot : Word) (own : SlotRead) (needed : Bool) (lenOk : Win → DWord → Bool) (body : Option SlotRef → State → SlotAnswer) (s : State) (h : ∀ r s, (body r s).after.cur.lifecycle = s.cur.lifecycle) :
    (State.withSlot src c slot own needed lenOk body s).cur.lifecycle = s.cur.lifecycle := by
  have k1 := State.slotReply_kept
  have k2 := State.violation_kept
  unfold State.withSlot
  (try dsimp only)
  repeat' split
  all_goals simp [k1, k2, h]

@[simp] theorem State.withSlot_cur_rootGen (src : Nat) (c : Ctx) (slot : Word) (own : SlotRead) (needed : Bool) (lenOk : Win → DWord → Bool) (body : Option SlotRef → State → SlotAnswer) (s : State) (h : ∀ r s, (body r s).after.cur.rootGen = s.cur.rootGen) :
    (State.withSlot src c slot own needed lenOk body s).cur.rootGen = s.cur.rootGen := by
  have k1 := State.slotReply_kept
  have k2 := State.violation_kept
  unfold State.withSlot
  (try dsimp only)
  repeat' split
  all_goals simp [k1, k2, h]

@[simp] theorem State.withSlot_cur_returns (src : Nat) (c : Ctx) (slot : Word) (own : SlotRead) (needed : Bool) (lenOk : Win → DWord → Bool) (body : Option SlotRef → State → SlotAnswer) (s : State) (h : ∀ r s, (body r s).after.cur.returns = s.cur.returns) :
    (State.withSlot src c slot own needed lenOk body s).cur.returns = s.cur.returns := by
  have k1 := State.slotReply_kept
  have k2 := State.violation_kept
  unfold State.withSlot
  (try dsimp only)
  repeat' split
  all_goals simp [k1, k2, h]

@[simp] theorem State.withSlot_cur_revoked (src : Nat) (c : Ctx) (slot : Word) (own : SlotRead) (needed : Bool) (lenOk : Win → DWord → Bool) (body : Option SlotRef → State → SlotAnswer) (s : State) (h : ∀ r s, (body r s).after.cur.revoked = s.cur.revoked) :
    (State.withSlot src c slot own needed lenOk body s).cur.revoked = s.cur.revoked := by
  have k1 := State.slotReply_kept
  have k2 := State.violation_kept
  unfold State.withSlot
  (try dsimp only)
  repeat' split
  all_goals simp [k1, k2, h]

@[simp] theorem State.setTarget_kept (t c k : Nat) (v : Target) (s : State) :
    (State.setTarget t c k v s).member = s.member ∧
    (State.setTarget t c k v s).now = s.now ∧
    (State.setTarget t c k v s).regs = s.regs ∧
    (State.setTarget t c k v s).unstored = s.unstored ∧
    (State.setTarget t c k v s).host = s.host ∧
    (State.setTarget t c k v s).epo = s.epo ∧
    (State.setTarget t c k v s).cat = s.cat ∧
    (State.setTarget t c k v s).coh = s.coh ∧
    (State.setTarget t c k v s).lnk = s.lnk ∧
    (State.setTarget t c k v s).rte = s.rte ∧
    (State.setTarget t c k v s).cap = s.cap ∧
    (State.setTarget t c k v s).cry = s.cry ∧
    (State.setTarget t c k v s).flt = s.flt ∧
    (State.setTarget t c k v s).anl = s.anl ∧
    (State.setTarget t c k v s).cur = s.cur ∧
    (State.setTarget t c k v s).thm = s.thm ∧
    (State.setTarget t c k v s).pwr = s.pwr ∧
    (State.setTarget t c k v s).pmc = s.pmc ∧
    (State.setTarget t c k v s).out = s.out ∧
    (State.setTarget t c k v s).net = s.net ∧
    (State.setTarget t c k v s).freeCtr = s.freeCtr ∧
    (State.setTarget t c k v s).pending = s.pending := by
  unfold State.setTarget
  simp

@[simp] theorem State.setChan_kept (t c : Nat) (v : Chan) (s : State) :
    (State.setChan t c v s).member = s.member ∧
    (State.setChan t c v s).now = s.now ∧
    (State.setChan t c v s).regs = s.regs ∧
    (State.setChan t c v s).unstored = s.unstored ∧
    (State.setChan t c v s).host = s.host ∧
    (State.setChan t c v s).epo = s.epo ∧
    (State.setChan t c v s).cat = s.cat ∧
    (State.setChan t c v s).coh = s.coh ∧
    (State.setChan t c v s).lnk = s.lnk ∧
    (State.setChan t c v s).rte = s.rte ∧
    (State.setChan t c v s).cap = s.cap ∧
    (State.setChan t c v s).cry = s.cry ∧
    (State.setChan t c v s).flt = s.flt ∧
    (State.setChan t c v s).anl = s.anl ∧
    (State.setChan t c v s).cur = s.cur ∧
    (State.setChan t c v s).thm = s.thm ∧
    (State.setChan t c v s).pwr = s.pwr ∧
    (State.setChan t c v s).pmc = s.pmc ∧
    (State.setChan t c v s).out = s.out ∧
    (State.setChan t c v s).net = s.net ∧
    (State.setChan t c v s).freeCtr = s.freeCtr ∧
    (State.setChan t c v s).pending = s.pending := by
  unfold State.setChan
  simp

@[simp] theorem State.setMblock_kept (t c b : Nat) (v : MBlock) (s : State) :
    (State.setMblock t c b v s).member = s.member ∧
    (State.setMblock t c b v s).now = s.now ∧
    (State.setMblock t c b v s).regs = s.regs ∧
    (State.setMblock t c b v s).unstored = s.unstored ∧
    (State.setMblock t c b v s).host = s.host ∧
    (State.setMblock t c b v s).epo = s.epo ∧
    (State.setMblock t c b v s).cat = s.cat ∧
    (State.setMblock t c b v s).coh = s.coh ∧
    (State.setMblock t c b v s).lnk = s.lnk ∧
    (State.setMblock t c b v s).rte = s.rte ∧
    (State.setMblock t c b v s).cap = s.cap ∧
    (State.setMblock t c b v s).cry = s.cry ∧
    (State.setMblock t c b v s).flt = s.flt ∧
    (State.setMblock t c b v s).anl = s.anl ∧
    (State.setMblock t c b v s).cur = s.cur ∧
    (State.setMblock t c b v s).thm = s.thm ∧
    (State.setMblock t c b v s).pwr = s.pwr ∧
    (State.setMblock t c b v s).pmc = s.pmc ∧
    (State.setMblock t c b v s).out = s.out ∧
    (State.setMblock t c b v s).net = s.net ∧
    (State.setMblock t c b v s).freeCtr = s.freeCtr ∧
    (State.setMblock t c b v s).pending = s.pending := by
  unfold State.setMblock
  simp

@[simp] theorem State.setBlock_kept (t b : Nat) (v : StripeBlock) (s : State) :
    (State.setBlock t b v s).member = s.member ∧
    (State.setBlock t b v s).now = s.now ∧
    (State.setBlock t b v s).regs = s.regs ∧
    (State.setBlock t b v s).unstored = s.unstored ∧
    (State.setBlock t b v s).host = s.host ∧
    (State.setBlock t b v s).epo = s.epo ∧
    (State.setBlock t b v s).med = s.med ∧
    (State.setBlock t b v s).coh = s.coh ∧
    (State.setBlock t b v s).lnk = s.lnk ∧
    (State.setBlock t b v s).rte = s.rte ∧
    (State.setBlock t b v s).cap = s.cap ∧
    (State.setBlock t b v s).cry = s.cry ∧
    (State.setBlock t b v s).flt = s.flt ∧
    (State.setBlock t b v s).anl = s.anl ∧
    (State.setBlock t b v s).cur = s.cur ∧
    (State.setBlock t b v s).thm = s.thm ∧
    (State.setBlock t b v s).pwr = s.pwr ∧
    (State.setBlock t b v s).pmc = s.pmc ∧
    (State.setBlock t b v s).out = s.out ∧
    (State.setBlock t b v s).net = s.net ∧
    (State.setBlock t b v s).freeCtr = s.freeCtr ∧
    (State.setBlock t b v s).pending = s.pending := by
  unfold State.setBlock
  simp

@[simp] theorem State.setSpare_kept (t : Nat) (v : Spare) (s : State) :
    (State.setSpare t v s).member = s.member ∧
    (State.setSpare t v s).now = s.now ∧
    (State.setSpare t v s).regs = s.regs ∧
    (State.setSpare t v s).unstored = s.unstored ∧
    (State.setSpare t v s).host = s.host ∧
    (State.setSpare t v s).epo = s.epo ∧
    (State.setSpare t v s).cat = s.cat ∧
    (State.setSpare t v s).coh = s.coh ∧
    (State.setSpare t v s).lnk = s.lnk ∧
    (State.setSpare t v s).rte = s.rte ∧
    (State.setSpare t v s).cap = s.cap ∧
    (State.setSpare t v s).cry = s.cry ∧
    (State.setSpare t v s).flt = s.flt ∧
    (State.setSpare t v s).anl = s.anl ∧
    (State.setSpare t v s).cur = s.cur ∧
    (State.setSpare t v s).thm = s.thm ∧
    (State.setSpare t v s).pwr = s.pwr ∧
    (State.setSpare t v s).pmc = s.pmc ∧
    (State.setSpare t v s).out = s.out ∧
    (State.setSpare t v s).net = s.net ∧
    (State.setSpare t v s).freeCtr = s.freeCtr ∧
    (State.setSpare t v s).pending = s.pending := by
  unfold State.setSpare
  simp

@[simp] theorem State.setCal_kept (t : Nat) (v : Calendar) (s : State) :
    (State.setCal t v s).member = s.member ∧
    (State.setCal t v s).now = s.now ∧
    (State.setCal t v s).regs = s.regs ∧
    (State.setCal t v s).unstored = s.unstored ∧
    (State.setCal t v s).host = s.host ∧
    (State.setCal t v s).epo = s.epo ∧
    (State.setCal t v s).cat = s.cat ∧
    (State.setCal t v s).coh = s.coh ∧
    (State.setCal t v s).lnk = s.lnk ∧
    (State.setCal t v s).rte = s.rte ∧
    (State.setCal t v s).cap = s.cap ∧
    (State.setCal t v s).cry = s.cry ∧
    (State.setCal t v s).flt = s.flt ∧
    (State.setCal t v s).anl = s.anl ∧
    (State.setCal t v s).cur = s.cur ∧
    (State.setCal t v s).thm = s.thm ∧
    (State.setCal t v s).pwr = s.pwr ∧
    (State.setCal t v s).pmc = s.pmc ∧
    (State.setCal t v s).out = s.out ∧
    (State.setCal t v s).net = s.net ∧
    (State.setCal t v s).freeCtr = s.freeCtr ∧
    (State.setCal t v s).pending = s.pending := by
  unfold State.setCal
  simp

@[simp] theorem State.setPage_kept (t spn : Nat) (v : Option Page) (s : State) :
    (State.setPage t spn v s).member = s.member ∧
    (State.setPage t spn v s).now = s.now ∧
    (State.setPage t spn v s).regs = s.regs ∧
    (State.setPage t spn v s).unstored = s.unstored ∧
    (State.setPage t spn v s).host = s.host ∧
    (State.setPage t spn v s).epo = s.epo ∧
    (State.setPage t spn v s).med = s.med ∧
    (State.setPage t spn v s).coh = s.coh ∧
    (State.setPage t spn v s).lnk = s.lnk ∧
    (State.setPage t spn v s).rte = s.rte ∧
    (State.setPage t spn v s).cap = s.cap ∧
    (State.setPage t spn v s).cry = s.cry ∧
    (State.setPage t spn v s).flt = s.flt ∧
    (State.setPage t spn v s).anl = s.anl ∧
    (State.setPage t spn v s).cur = s.cur ∧
    (State.setPage t spn v s).thm = s.thm ∧
    (State.setPage t spn v s).pwr = s.pwr ∧
    (State.setPage t spn v s).pmc = s.pmc ∧
    (State.setPage t spn v s).out = s.out ∧
    (State.setPage t spn v s).net = s.net ∧
    (State.setPage t spn v s).freeCtr = s.freeCtr ∧
    (State.setPage t spn v s).pending = s.pending := by
  unfold State.setPage
  simp

@[simp] theorem State.schedule_kept (t b : Nat) (s : State) :
    (State.schedule t b s).member = s.member ∧
    (State.schedule t b s).now = s.now ∧
    (State.schedule t b s).regs = s.regs ∧
    (State.schedule t b s).unstored = s.unstored ∧
    (State.schedule t b s).host = s.host ∧
    (State.schedule t b s).epo = s.epo ∧
    (State.schedule t b s).med = s.med ∧
    (State.schedule t b s).coh = s.coh ∧
    (State.schedule t b s).lnk = s.lnk ∧
    (State.schedule t b s).rte = s.rte ∧
    (State.schedule t b s).cap = s.cap ∧
    (State.schedule t b s).cry = s.cry ∧
    (State.schedule t b s).flt = s.flt ∧
    (State.schedule t b s).anl = s.anl ∧
    (State.schedule t b s).cur = s.cur ∧
    (State.schedule t b s).thm = s.thm ∧
    (State.schedule t b s).pwr = s.pwr ∧
    (State.schedule t b s).pmc = s.pmc ∧
    (State.schedule t b s).out = s.out ∧
    (State.schedule t b s).net = s.net ∧
    (State.schedule t b s).freeCtr = s.freeCtr ∧
    (State.schedule t b s).pending = s.pending := by
  unfold State.schedule
  simp

theorem State.startSense_kept (t c m : Nat) (s : State) :
    (State.startSense t c m s).member = s.member ∧
    (State.startSense t c m s).now = s.now ∧
    (State.startSense t c m s).regs = s.regs ∧
    (State.startSense t c m s).unstored = s.unstored ∧
    (State.startSense t c m s).host = s.host ∧
    (State.startSense t c m s).epo = s.epo ∧
    (State.startSense t c m s).cat = s.cat ∧
    (State.startSense t c m s).coh = s.coh ∧
    (State.startSense t c m s).lnk = s.lnk ∧
    (State.startSense t c m s).rte = s.rte ∧
    (State.startSense t c m s).cap = s.cap ∧
    (State.startSense t c m s).cry = s.cry ∧
    (State.startSense t c m s).flt = s.flt ∧
    (State.startSense t c m s).anl = s.anl ∧
    (State.startSense t c m s).cur = s.cur ∧
    (State.startSense t c m s).thm = s.thm ∧
    (State.startSense t c m s).pwr = s.pwr ∧
    (State.startSense t c m s).pmc = s.pmc ∧
    (State.startSense t c m s).out = s.out ∧
    (State.startSense t c m s).net = s.net ∧
    (State.startSense t c m s).freeCtr = s.freeCtr ∧
    (State.startSense t c m s).pending = s.pending := by
  unfold State.startSense
  simp

theorem State.countSenses_kept (t c m b n : Nat) (s : State) :
    (State.countSenses t c m b n s).member = s.member ∧
    (State.countSenses t c m b n s).now = s.now ∧
    (State.countSenses t c m b n s).regs = s.regs ∧
    (State.countSenses t c m b n s).unstored = s.unstored ∧
    (State.countSenses t c m b n s).host = s.host ∧
    (State.countSenses t c m b n s).epo = s.epo ∧
    (State.countSenses t c m b n s).coh = s.coh ∧
    (State.countSenses t c m b n s).lnk = s.lnk ∧
    (State.countSenses t c m b n s).rte = s.rte ∧
    (State.countSenses t c m b n s).cap = s.cap ∧
    (State.countSenses t c m b n s).cry = s.cry ∧
    (State.countSenses t c m b n s).flt = s.flt ∧
    (State.countSenses t c m b n s).anl = s.anl ∧
    (State.countSenses t c m b n s).cur = s.cur ∧
    (State.countSenses t c m b n s).thm = s.thm ∧
    (State.countSenses t c m b n s).pwr = s.pwr ∧
    (State.countSenses t c m b n s).pmc = s.pmc ∧
    (State.countSenses t c m b n s).out = s.out ∧
    (State.countSenses t c m b n s).net = s.net ∧
    (State.countSenses t c m b n s).freeCtr = s.freeCtr ∧
    (State.countSenses t c m b n s).pending = s.pending := by
  unfold State.countSenses
  simp

theorem State.sense_kept (t c b : Nat) (s : State) :
    (State.sense t c b s).member = s.member ∧
    (State.sense t c b s).now = s.now ∧
    (State.sense t c b s).regs = s.regs ∧
    (State.sense t c b s).unstored = s.unstored ∧
    (State.sense t c b s).host = s.host ∧
    (State.sense t c b s).epo = s.epo ∧
    (State.sense t c b s).coh = s.coh ∧
    (State.sense t c b s).lnk = s.lnk ∧
    (State.sense t c b s).rte = s.rte ∧
    (State.sense t c b s).cap = s.cap ∧
    (State.sense t c b s).cry = s.cry ∧
    (State.sense t c b s).flt = s.flt ∧
    (State.sense t c b s).anl = s.anl ∧
    (State.sense t c b s).cur = s.cur ∧
    (State.sense t c b s).thm = s.thm ∧
    (State.sense t c b s).pwr = s.pwr ∧
    (State.sense t c b s).pmc = s.pmc ∧
    (State.sense t c b s).out = s.out ∧
    (State.sense t c b s).net = s.net ∧
    (State.sense t c b s).freeCtr = s.freeCtr ∧
    (State.sense t c b s).pending = s.pending := by
  have k1 := State.countSenses_kept
  have k2 := State.startSense_kept
  unfold State.sense
  simp [k1, k2]

@[simp] theorem State.showUncal_kept (t : Nat) (s : State) :
    (State.showUncal t s).member = s.member ∧
    (State.showUncal t s).now = s.now ∧
    (State.showUncal t s).unstored = s.unstored ∧
    (State.showUncal t s).host = s.host ∧
    (State.showUncal t s).epo = s.epo ∧
    (State.showUncal t s).cat = s.cat ∧
    (State.showUncal t s).med = s.med ∧
    (State.showUncal t s).coh = s.coh ∧
    (State.showUncal t s).lnk = s.lnk ∧
    (State.showUncal t s).rte = s.rte ∧
    (State.showUncal t s).cap = s.cap ∧
    (State.showUncal t s).cry = s.cry ∧
    (State.showUncal t s).flt = s.flt ∧
    (State.showUncal t s).anl = s.anl ∧
    (State.showUncal t s).cur = s.cur ∧
    (State.showUncal t s).thm = s.thm ∧
    (State.showUncal t s).pwr = s.pwr ∧
    (State.showUncal t s).pmc = s.pmc ∧
    (State.showUncal t s).out = s.out ∧
    (State.showUncal t s).net = s.net ∧
    (State.showUncal t s).freeCtr = s.freeCtr ∧
    (State.showUncal t s).pending = s.pending := by
  unfold State.showUncal
  simp

@[simp] theorem State.mladBits_kept (t c b n : Nat) (s : State) :
    (State.mladBits t c b n s).member = s.member ∧
    (State.mladBits t c b n s).now = s.now ∧
    (State.mladBits t c b n s).regs = s.regs ∧
    (State.mladBits t c b n s).unstored = s.unstored ∧
    (State.mladBits t c b n s).host = s.host ∧
    (State.mladBits t c b n s).epo = s.epo ∧
    (State.mladBits t c b n s).coh = s.coh ∧
    (State.mladBits t c b n s).lnk = s.lnk ∧
    (State.mladBits t c b n s).rte = s.rte ∧
    (State.mladBits t c b n s).cap = s.cap ∧
    (State.mladBits t c b n s).cry = s.cry ∧
    (State.mladBits t c b n s).flt = s.flt ∧
    (State.mladBits t c b n s).anl = s.anl ∧
    (State.mladBits t c b n s).cur = s.cur ∧
    (State.mladBits t c b n s).thm = s.thm ∧
    (State.mladBits t c b n s).pwr = s.pwr ∧
    (State.mladBits t c b n s).pmc = s.pmc ∧
    (State.mladBits t c b n s).out = s.out ∧
    (State.mladBits t c b n s).net = s.net ∧
    (State.mladBits t c b n s).freeCtr = s.freeCtr ∧
    (State.mladBits t c b n s).pending = s.pending := by
  unfold State.mladBits
  simp

@[simp] theorem State.check_kept (t id : Nat) (s : State) :
    (State.check t id s).2.member = s.member ∧
    (State.check t id s).2.now = s.now ∧
    (State.check t id s).2.unstored = s.unstored ∧
    (State.check t id s).2.host = s.host ∧
    (State.check t id s).2.epo = s.epo ∧
    (State.check t id s).2.cat = s.cat ∧
    (State.check t id s).2.med = s.med ∧
    (State.check t id s).2.coh = s.coh ∧
    (State.check t id s).2.lnk = s.lnk ∧
    (State.check t id s).2.rte = s.rte ∧
    (State.check t id s).2.cap = s.cap ∧
    (State.check t id s).2.cry = s.cry ∧
    (State.check t id s).2.anl = s.anl ∧
    (State.check t id s).2.cur = s.cur ∧
    (State.check t id s).2.thm = s.thm ∧
    (State.check t id s).2.pwr = s.pwr ∧
    (State.check t id s).2.pmc = s.pmc ∧
    (State.check t id s).2.out = s.out ∧
    (State.check t id s).2.net = s.net ∧
    (State.check t id s).2.freeCtr = s.freeCtr ∧
    (State.check t id s).2.pending = s.pending := by
  unfold State.check
  dsimp only
  repeat' split
  all_goals simp

theorem State.dueFault_kept (t id : Nat) (inject : Bool) (addr : Nat) (s : State) :
    (State.dueFault t id inject addr s).member = s.member ∧
    (State.dueFault t id inject addr s).now = s.now ∧
    (State.dueFault t id inject addr s).regs = s.regs ∧
    (State.dueFault t id inject addr s).unstored = s.unstored ∧
    (State.dueFault t id inject addr s).host = s.host ∧
    (State.dueFault t id inject addr s).epo = s.epo ∧
    (State.dueFault t id inject addr s).med = s.med ∧
    (State.dueFault t id inject addr s).coh = s.coh ∧
    (State.dueFault t id inject addr s).lnk = s.lnk ∧
    (State.dueFault t id inject addr s).rte = s.rte ∧
    (State.dueFault t id inject addr s).cap = s.cap ∧
    (State.dueFault t id inject addr s).cry = s.cry ∧
    (State.dueFault t id inject addr s).flt = s.flt ∧
    (State.dueFault t id inject addr s).anl = s.anl ∧
    (State.dueFault t id inject addr s).cur = s.cur ∧
    (State.dueFault t id inject addr s).thm = s.thm ∧
    (State.dueFault t id inject addr s).pwr = s.pwr ∧
    (State.dueFault t id inject addr s).pmc = s.pmc ∧
    (State.dueFault t id inject addr s).out = s.out ∧
    (State.dueFault t id inject addr s).net = s.net ∧
    (State.dueFault t id inject addr s).freeCtr = s.freeCtr ∧
    (State.dueFault t id inject addr s).pending = s.pending := by
  unfold State.dueFault
  simp

theorem State.wantCal_kept (t c m : Nat) (s : State) :
    (State.wantCal t c m s).member = s.member ∧
    (State.wantCal t c m s).now = s.now ∧
    (State.wantCal t c m s).regs = s.regs ∧
    (State.wantCal t c m s).unstored = s.unstored ∧
    (State.wantCal t c m s).host = s.host ∧
    (State.wantCal t c m s).epo = s.epo ∧
    (State.wantCal t c m s).cat = s.cat ∧
    (State.wantCal t c m s).coh = s.coh ∧
    (State.wantCal t c m s).lnk = s.lnk ∧
    (State.wantCal t c m s).rte = s.rte ∧
    (State.wantCal t c m s).cap = s.cap ∧
    (State.wantCal t c m s).cry = s.cry ∧
    (State.wantCal t c m s).flt = s.flt ∧
    (State.wantCal t c m s).anl = s.anl ∧
    (State.wantCal t c m s).cur = s.cur ∧
    (State.wantCal t c m s).thm = s.thm ∧
    (State.wantCal t c m s).pwr = s.pwr ∧
    (State.wantCal t c m s).pmc = s.pmc ∧
    (State.wantCal t c m s).out = s.out ∧
    (State.wantCal t c m s).net = s.net ∧
    (State.wantCal t c m s).freeCtr = s.freeCtr ∧
    (State.wantCal t c m s).pending = s.pending := by
  unfold State.wantCal
  simp

theorem State.agentSense_kept (t spn c : Nat) (s : State) :
    (State.agentSense t spn c s).member = s.member ∧
    (State.agentSense t spn c s).now = s.now ∧
    (State.agentSense t spn c s).regs = s.regs ∧
    (State.agentSense t spn c s).unstored = s.unstored ∧
    (State.agentSense t spn c s).host = s.host ∧
    (State.agentSense t spn c s).epo = s.epo ∧
    (State.agentSense t spn c s).coh = s.coh ∧
    (State.agentSense t spn c s).lnk = s.lnk ∧
    (State.agentSense t spn c s).rte = s.rte ∧
    (State.agentSense t spn c s).cap = s.cap ∧
    (State.agentSense t spn c s).cry = s.cry ∧
    (State.agentSense t spn c s).flt = s.flt ∧
    (State.agentSense t spn c s).anl = s.anl ∧
    (State.agentSense t spn c s).cur = s.cur ∧
    (State.agentSense t spn c s).thm = s.thm ∧
    (State.agentSense t spn c s).pwr = s.pwr ∧
    (State.agentSense t spn c s).pmc = s.pmc ∧
    (State.agentSense t spn c s).out = s.out ∧
    (State.agentSense t spn c s).net = s.net ∧
    (State.agentSense t spn c s).freeCtr = s.freeCtr ∧
    (State.agentSense t spn c s).pending = s.pending := by
  have k1 := State.sense_kept
  have k2 := State.wantCal_kept
  unfold State.agentSense
  simp [k1, k2]

theorem State.mediaRead_kept (t spn pos : Nat) (s : State) :
    (State.mediaRead t spn pos s).member = s.member ∧
    (State.mediaRead t spn pos s).now = s.now ∧
    (State.mediaRead t spn pos s).unstored = s.unstored ∧
    (State.mediaRead t spn pos s).host = s.host ∧
    (State.mediaRead t spn pos s).epo = s.epo ∧
    (State.mediaRead t spn pos s).coh = s.coh ∧
    (State.mediaRead t spn pos s).lnk = s.lnk ∧
    (State.mediaRead t spn pos s).rte = s.rte ∧
    (State.mediaRead t spn pos s).cap = s.cap ∧
    (State.mediaRead t spn pos s).cry = s.cry ∧
    (State.mediaRead t spn pos s).flt = s.flt ∧
    (State.mediaRead t spn pos s).anl = s.anl ∧
    (State.mediaRead t spn pos s).cur = s.cur ∧
    (State.mediaRead t spn pos s).thm = s.thm ∧
    (State.mediaRead t spn pos s).pwr = s.pwr ∧
    (State.mediaRead t spn pos s).out = s.out ∧
    (State.mediaRead t spn pos s).net = s.net ∧
    (State.mediaRead t spn pos s).freeCtr = s.freeCtr ∧
    (State.mediaRead t spn pos s).pending = s.pending := by
  have k1 := State.agentSense_kept
  unfold State.mediaRead
  dsimp only
  repeat' split
  all_goals simp [k1]

theorem State.firstPassFailed_kept (t spn pos : Nat) (s : State) :
    (State.firstPassFailed t spn pos s).member = s.member ∧
    (State.firstPassFailed t spn pos s).now = s.now ∧
    (State.firstPassFailed t spn pos s).unstored = s.unstored ∧
    (State.firstPassFailed t spn pos s).host = s.host ∧
    (State.firstPassFailed t spn pos s).epo = s.epo ∧
    (State.firstPassFailed t spn pos s).coh = s.coh ∧
    (State.firstPassFailed t spn pos s).lnk = s.lnk ∧
    (State.firstPassFailed t spn pos s).rte = s.rte ∧
    (State.firstPassFailed t spn pos s).cap = s.cap ∧
    (State.firstPassFailed t spn pos s).cry = s.cry ∧
    (State.firstPassFailed t spn pos s).flt = s.flt ∧
    (State.firstPassFailed t spn pos s).anl = s.anl ∧
    (State.firstPassFailed t spn pos s).cur = s.cur ∧
    (State.firstPassFailed t spn pos s).thm = s.thm ∧
    (State.firstPassFailed t spn pos s).pwr = s.pwr ∧
    (State.firstPassFailed t spn pos s).out = s.out ∧
    (State.firstPassFailed t spn pos s).net = s.net ∧
    (State.firstPassFailed t spn pos s).freeCtr = s.freeCtr ∧
    (State.firstPassFailed t spn pos s).pending = s.pending := by
  have k1 := State.agentSense_kept
  unfold State.firstPassFailed
  simp [k1]

theorem State.checkCodeword_kept (t spn line c : Nat) (failed : Bool) (s : State) :
    (State.checkCodeword t spn line c failed s).member = s.member ∧
    (State.checkCodeword t spn line c failed s).now = s.now ∧
    (State.checkCodeword t spn line c failed s).unstored = s.unstored ∧
    (State.checkCodeword t spn line c failed s).host = s.host ∧
    (State.checkCodeword t spn line c failed s).epo = s.epo ∧
    (State.checkCodeword t spn line c failed s).med = s.med ∧
    (State.checkCodeword t spn line c failed s).coh = s.coh ∧
    (State.checkCodeword t spn line c failed s).lnk = s.lnk ∧
    (State.checkCodeword t spn line c failed s).rte = s.rte ∧
    (State.checkCodeword t spn line c failed s).cap = s.cap ∧
    (State.checkCodeword t spn line c failed s).cry = s.cry ∧
    (State.checkCodeword t spn line c failed s).anl = s.anl ∧
    (State.checkCodeword t spn line c failed s).cur = s.cur ∧
    (State.checkCodeword t spn line c failed s).thm = s.thm ∧
    (State.checkCodeword t spn line c failed s).pwr = s.pwr ∧
    (State.checkCodeword t spn line c failed s).pmc = s.pmc ∧
    (State.checkCodeword t spn line c failed s).out = s.out ∧
    (State.checkCodeword t spn line c failed s).net = s.net ∧
    (State.checkCodeword t spn line c failed s).freeCtr = s.freeCtr ∧
    (State.checkCodeword t spn line c failed s).pending = s.pending := by
  have k1 := State.dueFault_kept
  unfold State.checkCodeword
  simp [k1]

theorem State.checkTags_kept (t line : Nat) (bent : Option Nat) (s : State) :
    (State.checkTags t line bent s).member = s.member ∧
    (State.checkTags t line bent s).now = s.now ∧
    (State.checkTags t line bent s).unstored = s.unstored ∧
    (State.checkTags t line bent s).host = s.host ∧
    (State.checkTags t line bent s).epo = s.epo ∧
    (State.checkTags t line bent s).med = s.med ∧
    (State.checkTags t line bent s).coh = s.coh ∧
    (State.checkTags t line bent s).lnk = s.lnk ∧
    (State.checkTags t line bent s).rte = s.rte ∧
    (State.checkTags t line bent s).cap = s.cap ∧
    (State.checkTags t line bent s).cry = s.cry ∧
    (State.checkTags t line bent s).anl = s.anl ∧
    (State.checkTags t line bent s).cur = s.cur ∧
    (State.checkTags t line bent s).thm = s.thm ∧
    (State.checkTags t line bent s).pwr = s.pwr ∧
    (State.checkTags t line bent s).pmc = s.pmc ∧
    (State.checkTags t line bent s).out = s.out ∧
    (State.checkTags t line bent s).net = s.net ∧
    (State.checkTags t line bent s).freeCtr = s.freeCtr ∧
    (State.checkTags t line bent s).pending = s.pending := by
  have k1 := State.dueFault_kept
  unfold State.checkTags
  dsimp only
  repeat' split
  all_goals simp [k1]

theorem State.sumBits_kept (t spn : Nat) (l : List (Nat × Nat)) (s : State) :
    (State.sumBits t spn l s).member = s.member ∧
    (State.sumBits t spn l s).now = s.now ∧
    (State.sumBits t spn l s).regs = s.regs ∧
    (State.sumBits t spn l s).unstored = s.unstored ∧
    (State.sumBits t spn l s).host = s.host ∧
    (State.sumBits t spn l s).epo = s.epo ∧
    (State.sumBits t spn l s).coh = s.coh ∧
    (State.sumBits t spn l s).lnk = s.lnk ∧
    (State.sumBits t spn l s).rte = s.rte ∧
    (State.sumBits t spn l s).cap = s.cap ∧
    (State.sumBits t spn l s).cry = s.cry ∧
    (State.sumBits t spn l s).flt = s.flt ∧
    (State.sumBits t spn l s).anl = s.anl ∧
    (State.sumBits t spn l s).cur = s.cur ∧
    (State.sumBits t spn l s).thm = s.thm ∧
    (State.sumBits t spn l s).pwr = s.pwr ∧
    (State.sumBits t spn l s).pmc = s.pmc ∧
    (State.sumBits t spn l s).out = s.out ∧
    (State.sumBits t spn l s).net = s.net ∧
    (State.sumBits t spn l s).freeCtr = s.freeCtr ∧
    (State.sumBits t spn l s).pending = s.pending := by
  unfold State.sumBits
  simp

theorem State.ownBits_kept (t c b : Nat) (s : State) :
    (State.ownBits t c b s).member = s.member ∧
    (State.ownBits t c b s).now = s.now ∧
    (State.ownBits t c b s).regs = s.regs ∧
    (State.ownBits t c b s).unstored = s.unstored ∧
    (State.ownBits t c b s).host = s.host ∧
    (State.ownBits t c b s).epo = s.epo ∧
    (State.ownBits t c b s).coh = s.coh ∧
    (State.ownBits t c b s).lnk = s.lnk ∧
    (State.ownBits t c b s).rte = s.rte ∧
    (State.ownBits t c b s).cap = s.cap ∧
    (State.ownBits t c b s).cry = s.cry ∧
    (State.ownBits t c b s).flt = s.flt ∧
    (State.ownBits t c b s).anl = s.anl ∧
    (State.ownBits t c b s).cur = s.cur ∧
    (State.ownBits t c b s).thm = s.thm ∧
    (State.ownBits t c b s).pwr = s.pwr ∧
    (State.ownBits t c b s).pmc = s.pmc ∧
    (State.ownBits t c b s).out = s.out ∧
    (State.ownBits t c b s).net = s.net ∧
    (State.ownBits t c b s).pending = s.pending := by
  unfold State.ownBits
  simp

@[simp] theorem State.setNc_kept (t line : Nat) (v : NcLine) (s : State) :
    (State.setNc t line v s).member = s.member ∧
    (State.setNc t line v s).now = s.now ∧
    (State.setNc t line v s).regs = s.regs ∧
    (State.setNc t line v s).unstored = s.unstored ∧
    (State.setNc t line v s).host = s.host ∧
    (State.setNc t line v s).epo = s.epo ∧
    (State.setNc t line v s).cat = s.cat ∧
    (State.setNc t line v s).med = s.med ∧
    (State.setNc t line v s).lnk = s.lnk ∧
    (State.setNc t line v s).rte = s.rte ∧
    (State.setNc t line v s).cap = s.cap ∧
    (State.setNc t line v s).cry = s.cry ∧
    (State.setNc t line v s).flt = s.flt ∧
    (State.setNc t line v s).anl = s.anl ∧
    (State.setNc t line v s).cur = s.cur ∧
    (State.setNc t line v s).thm = s.thm ∧
    (State.setNc t line v s).pwr = s.pwr ∧
    (State.setNc t line v s).pmc = s.pmc ∧
    (State.setNc t line v s).out = s.out ∧
    (State.setNc t line v s).net = s.net ∧
    (State.setNc t line v s).freeCtr = s.freeCtr ∧
    (State.setNc t line v s).pending = s.pending := by
  unfold State.setNc
  simp

@[simp] theorem State.setDir_kept (line : Nat) (v : Dir) (s : State) :
    (State.setDir line v s).member = s.member ∧
    (State.setDir line v s).now = s.now ∧
    (State.setDir line v s).regs = s.regs ∧
    (State.setDir line v s).unstored = s.unstored ∧
    (State.setDir line v s).host = s.host ∧
    (State.setDir line v s).epo = s.epo ∧
    (State.setDir line v s).cat = s.cat ∧
    (State.setDir line v s).med = s.med ∧
    (State.setDir line v s).lnk = s.lnk ∧
    (State.setDir line v s).rte = s.rte ∧
    (State.setDir line v s).cap = s.cap ∧
    (State.setDir line v s).cry = s.cry ∧
    (State.setDir line v s).flt = s.flt ∧
    (State.setDir line v s).anl = s.anl ∧
    (State.setDir line v s).cur = s.cur ∧
    (State.setDir line v s).thm = s.thm ∧
    (State.setDir line v s).pwr = s.pwr ∧
    (State.setDir line v s).pmc = s.pmc ∧
    (State.setDir line v s).out = s.out ∧
    (State.setDir line v s).net = s.net ∧
    (State.setDir line v s).freeCtr = s.freeCtr ∧
    (State.setDir line v s).pending = s.pending := by
  unfold State.setDir
  simp

theorem State.setCnode_kept (t lvl j : Nat) (v : CNode) (s : State) :
    (State.setCnode t lvl j v s).member = s.member ∧
    (State.setCnode t lvl j v s).now = s.now ∧
    (State.setCnode t lvl j v s).regs = s.regs ∧
    (State.setCnode t lvl j v s).unstored = s.unstored ∧
    (State.setCnode t lvl j v s).host = s.host ∧
    (State.setCnode t lvl j v s).epo = s.epo ∧
    (State.setCnode t lvl j v s).cat = s.cat ∧
    (State.setCnode t lvl j v s).med = s.med ∧
    (State.setCnode t lvl j v s).coh = s.coh ∧
    (State.setCnode t lvl j v s).lnk = s.lnk ∧
    (State.setCnode t lvl j v s).rte = s.rte ∧
    (State.setCnode t lvl j v s).cap = s.cap ∧
    (State.setCnode t lvl j v s).flt = s.flt ∧
    (State.setCnode t lvl j v s).anl = s.anl ∧
    (State.setCnode t lvl j v s).cur = s.cur ∧
    (State.setCnode t lvl j v s).thm = s.thm ∧
    (State.setCnode t lvl j v s).pwr = s.pwr ∧
    (State.setCnode t lvl j v s).pmc = s.pmc ∧
    (State.setCnode t lvl j v s).out = s.out ∧
    (State.setCnode t lvl j v s).net = s.net ∧
    (State.setCnode t lvl j v s).freeCtr = s.freeCtr ∧
    (State.setCnode t lvl j v s).pending = s.pending := by
  unfold State.setCnode
  simp

@[simp] theorem State.dirtyNode_kept (t lvl j : Nat) (s : State) :
    (State.dirtyNode t lvl j s).member = s.member ∧
    (State.dirtyNode t lvl j s).now = s.now ∧
    (State.dirtyNode t lvl j s).regs = s.regs ∧
    (State.dirtyNode t lvl j s).unstored = s.unstored ∧
    (State.dirtyNode t lvl j s).host = s.host ∧
    (State.dirtyNode t lvl j s).epo = s.epo ∧
    (State.dirtyNode t lvl j s).cat = s.cat ∧
    (State.dirtyNode t lvl j s).med = s.med ∧
    (State.dirtyNode t lvl j s).coh = s.coh ∧
    (State.dirtyNode t lvl j s).lnk = s.lnk ∧
    (State.dirtyNode t lvl j s).rte = s.rte ∧
    (State.dirtyNode t lvl j s).cap = s.cap ∧
    (State.dirtyNode t lvl j s).flt = s.flt ∧
    (State.dirtyNode t lvl j s).anl = s.anl ∧
    (State.dirtyNode t lvl j s).cur = s.cur ∧
    (State.dirtyNode t lvl j s).thm = s.thm ∧
    (State.dirtyNode t lvl j s).pwr = s.pwr ∧
    (State.dirtyNode t lvl j s).pmc = s.pmc ∧
    (State.dirtyNode t lvl j s).out = s.out ∧
    (State.dirtyNode t lvl j s).net = s.net ∧
    (State.dirtyNode t lvl j s).freeCtr = s.freeCtr ∧
    (State.dirtyNode t lvl j s).pending = s.pending := by
  have k1 := State.setCnode_kept
  unfold State.dirtyNode
  simp [k1]

theorem State.writeDdr_kept (t i j : Nat) (s : State) :
    (State.writeDdr t i j s).member = s.member ∧
    (State.writeDdr t i j s).now = s.now ∧
    (State.writeDdr t i j s).regs = s.regs ∧
    (State.writeDdr t i j s).unstored = s.unstored ∧
    (State.writeDdr t i j s).host = s.host ∧
    (State.writeDdr t i j s).epo = s.epo ∧
    (State.writeDdr t i j s).cat = s.cat ∧
    (State.writeDdr t i j s).med = s.med ∧
    (State.writeDdr t i j s).coh = s.coh ∧
    (State.writeDdr t i j s).lnk = s.lnk ∧
    (State.writeDdr t i j s).rte = s.rte ∧
    (State.writeDdr t i j s).cap = s.cap ∧
    (State.writeDdr t i j s).cry = s.cry ∧
    (State.writeDdr t i j s).flt = s.flt ∧
    (State.writeDdr t i j s).anl = s.anl ∧
    (State.writeDdr t i j s).cur = s.cur ∧
    (State.writeDdr t i j s).thm = s.thm ∧
    (State.writeDdr t i j s).pwr = s.pwr ∧
    (State.writeDdr t i j s).net = s.net ∧
    (State.writeDdr t i j s).freeCtr = s.freeCtr ∧
    (State.writeDdr t i j s).pending = s.pending := by
  unfold State.writeDdr
  simp

theorem State.freshLeaf_kept (t i : Nat) (s : State) :
    (State.freshLeaf t i s).member = s.member ∧
    (State.freshLeaf t i s).now = s.now ∧
    (State.freshLeaf t i s).regs = s.regs ∧
    (State.freshLeaf t i s).unstored = s.unstored ∧
    (State.freshLeaf t i s).host = s.host ∧
    (State.freshLeaf t i s).epo = s.epo ∧
    (State.freshLeaf t i s).cat = s.cat ∧
    (State.freshLeaf t i s).med = s.med ∧
    (State.freshLeaf t i s).coh = s.coh ∧
    (State.freshLeaf t i s).lnk = s.lnk ∧
    (State.freshLeaf t i s).rte = s.rte ∧
    (State.freshLeaf t i s).cap = s.cap ∧
    (State.freshLeaf t i s).flt = s.flt ∧
    (State.freshLeaf t i s).anl = s.anl ∧
    (State.freshLeaf t i s).cur = s.cur ∧
    (State.freshLeaf t i s).thm = s.thm ∧
    (State.freshLeaf t i s).pwr = s.pwr ∧
    (State.freshLeaf t i s).pmc = s.pmc ∧
    (State.freshLeaf t i s).out = s.out ∧
    (State.freshLeaf t i s).net = s.net ∧
    (State.freshLeaf t i s).freeCtr = s.freeCtr ∧
    (State.freshLeaf t i s).pending = s.pending := by
  unfold State.freshLeaf
  simp

@[simp] theorem State.majorUp_kept (t i : Nat) (s : State) :
    (State.majorUp t i s).member = s.member ∧
    (State.majorUp t i s).now = s.now ∧
    (State.majorUp t i s).unstored = s.unstored ∧
    (State.majorUp t i s).host = s.host ∧
    (State.majorUp t i s).epo = s.epo ∧
    (State.majorUp t i s).cat = s.cat ∧
    (State.majorUp t i s).med = s.med ∧
    (State.majorUp t i s).coh = s.coh ∧
    (State.majorUp t i s).lnk = s.lnk ∧
    (State.majorUp t i s).rte = s.rte ∧
    (State.majorUp t i s).cap = s.cap ∧
    (State.majorUp t i s).flt = s.flt ∧
    (State.majorUp t i s).anl = s.anl ∧
    (State.majorUp t i s).cur = s.cur ∧
    (State.majorUp t i s).thm = s.thm ∧
    (State.majorUp t i s).pwr = s.pwr ∧
    (State.majorUp t i s).net = s.net ∧
    (State.majorUp t i s).freeCtr = s.freeCtr ∧
    (State.majorUp t i s).pending = s.pending := by
  have k1 := State.writeDdr_kept
  unfold State.majorUp
  simp [k1]

theorem State.bumpMinor_kept (t i j : Nat) (s : State) :
    (State.bumpMinor t i j s).member = s.member ∧
    (State.bumpMinor t i j s).now = s.now ∧
    (State.bumpMinor t i j s).unstored = s.unstored ∧
    (State.bumpMinor t i j s).host = s.host ∧
    (State.bumpMinor t i j s).epo = s.epo ∧
    (State.bumpMinor t i j s).cat = s.cat ∧
    (State.bumpMinor t i j s).med = s.med ∧
    (State.bumpMinor t i j s).coh = s.coh ∧
    (State.bumpMinor t i j s).lnk = s.lnk ∧
    (State.bumpMinor t i j s).rte = s.rte ∧
    (State.bumpMinor t i j s).cap = s.cap ∧
    (State.bumpMinor t i j s).flt = s.flt ∧
    (State.bumpMinor t i j s).anl = s.anl ∧
    (State.bumpMinor t i j s).cur = s.cur ∧
    (State.bumpMinor t i j s).thm = s.thm ∧
    (State.bumpMinor t i j s).pwr = s.pwr ∧
    (State.bumpMinor t i j s).net = s.net ∧
    (State.bumpMinor t i j s).freeCtr = s.freeCtr ∧
    (State.bumpMinor t i j s).pending = s.pending := by
  have k1 := State.freshLeaf_kept
  unfold State.bumpMinor
  simp [k1]

theorem State.ddrStore_kept (t a : Nat) (s : State) :
    (State.ddrStore t a s).member = s.member ∧
    (State.ddrStore t a s).now = s.now ∧
    (State.ddrStore t a s).unstored = s.unstored ∧
    (State.ddrStore t a s).host = s.host ∧
    (State.ddrStore t a s).epo = s.epo ∧
    (State.ddrStore t a s).cat = s.cat ∧
    (State.ddrStore t a s).med = s.med ∧
    (State.ddrStore t a s).coh = s.coh ∧
    (State.ddrStore t a s).lnk = s.lnk ∧
    (State.ddrStore t a s).rte = s.rte ∧
    (State.ddrStore t a s).cap = s.cap ∧
    (State.ddrStore t a s).flt = s.flt ∧
    (State.ddrStore t a s).anl = s.anl ∧
    (State.ddrStore t a s).cur = s.cur ∧
    (State.ddrStore t a s).thm = s.thm ∧
    (State.ddrStore t a s).pwr = s.pwr ∧
    (State.ddrStore t a s).net = s.net ∧
    (State.ddrStore t a s).freeCtr = s.freeCtr ∧
    (State.ddrStore t a s).pending = s.pending := by
  have k1 := State.bumpMinor_kept
  have k2 := State.writeDdr_kept
  unfold State.ddrStore
  simp [k1, k2]

theorem State.evictAt_kept (t lvl j : Nat) (s : State) :
    (State.evictAt t lvl j s).member = s.member ∧
    (State.evictAt t lvl j s).now = s.now ∧
    (State.evictAt t lvl j s).regs = s.regs ∧
    (State.evictAt t lvl j s).unstored = s.unstored ∧
    (State.evictAt t lvl j s).host = s.host ∧
    (State.evictAt t lvl j s).epo = s.epo ∧
    (State.evictAt t lvl j s).cat = s.cat ∧
    (State.evictAt t lvl j s).med = s.med ∧
    (State.evictAt t lvl j s).coh = s.coh ∧
    (State.evictAt t lvl j s).lnk = s.lnk ∧
    (State.evictAt t lvl j s).rte = s.rte ∧
    (State.evictAt t lvl j s).cap = s.cap ∧
    (State.evictAt t lvl j s).flt = s.flt ∧
    (State.evictAt t lvl j s).anl = s.anl ∧
    (State.evictAt t lvl j s).cur = s.cur ∧
    (State.evictAt t lvl j s).thm = s.thm ∧
    (State.evictAt t lvl j s).pwr = s.pwr ∧
    (State.evictAt t lvl j s).net = s.net ∧
    (State.evictAt t lvl j s).freeCtr = s.freeCtr ∧
    (State.evictAt t lvl j s).pending = s.pending := by
  have k1 := State.setCnode_kept
  unfold State.evictAt
  dsimp only
  split <;> simp only [State.dirtyNode_kept, State.emit_kept, State.pmcEdge_kept, State.setCnode_kept, and_self]

@[simp] theorem State.evictNode_kept (t b : Nat) (s : State) :
    (State.evictNode t b s).member = s.member ∧
    (State.evictNode t b s).now = s.now ∧
    (State.evictNode t b s).regs = s.regs ∧
    (State.evictNode t b s).unstored = s.unstored ∧
    (State.evictNode t b s).host = s.host ∧
    (State.evictNode t b s).epo = s.epo ∧
    (State.evictNode t b s).cat = s.cat ∧
    (State.evictNode t b s).med = s.med ∧
    (State.evictNode t b s).coh = s.coh ∧
    (State.evictNode t b s).lnk = s.lnk ∧
    (State.evictNode t b s).rte = s.rte ∧
    (State.evictNode t b s).cap = s.cap ∧
    (State.evictNode t b s).flt = s.flt ∧
    (State.evictNode t b s).anl = s.anl ∧
    (State.evictNode t b s).cur = s.cur ∧
    (State.evictNode t b s).thm = s.thm ∧
    (State.evictNode t b s).pwr = s.pwr ∧
    (State.evictNode t b s).net = s.net ∧
    (State.evictNode t b s).freeCtr = s.freeCtr ∧
    (State.evictNode t b s).pending = s.pending := by
  have k1 := State.evictAt_kept
  unfold State.evictNode
  cases nodeOf (s.leafCount t) 0 9 b <;> simp only [Option.elim, State.evictAt_kept, and_self]

theorem State.writeBackNodes_kept (t : Nat) (s : State) :
    (State.writeBackNodes t s).member = s.member ∧
    (State.writeBackNodes t s).now = s.now ∧
    (State.writeBackNodes t s).regs = s.regs ∧
    (State.writeBackNodes t s).unstored = s.unstored ∧
    (State.writeBackNodes t s).host = s.host ∧
    (State.writeBackNodes t s).epo = s.epo ∧
    (State.writeBackNodes t s).cat = s.cat ∧
    (State.writeBackNodes t s).med = s.med ∧
    (State.writeBackNodes t s).coh = s.coh ∧
    (State.writeBackNodes t s).lnk = s.lnk ∧
    (State.writeBackNodes t s).rte = s.rte ∧
    (State.writeBackNodes t s).cap = s.cap ∧
    (State.writeBackNodes t s).flt = s.flt ∧
    (State.writeBackNodes t s).anl = s.anl ∧
    (State.writeBackNodes t s).cur = s.cur ∧
    (State.writeBackNodes t s).thm = s.thm ∧
    (State.writeBackNodes t s).pwr = s.pwr ∧
    (State.writeBackNodes t s).net = s.net ∧
    (State.writeBackNodes t s).freeCtr = s.freeCtr ∧
    (State.writeBackNodes t s).pending = s.pending := by
  have k1 := State.evictAt_kept
  unfold State.writeBackNodes
  (try dsimp only)
  refine ⟨foldl_member _ _ (fun s x => foldl_member _ _ ?_ _ _) _ _, foldl_now _ _ (fun s x => foldl_now _ _ ?_ _ _) _ _, foldl_regs _ _ (fun s x => foldl_regs _ _ ?_ _ _) _ _, foldl_unstored _ _ (fun s x => foldl_unstored _ _ ?_ _ _) _ _, foldl_host _ _ (fun s x => foldl_host _ _ ?_ _ _) _ _, foldl_epo _ _ (fun s x => foldl_epo _ _ ?_ _ _) _ _, foldl_cat _ _ (fun s x => foldl_cat _ _ ?_ _ _) _ _, foldl_med _ _ (fun s x => foldl_med _ _ ?_ _ _) _ _, foldl_coh _ _ (fun s x => foldl_coh _ _ ?_ _ _) _ _, foldl_lnk _ _ (fun s x => foldl_lnk _ _ ?_ _ _) _ _, foldl_rte _ _ (fun s x => foldl_rte _ _ ?_ _ _) _ _, foldl_cap _ _ (fun s x => foldl_cap _ _ ?_ _ _) _ _, foldl_flt _ _ (fun s x => foldl_flt _ _ ?_ _ _) _ _, foldl_anl _ _ (fun s x => foldl_anl _ _ ?_ _ _) _ _, foldl_cur _ _ (fun s x => foldl_cur _ _ ?_ _ _) _ _, foldl_thm _ _ (fun s x => foldl_thm _ _ ?_ _ _) _ _, foldl_pwr _ _ (fun s x => foldl_pwr _ _ ?_ _ _) _ _, foldl_net _ _ (fun s x => foldl_net _ _ ?_ _ _) _ _, foldl_freeCtr _ _ (fun s x => foldl_freeCtr _ _ ?_ _ _) _ _, foldl_pending _ _ (fun s x => foldl_pending _ _ ?_ _ _) _ _⟩
  all_goals
    intro s x
    (try dsimp only)
    repeat' split
    all_goals simp [k1]

theorem State.useEntry_kept (leaf : Bool) (key : Nat) (write : Bool) (s : State) :
    (State.useEntry leaf key write s).member = s.member ∧
    (State.useEntry leaf key write s).now = s.now ∧
    (State.useEntry leaf key write s).unstored = s.unstored ∧
    (State.useEntry leaf key write s).host = s.host ∧
    (State.useEntry leaf key write s).epo = s.epo ∧
    (State.useEntry leaf key write s).med = s.med ∧
    (State.useEntry leaf key write s).coh = s.coh ∧
    (State.useEntry leaf key write s).lnk = s.lnk ∧
    (State.useEntry leaf key write s).rte = s.rte ∧
    (State.useEntry leaf key write s).cap = s.cap ∧
    (State.useEntry leaf key write s).flt = s.flt ∧
    (State.useEntry leaf key write s).anl = s.anl ∧
    (State.useEntry leaf key write s).cur = s.cur ∧
    (State.useEntry leaf key write s).thm = s.thm ∧
    (State.useEntry leaf key write s).pwr = s.pwr ∧
    (State.useEntry leaf key write s).net = s.net ∧
    (State.useEntry leaf key write s).freeCtr = s.freeCtr ∧
    (State.useEntry leaf key write s).pending = s.pending := by
  have k1 := State.ddrStore_kept
  unfold State.useEntry
  simp [k1]

@[simp] theorem State.setEntry_kept (leaf : Bool) (key : Nat) (v : Entry) (s : State) :
    (State.setEntry leaf key v s).member = s.member ∧
    (State.setEntry leaf key v s).now = s.now ∧
    (State.setEntry leaf key v s).unstored = s.unstored ∧
    (State.setEntry leaf key v s).host = s.host ∧
    (State.setEntry leaf key v s).epo = s.epo ∧
    (State.setEntry leaf key v s).med = s.med ∧
    (State.setEntry leaf key v s).coh = s.coh ∧
    (State.setEntry leaf key v s).lnk = s.lnk ∧
    (State.setEntry leaf key v s).rte = s.rte ∧
    (State.setEntry leaf key v s).cap = s.cap ∧
    (State.setEntry leaf key v s).flt = s.flt ∧
    (State.setEntry leaf key v s).anl = s.anl ∧
    (State.setEntry leaf key v s).cur = s.cur ∧
    (State.setEntry leaf key v s).thm = s.thm ∧
    (State.setEntry leaf key v s).pwr = s.pwr ∧
    (State.setEntry leaf key v s).net = s.net ∧
    (State.setEntry leaf key v s).freeCtr = s.freeCtr ∧
    (State.setEntry leaf key v s).pending = s.pending := by
  have k1 := State.useEntry_kept
  unfold State.setEntry
  simp [k1]

@[simp] theorem State.wait_kept (b : Bool) (s : State) :
    (State.wait b s).member = s.member ∧
    (State.wait b s).now = s.now ∧
    (State.wait b s).regs = s.regs ∧
    (State.wait b s).unstored = s.unstored ∧
    (State.wait b s).host = s.host ∧
    (State.wait b s).epo = s.epo ∧
    (State.wait b s).med = s.med ∧
    (State.wait b s).coh = s.coh ∧
    (State.wait b s).lnk = s.lnk ∧
    (State.wait b s).rte = s.rte ∧
    (State.wait b s).cap = s.cap ∧
    (State.wait b s).cry = s.cry ∧
    (State.wait b s).flt = s.flt ∧
    (State.wait b s).anl = s.anl ∧
    (State.wait b s).cur = s.cur ∧
    (State.wait b s).thm = s.thm ∧
    (State.wait b s).pwr = s.pwr ∧
    (State.wait b s).pmc = s.pmc ∧
    (State.wait b s).out = s.out ∧
    (State.wait b s).net = s.net ∧
    (State.wait b s).freeCtr = s.freeCtr ∧
    (State.wait b s).pending = s.pending := by
  unfold State.wait
  simp

@[simp] theorem State.undo_kept (leaf : Bool) (key epoch : Nat) (s : State) :
    (State.undo leaf key epoch s).member = s.member ∧
    (State.undo leaf key epoch s).now = s.now ∧
    (State.undo leaf key epoch s).regs = s.regs ∧
    (State.undo leaf key epoch s).unstored = s.unstored ∧
    (State.undo leaf key epoch s).host = s.host ∧
    (State.undo leaf key epoch s).epo = s.epo ∧
    (State.undo leaf key epoch s).med = s.med ∧
    (State.undo leaf key epoch s).coh = s.coh ∧
    (State.undo leaf key epoch s).lnk = s.lnk ∧
    (State.undo leaf key epoch s).rte = s.rte ∧
    (State.undo leaf key epoch s).cap = s.cap ∧
    (State.undo leaf key epoch s).cry = s.cry ∧
    (State.undo leaf key epoch s).flt = s.flt ∧
    (State.undo leaf key epoch s).anl = s.anl ∧
    (State.undo leaf key epoch s).cur = s.cur ∧
    (State.undo leaf key epoch s).thm = s.thm ∧
    (State.undo leaf key epoch s).pwr = s.pwr ∧
    (State.undo leaf key epoch s).out = s.out ∧
    (State.undo leaf key epoch s).net = s.net ∧
    (State.undo leaf key epoch s).freeCtr = s.freeCtr ∧
    (State.undo leaf key epoch s).pending = s.pending := by
  unfold State.undo
  simp

@[simp] theorem State.sweepGroups_kept (t : Nat) (s : State) :
    (State.sweepGroups t s).member = s.member ∧
    (State.sweepGroups t s).now = s.now ∧
    (State.sweepGroups t s).regs = s.regs ∧
    (State.sweepGroups t s).unstored = s.unstored ∧
    (State.sweepGroups t s).host = s.host ∧
    (State.sweepGroups t s).epo = s.epo ∧
    (State.sweepGroups t s).med = s.med ∧
    (State.sweepGroups t s).coh = s.coh ∧
    (State.sweepGroups t s).lnk = s.lnk ∧
    (State.sweepGroups t s).rte = s.rte ∧
    (State.sweepGroups t s).cap = s.cap ∧
    (State.sweepGroups t s).cry = s.cry ∧
    (State.sweepGroups t s).flt = s.flt ∧
    (State.sweepGroups t s).anl = s.anl ∧
    (State.sweepGroups t s).cur = s.cur ∧
    (State.sweepGroups t s).thm = s.thm ∧
    (State.sweepGroups t s).pwr = s.pwr ∧
    (State.sweepGroups t s).pmc = s.pmc ∧
    (State.sweepGroups t s).out = s.out ∧
    (State.sweepGroups t s).net = s.net ∧
    (State.sweepGroups t s).freeCtr = s.freeCtr ∧
    (State.sweepGroups t s).pending = s.pending := by
  unfold State.sweepGroups
  simp

theorem State.askStager_kept (leaf : Bool) (key : Nat) (b : Bool) (s : State) :
    (State.askStager leaf key b s).member = s.member ∧
    (State.askStager leaf key b s).now = s.now ∧
    (State.askStager leaf key b s).regs = s.regs ∧
    (State.askStager leaf key b s).unstored = s.unstored ∧
    (State.askStager leaf key b s).host = s.host ∧
    (State.askStager leaf key b s).epo = s.epo ∧
    (State.askStager leaf key b s).med = s.med ∧
    (State.askStager leaf key b s).coh = s.coh ∧
    (State.askStager leaf key b s).lnk = s.lnk ∧
    (State.askStager leaf key b s).rte = s.rte ∧
    (State.askStager leaf key b s).cap = s.cap ∧
    (State.askStager leaf key b s).cry = s.cry ∧
    (State.askStager leaf key b s).flt = s.flt ∧
    (State.askStager leaf key b s).anl = s.anl ∧
    (State.askStager leaf key b s).cur = s.cur ∧
    (State.askStager leaf key b s).thm = s.thm ∧
    (State.askStager leaf key b s).pwr = s.pwr ∧
    (State.askStager leaf key b s).pmc = s.pmc ∧
    (State.askStager leaf key b s).out = s.out ∧
    (State.askStager leaf key b s).net = s.net ∧
    (State.askStager leaf key b s).freeCtr = s.freeCtr ∧
    (State.askStager leaf key b s).pending = s.pending := by
  unfold State.askStager
  simp

theorem State.asking_kept (t s : State) :
    (State.asking t s).member = s.member ∧
    (State.asking t s).now = s.now ∧
    (State.asking t s).regs = s.regs ∧
    (State.asking t s).unstored = s.unstored ∧
    (State.asking t s).host = s.host ∧
    (State.asking t s).epo = s.epo ∧
    (State.asking t s).med = s.med ∧
    (State.asking t s).coh = s.coh ∧
    (State.asking t s).lnk = s.lnk ∧
    (State.asking t s).rte = s.rte ∧
    (State.asking t s).cap = s.cap ∧
    (State.asking t s).cry = s.cry ∧
    (State.asking t s).flt = s.flt ∧
    (State.asking t s).anl = s.anl ∧
    (State.asking t s).cur = s.cur ∧
    (State.asking t s).thm = s.thm ∧
    (State.asking t s).pwr = s.pwr ∧
    (State.asking t s).pmc = s.pmc ∧
    (State.asking t s).out = s.out ∧
    (State.asking t s).net = s.net ∧
    (State.asking t s).freeCtr = s.freeCtr ∧
    (State.asking t s).pending = s.pending := by
  unfold State.asking
  simp

theorem State.storeStaged_kept (line : Nat) (s : State) :
    (State.storeStaged line s).member = s.member ∧
    (State.storeStaged line s).now = s.now ∧
    (State.storeStaged line s).unstored = s.unstored ∧
    (State.storeStaged line s).host = s.host ∧
    (State.storeStaged line s).epo = s.epo ∧
    (State.storeStaged line s).cat = s.cat ∧
    (State.storeStaged line s).med = s.med ∧
    (State.storeStaged line s).coh = s.coh ∧
    (State.storeStaged line s).lnk = s.lnk ∧
    (State.storeStaged line s).rte = s.rte ∧
    (State.storeStaged line s).cap = s.cap ∧
    (State.storeStaged line s).flt = s.flt ∧
    (State.storeStaged line s).anl = s.anl ∧
    (State.storeStaged line s).cur = s.cur ∧
    (State.storeStaged line s).thm = s.thm ∧
    (State.storeStaged line s).pwr = s.pwr ∧
    (State.storeStaged line s).net = s.net ∧
    (State.storeStaged line s).freeCtr = s.freeCtr ∧
    (State.storeStaged line s).pending = s.pending := by
  have k1 := State.ddrStore_kept
  unfold State.storeStaged
  repeat' split
  all_goals simp [k1, *]

@[simp] theorem State.stage_kept (line : Nat) (v : Stored) (epoch : Nat) (s : State) :
    (State.stage line v epoch s).member = s.member ∧
    (State.stage line v epoch s).now = s.now ∧
    (State.stage line v epoch s).unstored = s.unstored ∧
    (State.stage line v epoch s).host = s.host ∧
    (State.stage line v epoch s).epo = s.epo ∧
    (State.stage line v epoch s).med = s.med ∧
    (State.stage line v epoch s).coh = s.coh ∧
    (State.stage line v epoch s).lnk = s.lnk ∧
    (State.stage line v epoch s).rte = s.rte ∧
    (State.stage line v epoch s).cap = s.cap ∧
    (State.stage line v epoch s).flt = s.flt ∧
    (State.stage line v epoch s).anl = s.anl ∧
    (State.stage line v epoch s).cur = s.cur ∧
    (State.stage line v epoch s).thm = s.thm ∧
    (State.stage line v epoch s).pwr = s.pwr ∧
    (State.stage line v epoch s).net = s.net ∧
    (State.stage line v epoch s).freeCtr = s.freeCtr ∧
    (State.stage line v epoch s).pending = s.pending := by
  have k1 := State.askStager_kept
  have k2 := State.storeStaged_kept
  have k3 := State.useEntry_kept
  unfold State.stage
  simp [k1, k2, k3]

theorem State.spoilt_kept (line : Nat) (s : State) :
    (State.spoilt line s).member = s.member ∧
    (State.spoilt line s).now = s.now ∧
    (State.spoilt line s).regs = s.regs ∧
    (State.spoilt line s).unstored = s.unstored ∧
    (State.spoilt line s).host = s.host ∧
    (State.spoilt line s).epo = s.epo ∧
    (State.spoilt line s).med = s.med ∧
    (State.spoilt line s).coh = s.coh ∧
    (State.spoilt line s).lnk = s.lnk ∧
    (State.spoilt line s).rte = s.rte ∧
    (State.spoilt line s).cap = s.cap ∧
    (State.spoilt line s).cry = s.cry ∧
    (State.spoilt line s).flt = s.flt ∧
    (State.spoilt line s).anl = s.anl ∧
    (State.spoilt line s).cur = s.cur ∧
    (State.spoilt line s).thm = s.thm ∧
    (State.spoilt line s).pwr = s.pwr ∧
    (State.spoilt line s).pmc = s.pmc ∧
    (State.spoilt line s).out = s.out ∧
    (State.spoilt line s).net = s.net ∧
    (State.spoilt line s).freeCtr = s.freeCtr ∧
    (State.spoilt line s).pending = s.pending := by
  unfold State.spoilt
  simp

theorem State.readHit_kept (line : Nat) (h : MediaHit) (s : State) :
    (State.readHit line h s).member = s.member ∧
    (State.readHit line h s).now = s.now ∧
    (State.readHit line h s).unstored = s.unstored ∧
    (State.readHit line h s).host = s.host ∧
    (State.readHit line h s).epo = s.epo ∧
    (State.readHit line h s).coh = s.coh ∧
    (State.readHit line h s).lnk = s.lnk ∧
    (State.readHit line h s).rte = s.rte ∧
    (State.readHit line h s).cap = s.cap ∧
    (State.readHit line h s).cry = s.cry ∧
    (State.readHit line h s).anl = s.anl ∧
    (State.readHit line h s).cur = s.cur ∧
    (State.readHit line h s).thm = s.thm ∧
    (State.readHit line h s).pwr = s.pwr ∧
    (State.readHit line h s).out = s.out ∧
    (State.readHit line h s).net = s.net ∧
    (State.readHit line h s).freeCtr = s.freeCtr ∧
    (State.readHit line h s).pending = s.pending := by
  have k1 := State.checkCodeword_kept
  have k2 := State.firstPassFailed_kept
  have k3 := State.mediaRead_kept
  have k4 := State.sumBits_kept
  unfold State.readHit
  simp [k1, k2, k3, k4]

theorem State.homeRead_kept (line : Nat) (f : Fill) (s : State) :
    (State.homeRead line f s).member = s.member ∧
    (State.homeRead line f s).now = s.now ∧
    (State.homeRead line f s).unstored = s.unstored ∧
    (State.homeRead line f s).host = s.host ∧
    (State.homeRead line f s).epo = s.epo ∧
    (State.homeRead line f s).coh = s.coh ∧
    (State.homeRead line f s).lnk = s.lnk ∧
    (State.homeRead line f s).rte = s.rte ∧
    (State.homeRead line f s).cap = s.cap ∧
    (State.homeRead line f s).anl = s.anl ∧
    (State.homeRead line f s).cur = s.cur ∧
    (State.homeRead line f s).thm = s.thm ∧
    (State.homeRead line f s).pwr = s.pwr ∧
    (State.homeRead line f s).net = s.net ∧
    (State.homeRead line f s).freeCtr = s.freeCtr ∧
    (State.homeRead line f s).pending = s.pending := by
  have k1 := State.checkTags_kept
  have k2 := State.readHit_kept
  have k3 := State.spoilt_kept
  have k4 := State.useEntry_kept
  unfold State.homeRead
  dsimp only
  repeat' split
  all_goals simp [k1, k2, k3, k4]

theorem State.markForged_kept (line cause : Nat) (s : State) :
    (State.markForged line cause s).member = s.member ∧
    (State.markForged line cause s).now = s.now ∧
    (State.markForged line cause s).regs = s.regs ∧
    (State.markForged line cause s).unstored = s.unstored ∧
    (State.markForged line cause s).host = s.host ∧
    (State.markForged line cause s).epo = s.epo ∧
    (State.markForged line cause s).med = s.med ∧
    (State.markForged line cause s).coh = s.coh ∧
    (State.markForged line cause s).lnk = s.lnk ∧
    (State.markForged line cause s).rte = s.rte ∧
    (State.markForged line cause s).cap = s.cap ∧
    (State.markForged line cause s).cry = s.cry ∧
    (State.markForged line cause s).flt = s.flt ∧
    (State.markForged line cause s).anl = s.anl ∧
    (State.markForged line cause s).cur = s.cur ∧
    (State.markForged line cause s).thm = s.thm ∧
    (State.markForged line cause s).pwr = s.pwr ∧
    (State.markForged line cause s).pmc = s.pmc ∧
    (State.markForged line cause s).out = s.out ∧
    (State.markForged line cause s).net = s.net ∧
    (State.markForged line cause s).freeCtr = s.freeCtr ∧
    (State.markForged line cause s).pending = s.pending := by
  unfold State.markForged
  simp

theorem State.mediaLost_kept (line : Nat) (members : Option Nat) (s : State) :
    (State.mediaLost line members s).member = s.member ∧
    (State.mediaLost line members s).now = s.now ∧
    (State.mediaLost line members s).unstored = s.unstored ∧
    (State.mediaLost line members s).host = s.host ∧
    (State.mediaLost line members s).epo = s.epo ∧
    (State.mediaLost line members s).cat = s.cat ∧
    (State.mediaLost line members s).med = s.med ∧
    (State.mediaLost line members s).coh = s.coh ∧
    (State.mediaLost line members s).lnk = s.lnk ∧
    (State.mediaLost line members s).rte = s.rte ∧
    (State.mediaLost line members s).cap = s.cap ∧
    (State.mediaLost line members s).cry = s.cry ∧
    (State.mediaLost line members s).flt = s.flt ∧
    (State.mediaLost line members s).cur = s.cur ∧
    (State.mediaLost line members s).thm = s.thm ∧
    (State.mediaLost line members s).pwr = s.pwr ∧
    (State.mediaLost line members s).pmc = s.pmc ∧
    (State.mediaLost line members s).out = s.out ∧
    (State.mediaLost line members s).net = s.net ∧
    (State.mediaLost line members s).freeCtr = s.freeCtr ∧
    (State.mediaLost line members s).pending = s.pending := by
  unfold State.mediaLost
  repeat' split
  all_goals simp [*]

@[simp] theorem State.setMiss_kept (t line : Nat) (v : Option Miss) (s : State) :
    (State.setMiss t line v s).member = s.member ∧
    (State.setMiss t line v s).now = s.now ∧
    (State.setMiss t line v s).regs = s.regs ∧
    (State.setMiss t line v s).unstored = s.unstored ∧
    (State.setMiss t line v s).host = s.host ∧
    (State.setMiss t line v s).epo = s.epo ∧
    (State.setMiss t line v s).cat = s.cat ∧
    (State.setMiss t line v s).med = s.med ∧
    (State.setMiss t line v s).lnk = s.lnk ∧
    (State.setMiss t line v s).rte = s.rte ∧
    (State.setMiss t line v s).cap = s.cap ∧
    (State.setMiss t line v s).cry = s.cry ∧
    (State.setMiss t line v s).flt = s.flt ∧
    (State.setMiss t line v s).anl = s.anl ∧
    (State.setMiss t line v s).cur = s.cur ∧
    (State.setMiss t line v s).thm = s.thm ∧
    (State.setMiss t line v s).pwr = s.pwr ∧
    (State.setMiss t line v s).pmc = s.pmc ∧
    (State.setMiss t line v s).out = s.out ∧
    (State.setMiss t line v s).net = s.net ∧
    (State.setMiss t line v s).freeCtr = s.freeCtr ∧
    (State.setMiss t line v s).pending = s.pending := by
  unfold State.setMiss
  simp

@[simp] theorem State.setTx_kept (line : Nat) (v : Option Tx) (s : State) :
    (State.setTx line v s).member = s.member ∧
    (State.setTx line v s).now = s.now ∧
    (State.setTx line v s).regs = s.regs ∧
    (State.setTx line v s).unstored = s.unstored ∧
    (State.setTx line v s).host = s.host ∧
    (State.setTx line v s).epo = s.epo ∧
    (State.setTx line v s).cat = s.cat ∧
    (State.setTx line v s).med = s.med ∧
    (State.setTx line v s).lnk = s.lnk ∧
    (State.setTx line v s).rte = s.rte ∧
    (State.setTx line v s).cap = s.cap ∧
    (State.setTx line v s).cry = s.cry ∧
    (State.setTx line v s).flt = s.flt ∧
    (State.setTx line v s).anl = s.anl ∧
    (State.setTx line v s).cur = s.cur ∧
    (State.setTx line v s).thm = s.thm ∧
    (State.setTx line v s).pwr = s.pwr ∧
    (State.setTx line v s).pmc = s.pmc ∧
    (State.setTx line v s).out = s.out ∧
    (State.setTx line v s).net = s.net ∧
    (State.setTx line v s).freeCtr = s.freeCtr ∧
    (State.setTx line v s).pending = s.pending := by
  unfold State.setTx
  simp

theorem State.setBusy_kept (line : Nat) (b : Bool) (s : State) :
    (State.setBusy line b s).member = s.member ∧
    (State.setBusy line b s).now = s.now ∧
    (State.setBusy line b s).regs = s.regs ∧
    (State.setBusy line b s).unstored = s.unstored ∧
    (State.setBusy line b s).host = s.host ∧
    (State.setBusy line b s).epo = s.epo ∧
    (State.setBusy line b s).cat = s.cat ∧
    (State.setBusy line b s).med = s.med ∧
    (State.setBusy line b s).lnk = s.lnk ∧
    (State.setBusy line b s).rte = s.rte ∧
    (State.setBusy line b s).cap = s.cap ∧
    (State.setBusy line b s).cry = s.cry ∧
    (State.setBusy line b s).flt = s.flt ∧
    (State.setBusy line b s).anl = s.anl ∧
    (State.setBusy line b s).cur = s.cur ∧
    (State.setBusy line b s).thm = s.thm ∧
    (State.setBusy line b s).pwr = s.pwr ∧
    (State.setBusy line b s).pmc = s.pmc ∧
    (State.setBusy line b s).out = s.out ∧
    (State.setBusy line b s).net = s.net ∧
    (State.setBusy line b s).freeCtr = s.freeCtr ∧
    (State.setBusy line b s).pending = s.pending := by
  unfold State.setBusy
  simp

@[simp] theorem State.sendReq_kept (t line : Nat) (k : ReqKind) (s : State) :
    (State.sendReq t line k s).member = s.member ∧
    (State.sendReq t line k s).now = s.now ∧
    (State.sendReq t line k s).regs = s.regs ∧
    (State.sendReq t line k s).unstored = s.unstored ∧
    (State.sendReq t line k s).host = s.host ∧
    (State.sendReq t line k s).epo = s.epo ∧
    (State.sendReq t line k s).cat = s.cat ∧
    (State.sendReq t line k s).med = s.med ∧
    (State.sendReq t line k s).coh = s.coh ∧
    (State.sendReq t line k s).lnk = s.lnk ∧
    (State.sendReq t line k s).rte = s.rte ∧
    (State.sendReq t line k s).cap = s.cap ∧
    (State.sendReq t line k s).cry = s.cry ∧
    (State.sendReq t line k s).flt = s.flt ∧
    (State.sendReq t line k s).anl = s.anl ∧
    (State.sendReq t line k s).cur = s.cur ∧
    (State.sendReq t line k s).thm = s.thm ∧
    (State.sendReq t line k s).pwr = s.pwr ∧
    (State.sendReq t line k s).pmc = s.pmc ∧
    (State.sendReq t line k s).out = s.out ∧
    (State.sendReq t line k s).freeCtr = s.freeCtr ∧
    (State.sendReq t line k s).pending = s.pending := by
  unfold State.sendReq
  simp

@[simp] theorem State.releaseMiss_kept (t line : Nat) (s : State) :
    (State.releaseMiss t line s).member = s.member ∧
    (State.releaseMiss t line s).now = s.now ∧
    (State.releaseMiss t line s).regs = s.regs ∧
    (State.releaseMiss t line s).unstored = s.unstored ∧
    (State.releaseMiss t line s).host = s.host ∧
    (State.releaseMiss t line s).epo = s.epo ∧
    (State.releaseMiss t line s).cat = s.cat ∧
    (State.releaseMiss t line s).med = s.med ∧
    (State.releaseMiss t line s).lnk = s.lnk ∧
    (State.releaseMiss t line s).rte = s.rte ∧
    (State.releaseMiss t line s).cap = s.cap ∧
    (State.releaseMiss t line s).cry = s.cry ∧
    (State.releaseMiss t line s).flt = s.flt ∧
    (State.releaseMiss t line s).anl = s.anl ∧
    (State.releaseMiss t line s).cur = s.cur ∧
    (State.releaseMiss t line s).thm = s.thm ∧
    (State.releaseMiss t line s).pwr = s.pwr ∧
    (State.releaseMiss t line s).pmc = s.pmc ∧
    (State.releaseMiss t line s).out = s.out ∧
    (State.releaseMiss t line s).freeCtr = s.freeCtr ∧
    (State.releaseMiss t line s).pending = s.pending := by
  unfold State.releaseMiss
  repeat' split
  all_goals simp [*]

theorem State.wbBack_kept (t home n : Nat) (s : State) :
    (State.wbBack t home n s).member = s.member ∧
    (State.wbBack t home n s).now = s.now ∧
    (State.wbBack t home n s).regs = s.regs ∧
    (State.wbBack t home n s).unstored = s.unstored ∧
    (State.wbBack t home n s).host = s.host ∧
    (State.wbBack t home n s).epo = s.epo ∧
    (State.wbBack t home n s).cat = s.cat ∧
    (State.wbBack t home n s).med = s.med ∧
    (State.wbBack t home n s).lnk = s.lnk ∧
    (State.wbBack t home n s).rte = s.rte ∧
    (State.wbBack t home n s).cap = s.cap ∧
    (State.wbBack t home n s).cry = s.cry ∧
    (State.wbBack t home n s).flt = s.flt ∧
    (State.wbBack t home n s).anl = s.anl ∧
    (State.wbBack t home n s).cur = s.cur ∧
    (State.wbBack t home n s).thm = s.thm ∧
    (State.wbBack t home n s).pwr = s.pwr ∧
    (State.wbBack t home n s).pmc = s.pmc ∧
    (State.wbBack t home n s).out = s.out ∧
    (State.wbBack t home n s).net = s.net ∧
    (State.wbBack t home n s).freeCtr = s.freeCtr ∧
    (State.wbBack t home n s).pending = s.pending := by
  unfold State.wbBack
  simp

theorem State.clearEv_kept (t line : Nat) (s : State) :
    (State.clearEv t line s).member = s.member ∧
    (State.clearEv t line s).now = s.now ∧
    (State.clearEv t line s).regs = s.regs ∧
    (State.clearEv t line s).unstored = s.unstored ∧
    (State.clearEv t line s).host = s.host ∧
    (State.clearEv t line s).epo = s.epo ∧
    (State.clearEv t line s).cat = s.cat ∧
    (State.clearEv t line s).med = s.med ∧
    (State.clearEv t line s).lnk = s.lnk ∧
    (State.clearEv t line s).rte = s.rte ∧
    (State.clearEv t line s).cap = s.cap ∧
    (State.clearEv t line s).cry = s.cry ∧
    (State.clearEv t line s).flt = s.flt ∧
    (State.clearEv t line s).anl = s.anl ∧
    (State.clearEv t line s).cur = s.cur ∧
    (State.clearEv t line s).thm = s.thm ∧
    (State.clearEv t line s).pwr = s.pwr ∧
    (State.clearEv t line s).pmc = s.pmc ∧
    (State.clearEv t line s).out = s.out ∧
    (State.clearEv t line s).freeCtr = s.freeCtr ∧
    (State.clearEv t line s).pending = s.pending := by
  have k1 := State.wbBack_kept
  unfold State.clearEv
  simp [k1]

@[simp] theorem State.dropSharer_kept (t line : Nat) (s : State) :
    (State.dropSharer t line s).member = s.member ∧
    (State.dropSharer t line s).now = s.now ∧
    (State.dropSharer t line s).regs = s.regs ∧
    (State.dropSharer t line s).unstored = s.unstored ∧
    (State.dropSharer t line s).host = s.host ∧
    (State.dropSharer t line s).epo = s.epo ∧
    (State.dropSharer t line s).cat = s.cat ∧
    (State.dropSharer t line s).med = s.med ∧
    (State.dropSharer t line s).lnk = s.lnk ∧
    (State.dropSharer t line s).rte = s.rte ∧
    (State.dropSharer t line s).cap = s.cap ∧
    (State.dropSharer t line s).cry = s.cry ∧
    (State.dropSharer t line s).flt = s.flt ∧
    (State.dropSharer t line s).anl = s.anl ∧
    (State.dropSharer t line s).cur = s.cur ∧
    (State.dropSharer t line s).thm = s.thm ∧
    (State.dropSharer t line s).pwr = s.pwr ∧
    (State.dropSharer t line s).pmc = s.pmc ∧
    (State.dropSharer t line s).out = s.out ∧
    (State.dropSharer t line s).net = s.net ∧
    (State.dropSharer t line s).freeCtr = s.freeCtr ∧
    (State.dropSharer t line s).pending = s.pending := by
  unfold State.dropSharer
  simp

theorem State.takeEvict_kept (t line : Nat) (s : State) :
    (State.takeEvict t line s).member = s.member ∧
    (State.takeEvict t line s).now = s.now ∧
    (State.takeEvict t line s).unstored = s.unstored ∧
    (State.takeEvict t line s).host = s.host ∧
    (State.takeEvict t line s).epo = s.epo ∧
    (State.takeEvict t line s).med = s.med ∧
    (State.takeEvict t line s).lnk = s.lnk ∧
    (State.takeEvict t line s).rte = s.rte ∧
    (State.takeEvict t line s).cap = s.cap ∧
    (State.takeEvict t line s).flt = s.flt ∧
    (State.takeEvict t line s).anl = s.anl ∧
    (State.takeEvict t line s).cur = s.cur ∧
    (State.takeEvict t line s).thm = s.thm ∧
    (State.takeEvict t line s).pwr = s.pwr ∧
    (State.takeEvict t line s).freeCtr = s.freeCtr ∧
    (State.takeEvict t line s).pending = s.pending := by
  have k1 := State.clearEv_kept
  unfold State.takeEvict
  simp [k1]

theorem State.stageWb_kept (line : Nat) (m : Msg) (s : State) :
    (State.stageWb line m s).member = s.member ∧
    (State.stageWb line m s).now = s.now ∧
    (State.stageWb line m s).unstored = s.unstored ∧
    (State.stageWb line m s).host = s.host ∧
    (State.stageWb line m s).epo = s.epo ∧
    (State.stageWb line m s).med = s.med ∧
    (State.stageWb line m s).coh = s.coh ∧
    (State.stageWb line m s).lnk = s.lnk ∧
    (State.stageWb line m s).rte = s.rte ∧
    (State.stageWb line m s).cap = s.cap ∧
    (State.stageWb line m s).flt = s.flt ∧
    (State.stageWb line m s).anl = s.anl ∧
    (State.stageWb line m s).cur = s.cur ∧
    (State.stageWb line m s).thm = s.thm ∧
    (State.stageWb line m s).pwr = s.pwr ∧
    (State.stageWb line m s).net = s.net ∧
    (State.stageWb line m s).freeCtr = s.freeCtr ∧
    (State.stageWb line m s).pending = s.pending := by
  unfold State.stageWb
  repeat' split
  all_goals simp [*]

theorem State.takeWb_kept (t line : Nat) (s : State) :
    (State.takeWb t line s).member = s.member ∧
    (State.takeWb t line s).now = s.now ∧
    (State.takeWb t line s).unstored = s.unstored ∧
    (State.takeWb t line s).host = s.host ∧
    (State.takeWb t line s).epo = s.epo ∧
    (State.takeWb t line s).med = s.med ∧
    (State.takeWb t line s).lnk = s.lnk ∧
    (State.takeWb t line s).rte = s.rte ∧
    (State.takeWb t line s).cap = s.cap ∧
    (State.takeWb t line s).flt = s.flt ∧
    (State.takeWb t line s).anl = s.anl ∧
    (State.takeWb t line s).cur = s.cur ∧
    (State.takeWb t line s).thm = s.thm ∧
    (State.takeWb t line s).pwr = s.pwr ∧
    (State.takeWb t line s).freeCtr = s.freeCtr ∧
    (State.takeWb t line s).pending = s.pending := by
  have k1 := State.stageWb_kept
  have k2 := State.wbBack_kept
  unfold State.takeWb
  dsimp only
  split
  · simp [k1, k2]
  · simp [k1, k2]

@[simp] theorem State.takeWbs_kept (line : Nat) (s : State) :
    (State.takeWbs line s).member = s.member ∧
    (State.takeWbs line s).now = s.now ∧
    (State.takeWbs line s).unstored = s.unstored ∧
    (State.takeWbs line s).host = s.host ∧
    (State.takeWbs line s).epo = s.epo ∧
    (State.takeWbs line s).med = s.med ∧
    (State.takeWbs line s).lnk = s.lnk ∧
    (State.takeWbs line s).rte = s.rte ∧
    (State.takeWbs line s).cap = s.cap ∧
    (State.takeWbs line s).flt = s.flt ∧
    (State.takeWbs line s).anl = s.anl ∧
    (State.takeWbs line s).cur = s.cur ∧
    (State.takeWbs line s).thm = s.thm ∧
    (State.takeWbs line s).pwr = s.pwr ∧
    (State.takeWbs line s).freeCtr = s.freeCtr ∧
    (State.takeWbs line s).pending = s.pending := by
  have k1 := State.takeEvict_kept
  have k2 := State.takeWb_kept
  unfold State.takeWbs
  simp [k1, k2]

@[simp] theorem State.waitBusy_kept (line : Nat) (s : State) :
    (State.waitBusy line s).member = s.member ∧
    (State.waitBusy line s).now = s.now ∧
    (State.waitBusy line s).regs = s.regs ∧
    (State.waitBusy line s).unstored = s.unstored ∧
    (State.waitBusy line s).host = s.host ∧
    (State.waitBusy line s).epo = s.epo ∧
    (State.waitBusy line s).med = s.med ∧
    (State.waitBusy line s).coh = s.coh ∧
    (State.waitBusy line s).lnk = s.lnk ∧
    (State.waitBusy line s).rte = s.rte ∧
    (State.waitBusy line s).cap = s.cap ∧
    (State.waitBusy line s).cry = s.cry ∧
    (State.waitBusy line s).flt = s.flt ∧
    (State.waitBusy line s).anl = s.anl ∧
    (State.waitBusy line s).cur = s.cur ∧
    (State.waitBusy line s).thm = s.thm ∧
    (State.waitBusy line s).pwr = s.pwr ∧
    (State.waitBusy line s).pmc = s.pmc ∧
    (State.waitBusy line s).out = s.out ∧
    (State.waitBusy line s).net = s.net ∧
    (State.waitBusy line s).freeCtr = s.freeCtr ∧
    (State.waitBusy line s).pending = s.pending := by
  unfold State.waitBusy
  simp

theorem State.waitMiss_kept (t line : Nat) (stream : Bool) (s : State) :
    (State.waitMiss t line stream s).member = s.member ∧
    (State.waitMiss t line stream s).now = s.now ∧
    (State.waitMiss t line stream s).regs = s.regs ∧
    (State.waitMiss t line stream s).unstored = s.unstored ∧
    (State.waitMiss t line stream s).host = s.host ∧
    (State.waitMiss t line stream s).epo = s.epo ∧
    (State.waitMiss t line stream s).med = s.med ∧
    (State.waitMiss t line stream s).coh = s.coh ∧
    (State.waitMiss t line stream s).lnk = s.lnk ∧
    (State.waitMiss t line stream s).rte = s.rte ∧
    (State.waitMiss t line stream s).cap = s.cap ∧
    (State.waitMiss t line stream s).cry = s.cry ∧
    (State.waitMiss t line stream s).flt = s.flt ∧
    (State.waitMiss t line stream s).anl = s.anl ∧
    (State.waitMiss t line stream s).cur = s.cur ∧
    (State.waitMiss t line stream s).thm = s.thm ∧
    (State.waitMiss t line stream s).pwr = s.pwr ∧
    (State.waitMiss t line stream s).pmc = s.pmc ∧
    (State.waitMiss t line stream s).out = s.out ∧
    (State.waitMiss t line stream s).net = s.net ∧
    (State.waitMiss t line stream s).freeCtr = s.freeCtr ∧
    (State.waitMiss t line stream s).pending = s.pending := by
  unfold State.waitMiss
  simp

@[simp] theorem State.attempt_member (f : State → State) (s : State) (h : (f s).member = s.member) :
    (State.attempt f s).member = s.member := by
  have k1 := State.asking_kept
  unfold State.attempt
  dsimp only
  split
  · simp [k1, h]
  · exact h

@[simp] theorem State.attempt_now (f : State → State) (s : State) (h : (f s).now = s.now) :
    (State.attempt f s).now = s.now := by
  have k1 := State.asking_kept
  unfold State.attempt
  dsimp only
  split
  · simp [k1, h]
  · exact h

@[simp] theorem State.attempt_regs (f : State → State) (s : State) (h : (f s).regs = s.regs) :
    (State.attempt f s).regs = s.regs := by
  have k1 := State.asking_kept
  unfold State.attempt
  dsimp only
  split
  · simp [k1, h]
  · exact h

@[simp] theorem State.attempt_unstored (f : State → State) (s : State) (h : (f s).unstored = s.unstored) :
    (State.attempt f s).unstored = s.unstored := by
  have k1 := State.asking_kept
  unfold State.attempt
  dsimp only
  split
  · simp [k1, h]
  · exact h

@[simp] theorem State.attempt_host (f : State → State) (s : State) (h : (f s).host = s.host) :
    (State.attempt f s).host = s.host := by
  have k1 := State.asking_kept
  unfold State.attempt
  dsimp only
  split
  · simp [k1, h]
  · exact h

@[simp] theorem State.attempt_epo (f : State → State) (s : State) (h : (f s).epo = s.epo) :
    (State.attempt f s).epo = s.epo := by
  have k1 := State.asking_kept
  unfold State.attempt
  dsimp only
  split
  · simp [k1, h]
  · exact h

@[simp] theorem State.attempt_med (f : State → State) (s : State) (h : (f s).med = s.med) :
    (State.attempt f s).med = s.med := by
  have k1 := State.asking_kept
  unfold State.attempt
  dsimp only
  split
  · simp [k1, h]
  · exact h

@[simp] theorem State.attempt_coh (f : State → State) (s : State) (h : (f s).coh = s.coh) :
    (State.attempt f s).coh = s.coh := by
  have k1 := State.asking_kept
  unfold State.attempt
  dsimp only
  split
  · simp [k1, h]
  · exact h

@[simp] theorem State.attempt_lnk (f : State → State) (s : State) (h : (f s).lnk = s.lnk) :
    (State.attempt f s).lnk = s.lnk := by
  have k1 := State.asking_kept
  unfold State.attempt
  dsimp only
  split
  · simp [k1, h]
  · exact h

@[simp] theorem State.attempt_rte (f : State → State) (s : State) (h : (f s).rte = s.rte) :
    (State.attempt f s).rte = s.rte := by
  have k1 := State.asking_kept
  unfold State.attempt
  dsimp only
  split
  · simp [k1, h]
  · exact h

@[simp] theorem State.attempt_cap (f : State → State) (s : State) (h : (f s).cap = s.cap) :
    (State.attempt f s).cap = s.cap := by
  have k1 := State.asking_kept
  unfold State.attempt
  dsimp only
  split
  · simp [k1, h]
  · exact h

@[simp] theorem State.attempt_cry (f : State → State) (s : State) (h : (f s).cry = s.cry) :
    (State.attempt f s).cry = s.cry := by
  have k1 := State.asking_kept
  unfold State.attempt
  dsimp only
  split
  · simp [k1, h]
  · exact h

@[simp] theorem State.attempt_flt (f : State → State) (s : State) (h : (f s).flt = s.flt) :
    (State.attempt f s).flt = s.flt := by
  have k1 := State.asking_kept
  unfold State.attempt
  dsimp only
  split
  · simp [k1, h]
  · exact h

@[simp] theorem State.attempt_anl (f : State → State) (s : State) (h : (f s).anl = s.anl) :
    (State.attempt f s).anl = s.anl := by
  have k1 := State.asking_kept
  unfold State.attempt
  dsimp only
  split
  · simp [k1, h]
  · exact h

@[simp] theorem State.attempt_cur (f : State → State) (s : State) (h : (f s).cur = s.cur) :
    (State.attempt f s).cur = s.cur := by
  have k1 := State.asking_kept
  unfold State.attempt
  dsimp only
  split
  · simp [k1, h]
  · exact h

@[simp] theorem State.attempt_thm (f : State → State) (s : State) (h : (f s).thm = s.thm) :
    (State.attempt f s).thm = s.thm := by
  have k1 := State.asking_kept
  unfold State.attempt
  dsimp only
  split
  · simp [k1, h]
  · exact h

@[simp] theorem State.attempt_pwr (f : State → State) (s : State) (h : (f s).pwr = s.pwr) :
    (State.attempt f s).pwr = s.pwr := by
  have k1 := State.asking_kept
  unfold State.attempt
  dsimp only
  split
  · simp [k1, h]
  · exact h

@[simp] theorem State.attempt_pmc (f : State → State) (s : State) (h : (f s).pmc = s.pmc) :
    (State.attempt f s).pmc = s.pmc := by
  have k1 := State.asking_kept
  unfold State.attempt
  dsimp only
  split
  · simp [k1, h]
  · exact h

@[simp] theorem State.attempt_out (f : State → State) (s : State) (h : (f s).out = s.out) :
    (State.attempt f s).out = s.out := by
  have k1 := State.asking_kept
  unfold State.attempt
  dsimp only
  split
  · simp [k1, h]
  · exact h

@[simp] theorem State.attempt_net (f : State → State) (s : State) (h : (f s).net = s.net) :
    (State.attempt f s).net = s.net := by
  have k1 := State.asking_kept
  unfold State.attempt
  dsimp only
  split
  · simp [k1, h]
  · exact h

@[simp] theorem State.attempt_freeCtr (f : State → State) (s : State) (h : (f s).freeCtr = s.freeCtr) :
    (State.attempt f s).freeCtr = s.freeCtr := by
  have k1 := State.asking_kept
  unfold State.attempt
  dsimp only
  split
  · simp [k1, h]
  · exact h

@[simp] theorem State.attempt_pending (f : State → State) (s : State) (h : (f s).pending = s.pending) :
    (State.attempt f s).pending = s.pending := by
  have k1 := State.asking_kept
  unfold State.attempt
  dsimp only
  split
  · simp [k1, h]
  · exact h

@[simp] theorem State.invalidate_kept (t line : Nat) (s : State) :
    (State.invalidate t line s).member = s.member ∧
    (State.invalidate t line s).now = s.now ∧
    (State.invalidate t line s).regs = s.regs ∧
    (State.invalidate t line s).unstored = s.unstored ∧
    (State.invalidate t line s).host = s.host ∧
    (State.invalidate t line s).epo = s.epo ∧
    (State.invalidate t line s).cat = s.cat ∧
    (State.invalidate t line s).med = s.med ∧
    (State.invalidate t line s).lnk = s.lnk ∧
    (State.invalidate t line s).rte = s.rte ∧
    (State.invalidate t line s).cap = s.cap ∧
    (State.invalidate t line s).cry = s.cry ∧
    (State.invalidate t line s).flt = s.flt ∧
    (State.invalidate t line s).anl = s.anl ∧
    (State.invalidate t line s).cur = s.cur ∧
    (State.invalidate t line s).thm = s.thm ∧
    (State.invalidate t line s).pwr = s.pwr ∧
    (State.invalidate t line s).pmc = s.pmc ∧
    (State.invalidate t line s).out = s.out ∧
    (State.invalidate t line s).net = s.net ∧
    (State.invalidate t line s).freeCtr = s.freeCtr ∧
    (State.invalidate t line s).pending = s.pending := by
  unfold State.invalidate
  simp

theorem State.evictNow_kept (t line : Nat) (s : State) :
    (State.evictNow t line s).member = s.member ∧
    (State.evictNow t line s).now = s.now ∧
    (State.evictNow t line s).unstored = s.unstored ∧
    (State.evictNow t line s).host = s.host ∧
    (State.evictNow t line s).epo = s.epo ∧
    (State.evictNow t line s).med = s.med ∧
    (State.evictNow t line s).lnk = s.lnk ∧
    (State.evictNow t line s).rte = s.rte ∧
    (State.evictNow t line s).cap = s.cap ∧
    (State.evictNow t line s).flt = s.flt ∧
    (State.evictNow t line s).anl = s.anl ∧
    (State.evictNow t line s).cur = s.cur ∧
    (State.evictNow t line s).thm = s.thm ∧
    (State.evictNow t line s).pwr = s.pwr ∧
    (State.evictNow t line s).freeCtr = s.freeCtr ∧
    (State.evictNow t line s).pending = s.pending := by
  have k1 := State.takeWb_kept
  unfold State.evictNow
  simp [k1]

theorem State.makeRoom_kept (t line : Nat) (s : State) :
    (State.makeRoom t line s).2.member = s.member ∧
    (State.makeRoom t line s).2.now = s.now ∧
    (State.makeRoom t line s).2.unstored = s.unstored ∧
    (State.makeRoom t line s).2.host = s.host ∧
    (State.makeRoom t line s).2.epo = s.epo ∧
    (State.makeRoom t line s).2.med = s.med ∧
    (State.makeRoom t line s).2.lnk = s.lnk ∧
    (State.makeRoom t line s).2.rte = s.rte ∧
    (State.makeRoom t line s).2.cap = s.cap ∧
    (State.makeRoom t line s).2.flt = s.flt ∧
    (State.makeRoom t line s).2.anl = s.anl ∧
    (State.makeRoom t line s).2.cur = s.cur ∧
    (State.makeRoom t line s).2.thm = s.thm ∧
    (State.makeRoom t line s).2.pwr = s.pwr ∧
    (State.makeRoom t line s).2.pending = s.pending := by
  have k1 := State.evictNow_kept
  unfold State.makeRoom
  repeat' split
  all_goals simp [k1, *]

theorem State.setWalk_kept (t : Nat) (v : Option Walk) (s : State) :
    (State.setWalk t v s).member = s.member ∧
    (State.setWalk t v s).now = s.now ∧
    (State.setWalk t v s).regs = s.regs ∧
    (State.setWalk t v s).unstored = s.unstored ∧
    (State.setWalk t v s).host = s.host ∧
    (State.setWalk t v s).cat = s.cat ∧
    (State.setWalk t v s).med = s.med ∧
    (State.setWalk t v s).coh = s.coh ∧
    (State.setWalk t v s).lnk = s.lnk ∧
    (State.setWalk t v s).rte = s.rte ∧
    (State.setWalk t v s).cap = s.cap ∧
    (State.setWalk t v s).cry = s.cry ∧
    (State.setWalk t v s).flt = s.flt ∧
    (State.setWalk t v s).anl = s.anl ∧
    (State.setWalk t v s).cur = s.cur ∧
    (State.setWalk t v s).thm = s.thm ∧
    (State.setWalk t v s).pwr = s.pwr ∧
    (State.setWalk t v s).pmc = s.pmc ∧
    (State.setWalk t v s).out = s.out ∧
    (State.setWalk t v s).net = s.net ∧
    (State.setWalk t v s).freeCtr = s.freeCtr ∧
    (State.setWalk t v s).pending = s.pending := by
  unfold State.setWalk
  simp

theorem State.rewalk_kept (t line epoch : Nat) (s : State) :
    (State.rewalk t line epoch s).member = s.member ∧
    (State.rewalk t line epoch s).now = s.now ∧
    (State.rewalk t line epoch s).regs = s.regs ∧
    (State.rewalk t line epoch s).unstored = s.unstored ∧
    (State.rewalk t line epoch s).host = s.host ∧
    (State.rewalk t line epoch s).cat = s.cat ∧
    (State.rewalk t line epoch s).med = s.med ∧
    (State.rewalk t line epoch s).coh = s.coh ∧
    (State.rewalk t line epoch s).lnk = s.lnk ∧
    (State.rewalk t line epoch s).rte = s.rte ∧
    (State.rewalk t line epoch s).cap = s.cap ∧
    (State.rewalk t line epoch s).cry = s.cry ∧
    (State.rewalk t line epoch s).flt = s.flt ∧
    (State.rewalk t line epoch s).anl = s.anl ∧
    (State.rewalk t line epoch s).cur = s.cur ∧
    (State.rewalk t line epoch s).thm = s.thm ∧
    (State.rewalk t line epoch s).pwr = s.pwr ∧
    (State.rewalk t line epoch s).pmc = s.pmc ∧
    (State.rewalk t line epoch s).out = s.out ∧
    (State.rewalk t line epoch s).net = s.net ∧
    (State.rewalk t line epoch s).freeCtr = s.freeCtr ∧
    (State.rewalk t line epoch s).pending = s.pending := by
  have k1 := State.setWalk_kept
  unfold State.rewalk
  repeat' split
  all_goals simp [k1, *]

@[simp] theorem State.install_kept (t line : Nat) (st : LState) (v : Stored) (epoch : Nat) (s : State) :
    (State.install t line st v epoch s).member = s.member ∧
    (State.install t line st v epoch s).now = s.now ∧
    (State.install t line st v epoch s).unstored = s.unstored ∧
    (State.install t line st v epoch s).host = s.host ∧
    (State.install t line st v epoch s).med = s.med ∧
    (State.install t line st v epoch s).lnk = s.lnk ∧
    (State.install t line st v epoch s).rte = s.rte ∧
    (State.install t line st v epoch s).cap = s.cap ∧
    (State.install t line st v epoch s).flt = s.flt ∧
    (State.install t line st v epoch s).anl = s.anl ∧
    (State.install t line st v epoch s).cur = s.cur ∧
    (State.install t line st v epoch s).thm = s.thm ∧
    (State.install t line st v epoch s).pwr = s.pwr ∧
    (State.install t line st v epoch s).pending = s.pending := by
  have k1 := State.makeRoom_kept
  have k2 := State.rewalk_kept
  unfold State.install
  simp [k1, k2]

theorem State.snoopI_kept (line o : Nat) (s : State) :
    (State.snoopI line o s).2.member = s.member ∧
    (State.snoopI line o s).2.now = s.now ∧
    (State.snoopI line o s).2.unstored = s.unstored ∧
    (State.snoopI line o s).2.host = s.host ∧
    (State.snoopI line o s).2.epo = s.epo ∧
    (State.snoopI line o s).2.cat = s.cat ∧
    (State.snoopI line o s).2.med = s.med ∧
    (State.snoopI line o s).2.lnk = s.lnk ∧
    (State.snoopI line o s).2.rte = s.rte ∧
    (State.snoopI line o s).2.cap = s.cap ∧
    (State.snoopI line o s).2.cry = s.cry ∧
    (State.snoopI line o s).2.flt = s.flt ∧
    (State.snoopI line o s).2.anl = s.anl ∧
    (State.snoopI line o s).2.cur = s.cur ∧
    (State.snoopI line o s).2.thm = s.thm ∧
    (State.snoopI line o s).2.pwr = s.pwr ∧
    (State.snoopI line o s).2.out = s.out ∧
    (State.snoopI line o s).2.net = s.net ∧
    (State.snoopI line o s).2.freeCtr = s.freeCtr ∧
    (State.snoopI line o s).2.pending = s.pending := by
  unfold State.snoopI
  dsimp only
  repeat' split
  all_goals simp

@[simp] theorem State.snoopAll_kept (line : Nat) (ts : List Nat) (s : State) :
    (State.snoopAll line ts s).2.member = s.member ∧
    (State.snoopAll line ts s).2.now = s.now ∧
    (State.snoopAll line ts s).2.unstored = s.unstored ∧
    (State.snoopAll line ts s).2.host = s.host ∧
    (State.snoopAll line ts s).2.epo = s.epo ∧
    (State.snoopAll line ts s).2.cat = s.cat ∧
    (State.snoopAll line ts s).2.med = s.med ∧
    (State.snoopAll line ts s).2.lnk = s.lnk ∧
    (State.snoopAll line ts s).2.rte = s.rte ∧
    (State.snoopAll line ts s).2.cap = s.cap ∧
    (State.snoopAll line ts s).2.cry = s.cry ∧
    (State.snoopAll line ts s).2.flt = s.flt ∧
    (State.snoopAll line ts s).2.anl = s.anl ∧
    (State.snoopAll line ts s).2.cur = s.cur ∧
    (State.snoopAll line ts s).2.thm = s.thm ∧
    (State.snoopAll line ts s).2.pwr = s.pwr ∧
    (State.snoopAll line ts s).2.out = s.out ∧
    (State.snoopAll line ts s).2.net = s.net ∧
    (State.snoopAll line ts s).2.freeCtr = s.freeCtr ∧
    (State.snoopAll line ts s).2.pending = s.pending := by
  have k1 := State.snoopI_kept
  unfold State.snoopAll
  simp [k1]

theorem State.stageKept_kept (line : Nat) (v : Option NcLine) (s : State) :
    (State.stageKept line v s).member = s.member ∧
    (State.stageKept line v s).now = s.now ∧
    (State.stageKept line v s).unstored = s.unstored ∧
    (State.stageKept line v s).host = s.host ∧
    (State.stageKept line v s).epo = s.epo ∧
    (State.stageKept line v s).med = s.med ∧
    (State.stageKept line v s).coh = s.coh ∧
    (State.stageKept line v s).lnk = s.lnk ∧
    (State.stageKept line v s).rte = s.rte ∧
    (State.stageKept line v s).cap = s.cap ∧
    (State.stageKept line v s).flt = s.flt ∧
    (State.stageKept line v s).anl = s.anl ∧
    (State.stageKept line v s).cur = s.cur ∧
    (State.stageKept line v s).thm = s.thm ∧
    (State.stageKept line v s).pwr = s.pwr ∧
    (State.stageKept line v s).net = s.net ∧
    (State.stageKept line v s).freeCtr = s.freeCtr ∧
    (State.stageKept line v s).pending = s.pending := by
  unfold State.stageKept
  repeat' split
  all_goals simp [*]

theorem State.recall_kept (line : Nat) (ts : List Nat) (s : State) :
    (State.recall line ts s).member = s.member ∧
    (State.recall line ts s).now = s.now ∧
    (State.recall line ts s).unstored = s.unstored ∧
    (State.recall line ts s).host = s.host ∧
    (State.recall line ts s).epo = s.epo ∧
    (State.recall line ts s).med = s.med ∧
    (State.recall line ts s).lnk = s.lnk ∧
    (State.recall line ts s).rte = s.rte ∧
    (State.recall line ts s).cap = s.cap ∧
    (State.recall line ts s).flt = s.flt ∧
    (State.recall line ts s).anl = s.anl ∧
    (State.recall line ts s).cur = s.cur ∧
    (State.recall line ts s).thm = s.thm ∧
    (State.recall line ts s).pwr = s.pwr ∧
    (State.recall line ts s).freeCtr = s.freeCtr ∧
    (State.recall line ts s).pending = s.pending := by
  have k1 := State.stageKept_kept
  unfold State.recall
  simp [k1]

@[simp] theorem State.freeEntry_kept (line : Nat) (s : State) :
    (State.freeEntry line s).member = s.member ∧
    (State.freeEntry line s).now = s.now ∧
    (State.freeEntry line s).unstored = s.unstored ∧
    (State.freeEntry line s).host = s.host ∧
    (State.freeEntry line s).epo = s.epo ∧
    (State.freeEntry line s).med = s.med ∧
    (State.freeEntry line s).lnk = s.lnk ∧
    (State.freeEntry line s).rte = s.rte ∧
    (State.freeEntry line s).cap = s.cap ∧
    (State.freeEntry line s).flt = s.flt ∧
    (State.freeEntry line s).anl = s.anl ∧
    (State.freeEntry line s).cur = s.cur ∧
    (State.freeEntry line s).thm = s.thm ∧
    (State.freeEntry line s).pwr = s.pwr ∧
    (State.freeEntry line s).freeCtr = s.freeCtr ∧
    (State.freeEntry line s).pending = s.pending := by
  have k1 := State.recall_kept
  unfold State.freeEntry
  simp [k1]

theorem State.dirRoom_kept (line : Nat) (s : State) :
    (State.dirRoom line s).member = s.member ∧
    (State.dirRoom line s).now = s.now ∧
    (State.dirRoom line s).unstored = s.unstored ∧
    (State.dirRoom line s).host = s.host ∧
    (State.dirRoom line s).epo = s.epo ∧
    (State.dirRoom line s).med = s.med ∧
    (State.dirRoom line s).lnk = s.lnk ∧
    (State.dirRoom line s).rte = s.rte ∧
    (State.dirRoom line s).cap = s.cap ∧
    (State.dirRoom line s).flt = s.flt ∧
    (State.dirRoom line s).anl = s.anl ∧
    (State.dirRoom line s).cur = s.cur ∧
    (State.dirRoom line s).thm = s.thm ∧
    (State.dirRoom line s).pwr = s.pwr ∧
    (State.dirRoom line s).freeCtr = s.freeCtr ∧
    (State.dirRoom line s).pending = s.pending := by
  unfold State.dirRoom
  dsimp only
  repeat' split
  all_goals simp

@[simp] theorem State.dirOwn_kept (t line : Nat) (s : State) :
    (State.dirOwn t line s).member = s.member ∧
    (State.dirOwn t line s).now = s.now ∧
    (State.dirOwn t line s).unstored = s.unstored ∧
    (State.dirOwn t line s).host = s.host ∧
    (State.dirOwn t line s).epo = s.epo ∧
    (State.dirOwn t line s).med = s.med ∧
    (State.dirOwn t line s).lnk = s.lnk ∧
    (State.dirOwn t line s).rte = s.rte ∧
    (State.dirOwn t line s).cap = s.cap ∧
    (State.dirOwn t line s).flt = s.flt ∧
    (State.dirOwn t line s).anl = s.anl ∧
    (State.dirOwn t line s).cur = s.cur ∧
    (State.dirOwn t line s).thm = s.thm ∧
    (State.dirOwn t line s).pwr = s.pwr ∧
    (State.dirOwn t line s).freeCtr = s.freeCtr ∧
    (State.dirOwn t line s).pending = s.pending := by
  have k1 := State.dirRoom_kept
  unfold State.dirOwn
  simp [k1]

@[simp] theorem State.dirShare_kept (t line : Nat) (s : State) :
    (State.dirShare t line s).member = s.member ∧
    (State.dirShare t line s).now = s.now ∧
    (State.dirShare t line s).unstored = s.unstored ∧
    (State.dirShare t line s).host = s.host ∧
    (State.dirShare t line s).epo = s.epo ∧
    (State.dirShare t line s).med = s.med ∧
    (State.dirShare t line s).lnk = s.lnk ∧
    (State.dirShare t line s).rte = s.rte ∧
    (State.dirShare t line s).cap = s.cap ∧
    (State.dirShare t line s).flt = s.flt ∧
    (State.dirShare t line s).anl = s.anl ∧
    (State.dirShare t line s).cur = s.cur ∧
    (State.dirShare t line s).thm = s.thm ∧
    (State.dirShare t line s).pwr = s.pwr ∧
    (State.dirShare t line s).freeCtr = s.freeCtr ∧
    (State.dirShare t line s).pending = s.pending := by
  have k1 := State.dirRoom_kept
  unfold State.dirShare
  simp [k1]

@[simp] theorem State.lookup_kept (t : Nat) (hit : Bool) (s : State) :
    (State.lookup t hit s).member = s.member ∧
    (State.lookup t hit s).now = s.now ∧
    (State.lookup t hit s).regs = s.regs ∧
    (State.lookup t hit s).unstored = s.unstored ∧
    (State.lookup t hit s).host = s.host ∧
    (State.lookup t hit s).epo = s.epo ∧
    (State.lookup t hit s).cat = s.cat ∧
    (State.lookup t hit s).med = s.med ∧
    (State.lookup t hit s).coh = s.coh ∧
    (State.lookup t hit s).lnk = s.lnk ∧
    (State.lookup t hit s).rte = s.rte ∧
    (State.lookup t hit s).cap = s.cap ∧
    (State.lookup t hit s).cry = s.cry ∧
    (State.lookup t hit s).flt = s.flt ∧
    (State.lookup t hit s).anl = s.anl ∧
    (State.lookup t hit s).cur = s.cur ∧
    (State.lookup t hit s).thm = s.thm ∧
    (State.lookup t hit s).pwr = s.pwr ∧
    (State.lookup t hit s).out = s.out ∧
    (State.lookup t hit s).net = s.net ∧
    (State.lookup t hit s).freeCtr = s.freeCtr ∧
    (State.lookup t hit s).pending = s.pending := by
  unfold State.lookup
  simp

theorem State.takeDirty_kept (t line : Nat) (v : NcLine) (s : State) :
    (State.takeDirty t line v s).2.member = s.member ∧
    (State.takeDirty t line v s).2.now = s.now ∧
    (State.takeDirty t line v s).2.unstored = s.unstored ∧
    (State.takeDirty t line v s).2.host = s.host ∧
    (State.takeDirty t line v s).2.med = s.med ∧
    (State.takeDirty t line v s).2.lnk = s.lnk ∧
    (State.takeDirty t line v s).2.rte = s.rte ∧
    (State.takeDirty t line v s).2.cap = s.cap ∧
    (State.takeDirty t line v s).2.flt = s.flt ∧
    (State.takeDirty t line v s).2.anl = s.anl ∧
    (State.takeDirty t line v s).2.cur = s.cur ∧
    (State.takeDirty t line v s).2.thm = s.thm ∧
    (State.takeDirty t line v s).2.pwr = s.pwr ∧
    (State.takeDirty t line v s).2.pending = s.pending := by
  unfold State.takeDirty
  simp

theorem State.missHome_kept (k : ReqKind) (t line : Nat) (env : MediaEnv) (s : State) :
    (State.missHome k t line env s).2.member = s.member ∧
    (State.missHome k t line env s).2.now = s.now ∧
    (State.missHome k t line env s).2.unstored = s.unstored ∧
    (State.missHome k t line env s).2.host = s.host ∧
    (State.missHome k t line env s).2.lnk = s.lnk ∧
    (State.missHome k t line env s).2.rte = s.rte ∧
    (State.missHome k t line env s).2.cap = s.cap ∧
    (State.missHome k t line env s).2.cur = s.cur ∧
    (State.missHome k t line env s).2.thm = s.thm ∧
    (State.missHome k t line env s).2.pwr = s.pwr ∧
    (State.missHome k t line env s).2.pending = s.pending := by
  have k1 := State.homeRead_kept
  have k2 := State.markForged_kept
  have k3 := State.mediaLost_kept
  unfold State.missHome
  dsimp only
  repeat' split
  all_goals simp [k1, k2, k3]

theorem State.missHeld_kept (t line o : Nat) (env : MediaEnv) (s : State) :
    (State.missHeld t line o env s).2.member = s.member ∧
    (State.missHeld t line o env s).2.now = s.now ∧
    (State.missHeld t line o env s).2.unstored = s.unstored ∧
    (State.missHeld t line o env s).2.host = s.host ∧
    (State.missHeld t line o env s).2.lnk = s.lnk ∧
    (State.missHeld t line o env s).2.rte = s.rte ∧
    (State.missHeld t line o env s).2.cap = s.cap ∧
    (State.missHeld t line o env s).2.cur = s.cur ∧
    (State.missHeld t line o env s).2.thm = s.thm ∧
    (State.missHeld t line o env s).2.pwr = s.pwr ∧
    (State.missHeld t line o env s).2.pending = s.pending := by
  have k1 := State.missHome_kept
  have k2 := State.snoopI_kept
  have k3 := State.takeDirty_kept
  unfold State.missHeld
  dsimp only
  repeat' split
  all_goals simp [k1, k2, k3]

theorem State.missLine_kept (k : ReqKind) (t line : Nat) (env : MediaEnv) (s : State) :
    (State.missLine k t line env s).2.member = s.member ∧
    (State.missLine k t line env s).2.now = s.now ∧
    (State.missLine k t line env s).2.unstored = s.unstored ∧
    (State.missLine k t line env s).2.host = s.host ∧
    (State.missLine k t line env s).2.lnk = s.lnk ∧
    (State.missLine k t line env s).2.rte = s.rte ∧
    (State.missLine k t line env s).2.cap = s.cap ∧
    (State.missLine k t line env s).2.cur = s.cur ∧
    (State.missLine k t line env s).2.thm = s.thm ∧
    (State.missLine k t line env s).2.pwr = s.pwr ∧
    (State.missLine k t line env s).2.pending = s.pending := by
  have k1 := State.missHeld_kept
  have k2 := State.missHome_kept
  have k3 := State.takeDirty_kept
  have h := State.snoopAll_kept line (s.sharersBut t line) (s.pmcEdge (s.home line) 0x07 0)
  unfold State.missLine
  dsimp only
  repeat' split
  all_goals simp_all [k1, k2, k3]

@[simp] theorem State.atHome_kept (t line : Nat) (stream : Bool) (s : State) :
    (State.atHome t line stream s).member = s.member ∧
    (State.atHome t line stream s).now = s.now ∧
    (State.atHome t line stream s).unstored = s.unstored ∧
    (State.atHome t line stream s).host = s.host ∧
    (State.atHome t line stream s).epo = s.epo ∧
    (State.atHome t line stream s).med = s.med ∧
    (State.atHome t line stream s).lnk = s.lnk ∧
    (State.atHome t line stream s).rte = s.rte ∧
    (State.atHome t line stream s).cap = s.cap ∧
    (State.atHome t line stream s).flt = s.flt ∧
    (State.atHome t line stream s).anl = s.anl ∧
    (State.atHome t line stream s).cur = s.cur ∧
    (State.atHome t line stream s).thm = s.thm ∧
    (State.atHome t line stream s).pwr = s.pwr ∧
    (State.atHome t line stream s).freeCtr = s.freeCtr ∧
    (State.atHome t line stream s).pending = s.pending := by
  have k1 := State.waitMiss_kept
  unfold State.atHome
  simp [k1]

theorem State.fetchLine_kept (t line : Nat) (env : MediaEnv) (s : State) :
    (State.fetchLine t line env s).2.member = s.member ∧
    (State.fetchLine t line env s).2.now = s.now ∧
    (State.fetchLine t line env s).2.unstored = s.unstored ∧
    (State.fetchLine t line env s).2.host = s.host ∧
    (State.fetchLine t line env s).2.lnk = s.lnk ∧
    (State.fetchLine t line env s).2.rte = s.rte ∧
    (State.fetchLine t line env s).2.cap = s.cap ∧
    (State.fetchLine t line env s).2.cur = s.cur ∧
    (State.fetchLine t line env s).2.thm = s.thm ∧
    (State.fetchLine t line env s).2.pwr = s.pwr ∧
    (State.fetchLine t line env s).2.pending = s.pending := by
  have k1 := State.missLine_kept
  unfold State.fetchLine
  simp [k1]

theorem State.waitRefill_kept (t line : Nat) (s : State) :
    (State.waitRefill t line s).member = s.member ∧
    (State.waitRefill t line s).now = s.now ∧
    (State.waitRefill t line s).regs = s.regs ∧
    (State.waitRefill t line s).unstored = s.unstored ∧
    (State.waitRefill t line s).host = s.host ∧
    (State.waitRefill t line s).epo = s.epo ∧
    (State.waitRefill t line s).med = s.med ∧
    (State.waitRefill t line s).coh = s.coh ∧
    (State.waitRefill t line s).lnk = s.lnk ∧
    (State.waitRefill t line s).rte = s.rte ∧
    (State.waitRefill t line s).cap = s.cap ∧
    (State.waitRefill t line s).cry = s.cry ∧
    (State.waitRefill t line s).flt = s.flt ∧
    (State.waitRefill t line s).anl = s.anl ∧
    (State.waitRefill t line s).cur = s.cur ∧
    (State.waitRefill t line s).thm = s.thm ∧
    (State.waitRefill t line s).pwr = s.pwr ∧
    (State.waitRefill t line s).pmc = s.pmc ∧
    (State.waitRefill t line s).out = s.out ∧
    (State.waitRefill t line s).net = s.net ∧
    (State.waitRefill t line s).freeCtr = s.freeCtr ∧
    (State.waitRefill t line s).pending = s.pending := by
  unfold State.waitRefill
  simp

theorem State.readBy_kept (stream : Bool) (t line : Nat) (env : MediaEnv) (s : State) :
    (State.readBy stream t line env s).2.member = s.member ∧
    (State.readBy stream t line env s).2.now = s.now ∧
    (State.readBy stream t line env s).2.unstored = s.unstored ∧
    (State.readBy stream t line env s).2.host = s.host ∧
    (State.readBy stream t line env s).2.lnk = s.lnk ∧
    (State.readBy stream t line env s).2.rte = s.rte ∧
    (State.readBy stream t line env s).2.cap = s.cap ∧
    (State.readBy stream t line env s).2.cur = s.cur ∧
    (State.readBy stream t line env s).2.thm = s.thm ∧
    (State.readBy stream t line env s).2.pwr = s.pwr ∧
    (State.readBy stream t line env s).2.pending = s.pending := by
  have k1 := State.missLine_kept
  have k2 := State.waitRefill_kept
  unfold State.readBy
  dsimp only
  repeat' split
  all_goals simp [k1, k2]

theorem State.readLine_kept (t line : Nat) (env : MediaEnv) (s : State) :
    (State.readLine t line env s).2.member = s.member ∧
    (State.readLine t line env s).2.now = s.now ∧
    (State.readLine t line env s).2.unstored = s.unstored ∧
    (State.readLine t line env s).2.host = s.host ∧
    (State.readLine t line env s).2.lnk = s.lnk ∧
    (State.readLine t line env s).2.rte = s.rte ∧
    (State.readLine t line env s).2.cap = s.cap ∧
    (State.readLine t line env s).2.cur = s.cur ∧
    (State.readLine t line env s).2.thm = s.thm ∧
    (State.readLine t line env s).2.pwr = s.pwr ∧
    (State.readLine t line env s).2.pending = s.pending := by
  have k1 := State.readBy_kept
  unfold State.readLine
  repeat' split
  all_goals simp [k1, *]

@[simp] theorem State.carried_kept (e : Nat) (s : State) :
    (State.carried e s).member = s.member ∧
    (State.carried e s).now = s.now ∧
    (State.carried e s).regs = s.regs ∧
    (State.carried e s).unstored = s.unstored ∧
    (State.carried e s).host = s.host ∧
    (State.carried e s).cat = s.cat ∧
    (State.carried e s).med = s.med ∧
    (State.carried e s).coh = s.coh ∧
    (State.carried e s).lnk = s.lnk ∧
    (State.carried e s).rte = s.rte ∧
    (State.carried e s).cap = s.cap ∧
    (State.carried e s).cry = s.cry ∧
    (State.carried e s).flt = s.flt ∧
    (State.carried e s).anl = s.anl ∧
    (State.carried e s).cur = s.cur ∧
    (State.carried e s).thm = s.thm ∧
    (State.carried e s).pwr = s.pwr ∧
    (State.carried e s).pmc = s.pmc ∧
    (State.carried e s).out = s.out ∧
    (State.carried e s).net = s.net ∧
    (State.carried e s).freeCtr = s.freeCtr ∧
    (State.carried e s).pending = s.pending := by
  unfold State.carried
  simp

theorem State.claimLine_kept (t line e : Nat) (s : State) :
    (State.claimLine t line e s).member = s.member ∧
    (State.claimLine t line e s).now = s.now ∧
    (State.claimLine t line e s).unstored = s.unstored ∧
    (State.claimLine t line e s).host = s.host ∧
    (State.claimLine t line e s).epo = s.epo ∧
    (State.claimLine t line e s).med = s.med ∧
    (State.claimLine t line e s).lnk = s.lnk ∧
    (State.claimLine t line e s).rte = s.rte ∧
    (State.claimLine t line e s).cap = s.cap ∧
    (State.claimLine t line e s).flt = s.flt ∧
    (State.claimLine t line e s).anl = s.anl ∧
    (State.claimLine t line e s).cur = s.cur ∧
    (State.claimLine t line e s).thm = s.thm ∧
    (State.claimLine t line e s).pwr = s.pwr ∧
    (State.claimLine t line e s).freeCtr = s.freeCtr ∧
    (State.claimLine t line e s).pending = s.pending := by
  have k1 := State.stageKept_kept
  unfold State.claimLine
  simp [k1]

theorem State.ownLine_kept (t line : Nat) (env : MediaEnv) (s : State) :
    (State.ownLine t line env s).2.member = s.member ∧
    (State.ownLine t line env s).2.now = s.now ∧
    (State.ownLine t line env s).2.unstored = s.unstored ∧
    (State.ownLine t line env s).2.host = s.host ∧
    (State.ownLine t line env s).2.lnk = s.lnk ∧
    (State.ownLine t line env s).2.rte = s.rte ∧
    (State.ownLine t line env s).2.cap = s.cap ∧
    (State.ownLine t line env s).2.cur = s.cur ∧
    (State.ownLine t line env s).2.thm = s.thm ∧
    (State.ownLine t line env s).2.pwr = s.pwr ∧
    (State.ownLine t line env s).2.pending = s.pending := by
  have k1 := State.missLine_kept
  have k2 := State.waitRefill_kept
  unfold State.ownLine
  dsimp only
  repeat' split
  all_goals simp [k1, k2]

theorem State.writeHeld_kept (t line e : Nat) (data : Line) (s : State) :
    (State.writeHeld t line e data s).member = s.member ∧
    (State.writeHeld t line e data s).now = s.now ∧
    (State.writeHeld t line e data s).unstored = s.unstored ∧
    (State.writeHeld t line e data s).host = s.host ∧
    (State.writeHeld t line e data s).med = s.med ∧
    (State.writeHeld t line e data s).lnk = s.lnk ∧
    (State.writeHeld t line e data s).rte = s.rte ∧
    (State.writeHeld t line e data s).flt = s.flt ∧
    (State.writeHeld t line e data s).anl = s.anl ∧
    (State.writeHeld t line e data s).cur = s.cur ∧
    (State.writeHeld t line e data s).thm = s.thm ∧
    (State.writeHeld t line e data s).pwr = s.pwr ∧
    (State.writeHeld t line e data s).pending = s.pending := by
  unfold State.writeHeld
  simp

theorem State.writeLine_kept (t line : Nat) (data : Line) (s : State) :
    (State.writeLine t line data s).member = s.member ∧
    (State.writeLine t line data s).now = s.now ∧
    (State.writeLine t line data s).unstored = s.unstored ∧
    (State.writeLine t line data s).host = s.host ∧
    (State.writeLine t line data s).med = s.med ∧
    (State.writeLine t line data s).lnk = s.lnk ∧
    (State.writeLine t line data s).rte = s.rte ∧
    (State.writeLine t line data s).flt = s.flt ∧
    (State.writeLine t line data s).anl = s.anl ∧
    (State.writeLine t line data s).cur = s.cur ∧
    (State.writeLine t line data s).thm = s.thm ∧
    (State.writeLine t line data s).pwr = s.pwr ∧
    (State.writeLine t line data s).pending = s.pending := by
  have k1 := State.claimLine_kept
  have k2 := State.waitRefill_kept
  have k3 := State.writeHeld_kept
  unfold State.writeLine
  simp [k1, k2, k3]

theorem State.mergeInto_kept (t line : Nat) (f : Nat → Option Byte) (env : MediaEnv) (s : State) :
    (State.mergeInto t line f env s).2.member = s.member ∧
    (State.mergeInto t line f env s).2.now = s.now ∧
    (State.mergeInto t line f env s).2.unstored = s.unstored ∧
    (State.mergeInto t line f env s).2.host = s.host ∧
    (State.mergeInto t line f env s).2.lnk = s.lnk ∧
    (State.mergeInto t line f env s).2.rte = s.rte ∧
    (State.mergeInto t line f env s).2.cur = s.cur ∧
    (State.mergeInto t line f env s).2.thm = s.thm ∧
    (State.mergeInto t line f env s).2.pwr = s.pwr ∧
    (State.mergeInto t line f env s).2.pending = s.pending := by
  have k1 := State.ownLine_kept
  have k2 := State.writeHeld_kept
  unfold State.mergeInto
  dsimp only
  repeat' split
  all_goals simp [k1, k2]

theorem State.writeBytes_kept (t line : Nat) (f : Nat → Option Byte) (env : MediaEnv) (s : State) :
    (State.writeBytes t line f env s).2.member = s.member ∧
    (State.writeBytes t line f env s).2.now = s.now ∧
    (State.writeBytes t line f env s).2.unstored = s.unstored ∧
    (State.writeBytes t line f env s).2.host = s.host ∧
    (State.writeBytes t line f env s).2.lnk = s.lnk ∧
    (State.writeBytes t line f env s).2.rte = s.rte ∧
    (State.writeBytes t line f env s).2.cur = s.cur ∧
    (State.writeBytes t line f env s).2.thm = s.thm ∧
    (State.writeBytes t line f env s).2.pwr = s.pwr ∧
    (State.writeBytes t line f env s).2.pending = s.pending := by
  have k1 := State.mergeInto_kept
  have k2 := State.writeLine_kept
  unfold State.writeBytes
  repeat' split
  all_goals simp [k1, k2, *]

theorem State.startSeal_kept (trs : List Trigger) (s : State) :
    (State.startSeal trs s).member = s.member ∧
    (State.startSeal trs s).now = s.now ∧
    (State.startSeal trs s).regs = s.regs ∧
    (State.startSeal trs s).unstored = s.unstored ∧
    (State.startSeal trs s).host = s.host ∧
    (State.startSeal trs s).cat = s.cat ∧
    (State.startSeal trs s).med = s.med ∧
    (State.startSeal trs s).coh = s.coh ∧
    (State.startSeal trs s).lnk = s.lnk ∧
    (State.startSeal trs s).rte = s.rte ∧
    (State.startSeal trs s).cap = s.cap ∧
    (State.startSeal trs s).cry = s.cry ∧
    (State.startSeal trs s).flt = s.flt ∧
    (State.startSeal trs s).anl = s.anl ∧
    (State.startSeal trs s).cur = s.cur ∧
    (State.startSeal trs s).thm = s.thm ∧
    (State.startSeal trs s).pwr = s.pwr ∧
    (State.startSeal trs s).pmc = s.pmc ∧
    (State.startSeal trs s).out = s.out ∧
    (State.startSeal trs s).net = s.net ∧
    (State.startSeal trs s).freeCtr = s.freeCtr ∧
    (State.startSeal trs s).pending = s.pending := by
  unfold State.startSeal
  simp

theorem State.actTriggers_kept (trs : List Trigger) (s : State) :
    (State.actTriggers trs s).member = s.member ∧
    (State.actTriggers trs s).now = s.now ∧
    (State.actTriggers trs s).regs = s.regs ∧
    (State.actTriggers trs s).unstored = s.unstored ∧
    (State.actTriggers trs s).host = s.host ∧
    (State.actTriggers trs s).cat = s.cat ∧
    (State.actTriggers trs s).med = s.med ∧
    (State.actTriggers trs s).coh = s.coh ∧
    (State.actTriggers trs s).lnk = s.lnk ∧
    (State.actTriggers trs s).rte = s.rte ∧
    (State.actTriggers trs s).cap = s.cap ∧
    (State.actTriggers trs s).cry = s.cry ∧
    (State.actTriggers trs s).flt = s.flt ∧
    (State.actTriggers trs s).anl = s.anl ∧
    (State.actTriggers trs s).cur = s.cur ∧
    (State.actTriggers trs s).thm = s.thm ∧
    (State.actTriggers trs s).pwr = s.pwr ∧
    (State.actTriggers trs s).pmc = s.pmc ∧
    (State.actTriggers trs s).out = s.out ∧
    (State.actTriggers trs s).net = s.net ∧
    (State.actTriggers trs s).freeCtr = s.freeCtr ∧
    (State.actTriggers trs s).pending = s.pending := by
  have k1 := State.startSeal_kept
  unfold State.actTriggers
  simp [k1]

@[simp] theorem State.trigger_kept (tr : Trigger) (s : State) :
    (State.trigger tr s).member = s.member ∧
    (State.trigger tr s).now = s.now ∧
    (State.trigger tr s).regs = s.regs ∧
    (State.trigger tr s).unstored = s.unstored ∧
    (State.trigger tr s).host = s.host ∧
    (State.trigger tr s).cat = s.cat ∧
    (State.trigger tr s).med = s.med ∧
    (State.trigger tr s).coh = s.coh ∧
    (State.trigger tr s).lnk = s.lnk ∧
    (State.trigger tr s).rte = s.rte ∧
    (State.trigger tr s).cap = s.cap ∧
    (State.trigger tr s).cry = s.cry ∧
    (State.trigger tr s).flt = s.flt ∧
    (State.trigger tr s).anl = s.anl ∧
    (State.trigger tr s).cur = s.cur ∧
    (State.trigger tr s).thm = s.thm ∧
    (State.trigger tr s).pwr = s.pwr ∧
    (State.trigger tr s).pmc = s.pmc ∧
    (State.trigger tr s).out = s.out ∧
    (State.trigger tr s).net = s.net ∧
    (State.trigger tr s).freeCtr = s.freeCtr ∧
    (State.trigger tr s).pending = s.pending := by
  have k1 := State.actTriggers_kept
  unfold State.trigger
  simp [k1]

theorem State.undoTrigger_kept (t : Nat) (s : State) :
    (State.undoTrigger t s).member = s.member ∧
    (State.undoTrigger t s).now = s.now ∧
    (State.undoTrigger t s).regs = s.regs ∧
    (State.undoTrigger t s).unstored = s.unstored ∧
    (State.undoTrigger t s).host = s.host ∧
    (State.undoTrigger t s).cat = s.cat ∧
    (State.undoTrigger t s).med = s.med ∧
    (State.undoTrigger t s).coh = s.coh ∧
    (State.undoTrigger t s).lnk = s.lnk ∧
    (State.undoTrigger t s).rte = s.rte ∧
    (State.undoTrigger t s).cap = s.cap ∧
    (State.undoTrigger t s).cry = s.cry ∧
    (State.undoTrigger t s).flt = s.flt ∧
    (State.undoTrigger t s).anl = s.anl ∧
    (State.undoTrigger t s).cur = s.cur ∧
    (State.undoTrigger t s).thm = s.thm ∧
    (State.undoTrigger t s).pwr = s.pwr ∧
    (State.undoTrigger t s).pmc = s.pmc ∧
    (State.undoTrigger t s).out = s.out ∧
    (State.undoTrigger t s).net = s.net ∧
    (State.undoTrigger t s).freeCtr = s.freeCtr ∧
    (State.undoTrigger t s).pending = s.pending := by
  unfold State.undoTrigger
  simp

theorem State.undoLow_kept (s : State) :
    (State.undoLow s).member = s.member ∧
    (State.undoLow s).now = s.now ∧
    (State.undoLow s).regs = s.regs ∧
    (State.undoLow s).unstored = s.unstored ∧
    (State.undoLow s).host = s.host ∧
    (State.undoLow s).cat = s.cat ∧
    (State.undoLow s).med = s.med ∧
    (State.undoLow s).coh = s.coh ∧
    (State.undoLow s).lnk = s.lnk ∧
    (State.undoLow s).rte = s.rte ∧
    (State.undoLow s).cap = s.cap ∧
    (State.undoLow s).cry = s.cry ∧
    (State.undoLow s).flt = s.flt ∧
    (State.undoLow s).anl = s.anl ∧
    (State.undoLow s).cur = s.cur ∧
    (State.undoLow s).thm = s.thm ∧
    (State.undoLow s).pwr = s.pwr ∧
    (State.undoLow s).pmc = s.pmc ∧
    (State.undoLow s).out = s.out ∧
    (State.undoLow s).net = s.net ∧
    (State.undoLow s).freeCtr = s.freeCtr ∧
    (State.undoLow s).pending = s.pending := by
  unfold State.undoLow
  simp

theorem State.awaitEpoch_kept (c : Ctx) (e mode src : Nat) (s : State) :
    (State.awaitEpoch c e mode src s).member = s.member ∧
    (State.awaitEpoch c e mode src s).now = s.now ∧
    (State.awaitEpoch c e mode src s).regs = s.regs ∧
    (State.awaitEpoch c e mode src s).unstored = s.unstored ∧
    (State.awaitEpoch c e mode src s).host = s.host ∧
    (State.awaitEpoch c e mode src s).cat = s.cat ∧
    (State.awaitEpoch c e mode src s).med = s.med ∧
    (State.awaitEpoch c e mode src s).coh = s.coh ∧
    (State.awaitEpoch c e mode src s).lnk = s.lnk ∧
    (State.awaitEpoch c e mode src s).rte = s.rte ∧
    (State.awaitEpoch c e mode src s).cap = s.cap ∧
    (State.awaitEpoch c e mode src s).cry = s.cry ∧
    (State.awaitEpoch c e mode src s).flt = s.flt ∧
    (State.awaitEpoch c e mode src s).anl = s.anl ∧
    (State.awaitEpoch c e mode src s).cur = s.cur ∧
    (State.awaitEpoch c e mode src s).thm = s.thm ∧
    (State.awaitEpoch c e mode src s).pwr = s.pwr ∧
    (State.awaitEpoch c e mode src s).pmc = s.pmc ∧
    (State.awaitEpoch c e mode src s).out = s.out ∧
    (State.awaitEpoch c e mode src s).net = s.net ∧
    (State.awaitEpoch c e mode src s).freeCtr = s.freeCtr ∧
    (State.awaitEpoch c e mode src s).pending = s.pending := by
  unfold State.awaitEpoch
  simp

theorem State.answerWaiters_kept (s : State) :
    (State.answerWaiters s).member = s.member ∧
    (State.answerWaiters s).now = s.now ∧
    (State.answerWaiters s).unstored = s.unstored ∧
    (State.answerWaiters s).cat = s.cat ∧
    (State.answerWaiters s).med = s.med ∧
    (State.answerWaiters s).coh = s.coh ∧
    (State.answerWaiters s).lnk = s.lnk ∧
    (State.answerWaiters s).rte = s.rte ∧
    (State.answerWaiters s).cap = s.cap ∧
    (State.answerWaiters s).cry = s.cry ∧
    (State.answerWaiters s).flt = s.flt ∧
    (State.answerWaiters s).anl = s.anl ∧
    (State.answerWaiters s).thm = s.thm ∧
    (State.answerWaiters s).pwr = s.pwr ∧
    (State.answerWaiters s).pmc = s.pmc ∧
    (State.answerWaiters s).net = s.net ∧
    (State.answerWaiters s).freeCtr = s.freeCtr ∧
    (State.answerWaiters s).pending = s.pending ∧
    (State.answerWaiters s).cur.lifecycle = s.cur.lifecycle ∧
    (State.answerWaiters s).cur.rootGen = s.cur.rootGen ∧
    (State.answerWaiters s).cur.returns = s.cur.returns ∧
    (State.answerWaiters s).cur.revoked = s.cur.revoked := by
  unfold State.answerWaiters
  simp

theorem State.afterSeal_kept (n : Nat) (s : State) (t : Trigger) :
    (State.afterSeal n s t).member = s.member ∧
    (State.afterSeal n s t).now = s.now ∧
    (State.afterSeal n s t).regs = s.regs ∧
    (State.afterSeal n s t).unstored = s.unstored ∧
    (State.afterSeal n s t).host = s.host ∧
    (State.afterSeal n s t).cat = s.cat ∧
    (State.afterSeal n s t).med = s.med ∧
    (State.afterSeal n s t).coh = s.coh ∧
    (State.afterSeal n s t).lnk = s.lnk ∧
    (State.afterSeal n s t).rte = s.rte ∧
    (State.afterSeal n s t).cry = s.cry ∧
    (State.afterSeal n s t).flt = s.flt ∧
    (State.afterSeal n s t).anl = s.anl ∧
    (State.afterSeal n s t).cur = s.cur ∧
    (State.afterSeal n s t).thm = s.thm ∧
    (State.afterSeal n s t).pmc = s.pmc ∧
    (State.afterSeal n s t).out = s.out ∧
    (State.afterSeal n s t).net = s.net ∧
    (State.afterSeal n s t).freeCtr = s.freeCtr ∧
    (State.afterSeal n s t).pending = s.pending ∧
    (State.afterSeal n s t).pwr.straps = s.pwr.straps := by
  have k1 := State.awaitEpoch_kept
  cases t with
  | close c m => cases c <;> simp [k1, State.afterSeal]
  | _ => simp [k1, State.afterSeal]

@[simp] theorem State.finishSeal_kept (s : State) :
    (State.finishSeal s).member = s.member ∧
    (State.finishSeal s).now = s.now ∧
    (State.finishSeal s).unstored = s.unstored ∧
    (State.finishSeal s).cat = s.cat ∧
    (State.finishSeal s).med = s.med ∧
    (State.finishSeal s).coh = s.coh ∧
    (State.finishSeal s).lnk = s.lnk ∧
    (State.finishSeal s).rte = s.rte ∧
    (State.finishSeal s).cry = s.cry ∧
    (State.finishSeal s).flt = s.flt ∧
    (State.finishSeal s).anl = s.anl ∧
    (State.finishSeal s).thm = s.thm ∧
    (State.finishSeal s).pmc = s.pmc ∧
    (State.finishSeal s).net = s.net ∧
    (State.finishSeal s).freeCtr = s.freeCtr ∧
    (State.finishSeal s).pending = s.pending ∧
    (State.finishSeal s).pwr.straps = s.pwr.straps ∧
    (State.finishSeal s).cur.lifecycle = s.cur.lifecycle ∧
    (State.finishSeal s).cur.rootGen = s.cur.rootGen ∧
    (State.finishSeal s).cur.returns = s.cur.returns ∧
    (State.finishSeal s).cur.revoked = s.cur.revoked := by
  have k1 := State.actTriggers_kept
  have k2 := State.afterSeal_kept
  have k3 := State.answerWaiters_kept
  unfold State.finishSeal
  dsimp only
  repeat' split
  all_goals simp [k1, k2, k3]

theorem State.advanceD_kept (s : State) :
    (State.advanceD s).member = s.member ∧
    (State.advanceD s).now = s.now ∧
    (State.advanceD s).unstored = s.unstored ∧
    (State.advanceD s).med = s.med ∧
    (State.advanceD s).coh = s.coh ∧
    (State.advanceD s).lnk = s.lnk ∧
    (State.advanceD s).cry = s.cry ∧
    (State.advanceD s).flt = s.flt ∧
    (State.advanceD s).anl = s.anl ∧
    (State.advanceD s).thm = s.thm ∧
    (State.advanceD s).pwr = s.pwr ∧
    (State.advanceD s).net = s.net ∧
    (State.advanceD s).freeCtr = s.freeCtr ∧
    (State.advanceD s).pending = s.pending ∧
    (State.advanceD s).cur.lifecycle = s.cur.lifecycle ∧
    (State.advanceD s).cur.rootGen = s.cur.rootGen ∧
    (State.advanceD s).cur.returns = s.cur.returns ∧
    (State.advanceD s).cur.revoked = s.cur.revoked := by
  have k1 := State.answerWaiters_kept
  have k2 := State.undoLow_kept
  unfold State.advanceD
  dsimp only
  repeat' split
  all_goals simp [k1, k2]

theorem State.abortCommand_kept (ws : List Ctx) (k : Cmd) (s : State) :
    (State.abortCommand ws k s).member = s.member ∧
    (State.abortCommand ws k s).now = s.now ∧
    (State.abortCommand ws k s).unstored = s.unstored ∧
    (State.abortCommand ws k s).epo = s.epo ∧
    (State.abortCommand ws k s).cat = s.cat ∧
    (State.abortCommand ws k s).med = s.med ∧
    (State.abortCommand ws k s).coh = s.coh ∧
    (State.abortCommand ws k s).lnk = s.lnk ∧
    (State.abortCommand ws k s).rte = s.rte ∧
    (State.abortCommand ws k s).cap = s.cap ∧
    (State.abortCommand ws k s).cry = s.cry ∧
    (State.abortCommand ws k s).flt = s.flt ∧
    (State.abortCommand ws k s).anl = s.anl ∧
    (State.abortCommand ws k s).thm = s.thm ∧
    (State.abortCommand ws k s).pwr = s.pwr ∧
    (State.abortCommand ws k s).pmc = s.pmc ∧
    (State.abortCommand ws k s).net = s.net ∧
    (State.abortCommand ws k s).pending = s.pending ∧
    (State.abortCommand ws k s).cur.lifecycle = s.cur.lifecycle ∧
    (State.abortCommand ws k s).cur.rootGen = s.cur.rootGen ∧
    (State.abortCommand ws k s).cur.returns = s.cur.returns ∧
    (State.abortCommand ws k s).cur.revoked = s.cur.revoked := by
  have k1 := State.returnSlot_kept
  unfold State.abortCommand
  dsimp only
  repeat' split
  all_goals simp [k1]

theorem State.giveUp_kept (p : Nat) (l : List Fetch) (f : Fetch) (s : State) :
    (State.giveUp p l f s).member = s.member ∧
    (State.giveUp p l f s).now = s.now ∧
    (State.giveUp p l f s).unstored = s.unstored ∧
    (State.giveUp p l f s).epo = s.epo ∧
    (State.giveUp p l f s).cat = s.cat ∧
    (State.giveUp p l f s).med = s.med ∧
    (State.giveUp p l f s).coh = s.coh ∧
    (State.giveUp p l f s).lnk = s.lnk ∧
    (State.giveUp p l f s).rte = s.rte ∧
    (State.giveUp p l f s).cap = s.cap ∧
    (State.giveUp p l f s).cry = s.cry ∧
    (State.giveUp p l f s).flt = s.flt ∧
    (State.giveUp p l f s).anl = s.anl ∧
    (State.giveUp p l f s).cur = s.cur ∧
    (State.giveUp p l f s).thm = s.thm ∧
    (State.giveUp p l f s).pwr = s.pwr ∧
    (State.giveUp p l f s).pmc = s.pmc ∧
    (State.giveUp p l f s).out = s.out ∧
    (State.giveUp p l f s).net = s.net ∧
    (State.giveUp p l f s).freeCtr = s.freeCtr ∧
    (State.giveUp p l f s).pending = s.pending := by
  have k1 := State.release_kept
  unfold State.giveUp
  simp [k1]

theorem State.placeReturned_kept (p : Nat) (f : Fetch) (s : State) :
    (State.placeReturned p f s).member = s.member ∧
    (State.placeReturned p f s).now = s.now ∧
    (State.placeReturned p f s).unstored = s.unstored ∧
    (State.placeReturned p f s).epo = s.epo ∧
    (State.placeReturned p f s).cat = s.cat ∧
    (State.placeReturned p f s).med = s.med ∧
    (State.placeReturned p f s).coh = s.coh ∧
    (State.placeReturned p f s).lnk = s.lnk ∧
    (State.placeReturned p f s).rte = s.rte ∧
    (State.placeReturned p f s).cap = s.cap ∧
    (State.placeReturned p f s).cry = s.cry ∧
    (State.placeReturned p f s).flt = s.flt ∧
    (State.placeReturned p f s).cur = s.cur ∧
    (State.placeReturned p f s).thm = s.thm ∧
    (State.placeReturned p f s).pwr = s.pwr ∧
    (State.placeReturned p f s).net = s.net ∧
    (State.placeReturned p f s).freeCtr = s.freeCtr ∧
    (State.placeReturned p f s).pending = s.pending := by
  have k1 := State.placeFetch_kept
  unfold State.placeReturned
  dsimp only
  repeat' split
  all_goals simp [k1]

theorem State.dropFetches_kept (p : Nat) (s : State) :
    (State.dropFetches p s).member = s.member ∧
    (State.dropFetches p s).now = s.now ∧
    (State.dropFetches p s).unstored = s.unstored ∧
    (State.dropFetches p s).epo = s.epo ∧
    (State.dropFetches p s).cat = s.cat ∧
    (State.dropFetches p s).med = s.med ∧
    (State.dropFetches p s).coh = s.coh ∧
    (State.dropFetches p s).lnk = s.lnk ∧
    (State.dropFetches p s).rte = s.rte ∧
    (State.dropFetches p s).cap = s.cap ∧
    (State.dropFetches p s).cry = s.cry ∧
    (State.dropFetches p s).flt = s.flt ∧
    (State.dropFetches p s).cur = s.cur ∧
    (State.dropFetches p s).thm = s.thm ∧
    (State.dropFetches p s).pwr = s.pwr ∧
    (State.dropFetches p s).net = s.net ∧
    (State.dropFetches p s).freeCtr = s.freeCtr ∧
    (State.dropFetches p s).pending = s.pending := by
  have k1 := State.giveUp_kept
  have k2 := State.placeReturned_kept
  unfold State.dropFetches
  simp [k1, k2]

@[simp] theorem State.startAbort_kept (s : State) :
    (State.startAbort s).member = s.member ∧
    (State.startAbort s).now = s.now ∧
    (State.startAbort s).unstored = s.unstored ∧
    (State.startAbort s).cat = s.cat ∧
    (State.startAbort s).med = s.med ∧
    (State.startAbort s).coh = s.coh ∧
    (State.startAbort s).lnk = s.lnk ∧
    (State.startAbort s).rte = s.rte ∧
    (State.startAbort s).cap = s.cap ∧
    (State.startAbort s).cry = s.cry ∧
    (State.startAbort s).flt = s.flt ∧
    (State.startAbort s).thm = s.thm ∧
    (State.startAbort s).pwr = s.pwr ∧
    (State.startAbort s).net = s.net ∧
    (State.startAbort s).pending = s.pending ∧
    (State.startAbort s).cur.lifecycle = s.cur.lifecycle ∧
    (State.startAbort s).cur.rootGen = s.cur.rootGen ∧
    (State.startAbort s).cur.returns = s.cur.returns ∧
    (State.startAbort s).cur.revoked = s.cur.revoked := by
  have k1 := State.abortCommand_kept
  have k2 := State.dropFetches_kept
  unfold State.startAbort
  dsimp only
  repeat' split
  all_goals simp [k1, k2]

theorem State.setSrc_kept (t id : Nat) (v : Src) (s : State) :
    (State.setSrc t id v s).member = s.member ∧
    (State.setSrc t id v s).now = s.now ∧
    (State.setSrc t id v s).regs = s.regs ∧
    (State.setSrc t id v s).unstored = s.unstored ∧
    (State.setSrc t id v s).host = s.host ∧
    (State.setSrc t id v s).epo = s.epo ∧
    (State.setSrc t id v s).cat = s.cat ∧
    (State.setSrc t id v s).med = s.med ∧
    (State.setSrc t id v s).coh = s.coh ∧
    (State.setSrc t id v s).lnk = s.lnk ∧
    (State.setSrc t id v s).rte = s.rte ∧
    (State.setSrc t id v s).cap = s.cap ∧
    (State.setSrc t id v s).cry = s.cry ∧
    (State.setSrc t id v s).anl = s.anl ∧
    (State.setSrc t id v s).cur = s.cur ∧
    (State.setSrc t id v s).thm = s.thm ∧
    (State.setSrc t id v s).pwr = s.pwr ∧
    (State.setSrc t id v s).pmc = s.pmc ∧
    (State.setSrc t id v s).out = s.out ∧
    (State.setSrc t id v s).net = s.net ∧
    (State.setSrc t id v s).freeCtr = s.freeCtr ∧
    (State.setSrc t id v s).pending = s.pending := by
  unfold State.setSrc
  simp

theorem State.setSlot_kept (t n : Nat) (v : Slot) (s : State) :
    (State.setSlot t n v s).member = s.member ∧
    (State.setSlot t n v s).now = s.now ∧
    (State.setSlot t n v s).regs = s.regs ∧
    (State.setSlot t n v s).unstored = s.unstored ∧
    (State.setSlot t n v s).host = s.host ∧
    (State.setSlot t n v s).epo = s.epo ∧
    (State.setSlot t n v s).cat = s.cat ∧
    (State.setSlot t n v s).med = s.med ∧
    (State.setSlot t n v s).coh = s.coh ∧
    (State.setSlot t n v s).lnk = s.lnk ∧
    (State.setSlot t n v s).rte = s.rte ∧
    (State.setSlot t n v s).cap = s.cap ∧
    (State.setSlot t n v s).cry = s.cry ∧
    (State.setSlot t n v s).anl = s.anl ∧
    (State.setSlot t n v s).cur = s.cur ∧
    (State.setSlot t n v s).thm = s.thm ∧
    (State.setSlot t n v s).pwr = s.pwr ∧
    (State.setSlot t n v s).pmc = s.pmc ∧
    (State.setSlot t n v s).out = s.out ∧
    (State.setSlot t n v s).net = s.net ∧
    (State.setSlot t n v s).freeCtr = s.freeCtr ∧
    (State.setSlot t n v s).pending = s.pending := by
  unfold State.setSlot
  simp

theorem State.failTile_kept (t : Nat) (s : State) :
    (State.failTile t s).member = s.member ∧
    (State.failTile t s).now = s.now ∧
    (State.failTile t s).unstored = s.unstored ∧
    (State.failTile t s).cat = s.cat ∧
    (State.failTile t s).med = s.med ∧
    (State.failTile t s).coh = s.coh ∧
    (State.failTile t s).lnk = s.lnk ∧
    (State.failTile t s).rte = s.rte ∧
    (State.failTile t s).cry = s.cry ∧
    (State.failTile t s).anl = s.anl ∧
    (State.failTile t s).thm = s.thm ∧
    (State.failTile t s).pmc = s.pmc ∧
    (State.failTile t s).net = s.net ∧
    (State.failTile t s).freeCtr = s.freeCtr ∧
    (State.failTile t s).pending = s.pending ∧
    (State.failTile t s).pwr.straps = s.pwr.straps ∧
    (State.failTile t s).cur.lifecycle = s.cur.lifecycle ∧
    (State.failTile t s).cur.rootGen = s.cur.rootGen ∧
    (State.failTile t s).cur.returns = s.cur.returns ∧
    (State.failTile t s).cur.revoked = s.cur.revoked := by
  unfold State.failTile
  simp

theorem State.tileHalt_kept (t : Nat) (s : State) :
    (State.tileHalt t s).member = s.member ∧
    (State.tileHalt t s).now = s.now ∧
    (State.tileHalt t s).unstored = s.unstored ∧
    (State.tileHalt t s).cat = s.cat ∧
    (State.tileHalt t s).med = s.med ∧
    (State.tileHalt t s).coh = s.coh ∧
    (State.tileHalt t s).lnk = s.lnk ∧
    (State.tileHalt t s).rte = s.rte ∧
    (State.tileHalt t s).cry = s.cry ∧
    (State.tileHalt t s).anl = s.anl ∧
    (State.tileHalt t s).thm = s.thm ∧
    (State.tileHalt t s).pmc = s.pmc ∧
    (State.tileHalt t s).net = s.net ∧
    (State.tileHalt t s).freeCtr = s.freeCtr ∧
    (State.tileHalt t s).pending = s.pending ∧
    (State.tileHalt t s).pwr.straps = s.pwr.straps ∧
    (State.tileHalt t s).cur.lifecycle = s.cur.lifecycle ∧
    (State.tileHalt t s).cur.rootGen = s.cur.rootGen ∧
    (State.tileHalt t s).cur.returns = s.cur.returns ∧
    (State.tileHalt t s).cur.revoked = s.cur.revoked := by
  have k1 := State.failTile_kept
  unfold State.tileHalt
  dsimp only
  repeat' split
  all_goals simp [k1]

theorem State.proceed_kept (t sev : Nat) (s : State) :
    (State.proceed t sev s).member = s.member ∧
    (State.proceed t sev s).now = s.now ∧
    (State.proceed t sev s).unstored = s.unstored ∧
    (State.proceed t sev s).cat = s.cat ∧
    (State.proceed t sev s).med = s.med ∧
    (State.proceed t sev s).coh = s.coh ∧
    (State.proceed t sev s).lnk = s.lnk ∧
    (State.proceed t sev s).rte = s.rte ∧
    (State.proceed t sev s).cry = s.cry ∧
    (State.proceed t sev s).thm = s.thm ∧
    (State.proceed t sev s).net = s.net ∧
    (State.proceed t sev s).pending = s.pending ∧
    (State.proceed t sev s).pwr.straps = s.pwr.straps ∧
    (State.proceed t sev s).cur.lifecycle = s.cur.lifecycle ∧
    (State.proceed t sev s).cur.rootGen = s.cur.rootGen ∧
    (State.proceed t sev s).cur.returns = s.cur.returns ∧
    (State.proceed t sev s).cur.revoked = s.cur.revoked := by
  have k1 := State.tileHalt_kept
  unfold State.proceed
  repeat' split
  all_goals simp [k1, *]

theorem State.escalate_kept (t id sev slot : Nat) (s : State) :
    (State.escalate t id sev slot s).member = s.member ∧
    (State.escalate t id sev slot s).now = s.now ∧
    (State.escalate t id sev slot s).unstored = s.unstored ∧
    (State.escalate t id sev slot s).cat = s.cat ∧
    (State.escalate t id sev slot s).med = s.med ∧
    (State.escalate t id sev slot s).coh = s.coh ∧
    (State.escalate t id sev slot s).lnk = s.lnk ∧
    (State.escalate t id sev slot s).rte = s.rte ∧
    (State.escalate t id sev slot s).cry = s.cry ∧
    (State.escalate t id sev slot s).thm = s.thm ∧
    (State.escalate t id sev slot s).net = s.net ∧
    (State.escalate t id sev slot s).pending = s.pending ∧
    (State.escalate t id sev slot s).pwr.straps = s.pwr.straps ∧
    (State.escalate t id sev slot s).cur.lifecycle = s.cur.lifecycle ∧
    (State.escalate t id sev slot s).cur.rootGen = s.cur.rootGen ∧
    (State.escalate t id sev slot s).cur.returns = s.cur.returns ∧
    (State.escalate t id sev slot s).cur.revoked = s.cur.revoked := by
  have k1 := State.proceed_kept
  unfold State.escalate
  simp [k1]

theorem State.openSlot_kept (t id sev : Nat) (s : State) :
    (State.openSlot t id sev s).member = s.member ∧
    (State.openSlot t id sev s).now = s.now ∧
    (State.openSlot t id sev s).unstored = s.unstored ∧
    (State.openSlot t id sev s).cat = s.cat ∧
    (State.openSlot t id sev s).med = s.med ∧
    (State.openSlot t id sev s).coh = s.coh ∧
    (State.openSlot t id sev s).lnk = s.lnk ∧
    (State.openSlot t id sev s).rte = s.rte ∧
    (State.openSlot t id sev s).cry = s.cry ∧
    (State.openSlot t id sev s).thm = s.thm ∧
    (State.openSlot t id sev s).net = s.net ∧
    (State.openSlot t id sev s).pending = s.pending ∧
    (State.openSlot t id sev s).pwr.straps = s.pwr.straps ∧
    (State.openSlot t id sev s).cur.lifecycle = s.cur.lifecycle ∧
    (State.openSlot t id sev s).cur.rootGen = s.cur.rootGen ∧
    (State.openSlot t id sev s).cur.returns = s.cur.returns ∧
    (State.openSlot t id sev s).cur.revoked = s.cur.revoked := by
  have k1 := State.escalate_kept
  have k2 := State.setSlot_kept
  unfold State.openSlot
  dsimp only
  repeat' split
  all_goals simp [k1, k2]

theorem State.event_kept (t id : Nat) (i : FaultInfo) (s : State) :
    (State.event t id i s).member = s.member ∧
    (State.event t id i s).now = s.now ∧
    (State.event t id i s).unstored = s.unstored ∧
    (State.event t id i s).cat = s.cat ∧
    (State.event t id i s).med = s.med ∧
    (State.event t id i s).coh = s.coh ∧
    (State.event t id i s).lnk = s.lnk ∧
    (State.event t id i s).rte = s.rte ∧
    (State.event t id i s).cry = s.cry ∧
    (State.event t id i s).thm = s.thm ∧
    (State.event t id i s).net = s.net ∧
    (State.event t id i s).pending = s.pending ∧
    (State.event t id i s).pwr.straps = s.pwr.straps ∧
    (State.event t id i s).cur.lifecycle = s.cur.lifecycle ∧
    (State.event t id i s).cur.rootGen = s.cur.rootGen ∧
    (State.event t id i s).cur.returns = s.cur.returns ∧
    (State.event t id i s).cur.revoked = s.cur.revoked := by
  have k1 := State.openSlot_kept
  have k2 := State.setSrc_kept
  unfold State.event
  dsimp only
  repeat' split
  all_goals simp [k1, k2]

@[simp] theorem State.fault_kept (t id : Nat) (i : FaultInfo) (s : State) :
    (State.fault t id i s).member = s.member ∧
    (State.fault t id i s).now = s.now ∧
    (State.fault t id i s).unstored = s.unstored ∧
    (State.fault t id i s).cat = s.cat ∧
    (State.fault t id i s).med = s.med ∧
    (State.fault t id i s).coh = s.coh ∧
    (State.fault t id i s).lnk = s.lnk ∧
    (State.fault t id i s).rte = s.rte ∧
    (State.fault t id i s).cry = s.cry ∧
    (State.fault t id i s).thm = s.thm ∧
    (State.fault t id i s).net = s.net ∧
    (State.fault t id i s).pending = s.pending ∧
    (State.fault t id i s).pwr.straps = s.pwr.straps ∧
    (State.fault t id i s).cur.lifecycle = s.cur.lifecycle ∧
    (State.fault t id i s).cur.rootGen = s.cur.rootGen ∧
    (State.fault t id i s).cur.returns = s.cur.returns ∧
    (State.fault t id i s).cur.revoked = s.cur.revoked := by
  have k1 := State.event_kept
  unfold State.fault
  dsimp only
  repeat' split
  all_goals simp [k1]

@[simp] theorem State.passItem_kept (t n : Nat) (s : State) :
    (State.passItem t n s).2.member = s.member ∧
    (State.passItem t n s).2.now = s.now ∧
    (State.passItem t n s).2.unstored = s.unstored ∧
    (State.passItem t n s).2.cat = s.cat ∧
    (State.passItem t n s).2.med = s.med ∧
    (State.passItem t n s).2.coh = s.coh ∧
    (State.passItem t n s).2.lnk = s.lnk ∧
    (State.passItem t n s).2.rte = s.rte ∧
    (State.passItem t n s).2.cry = s.cry ∧
    (State.passItem t n s).2.thm = s.thm ∧
    (State.passItem t n s).2.net = s.net ∧
    (State.passItem t n s).2.pending = s.pending ∧
    (State.passItem t n s).2.pwr.straps = s.pwr.straps ∧
    (State.passItem t n s).2.cur.lifecycle = s.cur.lifecycle ∧
    (State.passItem t n s).2.cur.rootGen = s.cur.rootGen ∧
    (State.passItem t n s).2.cur.returns = s.cur.returns ∧
    (State.passItem t n s).2.cur.revoked = s.cur.revoked := by
  unfold State.passItem
  dsimp only
  repeat' split
  all_goals simp

theorem State.storeSrc_kept (t id : Nat) (old : Src) (s : State) :
    (State.storeSrc t id old s).member = s.member ∧
    (State.storeSrc t id old s).now = s.now ∧
    (State.storeSrc t id old s).regs = s.regs ∧
    (State.storeSrc t id old s).host = s.host ∧
    (State.storeSrc t id old s).epo = s.epo ∧
    (State.storeSrc t id old s).cat = s.cat ∧
    (State.storeSrc t id old s).med = s.med ∧
    (State.storeSrc t id old s).coh = s.coh ∧
    (State.storeSrc t id old s).lnk = s.lnk ∧
    (State.storeSrc t id old s).rte = s.rte ∧
    (State.storeSrc t id old s).cap = s.cap ∧
    (State.storeSrc t id old s).cry = s.cry ∧
    (State.storeSrc t id old s).flt = s.flt ∧
    (State.storeSrc t id old s).anl = s.anl ∧
    (State.storeSrc t id old s).cur = s.cur ∧
    (State.storeSrc t id old s).thm = s.thm ∧
    (State.storeSrc t id old s).pwr = s.pwr ∧
    (State.storeSrc t id old s).pmc = s.pmc ∧
    (State.storeSrc t id old s).out = s.out ∧
    (State.storeSrc t id old s).net = s.net ∧
    (State.storeSrc t id old s).freeCtr = s.freeCtr ∧
    (State.storeSrc t id old s).pending = s.pending := by
  unfold State.storeSrc
  simp

theorem State.loseSources_kept (s : State) :
    (State.loseSources s).member = s.member ∧
    (State.loseSources s).now = s.now ∧
    (State.loseSources s).regs = s.regs ∧
    (State.loseSources s).unstored = s.unstored ∧
    (State.loseSources s).host = s.host ∧
    (State.loseSources s).epo = s.epo ∧
    (State.loseSources s).cat = s.cat ∧
    (State.loseSources s).med = s.med ∧
    (State.loseSources s).coh = s.coh ∧
    (State.loseSources s).lnk = s.lnk ∧
    (State.loseSources s).rte = s.rte ∧
    (State.loseSources s).cap = s.cap ∧
    (State.loseSources s).cry = s.cry ∧
    (State.loseSources s).anl = s.anl ∧
    (State.loseSources s).cur = s.cur ∧
    (State.loseSources s).thm = s.thm ∧
    (State.loseSources s).pwr = s.pwr ∧
    (State.loseSources s).pmc = s.pmc ∧
    (State.loseSources s).out = s.out ∧
    (State.loseSources s).net = s.net ∧
    (State.loseSources s).freeCtr = s.freeCtr ∧
    (State.loseSources s).pending = s.pending := by
  unfold State.loseSources
  simp

@[simp] theorem State.mirrorTile_kept (c t : Nat) (s : State) :
    (State.mirrorTile c t s).member = s.member ∧
    (State.mirrorTile c t s).now = s.now ∧
    (State.mirrorTile c t s).regs = s.regs ∧
    (State.mirrorTile c t s).unstored = s.unstored ∧
    (State.mirrorTile c t s).host = s.host ∧
    (State.mirrorTile c t s).epo = s.epo ∧
    (State.mirrorTile c t s).cat = s.cat ∧
    (State.mirrorTile c t s).med = s.med ∧
    (State.mirrorTile c t s).coh = s.coh ∧
    (State.mirrorTile c t s).lnk = s.lnk ∧
    (State.mirrorTile c t s).rte = s.rte ∧
    (State.mirrorTile c t s).cap = s.cap ∧
    (State.mirrorTile c t s).cry = s.cry ∧
    (State.mirrorTile c t s).flt = s.flt ∧
    (State.mirrorTile c t s).cur = s.cur ∧
    (State.mirrorTile c t s).thm = s.thm ∧
    (State.mirrorTile c t s).pwr = s.pwr ∧
    (State.mirrorTile c t s).pmc = s.pmc ∧
    (State.mirrorTile c t s).out = s.out ∧
    (State.mirrorTile c t s).net = s.net ∧
    (State.mirrorTile c t s).freeCtr = s.freeCtr ∧
    (State.mirrorTile c t s).pending = s.pending := by
  unfold State.mirrorTile
  simp

@[simp] theorem State.idleLanes_kept (t : Nat) (lanes : List Nat) (s : State) :
    (State.idleLanes t lanes s).member = s.member ∧
    (State.idleLanes t lanes s).now = s.now ∧
    (State.idleLanes t lanes s).unstored = s.unstored ∧
    (State.idleLanes t lanes s).host = s.host ∧
    (State.idleLanes t lanes s).epo = s.epo ∧
    (State.idleLanes t lanes s).cat = s.cat ∧
    (State.idleLanes t lanes s).med = s.med ∧
    (State.idleLanes t lanes s).coh = s.coh ∧
    (State.idleLanes t lanes s).lnk = s.lnk ∧
    (State.idleLanes t lanes s).rte = s.rte ∧
    (State.idleLanes t lanes s).cap = s.cap ∧
    (State.idleLanes t lanes s).cry = s.cry ∧
    (State.idleLanes t lanes s).flt = s.flt ∧
    (State.idleLanes t lanes s).anl = s.anl ∧
    (State.idleLanes t lanes s).cur = s.cur ∧
    (State.idleLanes t lanes s).thm = s.thm ∧
    (State.idleLanes t lanes s).pwr = s.pwr ∧
    (State.idleLanes t lanes s).pmc = s.pmc ∧
    (State.idleLanes t lanes s).out = s.out ∧
    (State.idleLanes t lanes s).net = s.net ∧
    (State.idleLanes t lanes s).freeCtr = s.freeCtr ∧
    (State.idleLanes t lanes s).pending = s.pending := by
  unfold State.idleLanes
  simp

theorem State.disablePorts_kept (t : Nat) (s : State) :
    (State.disablePorts t s).member = s.member ∧
    (State.disablePorts t s).now = s.now ∧
    (State.disablePorts t s).unstored = s.unstored ∧
    (State.disablePorts t s).host = s.host ∧
    (State.disablePorts t s).epo = s.epo ∧
    (State.disablePorts t s).cat = s.cat ∧
    (State.disablePorts t s).med = s.med ∧
    (State.disablePorts t s).coh = s.coh ∧
    (State.disablePorts t s).rte = s.rte ∧
    (State.disablePorts t s).cap = s.cap ∧
    (State.disablePorts t s).cry = s.cry ∧
    (State.disablePorts t s).flt = s.flt ∧
    (State.disablePorts t s).anl = s.anl ∧
    (State.disablePorts t s).cur = s.cur ∧
    (State.disablePorts t s).thm = s.thm ∧
    (State.disablePorts t s).pwr = s.pwr ∧
    (State.disablePorts t s).pmc = s.pmc ∧
    (State.disablePorts t s).out = s.out ∧
    (State.disablePorts t s).net = s.net ∧
    (State.disablePorts t s).freeCtr = s.freeCtr ∧
    (State.disablePorts t s).pending = s.pending := by
  unfold State.disablePorts
  simp

@[simp] theorem State.securityHalt_kept (cause t addr : Nat) (s : State) :
    (State.securityHalt cause t addr s).member = s.member ∧
    (State.securityHalt cause t addr s).now = s.now ∧
    (State.securityHalt cause t addr s).unstored = s.unstored ∧
    (State.securityHalt cause t addr s).epo = s.epo ∧
    (State.securityHalt cause t addr s).cat = s.cat ∧
    (State.securityHalt cause t addr s).med = s.med ∧
    (State.securityHalt cause t addr s).coh = s.coh ∧
    (State.securityHalt cause t addr s).rte = s.rte ∧
    (State.securityHalt cause t addr s).cap = s.cap ∧
    (State.securityHalt cause t addr s).flt = s.flt ∧
    (State.securityHalt cause t addr s).cur = s.cur ∧
    (State.securityHalt cause t addr s).thm = s.thm ∧
    (State.securityHalt cause t addr s).pwr = s.pwr ∧
    (State.securityHalt cause t addr s).pmc = s.pmc ∧
    (State.securityHalt cause t addr s).net = s.net ∧
    (State.securityHalt cause t addr s).freeCtr = s.freeCtr ∧
    (State.securityHalt cause t addr s).pending = s.pending := by
  have k1 := State.disablePorts_kept
  unfold State.securityHalt
  simp [k1]

theorem State.undoTriggers_kept (s : State) :
    (State.undoTriggers s).member = s.member ∧
    (State.undoTriggers s).now = s.now ∧
    (State.undoTriggers s).regs = s.regs ∧
    (State.undoTriggers s).unstored = s.unstored ∧
    (State.undoTriggers s).host = s.host ∧
    (State.undoTriggers s).cat = s.cat ∧
    (State.undoTriggers s).med = s.med ∧
    (State.undoTriggers s).coh = s.coh ∧
    (State.undoTriggers s).lnk = s.lnk ∧
    (State.undoTriggers s).rte = s.rte ∧
    (State.undoTriggers s).cap = s.cap ∧
    (State.undoTriggers s).cry = s.cry ∧
    (State.undoTriggers s).flt = s.flt ∧
    (State.undoTriggers s).anl = s.anl ∧
    (State.undoTriggers s).cur = s.cur ∧
    (State.undoTriggers s).thm = s.thm ∧
    (State.undoTriggers s).pwr = s.pwr ∧
    (State.undoTriggers s).pmc = s.pmc ∧
    (State.undoTriggers s).out = s.out ∧
    (State.undoTriggers s).net = s.net ∧
    (State.undoTriggers s).freeCtr = s.freeCtr ∧
    (State.undoTriggers s).pending = s.pending := by
  have k1 := State.undoTrigger_kept
  unfold State.undoTriggers
  simp [k1]

theorem State.tellFaults_kept (s : State) :
    (State.tellFaults s).member = s.member ∧
    (State.tellFaults s).now = s.now ∧
    (State.tellFaults s).unstored = s.unstored ∧
    (State.tellFaults s).med = s.med ∧
    (State.tellFaults s).coh = s.coh ∧
    (State.tellFaults s).lnk = s.lnk ∧
    (State.tellFaults s).rte = s.rte ∧
    (State.tellFaults s).cry = s.cry ∧
    (State.tellFaults s).thm = s.thm ∧
    (State.tellFaults s).net = s.net ∧
    (State.tellFaults s).pending = s.pending ∧
    (State.tellFaults s).pwr.straps = s.pwr.straps ∧
    (State.tellFaults s).cur.lifecycle = s.cur.lifecycle ∧
    (State.tellFaults s).cur.rootGen = s.cur.rootGen ∧
    (State.tellFaults s).cur.returns = s.cur.returns ∧
    (State.tellFaults s).cur.revoked = s.cur.revoked := by
  unfold State.tellFaults
  dsimp only
  repeat' split
  all_goals simp

@[simp] theorem State.whole_member (f : State → State) (s : State) (h : ∀ s, (f s).member = s.member) :
    (State.whole f s).member = s.member := by
  have k1 := State.asking_kept
  have k2 := State.tellFaults_kept
  have k3 := State.undoTriggers_kept
  unfold State.whole
  dsimp only
  split
  · simp [k1, k2, k3]
  · split
    · rfl
    · simp [k1, k2, k3, h]

@[simp] theorem State.whole_now (f : State → State) (s : State) (h : ∀ s, (f s).now = s.now) :
    (State.whole f s).now = s.now := by
  have k1 := State.asking_kept
  have k2 := State.tellFaults_kept
  have k3 := State.undoTriggers_kept
  unfold State.whole
  dsimp only
  split
  · simp [k1, k2, k3]
  · split
    · rfl
    · simp [k1, k2, k3, h]

@[simp] theorem State.whole_unstored (f : State → State) (s : State) (h : ∀ s, (f s).unstored = s.unstored) :
    (State.whole f s).unstored = s.unstored := by
  have k1 := State.asking_kept
  have k2 := State.tellFaults_kept
  have k3 := State.undoTriggers_kept
  unfold State.whole
  dsimp only
  split
  · simp [k1, k2, k3]
  · split
    · rfl
    · simp [k1, k2, k3, h]

@[simp] theorem State.whole_med (f : State → State) (s : State) (h : ∀ s, (f s).med = s.med) :
    (State.whole f s).med = s.med := by
  have k1 := State.asking_kept
  have k2 := State.tellFaults_kept
  have k3 := State.undoTriggers_kept
  unfold State.whole
  dsimp only
  split
  · simp [k1, k2, k3]
  · split
    · rfl
    · simp [k1, k2, k3, h]

@[simp] theorem State.whole_coh (f : State → State) (s : State) (h : ∀ s, (f s).coh = s.coh) :
    (State.whole f s).coh = s.coh := by
  have k1 := State.asking_kept
  have k2 := State.tellFaults_kept
  have k3 := State.undoTriggers_kept
  unfold State.whole
  dsimp only
  split
  · simp [k1, k2, k3]
  · split
    · rfl
    · simp [k1, k2, k3, h]

@[simp] theorem State.whole_rte (f : State → State) (s : State) (h : ∀ s, (f s).rte = s.rte) :
    (State.whole f s).rte = s.rte := by
  have k1 := State.asking_kept
  have k2 := State.tellFaults_kept
  have k3 := State.undoTriggers_kept
  unfold State.whole
  dsimp only
  split
  · simp [k1, k2, k3]
  · split
    · rfl
    · simp [k1, k2, k3, h]

@[simp] theorem State.whole_thm (f : State → State) (s : State) (h : ∀ s, (f s).thm = s.thm) :
    (State.whole f s).thm = s.thm := by
  have k1 := State.asking_kept
  have k2 := State.tellFaults_kept
  have k3 := State.undoTriggers_kept
  unfold State.whole
  dsimp only
  split
  · simp [k1, k2, k3]
  · split
    · rfl
    · simp [k1, k2, k3, h]

@[simp] theorem State.whole_net (f : State → State) (s : State) (h : ∀ s, (f s).net = s.net) :
    (State.whole f s).net = s.net := by
  have k1 := State.asking_kept
  have k2 := State.tellFaults_kept
  have k3 := State.undoTriggers_kept
  unfold State.whole
  dsimp only
  split
  · simp [k1, k2, k3]
  · split
    · rfl
    · simp [k1, k2, k3, h]

@[simp] theorem State.whole_pending (f : State → State) (s : State) (h : ∀ s, (f s).pending = s.pending) :
    (State.whole f s).pending = s.pending := by
  have k1 := State.asking_kept
  have k2 := State.tellFaults_kept
  have k3 := State.undoTriggers_kept
  unfold State.whole
  dsimp only
  split
  · simp [k1, k2, k3]
  · split
    · rfl
    · simp [k1, k2, k3, h]

@[simp] theorem State.whole_pwr_straps (f : State → State) (s : State) (h : ∀ s, (f s).pwr.straps = s.pwr.straps) :
    (State.whole f s).pwr.straps = s.pwr.straps := by
  have k1 := State.asking_kept
  have k2 := State.tellFaults_kept
  have k3 := State.undoTriggers_kept
  unfold State.whole
  dsimp only
  split
  · simp [k1, k2, k3]
  · split
    · rfl
    · simp [k1, k2, k3, h]

@[simp] theorem State.whole_cur_lifecycle (f : State → State) (s : State) (h : ∀ s, (f s).cur.lifecycle = s.cur.lifecycle) :
    (State.whole f s).cur.lifecycle = s.cur.lifecycle := by
  have k1 := State.asking_kept
  have k2 := State.tellFaults_kept
  have k3 := State.undoTriggers_kept
  unfold State.whole
  dsimp only
  split
  · simp [k1, k2, k3]
  · split
    · rfl
    · simp [k1, k2, k3, h]

@[simp] theorem State.whole_cur_rootGen (f : State → State) (s : State) (h : ∀ s, (f s).cur.rootGen = s.cur.rootGen) :
    (State.whole f s).cur.rootGen = s.cur.rootGen := by
  have k1 := State.asking_kept
  have k2 := State.tellFaults_kept
  have k3 := State.undoTriggers_kept
  unfold State.whole
  dsimp only
  split
  · simp [k1, k2, k3]
  · split
    · rfl
    · simp [k1, k2, k3, h]

@[simp] theorem State.whole_cur_returns (f : State → State) (s : State) (h : ∀ s, (f s).cur.returns = s.cur.returns) :
    (State.whole f s).cur.returns = s.cur.returns := by
  have k1 := State.asking_kept
  have k2 := State.tellFaults_kept
  have k3 := State.undoTriggers_kept
  unfold State.whole
  dsimp only
  split
  · simp [k1, k2, k3]
  · split
    · rfl
    · simp [k1, k2, k3, h]

@[simp] theorem State.whole_cur_revoked (f : State → State) (s : State) (h : ∀ s, (f s).cur.revoked = s.cur.revoked) :
    (State.whole f s).cur.revoked = s.cur.revoked := by
  have k1 := State.asking_kept
  have k2 := State.tellFaults_kept
  have k3 := State.undoTriggers_kept
  unfold State.whole
  dsimp only
  split
  · simp [k1, k2, k3]
  · split
    · rfl
    · simp [k1, k2, k3, h]

@[simp] theorem State.pressed_member (f : State → State) (s : State) (h : ∀ s, (f s).member = s.member) :
    (State.pressed f s).member = s.member := by
  unfold State.pressed
  simp [h]

@[simp] theorem State.pressed_now (f : State → State) (s : State) (h : ∀ s, (f s).now = s.now) :
    (State.pressed f s).now = s.now := by
  unfold State.pressed
  simp [h]

@[simp] theorem State.pressed_regs (f : State → State) (s : State) (h : ∀ s, (f s).regs = s.regs) :
    (State.pressed f s).regs = s.regs := by
  unfold State.pressed
  simp [h]

@[simp] theorem State.pressed_unstored (f : State → State) (s : State) (h : ∀ s, (f s).unstored = s.unstored) :
    (State.pressed f s).unstored = s.unstored := by
  unfold State.pressed
  simp [h]

@[simp] theorem State.pressed_host (f : State → State) (s : State) (h : ∀ s, (f s).host = s.host) :
    (State.pressed f s).host = s.host := by
  unfold State.pressed
  simp [h]

@[simp] theorem State.pressed_epo (f : State → State) (s : State) (h : ∀ s, (f s).epo = s.epo) :
    (State.pressed f s).epo = s.epo := by
  unfold State.pressed
  simp [h]

@[simp] theorem State.pressed_med (f : State → State) (s : State) (h : ∀ s, (f s).med = s.med) :
    (State.pressed f s).med = s.med := by
  unfold State.pressed
  simp [h]

@[simp] theorem State.pressed_coh (f : State → State) (s : State) (h : ∀ s, (f s).coh = s.coh) :
    (State.pressed f s).coh = s.coh := by
  unfold State.pressed
  simp [h]

@[simp] theorem State.pressed_lnk (f : State → State) (s : State) (h : ∀ s, (f s).lnk = s.lnk) :
    (State.pressed f s).lnk = s.lnk := by
  unfold State.pressed
  simp [h]

@[simp] theorem State.pressed_rte (f : State → State) (s : State) (h : ∀ s, (f s).rte = s.rte) :
    (State.pressed f s).rte = s.rte := by
  unfold State.pressed
  simp [h]

@[simp] theorem State.pressed_cap (f : State → State) (s : State) (h : ∀ s, (f s).cap = s.cap) :
    (State.pressed f s).cap = s.cap := by
  unfold State.pressed
  simp [h]

@[simp] theorem State.pressed_cry (f : State → State) (s : State) (h : ∀ s, (f s).cry = s.cry) :
    (State.pressed f s).cry = s.cry := by
  unfold State.pressed
  simp [h]

@[simp] theorem State.pressed_flt (f : State → State) (s : State) (h : ∀ s, (f s).flt = s.flt) :
    (State.pressed f s).flt = s.flt := by
  unfold State.pressed
  simp [h]

@[simp] theorem State.pressed_anl (f : State → State) (s : State) (h : ∀ s, (f s).anl = s.anl) :
    (State.pressed f s).anl = s.anl := by
  unfold State.pressed
  simp [h]

@[simp] theorem State.pressed_cur (f : State → State) (s : State) (h : ∀ s, (f s).cur = s.cur) :
    (State.pressed f s).cur = s.cur := by
  unfold State.pressed
  simp [h]

@[simp] theorem State.pressed_thm (f : State → State) (s : State) (h : ∀ s, (f s).thm = s.thm) :
    (State.pressed f s).thm = s.thm := by
  unfold State.pressed
  simp [h]

@[simp] theorem State.pressed_pwr (f : State → State) (s : State) (h : ∀ s, (f s).pwr = s.pwr) :
    (State.pressed f s).pwr = s.pwr := by
  unfold State.pressed
  simp [h]

@[simp] theorem State.pressed_pmc (f : State → State) (s : State) (h : ∀ s, (f s).pmc = s.pmc) :
    (State.pressed f s).pmc = s.pmc := by
  unfold State.pressed
  simp [h]

@[simp] theorem State.pressed_out (f : State → State) (s : State) (h : ∀ s, (f s).out = s.out) :
    (State.pressed f s).out = s.out := by
  unfold State.pressed
  simp [h]

@[simp] theorem State.pressed_net (f : State → State) (s : State) (h : ∀ s, (f s).net = s.net) :
    (State.pressed f s).net = s.net := by
  unfold State.pressed
  simp [h]

@[simp] theorem State.pressed_freeCtr (f : State → State) (s : State) (h : ∀ s, (f s).freeCtr = s.freeCtr) :
    (State.pressed f s).freeCtr = s.freeCtr := by
  unfold State.pressed
  simp [h]

@[simp] theorem State.pressed_pending (f : State → State) (s : State) (h : ∀ s, (f s).pending = s.pending) :
    (State.pressed f s).pending = s.pending := by
  unfold State.pressed
  simp [h]

@[simp] theorem State.pressed_pwr_straps (f : State → State) (s : State) (h : ∀ s, (f s).pwr.straps = s.pwr.straps) :
    (State.pressed f s).pwr.straps = s.pwr.straps := by
  unfold State.pressed
  simp [h]

@[simp] theorem State.pressed_cur_lifecycle (f : State → State) (s : State) (h : ∀ s, (f s).cur.lifecycle = s.cur.lifecycle) :
    (State.pressed f s).cur.lifecycle = s.cur.lifecycle := by
  unfold State.pressed
  simp [h]

@[simp] theorem State.pressed_cur_rootGen (f : State → State) (s : State) (h : ∀ s, (f s).cur.rootGen = s.cur.rootGen) :
    (State.pressed f s).cur.rootGen = s.cur.rootGen := by
  unfold State.pressed
  simp [h]

@[simp] theorem State.pressed_cur_returns (f : State → State) (s : State) (h : ∀ s, (f s).cur.returns = s.cur.returns) :
    (State.pressed f s).cur.returns = s.cur.returns := by
  unfold State.pressed
  simp [h]

@[simp] theorem State.pressed_cur_revoked (f : State → State) (s : State) (h : ∀ s, (f s).cur.revoked = s.cur.revoked) :
    (State.pressed f s).cur.revoked = s.cur.revoked := by
  unfold State.pressed
  simp [h]

theorem State.roleChanged_kept (t version : Nat) (s : State) :
    (State.roleChanged t version s).member = s.member ∧
    (State.roleChanged t version s).now = s.now ∧
    (State.roleChanged t version s).unstored = s.unstored ∧
    (State.roleChanged t version s).epo = s.epo ∧
    (State.roleChanged t version s).cat = s.cat ∧
    (State.roleChanged t version s).med = s.med ∧
    (State.roleChanged t version s).coh = s.coh ∧
    (State.roleChanged t version s).lnk = s.lnk ∧
    (State.roleChanged t version s).rte = s.rte ∧
    (State.roleChanged t version s).cap = s.cap ∧
    (State.roleChanged t version s).cry = s.cry ∧
    (State.roleChanged t version s).flt = s.flt ∧
    (State.roleChanged t version s).cur = s.cur ∧
    (State.roleChanged t version s).thm = s.thm ∧
    (State.roleChanged t version s).pwr = s.pwr ∧
    (State.roleChanged t version s).pmc = s.pmc ∧
    (State.roleChanged t version s).net = s.net ∧
    (State.roleChanged t version s).freeCtr = s.freeCtr ∧
    (State.roleChanged t version s).pending = s.pending := by
  unfold State.roleChanged
  simp

theorem State.saddlesUp_kept (t : Nat) (s : State) :
    (State.saddlesUp t s).member = s.member ∧
    (State.saddlesUp t s).now = s.now ∧
    (State.saddlesUp t s).regs = s.regs ∧
    (State.saddlesUp t s).unstored = s.unstored ∧
    (State.saddlesUp t s).host = s.host ∧
    (State.saddlesUp t s).epo = s.epo ∧
    (State.saddlesUp t s).cat = s.cat ∧
    (State.saddlesUp t s).med = s.med ∧
    (State.saddlesUp t s).lnk = s.lnk ∧
    (State.saddlesUp t s).rte = s.rte ∧
    (State.saddlesUp t s).cap = s.cap ∧
    (State.saddlesUp t s).cry = s.cry ∧
    (State.saddlesUp t s).flt = s.flt ∧
    (State.saddlesUp t s).anl = s.anl ∧
    (State.saddlesUp t s).cur = s.cur ∧
    (State.saddlesUp t s).thm = s.thm ∧
    (State.saddlesUp t s).pwr = s.pwr ∧
    (State.saddlesUp t s).pmc = s.pmc ∧
    (State.saddlesUp t s).out = s.out ∧
    (State.saddlesUp t s).net = s.net ∧
    (State.saddlesUp t s).freeCtr = s.freeCtr ∧
    (State.saddlesUp t s).pending = s.pending := by
  unfold State.saddlesUp
  simp

@[simp] theorem State.setSport_kept (t p : Nat) (v : SPort) (s : State) :
    (State.setSport t p v s).member = s.member ∧
    (State.setSport t p v s).now = s.now ∧
    (State.setSport t p v s).regs = s.regs ∧
    (State.setSport t p v s).unstored = s.unstored ∧
    (State.setSport t p v s).host = s.host ∧
    (State.setSport t p v s).epo = s.epo ∧
    (State.setSport t p v s).cat = s.cat ∧
    (State.setSport t p v s).med = s.med ∧
    (State.setSport t p v s).coh = s.coh ∧
    (State.setSport t p v s).rte = s.rte ∧
    (State.setSport t p v s).cap = s.cap ∧
    (State.setSport t p v s).cry = s.cry ∧
    (State.setSport t p v s).flt = s.flt ∧
    (State.setSport t p v s).anl = s.anl ∧
    (State.setSport t p v s).cur = s.cur ∧
    (State.setSport t p v s).thm = s.thm ∧
    (State.setSport t p v s).pwr = s.pwr ∧
    (State.setSport t p v s).pmc = s.pmc ∧
    (State.setSport t p v s).out = s.out ∧
    (State.setSport t p v s).net = s.net ∧
    (State.setSport t p v s).freeCtr = s.freeCtr ∧
    (State.setSport t p v s).pending = s.pending := by
  unfold State.setSport
  simp

@[simp] theorem State.setPin_kept (t line : Nat) (on : Bool) (s : State) :
    (State.setPin t line on s).member = s.member ∧
    (State.setPin t line on s).now = s.now ∧
    (State.setPin t line on s).regs = s.regs ∧
    (State.setPin t line on s).unstored = s.unstored ∧
    (State.setPin t line on s).host = s.host ∧
    (State.setPin t line on s).epo = s.epo ∧
    (State.setPin t line on s).cat = s.cat ∧
    (State.setPin t line on s).med = s.med ∧
    (State.setPin t line on s).lnk = s.lnk ∧
    (State.setPin t line on s).rte = s.rte ∧
    (State.setPin t line on s).cap = s.cap ∧
    (State.setPin t line on s).cry = s.cry ∧
    (State.setPin t line on s).flt = s.flt ∧
    (State.setPin t line on s).anl = s.anl ∧
    (State.setPin t line on s).cur = s.cur ∧
    (State.setPin t line on s).thm = s.thm ∧
    (State.setPin t line on s).pwr = s.pwr ∧
    (State.setPin t line on s).pmc = s.pmc ∧
    (State.setPin t line on s).out = s.out ∧
    (State.setPin t line on s).net = s.net ∧
    (State.setPin t line on s).freeCtr = s.freeCtr ∧
    (State.setPin t line on s).pending = s.pending := by
  unfold State.setPin
  simp

theorem State.sendAway_kept (t line : Nat) (s : State) :
    (State.sendAway t line s).member = s.member ∧
    (State.sendAway t line s).now = s.now ∧
    (State.sendAway t line s).unstored = s.unstored ∧
    (State.sendAway t line s).host = s.host ∧
    (State.sendAway t line s).epo = s.epo ∧
    (State.sendAway t line s).med = s.med ∧
    (State.sendAway t line s).lnk = s.lnk ∧
    (State.sendAway t line s).rte = s.rte ∧
    (State.sendAway t line s).cap = s.cap ∧
    (State.sendAway t line s).flt = s.flt ∧
    (State.sendAway t line s).anl = s.anl ∧
    (State.sendAway t line s).cur = s.cur ∧
    (State.sendAway t line s).thm = s.thm ∧
    (State.sendAway t line s).pwr = s.pwr ∧
    (State.sendAway t line s).freeCtr = s.freeCtr ∧
    (State.sendAway t line s).pending = s.pending := by
  have k1 := State.evictNow_kept
  have k2 := State.takeEvict_kept
  unfold State.sendAway
  simp [k1, k2]

theorem State.sendEach_kept (t : Nat) (lines : List Nat) (s : State) :
    (State.sendEach t lines s).member = s.member ∧
    (State.sendEach t lines s).now = s.now ∧
    (State.sendEach t lines s).unstored = s.unstored ∧
    (State.sendEach t lines s).host = s.host ∧
    (State.sendEach t lines s).epo = s.epo ∧
    (State.sendEach t lines s).med = s.med ∧
    (State.sendEach t lines s).lnk = s.lnk ∧
    (State.sendEach t lines s).rte = s.rte ∧
    (State.sendEach t lines s).cap = s.cap ∧
    (State.sendEach t lines s).flt = s.flt ∧
    (State.sendEach t lines s).anl = s.anl ∧
    (State.sendEach t lines s).cur = s.cur ∧
    (State.sendEach t lines s).thm = s.thm ∧
    (State.sendEach t lines s).pwr = s.pwr ∧
    (State.sendEach t lines s).freeCtr = s.freeCtr ∧
    (State.sendEach t lines s).pending = s.pending := by
  have k1 := State.sendAway_kept
  unfold State.sendEach
  simp [k1]

theorem State.vacate_kept (t line : Nat) (s : State) :
    (State.vacate t line s).member = s.member ∧
    (State.vacate t line s).now = s.now ∧
    (State.vacate t line s).unstored = s.unstored ∧
    (State.vacate t line s).epo = s.epo ∧
    (State.vacate t line s).cat = s.cat ∧
    (State.vacate t line s).med = s.med ∧
    (State.vacate t line s).lnk = s.lnk ∧
    (State.vacate t line s).rte = s.rte ∧
    (State.vacate t line s).cap = s.cap ∧
    (State.vacate t line s).cry = s.cry ∧
    (State.vacate t line s).flt = s.flt ∧
    (State.vacate t line s).cur = s.cur ∧
    (State.vacate t line s).thm = s.thm ∧
    (State.vacate t line s).pwr = s.pwr ∧
    (State.vacate t line s).pmc = s.pmc ∧
    (State.vacate t line s).net = s.net ∧
    (State.vacate t line s).freeCtr = s.freeCtr ∧
    (State.vacate t line s).pending = s.pending := by
  unfold State.vacate
  simp

@[simp] theorem State.wayNotice_kept (t w dir pending : Nat) (s : State) :
    (State.wayNotice t w dir pending s).member = s.member ∧
    (State.wayNotice t w dir pending s).now = s.now ∧
    (State.wayNotice t w dir pending s).unstored = s.unstored ∧
    (State.wayNotice t w dir pending s).cat = s.cat ∧
    (State.wayNotice t w dir pending s).med = s.med ∧
    (State.wayNotice t w dir pending s).coh = s.coh ∧
    (State.wayNotice t w dir pending s).lnk = s.lnk ∧
    (State.wayNotice t w dir pending s).rte = s.rte ∧
    (State.wayNotice t w dir pending s).cry = s.cry ∧
    (State.wayNotice t w dir pending s).thm = s.thm ∧
    (State.wayNotice t w dir pending s).net = s.net ∧
    (State.wayNotice t w dir pending s).pending = s.pending ∧
    (State.wayNotice t w dir pending s).pwr.straps = s.pwr.straps ∧
    (State.wayNotice t w dir pending s).cur.lifecycle = s.cur.lifecycle ∧
    (State.wayNotice t w dir pending s).cur.rootGen = s.cur.rootGen ∧
    (State.wayNotice t w dir pending s).cur.returns = s.cur.returns ∧
    (State.wayNotice t w dir pending s).cur.revoked = s.cur.revoked := by
  unfold State.wayNotice
  simp

theorem State.disableWay_kept (t w : Nat) (s : State) :
    (State.disableWay t w s).member = s.member ∧
    (State.disableWay t w s).now = s.now ∧
    (State.disableWay t w s).unstored = s.unstored ∧
    (State.disableWay t w s).med = s.med ∧
    (State.disableWay t w s).lnk = s.lnk ∧
    (State.disableWay t w s).rte = s.rte ∧
    (State.disableWay t w s).thm = s.thm ∧
    (State.disableWay t w s).pending = s.pending ∧
    (State.disableWay t w s).pwr.straps = s.pwr.straps ∧
    (State.disableWay t w s).cur.lifecycle = s.cur.lifecycle ∧
    (State.disableWay t w s).cur.rootGen = s.cur.rootGen ∧
    (State.disableWay t w s).cur.returns = s.cur.returns ∧
    (State.disableWay t w s).cur.revoked = s.cur.revoked := by
  have k1 := State.sendEach_kept
  unfold State.disableWay
  simp [k1]

theorem State.moveWay_kept (t w w' : Nat) (s : State) :
    (State.moveWay t w w' s).member = s.member ∧
    (State.moveWay t w w' s).now = s.now ∧
    (State.moveWay t w w' s).regs = s.regs ∧
    (State.moveWay t w w' s).unstored = s.unstored ∧
    (State.moveWay t w w' s).host = s.host ∧
    (State.moveWay t w w' s).epo = s.epo ∧
    (State.moveWay t w w' s).cat = s.cat ∧
    (State.moveWay t w w' s).med = s.med ∧
    (State.moveWay t w w' s).lnk = s.lnk ∧
    (State.moveWay t w w' s).rte = s.rte ∧
    (State.moveWay t w w' s).cap = s.cap ∧
    (State.moveWay t w w' s).cry = s.cry ∧
    (State.moveWay t w w' s).flt = s.flt ∧
    (State.moveWay t w w' s).anl = s.anl ∧
    (State.moveWay t w w' s).cur = s.cur ∧
    (State.moveWay t w w' s).thm = s.thm ∧
    (State.moveWay t w w' s).pwr = s.pwr ∧
    (State.moveWay t w w' s).pmc = s.pmc ∧
    (State.moveWay t w w' s).out = s.out ∧
    (State.moveWay t w w' s).net = s.net ∧
    (State.moveWay t w w' s).freeCtr = s.freeCtr ∧
    (State.moveWay t w w' s).pending = s.pending := by
  unfold State.moveWay
  simp

theorem State.wayReached_kept (t w : Nat) (s : State) :
    (State.wayReached t w s).member = s.member ∧
    (State.wayReached t w s).now = s.now ∧
    (State.wayReached t w s).unstored = s.unstored ∧
    (State.wayReached t w s).med = s.med ∧
    (State.wayReached t w s).lnk = s.lnk ∧
    (State.wayReached t w s).rte = s.rte ∧
    (State.wayReached t w s).thm = s.thm ∧
    (State.wayReached t w s).pending = s.pending ∧
    (State.wayReached t w s).pwr.straps = s.pwr.straps ∧
    (State.wayReached t w s).cur.lifecycle = s.cur.lifecycle ∧
    (State.wayReached t w s).cur.rootGen = s.cur.rootGen ∧
    (State.wayReached t w s).cur.returns = s.cur.returns ∧
    (State.wayReached t w s).cur.revoked = s.cur.revoked := by
  have k1 := State.disableWay_kept
  have k2 := State.moveWay_kept
  unfold State.wayReached
  repeat' split
  all_goals simp [k1, k2, *]

@[simp] theorem State.settlePending_kept (t : Nat) (s : State) :
    (State.settlePending t s).member = s.member ∧
    (State.settlePending t s).now = s.now ∧
    (State.settlePending t s).unstored = s.unstored ∧
    (State.settlePending t s).med = s.med ∧
    (State.settlePending t s).lnk = s.lnk ∧
    (State.settlePending t s).rte = s.rte ∧
    (State.settlePending t s).thm = s.thm ∧
    (State.settlePending t s).pending = s.pending ∧
    (State.settlePending t s).pwr.straps = s.pwr.straps ∧
    (State.settlePending t s).cur.lifecycle = s.cur.lifecycle ∧
    (State.settlePending t s).cur.rootGen = s.cur.rootGen ∧
    (State.settlePending t s).cur.returns = s.cur.returns ∧
    (State.settlePending t s).cur.revoked = s.cur.revoked := by
  have k1 := State.disableWay_kept
  have k2 := State.moveWay_kept
  unfold State.settlePending
  (try dsimp only)
  refine ⟨foldl_member _ _ ?_ _ _, foldl_now _ _ ?_ _ _, foldl_unstored _ _ ?_ _ _, foldl_med _ _ ?_ _ _, foldl_lnk _ _ ?_ _ _, foldl_rte _ _ ?_ _ _, foldl_thm _ _ ?_ _ _, foldl_pending _ _ ?_ _ _, foldl_pwr_straps _ _ ?_ _ _, foldl_cur_lifecycle _ _ ?_ _ _, foldl_cur_rootGen _ _ ?_ _ _, foldl_cur_returns _ _ ?_ _ _, foldl_cur_revoked _ _ ?_ _ _⟩
  all_goals
    intro s x
    (try dsimp only)
    repeat' split
    all_goals simp [k1, k2]

theorem State.vacateKept_kept (t line : Nat) (s : State) :
    (State.vacateKept t line s).member = s.member ∧
    (State.vacateKept t line s).now = s.now ∧
    (State.vacateKept t line s).unstored = s.unstored ∧
    (State.vacateKept t line s).epo = s.epo ∧
    (State.vacateKept t line s).med = s.med ∧
    (State.vacateKept t line s).lnk = s.lnk ∧
    (State.vacateKept t line s).rte = s.rte ∧
    (State.vacateKept t line s).cap = s.cap ∧
    (State.vacateKept t line s).flt = s.flt ∧
    (State.vacateKept t line s).cur = s.cur ∧
    (State.vacateKept t line s).thm = s.thm ∧
    (State.vacateKept t line s).pwr = s.pwr ∧
    (State.vacateKept t line s).freeCtr = s.freeCtr ∧
    (State.vacateKept t line s).pending = s.pending := by
  have k1 := State.takeWb_kept
  have k2 := State.vacate_kept
  unfold State.vacateKept
  simp [k1, k2]

theorem State.wayFailed_kept (t w : Nat) (s : State) :
    (State.wayFailed t w s).member = s.member ∧
    (State.wayFailed t w s).now = s.now ∧
    (State.wayFailed t w s).unstored = s.unstored ∧
    (State.wayFailed t w s).med = s.med ∧
    (State.wayFailed t w s).lnk = s.lnk ∧
    (State.wayFailed t w s).rte = s.rte ∧
    (State.wayFailed t w s).thm = s.thm ∧
    (State.wayFailed t w s).pending = s.pending ∧
    (State.wayFailed t w s).pwr.straps = s.pwr.straps ∧
    (State.wayFailed t w s).cur.lifecycle = s.cur.lifecycle ∧
    (State.wayFailed t w s).cur.rootGen = s.cur.rootGen ∧
    (State.wayFailed t w s).cur.returns = s.cur.returns ∧
    (State.wayFailed t w s).cur.revoked = s.cur.revoked := by
  have k1 := State.disableWay_kept
  have k2 := State.vacateKept_kept
  unfold State.wayFailed
  repeat' split
  all_goals simp [k1, k2, *]

theorem State.lockWay_kept (t w : Nat) (s : State) :
    (State.lockWay t w s).member = s.member ∧
    (State.lockWay t w s).now = s.now ∧
    (State.lockWay t w s).unstored = s.unstored ∧
    (State.lockWay t w s).host = s.host ∧
    (State.lockWay t w s).epo = s.epo ∧
    (State.lockWay t w s).med = s.med ∧
    (State.lockWay t w s).lnk = s.lnk ∧
    (State.lockWay t w s).rte = s.rte ∧
    (State.lockWay t w s).cap = s.cap ∧
    (State.lockWay t w s).flt = s.flt ∧
    (State.lockWay t w s).anl = s.anl ∧
    (State.lockWay t w s).cur = s.cur ∧
    (State.lockWay t w s).thm = s.thm ∧
    (State.lockWay t w s).pwr = s.pwr ∧
    (State.lockWay t w s).freeCtr = s.freeCtr ∧
    (State.lockWay t w s).pending = s.pending := by
  have k1 := State.sendEach_kept
  unfold State.lockWay
  simp [k1]

theorem State.unlockWay_kept (t w : Nat) (s : State) :
    (State.unlockWay t w s).member = s.member ∧
    (State.unlockWay t w s).now = s.now ∧
    (State.unlockWay t w s).unstored = s.unstored ∧
    (State.unlockWay t w s).host = s.host ∧
    (State.unlockWay t w s).epo = s.epo ∧
    (State.unlockWay t w s).cat = s.cat ∧
    (State.unlockWay t w s).med = s.med ∧
    (State.unlockWay t w s).lnk = s.lnk ∧
    (State.unlockWay t w s).rte = s.rte ∧
    (State.unlockWay t w s).cap = s.cap ∧
    (State.unlockWay t w s).cry = s.cry ∧
    (State.unlockWay t w s).flt = s.flt ∧
    (State.unlockWay t w s).anl = s.anl ∧
    (State.unlockWay t w s).cur = s.cur ∧
    (State.unlockWay t w s).thm = s.thm ∧
    (State.unlockWay t w s).pwr = s.pwr ∧
    (State.unlockWay t w s).pmc = s.pmc ∧
    (State.unlockWay t w s).out = s.out ∧
    (State.unlockWay t w s).net = s.net ∧
    (State.unlockWay t w s).freeCtr = s.freeCtr ∧
    (State.unlockWay t w s).pending = s.pending := by
  unfold State.unlockWay
  simp

theorem State.setWays_kept (t v : Nat) (s : State) :
    (State.setWays t v s).member = s.member ∧
    (State.setWays t v s).now = s.now ∧
    (State.setWays t v s).unstored = s.unstored ∧
    (State.setWays t v s).med = s.med ∧
    (State.setWays t v s).lnk = s.lnk ∧
    (State.setWays t v s).rte = s.rte ∧
    (State.setWays t v s).thm = s.thm ∧
    (State.setWays t v s).pending = s.pending ∧
    (State.setWays t v s).pwr.straps = s.pwr.straps ∧
    (State.setWays t v s).cur.lifecycle = s.cur.lifecycle ∧
    (State.setWays t v s).cur.rootGen = s.cur.rootGen ∧
    (State.setWays t v s).cur.returns = s.cur.returns ∧
    (State.setWays t v s).cur.revoked = s.cur.revoked := by
  have k1 := State.lockWay_kept
  have k2 := State.unlockWay_kept
  unfold State.setWays
  simp [k1, k2]

@[simp] theorem State.writeNcLock_kept (p t value : Nat) (s : State) :
    (State.writeNcLock p t value s).member = s.member ∧
    (State.writeNcLock p t value s).now = s.now ∧
    (State.writeNcLock p t value s).unstored = s.unstored ∧
    (State.writeNcLock p t value s).med = s.med ∧
    (State.writeNcLock p t value s).rte = s.rte ∧
    (State.writeNcLock p t value s).thm = s.thm ∧
    (State.writeNcLock p t value s).pending = s.pending ∧
    (State.writeNcLock p t value s).pwr.straps = s.pwr.straps ∧
    (State.writeNcLock p t value s).cur.lifecycle = s.cur.lifecycle ∧
    (State.writeNcLock p t value s).cur.rootGen = s.cur.rootGen ∧
    (State.writeNcLock p t value s).cur.returns = s.cur.returns ∧
    (State.writeNcLock p t value s).cur.revoked = s.cur.revoked := by
  have k1 := State.setWays_kept
  unfold State.writeNcLock
  dsimp only
  repeat' split
  all_goals simp [k1]

theorem State.fillPinned_kept (t line : Nat) (env : MediaEnv) (s : State) :
    (State.fillPinned t line env s).member = s.member ∧
    (State.fillPinned t line env s).now = s.now ∧
    (State.fillPinned t line env s).unstored = s.unstored ∧
    (State.fillPinned t line env s).host = s.host ∧
    (State.fillPinned t line env s).lnk = s.lnk ∧
    (State.fillPinned t line env s).rte = s.rte ∧
    (State.fillPinned t line env s).cap = s.cap ∧
    (State.fillPinned t line env s).cur = s.cur ∧
    (State.fillPinned t line env s).thm = s.thm ∧
    (State.fillPinned t line env s).pwr = s.pwr ∧
    (State.fillPinned t line env s).pending = s.pending := by
  have k1 := State.fetchLine_kept
  unfold State.fillPinned
  simp [k1]

@[simp] theorem State.pinLine_kept (t line : Nat) (env : MediaEnv) (s : State) :
    (State.pinLine t line env s).2.member = s.member ∧
    (State.pinLine t line env s).2.now = s.now ∧
    (State.pinLine t line env s).2.unstored = s.unstored ∧
    (State.pinLine t line env s).2.host = s.host ∧
    (State.pinLine t line env s).2.lnk = s.lnk ∧
    (State.pinLine t line env s).2.rte = s.rte ∧
    (State.pinLine t line env s).2.cap = s.cap ∧
    (State.pinLine t line env s).2.cur = s.cur ∧
    (State.pinLine t line env s).2.thm = s.thm ∧
    (State.pinLine t line env s).2.pwr = s.pwr ∧
    (State.pinLine t line env s).2.pending = s.pending := by
  have k1 := State.fillPinned_kept
  have k2 := State.takeEvict_kept
  unfold State.pinLine
  dsimp only
  repeat' split
  all_goals simp [k1, k2]

@[simp] theorem State.unpinLine_kept (t line : Nat) (s : State) :
    (State.unpinLine t line s).2.member = s.member ∧
    (State.unpinLine t line s).2.now = s.now ∧
    (State.unpinLine t line s).2.unstored = s.unstored ∧
    (State.unpinLine t line s).2.host = s.host ∧
    (State.unpinLine t line s).2.epo = s.epo ∧
    (State.unpinLine t line s).2.med = s.med ∧
    (State.unpinLine t line s).2.lnk = s.lnk ∧
    (State.unpinLine t line s).2.rte = s.rte ∧
    (State.unpinLine t line s).2.cap = s.cap ∧
    (State.unpinLine t line s).2.flt = s.flt ∧
    (State.unpinLine t line s).2.anl = s.anl ∧
    (State.unpinLine t line s).2.cur = s.cur ∧
    (State.unpinLine t line s).2.thm = s.thm ∧
    (State.unpinLine t line s).2.pwr = s.pwr ∧
    (State.unpinLine t line s).2.freeCtr = s.freeCtr ∧
    (State.unpinLine t line s).2.pending = s.pending := by
  have k1 := State.sendAway_kept
  unfold State.unpinLine
  repeat' split
  all_goals simp [k1, *]

@[simp] theorem pinRun_member (f : Nat → State → Bool × State) (lines : List Nat) (s : State) (h : ∀ l s, (f l s).2.member = s.member) :
    (pinRun f lines s).2.member = s.member := by
  unfold pinRun
  exact foldl_snd_member _ _ _ (fun a x => by simp [h]) _ _

@[simp] theorem pinRun_now (f : Nat → State → Bool × State) (lines : List Nat) (s : State) (h : ∀ l s, (f l s).2.now = s.now) :
    (pinRun f lines s).2.now = s.now := by
  unfold pinRun
  exact foldl_snd_now _ _ _ (fun a x => by simp [h]) _ _

@[simp] theorem pinRun_regs (f : Nat → State → Bool × State) (lines : List Nat) (s : State) (h : ∀ l s, (f l s).2.regs = s.regs) :
    (pinRun f lines s).2.regs = s.regs := by
  unfold pinRun
  exact foldl_snd_regs _ _ _ (fun a x => by simp [h]) _ _

@[simp] theorem pinRun_unstored (f : Nat → State → Bool × State) (lines : List Nat) (s : State) (h : ∀ l s, (f l s).2.unstored = s.unstored) :
    (pinRun f lines s).2.unstored = s.unstored := by
  unfold pinRun
  exact foldl_snd_unstored _ _ _ (fun a x => by simp [h]) _ _

@[simp] theorem pinRun_host (f : Nat → State → Bool × State) (lines : List Nat) (s : State) (h : ∀ l s, (f l s).2.host = s.host) :
    (pinRun f lines s).2.host = s.host := by
  unfold pinRun
  exact foldl_snd_host _ _ _ (fun a x => by simp [h]) _ _

@[simp] theorem pinRun_epo (f : Nat → State → Bool × State) (lines : List Nat) (s : State) (h : ∀ l s, (f l s).2.epo = s.epo) :
    (pinRun f lines s).2.epo = s.epo := by
  unfold pinRun
  exact foldl_snd_epo _ _ _ (fun a x => by simp [h]) _ _

@[simp] theorem pinRun_cat (f : Nat → State → Bool × State) (lines : List Nat) (s : State) (h : ∀ l s, (f l s).2.cat = s.cat) :
    (pinRun f lines s).2.cat = s.cat := by
  unfold pinRun
  exact foldl_snd_cat _ _ _ (fun a x => by simp [h]) _ _

@[simp] theorem pinRun_med (f : Nat → State → Bool × State) (lines : List Nat) (s : State) (h : ∀ l s, (f l s).2.med = s.med) :
    (pinRun f lines s).2.med = s.med := by
  unfold pinRun
  exact foldl_snd_med _ _ _ (fun a x => by simp [h]) _ _

@[simp] theorem pinRun_coh (f : Nat → State → Bool × State) (lines : List Nat) (s : State) (h : ∀ l s, (f l s).2.coh = s.coh) :
    (pinRun f lines s).2.coh = s.coh := by
  unfold pinRun
  exact foldl_snd_coh _ _ _ (fun a x => by simp [h]) _ _

@[simp] theorem pinRun_lnk (f : Nat → State → Bool × State) (lines : List Nat) (s : State) (h : ∀ l s, (f l s).2.lnk = s.lnk) :
    (pinRun f lines s).2.lnk = s.lnk := by
  unfold pinRun
  exact foldl_snd_lnk _ _ _ (fun a x => by simp [h]) _ _

@[simp] theorem pinRun_rte (f : Nat → State → Bool × State) (lines : List Nat) (s : State) (h : ∀ l s, (f l s).2.rte = s.rte) :
    (pinRun f lines s).2.rte = s.rte := by
  unfold pinRun
  exact foldl_snd_rte _ _ _ (fun a x => by simp [h]) _ _

@[simp] theorem pinRun_cap (f : Nat → State → Bool × State) (lines : List Nat) (s : State) (h : ∀ l s, (f l s).2.cap = s.cap) :
    (pinRun f lines s).2.cap = s.cap := by
  unfold pinRun
  exact foldl_snd_cap _ _ _ (fun a x => by simp [h]) _ _

@[simp] theorem pinRun_cry (f : Nat → State → Bool × State) (lines : List Nat) (s : State) (h : ∀ l s, (f l s).2.cry = s.cry) :
    (pinRun f lines s).2.cry = s.cry := by
  unfold pinRun
  exact foldl_snd_cry _ _ _ (fun a x => by simp [h]) _ _

@[simp] theorem pinRun_flt (f : Nat → State → Bool × State) (lines : List Nat) (s : State) (h : ∀ l s, (f l s).2.flt = s.flt) :
    (pinRun f lines s).2.flt = s.flt := by
  unfold pinRun
  exact foldl_snd_flt _ _ _ (fun a x => by simp [h]) _ _

@[simp] theorem pinRun_anl (f : Nat → State → Bool × State) (lines : List Nat) (s : State) (h : ∀ l s, (f l s).2.anl = s.anl) :
    (pinRun f lines s).2.anl = s.anl := by
  unfold pinRun
  exact foldl_snd_anl _ _ _ (fun a x => by simp [h]) _ _

@[simp] theorem pinRun_cur (f : Nat → State → Bool × State) (lines : List Nat) (s : State) (h : ∀ l s, (f l s).2.cur = s.cur) :
    (pinRun f lines s).2.cur = s.cur := by
  unfold pinRun
  exact foldl_snd_cur _ _ _ (fun a x => by simp [h]) _ _

@[simp] theorem pinRun_thm (f : Nat → State → Bool × State) (lines : List Nat) (s : State) (h : ∀ l s, (f l s).2.thm = s.thm) :
    (pinRun f lines s).2.thm = s.thm := by
  unfold pinRun
  exact foldl_snd_thm _ _ _ (fun a x => by simp [h]) _ _

@[simp] theorem pinRun_pwr (f : Nat → State → Bool × State) (lines : List Nat) (s : State) (h : ∀ l s, (f l s).2.pwr = s.pwr) :
    (pinRun f lines s).2.pwr = s.pwr := by
  unfold pinRun
  exact foldl_snd_pwr _ _ _ (fun a x => by simp [h]) _ _

@[simp] theorem pinRun_pmc (f : Nat → State → Bool × State) (lines : List Nat) (s : State) (h : ∀ l s, (f l s).2.pmc = s.pmc) :
    (pinRun f lines s).2.pmc = s.pmc := by
  unfold pinRun
  exact foldl_snd_pmc _ _ _ (fun a x => by simp [h]) _ _

@[simp] theorem pinRun_out (f : Nat → State → Bool × State) (lines : List Nat) (s : State) (h : ∀ l s, (f l s).2.out = s.out) :
    (pinRun f lines s).2.out = s.out := by
  unfold pinRun
  exact foldl_snd_out _ _ _ (fun a x => by simp [h]) _ _

@[simp] theorem pinRun_net (f : Nat → State → Bool × State) (lines : List Nat) (s : State) (h : ∀ l s, (f l s).2.net = s.net) :
    (pinRun f lines s).2.net = s.net := by
  unfold pinRun
  exact foldl_snd_net _ _ _ (fun a x => by simp [h]) _ _

@[simp] theorem pinRun_freeCtr (f : Nat → State → Bool × State) (lines : List Nat) (s : State) (h : ∀ l s, (f l s).2.freeCtr = s.freeCtr) :
    (pinRun f lines s).2.freeCtr = s.freeCtr := by
  unfold pinRun
  exact foldl_snd_freeCtr _ _ _ (fun a x => by simp [h]) _ _

@[simp] theorem pinRun_pending (f : Nat → State → Bool × State) (lines : List Nat) (s : State) (h : ∀ l s, (f l s).2.pending = s.pending) :
    (pinRun f lines s).2.pending = s.pending := by
  unfold pinRun
  exact foldl_snd_pending _ _ _ (fun a x => by simp [h]) _ _

@[simp] theorem State.spareEntry_kept (t cause detail : Nat) (s : State) :
    (State.spareEntry t cause detail s).member = s.member ∧
    (State.spareEntry t cause detail s).now = s.now ∧
    (State.spareEntry t cause detail s).regs = s.regs ∧
    (State.spareEntry t cause detail s).unstored = s.unstored ∧
    (State.spareEntry t cause detail s).host = s.host ∧
    (State.spareEntry t cause detail s).epo = s.epo ∧
    (State.spareEntry t cause detail s).cat = s.cat ∧
    (State.spareEntry t cause detail s).med = s.med ∧
    (State.spareEntry t cause detail s).coh = s.coh ∧
    (State.spareEntry t cause detail s).lnk = s.lnk ∧
    (State.spareEntry t cause detail s).rte = s.rte ∧
    (State.spareEntry t cause detail s).cap = s.cap ∧
    (State.spareEntry t cause detail s).cry = s.cry ∧
    (State.spareEntry t cause detail s).flt = s.flt ∧
    (State.spareEntry t cause detail s).cur = s.cur ∧
    (State.spareEntry t cause detail s).thm = s.thm ∧
    (State.spareEntry t cause detail s).pwr = s.pwr ∧
    (State.spareEntry t cause detail s).pmc = s.pmc ∧
    (State.spareEntry t cause detail s).out = s.out ∧
    (State.spareEntry t cause detail s).net = s.net ∧
    (State.spareEntry t cause detail s).freeCtr = s.freeCtr ∧
    (State.spareEntry t cause detail s).pending = s.pending := by
  unfold State.spareEntry
  simp

theorem State.takeBaseline_kept (t : Nat) (s : State) :
    (State.takeBaseline t s).member = s.member ∧
    (State.takeBaseline t s).now = s.now ∧
    (State.takeBaseline t s).unstored = s.unstored ∧
    (State.takeBaseline t s).host = s.host ∧
    (State.takeBaseline t s).epo = s.epo ∧
    (State.takeBaseline t s).cat = s.cat ∧
    (State.takeBaseline t s).coh = s.coh ∧
    (State.takeBaseline t s).lnk = s.lnk ∧
    (State.takeBaseline t s).rte = s.rte ∧
    (State.takeBaseline t s).cap = s.cap ∧
    (State.takeBaseline t s).cry = s.cry ∧
    (State.takeBaseline t s).flt = s.flt ∧
    (State.takeBaseline t s).cur = s.cur ∧
    (State.takeBaseline t s).thm = s.thm ∧
    (State.takeBaseline t s).pwr = s.pwr ∧
    (State.takeBaseline t s).pmc = s.pmc ∧
    (State.takeBaseline t s).out = s.out ∧
    (State.takeBaseline t s).net = s.net ∧
    (State.takeBaseline t s).freeCtr = s.freeCtr ∧
    (State.takeBaseline t s).pending = s.pending := by
  unfold State.takeBaseline
  simp

theorem State.spareNotice_kept (t level : Nat) (s : State) :
    (State.spareNotice t level s).member = s.member ∧
    (State.spareNotice t level s).now = s.now ∧
    (State.spareNotice t level s).unstored = s.unstored ∧
    (State.spareNotice t level s).epo = s.epo ∧
    (State.spareNotice t level s).cat = s.cat ∧
    (State.spareNotice t level s).med = s.med ∧
    (State.spareNotice t level s).coh = s.coh ∧
    (State.spareNotice t level s).lnk = s.lnk ∧
    (State.spareNotice t level s).rte = s.rte ∧
    (State.spareNotice t level s).cap = s.cap ∧
    (State.spareNotice t level s).cry = s.cry ∧
    (State.spareNotice t level s).flt = s.flt ∧
    (State.spareNotice t level s).cur = s.cur ∧
    (State.spareNotice t level s).thm = s.thm ∧
    (State.spareNotice t level s).pwr = s.pwr ∧
    (State.spareNotice t level s).pmc = s.pmc ∧
    (State.spareNotice t level s).net = s.net ∧
    (State.spareNotice t level s).freeCtr = s.freeCtr ∧
    (State.spareNotice t level s).pending = s.pending := by
  unfold State.spareNotice
  simp

theorem State.spareWarn_kept (t bit level : Nat) (s : State) :
    (State.spareWarn t bit level s).member = s.member ∧
    (State.spareWarn t bit level s).now = s.now ∧
    (State.spareWarn t bit level s).unstored = s.unstored ∧
    (State.spareWarn t bit level s).epo = s.epo ∧
    (State.spareWarn t bit level s).cat = s.cat ∧
    (State.spareWarn t bit level s).coh = s.coh ∧
    (State.spareWarn t bit level s).lnk = s.lnk ∧
    (State.spareWarn t bit level s).rte = s.rte ∧
    (State.spareWarn t bit level s).cap = s.cap ∧
    (State.spareWarn t bit level s).cry = s.cry ∧
    (State.spareWarn t bit level s).flt = s.flt ∧
    (State.spareWarn t bit level s).cur = s.cur ∧
    (State.spareWarn t bit level s).thm = s.thm ∧
    (State.spareWarn t bit level s).pwr = s.pwr ∧
    (State.spareWarn t bit level s).pmc = s.pmc ∧
    (State.spareWarn t bit level s).net = s.net ∧
    (State.spareWarn t bit level s).freeCtr = s.freeCtr ∧
    (State.spareWarn t bit level s).pending = s.pending := by
  have k1 := State.spareNotice_kept
  unfold State.spareWarn
  simp [k1]

@[simp] theorem State.spareCheck_kept (t : Nat) (s : State) :
    (State.spareCheck t s).member = s.member ∧
    (State.spareCheck t s).now = s.now ∧
    (State.spareCheck t s).unstored = s.unstored ∧
    (State.spareCheck t s).epo = s.epo ∧
    (State.spareCheck t s).cat = s.cat ∧
    (State.spareCheck t s).coh = s.coh ∧
    (State.spareCheck t s).lnk = s.lnk ∧
    (State.spareCheck t s).rte = s.rte ∧
    (State.spareCheck t s).cap = s.cap ∧
    (State.spareCheck t s).cry = s.cry ∧
    (State.spareCheck t s).flt = s.flt ∧
    (State.spareCheck t s).cur = s.cur ∧
    (State.spareCheck t s).thm = s.thm ∧
    (State.spareCheck t s).pwr = s.pwr ∧
    (State.spareCheck t s).pmc = s.pmc ∧
    (State.spareCheck t s).net = s.net ∧
    (State.spareCheck t s).freeCtr = s.freeCtr ∧
    (State.spareCheck t s).pending = s.pending := by
  have k1 := State.spareNotice_kept
  have k2 := State.spareWarn_kept
  unfold State.spareCheck
  simp [k1, k2]

theorem State.showDegraded_kept (t : Nat) (s : State) :
    (State.showDegraded t s).member = s.member ∧
    (State.showDegraded t s).now = s.now ∧
    (State.showDegraded t s).unstored = s.unstored ∧
    (State.showDegraded t s).host = s.host ∧
    (State.showDegraded t s).epo = s.epo ∧
    (State.showDegraded t s).cat = s.cat ∧
    (State.showDegraded t s).med = s.med ∧
    (State.showDegraded t s).coh = s.coh ∧
    (State.showDegraded t s).lnk = s.lnk ∧
    (State.showDegraded t s).rte = s.rte ∧
    (State.showDegraded t s).cap = s.cap ∧
    (State.showDegraded t s).cry = s.cry ∧
    (State.showDegraded t s).flt = s.flt ∧
    (State.showDegraded t s).anl = s.anl ∧
    (State.showDegraded t s).cur = s.cur ∧
    (State.showDegraded t s).thm = s.thm ∧
    (State.showDegraded t s).pwr = s.pwr ∧
    (State.showDegraded t s).pmc = s.pmc ∧
    (State.showDegraded t s).out = s.out ∧
    (State.showDegraded t s).net = s.net ∧
    (State.showDegraded t s).freeCtr = s.freeCtr ∧
    (State.showDegraded t s).pending = s.pending := by
  unfold State.showDegraded
  simp

@[simp] theorem State.degrade_kept (t c : Nat) (p : Nat → Bool) (s : State) :
    (State.degrade t c p s).member = s.member ∧
    (State.degrade t c p s).now = s.now ∧
    (State.degrade t c p s).unstored = s.unstored ∧
    (State.degrade t c p s).host = s.host ∧
    (State.degrade t c p s).epo = s.epo ∧
    (State.degrade t c p s).med = s.med ∧
    (State.degrade t c p s).coh = s.coh ∧
    (State.degrade t c p s).lnk = s.lnk ∧
    (State.degrade t c p s).rte = s.rte ∧
    (State.degrade t c p s).cap = s.cap ∧
    (State.degrade t c p s).cry = s.cry ∧
    (State.degrade t c p s).flt = s.flt ∧
    (State.degrade t c p s).anl = s.anl ∧
    (State.degrade t c p s).cur = s.cur ∧
    (State.degrade t c p s).thm = s.thm ∧
    (State.degrade t c p s).pwr = s.pwr ∧
    (State.degrade t c p s).pmc = s.pmc ∧
    (State.degrade t c p s).out = s.out ∧
    (State.degrade t c p s).net = s.net ∧
    (State.degrade t c p s).freeCtr = s.freeCtr ∧
    (State.degrade t c p s).pending = s.pending := by
  have k1 := State.showDegraded_kept
  unfold State.degrade
  simp [k1]

theorem State.showRetired_kept (t : Nat) (s : State) :
    (State.showRetired t s).member = s.member ∧
    (State.showRetired t s).now = s.now ∧
    (State.showRetired t s).unstored = s.unstored ∧
    (State.showRetired t s).host = s.host ∧
    (State.showRetired t s).epo = s.epo ∧
    (State.showRetired t s).cat = s.cat ∧
    (State.showRetired t s).med = s.med ∧
    (State.showRetired t s).coh = s.coh ∧
    (State.showRetired t s).lnk = s.lnk ∧
    (State.showRetired t s).rte = s.rte ∧
    (State.showRetired t s).cap = s.cap ∧
    (State.showRetired t s).cry = s.cry ∧
    (State.showRetired t s).flt = s.flt ∧
    (State.showRetired t s).anl = s.anl ∧
    (State.showRetired t s).cur = s.cur ∧
    (State.showRetired t s).thm = s.thm ∧
    (State.showRetired t s).pwr = s.pwr ∧
    (State.showRetired t s).pmc = s.pmc ∧
    (State.showRetired t s).out = s.out ∧
    (State.showRetired t s).net = s.net ∧
    (State.showRetired t s).freeCtr = s.freeCtr ∧
    (State.showRetired t s).pending = s.pending := by
  unfold State.showRetired
  simp

@[simp] theorem State.showFree_kept (t : Nat) (s : State) :
    (State.showFree t s).member = s.member ∧
    (State.showFree t s).now = s.now ∧
    (State.showFree t s).unstored = s.unstored ∧
    (State.showFree t s).host = s.host ∧
    (State.showFree t s).epo = s.epo ∧
    (State.showFree t s).cat = s.cat ∧
    (State.showFree t s).med = s.med ∧
    (State.showFree t s).coh = s.coh ∧
    (State.showFree t s).lnk = s.lnk ∧
    (State.showFree t s).rte = s.rte ∧
    (State.showFree t s).cap = s.cap ∧
    (State.showFree t s).cry = s.cry ∧
    (State.showFree t s).flt = s.flt ∧
    (State.showFree t s).anl = s.anl ∧
    (State.showFree t s).cur = s.cur ∧
    (State.showFree t s).thm = s.thm ∧
    (State.showFree t s).pwr = s.pwr ∧
    (State.showFree t s).pmc = s.pmc ∧
    (State.showFree t s).out = s.out ∧
    (State.showFree t s).net = s.net ∧
    (State.showFree t s).freeCtr = s.freeCtr ∧
    (State.showFree t s).pending = s.pending := by
  unfold State.showFree
  simp

theorem State.showWear_kept (t : Nat) (s : State) :
    (State.showWear t s).member = s.member ∧
    (State.showWear t s).now = s.now ∧
    (State.showWear t s).unstored = s.unstored ∧
    (State.showWear t s).host = s.host ∧
    (State.showWear t s).epo = s.epo ∧
    (State.showWear t s).cat = s.cat ∧
    (State.showWear t s).med = s.med ∧
    (State.showWear t s).coh = s.coh ∧
    (State.showWear t s).lnk = s.lnk ∧
    (State.showWear t s).rte = s.rte ∧
    (State.showWear t s).cap = s.cap ∧
    (State.showWear t s).cry = s.cry ∧
    (State.showWear t s).flt = s.flt ∧
    (State.showWear t s).anl = s.anl ∧
    (State.showWear t s).cur = s.cur ∧
    (State.showWear t s).thm = s.thm ∧
    (State.showWear t s).pwr = s.pwr ∧
    (State.showWear t s).pmc = s.pmc ∧
    (State.showWear t s).out = s.out ∧
    (State.showWear t s).net = s.net ∧
    (State.showWear t s).freeCtr = s.freeCtr ∧
    (State.showWear t s).pending = s.pending := by
  unfold State.showWear
  simp

theorem State.showCap_kept (t : Nat) (s : State) :
    (State.showCap t s).member = s.member ∧
    (State.showCap t s).now = s.now ∧
    (State.showCap t s).unstored = s.unstored ∧
    (State.showCap t s).host = s.host ∧
    (State.showCap t s).epo = s.epo ∧
    (State.showCap t s).cat = s.cat ∧
    (State.showCap t s).med = s.med ∧
    (State.showCap t s).coh = s.coh ∧
    (State.showCap t s).lnk = s.lnk ∧
    (State.showCap t s).rte = s.rte ∧
    (State.showCap t s).cap = s.cap ∧
    (State.showCap t s).cry = s.cry ∧
    (State.showCap t s).flt = s.flt ∧
    (State.showCap t s).anl = s.anl ∧
    (State.showCap t s).cur = s.cur ∧
    (State.showCap t s).thm = s.thm ∧
    (State.showCap t s).pwr = s.pwr ∧
    (State.showCap t s).pmc = s.pmc ∧
    (State.showCap t s).out = s.out ∧
    (State.showCap t s).net = s.net ∧
    (State.showCap t s).freeCtr = s.freeCtr ∧
    (State.showCap t s).pending = s.pending := by
  unfold State.showCap
  simp

theorem State.showRate_kept (t r : Nat) (s : State) :
    (State.showRate t r s).member = s.member ∧
    (State.showRate t r s).now = s.now ∧
    (State.showRate t r s).unstored = s.unstored ∧
    (State.showRate t r s).host = s.host ∧
    (State.showRate t r s).epo = s.epo ∧
    (State.showRate t r s).cat = s.cat ∧
    (State.showRate t r s).med = s.med ∧
    (State.showRate t r s).coh = s.coh ∧
    (State.showRate t r s).lnk = s.lnk ∧
    (State.showRate t r s).rte = s.rte ∧
    (State.showRate t r s).cap = s.cap ∧
    (State.showRate t r s).cry = s.cry ∧
    (State.showRate t r s).flt = s.flt ∧
    (State.showRate t r s).anl = s.anl ∧
    (State.showRate t r s).cur = s.cur ∧
    (State.showRate t r s).thm = s.thm ∧
    (State.showRate t r s).pwr = s.pwr ∧
    (State.showRate t r s).pmc = s.pmc ∧
    (State.showRate t r s).out = s.out ∧
    (State.showRate t r s).net = s.net ∧
    (State.showRate t r s).freeCtr = s.freeCtr ∧
    (State.showRate t r s).pending = s.pending := by
  unfold State.showRate
  simp

theorem State.showBlocks_kept (t : Nat) (s : State) :
    (State.showBlocks t s).member = s.member ∧
    (State.showBlocks t s).now = s.now ∧
    (State.showBlocks t s).unstored = s.unstored ∧
    (State.showBlocks t s).host = s.host ∧
    (State.showBlocks t s).epo = s.epo ∧
    (State.showBlocks t s).cat = s.cat ∧
    (State.showBlocks t s).med = s.med ∧
    (State.showBlocks t s).coh = s.coh ∧
    (State.showBlocks t s).lnk = s.lnk ∧
    (State.showBlocks t s).rte = s.rte ∧
    (State.showBlocks t s).cap = s.cap ∧
    (State.showBlocks t s).cry = s.cry ∧
    (State.showBlocks t s).flt = s.flt ∧
    (State.showBlocks t s).anl = s.anl ∧
    (State.showBlocks t s).cur = s.cur ∧
    (State.showBlocks t s).thm = s.thm ∧
    (State.showBlocks t s).pwr = s.pwr ∧
    (State.showBlocks t s).pmc = s.pmc ∧
    (State.showBlocks t s).out = s.out ∧
    (State.showBlocks t s).net = s.net ∧
    (State.showBlocks t s).freeCtr = s.freeCtr ∧
    (State.showBlocks t s).pending = s.pending := by
  have k1 := State.showCap_kept
  have k2 := State.showRate_kept
  have k3 := State.showRetired_kept
  have k4 := State.showWear_kept
  unfold State.showBlocks
  simp [k1, k2, k3, k4]

@[simp] theorem State.retireBlock_kept (t c b cause : Nat) (s : State) :
    (State.retireBlock t c b cause s).member = s.member ∧
    (State.retireBlock t c b cause s).now = s.now ∧
    (State.retireBlock t c b cause s).unstored = s.unstored ∧
    (State.retireBlock t c b cause s).epo = s.epo ∧
    (State.retireBlock t c b cause s).coh = s.coh ∧
    (State.retireBlock t c b cause s).lnk = s.lnk ∧
    (State.retireBlock t c b cause s).rte = s.rte ∧
    (State.retireBlock t c b cause s).cap = s.cap ∧
    (State.retireBlock t c b cause s).cry = s.cry ∧
    (State.retireBlock t c b cause s).flt = s.flt ∧
    (State.retireBlock t c b cause s).cur = s.cur ∧
    (State.retireBlock t c b cause s).thm = s.thm ∧
    (State.retireBlock t c b cause s).pwr = s.pwr ∧
    (State.retireBlock t c b cause s).pmc = s.pmc ∧
    (State.retireBlock t c b cause s).net = s.net ∧
    (State.retireBlock t c b cause s).freeCtr = s.freeCtr ∧
    (State.retireBlock t c b cause s).pending = s.pending := by
  have k1 := State.showBlocks_kept
  unfold State.retireBlock
  simp [k1]

theorem State.openBlock_kept (t b : Nat) (s : State) :
    (State.openBlock t b s).member = s.member ∧
    (State.openBlock t b s).now = s.now ∧
    (State.openBlock t b s).regs = s.regs ∧
    (State.openBlock t b s).unstored = s.unstored ∧
    (State.openBlock t b s).host = s.host ∧
    (State.openBlock t b s).epo = s.epo ∧
    (State.openBlock t b s).med = s.med ∧
    (State.openBlock t b s).coh = s.coh ∧
    (State.openBlock t b s).lnk = s.lnk ∧
    (State.openBlock t b s).rte = s.rte ∧
    (State.openBlock t b s).cap = s.cap ∧
    (State.openBlock t b s).cry = s.cry ∧
    (State.openBlock t b s).flt = s.flt ∧
    (State.openBlock t b s).anl = s.anl ∧
    (State.openBlock t b s).cur = s.cur ∧
    (State.openBlock t b s).thm = s.thm ∧
    (State.openBlock t b s).pwr = s.pwr ∧
    (State.openBlock t b s).pmc = s.pmc ∧
    (State.openBlock t b s).out = s.out ∧
    (State.openBlock t b s).net = s.net ∧
    (State.openBlock t b s).freeCtr = s.freeCtr ∧
    (State.openBlock t b s).pending = s.pending := by
  unfold State.openBlock
  simp

theorem State.queueLoads_kept (t spn : Nat) (s : State) :
    (State.queueLoads t spn s).member = s.member ∧
    (State.queueLoads t spn s).now = s.now ∧
    (State.queueLoads t spn s).regs = s.regs ∧
    (State.queueLoads t spn s).unstored = s.unstored ∧
    (State.queueLoads t spn s).host = s.host ∧
    (State.queueLoads t spn s).epo = s.epo ∧
    (State.queueLoads t spn s).cat = s.cat ∧
    (State.queueLoads t spn s).coh = s.coh ∧
    (State.queueLoads t spn s).lnk = s.lnk ∧
    (State.queueLoads t spn s).rte = s.rte ∧
    (State.queueLoads t spn s).cap = s.cap ∧
    (State.queueLoads t spn s).cry = s.cry ∧
    (State.queueLoads t spn s).flt = s.flt ∧
    (State.queueLoads t spn s).anl = s.anl ∧
    (State.queueLoads t spn s).cur = s.cur ∧
    (State.queueLoads t spn s).thm = s.thm ∧
    (State.queueLoads t spn s).pwr = s.pwr ∧
    (State.queueLoads t spn s).pmc = s.pmc ∧
    (State.queueLoads t spn s).out = s.out ∧
    (State.queueLoads t spn s).net = s.net ∧
    (State.queueLoads t spn s).freeCtr = s.freeCtr ∧
    (State.queueLoads t spn s).pending = s.pending := by
  unfold State.queueLoads
  simp

theorem State.queueErase_kept (t b : Nat) (s : State) :
    (State.queueErase t b s).member = s.member ∧
    (State.queueErase t b s).now = s.now ∧
    (State.queueErase t b s).regs = s.regs ∧
    (State.queueErase t b s).unstored = s.unstored ∧
    (State.queueErase t b s).host = s.host ∧
    (State.queueErase t b s).epo = s.epo ∧
    (State.queueErase t b s).cat = s.cat ∧
    (State.queueErase t b s).coh = s.coh ∧
    (State.queueErase t b s).lnk = s.lnk ∧
    (State.queueErase t b s).rte = s.rte ∧
    (State.queueErase t b s).cap = s.cap ∧
    (State.queueErase t b s).cry = s.cry ∧
    (State.queueErase t b s).flt = s.flt ∧
    (State.queueErase t b s).anl = s.anl ∧
    (State.queueErase t b s).cur = s.cur ∧
    (State.queueErase t b s).thm = s.thm ∧
    (State.queueErase t b s).pwr = s.pwr ∧
    (State.queueErase t b s).pmc = s.pmc ∧
    (State.queueErase t b s).out = s.out ∧
    (State.queueErase t b s).net = s.net ∧
    (State.queueErase t b s).freeCtr = s.freeCtr ∧
    (State.queueErase t b s).pending = s.pending := by
  unfold State.queueErase
  simp

theorem State.markEighth_kept (t spn : Nat) (p : Page) (s : State) :
    (State.markEighth t spn p s).member = s.member ∧
    (State.markEighth t spn p s).now = s.now ∧
    (State.markEighth t spn p s).regs = s.regs ∧
    (State.markEighth t spn p s).unstored = s.unstored ∧
    (State.markEighth t spn p s).host = s.host ∧
    (State.markEighth t spn p s).epo = s.epo ∧
    (State.markEighth t spn p s).cat = s.cat ∧
    (State.markEighth t spn p s).coh = s.coh ∧
    (State.markEighth t spn p s).lnk = s.lnk ∧
    (State.markEighth t spn p s).rte = s.rte ∧
    (State.markEighth t spn p s).cap = s.cap ∧
    (State.markEighth t spn p s).cry = s.cry ∧
    (State.markEighth t spn p s).flt = s.flt ∧
    (State.markEighth t spn p s).anl = s.anl ∧
    (State.markEighth t spn p s).cur = s.cur ∧
    (State.markEighth t spn p s).thm = s.thm ∧
    (State.markEighth t spn p s).pwr = s.pwr ∧
    (State.markEighth t spn p s).out = s.out ∧
    (State.markEighth t spn p s).net = s.net ∧
    (State.markEighth t spn p s).freeCtr = s.freeCtr ∧
    (State.markEighth t spn p s).pending = s.pending := by
  unfold State.markEighth
  simp

theorem State.showDrift_kept (t : Nat) (s : State) :
    (State.showDrift t s).member = s.member ∧
    (State.showDrift t s).now = s.now ∧
    (State.showDrift t s).unstored = s.unstored ∧
    (State.showDrift t s).host = s.host ∧
    (State.showDrift t s).epo = s.epo ∧
    (State.showDrift t s).cat = s.cat ∧
    (State.showDrift t s).med = s.med ∧
    (State.showDrift t s).coh = s.coh ∧
    (State.showDrift t s).lnk = s.lnk ∧
    (State.showDrift t s).rte = s.rte ∧
    (State.showDrift t s).cap = s.cap ∧
    (State.showDrift t s).cry = s.cry ∧
    (State.showDrift t s).flt = s.flt ∧
    (State.showDrift t s).anl = s.anl ∧
    (State.showDrift t s).cur = s.cur ∧
    (State.showDrift t s).thm = s.thm ∧
    (State.showDrift t s).pwr = s.pwr ∧
    (State.showDrift t s).pmc = s.pmc ∧
    (State.showDrift t s).out = s.out ∧
    (State.showDrift t s).net = s.net ∧
    (State.showDrift t s).freeCtr = s.freeCtr ∧
    (State.showDrift t s).pending = s.pending := by
  unfold State.showDrift
  simp

theorem State.weedSpent_kept (t : Nat) (s : State) :
    (State.weedSpent t s).member = s.member ∧
    (State.weedSpent t s).now = s.now ∧
    (State.weedSpent t s).regs = s.regs ∧
    (State.weedSpent t s).unstored = s.unstored ∧
    (State.weedSpent t s).host = s.host ∧
    (State.weedSpent t s).epo = s.epo ∧
    (State.weedSpent t s).med = s.med ∧
    (State.weedSpent t s).coh = s.coh ∧
    (State.weedSpent t s).lnk = s.lnk ∧
    (State.weedSpent t s).rte = s.rte ∧
    (State.weedSpent t s).cap = s.cap ∧
    (State.weedSpent t s).cry = s.cry ∧
    (State.weedSpent t s).flt = s.flt ∧
    (State.weedSpent t s).anl = s.anl ∧
    (State.weedSpent t s).cur = s.cur ∧
    (State.weedSpent t s).thm = s.thm ∧
    (State.weedSpent t s).pwr = s.pwr ∧
    (State.weedSpent t s).pmc = s.pmc ∧
    (State.weedSpent t s).out = s.out ∧
    (State.weedSpent t s).net = s.net ∧
    (State.weedSpent t s).freeCtr = s.freeCtr ∧
    (State.weedSpent t s).pending = s.pending := by
  unfold State.weedSpent
  simp

theorem State.measure_kept (t : Nat) (s : State) :
    (State.measure t s).member = s.member ∧
    (State.measure t s).now = s.now ∧
    (State.measure t s).unstored = s.unstored ∧
    (State.measure t s).host = s.host ∧
    (State.measure t s).epo = s.epo ∧
    (State.measure t s).cat = s.cat ∧
    (State.measure t s).med = s.med ∧
    (State.measure t s).coh = s.coh ∧
    (State.measure t s).lnk = s.lnk ∧
    (State.measure t s).rte = s.rte ∧
    (State.measure t s).cap = s.cap ∧
    (State.measure t s).cry = s.cry ∧
    (State.measure t s).flt = s.flt ∧
    (State.measure t s).anl = s.anl ∧
    (State.measure t s).cur = s.cur ∧
    (State.measure t s).thm = s.thm ∧
    (State.measure t s).pwr = s.pwr ∧
    (State.measure t s).pmc = s.pmc ∧
    (State.measure t s).out = s.out ∧
    (State.measure t s).net = s.net ∧
    (State.measure t s).freeCtr = s.freeCtr ∧
    (State.measure t s).pending = s.pending := by
  have k1 := State.showCap_kept
  have k2 := State.showDegraded_kept
  have k3 := State.showDrift_kept
  have k4 := State.showRetired_kept
  have k5 := State.showWear_kept
  unfold State.measure
  simp [k1, k2, k3, k4, k5]

theorem State.showSpare_kept (t : Nat) (s : State) :
    (State.showSpare t s).member = s.member ∧
    (State.showSpare t s).now = s.now ∧
    (State.showSpare t s).unstored = s.unstored ∧
    (State.showSpare t s).host = s.host ∧
    (State.showSpare t s).epo = s.epo ∧
    (State.showSpare t s).cat = s.cat ∧
    (State.showSpare t s).med = s.med ∧
    (State.showSpare t s).coh = s.coh ∧
    (State.showSpare t s).lnk = s.lnk ∧
    (State.showSpare t s).rte = s.rte ∧
    (State.showSpare t s).cap = s.cap ∧
    (State.showSpare t s).cry = s.cry ∧
    (State.showSpare t s).flt = s.flt ∧
    (State.showSpare t s).anl = s.anl ∧
    (State.showSpare t s).cur = s.cur ∧
    (State.showSpare t s).thm = s.thm ∧
    (State.showSpare t s).pwr = s.pwr ∧
    (State.showSpare t s).pmc = s.pmc ∧
    (State.showSpare t s).out = s.out ∧
    (State.showSpare t s).net = s.net ∧
    (State.showSpare t s).freeCtr = s.freeCtr ∧
    (State.showSpare t s).pending = s.pending := by
  unfold State.showSpare
  simp

@[simp] theorem State.identified_kept (c : Ctx) (cns tile : Nat) (s : State) :
    (State.identified c cns tile s).after.member = s.member ∧
    (State.identified c cns tile s).after.now = s.now ∧
    (State.identified c cns tile s).after.regs = s.regs ∧
    (State.identified c cns tile s).after.unstored = s.unstored ∧
    (State.identified c cns tile s).after.host = s.host ∧
    (State.identified c cns tile s).after.epo = s.epo ∧
    (State.identified c cns tile s).after.cat = s.cat ∧
    (State.identified c cns tile s).after.med = s.med ∧
    (State.identified c cns tile s).after.coh = s.coh ∧
    (State.identified c cns tile s).after.lnk = s.lnk ∧
    (State.identified c cns tile s).after.rte = s.rte ∧
    (State.identified c cns tile s).after.cap = s.cap ∧
    (State.identified c cns tile s).after.cry = s.cry ∧
    (State.identified c cns tile s).after.flt = s.flt ∧
    (State.identified c cns tile s).after.anl = s.anl ∧
    (State.identified c cns tile s).after.cur = s.cur ∧
    (State.identified c cns tile s).after.thm = s.thm ∧
    (State.identified c cns tile s).after.pwr = s.pwr ∧
    (State.identified c cns tile s).after.pmc = s.pmc ∧
    (State.identified c cns tile s).after.out = s.out ∧
    (State.identified c cns tile s).after.net = s.net ∧
    (State.identified c cns tile s).after.freeCtr = s.freeCtr ∧
    (State.identified c cns tile s).after.pending = s.pending := by
  unfold State.identified
  dsimp only
  repeat' split
  all_goals simp

theorem State.setWall_kept (v : Nat) (s : State) :
    (State.setWall v s).member = s.member ∧
    (State.setWall v s).now = s.now ∧
    (State.setWall v s).unstored = s.unstored ∧
    (State.setWall v s).epo = s.epo ∧
    (State.setWall v s).cat = s.cat ∧
    (State.setWall v s).coh = s.coh ∧
    (State.setWall v s).lnk = s.lnk ∧
    (State.setWall v s).rte = s.rte ∧
    (State.setWall v s).cap = s.cap ∧
    (State.setWall v s).cry = s.cry ∧
    (State.setWall v s).flt = s.flt ∧
    (State.setWall v s).anl = s.anl ∧
    (State.setWall v s).cur = s.cur ∧
    (State.setWall v s).thm = s.thm ∧
    (State.setWall v s).pwr = s.pwr ∧
    (State.setWall v s).pmc = s.pmc ∧
    (State.setWall v s).out = s.out ∧
    (State.setWall v s).net = s.net ∧
    (State.setWall v s).freeCtr = s.freeCtr ∧
    (State.setWall v s).pending = s.pending := by
  unfold State.setWall
  simp

@[simp] theorem State.autoExpiry_kept (s : State) :
    (State.autoExpiry s).member = s.member ∧
    (State.autoExpiry s).now = s.now ∧
    (State.autoExpiry s).regs = s.regs ∧
    (State.autoExpiry s).unstored = s.unstored ∧
    (State.autoExpiry s).host = s.host ∧
    (State.autoExpiry s).cat = s.cat ∧
    (State.autoExpiry s).med = s.med ∧
    (State.autoExpiry s).coh = s.coh ∧
    (State.autoExpiry s).lnk = s.lnk ∧
    (State.autoExpiry s).rte = s.rte ∧
    (State.autoExpiry s).cap = s.cap ∧
    (State.autoExpiry s).cry = s.cry ∧
    (State.autoExpiry s).flt = s.flt ∧
    (State.autoExpiry s).anl = s.anl ∧
    (State.autoExpiry s).cur = s.cur ∧
    (State.autoExpiry s).thm = s.thm ∧
    (State.autoExpiry s).pwr = s.pwr ∧
    (State.autoExpiry s).pmc = s.pmc ∧
    (State.autoExpiry s).out = s.out ∧
    (State.autoExpiry s).net = s.net ∧
    (State.autoExpiry s).freeCtr = s.freeCtr ∧
    (State.autoExpiry s).pending = s.pending := by
  unfold State.autoExpiry
  simp

theorem State.setAuto_kept (v : Nat) (s : State) :
    (State.setAuto v s).member = s.member ∧
    (State.setAuto v s).now = s.now ∧
    (State.setAuto v s).regs = s.regs ∧
    (State.setAuto v s).unstored = s.unstored ∧
    (State.setAuto v s).cat = s.cat ∧
    (State.setAuto v s).med = s.med ∧
    (State.setAuto v s).coh = s.coh ∧
    (State.setAuto v s).lnk = s.lnk ∧
    (State.setAuto v s).rte = s.rte ∧
    (State.setAuto v s).cap = s.cap ∧
    (State.setAuto v s).cry = s.cry ∧
    (State.setAuto v s).flt = s.flt ∧
    (State.setAuto v s).anl = s.anl ∧
    (State.setAuto v s).cur = s.cur ∧
    (State.setAuto v s).thm = s.thm ∧
    (State.setAuto v s).pwr = s.pwr ∧
    (State.setAuto v s).pmc = s.pmc ∧
    (State.setAuto v s).out = s.out ∧
    (State.setAuto v s).net = s.net ∧
    (State.setAuto v s).freeCtr = s.freeCtr ∧
    (State.setAuto v s).pending = s.pending := by
  unfold State.setAuto
  simp

theorem State.setFeature_kept (fid v : Nat) (s : State) (t1 : State) (h : State.setFeature fid v s = some t1) :
    t1.member = s.member ∧
    t1.now = s.now ∧
    t1.unstored = s.unstored ∧
    t1.cat = s.cat ∧
    t1.coh = s.coh ∧
    t1.lnk = s.lnk ∧
    t1.rte = s.rte ∧
    t1.cap = s.cap ∧
    t1.cry = s.cry ∧
    t1.flt = s.flt ∧
    t1.anl = s.anl ∧
    t1.cur = s.cur ∧
    t1.thm = s.thm ∧
    t1.pwr = s.pwr ∧
    t1.pmc = s.pmc ∧
    t1.out = s.out ∧
    t1.net = s.net ∧
    t1.freeCtr = s.freeCtr ∧
    t1.pending = s.pending := by
  have k1 := State.setAuto_kept
  have k2 := State.setWall_kept
  unfold State.setFeature at h
  (try dsimp only at h)
  repeat' split at h
  all_goals first | (cases h; done) | (injection h with h; subst h; simp [k1, k2]; done) | (injection h with h; subst h; repeat' split; all_goals simp [k1, k2])

theorem State.readRange_kept (pa len : Nat) (env : MediaEnv) (s : State) :
    (State.readRange pa len env s).after.member = s.member ∧
    (State.readRange pa len env s).after.now = s.now ∧
    (State.readRange pa len env s).after.unstored = s.unstored ∧
    (State.readRange pa len env s).after.host = s.host ∧
    (State.readRange pa len env s).after.lnk = s.lnk ∧
    (State.readRange pa len env s).after.rte = s.rte ∧
    (State.readRange pa len env s).after.cap = s.cap ∧
    (State.readRange pa len env s).after.cur = s.cur ∧
    (State.readRange pa len env s).after.thm = s.thm ∧
    (State.readRange pa len env s).after.pwr = s.pwr ∧
    (State.readRange pa len env s).after.pending = s.pending := by
  have k1 := State.readLine_kept
  unfold State.readRange
  suffices h : ∀ (l : List Nat) (f : ReadRun → Nat → ReadRun) (a : ReadRun),
      (∀ a x, (f a x).after.member = a.after.member ∧
    (f a x).after.now = a.after.now ∧
    (f a x).after.unstored = a.after.unstored ∧
    (f a x).after.host = a.after.host ∧
    (f a x).after.lnk = a.after.lnk ∧
    (f a x).after.rte = a.after.rte ∧
    (f a x).after.cap = a.after.cap ∧
    (f a x).after.cur = a.after.cur ∧
    (f a x).after.thm = a.after.thm ∧
    (f a x).after.pwr = a.after.pwr ∧
    (f a x).after.pending = a.after.pending) → (l.foldl f a).after.member = a.after.member ∧
    (l.foldl f a).after.now = a.after.now ∧
    (l.foldl f a).after.unstored = a.after.unstored ∧
    (l.foldl f a).after.host = a.after.host ∧
    (l.foldl f a).after.lnk = a.after.lnk ∧
    (l.foldl f a).after.rte = a.after.rte ∧
    (l.foldl f a).after.cap = a.after.cap ∧
    (l.foldl f a).after.cur = a.after.cur ∧
    (l.foldl f a).after.thm = a.after.thm ∧
    (l.foldl f a).after.pwr = a.after.pwr ∧
    (l.foldl f a).after.pending = a.after.pending by
    refine h _ _ _ (fun a x => ?_)
    dsimp only
    repeat' split
    all_goals simp [k1]
  intro l f a h
  induction l generalizing a with
  | nil => simp [k1]
  | cons x l ih => simp [k1, ih, h]

@[simp] theorem WriteRun.line_kept (t l : Nat) (f : Nat → Option Byte) (env : MediaEnv) (a : WriteRun) :
    (WriteRun.line t l f env a).after.member = a.after.member ∧
    (WriteRun.line t l f env a).after.now = a.after.now ∧
    (WriteRun.line t l f env a).after.unstored = a.after.unstored ∧
    (WriteRun.line t l f env a).after.host = a.after.host ∧
    (WriteRun.line t l f env a).after.lnk = a.after.lnk ∧
    (WriteRun.line t l f env a).after.rte = a.after.rte ∧
    (WriteRun.line t l f env a).after.cur = a.after.cur ∧
    (WriteRun.line t l f env a).after.thm = a.after.thm ∧
    (WriteRun.line t l f env a).after.pwr = a.after.pwr ∧
    (WriteRun.line t l f env a).after.pending = a.after.pending := by
  have k1 := State.writeBytes_kept
  have h := State.writeBytes_kept t l f env a.after
  unfold WriteRun.line
  dsimp only
  split <;> simp_all [k1]

theorem State.writeRange_kept (lines : List Nat) (pa len : Nat) (b : Nat → Byte) (tileOf : State → Nat → Nat) (env : MediaEnv) (s : State) :
    (State.writeRange lines pa len b tileOf env s).after.member = s.member ∧
    (State.writeRange lines pa len b tileOf env s).after.now = s.now ∧
    (State.writeRange lines pa len b tileOf env s).after.unstored = s.unstored ∧
    (State.writeRange lines pa len b tileOf env s).after.host = s.host ∧
    (State.writeRange lines pa len b tileOf env s).after.lnk = s.lnk ∧
    (State.writeRange lines pa len b tileOf env s).after.rte = s.rte ∧
    (State.writeRange lines pa len b tileOf env s).after.cur = s.cur ∧
    (State.writeRange lines pa len b tileOf env s).after.thm = s.thm ∧
    (State.writeRange lines pa len b tileOf env s).after.pwr = s.pwr ∧
    (State.writeRange lines pa len b tileOf env s).after.pending = s.pending := by
  unfold State.writeRange
  suffices h : ∀ (l : List Nat) (f : WriteRun → Nat → WriteRun) (a : WriteRun),
      (∀ a x, (f a x).after.member = a.after.member ∧
    (f a x).after.now = a.after.now ∧
    (f a x).after.unstored = a.after.unstored ∧
    (f a x).after.host = a.after.host ∧
    (f a x).after.lnk = a.after.lnk ∧
    (f a x).after.rte = a.after.rte ∧
    (f a x).after.cur = a.after.cur ∧
    (f a x).after.thm = a.after.thm ∧
    (f a x).after.pwr = a.after.pwr ∧
    (f a x).after.pending = a.after.pending) → (l.foldl f a).after.member = a.after.member ∧
    (l.foldl f a).after.now = a.after.now ∧
    (l.foldl f a).after.unstored = a.after.unstored ∧
    (l.foldl f a).after.host = a.after.host ∧
    (l.foldl f a).after.lnk = a.after.lnk ∧
    (l.foldl f a).after.rte = a.after.rte ∧
    (l.foldl f a).after.cur = a.after.cur ∧
    (l.foldl f a).after.thm = a.after.thm ∧
    (l.foldl f a).after.pwr = a.after.pwr ∧
    (l.foldl f a).after.pending = a.after.pending by
    exact h _ _ _ (fun a x => by simp)
  intro l f a h
  induction l generalizing a with
  | nil => simp
  | cons x l ih => simp [ih, h]

@[simp] theorem State.readDone_kept (c : Ctx) (pa len : Nat) (env : MediaEnv) (s : State) :
    (State.readDone c pa len env s).after.member = s.member ∧
    (State.readDone c pa len env s).after.now = s.now ∧
    (State.readDone c pa len env s).after.unstored = s.unstored ∧
    (State.readDone c pa len env s).after.host = s.host ∧
    (State.readDone c pa len env s).after.lnk = s.lnk ∧
    (State.readDone c pa len env s).after.rte = s.rte ∧
    (State.readDone c pa len env s).after.cap = s.cap ∧
    (State.readDone c pa len env s).after.cur = s.cur ∧
    (State.readDone c pa len env s).after.thm = s.thm ∧
    (State.readDone c pa len env s).after.pwr = s.pwr ∧
    (State.readDone c pa len env s).after.pending = s.pending := by
  have k1 := State.readRange_kept
  unfold State.readDone
  dsimp only
  repeat' split
  all_goals simp [k1]

@[simp] theorem State.writeDone_kept (c : Ctx) (pa len : Nat) (data : HostData) (env : MediaEnv) (s : State) :
    (State.writeDone c pa len data env s).after.member = s.member ∧
    (State.writeDone c pa len data env s).after.now = s.now ∧
    (State.writeDone c pa len data env s).after.unstored = s.unstored ∧
    (State.writeDone c pa len data env s).after.host = s.host ∧
    (State.writeDone c pa len data env s).after.lnk = s.lnk ∧
    (State.writeDone c pa len data env s).after.rte = s.rte ∧
    (State.writeDone c pa len data env s).after.cur = s.cur ∧
    (State.writeDone c pa len data env s).after.thm = s.thm ∧
    (State.writeDone c pa len data env s).after.pwr = s.pwr ∧
    (State.writeDone c pa len data env s).after.pending = s.pending := by
  have k1 := State.writeRange_kept
  unfold State.writeDone
  dsimp only
  repeat' split
  all_goals simp [k1]

@[simp] theorem State.guarded_member (c : Ctx) (pa len : Nat) (write : Bool) (body : State → State) (s : State) (h : ∀ s, (body s).member = s.member) :
    (State.guarded c pa len write body s).member = s.member := by
  unfold State.guarded
  split
  · simp
  · exact h s

@[simp] theorem State.guarded_now (c : Ctx) (pa len : Nat) (write : Bool) (body : State → State) (s : State) (h : ∀ s, (body s).now = s.now) :
    (State.guarded c pa len write body s).now = s.now := by
  unfold State.guarded
  split
  · simp
  · exact h s

@[simp] theorem State.guarded_unstored (c : Ctx) (pa len : Nat) (write : Bool) (body : State → State) (s : State) (h : ∀ s, (body s).unstored = s.unstored) :
    (State.guarded c pa len write body s).unstored = s.unstored := by
  unfold State.guarded
  split
  · simp
  · exact h s

@[simp] theorem State.guarded_epo (c : Ctx) (pa len : Nat) (write : Bool) (body : State → State) (s : State) (h : ∀ s, (body s).epo = s.epo) :
    (State.guarded c pa len write body s).epo = s.epo := by
  unfold State.guarded
  split
  · simp
  · exact h s

@[simp] theorem State.guarded_cat (c : Ctx) (pa len : Nat) (write : Bool) (body : State → State) (s : State) (h : ∀ s, (body s).cat = s.cat) :
    (State.guarded c pa len write body s).cat = s.cat := by
  unfold State.guarded
  split
  · simp
  · exact h s

@[simp] theorem State.guarded_med (c : Ctx) (pa len : Nat) (write : Bool) (body : State → State) (s : State) (h : ∀ s, (body s).med = s.med) :
    (State.guarded c pa len write body s).med = s.med := by
  unfold State.guarded
  split
  · simp
  · exact h s

@[simp] theorem State.guarded_coh (c : Ctx) (pa len : Nat) (write : Bool) (body : State → State) (s : State) (h : ∀ s, (body s).coh = s.coh) :
    (State.guarded c pa len write body s).coh = s.coh := by
  unfold State.guarded
  split
  · simp
  · exact h s

@[simp] theorem State.guarded_lnk (c : Ctx) (pa len : Nat) (write : Bool) (body : State → State) (s : State) (h : ∀ s, (body s).lnk = s.lnk) :
    (State.guarded c pa len write body s).lnk = s.lnk := by
  unfold State.guarded
  split
  · simp
  · exact h s

@[simp] theorem State.guarded_rte (c : Ctx) (pa len : Nat) (write : Bool) (body : State → State) (s : State) (h : ∀ s, (body s).rte = s.rte) :
    (State.guarded c pa len write body s).rte = s.rte := by
  unfold State.guarded
  split
  · simp
  · exact h s

@[simp] theorem State.guarded_cap (c : Ctx) (pa len : Nat) (write : Bool) (body : State → State) (s : State) (h : ∀ s, (body s).cap = s.cap) :
    (State.guarded c pa len write body s).cap = s.cap := by
  unfold State.guarded
  split
  · simp
  · exact h s

@[simp] theorem State.guarded_cry (c : Ctx) (pa len : Nat) (write : Bool) (body : State → State) (s : State) (h : ∀ s, (body s).cry = s.cry) :
    (State.guarded c pa len write body s).cry = s.cry := by
  unfold State.guarded
  split
  · simp
  · exact h s

@[simp] theorem State.guarded_flt (c : Ctx) (pa len : Nat) (write : Bool) (body : State → State) (s : State) (h : ∀ s, (body s).flt = s.flt) :
    (State.guarded c pa len write body s).flt = s.flt := by
  unfold State.guarded
  split
  · simp
  · exact h s

@[simp] theorem State.guarded_thm (c : Ctx) (pa len : Nat) (write : Bool) (body : State → State) (s : State) (h : ∀ s, (body s).thm = s.thm) :
    (State.guarded c pa len write body s).thm = s.thm := by
  unfold State.guarded
  split
  · simp
  · exact h s

@[simp] theorem State.guarded_pwr (c : Ctx) (pa len : Nat) (write : Bool) (body : State → State) (s : State) (h : ∀ s, (body s).pwr = s.pwr) :
    (State.guarded c pa len write body s).pwr = s.pwr := by
  unfold State.guarded
  split
  · simp
  · exact h s

@[simp] theorem State.guarded_pmc (c : Ctx) (pa len : Nat) (write : Bool) (body : State → State) (s : State) (h : ∀ s, (body s).pmc = s.pmc) :
    (State.guarded c pa len write body s).pmc = s.pmc := by
  unfold State.guarded
  split
  · simp
  · exact h s

@[simp] theorem State.guarded_net (c : Ctx) (pa len : Nat) (write : Bool) (body : State → State) (s : State) (h : ∀ s, (body s).net = s.net) :
    (State.guarded c pa len write body s).net = s.net := by
  unfold State.guarded
  split
  · simp
  · exact h s

@[simp] theorem State.guarded_freeCtr (c : Ctx) (pa len : Nat) (write : Bool) (body : State → State) (s : State) (h : ∀ s, (body s).freeCtr = s.freeCtr) :
    (State.guarded c pa len write body s).freeCtr = s.freeCtr := by
  unfold State.guarded
  split
  · simp
  · exact h s

@[simp] theorem State.guarded_pending (c : Ctx) (pa len : Nat) (write : Bool) (body : State → State) (s : State) (h : ∀ s, (body s).pending = s.pending) :
    (State.guarded c pa len write body s).pending = s.pending := by
  unfold State.guarded
  split
  · simp
  · exact h s

@[simp] theorem State.guarded_cur_lifecycle (c : Ctx) (pa len : Nat) (write : Bool) (body : State → State) (s : State) (h : ∀ s, (body s).cur.lifecycle = s.cur.lifecycle) :
    (State.guarded c pa len write body s).cur.lifecycle = s.cur.lifecycle := by
  unfold State.guarded
  split
  · simp
  · exact h s

@[simp] theorem State.guarded_cur_rootGen (c : Ctx) (pa len : Nat) (write : Bool) (body : State → State) (s : State) (h : ∀ s, (body s).cur.rootGen = s.cur.rootGen) :
    (State.guarded c pa len write body s).cur.rootGen = s.cur.rootGen := by
  unfold State.guarded
  split
  · simp
  · exact h s

@[simp] theorem State.guarded_cur_returns (c : Ctx) (pa len : Nat) (write : Bool) (body : State → State) (s : State) (h : ∀ s, (body s).cur.returns = s.cur.returns) :
    (State.guarded c pa len write body s).cur.returns = s.cur.returns := by
  unfold State.guarded
  split
  · simp
  · exact h s

@[simp] theorem State.guarded_cur_revoked (c : Ctx) (pa len : Nat) (write : Bool) (body : State → State) (s : State) (h : ∀ s, (body s).cur.revoked = s.cur.revoked) :
    (State.guarded c pa len write body s).cur.revoked = s.cur.revoked := by
  unfold State.guarded
  split
  · simp
  · exact h s

@[simp] theorem State.copyRange_kept (c : Ctx) (src dst len : Nat) (env : MediaEnv) (s : State) :
    (State.copyRange c src dst len env s).member = s.member ∧
    (State.copyRange c src dst len env s).now = s.now ∧
    (State.copyRange c src dst len env s).unstored = s.unstored ∧
    (State.copyRange c src dst len env s).lnk = s.lnk ∧
    (State.copyRange c src dst len env s).rte = s.rte ∧
    (State.copyRange c src dst len env s).thm = s.thm ∧
    (State.copyRange c src dst len env s).pwr = s.pwr ∧
    (State.copyRange c src dst len env s).pending = s.pending ∧
    (State.copyRange c src dst len env s).cur.lifecycle = s.cur.lifecycle ∧
    (State.copyRange c src dst len env s).cur.rootGen = s.cur.rootGen ∧
    (State.copyRange c src dst len env s).cur.returns = s.cur.returns ∧
    (State.copyRange c src dst len env s).cur.revoked = s.cur.revoked := by
  have k1 := State.readRange_kept
  have k2 := State.writeRange_kept
  unfold State.copyRange
  dsimp only
  repeat' split
  all_goals simp [k1, k2]

theorem State.addNote_kept (t leaf count epoch : Nat) (s : State) :
    (State.addNote t leaf count epoch s).member = s.member ∧
    (State.addNote t leaf count epoch s).now = s.now ∧
    (State.addNote t leaf count epoch s).regs = s.regs ∧
    (State.addNote t leaf count epoch s).unstored = s.unstored ∧
    (State.addNote t leaf count epoch s).host = s.host ∧
    (State.addNote t leaf count epoch s).epo = s.epo ∧
    (State.addNote t leaf count epoch s).med = s.med ∧
    (State.addNote t leaf count epoch s).coh = s.coh ∧
    (State.addNote t leaf count epoch s).lnk = s.lnk ∧
    (State.addNote t leaf count epoch s).rte = s.rte ∧
    (State.addNote t leaf count epoch s).cap = s.cap ∧
    (State.addNote t leaf count epoch s).cry = s.cry ∧
    (State.addNote t leaf count epoch s).flt = s.flt ∧
    (State.addNote t leaf count epoch s).anl = s.anl ∧
    (State.addNote t leaf count epoch s).cur = s.cur ∧
    (State.addNote t leaf count epoch s).thm = s.thm ∧
    (State.addNote t leaf count epoch s).pwr = s.pwr ∧
    (State.addNote t leaf count epoch s).pmc = s.pmc ∧
    (State.addNote t leaf count epoch s).out = s.out ∧
    (State.addNote t leaf count epoch s).net = s.net ∧
    (State.addNote t leaf count epoch s).freeCtr = s.freeCtr ∧
    (State.addNote t leaf count epoch s).pending = s.pending := by
  unfold State.addNote
  simp

theorem State.unmap_kept (leaf : Bool) (key : Nat) (s : State) :
    (State.unmap leaf key s).member = s.member ∧
    (State.unmap leaf key s).now = s.now ∧
    (State.unmap leaf key s).unstored = s.unstored ∧
    (State.unmap leaf key s).host = s.host ∧
    (State.unmap leaf key s).med = s.med ∧
    (State.unmap leaf key s).coh = s.coh ∧
    (State.unmap leaf key s).lnk = s.lnk ∧
    (State.unmap leaf key s).rte = s.rte ∧
    (State.unmap leaf key s).cap = s.cap ∧
    (State.unmap leaf key s).flt = s.flt ∧
    (State.unmap leaf key s).anl = s.anl ∧
    (State.unmap leaf key s).cur = s.cur ∧
    (State.unmap leaf key s).thm = s.thm ∧
    (State.unmap leaf key s).pwr = s.pwr ∧
    (State.unmap leaf key s).net = s.net ∧
    (State.unmap leaf key s).freeCtr = s.freeCtr ∧
    (State.unmap leaf key s).pending = s.pending := by
  have k1 := State.addNote_kept
  unfold State.unmap
  dsimp only
  repeat' split
  all_goals simp [k1]

@[simp] theorem State.discardRange_kept (c : Ctx) (pa len : Nat) (s : State) :
    (State.discardRange c pa len s).member = s.member ∧
    (State.discardRange c pa len s).now = s.now ∧
    (State.discardRange c pa len s).unstored = s.unstored ∧
    (State.discardRange c pa len s).med = s.med ∧
    (State.discardRange c pa len s).coh = s.coh ∧
    (State.discardRange c pa len s).lnk = s.lnk ∧
    (State.discardRange c pa len s).rte = s.rte ∧
    (State.discardRange c pa len s).cap = s.cap ∧
    (State.discardRange c pa len s).flt = s.flt ∧
    (State.discardRange c pa len s).anl = s.anl ∧
    (State.discardRange c pa len s).thm = s.thm ∧
    (State.discardRange c pa len s).pwr = s.pwr ∧
    (State.discardRange c pa len s).net = s.net ∧
    (State.discardRange c pa len s).freeCtr = s.freeCtr ∧
    (State.discardRange c pa len s).pending = s.pending ∧
    (State.discardRange c pa len s).cur.lifecycle = s.cur.lifecycle ∧
    (State.discardRange c pa len s).cur.rootGen = s.cur.rootGen ∧
    (State.discardRange c pa len s).cur.returns = s.cur.returns ∧
    (State.discardRange c pa len s).cur.revoked = s.cur.revoked := by
  have k1 := State.unmap_kept
  unfold State.discardRange
  simp [k1]

theorem State.stageOlder_kept (line e : Nat) (s : State) :
    (State.stageOlder line e s).member = s.member ∧
    (State.stageOlder line e s).now = s.now ∧
    (State.stageOlder line e s).unstored = s.unstored ∧
    (State.stageOlder line e s).host = s.host ∧
    (State.stageOlder line e s).epo = s.epo ∧
    (State.stageOlder line e s).med = s.med ∧
    (State.stageOlder line e s).lnk = s.lnk ∧
    (State.stageOlder line e s).rte = s.rte ∧
    (State.stageOlder line e s).cap = s.cap ∧
    (State.stageOlder line e s).flt = s.flt ∧
    (State.stageOlder line e s).anl = s.anl ∧
    (State.stageOlder line e s).cur = s.cur ∧
    (State.stageOlder line e s).thm = s.thm ∧
    (State.stageOlder line e s).pwr = s.pwr ∧
    (State.stageOlder line e s).freeCtr = s.freeCtr ∧
    (State.stageOlder line e s).pending = s.pending := by
  unfold State.stageOlder
  simp

theorem State.zeroEntry_kept (leaf : Bool) (key : Nat) (s : State) :
    (State.zeroEntry leaf key s).member = s.member ∧
    (State.zeroEntry leaf key s).now = s.now ∧
    (State.zeroEntry leaf key s).unstored = s.unstored ∧
    (State.zeroEntry leaf key s).host = s.host ∧
    (State.zeroEntry leaf key s).med = s.med ∧
    (State.zeroEntry leaf key s).lnk = s.lnk ∧
    (State.zeroEntry leaf key s).rte = s.rte ∧
    (State.zeroEntry leaf key s).cap = s.cap ∧
    (State.zeroEntry leaf key s).flt = s.flt ∧
    (State.zeroEntry leaf key s).anl = s.anl ∧
    (State.zeroEntry leaf key s).cur = s.cur ∧
    (State.zeroEntry leaf key s).thm = s.thm ∧
    (State.zeroEntry leaf key s).pwr = s.pwr ∧
    (State.zeroEntry leaf key s).net = s.net ∧
    (State.zeroEntry leaf key s).freeCtr = s.freeCtr ∧
    (State.zeroEntry leaf key s).pending = s.pending := by
  have k1 := State.unmap_kept
  unfold State.zeroEntry
  simp [k1]

@[simp] theorem State.zeroRange_kept (c : Ctx) (pa len : Nat) (env : MediaEnv) (s : State) :
    (State.zeroRange c pa len env s).member = s.member ∧
    (State.zeroRange c pa len env s).now = s.now ∧
    (State.zeroRange c pa len env s).unstored = s.unstored ∧
    (State.zeroRange c pa len env s).lnk = s.lnk ∧
    (State.zeroRange c pa len env s).rte = s.rte ∧
    (State.zeroRange c pa len env s).thm = s.thm ∧
    (State.zeroRange c pa len env s).pwr = s.pwr ∧
    (State.zeroRange c pa len env s).pending = s.pending ∧
    (State.zeroRange c pa len env s).cur.lifecycle = s.cur.lifecycle ∧
    (State.zeroRange c pa len env s).cur.rootGen = s.cur.rootGen ∧
    (State.zeroRange c pa len env s).cur.returns = s.cur.returns ∧
    (State.zeroRange c pa len env s).cur.revoked = s.cur.revoked := by
  have k1 := State.stageOlder_kept
  have k2 := State.writeRange_kept
  have k3 := State.zeroEntry_kept
  unfold State.zeroRange
  dsimp only
  repeat' split
  all_goals simp [k1, k2, k3]

theorem State.snoopF_kept (l o : Nat) (s : State) :
    (State.snoopF l o s).member = s.member ∧
    (State.snoopF l o s).now = s.now ∧
    (State.snoopF l o s).unstored = s.unstored ∧
    (State.snoopF l o s).host = s.host ∧
    (State.snoopF l o s).epo = s.epo ∧
    (State.snoopF l o s).med = s.med ∧
    (State.snoopF l o s).lnk = s.lnk ∧
    (State.snoopF l o s).rte = s.rte ∧
    (State.snoopF l o s).cap = s.cap ∧
    (State.snoopF l o s).flt = s.flt ∧
    (State.snoopF l o s).anl = s.anl ∧
    (State.snoopF l o s).cur = s.cur ∧
    (State.snoopF l o s).thm = s.thm ∧
    (State.snoopF l o s).pwr = s.pwr ∧
    (State.snoopF l o s).net = s.net ∧
    (State.snoopF l o s).freeCtr = s.freeCtr ∧
    (State.snoopF l o s).pending = s.pending := by
  unfold State.snoopF
  simp

@[simp] theorem State.flushLine_kept (l : Nat) (s : State) :
    (State.flushLine l s).member = s.member ∧
    (State.flushLine l s).now = s.now ∧
    (State.flushLine l s).unstored = s.unstored ∧
    (State.flushLine l s).host = s.host ∧
    (State.flushLine l s).epo = s.epo ∧
    (State.flushLine l s).med = s.med ∧
    (State.flushLine l s).lnk = s.lnk ∧
    (State.flushLine l s).rte = s.rte ∧
    (State.flushLine l s).cap = s.cap ∧
    (State.flushLine l s).flt = s.flt ∧
    (State.flushLine l s).anl = s.anl ∧
    (State.flushLine l s).cur = s.cur ∧
    (State.flushLine l s).thm = s.thm ∧
    (State.flushLine l s).pwr = s.pwr ∧
    (State.flushLine l s).freeCtr = s.freeCtr ∧
    (State.flushLine l s).pending = s.pending := by
  have k1 := State.snoopF_kept
  unfold State.flushLine
  simp [k1]

theorem State.snoopOut_kept (l o : Nat) (s : State) :
    (State.snoopOut l o s).member = s.member ∧
    (State.snoopOut l o s).now = s.now ∧
    (State.snoopOut l o s).unstored = s.unstored ∧
    (State.snoopOut l o s).epo = s.epo ∧
    (State.snoopOut l o s).med = s.med ∧
    (State.snoopOut l o s).lnk = s.lnk ∧
    (State.snoopOut l o s).rte = s.rte ∧
    (State.snoopOut l o s).cap = s.cap ∧
    (State.snoopOut l o s).flt = s.flt ∧
    (State.snoopOut l o s).cur = s.cur ∧
    (State.snoopOut l o s).thm = s.thm ∧
    (State.snoopOut l o s).pwr = s.pwr ∧
    (State.snoopOut l o s).freeCtr = s.freeCtr ∧
    (State.snoopOut l o s).pending = s.pending := by
  have k1 := State.snoopI_kept
  have k2 := State.stageKept_kept
  have k3 := State.vacateKept_kept
  unfold State.snoopOut
  simp [k1, k2, k3]

theorem State.invalLine_kept (l : Nat) (n : Nat × State) :
    (State.invalLine l n).2.member = n.2.member ∧
    (State.invalLine l n).2.now = n.2.now ∧
    (State.invalLine l n).2.unstored = n.2.unstored ∧
    (State.invalLine l n).2.epo = n.2.epo ∧
    (State.invalLine l n).2.med = n.2.med ∧
    (State.invalLine l n).2.lnk = n.2.lnk ∧
    (State.invalLine l n).2.rte = n.2.rte ∧
    (State.invalLine l n).2.cap = n.2.cap ∧
    (State.invalLine l n).2.flt = n.2.flt ∧
    (State.invalLine l n).2.cur = n.2.cur ∧
    (State.invalLine l n).2.thm = n.2.thm ∧
    (State.invalLine l n).2.pwr = n.2.pwr ∧
    (State.invalLine l n).2.freeCtr = n.2.freeCtr ∧
    (State.invalLine l n).2.pending = n.2.pending := by
  have k1 := State.snoopOut_kept
  unfold State.invalLine
  dsimp only
  refine ⟨(foldl_member _ _ (fun s o => by simp [k1]) _ _).trans (by simp [k1]), (foldl_now _ _ (fun s o => by simp [k1]) _ _).trans (by simp [k1]), (foldl_unstored _ _ (fun s o => by simp [k1]) _ _).trans (by simp [k1]), (foldl_epo _ _ (fun s o => by simp [k1]) _ _).trans (by simp [k1]), (foldl_med _ _ (fun s o => by simp [k1]) _ _).trans (by simp [k1]), (foldl_lnk _ _ (fun s o => by simp [k1]) _ _).trans (by simp [k1]), (foldl_rte _ _ (fun s o => by simp [k1]) _ _).trans (by simp [k1]), (foldl_cap _ _ (fun s o => by simp [k1]) _ _).trans (by simp [k1]), (foldl_flt _ _ (fun s o => by simp [k1]) _ _).trans (by simp [k1]), (foldl_cur _ _ (fun s o => by simp [k1]) _ _).trans (by simp [k1]), (foldl_thm _ _ (fun s o => by simp [k1]) _ _).trans (by simp [k1]), (foldl_pwr _ _ (fun s o => by simp [k1]) _ _).trans (by simp [k1]), (foldl_freeCtr _ _ (fun s o => by simp [k1]) _ _).trans (by simp [k1]), (foldl_pending _ _ (fun s o => by simp [k1]) _ _).trans (by simp [k1])⟩

@[simp] theorem State.invalRange_kept (c : Ctx) (pa len : Nat) (s : State) :
    (State.invalRange c pa len s).member = s.member ∧
    (State.invalRange c pa len s).now = s.now ∧
    (State.invalRange c pa len s).unstored = s.unstored ∧
    (State.invalRange c pa len s).med = s.med ∧
    (State.invalRange c pa len s).lnk = s.lnk ∧
    (State.invalRange c pa len s).rte = s.rte ∧
    (State.invalRange c pa len s).thm = s.thm ∧
    (State.invalRange c pa len s).pending = s.pending ∧
    (State.invalRange c pa len s).pwr.straps = s.pwr.straps ∧
    (State.invalRange c pa len s).cur.lifecycle = s.cur.lifecycle ∧
    (State.invalRange c pa len s).cur.rootGen = s.cur.rootGen ∧
    (State.invalRange c pa len s).cur.returns = s.cur.returns ∧
    (State.invalRange c pa len s).cur.revoked = s.cur.revoked := by
  have k1 := State.invalLine_kept
  unfold State.invalRange
  simp [k1]

end Sys2Proof.Machine
end

