-- ==== Sys2Proof/Laws/KeptTile.lean ====
section
/-! SUPPORT. What each operation leaves as it was: whole parts of the state, and of the power and Curator parts the
straps, the life-cycle state and the fuse words. The lemma of an operation that a row calls itself, or that four or more
operations call, is a simp lemma; the others are cited by name. -/

namespace Sys2Proof.Machine

set_option Elab.async false
set_option linter.unusedTactic false
set_option linter.unusedSimpArgs false
set_option linter.unusedVariables false

@[simp] theorem State.sendPacket_kept (t c k : Nat) (p : Packet) (s : State) :
    (State.sendPacket t c k p s).member = s.member ∧
    (State.sendPacket t c k p s).now = s.now ∧
    (State.sendPacket t c k p s).regs = s.regs ∧
    (State.sendPacket t c k p s).unstored = s.unstored ∧
    (State.sendPacket t c k p s).host = s.host ∧
    (State.sendPacket t c k p s).epo = s.epo ∧
    (State.sendPacket t c k p s).cat = s.cat ∧
    (State.sendPacket t c k p s).med = s.med ∧
    (State.sendPacket t c k p s).coh = s.coh ∧
    (State.sendPacket t c k p s).lnk = s.lnk ∧
    (State.sendPacket t c k p s).rte = s.rte ∧
    (State.sendPacket t c k p s).cap = s.cap ∧
    (State.sendPacket t c k p s).cry = s.cry ∧
    (State.sendPacket t c k p s).flt = s.flt ∧
    (State.sendPacket t c k p s).anl = s.anl ∧
    (State.sendPacket t c k p s).cur = s.cur ∧
    (State.sendPacket t c k p s).thm = s.thm ∧
    (State.sendPacket t c k p s).pwr = s.pwr ∧
    (State.sendPacket t c k p s).pmc = s.pmc ∧
    (State.sendPacket t c k p s).net = s.net ∧
    (State.sendPacket t c k p s).freeCtr = s.freeCtr ∧
    (State.sendPacket t c k p s).pending = s.pending := by
  unfold State.sendPacket
  simp

@[simp] theorem State.sendBlock_kept (t c m : Nat) (cmd : WitisCmd) (page unit : Nat) (offs : List Byte) (s : State) :
    (State.sendBlock t c m cmd page unit offs s).member = s.member ∧
    (State.sendBlock t c m cmd page unit offs s).now = s.now ∧
    (State.sendBlock t c m cmd page unit offs s).regs = s.regs ∧
    (State.sendBlock t c m cmd page unit offs s).unstored = s.unstored ∧
    (State.sendBlock t c m cmd page unit offs s).host = s.host ∧
    (State.sendBlock t c m cmd page unit offs s).epo = s.epo ∧
    (State.sendBlock t c m cmd page unit offs s).cat = s.cat ∧
    (State.sendBlock t c m cmd page unit offs s).med = s.med ∧
    (State.sendBlock t c m cmd page unit offs s).coh = s.coh ∧
    (State.sendBlock t c m cmd page unit offs s).lnk = s.lnk ∧
    (State.sendBlock t c m cmd page unit offs s).rte = s.rte ∧
    (State.sendBlock t c m cmd page unit offs s).cap = s.cap ∧
    (State.sendBlock t c m cmd page unit offs s).cry = s.cry ∧
    (State.sendBlock t c m cmd page unit offs s).flt = s.flt ∧
    (State.sendBlock t c m cmd page unit offs s).anl = s.anl ∧
    (State.sendBlock t c m cmd page unit offs s).cur = s.cur ∧
    (State.sendBlock t c m cmd page unit offs s).thm = s.thm ∧
    (State.sendBlock t c m cmd page unit offs s).pwr = s.pwr ∧
    (State.sendBlock t c m cmd page unit offs s).pmc = s.pmc ∧
    (State.sendBlock t c m cmd page unit offs s).net = s.net ∧
    (State.sendBlock t c m cmd page unit offs s).freeCtr = s.freeCtr ∧
    (State.sendBlock t c m cmd page unit offs s).pending = s.pending := by
  unfold State.sendBlock
  simp

theorem State.warm_kept (f : Nat) (s : State) :
    (State.warm f s).member = s.member ∧
    (State.warm f s).now = s.now ∧
    (State.warm f s).regs = s.regs ∧
    (State.warm f s).unstored = s.unstored ∧
    (State.warm f s).host = s.host ∧
    (State.warm f s).epo = s.epo ∧
    (State.warm f s).med = s.med ∧
    (State.warm f s).coh = s.coh ∧
    (State.warm f s).lnk = s.lnk ∧
    (State.warm f s).rte = s.rte ∧
    (State.warm f s).cap = s.cap ∧
    (State.warm f s).cry = s.cry ∧
    (State.warm f s).flt = s.flt ∧
    (State.warm f s).anl = s.anl ∧
    (State.warm f s).cur = s.cur ∧
    (State.warm f s).thm = s.thm ∧
    (State.warm f s).pwr = s.pwr ∧
    (State.warm f s).pmc = s.pmc ∧
    (State.warm f s).out = s.out ∧
    (State.warm f s).net = s.net ∧
    (State.warm f s).freeCtr = s.freeCtr ∧
    (State.warm f s).pending = s.pending := by
  unfold State.warm
  simp

theorem State.takeGroup_kept (t g : Nat) (s : State) :
    (State.takeGroup t g s).member = s.member ∧
    (State.takeGroup t g s).now = s.now ∧
    (State.takeGroup t g s).regs = s.regs ∧
    (State.takeGroup t g s).unstored = s.unstored ∧
    (State.takeGroup t g s).host = s.host ∧
    (State.takeGroup t g s).epo = s.epo ∧
    (State.takeGroup t g s).med = s.med ∧
    (State.takeGroup t g s).coh = s.coh ∧
    (State.takeGroup t g s).lnk = s.lnk ∧
    (State.takeGroup t g s).rte = s.rte ∧
    (State.takeGroup t g s).cap = s.cap ∧
    (State.takeGroup t g s).cry = s.cry ∧
    (State.takeGroup t g s).flt = s.flt ∧
    (State.takeGroup t g s).anl = s.anl ∧
    (State.takeGroup t g s).cur = s.cur ∧
    (State.takeGroup t g s).thm = s.thm ∧
    (State.takeGroup t g s).pwr = s.pwr ∧
    (State.takeGroup t g s).pmc = s.pmc ∧
    (State.takeGroup t g s).out = s.out ∧
    (State.takeGroup t g s).net = s.net ∧
    (State.takeGroup t g s).freeCtr = s.freeCtr ∧
    (State.takeGroup t g s).pending = s.pending := by
  unfold State.takeGroup
  simp

theorem State.splitFolio_kept (t f epoch : Nat) (s : State) :
    (State.splitFolio t f epoch s).member = s.member ∧
    (State.splitFolio t f epoch s).now = s.now ∧
    (State.splitFolio t f epoch s).unstored = s.unstored ∧
    (State.splitFolio t f epoch s).host = s.host ∧
    (State.splitFolio t f epoch s).epo = s.epo ∧
    (State.splitFolio t f epoch s).med = s.med ∧
    (State.splitFolio t f epoch s).coh = s.coh ∧
    (State.splitFolio t f epoch s).lnk = s.lnk ∧
    (State.splitFolio t f epoch s).rte = s.rte ∧
    (State.splitFolio t f epoch s).cap = s.cap ∧
    (State.splitFolio t f epoch s).flt = s.flt ∧
    (State.splitFolio t f epoch s).anl = s.anl ∧
    (State.splitFolio t f epoch s).cur = s.cur ∧
    (State.splitFolio t f epoch s).thm = s.thm ∧
    (State.splitFolio t f epoch s).pwr = s.pwr ∧
    (State.splitFolio t f epoch s).net = s.net ∧
    (State.splitFolio t f epoch s).freeCtr = s.freeCtr ∧
    (State.splitFolio t f epoch s).pending = s.pending := by
  have k1 := State.takeGroup_kept
  unfold State.splitFolio
  simp [k1]

theorem State.maybeSplit_kept (t epoch : Nat) (p : Piece) (s : State) :
    (State.maybeSplit t epoch p s).member = s.member ∧
    (State.maybeSplit t epoch p s).now = s.now ∧
    (State.maybeSplit t epoch p s).unstored = s.unstored ∧
    (State.maybeSplit t epoch p s).host = s.host ∧
    (State.maybeSplit t epoch p s).epo = s.epo ∧
    (State.maybeSplit t epoch p s).med = s.med ∧
    (State.maybeSplit t epoch p s).coh = s.coh ∧
    (State.maybeSplit t epoch p s).lnk = s.lnk ∧
    (State.maybeSplit t epoch p s).rte = s.rte ∧
    (State.maybeSplit t epoch p s).cap = s.cap ∧
    (State.maybeSplit t epoch p s).flt = s.flt ∧
    (State.maybeSplit t epoch p s).anl = s.anl ∧
    (State.maybeSplit t epoch p s).cur = s.cur ∧
    (State.maybeSplit t epoch p s).thm = s.thm ∧
    (State.maybeSplit t epoch p s).pwr = s.pwr ∧
    (State.maybeSplit t epoch p s).net = s.net ∧
    (State.maybeSplit t epoch p s).freeCtr = s.freeCtr ∧
    (State.maybeSplit t epoch p s).pending = s.pending := by
  have k1 := State.splitFolio_kept
  unfold State.maybeSplit
  dsimp only
  repeat' split
  all_goals simp [k1]

theorem State.heatPiece_kept (t : Nat) (p : Piece) (s : State) :
    (State.heatPiece t p s).member = s.member ∧
    (State.heatPiece t p s).now = s.now ∧
    (State.heatPiece t p s).regs = s.regs ∧
    (State.heatPiece t p s).unstored = s.unstored ∧
    (State.heatPiece t p s).host = s.host ∧
    (State.heatPiece t p s).epo = s.epo ∧
    (State.heatPiece t p s).med = s.med ∧
    (State.heatPiece t p s).coh = s.coh ∧
    (State.heatPiece t p s).lnk = s.lnk ∧
    (State.heatPiece t p s).rte = s.rte ∧
    (State.heatPiece t p s).cap = s.cap ∧
    (State.heatPiece t p s).cry = s.cry ∧
    (State.heatPiece t p s).flt = s.flt ∧
    (State.heatPiece t p s).anl = s.anl ∧
    (State.heatPiece t p s).cur = s.cur ∧
    (State.heatPiece t p s).thm = s.thm ∧
    (State.heatPiece t p s).pwr = s.pwr ∧
    (State.heatPiece t p s).pmc = s.pmc ∧
    (State.heatPiece t p s).out = s.out ∧
    (State.heatPiece t p s).net = s.net ∧
    (State.heatPiece t p s).freeCtr = s.freeCtr ∧
    (State.heatPiece t p s).pending = s.pending := by
  have k1 := State.warm_kept
  unfold State.heatPiece
  dsimp only
  repeat' split
  all_goals simp [k1]

theorem State.addPage_kept (t spn epoch : Nat) (reloc merge : Bool) (items : List PageItem) (s : State) :
    (State.addPage t spn epoch reloc merge items s).member = s.member ∧
    (State.addPage t spn epoch reloc merge items s).now = s.now ∧
    (State.addPage t spn epoch reloc merge items s).unstored = s.unstored ∧
    (State.addPage t spn epoch reloc merge items s).host = s.host ∧
    (State.addPage t spn epoch reloc merge items s).epo = s.epo ∧
    (State.addPage t spn epoch reloc merge items s).coh = s.coh ∧
    (State.addPage t spn epoch reloc merge items s).lnk = s.lnk ∧
    (State.addPage t spn epoch reloc merge items s).rte = s.rte ∧
    (State.addPage t spn epoch reloc merge items s).cap = s.cap ∧
    (State.addPage t spn epoch reloc merge items s).cry = s.cry ∧
    (State.addPage t spn epoch reloc merge items s).flt = s.flt ∧
    (State.addPage t spn epoch reloc merge items s).anl = s.anl ∧
    (State.addPage t spn epoch reloc merge items s).cur = s.cur ∧
    (State.addPage t spn epoch reloc merge items s).thm = s.thm ∧
    (State.addPage t spn epoch reloc merge items s).pwr = s.pwr ∧
    (State.addPage t spn epoch reloc merge items s).pmc = s.pmc ∧
    (State.addPage t spn epoch reloc merge items s).out = s.out ∧
    (State.addPage t spn epoch reloc merge items s).net = s.net ∧
    (State.addPage t spn epoch reloc merge items s).freeCtr = s.freeCtr ∧
    (State.addPage t spn epoch reloc merge items s).pending = s.pending := by
  have k1 := State.openBlock_kept
  have k2 := State.queueLoads_kept
  unfold State.addPage
  simp [k1, k2]

theorem State.takeNotes_kept (t e n : Nat) (s : State) :
    (State.takeNotes t e n s).member = s.member ∧
    (State.takeNotes t e n s).now = s.now ∧
    (State.takeNotes t e n s).regs = s.regs ∧
    (State.takeNotes t e n s).unstored = s.unstored ∧
    (State.takeNotes t e n s).host = s.host ∧
    (State.takeNotes t e n s).epo = s.epo ∧
    (State.takeNotes t e n s).med = s.med ∧
    (State.takeNotes t e n s).coh = s.coh ∧
    (State.takeNotes t e n s).lnk = s.lnk ∧
    (State.takeNotes t e n s).rte = s.rte ∧
    (State.takeNotes t e n s).cap = s.cap ∧
    (State.takeNotes t e n s).cry = s.cry ∧
    (State.takeNotes t e n s).flt = s.flt ∧
    (State.takeNotes t e n s).anl = s.anl ∧
    (State.takeNotes t e n s).cur = s.cur ∧
    (State.takeNotes t e n s).thm = s.thm ∧
    (State.takeNotes t e n s).pwr = s.pwr ∧
    (State.takeNotes t e n s).pmc = s.pmc ∧
    (State.takeNotes t e n s).out = s.out ∧
    (State.takeNotes t e n s).net = s.net ∧
    (State.takeNotes t e n s).freeCtr = s.freeCtr ∧
    (State.takeNotes t e n s).pending = s.pending := by
  unfold State.takeNotes
  simp

@[simp] theorem State.stripeProgram_kept (t spn : Nat) (pieces : List Piece) (pad : Nat) (s : State) :
    (State.stripeProgram t spn pieces pad s).member = s.member ∧
    (State.stripeProgram t spn pieces pad s).now = s.now ∧
    (State.stripeProgram t spn pieces pad s).unstored = s.unstored ∧
    (State.stripeProgram t spn pieces pad s).host = s.host ∧
    (State.stripeProgram t spn pieces pad s).epo = s.epo ∧
    (State.stripeProgram t spn pieces pad s).coh = s.coh ∧
    (State.stripeProgram t spn pieces pad s).lnk = s.lnk ∧
    (State.stripeProgram t spn pieces pad s).rte = s.rte ∧
    (State.stripeProgram t spn pieces pad s).cap = s.cap ∧
    (State.stripeProgram t spn pieces pad s).flt = s.flt ∧
    (State.stripeProgram t spn pieces pad s).anl = s.anl ∧
    (State.stripeProgram t spn pieces pad s).cur = s.cur ∧
    (State.stripeProgram t spn pieces pad s).thm = s.thm ∧
    (State.stripeProgram t spn pieces pad s).pwr = s.pwr ∧
    (State.stripeProgram t spn pieces pad s).net = s.net ∧
    (State.stripeProgram t spn pieces pad s).freeCtr = s.freeCtr ∧
    (State.stripeProgram t spn pieces pad s).pending = s.pending := by
  have k1 := State.addPage_kept
  have k2 := State.heatPiece_kept
  have k3 := State.maybeSplit_kept
  unfold State.stripeProgram
  simp [k1, k2, k3]

theorem State.placeItem_kept (t spn epoch : Nat) (i : PageItem) (s : State) :
    (State.placeItem t spn epoch i s).member = s.member ∧
    (State.placeItem t spn epoch i s).now = s.now ∧
    (State.placeItem t spn epoch i s).unstored = s.unstored ∧
    (State.placeItem t spn epoch i s).host = s.host ∧
    (State.placeItem t spn epoch i s).epo = s.epo ∧
    (State.placeItem t spn epoch i s).med = s.med ∧
    (State.placeItem t spn epoch i s).coh = s.coh ∧
    (State.placeItem t spn epoch i s).lnk = s.lnk ∧
    (State.placeItem t spn epoch i s).rte = s.rte ∧
    (State.placeItem t spn epoch i s).cap = s.cap ∧
    (State.placeItem t spn epoch i s).flt = s.flt ∧
    (State.placeItem t spn epoch i s).anl = s.anl ∧
    (State.placeItem t spn epoch i s).cur = s.cur ∧
    (State.placeItem t spn epoch i s).thm = s.thm ∧
    (State.placeItem t spn epoch i s).pwr = s.pwr ∧
    (State.placeItem t spn epoch i s).net = s.net ∧
    (State.placeItem t spn epoch i s).freeCtr = s.freeCtr ∧
    (State.placeItem t spn epoch i s).pending = s.pending := by
  have k1 := State.splitFolio_kept
  unfold State.placeItem
  dsimp only
  repeat' split
  all_goals simp [k1]

theorem State.mergeDone_kept (t spn : Nat) (i : PageItem) (s : State) :
    (State.mergeDone t spn i s).member = s.member ∧
    (State.mergeDone t spn i s).now = s.now ∧
    (State.mergeDone t spn i s).unstored = s.unstored ∧
    (State.mergeDone t spn i s).host = s.host ∧
    (State.mergeDone t spn i s).epo = s.epo ∧
    (State.mergeDone t spn i s).med = s.med ∧
    (State.mergeDone t spn i s).coh = s.coh ∧
    (State.mergeDone t spn i s).lnk = s.lnk ∧
    (State.mergeDone t spn i s).rte = s.rte ∧
    (State.mergeDone t spn i s).cap = s.cap ∧
    (State.mergeDone t spn i s).flt = s.flt ∧
    (State.mergeDone t spn i s).anl = s.anl ∧
    (State.mergeDone t spn i s).cur = s.cur ∧
    (State.mergeDone t spn i s).thm = s.thm ∧
    (State.mergeDone t spn i s).pwr = s.pwr ∧
    (State.mergeDone t spn i s).net = s.net ∧
    (State.mergeDone t spn i s).freeCtr = s.freeCtr ∧
    (State.mergeDone t spn i s).pending = s.pending := by
  unfold State.mergeDone
  dsimp only
  repeat' split
  all_goals simp

@[simp] theorem State.programDone_kept (t spn : Nat) (s : State) :
    (State.programDone t spn s).member = s.member ∧
    (State.programDone t spn s).now = s.now ∧
    (State.programDone t spn s).unstored = s.unstored ∧
    (State.programDone t spn s).host = s.host ∧
    (State.programDone t spn s).epo = s.epo ∧
    (State.programDone t spn s).coh = s.coh ∧
    (State.programDone t spn s).lnk = s.lnk ∧
    (State.programDone t spn s).rte = s.rte ∧
    (State.programDone t spn s).cap = s.cap ∧
    (State.programDone t spn s).flt = s.flt ∧
    (State.programDone t spn s).anl = s.anl ∧
    (State.programDone t spn s).cur = s.cur ∧
    (State.programDone t spn s).thm = s.thm ∧
    (State.programDone t spn s).pwr = s.pwr ∧
    (State.programDone t spn s).net = s.net ∧
    (State.programDone t spn s).freeCtr = s.freeCtr ∧
    (State.programDone t spn s).pending = s.pending := by
  have k1 := State.markEighth_kept
  have k2 := State.mergeDone_kept
  have k3 := State.placeItem_kept
  have k4 := State.takeNotes_kept
  unfold State.programDone
  repeat' split
  all_goals simp [k1, k2, k3, k4, *]

@[simp] theorem State.cool_kept (t : Nat) (s : State) :
    (State.cool t s).member = s.member ∧
    (State.cool t s).now = s.now ∧
    (State.cool t s).regs = s.regs ∧
    (State.cool t s).unstored = s.unstored ∧
    (State.cool t s).host = s.host ∧
    (State.cool t s).epo = s.epo ∧
    (State.cool t s).med = s.med ∧
    (State.cool t s).coh = s.coh ∧
    (State.cool t s).lnk = s.lnk ∧
    (State.cool t s).rte = s.rte ∧
    (State.cool t s).cap = s.cap ∧
    (State.cool t s).cry = s.cry ∧
    (State.cool t s).flt = s.flt ∧
    (State.cool t s).anl = s.anl ∧
    (State.cool t s).cur = s.cur ∧
    (State.cool t s).thm = s.thm ∧
    (State.cool t s).pwr = s.pwr ∧
    (State.cool t s).pmc = s.pmc ∧
    (State.cool t s).out = s.out ∧
    (State.cool t s).net = s.net ∧
    (State.cool t s).freeCtr = s.freeCtr ∧
    (State.cool t s).pending = s.pending := by
  unfold State.cool
  simp

theorem State.queueReads_kept (t src : Nat) (quarters : List Nat) (s : State) :
    (State.queueReads t src quarters s).member = s.member ∧
    (State.queueReads t src quarters s).now = s.now ∧
    (State.queueReads t src quarters s).regs = s.regs ∧
    (State.queueReads t src quarters s).unstored = s.unstored ∧
    (State.queueReads t src quarters s).host = s.host ∧
    (State.queueReads t src quarters s).epo = s.epo ∧
    (State.queueReads t src quarters s).cat = s.cat ∧
    (State.queueReads t src quarters s).coh = s.coh ∧
    (State.queueReads t src quarters s).lnk = s.lnk ∧
    (State.queueReads t src quarters s).rte = s.rte ∧
    (State.queueReads t src quarters s).cap = s.cap ∧
    (State.queueReads t src quarters s).cry = s.cry ∧
    (State.queueReads t src quarters s).flt = s.flt ∧
    (State.queueReads t src quarters s).anl = s.anl ∧
    (State.queueReads t src quarters s).cur = s.cur ∧
    (State.queueReads t src quarters s).thm = s.thm ∧
    (State.queueReads t src quarters s).pwr = s.pwr ∧
    (State.queueReads t src quarters s).pmc = s.pmc ∧
    (State.queueReads t src quarters s).out = s.out ∧
    (State.queueReads t src quarters s).net = s.net ∧
    (State.queueReads t src quarters s).freeCtr = s.freeCtr ∧
    (State.queueReads t src quarters s).pending = s.pending := by
  unfold State.queueReads
  simp

theorem State.queueMergeReads_kept (t f : Nat) (s : State) :
    (State.queueMergeReads t f s).member = s.member ∧
    (State.queueMergeReads t f s).now = s.now ∧
    (State.queueMergeReads t f s).regs = s.regs ∧
    (State.queueMergeReads t f s).unstored = s.unstored ∧
    (State.queueMergeReads t f s).host = s.host ∧
    (State.queueMergeReads t f s).epo = s.epo ∧
    (State.queueMergeReads t f s).cat = s.cat ∧
    (State.queueMergeReads t f s).coh = s.coh ∧
    (State.queueMergeReads t f s).lnk = s.lnk ∧
    (State.queueMergeReads t f s).rte = s.rte ∧
    (State.queueMergeReads t f s).cap = s.cap ∧
    (State.queueMergeReads t f s).cry = s.cry ∧
    (State.queueMergeReads t f s).flt = s.flt ∧
    (State.queueMergeReads t f s).anl = s.anl ∧
    (State.queueMergeReads t f s).cur = s.cur ∧
    (State.queueMergeReads t f s).thm = s.thm ∧
    (State.queueMergeReads t f s).pwr = s.pwr ∧
    (State.queueMergeReads t f s).pmc = s.pmc ∧
    (State.queueMergeReads t f s).out = s.out ∧
    (State.queueMergeReads t f s).net = s.net ∧
    (State.queueMergeReads t f s).freeCtr = s.freeCtr ∧
    (State.queueMergeReads t f s).pending = s.pending := by
  have k1 := State.queueReads_kept
  unfold State.queueMergeReads
  (try dsimp only)
  refine ⟨foldl_member _ _ ?_ _ _, foldl_now _ _ ?_ _ _, foldl_regs _ _ ?_ _ _, foldl_unstored _ _ ?_ _ _, foldl_host _ _ ?_ _ _, foldl_epo _ _ ?_ _ _, foldl_cat _ _ ?_ _ _, foldl_coh _ _ ?_ _ _, foldl_lnk _ _ ?_ _ _, foldl_rte _ _ ?_ _ _, foldl_cap _ _ ?_ _ _, foldl_cry _ _ ?_ _ _, foldl_flt _ _ ?_ _ _, foldl_anl _ _ ?_ _ _, foldl_cur _ _ ?_ _ _, foldl_thm _ _ ?_ _ _, foldl_pwr _ _ ?_ _ _, foldl_pmc _ _ ?_ _ _, foldl_out _ _ ?_ _ _, foldl_net _ _ ?_ _ _, foldl_freeCtr _ _ ?_ _ _, foldl_pending _ _ ?_ _ _⟩
  all_goals
    intro s x
    (try dsimp only)
    repeat' split
    all_goals simp [k1]

@[simp] theorem State.mergeFolio_kept (t f spn slot : Nat) (s : State) :
    (State.mergeFolio t f spn slot s).member = s.member ∧
    (State.mergeFolio t f spn slot s).now = s.now ∧
    (State.mergeFolio t f spn slot s).unstored = s.unstored ∧
    (State.mergeFolio t f spn slot s).host = s.host ∧
    (State.mergeFolio t f spn slot s).epo = s.epo ∧
    (State.mergeFolio t f spn slot s).coh = s.coh ∧
    (State.mergeFolio t f spn slot s).lnk = s.lnk ∧
    (State.mergeFolio t f spn slot s).rte = s.rte ∧
    (State.mergeFolio t f spn slot s).cap = s.cap ∧
    (State.mergeFolio t f spn slot s).cry = s.cry ∧
    (State.mergeFolio t f spn slot s).flt = s.flt ∧
    (State.mergeFolio t f spn slot s).anl = s.anl ∧
    (State.mergeFolio t f spn slot s).cur = s.cur ∧
    (State.mergeFolio t f spn slot s).thm = s.thm ∧
    (State.mergeFolio t f spn slot s).pwr = s.pwr ∧
    (State.mergeFolio t f spn slot s).pmc = s.pmc ∧
    (State.mergeFolio t f spn slot s).out = s.out ∧
    (State.mergeFolio t f spn slot s).net = s.net ∧
    (State.mergeFolio t f spn slot s).freeCtr = s.freeCtr ∧
    (State.mergeFolio t f spn slot s).pending = s.pending := by
  have k1 := State.addPage_kept
  have k2 := State.queueMergeReads_kept
  have k3 := State.weedSpent_kept
  unfold State.mergeFolio
  simp [k1, k2, k3]

@[simp] theorem State.setReloc_kept (t : Nat) (r : Option Reloc) (s : State) :
    (State.setReloc t r s).member = s.member ∧
    (State.setReloc t r s).now = s.now ∧
    (State.setReloc t r s).regs = s.regs ∧
    (State.setReloc t r s).unstored = s.unstored ∧
    (State.setReloc t r s).host = s.host ∧
    (State.setReloc t r s).epo = s.epo ∧
    (State.setReloc t r s).med = s.med ∧
    (State.setReloc t r s).coh = s.coh ∧
    (State.setReloc t r s).lnk = s.lnk ∧
    (State.setReloc t r s).rte = s.rte ∧
    (State.setReloc t r s).cap = s.cap ∧
    (State.setReloc t r s).cry = s.cry ∧
    (State.setReloc t r s).flt = s.flt ∧
    (State.setReloc t r s).anl = s.anl ∧
    (State.setReloc t r s).cur = s.cur ∧
    (State.setReloc t r s).thm = s.thm ∧
    (State.setReloc t r s).pwr = s.pwr ∧
    (State.setReloc t r s).pmc = s.pmc ∧
    (State.setReloc t r s).out = s.out ∧
    (State.setReloc t r s).net = s.net ∧
    (State.setReloc t r s).freeCtr = s.freeCtr ∧
    (State.setReloc t r s).pending = s.pending := by
  unfold State.setReloc
  simp

@[simp] theorem State.relocate_kept (t victim dest spn : Nat) (s : State) :
    (State.relocate t victim dest spn s).member = s.member ∧
    (State.relocate t victim dest spn s).now = s.now ∧
    (State.relocate t victim dest spn s).unstored = s.unstored ∧
    (State.relocate t victim dest spn s).host = s.host ∧
    (State.relocate t victim dest spn s).epo = s.epo ∧
    (State.relocate t victim dest spn s).coh = s.coh ∧
    (State.relocate t victim dest spn s).lnk = s.lnk ∧
    (State.relocate t victim dest spn s).rte = s.rte ∧
    (State.relocate t victim dest spn s).cap = s.cap ∧
    (State.relocate t victim dest spn s).cry = s.cry ∧
    (State.relocate t victim dest spn s).flt = s.flt ∧
    (State.relocate t victim dest spn s).anl = s.anl ∧
    (State.relocate t victim dest spn s).cur = s.cur ∧
    (State.relocate t victim dest spn s).thm = s.thm ∧
    (State.relocate t victim dest spn s).pwr = s.pwr ∧
    (State.relocate t victim dest spn s).pmc = s.pmc ∧
    (State.relocate t victim dest spn s).out = s.out ∧
    (State.relocate t victim dest spn s).net = s.net ∧
    (State.relocate t victim dest spn s).freeCtr = s.freeCtr ∧
    (State.relocate t victim dest spn s).pending = s.pending := by
  have k1 := State.addPage_kept
  have k2 := State.queueErase_kept
  have k3 := State.queueReads_kept
  have k4 := State.showRate_kept
  have k5 := State.weedSpent_kept
  unfold State.relocate
  dsimp only
  repeat' split
  all_goals simp [k1, k2, k3, k4, k5]

theorem State.repointEntry_kept (t src dst : Nat) (e : Bool × Nat) (s : State) :
    (State.repointEntry t src dst e s).member = s.member ∧
    (State.repointEntry t src dst e s).now = s.now ∧
    (State.repointEntry t src dst e s).unstored = s.unstored ∧
    (State.repointEntry t src dst e s).host = s.host ∧
    (State.repointEntry t src dst e s).epo = s.epo ∧
    (State.repointEntry t src dst e s).med = s.med ∧
    (State.repointEntry t src dst e s).coh = s.coh ∧
    (State.repointEntry t src dst e s).lnk = s.lnk ∧
    (State.repointEntry t src dst e s).rte = s.rte ∧
    (State.repointEntry t src dst e s).cap = s.cap ∧
    (State.repointEntry t src dst e s).flt = s.flt ∧
    (State.repointEntry t src dst e s).anl = s.anl ∧
    (State.repointEntry t src dst e s).cur = s.cur ∧
    (State.repointEntry t src dst e s).thm = s.thm ∧
    (State.repointEntry t src dst e s).pwr = s.pwr ∧
    (State.repointEntry t src dst e s).net = s.net ∧
    (State.repointEntry t src dst e s).freeCtr = s.freeCtr ∧
    (State.repointEntry t src dst e s).pending = s.pending := by
  unfold State.repointEntry
  repeat' split
  all_goals simp [*]

theorem State.repoint_kept (t src dst : Nat) (p : Page) (s : State) :
    (State.repoint t src dst p s).member = s.member ∧
    (State.repoint t src dst p s).now = s.now ∧
    (State.repoint t src dst p s).unstored = s.unstored ∧
    (State.repoint t src dst p s).host = s.host ∧
    (State.repoint t src dst p s).epo = s.epo ∧
    (State.repoint t src dst p s).med = s.med ∧
    (State.repoint t src dst p s).coh = s.coh ∧
    (State.repoint t src dst p s).lnk = s.lnk ∧
    (State.repoint t src dst p s).rte = s.rte ∧
    (State.repoint t src dst p s).cap = s.cap ∧
    (State.repoint t src dst p s).flt = s.flt ∧
    (State.repoint t src dst p s).anl = s.anl ∧
    (State.repoint t src dst p s).cur = s.cur ∧
    (State.repoint t src dst p s).thm = s.thm ∧
    (State.repoint t src dst p s).pwr = s.pwr ∧
    (State.repoint t src dst p s).net = s.net ∧
    (State.repoint t src dst p s).freeCtr = s.freeCtr ∧
    (State.repoint t src dst p s).pending = s.pending := by
  have k1 := State.repointEntry_kept
  unfold State.repoint
  simp [k1]

theorem State.copyDone_kept (t : Nat) (r : Reloc) (p : Page) (s : State) :
    (State.copyDone t r p s).member = s.member ∧
    (State.copyDone t r p s).now = s.now ∧
    (State.copyDone t r p s).unstored = s.unstored ∧
    (State.copyDone t r p s).host = s.host ∧
    (State.copyDone t r p s).epo = s.epo ∧
    (State.copyDone t r p s).coh = s.coh ∧
    (State.copyDone t r p s).lnk = s.lnk ∧
    (State.copyDone t r p s).rte = s.rte ∧
    (State.copyDone t r p s).cap = s.cap ∧
    (State.copyDone t r p s).flt = s.flt ∧
    (State.copyDone t r p s).anl = s.anl ∧
    (State.copyDone t r p s).cur = s.cur ∧
    (State.copyDone t r p s).thm = s.thm ∧
    (State.copyDone t r p s).pwr = s.pwr ∧
    (State.copyDone t r p s).net = s.net ∧
    (State.copyDone t r p s).freeCtr = s.freeCtr ∧
    (State.copyDone t r p s).pending = s.pending := by
  have k1 := State.markEighth_kept
  have k2 := State.queueErase_kept
  have k3 := State.repoint_kept
  unfold State.copyDone
  simp [k1, k2, k3]

theorem State.failPage_kept (t spn : Nat) (s : State) :
    (State.failPage t spn s).member = s.member ∧
    (State.failPage t spn s).now = s.now ∧
    (State.failPage t spn s).unstored = s.unstored ∧
    (State.failPage t spn s).host = s.host ∧
    (State.failPage t spn s).epo = s.epo ∧
    (State.failPage t spn s).med = s.med ∧
    (State.failPage t spn s).coh = s.coh ∧
    (State.failPage t spn s).lnk = s.lnk ∧
    (State.failPage t spn s).rte = s.rte ∧
    (State.failPage t spn s).cap = s.cap ∧
    (State.failPage t spn s).cry = s.cry ∧
    (State.failPage t spn s).flt = s.flt ∧
    (State.failPage t spn s).anl = s.anl ∧
    (State.failPage t spn s).cur = s.cur ∧
    (State.failPage t spn s).thm = s.thm ∧
    (State.failPage t spn s).pwr = s.pwr ∧
    (State.failPage t spn s).pmc = s.pmc ∧
    (State.failPage t spn s).out = s.out ∧
    (State.failPage t spn s).net = s.net ∧
    (State.failPage t spn s).freeCtr = s.freeCtr ∧
    (State.failPage t spn s).pending = s.pending := by
  unfold State.failPage
  dsimp only
  repeat' split
  all_goals simp

theorem State.copyAgain_kept (t spn : Nat) (s : State) :
    (State.copyAgain t spn s).member = s.member ∧
    (State.copyAgain t spn s).now = s.now ∧
    (State.copyAgain t spn s).unstored = s.unstored ∧
    (State.copyAgain t spn s).host = s.host ∧
    (State.copyAgain t spn s).epo = s.epo ∧
    (State.copyAgain t spn s).med = s.med ∧
    (State.copyAgain t spn s).coh = s.coh ∧
    (State.copyAgain t spn s).lnk = s.lnk ∧
    (State.copyAgain t spn s).rte = s.rte ∧
    (State.copyAgain t spn s).cap = s.cap ∧
    (State.copyAgain t spn s).cry = s.cry ∧
    (State.copyAgain t spn s).flt = s.flt ∧
    (State.copyAgain t spn s).anl = s.anl ∧
    (State.copyAgain t spn s).cur = s.cur ∧
    (State.copyAgain t spn s).thm = s.thm ∧
    (State.copyAgain t spn s).pwr = s.pwr ∧
    (State.copyAgain t spn s).pmc = s.pmc ∧
    (State.copyAgain t spn s).out = s.out ∧
    (State.copyAgain t spn s).net = s.net ∧
    (State.copyAgain t spn s).freeCtr = s.freeCtr ∧
    (State.copyAgain t spn s).pending = s.pending := by
  unfold State.copyAgain
  repeat' split
  all_goals simp [*]

theorem State.settleOwn_kept (t : Nat) (s : State) :
    (State.settleOwn t s).member = s.member ∧
    (State.settleOwn t s).now = s.now ∧
    (State.settleOwn t s).regs = s.regs ∧
    (State.settleOwn t s).unstored = s.unstored ∧
    (State.settleOwn t s).host = s.host ∧
    (State.settleOwn t s).epo = s.epo ∧
    (State.settleOwn t s).med = s.med ∧
    (State.settleOwn t s).coh = s.coh ∧
    (State.settleOwn t s).lnk = s.lnk ∧
    (State.settleOwn t s).rte = s.rte ∧
    (State.settleOwn t s).cap = s.cap ∧
    (State.settleOwn t s).cry = s.cry ∧
    (State.settleOwn t s).flt = s.flt ∧
    (State.settleOwn t s).anl = s.anl ∧
    (State.settleOwn t s).cur = s.cur ∧
    (State.settleOwn t s).thm = s.thm ∧
    (State.settleOwn t s).pwr = s.pwr ∧
    (State.settleOwn t s).pmc = s.pmc ∧
    (State.settleOwn t s).out = s.out ∧
    (State.settleOwn t s).net = s.net ∧
    (State.settleOwn t s).freeCtr = s.freeCtr ∧
    (State.settleOwn t s).pending = s.pending := by
  unfold State.settleOwn
  repeat' split
  all_goals simp [*]

theorem State.copyFailed_kept (t c : Nat) (r : Reloc) (s : State) :
    (State.copyFailed t c r s).member = s.member ∧
    (State.copyFailed t c r s).now = s.now ∧
    (State.copyFailed t c r s).unstored = s.unstored ∧
    (State.copyFailed t c r s).epo = s.epo ∧
    (State.copyFailed t c r s).coh = s.coh ∧
    (State.copyFailed t c r s).lnk = s.lnk ∧
    (State.copyFailed t c r s).rte = s.rte ∧
    (State.copyFailed t c r s).cap = s.cap ∧
    (State.copyFailed t c r s).cry = s.cry ∧
    (State.copyFailed t c r s).flt = s.flt ∧
    (State.copyFailed t c r s).cur = s.cur ∧
    (State.copyFailed t c r s).thm = s.thm ∧
    (State.copyFailed t c r s).pwr = s.pwr ∧
    (State.copyFailed t c r s).pmc = s.pmc ∧
    (State.copyFailed t c r s).net = s.net ∧
    (State.copyFailed t c r s).freeCtr = s.freeCtr ∧
    (State.copyFailed t c r s).pending = s.pending := by
  have k1 := State.copyAgain_kept
  have k2 := State.failPage_kept
  have k3 := State.settleOwn_kept
  unfold State.copyFailed
  simp [k1, k2, k3]

@[simp] theorem State.verified_kept (t : Nat) (ok : Bool) (s : State) :
    (State.verified t ok s).member = s.member ∧
    (State.verified t ok s).now = s.now ∧
    (State.verified t ok s).unstored = s.unstored ∧
    (State.verified t ok s).epo = s.epo ∧
    (State.verified t ok s).coh = s.coh ∧
    (State.verified t ok s).lnk = s.lnk ∧
    (State.verified t ok s).rte = s.rte ∧
    (State.verified t ok s).cap = s.cap ∧
    (State.verified t ok s).flt = s.flt ∧
    (State.verified t ok s).cur = s.cur ∧
    (State.verified t ok s).thm = s.thm ∧
    (State.verified t ok s).pwr = s.pwr ∧
    (State.verified t ok s).net = s.net ∧
    (State.verified t ok s).pending = s.pending := by
  have k1 := State.copyDone_kept
  have k2 := State.copyFailed_kept
  unfold State.verified
  repeat' split
  all_goals simp [k1, k2, *]

theorem State.freeBlock_kept (t b : Nat) (s : State) :
    (State.freeBlock t b s).member = s.member ∧
    (State.freeBlock t b s).now = s.now ∧
    (State.freeBlock t b s).unstored = s.unstored ∧
    (State.freeBlock t b s).host = s.host ∧
    (State.freeBlock t b s).epo = s.epo ∧
    (State.freeBlock t b s).coh = s.coh ∧
    (State.freeBlock t b s).lnk = s.lnk ∧
    (State.freeBlock t b s).rte = s.rte ∧
    (State.freeBlock t b s).cap = s.cap ∧
    (State.freeBlock t b s).cry = s.cry ∧
    (State.freeBlock t b s).flt = s.flt ∧
    (State.freeBlock t b s).anl = s.anl ∧
    (State.freeBlock t b s).cur = s.cur ∧
    (State.freeBlock t b s).thm = s.thm ∧
    (State.freeBlock t b s).pwr = s.pwr ∧
    (State.freeBlock t b s).pmc = s.pmc ∧
    (State.freeBlock t b s).out = s.out ∧
    (State.freeBlock t b s).net = s.net ∧
    (State.freeBlock t b s).freeCtr = s.freeCtr ∧
    (State.freeBlock t b s).pending = s.pending := by
  have k1 := State.showDegraded_kept
  have k2 := State.showWear_kept
  unfold State.freeBlock
  simp [k1, k2]

theorem State.retireFailed_kept (t : Nat) (v : StripeBlock) (s : State) :
    (State.retireFailed t v s).member = s.member ∧
    (State.retireFailed t v s).now = s.now ∧
    (State.retireFailed t v s).unstored = s.unstored ∧
    (State.retireFailed t v s).epo = s.epo ∧
    (State.retireFailed t v s).coh = s.coh ∧
    (State.retireFailed t v s).lnk = s.lnk ∧
    (State.retireFailed t v s).rte = s.rte ∧
    (State.retireFailed t v s).cap = s.cap ∧
    (State.retireFailed t v s).cry = s.cry ∧
    (State.retireFailed t v s).flt = s.flt ∧
    (State.retireFailed t v s).cur = s.cur ∧
    (State.retireFailed t v s).thm = s.thm ∧
    (State.retireFailed t v s).pwr = s.pwr ∧
    (State.retireFailed t v s).pmc = s.pmc ∧
    (State.retireFailed t v s).net = s.net ∧
    (State.retireFailed t v s).freeCtr = s.freeCtr ∧
    (State.retireFailed t v s).pending = s.pending := by
  unfold State.retireFailed
  simp

@[simp] theorem State.erased_kept (t : Nat) (ok : Bool) (s : State) :
    (State.erased t ok s).member = s.member ∧
    (State.erased t ok s).now = s.now ∧
    (State.erased t ok s).unstored = s.unstored ∧
    (State.erased t ok s).epo = s.epo ∧
    (State.erased t ok s).coh = s.coh ∧
    (State.erased t ok s).lnk = s.lnk ∧
    (State.erased t ok s).rte = s.rte ∧
    (State.erased t ok s).cap = s.cap ∧
    (State.erased t ok s).cry = s.cry ∧
    (State.erased t ok s).flt = s.flt ∧
    (State.erased t ok s).cur = s.cur ∧
    (State.erased t ok s).thm = s.thm ∧
    (State.erased t ok s).pwr = s.pwr ∧
    (State.erased t ok s).pmc = s.pmc ∧
    (State.erased t ok s).net = s.net ∧
    (State.erased t ok s).pending = s.pending := by
  have k1 := State.freeBlock_kept
  have k2 := State.retireFailed_kept
  unfold State.erased
  dsimp only
  repeat' split
  all_goals simp [k1, k2]

theorem State.scanEntry_kept (t limit f : Nat) (s : State) :
    (State.scanEntry t limit f s).member = s.member ∧
    (State.scanEntry t limit f s).now = s.now ∧
    (State.scanEntry t limit f s).unstored = s.unstored ∧
    (State.scanEntry t limit f s).host = s.host ∧
    (State.scanEntry t limit f s).epo = s.epo ∧
    (State.scanEntry t limit f s).med = s.med ∧
    (State.scanEntry t limit f s).coh = s.coh ∧
    (State.scanEntry t limit f s).lnk = s.lnk ∧
    (State.scanEntry t limit f s).rte = s.rte ∧
    (State.scanEntry t limit f s).cap = s.cap ∧
    (State.scanEntry t limit f s).flt = s.flt ∧
    (State.scanEntry t limit f s).anl = s.anl ∧
    (State.scanEntry t limit f s).cur = s.cur ∧
    (State.scanEntry t limit f s).thm = s.thm ∧
    (State.scanEntry t limit f s).pwr = s.pwr ∧
    (State.scanEntry t limit f s).net = s.net ∧
    (State.scanEntry t limit f s).freeCtr = s.freeCtr ∧
    (State.scanEntry t limit f s).pending = s.pending := by
  have k1 := State.takeGroup_kept
  unfold State.scanEntry
  dsimp only
  repeat' split
  all_goals simp [k1]

theorem State.scanLeaves_kept (t limit f : Nat) (s : State) :
    (State.scanLeaves t limit f s).member = s.member ∧
    (State.scanLeaves t limit f s).now = s.now ∧
    (State.scanLeaves t limit f s).unstored = s.unstored ∧
    (State.scanLeaves t limit f s).host = s.host ∧
    (State.scanLeaves t limit f s).epo = s.epo ∧
    (State.scanLeaves t limit f s).med = s.med ∧
    (State.scanLeaves t limit f s).coh = s.coh ∧
    (State.scanLeaves t limit f s).lnk = s.lnk ∧
    (State.scanLeaves t limit f s).rte = s.rte ∧
    (State.scanLeaves t limit f s).cap = s.cap ∧
    (State.scanLeaves t limit f s).flt = s.flt ∧
    (State.scanLeaves t limit f s).anl = s.anl ∧
    (State.scanLeaves t limit f s).cur = s.cur ∧
    (State.scanLeaves t limit f s).thm = s.thm ∧
    (State.scanLeaves t limit f s).pwr = s.pwr ∧
    (State.scanLeaves t limit f s).net = s.net ∧
    (State.scanLeaves t limit f s).freeCtr = s.freeCtr ∧
    (State.scanLeaves t limit f s).pending = s.pending := by
  unfold State.scanLeaves
  simp

@[simp] theorem State.lostScanDone_kept (t : Nat) (s : State) :
    (State.lostScanDone t s).member = s.member ∧
    (State.lostScanDone t s).now = s.now ∧
    (State.lostScanDone t s).unstored = s.unstored ∧
    (State.lostScanDone t s).host = s.host ∧
    (State.lostScanDone t s).epo = s.epo ∧
    (State.lostScanDone t s).med = s.med ∧
    (State.lostScanDone t s).coh = s.coh ∧
    (State.lostScanDone t s).lnk = s.lnk ∧
    (State.lostScanDone t s).rte = s.rte ∧
    (State.lostScanDone t s).cap = s.cap ∧
    (State.lostScanDone t s).flt = s.flt ∧
    (State.lostScanDone t s).anl = s.anl ∧
    (State.lostScanDone t s).cur = s.cur ∧
    (State.lostScanDone t s).thm = s.thm ∧
    (State.lostScanDone t s).pwr = s.pwr ∧
    (State.lostScanDone t s).net = s.net ∧
    (State.lostScanDone t s).pending = s.pending := by
  have k1 := State.scanEntry_kept
  have k2 := State.scanLeaves_kept
  unfold State.lostScanDone
  simp [k1, k2]

theorem State.killPages_kept (t d : Nat) (s : State) :
    (State.killPages t d s).member = s.member ∧
    (State.killPages t d s).now = s.now ∧
    (State.killPages t d s).regs = s.regs ∧
    (State.killPages t d s).unstored = s.unstored ∧
    (State.killPages t d s).host = s.host ∧
    (State.killPages t d s).epo = s.epo ∧
    (State.killPages t d s).med = s.med ∧
    (State.killPages t d s).coh = s.coh ∧
    (State.killPages t d s).lnk = s.lnk ∧
    (State.killPages t d s).rte = s.rte ∧
    (State.killPages t d s).cap = s.cap ∧
    (State.killPages t d s).cry = s.cry ∧
    (State.killPages t d s).flt = s.flt ∧
    (State.killPages t d s).anl = s.anl ∧
    (State.killPages t d s).cur = s.cur ∧
    (State.killPages t d s).thm = s.thm ∧
    (State.killPages t d s).pwr = s.pwr ∧
    (State.killPages t d s).pmc = s.pmc ∧
    (State.killPages t d s).out = s.out ∧
    (State.killPages t d s).net = s.net ∧
    (State.killPages t d s).freeCtr = s.freeCtr ∧
    (State.killPages t d s).pending = s.pending := by
  unfold State.killPages
  simp

theorem State.killUnprogrammed_kept (t : Nat) (s : State) :
    (State.killUnprogrammed t s).member = s.member ∧
    (State.killUnprogrammed t s).now = s.now ∧
    (State.killUnprogrammed t s).unstored = s.unstored ∧
    (State.killUnprogrammed t s).host = s.host ∧
    (State.killUnprogrammed t s).epo = s.epo ∧
    (State.killUnprogrammed t s).med = s.med ∧
    (State.killUnprogrammed t s).coh = s.coh ∧
    (State.killUnprogrammed t s).lnk = s.lnk ∧
    (State.killUnprogrammed t s).rte = s.rte ∧
    (State.killUnprogrammed t s).cap = s.cap ∧
    (State.killUnprogrammed t s).cry = s.cry ∧
    (State.killUnprogrammed t s).flt = s.flt ∧
    (State.killUnprogrammed t s).anl = s.anl ∧
    (State.killUnprogrammed t s).cur = s.cur ∧
    (State.killUnprogrammed t s).thm = s.thm ∧
    (State.killUnprogrammed t s).pwr = s.pwr ∧
    (State.killUnprogrammed t s).pmc = s.pmc ∧
    (State.killUnprogrammed t s).out = s.out ∧
    (State.killUnprogrammed t s).net = s.net ∧
    (State.killUnprogrammed t s).freeCtr = s.freeCtr ∧
    (State.killUnprogrammed t s).pending = s.pending := by
  have k1 := State.failPage_kept
  unfold State.killUnprogrammed
  simp [k1]

theorem State.headerWindow_kept (t c spn : Nat) (s : State) :
    (State.headerWindow t c spn s).member = s.member ∧
    (State.headerWindow t c spn s).now = s.now ∧
    (State.headerWindow t c spn s).regs = s.regs ∧
    (State.headerWindow t c spn s).unstored = s.unstored ∧
    (State.headerWindow t c spn s).host = s.host ∧
    (State.headerWindow t c spn s).epo = s.epo ∧
    (State.headerWindow t c spn s).coh = s.coh ∧
    (State.headerWindow t c spn s).lnk = s.lnk ∧
    (State.headerWindow t c spn s).rte = s.rte ∧
    (State.headerWindow t c spn s).cap = s.cap ∧
    (State.headerWindow t c spn s).cry = s.cry ∧
    (State.headerWindow t c spn s).flt = s.flt ∧
    (State.headerWindow t c spn s).anl = s.anl ∧
    (State.headerWindow t c spn s).cur = s.cur ∧
    (State.headerWindow t c spn s).thm = s.thm ∧
    (State.headerWindow t c spn s).pwr = s.pwr ∧
    (State.headerWindow t c spn s).net = s.net ∧
    (State.headerWindow t c spn s).pending = s.pending := by
  have k1 := State.ownBits_kept
  unfold State.headerWindow
  simp [k1]

theorem State.readHeaders_kept (t : Nat) (s : State) :
    (State.readHeaders t s).member = s.member ∧
    (State.readHeaders t s).now = s.now ∧
    (State.readHeaders t s).regs = s.regs ∧
    (State.readHeaders t s).unstored = s.unstored ∧
    (State.readHeaders t s).host = s.host ∧
    (State.readHeaders t s).epo = s.epo ∧
    (State.readHeaders t s).coh = s.coh ∧
    (State.readHeaders t s).lnk = s.lnk ∧
    (State.readHeaders t s).rte = s.rte ∧
    (State.readHeaders t s).cap = s.cap ∧
    (State.readHeaders t s).cry = s.cry ∧
    (State.readHeaders t s).flt = s.flt ∧
    (State.readHeaders t s).anl = s.anl ∧
    (State.readHeaders t s).cur = s.cur ∧
    (State.readHeaders t s).thm = s.thm ∧
    (State.readHeaders t s).pwr = s.pwr ∧
    (State.readHeaders t s).net = s.net ∧
    (State.readHeaders t s).pending = s.pending := by
  have k1 := State.headerWindow_kept
  unfold State.readHeaders
  simp [k1]

theorem State.killUnread_kept (t : Nat) (s : State) :
    (State.killUnread t s).member = s.member ∧
    (State.killUnread t s).now = s.now ∧
    (State.killUnread t s).regs = s.regs ∧
    (State.killUnread t s).unstored = s.unstored ∧
    (State.killUnread t s).host = s.host ∧
    (State.killUnread t s).epo = s.epo ∧
    (State.killUnread t s).med = s.med ∧
    (State.killUnread t s).coh = s.coh ∧
    (State.killUnread t s).lnk = s.lnk ∧
    (State.killUnread t s).rte = s.rte ∧
    (State.killUnread t s).cap = s.cap ∧
    (State.killUnread t s).cry = s.cry ∧
    (State.killUnread t s).flt = s.flt ∧
    (State.killUnread t s).anl = s.anl ∧
    (State.killUnread t s).cur = s.cur ∧
    (State.killUnread t s).thm = s.thm ∧
    (State.killUnread t s).pwr = s.pwr ∧
    (State.killUnread t s).pmc = s.pmc ∧
    (State.killUnread t s).out = s.out ∧
    (State.killUnread t s).net = s.net ∧
    (State.killUnread t s).pending = s.pending := by
  unfold State.killUnread
  simp

theorem State.restoreMarks_kept (t : Nat) (s : State) :
    (State.restoreMarks t s).member = s.member ∧
    (State.restoreMarks t s).now = s.now ∧
    (State.restoreMarks t s).regs = s.regs ∧
    (State.restoreMarks t s).unstored = s.unstored ∧
    (State.restoreMarks t s).host = s.host ∧
    (State.restoreMarks t s).epo = s.epo ∧
    (State.restoreMarks t s).cat = s.cat ∧
    (State.restoreMarks t s).coh = s.coh ∧
    (State.restoreMarks t s).lnk = s.lnk ∧
    (State.restoreMarks t s).rte = s.rte ∧
    (State.restoreMarks t s).cap = s.cap ∧
    (State.restoreMarks t s).cry = s.cry ∧
    (State.restoreMarks t s).flt = s.flt ∧
    (State.restoreMarks t s).anl = s.anl ∧
    (State.restoreMarks t s).cur = s.cur ∧
    (State.restoreMarks t s).thm = s.thm ∧
    (State.restoreMarks t s).pwr = s.pwr ∧
    (State.restoreMarks t s).out = s.out ∧
    (State.restoreMarks t s).net = s.net ∧
    (State.restoreMarks t s).freeCtr = s.freeCtr ∧
    (State.restoreMarks t s).pending = s.pending := by
  have k1 := State.markEighth_kept
  unfold State.restoreMarks
  simp [k1]

@[simp] theorem State.rebuildScan_kept (t : Nat) (s : State) :
    (State.rebuildScan t s).member = s.member ∧
    (State.rebuildScan t s).now = s.now ∧
    (State.rebuildScan t s).unstored = s.unstored ∧
    (State.rebuildScan t s).host = s.host ∧
    (State.rebuildScan t s).epo = s.epo ∧
    (State.rebuildScan t s).coh = s.coh ∧
    (State.rebuildScan t s).lnk = s.lnk ∧
    (State.rebuildScan t s).rte = s.rte ∧
    (State.rebuildScan t s).cap = s.cap ∧
    (State.rebuildScan t s).flt = s.flt ∧
    (State.rebuildScan t s).anl = s.anl ∧
    (State.rebuildScan t s).cur = s.cur ∧
    (State.rebuildScan t s).thm = s.thm ∧
    (State.rebuildScan t s).net = s.net ∧
    (State.rebuildScan t s).pending = s.pending ∧
    (State.rebuildScan t s).pwr.straps = s.pwr.straps := by
  have k1 := State.killPages_kept
  have k2 := State.killUnprogrammed_kept
  have k3 := State.killUnread_kept
  have k4 := State.readHeaders_kept
  have k5 := State.restoreMarks_kept
  have k6 := State.scanEntry_kept
  unfold State.rebuildScan
  simp [k1, k2, k3, k4, k5, k6]

theorem State.bindError_kept (p n : Nat) (s : State) :
    (State.bindError p n s).member = s.member ∧
    (State.bindError p n s).now = s.now ∧
    (State.bindError p n s).unstored = s.unstored ∧
    (State.bindError p n s).epo = s.epo ∧
    (State.bindError p n s).cat = s.cat ∧
    (State.bindError p n s).med = s.med ∧
    (State.bindError p n s).coh = s.coh ∧
    (State.bindError p n s).lnk = s.lnk ∧
    (State.bindError p n s).rte = s.rte ∧
    (State.bindError p n s).cap = s.cap ∧
    (State.bindError p n s).cry = s.cry ∧
    (State.bindError p n s).flt = s.flt ∧
    (State.bindError p n s).cur = s.cur ∧
    (State.bindError p n s).thm = s.thm ∧
    (State.bindError p n s).pwr = s.pwr ∧
    (State.bindError p n s).pmc = s.pmc ∧
    (State.bindError p n s).net = s.net ∧
    (State.bindError p n s).freeCtr = s.freeCtr ∧
    (State.bindError p n s).pending = s.pending := by
  unfold State.bindError
  simp

@[simp] theorem State.writeSqCfg_kept (p n w : Nat) (s : State) :
    (State.writeSqCfg p n w s).member = s.member ∧
    (State.writeSqCfg p n w s).now = s.now ∧
    (State.writeSqCfg p n w s).unstored = s.unstored ∧
    (State.writeSqCfg p n w s).epo = s.epo ∧
    (State.writeSqCfg p n w s).cat = s.cat ∧
    (State.writeSqCfg p n w s).med = s.med ∧
    (State.writeSqCfg p n w s).coh = s.coh ∧
    (State.writeSqCfg p n w s).lnk = s.lnk ∧
    (State.writeSqCfg p n w s).rte = s.rte ∧
    (State.writeSqCfg p n w s).cap = s.cap ∧
    (State.writeSqCfg p n w s).cry = s.cry ∧
    (State.writeSqCfg p n w s).flt = s.flt ∧
    (State.writeSqCfg p n w s).cur = s.cur ∧
    (State.writeSqCfg p n w s).thm = s.thm ∧
    (State.writeSqCfg p n w s).pwr = s.pwr ∧
    (State.writeSqCfg p n w s).pmc = s.pmc ∧
    (State.writeSqCfg p n w s).net = s.net ∧
    (State.writeSqCfg p n w s).freeCtr = s.freeCtr ∧
    (State.writeSqCfg p n w s).pending = s.pending := by
  have k1 := State.bindError_kept
  unfold State.writeSqCfg
  simp [k1]

@[simp] theorem State.signalCq_kept (p n : Nat) (s : State) :
    (State.signalCq p n s).member = s.member ∧
    (State.signalCq p n s).now = s.now ∧
    (State.signalCq p n s).regs = s.regs ∧
    (State.signalCq p n s).unstored = s.unstored ∧
    (State.signalCq p n s).epo = s.epo ∧
    (State.signalCq p n s).cat = s.cat ∧
    (State.signalCq p n s).med = s.med ∧
    (State.signalCq p n s).coh = s.coh ∧
    (State.signalCq p n s).lnk = s.lnk ∧
    (State.signalCq p n s).rte = s.rte ∧
    (State.signalCq p n s).cap = s.cap ∧
    (State.signalCq p n s).cry = s.cry ∧
    (State.signalCq p n s).flt = s.flt ∧
    (State.signalCq p n s).anl = s.anl ∧
    (State.signalCq p n s).cur = s.cur ∧
    (State.signalCq p n s).thm = s.thm ∧
    (State.signalCq p n s).pwr = s.pwr ∧
    (State.signalCq p n s).pmc = s.pmc ∧
    (State.signalCq p n s).net = s.net ∧
    (State.signalCq p n s).freeCtr = s.freeCtr ∧
    (State.signalCq p n s).pending = s.pending := by
  unfold State.signalCq
  simp

theorem State.coalesce_kept (p n : Nat) (s : State) :
    (State.coalesce p n s).member = s.member ∧
    (State.coalesce p n s).now = s.now ∧
    (State.coalesce p n s).regs = s.regs ∧
    (State.coalesce p n s).unstored = s.unstored ∧
    (State.coalesce p n s).epo = s.epo ∧
    (State.coalesce p n s).cat = s.cat ∧
    (State.coalesce p n s).med = s.med ∧
    (State.coalesce p n s).coh = s.coh ∧
    (State.coalesce p n s).lnk = s.lnk ∧
    (State.coalesce p n s).rte = s.rte ∧
    (State.coalesce p n s).cap = s.cap ∧
    (State.coalesce p n s).cry = s.cry ∧
    (State.coalesce p n s).flt = s.flt ∧
    (State.coalesce p n s).anl = s.anl ∧
    (State.coalesce p n s).cur = s.cur ∧
    (State.coalesce p n s).thm = s.thm ∧
    (State.coalesce p n s).pwr = s.pwr ∧
    (State.coalesce p n s).pmc = s.pmc ∧
    (State.coalesce p n s).net = s.net ∧
    (State.coalesce p n s).freeCtr = s.freeCtr ∧
    (State.coalesce p n s).pending = s.pending := by
  unfold State.coalesce
  simp

theorem State.enterCqe_kept (p n : Nat) (e : Cqe) (s : State) :
    (State.enterCqe p n e s).member = s.member ∧
    (State.enterCqe p n e s).now = s.now ∧
    (State.enterCqe p n e s).regs = s.regs ∧
    (State.enterCqe p n e s).unstored = s.unstored ∧
    (State.enterCqe p n e s).epo = s.epo ∧
    (State.enterCqe p n e s).cat = s.cat ∧
    (State.enterCqe p n e s).med = s.med ∧
    (State.enterCqe p n e s).coh = s.coh ∧
    (State.enterCqe p n e s).lnk = s.lnk ∧
    (State.enterCqe p n e s).rte = s.rte ∧
    (State.enterCqe p n e s).cap = s.cap ∧
    (State.enterCqe p n e s).cry = s.cry ∧
    (State.enterCqe p n e s).flt = s.flt ∧
    (State.enterCqe p n e s).anl = s.anl ∧
    (State.enterCqe p n e s).cur = s.cur ∧
    (State.enterCqe p n e s).thm = s.thm ∧
    (State.enterCqe p n e s).pwr = s.pwr ∧
    (State.enterCqe p n e s).net = s.net ∧
    (State.enterCqe p n e s).freeCtr = s.freeCtr ∧
    (State.enterCqe p n e s).pending = s.pending := by
  have k1 := State.coalesce_kept
  unfold State.enterCqe
  simp [k1]

theorem State.writeCqes_kept (p n : Nat) (es : List Cqe) (s : State) :
    (State.writeCqes p n es s).member = s.member ∧
    (State.writeCqes p n es s).now = s.now ∧
    (State.writeCqes p n es s).regs = s.regs ∧
    (State.writeCqes p n es s).unstored = s.unstored ∧
    (State.writeCqes p n es s).epo = s.epo ∧
    (State.writeCqes p n es s).cat = s.cat ∧
    (State.writeCqes p n es s).med = s.med ∧
    (State.writeCqes p n es s).coh = s.coh ∧
    (State.writeCqes p n es s).lnk = s.lnk ∧
    (State.writeCqes p n es s).rte = s.rte ∧
    (State.writeCqes p n es s).cap = s.cap ∧
    (State.writeCqes p n es s).cry = s.cry ∧
    (State.writeCqes p n es s).flt = s.flt ∧
    (State.writeCqes p n es s).anl = s.anl ∧
    (State.writeCqes p n es s).cur = s.cur ∧
    (State.writeCqes p n es s).thm = s.thm ∧
    (State.writeCqes p n es s).pwr = s.pwr ∧
    (State.writeCqes p n es s).net = s.net ∧
    (State.writeCqes p n es s).freeCtr = s.freeCtr ∧
    (State.writeCqes p n es s).pending = s.pending := by
  have k1 := State.enterCqe_kept
  unfold State.writeCqes
  simp [k1]

theorem State.deliver_kept (p n : Nat) (es : List Cqe) (s : State) :
    (State.deliver p n es s).member = s.member ∧
    (State.deliver p n es s).now = s.now ∧
    (State.deliver p n es s).regs = s.regs ∧
    (State.deliver p n es s).unstored = s.unstored ∧
    (State.deliver p n es s).epo = s.epo ∧
    (State.deliver p n es s).cat = s.cat ∧
    (State.deliver p n es s).med = s.med ∧
    (State.deliver p n es s).coh = s.coh ∧
    (State.deliver p n es s).lnk = s.lnk ∧
    (State.deliver p n es s).rte = s.rte ∧
    (State.deliver p n es s).cap = s.cap ∧
    (State.deliver p n es s).cry = s.cry ∧
    (State.deliver p n es s).flt = s.flt ∧
    (State.deliver p n es s).anl = s.anl ∧
    (State.deliver p n es s).cur = s.cur ∧
    (State.deliver p n es s).thm = s.thm ∧
    (State.deliver p n es s).pwr = s.pwr ∧
    (State.deliver p n es s).net = s.net ∧
    (State.deliver p n es s).freeCtr = s.freeCtr ∧
    (State.deliver p n es s).pending = s.pending := by
  have k1 := State.writeCqes_kept
  unfold State.deliver
  simp [k1]

theorem State.deliverHeld_kept (p n : Nat) (s : State) :
    (State.deliverHeld p n s).member = s.member ∧
    (State.deliverHeld p n s).now = s.now ∧
    (State.deliverHeld p n s).regs = s.regs ∧
    (State.deliverHeld p n s).unstored = s.unstored ∧
    (State.deliverHeld p n s).epo = s.epo ∧
    (State.deliverHeld p n s).cat = s.cat ∧
    (State.deliverHeld p n s).med = s.med ∧
    (State.deliverHeld p n s).coh = s.coh ∧
    (State.deliverHeld p n s).lnk = s.lnk ∧
    (State.deliverHeld p n s).rte = s.rte ∧
    (State.deliverHeld p n s).cap = s.cap ∧
    (State.deliverHeld p n s).cry = s.cry ∧
    (State.deliverHeld p n s).flt = s.flt ∧
    (State.deliverHeld p n s).anl = s.anl ∧
    (State.deliverHeld p n s).cur = s.cur ∧
    (State.deliverHeld p n s).thm = s.thm ∧
    (State.deliverHeld p n s).pwr = s.pwr ∧
    (State.deliverHeld p n s).net = s.net ∧
    (State.deliverHeld p n s).freeCtr = s.freeCtr ∧
    (State.deliverHeld p n s).pending = s.pending := by
  have k1 := State.deliver_kept
  unfold State.deliverHeld
  (try dsimp only)
  refine ⟨(foldl_member _ _ ?_ _ _).trans (by simp [k1]), (foldl_now _ _ ?_ _ _).trans (by simp [k1]), (foldl_regs _ _ ?_ _ _).trans (by simp [k1]), (foldl_unstored _ _ ?_ _ _).trans (by simp [k1]), (foldl_epo _ _ ?_ _ _).trans (by simp [k1]), (foldl_cat _ _ ?_ _ _).trans (by simp [k1]), (foldl_med _ _ ?_ _ _).trans (by simp [k1]), (foldl_coh _ _ ?_ _ _).trans (by simp [k1]), (foldl_lnk _ _ ?_ _ _).trans (by simp [k1]), (foldl_rte _ _ ?_ _ _).trans (by simp [k1]), (foldl_cap _ _ ?_ _ _).trans (by simp [k1]), (foldl_cry _ _ ?_ _ _).trans (by simp [k1]), (foldl_flt _ _ ?_ _ _).trans (by simp [k1]), (foldl_anl _ _ ?_ _ _).trans (by simp [k1]), (foldl_cur _ _ ?_ _ _).trans (by simp [k1]), (foldl_thm _ _ ?_ _ _).trans (by simp [k1]), (foldl_pwr _ _ ?_ _ _).trans (by simp [k1]), (foldl_net _ _ ?_ _ _).trans (by simp [k1]), (foldl_freeCtr _ _ ?_ _ _).trans (by simp [k1]), (foldl_pending _ _ ?_ _ _).trans (by simp [k1])⟩
  all_goals
    intro s x
    (try dsimp only)
    repeat' split
    all_goals simp [k1]

@[simp] theorem State.writeCqCfg_kept (p n w : Nat) (s : State) :
    (State.writeCqCfg p n w s).member = s.member ∧
    (State.writeCqCfg p n w s).now = s.now ∧
    (State.writeCqCfg p n w s).unstored = s.unstored ∧
    (State.writeCqCfg p n w s).epo = s.epo ∧
    (State.writeCqCfg p n w s).cat = s.cat ∧
    (State.writeCqCfg p n w s).med = s.med ∧
    (State.writeCqCfg p n w s).coh = s.coh ∧
    (State.writeCqCfg p n w s).lnk = s.lnk ∧
    (State.writeCqCfg p n w s).rte = s.rte ∧
    (State.writeCqCfg p n w s).cap = s.cap ∧
    (State.writeCqCfg p n w s).cry = s.cry ∧
    (State.writeCqCfg p n w s).flt = s.flt ∧
    (State.writeCqCfg p n w s).cur = s.cur ∧
    (State.writeCqCfg p n w s).thm = s.thm ∧
    (State.writeCqCfg p n w s).pwr = s.pwr ∧
    (State.writeCqCfg p n w s).net = s.net ∧
    (State.writeCqCfg p n w s).freeCtr = s.freeCtr ∧
    (State.writeCqCfg p n w s).pending = s.pending := by
  have k1 := State.coalesce_kept
  have k2 := State.deliverHeld_kept
  unfold State.writeCqCfg
  simp [k1, k2]

theorem State.cqError_kept (p n code : Nat) (s : State) :
    (State.cqError p n code s).member = s.member ∧
    (State.cqError p n code s).now = s.now ∧
    (State.cqError p n code s).unstored = s.unstored ∧
    (State.cqError p n code s).epo = s.epo ∧
    (State.cqError p n code s).cat = s.cat ∧
    (State.cqError p n code s).med = s.med ∧
    (State.cqError p n code s).coh = s.coh ∧
    (State.cqError p n code s).lnk = s.lnk ∧
    (State.cqError p n code s).rte = s.rte ∧
    (State.cqError p n code s).cap = s.cap ∧
    (State.cqError p n code s).cry = s.cry ∧
    (State.cqError p n code s).flt = s.flt ∧
    (State.cqError p n code s).cur = s.cur ∧
    (State.cqError p n code s).thm = s.thm ∧
    (State.cqError p n code s).pwr = s.pwr ∧
    (State.cqError p n code s).pmc = s.pmc ∧
    (State.cqError p n code s).net = s.net ∧
    (State.cqError p n code s).freeCtr = s.freeCtr ∧
    (State.cqError p n code s).pending = s.pending := by
  unfold State.cqError
  simp

@[simp] theorem State.sqTail_kept (p n v : Nat) (s : State) :
    (State.sqTail p n v s).member = s.member ∧
    (State.sqTail p n v s).now = s.now ∧
    (State.sqTail p n v s).unstored = s.unstored ∧
    (State.sqTail p n v s).epo = s.epo ∧
    (State.sqTail p n v s).cat = s.cat ∧
    (State.sqTail p n v s).med = s.med ∧
    (State.sqTail p n v s).coh = s.coh ∧
    (State.sqTail p n v s).lnk = s.lnk ∧
    (State.sqTail p n v s).rte = s.rte ∧
    (State.sqTail p n v s).cap = s.cap ∧
    (State.sqTail p n v s).cry = s.cry ∧
    (State.sqTail p n v s).flt = s.flt ∧
    (State.sqTail p n v s).cur = s.cur ∧
    (State.sqTail p n v s).thm = s.thm ∧
    (State.sqTail p n v s).pwr = s.pwr ∧
    (State.sqTail p n v s).pmc = s.pmc ∧
    (State.sqTail p n v s).net = s.net ∧
    (State.sqTail p n v s).freeCtr = s.freeCtr ∧
    (State.sqTail p n v s).pending = s.pending := by
  unfold State.sqTail
  simp

@[simp] theorem State.cqHead_kept (p n v : Nat) (s : State) :
    (State.cqHead p n v s).member = s.member ∧
    (State.cqHead p n v s).now = s.now ∧
    (State.cqHead p n v s).unstored = s.unstored ∧
    (State.cqHead p n v s).epo = s.epo ∧
    (State.cqHead p n v s).cat = s.cat ∧
    (State.cqHead p n v s).med = s.med ∧
    (State.cqHead p n v s).coh = s.coh ∧
    (State.cqHead p n v s).lnk = s.lnk ∧
    (State.cqHead p n v s).rte = s.rte ∧
    (State.cqHead p n v s).cap = s.cap ∧
    (State.cqHead p n v s).cry = s.cry ∧
    (State.cqHead p n v s).flt = s.flt ∧
    (State.cqHead p n v s).cur = s.cur ∧
    (State.cqHead p n v s).thm = s.thm ∧
    (State.cqHead p n v s).pwr = s.pwr ∧
    (State.cqHead p n v s).net = s.net ∧
    (State.cqHead p n v s).freeCtr = s.freeCtr ∧
    (State.cqHead p n v s).pending = s.pending := by
  have k1 := State.cqError_kept
  have k2 := State.deliverHeld_kept
  unfold State.cqHead
  simp [k1, k2]

theorem State.fetchEntries_kept (p n k : Nat) (s : State) :
    (State.fetchEntries p n k s).member = s.member ∧
    (State.fetchEntries p n k s).now = s.now ∧
    (State.fetchEntries p n k s).regs = s.regs ∧
    (State.fetchEntries p n k s).unstored = s.unstored ∧
    (State.fetchEntries p n k s).epo = s.epo ∧
    (State.fetchEntries p n k s).cat = s.cat ∧
    (State.fetchEntries p n k s).med = s.med ∧
    (State.fetchEntries p n k s).coh = s.coh ∧
    (State.fetchEntries p n k s).lnk = s.lnk ∧
    (State.fetchEntries p n k s).rte = s.rte ∧
    (State.fetchEntries p n k s).cap = s.cap ∧
    (State.fetchEntries p n k s).cry = s.cry ∧
    (State.fetchEntries p n k s).flt = s.flt ∧
    (State.fetchEntries p n k s).anl = s.anl ∧
    (State.fetchEntries p n k s).cur = s.cur ∧
    (State.fetchEntries p n k s).thm = s.thm ∧
    (State.fetchEntries p n k s).pwr = s.pwr ∧
    (State.fetchEntries p n k s).pmc = s.pmc ∧
    (State.fetchEntries p n k s).net = s.net ∧
    (State.fetchEntries p n k s).freeCtr = s.freeCtr ∧
    (State.fetchEntries p n k s).pending = s.pending := by
  unfold State.fetchEntries
  simp

@[simp] theorem State.issueFetch_kept (p : Nat) (s : State) :
    (State.issueFetch p s).member = s.member ∧
    (State.issueFetch p s).now = s.now ∧
    (State.issueFetch p s).regs = s.regs ∧
    (State.issueFetch p s).unstored = s.unstored ∧
    (State.issueFetch p s).epo = s.epo ∧
    (State.issueFetch p s).cat = s.cat ∧
    (State.issueFetch p s).med = s.med ∧
    (State.issueFetch p s).coh = s.coh ∧
    (State.issueFetch p s).lnk = s.lnk ∧
    (State.issueFetch p s).rte = s.rte ∧
    (State.issueFetch p s).cap = s.cap ∧
    (State.issueFetch p s).cry = s.cry ∧
    (State.issueFetch p s).flt = s.flt ∧
    (State.issueFetch p s).anl = s.anl ∧
    (State.issueFetch p s).cur = s.cur ∧
    (State.issueFetch p s).thm = s.thm ∧
    (State.issueFetch p s).pwr = s.pwr ∧
    (State.issueFetch p s).pmc = s.pmc ∧
    (State.issueFetch p s).net = s.net ∧
    (State.issueFetch p s).freeCtr = s.freeCtr ∧
    (State.issueFetch p s).pending = s.pending := by
  have k1 := State.fetchEntries_kept
  unfold State.issueFetch
  dsimp only
  repeat' split
  all_goals simp [k1]

theorem State.markStarted_kept (k : Cmd) (s : State) :
    (State.markStarted k s).member = s.member ∧
    (State.markStarted k s).now = s.now ∧
    (State.markStarted k s).regs = s.regs ∧
    (State.markStarted k s).unstored = s.unstored ∧
    (State.markStarted k s).epo = s.epo ∧
    (State.markStarted k s).cat = s.cat ∧
    (State.markStarted k s).med = s.med ∧
    (State.markStarted k s).coh = s.coh ∧
    (State.markStarted k s).lnk = s.lnk ∧
    (State.markStarted k s).rte = s.rte ∧
    (State.markStarted k s).cap = s.cap ∧
    (State.markStarted k s).cry = s.cry ∧
    (State.markStarted k s).flt = s.flt ∧
    (State.markStarted k s).anl = s.anl ∧
    (State.markStarted k s).cur = s.cur ∧
    (State.markStarted k s).thm = s.thm ∧
    (State.markStarted k s).pwr = s.pwr ∧
    (State.markStarted k s).pmc = s.pmc ∧
    (State.markStarted k s).out = s.out ∧
    (State.markStarted k s).net = s.net ∧
    (State.markStarted k s).freeCtr = s.freeCtr ∧
    (State.markStarted k s).pending = s.pending := by
  unfold State.markStarted
  simp

theorem State.startCmd_kept (k : Cmd) (s : State) :
    (State.startCmd k s).member = s.member ∧
    (State.startCmd k s).now = s.now ∧
    (State.startCmd k s).unstored = s.unstored ∧
    (State.startCmd k s).epo = s.epo ∧
    (State.startCmd k s).cat = s.cat ∧
    (State.startCmd k s).med = s.med ∧
    (State.startCmd k s).coh = s.coh ∧
    (State.startCmd k s).lnk = s.lnk ∧
    (State.startCmd k s).rte = s.rte ∧
    (State.startCmd k s).cap = s.cap ∧
    (State.startCmd k s).cry = s.cry ∧
    (State.startCmd k s).flt = s.flt ∧
    (State.startCmd k s).thm = s.thm ∧
    (State.startCmd k s).net = s.net ∧
    (State.startCmd k s).freeCtr = s.freeCtr ∧
    (State.startCmd k s).pending = s.pending ∧
    (State.startCmd k s).pwr.straps = s.pwr.straps ∧
    (State.startCmd k s).cur.lifecycle = s.cur.lifecycle ∧
    (State.startCmd k s).cur.rootGen = s.cur.rootGen ∧
    (State.startCmd k s).cur.returns = s.cur.returns ∧
    (State.startCmd k s).cur.revoked = s.cur.revoked := by
  have k1 := State.curWork_kept
  have k2 := State.markStarted_kept
  unfold State.startCmd
  dsimp only
  repeat' split
  all_goals simp [k1, k2]

theorem State.startSome_kept (p q fuel : Nat) (s : State) :
    (State.startSome p q fuel s).member = s.member ∧
    (State.startSome p q fuel s).now = s.now ∧
    (State.startSome p q fuel s).unstored = s.unstored ∧
    (State.startSome p q fuel s).epo = s.epo ∧
    (State.startSome p q fuel s).cat = s.cat ∧
    (State.startSome p q fuel s).med = s.med ∧
    (State.startSome p q fuel s).coh = s.coh ∧
    (State.startSome p q fuel s).lnk = s.lnk ∧
    (State.startSome p q fuel s).rte = s.rte ∧
    (State.startSome p q fuel s).cap = s.cap ∧
    (State.startSome p q fuel s).cry = s.cry ∧
    (State.startSome p q fuel s).flt = s.flt ∧
    (State.startSome p q fuel s).thm = s.thm ∧
    (State.startSome p q fuel s).net = s.net ∧
    (State.startSome p q fuel s).freeCtr = s.freeCtr ∧
    (State.startSome p q fuel s).pending = s.pending ∧
    (State.startSome p q fuel s).pwr.straps = s.pwr.straps ∧
    (State.startSome p q fuel s).cur.lifecycle = s.cur.lifecycle ∧
    (State.startSome p q fuel s).cur.rootGen = s.cur.rootGen ∧
    (State.startSome p q fuel s).cur.returns = s.cur.returns ∧
    (State.startSome p q fuel s).cur.revoked = s.cur.revoked := by
  have k1 := State.startCmd_kept
  induction fuel generalizing s with
  | zero => simp [k1, State.startSome]
  | succ n ih =>
    unfold State.startSome
    repeat' split
    all_goals simp [k1, ih]

@[simp] theorem State.startReady_kept (p q : Nat) (s : State) :
    (State.startReady p q s).member = s.member ∧
    (State.startReady p q s).now = s.now ∧
    (State.startReady p q s).unstored = s.unstored ∧
    (State.startReady p q s).epo = s.epo ∧
    (State.startReady p q s).cat = s.cat ∧
    (State.startReady p q s).med = s.med ∧
    (State.startReady p q s).coh = s.coh ∧
    (State.startReady p q s).lnk = s.lnk ∧
    (State.startReady p q s).rte = s.rte ∧
    (State.startReady p q s).cap = s.cap ∧
    (State.startReady p q s).cry = s.cry ∧
    (State.startReady p q s).flt = s.flt ∧
    (State.startReady p q s).thm = s.thm ∧
    (State.startReady p q s).net = s.net ∧
    (State.startReady p q s).freeCtr = s.freeCtr ∧
    (State.startReady p q s).pending = s.pending ∧
    (State.startReady p q s).pwr.straps = s.pwr.straps ∧
    (State.startReady p q s).cur.lifecycle = s.cur.lifecycle ∧
    (State.startReady p q s).cur.rootGen = s.cur.rootGen ∧
    (State.startReady p q s).cur.returns = s.cur.returns ∧
    (State.startReady p q s).cur.revoked = s.cur.revoked := by
  have k1 := State.startSome_kept
  unfold State.startReady
  simp [k1]

@[simp] theorem State.fetchReturns_kept (p q first : Nat) (es : List Fetched) (s : State) :
    (State.fetchReturns p q first es s).member = s.member ∧
    (State.fetchReturns p q first es s).now = s.now ∧
    (State.fetchReturns p q first es s).unstored = s.unstored ∧
    (State.fetchReturns p q first es s).epo = s.epo ∧
    (State.fetchReturns p q first es s).cat = s.cat ∧
    (State.fetchReturns p q first es s).med = s.med ∧
    (State.fetchReturns p q first es s).coh = s.coh ∧
    (State.fetchReturns p q first es s).lnk = s.lnk ∧
    (State.fetchReturns p q first es s).rte = s.rte ∧
    (State.fetchReturns p q first es s).cap = s.cap ∧
    (State.fetchReturns p q first es s).cry = s.cry ∧
    (State.fetchReturns p q first es s).flt = s.flt ∧
    (State.fetchReturns p q first es s).thm = s.thm ∧
    (State.fetchReturns p q first es s).net = s.net ∧
    (State.fetchReturns p q first es s).freeCtr = s.freeCtr ∧
    (State.fetchReturns p q first es s).pending = s.pending ∧
    (State.fetchReturns p q first es s).pwr.straps = s.pwr.straps ∧
    (State.fetchReturns p q first es s).cur.lifecycle = s.cur.lifecycle ∧
    (State.fetchReturns p q first es s).cur.rootGen = s.cur.rootGen ∧
    (State.fetchReturns p q first es s).cur.returns = s.cur.returns ∧
    (State.fetchReturns p q first es s).cur.revoked = s.cur.revoked := by
  have k1 := State.placeReady_kept
  unfold State.fetchReturns
  simp [k1]

theorem State.takeCqe_kept (p x : Nat) (s : State) :
    (State.takeCqe p x s).member = s.member ∧
    (State.takeCqe p x s).now = s.now ∧
    (State.takeCqe p x s).regs = s.regs ∧
    (State.takeCqe p x s).unstored = s.unstored ∧
    (State.takeCqe p x s).epo = s.epo ∧
    (State.takeCqe p x s).cat = s.cat ∧
    (State.takeCqe p x s).med = s.med ∧
    (State.takeCqe p x s).coh = s.coh ∧
    (State.takeCqe p x s).lnk = s.lnk ∧
    (State.takeCqe p x s).rte = s.rte ∧
    (State.takeCqe p x s).cap = s.cap ∧
    (State.takeCqe p x s).cry = s.cry ∧
    (State.takeCqe p x s).flt = s.flt ∧
    (State.takeCqe p x s).anl = s.anl ∧
    (State.takeCqe p x s).cur = s.cur ∧
    (State.takeCqe p x s).thm = s.thm ∧
    (State.takeCqe p x s).pwr = s.pwr ∧
    (State.takeCqe p x s).pmc = s.pmc ∧
    (State.takeCqe p x s).out = s.out ∧
    (State.takeCqe p x s).net = s.net ∧
    (State.takeCqe p x s).freeCtr = s.freeCtr ∧
    (State.takeCqe p x s).pending = s.pending := by
  have k1 := State.setStaged_kept
  have k2 := State.setWaiting_kept
  unfold State.takeCqe
  simp [k1, k2]

@[simp] theorem State.collect_kept (p : Nat) (credit : Bool) (s : State) :
    (State.collect p credit s).member = s.member ∧
    (State.collect p credit s).now = s.now ∧
    (State.collect p credit s).regs = s.regs ∧
    (State.collect p credit s).unstored = s.unstored ∧
    (State.collect p credit s).epo = s.epo ∧
    (State.collect p credit s).cat = s.cat ∧
    (State.collect p credit s).med = s.med ∧
    (State.collect p credit s).coh = s.coh ∧
    (State.collect p credit s).lnk = s.lnk ∧
    (State.collect p credit s).rte = s.rte ∧
    (State.collect p credit s).cap = s.cap ∧
    (State.collect p credit s).cry = s.cry ∧
    (State.collect p credit s).flt = s.flt ∧
    (State.collect p credit s).anl = s.anl ∧
    (State.collect p credit s).cur = s.cur ∧
    (State.collect p credit s).thm = s.thm ∧
    (State.collect p credit s).pwr = s.pwr ∧
    (State.collect p credit s).net = s.net ∧
    (State.collect p credit s).freeCtr = s.freeCtr ∧
    (State.collect p credit s).pending = s.pending := by
  have k1 := State.deliver_kept
  have k2 := State.takeCqe_kept
  unfold State.collect
  simp [k1, k2]

@[simp] theorem State.resumeFetch_kept (p : Nat) (s : State) :
    (State.resumeFetch p s).member = s.member ∧
    (State.resumeFetch p s).now = s.now ∧
    (State.resumeFetch p s).unstored = s.unstored ∧
    (State.resumeFetch p s).epo = s.epo ∧
    (State.resumeFetch p s).cat = s.cat ∧
    (State.resumeFetch p s).med = s.med ∧
    (State.resumeFetch p s).coh = s.coh ∧
    (State.resumeFetch p s).lnk = s.lnk ∧
    (State.resumeFetch p s).rte = s.rte ∧
    (State.resumeFetch p s).cap = s.cap ∧
    (State.resumeFetch p s).cry = s.cry ∧
    (State.resumeFetch p s).flt = s.flt ∧
    (State.resumeFetch p s).thm = s.thm ∧
    (State.resumeFetch p s).net = s.net ∧
    (State.resumeFetch p s).freeCtr = s.freeCtr ∧
    (State.resumeFetch p s).pending = s.pending ∧
    (State.resumeFetch p s).pwr.straps = s.pwr.straps ∧
    (State.resumeFetch p s).cur.lifecycle = s.cur.lifecycle ∧
    (State.resumeFetch p s).cur.rootGen = s.cur.rootGen ∧
    (State.resumeFetch p s).cur.returns = s.cur.returns ∧
    (State.resumeFetch p s).cur.revoked = s.cur.revoked := by
  have k1 := State.placeReady_kept
  unfold State.resumeFetch
  simp [k1]

@[simp] theorem State.commitHead_kept (s : State) :
    (State.commitHead s).member = s.member ∧
    (State.commitHead s).now = s.now ∧
    (State.commitHead s).regs = s.regs ∧
    (State.commitHead s).unstored = s.unstored ∧
    (State.commitHead s).host = s.host ∧
    (State.commitHead s).epo = s.epo ∧
    (State.commitHead s).cat = s.cat ∧
    (State.commitHead s).med = s.med ∧
    (State.commitHead s).coh = s.coh ∧
    (State.commitHead s).lnk = s.lnk ∧
    (State.commitHead s).rte = s.rte ∧
    (State.commitHead s).cap = s.cap ∧
    (State.commitHead s).cry = s.cry ∧
    (State.commitHead s).flt = s.flt ∧
    (State.commitHead s).anl = s.anl ∧
    (State.commitHead s).thm = s.thm ∧
    (State.commitHead s).pwr = s.pwr ∧
    (State.commitHead s).pmc = s.pmc ∧
    (State.commitHead s).out = s.out ∧
    (State.commitHead s).net = s.net ∧
    (State.commitHead s).freeCtr = s.freeCtr ∧
    (State.commitHead s).pending = s.pending ∧
    (State.commitHead s).cur.lifecycle = s.cur.lifecycle ∧
    (State.commitHead s).cur.rootGen = s.cur.rootGen ∧
    (State.commitHead s).cur.returns = s.cur.returns ∧
    (State.commitHead s).cur.revoked = s.cur.revoked := by
  unfold State.commitHead
  dsimp only
  repeat' split
  all_goals simp

@[simp] theorem State.sendPending_kept (p v : Nat) (s : State) :
    (State.sendPending p v s).member = s.member ∧
    (State.sendPending p v s).now = s.now ∧
    (State.sendPending p v s).regs = s.regs ∧
    (State.sendPending p v s).unstored = s.unstored ∧
    (State.sendPending p v s).epo = s.epo ∧
    (State.sendPending p v s).cat = s.cat ∧
    (State.sendPending p v s).med = s.med ∧
    (State.sendPending p v s).coh = s.coh ∧
    (State.sendPending p v s).lnk = s.lnk ∧
    (State.sendPending p v s).rte = s.rte ∧
    (State.sendPending p v s).cap = s.cap ∧
    (State.sendPending p v s).cry = s.cry ∧
    (State.sendPending p v s).flt = s.flt ∧
    (State.sendPending p v s).anl = s.anl ∧
    (State.sendPending p v s).cur = s.cur ∧
    (State.sendPending p v s).thm = s.thm ∧
    (State.sendPending p v s).pwr = s.pwr ∧
    (State.sendPending p v s).pmc = s.pmc ∧
    (State.sendPending p v s).net = s.net ∧
    (State.sendPending p v s).freeCtr = s.freeCtr ∧
    (State.sendPending p v s).pending = s.pending := by
  unfold State.sendPending
  simp

@[simp] theorem State.writeWinCfg_kept (p n w : Nat) (s : State) :
    (State.writeWinCfg p n w s).member = s.member ∧
    (State.writeWinCfg p n w s).now = s.now ∧
    (State.writeWinCfg p n w s).unstored = s.unstored ∧
    (State.writeWinCfg p n w s).epo = s.epo ∧
    (State.writeWinCfg p n w s).cat = s.cat ∧
    (State.writeWinCfg p n w s).med = s.med ∧
    (State.writeWinCfg p n w s).coh = s.coh ∧
    (State.writeWinCfg p n w s).lnk = s.lnk ∧
    (State.writeWinCfg p n w s).rte = s.rte ∧
    (State.writeWinCfg p n w s).cap = s.cap ∧
    (State.writeWinCfg p n w s).cry = s.cry ∧
    (State.writeWinCfg p n w s).flt = s.flt ∧
    (State.writeWinCfg p n w s).cur = s.cur ∧
    (State.writeWinCfg p n w s).thm = s.thm ∧
    (State.writeWinCfg p n w s).pwr = s.pwr ∧
    (State.writeWinCfg p n w s).pmc = s.pmc ∧
    (State.writeWinCfg p n w s).out = s.out ∧
    (State.writeWinCfg p n w s).net = s.net ∧
    (State.writeWinCfg p n w s).freeCtr = s.freeCtr ∧
    (State.writeWinCfg p n w s).pending = s.pending := by
  have k1 := State.setWin_kept
  unfold State.writeWinCfg
  simp [k1]

@[simp] theorem State.drainEnd_kept (p n : Nat) (s : State) :
    (State.drainEnd p n s).member = s.member ∧
    (State.drainEnd p n s).now = s.now ∧
    (State.drainEnd p n s).regs = s.regs ∧
    (State.drainEnd p n s).unstored = s.unstored ∧
    (State.drainEnd p n s).epo = s.epo ∧
    (State.drainEnd p n s).cat = s.cat ∧
    (State.drainEnd p n s).med = s.med ∧
    (State.drainEnd p n s).coh = s.coh ∧
    (State.drainEnd p n s).lnk = s.lnk ∧
    (State.drainEnd p n s).rte = s.rte ∧
    (State.drainEnd p n s).cap = s.cap ∧
    (State.drainEnd p n s).cry = s.cry ∧
    (State.drainEnd p n s).flt = s.flt ∧
    (State.drainEnd p n s).anl = s.anl ∧
    (State.drainEnd p n s).cur = s.cur ∧
    (State.drainEnd p n s).thm = s.thm ∧
    (State.drainEnd p n s).pwr = s.pwr ∧
    (State.drainEnd p n s).pmc = s.pmc ∧
    (State.drainEnd p n s).out = s.out ∧
    (State.drainEnd p n s).net = s.net ∧
    (State.drainEnd p n s).freeCtr = s.freeCtr ∧
    (State.drainEnd p n s).pending = s.pending := by
  have k1 := State.setWin_kept
  unfold State.drainEnd
  simp [k1]

@[simp] theorem State.writeApt_kept (p w : Nat) (s : State) :
    (State.writeApt p w s).member = s.member ∧
    (State.writeApt p w s).now = s.now ∧
    (State.writeApt p w s).unstored = s.unstored ∧
    (State.writeApt p w s).host = s.host ∧
    (State.writeApt p w s).epo = s.epo ∧
    (State.writeApt p w s).cat = s.cat ∧
    (State.writeApt p w s).med = s.med ∧
    (State.writeApt p w s).coh = s.coh ∧
    (State.writeApt p w s).lnk = s.lnk ∧
    (State.writeApt p w s).rte = s.rte ∧
    (State.writeApt p w s).cap = s.cap ∧
    (State.writeApt p w s).cry = s.cry ∧
    (State.writeApt p w s).flt = s.flt ∧
    (State.writeApt p w s).anl = s.anl ∧
    (State.writeApt p w s).cur = s.cur ∧
    (State.writeApt p w s).thm = s.thm ∧
    (State.writeApt p w s).pwr = s.pwr ∧
    (State.writeApt p w s).pmc = s.pmc ∧
    (State.writeApt p w s).out = s.out ∧
    (State.writeApt p w s).net = s.net ∧
    (State.writeApt p w s).freeCtr = s.freeCtr ∧
    (State.writeApt p w s).pending = s.pending := by
  unfold State.writeApt
  simp

theorem State.outOfRange_kept (p pa : Nat) (s : State) :
    (State.outOfRange p pa s).member = s.member ∧
    (State.outOfRange p pa s).now = s.now ∧
    (State.outOfRange p pa s).unstored = s.unstored ∧
    (State.outOfRange p pa s).host = s.host ∧
    (State.outOfRange p pa s).epo = s.epo ∧
    (State.outOfRange p pa s).cat = s.cat ∧
    (State.outOfRange p pa s).med = s.med ∧
    (State.outOfRange p pa s).coh = s.coh ∧
    (State.outOfRange p pa s).lnk = s.lnk ∧
    (State.outOfRange p pa s).rte = s.rte ∧
    (State.outOfRange p pa s).cap = s.cap ∧
    (State.outOfRange p pa s).cry = s.cry ∧
    (State.outOfRange p pa s).flt = s.flt ∧
    (State.outOfRange p pa s).cur = s.cur ∧
    (State.outOfRange p pa s).thm = s.thm ∧
    (State.outOfRange p pa s).pwr = s.pwr ∧
    (State.outOfRange p pa s).pmc = s.pmc ∧
    (State.outOfRange p pa s).out = s.out ∧
    (State.outOfRange p pa s).net = s.net ∧
    (State.outOfRange p pa s).freeCtr = s.freeCtr ∧
    (State.outOfRange p pa s).pending = s.pending := by
  unfold State.outOfRange
  simp

theorem State.dwLine_kept (p l : Nat) (env : MediaEnv) (s : State) :
    (State.dwLine p l env s).2.member = s.member ∧
    (State.dwLine p l env s).2.now = s.now ∧
    (State.dwLine p l env s).2.unstored = s.unstored ∧
    (State.dwLine p l env s).2.host = s.host ∧
    (State.dwLine p l env s).2.lnk = s.lnk ∧
    (State.dwLine p l env s).2.rte = s.rte ∧
    (State.dwLine p l env s).2.cap = s.cap ∧
    (State.dwLine p l env s).2.cur = s.cur ∧
    (State.dwLine p l env s).2.thm = s.thm ∧
    (State.dwLine p l env s).2.pwr = s.pwr ∧
    (State.dwLine p l env s).2.pending = s.pending := by
  have k1 := State.readLine_kept
  unfold State.dwLine
  dsimp only
  repeat' split
  all_goals simp [k1]

theorem State.dwBytes_kept (p pa len : Nat) (env : MediaEnv) (s : State) :
    (State.dwBytes p pa len env s).2.member = s.member ∧
    (State.dwBytes p pa len env s).2.now = s.now ∧
    (State.dwBytes p pa len env s).2.unstored = s.unstored ∧
    (State.dwBytes p pa len env s).2.host = s.host ∧
    (State.dwBytes p pa len env s).2.lnk = s.lnk ∧
    (State.dwBytes p pa len env s).2.rte = s.rte ∧
    (State.dwBytes p pa len env s).2.cap = s.cap ∧
    (State.dwBytes p pa len env s).2.cur = s.cur ∧
    (State.dwBytes p pa len env s).2.thm = s.thm ∧
    (State.dwBytes p pa len env s).2.pwr = s.pwr ∧
    (State.dwBytes p pa len env s).2.pending = s.pending := by
  have k1 := State.dwLine_kept
  unfold State.dwBytes
  (try dsimp only)
  refine ⟨foldl_snd_member _ _ _ ?_ _ _, foldl_snd_now _ _ _ ?_ _ _, foldl_snd_unstored _ _ _ ?_ _ _, foldl_snd_host _ _ _ ?_ _ _, foldl_snd_lnk _ _ _ ?_ _ _, foldl_snd_rte _ _ _ ?_ _ _, foldl_snd_cap _ _ _ ?_ _ _, foldl_snd_cur _ _ _ ?_ _ _, foldl_snd_thm _ _ _ ?_ _ _, foldl_snd_pwr _ _ _ ?_ _ _, foldl_snd_pending _ _ _ ?_ _ _⟩
  all_goals
    intro s x
    (try dsimp only)
    repeat' split
    all_goals (have hk := State.dwLine_kept p x env s.2; simp_all [k1])

theorem State.serveRead_kept (p pa len : Nat) (env : MediaEnv) (s : State) :
    (State.serveRead p pa len env s).member = s.member ∧
    (State.serveRead p pa len env s).now = s.now ∧
    (State.serveRead p pa len env s).unstored = s.unstored ∧
    (State.serveRead p pa len env s).lnk = s.lnk ∧
    (State.serveRead p pa len env s).rte = s.rte ∧
    (State.serveRead p pa len env s).thm = s.thm ∧
    (State.serveRead p pa len env s).pending = s.pending ∧
    (State.serveRead p pa len env s).pwr.straps = s.pwr.straps ∧
    (State.serveRead p pa len env s).cur.lifecycle = s.cur.lifecycle ∧
    (State.serveRead p pa len env s).cur.rootGen = s.cur.rootGen ∧
    (State.serveRead p pa len env s).cur.returns = s.cur.returns ∧
    (State.serveRead p pa len env s).cur.revoked = s.cur.revoked := by
  have k1 := State.dwBytes_kept
  have k2 := State.outOfRange_kept
  have h := State.dwBytes_kept p pa len env (if s.capacity < pa + max 1 len then s.outOfRange p pa else s)
  unfold State.serveRead
  dsimp only
  split <;> simp_all [k1, k2]

theorem State.storeLost_kept (p l cause : Nat) (s : State) :
    (State.storeLost p l cause s).member = s.member ∧
    (State.storeLost p l cause s).now = s.now ∧
    (State.storeLost p l cause s).unstored = s.unstored ∧
    (State.storeLost p l cause s).host = s.host ∧
    (State.storeLost p l cause s).epo = s.epo ∧
    (State.storeLost p l cause s).cat = s.cat ∧
    (State.storeLost p l cause s).med = s.med ∧
    (State.storeLost p l cause s).coh = s.coh ∧
    (State.storeLost p l cause s).lnk = s.lnk ∧
    (State.storeLost p l cause s).rte = s.rte ∧
    (State.storeLost p l cause s).cap = s.cap ∧
    (State.storeLost p l cause s).cry = s.cry ∧
    (State.storeLost p l cause s).flt = s.flt ∧
    (State.storeLost p l cause s).cur = s.cur ∧
    (State.storeLost p l cause s).thm = s.thm ∧
    (State.storeLost p l cause s).pwr = s.pwr ∧
    (State.storeLost p l cause s).pmc = s.pmc ∧
    (State.storeLost p l cause s).out = s.out ∧
    (State.storeLost p l cause s).net = s.net ∧
    (State.storeLost p l cause s).freeCtr = s.freeCtr ∧
    (State.storeLost p l cause s).pending = s.pending := by
  unfold State.storeLost
  simp

theorem State.storeLine_kept (p pa : Nat) (b : List (Option Byte)) (env : MediaEnv) (l : Nat) (s : State) :
    (State.storeLine p pa b env l s).member = s.member ∧
    (State.storeLine p pa b env l s).now = s.now ∧
    (State.storeLine p pa b env l s).unstored = s.unstored ∧
    (State.storeLine p pa b env l s).lnk = s.lnk ∧
    (State.storeLine p pa b env l s).rte = s.rte ∧
    (State.storeLine p pa b env l s).cur = s.cur ∧
    (State.storeLine p pa b env l s).thm = s.thm ∧
    (State.storeLine p pa b env l s).pwr = s.pwr ∧
    (State.storeLine p pa b env l s).pending = s.pending := by
  have k1 := State.storeLost_kept
  have k2 := State.writeBytes_kept
  have h := State.writeBytes_kept p l (storeBytes pa b l) env s
  unfold State.storeLine
  dsimp only
  repeat' split
  all_goals simp_all [k1, k2]

theorem State.serveStore_kept (p pa : Nat) (b : List (Option Byte)) (env : MediaEnv) (s : State) :
    (State.serveStore p pa b env s).member = s.member ∧
    (State.serveStore p pa b env s).now = s.now ∧
    (State.serveStore p pa b env s).unstored = s.unstored ∧
    (State.serveStore p pa b env s).lnk = s.lnk ∧
    (State.serveStore p pa b env s).rte = s.rte ∧
    (State.serveStore p pa b env s).cur = s.cur ∧
    (State.serveStore p pa b env s).thm = s.thm ∧
    (State.serveStore p pa b env s).pwr = s.pwr ∧
    (State.serveStore p pa b env s).pending = s.pending := by
  have k1 := State.outOfRange_kept
  have k2 := State.storeLine_kept
  unfold State.serveStore
  simp [k1, k2]

theorem State.holdDw_kept (p : Nat) (h : HeldAccess) (s : State) :
    (State.holdDw p h s).member = s.member ∧
    (State.holdDw p h s).now = s.now ∧
    (State.holdDw p h s).regs = s.regs ∧
    (State.holdDw p h s).unstored = s.unstored ∧
    (State.holdDw p h s).epo = s.epo ∧
    (State.holdDw p h s).cat = s.cat ∧
    (State.holdDw p h s).med = s.med ∧
    (State.holdDw p h s).coh = s.coh ∧
    (State.holdDw p h s).lnk = s.lnk ∧
    (State.holdDw p h s).rte = s.rte ∧
    (State.holdDw p h s).cap = s.cap ∧
    (State.holdDw p h s).cry = s.cry ∧
    (State.holdDw p h s).flt = s.flt ∧
    (State.holdDw p h s).anl = s.anl ∧
    (State.holdDw p h s).cur = s.cur ∧
    (State.holdDw p h s).thm = s.thm ∧
    (State.holdDw p h s).pwr = s.pwr ∧
    (State.holdDw p h s).pmc = s.pmc ∧
    (State.holdDw p h s).out = s.out ∧
    (State.holdDw p h s).net = s.net ∧
    (State.holdDw p h s).freeCtr = s.freeCtr ∧
    (State.holdDw p h s).pending = s.pending := by
  unfold State.holdDw
  simp

theorem State.bar2Atomic_kept (p : Nat) (s : State) :
    (State.bar2Atomic p s).member = s.member ∧
    (State.bar2Atomic p s).now = s.now ∧
    (State.bar2Atomic p s).regs = s.regs ∧
    (State.bar2Atomic p s).unstored = s.unstored ∧
    (State.bar2Atomic p s).host = s.host ∧
    (State.bar2Atomic p s).epo = s.epo ∧
    (State.bar2Atomic p s).cat = s.cat ∧
    (State.bar2Atomic p s).med = s.med ∧
    (State.bar2Atomic p s).coh = s.coh ∧
    (State.bar2Atomic p s).lnk = s.lnk ∧
    (State.bar2Atomic p s).rte = s.rte ∧
    (State.bar2Atomic p s).cap = s.cap ∧
    (State.bar2Atomic p s).cry = s.cry ∧
    (State.bar2Atomic p s).flt = s.flt ∧
    (State.bar2Atomic p s).anl = s.anl ∧
    (State.bar2Atomic p s).cur = s.cur ∧
    (State.bar2Atomic p s).thm = s.thm ∧
    (State.bar2Atomic p s).pwr = s.pwr ∧
    (State.bar2Atomic p s).pmc = s.pmc ∧
    (State.bar2Atomic p s).net = s.net ∧
    (State.bar2Atomic p s).freeCtr = s.freeCtr ∧
    (State.bar2Atomic p s).pending = s.pending := by
  unfold State.bar2Atomic
  simp

theorem State.serveDw_kept (p : Nat) (h : HeldAccess) (s : State) :
    (State.serveDw p h s).member = s.member ∧
    (State.serveDw p h s).now = s.now ∧
    (State.serveDw p h s).unstored = s.unstored ∧
    (State.serveDw p h s).lnk = s.lnk ∧
    (State.serveDw p h s).rte = s.rte ∧
    (State.serveDw p h s).thm = s.thm ∧
    (State.serveDw p h s).pending = s.pending ∧
    (State.serveDw p h s).pwr.straps = s.pwr.straps ∧
    (State.serveDw p h s).cur.lifecycle = s.cur.lifecycle ∧
    (State.serveDw p h s).cur.rootGen = s.cur.rootGen ∧
    (State.serveDw p h s).cur.returns = s.cur.returns ∧
    (State.serveDw p h s).cur.revoked = s.cur.revoked := by
  have k1 := State.serveRead_kept
  have k2 := State.serveStore_kept
  unfold State.serveDw
  repeat' split
  all_goals simp [k1, k2, *]

theorem State.serveHeld_kept (p : Nat) (l : List HeldAccess) (s : State) :
    (State.serveHeld p l s).member = s.member ∧
    (State.serveHeld p l s).now = s.now ∧
    (State.serveHeld p l s).unstored = s.unstored ∧
    (State.serveHeld p l s).rte = s.rte ∧
    (State.serveHeld p l s).thm = s.thm ∧
    (State.serveHeld p l s).pending = s.pending ∧
    (State.serveHeld p l s).pwr.straps = s.pwr.straps ∧
    (State.serveHeld p l s).cur.lifecycle = s.cur.lifecycle ∧
    (State.serveHeld p l s).cur.rootGen = s.cur.rootGen ∧
    (State.serveHeld p l s).cur.returns = s.cur.returns ∧
    (State.serveHeld p l s).cur.revoked = s.cur.revoked := by
  have k1 := State.asking_kept
  have k2 := State.serveDw_kept
  have k3 := State.tellFaults_kept
  have k4 := State.undoTriggers_kept
  induction l generalizing s with
  | nil => simp [k1, k2, k3, k4, State.serveHeld]
  | cons x l ih =>
    unfold State.serveHeld
    dsimp only
    repeat' split
    all_goals simp [k1, k2, k3, k4, ih]

theorem State.closeLate_kept (p : Nat) (s : State) :
    (State.closeLate p s).member = s.member ∧
    (State.closeLate p s).now = s.now ∧
    (State.closeLate p s).regs = s.regs ∧
    (State.closeLate p s).unstored = s.unstored ∧
    (State.closeLate p s).cat = s.cat ∧
    (State.closeLate p s).med = s.med ∧
    (State.closeLate p s).coh = s.coh ∧
    (State.closeLate p s).lnk = s.lnk ∧
    (State.closeLate p s).rte = s.rte ∧
    (State.closeLate p s).cap = s.cap ∧
    (State.closeLate p s).cry = s.cry ∧
    (State.closeLate p s).flt = s.flt ∧
    (State.closeLate p s).anl = s.anl ∧
    (State.closeLate p s).cur = s.cur ∧
    (State.closeLate p s).thm = s.thm ∧
    (State.closeLate p s).pwr = s.pwr ∧
    (State.closeLate p s).pmc = s.pmc ∧
    (State.closeLate p s).out = s.out ∧
    (State.closeLate p s).net = s.net ∧
    (State.closeLate p s).freeCtr = s.freeCtr ∧
    (State.closeLate p s).pending = s.pending := by
  unfold State.closeLate
  simp

theorem State.actHeld_kept (s : State) :
    (State.actHeld s).member = s.member ∧
    (State.actHeld s).now = s.now ∧
    (State.actHeld s).regs = s.regs ∧
    (State.actHeld s).unstored = s.unstored ∧
    (State.actHeld s).host = s.host ∧
    (State.actHeld s).cat = s.cat ∧
    (State.actHeld s).med = s.med ∧
    (State.actHeld s).coh = s.coh ∧
    (State.actHeld s).lnk = s.lnk ∧
    (State.actHeld s).rte = s.rte ∧
    (State.actHeld s).cap = s.cap ∧
    (State.actHeld s).cry = s.cry ∧
    (State.actHeld s).flt = s.flt ∧
    (State.actHeld s).anl = s.anl ∧
    (State.actHeld s).cur = s.cur ∧
    (State.actHeld s).thm = s.thm ∧
    (State.actHeld s).pwr = s.pwr ∧
    (State.actHeld s).pmc = s.pmc ∧
    (State.actHeld s).out = s.out ∧
    (State.actHeld s).net = s.net ∧
    (State.actHeld s).freeCtr = s.freeCtr ∧
    (State.actHeld s).pending = s.pending := by
  have k1 := State.actTriggers_kept
  unfold State.actHeld
  simp [k1]

theorem State.releaseHeld_kept (p : Nat) (s : State) :
    (State.releaseHeld p s).member = s.member ∧
    (State.releaseHeld p s).now = s.now ∧
    (State.releaseHeld p s).unstored = s.unstored ∧
    (State.releaseHeld p s).rte = s.rte ∧
    (State.releaseHeld p s).thm = s.thm ∧
    (State.releaseHeld p s).pending = s.pending ∧
    (State.releaseHeld p s).pwr.straps = s.pwr.straps ∧
    (State.releaseHeld p s).cur.lifecycle = s.cur.lifecycle ∧
    (State.releaseHeld p s).cur.rootGen = s.cur.rootGen ∧
    (State.releaseHeld p s).cur.returns = s.cur.returns ∧
    (State.releaseHeld p s).cur.revoked = s.cur.revoked := by
  have k1 := State.actHeld_kept
  have k2 := State.closeLate_kept
  have k3 := State.serveHeld_kept
  unfold State.releaseHeld
  simp [k1, k2, k3]

@[simp] theorem State.takeDw_kept (p : Nat) (h : HeldAccess) (s : State) :
    (State.takeDw p h s).member = s.member ∧
    (State.takeDw p h s).now = s.now ∧
    (State.takeDw p h s).unstored = s.unstored ∧
    (State.takeDw p h s).rte = s.rte ∧
    (State.takeDw p h s).thm = s.thm ∧
    (State.takeDw p h s).pending = s.pending ∧
    (State.takeDw p h s).pwr.straps = s.pwr.straps ∧
    (State.takeDw p h s).cur.lifecycle = s.cur.lifecycle ∧
    (State.takeDw p h s).cur.rootGen = s.cur.rootGen ∧
    (State.takeDw p h s).cur.returns = s.cur.returns ∧
    (State.takeDw p h s).cur.revoked = s.cur.revoked := by
  have k1 := State.holdDw_kept
  have k2 := State.releaseHeld_kept
  unfold State.takeDw
  dsimp only
  repeat' split
  all_goals simp [k1, k2]

theorem State.allot_kept (t line : Nat) (k : ReqKind) (stream reserved : Bool) (s : State) :
    (State.allot t line k stream reserved s).member = s.member ∧
    (State.allot t line k stream reserved s).now = s.now ∧
    (State.allot t line k stream reserved s).regs = s.regs ∧
    (State.allot t line k stream reserved s).unstored = s.unstored ∧
    (State.allot t line k stream reserved s).host = s.host ∧
    (State.allot t line k stream reserved s).epo = s.epo ∧
    (State.allot t line k stream reserved s).cat = s.cat ∧
    (State.allot t line k stream reserved s).med = s.med ∧
    (State.allot t line k stream reserved s).lnk = s.lnk ∧
    (State.allot t line k stream reserved s).rte = s.rte ∧
    (State.allot t line k stream reserved s).cap = s.cap ∧
    (State.allot t line k stream reserved s).cry = s.cry ∧
    (State.allot t line k stream reserved s).flt = s.flt ∧
    (State.allot t line k stream reserved s).anl = s.anl ∧
    (State.allot t line k stream reserved s).cur = s.cur ∧
    (State.allot t line k stream reserved s).thm = s.thm ∧
    (State.allot t line k stream reserved s).pwr = s.pwr ∧
    (State.allot t line k stream reserved s).out = s.out ∧
    (State.allot t line k stream reserved s).freeCtr = s.freeCtr ∧
    (State.allot t line k stream reserved s).pending = s.pending := by
  unfold State.allot
  simp

theorem State.issue_kept (t line : Nat) (k : ReqKind) (stream reserved : Bool) (s : State) :
    (State.issue t line k stream reserved s).member = s.member ∧
    (State.issue t line k stream reserved s).now = s.now ∧
    (State.issue t line k stream reserved s).unstored = s.unstored ∧
    (State.issue t line k stream reserved s).host = s.host ∧
    (State.issue t line k stream reserved s).lnk = s.lnk ∧
    (State.issue t line k stream reserved s).rte = s.rte ∧
    (State.issue t line k stream reserved s).cur = s.cur ∧
    (State.issue t line k stream reserved s).thm = s.thm ∧
    (State.issue t line k stream reserved s).pwr = s.pwr ∧
    (State.issue t line k stream reserved s).pending = s.pending := by
  have k1 := State.allot_kept
  unfold State.issue
  dsimp only
  repeat' split
  all_goals simp [k1]

theorem State.freeMiss_kept (t line : Nat) (s : State) :
    (State.freeMiss t line s).member = s.member ∧
    (State.freeMiss t line s).now = s.now ∧
    (State.freeMiss t line s).unstored = s.unstored ∧
    (State.freeMiss t line s).host = s.host ∧
    (State.freeMiss t line s).lnk = s.lnk ∧
    (State.freeMiss t line s).rte = s.rte ∧
    (State.freeMiss t line s).cur = s.cur ∧
    (State.freeMiss t line s).thm = s.thm ∧
    (State.freeMiss t line s).pwr = s.pwr ∧
    (State.freeMiss t line s).pending = s.pending := by
  have k1 := State.allot_kept
  unfold State.freeMiss
  dsimp only
  repeat' split
  all_goals simp [k1]

theorem State.grantTx_kept (line : Nat) (x : Tx) (k : MsgKind) (c : Option Content) (s : State) :
    (State.grantTx line x k c s).member = s.member ∧
    (State.grantTx line x k c s).now = s.now ∧
    (State.grantTx line x k c s).unstored = s.unstored ∧
    (State.grantTx line x k c s).host = s.host ∧
    (State.grantTx line x k c s).epo = s.epo ∧
    (State.grantTx line x k c s).med = s.med ∧
    (State.grantTx line x k c s).lnk = s.lnk ∧
    (State.grantTx line x k c s).rte = s.rte ∧
    (State.grantTx line x k c s).cap = s.cap ∧
    (State.grantTx line x k c s).flt = s.flt ∧
    (State.grantTx line x k c s).anl = s.anl ∧
    (State.grantTx line x k c s).cur = s.cur ∧
    (State.grantTx line x k c s).thm = s.thm ∧
    (State.grantTx line x k c s).pwr = s.pwr ∧
    (State.grantTx line x k c s).freeCtr = s.freeCtr ∧
    (State.grantTx line x k c s).pending = s.pending := by
  unfold State.grantTx
  simp

theorem State.homeData_kept (line : Nat) (x : Tx) (s : State) :
    (State.homeData line x s).member = s.member ∧
    (State.homeData line x s).now = s.now ∧
    (State.homeData line x s).unstored = s.unstored ∧
    (State.homeData line x s).host = s.host ∧
    (State.homeData line x s).epo = s.epo ∧
    (State.homeData line x s).lnk = s.lnk ∧
    (State.homeData line x s).rte = s.rte ∧
    (State.homeData line x s).cap = s.cap ∧
    (State.homeData line x s).cur = s.cur ∧
    (State.homeData line x s).thm = s.thm ∧
    (State.homeData line x s).pwr = s.pwr ∧
    (State.homeData line x s).freeCtr = s.freeCtr ∧
    (State.homeData line x s).pending = s.pending := by
  have k1 := State.grantTx_kept
  have k2 := State.homeRead_kept
  have k3 := State.markForged_kept
  have k4 := State.mediaLost_kept
  unfold State.homeData
  dsimp only
  repeat' split
  all_goals simp [k1, k2, k3, k4]

theorem State.finishGrant_kept (line : Nat) (x : Tx) (s : State) :
    (State.finishGrant line x s).member = s.member ∧
    (State.finishGrant line x s).now = s.now ∧
    (State.finishGrant line x s).unstored = s.unstored ∧
    (State.finishGrant line x s).host = s.host ∧
    (State.finishGrant line x s).lnk = s.lnk ∧
    (State.finishGrant line x s).rte = s.rte ∧
    (State.finishGrant line x s).cur = s.cur ∧
    (State.finishGrant line x s).thm = s.thm ∧
    (State.finishGrant line x s).pwr = s.pwr ∧
    (State.finishGrant line x s).pending = s.pending := by
  have k1 := State.grantTx_kept
  have k2 := State.homeData_kept
  unfold State.finishGrant
  dsimp only
  repeat' split
  all_goals simp [k1, k2]

theorem State.snoop_kept (line : Nat) (k : MsgKind) (ts : List Nat) (s : State) :
    (State.snoop line k ts s).member = s.member ∧
    (State.snoop line k ts s).now = s.now ∧
    (State.snoop line k ts s).regs = s.regs ∧
    (State.snoop line k ts s).unstored = s.unstored ∧
    (State.snoop line k ts s).host = s.host ∧
    (State.snoop line k ts s).epo = s.epo ∧
    (State.snoop line k ts s).cat = s.cat ∧
    (State.snoop line k ts s).med = s.med ∧
    (State.snoop line k ts s).coh = s.coh ∧
    (State.snoop line k ts s).lnk = s.lnk ∧
    (State.snoop line k ts s).rte = s.rte ∧
    (State.snoop line k ts s).cap = s.cap ∧
    (State.snoop line k ts s).cry = s.cry ∧
    (State.snoop line k ts s).flt = s.flt ∧
    (State.snoop line k ts s).anl = s.anl ∧
    (State.snoop line k ts s).cur = s.cur ∧
    (State.snoop line k ts s).thm = s.thm ∧
    (State.snoop line k ts s).pwr = s.pwr ∧
    (State.snoop line k ts s).out = s.out ∧
    (State.snoop line k ts s).freeCtr = s.freeCtr ∧
    (State.snoop line k ts s).pending = s.pending := by
  unfold State.snoop
  simp

theorem State.serve_kept (q : Tkt) (s : State) :
    (State.serve q s).member = s.member ∧
    (State.serve q s).now = s.now ∧
    (State.serve q s).unstored = s.unstored ∧
    (State.serve q s).host = s.host ∧
    (State.serve q s).lnk = s.lnk ∧
    (State.serve q s).rte = s.rte ∧
    (State.serve q s).cur = s.cur ∧
    (State.serve q s).thm = s.thm ∧
    (State.serve q s).pwr = s.pwr ∧
    (State.serve q s).pending = s.pending := by
  have k1 := State.dirRoom_kept
  have k2 := State.finishGrant_kept
  have k3 := State.setBusy_kept
  have k4 := State.snoop_kept
  unfold State.serve
  simp [k1, k2, k3, k4]

theorem State.refuse_kept (q : Tkt) (s : State) :
    (State.refuse q s).member = s.member ∧
    (State.refuse q s).now = s.now ∧
    (State.refuse q s).unstored = s.unstored ∧
    (State.refuse q s).host = s.host ∧
    (State.refuse q s).lnk = s.lnk ∧
    (State.refuse q s).rte = s.rte ∧
    (State.refuse q s).cur = s.cur ∧
    (State.refuse q s).thm = s.thm ∧
    (State.refuse q s).pwr = s.pwr ∧
    (State.refuse q s).pending = s.pending := by
  unfold State.refuse
  simp

theorem State.backInvalidate_kept (q : Tkt) (v : Nat) (s : State) :
    (State.backInvalidate q v s).member = s.member ∧
    (State.backInvalidate q v s).now = s.now ∧
    (State.backInvalidate q v s).unstored = s.unstored ∧
    (State.backInvalidate q v s).host = s.host ∧
    (State.backInvalidate q v s).lnk = s.lnk ∧
    (State.backInvalidate q v s).rte = s.rte ∧
    (State.backInvalidate q v s).cur = s.cur ∧
    (State.backInvalidate q v s).thm = s.thm ∧
    (State.backInvalidate q v s).pwr = s.pwr ∧
    (State.backInvalidate q v s).pending = s.pending := by
  have k1 := State.serve_kept
  have k2 := State.setBusy_kept
  have k3 := State.snoop_kept
  unfold State.backInvalidate
  simp [k1, k2, k3]

theorem State.letIn_kept (q : Tkt) (s : State) (t1 : State) (h : State.letIn q s = some t1) :
    t1.member = s.member ∧
    t1.now = s.now ∧
    t1.unstored = s.unstored ∧
    t1.host = s.host ∧
    t1.lnk = s.lnk ∧
    t1.rte = s.rte ∧
    t1.cur = s.cur ∧
    t1.thm = s.thm ∧
    t1.pwr = s.pwr ∧
    t1.pending = s.pending := by
  have k1 := State.backInvalidate_kept
  have k2 := State.serve_kept
  unfold State.letIn at h
  split at h
  · injection h with h; subst h; simp [k1, k2]
  · simp only [Option.map_eq_some_iff] at h
    obtain ⟨e, _, rfl⟩ := h
    simp [k1, k2]

theorem State.arrive_kept (q : Tkt) (s : State) :
    (State.arrive q s).member = s.member ∧
    (State.arrive q s).now = s.now ∧
    (State.arrive q s).unstored = s.unstored ∧
    (State.arrive q s).host = s.host ∧
    (State.arrive q s).lnk = s.lnk ∧
    (State.arrive q s).rte = s.rte ∧
    (State.arrive q s).cur = s.cur ∧
    (State.arrive q s).thm = s.thm ∧
    (State.arrive q s).pwr = s.pwr ∧
    (State.arrive q s).pending = s.pending := by
  have k1 := State.refuse_kept
  unfold State.arrive
  dsimp only
  split
  · simp [k1]
  · split
    · simp [k1]
    · cases h : State.letIn q (s.receive { kind := .req q.kind, src := q.tile, dst := s.home q.line, line := q.line }) with
      | none => simp [k1]
      | some x => have := State.letIn_kept _ _ _ h; simp_all [k1]

theorem State.nextTicket_kept (line : Nat) (s : State) :
    (State.nextTicket line s).member = s.member ∧
    (State.nextTicket line s).now = s.now ∧
    (State.nextTicket line s).unstored = s.unstored ∧
    (State.nextTicket line s).host = s.host ∧
    (State.nextTicket line s).lnk = s.lnk ∧
    (State.nextTicket line s).rte = s.rte ∧
    (State.nextTicket line s).cur = s.cur ∧
    (State.nextTicket line s).thm = s.thm ∧
    (State.nextTicket line s).pwr = s.pwr ∧
    (State.nextTicket line s).pending = s.pending := by
  unfold State.nextTicket
  dsimp only
  split
  · simp
  · rename_i q hq
    generalize hs : State.letIn q _ = o
    cases o with
    | none => simp
    | some x => have := State.letIn_kept _ _ _ hs; simp_all

@[simp] theorem State.unbusy_kept (line : Nat) (s : State) :
    (State.unbusy line s).member = s.member ∧
    (State.unbusy line s).now = s.now ∧
    (State.unbusy line s).unstored = s.unstored ∧
    (State.unbusy line s).host = s.host ∧
    (State.unbusy line s).lnk = s.lnk ∧
    (State.unbusy line s).rte = s.rte ∧
    (State.unbusy line s).cur = s.cur ∧
    (State.unbusy line s).thm = s.thm ∧
    (State.unbusy line s).pwr = s.pwr ∧
    (State.unbusy line s).pending = s.pending := by
  have k1 := State.nextTicket_kept
  unfold State.unbusy
  simp [k1]

theorem State.invalDone_kept (line : Nat) (x : Tx) (s : State) :
    (State.invalDone line x s).member = s.member ∧
    (State.invalDone line x s).now = s.now ∧
    (State.invalDone line x s).unstored = s.unstored ∧
    (State.invalDone line x s).host = s.host ∧
    (State.invalDone line x s).lnk = s.lnk ∧
    (State.invalDone line x s).rte = s.rte ∧
    (State.invalDone line x s).cur = s.cur ∧
    (State.invalDone line x s).thm = s.thm ∧
    (State.invalDone line x s).pwr = s.pwr ∧
    (State.invalDone line x s).pending = s.pending := by
  have k1 := State.nextTicket_kept
  have k2 := State.serve_kept
  unfold State.invalDone
  dsimp only
  repeat' split
  all_goals simp [k1, k2]

@[simp] theorem State.settleTx_kept (line : Nat) (x : Tx) (s : State) :
    (State.settleTx line x s).member = s.member ∧
    (State.settleTx line x s).now = s.now ∧
    (State.settleTx line x s).unstored = s.unstored ∧
    (State.settleTx line x s).host = s.host ∧
    (State.settleTx line x s).lnk = s.lnk ∧
    (State.settleTx line x s).rte = s.rte ∧
    (State.settleTx line x s).cur = s.cur ∧
    (State.settleTx line x s).thm = s.thm ∧
    (State.settleTx line x s).pwr = s.pwr ∧
    (State.settleTx line x s).pending = s.pending := by
  have k1 := State.finishGrant_kept
  have k2 := State.invalDone_kept
  unfold State.settleTx
  repeat' split
  all_goals simp [k1, k2, *]

theorem State.sendWb_kept (t line : Nat) (k : MsgKind) (v : NcLine) (s : State) :
    (State.sendWb t line k v s).member = s.member ∧
    (State.sendWb t line k v s).now = s.now ∧
    (State.sendWb t line k v s).regs = s.regs ∧
    (State.sendWb t line k v s).unstored = s.unstored ∧
    (State.sendWb t line k v s).host = s.host ∧
    (State.sendWb t line k v s).epo = s.epo ∧
    (State.sendWb t line k v s).cat = s.cat ∧
    (State.sendWb t line k v s).med = s.med ∧
    (State.sendWb t line k v s).lnk = s.lnk ∧
    (State.sendWb t line k v s).rte = s.rte ∧
    (State.sendWb t line k v s).cap = s.cap ∧
    (State.sendWb t line k v s).cry = s.cry ∧
    (State.sendWb t line k v s).flt = s.flt ∧
    (State.sendWb t line k v s).anl = s.anl ∧
    (State.sendWb t line k v s).cur = s.cur ∧
    (State.sendWb t line k v s).thm = s.thm ∧
    (State.sendWb t line k v s).pwr = s.pwr ∧
    (State.sendWb t line k v s).out = s.out ∧
    (State.sendWb t line k v s).freeCtr = s.freeCtr ∧
    (State.sendWb t line k v s).pending = s.pending := by
  unfold State.sendWb
  simp

theorem State.sendEvict_kept (t line : Nat) (s : State) :
    (State.sendEvict t line s).member = s.member ∧
    (State.sendEvict t line s).now = s.now ∧
    (State.sendEvict t line s).unstored = s.unstored ∧
    (State.sendEvict t line s).host = s.host ∧
    (State.sendEvict t line s).lnk = s.lnk ∧
    (State.sendEvict t line s).rte = s.rte ∧
    (State.sendEvict t line s).cur = s.cur ∧
    (State.sendEvict t line s).thm = s.thm ∧
    (State.sendEvict t line s).pwr = s.pwr ∧
    (State.sendEvict t line s).pending = s.pending := by
  have k1 := State.sendWb_kept
  unfold State.sendEvict
  simp [k1]

@[simp] theorem State.wbReturn_kept (t home : Nat) (s : State) :
    (State.wbReturn t home s).member = s.member ∧
    (State.wbReturn t home s).now = s.now ∧
    (State.wbReturn t home s).unstored = s.unstored ∧
    (State.wbReturn t home s).host = s.host ∧
    (State.wbReturn t home s).lnk = s.lnk ∧
    (State.wbReturn t home s).rte = s.rte ∧
    (State.wbReturn t home s).cur = s.cur ∧
    (State.wbReturn t home s).thm = s.thm ∧
    (State.wbReturn t home s).pwr = s.pwr ∧
    (State.wbReturn t home s).pending = s.pending := by
  have k1 := State.sendEvict_kept
  have k2 := State.wbBack_kept
  unfold State.wbReturn
  dsimp only
  repeat' split
  all_goals simp [k1, k2]

@[simp] theorem State.acceptWb_member (src line : Nat) (k : MsgKind) (c : Content) (f : State → State) (s : State) (h : ∀ s, (f s).member = s.member) :
    (State.acceptWb src line k c f s).member = s.member := by
  unfold State.acceptWb
  dsimp only
  split
  · rfl
  · simp [h]

@[simp] theorem State.acceptWb_now (src line : Nat) (k : MsgKind) (c : Content) (f : State → State) (s : State) (h : ∀ s, (f s).now = s.now) :
    (State.acceptWb src line k c f s).now = s.now := by
  unfold State.acceptWb
  dsimp only
  split
  · rfl
  · simp [h]

@[simp] theorem State.acceptWb_unstored (src line : Nat) (k : MsgKind) (c : Content) (f : State → State) (s : State) (h : ∀ s, (f s).unstored = s.unstored) :
    (State.acceptWb src line k c f s).unstored = s.unstored := by
  unfold State.acceptWb
  dsimp only
  split
  · rfl
  · simp [h]

@[simp] theorem State.acceptWb_host (src line : Nat) (k : MsgKind) (c : Content) (f : State → State) (s : State) (h : ∀ s, (f s).host = s.host) :
    (State.acceptWb src line k c f s).host = s.host := by
  unfold State.acceptWb
  dsimp only
  split
  · rfl
  · simp [h]

@[simp] theorem State.acceptWb_lnk (src line : Nat) (k : MsgKind) (c : Content) (f : State → State) (s : State) (h : ∀ s, (f s).lnk = s.lnk) :
    (State.acceptWb src line k c f s).lnk = s.lnk := by
  unfold State.acceptWb
  dsimp only
  split
  · rfl
  · simp [h]

@[simp] theorem State.acceptWb_rte (src line : Nat) (k : MsgKind) (c : Content) (f : State → State) (s : State) (h : ∀ s, (f s).rte = s.rte) :
    (State.acceptWb src line k c f s).rte = s.rte := by
  unfold State.acceptWb
  dsimp only
  split
  · rfl
  · simp [h]

@[simp] theorem State.acceptWb_cur (src line : Nat) (k : MsgKind) (c : Content) (f : State → State) (s : State) (h : ∀ s, (f s).cur = s.cur) :
    (State.acceptWb src line k c f s).cur = s.cur := by
  unfold State.acceptWb
  dsimp only
  split
  · rfl
  · simp [h]

@[simp] theorem State.acceptWb_thm (src line : Nat) (k : MsgKind) (c : Content) (f : State → State) (s : State) (h : ∀ s, (f s).thm = s.thm) :
    (State.acceptWb src line k c f s).thm = s.thm := by
  unfold State.acceptWb
  dsimp only
  split
  · rfl
  · simp [h]

@[simp] theorem State.acceptWb_pwr (src line : Nat) (k : MsgKind) (c : Content) (f : State → State) (s : State) (h : ∀ s, (f s).pwr = s.pwr) :
    (State.acceptWb src line k c f s).pwr = s.pwr := by
  unfold State.acceptWb
  dsimp only
  split
  · rfl
  · simp [h]

@[simp] theorem State.acceptWb_pending (src line : Nat) (k : MsgKind) (c : Content) (f : State → State) (s : State) (h : ∀ s, (f s).pending = s.pending) :
    (State.acceptWb src line k c f s).pending = s.pending := by
  unfold State.acceptWb
  dsimp only
  split
  · rfl
  · simp [h]

theorem State.evicted_kept (src line : Nat) (s : State) :
    (State.evicted src line s).member = s.member ∧
    (State.evicted src line s).now = s.now ∧
    (State.evicted src line s).unstored = s.unstored ∧
    (State.evicted src line s).host = s.host ∧
    (State.evicted src line s).lnk = s.lnk ∧
    (State.evicted src line s).rte = s.rte ∧
    (State.evicted src line s).cur = s.cur ∧
    (State.evicted src line s).thm = s.thm ∧
    (State.evicted src line s).pwr = s.pwr ∧
    (State.evicted src line s).pending = s.pending := by
  unfold State.evicted
  dsimp only
  repeat' split
  all_goals simp

@[simp] theorem State.evictArrives_kept (src line : Nat) (c : Content) (s : State) :
    (State.evictArrives src line c s).member = s.member ∧
    (State.evictArrives src line c s).now = s.now ∧
    (State.evictArrives src line c s).unstored = s.unstored ∧
    (State.evictArrives src line c s).host = s.host ∧
    (State.evictArrives src line c s).lnk = s.lnk ∧
    (State.evictArrives src line c s).rte = s.rte ∧
    (State.evictArrives src line c s).cur = s.cur ∧
    (State.evictArrives src line c s).thm = s.thm ∧
    (State.evictArrives src line c s).pwr = s.pwr ∧
    (State.evictArrives src line c s).pending = s.pending := by
  have k1 := State.evicted_kept
  unfold State.evictArrives
  simp [k1]

@[simp] theorem State.writebackArrives_kept (src line : Nat) (c : Content) (s : State) :
    (State.writebackArrives src line c s).member = s.member ∧
    (State.writebackArrives src line c s).now = s.now ∧
    (State.writebackArrives src line c s).unstored = s.unstored ∧
    (State.writebackArrives src line c s).host = s.host ∧
    (State.writebackArrives src line c s).lnk = s.lnk ∧
    (State.writebackArrives src line c s).rte = s.rte ∧
    (State.writebackArrives src line c s).cur = s.cur ∧
    (State.writebackArrives src line c s).thm = s.thm ∧
    (State.writebackArrives src line c s).pwr = s.pwr ∧
    (State.writebackArrives src line c s).pending = s.pending := by
  unfold State.writebackArrives
  simp

theorem State.wbFirst_kept (line : Nat) (ts : List Nat) (s : State) :
    (State.wbFirst line ts s).member = s.member ∧
    (State.wbFirst line ts s).now = s.now ∧
    (State.wbFirst line ts s).unstored = s.unstored ∧
    (State.wbFirst line ts s).host = s.host ∧
    (State.wbFirst line ts s).lnk = s.lnk ∧
    (State.wbFirst line ts s).rte = s.rte ∧
    (State.wbFirst line ts s).cur = s.cur ∧
    (State.wbFirst line ts s).thm = s.thm ∧
    (State.wbFirst line ts s).pwr = s.pwr ∧
    (State.wbFirst line ts s).pending = s.pending := by
  unfold State.wbFirst
  (try dsimp only)
  refine ⟨foldl_member _ _ ?_ _ _, foldl_now _ _ ?_ _ _, foldl_unstored _ _ ?_ _ _, foldl_host _ _ ?_ _ _, foldl_lnk _ _ ?_ _ _, foldl_rte _ _ ?_ _ _, foldl_cur _ _ ?_ _ _, foldl_thm _ _ ?_ _ _, foldl_pwr _ _ ?_ _ _, foldl_pending _ _ ?_ _ _⟩
  all_goals
    intro s x
    (try dsimp only)
    repeat' split
    all_goals simp

theorem State.wbBefore_kept (t line : Nat) (s : State) :
    (State.wbBefore t line s).member = s.member ∧
    (State.wbBefore t line s).now = s.now ∧
    (State.wbBefore t line s).unstored = s.unstored ∧
    (State.wbBefore t line s).host = s.host ∧
    (State.wbBefore t line s).lnk = s.lnk ∧
    (State.wbBefore t line s).rte = s.rte ∧
    (State.wbBefore t line s).cur = s.cur ∧
    (State.wbBefore t line s).thm = s.thm ∧
    (State.wbBefore t line s).pwr = s.pwr ∧
    (State.wbBefore t line s).pending = s.pending := by
  have k1 := State.wbFirst_kept
  unfold State.wbBefore
  simp [k1]

@[simp] theorem State.answered_kept (src line : Nat) (k : MsgKind) (c : Option Content) (f : Tx → Tx) (clear : Bool) (s : State) :
    (State.answered src line k c f clear s).member = s.member ∧
    (State.answered src line k c f clear s).now = s.now ∧
    (State.answered src line k c f clear s).unstored = s.unstored ∧
    (State.answered src line k c f clear s).host = s.host ∧
    (State.answered src line k c f clear s).lnk = s.lnk ∧
    (State.answered src line k c f clear s).rte = s.rte ∧
    (State.answered src line k c f clear s).cur = s.cur ∧
    (State.answered src line k c f clear s).thm = s.thm ∧
    (State.answered src line k c f clear s).pwr = s.pwr ∧
    (State.answered src line k c f clear s).pending = s.pending := by
  have k1 := State.wbBefore_kept
  unfold State.answered
  dsimp only
  repeat' split
  all_goals simp [k1]

theorem State.loses_kept (q : Tkt) (s : State) :
    (State.loses q s).member = s.member ∧
    (State.loses q s).now = s.now ∧
    (State.loses q s).unstored = s.unstored ∧
    (State.loses q s).host = s.host ∧
    (State.loses q s).lnk = s.lnk ∧
    (State.loses q s).rte = s.rte ∧
    (State.loses q s).cur = s.cur ∧
    (State.loses q s).thm = s.thm ∧
    (State.loses q s).pwr = s.pwr ∧
    (State.loses q s).pending = s.pending := by
  have k1 := State.refuse_kept
  unfold State.loses
  simp [k1]

@[simp] theorem State.arrivals_kept (q : Tkt) (peers : List Nat) (s : State) :
    (State.arrivals q peers s).member = s.member ∧
    (State.arrivals q peers s).now = s.now ∧
    (State.arrivals q peers s).unstored = s.unstored ∧
    (State.arrivals q peers s).host = s.host ∧
    (State.arrivals q peers s).lnk = s.lnk ∧
    (State.arrivals q peers s).rte = s.rte ∧
    (State.arrivals q peers s).cur = s.cur ∧
    (State.arrivals q peers s).thm = s.thm ∧
    (State.arrivals q peers s).pwr = s.pwr ∧
    (State.arrivals q peers s).pending = s.pending := by
  have k1 := State.arrive_kept
  have k2 := State.loses_kept
  have k3 := State.wbFirst_kept
  unfold State.arrivals
  dsimp only
  repeat' split
  all_goals simp [k1, k2, k3]

@[simp] theorem State.meet_kept (q : Tkt) (peers : List Nat) (s : State) :
    (State.meet q peers s).member = s.member ∧
    (State.meet q peers s).now = s.now ∧
    (State.meet q peers s).unstored = s.unstored ∧
    (State.meet q peers s).host = s.host ∧
    (State.meet q peers s).lnk = s.lnk ∧
    (State.meet q peers s).rte = s.rte ∧
    (State.meet q peers s).cur = s.cur ∧
    (State.meet q peers s).thm = s.thm ∧
    (State.meet q peers s).pwr = s.pwr ∧
    (State.meet q peers s).pending = s.pending := by
  have k1 := State.issue_kept
  unfold State.meet
  simp [k1]

@[simp] theorem State.requested_member (q : Tkt) (f : State → State) (s : State) (h : ∀ s, (f s).member = s.member) :
    (State.requested q f s).member = s.member := by
  have k1 := State.issue_kept
  unfold State.requested
  dsimp only
  repeat' split
  all_goals simp [k1, h]

@[simp] theorem State.requested_now (q : Tkt) (f : State → State) (s : State) (h : ∀ s, (f s).now = s.now) :
    (State.requested q f s).now = s.now := by
  have k1 := State.issue_kept
  unfold State.requested
  dsimp only
  repeat' split
  all_goals simp [k1, h]

@[simp] theorem State.requested_unstored (q : Tkt) (f : State → State) (s : State) (h : ∀ s, (f s).unstored = s.unstored) :
    (State.requested q f s).unstored = s.unstored := by
  have k1 := State.issue_kept
  unfold State.requested
  dsimp only
  repeat' split
  all_goals simp [k1, h]

@[simp] theorem State.requested_host (q : Tkt) (f : State → State) (s : State) (h : ∀ s, (f s).host = s.host) :
    (State.requested q f s).host = s.host := by
  have k1 := State.issue_kept
  unfold State.requested
  dsimp only
  repeat' split
  all_goals simp [k1, h]

@[simp] theorem State.requested_lnk (q : Tkt) (f : State → State) (s : State) (h : ∀ s, (f s).lnk = s.lnk) :
    (State.requested q f s).lnk = s.lnk := by
  have k1 := State.issue_kept
  unfold State.requested
  dsimp only
  repeat' split
  all_goals simp [k1, h]

@[simp] theorem State.requested_rte (q : Tkt) (f : State → State) (s : State) (h : ∀ s, (f s).rte = s.rte) :
    (State.requested q f s).rte = s.rte := by
  have k1 := State.issue_kept
  unfold State.requested
  dsimp only
  repeat' split
  all_goals simp [k1, h]

@[simp] theorem State.requested_cur (q : Tkt) (f : State → State) (s : State) (h : ∀ s, (f s).cur = s.cur) :
    (State.requested q f s).cur = s.cur := by
  have k1 := State.issue_kept
  unfold State.requested
  dsimp only
  repeat' split
  all_goals simp [k1, h]

@[simp] theorem State.requested_thm (q : Tkt) (f : State → State) (s : State) (h : ∀ s, (f s).thm = s.thm) :
    (State.requested q f s).thm = s.thm := by
  have k1 := State.issue_kept
  unfold State.requested
  dsimp only
  repeat' split
  all_goals simp [k1, h]

@[simp] theorem State.requested_pwr (q : Tkt) (f : State → State) (s : State) (h : ∀ s, (f s).pwr = s.pwr) :
    (State.requested q f s).pwr = s.pwr := by
  have k1 := State.issue_kept
  unfold State.requested
  dsimp only
  repeat' split
  all_goals simp [k1, h]

@[simp] theorem State.requested_pending (q : Tkt) (f : State → State) (s : State) (h : ∀ s, (f s).pending = s.pending) :
    (State.requested q f s).pending = s.pending := by
  have k1 := State.issue_kept
  unfold State.requested
  dsimp only
  repeat' split
  all_goals simp [k1, h]

theorem State.reply2_kept (dst line : Nat) (k : MsgKind) (c : Option Content) (s : State) :
    (State.reply2 dst line k c s).member = s.member ∧
    (State.reply2 dst line k c s).now = s.now ∧
    (State.reply2 dst line k c s).regs = s.regs ∧
    (State.reply2 dst line k c s).unstored = s.unstored ∧
    (State.reply2 dst line k c s).host = s.host ∧
    (State.reply2 dst line k c s).epo = s.epo ∧
    (State.reply2 dst line k c s).cat = s.cat ∧
    (State.reply2 dst line k c s).med = s.med ∧
    (State.reply2 dst line k c s).coh = s.coh ∧
    (State.reply2 dst line k c s).lnk = s.lnk ∧
    (State.reply2 dst line k c s).rte = s.rte ∧
    (State.reply2 dst line k c s).cap = s.cap ∧
    (State.reply2 dst line k c s).cry = s.cry ∧
    (State.reply2 dst line k c s).flt = s.flt ∧
    (State.reply2 dst line k c s).anl = s.anl ∧
    (State.reply2 dst line k c s).cur = s.cur ∧
    (State.reply2 dst line k c s).thm = s.thm ∧
    (State.reply2 dst line k c s).pwr = s.pwr ∧
    (State.reply2 dst line k c s).pmc = s.pmc ∧
    (State.reply2 dst line k c s).out = s.out ∧
    (State.reply2 dst line k c s).freeCtr = s.freeCtr ∧
    (State.reply2 dst line k c s).pending = s.pending := by
  unfold State.reply2
  simp

@[simp] theorem State.answerS_kept (dst line : Nat) (s : State) :
    (State.answerS dst line s).member = s.member ∧
    (State.answerS dst line s).now = s.now ∧
    (State.answerS dst line s).regs = s.regs ∧
    (State.answerS dst line s).unstored = s.unstored ∧
    (State.answerS dst line s).host = s.host ∧
    (State.answerS dst line s).epo = s.epo ∧
    (State.answerS dst line s).cat = s.cat ∧
    (State.answerS dst line s).med = s.med ∧
    (State.answerS dst line s).lnk = s.lnk ∧
    (State.answerS dst line s).rte = s.rte ∧
    (State.answerS dst line s).cap = s.cap ∧
    (State.answerS dst line s).cry = s.cry ∧
    (State.answerS dst line s).flt = s.flt ∧
    (State.answerS dst line s).anl = s.anl ∧
    (State.answerS dst line s).cur = s.cur ∧
    (State.answerS dst line s).thm = s.thm ∧
    (State.answerS dst line s).pwr = s.pwr ∧
    (State.answerS dst line s).pmc = s.pmc ∧
    (State.answerS dst line s).out = s.out ∧
    (State.answerS dst line s).freeCtr = s.freeCtr ∧
    (State.answerS dst line s).pending = s.pending := by
  have k1 := State.reply2_kept
  unfold State.answerS
  dsimp only
  repeat' split
  all_goals simp [k1]

@[simp] theorem State.answerI_kept (dst line : Nat) (s : State) :
    (State.answerI dst line s).member = s.member ∧
    (State.answerI dst line s).now = s.now ∧
    (State.answerI dst line s).regs = s.regs ∧
    (State.answerI dst line s).unstored = s.unstored ∧
    (State.answerI dst line s).host = s.host ∧
    (State.answerI dst line s).epo = s.epo ∧
    (State.answerI dst line s).cat = s.cat ∧
    (State.answerI dst line s).med = s.med ∧
    (State.answerI dst line s).lnk = s.lnk ∧
    (State.answerI dst line s).rte = s.rte ∧
    (State.answerI dst line s).cap = s.cap ∧
    (State.answerI dst line s).cry = s.cry ∧
    (State.answerI dst line s).flt = s.flt ∧
    (State.answerI dst line s).anl = s.anl ∧
    (State.answerI dst line s).cur = s.cur ∧
    (State.answerI dst line s).thm = s.thm ∧
    (State.answerI dst line s).pwr = s.pwr ∧
    (State.answerI dst line s).pmc = s.pmc ∧
    (State.answerI dst line s).out = s.out ∧
    (State.answerI dst line s).freeCtr = s.freeCtr ∧
    (State.answerI dst line s).pending = s.pending := by
  have k1 := State.reply2_kept
  unfold State.answerI
  dsimp only
  repeat' split
  all_goals simp [k1]

@[simp] theorem State.answerF_kept (dst line : Nat) (s : State) :
    (State.answerF dst line s).member = s.member ∧
    (State.answerF dst line s).now = s.now ∧
    (State.answerF dst line s).regs = s.regs ∧
    (State.answerF dst line s).unstored = s.unstored ∧
    (State.answerF dst line s).host = s.host ∧
    (State.answerF dst line s).epo = s.epo ∧
    (State.answerF dst line s).cat = s.cat ∧
    (State.answerF dst line s).med = s.med ∧
    (State.answerF dst line s).lnk = s.lnk ∧
    (State.answerF dst line s).rte = s.rte ∧
    (State.answerF dst line s).cap = s.cap ∧
    (State.answerF dst line s).cry = s.cry ∧
    (State.answerF dst line s).flt = s.flt ∧
    (State.answerF dst line s).anl = s.anl ∧
    (State.answerF dst line s).cur = s.cur ∧
    (State.answerF dst line s).thm = s.thm ∧
    (State.answerF dst line s).pwr = s.pwr ∧
    (State.answerF dst line s).out = s.out ∧
    (State.answerF dst line s).freeCtr = s.freeCtr ∧
    (State.answerF dst line s).pending = s.pending := by
  have k1 := State.reply2_kept
  have k2 := State.sendWb_kept
  unfold State.answerF
  dsimp only
  repeat' split
  all_goals simp [k1, k2]

@[simp] theorem State.snooped_member (dst line : Nat) (k : MsgKind) (f : State → State) (s : State) (h : ∀ s, (f s).member = s.member) :
    (State.snooped dst line k f s).member = s.member := by
  unfold State.snooped
  split
  · simp [h]
  · rfl

@[simp] theorem State.snooped_now (dst line : Nat) (k : MsgKind) (f : State → State) (s : State) (h : ∀ s, (f s).now = s.now) :
    (State.snooped dst line k f s).now = s.now := by
  unfold State.snooped
  split
  · simp [h]
  · rfl

@[simp] theorem State.snooped_regs (dst line : Nat) (k : MsgKind) (f : State → State) (s : State) (h : ∀ s, (f s).regs = s.regs) :
    (State.snooped dst line k f s).regs = s.regs := by
  unfold State.snooped
  split
  · simp [h]
  · rfl

@[simp] theorem State.snooped_unstored (dst line : Nat) (k : MsgKind) (f : State → State) (s : State) (h : ∀ s, (f s).unstored = s.unstored) :
    (State.snooped dst line k f s).unstored = s.unstored := by
  unfold State.snooped
  split
  · simp [h]
  · rfl

@[simp] theorem State.snooped_host (dst line : Nat) (k : MsgKind) (f : State → State) (s : State) (h : ∀ s, (f s).host = s.host) :
    (State.snooped dst line k f s).host = s.host := by
  unfold State.snooped
  split
  · simp [h]
  · rfl

@[simp] theorem State.snooped_epo (dst line : Nat) (k : MsgKind) (f : State → State) (s : State) (h : ∀ s, (f s).epo = s.epo) :
    (State.snooped dst line k f s).epo = s.epo := by
  unfold State.snooped
  split
  · simp [h]
  · rfl

@[simp] theorem State.snooped_cat (dst line : Nat) (k : MsgKind) (f : State → State) (s : State) (h : ∀ s, (f s).cat = s.cat) :
    (State.snooped dst line k f s).cat = s.cat := by
  unfold State.snooped
  split
  · simp [h]
  · rfl

@[simp] theorem State.snooped_med (dst line : Nat) (k : MsgKind) (f : State → State) (s : State) (h : ∀ s, (f s).med = s.med) :
    (State.snooped dst line k f s).med = s.med := by
  unfold State.snooped
  split
  · simp [h]
  · rfl

@[simp] theorem State.snooped_coh (dst line : Nat) (k : MsgKind) (f : State → State) (s : State) (h : ∀ s, (f s).coh = s.coh) :
    (State.snooped dst line k f s).coh = s.coh := by
  unfold State.snooped
  split
  · simp [h]
  · rfl

@[simp] theorem State.snooped_lnk (dst line : Nat) (k : MsgKind) (f : State → State) (s : State) (h : ∀ s, (f s).lnk = s.lnk) :
    (State.snooped dst line k f s).lnk = s.lnk := by
  unfold State.snooped
  split
  · simp [h]
  · rfl

@[simp] theorem State.snooped_rte (dst line : Nat) (k : MsgKind) (f : State → State) (s : State) (h : ∀ s, (f s).rte = s.rte) :
    (State.snooped dst line k f s).rte = s.rte := by
  unfold State.snooped
  split
  · simp [h]
  · rfl

@[simp] theorem State.snooped_cap (dst line : Nat) (k : MsgKind) (f : State → State) (s : State) (h : ∀ s, (f s).cap = s.cap) :
    (State.snooped dst line k f s).cap = s.cap := by
  unfold State.snooped
  split
  · simp [h]
  · rfl

@[simp] theorem State.snooped_cry (dst line : Nat) (k : MsgKind) (f : State → State) (s : State) (h : ∀ s, (f s).cry = s.cry) :
    (State.snooped dst line k f s).cry = s.cry := by
  unfold State.snooped
  split
  · simp [h]
  · rfl

@[simp] theorem State.snooped_flt (dst line : Nat) (k : MsgKind) (f : State → State) (s : State) (h : ∀ s, (f s).flt = s.flt) :
    (State.snooped dst line k f s).flt = s.flt := by
  unfold State.snooped
  split
  · simp [h]
  · rfl

@[simp] theorem State.snooped_anl (dst line : Nat) (k : MsgKind) (f : State → State) (s : State) (h : ∀ s, (f s).anl = s.anl) :
    (State.snooped dst line k f s).anl = s.anl := by
  unfold State.snooped
  split
  · simp [h]
  · rfl

@[simp] theorem State.snooped_cur (dst line : Nat) (k : MsgKind) (f : State → State) (s : State) (h : ∀ s, (f s).cur = s.cur) :
    (State.snooped dst line k f s).cur = s.cur := by
  unfold State.snooped
  split
  · simp [h]
  · rfl

@[simp] theorem State.snooped_thm (dst line : Nat) (k : MsgKind) (f : State → State) (s : State) (h : ∀ s, (f s).thm = s.thm) :
    (State.snooped dst line k f s).thm = s.thm := by
  unfold State.snooped
  split
  · simp [h]
  · rfl

@[simp] theorem State.snooped_pwr (dst line : Nat) (k : MsgKind) (f : State → State) (s : State) (h : ∀ s, (f s).pwr = s.pwr) :
    (State.snooped dst line k f s).pwr = s.pwr := by
  unfold State.snooped
  split
  · simp [h]
  · rfl

@[simp] theorem State.snooped_pmc (dst line : Nat) (k : MsgKind) (f : State → State) (s : State) (h : ∀ s, (f s).pmc = s.pmc) :
    (State.snooped dst line k f s).pmc = s.pmc := by
  unfold State.snooped
  split
  · simp [h]
  · rfl

@[simp] theorem State.snooped_out (dst line : Nat) (k : MsgKind) (f : State → State) (s : State) (h : ∀ s, (f s).out = s.out) :
    (State.snooped dst line k f s).out = s.out := by
  unfold State.snooped
  split
  · simp [h]
  · rfl

@[simp] theorem State.snooped_freeCtr (dst line : Nat) (k : MsgKind) (f : State → State) (s : State) (h : ∀ s, (f s).freeCtr = s.freeCtr) :
    (State.snooped dst line k f s).freeCtr = s.freeCtr := by
  unfold State.snooped
  split
  · simp [h]
  · rfl

@[simp] theorem State.snooped_pending (dst line : Nat) (k : MsgKind) (f : State → State) (s : State) (h : ∀ s, (f s).pending = s.pending) :
    (State.snooped dst line k f s).pending = s.pending := by
  unfold State.snooped
  split
  · simp [h]
  · rfl

@[simp] theorem State.fillPlace_kept (t line : Nat) (s : State) :
    (State.fillPlace t line s).2.member = s.member ∧
    (State.fillPlace t line s).2.now = s.now ∧
    (State.fillPlace t line s).2.regs = s.regs ∧
    (State.fillPlace t line s).2.unstored = s.unstored ∧
    (State.fillPlace t line s).2.host = s.host ∧
    (State.fillPlace t line s).2.epo = s.epo ∧
    (State.fillPlace t line s).2.cat = s.cat ∧
    (State.fillPlace t line s).2.med = s.med ∧
    (State.fillPlace t line s).2.lnk = s.lnk ∧
    (State.fillPlace t line s).2.rte = s.rte ∧
    (State.fillPlace t line s).2.cap = s.cap ∧
    (State.fillPlace t line s).2.cry = s.cry ∧
    (State.fillPlace t line s).2.flt = s.flt ∧
    (State.fillPlace t line s).2.anl = s.anl ∧
    (State.fillPlace t line s).2.cur = s.cur ∧
    (State.fillPlace t line s).2.thm = s.thm ∧
    (State.fillPlace t line s).2.pwr = s.pwr ∧
    (State.fillPlace t line s).2.pmc = s.pmc ∧
    (State.fillPlace t line s).2.out = s.out ∧
    (State.fillPlace t line s).2.net = s.net ∧
    (State.fillPlace t line s).2.pending = s.pending := by
  unfold State.fillPlace
  repeat' split
  all_goals simp [*]

@[simp] theorem State.granted_kept (dst line : Nat) (st : LState) (v : Stored) (epoch kid : Nat) (s : State) :
    (State.granted dst line st v epoch kid s).member = s.member ∧
    (State.granted dst line st v epoch kid s).now = s.now ∧
    (State.granted dst line st v epoch kid s).unstored = s.unstored ∧
    (State.granted dst line st v epoch kid s).host = s.host ∧
    (State.granted dst line st v epoch kid s).lnk = s.lnk ∧
    (State.granted dst line st v epoch kid s).rte = s.rte ∧
    (State.granted dst line st v epoch kid s).cur = s.cur ∧
    (State.granted dst line st v epoch kid s).thm = s.thm ∧
    (State.granted dst line st v epoch kid s).pwr = s.pwr ∧
    (State.granted dst line st v epoch kid s).pending = s.pending := by
  have k1 := State.freeMiss_kept
  unfold State.granted
  simp [k1]

@[simp] theorem State.refused_kept (dst line : Nat) (k : MsgKind) (ev : Nat) (f : Miss → Miss) (s : State) :
    (State.refused dst line k ev f s).member = s.member ∧
    (State.refused dst line k ev f s).now = s.now ∧
    (State.refused dst line k ev f s).regs = s.regs ∧
    (State.refused dst line k ev f s).unstored = s.unstored ∧
    (State.refused dst line k ev f s).host = s.host ∧
    (State.refused dst line k ev f s).epo = s.epo ∧
    (State.refused dst line k ev f s).cat = s.cat ∧
    (State.refused dst line k ev f s).med = s.med ∧
    (State.refused dst line k ev f s).lnk = s.lnk ∧
    (State.refused dst line k ev f s).rte = s.rte ∧
    (State.refused dst line k ev f s).cap = s.cap ∧
    (State.refused dst line k ev f s).cry = s.cry ∧
    (State.refused dst line k ev f s).flt = s.flt ∧
    (State.refused dst line k ev f s).anl = s.anl ∧
    (State.refused dst line k ev f s).cur = s.cur ∧
    (State.refused dst line k ev f s).thm = s.thm ∧
    (State.refused dst line k ev f s).pwr = s.pwr ∧
    (State.refused dst line k ev f s).out = s.out ∧
    (State.refused dst line k ev f s).freeCtr = s.freeCtr ∧
    (State.refused dst line k ev f s).pending = s.pending := by
  unfold State.refused
  repeat' split
  all_goals simp [*]

@[simp] theorem State.evictVictim_kept (t line : Nat) (s : State) :
    (State.evictVictim t line s).member = s.member ∧
    (State.evictVictim t line s).now = s.now ∧
    (State.evictVictim t line s).unstored = s.unstored ∧
    (State.evictVictim t line s).host = s.host ∧
    (State.evictVictim t line s).lnk = s.lnk ∧
    (State.evictVictim t line s).rte = s.rte ∧
    (State.evictVictim t line s).cur = s.cur ∧
    (State.evictVictim t line s).thm = s.thm ∧
    (State.evictVictim t line s).pwr = s.pwr ∧
    (State.evictVictim t line s).pending = s.pending := by
  have k1 := State.sendEvict_kept
  unfold State.evictVictim
  dsimp only
  repeat' split
  all_goals simp [k1]

@[simp] theorem State.refill_kept (t line : Nat) (s : State) :
    (State.refill t line s).member = s.member ∧
    (State.refill t line s).now = s.now ∧
    (State.refill t line s).unstored = s.unstored ∧
    (State.refill t line s).host = s.host ∧
    (State.refill t line s).lnk = s.lnk ∧
    (State.refill t line s).rte = s.rte ∧
    (State.refill t line s).cur = s.cur ∧
    (State.refill t line s).thm = s.thm ∧
    (State.refill t line s).pwr = s.pwr ∧
    (State.refill t line s).pending = s.pending := by
  have k1 := State.issue_kept
  unfold State.refill
  simp [k1]

theorem State.clearBank_kept (p : Nat) (s : State) :
    (State.clearBank p s).member = s.member ∧
    (State.clearBank p s).now = s.now ∧
    (State.clearBank p s).regs = s.regs ∧
    (State.clearBank p s).unstored = s.unstored ∧
    (State.clearBank p s).epo = s.epo ∧
    (State.clearBank p s).cat = s.cat ∧
    (State.clearBank p s).med = s.med ∧
    (State.clearBank p s).coh = s.coh ∧
    (State.clearBank p s).lnk = s.lnk ∧
    (State.clearBank p s).rte = s.rte ∧
    (State.clearBank p s).cap = s.cap ∧
    (State.clearBank p s).cry = s.cry ∧
    (State.clearBank p s).flt = s.flt ∧
    (State.clearBank p s).anl = s.anl ∧
    (State.clearBank p s).cur = s.cur ∧
    (State.clearBank p s).thm = s.thm ∧
    (State.clearBank p s).pwr = s.pwr ∧
    (State.clearBank p s).pmc = s.pmc ∧
    (State.clearBank p s).out = s.out ∧
    (State.clearBank p s).net = s.net ∧
    (State.clearBank p s).freeCtr = s.freeCtr ∧
    (State.clearBank p s).pending = s.pending := by
  unfold State.clearBank
  simp

@[simp] theorem State.flrPort_kept (p : Nat) (s : State) :
    (State.flrPort p s).member = s.member ∧
    (State.flrPort p s).now = s.now ∧
    (State.flrPort p s).unstored = s.unstored ∧
    (State.flrPort p s).epo = s.epo ∧
    (State.flrPort p s).cat = s.cat ∧
    (State.flrPort p s).med = s.med ∧
    (State.flrPort p s).coh = s.coh ∧
    (State.flrPort p s).lnk = s.lnk ∧
    (State.flrPort p s).rte = s.rte ∧
    (State.flrPort p s).cap = s.cap ∧
    (State.flrPort p s).cry = s.cry ∧
    (State.flrPort p s).flt = s.flt ∧
    (State.flrPort p s).anl = s.anl ∧
    (State.flrPort p s).cur = s.cur ∧
    (State.flrPort p s).thm = s.thm ∧
    (State.flrPort p s).pwr = s.pwr ∧
    (State.flrPort p s).pmc = s.pmc ∧
    (State.flrPort p s).out = s.out ∧
    (State.flrPort p s).net = s.net ∧
    (State.flrPort p s).freeCtr = s.freeCtr ∧
    (State.flrPort p s).pending = s.pending := by
  have k1 := State.clearBank_kept
  unfold State.flrPort
  simp [k1]

theorem State.endCmds_kept (p : Nat) (s : State) :
    (State.endCmds p s).member = s.member ∧
    (State.endCmds p s).now = s.now ∧
    (State.endCmds p s).regs = s.regs ∧
    (State.endCmds p s).unstored = s.unstored ∧
    (State.endCmds p s).cat = s.cat ∧
    (State.endCmds p s).med = s.med ∧
    (State.endCmds p s).coh = s.coh ∧
    (State.endCmds p s).lnk = s.lnk ∧
    (State.endCmds p s).rte = s.rte ∧
    (State.endCmds p s).cap = s.cap ∧
    (State.endCmds p s).cry = s.cry ∧
    (State.endCmds p s).flt = s.flt ∧
    (State.endCmds p s).anl = s.anl ∧
    (State.endCmds p s).thm = s.thm ∧
    (State.endCmds p s).pwr = s.pwr ∧
    (State.endCmds p s).pmc = s.pmc ∧
    (State.endCmds p s).out = s.out ∧
    (State.endCmds p s).net = s.net ∧
    (State.endCmds p s).freeCtr = s.freeCtr ∧
    (State.endCmds p s).pending = s.pending ∧
    (State.endCmds p s).cur.lifecycle = s.cur.lifecycle ∧
    (State.endCmds p s).cur.rootGen = s.cur.rootGen ∧
    (State.endCmds p s).cur.returns = s.cur.returns ∧
    (State.endCmds p s).cur.revoked = s.cur.revoked := by
  unfold State.endCmds
  simp

theorem State.undoOne_kept (u : Undo) (s : State) :
    (State.undoOne u s).member = s.member ∧
    (State.undoOne u s).now = s.now ∧
    (State.undoOne u s).unstored = s.unstored ∧
    (State.undoOne u s).host = s.host ∧
    (State.undoOne u s).epo = s.epo ∧
    (State.undoOne u s).med = s.med ∧
    (State.undoOne u s).coh = s.coh ∧
    (State.undoOne u s).lnk = s.lnk ∧
    (State.undoOne u s).rte = s.rte ∧
    (State.undoOne u s).cap = s.cap ∧
    (State.undoOne u s).flt = s.flt ∧
    (State.undoOne u s).anl = s.anl ∧
    (State.undoOne u s).cur = s.cur ∧
    (State.undoOne u s).thm = s.thm ∧
    (State.undoOne u s).pwr = s.pwr ∧
    (State.undoOne u s).net = s.net ∧
    (State.undoOne u s).freeCtr = s.freeCtr ∧
    (State.undoOne u s).pending = s.pending := by
  unfold State.undoOne
  simp

theorem State.restoreData_kept (d : Nat) (s : State) :
    (State.restoreData d s).member = s.member ∧
    (State.restoreData d s).now = s.now ∧
    (State.restoreData d s).unstored = s.unstored ∧
    (State.restoreData d s).host = s.host ∧
    (State.restoreData d s).epo = s.epo ∧
    (State.restoreData d s).med = s.med ∧
    (State.restoreData d s).coh = s.coh ∧
    (State.restoreData d s).lnk = s.lnk ∧
    (State.restoreData d s).rte = s.rte ∧
    (State.restoreData d s).cap = s.cap ∧
    (State.restoreData d s).flt = s.flt ∧
    (State.restoreData d s).anl = s.anl ∧
    (State.restoreData d s).cur = s.cur ∧
    (State.restoreData d s).thm = s.thm ∧
    (State.restoreData d s).pwr = s.pwr ∧
    (State.restoreData d s).net = s.net ∧
    (State.restoreData d s).freeCtr = s.freeCtr ∧
    (State.restoreData d s).pending = s.pending := by
  have k1 := State.killPages_kept
  have k2 := State.undoOne_kept
  unfold State.restoreData
  simp [k1, k2]

theorem State.bootEpochs_kept (s : State) :
    (State.bootEpochs s).member = s.member ∧
    (State.bootEpochs s).now = s.now ∧
    (State.bootEpochs s).regs = s.regs ∧
    (State.bootEpochs s).unstored = s.unstored ∧
    (State.bootEpochs s).host = s.host ∧
    (State.bootEpochs s).cat = s.cat ∧
    (State.bootEpochs s).med = s.med ∧
    (State.bootEpochs s).coh = s.coh ∧
    (State.bootEpochs s).lnk = s.lnk ∧
    (State.bootEpochs s).rte = s.rte ∧
    (State.bootEpochs s).cap = s.cap ∧
    (State.bootEpochs s).cry = s.cry ∧
    (State.bootEpochs s).flt = s.flt ∧
    (State.bootEpochs s).anl = s.anl ∧
    (State.bootEpochs s).cur = s.cur ∧
    (State.bootEpochs s).thm = s.thm ∧
    (State.bootEpochs s).pwr = s.pwr ∧
    (State.bootEpochs s).pmc = s.pmc ∧
    (State.bootEpochs s).out = s.out ∧
    (State.bootEpochs s).net = s.net ∧
    (State.bootEpochs s).freeCtr = s.freeCtr ∧
    (State.bootEpochs s).pending = s.pending := by
  unfold State.bootEpochs
  simp

theorem State.resetCoh_kept (t : Nat) (s : State) :
    (State.resetCoh t s).member = s.member ∧
    (State.resetCoh t s).now = s.now ∧
    (State.resetCoh t s).unstored = s.unstored ∧
    (State.resetCoh t s).host = s.host ∧
    (State.resetCoh t s).lnk = s.lnk ∧
    (State.resetCoh t s).rte = s.rte ∧
    (State.resetCoh t s).cur = s.cur ∧
    (State.resetCoh t s).thm = s.thm ∧
    (State.resetCoh t s).pwr = s.pwr ∧
    (State.resetCoh t s).pending = s.pending := by
  have k1 := State.nextTicket_kept
  unfold State.resetCoh
  simp [k1]

@[simp] theorem State.trainPorts_kept (t : Nat) (s : State) :
    (State.trainPorts t s).member = s.member ∧
    (State.trainPorts t s).now = s.now ∧
    (State.trainPorts t s).regs = s.regs ∧
    (State.trainPorts t s).unstored = s.unstored ∧
    (State.trainPorts t s).host = s.host ∧
    (State.trainPorts t s).epo = s.epo ∧
    (State.trainPorts t s).cat = s.cat ∧
    (State.trainPorts t s).med = s.med ∧
    (State.trainPorts t s).coh = s.coh ∧
    (State.trainPorts t s).rte = s.rte ∧
    (State.trainPorts t s).cap = s.cap ∧
    (State.trainPorts t s).cry = s.cry ∧
    (State.trainPorts t s).flt = s.flt ∧
    (State.trainPorts t s).anl = s.anl ∧
    (State.trainPorts t s).cur = s.cur ∧
    (State.trainPorts t s).thm = s.thm ∧
    (State.trainPorts t s).pwr = s.pwr ∧
    (State.trainPorts t s).pmc = s.pmc ∧
    (State.trainPorts t s).out = s.out ∧
    (State.trainPorts t s).net = s.net ∧
    (State.trainPorts t s).freeCtr = s.freeCtr ∧
    (State.trainPorts t s).pending = s.pending := by
  unfold State.trainPorts
  simp

theorem State.resetTile_kept (t : Nat) (s : State) :
    (State.resetTile t s).member = s.member ∧
    (State.resetTile t s).now = s.now ∧
    (State.resetTile t s).unstored = s.unstored ∧
    (State.resetTile t s).host = s.host ∧
    (State.resetTile t s).cur = s.cur ∧
    (State.resetTile t s).thm = s.thm ∧
    (State.resetTile t s).pwr = s.pwr ∧
    (State.resetTile t s).pending = s.pending := by
  have k1 := State.disablePorts_kept
  have k2 := State.killUnprogrammed_kept
  have k3 := State.resetCoh_kept
  have k4 := State.writeBackNodes_kept
  unfold State.resetTile
  simp [k1, k2, k3, k4]

theorem State.resetIslands_kept (e : Rst) (s : State) :
    (State.resetIslands e s).member = s.member ∧
    (State.resetIslands e s).now = s.now ∧
    (State.resetIslands e s).unstored = s.unstored ∧
    (State.resetIslands e s).epo = s.epo ∧
    (State.resetIslands e s).out = s.out ∧
    (State.resetIslands e s).freeCtr = s.freeCtr ∧
    (State.resetIslands e s).pending = s.pending ∧
    (State.resetIslands e s).pwr.straps = s.pwr.straps ∧
    (State.resetIslands e s).cur.lifecycle = s.cur.lifecycle ∧
    (State.resetIslands e s).cur.rootGen = s.cur.rootGen ∧
    (State.resetIslands e s).cur.returns = s.cur.returns ∧
    (State.resetIslands e s).cur.revoked = s.cur.revoked := by
  unfold State.resetIslands
  simp

theorem State.rebootCurators_kept (s : State) :
    (State.rebootCurators s).member = s.member ∧
    (State.rebootCurators s).now = s.now ∧
    (State.rebootCurators s).regs = s.regs ∧
    (State.rebootCurators s).unstored = s.unstored ∧
    (State.rebootCurators s).host = s.host ∧
    (State.rebootCurators s).epo = s.epo ∧
    (State.rebootCurators s).cat = s.cat ∧
    (State.rebootCurators s).med = s.med ∧
    (State.rebootCurators s).coh = s.coh ∧
    (State.rebootCurators s).lnk = s.lnk ∧
    (State.rebootCurators s).rte = s.rte ∧
    (State.rebootCurators s).cap = s.cap ∧
    (State.rebootCurators s).cry = s.cry ∧
    (State.rebootCurators s).flt = s.flt ∧
    (State.rebootCurators s).anl = s.anl ∧
    (State.rebootCurators s).thm = s.thm ∧
    (State.rebootCurators s).pwr = s.pwr ∧
    (State.rebootCurators s).pmc = s.pmc ∧
    (State.rebootCurators s).out = s.out ∧
    (State.rebootCurators s).net = s.net ∧
    (State.rebootCurators s).freeCtr = s.freeCtr ∧
    (State.rebootCurators s).pending = s.pending ∧
    (State.rebootCurators s).cur.lifecycle = s.cur.lifecycle ∧
    (State.rebootCurators s).cur.rootGen = s.cur.rootGen ∧
    (State.rebootCurators s).cur.returns = s.cur.returns ∧
    (State.rebootCurators s).cur.revoked = s.cur.revoked := by
  unfold State.rebootCurators
  simp

theorem State.killAll_kept (s : State) :
    (State.killAll s).member = s.member ∧
    (State.killAll s).now = s.now ∧
    (State.killAll s).unstored = s.unstored ∧
    (State.killAll s).host = s.host ∧
    (State.killAll s).epo = s.epo ∧
    (State.killAll s).med = s.med ∧
    (State.killAll s).coh = s.coh ∧
    (State.killAll s).lnk = s.lnk ∧
    (State.killAll s).rte = s.rte ∧
    (State.killAll s).cap = s.cap ∧
    (State.killAll s).cry = s.cry ∧
    (State.killAll s).flt = s.flt ∧
    (State.killAll s).anl = s.anl ∧
    (State.killAll s).cur = s.cur ∧
    (State.killAll s).thm = s.thm ∧
    (State.killAll s).pwr = s.pwr ∧
    (State.killAll s).pmc = s.pmc ∧
    (State.killAll s).out = s.out ∧
    (State.killAll s).net = s.net ∧
    (State.killAll s).freeCtr = s.freeCtr ∧
    (State.killAll s).pending = s.pending := by
  have k1 := State.killUnprogrammed_kept
  unfold State.killAll
  simp [k1]

theorem State.afterWarm_kept (s : State) :
    (State.afterWarm s).member = s.member ∧
    (State.afterWarm s).now = s.now ∧
    (State.afterWarm s).unstored = s.unstored ∧
    (State.afterWarm s).freeCtr = s.freeCtr ∧
    (State.afterWarm s).pending = s.pending ∧
    (State.afterWarm s).pwr.straps = s.pwr.straps ∧
    (State.afterWarm s).cur.lifecycle = s.cur.lifecycle ∧
    (State.afterWarm s).cur.rootGen = s.cur.rootGen ∧
    (State.afterWarm s).cur.returns = s.cur.returns ∧
    (State.afterWarm s).cur.revoked = s.cur.revoked := by
  have k1 := State.bootEpochs_kept
  have k2 := State.killAll_kept
  have k3 := State.rebootCurators_kept
  have k4 := State.resetIslands_kept
  have k5 := State.restoreData_kept
  have k6 := State.warm_kept
  have k7 := State.writeBackNodes_kept
  unfold State.afterWarm
  simp [k1, k2, k3, k4, k5, k6, k7]

@[simp] theorem State.afterHard_kept (e : Rst) (s : State) :
    (State.afterHard e s).member = s.member ∧
    (State.afterHard e s).now = s.now ∧
    (State.afterHard e s).unstored = s.unstored ∧
    (State.afterHard e s).out = s.out ∧
    (State.afterHard e s).freeCtr = s.freeCtr ∧
    (State.afterHard e s).pending = s.pending ∧
    (State.afterHard e s).pwr.straps = s.pwr.straps ∧
    (State.afterHard e s).cur.lifecycle = s.cur.lifecycle ∧
    (State.afterHard e s).cur.rootGen = s.cur.rootGen ∧
    (State.afterHard e s).cur.returns = s.cur.returns ∧
    (State.afterHard e s).cur.revoked = s.cur.revoked := by
  have k1 := State.bootEpochs_kept
  have k2 := State.resetIslands_kept
  unfold State.afterHard
  simp [k1, k2]

@[simp] theorem State.releaseIslands_kept (s : State) :
    (State.releaseIslands s).member = s.member ∧
    (State.releaseIslands s).now = s.now ∧
    (State.releaseIslands s).unstored = s.unstored ∧
    (State.releaseIslands s).host = s.host ∧
    (State.releaseIslands s).epo = s.epo ∧
    (State.releaseIslands s).cat = s.cat ∧
    (State.releaseIslands s).med = s.med ∧
    (State.releaseIslands s).coh = s.coh ∧
    (State.releaseIslands s).rte = s.rte ∧
    (State.releaseIslands s).cap = s.cap ∧
    (State.releaseIslands s).cry = s.cry ∧
    (State.releaseIslands s).flt = s.flt ∧
    (State.releaseIslands s).anl = s.anl ∧
    (State.releaseIslands s).cur = s.cur ∧
    (State.releaseIslands s).thm = s.thm ∧
    (State.releaseIslands s).pmc = s.pmc ∧
    (State.releaseIslands s).out = s.out ∧
    (State.releaseIslands s).net = s.net ∧
    (State.releaseIslands s).freeCtr = s.freeCtr ∧
    (State.releaseIslands s).pending = s.pending ∧
    (State.releaseIslands s).pwr.straps = s.pwr.straps := by
  unfold State.releaseIslands
  simp

@[simp] theorem State.goStep_kept (n : Nat) (s : State) :
    (State.goStep n s).member = s.member ∧
    (State.goStep n s).now = s.now ∧
    (State.goStep n s).regs = s.regs ∧
    (State.goStep n s).unstored = s.unstored ∧
    (State.goStep n s).host = s.host ∧
    (State.goStep n s).epo = s.epo ∧
    (State.goStep n s).cat = s.cat ∧
    (State.goStep n s).med = s.med ∧
    (State.goStep n s).coh = s.coh ∧
    (State.goStep n s).lnk = s.lnk ∧
    (State.goStep n s).rte = s.rte ∧
    (State.goStep n s).cap = s.cap ∧
    (State.goStep n s).cry = s.cry ∧
    (State.goStep n s).flt = s.flt ∧
    (State.goStep n s).anl = s.anl ∧
    (State.goStep n s).cur = s.cur ∧
    (State.goStep n s).thm = s.thm ∧
    (State.goStep n s).pmc = s.pmc ∧
    (State.goStep n s).out = s.out ∧
    (State.goStep n s).net = s.net ∧
    (State.goStep n s).freeCtr = s.freeCtr ∧
    (State.goStep n s).pending = s.pending ∧
    (State.goStep n s).pwr.straps = s.pwr.straps := by
  unfold State.goStep
  simp

@[simp] theorem State.enterFalling_kept (n : Nat) (s : State) :
    (State.enterFalling n s).member = s.member ∧
    (State.enterFalling n s).now = s.now ∧
    (State.enterFalling n s).unstored = s.unstored ∧
    (State.enterFalling n s).out = s.out ∧
    (State.enterFalling n s).freeCtr = s.freeCtr ∧
    (State.enterFalling n s).pending = s.pending ∧
    (State.enterFalling n s).pwr.straps = s.pwr.straps ∧
    (State.enterFalling n s).cur.lifecycle = s.cur.lifecycle ∧
    (State.enterFalling n s).cur.rootGen = s.cur.rootGen ∧
    (State.enterFalling n s).cur.returns = s.cur.returns ∧
    (State.enterFalling n s).cur.revoked = s.cur.revoked := by
  unfold State.enterFalling
  dsimp only
  repeat' split
  all_goals simp

@[simp] theorem State.startRising_kept (s : State) :
    (State.startRising s).member = s.member ∧
    (State.startRising s).now = s.now ∧
    (State.startRising s).regs = s.regs ∧
    (State.startRising s).unstored = s.unstored ∧
    (State.startRising s).host = s.host ∧
    (State.startRising s).epo = s.epo ∧
    (State.startRising s).cat = s.cat ∧
    (State.startRising s).med = s.med ∧
    (State.startRising s).coh = s.coh ∧
    (State.startRising s).lnk = s.lnk ∧
    (State.startRising s).rte = s.rte ∧
    (State.startRising s).cap = s.cap ∧
    (State.startRising s).cry = s.cry ∧
    (State.startRising s).flt = s.flt ∧
    (State.startRising s).anl = s.anl ∧
    (State.startRising s).cur = s.cur ∧
    (State.startRising s).thm = s.thm ∧
    (State.startRising s).pmc = s.pmc ∧
    (State.startRising s).out = s.out ∧
    (State.startRising s).net = s.net ∧
    (State.startRising s).freeCtr = s.freeCtr ∧
    (State.startRising s).pending = s.pending ∧
    (State.startRising s).pwr.straps = s.pwr.straps := by
  unfold State.startRising
  simp

@[simp] theorem State.shutDown_kept (s : State) :
    (State.shutDown s).member = s.member ∧
    (State.shutDown s).now = s.now ∧
    (State.shutDown s).unstored = s.unstored ∧
    (State.shutDown s).out = s.out ∧
    (State.shutDown s).freeCtr = s.freeCtr ∧
    (State.shutDown s).pending = s.pending ∧
    (State.shutDown s).pwr.straps = s.pwr.straps ∧
    (State.shutDown s).cur.lifecycle = s.cur.lifecycle ∧
    (State.shutDown s).cur.rootGen = s.cur.rootGen ∧
    (State.shutDown s).cur.returns = s.cur.returns ∧
    (State.shutDown s).cur.revoked = s.cur.revoked := by
  unfold State.shutDown
  repeat' split
  all_goals simp [*]

theorem State.railFault_kept (m mv : Nat) (s : State) :
    (State.railFault m mv s).member = s.member ∧
    (State.railFault m mv s).now = s.now ∧
    (State.railFault m mv s).unstored = s.unstored ∧
    (State.railFault m mv s).cat = s.cat ∧
    (State.railFault m mv s).med = s.med ∧
    (State.railFault m mv s).coh = s.coh ∧
    (State.railFault m mv s).lnk = s.lnk ∧
    (State.railFault m mv s).rte = s.rte ∧
    (State.railFault m mv s).cry = s.cry ∧
    (State.railFault m mv s).thm = s.thm ∧
    (State.railFault m mv s).net = s.net ∧
    (State.railFault m mv s).pending = s.pending ∧
    (State.railFault m mv s).pwr.straps = s.pwr.straps ∧
    (State.railFault m mv s).cur.lifecycle = s.cur.lifecycle ∧
    (State.railFault m mv s).cur.rootGen = s.cur.rootGen ∧
    (State.railFault m mv s).cur.returns = s.cur.returns ∧
    (State.railFault m mv s).cur.revoked = s.cur.revoked := by
  unfold State.railFault
  simp

theorem State.startTransition_kept (v : PwrSt) (c : Option Ctx) (s : State) :
    (State.startTransition v c s).member = s.member ∧
    (State.startTransition v c s).now = s.now ∧
    (State.startTransition v c s).regs = s.regs ∧
    (State.startTransition v c s).unstored = s.unstored ∧
    (State.startTransition v c s).host = s.host ∧
    (State.startTransition v c s).epo = s.epo ∧
    (State.startTransition v c s).cat = s.cat ∧
    (State.startTransition v c s).med = s.med ∧
    (State.startTransition v c s).coh = s.coh ∧
    (State.startTransition v c s).lnk = s.lnk ∧
    (State.startTransition v c s).rte = s.rte ∧
    (State.startTransition v c s).cap = s.cap ∧
    (State.startTransition v c s).cry = s.cry ∧
    (State.startTransition v c s).flt = s.flt ∧
    (State.startTransition v c s).anl = s.anl ∧
    (State.startTransition v c s).cur = s.cur ∧
    (State.startTransition v c s).thm = s.thm ∧
    (State.startTransition v c s).pmc = s.pmc ∧
    (State.startTransition v c s).out = s.out ∧
    (State.startTransition v c s).net = s.net ∧
    (State.startTransition v c s).freeCtr = s.freeCtr ∧
    (State.startTransition v c s).pending = s.pending ∧
    (State.startTransition v c s).pwr.straps = s.pwr.straps := by
  unfold State.startTransition
  simp

@[simp] theorem State.onRequest_kept (s : State) :
    (State.onRequest s).member = s.member ∧
    (State.onRequest s).now = s.now ∧
    (State.onRequest s).regs = s.regs ∧
    (State.onRequest s).unstored = s.unstored ∧
    (State.onRequest s).host = s.host ∧
    (State.onRequest s).epo = s.epo ∧
    (State.onRequest s).cat = s.cat ∧
    (State.onRequest s).med = s.med ∧
    (State.onRequest s).coh = s.coh ∧
    (State.onRequest s).lnk = s.lnk ∧
    (State.onRequest s).rte = s.rte ∧
    (State.onRequest s).cap = s.cap ∧
    (State.onRequest s).cry = s.cry ∧
    (State.onRequest s).flt = s.flt ∧
    (State.onRequest s).anl = s.anl ∧
    (State.onRequest s).cur = s.cur ∧
    (State.onRequest s).thm = s.thm ∧
    (State.onRequest s).pmc = s.pmc ∧
    (State.onRequest s).out = s.out ∧
    (State.onRequest s).net = s.net ∧
    (State.onRequest s).freeCtr = s.freeCtr ∧
    (State.onRequest s).pending = s.pending ∧
    (State.onRequest s).pwr.straps = s.pwr.straps := by
  have k1 := State.startTransition_kept
  unfold State.onRequest
  dsimp only
  repeat' split
  all_goals simp [k1]

theorem State.orderlyOff_kept (s : State) :
    (State.orderlyOff s).member = s.member ∧
    (State.orderlyOff s).now = s.now ∧
    (State.orderlyOff s).unstored = s.unstored ∧
    (State.orderlyOff s).out = s.out ∧
    (State.orderlyOff s).freeCtr = s.freeCtr ∧
    (State.orderlyOff s).pending = s.pending ∧
    (State.orderlyOff s).pwr.straps = s.pwr.straps ∧
    (State.orderlyOff s).cur.lifecycle = s.cur.lifecycle ∧
    (State.orderlyOff s).cur.rootGen = s.cur.rootGen ∧
    (State.orderlyOff s).cur.returns = s.cur.returns ∧
    (State.orderlyOff s).cur.revoked = s.cur.revoked := by
  unfold State.orderlyOff
  dsimp only
  repeat' split
  all_goals simp

@[simp] theorem State.offRequest_kept (s : State) :
    (State.offRequest s).member = s.member ∧
    (State.offRequest s).now = s.now ∧
    (State.offRequest s).unstored = s.unstored ∧
    (State.offRequest s).out = s.out ∧
    (State.offRequest s).freeCtr = s.freeCtr ∧
    (State.offRequest s).pending = s.pending ∧
    (State.offRequest s).pwr.straps = s.pwr.straps ∧
    (State.offRequest s).cur.lifecycle = s.cur.lifecycle ∧
    (State.offRequest s).cur.rootGen = s.cur.rootGen ∧
    (State.offRequest s).cur.returns = s.cur.returns ∧
    (State.offRequest s).cur.revoked = s.cur.revoked := by
  have k1 := State.orderlyOff_kept
  unfold State.offRequest
  dsimp only
  repeat' split
  all_goals simp [k1]

@[simp] theorem State.checkStep_kept (w : DWord) (s : State) :
    (State.checkStep w s).member = s.member ∧
    (State.checkStep w s).now = s.now ∧
    (State.checkStep w s).unstored = s.unstored ∧
    (State.checkStep w s).pending = s.pending ∧
    (State.checkStep w s).pwr.straps = s.pwr.straps ∧
    (State.checkStep w s).cur.lifecycle = s.cur.lifecycle ∧
    (State.checkStep w s).cur.rootGen = s.cur.rootGen ∧
    (State.checkStep w s).cur.returns = s.cur.returns ∧
    (State.checkStep w s).cur.revoked = s.cur.revoked := by
  have k1 := State.railFault_kept
  unfold State.checkStep
  dsimp only
  repeat' split
  all_goals simp [k1]

@[simp] theorem State.endStep_kept (s : State) :
    (State.endStep s).member = s.member ∧
    (State.endStep s).now = s.now ∧
    (State.endStep s).unstored = s.unstored ∧
    (State.endStep s).freeCtr = s.freeCtr ∧
    (State.endStep s).pending = s.pending ∧
    (State.endStep s).pwr.straps = s.pwr.straps ∧
    (State.endStep s).cur.lifecycle = s.cur.lifecycle ∧
    (State.endStep s).cur.rootGen = s.cur.rootGen ∧
    (State.endStep s).cur.returns = s.cur.returns ∧
    (State.endStep s).cur.revoked = s.cur.revoked := by
  have k1 := State.orderlyOff_kept
  unfold State.endStep
  dsimp only
  repeat' split
  all_goals simp [k1]

@[simp] theorem State.scanMonitor_kept (m mv : Nat) (s : State) :
    (State.scanMonitor m mv s).member = s.member ∧
    (State.scanMonitor m mv s).now = s.now ∧
    (State.scanMonitor m mv s).unstored = s.unstored ∧
    (State.scanMonitor m mv s).pending = s.pending ∧
    (State.scanMonitor m mv s).pwr.straps = s.pwr.straps ∧
    (State.scanMonitor m mv s).cur.lifecycle = s.cur.lifecycle ∧
    (State.scanMonitor m mv s).cur.rootGen = s.cur.rootGen ∧
    (State.scanMonitor m mv s).cur.returns = s.cur.returns ∧
    (State.scanMonitor m mv s).cur.revoked = s.cur.revoked := by
  have k1 := State.railFault_kept
  unfold State.scanMonitor
  dsimp only
  repeat' split
  all_goals simp [k1]

@[simp] theorem State.commitProgram_kept (p : Nat) (s : State) :
    (State.commitProgram p s).member = s.member ∧
    (State.commitProgram p s).now = s.now ∧
    (State.commitProgram p s).unstored = s.unstored ∧
    (State.commitProgram p s).host = s.host ∧
    (State.commitProgram p s).epo = s.epo ∧
    (State.commitProgram p s).cat = s.cat ∧
    (State.commitProgram p s).med = s.med ∧
    (State.commitProgram p s).coh = s.coh ∧
    (State.commitProgram p s).lnk = s.lnk ∧
    (State.commitProgram p s).rte = s.rte ∧
    (State.commitProgram p s).cap = s.cap ∧
    (State.commitProgram p s).cry = s.cry ∧
    (State.commitProgram p s).flt = s.flt ∧
    (State.commitProgram p s).cur = s.cur ∧
    (State.commitProgram p s).thm = s.thm ∧
    (State.commitProgram p s).pmc = s.pmc ∧
    (State.commitProgram p s).out = s.out ∧
    (State.commitProgram p s).net = s.net ∧
    (State.commitProgram p s).freeCtr = s.freeCtr ∧
    (State.commitProgram p s).pending = s.pending ∧
    (State.commitProgram p s).pwr.straps = s.pwr.straps := by
  unfold State.commitProgram
  dsimp only
  repeat' split
  all_goals simp

end Sys2Proof.Machine
end

