-- ==== Sys2Proof/Laws/KeptMedia.lean ====
section
/-! SUPPORT. What each operation leaves as it was: whole parts of the state, and of the power and Curator parts the
straps, the life-cycle state and the fuse words. The lemma of an operation that a row calls itself, or that four or more
operations call, is a simp lemma; the others are cited by name. -/

namespace Sys2Proof.Machine

set_option Elab.async false
set_option linter.unusedTactic false
set_option linter.unusedSimpArgs false
set_option linter.unusedVariables false

theorem State.setSensor_kept (t k : Nat) (v : Sensor) (s : State) :
    (State.setSensor t k v s).member = s.member ∧
    (State.setSensor t k v s).now = s.now ∧
    (State.setSensor t k v s).regs = s.regs ∧
    (State.setSensor t k v s).unstored = s.unstored ∧
    (State.setSensor t k v s).host = s.host ∧
    (State.setSensor t k v s).epo = s.epo ∧
    (State.setSensor t k v s).cat = s.cat ∧
    (State.setSensor t k v s).med = s.med ∧
    (State.setSensor t k v s).coh = s.coh ∧
    (State.setSensor t k v s).lnk = s.lnk ∧
    (State.setSensor t k v s).rte = s.rte ∧
    (State.setSensor t k v s).cap = s.cap ∧
    (State.setSensor t k v s).cry = s.cry ∧
    (State.setSensor t k v s).flt = s.flt ∧
    (State.setSensor t k v s).anl = s.anl ∧
    (State.setSensor t k v s).cur = s.cur ∧
    (State.setSensor t k v s).pwr = s.pwr ∧
    (State.setSensor t k v s).pmc = s.pmc ∧
    (State.setSensor t k v s).out = s.out ∧
    (State.setSensor t k v s).net = s.net ∧
    (State.setSensor t k v s).freeCtr = s.freeCtr ∧
    (State.setSensor t k v s).pending = s.pending := by
  unfold State.setSensor
  simp

theorem State.showThrottle_kept (t : Nat) (s : State) :
    (State.showThrottle t s).member = s.member ∧
    (State.showThrottle t s).now = s.now ∧
    (State.showThrottle t s).unstored = s.unstored ∧
    (State.showThrottle t s).host = s.host ∧
    (State.showThrottle t s).epo = s.epo ∧
    (State.showThrottle t s).cat = s.cat ∧
    (State.showThrottle t s).med = s.med ∧
    (State.showThrottle t s).coh = s.coh ∧
    (State.showThrottle t s).lnk = s.lnk ∧
    (State.showThrottle t s).rte = s.rte ∧
    (State.showThrottle t s).cap = s.cap ∧
    (State.showThrottle t s).cry = s.cry ∧
    (State.showThrottle t s).flt = s.flt ∧
    (State.showThrottle t s).anl = s.anl ∧
    (State.showThrottle t s).cur = s.cur ∧
    (State.showThrottle t s).thm = s.thm ∧
    (State.showThrottle t s).pwr = s.pwr ∧
    (State.showThrottle t s).pmc = s.pmc ∧
    (State.showThrottle t s).out = s.out ∧
    (State.showThrottle t s).net = s.net ∧
    (State.showThrottle t s).freeCtr = s.freeCtr ∧
    (State.showThrottle t s).pending = s.pending := by
  unfold State.showThrottle
  simp

theorem State.thermalOff_kept (s : State) :
    (State.thermalOff s).member = s.member ∧
    (State.thermalOff s).now = s.now ∧
    (State.thermalOff s).unstored = s.unstored ∧
    (State.thermalOff s).out = s.out ∧
    (State.thermalOff s).freeCtr = s.freeCtr ∧
    (State.thermalOff s).pending = s.pending ∧
    (State.thermalOff s).pwr.straps = s.pwr.straps ∧
    (State.thermalOff s).cur.lifecycle = s.cur.lifecycle ∧
    (State.thermalOff s).cur.rootGen = s.cur.rootGen ∧
    (State.thermalOff s).cur.returns = s.cur.returns ∧
    (State.thermalOff s).cur.revoked = s.cur.revoked := by
  unfold State.thermalOff
  dsimp only
  repeat' split
  all_goals simp

@[simp] theorem State.relevel_kept (t : Nat) (s : State) :
    (State.relevel t s).member = s.member ∧
    (State.relevel t s).now = s.now ∧
    (State.relevel t s).unstored = s.unstored ∧
    (State.relevel t s).freeCtr = s.freeCtr ∧
    (State.relevel t s).pending = s.pending ∧
    (State.relevel t s).pwr.straps = s.pwr.straps ∧
    (State.relevel t s).cur.lifecycle = s.cur.lifecycle ∧
    (State.relevel t s).cur.rootGen = s.cur.rootGen ∧
    (State.relevel t s).cur.returns = s.cur.returns ∧
    (State.relevel t s).cur.revoked = s.cur.revoked := by
  have k1 := State.showThrottle_kept
  have k2 := State.thermalOff_kept
  unfold State.relevel
  dsimp only
  repeat' split
  all_goals simp [k1, k2]

theorem State.sensorBroken_kept (t k cause : Nat) (s : State) :
    (State.sensorBroken t k cause s).member = s.member ∧
    (State.sensorBroken t k cause s).now = s.now ∧
    (State.sensorBroken t k cause s).unstored = s.unstored ∧
    (State.sensorBroken t k cause s).pending = s.pending ∧
    (State.sensorBroken t k cause s).pwr.straps = s.pwr.straps ∧
    (State.sensorBroken t k cause s).cur.lifecycle = s.cur.lifecycle ∧
    (State.sensorBroken t k cause s).cur.rootGen = s.cur.rootGen ∧
    (State.sensorBroken t k cause s).cur.returns = s.cur.returns ∧
    (State.sensorBroken t k cause s).cur.revoked = s.cur.revoked := by
  have k1 := State.setSensor_kept
  unfold State.sensorBroken
  simp [k1]

@[simp] theorem State.convert_kept (t k : Nat) (r : Int) (s : State) :
    (State.convert t k r s).member = s.member ∧
    (State.convert t k r s).now = s.now ∧
    (State.convert t k r s).unstored = s.unstored ∧
    (State.convert t k r s).pending = s.pending ∧
    (State.convert t k r s).pwr.straps = s.pwr.straps ∧
    (State.convert t k r s).cur.lifecycle = s.cur.lifecycle ∧
    (State.convert t k r s).cur.rootGen = s.cur.rootGen ∧
    (State.convert t k r s).cur.returns = s.cur.returns ∧
    (State.convert t k r s).cur.revoked = s.cur.revoked := by
  have k1 := State.sensorBroken_kept
  have k2 := State.setSensor_kept
  unfold State.convert
  dsimp only
  repeat' split
  all_goals simp [k1, k2]

@[simp] theorem State.missed_kept (t k : Nat) (s : State) :
    (State.missed t k s).member = s.member ∧
    (State.missed t k s).now = s.now ∧
    (State.missed t k s).unstored = s.unstored ∧
    (State.missed t k s).pending = s.pending ∧
    (State.missed t k s).pwr.straps = s.pwr.straps ∧
    (State.missed t k s).cur.lifecycle = s.cur.lifecycle ∧
    (State.missed t k s).cur.rootGen = s.cur.rootGen ∧
    (State.missed t k s).cur.returns = s.cur.returns ∧
    (State.missed t k s).cur.revoked = s.cur.revoked := by
  have k1 := State.sensorBroken_kept
  unfold State.missed
  dsimp only
  repeat' split
  all_goals simp [k1]

@[simp] theorem State.pollDdr_kept (t k : Nat) (c : Int) (above : Bool) (s : State) :
    (State.pollDdr t k c above s).member = s.member ∧
    (State.pollDdr t k c above s).now = s.now ∧
    (State.pollDdr t k c above s).unstored = s.unstored ∧
    (State.pollDdr t k c above s).freeCtr = s.freeCtr ∧
    (State.pollDdr t k c above s).pending = s.pending ∧
    (State.pollDdr t k c above s).pwr.straps = s.pwr.straps ∧
    (State.pollDdr t k c above s).cur.lifecycle = s.cur.lifecycle ∧
    (State.pollDdr t k c above s).cur.rootGen = s.cur.rootGen ∧
    (State.pollDdr t k c above s).cur.returns = s.cur.returns ∧
    (State.pollDdr t k c above s).cur.revoked = s.cur.revoked := by
  unfold State.pollDdr
  simp

theorem State.queueScan_kept (t : Nat) (s : State) :
    (State.queueScan t s).member = s.member ∧
    (State.queueScan t s).now = s.now ∧
    (State.queueScan t s).regs = s.regs ∧
    (State.queueScan t s).unstored = s.unstored ∧
    (State.queueScan t s).host = s.host ∧
    (State.queueScan t s).epo = s.epo ∧
    (State.queueScan t s).cat = s.cat ∧
    (State.queueScan t s).coh = s.coh ∧
    (State.queueScan t s).lnk = s.lnk ∧
    (State.queueScan t s).rte = s.rte ∧
    (State.queueScan t s).cap = s.cap ∧
    (State.queueScan t s).cry = s.cry ∧
    (State.queueScan t s).flt = s.flt ∧
    (State.queueScan t s).anl = s.anl ∧
    (State.queueScan t s).cur = s.cur ∧
    (State.queueScan t s).thm = s.thm ∧
    (State.queueScan t s).pwr = s.pwr ∧
    (State.queueScan t s).pmc = s.pmc ∧
    (State.queueScan t s).out = s.out ∧
    (State.queueScan t s).net = s.net ∧
    (State.queueScan t s).freeCtr = s.freeCtr ∧
    (State.queueScan t s).pending = s.pending := by
  unfold State.queueScan
  simp

@[simp] theorem State.partialScan_kept (t : Nat) (s : State) :
    (State.partialScan t s).member = s.member ∧
    (State.partialScan t s).now = s.now ∧
    (State.partialScan t s).unstored = s.unstored ∧
    (State.partialScan t s).host = s.host ∧
    (State.partialScan t s).epo = s.epo ∧
    (State.partialScan t s).cat = s.cat ∧
    (State.partialScan t s).coh = s.coh ∧
    (State.partialScan t s).lnk = s.lnk ∧
    (State.partialScan t s).rte = s.rte ∧
    (State.partialScan t s).cap = s.cap ∧
    (State.partialScan t s).cry = s.cry ∧
    (State.partialScan t s).flt = s.flt ∧
    (State.partialScan t s).anl = s.anl ∧
    (State.partialScan t s).cur = s.cur ∧
    (State.partialScan t s).thm = s.thm ∧
    (State.partialScan t s).pwr = s.pwr ∧
    (State.partialScan t s).pmc = s.pmc ∧
    (State.partialScan t s).out = s.out ∧
    (State.partialScan t s).net = s.net ∧
    (State.partialScan t s).freeCtr = s.freeCtr ∧
    (State.partialScan t s).pending = s.pending := by
  have k1 := State.queueScan_kept
  unfold State.partialScan
  simp [k1]

theorem State.loseFolios_kept (t first count : Nat) (s : State) :
    (State.loseFolios t first count s).member = s.member ∧
    (State.loseFolios t first count s).now = s.now ∧
    (State.loseFolios t first count s).unstored = s.unstored ∧
    (State.loseFolios t first count s).host = s.host ∧
    (State.loseFolios t first count s).epo = s.epo ∧
    (State.loseFolios t first count s).coh = s.coh ∧
    (State.loseFolios t first count s).lnk = s.lnk ∧
    (State.loseFolios t first count s).rte = s.rte ∧
    (State.loseFolios t first count s).cap = s.cap ∧
    (State.loseFolios t first count s).cry = s.cry ∧
    (State.loseFolios t first count s).flt = s.flt ∧
    (State.loseFolios t first count s).anl = s.anl ∧
    (State.loseFolios t first count s).cur = s.cur ∧
    (State.loseFolios t first count s).thm = s.thm ∧
    (State.loseFolios t first count s).pwr = s.pwr ∧
    (State.loseFolios t first count s).pmc = s.pmc ∧
    (State.loseFolios t first count s).out = s.out ∧
    (State.loseFolios t first count s).net = s.net ∧
    (State.loseFolios t first count s).freeCtr = s.freeCtr ∧
    (State.loseFolios t first count s).pending = s.pending := by
  unfold State.loseFolios
  simp

theorem State.queueBlocks_kept (t first count : Nat) (s : State) :
    (State.queueBlocks t first count s).member = s.member ∧
    (State.queueBlocks t first count s).now = s.now ∧
    (State.queueBlocks t first count s).regs = s.regs ∧
    (State.queueBlocks t first count s).unstored = s.unstored ∧
    (State.queueBlocks t first count s).host = s.host ∧
    (State.queueBlocks t first count s).epo = s.epo ∧
    (State.queueBlocks t first count s).cat = s.cat ∧
    (State.queueBlocks t first count s).coh = s.coh ∧
    (State.queueBlocks t first count s).lnk = s.lnk ∧
    (State.queueBlocks t first count s).rte = s.rte ∧
    (State.queueBlocks t first count s).cap = s.cap ∧
    (State.queueBlocks t first count s).cry = s.cry ∧
    (State.queueBlocks t first count s).flt = s.flt ∧
    (State.queueBlocks t first count s).anl = s.anl ∧
    (State.queueBlocks t first count s).cur = s.cur ∧
    (State.queueBlocks t first count s).thm = s.thm ∧
    (State.queueBlocks t first count s).pwr = s.pwr ∧
    (State.queueBlocks t first count s).pmc = s.pmc ∧
    (State.queueBlocks t first count s).out = s.out ∧
    (State.queueBlocks t first count s).net = s.net ∧
    (State.queueBlocks t first count s).freeCtr = s.freeCtr ∧
    (State.queueBlocks t first count s).pending = s.pending := by
  unfold State.queueBlocks
  simp

theorem State.loseTable_kept (t table first count : Nat) (s : State) :
    (State.loseTable t table first count s).member = s.member ∧
    (State.loseTable t table first count s).now = s.now ∧
    (State.loseTable t table first count s).unstored = s.unstored ∧
    (State.loseTable t table first count s).host = s.host ∧
    (State.loseTable t table first count s).epo = s.epo ∧
    (State.loseTable t table first count s).cat = s.cat ∧
    (State.loseTable t table first count s).coh = s.coh ∧
    (State.loseTable t table first count s).lnk = s.lnk ∧
    (State.loseTable t table first count s).rte = s.rte ∧
    (State.loseTable t table first count s).cap = s.cap ∧
    (State.loseTable t table first count s).flt = s.flt ∧
    (State.loseTable t table first count s).anl = s.anl ∧
    (State.loseTable t table first count s).cur = s.cur ∧
    (State.loseTable t table first count s).thm = s.thm ∧
    (State.loseTable t table first count s).pwr = s.pwr ∧
    (State.loseTable t table first count s).pmc = s.pmc ∧
    (State.loseTable t table first count s).out = s.out ∧
    (State.loseTable t table first count s).net = s.net ∧
    (State.loseTable t table first count s).freeCtr = s.freeCtr ∧
    (State.loseTable t table first count s).pending = s.pending := by
  have k1 := State.queueBlocks_kept
  unfold State.loseTable
  simp [k1]

theorem State.loseGroups_kept (t first count : Nat) (s : State) :
    (State.loseGroups t first count s).member = s.member ∧
    (State.loseGroups t first count s).now = s.now ∧
    (State.loseGroups t first count s).unstored = s.unstored ∧
    (State.loseGroups t first count s).host = s.host ∧
    (State.loseGroups t first count s).epo = s.epo ∧
    (State.loseGroups t first count s).coh = s.coh ∧
    (State.loseGroups t first count s).lnk = s.lnk ∧
    (State.loseGroups t first count s).rte = s.rte ∧
    (State.loseGroups t first count s).cap = s.cap ∧
    (State.loseGroups t first count s).flt = s.flt ∧
    (State.loseGroups t first count s).anl = s.anl ∧
    (State.loseGroups t first count s).cur = s.cur ∧
    (State.loseGroups t first count s).thm = s.thm ∧
    (State.loseGroups t first count s).pwr = s.pwr ∧
    (State.loseGroups t first count s).net = s.net ∧
    (State.loseGroups t first count s).freeCtr = s.freeCtr ∧
    (State.loseGroups t first count s).pending = s.pending := by
  unfold State.loseGroups
  simp

theorem State.loseAll_kept (t : Nat) (s : State) :
    (State.loseAll t s).member = s.member ∧
    (State.loseAll t s).now = s.now ∧
    (State.loseAll t s).unstored = s.unstored ∧
    (State.loseAll t s).host = s.host ∧
    (State.loseAll t s).epo = s.epo ∧
    (State.loseAll t s).coh = s.coh ∧
    (State.loseAll t s).lnk = s.lnk ∧
    (State.loseAll t s).rte = s.rte ∧
    (State.loseAll t s).cap = s.cap ∧
    (State.loseAll t s).flt = s.flt ∧
    (State.loseAll t s).anl = s.anl ∧
    (State.loseAll t s).cur = s.cur ∧
    (State.loseAll t s).thm = s.thm ∧
    (State.loseAll t s).pwr = s.pwr ∧
    (State.loseAll t s).pmc = s.pmc ∧
    (State.loseAll t s).out = s.out ∧
    (State.loseAll t s).net = s.net ∧
    (State.loseAll t s).freeCtr = s.freeCtr ∧
    (State.loseAll t s).pending = s.pending := by
  have k1 := State.loseFolios_kept
  have k2 := State.loseTable_kept
  unfold State.loseAll
  simp [k1, k2]

@[simp] theorem State.onOverlap_member (o : Option (Nat × Nat)) (f : Nat × Nat → State → State) (s : State) (h : ∀ r s, (f r s).member = s.member) :
    (State.onOverlap o f s).member = s.member := by
  unfold State.onOverlap
  split
  · exact h _ _
  · rfl

@[simp] theorem State.onOverlap_now (o : Option (Nat × Nat)) (f : Nat × Nat → State → State) (s : State) (h : ∀ r s, (f r s).now = s.now) :
    (State.onOverlap o f s).now = s.now := by
  unfold State.onOverlap
  split
  · exact h _ _
  · rfl

@[simp] theorem State.onOverlap_regs (o : Option (Nat × Nat)) (f : Nat × Nat → State → State) (s : State) (h : ∀ r s, (f r s).regs = s.regs) :
    (State.onOverlap o f s).regs = s.regs := by
  unfold State.onOverlap
  split
  · exact h _ _
  · rfl

@[simp] theorem State.onOverlap_unstored (o : Option (Nat × Nat)) (f : Nat × Nat → State → State) (s : State) (h : ∀ r s, (f r s).unstored = s.unstored) :
    (State.onOverlap o f s).unstored = s.unstored := by
  unfold State.onOverlap
  split
  · exact h _ _
  · rfl

@[simp] theorem State.onOverlap_host (o : Option (Nat × Nat)) (f : Nat × Nat → State → State) (s : State) (h : ∀ r s, (f r s).host = s.host) :
    (State.onOverlap o f s).host = s.host := by
  unfold State.onOverlap
  split
  · exact h _ _
  · rfl

@[simp] theorem State.onOverlap_epo (o : Option (Nat × Nat)) (f : Nat × Nat → State → State) (s : State) (h : ∀ r s, (f r s).epo = s.epo) :
    (State.onOverlap o f s).epo = s.epo := by
  unfold State.onOverlap
  split
  · exact h _ _
  · rfl

@[simp] theorem State.onOverlap_cat (o : Option (Nat × Nat)) (f : Nat × Nat → State → State) (s : State) (h : ∀ r s, (f r s).cat = s.cat) :
    (State.onOverlap o f s).cat = s.cat := by
  unfold State.onOverlap
  split
  · exact h _ _
  · rfl

@[simp] theorem State.onOverlap_med (o : Option (Nat × Nat)) (f : Nat × Nat → State → State) (s : State) (h : ∀ r s, (f r s).med = s.med) :
    (State.onOverlap o f s).med = s.med := by
  unfold State.onOverlap
  split
  · exact h _ _
  · rfl

@[simp] theorem State.onOverlap_coh (o : Option (Nat × Nat)) (f : Nat × Nat → State → State) (s : State) (h : ∀ r s, (f r s).coh = s.coh) :
    (State.onOverlap o f s).coh = s.coh := by
  unfold State.onOverlap
  split
  · exact h _ _
  · rfl

@[simp] theorem State.onOverlap_lnk (o : Option (Nat × Nat)) (f : Nat × Nat → State → State) (s : State) (h : ∀ r s, (f r s).lnk = s.lnk) :
    (State.onOverlap o f s).lnk = s.lnk := by
  unfold State.onOverlap
  split
  · exact h _ _
  · rfl

@[simp] theorem State.onOverlap_rte (o : Option (Nat × Nat)) (f : Nat × Nat → State → State) (s : State) (h : ∀ r s, (f r s).rte = s.rte) :
    (State.onOverlap o f s).rte = s.rte := by
  unfold State.onOverlap
  split
  · exact h _ _
  · rfl

@[simp] theorem State.onOverlap_cap (o : Option (Nat × Nat)) (f : Nat × Nat → State → State) (s : State) (h : ∀ r s, (f r s).cap = s.cap) :
    (State.onOverlap o f s).cap = s.cap := by
  unfold State.onOverlap
  split
  · exact h _ _
  · rfl

@[simp] theorem State.onOverlap_cry (o : Option (Nat × Nat)) (f : Nat × Nat → State → State) (s : State) (h : ∀ r s, (f r s).cry = s.cry) :
    (State.onOverlap o f s).cry = s.cry := by
  unfold State.onOverlap
  split
  · exact h _ _
  · rfl

@[simp] theorem State.onOverlap_flt (o : Option (Nat × Nat)) (f : Nat × Nat → State → State) (s : State) (h : ∀ r s, (f r s).flt = s.flt) :
    (State.onOverlap o f s).flt = s.flt := by
  unfold State.onOverlap
  split
  · exact h _ _
  · rfl

@[simp] theorem State.onOverlap_anl (o : Option (Nat × Nat)) (f : Nat × Nat → State → State) (s : State) (h : ∀ r s, (f r s).anl = s.anl) :
    (State.onOverlap o f s).anl = s.anl := by
  unfold State.onOverlap
  split
  · exact h _ _
  · rfl

@[simp] theorem State.onOverlap_cur (o : Option (Nat × Nat)) (f : Nat × Nat → State → State) (s : State) (h : ∀ r s, (f r s).cur = s.cur) :
    (State.onOverlap o f s).cur = s.cur := by
  unfold State.onOverlap
  split
  · exact h _ _
  · rfl

@[simp] theorem State.onOverlap_thm (o : Option (Nat × Nat)) (f : Nat × Nat → State → State) (s : State) (h : ∀ r s, (f r s).thm = s.thm) :
    (State.onOverlap o f s).thm = s.thm := by
  unfold State.onOverlap
  split
  · exact h _ _
  · rfl

@[simp] theorem State.onOverlap_pwr (o : Option (Nat × Nat)) (f : Nat × Nat → State → State) (s : State) (h : ∀ r s, (f r s).pwr = s.pwr) :
    (State.onOverlap o f s).pwr = s.pwr := by
  unfold State.onOverlap
  split
  · exact h _ _
  · rfl

@[simp] theorem State.onOverlap_pmc (o : Option (Nat × Nat)) (f : Nat × Nat → State → State) (s : State) (h : ∀ r s, (f r s).pmc = s.pmc) :
    (State.onOverlap o f s).pmc = s.pmc := by
  unfold State.onOverlap
  split
  · exact h _ _
  · rfl

@[simp] theorem State.onOverlap_out (o : Option (Nat × Nat)) (f : Nat × Nat → State → State) (s : State) (h : ∀ r s, (f r s).out = s.out) :
    (State.onOverlap o f s).out = s.out := by
  unfold State.onOverlap
  split
  · exact h _ _
  · rfl

@[simp] theorem State.onOverlap_net (o : Option (Nat × Nat)) (f : Nat × Nat → State → State) (s : State) (h : ∀ r s, (f r s).net = s.net) :
    (State.onOverlap o f s).net = s.net := by
  unfold State.onOverlap
  split
  · exact h _ _
  · rfl

@[simp] theorem State.onOverlap_freeCtr (o : Option (Nat × Nat)) (f : Nat × Nat → State → State) (s : State) (h : ∀ r s, (f r s).freeCtr = s.freeCtr) :
    (State.onOverlap o f s).freeCtr = s.freeCtr := by
  unfold State.onOverlap
  split
  · exact h _ _
  · rfl

@[simp] theorem State.onOverlap_pending (o : Option (Nat × Nat)) (f : Nat × Nat → State → State) (s : State) (h : ∀ r s, (f r s).pending = s.pending) :
    (State.onOverlap o f s).pending = s.pending := by
  unfold State.onOverlap
  split
  · exact h _ _
  · rfl

theorem State.loseHeat_kept (t : Nat) (r : Nat × Nat) (s : State) :
    (State.loseHeat t r s).member = s.member ∧
    (State.loseHeat t r s).now = s.now ∧
    (State.loseHeat t r s).regs = s.regs ∧
    (State.loseHeat t r s).unstored = s.unstored ∧
    (State.loseHeat t r s).host = s.host ∧
    (State.loseHeat t r s).epo = s.epo ∧
    (State.loseHeat t r s).med = s.med ∧
    (State.loseHeat t r s).coh = s.coh ∧
    (State.loseHeat t r s).lnk = s.lnk ∧
    (State.loseHeat t r s).rte = s.rte ∧
    (State.loseHeat t r s).cap = s.cap ∧
    (State.loseHeat t r s).cry = s.cry ∧
    (State.loseHeat t r s).flt = s.flt ∧
    (State.loseHeat t r s).anl = s.anl ∧
    (State.loseHeat t r s).cur = s.cur ∧
    (State.loseHeat t r s).thm = s.thm ∧
    (State.loseHeat t r s).pwr = s.pwr ∧
    (State.loseHeat t r s).pmc = s.pmc ∧
    (State.loseHeat t r s).out = s.out ∧
    (State.loseHeat t r s).net = s.net ∧
    (State.loseHeat t r s).freeCtr = s.freeCtr ∧
    (State.loseHeat t r s).pending = s.pending := by
  unfold State.loseHeat
  simp

theorem State.loseBlocks_kept (t : Nat) (s : State) :
    (State.loseBlocks t s).member = s.member ∧
    (State.loseBlocks t s).now = s.now ∧
    (State.loseBlocks t s).unstored = s.unstored ∧
    (State.loseBlocks t s).host = s.host ∧
    (State.loseBlocks t s).epo = s.epo ∧
    (State.loseBlocks t s).cat = s.cat ∧
    (State.loseBlocks t s).coh = s.coh ∧
    (State.loseBlocks t s).lnk = s.lnk ∧
    (State.loseBlocks t s).rte = s.rte ∧
    (State.loseBlocks t s).cap = s.cap ∧
    (State.loseBlocks t s).flt = s.flt ∧
    (State.loseBlocks t s).anl = s.anl ∧
    (State.loseBlocks t s).cur = s.cur ∧
    (State.loseBlocks t s).thm = s.thm ∧
    (State.loseBlocks t s).pwr = s.pwr ∧
    (State.loseBlocks t s).pmc = s.pmc ∧
    (State.loseBlocks t s).out = s.out ∧
    (State.loseBlocks t s).net = s.net ∧
    (State.loseBlocks t s).pending = s.pending := by
  have k1 := State.loseTable_kept
  unfold State.loseBlocks
  simp [k1]

theorem State.loseRegions_kept (t a len : Nat) (s : State) :
    (State.loseRegions t a len s).member = s.member ∧
    (State.loseRegions t a len s).now = s.now ∧
    (State.loseRegions t a len s).unstored = s.unstored ∧
    (State.loseRegions t a len s).host = s.host ∧
    (State.loseRegions t a len s).epo = s.epo ∧
    (State.loseRegions t a len s).coh = s.coh ∧
    (State.loseRegions t a len s).lnk = s.lnk ∧
    (State.loseRegions t a len s).rte = s.rte ∧
    (State.loseRegions t a len s).cap = s.cap ∧
    (State.loseRegions t a len s).flt = s.flt ∧
    (State.loseRegions t a len s).anl = s.anl ∧
    (State.loseRegions t a len s).cur = s.cur ∧
    (State.loseRegions t a len s).thm = s.thm ∧
    (State.loseRegions t a len s).pwr = s.pwr ∧
    (State.loseRegions t a len s).net = s.net ∧
    (State.loseRegions t a len s).pending = s.pending := by
  have k1 := State.loseAll_kept
  have k2 := State.loseBlocks_kept
  have k3 := State.loseFolios_kept
  have k4 := State.loseGroups_kept
  have k5 := State.loseHeat_kept
  have k6 := State.loseTable_kept
  unfold State.loseRegions
  simp [k1, k2, k3, k4, k5, k6]

theorem State.loseEpochData_kept (t a len : Nat) (s : State) :
    (State.loseEpochData t a len s).member = s.member ∧
    (State.loseEpochData t a len s).now = s.now ∧
    (State.loseEpochData t a len s).unstored = s.unstored ∧
    (State.loseEpochData t a len s).coh = s.coh ∧
    (State.loseEpochData t a len s).lnk = s.lnk ∧
    (State.loseEpochData t a len s).rte = s.rte ∧
    (State.loseEpochData t a len s).cap = s.cap ∧
    (State.loseEpochData t a len s).flt = s.flt ∧
    (State.loseEpochData t a len s).thm = s.thm ∧
    (State.loseEpochData t a len s).pwr = s.pwr ∧
    (State.loseEpochData t a len s).net = s.net ∧
    (State.loseEpochData t a len s).pending = s.pending ∧
    (State.loseEpochData t a len s).cur.lifecycle = s.cur.lifecycle ∧
    (State.loseEpochData t a len s).cur.rootGen = s.cur.rootGen ∧
    (State.loseEpochData t a len s).cur.returns = s.cur.returns ∧
    (State.loseEpochData t a len s).cur.revoked = s.cur.revoked := by
  unfold State.loseEpochData
  dsimp only
  repeat' split
  all_goals simp

theorem State.newNodes_kept (t a len : Nat) (s : State) :
    (State.newNodes t a len s).member = s.member ∧
    (State.newNodes t a len s).now = s.now ∧
    (State.newNodes t a len s).regs = s.regs ∧
    (State.newNodes t a len s).unstored = s.unstored ∧
    (State.newNodes t a len s).host = s.host ∧
    (State.newNodes t a len s).epo = s.epo ∧
    (State.newNodes t a len s).cat = s.cat ∧
    (State.newNodes t a len s).med = s.med ∧
    (State.newNodes t a len s).coh = s.coh ∧
    (State.newNodes t a len s).lnk = s.lnk ∧
    (State.newNodes t a len s).rte = s.rte ∧
    (State.newNodes t a len s).cap = s.cap ∧
    (State.newNodes t a len s).flt = s.flt ∧
    (State.newNodes t a len s).anl = s.anl ∧
    (State.newNodes t a len s).cur = s.cur ∧
    (State.newNodes t a len s).thm = s.thm ∧
    (State.newNodes t a len s).pwr = s.pwr ∧
    (State.newNodes t a len s).pmc = s.pmc ∧
    (State.newNodes t a len s).out = s.out ∧
    (State.newNodes t a len s).net = s.net ∧
    (State.newNodes t a len s).freeCtr = s.freeCtr ∧
    (State.newNodes t a len s).pending = s.pending := by
  unfold State.newNodes
  simp

@[simp] theorem State.lostRange_kept (t a len kib : Nat) (s : State) :
    (State.lostRange t a len kib s).member = s.member ∧
    (State.lostRange t a len kib s).now = s.now ∧
    (State.lostRange t a len kib s).unstored = s.unstored ∧
    (State.lostRange t a len kib s).coh = s.coh ∧
    (State.lostRange t a len kib s).lnk = s.lnk ∧
    (State.lostRange t a len kib s).rte = s.rte ∧
    (State.lostRange t a len kib s).cap = s.cap ∧
    (State.lostRange t a len kib s).flt = s.flt ∧
    (State.lostRange t a len kib s).thm = s.thm ∧
    (State.lostRange t a len kib s).pwr = s.pwr ∧
    (State.lostRange t a len kib s).net = s.net ∧
    (State.lostRange t a len kib s).pending = s.pending ∧
    (State.lostRange t a len kib s).cur.lifecycle = s.cur.lifecycle ∧
    (State.lostRange t a len kib s).cur.rootGen = s.cur.rootGen ∧
    (State.lostRange t a len kib s).cur.returns = s.cur.returns ∧
    (State.lostRange t a len kib s).cur.revoked = s.cur.revoked := by
  have k1 := State.loseEpochData_kept
  have k2 := State.loseRegions_kept
  have k3 := State.newNodes_kept
  unfold State.lostRange
  simp [k1, k2, k3]

theorem State.lostLine_kept (t block : Nat) (s : State) :
    (State.lostLine t block s).member = s.member ∧
    (State.lostLine t block s).now = s.now ∧
    (State.lostLine t block s).unstored = s.unstored ∧
    (State.lostLine t block s).coh = s.coh ∧
    (State.lostLine t block s).lnk = s.lnk ∧
    (State.lostLine t block s).rte = s.rte ∧
    (State.lostLine t block s).cap = s.cap ∧
    (State.lostLine t block s).flt = s.flt ∧
    (State.lostLine t block s).thm = s.thm ∧
    (State.lostLine t block s).pwr = s.pwr ∧
    (State.lostLine t block s).net = s.net ∧
    (State.lostLine t block s).pending = s.pending ∧
    (State.lostLine t block s).cur.lifecycle = s.cur.lifecycle ∧
    (State.lostLine t block s).cur.rootGen = s.cur.rootGen ∧
    (State.lostLine t block s).cur.returns = s.cur.returns ∧
    (State.lostLine t block s).cur.revoked = s.cur.revoked := by
  rw [State.lostLine]
  simp only [State.lostRange_kept, State.drawn_kept, and_self]

theorem State.lostBlock_kept (t block : Nat) (s : State) :
    (State.lostBlock t block s).member = s.member ∧
    (State.lostBlock t block s).now = s.now ∧
    (State.lostBlock t block s).unstored = s.unstored ∧
    (State.lostBlock t block s).coh = s.coh ∧
    (State.lostBlock t block s).lnk = s.lnk ∧
    (State.lostBlock t block s).rte = s.rte ∧
    (State.lostBlock t block s).cap = s.cap ∧
    (State.lostBlock t block s).flt = s.flt ∧
    (State.lostBlock t block s).thm = s.thm ∧
    (State.lostBlock t block s).pwr = s.pwr ∧
    (State.lostBlock t block s).net = s.net ∧
    (State.lostBlock t block s).pending = s.pending ∧
    (State.lostBlock t block s).cur.lifecycle = s.cur.lifecycle ∧
    (State.lostBlock t block s).cur.rootGen = s.cur.rootGen ∧
    (State.lostBlock t block s).cur.returns = s.cur.returns ∧
    (State.lostBlock t block s).cur.revoked = s.cur.revoked := by
  have k1 := State.lostLine_kept
  rw [State.lostBlock]
  cases s.inStore t block
  · rw [if_neg Bool.false_ne_true]; exact State.lostLine_kept t block s
  · rw [if_pos rfl]
    cases nodeOf (s.leafCount t) 0 9 block with
    | none => rw [Option.elim_none]; exact ⟨rfl, rfl, rfl, rfl, rfl, rfl, rfl, rfl, rfl, rfl, rfl, rfl, rfl, rfl, rfl, rfl⟩
    | some x => rw [Option.elim_some]; exact State.lostRange_kept t (s.covers t x.1 x.2).1 (s.covers t x.1 x.2).2 ((s.covers t x.1 x.2).2 / 1024) s

theorem State.devHit_kept (t sub dev block : Nat) (s : State) :
    (State.devHit t sub dev block s).member = s.member ∧
    (State.devHit t sub dev block s).now = s.now ∧
    (State.devHit t sub dev block s).unstored = s.unstored ∧
    (State.devHit t sub dev block s).cat = s.cat ∧
    (State.devHit t sub dev block s).med = s.med ∧
    (State.devHit t sub dev block s).coh = s.coh ∧
    (State.devHit t sub dev block s).lnk = s.lnk ∧
    (State.devHit t sub dev block s).rte = s.rte ∧
    (State.devHit t sub dev block s).thm = s.thm ∧
    (State.devHit t sub dev block s).net = s.net ∧
    (State.devHit t sub dev block s).pending = s.pending ∧
    (State.devHit t sub dev block s).pwr.straps = s.pwr.straps ∧
    (State.devHit t sub dev block s).cur.lifecycle = s.cur.lifecycle ∧
    (State.devHit t sub dev block s).cur.rootGen = s.cur.rootGen ∧
    (State.devHit t sub dev block s).cur.returns = s.cur.returns ∧
    (State.devHit t sub dev block s).cur.revoked = s.cur.revoked := by
  unfold State.devHit
  dsimp only
  repeat' split
  all_goals simp

theorem State.burstEcc_kept (t sub block dev : Nat) (ecc : Ecc) (inj : Bool) (s : State) :
    (State.burstEcc t sub block dev ecc inj s).member = s.member ∧
    (State.burstEcc t sub block dev ecc inj s).now = s.now ∧
    (State.burstEcc t sub block dev ecc inj s).unstored = s.unstored ∧
    (State.burstEcc t sub block dev ecc inj s).coh = s.coh ∧
    (State.burstEcc t sub block dev ecc inj s).lnk = s.lnk ∧
    (State.burstEcc t sub block dev ecc inj s).rte = s.rte ∧
    (State.burstEcc t sub block dev ecc inj s).thm = s.thm ∧
    (State.burstEcc t sub block dev ecc inj s).net = s.net ∧
    (State.burstEcc t sub block dev ecc inj s).pending = s.pending ∧
    (State.burstEcc t sub block dev ecc inj s).pwr.straps = s.pwr.straps ∧
    (State.burstEcc t sub block dev ecc inj s).cur.lifecycle = s.cur.lifecycle ∧
    (State.burstEcc t sub block dev ecc inj s).cur.rootGen = s.cur.rootGen ∧
    (State.burstEcc t sub block dev ecc inj s).cur.returns = s.cur.returns ∧
    (State.burstEcc t sub block dev ecc inj s).cur.revoked = s.cur.revoked := by
  have k1 := State.devHit_kept
  have k2 := State.lostBlock_kept
  unfold State.burstEcc
  dsimp only
  repeat' split
  all_goals simp [k1, k2]

theorem State.burstMac_kept (t block : Nat) (macOk : Bool) (s : State) :
    (State.burstMac t block macOk s).member = s.member ∧
    (State.burstMac t block macOk s).now = s.now ∧
    (State.burstMac t block macOk s).unstored = s.unstored ∧
    (State.burstMac t block macOk s).epo = s.epo ∧
    (State.burstMac t block macOk s).cat = s.cat ∧
    (State.burstMac t block macOk s).med = s.med ∧
    (State.burstMac t block macOk s).coh = s.coh ∧
    (State.burstMac t block macOk s).rte = s.rte ∧
    (State.burstMac t block macOk s).cap = s.cap ∧
    (State.burstMac t block macOk s).cur = s.cur ∧
    (State.burstMac t block macOk s).thm = s.thm ∧
    (State.burstMac t block macOk s).pwr = s.pwr ∧
    (State.burstMac t block macOk s).pmc = s.pmc ∧
    (State.burstMac t block macOk s).net = s.net ∧
    (State.burstMac t block macOk s).freeCtr = s.freeCtr ∧
    (State.burstMac t block macOk s).pending = s.pending := by
  unfold State.burstMac
  simp

@[simp] theorem State.burst_kept (t sub block dev : Nat) (ecc : Ecc) (macOk : Bool) (s : State) :
    (State.burst t sub block dev ecc macOk s).member = s.member ∧
    (State.burst t sub block dev ecc macOk s).now = s.now ∧
    (State.burst t sub block dev ecc macOk s).unstored = s.unstored ∧
    (State.burst t sub block dev ecc macOk s).coh = s.coh ∧
    (State.burst t sub block dev ecc macOk s).rte = s.rte ∧
    (State.burst t sub block dev ecc macOk s).thm = s.thm ∧
    (State.burst t sub block dev ecc macOk s).net = s.net ∧
    (State.burst t sub block dev ecc macOk s).pending = s.pending ∧
    (State.burst t sub block dev ecc macOk s).pwr.straps = s.pwr.straps ∧
    (State.burst t sub block dev ecc macOk s).cur.lifecycle = s.cur.lifecycle ∧
    (State.burst t sub block dev ecc macOk s).cur.rootGen = s.cur.rootGen ∧
    (State.burst t sub block dev ecc macOk s).cur.returns = s.cur.returns ∧
    (State.burst t sub block dev ecc macOk s).cur.revoked = s.cur.revoked := by
  have k1 := State.burstEcc_kept
  have k2 := State.burstMac_kept
  unfold State.burst
  dsimp only
  repeat' split
  all_goals simp [k1, k2]

theorem State.rewriteTract_kept (t n : Nat) (s : State) :
    (State.rewriteTract t n s).member = s.member ∧
    (State.rewriteTract t n s).now = s.now ∧
    (State.rewriteTract t n s).unstored = s.unstored ∧
    (State.rewriteTract t n s).host = s.host ∧
    (State.rewriteTract t n s).epo = s.epo ∧
    (State.rewriteTract t n s).cat = s.cat ∧
    (State.rewriteTract t n s).med = s.med ∧
    (State.rewriteTract t n s).coh = s.coh ∧
    (State.rewriteTract t n s).lnk = s.lnk ∧
    (State.rewriteTract t n s).rte = s.rte ∧
    (State.rewriteTract t n s).cap = s.cap ∧
    (State.rewriteTract t n s).flt = s.flt ∧
    (State.rewriteTract t n s).anl = s.anl ∧
    (State.rewriteTract t n s).cur = s.cur ∧
    (State.rewriteTract t n s).thm = s.thm ∧
    (State.rewriteTract t n s).pwr = s.pwr ∧
    (State.rewriteTract t n s).net = s.net ∧
    (State.rewriteTract t n s).freeCtr = s.freeCtr ∧
    (State.rewriteTract t n s).pending = s.pending := by
  have k1 := State.bumpMinor_kept
  have k2 := State.writeDdr_kept
  unfold State.rewriteTract
  simp [k1, k2]

@[simp] theorem State.firstWrite_kept (t n : Nat) (s : State) :
    (State.firstWrite t n s).member = s.member ∧
    (State.firstWrite t n s).now = s.now ∧
    (State.firstWrite t n s).unstored = s.unstored ∧
    (State.firstWrite t n s).host = s.host ∧
    (State.firstWrite t n s).epo = s.epo ∧
    (State.firstWrite t n s).cat = s.cat ∧
    (State.firstWrite t n s).med = s.med ∧
    (State.firstWrite t n s).coh = s.coh ∧
    (State.firstWrite t n s).lnk = s.lnk ∧
    (State.firstWrite t n s).rte = s.rte ∧
    (State.firstWrite t n s).cap = s.cap ∧
    (State.firstWrite t n s).flt = s.flt ∧
    (State.firstWrite t n s).anl = s.anl ∧
    (State.firstWrite t n s).cur = s.cur ∧
    (State.firstWrite t n s).thm = s.thm ∧
    (State.firstWrite t n s).pwr = s.pwr ∧
    (State.firstWrite t n s).net = s.net ∧
    (State.firstWrite t n s).freeCtr = s.freeCtr ∧
    (State.firstWrite t n s).pending = s.pending := by
  have k1 := State.rewriteTract_kept
  unfold State.firstWrite
  simp [k1]

theorem State.newDdrKeys_kept (t : Nat) (s : State) :
    (State.newDdrKeys t s).member = s.member ∧
    (State.newDdrKeys t s).now = s.now ∧
    (State.newDdrKeys t s).regs = s.regs ∧
    (State.newDdrKeys t s).unstored = s.unstored ∧
    (State.newDdrKeys t s).host = s.host ∧
    (State.newDdrKeys t s).epo = s.epo ∧
    (State.newDdrKeys t s).cat = s.cat ∧
    (State.newDdrKeys t s).med = s.med ∧
    (State.newDdrKeys t s).coh = s.coh ∧
    (State.newDdrKeys t s).lnk = s.lnk ∧
    (State.newDdrKeys t s).rte = s.rte ∧
    (State.newDdrKeys t s).cap = s.cap ∧
    (State.newDdrKeys t s).flt = s.flt ∧
    (State.newDdrKeys t s).anl = s.anl ∧
    (State.newDdrKeys t s).cur = s.cur ∧
    (State.newDdrKeys t s).thm = s.thm ∧
    (State.newDdrKeys t s).pwr = s.pwr ∧
    (State.newDdrKeys t s).pmc = s.pmc ∧
    (State.newDdrKeys t s).out = s.out ∧
    (State.newDdrKeys t s).net = s.net ∧
    (State.newDdrKeys t s).pending = s.pending := by
  unfold State.newDdrKeys
  simp

@[simp] theorem State.startRekey_kept (t : Nat) (s : State) :
    (State.startRekey t s).member = s.member ∧
    (State.startRekey t s).now = s.now ∧
    (State.startRekey t s).unstored = s.unstored ∧
    (State.startRekey t s).host = s.host ∧
    (State.startRekey t s).epo = s.epo ∧
    (State.startRekey t s).cat = s.cat ∧
    (State.startRekey t s).med = s.med ∧
    (State.startRekey t s).coh = s.coh ∧
    (State.startRekey t s).lnk = s.lnk ∧
    (State.startRekey t s).rte = s.rte ∧
    (State.startRekey t s).cap = s.cap ∧
    (State.startRekey t s).flt = s.flt ∧
    (State.startRekey t s).anl = s.anl ∧
    (State.startRekey t s).cur = s.cur ∧
    (State.startRekey t s).thm = s.thm ∧
    (State.startRekey t s).pwr = s.pwr ∧
    (State.startRekey t s).pmc = s.pmc ∧
    (State.startRekey t s).out = s.out ∧
    (State.startRekey t s).net = s.net ∧
    (State.startRekey t s).pending = s.pending := by
  have k1 := State.newDdrKeys_kept
  unfold State.startRekey
  simp [k1]

@[simp] theorem State.rekeyDone_kept (t : Nat) (s : State) :
    (State.rekeyDone t s).member = s.member ∧
    (State.rekeyDone t s).now = s.now ∧
    (State.rekeyDone t s).unstored = s.unstored ∧
    (State.rekeyDone t s).host = s.host ∧
    (State.rekeyDone t s).epo = s.epo ∧
    (State.rekeyDone t s).cat = s.cat ∧
    (State.rekeyDone t s).med = s.med ∧
    (State.rekeyDone t s).coh = s.coh ∧
    (State.rekeyDone t s).lnk = s.lnk ∧
    (State.rekeyDone t s).rte = s.rte ∧
    (State.rekeyDone t s).cap = s.cap ∧
    (State.rekeyDone t s).flt = s.flt ∧
    (State.rekeyDone t s).anl = s.anl ∧
    (State.rekeyDone t s).cur = s.cur ∧
    (State.rekeyDone t s).thm = s.thm ∧
    (State.rekeyDone t s).pwr = s.pwr ∧
    (State.rekeyDone t s).net = s.net ∧
    (State.rekeyDone t s).freeCtr = s.freeCtr ∧
    (State.rekeyDone t s).pending = s.pending := by
  have k1 := State.rewriteTract_kept
  unfold State.rekeyDone
  simp [k1]

theorem State.ncCorrected_kept (t w : Nat) (s : State) :
    (State.ncCorrected t w s).member = s.member ∧
    (State.ncCorrected t w s).now = s.now ∧
    (State.ncCorrected t w s).unstored = s.unstored ∧
    (State.ncCorrected t w s).med = s.med ∧
    (State.ncCorrected t w s).lnk = s.lnk ∧
    (State.ncCorrected t w s).rte = s.rte ∧
    (State.ncCorrected t w s).thm = s.thm ∧
    (State.ncCorrected t w s).pending = s.pending ∧
    (State.ncCorrected t w s).pwr.straps = s.pwr.straps ∧
    (State.ncCorrected t w s).cur.lifecycle = s.cur.lifecycle ∧
    (State.ncCorrected t w s).cur.rootGen = s.cur.rootGen ∧
    (State.ncCorrected t w s).cur.returns = s.cur.returns ∧
    (State.ncCorrected t w s).cur.revoked = s.cur.revoked := by
  have k1 := State.wayReached_kept
  unfold State.ncCorrected
  dsimp only
  repeat' split
  all_goals simp [k1]

theorem State.movePinned_kept (line : Nat) (s : State) :
    (State.movePinned line s).member = s.member ∧
    (State.movePinned line s).now = s.now ∧
    (State.movePinned line s).unstored = s.unstored ∧
    (State.movePinned line s).host = s.host ∧
    (State.movePinned line s).epo = s.epo ∧
    (State.movePinned line s).med = s.med ∧
    (State.movePinned line s).lnk = s.lnk ∧
    (State.movePinned line s).rte = s.rte ∧
    (State.movePinned line s).cap = s.cap ∧
    (State.movePinned line s).flt = s.flt ∧
    (State.movePinned line s).anl = s.anl ∧
    (State.movePinned line s).cur = s.cur ∧
    (State.movePinned line s).thm = s.thm ∧
    (State.movePinned line s).pwr = s.pwr ∧
    (State.movePinned line s).freeCtr = s.freeCtr ∧
    (State.movePinned line s).pending = s.pending := by
  unfold State.movePinned
  dsimp only
  repeat' split
  all_goals simp

theorem State.dirReached_kept (t w : Nat) (s : State) :
    (State.dirReached t w s).member = s.member ∧
    (State.dirReached t w s).now = s.now ∧
    (State.dirReached t w s).unstored = s.unstored ∧
    (State.dirReached t w s).med = s.med ∧
    (State.dirReached t w s).lnk = s.lnk ∧
    (State.dirReached t w s).rte = s.rte ∧
    (State.dirReached t w s).thm = s.thm ∧
    (State.dirReached t w s).pending = s.pending ∧
    (State.dirReached t w s).pwr.straps = s.pwr.straps ∧
    (State.dirReached t w s).cur.lifecycle = s.cur.lifecycle ∧
    (State.dirReached t w s).cur.rootGen = s.cur.rootGen ∧
    (State.dirReached t w s).cur.returns = s.cur.returns ∧
    (State.dirReached t w s).cur.revoked = s.cur.revoked := by
  have k1 := State.movePinned_kept
  unfold State.dirReached
  dsimp only
  repeat' split
  all_goals simp [k1]

theorem State.dirCorrected_kept (t w : Nat) (s : State) :
    (State.dirCorrected t w s).member = s.member ∧
    (State.dirCorrected t w s).now = s.now ∧
    (State.dirCorrected t w s).unstored = s.unstored ∧
    (State.dirCorrected t w s).med = s.med ∧
    (State.dirCorrected t w s).lnk = s.lnk ∧
    (State.dirCorrected t w s).rte = s.rte ∧
    (State.dirCorrected t w s).thm = s.thm ∧
    (State.dirCorrected t w s).pending = s.pending ∧
    (State.dirCorrected t w s).pwr.straps = s.pwr.straps ∧
    (State.dirCorrected t w s).cur.lifecycle = s.cur.lifecycle ∧
    (State.dirCorrected t w s).cur.rootGen = s.cur.rootGen ∧
    (State.dirCorrected t w s).cur.returns = s.cur.returns ∧
    (State.dirCorrected t w s).cur.revoked = s.cur.revoked := by
  have k1 := State.dirReached_kept
  unfold State.dirCorrected
  dsimp only
  repeat' split
  all_goals simp [k1]

theorem State.catLineLost_kept (t v : Nat) (s : State) :
    (State.catLineLost t v s).member = s.member ∧
    (State.catLineLost t v s).now = s.now ∧
    (State.catLineLost t v s).unstored = s.unstored ∧
    (State.catLineLost t v s).host = s.host ∧
    (State.catLineLost t v s).epo = s.epo ∧
    (State.catLineLost t v s).coh = s.coh ∧
    (State.catLineLost t v s).lnk = s.lnk ∧
    (State.catLineLost t v s).rte = s.rte ∧
    (State.catLineLost t v s).cap = s.cap ∧
    (State.catLineLost t v s).flt = s.flt ∧
    (State.catLineLost t v s).anl = s.anl ∧
    (State.catLineLost t v s).cur = s.cur ∧
    (State.catLineLost t v s).thm = s.thm ∧
    (State.catLineLost t v s).pwr = s.pwr ∧
    (State.catLineLost t v s).net = s.net ∧
    (State.catLineLost t v s).freeCtr = s.freeCtr ∧
    (State.catLineLost t v s).pending = s.pending := by
  have k1 := State.loseFolios_kept
  have k2 := State.loseGroups_kept
  unfold State.catLineLost
  dsimp only
  repeat' split
  all_goals simp [k1, k2]

theorem State.cnodeLost_kept (t v : Nat) (s : State) :
    (State.cnodeLost t v s).member = s.member ∧
    (State.cnodeLost t v s).now = s.now ∧
    (State.cnodeLost t v s).unstored = s.unstored ∧
    (State.cnodeLost t v s).coh = s.coh ∧
    (State.cnodeLost t v s).lnk = s.lnk ∧
    (State.cnodeLost t v s).rte = s.rte ∧
    (State.cnodeLost t v s).cap = s.cap ∧
    (State.cnodeLost t v s).flt = s.flt ∧
    (State.cnodeLost t v s).thm = s.thm ∧
    (State.cnodeLost t v s).pwr = s.pwr ∧
    (State.cnodeLost t v s).net = s.net ∧
    (State.cnodeLost t v s).pending = s.pending ∧
    (State.cnodeLost t v s).cur.lifecycle = s.cur.lifecycle ∧
    (State.cnodeLost t v s).cur.rootGen = s.cur.rootGen ∧
    (State.cnodeLost t v s).cur.returns = s.cur.returns ∧
    (State.cnodeLost t v s).cur.revoked = s.cur.revoked := by
  unfold State.cnodeLost
  dsimp only
  repeat' split
  all_goals simp

theorem State.sramLost_kept (t array w v : Nat) (dirty : Bool) (s : State) :
    (State.sramLost t array w v dirty s).member = s.member ∧
    (State.sramLost t array w v dirty s).now = s.now ∧
    (State.sramLost t array w v dirty s).unstored = s.unstored ∧
    (State.sramLost t array w v dirty s).lnk = s.lnk ∧
    (State.sramLost t array w v dirty s).rte = s.rte ∧
    (State.sramLost t array w v dirty s).thm = s.thm ∧
    (State.sramLost t array w v dirty s).pending = s.pending ∧
    (State.sramLost t array w v dirty s).pwr.straps = s.pwr.straps ∧
    (State.sramLost t array w v dirty s).cur.lifecycle = s.cur.lifecycle ∧
    (State.sramLost t array w v dirty s).cur.rootGen = s.cur.rootGen ∧
    (State.sramLost t array w v dirty s).cur.returns = s.cur.returns ∧
    (State.sramLost t array w v dirty s).cur.revoked = s.cur.revoked := by
  have k1 := State.catLineLost_kept
  have k2 := State.cnodeLost_kept
  have k3 := State.recall_kept
  have k4 := State.vacateKept_kept
  have k5 := State.wayFailed_kept
  unfold State.sramLost
  dsimp only
  repeat' split
  all_goals simp [k1, k2, k3, k4, k5]

@[simp] theorem State.sramStep_kept (t array w : Nat) (dirty : Bool) (ecc : Ecc) (s : State) :
    (State.sramStep t array w dirty ecc s).member = s.member ∧
    (State.sramStep t array w dirty ecc s).now = s.now ∧
    (State.sramStep t array w dirty ecc s).unstored = s.unstored ∧
    (State.sramStep t array w dirty ecc s).lnk = s.lnk ∧
    (State.sramStep t array w dirty ecc s).rte = s.rte ∧
    (State.sramStep t array w dirty ecc s).thm = s.thm ∧
    (State.sramStep t array w dirty ecc s).pending = s.pending ∧
    (State.sramStep t array w dirty ecc s).pwr.straps = s.pwr.straps ∧
    (State.sramStep t array w dirty ecc s).cur.lifecycle = s.cur.lifecycle ∧
    (State.sramStep t array w dirty ecc s).cur.rootGen = s.cur.rootGen ∧
    (State.sramStep t array w dirty ecc s).cur.returns = s.cur.returns ∧
    (State.sramStep t array w dirty ecc s).cur.revoked = s.cur.revoked := by
  have k1 := State.dirCorrected_kept
  have k2 := State.ncCorrected_kept
  have k3 := State.sramLost_kept
  unfold State.sramStep
  dsimp only
  repeat' split
  all_goals simp [k1, k2, k3]

theorem State.loadChunk_kept (t c : Nat) (o : StartedOp) (left : Nat) (s : State) :
    (State.loadChunk t c o left s).member = s.member ∧
    (State.loadChunk t c o left s).now = s.now ∧
    (State.loadChunk t c o left s).regs = s.regs ∧
    (State.loadChunk t c o left s).unstored = s.unstored ∧
    (State.loadChunk t c o left s).host = s.host ∧
    (State.loadChunk t c o left s).epo = s.epo ∧
    (State.loadChunk t c o left s).cat = s.cat ∧
    (State.loadChunk t c o left s).coh = s.coh ∧
    (State.loadChunk t c o left s).lnk = s.lnk ∧
    (State.loadChunk t c o left s).rte = s.rte ∧
    (State.loadChunk t c o left s).cap = s.cap ∧
    (State.loadChunk t c o left s).cry = s.cry ∧
    (State.loadChunk t c o left s).flt = s.flt ∧
    (State.loadChunk t c o left s).anl = s.anl ∧
    (State.loadChunk t c o left s).cur = s.cur ∧
    (State.loadChunk t c o left s).thm = s.thm ∧
    (State.loadChunk t c o left s).pwr = s.pwr ∧
    (State.loadChunk t c o left s).pmc = s.pmc ∧
    (State.loadChunk t c o left s).out = s.out ∧
    (State.loadChunk t c o left s).net = s.net ∧
    (State.loadChunk t c o left s).freeCtr = s.freeCtr ∧
    (State.loadChunk t c o left s).pending = s.pending := by
  unfold State.loadChunk
  dsimp only
  repeat' split
  all_goals simp

theorem State.grantLoad_kept (t c : Nat) (o : StartedOp) (left : Nat) (s : State) :
    (State.grantLoad t c o left s).member = s.member ∧
    (State.grantLoad t c o left s).now = s.now ∧
    (State.grantLoad t c o left s).regs = s.regs ∧
    (State.grantLoad t c o left s).unstored = s.unstored ∧
    (State.grantLoad t c o left s).host = s.host ∧
    (State.grantLoad t c o left s).epo = s.epo ∧
    (State.grantLoad t c o left s).cat = s.cat ∧
    (State.grantLoad t c o left s).coh = s.coh ∧
    (State.grantLoad t c o left s).lnk = s.lnk ∧
    (State.grantLoad t c o left s).rte = s.rte ∧
    (State.grantLoad t c o left s).cap = s.cap ∧
    (State.grantLoad t c o left s).cry = s.cry ∧
    (State.grantLoad t c o left s).flt = s.flt ∧
    (State.grantLoad t c o left s).anl = s.anl ∧
    (State.grantLoad t c o left s).cur = s.cur ∧
    (State.grantLoad t c o left s).thm = s.thm ∧
    (State.grantLoad t c o left s).pwr = s.pwr ∧
    (State.grantLoad t c o left s).pmc = s.pmc ∧
    (State.grantLoad t c o left s).net = s.net ∧
    (State.grantLoad t c o left s).freeCtr = s.freeCtr ∧
    (State.grantLoad t c o left s).pending = s.pending := by
  have k1 := State.loadChunk_kept
  unfold State.grantLoad
  simp [k1]

theorem State.sendBack_kept (t c : Nat) (w : BackWin) (s : State) :
    (State.sendBack t c w s).member = s.member ∧
    (State.sendBack t c w s).now = s.now ∧
    (State.sendBack t c w s).regs = s.regs ∧
    (State.sendBack t c w s).unstored = s.unstored ∧
    (State.sendBack t c w s).host = s.host ∧
    (State.sendBack t c w s).epo = s.epo ∧
    (State.sendBack t c w s).coh = s.coh ∧
    (State.sendBack t c w s).lnk = s.lnk ∧
    (State.sendBack t c w s).rte = s.rte ∧
    (State.sendBack t c w s).cap = s.cap ∧
    (State.sendBack t c w s).cry = s.cry ∧
    (State.sendBack t c w s).flt = s.flt ∧
    (State.sendBack t c w s).anl = s.anl ∧
    (State.sendBack t c w s).cur = s.cur ∧
    (State.sendBack t c w s).thm = s.thm ∧
    (State.sendBack t c w s).pwr = s.pwr ∧
    (State.sendBack t c w s).pmc = s.pmc ∧
    (State.sendBack t c w s).net = s.net ∧
    (State.sendBack t c w s).pending = s.pending := by
  have k1 := State.ownBits_kept
  have k2 := State.sense_kept
  unfold State.sendBack
  repeat' split
  all_goals simp [k1, k2, *]

theorem State.grantBack_kept (t c : Nat) (w : BackWin) (s : State) :
    (State.grantBack t c w s).member = s.member ∧
    (State.grantBack t c w s).now = s.now ∧
    (State.grantBack t c w s).regs = s.regs ∧
    (State.grantBack t c w s).unstored = s.unstored ∧
    (State.grantBack t c w s).host = s.host ∧
    (State.grantBack t c w s).coh = s.coh ∧
    (State.grantBack t c w s).lnk = s.lnk ∧
    (State.grantBack t c w s).rte = s.rte ∧
    (State.grantBack t c w s).cap = s.cap ∧
    (State.grantBack t c w s).cry = s.cry ∧
    (State.grantBack t c w s).flt = s.flt ∧
    (State.grantBack t c w s).anl = s.anl ∧
    (State.grantBack t c w s).cur = s.cur ∧
    (State.grantBack t c w s).thm = s.thm ∧
    (State.grantBack t c w s).pwr = s.pwr ∧
    (State.grantBack t c w s).pmc = s.pmc ∧
    (State.grantBack t c w s).net = s.net ∧
    (State.grantBack t c w s).pending = s.pending := by
  have k1 := State.sendBack_kept
  unfold State.grantBack
  simp [k1]

theorem State.grantRead_kept (t c : Nat) (w : Window) (s : State) :
    (State.grantRead t c w s).member = s.member ∧
    (State.grantRead t c w s).now = s.now ∧
    (State.grantRead t c w s).regs = s.regs ∧
    (State.grantRead t c w s).unstored = s.unstored ∧
    (State.grantRead t c w s).host = s.host ∧
    (State.grantRead t c w s).epo = s.epo ∧
    (State.grantRead t c w s).coh = s.coh ∧
    (State.grantRead t c w s).lnk = s.lnk ∧
    (State.grantRead t c w s).rte = s.rte ∧
    (State.grantRead t c w s).cap = s.cap ∧
    (State.grantRead t c w s).cry = s.cry ∧
    (State.grantRead t c w s).flt = s.flt ∧
    (State.grantRead t c w s).anl = s.anl ∧
    (State.grantRead t c w s).cur = s.cur ∧
    (State.grantRead t c w s).thm = s.thm ∧
    (State.grantRead t c w s).pwr = s.pwr ∧
    (State.grantRead t c w s).net = s.net ∧
    (State.grantRead t c w s).freeCtr = s.freeCtr ∧
    (State.grantRead t c w s).pending = s.pending := by
  have k1 := State.sense_kept
  unfold State.grantRead
  simp [k1]

theorem State.busBack_kept (t c slots : Nat) (s : State) :
    (State.busBack t c slots s).member = s.member ∧
    (State.busBack t c slots s).now = s.now ∧
    (State.busBack t c slots s).regs = s.regs ∧
    (State.busBack t c slots s).unstored = s.unstored ∧
    (State.busBack t c slots s).host = s.host ∧
    (State.busBack t c slots s).epo = s.epo ∧
    (State.busBack t c slots s).cat = s.cat ∧
    (State.busBack t c slots s).coh = s.coh ∧
    (State.busBack t c slots s).lnk = s.lnk ∧
    (State.busBack t c slots s).rte = s.rte ∧
    (State.busBack t c slots s).cap = s.cap ∧
    (State.busBack t c slots s).cry = s.cry ∧
    (State.busBack t c slots s).flt = s.flt ∧
    (State.busBack t c slots s).anl = s.anl ∧
    (State.busBack t c slots s).cur = s.cur ∧
    (State.busBack t c slots s).thm = s.thm ∧
    (State.busBack t c slots s).pwr = s.pwr ∧
    (State.busBack t c slots s).out = s.out ∧
    (State.busBack t c slots s).net = s.net ∧
    (State.busBack t c slots s).freeCtr = s.freeCtr ∧
    (State.busBack t c slots s).pending = s.pending := by
  unfold State.busBack
  simp

@[simp] theorem State.grantSlot_kept (t c : Nat) (s : State) :
    (State.grantSlot t c s).member = s.member ∧
    (State.grantSlot t c s).now = s.now ∧
    (State.grantSlot t c s).unstored = s.unstored ∧
    (State.grantSlot t c s).host = s.host ∧
    (State.grantSlot t c s).lnk = s.lnk ∧
    (State.grantSlot t c s).rte = s.rte ∧
    (State.grantSlot t c s).cur = s.cur ∧
    (State.grantSlot t c s).thm = s.thm ∧
    (State.grantSlot t c s).pwr = s.pwr ∧
    (State.grantSlot t c s).pending = s.pending := by
  have k1 := State.busBack_kept
  have k2 := State.grantBack_kept
  have k3 := State.grantLoad_kept
  have k4 := State.grantRead_kept
  unfold State.grantSlot
  dsimp only
  repeat' split
  all_goals simp [k1, k2, k3, k4]

theorem State.countWindow_kept (t c line : Nat) (discarded : Bool) (s : State) :
    (State.countWindow t c line discarded s).member = s.member ∧
    (State.countWindow t c line discarded s).now = s.now ∧
    (State.countWindow t c line discarded s).unstored = s.unstored ∧
    (State.countWindow t c line discarded s).host = s.host ∧
    (State.countWindow t c line discarded s).lnk = s.lnk ∧
    (State.countWindow t c line discarded s).rte = s.rte ∧
    (State.countWindow t c line discarded s).cur = s.cur ∧
    (State.countWindow t c line discarded s).thm = s.thm ∧
    (State.countWindow t c line discarded s).pwr = s.pwr ∧
    (State.countWindow t c line discarded s).pending = s.pending := by
  unfold State.countWindow
  dsimp only
  repeat' split
  all_goals simp

@[simp] theorem State.queueBack_kept (t c : Nat) (l : List BackWin) (s : State) :
    (State.queueBack t c l s).member = s.member ∧
    (State.queueBack t c l s).now = s.now ∧
    (State.queueBack t c l s).regs = s.regs ∧
    (State.queueBack t c l s).unstored = s.unstored ∧
    (State.queueBack t c l s).host = s.host ∧
    (State.queueBack t c l s).epo = s.epo ∧
    (State.queueBack t c l s).cat = s.cat ∧
    (State.queueBack t c l s).coh = s.coh ∧
    (State.queueBack t c l s).lnk = s.lnk ∧
    (State.queueBack t c l s).rte = s.rte ∧
    (State.queueBack t c l s).cap = s.cap ∧
    (State.queueBack t c l s).cry = s.cry ∧
    (State.queueBack t c l s).flt = s.flt ∧
    (State.queueBack t c l s).anl = s.anl ∧
    (State.queueBack t c l s).cur = s.cur ∧
    (State.queueBack t c l s).thm = s.thm ∧
    (State.queueBack t c l s).pwr = s.pwr ∧
    (State.queueBack t c l s).pmc = s.pmc ∧
    (State.queueBack t c l s).out = s.out ∧
    (State.queueBack t c l s).net = s.net ∧
    (State.queueBack t c l s).freeCtr = s.freeCtr ∧
    (State.queueBack t c l s).pending = s.pending := by
  unfold State.queueBack
  simp

theorem State.queueTemps_kept (t c : Nat) (s : State) :
    (State.queueTemps t c s).member = s.member ∧
    (State.queueTemps t c s).now = s.now ∧
    (State.queueTemps t c s).regs = s.regs ∧
    (State.queueTemps t c s).unstored = s.unstored ∧
    (State.queueTemps t c s).host = s.host ∧
    (State.queueTemps t c s).epo = s.epo ∧
    (State.queueTemps t c s).cat = s.cat ∧
    (State.queueTemps t c s).coh = s.coh ∧
    (State.queueTemps t c s).lnk = s.lnk ∧
    (State.queueTemps t c s).rte = s.rte ∧
    (State.queueTemps t c s).cap = s.cap ∧
    (State.queueTemps t c s).cry = s.cry ∧
    (State.queueTemps t c s).flt = s.flt ∧
    (State.queueTemps t c s).anl = s.anl ∧
    (State.queueTemps t c s).cur = s.cur ∧
    (State.queueTemps t c s).thm = s.thm ∧
    (State.queueTemps t c s).pwr = s.pwr ∧
    (State.queueTemps t c s).pmc = s.pmc ∧
    (State.queueTemps t c s).out = s.out ∧
    (State.queueTemps t c s).net = s.net ∧
    (State.queueTemps t c s).freeCtr = s.freeCtr ∧
    (State.queueTemps t c s).pending = s.pending := by
  unfold State.queueTemps
  simp

theorem State.queueScrub_kept (t c : Nat) (s : State) :
    (State.queueScrub t c s).member = s.member ∧
    (State.queueScrub t c s).now = s.now ∧
    (State.queueScrub t c s).regs = s.regs ∧
    (State.queueScrub t c s).unstored = s.unstored ∧
    (State.queueScrub t c s).host = s.host ∧
    (State.queueScrub t c s).epo = s.epo ∧
    (State.queueScrub t c s).cat = s.cat ∧
    (State.queueScrub t c s).coh = s.coh ∧
    (State.queueScrub t c s).lnk = s.lnk ∧
    (State.queueScrub t c s).rte = s.rte ∧
    (State.queueScrub t c s).cap = s.cap ∧
    (State.queueScrub t c s).cry = s.cry ∧
    (State.queueScrub t c s).flt = s.flt ∧
    (State.queueScrub t c s).anl = s.anl ∧
    (State.queueScrub t c s).cur = s.cur ∧
    (State.queueScrub t c s).thm = s.thm ∧
    (State.queueScrub t c s).pwr = s.pwr ∧
    (State.queueScrub t c s).pmc = s.pmc ∧
    (State.queueScrub t c s).out = s.out ∧
    (State.queueScrub t c s).net = s.net ∧
    (State.queueScrub t c s).freeCtr = s.freeCtr ∧
    (State.queueScrub t c s).pending = s.pending := by
  unfold State.queueScrub
  dsimp only
  repeat' split
  all_goals simp

theorem State.queueCal_kept (t c : Nat) (s : State) :
    (State.queueCal t c s).member = s.member ∧
    (State.queueCal t c s).now = s.now ∧
    (State.queueCal t c s).regs = s.regs ∧
    (State.queueCal t c s).unstored = s.unstored ∧
    (State.queueCal t c s).host = s.host ∧
    (State.queueCal t c s).epo = s.epo ∧
    (State.queueCal t c s).cat = s.cat ∧
    (State.queueCal t c s).coh = s.coh ∧
    (State.queueCal t c s).lnk = s.lnk ∧
    (State.queueCal t c s).rte = s.rte ∧
    (State.queueCal t c s).cap = s.cap ∧
    (State.queueCal t c s).cry = s.cry ∧
    (State.queueCal t c s).flt = s.flt ∧
    (State.queueCal t c s).anl = s.anl ∧
    (State.queueCal t c s).cur = s.cur ∧
    (State.queueCal t c s).thm = s.thm ∧
    (State.queueCal t c s).pwr = s.pwr ∧
    (State.queueCal t c s).pmc = s.pmc ∧
    (State.queueCal t c s).out = s.out ∧
    (State.queueCal t c s).net = s.net ∧
    (State.queueCal t c s).freeCtr = s.freeCtr ∧
    (State.queueCal t c s).pending = s.pending := by
  unfold State.queueCal
  repeat' split
  all_goals simp [*]

theorem State.queueDue_kept (t : Nat) (s : State) :
    (State.queueDue t s).member = s.member ∧
    (State.queueDue t s).now = s.now ∧
    (State.queueDue t s).regs = s.regs ∧
    (State.queueDue t s).unstored = s.unstored ∧
    (State.queueDue t s).host = s.host ∧
    (State.queueDue t s).epo = s.epo ∧
    (State.queueDue t s).cat = s.cat ∧
    (State.queueDue t s).coh = s.coh ∧
    (State.queueDue t s).lnk = s.lnk ∧
    (State.queueDue t s).rte = s.rte ∧
    (State.queueDue t s).cap = s.cap ∧
    (State.queueDue t s).cry = s.cry ∧
    (State.queueDue t s).flt = s.flt ∧
    (State.queueDue t s).anl = s.anl ∧
    (State.queueDue t s).cur = s.cur ∧
    (State.queueDue t s).thm = s.thm ∧
    (State.queueDue t s).pwr = s.pwr ∧
    (State.queueDue t s).pmc = s.pmc ∧
    (State.queueDue t s).out = s.out ∧
    (State.queueDue t s).net = s.net ∧
    (State.queueDue t s).freeCtr = s.freeCtr ∧
    (State.queueDue t s).pending = s.pending := by
  have k1 := State.queueCal_kept
  have k2 := State.queueScrub_kept
  have k3 := State.queueTemps_kept
  unfold State.queueDue
  simp [k1, k2, k3]

theorem State.takeBack_kept (t c : Nat) (k : BackKind) (p : BackWin → Bool) (s : State) :
    (State.takeBack t c k p s).member = s.member ∧
    (State.takeBack t c k p s).now = s.now ∧
    (State.takeBack t c k p s).regs = s.regs ∧
    (State.takeBack t c k p s).unstored = s.unstored ∧
    (State.takeBack t c k p s).host = s.host ∧
    (State.takeBack t c k p s).cat = s.cat ∧
    (State.takeBack t c k p s).coh = s.coh ∧
    (State.takeBack t c k p s).lnk = s.lnk ∧
    (State.takeBack t c k p s).rte = s.rte ∧
    (State.takeBack t c k p s).cap = s.cap ∧
    (State.takeBack t c k p s).cry = s.cry ∧
    (State.takeBack t c k p s).flt = s.flt ∧
    (State.takeBack t c k p s).anl = s.anl ∧
    (State.takeBack t c k p s).cur = s.cur ∧
    (State.takeBack t c k p s).thm = s.thm ∧
    (State.takeBack t c k p s).pwr = s.pwr ∧
    (State.takeBack t c k p s).pmc = s.pmc ∧
    (State.takeBack t c k p s).out = s.out ∧
    (State.takeBack t c k p s).net = s.net ∧
    (State.takeBack t c k p s).freeCtr = s.freeCtr ∧
    (State.takeBack t c k p s).pending = s.pending := by
  unfold State.takeBack
  simp

theorem State.applyTable_kept (t : Nat) (s : State) :
    (State.applyTable t s).member = s.member ∧
    (State.applyTable t s).now = s.now ∧
    (State.applyTable t s).unstored = s.unstored ∧
    (State.applyTable t s).host = s.host ∧
    (State.applyTable t s).epo = s.epo ∧
    (State.applyTable t s).cat = s.cat ∧
    (State.applyTable t s).coh = s.coh ∧
    (State.applyTable t s).lnk = s.lnk ∧
    (State.applyTable t s).rte = s.rte ∧
    (State.applyTable t s).cap = s.cap ∧
    (State.applyTable t s).cry = s.cry ∧
    (State.applyTable t s).flt = s.flt ∧
    (State.applyTable t s).anl = s.anl ∧
    (State.applyTable t s).cur = s.cur ∧
    (State.applyTable t s).thm = s.thm ∧
    (State.applyTable t s).pwr = s.pwr ∧
    (State.applyTable t s).pmc = s.pmc ∧
    (State.applyTable t s).out = s.out ∧
    (State.applyTable t s).net = s.net ∧
    (State.applyTable t s).freeCtr = s.freeCtr ∧
    (State.applyTable t s).pending = s.pending := by
  have k1 := State.showDrift_kept
  unfold State.applyTable
  dsimp only
  repeat' split
  all_goals simp [k1]

theorem State.startOp_kept (t : Nat) (o : StartedOp) (s : State) :
    (State.startOp t o s).member = s.member ∧
    (State.startOp t o s).now = s.now ∧
    (State.startOp t o s).regs = s.regs ∧
    (State.startOp t o s).unstored = s.unstored ∧
    (State.startOp t o s).host = s.host ∧
    (State.startOp t o s).epo = s.epo ∧
    (State.startOp t o s).cat = s.cat ∧
    (State.startOp t o s).coh = s.coh ∧
    (State.startOp t o s).lnk = s.lnk ∧
    (State.startOp t o s).rte = s.rte ∧
    (State.startOp t o s).cap = s.cap ∧
    (State.startOp t o s).cry = s.cry ∧
    (State.startOp t o s).flt = s.flt ∧
    (State.startOp t o s).anl = s.anl ∧
    (State.startOp t o s).cur = s.cur ∧
    (State.startOp t o s).thm = s.thm ∧
    (State.startOp t o s).pwr = s.pwr ∧
    (State.startOp t o s).net = s.net ∧
    (State.startOp t o s).freeCtr = s.freeCtr ∧
    (State.startOp t o s).pending = s.pending := by
  unfold State.startOp
  simp

theorem State.startDue_kept (t : Nat) (s : State) :
    (State.startDue t s).member = s.member ∧
    (State.startDue t s).now = s.now ∧
    (State.startDue t s).regs = s.regs ∧
    (State.startDue t s).unstored = s.unstored ∧
    (State.startDue t s).host = s.host ∧
    (State.startDue t s).epo = s.epo ∧
    (State.startDue t s).cat = s.cat ∧
    (State.startDue t s).coh = s.coh ∧
    (State.startDue t s).lnk = s.lnk ∧
    (State.startDue t s).rte = s.rte ∧
    (State.startDue t s).cap = s.cap ∧
    (State.startDue t s).cry = s.cry ∧
    (State.startDue t s).flt = s.flt ∧
    (State.startDue t s).anl = s.anl ∧
    (State.startDue t s).cur = s.cur ∧
    (State.startDue t s).thm = s.thm ∧
    (State.startDue t s).pwr = s.pwr ∧
    (State.startDue t s).net = s.net ∧
    (State.startDue t s).freeCtr = s.freeCtr ∧
    (State.startDue t s).pending = s.pending := by
  have k1 := State.startOp_kept
  unfold State.startDue
  simp [k1]

@[simp] theorem State.startPhase_kept (t : Nat) (s : State) :
    (State.startPhase t s).member = s.member ∧
    (State.startPhase t s).now = s.now ∧
    (State.startPhase t s).unstored = s.unstored ∧
    (State.startPhase t s).host = s.host ∧
    (State.startPhase t s).epo = s.epo ∧
    (State.startPhase t s).cat = s.cat ∧
    (State.startPhase t s).coh = s.coh ∧
    (State.startPhase t s).lnk = s.lnk ∧
    (State.startPhase t s).rte = s.rte ∧
    (State.startPhase t s).cap = s.cap ∧
    (State.startPhase t s).cry = s.cry ∧
    (State.startPhase t s).flt = s.flt ∧
    (State.startPhase t s).anl = s.anl ∧
    (State.startPhase t s).cur = s.cur ∧
    (State.startPhase t s).thm = s.thm ∧
    (State.startPhase t s).pwr = s.pwr ∧
    (State.startPhase t s).net = s.net ∧
    (State.startPhase t s).freeCtr = s.freeCtr ∧
    (State.startPhase t s).pending = s.pending := by
  have k1 := State.applyTable_kept
  have k2 := State.queueDue_kept
  have k3 := State.startDue_kept
  unfold State.startPhase
  simp [k1, k2, k3]

theorem State.endOp_kept (t c block : Nat) (s : State) :
    (State.endOp t c block s).member = s.member ∧
    (State.endOp t c block s).now = s.now ∧
    (State.endOp t c block s).regs = s.regs ∧
    (State.endOp t c block s).unstored = s.unstored ∧
    (State.endOp t c block s).host = s.host ∧
    (State.endOp t c block s).epo = s.epo ∧
    (State.endOp t c block s).cat = s.cat ∧
    (State.endOp t c block s).coh = s.coh ∧
    (State.endOp t c block s).lnk = s.lnk ∧
    (State.endOp t c block s).rte = s.rte ∧
    (State.endOp t c block s).cap = s.cap ∧
    (State.endOp t c block s).cry = s.cry ∧
    (State.endOp t c block s).flt = s.flt ∧
    (State.endOp t c block s).anl = s.anl ∧
    (State.endOp t c block s).cur = s.cur ∧
    (State.endOp t c block s).thm = s.thm ∧
    (State.endOp t c block s).pwr = s.pwr ∧
    (State.endOp t c block s).pmc = s.pmc ∧
    (State.endOp t c block s).out = s.out ∧
    (State.endOp t c block s).net = s.net ∧
    (State.endOp t c block s).freeCtr = s.freeCtr ∧
    (State.endOp t c block s).pending = s.pending := by
  unfold State.endOp
  simp

theorem State.cancelOps_kept (t : Nat) (p : StartedOp → Bool) (s : State) :
    (State.cancelOps t p s).member = s.member ∧
    (State.cancelOps t p s).now = s.now ∧
    (State.cancelOps t p s).regs = s.regs ∧
    (State.cancelOps t p s).unstored = s.unstored ∧
    (State.cancelOps t p s).host = s.host ∧
    (State.cancelOps t p s).epo = s.epo ∧
    (State.cancelOps t p s).cat = s.cat ∧
    (State.cancelOps t p s).coh = s.coh ∧
    (State.cancelOps t p s).lnk = s.lnk ∧
    (State.cancelOps t p s).rte = s.rte ∧
    (State.cancelOps t p s).cap = s.cap ∧
    (State.cancelOps t p s).cry = s.cry ∧
    (State.cancelOps t p s).flt = s.flt ∧
    (State.cancelOps t p s).anl = s.anl ∧
    (State.cancelOps t p s).cur = s.cur ∧
    (State.cancelOps t p s).thm = s.thm ∧
    (State.cancelOps t p s).pwr = s.pwr ∧
    (State.cancelOps t p s).pmc = s.pmc ∧
    (State.cancelOps t p s).out = s.out ∧
    (State.cancelOps t p s).net = s.net ∧
    (State.cancelOps t p s).freeCtr = s.freeCtr ∧
    (State.cancelOps t p s).pending = s.pending := by
  unfold State.cancelOps
  simp

theorem State.programFailed_kept (t c block spn cause : Nat) (s : State) :
    (State.programFailed t c block spn cause s).member = s.member ∧
    (State.programFailed t c block spn cause s).now = s.now ∧
    (State.programFailed t c block spn cause s).unstored = s.unstored ∧
    (State.programFailed t c block spn cause s).epo = s.epo ∧
    (State.programFailed t c block spn cause s).coh = s.coh ∧
    (State.programFailed t c block spn cause s).lnk = s.lnk ∧
    (State.programFailed t c block spn cause s).rte = s.rte ∧
    (State.programFailed t c block spn cause s).cap = s.cap ∧
    (State.programFailed t c block spn cause s).cry = s.cry ∧
    (State.programFailed t c block spn cause s).flt = s.flt ∧
    (State.programFailed t c block spn cause s).cur = s.cur ∧
    (State.programFailed t c block spn cause s).thm = s.thm ∧
    (State.programFailed t c block spn cause s).pwr = s.pwr ∧
    (State.programFailed t c block spn cause s).pmc = s.pmc ∧
    (State.programFailed t c block spn cause s).net = s.net ∧
    (State.programFailed t c block spn cause s).freeCtr = s.freeCtr ∧
    (State.programFailed t c block spn cause s).pending = s.pending := by
  have k1 := State.cancelOps_kept
  have k2 := State.copyAgain_kept
  have k3 := State.endOp_kept
  have k4 := State.failPage_kept
  have k5 := State.settleOwn_kept
  unfold State.programFailed
  repeat' split
  all_goals simp [k1, k2, k3, k4, k5, *]

theorem State.eraseFailed_kept (t c block cause : Nat) (s : State) :
    (State.eraseFailed t c block cause s).member = s.member ∧
    (State.eraseFailed t c block cause s).now = s.now ∧
    (State.eraseFailed t c block cause s).unstored = s.unstored ∧
    (State.eraseFailed t c block cause s).epo = s.epo ∧
    (State.eraseFailed t c block cause s).coh = s.coh ∧
    (State.eraseFailed t c block cause s).lnk = s.lnk ∧
    (State.eraseFailed t c block cause s).rte = s.rte ∧
    (State.eraseFailed t c block cause s).cap = s.cap ∧
    (State.eraseFailed t c block cause s).cry = s.cry ∧
    (State.eraseFailed t c block cause s).flt = s.flt ∧
    (State.eraseFailed t c block cause s).cur = s.cur ∧
    (State.eraseFailed t c block cause s).thm = s.thm ∧
    (State.eraseFailed t c block cause s).pwr = s.pwr ∧
    (State.eraseFailed t c block cause s).pmc = s.pmc ∧
    (State.eraseFailed t c block cause s).net = s.net ∧
    (State.eraseFailed t c block cause s).freeCtr = s.freeCtr ∧
    (State.eraseFailed t c block cause s).pending = s.pending := by
  have k1 := State.cancelOps_kept
  have k2 := State.endOp_kept
  unfold State.eraseFailed
  simp [k1, k2]

theorem State.stretch_kept (t : Nat) (s : State) :
    (State.stretch t s).member = s.member ∧
    (State.stretch t s).now = s.now ∧
    (State.stretch t s).unstored = s.unstored ∧
    (State.stretch t s).host = s.host ∧
    (State.stretch t s).epo = s.epo ∧
    (State.stretch t s).cat = s.cat ∧
    (State.stretch t s).coh = s.coh ∧
    (State.stretch t s).lnk = s.lnk ∧
    (State.stretch t s).rte = s.rte ∧
    (State.stretch t s).cap = s.cap ∧
    (State.stretch t s).cry = s.cry ∧
    (State.stretch t s).flt = s.flt ∧
    (State.stretch t s).anl = s.anl ∧
    (State.stretch t s).cur = s.cur ∧
    (State.stretch t s).thm = s.thm ∧
    (State.stretch t s).pwr = s.pwr ∧
    (State.stretch t s).out = s.out ∧
    (State.stretch t s).net = s.net ∧
    (State.stretch t s).freeCtr = s.freeCtr ∧
    (State.stretch t s).pending = s.pending := by
  unfold State.stretch
  simp

theorem State.unstretch_kept (t : Nat) (s : State) :
    (State.unstretch t s).member = s.member ∧
    (State.unstretch t s).now = s.now ∧
    (State.unstretch t s).unstored = s.unstored ∧
    (State.unstretch t s).host = s.host ∧
    (State.unstretch t s).epo = s.epo ∧
    (State.unstretch t s).cat = s.cat ∧
    (State.unstretch t s).coh = s.coh ∧
    (State.unstretch t s).lnk = s.lnk ∧
    (State.unstretch t s).rte = s.rte ∧
    (State.unstretch t s).cap = s.cap ∧
    (State.unstretch t s).cry = s.cry ∧
    (State.unstretch t s).flt = s.flt ∧
    (State.unstretch t s).anl = s.anl ∧
    (State.unstretch t s).cur = s.cur ∧
    (State.unstretch t s).thm = s.thm ∧
    (State.unstretch t s).pwr = s.pwr ∧
    (State.unstretch t s).pmc = s.pmc ∧
    (State.unstretch t s).out = s.out ∧
    (State.unstretch t s).net = s.net ∧
    (State.unstretch t s).freeCtr = s.freeCtr ∧
    (State.unstretch t s).pending = s.pending := by
  unfold State.unstretch
  simp

theorem State.opStatus_kept (t : Nat) (s : State) (e : OpStatus) :
    (State.opStatus t s e).member = s.member ∧
    (State.opStatus t s e).now = s.now ∧
    (State.opStatus t s e).unstored = s.unstored ∧
    (State.opStatus t s e).epo = s.epo ∧
    (State.opStatus t s e).coh = s.coh ∧
    (State.opStatus t s e).lnk = s.lnk ∧
    (State.opStatus t s e).rte = s.rte ∧
    (State.opStatus t s e).cap = s.cap ∧
    (State.opStatus t s e).cry = s.cry ∧
    (State.opStatus t s e).flt = s.flt ∧
    (State.opStatus t s e).cur = s.cur ∧
    (State.opStatus t s e).thm = s.thm ∧
    (State.opStatus t s e).pwr = s.pwr ∧
    (State.opStatus t s e).net = s.net ∧
    (State.opStatus t s e).freeCtr = s.freeCtr ∧
    (State.opStatus t s e).pending = s.pending := by
  have k1 := State.endOp_kept
  have k2 := State.eraseFailed_kept
  have k3 := State.programFailed_kept
  have k4 := State.stretch_kept
  unfold State.opStatus
  repeat' split
  all_goals simp [k1, k2, k3, k4, *]

theorem State.statusTaken_kept (t c k : Nat) (s : State) :
    (State.statusTaken t c k s).member = s.member ∧
    (State.statusTaken t c k s).now = s.now ∧
    (State.statusTaken t c k s).regs = s.regs ∧
    (State.statusTaken t c k s).unstored = s.unstored ∧
    (State.statusTaken t c k s).host = s.host ∧
    (State.statusTaken t c k s).cat = s.cat ∧
    (State.statusTaken t c k s).coh = s.coh ∧
    (State.statusTaken t c k s).lnk = s.lnk ∧
    (State.statusTaken t c k s).rte = s.rte ∧
    (State.statusTaken t c k s).cap = s.cap ∧
    (State.statusTaken t c k s).cry = s.cry ∧
    (State.statusTaken t c k s).flt = s.flt ∧
    (State.statusTaken t c k s).anl = s.anl ∧
    (State.statusTaken t c k s).cur = s.cur ∧
    (State.statusTaken t c k s).thm = s.thm ∧
    (State.statusTaken t c k s).pwr = s.pwr ∧
    (State.statusTaken t c k s).pmc = s.pmc ∧
    (State.statusTaken t c k s).out = s.out ∧
    (State.statusTaken t c k s).net = s.net ∧
    (State.statusTaken t c k s).freeCtr = s.freeCtr ∧
    (State.statusTaken t c k s).pending = s.pending := by
  have k1 := State.takeBack_kept
  unfold State.statusTaken
  simp [k1]

@[simp] theorem State.checkPhase_kept (t : Nat) (ends : List OpStatus) (s : State) :
    (State.checkPhase t ends s).member = s.member ∧
    (State.checkPhase t ends s).now = s.now ∧
    (State.checkPhase t ends s).unstored = s.unstored ∧
    (State.checkPhase t ends s).coh = s.coh ∧
    (State.checkPhase t ends s).lnk = s.lnk ∧
    (State.checkPhase t ends s).rte = s.rte ∧
    (State.checkPhase t ends s).cap = s.cap ∧
    (State.checkPhase t ends s).cry = s.cry ∧
    (State.checkPhase t ends s).flt = s.flt ∧
    (State.checkPhase t ends s).cur = s.cur ∧
    (State.checkPhase t ends s).thm = s.thm ∧
    (State.checkPhase t ends s).pwr = s.pwr ∧
    (State.checkPhase t ends s).net = s.net ∧
    (State.checkPhase t ends s).freeCtr = s.freeCtr ∧
    (State.checkPhase t ends s).pending = s.pending := by
  have k1 := State.opStatus_kept
  have k2 := State.statusTaken_kept
  have k3 := State.unstretch_kept
  unfold State.checkPhase
  simp [k1, k2, k3]

theorem State.failTarget_kept (t c k : Nat) (s : State) :
    (State.failTarget t c k s).member = s.member ∧
    (State.failTarget t c k s).now = s.now ∧
    (State.failTarget t c k s).unstored = s.unstored ∧
    (State.failTarget t c k s).epo = s.epo ∧
    (State.failTarget t c k s).coh = s.coh ∧
    (State.failTarget t c k s).lnk = s.lnk ∧
    (State.failTarget t c k s).rte = s.rte ∧
    (State.failTarget t c k s).cap = s.cap ∧
    (State.failTarget t c k s).cry = s.cry ∧
    (State.failTarget t c k s).flt = s.flt ∧
    (State.failTarget t c k s).cur = s.cur ∧
    (State.failTarget t c k s).thm = s.thm ∧
    (State.failTarget t c k s).pwr = s.pwr ∧
    (State.failTarget t c k s).pmc = s.pmc ∧
    (State.failTarget t c k s).net = s.net ∧
    (State.failTarget t c k s).freeCtr = s.freeCtr ∧
    (State.failTarget t c k s).pending = s.pending := by
  have k1 := State.showBlocks_kept
  unfold State.failTarget
  simp [k1]

@[simp] theorem State.expireStretch_kept (t c k block : Nat) (prog : Bool) (s : State) :
    (State.expireStretch t c k block prog s).member = s.member ∧
    (State.expireStretch t c k block prog s).now = s.now ∧
    (State.expireStretch t c k block prog s).unstored = s.unstored ∧
    (State.expireStretch t c k block prog s).coh = s.coh ∧
    (State.expireStretch t c k block prog s).lnk = s.lnk ∧
    (State.expireStretch t c k block prog s).rte = s.rte ∧
    (State.expireStretch t c k block prog s).cry = s.cry ∧
    (State.expireStretch t c k block prog s).thm = s.thm ∧
    (State.expireStretch t c k block prog s).net = s.net ∧
    (State.expireStretch t c k block prog s).pending = s.pending ∧
    (State.expireStretch t c k block prog s).pwr.straps = s.pwr.straps ∧
    (State.expireStretch t c k block prog s).cur.lifecycle = s.cur.lifecycle ∧
    (State.expireStretch t c k block prog s).cur.rootGen = s.cur.rootGen ∧
    (State.expireStretch t c k block prog s).cur.returns = s.cur.returns ∧
    (State.expireStretch t c k block prog s).cur.revoked = s.cur.revoked := by
  have k1 := State.eraseFailed_kept
  have k2 := State.failTarget_kept
  have k3 := State.programFailed_kept
  have k4 := State.unstretch_kept
  unfold State.expireStretch
  dsimp only
  repeat' split
  all_goals simp [k1, k2, k3, k4]

@[simp] theorem State.setLineRead_kept (line : Nat) (v : Option LineRead) (s : State) :
    (State.setLineRead line v s).member = s.member ∧
    (State.setLineRead line v s).now = s.now ∧
    (State.setLineRead line v s).regs = s.regs ∧
    (State.setLineRead line v s).unstored = s.unstored ∧
    (State.setLineRead line v s).host = s.host ∧
    (State.setLineRead line v s).epo = s.epo ∧
    (State.setLineRead line v s).cat = s.cat ∧
    (State.setLineRead line v s).coh = s.coh ∧
    (State.setLineRead line v s).lnk = s.lnk ∧
    (State.setLineRead line v s).rte = s.rte ∧
    (State.setLineRead line v s).cap = s.cap ∧
    (State.setLineRead line v s).cry = s.cry ∧
    (State.setLineRead line v s).flt = s.flt ∧
    (State.setLineRead line v s).anl = s.anl ∧
    (State.setLineRead line v s).cur = s.cur ∧
    (State.setLineRead line v s).thm = s.thm ∧
    (State.setLineRead line v s).pwr = s.pwr ∧
    (State.setLineRead line v s).pmc = s.pmc ∧
    (State.setLineRead line v s).out = s.out ∧
    (State.setLineRead line v s).net = s.net ∧
    (State.setLineRead line v s).freeCtr = s.freeCtr ∧
    (State.setLineRead line v s).pending = s.pending := by
  unfold State.setLineRead
  simp

theorem State.ask_kept (t spn line : Nat) (k : WindowKind) (offs : List Byte) (c : Nat) (s : State) :
    (State.ask t spn line k offs c s).member = s.member ∧
    (State.ask t spn line k offs c s).now = s.now ∧
    (State.ask t spn line k offs c s).regs = s.regs ∧
    (State.ask t spn line k offs c s).unstored = s.unstored ∧
    (State.ask t spn line k offs c s).host = s.host ∧
    (State.ask t spn line k offs c s).epo = s.epo ∧
    (State.ask t spn line k offs c s).cat = s.cat ∧
    (State.ask t spn line k offs c s).coh = s.coh ∧
    (State.ask t spn line k offs c s).lnk = s.lnk ∧
    (State.ask t spn line k offs c s).rte = s.rte ∧
    (State.ask t spn line k offs c s).cap = s.cap ∧
    (State.ask t spn line k offs c s).cry = s.cry ∧
    (State.ask t spn line k offs c s).flt = s.flt ∧
    (State.ask t spn line k offs c s).anl = s.anl ∧
    (State.ask t spn line k offs c s).cur = s.cur ∧
    (State.ask t spn line k offs c s).thm = s.thm ∧
    (State.ask t spn line k offs c s).pwr = s.pwr ∧
    (State.ask t spn line k offs c s).pmc = s.pmc ∧
    (State.ask t spn line k offs c s).out = s.out ∧
    (State.ask t spn line k offs c s).net = s.net ∧
    (State.ask t spn line k offs c s).freeCtr = s.freeCtr ∧
    (State.ask t spn line k offs c s).pending = s.pending := by
  have k1 := State.wantCal_kept
  unfold State.ask
  simp [k1]

theorem State.hold_kept (t line c : Nat) (s : State) :
    (State.hold t line c s).member = s.member ∧
    (State.hold t line c s).now = s.now ∧
    (State.hold t line c s).regs = s.regs ∧
    (State.hold t line c s).unstored = s.unstored ∧
    (State.hold t line c s).host = s.host ∧
    (State.hold t line c s).epo = s.epo ∧
    (State.hold t line c s).cat = s.cat ∧
    (State.hold t line c s).coh = s.coh ∧
    (State.hold t line c s).lnk = s.lnk ∧
    (State.hold t line c s).rte = s.rte ∧
    (State.hold t line c s).cap = s.cap ∧
    (State.hold t line c s).cry = s.cry ∧
    (State.hold t line c s).flt = s.flt ∧
    (State.hold t line c s).anl = s.anl ∧
    (State.hold t line c s).cur = s.cur ∧
    (State.hold t line c s).thm = s.thm ∧
    (State.hold t line c s).pwr = s.pwr ∧
    (State.hold t line c s).pmc = s.pmc ∧
    (State.hold t line c s).out = s.out ∧
    (State.hold t line c s).net = s.net ∧
    (State.hold t line c s).freeCtr = s.freeCtr ∧
    (State.hold t line c s).pending = s.pending := by
  unfold State.hold
  simp

@[simp] theorem State.unhold_kept (t line : Nat) (s : State) :
    (State.unhold t line s).member = s.member ∧
    (State.unhold t line s).now = s.now ∧
    (State.unhold t line s).regs = s.regs ∧
    (State.unhold t line s).unstored = s.unstored ∧
    (State.unhold t line s).host = s.host ∧
    (State.unhold t line s).epo = s.epo ∧
    (State.unhold t line s).cat = s.cat ∧
    (State.unhold t line s).coh = s.coh ∧
    (State.unhold t line s).lnk = s.lnk ∧
    (State.unhold t line s).rte = s.rte ∧
    (State.unhold t line s).cap = s.cap ∧
    (State.unhold t line s).cry = s.cry ∧
    (State.unhold t line s).flt = s.flt ∧
    (State.unhold t line s).anl = s.anl ∧
    (State.unhold t line s).cur = s.cur ∧
    (State.unhold t line s).thm = s.thm ∧
    (State.unhold t line s).pwr = s.pwr ∧
    (State.unhold t line s).pmc = s.pmc ∧
    (State.unhold t line s).out = s.out ∧
    (State.unhold t line s).net = s.net ∧
    (State.unhold t line s).freeCtr = s.freeCtr ∧
    (State.unhold t line s).pending = s.pending := by
  unfold State.unhold
  simp

theorem State.endLost_kept (t line n : Nat) (s : State) :
    (State.endLost t line n s).member = s.member ∧
    (State.endLost t line n s).now = s.now ∧
    (State.endLost t line n s).unstored = s.unstored ∧
    (State.endLost t line n s).host = s.host ∧
    (State.endLost t line n s).epo = s.epo ∧
    (State.endLost t line n s).cat = s.cat ∧
    (State.endLost t line n s).coh = s.coh ∧
    (State.endLost t line n s).lnk = s.lnk ∧
    (State.endLost t line n s).rte = s.rte ∧
    (State.endLost t line n s).cap = s.cap ∧
    (State.endLost t line n s).cry = s.cry ∧
    (State.endLost t line n s).flt = s.flt ∧
    (State.endLost t line n s).cur = s.cur ∧
    (State.endLost t line n s).thm = s.thm ∧
    (State.endLost t line n s).pwr = s.pwr ∧
    (State.endLost t line n s).pmc = s.pmc ∧
    (State.endLost t line n s).out = s.out ∧
    (State.endLost t line n s).net = s.net ∧
    (State.endLost t line n s).freeCtr = s.freeCtr ∧
    (State.endLost t line n s).pending = s.pending := by
  have k1 := State.mediaLost_kept
  unfold State.endLost
  simp [k1]

theorem State.beginRead_kept (t spn line : Nat) (r : LineRead) (s : State) :
    (State.beginRead t spn line r s).member = s.member ∧
    (State.beginRead t spn line r s).now = s.now ∧
    (State.beginRead t spn line r s).regs = s.regs ∧
    (State.beginRead t spn line r s).unstored = s.unstored ∧
    (State.beginRead t spn line r s).host = s.host ∧
    (State.beginRead t spn line r s).epo = s.epo ∧
    (State.beginRead t spn line r s).cat = s.cat ∧
    (State.beginRead t spn line r s).coh = s.coh ∧
    (State.beginRead t spn line r s).lnk = s.lnk ∧
    (State.beginRead t spn line r s).rte = s.rte ∧
    (State.beginRead t spn line r s).cap = s.cap ∧
    (State.beginRead t spn line r s).cry = s.cry ∧
    (State.beginRead t spn line r s).flt = s.flt ∧
    (State.beginRead t spn line r s).anl = s.anl ∧
    (State.beginRead t spn line r s).cur = s.cur ∧
    (State.beginRead t spn line r s).thm = s.thm ∧
    (State.beginRead t spn line r s).pwr = s.pwr ∧
    (State.beginRead t spn line r s).pmc = s.pmc ∧
    (State.beginRead t spn line r s).out = s.out ∧
    (State.beginRead t spn line r s).net = s.net ∧
    (State.beginRead t spn line r s).freeCtr = s.freeCtr ∧
    (State.beginRead t spn line r s).pending = s.pending := by
  have k1 := State.ask_kept
  unfold State.beginRead
  simp [k1]

@[simp] theorem State.dispatch_kept (t line : Nat) (s : State) :
    (State.dispatch t line s).member = s.member ∧
    (State.dispatch t line s).now = s.now ∧
    (State.dispatch t line s).unstored = s.unstored ∧
    (State.dispatch t line s).host = s.host ∧
    (State.dispatch t line s).lnk = s.lnk ∧
    (State.dispatch t line s).rte = s.rte ∧
    (State.dispatch t line s).cur = s.cur ∧
    (State.dispatch t line s).thm = s.thm ∧
    (State.dispatch t line s).pwr = s.pwr ∧
    (State.dispatch t line s).pending = s.pending := by
  have k1 := State.beginRead_kept
  have k2 := State.endLost_kept
  have k3 := State.hold_kept
  unfold State.dispatch
  dsimp only
  repeat' split
  all_goals simp [k1, k2, k3]

theorem State.checkDirect_kept (t line : Nat) (kidOk tagOk : Bool) (s : State) :
    (State.checkDirect t line kidOk tagOk s).member = s.member ∧
    (State.checkDirect t line kidOk tagOk s).now = s.now ∧
    (State.checkDirect t line kidOk tagOk s).unstored = s.unstored ∧
    (State.checkDirect t line kidOk tagOk s).epo = s.epo ∧
    (State.checkDirect t line kidOk tagOk s).cat = s.cat ∧
    (State.checkDirect t line kidOk tagOk s).med = s.med ∧
    (State.checkDirect t line kidOk tagOk s).coh = s.coh ∧
    (State.checkDirect t line kidOk tagOk s).rte = s.rte ∧
    (State.checkDirect t line kidOk tagOk s).cap = s.cap ∧
    (State.checkDirect t line kidOk tagOk s).cur = s.cur ∧
    (State.checkDirect t line kidOk tagOk s).thm = s.thm ∧
    (State.checkDirect t line kidOk tagOk s).pwr = s.pwr ∧
    (State.checkDirect t line kidOk tagOk s).pmc = s.pmc ∧
    (State.checkDirect t line kidOk tagOk s).net = s.net ∧
    (State.checkDirect t line kidOk tagOk s).freeCtr = s.freeCtr ∧
    (State.checkDirect t line kidOk tagOk s).pending = s.pending := by
  unfold State.checkDirect
  simp

theorem State.checkRebuilt_kept (t line n : Nat) (kidOk tagOk : Bool) (s : State) :
    (State.checkRebuilt t line n kidOk tagOk s).member = s.member ∧
    (State.checkRebuilt t line n kidOk tagOk s).now = s.now ∧
    (State.checkRebuilt t line n kidOk tagOk s).unstored = s.unstored ∧
    (State.checkRebuilt t line n kidOk tagOk s).cat = s.cat ∧
    (State.checkRebuilt t line n kidOk tagOk s).coh = s.coh ∧
    (State.checkRebuilt t line n kidOk tagOk s).lnk = s.lnk ∧
    (State.checkRebuilt t line n kidOk tagOk s).rte = s.rte ∧
    (State.checkRebuilt t line n kidOk tagOk s).cry = s.cry ∧
    (State.checkRebuilt t line n kidOk tagOk s).thm = s.thm ∧
    (State.checkRebuilt t line n kidOk tagOk s).net = s.net ∧
    (State.checkRebuilt t line n kidOk tagOk s).pending = s.pending ∧
    (State.checkRebuilt t line n kidOk tagOk s).pwr.straps = s.pwr.straps ∧
    (State.checkRebuilt t line n kidOk tagOk s).cur.lifecycle = s.cur.lifecycle ∧
    (State.checkRebuilt t line n kidOk tagOk s).cur.rootGen = s.cur.rootGen ∧
    (State.checkRebuilt t line n kidOk tagOk s).cur.returns = s.cur.returns ∧
    (State.checkRebuilt t line n kidOk tagOk s).cur.revoked = s.cur.revoked := by
  have k1 := State.endLost_kept
  unfold State.checkRebuilt
  dsimp only
  repeat' split
  all_goals simp [k1]

theorem State.settleRead_kept (t line : Nat) (kidOk tagOk : Bool) (r : LineRead) (s : State) :
    (State.settleRead t line kidOk tagOk r s).member = s.member ∧
    (State.settleRead t line kidOk tagOk r s).now = s.now ∧
    (State.settleRead t line kidOk tagOk r s).unstored = s.unstored ∧
    (State.settleRead t line kidOk tagOk r s).cat = s.cat ∧
    (State.settleRead t line kidOk tagOk r s).coh = s.coh ∧
    (State.settleRead t line kidOk tagOk r s).lnk = s.lnk ∧
    (State.settleRead t line kidOk tagOk r s).rte = s.rte ∧
    (State.settleRead t line kidOk tagOk r s).cry = s.cry ∧
    (State.settleRead t line kidOk tagOk r s).thm = s.thm ∧
    (State.settleRead t line kidOk tagOk r s).net = s.net ∧
    (State.settleRead t line kidOk tagOk r s).pending = s.pending ∧
    (State.settleRead t line kidOk tagOk r s).pwr.straps = s.pwr.straps ∧
    (State.settleRead t line kidOk tagOk r s).cur.lifecycle = s.cur.lifecycle ∧
    (State.settleRead t line kidOk tagOk r s).cur.rootGen = s.cur.rootGen ∧
    (State.settleRead t line kidOk tagOk r s).cur.returns = s.cur.returns ∧
    (State.settleRead t line kidOk tagOk r s).cur.revoked = s.cur.revoked := by
  have k1 := State.checkRebuilt_kept
  have k2 := State.endLost_kept
  unfold State.settleRead
  dsimp only
  repeat' split
  all_goals simp [k1, k2]

@[simp] theorem State.decoded_kept (t line c : Nat) (ecc : Ecc) (kidOk tagOk : Bool) (s : State) :
    (State.decoded t line c ecc kidOk tagOk s).member = s.member ∧
    (State.decoded t line c ecc kidOk tagOk s).now = s.now ∧
    (State.decoded t line c ecc kidOk tagOk s).unstored = s.unstored ∧
    (State.decoded t line c ecc kidOk tagOk s).rte = s.rte ∧
    (State.decoded t line c ecc kidOk tagOk s).thm = s.thm ∧
    (State.decoded t line c ecc kidOk tagOk s).pending = s.pending ∧
    (State.decoded t line c ecc kidOk tagOk s).pwr.straps = s.pwr.straps ∧
    (State.decoded t line c ecc kidOk tagOk s).cur.lifecycle = s.cur.lifecycle ∧
    (State.decoded t line c ecc kidOk tagOk s).cur.rootGen = s.cur.rootGen ∧
    (State.decoded t line c ecc kidOk tagOk s).cur.returns = s.cur.returns ∧
    (State.decoded t line c ecc kidOk tagOk s).cur.revoked = s.cur.revoked := by
  have k1 := State.ask_kept
  have k2 := State.checkDirect_kept
  have k3 := State.countWindow_kept
  have k4 := State.settleRead_kept
  unfold State.decoded
  dsimp only
  repeat' split
  all_goals simp [k1, k2, k3, k4]

theorem State.scheduleCritical_kept (t : Nat) (s : State) :
    (State.scheduleCritical t s).member = s.member ∧
    (State.scheduleCritical t s).now = s.now ∧
    (State.scheduleCritical t s).regs = s.regs ∧
    (State.scheduleCritical t s).unstored = s.unstored ∧
    (State.scheduleCritical t s).host = s.host ∧
    (State.scheduleCritical t s).epo = s.epo ∧
    (State.scheduleCritical t s).med = s.med ∧
    (State.scheduleCritical t s).coh = s.coh ∧
    (State.scheduleCritical t s).lnk = s.lnk ∧
    (State.scheduleCritical t s).rte = s.rte ∧
    (State.scheduleCritical t s).cap = s.cap ∧
    (State.scheduleCritical t s).cry = s.cry ∧
    (State.scheduleCritical t s).flt = s.flt ∧
    (State.scheduleCritical t s).anl = s.anl ∧
    (State.scheduleCritical t s).cur = s.cur ∧
    (State.scheduleCritical t s).thm = s.thm ∧
    (State.scheduleCritical t s).pwr = s.pwr ∧
    (State.scheduleCritical t s).pmc = s.pmc ∧
    (State.scheduleCritical t s).out = s.out ∧
    (State.scheduleCritical t s).net = s.net ∧
    (State.scheduleCritical t s).freeCtr = s.freeCtr ∧
    (State.scheduleCritical t s).pending = s.pending := by
  unfold State.scheduleCritical
  simp

@[simp] theorem State.pollMedia_kept (t c k : Nat) (e : Int) (s : State) :
    (State.pollMedia t c k e s).member = s.member ∧
    (State.pollMedia t c k e s).now = s.now ∧
    (State.pollMedia t c k e s).unstored = s.unstored ∧
    (State.pollMedia t c k e s).freeCtr = s.freeCtr ∧
    (State.pollMedia t c k e s).pending = s.pending ∧
    (State.pollMedia t c k e s).pwr.straps = s.pwr.straps ∧
    (State.pollMedia t c k e s).cur.lifecycle = s.cur.lifecycle ∧
    (State.pollMedia t c k e s).cur.rootGen = s.cur.rootGen ∧
    (State.pollMedia t c k e s).cur.returns = s.cur.returns ∧
    (State.pollMedia t c k e s).cur.revoked = s.cur.revoked := by
  have k1 := State.scheduleCritical_kept
  have k2 := State.takeBack_kept
  unfold State.pollMedia
  dsimp only
  repeat' split
  all_goals simp [k1, k2]

@[simp] theorem State.mediaAlert_kept (t c k : Nat) (crc thermal : Bool) (s : State) :
    (State.mediaAlert t c k crc thermal s).member = s.member ∧
    (State.mediaAlert t c k crc thermal s).now = s.now ∧
    (State.mediaAlert t c k crc thermal s).unstored = s.unstored ∧
    (State.mediaAlert t c k crc thermal s).pending = s.pending ∧
    (State.mediaAlert t c k crc thermal s).pwr.straps = s.pwr.straps ∧
    (State.mediaAlert t c k crc thermal s).cur.lifecycle = s.cur.lifecycle ∧
    (State.mediaAlert t c k crc thermal s).cur.rootGen = s.cur.rootGen ∧
    (State.mediaAlert t c k crc thermal s).cur.returns = s.cur.returns ∧
    (State.mediaAlert t c k crc thermal s).cur.revoked = s.cur.revoked := by
  unfold State.mediaAlert
  dsimp only
  repeat' split
  all_goals simp

theorem State.calReads_kept (t c m : Nat) (l : List Nat) (s : State) :
    (State.calReads t c m l s).member = s.member ∧
    (State.calReads t c m l s).now = s.now ∧
    (State.calReads t c m l s).regs = s.regs ∧
    (State.calReads t c m l s).unstored = s.unstored ∧
    (State.calReads t c m l s).host = s.host ∧
    (State.calReads t c m l s).epo = s.epo ∧
    (State.calReads t c m l s).cat = s.cat ∧
    (State.calReads t c m l s).coh = s.coh ∧
    (State.calReads t c m l s).lnk = s.lnk ∧
    (State.calReads t c m l s).rte = s.rte ∧
    (State.calReads t c m l s).cap = s.cap ∧
    (State.calReads t c m l s).cry = s.cry ∧
    (State.calReads t c m l s).flt = s.flt ∧
    (State.calReads t c m l s).anl = s.anl ∧
    (State.calReads t c m l s).cur = s.cur ∧
    (State.calReads t c m l s).thm = s.thm ∧
    (State.calReads t c m l s).pwr = s.pwr ∧
    (State.calReads t c m l s).pmc = s.pmc ∧
    (State.calReads t c m l s).net = s.net ∧
    (State.calReads t c m l s).freeCtr = s.freeCtr ∧
    (State.calReads t c m l s).pending = s.pending := by
  have k1 := State.startSense_kept
  unfold State.calReads
  simp [k1]

theorem State.calSenses_kept (t c m n : Nat) (s : State) :
    (State.calSenses t c m n s).member = s.member ∧
    (State.calSenses t c m n s).now = s.now ∧
    (State.calSenses t c m n s).regs = s.regs ∧
    (State.calSenses t c m n s).unstored = s.unstored ∧
    (State.calSenses t c m n s).host = s.host ∧
    (State.calSenses t c m n s).epo = s.epo ∧
    (State.calSenses t c m n s).coh = s.coh ∧
    (State.calSenses t c m n s).lnk = s.lnk ∧
    (State.calSenses t c m n s).rte = s.rte ∧
    (State.calSenses t c m n s).cap = s.cap ∧
    (State.calSenses t c m n s).cry = s.cry ∧
    (State.calSenses t c m n s).flt = s.flt ∧
    (State.calSenses t c m n s).anl = s.anl ∧
    (State.calSenses t c m n s).cur = s.cur ∧
    (State.calSenses t c m n s).thm = s.thm ∧
    (State.calSenses t c m n s).pwr = s.pwr ∧
    (State.calSenses t c m n s).pmc = s.pmc ∧
    (State.calSenses t c m n s).out = s.out ∧
    (State.calSenses t c m n s).net = s.net ∧
    (State.calSenses t c m n s).freeCtr = s.freeCtr ∧
    (State.calSenses t c m n s).pending = s.pending := by
  have k1 := State.countSenses_kept
  unfold State.calSenses
  dsimp only
  repeat' split
  all_goals simp [k1]

theorem State.calTaken_kept (t c m : Nat) (s : State) :
    (State.calTaken t c m s).member = s.member ∧
    (State.calTaken t c m s).now = s.now ∧
    (State.calTaken t c m s).regs = s.regs ∧
    (State.calTaken t c m s).unstored = s.unstored ∧
    (State.calTaken t c m s).host = s.host ∧
    (State.calTaken t c m s).cat = s.cat ∧
    (State.calTaken t c m s).coh = s.coh ∧
    (State.calTaken t c m s).lnk = s.lnk ∧
    (State.calTaken t c m s).rte = s.rte ∧
    (State.calTaken t c m s).cap = s.cap ∧
    (State.calTaken t c m s).cry = s.cry ∧
    (State.calTaken t c m s).flt = s.flt ∧
    (State.calTaken t c m s).anl = s.anl ∧
    (State.calTaken t c m s).cur = s.cur ∧
    (State.calTaken t c m s).thm = s.thm ∧
    (State.calTaken t c m s).pwr = s.pwr ∧
    (State.calTaken t c m s).pmc = s.pmc ∧
    (State.calTaken t c m s).out = s.out ∧
    (State.calTaken t c m s).net = s.net ∧
    (State.calTaken t c m s).freeCtr = s.freeCtr ∧
    (State.calTaken t c m s).pending = s.pending := by
  unfold State.calTaken
  simp

@[simp] theorem State.calibrate_kept (t c m : Nat) (l : List (Nat × Nat)) (s : State) :
    (State.calibrate t c m l s).member = s.member ∧
    (State.calibrate t c m l s).now = s.now ∧
    (State.calibrate t c m l s).unstored = s.unstored ∧
    (State.calibrate t c m l s).host = s.host ∧
    (State.calibrate t c m l s).coh = s.coh ∧
    (State.calibrate t c m l s).lnk = s.lnk ∧
    (State.calibrate t c m l s).rte = s.rte ∧
    (State.calibrate t c m l s).cap = s.cap ∧
    (State.calibrate t c m l s).cry = s.cry ∧
    (State.calibrate t c m l s).flt = s.flt ∧
    (State.calibrate t c m l s).anl = s.anl ∧
    (State.calibrate t c m l s).cur = s.cur ∧
    (State.calibrate t c m l s).thm = s.thm ∧
    (State.calibrate t c m l s).pwr = s.pwr ∧
    (State.calibrate t c m l s).pmc = s.pmc ∧
    (State.calibrate t c m l s).net = s.net ∧
    (State.calibrate t c m l s).freeCtr = s.freeCtr ∧
    (State.calibrate t c m l s).pending = s.pending := by
  have k1 := State.calReads_kept
  have k2 := State.calSenses_kept
  have k3 := State.calTaken_kept
  unfold State.calibrate
  dsimp only
  repeat' split
  all_goals simp [k1, k2, k3]

theorem State.scrubRebuild_kept (t c : Nat) (w : BackWin) (s : State) :
    (State.scrubRebuild t c w s).member = s.member ∧
    (State.scrubRebuild t c w s).now = s.now ∧
    (State.scrubRebuild t c w s).regs = s.regs ∧
    (State.scrubRebuild t c w s).unstored = s.unstored ∧
    (State.scrubRebuild t c w s).host = s.host ∧
    (State.scrubRebuild t c w s).epo = s.epo ∧
    (State.scrubRebuild t c w s).cat = s.cat ∧
    (State.scrubRebuild t c w s).coh = s.coh ∧
    (State.scrubRebuild t c w s).lnk = s.lnk ∧
    (State.scrubRebuild t c w s).rte = s.rte ∧
    (State.scrubRebuild t c w s).cap = s.cap ∧
    (State.scrubRebuild t c w s).cry = s.cry ∧
    (State.scrubRebuild t c w s).flt = s.flt ∧
    (State.scrubRebuild t c w s).anl = s.anl ∧
    (State.scrubRebuild t c w s).cur = s.cur ∧
    (State.scrubRebuild t c w s).thm = s.thm ∧
    (State.scrubRebuild t c w s).pwr = s.pwr ∧
    (State.scrubRebuild t c w s).pmc = s.pmc ∧
    (State.scrubRebuild t c w s).out = s.out ∧
    (State.scrubRebuild t c w s).net = s.net ∧
    (State.scrubRebuild t c w s).freeCtr = s.freeCtr ∧
    (State.scrubRebuild t c w s).pending = s.pending := by
  unfold State.scrubRebuild
  simp

theorem State.scrubBits_kept (t c b n : Nat) (s : State) :
    (State.scrubBits t c b n s).member = s.member ∧
    (State.scrubBits t c b n s).now = s.now ∧
    (State.scrubBits t c b n s).regs = s.regs ∧
    (State.scrubBits t c b n s).unstored = s.unstored ∧
    (State.scrubBits t c b n s).host = s.host ∧
    (State.scrubBits t c b n s).epo = s.epo ∧
    (State.scrubBits t c b n s).coh = s.coh ∧
    (State.scrubBits t c b n s).lnk = s.lnk ∧
    (State.scrubBits t c b n s).rte = s.rte ∧
    (State.scrubBits t c b n s).cap = s.cap ∧
    (State.scrubBits t c b n s).cry = s.cry ∧
    (State.scrubBits t c b n s).flt = s.flt ∧
    (State.scrubBits t c b n s).anl = s.anl ∧
    (State.scrubBits t c b n s).cur = s.cur ∧
    (State.scrubBits t c b n s).thm = s.thm ∧
    (State.scrubBits t c b n s).pwr = s.pwr ∧
    (State.scrubBits t c b n s).pmc = s.pmc ∧
    (State.scrubBits t c b n s).out = s.out ∧
    (State.scrubBits t c b n s).net = s.net ∧
    (State.scrubBits t c b n s).freeCtr = s.freeCtr ∧
    (State.scrubBits t c b n s).pending = s.pending := by
  unfold State.scrubBits
  simp

@[simp] theorem State.scrubRead_kept (t c m spn : Nat) (ecc : Ecc) (forged : Option (Nat × Nat)) (s : State) :
    (State.scrubRead t c m spn ecc forged s).member = s.member ∧
    (State.scrubRead t c m spn ecc forged s).now = s.now ∧
    (State.scrubRead t c m spn ecc forged s).unstored = s.unstored ∧
    (State.scrubRead t c m spn ecc forged s).coh = s.coh ∧
    (State.scrubRead t c m spn ecc forged s).rte = s.rte ∧
    (State.scrubRead t c m spn ecc forged s).thm = s.thm ∧
    (State.scrubRead t c m spn ecc forged s).net = s.net ∧
    (State.scrubRead t c m spn ecc forged s).pending = s.pending ∧
    (State.scrubRead t c m spn ecc forged s).pwr.straps = s.pwr.straps ∧
    (State.scrubRead t c m spn ecc forged s).cur.lifecycle = s.cur.lifecycle ∧
    (State.scrubRead t c m spn ecc forged s).cur.rootGen = s.cur.rootGen ∧
    (State.scrubRead t c m spn ecc forged s).cur.returns = s.cur.returns ∧
    (State.scrubRead t c m spn ecc forged s).cur.revoked = s.cur.revoked := by
  have k1 := State.scrubBits_kept
  have k2 := State.scrubRebuild_kept
  have k3 := State.takeBack_kept
  unfold State.scrubRead
  dsimp only
  repeat' split
  all_goals simp [k1, k2, k3]

theorem State.sendFlit_kept (t p : Nat) (k : FlitKind) (cycle : Option Nat) (hdr : DWord) (payload : Line) (s : State) :
    (State.sendFlit t p k cycle hdr payload s).member = s.member ∧
    (State.sendFlit t p k cycle hdr payload s).now = s.now ∧
    (State.sendFlit t p k cycle hdr payload s).regs = s.regs ∧
    (State.sendFlit t p k cycle hdr payload s).unstored = s.unstored ∧
    (State.sendFlit t p k cycle hdr payload s).host = s.host ∧
    (State.sendFlit t p k cycle hdr payload s).epo = s.epo ∧
    (State.sendFlit t p k cycle hdr payload s).cat = s.cat ∧
    (State.sendFlit t p k cycle hdr payload s).med = s.med ∧
    (State.sendFlit t p k cycle hdr payload s).coh = s.coh ∧
    (State.sendFlit t p k cycle hdr payload s).rte = s.rte ∧
    (State.sendFlit t p k cycle hdr payload s).cap = s.cap ∧
    (State.sendFlit t p k cycle hdr payload s).cry = s.cry ∧
    (State.sendFlit t p k cycle hdr payload s).flt = s.flt ∧
    (State.sendFlit t p k cycle hdr payload s).anl = s.anl ∧
    (State.sendFlit t p k cycle hdr payload s).cur = s.cur ∧
    (State.sendFlit t p k cycle hdr payload s).thm = s.thm ∧
    (State.sendFlit t p k cycle hdr payload s).pwr = s.pwr ∧
    (State.sendFlit t p k cycle hdr payload s).pmc = s.pmc ∧
    (State.sendFlit t p k cycle hdr payload s).net = s.net ∧
    (State.sendFlit t p k cycle hdr payload s).freeCtr = s.freeCtr ∧
    (State.sendFlit t p k cycle hdr payload s).pending = s.pending := by
  unfold State.sendFlit
  simp

@[simp] theorem State.idleFlit_kept (t p cat : Nat) (s : State) :
    (State.idleFlit t p cat s).member = s.member ∧
    (State.idleFlit t p cat s).now = s.now ∧
    (State.idleFlit t p cat s).regs = s.regs ∧
    (State.idleFlit t p cat s).unstored = s.unstored ∧
    (State.idleFlit t p cat s).host = s.host ∧
    (State.idleFlit t p cat s).epo = s.epo ∧
    (State.idleFlit t p cat s).cat = s.cat ∧
    (State.idleFlit t p cat s).med = s.med ∧
    (State.idleFlit t p cat s).coh = s.coh ∧
    (State.idleFlit t p cat s).rte = s.rte ∧
    (State.idleFlit t p cat s).cap = s.cap ∧
    (State.idleFlit t p cat s).cry = s.cry ∧
    (State.idleFlit t p cat s).flt = s.flt ∧
    (State.idleFlit t p cat s).anl = s.anl ∧
    (State.idleFlit t p cat s).cur = s.cur ∧
    (State.idleFlit t p cat s).thm = s.thm ∧
    (State.idleFlit t p cat s).pwr = s.pwr ∧
    (State.idleFlit t p cat s).net = s.net ∧
    (State.idleFlit t p cat s).freeCtr = s.freeCtr ∧
    (State.idleFlit t p cat s).pending = s.pending := by
  have k1 := State.sendFlit_kept
  unfold State.idleFlit
  simp [k1]

theorem State.sendDataFlit_kept (t p r cycle : Nat) (start poison : Bool) (line : Line) (s : State) :
    (State.sendDataFlit t p r cycle start poison line s).member = s.member ∧
    (State.sendDataFlit t p r cycle start poison line s).now = s.now ∧
    (State.sendDataFlit t p r cycle start poison line s).regs = s.regs ∧
    (State.sendDataFlit t p r cycle start poison line s).unstored = s.unstored ∧
    (State.sendDataFlit t p r cycle start poison line s).host = s.host ∧
    (State.sendDataFlit t p r cycle start poison line s).epo = s.epo ∧
    (State.sendDataFlit t p r cycle start poison line s).cat = s.cat ∧
    (State.sendDataFlit t p r cycle start poison line s).med = s.med ∧
    (State.sendDataFlit t p r cycle start poison line s).coh = s.coh ∧
    (State.sendDataFlit t p r cycle start poison line s).rte = s.rte ∧
    (State.sendDataFlit t p r cycle start poison line s).cap = s.cap ∧
    (State.sendDataFlit t p r cycle start poison line s).cry = s.cry ∧
    (State.sendDataFlit t p r cycle start poison line s).flt = s.flt ∧
    (State.sendDataFlit t p r cycle start poison line s).anl = s.anl ∧
    (State.sendDataFlit t p r cycle start poison line s).cur = s.cur ∧
    (State.sendDataFlit t p r cycle start poison line s).thm = s.thm ∧
    (State.sendDataFlit t p r cycle start poison line s).pwr = s.pwr ∧
    (State.sendDataFlit t p r cycle start poison line s).pmc = s.pmc ∧
    (State.sendDataFlit t p r cycle start poison line s).net = s.net ∧
    (State.sendDataFlit t p r cycle start poison line s).freeCtr = s.freeCtr ∧
    (State.sendDataFlit t p r cycle start poison line s).pending = s.pending := by
  have k1 := State.sendFlit_kept
  unfold State.sendDataFlit
  simp [k1]

theorem State.padTo_kept (t p cycle : Nat) (s : State) :
    (State.padTo t p cycle s).member = s.member ∧
    (State.padTo t p cycle s).now = s.now ∧
    (State.padTo t p cycle s).regs = s.regs ∧
    (State.padTo t p cycle s).unstored = s.unstored ∧
    (State.padTo t p cycle s).host = s.host ∧
    (State.padTo t p cycle s).epo = s.epo ∧
    (State.padTo t p cycle s).cat = s.cat ∧
    (State.padTo t p cycle s).med = s.med ∧
    (State.padTo t p cycle s).coh = s.coh ∧
    (State.padTo t p cycle s).rte = s.rte ∧
    (State.padTo t p cycle s).cap = s.cap ∧
    (State.padTo t p cycle s).cry = s.cry ∧
    (State.padTo t p cycle s).flt = s.flt ∧
    (State.padTo t p cycle s).anl = s.anl ∧
    (State.padTo t p cycle s).cur = s.cur ∧
    (State.padTo t p cycle s).thm = s.thm ∧
    (State.padTo t p cycle s).pwr = s.pwr ∧
    (State.padTo t p cycle s).net = s.net ∧
    (State.padTo t p cycle s).freeCtr = s.freeCtr ∧
    (State.padTo t p cycle s).pending = s.pending := by
  have k1 := State.pmcEdges_kept
  unfold State.padTo
  simp [k1]

theorem State.putCtrl_kept (t p sub : Nat) (payload : Line) (s : State) :
    (State.putCtrl t p sub payload s).member = s.member ∧
    (State.putCtrl t p sub payload s).now = s.now ∧
    (State.putCtrl t p sub payload s).regs = s.regs ∧
    (State.putCtrl t p sub payload s).unstored = s.unstored ∧
    (State.putCtrl t p sub payload s).host = s.host ∧
    (State.putCtrl t p sub payload s).epo = s.epo ∧
    (State.putCtrl t p sub payload s).cat = s.cat ∧
    (State.putCtrl t p sub payload s).med = s.med ∧
    (State.putCtrl t p sub payload s).coh = s.coh ∧
    (State.putCtrl t p sub payload s).rte = s.rte ∧
    (State.putCtrl t p sub payload s).cap = s.cap ∧
    (State.putCtrl t p sub payload s).cry = s.cry ∧
    (State.putCtrl t p sub payload s).flt = s.flt ∧
    (State.putCtrl t p sub payload s).anl = s.anl ∧
    (State.putCtrl t p sub payload s).cur = s.cur ∧
    (State.putCtrl t p sub payload s).thm = s.thm ∧
    (State.putCtrl t p sub payload s).pwr = s.pwr ∧
    (State.putCtrl t p sub payload s).pmc = s.pmc ∧
    (State.putCtrl t p sub payload s).net = s.net ∧
    (State.putCtrl t p sub payload s).freeCtr = s.freeCtr ∧
    (State.putCtrl t p sub payload s).pending = s.pending := by
  have k1 := State.sendFlit_kept
  unfold State.putCtrl
  simp [k1]

theorem State.spendCtrl_kept (t p sub : Nat) (payload : Line) (s : State) :
    (State.spendCtrl t p sub payload s).member = s.member ∧
    (State.spendCtrl t p sub payload s).now = s.now ∧
    (State.spendCtrl t p sub payload s).regs = s.regs ∧
    (State.spendCtrl t p sub payload s).unstored = s.unstored ∧
    (State.spendCtrl t p sub payload s).host = s.host ∧
    (State.spendCtrl t p sub payload s).epo = s.epo ∧
    (State.spendCtrl t p sub payload s).cat = s.cat ∧
    (State.spendCtrl t p sub payload s).med = s.med ∧
    (State.spendCtrl t p sub payload s).coh = s.coh ∧
    (State.spendCtrl t p sub payload s).rte = s.rte ∧
    (State.spendCtrl t p sub payload s).cap = s.cap ∧
    (State.spendCtrl t p sub payload s).cry = s.cry ∧
    (State.spendCtrl t p sub payload s).flt = s.flt ∧
    (State.spendCtrl t p sub payload s).anl = s.anl ∧
    (State.spendCtrl t p sub payload s).cur = s.cur ∧
    (State.spendCtrl t p sub payload s).thm = s.thm ∧
    (State.spendCtrl t p sub payload s).pwr = s.pwr ∧
    (State.spendCtrl t p sub payload s).pmc = s.pmc ∧
    (State.spendCtrl t p sub payload s).net = s.net ∧
    (State.spendCtrl t p sub payload s).freeCtr = s.freeCtr ∧
    (State.spendCtrl t p sub payload s).pending = s.pending := by
  have k1 := State.putCtrl_kept
  unfold State.spendCtrl
  simp [k1]

@[simp] theorem State.sendCtrl_kept (t p sub : Nat) (payload : Line) (s : State) :
    (State.sendCtrl t p sub payload s).member = s.member ∧
    (State.sendCtrl t p sub payload s).now = s.now ∧
    (State.sendCtrl t p sub payload s).regs = s.regs ∧
    (State.sendCtrl t p sub payload s).unstored = s.unstored ∧
    (State.sendCtrl t p sub payload s).host = s.host ∧
    (State.sendCtrl t p sub payload s).epo = s.epo ∧
    (State.sendCtrl t p sub payload s).cat = s.cat ∧
    (State.sendCtrl t p sub payload s).med = s.med ∧
    (State.sendCtrl t p sub payload s).coh = s.coh ∧
    (State.sendCtrl t p sub payload s).rte = s.rte ∧
    (State.sendCtrl t p sub payload s).cap = s.cap ∧
    (State.sendCtrl t p sub payload s).cry = s.cry ∧
    (State.sendCtrl t p sub payload s).flt = s.flt ∧
    (State.sendCtrl t p sub payload s).anl = s.anl ∧
    (State.sendCtrl t p sub payload s).cur = s.cur ∧
    (State.sendCtrl t p sub payload s).thm = s.thm ∧
    (State.sendCtrl t p sub payload s).pwr = s.pwr ∧
    (State.sendCtrl t p sub payload s).net = s.net ∧
    (State.sendCtrl t p sub payload s).freeCtr = s.freeCtr ∧
    (State.sendCtrl t p sub payload s).pending = s.pending := by
  have k1 := State.spendCtrl_kept
  unfold State.sendCtrl
  simp [k1]

theorem State.nextCtrl_kept (t p : Nat) (s : State) :
    (State.nextCtrl t p s).member = s.member ∧
    (State.nextCtrl t p s).now = s.now ∧
    (State.nextCtrl t p s).regs = s.regs ∧
    (State.nextCtrl t p s).unstored = s.unstored ∧
    (State.nextCtrl t p s).host = s.host ∧
    (State.nextCtrl t p s).epo = s.epo ∧
    (State.nextCtrl t p s).cat = s.cat ∧
    (State.nextCtrl t p s).med = s.med ∧
    (State.nextCtrl t p s).coh = s.coh ∧
    (State.nextCtrl t p s).rte = s.rte ∧
    (State.nextCtrl t p s).cap = s.cap ∧
    (State.nextCtrl t p s).cry = s.cry ∧
    (State.nextCtrl t p s).flt = s.flt ∧
    (State.nextCtrl t p s).anl = s.anl ∧
    (State.nextCtrl t p s).cur = s.cur ∧
    (State.nextCtrl t p s).thm = s.thm ∧
    (State.nextCtrl t p s).pwr = s.pwr ∧
    (State.nextCtrl t p s).net = s.net ∧
    (State.nextCtrl t p s).freeCtr = s.freeCtr ∧
    (State.nextCtrl t p s).pending = s.pending := by
  have k1 := State.spendCtrl_kept
  unfold State.nextCtrl
  dsimp only
  repeat' split
  all_goals simp [k1]

theorem State.drainCtrl_kept (t p n : Nat) (s : State) :
    (State.drainCtrl t p n s).member = s.member ∧
    (State.drainCtrl t p n s).now = s.now ∧
    (State.drainCtrl t p n s).regs = s.regs ∧
    (State.drainCtrl t p n s).unstored = s.unstored ∧
    (State.drainCtrl t p n s).host = s.host ∧
    (State.drainCtrl t p n s).epo = s.epo ∧
    (State.drainCtrl t p n s).cat = s.cat ∧
    (State.drainCtrl t p n s).med = s.med ∧
    (State.drainCtrl t p n s).coh = s.coh ∧
    (State.drainCtrl t p n s).rte = s.rte ∧
    (State.drainCtrl t p n s).cap = s.cap ∧
    (State.drainCtrl t p n s).cry = s.cry ∧
    (State.drainCtrl t p n s).flt = s.flt ∧
    (State.drainCtrl t p n s).anl = s.anl ∧
    (State.drainCtrl t p n s).cur = s.cur ∧
    (State.drainCtrl t p n s).thm = s.thm ∧
    (State.drainCtrl t p n s).pwr = s.pwr ∧
    (State.drainCtrl t p n s).net = s.net ∧
    (State.drainCtrl t p n s).freeCtr = s.freeCtr ∧
    (State.drainCtrl t p n s).pending = s.pending := by
  have k1 := State.nextCtrl_kept
  induction n generalizing s with
  | zero => simp [k1, State.drainCtrl]
  | succ n ih =>
    unfold State.drainCtrl
    (try dsimp only)
    repeat' split
    all_goals simp [k1, ih]

theorem State.sendLost_kept (t p exp got : Nat) (s : State) :
    (State.sendLost t p exp got s).member = s.member ∧
    (State.sendLost t p exp got s).now = s.now ∧
    (State.sendLost t p exp got s).unstored = s.unstored ∧
    (State.sendLost t p exp got s).host = s.host ∧
    (State.sendLost t p exp got s).epo = s.epo ∧
    (State.sendLost t p exp got s).cat = s.cat ∧
    (State.sendLost t p exp got s).med = s.med ∧
    (State.sendLost t p exp got s).coh = s.coh ∧
    (State.sendLost t p exp got s).rte = s.rte ∧
    (State.sendLost t p exp got s).cap = s.cap ∧
    (State.sendLost t p exp got s).cry = s.cry ∧
    (State.sendLost t p exp got s).flt = s.flt ∧
    (State.sendLost t p exp got s).anl = s.anl ∧
    (State.sendLost t p exp got s).cur = s.cur ∧
    (State.sendLost t p exp got s).thm = s.thm ∧
    (State.sendLost t p exp got s).pwr = s.pwr ∧
    (State.sendLost t p exp got s).net = s.net ∧
    (State.sendLost t p exp got s).freeCtr = s.freeCtr ∧
    (State.sendLost t p exp got s).pending = s.pending := by
  unfold State.sendLost
  simp

@[simp] theorem State.setRoute_kept (t r : Nat) (v : Route) (s : State) :
    (State.setRoute t r v s).member = s.member ∧
    (State.setRoute t r v s).now = s.now ∧
    (State.setRoute t r v s).regs = s.regs ∧
    (State.setRoute t r v s).unstored = s.unstored ∧
    (State.setRoute t r v s).host = s.host ∧
    (State.setRoute t r v s).epo = s.epo ∧
    (State.setRoute t r v s).cat = s.cat ∧
    (State.setRoute t r v s).med = s.med ∧
    (State.setRoute t r v s).coh = s.coh ∧
    (State.setRoute t r v s).lnk = s.lnk ∧
    (State.setRoute t r v s).cap = s.cap ∧
    (State.setRoute t r v s).cry = s.cry ∧
    (State.setRoute t r v s).flt = s.flt ∧
    (State.setRoute t r v s).anl = s.anl ∧
    (State.setRoute t r v s).cur = s.cur ∧
    (State.setRoute t r v s).thm = s.thm ∧
    (State.setRoute t r v s).pwr = s.pwr ∧
    (State.setRoute t r v s).pmc = s.pmc ∧
    (State.setRoute t r v s).out = s.out ∧
    (State.setRoute t r v s).net = s.net ∧
    (State.setRoute t r v s).freeCtr = s.freeCtr ∧
    (State.setRoute t r v s).pending = s.pending := by
  unfold State.setRoute
  simp

@[simp] theorem State.setEngine_kept (t p : Nat) (v : Engine) (s : State) :
    (State.setEngine t p v s).member = s.member ∧
    (State.setEngine t p v s).now = s.now ∧
    (State.setEngine t p v s).regs = s.regs ∧
    (State.setEngine t p v s).unstored = s.unstored ∧
    (State.setEngine t p v s).host = s.host ∧
    (State.setEngine t p v s).epo = s.epo ∧
    (State.setEngine t p v s).cat = s.cat ∧
    (State.setEngine t p v s).med = s.med ∧
    (State.setEngine t p v s).coh = s.coh ∧
    (State.setEngine t p v s).lnk = s.lnk ∧
    (State.setEngine t p v s).cap = s.cap ∧
    (State.setEngine t p v s).cry = s.cry ∧
    (State.setEngine t p v s).flt = s.flt ∧
    (State.setEngine t p v s).anl = s.anl ∧
    (State.setEngine t p v s).cur = s.cur ∧
    (State.setEngine t p v s).thm = s.thm ∧
    (State.setEngine t p v s).pwr = s.pwr ∧
    (State.setEngine t p v s).pmc = s.pmc ∧
    (State.setEngine t p v s).out = s.out ∧
    (State.setEngine t p v s).net = s.net ∧
    (State.setEngine t p v s).freeCtr = s.freeCtr ∧
    (State.setEngine t p v s).pending = s.pending := by
  unfold State.setEngine
  simp

theorem State.setLanding_kept (t i : Nat) (v : Option Landing) (s : State) :
    (State.setLanding t i v s).member = s.member ∧
    (State.setLanding t i v s).now = s.now ∧
    (State.setLanding t i v s).regs = s.regs ∧
    (State.setLanding t i v s).unstored = s.unstored ∧
    (State.setLanding t i v s).host = s.host ∧
    (State.setLanding t i v s).epo = s.epo ∧
    (State.setLanding t i v s).cat = s.cat ∧
    (State.setLanding t i v s).med = s.med ∧
    (State.setLanding t i v s).coh = s.coh ∧
    (State.setLanding t i v s).lnk = s.lnk ∧
    (State.setLanding t i v s).cap = s.cap ∧
    (State.setLanding t i v s).cry = s.cry ∧
    (State.setLanding t i v s).flt = s.flt ∧
    (State.setLanding t i v s).anl = s.anl ∧
    (State.setLanding t i v s).cur = s.cur ∧
    (State.setLanding t i v s).thm = s.thm ∧
    (State.setLanding t i v s).pwr = s.pwr ∧
    (State.setLanding t i v s).pmc = s.pmc ∧
    (State.setLanding t i v s).out = s.out ∧
    (State.setLanding t i v s).net = s.net ∧
    (State.setLanding t i v s).freeCtr = s.freeCtr ∧
    (State.setLanding t i v s).pending = s.pending := by
  unfold State.setLanding
  simp

theorem State.dropLandings_kept (t r : Nat) (s : State) :
    (State.dropLandings t r s).member = s.member ∧
    (State.dropLandings t r s).now = s.now ∧
    (State.dropLandings t r s).regs = s.regs ∧
    (State.dropLandings t r s).unstored = s.unstored ∧
    (State.dropLandings t r s).host = s.host ∧
    (State.dropLandings t r s).epo = s.epo ∧
    (State.dropLandings t r s).cat = s.cat ∧
    (State.dropLandings t r s).med = s.med ∧
    (State.dropLandings t r s).coh = s.coh ∧
    (State.dropLandings t r s).lnk = s.lnk ∧
    (State.dropLandings t r s).cap = s.cap ∧
    (State.dropLandings t r s).cry = s.cry ∧
    (State.dropLandings t r s).flt = s.flt ∧
    (State.dropLandings t r s).anl = s.anl ∧
    (State.dropLandings t r s).cur = s.cur ∧
    (State.dropLandings t r s).thm = s.thm ∧
    (State.dropLandings t r s).pwr = s.pwr ∧
    (State.dropLandings t r s).pmc = s.pmc ∧
    (State.dropLandings t r s).out = s.out ∧
    (State.dropLandings t r s).net = s.net ∧
    (State.dropLandings t r s).freeCtr = s.freeCtr ∧
    (State.dropLandings t r s).pending = s.pending := by
  unfold State.dropLandings
  simp

theorem State.takeLandings_kept (t r : Nat) (d : RouteDef) (s : State) :
    (State.takeLandings t r d s).member = s.member ∧
    (State.takeLandings t r d s).now = s.now ∧
    (State.takeLandings t r d s).regs = s.regs ∧
    (State.takeLandings t r d s).unstored = s.unstored ∧
    (State.takeLandings t r d s).host = s.host ∧
    (State.takeLandings t r d s).epo = s.epo ∧
    (State.takeLandings t r d s).cat = s.cat ∧
    (State.takeLandings t r d s).med = s.med ∧
    (State.takeLandings t r d s).coh = s.coh ∧
    (State.takeLandings t r d s).lnk = s.lnk ∧
    (State.takeLandings t r d s).cap = s.cap ∧
    (State.takeLandings t r d s).cry = s.cry ∧
    (State.takeLandings t r d s).flt = s.flt ∧
    (State.takeLandings t r d s).anl = s.anl ∧
    (State.takeLandings t r d s).cur = s.cur ∧
    (State.takeLandings t r d s).thm = s.thm ∧
    (State.takeLandings t r d s).pwr = s.pwr ∧
    (State.takeLandings t r d s).pmc = s.pmc ∧
    (State.takeLandings t r d s).out = s.out ∧
    (State.takeLandings t r d s).net = s.net ∧
    (State.takeLandings t r d s).freeCtr = s.freeCtr ∧
    (State.takeLandings t r d s).pending = s.pending := by
  have k1 := State.setLanding_kept
  unfold State.takeLandings
  (try dsimp only)
  refine ⟨foldl_member _ _ ?_ _ _, foldl_now _ _ ?_ _ _, foldl_regs _ _ ?_ _ _, foldl_unstored _ _ ?_ _ _, foldl_host _ _ ?_ _ _, foldl_epo _ _ ?_ _ _, foldl_cat _ _ ?_ _ _, foldl_med _ _ ?_ _ _, foldl_coh _ _ ?_ _ _, foldl_lnk _ _ ?_ _ _, foldl_cap _ _ ?_ _ _, foldl_cry _ _ ?_ _ _, foldl_flt _ _ ?_ _ _, foldl_anl _ _ ?_ _ _, foldl_cur _ _ ?_ _ _, foldl_thm _ _ ?_ _ _, foldl_pwr _ _ ?_ _ _, foldl_pmc _ _ ?_ _ _, foldl_out _ _ ?_ _ _, foldl_net _ _ ?_ _ _, foldl_freeCtr _ _ ?_ _ _, foldl_pending _ _ ?_ _ _⟩
  all_goals
    intro s x
    (try dsimp only)
    repeat' split
    all_goals simp [k1]

@[simp] theorem State.returnReq_kept (t p n : Nat) (s : State) :
    (State.returnReq t p n s).member = s.member ∧
    (State.returnReq t p n s).now = s.now ∧
    (State.returnReq t p n s).regs = s.regs ∧
    (State.returnReq t p n s).unstored = s.unstored ∧
    (State.returnReq t p n s).host = s.host ∧
    (State.returnReq t p n s).epo = s.epo ∧
    (State.returnReq t p n s).cat = s.cat ∧
    (State.returnReq t p n s).med = s.med ∧
    (State.returnReq t p n s).coh = s.coh ∧
    (State.returnReq t p n s).rte = s.rte ∧
    (State.returnReq t p n s).cap = s.cap ∧
    (State.returnReq t p n s).cry = s.cry ∧
    (State.returnReq t p n s).flt = s.flt ∧
    (State.returnReq t p n s).anl = s.anl ∧
    (State.returnReq t p n s).cur = s.cur ∧
    (State.returnReq t p n s).thm = s.thm ∧
    (State.returnReq t p n s).pwr = s.pwr ∧
    (State.returnReq t p n s).pmc = s.pmc ∧
    (State.returnReq t p n s).out = s.out ∧
    (State.returnReq t p n s).net = s.net ∧
    (State.returnReq t p n s).freeCtr = s.freeCtr ∧
    (State.returnReq t p n s).pending = s.pending := by
  unfold State.returnReq
  simp

@[simp] theorem State.endRoute_kept (t p bit : Nat) (s : State) :
    (State.endRoute t p bit s).member = s.member ∧
    (State.endRoute t p bit s).now = s.now ∧
    (State.endRoute t p bit s).unstored = s.unstored ∧
    (State.endRoute t p bit s).epo = s.epo ∧
    (State.endRoute t p bit s).cat = s.cat ∧
    (State.endRoute t p bit s).med = s.med ∧
    (State.endRoute t p bit s).coh = s.coh ∧
    (State.endRoute t p bit s).lnk = s.lnk ∧
    (State.endRoute t p bit s).cap = s.cap ∧
    (State.endRoute t p bit s).cry = s.cry ∧
    (State.endRoute t p bit s).flt = s.flt ∧
    (State.endRoute t p bit s).anl = s.anl ∧
    (State.endRoute t p bit s).cur = s.cur ∧
    (State.endRoute t p bit s).thm = s.thm ∧
    (State.endRoute t p bit s).pwr = s.pwr ∧
    (State.endRoute t p bit s).pmc = s.pmc ∧
    (State.endRoute t p bit s).net = s.net ∧
    (State.endRoute t p bit s).freeCtr = s.freeCtr ∧
    (State.endRoute t p bit s).pending = s.pending := by
  unfold State.endRoute
  dsimp only
  repeat' split
  all_goals simp

@[simp] theorem State.freeRoute_kept (t r : Nat) (s : State) :
    (State.freeRoute t r s).member = s.member ∧
    (State.freeRoute t r s).now = s.now ∧
    (State.freeRoute t r s).unstored = s.unstored ∧
    (State.freeRoute t r s).epo = s.epo ∧
    (State.freeRoute t r s).cat = s.cat ∧
    (State.freeRoute t r s).med = s.med ∧
    (State.freeRoute t r s).coh = s.coh ∧
    (State.freeRoute t r s).lnk = s.lnk ∧
    (State.freeRoute t r s).cap = s.cap ∧
    (State.freeRoute t r s).cry = s.cry ∧
    (State.freeRoute t r s).flt = s.flt ∧
    (State.freeRoute t r s).anl = s.anl ∧
    (State.freeRoute t r s).cur = s.cur ∧
    (State.freeRoute t r s).thm = s.thm ∧
    (State.freeRoute t r s).pwr = s.pwr ∧
    (State.freeRoute t r s).pmc = s.pmc ∧
    (State.freeRoute t r s).net = s.net ∧
    (State.freeRoute t r s).freeCtr = s.freeCtr ∧
    (State.freeRoute t r s).pending = s.pending := by
  unfold State.freeRoute
  dsimp only
  repeat' split
  all_goals simp

theorem State.cancelSwitches_kept (t p r : Nat) (s : State) :
    (State.cancelSwitches t p r s).member = s.member ∧
    (State.cancelSwitches t p r s).now = s.now ∧
    (State.cancelSwitches t p r s).regs = s.regs ∧
    (State.cancelSwitches t p r s).unstored = s.unstored ∧
    (State.cancelSwitches t p r s).host = s.host ∧
    (State.cancelSwitches t p r s).epo = s.epo ∧
    (State.cancelSwitches t p r s).cat = s.cat ∧
    (State.cancelSwitches t p r s).med = s.med ∧
    (State.cancelSwitches t p r s).coh = s.coh ∧
    (State.cancelSwitches t p r s).cap = s.cap ∧
    (State.cancelSwitches t p r s).cry = s.cry ∧
    (State.cancelSwitches t p r s).flt = s.flt ∧
    (State.cancelSwitches t p r s).anl = s.anl ∧
    (State.cancelSwitches t p r s).cur = s.cur ∧
    (State.cancelSwitches t p r s).thm = s.thm ∧
    (State.cancelSwitches t p r s).pwr = s.pwr ∧
    (State.cancelSwitches t p r s).pmc = s.pmc ∧
    (State.cancelSwitches t p r s).out = s.out ∧
    (State.cancelSwitches t p r s).net = s.net ∧
    (State.cancelSwitches t p r s).freeCtr = s.freeCtr ∧
    (State.cancelSwitches t p r s).pending = s.pending := by
  unfold State.cancelSwitches
  simp

theorem State.routesDown_kept (t p : Nat) (s : State) :
    (State.routesDown t p s).member = s.member ∧
    (State.routesDown t p s).now = s.now ∧
    (State.routesDown t p s).unstored = s.unstored ∧
    (State.routesDown t p s).epo = s.epo ∧
    (State.routesDown t p s).cat = s.cat ∧
    (State.routesDown t p s).med = s.med ∧
    (State.routesDown t p s).coh = s.coh ∧
    (State.routesDown t p s).lnk = s.lnk ∧
    (State.routesDown t p s).cap = s.cap ∧
    (State.routesDown t p s).cry = s.cry ∧
    (State.routesDown t p s).flt = s.flt ∧
    (State.routesDown t p s).anl = s.anl ∧
    (State.routesDown t p s).cur = s.cur ∧
    (State.routesDown t p s).thm = s.thm ∧
    (State.routesDown t p s).pwr = s.pwr ∧
    (State.routesDown t p s).pmc = s.pmc ∧
    (State.routesDown t p s).net = s.net ∧
    (State.routesDown t p s).freeCtr = s.freeCtr ∧
    (State.routesDown t p s).pending = s.pending := by
  unfold State.routesDown
  simp

theorem State.routesQuiet_kept (s : State) :
    (State.routesQuiet s).member = s.member ∧
    (State.routesQuiet s).now = s.now ∧
    (State.routesQuiet s).unstored = s.unstored ∧
    (State.routesQuiet s).epo = s.epo ∧
    (State.routesQuiet s).cat = s.cat ∧
    (State.routesQuiet s).med = s.med ∧
    (State.routesQuiet s).coh = s.coh ∧
    (State.routesQuiet s).cap = s.cap ∧
    (State.routesQuiet s).cry = s.cry ∧
    (State.routesQuiet s).flt = s.flt ∧
    (State.routesQuiet s).anl = s.anl ∧
    (State.routesQuiet s).cur = s.cur ∧
    (State.routesQuiet s).thm = s.thm ∧
    (State.routesQuiet s).pwr = s.pwr ∧
    (State.routesQuiet s).pmc = s.pmc ∧
    (State.routesQuiet s).net = s.net ∧
    (State.routesQuiet s).freeCtr = s.freeCtr ∧
    (State.routesQuiet s).pending = s.pending := by
  unfold State.routesQuiet
  (try dsimp only)
  refine ⟨foldl_member _ _ (fun s x => foldl_member _ _ ?_ _ _) _ _, foldl_now _ _ (fun s x => foldl_now _ _ ?_ _ _) _ _, foldl_unstored _ _ (fun s x => foldl_unstored _ _ ?_ _ _) _ _, foldl_epo _ _ (fun s x => foldl_epo _ _ ?_ _ _) _ _, foldl_cat _ _ (fun s x => foldl_cat _ _ ?_ _ _) _ _, foldl_med _ _ (fun s x => foldl_med _ _ ?_ _ _) _ _, foldl_coh _ _ (fun s x => foldl_coh _ _ ?_ _ _) _ _, foldl_cap _ _ (fun s x => foldl_cap _ _ ?_ _ _) _ _, foldl_cry _ _ (fun s x => foldl_cry _ _ ?_ _ _) _ _, foldl_flt _ _ (fun s x => foldl_flt _ _ ?_ _ _) _ _, foldl_anl _ _ (fun s x => foldl_anl _ _ ?_ _ _) _ _, foldl_cur _ _ (fun s x => foldl_cur _ _ ?_ _ _) _ _, foldl_thm _ _ (fun s x => foldl_thm _ _ ?_ _ _) _ _, foldl_pwr _ _ (fun s x => foldl_pwr _ _ ?_ _ _) _ _, foldl_pmc _ _ (fun s x => foldl_pmc _ _ ?_ _ _) _ _, foldl_net _ _ (fun s x => foldl_net _ _ ?_ _ _) _ _, foldl_freeCtr _ _ (fun s x => foldl_freeCtr _ _ ?_ _ _) _ _, foldl_pending _ _ (fun s x => foldl_pending _ _ ?_ _ _) _ _⟩
  all_goals
    intro s x
    (try dsimp only)
    repeat' split
    all_goals simp

theorem State.define_kept (t r : Nat) (d : RouteDef) (s : State) :
    (State.define t r d s).member = s.member ∧
    (State.define t r d s).now = s.now ∧
    (State.define t r d s).regs = s.regs ∧
    (State.define t r d s).unstored = s.unstored ∧
    (State.define t r d s).host = s.host ∧
    (State.define t r d s).epo = s.epo ∧
    (State.define t r d s).cat = s.cat ∧
    (State.define t r d s).med = s.med ∧
    (State.define t r d s).coh = s.coh ∧
    (State.define t r d s).lnk = s.lnk ∧
    (State.define t r d s).cap = s.cap ∧
    (State.define t r d s).cry = s.cry ∧
    (State.define t r d s).flt = s.flt ∧
    (State.define t r d s).anl = s.anl ∧
    (State.define t r d s).cur = s.cur ∧
    (State.define t r d s).thm = s.thm ∧
    (State.define t r d s).pwr = s.pwr ∧
    (State.define t r d s).pmc = s.pmc ∧
    (State.define t r d s).out = s.out ∧
    (State.define t r d s).net = s.net ∧
    (State.define t r d s).freeCtr = s.freeCtr ∧
    (State.define t r d s).pending = s.pending := by
  have k1 := State.dropLandings_kept
  have k2 := State.takeLandings_kept
  unfold State.define
  simp [k1, k2]

@[simp] theorem State.defined_kept (t r count lat p : Nat) (data : HostData) (s : State) :
    (State.defined t r count lat p data s).after.member = s.member ∧
    (State.defined t r count lat p data s).after.now = s.now ∧
    (State.defined t r count lat p data s).after.regs = s.regs ∧
    (State.defined t r count lat p data s).after.unstored = s.unstored ∧
    (State.defined t r count lat p data s).after.host = s.host ∧
    (State.defined t r count lat p data s).after.epo = s.epo ∧
    (State.defined t r count lat p data s).after.cat = s.cat ∧
    (State.defined t r count lat p data s).after.med = s.med ∧
    (State.defined t r count lat p data s).after.coh = s.coh ∧
    (State.defined t r count lat p data s).after.lnk = s.lnk ∧
    (State.defined t r count lat p data s).after.cap = s.cap ∧
    (State.defined t r count lat p data s).after.cry = s.cry ∧
    (State.defined t r count lat p data s).after.flt = s.flt ∧
    (State.defined t r count lat p data s).after.anl = s.anl ∧
    (State.defined t r count lat p data s).after.cur = s.cur ∧
    (State.defined t r count lat p data s).after.thm = s.thm ∧
    (State.defined t r count lat p data s).after.pwr = s.pwr ∧
    (State.defined t r count lat p data s).after.pmc = s.pmc ∧
    (State.defined t r count lat p data s).after.out = s.out ∧
    (State.defined t r count lat p data s).after.net = s.net ∧
    (State.defined t r count lat p data s).after.freeCtr = s.freeCtr ∧
    (State.defined t r count lat p data s).after.pending = s.pending := by
  have k1 := State.define_kept
  unfold State.defined
  dsimp only
  repeat' split
  all_goals simp [k1]

@[simp] theorem State.startPath_kept (t p r : Nat) (at' : Pos) (target : Option Nat) (onTime : Bool) (s : State) :
    (State.startPath t p r at' target onTime s).member = s.member ∧
    (State.startPath t p r at' target onTime s).now = s.now ∧
    (State.startPath t p r at' target onTime s).regs = s.regs ∧
    (State.startPath t p r at' target onTime s).unstored = s.unstored ∧
    (State.startPath t p r at' target onTime s).host = s.host ∧
    (State.startPath t p r at' target onTime s).epo = s.epo ∧
    (State.startPath t p r at' target onTime s).cat = s.cat ∧
    (State.startPath t p r at' target onTime s).med = s.med ∧
    (State.startPath t p r at' target onTime s).coh = s.coh ∧
    (State.startPath t p r at' target onTime s).lnk = s.lnk ∧
    (State.startPath t p r at' target onTime s).cap = s.cap ∧
    (State.startPath t p r at' target onTime s).cry = s.cry ∧
    (State.startPath t p r at' target onTime s).flt = s.flt ∧
    (State.startPath t p r at' target onTime s).anl = s.anl ∧
    (State.startPath t p r at' target onTime s).cur = s.cur ∧
    (State.startPath t p r at' target onTime s).thm = s.thm ∧
    (State.startPath t p r at' target onTime s).pwr = s.pwr ∧
    (State.startPath t p r at' target onTime s).pmc = s.pmc ∧
    (State.startPath t p r at' target onTime s).out = s.out ∧
    (State.startPath t p r at' target onTime s).net = s.net ∧
    (State.startPath t p r at' target onTime s).freeCtr = s.freeCtr ∧
    (State.startPath t p r at' target onTime s).pending = s.pending := by
  unfold State.startPath
  simp

theorem State.endPass_kept (t p : Nat) (s : State) :
    (State.endPass t p s).member = s.member ∧
    (State.endPass t p s).now = s.now ∧
    (State.endPass t p s).regs = s.regs ∧
    (State.endPass t p s).unstored = s.unstored ∧
    (State.endPass t p s).host = s.host ∧
    (State.endPass t p s).epo = s.epo ∧
    (State.endPass t p s).cat = s.cat ∧
    (State.endPass t p s).med = s.med ∧
    (State.endPass t p s).coh = s.coh ∧
    (State.endPass t p s).lnk = s.lnk ∧
    (State.endPass t p s).cap = s.cap ∧
    (State.endPass t p s).cry = s.cry ∧
    (State.endPass t p s).flt = s.flt ∧
    (State.endPass t p s).anl = s.anl ∧
    (State.endPass t p s).cur = s.cur ∧
    (State.endPass t p s).thm = s.thm ∧
    (State.endPass t p s).pwr = s.pwr ∧
    (State.endPass t p s).pmc = s.pmc ∧
    (State.endPass t p s).out = s.out ∧
    (State.endPass t p s).net = s.net ∧
    (State.endPass t p s).freeCtr = s.freeCtr ∧
    (State.endPass t p s).pending = s.pending := by
  unfold State.endPass
  simp

@[simp] theorem State.retire_kept (t r mode : Nat) (d : RouteDef) (s : State) :
    (State.retire t r mode d s).member = s.member ∧
    (State.retire t r mode d s).now = s.now ∧
    (State.retire t r mode d s).unstored = s.unstored ∧
    (State.retire t r mode d s).epo = s.epo ∧
    (State.retire t r mode d s).cat = s.cat ∧
    (State.retire t r mode d s).med = s.med ∧
    (State.retire t r mode d s).coh = s.coh ∧
    (State.retire t r mode d s).cap = s.cap ∧
    (State.retire t r mode d s).cry = s.cry ∧
    (State.retire t r mode d s).flt = s.flt ∧
    (State.retire t r mode d s).anl = s.anl ∧
    (State.retire t r mode d s).cur = s.cur ∧
    (State.retire t r mode d s).thm = s.thm ∧
    (State.retire t r mode d s).pwr = s.pwr ∧
    (State.retire t r mode d s).pmc = s.pmc ∧
    (State.retire t r mode d s).net = s.net ∧
    (State.retire t r mode d s).freeCtr = s.freeCtr ∧
    (State.retire t r mode d s).pending = s.pending := by
  have k1 := State.cancelSwitches_kept
  have k2 := State.dropLandings_kept
  have k3 := State.endPass_kept
  unfold State.retire
  dsimp only
  repeat' split
  all_goals simp [k1, k2, k3]

theorem State.rejectReq_kept (t p : Nat) (b : ReqBody) (s : State) :
    (State.rejectReq t p b s).member = s.member ∧
    (State.rejectReq t p b s).now = s.now ∧
    (State.rejectReq t p b s).unstored = s.unstored ∧
    (State.rejectReq t p b s).epo = s.epo ∧
    (State.rejectReq t p b s).cat = s.cat ∧
    (State.rejectReq t p b s).med = s.med ∧
    (State.rejectReq t p b s).coh = s.coh ∧
    (State.rejectReq t p b s).rte = s.rte ∧
    (State.rejectReq t p b s).cap = s.cap ∧
    (State.rejectReq t p b s).cry = s.cry ∧
    (State.rejectReq t p b s).flt = s.flt ∧
    (State.rejectReq t p b s).cur = s.cur ∧
    (State.rejectReq t p b s).thm = s.thm ∧
    (State.rejectReq t p b s).pwr = s.pwr ∧
    (State.rejectReq t p b s).pmc = s.pmc ∧
    (State.rejectReq t p b s).net = s.net ∧
    (State.rejectReq t p b s).freeCtr = s.freeCtr ∧
    (State.rejectReq t p b s).pending = s.pending := by
  unfold State.rejectReq
  simp

@[simp] theorem State.decideReq_kept (t p : Nat) (b : ReqBody) (s : State) :
    (State.decideReq t p b s).member = s.member ∧
    (State.decideReq t p b s).now = s.now ∧
    (State.decideReq t p b s).unstored = s.unstored ∧
    (State.decideReq t p b s).epo = s.epo ∧
    (State.decideReq t p b s).cat = s.cat ∧
    (State.decideReq t p b s).med = s.med ∧
    (State.decideReq t p b s).coh = s.coh ∧
    (State.decideReq t p b s).cap = s.cap ∧
    (State.decideReq t p b s).cry = s.cry ∧
    (State.decideReq t p b s).flt = s.flt ∧
    (State.decideReq t p b s).cur = s.cur ∧
    (State.decideReq t p b s).thm = s.thm ∧
    (State.decideReq t p b s).net = s.net ∧
    (State.decideReq t p b s).freeCtr = s.freeCtr ∧
    (State.decideReq t p b s).pending = s.pending ∧
    (State.decideReq t p b s).pwr.straps = s.pwr.straps := by
  have k1 := State.rejectReq_kept
  unfold State.decideReq
  dsimp only
  repeat' split
  all_goals simp [k1]

@[simp] theorem State.takeSwitch_kept (t p : Nat) (s : State) :
    (State.takeSwitch t p s).member = s.member ∧
    (State.takeSwitch t p s).now = s.now ∧
    (State.takeSwitch t p s).unstored = s.unstored ∧
    (State.takeSwitch t p s).epo = s.epo ∧
    (State.takeSwitch t p s).cat = s.cat ∧
    (State.takeSwitch t p s).med = s.med ∧
    (State.takeSwitch t p s).coh = s.coh ∧
    (State.takeSwitch t p s).cap = s.cap ∧
    (State.takeSwitch t p s).cry = s.cry ∧
    (State.takeSwitch t p s).flt = s.flt ∧
    (State.takeSwitch t p s).anl = s.anl ∧
    (State.takeSwitch t p s).cur = s.cur ∧
    (State.takeSwitch t p s).thm = s.thm ∧
    (State.takeSwitch t p s).pwr = s.pwr ∧
    (State.takeSwitch t p s).net = s.net ∧
    (State.takeSwitch t p s).freeCtr = s.freeCtr ∧
    (State.takeSwitch t p s).pending = s.pending := by
  have k1 := State.drainCtrl_kept
  unfold State.takeSwitch
  dsimp only
  repeat' split
  all_goals simp [k1]

theorem State.readAhead_kept (t p line : Nat) (env : MediaEnv) (s : State) :
    (State.readAhead t p line env s).member = s.member ∧
    (State.readAhead t p line env s).now = s.now ∧
    (State.readAhead t p line env s).unstored = s.unstored ∧
    (State.readAhead t p line env s).host = s.host ∧
    (State.readAhead t p line env s).lnk = s.lnk ∧
    (State.readAhead t p line env s).cap = s.cap ∧
    (State.readAhead t p line env s).cur = s.cur ∧
    (State.readAhead t p line env s).thm = s.thm ∧
    (State.readAhead t p line env s).pwr = s.pwr ∧
    (State.readAhead t p line env s).pending = s.pending := by
  have k1 := State.readBy_kept
  unfold State.readAhead
  dsimp only
  repeat' split
  all_goals simp [k1]

@[simp] theorem State.prefetch_kept (t p : Nat) (env : MediaEnv) (s : State) :
    (State.prefetch t p env s).member = s.member ∧
    (State.prefetch t p env s).now = s.now ∧
    (State.prefetch t p env s).unstored = s.unstored ∧
    (State.prefetch t p env s).host = s.host ∧
    (State.prefetch t p env s).lnk = s.lnk ∧
    (State.prefetch t p env s).cur = s.cur ∧
    (State.prefetch t p env s).thm = s.thm ∧
    (State.prefetch t p env s).pwr = s.pwr ∧
    (State.prefetch t p env s).pending = s.pending := by
  have k1 := State.readAhead_kept
  unfold State.prefetch
  dsimp only
  repeat' split
  all_goals simp [k1]

@[simp] theorem State.arrived_kept (t p : Nat) (f : Ahead) (s : State) :
    (State.arrived t p f s).member = s.member ∧
    (State.arrived t p f s).now = s.now ∧
    (State.arrived t p f s).unstored = s.unstored ∧
    (State.arrived t p f s).host = s.host ∧
    (State.arrived t p f s).lnk = s.lnk ∧
    (State.arrived t p f s).cur = s.cur ∧
    (State.arrived t p f s).thm = s.thm ∧
    (State.arrived t p f s).pwr = s.pwr ∧
    (State.arrived t p f s).pending = s.pending := by
  unfold State.arrived
  simp

@[simp] theorem State.failArrive_kept (t p : Nat) (f : Ahead) (s : State) :
    (State.failArrive t p f s).member = s.member ∧
    (State.failArrive t p f s).now = s.now ∧
    (State.failArrive t p f s).unstored = s.unstored ∧
    (State.failArrive t p f s).host = s.host ∧
    (State.failArrive t p f s).lnk = s.lnk ∧
    (State.failArrive t p f s).cur = s.cur ∧
    (State.failArrive t p f s).thm = s.thm ∧
    (State.failArrive t p f s).pwr = s.pwr ∧
    (State.failArrive t p f s).pending = s.pending := by
  unfold State.failArrive
  simp

theorem State.unpark_kept (t p : Nat) (s : State) :
    (State.unpark t p s).member = s.member ∧
    (State.unpark t p s).now = s.now ∧
    (State.unpark t p s).regs = s.regs ∧
    (State.unpark t p s).unstored = s.unstored ∧
    (State.unpark t p s).host = s.host ∧
    (State.unpark t p s).epo = s.epo ∧
    (State.unpark t p s).cat = s.cat ∧
    (State.unpark t p s).med = s.med ∧
    (State.unpark t p s).coh = s.coh ∧
    (State.unpark t p s).lnk = s.lnk ∧
    (State.unpark t p s).cap = s.cap ∧
    (State.unpark t p s).cry = s.cry ∧
    (State.unpark t p s).flt = s.flt ∧
    (State.unpark t p s).anl = s.anl ∧
    (State.unpark t p s).cur = s.cur ∧
    (State.unpark t p s).thm = s.thm ∧
    (State.unpark t p s).pwr = s.pwr ∧
    (State.unpark t p s).pmc = s.pmc ∧
    (State.unpark t p s).out = s.out ∧
    (State.unpark t p s).net = s.net ∧
    (State.unpark t p s).freeCtr = s.freeCtr ∧
    (State.unpark t p s).pending = s.pending := by
  unfold State.unpark
  dsimp only
  repeat' split
  all_goals simp

theorem State.underrun_kept (t p r : Nat) (s : State) :
    (State.underrun t p r s).member = s.member ∧
    (State.underrun t p r s).now = s.now ∧
    (State.underrun t p r s).unstored = s.unstored ∧
    (State.underrun t p r s).epo = s.epo ∧
    (State.underrun t p r s).cat = s.cat ∧
    (State.underrun t p r s).med = s.med ∧
    (State.underrun t p r s).coh = s.coh ∧
    (State.underrun t p r s).cap = s.cap ∧
    (State.underrun t p r s).cry = s.cry ∧
    (State.underrun t p r s).flt = s.flt ∧
    (State.underrun t p r s).anl = s.anl ∧
    (State.underrun t p r s).cur = s.cur ∧
    (State.underrun t p r s).thm = s.thm ∧
    (State.underrun t p r s).pwr = s.pwr ∧
    (State.underrun t p r s).net = s.net ∧
    (State.underrun t p r s).freeCtr = s.freeCtr ∧
    (State.underrun t p r s).pending = s.pending := by
  have k1 := State.nextCtrl_kept
  unfold State.underrun
  simp [k1]

theorem State.creditStall_kept (t p : Nat) (s : State) :
    (State.creditStall t p s).member = s.member ∧
    (State.creditStall t p s).now = s.now ∧
    (State.creditStall t p s).unstored = s.unstored ∧
    (State.creditStall t p s).host = s.host ∧
    (State.creditStall t p s).epo = s.epo ∧
    (State.creditStall t p s).cat = s.cat ∧
    (State.creditStall t p s).med = s.med ∧
    (State.creditStall t p s).coh = s.coh ∧
    (State.creditStall t p s).cap = s.cap ∧
    (State.creditStall t p s).cry = s.cry ∧
    (State.creditStall t p s).flt = s.flt ∧
    (State.creditStall t p s).anl = s.anl ∧
    (State.creditStall t p s).cur = s.cur ∧
    (State.creditStall t p s).thm = s.thm ∧
    (State.creditStall t p s).pwr = s.pwr ∧
    (State.creditStall t p s).net = s.net ∧
    (State.creditStall t p s).freeCtr = s.freeCtr ∧
    (State.creditStall t p s).pending = s.pending := by
  unfold State.creditStall
  simp

theorem State.lateFlit_kept (t p r : Nat) (by' : Nat) (s : State) :
    (State.lateFlit t p r by' s).member = s.member ∧
    (State.lateFlit t p r by' s).now = s.now ∧
    (State.lateFlit t p r by' s).unstored = s.unstored ∧
    (State.lateFlit t p r by' s).epo = s.epo ∧
    (State.lateFlit t p r by' s).cat = s.cat ∧
    (State.lateFlit t p r by' s).med = s.med ∧
    (State.lateFlit t p r by' s).coh = s.coh ∧
    (State.lateFlit t p r by' s).lnk = s.lnk ∧
    (State.lateFlit t p r by' s).rte = s.rte ∧
    (State.lateFlit t p r by' s).cap = s.cap ∧
    (State.lateFlit t p r by' s).cry = s.cry ∧
    (State.lateFlit t p r by' s).flt = s.flt ∧
    (State.lateFlit t p r by' s).anl = s.anl ∧
    (State.lateFlit t p r by' s).cur = s.cur ∧
    (State.lateFlit t p r by' s).thm = s.thm ∧
    (State.lateFlit t p r by' s).pwr = s.pwr ∧
    (State.lateFlit t p r by' s).pmc = s.pmc ∧
    (State.lateFlit t p r by' s).net = s.net ∧
    (State.lateFlit t p r by' s).freeCtr = s.freeCtr ∧
    (State.lateFlit t p r by' s).pending = s.pending := by
  unfold State.lateFlit
  simp

theorem State.sendLine_kept (t p r cycle : Nat) (d : RouteDef) (q : Pos) (l : Nat) (c : Content) (s : State) :
    (State.sendLine t p r cycle d q l c s).member = s.member ∧
    (State.sendLine t p r cycle d q l c s).now = s.now ∧
    (State.sendLine t p r cycle d q l c s).unstored = s.unstored ∧
    (State.sendLine t p r cycle d q l c s).epo = s.epo ∧
    (State.sendLine t p r cycle d q l c s).cat = s.cat ∧
    (State.sendLine t p r cycle d q l c s).med = s.med ∧
    (State.sendLine t p r cycle d q l c s).coh = s.coh ∧
    (State.sendLine t p r cycle d q l c s).cap = s.cap ∧
    (State.sendLine t p r cycle d q l c s).cry = s.cry ∧
    (State.sendLine t p r cycle d q l c s).flt = s.flt ∧
    (State.sendLine t p r cycle d q l c s).anl = s.anl ∧
    (State.sendLine t p r cycle d q l c s).cur = s.cur ∧
    (State.sendLine t p r cycle d q l c s).thm = s.thm ∧
    (State.sendLine t p r cycle d q l c s).pwr = s.pwr ∧
    (State.sendLine t p r cycle d q l c s).net = s.net ∧
    (State.sendLine t p r cycle d q l c s).freeCtr = s.freeCtr ∧
    (State.sendLine t p r cycle d q l c s).pending = s.pending := by
  have k1 := State.drainCtrl_kept
  have k2 := State.lateFlit_kept
  have k3 := State.padTo_kept
  have k4 := State.sendDataFlit_kept
  have k5 := State.unpark_kept
  unfold State.sendLine
  dsimp only
  repeat' split
  all_goals simp [k1, k2, k3, k4, k5]

theorem State.dueFlit_kept (t p r cycle : Nat) (d : RouteDef) (q : Pos) (l : Nat) (s : State) :
    (State.dueFlit t p r cycle d q l s).member = s.member ∧
    (State.dueFlit t p r cycle d q l s).now = s.now ∧
    (State.dueFlit t p r cycle d q l s).unstored = s.unstored ∧
    (State.dueFlit t p r cycle d q l s).epo = s.epo ∧
    (State.dueFlit t p r cycle d q l s).cat = s.cat ∧
    (State.dueFlit t p r cycle d q l s).med = s.med ∧
    (State.dueFlit t p r cycle d q l s).coh = s.coh ∧
    (State.dueFlit t p r cycle d q l s).cap = s.cap ∧
    (State.dueFlit t p r cycle d q l s).cry = s.cry ∧
    (State.dueFlit t p r cycle d q l s).flt = s.flt ∧
    (State.dueFlit t p r cycle d q l s).anl = s.anl ∧
    (State.dueFlit t p r cycle d q l s).cur = s.cur ∧
    (State.dueFlit t p r cycle d q l s).thm = s.thm ∧
    (State.dueFlit t p r cycle d q l s).pwr = s.pwr ∧
    (State.dueFlit t p r cycle d q l s).net = s.net ∧
    (State.dueFlit t p r cycle d q l s).freeCtr = s.freeCtr ∧
    (State.dueFlit t p r cycle d q l s).pending = s.pending := by
  have k1 := State.creditStall_kept
  have k2 := State.sendLine_kept
  have k3 := State.underrun_kept
  unfold State.dueFlit
  dsimp only
  repeat' split
  all_goals simp [k1, k2, k3]

@[simp] theorem State.sendData_kept (t p cycle : Nat) (s : State) :
    (State.sendData t p cycle s).member = s.member ∧
    (State.sendData t p cycle s).now = s.now ∧
    (State.sendData t p cycle s).unstored = s.unstored ∧
    (State.sendData t p cycle s).cur = s.cur ∧
    (State.sendData t p cycle s).thm = s.thm ∧
    (State.sendData t p cycle s).pwr = s.pwr ∧
    (State.sendData t p cycle s).pending = s.pending := by
  have k1 := State.dueFlit_kept
  have k2 := State.nextCtrl_kept
  unfold State.sendData
  dsimp only
  repeat' split
  all_goals simp [k1, k2]

@[simp] theorem State.reevaluate_kept (t i : Nat) (x : Landing) (s : State) :
    (State.reevaluate t i x s).member = s.member ∧
    (State.reevaluate t i x s).now = s.now ∧
    (State.reevaluate t i x s).unstored = s.unstored ∧
    (State.reevaluate t i x s).epo = s.epo ∧
    (State.reevaluate t i x s).cat = s.cat ∧
    (State.reevaluate t i x s).med = s.med ∧
    (State.reevaluate t i x s).coh = s.coh ∧
    (State.reevaluate t i x s).lnk = s.lnk ∧
    (State.reevaluate t i x s).cap = s.cap ∧
    (State.reevaluate t i x s).cry = s.cry ∧
    (State.reevaluate t i x s).flt = s.flt ∧
    (State.reevaluate t i x s).anl = s.anl ∧
    (State.reevaluate t i x s).cur = s.cur ∧
    (State.reevaluate t i x s).thm = s.thm ∧
    (State.reevaluate t i x s).pwr = s.pwr ∧
    (State.reevaluate t i x s).pmc = s.pmc ∧
    (State.reevaluate t i x s).net = s.net ∧
    (State.reevaluate t i x s).freeCtr = s.freeCtr ∧
    (State.reevaluate t i x s).pending = s.pending := by
  have k1 := State.setLanding_kept
  unfold State.reevaluate
  dsimp only
  repeat' split
  all_goals simp [k1]

theorem State.undefine_kept (t r d : Nat) (v : Route) (s : State) :
    (State.undefine t r d v s).member = s.member ∧
    (State.undefine t r d v s).now = s.now ∧
    (State.undefine t r d v s).unstored = s.unstored ∧
    (State.undefine t r d v s).epo = s.epo ∧
    (State.undefine t r d v s).cat = s.cat ∧
    (State.undefine t r d v s).med = s.med ∧
    (State.undefine t r d v s).coh = s.coh ∧
    (State.undefine t r d v s).cap = s.cap ∧
    (State.undefine t r d v s).cry = s.cry ∧
    (State.undefine t r d v s).flt = s.flt ∧
    (State.undefine t r d v s).anl = s.anl ∧
    (State.undefine t r d v s).cur = s.cur ∧
    (State.undefine t r d v s).thm = s.thm ∧
    (State.undefine t r d v s).pwr = s.pwr ∧
    (State.undefine t r d v s).pmc = s.pmc ∧
    (State.undefine t r d v s).net = s.net ∧
    (State.undefine t r d v s).freeCtr = s.freeCtr ∧
    (State.undefine t r d v s).pending = s.pending := by
  have k1 := State.cancelSwitches_kept
  have k2 := State.dropLandings_kept
  have k3 := State.takeLandings_kept
  unfold State.undefine
  dsimp only
  repeat' split
  all_goals simp [k1, k2, k3]

theorem State.routesRollback_kept (t d : Nat) (s : State) :
    (State.routesRollback t d s).member = s.member ∧
    (State.routesRollback t d s).now = s.now ∧
    (State.routesRollback t d s).unstored = s.unstored ∧
    (State.routesRollback t d s).epo = s.epo ∧
    (State.routesRollback t d s).cat = s.cat ∧
    (State.routesRollback t d s).med = s.med ∧
    (State.routesRollback t d s).coh = s.coh ∧
    (State.routesRollback t d s).cap = s.cap ∧
    (State.routesRollback t d s).cry = s.cry ∧
    (State.routesRollback t d s).flt = s.flt ∧
    (State.routesRollback t d s).anl = s.anl ∧
    (State.routesRollback t d s).cur = s.cur ∧
    (State.routesRollback t d s).thm = s.thm ∧
    (State.routesRollback t d s).pwr = s.pwr ∧
    (State.routesRollback t d s).pmc = s.pmc ∧
    (State.routesRollback t d s).net = s.net ∧
    (State.routesRollback t d s).freeCtr = s.freeCtr ∧
    (State.routesRollback t d s).pending = s.pending := by
  have k1 := State.undefine_kept
  unfold State.routesRollback
  (try dsimp only)
  refine ⟨(foldl_member _ _ ?_ _ _).trans (foldl_member _ _ ?_ _ _), (foldl_now _ _ ?_ _ _).trans (foldl_now _ _ ?_ _ _), (foldl_unstored _ _ ?_ _ _).trans (foldl_unstored _ _ ?_ _ _), (foldl_epo _ _ ?_ _ _).trans (foldl_epo _ _ ?_ _ _), (foldl_cat _ _ ?_ _ _).trans (foldl_cat _ _ ?_ _ _), (foldl_med _ _ ?_ _ _).trans (foldl_med _ _ ?_ _ _), (foldl_coh _ _ ?_ _ _).trans (foldl_coh _ _ ?_ _ _), (foldl_cap _ _ ?_ _ _).trans (foldl_cap _ _ ?_ _ _), (foldl_cry _ _ ?_ _ _).trans (foldl_cry _ _ ?_ _ _), (foldl_flt _ _ ?_ _ _).trans (foldl_flt _ _ ?_ _ _), (foldl_anl _ _ ?_ _ _).trans (foldl_anl _ _ ?_ _ _), (foldl_cur _ _ ?_ _ _).trans (foldl_cur _ _ ?_ _ _), (foldl_thm _ _ ?_ _ _).trans (foldl_thm _ _ ?_ _ _), (foldl_pwr _ _ ?_ _ _).trans (foldl_pwr _ _ ?_ _ _), (foldl_pmc _ _ ?_ _ _).trans (foldl_pmc _ _ ?_ _ _), (foldl_net _ _ ?_ _ _).trans (foldl_net _ _ ?_ _ _), (foldl_freeCtr _ _ ?_ _ _).trans (foldl_freeCtr _ _ ?_ _ _), (foldl_pending _ _ ?_ _ _).trans (foldl_pending _ _ ?_ _ _)⟩
  all_goals
    intro s x
    (try dsimp only)
    repeat' split
    all_goals simp [k1]

@[simp] theorem State.setRegion_kept (t p r : Nat) (v : Region) (s : State) :
    (State.setRegion t p r v s).member = s.member ∧
    (State.setRegion t p r v s).now = s.now ∧
    (State.setRegion t p r v s).regs = s.regs ∧
    (State.setRegion t p r v s).unstored = s.unstored ∧
    (State.setRegion t p r v s).host = s.host ∧
    (State.setRegion t p r v s).epo = s.epo ∧
    (State.setRegion t p r v s).cat = s.cat ∧
    (State.setRegion t p r v s).med = s.med ∧
    (State.setRegion t p r v s).coh = s.coh ∧
    (State.setRegion t p r v s).lnk = s.lnk ∧
    (State.setRegion t p r v s).rte = s.rte ∧
    (State.setRegion t p r v s).cry = s.cry ∧
    (State.setRegion t p r v s).flt = s.flt ∧
    (State.setRegion t p r v s).anl = s.anl ∧
    (State.setRegion t p r v s).cur = s.cur ∧
    (State.setRegion t p r v s).thm = s.thm ∧
    (State.setRegion t p r v s).pwr = s.pwr ∧
    (State.setRegion t p r v s).pmc = s.pmc ∧
    (State.setRegion t p r v s).out = s.out ∧
    (State.setRegion t p r v s).net = s.net ∧
    (State.setRegion t p r v s).freeCtr = s.freeCtr ∧
    (State.setRegion t p r v s).pending = s.pending := by
  unfold State.setRegion
  simp

@[simp] theorem State.setIngest_kept (t p : Nat) (v : Ingest) (s : State) :
    (State.setIngest t p v s).member = s.member ∧
    (State.setIngest t p v s).now = s.now ∧
    (State.setIngest t p v s).regs = s.regs ∧
    (State.setIngest t p v s).unstored = s.unstored ∧
    (State.setIngest t p v s).host = s.host ∧
    (State.setIngest t p v s).epo = s.epo ∧
    (State.setIngest t p v s).cat = s.cat ∧
    (State.setIngest t p v s).med = s.med ∧
    (State.setIngest t p v s).coh = s.coh ∧
    (State.setIngest t p v s).lnk = s.lnk ∧
    (State.setIngest t p v s).rte = s.rte ∧
    (State.setIngest t p v s).cry = s.cry ∧
    (State.setIngest t p v s).flt = s.flt ∧
    (State.setIngest t p v s).anl = s.anl ∧
    (State.setIngest t p v s).cur = s.cur ∧
    (State.setIngest t p v s).thm = s.thm ∧
    (State.setIngest t p v s).pwr = s.pwr ∧
    (State.setIngest t p v s).pmc = s.pmc ∧
    (State.setIngest t p v s).out = s.out ∧
    (State.setIngest t p v s).net = s.net ∧
    (State.setIngest t p v s).freeCtr = s.freeCtr ∧
    (State.setIngest t p v s).pending = s.pending := by
  unfold State.setIngest
  simp

@[simp] theorem State.grantCap_kept (t p : Nat) (s : State) :
    (State.grantCap t p s).member = s.member ∧
    (State.grantCap t p s).now = s.now ∧
    (State.grantCap t p s).regs = s.regs ∧
    (State.grantCap t p s).unstored = s.unstored ∧
    (State.grantCap t p s).host = s.host ∧
    (State.grantCap t p s).epo = s.epo ∧
    (State.grantCap t p s).cat = s.cat ∧
    (State.grantCap t p s).med = s.med ∧
    (State.grantCap t p s).coh = s.coh ∧
    (State.grantCap t p s).rte = s.rte ∧
    (State.grantCap t p s).cap = s.cap ∧
    (State.grantCap t p s).cry = s.cry ∧
    (State.grantCap t p s).flt = s.flt ∧
    (State.grantCap t p s).anl = s.anl ∧
    (State.grantCap t p s).cur = s.cur ∧
    (State.grantCap t p s).thm = s.thm ∧
    (State.grantCap t p s).pwr = s.pwr ∧
    (State.grantCap t p s).pmc = s.pmc ∧
    (State.grantCap t p s).out = s.out ∧
    (State.grantCap t p s).net = s.net ∧
    (State.grantCap t p s).freeCtr = s.freeCtr ∧
    (State.grantCap t p s).pending = s.pending := by
  unfold State.grantCap
  simp

theorem State.press_kept (t p : Nat) (s : State) :
    (State.press t p s).member = s.member ∧
    (State.press t p s).now = s.now ∧
    (State.press t p s).regs = s.regs ∧
    (State.press t p s).unstored = s.unstored ∧
    (State.press t p s).host = s.host ∧
    (State.press t p s).epo = s.epo ∧
    (State.press t p s).cat = s.cat ∧
    (State.press t p s).med = s.med ∧
    (State.press t p s).coh = s.coh ∧
    (State.press t p s).lnk = s.lnk ∧
    (State.press t p s).rte = s.rte ∧
    (State.press t p s).cry = s.cry ∧
    (State.press t p s).flt = s.flt ∧
    (State.press t p s).anl = s.anl ∧
    (State.press t p s).cur = s.cur ∧
    (State.press t p s).thm = s.thm ∧
    (State.press t p s).pwr = s.pwr ∧
    (State.press t p s).pmc = s.pmc ∧
    (State.press t p s).out = s.out ∧
    (State.press t p s).net = s.net ∧
    (State.press t p s).freeCtr = s.freeCtr ∧
    (State.press t p s).pending = s.pending := by
  unfold State.press
  simp

theorem State.relieve_kept (t p : Nat) (s : State) :
    (State.relieve t p s).member = s.member ∧
    (State.relieve t p s).now = s.now ∧
    (State.relieve t p s).unstored = s.unstored ∧
    (State.relieve t p s).host = s.host ∧
    (State.relieve t p s).epo = s.epo ∧
    (State.relieve t p s).cat = s.cat ∧
    (State.relieve t p s).med = s.med ∧
    (State.relieve t p s).coh = s.coh ∧
    (State.relieve t p s).lnk = s.lnk ∧
    (State.relieve t p s).rte = s.rte ∧
    (State.relieve t p s).cry = s.cry ∧
    (State.relieve t p s).flt = s.flt ∧
    (State.relieve t p s).anl = s.anl ∧
    (State.relieve t p s).cur = s.cur ∧
    (State.relieve t p s).thm = s.thm ∧
    (State.relieve t p s).pwr = s.pwr ∧
    (State.relieve t p s).pmc = s.pmc ∧
    (State.relieve t p s).out = s.out ∧
    (State.relieve t p s).net = s.net ∧
    (State.relieve t p s).freeCtr = s.freeCtr ∧
    (State.relieve t p s).pending = s.pending := by
  unfold State.relieve
  simp

theorem State.lossRecord_kept (t p r cause : Nat) (s : State) :
    (State.lossRecord t p r cause s).member = s.member ∧
    (State.lossRecord t p r cause s).now = s.now ∧
    (State.lossRecord t p r cause s).unstored = s.unstored ∧
    (State.lossRecord t p r cause s).host = s.host ∧
    (State.lossRecord t p r cause s).epo = s.epo ∧
    (State.lossRecord t p r cause s).cat = s.cat ∧
    (State.lossRecord t p r cause s).med = s.med ∧
    (State.lossRecord t p r cause s).coh = s.coh ∧
    (State.lossRecord t p r cause s).lnk = s.lnk ∧
    (State.lossRecord t p r cause s).rte = s.rte ∧
    (State.lossRecord t p r cause s).cap = s.cap ∧
    (State.lossRecord t p r cause s).cry = s.cry ∧
    (State.lossRecord t p r cause s).flt = s.flt ∧
    (State.lossRecord t p r cause s).cur = s.cur ∧
    (State.lossRecord t p r cause s).thm = s.thm ∧
    (State.lossRecord t p r cause s).pwr = s.pwr ∧
    (State.lossRecord t p r cause s).pmc = s.pmc ∧
    (State.lossRecord t p r cause s).out = s.out ∧
    (State.lossRecord t p r cause s).net = s.net ∧
    (State.lossRecord t p r cause s).freeCtr = s.freeCtr ∧
    (State.lossRecord t p r cause s).pending = s.pending := by
  unfold State.lossRecord
  simp

@[simp] theorem State.countRewind_kept (t p r cause : Nat) (s : State) :
    (State.countRewind t p r cause s).member = s.member ∧
    (State.countRewind t p r cause s).now = s.now ∧
    (State.countRewind t p r cause s).unstored = s.unstored ∧
    (State.countRewind t p r cause s).epo = s.epo ∧
    (State.countRewind t p r cause s).cat = s.cat ∧
    (State.countRewind t p r cause s).med = s.med ∧
    (State.countRewind t p r cause s).coh = s.coh ∧
    (State.countRewind t p r cause s).lnk = s.lnk ∧
    (State.countRewind t p r cause s).rte = s.rte ∧
    (State.countRewind t p r cause s).cry = s.cry ∧
    (State.countRewind t p r cause s).flt = s.flt ∧
    (State.countRewind t p r cause s).cur = s.cur ∧
    (State.countRewind t p r cause s).thm = s.thm ∧
    (State.countRewind t p r cause s).pwr = s.pwr ∧
    (State.countRewind t p r cause s).pmc = s.pmc ∧
    (State.countRewind t p r cause s).net = s.net ∧
    (State.countRewind t p r cause s).freeCtr = s.freeCtr ∧
    (State.countRewind t p r cause s).pending = s.pending := by
  have k1 := State.lossRecord_kept
  unfold State.countRewind
  simp [k1]

theorem State.countDrop_kept (t p r cause : Nat) (s : State) :
    (State.countDrop t p r cause s).member = s.member ∧
    (State.countDrop t p r cause s).now = s.now ∧
    (State.countDrop t p r cause s).unstored = s.unstored ∧
    (State.countDrop t p r cause s).epo = s.epo ∧
    (State.countDrop t p r cause s).cat = s.cat ∧
    (State.countDrop t p r cause s).med = s.med ∧
    (State.countDrop t p r cause s).coh = s.coh ∧
    (State.countDrop t p r cause s).lnk = s.lnk ∧
    (State.countDrop t p r cause s).rte = s.rte ∧
    (State.countDrop t p r cause s).cry = s.cry ∧
    (State.countDrop t p r cause s).flt = s.flt ∧
    (State.countDrop t p r cause s).cur = s.cur ∧
    (State.countDrop t p r cause s).thm = s.thm ∧
    (State.countDrop t p r cause s).pwr = s.pwr ∧
    (State.countDrop t p r cause s).pmc = s.pmc ∧
    (State.countDrop t p r cause s).net = s.net ∧
    (State.countDrop t p r cause s).freeCtr = s.freeCtr ∧
    (State.countDrop t p r cause s).pending = s.pending := by
  have k1 := State.lossRecord_kept
  unfold State.countDrop
  simp [k1]

@[simp] theorem State.rewind_kept (t p r cause : Nat) (s : State) :
    (State.rewind t p r cause s).member = s.member ∧
    (State.rewind t p r cause s).now = s.now ∧
    (State.rewind t p r cause s).unstored = s.unstored ∧
    (State.rewind t p r cause s).epo = s.epo ∧
    (State.rewind t p r cause s).cat = s.cat ∧
    (State.rewind t p r cause s).med = s.med ∧
    (State.rewind t p r cause s).coh = s.coh ∧
    (State.rewind t p r cause s).lnk = s.lnk ∧
    (State.rewind t p r cause s).rte = s.rte ∧
    (State.rewind t p r cause s).cry = s.cry ∧
    (State.rewind t p r cause s).flt = s.flt ∧
    (State.rewind t p r cause s).cur = s.cur ∧
    (State.rewind t p r cause s).thm = s.thm ∧
    (State.rewind t p r cause s).pwr = s.pwr ∧
    (State.rewind t p r cause s).pmc = s.pmc ∧
    (State.rewind t p r cause s).net = s.net ∧
    (State.rewind t p r cause s).freeCtr = s.freeCtr ∧
    (State.rewind t p r cause s).pending = s.pending := by
  unfold State.rewind
  dsimp only
  repeat' split
  all_goals simp

@[simp] theorem State.rewindPort_kept (t p cause : Nat) (s : State) :
    (State.rewindPort t p cause s).member = s.member ∧
    (State.rewindPort t p cause s).now = s.now ∧
    (State.rewindPort t p cause s).unstored = s.unstored ∧
    (State.rewindPort t p cause s).epo = s.epo ∧
    (State.rewindPort t p cause s).cat = s.cat ∧
    (State.rewindPort t p cause s).med = s.med ∧
    (State.rewindPort t p cause s).coh = s.coh ∧
    (State.rewindPort t p cause s).lnk = s.lnk ∧
    (State.rewindPort t p cause s).rte = s.rte ∧
    (State.rewindPort t p cause s).cry = s.cry ∧
    (State.rewindPort t p cause s).flt = s.flt ∧
    (State.rewindPort t p cause s).cur = s.cur ∧
    (State.rewindPort t p cause s).thm = s.thm ∧
    (State.rewindPort t p cause s).pwr = s.pwr ∧
    (State.rewindPort t p cause s).pmc = s.pmc ∧
    (State.rewindPort t p cause s).net = s.net ∧
    (State.rewindPort t p cause s).freeCtr = s.freeCtr ∧
    (State.rewindPort t p cause s).pending = s.pending := by
  unfold State.rewindPort
  simp

theorem State.loseFifo_kept (t p cause : Nat) (s : State) :
    (State.loseFifo t p cause s).member = s.member ∧
    (State.loseFifo t p cause s).now = s.now ∧
    (State.loseFifo t p cause s).unstored = s.unstored ∧
    (State.loseFifo t p cause s).epo = s.epo ∧
    (State.loseFifo t p cause s).cat = s.cat ∧
    (State.loseFifo t p cause s).med = s.med ∧
    (State.loseFifo t p cause s).coh = s.coh ∧
    (State.loseFifo t p cause s).lnk = s.lnk ∧
    (State.loseFifo t p cause s).rte = s.rte ∧
    (State.loseFifo t p cause s).cry = s.cry ∧
    (State.loseFifo t p cause s).flt = s.flt ∧
    (State.loseFifo t p cause s).cur = s.cur ∧
    (State.loseFifo t p cause s).thm = s.thm ∧
    (State.loseFifo t p cause s).pwr = s.pwr ∧
    (State.loseFifo t p cause s).pmc = s.pmc ∧
    (State.loseFifo t p cause s).net = s.net ∧
    (State.loseFifo t p cause s).freeCtr = s.freeCtr ∧
    (State.loseFifo t p cause s).pending = s.pending := by
  unfold State.loseFifo
  simp

theorem State.rewindEngine_kept (t p r cause : Nat) (s : State) :
    (State.rewindEngine t p r cause s).member = s.member ∧
    (State.rewindEngine t p r cause s).now = s.now ∧
    (State.rewindEngine t p r cause s).unstored = s.unstored ∧
    (State.rewindEngine t p r cause s).epo = s.epo ∧
    (State.rewindEngine t p r cause s).cat = s.cat ∧
    (State.rewindEngine t p r cause s).med = s.med ∧
    (State.rewindEngine t p r cause s).coh = s.coh ∧
    (State.rewindEngine t p r cause s).lnk = s.lnk ∧
    (State.rewindEngine t p r cause s).rte = s.rte ∧
    (State.rewindEngine t p r cause s).cry = s.cry ∧
    (State.rewindEngine t p r cause s).flt = s.flt ∧
    (State.rewindEngine t p r cause s).cur = s.cur ∧
    (State.rewindEngine t p r cause s).thm = s.thm ∧
    (State.rewindEngine t p r cause s).pwr = s.pwr ∧
    (State.rewindEngine t p r cause s).pmc = s.pmc ∧
    (State.rewindEngine t p r cause s).net = s.net ∧
    (State.rewindEngine t p r cause s).freeCtr = s.freeCtr ∧
    (State.rewindEngine t p r cause s).pending = s.pending := by
  unfold State.rewindEngine
  dsimp only
  repeat' split
  all_goals simp

@[simp] theorem State.publish_kept (h : Nat) (s : State) :
    (State.publish h s).member = s.member ∧
    (State.publish h s).now = s.now ∧
    (State.publish h s).regs = s.regs ∧
    (State.publish h s).unstored = s.unstored ∧
    (State.publish h s).host = s.host ∧
    (State.publish h s).epo = s.epo ∧
    (State.publish h s).cat = s.cat ∧
    (State.publish h s).med = s.med ∧
    (State.publish h s).coh = s.coh ∧
    (State.publish h s).lnk = s.lnk ∧
    (State.publish h s).rte = s.rte ∧
    (State.publish h s).cry = s.cry ∧
    (State.publish h s).flt = s.flt ∧
    (State.publish h s).anl = s.anl ∧
    (State.publish h s).cur = s.cur ∧
    (State.publish h s).thm = s.thm ∧
    (State.publish h s).pwr = s.pwr ∧
    (State.publish h s).out = s.out ∧
    (State.publish h s).net = s.net ∧
    (State.publish h s).freeCtr = s.freeCtr ∧
    (State.publish h s).pending = s.pending := by
  unfold State.publish
  simp

theorem State.feed_kept (t p r : Nat) (e : Rec) (ws : List DWord) (last : Bool) (s : State) :
    (State.feed t p r e ws last s).member = s.member ∧
    (State.feed t p r e ws last s).now = s.now ∧
    (State.feed t p r e ws last s).regs = s.regs ∧
    (State.feed t p r e ws last s).unstored = s.unstored ∧
    (State.feed t p r e ws last s).host = s.host ∧
    (State.feed t p r e ws last s).epo = s.epo ∧
    (State.feed t p r e ws last s).cat = s.cat ∧
    (State.feed t p r e ws last s).med = s.med ∧
    (State.feed t p r e ws last s).coh = s.coh ∧
    (State.feed t p r e ws last s).lnk = s.lnk ∧
    (State.feed t p r e ws last s).rte = s.rte ∧
    (State.feed t p r e ws last s).cry = s.cry ∧
    (State.feed t p r e ws last s).flt = s.flt ∧
    (State.feed t p r e ws last s).anl = s.anl ∧
    (State.feed t p r e ws last s).cur = s.cur ∧
    (State.feed t p r e ws last s).thm = s.thm ∧
    (State.feed t p r e ws last s).pwr = s.pwr ∧
    (State.feed t p r e ws last s).pmc = s.pmc ∧
    (State.feed t p r e ws last s).out = s.out ∧
    (State.feed t p r e ws last s).net = s.net ∧
    (State.feed t p r e ws last s).freeCtr = s.freeCtr ∧
    (State.feed t p r e ws last s).pending = s.pending := by
  unfold State.feed
  simp

@[simp] theorem State.capFlit_kept (t p r : Nat) (start stop poison : Bool) (payload : Line) (s : State) :
    (State.capFlit t p r start stop poison payload s).member = s.member ∧
    (State.capFlit t p r start stop poison payload s).now = s.now ∧
    (State.capFlit t p r start stop poison payload s).unstored = s.unstored ∧
    (State.capFlit t p r start stop poison payload s).epo = s.epo ∧
    (State.capFlit t p r start stop poison payload s).cat = s.cat ∧
    (State.capFlit t p r start stop poison payload s).med = s.med ∧
    (State.capFlit t p r start stop poison payload s).coh = s.coh ∧
    (State.capFlit t p r start stop poison payload s).rte = s.rte ∧
    (State.capFlit t p r start stop poison payload s).cry = s.cry ∧
    (State.capFlit t p r start stop poison payload s).flt = s.flt ∧
    (State.capFlit t p r start stop poison payload s).cur = s.cur ∧
    (State.capFlit t p r start stop poison payload s).thm = s.thm ∧
    (State.capFlit t p r start stop poison payload s).pwr = s.pwr ∧
    (State.capFlit t p r start stop poison payload s).net = s.net ∧
    (State.capFlit t p r start stop poison payload s).freeCtr = s.freeCtr ∧
    (State.capFlit t p r start stop poison payload s).pending = s.pending := by
  have k1 := State.count64_kept
  have k2 := State.feed_kept
  unfold State.capFlit
  simp [k1, k2]

theorem State.dropRecord_kept (t p r j cause : Nat) (s : State) :
    (State.dropRecord t p r j cause s).member = s.member ∧
    (State.dropRecord t p r j cause s).now = s.now ∧
    (State.dropRecord t p r j cause s).unstored = s.unstored ∧
    (State.dropRecord t p r j cause s).epo = s.epo ∧
    (State.dropRecord t p r j cause s).cat = s.cat ∧
    (State.dropRecord t p r j cause s).med = s.med ∧
    (State.dropRecord t p r j cause s).coh = s.coh ∧
    (State.dropRecord t p r j cause s).lnk = s.lnk ∧
    (State.dropRecord t p r j cause s).rte = s.rte ∧
    (State.dropRecord t p r j cause s).cry = s.cry ∧
    (State.dropRecord t p r j cause s).flt = s.flt ∧
    (State.dropRecord t p r j cause s).cur = s.cur ∧
    (State.dropRecord t p r j cause s).thm = s.thm ∧
    (State.dropRecord t p r j cause s).pwr = s.pwr ∧
    (State.dropRecord t p r j cause s).pmc = s.pmc ∧
    (State.dropRecord t p r j cause s).net = s.net ∧
    (State.dropRecord t p r j cause s).freeCtr = s.freeCtr ∧
    (State.dropRecord t p r j cause s).pending = s.pending := by
  have k1 := State.countDrop_kept
  unfold State.dropRecord
  simp [k1]

theorem State.captureLine_kept (t line : Nat) (data : Line) (s : State) :
    (State.captureLine t line data s).member = s.member ∧
    (State.captureLine t line data s).now = s.now ∧
    (State.captureLine t line data s).unstored = s.unstored ∧
    (State.captureLine t line data s).host = s.host ∧
    (State.captureLine t line data s).med = s.med ∧
    (State.captureLine t line data s).lnk = s.lnk ∧
    (State.captureLine t line data s).rte = s.rte ∧
    (State.captureLine t line data s).flt = s.flt ∧
    (State.captureLine t line data s).anl = s.anl ∧
    (State.captureLine t line data s).cur = s.cur ∧
    (State.captureLine t line data s).thm = s.thm ∧
    (State.captureLine t line data s).pwr = s.pwr ∧
    (State.captureLine t line data s).pending = s.pending := by
  have k1 := State.writeLine_kept
  unfold State.captureLine
  simp [k1]

theorem State.takeWord_kept (t p : Nat) (w : FWord) (i : Ingest) (s : State) :
    (State.takeWord t p w i s).member = s.member ∧
    (State.takeWord t p w i s).now = s.now ∧
    (State.takeWord t p w i s).unstored = s.unstored ∧
    (State.takeWord t p w i s).med = s.med ∧
    (State.takeWord t p w i s).lnk = s.lnk ∧
    (State.takeWord t p w i s).rte = s.rte ∧
    (State.takeWord t p w i s).flt = s.flt ∧
    (State.takeWord t p w i s).cur = s.cur ∧
    (State.takeWord t p w i s).thm = s.thm ∧
    (State.takeWord t p w i s).pwr = s.pwr ∧
    (State.takeWord t p w i s).pending = s.pending := by
  have k1 := State.captureLine_kept
  have k2 := State.dropRecord_kept
  have k3 := State.press_kept
  have k4 := State.relieve_kept
  unfold State.takeWord
  dsimp only
  repeat' split
  all_goals simp [k1, k2, k3, k4]

theorem State.parityError_kept (t p : Nat) (i : Ingest) (inj : Bool) (s : State) :
    (State.parityError t p i inj s).member = s.member ∧
    (State.parityError t p i inj s).now = s.now ∧
    (State.parityError t p i inj s).unstored = s.unstored ∧
    (State.parityError t p i inj s).cat = s.cat ∧
    (State.parityError t p i inj s).med = s.med ∧
    (State.parityError t p i inj s).coh = s.coh ∧
    (State.parityError t p i inj s).lnk = s.lnk ∧
    (State.parityError t p i inj s).rte = s.rte ∧
    (State.parityError t p i inj s).cry = s.cry ∧
    (State.parityError t p i inj s).thm = s.thm ∧
    (State.parityError t p i inj s).net = s.net ∧
    (State.parityError t p i inj s).pending = s.pending ∧
    (State.parityError t p i inj s).pwr.straps = s.pwr.straps ∧
    (State.parityError t p i inj s).cur.lifecycle = s.cur.lifecycle ∧
    (State.parityError t p i inj s).cur.rootGen = s.cur.rootGen ∧
    (State.parityError t p i inj s).cur.returns = s.cur.returns ∧
    (State.parityError t p i inj s).cur.revoked = s.cur.revoked := by
  have k1 := State.rewindEngine_kept
  unfold State.parityError
  (try dsimp only)
  simp only [State.setIngest_kept]
  refine ⟨(foldl_member _ _ ?_ _ _).trans (by simp [k1]), (foldl_now _ _ ?_ _ _).trans (by simp [k1]), (foldl_unstored _ _ ?_ _ _).trans (by simp [k1]), (foldl_cat _ _ ?_ _ _).trans (by simp [k1]), (foldl_med _ _ ?_ _ _).trans (by simp [k1]), (foldl_coh _ _ ?_ _ _).trans (by simp [k1]), (foldl_lnk _ _ ?_ _ _).trans (by simp [k1]), (foldl_rte _ _ ?_ _ _).trans (by simp [k1]), (foldl_cry _ _ ?_ _ _).trans (by simp [k1]), (foldl_thm _ _ ?_ _ _).trans (by simp [k1]), (foldl_net _ _ ?_ _ _).trans (by simp [k1]), (foldl_pending _ _ ?_ _ _).trans (by simp [k1]), (foldl_pwr_straps _ _ ?_ _ _).trans (by simp [k1]), (foldl_cur_lifecycle _ _ ?_ _ _).trans (by simp [k1]), (foldl_cur_rootGen _ _ ?_ _ _).trans (by simp [k1]), (foldl_cur_returns _ _ ?_ _ _).trans (by simp [k1]), (foldl_cur_revoked _ _ ?_ _ _).trans (by simp [k1])⟩
  all_goals
    intro s x
    (try dsimp only)
    repeat' split
    all_goals simp [k1]

@[simp] theorem State.ingestWord_kept (t p : Nat) (upset : BitVec 82) (s : State) :
    (State.ingestWord t p upset s).member = s.member ∧
    (State.ingestWord t p upset s).now = s.now ∧
    (State.ingestWord t p upset s).unstored = s.unstored ∧
    (State.ingestWord t p upset s).med = s.med ∧
    (State.ingestWord t p upset s).lnk = s.lnk ∧
    (State.ingestWord t p upset s).rte = s.rte ∧
    (State.ingestWord t p upset s).thm = s.thm ∧
    (State.ingestWord t p upset s).pending = s.pending ∧
    (State.ingestWord t p upset s).pwr.straps = s.pwr.straps ∧
    (State.ingestWord t p upset s).cur.lifecycle = s.cur.lifecycle ∧
    (State.ingestWord t p upset s).cur.rootGen = s.cur.rootGen ∧
    (State.ingestWord t p upset s).cur.returns = s.cur.returns ∧
    (State.ingestWord t p upset s).cur.revoked = s.cur.revoked := by
  have k1 := State.parityError_kept
  have k2 := State.relieve_kept
  have k3 := State.takeWord_kept
  unfold State.ingestWord
  dsimp only
  repeat' split
  all_goals simp [k1, k2, k3]

@[simp] theorem State.commit_kept (t p r : Nat) (s : State) :
    (State.commit t p r s).member = s.member ∧
    (State.commit t p r s).now = s.now ∧
    (State.commit t p r s).unstored = s.unstored ∧
    (State.commit t p r s).med = s.med ∧
    (State.commit t p r s).lnk = s.lnk ∧
    (State.commit t p r s).rte = s.rte ∧
    (State.commit t p r s).flt = s.flt ∧
    (State.commit t p r s).cur = s.cur ∧
    (State.commit t p r s).thm = s.thm ∧
    (State.commit t p r s).pwr = s.pwr ∧
    (State.commit t p r s).pending = s.pending := by
  have k1 := State.captureLine_kept
  have k2 := State.count64_kept
  have k3 := State.dropRecord_kept
  have k4 := State.press_kept
  have k5 := State.relieve_kept
  unfold State.commit
  dsimp only
  repeat' split
  all_goals simp [k1, k2, k3, k4, k5]

theorem State.commitAll_kept (t p : Nat) (s : State) :
    (State.commitAll t p s).member = s.member ∧
    (State.commitAll t p s).now = s.now ∧
    (State.commitAll t p s).unstored = s.unstored ∧
    (State.commitAll t p s).med = s.med ∧
    (State.commitAll t p s).lnk = s.lnk ∧
    (State.commitAll t p s).rte = s.rte ∧
    (State.commitAll t p s).flt = s.flt ∧
    (State.commitAll t p s).cur = s.cur ∧
    (State.commitAll t p s).thm = s.thm ∧
    (State.commitAll t p s).pwr = s.pwr ∧
    (State.commitAll t p s).pending = s.pending := by
  unfold State.commitAll
  simp

@[simp] theorem State.drain_kept (t p n : Nat) (s : State) :
    (State.drain t p n s).member = s.member ∧
    (State.drain t p n s).now = s.now ∧
    (State.drain t p n s).unstored = s.unstored ∧
    (State.drain t p n s).med = s.med ∧
    (State.drain t p n s).lnk = s.lnk ∧
    (State.drain t p n s).rte = s.rte ∧
    (State.drain t p n s).thm = s.thm ∧
    (State.drain t p n s).pending = s.pending ∧
    (State.drain t p n s).pwr.straps = s.pwr.straps ∧
    (State.drain t p n s).cur.lifecycle = s.cur.lifecycle ∧
    (State.drain t p n s).cur.rootGen = s.cur.rootGen ∧
    (State.drain t p n s).cur.returns = s.cur.returns ∧
    (State.drain t p n s).cur.revoked = s.cur.revoked := by
  have k1 := State.commitAll_kept
  induction n generalizing s with
  | zero => simp [k1, State.drain]
  | succ n ih => simp [k1, State.drain, ih]

theorem State.markTile_kept (t n : Nat) (s : State) :
    (State.markTile t n s).member = s.member ∧
    (State.markTile t n s).now = s.now ∧
    (State.markTile t n s).regs = s.regs ∧
    (State.markTile t n s).unstored = s.unstored ∧
    (State.markTile t n s).host = s.host ∧
    (State.markTile t n s).epo = s.epo ∧
    (State.markTile t n s).cat = s.cat ∧
    (State.markTile t n s).med = s.med ∧
    (State.markTile t n s).coh = s.coh ∧
    (State.markTile t n s).lnk = s.lnk ∧
    (State.markTile t n s).rte = s.rte ∧
    (State.markTile t n s).cry = s.cry ∧
    (State.markTile t n s).flt = s.flt ∧
    (State.markTile t n s).anl = s.anl ∧
    (State.markTile t n s).cur = s.cur ∧
    (State.markTile t n s).thm = s.thm ∧
    (State.markTile t n s).pwr = s.pwr ∧
    (State.markTile t n s).pmc = s.pmc ∧
    (State.markTile t n s).out = s.out ∧
    (State.markTile t n s).net = s.net ∧
    (State.markTile t n s).freeCtr = s.freeCtr ∧
    (State.markTile t n s).pending = s.pending := by
  unfold State.markTile
  simp

theorem State.captureRollback_kept (t d : Nat) (s : State) :
    (State.captureRollback t d s).member = s.member ∧
    (State.captureRollback t d s).now = s.now ∧
    (State.captureRollback t d s).unstored = s.unstored ∧
    (State.captureRollback t d s).epo = s.epo ∧
    (State.captureRollback t d s).cat = s.cat ∧
    (State.captureRollback t d s).med = s.med ∧
    (State.captureRollback t d s).coh = s.coh ∧
    (State.captureRollback t d s).lnk = s.lnk ∧
    (State.captureRollback t d s).rte = s.rte ∧
    (State.captureRollback t d s).cry = s.cry ∧
    (State.captureRollback t d s).flt = s.flt ∧
    (State.captureRollback t d s).cur = s.cur ∧
    (State.captureRollback t d s).thm = s.thm ∧
    (State.captureRollback t d s).pwr = s.pwr ∧
    (State.captureRollback t d s).pmc = s.pmc ∧
    (State.captureRollback t d s).net = s.net ∧
    (State.captureRollback t d s).freeCtr = s.freeCtr ∧
    (State.captureRollback t d s).pending = s.pending := by
  have k1 := State.rewindEngine_kept
  unfold State.captureRollback
  simp [k1]

end Sys2Proof.Machine
end

