-- ==== Sys2Proof/Laws/KeptPart.lean ====
section
/-! SUPPORT. What each operation leaves as it was: whole parts of the state, and of the power and Curator parts the
straps, the life-cycle state and the fuse words. The lemma of an operation that a row calls itself, or that four or more
operations call, is a simp lemma; the others are cited by name. -/

namespace Sys2Proof.Machine

set_option Elab.async false
set_option linter.unusedTactic false
set_option linter.unusedSimpArgs false
set_option linter.unusedVariables false

theorem State.rewindUntagged_kept (t p : Nat) (s : State) :
    (State.rewindUntagged t p s).member = s.member ∧
    (State.rewindUntagged t p s).now = s.now ∧
    (State.rewindUntagged t p s).unstored = s.unstored ∧
    (State.rewindUntagged t p s).epo = s.epo ∧
    (State.rewindUntagged t p s).cat = s.cat ∧
    (State.rewindUntagged t p s).med = s.med ∧
    (State.rewindUntagged t p s).coh = s.coh ∧
    (State.rewindUntagged t p s).lnk = s.lnk ∧
    (State.rewindUntagged t p s).rte = s.rte ∧
    (State.rewindUntagged t p s).cry = s.cry ∧
    (State.rewindUntagged t p s).flt = s.flt ∧
    (State.rewindUntagged t p s).cur = s.cur ∧
    (State.rewindUntagged t p s).thm = s.thm ∧
    (State.rewindUntagged t p s).pwr = s.pwr ∧
    (State.rewindUntagged t p s).pmc = s.pmc ∧
    (State.rewindUntagged t p s).net = s.net ∧
    (State.rewindUntagged t p s).freeCtr = s.freeCtr ∧
    (State.rewindUntagged t p s).pending = s.pending := by
  unfold State.rewindUntagged
  simp

@[simp] theorem State.leaveActive_kept (t p : Nat) (s : State) :
    (State.leaveActive t p s).member = s.member ∧
    (State.leaveActive t p s).now = s.now ∧
    (State.leaveActive t p s).unstored = s.unstored ∧
    (State.leaveActive t p s).epo = s.epo ∧
    (State.leaveActive t p s).cat = s.cat ∧
    (State.leaveActive t p s).med = s.med ∧
    (State.leaveActive t p s).coh = s.coh ∧
    (State.leaveActive t p s).lnk = s.lnk ∧
    (State.leaveActive t p s).cry = s.cry ∧
    (State.leaveActive t p s).flt = s.flt ∧
    (State.leaveActive t p s).cur = s.cur ∧
    (State.leaveActive t p s).thm = s.thm ∧
    (State.leaveActive t p s).pwr = s.pwr ∧
    (State.leaveActive t p s).pmc = s.pmc ∧
    (State.leaveActive t p s).net = s.net ∧
    (State.leaveActive t p s).freeCtr = s.freeCtr ∧
    (State.leaveActive t p s).pending = s.pending := by
  have k1 := State.rewindUntagged_kept
  have k2 := State.routesDown_kept
  unfold State.leaveActive
  simp [k1, k2]

@[simp] theorem State.failPort_kept (t p cause : Nat) (s : State) :
    (State.failPort t p cause s).member = s.member ∧
    (State.failPort t p cause s).now = s.now ∧
    (State.failPort t p cause s).unstored = s.unstored ∧
    (State.failPort t p cause s).cat = s.cat ∧
    (State.failPort t p cause s).med = s.med ∧
    (State.failPort t p cause s).coh = s.coh ∧
    (State.failPort t p cause s).cry = s.cry ∧
    (State.failPort t p cause s).thm = s.thm ∧
    (State.failPort t p cause s).net = s.net ∧
    (State.failPort t p cause s).pending = s.pending ∧
    (State.failPort t p cause s).pwr.straps = s.pwr.straps ∧
    (State.failPort t p cause s).cur.lifecycle = s.cur.lifecycle ∧
    (State.failPort t p cause s).cur.rootGen = s.cur.rootGen ∧
    (State.failPort t p cause s).cur.returns = s.cur.returns ∧
    (State.failPort t p cause s).cur.revoked = s.cur.revoked := by
  unfold State.failPort
  simp

@[simp] theorem State.retrainPort_kept (t p cause : Nat) (s : State) :
    (State.retrainPort t p cause s).member = s.member ∧
    (State.retrainPort t p cause s).now = s.now ∧
    (State.retrainPort t p cause s).unstored = s.unstored ∧
    (State.retrainPort t p cause s).cat = s.cat ∧
    (State.retrainPort t p cause s).med = s.med ∧
    (State.retrainPort t p cause s).coh = s.coh ∧
    (State.retrainPort t p cause s).cry = s.cry ∧
    (State.retrainPort t p cause s).thm = s.thm ∧
    (State.retrainPort t p cause s).net = s.net ∧
    (State.retrainPort t p cause s).pending = s.pending ∧
    (State.retrainPort t p cause s).pwr.straps = s.pwr.straps ∧
    (State.retrainPort t p cause s).cur.lifecycle = s.cur.lifecycle ∧
    (State.retrainPort t p cause s).cur.rootGen = s.cur.rootGen ∧
    (State.retrainPort t p cause s).cur.returns = s.cur.returns ∧
    (State.retrainPort t p cause s).cur.revoked = s.cur.revoked := by
  have k1 := State.spendCtrl_kept
  unfold State.retrainPort
  dsimp only
  repeat' split
  all_goals simp [k1]

@[simp] theorem State.tagFailure_kept (t p ctr : Nat) (s : State) :
    (State.tagFailure t p ctr s).member = s.member ∧
    (State.tagFailure t p ctr s).now = s.now ∧
    (State.tagFailure t p ctr s).unstored = s.unstored ∧
    (State.tagFailure t p ctr s).cat = s.cat ∧
    (State.tagFailure t p ctr s).med = s.med ∧
    (State.tagFailure t p ctr s).coh = s.coh ∧
    (State.tagFailure t p ctr s).cry = s.cry ∧
    (State.tagFailure t p ctr s).thm = s.thm ∧
    (State.tagFailure t p ctr s).net = s.net ∧
    (State.tagFailure t p ctr s).pending = s.pending ∧
    (State.tagFailure t p ctr s).pwr.straps = s.pwr.straps ∧
    (State.tagFailure t p ctr s).cur.lifecycle = s.cur.lifecycle ∧
    (State.tagFailure t p ctr s).cur.rootGen = s.cur.rootGen ∧
    (State.tagFailure t p ctr s).cur.returns = s.cur.returns ∧
    (State.tagFailure t p ctr s).cur.revoked = s.cur.revoked := by
  have k1 := State.rewindUntagged_kept
  unfold State.tagFailure
  dsimp only
  repeat' split
  all_goals simp [k1]

theorem State.restartPort_kept (t p : Nat) (s : State) :
    (State.restartPort t p s).member = s.member ∧
    (State.restartPort t p s).now = s.now ∧
    (State.restartPort t p s).unstored = s.unstored ∧
    (State.restartPort t p s).epo = s.epo ∧
    (State.restartPort t p s).cat = s.cat ∧
    (State.restartPort t p s).med = s.med ∧
    (State.restartPort t p s).coh = s.coh ∧
    (State.restartPort t p s).cry = s.cry ∧
    (State.restartPort t p s).flt = s.flt ∧
    (State.restartPort t p s).cur = s.cur ∧
    (State.restartPort t p s).thm = s.thm ∧
    (State.restartPort t p s).pwr = s.pwr ∧
    (State.restartPort t p s).pmc = s.pmc ∧
    (State.restartPort t p s).net = s.net ∧
    (State.restartPort t p s).freeCtr = s.freeCtr ∧
    (State.restartPort t p s).pending = s.pending := by
  unfold State.restartPort
  simp

@[simp] theorem State.writeBond_kept (a t v : Nat) (s : State) :
    (State.writeBond a t v s).member = s.member ∧
    (State.writeBond a t v s).now = s.now ∧
    (State.writeBond a t v s).epo = s.epo ∧
    (State.writeBond a t v s).cat = s.cat ∧
    (State.writeBond a t v s).med = s.med ∧
    (State.writeBond a t v s).coh = s.coh ∧
    (State.writeBond a t v s).cry = s.cry ∧
    (State.writeBond a t v s).flt = s.flt ∧
    (State.writeBond a t v s).cur = s.cur ∧
    (State.writeBond a t v s).thm = s.thm ∧
    (State.writeBond a t v s).pwr = s.pwr ∧
    (State.writeBond a t v s).pmc = s.pmc ∧
    (State.writeBond a t v s).net = s.net ∧
    (State.writeBond a t v s).freeCtr = s.freeCtr ∧
    (State.writeBond a t v s).pending = s.pending := by
  have k1 := State.restartPort_kept
  unfold State.writeBond
  simp [k1]

@[simp] theorem State.writePortCfg_kept (t p v : Nat) (s : State) :
    (State.writePortCfg t p v s).member = s.member ∧
    (State.writePortCfg t p v s).now = s.now ∧
    (State.writePortCfg t p v s).epo = s.epo ∧
    (State.writePortCfg t p v s).cat = s.cat ∧
    (State.writePortCfg t p v s).med = s.med ∧
    (State.writePortCfg t p v s).coh = s.coh ∧
    (State.writePortCfg t p v s).cry = s.cry ∧
    (State.writePortCfg t p v s).flt = s.flt ∧
    (State.writePortCfg t p v s).cur = s.cur ∧
    (State.writePortCfg t p v s).thm = s.thm ∧
    (State.writePortCfg t p v s).pwr = s.pwr ∧
    (State.writePortCfg t p v s).pmc = s.pmc ∧
    (State.writePortCfg t p v s).net = s.net ∧
    (State.writePortCfg t p v s).freeCtr = s.freeCtr ∧
    (State.writePortCfg t p v s).pending = s.pending := by
  have k1 := State.restartPort_kept
  unfold State.writePortCfg
  simp [k1]

@[simp] theorem State.writeKey_kept (t p i v : Nat) (s : State) :
    (State.writeKey t p i v s).member = s.member ∧
    (State.writeKey t p i v s).now = s.now ∧
    (State.writeKey t p i v s).unstored = s.unstored ∧
    (State.writeKey t p i v s).host = s.host ∧
    (State.writeKey t p i v s).epo = s.epo ∧
    (State.writeKey t p i v s).cat = s.cat ∧
    (State.writeKey t p i v s).med = s.med ∧
    (State.writeKey t p i v s).coh = s.coh ∧
    (State.writeKey t p i v s).rte = s.rte ∧
    (State.writeKey t p i v s).cap = s.cap ∧
    (State.writeKey t p i v s).cry = s.cry ∧
    (State.writeKey t p i v s).flt = s.flt ∧
    (State.writeKey t p i v s).anl = s.anl ∧
    (State.writeKey t p i v s).cur = s.cur ∧
    (State.writeKey t p i v s).thm = s.thm ∧
    (State.writeKey t p i v s).pwr = s.pwr ∧
    (State.writeKey t p i v s).pmc = s.pmc ∧
    (State.writeKey t p i v s).out = s.out ∧
    (State.writeKey t p i v s).net = s.net ∧
    (State.writeKey t p i v s).freeCtr = s.freeCtr ∧
    (State.writeKey t p i v s).pending = s.pending := by
  unfold State.writeKey
  simp

theorem State.startRekeyPort_kept (t p ctr : Nat) (s : State) :
    (State.startRekeyPort t p ctr s).member = s.member ∧
    (State.startRekeyPort t p ctr s).now = s.now ∧
    (State.startRekeyPort t p ctr s).regs = s.regs ∧
    (State.startRekeyPort t p ctr s).unstored = s.unstored ∧
    (State.startRekeyPort t p ctr s).host = s.host ∧
    (State.startRekeyPort t p ctr s).epo = s.epo ∧
    (State.startRekeyPort t p ctr s).cat = s.cat ∧
    (State.startRekeyPort t p ctr s).med = s.med ∧
    (State.startRekeyPort t p ctr s).coh = s.coh ∧
    (State.startRekeyPort t p ctr s).rte = s.rte ∧
    (State.startRekeyPort t p ctr s).cap = s.cap ∧
    (State.startRekeyPort t p ctr s).cry = s.cry ∧
    (State.startRekeyPort t p ctr s).flt = s.flt ∧
    (State.startRekeyPort t p ctr s).anl = s.anl ∧
    (State.startRekeyPort t p ctr s).cur = s.cur ∧
    (State.startRekeyPort t p ctr s).thm = s.thm ∧
    (State.startRekeyPort t p ctr s).pwr = s.pwr ∧
    (State.startRekeyPort t p ctr s).net = s.net ∧
    (State.startRekeyPort t p ctr s).pending = s.pending := by
  unfold State.startRekeyPort
  simp

@[simp] theorem State.rekeyPort_kept (t p : Nat) (s : State) :
    (State.rekeyPort t p s).member = s.member ∧
    (State.rekeyPort t p s).now = s.now ∧
    (State.rekeyPort t p s).regs = s.regs ∧
    (State.rekeyPort t p s).unstored = s.unstored ∧
    (State.rekeyPort t p s).host = s.host ∧
    (State.rekeyPort t p s).epo = s.epo ∧
    (State.rekeyPort t p s).cat = s.cat ∧
    (State.rekeyPort t p s).med = s.med ∧
    (State.rekeyPort t p s).coh = s.coh ∧
    (State.rekeyPort t p s).rte = s.rte ∧
    (State.rekeyPort t p s).cap = s.cap ∧
    (State.rekeyPort t p s).cry = s.cry ∧
    (State.rekeyPort t p s).flt = s.flt ∧
    (State.rekeyPort t p s).anl = s.anl ∧
    (State.rekeyPort t p s).cur = s.cur ∧
    (State.rekeyPort t p s).thm = s.thm ∧
    (State.rekeyPort t p s).pwr = s.pwr ∧
    (State.rekeyPort t p s).net = s.net ∧
    (State.rekeyPort t p s).pending = s.pending := by
  have k1 := State.startRekeyPort_kept
  unfold State.rekeyPort
  simp [k1]

@[simp] theorem State.answerEq_kept (t p lane : Nat) (good : Bool) (s : State) :
    (State.answerEq t p lane good s).member = s.member ∧
    (State.answerEq t p lane good s).now = s.now ∧
    (State.answerEq t p lane good s).regs = s.regs ∧
    (State.answerEq t p lane good s).unstored = s.unstored ∧
    (State.answerEq t p lane good s).host = s.host ∧
    (State.answerEq t p lane good s).epo = s.epo ∧
    (State.answerEq t p lane good s).cat = s.cat ∧
    (State.answerEq t p lane good s).med = s.med ∧
    (State.answerEq t p lane good s).coh = s.coh ∧
    (State.answerEq t p lane good s).lnk = s.lnk ∧
    (State.answerEq t p lane good s).rte = s.rte ∧
    (State.answerEq t p lane good s).cap = s.cap ∧
    (State.answerEq t p lane good s).cry = s.cry ∧
    (State.answerEq t p lane good s).flt = s.flt ∧
    (State.answerEq t p lane good s).anl = s.anl ∧
    (State.answerEq t p lane good s).cur = s.cur ∧
    (State.answerEq t p lane good s).thm = s.thm ∧
    (State.answerEq t p lane good s).pwr = s.pwr ∧
    (State.answerEq t p lane good s).pmc = s.pmc ∧
    (State.answerEq t p lane good s).net = s.net ∧
    (State.answerEq t p lane good s).pending = s.pending := by
  unfold State.answerEq
  simp

theorem State.eqDone_kept (t p : Nat) (s : State) :
    (State.eqDone t p s).member = s.member ∧
    (State.eqDone t p s).now = s.now ∧
    (State.eqDone t p s).unstored = s.unstored ∧
    (State.eqDone t p s).host = s.host ∧
    (State.eqDone t p s).epo = s.epo ∧
    (State.eqDone t p s).cat = s.cat ∧
    (State.eqDone t p s).med = s.med ∧
    (State.eqDone t p s).coh = s.coh ∧
    (State.eqDone t p s).rte = s.rte ∧
    (State.eqDone t p s).cap = s.cap ∧
    (State.eqDone t p s).cry = s.cry ∧
    (State.eqDone t p s).flt = s.flt ∧
    (State.eqDone t p s).anl = s.anl ∧
    (State.eqDone t p s).cur = s.cur ∧
    (State.eqDone t p s).thm = s.thm ∧
    (State.eqDone t p s).pwr = s.pwr ∧
    (State.eqDone t p s).pmc = s.pmc ∧
    (State.eqDone t p s).net = s.net ∧
    (State.eqDone t p s).pending = s.pending := by
  unfold State.eqDone
  simp

@[simp] theorem State.trainFrame_kept (t p lane : Nat) (ctl : BitVec 128) (inverted good : Bool) (s : State) :
    (State.trainFrame t p lane ctl inverted good s).member = s.member ∧
    (State.trainFrame t p lane ctl inverted good s).now = s.now ∧
    (State.trainFrame t p lane ctl inverted good s).unstored = s.unstored ∧
    (State.trainFrame t p lane ctl inverted good s).host = s.host ∧
    (State.trainFrame t p lane ctl inverted good s).epo = s.epo ∧
    (State.trainFrame t p lane ctl inverted good s).cat = s.cat ∧
    (State.trainFrame t p lane ctl inverted good s).med = s.med ∧
    (State.trainFrame t p lane ctl inverted good s).coh = s.coh ∧
    (State.trainFrame t p lane ctl inverted good s).rte = s.rte ∧
    (State.trainFrame t p lane ctl inverted good s).cap = s.cap ∧
    (State.trainFrame t p lane ctl inverted good s).cry = s.cry ∧
    (State.trainFrame t p lane ctl inverted good s).flt = s.flt ∧
    (State.trainFrame t p lane ctl inverted good s).anl = s.anl ∧
    (State.trainFrame t p lane ctl inverted good s).cur = s.cur ∧
    (State.trainFrame t p lane ctl inverted good s).thm = s.thm ∧
    (State.trainFrame t p lane ctl inverted good s).pwr = s.pwr ∧
    (State.trainFrame t p lane ctl inverted good s).pmc = s.pmc ∧
    (State.trainFrame t p lane ctl inverted good s).net = s.net ∧
    (State.trainFrame t p lane ctl inverted good s).pending = s.pending := by
  have k1 := State.eqDone_kept
  unfold State.trainFrame
  simp [k1]

@[simp] theorem State.sendConfig_kept (t p : Nat) (s : State) :
    (State.sendConfig t p s).member = s.member ∧
    (State.sendConfig t p s).now = s.now ∧
    (State.sendConfig t p s).regs = s.regs ∧
    (State.sendConfig t p s).unstored = s.unstored ∧
    (State.sendConfig t p s).host = s.host ∧
    (State.sendConfig t p s).epo = s.epo ∧
    (State.sendConfig t p s).cat = s.cat ∧
    (State.sendConfig t p s).med = s.med ∧
    (State.sendConfig t p s).coh = s.coh ∧
    (State.sendConfig t p s).rte = s.rte ∧
    (State.sendConfig t p s).cap = s.cap ∧
    (State.sendConfig t p s).cry = s.cry ∧
    (State.sendConfig t p s).flt = s.flt ∧
    (State.sendConfig t p s).anl = s.anl ∧
    (State.sendConfig t p s).cur = s.cur ∧
    (State.sendConfig t p s).thm = s.thm ∧
    (State.sendConfig t p s).pwr = s.pwr ∧
    (State.sendConfig t p s).pmc = s.pmc ∧
    (State.sendConfig t p s).net = s.net ∧
    (State.sendConfig t p s).freeCtr = s.freeCtr ∧
    (State.sendConfig t p s).pending = s.pending := by
  have k1 := State.putCtrl_kept
  unfold State.sendConfig
  simp [k1]

theorem State.enterConfig_kept (t p : Nat) (phase : Byte) (s : State) :
    (State.enterConfig t p phase s).member = s.member ∧
    (State.enterConfig t p phase s).now = s.now ∧
    (State.enterConfig t p phase s).regs = s.regs ∧
    (State.enterConfig t p phase s).unstored = s.unstored ∧
    (State.enterConfig t p phase s).host = s.host ∧
    (State.enterConfig t p phase s).epo = s.epo ∧
    (State.enterConfig t p phase s).cat = s.cat ∧
    (State.enterConfig t p phase s).med = s.med ∧
    (State.enterConfig t p phase s).coh = s.coh ∧
    (State.enterConfig t p phase s).rte = s.rte ∧
    (State.enterConfig t p phase s).cap = s.cap ∧
    (State.enterConfig t p phase s).cry = s.cry ∧
    (State.enterConfig t p phase s).flt = s.flt ∧
    (State.enterConfig t p phase s).anl = s.anl ∧
    (State.enterConfig t p phase s).cur = s.cur ∧
    (State.enterConfig t p phase s).thm = s.thm ∧
    (State.enterConfig t p phase s).pwr = s.pwr ∧
    (State.enterConfig t p phase s).pmc = s.pmc ∧
    (State.enterConfig t p phase s).net = s.net ∧
    (State.enterConfig t p phase s).pending = s.pending := by
  unfold State.enterConfig
  simp

@[simp] theorem State.marked_kept (t p lane : Nat) (phase : Byte) (s : State) :
    (State.marked t p lane phase s).member = s.member ∧
    (State.marked t p lane phase s).now = s.now ∧
    (State.marked t p lane phase s).regs = s.regs ∧
    (State.marked t p lane phase s).unstored = s.unstored ∧
    (State.marked t p lane phase s).host = s.host ∧
    (State.marked t p lane phase s).epo = s.epo ∧
    (State.marked t p lane phase s).cat = s.cat ∧
    (State.marked t p lane phase s).med = s.med ∧
    (State.marked t p lane phase s).coh = s.coh ∧
    (State.marked t p lane phase s).rte = s.rte ∧
    (State.marked t p lane phase s).cap = s.cap ∧
    (State.marked t p lane phase s).cry = s.cry ∧
    (State.marked t p lane phase s).flt = s.flt ∧
    (State.marked t p lane phase s).anl = s.anl ∧
    (State.marked t p lane phase s).cur = s.cur ∧
    (State.marked t p lane phase s).thm = s.thm ∧
    (State.marked t p lane phase s).pwr = s.pwr ∧
    (State.marked t p lane phase s).pmc = s.pmc ∧
    (State.marked t p lane phase s).net = s.net ∧
    (State.marked t p lane phase s).pending = s.pending := by
  have k1 := State.enterConfig_kept
  unfold State.marked
  simp [k1]

@[simp] theorem State.unmarked_kept (t p lane : Nat) (s : State) :
    (State.unmarked t p lane s).member = s.member ∧
    (State.unmarked t p lane s).now = s.now ∧
    (State.unmarked t p lane s).regs = s.regs ∧
    (State.unmarked t p lane s).unstored = s.unstored ∧
    (State.unmarked t p lane s).host = s.host ∧
    (State.unmarked t p lane s).epo = s.epo ∧
    (State.unmarked t p lane s).cat = s.cat ∧
    (State.unmarked t p lane s).med = s.med ∧
    (State.unmarked t p lane s).coh = s.coh ∧
    (State.unmarked t p lane s).rte = s.rte ∧
    (State.unmarked t p lane s).cap = s.cap ∧
    (State.unmarked t p lane s).cry = s.cry ∧
    (State.unmarked t p lane s).flt = s.flt ∧
    (State.unmarked t p lane s).anl = s.anl ∧
    (State.unmarked t p lane s).cur = s.cur ∧
    (State.unmarked t p lane s).thm = s.thm ∧
    (State.unmarked t p lane s).pwr = s.pwr ∧
    (State.unmarked t p lane s).pmc = s.pmc ∧
    (State.unmarked t p lane s).out = s.out ∧
    (State.unmarked t p lane s).net = s.net ∧
    (State.unmarked t p lane s).freeCtr = s.freeCtr ∧
    (State.unmarked t p lane s).pending = s.pending := by
  unfold State.unmarked
  simp

@[simp] theorem State.backToLock_kept (t p : Nat) (s : State) :
    (State.backToLock t p s).member = s.member ∧
    (State.backToLock t p s).now = s.now ∧
    (State.backToLock t p s).regs = s.regs ∧
    (State.backToLock t p s).unstored = s.unstored ∧
    (State.backToLock t p s).host = s.host ∧
    (State.backToLock t p s).epo = s.epo ∧
    (State.backToLock t p s).cat = s.cat ∧
    (State.backToLock t p s).med = s.med ∧
    (State.backToLock t p s).coh = s.coh ∧
    (State.backToLock t p s).rte = s.rte ∧
    (State.backToLock t p s).cap = s.cap ∧
    (State.backToLock t p s).cry = s.cry ∧
    (State.backToLock t p s).flt = s.flt ∧
    (State.backToLock t p s).anl = s.anl ∧
    (State.backToLock t p s).cur = s.cur ∧
    (State.backToLock t p s).thm = s.thm ∧
    (State.backToLock t p s).pwr = s.pwr ∧
    (State.backToLock t p s).pmc = s.pmc ∧
    (State.backToLock t p s).net = s.net ∧
    (State.backToLock t p s).freeCtr = s.freeCtr ∧
    (State.backToLock t p s).pending = s.pending := by
  unfold State.backToLock
  simp

@[simp] theorem State.activate_kept (t p : Nat) (s : State) :
    (State.activate t p s).member = s.member ∧
    (State.activate t p s).now = s.now ∧
    (State.activate t p s).regs = s.regs ∧
    (State.activate t p s).unstored = s.unstored ∧
    (State.activate t p s).host = s.host ∧
    (State.activate t p s).epo = s.epo ∧
    (State.activate t p s).cat = s.cat ∧
    (State.activate t p s).med = s.med ∧
    (State.activate t p s).coh = s.coh ∧
    (State.activate t p s).rte = s.rte ∧
    (State.activate t p s).cap = s.cap ∧
    (State.activate t p s).cry = s.cry ∧
    (State.activate t p s).flt = s.flt ∧
    (State.activate t p s).anl = s.anl ∧
    (State.activate t p s).cur = s.cur ∧
    (State.activate t p s).thm = s.thm ∧
    (State.activate t p s).pwr = s.pwr ∧
    (State.activate t p s).pmc = s.pmc ∧
    (State.activate t p s).out = s.out ∧
    (State.activate t p s).net = s.net ∧
    (State.activate t p s).freeCtr = s.freeCtr ∧
    (State.activate t p s).pending = s.pending := by
  unfold State.activate
  simp

theorem State.seqGap_kept (t p seq : Nat) (cap : Bool) (s : State) :
    (State.seqGap t p seq cap s).member = s.member ∧
    (State.seqGap t p seq cap s).now = s.now ∧
    (State.seqGap t p seq cap s).unstored = s.unstored ∧
    (State.seqGap t p seq cap s).epo = s.epo ∧
    (State.seqGap t p seq cap s).cat = s.cat ∧
    (State.seqGap t p seq cap s).med = s.med ∧
    (State.seqGap t p seq cap s).coh = s.coh ∧
    (State.seqGap t p seq cap s).rte = s.rte ∧
    (State.seqGap t p seq cap s).cry = s.cry ∧
    (State.seqGap t p seq cap s).flt = s.flt ∧
    (State.seqGap t p seq cap s).cur = s.cur ∧
    (State.seqGap t p seq cap s).thm = s.thm ∧
    (State.seqGap t p seq cap s).pwr = s.pwr ∧
    (State.seqGap t p seq cap s).net = s.net ∧
    (State.seqGap t p seq cap s).freeCtr = s.freeCtr ∧
    (State.seqGap t p seq cap s).pending = s.pending := by
  have k1 := State.sendLost_kept
  unfold State.seqGap
  simp [k1]

theorem State.takeCredit_kept (t p cls n : Nat) (s : State) :
    (State.takeCredit t p cls n s).member = s.member ∧
    (State.takeCredit t p cls n s).now = s.now ∧
    (State.takeCredit t p cls n s).regs = s.regs ∧
    (State.takeCredit t p cls n s).unstored = s.unstored ∧
    (State.takeCredit t p cls n s).host = s.host ∧
    (State.takeCredit t p cls n s).epo = s.epo ∧
    (State.takeCredit t p cls n s).cat = s.cat ∧
    (State.takeCredit t p cls n s).med = s.med ∧
    (State.takeCredit t p cls n s).coh = s.coh ∧
    (State.takeCredit t p cls n s).rte = s.rte ∧
    (State.takeCredit t p cls n s).cap = s.cap ∧
    (State.takeCredit t p cls n s).cry = s.cry ∧
    (State.takeCredit t p cls n s).flt = s.flt ∧
    (State.takeCredit t p cls n s).anl = s.anl ∧
    (State.takeCredit t p cls n s).cur = s.cur ∧
    (State.takeCredit t p cls n s).thm = s.thm ∧
    (State.takeCredit t p cls n s).pwr = s.pwr ∧
    (State.takeCredit t p cls n s).net = s.net ∧
    (State.takeCredit t p cls n s).freeCtr = s.freeCtr ∧
    (State.takeCredit t p cls n s).pending = s.pending := by
  have k1 := State.drainCtrl_kept
  unfold State.takeCredit
  dsimp only
  repeat' split
  all_goals simp [k1]

theorem State.header_kept (t p : Nat) (f : Flit) (k : FlitKind) (s : State) :
    (State.header t p f k s).member = s.member ∧
    (State.header t p f k s).now = s.now ∧
    (State.header t p f k s).unstored = s.unstored ∧
    (State.header t p f k s).epo = s.epo ∧
    (State.header t p f k s).cat = s.cat ∧
    (State.header t p f k s).med = s.med ∧
    (State.header t p f k s).coh = s.coh ∧
    (State.header t p f k s).rte = s.rte ∧
    (State.header t p f k s).cry = s.cry ∧
    (State.header t p f k s).flt = s.flt ∧
    (State.header t p f k s).cur = s.cur ∧
    (State.header t p f k s).thm = s.thm ∧
    (State.header t p f k s).pwr = s.pwr ∧
    (State.header t p f k s).net = s.net ∧
    (State.header t p f k s).freeCtr = s.freeCtr ∧
    (State.header t p f k s).pending = s.pending := by
  have k1 := State.seqGap_kept
  have k2 := State.takeCredit_kept
  unfold State.header
  simp [k1, k2]

theorem State.uncorrectable_kept (t p : Nat) (inj : Bool) (s : State) :
    (State.uncorrectable t p inj s).member = s.member ∧
    (State.uncorrectable t p inj s).now = s.now ∧
    (State.uncorrectable t p inj s).unstored = s.unstored ∧
    (State.uncorrectable t p inj s).cat = s.cat ∧
    (State.uncorrectable t p inj s).med = s.med ∧
    (State.uncorrectable t p inj s).coh = s.coh ∧
    (State.uncorrectable t p inj s).cry = s.cry ∧
    (State.uncorrectable t p inj s).thm = s.thm ∧
    (State.uncorrectable t p inj s).net = s.net ∧
    (State.uncorrectable t p inj s).pending = s.pending ∧
    (State.uncorrectable t p inj s).pwr.straps = s.pwr.straps ∧
    (State.uncorrectable t p inj s).cur.lifecycle = s.cur.lifecycle ∧
    (State.uncorrectable t p inj s).cur.rootGen = s.cur.rootGen ∧
    (State.uncorrectable t p inj s).cur.returns = s.cur.returns ∧
    (State.uncorrectable t p inj s).cur.revoked = s.cur.revoked := by
  unfold State.uncorrectable
  dsimp only
  repeat' split
  all_goals simp

theorem State.countFixed_kept (t p : Nat) (f : Flit) (s : State) :
    (State.countFixed t p f s).member = s.member ∧
    (State.countFixed t p f s).now = s.now ∧
    (State.countFixed t p f s).unstored = s.unstored ∧
    (State.countFixed t p f s).host = s.host ∧
    (State.countFixed t p f s).epo = s.epo ∧
    (State.countFixed t p f s).cat = s.cat ∧
    (State.countFixed t p f s).med = s.med ∧
    (State.countFixed t p f s).coh = s.coh ∧
    (State.countFixed t p f s).rte = s.rte ∧
    (State.countFixed t p f s).cap = s.cap ∧
    (State.countFixed t p f s).cry = s.cry ∧
    (State.countFixed t p f s).flt = s.flt ∧
    (State.countFixed t p f s).anl = s.anl ∧
    (State.countFixed t p f s).cur = s.cur ∧
    (State.countFixed t p f s).thm = s.thm ∧
    (State.countFixed t p f s).pwr = s.pwr ∧
    (State.countFixed t p f s).pmc = s.pmc ∧
    (State.countFixed t p f s).out = s.out ∧
    (State.countFixed t p f s).net = s.net ∧
    (State.countFixed t p f s).freeCtr = s.freeCtr ∧
    (State.countFixed t p f s).pending = s.pending := by
  unfold State.countFixed
  simp

theorem State.freeFlit_kept (t p : Nat) (b : BadFlit) (s : State) :
    (State.freeFlit t p b s).member = s.member ∧
    (State.freeFlit t p b s).now = s.now ∧
    (State.freeFlit t p b s).regs = s.regs ∧
    (State.freeFlit t p b s).unstored = s.unstored ∧
    (State.freeFlit t p b s).host = s.host ∧
    (State.freeFlit t p b s).epo = s.epo ∧
    (State.freeFlit t p b s).cat = s.cat ∧
    (State.freeFlit t p b s).med = s.med ∧
    (State.freeFlit t p b s).coh = s.coh ∧
    (State.freeFlit t p b s).rte = s.rte ∧
    (State.freeFlit t p b s).cap = s.cap ∧
    (State.freeFlit t p b s).cry = s.cry ∧
    (State.freeFlit t p b s).flt = s.flt ∧
    (State.freeFlit t p b s).anl = s.anl ∧
    (State.freeFlit t p b s).cur = s.cur ∧
    (State.freeFlit t p b s).thm = s.thm ∧
    (State.freeFlit t p b s).pwr = s.pwr ∧
    (State.freeFlit t p b s).pmc = s.pmc ∧
    (State.freeFlit t p b s).out = s.out ∧
    (State.freeFlit t p b s).net = s.net ∧
    (State.freeFlit t p b s).freeCtr = s.freeCtr ∧
    (State.freeFlit t p b s).pending = s.pending := by
  unfold State.freeFlit
  dsimp only
  repeat' split
  all_goals simp

theorem State.lostHeader_kept (t p : Nat) (s : State) :
    (State.lostHeader t p s).member = s.member ∧
    (State.lostHeader t p s).now = s.now ∧
    (State.lostHeader t p s).unstored = s.unstored ∧
    (State.lostHeader t p s).cat = s.cat ∧
    (State.lostHeader t p s).med = s.med ∧
    (State.lostHeader t p s).coh = s.coh ∧
    (State.lostHeader t p s).cry = s.cry ∧
    (State.lostHeader t p s).thm = s.thm ∧
    (State.lostHeader t p s).net = s.net ∧
    (State.lostHeader t p s).pending = s.pending ∧
    (State.lostHeader t p s).pwr.straps = s.pwr.straps ∧
    (State.lostHeader t p s).cur.lifecycle = s.cur.lifecycle ∧
    (State.lostHeader t p s).cur.rootGen = s.cur.rootGen ∧
    (State.lostHeader t p s).cur.returns = s.cur.returns ∧
    (State.lostHeader t p s).cur.revoked = s.cur.revoked := by
  have k1 := State.sendLost_kept
  unfold State.lostHeader
  dsimp only
  repeat' split
  all_goals simp [k1]

theorem State.badKind_kept (t p : Nat) (b : BadFlit) (seq : Nat) (s : State) :
    (State.badKind t p b seq s).member = s.member ∧
    (State.badKind t p b seq s).now = s.now ∧
    (State.badKind t p b seq s).unstored = s.unstored ∧
    (State.badKind t p b seq s).epo = s.epo ∧
    (State.badKind t p b seq s).cat = s.cat ∧
    (State.badKind t p b seq s).med = s.med ∧
    (State.badKind t p b seq s).coh = s.coh ∧
    (State.badKind t p b seq s).rte = s.rte ∧
    (State.badKind t p b seq s).cry = s.cry ∧
    (State.badKind t p b seq s).flt = s.flt ∧
    (State.badKind t p b seq s).cur = s.cur ∧
    (State.badKind t p b seq s).thm = s.thm ∧
    (State.badKind t p b seq s).pwr = s.pwr ∧
    (State.badKind t p b seq s).net = s.net ∧
    (State.badKind t p b seq s).freeCtr = s.freeCtr ∧
    (State.badKind t p b seq s).pending = s.pending := by
  have k1 := State.freeFlit_kept
  have k2 := State.sendLost_kept
  unfold State.badKind
  dsimp only
  repeat' split
  all_goals simp [k1, k2]

@[simp] theorem State.badFlit_kept (t p : Nat) (b : BadFlit) (s : State) :
    (State.badFlit t p b s).member = s.member ∧
    (State.badFlit t p b s).now = s.now ∧
    (State.badFlit t p b s).unstored = s.unstored ∧
    (State.badFlit t p b s).cat = s.cat ∧
    (State.badFlit t p b s).med = s.med ∧
    (State.badFlit t p b s).coh = s.coh ∧
    (State.badFlit t p b s).cry = s.cry ∧
    (State.badFlit t p b s).thm = s.thm ∧
    (State.badFlit t p b s).net = s.net ∧
    (State.badFlit t p b s).pending = s.pending ∧
    (State.badFlit t p b s).pwr.straps = s.pwr.straps ∧
    (State.badFlit t p b s).cur.lifecycle = s.cur.lifecycle ∧
    (State.badFlit t p b s).cur.rootGen = s.cur.rootGen ∧
    (State.badFlit t p b s).cur.returns = s.cur.returns ∧
    (State.badFlit t p b s).cur.revoked = s.cur.revoked := by
  have k1 := State.badKind_kept
  have k2 := State.lostHeader_kept
  have k3 := State.seqGap_kept
  have k4 := State.uncorrectable_kept
  unfold State.badFlit
  dsimp only
  repeat' split
  all_goals simp [k1, k2, k3, k4]

theorem State.lostFlit_kept (t p : Nat) (f : Flit) (b : BadFlit) (fresh : Nat) (inj : Bool) (s : State) :
    (State.lostFlit t p f b fresh inj s).member = s.member ∧
    (State.lostFlit t p f b fresh inj s).now = s.now ∧
    (State.lostFlit t p f b fresh inj s).unstored = s.unstored ∧
    (State.lostFlit t p f b fresh inj s).cat = s.cat ∧
    (State.lostFlit t p f b fresh inj s).med = s.med ∧
    (State.lostFlit t p f b fresh inj s).coh = s.coh ∧
    (State.lostFlit t p f b fresh inj s).cry = s.cry ∧
    (State.lostFlit t p f b fresh inj s).thm = s.thm ∧
    (State.lostFlit t p f b fresh inj s).net = s.net ∧
    (State.lostFlit t p f b fresh inj s).pending = s.pending ∧
    (State.lostFlit t p f b fresh inj s).pwr.straps = s.pwr.straps ∧
    (State.lostFlit t p f b fresh inj s).cur.lifecycle = s.cur.lifecycle ∧
    (State.lostFlit t p f b fresh inj s).cur.rootGen = s.cur.rootGen ∧
    (State.lostFlit t p f b fresh inj s).cur.returns = s.cur.returns ∧
    (State.lostFlit t p f b fresh inj s).cur.revoked = s.cur.revoked := by
  have k1 := State.badKind_kept
  have k2 := State.lostHeader_kept
  have k3 := State.uncorrectable_kept
  unfold State.lostFlit
  dsimp only
  repeat' split
  all_goals simp [k1, k2, k3]

theorem State.joinGroup_kept (t p : Nat) (f : Flit) (k : FlitKind) (s : State) :
    (State.joinGroup t p f k s).member = s.member ∧
    (State.joinGroup t p f k s).now = s.now ∧
    (State.joinGroup t p f k s).regs = s.regs ∧
    (State.joinGroup t p f k s).unstored = s.unstored ∧
    (State.joinGroup t p f k s).host = s.host ∧
    (State.joinGroup t p f k s).epo = s.epo ∧
    (State.joinGroup t p f k s).cat = s.cat ∧
    (State.joinGroup t p f k s).med = s.med ∧
    (State.joinGroup t p f k s).coh = s.coh ∧
    (State.joinGroup t p f k s).rte = s.rte ∧
    (State.joinGroup t p f k s).cap = s.cap ∧
    (State.joinGroup t p f k s).cry = s.cry ∧
    (State.joinGroup t p f k s).flt = s.flt ∧
    (State.joinGroup t p f k s).anl = s.anl ∧
    (State.joinGroup t p f k s).cur = s.cur ∧
    (State.joinGroup t p f k s).thm = s.thm ∧
    (State.joinGroup t p f k s).pwr = s.pwr ∧
    (State.joinGroup t p f k s).pmc = s.pmc ∧
    (State.joinGroup t p f k s).out = s.out ∧
    (State.joinGroup t p f k s).net = s.net ∧
    (State.joinGroup t p f k s).freeCtr = s.freeCtr ∧
    (State.joinGroup t p f k s).pending = s.pending := by
  unfold State.joinGroup
  repeat' split
  all_goals simp [*]

@[simp] theorem State.flit_member (t p : Nat) (f : Flit) (k : FlitKind) (bad : BadFlit) (act : Line → State → State) (s : State) (h : ∀ l s, (act l s).member = s.member) :
    (State.flit t p f k bad act s).member = s.member := by
  have k1 := State.countFixed_kept
  have k2 := State.freeFlit_kept
  have k3 := State.header_kept
  have k4 := State.joinGroup_kept
  have k5 := State.lostFlit_kept
  unfold State.flit
  dsimp only
  repeat' split
  all_goals simp [k1, k2, k3, k4, k5, h]

@[simp] theorem State.flit_now (t p : Nat) (f : Flit) (k : FlitKind) (bad : BadFlit) (act : Line → State → State) (s : State) (h : ∀ l s, (act l s).now = s.now) :
    (State.flit t p f k bad act s).now = s.now := by
  have k1 := State.countFixed_kept
  have k2 := State.freeFlit_kept
  have k3 := State.header_kept
  have k4 := State.joinGroup_kept
  have k5 := State.lostFlit_kept
  unfold State.flit
  dsimp only
  repeat' split
  all_goals simp [k1, k2, k3, k4, k5, h]

@[simp] theorem State.flit_unstored (t p : Nat) (f : Flit) (k : FlitKind) (bad : BadFlit) (act : Line → State → State) (s : State) (h : ∀ l s, (act l s).unstored = s.unstored) :
    (State.flit t p f k bad act s).unstored = s.unstored := by
  have k1 := State.countFixed_kept
  have k2 := State.freeFlit_kept
  have k3 := State.header_kept
  have k4 := State.joinGroup_kept
  have k5 := State.lostFlit_kept
  unfold State.flit
  dsimp only
  repeat' split
  all_goals simp [k1, k2, k3, k4, k5, h]

@[simp] theorem State.flit_cat (t p : Nat) (f : Flit) (k : FlitKind) (bad : BadFlit) (act : Line → State → State) (s : State) (h : ∀ l s, (act l s).cat = s.cat) :
    (State.flit t p f k bad act s).cat = s.cat := by
  have k1 := State.countFixed_kept
  have k2 := State.freeFlit_kept
  have k3 := State.header_kept
  have k4 := State.joinGroup_kept
  have k5 := State.lostFlit_kept
  unfold State.flit
  dsimp only
  repeat' split
  all_goals simp [k1, k2, k3, k4, k5, h]

@[simp] theorem State.flit_med (t p : Nat) (f : Flit) (k : FlitKind) (bad : BadFlit) (act : Line → State → State) (s : State) (h : ∀ l s, (act l s).med = s.med) :
    (State.flit t p f k bad act s).med = s.med := by
  have k1 := State.countFixed_kept
  have k2 := State.freeFlit_kept
  have k3 := State.header_kept
  have k4 := State.joinGroup_kept
  have k5 := State.lostFlit_kept
  unfold State.flit
  dsimp only
  repeat' split
  all_goals simp [k1, k2, k3, k4, k5, h]

@[simp] theorem State.flit_coh (t p : Nat) (f : Flit) (k : FlitKind) (bad : BadFlit) (act : Line → State → State) (s : State) (h : ∀ l s, (act l s).coh = s.coh) :
    (State.flit t p f k bad act s).coh = s.coh := by
  have k1 := State.countFixed_kept
  have k2 := State.freeFlit_kept
  have k3 := State.header_kept
  have k4 := State.joinGroup_kept
  have k5 := State.lostFlit_kept
  unfold State.flit
  dsimp only
  repeat' split
  all_goals simp [k1, k2, k3, k4, k5, h]

@[simp] theorem State.flit_cry (t p : Nat) (f : Flit) (k : FlitKind) (bad : BadFlit) (act : Line → State → State) (s : State) (h : ∀ l s, (act l s).cry = s.cry) :
    (State.flit t p f k bad act s).cry = s.cry := by
  have k1 := State.countFixed_kept
  have k2 := State.freeFlit_kept
  have k3 := State.header_kept
  have k4 := State.joinGroup_kept
  have k5 := State.lostFlit_kept
  unfold State.flit
  dsimp only
  repeat' split
  all_goals simp [k1, k2, k3, k4, k5, h]

@[simp] theorem State.flit_thm (t p : Nat) (f : Flit) (k : FlitKind) (bad : BadFlit) (act : Line → State → State) (s : State) (h : ∀ l s, (act l s).thm = s.thm) :
    (State.flit t p f k bad act s).thm = s.thm := by
  have k1 := State.countFixed_kept
  have k2 := State.freeFlit_kept
  have k3 := State.header_kept
  have k4 := State.joinGroup_kept
  have k5 := State.lostFlit_kept
  unfold State.flit
  dsimp only
  repeat' split
  all_goals simp [k1, k2, k3, k4, k5, h]

@[simp] theorem State.flit_net (t p : Nat) (f : Flit) (k : FlitKind) (bad : BadFlit) (act : Line → State → State) (s : State) (h : ∀ l s, (act l s).net = s.net) :
    (State.flit t p f k bad act s).net = s.net := by
  have k1 := State.countFixed_kept
  have k2 := State.freeFlit_kept
  have k3 := State.header_kept
  have k4 := State.joinGroup_kept
  have k5 := State.lostFlit_kept
  unfold State.flit
  dsimp only
  repeat' split
  all_goals simp [k1, k2, k3, k4, k5, h]

@[simp] theorem State.flit_pending (t p : Nat) (f : Flit) (k : FlitKind) (bad : BadFlit) (act : Line → State → State) (s : State) (h : ∀ l s, (act l s).pending = s.pending) :
    (State.flit t p f k bad act s).pending = s.pending := by
  have k1 := State.countFixed_kept
  have k2 := State.freeFlit_kept
  have k3 := State.header_kept
  have k4 := State.joinGroup_kept
  have k5 := State.lostFlit_kept
  unfold State.flit
  dsimp only
  repeat' split
  all_goals simp [k1, k2, k3, k4, k5, h]

@[simp] theorem State.flit_pwr_straps (t p : Nat) (f : Flit) (k : FlitKind) (bad : BadFlit) (act : Line → State → State) (s : State) (h : ∀ l s, (act l s).pwr.straps = s.pwr.straps) :
    (State.flit t p f k bad act s).pwr.straps = s.pwr.straps := by
  have k1 := State.countFixed_kept
  have k2 := State.freeFlit_kept
  have k3 := State.header_kept
  have k4 := State.joinGroup_kept
  have k5 := State.lostFlit_kept
  unfold State.flit
  dsimp only
  repeat' split
  all_goals simp [k1, k2, k3, k4, k5, h]

@[simp] theorem State.flit_cur_lifecycle (t p : Nat) (f : Flit) (k : FlitKind) (bad : BadFlit) (act : Line → State → State) (s : State) (h : ∀ l s, (act l s).cur.lifecycle = s.cur.lifecycle) :
    (State.flit t p f k bad act s).cur.lifecycle = s.cur.lifecycle := by
  have k1 := State.countFixed_kept
  have k2 := State.freeFlit_kept
  have k3 := State.header_kept
  have k4 := State.joinGroup_kept
  have k5 := State.lostFlit_kept
  unfold State.flit
  dsimp only
  repeat' split
  all_goals simp [k1, k2, k3, k4, k5, h]

@[simp] theorem State.flit_cur_rootGen (t p : Nat) (f : Flit) (k : FlitKind) (bad : BadFlit) (act : Line → State → State) (s : State) (h : ∀ l s, (act l s).cur.rootGen = s.cur.rootGen) :
    (State.flit t p f k bad act s).cur.rootGen = s.cur.rootGen := by
  have k1 := State.countFixed_kept
  have k2 := State.freeFlit_kept
  have k3 := State.header_kept
  have k4 := State.joinGroup_kept
  have k5 := State.lostFlit_kept
  unfold State.flit
  dsimp only
  repeat' split
  all_goals simp [k1, k2, k3, k4, k5, h]

@[simp] theorem State.flit_cur_returns (t p : Nat) (f : Flit) (k : FlitKind) (bad : BadFlit) (act : Line → State → State) (s : State) (h : ∀ l s, (act l s).cur.returns = s.cur.returns) :
    (State.flit t p f k bad act s).cur.returns = s.cur.returns := by
  have k1 := State.countFixed_kept
  have k2 := State.freeFlit_kept
  have k3 := State.header_kept
  have k4 := State.joinGroup_kept
  have k5 := State.lostFlit_kept
  unfold State.flit
  dsimp only
  repeat' split
  all_goals simp [k1, k2, k3, k4, k5, h]

@[simp] theorem State.flit_cur_revoked (t p : Nat) (f : Flit) (k : FlitKind) (bad : BadFlit) (act : Line → State → State) (s : State) (h : ∀ l s, (act l s).cur.revoked = s.cur.revoked) :
    (State.flit t p f k bad act s).cur.revoked = s.cur.revoked := by
  have k1 := State.countFixed_kept
  have k2 := State.freeFlit_kept
  have k3 := State.header_kept
  have k4 := State.joinGroup_kept
  have k5 := State.lostFlit_kept
  unfold State.flit
  dsimp only
  repeat' split
  all_goals simp [k1, k2, k3, k4, k5, h]

@[simp] theorem State.ofSubtype_member (t p n : Nat) (f : Flit) (act : State → State) (s : State) (h : ∀ s, (act s).member = s.member) :
    (State.ofSubtype t p n f act s).member = s.member := by
  unfold State.ofSubtype
  split
  · exact h s
  · simp

@[simp] theorem State.ofSubtype_now (t p n : Nat) (f : Flit) (act : State → State) (s : State) (h : ∀ s, (act s).now = s.now) :
    (State.ofSubtype t p n f act s).now = s.now := by
  unfold State.ofSubtype
  split
  · exact h s
  · simp

@[simp] theorem State.ofSubtype_unstored (t p n : Nat) (f : Flit) (act : State → State) (s : State) (h : ∀ s, (act s).unstored = s.unstored) :
    (State.ofSubtype t p n f act s).unstored = s.unstored := by
  unfold State.ofSubtype
  split
  · exact h s
  · simp

@[simp] theorem State.ofSubtype_host (t p n : Nat) (f : Flit) (act : State → State) (s : State) (h : ∀ s, (act s).host = s.host) :
    (State.ofSubtype t p n f act s).host = s.host := by
  unfold State.ofSubtype
  split
  · exact h s
  · simp

@[simp] theorem State.ofSubtype_epo (t p n : Nat) (f : Flit) (act : State → State) (s : State) (h : ∀ s, (act s).epo = s.epo) :
    (State.ofSubtype t p n f act s).epo = s.epo := by
  unfold State.ofSubtype
  split
  · exact h s
  · simp

@[simp] theorem State.ofSubtype_cat (t p n : Nat) (f : Flit) (act : State → State) (s : State) (h : ∀ s, (act s).cat = s.cat) :
    (State.ofSubtype t p n f act s).cat = s.cat := by
  unfold State.ofSubtype
  split
  · exact h s
  · simp

@[simp] theorem State.ofSubtype_med (t p n : Nat) (f : Flit) (act : State → State) (s : State) (h : ∀ s, (act s).med = s.med) :
    (State.ofSubtype t p n f act s).med = s.med := by
  unfold State.ofSubtype
  split
  · exact h s
  · simp

@[simp] theorem State.ofSubtype_coh (t p n : Nat) (f : Flit) (act : State → State) (s : State) (h : ∀ s, (act s).coh = s.coh) :
    (State.ofSubtype t p n f act s).coh = s.coh := by
  unfold State.ofSubtype
  split
  · exact h s
  · simp

@[simp] theorem State.ofSubtype_lnk (t p n : Nat) (f : Flit) (act : State → State) (s : State) (h : ∀ s, (act s).lnk = s.lnk) :
    (State.ofSubtype t p n f act s).lnk = s.lnk := by
  unfold State.ofSubtype
  split
  · exact h s
  · simp

@[simp] theorem State.ofSubtype_rte (t p n : Nat) (f : Flit) (act : State → State) (s : State) (h : ∀ s, (act s).rte = s.rte) :
    (State.ofSubtype t p n f act s).rte = s.rte := by
  unfold State.ofSubtype
  split
  · exact h s
  · simp

@[simp] theorem State.ofSubtype_cap (t p n : Nat) (f : Flit) (act : State → State) (s : State) (h : ∀ s, (act s).cap = s.cap) :
    (State.ofSubtype t p n f act s).cap = s.cap := by
  unfold State.ofSubtype
  split
  · exact h s
  · simp

@[simp] theorem State.ofSubtype_cry (t p n : Nat) (f : Flit) (act : State → State) (s : State) (h : ∀ s, (act s).cry = s.cry) :
    (State.ofSubtype t p n f act s).cry = s.cry := by
  unfold State.ofSubtype
  split
  · exact h s
  · simp

@[simp] theorem State.ofSubtype_flt (t p n : Nat) (f : Flit) (act : State → State) (s : State) (h : ∀ s, (act s).flt = s.flt) :
    (State.ofSubtype t p n f act s).flt = s.flt := by
  unfold State.ofSubtype
  split
  · exact h s
  · simp

@[simp] theorem State.ofSubtype_anl (t p n : Nat) (f : Flit) (act : State → State) (s : State) (h : ∀ s, (act s).anl = s.anl) :
    (State.ofSubtype t p n f act s).anl = s.anl := by
  unfold State.ofSubtype
  split
  · exact h s
  · simp

@[simp] theorem State.ofSubtype_cur (t p n : Nat) (f : Flit) (act : State → State) (s : State) (h : ∀ s, (act s).cur = s.cur) :
    (State.ofSubtype t p n f act s).cur = s.cur := by
  unfold State.ofSubtype
  split
  · exact h s
  · simp

@[simp] theorem State.ofSubtype_thm (t p n : Nat) (f : Flit) (act : State → State) (s : State) (h : ∀ s, (act s).thm = s.thm) :
    (State.ofSubtype t p n f act s).thm = s.thm := by
  unfold State.ofSubtype
  split
  · exact h s
  · simp

@[simp] theorem State.ofSubtype_pwr (t p n : Nat) (f : Flit) (act : State → State) (s : State) (h : ∀ s, (act s).pwr = s.pwr) :
    (State.ofSubtype t p n f act s).pwr = s.pwr := by
  unfold State.ofSubtype
  split
  · exact h s
  · simp

@[simp] theorem State.ofSubtype_pmc (t p n : Nat) (f : Flit) (act : State → State) (s : State) (h : ∀ s, (act s).pmc = s.pmc) :
    (State.ofSubtype t p n f act s).pmc = s.pmc := by
  unfold State.ofSubtype
  split
  · exact h s
  · simp

@[simp] theorem State.ofSubtype_out (t p n : Nat) (f : Flit) (act : State → State) (s : State) (h : ∀ s, (act s).out = s.out) :
    (State.ofSubtype t p n f act s).out = s.out := by
  unfold State.ofSubtype
  split
  · exact h s
  · simp

@[simp] theorem State.ofSubtype_net (t p n : Nat) (f : Flit) (act : State → State) (s : State) (h : ∀ s, (act s).net = s.net) :
    (State.ofSubtype t p n f act s).net = s.net := by
  unfold State.ofSubtype
  split
  · exact h s
  · simp

@[simp] theorem State.ofSubtype_freeCtr (t p n : Nat) (f : Flit) (act : State → State) (s : State) (h : ∀ s, (act s).freeCtr = s.freeCtr) :
    (State.ofSubtype t p n f act s).freeCtr = s.freeCtr := by
  unfold State.ofSubtype
  split
  · exact h s
  · simp

@[simp] theorem State.ofSubtype_pending (t p n : Nat) (f : Flit) (act : State → State) (s : State) (h : ∀ s, (act s).pending = s.pending) :
    (State.ofSubtype t p n f act s).pending = s.pending := by
  unfold State.ofSubtype
  split
  · exact h s
  · simp

@[simp] theorem State.configFlit_member (t p : Nat) (f : Flit) (act : State → State) (s : State) (h : ∀ s, (act s).member = s.member) :
    (State.configFlit t p f act s).member = s.member := by
  have k1 := State.countFixed_kept
  unfold State.configFlit
  dsimp only
  repeat' split
  all_goals simp [k1, h]

@[simp] theorem State.configFlit_now (t p : Nat) (f : Flit) (act : State → State) (s : State) (h : ∀ s, (act s).now = s.now) :
    (State.configFlit t p f act s).now = s.now := by
  have k1 := State.countFixed_kept
  unfold State.configFlit
  dsimp only
  repeat' split
  all_goals simp [k1, h]

@[simp] theorem State.configFlit_unstored (t p : Nat) (f : Flit) (act : State → State) (s : State) (h : ∀ s, (act s).unstored = s.unstored) :
    (State.configFlit t p f act s).unstored = s.unstored := by
  have k1 := State.countFixed_kept
  unfold State.configFlit
  dsimp only
  repeat' split
  all_goals simp [k1, h]

@[simp] theorem State.configFlit_host (t p : Nat) (f : Flit) (act : State → State) (s : State) (h : ∀ s, (act s).host = s.host) :
    (State.configFlit t p f act s).host = s.host := by
  have k1 := State.countFixed_kept
  unfold State.configFlit
  dsimp only
  repeat' split
  all_goals simp [k1, h]

@[simp] theorem State.configFlit_epo (t p : Nat) (f : Flit) (act : State → State) (s : State) (h : ∀ s, (act s).epo = s.epo) :
    (State.configFlit t p f act s).epo = s.epo := by
  have k1 := State.countFixed_kept
  unfold State.configFlit
  dsimp only
  repeat' split
  all_goals simp [k1, h]

@[simp] theorem State.configFlit_cat (t p : Nat) (f : Flit) (act : State → State) (s : State) (h : ∀ s, (act s).cat = s.cat) :
    (State.configFlit t p f act s).cat = s.cat := by
  have k1 := State.countFixed_kept
  unfold State.configFlit
  dsimp only
  repeat' split
  all_goals simp [k1, h]

@[simp] theorem State.configFlit_med (t p : Nat) (f : Flit) (act : State → State) (s : State) (h : ∀ s, (act s).med = s.med) :
    (State.configFlit t p f act s).med = s.med := by
  have k1 := State.countFixed_kept
  unfold State.configFlit
  dsimp only
  repeat' split
  all_goals simp [k1, h]

@[simp] theorem State.configFlit_coh (t p : Nat) (f : Flit) (act : State → State) (s : State) (h : ∀ s, (act s).coh = s.coh) :
    (State.configFlit t p f act s).coh = s.coh := by
  have k1 := State.countFixed_kept
  unfold State.configFlit
  dsimp only
  repeat' split
  all_goals simp [k1, h]

@[simp] theorem State.configFlit_rte (t p : Nat) (f : Flit) (act : State → State) (s : State) (h : ∀ s, (act s).rte = s.rte) :
    (State.configFlit t p f act s).rte = s.rte := by
  have k1 := State.countFixed_kept
  unfold State.configFlit
  dsimp only
  repeat' split
  all_goals simp [k1, h]

@[simp] theorem State.configFlit_cap (t p : Nat) (f : Flit) (act : State → State) (s : State) (h : ∀ s, (act s).cap = s.cap) :
    (State.configFlit t p f act s).cap = s.cap := by
  have k1 := State.countFixed_kept
  unfold State.configFlit
  dsimp only
  repeat' split
  all_goals simp [k1, h]

@[simp] theorem State.configFlit_cry (t p : Nat) (f : Flit) (act : State → State) (s : State) (h : ∀ s, (act s).cry = s.cry) :
    (State.configFlit t p f act s).cry = s.cry := by
  have k1 := State.countFixed_kept
  unfold State.configFlit
  dsimp only
  repeat' split
  all_goals simp [k1, h]

@[simp] theorem State.configFlit_flt (t p : Nat) (f : Flit) (act : State → State) (s : State) (h : ∀ s, (act s).flt = s.flt) :
    (State.configFlit t p f act s).flt = s.flt := by
  have k1 := State.countFixed_kept
  unfold State.configFlit
  dsimp only
  repeat' split
  all_goals simp [k1, h]

@[simp] theorem State.configFlit_anl (t p : Nat) (f : Flit) (act : State → State) (s : State) (h : ∀ s, (act s).anl = s.anl) :
    (State.configFlit t p f act s).anl = s.anl := by
  have k1 := State.countFixed_kept
  unfold State.configFlit
  dsimp only
  repeat' split
  all_goals simp [k1, h]

@[simp] theorem State.configFlit_cur (t p : Nat) (f : Flit) (act : State → State) (s : State) (h : ∀ s, (act s).cur = s.cur) :
    (State.configFlit t p f act s).cur = s.cur := by
  have k1 := State.countFixed_kept
  unfold State.configFlit
  dsimp only
  repeat' split
  all_goals simp [k1, h]

@[simp] theorem State.configFlit_thm (t p : Nat) (f : Flit) (act : State → State) (s : State) (h : ∀ s, (act s).thm = s.thm) :
    (State.configFlit t p f act s).thm = s.thm := by
  have k1 := State.countFixed_kept
  unfold State.configFlit
  dsimp only
  repeat' split
  all_goals simp [k1, h]

@[simp] theorem State.configFlit_pwr (t p : Nat) (f : Flit) (act : State → State) (s : State) (h : ∀ s, (act s).pwr = s.pwr) :
    (State.configFlit t p f act s).pwr = s.pwr := by
  have k1 := State.countFixed_kept
  unfold State.configFlit
  dsimp only
  repeat' split
  all_goals simp [k1, h]

@[simp] theorem State.configFlit_out (t p : Nat) (f : Flit) (act : State → State) (s : State) (h : ∀ s, (act s).out = s.out) :
    (State.configFlit t p f act s).out = s.out := by
  have k1 := State.countFixed_kept
  unfold State.configFlit
  dsimp only
  repeat' split
  all_goals simp [k1, h]

@[simp] theorem State.configFlit_net (t p : Nat) (f : Flit) (act : State → State) (s : State) (h : ∀ s, (act s).net = s.net) :
    (State.configFlit t p f act s).net = s.net := by
  have k1 := State.countFixed_kept
  unfold State.configFlit
  dsimp only
  repeat' split
  all_goals simp [k1, h]

@[simp] theorem State.configFlit_freeCtr (t p : Nat) (f : Flit) (act : State → State) (s : State) (h : ∀ s, (act s).freeCtr = s.freeCtr) :
    (State.configFlit t p f act s).freeCtr = s.freeCtr := by
  have k1 := State.countFixed_kept
  unfold State.configFlit
  dsimp only
  repeat' split
  all_goals simp [k1, h]

@[simp] theorem State.configFlit_pending (t p : Nat) (f : Flit) (act : State → State) (s : State) (h : ∀ s, (act s).pending = s.pending) :
    (State.configFlit t p f act s).pending = s.pending := by
  have k1 := State.countFixed_kept
  unfold State.configFlit
  dsimp only
  repeat' split
  all_goals simp [k1, h]

@[simp] theorem State.configured_kept (t p seq : Nat) (b : ConfigBody) (s : State) :
    (State.configured t p seq b s).member = s.member ∧
    (State.configured t p seq b s).now = s.now ∧
    (State.configured t p seq b s).regs = s.regs ∧
    (State.configured t p seq b s).unstored = s.unstored ∧
    (State.configured t p seq b s).host = s.host ∧
    (State.configured t p seq b s).epo = s.epo ∧
    (State.configured t p seq b s).cat = s.cat ∧
    (State.configured t p seq b s).med = s.med ∧
    (State.configured t p seq b s).coh = s.coh ∧
    (State.configured t p seq b s).rte = s.rte ∧
    (State.configured t p seq b s).cap = s.cap ∧
    (State.configured t p seq b s).cry = s.cry ∧
    (State.configured t p seq b s).flt = s.flt ∧
    (State.configured t p seq b s).anl = s.anl ∧
    (State.configured t p seq b s).cur = s.cur ∧
    (State.configured t p seq b s).thm = s.thm ∧
    (State.configured t p seq b s).pwr = s.pwr ∧
    (State.configured t p seq b s).net = s.net ∧
    (State.configured t p seq b s).freeCtr = s.freeCtr ∧
    (State.configured t p seq b s).pending = s.pending := by
  unfold State.configured
  simp

@[simp] theorem State.tagged_kept (t p : Nat) (l : Line) (s : State) :
    (State.tagged t p l s).member = s.member ∧
    (State.tagged t p l s).now = s.now ∧
    (State.tagged t p l s).unstored = s.unstored ∧
    (State.tagged t p l s).cat = s.cat ∧
    (State.tagged t p l s).med = s.med ∧
    (State.tagged t p l s).coh = s.coh ∧
    (State.tagged t p l s).cry = s.cry ∧
    (State.tagged t p l s).thm = s.thm ∧
    (State.tagged t p l s).net = s.net ∧
    (State.tagged t p l s).pending = s.pending ∧
    (State.tagged t p l s).pwr.straps = s.pwr.straps ∧
    (State.tagged t p l s).cur.lifecycle = s.cur.lifecycle ∧
    (State.tagged t p l s).cur.rootGen = s.cur.rootGen ∧
    (State.tagged t p l s).cur.returns = s.cur.returns ∧
    (State.tagged t p l s).cur.revoked = s.cur.revoked := by
  unfold State.tagged
  dsimp only
  repeat' split
  all_goals simp

@[simp] theorem State.rekeyed_kept (t p : Nat) (counter nonce : DWord) (s : State) :
    (State.rekeyed t p counter nonce s).member = s.member ∧
    (State.rekeyed t p counter nonce s).now = s.now ∧
    (State.rekeyed t p counter nonce s).regs = s.regs ∧
    (State.rekeyed t p counter nonce s).unstored = s.unstored ∧
    (State.rekeyed t p counter nonce s).host = s.host ∧
    (State.rekeyed t p counter nonce s).epo = s.epo ∧
    (State.rekeyed t p counter nonce s).cat = s.cat ∧
    (State.rekeyed t p counter nonce s).med = s.med ∧
    (State.rekeyed t p counter nonce s).coh = s.coh ∧
    (State.rekeyed t p counter nonce s).rte = s.rte ∧
    (State.rekeyed t p counter nonce s).cap = s.cap ∧
    (State.rekeyed t p counter nonce s).cry = s.cry ∧
    (State.rekeyed t p counter nonce s).flt = s.flt ∧
    (State.rekeyed t p counter nonce s).anl = s.anl ∧
    (State.rekeyed t p counter nonce s).cur = s.cur ∧
    (State.rekeyed t p counter nonce s).thm = s.thm ∧
    (State.rekeyed t p counter nonce s).pwr = s.pwr ∧
    (State.rekeyed t p counter nonce s).net = s.net ∧
    (State.rekeyed t p counter nonce s).pending = s.pending := by
  have k1 := State.startRekeyPort_kept
  unfold State.rekeyed
  dsimp only
  repeat' split
  all_goals simp [k1]

@[simp] theorem State.setPass_kept (t n : Nat) (closed : Bool) (s : State) :
    (State.setPass t n closed s).member = s.member ∧
    (State.setPass t n closed s).now = s.now ∧
    (State.setPass t n closed s).regs = s.regs ∧
    (State.setPass t n closed s).unstored = s.unstored ∧
    (State.setPass t n closed s).host = s.host ∧
    (State.setPass t n closed s).epo = s.epo ∧
    (State.setPass t n closed s).cat = s.cat ∧
    (State.setPass t n closed s).med = s.med ∧
    (State.setPass t n closed s).coh = s.coh ∧
    (State.setPass t n closed s).lnk = s.lnk ∧
    (State.setPass t n closed s).rte = s.rte ∧
    (State.setPass t n closed s).cap = s.cap ∧
    (State.setPass t n closed s).flt = s.flt ∧
    (State.setPass t n closed s).anl = s.anl ∧
    (State.setPass t n closed s).cur = s.cur ∧
    (State.setPass t n closed s).thm = s.thm ∧
    (State.setPass t n closed s).pwr = s.pwr ∧
    (State.setPass t n closed s).pmc = s.pmc ∧
    (State.setPass t n closed s).out = s.out ∧
    (State.setPass t n closed s).net = s.net ∧
    (State.setPass t n closed s).freeCtr = s.freeCtr ∧
    (State.setPass t n closed s).pending = s.pending := by
  unfold State.setPass
  simp

theorem State.closePasses_kept (t : Nat) (l : List Nat) (items : Nat) (writes orderly side : Bool) (s : State) :
    (State.closePasses t l items writes orderly side s).member = s.member ∧
    (State.closePasses t l items writes orderly side s).now = s.now ∧
    (State.closePasses t l items writes orderly side s).unstored = s.unstored ∧
    (State.closePasses t l items writes orderly side s).cat = s.cat ∧
    (State.closePasses t l items writes orderly side s).med = s.med ∧
    (State.closePasses t l items writes orderly side s).coh = s.coh ∧
    (State.closePasses t l items writes orderly side s).lnk = s.lnk ∧
    (State.closePasses t l items writes orderly side s).rte = s.rte ∧
    (State.closePasses t l items writes orderly side s).thm = s.thm ∧
    (State.closePasses t l items writes orderly side s).net = s.net ∧
    (State.closePasses t l items writes orderly side s).pending = s.pending ∧
    (State.closePasses t l items writes orderly side s).pwr.straps = s.pwr.straps ∧
    (State.closePasses t l items writes orderly side s).cur.lifecycle = s.cur.lifecycle ∧
    (State.closePasses t l items writes orderly side s).cur.rootGen = s.cur.rootGen ∧
    (State.closePasses t l items writes orderly side s).cur.returns = s.cur.returns ∧
    (State.closePasses t l items writes orderly side s).cur.revoked = s.cur.revoked := by
  unfold State.closePasses
  simp

theorem State.rescueRead_kept (t c line : Nat) (s : State) :
    (State.rescueRead t c line s).member = s.member ∧
    (State.rescueRead t c line s).now = s.now ∧
    (State.rescueRead t c line s).unstored = s.unstored ∧
    (State.rescueRead t c line s).lnk = s.lnk ∧
    (State.rescueRead t c line s).rte = s.rte ∧
    (State.rescueRead t c line s).thm = s.thm ∧
    (State.rescueRead t c line s).pending = s.pending ∧
    (State.rescueRead t c line s).pwr.straps = s.pwr.straps ∧
    (State.rescueRead t c line s).cur.lifecycle = s.cur.lifecycle ∧
    (State.rescueRead t c line s).cur.rootGen = s.cur.rootGen ∧
    (State.rescueRead t c line s).cur.returns = s.cur.returns ∧
    (State.rescueRead t c line s).cur.revoked = s.cur.revoked := by
  have k1 := State.ask_kept
  have k2 := State.settleRead_kept
  unfold State.rescueRead
  dsimp only
  repeat' split
  all_goals simp [k1, k2]

theorem State.resetChannel_kept (t c : Nat) (s : State) :
    (State.resetChannel t c s).member = s.member ∧
    (State.resetChannel t c s).now = s.now ∧
    (State.resetChannel t c s).unstored = s.unstored ∧
    (State.resetChannel t c s).lnk = s.lnk ∧
    (State.resetChannel t c s).rte = s.rte ∧
    (State.resetChannel t c s).thm = s.thm ∧
    (State.resetChannel t c s).pending = s.pending ∧
    (State.resetChannel t c s).pwr.straps = s.pwr.straps ∧
    (State.resetChannel t c s).cur.lifecycle = s.cur.lifecycle ∧
    (State.resetChannel t c s).cur.rootGen = s.cur.rootGen ∧
    (State.resetChannel t c s).cur.returns = s.cur.returns ∧
    (State.resetChannel t c s).cur.revoked = s.cur.revoked := by
  have k1 := State.rescueRead_kept
  unfold State.resetChannel
  simp [k1]

theorem State.resetPortIsland_kept (t : Nat) (s : State) :
    (State.resetPortIsland t s).member = s.member ∧
    (State.resetPortIsland t s).now = s.now ∧
    (State.resetPortIsland t s).unstored = s.unstored ∧
    (State.resetPortIsland t s).epo = s.epo ∧
    (State.resetPortIsland t s).cat = s.cat ∧
    (State.resetPortIsland t s).med = s.med ∧
    (State.resetPortIsland t s).coh = s.coh ∧
    (State.resetPortIsland t s).cry = s.cry ∧
    (State.resetPortIsland t s).flt = s.flt ∧
    (State.resetPortIsland t s).cur = s.cur ∧
    (State.resetPortIsland t s).thm = s.thm ∧
    (State.resetPortIsland t s).pwr = s.pwr ∧
    (State.resetPortIsland t s).pmc = s.pmc ∧
    (State.resetPortIsland t s).net = s.net ∧
    (State.resetPortIsland t s).freeCtr = s.freeCtr ∧
    (State.resetPortIsland t s).pending = s.pending := by
  have k1 := State.loseFifo_kept
  unfold State.resetPortIsland
  simp [k1]

theorem State.resetUnit_kept (r : PassReset) (s : State) :
    (State.resetUnit r s).member = s.member ∧
    (State.resetUnit r s).now = s.now ∧
    (State.resetUnit r s).unstored = s.unstored ∧
    (State.resetUnit r s).thm = s.thm ∧
    (State.resetUnit r s).pending = s.pending ∧
    (State.resetUnit r s).pwr.straps = s.pwr.straps ∧
    (State.resetUnit r s).cur.lifecycle = s.cur.lifecycle ∧
    (State.resetUnit r s).cur.rootGen = s.cur.rootGen ∧
    (State.resetUnit r s).cur.returns = s.cur.returns ∧
    (State.resetUnit r s).cur.revoked = s.cur.revoked := by
  have k1 := State.resetChannel_kept
  have k2 := State.resetPortIsland_kept
  unfold State.resetUnit
  repeat' split
  all_goals simp [k1, k2, *]

theorem State.disarm_kept (r : PassReset) (s : State) :
    (State.disarm r s).member = s.member ∧
    (State.disarm r s).now = s.now ∧
    (State.disarm r s).regs = s.regs ∧
    (State.disarm r s).unstored = s.unstored ∧
    (State.disarm r s).host = s.host ∧
    (State.disarm r s).epo = s.epo ∧
    (State.disarm r s).cat = s.cat ∧
    (State.disarm r s).med = s.med ∧
    (State.disarm r s).coh = s.coh ∧
    (State.disarm r s).lnk = s.lnk ∧
    (State.disarm r s).rte = s.rte ∧
    (State.disarm r s).cap = s.cap ∧
    (State.disarm r s).cry = s.cry ∧
    (State.disarm r s).anl = s.anl ∧
    (State.disarm r s).cur = s.cur ∧
    (State.disarm r s).thm = s.thm ∧
    (State.disarm r s).pwr = s.pwr ∧
    (State.disarm r s).pmc = s.pmc ∧
    (State.disarm r s).out = s.out ∧
    (State.disarm r s).net = s.net ∧
    (State.disarm r s).freeCtr = s.freeCtr ∧
    (State.disarm r s).pending = s.pending := by
  unfold State.disarm
  simp

@[simp] theorem State.passReset_kept (r : PassReset) (items : Nat) (writes : Bool) (s : State) :
    (State.passReset r items writes s).member = s.member ∧
    (State.passReset r items writes s).now = s.now ∧
    (State.passReset r items writes s).unstored = s.unstored ∧
    (State.passReset r items writes s).thm = s.thm ∧
    (State.passReset r items writes s).pending = s.pending ∧
    (State.passReset r items writes s).pwr.straps = s.pwr.straps ∧
    (State.passReset r items writes s).cur.lifecycle = s.cur.lifecycle ∧
    (State.passReset r items writes s).cur.rootGen = s.cur.rootGen ∧
    (State.passReset r items writes s).cur.returns = s.cur.returns ∧
    (State.passReset r items writes s).cur.revoked = s.cur.revoked := by
  have k1 := State.closePasses_kept
  have k2 := State.disarm_kept
  have k3 := State.resetUnit_kept
  unfold State.passReset
  dsimp only
  repeat' split
  all_goals simp [k1, k2, k3]

theorem State.linkDown_kept (t k : Nat) (s : State) :
    (State.linkDown t k s).member = s.member ∧
    (State.linkDown t k s).now = s.now ∧
    (State.linkDown t k s).unstored = s.unstored ∧
    (State.linkDown t k s).cat = s.cat ∧
    (State.linkDown t k s).med = s.med ∧
    (State.linkDown t k s).lnk = s.lnk ∧
    (State.linkDown t k s).rte = s.rte ∧
    (State.linkDown t k s).cry = s.cry ∧
    (State.linkDown t k s).thm = s.thm ∧
    (State.linkDown t k s).pending = s.pending ∧
    (State.linkDown t k s).pwr.straps = s.pwr.straps ∧
    (State.linkDown t k s).cur.lifecycle = s.cur.lifecycle ∧
    (State.linkDown t k s).cur.rootGen = s.cur.rootGen ∧
    (State.linkDown t k s).cur.returns = s.cur.returns ∧
    (State.linkDown t k s).cur.revoked = s.cur.revoked := by
  have k1 := State.failTile_kept
  have k2 := State.reroute_kept
  unfold State.linkDown
  dsimp only
  repeat' split
  all_goals simp [k1, k2]

@[simp] theorem State.frame_kept (t k : Nat) (crcOk : Bool) (s : State) :
    (State.frame t k crcOk s).member = s.member ∧
    (State.frame t k crcOk s).now = s.now ∧
    (State.frame t k crcOk s).unstored = s.unstored ∧
    (State.frame t k crcOk s).cat = s.cat ∧
    (State.frame t k crcOk s).med = s.med ∧
    (State.frame t k crcOk s).lnk = s.lnk ∧
    (State.frame t k crcOk s).rte = s.rte ∧
    (State.frame t k crcOk s).cry = s.cry ∧
    (State.frame t k crcOk s).thm = s.thm ∧
    (State.frame t k crcOk s).pending = s.pending ∧
    (State.frame t k crcOk s).pwr.straps = s.pwr.straps ∧
    (State.frame t k crcOk s).cur.lifecycle = s.cur.lifecycle ∧
    (State.frame t k crcOk s).cur.rootGen = s.cur.rootGen ∧
    (State.frame t k crcOk s).cur.returns = s.cur.returns ∧
    (State.frame t k crcOk s).cur.revoked = s.cur.revoked := by
  have k1 := State.linkDown_kept
  unfold State.frame
  dsimp only
  repeat' split
  all_goals simp [k1]

theorem State.useToken_kept (t : Token) (s : State) :
    (State.useToken t s).member = s.member ∧
    (State.useToken t s).now = s.now ∧
    (State.useToken t s).regs = s.regs ∧
    (State.useToken t s).unstored = s.unstored ∧
    (State.useToken t s).host = s.host ∧
    (State.useToken t s).epo = s.epo ∧
    (State.useToken t s).cat = s.cat ∧
    (State.useToken t s).med = s.med ∧
    (State.useToken t s).coh = s.coh ∧
    (State.useToken t s).lnk = s.lnk ∧
    (State.useToken t s).rte = s.rte ∧
    (State.useToken t s).cap = s.cap ∧
    (State.useToken t s).cry = s.cry ∧
    (State.useToken t s).flt = s.flt ∧
    (State.useToken t s).anl = s.anl ∧
    (State.useToken t s).thm = s.thm ∧
    (State.useToken t s).pwr = s.pwr ∧
    (State.useToken t s).pmc = s.pmc ∧
    (State.useToken t s).out = s.out ∧
    (State.useToken t s).net = s.net ∧
    (State.useToken t s).freeCtr = s.freeCtr ∧
    (State.useToken t s).pending = s.pending ∧
    (State.useToken t s).cur.lifecycle = s.cur.lifecycle ∧
    (State.useToken t s).cur.rootGen = s.cur.rootGen ∧
    (State.useToken t s).cur.returns = s.cur.returns ∧
    (State.useToken t s).cur.revoked = s.cur.revoked := by
  unfold State.useToken
  simp

@[simp] theorem State.withToken_member (t : Token) (present optional : Bool) (purpose bind : Nat) (s : State) (body : State → SlotAnswer) (h : ∀ s, (body s).after.member = s.member) :
    (State.withToken t present optional purpose bind s body).after.member = s.member := by
  have k1 := State.useToken_kept
  unfold State.withToken
  (try dsimp only)
  repeat' split
  all_goals simp [k1, h]

@[simp] theorem State.withToken_now (t : Token) (present optional : Bool) (purpose bind : Nat) (s : State) (body : State → SlotAnswer) (h : ∀ s, (body s).after.now = s.now) :
    (State.withToken t present optional purpose bind s body).after.now = s.now := by
  have k1 := State.useToken_kept
  unfold State.withToken
  (try dsimp only)
  repeat' split
  all_goals simp [k1, h]

@[simp] theorem State.withToken_regs (t : Token) (present optional : Bool) (purpose bind : Nat) (s : State) (body : State → SlotAnswer) (h : ∀ s, (body s).after.regs = s.regs) :
    (State.withToken t present optional purpose bind s body).after.regs = s.regs := by
  have k1 := State.useToken_kept
  unfold State.withToken
  (try dsimp only)
  repeat' split
  all_goals simp [k1, h]

@[simp] theorem State.withToken_unstored (t : Token) (present optional : Bool) (purpose bind : Nat) (s : State) (body : State → SlotAnswer) (h : ∀ s, (body s).after.unstored = s.unstored) :
    (State.withToken t present optional purpose bind s body).after.unstored = s.unstored := by
  have k1 := State.useToken_kept
  unfold State.withToken
  (try dsimp only)
  repeat' split
  all_goals simp [k1, h]

@[simp] theorem State.withToken_host (t : Token) (present optional : Bool) (purpose bind : Nat) (s : State) (body : State → SlotAnswer) (h : ∀ s, (body s).after.host = s.host) :
    (State.withToken t present optional purpose bind s body).after.host = s.host := by
  have k1 := State.useToken_kept
  unfold State.withToken
  (try dsimp only)
  repeat' split
  all_goals simp [k1, h]

@[simp] theorem State.withToken_epo (t : Token) (present optional : Bool) (purpose bind : Nat) (s : State) (body : State → SlotAnswer) (h : ∀ s, (body s).after.epo = s.epo) :
    (State.withToken t present optional purpose bind s body).after.epo = s.epo := by
  have k1 := State.useToken_kept
  unfold State.withToken
  (try dsimp only)
  repeat' split
  all_goals simp [k1, h]

@[simp] theorem State.withToken_cat (t : Token) (present optional : Bool) (purpose bind : Nat) (s : State) (body : State → SlotAnswer) (h : ∀ s, (body s).after.cat = s.cat) :
    (State.withToken t present optional purpose bind s body).after.cat = s.cat := by
  have k1 := State.useToken_kept
  unfold State.withToken
  (try dsimp only)
  repeat' split
  all_goals simp [k1, h]

@[simp] theorem State.withToken_med (t : Token) (present optional : Bool) (purpose bind : Nat) (s : State) (body : State → SlotAnswer) (h : ∀ s, (body s).after.med = s.med) :
    (State.withToken t present optional purpose bind s body).after.med = s.med := by
  have k1 := State.useToken_kept
  unfold State.withToken
  (try dsimp only)
  repeat' split
  all_goals simp [k1, h]

@[simp] theorem State.withToken_coh (t : Token) (present optional : Bool) (purpose bind : Nat) (s : State) (body : State → SlotAnswer) (h : ∀ s, (body s).after.coh = s.coh) :
    (State.withToken t present optional purpose bind s body).after.coh = s.coh := by
  have k1 := State.useToken_kept
  unfold State.withToken
  (try dsimp only)
  repeat' split
  all_goals simp [k1, h]

@[simp] theorem State.withToken_lnk (t : Token) (present optional : Bool) (purpose bind : Nat) (s : State) (body : State → SlotAnswer) (h : ∀ s, (body s).after.lnk = s.lnk) :
    (State.withToken t present optional purpose bind s body).after.lnk = s.lnk := by
  have k1 := State.useToken_kept
  unfold State.withToken
  (try dsimp only)
  repeat' split
  all_goals simp [k1, h]

@[simp] theorem State.withToken_rte (t : Token) (present optional : Bool) (purpose bind : Nat) (s : State) (body : State → SlotAnswer) (h : ∀ s, (body s).after.rte = s.rte) :
    (State.withToken t present optional purpose bind s body).after.rte = s.rte := by
  have k1 := State.useToken_kept
  unfold State.withToken
  (try dsimp only)
  repeat' split
  all_goals simp [k1, h]

@[simp] theorem State.withToken_cap (t : Token) (present optional : Bool) (purpose bind : Nat) (s : State) (body : State → SlotAnswer) (h : ∀ s, (body s).after.cap = s.cap) :
    (State.withToken t present optional purpose bind s body).after.cap = s.cap := by
  have k1 := State.useToken_kept
  unfold State.withToken
  (try dsimp only)
  repeat' split
  all_goals simp [k1, h]

@[simp] theorem State.withToken_cry (t : Token) (present optional : Bool) (purpose bind : Nat) (s : State) (body : State → SlotAnswer) (h : ∀ s, (body s).after.cry = s.cry) :
    (State.withToken t present optional purpose bind s body).after.cry = s.cry := by
  have k1 := State.useToken_kept
  unfold State.withToken
  (try dsimp only)
  repeat' split
  all_goals simp [k1, h]

@[simp] theorem State.withToken_flt (t : Token) (present optional : Bool) (purpose bind : Nat) (s : State) (body : State → SlotAnswer) (h : ∀ s, (body s).after.flt = s.flt) :
    (State.withToken t present optional purpose bind s body).after.flt = s.flt := by
  have k1 := State.useToken_kept
  unfold State.withToken
  (try dsimp only)
  repeat' split
  all_goals simp [k1, h]

@[simp] theorem State.withToken_anl (t : Token) (present optional : Bool) (purpose bind : Nat) (s : State) (body : State → SlotAnswer) (h : ∀ s, (body s).after.anl = s.anl) :
    (State.withToken t present optional purpose bind s body).after.anl = s.anl := by
  have k1 := State.useToken_kept
  unfold State.withToken
  (try dsimp only)
  repeat' split
  all_goals simp [k1, h]

@[simp] theorem State.withToken_thm (t : Token) (present optional : Bool) (purpose bind : Nat) (s : State) (body : State → SlotAnswer) (h : ∀ s, (body s).after.thm = s.thm) :
    (State.withToken t present optional purpose bind s body).after.thm = s.thm := by
  have k1 := State.useToken_kept
  unfold State.withToken
  (try dsimp only)
  repeat' split
  all_goals simp [k1, h]

@[simp] theorem State.withToken_pwr (t : Token) (present optional : Bool) (purpose bind : Nat) (s : State) (body : State → SlotAnswer) (h : ∀ s, (body s).after.pwr = s.pwr) :
    (State.withToken t present optional purpose bind s body).after.pwr = s.pwr := by
  have k1 := State.useToken_kept
  unfold State.withToken
  (try dsimp only)
  repeat' split
  all_goals simp [k1, h]

@[simp] theorem State.withToken_pmc (t : Token) (present optional : Bool) (purpose bind : Nat) (s : State) (body : State → SlotAnswer) (h : ∀ s, (body s).after.pmc = s.pmc) :
    (State.withToken t present optional purpose bind s body).after.pmc = s.pmc := by
  have k1 := State.useToken_kept
  unfold State.withToken
  (try dsimp only)
  repeat' split
  all_goals simp [k1, h]

@[simp] theorem State.withToken_out (t : Token) (present optional : Bool) (purpose bind : Nat) (s : State) (body : State → SlotAnswer) (h : ∀ s, (body s).after.out = s.out) :
    (State.withToken t present optional purpose bind s body).after.out = s.out := by
  have k1 := State.useToken_kept
  unfold State.withToken
  (try dsimp only)
  repeat' split
  all_goals simp [k1, h]

@[simp] theorem State.withToken_net (t : Token) (present optional : Bool) (purpose bind : Nat) (s : State) (body : State → SlotAnswer) (h : ∀ s, (body s).after.net = s.net) :
    (State.withToken t present optional purpose bind s body).after.net = s.net := by
  have k1 := State.useToken_kept
  unfold State.withToken
  (try dsimp only)
  repeat' split
  all_goals simp [k1, h]

@[simp] theorem State.withToken_freeCtr (t : Token) (present optional : Bool) (purpose bind : Nat) (s : State) (body : State → SlotAnswer) (h : ∀ s, (body s).after.freeCtr = s.freeCtr) :
    (State.withToken t present optional purpose bind s body).after.freeCtr = s.freeCtr := by
  have k1 := State.useToken_kept
  unfold State.withToken
  (try dsimp only)
  repeat' split
  all_goals simp [k1, h]

@[simp] theorem State.withToken_pending (t : Token) (present optional : Bool) (purpose bind : Nat) (s : State) (body : State → SlotAnswer) (h : ∀ s, (body s).after.pending = s.pending) :
    (State.withToken t present optional purpose bind s body).after.pending = s.pending := by
  have k1 := State.useToken_kept
  unfold State.withToken
  (try dsimp only)
  repeat' split
  all_goals simp [k1, h]

@[simp] theorem State.withToken_cur_lifecycle (t : Token) (present optional : Bool) (purpose bind : Nat) (s : State) (body : State → SlotAnswer) (h : ∀ s, (body s).after.cur.lifecycle = s.cur.lifecycle) :
    (State.withToken t present optional purpose bind s body).after.cur.lifecycle = s.cur.lifecycle := by
  have k1 := State.useToken_kept
  unfold State.withToken
  (try dsimp only)
  repeat' split
  all_goals simp [k1, h]

@[simp] theorem State.withToken_cur_rootGen (t : Token) (present optional : Bool) (purpose bind : Nat) (s : State) (body : State → SlotAnswer) (h : ∀ s, (body s).after.cur.rootGen = s.cur.rootGen) :
    (State.withToken t present optional purpose bind s body).after.cur.rootGen = s.cur.rootGen := by
  have k1 := State.useToken_kept
  unfold State.withToken
  (try dsimp only)
  repeat' split
  all_goals simp [k1, h]

@[simp] theorem State.withToken_cur_returns (t : Token) (present optional : Bool) (purpose bind : Nat) (s : State) (body : State → SlotAnswer) (h : ∀ s, (body s).after.cur.returns = s.cur.returns) :
    (State.withToken t present optional purpose bind s body).after.cur.returns = s.cur.returns := by
  have k1 := State.useToken_kept
  unfold State.withToken
  (try dsimp only)
  repeat' split
  all_goals simp [k1, h]

@[simp] theorem State.withToken_cur_revoked (t : Token) (present optional : Bool) (purpose bind : Nat) (s : State) (body : State → SlotAnswer) (h : ∀ s, (body s).after.cur.revoked = s.cur.revoked) :
    (State.withToken t present optional purpose bind s body).after.cur.revoked = s.cur.revoked := by
  have k1 := State.useToken_kept
  unfold State.withToken
  (try dsimp only)
  repeat' split
  all_goals simp [k1, h]

@[simp] theorem State.tokenCommand_member (opc : Nat) (c : Ctx) (ps : List Param) (slot : Word) (t : Token) (optional : Bool) (purpose bind : Nat) (body : State → SlotAnswer) (s : State) (h : ∀ s, (body s).after.member = s.member) :
    (State.tokenCommand opc c ps slot t optional purpose bind body s).member = s.member := by
  unfold State.tokenCommand
  refine State.command_member _ _ _ _ _ _ (fun s => State.withSlot_member _ _ _ _ _ _ _ _ (fun r s => ?_))
  dsimp only
  split
  · rfl
  · exact State.withToken_member _ _ _ _ _ _ _ h

@[simp] theorem State.tokenCommand_now (opc : Nat) (c : Ctx) (ps : List Param) (slot : Word) (t : Token) (optional : Bool) (purpose bind : Nat) (body : State → SlotAnswer) (s : State) (h : ∀ s, (body s).after.now = s.now) :
    (State.tokenCommand opc c ps slot t optional purpose bind body s).now = s.now := by
  unfold State.tokenCommand
  refine State.command_now _ _ _ _ _ _ (fun s => State.withSlot_now _ _ _ _ _ _ _ _ (fun r s => ?_))
  dsimp only
  split
  · rfl
  · exact State.withToken_now _ _ _ _ _ _ _ h

@[simp] theorem State.tokenCommand_unstored (opc : Nat) (c : Ctx) (ps : List Param) (slot : Word) (t : Token) (optional : Bool) (purpose bind : Nat) (body : State → SlotAnswer) (s : State) (h : ∀ s, (body s).after.unstored = s.unstored) :
    (State.tokenCommand opc c ps slot t optional purpose bind body s).unstored = s.unstored := by
  unfold State.tokenCommand
  refine State.command_unstored _ _ _ _ _ _ (fun s => State.withSlot_unstored _ _ _ _ _ _ _ _ (fun r s => ?_))
  dsimp only
  split
  · rfl
  · exact State.withToken_unstored _ _ _ _ _ _ _ h

@[simp] theorem State.tokenCommand_epo (opc : Nat) (c : Ctx) (ps : List Param) (slot : Word) (t : Token) (optional : Bool) (purpose bind : Nat) (body : State → SlotAnswer) (s : State) (h : ∀ s, (body s).after.epo = s.epo) :
    (State.tokenCommand opc c ps slot t optional purpose bind body s).epo = s.epo := by
  unfold State.tokenCommand
  refine State.command_epo _ _ _ _ _ _ (fun s => State.withSlot_epo _ _ _ _ _ _ _ _ (fun r s => ?_))
  dsimp only
  split
  · rfl
  · exact State.withToken_epo _ _ _ _ _ _ _ h

@[simp] theorem State.tokenCommand_cat (opc : Nat) (c : Ctx) (ps : List Param) (slot : Word) (t : Token) (optional : Bool) (purpose bind : Nat) (body : State → SlotAnswer) (s : State) (h : ∀ s, (body s).after.cat = s.cat) :
    (State.tokenCommand opc c ps slot t optional purpose bind body s).cat = s.cat := by
  unfold State.tokenCommand
  refine State.command_cat _ _ _ _ _ _ (fun s => State.withSlot_cat _ _ _ _ _ _ _ _ (fun r s => ?_))
  dsimp only
  split
  · rfl
  · exact State.withToken_cat _ _ _ _ _ _ _ h

@[simp] theorem State.tokenCommand_med (opc : Nat) (c : Ctx) (ps : List Param) (slot : Word) (t : Token) (optional : Bool) (purpose bind : Nat) (body : State → SlotAnswer) (s : State) (h : ∀ s, (body s).after.med = s.med) :
    (State.tokenCommand opc c ps slot t optional purpose bind body s).med = s.med := by
  unfold State.tokenCommand
  refine State.command_med _ _ _ _ _ _ (fun s => State.withSlot_med _ _ _ _ _ _ _ _ (fun r s => ?_))
  dsimp only
  split
  · rfl
  · exact State.withToken_med _ _ _ _ _ _ _ h

@[simp] theorem State.tokenCommand_coh (opc : Nat) (c : Ctx) (ps : List Param) (slot : Word) (t : Token) (optional : Bool) (purpose bind : Nat) (body : State → SlotAnswer) (s : State) (h : ∀ s, (body s).after.coh = s.coh) :
    (State.tokenCommand opc c ps slot t optional purpose bind body s).coh = s.coh := by
  unfold State.tokenCommand
  refine State.command_coh _ _ _ _ _ _ (fun s => State.withSlot_coh _ _ _ _ _ _ _ _ (fun r s => ?_))
  dsimp only
  split
  · rfl
  · exact State.withToken_coh _ _ _ _ _ _ _ h

@[simp] theorem State.tokenCommand_lnk (opc : Nat) (c : Ctx) (ps : List Param) (slot : Word) (t : Token) (optional : Bool) (purpose bind : Nat) (body : State → SlotAnswer) (s : State) (h : ∀ s, (body s).after.lnk = s.lnk) :
    (State.tokenCommand opc c ps slot t optional purpose bind body s).lnk = s.lnk := by
  unfold State.tokenCommand
  refine State.command_lnk _ _ _ _ _ _ (fun s => State.withSlot_lnk _ _ _ _ _ _ _ _ (fun r s => ?_))
  dsimp only
  split
  · rfl
  · exact State.withToken_lnk _ _ _ _ _ _ _ h

@[simp] theorem State.tokenCommand_rte (opc : Nat) (c : Ctx) (ps : List Param) (slot : Word) (t : Token) (optional : Bool) (purpose bind : Nat) (body : State → SlotAnswer) (s : State) (h : ∀ s, (body s).after.rte = s.rte) :
    (State.tokenCommand opc c ps slot t optional purpose bind body s).rte = s.rte := by
  unfold State.tokenCommand
  refine State.command_rte _ _ _ _ _ _ (fun s => State.withSlot_rte _ _ _ _ _ _ _ _ (fun r s => ?_))
  dsimp only
  split
  · rfl
  · exact State.withToken_rte _ _ _ _ _ _ _ h

@[simp] theorem State.tokenCommand_cap (opc : Nat) (c : Ctx) (ps : List Param) (slot : Word) (t : Token) (optional : Bool) (purpose bind : Nat) (body : State → SlotAnswer) (s : State) (h : ∀ s, (body s).after.cap = s.cap) :
    (State.tokenCommand opc c ps slot t optional purpose bind body s).cap = s.cap := by
  unfold State.tokenCommand
  refine State.command_cap _ _ _ _ _ _ (fun s => State.withSlot_cap _ _ _ _ _ _ _ _ (fun r s => ?_))
  dsimp only
  split
  · rfl
  · exact State.withToken_cap _ _ _ _ _ _ _ h

@[simp] theorem State.tokenCommand_cry (opc : Nat) (c : Ctx) (ps : List Param) (slot : Word) (t : Token) (optional : Bool) (purpose bind : Nat) (body : State → SlotAnswer) (s : State) (h : ∀ s, (body s).after.cry = s.cry) :
    (State.tokenCommand opc c ps slot t optional purpose bind body s).cry = s.cry := by
  unfold State.tokenCommand
  refine State.command_cry _ _ _ _ _ _ (fun s => State.withSlot_cry _ _ _ _ _ _ _ _ (fun r s => ?_))
  dsimp only
  split
  · rfl
  · exact State.withToken_cry _ _ _ _ _ _ _ h

@[simp] theorem State.tokenCommand_flt (opc : Nat) (c : Ctx) (ps : List Param) (slot : Word) (t : Token) (optional : Bool) (purpose bind : Nat) (body : State → SlotAnswer) (s : State) (h : ∀ s, (body s).after.flt = s.flt) :
    (State.tokenCommand opc c ps slot t optional purpose bind body s).flt = s.flt := by
  unfold State.tokenCommand
  refine State.command_flt _ _ _ _ _ _ (fun s => State.withSlot_flt _ _ _ _ _ _ _ _ (fun r s => ?_))
  dsimp only
  split
  · rfl
  · exact State.withToken_flt _ _ _ _ _ _ _ h

@[simp] theorem State.tokenCommand_thm (opc : Nat) (c : Ctx) (ps : List Param) (slot : Word) (t : Token) (optional : Bool) (purpose bind : Nat) (body : State → SlotAnswer) (s : State) (h : ∀ s, (body s).after.thm = s.thm) :
    (State.tokenCommand opc c ps slot t optional purpose bind body s).thm = s.thm := by
  unfold State.tokenCommand
  refine State.command_thm _ _ _ _ _ _ (fun s => State.withSlot_thm _ _ _ _ _ _ _ _ (fun r s => ?_))
  dsimp only
  split
  · rfl
  · exact State.withToken_thm _ _ _ _ _ _ _ h

@[simp] theorem State.tokenCommand_pwr (opc : Nat) (c : Ctx) (ps : List Param) (slot : Word) (t : Token) (optional : Bool) (purpose bind : Nat) (body : State → SlotAnswer) (s : State) (h : ∀ s, (body s).after.pwr = s.pwr) :
    (State.tokenCommand opc c ps slot t optional purpose bind body s).pwr = s.pwr := by
  unfold State.tokenCommand
  refine State.command_pwr _ _ _ _ _ _ (fun s => State.withSlot_pwr _ _ _ _ _ _ _ _ (fun r s => ?_))
  dsimp only
  split
  · rfl
  · exact State.withToken_pwr _ _ _ _ _ _ _ h

@[simp] theorem State.tokenCommand_net (opc : Nat) (c : Ctx) (ps : List Param) (slot : Word) (t : Token) (optional : Bool) (purpose bind : Nat) (body : State → SlotAnswer) (s : State) (h : ∀ s, (body s).after.net = s.net) :
    (State.tokenCommand opc c ps slot t optional purpose bind body s).net = s.net := by
  unfold State.tokenCommand
  refine State.command_net _ _ _ _ _ _ (fun s => State.withSlot_net _ _ _ _ _ _ _ _ (fun r s => ?_))
  dsimp only
  split
  · rfl
  · exact State.withToken_net _ _ _ _ _ _ _ h

@[simp] theorem State.tokenCommand_freeCtr (opc : Nat) (c : Ctx) (ps : List Param) (slot : Word) (t : Token) (optional : Bool) (purpose bind : Nat) (body : State → SlotAnswer) (s : State) (h : ∀ s, (body s).after.freeCtr = s.freeCtr) :
    (State.tokenCommand opc c ps slot t optional purpose bind body s).freeCtr = s.freeCtr := by
  unfold State.tokenCommand
  refine State.command_freeCtr _ _ _ _ _ _ (fun s => State.withSlot_freeCtr _ _ _ _ _ _ _ _ (fun r s => ?_))
  dsimp only
  split
  · rfl
  · exact State.withToken_freeCtr _ _ _ _ _ _ _ h

@[simp] theorem State.tokenCommand_pending (opc : Nat) (c : Ctx) (ps : List Param) (slot : Word) (t : Token) (optional : Bool) (purpose bind : Nat) (body : State → SlotAnswer) (s : State) (h : ∀ s, (body s).after.pending = s.pending) :
    (State.tokenCommand opc c ps slot t optional purpose bind body s).pending = s.pending := by
  unfold State.tokenCommand
  refine State.command_pending _ _ _ _ _ _ (fun s => State.withSlot_pending _ _ _ _ _ _ _ _ (fun r s => ?_))
  dsimp only
  split
  · rfl
  · exact State.withToken_pending _ _ _ _ _ _ _ h

@[simp] theorem State.tokenCommand_cur_lifecycle (opc : Nat) (c : Ctx) (ps : List Param) (slot : Word) (t : Token) (optional : Bool) (purpose bind : Nat) (body : State → SlotAnswer) (s : State) (h : ∀ s, (body s).after.cur.lifecycle = s.cur.lifecycle) :
    (State.tokenCommand opc c ps slot t optional purpose bind body s).cur.lifecycle = s.cur.lifecycle := by
  unfold State.tokenCommand
  refine State.command_cur_lifecycle _ _ _ _ _ _ (fun s => State.withSlot_cur_lifecycle _ _ _ _ _ _ _ _ (fun r s => ?_))
  dsimp only
  split
  · rfl
  · exact State.withToken_cur_lifecycle _ _ _ _ _ _ _ h

@[simp] theorem State.tokenCommand_cur_rootGen (opc : Nat) (c : Ctx) (ps : List Param) (slot : Word) (t : Token) (optional : Bool) (purpose bind : Nat) (body : State → SlotAnswer) (s : State) (h : ∀ s, (body s).after.cur.rootGen = s.cur.rootGen) :
    (State.tokenCommand opc c ps slot t optional purpose bind body s).cur.rootGen = s.cur.rootGen := by
  unfold State.tokenCommand
  refine State.command_cur_rootGen _ _ _ _ _ _ (fun s => State.withSlot_cur_rootGen _ _ _ _ _ _ _ _ (fun r s => ?_))
  dsimp only
  split
  · rfl
  · exact State.withToken_cur_rootGen _ _ _ _ _ _ _ h

@[simp] theorem State.tokenCommand_cur_returns (opc : Nat) (c : Ctx) (ps : List Param) (slot : Word) (t : Token) (optional : Bool) (purpose bind : Nat) (body : State → SlotAnswer) (s : State) (h : ∀ s, (body s).after.cur.returns = s.cur.returns) :
    (State.tokenCommand opc c ps slot t optional purpose bind body s).cur.returns = s.cur.returns := by
  unfold State.tokenCommand
  refine State.command_cur_returns _ _ _ _ _ _ (fun s => State.withSlot_cur_returns _ _ _ _ _ _ _ _ (fun r s => ?_))
  dsimp only
  split
  · rfl
  · exact State.withToken_cur_returns _ _ _ _ _ _ _ h

@[simp] theorem State.tokenCommand_cur_revoked (opc : Nat) (c : Ctx) (ps : List Param) (slot : Word) (t : Token) (optional : Bool) (purpose bind : Nat) (body : State → SlotAnswer) (s : State) (h : ∀ s, (body s).after.cur.revoked = s.cur.revoked) :
    (State.tokenCommand opc c ps slot t optional purpose bind body s).cur.revoked = s.cur.revoked := by
  unfold State.tokenCommand
  refine State.command_cur_revoked _ _ _ _ _ _ (fun s => State.withSlot_cur_revoked _ _ _ _ _ _ _ _ (fun r s => ?_))
  dsimp only
  split
  · rfl
  · exact State.withToken_cur_revoked _ _ _ _ _ _ _ h

@[simp] theorem State.getLog_kept (c : Ctx) (log tile off : Nat) (r : Option SlotRef) (s : State) :
    (State.getLog c log tile off r s).after.member = s.member ∧
    (State.getLog c log tile off r s).after.now = s.now ∧
    (State.getLog c log tile off r s).after.regs = s.regs ∧
    (State.getLog c log tile off r s).after.unstored = s.unstored ∧
    (State.getLog c log tile off r s).after.host = s.host ∧
    (State.getLog c log tile off r s).after.epo = s.epo ∧
    (State.getLog c log tile off r s).after.cat = s.cat ∧
    (State.getLog c log tile off r s).after.med = s.med ∧
    (State.getLog c log tile off r s).after.coh = s.coh ∧
    (State.getLog c log tile off r s).after.lnk = s.lnk ∧
    (State.getLog c log tile off r s).after.rte = s.rte ∧
    (State.getLog c log tile off r s).after.cap = s.cap ∧
    (State.getLog c log tile off r s).after.cry = s.cry ∧
    (State.getLog c log tile off r s).after.flt = s.flt ∧
    (State.getLog c log tile off r s).after.anl = s.anl ∧
    (State.getLog c log tile off r s).after.cur = s.cur ∧
    (State.getLog c log tile off r s).after.thm = s.thm ∧
    (State.getLog c log tile off r s).after.pwr = s.pwr ∧
    (State.getLog c log tile off r s).after.pmc = s.pmc ∧
    (State.getLog c log tile off r s).after.out = s.out ∧
    (State.getLog c log tile off r s).after.net = s.net ∧
    (State.getLog c log tile off r s).after.freeCtr = s.freeCtr ∧
    (State.getLog c log tile off r s).after.pending = s.pending := by
  unfold State.getLog
  dsimp only
  repeat' split
  all_goals simp

theorem State.clearRecord_kept (t cleared aux : Nat) (s : State) :
    (State.clearRecord t cleared aux s).member = s.member ∧
    (State.clearRecord t cleared aux s).now = s.now ∧
    (State.clearRecord t cleared aux s).unstored = s.unstored ∧
    (State.clearRecord t cleared aux s).host = s.host ∧
    (State.clearRecord t cleared aux s).epo = s.epo ∧
    (State.clearRecord t cleared aux s).cat = s.cat ∧
    (State.clearRecord t cleared aux s).med = s.med ∧
    (State.clearRecord t cleared aux s).coh = s.coh ∧
    (State.clearRecord t cleared aux s).lnk = s.lnk ∧
    (State.clearRecord t cleared aux s).rte = s.rte ∧
    (State.clearRecord t cleared aux s).cap = s.cap ∧
    (State.clearRecord t cleared aux s).cry = s.cry ∧
    (State.clearRecord t cleared aux s).flt = s.flt ∧
    (State.clearRecord t cleared aux s).cur = s.cur ∧
    (State.clearRecord t cleared aux s).thm = s.thm ∧
    (State.clearRecord t cleared aux s).pwr = s.pwr ∧
    (State.clearRecord t cleared aux s).pmc = s.pmc ∧
    (State.clearRecord t cleared aux s).out = s.out ∧
    (State.clearRecord t cleared aux s).net = s.net ∧
    (State.clearRecord t cleared aux s).freeCtr = s.freeCtr ∧
    (State.clearRecord t cleared aux s).pending = s.pending := by
  have k1 := State.mirrorWrite_kept
  have k2 := State.ringWrite_kept
  have k3 := State.setBucket_kept
  unfold State.clearRecord
  dsimp only
  split <;> simp only [State.ringWrite_kept, State.setBucket_kept, State.mirrorWrite_kept, and_self]

theorem State.clearRing_kept (aux t : Nat) (s : State) :
    (State.clearRing aux t s).member = s.member ∧
    (State.clearRing aux t s).now = s.now ∧
    (State.clearRing aux t s).unstored = s.unstored ∧
    (State.clearRing aux t s).host = s.host ∧
    (State.clearRing aux t s).epo = s.epo ∧
    (State.clearRing aux t s).cat = s.cat ∧
    (State.clearRing aux t s).med = s.med ∧
    (State.clearRing aux t s).coh = s.coh ∧
    (State.clearRing aux t s).lnk = s.lnk ∧
    (State.clearRing aux t s).rte = s.rte ∧
    (State.clearRing aux t s).cap = s.cap ∧
    (State.clearRing aux t s).cry = s.cry ∧
    (State.clearRing aux t s).flt = s.flt ∧
    (State.clearRing aux t s).cur = s.cur ∧
    (State.clearRing aux t s).thm = s.thm ∧
    (State.clearRing aux t s).pwr = s.pwr ∧
    (State.clearRing aux t s).pmc = s.pmc ∧
    (State.clearRing aux t s).out = s.out ∧
    (State.clearRing aux t s).net = s.net ∧
    (State.clearRing aux t s).freeCtr = s.freeCtr ∧
    (State.clearRing aux t s).pending = s.pending := by
  have k1 := State.clearRecord_kept
  unfold State.clearRing
  simp [k1]

theorem State.clearSources_kept (aux t : Nat) (s : State) :
    (State.clearSources aux t s).member = s.member ∧
    (State.clearSources aux t s).now = s.now ∧
    (State.clearSources aux t s).unstored = s.unstored ∧
    (State.clearSources aux t s).host = s.host ∧
    (State.clearSources aux t s).epo = s.epo ∧
    (State.clearSources aux t s).cat = s.cat ∧
    (State.clearSources aux t s).med = s.med ∧
    (State.clearSources aux t s).coh = s.coh ∧
    (State.clearSources aux t s).lnk = s.lnk ∧
    (State.clearSources aux t s).rte = s.rte ∧
    (State.clearSources aux t s).cap = s.cap ∧
    (State.clearSources aux t s).cry = s.cry ∧
    (State.clearSources aux t s).cur = s.cur ∧
    (State.clearSources aux t s).thm = s.thm ∧
    (State.clearSources aux t s).pwr = s.pwr ∧
    (State.clearSources aux t s).pmc = s.pmc ∧
    (State.clearSources aux t s).out = s.out ∧
    (State.clearSources aux t s).net = s.net ∧
    (State.clearSources aux t s).freeCtr = s.freeCtr ∧
    (State.clearSources aux t s).pending = s.pending := by
  have k1 := State.clearRecord_kept
  unfold State.clearSources
  simp [k1]

@[simp] theorem State.clearLog_kept (log tile : Nat) (s : State) :
    (State.clearLog log tile s).after.member = s.member ∧
    (State.clearLog log tile s).after.now = s.now ∧
    (State.clearLog log tile s).after.unstored = s.unstored ∧
    (State.clearLog log tile s).after.host = s.host ∧
    (State.clearLog log tile s).after.epo = s.epo ∧
    (State.clearLog log tile s).after.cat = s.cat ∧
    (State.clearLog log tile s).after.med = s.med ∧
    (State.clearLog log tile s).after.coh = s.coh ∧
    (State.clearLog log tile s).after.lnk = s.lnk ∧
    (State.clearLog log tile s).after.rte = s.rte ∧
    (State.clearLog log tile s).after.cap = s.cap ∧
    (State.clearLog log tile s).after.cry = s.cry ∧
    (State.clearLog log tile s).after.cur = s.cur ∧
    (State.clearLog log tile s).after.thm = s.thm ∧
    (State.clearLog log tile s).after.pwr = s.pwr ∧
    (State.clearLog log tile s).after.pmc = s.pmc ∧
    (State.clearLog log tile s).after.out = s.out ∧
    (State.clearLog log tile s).after.net = s.net ∧
    (State.clearLog log tile s).after.freeCtr = s.freeCtr ∧
    (State.clearLog log tile s).after.pending = s.pending := by
  have k1 := State.clearRing_kept
  have k2 := State.clearSources_kept
  unfold State.clearLog
  dsimp only
  repeat' split
  all_goals simp [k1, k2]

@[simp] theorem State.reportLost_kept (t : Nat) (s : State) :
    (State.reportLost t s).member = s.member ∧
    (State.reportLost t s).now = s.now ∧
    (State.reportLost t s).unstored = s.unstored ∧
    (State.reportLost t s).epo = s.epo ∧
    (State.reportLost t s).cat = s.cat ∧
    (State.reportLost t s).med = s.med ∧
    (State.reportLost t s).coh = s.coh ∧
    (State.reportLost t s).lnk = s.lnk ∧
    (State.reportLost t s).rte = s.rte ∧
    (State.reportLost t s).cap = s.cap ∧
    (State.reportLost t s).cry = s.cry ∧
    (State.reportLost t s).flt = s.flt ∧
    (State.reportLost t s).cur = s.cur ∧
    (State.reportLost t s).thm = s.thm ∧
    (State.reportLost t s).pwr = s.pwr ∧
    (State.reportLost t s).pmc = s.pmc ∧
    (State.reportLost t s).net = s.net ∧
    (State.reportLost t s).freeCtr = s.freeCtr ∧
    (State.reportLost t s).pending = s.pending := by
  unfold State.reportLost
  simp

@[simp] theorem State.mirrorFail_kept (c t : Nat) (s : State) :
    (State.mirrorFail c t s).member = s.member ∧
    (State.mirrorFail c t s).now = s.now ∧
    (State.mirrorFail c t s).unstored = s.unstored ∧
    (State.mirrorFail c t s).cat = s.cat ∧
    (State.mirrorFail c t s).med = s.med ∧
    (State.mirrorFail c t s).coh = s.coh ∧
    (State.mirrorFail c t s).lnk = s.lnk ∧
    (State.mirrorFail c t s).rte = s.rte ∧
    (State.mirrorFail c t s).cry = s.cry ∧
    (State.mirrorFail c t s).thm = s.thm ∧
    (State.mirrorFail c t s).net = s.net ∧
    (State.mirrorFail c t s).pending = s.pending ∧
    (State.mirrorFail c t s).pwr.straps = s.pwr.straps ∧
    (State.mirrorFail c t s).cur.lifecycle = s.cur.lifecycle ∧
    (State.mirrorFail c t s).cur.rootGen = s.cur.rootGen ∧
    (State.mirrorFail c t s).cur.returns = s.cur.returns ∧
    (State.mirrorFail c t s).cur.revoked = s.cur.revoked := by
  unfold State.mirrorFail
  dsimp only
  repeat' split
  all_goals simp

@[simp] theorem State.sampleSpares_kept (s : State) :
    (State.sampleSpares s).member = s.member ∧
    (State.sampleSpares s).now = s.now ∧
    (State.sampleSpares s).regs = s.regs ∧
    (State.sampleSpares s).unstored = s.unstored ∧
    (State.sampleSpares s).host = s.host ∧
    (State.sampleSpares s).epo = s.epo ∧
    (State.sampleSpares s).cat = s.cat ∧
    (State.sampleSpares s).med = s.med ∧
    (State.sampleSpares s).coh = s.coh ∧
    (State.sampleSpares s).lnk = s.lnk ∧
    (State.sampleSpares s).rte = s.rte ∧
    (State.sampleSpares s).cap = s.cap ∧
    (State.sampleSpares s).cry = s.cry ∧
    (State.sampleSpares s).flt = s.flt ∧
    (State.sampleSpares s).cur = s.cur ∧
    (State.sampleSpares s).pwr = s.pwr ∧
    (State.sampleSpares s).pmc = s.pmc ∧
    (State.sampleSpares s).out = s.out ∧
    (State.sampleSpares s).net = s.net ∧
    (State.sampleSpares s).freeCtr = s.freeCtr ∧
    (State.sampleSpares s).pending = s.pending := by
  unfold State.sampleSpares
  simp

@[simp] theorem State.sampleSensors_kept (s : State) :
    (State.sampleSensors s).member = s.member ∧
    (State.sampleSensors s).now = s.now ∧
    (State.sampleSensors s).regs = s.regs ∧
    (State.sampleSensors s).unstored = s.unstored ∧
    (State.sampleSensors s).host = s.host ∧
    (State.sampleSensors s).epo = s.epo ∧
    (State.sampleSensors s).cat = s.cat ∧
    (State.sampleSensors s).med = s.med ∧
    (State.sampleSensors s).coh = s.coh ∧
    (State.sampleSensors s).lnk = s.lnk ∧
    (State.sampleSensors s).rte = s.rte ∧
    (State.sampleSensors s).cap = s.cap ∧
    (State.sampleSensors s).cry = s.cry ∧
    (State.sampleSensors s).flt = s.flt ∧
    (State.sampleSensors s).cur = s.cur ∧
    (State.sampleSensors s).pwr = s.pwr ∧
    (State.sampleSensors s).pmc = s.pmc ∧
    (State.sampleSensors s).out = s.out ∧
    (State.sampleSensors s).net = s.net ∧
    (State.sampleSensors s).pending = s.pending := by
  unfold State.sampleSensors
  simp

theorem State.showRecord_kept (r : ARec) (s : State) :
    (State.showRecord r s).member = s.member ∧
    (State.showRecord r s).now = s.now ∧
    (State.showRecord r s).unstored = s.unstored ∧
    (State.showRecord r s).host = s.host ∧
    (State.showRecord r s).epo = s.epo ∧
    (State.showRecord r s).cat = s.cat ∧
    (State.showRecord r s).med = s.med ∧
    (State.showRecord r s).coh = s.coh ∧
    (State.showRecord r s).lnk = s.lnk ∧
    (State.showRecord r s).rte = s.rte ∧
    (State.showRecord r s).cap = s.cap ∧
    (State.showRecord r s).cry = s.cry ∧
    (State.showRecord r s).flt = s.flt ∧
    (State.showRecord r s).anl = s.anl ∧
    (State.showRecord r s).cur = s.cur ∧
    (State.showRecord r s).thm = s.thm ∧
    (State.showRecord r s).pwr = s.pwr ∧
    (State.showRecord r s).pmc = s.pmc ∧
    (State.showRecord r s).out = s.out ∧
    (State.showRecord r s).net = s.net ∧
    (State.showRecord r s).freeCtr = s.freeCtr ∧
    (State.showRecord r s).pending = s.pending := by
  unfold State.showRecord
  simp

@[simp] theorem State.loadRecord_kept (seq : Nat) (s : State) :
    (State.loadRecord seq s).member = s.member ∧
    (State.loadRecord seq s).now = s.now ∧
    (State.loadRecord seq s).unstored = s.unstored ∧
    (State.loadRecord seq s).host = s.host ∧
    (State.loadRecord seq s).epo = s.epo ∧
    (State.loadRecord seq s).cat = s.cat ∧
    (State.loadRecord seq s).med = s.med ∧
    (State.loadRecord seq s).coh = s.coh ∧
    (State.loadRecord seq s).lnk = s.lnk ∧
    (State.loadRecord seq s).rte = s.rte ∧
    (State.loadRecord seq s).cap = s.cap ∧
    (State.loadRecord seq s).cry = s.cry ∧
    (State.loadRecord seq s).flt = s.flt ∧
    (State.loadRecord seq s).anl = s.anl ∧
    (State.loadRecord seq s).cur = s.cur ∧
    (State.loadRecord seq s).thm = s.thm ∧
    (State.loadRecord seq s).pwr = s.pwr ∧
    (State.loadRecord seq s).pmc = s.pmc ∧
    (State.loadRecord seq s).out = s.out ∧
    (State.loadRecord seq s).net = s.net ∧
    (State.loadRecord seq s).freeCtr = s.freeCtr ∧
    (State.loadRecord seq s).pending = s.pending := by
  have k1 := State.showRecord_kept
  unfold State.loadRecord
  dsimp only
  repeat' split
  all_goals simp [k1]

@[simp] theorem State.setImage_kept (t b : Nat) (v : Image) (s : State) :
    (State.setImage t b v s).member = s.member ∧
    (State.setImage t b v s).now = s.now ∧
    (State.setImage t b v s).unstored = s.unstored ∧
    (State.setImage t b v s).host = s.host ∧
    (State.setImage t b v s).epo = s.epo ∧
    (State.setImage t b v s).cat = s.cat ∧
    (State.setImage t b v s).med = s.med ∧
    (State.setImage t b v s).coh = s.coh ∧
    (State.setImage t b v s).lnk = s.lnk ∧
    (State.setImage t b v s).rte = s.rte ∧
    (State.setImage t b v s).cap = s.cap ∧
    (State.setImage t b v s).cry = s.cry ∧
    (State.setImage t b v s).flt = s.flt ∧
    (State.setImage t b v s).anl = s.anl ∧
    (State.setImage t b v s).thm = s.thm ∧
    (State.setImage t b v s).pwr = s.pwr ∧
    (State.setImage t b v s).pmc = s.pmc ∧
    (State.setImage t b v s).out = s.out ∧
    (State.setImage t b v s).net = s.net ∧
    (State.setImage t b v s).freeCtr = s.freeCtr ∧
    (State.setImage t b v s).pending = s.pending ∧
    (State.setImage t b v s).cur.lifecycle = s.cur.lifecycle ∧
    (State.setImage t b v s).cur.rootGen = s.cur.rootGen ∧
    (State.setImage t b v s).cur.returns = s.cur.returns ∧
    (State.setImage t b v s).cur.revoked = s.cur.revoked := by
  unfold State.setImage
  simp

theorem State.writeChunk_kept (t b off : Nat) (l : List Byte) (s : State) :
    (State.writeChunk t b off l s).member = s.member ∧
    (State.writeChunk t b off l s).now = s.now ∧
    (State.writeChunk t b off l s).regs = s.regs ∧
    (State.writeChunk t b off l s).unstored = s.unstored ∧
    (State.writeChunk t b off l s).host = s.host ∧
    (State.writeChunk t b off l s).epo = s.epo ∧
    (State.writeChunk t b off l s).cat = s.cat ∧
    (State.writeChunk t b off l s).med = s.med ∧
    (State.writeChunk t b off l s).coh = s.coh ∧
    (State.writeChunk t b off l s).lnk = s.lnk ∧
    (State.writeChunk t b off l s).rte = s.rte ∧
    (State.writeChunk t b off l s).cap = s.cap ∧
    (State.writeChunk t b off l s).cry = s.cry ∧
    (State.writeChunk t b off l s).flt = s.flt ∧
    (State.writeChunk t b off l s).anl = s.anl ∧
    (State.writeChunk t b off l s).thm = s.thm ∧
    (State.writeChunk t b off l s).pwr = s.pwr ∧
    (State.writeChunk t b off l s).pmc = s.pmc ∧
    (State.writeChunk t b off l s).out = s.out ∧
    (State.writeChunk t b off l s).net = s.net ∧
    (State.writeChunk t b off l s).freeCtr = s.freeCtr ∧
    (State.writeChunk t b off l s).pending = s.pending ∧
    (State.writeChunk t b off l s).cur.lifecycle = s.cur.lifecycle ∧
    (State.writeChunk t b off l s).cur.rootGen = s.cur.rootGen ∧
    (State.writeChunk t b off l s).cur.returns = s.cur.returns ∧
    (State.writeChunk t b off l s).cur.revoked = s.cur.revoked := by
  unfold State.writeChunk
  simp

theorem State.copyImage_kept (t b t' b' : Nat) (s : State) :
    (State.copyImage t b t' b' s).member = s.member ∧
    (State.copyImage t b t' b' s).now = s.now ∧
    (State.copyImage t b t' b' s).unstored = s.unstored ∧
    (State.copyImage t b t' b' s).host = s.host ∧
    (State.copyImage t b t' b' s).epo = s.epo ∧
    (State.copyImage t b t' b' s).cat = s.cat ∧
    (State.copyImage t b t' b' s).med = s.med ∧
    (State.copyImage t b t' b' s).coh = s.coh ∧
    (State.copyImage t b t' b' s).lnk = s.lnk ∧
    (State.copyImage t b t' b' s).rte = s.rte ∧
    (State.copyImage t b t' b' s).cap = s.cap ∧
    (State.copyImage t b t' b' s).cry = s.cry ∧
    (State.copyImage t b t' b' s).flt = s.flt ∧
    (State.copyImage t b t' b' s).anl = s.anl ∧
    (State.copyImage t b t' b' s).thm = s.thm ∧
    (State.copyImage t b t' b' s).pwr = s.pwr ∧
    (State.copyImage t b t' b' s).pmc = s.pmc ∧
    (State.copyImage t b t' b' s).out = s.out ∧
    (State.copyImage t b t' b' s).net = s.net ∧
    (State.copyImage t b t' b' s).freeCtr = s.freeCtr ∧
    (State.copyImage t b t' b' s).pending = s.pending ∧
    (State.copyImage t b t' b' s).cur.lifecycle = s.cur.lifecycle ∧
    (State.copyImage t b t' b' s).cur.rootGen = s.cur.rootGen ∧
    (State.copyImage t b t' b' s).cur.returns = s.cur.returns ∧
    (State.copyImage t b t' b' s).cur.revoked = s.cur.revoked := by
  unfold State.copyImage
  simp

theorem State.setRunSlot_kept (t b : Nat) (s : State) :
    (State.setRunSlot t b s).member = s.member ∧
    (State.setRunSlot t b s).now = s.now ∧
    (State.setRunSlot t b s).regs = s.regs ∧
    (State.setRunSlot t b s).unstored = s.unstored ∧
    (State.setRunSlot t b s).host = s.host ∧
    (State.setRunSlot t b s).epo = s.epo ∧
    (State.setRunSlot t b s).cat = s.cat ∧
    (State.setRunSlot t b s).med = s.med ∧
    (State.setRunSlot t b s).coh = s.coh ∧
    (State.setRunSlot t b s).lnk = s.lnk ∧
    (State.setRunSlot t b s).rte = s.rte ∧
    (State.setRunSlot t b s).cap = s.cap ∧
    (State.setRunSlot t b s).cry = s.cry ∧
    (State.setRunSlot t b s).flt = s.flt ∧
    (State.setRunSlot t b s).anl = s.anl ∧
    (State.setRunSlot t b s).thm = s.thm ∧
    (State.setRunSlot t b s).pwr = s.pwr ∧
    (State.setRunSlot t b s).pmc = s.pmc ∧
    (State.setRunSlot t b s).out = s.out ∧
    (State.setRunSlot t b s).net = s.net ∧
    (State.setRunSlot t b s).freeCtr = s.freeCtr ∧
    (State.setRunSlot t b s).pending = s.pending ∧
    (State.setRunSlot t b s).cur.lifecycle = s.cur.lifecycle ∧
    (State.setRunSlot t b s).cur.rootGen = s.cur.rootGen ∧
    (State.setRunSlot t b s).cur.returns = s.cur.returns ∧
    (State.setRunSlot t b s).cur.revoked = s.cur.revoked := by
  unfold State.setRunSlot
  simp

theorem State.mbAnswer_kept (st : Status) (result : Nat) (s : State) :
    (State.mbAnswer st result s).member = s.member ∧
    (State.mbAnswer st result s).now = s.now ∧
    (State.mbAnswer st result s).unstored = s.unstored ∧
    (State.mbAnswer st result s).host = s.host ∧
    (State.mbAnswer st result s).epo = s.epo ∧
    (State.mbAnswer st result s).cat = s.cat ∧
    (State.mbAnswer st result s).med = s.med ∧
    (State.mbAnswer st result s).coh = s.coh ∧
    (State.mbAnswer st result s).lnk = s.lnk ∧
    (State.mbAnswer st result s).rte = s.rte ∧
    (State.mbAnswer st result s).cap = s.cap ∧
    (State.mbAnswer st result s).cry = s.cry ∧
    (State.mbAnswer st result s).flt = s.flt ∧
    (State.mbAnswer st result s).anl = s.anl ∧
    (State.mbAnswer st result s).thm = s.thm ∧
    (State.mbAnswer st result s).pwr = s.pwr ∧
    (State.mbAnswer st result s).pmc = s.pmc ∧
    (State.mbAnswer st result s).out = s.out ∧
    (State.mbAnswer st result s).net = s.net ∧
    (State.mbAnswer st result s).freeCtr = s.freeCtr ∧
    (State.mbAnswer st result s).pending = s.pending ∧
    (State.mbAnswer st result s).cur.lifecycle = s.cur.lifecycle ∧
    (State.mbAnswer st result s).cur.rootGen = s.cur.rootGen ∧
    (State.mbAnswer st result s).cur.returns = s.cur.returns ∧
    (State.mbAnswer st result s).cur.revoked = s.cur.revoked := by
  unfold State.mbAnswer
  simp

@[simp] theorem State.mbRequest_member (port code : Nat) (fits : Bool) (body : State → Status × Nat × State) (s : State) (h : ∀ s, (body s).2.2.member = s.member) :
    (State.mbRequest port code fits body s).member = s.member := by
  have k1 := State.mbAnswer_kept
  have hb := h s
  unfold State.mbRequest
  repeat' split
  all_goals simp_all [k1]

@[simp] theorem State.mbRequest_now (port code : Nat) (fits : Bool) (body : State → Status × Nat × State) (s : State) (h : ∀ s, (body s).2.2.now = s.now) :
    (State.mbRequest port code fits body s).now = s.now := by
  have k1 := State.mbAnswer_kept
  have hb := h s
  unfold State.mbRequest
  repeat' split
  all_goals simp_all [k1]

@[simp] theorem State.mbRequest_unstored (port code : Nat) (fits : Bool) (body : State → Status × Nat × State) (s : State) (h : ∀ s, (body s).2.2.unstored = s.unstored) :
    (State.mbRequest port code fits body s).unstored = s.unstored := by
  have k1 := State.mbAnswer_kept
  have hb := h s
  unfold State.mbRequest
  repeat' split
  all_goals simp_all [k1]

@[simp] theorem State.mbRequest_host (port code : Nat) (fits : Bool) (body : State → Status × Nat × State) (s : State) (h : ∀ s, (body s).2.2.host = s.host) :
    (State.mbRequest port code fits body s).host = s.host := by
  have k1 := State.mbAnswer_kept
  have hb := h s
  unfold State.mbRequest
  repeat' split
  all_goals simp_all [k1]

@[simp] theorem State.mbRequest_epo (port code : Nat) (fits : Bool) (body : State → Status × Nat × State) (s : State) (h : ∀ s, (body s).2.2.epo = s.epo) :
    (State.mbRequest port code fits body s).epo = s.epo := by
  have k1 := State.mbAnswer_kept
  have hb := h s
  unfold State.mbRequest
  repeat' split
  all_goals simp_all [k1]

@[simp] theorem State.mbRequest_cat (port code : Nat) (fits : Bool) (body : State → Status × Nat × State) (s : State) (h : ∀ s, (body s).2.2.cat = s.cat) :
    (State.mbRequest port code fits body s).cat = s.cat := by
  have k1 := State.mbAnswer_kept
  have hb := h s
  unfold State.mbRequest
  repeat' split
  all_goals simp_all [k1]

@[simp] theorem State.mbRequest_med (port code : Nat) (fits : Bool) (body : State → Status × Nat × State) (s : State) (h : ∀ s, (body s).2.2.med = s.med) :
    (State.mbRequest port code fits body s).med = s.med := by
  have k1 := State.mbAnswer_kept
  have hb := h s
  unfold State.mbRequest
  repeat' split
  all_goals simp_all [k1]

@[simp] theorem State.mbRequest_coh (port code : Nat) (fits : Bool) (body : State → Status × Nat × State) (s : State) (h : ∀ s, (body s).2.2.coh = s.coh) :
    (State.mbRequest port code fits body s).coh = s.coh := by
  have k1 := State.mbAnswer_kept
  have hb := h s
  unfold State.mbRequest
  repeat' split
  all_goals simp_all [k1]

@[simp] theorem State.mbRequest_lnk (port code : Nat) (fits : Bool) (body : State → Status × Nat × State) (s : State) (h : ∀ s, (body s).2.2.lnk = s.lnk) :
    (State.mbRequest port code fits body s).lnk = s.lnk := by
  have k1 := State.mbAnswer_kept
  have hb := h s
  unfold State.mbRequest
  repeat' split
  all_goals simp_all [k1]

@[simp] theorem State.mbRequest_rte (port code : Nat) (fits : Bool) (body : State → Status × Nat × State) (s : State) (h : ∀ s, (body s).2.2.rte = s.rte) :
    (State.mbRequest port code fits body s).rte = s.rte := by
  have k1 := State.mbAnswer_kept
  have hb := h s
  unfold State.mbRequest
  repeat' split
  all_goals simp_all [k1]

@[simp] theorem State.mbRequest_cap (port code : Nat) (fits : Bool) (body : State → Status × Nat × State) (s : State) (h : ∀ s, (body s).2.2.cap = s.cap) :
    (State.mbRequest port code fits body s).cap = s.cap := by
  have k1 := State.mbAnswer_kept
  have hb := h s
  unfold State.mbRequest
  repeat' split
  all_goals simp_all [k1]

@[simp] theorem State.mbRequest_cry (port code : Nat) (fits : Bool) (body : State → Status × Nat × State) (s : State) (h : ∀ s, (body s).2.2.cry = s.cry) :
    (State.mbRequest port code fits body s).cry = s.cry := by
  have k1 := State.mbAnswer_kept
  have hb := h s
  unfold State.mbRequest
  repeat' split
  all_goals simp_all [k1]

@[simp] theorem State.mbRequest_flt (port code : Nat) (fits : Bool) (body : State → Status × Nat × State) (s : State) (h : ∀ s, (body s).2.2.flt = s.flt) :
    (State.mbRequest port code fits body s).flt = s.flt := by
  have k1 := State.mbAnswer_kept
  have hb := h s
  unfold State.mbRequest
  repeat' split
  all_goals simp_all [k1]

@[simp] theorem State.mbRequest_anl (port code : Nat) (fits : Bool) (body : State → Status × Nat × State) (s : State) (h : ∀ s, (body s).2.2.anl = s.anl) :
    (State.mbRequest port code fits body s).anl = s.anl := by
  have k1 := State.mbAnswer_kept
  have hb := h s
  unfold State.mbRequest
  repeat' split
  all_goals simp_all [k1]

@[simp] theorem State.mbRequest_thm (port code : Nat) (fits : Bool) (body : State → Status × Nat × State) (s : State) (h : ∀ s, (body s).2.2.thm = s.thm) :
    (State.mbRequest port code fits body s).thm = s.thm := by
  have k1 := State.mbAnswer_kept
  have hb := h s
  unfold State.mbRequest
  repeat' split
  all_goals simp_all [k1]

@[simp] theorem State.mbRequest_pwr (port code : Nat) (fits : Bool) (body : State → Status × Nat × State) (s : State) (h : ∀ s, (body s).2.2.pwr = s.pwr) :
    (State.mbRequest port code fits body s).pwr = s.pwr := by
  have k1 := State.mbAnswer_kept
  have hb := h s
  unfold State.mbRequest
  repeat' split
  all_goals simp_all [k1]

@[simp] theorem State.mbRequest_pmc (port code : Nat) (fits : Bool) (body : State → Status × Nat × State) (s : State) (h : ∀ s, (body s).2.2.pmc = s.pmc) :
    (State.mbRequest port code fits body s).pmc = s.pmc := by
  have k1 := State.mbAnswer_kept
  have hb := h s
  unfold State.mbRequest
  repeat' split
  all_goals simp_all [k1]

@[simp] theorem State.mbRequest_out (port code : Nat) (fits : Bool) (body : State → Status × Nat × State) (s : State) (h : ∀ s, (body s).2.2.out = s.out) :
    (State.mbRequest port code fits body s).out = s.out := by
  have k1 := State.mbAnswer_kept
  have hb := h s
  unfold State.mbRequest
  repeat' split
  all_goals simp_all [k1]

@[simp] theorem State.mbRequest_net (port code : Nat) (fits : Bool) (body : State → Status × Nat × State) (s : State) (h : ∀ s, (body s).2.2.net = s.net) :
    (State.mbRequest port code fits body s).net = s.net := by
  have k1 := State.mbAnswer_kept
  have hb := h s
  unfold State.mbRequest
  repeat' split
  all_goals simp_all [k1]

@[simp] theorem State.mbRequest_freeCtr (port code : Nat) (fits : Bool) (body : State → Status × Nat × State) (s : State) (h : ∀ s, (body s).2.2.freeCtr = s.freeCtr) :
    (State.mbRequest port code fits body s).freeCtr = s.freeCtr := by
  have k1 := State.mbAnswer_kept
  have hb := h s
  unfold State.mbRequest
  repeat' split
  all_goals simp_all [k1]

@[simp] theorem State.mbRequest_pending (port code : Nat) (fits : Bool) (body : State → Status × Nat × State) (s : State) (h : ∀ s, (body s).2.2.pending = s.pending) :
    (State.mbRequest port code fits body s).pending = s.pending := by
  have k1 := State.mbAnswer_kept
  have hb := h s
  unfold State.mbRequest
  repeat' split
  all_goals simp_all [k1]

@[simp] theorem State.mbRequest_cur_lifecycle (port code : Nat) (fits : Bool) (body : State → Status × Nat × State) (s : State) (h : ∀ s, (body s).2.2.cur.lifecycle = s.cur.lifecycle) :
    (State.mbRequest port code fits body s).cur.lifecycle = s.cur.lifecycle := by
  have k1 := State.mbAnswer_kept
  have hb := h s
  unfold State.mbRequest
  repeat' split
  all_goals simp_all [k1]

@[simp] theorem State.mbRequest_cur_rootGen (port code : Nat) (fits : Bool) (body : State → Status × Nat × State) (s : State) (h : ∀ s, (body s).2.2.cur.rootGen = s.cur.rootGen) :
    (State.mbRequest port code fits body s).cur.rootGen = s.cur.rootGen := by
  have k1 := State.mbAnswer_kept
  have hb := h s
  unfold State.mbRequest
  repeat' split
  all_goals simp_all [k1]

@[simp] theorem State.mbRequest_cur_returns (port code : Nat) (fits : Bool) (body : State → Status × Nat × State) (s : State) (h : ∀ s, (body s).2.2.cur.returns = s.cur.returns) :
    (State.mbRequest port code fits body s).cur.returns = s.cur.returns := by
  have k1 := State.mbAnswer_kept
  have hb := h s
  unfold State.mbRequest
  repeat' split
  all_goals simp_all [k1]

@[simp] theorem State.mbRequest_cur_revoked (port code : Nat) (fits : Bool) (body : State → Status × Nat × State) (s : State) (h : ∀ s, (body s).2.2.cur.revoked = s.cur.revoked) :
    (State.mbRequest port code fits body s).cur.revoked = s.cur.revoked := by
  have k1 := State.mbAnswer_kept
  have hb := h s
  unfold State.mbRequest
  repeat' split
  all_goals simp_all [k1]

theorem State.mbStart_kept (port code len : Nat) (s : State) :
    (State.mbStart port code len s).member = s.member ∧
    (State.mbStart port code len s).now = s.now ∧
    (State.mbStart port code len s).unstored = s.unstored ∧
    (State.mbStart port code len s).host = s.host ∧
    (State.mbStart port code len s).epo = s.epo ∧
    (State.mbStart port code len s).cat = s.cat ∧
    (State.mbStart port code len s).med = s.med ∧
    (State.mbStart port code len s).coh = s.coh ∧
    (State.mbStart port code len s).lnk = s.lnk ∧
    (State.mbStart port code len s).rte = s.rte ∧
    (State.mbStart port code len s).cap = s.cap ∧
    (State.mbStart port code len s).cry = s.cry ∧
    (State.mbStart port code len s).flt = s.flt ∧
    (State.mbStart port code len s).anl = s.anl ∧
    (State.mbStart port code len s).thm = s.thm ∧
    (State.mbStart port code len s).pwr = s.pwr ∧
    (State.mbStart port code len s).out = s.out ∧
    (State.mbStart port code len s).net = s.net ∧
    (State.mbStart port code len s).freeCtr = s.freeCtr ∧
    (State.mbStart port code len s).pending = s.pending ∧
    (State.mbStart port code len s).cur.lifecycle = s.cur.lifecycle ∧
    (State.mbStart port code len s).cur.rootGen = s.cur.rootGen ∧
    (State.mbStart port code len s).cur.returns = s.cur.returns ∧
    (State.mbStart port code len s).cur.revoked = s.cur.revoked := by
  have k1 := State.curWork_kept
  have k2 := State.mbAnswer_kept
  unfold State.mbStart
  dsimp only
  repeat' split
  all_goals simp [k1, k2]

@[simp] theorem State.mbClaim_kept (port : Nat) (s : State) :
    (State.mbClaim port s).member = s.member ∧
    (State.mbClaim port s).now = s.now ∧
    (State.mbClaim port s).regs = s.regs ∧
    (State.mbClaim port s).unstored = s.unstored ∧
    (State.mbClaim port s).host = s.host ∧
    (State.mbClaim port s).epo = s.epo ∧
    (State.mbClaim port s).cat = s.cat ∧
    (State.mbClaim port s).med = s.med ∧
    (State.mbClaim port s).coh = s.coh ∧
    (State.mbClaim port s).lnk = s.lnk ∧
    (State.mbClaim port s).rte = s.rte ∧
    (State.mbClaim port s).cap = s.cap ∧
    (State.mbClaim port s).cry = s.cry ∧
    (State.mbClaim port s).flt = s.flt ∧
    (State.mbClaim port s).anl = s.anl ∧
    (State.mbClaim port s).thm = s.thm ∧
    (State.mbClaim port s).pwr = s.pwr ∧
    (State.mbClaim port s).pmc = s.pmc ∧
    (State.mbClaim port s).out = s.out ∧
    (State.mbClaim port s).net = s.net ∧
    (State.mbClaim port s).freeCtr = s.freeCtr ∧
    (State.mbClaim port s).pending = s.pending ∧
    (State.mbClaim port s).cur.lifecycle = s.cur.lifecycle ∧
    (State.mbClaim port s).cur.rootGen = s.cur.rootGen ∧
    (State.mbClaim port s).cur.returns = s.cur.returns ∧
    (State.mbClaim port s).cur.revoked = s.cur.revoked := by
  unfold State.mbClaim
  dsimp only
  repeat' split
  all_goals simp

@[simp] theorem State.mbRelease_kept (port : Nat) (s : State) :
    (State.mbRelease port s).member = s.member ∧
    (State.mbRelease port s).now = s.now ∧
    (State.mbRelease port s).regs = s.regs ∧
    (State.mbRelease port s).unstored = s.unstored ∧
    (State.mbRelease port s).host = s.host ∧
    (State.mbRelease port s).epo = s.epo ∧
    (State.mbRelease port s).cat = s.cat ∧
    (State.mbRelease port s).med = s.med ∧
    (State.mbRelease port s).coh = s.coh ∧
    (State.mbRelease port s).lnk = s.lnk ∧
    (State.mbRelease port s).rte = s.rte ∧
    (State.mbRelease port s).cap = s.cap ∧
    (State.mbRelease port s).cry = s.cry ∧
    (State.mbRelease port s).flt = s.flt ∧
    (State.mbRelease port s).anl = s.anl ∧
    (State.mbRelease port s).thm = s.thm ∧
    (State.mbRelease port s).pwr = s.pwr ∧
    (State.mbRelease port s).pmc = s.pmc ∧
    (State.mbRelease port s).out = s.out ∧
    (State.mbRelease port s).net = s.net ∧
    (State.mbRelease port s).freeCtr = s.freeCtr ∧
    (State.mbRelease port s).pending = s.pending ∧
    (State.mbRelease port s).cur.lifecycle = s.cur.lifecycle ∧
    (State.mbRelease port s).cur.rootGen = s.cur.rootGen ∧
    (State.mbRelease port s).cur.returns = s.cur.returns ∧
    (State.mbRelease port s).cur.revoked = s.cur.revoked := by
  unfold State.mbRelease
  dsimp only
  repeat' split
  all_goals simp

theorem State.makePrimary_kept (t : Nat) (s : State) :
    (State.makePrimary t s).member = s.member ∧
    (State.makePrimary t s).now = s.now ∧
    (State.makePrimary t s).unstored = s.unstored ∧
    (State.makePrimary t s).host = s.host ∧
    (State.makePrimary t s).epo = s.epo ∧
    (State.makePrimary t s).cat = s.cat ∧
    (State.makePrimary t s).med = s.med ∧
    (State.makePrimary t s).coh = s.coh ∧
    (State.makePrimary t s).lnk = s.lnk ∧
    (State.makePrimary t s).rte = s.rte ∧
    (State.makePrimary t s).cap = s.cap ∧
    (State.makePrimary t s).cry = s.cry ∧
    (State.makePrimary t s).flt = s.flt ∧
    (State.makePrimary t s).anl = s.anl ∧
    (State.makePrimary t s).thm = s.thm ∧
    (State.makePrimary t s).pwr = s.pwr ∧
    (State.makePrimary t s).pmc = s.pmc ∧
    (State.makePrimary t s).out = s.out ∧
    (State.makePrimary t s).net = s.net ∧
    (State.makePrimary t s).pending = s.pending ∧
    (State.makePrimary t s).cur.lifecycle = s.cur.lifecycle ∧
    (State.makePrimary t s).cur.rootGen = s.cur.rootGen ∧
    (State.makePrimary t s).cur.returns = s.cur.returns ∧
    (State.makePrimary t s).cur.revoked = s.cur.revoked := by
  unfold State.makePrimary
  simp

theorem State.dropQueue_kept (s : State) :
    (State.dropQueue s).member = s.member ∧
    (State.dropQueue s).now = s.now ∧
    (State.dropQueue s).unstored = s.unstored ∧
    (State.dropQueue s).epo = s.epo ∧
    (State.dropQueue s).cat = s.cat ∧
    (State.dropQueue s).med = s.med ∧
    (State.dropQueue s).coh = s.coh ∧
    (State.dropQueue s).lnk = s.lnk ∧
    (State.dropQueue s).rte = s.rte ∧
    (State.dropQueue s).cap = s.cap ∧
    (State.dropQueue s).cry = s.cry ∧
    (State.dropQueue s).flt = s.flt ∧
    (State.dropQueue s).anl = s.anl ∧
    (State.dropQueue s).thm = s.thm ∧
    (State.dropQueue s).pwr = s.pwr ∧
    (State.dropQueue s).pmc = s.pmc ∧
    (State.dropQueue s).net = s.net ∧
    (State.dropQueue s).freeCtr = s.freeCtr ∧
    (State.dropQueue s).pending = s.pending ∧
    (State.dropQueue s).cur.lifecycle = s.cur.lifecycle ∧
    (State.dropQueue s).cur.rootGen = s.cur.rootGen ∧
    (State.dropQueue s).cur.returns = s.cur.returns ∧
    (State.dropQueue s).cur.revoked = s.cur.revoked := by
  have k1 := State.mbAnswer_kept
  unfold State.dropQueue
  (try dsimp only)
  refine ⟨foldl_member _ _ ?_ _ _, foldl_now _ _ ?_ _ _, foldl_unstored _ _ ?_ _ _, foldl_epo _ _ ?_ _ _, foldl_cat _ _ ?_ _ _, foldl_med _ _ ?_ _ _, foldl_coh _ _ ?_ _ _, foldl_lnk _ _ ?_ _ _, foldl_rte _ _ ?_ _ _, foldl_cap _ _ ?_ _ _, foldl_cry _ _ ?_ _ _, foldl_flt _ _ ?_ _ _, foldl_anl _ _ ?_ _ _, foldl_thm _ _ ?_ _ _, foldl_pwr _ _ ?_ _ _, foldl_pmc _ _ ?_ _ _, foldl_net _ _ ?_ _ _, foldl_freeCtr _ _ ?_ _ _, foldl_pending _ _ ?_ _ _, foldl_cur_lifecycle _ _ ?_ _ _, foldl_cur_rootGen _ _ ?_ _ _, foldl_cur_returns _ _ ?_ _ _, foldl_cur_revoked _ _ ?_ _ _⟩
  all_goals
    intro s x
    (try dsimp only)
    repeat' split
    all_goals simp [k1]

@[simp] theorem State.endActivation_kept (st : Status) (result : Nat) (s : State) :
    (State.endActivation st result s).member = s.member ∧
    (State.endActivation st result s).now = s.now ∧
    (State.endActivation st result s).unstored = s.unstored ∧
    (State.endActivation st result s).epo = s.epo ∧
    (State.endActivation st result s).cat = s.cat ∧
    (State.endActivation st result s).med = s.med ∧
    (State.endActivation st result s).coh = s.coh ∧
    (State.endActivation st result s).lnk = s.lnk ∧
    (State.endActivation st result s).rte = s.rte ∧
    (State.endActivation st result s).cap = s.cap ∧
    (State.endActivation st result s).cry = s.cry ∧
    (State.endActivation st result s).flt = s.flt ∧
    (State.endActivation st result s).anl = s.anl ∧
    (State.endActivation st result s).thm = s.thm ∧
    (State.endActivation st result s).pwr = s.pwr ∧
    (State.endActivation st result s).pmc = s.pmc ∧
    (State.endActivation st result s).net = s.net ∧
    (State.endActivation st result s).freeCtr = s.freeCtr ∧
    (State.endActivation st result s).pending = s.pending ∧
    (State.endActivation st result s).cur.lifecycle = s.cur.lifecycle ∧
    (State.endActivation st result s).cur.rootGen = s.cur.rootGen ∧
    (State.endActivation st result s).cur.returns = s.cur.returns ∧
    (State.endActivation st result s).cur.revoked = s.cur.revoked := by
  unfold State.endActivation
  dsimp only
  repeat' split
  all_goals simp

theorem State.curPasses_kept (t : Nat) (orderly : Bool) (s : State) :
    (State.curPasses t orderly s).member = s.member ∧
    (State.curPasses t orderly s).now = s.now ∧
    (State.curPasses t orderly s).unstored = s.unstored ∧
    (State.curPasses t orderly s).thm = s.thm ∧
    (State.curPasses t orderly s).pending = s.pending ∧
    (State.curPasses t orderly s).pwr.straps = s.pwr.straps ∧
    (State.curPasses t orderly s).cur.lifecycle = s.cur.lifecycle ∧
    (State.curPasses t orderly s).cur.rootGen = s.cur.rootGen ∧
    (State.curPasses t orderly s).cur.returns = s.cur.returns ∧
    (State.curPasses t orderly s).cur.revoked = s.cur.revoked := by
  unfold State.curPasses
  simp

@[simp] theorem State.takeOver_kept (p : Nat) (s : State) :
    (State.takeOver p s).member = s.member ∧
    (State.takeOver p s).now = s.now ∧
    (State.takeOver p s).unstored = s.unstored ∧
    (State.takeOver p s).thm = s.thm ∧
    (State.takeOver p s).pending = s.pending ∧
    (State.takeOver p s).pwr.straps = s.pwr.straps ∧
    (State.takeOver p s).cur.lifecycle = s.cur.lifecycle ∧
    (State.takeOver p s).cur.rootGen = s.cur.rootGen ∧
    (State.takeOver p s).cur.returns = s.cur.returns ∧
    (State.takeOver p s).cur.revoked = s.cur.revoked := by
  have k1 := State.curPasses_kept
  have k2 := State.dropQueue_kept
  have k3 := State.makePrimary_kept
  have k4 := State.roleChanged_kept
  unfold State.takeOver
  dsimp only
  repeat' split
  all_goals simp [k1, k2, k3, k4]

@[simp] theorem State.swapRoles_kept (p : Nat) (s : State) :
    (State.swapRoles p s).member = s.member ∧
    (State.swapRoles p s).now = s.now ∧
    (State.swapRoles p s).unstored = s.unstored ∧
    (State.swapRoles p s).epo = s.epo ∧
    (State.swapRoles p s).cat = s.cat ∧
    (State.swapRoles p s).med = s.med ∧
    (State.swapRoles p s).coh = s.coh ∧
    (State.swapRoles p s).lnk = s.lnk ∧
    (State.swapRoles p s).rte = s.rte ∧
    (State.swapRoles p s).cap = s.cap ∧
    (State.swapRoles p s).cry = s.cry ∧
    (State.swapRoles p s).flt = s.flt ∧
    (State.swapRoles p s).thm = s.thm ∧
    (State.swapRoles p s).pwr = s.pwr ∧
    (State.swapRoles p s).pmc = s.pmc ∧
    (State.swapRoles p s).net = s.net ∧
    (State.swapRoles p s).pending = s.pending ∧
    (State.swapRoles p s).cur.lifecycle = s.cur.lifecycle ∧
    (State.swapRoles p s).cur.rootGen = s.cur.rootGen ∧
    (State.swapRoles p s).cur.returns = s.cur.returns ∧
    (State.swapRoles p s).cur.revoked = s.cur.revoked := by
  have k1 := State.makePrimary_kept
  have k2 := State.roleChanged_kept
  unfold State.swapRoles
  simp [k1, k2]

theorem State.restartFrom_kept (t b : Nat) (s : State) :
    (State.restartFrom t b s).member = s.member ∧
    (State.restartFrom t b s).now = s.now ∧
    (State.restartFrom t b s).unstored = s.unstored ∧
    (State.restartFrom t b s).thm = s.thm ∧
    (State.restartFrom t b s).pending = s.pending ∧
    (State.restartFrom t b s).pwr.straps = s.pwr.straps ∧
    (State.restartFrom t b s).cur.lifecycle = s.cur.lifecycle ∧
    (State.restartFrom t b s).cur.rootGen = s.cur.rootGen ∧
    (State.restartFrom t b s).cur.returns = s.cur.returns ∧
    (State.restartFrom t b s).cur.revoked = s.cur.revoked := by
  have k1 := State.curPasses_kept
  have k2 := State.setRunSlot_kept
  unfold State.restartFrom
  simp [k1, k2]

@[simp] theorem State.heartbeat_kept (t : Nat) (s : State) :
    (State.heartbeat t s).member = s.member ∧
    (State.heartbeat t s).now = s.now ∧
    (State.heartbeat t s).regs = s.regs ∧
    (State.heartbeat t s).unstored = s.unstored ∧
    (State.heartbeat t s).host = s.host ∧
    (State.heartbeat t s).epo = s.epo ∧
    (State.heartbeat t s).cat = s.cat ∧
    (State.heartbeat t s).med = s.med ∧
    (State.heartbeat t s).coh = s.coh ∧
    (State.heartbeat t s).lnk = s.lnk ∧
    (State.heartbeat t s).rte = s.rte ∧
    (State.heartbeat t s).cap = s.cap ∧
    (State.heartbeat t s).cry = s.cry ∧
    (State.heartbeat t s).flt = s.flt ∧
    (State.heartbeat t s).anl = s.anl ∧
    (State.heartbeat t s).thm = s.thm ∧
    (State.heartbeat t s).pwr = s.pwr ∧
    (State.heartbeat t s).pmc = s.pmc ∧
    (State.heartbeat t s).out = s.out ∧
    (State.heartbeat t s).net = s.net ∧
    (State.heartbeat t s).freeCtr = s.freeCtr ∧
    (State.heartbeat t s).pending = s.pending ∧
    (State.heartbeat t s).cur.lifecycle = s.cur.lifecycle ∧
    (State.heartbeat t s).cur.rootGen = s.cur.rootGen ∧
    (State.heartbeat t s).cur.returns = s.cur.returns ∧
    (State.heartbeat t s).cur.revoked = s.cur.revoked := by
  unfold State.heartbeat
  simp

theorem State.activateSwap_kept (p : Nat) (a : Activation) (s : State) :
    (State.activateSwap p a s).member = s.member ∧
    (State.activateSwap p a s).now = s.now ∧
    (State.activateSwap p a s).unstored = s.unstored ∧
    (State.activateSwap p a s).thm = s.thm ∧
    (State.activateSwap p a s).pending = s.pending ∧
    (State.activateSwap p a s).pwr.straps = s.pwr.straps ∧
    (State.activateSwap p a s).cur.lifecycle = s.cur.lifecycle ∧
    (State.activateSwap p a s).cur.rootGen = s.cur.rootGen ∧
    (State.activateSwap p a s).cur.returns = s.cur.returns ∧
    (State.activateSwap p a s).cur.revoked = s.cur.revoked := by
  have k1 := State.copyImage_kept
  have k2 := State.restartFrom_kept
  unfold State.activateSwap
  simp [k1, k2]

theorem State.activateDone_kept (a : Activation) (s : State) :
    (State.activateDone a s).member = s.member ∧
    (State.activateDone a s).now = s.now ∧
    (State.activateDone a s).unstored = s.unstored ∧
    (State.activateDone a s).epo = s.epo ∧
    (State.activateDone a s).cat = s.cat ∧
    (State.activateDone a s).med = s.med ∧
    (State.activateDone a s).coh = s.coh ∧
    (State.activateDone a s).lnk = s.lnk ∧
    (State.activateDone a s).rte = s.rte ∧
    (State.activateDone a s).cap = s.cap ∧
    (State.activateDone a s).cry = s.cry ∧
    (State.activateDone a s).flt = s.flt ∧
    (State.activateDone a s).anl = s.anl ∧
    (State.activateDone a s).thm = s.thm ∧
    (State.activateDone a s).pwr = s.pwr ∧
    (State.activateDone a s).pmc = s.pmc ∧
    (State.activateDone a s).net = s.net ∧
    (State.activateDone a s).freeCtr = s.freeCtr ∧
    (State.activateDone a s).pending = s.pending ∧
    (State.activateDone a s).cur.lifecycle = s.cur.lifecycle ∧
    (State.activateDone a s).cur.rootGen = s.cur.rootGen ∧
    (State.activateDone a s).cur.returns = s.cur.returns ∧
    (State.activateDone a s).cur.revoked = s.cur.revoked := by
  unfold State.activateDone
  simp

@[simp] theorem State.synced_kept (p : Nat) (s : State) :
    (State.synced p s).member = s.member ∧
    (State.synced p s).now = s.now ∧
    (State.synced p s).unstored = s.unstored ∧
    (State.synced p s).thm = s.thm ∧
    (State.synced p s).pending = s.pending ∧
    (State.synced p s).pwr.straps = s.pwr.straps ∧
    (State.synced p s).cur.lifecycle = s.cur.lifecycle ∧
    (State.synced p s).cur.rootGen = s.cur.rootGen ∧
    (State.synced p s).cur.returns = s.cur.returns ∧
    (State.synced p s).cur.revoked = s.cur.revoked := by
  have k1 := State.activateDone_kept
  have k2 := State.activateSwap_kept
  unfold State.synced
  dsimp only
  repeat' split
  all_goals simp [k1, k2]

@[simp] theorem State.restartLate_kept (t : Nat) (s : State) :
    (State.restartLate t s).member = s.member ∧
    (State.restartLate t s).now = s.now ∧
    (State.restartLate t s).unstored = s.unstored ∧
    (State.restartLate t s).epo = s.epo ∧
    (State.restartLate t s).cat = s.cat ∧
    (State.restartLate t s).med = s.med ∧
    (State.restartLate t s).coh = s.coh ∧
    (State.restartLate t s).lnk = s.lnk ∧
    (State.restartLate t s).rte = s.rte ∧
    (State.restartLate t s).cap = s.cap ∧
    (State.restartLate t s).cry = s.cry ∧
    (State.restartLate t s).flt = s.flt ∧
    (State.restartLate t s).anl = s.anl ∧
    (State.restartLate t s).thm = s.thm ∧
    (State.restartLate t s).pwr = s.pwr ∧
    (State.restartLate t s).pmc = s.pmc ∧
    (State.restartLate t s).net = s.net ∧
    (State.restartLate t s).freeCtr = s.freeCtr ∧
    (State.restartLate t s).pending = s.pending ∧
    (State.restartLate t s).cur.lifecycle = s.cur.lifecycle ∧
    (State.restartLate t s).cur.rootGen = s.cur.rootGen ∧
    (State.restartLate t s).cur.returns = s.cur.returns ∧
    (State.restartLate t s).cur.revoked = s.cur.revoked := by
  have k1 := State.setRunSlot_kept
  unfold State.restartLate
  simp [k1]

theorem State.writeDue_kept (s : State) :
    (State.writeDue s).member = s.member ∧
    (State.writeDue s).now = s.now ∧
    (State.writeDue s).regs = s.regs ∧
    (State.writeDue s).unstored = s.unstored ∧
    (State.writeDue s).host = s.host ∧
    (State.writeDue s).epo = s.epo ∧
    (State.writeDue s).cat = s.cat ∧
    (State.writeDue s).med = s.med ∧
    (State.writeDue s).coh = s.coh ∧
    (State.writeDue s).lnk = s.lnk ∧
    (State.writeDue s).rte = s.rte ∧
    (State.writeDue s).cap = s.cap ∧
    (State.writeDue s).cry = s.cry ∧
    (State.writeDue s).flt = s.flt ∧
    (State.writeDue s).cur = s.cur ∧
    (State.writeDue s).thm = s.thm ∧
    (State.writeDue s).pwr = s.pwr ∧
    (State.writeDue s).pmc = s.pmc ∧
    (State.writeDue s).out = s.out ∧
    (State.writeDue s).net = s.net ∧
    (State.writeDue s).freeCtr = s.freeCtr ∧
    (State.writeDue s).pending = s.pending := by
  unfold State.writeDue
  simp

theorem State.startStandby_kept (s : State) :
    (State.startStandby s).member = s.member ∧
    (State.startStandby s).now = s.now ∧
    (State.startStandby s).regs = s.regs ∧
    (State.startStandby s).unstored = s.unstored ∧
    (State.startStandby s).host = s.host ∧
    (State.startStandby s).epo = s.epo ∧
    (State.startStandby s).cat = s.cat ∧
    (State.startStandby s).med = s.med ∧
    (State.startStandby s).coh = s.coh ∧
    (State.startStandby s).lnk = s.lnk ∧
    (State.startStandby s).rte = s.rte ∧
    (State.startStandby s).cap = s.cap ∧
    (State.startStandby s).cry = s.cry ∧
    (State.startStandby s).flt = s.flt ∧
    (State.startStandby s).anl = s.anl ∧
    (State.startStandby s).thm = s.thm ∧
    (State.startStandby s).pwr = s.pwr ∧
    (State.startStandby s).pmc = s.pmc ∧
    (State.startStandby s).out = s.out ∧
    (State.startStandby s).net = s.net ∧
    (State.startStandby s).freeCtr = s.freeCtr ∧
    (State.startStandby s).pending = s.pending ∧
    (State.startStandby s).cur.lifecycle = s.cur.lifecycle ∧
    (State.startStandby s).cur.rootGen = s.cur.rootGen ∧
    (State.startStandby s).cur.returns = s.cur.returns ∧
    (State.startStandby s).cur.revoked = s.cur.revoked := by
  unfold State.startStandby
  dsimp only
  repeat' split
  all_goals simp

@[simp] theorem State.restarted_kept (t : Nat) (version : Word) (s : State) :
    (State.restarted t version s).member = s.member ∧
    (State.restarted t version s).now = s.now ∧
    (State.restarted t version s).unstored = s.unstored ∧
    (State.restarted t version s).epo = s.epo ∧
    (State.restarted t version s).cat = s.cat ∧
    (State.restarted t version s).med = s.med ∧
    (State.restarted t version s).coh = s.coh ∧
    (State.restarted t version s).lnk = s.lnk ∧
    (State.restarted t version s).rte = s.rte ∧
    (State.restarted t version s).cap = s.cap ∧
    (State.restarted t version s).cry = s.cry ∧
    (State.restarted t version s).flt = s.flt ∧
    (State.restarted t version s).thm = s.thm ∧
    (State.restarted t version s).pwr = s.pwr ∧
    (State.restarted t version s).pmc = s.pmc ∧
    (State.restarted t version s).net = s.net ∧
    (State.restarted t version s).pending = s.pending ∧
    (State.restarted t version s).cur.lifecycle = s.cur.lifecycle ∧
    (State.restarted t version s).cur.rootGen = s.cur.rootGen ∧
    (State.restarted t version s).cur.returns = s.cur.returns ∧
    (State.restarted t version s).cur.revoked = s.cur.revoked := by
  have k1 := State.activateDone_kept
  have k2 := State.makePrimary_kept
  have k3 := State.roleChanged_kept
  have k4 := State.startStandby_kept
  have k5 := State.writeDue_kept
  unfold State.restarted
  dsimp only
  repeat' split
  all_goals simp [k1, k2, k3, k4, k5]

@[simp] theorem State.noteReset_kept (kind value : Nat) (s : State) :
    (State.noteReset kind value s).member = s.member ∧
    (State.noteReset kind value s).now = s.now ∧
    (State.noteReset kind value s).unstored = s.unstored ∧
    (State.noteReset kind value s).host = s.host ∧
    (State.noteReset kind value s).epo = s.epo ∧
    (State.noteReset kind value s).cat = s.cat ∧
    (State.noteReset kind value s).med = s.med ∧
    (State.noteReset kind value s).coh = s.coh ∧
    (State.noteReset kind value s).lnk = s.lnk ∧
    (State.noteReset kind value s).rte = s.rte ∧
    (State.noteReset kind value s).cap = s.cap ∧
    (State.noteReset kind value s).cry = s.cry ∧
    (State.noteReset kind value s).flt = s.flt ∧
    (State.noteReset kind value s).cur = s.cur ∧
    (State.noteReset kind value s).thm = s.thm ∧
    (State.noteReset kind value s).pwr = s.pwr ∧
    (State.noteReset kind value s).pmc = s.pmc ∧
    (State.noteReset kind value s).out = s.out ∧
    (State.noteReset kind value s).net = s.net ∧
    (State.noteReset kind value s).freeCtr = s.freeCtr ∧
    (State.noteReset kind value s).pending = s.pending := by
  unfold State.noteReset
  simp

@[simp] theorem State.curReset_kept (t : Nat) (s : State) :
    (State.curReset t s).member = s.member ∧
    (State.curReset t s).now = s.now ∧
    (State.curReset t s).unstored = s.unstored ∧
    (State.curReset t s).thm = s.thm ∧
    (State.curReset t s).pending = s.pending ∧
    (State.curReset t s).pwr.straps = s.pwr.straps ∧
    (State.curReset t s).cur.lifecycle = s.cur.lifecycle ∧
    (State.curReset t s).cur.rootGen = s.cur.rootGen ∧
    (State.curReset t s).cur.returns = s.cur.returns ∧
    (State.curReset t s).cur.revoked = s.cur.revoked := by
  have k1 := State.curPasses_kept
  have k2 := State.dropQueue_kept
  unfold State.curReset
  dsimp only
  repeat' split
  all_goals simp [k1, k2]

theorem State.stageChunk_kept (t b off : Nat) (l : List Byte) (last : Bool) (s : State) :
    (State.stageChunk t b off l last s).member = s.member ∧
    (State.stageChunk t b off l last s).now = s.now ∧
    (State.stageChunk t b off l last s).unstored = s.unstored ∧
    (State.stageChunk t b off l last s).host = s.host ∧
    (State.stageChunk t b off l last s).epo = s.epo ∧
    (State.stageChunk t b off l last s).cat = s.cat ∧
    (State.stageChunk t b off l last s).med = s.med ∧
    (State.stageChunk t b off l last s).coh = s.coh ∧
    (State.stageChunk t b off l last s).lnk = s.lnk ∧
    (State.stageChunk t b off l last s).rte = s.rte ∧
    (State.stageChunk t b off l last s).cap = s.cap ∧
    (State.stageChunk t b off l last s).cry = s.cry ∧
    (State.stageChunk t b off l last s).flt = s.flt ∧
    (State.stageChunk t b off l last s).anl = s.anl ∧
    (State.stageChunk t b off l last s).thm = s.thm ∧
    (State.stageChunk t b off l last s).pwr = s.pwr ∧
    (State.stageChunk t b off l last s).pmc = s.pmc ∧
    (State.stageChunk t b off l last s).out = s.out ∧
    (State.stageChunk t b off l last s).net = s.net ∧
    (State.stageChunk t b off l last s).freeCtr = s.freeCtr ∧
    (State.stageChunk t b off l last s).pending = s.pending ∧
    (State.stageChunk t b off l last s).cur.lifecycle = s.cur.lifecycle ∧
    (State.stageChunk t b off l last s).cur.rootGen = s.cur.rootGen ∧
    (State.stageChunk t b off l last s).cur.returns = s.cur.returns ∧
    (State.stageChunk t b off l last s).cur.revoked = s.cur.revoked := by
  have k1 := State.writeChunk_kept
  unfold State.stageChunk
  simp [k1]

theorem State.verifyImage_kept (t b : Nat) (sigOk : Bool) (s : State) :
    (State.verifyImage t b sigOk s).2.member = s.member ∧
    (State.verifyImage t b sigOk s).2.now = s.now ∧
    (State.verifyImage t b sigOk s).2.unstored = s.unstored ∧
    (State.verifyImage t b sigOk s).2.host = s.host ∧
    (State.verifyImage t b sigOk s).2.epo = s.epo ∧
    (State.verifyImage t b sigOk s).2.cat = s.cat ∧
    (State.verifyImage t b sigOk s).2.med = s.med ∧
    (State.verifyImage t b sigOk s).2.coh = s.coh ∧
    (State.verifyImage t b sigOk s).2.lnk = s.lnk ∧
    (State.verifyImage t b sigOk s).2.rte = s.rte ∧
    (State.verifyImage t b sigOk s).2.cap = s.cap ∧
    (State.verifyImage t b sigOk s).2.cry = s.cry ∧
    (State.verifyImage t b sigOk s).2.flt = s.flt ∧
    (State.verifyImage t b sigOk s).2.anl = s.anl ∧
    (State.verifyImage t b sigOk s).2.thm = s.thm ∧
    (State.verifyImage t b sigOk s).2.pwr = s.pwr ∧
    (State.verifyImage t b sigOk s).2.pmc = s.pmc ∧
    (State.verifyImage t b sigOk s).2.out = s.out ∧
    (State.verifyImage t b sigOk s).2.net = s.net ∧
    (State.verifyImage t b sigOk s).2.freeCtr = s.freeCtr ∧
    (State.verifyImage t b sigOk s).2.pending = s.pending ∧
    (State.verifyImage t b sigOk s).2.cur.lifecycle = s.cur.lifecycle ∧
    (State.verifyImage t b sigOk s).2.cur.rootGen = s.cur.rootGen ∧
    (State.verifyImage t b sigOk s).2.cur.returns = s.cur.returns ∧
    (State.verifyImage t b sigOk s).2.cur.revoked = s.cur.revoked := by
  unfold State.verifyImage
  dsimp only
  repeat' split
  all_goals simp

@[simp] theorem State.fwStage_kept (off : Nat) (last : Bool) (n : Nat) (data : HostData) (sigOk : Bool) (s : State) :
    (State.fwStage off last n data sigOk s).after.member = s.member ∧
    (State.fwStage off last n data sigOk s).after.now = s.now ∧
    (State.fwStage off last n data sigOk s).after.unstored = s.unstored ∧
    (State.fwStage off last n data sigOk s).after.host = s.host ∧
    (State.fwStage off last n data sigOk s).after.epo = s.epo ∧
    (State.fwStage off last n data sigOk s).after.cat = s.cat ∧
    (State.fwStage off last n data sigOk s).after.med = s.med ∧
    (State.fwStage off last n data sigOk s).after.coh = s.coh ∧
    (State.fwStage off last n data sigOk s).after.lnk = s.lnk ∧
    (State.fwStage off last n data sigOk s).after.rte = s.rte ∧
    (State.fwStage off last n data sigOk s).after.cap = s.cap ∧
    (State.fwStage off last n data sigOk s).after.cry = s.cry ∧
    (State.fwStage off last n data sigOk s).after.flt = s.flt ∧
    (State.fwStage off last n data sigOk s).after.anl = s.anl ∧
    (State.fwStage off last n data sigOk s).after.thm = s.thm ∧
    (State.fwStage off last n data sigOk s).after.pwr = s.pwr ∧
    (State.fwStage off last n data sigOk s).after.pmc = s.pmc ∧
    (State.fwStage off last n data sigOk s).after.out = s.out ∧
    (State.fwStage off last n data sigOk s).after.net = s.net ∧
    (State.fwStage off last n data sigOk s).after.freeCtr = s.freeCtr ∧
    (State.fwStage off last n data sigOk s).after.pending = s.pending ∧
    (State.fwStage off last n data sigOk s).after.cur.lifecycle = s.cur.lifecycle ∧
    (State.fwStage off last n data sigOk s).after.cur.rootGen = s.cur.rootGen ∧
    (State.fwStage off last n data sigOk s).after.cur.returns = s.cur.returns ∧
    (State.fwStage off last n data sigOk s).after.cur.revoked = s.cur.revoked := by
  have k1 := State.stageChunk_kept
  have k2 := State.verifyImage_kept
  unfold State.fwStage
  dsimp only
  repeat' split
  all_goals simp [k1, k2]

theorem State.startActivation_kept (c : Ctx) (p : Nat) (v f : Word) (s : State) :
    (State.startActivation c p v f s).member = s.member ∧
    (State.startActivation c p v f s).now = s.now ∧
    (State.startActivation c p v f s).unstored = s.unstored ∧
    (State.startActivation c p v f s).thm = s.thm ∧
    (State.startActivation c p v f s).pending = s.pending ∧
    (State.startActivation c p v f s).pwr.straps = s.pwr.straps ∧
    (State.startActivation c p v f s).cur.lifecycle = s.cur.lifecycle ∧
    (State.startActivation c p v f s).cur.rootGen = s.cur.rootGen ∧
    (State.startActivation c p v f s).cur.returns = s.cur.returns ∧
    (State.startActivation c p v f s).cur.revoked = s.cur.revoked := by
  have k1 := State.dropQueue_kept
  have k2 := State.leaveQueue_kept
  have k3 := State.restartFrom_kept
  unfold State.startActivation
  dsimp only
  repeat' split
  all_goals simp [k1, k2, k3]

@[simp] theorem State.fwActivate_kept (c : Ctx) (s : State) :
    (State.fwActivate c s).member = s.member ∧
    (State.fwActivate c s).now = s.now ∧
    (State.fwActivate c s).unstored = s.unstored ∧
    (State.fwActivate c s).thm = s.thm ∧
    (State.fwActivate c s).pending = s.pending ∧
    (State.fwActivate c s).pwr.straps = s.pwr.straps ∧
    (State.fwActivate c s).cur.lifecycle = s.cur.lifecycle ∧
    (State.fwActivate c s).cur.rootGen = s.cur.rootGen ∧
    (State.fwActivate c s).cur.returns = s.cur.returns ∧
    (State.fwActivate c s).cur.revoked = s.cur.revoked := by
  have k1 := State.startActivation_kept
  unfold State.fwActivate
  dsimp only
  repeat' split
  all_goals (try simp [k1])

theorem State.useIndex_kept (t e : Nat) (s : State) :
    (State.useIndex t e s).member = s.member ∧
    (State.useIndex t e s).now = s.now ∧
    (State.useIndex t e s).regs = s.regs ∧
    (State.useIndex t e s).unstored = s.unstored ∧
    (State.useIndex t e s).host = s.host ∧
    (State.useIndex t e s).epo = s.epo ∧
    (State.useIndex t e s).cat = s.cat ∧
    (State.useIndex t e s).med = s.med ∧
    (State.useIndex t e s).coh = s.coh ∧
    (State.useIndex t e s).lnk = s.lnk ∧
    (State.useIndex t e s).rte = s.rte ∧
    (State.useIndex t e s).cap = s.cap ∧
    (State.useIndex t e s).cry = s.cry ∧
    (State.useIndex t e s).flt = s.flt ∧
    (State.useIndex t e s).anl = s.anl ∧
    (State.useIndex t e s).thm = s.thm ∧
    (State.useIndex t e s).pwr = s.pwr ∧
    (State.useIndex t e s).pmc = s.pmc ∧
    (State.useIndex t e s).out = s.out ∧
    (State.useIndex t e s).net = s.net ∧
    (State.useIndex t e s).freeCtr = s.freeCtr ∧
    (State.useIndex t e s).pending = s.pending ∧
    (State.useIndex t e s).cur.lifecycle = s.cur.lifecycle ∧
    (State.useIndex t e s).cur.rootGen = s.cur.rootGen ∧
    (State.useIndex t e s).cur.returns = s.cur.returns ∧
    (State.useIndex t e s).cur.revoked = s.cur.revoked := by
  unfold State.useIndex
  simp

theorem State.takeIndex_kept (t : Nat) (reserveOk : Bool) (s : State) (t1 : State) (h : State.takeIndex t reserveOk s = some t1) :
    t1.member = s.member ∧
    t1.now = s.now ∧
    t1.regs = s.regs ∧
    t1.unstored = s.unstored ∧
    t1.host = s.host ∧
    t1.epo = s.epo ∧
    t1.cat = s.cat ∧
    t1.med = s.med ∧
    t1.coh = s.coh ∧
    t1.lnk = s.lnk ∧
    t1.rte = s.rte ∧
    t1.cap = s.cap ∧
    t1.cry = s.cry ∧
    t1.flt = s.flt ∧
    t1.anl = s.anl ∧
    t1.thm = s.thm ∧
    t1.pwr = s.pwr ∧
    t1.pmc = s.pmc ∧
    t1.out = s.out ∧
    t1.net = s.net ∧
    t1.freeCtr = s.freeCtr ∧
    t1.pending = s.pending ∧
    t1.cur.lifecycle = s.cur.lifecycle ∧
    t1.cur.rootGen = s.cur.rootGen ∧
    t1.cur.returns = s.cur.returns ∧
    t1.cur.revoked = s.cur.revoked := by
  have k1 := State.useIndex_kept
  rw [State.takeIndex] at h
  by_cases h1 : (t + 1) * indexSpan ≤ s.nextIndex t
  · rw [if_pos h1] at h; cases h
  · rw [if_neg h1] at h
    by_cases h2 : s.nextIndex t < s.reservedEnd t
    · rw [if_pos h2] at h; injection h with h; subst h; exact State.useIndex_kept _ _ _
    · rw [if_neg h2] at h
      cases reserveOk
      · cases h
      · injection h with h; subst h; exact State.useIndex_kept _ _ _

theorem State.sign_kept (nonce : BitVec 256) (reserveOk : Bool) (s : State) (x : List Byte × State) (h : State.sign nonce reserveOk s = some x) :
    x.2.member = s.member ∧
    x.2.now = s.now ∧
    x.2.regs = s.regs ∧
    x.2.unstored = s.unstored ∧
    x.2.host = s.host ∧
    x.2.epo = s.epo ∧
    x.2.cat = s.cat ∧
    x.2.med = s.med ∧
    x.2.coh = s.coh ∧
    x.2.lnk = s.lnk ∧
    x.2.rte = s.rte ∧
    x.2.cap = s.cap ∧
    x.2.cry = s.cry ∧
    x.2.flt = s.flt ∧
    x.2.anl = s.anl ∧
    x.2.thm = s.thm ∧
    x.2.pwr = s.pwr ∧
    x.2.pmc = s.pmc ∧
    x.2.out = s.out ∧
    x.2.net = s.net ∧
    x.2.pending = s.pending ∧
    x.2.cur.lifecycle = s.cur.lifecycle ∧
    x.2.cur.rootGen = s.cur.rootGen ∧
    x.2.cur.returns = s.cur.returns ∧
    x.2.cur.revoked = s.cur.revoked := by
  unfold State.sign at h
  simp only [Option.map_eq_some_iff] at h
  obtain ⟨t1, h1, rfl⟩ := h
  have := State.takeIndex_kept _ _ _ _ h1
  simp_all

theorem State.givePiece_kept (r : Report) (s : State) :
    (State.givePiece r s).after.member = s.member ∧
    (State.givePiece r s).after.now = s.now ∧
    (State.givePiece r s).after.regs = s.regs ∧
    (State.givePiece r s).after.unstored = s.unstored ∧
    (State.givePiece r s).after.host = s.host ∧
    (State.givePiece r s).after.epo = s.epo ∧
    (State.givePiece r s).after.cat = s.cat ∧
    (State.givePiece r s).after.med = s.med ∧
    (State.givePiece r s).after.coh = s.coh ∧
    (State.givePiece r s).after.lnk = s.lnk ∧
    (State.givePiece r s).after.rte = s.rte ∧
    (State.givePiece r s).after.cap = s.cap ∧
    (State.givePiece r s).after.cry = s.cry ∧
    (State.givePiece r s).after.flt = s.flt ∧
    (State.givePiece r s).after.anl = s.anl ∧
    (State.givePiece r s).after.thm = s.thm ∧
    (State.givePiece r s).after.pwr = s.pwr ∧
    (State.givePiece r s).after.pmc = s.pmc ∧
    (State.givePiece r s).after.out = s.out ∧
    (State.givePiece r s).after.net = s.net ∧
    (State.givePiece r s).after.freeCtr = s.freeCtr ∧
    (State.givePiece r s).after.pending = s.pending ∧
    (State.givePiece r s).after.cur.lifecycle = s.cur.lifecycle ∧
    (State.givePiece r s).after.cur.rootGen = s.cur.rootGen ∧
    (State.givePiece r s).after.cur.returns = s.cur.returns ∧
    (State.givePiece r s).after.cur.revoked = s.cur.revoked := by
  exact ⟨rfl, rfl, rfl, rfl, rfl, rfl, rfl, rfl, rfl, rfl, rfl, rfl, rfl, rfl, rfl, rfl, rfl, rfl, rfl, rfl, rfl, rfl, rfl, rfl, rfl, rfl⟩

theorem State.newReport_kept (nonce : BitVec 256) (reserveOk : Bool) (s : State) :
    (State.newReport nonce reserveOk s).after.member = s.member ∧
    (State.newReport nonce reserveOk s).after.now = s.now ∧
    (State.newReport nonce reserveOk s).after.regs = s.regs ∧
    (State.newReport nonce reserveOk s).after.unstored = s.unstored ∧
    (State.newReport nonce reserveOk s).after.host = s.host ∧
    (State.newReport nonce reserveOk s).after.epo = s.epo ∧
    (State.newReport nonce reserveOk s).after.cat = s.cat ∧
    (State.newReport nonce reserveOk s).after.med = s.med ∧
    (State.newReport nonce reserveOk s).after.coh = s.coh ∧
    (State.newReport nonce reserveOk s).after.lnk = s.lnk ∧
    (State.newReport nonce reserveOk s).after.rte = s.rte ∧
    (State.newReport nonce reserveOk s).after.cap = s.cap ∧
    (State.newReport nonce reserveOk s).after.cry = s.cry ∧
    (State.newReport nonce reserveOk s).after.flt = s.flt ∧
    (State.newReport nonce reserveOk s).after.anl = s.anl ∧
    (State.newReport nonce reserveOk s).after.thm = s.thm ∧
    (State.newReport nonce reserveOk s).after.pwr = s.pwr ∧
    (State.newReport nonce reserveOk s).after.pmc = s.pmc ∧
    (State.newReport nonce reserveOk s).after.out = s.out ∧
    (State.newReport nonce reserveOk s).after.net = s.net ∧
    (State.newReport nonce reserveOk s).after.pending = s.pending ∧
    (State.newReport nonce reserveOk s).after.cur.lifecycle = s.cur.lifecycle ∧
    (State.newReport nonce reserveOk s).after.cur.rootGen = s.cur.rootGen ∧
    (State.newReport nonce reserveOk s).after.cur.returns = s.cur.returns ∧
    (State.newReport nonce reserveOk s).after.cur.revoked = s.cur.revoked := by
  have k1 := State.givePiece_kept
  have hs := State.sign_kept nonce reserveOk s
  rw [State.newReport]
  cases h : State.sign nonce reserveOk s with
  | none => exact ⟨rfl, rfl, rfl, rfl, rfl, rfl, rfl, rfl, rfl, rfl, rfl, rfl, rfl, rfl, rfl, rfl, rfl, rfl, rfl, rfl, rfl, rfl, rfl, rfl, rfl⟩
  | some x => exact hs x h

@[simp] theorem State.attestPiece_kept (nonce : BitVec 256) (reserveOk : Bool) (s : State) :
    (State.attestPiece nonce reserveOk s).after.member = s.member ∧
    (State.attestPiece nonce reserveOk s).after.now = s.now ∧
    (State.attestPiece nonce reserveOk s).after.regs = s.regs ∧
    (State.attestPiece nonce reserveOk s).after.unstored = s.unstored ∧
    (State.attestPiece nonce reserveOk s).after.host = s.host ∧
    (State.attestPiece nonce reserveOk s).after.epo = s.epo ∧
    (State.attestPiece nonce reserveOk s).after.cat = s.cat ∧
    (State.attestPiece nonce reserveOk s).after.med = s.med ∧
    (State.attestPiece nonce reserveOk s).after.coh = s.coh ∧
    (State.attestPiece nonce reserveOk s).after.lnk = s.lnk ∧
    (State.attestPiece nonce reserveOk s).after.rte = s.rte ∧
    (State.attestPiece nonce reserveOk s).after.cap = s.cap ∧
    (State.attestPiece nonce reserveOk s).after.cry = s.cry ∧
    (State.attestPiece nonce reserveOk s).after.flt = s.flt ∧
    (State.attestPiece nonce reserveOk s).after.anl = s.anl ∧
    (State.attestPiece nonce reserveOk s).after.thm = s.thm ∧
    (State.attestPiece nonce reserveOk s).after.pwr = s.pwr ∧
    (State.attestPiece nonce reserveOk s).after.pmc = s.pmc ∧
    (State.attestPiece nonce reserveOk s).after.out = s.out ∧
    (State.attestPiece nonce reserveOk s).after.net = s.net ∧
    (State.attestPiece nonce reserveOk s).after.pending = s.pending ∧
    (State.attestPiece nonce reserveOk s).after.cur.lifecycle = s.cur.lifecycle ∧
    (State.attestPiece nonce reserveOk s).after.cur.rootGen = s.cur.rootGen ∧
    (State.attestPiece nonce reserveOk s).after.cur.returns = s.cur.returns ∧
    (State.attestPiece nonce reserveOk s).after.cur.revoked = s.cur.revoked := by
  have k1 := State.givePiece_kept
  have k2 := State.newReport_kept
  rw [State.attestPiece]
  cases s.cur.report with
  | none => rw [Option.elim_none]; exact State.newReport_kept nonce reserveOk s
  | some r =>
    rw [Option.elim_some]
    cases r.goesOn nonce s.now
    · rw [if_neg Bool.false_ne_true]; exact State.newReport_kept nonce reserveOk s
    · rw [if_pos rfl]; simp only [State.givePiece_kept, and_self]

@[simp] theorem State.attestSlot_kept (c : Ctx) (r : Option SlotRef) (nonce : BitVec 256) (reserveOk : Bool) (s : State) :
    (State.attestSlot c r nonce reserveOk s).after.member = s.member ∧
    (State.attestSlot c r nonce reserveOk s).after.now = s.now ∧
    (State.attestSlot c r nonce reserveOk s).after.regs = s.regs ∧
    (State.attestSlot c r nonce reserveOk s).after.unstored = s.unstored ∧
    (State.attestSlot c r nonce reserveOk s).after.host = s.host ∧
    (State.attestSlot c r nonce reserveOk s).after.epo = s.epo ∧
    (State.attestSlot c r nonce reserveOk s).after.cat = s.cat ∧
    (State.attestSlot c r nonce reserveOk s).after.med = s.med ∧
    (State.attestSlot c r nonce reserveOk s).after.coh = s.coh ∧
    (State.attestSlot c r nonce reserveOk s).after.lnk = s.lnk ∧
    (State.attestSlot c r nonce reserveOk s).after.rte = s.rte ∧
    (State.attestSlot c r nonce reserveOk s).after.cap = s.cap ∧
    (State.attestSlot c r nonce reserveOk s).after.cry = s.cry ∧
    (State.attestSlot c r nonce reserveOk s).after.flt = s.flt ∧
    (State.attestSlot c r nonce reserveOk s).after.anl = s.anl ∧
    (State.attestSlot c r nonce reserveOk s).after.thm = s.thm ∧
    (State.attestSlot c r nonce reserveOk s).after.pwr = s.pwr ∧
    (State.attestSlot c r nonce reserveOk s).after.pmc = s.pmc ∧
    (State.attestSlot c r nonce reserveOk s).after.out = s.out ∧
    (State.attestSlot c r nonce reserveOk s).after.net = s.net ∧
    (State.attestSlot c r nonce reserveOk s).after.pending = s.pending ∧
    (State.attestSlot c r nonce reserveOk s).after.cur.lifecycle = s.cur.lifecycle ∧
    (State.attestSlot c r nonce reserveOk s).after.cur.rootGen = s.cur.rootGen ∧
    (State.attestSlot c r nonce reserveOk s).after.cur.returns = s.cur.returns ∧
    (State.attestSlot c r nonce reserveOk s).after.cur.revoked = s.cur.revoked := by
  have hs := State.sign_kept nonce reserveOk s
  unfold State.attestSlot
  (try dsimp only)
  repeat' split
  all_goals (try simp)
  all_goals (rename_i h; have := hs _ h; simp_all)

theorem State.dropFolios_kept (p : Nat → Bool) (s : State) :
    (State.dropFolios p s).member = s.member ∧
    (State.dropFolios p s).now = s.now ∧
    (State.dropFolios p s).unstored = s.unstored ∧
    (State.dropFolios p s).lnk = s.lnk ∧
    (State.dropFolios p s).rte = s.rte ∧
    (State.dropFolios p s).cur = s.cur ∧
    (State.dropFolios p s).thm = s.thm ∧
    (State.dropFolios p s).pwr = s.pwr ∧
    (State.dropFolios p s).pending = s.pending := by
  have k1 := State.clearEv_kept
  have k2 := State.vacate_kept
  unfold State.dropFolios
  simp [k1, k2]

theorem State.unbindFolios_kept (p : Nat → Bool) (s : State) :
    (State.unbindFolios p s).member = s.member ∧
    (State.unbindFolios p s).now = s.now ∧
    (State.unbindFolios p s).regs = s.regs ∧
    (State.unbindFolios p s).unstored = s.unstored ∧
    (State.unbindFolios p s).host = s.host ∧
    (State.unbindFolios p s).epo = s.epo ∧
    (State.unbindFolios p s).med = s.med ∧
    (State.unbindFolios p s).coh = s.coh ∧
    (State.unbindFolios p s).lnk = s.lnk ∧
    (State.unbindFolios p s).rte = s.rte ∧
    (State.unbindFolios p s).cap = s.cap ∧
    (State.unbindFolios p s).cry = s.cry ∧
    (State.unbindFolios p s).flt = s.flt ∧
    (State.unbindFolios p s).anl = s.anl ∧
    (State.unbindFolios p s).cur = s.cur ∧
    (State.unbindFolios p s).thm = s.thm ∧
    (State.unbindFolios p s).pwr = s.pwr ∧
    (State.unbindFolios p s).out = s.out ∧
    (State.unbindFolios p s).net = s.net ∧
    (State.unbindFolios p s).freeCtr = s.freeCtr ∧
    (State.unbindFolios p s).pending = s.pending := by
  unfold State.unbindFolios
  simp

theorem State.newKey_kept (k : Nat) (s : State) :
    (State.newKey k s).member = s.member ∧
    (State.newKey k s).now = s.now ∧
    (State.newKey k s).regs = s.regs ∧
    (State.newKey k s).unstored = s.unstored ∧
    (State.newKey k s).host = s.host ∧
    (State.newKey k s).epo = s.epo ∧
    (State.newKey k s).cat = s.cat ∧
    (State.newKey k s).med = s.med ∧
    (State.newKey k s).coh = s.coh ∧
    (State.newKey k s).lnk = s.lnk ∧
    (State.newKey k s).rte = s.rte ∧
    (State.newKey k s).cap = s.cap ∧
    (State.newKey k s).flt = s.flt ∧
    (State.newKey k s).anl = s.anl ∧
    (State.newKey k s).cur = s.cur ∧
    (State.newKey k s).thm = s.thm ∧
    (State.newKey k s).pwr = s.pwr ∧
    (State.newKey k s).pmc = s.pmc ∧
    (State.newKey k s).out = s.out ∧
    (State.newKey k s).net = s.net ∧
    (State.newKey k s).pending = s.pending := by
  unfold State.newKey
  simp

theorem State.rotateKey_kept (k : Nat) (s : State) :
    (State.rotateKey k s).member = s.member ∧
    (State.rotateKey k s).now = s.now ∧
    (State.rotateKey k s).regs = s.regs ∧
    (State.rotateKey k s).unstored = s.unstored ∧
    (State.rotateKey k s).host = s.host ∧
    (State.rotateKey k s).epo = s.epo ∧
    (State.rotateKey k s).cat = s.cat ∧
    (State.rotateKey k s).med = s.med ∧
    (State.rotateKey k s).coh = s.coh ∧
    (State.rotateKey k s).lnk = s.lnk ∧
    (State.rotateKey k s).rte = s.rte ∧
    (State.rotateKey k s).cap = s.cap ∧
    (State.rotateKey k s).flt = s.flt ∧
    (State.rotateKey k s).anl = s.anl ∧
    (State.rotateKey k s).cur = s.cur ∧
    (State.rotateKey k s).thm = s.thm ∧
    (State.rotateKey k s).pwr = s.pwr ∧
    (State.rotateKey k s).pmc = s.pmc ∧
    (State.rotateKey k s).out = s.out ∧
    (State.rotateKey k s).net = s.net ∧
    (State.rotateKey k s).pending = s.pending := by
  unfold State.rotateKey
  simp

theorem State.bindRegion_kept (k b n : Nat) (s : State) :
    (State.bindRegion k b n s).member = s.member ∧
    (State.bindRegion k b n s).now = s.now ∧
    (State.bindRegion k b n s).regs = s.regs ∧
    (State.bindRegion k b n s).unstored = s.unstored ∧
    (State.bindRegion k b n s).host = s.host ∧
    (State.bindRegion k b n s).epo = s.epo ∧
    (State.bindRegion k b n s).cat = s.cat ∧
    (State.bindRegion k b n s).med = s.med ∧
    (State.bindRegion k b n s).coh = s.coh ∧
    (State.bindRegion k b n s).lnk = s.lnk ∧
    (State.bindRegion k b n s).rte = s.rte ∧
    (State.bindRegion k b n s).cap = s.cap ∧
    (State.bindRegion k b n s).flt = s.flt ∧
    (State.bindRegion k b n s).anl = s.anl ∧
    (State.bindRegion k b n s).cur = s.cur ∧
    (State.bindRegion k b n s).thm = s.thm ∧
    (State.bindRegion k b n s).pwr = s.pwr ∧
    (State.bindRegion k b n s).pmc = s.pmc ∧
    (State.bindRegion k b n s).out = s.out ∧
    (State.bindRegion k b n s).net = s.net ∧
    (State.bindRegion k b n s).freeCtr = s.freeCtr ∧
    (State.bindRegion k b n s).pending = s.pending := by
  unfold State.bindRegion
  simp

theorem State.bindRanges_kept (k : Nat) (fresh : Bool) (l : List (Nat × Nat)) (s : State) :
    (State.bindRanges k fresh l s).member = s.member ∧
    (State.bindRanges k fresh l s).now = s.now ∧
    (State.bindRanges k fresh l s).unstored = s.unstored ∧
    (State.bindRanges k fresh l s).lnk = s.lnk ∧
    (State.bindRanges k fresh l s).rte = s.rte ∧
    (State.bindRanges k fresh l s).cur = s.cur ∧
    (State.bindRanges k fresh l s).thm = s.thm ∧
    (State.bindRanges k fresh l s).pwr = s.pwr ∧
    (State.bindRanges k fresh l s).pending = s.pending := by
  have k1 := State.bindRegion_kept
  have k2 := State.dropFolios_kept
  have k3 := State.newKey_kept
  have k4 := State.unbindFolios_kept
  unfold State.bindRanges
  simp [k1, k2, k3, k4]

@[simp] theorem State.keyCreate_kept (c : Ctx) (k b n : Nat) (s : State) :
    (State.keyCreate c k b n s).member = s.member ∧
    (State.keyCreate c k b n s).now = s.now ∧
    (State.keyCreate c k b n s).unstored = s.unstored ∧
    (State.keyCreate c k b n s).lnk = s.lnk ∧
    (State.keyCreate c k b n s).rte = s.rte ∧
    (State.keyCreate c k b n s).thm = s.thm ∧
    (State.keyCreate c k b n s).pwr = s.pwr ∧
    (State.keyCreate c k b n s).pending = s.pending ∧
    (State.keyCreate c k b n s).cur.lifecycle = s.cur.lifecycle ∧
    (State.keyCreate c k b n s).cur.rootGen = s.cur.rootGen ∧
    (State.keyCreate c k b n s).cur.returns = s.cur.returns ∧
    (State.keyCreate c k b n s).cur.revoked = s.cur.revoked := by
  have k1 := State.bindRanges_kept
  have k2 := State.rotateKey_kept
  unfold State.keyCreate
  repeat' split
  all_goals simp [k1, k2, *]

@[simp] theorem State.keyRetire_kept (k : Nat) (s : State) :
    (State.keyRetire k s).after.member = s.member ∧
    (State.keyRetire k s).after.now = s.now ∧
    (State.keyRetire k s).after.unstored = s.unstored ∧
    (State.keyRetire k s).after.lnk = s.lnk ∧
    (State.keyRetire k s).after.rte = s.rte ∧
    (State.keyRetire k s).after.cur = s.cur ∧
    (State.keyRetire k s).after.thm = s.thm ∧
    (State.keyRetire k s).after.pwr = s.pwr ∧
    (State.keyRetire k s).after.pending = s.pending := by
  have k1 := State.dropFolios_kept
  unfold State.keyRetire
  dsimp only
  repeat' split
  all_goals simp [k1]

@[simp] theorem State.setRights_kept (m k : Nat) (v : BitVec 2) (s : State) :
    (State.setRights m k v s).member = s.member ∧
    (State.setRights m k v s).now = s.now ∧
    (State.setRights m k v s).regs = s.regs ∧
    (State.setRights m k v s).unstored = s.unstored ∧
    (State.setRights m k v s).host = s.host ∧
    (State.setRights m k v s).epo = s.epo ∧
    (State.setRights m k v s).cat = s.cat ∧
    (State.setRights m k v s).med = s.med ∧
    (State.setRights m k v s).coh = s.coh ∧
    (State.setRights m k v s).lnk = s.lnk ∧
    (State.setRights m k v s).rte = s.rte ∧
    (State.setRights m k v s).cap = s.cap ∧
    (State.setRights m k v s).flt = s.flt ∧
    (State.setRights m k v s).anl = s.anl ∧
    (State.setRights m k v s).cur = s.cur ∧
    (State.setRights m k v s).thm = s.thm ∧
    (State.setRights m k v s).pwr = s.pwr ∧
    (State.setRights m k v s).pmc = s.pmc ∧
    (State.setRights m k v s).out = s.out ∧
    (State.setRights m k v s).net = s.net ∧
    (State.setRights m k v s).freeCtr = s.freeCtr ∧
    (State.setRights m k v s).pending = s.pending := by
  unfold State.setRights
  simp

@[simp] theorem State.rotationDone_kept (k : Nat) (s : State) :
    (State.rotationDone k s).member = s.member ∧
    (State.rotationDone k s).now = s.now ∧
    (State.rotationDone k s).regs = s.regs ∧
    (State.rotationDone k s).unstored = s.unstored ∧
    (State.rotationDone k s).host = s.host ∧
    (State.rotationDone k s).epo = s.epo ∧
    (State.rotationDone k s).cat = s.cat ∧
    (State.rotationDone k s).med = s.med ∧
    (State.rotationDone k s).coh = s.coh ∧
    (State.rotationDone k s).lnk = s.lnk ∧
    (State.rotationDone k s).rte = s.rte ∧
    (State.rotationDone k s).cap = s.cap ∧
    (State.rotationDone k s).flt = s.flt ∧
    (State.rotationDone k s).anl = s.anl ∧
    (State.rotationDone k s).cur = s.cur ∧
    (State.rotationDone k s).thm = s.thm ∧
    (State.rotationDone k s).pwr = s.pwr ∧
    (State.rotationDone k s).pmc = s.pmc ∧
    (State.rotationDone k s).out = s.out ∧
    (State.rotationDone k s).net = s.net ∧
    (State.rotationDone k s).freeCtr = s.freeCtr ∧
    (State.rotationDone k s).pending = s.pending := by
  unfold State.rotationDone
  simp

@[simp] theorem State.haltReaches_kept (t : Nat) (s : State) :
    (State.haltReaches t s).member = s.member ∧
    (State.haltReaches t s).now = s.now ∧
    (State.haltReaches t s).unstored = s.unstored ∧
    (State.haltReaches t s).host = s.host ∧
    (State.haltReaches t s).epo = s.epo ∧
    (State.haltReaches t s).cat = s.cat ∧
    (State.haltReaches t s).med = s.med ∧
    (State.haltReaches t s).coh = s.coh ∧
    (State.haltReaches t s).rte = s.rte ∧
    (State.haltReaches t s).cap = s.cap ∧
    (State.haltReaches t s).flt = s.flt ∧
    (State.haltReaches t s).anl = s.anl ∧
    (State.haltReaches t s).cur = s.cur ∧
    (State.haltReaches t s).thm = s.thm ∧
    (State.haltReaches t s).pwr = s.pwr ∧
    (State.haltReaches t s).pmc = s.pmc ∧
    (State.haltReaches t s).out = s.out ∧
    (State.haltReaches t s).net = s.net ∧
    (State.haltReaches t s).freeCtr = s.freeCtr ∧
    (State.haltReaches t s).pending = s.pending := by
  have k1 := State.disablePorts_kept
  unfold State.haltReaches
  simp [k1]

@[simp] theorem State.spareStatus_kept (c : Ctx) (tile : Nat) (r : Option SlotRef) (s : State) :
    (State.spareStatus c tile r s).after.member = s.member ∧
    (State.spareStatus c tile r s).after.now = s.now ∧
    (State.spareStatus c tile r s).after.regs = s.regs ∧
    (State.spareStatus c tile r s).after.unstored = s.unstored ∧
    (State.spareStatus c tile r s).after.host = s.host ∧
    (State.spareStatus c tile r s).after.epo = s.epo ∧
    (State.spareStatus c tile r s).after.cat = s.cat ∧
    (State.spareStatus c tile r s).after.med = s.med ∧
    (State.spareStatus c tile r s).after.coh = s.coh ∧
    (State.spareStatus c tile r s).after.lnk = s.lnk ∧
    (State.spareStatus c tile r s).after.rte = s.rte ∧
    (State.spareStatus c tile r s).after.cap = s.cap ∧
    (State.spareStatus c tile r s).after.cry = s.cry ∧
    (State.spareStatus c tile r s).after.flt = s.flt ∧
    (State.spareStatus c tile r s).after.anl = s.anl ∧
    (State.spareStatus c tile r s).after.cur = s.cur ∧
    (State.spareStatus c tile r s).after.thm = s.thm ∧
    (State.spareStatus c tile r s).after.pwr = s.pwr ∧
    (State.spareStatus c tile r s).after.pmc = s.pmc ∧
    (State.spareStatus c tile r s).after.out = s.out ∧
    (State.spareStatus c tile r s).after.net = s.net ∧
    (State.spareStatus c tile r s).after.freeCtr = s.freeCtr ∧
    (State.spareStatus c tile r s).after.pending = s.pending := by
  unfold State.spareStatus
  dsimp only
  repeat' split
  all_goals simp

theorem State.withSetting_kept (v : Option (BitVec 2)) (s : State) :
    (State.withSetting v s).member = s.member ∧
    (State.withSetting v s).now = s.now ∧
    (State.withSetting v s).regs = s.regs ∧
    (State.withSetting v s).unstored = s.unstored ∧
    (State.withSetting v s).host = s.host ∧
    (State.withSetting v s).epo = s.epo ∧
    (State.withSetting v s).cat = s.cat ∧
    (State.withSetting v s).coh = s.coh ∧
    (State.withSetting v s).lnk = s.lnk ∧
    (State.withSetting v s).rte = s.rte ∧
    (State.withSetting v s).cap = s.cap ∧
    (State.withSetting v s).cry = s.cry ∧
    (State.withSetting v s).flt = s.flt ∧
    (State.withSetting v s).anl = s.anl ∧
    (State.withSetting v s).cur = s.cur ∧
    (State.withSetting v s).thm = s.thm ∧
    (State.withSetting v s).pwr = s.pwr ∧
    (State.withSetting v s).pmc = s.pmc ∧
    (State.withSetting v s).out = s.out ∧
    (State.withSetting v s).net = s.net ∧
    (State.withSetting v s).freeCtr = s.freeCtr ∧
    (State.withSetting v s).pending = s.pending := by
  unfold State.withSetting
  simp

theorem State.emptySpace_kept (s : State) :
    (State.emptySpace s).member = s.member ∧
    (State.emptySpace s).now = s.now ∧
    (State.emptySpace s).unstored = s.unstored ∧
    (State.emptySpace s).lnk = s.lnk ∧
    (State.emptySpace s).rte = s.rte ∧
    (State.emptySpace s).cur = s.cur ∧
    (State.emptySpace s).thm = s.thm ∧
    (State.emptySpace s).pwr = s.pwr ∧
    (State.emptySpace s).pending = s.pending := by
  have k1 := State.dropFolios_kept
  unfold State.emptySpace
  simp [k1]

theorem State.emptyKids_kept (s : State) :
    (State.emptyKids s).member = s.member ∧
    (State.emptyKids s).now = s.now ∧
    (State.emptyKids s).regs = s.regs ∧
    (State.emptyKids s).unstored = s.unstored ∧
    (State.emptyKids s).host = s.host ∧
    (State.emptyKids s).epo = s.epo ∧
    (State.emptyKids s).cat = s.cat ∧
    (State.emptyKids s).med = s.med ∧
    (State.emptyKids s).coh = s.coh ∧
    (State.emptyKids s).lnk = s.lnk ∧
    (State.emptyKids s).rte = s.rte ∧
    (State.emptyKids s).cap = s.cap ∧
    (State.emptyKids s).flt = s.flt ∧
    (State.emptyKids s).anl = s.anl ∧
    (State.emptyKids s).cur = s.cur ∧
    (State.emptyKids s).thm = s.thm ∧
    (State.emptyKids s).pwr = s.pwr ∧
    (State.emptyKids s).pmc = s.pmc ∧
    (State.emptyKids s).out = s.out ∧
    (State.emptyKids s).net = s.net ∧
    (State.emptyKids s).pending = s.pending := by
  have k1 := State.newKey_kept
  unfold State.emptyKids
  simp [k1]

theorem State.newBaselines_kept (s : State) :
    (State.newBaselines s).member = s.member ∧
    (State.newBaselines s).now = s.now ∧
    (State.newBaselines s).unstored = s.unstored ∧
    (State.newBaselines s).host = s.host ∧
    (State.newBaselines s).epo = s.epo ∧
    (State.newBaselines s).cat = s.cat ∧
    (State.newBaselines s).coh = s.coh ∧
    (State.newBaselines s).lnk = s.lnk ∧
    (State.newBaselines s).rte = s.rte ∧
    (State.newBaselines s).cap = s.cap ∧
    (State.newBaselines s).cry = s.cry ∧
    (State.newBaselines s).flt = s.flt ∧
    (State.newBaselines s).cur = s.cur ∧
    (State.newBaselines s).thm = s.thm ∧
    (State.newBaselines s).pwr = s.pwr ∧
    (State.newBaselines s).pmc = s.pmc ∧
    (State.newBaselines s).out = s.out ∧
    (State.newBaselines s).net = s.net ∧
    (State.newBaselines s).freeCtr = s.freeCtr ∧
    (State.newBaselines s).pending = s.pending := by
  have k1 := State.takeBaseline_kept
  unfold State.newBaselines
  simp [k1]

theorem State.formatPart_kept (spare : Nat) (s : State) :
    (State.formatPart spare s).member = s.member ∧
    (State.formatPart spare s).now = s.now ∧
    (State.formatPart spare s).unstored = s.unstored ∧
    (State.formatPart spare s).lnk = s.lnk ∧
    (State.formatPart spare s).rte = s.rte ∧
    (State.formatPart spare s).cur = s.cur ∧
    (State.formatPart spare s).thm = s.thm ∧
    (State.formatPart spare s).pwr = s.pwr ∧
    (State.formatPart spare s).pending = s.pending := by
  have k1 := State.emptyKids_kept
  have k2 := State.emptySpace_kept
  have k3 := State.newBaselines_kept
  have k4 := State.withSetting_kept
  unfold State.formatPart
  simp [k1, k2, k3, k4]

@[simp] theorem State.format_kept (spare : Nat) (s : State) :
    (State.format spare s).after.member = s.member ∧
    (State.format spare s).after.now = s.now ∧
    (State.format spare s).after.unstored = s.unstored ∧
    (State.format spare s).after.lnk = s.lnk ∧
    (State.format spare s).after.rte = s.rte ∧
    (State.format spare s).after.cur = s.cur ∧
    (State.format spare s).after.thm = s.thm ∧
    (State.format spare s).after.pwr = s.pwr ∧
    (State.format spare s).after.pending = s.pending := by
  have k1 := State.formatPart_kept
  have k2 := State.withSetting_kept
  unfold State.format
  repeat' split
  all_goals simp [k1, k2, *]

@[simp] theorem State.mediaProfile_kept (c : Ctx) (action tile ch target : Nat) (r : Option SlotRef) (data : HostData) (s : State) :
    (State.mediaProfile c action tile ch target r data s).after.member = s.member ∧
    (State.mediaProfile c action tile ch target r data s).after.now = s.now ∧
    (State.mediaProfile c action tile ch target r data s).after.regs = s.regs ∧
    (State.mediaProfile c action tile ch target r data s).after.unstored = s.unstored ∧
    (State.mediaProfile c action tile ch target r data s).after.host = s.host ∧
    (State.mediaProfile c action tile ch target r data s).after.epo = s.epo ∧
    (State.mediaProfile c action tile ch target r data s).after.cat = s.cat ∧
    (State.mediaProfile c action tile ch target r data s).after.coh = s.coh ∧
    (State.mediaProfile c action tile ch target r data s).after.lnk = s.lnk ∧
    (State.mediaProfile c action tile ch target r data s).after.rte = s.rte ∧
    (State.mediaProfile c action tile ch target r data s).after.cap = s.cap ∧
    (State.mediaProfile c action tile ch target r data s).after.cry = s.cry ∧
    (State.mediaProfile c action tile ch target r data s).after.flt = s.flt ∧
    (State.mediaProfile c action tile ch target r data s).after.anl = s.anl ∧
    (State.mediaProfile c action tile ch target r data s).after.cur = s.cur ∧
    (State.mediaProfile c action tile ch target r data s).after.thm = s.thm ∧
    (State.mediaProfile c action tile ch target r data s).after.pwr = s.pwr ∧
    (State.mediaProfile c action tile ch target r data s).after.pmc = s.pmc ∧
    (State.mediaProfile c action tile ch target r data s).after.out = s.out ∧
    (State.mediaProfile c action tile ch target r data s).after.net = s.net ∧
    (State.mediaProfile c action tile ch target r data s).after.freeCtr = s.freeCtr ∧
    (State.mediaProfile c action tile ch target r data s).after.pending = s.pending := by
  unfold State.mediaProfile
  dsimp only
  repeat' split
  all_goals simp

@[simp] theorem State.mbToken_member (t : Token) (purpose bind : Nat) (signer : Nat → Bool) (body : State → Status × Nat × State) (s : State) (h : ∀ s, (body s).2.2.member = s.member) :
    (State.mbToken t purpose bind signer body s).2.2.member = s.member := by
  have k1 := State.useToken_kept
  unfold State.mbToken
  (try dsimp only)
  repeat' split
  all_goals simp [k1, h]

@[simp] theorem State.mbToken_now (t : Token) (purpose bind : Nat) (signer : Nat → Bool) (body : State → Status × Nat × State) (s : State) (h : ∀ s, (body s).2.2.now = s.now) :
    (State.mbToken t purpose bind signer body s).2.2.now = s.now := by
  have k1 := State.useToken_kept
  unfold State.mbToken
  (try dsimp only)
  repeat' split
  all_goals simp [k1, h]

@[simp] theorem State.mbToken_regs (t : Token) (purpose bind : Nat) (signer : Nat → Bool) (body : State → Status × Nat × State) (s : State) (h : ∀ s, (body s).2.2.regs = s.regs) :
    (State.mbToken t purpose bind signer body s).2.2.regs = s.regs := by
  have k1 := State.useToken_kept
  unfold State.mbToken
  (try dsimp only)
  repeat' split
  all_goals simp [k1, h]

@[simp] theorem State.mbToken_unstored (t : Token) (purpose bind : Nat) (signer : Nat → Bool) (body : State → Status × Nat × State) (s : State) (h : ∀ s, (body s).2.2.unstored = s.unstored) :
    (State.mbToken t purpose bind signer body s).2.2.unstored = s.unstored := by
  have k1 := State.useToken_kept
  unfold State.mbToken
  (try dsimp only)
  repeat' split
  all_goals simp [k1, h]

@[simp] theorem State.mbToken_host (t : Token) (purpose bind : Nat) (signer : Nat → Bool) (body : State → Status × Nat × State) (s : State) (h : ∀ s, (body s).2.2.host = s.host) :
    (State.mbToken t purpose bind signer body s).2.2.host = s.host := by
  have k1 := State.useToken_kept
  unfold State.mbToken
  (try dsimp only)
  repeat' split
  all_goals simp [k1, h]

@[simp] theorem State.mbToken_epo (t : Token) (purpose bind : Nat) (signer : Nat → Bool) (body : State → Status × Nat × State) (s : State) (h : ∀ s, (body s).2.2.epo = s.epo) :
    (State.mbToken t purpose bind signer body s).2.2.epo = s.epo := by
  have k1 := State.useToken_kept
  unfold State.mbToken
  (try dsimp only)
  repeat' split
  all_goals simp [k1, h]

@[simp] theorem State.mbToken_cat (t : Token) (purpose bind : Nat) (signer : Nat → Bool) (body : State → Status × Nat × State) (s : State) (h : ∀ s, (body s).2.2.cat = s.cat) :
    (State.mbToken t purpose bind signer body s).2.2.cat = s.cat := by
  have k1 := State.useToken_kept
  unfold State.mbToken
  (try dsimp only)
  repeat' split
  all_goals simp [k1, h]

@[simp] theorem State.mbToken_med (t : Token) (purpose bind : Nat) (signer : Nat → Bool) (body : State → Status × Nat × State) (s : State) (h : ∀ s, (body s).2.2.med = s.med) :
    (State.mbToken t purpose bind signer body s).2.2.med = s.med := by
  have k1 := State.useToken_kept
  unfold State.mbToken
  (try dsimp only)
  repeat' split
  all_goals simp [k1, h]

@[simp] theorem State.mbToken_coh (t : Token) (purpose bind : Nat) (signer : Nat → Bool) (body : State → Status × Nat × State) (s : State) (h : ∀ s, (body s).2.2.coh = s.coh) :
    (State.mbToken t purpose bind signer body s).2.2.coh = s.coh := by
  have k1 := State.useToken_kept
  unfold State.mbToken
  (try dsimp only)
  repeat' split
  all_goals simp [k1, h]

@[simp] theorem State.mbToken_lnk (t : Token) (purpose bind : Nat) (signer : Nat → Bool) (body : State → Status × Nat × State) (s : State) (h : ∀ s, (body s).2.2.lnk = s.lnk) :
    (State.mbToken t purpose bind signer body s).2.2.lnk = s.lnk := by
  have k1 := State.useToken_kept
  unfold State.mbToken
  (try dsimp only)
  repeat' split
  all_goals simp [k1, h]

@[simp] theorem State.mbToken_rte (t : Token) (purpose bind : Nat) (signer : Nat → Bool) (body : State → Status × Nat × State) (s : State) (h : ∀ s, (body s).2.2.rte = s.rte) :
    (State.mbToken t purpose bind signer body s).2.2.rte = s.rte := by
  have k1 := State.useToken_kept
  unfold State.mbToken
  (try dsimp only)
  repeat' split
  all_goals simp [k1, h]

@[simp] theorem State.mbToken_cap (t : Token) (purpose bind : Nat) (signer : Nat → Bool) (body : State → Status × Nat × State) (s : State) (h : ∀ s, (body s).2.2.cap = s.cap) :
    (State.mbToken t purpose bind signer body s).2.2.cap = s.cap := by
  have k1 := State.useToken_kept
  unfold State.mbToken
  (try dsimp only)
  repeat' split
  all_goals simp [k1, h]

@[simp] theorem State.mbToken_cry (t : Token) (purpose bind : Nat) (signer : Nat → Bool) (body : State → Status × Nat × State) (s : State) (h : ∀ s, (body s).2.2.cry = s.cry) :
    (State.mbToken t purpose bind signer body s).2.2.cry = s.cry := by
  have k1 := State.useToken_kept
  unfold State.mbToken
  (try dsimp only)
  repeat' split
  all_goals simp [k1, h]

@[simp] theorem State.mbToken_flt (t : Token) (purpose bind : Nat) (signer : Nat → Bool) (body : State → Status × Nat × State) (s : State) (h : ∀ s, (body s).2.2.flt = s.flt) :
    (State.mbToken t purpose bind signer body s).2.2.flt = s.flt := by
  have k1 := State.useToken_kept
  unfold State.mbToken
  (try dsimp only)
  repeat' split
  all_goals simp [k1, h]

@[simp] theorem State.mbToken_anl (t : Token) (purpose bind : Nat) (signer : Nat → Bool) (body : State → Status × Nat × State) (s : State) (h : ∀ s, (body s).2.2.anl = s.anl) :
    (State.mbToken t purpose bind signer body s).2.2.anl = s.anl := by
  have k1 := State.useToken_kept
  unfold State.mbToken
  (try dsimp only)
  repeat' split
  all_goals simp [k1, h]

@[simp] theorem State.mbToken_thm (t : Token) (purpose bind : Nat) (signer : Nat → Bool) (body : State → Status × Nat × State) (s : State) (h : ∀ s, (body s).2.2.thm = s.thm) :
    (State.mbToken t purpose bind signer body s).2.2.thm = s.thm := by
  have k1 := State.useToken_kept
  unfold State.mbToken
  (try dsimp only)
  repeat' split
  all_goals simp [k1, h]

@[simp] theorem State.mbToken_pwr (t : Token) (purpose bind : Nat) (signer : Nat → Bool) (body : State → Status × Nat × State) (s : State) (h : ∀ s, (body s).2.2.pwr = s.pwr) :
    (State.mbToken t purpose bind signer body s).2.2.pwr = s.pwr := by
  have k1 := State.useToken_kept
  unfold State.mbToken
  (try dsimp only)
  repeat' split
  all_goals simp [k1, h]

@[simp] theorem State.mbToken_pmc (t : Token) (purpose bind : Nat) (signer : Nat → Bool) (body : State → Status × Nat × State) (s : State) (h : ∀ s, (body s).2.2.pmc = s.pmc) :
    (State.mbToken t purpose bind signer body s).2.2.pmc = s.pmc := by
  have k1 := State.useToken_kept
  unfold State.mbToken
  (try dsimp only)
  repeat' split
  all_goals simp [k1, h]

@[simp] theorem State.mbToken_out (t : Token) (purpose bind : Nat) (signer : Nat → Bool) (body : State → Status × Nat × State) (s : State) (h : ∀ s, (body s).2.2.out = s.out) :
    (State.mbToken t purpose bind signer body s).2.2.out = s.out := by
  have k1 := State.useToken_kept
  unfold State.mbToken
  (try dsimp only)
  repeat' split
  all_goals simp [k1, h]

@[simp] theorem State.mbToken_net (t : Token) (purpose bind : Nat) (signer : Nat → Bool) (body : State → Status × Nat × State) (s : State) (h : ∀ s, (body s).2.2.net = s.net) :
    (State.mbToken t purpose bind signer body s).2.2.net = s.net := by
  have k1 := State.useToken_kept
  unfold State.mbToken
  (try dsimp only)
  repeat' split
  all_goals simp [k1, h]

@[simp] theorem State.mbToken_freeCtr (t : Token) (purpose bind : Nat) (signer : Nat → Bool) (body : State → Status × Nat × State) (s : State) (h : ∀ s, (body s).2.2.freeCtr = s.freeCtr) :
    (State.mbToken t purpose bind signer body s).2.2.freeCtr = s.freeCtr := by
  have k1 := State.useToken_kept
  unfold State.mbToken
  (try dsimp only)
  repeat' split
  all_goals simp [k1, h]

@[simp] theorem State.mbToken_pending (t : Token) (purpose bind : Nat) (signer : Nat → Bool) (body : State → Status × Nat × State) (s : State) (h : ∀ s, (body s).2.2.pending = s.pending) :
    (State.mbToken t purpose bind signer body s).2.2.pending = s.pending := by
  have k1 := State.useToken_kept
  unfold State.mbToken
  (try dsimp only)
  repeat' split
  all_goals simp [k1, h]

@[simp] theorem State.mbToken_cur_lifecycle (t : Token) (purpose bind : Nat) (signer : Nat → Bool) (body : State → Status × Nat × State) (s : State) (h : ∀ s, (body s).2.2.cur.lifecycle = s.cur.lifecycle) :
    (State.mbToken t purpose bind signer body s).2.2.cur.lifecycle = s.cur.lifecycle := by
  have k1 := State.useToken_kept
  unfold State.mbToken
  (try dsimp only)
  repeat' split
  all_goals simp [k1, h]

@[simp] theorem State.mbToken_cur_rootGen (t : Token) (purpose bind : Nat) (signer : Nat → Bool) (body : State → Status × Nat × State) (s : State) (h : ∀ s, (body s).2.2.cur.rootGen = s.cur.rootGen) :
    (State.mbToken t purpose bind signer body s).2.2.cur.rootGen = s.cur.rootGen := by
  have k1 := State.useToken_kept
  unfold State.mbToken
  (try dsimp only)
  repeat' split
  all_goals simp [k1, h]

@[simp] theorem State.mbToken_cur_returns (t : Token) (purpose bind : Nat) (signer : Nat → Bool) (body : State → Status × Nat × State) (s : State) (h : ∀ s, (body s).2.2.cur.returns = s.cur.returns) :
    (State.mbToken t purpose bind signer body s).2.2.cur.returns = s.cur.returns := by
  have k1 := State.useToken_kept
  unfold State.mbToken
  (try dsimp only)
  repeat' split
  all_goals simp [k1, h]

@[simp] theorem State.mbToken_cur_revoked (t : Token) (purpose bind : Nat) (signer : Nat → Bool) (body : State → Status × Nat × State) (s : State) (h : ∀ s, (body s).2.2.cur.revoked = s.cur.revoked) :
    (State.mbToken t purpose bind signer body s).2.2.cur.revoked = s.cur.revoked := by
  have k1 := State.useToken_kept
  unfold State.mbToken
  (try dsimp only)
  repeat' split
  all_goals simp [k1, h]

theorem State.enableSensor_kept (t k : Nat) (on : Bool) (s : State) :
    (State.enableSensor t k on s).member = s.member ∧
    (State.enableSensor t k on s).now = s.now ∧
    (State.enableSensor t k on s).unstored = s.unstored ∧
    (State.enableSensor t k on s).freeCtr = s.freeCtr ∧
    (State.enableSensor t k on s).pending = s.pending ∧
    (State.enableSensor t k on s).pwr.straps = s.pwr.straps ∧
    (State.enableSensor t k on s).cur.lifecycle = s.cur.lifecycle ∧
    (State.enableSensor t k on s).cur.rootGen = s.cur.rootGen ∧
    (State.enableSensor t k on s).cur.returns = s.cur.returns ∧
    (State.enableSensor t k on s).cur.revoked = s.cur.revoked := by
  have k1 := State.setSensor_kept
  unfold State.enableSensor
  simp [k1]

@[simp] theorem State.sensorSwitch_kept (t k op : Nat) (s : State) :
    (State.sensorSwitch t k op s).2.2.member = s.member ∧
    (State.sensorSwitch t k op s).2.2.now = s.now ∧
    (State.sensorSwitch t k op s).2.2.unstored = s.unstored ∧
    (State.sensorSwitch t k op s).2.2.freeCtr = s.freeCtr ∧
    (State.sensorSwitch t k op s).2.2.pending = s.pending ∧
    (State.sensorSwitch t k op s).2.2.pwr.straps = s.pwr.straps ∧
    (State.sensorSwitch t k op s).2.2.cur.lifecycle = s.cur.lifecycle ∧
    (State.sensorSwitch t k op s).2.2.cur.rootGen = s.cur.rootGen ∧
    (State.sensorSwitch t k op s).2.2.cur.returns = s.cur.returns ∧
    (State.sensorSwitch t k op s).2.2.cur.revoked = s.cur.revoked := by
  have k1 := State.enableSensor_kept
  unfold State.sensorSwitch
  repeat' split
  all_goals simp [k1, *]

@[simp] theorem State.setOwner_kept (key : BitVec 544) (s : State) :
    (State.setOwner key s).2.2.member = s.member ∧
    (State.setOwner key s).2.2.now = s.now ∧
    (State.setOwner key s).2.2.regs = s.regs ∧
    (State.setOwner key s).2.2.unstored = s.unstored ∧
    (State.setOwner key s).2.2.host = s.host ∧
    (State.setOwner key s).2.2.epo = s.epo ∧
    (State.setOwner key s).2.2.cat = s.cat ∧
    (State.setOwner key s).2.2.med = s.med ∧
    (State.setOwner key s).2.2.coh = s.coh ∧
    (State.setOwner key s).2.2.lnk = s.lnk ∧
    (State.setOwner key s).2.2.rte = s.rte ∧
    (State.setOwner key s).2.2.cap = s.cap ∧
    (State.setOwner key s).2.2.cry = s.cry ∧
    (State.setOwner key s).2.2.flt = s.flt ∧
    (State.setOwner key s).2.2.anl = s.anl ∧
    (State.setOwner key s).2.2.thm = s.thm ∧
    (State.setOwner key s).2.2.pwr = s.pwr ∧
    (State.setOwner key s).2.2.pmc = s.pmc ∧
    (State.setOwner key s).2.2.out = s.out ∧
    (State.setOwner key s).2.2.net = s.net ∧
    (State.setOwner key s).2.2.freeCtr = s.freeCtr ∧
    (State.setOwner key s).2.2.pending = s.pending ∧
    (State.setOwner key s).2.2.cur.lifecycle = s.cur.lifecycle ∧
    (State.setOwner key s).2.2.cur.rootGen = s.cur.rootGen ∧
    (State.setOwner key s).2.2.cur.returns = s.cur.returns ∧
    (State.setOwner key s).2.2.cur.revoked = s.cur.revoked := by
  unfold State.setOwner
  dsimp only
  repeat' split
  all_goals simp

@[simp] theorem State.revokeRoot_kept (k : Nat) (s : State) :
    (State.revokeRoot k s).2.2.member = s.member ∧
    (State.revokeRoot k s).2.2.now = s.now ∧
    (State.revokeRoot k s).2.2.regs = s.regs ∧
    (State.revokeRoot k s).2.2.unstored = s.unstored ∧
    (State.revokeRoot k s).2.2.host = s.host ∧
    (State.revokeRoot k s).2.2.epo = s.epo ∧
    (State.revokeRoot k s).2.2.cat = s.cat ∧
    (State.revokeRoot k s).2.2.med = s.med ∧
    (State.revokeRoot k s).2.2.coh = s.coh ∧
    (State.revokeRoot k s).2.2.lnk = s.lnk ∧
    (State.revokeRoot k s).2.2.rte = s.rte ∧
    (State.revokeRoot k s).2.2.cap = s.cap ∧
    (State.revokeRoot k s).2.2.cry = s.cry ∧
    (State.revokeRoot k s).2.2.flt = s.flt ∧
    (State.revokeRoot k s).2.2.anl = s.anl ∧
    (State.revokeRoot k s).2.2.thm = s.thm ∧
    (State.revokeRoot k s).2.2.pwr = s.pwr ∧
    (State.revokeRoot k s).2.2.pmc = s.pmc ∧
    (State.revokeRoot k s).2.2.out = s.out ∧
    (State.revokeRoot k s).2.2.net = s.net ∧
    (State.revokeRoot k s).2.2.freeCtr = s.freeCtr ∧
    (State.revokeRoot k s).2.2.pending = s.pending ∧
    (State.revokeRoot k s).2.2.cur.lifecycle = s.cur.lifecycle ∧
    (State.revokeRoot k s).2.2.cur.rootGen = s.cur.rootGen ∧
    (State.revokeRoot k s).2.2.cur.returns = s.cur.returns := by
  unfold State.revokeRoot
  dsimp only
  repeat' split
  all_goals simp

theorem State.loseStaged_kept (s : State) :
    (State.loseStaged s).member = s.member ∧
    (State.loseStaged s).now = s.now ∧
    (State.loseStaged s).unstored = s.unstored ∧
    (State.loseStaged s).host = s.host ∧
    (State.loseStaged s).epo = s.epo ∧
    (State.loseStaged s).med = s.med ∧
    (State.loseStaged s).coh = s.coh ∧
    (State.loseStaged s).lnk = s.lnk ∧
    (State.loseStaged s).rte = s.rte ∧
    (State.loseStaged s).cap = s.cap ∧
    (State.loseStaged s).flt = s.flt ∧
    (State.loseStaged s).anl = s.anl ∧
    (State.loseStaged s).cur = s.cur ∧
    (State.loseStaged s).thm = s.thm ∧
    (State.loseStaged s).pwr = s.pwr ∧
    (State.loseStaged s).net = s.net ∧
    (State.loseStaged s).freeCtr = s.freeCtr ∧
    (State.loseStaged s).pending = s.pending := by
  unfold State.loseStaged
  simp

theorem State.zeroize_kept (s : State) :
    (State.zeroize s).member = s.member ∧
    (State.zeroize s).now = s.now ∧
    (State.zeroize s).unstored = s.unstored ∧
    (State.zeroize s).host = s.host ∧
    (State.zeroize s).epo = s.epo ∧
    (State.zeroize s).med = s.med ∧
    (State.zeroize s).coh = s.coh ∧
    (State.zeroize s).lnk = s.lnk ∧
    (State.zeroize s).rte = s.rte ∧
    (State.zeroize s).cap = s.cap ∧
    (State.zeroize s).flt = s.flt ∧
    (State.zeroize s).anl = s.anl ∧
    (State.zeroize s).thm = s.thm ∧
    (State.zeroize s).pwr = s.pwr ∧
    (State.zeroize s).net = s.net ∧
    (State.zeroize s).freeCtr = s.freeCtr ∧
    (State.zeroize s).pending = s.pending ∧
    (State.zeroize s).cur.lifecycle = s.cur.lifecycle ∧
    (State.zeroize s).cur.returns = s.cur.returns ∧
    (State.zeroize s).cur.revoked = s.cur.revoked := by
  have k1 := State.loseStaged_kept
  unfold State.zeroize
  simp [k1]

theorem State.setLife_kept (v : Life) (s : State) :
    (State.setLife v s).member = s.member ∧
    (State.setLife v s).now = s.now ∧
    (State.setLife v s).unstored = s.unstored ∧
    (State.setLife v s).host = s.host ∧
    (State.setLife v s).epo = s.epo ∧
    (State.setLife v s).cat = s.cat ∧
    (State.setLife v s).med = s.med ∧
    (State.setLife v s).coh = s.coh ∧
    (State.setLife v s).lnk = s.lnk ∧
    (State.setLife v s).rte = s.rte ∧
    (State.setLife v s).cap = s.cap ∧
    (State.setLife v s).cry = s.cry ∧
    (State.setLife v s).flt = s.flt ∧
    (State.setLife v s).thm = s.thm ∧
    (State.setLife v s).pwr = s.pwr ∧
    (State.setLife v s).pmc = s.pmc ∧
    (State.setLife v s).out = s.out ∧
    (State.setLife v s).net = s.net ∧
    (State.setLife v s).freeCtr = s.freeCtr ∧
    (State.setLife v s).pending = s.pending ∧
    (State.setLife v s).cur.rootGen = s.cur.rootGen ∧
    (State.setLife v s).cur.returns = s.cur.returns ∧
    (State.setLife v s).cur.revoked = s.cur.revoked := by
  unfold State.setLife
  simp

theorem State.reopen_kept (s : State) :
    (State.reopen s).member = s.member ∧
    (State.reopen s).now = s.now ∧
    (State.reopen s).unstored = s.unstored ∧
    (State.reopen s).lnk = s.lnk ∧
    (State.reopen s).rte = s.rte ∧
    (State.reopen s).thm = s.thm ∧
    (State.reopen s).pwr = s.pwr ∧
    (State.reopen s).pending = s.pending ∧
    (State.reopen s).cur.revoked = s.cur.revoked := by
  have k1 := State.emptyKids_kept
  have k2 := State.emptySpace_kept
  have k3 := State.formatPart_kept
  have k4 := State.newDdrKeys_kept
  have k5 := State.setLife_kept
  have k6 := State.zeroize_kept
  unfold State.reopen
  simp [k1, k2, k3, k4, k5, k6]

@[simp] theorem State.moveLife_kept (target : Nat) (s : State) :
    (State.moveLife target s).2.2.member = s.member ∧
    (State.moveLife target s).2.2.now = s.now ∧
    (State.moveLife target s).2.2.unstored = s.unstored ∧
    (State.moveLife target s).2.2.lnk = s.lnk ∧
    (State.moveLife target s).2.2.rte = s.rte ∧
    (State.moveLife target s).2.2.thm = s.thm ∧
    (State.moveLife target s).2.2.pwr = s.pwr ∧
    (State.moveLife target s).2.2.pending = s.pending ∧
    (State.moveLife target s).2.2.cur.revoked = s.cur.revoked := by
  have k1 := State.reopen_kept
  have k2 := State.setLife_kept
  have k3 := State.zeroize_kept
  unfold State.moveLife
  dsimp only
  repeat' split
  all_goals simp [k1, k2, k3]

theorem State.scrap_kept (t : Nat) (s : State) :
    (State.scrap t s).member = s.member ∧
    (State.scrap t s).now = s.now ∧
    (State.scrap t s).unstored = s.unstored ∧
    (State.scrap t s).epo = s.epo ∧
    (State.scrap t s).med = s.med ∧
    (State.scrap t s).coh = s.coh ∧
    (State.scrap t s).rte = s.rte ∧
    (State.scrap t s).cap = s.cap ∧
    (State.scrap t s).flt = s.flt ∧
    (State.scrap t s).thm = s.thm ∧
    (State.scrap t s).pwr = s.pwr ∧
    (State.scrap t s).net = s.net ∧
    (State.scrap t s).freeCtr = s.freeCtr ∧
    (State.scrap t s).pending = s.pending ∧
    (State.scrap t s).cur.returns = s.cur.returns ∧
    (State.scrap t s).cur.revoked = s.cur.revoked := by
  have k1 := State.setLife_kept
  have k2 := State.zeroize_kept
  unfold State.scrap
  dsimp only
  repeat' split
  all_goals simp [k1, k2]

@[simp] theorem State.trip_kept (t k : Nat) (reading : DWord) (s : State) :
    (State.trip t k reading s).member = s.member ∧
    (State.trip t k reading s).now = s.now ∧
    (State.trip t k reading s).unstored = s.unstored ∧
    (State.trip t k reading s).epo = s.epo ∧
    (State.trip t k reading s).med = s.med ∧
    (State.trip t k reading s).coh = s.coh ∧
    (State.trip t k reading s).rte = s.rte ∧
    (State.trip t k reading s).cap = s.cap ∧
    (State.trip t k reading s).flt = s.flt ∧
    (State.trip t k reading s).thm = s.thm ∧
    (State.trip t k reading s).pwr = s.pwr ∧
    (State.trip t k reading s).net = s.net ∧
    (State.trip t k reading s).freeCtr = s.freeCtr ∧
    (State.trip t k reading s).pending = s.pending ∧
    (State.trip t k reading s).cur.returns = s.cur.returns ∧
    (State.trip t k reading s).cur.revoked = s.cur.revoked := by
  have k1 := State.scrap_kept
  unfold State.trip
  dsimp only
  repeat' split
  all_goals simp [k1]

theorem State.enterBy_kept (c : Ctx) (n : Nat) (s : State) :
    (State.enterBy c n s).member = s.member ∧
    (State.enterBy c n s).now = s.now ∧
    (State.enterBy c n s).regs = s.regs ∧
    (State.enterBy c n s).unstored = s.unstored ∧
    (State.enterBy c n s).host = s.host ∧
    (State.enterBy c n s).cat = s.cat ∧
    (State.enterBy c n s).med = s.med ∧
    (State.enterBy c n s).coh = s.coh ∧
    (State.enterBy c n s).lnk = s.lnk ∧
    (State.enterBy c n s).rte = s.rte ∧
    (State.enterBy c n s).cap = s.cap ∧
    (State.enterBy c n s).cry = s.cry ∧
    (State.enterBy c n s).flt = s.flt ∧
    (State.enterBy c n s).anl = s.anl ∧
    (State.enterBy c n s).thm = s.thm ∧
    (State.enterBy c n s).pmc = s.pmc ∧
    (State.enterBy c n s).out = s.out ∧
    (State.enterBy c n s).net = s.net ∧
    (State.enterBy c n s).freeCtr = s.freeCtr ∧
    (State.enterBy c n s).pending = s.pending ∧
    (State.enterBy c n s).pwr.straps = s.pwr.straps ∧
    (State.enterBy c n s).cur.lifecycle = s.cur.lifecycle ∧
    (State.enterBy c n s).cur.rootGen = s.cur.rootGen ∧
    (State.enterBy c n s).cur.returns = s.cur.returns ∧
    (State.enterBy c n s).cur.revoked = s.cur.revoked := by
  have k1 := State.leaveQueue_kept
  have k2 := State.startTransition_kept
  unfold State.enterBy
  simp [k1, k2]

@[simp] theorem State.powerState_kept (c : Ctx) (n : Nat) (s : State) :
    (State.powerState c n s).member = s.member ∧
    (State.powerState c n s).now = s.now ∧
    (State.powerState c n s).unstored = s.unstored ∧
    (State.powerState c n s).cat = s.cat ∧
    (State.powerState c n s).med = s.med ∧
    (State.powerState c n s).coh = s.coh ∧
    (State.powerState c n s).lnk = s.lnk ∧
    (State.powerState c n s).rte = s.rte ∧
    (State.powerState c n s).cap = s.cap ∧
    (State.powerState c n s).cry = s.cry ∧
    (State.powerState c n s).flt = s.flt ∧
    (State.powerState c n s).anl = s.anl ∧
    (State.powerState c n s).thm = s.thm ∧
    (State.powerState c n s).pmc = s.pmc ∧
    (State.powerState c n s).net = s.net ∧
    (State.powerState c n s).freeCtr = s.freeCtr ∧
    (State.powerState c n s).pending = s.pending ∧
    (State.powerState c n s).pwr.straps = s.pwr.straps ∧
    (State.powerState c n s).cur.lifecycle = s.cur.lifecycle ∧
    (State.powerState c n s).cur.rootGen = s.cur.rootGen ∧
    (State.powerState c n s).cur.returns = s.cur.returns ∧
    (State.powerState c n s).cur.revoked = s.cur.revoked := by
  have k1 := State.enterBy_kept
  unfold State.powerState
  repeat' split
  all_goals simp [k1, *]

theorem State.endTransition_kept (s : State) :
    (State.endTransition s).member = s.member ∧
    (State.endTransition s).now = s.now ∧
    (State.endTransition s).regs = s.regs ∧
    (State.endTransition s).unstored = s.unstored ∧
    (State.endTransition s).host = s.host ∧
    (State.endTransition s).epo = s.epo ∧
    (State.endTransition s).cat = s.cat ∧
    (State.endTransition s).med = s.med ∧
    (State.endTransition s).coh = s.coh ∧
    (State.endTransition s).lnk = s.lnk ∧
    (State.endTransition s).rte = s.rte ∧
    (State.endTransition s).cap = s.cap ∧
    (State.endTransition s).cry = s.cry ∧
    (State.endTransition s).flt = s.flt ∧
    (State.endTransition s).anl = s.anl ∧
    (State.endTransition s).cur = s.cur ∧
    (State.endTransition s).thm = s.thm ∧
    (State.endTransition s).pmc = s.pmc ∧
    (State.endTransition s).out = s.out ∧
    (State.endTransition s).net = s.net ∧
    (State.endTransition s).freeCtr = s.freeCtr ∧
    (State.endTransition s).pending = s.pending ∧
    (State.endTransition s).pwr.straps = s.pwr.straps := by
  unfold State.endTransition
  simp

theorem State.replyTransition_kept (x : Transition) (st : Status) (s : State) :
    (State.replyTransition x st s).member = s.member ∧
    (State.replyTransition x st s).now = s.now ∧
    (State.replyTransition x st s).unstored = s.unstored ∧
    (State.replyTransition x st s).epo = s.epo ∧
    (State.replyTransition x st s).cat = s.cat ∧
    (State.replyTransition x st s).med = s.med ∧
    (State.replyTransition x st s).coh = s.coh ∧
    (State.replyTransition x st s).lnk = s.lnk ∧
    (State.replyTransition x st s).rte = s.rte ∧
    (State.replyTransition x st s).cap = s.cap ∧
    (State.replyTransition x st s).cry = s.cry ∧
    (State.replyTransition x st s).flt = s.flt ∧
    (State.replyTransition x st s).anl = s.anl ∧
    (State.replyTransition x st s).thm = s.thm ∧
    (State.replyTransition x st s).pmc = s.pmc ∧
    (State.replyTransition x st s).net = s.net ∧
    (State.replyTransition x st s).freeCtr = s.freeCtr ∧
    (State.replyTransition x st s).pending = s.pending ∧
    (State.replyTransition x st s).pwr.straps = s.pwr.straps ∧
    (State.replyTransition x st s).cur.lifecycle = s.cur.lifecycle ∧
    (State.replyTransition x st s).cur.rootGen = s.cur.rootGen ∧
    (State.replyTransition x st s).cur.returns = s.cur.returns ∧
    (State.replyTransition x st s).cur.revoked = s.cur.revoked := by
  unfold State.replyTransition
  dsimp only
  repeat' split
  all_goals simp

theorem State.toRun_kept (s : State) :
    (State.toRun s).member = s.member ∧
    (State.toRun s).now = s.now ∧
    (State.toRun s).unstored = s.unstored ∧
    (State.toRun s).epo = s.epo ∧
    (State.toRun s).cat = s.cat ∧
    (State.toRun s).med = s.med ∧
    (State.toRun s).coh = s.coh ∧
    (State.toRun s).rte = s.rte ∧
    (State.toRun s).cap = s.cap ∧
    (State.toRun s).cry = s.cry ∧
    (State.toRun s).flt = s.flt ∧
    (State.toRun s).cur = s.cur ∧
    (State.toRun s).thm = s.thm ∧
    (State.toRun s).pmc = s.pmc ∧
    (State.toRun s).net = s.net ∧
    (State.toRun s).freeCtr = s.freeCtr ∧
    (State.toRun s).pending = s.pending ∧
    (State.toRun s).pwr.straps = s.pwr.straps := by
  unfold State.toRun
  simp

theorem State.toHold_kept (s : State) :
    (State.toHold s).member = s.member ∧
    (State.toHold s).now = s.now ∧
    (State.toHold s).unstored = s.unstored ∧
    (State.toHold s).epo = s.epo ∧
    (State.toHold s).cat = s.cat ∧
    (State.toHold s).med = s.med ∧
    (State.toHold s).coh = s.coh ∧
    (State.toHold s).cry = s.cry ∧
    (State.toHold s).flt = s.flt ∧
    (State.toHold s).cur = s.cur ∧
    (State.toHold s).thm = s.thm ∧
    (State.toHold s).pmc = s.pmc ∧
    (State.toHold s).net = s.net ∧
    (State.toHold s).freeCtr = s.freeCtr ∧
    (State.toHold s).pending = s.pending ∧
    (State.toHold s).pwr.straps = s.pwr.straps := by
  unfold State.toHold
  simp

theorem State.toShelf_kept (s : State) :
    (State.toShelf s).member = s.member ∧
    (State.toShelf s).now = s.now ∧
    (State.toShelf s).unstored = s.unstored ∧
    (State.toShelf s).freeCtr = s.freeCtr ∧
    (State.toShelf s).pending = s.pending ∧
    (State.toShelf s).pwr.straps = s.pwr.straps ∧
    (State.toShelf s).cur.lifecycle = s.cur.lifecycle ∧
    (State.toShelf s).cur.rootGen = s.cur.rootGen ∧
    (State.toShelf s).cur.returns = s.cur.returns ∧
    (State.toShelf s).cur.revoked = s.cur.revoked := by
  unfold State.toShelf
  simp

@[simp] theorem State.transition_kept (x : Transition) (s : State) :
    (State.transition x s).member = s.member ∧
    (State.transition x s).now = s.now ∧
    (State.transition x s).unstored = s.unstored ∧
    (State.transition x s).freeCtr = s.freeCtr ∧
    (State.transition x s).pending = s.pending ∧
    (State.transition x s).pwr.straps = s.pwr.straps ∧
    (State.transition x s).cur.lifecycle = s.cur.lifecycle ∧
    (State.transition x s).cur.rootGen = s.cur.rootGen ∧
    (State.transition x s).cur.returns = s.cur.returns ∧
    (State.transition x s).cur.revoked = s.cur.revoked := by
  have k1 := State.endTransition_kept
  have k2 := State.replyTransition_kept
  have k3 := State.routesQuiet_kept
  have k4 := State.toHold_kept
  have k5 := State.toRun_kept
  have k6 := State.toShelf_kept
  unfold State.transition
  dsimp only
  repeat' split
  all_goals simp [k1, k2, k3, k4, k5, k6]

@[simp] theorem State.abandonP3_kept (x : Transition) (s : State) :
    (State.abandonP3 x s).member = s.member ∧
    (State.abandonP3 x s).now = s.now ∧
    (State.abandonP3 x s).unstored = s.unstored ∧
    (State.abandonP3 x s).epo = s.epo ∧
    (State.abandonP3 x s).cat = s.cat ∧
    (State.abandonP3 x s).med = s.med ∧
    (State.abandonP3 x s).coh = s.coh ∧
    (State.abandonP3 x s).rte = s.rte ∧
    (State.abandonP3 x s).cap = s.cap ∧
    (State.abandonP3 x s).cry = s.cry ∧
    (State.abandonP3 x s).flt = s.flt ∧
    (State.abandonP3 x s).thm = s.thm ∧
    (State.abandonP3 x s).pmc = s.pmc ∧
    (State.abandonP3 x s).net = s.net ∧
    (State.abandonP3 x s).freeCtr = s.freeCtr ∧
    (State.abandonP3 x s).pending = s.pending ∧
    (State.abandonP3 x s).pwr.straps = s.pwr.straps ∧
    (State.abandonP3 x s).cur.lifecycle = s.cur.lifecycle ∧
    (State.abandonP3 x s).cur.rootGen = s.cur.rootGen ∧
    (State.abandonP3 x s).cur.returns = s.cur.returns ∧
    (State.abandonP3 x s).cur.revoked = s.cur.revoked := by
  have k1 := State.endTransition_kept
  have k2 := State.replyTransition_kept
  have k3 := State.toRun_kept
  unfold State.abandonP3
  dsimp only
  repeat' split
  all_goals simp [k1, k2, k3]

@[simp] theorem State.loseVaon_kept (s : State) :
    (State.loseVaon s).member = s.member ∧
    (State.loseVaon s).now = s.now ∧
    (State.loseVaon s).out = s.out ∧
    (State.loseVaon s).freeCtr = s.freeCtr ∧
    (State.loseVaon s).pending = s.pending ∧
    (State.loseVaon s).pwr.straps = s.pwr.straps ∧
    (State.loseVaon s).cur.lifecycle = s.cur.lifecycle ∧
    (State.loseVaon s).cur.rootGen = s.cur.rootGen ∧
    (State.loseVaon s).cur.returns = s.cur.returns ∧
    (State.loseVaon s).cur.revoked = s.cur.revoked := by
  have k1 := State.loseSources_kept
  have k2 := State.loseUnstored_kept
  unfold State.loseVaon
  simp [k1, k2]

theorem State.zeroTimes_kept (s : State) :
    (State.zeroTimes s).member = s.member ∧
    (State.zeroTimes s).regs = s.regs ∧
    (State.zeroTimes s).unstored = s.unstored ∧
    (State.zeroTimes s).host = s.host ∧
    (State.zeroTimes s).cat = s.cat ∧
    (State.zeroTimes s).coh = s.coh ∧
    (State.zeroTimes s).lnk = s.lnk ∧
    (State.zeroTimes s).rte = s.rte ∧
    (State.zeroTimes s).cap = s.cap ∧
    (State.zeroTimes s).cry = s.cry ∧
    (State.zeroTimes s).pmc = s.pmc ∧
    (State.zeroTimes s).out = s.out ∧
    (State.zeroTimes s).net = s.net ∧
    (State.zeroTimes s).freeCtr = s.freeCtr ∧
    (State.zeroTimes s).pending = s.pending ∧
    (State.zeroTimes s).pwr.straps = s.pwr.straps ∧
    (State.zeroTimes s).cur.lifecycle = s.cur.lifecycle ∧
    (State.zeroTimes s).cur.rootGen = s.cur.rootGen ∧
    (State.zeroTimes s).cur.returns = s.cur.returns ∧
    (State.zeroTimes s).cur.revoked = s.cur.revoked := by
  unfold State.zeroTimes
  simp

theorem State.sampleStraps_kept (s : State) :
    (State.sampleStraps s).member = s.member ∧
    (State.sampleStraps s).now = s.now ∧
    (State.sampleStraps s).regs = s.regs ∧
    (State.sampleStraps s).unstored = s.unstored ∧
    (State.sampleStraps s).host = s.host ∧
    (State.sampleStraps s).epo = s.epo ∧
    (State.sampleStraps s).cat = s.cat ∧
    (State.sampleStraps s).med = s.med ∧
    (State.sampleStraps s).coh = s.coh ∧
    (State.sampleStraps s).lnk = s.lnk ∧
    (State.sampleStraps s).rte = s.rte ∧
    (State.sampleStraps s).cap = s.cap ∧
    (State.sampleStraps s).cry = s.cry ∧
    (State.sampleStraps s).flt = s.flt ∧
    (State.sampleStraps s).anl = s.anl ∧
    (State.sampleStraps s).cur = s.cur ∧
    (State.sampleStraps s).thm = s.thm ∧
    (State.sampleStraps s).pmc = s.pmc ∧
    (State.sampleStraps s).out = s.out ∧
    (State.sampleStraps s).net = s.net ∧
    (State.sampleStraps s).freeCtr = s.freeCtr ∧
    (State.sampleStraps s).pending = s.pending := by
  unfold State.sampleStraps
  simp

theorem State.chooseProgram_kept (s : State) :
    (State.chooseProgram s).member = s.member ∧
    (State.chooseProgram s).now = s.now ∧
    (State.chooseProgram s).unstored = s.unstored ∧
    (State.chooseProgram s).cat = s.cat ∧
    (State.chooseProgram s).med = s.med ∧
    (State.chooseProgram s).coh = s.coh ∧
    (State.chooseProgram s).lnk = s.lnk ∧
    (State.chooseProgram s).rte = s.rte ∧
    (State.chooseProgram s).cry = s.cry ∧
    (State.chooseProgram s).thm = s.thm ∧
    (State.chooseProgram s).net = s.net ∧
    (State.chooseProgram s).pending = s.pending ∧
    (State.chooseProgram s).pwr.straps = s.pwr.straps ∧
    (State.chooseProgram s).cur.lifecycle = s.cur.lifecycle ∧
    (State.chooseProgram s).cur.rootGen = s.cur.rootGen ∧
    (State.chooseProgram s).cur.returns = s.cur.returns ∧
    (State.chooseProgram s).cur.revoked = s.cur.revoked := by
  unfold State.chooseProgram
  dsimp only
  repeat' split
  all_goals simp

@[simp] theorem State.powerOn_kept (s : State) :
    (State.powerOn s).member = s.member ∧
    (State.powerOn s).unstored = s.unstored ∧
    (State.powerOn s).pending = s.pending ∧
    (State.powerOn s).cur.lifecycle = s.cur.lifecycle ∧
    (State.powerOn s).cur.rootGen = s.cur.rootGen ∧
    (State.powerOn s).cur.returns = s.cur.returns ∧
    (State.powerOn s).cur.revoked = s.cur.revoked := by
  have k1 := State.chooseProgram_kept
  have k2 := State.rebootCurators_kept
  have k3 := State.sampleStraps_kept
  have k4 := State.zeroTimes_kept
  unfold State.powerOn
  simp [k1, k2, k3, k4]

theorem State.coldStart_kept (s : State) :
    (State.coldStart s).member = s.member ∧
    (State.coldStart s).now = s.now ∧
    (State.coldStart s).unstored = s.unstored ∧
    (State.coldStart s).out = s.out ∧
    (State.coldStart s).freeCtr = s.freeCtr ∧
    (State.coldStart s).pending = s.pending ∧
    (State.coldStart s).pwr.straps = s.pwr.straps ∧
    (State.coldStart s).cur.lifecycle = s.cur.lifecycle ∧
    (State.coldStart s).cur.rootGen = s.cur.rootGen ∧
    (State.coldStart s).cur.returns = s.cur.returns ∧
    (State.coldStart s).cur.revoked = s.cur.revoked := by
  have k1 := State.rebootCurators_kept
  unfold State.coldStart
  simp [k1]

theorem State.warmStart_kept (s : State) :
    (State.warmStart s).member = s.member ∧
    (State.warmStart s).now = s.now ∧
    (State.warmStart s).unstored = s.unstored ∧
    (State.warmStart s).freeCtr = s.freeCtr ∧
    (State.warmStart s).pending = s.pending ∧
    (State.warmStart s).pwr.straps = s.pwr.straps ∧
    (State.warmStart s).cur.lifecycle = s.cur.lifecycle ∧
    (State.warmStart s).cur.rootGen = s.cur.rootGen ∧
    (State.warmStart s).cur.returns = s.cur.returns ∧
    (State.warmStart s).cur.revoked = s.cur.revoked := by
  have k1 := State.afterWarm_kept
  have k2 := State.coldStart_kept
  unfold State.warmStart
  repeat' split
  all_goals simp [k1, k2, *]

@[simp] theorem State.resetLow_kept (s : State) :
    (State.resetLow s).member = s.member ∧
    (State.resetLow s).now = s.now ∧
    (State.resetLow s).unstored = s.unstored ∧
    (State.resetLow s).out = s.out ∧
    (State.resetLow s).freeCtr = s.freeCtr ∧
    (State.resetLow s).pending = s.pending ∧
    (State.resetLow s).pwr.straps = s.pwr.straps ∧
    (State.resetLow s).cur.lifecycle = s.cur.lifecycle ∧
    (State.resetLow s).cur.rootGen = s.cur.rootGen ∧
    (State.resetLow s).cur.returns = s.cur.returns ∧
    (State.resetLow s).cur.revoked = s.cur.revoked := by
  have k1 := State.coldStart_kept
  unfold State.resetLow
  dsimp only
  repeat' split
  all_goals simp [k1]

@[simp] theorem State.writePartReset_kept (p w : Nat) (s : State) :
    (State.writePartReset p w s).member = s.member ∧
    (State.writePartReset p w s).now = s.now ∧
    (State.writePartReset p w s).unstored = s.unstored ∧
    (State.writePartReset p w s).freeCtr = s.freeCtr ∧
    (State.writePartReset p w s).pending = s.pending ∧
    (State.writePartReset p w s).pwr.straps = s.pwr.straps ∧
    (State.writePartReset p w s).cur.lifecycle = s.cur.lifecycle ∧
    (State.writePartReset p w s).cur.rootGen = s.cur.rootGen ∧
    (State.writePartReset p w s).cur.returns = s.cur.returns ∧
    (State.writePartReset p w s).cur.revoked = s.cur.revoked := by
  have k1 := State.warmStart_kept
  unfold State.writePartReset
  repeat' split
  all_goals simp [k1, *]

theorem State.closeNeighbours_kept (t : Nat) (s : State) :
    (State.closeNeighbours t s).member = s.member ∧
    (State.closeNeighbours t s).now = s.now ∧
    (State.closeNeighbours t s).unstored = s.unstored ∧
    (State.closeNeighbours t s).cat = s.cat ∧
    (State.closeNeighbours t s).med = s.med ∧
    (State.closeNeighbours t s).coh = s.coh ∧
    (State.closeNeighbours t s).lnk = s.lnk ∧
    (State.closeNeighbours t s).rte = s.rte ∧
    (State.closeNeighbours t s).thm = s.thm ∧
    (State.closeNeighbours t s).net = s.net ∧
    (State.closeNeighbours t s).pending = s.pending ∧
    (State.closeNeighbours t s).pwr.straps = s.pwr.straps ∧
    (State.closeNeighbours t s).cur.lifecycle = s.cur.lifecycle ∧
    (State.closeNeighbours t s).cur.rootGen = s.cur.rootGen ∧
    (State.closeNeighbours t s).cur.returns = s.cur.returns ∧
    (State.closeNeighbours t s).cur.revoked = s.cur.revoked := by
  have k1 := State.closePasses_kept
  unfold State.closeNeighbours
  simp [k1]

theorem State.resetHostSide_kept (t : Nat) (s : State) :
    (State.resetHostSide t s).member = s.member ∧
    (State.resetHostSide t s).now = s.now ∧
    (State.resetHostSide t s).regs = s.regs ∧
    (State.resetHostSide t s).unstored = s.unstored ∧
    (State.resetHostSide t s).cat = s.cat ∧
    (State.resetHostSide t s).med = s.med ∧
    (State.resetHostSide t s).coh = s.coh ∧
    (State.resetHostSide t s).lnk = s.lnk ∧
    (State.resetHostSide t s).rte = s.rte ∧
    (State.resetHostSide t s).cap = s.cap ∧
    (State.resetHostSide t s).cry = s.cry ∧
    (State.resetHostSide t s).flt = s.flt ∧
    (State.resetHostSide t s).anl = s.anl ∧
    (State.resetHostSide t s).thm = s.thm ∧
    (State.resetHostSide t s).pwr = s.pwr ∧
    (State.resetHostSide t s).pmc = s.pmc ∧
    (State.resetHostSide t s).out = s.out ∧
    (State.resetHostSide t s).net = s.net ∧
    (State.resetHostSide t s).freeCtr = s.freeCtr ∧
    (State.resetHostSide t s).pending = s.pending ∧
    (State.resetHostSide t s).cur.lifecycle = s.cur.lifecycle ∧
    (State.resetHostSide t s).cur.rootGen = s.cur.rootGen ∧
    (State.resetHostSide t s).cur.returns = s.cur.returns ∧
    (State.resetHostSide t s).cur.revoked = s.cur.revoked := by
  have k1 := State.clearBank_kept
  have k2 := State.endCmds_kept
  unfold State.resetHostSide
  dsimp only
  repeat' split
  all_goals simp [k1, k2]

@[simp] theorem State.tileReset_kept (t : Nat) (s : State) :
    (State.tileReset t s).member = s.member ∧
    (State.tileReset t s).now = s.now ∧
    (State.tileReset t s).unstored = s.unstored ∧
    (State.tileReset t s).thm = s.thm ∧
    (State.tileReset t s).pending = s.pending ∧
    (State.tileReset t s).pwr.straps = s.pwr.straps ∧
    (State.tileReset t s).cur.lifecycle = s.cur.lifecycle ∧
    (State.tileReset t s).cur.rootGen = s.cur.rootGen ∧
    (State.tileReset t s).cur.returns = s.cur.returns ∧
    (State.tileReset t s).cur.revoked = s.cur.revoked := by
  have k1 := State.closeNeighbours_kept
  have k2 := State.resetHostSide_kept
  have k3 := State.resetTile_kept
  unfold State.tileReset
  simp [k1, k2, k3]

@[simp] theorem State.closeHost_kept (p : Nat) (s : State) :
    (State.closeHost p s).member = s.member ∧
    (State.closeHost p s).now = s.now ∧
    (State.closeHost p s).unstored = s.unstored ∧
    (State.closeHost p s).cat = s.cat ∧
    (State.closeHost p s).med = s.med ∧
    (State.closeHost p s).coh = s.coh ∧
    (State.closeHost p s).lnk = s.lnk ∧
    (State.closeHost p s).rte = s.rte ∧
    (State.closeHost p s).thm = s.thm ∧
    (State.closeHost p s).net = s.net ∧
    (State.closeHost p s).pending = s.pending ∧
    (State.closeHost p s).pwr.straps = s.pwr.straps ∧
    (State.closeHost p s).cur.lifecycle = s.cur.lifecycle ∧
    (State.closeHost p s).cur.rootGen = s.cur.rootGen ∧
    (State.closeHost p s).cur.returns = s.cur.returns ∧
    (State.closeHost p s).cur.revoked = s.cur.revoked := by
  have k1 := State.closePasses_kept
  unfold State.closeHost
  repeat' split
  all_goals simp [k1, *]

@[simp] theorem State.perstFalls_kept (p : Nat) (s : State) :
    (State.perstFalls p s).member = s.member ∧
    (State.perstFalls p s).now = s.now ∧
    (State.perstFalls p s).unstored = s.unstored ∧
    (State.perstFalls p s).pending = s.pending ∧
    (State.perstFalls p s).pwr.straps = s.pwr.straps ∧
    (State.perstFalls p s).cur.lifecycle = s.cur.lifecycle ∧
    (State.perstFalls p s).cur.rootGen = s.cur.rootGen ∧
    (State.perstFalls p s).cur.returns = s.cur.returns ∧
    (State.perstFalls p s).cur.revoked = s.cur.revoked := by
  have k1 := State.coldStart_kept
  unfold State.perstFalls
  dsimp only
  repeat' split
  all_goals simp [k1]

@[simp] theorem State.linkTrains_kept (p : Nat) (speed width : Byte) (en fmask : Bool) (s : State) :
    (State.linkTrains p speed width en fmask s).member = s.member ∧
    (State.linkTrains p speed width en fmask s).now = s.now ∧
    (State.linkTrains p speed width en fmask s).regs = s.regs ∧
    (State.linkTrains p speed width en fmask s).unstored = s.unstored ∧
    (State.linkTrains p speed width en fmask s).epo = s.epo ∧
    (State.linkTrains p speed width en fmask s).cat = s.cat ∧
    (State.linkTrains p speed width en fmask s).med = s.med ∧
    (State.linkTrains p speed width en fmask s).coh = s.coh ∧
    (State.linkTrains p speed width en fmask s).lnk = s.lnk ∧
    (State.linkTrains p speed width en fmask s).rte = s.rte ∧
    (State.linkTrains p speed width en fmask s).cap = s.cap ∧
    (State.linkTrains p speed width en fmask s).cry = s.cry ∧
    (State.linkTrains p speed width en fmask s).flt = s.flt ∧
    (State.linkTrains p speed width en fmask s).anl = s.anl ∧
    (State.linkTrains p speed width en fmask s).cur = s.cur ∧
    (State.linkTrains p speed width en fmask s).thm = s.thm ∧
    (State.linkTrains p speed width en fmask s).pwr = s.pwr ∧
    (State.linkTrains p speed width en fmask s).pmc = s.pmc ∧
    (State.linkTrains p speed width en fmask s).out = s.out ∧
    (State.linkTrains p speed width en fmask s).net = s.net ∧
    (State.linkTrains p speed width en fmask s).freeCtr = s.freeCtr ∧
    (State.linkTrains p speed width en fmask s).pending = s.pending := by
  unfold State.linkTrains
  simp

theorem State.trainChan_kept (t c : Nat) (e : BootEnv) (s : State) :
    (State.trainChan t c e s).member = s.member ∧
    (State.trainChan t c e s).now = s.now ∧
    (State.trainChan t c e s).unstored = s.unstored ∧
    (State.trainChan t c e s).coh = s.coh ∧
    (State.trainChan t c e s).lnk = s.lnk ∧
    (State.trainChan t c e s).rte = s.rte ∧
    (State.trainChan t c e s).cry = s.cry ∧
    (State.trainChan t c e s).thm = s.thm ∧
    (State.trainChan t c e s).net = s.net ∧
    (State.trainChan t c e s).pending = s.pending ∧
    (State.trainChan t c e s).pwr.straps = s.pwr.straps ∧
    (State.trainChan t c e s).cur.lifecycle = s.cur.lifecycle ∧
    (State.trainChan t c e s).cur.rootGen = s.cur.rootGen ∧
    (State.trainChan t c e s).cur.returns = s.cur.returns ∧
    (State.trainChan t c e s).cur.revoked = s.cur.revoked := by
  unfold State.trainChan
  dsimp only
  repeat' split
  all_goals simp

theorem State.foundTarget_kept (t : Nat) (v : Found) (item : Nat) (mapped : Bool) (s : State) :
    (State.foundTarget t v item mapped s).member = s.member ∧
    (State.foundTarget t v item mapped s).now = s.now ∧
    (State.foundTarget t v item mapped s).unstored = s.unstored ∧
    (State.foundTarget t v item mapped s).host = s.host ∧
    (State.foundTarget t v item mapped s).epo = s.epo ∧
    (State.foundTarget t v item mapped s).cat = s.cat ∧
    (State.foundTarget t v item mapped s).coh = s.coh ∧
    (State.foundTarget t v item mapped s).lnk = s.lnk ∧
    (State.foundTarget t v item mapped s).rte = s.rte ∧
    (State.foundTarget t v item mapped s).cap = s.cap ∧
    (State.foundTarget t v item mapped s).cry = s.cry ∧
    (State.foundTarget t v item mapped s).flt = s.flt ∧
    (State.foundTarget t v item mapped s).cur = s.cur ∧
    (State.foundTarget t v item mapped s).thm = s.thm ∧
    (State.foundTarget t v item mapped s).pwr = s.pwr ∧
    (State.foundTarget t v item mapped s).pmc = s.pmc ∧
    (State.foundTarget t v item mapped s).net = s.net ∧
    (State.foundTarget t v item mapped s).freeCtr = s.freeCtr ∧
    (State.foundTarget t v item mapped s).pending = s.pending := by
  unfold State.foundTarget
  simp

theorem State.blockWindow_kept (t c b : Nat) (s : State) :
    (State.blockWindow t c b s).member = s.member ∧
    (State.blockWindow t c b s).now = s.now ∧
    (State.blockWindow t c b s).regs = s.regs ∧
    (State.blockWindow t c b s).unstored = s.unstored ∧
    (State.blockWindow t c b s).host = s.host ∧
    (State.blockWindow t c b s).epo = s.epo ∧
    (State.blockWindow t c b s).cat = s.cat ∧
    (State.blockWindow t c b s).med = s.med ∧
    (State.blockWindow t c b s).coh = s.coh ∧
    (State.blockWindow t c b s).lnk = s.lnk ∧
    (State.blockWindow t c b s).rte = s.rte ∧
    (State.blockWindow t c b s).cap = s.cap ∧
    (State.blockWindow t c b s).cry = s.cry ∧
    (State.blockWindow t c b s).flt = s.flt ∧
    (State.blockWindow t c b s).anl = s.anl ∧
    (State.blockWindow t c b s).cur = s.cur ∧
    (State.blockWindow t c b s).thm = s.thm ∧
    (State.blockWindow t c b s).pwr = s.pwr ∧
    (State.blockWindow t c b s).net = s.net ∧
    (State.blockWindow t c b s).freeCtr = s.freeCtr ∧
    (State.blockWindow t c b s).pending = s.pending := by
  unfold State.blockWindow
  simp

theorem State.badBlocks_kept (t : Nat) (e : BootEnv) (s : State) :
    (State.badBlocks t e s).member = s.member ∧
    (State.badBlocks t e s).now = s.now ∧
    (State.badBlocks t e s).unstored = s.unstored ∧
    (State.badBlocks t e s).host = s.host ∧
    (State.badBlocks t e s).epo = s.epo ∧
    (State.badBlocks t e s).coh = s.coh ∧
    (State.badBlocks t e s).lnk = s.lnk ∧
    (State.badBlocks t e s).rte = s.rte ∧
    (State.badBlocks t e s).cap = s.cap ∧
    (State.badBlocks t e s).cry = s.cry ∧
    (State.badBlocks t e s).flt = s.flt ∧
    (State.badBlocks t e s).anl = s.anl ∧
    (State.badBlocks t e s).cur = s.cur ∧
    (State.badBlocks t e s).thm = s.thm ∧
    (State.badBlocks t e s).pwr = s.pwr ∧
    (State.badBlocks t e s).net = s.net ∧
    (State.badBlocks t e s).freeCtr = s.freeCtr ∧
    (State.badBlocks t e s).pending = s.pending := by
  have k1 := State.blockWindow_kept
  unfold State.badBlocks
  simp [k1]

theorem State.missTargets_kept (t : Nat) (s : State) :
    (State.missTargets t s).member = s.member ∧
    (State.missTargets t s).now = s.now ∧
    (State.missTargets t s).unstored = s.unstored ∧
    (State.missTargets t s).epo = s.epo ∧
    (State.missTargets t s).coh = s.coh ∧
    (State.missTargets t s).lnk = s.lnk ∧
    (State.missTargets t s).rte = s.rte ∧
    (State.missTargets t s).cap = s.cap ∧
    (State.missTargets t s).cry = s.cry ∧
    (State.missTargets t s).flt = s.flt ∧
    (State.missTargets t s).cur = s.cur ∧
    (State.missTargets t s).thm = s.thm ∧
    (State.missTargets t s).pwr = s.pwr ∧
    (State.missTargets t s).pmc = s.pmc ∧
    (State.missTargets t s).net = s.net ∧
    (State.missTargets t s).freeCtr = s.freeCtr ∧
    (State.missTargets t s).pending = s.pending := by
  have k1 := State.failTarget_kept
  unfold State.missTargets
  simp [k1]

theorem State.setMedia_kept (t : Nat) (l : List Found) (pages gib : Nat) (s : State) :
    (State.setMedia t l pages gib s).member = s.member ∧
    (State.setMedia t l pages gib s).now = s.now ∧
    (State.setMedia t l pages gib s).regs = s.regs ∧
    (State.setMedia t l pages gib s).unstored = s.unstored ∧
    (State.setMedia t l pages gib s).host = s.host ∧
    (State.setMedia t l pages gib s).epo = s.epo ∧
    (State.setMedia t l pages gib s).cat = s.cat ∧
    (State.setMedia t l pages gib s).coh = s.coh ∧
    (State.setMedia t l pages gib s).lnk = s.lnk ∧
    (State.setMedia t l pages gib s).rte = s.rte ∧
    (State.setMedia t l pages gib s).cap = s.cap ∧
    (State.setMedia t l pages gib s).cry = s.cry ∧
    (State.setMedia t l pages gib s).flt = s.flt ∧
    (State.setMedia t l pages gib s).anl = s.anl ∧
    (State.setMedia t l pages gib s).cur = s.cur ∧
    (State.setMedia t l pages gib s).thm = s.thm ∧
    (State.setMedia t l pages gib s).pmc = s.pmc ∧
    (State.setMedia t l pages gib s).out = s.out ∧
    (State.setMedia t l pages gib s).net = s.net ∧
    (State.setMedia t l pages gib s).freeCtr = s.freeCtr ∧
    (State.setMedia t l pages gib s).pending = s.pending ∧
    (State.setMedia t l pages gib s).pwr.straps = s.pwr.straps := by
  unfold State.setMedia
  dsimp only
  repeat' split
  all_goals simp

theorem State.bootTile_kept (e : BootEnv) (t : Nat) (s : State) :
    (State.bootTile e t s).member = s.member ∧
    (State.bootTile e t s).now = s.now ∧
    (State.bootTile e t s).unstored = s.unstored ∧
    (State.bootTile e t s).lnk = s.lnk ∧
    (State.bootTile e t s).rte = s.rte ∧
    (State.bootTile e t s).cry = s.cry ∧
    (State.bootTile e t s).thm = s.thm ∧
    (State.bootTile e t s).net = s.net ∧
    (State.bootTile e t s).pending = s.pending ∧
    (State.bootTile e t s).pwr.straps = s.pwr.straps ∧
    (State.bootTile e t s).cur.lifecycle = s.cur.lifecycle ∧
    (State.bootTile e t s).cur.rootGen = s.cur.rootGen ∧
    (State.bootTile e t s).cur.returns = s.cur.returns ∧
    (State.bootTile e t s).cur.revoked = s.cur.revoked := by
  have k1 := State.badBlocks_kept
  have k2 := State.foundTarget_kept
  have k3 := State.measure_kept
  have k4 := State.missTargets_kept
  have k5 := State.saddlesUp_kept
  have k6 := State.setMedia_kept
  have k7 := State.trainChan_kept
  unfold State.bootTile
  simp [k1, k2, k3, k4, k5, k6, k7]

theorem State.newBoot_kept (s : State) :
    (State.newBoot s).member = s.member ∧
    (State.newBoot s).now = s.now ∧
    (State.newBoot s).unstored = s.unstored ∧
    (State.newBoot s).host = s.host ∧
    (State.newBoot s).epo = s.epo ∧
    (State.newBoot s).cat = s.cat ∧
    (State.newBoot s).med = s.med ∧
    (State.newBoot s).coh = s.coh ∧
    (State.newBoot s).lnk = s.lnk ∧
    (State.newBoot s).rte = s.rte ∧
    (State.newBoot s).cap = s.cap ∧
    (State.newBoot s).flt = s.flt ∧
    (State.newBoot s).cur = s.cur ∧
    (State.newBoot s).thm = s.thm ∧
    (State.newBoot s).pwr = s.pwr ∧
    (State.newBoot s).pmc = s.pmc ∧
    (State.newBoot s).out = s.out ∧
    (State.newBoot s).net = s.net ∧
    (State.newBoot s).pending = s.pending := by
  have k1 := State.newDdrKeys_kept
  unfold State.newBoot
  simp [k1]

theorem State.bootSpare_kept (s : State) :
    (State.bootSpare s).member = s.member ∧
    (State.bootSpare s).now = s.now ∧
    (State.bootSpare s).unstored = s.unstored ∧
    (State.bootSpare s).epo = s.epo ∧
    (State.bootSpare s).cat = s.cat ∧
    (State.bootSpare s).coh = s.coh ∧
    (State.bootSpare s).lnk = s.lnk ∧
    (State.bootSpare s).rte = s.rte ∧
    (State.bootSpare s).cap = s.cap ∧
    (State.bootSpare s).cry = s.cry ∧
    (State.bootSpare s).flt = s.flt ∧
    (State.bootSpare s).cur = s.cur ∧
    (State.bootSpare s).thm = s.thm ∧
    (State.bootSpare s).pwr = s.pwr ∧
    (State.bootSpare s).pmc = s.pmc ∧
    (State.bootSpare s).net = s.net ∧
    (State.bootSpare s).freeCtr = s.freeCtr ∧
    (State.bootSpare s).pending = s.pending := by
  have k1 := State.newBaselines_kept
  have k2 := State.withSetting_kept
  unfold State.bootSpare
  repeat' split
  all_goals simp [k1, k2, *]

theorem State.reportReady_kept (s : State) :
    (State.reportReady s).member = s.member ∧
    (State.reportReady s).now = s.now ∧
    (State.reportReady s).unstored = s.unstored ∧
    (State.reportReady s).host = s.host ∧
    (State.reportReady s).cat = s.cat ∧
    (State.reportReady s).med = s.med ∧
    (State.reportReady s).coh = s.coh ∧
    (State.reportReady s).lnk = s.lnk ∧
    (State.reportReady s).rte = s.rte ∧
    (State.reportReady s).cap = s.cap ∧
    (State.reportReady s).cry = s.cry ∧
    (State.reportReady s).flt = s.flt ∧
    (State.reportReady s).anl = s.anl ∧
    (State.reportReady s).thm = s.thm ∧
    (State.reportReady s).pmc = s.pmc ∧
    (State.reportReady s).out = s.out ∧
    (State.reportReady s).net = s.net ∧
    (State.reportReady s).freeCtr = s.freeCtr ∧
    (State.reportReady s).pending = s.pending ∧
    (State.reportReady s).pwr.straps = s.pwr.straps ∧
    (State.reportReady s).cur.lifecycle = s.cur.lifecycle ∧
    (State.reportReady s).cur.rootGen = s.cur.rootGen ∧
    (State.reportReady s).cur.returns = s.cur.returns ∧
    (State.reportReady s).cur.revoked = s.cur.revoked := by
  have k1 := State.startStandby_kept
  unfold State.reportReady
  simp [k1]

@[simp] theorem State.bootReady_kept (e : BootEnv) (s : State) :
    (State.bootReady e s).member = s.member ∧
    (State.bootReady e s).now = s.now ∧
    (State.bootReady e s).unstored = s.unstored ∧
    (State.bootReady e s).lnk = s.lnk ∧
    (State.bootReady e s).rte = s.rte ∧
    (State.bootReady e s).thm = s.thm ∧
    (State.bootReady e s).net = s.net ∧
    (State.bootReady e s).pending = s.pending ∧
    (State.bootReady e s).pwr.straps = s.pwr.straps ∧
    (State.bootReady e s).cur.lifecycle = s.cur.lifecycle ∧
    (State.bootReady e s).cur.rootGen = s.cur.rootGen ∧
    (State.bootReady e s).cur.returns = s.cur.returns ∧
    (State.bootReady e s).cur.revoked = s.cur.revoked := by
  have k1 := State.bootSpare_kept
  have k2 := State.bootTile_kept
  have k3 := State.newBoot_kept
  have k4 := State.reportReady_kept
  unfold State.bootReady
  simp [k1, k2, k3, k4]

@[simp] theorem State.writePmcCfg_kept (p t i w : Nat) (s : State) :
    (State.writePmcCfg p t i w s).member = s.member ∧
    (State.writePmcCfg p t i w s).now = s.now ∧
    (State.writePmcCfg p t i w s).host = s.host ∧
    (State.writePmcCfg p t i w s).epo = s.epo ∧
    (State.writePmcCfg p t i w s).cat = s.cat ∧
    (State.writePmcCfg p t i w s).med = s.med ∧
    (State.writePmcCfg p t i w s).coh = s.coh ∧
    (State.writePmcCfg p t i w s).lnk = s.lnk ∧
    (State.writePmcCfg p t i w s).rte = s.rte ∧
    (State.writePmcCfg p t i w s).cap = s.cap ∧
    (State.writePmcCfg p t i w s).cry = s.cry ∧
    (State.writePmcCfg p t i w s).flt = s.flt ∧
    (State.writePmcCfg p t i w s).cur = s.cur ∧
    (State.writePmcCfg p t i w s).thm = s.thm ∧
    (State.writePmcCfg p t i w s).pwr = s.pwr ∧
    (State.writePmcCfg p t i w s).pmc = s.pmc ∧
    (State.writePmcCfg p t i w s).out = s.out ∧
    (State.writePmcCfg p t i w s).net = s.net ∧
    (State.writePmcCfg p t i w s).freeCtr = s.freeCtr ∧
    (State.writePmcCfg p t i w s).pending = s.pending := by
  unfold State.writePmcCfg
  simp

@[simp] theorem State.writePmcCnt_kept (t i : Nat) (high : Bool) (w : Nat) (s : State) :
    (State.writePmcCnt t i high w s).member = s.member ∧
    (State.writePmcCnt t i high w s).now = s.now ∧
    (State.writePmcCnt t i high w s).regs = s.regs ∧
    (State.writePmcCnt t i high w s).unstored = s.unstored ∧
    (State.writePmcCnt t i high w s).host = s.host ∧
    (State.writePmcCnt t i high w s).epo = s.epo ∧
    (State.writePmcCnt t i high w s).cat = s.cat ∧
    (State.writePmcCnt t i high w s).med = s.med ∧
    (State.writePmcCnt t i high w s).coh = s.coh ∧
    (State.writePmcCnt t i high w s).lnk = s.lnk ∧
    (State.writePmcCnt t i high w s).rte = s.rte ∧
    (State.writePmcCnt t i high w s).cap = s.cap ∧
    (State.writePmcCnt t i high w s).cry = s.cry ∧
    (State.writePmcCnt t i high w s).flt = s.flt ∧
    (State.writePmcCnt t i high w s).anl = s.anl ∧
    (State.writePmcCnt t i high w s).cur = s.cur ∧
    (State.writePmcCnt t i high w s).thm = s.thm ∧
    (State.writePmcCnt t i high w s).pwr = s.pwr ∧
    (State.writePmcCnt t i high w s).out = s.out ∧
    (State.writePmcCnt t i high w s).net = s.net ∧
    (State.writePmcCnt t i high w s).freeCtr = s.freeCtr ∧
    (State.writePmcCnt t i high w s).pending = s.pending := by
  unfold State.writePmcCnt
  simp

theorem State.levels_kept (s : State) :
    (State.levels s).member = s.member ∧
    (State.levels s).now = s.now ∧
    (State.levels s).regs = s.regs ∧
    (State.levels s).unstored = s.unstored ∧
    (State.levels s).host = s.host ∧
    (State.levels s).epo = s.epo ∧
    (State.levels s).cat = s.cat ∧
    (State.levels s).med = s.med ∧
    (State.levels s).coh = s.coh ∧
    (State.levels s).lnk = s.lnk ∧
    (State.levels s).rte = s.rte ∧
    (State.levels s).cap = s.cap ∧
    (State.levels s).cry = s.cry ∧
    (State.levels s).flt = s.flt ∧
    (State.levels s).anl = s.anl ∧
    (State.levels s).cur = s.cur ∧
    (State.levels s).thm = s.thm ∧
    (State.levels s).pwr = s.pwr ∧
    (State.levels s).out = s.out ∧
    (State.levels s).net = s.net ∧
    (State.levels s).freeCtr = s.freeCtr ∧
    (State.levels s).pending = s.pending := by
  unfold State.levels
  simp

@[simp] theorem State.clearTopDown_kept (t : Nat) (s : State) :
    (State.clearTopDown t s).member = s.member ∧
    (State.clearTopDown t s).now = s.now ∧
    (State.clearTopDown t s).regs = s.regs ∧
    (State.clearTopDown t s).unstored = s.unstored ∧
    (State.clearTopDown t s).host = s.host ∧
    (State.clearTopDown t s).epo = s.epo ∧
    (State.clearTopDown t s).cat = s.cat ∧
    (State.clearTopDown t s).med = s.med ∧
    (State.clearTopDown t s).coh = s.coh ∧
    (State.clearTopDown t s).lnk = s.lnk ∧
    (State.clearTopDown t s).rte = s.rte ∧
    (State.clearTopDown t s).cap = s.cap ∧
    (State.clearTopDown t s).cry = s.cry ∧
    (State.clearTopDown t s).flt = s.flt ∧
    (State.clearTopDown t s).anl = s.anl ∧
    (State.clearTopDown t s).cur = s.cur ∧
    (State.clearTopDown t s).thm = s.thm ∧
    (State.clearTopDown t s).pwr = s.pwr ∧
    (State.clearTopDown t s).out = s.out ∧
    (State.clearTopDown t s).net = s.net ∧
    (State.clearTopDown t s).freeCtr = s.freeCtr ∧
    (State.clearTopDown t s).pending = s.pending := by
  unfold State.clearTopDown
  simp

@[simp] theorem State.clearCounters_kept (t : Nat) (s : State) :
    (State.clearCounters t s).member = s.member ∧
    (State.clearCounters t s).now = s.now ∧
    (State.clearCounters t s).regs = s.regs ∧
    (State.clearCounters t s).unstored = s.unstored ∧
    (State.clearCounters t s).host = s.host ∧
    (State.clearCounters t s).epo = s.epo ∧
    (State.clearCounters t s).cat = s.cat ∧
    (State.clearCounters t s).med = s.med ∧
    (State.clearCounters t s).coh = s.coh ∧
    (State.clearCounters t s).lnk = s.lnk ∧
    (State.clearCounters t s).rte = s.rte ∧
    (State.clearCounters t s).cap = s.cap ∧
    (State.clearCounters t s).cry = s.cry ∧
    (State.clearCounters t s).flt = s.flt ∧
    (State.clearCounters t s).anl = s.anl ∧
    (State.clearCounters t s).cur = s.cur ∧
    (State.clearCounters t s).thm = s.thm ∧
    (State.clearCounters t s).pwr = s.pwr ∧
    (State.clearCounters t s).out = s.out ∧
    (State.clearCounters t s).net = s.net ∧
    (State.clearCounters t s).freeCtr = s.freeCtr ∧
    (State.clearCounters t s).pending = s.pending := by
  unfold State.clearCounters
  simp

@[simp] theorem State.pmcRequest_kept (p w : Nat) (s : State) :
    (State.pmcRequest p w s).member = s.member ∧
    (State.pmcRequest p w s).now = s.now ∧
    (State.pmcRequest p w s).unstored = s.unstored ∧
    (State.pmcRequest p w s).host = s.host ∧
    (State.pmcRequest p w s).epo = s.epo ∧
    (State.pmcRequest p w s).cat = s.cat ∧
    (State.pmcRequest p w s).med = s.med ∧
    (State.pmcRequest p w s).coh = s.coh ∧
    (State.pmcRequest p w s).lnk = s.lnk ∧
    (State.pmcRequest p w s).rte = s.rte ∧
    (State.pmcRequest p w s).cap = s.cap ∧
    (State.pmcRequest p w s).cry = s.cry ∧
    (State.pmcRequest p w s).flt = s.flt ∧
    (State.pmcRequest p w s).cur = s.cur ∧
    (State.pmcRequest p w s).thm = s.thm ∧
    (State.pmcRequest p w s).pwr = s.pwr ∧
    (State.pmcRequest p w s).out = s.out ∧
    (State.pmcRequest p w s).net = s.net ∧
    (State.pmcRequest p w s).freeCtr = s.freeCtr ∧
    (State.pmcRequest p w s).pending = s.pending := by
  unfold State.pmcRequest
  simp

theorem State.pmcShown_kept (a : PmcAction) (s : State) :
    (State.pmcShown a s).member = s.member ∧
    (State.pmcShown a s).now = s.now ∧
    (State.pmcShown a s).regs = s.regs ∧
    (State.pmcShown a s).unstored = s.unstored ∧
    (State.pmcShown a s).host = s.host ∧
    (State.pmcShown a s).epo = s.epo ∧
    (State.pmcShown a s).cat = s.cat ∧
    (State.pmcShown a s).med = s.med ∧
    (State.pmcShown a s).coh = s.coh ∧
    (State.pmcShown a s).lnk = s.lnk ∧
    (State.pmcShown a s).rte = s.rte ∧
    (State.pmcShown a s).cap = s.cap ∧
    (State.pmcShown a s).cry = s.cry ∧
    (State.pmcShown a s).flt = s.flt ∧
    (State.pmcShown a s).anl = s.anl ∧
    (State.pmcShown a s).cur = s.cur ∧
    (State.pmcShown a s).thm = s.thm ∧
    (State.pmcShown a s).pwr = s.pwr ∧
    (State.pmcShown a s).out = s.out ∧
    (State.pmcShown a s).net = s.net ∧
    (State.pmcShown a s).freeCtr = s.freeCtr ∧
    (State.pmcShown a s).pending = s.pending := by
  unfold State.pmcShown
  simp

theorem State.pmcAct_kept (t : Nat) (a : PmcAction) (s : State) :
    (State.pmcAct t a s).member = s.member ∧
    (State.pmcAct t a s).now = s.now ∧
    (State.pmcAct t a s).regs = s.regs ∧
    (State.pmcAct t a s).unstored = s.unstored ∧
    (State.pmcAct t a s).host = s.host ∧
    (State.pmcAct t a s).epo = s.epo ∧
    (State.pmcAct t a s).cat = s.cat ∧
    (State.pmcAct t a s).med = s.med ∧
    (State.pmcAct t a s).coh = s.coh ∧
    (State.pmcAct t a s).lnk = s.lnk ∧
    (State.pmcAct t a s).rte = s.rte ∧
    (State.pmcAct t a s).cap = s.cap ∧
    (State.pmcAct t a s).cry = s.cry ∧
    (State.pmcAct t a s).flt = s.flt ∧
    (State.pmcAct t a s).anl = s.anl ∧
    (State.pmcAct t a s).cur = s.cur ∧
    (State.pmcAct t a s).thm = s.thm ∧
    (State.pmcAct t a s).pwr = s.pwr ∧
    (State.pmcAct t a s).out = s.out ∧
    (State.pmcAct t a s).net = s.net ∧
    (State.pmcAct t a s).freeCtr = s.freeCtr ∧
    (State.pmcAct t a s).pending = s.pending := by
  unfold State.pmcAct
  simp

@[simp] theorem State.pmcMeet_kept (t : Nat) (a : PmcAction) (s : State) :
    (State.pmcMeet t a s).member = s.member ∧
    (State.pmcMeet t a s).now = s.now ∧
    (State.pmcMeet t a s).regs = s.regs ∧
    (State.pmcMeet t a s).unstored = s.unstored ∧
    (State.pmcMeet t a s).host = s.host ∧
    (State.pmcMeet t a s).epo = s.epo ∧
    (State.pmcMeet t a s).cat = s.cat ∧
    (State.pmcMeet t a s).med = s.med ∧
    (State.pmcMeet t a s).coh = s.coh ∧
    (State.pmcMeet t a s).lnk = s.lnk ∧
    (State.pmcMeet t a s).rte = s.rte ∧
    (State.pmcMeet t a s).cap = s.cap ∧
    (State.pmcMeet t a s).cry = s.cry ∧
    (State.pmcMeet t a s).flt = s.flt ∧
    (State.pmcMeet t a s).anl = s.anl ∧
    (State.pmcMeet t a s).cur = s.cur ∧
    (State.pmcMeet t a s).thm = s.thm ∧
    (State.pmcMeet t a s).pwr = s.pwr ∧
    (State.pmcMeet t a s).out = s.out ∧
    (State.pmcMeet t a s).net = s.net ∧
    (State.pmcMeet t a s).freeCtr = s.freeCtr ∧
    (State.pmcMeet t a s).pending = s.pending := by
  have k1 := State.pmcAct_kept
  have k2 := State.pmcShown_kept
  unfold State.pmcMeet
  simp [k1, k2]

@[simp] theorem State.closeNow_kept (p : Nat) (s : State) :
    (State.closeNow p s).member = s.member ∧
    (State.closeNow p s).now = s.now ∧
    (State.closeNow p s).regs = s.regs ∧
    (State.closeNow p s).unstored = s.unstored ∧
    (State.closeNow p s).cat = s.cat ∧
    (State.closeNow p s).med = s.med ∧
    (State.closeNow p s).coh = s.coh ∧
    (State.closeNow p s).lnk = s.lnk ∧
    (State.closeNow p s).rte = s.rte ∧
    (State.closeNow p s).cap = s.cap ∧
    (State.closeNow p s).cry = s.cry ∧
    (State.closeNow p s).flt = s.flt ∧
    (State.closeNow p s).anl = s.anl ∧
    (State.closeNow p s).cur = s.cur ∧
    (State.closeNow p s).thm = s.thm ∧
    (State.closeNow p s).pwr = s.pwr ∧
    (State.closeNow p s).pmc = s.pmc ∧
    (State.closeNow p s).out = s.out ∧
    (State.closeNow p s).net = s.net ∧
    (State.closeNow p s).freeCtr = s.freeCtr ∧
    (State.closeNow p s).pending = s.pending := by
  unfold State.closeNow
  simp

theorem State.beginWalk_kept (t n : Nat) (s : State) :
    (State.beginWalk t n s).member = s.member ∧
    (State.beginWalk t n s).now = s.now ∧
    (State.beginWalk t n s).regs = s.regs ∧
    (State.beginWalk t n s).unstored = s.unstored ∧
    (State.beginWalk t n s).host = s.host ∧
    (State.beginWalk t n s).cat = s.cat ∧
    (State.beginWalk t n s).med = s.med ∧
    (State.beginWalk t n s).coh = s.coh ∧
    (State.beginWalk t n s).lnk = s.lnk ∧
    (State.beginWalk t n s).rte = s.rte ∧
    (State.beginWalk t n s).cap = s.cap ∧
    (State.beginWalk t n s).cry = s.cry ∧
    (State.beginWalk t n s).flt = s.flt ∧
    (State.beginWalk t n s).anl = s.anl ∧
    (State.beginWalk t n s).cur = s.cur ∧
    (State.beginWalk t n s).thm = s.thm ∧
    (State.beginWalk t n s).pwr = s.pwr ∧
    (State.beginWalk t n s).pmc = s.pmc ∧
    (State.beginWalk t n s).out = s.out ∧
    (State.beginWalk t n s).net = s.net ∧
    (State.beginWalk t n s).freeCtr = s.freeCtr ∧
    (State.beginWalk t n s).pending = s.pending := by
  have k1 := State.setWalk_kept
  unfold State.beginWalk
  simp [k1]

@[simp] theorem State.sealReaches_kept (t n : Nat) (g : Sealing) (s : State) :
    (State.sealReaches t n g s).member = s.member ∧
    (State.sealReaches t n g s).now = s.now ∧
    (State.sealReaches t n g s).unstored = s.unstored ∧
    (State.sealReaches t n g s).host = s.host ∧
    (State.sealReaches t n g s).lnk = s.lnk ∧
    (State.sealReaches t n g s).cur = s.cur ∧
    (State.sealReaches t n g s).thm = s.thm ∧
    (State.sealReaches t n g s).pwr = s.pwr ∧
    (State.sealReaches t n g s).pending = s.pending := by
  have k1 := State.beginWalk_kept
  have k2 := State.markTile_kept
  unfold State.sealReaches
  simp [k1, k2]

@[simp] theorem State.sealReported_kept (t : Nat) (g : Sealing) (s : State) :
    (State.sealReported t g s).member = s.member ∧
    (State.sealReported t g s).now = s.now ∧
    (State.sealReported t g s).unstored = s.unstored ∧
    (State.sealReported t g s).cat = s.cat ∧
    (State.sealReported t g s).med = s.med ∧
    (State.sealReported t g s).coh = s.coh ∧
    (State.sealReported t g s).lnk = s.lnk ∧
    (State.sealReported t g s).rte = s.rte ∧
    (State.sealReported t g s).cry = s.cry ∧
    (State.sealReported t g s).flt = s.flt ∧
    (State.sealReported t g s).anl = s.anl ∧
    (State.sealReported t g s).thm = s.thm ∧
    (State.sealReported t g s).pmc = s.pmc ∧
    (State.sealReported t g s).net = s.net ∧
    (State.sealReported t g s).freeCtr = s.freeCtr ∧
    (State.sealReported t g s).pending = s.pending ∧
    (State.sealReported t g s).pwr.straps = s.pwr.straps ∧
    (State.sealReported t g s).cur.lifecycle = s.cur.lifecycle ∧
    (State.sealReported t g s).cur.rootGen = s.cur.rootGen ∧
    (State.sealReported t g s).cur.returns = s.cur.returns ∧
    (State.sealReported t g s).cur.revoked = s.cur.revoked := by
  unfold State.sealReported
  simp

theorem State.walkLine_kept (t upto : Nat) (s : State) (line : Nat) :
    (State.walkLine t upto s line).member = s.member ∧
    (State.walkLine t upto s line).now = s.now ∧
    (State.walkLine t upto s line).regs = s.regs ∧
    (State.walkLine t upto s line).unstored = s.unstored ∧
    (State.walkLine t upto s line).host = s.host ∧
    (State.walkLine t upto s line).epo = s.epo ∧
    (State.walkLine t upto s line).cat = s.cat ∧
    (State.walkLine t upto s line).med = s.med ∧
    (State.walkLine t upto s line).lnk = s.lnk ∧
    (State.walkLine t upto s line).rte = s.rte ∧
    (State.walkLine t upto s line).cap = s.cap ∧
    (State.walkLine t upto s line).cry = s.cry ∧
    (State.walkLine t upto s line).flt = s.flt ∧
    (State.walkLine t upto s line).anl = s.anl ∧
    (State.walkLine t upto s line).cur = s.cur ∧
    (State.walkLine t upto s line).thm = s.thm ∧
    (State.walkLine t upto s line).pwr = s.pwr ∧
    (State.walkLine t upto s line).out = s.out ∧
    (State.walkLine t upto s line).freeCtr = s.freeCtr ∧
    (State.walkLine t upto s line).pending = s.pending := by
  have k1 := State.sendWb_kept
  unfold State.walkLine
  simp [k1]

@[simp] theorem State.walkStep_kept (t : Nat) (w : Walk) (s : State) :
    (State.walkStep t w s).member = s.member ∧
    (State.walkStep t w s).now = s.now ∧
    (State.walkStep t w s).regs = s.regs ∧
    (State.walkStep t w s).unstored = s.unstored ∧
    (State.walkStep t w s).host = s.host ∧
    (State.walkStep t w s).cat = s.cat ∧
    (State.walkStep t w s).med = s.med ∧
    (State.walkStep t w s).lnk = s.lnk ∧
    (State.walkStep t w s).rte = s.rte ∧
    (State.walkStep t w s).cap = s.cap ∧
    (State.walkStep t w s).cry = s.cry ∧
    (State.walkStep t w s).flt = s.flt ∧
    (State.walkStep t w s).anl = s.anl ∧
    (State.walkStep t w s).cur = s.cur ∧
    (State.walkStep t w s).thm = s.thm ∧
    (State.walkStep t w s).pwr = s.pwr ∧
    (State.walkStep t w s).out = s.out ∧
    (State.walkStep t w s).freeCtr = s.freeCtr ∧
    (State.walkStep t w s).pending = s.pending := by
  have k1 := State.setWalk_kept
  have k2 := State.walkLine_kept
  unfold State.walkStep
  simp [k1, k2]

@[simp] theorem State.writeMarker_kept (t : Nat) (s : State) :
    (State.writeMarker t s).member = s.member ∧
    (State.writeMarker t s).now = s.now ∧
    (State.writeMarker t s).unstored = s.unstored ∧
    (State.writeMarker t s).med = s.med ∧
    (State.writeMarker t s).coh = s.coh ∧
    (State.writeMarker t s).lnk = s.lnk ∧
    (State.writeMarker t s).cry = s.cry ∧
    (State.writeMarker t s).flt = s.flt ∧
    (State.writeMarker t s).anl = s.anl ∧
    (State.writeMarker t s).thm = s.thm ∧
    (State.writeMarker t s).pwr = s.pwr ∧
    (State.writeMarker t s).net = s.net ∧
    (State.writeMarker t s).freeCtr = s.freeCtr ∧
    (State.writeMarker t s).pending = s.pending ∧
    (State.writeMarker t s).cur.lifecycle = s.cur.lifecycle ∧
    (State.writeMarker t s).cur.rootGen = s.cur.rootGen ∧
    (State.writeMarker t s).cur.returns = s.cur.returns ∧
    (State.writeMarker t s).cur.revoked = s.cur.revoked := by
  have k1 := State.advanceD_kept
  unfold State.writeMarker
  dsimp only
  repeat' split
  all_goals simp [k1]

theorem State.cohRollback_kept (d : Nat) (s : State) :
    (State.cohRollback d s).member = s.member ∧
    (State.cohRollback d s).now = s.now ∧
    (State.cohRollback d s).regs = s.regs ∧
    (State.cohRollback d s).unstored = s.unstored ∧
    (State.cohRollback d s).host = s.host ∧
    (State.cohRollback d s).epo = s.epo ∧
    (State.cohRollback d s).cat = s.cat ∧
    (State.cohRollback d s).med = s.med ∧
    (State.cohRollback d s).lnk = s.lnk ∧
    (State.cohRollback d s).rte = s.rte ∧
    (State.cohRollback d s).cap = s.cap ∧
    (State.cohRollback d s).cry = s.cry ∧
    (State.cohRollback d s).flt = s.flt ∧
    (State.cohRollback d s).anl = s.anl ∧
    (State.cohRollback d s).cur = s.cur ∧
    (State.cohRollback d s).thm = s.thm ∧
    (State.cohRollback d s).pwr = s.pwr ∧
    (State.cohRollback d s).pmc = s.pmc ∧
    (State.cohRollback d s).out = s.out ∧
    (State.cohRollback d s).freeCtr = s.freeCtr ∧
    (State.cohRollback d s).pending = s.pending := by
  unfold State.cohRollback
  simp

theorem State.releaseMisses_kept (s : State) :
    (State.releaseMisses s).member = s.member ∧
    (State.releaseMisses s).now = s.now ∧
    (State.releaseMisses s).regs = s.regs ∧
    (State.releaseMisses s).unstored = s.unstored ∧
    (State.releaseMisses s).host = s.host ∧
    (State.releaseMisses s).epo = s.epo ∧
    (State.releaseMisses s).cat = s.cat ∧
    (State.releaseMisses s).med = s.med ∧
    (State.releaseMisses s).lnk = s.lnk ∧
    (State.releaseMisses s).rte = s.rte ∧
    (State.releaseMisses s).cap = s.cap ∧
    (State.releaseMisses s).cry = s.cry ∧
    (State.releaseMisses s).flt = s.flt ∧
    (State.releaseMisses s).anl = s.anl ∧
    (State.releaseMisses s).cur = s.cur ∧
    (State.releaseMisses s).thm = s.thm ∧
    (State.releaseMisses s).pwr = s.pwr ∧
    (State.releaseMisses s).pmc = s.pmc ∧
    (State.releaseMisses s).out = s.out ∧
    (State.releaseMisses s).freeCtr = s.freeCtr ∧
    (State.releaseMisses s).pending = s.pending := by
  unfold State.releaseMisses
  simp

theorem State.resealPower_kept (d : Nat) (s : State) :
    (State.resealPower d s).member = s.member ∧
    (State.resealPower d s).now = s.now ∧
    (State.resealPower d s).regs = s.regs ∧
    (State.resealPower d s).unstored = s.unstored ∧
    (State.resealPower d s).host = s.host ∧
    (State.resealPower d s).cat = s.cat ∧
    (State.resealPower d s).med = s.med ∧
    (State.resealPower d s).coh = s.coh ∧
    (State.resealPower d s).lnk = s.lnk ∧
    (State.resealPower d s).rte = s.rte ∧
    (State.resealPower d s).cap = s.cap ∧
    (State.resealPower d s).cry = s.cry ∧
    (State.resealPower d s).flt = s.flt ∧
    (State.resealPower d s).anl = s.anl ∧
    (State.resealPower d s).cur = s.cur ∧
    (State.resealPower d s).thm = s.thm ∧
    (State.resealPower d s).pmc = s.pmc ∧
    (State.resealPower d s).out = s.out ∧
    (State.resealPower d s).net = s.net ∧
    (State.resealPower d s).freeCtr = s.freeCtr ∧
    (State.resealPower d s).pending = s.pending ∧
    (State.resealPower d s).pwr.straps = s.pwr.straps := by
  unfold State.resealPower
  dsimp only
  repeat' split
  all_goals simp

@[simp] theorem State.endRollback_kept (s : State) :
    (State.endRollback s).member = s.member ∧
    (State.endRollback s).now = s.now ∧
    (State.endRollback s).unstored = s.unstored ∧
    (State.endRollback s).thm = s.thm ∧
    (State.endRollback s).pending = s.pending ∧
    (State.endRollback s).pwr.straps = s.pwr.straps ∧
    (State.endRollback s).cur.lifecycle = s.cur.lifecycle ∧
    (State.endRollback s).cur.rootGen = s.cur.rootGen ∧
    (State.endRollback s).cur.returns = s.cur.returns ∧
    (State.endRollback s).cur.revoked = s.cur.revoked := by
  have k1 := State.actHeld_kept
  have k2 := State.captureRollback_kept
  have k3 := State.cohRollback_kept
  have k4 := State.releaseHeld_kept
  have k5 := State.releaseMisses_kept
  have k6 := State.resealPower_kept
  have k7 := State.restoreData_kept
  have k8 := State.routesRollback_kept
  have k9 := State.undoLow_kept
  unfold State.endRollback
  simp [k1, k2, k3, k4, k5, k6, k7, k8, k9]

theorem State.arm_kept (t id : Nat) (mask : DWord) (count : Nat) (s : State) :
    (State.arm t id mask count s).member = s.member ∧
    (State.arm t id mask count s).now = s.now ∧
    (State.arm t id mask count s).unstored = s.unstored ∧
    (State.arm t id mask count s).host = s.host ∧
    (State.arm t id mask count s).epo = s.epo ∧
    (State.arm t id mask count s).cat = s.cat ∧
    (State.arm t id mask count s).med = s.med ∧
    (State.arm t id mask count s).coh = s.coh ∧
    (State.arm t id mask count s).lnk = s.lnk ∧
    (State.arm t id mask count s).rte = s.rte ∧
    (State.arm t id mask count s).cap = s.cap ∧
    (State.arm t id mask count s).cry = s.cry ∧
    (State.arm t id mask count s).cur = s.cur ∧
    (State.arm t id mask count s).thm = s.thm ∧
    (State.arm t id mask count s).pwr = s.pwr ∧
    (State.arm t id mask count s).pmc = s.pmc ∧
    (State.arm t id mask count s).out = s.out ∧
    (State.arm t id mask count s).net = s.net ∧
    (State.arm t id mask count s).freeCtr = s.freeCtr ∧
    (State.arm t id mask count s).pending = s.pending := by
  unfold State.arm
  simp

@[simp] theorem State.inject_kept (t id : Nat) (mask : DWord) (count : Nat) (s : State) :
    (State.inject t id mask count s).after.member = s.member ∧
    (State.inject t id mask count s).after.now = s.now ∧
    (State.inject t id mask count s).after.unstored = s.unstored ∧
    (State.inject t id mask count s).after.host = s.host ∧
    (State.inject t id mask count s).after.epo = s.epo ∧
    (State.inject t id mask count s).after.cat = s.cat ∧
    (State.inject t id mask count s).after.med = s.med ∧
    (State.inject t id mask count s).after.coh = s.coh ∧
    (State.inject t id mask count s).after.lnk = s.lnk ∧
    (State.inject t id mask count s).after.rte = s.rte ∧
    (State.inject t id mask count s).after.cap = s.cap ∧
    (State.inject t id mask count s).after.cry = s.cry ∧
    (State.inject t id mask count s).after.cur = s.cur ∧
    (State.inject t id mask count s).after.thm = s.thm ∧
    (State.inject t id mask count s).after.pwr = s.pwr ∧
    (State.inject t id mask count s).after.pmc = s.pmc ∧
    (State.inject t id mask count s).after.out = s.out ∧
    (State.inject t id mask count s).after.net = s.net ∧
    (State.inject t id mask count s).after.freeCtr = s.freeCtr ∧
    (State.inject t id mask count s).after.pending = s.pending := by
  have k1 := State.arm_kept
  unfold State.inject
  repeat' split
  all_goals simp [k1, *]

@[simp] theorem State.windowEnd_kept (t id : Nat) (s : State) :
    (State.windowEnd t id s).member = s.member ∧
    (State.windowEnd t id s).now = s.now ∧
    (State.windowEnd t id s).regs = s.regs ∧
    (State.windowEnd t id s).unstored = s.unstored ∧
    (State.windowEnd t id s).host = s.host ∧
    (State.windowEnd t id s).epo = s.epo ∧
    (State.windowEnd t id s).cat = s.cat ∧
    (State.windowEnd t id s).med = s.med ∧
    (State.windowEnd t id s).coh = s.coh ∧
    (State.windowEnd t id s).lnk = s.lnk ∧
    (State.windowEnd t id s).rte = s.rte ∧
    (State.windowEnd t id s).cap = s.cap ∧
    (State.windowEnd t id s).cry = s.cry ∧
    (State.windowEnd t id s).anl = s.anl ∧
    (State.windowEnd t id s).cur = s.cur ∧
    (State.windowEnd t id s).thm = s.thm ∧
    (State.windowEnd t id s).pwr = s.pwr ∧
    (State.windowEnd t id s).pmc = s.pmc ∧
    (State.windowEnd t id s).out = s.out ∧
    (State.windowEnd t id s).net = s.net ∧
    (State.windowEnd t id s).freeCtr = s.freeCtr ∧
    (State.windowEnd t id s).pending = s.pending := by
  have k1 := State.setSrc_kept
  unfold State.windowEnd
  simp [k1]

@[simp] theorem State.writeSrc_kept (p t id w : Nat) (s : State) :
    (State.writeSrc p t id w s).member = s.member ∧
    (State.writeSrc p t id w s).now = s.now ∧
    (State.writeSrc p t id w s).host = s.host ∧
    (State.writeSrc p t id w s).epo = s.epo ∧
    (State.writeSrc p t id w s).cat = s.cat ∧
    (State.writeSrc p t id w s).med = s.med ∧
    (State.writeSrc p t id w s).coh = s.coh ∧
    (State.writeSrc p t id w s).lnk = s.lnk ∧
    (State.writeSrc p t id w s).rte = s.rte ∧
    (State.writeSrc p t id w s).cap = s.cap ∧
    (State.writeSrc p t id w s).cry = s.cry ∧
    (State.writeSrc p t id w s).cur = s.cur ∧
    (State.writeSrc p t id w s).thm = s.thm ∧
    (State.writeSrc p t id w s).pwr = s.pwr ∧
    (State.writeSrc p t id w s).pmc = s.pmc ∧
    (State.writeSrc p t id w s).out = s.out ∧
    (State.writeSrc p t id w s).net = s.net ∧
    (State.writeSrc p t id w s).freeCtr = s.freeCtr ∧
    (State.writeSrc p t id w s).pending = s.pending := by
  have k1 := State.setSrc_kept
  have k2 := State.storeSrc_kept
  unfold State.writeSrc
  simp [k1, k2]

theorem State.actOnSlot_kept (actor t n w : Nat) (s : State) :
    (State.actOnSlot actor t n w s).member = s.member ∧
    (State.actOnSlot actor t n w s).now = s.now ∧
    (State.actOnSlot actor t n w s).unstored = s.unstored ∧
    (State.actOnSlot actor t n w s).cat = s.cat ∧
    (State.actOnSlot actor t n w s).med = s.med ∧
    (State.actOnSlot actor t n w s).coh = s.coh ∧
    (State.actOnSlot actor t n w s).lnk = s.lnk ∧
    (State.actOnSlot actor t n w s).rte = s.rte ∧
    (State.actOnSlot actor t n w s).cry = s.cry ∧
    (State.actOnSlot actor t n w s).thm = s.thm ∧
    (State.actOnSlot actor t n w s).net = s.net ∧
    (State.actOnSlot actor t n w s).pending = s.pending ∧
    (State.actOnSlot actor t n w s).pwr.straps = s.pwr.straps ∧
    (State.actOnSlot actor t n w s).cur.lifecycle = s.cur.lifecycle ∧
    (State.actOnSlot actor t n w s).cur.rootGen = s.cur.rootGen ∧
    (State.actOnSlot actor t n w s).cur.returns = s.cur.returns ∧
    (State.actOnSlot actor t n w s).cur.revoked = s.cur.revoked := by
  have k1 := State.proceed_kept
  have k2 := State.setSlot_kept
  unfold State.actOnSlot
  dsimp only
  repeat' split
  all_goals simp [k1, k2]

@[simp] theorem State.slotWrite_kept (actor t n w : Nat) (s : State) :
    (State.slotWrite actor t n w s).member = s.member ∧
    (State.slotWrite actor t n w s).now = s.now ∧
    (State.slotWrite actor t n w s).cat = s.cat ∧
    (State.slotWrite actor t n w s).med = s.med ∧
    (State.slotWrite actor t n w s).coh = s.coh ∧
    (State.slotWrite actor t n w s).lnk = s.lnk ∧
    (State.slotWrite actor t n w s).rte = s.rte ∧
    (State.slotWrite actor t n w s).cry = s.cry ∧
    (State.slotWrite actor t n w s).thm = s.thm ∧
    (State.slotWrite actor t n w s).net = s.net ∧
    (State.slotWrite actor t n w s).pending = s.pending ∧
    (State.slotWrite actor t n w s).pwr.straps = s.pwr.straps ∧
    (State.slotWrite actor t n w s).cur.lifecycle = s.cur.lifecycle ∧
    (State.slotWrite actor t n w s).cur.rootGen = s.cur.rootGen ∧
    (State.slotWrite actor t n w s).cur.returns = s.cur.returns ∧
    (State.slotWrite actor t n w s).cur.revoked = s.cur.revoked := by
  have k1 := State.actOnSlot_kept
  unfold State.slotWrite
  repeat' split
  all_goals simp [k1, *]

@[simp] theorem State.expire_kept (t n : Nat) (s : State) :
    (State.expire t n s).member = s.member ∧
    (State.expire t n s).now = s.now ∧
    (State.expire t n s).unstored = s.unstored ∧
    (State.expire t n s).cat = s.cat ∧
    (State.expire t n s).med = s.med ∧
    (State.expire t n s).coh = s.coh ∧
    (State.expire t n s).lnk = s.lnk ∧
    (State.expire t n s).rte = s.rte ∧
    (State.expire t n s).cry = s.cry ∧
    (State.expire t n s).thm = s.thm ∧
    (State.expire t n s).net = s.net ∧
    (State.expire t n s).pending = s.pending ∧
    (State.expire t n s).pwr.straps = s.pwr.straps ∧
    (State.expire t n s).cur.lifecycle = s.cur.lifecycle ∧
    (State.expire t n s).cur.rootGen = s.cur.rootGen ∧
    (State.expire t n s).cur.returns = s.cur.returns ∧
    (State.expire t n s).cur.revoked = s.cur.revoked := by
  have k1 := State.escalate_kept
  have k2 := State.setSlot_kept
  unfold State.expire
  dsimp only
  repeat' split
  all_goals simp [k1, k2]

theorem State.unhalt_kept (t : Nat) (s : State) :
    (State.unhalt t s).member = s.member ∧
    (State.unhalt t s).now = s.now ∧
    (State.unhalt t s).regs = s.regs ∧
    (State.unhalt t s).unstored = s.unstored ∧
    (State.unhalt t s).host = s.host ∧
    (State.unhalt t s).epo = s.epo ∧
    (State.unhalt t s).cat = s.cat ∧
    (State.unhalt t s).med = s.med ∧
    (State.unhalt t s).coh = s.coh ∧
    (State.unhalt t s).lnk = s.lnk ∧
    (State.unhalt t s).rte = s.rte ∧
    (State.unhalt t s).cap = s.cap ∧
    (State.unhalt t s).cry = s.cry ∧
    (State.unhalt t s).anl = s.anl ∧
    (State.unhalt t s).cur = s.cur ∧
    (State.unhalt t s).thm = s.thm ∧
    (State.unhalt t s).pwr = s.pwr ∧
    (State.unhalt t s).pmc = s.pmc ∧
    (State.unhalt t s).out = s.out ∧
    (State.unhalt t s).net = s.net ∧
    (State.unhalt t s).freeCtr = s.freeCtr ∧
    (State.unhalt t s).pending = s.pending := by
  unfold State.unhalt
  simp

@[simp] theorem State.tileIsReady_kept (t : Nat) (s : State) :
    (State.tileIsReady t s).member = s.member ∧
    (State.tileIsReady t s).now = s.now ∧
    (State.tileIsReady t s).unstored = s.unstored ∧
    (State.tileIsReady t s).epo = s.epo ∧
    (State.tileIsReady t s).cat = s.cat ∧
    (State.tileIsReady t s).rte = s.rte ∧
    (State.tileIsReady t s).cap = s.cap ∧
    (State.tileIsReady t s).cry = s.cry ∧
    (State.tileIsReady t s).cur = s.cur ∧
    (State.tileIsReady t s).thm = s.thm ∧
    (State.tileIsReady t s).pwr = s.pwr ∧
    (State.tileIsReady t s).pmc = s.pmc ∧
    (State.tileIsReady t s).freeCtr = s.freeCtr ∧
    (State.tileIsReady t s).pending = s.pending := by
  have k1 := State.measure_kept
  have k2 := State.releaseMisses_kept
  have k3 := State.saddlesUp_kept
  have k4 := State.showSpare_kept
  have k5 := State.showThrottle_kept
  have k6 := State.unhalt_kept
  unfold State.tileIsReady
  simp only [State.releaseMisses_kept, State.trainPorts_kept, State.saddlesUp_kept, State.showThrottle_kept, State.spareCheck_kept, State.showSpare_kept,
    State.measure_kept, State.unhalt_kept, and_self]

@[simp] theorem State.readyTimeout_kept (t : Nat) (s : State) :
    (State.readyTimeout t s).member = s.member ∧
    (State.readyTimeout t s).now = s.now ∧
    (State.readyTimeout t s).unstored = s.unstored ∧
    (State.readyTimeout t s).cat = s.cat ∧
    (State.readyTimeout t s).med = s.med ∧
    (State.readyTimeout t s).lnk = s.lnk ∧
    (State.readyTimeout t s).rte = s.rte ∧
    (State.readyTimeout t s).cry = s.cry ∧
    (State.readyTimeout t s).anl = s.anl ∧
    (State.readyTimeout t s).thm = s.thm ∧
    (State.readyTimeout t s).pmc = s.pmc ∧
    (State.readyTimeout t s).net = s.net ∧
    (State.readyTimeout t s).freeCtr = s.freeCtr ∧
    (State.readyTimeout t s).pending = s.pending ∧
    (State.readyTimeout t s).pwr.straps = s.pwr.straps ∧
    (State.readyTimeout t s).cur.lifecycle = s.cur.lifecycle ∧
    (State.readyTimeout t s).cur.rootGen = s.cur.rootGen ∧
    (State.readyTimeout t s).cur.returns = s.cur.returns ∧
    (State.readyTimeout t s).cur.revoked = s.cur.revoked := by
  have k1 := State.failTile_kept
  unfold State.readyTimeout
  dsimp only
  repeat' split
  all_goals simp [k1]

theorem State.writePlain_kept (p off : Nat) (r : Reg) (u i w : Nat) (s : State) :
    (State.writePlain p off r u i w s).member = s.member ∧
    (State.writePlain p off r u i w s).now = s.now ∧
    (State.writePlain p off r u i w s).epo = s.epo ∧
    (State.writePlain p off r u i w s).cat = s.cat ∧
    (State.writePlain p off r u i w s).med = s.med ∧
    (State.writePlain p off r u i w s).coh = s.coh ∧
    (State.writePlain p off r u i w s).lnk = s.lnk ∧
    (State.writePlain p off r u i w s).rte = s.rte ∧
    (State.writePlain p off r u i w s).cap = s.cap ∧
    (State.writePlain p off r u i w s).cry = s.cry ∧
    (State.writePlain p off r u i w s).flt = s.flt ∧
    (State.writePlain p off r u i w s).cur = s.cur ∧
    (State.writePlain p off r u i w s).thm = s.thm ∧
    (State.writePlain p off r u i w s).pwr = s.pwr ∧
    (State.writePlain p off r u i w s).pmc = s.pmc ∧
    (State.writePlain p off r u i w s).net = s.net ∧
    (State.writePlain p off r u i w s).freeCtr = s.freeCtr ∧
    (State.writePlain p off r u i w s).pending = s.pending := by
  have k1 := State.coalesce_kept
  have k2 := State.showRate_kept
  unfold State.writePlain
  dsimp only
  repeat' split
  all_goals simp [k1, k2]

theorem State.mbWrite_kept (p off w : Nat) (s : State) :
    (State.mbWrite p off w s).member = s.member ∧
    (State.mbWrite p off w s).now = s.now ∧
    (State.mbWrite p off w s).unstored = s.unstored ∧
    (State.mbWrite p off w s).host = s.host ∧
    (State.mbWrite p off w s).epo = s.epo ∧
    (State.mbWrite p off w s).cat = s.cat ∧
    (State.mbWrite p off w s).med = s.med ∧
    (State.mbWrite p off w s).coh = s.coh ∧
    (State.mbWrite p off w s).lnk = s.lnk ∧
    (State.mbWrite p off w s).rte = s.rte ∧
    (State.mbWrite p off w s).cap = s.cap ∧
    (State.mbWrite p off w s).cry = s.cry ∧
    (State.mbWrite p off w s).flt = s.flt ∧
    (State.mbWrite p off w s).thm = s.thm ∧
    (State.mbWrite p off w s).pwr = s.pwr ∧
    (State.mbWrite p off w s).out = s.out ∧
    (State.mbWrite p off w s).net = s.net ∧
    (State.mbWrite p off w s).freeCtr = s.freeCtr ∧
    (State.mbWrite p off w s).pending = s.pending ∧
    (State.mbWrite p off w s).cur.lifecycle = s.cur.lifecycle ∧
    (State.mbWrite p off w s).cur.rootGen = s.cur.rootGen ∧
    (State.mbWrite p off w s).cur.returns = s.cur.returns ∧
    (State.mbWrite p off w s).cur.revoked = s.cur.revoked := by
  have k1 := State.mbStart_kept
  unfold State.mbWrite
  dsimp only
  repeat' split
  all_goals simp [k1]

theorem State.writeMsix_kept (p v k w : Nat) (s : State) :
    (State.writeMsix p v k w s).member = s.member ∧
    (State.writeMsix p v k w s).now = s.now ∧
    (State.writeMsix p v k w s).regs = s.regs ∧
    (State.writeMsix p v k w s).unstored = s.unstored ∧
    (State.writeMsix p v k w s).epo = s.epo ∧
    (State.writeMsix p v k w s).cat = s.cat ∧
    (State.writeMsix p v k w s).med = s.med ∧
    (State.writeMsix p v k w s).coh = s.coh ∧
    (State.writeMsix p v k w s).lnk = s.lnk ∧
    (State.writeMsix p v k w s).rte = s.rte ∧
    (State.writeMsix p v k w s).cap = s.cap ∧
    (State.writeMsix p v k w s).cry = s.cry ∧
    (State.writeMsix p v k w s).flt = s.flt ∧
    (State.writeMsix p v k w s).anl = s.anl ∧
    (State.writeMsix p v k w s).cur = s.cur ∧
    (State.writeMsix p v k w s).thm = s.thm ∧
    (State.writeMsix p v k w s).pwr = s.pwr ∧
    (State.writeMsix p v k w s).pmc = s.pmc ∧
    (State.writeMsix p v k w s).out = s.out ∧
    (State.writeMsix p v k w s).net = s.net ∧
    (State.writeMsix p v k w s).freeCtr = s.freeCtr ∧
    (State.writeMsix p v k w s).pending = s.pending := by
  unfold State.writeMsix
  simp

theorem State.writeGctrl_kept (p w : Nat) (s : State) :
    (State.writeGctrl p w s).member = s.member ∧
    (State.writeGctrl p w s).now = s.now ∧
    (State.writeGctrl p w s).epo = s.epo ∧
    (State.writeGctrl p w s).cat = s.cat ∧
    (State.writeGctrl p w s).med = s.med ∧
    (State.writeGctrl p w s).coh = s.coh ∧
    (State.writeGctrl p w s).lnk = s.lnk ∧
    (State.writeGctrl p w s).rte = s.rte ∧
    (State.writeGctrl p w s).cap = s.cap ∧
    (State.writeGctrl p w s).cry = s.cry ∧
    (State.writeGctrl p w s).flt = s.flt ∧
    (State.writeGctrl p w s).thm = s.thm ∧
    (State.writeGctrl p w s).net = s.net ∧
    (State.writeGctrl p w s).freeCtr = s.freeCtr ∧
    (State.writeGctrl p w s).pending = s.pending ∧
    (State.writeGctrl p w s).pwr.straps = s.pwr.straps ∧
    (State.writeGctrl p w s).cur.lifecycle = s.cur.lifecycle ∧
    (State.writeGctrl p w s).cur.rootGen = s.cur.rootGen ∧
    (State.writeGctrl p w s).cur.returns = s.cur.returns ∧
    (State.writeGctrl p w s).cur.revoked = s.cur.revoked := by
  unfold State.writeGctrl
  dsimp only
  repeat' split
  all_goals simp

theorem State.writeClaim_kept (p w : Nat) (s : State) :
    (State.writeClaim p w s).member = s.member ∧
    (State.writeClaim p w s).now = s.now ∧
    (State.writeClaim p w s).regs = s.regs ∧
    (State.writeClaim p w s).unstored = s.unstored ∧
    (State.writeClaim p w s).host = s.host ∧
    (State.writeClaim p w s).epo = s.epo ∧
    (State.writeClaim p w s).cat = s.cat ∧
    (State.writeClaim p w s).med = s.med ∧
    (State.writeClaim p w s).coh = s.coh ∧
    (State.writeClaim p w s).lnk = s.lnk ∧
    (State.writeClaim p w s).rte = s.rte ∧
    (State.writeClaim p w s).cap = s.cap ∧
    (State.writeClaim p w s).cry = s.cry ∧
    (State.writeClaim p w s).flt = s.flt ∧
    (State.writeClaim p w s).anl = s.anl ∧
    (State.writeClaim p w s).thm = s.thm ∧
    (State.writeClaim p w s).pwr = s.pwr ∧
    (State.writeClaim p w s).pmc = s.pmc ∧
    (State.writeClaim p w s).out = s.out ∧
    (State.writeClaim p w s).net = s.net ∧
    (State.writeClaim p w s).freeCtr = s.freeCtr ∧
    (State.writeClaim p w s).pending = s.pending ∧
    (State.writeClaim p w s).cur.lifecycle = s.cur.lifecycle ∧
    (State.writeClaim p w s).cur.rootGen = s.cur.rootGen ∧
    (State.writeClaim p w s).cur.returns = s.cur.returns ∧
    (State.writeClaim p w s).cur.revoked = s.cur.revoked := by
  unfold State.writeClaim
  dsimp only
  repeat' split
  all_goals simp

theorem State.writePart_kept (p off w : Nat) (s : State) (t1 : State) (h : State.writePart p off w s = some t1) :
    t1.member = s.member ∧
    t1.now = s.now ∧
    t1.freeCtr = s.freeCtr ∧
    t1.pending = s.pending ∧
    t1.pwr.straps = s.pwr.straps ∧
    t1.cur.lifecycle = s.cur.lifecycle ∧
    t1.cur.rootGen = s.cur.rootGen ∧
    t1.cur.returns = s.cur.returns ∧
    t1.cur.revoked = s.cur.revoked := by
  have k1 := State.mbWrite_kept
  have k2 := State.writeClaim_kept
  have k3 := State.writeGctrl_kept
  have k4 := State.writeMsix_kept
  unfold State.writePart at h
  (try dsimp only at h)
  repeat' split at h
  all_goals first | (cases h; done) | (injection h with h; subst h; simp [k1, k2, k3, k4]; done) | (injection h with h; subst h; repeat' split; all_goals simp [k1, k2, k3, k4])

theorem State.writeTile_kept (p t o w : Nat) (s : State) (t1 : State) (h : State.writeTile p t o w s = some t1) :
    t1.member = s.member ∧
    t1.now = s.now ∧
    t1.med = s.med ∧
    t1.thm = s.thm ∧
    t1.pending = s.pending ∧
    t1.pwr.straps = s.pwr.straps ∧
    t1.cur.lifecycle = s.cur.lifecycle ∧
    t1.cur.rootGen = s.cur.rootGen ∧
    t1.cur.returns = s.cur.returns ∧
    t1.cur.revoked = s.cur.revoked := by
  have k1 := State.actOnSlot_kept
  unfold State.writeTile at h
  (try dsimp only at h)
  repeat' split at h
  all_goals first | (cases h; done) | (injection h with h; subst h; simp [k1]; done) | (injection h with h; subst h; repeat' split; all_goals simp [k1])

theorem State.writeWord_kept (p off w : Nat) (s : State) :
    (State.writeWord p off w s).member = s.member ∧
    (State.writeWord p off w s).now = s.now ∧
    (State.writeWord p off w s).pending = s.pending ∧
    (State.writeWord p off w s).pwr.straps = s.pwr.straps ∧
    (State.writeWord p off w s).cur.lifecycle = s.cur.lifecycle ∧
    (State.writeWord p off w s).cur.rootGen = s.cur.rootGen ∧
    (State.writeWord p off w s).cur.returns = s.cur.returns ∧
    (State.writeWord p off w s).cur.revoked = s.cur.revoked := by
  have k1 := State.writePlain_kept
  unfold State.writeWord
  dsimp only
  split
  · simp [k1]
  · split
    · rename_i h
      split at h
      · have := State.writeTile_kept _ _ _ _ _ _ h; simp_all [k1]
      · have := State.writePart_kept _ _ _ _ _ h; simp_all [k1]
    · split <;> simp [k1]

theorem State.refuseAccess_kept (p off size : Nat) (s : State) :
    (State.refuseAccess p off size s).member = s.member ∧
    (State.refuseAccess p off size s).now = s.now ∧
    (State.refuseAccess p off size s).unstored = s.unstored ∧
    (State.refuseAccess p off size s).host = s.host ∧
    (State.refuseAccess p off size s).epo = s.epo ∧
    (State.refuseAccess p off size s).cat = s.cat ∧
    (State.refuseAccess p off size s).med = s.med ∧
    (State.refuseAccess p off size s).coh = s.coh ∧
    (State.refuseAccess p off size s).lnk = s.lnk ∧
    (State.refuseAccess p off size s).rte = s.rte ∧
    (State.refuseAccess p off size s).cap = s.cap ∧
    (State.refuseAccess p off size s).cry = s.cry ∧
    (State.refuseAccess p off size s).flt = s.flt ∧
    (State.refuseAccess p off size s).cur = s.cur ∧
    (State.refuseAccess p off size s).thm = s.thm ∧
    (State.refuseAccess p off size s).pwr = s.pwr ∧
    (State.refuseAccess p off size s).pmc = s.pmc ∧
    (State.refuseAccess p off size s).net = s.net ∧
    (State.refuseAccess p off size s).freeCtr = s.freeCtr ∧
    (State.refuseAccess p off size s).pending = s.pending := by
  unfold State.refuseAccess
  simp

@[simp] theorem State.bar0Write_kept (p off size : Nat) (v : DWord) (s : State) :
    (State.bar0Write p off size v s).member = s.member ∧
    (State.bar0Write p off size v s).now = s.now ∧
    (State.bar0Write p off size v s).pending = s.pending ∧
    (State.bar0Write p off size v s).pwr.straps = s.pwr.straps ∧
    (State.bar0Write p off size v s).cur.lifecycle = s.cur.lifecycle ∧
    (State.bar0Write p off size v s).cur.rootGen = s.cur.rootGen ∧
    (State.bar0Write p off size v s).cur.returns = s.cur.returns ∧
    (State.bar0Write p off size v s).cur.revoked = s.cur.revoked := by
  have k1 := State.refuseAccess_kept
  have k2 := State.writeWord_kept
  unfold State.bar0Write
  repeat' split
  all_goals simp [k1, k2, *]

end Sys2Proof.Machine
end

