-- ==== Sys2Proof/Laws/Tbl.lean ====
section
/-! SUPPORT. What a read of a table gives after a write, and that every table operation keeps the canonical form. -/

namespace Sys2Proof.Machine

variable {V : Type}

theorem lookup_tput_self (m : Tbl V) (k : Nat) (v : V) : (tput m k v).lookup k = some v := by
  induction m with
  | nil => simp [tput]
  | cons e m ih =>
    obtain ⟨j, w⟩ := e
    unfold tput
    split
    · simp
    · split
      · simp
      · rename_i h1 h2
        rw [List.lookup_cons, beq_eq_false_iff_ne.mpr h2]
        exact ih

theorem lookup_tput_ne (m : Tbl V) {j k : Nat} (v : V) (h : j ≠ k) : (tput m k v).lookup j = m.lookup j := by
  induction m with
  | nil => simp [tput, List.lookup_cons, beq_eq_false_iff_ne.mpr h]
  | cons e m ih =>
    obtain ⟨i, w⟩ := e
    unfold tput
    split
    · rw [List.lookup_cons, beq_eq_false_iff_ne.mpr h]
    · split
      · rename_i h1 h2
        simp only at h2
        subst h2
        rw [List.lookup_cons, List.lookup_cons, beq_eq_false_iff_ne.mpr h]
      · rw [List.lookup_cons, List.lookup_cons, ih]

theorem lookup_tdrop (p : Nat → Bool) (m : Tbl V) (k : Nat) :
    (tdrop p m).lookup k = if p k then none else m.lookup k := by
  induction m with
  | nil => simp [tdrop]
  | cons e m ih =>
    obtain ⟨i, w⟩ := e
    unfold tdrop at ih ⊢
    by_cases h : k = i
    · subst h
      by_cases hp : p k <;> simp [hp, ih]
    · by_cases hp : p i <;>
        simp [List.lookup_cons, hp, ih, beq_eq_false_iff_ne.mpr h]

/-- Dropped keys read as the default, the others as before. -/
theorem tget_tdrop (d : Nat → V) (p : Nat → Bool) (m : Tbl V) (k : Nat) :
    tget d (tdrop p m) k = if p k then d k else tget d m k := by
  unfold tget
  rw [lookup_tdrop]
  split <;> rfl

theorem not_mem_lookup (m : Tbl V) (k : Nat) (h : ∀ e ∈ m, k < e.1) : m.lookup k = none := by
  induction m with
  | nil => rfl
  | cons e m ih =>
    obtain ⟨i, w⟩ := e
    have hi : k < i := h (i, w) (List.mem_cons_self ..)
    rw [List.lookup_cons, beq_eq_false_iff_ne.mpr (Nat.ne_of_lt hi)]
    exact ih (fun e he => h e (List.mem_cons_of_mem _ he))

variable [DecidableEq V]

/-- A read at the key just written gives what was written. -/
@[simp] theorem tget_tset_self (d : Nat → V) (m : Tbl V) (k : Nat) (v : V) : tget d (tset d m k v) k = v := by
  unfold tset tget
  split
  · rename_i h
    simp [lookup_tdrop, h]
  · simp [lookup_tput_self]

/-- A write leaves every other key alone. -/
theorem tget_tset_ne (d : Nat → V) (m : Tbl V) {j k : Nat} (v : V) (h : j ≠ k) :
    tget d (tset d m k v) j = tget d m j := by
  unfold tset tget
  split
  · simp [lookup_tdrop, beq_eq_false_iff_ne.mpr h]
  · rw [lookup_tput_ne m v h]

theorem twf_iff (d : Nat → V) (m : Tbl V) :
    twf d m = true ↔ m.Pairwise (fun a b => a.1 < b.1) ∧ ∀ e ∈ m, e.2 ≠ d e.1 := by
  simp [twf]

theorem twf_nil (d : Nat → V) : twf d ([] : Tbl V) = true := rfl

theorem twf_filter (d : Nat → V) (p : Nat × V → Bool) (m : Tbl V) (h : twf d m = true) : twf d (m.filter p) = true := by
  rw [twf_iff] at h ⊢
  exact ⟨h.1.filter p, fun e he => h.2 e (List.mem_of_mem_filter he)⟩

/-- Dropping keys keeps the canonical form. -/
theorem twf_tdrop (d : Nat → V) (p : Nat → Bool) (m : Tbl V) (h : twf d m = true) : twf d (tdrop p m) = true :=
  twf_filter d _ m h

theorem mem_tput (m : Tbl V) (k : Nat) (v : V) (e : Nat × V) (h : e ∈ tput m k v) : e = (k, v) ∨ e ∈ m := by
  induction m with
  | nil => simp [tput] at h; exact .inl h
  | cons x m ih =>
    unfold tput at h
    split at h
    · simp only [List.mem_cons] at h ⊢; tauto
    · split at h
      · simp only [List.mem_cons] at h ⊢; tauto
      · simp only [List.mem_cons] at h ⊢
        rcases h with h | h
        · exact .inr (.inl h)
        · rcases ih h with h | h
          · exact .inl h
          · exact .inr (.inr h)

theorem twf_tput (d : Nat → V) (m : Tbl V) (k : Nat) (v : V) (hv : v ≠ d k) (h : twf d m = true) :
    twf d (tput m k v) = true := by
  rw [twf_iff] at h ⊢
  refine ⟨?_, ?_⟩
  · have hp := h.1
    clear h
    induction m with
    | nil => simp [tput]
    | cons x m ih =>
      rw [List.pairwise_cons] at hp
      unfold tput
      split
      · rename_i hk
        rw [List.pairwise_cons, List.pairwise_cons]
        refine ⟨?_, hp⟩
        intro e he
        rcases List.mem_cons.mp he with rfl | he
        · exact hk
        · exact Nat.lt_trans hk (hp.1 e he)
      · split
        · rename_i hk
          rw [List.pairwise_cons]
          exact ⟨fun e he => hk ▸ hp.1 e he, hp.2⟩
        · rename_i h1 h2
          rw [List.pairwise_cons]
          refine ⟨?_, ih hp.2⟩
          intro e he
          rcases mem_tput m k v e he with rfl | he
          · exact Nat.lt_of_le_of_ne (Nat.le_of_not_lt h1) (Ne.symm h2)
          · exact hp.1 e he
  · intro e he
    rcases mem_tput m k v e he with rfl | he
    · exact hv
    · exact h.2 e he

/-- A write keeps the canonical form. -/
theorem twf_tset (d : Nat → V) (m : Tbl V) (k : Nat) (v : V) (h : twf d m = true) : twf d (tset d m k v) = true := by
  unfold tset
  split
  · exact twf_tdrop d _ m h
  · rename_i hv
    exact twf_tput d m k v hv h

/-- Changing every listed entry keeps the canonical form. -/
theorem twf_tmap (d : Nat → V) (f : Nat → V → V) (m : Tbl V) (h : twf d m = true) : twf d (tmap d f m) = true := by
  rw [twf_iff] at h ⊢
  unfold tmap
  refine ⟨List.Pairwise.filter _ ?_, ?_⟩
  · rw [List.pairwise_map]
    exact h.1
  · intro e he
    simpa using (List.mem_filter.mp he).2

end Sys2Proof.Machine
end

