-- ==== Sys2Proof/Laws/State.lean ====
section
/-! SUPPORT. What each write of a table of State leaves as it was, and that the table reads back what was written. -/

namespace Sys2Proof.Machine

set_option Elab.async false

@[simp] theorem State.setPort_frame (p : Nat) (v : HostPort) (s : State) :
    (State.setPort p v s).member = s.member ∧
    (State.setPort p v s).now = s.now ∧
    (State.setPort p v s).regs = s.regs ∧
    (State.setPort p v s).unstored = s.unstored ∧
    (State.setPort p v s).epo = s.epo ∧
    (State.setPort p v s).cat = s.cat ∧
    (State.setPort p v s).med = s.med ∧
    (State.setPort p v s).coh = s.coh ∧
    (State.setPort p v s).lnk = s.lnk ∧
    (State.setPort p v s).rte = s.rte ∧
    (State.setPort p v s).cap = s.cap ∧
    (State.setPort p v s).cry = s.cry ∧
    (State.setPort p v s).flt = s.flt ∧
    (State.setPort p v s).anl = s.anl ∧
    (State.setPort p v s).cur = s.cur ∧
    (State.setPort p v s).thm = s.thm ∧
    (State.setPort p v s).pwr = s.pwr ∧
    (State.setPort p v s).pmc = s.pmc ∧
    (State.setPort p v s).out = s.out ∧
    (State.setPort p v s).net = s.net ∧
    (State.setPort p v s).freeCtr = s.freeCtr ∧
    (State.setPort p v s).pending = s.pending := by
  repeat' constructor

@[simp] theorem State.setPort_port (p : Nat) (v : HostPort) (s : State) : (State.setPort p v s).port p = v := by
  simp [State.setPort, State.port]

@[simp] theorem State.setSq_frame (p n : Nat) (v : Sq) (s : State) :
    (State.setSq p n v s).member = s.member ∧
    (State.setSq p n v s).now = s.now ∧
    (State.setSq p n v s).regs = s.regs ∧
    (State.setSq p n v s).unstored = s.unstored ∧
    (State.setSq p n v s).epo = s.epo ∧
    (State.setSq p n v s).cat = s.cat ∧
    (State.setSq p n v s).med = s.med ∧
    (State.setSq p n v s).coh = s.coh ∧
    (State.setSq p n v s).lnk = s.lnk ∧
    (State.setSq p n v s).rte = s.rte ∧
    (State.setSq p n v s).cap = s.cap ∧
    (State.setSq p n v s).cry = s.cry ∧
    (State.setSq p n v s).flt = s.flt ∧
    (State.setSq p n v s).anl = s.anl ∧
    (State.setSq p n v s).cur = s.cur ∧
    (State.setSq p n v s).thm = s.thm ∧
    (State.setSq p n v s).pwr = s.pwr ∧
    (State.setSq p n v s).pmc = s.pmc ∧
    (State.setSq p n v s).out = s.out ∧
    (State.setSq p n v s).net = s.net ∧
    (State.setSq p n v s).freeCtr = s.freeCtr ∧
    (State.setSq p n v s).pending = s.pending := by
  repeat' constructor

@[simp] theorem State.setSq_sq (p n : Nat) (v : Sq) (s : State) : (State.setSq p n v s).sq p n = v := by
  simp [State.setSq, State.sq]

@[simp] theorem State.setCq_frame (p n : Nat) (v : Cq) (s : State) :
    (State.setCq p n v s).member = s.member ∧
    (State.setCq p n v s).now = s.now ∧
    (State.setCq p n v s).regs = s.regs ∧
    (State.setCq p n v s).unstored = s.unstored ∧
    (State.setCq p n v s).epo = s.epo ∧
    (State.setCq p n v s).cat = s.cat ∧
    (State.setCq p n v s).med = s.med ∧
    (State.setCq p n v s).coh = s.coh ∧
    (State.setCq p n v s).lnk = s.lnk ∧
    (State.setCq p n v s).rte = s.rte ∧
    (State.setCq p n v s).cap = s.cap ∧
    (State.setCq p n v s).cry = s.cry ∧
    (State.setCq p n v s).flt = s.flt ∧
    (State.setCq p n v s).anl = s.anl ∧
    (State.setCq p n v s).cur = s.cur ∧
    (State.setCq p n v s).thm = s.thm ∧
    (State.setCq p n v s).pwr = s.pwr ∧
    (State.setCq p n v s).pmc = s.pmc ∧
    (State.setCq p n v s).out = s.out ∧
    (State.setCq p n v s).net = s.net ∧
    (State.setCq p n v s).freeCtr = s.freeCtr ∧
    (State.setCq p n v s).pending = s.pending := by
  repeat' constructor

@[simp] theorem State.setCq_cq (p n : Nat) (v : Cq) (s : State) : (State.setCq p n v s).cq p n = v := by
  simp [State.setCq, State.cq]

@[simp] theorem State.setWin_frame (p w : Nat) (v : Win) (s : State) :
    (State.setWin p w v s).member = s.member ∧
    (State.setWin p w v s).now = s.now ∧
    (State.setWin p w v s).regs = s.regs ∧
    (State.setWin p w v s).unstored = s.unstored ∧
    (State.setWin p w v s).epo = s.epo ∧
    (State.setWin p w v s).cat = s.cat ∧
    (State.setWin p w v s).med = s.med ∧
    (State.setWin p w v s).coh = s.coh ∧
    (State.setWin p w v s).lnk = s.lnk ∧
    (State.setWin p w v s).rte = s.rte ∧
    (State.setWin p w v s).cap = s.cap ∧
    (State.setWin p w v s).cry = s.cry ∧
    (State.setWin p w v s).flt = s.flt ∧
    (State.setWin p w v s).anl = s.anl ∧
    (State.setWin p w v s).cur = s.cur ∧
    (State.setWin p w v s).thm = s.thm ∧
    (State.setWin p w v s).pwr = s.pwr ∧
    (State.setWin p w v s).pmc = s.pmc ∧
    (State.setWin p w v s).out = s.out ∧
    (State.setWin p w v s).net = s.net ∧
    (State.setWin p w v s).freeCtr = s.freeCtr ∧
    (State.setWin p w v s).pending = s.pending := by
  repeat' constructor

@[simp] theorem State.setWin_win (p w : Nat) (v : Win) (s : State) : (State.setWin p w v s).win p w = v := by
  simp [State.setWin, State.win]

@[simp] theorem State.setCmds_frame (l : List Cmd) (s : State) :
    (State.setCmds l s).member = s.member ∧
    (State.setCmds l s).now = s.now ∧
    (State.setCmds l s).regs = s.regs ∧
    (State.setCmds l s).unstored = s.unstored ∧
    (State.setCmds l s).epo = s.epo ∧
    (State.setCmds l s).cat = s.cat ∧
    (State.setCmds l s).med = s.med ∧
    (State.setCmds l s).coh = s.coh ∧
    (State.setCmds l s).lnk = s.lnk ∧
    (State.setCmds l s).rte = s.rte ∧
    (State.setCmds l s).cap = s.cap ∧
    (State.setCmds l s).cry = s.cry ∧
    (State.setCmds l s).flt = s.flt ∧
    (State.setCmds l s).anl = s.anl ∧
    (State.setCmds l s).cur = s.cur ∧
    (State.setCmds l s).thm = s.thm ∧
    (State.setCmds l s).pwr = s.pwr ∧
    (State.setCmds l s).pmc = s.pmc ∧
    (State.setCmds l s).out = s.out ∧
    (State.setCmds l s).net = s.net ∧
    (State.setCmds l s).freeCtr = s.freeCtr ∧
    (State.setCmds l s).pending = s.pending := by
  repeat' constructor

@[simp] theorem State.emit_frame (o : Out) (s : State) :
    (State.emit o s).member = s.member ∧
    (State.emit o s).now = s.now ∧
    (State.emit o s).regs = s.regs ∧
    (State.emit o s).unstored = s.unstored ∧
    (State.emit o s).host = s.host ∧
    (State.emit o s).epo = s.epo ∧
    (State.emit o s).cat = s.cat ∧
    (State.emit o s).med = s.med ∧
    (State.emit o s).coh = s.coh ∧
    (State.emit o s).lnk = s.lnk ∧
    (State.emit o s).rte = s.rte ∧
    (State.emit o s).cap = s.cap ∧
    (State.emit o s).cry = s.cry ∧
    (State.emit o s).flt = s.flt ∧
    (State.emit o s).anl = s.anl ∧
    (State.emit o s).cur = s.cur ∧
    (State.emit o s).thm = s.thm ∧
    (State.emit o s).pwr = s.pwr ∧
    (State.emit o s).pmc = s.pmc ∧
    (State.emit o s).net = s.net ∧
    (State.emit o s).freeCtr = s.freeCtr ∧
    (State.emit o s).pending = s.pending := by
  repeat' constructor

@[simp] theorem State.send_frame (m : Msg) (s : State) :
    (State.send m s).member = s.member ∧
    (State.send m s).now = s.now ∧
    (State.send m s).regs = s.regs ∧
    (State.send m s).unstored = s.unstored ∧
    (State.send m s).host = s.host ∧
    (State.send m s).epo = s.epo ∧
    (State.send m s).cat = s.cat ∧
    (State.send m s).med = s.med ∧
    (State.send m s).coh = s.coh ∧
    (State.send m s).lnk = s.lnk ∧
    (State.send m s).rte = s.rte ∧
    (State.send m s).cap = s.cap ∧
    (State.send m s).cry = s.cry ∧
    (State.send m s).flt = s.flt ∧
    (State.send m s).anl = s.anl ∧
    (State.send m s).cur = s.cur ∧
    (State.send m s).thm = s.thm ∧
    (State.send m s).pwr = s.pwr ∧
    (State.send m s).pmc = s.pmc ∧
    (State.send m s).out = s.out ∧
    (State.send m s).freeCtr = s.freeCtr ∧
    (State.send m s).pending = s.pending := by
  repeat' constructor

@[simp] theorem State.receive_frame (m : Msg) (s : State) :
    (State.receive m s).member = s.member ∧
    (State.receive m s).now = s.now ∧
    (State.receive m s).regs = s.regs ∧
    (State.receive m s).unstored = s.unstored ∧
    (State.receive m s).host = s.host ∧
    (State.receive m s).epo = s.epo ∧
    (State.receive m s).cat = s.cat ∧
    (State.receive m s).med = s.med ∧
    (State.receive m s).coh = s.coh ∧
    (State.receive m s).lnk = s.lnk ∧
    (State.receive m s).rte = s.rte ∧
    (State.receive m s).cap = s.cap ∧
    (State.receive m s).cry = s.cry ∧
    (State.receive m s).flt = s.flt ∧
    (State.receive m s).anl = s.anl ∧
    (State.receive m s).cur = s.cur ∧
    (State.receive m s).thm = s.thm ∧
    (State.receive m s).pwr = s.pwr ∧
    (State.receive m s).pmc = s.pmc ∧
    (State.receive m s).out = s.out ∧
    (State.receive m s).freeCtr = s.freeCtr ∧
    (State.receive m s).pending = s.pending := by
  repeat' constructor

@[simp] theorem State.drawn_frame (n : Nat) (s : State) :
    (State.drawn n s).member = s.member ∧
    (State.drawn n s).now = s.now ∧
    (State.drawn n s).regs = s.regs ∧
    (State.drawn n s).unstored = s.unstored ∧
    (State.drawn n s).host = s.host ∧
    (State.drawn n s).epo = s.epo ∧
    (State.drawn n s).cat = s.cat ∧
    (State.drawn n s).med = s.med ∧
    (State.drawn n s).coh = s.coh ∧
    (State.drawn n s).lnk = s.lnk ∧
    (State.drawn n s).rte = s.rte ∧
    (State.drawn n s).cap = s.cap ∧
    (State.drawn n s).cry = s.cry ∧
    (State.drawn n s).flt = s.flt ∧
    (State.drawn n s).anl = s.anl ∧
    (State.drawn n s).cur = s.cur ∧
    (State.drawn n s).thm = s.thm ∧
    (State.drawn n s).pwr = s.pwr ∧
    (State.drawn n s).pmc = s.pmc ∧
    (State.drawn n s).out = s.out ∧
    (State.drawn n s).net = s.net ∧
    (State.drawn n s).pending = s.pending := by
  repeat' constructor

@[simp] theorem State.setNc_frame (t line : Nat) (v : NcLine) (s : State) :
    (State.setNc t line v s).member = s.member ∧
    (State.setNc t line v s).now = s.now ∧
    (State.setNc t line v s).regs = s.regs ∧
    (State.setNc t line v s).unstored = s.unstored ∧
    (State.setNc t line v s).host = s.host ∧
    (State.setNc t line v s).epo = s.epo ∧
    (State.setNc t line v s).cat = s.cat ∧
    (State.setNc t line v s).med = s.med ∧
    (State.setNc t line v s).lnk = s.lnk ∧
    (State.setNc t line v s).rte = s.rte ∧
    (State.setNc t line v s).cap = s.cap ∧
    (State.setNc t line v s).cry = s.cry ∧
    (State.setNc t line v s).flt = s.flt ∧
    (State.setNc t line v s).anl = s.anl ∧
    (State.setNc t line v s).cur = s.cur ∧
    (State.setNc t line v s).thm = s.thm ∧
    (State.setNc t line v s).pwr = s.pwr ∧
    (State.setNc t line v s).pmc = s.pmc ∧
    (State.setNc t line v s).out = s.out ∧
    (State.setNc t line v s).net = s.net ∧
    (State.setNc t line v s).freeCtr = s.freeCtr ∧
    (State.setNc t line v s).pending = s.pending := by
  repeat' constructor

@[simp] theorem State.setNc_nc (t line : Nat) (v : NcLine) (s : State) : (State.setNc t line v s).nc t line = v := by
  simp [State.setNc, State.nc]

@[simp] theorem State.setDir_frame (line : Nat) (v : Dir) (s : State) :
    (State.setDir line v s).member = s.member ∧
    (State.setDir line v s).now = s.now ∧
    (State.setDir line v s).regs = s.regs ∧
    (State.setDir line v s).unstored = s.unstored ∧
    (State.setDir line v s).host = s.host ∧
    (State.setDir line v s).epo = s.epo ∧
    (State.setDir line v s).cat = s.cat ∧
    (State.setDir line v s).med = s.med ∧
    (State.setDir line v s).lnk = s.lnk ∧
    (State.setDir line v s).rte = s.rte ∧
    (State.setDir line v s).cap = s.cap ∧
    (State.setDir line v s).cry = s.cry ∧
    (State.setDir line v s).flt = s.flt ∧
    (State.setDir line v s).anl = s.anl ∧
    (State.setDir line v s).cur = s.cur ∧
    (State.setDir line v s).thm = s.thm ∧
    (State.setDir line v s).pwr = s.pwr ∧
    (State.setDir line v s).pmc = s.pmc ∧
    (State.setDir line v s).out = s.out ∧
    (State.setDir line v s).net = s.net ∧
    (State.setDir line v s).freeCtr = s.freeCtr ∧
    (State.setDir line v s).pending = s.pending := by
  repeat' constructor

@[simp] theorem State.setDir_dir (line : Nat) (v : Dir) (s : State) : (State.setDir line v s).dir line = v := by
  simp [State.setDir, State.dir]

@[simp] theorem State.setEntry_entry (leaf : Bool) (key : Nat) (v : Entry) (s : State) : (State.setEntry leaf key v s).entry leaf key = v := by
  cases leaf <;> simp [State.setEntry, State.entry, State.leaf, State.folio]

@[simp] theorem State.setPage_frame (t spn : Nat) (v : Option Page) (s : State) :
    (State.setPage t spn v s).member = s.member ∧
    (State.setPage t spn v s).now = s.now ∧
    (State.setPage t spn v s).regs = s.regs ∧
    (State.setPage t spn v s).unstored = s.unstored ∧
    (State.setPage t spn v s).host = s.host ∧
    (State.setPage t spn v s).epo = s.epo ∧
    (State.setPage t spn v s).med = s.med ∧
    (State.setPage t spn v s).coh = s.coh ∧
    (State.setPage t spn v s).lnk = s.lnk ∧
    (State.setPage t spn v s).rte = s.rte ∧
    (State.setPage t spn v s).cap = s.cap ∧
    (State.setPage t spn v s).cry = s.cry ∧
    (State.setPage t spn v s).flt = s.flt ∧
    (State.setPage t spn v s).anl = s.anl ∧
    (State.setPage t spn v s).cur = s.cur ∧
    (State.setPage t spn v s).thm = s.thm ∧
    (State.setPage t spn v s).pwr = s.pwr ∧
    (State.setPage t spn v s).pmc = s.pmc ∧
    (State.setPage t spn v s).out = s.out ∧
    (State.setPage t spn v s).net = s.net ∧
    (State.setPage t spn v s).freeCtr = s.freeCtr ∧
    (State.setPage t spn v s).pending = s.pending := by
  repeat' constructor

@[simp] theorem State.setPage_page (t spn : Nat) (v : Option Page) (s : State) : (State.setPage t spn v s).page t spn = v := by
  simp [State.setPage, State.page]

@[simp] theorem State.setWalk_frame (t : Nat) (v : Option Walk) (s : State) :
    (State.setWalk t v s).member = s.member ∧
    (State.setWalk t v s).now = s.now ∧
    (State.setWalk t v s).regs = s.regs ∧
    (State.setWalk t v s).unstored = s.unstored ∧
    (State.setWalk t v s).host = s.host ∧
    (State.setWalk t v s).cat = s.cat ∧
    (State.setWalk t v s).med = s.med ∧
    (State.setWalk t v s).coh = s.coh ∧
    (State.setWalk t v s).lnk = s.lnk ∧
    (State.setWalk t v s).rte = s.rte ∧
    (State.setWalk t v s).cap = s.cap ∧
    (State.setWalk t v s).cry = s.cry ∧
    (State.setWalk t v s).flt = s.flt ∧
    (State.setWalk t v s).anl = s.anl ∧
    (State.setWalk t v s).cur = s.cur ∧
    (State.setWalk t v s).thm = s.thm ∧
    (State.setWalk t v s).pwr = s.pwr ∧
    (State.setWalk t v s).pmc = s.pmc ∧
    (State.setWalk t v s).out = s.out ∧
    (State.setWalk t v s).net = s.net ∧
    (State.setWalk t v s).freeCtr = s.freeCtr ∧
    (State.setWalk t v s).pending = s.pending := by
  repeat' constructor

@[simp] theorem State.setWalk_walk (t : Nat) (v : Option Walk) (s : State) : (State.setWalk t v s).walk t = v := by
  simp [State.setWalk, State.walk]

@[simp] theorem State.setTarget_frame (t c k : Nat) (v : Target) (s : State) :
    (State.setTarget t c k v s).member = s.member ∧
    (State.setTarget t c k v s).now = s.now ∧
    (State.setTarget t c k v s).regs = s.regs ∧
    (State.setTarget t c k v s).unstored = s.unstored ∧
    (State.setTarget t c k v s).host = s.host ∧
    (State.setTarget t c k v s).epo = s.epo ∧
    (State.setTarget t c k v s).cat = s.cat ∧
    (State.setTarget t c k v s).coh = s.coh ∧
    (State.setTarget t c k v s).lnk = s.lnk ∧
    (State.setTarget t c k v s).rte = s.rte ∧
    (State.setTarget t c k v s).cap = s.cap ∧
    (State.setTarget t c k v s).cry = s.cry ∧
    (State.setTarget t c k v s).flt = s.flt ∧
    (State.setTarget t c k v s).anl = s.anl ∧
    (State.setTarget t c k v s).cur = s.cur ∧
    (State.setTarget t c k v s).thm = s.thm ∧
    (State.setTarget t c k v s).pwr = s.pwr ∧
    (State.setTarget t c k v s).pmc = s.pmc ∧
    (State.setTarget t c k v s).out = s.out ∧
    (State.setTarget t c k v s).net = s.net ∧
    (State.setTarget t c k v s).freeCtr = s.freeCtr ∧
    (State.setTarget t c k v s).pending = s.pending := by
  repeat' constructor

@[simp] theorem State.setTarget_target (t c k : Nat) (v : Target) (s : State) : (State.setTarget t c k v s).target t c k = v := by
  simp [State.setTarget, State.target]

@[simp] theorem State.setChan_frame (t c : Nat) (v : Chan) (s : State) :
    (State.setChan t c v s).member = s.member ∧
    (State.setChan t c v s).now = s.now ∧
    (State.setChan t c v s).regs = s.regs ∧
    (State.setChan t c v s).unstored = s.unstored ∧
    (State.setChan t c v s).host = s.host ∧
    (State.setChan t c v s).epo = s.epo ∧
    (State.setChan t c v s).cat = s.cat ∧
    (State.setChan t c v s).coh = s.coh ∧
    (State.setChan t c v s).lnk = s.lnk ∧
    (State.setChan t c v s).rte = s.rte ∧
    (State.setChan t c v s).cap = s.cap ∧
    (State.setChan t c v s).cry = s.cry ∧
    (State.setChan t c v s).flt = s.flt ∧
    (State.setChan t c v s).anl = s.anl ∧
    (State.setChan t c v s).cur = s.cur ∧
    (State.setChan t c v s).thm = s.thm ∧
    (State.setChan t c v s).pwr = s.pwr ∧
    (State.setChan t c v s).pmc = s.pmc ∧
    (State.setChan t c v s).out = s.out ∧
    (State.setChan t c v s).net = s.net ∧
    (State.setChan t c v s).freeCtr = s.freeCtr ∧
    (State.setChan t c v s).pending = s.pending := by
  repeat' constructor

@[simp] theorem State.setChan_chan (t c : Nat) (v : Chan) (s : State) : (State.setChan t c v s).chan t c = v := by
  simp [State.setChan, State.chan]

@[simp] theorem State.setSport_frame (t p : Nat) (v : SPort) (s : State) :
    (State.setSport t p v s).member = s.member ∧
    (State.setSport t p v s).now = s.now ∧
    (State.setSport t p v s).regs = s.regs ∧
    (State.setSport t p v s).unstored = s.unstored ∧
    (State.setSport t p v s).host = s.host ∧
    (State.setSport t p v s).epo = s.epo ∧
    (State.setSport t p v s).cat = s.cat ∧
    (State.setSport t p v s).med = s.med ∧
    (State.setSport t p v s).coh = s.coh ∧
    (State.setSport t p v s).rte = s.rte ∧
    (State.setSport t p v s).cap = s.cap ∧
    (State.setSport t p v s).cry = s.cry ∧
    (State.setSport t p v s).flt = s.flt ∧
    (State.setSport t p v s).anl = s.anl ∧
    (State.setSport t p v s).cur = s.cur ∧
    (State.setSport t p v s).thm = s.thm ∧
    (State.setSport t p v s).pwr = s.pwr ∧
    (State.setSport t p v s).pmc = s.pmc ∧
    (State.setSport t p v s).out = s.out ∧
    (State.setSport t p v s).net = s.net ∧
    (State.setSport t p v s).freeCtr = s.freeCtr ∧
    (State.setSport t p v s).pending = s.pending := by
  repeat' constructor

@[simp] theorem State.setSport_sport (t p : Nat) (v : SPort) (s : State) : (State.setSport t p v s).sport t p = v := by
  simp [State.setSport, State.sport]

@[simp] theorem State.setKid_frame (k : Nat) (v : Kid) (s : State) :
    (State.setKid k v s).member = s.member ∧
    (State.setKid k v s).now = s.now ∧
    (State.setKid k v s).regs = s.regs ∧
    (State.setKid k v s).unstored = s.unstored ∧
    (State.setKid k v s).host = s.host ∧
    (State.setKid k v s).epo = s.epo ∧
    (State.setKid k v s).cat = s.cat ∧
    (State.setKid k v s).med = s.med ∧
    (State.setKid k v s).coh = s.coh ∧
    (State.setKid k v s).lnk = s.lnk ∧
    (State.setKid k v s).rte = s.rte ∧
    (State.setKid k v s).cap = s.cap ∧
    (State.setKid k v s).flt = s.flt ∧
    (State.setKid k v s).anl = s.anl ∧
    (State.setKid k v s).cur = s.cur ∧
    (State.setKid k v s).thm = s.thm ∧
    (State.setKid k v s).pwr = s.pwr ∧
    (State.setKid k v s).pmc = s.pmc ∧
    (State.setKid k v s).out = s.out ∧
    (State.setKid k v s).net = s.net ∧
    (State.setKid k v s).freeCtr = s.freeCtr ∧
    (State.setKid k v s).pending = s.pending := by
  repeat' constructor

@[simp] theorem State.setKid_kid (k : Nat) (v : Kid) (s : State) : (State.setKid k v s).kid k = v := by
  simp [State.setKid, State.kid]

@[simp] theorem State.setRoute_frame (t r : Nat) (v : Route) (s : State) :
    (State.setRoute t r v s).member = s.member ∧
    (State.setRoute t r v s).now = s.now ∧
    (State.setRoute t r v s).regs = s.regs ∧
    (State.setRoute t r v s).unstored = s.unstored ∧
    (State.setRoute t r v s).host = s.host ∧
    (State.setRoute t r v s).epo = s.epo ∧
    (State.setRoute t r v s).cat = s.cat ∧
    (State.setRoute t r v s).med = s.med ∧
    (State.setRoute t r v s).coh = s.coh ∧
    (State.setRoute t r v s).lnk = s.lnk ∧
    (State.setRoute t r v s).cap = s.cap ∧
    (State.setRoute t r v s).cry = s.cry ∧
    (State.setRoute t r v s).flt = s.flt ∧
    (State.setRoute t r v s).anl = s.anl ∧
    (State.setRoute t r v s).cur = s.cur ∧
    (State.setRoute t r v s).thm = s.thm ∧
    (State.setRoute t r v s).pwr = s.pwr ∧
    (State.setRoute t r v s).pmc = s.pmc ∧
    (State.setRoute t r v s).out = s.out ∧
    (State.setRoute t r v s).net = s.net ∧
    (State.setRoute t r v s).freeCtr = s.freeCtr ∧
    (State.setRoute t r v s).pending = s.pending := by
  repeat' constructor

@[simp] theorem State.setRoute_route (t r : Nat) (v : Route) (s : State) : (State.setRoute t r v s).route t r = v := by
  simp [State.setRoute, State.route]

@[simp] theorem State.setEngine_frame (t p : Nat) (v : Engine) (s : State) :
    (State.setEngine t p v s).member = s.member ∧
    (State.setEngine t p v s).now = s.now ∧
    (State.setEngine t p v s).regs = s.regs ∧
    (State.setEngine t p v s).unstored = s.unstored ∧
    (State.setEngine t p v s).host = s.host ∧
    (State.setEngine t p v s).epo = s.epo ∧
    (State.setEngine t p v s).cat = s.cat ∧
    (State.setEngine t p v s).med = s.med ∧
    (State.setEngine t p v s).coh = s.coh ∧
    (State.setEngine t p v s).lnk = s.lnk ∧
    (State.setEngine t p v s).cap = s.cap ∧
    (State.setEngine t p v s).cry = s.cry ∧
    (State.setEngine t p v s).flt = s.flt ∧
    (State.setEngine t p v s).anl = s.anl ∧
    (State.setEngine t p v s).cur = s.cur ∧
    (State.setEngine t p v s).thm = s.thm ∧
    (State.setEngine t p v s).pwr = s.pwr ∧
    (State.setEngine t p v s).pmc = s.pmc ∧
    (State.setEngine t p v s).out = s.out ∧
    (State.setEngine t p v s).net = s.net ∧
    (State.setEngine t p v s).freeCtr = s.freeCtr ∧
    (State.setEngine t p v s).pending = s.pending := by
  repeat' constructor

@[simp] theorem State.setEngine_engine (t p : Nat) (v : Engine) (s : State) : (State.setEngine t p v s).engine t p = v := by
  simp [State.setEngine, State.engine]

@[simp] theorem State.setLanding_frame (t i : Nat) (v : Option Landing) (s : State) :
    (State.setLanding t i v s).member = s.member ∧
    (State.setLanding t i v s).now = s.now ∧
    (State.setLanding t i v s).regs = s.regs ∧
    (State.setLanding t i v s).unstored = s.unstored ∧
    (State.setLanding t i v s).host = s.host ∧
    (State.setLanding t i v s).epo = s.epo ∧
    (State.setLanding t i v s).cat = s.cat ∧
    (State.setLanding t i v s).med = s.med ∧
    (State.setLanding t i v s).coh = s.coh ∧
    (State.setLanding t i v s).lnk = s.lnk ∧
    (State.setLanding t i v s).cap = s.cap ∧
    (State.setLanding t i v s).cry = s.cry ∧
    (State.setLanding t i v s).flt = s.flt ∧
    (State.setLanding t i v s).anl = s.anl ∧
    (State.setLanding t i v s).cur = s.cur ∧
    (State.setLanding t i v s).thm = s.thm ∧
    (State.setLanding t i v s).pwr = s.pwr ∧
    (State.setLanding t i v s).pmc = s.pmc ∧
    (State.setLanding t i v s).out = s.out ∧
    (State.setLanding t i v s).net = s.net ∧
    (State.setLanding t i v s).freeCtr = s.freeCtr ∧
    (State.setLanding t i v s).pending = s.pending := by
  repeat' constructor

@[simp] theorem State.setRegion_frame (t p r : Nat) (v : Region) (s : State) :
    (State.setRegion t p r v s).member = s.member ∧
    (State.setRegion t p r v s).now = s.now ∧
    (State.setRegion t p r v s).regs = s.regs ∧
    (State.setRegion t p r v s).unstored = s.unstored ∧
    (State.setRegion t p r v s).host = s.host ∧
    (State.setRegion t p r v s).epo = s.epo ∧
    (State.setRegion t p r v s).cat = s.cat ∧
    (State.setRegion t p r v s).med = s.med ∧
    (State.setRegion t p r v s).coh = s.coh ∧
    (State.setRegion t p r v s).lnk = s.lnk ∧
    (State.setRegion t p r v s).rte = s.rte ∧
    (State.setRegion t p r v s).cry = s.cry ∧
    (State.setRegion t p r v s).flt = s.flt ∧
    (State.setRegion t p r v s).anl = s.anl ∧
    (State.setRegion t p r v s).cur = s.cur ∧
    (State.setRegion t p r v s).thm = s.thm ∧
    (State.setRegion t p r v s).pwr = s.pwr ∧
    (State.setRegion t p r v s).pmc = s.pmc ∧
    (State.setRegion t p r v s).out = s.out ∧
    (State.setRegion t p r v s).net = s.net ∧
    (State.setRegion t p r v s).freeCtr = s.freeCtr ∧
    (State.setRegion t p r v s).pending = s.pending := by
  repeat' constructor

@[simp] theorem State.setRegion_region (t p r : Nat) (v : Region) (s : State) : (State.setRegion t p r v s).region t p r = v := by
  simp [State.setRegion, State.region]

@[simp] theorem State.setIngest_frame (t p : Nat) (v : Ingest) (s : State) :
    (State.setIngest t p v s).member = s.member ∧
    (State.setIngest t p v s).now = s.now ∧
    (State.setIngest t p v s).regs = s.regs ∧
    (State.setIngest t p v s).unstored = s.unstored ∧
    (State.setIngest t p v s).host = s.host ∧
    (State.setIngest t p v s).epo = s.epo ∧
    (State.setIngest t p v s).cat = s.cat ∧
    (State.setIngest t p v s).med = s.med ∧
    (State.setIngest t p v s).coh = s.coh ∧
    (State.setIngest t p v s).lnk = s.lnk ∧
    (State.setIngest t p v s).rte = s.rte ∧
    (State.setIngest t p v s).cry = s.cry ∧
    (State.setIngest t p v s).flt = s.flt ∧
    (State.setIngest t p v s).anl = s.anl ∧
    (State.setIngest t p v s).cur = s.cur ∧
    (State.setIngest t p v s).thm = s.thm ∧
    (State.setIngest t p v s).pwr = s.pwr ∧
    (State.setIngest t p v s).pmc = s.pmc ∧
    (State.setIngest t p v s).out = s.out ∧
    (State.setIngest t p v s).net = s.net ∧
    (State.setIngest t p v s).freeCtr = s.freeCtr ∧
    (State.setIngest t p v s).pending = s.pending := by
  repeat' constructor

@[simp] theorem State.setIngest_ingest (t p : Nat) (v : Ingest) (s : State) : (State.setIngest t p v s).ingest t p = v := by
  simp [State.setIngest, State.ingest]

@[simp] theorem State.setMblock_frame (t c b : Nat) (v : MBlock) (s : State) :
    (State.setMblock t c b v s).member = s.member ∧
    (State.setMblock t c b v s).now = s.now ∧
    (State.setMblock t c b v s).regs = s.regs ∧
    (State.setMblock t c b v s).unstored = s.unstored ∧
    (State.setMblock t c b v s).host = s.host ∧
    (State.setMblock t c b v s).epo = s.epo ∧
    (State.setMblock t c b v s).cat = s.cat ∧
    (State.setMblock t c b v s).coh = s.coh ∧
    (State.setMblock t c b v s).lnk = s.lnk ∧
    (State.setMblock t c b v s).rte = s.rte ∧
    (State.setMblock t c b v s).cap = s.cap ∧
    (State.setMblock t c b v s).cry = s.cry ∧
    (State.setMblock t c b v s).flt = s.flt ∧
    (State.setMblock t c b v s).anl = s.anl ∧
    (State.setMblock t c b v s).cur = s.cur ∧
    (State.setMblock t c b v s).thm = s.thm ∧
    (State.setMblock t c b v s).pwr = s.pwr ∧
    (State.setMblock t c b v s).pmc = s.pmc ∧
    (State.setMblock t c b v s).out = s.out ∧
    (State.setMblock t c b v s).net = s.net ∧
    (State.setMblock t c b v s).freeCtr = s.freeCtr ∧
    (State.setMblock t c b v s).pending = s.pending := by
  repeat' constructor

@[simp] theorem State.setMblock_mblock (t c b : Nat) (v : MBlock) (s : State) : (State.setMblock t c b v s).mblock t c b = v := by
  simp [State.setMblock, State.mblock]

@[simp] theorem State.setBlock_frame (t b : Nat) (v : StripeBlock) (s : State) :
    (State.setBlock t b v s).member = s.member ∧
    (State.setBlock t b v s).now = s.now ∧
    (State.setBlock t b v s).regs = s.regs ∧
    (State.setBlock t b v s).unstored = s.unstored ∧
    (State.setBlock t b v s).host = s.host ∧
    (State.setBlock t b v s).epo = s.epo ∧
    (State.setBlock t b v s).med = s.med ∧
    (State.setBlock t b v s).coh = s.coh ∧
    (State.setBlock t b v s).lnk = s.lnk ∧
    (State.setBlock t b v s).rte = s.rte ∧
    (State.setBlock t b v s).cap = s.cap ∧
    (State.setBlock t b v s).cry = s.cry ∧
    (State.setBlock t b v s).flt = s.flt ∧
    (State.setBlock t b v s).anl = s.anl ∧
    (State.setBlock t b v s).cur = s.cur ∧
    (State.setBlock t b v s).thm = s.thm ∧
    (State.setBlock t b v s).pwr = s.pwr ∧
    (State.setBlock t b v s).pmc = s.pmc ∧
    (State.setBlock t b v s).out = s.out ∧
    (State.setBlock t b v s).net = s.net ∧
    (State.setBlock t b v s).freeCtr = s.freeCtr ∧
    (State.setBlock t b v s).pending = s.pending := by
  repeat' constructor

@[simp] theorem State.setBlock_block (t b : Nat) (v : StripeBlock) (s : State) : (State.setBlock t b v s).block t b = v := by
  simp [State.setBlock, State.block]

@[simp] theorem State.setSpare_frame (t : Nat) (v : Spare) (s : State) :
    (State.setSpare t v s).member = s.member ∧
    (State.setSpare t v s).now = s.now ∧
    (State.setSpare t v s).regs = s.regs ∧
    (State.setSpare t v s).unstored = s.unstored ∧
    (State.setSpare t v s).host = s.host ∧
    (State.setSpare t v s).epo = s.epo ∧
    (State.setSpare t v s).cat = s.cat ∧
    (State.setSpare t v s).coh = s.coh ∧
    (State.setSpare t v s).lnk = s.lnk ∧
    (State.setSpare t v s).rte = s.rte ∧
    (State.setSpare t v s).cap = s.cap ∧
    (State.setSpare t v s).cry = s.cry ∧
    (State.setSpare t v s).flt = s.flt ∧
    (State.setSpare t v s).anl = s.anl ∧
    (State.setSpare t v s).cur = s.cur ∧
    (State.setSpare t v s).thm = s.thm ∧
    (State.setSpare t v s).pwr = s.pwr ∧
    (State.setSpare t v s).pmc = s.pmc ∧
    (State.setSpare t v s).out = s.out ∧
    (State.setSpare t v s).net = s.net ∧
    (State.setSpare t v s).freeCtr = s.freeCtr ∧
    (State.setSpare t v s).pending = s.pending := by
  repeat' constructor

@[simp] theorem State.setSpare_spare (t : Nat) (v : Spare) (s : State) : (State.setSpare t v s).spare t = v := by
  simp [State.setSpare, State.spare]

@[simp] theorem State.setCal_frame (t : Nat) (v : Calendar) (s : State) :
    (State.setCal t v s).member = s.member ∧
    (State.setCal t v s).now = s.now ∧
    (State.setCal t v s).regs = s.regs ∧
    (State.setCal t v s).unstored = s.unstored ∧
    (State.setCal t v s).host = s.host ∧
    (State.setCal t v s).epo = s.epo ∧
    (State.setCal t v s).cat = s.cat ∧
    (State.setCal t v s).coh = s.coh ∧
    (State.setCal t v s).lnk = s.lnk ∧
    (State.setCal t v s).rte = s.rte ∧
    (State.setCal t v s).cap = s.cap ∧
    (State.setCal t v s).cry = s.cry ∧
    (State.setCal t v s).flt = s.flt ∧
    (State.setCal t v s).anl = s.anl ∧
    (State.setCal t v s).cur = s.cur ∧
    (State.setCal t v s).thm = s.thm ∧
    (State.setCal t v s).pwr = s.pwr ∧
    (State.setCal t v s).pmc = s.pmc ∧
    (State.setCal t v s).out = s.out ∧
    (State.setCal t v s).net = s.net ∧
    (State.setCal t v s).freeCtr = s.freeCtr ∧
    (State.setCal t v s).pending = s.pending := by
  repeat' constructor

@[simp] theorem State.setCal_cal (t : Nat) (v : Calendar) (s : State) : (State.setCal t v s).cal t = v := by
  simp [State.setCal, State.cal]

@[simp] theorem State.setMiss_frame (t line : Nat) (v : Option Miss) (s : State) :
    (State.setMiss t line v s).member = s.member ∧
    (State.setMiss t line v s).now = s.now ∧
    (State.setMiss t line v s).regs = s.regs ∧
    (State.setMiss t line v s).unstored = s.unstored ∧
    (State.setMiss t line v s).host = s.host ∧
    (State.setMiss t line v s).epo = s.epo ∧
    (State.setMiss t line v s).cat = s.cat ∧
    (State.setMiss t line v s).med = s.med ∧
    (State.setMiss t line v s).lnk = s.lnk ∧
    (State.setMiss t line v s).rte = s.rte ∧
    (State.setMiss t line v s).cap = s.cap ∧
    (State.setMiss t line v s).cry = s.cry ∧
    (State.setMiss t line v s).flt = s.flt ∧
    (State.setMiss t line v s).anl = s.anl ∧
    (State.setMiss t line v s).cur = s.cur ∧
    (State.setMiss t line v s).thm = s.thm ∧
    (State.setMiss t line v s).pwr = s.pwr ∧
    (State.setMiss t line v s).pmc = s.pmc ∧
    (State.setMiss t line v s).out = s.out ∧
    (State.setMiss t line v s).net = s.net ∧
    (State.setMiss t line v s).freeCtr = s.freeCtr ∧
    (State.setMiss t line v s).pending = s.pending := by
  repeat' constructor

@[simp] theorem State.setMiss_missOf (t line : Nat) (v : Option Miss) (s : State) : (State.setMiss t line v s).missOf t line = v := by
  simp [State.setMiss, State.missOf]

@[simp] theorem State.setTx_frame (line : Nat) (v : Option Tx) (s : State) :
    (State.setTx line v s).member = s.member ∧
    (State.setTx line v s).now = s.now ∧
    (State.setTx line v s).regs = s.regs ∧
    (State.setTx line v s).unstored = s.unstored ∧
    (State.setTx line v s).host = s.host ∧
    (State.setTx line v s).epo = s.epo ∧
    (State.setTx line v s).cat = s.cat ∧
    (State.setTx line v s).med = s.med ∧
    (State.setTx line v s).lnk = s.lnk ∧
    (State.setTx line v s).rte = s.rte ∧
    (State.setTx line v s).cap = s.cap ∧
    (State.setTx line v s).cry = s.cry ∧
    (State.setTx line v s).flt = s.flt ∧
    (State.setTx line v s).anl = s.anl ∧
    (State.setTx line v s).cur = s.cur ∧
    (State.setTx line v s).thm = s.thm ∧
    (State.setTx line v s).pwr = s.pwr ∧
    (State.setTx line v s).pmc = s.pmc ∧
    (State.setTx line v s).out = s.out ∧
    (State.setTx line v s).net = s.net ∧
    (State.setTx line v s).freeCtr = s.freeCtr ∧
    (State.setTx line v s).pending = s.pending := by
  repeat' constructor

@[simp] theorem State.setTx_tx (line : Nat) (v : Option Tx) (s : State) : (State.setTx line v s).tx line = v := by
  simp [State.setTx, State.tx]

@[simp] theorem State.setSrc_frame (t id : Nat) (v : Src) (s : State) :
    (State.setSrc t id v s).member = s.member ∧
    (State.setSrc t id v s).now = s.now ∧
    (State.setSrc t id v s).regs = s.regs ∧
    (State.setSrc t id v s).unstored = s.unstored ∧
    (State.setSrc t id v s).host = s.host ∧
    (State.setSrc t id v s).epo = s.epo ∧
    (State.setSrc t id v s).cat = s.cat ∧
    (State.setSrc t id v s).med = s.med ∧
    (State.setSrc t id v s).coh = s.coh ∧
    (State.setSrc t id v s).lnk = s.lnk ∧
    (State.setSrc t id v s).rte = s.rte ∧
    (State.setSrc t id v s).cap = s.cap ∧
    (State.setSrc t id v s).cry = s.cry ∧
    (State.setSrc t id v s).anl = s.anl ∧
    (State.setSrc t id v s).cur = s.cur ∧
    (State.setSrc t id v s).thm = s.thm ∧
    (State.setSrc t id v s).pwr = s.pwr ∧
    (State.setSrc t id v s).pmc = s.pmc ∧
    (State.setSrc t id v s).out = s.out ∧
    (State.setSrc t id v s).net = s.net ∧
    (State.setSrc t id v s).freeCtr = s.freeCtr ∧
    (State.setSrc t id v s).pending = s.pending := by
  repeat' constructor

@[simp] theorem State.setSrc_src (t id : Nat) (v : Src) (s : State) : (State.setSrc t id v s).src t id = v := by
  simp [State.setSrc, State.src]

@[simp] theorem State.setSlot_frame (t n : Nat) (v : Slot) (s : State) :
    (State.setSlot t n v s).member = s.member ∧
    (State.setSlot t n v s).now = s.now ∧
    (State.setSlot t n v s).regs = s.regs ∧
    (State.setSlot t n v s).unstored = s.unstored ∧
    (State.setSlot t n v s).host = s.host ∧
    (State.setSlot t n v s).epo = s.epo ∧
    (State.setSlot t n v s).cat = s.cat ∧
    (State.setSlot t n v s).med = s.med ∧
    (State.setSlot t n v s).coh = s.coh ∧
    (State.setSlot t n v s).lnk = s.lnk ∧
    (State.setSlot t n v s).rte = s.rte ∧
    (State.setSlot t n v s).cap = s.cap ∧
    (State.setSlot t n v s).cry = s.cry ∧
    (State.setSlot t n v s).anl = s.anl ∧
    (State.setSlot t n v s).cur = s.cur ∧
    (State.setSlot t n v s).thm = s.thm ∧
    (State.setSlot t n v s).pwr = s.pwr ∧
    (State.setSlot t n v s).pmc = s.pmc ∧
    (State.setSlot t n v s).out = s.out ∧
    (State.setSlot t n v s).net = s.net ∧
    (State.setSlot t n v s).freeCtr = s.freeCtr ∧
    (State.setSlot t n v s).pending = s.pending := by
  repeat' constructor

@[simp] theorem State.setSlot_slot (t n : Nat) (v : Slot) (s : State) : (State.setSlot t n v s).slot t n = v := by
  simp [State.setSlot, State.slot]

@[simp] theorem State.setSensor_frame (t k : Nat) (v : Sensor) (s : State) :
    (State.setSensor t k v s).member = s.member ∧
    (State.setSensor t k v s).now = s.now ∧
    (State.setSensor t k v s).regs = s.regs ∧
    (State.setSensor t k v s).unstored = s.unstored ∧
    (State.setSensor t k v s).host = s.host ∧
    (State.setSensor t k v s).epo = s.epo ∧
    (State.setSensor t k v s).cat = s.cat ∧
    (State.setSensor t k v s).med = s.med ∧
    (State.setSensor t k v s).coh = s.coh ∧
    (State.setSensor t k v s).lnk = s.lnk ∧
    (State.setSensor t k v s).rte = s.rte ∧
    (State.setSensor t k v s).cap = s.cap ∧
    (State.setSensor t k v s).cry = s.cry ∧
    (State.setSensor t k v s).flt = s.flt ∧
    (State.setSensor t k v s).anl = s.anl ∧
    (State.setSensor t k v s).cur = s.cur ∧
    (State.setSensor t k v s).pwr = s.pwr ∧
    (State.setSensor t k v s).pmc = s.pmc ∧
    (State.setSensor t k v s).out = s.out ∧
    (State.setSensor t k v s).net = s.net ∧
    (State.setSensor t k v s).freeCtr = s.freeCtr ∧
    (State.setSensor t k v s).pending = s.pending := by
  repeat' constructor

@[simp] theorem State.setSensor_sensor (t k : Nat) (v : Sensor) (s : State) : (State.setSensor t k v s).sensor t k = v := by
  simp [State.setSensor, State.sensor]

@[simp] theorem State.setImage_frame (t b : Nat) (v : Image) (s : State) :
    (State.setImage t b v s).member = s.member ∧
    (State.setImage t b v s).now = s.now ∧
    (State.setImage t b v s).unstored = s.unstored ∧
    (State.setImage t b v s).host = s.host ∧
    (State.setImage t b v s).epo = s.epo ∧
    (State.setImage t b v s).cat = s.cat ∧
    (State.setImage t b v s).med = s.med ∧
    (State.setImage t b v s).coh = s.coh ∧
    (State.setImage t b v s).lnk = s.lnk ∧
    (State.setImage t b v s).rte = s.rte ∧
    (State.setImage t b v s).cap = s.cap ∧
    (State.setImage t b v s).cry = s.cry ∧
    (State.setImage t b v s).flt = s.flt ∧
    (State.setImage t b v s).anl = s.anl ∧
    (State.setImage t b v s).thm = s.thm ∧
    (State.setImage t b v s).pwr = s.pwr ∧
    (State.setImage t b v s).pmc = s.pmc ∧
    (State.setImage t b v s).out = s.out ∧
    (State.setImage t b v s).net = s.net ∧
    (State.setImage t b v s).freeCtr = s.freeCtr ∧
    (State.setImage t b v s).pending = s.pending := by
  repeat' constructor

@[simp] theorem State.setRunSlot_frame (t b : Nat) (s : State) :
    (State.setRunSlot t b s).member = s.member ∧
    (State.setRunSlot t b s).now = s.now ∧
    (State.setRunSlot t b s).regs = s.regs ∧
    (State.setRunSlot t b s).unstored = s.unstored ∧
    (State.setRunSlot t b s).host = s.host ∧
    (State.setRunSlot t b s).epo = s.epo ∧
    (State.setRunSlot t b s).cat = s.cat ∧
    (State.setRunSlot t b s).med = s.med ∧
    (State.setRunSlot t b s).coh = s.coh ∧
    (State.setRunSlot t b s).lnk = s.lnk ∧
    (State.setRunSlot t b s).rte = s.rte ∧
    (State.setRunSlot t b s).cap = s.cap ∧
    (State.setRunSlot t b s).cry = s.cry ∧
    (State.setRunSlot t b s).flt = s.flt ∧
    (State.setRunSlot t b s).anl = s.anl ∧
    (State.setRunSlot t b s).thm = s.thm ∧
    (State.setRunSlot t b s).pwr = s.pwr ∧
    (State.setRunSlot t b s).pmc = s.pmc ∧
    (State.setRunSlot t b s).out = s.out ∧
    (State.setRunSlot t b s).net = s.net ∧
    (State.setRunSlot t b s).freeCtr = s.freeCtr ∧
    (State.setRunSlot t b s).pending = s.pending := by
  repeat' constructor

@[simp] theorem State.setRights_frame (m k : Nat) (v : BitVec 2) (s : State) :
    (State.setRights m k v s).member = s.member ∧
    (State.setRights m k v s).now = s.now ∧
    (State.setRights m k v s).regs = s.regs ∧
    (State.setRights m k v s).unstored = s.unstored ∧
    (State.setRights m k v s).host = s.host ∧
    (State.setRights m k v s).epo = s.epo ∧
    (State.setRights m k v s).cat = s.cat ∧
    (State.setRights m k v s).med = s.med ∧
    (State.setRights m k v s).coh = s.coh ∧
    (State.setRights m k v s).lnk = s.lnk ∧
    (State.setRights m k v s).rte = s.rte ∧
    (State.setRights m k v s).cap = s.cap ∧
    (State.setRights m k v s).flt = s.flt ∧
    (State.setRights m k v s).anl = s.anl ∧
    (State.setRights m k v s).cur = s.cur ∧
    (State.setRights m k v s).thm = s.thm ∧
    (State.setRights m k v s).pwr = s.pwr ∧
    (State.setRights m k v s).pmc = s.pmc ∧
    (State.setRights m k v s).out = s.out ∧
    (State.setRights m k v s).net = s.net ∧
    (State.setRights m k v s).freeCtr = s.freeCtr ∧
    (State.setRights m k v s).pending = s.pending := by
  repeat' constructor

@[simp] theorem State.setRights_rights (m k : Nat) (v : BitVec 2) (s : State) : (State.setRights m k v s).rights m k = v := by
  simp [State.setRights, State.rights]

@[simp] theorem State.setBucket_frame (t code : Nat) (take : Bool) (suppr : Nat) (s : State) :
    (State.setBucket t code take suppr s).member = s.member ∧
    (State.setBucket t code take suppr s).now = s.now ∧
    (State.setBucket t code take suppr s).regs = s.regs ∧
    (State.setBucket t code take suppr s).unstored = s.unstored ∧
    (State.setBucket t code take suppr s).host = s.host ∧
    (State.setBucket t code take suppr s).epo = s.epo ∧
    (State.setBucket t code take suppr s).cat = s.cat ∧
    (State.setBucket t code take suppr s).med = s.med ∧
    (State.setBucket t code take suppr s).coh = s.coh ∧
    (State.setBucket t code take suppr s).lnk = s.lnk ∧
    (State.setBucket t code take suppr s).rte = s.rte ∧
    (State.setBucket t code take suppr s).cap = s.cap ∧
    (State.setBucket t code take suppr s).cry = s.cry ∧
    (State.setBucket t code take suppr s).flt = s.flt ∧
    (State.setBucket t code take suppr s).cur = s.cur ∧
    (State.setBucket t code take suppr s).thm = s.thm ∧
    (State.setBucket t code take suppr s).pwr = s.pwr ∧
    (State.setBucket t code take suppr s).pmc = s.pmc ∧
    (State.setBucket t code take suppr s).out = s.out ∧
    (State.setBucket t code take suppr s).net = s.net ∧
    (State.setBucket t code take suppr s).freeCtr = s.freeCtr ∧
    (State.setBucket t code take suppr s).pending = s.pending := by
  repeat' constructor

@[simp] theorem State.setPass_frame (t n : Nat) (closed : Bool) (s : State) :
    (State.setPass t n closed s).member = s.member ∧
    (State.setPass t n closed s).now = s.now ∧
    (State.setPass t n closed s).regs = s.regs ∧
    (State.setPass t n closed s).unstored = s.unstored ∧
    (State.setPass t n closed s).host = s.host ∧
    (State.setPass t n closed s).epo = s.epo ∧
    (State.setPass t n closed s).cat = s.cat ∧
    (State.setPass t n closed s).med = s.med ∧
    (State.setPass t n closed s).coh = s.coh ∧
    (State.setPass t n closed s).lnk = s.lnk ∧
    (State.setPass t n closed s).rte = s.rte ∧
    (State.setPass t n closed s).cap = s.cap ∧
    (State.setPass t n closed s).flt = s.flt ∧
    (State.setPass t n closed s).anl = s.anl ∧
    (State.setPass t n closed s).cur = s.cur ∧
    (State.setPass t n closed s).thm = s.thm ∧
    (State.setPass t n closed s).pwr = s.pwr ∧
    (State.setPass t n closed s).pmc = s.pmc ∧
    (State.setPass t n closed s).out = s.out ∧
    (State.setPass t n closed s).net = s.net ∧
    (State.setPass t n closed s).freeCtr = s.freeCtr ∧
    (State.setPass t n closed s).pending = s.pending := by
  repeat' constructor

@[simp] theorem State.putReg_frame (r : Reg) (u i v : Nat) (s : State) :
    (State.putReg r u i v s).member = s.member ∧
    (State.putReg r u i v s).now = s.now ∧
    (State.putReg r u i v s).unstored = s.unstored ∧
    (State.putReg r u i v s).host = s.host ∧
    (State.putReg r u i v s).epo = s.epo ∧
    (State.putReg r u i v s).cat = s.cat ∧
    (State.putReg r u i v s).med = s.med ∧
    (State.putReg r u i v s).coh = s.coh ∧
    (State.putReg r u i v s).lnk = s.lnk ∧
    (State.putReg r u i v s).rte = s.rte ∧
    (State.putReg r u i v s).cap = s.cap ∧
    (State.putReg r u i v s).cry = s.cry ∧
    (State.putReg r u i v s).flt = s.flt ∧
    (State.putReg r u i v s).anl = s.anl ∧
    (State.putReg r u i v s).cur = s.cur ∧
    (State.putReg r u i v s).thm = s.thm ∧
    (State.putReg r u i v s).pwr = s.pwr ∧
    (State.putReg r u i v s).pmc = s.pmc ∧
    (State.putReg r u i v s).out = s.out ∧
    (State.putReg r u i v s).net = s.net ∧
    (State.putReg r u i v s).freeCtr = s.freeCtr ∧
    (State.putReg r u i v s).pending = s.pending := by
  repeat' constructor

@[simp] theorem State.putReg_reg (r : Reg) (u i v : Nat) (s : State) : (State.putReg r u i v s).reg r u i = v % 2 ^ 32 := by
  simp [State.putReg, State.reg]

@[simp] theorem State.putField_frame (r : Reg) (u i hi lo v : Nat) (s : State) :
    (State.putField r u i hi lo v s).member = s.member ∧
    (State.putField r u i hi lo v s).now = s.now ∧
    (State.putField r u i hi lo v s).unstored = s.unstored ∧
    (State.putField r u i hi lo v s).host = s.host ∧
    (State.putField r u i hi lo v s).epo = s.epo ∧
    (State.putField r u i hi lo v s).cat = s.cat ∧
    (State.putField r u i hi lo v s).med = s.med ∧
    (State.putField r u i hi lo v s).coh = s.coh ∧
    (State.putField r u i hi lo v s).lnk = s.lnk ∧
    (State.putField r u i hi lo v s).rte = s.rte ∧
    (State.putField r u i hi lo v s).cap = s.cap ∧
    (State.putField r u i hi lo v s).cry = s.cry ∧
    (State.putField r u i hi lo v s).flt = s.flt ∧
    (State.putField r u i hi lo v s).anl = s.anl ∧
    (State.putField r u i hi lo v s).cur = s.cur ∧
    (State.putField r u i hi lo v s).thm = s.thm ∧
    (State.putField r u i hi lo v s).pwr = s.pwr ∧
    (State.putField r u i hi lo v s).pmc = s.pmc ∧
    (State.putField r u i hi lo v s).out = s.out ∧
    (State.putField r u i hi lo v s).net = s.net ∧
    (State.putField r u i hi lo v s).freeCtr = s.freeCtr ∧
    (State.putField r u i hi lo v s).pending = s.pending := by
  repeat' constructor

@[simp] theorem State.setPin_frame (t line : Nat) (on : Bool) (s : State) :
    (State.setPin t line on s).member = s.member ∧
    (State.setPin t line on s).now = s.now ∧
    (State.setPin t line on s).regs = s.regs ∧
    (State.setPin t line on s).unstored = s.unstored ∧
    (State.setPin t line on s).host = s.host ∧
    (State.setPin t line on s).epo = s.epo ∧
    (State.setPin t line on s).cat = s.cat ∧
    (State.setPin t line on s).med = s.med ∧
    (State.setPin t line on s).lnk = s.lnk ∧
    (State.setPin t line on s).rte = s.rte ∧
    (State.setPin t line on s).cap = s.cap ∧
    (State.setPin t line on s).cry = s.cry ∧
    (State.setPin t line on s).flt = s.flt ∧
    (State.setPin t line on s).anl = s.anl ∧
    (State.setPin t line on s).cur = s.cur ∧
    (State.setPin t line on s).thm = s.thm ∧
    (State.setPin t line on s).pwr = s.pwr ∧
    (State.setPin t line on s).pmc = s.pmc ∧
    (State.setPin t line on s).out = s.out ∧
    (State.setPin t line on s).net = s.net ∧
    (State.setPin t line on s).freeCtr = s.freeCtr ∧
    (State.setPin t line on s).pending = s.pending := by
  repeat' constructor

@[simp] theorem State.setLineRead_frame (line : Nat) (v : Option LineRead) (s : State) :
    (State.setLineRead line v s).member = s.member ∧
    (State.setLineRead line v s).now = s.now ∧
    (State.setLineRead line v s).regs = s.regs ∧
    (State.setLineRead line v s).unstored = s.unstored ∧
    (State.setLineRead line v s).host = s.host ∧
    (State.setLineRead line v s).epo = s.epo ∧
    (State.setLineRead line v s).cat = s.cat ∧
    (State.setLineRead line v s).coh = s.coh ∧
    (State.setLineRead line v s).lnk = s.lnk ∧
    (State.setLineRead line v s).rte = s.rte ∧
    (State.setLineRead line v s).cap = s.cap ∧
    (State.setLineRead line v s).cry = s.cry ∧
    (State.setLineRead line v s).flt = s.flt ∧
    (State.setLineRead line v s).anl = s.anl ∧
    (State.setLineRead line v s).cur = s.cur ∧
    (State.setLineRead line v s).thm = s.thm ∧
    (State.setLineRead line v s).pwr = s.pwr ∧
    (State.setLineRead line v s).pmc = s.pmc ∧
    (State.setLineRead line v s).out = s.out ∧
    (State.setLineRead line v s).net = s.net ∧
    (State.setLineRead line v s).freeCtr = s.freeCtr ∧
    (State.setLineRead line v s).pending = s.pending := by
  repeat' constructor

@[simp] theorem State.setLineRead_lineRead (line : Nat) (v : Option LineRead) (s : State) : (State.setLineRead line v s).lineRead line = v := by
  simp [State.setLineRead, State.lineRead]

end Sys2Proof.Machine
end

