-- ==== Sys2Proof/Laws/Ops.lean ====
section
/-! SUPPORT. What the shared operations of the rows do: units, register writes, commands, replies, slots, and the frames of
steps. -/

namespace Sys2Proof.Machine

set_option Elab.async false

/-! ## Outcomes -/

theorem yields_next (t : State) (p : State → Prop) (h : p t) : Yields (.next t) p := ⟨t, rfl, h⟩

@[simp] theorem yields_next_iff (t : State) (p : State → Prop) : Yields (.next t) p ↔ p t := by
  constructor
  · rintro ⟨u, h, hp⟩
    injection h with h
    exact h ▸ hp
  · exact yields_next t p

theorem keeps_next (s t : State) (fs : List Field) (h : ChangesOnly fs s t) : Keeps (.next t) fs s := by
  intro u hu
  injection hu with hu
  exact hu ▸ h

/-- A step on a unit that exists is the effect; one on a unit that does not exist changes nothing. -/
@[simp] theorem withUnit_true (f : State → State) (s : State) : withUnit true f s = .next (f s) := rfl

@[simp] theorem withUnit_false (f : State → State) (s : State) : withUnit false f s = .next s := rfl

theorem withUnit_of (b : Bool) (f : State → State) (s : State) (h : b = true) : withUnit b f s = .next (f s) := by
  rw [h]; rfl

/-- Whatever `withUnit` answers is the effect of `f`, or the state as it was. -/
theorem withUnit_next (b : Bool) (f : State → State) (s t : State) (h : withUnit b f s = .next t) :
    (b = true ∧ t = f s) ∨ (b = false ∧ t = s) := by
  cases b <;> simp_all

/-! ## Register writes -/

@[simp] theorem commitStore_regs (s : State) : s.commitStore.regs = s.regs := rfl
@[simp] theorem commitStore_host (s : State) : s.commitStore.host = s.host := rfl
@[simp] theorem commitStore_lnk (s : State) : s.commitStore.lnk = s.lnk := rfl
@[simp] theorem commitStore_unstored (s : State) : s.commitStore.unstored = [] := rfl
@[simp] theorem commitStore_reg (r : Reg) (u i : Nat) (s : State) : s.commitStore.reg r u i = s.reg r u i := rfl
@[simp] theorem commitStore_field (r : Reg) (u i hi lo : Nat) (s : State) :
    s.commitStore.field r u i hi lo = s.field r u i hi lo := rfl
@[simp] theorem commitStore_sq (p n : Nat) (s : State) : s.commitStore.sq p n = s.sq p n := rfl
@[simp] theorem commitStore_cq (p n : Nat) (s : State) : s.commitStore.cq p n = s.cq p n := rfl
@[simp] theorem commitStore_port (p : Nat) (s : State) : s.commitStore.port p = s.port p := rfl
@[simp] theorem commitStore_win (p w : Nat) (s : State) : s.commitStore.win p w = s.win p w := rfl
@[simp] theorem commitStore_sport (t p : Nat) (s : State) : s.commitStore.sport t p = s.sport t p := rfl
@[simp] theorem commitStore_hasTile (t : Nat) (s : State) : s.commitStore.hasTile t = s.hasTile t := rfl
@[simp] theorem commitStore_hasPort (p : Nat) (s : State) : s.commitStore.hasPort p = s.hasPort p := rfl

/-- A BAR0 write on a port that takes it is its effect, once what earlier writes left has been stored. -/
theorem bar0_open (p : Nat) (f : State → State) (s : State) (h : s.takesWrite p = true) :
    s.bar0 p f = .next (f s.commitStore) := by
  simp [State.bar0, h]

theorem tileWrite_open (p t : Nat) (ok : Bool) (f : State → State) (s : State) (h : s.takesWrite p = true)
    (ht : s.hasTile t = true) (hk : ok = true) : s.tileWrite p t ok f = .next (f s.commitStore) := by
  simp [State.tileWrite, h, ht, hk]

/-! ## Operations as a whole -/

/-- An operation that has nothing to wait for, and meets no forged line, takes effect; the fault events it has met are then raised, and
the undo log may ask for a close. -/
theorem whole_runs (f : State → State) (s : State) (hf : (f s).cat.forged = none) (hs : (f s).cat.stuck = false) :
    s.whole f = (f s).tellFaults.undoTriggers := by
  simp [State.whole, hf, hs]

/-- An operation that must wait only asks the stager for room. -/
theorem whole_waits (f : State → State) (s : State) (hf : (f s).cat.forged = none) (hs : (f s).cat.stuck = true) :
    s.whole f = (f s).asking s := by
  simp [State.whole, hf, hs]

/-! ## Commands -/

/-- A ring command leaves the Curator queue as its entry completes, not as it starts. -/
@[simp] theorem leaveHead_ring (opc p q i : Nat) (tag : BitVec 16) (r v : Bool) (s : State) :
    s.leaveHead opc ⟨.ring p q i, tag, r, v⟩ = s := rfl

/-- A command that is no management command does not enter the Curator queue. -/
@[simp] theorem leaveHead_low (opc : Nat) (c : Ctx) (s : State) (h : opc < 0x40) : s.leaveHead opc c = s := by
  unfold State.leaveHead
  split
  · rw [if_neg (by simp; omega)]
  · rfl

/-- An accepted command runs its body, once it has left the Curator queue. -/
theorem command_accepted (opc src : Nat) (c : Ctx) (ps : List Param) (body : State → State) (s : State)
    (h : s.accepts opc c ps = true) : s.command opc src c ps body = body (s.leaveHead opc c) := by
  simp only [State.accepts, Bool.and_eq_true, Bool.not_eq_true', Option.isNone_iff_eq_none] at h
  simp [State.command, h.1.1, h.1.2, h.2]

/-- A command that is not there to run does nothing. -/
theorem command_absent (opc src : Nat) (c : Ctx) (ps : List Param) (body : State → State) (s : State)
    (ha : s.arrives opc c ps = false) (h : s.runs opc c ps = false) : s.command opc src c ps body = s := by
  simp [State.command, ha, h]

/-- A command that a shared check refuses answers that and does nothing else. -/
theorem command_refused (opc src : Nat) (c : Ctx) (ps : List Param) (body : State → State) (s : State) (st : Status)
    (ha : s.arrives opc c ps = false) (h : s.runs opc c ps = true) (hp : s.precheck opc c ps = some st) :
    s.command opc src c ps body = (s.leaveHead opc c).reply src c st 0 := by
  simp [State.command, ha, h, hp]

/-- A management command that arrives on the sideband enters the Curator queue. -/
theorem command_arrives (opc src : Nat) (c : Ctx) (ps : List Param) (body : State → State) (s : State)
    (h : s.arrives opc c ps = true) : s.command opc src c ps body = s.enqueue opc c ps := by
  simp [State.command, h]

/-- The reply on the sideband goes out at once. -/
theorem reply_sideband (src : Nat) (c : Ctx) (st : Status) (result : Nat) (s : State) (h : c.path = .sideband) :
    s.reply src c st result = s.emit (.sideband c.tag (BitVec.ofNat 8 st.cls) (BitVec.ofNat 8 st.code)
      (BitVec.ofNat 64 result) []) := by
  simp [State.reply, State.replyWith, h]

/-- The reply to a ring command is that of its entry. -/
theorem reply_ring (src : Nat) (c : Ctx) (st : Status) (result p q i : Nat) (k : Cmd) (s : State)
    (h : c.path = .ring p q i) (hk : s.findCmd p q i = some k) :
    s.reply src c st result = s.answer src k st result := by
  simp [State.reply, State.replyWith, h, hk]

/-! ## Frames -/

theorem changesOnly_refl (fs : List Field) (s : State) : ChangesOnly fs s s := by
  intro f _
  cases f <;> rfl

theorem changesOnly_trans (fs : List Field) (s t u : State) (h : ChangesOnly fs s t) (g : ChangesOnly fs t u) :
    ChangesOnly fs s u := by
  intro f hf
  have h1 := h f hf
  have h2 := g f hf
  cases f <;> simp only [Field.same] at h1 h2 ⊢ <;> rw [h2, h1]

theorem changesOnly_mono (fs gs : List Field) (s t : State) (h : ChangesOnly fs s t) (hs : ∀ f ∈ fs, f ∈ gs) :
    ChangesOnly gs s t :=
  fun f hf => h f (fun hm => hf (hs f hm))

end Sys2Proof.Machine
end

