-- ==== Sys2Proof/Machine/Balls.lean ====
section
/-! DEFINITION. The package: the balls by their places (R509 to R518, R520), what each supply is rated at (R525, R526, R529), and
the level of a ball that the part does not drive (R477, R522). -/

namespace Sys2Proof.Machine

/-! ## Names -/

/-- The supply nets of the package (R519, R525). -/
inductive Supply where
  | vss | vddCore | vddSram | vddaPort09 | vddaPort12 | vddqDdr | vddqMed | vddaHost09 | vddaHost12 | vaon | vddIo
  deriving DecidableEq, Repr

/-- The signals (R149, R359, R512 to R518). `pos` is the true leg of a differential pair; `x` is 0 for a DDR5 subchannel A. -/
inductive Signal where
  | lane (l : Nat) (tx pos : Bool)
  | mcCk (c : Nat) (pos : Bool) | mcCa (c i : Nat) | mcDq (c i : Nat) | mcDqs (c : Nat) (pos : Bool) | mcCsN (c i : Nat)
  | mcAlertN (c : Nat) | mcRstN (c : Nat)
  | ddrDq (k x i : Nat) | ddrCb (k x i : Nat) | ddrDqs (k x d : Nat) (pos : Bool) | ddrCk (k x : Nat) (pos : Bool)
  | ddrCsN (k x i : Nat) | ddrCa (k x i : Nat) | ddrResetN (k : Nat) | ddrAlertN (k : Nat)
  | hpTx (n : Nat) (pos : Bool) | hpRx (n : Nat) (pos : Bool) | hpRefclk (pos : Bool) | hpPerstN | hpRcal
  | stref (pos : Bool) | ptRcal | mcZq | ddrZq | slZq (k : Nat) | spiClk | spiCsN | spiIo (i : Nat)
  | seqEn (n : Nat) | seqMon (m : Nat) | supplyOk | pwrOnReqN | pwrOffReqN | resetN
  | strapTiles (i : Nat) | strapHostmode | strapBarmode | strapCurator | strapBoot | strapProfile | strapSeqprog
  | strapSpare (i : Nat) | smbClk | smbDat | smbAlertN | aonClk | tck | tms | tdi | tdo | trstN
  deriving DecidableEq, Repr

/-- What a position holds: a supply, a signal, of a tile or of the part, no connection, or no ball (R509, R517, R520). -/
inductive Ball where
  | supply (v : Supply)
  | tile (t : Nat) (g : Signal)
  | part (g : Signal)
  | open_
  | absent
  deriving DecidableEq, Repr

/-! ## The template of a tile field (R511 to R516) -/

/-- A position of the template: a supply or a signal. -/
inductive Cell where
  | supply (v : Supply)
  | signal (g : Signal)
  deriving DecidableEq, Repr

/-- The rail band (R516). -/
def railCell (i j : Nat) : Cell :=
  if (i + j) % 2 = 0 ∨ i + j ≤ 9 then .supply .vss else if j ≤ 18 then .supply .vddCore else .supply .vddSram

/-- The stream band: row `a` and position `b` of lane `l` (R512). -/
def streamCell (l a b : Nat) : Cell :=
  match a, b with
  | 2, 1 => .signal (.lane l true true)
  | 2, 2 => .signal (.lane l true false)
  | 3, 3 => .supply .vddaPort12
  | 4, 1 => .signal (.lane l false true)
  | 4, 2 => .signal (.lane l false false)
  | 6, 1 | 6, 2 => .supply .vddaPort09
  | _, _ => .supply .vss

/-- The media band: row `a` and position `b` of channel `c` (R513). -/
def mediaCell (c a b : Nat) : Cell :=
  match a, b with
  | 1, 1 => .signal (.mcCk c true)
  | 1, 2 => .signal (.mcCk c false)
  | 1, 4 => .signal (.mcCa c 0)
  | 1, 5 => .signal (.mcCa c 1)
  | 2, 5 => .signal (.mcDqs c true)
  | 3, 5 => .signal (.mcDqs c false)
  | 3, 6 => .supply .vddqMed
  | 4, 5 => .signal (.mcAlertN c)
  | 4, 6 => .signal (.mcRstN c)
  | 1, _ | 2, 6 => .supply .vss
  | 2, b => .signal (.mcDq c (b - 1))
  | 3, b => .signal (.mcDq c (b + 3))
  | _, b => .signal (.mcCsN c (b - 1))

/-- The DDR5 band: row `a` and position `b` of subchannel `x` of channel `k` (R514). -/
def ddrCell (k x a b : Nat) : Cell :=
  if a ≤ 5 then
    let d := 2 * (a - 1) + (b - 1) / 6
    let q := (b - 1) % 6
    if q = 4 then .signal (.ddrDqs k x d true)
    else if q = 5 then .signal (.ddrDqs k x d false)
    else if d ≤ 7 then .signal (.ddrDq k x (4 * d + q)) else .signal (.ddrCb k x (4 * (d - 8) + q))
  else if a = 6 then
    match b with
    | 1 => .signal (.ddrCk k x true)
    | 2 => .signal (.ddrCk k x false)
    | 3 | 4 => .signal (.ddrCsN k x (b - 3))
    | b => .signal (.ddrCa k x (b - 5))
  else if a = 7 then
    if b ≤ 6 then .signal (.ddrCa k x (b + 7))
    else if b = 7 then (if x = 0 then .signal (.ddrResetN k) else .supply .vss)
    else if b = 8 then (if x = 0 then .signal (.ddrAlertN k) else .supply .vss)
    else if b % 2 = 0 then .supply .vddqDdr else .supply .vss
  else if b % 2 = 1 then .supply .vddqDdr else .supply .vss

/-- Row 50 of the service band, from position 1 (R515). -/
def serviceRow : List Cell :=
  [.signal (.hpRefclk true), .signal (.hpRefclk false), .supply .vss, .signal .hpPerstN, .signal .hpRcal, .supply .vss,
   .signal (.stref true), .signal (.stref false), .supply .vss, .signal .ptRcal, .signal .mcZq, .signal .ddrZq,
   .signal (.slZq 0), .signal (.slZq 1), .signal (.slZq 2), .supply .vss, .signal .spiClk, .signal .spiCsN,
   .signal (.spiIo 0), .signal (.spiIo 1), .signal (.spiIo 2), .signal (.spiIo 3), .supply .vddaHost12, .supply .vddaHost12]

/-- The service band (R515). -/
def serviceCell (i j : Nat) : Cell :=
  let n := (j - 1) / 3
  let b := (j - 1) % 3
  match i with
  | 47 => if b = 2 then .supply .vss else .signal (.hpTx n (b == 0))
  | 48 => if b = 2 then .supply .vddaHost09 else .supply .vss
  | 49 => if b = 2 then .supply .vss else .signal (.hpRx n (b == 0))
  | 50 => serviceRow.getD (j - 1) (.supply .vss)
  | _ => if j % 2 = 0 then .supply .vss else if j ≤ 11 then .supply .vddCore else .supply .vddqMed

/-- The template, by local row `i` (1 to 51) and local column `j` (1 to 24) (R511). -/
def fieldCell (i j : Nat) : Cell :=
  if i ≤ 8 then railCell i j
  else if i ≤ 14 then streamCell ((j - 1) / 3) (i - 8) ((j - 1) % 3 + 1)
  else if i ≤ 30 then mediaCell (4 * ((i - 15) / 4) + (j - 1) / 6) ((i - 15) % 4 + 1) ((j - 1) % 6 + 1)
  else if i ≤ 46 then ddrCell ((j - 1) / 12) ((i - 31) / 8) ((i - 31) % 8 + 1) ((j - 1) % 12 + 1)
  else serviceCell i j

/-- Whether a position of the template belongs to a host port or a boot flash (R517). -/
def Cell.hostOnly : Cell → Bool
  | .supply .vddaHost09 | .supply .vddaHost12 => true
  | .supply _ => false
  | .signal g =>
    match g with
    | .hpTx _ _ | .hpRx _ _ | .hpRefclk _ | .hpPerstN | .hpRcal | .spiClk | .spiCsN | .spiIo _ => true
    | _ => false

/-- The saddle links that a member of `n` tiles uses (R25). -/
def linksOf (n : Nat) : Nat := if n = 2 then 1 else if n = 4 then 2 else 3

/-- A position of a populated tile's field; the balls of links that the member does not use are no-connect (R517). -/
def tileBall (tiles t : Nat) (v : Cell) : Ball :=
  if 2 ≤ t ∧ v.hostOnly then .open_
  else
    match v with
    | .supply x => .supply x
    | .signal (.slZq k) => if k < linksOf tiles then .tile t (.slZq k) else .open_
    | .signal g => .tile t g

/-! ## The spine (R518) -/

/-- A row of part-wide balls. -/
def spineRow (r : Nat) : List Ball :=
  match r with
  | 51 => [.part .supplyOk, .part .pwrOnReqN, .part .pwrOffReqN, .part .resetN, .supply .vss, .supply .vaon]
  | 52 => [.part (.strapTiles 0), .part (.strapTiles 1), .part .strapHostmode, .part .strapBarmode, .part .strapCurator,
      .supply .vss]
  | 53 => [.part .strapBoot, .part .strapProfile, .part .strapSeqprog, .part (.strapSpare 0), .part (.strapSpare 1),
      .supply .vss]
  | 54 => [.part .smbClk, .part .smbDat, .part .smbAlertN, .supply .vss, .part .aonClk, .supply .vss]
  | 55 => [.part .tck, .part .tms, .part .tdi, .part .tdo, .part .trstN, .supply .vddIo]
  | _ => [.supply .vaon, .supply .vss, .supply .vddIo, .supply .vss, .supply .vddCore, .supply .vss]

/-- A position of the spine; `c` counts from 0 at column 49. -/
def spineBall (r c : Nat) : Ball :=
  if r ≤ 34 ∨ 69 ≤ r then
    if (r + c + 49) % 2 = 0 then .supply .vss
    else if c = 2 ∨ c = 3 then .supply .vddSram else .supply .vddCore
  else if r ≤ 42 then
    if c < 3 then .part (.seqEn (3 * (r - 35) + c)) else if c = 4 then .supply .vaon else .supply .vss
  else if r ≤ 50 then
    if c < 4 then .part (.seqMon (4 * (r - 43) + c)) else .supply .vss
  else (spineRow r).getD c .absent

/-! ## The array (R509, R510, R520) -/

/-- The tile whose field a position lies in, and its local column; none in the spine. -/
def fieldOf (r c : Nat) : Option (Nat × Nat) :=
  let low := if r ≤ 51 then 0 else 1
  if c ≤ 24 then some (low, c)
  else if c ≤ 48 then some (2 + low, c - 24)
  else if c ≤ 54 then none
  else if c ≤ 78 then some (4 + low, c - 54)
  else some (6 + low, c - 78)

/-- The ball at row `r` and column `c` (1 to 102) of a member of `tiles` tiles. -/
def ballAt (tiles r c : Nat) : Ball :=
  if r + c ≤ 9 then .absent
  else
    match fieldOf r c with
    | none => spineBall r (c - 49)
    | some (t, j) =>
      if tiles ≤ t then .open_ else tileBall tiles t (fieldCell (if r ≤ 51 then r else 103 - r) j)

/-! ## Supplies (R525, R526, R529) -/

/-- Nominal voltage in mV and tolerance in 0.01 %, and the maximum current in mA, of each tile, of each of tiles 0 and 1, or of
the part (R525). -/
structure Rating where
  mv  : Nat
  tol : Nat
  perTile : Nat := 0
  perHost : Nat := 0
  perPart : Nat := 0
  deriving DecidableEq, Repr

def Supply.rating : Supply → Rating
  | .vss => { mv := 0, tol := 0 }
  | .vddCore => { mv := 750, tol := 300, perTile := 29400 }
  | .vddSram => { mv := 800, tol := 300, perTile := 3750 }
  | .vddaPort09 => { mv := 900, tol := 300, perTile := 2800 }
  | .vddaPort12 => { mv := 1200, tol := 300, perTile := 500 }
  | .vddqDdr => { mv := 1100, tol := 300, perTile := 1800 }
  | .vddqMed => { mv := 1200, tol := 300, perTile := 2900 }
  | .vddaHost09 => { mv := 900, tol := 300, perHost := 2800 }
  | .vddaHost12 => { mv := 1200, tol := 300, perHost := 500 }
  | .vaon => { mv := 1800, tol := 500, perPart := 500 }
  | .vddIo => { mv := 1800, tol := 500, perPart := 100 }

/-- The order in which the rails rise, and in reverse fall (R526). -/
def railOrder : List (List Supply) :=
  [[.vaon], [.vddIo], [.vddCore], [.vddSram], [.vddaPort09, .vddaHost09], [.vddaPort12, .vddaHost12], [.vddqDdr], [.vddqMed]]

/-- The power of a member of `tiles` tiles with each rail at its maximum current, in µW (R529). -/
def maxRails (tiles : Nat) : Nat :=
  (railOrder.flatten.map (fun v =>
    v.rating.mv * (tiles * v.rating.perTile + 2 * v.rating.perHost + v.rating.perPart))).sum

/-! ## Levels of balls that are not driven (R477, R522) -/

/-- The level that a board resistor gives a high-impedance output; none of the others has one. -/
def Signal.boardLevel : Signal → Option Bool
  | .seqEn _ | .mcRstN _ | .ddrResetN _ => some false
  | .mcCsN _ _ | .ddrCsN _ _ _ | .smbClk | .smbDat | .smbAlertN | .spiCsN | .tdo => some true
  | _ => none

/-- Whether a tile's balls are high-impedance: the tile is absent, unpowered or in reset. -/
def State.tileOff (s : State) (t : Nat) : Bool :=
  !s.hasTile t || s.pwr.st != .up || !s.pwr.islands || s.flt.resetting.any (fun e => e.1 == t)

/-- Whether an output ball is high-impedance. VDD_IO, which an enable of the sequencer switches, is taken as absent while none is
driven high (DESIGN CHOICE, assumption 98). -/
def State.highZ (s : State) : Ball → Bool
  | .tile _ .spiCsN => !s.pwr.vaonOk
  | .tile t _ => s.tileOff t
  | .part .tdo => !s.pwr.vaonOk || s.pwr.en == 0
  | .part _ => !s.pwr.vaonOk
  | .supply _ | .open_ | .absent => true

/-- The level of a sequencer enable, or of another output that is not driven, on a board built to R522. -/
def State.level (s : State) (b : Ball) : Option Bool :=
  match b with
  | .part (.seqEn n) => some (s.pwr.vaonOk && s.pwr.en.getLsbD n)
  | .tile _ g | .part g => if s.highZ b then g.boardLevel else none
  | .supply _ | .open_ | .absent => none

end Sys2Proof.Machine
end

