-- ==== Sys2Proof/WellFormed.lean ====
section
/-! DEFINITION. Well-formed commands: every unit, ring, line or entry a command names lies in the range the manual
gives it on the largest member (R21, R22, R40, R60). -/

namespace Sys2Proof

/-- What an operand numbers. -/
inductive Kind where
  | port | tile | ring | window | vector | entry | stream | lane | channel | target | line | page | folio | folioSlot
  | route | region | kid | curator | monitor | pass | saddle | ddr | sub | way | source | slot | tamper | sensor
  | keyWord | counter
  deriving DecidableEq, Repr

/-- How many there are of a kind. -/
def Kind.bound : Kind → Nat
  | .port => 2
  | .tile => 8
  | .ring => 64
  | .window => 4
  | .vector => 2048
  | .entry => 4096
  | .stream => 8
  | .lane => 8
  | .channel => 16
  | .target => 4
  | .line => 2 ^ 42
  | .page => 2 ^ 28
  | .folio => 2 ^ 33
  | .folioSlot => 3
  | .route => 1024
  | .region => 64
  | .kid => 256
  | .curator => 2
  | .monitor => 32
  | .pass => 122
  | .saddle => 3
  | .ddr => 2
  | .sub => 4
  | .way => 16
  | .source => 4096
  | .slot => 32
  | .tamper => 5
  | .sensor => 8
  | .keyWord => 8
  | .counter => 64

/-- The units a pass reset names. -/
def PassReset.operands : PassReset → List (Kind × Nat)
  | .curator t _ => [(.curator, t)]
  | .hostPort p _ => [(.port, p)]
  | .media t c => [(.tile, t), (.channel, c)]
  | .ddr t k => [(.tile, t), (.ddr, k)]
  | .port t => [(.tile, t)]
  | .saddle t k => [(.tile, t), (.saddle, k)]

/-- The numbered operands of a command. -/
def Instr.operands : Instr → List (Kind × Nat)
  | .identify _ _ _ _ _ => []
  | .getFeature _ _ => []
  | .setFeature _ _ _ => []
  | .readX _ _ _ _ _ _ => []
  | .writeX _ _ _ _ _ _ _ => []
  | .copy _ _ _ _ _ => []
  | .zeroRange _ _ _ _ => []
  | .discard _ _ _ => []
  | .flushRange _ _ _ => []
  | .invalRange _ _ _ => []
  | .epochClose _ _ => []
  | .epochQuery _ _ => []
  | .routeDefine _ _ _ _ _ _ _ _ _ => []
  | .routeArm _ _ _ _ _ => []
  | .routeRetire _ _ _ _ => []
  | .pinLines _ _ _ _ _ => []
  | .unpinLines _ _ _ _ => []
  | .captureOpen _ _ _ _ _ _ _ _ => []
  | .captureClose _ _ _ _ _ => []
  | .captureDrain _ _ _ _ => []
  | .getLog _ _ _ _ _ _ => []
  | .clearLog _ _ _ _ _ => []
  | .sensorRead _ _ _ => []
  | .faultInject _ _ _ _ _ _ _ => []
  | .powerState _ _ => []
  | .fwStage _ _ _ _ _ _ _ => []
  | .fwActivate _ _ => []
  | .attest _ _ _ _ _ => []
  | .keyCreate _ _ _ _ => []
  | .keyRetire _ _ _ _ => []
  | .rightsSet _ _ _ _ => []
  | .spareStatus _ _ _ _ => []
  | .format _ _ _ _ => []
  | .mediaProfile _ _ _ _ _ _ _ _ => []
  | .lifecycle port _ => [(.port, port)]
  | .sensorDisable port _ => [(.port, port)]
  | .roleSwap port => [(.port, port)]
  | .ownerSet port _ => [(.port, port)]
  | .rootRevoke port _ => [(.port, port)]
  | .mbClaim port => [(.port, port)]
  | .mbRelease port => [(.port, port)]
  | .mbIdleTimeout => []
  | .registerWrite port _ _ _ => [(.port, port)]
  | .sqDoorbell port sq _ => [(.port, port), (.ring, sq)]
  | .cqDoorbell port cq _ => [(.port, port), (.ring, cq)]
  | .sqCfgWrite port sq _ => [(.port, port), (.ring, sq)]
  | .cqCfgWrite port cq _ => [(.port, port), (.ring, cq)]
  | .fetchResume port => [(.port, port)]
  | .sqFetchIssue port => [(.port, port)]
  | .sqFetchReturn port sq first _ => [(.port, port), (.ring, sq), (.entry, first)]
  | .fencedCommandStart port sq => [(.port, port), (.ring, sq)]
  | .curatorCommandExecute => []
  | .completionCollect port _ => [(.port, port)]
  | .cqCoalTimer port cq => [(.port, port), (.ring, cq)]
  | .msixPendingSend port vector => [(.port, port), (.vector, vector)]
  | .xwWinCfgWrite port win _ => [(.port, port), (.window, win)]
  | .windowDrainEnd port win => [(.port, port), (.window, win)]
  | .dwAptWrite port _ => [(.port, port)]
  | .dwRead port _ _ _ => [(.port, port)]
  | .dwStore port _ _ _ => [(.port, port)]
  | .epoCtrlClose port => [(.port, port)]
  | .autoCloseExpiry => []
  | .sealArrive tile => [(.tile, tile)]
  | .sealReport tile => [(.tile, tile)]
  | .sealWalkStep tile => [(.tile, tile)]
  | .markerWrite tile => [(.tile, tile)]
  | .abortStart => []
  | .rollbackEnd => []
  | .coordinatorTakeover => []
  | .coordinatorTakeback => []
  | .partTimeFailover => []
  | .stripeProgram tile spn _ _ => [(.tile, tile), (.page, spn)]
  | .stripeProgramDone tile spn => [(.tile, tile), (.page, spn)]
  | .coolingSweep tile => [(.tile, tile)]
  | .folioMerge tile folio spn slot => [(.tile, tile), (.folio, folio), (.page, spn), (.folioSlot, slot)]
  | .weedRelocate tile _ _ spn => [(.tile, tile), (.page, spn)]
  | .relocVerifyDone tile _ => [(.tile, tile)]
  | .relocEraseDone tile _ => [(.tile, tile)]
  | .lostScanDone tile => [(.tile, tile)]
  | .rebuildScan tile => [(.tile, tile)]
  | .slotGrant tile ch => [(.tile, tile), (.channel, ch)]
  | .phaseStart tile => [(.tile, tile)]
  | .phaseStatusCheck tile _ => [(.tile, tile)]
  | .stretchExpiry tile ch target _ _ => [(.tile, tile), (.channel, ch), (.target, target)]
  | .lineReadDispatch tile line => [(.tile, tile), (.line, line)]
  | .codewordDecoded tile line ch _ _ _ => [(.tile, tile), (.line, line), (.channel, ch)]
  | .rescueHoldTimeout tile ch line => [(.tile, tile), (.channel, ch), (.line, line)]
  | .mediaTempPoll tile ch target _ => [(.tile, tile), (.channel, ch), (.target, target)]
  | .mediaAlert tile ch target _ _ => [(.tile, tile), (.channel, ch), (.target, target)]
  | .calibrationRead tile ch _ _ => [(.tile, tile), (.channel, ch)]
  | .mediaScrubRead tile ch _ spn _ _ => [(.tile, tile), (.channel, ch), (.page, spn)]
  | .ddrScrubStep tile _ _ => [(.tile, tile)]
  | .sramScrubStep tile _ way _ _ => [(.tile, tile), (.way, way)]
  | .reqReadS src line _ peers => [(.tile, src), (.line, line)] ++ peers.map (Kind.tile, ·)
  | .reqReadX src line _ peers => [(.tile, src), (.line, line)] ++ peers.map (Kind.tile, ·)
  | .upgrade src line _ peers => [(.tile, src), (.line, line)] ++ peers.map (Kind.tile, ·)
  | .claim src line _ peers => [(.tile, src), (.line, line)] ++ peers.map (Kind.tile, ·)
  | .evict src line _ => [(.tile, src), (.line, line)]
  | .writeback src line _ => [(.tile, src), (.line, line)]
  | .snpS dst line => [(.tile, dst), (.line, line)]
  | .snpI dst line => [(.tile, dst), (.line, line)]
  | .snpF dst line => [(.tile, dst), (.line, line)]
  | .data dst line _ _ => [(.tile, dst), (.line, line)]
  | .grant dst line => [(.tile, dst), (.line, line)]
  | .nack dst line => [(.tile, dst), (.line, line)]
  | .nackResend dst line => [(.tile, dst), (.line, line)]
  | .ticket dst line _ => [(.tile, dst), (.line, line)]
  | .evictAck dst line => [(.tile, dst), (.line, line)]
  | .wbAck dst line => [(.tile, dst), (.line, line)]
  | .ackNp src line => [(.tile, src), (.line, line)]
  | .ackI src line _ _ => [(.tile, src), (.line, line)]
  | .ackD src line _ => [(.tile, src), (.line, line)]
  | .gone src line => [(.tile, src), (.line, line)]
  | .done src line => [(.tile, src), (.line, line)]
  | .victimEvict tile line => [(.tile, tile), (.line, line)]
  | .ncLockWrite port tile _ => [(.port, port), (.tile, tile)]
  | .pinnedRefill tile line => [(.tile, tile), (.line, line)]
  | .landingReeval tile _ => [(.tile, tile)]
  | .slkBondWrite port tile _ => [(.port, port), (.tile, tile)]
  | .slkPortCfgWrite port tile sp _ => [(.port, port), (.tile, tile), (.stream, sp)]
  | .slkGcmKeyWrite port tile sp i _ => [(.port, port), (.tile, tile), (.stream, sp), (.keyWord, i)]
  | .rekey port tile sp => [(.port, port), (.tile, tile), (.stream, sp)]
  | .portResetDone tile sp => [(.tile, tile), (.stream, sp)]
  | .signalDetect tile sp => [(.tile, tile), (.stream, sp)]
  | .eqFrame tile sp lane _ _ _ => [(.tile, tile), (.stream, sp), (.lane, lane)]
  | .eqTimeout tile sp => [(.tile, tile), (.stream, sp)]
  | .lockMarker tile sp lane _ _ => [(.tile, tile), (.stream, sp), (.lane, lane)]
  | .lockTimeout tile sp => [(.tile, tile), (.stream, sp)]
  | .config tile sp _ => [(.tile, tile), (.stream, sp)]
  | .configAck tile sp _ => [(.tile, tile), (.stream, sp)]
  | .configRepeat tile sp => [(.tile, tile), (.stream, sp)]
  | .configTimeout tile sp => [(.tile, tile), (.stream, sp)]
  | .retrain tile sp _ => [(.tile, tile), (.stream, sp)]
  | .idle tile sp _ => [(.tile, tile), (.stream, sp)]
  | .req tile sp _ _ => [(.tile, tile), (.stream, sp)]
  | .cap tile sp _ => [(.tile, tile), (.stream, sp)]
  | .tag tile sp _ => [(.tile, tile), (.stream, sp)]
  | .rekeyReceive tile sp _ => [(.tile, tile), (.stream, sp)]
  | .retrainReceive tile sp _ => [(.tile, tile), (.stream, sp)]
  | .badFlit tile sp _ => [(.tile, tile), (.stream, sp)]
  | .tagTimeout tile sp => [(.tile, tile), (.stream, sp)]
  | .rekeyTimeout tile sp => [(.tile, tile), (.stream, sp)]
  | .gcmGroupClose tile sp => [(.tile, tile), (.stream, sp)]
  | .dataFlitSend tile sp _ => [(.tile, tile), (.stream, sp)]
  | .switchTakeEffect tile sp => [(.tile, tile), (.stream, sp)]
  | .prefetchRead tile sp _ => [(.tile, tile), (.stream, sp)]
  | .lineArrive tile sp line _ => [(.tile, tile), (.stream, sp), (.line, line)]
  | .retireComplete tile route => [(.tile, tile), (.route, route)]
  | .ingestRead tile sp _ => [(.tile, tile), (.stream, sp)]
  | .recordCommit tile sp region => [(.tile, tile), (.stream, sp), (.region, region)]
  | .homeStatePublish home => [(.tile, home)]
  | .passReset r _ _ => r.operands
  | .passReopen tile pass => [(.tile, tile), (.pass, pass)]
  | .saddleFrame tile k _ => [(.tile, tile), (.saddle, k)]
  | .ddrBurstRead tile sub _ _ _ _ => [(.tile, tile), (.sub, sub)]
  | .tractFirstWrite tile _ => [(.tile, tile)]
  | .minorOverflow tile _ => [(.tile, tile)]
  | .counterEvict tile _ => [(.tile, tile)]
  | .ddrRekey port tile => [(.port, port), (.tile, tile)]
  | .ddrRekeyDone tile => [(.tile, tile)]
  | .keyRotationDone kid => [(.kid, kid)]
  | .ddrTempPoll tile k _ _ => [(.tile, tile), (.ddr, k)]
  | .haltBroadcastArrive tile => [(.tile, tile)]
  | .tamperTrip tile sensor _ => [(.tile, tile), (.tamper, sensor)]
  | .faultWindowEnd tile source => [(.tile, tile), (.source, source)]
  | .fltSrcCfgWrite port tile source _ => [(.port, port), (.tile, tile), (.source, source)]
  | .escalationCancel _ tile slot => [(.tile, tile), (.slot, slot)]
  | .escalationNow _ tile slot => [(.tile, tile), (.slot, slot)]
  | .escalationExpiry tile slot => [(.tile, tile), (.slot, slot)]
  | .tileReadyTimeout tile => [(.tile, tile)]
  | .anlRdLoad port _ => [(.port, port)]
  | .annalsMirror cur tile _ => [(.curator, cur), (.tile, tile)]
  | .spareSample => []
  | .sensorHistorySample => []
  | .heartbeat cur => [(.curator, cur)]
  | .curatorTakeover _ => []
  | .standbySynced => []
  | .sensorConvert tile sensor _ => [(.tile, tile), (.sensor, sensor)]
  | .powerdownWaitEnd => []
  | .enable => []
  | .disable => []
  | .wait => []
  | .check => []
  | .jumpStep => []
  | .seqEnd => []
  | .monitorScan monitor _ => [(.monitor, monitor)]
  | .holdOffExpiry => []
  | .pwrOffReq => []
  | .pwrOnReq => []
  | .supplyOkFall => []
  | .supplyOkReturn => []
  | .vaonFall => []
  | .por => []
  | .coldReset => []
  | .warmReset port _ => [(.port, port)]
  | .tileReset tile => [(.tile, tile)]
  | .flr port => [(.port, port)]
  | .perst port _ => [(.port, port)]
  | .hostLinkLoss port => [(.port, port)]
  | .curReset cur => [(.curator, cur)]
  | .p1Wake => []
  | .p3DurabilityTimeout => []
  | .transitionDone => []
  | .bootReady _ => []
  | .seqCommit port => [(.port, port)]
  | .seqCommitDone _ => []
  | .pmcCfgWrite port tile i _ => [(.port, port), (.tile, tile), (.counter, i)]
  | .pmcCntWrite port tile i _ _ => [(.port, port), (.tile, tile), (.counter, i)]
  | .clearTd port tile => [(.port, port), (.tile, tile)]
  | .clearProg port tile => [(.port, port), (.tile, tile)]
  | .freeze port => [(.port, port)]
  | .thaw port => [(.port, port)]
  | .snap port => [(.port, port)]
  | .pmcActionAtT tile => [(.tile, tile)]
  | .laneSignalTimeout tile sp lane => [(.tile, tile), (.stream, sp), (.lane, lane)]
  | .conversionMissed tile sensor => [(.tile, tile), (.sensor, sensor)]
  | .tileReady tile => [(.tile, tile)]
  | .hostLinkUp port _ _ _ _ => [(.port, port)]
  | .resetNRelease => []
  | .fwRestartTimeout cur => [(.curator, cur)]
  | .curatorRestartDone _ => []

/-- The checks: every numbered operand lies in its range. -/
def Instr.wf (i : Instr) : Bool := i.operands.all (fun e => decide (e.2 < e.1.bound))

end Sys2Proof
end

