-- ==== Sys2Proof/Tests/Slice0.lean ====
section
/-! SUPPORT. Tests: the well-formedness checks, values the manual works out, and for every statement a state and operands that
meet the premises of each of its clauses. -/

namespace Sys2Proof.Tests

open Sys2Proof Sys2Proof.Machine

set_option linter.unusedVariables false
set_option Elab.async false

/-- A part of member VZM-2080 that is up and ready: its host links, saddle links and media channels trained, 2^20 pages of media
and 16 GiB of DDR5 on each tile, free Catalogue space, and Curator 0 primary. -/
def up : State := (List.range 8).foldl (fun s t => s.putReg .catFree t 0 0x4000)
  { State.reset with
    member := .vzm2080
    host := { ({} : HostState) with ports := (List.range 2).map (fun p => (p, { linkUp := true })) }
    med := { ({} : MediaState) with chans := (List.range 128).map (fun c => (c, { trained := true, rate := 0 })) }
    coh := { ({} : CohState) with saddleUp := (List.range 8).map (fun t => (t, 7)) }
    pwr := { PowerState.reset with
      st := .up, ready := true, islands := true
      mediaPages := (List.range 8).map (fun t => (t, 2 ^ 20))
      ddrGib := (List.range 8).map (fun t => (t, 16)) }
    cur := { ({} : CuratorState) with primary := some 0, restart := none } }

/-- A part with one media target on each channel of tile 0. -/
def fitted (s : State) : State :=
  { s with med := { s.med with
      targets := (List.range 16).map (fun c => (4 * c, { present := true, qualified := true, mapped := true })) } }

/-- A sideband header. -/
def side : Ctx := { path := .sideband, tag := 7, noInt := false, rsv := false }

/-- The packet of an opcode and its parameters. -/
def packetOf (opc : Nat) (ps : List Param) : BitVec 512 :=
  BitVec.ofNat 512 (opc + (ps.map (fun f => f.value * 2 ^ f.lo)).sum)

/-- A command of SQ 0 of HP0, started. -/
def cmdOf (opc : Nat) (ps : List Param) : Cmd :=
  { port := 0, sq := 0, idx := 0, packet := packetOf opc ps, next := 1, cq := 0, started := true, passed := false, held := false,
    dropped := false }

/-- The header of that command. -/
def ring : Ctx := { path := .ring 0 0 0, tag := 0, noInt := false, rsv := false }

/-- The part with that command started on its ring. -/
def run (opc : Nat) (ps : List Param) (s : State) : State := { s with host := { s.host with cmds := [cmdOf opc ps] } }

/-- The part with a request the committed head of the Curator queue. -/
def queued (c : Ctx) (opc : Nat) (ps : List Param) (s : State) : State :=
  { s with cur := { s.cur with
      queue := [{ ctx := some c, mailbox := none, opcode := BitVec.ofNat 8 opc, params := ps, committed := true }] } }

/-- The part with that command started on its ring and the committed head of the Curator queue. -/
def man (opc : Nat) (ps : List Param) (s : State) : State := queued ring opc [] (run opc ps s)

/-- The part with exchange window 0 of HP0 registered: one slot of 4 KiB. -/
def slotted (s : State) : State := s.setWin 0 0 { enable := true }

/-- Media on which every read succeeds. -/
def quietMedia : MediaEnv := { recon := [], unrec := [] }

/-- A flit with bytes 0 to 5 of its header, in codewords without an error. -/
def flitOf (aad : Nat) (payload : Line) : Flit :=
  { hdr := BitVec.ofNat 64 (aad + 2 ^ 48 * crc16 (leBytes 6 aad)), payload, codewords := [] }

/-- An absent token. -/
def tok : Token :=
  { present := false, own := ⟨true, 0⟩, magic := 0, format := 0, purpose := 0, signer := 0, serial := 0, number := 0, state := 0,
    zeros := true, bind := 0, sigOk := true }

/-- The content of a line. -/
def con : Content := { data := 5, kid := 0, epoch := 1, poison := false }

/-- The first 64 bytes of a token as a number. -/
def tokNum (t : Token) : Nat :=
  t.magic.toNat + t.format.toNat * 2 ^ 32 + t.purpose.toNat * 2 ^ 48 + t.signer.toNat * 2 ^ 56 + t.serial.toNat * 2 ^ 64 +
    t.number.toNat * 2 ^ 128 + t.state.toNat * 2 ^ 192 + t.bind.toNat * 2 ^ 256

/-- The part with a mailbox request of HP0 the committed head of the Curator queue: its code, its payload's length, and the first
128 bytes of its payload. -/
def posted (code len v : Nat) (s : State) : State :=
  let t := (List.range 32).foldl (fun (s : State) i => s.putReg .curMbBuf 0 i (v / 2 ^ (32 * i) % 2 ^ 32)) s
  { t with cur := { t.cur with
      mailbox := { owner := some 0, busy := true, last := 0, len := len }
      queue := [{ ctx := none, mailbox := some 0, opcode := BitVec.ofNat 8 code, params := [], committed := true }] } }

/-- The header of an image with a version and a floor, in slot 1 of Curator 0, for a body of the one byte 07h. -/
def imageHead (version floor : Nat) : Tbl Byte :=
  let v := 0x57465A56 + version * 2 ^ 32 + 2 ^ 64 + floor * 2 ^ 128 + (bodyDigest [7]).toNat * 2 ^ 160
  (List.range 128).map (fun i => (8388608 + i, BitVec.ofNat 8 (v / 256 ^ i))) ++
    (List.range 1148).map (fun i => (8388608 + 2948 + i, 0))

/-! ## Well-formedness: each check refuses a term out of its range, and takes the last one in range -/

theorem test_wf_ports_and_rings :
    (Instr.fetchResume 2).wf = false ∧ (Instr.fetchResume 1).wf = true ∧
    (Instr.sqDoorbell 0 64 0).wf = false ∧ (Instr.sqDoorbell 1 63 0).wf = true ∧
    (Instr.sqFetchReturn 0 0 4096 []).wf = false ∧ (Instr.sqFetchReturn 0 0 4095 []).wf = true ∧
    (Instr.msixPendingSend 0 2048).wf = false ∧ (Instr.msixPendingSend 0 2047).wf = true ∧
    (Instr.windowDrainEnd 0 4).wf = false ∧ (Instr.windowDrainEnd 0 3).wf = true := by decide

theorem test_wf_tiles_and_media :
    (Instr.tileReady 8).wf = false ∧ (Instr.tileReady 7).wf = true ∧
    (Instr.slotGrant 0 16).wf = false ∧ (Instr.slotGrant 0 15).wf = true ∧
    (Instr.mediaTempPoll 0 0 4 0).wf = false ∧ (Instr.mediaTempPoll 0 0 3 0).wf = true ∧
    (Instr.stripeProgramDone 0 (2 ^ 28)).wf = false ∧ (Instr.stripeProgramDone 0 (2 ^ 28 - 1)).wf = true ∧
    (Instr.folioMerge 0 (2 ^ 33) 0 0).wf = false ∧ (Instr.folioMerge 0 (2 ^ 33 - 1) 0 2).wf = true ∧
    (Instr.folioMerge 0 0 0 3).wf = false := by decide

theorem test_wf_lines_and_streams :
    (Instr.snpS 0 (2 ^ 42)).wf = false ∧ (Instr.snpS 0 (2 ^ 42 - 1)).wf = true ∧
    (Instr.eqTimeout 0 8).wf = false ∧ (Instr.eqTimeout 0 7).wf = true ∧
    (Instr.lockMarker 0 0 8 0 0).wf = false ∧ (Instr.lockMarker 0 0 7 0 0).wf = true ∧
    (Instr.retireComplete 0 1024).wf = false ∧ (Instr.retireComplete 0 1023).wf = true ∧
    (Instr.recordCommit 0 0 64).wf = false ∧ (Instr.recordCommit 0 0 63).wf = true ∧
    (Instr.claim 0 0 0 [1, 8]).wf = false ∧ (Instr.claim 0 0 0 [1, 7]).wf = true ∧
    (Instr.slkGcmKeyWrite 0 0 0 8 0).wf = false ∧ (Instr.slkGcmKeyWrite 0 0 0 7 0).wf = true := by decide

theorem test_wf_units_of_the_part :
    (Instr.keyRotationDone 256).wf = false ∧ (Instr.keyRotationDone 255).wf = true ∧
    (Instr.heartbeat 2).wf = false ∧ (Instr.heartbeat 1).wf = true ∧
    (Instr.monitorScan 32 0).wf = false ∧ (Instr.monitorScan 31 0).wf = true ∧
    (Instr.passReopen 0 122).wf = false ∧ (Instr.passReopen 0 121).wf = true ∧
    (Instr.faultWindowEnd 0 4096).wf = false ∧ (Instr.faultWindowEnd 0 4095).wf = true ∧
    (Instr.escalationExpiry 0 32).wf = false ∧ (Instr.escalationExpiry 0 31).wf = true ∧
    (Instr.tamperTrip 0 5 0).wf = false ∧ (Instr.tamperTrip 0 4 0).wf = true ∧
    (Instr.conversionMissed 0 8).wf = false ∧ (Instr.conversionMissed 0 7).wf = true ∧
    (Instr.pmcCfgWrite 0 0 64 0).wf = false ∧ (Instr.pmcCfgWrite 0 0 63 0).wf = true := by decide

/-! ## Values the manual works out -/

/-- R28: the folio 0x3_A5C6 folds to 6, and its home and tile-local index on the members. -/
theorem test_fold_of_the_manual :
    fold 0x3A5C6 = 6 ∧ homeFolio 8 0x3A5C6 = 6 ∧ homeFolio 4 0x3A5C6 = 2 ∧ homeFolio 2 0x3A5C6 = 0 ∧
    localFolio 8 0x3A5C6 = 0x74B8 ∧ localFolio 4 0x3A5C6 = 0xE971 := by decide +kernel

/-- R466: the encodings of ENABLE 0, WAIT 2,000 µs and a CHECK. -/
theorem test_step_encodings :
    stepOp 0x1000000000000000 = 1 ∧ stepN 0x1000000000000000 = 0 ∧ stepOp 0x30000000000007D0 = 3 ∧
    (let c : DWord := 0x40806AE762051C1C
     stepOp c = 4 ∧ stepMon c = 0 ∧ stepArm c = 2 ∧ stepLo c = 1710 ∧ stepHi c = 1890 ∧ stepTimeout c = 5 ∧
       stepElse c = 28 ∧ stepUnwind c = 28 ∧ stepValid 31 c = true ∧ stepValid 28 c = false) := by decide +kernel

/-- R37: the register table holds nothing for a tile the member lacks. -/
theorem test_locate : locate 4 0 0x660000 = none := by decide +kernel

/-- R43, R45: a write of 2 at 0x0002_8018 moves the tail of SQ 3 of HP0, once the ring is enabled with 16 entries. -/
theorem test_doorbell_address :
    (match exec (.registerWrite 0 0x28018 4 2)
        { up with host := { up.host with sqs := [(3, { enable := true, sizeM1 := 15 })] } } with
     | .next t => (t.sq 0 3).tail == 2
     | _ => false) = true := by decide +kernel

/-- R38, R39: the manual's VZM-2040 with 40 TiB of media and 48 GiB of DDR5 on tile 3. -/
theorem test_part_info :
    (let s : State := { up with
       member := .vzm2040
       pwr := { up.pwr with straps := { up.pwr.straps with tiles := 1, spare := 1 }, ddrGib := [(3, 48)], mediaPages := [(3, 40 * 2 ^ 26)] }
       coh := { up.coh with saddleUp := [(3, 3)] } }
     s.partInfo = 0x10401401 ∧ s.tileInfo 3 = 0x28300C03) := by decide +kernel

/-- R36, R43, R307, R403, R425: reads of the vector of CQ 5, free segments, a reserved offset, a fault source, and a tile that the
VZM-2020 lacks. -/
theorem test_register_reads :
    up.readWord 0 0x20158 = 5 ∧ up.readWord 1 0x258000 = 0x10000 ∧ up.readWord 0 0x90000 = 0 ∧
    State.reset.readWord 0 0x800000 = 0 ∧ up.readWord 0 0x188000 = 0x8E000014 ∧ up.bar0Read 0 0x2 4 = none := by decide +kernel

/-- The CRC-32C of the digits 1 to 9 is the Castagnoli check value. -/
theorem test_crc : crc32c [0x31, 0x32, 0x33, 0x34, 0x35, 0x36, 0x37, 0x38, 0x39] = 0xE3069283 := by decide +kernel

/-- The rows of the register table stand in the order of the registers. -/
theorem test_register_table : regTable.map (fun d => d.reg.ctorIdx) = List.range regTable.length := by decide +kernel

/-- No row of the opcode table gives bits, so no word spells a command, and nothing is put in front of the queue. -/
theorem test_no_words : decodeTableWord 16 0x1234 = none ∧ (State.reset.withFetchWord 16 0x1234).pending = [] := by decide +kernel

/-! ## One step -/

/-- A step runs the command in front and leaves the rest waiting. -/
theorem test_step_takes_the_front :
    (match step { up with pending := [.sqCfgWrite 0 3 0x80000000, .thaw 0] } with
     | .next t => t.pending == [.thaw 0]
     | _ => false) = true := by decide +kernel

/-- R486: a wrong key leaves the part up. -/
theorem test_part_reset_key :
    (match exec (.warmReset 0 0x57400001) up with
     | .next t => t.pwr.lastReset == up.pwr.lastReset
     | _ => false) = true := by decide +kernel

/-- R456: a tamper trip at the destroy level scraps the part. -/
theorem test_tamper_destroys :
    (match exec (.tamperTrip 0 0 0) (up.putReg .curTamperCfg 0 0 3) with
     | .next t => t.cur.lifecycle == .scrapped
     | _ => false) = true := by decide +kernel

/-- The machine right after reset keeps the fuses in order. -/
theorem reset_fuses : State.reset.fusesOk = true := by decide +kernel

/-! ## The premises of the statements can be met -/

theorem witness_doorbell_rule :
    (∃ (p n : Nat) (v : BitVec 12) (s : State), s.takesWrite p = true ∧ n < 64 ∧ (s.sq p n).enable = true ∧ (s.sq p n).err = false ∧ v.toNat < (s.sq p n).size) ∧
    (∃ (p n : Nat) (v : BitVec 12) (s : State), s.takesWrite p = true ∧ n < 64 ∧ (s.sq p n).enable = true ∧ (s.sq p n).err = false ∧ (s.sq p n).size ≤ v.toNat) ∧
    (∃ (p n : Nat) (v : BitVec 12) (s : State), s.takesWrite p = true ∧ n < 64 ∧ (s.sq p n).enable = false) ∧
    (∃ (p n : Nat) (v : BitVec 12) (s : State), s.takesWrite p = true ∧ n < 64 ∧ (s.sq p n).enable = true ∧ (s.sq p n).err = true) ∧
    (∃ (p n : Nat) (v : BitVec 12) (s : State), s.takesWrite p = true ∧ n < 64 ∧ (s.cq p n).enable = true ∧ (s.cq p n).err = false ∧ (s.cq p n).held = [] ∧ v.toNat < (s.cq p n).size ∧ ringDist (s.cq p n).size (s.cq p n).tail v.toNat ≤ ringDist (s.cq p n).size (s.cq p n).tail (s.cq p n).head) ∧
    (∃ (p n : Nat) (v : BitVec 12) (s : State), s.takesWrite p = true ∧ n < 64 ∧ (s.cq p n).enable = true ∧ (s.cq p n).err = false ∧ v.toNat < (s.cq p n).size ∧ ringDist (s.cq p n).size (s.cq p n).tail (s.cq p n).head < ringDist (s.cq p n).size (s.cq p n).tail v.toNat) ∧
    (∃ (p n : Nat) (v : BitVec 12) (s : State), s.takesWrite p = true ∧ n < 64 ∧ (s.cq p n).enable = true ∧ (s.cq p n).err = false ∧ (s.cq p n).size ≤ v.toNat) ∧
    (∃ (p n : Nat) (v : BitVec 12) (s : State), s.takesWrite p = true ∧ n < 64 ∧ (s.cq p n).enable = true ∧ (s.cq p n).err = true) ∧
    (∃ (p n : Nat) (v : BitVec 12) (s : State), s.takesWrite p = true ∧ n < 64 ∧ (s.cq p n).enable = false) :=
  ⟨⟨0, 0, 3, up.setSq 0 0 { enable := true, sizeM1 := 7 }, by decide +kernel⟩,
   ⟨0, 0, 8, up.setSq 0 0 { enable := true, sizeM1 := 7 }, by decide +kernel⟩,
   ⟨0, 0, 0, up, by decide +kernel⟩,
   ⟨0, 0, 0, up.setSq 0 0 { enable := true, err := true, sizeM1 := 7 }, by decide +kernel⟩,
   ⟨0, 0, 2, up.setCq 0 0 { enable := true, sizeM1 := 7, head := 2 }, by decide +kernel⟩,
   ⟨0, 0, 3, up.setCq 0 0 { enable := true, sizeM1 := 7, head := 2 }, by decide +kernel⟩,
   ⟨0, 0, 8, up.setCq 0 0 { enable := true, sizeM1 := 7 }, by decide +kernel⟩,
   ⟨0, 0, 0, up.setCq 0 0 { enable := true, err := true, sizeM1 := 7 }, by decide +kernel⟩,
   ⟨0, 0, 0, up, by decide +kernel⟩⟩

theorem witness_ring_enable_starts_empty :
    (∃ (p n : Nat) (w : Word) (s : State), s.takesWrite p = true ∧ n < 64 ∧ (s.sq p n).enable = false ∧ bits w.toNat 31 31 = 1 ∧ ((s.sq p n).fields w.toNat).sizeM1 ≠ 0 ∧ (s.cq p ((s.sq p n).fields w.toNat).cq.toNat).err = false) ∧
    (∃ (p n : Nat) (w : Word) (s : State), s.takesWrite p = true ∧ n < 64 ∧ (s.sq p n).enable = false ∧ bits w.toNat 31 31 = 1 ∧ ((s.sq p n).fields w.toNat).sizeM1 ≠ 0 ∧ (s.cq p ((s.sq p n).fields w.toNat).cq.toNat).err = true) ∧
    (∃ (p n : Nat) (w : Word) (s : State), s.takesWrite p = true ∧ n < 64 ∧ (s.sq p n).enable = false ∧ (s.sq p n).err = false ∧ bits w.toNat 31 31 = 1 ∧ ((s.sq p n).fields w.toNat).sizeM1 = 0 ∧ (s.cq p ((s.sq p n).fields w.toNat).cq.toNat).err = false) ∧
    (∃ (p n : Nat) (w : Word) (s : State), s.takesWrite p = true ∧ n < 64 ∧ (s.sq p n).enable = true ∧ bits w.toNat 31 31 = 0) ∧
    (∃ (p n : Nat) (w : Word) (s : State), s.takesWrite p = true ∧ n < 64 ∧ (s.sq p n).enable = true ∧ bits w.toNat 31 31 = 1 ∧ (s.sq p n).fields w.toNat ≠ s.sq p n) ∧
    (∃ (p n : Nat) (w : Word) (s : State), s.takesWrite p = true ∧ n < 64 ∧ (s.cq p n).enable = false ∧ (s.cq p n).held = [] ∧ bits w.toNat 31 31 = 1 ∧ ((s.cq p n).fields w.toNat).sizeM1 ≠ 0 ∧ (bits w.toNat 10 0 < 64 ∨ 127 < bits w.toNat 10 0) ∧ (((s.cq p n).fields w.toNat).intEn = false ∨ (s.cq p n).unsig = 0)) ∧
    (∃ (p n : Nat) (w : Word) (s : State), s.takesWrite p = true ∧ n < 64 ∧ 64 ≤ bits w.toNat 10 0 ∧ bits w.toNat 10 0 ≤ 127) ∧
    (∃ (p n : Nat) (w : Word) (s : State), s.takesWrite p = true ∧ n < 64 ∧ 64 ≤ bits w.toNat 10 0 ∧ bits w.toNat 10 0 ≤ 127 ∧ (s.cq p n).enable = false ∧ bits w.toNat 31 31 = 0 ∧ ((s.cq p n).fields w.toNat).intEn = false) ∧
    (∃ (p n : Nat) (w : Word) (s : State), s.takesWrite p = true ∧ n < 64 ∧ (s.cq p n).enable = true ∧ bits w.toNat 31 31 = 0) :=
  ⟨⟨0, 0, 0x80070000, up, by decide +kernel⟩,
   ⟨0, 0, 0x80070000, up.setCq 0 0 { err := true }, by decide +kernel⟩,
   ⟨0, 0, 0x80000000, up, by decide +kernel⟩,
   ⟨0, 0, 0, up.setSq 0 0 { enable := true, sizeM1 := 7 }, by decide +kernel⟩,
   ⟨0, 0, 0x80030000, up.setSq 0 0 { enable := true, sizeM1 := 7 }, by decide +kernel⟩,
   ⟨0, 0, 0x80070000, up, by decide +kernel⟩,
   ⟨0, 0, 0x80070040, up, by decide +kernel⟩,
   ⟨0, 0, 0x70040, up, by decide +kernel⟩,
   ⟨0, 0, 0, up.setCq 0 0 { enable := true, sizeM1 := 7 }, by decide +kernel⟩⟩

theorem witness_fetch_and_start :
    (∃ (p n : Nat) (s : State), s.hasPort p = true ∧ s.mayFetch p = true ∧ s.nextSq p (s.port p).rotUrg true = some n ∧ (s.sq p n).head + s.fetchable p n ≤ (s.sq p n).size) ∧
    (∃ (p n : Nat) (f : Fetch) (e : Fetched) (s : State), s.hasPort p = true ∧ s.hostUp p = true ∧ n < 64 ∧ s.paused p = false ∧ (s.port p).fetches = [f] ∧ f.sq = n ∧ f.got = none ∧ f.count = 1 ∧ s.unstarted p n = [] ∧ f.dead = false ∧ e.bad = true) ∧
    (∃ (p n : Nat) (f : Fetch) (e : Fetched) (s : State), s.hasPort p = true ∧ s.hostUp p = true ∧ n < 64 ∧ s.paused p = false ∧ (s.port p).fetches = [f] ∧ f.sq = n ∧ f.got = none ∧ f.count = 1 ∧ s.unstarted p n = [] ∧ f.dead = true) ∧
    (∃ (p n : Nat) (f : Fetch) (e : Fetched) (j : Cmd) (s : State), s.hasPort p = true ∧ s.hostUp p = true ∧ n < 64 ∧ s.paused p = false ∧ (s.port p).fetches = [f] ∧ f.sq = n ∧ f.got = none ∧ f.count = 1 ∧ s.unstarted p n = [] ∧ f.dead = false ∧ e.bad = false ∧ pkt e.packet 1 1 % 2 = 1 ∧ j ∈ s.host.cmds ∧ j.port = p ∧ j.sq = n ∧ ∀ k ∈ s.host.cmds, k.idx ≠ f.first ∧ f.entry + 1 < (s.sq p n).size) ∧
    (∃ (p n : Nat) (k : Cmd) (s : State), s.hasPort p = true ∧ n < 64 ∧ s.host.cmds = [k] ∧ k.port = p ∧ k.sq = n ∧ k.started = false ∧ k.fenced = true ∧ k.headerRsv = false ∧ opcodes.contains k.opcode = true ∧ k.opcode < 0x40 ∧ k.slotWord = none ∧ s.pwr.pwr = .p0 ∧ s.waiting p srcInterp = []) ∧
    (∃ (c : Ctx) (pa len : DWord) (env : MediaEnv) (p q i : Nat) (k : Cmd) (s : State), c.path = .ring p q i ∧ s.findCmd p q i = some k ∧ s.heldBack k = true) ∧
    (∃ (c : Ctx) (pa len : DWord) (p q i : Nat) (k : Cmd) (s : State), c.path = .ring p q i ∧ s.findCmd p q i = some k ∧ s.heldBack k = true) ∧
    (∃ (p : Nat) (s : State), s.takesWrite p = true) :=
  ⟨⟨0, 0, (up.setSq 0 0 { enable := true, sizeM1 := 7, urgent := true, tail := 3 }).setCq 0 0 { enable := true, sizeM1 := 7 }, by decide +kernel⟩,
   ⟨0, 0, ⟨0, 0, 0, 1, 0, false, none⟩, ⟨true, 0⟩, up.setPort 0 { linkUp := true, fetches := [⟨0, 0, 0, 1, 0, false, none⟩] }, by decide +kernel⟩,
   ⟨0, 0, ⟨0, 0, 0, 1, 0, true, none⟩, ⟨true, 0⟩, up.setPort 0 { linkUp := true, fetches := [⟨0, 0, 0, 1, 0, true, none⟩] }, by decide +kernel⟩,
   ⟨0, 0, ⟨0, 5, 0, 1, 0, false, none⟩, ⟨false, 256⟩, cmdOf 0x10 [], let t := (up.setSq 0 0 { sizeM1 := 7 }).setPort 0 { linkUp := true, fetches := [⟨0, 5, 0, 1, 0, false, none⟩] }; { t with host := { t.host with cmds := [cmdOf 0x10 []] } }, by decide +kernel⟩,
   ⟨0, 0, { cmdOf 0x102 [] with started := false }, { up with host := { up.host with cmds := [{ cmdOf 0x102 [] with started := false }] } }, by decide +kernel⟩,
   ⟨⟨.ring 0 0 1, 0, false, false⟩, 0, 128, quietMedia, 0, 0, 1, { cmdOf 0x13 (rangeParams 0 128) with idx := 1 }, { up with host := { up.host with cmds := [cmdOf 0x13 (rangeParams 0 128), { cmdOf 0x13 (rangeParams 0 128) with idx := 1 }] } }, by decide +kernel⟩,
   ⟨⟨.ring 0 0 1, 0, false, false⟩, 0, 128, 0, 0, 1, { cmdOf 0x14 (rangeParams 0 128) with idx := 1 }, { up with host := { up.host with cmds := [cmdOf 0x14 (rangeParams 0 128), { cmdOf 0x14 (rangeParams 0 128) with idx := 1 }] } }, by decide +kernel⟩,
   ⟨0, up, by decide +kernel⟩⟩

theorem witness_completions_reach_the_host :
    (∃ (p : Nat) (s : State), s.hasPort p = true ∧ s.portsUp = true ∧ s.cry.haltCause = 0 ∧ (s.port p).noCredit = true) ∧
    (∃ (p : Nat) (s : State), s.hasPort p = true ∧ s.portsUp = true ∧ s.cry.haltCause = 0 ∧ (s.port p).noCredit = false) ∧
    (∃ (p x n : Nat) (e : Cqe) (rest : List (Nat × Cqe)) (s : State), s.hasPort p = true ∧ s.portsUp = true ∧ s.cry.haltCause = 0 ∧ s.nonEmpty p = [x] ∧ s.staged p x = (n, e) :: rest ∧ s.waiting p x = [] ∧ (s.cq p n).enable = true ∧ (s.cq p n).err = false ∧ (s.cq p n).held = [] ∧ 0 < (s.cq p n).space ∧ (s.cq p n).head < (s.cq p n).size ∧ (s.cq p n).intEn = false) ∧
    (∃ (p x n : Nat) (e : Cqe) (rest : List (Nat × Cqe)) (s : State), s.hasPort p = true ∧ s.portsUp = true ∧ s.cry.haltCause = 0 ∧ s.nonEmpty p = [x] ∧ s.staged p x = (n, e) :: rest ∧ (((s.cq p n).enable = false ∨ (s.cq p n).err = true))) ∧
    (∃ (p n : Nat) (s : State), s.hasPort p = true ∧ n < 64 ∧ s.coalDue p n = true ∧ (s.cq p n).intEn = true) ∧
    (∃ (p v : Nat) (s : State), s.hasPort p = true ∧ v < 2048 ∧ tget (fun _ => false) s.host.pba (vecKey p v) = true ∧ s.canSend p v = true) ∧
    (∃ (m : Mgmt) (ms : List Mgmt) (s : State), s.cur.primary.isSome = true ∧ s.cry.haltCause = 0 ∧ s.cur.queue = m :: ms ∧ m ∉ ms) :=
  ⟨⟨0, up.setPort 0 { linkUp := true, noCredit := true }, by decide +kernel⟩,
   ⟨0, up, by decide +kernel⟩,
   ⟨0, 0, 0, ⟨7, 0, 0, 1, 0, false, 0⟩, [], let t := up.setCq 0 0 { enable := true, sizeM1 := 7, phase := true }; { t with host := { t.host with srcQ := [(0, [(0, ⟨7, 0, 0, 1, 0, false, 0⟩)])] } }, by decide +kernel⟩,
   ⟨0, 0, 0, ⟨7, 0, 0, 1, 0, false, 0⟩, [], { up with host := { up.host with srcQ := [(0, [(0, ⟨7, 0, 0, 1, 0, false, 0⟩)])] } }, by decide +kernel⟩,
   ⟨0, 0, { (up.setCq 0 0 { enable := true, intEn := true, sizeM1 := 7, oldest := some 0 }).putField .ringCqCoal 0 0 15 0 1 with now := 100 }, by decide +kernel⟩,
   ⟨0, 0, let t := up.setPort 0 { msixEn := true, linkUp := true }; { t with host := { t.host with pba := [(0, true)], msix := [(0, { mask := false })] } }, by decide +kernel⟩,
   ⟨⟨none, none, 0x42, [], false⟩, [], { up with cur := { up.cur with queue := [⟨none, none, 0x42, [], false⟩] } }, by decide +kernel⟩⟩

theorem witness_window_rules :
    (∃ (p n : Nat) (w : Word) (s : State), s.takesWrite p = true ∧ n < 4 ∧ (s.win p n).enable = false ∧ (s.win p n).draining = false ∧ bits w.toNat 31 31 = 1 ∧ ((s.win p n).fields w.toNat).refused = false) ∧
    (∃ (p n : Nat) (w : Word) (s : State), s.takesWrite p = true ∧ n < 4 ∧ (s.win p n).enable = false ∧ (s.win p n).draining = false ∧ bits w.toNat 31 31 = 1 ∧ ((s.win p n).fields w.toNat).refused = true) ∧
    (∃ (p n : Nat) (w : Word) (s : State), s.takesWrite p = true ∧ n < 4 ∧ (s.win p n).enable = true ∧ bits w.toNat 31 31 = 0) ∧
    (∃ (p n : Nat) (s : State), s.hasPort p = true ∧ n < 4 ∧ (s.win p n).draining = true ∧ (s.inflight p n).isEmpty = true) ∧
    (∃ (p n : Nat) (s : State), s.hasPort p = true ∧ n < 4 ∧ (s.inflight p n).isEmpty = false) ∧
    (∃ (p : Nat) (w : Word) (s : State), s.takesWrite p = true ∧ s.pwr.straps.barmode = true) ∧
    (∃ (p : Nat) (w : Word) (s : State), s.takesWrite p = true ∧ s.pwr.straps.barmode = false) :=
  ⟨⟨0, 0, 0x80C00003, up, by decide +kernel⟩,
   ⟨0, 0, 0x80000003, up, by decide +kernel⟩,
   ⟨0, 0, 0, up.setWin 0 0 { enable := true }, by decide +kernel⟩,
   ⟨0, 0, up.setWin 0 0 { draining := true }, by decide +kernel⟩,
   ⟨0, 0, let t := up.setWin 0 0 { enable := true }; { t with host := { t.host with cmds := [{ cmdOf 0x01 (identifyParams 0 0 0x80000000) with held := true }] } }, by decide +kernel⟩,
   ⟨0, 0, { up with pwr := { up.pwr with straps := { up.pwr.straps with barmode := true } } }, by decide +kernel⟩,
   ⟨0, 0, up, by decide +kernel⟩⟩

theorem witness_direct_window_serves :
    (∃ (p : Nat) (o : DWord) (n : Nat) (env : MediaEnv) (s : State), s.hasPort p = true ∧ s.hostUp p = true ∧ s.bar2Open = false) ∧
    (∃ (p : Nat) (o : DWord) (n : Nat) (env : MediaEnv) (s : State), s.hasPort p = true ∧ s.hostUp p = true ∧ s.bar2 p = true ∧ s.epo.rollback = false ∧ s.pwr.pwr = .p0 ∧ (s.port p).heldDw = [] ∧ (s.port p).closeHeld = false ∧ s.epo.heldTrig = [] ∧ ((((s.pmcEdge p 0x60 0).holdDw p { offset := BitVec.ofNat 64 (s.dwPa p o.toNat), len := n, store := none, env := env }).serveRead p (BitVec.ofNat 64 (s.dwPa p o.toNat)).toNat n env)).cat.stuck = false ∧ ((((s.pmcEdge p 0x60 0).holdDw p { offset := BitVec.ofNat 64 (s.dwPa p o.toNat), len := n, store := none, env := env }).serveRead p (BitVec.ofNat 64 (s.dwPa p o.toNat)).toNat n env)).cat.forged = none) ∧
    (∃ (p : Nat) (o : DWord) (n : Nat) (env : MediaEnv) (s : State), s.hasPort p = true ∧ s.hostUp p = true ∧ s.bar2 p = true ∧ s.epo.rollback = false ∧ s.pwr.pwr = .p0 ∧ (s.port p).heldDw = [] ∧ (s.port p).closeHeld = false ∧ s.epo.heldTrig = [] ∧ s.cat.stuck = false ∧ s.cat.forged = none ∧ s.dwPa p o.toNat < 2 ^ 64 ∧ 0 < n ∧ o.toNat % 128 + n ≤ 128 ∧ s.dwPa p o.toNat + n ≤ s.capacity ∧ (s.denied p (s.kidOf (folioOf (s.dwPa p o.toNat / 128))) false).isSome = true) ∧
    (∃ (p : Nat) (o : DWord) (n : Nat) (env : MediaEnv) (s : State), s.hasPort p = true ∧ s.hostUp p = true ∧ s.bar2 p = true ∧ s.epo.rollback = true) ∧
    (∃ (p : Nat) (o : DWord) (b : List (Option Byte)) (env : MediaEnv) (s : State), s.hasPort p = true ∧ s.bar2 p = false) ∧
    (∃ (p : Nat) (o : DWord) (b : List (Option Byte)) (env : MediaEnv) (s : State), s.hasPort p = true ∧ s.hostUp p = true ∧ s.bar2 p = true ∧ s.epo.rollback = false ∧ s.pwr.pwr = .p0 ∧ (s.port p).heldDw = [] ∧ (s.port p).closeHeld = false ∧ s.epo.heldTrig = [] ∧ s.cat.stuck = false ∧ s.cat.forged = none ∧ s.med.readOnly = true ∧ s.dwPa p o.toNat < 2 ^ 64 ∧ s.dwPa p o.toNat + b.length ≤ s.capacity ∧ 0 < b.length) ∧
    (∃ (p : Nat) (o : DWord) (b : List (Option Byte)) (env : MediaEnv) (s : State), s.hasPort p = true ∧ s.hostUp p = true ∧ s.bar2 p = true ∧ s.epo.rollback = false ∧ s.pwr.pwr = .p0 ∧ (s.port p).heldDw = [] ∧ (s.port p).closeHeld = false ∧ s.epo.heldTrig = [] ∧ ((((s.pmcEdge p 0x60 0).holdDw p { offset := BitVec.ofNat 64 (s.dwPa p o.toNat), len := b.length, store := some b, env := env }).serveStore p (BitVec.ofNat 64 (s.dwPa p o.toNat)).toNat b env)).cat.stuck = false ∧ ((((s.pmcEdge p 0x60 0).holdDw p { offset := BitVec.ofNat 64 (s.dwPa p o.toNat), len := b.length, store := some b, env := env }).serveStore p (BitVec.ofNat 64 (s.dwPa p o.toNat)).toNat b env)).cat.forged = none) ∧
    (∃ (p : Nat) (o : DWord) (b : List (Option Byte)) (env : MediaEnv) (s : State), s.hasPort p = true ∧ s.hostUp p = true ∧ s.bar2 p = true ∧ s.epo.rollback = true) :=
  ⟨⟨0, 0, 0, quietMedia, { up with pwr := { up.pwr with ready := false } }, by decide +kernel⟩,
   ⟨0, 0, 16, quietMedia, up, by decide +kernel⟩,
   ⟨0, 0, 16, quietMedia, { up with cry := { up.cry with kids := [(0, { st := .retired })] } }, by decide +kernel⟩,
   ⟨0, 0, 16, quietMedia, { up with epo := { up.epo with rollback := true } }, by decide +kernel⟩,
   ⟨0, 0, [], quietMedia, State.reset, by decide +kernel⟩,
   ⟨0, 0, [some 1], quietMedia, { up with med := { up.med with readOnly := true } }, by decide +kernel⟩,
   ⟨0, 0, [some 1], quietMedia, up, by decide +kernel⟩,
   ⟨0, 0, [some 1], quietMedia, { up with epo := { up.epo with rollback := true } }, by decide +kernel⟩⟩

theorem witness_register_write_reaches_its_row :
    (∃ (p n : Nat) (o : BitVec 24) (v : DWord) (s : State), s.takesWrite p = true ∧ n < 64 ∧ o.toNat = sqDbOff n ∧ v.toNat < 4096) ∧
    (∃ (p n : Nat) (o : BitVec 24) (v : DWord) (s : State), s.takesWrite p = true ∧ n < 64 ∧ o.toNat = sqCfgOff n ∧ v.toNat < 2 ^ 32) ∧
    (∃ (p n : Nat) (o : BitVec 24) (v : DWord) (s : State), s.takesWrite p = true ∧ n < 64 ∧ o.toNat = cqDbOff n ∧ v.toNat < 4096) ∧
    (∃ (p n : Nat) (o : BitVec 24) (v : DWord) (s : State), s.takesWrite p = true ∧ n < 64 ∧ o.toNat = cqCfgOff n ∧ v.toNat < 2 ^ 32) ∧
    (∃ (p sz : Nat) (o : BitVec 24) (v : DWord) (s : State), s.takesWrite p = true ∧ (¬(sz = 4 ∧ o.toNat % 4 = 0)) ∧ (¬(sz = 8 ∧ o.toNat % 8 = 0))) ∧
    (∃ (p : Nat) (o : BitVec 24) (v : DWord) (s : State), s.takesWrite p = true ∧ 0x100000 ≤ o.toNat ∧ o.toNat < 0x900000 ∧ s.hasTile (o.toNat / 0x100000 - 1) = false ∧ o.toNat % 4 = 0) ∧
    (∃ (p : Nat) (v : DWord) (s : State), s.takesWrite p = true ∧ v.toNat < 2 ^ 32 ∧ 100 ≤ v.toNat % 2 ^ 16) ∧
    (∃ (p : Nat) (v : DWord) (s : State), s.takesWrite p = true ∧ v.toNat < 2 ^ 32 ∧ s.cur.lifecycle = .sealed ∧ Reg.curTamperCfg.desc.write true (s.reg .curTamperCfg 0 0) (adjust .curTamperCfg (s.reg .curTamperCfg 0 0) v.toNat) ≠ Reg.curTamperCfg.desc.write false (s.reg .curTamperCfg 0 0) (adjust .curTamperCfg (s.reg .curTamperCfg 0 0) v.toNat)) ∧
    (∃ (p o : Nat) (s : State), 0x100000 ≤ o ∧ o < 0x900000 ∧ s.hasTile (o / 0x100000 - 1) = false ∧ s.cry.haltCause = 0) ∧
    (∃ (p o : Nat) (s : State), s.cry.haltCause ≠ 0 ∧ readableHalted o = false) :=
  ⟨⟨0, 0, 0x28000, 3, up, by decide +kernel⟩,
   ⟨0, 0, 0x20008, 3, up, by decide +kernel⟩,
   ⟨0, 0, 0x28004, 3, up, by decide +kernel⟩,
   ⟨0, 0, 0x20018, 3, up, by decide +kernel⟩,
   ⟨0, 4, 2, 0, up, by decide +kernel⟩,
   ⟨0, 0x800000, 0, { up with member := .vzm2020 }, by decide +kernel⟩,
   ⟨0, 0xABCD0100, up, by decide +kernel⟩,
   ⟨0, 0x3FF, { up with cur := { up.cur with lifecycle := .sealed } }, by decide +kernel⟩,
   ⟨0, 0x800000, { up with member := .vzm2020 }, by decide +kernel⟩,
   ⟨0, 0x20000, { up with cry := { up.cry with haltCause := 3 } }, by decide +kernel⟩⟩

theorem witness_features_and_epoch_queries :
    (∃ (c : Ctx) (f : Byte) (v : Nat) (s : State), s.accepts 0x02 c (getFeatureParams f) = true ∧ s.feature f.toNat = some v) ∧
    (∃ (c : Ctx) (f : Byte) (s : State), s.accepts 0x02 c (getFeatureParams f) = true ∧ s.feature f.toNat = none) ∧
    (∃ (c : Ctx) (v : DWord) (s : State), s.accepts 0x03 c (setFeatureParams 3 v) = true ∧ v.toNat ≤ 1) ∧
    (∃ (c : Ctx) (v : DWord) (s : State), s.accepts 0x03 c (setFeatureParams 2 v) = true ∧ 100 ≤ v.toNat ∧ v.toNat ≤ 1000000) ∧
    (∃ (c : Ctx) (v : DWord) (s : State), s.accepts 0x03 c (setFeatureParams 2 v) = true ∧ v.toNat ≠ 0 ∧ v.toNat < 100) ∧
    (∃ (c : Ctx) (v : DWord) (s : State), s.accepts 0x03 c (setFeatureParams 1 v) = true) ∧
    (∃ (c : Ctx) (f : Byte) (v : DWord) (x : Nat) (s : State), s.accepts 0x03 c (setFeatureParams f v) = true ∧ s.feature f.toNat = some x ∧ s.setFeature f.toNat v.toNat = none) ∧
    (∃ (c : Ctx) (f : Byte) (v : DWord) (s : State), s.accepts 0x03 c (setFeatureParams f v) = true ∧ s.feature f.toNat = none) ∧
    (∃ (c : Ctx) (s : State), s.accepts 0x19 c (epochParams 0) = true) ∧
    (∃ (c : Ctx) (s : State), s.accepts 0x19 c (epochParams 1) = true) ∧
    (∃ (c : Ctx) (m : Byte) (s : State), s.accepts 0x18 c (epochParams m) = true ∧ m.toNat ≤ 1 ∧ s.epo.rollback = false ∧ s.epo.heldTrig = [] ∧ s.epo.sealing = none ∧ s.coordinated = true) ∧
    (∃ (c : Ctx) (m : Byte) (s : State), s.accepts 0x18 c (epochParams m) = true ∧ 1 < m.toNat) :=
  ⟨⟨ring, 2, 4000, run 0x02 (getFeatureParams (2 : Byte)) up, by decide +kernel⟩,
   ⟨ring, 9, run 0x02 (getFeatureParams (9 : Byte)) up, by decide +kernel⟩,
   ⟨ring, 1, run 0x03 (setFeatureParams 3 (1 : DWord)) up, by decide +kernel⟩,
   ⟨ring, 100, run 0x03 (setFeatureParams 2 (100 : DWord)) up, by decide +kernel⟩,
   ⟨ring, 99, run 0x03 (setFeatureParams 2 (99 : DWord)) up, by decide +kernel⟩,
   ⟨ring, 99, run 0x03 (setFeatureParams 1 (99 : DWord)) up, by decide +kernel⟩,
   ⟨ring, 3, 2, 0, run 0x03 (setFeatureParams (3 : Byte) (2 : DWord)) up, by decide +kernel⟩,
   ⟨ring, 9, 0, run 0x03 (setFeatureParams (9 : Byte) (0 : DWord)) up, by decide +kernel⟩,
   ⟨ring, run 0x19 (epochParams 0) up, by decide +kernel⟩,
   ⟨ring, run 0x19 (epochParams 1) up, by decide +kernel⟩,
   ⟨ring, 0, run 0x18 (epochParams (0 : Byte)) up, by decide +kernel⟩,
   ⟨ring, 2, run 0x18 (epochParams (2 : Byte)) up, by decide +kernel⟩⟩

theorem witness_transfer_commands :
    (∃ (c : Ctx) (w : Word) (o : SlotRead) (s : State), s.accepts 0x01 c (identifyParams 0 0 w) = true ∧ c.path = .sideband ∧ (slotRef w.toNat).present = false) ∧
    (∃ (p q i : Nat) (c : Ctx) (w : Word) (o : SlotRead) (r : SlotRef) (s : State), s.accepts 0x01 c (identifyParams 0 0 w) = true ∧ c.path = .ring p q i ∧ s.slotCheck p q i w o true (fun v _ => decide (4096 ≤ v.slotSize)) = .pass r) ∧
    (∃ (p q i : Nat) (c : Ctx) (a : DWord) (n w : Word) (o : SlotRead) (e : MediaEnv) (r : SlotRef) (s : State), s.accepts 0x10 c (readXParams a n w) = true ∧ c.path = .ring p q i ∧ s.rangeCheck a.toNat n.toNat xferLimit = none ∧ s.slotCheck p q i w o true (fun v _ => decide (n.toNat ≤ v.slotSize)) = .pass r ∧ s.deniedRange (masterOf c) a.toNat n.toNat false = none ∧ (s.readRange a.toNat n.toNat e).fail.isNone = true ∧ (s.readRange a.toNat n.toNat e).rebuilt = false ∧ (s.readRange a.toNat n.toNat e).bytes.isEmpty = false ∧ (((((s.readRange a.toNat n.toNat e).after.writeSlot p q i r (s.readRange a.toNat n.toNat e).bytes).returnSlot
        p q i r .done (s.readRange a.toNat n.toNat e).bytes.length).reply (s.engineOf a.toNat) c .done n.toNat)).cat.stuck = false ∧ (((((s.readRange a.toNat n.toNat e).after.writeSlot p q i r (s.readRange a.toNat n.toNat e).bytes).returnSlot
        p q i r .done (s.readRange a.toNat n.toNat e).bytes.length).reply (s.engineOf a.toNat) c .done n.toNat)).cat.forged = none) ∧
    (∃ (p q i : Nat) (c : Ctx) (a : DWord) (n w : Word) (o : SlotRead) (e : MediaEnv) (r : SlotRef) (x : Status) (s : State), s.accepts 0x10 c (readXParams a n w) = true ∧ c.path = .ring p q i ∧ s.rangeCheck a.toNat n.toNat xferLimit = none ∧ s.slotCheck p q i w o true (fun v _ => decide (n.toNat ≤ v.slotSize)) = .pass r ∧ s.deniedRange (masterOf c) a.toNat n.toNat false = some x ∧ s.cat.stuck = false ∧ s.cat.forged = none ∧ n.toNat ≠ 0) ∧
    (∃ (p q i : Nat) (c : Ctx) (a : DWord) (n w : Word) (o : SlotRead) (d : HostData) (e : MediaEnv) (r : SlotRef) (s : State), s.accepts 0x11 c (writeXParams a n w) = true ∧ c.path = .ring p q i ∧ s.rangeCheck a.toNat n.toNat xferLimit = none ∧ s.slotCheck p q i w o true (fun _ v => ownLen v == n.toNat) = .pass r ∧ s.med.readOnly = false ∧ s.deniedRange (masterOf c) a.toNat n.toNat true = none ∧ d.ok = true ∧ (s.writeRange (linesOf a.toNat n.toNat) a.toNat n.toNat (fun i => d.bytes.getD i 0) (fun s l => s.home l) e).fail.isNone = true ∧ (s.writeRange (linesOf a.toNat n.toNat) a.toNat n.toNat (fun i => d.bytes.getD i 0) (fun s l => s.home l) e).rebuilt = false ∧ (((((s.writeRange (linesOf a.toNat n.toNat) a.toNat n.toNat (fun i => d.bytes.getD i 0)
        (fun s l => s.home l) e).after).returnSlot p q i r .done n.toNat).reply (s.engineOf a.toNat) c .done
        (s.writeRange (linesOf a.toNat n.toNat) a.toNat n.toNat (fun i => d.bytes.getD i 0) (fun s l => s.home l) e).epoch)).cat.stuck = false ∧ (((((s.writeRange (linesOf a.toNat n.toNat) a.toNat n.toNat (fun i => d.bytes.getD i 0)
        (fun s l => s.home l) e).after).returnSlot p q i r .done n.toNat).reply (s.engineOf a.toNat) c .done
        (s.writeRange (linesOf a.toNat n.toNat) a.toNat n.toNat (fun i => d.bytes.getD i 0) (fun s l => s.home l) e).epoch)).cat.forged = none) ∧
    (∃ (p q i : Nat) (c : Ctx) (a : DWord) (n w : Word) (o : SlotRead) (d : HostData) (e : MediaEnv) (r : SlotRef) (s : State), s.accepts 0x11 c (writeXParams a n w) = true ∧ c.path = .ring p q i ∧ s.rangeCheck a.toNat n.toNat xferLimit = none ∧ s.slotCheck p q i w o true (fun _ v => ownLen v == n.toNat) = .pass r ∧ s.med.readOnly = true ∧ (((s.returnSlot p q i r .readOnly n.toNat).reply (s.engineOf a.toNat) c .readOnly 0)).cat.stuck = false ∧ (((s.returnSlot p q i r .readOnly n.toNat).reply (s.engineOf a.toNat) c .readOnly 0)).cat.forged = none) :=
  ⟨⟨side, 0, ⟨true, 0⟩, up, by decide +kernel⟩,
   ⟨0, 0, 0, ring, 0x80000000, ⟨true, 0x10000001⟩, slotRef 0x80000000, slotted (run 0x01 (identifyParams 0 0 (0x80000000 : Word)) up), by decide +kernel⟩,
   ⟨0, 0, 0, ring, 0, 16, 0x80000000, ⟨true, 1⟩, quietMedia, slotRef 0x80000000, slotted (run 0x10 (readXParams (0 : DWord) (16 : Word) (0x80000000 : Word)) up), by decide +kernel⟩,
   ⟨0, 0, 0, ring, 0, 16, 0x80000000, ⟨true, 1⟩, quietMedia, slotRef 0x80000000, .retired, { slotted (run 0x10 (readXParams (0 : DWord) (16 : Word) (0x80000000 : Word)) up) with cry := { up.cry with kids := [(0, { st := .retired })] } }, by decide +kernel⟩,
   ⟨0, 0, 0, ring, 0, 16, 0x80000000, ⟨true, 0x100001⟩, ⟨true, []⟩, quietMedia, slotRef 0x80000000, slotted (run 0x11 (writeXParams (0 : DWord) (16 : Word) (0x80000000 : Word)) up), by decide +kernel⟩,
   ⟨0, 0, 0, ring, 0, 16, 0x80000000, ⟨true, 0x100001⟩, ⟨true, []⟩, quietMedia, slotRef 0x80000000, { slotted (run 0x11 (writeXParams (0 : DWord) (16 : Word) (0x80000000 : Word)) up) with med := { up.med with readOnly := true } }, by decide +kernel⟩⟩

theorem witness_range_commands :
    (∃ (c : Ctx) (a b n : DWord) (e : MediaEnv) (s : State), s.accepts 0x12 c (copyParams a b n) = true ∧ b.toNat < 2 ^ 49 ∧ s.rangeCheck a.toNat n.toNat copyLimit = none ∧ s.rangeCheck b.toNat n.toNat copyLimit = none ∧ s.med.readOnly = false ∧ s.deniedRange (masterOf c) a.toNat n.toNat false = none ∧ s.deniedRange (masterOf c) b.toNat n.toNat true = none ∧ ((s.copyRange c a.toNat b.toNat n.toNat e)).cat.stuck = false ∧ ((s.copyRange c a.toNat b.toNat n.toNat e)).cat.forged = none) ∧
    (∃ (c : Ctx) (a b n : DWord) (e : MediaEnv) (s : State), s.accepts 0x12 c (copyParams a b n) = true ∧ b.toNat < 2 ^ 49 ∧ s.rangeCheck a.toNat n.toNat copyLimit = none ∧ s.rangeCheck b.toNat n.toNat copyLimit = none ∧ s.med.readOnly = true ∧ ((s.reply (s.engineOf a.toNat) c .readOnly 0)).cat.stuck = false ∧ ((s.reply (s.engineOf a.toNat) c .readOnly 0)).cat.forged = none) ∧
    (∃ (c : Ctx) (a n : DWord) (e : MediaEnv) (s : State), s.accepts 0x13 c (rangeParams a n) = true ∧ s.rangeCheck a.toNat n.toNat s.capacity = none ∧ s.med.readOnly = false ∧ s.deniedRange (masterOf c) a.toNat n.toNat true = none ∧ s.zeroEntries a.toNat n.toNat = [] ∧ (s.writeRange (linesOf a.toNat n.toNat) a.toNat n.toNat (fun _ => 0) (fun s l => s.home l) e).fail.isNone = true ∧ (s.writeRange (linesOf a.toNat n.toNat) a.toNat n.toNat (fun _ => 0) (fun s l => s.home l) e).rebuilt = false ∧ (((s.writeRange (linesOf a.toNat n.toNat) a.toNat n.toNat (fun _ => 0) (fun s l => s.home l) e).after.reply
        (s.engineOf a.toNat) c .done (s.writeRange (linesOf a.toNat n.toNat) a.toNat n.toNat (fun _ => 0) (fun s l => s.home l) e).epoch)).cat.stuck = false ∧ (((s.writeRange (linesOf a.toNat n.toNat) a.toNat n.toNat (fun _ => 0) (fun s l => s.home l) e).after.reply
        (s.engineOf a.toNat) c .done (s.writeRange (linesOf a.toNat n.toNat) a.toNat n.toNat (fun _ => 0) (fun s l => s.home l) e).epoch)).cat.forged = none) ∧
    (∃ (c : Ctx) (a n : DWord) (e : MediaEnv) (s : State), s.accepts 0x13 c (rangeParams a n) = true ∧ s.rangeCheck a.toNat n.toNat s.capacity = none ∧ s.med.readOnly = false ∧ s.deniedRange (masterOf c) a.toNat n.toNat true = none ∧ ((s.zeroRange c a.toNat n.toNat e)).cat.stuck = false ∧ ((s.zeroRange c a.toNat n.toNat e)).cat.forged = none) ∧
    (∃ (c : Ctx) (a n : DWord) (e : MediaEnv) (s : State), s.accepts 0x13 c (rangeParams a n) = true ∧ s.rangeCheck a.toNat n.toNat s.capacity = none ∧ s.med.readOnly = true ∧ ((s.reply (s.engineOf a.toNat) c .readOnly 0)).cat.stuck = false ∧ ((s.reply (s.engineOf a.toNat) c .readOnly 0)).cat.forged = none) ∧
    (∃ (c : Ctx) (a n : DWord) (s : State), s.accepts 0x14 c (rangeParams a n) = true ∧ s.rangeCheck a.toNat n.toNat s.capacity = none ∧ s.med.readOnly = false ∧ s.deniedRange (masterOf c) a.toNat n.toNat true = none ∧ (s.discardRange c a.toNat n.toNat).cat.stuck = false ∧ (s.discardRange c a.toNat n.toNat).cat.forged = none) ∧
    (∃ (c : Ctx) (a n : DWord) (s : State), s.accepts 0x14 c (rangeParams a n) = true ∧ s.rangeCheck a.toNat n.toNat s.capacity = none ∧ s.med.readOnly = true ∧ ((s.reply (s.engineOf a.toNat) c .readOnly 0)).cat.stuck = false ∧ ((s.reply (s.engineOf a.toNat) c .readOnly 0)).cat.forged = none) ∧
    (∃ (c : Ctx) (a n : DWord) (s : State), s.accepts 0x15 c (rangeParams a n) = true ∧ s.rangeCheck a.toNat n.toNat s.capacity = none ∧ (((linesOf a.toNat n.toNat).foldl (fun s l => s.flushLine l) s)).cat.stuck = false ∧ (((linesOf a.toNat n.toNat).foldl (fun s l => s.flushLine l) s)).cat.forged = none) ∧
    (∃ (c : Ctx) (a n : DWord) (s : State), s.accepts 0x16 c (rangeParams a n) = true ∧ s.rangeCheck a.toNat n.toNat s.capacity = none ∧ (s.invalRange c a.toNat n.toNat).cat.stuck = false ∧ (s.invalRange c a.toNat n.toNat).cat.forged = none) :=
  ⟨⟨ring, 0, 128, 16, quietMedia, run 0x12 (copyParams (0 : DWord) (128 : DWord) (16 : DWord)) up, by decide +kernel⟩,
   ⟨ring, 0, 128, 16, quietMedia, { run 0x12 (copyParams (0 : DWord) (128 : DWord) (16 : DWord)) up with med := { up.med with readOnly := true } }, by decide +kernel⟩,
   ⟨ring, 0, 16, quietMedia, run 0x13 (rangeParams (0 : DWord) (16 : DWord)) up, by decide +kernel⟩,
   ⟨ring, 0, 16, quietMedia, run 0x13 (rangeParams (0 : DWord) (16 : DWord)) up, by decide +kernel⟩,
   ⟨ring, 0, 16, quietMedia, { run 0x13 (rangeParams (0 : DWord) (16 : DWord)) up with med := { up.med with readOnly := true } }, by decide +kernel⟩,
   ⟨ring, 0, 65536, run 0x14 (rangeParams (0 : DWord) (65536 : DWord)) up, by decide +kernel⟩,
   ⟨ring, 0, 16, { run 0x14 (rangeParams (0 : DWord) (16 : DWord)) up with med := { up.med with readOnly := true } }, by decide +kernel⟩,
   ⟨ring, 0, 256, ((run 0x15 (rangeParams (0 : DWord) (256 : DWord)) up).setNc 1 1 { st := .m, epoch := 1, data := 9 }).setDir 1 { st := .ex, sharers := 2 }, by decide +kernel⟩,
   ⟨ring, 0, 256, ((run 0x16 (rangeParams (0 : DWord) (256 : DWord)) up).setNc 1 1 { st := .m, epoch := 1, data := 9, pin := true }).setDir 1 { st := .ex, sharers := 2, pins := 2 }, by decide +kernel⟩⟩

theorem witness_close_triggers :
    (∃ (p : Nat) (s : State), s.takesWrite p = true ∧ s.coreUp = true ∧ s.epo.rollback = false ∧ s.epo.heldTrig = [] ∧ (s.port p).heldDw = [] ∧ s.epo.sealing = none ∧ s.coordinated = true) ∧
    (∃ (p : Nat) (s : State), s.takesWrite p = true ∧ s.coreUp = true ∧ s.epo.rollback = false ∧ s.epo.heldTrig = [] ∧ (s.port p).heldDw = [] ∧ s.epo.sealing.isSome = true) ∧
    (∃ (p : Nat) (s : State), s.takesWrite p = true ∧ s.coreUp = true ∧ s.epo.rollback = false ∧ (s.port p).heldDw.all (fun h => h.store.isNone) = false) ∧
    (∃ (p : Nat) (s : State), s.takesWrite p = true ∧ s.coreUp = true ∧ s.epo.rollback = true) ∧
    (∃ (s : State), s.coreUp = true ∧ s.autoDue = true ∧ s.epo.rollback = false ∧ s.epo.sealing = none ∧ s.coordinated = true ∧ s.epo.written = true) ∧
    (∃ (s : State), s.coreUp = true ∧ s.autoDue = true ∧ s.epo.rollback = false ∧ s.epo.sealing = none ∧ s.coordinated = true ∧ s.epo.written = false) ∧
    (∃ (s : State), s.autoDue = false) :=
  ⟨⟨0, up, by decide +kernel⟩,
   ⟨0, { up with epo := { up.epo with sealing := some ⟨1, [], [], []⟩ } }, by decide +kernel⟩,
   ⟨0, up.setPort 0 { linkUp := true, heldDw := [{ offset := 0, len := 1, store := some [some 1], env := quietMedia }] }, by decide +kernel⟩,
   ⟨0, { up with epo := { up.epo with rollback := true } }, by decide +kernel⟩,
   ⟨{ up with now := 4000000, epo := { up.epo with written := true } }, by decide +kernel⟩,
   ⟨{ up with now := 4000000 }, by decide +kernel⟩,
   ⟨up, by decide +kernel⟩⟩

theorem witness_seal_reaches_every_tile :
    (∃ (k : Nat) (g : Sealing) (s : State), s.hasTile k = true ∧ s.epo.sealing = some g ∧ s.coreUp = true ∧ s.tileRuns k = true ∧ g.arrived.contains k = false) ∧
    (∃ (k : Nat) (g : Sealing) (s : State), s.hasTile k = true ∧ s.epo.sealing = some g ∧ g.arrived.contains k = true) ∧
    (∃ (k : Nat) (g : Sealing) (s : State), s.hasTile k = true ∧ s.epo.sealing = some g ∧ s.coreUp = true ∧ s.coordinated = true ∧ g.arrived.contains k = true ∧ g.reported.contains k = false ∧ s.sealTiles.all (fun j => (g.reported ++ [k]).contains j) = false) ∧
    (∃ (k : Nat) (g : Sealing) (s : State), s.hasTile k = true ∧ s.epo.sealing = some g ∧ s.coreUp = true ∧ s.coordinated = true ∧ g.arrived.contains k = true ∧ g.reported.contains k = false ∧ s.sealTiles.all (fun j => (g.reported ++ [k]).contains j) = true) ∧
    (∃ (k : Nat) (w : Walk) (s : State), s.hasTile k = true ∧ s.walk k = some w ∧ s.coreUp = true ∧ s.tileRuns k = true ∧ (s.setLines k w.set) = [] ∧ 1 < w.left) ∧
    (∃ (k : Nat) (w : Walk) (s : State), s.hasTile k = true ∧ s.walk k = some w ∧ s.coreUp = true ∧ s.tileRuns k = true ∧ (s.setLines k w.set) = [] ∧ w.left ≤ 1) :=
  ⟨⟨0, ⟨1, [], [], []⟩, { up with epo := { up.epo with sealing := some ⟨1, [], [], []⟩ } }, by decide +kernel⟩,
   ⟨0, ⟨1, [0], [], []⟩, { up with epo := { up.epo with sealing := some ⟨1, [0], [], []⟩ } }, by decide +kernel⟩,
   ⟨0, ⟨1, [0], [], []⟩, { up with epo := { up.epo with sealing := some ⟨1, [0], [], []⟩ } }, by decide +kernel⟩,
   ⟨0, ⟨1, [0, 1, 2, 3, 4, 5, 6, 7], [1, 2, 3, 4, 5, 6, 7], []⟩, { up with epo := { up.epo with sealing := some ⟨1, [0, 1, 2, 3, 4, 5, 6, 7], [1, 2, 3, 4, 5, 6, 7], []⟩ } }, by decide +kernel⟩,
   ⟨0, ⟨1, 0, 5⟩, up.setWalk 0 (some ⟨1, 0, 5⟩), by decide +kernel⟩,
   ⟨0, ⟨1, 0, 1⟩, up.setWalk 0 (some ⟨1, 0, 1⟩), by decide +kernel⟩⟩

theorem witness_markers_raise_d :
    (∃ (k : Nat) (s : State), s.hasTile k = true ∧ s.coreUp = true ∧ s.tileRuns k = true ∧ s.cry.haltCause = 0 ∧ tget (fun _ => 0) s.epo.marker k < s.drainedTo k) ∧
    (∃ (k : Nat) (s : State), s.hasTile k = true ∧ s.drainedTo k ≤ tget (fun _ => 0) s.epo.marker k) ∧
    (∃ (k : Nat) (s : State), s.hasTile k = true) :=
  ⟨⟨0, { up with epo := { up.epo with sealed := 1, openE := 2, walked := (List.range 8).map (fun t => (t, 1)), marker := (List.range 7).map (fun t => (t + 1, 1)) } }, by decide +kernel⟩,
   ⟨0, up, by decide +kernel⟩,
   ⟨0, up, by decide +kernel⟩⟩

theorem witness_abort_and_rollback :
    (∃ (s : State), s.coreUp = true ∧ s.cry.haltCause = 0 ∧ s.epo.rollback = false) ∧
    (∃ (s : State), s.epo.rollback = true) ∧
    (∃ (s : State), s.epo.rollback = true ∧ s.coreUp = true ∧ s.cry.haltCause = 0 ∧ s.coh.txs = [] ∧ s.epo.sealing = none) ∧
    (∃ (s : State), s.coreUp = true ∧ s.epo.coord = 0 ∧ s.tileRuns 0 = false ∧ s.tileRuns 1 = true ∧ s.epo.sealing = none) ∧
    (∃ (s : State), s.coreUp = true ∧ s.epo.coord = 1 ∧ s.tileRuns 0 = true ∧ s.epo.sealing = none) :=
  ⟨⟨up, by decide +kernel⟩,
   ⟨{ up with epo := { up.epo with rollback := true } }, by decide +kernel⟩,
   ⟨{ up with epo := { up.epo with rollback := true } }, by decide +kernel⟩,
   ⟨{ up with flt := { up.flt with halted := 1 } }, by decide +kernel⟩,
   ⟨{ up with epo := { up.epo with coord := 1 } }, by decide +kernel⟩⟩

theorem witness_stager_programs_pages :
    (∃ (k spn f n e : Nat) (s : State), s.hasTile k = true ∧ s.coreRuns k = true ∧ s.cat.stuck = false ∧ s.cat.forged = none ∧ n < 3 ∧ s.programEpoch k = e ∧ s.urgent k = [] ∧ e ≤ s.epo.sealed ∧ s.pieceReady k e (.folio f n) = true ∧ s.splitDue k f = false ∧ s.pageFree k spn = true) ∧
    (∃ (k spn pad : Nat) (l : List Piece) (s : State), s.hasTile k = true ∧ s.coreRuns k = true ∧ l.all (fun p => decide (s.pieceReady k (s.programEpoch k) p = false)) = true ∧ (s).cat.stuck = false ∧ (s).cat.forged = none) ∧
    (∃ (k spn f n : Nat) (g : Page) (i : PageItem) (s : State), s.hasTile k = true ∧ s.coreRuns k = true ∧ s.page k spn = some g ∧ g.programmed = false ∧ g.reloc = false ∧ g.merge = false ∧ s.opsPending k (fun o => o.prog && o.spn == spn) = false ∧ g.items = [i] ∧ i.piece = .folio f n ∧ (s.programDone k spn).cat.stuck = false ∧ s.cat.forged = none) ∧
    (∃ (k f : Nat) (s : State), s.hasTile k = true ∧ s.coreRuns k = true ∧ s.coolDue k = true ∧ homeFolio s.tiles f = k) ∧
    (∃ (k f : Nat) (s : State), s.hasTile k = true ∧ s.coolDue k = false) ∧
    (∃ (k f spn n : Nat) (s : State), s.hasTile k = true ∧ s.coreRuns k = true ∧ n < 3 ∧ s.mergeable k f = true ∧ s.pageFree k spn = true ∧ s.weedReady k = true) ∧
    (∃ (k spn f n : Nat) (g : Page) (i : PageItem) (s : State), s.hasTile k = true ∧ s.coreRuns k = true ∧ s.page k spn = some g ∧ g.programmed = false ∧ g.merge = true ∧ s.opsPending k (fun o => o.prog && o.spn == spn) = false ∧ g.items = [i] ∧ i.piece = .folio f n ∧ s.byLeaf (512 * f) = true ∧ s.cat.bufs = [] ∧ s.cat.undo = [] ∧ (s.programDone k spn).cat.stuck = false ∧ s.cat.forged = none) ∧
    (∃ (k f spn n : Nat) (s : State), s.hasTile k = true ∧ s.coreRuns k = true ∧ s.mergeable k f = false) :=
  ⟨⟨0, 0, 0, 0, 1, { up.stage 0 { data := 5 } 1 with epo := { up.epo with openE := 2, sealed := 1 } }, by decide +kernel⟩,
   ⟨0, 0, 0, [], up, by decide +kernel⟩,
   ⟨0, 0, 0, 0, ⟨1, 0, false, [⟨.folio 0 0, [], 0, 1, []⟩], false, false, [], [], 0⟩, ⟨.folio 0 0, [], 0, 1, []⟩, up.setPage 0 0 (some ⟨1, 0, false, [⟨.folio 0 0, [], 0, 1, []⟩], false, false, [], [], 0⟩), by decide +kernel⟩,
   ⟨0, 0, { up.warm 0 with now := 10 ^ 15 }, by decide +kernel⟩,
   ⟨0, 0, up, by decide +kernel⟩,
   ⟨0, 0, 0, 0, { fitted up with cat := { up.cat with folios := [(0, { place := .split 0 })], mergeDue := [0] } }, by decide +kernel⟩,
   ⟨0, 0, 0, 0, ⟨1, 0, true, [⟨.folio 0 0, [], 0, 1, []⟩], false, true, [], [], 0⟩, ⟨.folio 0 0, [], 0, 1, []⟩, (up.setPage 0 0 (some ⟨1, 0, true, [⟨.folio 0 0, [], 0, 1, []⟩], false, true, [], [], 0⟩)).setEntry false 0 { place := .split 0 }, by decide +kernel⟩,
   ⟨0, 0, 0, 0, up, by decide +kernel⟩⟩

theorem witness_weeder_keeps_epochs :
    (∃ (k v d spn src : Nat) (l : List PageItem) (m : List (Nat × List PageItem)) (s : State), s.hasTile k = true ∧ s.coreRuns k = true ∧ tget (fun _ => none) s.cat.relocs k = none ∧ s.victimOk k v = true ∧ s.pageFree k spn = true ∧ s.weedReady k = true ∧ spn / s.ppb k = d ∧ d ≠ v ∧ s.liveSet k v = (src, l) :: m) ∧
    (∃ (k : Nat) (r : Reloc) (g : Page) (s : State), s.hasTile k = true ∧ s.coreRuns k = true ∧ tget (fun _ => none) s.cat.relocs k = some r ∧ r.step = 3 ∧ s.opsPending k (fun o => o.prog && o.spn == r.spn) = false ∧ s.page k r.spn = some g) ∧
    (∃ (k : Nat) (r : Reloc) (g : Page) (s : State), s.hasTile k = true ∧ s.coreRuns k = true ∧ tget (fun _ => none) s.cat.relocs k = some r ∧ r.step = 3 ∧ s.opsPending k (fun o => o.prog && o.spn == r.spn) = false ∧ s.page k r.spn = some g ∧ g.programmed = false) ∧
    (∃ (k spn : Nat) (r : Reloc) (s : State), s.hasTile k = true ∧ s.coreRuns k = true ∧ tget (fun _ => none) s.cat.relocs k = some r ∧ r.step = 6 ∧ s.opsPending k (fun o => !o.prog && o.spn == r.victim * s.ppb k) = false ∧ spn < 2 ^ 28 ∧ spn / s.ppb k = r.victim) ∧
    (∃ (k : Nat) (s : State), s.hasTile k = true ∧ s.coreRuns k = true ∧ s.scanWaits k = false) ∧
    (∃ (k : Nat) (s : State), s.hasTile k = true ∧ s.pwr.scanning = true) ∧
    (∃ (k : Nat) (s : State), s.hasTile k = true ∧ s.pwr.scanning = false) :=
  ⟨⟨0, 0, 1, 1, 0, [⟨.folio 0 0, [], 0, 1, []⟩], [], (((fitted up).setBlock 0 0 { degraded := true, free := false }).setPage 0 0 (some ⟨1, 0, false, [⟨.folio 0 0, [], 0, 1, []⟩], true, false, [], [], 0⟩)).setEntry false 0 { place := .media 0 0 0 }, by decide +kernel⟩,
   ⟨0, ⟨0, 1, 0, 1, 3, [(0, [⟨.folio 0 0, [], 0, 1, []⟩])], false⟩, ⟨1, 0, true, [⟨.folio 0 0, [], 0, 1, []⟩], false, false, [], [], 0⟩, { up with cat := { up.cat with relocs := [(0, some { victim := 0, dest := 1, src := 0, spn := 1, step := 3, todo := [(0, [⟨.folio 0 0, [], 0, 1, []⟩])] })], pages := [(1, some ⟨1, 0, true, [⟨.folio 0 0, [], 0, 1, []⟩], false, false, [], [], 0⟩)] } }, by decide +kernel⟩,
   ⟨0, ⟨0, 1, 0, 1, 3, [(0, [⟨.folio 0 0, [], 0, 1, []⟩])], false⟩, ⟨1, 0, true, [⟨.folio 0 0, [], 0, 1, []⟩], false, false, [], [], 0⟩, { up with cat := { up.cat with relocs := [(0, some { victim := 0, dest := 1, src := 0, spn := 1, step := 3, todo := [(0, [⟨.folio 0 0, [], 0, 1, []⟩])] })], pages := [(1, some ⟨1, 0, true, [⟨.folio 0 0, [], 0, 1, []⟩], false, false, [], [], 0⟩)] } }, by decide +kernel⟩,
   ⟨0, 0, ⟨0, 1, 0, 1, 6, [(0, [⟨.folio 0 0, [], 0, 1, []⟩])], false⟩, { up with cat := { up.cat with relocs := [(0, some { victim := 0, dest := 1, src := 0, spn := 1, step := 6, todo := [(0, [⟨.folio 0 0, [], 0, 1, []⟩])] })], pages := [(1, some ⟨1, 0, true, [⟨.folio 0 0, [], 0, 1, []⟩], false, false, [], [], 0⟩)] } }, by decide +kernel⟩,
   ⟨0, up, by decide +kernel⟩,
   ⟨0, { up with pwr := { up.pwr with scanning := true } }, by decide +kernel⟩,
   ⟨0, up, by decide +kernel⟩⟩

theorem witness_channel_slots_and_phases :
    (∃ (k c : Nat) (w : Window) (s : State), s.hasTile k = true ∧ c < 16 ∧ s.mediaRuns k = true ∧ (s.chan k c).rate ≠ 3 ∧ (s.chan k c).sinceBg < 2 ∧ ((s.chan k c).queue.filter (fun x => s.planeIdle k c (s.memberOf k c x.spn))).find? (fun x => x.kind == .rescue) = some w) ∧
    (∃ (k c : Nat) (s : State), s.hasTile k = true ∧ c < 16 ∧ s.mediaRuns k = true ∧ (s.chan k c).rate = 3) ∧
    (∃ (k c : Nat) (s : State), s.hasTile k = true ∧ c < 16 ∧ s.mediaRuns k = true ∧ (s.chan k c).rate ≠ 3 ∧ (s.chan k c).queue = [] ∧ (s.chan k c).loads = [] ∧ (s.chan k c).back = []) ∧
    (∃ (k : Nat) (o : StartedOp) (s : State), s.hasTile k = true ∧ s.mediaRuns k = true ∧ (s.cal k).stretching = none ∧ (s.cal k).started = [] ∧ (s.cal k).due = [] ∧ (s.cal k).ready = [o] ∧ o.ch % 8 = s.phaseNow ∧ s.levelOf k < 2 ∧ (s.cal k).begun ≠ some (s.now / 24000) ∧ s.now < s.phaseStart k + 1000 ∧ s.unsensed k o = false) ∧
    (∃ (k : Nat) (s : State), s.hasTile k = true ∧ s.mediaRuns k = true ∧ (s.cal k).stretching.isSome = true) ∧
    (∃ (k : Nat) (o : StartedOp) (s : State), s.hasTile k = true ∧ s.mediaRuns k = true ∧ (s.cal k).startAt + 21500 ≤ s.now ∧ (s.cal k).started = [o] ∧ s.carriedBack k o.ch .status (fun x => blockTarget x.block == o.target) = true) ∧
    (∃ (k : Nat) (o : StartedOp) (s : State), s.hasTile k = true ∧ s.mediaRuns k = true ∧ (s.cal k).startAt + 21500 ≤ s.now ∧ (s.cal k).started = [o] ∧ (s.cal k).stretching = none ∧ s.carriedBack k o.ch .status (fun x => blockTarget x.block == o.target) = true) ∧
    (∃ (k : Nat) (o : StartedOp) (n : Nat) (s : State), s.hasTile k = true ∧ o.ch < 16 ∧ o.target < 4 ∧ s.mediaRuns k = true ∧ (s.cal k).started = [o] ∧ (s.cal k).stretching = some n ∧ n + 16000 ≤ s.now) :=
  ⟨⟨0, 0, ⟨.rescue, 3, 4, 0, 0, []⟩, up.setChan 0 0 { rate := 0, queue := [⟨.foreground, 2, 4, 0, 0, []⟩, ⟨.rescue, 3, 4, 0, 0, []⟩] }, by decide +kernel⟩,
   ⟨0, 0, up.setChan 0 0 {}, by decide +kernel⟩,
   ⟨0, 0, up, by decide +kernel⟩,
   ⟨0, ⟨0, 0, 0, 0, true, 0⟩, up.setCal 0 { ready := [⟨0, 0, 0, 0, true, 0⟩] }, by decide +kernel⟩,
   ⟨0, up.setCal 0 { stretching := some 0 }, by decide +kernel⟩,
   ⟨0, ⟨0, 0, 0, 0, true, 0⟩, (({ up with now := 40000 } : State).setCal 0 { started := [⟨0, 0, 0, 0, true, 0⟩] }).setChan 0 0 { trained := true, rate := 0, carried := [{ kind := .status, block := 0, spn := 0, unit := 0 }] }, by decide +kernel⟩,
   ⟨0, ⟨0, 0, 0, 0, true, 0⟩, (({ up with now := 40000 } : State).setCal 0 { started := [⟨0, 0, 0, 0, true, 0⟩] }).setChan 0 0 { trained := true, rate := 0, carried := [{ kind := .status, block := 0, spn := 0, unit := 0 }] }, by decide +kernel⟩,
   ⟨0, ⟨0, 0, 0, 0, true, 0⟩, 0, (({ up with now := 40000 } : State).setCal 0 { started := [⟨0, 0, 0, 0, true, 0⟩], stretching := some 0 }).setChan 0 0 { trained := true, rate := 0, carried := [{ kind := .status, block := 0, spn := 0, unit := 0 }] }, by decide +kernel⟩⟩

theorem witness_line_read_methods :
    (∃ (k l spn p q : Nat) (s : State), s.hasTile k = true ∧ s.mediaRuns k = true ∧ s.mediaPlace l = some (spn, p, q) ∧ (s.page k spn).isSome = true ∧ s.lineRead l = none ∧ s.home l = k ∧ 12 ≤ (s.available k spn).length ∧ (s.available k spn).contains (dataChan spn p) = true ∧ s.driftMargin k (dataChan spn p) spn = 0) ∧
    (∃ (k l spn p q : Nat) (s : State), s.hasTile k = true ∧ s.mediaRuns k = true ∧ s.mediaPlace l = some (spn, p, q) ∧ (s.page k spn).isSome = true ∧ s.lineRead l = none ∧ s.home l = k ∧ 12 ≤ (s.available k spn).length ∧ (s.available k spn).contains (dataChan spn p) = true ∧ s.pwr.straps.profile = false ∧ s.driftMargin k (dataChan spn p) spn ≠ 0) ∧
    (∃ (k l spn p q : Nat) (s : State), s.hasTile k = true ∧ s.mediaRuns k = true ∧ s.mediaPlace l = some (spn, p, q) ∧ (s.page k spn).isSome = true ∧ s.lineRead l = none ∧ s.home l = k ∧ 12 ≤ (s.available k spn).length ∧ (s.available k spn).contains (dataChan spn p) = false ∧ dataChan spn p < 16) ∧
    (∃ (k l spn p q : Nat) (s : State), s.hasTile k = true ∧ s.mediaRuns k = true ∧ s.mediaPlace l = some (spn, p, q) ∧ (s.page k spn).isSome = true ∧ s.lineRead l = none ∧ s.home l = k ∧ (s.available k spn).length < 12) ∧
    (∃ (k l : Nat) (s : State), s.hasTile k = true ∧ s.mediaPlace l = none) ∧
    (∃ (k l c : Nat) (w : Window) (b : Bool) (r : LineRead) (s : State), s.hasTile k = true ∧ c < 16 ∧ s.mediaRuns k = true ∧ (s.chan k c).ended.find? (fun e => e.1.line == l) = some (w, b) ∧ s.flt.inj = [] ∧ s.lineRead l = some r ∧ r.asked = [c] ∧ r.member = c ∧ r.mode = .direct ∧ r.good = [] ∧ r.failed = []) ∧
    (∃ (k l c : Nat) (w : Window) (b : Bool) (r : LineRead) (s : State), s.hasTile k = true ∧ c < 16 ∧ s.mediaRuns k = true ∧ (s.chan k c).ended.find? (fun e => e.1.line == l) = some (w, b) ∧ s.flt.inj = [] ∧ s.lineRead l = some r ∧ r.asked = [c] ∧ r.member = c ∧ r.mode = .direct ∧ r.good = [] ∧ r.failed = []) ∧
    (∃ (k c l : Nat) (s : State), s.hasTile k = true ∧ c < 16) :=
  ⟨⟨0, 0, 0, 0, 0, ((up.setPage 0 0 (some ⟨1, 0, false, [⟨.folio 0 0, [], 0, 1, []⟩], true, false, [], [], 0⟩)).setEntry false 0 { place := .media 0 0 0 }), by decide +kernel⟩,
   ⟨0, 0, 0, 0, 0, (((up.setPage 0 0 (some ⟨1, 0, false, [⟨.folio 0 0, [], 0, 1, []⟩], true, false, [], [], 0⟩)).setEntry false 0 { place := .media 0 0 0 })).setSpare 0 { dflt := List.replicate 9280 1 }, by decide +kernel⟩,
   ⟨0, 0, 0, 0, 0, (((up.setChan 0 4 {}).setPage 0 0 (some ⟨1, 0, false, [⟨.folio 0 0, [], 0, 1, []⟩], true, false, [], [], 0⟩)).setEntry false 0 { place := .media 0 0 0 }), by decide +kernel⟩,
   ⟨0, 0, 0, 0, 0, (((((((up.setChan 0 0 {}).setChan 0 1 {}).setChan 0 2 {}).setChan 0 3 {}).setChan 0 5 {}).setPage 0 0 (some ⟨1, 0, false, [⟨.folio 0 0, [], 0, 1, []⟩], true, false, [], [], 0⟩)).setEntry false 0 { place := .media 0 0 0 }), by decide +kernel⟩,
   ⟨0, 0, up, by decide +kernel⟩,
   ⟨0, 0, 4, ⟨.foreground, 0, 4, 0, 0, []⟩, false, { mode := .direct, member := 4, asked := [4], good := [], failed := [] }, (((up.setPage 0 0 (some ⟨1, 0, false, [⟨.folio 0 0, [], 0, 1, []⟩], true, false, [], [], 0⟩)).setEntry false 0 { place := .media 0 0 0 }).setChan 0 4 { trained := true, rate := 0, ended := [(⟨.foreground, 0, 4, 0, 0, []⟩, false)] }).setLineRead 0 (some { mode := .direct, member := 4, asked := [4], good := [], failed := [] }), by decide +kernel⟩,
   ⟨0, 0, 4, ⟨.foreground, 0, 4, 0, 0, []⟩, false, { mode := .direct, member := 4, asked := [4], good := [], failed := [] }, (((up.setPage 0 0 (some ⟨1, 0, false, [⟨.folio 0 0, [], 0, 1, []⟩], true, false, [], [], 0⟩)).setEntry false 0 { place := .media 0 0 0 }).setChan 0 4 { trained := true, rate := 0, ended := [(⟨.foreground, 0, 4, 0, 0, []⟩, false)] }).setLineRead 0 (some { mode := .direct, member := 4, asked := [4], good := [], failed := [] }), by decide +kernel⟩,
   ⟨0, 0, 0, { up.setChan 0 0 { heldCmds := [(0, 0)] } with now := 2000 }, by decide +kernel⟩⟩

theorem witness_media_health :
    (∃ (k c j : Nat) (e : Int) (s : State), s.hasTile k = true ∧ c < 16 ∧ j < 4 ∧ s.mediaRuns k = true ∧ s.carriedBack k c .temp (fun x => blockTarget x.block == j) = true) ∧
    (∃ (k c j : Nat) (e : Int) (s : State), s.hasTile k = true ∧ c < 16 ∧ j < 4 ∧ s.mediaRuns k = true ∧ s.carriedBack k c .temp (fun x => blockTarget x.block == j) = false) ∧
    (∃ (k c j : Nat) (a : Bool) (s : State), s.hasTile k = true ∧ c < 16 ∧ j < 4 ∧ s.mediaRuns k = true) ∧
    (∃ (k c j : Nat) (a : Bool) (s : State), s.hasTile k = true ∧ c < 16 ∧ j < 4 ∧ s.mediaRuns k = true) ∧
    (∃ (k c b : Nat) (x y : Nat × Nat) (s : State), s.hasTile k = true ∧ c < 16 ∧ s.mediaRuns k = true ∧ (s.mblock k c b).uncal = true ∧ calClasses [x.1, y.1] = true ∧ s.calCarried k c b 2 = true ∧ x.2 ≤ y.2) ∧
    (∃ (k c b : Nat) (x y : Nat × Nat) (s : State), s.hasTile k = true ∧ c < 16 ∧ s.mediaRuns k = true ∧ (s.mblock k c b).uncal = true ∧ calClasses [x.1, y.1] = true ∧ s.calCarried k c b 2 = true ∧ y.2 < x.2) ∧
    (∃ (k c : Nat) (w : BackWin) (f : Option (Nat × Nat)) (s : State), s.hasTile k = true ∧ c < 16 ∧ s.mediaRuns k = true ∧ s.pwr.straps.profile = false ∧ (s.page k w.spn).isSome = true ∧ (s.block k (w.spn / s.ppb k)).free = false ∧ (s.block k (w.spn / s.ppb k)).member c = w.block ∧ (s.chan k c).carried.find? (fun x => x.kind == .scrub && x.block == w.block && x.spn == w.spn) = some w) ∧
    (∃ (k c n : Nat) (w : BackWin) (s : State), s.hasTile k = true ∧ c < 16 ∧ s.mediaRuns k = true ∧ s.pwr.straps.profile = false ∧ (s.page k w.spn).isSome = true ∧ (s.block k (w.spn / s.ppb k)).free = false ∧ (s.block k (w.spn / s.ppb k)).member c = w.block ∧ (s.chan k c).carried.find? (fun x => x.kind == .scrub && x.block == w.block && x.spn == w.spn) = some w ∧ s.field .medScrub k 0 31 24 < n) ∧
    (∃ (k c m spn : Nat) (e : Ecc) (f : Option (Nat × Nat)) (s : State), s.hasTile k = true ∧ c < 16 ∧ (s.chan k c).carried.find? (fun x => x.kind == .scrub && x.block == m && x.spn == spn) = none) :=
  ⟨⟨0, 0, 0, 0, up.setChan 0 0 { trained := true, rate := 0, carried := [{ kind := .temp, block := 0, spn := 0, unit := 0 }] }, by decide +kernel⟩,
   ⟨0, 0, 0, 0, up, by decide +kernel⟩,
   ⟨0, 0, 0, true, up, by decide +kernel⟩,
   ⟨0, 0, 0, true, up, by decide +kernel⟩,
   ⟨0, 0, 0, (8, 1), (4, 2), (up.setChan 0 0 { trained := true, rate := 0, carried := [⟨.calib, 0, 0, 0⟩, ⟨.calib, 0, 0, 0⟩] }).setMblock 0 0 0 { uncal := true }, by decide +kernel⟩,
   ⟨0, 0, 0, (8, 2), (12, 1), (up.setChan 0 0 { trained := true, rate := 0, carried := [⟨.calib, 0, 0, 0⟩, ⟨.calib, 0, 0, 0⟩] }).setMblock 0 0 0 { uncal := true }, by decide +kernel⟩,
   ⟨0, 0, ⟨.scrub, 0, 0, 0⟩, none, (((up.setPage 0 0 (some ⟨1, 0, false, [⟨.folio 0 0, [], 0, 1, []⟩], true, false, [], [], 0⟩)).setEntry false 0 { place := .media 0 0 0 }).setChan 0 0 { trained := true, rate := 0, carried := [⟨.scrub, 0, 0, 0⟩] }).setBlock 0 0 { free := false }, by decide +kernel⟩,
   ⟨0, 0, 256, ⟨.scrub, 0, 0, 0⟩, (((up.setPage 0 0 (some ⟨1, 0, false, [⟨.folio 0 0, [], 0, 1, []⟩], true, false, [], [], 0⟩)).setEntry false 0 { place := .media 0 0 0 }).setChan 0 0 { trained := true, rate := 0, carried := [⟨.scrub, 0, 0, 0⟩] }).setBlock 0 0 { free := false }, by decide +kernel⟩,
   ⟨0, 0, 0, 0, .clean, none, up, by decide +kernel⟩⟩

theorem witness_ddr_burst_outcomes :
    (∃ (k u b d : Nat) (e : Ecc) (m : Bool) (s : State), s.hasTile k = true ∧ u < 4 ∧ d < 10 ∧ s.ddrRuns k = true ∧ s.inStore k b = false ∧ s.tractValid k (b / 64) = false) ∧
    (∃ (k u b d : Nat) (m : Bool) (s : State), s.hasTile k = true ∧ u < 4 ∧ d < 10 ∧ s.ddrRuns k = true ∧ s.inStore k b = false ∧ s.tractValid k (b / 64) = true ∧ s.flt.inj = []) ∧
    (∃ (k u b d : Nat) (n : Nat) (m : Bool) (s : State), s.hasTile k = true ∧ u < 4 ∧ d < 10 ∧ s.ddrRuns k = true ∧ s.inStore k b = false ∧ s.tractValid k (b / 64) = true ∧ s.flt.inj = [] ∧ s.markedDev k u = none) ∧
    (∃ (k u b d : Nat) (m : Bool) (s : State), s.hasTile k = true ∧ u < 4 ∧ d < 10 ∧ s.ddrRuns k = true ∧ s.inStore k b = false ∧ s.tractValid k (b / 64) = true) ∧
    (∃ (k u b d : Nat) (s : State), s.hasTile k = true ∧ u < 4 ∧ d < 10 ∧ s.ddrRuns k = true ∧ s.inStore k b = true ∧ s.flt.inj = []) ∧
    (∃ (k b : Nat) (e : Ecc) (s : State), s.hasTile k = true ∧ s.ddrRuns k = true ∧ s.inDdr k b = false) ∧
    (∃ (k b : Nat) (e : Ecc) (s : State), s.hasTile k = true ∧ s.ddrRuns k = true ∧ s.inDdr k b = true) ∧
    (∃ (k b : Nat) (s : State), s.hasTile k = true ∧ s.ddrRuns k = true ∧ s.inDdr k b = true ∧ s.flt.inj = []) ∧
    (∃ (k a w : Nat) (d : Bool) (s : State), s.cat.stuck = false ∧ s.cat.forged = none ∧ s.hasTile k = true ∧ a < 13 ∧ w < 16 ∧ s.ddrRuns k = true ∧ s.flt.inj = []) ∧
    (∃ (k a w n : Nat) (d : Bool) (s : State), s.hasTile k = true ∧ a < 13 ∧ w < 16 ∧ s.ddrRuns k = true ∧ s.flt.inj = [] ∧ (s.sramStep k a w d (.corrected n)).cat.stuck = false ∧ (s.sramStep k a w d (.corrected n)).cat.forged = none) ∧
    (∃ (k a w : Nat) (d : Bool) (s : State), s.hasTile k = true ∧ a < 13 ∧ w < 16 ∧ s.ddrRuns k = true ∧ (s.sramStep k a w d .bad).cat.stuck = false ∧ (s.sramStep k a w d .bad).cat.forged = none) :=
  ⟨⟨0, 0, 19200000, 0, .clean, true, { up with pwr := { up.pwr with ddrGib := [(0, 64)] } }, by decide +kernel⟩,
   ⟨0, 0, 19200000, 0, true, { up with pwr := { up.pwr with ddrGib := [(0, 64)] }, cry := { up.cry with tracts := [(300000, true)] } }, by decide +kernel⟩,
   ⟨0, 0, 19200000, 0, 1, true, { up with pwr := { up.pwr with ddrGib := [(0, 64)] }, cry := { up.cry with tracts := [(300000, true)] } }, by decide +kernel⟩,
   ⟨0, 0, 19200000, 0, true, { up with pwr := { up.pwr with ddrGib := [(0, 64)] }, cry := { up.cry with tracts := [(300000, true)] } }, by decide +kernel⟩,
   ⟨0, 0, 5, 0, { up with pwr := { up.pwr with ddrGib := [(0, 64)] } }, by decide +kernel⟩,
   ⟨0, 19200000, .clean, { up with pwr := { up.pwr with ddrGib := [(0, 64)] } }, by decide +kernel⟩,
   ⟨0, 19200000, .clean, { up with pwr := { up.pwr with ddrGib := [(0, 64)] }, cry := { up.cry with tracts := [(300000, true)] } }, by decide +kernel⟩,
   ⟨0, 5, { up with pwr := { up.pwr with ddrGib := [(0, 64)] } }, by decide +kernel⟩,
   ⟨0, 0, 3, true, up, by decide +kernel⟩,
   ⟨0, 0, 3, 0, true, up, by decide +kernel⟩,
   ⟨0, 7, 0, true, up, by decide +kernel⟩⟩

theorem witness_counters_never_repeat :
    (∃ (k n : Nat) (s : State), s.hasTile k = true ∧ s.ddrRuns k = true ∧ s.tractValid k n = false ∧ (s.ddrMap k).leafPool ≤ n * 4096 ∧ n * 4096 + 4096 ≤ (s.ddrMap k).top) ∧
    (∃ (k n m : Nat) (s : State), s.hasTile k = true ∧ s.ddrRuns k = true ∧ n < 2 ^ 24 ∧ m < 2 ^ 24 ∧ m ≠ n) ∧
    (∃ (k n : Nat) (s : State), s.hasTile k = true ∧ s.ddrRuns k = true ∧ s.tractValid k n = true) ∧
    (∃ (k i : Nat) (s : State), s.hasTile k = true ∧ s.ddrRuns k = true ∧ i < s.leafCount k) ∧
    (∃ (k b l j : Nat) (s : State), s.hasTile k = true ∧ s.ddrRuns k = true ∧ nodeOf (s.leafCount k) 0 9 b = some (l, j) ∧ j < 2 ^ 32) ∧
    (∃ (p k : Nat) (s : State), s.takesWrite p = true ∧ s.hasTile k = true ∧ s.ddrRuns k = true ∧ tget (fun _ => false) s.cry.rekeying k = false) ∧
    (∃ (p k : Nat) (s : State), s.takesWrite p = true ∧ s.hasTile k = true ∧ tget (fun _ => false) s.cry.rekeying k = true) ∧
    (∃ (k : Nat) (s : State), s.hasTile k = true ∧ s.ddrRuns k = true ∧ tget (fun _ => false) s.cry.rekeying k = true) :=
  ⟨⟨0, 300000, { up with pwr := { up.pwr with ddrGib := [(0, 64)] } }, by decide +kernel⟩,
   ⟨0, 300000, 0, { up with pwr := { up.pwr with ddrGib := [(0, 64)] } }, by decide +kernel⟩,
   ⟨0, 300000, { up with pwr := { up.pwr with ddrGib := [(0, 64)] }, cry := { up.cry with tracts := [(300000, true)] } }, by decide +kernel⟩,
   ⟨0, 0, { up with pwr := { up.pwr with ddrGib := [(0, 64)] } }, by decide +kernel⟩,
   ⟨0, 5, 0, 5, { up with pwr := { up.pwr with ddrGib := [(0, 64)] } }, by decide +kernel⟩,
   ⟨0, 0, { up with pwr := { up.pwr with ddrGib := [(0, 64)] } }, by decide +kernel⟩,
   ⟨0, 0, { up with cry := { up.cry with rekeying := [(0, true)] } }, by decide +kernel⟩,
   ⟨0, { up with cry := { up.cry with rekeying := [(0, true)] } }, by decide +kernel⟩⟩

theorem witness_key_commands :
    (∃ (c : Ctx) (k : Byte) (a n : DWord) (s : State), s.accepts 0x50 c (keyCreateParams k a n) = true ∧ a.toNat % 65536 = 0 ∧ n.toNat % 65536 = 0 ∧ s.rangeCheck a.toNat n.toNat (2 ^ 40) = none ∧ s.keyAction k.toNat (a.toNat / 65536) (n.toNat / 65536) = .rotate ∧ s.med.readOnly = false ∧ s.epo.rollback = false) ∧
    (∃ (c : Ctx) (k : Byte) (a n : DWord) (f : Bool) (l : List (Nat × Nat)) (s : State), s.accepts 0x50 c (keyCreateParams k a n) = true ∧ a.toNat % 65536 = 0 ∧ n.toNat % 65536 = 0 ∧ s.rangeCheck a.toNat n.toNat (2 ^ 40) = none ∧ s.keyAction k.toNat (a.toNat / 65536) (n.toNat / 65536) = .bind f l ∧ s.med.readOnly = false ∧ s.epo.rollback = false ∧ s.foliosBusy (inRanges l) = false) ∧
    (∃ (c : Ctx) (k : Byte) (a n : DWord) (s : State), s.accepts 0x50 c (keyCreateParams k a n) = true ∧ s.rangeCheck a.toNat n.toNat (2 ^ 40) = none ∧ (¬(a.toNat % 65536 = 0 ∧ n.toNat % 65536 = 0))) ∧
    (∃ (p q i : Nat) (c : Ctx) (k : Byte) (o : Token) (s : State), s.accepts 0x51 c (keyRetireParams k 0) = true ∧ c.path = .ring p q i ∧ s.epo.rollback = false ∧ s.foliosBusy (fun f => s.ofKid k.toNat f) = false ∧ s.cur.lifecycle = .opened ∧ k ≠ 0 ∧ (s.kid k.toNat).st = .live) ∧
    (∃ (p q i : Nat) (c : Ctx) (k : Byte) (o : Token) (s : State), s.accepts 0x51 c (keyRetireParams k 0) = true ∧ c.path = .ring p q i ∧ s.epo.rollback = false ∧ s.foliosBusy (fun f => s.ofKid k.toNat f) = false ∧ s.cur.lifecycle = .sealed) ∧
    (∃ (c : Ctx) (k m r : Byte) (s : State), s.accepts 0x52 c (rightsSetParams k m r) = true ∧ r.toNat < 4 ∧ m.toNat < 8 ∧ s.cur.lifecycle = .opened) ∧
    (∃ (p q i : Nat) (c : Ctx) (k m r : Byte) (s : State), c.path = .ring p q i ∧ s.runs 0x52 c (rightsSetParams k m r) = true ∧ 4 ≤ r.toNat) ∧
    (∃ (k : Nat) (s : State), k < 256 ∧ s.cry.haltCause = 0 ∧ (s.kid k).st = .rotating ∧ s.tileList.all (fun t => s.kidOld t k == 0) = true) ∧
    (∃ (k : Nat) (s : State), k < 256 ∧ (s.kid k).st ≠ .rotating) :=
  ⟨⟨ring, 0, 0, 65536, man 0x50 (keyCreateParams (0 : Byte) (0 : DWord) (65536 : DWord)) up, by decide +kernel⟩,
   ⟨ring, 1, 0, 65536, true, [(0, 1)], man 0x50 (keyCreateParams (1 : Byte) (0 : DWord) (65536 : DWord)) up, by decide +kernel⟩,
   ⟨ring, 1, 0, 4096, man 0x50 (keyCreateParams (1 : Byte) (0 : DWord) (4096 : DWord)) up, by decide +kernel⟩,
   ⟨0, 0, 0, ring, 1, tok, (man 0x51 (keyRetireParams (1 : Byte) 0) up).setKid 1 { st := .live, version := 1, curKey := some ⟨9, 9⟩ }, by decide +kernel⟩,
   ⟨0, 0, 0, ring, 1, tok, let t := man 0x51 (keyRetireParams (1 : Byte) 0) up; { t with cur := { t.cur with lifecycle := .sealed } }, by decide +kernel⟩,
   ⟨ring, 1, 6, 1, man 0x52 (rightsSetParams (1 : Byte) (6 : Byte) (1 : Byte)) up, by decide +kernel⟩,
   ⟨0, 0, 0, ring, 1, 6, 4, man 0x52 (rightsSetParams (1 : Byte) (6 : Byte) (4 : Byte)) up, by decide +kernel⟩,
   ⟨1, up.setKid 1 { st := .rotating, version := 2, curKey := some ⟨9, 9⟩, prevKey := some ⟨8, 8⟩ }, by decide +kernel⟩,
   ⟨0, up, by decide +kernel⟩⟩

theorem witness_route_tables_and_arming :
    (∃ (q0 q i : Nat) (x : SlotRef) (c : Ctx) (k : Byte) (r : BitVec 16) (w n : Word) (lat : BitVec 16) (p : Byte) (o : SlotRead) (h : HostData) (s : State), s.accepts 0x20 c (routeDefineParams k r w n lat p) = true ∧ s.hasSport k.toNat p.toNat = true ∧ r.toNat < 1024 ∧ 280 ≤ lat.toNat ∧ lat.toNat ≤ 1700 ∧ n.toNat ≠ 0 ∧ n.toNat ≤ 65536 ∧ (s.route k.toNat r.toNat).armed = false ∧ c.path = .ring q0 q i ∧ s.slotCheck q0 q i w o true (fun _ v => ownLen v == 16 * n.toNat) = .pass x ∧ h.ok = true ∧ s.tableCheck k.toNat (segsOf n.toNat h.bytes) = none) ∧
    (∃ (q0 q i : Nat) (x : SlotRef) (c : Ctx) (k : Byte) (r : BitVec 16) (w n : Word) (lat : BitVec 16) (p : Byte) (o : SlotRead) (h : HostData) (s : State), s.accepts 0x20 c (routeDefineParams k r w n lat p) = true ∧ s.hasSport k.toNat p.toNat = true ∧ r.toNat < 1024 ∧ 280 ≤ lat.toNat ∧ lat.toNat ≤ 1700 ∧ n.toNat ≠ 0 ∧ n.toNat ≤ 65536 ∧ (s.route k.toNat r.toNat).armed = false ∧ c.path = .ring q0 q i ∧ s.slotCheck q0 q i w o true (fun _ v => ownLen v == 16 * n.toNat) = .pass x ∧ h.ok = true ∧ (s.tableCheck k.toNat (segsOf n.toNat h.bytes)).isSome = true) ∧
    (∃ (c : Ctx) (k : Byte) (r v : BitVec 16) (d : RouteDef) (s : State), s.accepts 0x21 c (routeArmParams k r v 0) = true ∧ s.hasTile k.toNat = true ∧ r.toNat < 1024 ∧ (s.route k.toNat r.toNat).st = .defined ∧ (s.route k.toNat r.toNat).defn = some d ∧ s.hasSport k.toNat d.port = true ∧ (s.routesOn k.toNat d.port).any (fun e => e.2.armed && e.2.defn.map (fun x => x.lat) != some d.lat) = false ∧ s.field .slkPortCfg k.toNat d.port 31 31 ≠ 0 ∧ vectorOk v.toNat = true) ∧
    (∃ (c : Ctx) (k : Byte) (r v : BitVec 16) (d : RouteDef) (s : State), s.accepts 0x21 c (routeArmParams k r v 1) = true ∧ s.hasTile k.toNat = true ∧ r.toNat < 1024 ∧ (s.route k.toNat r.toNat).st = .defined ∧ (s.route k.toNat r.toNat).defn = some d ∧ s.hasSport k.toNat d.port = true ∧ (s.routesOn k.toNat d.port).any (fun e => e.2.armed && e.2.defn.map (fun x => x.lat) != some d.lat) = false ∧ s.field .slkPortCfg k.toNat d.port 31 31 ≠ 0 ∧ vectorOk v.toNat = true ∧ (s.engine k.toNat d.port).current = none) ∧
    (∃ (c : Ctx) (k : Byte) (r v : BitVec 16) (s : State), s.accepts 0x21 c (routeArmParams k r v 0) = true ∧ s.hasTile k.toNat = true ∧ r.toNat < 1024 ∧ (s.route k.toNat r.toNat).defn = none) ∧
    (∃ (c : Ctx) (k : Byte) (r : BitVec 16) (m : Byte) (d : RouteDef) (s : State), s.accepts 0x22 c (routeRetireParams k r m) = true ∧ s.hasTile k.toNat = true ∧ r.toNat < 1024 ∧ m.toNat < 2 ∧ (s.route k.toNat r.toNat).defn = some d ∧ (s.route k.toNat r.toNat).st = .defined) ∧
    (∃ (c : Ctx) (k : Byte) (r : BitVec 16) (m : Byte) (d : RouteDef) (s : State), s.accepts 0x22 c (routeRetireParams k r m) = true ∧ s.hasTile k.toNat = true ∧ r.toNat < 1024 ∧ m.toNat < 2 ∧ (s.route k.toNat r.toNat).defn = some d ∧ (s.route k.toNat r.toNat).st = .armed) ∧
    (∃ (c : Ctx) (k : Byte) (r : BitVec 16) (m : Byte) (d : RouteDef) (s : State), s.accepts 0x22 c (routeRetireParams k r m) = true ∧ s.hasTile k.toNat = true ∧ r.toNat < 1024 ∧ m.toNat < 2 ∧ (s.route k.toNat r.toNat).defn = some d ∧ (s.route k.toNat r.toNat).st = .active) ∧
    (∃ (k r : Nat) (d : RouteDef) (s : State), s.hasTile k = true ∧ r < 1024 ∧ (s.route k r).defn = some d ∧ (s.route k r).st = .retiring ∧ (s.engine k d.port).pos = none) ∧
    (∃ (k r : Nat) (s : State), s.hasTile k = true ∧ r < 1024 ∧ (s.route k r).st ≠ .retiring) :=
  ⟨⟨0, 0, 0, slotRef 0x80000000, ring, 0, 0, 0x80000000, 1, 280, 0, ⟨true, 0x100001⟩, ⟨true, leBytes 16 (4 * 2 ^ 64 + 2 * 2 ^ 88)⟩, slotted (run 0x20 (routeDefineParams (0 : Byte) (0 : BitVec 16) (0x80000000 : Word) (1 : Word) (280 : BitVec 16) (0 : Byte)) ((up.putReg .slkBond 0 0 1))), by decide +kernel⟩,
   ⟨0, 0, 0, slotRef 0x80000000, ring, 0, 0, 0x80000000, 1, 280, 0, ⟨true, 0x100001⟩, ⟨true, leBytes 16 (0 * 2 ^ 64 + 2 * 2 ^ 88)⟩, slotted (run 0x20 (routeDefineParams (0 : Byte) (0 : BitVec 16) (0x80000000 : Word) (1 : Word) (280 : BitVec 16) (0 : Byte)) ((up.putReg .slkBond 0 0 1))), by decide +kernel⟩,
   ⟨ring, 0, 0, 128, { port := 0, lat := 280, depth := 1, segs := [{ line := 0, loopTo := 0, lines := 4, kind := 2, land := false, next := 0, rep := 0, rsv := false }], epoch := 1 }, run 0x21 (routeArmParams (0 : Byte) (0 : BitVec 16) (128 : BitVec 16) 0) (((up.putReg .slkBond 0 0 1).putReg .slkPortCfg 0 0 0x80000000).setRoute 0 0 { st := .defined, defn := some { port := 0, lat := 280, depth := 1, segs := [{ line := 0, loopTo := 0, lines := 4, kind := 2, land := false, next := 0, rep := 0, rsv := false }], epoch := 1 } }), by decide +kernel⟩,
   ⟨ring, 0, 0, 128, { port := 0, lat := 280, depth := 1, segs := [{ line := 0, loopTo := 0, lines := 4, kind := 2, land := false, next := 0, rep := 0, rsv := false }], epoch := 1 }, run 0x21 (routeArmParams (0 : Byte) (0 : BitVec 16) (128 : BitVec 16) 1) (((up.putReg .slkBond 0 0 1).putReg .slkPortCfg 0 0 0x80000000).setRoute 0 0 { st := .defined, defn := some { port := 0, lat := 280, depth := 1, segs := [{ line := 0, loopTo := 0, lines := 4, kind := 2, land := false, next := 0, rep := 0, rsv := false }], epoch := 1 } }), by decide +kernel⟩,
   ⟨ring, 0, 0, 0, run 0x21 (routeArmParams (0 : Byte) (0 : BitVec 16) (0 : BitVec 16) 0) (up), by decide +kernel⟩,
   ⟨ring, 0, 0, 0, { port := 0, lat := 280, depth := 1, segs := [{ line := 0, loopTo := 0, lines := 4, kind := 2, land := false, next := 0, rep := 0, rsv := false }], epoch := 1 }, run 0x22 (routeRetireParams (0 : Byte) (0 : BitVec 16) (0 : Byte)) ((up.putReg .slkBond 0 0 1).setRoute 0 0 { st := .defined, defn := some { port := 0, lat := 280, depth := 1, segs := [{ line := 0, loopTo := 0, lines := 4, kind := 2, land := false, next := 0, rep := 0, rsv := false }], epoch := 1 } }), by decide +kernel⟩,
   ⟨ring, 0, 0, 0, { port := 0, lat := 280, depth := 1, segs := [{ line := 0, loopTo := 0, lines := 4, kind := 2, land := false, next := 0, rep := 0, rsv := false }], epoch := 1 }, run 0x22 (routeRetireParams (0 : Byte) (0 : BitVec 16) (0 : Byte)) ((up.putReg .slkBond 0 0 1).setRoute 0 0 { st := .armed, defn := some { port := 0, lat := 280, depth := 1, segs := [{ line := 0, loopTo := 0, lines := 4, kind := 2, land := false, next := 0, rep := 0, rsv := false }], epoch := 1 } }), by decide +kernel⟩,
   ⟨ring, 0, 0, 0, { port := 0, lat := 280, depth := 1, segs := [{ line := 0, loopTo := 0, lines := 4, kind := 2, land := false, next := 0, rep := 0, rsv := false }], epoch := 1 }, run 0x22 (routeRetireParams (0 : Byte) (0 : BitVec 16) (0 : Byte)) ((up.putReg .slkBond 0 0 1).setRoute 0 0 { st := .active, defn := some { port := 0, lat := 280, depth := 1, segs := [{ line := 0, loopTo := 0, lines := 4, kind := 2, land := false, next := 0, rep := 0, rsv := false }], epoch := 1 } }), by decide +kernel⟩,
   ⟨0, 0, { port := 0, lat := 280, depth := 1, segs := [{ line := 0, loopTo := 0, lines := 4, kind := 2, land := false, next := 0, rep := 0, rsv := false }], epoch := 1 }, (up.putReg .slkBond 0 0 1).setRoute 0 0 { st := .retiring, defn := some { port := 0, lat := 280, depth := 1, segs := [{ line := 0, loopTo := 0, lines := 4, kind := 2, land := false, next := 0, rep := 0, rsv := false }], epoch := 1 } }, by decide +kernel⟩,
   ⟨0, 0, (up.putReg .slkBond 0 0 1).setRoute 0 0 { st := .active, defn := some { port := 0, lat := 280, depth := 1, segs := [{ line := 0, loopTo := 0, lines := 4, kind := 2, land := false, next := 0, rep := 0, rsv := false }], epoch := 1 } }, by decide +kernel⟩⟩

theorem witness_port_engines_walk_their_routes :
    (∃ (k p n r l : Nat) (q : Pos) (d : RouteDef) (y : Pos) (x : Content) (rest : List (Nat × Content)) (s : State), s.hasSport k p = true ∧ s.coreUp = true ∧ s.tileRuns k = true ∧ (s.sport k p).st = .active ∧ (s.engine k p).current = some r ∧ (s.engine k p).pos = some q ∧ (s.route k r).defn = some d ∧ d.line q = some l ∧ (s.engine k p).target = none ∧ (s.engine k p).switches = [] ∧ d.next q = some y ∧ (s.route k r).st = .active ∧ (s.sport k p).dataCr ≠ 0 ∧ (s.engine k p).buffer = (l, x) :: rest) ∧
    (∃ (k p n r l : Nat) (q : Pos) (d : RouteDef) (x : Content) (rest : List (Nat × Content)) (s : State), s.hasSport k p = true ∧ s.coreUp = true ∧ s.tileRuns k = true ∧ (s.sport k p).st = .active ∧ (s.engine k p).current = some r ∧ (s.engine k p).pos = some q ∧ (s.route k r).defn = some d ∧ d.line q = some l ∧ (s.engine k p).target = none ∧ (s.engine k p).switches = [] ∧ d.next q = none ∧ (s.route k r).st = .active ∧ (s.sport k p).dataCr ≠ 0 ∧ (s.engine k p).buffer = (l, x) :: rest) ∧
    (∃ (k p n r l : Nat) (q : Pos) (d : RouteDef) (s : State), s.hasSport k p = true ∧ s.coreUp = true ∧ s.tileRuns k = true ∧ (s.sport k p).st = .active ∧ (s.engine k p).current = some r ∧ (s.engine k p).pos = some q ∧ (s.route k r).defn = some d ∧ d.line q = some l ∧ (s.engine k p).target = none ∧ (s.engine k p).switches = [] ∧ (s.sport k p).dataCr ≠ 0 ∧ (s.engine k p).buffer = [] ∧ (s.engine k p).underrun = false ∧ (s.engine k p).pathStart = false ∧ (s.engine k p).onTime = false) ∧
    (∃ (k p n r l : Nat) (q : Pos) (d : RouteDef) (s : State), s.hasSport k p = true ∧ s.coreUp = true ∧ s.tileRuns k = true ∧ (s.sport k p).st = .active ∧ (s.engine k p).current = some r ∧ (s.engine k p).pos = some q ∧ (s.route k r).defn = some d ∧ d.line q = some l ∧ (s.engine k p).target = none ∧ (s.engine k p).switches = [] ∧ (s.sport k p).dataCr = 0 ∧ (s.engine k p).creditWait = false) ∧
    (∃ (k p n : Nat) (s : State), s.hasSport k p = true ∧ s.coreUp = true ∧ s.tileRuns k = true ∧ (s.sport k p).st = .active ∧ (s.engine k p).current = none) ∧
    (∃ (k p : Nat) (x : Switch) (xs : List Switch) (q : Pos) (s : State), s.hasSport k p = true ∧ s.coreUp = true ∧ s.tileRuns k = true ∧ (s.sport k p).st = .active ∧ (s.engine k p).switches = x :: xs ∧ x.start = some q ∧ (s.sport k p).reqOut + (s.sport k p).owed 2 < 16) ∧
    (∃ (k p r : Nat) (x : Switch) (xs : List Switch) (s : State), s.hasSport k p = true ∧ s.coreUp = true ∧ s.tileRuns k = true ∧ (s.sport k p).st = .active ∧ (s.engine k p).switches = x :: xs ∧ x.start = none ∧ (s.engine k p).current = some r ∧ (s.route k r).st = .active) ∧
    (∃ (k p : Nat) (s : State), s.hasSport k p = true ∧ s.coreUp = true ∧ s.tileRuns k = true ∧ (s.engine k p).switches = []) ∧
    (∃ (k p r l : Nat) (q : Pos) (d : RouteDef) (e : MediaEnv) (s : State), s.hasSport k p = true ∧ s.coreUp = true ∧ s.tileRuns k = true ∧ s.mayRead k p = true ∧ (s.engine k p).switches = [] ∧ (s.engine k p).current = some r ∧ (s.engine k p).fetchPos = some q ∧ (s.route k r).defn = some d ∧ d.line q = some l ∧ s.epo.rollback = false ∧ (s.engine k p).ahead < s.field .rtePortCfg k p 12 0 ∧ (s.prefetch k p e).cat.stuck = false ∧ (s.prefetch k p e).cat.forged = none) ∧
    (∃ (k p : Nat) (e : MediaEnv) (s : State), s.hasSport k p = true ∧ s.coreUp = true ∧ s.tileRuns k = true ∧ s.cat.stuck = false ∧ s.cat.forged = none ∧ s.mayRead k p = false) ∧
    (∃ (k p l : Nat) (c : Content) (f : Ahead) (s : State), s.hasSport k p = true ∧ s.coreUp = true ∧ s.tileRuns k = true ∧ s.flt.inj = [] ∧ (s.engine k p).flight.find? (fun f => f.line == l) = some f ∧ (s.engine k p).parked = [] ∧ (s.engine k p).buffer.length < bufferLimit) ∧
    (∃ (k p l : Nat) (c : Content) (f : Ahead) (s : State), s.hasSport k p = true ∧ s.coreUp = true ∧ s.tileRuns k = true ∧ s.flt.inj = [] ∧ (s.engine k p).flight.find? (fun f => f.line == l) = some f ∧ bufferLimit ≤ (s.engine k p).buffer.length) ∧
    (∃ (k p l : Nat) (c : Content) (s : State), s.hasSport k p = true ∧ s.coreUp = true ∧ s.tileRuns k = true ∧ (s.engine k p).flight.find? (fun f => f.line == l) = none) ∧
    (∃ (k i : Nat) (x : Landing) (d : RouteDef) (s : State), s.hasTile k = true ∧ i < 4096 ∧ s.coreUp = true ∧ s.tileRuns k = true ∧ tget (fun _ => (none : Option Landing)) s.rte.landing (landKey k i) = some x ∧ (s.route k x.route).defn = some d) :=
  ⟨⟨0, 0, 0, 0, 0, { seg := 0, off := 0, stack := [] }, { port := 0, lat := 280, depth := 1, segs := [{ line := 0, loopTo := 0, lines := 4, kind := 2, land := false, next := 0, rep := 0, rsv := false }], epoch := 1 }, { seg := 0, off := 1, stack := [] }, con, [], ((up.putReg .slkBond 0 0 1).setRoute 0 0 { st := .active, defn := some { port := 0, lat := 280, depth := 1, segs := [{ line := 0, loopTo := 0, lines := 4, kind := 2, land := false, next := 0, rep := 0, rsv := false }], epoch := 1 } }).setSport 0 0 { st := .active, dataCr := 4, reqOut := 3 } |>.setEngine 0 0 { current := some 0, pos := some { seg := 0, off := 0, stack := [] }, buffer := [(0, con)] }, by decide +kernel⟩,
   ⟨0, 0, 0, 0, 3, { seg := 0, off := 3, stack := [] }, { port := 0, lat := 280, depth := 1, segs := [{ line := 0, loopTo := 0, lines := 4, kind := 2, land := false, next := 0, rep := 0, rsv := false }], epoch := 1 }, con, [], ((up.putReg .slkBond 0 0 1).setRoute 0 0 { st := .active, defn := some { port := 0, lat := 280, depth := 1, segs := [{ line := 0, loopTo := 0, lines := 4, kind := 2, land := false, next := 0, rep := 0, rsv := false }], epoch := 1 } }).setSport 0 0 { st := .active, dataCr := 4, reqOut := 3 } |>.setEngine 0 0 { current := some 0, pos := some { seg := 0, off := 3, stack := [] }, buffer := [(3, con)] }, by decide +kernel⟩,
   ⟨0, 0, 0, 0, 0, { seg := 0, off := 0, stack := [] }, { port := 0, lat := 280, depth := 1, segs := [{ line := 0, loopTo := 0, lines := 4, kind := 2, land := false, next := 0, rep := 0, rsv := false }], epoch := 1 }, ((up.putReg .slkBond 0 0 1).setRoute 0 0 { st := .active, defn := some { port := 0, lat := 280, depth := 1, segs := [{ line := 0, loopTo := 0, lines := 4, kind := 2, land := false, next := 0, rep := 0, rsv := false }], epoch := 1 } }).setSport 0 0 { st := .active, dataCr := 4, reqOut := 3 } |>.setEngine 0 0 { current := some 0, pos := some { seg := 0, off := 0, stack := [] } }, by decide +kernel⟩,
   ⟨0, 0, 0, 0, 0, { seg := 0, off := 0, stack := [] }, { port := 0, lat := 280, depth := 1, segs := [{ line := 0, loopTo := 0, lines := 4, kind := 2, land := false, next := 0, rep := 0, rsv := false }], epoch := 1 }, ((up.putReg .slkBond 0 0 1).setRoute 0 0 { st := .active, defn := some { port := 0, lat := 280, depth := 1, segs := [{ line := 0, loopTo := 0, lines := 4, kind := 2, land := false, next := 0, rep := 0, rsv := false }], epoch := 1 } }).setSport 0 0 { st := .active, dataCr := 4, reqOut := 3 } |>.setEngine 0 0 { current := some 0, pos := some { seg := 0, off := 0, stack := [] } } |>.setSport 0 0 { st := .active }, by decide +kernel⟩,
   ⟨0, 0, 0, ((up.putReg .slkBond 0 0 1).setRoute 0 0 { st := .active, defn := some { port := 0, lat := 280, depth := 1, segs := [{ line := 0, loopTo := 0, lines := 4, kind := 2, land := false, next := 0, rep := 0, rsv := false }], epoch := 1 } }).setSport 0 0 { st := .active, dataCr := 4, reqOut := 3 } |>.setEngine 0 0 {  }, by decide +kernel⟩,
   ⟨0, 0, { route := 0, start := some { seg := 0, off := 0, stack := [] }, cycle := 9, cut := false, horizon := 0, onTime := true, fetch := none, lines := [] }, [], { seg := 0, off := 0, stack := [] }, ((up.putReg .slkBond 0 0 1).setRoute 0 0 { st := .active, defn := some { port := 0, lat := 280, depth := 1, segs := [{ line := 0, loopTo := 0, lines := 4, kind := 2, land := false, next := 0, rep := 0, rsv := false }], epoch := 1 } }).setSport 0 0 { st := .active, dataCr := 4, reqOut := 3 } |>.setEngine 0 0 { current := some 5, switches := [{ route := 0, start := some { seg := 0, off := 0, stack := [] }, cycle := 9, cut := false, horizon := 0, onTime := true, fetch := none, lines := [] }] }, by decide +kernel⟩,
   ⟨0, 0, 0, { route := 0, start := none, cycle := 9, cut := false, horizon := 0, onTime := true, fetch := none, lines := [] }, [], ((up.putReg .slkBond 0 0 1).setRoute 0 0 { st := .active, defn := some { port := 0, lat := 280, depth := 1, segs := [{ line := 0, loopTo := 0, lines := 4, kind := 2, land := false, next := 0, rep := 0, rsv := false }], epoch := 1 } }).setSport 0 0 { st := .active, dataCr := 4, reqOut := 3 } |>.setEngine 0 0 { current := some 0, switches := [{ route := 0, start := none, cycle := 9, cut := false, horizon := 0, onTime := true, fetch := none, lines := [] }] }, by decide +kernel⟩,
   ⟨0, 0, ((up.putReg .slkBond 0 0 1).setRoute 0 0 { st := .active, defn := some { port := 0, lat := 280, depth := 1, segs := [{ line := 0, loopTo := 0, lines := 4, kind := 2, land := false, next := 0, rep := 0, rsv := false }], epoch := 1 } }).setSport 0 0 { st := .active, dataCr := 4, reqOut := 3 } |>.setEngine 0 0 {  }, by decide +kernel⟩,
   ⟨0, 0, 0, 0, { seg := 0, off := 0, stack := [] }, { port := 0, lat := 280, depth := 1, segs := [{ line := 0, loopTo := 0, lines := 4, kind := 2, land := false, next := 0, rep := 0, rsv := false }], epoch := 1 }, quietMedia, ((up.putReg .slkBond 0 0 1).setRoute 0 0 { st := .active, defn := some { port := 0, lat := 280, depth := 1, segs := [{ line := 0, loopTo := 0, lines := 4, kind := 2, land := false, next := 0, rep := 0, rsv := false }], epoch := 1 } }).setSport 0 0 { st := .active, dataCr := 4, reqOut := 3 } |>.setEngine 0 0 { current := some 0, fetchPos := some { seg := 0, off := 0, stack := [] } } |>.putReg .rtePortCfg 0 0 8, by decide +kernel⟩,
   ⟨0, 0, quietMedia, ((up.putReg .slkBond 0 0 1).setRoute 0 0 { st := .active, defn := some { port := 0, lat := 280, depth := 1, segs := [{ line := 0, loopTo := 0, lines := 4, kind := 2, land := false, next := 0, rep := 0, rsv := false }], epoch := 1 } }).setSport 0 0 { st := .active, dataCr := 4, reqOut := 3 } |>.setEngine 0 0 { flight := List.replicate 512 { line := 0, content := con, missed := false } }, by decide +kernel⟩,
   ⟨0, 0, 0, con, { line := 0, content := con, missed := false }, ((up.putReg .slkBond 0 0 1).setRoute 0 0 { st := .active, defn := some { port := 0, lat := 280, depth := 1, segs := [{ line := 0, loopTo := 0, lines := 4, kind := 2, land := false, next := 0, rep := 0, rsv := false }], epoch := 1 } }).setSport 0 0 { st := .active, dataCr := 4, reqOut := 3 } |>.setEngine 0 0 { flight := [{ line := 0, content := con, missed := false }] }, by decide +kernel⟩,
   ⟨0, 0, 0, con, { line := 0, content := con, missed := false }, ((up.putReg .slkBond 0 0 1).setRoute 0 0 { st := .active, defn := some { port := 0, lat := 280, depth := 1, segs := [{ line := 0, loopTo := 0, lines := 4, kind := 2, land := false, next := 0, rep := 0, rsv := false }], epoch := 1 } }).setSport 0 0 { st := .active, dataCr := 4, reqOut := 3 } |>.setEngine 0 0 { flight := [{ line := 0, content := con, missed := false }], buffer := List.replicate 512 (0, con) }, by decide +kernel⟩,
   ⟨0, 0, 0, con, ((up.putReg .slkBond 0 0 1).setRoute 0 0 { st := .active, defn := some { port := 0, lat := 280, depth := 1, segs := [{ line := 0, loopTo := 0, lines := 4, kind := 2, land := false, next := 0, rep := 0, rsv := false }], epoch := 1 } }).setSport 0 0 { st := .active, dataCr := 4, reqOut := 3 } |>.setEngine 0 0 {  }, by decide +kernel⟩,
   ⟨0, 0, { route := 0, seg := 0, ready := true }, { port := 0, lat := 280, depth := 1, segs := [{ line := 0, loopTo := 0, lines := 4, kind := 2, land := true, next := 0, rep := 0, rsv := false }], epoch := 1 }, (up.setRoute 0 0 { st := .armed, defn := some { port := 0, lat := 280, depth := 1, segs := [{ line := 0, loopTo := 0, lines := 4, kind := 2, land := true, next := 0, rep := 0, rsv := false }], epoch := 1 } }).setLanding 0 0 (some { route := 0, seg := 0, ready := true }), by decide +kernel⟩⟩

theorem witness_capture_regions_and_records :
    (∃ (c : Ctx) (k p r f : Byte) (v : BitVec 16) (a n : DWord) (s : State), s.accepts 0x28 c (captureOpenParams k p r f v a n) = true ∧ f.toNat < 4 ∧ a.toNat < 2 ^ 49 ∧ s.openCheck k.toNat p.toNat r.toNat v.toNat a.toNat n.toNat = none) ∧
    (∃ (c : Ctx) (k p r f : Byte) (v : BitVec 16) (a n : DWord) (s : State), s.accepts 0x28 c (captureOpenParams k p r f v a n) = true ∧ (s.openCheck k.toNat p.toNat r.toNat v.toNat a.toNat n.toNat).isSome = true) ∧
    (∃ (c : Ctx) (k p r m : Byte) (s : State), s.accepts 0x29 c (captureCloseParams k p r m) = true ∧ s.hasSport k.toNat p.toNat = true ∧ r.toNat < 64 ∧ m.toNat < 2 ∧ (s.region k.toNat p.toNat r.toNat).st = .opened) ∧
    (∃ (c : Ctx) (k p r m : Byte) (s : State), s.accepts 0x29 c (captureCloseParams k p r m) = true ∧ s.hasSport k.toNat p.toNat = true ∧ r.toNat < 64 ∧ 2 ≤ m.toNat) ∧
    (∃ (c : Ctx) (k p r : Byte) (s : State), s.accepts 0x2A c (captureDrainParams k p r) = true ∧ s.hasSport k.toNat p.toNat = true ∧ r.toNat < 64 ∧ (s.region k.toNat p.toNat r.toNat).st ≠ .closed ∧ ((s.drain k.toNat p.toNat (s.ingest k.toNat p.toNat).all.length).reply (srcStream k.toNat) c .done
        (128 * ((s.drain k.toNat p.toNat (s.ingest k.toNat p.toNat).all.length).region k.toNat p.toNat r.toNat).fill)).cat.stuck = false ∧ ((s.drain k.toNat p.toNat (s.ingest k.toNat p.toNat).all.length).reply (srcStream k.toNat) c .done
        (128 * ((s.drain k.toNat p.toNat (s.ingest k.toNat p.toNat).all.length).region k.toNat p.toNat r.toNat).fill)).cat.forged = none) ∧
    (∃ (c : Ctx) (k p r : Byte) (s : State), s.accepts 0x2A c (captureDrainParams k p r) = true ∧ s.hasSport k.toNat p.toNat = true ∧ r.toNat < 64 ∧ (s.region k.toNat p.toNat r.toNat).st = .closed ∧ (s.reply (srcStream k.toNat) c .unknown 0).cat.stuck = false ∧ (s.reply (srcStream k.toNat) c .unknown 0).cat.forged = none) ∧
    (∃ (k p : Nat) (w : FWord) (i : Ingest) (s : State), s.hasSport k p = true ∧ s.coreUp = true ∧ s.tileRuns k = true ∧ s.pwr.pwr = .p0 ∧ s.flt.inj = [] ∧ (s.ingest k p).pop = some (w, i) ∧ w.first = true ∧ w.last = false ∧ (s.region k p w.region).st ≠ .closed ∧ (s.region k p w.region).eng = none ∧ (s.region k p w.region).full = false ∧ (s.ingestWord k p 0).cat.stuck = false ∧ (s.ingestWord k p 0).cat.forged = none) ∧
    (∃ (k p : Nat) (w : FWord) (i : Ingest) (s : State), s.hasSport k p = true ∧ s.coreUp = true ∧ s.tileRuns k = true ∧ s.pwr.pwr = .p0 ∧ s.flt.inj = [] ∧ (s.ingest k p).pop = some (w, i) ∧ (s.region k p w.region).st = .closed ∧ (s.region k p w.region).eng = none ∧ (s.ingestWord k p 0).cat.stuck = false ∧ (s.ingestWord k p 0).cat.forged = none) ∧
    (∃ (k p : Nat) (u : BitVec 82) (w : FWord) (i : Ingest) (s : State), s.hasSport k p = true ∧ s.coreUp = true ∧ s.tileRuns k = true ∧ parityOk u = false ∧ s.pwr.pwr = .p0 ∧ s.flt.inj = [] ∧ (s.ingest k p).pop = some (w, i) ∧ (s.ingestWord k p u).cat.stuck = false ∧ (s.ingestWord k p u).cat.forged = none) ∧
    (∃ (k p r : Nat) (e : ERec) (s : State), s.hasSport k p = true ∧ s.coreUp = true ∧ s.tileRuns k = true ∧ r < 64 ∧ s.pwr.pwr = .p0 ∧ (s.region k p r).eng = some e ∧ e.closed = true ∧ e.dropped = false ∧ s.tagsDone k p r e.num = true ∧ s.hindrance k p r 0 = .clear ∧ (s.commit k p r).cat.stuck = false ∧ (s.commit k p r).cat.forged = none) ∧
    (∃ (k p r : Nat) (e : ERec) (s : State), s.hasSport k p = true ∧ s.coreUp = true ∧ s.tileRuns k = true ∧ s.cat.stuck = false ∧ s.cat.forged = none ∧ r < 64 ∧ (s.region k p r).eng = some e ∧ e.closed = false) ∧
    (∃ (h : Nat) (s : State), s.hasTile h = true ∧ s.coreUp = true ∧ h < 8) :=
  ⟨⟨ring, 0, 0, 0, 0, 0, 0, 65536, run 0x28 (captureOpenParams (0 : Byte) (0 : Byte) (0 : Byte) (0 : Byte) (0 : BitVec 16) (0 : DWord) (65536 : DWord)) ((up.putReg .slkBond 0 0 1)), by decide +kernel⟩,
   ⟨ring, 0, 0, 0, 0, 0, 0, 5, run 0x28 (captureOpenParams (0 : Byte) (0 : Byte) (0 : Byte) (0 : Byte) (0 : BitVec 16) (0 : DWord) (5 : DWord)) ((up.putReg .slkBond 0 0 1)), by decide +kernel⟩,
   ⟨ring, 0, 0, 0, 0, run 0x29 (captureCloseParams (0 : Byte) (0 : Byte) (0 : Byte) (0 : Byte)) ((up.putReg .slkBond 0 0 1).setRegion 0 0 0 { st := .opened, enc := some {} }), by decide +kernel⟩,
   ⟨ring, 0, 0, 0, 2, run 0x29 (captureCloseParams (0 : Byte) (0 : Byte) (0 : Byte) (2 : Byte)) ((up.putReg .slkBond 0 0 1)), by decide +kernel⟩,
   ⟨ring, 0, 0, 0, run 0x2A (captureDrainParams (0 : Byte) (0 : Byte) (0 : Byte)) ((up.putReg .slkBond 0 0 1).setRegion 0 0 0 { st := .opened, fill := 3 }), by decide +kernel⟩,
   ⟨ring, 0, 0, 0, run 0x2A (captureDrainParams (0 : Byte) (0 : Byte) (0 : Byte)) ((up.putReg .slkBond 0 0 1)), by decide +kernel⟩,
   ⟨0, 0, { region := 0, first := true, last := false, rawWord := false, data := 7, num := 0, flits := 1, bad := 0, tFirst := 0 }, {}, (up.putReg .slkBond 0 0 1).setRegion 0 0 0 { st := .opened } |>.setIngest 0 0 { words0 := [{ region := 0, first := true, last := false, rawWord := false, data := 7, num := 0, flits := 1, bad := 0, tFirst := 0 }] }, by decide +kernel⟩,
   ⟨0, 0, { region := 0, first := true, last := false, rawWord := false, data := 7, num := 0, flits := 1, bad := 0, tFirst := 0 }, {}, (up.putReg .slkBond 0 0 1) |>.setIngest 0 0 { words0 := [{ region := 0, first := true, last := false, rawWord := false, data := 7, num := 0, flits := 1, bad := 0, tFirst := 0 }] }, by decide +kernel⟩,
   ⟨0, 0, 1, { region := 0, first := true, last := false, rawWord := false, data := 7, num := 0, flits := 1, bad := 0, tFirst := 0 }, {}, (up.putReg .slkBond 0 0 1).setRegion 0 0 0 { st := .opened, enc := some {} } |>.setIngest 0 0 { words0 := [{ region := 0, first := true, last := false, rawWord := false, data := 7, num := 0, flits := 1, bad := 0, tFirst := 0 }] }, by decide +kernel⟩,
   ⟨0, 0, 0, { closed := true }, (up.putReg .slkBond 0 0 1).setRegion 0 0 0 { st := .opened, units := 1, eng := some { closed := true } }, by decide +kernel⟩,
   ⟨0, 0, 0, {}, (up.putReg .slkBond 0 0 1).setRegion 0 0 0 { eng := some {} }, by decide +kernel⟩,
   ⟨0, up, by decide +kernel⟩⟩

theorem witness_home_serves_requests :
    (∃ (r l n : Nat) (e : MediaEnv) (v : Stored) (b : Bool) (x : Option MediaHit) (s : State), s.cat.stuck = false ∧ s.cat.forged = none ∧ s.hasTile r = true ∧ s.coreUp = true ∧ s.tileRuns r = true ∧ s.tileRuns (s.home l) = true ∧ s.epo.rollback = false ∧ (s.missOf r l).isSome = true ∧ s.wbFrom r l = none ∧ s.net.any (fun m => m.kind == .req .readS && m.src == r && m.line == l) = true ∧ s.lineBusy l = false ∧ s.coh.tickets = [] ∧ s.dir l = {} ∧ (s.dirFree l).isSome = true ∧ s.homeFill l e = .ok v n b x) ∧
    (∃ (r l n : Nat) (e : MediaEnv) (v : Stored) (b : Bool) (x : Option MediaHit) (s : State), s.cat.stuck = false ∧ s.cat.forged = none ∧ s.hasTile r = true ∧ s.coreUp = true ∧ s.tileRuns r = true ∧ s.tileRuns (s.home l) = true ∧ s.epo.rollback = false ∧ s.missOf r l = none ∧ s.coh.waits = [] ∧ s.missFull r false = false ∧ (s.nc r l).st ≠ .ev ∧ (s.nc r l).st ≠ .refill ∧ s.wbFrom r l = none ∧ s.net.any (fun m => m.kind == .req .readS && m.src == r && m.line == l) = false ∧ s.lineBusy l = false ∧ s.coh.tickets = [] ∧ s.dir l = {} ∧ (s.dirFree l).isSome = true ∧ s.homeFill l e = .ok v n b x) ∧
    (∃ (r l n : Nat) (e : MediaEnv) (v : Stored) (b : Bool) (x : Option MediaHit) (s : State), s.cat.stuck = false ∧ s.cat.forged = none ∧ s.hasTile r = true ∧ s.coreUp = true ∧ s.tileRuns r = true ∧ s.tileRuns (s.home l) = true ∧ s.epo.rollback = false ∧ (s.missOf r l).isSome = true ∧ s.wbFrom r l = none ∧ s.net.any (fun m => m.kind == .req .readX && m.src == r && m.line == l) = true ∧ s.lineBusy l = false ∧ s.coh.tickets = [] ∧ s.dir l = {} ∧ (s.dirFree l).isSome = true ∧ s.homeFill l e = .ok v n b x) ∧
    (∃ (r l : Nat) (e : MediaEnv) (s : State), s.cat.stuck = false ∧ s.cat.forged = none ∧ s.hasTile r = true ∧ s.coreUp = true ∧ s.tileRuns r = true ∧ s.tileRuns (s.home l) = true ∧ s.epo.rollback = false ∧ (s.missOf r l).isSome = true ∧ s.wbFrom r l = none ∧ s.net.any (fun m => m.kind == .req .upgrade && m.src == r && m.line == l) = true ∧ s.lineBusy l = false ∧ s.coh.tickets = [] ∧ (s.dir l).st = .sh ∧ (s.dir l).sharers = tileBit r) ∧
    (∃ (r l n : Nat) (s : State), s.cat.stuck = false ∧ s.cat.forged = none ∧ s.hasTile r = true ∧ s.coreUp = true ∧ s.tileRuns r = true ∧ s.tileRuns (s.home l) = true ∧ s.epo.rollback = false ∧ (s.missOf r l).isSome = true ∧ s.wbFrom r l = none ∧ s.net.any (fun m => m.kind == .req .claim && m.src == r && m.line == l) = true ∧ s.lineBusy l = false ∧ s.coh.tickets = [] ∧ s.dir l = {} ∧ (s.dirFree l).isSome = true) ∧
    (∃ (r o l : Nat) (e : MediaEnv) (s : State), s.cat.stuck = false ∧ s.cat.forged = none ∧ s.hasTile r = true ∧ s.coreUp = true ∧ s.tileRuns r = true ∧ s.tileRuns (s.home l) = true ∧ s.epo.rollback = false ∧ (s.missOf r l).isSome = true ∧ s.wbFrom r l = none ∧ s.net.any (fun m => m.kind == .req .readS && m.src == r && m.line == l) = true ∧ s.lineBusy l = false ∧ s.coh.tickets = [] ∧ (s.dir l).st = .ex ∧ (s.dir l).sharers = tileBit o ∧ o < 8 ∧ o ≠ r) ∧
    (∃ (r l : Nat) (e : MediaEnv) (s : State), s.cat.stuck = false ∧ s.cat.forged = none ∧ s.hasTile r = true ∧ s.coreUp = true ∧ s.tileRuns r = true ∧ s.tileRuns (s.home l) = true ∧ s.epo.rollback = false ∧ (s.missOf r l).isSome = true ∧ s.wbFrom r l = none ∧ s.net.any (fun m => m.kind == .req .readX && m.src == r && m.line == l) = true ∧ s.lineBusy l = true ∧ (s.missOf r l).map Miss.refusals = some 0) ∧
    (∃ (r l : Nat) (e : MediaEnv) (s : State), s.cat.stuck = false ∧ s.cat.forged = none ∧ s.hasTile r = true ∧ s.coreUp = true ∧ s.tileRuns r = true ∧ s.tileRuns (s.home l) = true ∧ s.epo.rollback = false ∧ (s.missOf r l).isSome = true ∧ s.wbFrom r l = none ∧ s.net.any (fun m => m.kind == .req .readX && m.src == r && m.line == l) = true ∧ s.lineBusy l = true ∧ (s.missOf r l).map Miss.refusals = some 3) ∧
    (∃ (r p w l : Nat) (k : Tkt) (e : MediaEnv) (s : State), s.cat.stuck = false ∧ s.cat.forged = none ∧ s.hasTile r = true ∧ s.coreUp = true ∧ s.tileRuns r = true ∧ s.tileRuns (s.home l) = true ∧ s.epo.rollback = false ∧ (s.missOf r l).isSome = true ∧ s.wbFrom r l = none ∧ s.net.any (fun m => m.kind == .req .readX && m.src == r && m.line == l) = true ∧ p ≠ r ∧ s.wbFrom p l = none ∧ s.lineBusy l = true ∧ (s.missOf p l).map Miss.refusals = some 0 ∧ (s.missOf r l).map Miss.refusals = some 0 ∧ s.reqFrom p l e = some k ∧ rotated s.tiles (s.field .dirRot (s.home l) 0 2 0) [r, p] = some w) :=
  ⟨⟨0, 0, 0, quietMedia, {}, false, none, (let t := (up : State).setMiss 0 0 (some ⟨0, .readS, false, false, 0, false, false, none⟩); { t with net := t.net ++ [{ kind := .req .readS, src := 0, dst := 0, line := 0 }] } : State), by decide +kernel⟩,
   ⟨0, 0, 0, quietMedia, {}, false, none, up, by decide +kernel⟩,
   ⟨0, 0, 0, quietMedia, {}, false, none, (let t := (up : State).setMiss 0 0 (some ⟨0, .readX, false, false, 0, false, false, none⟩); { t with net := t.net ++ [{ kind := .req .readX, src := 0, dst := 0, line := 0 }] } : State), by decide +kernel⟩,
   ⟨0, 0, quietMedia, (let t := (up.setDir 0 { st := .sh, sharers := 1 } : State).setMiss 0 0 (some ⟨0, .upgrade, false, false, 0, false, false, none⟩); { t with net := t.net ++ [{ kind := .req .upgrade, src := 0, dst := 0, line := 0 }] } : State), by decide +kernel⟩,
   ⟨0, 0, 0, (let t := (up : State).setMiss 0 0 (some ⟨0, .claim, false, false, 0, false, false, none⟩); { t with net := t.net ++ [{ kind := .req .claim, src := 0, dst := 0, line := 0 }] } : State), by decide +kernel⟩,
   ⟨0, 1, 0, quietMedia, (let t := (up.setDir 0 { st := .ex, sharers := 2 } : State).setMiss 0 0 (some ⟨0, .readS, false, false, 0, false, false, none⟩); { t with net := t.net ++ [{ kind := .req .readS, src := 0, dst := 0, line := 0 }] } : State), by decide +kernel⟩,
   ⟨0, 0, quietMedia, (let t := (up.setDir 0 { st := .ex, sharers := 2, busy := true } : State).setMiss 0 0 (some ⟨0, .readX, false, false, 0, false, false, none⟩); { t with net := t.net ++ [{ kind := .req .readX, src := 0, dst := 0, line := 0 }] } : State), by decide +kernel⟩,
   ⟨0, 0, quietMedia, (let t := (up.setDir 0 { st := .ex, sharers := 2, busy := true } : State).setMiss 0 0 (some ⟨0, .readX, false, false, 3, false, false, none⟩); { t with net := t.net ++ [{ kind := .req .readX, src := 0, dst := 0, line := 0 }] } : State), by decide +kernel⟩,
   ⟨0, 1, 1, 0, { line := 0, tile := 1, kind := .readX, epoch := 1, env := quietMedia }, quietMedia, let t := (let t := (up.setDir 0 { st := .ex, sharers := 4, busy := true } : State).setMiss 0 0 (some ⟨0, .readX, false, false, 0, false, false, none⟩); { t with net := t.net ++ [{ kind := .req .readX, src := 0, dst := 0, line := 0 }] } : State); (let t := (t : State).setMiss 1 0 (some ⟨0, .readX, false, false, 0, false, false, none⟩); { t with net := t.net ++ [{ kind := .req .readX, src := 1, dst := 0, line := 0 }] } : State), by decide +kernel⟩⟩

theorem witness_snoops_by_state :
    (∃ (d l : Nat) (s : State), s.hasTile d = true ∧ s.cohRuns d l = true ∧ (s.nc d l).st = .i) ∧
    (∃ (d l : Nat) (s : State), s.hasTile d = true ∧ s.cohRuns d l = true ∧ (s.nc d l).st = .s) ∧
    (∃ (d l : Nat) (s : State), s.hasTile d = true ∧ s.cohRuns d l = true ∧ (s.nc d l).st = .e) ∧
    (∃ (d l : Nat) (s : State), s.hasTile d = true ∧ s.cohRuns d l = true ∧ (s.nc d l).st = .m) ∧
    (∃ (d l : Nat) (s : State), s.hasTile d = true ∧ s.cohRuns d l = true ∧ (s.nc d l).st = .ev) ∧
    (∃ (d l : Nat) (s : State), s.hasTile d = true ∧ s.cohRuns d l = true ∧ (s.nc d l).st = .i) ∧
    (∃ (d l : Nat) (s : State), s.hasTile d = true ∧ s.cohRuns d l = true ∧ (s.nc d l).st = .s) ∧
    (∃ (d l : Nat) (s : State), s.hasTile d = true ∧ s.cohRuns d l = true ∧ (s.nc d l).st = .e) ∧
    (∃ (d l : Nat) (s : State), s.hasTile d = true ∧ s.cohRuns d l = true ∧ (s.nc d l).st = .m) ∧
    (∃ (d l : Nat) (s : State), s.hasTile d = true ∧ s.cohRuns d l = true ∧ (s.nc d l).st = .ev) ∧
    (∃ (d l : Nat) (s : State), s.hasTile d = true ∧ s.cohRuns d l = true ∧ (s.nc d l).st = .i) ∧
    (∃ (d l : Nat) (s : State), s.hasTile d = true ∧ s.cohRuns d l = true ∧ (s.nc d l).st = .e) ∧
    (∃ (d l : Nat) (s : State), s.hasTile d = true ∧ s.cohRuns d l = true ∧ (s.nc d l).st = .ev) ∧
    (∃ (d l : Nat) (s : State), s.hasTile d = true ∧ s.cohRuns d l = true ∧ (s.nc d l).st = .m) :=
  ⟨⟨0, 0, up, by decide +kernel⟩,
   ⟨0, 0, up.setNc 0 0 { st := .s, data := 5, epoch := 1 }, by decide +kernel⟩,
   ⟨0, 0, up.setNc 0 0 { st := .e, data := 5, epoch := 1 }, by decide +kernel⟩,
   ⟨0, 0, up.setNc 0 0 { st := .m, data := 5, epoch := 1 }, by decide +kernel⟩,
   ⟨0, 0, up.setNc 0 0 { st := .ev, data := 5, epoch := 1 }, by decide +kernel⟩,
   ⟨0, 0, up, by decide +kernel⟩,
   ⟨0, 0, up.setNc 0 0 { st := .s, data := 5, epoch := 1 }, by decide +kernel⟩,
   ⟨0, 0, up.setNc 0 0 { st := .e, data := 5, epoch := 1 }, by decide +kernel⟩,
   ⟨0, 0, up.setNc 0 0 { st := .m, data := 5, epoch := 1 }, by decide +kernel⟩,
   ⟨0, 0, up.setNc 0 0 { st := .ev, data := 5, epoch := 1 }, by decide +kernel⟩,
   ⟨0, 0, up, by decide +kernel⟩,
   ⟨0, 0, up.setNc 0 0 { st := .e, data := 5, epoch := 1 }, by decide +kernel⟩,
   ⟨0, 0, up.setNc 0 0 { st := .ev, data := 5, epoch := 1 }, by decide +kernel⟩,
   ⟨0, 0, up.setNc 0 0 { st := .m, data := 5, epoch := 1 }, by decide +kernel⟩⟩

theorem witness_requester_takes_its_answer :
    (∃ (d l : Nat) (g : Grant) (c : Content) (s : State), s.cat.stuck = false ∧ s.cat.forged = none ∧ s.hasTile d = true ∧ s.cohRuns d l = true ∧ (s.fillPlace d l).1 = true ∧ (s.nc d l).wb = false) ∧
    (∃ (d l : Nat) (s : State), s.cat.stuck = false ∧ s.cat.forged = none ∧ s.hasTile d = true ∧ s.cohRuns d l = true ∧ (s.fillPlace d l).1 = true ∧ (s.nc d l).wb = false) ∧
    (∃ (d l : Nat) (m : Miss) (s : State), s.hasTile d = true ∧ s.cohRuns d l = true ∧ s.missOf d l = some m) ∧
    (∃ (d l w : Nat) (m : Miss) (s : State), s.hasTile d = true ∧ s.cohRuns d l = true ∧ s.missOf d l = some m ∧ m.nackAt = some w ∧ w + 10 ≤ s.now) ∧
    (∃ (d l w : Nat) (m : Miss) (s : State), s.hasTile d = true ∧ s.missOf d l = some m ∧ m.nackAt = some w ∧ s.now < w + 10) ∧
    (∃ (d l n : Nat) (m : Miss) (s : State), s.hasTile d = true ∧ s.cohRuns d l = true ∧ s.missOf d l = some m) :=
  ⟨⟨0, 0, .m, con, up, by decide +kernel⟩,
   ⟨0, 0, up.setNc 0 0 { st := .s, data := 5, epoch := 1 }, by decide +kernel⟩,
   ⟨0, 0, ⟨0, .readX, false, false, 0, false, false, none⟩, up.setMiss 0 0 (some ⟨0, .readX, false, false, 0, false, false, none⟩), by decide +kernel⟩,
   ⟨0, 0, 0, ⟨0, .readX, false, false, 0, false, false, some 0⟩, { up.setMiss 0 0 (some ⟨0, .readX, false, false, 0, false, false, some 0⟩) with now := 10 }, by decide +kernel⟩,
   ⟨0, 0, 0, ⟨0, .readX, false, false, 0, false, false, some 0⟩, up.setMiss 0 0 (some ⟨0, .readX, false, false, 0, false, false, some 0⟩), by decide +kernel⟩,
   ⟨0, 0, 0, ⟨0, .readX, false, false, 3, false, false, none⟩, up.setMiss 0 0 (some ⟨0, .readX, false, false, 3, false, false, none⟩), by decide +kernel⟩⟩

theorem witness_write_backs_and_victims :
    (∃ (r l : Nat) (c : Content) (s : State), s.hasTile r = true ∧ s.cohRuns (s.home l) l = true ∧ s.stageBlocked l c.epoch = false ∧ (s.dir l).sharers.getLsbD r = true ∧ s.tx l = none ∧ (s.dir l).busy = false ∧ (s.evictArrives r l c).cat.stuck = false ∧ (s.evictArrives r l c).cat.forged = none) ∧
    (∃ (r l : Nat) (c : Content) (s : State), s.hasTile r = true ∧ s.cohRuns (s.home l) l = true ∧ s.stageBlocked l c.epoch = false ∧ (s.dir l).sharers.getLsbD r = true ∧ (s.writebackArrives r l c).cat.stuck = false ∧ (s.writebackArrives r l c).cat.forged = none) ∧
    (∃ (r l : Nat) (c : Content) (s : State), s.cat.stuck = false ∧ s.cat.forged = none ∧ s.hasTile r = true ∧ s.stageBlocked l c.epoch = true) ∧
    (∃ (d l : Nat) (s : State), s.cat.stuck = false ∧ s.cat.forged = none ∧ s.hasTile d = true ∧ s.cohRuns d l = true ∧ (s.nc d l).st = .ev) ∧
    (∃ (d l : Nat) (s : State), s.hasTile d = true ∧ s.cohRuns d l = true ∧ (s.nc d l).wb = true) ∧
    (∃ (d l : Nat) (s : State), s.hasTile d = true ∧ s.cohRuns d l = true ∧ (s.nc d l).pin = false ∧ (s.nc d l).up = false ∧ (s.nc d l).wb = false ∧ (s.nc d l).st = .e) ∧
    (∃ (d l : Nat) (s : State), s.hasTile d = true ∧ s.cohRuns d l = true ∧ (s.nc d l).pin = false ∧ (s.nc d l).up = false ∧ (s.nc d l).wb = false ∧ (s.nc d l).st = .m ∧ s.evictBufs d < 32) ∧
    (∃ (d l : Nat) (s : State), s.hasTile d = true ∧ s.cohRuns d l = true ∧ (s.nc d l).pin = true) ∧
    (∃ (d l : Nat) (s : State), s.hasTile d = true ∧ s.coreUp = true ∧ s.tileRuns d = true ∧ (s.nc d l).st = .refill ∧ s.missOf d l = none ∧ s.epo.rollback = false) :=
  ⟨⟨0, 0, con, (up.putReg .catFree 0 0 2048).setDir 0 { st := .ex, sharers := 1 }, by decide +kernel⟩,
   ⟨0, 0, con, (up.putReg .catFree 0 0 2048).setDir 0 { st := .ex, sharers := 1 }, by decide +kernel⟩,
   ⟨0, 0, con, (up.putReg .catFree 0 0 0), by decide +kernel⟩,
   ⟨0, 0, let t := up.setNc 0 0 { st := .ev }; { t with coh := { t.coh with evbufs := [⟨0, 0, true⟩] } }, by decide +kernel⟩,
   ⟨0, 0, up.setNc 0 0 { st := .e, wb := true }, by decide +kernel⟩,
   ⟨0, 0, up.setNc 0 0 { st := .e }, by decide +kernel⟩,
   ⟨0, 0, up.setNc 0 0 { st := .m, epoch := 1 }, by decide +kernel⟩,
   ⟨0, 0, up.setNc 0 0 { st := .m, epoch := 1, pin := true }, by decide +kernel⟩,
   ⟨0, 0, up.setNc 0 0 { st := .refill, pin := true }, by decide +kernel⟩⟩

theorem witness_home_collects_answers :
    (∃ (r l : Nat) (x : Tx) (s : State), s.cat.stuck = false ∧ s.cat.forged = none ∧ s.hasTile r = true ∧ s.cohRuns (s.home l) l = true ∧ s.tx l = some x ∧ x.await.contains r = true ∧ (x.await.filter (· != r)).isEmpty = false) ∧
    (∃ (r l : Nat) (x : Tx) (s : State), s.cat.stuck = false ∧ s.cat.forged = none ∧ s.hasTile r = true ∧ s.cohRuns (s.home l) l = true ∧ s.tx l = some x ∧ x.await.contains r = true ∧ (x.await.filter (· != r)).isEmpty = false) ∧
    (∃ (r l : Nat) (x : Tx) (c : Option Content) (s : State), s.cat.stuck = false ∧ s.cat.forged = none ∧ s.hasTile r = true ∧ s.cohRuns (s.home l) l = true ∧ s.tx l = some x ∧ x.await.contains r = true ∧ (x.await.filter (· != r)).isEmpty = false) ∧
    (∃ (r l : Nat) (x : Tx) (c : Content) (s : State), s.cat.stuck = false ∧ s.cat.forged = none ∧ s.hasTile r = true ∧ s.cohRuns (s.home l) l = true ∧ s.tx l = some x ∧ x.await.contains r = true ∧ (x.await.filter (· != r)).isEmpty = false) ∧
    (∃ (r l : Nat) (x : Tx) (c : Content) (s : State), s.cat.stuck = false ∧ s.cat.forged = none ∧ s.hasTile r = true ∧ s.cohRuns (s.home l) l = true ∧ s.tx l = some x ∧ x.await = [r] ∧ x.room = none ∧ x.kind = .readX ∧ r < 8 ∧ x.req < 8 ∧ (s.dir l).held = true) ∧
    (∃ (r l : Nat) (x : Tx) (s : State), s.cat.stuck = false ∧ s.cat.forged = none ∧ s.hasTile r = true ∧ s.cohRuns (s.home l) l = true ∧ s.tx l = some x ∧ x.await.contains r = true ∧ x.gone.contains r = false ∧ (s.dir l).sharers.getLsbD r = true) ∧
    (∃ (r l : Nat) (x : Tx) (s : State), s.cat.stuck = false ∧ s.cat.forged = none ∧ s.hasTile r = true ∧ s.cohRuns (s.home l) l = true ∧ s.tx l = some x ∧ x.await.contains r = false) ∧
    (∃ (r l : Nat) (x : Tx) (s : State), s.cat.stuck = false ∧ s.cat.forged = none ∧ s.hasTile r = true ∧ s.cohRuns (s.home l) l = true ∧ s.tx l = some x ∧ x.sent = true ∧ x.req = r ∧ s.coh.tickets = []) ∧
    (∃ (r l : Nat) (x : Tx) (s : State), s.cat.stuck = false ∧ s.cat.forged = none ∧ s.hasTile r = true ∧ s.cohRuns (s.home l) l = true ∧ s.tx l = some x ∧ x.req ≠ r) :=
  ⟨⟨1, 0, { req := 2, kind := .readX, epoch := 0, env := quietMedia, shared := false, await := [1, 3], line := none, dirty := false, kept := false, gone := [], sent := false, room := none }, (up.setTx 0 (some { req := 2, kind := .readX, epoch := 0, env := quietMedia, shared := false, await := [1, 3], line := none, dirty := false, kept := false, gone := [], sent := false, room := none })).setDir 0 { st := .sh, sharers := 10, busy := true }, by decide +kernel⟩,
   ⟨1, 0, { req := 2, kind := .readX, epoch := 0, env := quietMedia, shared := false, await := [1, 3], line := none, dirty := false, kept := false, gone := [], sent := false, room := none }, (up.setTx 0 (some { req := 2, kind := .readX, epoch := 0, env := quietMedia, shared := false, await := [1, 3], line := none, dirty := false, kept := false, gone := [], sent := false, room := none })).setDir 0 { st := .sh, sharers := 10, busy := true }, by decide +kernel⟩,
   ⟨1, 0, { req := 2, kind := .readX, epoch := 0, env := quietMedia, shared := false, await := [1, 3], line := none, dirty := false, kept := false, gone := [], sent := false, room := none }, none, (up.setTx 0 (some { req := 2, kind := .readX, epoch := 0, env := quietMedia, shared := false, await := [1, 3], line := none, dirty := false, kept := false, gone := [], sent := false, room := none })).setDir 0 { st := .sh, sharers := 10, busy := true }, by decide +kernel⟩,
   ⟨1, 0, { req := 2, kind := .readX, epoch := 0, env := quietMedia, shared := false, await := [1, 3], line := none, dirty := false, kept := false, gone := [], sent := false, room := none }, con, (up.setTx 0 (some { req := 2, kind := .readX, epoch := 0, env := quietMedia, shared := false, await := [1, 3], line := none, dirty := false, kept := false, gone := [], sent := false, room := none })).setDir 0 { st := .sh, sharers := 10, busy := true }, by decide +kernel⟩,
   ⟨1, 0, { req := 2, kind := .readX, epoch := 0, env := quietMedia, shared := false, await := [1], line := none, dirty := false, kept := false, gone := [], sent := false, room := none }, con, (up.setTx 0 (some { req := 2, kind := .readX, epoch := 0, env := quietMedia, shared := false, await := [1], line := none, dirty := false, kept := false, gone := [], sent := false, room := none })).setDir 0 { st := .ex, sharers := 2, busy := true }, by decide +kernel⟩,
   ⟨1, 0, { req := 2, kind := .readX, epoch := 0, env := quietMedia, shared := false, await := [1, 3], line := none, dirty := false, kept := false, gone := [], sent := false, room := none }, (up.setTx 0 (some { req := 2, kind := .readX, epoch := 0, env := quietMedia, shared := false, await := [1, 3], line := none, dirty := false, kept := false, gone := [], sent := false, room := none })).setDir 0 { st := .sh, sharers := 10, busy := true }, by decide +kernel⟩,
   ⟨4, 0, { req := 2, kind := .readX, epoch := 0, env := quietMedia, shared := false, await := [1, 3], line := none, dirty := false, kept := false, gone := [], sent := false, room := none }, (up.setTx 0 (some { req := 2, kind := .readX, epoch := 0, env := quietMedia, shared := false, await := [1, 3], line := none, dirty := false, kept := false, gone := [], sent := false, room := none })).setDir 0 { st := .sh, sharers := 10, busy := true }, by decide +kernel⟩,
   ⟨2, 0, { req := 2, kind := .readX, epoch := 0, env := quietMedia, shared := false, await := [], line := none, dirty := false, kept := false, gone := [], sent := true, room := none }, (up.setTx 0 (some { req := 2, kind := .readX, epoch := 0, env := quietMedia, shared := false, await := [], line := none, dirty := false, kept := false, gone := [], sent := true, room := none })).setDir 0 { st := .ex, sharers := 4, busy := true }, by decide +kernel⟩,
   ⟨1, 0, { req := 2, kind := .readX, epoch := 0, env := quietMedia, shared := false, await := [], line := none, dirty := false, kept := false, gone := [], sent := true, room := none }, (up.setTx 0 (some { req := 2, kind := .readX, epoch := 0, env := quietMedia, shared := false, await := [], line := none, dirty := false, kept := false, gone := [], sent := true, room := none })).setDir 0 { st := .ex, sharers := 4, busy := true }, by decide +kernel⟩⟩

theorem witness_logs_are_read_and_cleared :
    (∃ (c : Ctx) (g k : Byte) (w : Word) (o : SlotRead) (a : DWord) (s : State), s.accepts 0x40 c (getLogParams g k w a) = true ∧ c.path = .sideband ∧ (slotRef w.toNat).present = false ∧ s.logStatus g.toNat k.toNat = none) ∧
    (∃ (c : Ctx) (g k : Byte) (w : Word) (o : SlotRead) (a : DWord) (s : State), s.accepts 0x40 c (getLogParams g k w a) = true ∧ c.path = .sideband ∧ (slotRef w.toNat).present = false ∧ s.logStatus g.toNat k.toNat = none) ∧
    (∃ (c : Ctx) (g k : Byte) (w : Word) (o : SlotRead) (a : DWord) (s : State), s.accepts 0x40 c (getLogParams g k w a) = true ∧ c.path = .sideband ∧ (slotRef w.toNat).present = false ∧ s.logStatus g.toNat k.toNat = some .unknown) ∧
    (∃ (c : Ctx) (g k : Byte) (w : Word) (x : Token) (s : State), s.accepts 0x41 c (clearLogParams g k w) = true ∧ c.path = .sideband ∧ (slotRef w.toNat).present = false ∧ x.present = false) ∧
    (∃ (c : Ctx) (k : Byte) (w : Word) (x : Token) (s : State), s.accepts 0x41 c (clearLogParams 1 k w) = true ∧ c.path = .sideband ∧ (slotRef w.toNat).present = false ∧ x.present = true ∧ s.hasTile k.toNat = true ∧ s.coreUp = true ∧ s.tokenFails x 2 (1 + 256 * k.toNat) (fun n => s.commonSigner n) = none) ∧
    (∃ (p n : Nat) (r : ARec) (s : State), s.takesWrite p = true ∧ n < 2 ^ 32 - 1 ∧ (tget (fun _ => []) s.anl.rings (s.field .anlRdTile 0 0 2 0)).find? (fun r => r.seq == n) = some r) ∧
    (∃ (p n : Nat) (s : State), s.takesWrite p = true ∧ n < 2 ^ 32 - 1 ∧ (tget (fun _ => []) s.anl.rings (s.field .anlRdTile 0 0 2 0)).find? (fun r => r.seq == n) = none) ∧
    (∃ (u k : Nat) (s : State), u < 2 ∧ s.hasTile k = true ∧ s.curators.contains u = true ∧ tget (fun _ => 0) s.anl.lostN k = 0) ∧
    (∃ (u k : Nat) (b : Bool) (s : State), u < 2 ∧ s.hasTile k = true ∧ s.curators.contains u = false) ∧
    (∃ (s : State), s.cur.primary.isSome = true ∧ s.thm.lastSpare + 86400000000000 ≤ s.now) ∧
    (∃ (s : State), s.now < s.thm.lastSpare + 86400000000000) ∧
    (∃ (s : State), s.cur.primary.isSome = true ∧ s.thm.lastSample + 60000000000 ≤ s.now) ∧
    (∃ (s : State), s.now < s.thm.lastSample + 60000000000) ∧
    (∃ (c : Ctx) (k n : Byte) (v : Nat) (s : State), s.accepts 0x42 c (sensorReadParams k n) = true ∧ s.hasTile k.toNat = true ∧ s.sensorResult k.toNat n.toNat = some v) ∧
    (∃ (c : Ctx) (k n : Byte) (s : State), s.accepts 0x42 c (sensorReadParams k n) = true ∧ s.hasTile k.toNat = true ∧ s.sensorResult k.toNat n.toNat = none) :=
  ⟨⟨side, 1, 0, 0, ⟨true, 0⟩, 0, queued side 0x40 (getLogParams (1 : Byte) (0 : Byte) (0 : Word) (0 : DWord)) (({ up with anl := { up.anl with rings := [(0, [{ code := 0x3002, raised := false, inject := false, repUpd := false, opened := false, sev := 1, tile := 0, source := 0, rep := 1, tFirst := 0, tLast := 0, seq := 4, boot := 0, addr := 0, value := 0, aux := 0 }])], nextSeq := [(0, 5)] } })), by decide +kernel⟩,
   ⟨side, 1, 0, 0, ⟨true, 0⟩, 0, queued side 0x40 (getLogParams 1 0 0 0) ({ up with anl := { up.anl with rings := [(0, [{ code := 0x3002, raised := false, inject := false, repUpd := false, opened := false, sev := 1, tile := 0, source := 0, rep := 1, tFirst := 0, tLast := 0, seq := 4, boot := 0, addr := 0, value := 0, aux := 0 }])], nextSeq := [(0, 5)] } }), by decide +kernel⟩,
   ⟨side, 9, 0, 0, ⟨true, 0⟩, 0, queued side 0x40 (getLogParams (9 : Byte) (0 : Byte) (0 : Word) (0 : DWord)) (up), by decide +kernel⟩,
   ⟨side, 0, 0, 0, tok, queued side 0x41 (clearLogParams (0 : Byte) (0 : Byte) (0 : Word)) (up), by decide +kernel⟩,
   ⟨side, 0, 0, { tok with present := true, magic := 0x4B545A56, format := 1, purpose := 2, number := 1, state := 1, bind := 1 }, queued side 0x41 (clearLogParams 1 (0 : Byte) (0 : Word)) (({ up with cur := { up.cur with lifecycle := .opened }, anl := { up.anl with rings := [(0, [{ code := 0x3002, raised := false, inject := false, repUpd := false, opened := false, sev := 1, tile := 0, source := 0, rep := 1, tFirst := 0, tLast := 0, seq := 4, boot := 0, addr := 0, value := 0, aux := 0 }])], nextSeq := [(0, 5)] } })), by decide +kernel⟩,
   ⟨0, 4, { code := 0x3002, raised := false, inject := false, repUpd := false, opened := false, sev := 1, tile := 0, source := 0, rep := 1, tFirst := 0, tLast := 0, seq := 4, boot := 0, addr := 0, value := 0, aux := 0 }, ({ up with anl := { up.anl with rings := [(0, [{ code := 0x3002, raised := false, inject := false, repUpd := false, opened := false, sev := 1, tile := 0, source := 0, rep := 1, tFirst := 0, tLast := 0, seq := 4, boot := 0, addr := 0, value := 0, aux := 0 }])], nextSeq := [(0, 5)] } }), by decide +kernel⟩,
   ⟨0, 3, ({ up with anl := { up.anl with rings := [(0, [{ code := 0x3002, raised := false, inject := false, repUpd := false, opened := false, sev := 1, tile := 0, source := 0, rep := 1, tFirst := 0, tLast := 0, seq := 4, boot := 0, addr := 0, value := 0, aux := 0 }])], nextSeq := [(0, 5)] } }), by decide +kernel⟩,
   ⟨0, 0, ({ up with anl := { up.anl with rings := [(0, [{ code := 0x3002, raised := false, inject := false, repUpd := false, opened := false, sev := 1, tile := 0, source := 0, rep := 1, tFirst := 0, tLast := 0, seq := 4, boot := 0, addr := 0, value := 0, aux := 0 }])], nextSeq := [(0, 5)] } }), by decide +kernel⟩,
   ⟨1, 0, true, up, by decide +kernel⟩,
   ⟨{ up with now := 86400000000000 }, by decide +kernel⟩,
   ⟨up, by decide +kernel⟩,
   ⟨{ up with now := 60000000000 }, by decide +kernel⟩,
   ⟨up, by decide +kernel⟩,
   ⟨side, 0, 0, (up.sensorResult 0 0).getD 0, queued side 0x42 (sensorReadParams (0 : Byte) (0 : Byte)) (up), by decide +kernel⟩,
   ⟨side, 0, 9, queued side 0x42 (sensorReadParams (0 : Byte) (9 : Byte)) (up), by decide +kernel⟩⟩

theorem witness_fault_sources_and_slots :
    (∃ (c : Ctx) (k : Byte) (i : BitVec 12) (w : Word) (x : Token) (m : DWord) (n : BitVec 16) (s : State), s.accepts 0x43 c (faultInjectParams k i w m n) = true ∧ c.path = .sideband ∧ (slotRef w.toNat).present = false ∧ x.present = false ∧ s.cur.lifecycle ≠ .sealed ∧ s.injectStatus k.toNat i.toNat n.toNat = none ∧ m ≠ 0) ∧
    (∃ (c : Ctx) (k : Byte) (i : BitVec 12) (w : Word) (x : Token) (m : DWord) (n : BitVec 16) (s : State), s.accepts 0x43 c (faultInjectParams k i w m n) = true ∧ c.path = .sideband ∧ (slotRef w.toNat).present = false ∧ x.present = false ∧ s.cur.lifecycle ≠ .sealed ∧ s.injectStatus k.toNat i.toNat n.toNat = none ∧ m = 0) ∧
    (∃ (c : Ctx) (k : Byte) (i : BitVec 12) (w : Word) (x : Token) (m : DWord) (n : BitVec 16) (s : State), s.accepts 0x43 c (faultInjectParams k i w m n) = true ∧ c.path = .sideband ∧ (slotRef w.toNat).present = false ∧ x.present = false ∧ s.cur.lifecycle ≠ .sealed ∧ (s.injectStatus k.toNat i.toNat n.toNat).isSome = true) ∧
    (∃ (k i : Nat) (s : State), s.hasSource k i = true ∧ (((s.src k i).winAt.isSome = true ∧ ∀ w, (s.src k i).winAt = some w → w + (s.src k i).winLen ≤ s.now))) ∧
    (∃ (p k i : Nat) (u : UnitInfo) (w : Word) (s : State), s.takesWrite p = true ∧ i < 4096 ∧ s.hasSource k i = true ∧ unitInfo (i / 128) = some u ∧ bits w.toNat 31 29 < 5) ∧
    (∃ (p k i : Nat) (w : Word) (s : State), s.takesWrite p = true ∧ i < 4096 ∧ s.hasSource k i = true ∧ 5 ≤ bits w.toNat 31 29) ∧
    (∃ (a k n : Nat) (s : State), s.hasActor a = true ∧ s.hasTile k = true ∧ n < 32 ∧ s.cry.haltCause = 0 ∧ s.slotOpen k n = true) ∧
    (∃ (a k n : Nat) (s : State), s.hasActor a = true ∧ s.hasTile k = true ∧ n < 32 ∧ s.cry.haltCause = 0 ∧ s.slotOpen k n = false) ∧
    (∃ (a k n : Nat) (s : State), s.hasActor a = true ∧ s.hasTile k = true ∧ n < 32 ∧ s.cry.haltCause = 0 ∧ s.slotOpen k n = false) ∧
    (∃ (a k n : Nat) (s : State), s.hasActor a = true ∧ s.hasTile k = true ∧ n < 32 ∧ s.cry.haltCause = 0 ∧ s.slotOpen k n = true ∧ (s.slot k n).fatal = false ∧ s.epo.rollback = false) ∧
    (∃ (k n : Nat) (s : State), s.hasTile k = true ∧ n < 32 ∧ s.cry.haltCause = 0 ∧ (s.slot k n).opened = true ∧ (s.slot k n).deadline ≤ s.now ∧ (s.slot k n).fatal = false ∧ s.epo.rollback = false) ∧
    (∃ (k n : Nat) (s : State), s.hasTile k = true ∧ n < 32 ∧ s.now < (s.slot k n).deadline) ∧
    (∃ (k : Nat) (s : State), s.hasTile k = true ∧ k < 8 ∧ s.underReset k = true) ∧
    (∃ (k : Nat) (s : State), s.hasTile k = true ∧ k < 8 ∧ s.flt.resetting.any (fun e => e.1 == k && decide (e.2 + 1000000000 ≤ s.now)) = true) ∧
    (∃ (k : Nat) (s : State), s.hasTile k = true ∧ s.underReset k = false) ∧
    (∃ (k : Nat) (s : State), s.hasTile k = true ∧ s.underReset k = false) :=
  ⟨⟨side, 0, 0, 0, tok, 5, 1, queued side 0x43 (faultInjectParams (0 : Byte) (0 : BitVec 12) (0 : Word) (5 : DWord) (1 : BitVec 16)) ({ up with cur := { up.cur with lifecycle := .opened } }), by decide +kernel⟩,
   ⟨side, 0, 0, 0, tok, 0, 1, queued side 0x43 (faultInjectParams (0 : Byte) (0 : BitVec 12) (0 : Word) (0 : DWord) (1 : BitVec 16)) ({ up with cur := { up.cur with lifecycle := .opened } }), by decide +kernel⟩,
   ⟨side, 0, 0, 0, tok, 0, 0, queued side 0x43 (faultInjectParams (0 : Byte) (0 : BitVec 12) (0 : Word) (0 : DWord) (0 : BitVec 16)) ({ up with cur := { up.cur with lifecycle := .opened } }), by decide +kernel⟩,
   ⟨0, 0, { up.setSrc 0 0 { srcDefault 0 with winAt := some 0, window := 3 } with now := 2 ^ 60 }, by decide +kernel, by decide +kernel, fun w h => by cases h; decide +kernel⟩,
   ⟨0, 0, 0, ⟨3, 4, true⟩, 0x20000305, up, by decide +kernel⟩,
   ⟨0, 0, 0, 0xA0000305, up, by decide +kernel⟩,
   ⟨0, 0, 0, { up with flt := { up.flt with slots := [(0, { opened := true, deadline := 5 })] } }, by decide +kernel⟩,
   ⟨0, 0, 0, up, by decide +kernel⟩,
   ⟨0, 0, 0, up, by decide +kernel⟩,
   ⟨0, 0, 0, { up with flt := { up.flt with slots := [(0, { opened := true, deadline := 5 })] } }, by decide +kernel⟩,
   ⟨0, 0, { up with flt := { up.flt with slots := [(0, { opened := true })] } }, by decide +kernel⟩,
   ⟨0, 0, { up with flt := { up.flt with slots := [(0, { opened := true, deadline := 5 })] } }, by decide +kernel⟩,
   ⟨0, { up with flt := { up.flt with resetting := [(0, 0)], halted := 1 } }, by decide +kernel⟩,
   ⟨0, { up with now := 1000000000, flt := { up.flt with resetting := [(0, 0)] } }, by decide +kernel⟩,
   ⟨0, up, by decide +kernel⟩,
   ⟨0, up, by decide +kernel⟩⟩

theorem witness_passes_close_and_reopen :
    (∃ (r : PassReset) (n p : Nat) (w : Bool) (s : State), s.hasReset r = true ∧ s.coreUp = true ∧ s.tileRuns (resetTileOf r) = true ∧ s.passClosed (resetTileOf r) ((resetPasses r).headD 0) = false ∧ p ∈ resetPasses r) ∧
    (∃ (r : PassReset) (n : Nat) (w : Bool) (s : State), s.hasReset r = true ∧ s.coreUp = true ∧ s.tileRuns (resetTileOf r) = true ∧ s.passClosed (resetTileOf r) ((resetPasses r).headD 0) = false ∧ resetAborts r w = true) ∧
    (∃ (r : PassReset) (n : Nat) (w : Bool) (s : State), s.hasReset r = true ∧ s.passClosed (resetTileOf r) ((resetPasses r).headD 0) = true) ∧
    (∃ (k p : Nat) (s : State), s.hasPass k p = true ∧ s.passClosed k p = true) ∧
    (∃ (k p : Nat) (s : State), s.hasPass k p = true ∧ s.passClosed k p = false) ∧
    (∃ (k j : Nat) (s : State), s.hasTile k = true ∧ j < 3 ∧ s.hasSaddle j = true ∧ s.coreUp = true ∧ (tget (fun _ => (0 : BitVec 3)) s.coh.saddleUp k).getLsbD j = true ∧ s.flt.inj = []) ∧
    (∃ (k j : Nat) (s : State), s.hasTile k = true ∧ j < 3 ∧ s.hasSaddle j = true ∧ s.coreUp = true ∧ (tget (fun _ => (0 : BitVec 3)) s.coh.saddleUp k).getLsbD j = true ∧ tget (fun _ => false) s.coh.replay (linkKey k j) = false) ∧
    (∃ (k j : Nat) (s : State), s.hasTile k = true ∧ j < 3 ∧ s.hasSaddle j = true ∧ s.coreUp = true ∧ (tget (fun _ => (0 : BitVec 3)) s.coh.saddleUp k).getLsbD j = true ∧ tget (fun _ => false) s.coh.replay (linkKey k j) = true) ∧
    (∃ (k p : Nat) (s : State), s.hasTile k = true ∧ s.cry.haltCause ≠ 0 ∧ p < 8) :=
  ⟨⟨.ddr 0 1, 0, 77, true, up, by decide +kernel⟩,
   ⟨.ddr 0 1, 0, true, up, by decide +kernel⟩,
   ⟨.ddr 0 1, 0, true, up.setPass 0 75 true, by decide +kernel⟩,
   ⟨0, 26, up.setPass 0 26 true, by decide +kernel⟩,
   ⟨0, 0, up, by decide +kernel⟩,
   ⟨0, 0, { up with coh := { up.coh with saddleUp := [(0, 7)] } }, by decide +kernel⟩,
   ⟨0, 0, { up with coh := { up.coh with saddleUp := [(0, 7)] } }, by decide +kernel⟩,
   ⟨0, 0, { up with coh := { up.coh with saddleUp := [(0, 7), (1, 7)], replay := [(0, true)] } }, by decide +kernel⟩,
   ⟨0, 0, { up with cry := { up.cry with haltCause := 1 } }, by decide +kernel⟩⟩

theorem witness_pins_and_locks :
    (∃ (p k : Nat) (w : Word) (s : State), s.takesWrite p = true ∧ s.hasTile k = true ∧ s.commitStore.lockRefused k (w.toNat % 2 ^ 16) = true) ∧
    (∃ (p k : Nat) (w : Word) (s : State), s.takesWrite p = true ∧ s.hasTile k = true ∧ s.commitStore.lockRefused k (w.toNat % 2 ^ 16) = false ∧ bits (s.reg .ncWaydis k 0) 31 16 = 0 ∧ (s.commitStore.setWays k (w.toNat % 2 ^ 16)).cat.stuck = false ∧ (s.commitStore.setWays k (w.toNat % 2 ^ 16)).cat.forged = none) ∧
    (∃ (c : Ctx) (k : Byte) (a : DWord) (n : Word) (e : MediaEnv) (s : State), s.accepts 0x23 c (pinParams k a n) = true ∧ s.pinCheck k.toNat a.toNat n.toNat = none ∧ s.field .ncLock k.toNat 0 15 0 = 0 ∧ (s.reply (srcStream k.toNat) c .state 0).cat.stuck = false ∧ (s.reply (srcStream k.toNat) c .state 0).cat.forged = none) ∧
    (∃ (c : Ctx) (k : Byte) (a : DWord) (n : Word) (e : MediaEnv) (s : State), s.accepts 0x23 c (pinParams k a n) = true ∧ s.pinCheck k.toNat a.toNat n.toNat = none ∧ s.field .ncLock k.toNat 0 15 0 ≠ 0 ∧ ((pinRun (fun l s => s.pinLine k.toNat l e) (linesOf a.toNat (128 * n.toNat)) s).2.reply (srcStream k.toNat) c .done
        (pinRun (fun l s => s.pinLine k.toNat l e) (linesOf a.toNat (128 * n.toNat)) s).1).cat.stuck = false ∧ ((pinRun (fun l s => s.pinLine k.toNat l e) (linesOf a.toNat (128 * n.toNat)) s).2.reply (srcStream k.toNat) c .done
        (pinRun (fun l s => s.pinLine k.toNat l e) (linesOf a.toNat (128 * n.toNat)) s).1).cat.forged = none) ∧
    (∃ (c : Ctx) (k : Byte) (a : DWord) (e : MediaEnv) (s : State), s.accepts 0x23 c (pinParams k a 1) = true ∧ s.pinCheck k.toNat a.toNat 1 = none ∧ s.field .ncLock k.toNat 0 15 0 ≠ 0 ∧ (s.vacantSlot k.toNat (a.toNat / 128)).isSome = true ∧ s.pinnedInSet (a.toNat / 128) < 10 ∧ ((pinRun (fun l s => s.pinLine k.toNat l e) (linesOf a.toNat (128 * (1 : Word).toNat)) s).2).cat.stuck = false ∧ ((pinRun (fun l s => s.pinLine k.toNat l e) (linesOf a.toNat (128 * (1 : Word).toNat)) s).2).cat.forged = none) ∧
    (∃ (c : Ctx) (k : Byte) (a : DWord) (n : Word) (s : State), s.accepts 0x24 c (pinParams k a n) = true ∧ s.pinCheck k.toNat a.toNat n.toNat = none ∧ ((pinRun (fun l s => s.unpinLine k.toNat l) (linesOf a.toNat (128 * n.toNat)) s).2.settlePending k.toNat).cat.stuck = false ∧ ((pinRun (fun l s => s.unpinLine k.toNat l) (linesOf a.toNat (128 * n.toNat)) s).2.settlePending k.toNat).cat.forged = none) ∧
    (∃ (c : Ctx) (k : Byte) (a : DWord) (n : Word) (e : MediaEnv) (s : State), s.accepts 0x23 c (pinParams k a n) = true ∧ s.hasTile k.toNat = true ∧ a.toNat < 2 ^ 49 ∧ a.toNat % 128 ≠ 0 ∧ (s.reply srcInterp c .param 0).cat.stuck = false ∧ (s.reply srcInterp c .param 0).cat.forged = none) :=
  ⟨⟨0, 0, 0xFFFF, up, by decide +kernel⟩,
   ⟨0, 0, 5, up, by decide +kernel⟩,
   ⟨ring, 0, 0, 1, quietMedia, run 0x23 (pinParams (0 : Byte) (0 : DWord) (1 : Word)) up, by decide +kernel⟩,
   ⟨ring, 0, 0, 1, quietMedia, run 0x23 (pinParams (0 : Byte) (0 : DWord) (1 : Word)) (up.putReg .ncLock 0 0 1), by decide +kernel⟩,
   ⟨ring, 0, 0, quietMedia, run 0x23 (pinParams (0 : Byte) (0 : DWord) 1) (up.putReg .ncLock 0 0 1), by decide +kernel⟩,
   ⟨ring, 0, 0, 1, run 0x24 (pinParams (0 : Byte) (0 : DWord) (1 : Word)) ((up.putReg .ncLock 0 0 1).setNc 0 0 { st := .s, pin := true }), by decide +kernel⟩,
   ⟨ring, 0, 5, 1, quietMedia, run 0x23 (pinParams (0 : Byte) (5 : DWord) (1 : Word)) (up.putReg .ncLock 0 0 1), by decide +kernel⟩⟩

theorem witness_link_registers :
    (∃ (a k : Nat) (w : Word) (s : State), s.takesWrite a = true ∧ s.hasTile k = true ∧ bondBad (w.toNat % 2 ^ 24) = true) ∧
    (∃ (a k p : Nat) (w : Word) (s : State), s.takesWrite a = true ∧ s.hasTile k = true ∧ p < 8 ∧ bondBad (w.toNat % 2 ^ 24) = false ∧ (s.commitStore.bondChanged k (w.toNat % 2 ^ 24)).any (fun p => s.commitStore.portInUse k p) = false) ∧
    (∃ (a k p : Nat) (w : Word) (s : State), s.takesWrite a = true ∧ s.hasSport k p = true ∧ s.field .slkPortCfg k p 31 31 = 0 ∧ bits w.toNat 31 31 = 1 ∧ s.linkRuns k = true) ∧
    (∃ (a k p : Nat) (w : Word) (s : State), s.takesWrite a = true ∧ s.hasSport k p = true ∧ bits w.toNat 31 31 = s.field .slkPortCfg k p 31 31) ∧
    (∃ (a k p i : Nat) (w : Word) (s : State), s.takesWrite a = true ∧ s.hasTile k = true ∧ p < 8 ∧ i < 8) ∧
    (∃ (a k p : Nat) (s : State), s.takesWrite a = true ∧ s.hasTile k = true ∧ p < 8 ∧ s.portIn k p .active = true ∧ (s.sport k p).gcm = true) ∧
    (∃ (a k p : Nat) (s : State), s.takesWrite a = true ∧ s.hasTile k = true ∧ p < 8 ∧ (s.sport k p).gcm = false) :=
  ⟨⟨0, 0, 5, up, by decide +kernel⟩,
   ⟨0, 0, 0, 1, up, by decide +kernel⟩,
   ⟨0, 0, 0, 0x80000001, (up.putReg .slkBond 0 0 1), by decide +kernel⟩,
   ⟨0, 0, 0, 1, (up.putReg .slkBond 0 0 1), by decide +kernel⟩,
   ⟨0, 0, 0, 2, 77, up, by decide +kernel⟩,
   ⟨0, 0, 0, (up.putReg .slkBond 0 0 1).setSport 0 0 { st := .active, gcm := true }, by decide +kernel⟩,
   ⟨0, 0, 0, (up.putReg .slkBond 0 0 1).setSport 0 0 { st := .active }, by decide +kernel⟩⟩

theorem witness_training_advances :
    (∃ (k p : Nat) (s : State), s.hasSport k p = true ∧ s.portIn k p .reset = true ∧ (s.sport k p).since + 100000 ≤ s.now) ∧
    (∃ (k p : Nat) (s : State), s.hasSport k p = true ∧ s.now < (s.sport k p).since + 100000) ∧
    (∃ (k p : Nat) (s : State), s.hasSport k p = true ∧ s.portIn k p .detect = true) ∧
    (∃ (k p l : Nat) (x : BitVec 128) (a g : Bool) (s : State), s.hasSport k p = true ∧ s.portIn k p .eq = true ∧ l < s.width k p ∧ eqCrcOk x = false) ∧
    (∃ (k p : Nat) (x : BitVec 128) (a : Bool) (s : State), s.hasSport k p = true ∧ s.portIn k p .eq = true ∧ s.width k p = 1 ∧ eqCrcOk x = true ∧ x.getLsbD 24 = true ∧ tget (fun _ => 0) (s.sport k p).readyRun 0 = 3) ∧
    (∃ (k p : Nat) (s : State), s.hasSport k p = true ∧ s.portIn k p .eq = true ∧ (s.sport k p).since + 50000000 ≤ s.now ∧ (s.sport k p).eqTmo < 7) ∧
    (∃ (k p : Nat) (s : State), s.hasSport k p = true ∧ s.portIn k p .eq = true ∧ (s.sport k p).since + 50000000 ≤ s.now ∧ 7 ≤ (s.sport k p).eqTmo) ∧
    (∃ (k p : Nat) (f : Byte) (s : State), s.hasSport k p = true ∧ s.portIn k p .lock = true ∧ s.width k p = 1 ∧ tget (fun _ => 0) (s.sport k p).lockRun 0 = 3) ∧
    (∃ (k p l : Nat) (m : BitVec 40) (f : Byte) (s : State), s.hasSport k p = true ∧ s.portIn k p .lock = true ∧ l < s.width k p ∧ m ≠ lockMarker l) ∧
    (∃ (k p : Nat) (s : State), s.hasSport k p = true ∧ s.portIn k p .lock = true ∧ (s.sport k p).since + 1000000 ≤ s.now ∧ (s.sport k p).eqTmo < 7) ∧
    (∃ (k p : Nat) (s : State), s.hasSport k p = true ∧ s.portIn k p .lock = true ∧ (s.sport k p).since + 1000000 ≤ s.now ∧ 7 ≤ (s.sport k p).eqTmo) ∧
    (∃ (k p l : Nat) (s : State), s.hasSport k p = true ∧ s.portIn k p .detect = true ∧ l < s.width k p ∧ s.field .slkLane k (p + l) 31 31 = 0 ∧ (s.sport k p).since + 1000000000 ≤ s.now) :=
  ⟨⟨0, 0, { (up.putReg .slkBond 0 0 1).setSport 0 0 { st := .reset } with now := 100000 }, by decide +kernel⟩,
   ⟨0, 0, (up.putReg .slkBond 0 0 1).setSport 0 0 { st := .reset }, by decide +kernel⟩,
   ⟨0, 0, (up.putReg .slkBond 0 0 1).setSport 0 0 { st := .detect }, by decide +kernel⟩,
   ⟨0, 0, 0, 1, true, true, (up.putReg .slkBond 0 0 1).setSport 0 0 { st := .eq }, by decide +kernel⟩,
   ⟨0, 0, eqControl 0 0 0 1, true, (up.putReg .slkBond 0 0 1).setSport 0 0 { st := .eq, readyRun := [(0, 3)] }, by decide +kernel⟩,
   ⟨0, 0, { (up.putReg .slkBond 0 0 1).setSport 0 0 { st := .eq } with now := 50000000 }, by decide +kernel⟩,
   ⟨0, 0, { (up.putReg .slkBond 0 0 1).setSport 0 0 { st := .eq, eqTmo := 7 } with now := 50000000 }, by decide +kernel⟩,
   ⟨0, 0, 3, (up.putReg .slkBond 0 0 1).setSport 0 0 { st := .lock, lockRun := [(0, 3)] }, by decide +kernel⟩,
   ⟨0, 0, 0, 0, 0, (up.putReg .slkBond 0 0 1).setSport 0 0 { st := .lock, lockRun := [(0, 3)] }, by decide +kernel⟩,
   ⟨0, 0, { (up.putReg .slkBond 0 0 1).setSport 0 0 { st := .lock } with now := 1000000 }, by decide +kernel⟩,
   ⟨0, 0, { (up.putReg .slkBond 0 0 1).setSport 0 0 { st := .lock, eqTmo := 7 } with now := 1000000 }, by decide +kernel⟩,
   ⟨0, 0, 0, { (up.putReg .slkBond 0 0 1).setSport 0 0 { st := .detect } with now := 1000000000 }, by decide +kernel⟩⟩

theorem witness_config_exchange_rule :
    (∃ (k p : Nat) (f : Flit) (s : State), s.hasSport k p = true ∧ s.portIn k p .config = true ∧ f.lost = 0 ∧ f.fixed = 0 ∧ f.hcrcOk = true ∧ f.legal .ctrl = true ∧ f.id = 1 ∧ s.configFails k p (configOf f.payload) = true) ∧
    (∃ (k p : Nat) (f : Flit) (s : State), s.hasSport k p = true ∧ s.portIn k p .config = true ∧ f.lost = 0 ∧ f.fixed = 0 ∧ f.hcrcOk = true ∧ f.legal .ctrl = true ∧ f.id = 1 ∧ s.configFails k p (configOf f.payload) = false ∧ (s.sport k p).cfgAcked = false ∧ (s.sport k p).cfgGot = false ∧ (s.sport k p).ctrlQ = [] ∧ (s.engine k p).switches = [] ∧ payloadField f.payload 10 2 ≠ 0) ∧
    (∃ (k p : Nat) (f : Flit) (s : State), s.hasSport k p = true ∧ s.portIn k p .config = true ∧ f.lost = 0 ∧ f.fixed = 0 ∧ f.hcrcOk = true ∧ f.legal .ctrl = true ∧ f.id = 1 ∧ s.configFails k p (configOf f.payload) = false ∧ (s.sport k p).cfgAcked = true) ∧
    (∃ (k p : Nat) (f : Flit) (s : State), s.hasSport k p = true ∧ s.portIn k p .config = true ∧ f.lost = 0 ∧ f.fixed = 0 ∧ f.hcrcOk = true ∧ f.legal .ctrl = true ∧ f.id = 2 ∧ (s.sport k p).cfgSeqs.contains (payloadField f.payload 0 2) = true ∧ (s.sport k p).cfgGot = true) ∧
    (∃ (k p : Nat) (f : Flit) (s : State), s.hasSport k p = true ∧ s.portIn k p .config = true ∧ f.lost = 0 ∧ f.fixed = 0 ∧ f.hcrcOk = true ∧ f.legal .ctrl = true ∧ f.id = 2 ∧ (s.sport k p).cfgSeqs.contains (payloadField f.payload 0 2) = false) ∧
    (∃ (k p : Nat) (s : State), s.hasSport k p = true ∧ s.portIn k p .config = true ∧ (s.sport k p).cfgAcked = false ∧ (s.sport k p).cfgAt + 4000 ≤ s.now) ∧
    (∃ (k p : Nat) (s : State), s.hasSport k p = true ∧ s.portIn k p .config = true ∧ (s.sport k p).since + 100000 ≤ s.now) :=
  ⟨⟨0, 0, (flitOf 260 (0)), (up.putReg .slkBond 0 0 1).setSport 0 0 { st := .config }, by decide +kernel⟩,
   ⟨0, 0, (flitOf 260 (payloadOf [(2, 0x0100), (1, 1), (1, 0), (2, 9), (2, 0), (2, 0), (2, 8)])), (up.putReg .slkBond 0 0 1).setSport 0 0 { st := .config }, by decide +kernel⟩,
   ⟨0, 0, (flitOf 260 (payloadOf [(2, 0x0100), (1, 1), (1, 0), (2, 9), (2, 0), (2, 0), (2, 8)])), (up.putReg .slkBond 0 0 1).setSport 0 0 { st := .config, cfgAcked := true }, by decide +kernel⟩,
   ⟨0, 0, (flitOf 516 (0)), (up.putReg .slkBond 0 0 1).setSport 0 0 { st := .config, cfgGot := true, txSeq := 1, cfgSeqs := [0] }, by decide +kernel⟩,
   ⟨0, 0, (flitOf 516 (0)), (up.putReg .slkBond 0 0 1).setSport 0 0 { st := .config }, by decide +kernel⟩,
   ⟨0, 0, { (up.putReg .slkBond 0 0 1).setSport 0 0 { st := .config } with now := 4000 }, by decide +kernel⟩,
   ⟨0, 0, { (up.putReg .slkBond 0 0 1).setSport 0 0 { st := .config } with now := 100000 }, by decide +kernel⟩⟩

theorem witness_flits_in_order :
    (∃ (k p : Nat) (f : Flit) (s : State), s.hasSport k p = true ∧ s.portIn k p .active = true ∧ s.flt.inj = [] ∧ f.lost = 0 ∧ f.hcrcOk = true ∧ f.legal .idle = true ∧ f.seq = (s.sport k p).rxSeq.toNat ∧ f.cclass = 0) ∧
    (∃ (k p n : Nat) (f : Flit) (s : State), s.hasSport k p = true ∧ s.portIn k p .active = true ∧ s.flt.inj = [] ∧ f.lost = 0 ∧ f.hcrcOk = true ∧ f.legal .req = true ∧ f.seq = (s.sport k p).rxSeq.toNat ∧ (s.sport k p).reqOut ≠ 0) ∧
    (∃ (k p n : Nat) (f : Flit) (x : Option Pos) (d : RouteDef) (s : State), s.hasSport k p = true ∧ s.portIn k p .active = true ∧ s.flt.inj = [] ∧ f.lost = 0 ∧ f.hcrcOk = true ∧ f.legal .req = true ∧ f.seq = (s.sport k p).rxSeq.toNat ∧ (s.sport k p).reqOut ≠ 0 ∧ (s.sport k p).gcm = false ∧ s.pathOf k p (reqOf f.route n f.payload) = some x ∧ (s.route k f.route).defn = some d) ∧
    (∃ (k p n : Nat) (f : Flit) (s : State), s.hasSport k p = true ∧ s.portIn k p .active = true ∧ s.flt.inj = [] ∧ f.lost = 0 ∧ f.hcrcOk = true ∧ f.legal .req = true ∧ f.seq = (s.sport k p).rxSeq.toNat ∧ f.cclass = 0 ∧ (s.sport k p).reqOut = 0) ∧
    (∃ (k p n : Nat) (f : Flit) (s : State), s.hasSport k p = true ∧ s.portIn k p .active = true ∧ s.flt.inj = [] ∧ f.lost = 0 ∧ f.hcrcOk = true ∧ f.legal .req = true ∧ f.seq = (s.sport k p).rxSeq.toNat ∧ f.cclass = 0 ∧ (s.sport k p).reqOut ≠ 0 ∧ (s.sport k p).gcm = false ∧ s.pathOf k p (reqOf f.route n f.payload) = none) ∧
    (∃ (k p : Nat) (f : Flit) (s : State), s.hasSport k p = true ∧ s.portIn k p .active = true ∧ s.flt.inj = [] ∧ f.lost = 0 ∧ f.hcrcOk = true ∧ f.legal .cap = true ∧ f.seq = (s.sport k p).rxSeq.toNat ∧ (s.sport k p).capOut ≠ 0) ∧
    (∃ (k p : Nat) (f : Flit) (s : State), s.hasSport k p = true ∧ s.portIn k p .active = true ∧ s.flt.inj = [] ∧ f.lost = 0 ∧ f.hcrcOk = true ∧ f.legal .cap = true ∧ f.seq = (s.sport k p).rxSeq.toNat ∧ (s.sport k p).capOut ≠ 0 ∧ f.tflags = 2 ∧ (s.region k p f.id).st = .opened ∧ (s.region k p f.id).enc = none) ∧
    (∃ (k p : Nat) (f : Flit) (s : State), s.hasSport k p = true ∧ s.portIn k p .active = true ∧ s.flt.inj = [] ∧ f.lost = 0 ∧ f.hcrcOk = true ∧ f.legal .cap = true ∧ f.seq = (s.sport k p).rxSeq.toNat ∧ f.cclass = 0 ∧ (s.sport k p).capOut = 0) ∧
    (∃ (k p : Nat) (f : Flit) (s : State), s.hasSport k p = true ∧ s.portIn k p .active = true ∧ s.flt.inj = [] ∧ f.lost = 0 ∧ f.hcrcOk = true ∧ f.legal .cap = true ∧ f.seq = (s.sport k p).rxSeq.toNat ∧ f.cclass = 0 ∧ (s.sport k p).capOut ≠ 0 ∧ (s.region k p (f.id % 64)).st ≠ .opened) ∧
    (∃ (k p : Nat) (s : State), s.hasSport k p = true ∧ s.portIn k p .active = true ∧ (s.sport k p).uncorr = [] ∧ 1 < s.field .slkPortCfg k p 7 0) ∧
    (∃ (k p : Nat) (q : Nat) (s : State), s.hasSport k p = true ∧ s.portIn k p .active = true) ∧
    (∃ (k p : Nat) (s : State), s.hasSport k p = true ∧ s.portIn k p .active = true ∧ (s.sport k p).badHdrs = 1 ∧ (s.sport k p).retrains = []) ∧
    (∃ (k p : Nat) (c : Byte) (s : State), s.hasSport k p = true ∧ s.portIn k p .active = true ∧ (recent s.now 1000000000 (s.sport k p).retrains).length < 7) ∧
    (∃ (k p : Nat) (f : Flit) (s : State), s.hasSport k p = true ∧ s.portIn k p .active = true ∧ s.flt.inj = [] ∧ f.lost = 0 ∧ f.hcrcOk = true ∧ f.legal .ctrl = true ∧ f.seq = (s.sport k p).rxSeq.toNat ∧ f.id = 6 ∧ f.cclass = 0 ∧ (s.sport k p).ctrlOut ≠ 0 ∧ (recent s.now 1000000000 (s.sport k p).retrains).length < 7) :=
  ⟨⟨0, 0, (flitOf 15393162788864 (0)), (up.putReg .slkBond 0 0 1).setSport 0 0 { st := .active, capOut := 128, reqOut := 16 }, by decide +kernel⟩,
   ⟨0, 0, 0, (flitOf 2 (payloadOf [(1, 4)])), ((up.putReg .slkBond 0 0 1).setSport 0 0 { st := .active, capOut := 128, reqOut := 16 }).setRoute 0 0 { st := .active, defn := some { port := 0, lat := 280, depth := 0, segs := [{ line := 0, loopTo := 0, lines := 4, kind := 2, land := false, next := 0, rep := 0, rsv := false }], epoch := 1 } } |>.setEngine 0 0 { current := some 0, pos := some { seg := 0, off := 1, stack := [] }, sentPos := some { seg := 0, off := 0, stack := [] } }, by decide +kernel⟩,
   ⟨0, 0, 50, (flitOf 2 (payloadOf [(1, 4)])), none, { port := 0, lat := 280, depth := 0, segs := [{ line := 0, loopTo := 0, lines := 4, kind := 2, land := false, next := 0, rep := 0, rsv := false }], epoch := 1 }, ((up.putReg .slkBond 0 0 1).setSport 0 0 { st := .active, capOut := 128, reqOut := 16 }).setRoute 0 0 { st := .active, defn := some { port := 0, lat := 280, depth := 0, segs := [{ line := 0, loopTo := 0, lines := 4, kind := 2, land := false, next := 0, rep := 0, rsv := false }], epoch := 1 } } |>.setEngine 0 0 { current := some 0, pos := some { seg := 0, off := 1, stack := [] }, sentPos := some { seg := 0, off := 0, stack := [] } }, by decide +kernel⟩,
   ⟨0, 0, 0, (flitOf 2 (0)), (up.putReg .slkBond 0 0 1).setSport 0 0 { st := .active }, by decide +kernel⟩,
   ⟨0, 0, 0, (flitOf 2 (payloadOf [(12, 0), (4, 9)])), (up.putReg .slkBond 0 0 1).setSport 0 0 { st := .active, capOut := 128, reqOut := 16 }, by decide +kernel⟩,
   ⟨0, 0, (flitOf 8589935363 (5)), ((up.putReg .slkBond 0 0 1).setSport 0 0 { st := .active, capOut := 128, reqOut := 16 }).setRegion 0 0 3 { st := .opened, units := 4 }, by decide +kernel⟩,
   ⟨0, 0, (flitOf 8589935363 (5)), ((up.putReg .slkBond 0 0 1).setSport 0 0 { st := .active, capOut := 128, reqOut := 16 }).setRegion 0 0 3 { st := .opened, units := 4 }, by decide +kernel⟩,
   ⟨0, 0, (flitOf 3 (0)), (up.putReg .slkBond 0 0 1).setSport 0 0 { st := .active }, by decide +kernel⟩,
   ⟨0, 0, (flitOf 3 (0)), (up.putReg .slkBond 0 0 1).setSport 0 0 { st := .active, capOut := 128, reqOut := 16 }, by decide +kernel⟩,
   ⟨0, 0, ((up.putReg .slkBond 0 0 1).setSport 0 0 { st := .active, capOut := 128, reqOut := 16 }).putField .slkPortCfg 0 0 7 0 4, by decide +kernel⟩,
   ⟨0, 0, 5, (up.putReg .slkBond 0 0 1).setSport 0 0 { st := .active, capOut := 128, reqOut := 16 }, by decide +kernel⟩,
   ⟨0, 0, (up.putReg .slkBond 0 0 1).setSport 0 0 { st := .active, badHdrs := 1 }, by decide +kernel⟩,
   ⟨0, 0, 0, (up.putReg .slkBond 0 0 1).setSport 0 0 { st := .active, capOut := 128, reqOut := 16 }, by decide +kernel⟩,
   ⟨0, 0, (flitOf 1540 (0)), (up.putReg .slkBond 0 0 1).setSport 0 0 { st := .active, capOut := 128, reqOut := 16, ctrlOut := 32 }, by decide +kernel⟩⟩

theorem witness_gcm_groups_verify :
    (∃ (k p : Nat) (f : Flit) (g : GFlit) (s : State), s.hasSport k p = true ∧ s.portIn k p .active = true ∧ s.flt.inj = [] ∧ f.lost = 0 ∧ f.hcrcOk = true ∧ f.legal .ctrl = true ∧ f.seq = (s.sport k p).rxSeq.toNat ∧ f.id = 3 ∧ f.cclass = 0 ∧ (s.sport k p).ctrlOut ≠ 0 ∧ (s.sport k p).gcm = true ∧ (s.sport k p).rx.flits = [g] ∧ payloadField f.payload 0 2 = g.seq ∧ payloadField f.payload 2 2 = g.seq ∧ payloadField f.payload 4 8 = (s.sport k p).rx.ctr ∧ payloadField f.payload 12 16 = groupTag (s.sport k p).keyRx (s.sport k p).rx.ctr [(g.aad, g.payload)]) ∧
    (∃ (k p : Nat) (f : Flit) (g : GFlit) (s : State), s.hasSport k p = true ∧ s.portIn k p .active = true ∧ s.flt.inj = [] ∧ f.lost = 0 ∧ f.hcrcOk = true ∧ f.legal .ctrl = true ∧ f.seq = (s.sport k p).rxSeq.toNat ∧ f.id = 3 ∧ f.cclass = 0 ∧ (s.sport k p).ctrlOut ≠ 0 ∧ (s.sport k p).gcm = true ∧ (s.sport k p).rx.flits = [g] ∧ payloadField f.payload 12 16 ≠ groupTag (s.sport k p).keyRx (s.sport k p).rx.ctr [(g.aad, g.payload)]) ∧
    (∃ (k p : Nat) (f : Flit) (s : State), s.hasSport k p = true ∧ s.portIn k p .active = true ∧ s.flt.inj = [] ∧ f.lost = 0 ∧ f.hcrcOk = true ∧ f.legal .ctrl = true ∧ f.seq = (s.sport k p).rxSeq.toNat ∧ f.id = 4 ∧ f.cclass = 0 ∧ (s.sport k p).ctrlOut ≠ 0 ∧ (s.sport k p).gcm = true ∧ (s.sport k p).rekeySent.isSome = true ∧ (s.sport k p).rekeyAt = some (payloadField f.payload 0 8)) ∧
    (∃ (k p : Nat) (s : State), s.hasSport k p = true ∧ s.portIn k p .active = true ∧ (s.sport k p).gcm = true ∧ (s.sport k p).rx.flits.isEmpty = false ∧ (s.sport k p).rx.stamp + 293 ≤ s.now) ∧
    (∃ (k p : Nat) (x : Nat) (s : State), s.hasSport k p = true ∧ s.portIn k p .active = true ∧ (s.sport k p).rekeySent = some x ∧ x + 100000 ≤ s.now) ∧
    (∃ (k p : Nat) (s : State), s.hasSport k p = true ∧ s.portIn k p .active = true ∧ (s.sport k p).gcm = true ∧ (s.sport k p).tx.flits.isEmpty = false ∧ (s.sport k p).tx.stamp + 147 ≤ s.now) ∧
    (∃ (k p : Nat) (s : State), s.hasSport k p = true ∧ (s.sport k p).tx.flits = []) :=
  ⟨⟨0, 0, (flitOf 772 (payloadOf [(2, 0), (2, 0), (8, 3), (16, groupTag [] 3 [(0, 0)])])), { seq := 0, record := none, aad := 0, payload := 0 }, (up.putReg .slkBond 0 0 1).setSport 0 0 { st := .active, gcm := true, ctrlOut := 32, rx := { flits := [{ seq := 0, record := none, aad := 0, payload := 0 }], ctr := 3 } }, by decide +kernel⟩,
   ⟨0, 0, (flitOf 772 (payloadOf [(12, 0), (1, 1)])), { seq := 0, record := none, aad := 0, payload := 0 }, (up.putReg .slkBond 0 0 1).setSport 0 0 { st := .active, gcm := true, ctrlOut := 32, rx := { flits := [{ seq := 0, record := none, aad := 0, payload := 0 }], ctr := 3 } }, by decide +kernel⟩,
   ⟨0, 0, (flitOf 1028 (payloadOf [(8, 19), (8, 77)])), (up.putReg .slkBond 0 0 1).setSport 0 0 { st := .active, gcm := true, ctrlOut := 32, rekeySent := some 0, rekeyAt := some 19 }, by decide +kernel⟩,
   ⟨0, 0, { (up.putReg .slkBond 0 0 1).setSport 0 0 { st := .active, gcm := true, rx := { flits := [{ seq := 0, record := none, aad := 0, payload := 0 }], ctr := 3 } } with now := 293 }, by decide +kernel⟩,
   ⟨0, 0, 0, { (up.putReg .slkBond 0 0 1).setSport 0 0 { st := .active, gcm := true, rekeySent := some 0 } with now := 100000 }, by decide +kernel⟩,
   ⟨0, 0, { (up.putReg .slkBond 0 0 1).setSport 0 0 { st := .active, gcm := true, tx := { flits := [{ seq := 0, record := none, aad := 0, payload := 0 }], ctr := 3 }, ctrlCr := 1 } with now := 147 }, by decide +kernel⟩,
   ⟨0, 0, (up.putReg .slkBond 0 0 1).setSport 0 0 { st := .active, capOut := 128, reqOut := 16 }, by decide +kernel⟩⟩

theorem witness_mailbox_and_roles :
    (∃ (p : Nat) (s : State), s.takesWrite p = true ∧ s.cur.primary.isSome = true ∧ s.cur.mailbox.owner = none) ∧
    (∃ (p q : Nat) (s : State), s.takesWrite p = true ∧ s.cur.mailbox.owner = some q ∧ q ≠ p) ∧
    (∃ (p : Nat) (s : State), s.takesWrite p = true ∧ s.cur.mailbox.owner = some p) ∧
    (∃ (p : Nat) (s : State), s.cur.mailbox.owner = some p ∧ s.cur.mailbox.busy = false ∧ s.cur.mailbox.last + 1000000000 ≤ s.now) ∧
    (∃ (s : State), s.now < s.cur.mailbox.last + 1000000000) ∧
    (∃ (u : Nat) (s : State), u < 2 ∧ s.curators.contains u = true) ∧
    (∃ (x : BitVec 2) (p : Nat) (s : State), s.cur.primary = some p ∧ s.hasStandby = true ∧ s.primaryFailed p x.toNat = true ∧ s.cur.queue.all (fun m => m.ctx.isSome || m.mailbox.isSome) = true) ∧
    (∃ (x : BitVec 2) (p : Nat) (s : State), s.cur.primary = some p ∧ s.primaryFailed p x.toNat = false) ∧
    (∃ (s : State), s.cur.primary.isSome = true ∧ s.cur.standby = .syncing ∧ s.cur.activation = none) ∧
    (∃ (p q : Nat) (s : State), s.hasPort p = true ∧ s.mbRuns p 3 = true ∧ s.mbCheck 3 = none ∧ s.cur.activation = none ∧ s.cur.primary = some q ∧ q < 2 ∧ s.cur.standby = .synced) ∧
    (∃ (p : Nat) (s : State), s.hasPort p = true ∧ s.mbRuns p 3 = true ∧ s.mbCheck 3 = none ∧ s.cur.activation = none ∧ s.cur.standby ≠ .synced) ∧
    (∃ (u : Nat) (s : State), u < 2 ∧ s.cur.dead.contains u = true) ∧
    (∃ (u : Nat) (s : State), u < 2 ∧ s.cur.dead.contains u = false ∧ s.cur.primary = some u ∧ s.hasStandby = false) ∧
    (∃ (v : Word) (u : Nat) (s : State), s.cur.restart = some u ∧ s.cur.primary = none ∧ s.pwr.vaonOk = true ∧ s.cur.activation = none) :=
  ⟨⟨0, up, by decide +kernel⟩,
   ⟨0, 1, { up with cur := { up.cur with mailbox := { owner := some 1 } } }, by decide +kernel⟩,
   ⟨0, { up with cur := { up.cur with mailbox := { owner := some 0 } } }, by decide +kernel⟩,
   ⟨0, { { up with cur := { up.cur with mailbox := { owner := some 0 } } } with now := 1000000000 }, by decide +kernel⟩,
   ⟨up, by decide +kernel⟩,
   ⟨0, up, by decide +kernel⟩,
   ⟨0, 0, { { up with cur := { up.cur with standby := .synced } } with now := 3000000 }, by decide +kernel⟩,
   ⟨0, 0, up, by decide +kernel⟩,
   ⟨{ up with cur := { up.cur with standby := .syncing } }, by decide +kernel⟩,
   ⟨0, 0, posted 3 0 (0) ({ up with cur := { up.cur with standby := .synced } }), by decide +kernel⟩,
   ⟨0, posted 3 0 (0) (up), by decide +kernel⟩,
   ⟨0, { up with cur := { up.cur with dead := [0] } }, by decide +kernel⟩,
   ⟨0, up, by decide +kernel⟩,
   ⟨5, 0, { up with cur := { up.cur with primary := none, restart := some 0 } }, by decide +kernel⟩⟩

theorem witness_firmware_and_reports :
    (∃ (p0 q i : Nat) (r : SlotRef) (c : Ctx) (w : Word) (o : SlotRead) (a : Word) (d : HostData) (g : Bool) (u b : Nat) (s : State), s.accepts 0x48 c (fwStageParams w a 0) = true ∧ c.path = .ring p0 q i ∧ (s.slotCheck p0 q i w o true (fun w x => decide (1 ≤ ownLen x ∧ ownLen x ≤ w.slotSize)) = .pass r) ∧ s.cur.activation = none ∧ a.toNat + ownLen o.word ≤ 8388608 ∧ d.ok = true ∧ s.targetSlot (s.cur.primary.getD 0) = (u, b)) ∧
    (∃ (p0 q i : Nat) (r : SlotRef) (c : Ctx) (w : Word) (o : SlotRead) (a : Word) (d : HostData) (g : Bool) (h : ImageHeader) (u b : Nat) (s : State), s.accepts 0x48 c (fwStageParams w a 1) = true ∧ c.path = .ring p0 q i ∧ (s.slotCheck p0 q i w o true (fun w x => decide (1 ≤ ownLen x ∧ ownLen x ≤ w.slotSize)) = .pass r) ∧ s.cur.activation = none ∧ a.toNat + ownLen o.word ≤ 8388608 ∧ d.ok = true ∧ s.targetSlot (s.cur.primary.getD 0) = (u, b) ∧ imageHeaderOf ((s.stageChunk u b a.toNat ((List.range (ownLen o.word)).map (fun i => d.bytes.getD i 0)) true).slotBytes u b 0 4096) = h ∧ h.good = true ∧ s.rootSigner h.root = true ∧ h.length + 4096 ≤ imageSpace ∧ h.digest = bodyDigest ((s.stageChunk u b a.toNat ((List.range (ownLen o.word)).map (fun i => d.bytes.getD i 0)) true).slotBytes u b 4096 h.length) ∧ g = true ∧ s.reg .curFwMin 0 0 ≤ h.version.toNat) ∧
    (∃ (p0 q i : Nat) (r : SlotRef) (c : Ctx) (w : Word) (o : SlotRead) (a : Word) (d : HostData) (g : Bool) (h : ImageHeader) (u b : Nat) (s : State), s.accepts 0x48 c (fwStageParams w a 1) = true ∧ c.path = .ring p0 q i ∧ (s.slotCheck p0 q i w o true (fun w x => decide (1 ≤ ownLen x ∧ ownLen x ≤ w.slotSize)) = .pass r) ∧ s.cur.activation = none ∧ a.toNat + ownLen o.word ≤ 8388608 ∧ d.ok = true ∧ s.targetSlot (s.cur.primary.getD 0) = (u, b) ∧ imageHeaderOf ((s.stageChunk u b a.toNat ((List.range (ownLen o.word)).map (fun i => d.bytes.getD i 0)) true).slotBytes u b 0 4096) = h ∧ h.good = true ∧ s.rootSigner h.root = true ∧ h.length + 4096 ≤ imageSpace ∧ h.digest = bodyDigest ((s.stageChunk u b a.toNat ((List.range (ownLen o.word)).map (fun i => d.bytes.getD i 0)) true).slotBytes u b 4096 h.length) ∧ h.version.toNat < s.reg .curFwMin 0 0) ∧
    (∃ (p0 q i : Nat) (r : SlotRef) (c : Ctx) (w : Word) (o : SlotRead) (a : Word) (d : HostData) (u b : Nat) (s : State), s.accepts 0x48 c (fwStageParams w a 1) = true ∧ c.path = .ring p0 q i ∧ (s.slotCheck p0 q i w o true (fun w x => decide (1 ≤ ownLen x ∧ ownLen x ≤ w.slotSize)) = .pass r) ∧ s.cur.activation = none ∧ a.toNat + ownLen o.word ≤ 8388608 ∧ d.ok = true ∧ s.targetSlot (s.cur.primary.getD 0) = (u, b)) ∧
    (∃ (c : Ctx) (v f : Word) (p b : Nat) (s : State), s.accepts 0x49 c (fwActivateParams 0) = true ∧ s.cur.activation = none ∧ s.cur.staged.verified = some (v, f) ∧ s.cur.primary = some p ∧ p < 2 ∧ s.cur.standby = .synced ∧ s.targetSlot p = (1 - p, b) ∧ (s.image (1 - p) b).valid = true ∧ (s.image (1 - p) b).version = v) ∧
    (∃ (c : Ctx) (v f : Word) (p k b : Nat) (s : State), s.accepts 0x49 c (fwActivateParams 0) = true ∧ s.cur.activation = none ∧ s.cur.staged.verified = some (v, f) ∧ s.cur.primary = some p ∧ s.targetSlot p = (k, b) ∧ ((s.image k b).valid = false ∨ (s.image k b).version ≠ v)) ∧
    (∃ (c : Ctx) (s : State), s.accepts 0x49 c (fwActivateParams 0) = true ∧ s.cur.activation = none ∧ s.cur.staged.verified = none) ∧
    (∃ (u : Nat) (a : Activation) (s : State), u < 2 ∧ s.cur.activation = some a ∧ s.restarting a = some u ∧ a.since + 2000000000 ≤ s.now) ∧
    (∃ (u : Nat) (s : State), u < 2 ∧ s.cur.activation = none) ∧
    (∃ (c : Ctx) (w : Word) (o : SlotRead) (n : BitVec 256) (p : Nat) (s : State), s.accepts 0x4A c (attestParams w n) = true ∧ c.path = .sideband ∧ (slotRef w.toNat).present = false ∧ s.cur.report = none ∧ s.cur.primary = some p ∧ s.nextIndex p < s.reservedEnd p ∧ s.nextIndex p < (p + 1) * indexSpan) ∧
    (∃ (c : Ctx) (w : Word) (o : SlotRead) (n : BitVec 256) (p : Nat) (s : State), s.accepts 0x4A c (attestParams w n) = true ∧ c.path = .sideband ∧ (slotRef w.toNat).present = false ∧ s.cur.report = none ∧ s.cur.primary = some p ∧ s.reservedEnd p ≤ s.nextIndex p) :=
  ⟨⟨0, 0, 0, slotRef 0x80000000, ring, 0x80000000, ⟨true, 0x40001⟩, 0, ⟨true, []⟩, true, 0, 1, (man 0x48 (fwStageParams (0x80000000 : Word) (0 : Word) 0) up).setWin 0 0 { enable := true }, by decide +kernel⟩,
   ⟨0, 0, 0, slotRef 0x80000000, ring, 0x80000000, ⟨true, 0x10001⟩, 4096, ⟨true, [7]⟩, true, { good := true, version := 9, length := 1, root := 0, floor := 8, digest := bodyDigest [7] }, 0, 1, (man 0x48 (fwStageParams (0x80000000 : Word) (4096 : Word) 1) ({ up with cur := { up.cur with chunks := imageHead 9 8 } })).setWin 0 0 { enable := true }, by decide +kernel⟩,
   ⟨0, 0, 0, slotRef 0x80000000, ring, 0x80000000, ⟨true, 0x10001⟩, 4096, ⟨true, [7]⟩, true, { good := true, version := 9, length := 1, root := 0, floor := 8, digest := bodyDigest [7] }, 0, 1, (man 0x48 (fwStageParams (0x80000000 : Word) (4096 : Word) 1) ({ (up.putReg .curFwMin 0 0 10) with cur := { up.cur with chunks := imageHead 9 8 } })).setWin 0 0 { enable := true }, by decide +kernel⟩,
   ⟨0, 0, 0, slotRef 0x80000000, ring, 0x80000000, ⟨true, 0x40001⟩, 0, ⟨true, []⟩, 0, 1, (man 0x48 (fwStageParams (0x80000000 : Word) (0 : Word) 1) up).setWin 0 0 { enable := true }, by decide +kernel⟩,
   ⟨ring, 9, 8, 0, 1, (man 0x49 (fwActivateParams 0) { up with cur := { up.cur with standby := .synced, staged := { total := 1, ended := true, verified := some (9, 8) } } }).setImage 1 1 { version := 9, floor := 8, valid := true, digest := none }, by decide +kernel⟩,
   ⟨ring, 9, 8, 0, 1, 1, man 0x49 (fwActivateParams 0) { up with cur := { up.cur with standby := .synced, staged := { total := 1, ended := true, verified := some (9, 8) } } }, by decide +kernel⟩,
   ⟨ring, man 0x49 (fwActivateParams 0) up, by decide +kernel⟩,
   ⟨1, { ctx := side, version := 9, floor := 8, step := 1, since := 0 }, { { up with cur := { up.cur with standby := .syncing, activation := some { ctx := side, version := 9, floor := 8, step := 1, since := 0 } } } with now := 2000000000 }, by decide +kernel⟩,
   ⟨0, up, by decide +kernel⟩,
   ⟨side, 0, ⟨true, 0⟩, 0, 0, queued side 0x4A (attestParams (0 : Word) (0 : BitVec 256)) ({ up with cur := { up.cur with reserved := [(0, 1024)] } }), by decide +kernel⟩,
   ⟨side, 0, ⟨true, 0⟩, 0, 0, queued side 0x4A (attestParams (0 : Word) (0 : BitVec 256)) (up), by decide +kernel⟩⟩

theorem witness_lifecycle_keys_and_tamper :
    (∃ (p : Nat) (x : Token) (s : State), s.hasPort p = true ∧ s.mbRuns p 1 = true ∧ s.mbCheck 1 = none ∧ x.present = true ∧ s.mbHolds x = true ∧ s.tokenFails x 1 (x.bind.toNat % 256) (fun n => s.lifeSigner (boundByte x 0) n) = none ∧ s.cur.lifecycle = .blank ∧ boundByte x 0 = 1) ∧
    (∃ (p : Nat) (x : Token) (s : State), s.hasPort p = true ∧ s.mbRuns p 1 = true ∧ s.mbCheck 1 = none ∧ x.present = true ∧ s.mbHolds x = true ∧ s.tokenFails x 1 (x.bind.toNat % 256) (fun n => s.lifeSigner (boundByte x 0) n) = none ∧ s.cur.lifecycle = .opened ∧ boundByte x 0 = 2) ∧
    (∃ (p : Nat) (x : Token) (s : State), s.hasPort p = true ∧ s.mbRuns p 1 = true ∧ s.mbCheck 1 = none ∧ x.present = true ∧ s.mbHolds x = true ∧ s.tokenFails x 1 (x.bind.toNat % 256) (fun n => s.lifeSigner (boundByte x 0) n) = none ∧ s.cur.lifecycle = .sealed ∧ boundByte x 0 = 1 ∧ s.spaceBusy = false ∧ s.cur.returns < 31 ∧ s.cur.rootGen < 63) ∧
    (∃ (p : Nat) (x : Token) (s : State), s.hasPort p = true ∧ s.mbRuns p 1 = true ∧ s.mbCheck 1 = none ∧ x.present = true ∧ s.mbHolds x = true ∧ s.tokenFails x 1 (x.bind.toNat % 256) (fun n => s.lifeSigner (boundByte x 0) n) = none ∧ s.cur.lifecycle = .opened ∧ boundByte x 0 = 3) ∧
    (∃ (p : Nat) (x : Token) (s : State), s.hasPort p = true ∧ s.mbRuns p 1 = true ∧ s.mbCheck 1 = none ∧ x.present = true ∧ s.mbHolds x = true ∧ s.tokenFails x 1 (x.bind.toNat % 256) (fun n => s.lifeSigner (boundByte x 0) n) = none ∧ s.cur.lifecycle = .opened ∧ boundByte x 0 = 1) ∧
    (∃ (p : Nat) (k : BitVec 544) (s : State), s.hasPort p = true ∧ s.mbRuns p 4 = true ∧ s.mbCheck 4 = none ∧ k.toNat = s.mbValue 17 ∧ s.cur.lifecycle = .opened ∧ s.cur.mailbox.len = 68) ∧
    (∃ (p : Nat) (k : BitVec 544) (s : State), s.hasPort p = true ∧ s.mbRuns p 4 = true ∧ s.mbCheck 4 = none ∧ k.toNat = s.mbValue 17 ∧ s.cur.lifecycle = .sealed) ∧
    (∃ (p : Nat) (x : Token) (s : State), s.hasPort p = true ∧ s.mbRuns p 5 = true ∧ s.mbCheck 5 = none ∧ x.present = true ∧ s.mbHolds x = true ∧ s.tokenFails x 7 (x.bind.toNat % 256) (fun n => s.rootSigner n && n != boundByte x 0) = none ∧ s.lastRoot (boundByte x 0) = false ∧ boundByte x 0 < 4) ∧
    (∃ (p : Nat) (x : Token) (s : State), s.hasPort p = true ∧ s.mbRuns p 5 = true ∧ s.mbCheck 5 = none ∧ x.present = true ∧ s.mbHolds x = true ∧ s.lastRoot (boundByte x 0) = true) ∧
    (∃ (p : Nat) (x : Token) (s : State), s.hasPort p = true ∧ s.mbRuns p 2 = true ∧ s.mbCheck 2 = none ∧ x.present = true ∧ s.mbHolds x = true ∧ s.tokenFails x 6 (x.bind.toNat % 2 ^ 24) (fun n => s.commonSigner n) = none ∧ s.hasTile (boundByte x 0) = true ∧ boundByte x 1 < 8 ∧ boundByte x 2 = 0 ∧ s.otherWorking (boundByte x 0) (boundByte x 1) = true) ∧
    (∃ (p : Nat) (x : Token) (s : State), s.hasPort p = true ∧ s.mbRuns p 2 = true ∧ s.mbCheck 2 = none ∧ x.present = true ∧ s.mbHolds x = true ∧ s.tokenFails x 6 (x.bind.toNat % 2 ^ 24) (fun n => s.commonSigner n) = none ∧ s.hasTile (boundByte x 0) = true ∧ boundByte x 1 < 8 ∧ boundByte x 2 = 0 ∧ s.otherWorking (boundByte x 0) (boundByte x 1) = false) ∧
    (∃ (k i : Nat) (r : DWord) (s : State), s.hasTile k = true ∧ i < 5 ∧ s.pwr.vaonOk = true ∧ (i ≠ 4 ∨ s.cur.lifecycle = .sealed) ∧ s.tamperLevel i = 1 ∧ s.recentA1 (8 * k + i) < 7) ∧
    (∃ (k i : Nat) (r : DWord) (s : State), s.hasTile k = true ∧ i < 5 ∧ s.pwr.vaonOk = true ∧ (i ≠ 4 ∨ s.cur.lifecycle = .sealed) ∧ s.tamperLevel i = 2 ∧ s.cry.haltCause = 0) ∧
    (∃ (k i : Nat) (r : DWord) (s : State), s.hasTile k = true ∧ i < 5 ∧ s.pwr.vaonOk = true ∧ (i ≠ 4 ∨ s.cur.lifecycle = .sealed) ∧ s.tamperLevel i = 3) ∧
    (∃ (k : Nat) (r : DWord) (s : State), s.hasTile k = true ∧ s.cur.lifecycle ≠ .sealed) :=
  ⟨⟨0, { tok with present := true, magic := 0x4B545A56, format := 1, purpose := 1, number := 1, state := 0, bind := 1 }, posted 1 2948 (tokNum { tok with present := true, magic := 0x4B545A56, format := 1, purpose := 1, number := 1, state := 0, bind := 1 }) ({ up with cur := { up.cur with lifecycle := .blank } }), by decide +kernel⟩,
   ⟨0, { { tok with present := true, magic := 0x4B545A56, format := 1, purpose := 1, number := 1, state := 1, bind := 2 } with signer := 16 }, posted 1 2948 (tokNum { { tok with present := true, magic := 0x4B545A56, format := 1, purpose := 1, number := 1, state := 1, bind := 2 } with signer := 16 }) ({ up with cur := { up.cur with ownerKey := some 5 } }), by decide +kernel⟩,
   ⟨0, { { tok with present := true, magic := 0x4B545A56, format := 1, purpose := 1, number := 1, state := 2, bind := 1 } with signer := 16 }, posted 1 2948 (tokNum { { tok with present := true, magic := 0x4B545A56, format := 1, purpose := 1, number := 1, state := 2, bind := 1 } with signer := 16 }) ({ up with cur := { up.cur with ownerKey := some 5, lifecycle := .sealed } }), by decide +kernel⟩,
   ⟨0, { { tok with present := true, magic := 0x4B545A56, format := 1, purpose := 1, number := 1, state := 1, bind := 3 } with signer := 16 }, posted 1 2948 (tokNum { { tok with present := true, magic := 0x4B545A56, format := 1, purpose := 1, number := 1, state := 1, bind := 3 } with signer := 16 }) ({ up with cur := { up.cur with ownerKey := some 5 } }), by decide +kernel⟩,
   ⟨0, { { tok with present := true, magic := 0x4B545A56, format := 1, purpose := 1, number := 1, state := 1, bind := 1 } with signer := 16 }, posted 1 2948 (tokNum { { tok with present := true, magic := 0x4B545A56, format := 1, purpose := 1, number := 1, state := 1, bind := 1 } with signer := 16 }) ({ up with cur := { up.cur with ownerKey := some 5 } }), by decide +kernel⟩,
   ⟨0, 7, posted 4 68 (7) (up), by decide +kernel⟩,
   ⟨0, 7, posted 4 68 (7) ({ up with cur := { up.cur with lifecycle := .sealed } }), by decide +kernel⟩,
   ⟨0, { tok with present := true, magic := 0x4B545A56, format := 1, purpose := 7, number := 1, state := 1, bind := 1 }, posted 5 2948 (tokNum { tok with present := true, magic := 0x4B545A56, format := 1, purpose := 7, number := 1, state := 1, bind := 1 }) (up), by decide +kernel⟩,
   ⟨0, { tok with present := true, magic := 0x4B545A56, format := 1, purpose := 7, number := 1, state := 1, bind := 0 }, posted 5 2948 (tokNum { tok with present := true, magic := 0x4B545A56, format := 1, purpose := 7, number := 1, state := 1, bind := 0 }) ({ up with cur := { up.cur with revoked := 14 } }), by decide +kernel⟩,
   ⟨0, { tok with present := true, magic := 0x4B545A56, format := 1, purpose := 6, number := 1, state := 1, bind := 0 }, posted 2 2948 (tokNum { tok with present := true, magic := 0x4B545A56, format := 1, purpose := 6, number := 1, state := 1, bind := 0 }) (up), by decide +kernel⟩,
   ⟨0, { tok with present := true, magic := 0x4B545A56, format := 1, purpose := 6, number := 1, state := 1, bind := 0 }, { posted 2 2948 (tokNum { tok with present := true, magic := 0x4B545A56, format := 1, purpose := 6, number := 1, state := 1, bind := 0 }) (up) with thm := { up.thm with sensors := (List.range 8).map (fun i => (i, { enabled := false })) } }, by decide +kernel⟩,
   ⟨0, 0, 0, up.putReg .curTamperCfg 0 0 1, by decide +kernel⟩,
   ⟨0, 0, 0, up.putReg .curTamperCfg 0 0 2, by decide +kernel⟩,
   ⟨0, 0, 0, up.putReg .curTamperCfg 0 0 3, by decide +kernel⟩,
   ⟨0, 0, up, by decide +kernel⟩⟩

theorem witness_media_management :
    (∃ (p0 q i : Nat) (c : Ctx) (k : Byte) (w : Word) (o : SlotRead) (s : State), s.accepts 0x58 c (spareStatusParams k w) = true ∧ c.path = .ring p0 q i ∧ (slotRef w.toNat).present = false ∧ s.hasTile k.toNat = true ∧ k.toNat ≠ 255) ∧
    (∃ (p0 q i : Nat) (c : Ctx) (w : Word) (o : SlotRead) (s : State), s.accepts 0x58 c (spareStatusParams 255 w) = true ∧ c.path = .ring p0 q i ∧ (slotRef w.toNat).present = false) ∧
    (∃ (p0 q i : Nat) (r : SlotRef) (c : Ctx) (a : Byte) (w : Word) (x : Token) (s : State), s.spaceBusy = false ∧ s.accepts 0x59 c (formatParams a w) = true ∧ c.path = .ring p0 q i ∧ (s.slotCheck p0 q i w x.own false (fun w x => decide (1 ≤ ownLen x ∧ ownLen x ≤ w.slotSize)) = .pass r) ∧ x.present = true ∧ 2948 ≤ ownLen x.own.word ∧ s.tokenFails x 5 a.toNat (fun n => s.commonSigner n) = none ∧ a.toNat < 4 ∧ (s.withSetting (s.formatSetting a.toNat)).settingFits = true) ∧
    (∃ (p0 q i : Nat) (r : SlotRef) (c : Ctx) (a : Byte) (w : Word) (x : Token) (s : State), s.spaceBusy = false ∧ s.accepts 0x59 c (formatParams a w) = true ∧ c.path = .ring p0 q i ∧ (s.slotCheck p0 q i w x.own false (fun w x => decide (1 ≤ ownLen x ∧ ownLen x ≤ w.slotSize)) = .pass r) ∧ x.present = true ∧ 2948 ≤ ownLen x.own.word ∧ s.tokenFails x 5 a.toNat (fun n => s.commonSigner n) = none ∧ a.toNat < 4 ∧ (s.withSetting (s.formatSetting a.toNat)).settingFits = false) ∧
    (∃ (c : Ctx) (a : Byte) (w : Word) (x : Token) (s : State), s.spaceBusy = true) ∧
    (∃ (p0 q i : Nat) (r : SlotRef) (c : Ctx) (k : Byte) (w : Word) (o : SlotRead) (d : HostData) (s : State), s.accepts 0x5A c (mediaProfileParams 0 k 0 0 w) = true ∧ c.path = .ring p0 q i ∧ s.slotCheck p0 q i w o true (fun _ _ => true) = .pass r ∧ s.hasTile k.toNat = true ∧ ((s.driftTable k.toNat).take (s.win p0 r.window).slotSize).isEmpty = false) ∧
    (∃ (p q i : Nat) (c : Ctx) (k : Byte) (w : Word) (o : SlotRead) (d : HostData) (r : SlotRef) (s : State), s.accepts 0x5A c (mediaProfileParams 1 k 0 0 w) = true ∧ c.path = .ring p q i ∧ s.slotCheck p q i w o true (fun _ v => ownLen v == driftBytes) = .pass r ∧ s.hasTile k.toNat = true ∧ d.ok = true ∧ (s.spare k.toNat).accepts d.bytes = true) ∧
    (∃ (p q i : Nat) (c : Ctx) (k : Byte) (w : Word) (o : SlotRead) (d : HostData) (r : SlotRef) (s : State), s.accepts 0x5A c (mediaProfileParams 1 k 0 0 w) = true ∧ c.path = .ring p q i ∧ s.slotCheck p q i w o true (fun _ v => ownLen v == driftBytes) = .pass r ∧ s.hasTile k.toNat = true ∧ d.ok = true ∧ (s.spare k.toNat).accepts d.bytes = false) :=
  ⟨⟨0, 0, 0, ring, 0, 0, ⟨true, 0⟩, man 0x58 (spareStatusParams (0 : Byte) (0 : Word)) up, by decide +kernel⟩,
   ⟨0, 0, 0, ring, 0, ⟨true, 0⟩, man 0x58 (spareStatusParams 255 (0 : Word)) up, by decide +kernel⟩,
   ⟨0, 0, 0, slotRef 0x80000000, ring, 1, 0x80000000, { { tok with present := true, magic := 0x4B545A56, format := 1, purpose := 5, number := 1, state := 1, bind := 1 } with own := ⟨true, 0xB840001⟩ }, (man 0x59 (formatParams (1 : Byte) (0x80000000 : Word)) ({ up with member := .vzm2020, pwr := { up.pwr with mediaPages := [] }, med := { up.med with readOnly := true, chans := (List.range 32).map (fun i => (i, { rate := 1 })), targets := (List.range 128).map (fun i => (i, { mapped := true, page := List.replicate 4096 1 })) } })).setWin 0 0 { enable := true }, by decide +kernel⟩,
   ⟨0, 0, 0, slotRef 0x80000000, ring, 1, 0x80000000, { { tok with present := true, magic := 0x4B545A56, format := 1, purpose := 5, number := 1, state := 1, bind := 1 } with own := ⟨true, 0xB840001⟩ }, (man 0x59 (formatParams (1 : Byte) (0x80000000 : Word)) up).setWin 0 0 { enable := true }, by decide +kernel⟩,
   ⟨side, 0, 0, tok, { up with epo := { up.epo with rollback := true } }, by decide +kernel⟩,
   ⟨0, 0, 0, slotRef 0x80000000, ring, 0, 0x80000000, ⟨true, 0x40001⟩, ⟨true, []⟩, (man 0x5A (mediaProfileParams 0 (0 : Byte) 0 0 (0x80000000 : Word)) ({ up with med := { up.med with spares := [(0, { dflt := [1, 2] })] } })).setWin 0 0 { enable := true }, by decide +kernel⟩,
   ⟨0, 0, 0, ring, 0, 0x80000000, ⟨true, 0x24400001⟩, ⟨true, []⟩, slotRef 0x80000000, (man 0x5A (mediaProfileParams 1 (0 : Byte) 0 0 (0x80000000 : Word)) up).setWin 0 0 { enable := true, shift := 14 }, by decide +kernel⟩,
   ⟨0, 0, 0, ring, 0, 0x80000000, ⟨true, 0x24400001⟩, ⟨true, [0, 0, 1]⟩, slotRef 0x80000000, (man 0x5A (mediaProfileParams 1 (0 : Byte) 0 0 (0x80000000 : Word)) up).setWin 0 0 { enable := true, shift := 14 }, by decide +kernel⟩⟩

theorem witness_sequencer_steps :
    (∃ (w : DWord) (s : State), s.seqStep = some w ∧ stepOp w = 1) ∧
    (∃ (w : DWord) (s : State), s.seqStep = some w ∧ stepOp w = 2) ∧
    (∃ (w : DWord) (s : State), s.seqStep = some w ∧ stepOp w = 3 ∧ s.pwr.stepAt + bits w.toNat 31 0 * 1000 ≤ s.now) ∧
    (∃ (w : DWord) (s : State), s.seqStep = some w ∧ stepOp w = 3 ∧ s.now < s.pwr.stepAt + bits w.toNat 31 0 * 1000) ∧
    (∃ (w : DWord) (s : State), s.seqStep = some w ∧ stepOp w = 4 ∧ s.pwr.fresh.getLsbD (stepMon w) = true ∧ (s.pwr.st = .falling ∨ s.pwr.offLatched = false) ∧ stepLo w ≤ s.field .seqMon 0 (stepMon w) 11 0 ∧ s.field .seqMon 0 (stepMon w) 11 0 ≤ stepHi w) ∧
    (∃ (w : DWord) (s : State), s.seqStep = some w ∧ stepOp w = 4 ∧ s.pwr.fresh.getLsbD (stepMon w) = true ∧ s.pwr.st = .rising ∧ s.pwr.offLatched = true) ∧
    (∃ (w : DWord) (s : State), s.seqStep = some w ∧ stepOp w = 4 ∧ s.pwr.fresh.getLsbD (stepMon w) = true ∧ s.pwr.st = .rising ∧ s.pwr.offLatched = false ∧ stepHi w < s.field .seqMon 0 (stepMon w) 11 0 ∧ s.pwr.stepAt + stepTimeout w * 1000000 ≤ s.now ∧ s.pwr.prog.sdEntry ≤ stepElse w) ∧
    (∃ (w : DWord) (s : State), s.seqStep = some w ∧ stepOp w = 4 ∧ s.pwr.fresh.getLsbD (stepMon w) = true ∧ s.pwr.offLatched = false ∧ stepHi w < s.field .seqMon 0 (stepMon w) 11 0 ∧ stepTimeout w ≠ 0 ∧ s.now < s.pwr.stepAt + stepTimeout w * 1000000) ∧
    (∃ (w : DWord) (s : State), s.seqStep = some w ∧ stepOp w = 4 ∧ s.pwr.fresh.getLsbD (stepMon w) = false) ∧
    (∃ (w : DWord) (s : State), s.seqStep = some w ∧ stepOp w = 5) ∧
    (∃ (w : DWord) (s : State), s.seqStep = some w ∧ stepOp w = 6 ∧ s.pwr.st = .rising ∧ s.pwr.offLatched = false) ∧
    (∃ (w : DWord) (s : State), s.seqStep = some w ∧ stepOp w = 6 ∧ s.pwr.st = .falling) ∧
    (∃ (s : State), s.seqStep = none) :=
  ⟨⟨0x1000000000000003, { up with pwr := { up.pwr with st := .rising, prog := { steps := [0x1000000000000003], sdEntry := 1, autoOn := true, restart := false, minOff := 100 } } }, by decide +kernel⟩,
   ⟨0x2000000000000003, { up with pwr := { up.pwr with st := .rising, prog := { steps := [0x2000000000000003], sdEntry := 1, autoOn := true, restart := false, minOff := 100 } } }, by decide +kernel⟩,
   ⟨0x3000000000000001, { up with pwr := { up.pwr with st := .rising, prog := { steps := [0x3000000000000001], sdEntry := 1, autoOn := true, restart := false, minOff := 100 } }, now := 1000 }, by decide +kernel⟩,
   ⟨0x3000000000000001, { up with pwr := { up.pwr with st := .rising, prog := { steps := [0x3000000000000001], sdEntry := 1, autoOn := true, restart := false, minOff := 100 } } }, by decide +kernel⟩,
   ⟨0x4040000010010000, { up with pwr := { up.pwr with st := .rising, prog := { steps := [0x4040000010010000], sdEntry := 1, autoOn := true, restart := false, minOff := 100 }, fresh := 0xFFFFFFFF } }, by decide +kernel⟩,
   ⟨0x4040000010010002, { up with pwr := { up.pwr with st := .rising, prog := { steps := [0x4040000010010002], sdEntry := 1, autoOn := true, restart := false, minOff := 100 }, offLatched := true, fresh := 0xFFFFFFFF } }, by decide +kernel⟩,
   ⟨0x4040000010010200, { up with pwr := { up.pwr with st := .rising, prog := { steps := [0x4040000010010200], sdEntry := 1, autoOn := true, restart := false, minOff := 100 }, fresh := 0xFFFFFFFF }, now := 1000000 } |>.putReg .seqMon 0 0 200, by decide +kernel⟩,
   ⟨0x4040000010010200, { up with pwr := { up.pwr with st := .rising, prog := { steps := [0x4040000010010200], sdEntry := 1, autoOn := true, restart := false, minOff := 100 }, fresh := 0xFFFFFFFF } } |>.putReg .seqMon 0 0 200, by decide +kernel⟩,
   ⟨0x4040000010010000, { up with pwr := { up.pwr with st := .rising, prog := { steps := [0x4040000010010000], sdEntry := 1, autoOn := true, restart := false, minOff := 100 } } }, by decide +kernel⟩,
   ⟨0x5000000000000003, { up with pwr := { up.pwr with st := .rising, prog := { steps := [0x5000000000000003], sdEntry := 1, autoOn := true, restart := false, minOff := 100 } } }, by decide +kernel⟩,
   ⟨0x6000000000000000, { up with pwr := { up.pwr with st := .rising, prog := { steps := [0x6000000000000000], sdEntry := 1, autoOn := true, restart := false, minOff := 100 }, islands := false, pwr := .p3 } }, by decide +kernel⟩,
   ⟨0x6000000000000000, { up with pwr := { up.pwr with st := .falling, prog := { steps := [0x6000000000000000], sdEntry := 1, autoOn := true, restart := false, minOff := 100 } } }, by decide +kernel⟩,
   ⟨up, by decide +kernel⟩⟩

theorem witness_sequencer_requests :
    (∃ (m v : Nat) (s : State), m < 32 ∧ s.scans m = true ∧ tget (fun _ => (none : Option Armed)) s.pwr.armed m = none) ∧
    (∃ (m v : Nat) (a : Armed) (s : State), m < 32 ∧ s.scans m = true ∧ tget (fun _ => (none : Option Armed)) s.pwr.armed m = some a ∧ a.shutDown = true ∧ a.hi < min v monitorTop ∧ s.pwr.st = .up) ∧
    (∃ (s : State), s.pwr.st = .holdOff ∧ s.pwr.offAt + max 100 s.pwr.prog.minOff * 1000000 ≤ s.now) ∧
    (∃ (s : State), s.pwr.st = .holdOff ∧ s.now < s.pwr.offAt + max 100 s.pwr.prog.minOff * 1000000) ∧
    (∃ (s : State), s.pwr.vaonOk = true ∧ s.pwr.st = .rising) ∧
    (∃ (s : State), s.pwr.vaonOk = true ∧ s.pwr.st = .up ∧ s.cur.primary = none) ∧
    (∃ (s : State), s.pwr.vaonOk = true ∧ s.pwr.st = .up ∧ s.cur.primary.isSome = true ∧ s.cry.haltCause = 0 ∧ s.pwr.down = none ∧ s.pwr.trans.any (fun x => x.target == .p3) = false) ∧
    (∃ (s : State), s.pwr.vaonOk = true ∧ s.pwr.st = .down) ∧
    (∃ (s : State), s.pwr.vaonOk = true ∧ s.pwr.st = .up ∧ s.pwr.pwr = .p1 ∧ s.pwr.trans = none) ∧
    (∃ (s : State), s.pwr.vaonOk = true ∧ s.pwr.st = .up) ∧
    (∃ (s : State), s.pwr.vaonOk = true ∧ s.pwr.prog.restart = true ∧ s.pwr.st = .down) ∧
    (∃ (s : State), s.pwr.prog.restart = false) ∧
    (∃ (s : State), s.pwr.st = .up ∧ s.pwr.islands = false) ∧
    (∃ (p : Nat) (s : State), s.takesWrite p = true ∧ s.cur.lifecycle = .opened ∧ s.pwr.commitBusy = false) ∧
    (∃ (p : Nat) (s : State), s.takesWrite p = true ∧ s.cur.lifecycle = .sealed) ∧
    (∃ (s : State), s.pwr.commitBusy = true) ∧
    (∃ (s : State), s.pwr.vaonOk = true) ∧
    (∃ (s : State), s.pwr.vaonOk = false) ∧
    (∃ (s : State), s.pwr.vaonOk = true) :=
  ⟨⟨0, 77, up, by decide +kernel⟩,
   ⟨0, 77, { lo := 0, hi := 5, shutDown := true }, { up with pwr := { up.pwr with armed := [(0, some { lo := 0, hi := 5, shutDown := true })] } }, by decide +kernel⟩,
   ⟨{ up with pwr := { up.pwr with st := .holdOff, prog := { steps := [0], sdEntry := 1, autoOn := true, restart := false, minOff := 100 } }, now := 100000000 }, by decide +kernel⟩,
   ⟨{ up with pwr := { up.pwr with st := .holdOff, prog := { steps := [0], sdEntry := 1, autoOn := true, restart := false, minOff := 100 } } }, by decide +kernel⟩,
   ⟨{ up with pwr := { up.pwr with st := .rising } }, by decide +kernel⟩,
   ⟨{ up with cur := { up.cur with primary := none } }, by decide +kernel⟩,
   ⟨up, by decide +kernel⟩,
   ⟨{ up with pwr := { up.pwr with st := .down } }, by decide +kernel⟩,
   ⟨{ up with pwr := { up.pwr with pwr := .p1 } }, by decide +kernel⟩,
   ⟨up, by decide +kernel⟩,
   ⟨{ up with pwr := { up.pwr with st := .down, prog := { steps := [0], sdEntry := 1, autoOn := true, restart := true, minOff := 100 } } }, by decide +kernel⟩,
   ⟨{ up with pwr := { up.pwr with st := .down, prog := { steps := [0], sdEntry := 1, autoOn := true, restart := false, minOff := 100 } } }, by decide +kernel⟩,
   ⟨{ up with pwr := { up.pwr with islands := false } }, by decide +kernel⟩,
   ⟨0, up, by decide +kernel⟩,
   ⟨0, { up with cur := { up.cur with lifecycle := .sealed } }, by decide +kernel⟩,
   ⟨{ up with pwr := { up.pwr with commitBusy := true } }, by decide +kernel⟩,
   ⟨up, by decide +kernel⟩,
   ⟨{ up with pwr := { up.pwr with vaonOk := false } }, by decide +kernel⟩,
   ⟨up, by decide +kernel⟩⟩

theorem witness_resets_and_links :
    (∃ (s : State), s.pwr.vaonOk = true ∧ s.pwr.st = .up) ∧
    (∃ (s : State), s.pwr.vaonOk = false) ∧
    (∃ (p : Nat) (w : Word) (s : State), s.takesWrite p = true ∧ bits w.toNat 31 16 = 0x5741 ∧ bits w.toNat 0 0 = 1 ∧ s.pwr.st = .up ∧ s.pwr.islands = true ∧ s.pwr.ready = true) ∧
    (∃ (p : Nat) (w : Word) (s : State), s.takesWrite p = true ∧ bits w.toNat 31 16 ≠ 0x5741) ∧
    (∃ (p : Nat) (w : Word) (s : State), s.takesWrite p = true ∧ bits w.toNat 31 16 = 0x5741 ∧ bits w.toNat 0 0 = 1 ∧ s.pwr.st = .up ∧ s.pwr.islands = true ∧ s.pwr.ready = false ∧ s.pwr.lastReset = 1) ∧
    (∃ (k : Nat) (s : State), s.hasTile k = true ∧ s.canReset k = true) ∧
    (∃ (k : Nat) (s : State), s.hasTile k = true ∧ s.canReset k = false) ∧
    (∃ (p : Nat) (s : State), s.hasPort p = true ∧ s.hostUp p = true) ∧
    (∃ (p : Nat) (s : State), s.hasPort p = true) ∧
    (∃ (p : Nat) (s : State), s.hasPort p = true ∧ (s.port p).perstLow = false ∧ s.pwr.st = .up ∧ s.pwr.islands = true ∧ s.dual = true ∧ (s.port (1 - p)).perstLow = false) ∧
    (∃ (p : Nat) (s : State), s.hasPort p = true ∧ (s.port p).perstLow = false ∧ s.pwr.st = .up ∧ s.pwr.islands = true ∧ s.dual = false) ∧
    (∃ (p : Nat) (s : State), s.hasPort p = true ∧ (s.port p).linkUp = true) ∧
    (∃ (p : Nat) (s : State), s.hasPort p = true ∧ (s.port p).linkUp = false) ∧
    (∃ (p : Nat) (a b : Byte) (m f : Bool) (s : State), s.hasPort p = true ∧ s.canTrain p = true) ∧
    (∃ (p : Nat) (a b : Byte) (m f : Bool) (s : State), s.hasPort p = true ∧ s.canTrain p = false) :=
  ⟨⟨up, by decide +kernel⟩,
   ⟨{ up with pwr := { up.pwr with vaonOk := false } }, by decide +kernel⟩,
   ⟨0, 0x57410001, up, by decide +kernel⟩,
   ⟨0, 1, up, by decide +kernel⟩,
   ⟨0, 0x57410001, { up with pwr := { up.pwr with ready := false, lastReset := 1 } }, by decide +kernel⟩,
   ⟨1, up, by decide +kernel⟩,
   ⟨0, up, by decide +kernel⟩,
   ⟨0, run 1 [] up, by decide +kernel⟩,
   ⟨0, up, by decide +kernel⟩,
   ⟨0, { up with pwr := { up.pwr with straps := { up.pwr.straps with hostmode := false } } }, by decide +kernel⟩,
   ⟨0, { up with pwr := { up.pwr with straps := { up.pwr.straps with hostmode := true } } }, by decide +kernel⟩,
   ⟨0, up.setPort 0 { up.port 0 with linkUp := true }, by decide +kernel⟩,
   ⟨0, up.setPort 0 { up.port 0 with linkUp := false }, by decide +kernel⟩,
   ⟨0, 5, 16, true, true, up, by decide +kernel⟩,
   ⟨0, 0, 0, true, true, { up with pwr := { up.pwr with islands := false } }, by decide +kernel⟩⟩

theorem witness_power_states_and_boot :
    (∃ (c : Ctx) (n : Byte) (s : State), s.accepts 0x44 c (powerStateParams n) = true ∧ 4 ≤ n.toNat) ∧
    (∃ (c : Ctx) (n : Byte) (s : State), s.accepts 0x44 c (powerStateParams n) = true ∧ n.toNat < 4 ∧ s.isState n.toNat = true) ∧
    (∃ (c : Ctx) (s : State), s.accepts 0x44 c (powerStateParams 1) = true ∧ s.isState 1 = false ∧ s.powerRefused 1 = false) ∧
    (∃ (c : Ctx) (s : State), s.accepts 0x44 c (powerStateParams 1) = true ∧ s.isState 1 = false ∧ s.powerRefused 1 = true) ∧
    (∃ (x : Transition) (s : State), s.pwr.st = .up ∧ s.pwr.trans = some x ∧ x.target = .p1 ∧ (x.ctx = none ∨ s.cur.primary.isSome = true) ∧ s.flt.resetting = [] ∧ s.agentsQuiet = true) ∧
    (∃ (x : Transition) (s : State), s.pwr.st = .up ∧ s.pwr.trans = some x ∧ x.target = .p0 ∧ (x.ctx = none ∨ s.cur.primary.isSome = true) ∧ s.flt.resetting = []) ∧
    (∃ (x : Transition) (s : State), s.pwr.trans = some x ∧ x.target = .p3 ∧ s.epo.durable < x.sealAt) ∧
    (∃ (x : Transition) (s : State), s.pwr.st = .up ∧ s.pwr.trans = some x ∧ s.durTimeout x = true) ∧
    (∃ (s : State), s.pwr.trans = none) ∧
    (∃ (s : State), s.pwr.st = .up ∧ s.pwr.pwr = .p1) ∧
    (∃ (s : State), s.pwr.pwr ≠ .p1) ∧
    (∃ (b : BootEnv) (s : State), s.pwr.st = .up ∧ s.pwr.islands = true ∧ s.pwr.pwr = .p0 ∧ s.pwr.ready = false ∧ s.pwr.strapBad = false ∧ s.scansDone = true) ∧
    (∃ (b : BootEnv) (s : State), s.pwr.ready = true) :=
  ⟨⟨side, 4, queued side 0x44 (powerStateParams (4 : Byte)) (up), by decide +kernel⟩,
   ⟨side, 0, queued side 0x44 (powerStateParams (0 : Byte)) (up), by decide +kernel⟩,
   ⟨side, queued side 0x44 (powerStateParams 1) (up), by decide +kernel⟩,
   ⟨side, queued side 0x44 (powerStateParams 1) ({ up with pwr := { up.pwr with ready := false } }), by decide +kernel⟩,
   ⟨{ target := .p1, ctx := some side, sealAt := 0, began := 0, replied := false }, { up with pwr := { up.pwr with trans := some { target := .p1, ctx := some side, sealAt := 0, began := 0, replied := false } } }, by decide +kernel⟩,
   ⟨{ target := .p0, ctx := none, sealAt := 0, began := 0, replied := true }, { up with pwr := { up.pwr with pwr := .p2, trans := some { target := .p0, ctx := none, sealAt := 0, began := 0, replied := true } } }, by decide +kernel⟩,
   ⟨{ target := .p3, ctx := none, sealAt := 3, began := 0, replied := true }, { up with pwr := { up.pwr with trans := some { target := .p3, ctx := none, sealAt := 3, began := 0, replied := true } } }, by decide +kernel⟩,
   ⟨{ target := .p3, ctx := some side, sealAt := 0, began := 0, replied := false }, { up with pwr := { up.pwr with trans := some { target := .p3, ctx := some side, sealAt := 0, began := 0, replied := false } }, now := 1099511627776 }, by decide +kernel⟩,
   ⟨up, by decide +kernel⟩,
   ⟨{ up with pwr := { up.pwr with pwr := .p1 } }, by decide +kernel⟩,
   ⟨up, by decide +kernel⟩,
   ⟨{ targets := [], ddr := [], rates := [], bad := [] }, { up with pwr := { up.pwr with ready := false, warmBoot := true } }, by decide +kernel⟩,
   ⟨{ targets := [], ddr := [], rates := [], bad := [] }, up, by decide +kernel⟩⟩

theorem witness_sensors_and_refresh :
    (∃ (k i : Nat) (r : Int) (s : State), s.hasTile k = true ∧ i < 8 ∧ s.pwr.vaonOk = true ∧ (s.sensor k i).enabled = true ∧ (s.sensor k i).broken = false ∧ (s.sensor k i).same < 4095 ∧ -320 ≤ r ∧ r < 920 ∧ (List.range 8).all (fun j => decide ((s.sensor k j).reading < 920)) = true) ∧
    (∃ (k i : Nat) (r : Int) (s : State), s.hasTile k = true ∧ i < 8 ∧ s.pwr.vaonOk = true ∧ (s.sensor k i).enabled = false) ∧
    (∃ (k i : Nat) (r : Int) (s : State), s.hasTile k = true ∧ i < 8 ∧ s.pwr.vaonOk = true ∧ (s.sensor k i).enabled = true ∧ (s.sensor k i).broken = false ∧ 1200 < r ∧ (List.range 8).all (fun j => decide ((s.sensor k j).reading < 920)) = true) ∧
    (∃ (k i : Nat) (s : State), s.hasTile k = true ∧ i < 8 ∧ s.pwr.vaonOk = true ∧ (s.sensor k i).enabled = true ∧ (s.sensor k i).broken = false ∧ (s.sensor k i).convAt + 3000000 ≤ s.now ∧ (List.range 8).all (fun j => decide ((s.sensor k j).reading < 920)) = true) ∧
    (∃ (k i : Nat) (s : State), s.hasTile k = true ∧ i < 8 ∧ s.now < (s.sensor k i).convAt + 3000000) ∧
    (∃ (k i : Nat) (c : Int) (a : Bool) (s : State), s.hasTile k = true ∧ i < 2 ∧ s.coreUp = true ∧ s.ungated k = true ∧ (List.range 8).all (fun j => decide ((s.sensor k j).reading < 920)) = true) ∧
    (∃ (k i : Nat) (c : Int) (a : Bool) (s : State), s.hasTile k = true ∧ i < 2 ∧ (s.coreUp = false ∨ s.ungated k = false)) ∧
    (∃ (n x : Nat) (s : State), s.pwr.down = some (n, x) ∧ n ≠ 0 ∧ n ≤ s.epo.durable) ∧
    (∃ (n x : Nat) (s : State), s.pwr.down = some (n, x) ∧ s.epo.durable < n ∧ s.now < x + 1000000000) :=
  ⟨⟨0, 0, 850, up, by decide +kernel⟩,
   ⟨0, 0, 850, up.setSensor 0 0 { enabled := false }, by decide +kernel⟩,
   ⟨0, 0, 1300, up, by decide +kernel⟩,
   ⟨0, 0, { up with now := 3000000 }, by decide +kernel⟩,
   ⟨0, 0, up, by decide +kernel⟩,
   ⟨0, 0, 96, true, up, by decide +kernel⟩,
   ⟨0, 0, 0, true, { up with pwr := { up.pwr with st := .down } }, by decide +kernel⟩,
   ⟨1, 0, { { up with pwr := { up.pwr with down := some (1, 0) } } with epo := { up.epo with durable := 1 } }, by decide +kernel⟩,
   ⟨9, 0, { up with pwr := { up.pwr with down := some (9, 0) } }, by decide +kernel⟩⟩

theorem witness_counters_are_programmed_and_frozen :
    (∃ (p k i : Nat) (w : Word) (s : State), s.takesWrite p = true ∧ s.hasTile k = true ∧ i < 64 ∧ s.cfgAllowed k i w.toNat = true) ∧
    (∃ (p k i : Nat) (w : Word) (s : State), s.takesWrite p = true ∧ s.hasTile k = true ∧ i < 64 ∧ s.cfgAllowed k i w.toNat = false) ∧
    (∃ (p k i : Nat) (w : Word) (s : State), s.takesWrite p = true ∧ s.hasTile k = true ∧ i < 64) ∧
    (∃ (p k i : Nat) (w : Word) (s : State), s.takesWrite p = true ∧ s.hasTile k = true ∧ i < 64) ∧
    (∃ (p k : Nat) (s : State), s.takesWrite p = true ∧ s.hasTile k = true) ∧
    (∃ (p k : Nat) (s : State), s.takesWrite p = true ∧ s.hasTile k = true) ∧
    (∃ (p : Nat) (s : State), s.takesWrite p = true ∧ s.pmc.busy = false ∧ s.pmc.frozen = false) ∧
    (∃ (p : Nat) (s : State), s.takesWrite p = true ∧ s.pmc.busy = false ∧ s.pmc.frozen = true) ∧
    (∃ (p : Nat) (s : State), s.takesWrite p = true ∧ s.pmc.busy = false) ∧
    (∃ (p : Nat) (s : State), s.takesWrite p = true ∧ s.pmc.busy = true) ∧
    (∃ (k : Nat) (a : PmcAction) (s : State), s.hasTile k = true ∧ k < 8 ∧ s.tileRuns k = true ∧ s.pmc.action = some a ∧ a.t ≤ s.now ∧ s.now ≤ a.t + 4000 ∧ a.acted.contains k = false) ∧
    (∃ (k : Nat) (a : PmcAction) (s : State), s.hasTile k = true ∧ s.pmc.action = some a ∧ s.now < a.t) :=
  ⟨⟨0, 0, 0, 0x80100000, up, by decide +kernel⟩,
   ⟨0, 0, 0, 0x80FF0000, up, by decide +kernel⟩,
   ⟨0, 0, 0, 77, { up with pmc := { up.pmc with cnt := [(0, 2 ^ 33 + 5)] } }, by decide +kernel⟩,
   ⟨0, 0, 0, 77, { up with pmc := { up.pmc with cnt := [(0, 2 ^ 33 + 5)] } }, by decide +kernel⟩,
   ⟨0, 0, { up with pmc := { up.pmc with td := [(3, 7)] } }, by decide +kernel⟩,
   ⟨0, 0, { up with pmc := { up.pmc with cnt := [(3, 7)] } }, by decide +kernel⟩,
   ⟨0, up, by decide +kernel⟩,
   ⟨0, { up with pmc := { up.pmc with frozen := true } }, by decide +kernel⟩,
   ⟨0, up, by decide +kernel⟩,
   ⟨0, { up with pmc := { up.pmc with busy := true } }, by decide +kernel⟩,
   ⟨0, { freeze := true, thaw := false, snap := true, t := 0, acted := [] }, { up with pmc := { up.pmc with busy := true, cnt := [(3, 7)], action := some { freeze := true, thaw := false, snap := true, t := 0, acted := [] } } }, by decide +kernel⟩,
   ⟨0, { freeze := true, thaw := false, snap := true, t := 9, acted := [] }, { up with pmc := { up.pmc with busy := true, action := some { freeze := true, thaw := false, snap := true, t := 9, acted := [] } } }, by decide +kernel⟩⟩

theorem witness_an_empty_queue_idles :
    (∃ (s : State), s.pending = []) :=
  ⟨up, by decide +kernel⟩

theorem witness_fuses_stay_in_order :
    (∃ (s t : State), s.fusesOk = true ∧ step s = .next t) :=
  ⟨up, _, by decide +kernel, rfl⟩

theorem witness_lifecycle_and_straps_move_only_by_their_own :
    (∃ (c : Instr) (s t : State), exec c s = .next t ∧ t.cur.lifecycle ≠ s.cur.lifecycle) ∧
    (∃ (p : Nat) (x : Token) (s t : State), exec (.lifecycle p x) s = .next t) ∧
    (∃ (k i : Nat) (r : DWord) (s t : State), exec (.tamperTrip k i r) s = .next t) ∧
    (∃ (c : Instr) (s t : State), exec c s = .next t) ∧
    (∃ (c : Instr) (s t : State), exec c s = .next t ∧ s.fusesOk = true ∧ s.cur.lifecycle ≠ .blank) ∧
    (∃ (c : Instr) (s t : State), c ≠ .por ∧ exec c s = .next t) :=
  ⟨⟨.tamperTrip 0 0 0, up.putReg .curTamperCfg 0 0 3, _, rfl, by decide +kernel⟩,
   ⟨0, tok, up, _, rfl⟩,
   ⟨0, 0, 0, up, _, rfl⟩,
   ⟨.tileReady 0, up, _, rfl⟩,
   ⟨.tileReady 0, up, _, rfl, by decide +kernel, by decide +kernel⟩,
   ⟨.tileReady 0, up, _, by decide +kernel, rfl⟩⟩

theorem witness_commands_leave_the_queue_and_member :
    (∃ (c : Instr) (s t : State), exec c s = .next t) ∧
    (∃ (c : Instr) (s t : State), c ≠ .por ∧ exec c s = .next t) ∧
    (∃ (c : Instr) (s t : State), s.cat.stuck = false ∧ s.cat.forged = none ∧ exec c s = .next t) ∧
    (∃ (c : Instr) (rest : List Instr) (s t : State), s.pending = c :: rest ∧ step s = .next t) :=
  ⟨⟨.tileReady 0, up, _, rfl⟩,
   ⟨.tileReady 0, up, _, by decide +kernel, rfl⟩,
   ⟨.tileReady 0, up, _, by decide +kernel, by decide +kernel, rfl⟩,
   ⟨.tileReady 0, [], { up with pending := [.tileReady 0] }, _, rfl, rfl⟩⟩

theorem witness_part_reset_takes_its_key :
    (∃ (p : Nat) (w : Word) (s : State), s.takesWrite p = true ∧ s.pwr.st = .up ∧ s.pwr.islands = true ∧ s.pwr.ready = true ∧ (bits w.toNat 31 16 = 0x5741 ∧ bits w.toNat 0 0 = 1)) ∧
    (∃ (p : Nat) (w : Word) (s : State), s.takesWrite p = true ∧ (¬(bits w.toNat 31 16 = 0x5741 ∧ bits w.toNat 0 0 = 1))) :=
  ⟨⟨0, 0x57410001, up, by decide +kernel⟩,
   ⟨0, 0x57410000, up, by decide +kernel⟩⟩

theorem witness_commands_name_bonded_ports :
    (∃ (c : Ctx) (k : Byte) (r : BitVec 16) (w n : Word) (l : BitVec 16) (p : Byte) (o : SlotRead) (h : HostData) (s : State), s.accepts 0x20 c (routeDefineParams k r w n l p) = true ∧ s.hasSport k.toNat p.toNat = false) ∧
    (∃ (c : Ctx) (k p r f : Byte) (v : BitVec 16) (a n : DWord) (s : State), s.accepts 0x28 c (captureOpenParams k p r f v a n) = true ∧ f.toNat < 4 ∧ a.toNat < 2 ^ 49 ∧ s.hasSport k.toNat p.toNat = false) ∧
    (∃ (c : Ctx) (k p r m : Byte) (s : State), s.accepts 0x29 c (captureCloseParams k p r m) = true ∧ s.hasSport k.toNat p.toNat = false) ∧
    (∃ (c : Ctx) (k p r : Byte) (s : State), s.accepts 0x2A c (captureDrainParams k p r) = true ∧ s.hasSport k.toNat p.toNat = false ∧ (s.reply srcInterp c ⟨2, 0x0A⟩ 0).cat.stuck = false ∧ (s.reply srcInterp c ⟨2, 0x0A⟩ 0).cat.forged = none) ∧
    (∃ (c : Ctx) (k : Byte) (r v : BitVec 16) (m : Byte) (d : RouteDef) (s : State), s.accepts 0x21 c (routeArmParams k r v m) = true ∧ s.hasTile k.toNat = true ∧ r.toNat < 1024 ∧ (s.route k.toNat r.toNat).defn = some d ∧ s.hasSport k.toNat d.port = false) :=
  ⟨⟨ring, 0, 0, 0, 0, 0, 0, ⟨true, 0⟩, ⟨true, []⟩, run 0x20 (routeDefineParams (0 : Byte) (0 : BitVec 16) (0 : Word) (0 : Word) (0 : BitVec 16) (0 : Byte)) up, by decide +kernel⟩,
   ⟨ring, 0, 0, 0, 0, 0, 0, 0, run 0x28 (captureOpenParams (0 : Byte) (0 : Byte) (0 : Byte) (0 : Byte) (0 : BitVec 16) (0 : DWord) (0 : DWord)) up, by decide +kernel⟩,
   ⟨ring, 0, 0, 0, 0, run 0x29 (captureCloseParams (0 : Byte) (0 : Byte) (0 : Byte) (0 : Byte)) up, by decide +kernel⟩,
   ⟨ring, 0, 0, 0, run 0x2A (captureDrainParams (0 : Byte) (0 : Byte) (0 : Byte)) up, by decide +kernel⟩,
   ⟨ring, 0, 0, 0, 0, { port := 0, lat := 280, depth := 1, segs := [], epoch := 1 }, run 0x21 (routeArmParams (0 : Byte) (0 : BitVec 16) (0 : BitVec 16) (0 : Byte)) (up.setRoute 0 0 { defn := some { port := 0, lat := 280, depth := 1, segs := [], epoch := 1 } }), by decide +kernel⟩⟩

end Sys2Proof.Tests
end

section
/-! Settles the idle step and the reset state. -/

namespace Sys2Proof.Machine

/-- The counters in level mode are all that the passing of a nanosecond counts. -/
theorem State.levels_eq (s : State) : s.levels = { s with pmc := s.levels.pmc } := rfl

theorem step_nil (s : State) (h : s.pending = []) : step s = .next s.idle := by
  simp [step, h]

/-- Settles O51: an idle step is upkeep, the counters in level mode, and one nanosecond. -/
theorem anEmptyQueueIdles : Obligations.AnEmptyQueueIdles := by
  unfold Obligations.AnEmptyQueueIdles
  intro s hs
  rw [step_nil s hs, State.idle, State.levels_eq]

/-- An entry of an empty table reads as its default. -/
@[simp] theorem tget_nil {V : Type} (d : Nat → V) (k : Nat) : tget d [] k = d k := rfl

/-- Settles O52: every table of the reset state is empty, so each entry reads as its default. -/
theorem resetLeavesThePartOff : Obligations.ResetLeavesThePartOff := by
  unfold Obligations.ResetLeavesThePartOff
  have units : (∀ p w, (State.reset.win p w).enable = false) ∧ (∀ k p, (State.reset.sport k p).st = .disabled) ∧
      (∀ k r, (State.reset.route k r).st = .empty) ∧ (∀ k p r, (State.reset.region k p r).st = .closed) ∧
      (∀ k l, (State.reset.nc k l).st = .i) := by
    simp [State.win, State.sport, State.route, State.region, State.nc, State.reset]
  have rings : (∀ i, (tget (fun _ => ({} : Sq)) State.reset.host.sqs i).enable = false) ∧
      (∀ i, (tget (fun _ => ({} : Cq)) State.reset.host.cqs i).enable = false) := by
    simp [State.reset]
  have fuses : State.reset.fusesOk = true := by decide
  exact ⟨⟨rfl, rings.1, rings.2, units⟩, rfl, rfl, rfl, rfl, rfl, rfl, fuses⟩

end Sys2Proof.Machine
end

section
/-! BAR0 by address: where an offset lies among the register arrays, what a write or a read there reaches, and the writes
that reach nothing (R13, R33 to R37). -/

namespace Sys2Proof.Machine

/-! ## Arrays of registers -/

/-- The offset of an entry's byte names the entry and the byte. -/
theorem inArray_entry {off base stride n i k : Nat} (h : off = base + stride * i + k) (hi : i < n) (hk : k < stride) :
    inArray off base stride n = some (i, k) := by
  have hin : base ≤ off ∧ off < base + stride * n := by
    have : stride * (i + 1) ≤ stride * n := Nat.mul_le_mul_left _ hi
    rw [Nat.mul_add] at this
    omega
  have hoff : off - base = k + stride * i := by omega
  simp [inArray, hin, hoff, Nat.add_mul_div_left _ _ (Nat.zero_lt_of_lt hk), Nat.div_eq_of_lt hk, Nat.mod_eq_of_lt hk]

theorem inArray_outside {off base stride n : Nat} (h : off < base ∨ base + stride * n ≤ off) :
    inArray off base stride n = none := by
  have : ¬(base ≤ off ∧ off < base + stride * n) := by omega
  simp [inArray, this]

/-! ## Ring registers -/

/-- A register of ring `n` lies past the MSI-X table, in the array of the rings. -/
theorem inArray_ring {n k : Nat} (hn : n < 64) (hk : k < 0x40) :
    inArray (0x20000 + 0x40 * n + k) 0x18000 16 2048 = none ∧
    inArray (0x20000 + 0x40 * n + k) 0x20000 0x40 64 = some (n, k) :=
  ⟨inArray_outside (by omega), inArray_entry rfl hn hk⟩

/-- A doorbell of ring `n` lies past the rings, in the array of the doorbells. -/
theorem inArray_doorbell {n k : Nat} (hn : n < 64) (hk : k < 8) :
    inArray (0x28000 + 8 * n + k) 0x18000 16 2048 = none ∧ inArray (0x28000 + 8 * n + k) 0x20000 0x40 64 = none ∧
    inArray (0x28000 + 8 * n + k) 0x28000 8 64 = some (n, k) :=
  ⟨inArray_outside (by omega), inArray_outside (by omega), inArray_entry rfl hn hk⟩

theorem writePart_sqDb (p n w : Nat) (s : State) (hn : n < 64) :
    s.writePart p (sqDbOff n) w = some (s.sqTail p n (w % 4096)) := by
  obtain ⟨hmsix, hring, hdb⟩ := inArray_doorbell hn (k := 0) (by omega)
  rw [show sqDbOff n = 0x28000 + 8 * n + 0 from rfl, State.writePart, hmsix, hring, hdb]
  repeat rw [if_neg (by omega)]
  rfl

theorem writePart_cqDb (p n w : Nat) (s : State) (hn : n < 64) :
    s.writePart p (cqDbOff n) w = some (s.cqHead p n (w % 4096)) := by
  obtain ⟨hmsix, hring, hdb⟩ := inArray_doorbell hn (k := 4) (by omega)
  rw [show cqDbOff n = 0x28000 + 8 * n + 4 by unfold cqDbOff; omega, State.writePart, hmsix, hring, hdb]
  repeat rw [if_neg (by omega)]
  rfl

theorem writePart_sqCfg (p n w : Nat) (s : State) (hn : n < 64) :
    s.writePart p (sqCfgOff n) w = some (s.writeSqCfg p n w) := by
  obtain ⟨hmsix, hring⟩ := inArray_ring hn (k := 0x8) (by omega)
  rw [show sqCfgOff n = 0x20000 + 0x40 * n + 0x8 by unfold sqCfgOff; omega, State.writePart, hmsix, hring]
  repeat rw [if_neg (by omega)]
  rfl

theorem writePart_cqCfg (p n w : Nat) (s : State) (hn : n < 64) :
    s.writePart p (cqCfgOff n) w = some (s.writeCqCfg p n w) := by
  obtain ⟨hmsix, hring⟩ := inArray_ring hn (k := 0x18) (by omega)
  rw [show cqCfgOff n = 0x20000 + 0x40 * n + 0x18 by unfold cqCfgOff; omega, State.writePart, hmsix, hring]
  repeat rw [if_neg (by omega)]
  rfl

/-! ## Writes of a word -/

/-- Below the tiles' regions a write reaches what `writePart` says. -/
theorem writeWord_part {p off w : Nat} {s t : State} (h : off < 0x100000) (hw : s.writePart p off w = some t) :
    s.writeWord p off w = t := by
  have : ¬(0x100000 ≤ off ∧ off < 0x900000) := by omega
  simp [State.writeWord, this, hw]

/-- A write to a register held as bits that is in no tile's region. -/
theorem writeWord_plain {p off w i u : Nat} {r : Reg} {s : State} (h : ¬(0x100000 ≤ off ∧ off < 0x900000))
    (hw : s.writePart p off w = none) (hl : locate s.tiles p off = some (r, u, i)) :
    s.writeWord p off w = s.writePlain p off r u i w := by
  simp [State.writeWord, h, hw, hl]

/-- The region of a tile that the member lacks takes no write (R36). -/
theorem writeWord_absent {p off w : Nat} {s : State} (h : 0x100000 ≤ off ∧ off < 0x900000)
    (ht : s.hasTile (off / 0x100000 - 1) = false) : s.writeWord p off w = s := by
  simp [State.writeWord, h, ht]

/-- A naturally aligned 4-byte write through an open port. -/
theorem registerWrite_word {p : Nat} {o : BitVec 24} {v : DWord} {s : State} (h : s.takesWrite p = true)
    (ho : o.toNat % 4 = 0) :
    exec (.registerWrite p o 4 v) s = .next (s.commitStore.writeWord p o.toNat (v.toNat % 2 ^ 32)) := by
  have : exec (.registerWrite p o 4 v) s = s.bar0 p (fun s => s.bar0Write p o.toNat 4 v) := rfl
  rw [this, bar0_open _ _ _ h, State.bar0Write, if_pos ⟨rfl, ho⟩]

/-- A 4-byte write to an address of the part reaches the operation that `writePart` names, with the value's word. -/
theorem registerWrite_part {p : Nat} {o : BitVec 24} {v : DWord} {s t : State} (h : s.takesWrite p = true)
    (ho : o.toNat % 4 = 0 ∧ o.toNat < 0x100000) (hw : s.commitStore.writePart p o.toNat (v.toNat % 2 ^ 32) = some t) :
    exec (.registerWrite p o 4 v) s = .next t := by
  rw [registerWrite_word h ho.1, writeWord_part ho.2 hw]

/-- A write of another size or alignment is an Unsupported Request (R35). -/
theorem registerWrite_unsupported {p sz : Nat} {o : BitVec 24} {v : DWord} {s : State} (h : s.takesWrite p = true)
    (h4 : ¬(sz = 4 ∧ o.toNat % 4 = 0)) (h8 : ¬(sz = 8 ∧ o.toNat % 8 = 0)) :
    exec (.registerWrite p o sz v) s = .next (s.commitStore.refuseAccess p o.toNat sz) := by
  have : exec (.registerWrite p o sz v) s = s.bar0 p (fun s => s.bar0Write p o.toNat sz v) := rfl
  rw [this, bar0_open _ _ _ h, State.bar0Write, if_neg h4, if_neg h8]

/-- Recording the refusal sends nothing more than the answer. -/
theorem refuseAccess_out (p off sz : Nat) (s : State) : (s.refuseAccess p off sz).out = s.out ++ [.unsupported p] := by
  simp [State.refuseAccess, State.emit]

/-! ## PWR_CFG and CUR_TAMPER_CFG -/

theorem locate_pwrCfg (tiles p : Nat) : locate tiles p 0x70404 = some (.pwrCfg, 0, 0) := rfl

theorem locate_curTamperCfg (tiles p : Nat) : locate tiles p 0x900020 = some (.curTamperCfg, 0, 0) := rfl

theorem writeWord_pwrCfg (p w : Nat) (s : State) : s.writeWord p 0x70404 w = s.writePlain p 0x70404 .pwrCfg 0 0 w :=
  writeWord_plain (by omega) rfl (locate_pwrCfg ..)

theorem writeWord_curTamperCfg (p w : Nat) (s : State) :
    s.writeWord p 0x900020 w = s.writePlain p 0x900020 .curTamperCfg 0 0 w :=
  writeWord_plain (by omega) rfl (locate_curTamperCfg ..)

/-- A write that the RWL rule stops is refused and recorded (R13). -/
theorem writePlain_refused {p off u i w : Nat} {r : Reg} {s : State} (hl : s.rwlOpen = false)
    (hw : r.desc.write true (s.reg r u i) (adjust r (s.reg r u i) w) ≠
      r.desc.write false (s.reg r u i) (adjust r (s.reg r u i) w)) :
    s.writePlain p off r u i w = s.refusedWrite (if r.desc.unit = .port then p else 0) p off w := by
  simp [State.writePlain, hl, hw]

/-- PWR_CFG has no RWL field: what a write stores is its bits 15:0, whatever the lifecycle state. -/
theorem pwrCfg_write (rwl : Bool) (old w : Nat) : Reg.pwrCfg.desc.write rwl old w = w % 2 ^ 16 := by
  have hd : Reg.pwrCfg.desc.fields = [⟨15, 0, .rw, 0x2710, .n⟩] := rfl
  simp [RDesc.write, hd, RField.written, setBits, bits]

theorem pwrCfg_shown (w : Nat) : Reg.pwrCfg.desc.shown w = w % 2 ^ 16 := by
  have hd : Reg.pwrCfg.desc.fields = [⟨15, 0, .rw, 0x2710, .n⟩] := rfl
  simp [RDesc.shown, hd, setBits, bits]

/-- A register reads back what a write of it leaves. -/
theorem writeReg_reg (r : Reg) (u i w : Nat) (rwl : Bool) (s : State) :
    (s.writeReg r u i rwl w).reg r u i = r.desc.write rwl (s.reg r u i) w % 2 ^ 32 := by
  have hput := State.putReg_reg r u i (r.desc.write rwl (s.reg r u i) w) s
  unfold State.writeReg
  dsimp only
  split <;> exact hput

/-- A value of at least 100 ns is stored as it is (R494). -/
theorem writePlain_pwrCfg {p off w : Nat} {s : State} (h : 100 ≤ w % 2 ^ 16) :
    s.writePlain p off .pwrCfg 0 0 w = s.writeReg .pwrCfg 0 0 s.rwlOpen w := by
  have : ¬ bits w 15 0 < 100 := by simp [bits]; omega
  simp [State.writePlain, adjust, this, pwrCfg_write]

theorem readPart_pwrCfg (p : Nat) (s : State) : s.readPart p 0x70404 = none := rfl

theorem readReg_pwrCfg (p : Nat) (s : State) : s.readReg p 0x70404 = s.reg .pwrCfg 0 0 % 2 ^ 16 := by
  simp [State.readReg, readPart_pwrCfg, locate_pwrCfg, State.readBits, pwrCfg_shown]

/-! ## Reads of a word -/

theorem readWord_running {p off : Nat} {s : State} (h : s.cry.haltCause = 0) :
    s.readWord p off = BitVec.ofNat 32 (s.readReg p off) := by
  simp [State.readWord, h]

/-- In a security halt a register outside what stays readable reads all ones (R397). -/
theorem readWord_halted {p off : Nat} {s : State} (h : s.cry.haltCause ≠ 0) (ho : readableHalted off = false) :
    s.readWord p off = 0xFFFFFFFF := by
  simp [State.readWord, h, ho]

/-- The region of a tile that the member lacks reads 0 (R36). -/
theorem readReg_absent {p off : Nat} {s : State} (h : 0x100000 ≤ off ∧ off < 0x900000)
    (ht : s.hasTile (off / 0x100000 - 1) = false) : s.readReg p off = 0 := by
  simp [State.readReg, h, ht]

theorem takesWrite_running {p : Nat} {s : State} (h : s.takesWrite p = true) : s.cry.haltCause = 0 := by
  simp only [State.takesWrite, Bool.and_eq_true, beq_iff_eq] at h
  exact h.2

/-! ## The statement -/

/-- Settles O7, clause by clause: the ring registers by their arrays, a refused access, an absent tile, PWR_CFG and
CUR_TAMPER_CFG as registers held as bits, and the two reads. -/
theorem registerWriteReachesItsRow : Obligations.RegisterWriteReachesItsRow := by
  unfold Obligations.RegisterWriteReachesItsRow
  refine ⟨?sqDb, ?sqCfg, ?cqDb, ?cqCfg, ?refused, ?absent, ?pwrCfg, ?tamper, ?readAbsent, ?readHalted⟩
  case sqDb =>
    intro p n o v s h hn ho hv
    have hw : v.toNat % 2 ^ 32 % 4096 = v.toNat := by omega
    refine registerWrite_part h (by unfold sqDbOff at ho; omega) ?_
    rw [ho, writePart_sqDb _ _ _ _ hn, hw]
  case sqCfg =>
    intro p n o v s h hn ho hv
    refine registerWrite_part h (by unfold sqCfgOff at ho; omega) ?_
    rw [ho, writePart_sqCfg _ _ _ _ hn, Nat.mod_eq_of_lt hv]
  case cqDb =>
    intro p n o v s h hn ho hv
    have hw : v.toNat % 2 ^ 32 % 4096 = v.toNat := by omega
    refine registerWrite_part h (by unfold cqDbOff at ho; omega) ?_
    rw [ho, writePart_cqDb _ _ _ _ hn, hw]
  case cqCfg =>
    intro p n o v s h hn ho hv
    refine registerWrite_part h (by unfold cqCfgOff at ho; omega) ?_
    rw [ho, writePart_cqCfg _ _ _ _ hn, Nat.mod_eq_of_lt hv]
  case refused =>
    intro p sz o v s h h4 h8
    rw [registerWrite_unsupported h h4 h8, yields_next_iff, refuseAccess_out]
    rfl
  case absent =>
    intro p o v s h hlo hhi ht ho
    rw [registerWrite_word h ho, writeWord_absent ⟨hlo, hhi⟩ (by simpa using ht)]
  case pwrCfg =>
    intro p v s h hv hmin
    have hrun : (s.commitStore.writeReg .pwrCfg 0 0 s.commitStore.rwlOpen v.toNat).cry.haltCause = 0 := by
      simpa using takesWrite_running h
    have hword : s.commitStore.writeWord p (0x70404 : BitVec 24).toNat (v.toNat % 2 ^ 32) =
        s.commitStore.writeReg .pwrCfg 0 0 s.commitStore.rwlOpen v.toNat := by
      rw [Nat.mod_eq_of_lt hv]
      exact (writeWord_pwrCfg ..).trans (writePlain_pwrCfg hmin)
    rw [registerWrite_word h rfl, yields_next_iff, hword, readWord_running hrun, readReg_pwrCfg, writeReg_reg, pwrCfg_write,
      BitVec.toNat_ofNat]
    omega
  case tamper =>
    intro p v s h hv hl hw
    have hclosed : s.commitStore.rwlOpen = false := by simp [State.rwlOpen, hl]
    have hword : s.commitStore.writeWord p (0x900020 : BitVec 24).toNat (v.toNat % 2 ^ 32) =
        s.commitStore.refusedWrite 0 p 0x900020 v.toNat := by
      rw [Nat.mod_eq_of_lt hv]
      exact (writeWord_curTamperCfg ..).trans (writePlain_refused hclosed hw)
    rw [registerWrite_word h rfl, hword]
  case readAbsent =>
    intro p o s hlo hhi ht hrun
    rw [readWord_running hrun, readReg_absent ⟨hlo, hhi⟩ ht]
    rfl
  case readHalted =>
    intro p o s hhalt ho
    exact readWord_halted hhalt ho

end Sys2Proof.Machine
end

section
/-! What every operation but a whole one leaves as it was: the marks by which an operation waits (assumption 99). -/

namespace Sys2Proof.Machine

/-- The marks by which an operation waits as a whole, or ends with the security halt (assumption 99). -/
def CatState.marks (c : CatState) : Bool × Option (Nat × Nat) := (c.stuck, c.forged)

@[simp] theorem CatState.marks_eta (c : CatState) : (c.stuck, c.forged) = c.marks := rfl

@[simp] theorem CatState.marks_mk (fo le : Tbl Entry) (bu : List Buf) (un : List Undo) (he se : Tbl Nat) (gr : Tbl (List Nat))
    (pa : Tbl (Option Page)) (bl : Tbl StripeBlock) (re : Tbl (Option Reloc)) (no : Tbl (List Note)) (lo : List (Nat × Nat))
    (fd : List Nat) (co : Tbl Nat) (me : List Nat) (we : Tbl Nat) (ca : Tbl (List CatLine)) (wa br : List (Bool × Nat))
    (stuck : Bool) (forged : Option (Nat × Nat)) (fa : List DueFault) :
    CatState.marks ⟨fo, le, bu, un, he, se, gr, pa, bl, re, no, lo, fd, co, me, we, ca, wa, br, stuck, forged, fa⟩ =
      (stuck, forged) := rfl

@[simp] theorem ite_marks (c : Prop) [Decidable c] (a b : CatState) :
    (if c then a else b).marks = if c then a.marks else b.marks := apply_ite _ _ _ _

@[simp] theorem foldl_marks (A : Type) (f : State → A → State) (h : ∀ s x, (f s x).cat.marks = s.cat.marks) (l : List A)
    (s : State) : (l.foldl f s).cat.marks = s.cat.marks := by
  induction l generalizing s with
  | nil => rfl
  | cons x l ih => rw [List.foldl_cons, ih, h]

@[simp] theorem foldl_snd_marks (A B : Type) (f : B × State → A → B × State) (h : ∀ a x, (f a x).2.cat.marks = a.2.cat.marks)
    (l : List A) (a : B × State) : (l.foldl f a).2.cat.marks = a.2.cat.marks := by
  induction l generalizing a with
  | nil => rfl
  | cons x l ih => rw [List.foldl_cons, ih, h]

/-! ### Commands -/

@[simp] theorem State.command_marks (opc src : Nat) (c : Ctx) (ps : List Param) (body : State → State) (s : State)
    (h : ∀ s, (body s).cat.marks = s.cat.marks) : (State.command opc src c ps body s).cat.marks = s.cat.marks := by
  unfold State.command
  repeat' split
  all_goals simp [State.enqueue_kept, State.leaveHead_kept, h]

/-! ### Slots -/

@[simp] theorem State.withSlot_marks (src : Nat) (c : Ctx) (slot : Word) (own : SlotRead) (needed : Bool)
    (lenOk : Win → DWord → Bool) (body : Option SlotRef → State → SlotAnswer) (s : State)
    (h : ∀ r s, (body r s).after.cat.marks = s.cat.marks) :
    (State.withSlot src c slot own needed lenOk body s).cat.marks = s.cat.marks := by
  unfold State.withSlot
  dsimp only
  repeat' split
  all_goals simp [State.slotReply_kept, State.violation_kept, h]

/-! ### Members of stripe pages -/

@[simp] theorem State.setBlock_marks (t b : Nat) (v : StripeBlock) (s : State) :
    (State.setBlock t b v s).cat.marks = s.cat.marks := by
  unfold State.setBlock
  simp

@[simp] theorem State.setPage_marks (t spn : Nat) (v : Option Page) (s : State) :
    (State.setPage t spn v s).cat.marks = s.cat.marks := by
  unfold State.setPage
  simp

@[simp] theorem State.schedule_marks (t b : Nat) (s : State) :
    (State.schedule t b s).cat.marks = s.cat.marks := by
  unfold State.schedule
  simp

@[simp] theorem State.countSenses_marks (t c m b n : Nat) (s : State) :
    (State.countSenses t c m b n s).cat.marks = s.cat.marks := by
  unfold State.countSenses
  simp

@[simp] theorem State.sense_marks (t c b : Nat) (s : State) :
    (State.sense t c b s).cat.marks = s.cat.marks := by
  unfold State.sense
  simp [State.startSense_kept]

@[simp] theorem State.mladBits_marks (t c b n : Nat) (s : State) :
    (State.mladBits t c b n s).cat.marks = s.cat.marks := by
  unfold State.mladBits
  simp

@[simp] theorem State.dueFault_marks (t id : Nat) (inject : Bool) (addr : Nat) (s : State) :
    (State.dueFault t id inject addr s).cat.marks = s.cat.marks := by
  unfold State.dueFault
  simp

@[simp] theorem State.agentSense_marks (t spn c : Nat) (s : State) :
    (State.agentSense t spn c s).cat.marks = s.cat.marks := by
  unfold State.agentSense
  simp [State.wantCal_kept]

@[simp] theorem State.mediaRead_marks (t spn pos : Nat) (s : State) :
    (State.mediaRead t spn pos s).cat.marks = s.cat.marks := by
  unfold State.mediaRead
  dsimp only
  repeat' split
  all_goals simp

@[simp] theorem State.firstPassFailed_marks (t spn pos : Nat) (s : State) :
    (State.firstPassFailed t spn pos s).cat.marks = s.cat.marks := by
  unfold State.firstPassFailed
  simp

@[simp] theorem State.checkCodeword_marks (t spn line c : Nat) (failed : Bool) (s : State) :
    (State.checkCodeword t spn line c failed s).cat.marks = s.cat.marks := by
  unfold State.checkCodeword
  simp

@[simp] theorem State.checkTags_marks (t line : Nat) (bent : Option Nat) (s : State) :
    (State.checkTags t line bent s).cat.marks = s.cat.marks := by
  unfold State.checkTags
  dsimp only
  repeat' split
  all_goals simp

@[simp] theorem State.sumBits_marks (t spn : Nat) (l : List (Nat × Nat)) (s : State) :
    (State.sumBits t spn l s).cat.marks = s.cat.marks := by
  unfold State.sumBits
  simp

@[simp] theorem State.ownBits_marks (t c b : Nat) (s : State) :
    (State.ownBits t c b s).cat.marks = s.cat.marks := by
  unfold State.ownBits
  simp

/-! ### Lines -/

@[simp] theorem State.useEntry_marks (leaf : Bool) (key : Nat) (write : Bool) (s : State) :
    (State.useEntry leaf key write s).cat.marks = s.cat.marks := by
  unfold State.useEntry
  simp [State.ddrStore_kept]

@[simp] theorem State.setEntry_marks (leaf : Bool) (key : Nat) (v : Entry) (s : State) :
    (State.setEntry leaf key v s).cat.marks = s.cat.marks := by
  unfold State.setEntry
  simp

@[simp] theorem State.sweepGroups_marks (t : Nat) (s : State) :
    (State.sweepGroups t s).cat.marks = s.cat.marks := by
  unfold State.sweepGroups
  simp

@[simp] theorem State.askStager_marks (leaf : Bool) (key : Nat) (b : Bool) (s : State) :
    (State.askStager leaf key b s).cat.marks = s.cat.marks := by
  unfold State.askStager
  simp

@[simp] theorem State.asking_marks (t s : State) :
    (State.asking t s).cat.marks = s.cat.marks := by
  unfold State.asking
  simp

@[simp] theorem State.spoilt_marks (line : Nat) (s : State) :
    (State.spoilt line s).cat.marks = s.cat.marks := by
  unfold State.spoilt
  simp

@[simp] theorem State.readHit_marks (line : Nat) (h : MediaHit) (s : State) :
    (State.readHit line h s).cat.marks = s.cat.marks := by
  unfold State.readHit
  simp

@[simp] theorem State.homeRead_marks (line : Nat) (f : Fill) (s : State) :
    (State.homeRead line f s).cat.marks = s.cat.marks := by
  unfold State.homeRead
  repeat' split
  all_goals simp

/-! ### Epochs -/

@[simp] theorem State.advanceD_marks (s : State) :
    (State.advanceD s).cat.marks = s.cat.marks := by
  unfold State.advanceD
  simp [State.answerWaiters_kept, State.undoLow_kept]

/-! ### Faults -/

@[simp] theorem State.tellFaults_marks (s : State) :
    (State.tellFaults s).cat.marks = s.cat.marks := by
  unfold State.tellFaults
  simp

/-! ### Stripe blocks -/

@[simp] theorem State.degrade_marks (t c : Nat) (p : Nat → Bool) (s : State) :
    (State.degrade t c p s).cat.marks = s.cat.marks := by
  unfold State.degrade
  simp [State.showDegraded_kept]

@[simp] theorem State.retireBlock_marks (t c b cause : Nat) (s : State) :
    (State.retireBlock t c b cause s).cat.marks = s.cat.marks := by
  unfold State.retireBlock
  simp [State.showBlocks_kept]

@[simp] theorem State.openBlock_marks (t b : Nat) (s : State) :
    (State.openBlock t b s).cat.marks = s.cat.marks := by
  unfold State.openBlock
  simp

@[simp] theorem State.weedSpent_marks (t : Nat) (s : State) :
    (State.weedSpent t s).cat.marks = s.cat.marks := by
  unfold State.weedSpent
  simp

/-! ### The Catalogue -/

@[simp] theorem State.takeGroup_marks (t g : Nat) (s : State) :
    (State.takeGroup t g s).cat.marks = s.cat.marks := by
  unfold State.takeGroup
  simp

@[simp] theorem State.addPage_marks (t spn epoch : Nat) (reloc merge : Bool) (items : List PageItem) (s : State) :
    (State.addPage t spn epoch reloc merge items s).cat.marks = s.cat.marks := by
  unfold State.addPage
  simp [State.queueLoads_kept]

@[simp] theorem State.cool_marks (t : Nat) (s : State) :
    (State.cool t s).cat.marks = s.cat.marks := by
  unfold State.cool
  simp

@[simp] theorem State.mergeFolio_marks (t f spn slot : Nat) (s : State) :
    (State.mergeFolio t f spn slot s).cat.marks = s.cat.marks := by
  unfold State.mergeFolio
  simp [State.queueMergeReads_kept]

@[simp] theorem State.setReloc_marks (t : Nat) (r : Option Reloc) (s : State) :
    (State.setReloc t r s).cat.marks = s.cat.marks := by
  unfold State.setReloc
  simp

@[simp] theorem State.relocate_marks (t victim dest spn : Nat) (s : State) :
    (State.relocate t victim dest spn s).cat.marks = s.cat.marks := by
  unfold State.relocate
  dsimp only
  repeat' split
  all_goals simp [State.queueErase_kept, State.queueReads_kept, State.showRate_kept]

@[simp] theorem State.repointEntry_marks (t src dst : Nat) (e : Bool × Nat) (s : State) :
    (State.repointEntry t src dst e s).cat.marks = s.cat.marks := by
  unfold State.repointEntry
  repeat' split
  all_goals simp [*]

@[simp] theorem State.repoint_marks (t src dst : Nat) (p : Page) (s : State) :
    (State.repoint t src dst p s).cat.marks = s.cat.marks := by
  unfold State.repoint
  simp

@[simp] theorem State.copyDone_marks (t : Nat) (r : Reloc) (p : Page) (s : State) :
    (State.copyDone t r p s).cat.marks = s.cat.marks := by
  unfold State.copyDone
  simp [State.markEighth_kept, State.queueErase_kept]

@[simp] theorem State.failPage_marks (t spn : Nat) (s : State) :
    (State.failPage t spn s).cat.marks = s.cat.marks := by
  unfold State.failPage
  repeat' split
  all_goals simp

@[simp] theorem State.copyAgain_marks (t spn : Nat) (s : State) :
    (State.copyAgain t spn s).cat.marks = s.cat.marks := by
  unfold State.copyAgain
  repeat' split
  all_goals simp [*]

@[simp] theorem State.settleOwn_marks (t : Nat) (s : State) :
    (State.settleOwn t s).cat.marks = s.cat.marks := by
  unfold State.settleOwn
  repeat' split
  all_goals simp [*]

@[simp] theorem State.copyFailed_marks (t c : Nat) (r : Reloc) (s : State) :
    (State.copyFailed t c r s).cat.marks = s.cat.marks := by
  unfold State.copyFailed
  simp

@[simp] theorem State.verified_marks (t : Nat) (ok : Bool) (s : State) :
    (State.verified t ok s).cat.marks = s.cat.marks := by
  unfold State.verified
  repeat' split
  all_goals simp [*]

@[simp] theorem State.freeBlock_marks (t b : Nat) (s : State) :
    (State.freeBlock t b s).cat.marks = s.cat.marks := by
  unfold State.freeBlock
  simp [State.showDegraded_kept, State.showWear_kept]

@[simp] theorem State.retireFailed_marks (t : Nat) (v : StripeBlock) (s : State) :
    (State.retireFailed t v s).cat.marks = s.cat.marks := by
  unfold State.retireFailed
  simp

@[simp] theorem State.erased_marks (t : Nat) (ok : Bool) (s : State) :
    (State.erased t ok s).cat.marks = s.cat.marks := by
  unfold State.erased
  repeat' split
  all_goals simp

@[simp] theorem State.scanEntry_marks (t limit f : Nat) (s : State) :
    (State.scanEntry t limit f s).cat.marks = s.cat.marks := by
  unfold State.scanEntry
  dsimp only
  repeat' split
  all_goals simp

@[simp] theorem State.scanLeaves_marks (t limit f : Nat) (s : State) :
    (State.scanLeaves t limit f s).cat.marks = s.cat.marks := by
  unfold State.scanLeaves
  simp

@[simp] theorem State.lostScanDone_marks (t : Nat) (s : State) :
    (State.lostScanDone t s).cat.marks = s.cat.marks := by
  unfold State.lostScanDone
  simp

@[simp] theorem State.killPages_marks (t d : Nat) (s : State) :
    (State.killPages t d s).cat.marks = s.cat.marks := by
  unfold State.killPages
  simp

@[simp] theorem State.killUnprogrammed_marks (t : Nat) (s : State) :
    (State.killUnprogrammed t s).cat.marks = s.cat.marks := by
  unfold State.killUnprogrammed
  simp

@[simp] theorem State.headerWindow_marks (t c spn : Nat) (s : State) :
    (State.headerWindow t c spn s).cat.marks = s.cat.marks := by
  unfold State.headerWindow
  simp

@[simp] theorem State.readHeaders_marks (t : Nat) (s : State) :
    (State.readHeaders t s).cat.marks = s.cat.marks := by
  unfold State.readHeaders
  simp

@[simp] theorem State.killUnread_marks (t : Nat) (s : State) :
    (State.killUnread t s).cat.marks = s.cat.marks := by
  unfold State.killUnread
  simp

@[simp] theorem State.rebuildScan_marks (t : Nat) (s : State) :
    (State.rebuildScan t s).cat.marks = s.cat.marks := by
  unfold State.rebuildScan
  simp [State.restoreMarks_kept]

/-! ### Coherence -/

@[simp] theorem State.issue_marks (t line : Nat) (k : ReqKind) (stream reserved : Bool) (s : State) :
    (State.issue t line k stream reserved s).cat.marks = s.cat.marks := by
  unfold State.issue
  simp [State.allot_kept]

@[simp] theorem State.refuse_marks (q : Tkt) (s : State) :
    (State.refuse q s).cat.marks = s.cat.marks := by
  unfold State.refuse
  simp

@[simp] theorem State.sendEvict_marks (t line : Nat) (s : State) :
    (State.sendEvict t line s).cat.marks = s.cat.marks := by
  unfold State.sendEvict
  simp [State.sendWb_kept]

@[simp] theorem State.wbReturn_marks (t home : Nat) (s : State) :
    (State.wbReturn t home s).cat.marks = s.cat.marks := by
  unfold State.wbReturn
  dsimp only
  repeat' split
  all_goals simp [State.wbBack_kept]

@[simp] theorem State.loses_marks (q : Tkt) (s : State) :
    (State.loses q s).cat.marks = s.cat.marks := by
  unfold State.loses
  simp

@[simp] theorem State.meet_marks (q : Tkt) (peers : List Nat) (s : State) :
    (State.meet q peers s).cat.marks = s.cat.marks := by
  unfold State.meet
  simp

@[simp] theorem State.snooped_marks (dst line : Nat) (k : MsgKind) (f : State → State) (s : State)
    (h : ∀ s, (f s).cat.marks = s.cat.marks) : (State.snooped dst line k f s).cat.marks = s.cat.marks := by
  unfold State.snooped
  split
  · simp [h]
  · rfl

@[simp] theorem State.evictVictim_marks (t line : Nat) (s : State) :
    (State.evictVictim t line s).cat.marks = s.cat.marks := by
  unfold State.evictVictim
  dsimp only
  repeat' split
  all_goals simp

@[simp] theorem State.refill_marks (t line : Nat) (s : State) :
    (State.refill t line s).cat.marks = s.cat.marks := by
  unfold State.refill
  simp

/-! ### Resets of blocks -/

@[simp] theorem State.undoOne_marks (u : Undo) (s : State) :
    (State.undoOne u s).cat.marks = s.cat.marks := by
  unfold State.undoOne
  simp

@[simp] theorem State.restoreData_marks (d : Nat) (s : State) :
    (State.restoreData d s).cat.marks = s.cat.marks := by
  unfold State.restoreData
  simp

@[simp] theorem State.resetIslands_marks (e : Rst) (s : State) :
    (State.resetIslands e s).cat.marks = s.cat.marks := by
  unfold State.resetIslands
  simp

@[simp] theorem State.killAll_marks (s : State) :
    (State.killAll s).cat.marks = s.cat.marks := by
  unfold State.killAll
  simp

@[simp] theorem State.afterWarm_marks (s : State) :
    (State.afterWarm s).cat.marks = s.cat.marks := by
  unfold State.afterWarm
  simp [State.bootEpochs_kept, State.rebootCurators_kept, State.writeBackNodes_kept]

@[simp] theorem State.afterHard_marks (e : Rst) (s : State) :
    (State.afterHard e s).cat.marks = s.cat.marks := by
  unfold State.afterHard
  simp [State.bootEpochs_kept]

/-! ### The rail sequencer -/

@[simp] theorem State.enterFalling_marks (n : Nat) (s : State) :
    (State.enterFalling n s).cat.marks = s.cat.marks := by
  unfold State.enterFalling
  simp

@[simp] theorem State.shutDown_marks (s : State) :
    (State.shutDown s).cat.marks = s.cat.marks := by
  unfold State.shutDown
  repeat' split
  all_goals simp [*]

@[simp] theorem State.orderlyOff_marks (s : State) :
    (State.orderlyOff s).cat.marks = s.cat.marks := by
  unfold State.orderlyOff
  simp

@[simp] theorem State.offRequest_marks (s : State) :
    (State.offRequest s).cat.marks = s.cat.marks := by
  unfold State.offRequest
  repeat' split
  all_goals simp

@[simp] theorem State.checkStep_marks (w : DWord) (s : State) :
    (State.checkStep w s).cat.marks = s.cat.marks := by
  unfold State.checkStep
  simp [State.railFault_kept]

@[simp] theorem State.endStep_marks (s : State) :
    (State.endStep s).cat.marks = s.cat.marks := by
  unfold State.endStep
  simp

@[simp] theorem State.scanMonitor_marks (m mv : Nat) (s : State) :
    (State.scanMonitor m mv s).cat.marks = s.cat.marks := by
  unfold State.scanMonitor
  repeat' split
  all_goals simp [State.railFault_kept]

/-! ### Sensors -/

@[simp] theorem State.thermalOff_marks (s : State) :
    (State.thermalOff s).cat.marks = s.cat.marks := by
  unfold State.thermalOff
  simp

@[simp] theorem State.relevel_marks (t : Nat) (s : State) :
    (State.relevel t s).cat.marks = s.cat.marks := by
  unfold State.relevel
  simp [State.showThrottle_kept]

@[simp] theorem State.sensorBroken_marks (t k cause : Nat) (s : State) :
    (State.sensorBroken t k cause s).cat.marks = s.cat.marks := by
  unfold State.sensorBroken
  simp

@[simp] theorem State.convert_marks (t k : Nat) (r : Int) (s : State) :
    (State.convert t k r s).cat.marks = s.cat.marks := by
  unfold State.convert
  simp

@[simp] theorem State.missed_marks (t k : Nat) (s : State) :
    (State.missed t k s).cat.marks = s.cat.marks := by
  unfold State.missed
  simp

@[simp] theorem State.pollDdr_marks (t k : Nat) (c : Int) (above : Bool) (s : State) :
    (State.pollDdr t k c above s).cat.marks = s.cat.marks := by
  unfold State.pollDdr
  simp

/-! ### Tokens -/

theorem State.withToken_marks (t : Token) (present optional : Bool) (purpose bind : Nat) (body : State → SlotAnswer) (s : State)
    (h : ∀ s, (body s).after.cat.marks = s.cat.marks) :
    (State.withToken t present optional purpose bind s body).after.cat.marks = s.cat.marks := by
  unfold State.withToken
  repeat' split
  all_goals simp [State.useToken_kept, h]

@[simp] theorem State.tokenCommand_marks (opc : Nat) (c : Ctx) (ps : List Param) (slot : Word) (t : Token) (optional : Bool)
    (purpose bind : Nat) (body : State → SlotAnswer) (s : State) (h : ∀ s, (body s).after.cat.marks = s.cat.marks) :
    (State.tokenCommand opc c ps slot t optional purpose bind body s).cat.marks = s.cat.marks := by
  unfold State.tokenCommand
  refine State.command_marks _ _ _ _ _ _ (fun s => State.withSlot_marks _ _ _ _ _ _ _ _ (fun r s => ?_))
  dsimp only
  split
  · rfl
  · exact State.withToken_marks _ _ _ _ _ _ _ h

/-! ### DDR5 -/

@[simp] theorem State.loseFolios_marks (t first count : Nat) (s : State) :
    (State.loseFolios t first count s).cat.marks = s.cat.marks := by
  unfold State.loseFolios
  simp

@[simp] theorem State.loseGroups_marks (t first count : Nat) (s : State) :
    (State.loseGroups t first count s).cat.marks = s.cat.marks := by
  unfold State.loseGroups
  simp

@[simp] theorem State.loseAll_marks (t : Nat) (s : State) :
    (State.loseAll t s).cat.marks = s.cat.marks := by
  unfold State.loseAll
  simp [State.loseTable_kept]

@[simp] theorem State.onOverlap_marks (o : Option (Nat × Nat)) (f : Nat × Nat → State → State) (s : State)
    (h : ∀ r s, (f r s).cat.marks = s.cat.marks) : (State.onOverlap o f s).cat.marks = s.cat.marks := by
  unfold State.onOverlap
  split
  · exact h _ _
  · rfl

@[simp] theorem State.loseHeat_marks (t : Nat) (r : Nat × Nat) (s : State) :
    (State.loseHeat t r s).cat.marks = s.cat.marks := by
  unfold State.loseHeat
  simp

@[simp] theorem State.loseRegions_marks (t a len : Nat) (s : State) :
    (State.loseRegions t a len s).cat.marks = s.cat.marks := by
  unfold State.loseRegions
  simp [State.loseBlocks_kept, State.loseTable_kept]

@[simp] theorem State.loseEpochData_marks (t a len : Nat) (s : State) :
    (State.loseEpochData t a len s).cat.marks = s.cat.marks := by
  unfold State.loseEpochData
  simp

@[simp] theorem State.lostRange_marks (t a len kib : Nat) (s : State) :
    (State.lostRange t a len kib s).cat.marks = s.cat.marks := by
  unfold State.lostRange
  simp [State.newNodes_kept]

@[simp] theorem State.lostLine_marks (t block : Nat) (s : State) :
    (State.lostLine t block s).cat.marks = s.cat.marks := by
  rw [State.lostLine, State.lostRange_marks]
  simp

@[simp] theorem State.lostBlock_marks (t block : Nat) (s : State) :
    (State.lostBlock t block s).cat.marks = s.cat.marks := by
  rw [State.lostBlock]
  cases s.inStore t block
  · rw [if_neg Bool.false_ne_true, State.lostLine_marks]
  · rw [if_pos rfl]
    cases nodeOf (s.leafCount t) 0 9 block with
    | none => rw [Option.elim_none]
    | some x => rw [Option.elim_some, State.lostRange_marks]

@[simp] theorem State.burstEcc_marks (t sub block dev : Nat) (ecc : Ecc) (inj : Bool) (s : State) :
    (State.burstEcc t sub block dev ecc inj s).cat.marks = s.cat.marks := by
  unfold State.burstEcc
  simp [State.devHit_kept]

@[simp] theorem State.burst_marks (t sub block dev : Nat) (ecc : Ecc) (macOk : Bool) (s : State) :
    (State.burst t sub block dev ecc macOk s).cat.marks = s.cat.marks := by
  unfold State.burst
  simp [State.burstMac_kept]

/-! ### Routes -/

@[simp] theorem State.arrived_marks (t p : Nat) (f : Ahead) (s : State) :
    (State.arrived t p f s).cat.marks = s.cat.marks := by
  unfold State.arrived
  simp

@[simp] theorem State.failArrive_marks (t p : Nat) (f : Ahead) (s : State) :
    (State.failArrive t p f s).cat.marks = s.cat.marks := by
  unfold State.failArrive
  simp

@[simp] theorem State.sendData_marks (t p cycle : Nat) (s : State) :
    (State.sendData t p cycle s).cat.marks = s.cat.marks := by
  unfold State.sendData
  dsimp only
  repeat' split
  all_goals simp [State.dueFlit_kept, State.nextCtrl_kept]

/-! ### The stream link -/

@[simp] theorem State.flit_marks (t p : Nat) (f : Flit) (k : FlitKind) (bad : BadFlit) (act : Line → State → State) (s : State)
    (h : ∀ l s, (act l s).cat.marks = s.cat.marks) : (State.flit t p f k bad act s).cat.marks = s.cat.marks := by
  unfold State.flit
  dsimp only
  repeat' split
  all_goals simp [State.countFixed_kept, State.freeFlit_kept, State.header_kept, State.joinGroup_kept, State.lostFlit_kept, h]

@[simp] theorem State.ofSubtype_marks (t p n : Nat) (f : Flit) (act : State → State) (s : State)
    (h : ∀ s, (act s).cat.marks = s.cat.marks) : (State.ofSubtype t p n f act s).cat.marks = s.cat.marks := by
  unfold State.ofSubtype
  split
  · exact h s
  · simp

@[simp] theorem State.configFlit_marks (t p : Nat) (f : Flit) (act : State → State) (s : State)
    (h : ∀ s, (act s).cat.marks = s.cat.marks) : (State.configFlit t p f act s).cat.marks = s.cat.marks := by
  unfold State.configFlit
  dsimp only
  repeat' split
  all_goals simp [State.countFixed_kept, h]

/-! ### Media -/

@[simp] theorem State.sendBack_marks (t c : Nat) (w : BackWin) (s : State) :
    (State.sendBack t c w s).cat.marks = s.cat.marks := by
  unfold State.sendBack
  repeat' split
  all_goals simp [*]

@[simp] theorem State.grantBack_marks (t c : Nat) (w : BackWin) (s : State) :
    (State.grantBack t c w s).cat.marks = s.cat.marks := by
  unfold State.grantBack
  simp

@[simp] theorem State.grantRead_marks (t c : Nat) (w : Window) (s : State) :
    (State.grantRead t c w s).cat.marks = s.cat.marks := by
  unfold State.grantRead
  simp

@[simp] theorem State.grantSlot_marks (t c : Nat) (s : State) :
    (State.grantSlot t c s).cat.marks = s.cat.marks := by
  unfold State.grantSlot
  repeat' split
  all_goals simp [State.busBack_kept, State.grantLoad_kept]

@[simp] theorem State.countWindow_marks (t c line : Nat) (discarded : Bool) (s : State) :
    (State.countWindow t c line discarded s).cat.marks = s.cat.marks := by
  unfold State.countWindow
  dsimp only
  repeat' split
  all_goals simp

@[simp] theorem State.programFailed_marks (t c block spn cause : Nat) (s : State) :
    (State.programFailed t c block spn cause s).cat.marks = s.cat.marks := by
  unfold State.programFailed
  simp [State.cancelOps_kept, State.endOp_kept, *]

@[simp] theorem State.eraseFailed_marks (t c block cause : Nat) (s : State) :
    (State.eraseFailed t c block cause s).cat.marks = s.cat.marks := by
  unfold State.eraseFailed
  simp [State.cancelOps_kept, State.endOp_kept]

@[simp] theorem State.opStatus_marks (t : Nat) (s : State) (e : OpStatus) :
    (State.opStatus t s e).cat.marks = s.cat.marks := by
  unfold State.opStatus
  repeat' split
  all_goals simp [State.endOp_kept, State.stretch_kept, *]

@[simp] theorem State.checkPhase_marks (t : Nat) (ends : List OpStatus) (s : State) :
    (State.checkPhase t ends s).cat.marks = s.cat.marks := by
  unfold State.checkPhase
  simp [State.statusTaken_kept, State.unstretch_kept]

@[simp] theorem State.failTarget_marks (t c k : Nat) (s : State) :
    (State.failTarget t c k s).cat.marks = s.cat.marks := by
  unfold State.failTarget
  simp [State.showBlocks_kept]

@[simp] theorem State.expireStretch_marks (t c k block : Nat) (prog : Bool) (s : State) :
    (State.expireStretch t c k block prog s).cat.marks = s.cat.marks := by
  unfold State.expireStretch
  repeat' split
  all_goals simp [State.unstretch_kept]

@[simp] theorem State.dispatch_marks (t line : Nat) (s : State) :
    (State.dispatch t line s).cat.marks = s.cat.marks := by
  unfold State.dispatch
  dsimp only
  repeat' split
  all_goals simp [State.beginRead_kept, State.endLost_kept, State.hold_kept]

@[simp] theorem State.decoded_marks (t line c : Nat) (ecc : Ecc) (kidOk tagOk : Bool) (s : State) :
    (State.decoded t line c ecc kidOk tagOk s).cat.marks = s.cat.marks := by
  unfold State.decoded
  dsimp only
  repeat' split
  all_goals simp [State.ask_kept, State.checkDirect_kept, State.settleRead_kept]

@[simp] theorem State.scheduleCritical_marks (t : Nat) (s : State) :
    (State.scheduleCritical t s).cat.marks = s.cat.marks := by
  unfold State.scheduleCritical
  simp

@[simp] theorem State.pollMedia_marks (t c k : Nat) (e : Int) (s : State) :
    (State.pollMedia t c k e s).cat.marks = s.cat.marks := by
  unfold State.pollMedia
  simp [State.takeBack_kept]

@[simp] theorem State.mediaAlert_marks (t c k : Nat) (crc thermal : Bool) (s : State) :
    (State.mediaAlert t c k crc thermal s).cat.marks = s.cat.marks := by
  unfold State.mediaAlert
  simp

@[simp] theorem State.calSenses_marks (t c m n : Nat) (s : State) :
    (State.calSenses t c m n s).cat.marks = s.cat.marks := by
  unfold State.calSenses
  repeat' split
  all_goals simp

@[simp] theorem State.calibrate_marks (t c m : Nat) (l : List (Nat × Nat)) (s : State) :
    (State.calibrate t c m l s).cat.marks = s.cat.marks := by
  unfold State.calibrate
  repeat' split
  all_goals simp [State.calReads_kept, State.calTaken_kept]

@[simp] theorem State.scrubBits_marks (t c b n : Nat) (s : State) :
    (State.scrubBits t c b n s).cat.marks = s.cat.marks := by
  unfold State.scrubBits
  simp

@[simp] theorem State.scrubRead_marks (t c m spn : Nat) (ecc : Ecc) (forged : Option (Nat × Nat)) (s : State) :
    (State.scrubRead t c m spn ecc forged s).cat.marks = s.cat.marks := by
  unfold State.scrubRead
  repeat' split
  all_goals simp [State.scrubRebuild_kept, State.takeBack_kept]

/-! ### Passes -/

@[simp] theorem State.rescueRead_marks (t c line : Nat) (s : State) :
    (State.rescueRead t c line s).cat.marks = s.cat.marks := by
  unfold State.rescueRead
  repeat' split
  all_goals simp [State.ask_kept, State.settleRead_kept]

@[simp] theorem State.resetChannel_marks (t c : Nat) (s : State) :
    (State.resetChannel t c s).cat.marks = s.cat.marks := by
  unfold State.resetChannel
  simp

@[simp] theorem State.resetUnit_marks (r : PassReset) (s : State) :
    (State.resetUnit r s).cat.marks = s.cat.marks := by
  unfold State.resetUnit
  repeat' split
  all_goals simp [State.resetPortIsland_kept, *]

@[simp] theorem State.passReset_marks (r : PassReset) (items : Nat) (writes : Bool) (s : State) :
    (State.passReset r items writes s).cat.marks = s.cat.marks := by
  unfold State.passReset
  simp [State.closePasses_kept, State.disarm_kept]

/-! ### Curators -/

@[simp] theorem State.mbRequest_marks (port code : Nat) (fits : Bool) (body : State → Status × Nat × State) (s : State)
    (h : ∀ s, (body s).2.2.cat.marks = s.cat.marks) : (State.mbRequest port code fits body s).cat.marks = s.cat.marks := by
  have hb := h s
  unfold State.mbRequest
  repeat' split
  all_goals simp_all [State.mbAnswer_kept]

@[simp] theorem State.curPasses_marks (t : Nat) (orderly : Bool) (s : State) :
    (State.curPasses t orderly s).cat.marks = s.cat.marks := by
  unfold State.curPasses
  simp

@[simp] theorem State.takeOver_marks (p : Nat) (s : State) :
    (State.takeOver p s).cat.marks = s.cat.marks := by
  unfold State.takeOver
  simp [State.dropQueue_kept, State.makePrimary_kept, State.roleChanged_kept]

@[simp] theorem State.restartFrom_marks (t b : Nat) (s : State) :
    (State.restartFrom t b s).cat.marks = s.cat.marks := by
  unfold State.restartFrom
  simp

@[simp] theorem State.activateSwap_marks (p : Nat) (a : Activation) (s : State) :
    (State.activateSwap p a s).cat.marks = s.cat.marks := by
  unfold State.activateSwap
  simp [State.copyImage_kept]

@[simp] theorem State.synced_marks (p : Nat) (s : State) :
    (State.synced p s).cat.marks = s.cat.marks := by
  unfold State.synced
  repeat' split
  all_goals simp [State.activateDone_kept]

@[simp] theorem State.curReset_marks (t : Nat) (s : State) :
    (State.curReset t s).cat.marks = s.cat.marks := by
  unfold State.curReset
  simp [State.dropQueue_kept]

@[simp] theorem State.startActivation_marks (c : Ctx) (p : Nat) (v f : Word) (s : State) :
    (State.startActivation c p v f s).cat.marks = s.cat.marks := by
  unfold State.startActivation
  simp [State.dropQueue_kept, State.leaveQueue_kept]

@[simp] theorem State.fwActivate_marks (c : Ctx) (s : State) :
    (State.fwActivate c s).cat.marks = s.cat.marks := by
  unfold State.fwActivate
  repeat' split
  all_goals simp

/-! ### Data protection -/

@[simp] theorem State.dropFolios_marks (p : Nat → Bool) (s : State) :
    (State.dropFolios p s).cat.marks = s.cat.marks := by
  unfold State.dropFolios
  simp [State.clearEv_kept, State.vacate_kept]

@[simp] theorem State.unbindFolios_marks (p : Nat → Bool) (s : State) :
    (State.unbindFolios p s).cat.marks = s.cat.marks := by
  unfold State.unbindFolios
  simp

@[simp] theorem State.bindRanges_marks (k : Nat) (fresh : Bool) (l : List (Nat × Nat)) (s : State) :
    (State.bindRanges k fresh l s).cat.marks = s.cat.marks := by
  unfold State.bindRanges
  simp [State.bindRegion_kept, State.newKey_kept]

@[simp] theorem State.keyCreate_marks (c : Ctx) (k b n : Nat) (s : State) :
    (State.keyCreate c k b n s).cat.marks = s.cat.marks := by
  unfold State.keyCreate
  repeat' split
  all_goals simp [State.rotateKey_kept, *]

@[simp] theorem State.keyRetire_marks (k : Nat) (s : State) :
    (State.keyRetire k s).after.cat.marks = s.cat.marks := by
  unfold State.keyRetire
  dsimp only
  repeat' split
  all_goals simp

/-! ### Media commands -/

@[simp] theorem State.emptySpace_marks (s : State) :
    (State.emptySpace s).cat.marks = s.cat.marks := by
  unfold State.emptySpace
  simp

@[simp] theorem State.formatPart_marks (spare : Nat) (s : State) :
    (State.formatPart spare s).cat.marks = s.cat.marks := by
  unfold State.formatPart
  simp [State.emptyKids_kept, State.newBaselines_kept, State.withSetting_kept]

@[simp] theorem State.format_marks (spare : Nat) (s : State) :
    (State.format spare s).after.cat.marks = s.cat.marks := by
  unfold State.format
  repeat' split
  all_goals simp [*]

/-! ### Lifecycle -/

@[simp] theorem State.mbToken_marks (t : Token) (purpose bind : Nat) (signer : Nat → Bool)
    (body : State → Status × Nat × State) (s : State) (h : ∀ s, (body s).2.2.cat.marks = s.cat.marks) :
    (State.mbToken t purpose bind signer body s).2.2.cat.marks = s.cat.marks := by
  unfold State.mbToken
  repeat' split
  all_goals simp [State.useToken_kept, h]

@[simp] theorem State.enableSensor_marks (t k : Nat) (on : Bool) (s : State) :
    (State.enableSensor t k on s).cat.marks = s.cat.marks := by
  unfold State.enableSensor
  simp

@[simp] theorem State.sensorSwitch_marks (t k op : Nat) (s : State) :
    (State.sensorSwitch t k op s).2.2.cat.marks = s.cat.marks := by
  unfold State.sensorSwitch
  repeat' split
  all_goals simp [*]

@[simp] theorem State.loseStaged_marks (s : State) :
    (State.loseStaged s).cat.marks = s.cat.marks := by
  unfold State.loseStaged
  simp

@[simp] theorem State.zeroize_marks (s : State) :
    (State.zeroize s).cat.marks = s.cat.marks := by
  unfold State.zeroize
  simp

@[simp] theorem State.reopen_marks (s : State) :
    (State.reopen s).cat.marks = s.cat.marks := by
  unfold State.reopen
  simp [State.emptyKids_kept, State.newDdrKeys_kept, State.setLife_kept]

@[simp] theorem State.moveLife_marks (target : Nat) (s : State) :
    (State.moveLife target s).2.2.cat.marks = s.cat.marks := by
  unfold State.moveLife
  repeat' split
  all_goals simp [State.setLife_kept]

@[simp] theorem State.scrap_marks (t : Nat) (s : State) :
    (State.scrap t s).cat.marks = s.cat.marks := by
  unfold State.scrap
  simp [State.setLife_kept]

@[simp] theorem State.trip_marks (t k : Nat) (reading : DWord) (s : State) :
    (State.trip t k reading s).cat.marks = s.cat.marks := by
  unfold State.trip
  simp

/-! ### Power states -/

@[simp] theorem State.toShelf_marks (s : State) :
    (State.toShelf s).cat.marks = s.cat.marks := by
  unfold State.toShelf
  simp

@[simp] theorem State.transition_marks (x : Transition) (s : State) :
    (State.transition x s).cat.marks = s.cat.marks := by
  unfold State.transition
  repeat' split
  all_goals simp [State.endTransition_kept, State.replyTransition_kept, State.routesQuiet_kept, State.toHold_kept,
    State.toRun_kept]

/-! ### Resets of the part -/

@[simp] theorem State.loseVaon_marks (s : State) :
    (State.loseVaon s).cat.marks = s.cat.marks := by
  unfold State.loseVaon
  simp [State.loseSources_kept, State.loseUnstored_kept]

@[simp] theorem State.powerOn_marks (s : State) :
    (State.powerOn s).cat.marks = s.cat.marks := by
  unfold State.powerOn
  simp [State.chooseProgram_kept, State.rebootCurators_kept, State.sampleStraps_kept, State.zeroTimes_kept]

@[simp] theorem State.coldStart_marks (s : State) :
    (State.coldStart s).cat.marks = s.cat.marks := by
  unfold State.coldStart
  simp [State.rebootCurators_kept]

@[simp] theorem State.warmStart_marks (s : State) :
    (State.warmStart s).cat.marks = s.cat.marks := by
  unfold State.warmStart
  simp [*]

@[simp] theorem State.resetLow_marks (s : State) :
    (State.resetLow s).cat.marks = s.cat.marks := by
  unfold State.resetLow
  dsimp only
  repeat' split
  all_goals simp

@[simp] theorem State.writePartReset_marks (p w : Nat) (s : State) :
    (State.writePartReset p w s).cat.marks = s.cat.marks := by
  unfold State.writePartReset
  repeat' split
  all_goals simp [*]

@[simp] theorem State.perstFalls_marks (p : Nat) (s : State) :
    (State.perstFalls p s).cat.marks = s.cat.marks := by
  unfold State.perstFalls
  simp

/-! ### Boot -/

@[simp] theorem State.trainChan_marks (t c : Nat) (e : BootEnv) (s : State) :
    (State.trainChan t c e s).cat.marks = s.cat.marks := by
  unfold State.trainChan
  simp

@[simp] theorem State.badBlocks_marks (t : Nat) (e : BootEnv) (s : State) :
    (State.badBlocks t e s).cat.marks = s.cat.marks := by
  unfold State.badBlocks
  simp [State.blockWindow_kept]

@[simp] theorem State.missTargets_marks (t : Nat) (s : State) :
    (State.missTargets t s).cat.marks = s.cat.marks := by
  unfold State.missTargets
  simp

@[simp] theorem State.bootTile_marks (e : BootEnv) (t : Nat) (s : State) :
    (State.bootTile e t s).cat.marks = s.cat.marks := by
  unfold State.bootTile
  simp [State.foundTarget_kept, State.measure_kept, State.saddlesUp_kept, State.setMedia_kept]

@[simp] theorem State.bootReady_marks (e : BootEnv) (s : State) :
    (State.bootReady e s).cat.marks = s.cat.marks := by
  unfold State.bootReady
  simp [State.bootSpare_kept, State.newBoot_kept, State.reportReady_kept]

/-! ### Seals -/

@[simp] theorem State.sealReaches_marks (t n : Nat) (g : Sealing) (s : State) :
    (State.sealReaches t n g s).cat.marks = s.cat.marks := by
  unfold State.sealReaches
  simp [State.beginWalk_kept, State.markTile_kept]

@[simp] theorem State.writeMarker_marks (t : Nat) (s : State) :
    (State.writeMarker t s).cat.marks = s.cat.marks := by
  unfold State.writeMarker
  simp

/-! ### BAR0 -/

/-- Whatever operation a part-wide address names. -/
theorem State.writePart_marks (p off w : Nat) (s t : State) (h : State.writePart p off w s = some t) :
    t.cat.marks = s.cat.marks := by
  unfold State.writePart at h
  repeat' split at h
  all_goals cases h
  all_goals simp [State.mbWrite_kept, State.writeClaim_kept, State.writeGctrl_kept, State.writeMsix_kept]

end Sys2Proof.Machine
end

section
/-! What every command leaves as it was (R1, R11): the queue, the member, part time, and no mark of an operation that waits. -/

namespace Sys2Proof.Machine

/-- Neither mark of an operation that waits, or ends with the security halt, is set (assumption 99). -/
def State.noMarks (s : State) : Prop := s.cat.marks = (false, none)

theorem State.noMarks_iff (s : State) : s.noMarks ↔ s.cat.stuck = false ∧ s.cat.forged = none := Prod.mk.injEq .. ▸ Iff.rfl

theorem State.noMarks_of_marks {s t : State} (h : t.cat.marks = s.cat.marks) (hs : s.noMarks) : t.noMarks := h.trans hs

/-! ## Operations that set the marks for their own use -/

/-- Pressing an operation forgets what would have made it wait. -/
@[simp] theorem State.pressed_marks (f : State → State) (s : State) : (s.pressed f).cat.marks = s.cat.marks := rfl

/-- A whole operation ends with no mark: it takes back what it did where one was set (assumption 99). -/
theorem State.whole_noMarks {s : State} (f : State → State) (hs : s.noMarks) : (s.whole f).noMarks := by
  unfold State.whole
  dsimp only
  split
  case h_1 => exact State.noMarks_of_marks (by simp) hs
  case h_2 hforged =>
    split
    case isTrue => exact State.noMarks_of_marks (by simp) hs
    case isFalse hstuck =>
      have hf : (f s).noMarks := (State.noMarks_iff _).mpr ⟨by simpa using hstuck, hforged⟩
      exact State.noMarks_of_marks (by simp [State.undoTriggers_kept]) hf

/-- The requests a port holds are each served whole (R105). -/
theorem State.serveHeld_noMarks {s : State} (p : Nat) (l : List HeldAccess) (hs : s.noMarks) : (s.serveHeld p l).noMarks := by
  induction l generalizing s with
  | nil => exact State.noMarks_of_marks (by simp [State.serveHeld]) hs
  | cons x l ih =>
    unfold State.serveHeld
    dsimp only
    split
    case h_1 => exact State.noMarks_of_marks (by simp) hs
    case h_2 hforged =>
      split
      case isTrue => exact State.noMarks_of_marks (by simp) hs
      case isFalse hstuck =>
        have hx : (s.serveDw p x).noMarks := (State.noMarks_iff _).mpr ⟨by simpa using hstuck, hforged⟩
        exact ih (State.noMarks_of_marks (by simp [State.undoTriggers_kept]) hx)

theorem State.actHeld_noMarks {s : State} (hs : s.noMarks) : s.actHeld.noMarks :=
  State.noMarks_of_marks (by simp [State.actHeld_kept]) hs

theorem State.releaseHeld_noMarks {s : State} (p : Nat) (hs : s.noMarks) : (s.releaseHeld p).noMarks :=
  State.noMarks_of_marks (by simp [State.releaseHeld, State.actHeld_kept, State.closeLate_kept])
    (State.serveHeld_noMarks p (s.port p).heldDw hs)

theorem State.takeDw_noMarks {s : State} (p : Nat) (h : HeldAccess) (hs : s.noMarks) : (s.takeDw p h).noMarks := by
  have held : (((s.pmcEdge p 0x60 0).wake).holdDw p h).noMarks := State.noMarks_of_marks (by simp [State.holdDw_kept]) hs
  unfold State.takeDw
  dsimp only
  split
  · exact held
  · exact State.releaseHeld_noMarks p held

theorem foldl_noMarks {A : Type} {f : State → A → State} (h : ∀ s x, s.noMarks → (f s x).noMarks) (l : List A) {s : State}
    (hs : s.noMarks) : (l.foldl f s).noMarks := by
  induction l generalizing s with
  | nil => exact hs
  | cons x l ih => exact ih (h s x hs)

/-- The end of a rollback serves what the ports held (R105). -/
theorem State.endRollback_noMarks {s : State} (hs : s.noMarks) : s.endRollback.noMarks := by
  unfold State.endRollback
  dsimp only
  refine State.actHeld_noMarks (foldl_noMarks (fun u p hu => State.releaseHeld_noMarks p hu) _ ?_)
  exact State.noMarks_of_marks (by simp [State.captureRollback_kept, State.cohRollback_kept, State.releaseMisses_kept,
    State.resealPower_kept, State.routesRollback_kept, State.undoLow_kept]) hs

/-- A reset of a tile presses on with its coherence state (R222). -/
@[simp] theorem State.resetTile_marks (t : Nat) (s : State) : (s.resetTile t).cat.marks = s.cat.marks := by
  unfold State.resetTile
  simp [State.disablePorts_kept, State.writeBackNodes_kept]

@[simp] theorem State.tileReset_marks (t : Nat) (s : State) : (s.tileReset t).cat.marks = s.cat.marks := by
  unfold State.tileReset
  simp [State.closeNeighbours_kept, State.resetHostSide_kept]

/-- Ways are locked as a whole operation (R223). -/
theorem State.writeNcLock_noMarks {s : State} (p t value : Nat) (hs : s.noMarks) : (s.writeNcLock p t value).noMarks := by
  unfold State.writeNcLock
  dsimp only
  split
  · exact State.noMarks_of_marks (by simp) hs
  · exact State.whole_noMarks _ hs

theorem State.writeTile_noMarks {s t : State} (p k o w : Nat) (hs : s.noMarks) (h : s.writeTile p k o w = some t) :
    t.noMarks := by
  unfold State.writeTile at h
  split at h
  case isTrue =>
    cases h
    exact State.writeNcLock_noMarks p k w hs
  case isFalse =>
    dsimp only at h
    repeat' split at h
    all_goals cases h
    all_goals exact State.noMarks_of_marks (by simp [State.actOnSlot_kept]) hs

theorem State.writeWord_noMarks {s : State} (p off w : Nat) (hs : s.noMarks) : (s.writeWord p off w).noMarks := by
  unfold State.writeWord
  dsimp only
  split
  · exact hs
  · split
    case h_1 t ht =>
      split at ht
      · exact State.writeTile_noMarks _ _ _ _ hs ht
      · exact State.noMarks_of_marks (State.writePart_marks _ _ _ _ _ ht) hs
    case h_2 =>
      split
      · exact State.noMarks_of_marks (by simp [State.writePlain_kept]) hs
      · exact hs

theorem State.bar0Write_noMarks {s : State} (p off size : Nat) (v : DWord) (hs : s.noMarks) :
    (s.bar0Write p off size v).noMarks := by
  unfold State.bar0Write
  repeat' split
  · exact State.writeWord_noMarks _ _ _ hs
  · exact State.writeWord_noMarks _ _ _ (State.writeWord_noMarks _ _ _ hs)
  · exact State.noMarks_of_marks (by simp [State.refuseAccess_kept]) hs

/-! ## Steady steps -/

/-- The queue, the member and part time are as they were. -/
def Anchored (s t : State) : Prop := t.pending = s.pending ∧ t.member = s.member ∧ t.now = s.now

/-- A step that leaves the queue, the member and part time, and no mark where there was none. -/
def Steady (s t : State) : Prop := Anchored s t ∧ (s.noMarks → t.noMarks)

theorem Steady.trans {s t u : State} (h : Steady s t) (g : Steady t u) : Steady s u := by
  obtain ⟨⟨hq, hm, hn⟩, hmarks⟩ := h
  obtain ⟨⟨gq, gm, gn⟩, gmarks⟩ := g
  exact ⟨⟨gq.trans hq, gm.trans hm, gn.trans hn⟩, gmarks ∘ hmarks⟩

theorem Steady.refl (s : State) : Steady s s := ⟨⟨rfl, rfl, rfl⟩, id⟩

/-- A step that leaves the marks as they were. -/
theorem steady_of {s t : State}
    (h : (t.pending = s.pending ∧ t.member = s.member ∧ t.now = s.now) ∧ t.cat.marks = s.cat.marks) : Steady s t :=
  ⟨h.1, State.noMarks_of_marks h.2⟩

/-- A whole operation clears up its marks (assumption 99). -/
theorem whole_steady {f : State → State} (h : ∀ s, Anchored s (f s)) (s : State) : Steady s (s.whole f) :=
  ⟨⟨State.whole_pending f s fun u => (h u).1, State.whole_member f s fun u => (h u).2.1,
    State.whole_now f s fun u => (h u).2.2⟩, State.whole_noMarks f⟩

theorem command_steady {opc src : Nat} {c : Ctx} {ps : List Param} {body : State → State} (h : ∀ s, Steady s (body s))
    (s : State) : Steady s (s.command opc src c ps body) := by
  have left : Steady s (s.leaveHead opc c) := steady_of (by simp [State.leaveHead_kept])
  unfold State.command
  split
  · exact steady_of (by simp [State.enqueue_kept])
  · split
    · split
      · exact left.trans (steady_of (by simp))
      · exact left.trans (h _)
    · exact Steady.refl s

/-! ## Steady rows -/

/-- A row, if it answers a next state, is steady. -/
def SteadyRow (o : Host.Outcome State Fault Refusal) (s : State) : Prop := ∀ t, o = .next t → Steady s t

theorem steadyRow_next {s t : State} (h : Steady s t) : SteadyRow (.next t) s := by
  rintro u ⟨⟩
  exact h

theorem steadyRow_unit {b : Bool} {f : State → State} {s : State} (h : Steady s (f s)) : SteadyRow (withUnit b f s) s := by
  cases b
  · exact steadyRow_next (Steady.refl s)
  · exact steadyRow_next h

theorem steadyRow_bar0 {p : Nat} {f : State → State} {s : State} (h : Steady s.commitStore (f s.commitStore)) :
    SteadyRow (s.bar0 p f) s :=
  steadyRow_unit ((steady_of (by simp)).trans h)

theorem steadyRow_tileWrite {p t : Nat} {ok : Bool} {f : State → State} {s : State}
    (h : Steady s.commitStore (f s.commitStore)) : SteadyRow (s.tileWrite p t ok f) s :=
  steadyRow_unit ((steady_of (by simp)).trans h)

theorem steadyRow_command {opc src : Nat} {c : Ctx} {ps : List Param} {body : State → State} {s : State}
    (h : ∀ u, Steady u (body u)) : SteadyRow (.next (s.command opc src c ps body)) s :=
  steadyRow_next (command_steady h s)

theorem steadyRow_wholeCommand {opc src : Nat} {c : Ctx} {ps : List Param} {f : State → State} {s : State}
    (h : ∀ u, Anchored u (f u)) : SteadyRow (.next (s.command opc src c ps (State.whole f))) s :=
  steadyRow_command (whole_steady h)

theorem steadyRow_wholeUnit {b : Bool} {f : State → State} {s : State} (h : ∀ u, Anchored u (f u)) :
    SteadyRow (withUnit b (State.whole f) s) s :=
  steadyRow_unit (whole_steady h s)

theorem takeDw_steady (p : Nat) (h : HeldAccess) (s : State) : Steady s (s.takeDw p h) :=
  ⟨by simp [Anchored], State.takeDw_noMarks p h⟩

theorem mbRequest_steady {port code : Nat} {fits : Bool} {body : State → Status × Nat × State} {s : State}
    (h : ∀ s, ((body s).2.2.pending = s.pending ∧ (body s).2.2.member = s.member ∧ (body s).2.2.now = s.now) ∧
      (body s).2.2.cat.marks = s.cat.marks) : Steady s (s.mbRequest port code fits body) :=
  steady_of ⟨⟨State.mbRequest_pending _ _ _ _ _ fun u => (h u).1.1, State.mbRequest_member _ _ _ _ _ fun u => (h u).1.2.1,
    State.mbRequest_now _ _ _ _ _ fun u => (h u).1.2.2⟩, State.mbRequest_marks _ _ _ _ _ fun u => (h u).2⟩

theorem reqRow_steady (q : Tkt) (peers : List Nat) (s : State) : SteadyRow (reqRow q peers s) s :=
  steadyRow_wholeUnit fun u => by simp [Anchored]

/-! ## The rows -/

theorem execPinLines_steady (c : Ctx) (tile : Byte) (pa : DWord) (lines : Word) (env : MediaEnv) (s : State) :
    SteadyRow (execPinLines c tile pa lines env s) s :=
  steadyRow_wholeCommand fun u => by
    unfold Anchored
    dsimp only
    repeat' split
    all_goals simp

theorem execUnpinLines_steady (c : Ctx) (tile : Byte) (pa : DWord) (lines : Word) (s : State) :
    SteadyRow (execUnpinLines c tile pa lines s) s :=
  steadyRow_wholeCommand fun u => by
    unfold Anchored
    dsimp only
    repeat' split
    all_goals simp

theorem execNcLockWrite_steady (port tile : Nat) (value : Word) (s : State) :
    SteadyRow (execNcLockWrite port tile value s) s :=
  steadyRow_tileWrite ⟨by simp [Anchored], State.writeNcLock_noMarks port tile value.toNat⟩

theorem execIdentify_steady (c : Ctx) (cns tile : Byte) (slot : Word) (own : SlotRead) (s : State) :
    SteadyRow (execIdentify c cns tile slot own s) s :=
  steadyRow_command fun u => steady_of (by simp)

theorem execGetFeature_steady (c : Ctx) (fid : Byte) (s : State) :
    SteadyRow (execGetFeature c fid s) s :=
  steadyRow_command fun u => steady_of <| by
    repeat' split
    all_goals simp

theorem execSetFeature_steady (c : Ctx) (fid : Byte) (value : DWord) (s : State) :
    SteadyRow (execSetFeature c fid value s) s :=
  steadyRow_command fun u => by
    split
    · exact steady_of (by simp)
    · split
      · exact steady_of (by simp)
      case h_2 t ht =>
        have kept := State.setFeature_kept _ _ _ _ ht
        exact steady_of (by simp [kept])

theorem execReadX_steady (c : Ctx) (pa : DWord) (len slot : Word) (own : SlotRead) (env : MediaEnv) (s : State) :
    SteadyRow (execReadX c pa len slot own env s) s :=
  steadyRow_wholeCommand fun u => by
    unfold Anchored
    repeat' split
    all_goals simp

theorem execWriteX_steady (c : Ctx) (pa : DWord) (len slot : Word) (own : SlotRead) (data : HostData) (env : MediaEnv)
    (s : State) :
    SteadyRow (execWriteX c pa len slot own data env s) s :=
  steadyRow_wholeCommand fun u => by
    unfold Anchored
    repeat' split
    all_goals simp

theorem execCopy_steady (c : Ctx) (src dst len : DWord) (env : MediaEnv) (s : State) :
    SteadyRow (execCopy c src dst len env s) s :=
  steadyRow_wholeCommand fun u => by
    unfold Anchored
    repeat' split
    all_goals simp

theorem execDiscard_steady (c : Ctx) (pa len : DWord) (s : State) :
    SteadyRow (execDiscard c pa len s) s :=
  steadyRow_wholeCommand fun u => by
    unfold Anchored
    repeat' split
    all_goals simp

theorem execZeroRange_steady (c : Ctx) (pa len : DWord) (env : MediaEnv) (s : State) :
    SteadyRow (execZeroRange c pa len env s) s :=
  steadyRow_wholeCommand fun u => by
    unfold Anchored
    repeat' split
    all_goals simp

theorem execFlushRange_steady (c : Ctx) (pa len : DWord) (s : State) :
    SteadyRow (execFlushRange c pa len s) s :=
  steadyRow_wholeCommand fun u => by
    unfold Anchored
    repeat' split
    all_goals simp

theorem execInvalRange_steady (c : Ctx) (pa len : DWord) (s : State) :
    SteadyRow (execInvalRange c pa len s) s :=
  steadyRow_wholeCommand fun u => by
    unfold Anchored
    repeat' split
    all_goals simp

theorem execEpochClose_steady (c : Ctx) (mode : Byte) (s : State) :
    SteadyRow (execEpochClose c mode s) s :=
  steadyRow_command fun u => steady_of (by simp)

theorem execEpochQuery_steady (c : Ctx) (mode : Byte) (s : State) :
    SteadyRow (execEpochQuery c mode s) s :=
  steadyRow_command fun u => steady_of <| by
    repeat' split
    all_goals simp

theorem execStripeProgram_steady (tile spn : Nat) (pieces : List Piece) (pad : Nat) (s : State) :
    SteadyRow (execStripeProgram tile spn pieces pad s) s :=
  steadyRow_wholeUnit fun u => by simp [Anchored]

theorem execStripeProgramDone_steady (tile spn : Nat) (s : State) :
    SteadyRow (execStripeProgramDone tile spn s) s :=
  steadyRow_wholeUnit fun u => by simp [Anchored]

theorem execCoolingSweep_steady (tile : Nat) (s : State) :
    SteadyRow (execCoolingSweep tile s) s :=
  steadyRow_unit (steady_of (by simp))

theorem execFolioMerge_steady (tile folio spn slot : Nat) (s : State) :
    SteadyRow (execFolioMerge tile folio spn slot s) s :=
  steadyRow_unit (steady_of (by simp))

theorem execWeedRelocate_steady (tile victim dest spn : Nat) (s : State) :
    SteadyRow (execWeedRelocate tile victim dest spn s) s :=
  steadyRow_unit (steady_of (by simp))

theorem execRelocVerifyDone_steady (tile : Nat) (ok : Bool) (s : State) :
    SteadyRow (execRelocVerifyDone tile ok s) s :=
  steadyRow_unit (steady_of (by simp))

theorem execRelocEraseDone_steady (tile : Nat) (ok : Bool) (s : State) :
    SteadyRow (execRelocEraseDone tile ok s) s :=
  steadyRow_unit (steady_of (by simp))

theorem execLostScanDone_steady (tile : Nat) (s : State) :
    SteadyRow (execLostScanDone tile s) s :=
  steadyRow_unit (steady_of (by simp))

theorem execRebuildScan_steady (tile : Nat) (s : State) :
    SteadyRow (execRebuildScan tile s) s :=
  steadyRow_unit (steady_of (by simp))

theorem execReqReadS_steady (src line : Nat) (env : MediaEnv) (peers : List Nat) (s : State) :
    SteadyRow (execReqReadS src line env peers s) s :=
  reqRow_steady _ _ s

theorem execReqReadX_steady (src line : Nat) (env : MediaEnv) (peers : List Nat) (s : State) :
    SteadyRow (execReqReadX src line env peers s) s :=
  reqRow_steady _ _ s

theorem execUpgrade_steady (src line : Nat) (env : MediaEnv) (peers : List Nat) (s : State) :
    SteadyRow (execUpgrade src line env peers s) s :=
  reqRow_steady _ _ s

theorem execClaim_steady (src line epoch : Nat) (peers : List Nat) (s : State) :
    SteadyRow (execClaim src line epoch peers s) s :=
  reqRow_steady _ _ s

theorem execEvict_steady (src line : Nat) (c : Content) (s : State) :
    SteadyRow (execEvict src line c s) s :=
  steadyRow_wholeUnit fun u => by simp [Anchored]

theorem execWriteback_steady (src line : Nat) (c : Content) (s : State) :
    SteadyRow (execWriteback src line c s) s :=
  steadyRow_wholeUnit fun u => by simp [Anchored]

theorem execSnpS_steady (dst line : Nat) (s : State) :
    SteadyRow (execSnpS dst line s) s :=
  steadyRow_unit (steady_of (by simp))

theorem execSnpI_steady (dst line : Nat) (s : State) :
    SteadyRow (execSnpI dst line s) s :=
  steadyRow_unit (steady_of (by simp))

theorem execSnpF_steady (dst line : Nat) (s : State) :
    SteadyRow (execSnpF dst line s) s :=
  steadyRow_unit (steady_of (by simp))

theorem execData_steady (dst line : Nat) (g : Grant) (c : Content) (s : State) :
    SteadyRow (execData dst line g c s) s :=
  steadyRow_wholeUnit fun u => by simp [Anchored]

theorem execGrant_steady (dst line : Nat) (s : State) :
    SteadyRow (execGrant dst line s) s :=
  steadyRow_wholeUnit fun u => by simp [Anchored]

theorem execNack_steady (dst line : Nat) (s : State) :
    SteadyRow (execNack dst line s) s :=
  steadyRow_unit (steady_of (by simp))

theorem execNackResend_steady (dst line : Nat) (s : State) :
    SteadyRow (execNackResend dst line s) s :=
  steadyRow_unit <| steady_of <| by
    repeat' split
    all_goals simp

theorem execTicket_steady (dst line num : Nat) (s : State) :
    SteadyRow (execTicket dst line num s) s :=
  steadyRow_unit (steady_of (by simp))

theorem execEvictAck_steady (dst line : Nat) (s : State) :
    SteadyRow (execEvictAck dst line s) s :=
  steadyRow_wholeUnit fun u => by simp [Anchored]

theorem execWbAck_steady (dst line : Nat) (s : State) :
    SteadyRow (execWbAck dst line s) s :=
  steadyRow_unit (steady_of (by simp))

theorem execAckNp_steady (src line : Nat) (s : State) :
    SteadyRow (execAckNp src line s) s :=
  steadyRow_wholeUnit fun u => by
    unfold Anchored
    repeat' split
    all_goals simp

theorem execAckI_steady (src line : Nat) (kind : AckKind) (c : Option Content) (s : State) :
    SteadyRow (execAckI src line kind c s) s :=
  steadyRow_wholeUnit fun u => by
    unfold Anchored
    repeat' split
    all_goals simp

theorem execAckD_steady (src line : Nat) (c : Content) (s : State) :
    SteadyRow (execAckD src line c s) s :=
  steadyRow_wholeUnit fun u => by simp [Anchored]

theorem execGone_steady (src line : Nat) (s : State) :
    SteadyRow (execGone src line s) s :=
  steadyRow_wholeUnit fun u => by
    unfold Anchored
    repeat' split
    all_goals simp

theorem execDone_steady (src line : Nat) (s : State) :
    SteadyRow (execDone src line s) s :=
  steadyRow_wholeUnit fun u => by
    unfold Anchored
    repeat' split
    all_goals simp

theorem execVictimEvict_steady (tile line : Nat) (s : State) :
    SteadyRow (execVictimEvict tile line s) s :=
  steadyRow_unit (steady_of (by simp))

theorem execPinnedRefill_steady (tile line : Nat) (s : State) :
    SteadyRow (execPinnedRefill tile line s) s :=
  steadyRow_unit (steady_of (by simp))

theorem execSqDoorbell_steady (port sq : Nat) (tail : BitVec 12) (s : State) :
    SteadyRow (execSqDoorbell port sq tail s) s :=
  steadyRow_bar0 (steady_of (by simp))

theorem execCqDoorbell_steady (port cq : Nat) (head : BitVec 12) (s : State) :
    SteadyRow (execCqDoorbell port cq head s) s :=
  steadyRow_bar0 (steady_of (by simp))

theorem execSqCfgWrite_steady (port sq : Nat) (value : Word) (s : State) :
    SteadyRow (execSqCfgWrite port sq value s) s :=
  steadyRow_bar0 (steady_of (by simp))

theorem execCqCfgWrite_steady (port cq : Nat) (value : Word) (s : State) :
    SteadyRow (execCqCfgWrite port cq value s) s :=
  steadyRow_bar0 (steady_of (by simp))

theorem execFetchResume_steady (port : Nat) (s : State) :
    SteadyRow (execFetchResume port s) s :=
  steadyRow_bar0 (steady_of (by simp))

theorem execSqFetchIssue_steady (port : Nat) (s : State) :
    SteadyRow (execSqFetchIssue port s) s :=
  steadyRow_unit (steady_of (by simp))

theorem execSqFetchReturn_steady (port sq first : Nat) (entries : List Fetched) (s : State) :
    SteadyRow (execSqFetchReturn port sq first entries s) s :=
  steadyRow_unit (steady_of (by simp))

theorem execFencedCommandStart_steady (port sq : Nat) (s : State) :
    SteadyRow (execFencedCommandStart port sq s) s :=
  steadyRow_unit (steady_of (by simp))

theorem execCuratorCommandExecute_steady (s : State) :
    SteadyRow (execCuratorCommandExecute s) s :=
  steadyRow_next (steady_of (by simp))

theorem execCompletionCollect_steady (port : Nat) (credit : Bool) (s : State) :
    SteadyRow (execCompletionCollect port credit s) s :=
  steadyRow_unit (steady_of (by simp))

theorem execCqCoalTimer_steady (port cq : Nat) (s : State) :
    SteadyRow (execCqCoalTimer port cq s) s :=
  steadyRow_unit (steady_of (by simp))

theorem execMsixPendingSend_steady (port vector : Nat) (s : State) :
    SteadyRow (execMsixPendingSend port vector s) s :=
  steadyRow_unit (steady_of (by simp))

theorem execXwWinCfgWrite_steady (port win : Nat) (value : Word) (s : State) :
    SteadyRow (execXwWinCfgWrite port win value s) s :=
  steadyRow_bar0 (steady_of (by simp))

theorem execWindowDrainEnd_steady (port win : Nat) (s : State) :
    SteadyRow (execWindowDrainEnd port win s) s :=
  steadyRow_unit (steady_of (by simp))

theorem execDwAptWrite_steady (port : Nat) (value : Word) (s : State) :
    SteadyRow (execDwAptWrite port value s) s :=
  steadyRow_bar0 (steady_of (by simp))

theorem execDwRead_steady (port : Nat) (offset : DWord) (len : Nat) (env : MediaEnv) (s : State) :
    SteadyRow (execDwRead port offset len env s) s := by
  refine steadyRow_unit ?_
  split
  · exact Steady.refl s
  · split
    · exact steady_of (by simp)
    · split
      · exact Steady.refl s
      · exact takeDw_steady ..

theorem execDwStore_steady (port : Nat) (offset : DWord) (bytes : List (Option Byte)) (env : MediaEnv) (s : State) :
    SteadyRow (execDwStore port offset bytes env s) s := by
  refine steadyRow_unit ?_
  split
  · exact Steady.refl s
  · exact takeDw_steady ..

theorem execEnable_steady (s : State) :
    SteadyRow (execEnable s) s :=
  steadyRow_next <| steady_of <| by
    repeat' split
    all_goals simp

theorem execDisable_steady (s : State) :
    SteadyRow (execDisable s) s :=
  steadyRow_next <| steady_of <| by
    repeat' split
    all_goals simp

theorem execWait_steady (s : State) :
    SteadyRow (execWait s) s :=
  steadyRow_next <| steady_of <| by
    repeat' split
    all_goals simp

theorem execCheck_steady (s : State) :
    SteadyRow (execCheck s) s :=
  steadyRow_next <| steady_of <| by
    repeat' split
    all_goals simp

theorem execJumpStep_steady (s : State) :
    SteadyRow (execJumpStep s) s :=
  steadyRow_next <| steady_of <| by
    repeat' split
    all_goals simp

theorem execSeqEnd_steady (s : State) :
    SteadyRow (execSeqEnd s) s :=
  steadyRow_next <| steady_of <| by
    repeat' split
    all_goals simp

theorem execMonitorScan_steady (monitor mv : Nat) (s : State) :
    SteadyRow (execMonitorScan monitor mv s) s :=
  steadyRow_unit (steady_of (by simp))

theorem execHoldOffExpiry_steady (s : State) :
    SteadyRow (execHoldOffExpiry s) s :=
  steadyRow_next (steady_of (by simp))

theorem execPwrOffReq_steady (s : State) :
    SteadyRow (execPwrOffReq s) s :=
  steadyRow_next (steady_of (by simp))

theorem execPwrOnReq_steady (s : State) :
    SteadyRow (execPwrOnReq s) s :=
  steadyRow_next (steady_of (by simp))

theorem execSupplyOkFall_steady (s : State) :
    SteadyRow (execSupplyOkFall s) s :=
  steadyRow_next (steady_of (by simp))

theorem execSupplyOkReturn_steady (s : State) :
    SteadyRow (execSupplyOkReturn s) s :=
  steadyRow_next (steady_of (by simp))

theorem execResetNRelease_steady (s : State) :
    SteadyRow (execResetNRelease s) s :=
  steadyRow_next (steady_of (by simp))

theorem execSeqCommit_steady (port : Nat) (s : State) :
    SteadyRow (execSeqCommit port s) s :=
  steadyRow_bar0 (steady_of (by simp))

theorem execSeqCommitDone_steady (flashOk : Bool) (s : State) :
    SteadyRow (execSeqCommitDone flashOk s) s :=
  steadyRow_next (steady_of (by simp))

theorem execSensorConvert_steady (tile sensor : Nat) (eighths : Int) (s : State) :
    SteadyRow (execSensorConvert tile sensor eighths s) s :=
  steadyRow_unit (steady_of (by simp))

theorem execConversionMissed_steady (tile sensor : Nat) (s : State) :
    SteadyRow (execConversionMissed tile sensor s) s :=
  steadyRow_unit (steady_of (by simp))

theorem execPowerdownWaitEnd_steady (s : State) :
    SteadyRow (execPowerdownWaitEnd s) s :=
  steadyRow_next <| steady_of <| by
    repeat' split
    all_goals simp

theorem execDdrTempPoll_steady (tile k : Nat) (hottest : Int) (above : Bool) (s : State) :
    SteadyRow (execDdrTempPoll tile k hottest above s) s :=
  steadyRow_unit (steady_of (by simp))

theorem execGetLog_steady (c : Ctx) (log tile : Byte) (slot : Word) (own : SlotRead) (offset : DWord) (s : State) :
    SteadyRow (execGetLog c log tile slot own offset s) s :=
  steadyRow_command fun u => steady_of (by simp)

theorem execClearLog_steady (c : Ctx) (log tile : Byte) (slot : Word) (tok : Token) (s : State) :
    SteadyRow (execClearLog c log tile slot tok s) s :=
  steadyRow_next (steady_of (by simp))

theorem execAnnalsMirror_steady (cur tile : Nat) (flashOk : Bool) (s : State) :
    SteadyRow (execAnnalsMirror cur tile flashOk s) s :=
  steadyRow_unit (steady_of (by simp))

theorem execSpareSample_steady (s : State) :
    SteadyRow (execSpareSample s) s :=
  steadyRow_next (steady_of (by simp))

theorem execSensorHistorySample_steady (s : State) :
    SteadyRow (execSensorHistorySample s) s :=
  steadyRow_next (steady_of (by simp))

theorem execAnlRdLoad_steady (port : Nat) (seq : Word) (s : State) :
    SteadyRow (execAnlRdLoad port seq s) s :=
  steadyRow_bar0 (steady_of (by simp))

theorem execDdrBurstRead_steady (tile sub block device : Nat) (ecc : Ecc) (macOk : Bool) (s : State) :
    SteadyRow (execDdrBurstRead tile sub block device ecc macOk s) s :=
  steadyRow_unit (steady_of (by simp))

theorem execDdrScrubStep_steady (tile block : Nat) (ecc : Ecc) (s : State) :
    SteadyRow (execDdrScrubStep tile block ecc s) s :=
  steadyRow_unit (steady_of (by simp))

theorem execTractFirstWrite_steady (tile tract : Nat) (s : State) :
    SteadyRow (execTractFirstWrite tile tract s) s :=
  steadyRow_unit (steady_of (by simp))

theorem execMinorOverflow_steady (tile leaf : Nat) (s : State) :
    SteadyRow (execMinorOverflow tile leaf s) s :=
  steadyRow_unit (steady_of (by simp))

theorem execCounterEvict_steady (tile node : Nat) (s : State) :
    SteadyRow (execCounterEvict tile node s) s :=
  steadyRow_unit (steady_of (by simp))

theorem execDdrRekey_steady (port tile : Nat) (s : State) :
    SteadyRow (execDdrRekey port tile s) s :=
  steadyRow_tileWrite (steady_of (by simp))

theorem execDdrRekeyDone_steady (tile : Nat) (s : State) :
    SteadyRow (execDdrRekeyDone tile s) s :=
  steadyRow_unit (steady_of (by simp))

theorem execSramScrubStep_steady (tile array way : Nat) (dirty : Bool) (ecc : Ecc) (s : State) :
    SteadyRow (execSramScrubStep tile array way dirty ecc s) s :=
  steadyRow_wholeUnit fun u => by simp [Anchored]

theorem execRouteDefine_steady (c : Ctx) (tile : Byte) (route : BitVec 16) (slot count : Word) (latency : BitVec 16)
    (port : Byte) (own : SlotRead) (data : HostData) (s : State) :
    SteadyRow (execRouteDefine c tile route slot count latency port own data s) s :=
  steadyRow_command fun u => steady_of (by simp)

theorem execRouteArm_steady (c : Ctx) (tile : Byte) (route vector : BitVec 16) (start : Byte) (s : State) :
    SteadyRow (execRouteArm c tile route vector start s) s :=
  steadyRow_command fun u => steady_of <| by
    dsimp only
    repeat' split
    all_goals simp

theorem execRouteRetire_steady (c : Ctx) (tile : Byte) (route : BitVec 16) (mode : Byte) (s : State) :
    SteadyRow (execRouteRetire c tile route mode s) s :=
  steadyRow_command fun u => steady_of <| by
    dsimp only
    repeat' split
    all_goals simp

theorem execRetireComplete_steady (tile route : Nat) (s : State) :
    SteadyRow (execRetireComplete tile route s) s :=
  steadyRow_unit <| steady_of <| by
    dsimp only
    repeat' split
    all_goals simp

theorem execSwitchTakeEffect_steady (tile sp : Nat) (s : State) :
    SteadyRow (execSwitchTakeEffect tile sp s) s :=
  steadyRow_unit (steady_of (by simp))

theorem execPrefetchRead_steady (tile sp : Nat) (env : MediaEnv) (s : State) :
    SteadyRow (execPrefetchRead tile sp env s) s :=
  steadyRow_wholeUnit fun u => by simp [Anchored]

theorem execLineArrive_steady (tile sp line : Nat) (_c : Content) (s : State) :
    SteadyRow (execLineArrive tile sp line _c s) s :=
  steadyRow_unit <| steady_of <| by
    dsimp only
    repeat' split
    all_goals simp

theorem execDataFlitSend_steady (tile sp cycle : Nat) (s : State) :
    SteadyRow (execDataFlitSend tile sp cycle s) s :=
  steadyRow_unit (steady_of (by simp))

theorem execLandingReeval_steady (tile entry : Nat) (s : State) :
    SteadyRow (execLandingReeval tile entry s) s :=
  steadyRow_unit <| steady_of <| by
    repeat' split
    all_goals simp

theorem execHomeStatePublish_steady (home : Nat) (s : State) :
    SteadyRow (execHomeStatePublish home s) s :=
  steadyRow_unit (steady_of (by simp))

theorem execIngestRead_steady (tile sp : Nat) (upset : BitVec 82) (s : State) :
    SteadyRow (execIngestRead tile sp upset s) s :=
  steadyRow_wholeUnit fun u => by simp [Anchored]

theorem execRecordCommit_steady (tile sp region : Nat) (s : State) :
    SteadyRow (execRecordCommit tile sp region s) s :=
  steadyRow_wholeUnit fun u => by simp [Anchored]

theorem execCaptureOpen_steady (c : Ctx) (tile port region flags : Byte) (vector : BitVec 16) (pa len : DWord) (s : State) :
    SteadyRow (execCaptureOpen c tile port region flags vector pa len s) s :=
  steadyRow_command fun u => steady_of <| by
    dsimp only
    repeat' split
    all_goals simp

theorem execCaptureClose_steady (c : Ctx) (tile port region mode : Byte) (s : State) :
    SteadyRow (execCaptureClose c tile port region mode s) s :=
  steadyRow_command fun u => steady_of <| by
    dsimp only
    repeat' split
    all_goals simp

theorem execCaptureDrain_steady (c : Ctx) (tile port region : Byte) (s : State) :
    SteadyRow (execCaptureDrain c tile port region s) s :=
  steadyRow_wholeCommand fun u => by simp [Anchored]

theorem execSlkBondWrite_steady (port tile : Nat) (value : Word) (s : State) :
    SteadyRow (execSlkBondWrite port tile value s) s :=
  steadyRow_tileWrite (steady_of (by simp))

theorem execSlkPortCfgWrite_steady (port tile sp : Nat) (value : Word) (s : State) :
    SteadyRow (execSlkPortCfgWrite port tile sp value s) s :=
  steadyRow_tileWrite (steady_of (by simp))

theorem execSlkGcmKeyWrite_steady (port tile sp i : Nat) (value : Word) (s : State) :
    SteadyRow (execSlkGcmKeyWrite port tile sp i value s) s :=
  steadyRow_tileWrite (steady_of (by simp))

theorem execRekey_steady (port tile sp : Nat) (s : State) :
    SteadyRow (execRekey port tile sp s) s :=
  steadyRow_tileWrite (steady_of (by simp))

theorem execPortResetDone_steady (tile sp : Nat) (s : State) :
    SteadyRow (execPortResetDone tile sp s) s :=
  steadyRow_unit (steady_of (by simp))

theorem execSignalDetect_steady (tile sp : Nat) (s : State) :
    SteadyRow (execSignalDetect tile sp s) s :=
  steadyRow_unit (steady_of (by simp))

theorem execEqFrame_steady (tile sp lane : Nat) (control : BitVec 128) (inverted rxGood : Bool) (s : State) :
    SteadyRow (execEqFrame tile sp lane control inverted rxGood s) s :=
  steadyRow_unit (steady_of (by simp))

theorem execEqTimeout_steady (tile sp : Nat) (s : State) :
    SteadyRow (execEqTimeout tile sp s) s :=
  steadyRow_unit (steady_of (by simp))

theorem execLockMarker_steady (tile sp lane : Nat) (marker : BitVec 40) (phase : Byte) (s : State) :
    SteadyRow (execLockMarker tile sp lane marker phase s) s :=
  steadyRow_unit (steady_of (by simp))

theorem execLockTimeout_steady (tile sp : Nat) (s : State) :
    SteadyRow (execLockTimeout tile sp s) s :=
  steadyRow_unit (steady_of (by simp))

theorem execIdle_steady (tile sp : Nat) (f : Flit) (s : State) :
    SteadyRow (execIdle tile sp f s) s :=
  steadyRow_unit (steady_of (by simp))

theorem execReq_steady (tile sp cycle : Nat) (f : Flit) (s : State) :
    SteadyRow (execReq tile sp cycle f s) s :=
  steadyRow_unit (steady_of (by simp))

theorem execCap_steady (tile sp : Nat) (f : Flit) (s : State) :
    SteadyRow (execCap tile sp f s) s :=
  steadyRow_unit (steady_of (by simp))

theorem execConfig_steady (tile sp : Nat) (f : Flit) (s : State) :
    SteadyRow (execConfig tile sp f s) s :=
  steadyRow_unit (steady_of (by simp))

theorem execConfigAck_steady (tile sp : Nat) (f : Flit) (s : State) :
    SteadyRow (execConfigAck tile sp f s) s :=
  steadyRow_unit (steady_of (by simp))

theorem execConfigRepeat_steady (tile sp : Nat) (s : State) :
    SteadyRow (execConfigRepeat tile sp s) s :=
  steadyRow_unit (steady_of (by simp))

theorem execConfigTimeout_steady (tile sp : Nat) (s : State) :
    SteadyRow (execConfigTimeout tile sp s) s :=
  steadyRow_unit (steady_of (by simp))

theorem execRetrain_steady (tile sp : Nat) (cause : Byte) (s : State) :
    SteadyRow (execRetrain tile sp cause s) s :=
  steadyRow_unit (steady_of (by simp))

theorem execRetrainReceive_steady (tile sp : Nat) (f : Flit) (s : State) :
    SteadyRow (execRetrainReceive tile sp f s) s :=
  steadyRow_unit (steady_of (by simp))

theorem execBadFlit_steady (tile sp : Nat) (b : BadFlit) (s : State) :
    SteadyRow (execBadFlit tile sp b s) s :=
  steadyRow_unit (steady_of (by simp))

theorem execLaneSignalTimeout_steady (tile sp lane : Nat) (s : State) :
    SteadyRow (execLaneSignalTimeout tile sp lane s) s :=
  steadyRow_unit (steady_of (by simp))

theorem execTag_steady (tile sp : Nat) (f : Flit) (s : State) :
    SteadyRow (execTag tile sp f s) s :=
  steadyRow_unit (steady_of (by simp))

theorem execRekeyReceive_steady (tile sp : Nat) (f : Flit) (s : State) :
    SteadyRow (execRekeyReceive tile sp f s) s :=
  steadyRow_unit (steady_of (by simp))

theorem execTagTimeout_steady (tile sp : Nat) (s : State) :
    SteadyRow (execTagTimeout tile sp s) s :=
  steadyRow_unit <| steady_of <| by
    dsimp only
    repeat' split
    all_goals simp

theorem execRekeyTimeout_steady (tile sp : Nat) (s : State) :
    SteadyRow (execRekeyTimeout tile sp s) s :=
  steadyRow_unit <| steady_of <| by
    dsimp only
    repeat' split
    all_goals simp

theorem execGcmGroupClose_steady (tile sp : Nat) (s : State) :
    SteadyRow (execGcmGroupClose tile sp s) s :=
  steadyRow_unit <| steady_of <| by
    dsimp only
    repeat' split
    all_goals simp

theorem execSlotGrant_steady (tile ch : Nat) (s : State) :
    SteadyRow (execSlotGrant tile ch s) s :=
  steadyRow_unit (steady_of (by simp))

theorem execPhaseStart_steady (tile : Nat) (s : State) :
    SteadyRow (execPhaseStart tile s) s :=
  steadyRow_unit (steady_of (by simp))

theorem execPhaseStatusCheck_steady (tile : Nat) (ends : List OpStatus) (s : State) :
    SteadyRow (execPhaseStatusCheck tile ends s) s :=
  steadyRow_unit (steady_of (by simp))

theorem execStretchExpiry_steady (tile ch target block : Nat) (prog : Bool) (s : State) :
    SteadyRow (execStretchExpiry tile ch target block prog s) s :=
  steadyRow_unit (steady_of (by simp))

theorem execLineReadDispatch_steady (tile line : Nat) (s : State) :
    SteadyRow (execLineReadDispatch tile line s) s :=
  steadyRow_unit (steady_of (by simp))

theorem execCodewordDecoded_steady (tile line ch : Nat) (ecc : Ecc) (kidOk tagOk : Bool) (s : State) :
    SteadyRow (execCodewordDecoded tile line ch ecc kidOk tagOk s) s :=
  steadyRow_unit (steady_of (by simp))

theorem execRescueHoldTimeout_steady (tile ch line : Nat) (s : State) :
    SteadyRow (execRescueHoldTimeout tile ch line s) s :=
  steadyRow_unit (steady_of (by simp))

theorem execMediaTempPoll_steady (tile ch target : Nat) (eighths : Int) (s : State) :
    SteadyRow (execMediaTempPoll tile ch target eighths s) s :=
  steadyRow_unit (steady_of (by simp))

theorem execMediaAlert_steady (tile ch target : Nat) (crc thermal : Bool) (s : State) :
    SteadyRow (execMediaAlert tile ch target crc thermal s) s :=
  steadyRow_unit (steady_of (by simp))

theorem execCalibrationRead_steady (tile ch block : Nat) (corrected : List (Nat × Nat)) (s : State) :
    SteadyRow (execCalibrationRead tile ch block corrected s) s :=
  steadyRow_unit (steady_of (by simp))

theorem execMediaScrubRead_steady (tile ch block spn : Nat) (ecc : Ecc) (forged : Option (Nat × Nat)) (s : State) :
    SteadyRow (execMediaScrubRead tile ch block spn ecc forged s) s :=
  steadyRow_unit (steady_of (by simp))

theorem execPassReset_steady (r : PassReset) (items : Nat) (writes : Bool) (s : State) :
    SteadyRow (execPassReset r items writes s) s :=
  steadyRow_unit (steady_of (by simp))

theorem execPassReopen_steady (tile pass : Nat) (s : State) :
    SteadyRow (execPassReopen tile pass s) s :=
  steadyRow_unit (steady_of (by simp))

theorem execSaddleFrame_steady (tile k : Nat) (crcOk : Bool) (s : State) :
    SteadyRow (execSaddleFrame tile k crcOk s) s :=
  steadyRow_unit (steady_of (by simp))

theorem execMbClaim_steady (port : Nat) (s : State) :
    SteadyRow (execMbClaim port s) s :=
  steadyRow_bar0 (steady_of (by simp))

theorem execMbRelease_steady (port : Nat) (s : State) :
    SteadyRow (execMbRelease port s) s :=
  steadyRow_bar0 (steady_of (by simp))

theorem execMbIdleTimeout_steady (s : State) :
    SteadyRow (execMbIdleTimeout s) s :=
  steadyRow_next (steady_of (by simp))

theorem execCuratorTakeover_steady (cause : BitVec 2) (s : State) :
    SteadyRow (execCuratorTakeover cause s) s :=
  steadyRow_next <| steady_of <| by
    repeat' split
    all_goals simp

theorem execRoleSwap_steady (port : Nat) (s : State) :
    SteadyRow (execRoleSwap port s) s :=
  steadyRow_unit <| mbRequest_steady fun u => by
    repeat' split
    all_goals simp

theorem execHeartbeat_steady (cur : Nat) (s : State) :
    SteadyRow (execHeartbeat cur s) s :=
  steadyRow_unit (steady_of (by simp))

theorem execStandbySynced_steady (s : State) :
    SteadyRow (execStandbySynced s) s :=
  steadyRow_next <| steady_of <| by
    repeat' split
    all_goals simp

theorem execFwRestartTimeout_steady (cur : Nat) (s : State) :
    SteadyRow (execFwRestartTimeout cur s) s :=
  steadyRow_unit <| steady_of <| by
    repeat' split
    all_goals simp

theorem execCuratorRestartDone_steady (version : Word) (s : State) :
    SteadyRow (execCuratorRestartDone version s) s :=
  steadyRow_next <| steady_of <| by
    repeat' split
    all_goals simp

theorem execCurReset_steady (cur : Nat) (s : State) :
    SteadyRow (execCurReset cur s) s :=
  steadyRow_unit (steady_of (by simp))

theorem execFwStage_steady (c : Ctx) (slot : Word) (own : SlotRead) (offset : Word) (flags : Byte) (data : HostData)
    (sigOk : Bool) (s : State) :
    SteadyRow (execFwStage c slot own offset flags data sigOk s) s :=
  steadyRow_command fun u => steady_of (by simp)

theorem execFwActivate_steady (c : Ctx) (mode : Byte) (s : State) :
    SteadyRow (execFwActivate c mode s) s :=
  steadyRow_command fun u => steady_of (by simp)

theorem execAttest_steady (c : Ctx) (slot : Word) (own : SlotRead) (nonce : BitVec 256) (reserveOk : Bool) (s : State) :
    SteadyRow (execAttest c slot own nonce reserveOk s) s :=
  steadyRow_command fun u => steady_of <| by
    repeat' split
    all_goals simp

theorem execKeyCreate_steady (c : Ctx) (kid : Byte) (pa len : DWord) (s : State) :
    SteadyRow (execKeyCreate c kid pa len s) s :=
  steadyRow_command fun u => steady_of <| by
    repeat' split
    all_goals simp

theorem execKeyRetire_steady (c : Ctx) (kid : Byte) (slot : Word) (tok : Token) (s : State) :
    SteadyRow (execKeyRetire c kid slot tok s) s :=
  steadyRow_next (steady_of (by simp))

theorem execRightsSet_steady (c : Ctx) (kid master rights : Byte) (s : State) :
    SteadyRow (execRightsSet c kid master rights s) s :=
  steadyRow_command fun u => steady_of (by simp)

theorem execKeyRotationDone_steady (kid : Nat) (s : State) :
    SteadyRow (execKeyRotationDone kid s) s :=
  steadyRow_unit (steady_of (by simp))

theorem execHaltBroadcastArrive_steady (tile : Nat) (s : State) :
    SteadyRow (execHaltBroadcastArrive tile s) s :=
  steadyRow_unit (steady_of (by simp))

theorem execSpareStatus_steady (c : Ctx) (tile : Byte) (slot : Word) (own : SlotRead) (s : State) :
    SteadyRow (execSpareStatus c tile slot own s) s :=
  steadyRow_command fun u => steady_of (by simp)

theorem execFormat_steady (c : Ctx) (spare : Byte) (slot : Word) (tok : Token) (s : State) :
    SteadyRow (execFormat c spare slot tok s) s :=
  steadyRow_next (steady_of (by simp))

theorem execMediaProfile_steady (c : Ctx) (action tile channel target : Byte) (slot : Word) (own : SlotRead)
    (data : HostData) (s : State) :
    SteadyRow (execMediaProfile c action tile channel target slot own data s) s :=
  steadyRow_command fun u => steady_of (by simp)

theorem execSensorRead_steady (c : Ctx) (tile sensor : Byte) (s : State) :
    SteadyRow (execSensorRead c tile sensor s) s :=
  steadyRow_command fun u => steady_of <| by
    repeat' split
    all_goals simp

theorem execSensorDisable_steady (port : Nat) (tok : Token) (s : State) :
    SteadyRow (execSensorDisable port tok s) s :=
  steadyRow_unit (steady_of (by simp))

theorem execOwnerSet_steady (port : Nat) (key : BitVec 544) (s : State) :
    SteadyRow (execOwnerSet port key s) s :=
  steadyRow_unit (steady_of (by simp))

theorem execRootRevoke_steady (port : Nat) (tok : Token) (s : State) :
    SteadyRow (execRootRevoke port tok s) s :=
  steadyRow_unit <| mbRequest_steady fun u => by
    dsimp only
    repeat' split
    all_goals simp

theorem execLifecycle_steady (port : Nat) (tok : Token) (s : State) :
    SteadyRow (execLifecycle port tok s) s :=
  steadyRow_unit (steady_of (by simp))

theorem execTamperTrip_steady (tile sensor : Nat) (reading : DWord) (s : State) :
    SteadyRow (execTamperTrip tile sensor reading s) s :=
  steadyRow_unit (steady_of (by simp))

theorem execPowerState_steady (c : Ctx) (state : Byte) (s : State) :
    SteadyRow (execPowerState c state s) s :=
  steadyRow_command fun u => steady_of (by simp)

theorem execTransitionDone_steady (s : State) :
    SteadyRow (execTransitionDone s) s :=
  steadyRow_next <| steady_of <| by
    repeat' split
    all_goals simp

theorem execP3DurabilityTimeout_steady (s : State) :
    SteadyRow (execP3DurabilityTimeout s) s :=
  steadyRow_next <| steady_of <| by
    repeat' split
    all_goals simp

theorem execP1Wake_steady (s : State) :
    SteadyRow (execP1Wake s) s :=
  steadyRow_next (steady_of (by simp))

theorem execVaonFall_steady (s : State) :
    SteadyRow (execVaonFall s) s :=
  steadyRow_next (steady_of (by simp))

theorem execColdReset_steady (s : State) :
    SteadyRow (execColdReset s) s :=
  steadyRow_next (steady_of (by simp))

theorem execWarmReset_steady (port : Nat) (value : Word) (s : State) :
    SteadyRow (execWarmReset port value s) s :=
  steadyRow_bar0 (steady_of (by simp))

theorem execTileReset_steady (tile : Nat) (s : State) :
    SteadyRow (execTileReset tile s) s :=
  steadyRow_unit (steady_of (by simp))

theorem execFlr_steady (port : Nat) (s : State) :
    SteadyRow (execFlr port s) s :=
  steadyRow_unit (steady_of (by simp))

theorem execPerst_steady (port : Nat) (low : Bool) (s : State) :
    SteadyRow (execPerst port low s) s :=
  steadyRow_unit (steady_of (by simp))

theorem execHostLinkLoss_steady (port : Nat) (s : State) :
    SteadyRow (execHostLinkLoss port s) s :=
  steadyRow_unit (steady_of (by simp))

theorem execHostLinkUp_steady (port : Nat) (speed width : Byte) (msixEn fmask : Bool) (s : State) :
    SteadyRow (execHostLinkUp port speed width msixEn fmask s) s :=
  steadyRow_unit (steady_of (by simp))

theorem execBootReady_steady (b : BootEnv) (s : State) :
    SteadyRow (execBootReady b s) s :=
  steadyRow_next (steady_of (by simp))

theorem execPmcCfgWrite_steady (port tile i : Nat) (value : Word) (s : State) :
    SteadyRow (execPmcCfgWrite port tile i value s) s :=
  steadyRow_tileWrite (steady_of (by simp))

theorem execPmcCntWrite_steady (port tile i : Nat) (high : Bool) (value : Word) (s : State) :
    SteadyRow (execPmcCntWrite port tile i high value s) s :=
  steadyRow_tileWrite (steady_of (by simp))

theorem execClearTd_steady (port tile : Nat) (s : State) :
    SteadyRow (execClearTd port tile s) s :=
  steadyRow_tileWrite (steady_of (by simp))

theorem execClearProg_steady (port tile : Nat) (s : State) :
    SteadyRow (execClearProg port tile s) s :=
  steadyRow_tileWrite (steady_of (by simp))

theorem execFreeze_steady (port : Nat) (s : State) :
    SteadyRow (execFreeze port s) s :=
  steadyRow_bar0 (steady_of (by simp))

theorem execThaw_steady (port : Nat) (s : State) :
    SteadyRow (execThaw port s) s :=
  steadyRow_bar0 (steady_of (by simp))

theorem execSnap_steady (port : Nat) (s : State) :
    SteadyRow (execSnap port s) s :=
  steadyRow_bar0 (steady_of (by simp))

theorem execPmcActionAtT_steady (tile : Nat) (s : State) :
    SteadyRow (execPmcActionAtT tile s) s :=
  steadyRow_unit <| steady_of <| by
    repeat' split
    all_goals simp

theorem execEpoCtrlClose_steady (port : Nat) (s : State) :
    SteadyRow (execEpoCtrlClose port s) s :=
  steadyRow_bar0 (steady_of (by simp))

theorem execAutoCloseExpiry_steady (s : State) :
    SteadyRow (execAutoCloseExpiry s) s :=
  steadyRow_next (steady_of (by simp))

theorem execSealArrive_steady (tile : Nat) (s : State) :
    SteadyRow (execSealArrive tile s) s :=
  steadyRow_unit <| steady_of <| by
    repeat' split
    all_goals simp

theorem execSealReport_steady (tile : Nat) (s : State) :
    SteadyRow (execSealReport tile s) s :=
  steadyRow_unit <| steady_of <| by
    repeat' split
    all_goals simp

theorem execSealWalkStep_steady (tile : Nat) (s : State) :
    SteadyRow (execSealWalkStep tile s) s :=
  steadyRow_unit <| steady_of <| by
    repeat' split
    all_goals simp

theorem execMarkerWrite_steady (tile : Nat) (s : State) :
    SteadyRow (execMarkerWrite tile s) s :=
  steadyRow_unit (steady_of (by simp))

theorem execAbortStart_steady (s : State) :
    SteadyRow (execAbortStart s) s :=
  steadyRow_next (steady_of (by simp))

theorem execRollbackEnd_steady (s : State) :
    SteadyRow (execRollbackEnd s) s := by
  refine steadyRow_next ?_
  split
  · exact ⟨by simp [Anchored], State.endRollback_noMarks⟩
  · exact Steady.refl s

theorem execCoordinatorTakeover_steady (s : State) :
    SteadyRow (execCoordinatorTakeover s) s :=
  steadyRow_next (steady_of (by simp))

theorem execCoordinatorTakeback_steady (s : State) :
    SteadyRow (execCoordinatorTakeback s) s :=
  steadyRow_next (steady_of (by simp))

theorem execPartTimeFailover_steady (s : State) :
    SteadyRow (execPartTimeFailover s) s :=
  steadyRow_next (steady_of (by simp))

theorem execFaultInject_steady (c : Ctx) (tile : Byte) (source : BitVec 12) (slot : Word) (tok : Token) (mask : DWord)
    (count : BitVec 16) (s : State) :
    SteadyRow (execFaultInject c tile source slot tok mask count s) s :=
  steadyRow_next (steady_of (by simp))

theorem execFaultWindowEnd_steady (tile source : Nat) (s : State) :
    SteadyRow (execFaultWindowEnd tile source s) s :=
  steadyRow_unit (steady_of (by simp))

theorem execFltSrcCfgWrite_steady (port tile source : Nat) (value : Word) (s : State) :
    SteadyRow (execFltSrcCfgWrite port tile source value s) s :=
  steadyRow_tileWrite (steady_of (by simp))

theorem execEscalationCancel_steady (actor tile slot : Nat) (s : State) :
    SteadyRow (execEscalationCancel actor tile slot s) s :=
  steadyRow_unit (steady_of (by simp))

theorem execEscalationNow_steady (actor tile slot : Nat) (s : State) :
    SteadyRow (execEscalationNow actor tile slot s) s :=
  steadyRow_unit (steady_of (by simp))

theorem execEscalationExpiry_steady (tile slot : Nat) (s : State) :
    SteadyRow (execEscalationExpiry tile slot s) s :=
  steadyRow_unit (steady_of (by simp))

theorem execTileReady_steady (tile : Nat) (s : State) :
    SteadyRow (execTileReady tile s) s :=
  steadyRow_unit (steady_of (by simp))

theorem execTileReadyTimeout_steady (tile : Nat) (s : State) :
    SteadyRow (execTileReadyTimeout tile s) s :=
  steadyRow_unit (steady_of (by simp))

theorem execRegisterWrite_steady (port : Nat) (offset : BitVec 24) (size : Nat) (value : DWord) (s : State) :
    SteadyRow (execRegisterWrite port offset size value s) s :=
  steadyRow_bar0 ⟨by simp [Anchored], State.bar0Write_noMarks port offset.toNat size value⟩

/-- Power-on takes part time back to 0, and is steady but for that. -/
theorem execPor_kept {s t : State} (h : execPor s = .next t) :
    t.pending = s.pending ∧ t.member = s.member ∧ t.cat.marks = s.cat.marks := by
  cases h
  split <;> simp

/-! ## Every command -/

/-- Every command but POR is steady. -/
theorem exec_steady (c : Instr) (s : State) (h : c ≠ .por) : SteadyRow (exec c s) s :=
  match c with
  | .identify c cns tile slot own => execIdentify_steady c cns tile slot own s
  | .getFeature c fid => execGetFeature_steady c fid s
  | .setFeature c fid value => execSetFeature_steady c fid value s
  | .readX c pa len slot own env => execReadX_steady c pa len slot own env s
  | .writeX c pa len slot own data env => execWriteX_steady c pa len slot own data env s
  | .copy c src dst len env => execCopy_steady c src dst len env s
  | .zeroRange c pa len env => execZeroRange_steady c pa len env s
  | .discard c pa len => execDiscard_steady c pa len s
  | .flushRange c pa len => execFlushRange_steady c pa len s
  | .invalRange c pa len => execInvalRange_steady c pa len s
  | .epochClose c mode => execEpochClose_steady c mode s
  | .epochQuery c mode => execEpochQuery_steady c mode s
  | .routeDefine c tile route slot count latency port own data =>
      execRouteDefine_steady c tile route slot count latency port own data s
  | .routeArm c tile route vector start => execRouteArm_steady c tile route vector start s
  | .routeRetire c tile route mode => execRouteRetire_steady c tile route mode s
  | .pinLines c tile pa lines env => execPinLines_steady c tile pa lines env s
  | .unpinLines c tile pa lines => execUnpinLines_steady c tile pa lines s
  | .captureOpen c tile port region flags vector pa len => execCaptureOpen_steady c tile port region flags vector pa len s
  | .captureClose c tile port region mode => execCaptureClose_steady c tile port region mode s
  | .captureDrain c tile port region => execCaptureDrain_steady c tile port region s
  | .getLog c log tile slot own offset => execGetLog_steady c log tile slot own offset s
  | .clearLog c log tile slot tok => execClearLog_steady c log tile slot tok s
  | .sensorRead c tile sensor => execSensorRead_steady c tile sensor s
  | .faultInject c tile source slot tok mask count => execFaultInject_steady c tile source slot tok mask count s
  | .powerState c state => execPowerState_steady c state s
  | .fwStage c slot own offset flags data sigOk => execFwStage_steady c slot own offset flags data sigOk s
  | .fwActivate c mode => execFwActivate_steady c mode s
  | .attest c slot own nonce reserveOk => execAttest_steady c slot own nonce reserveOk s
  | .keyCreate c kid pa len => execKeyCreate_steady c kid pa len s
  | .keyRetire c kid slot tok => execKeyRetire_steady c kid slot tok s
  | .rightsSet c kid master rights => execRightsSet_steady c kid master rights s
  | .spareStatus c tile slot own => execSpareStatus_steady c tile slot own s
  | .format c spare slot tok => execFormat_steady c spare slot tok s
  | .mediaProfile c action tile channel target slot own data =>
      execMediaProfile_steady c action tile channel target slot own data s
  | .lifecycle port tok => execLifecycle_steady port tok s
  | .sensorDisable port tok => execSensorDisable_steady port tok s
  | .roleSwap port => execRoleSwap_steady port s
  | .ownerSet port key => execOwnerSet_steady port key s
  | .rootRevoke port tok => execRootRevoke_steady port tok s
  | .mbClaim port => execMbClaim_steady port s
  | .mbRelease port => execMbRelease_steady port s
  | .mbIdleTimeout => execMbIdleTimeout_steady s
  | .registerWrite port offset size value => execRegisterWrite_steady port offset size value s
  | .sqDoorbell port sq tail => execSqDoorbell_steady port sq tail s
  | .cqDoorbell port cq head => execCqDoorbell_steady port cq head s
  | .sqCfgWrite port sq value => execSqCfgWrite_steady port sq value s
  | .cqCfgWrite port cq value => execCqCfgWrite_steady port cq value s
  | .fetchResume port => execFetchResume_steady port s
  | .sqFetchIssue port => execSqFetchIssue_steady port s
  | .sqFetchReturn port sq first entries => execSqFetchReturn_steady port sq first entries s
  | .fencedCommandStart port sq => execFencedCommandStart_steady port sq s
  | .curatorCommandExecute => execCuratorCommandExecute_steady s
  | .completionCollect port credit => execCompletionCollect_steady port credit s
  | .cqCoalTimer port cq => execCqCoalTimer_steady port cq s
  | .msixPendingSend port vector => execMsixPendingSend_steady port vector s
  | .xwWinCfgWrite port win value => execXwWinCfgWrite_steady port win value s
  | .windowDrainEnd port win => execWindowDrainEnd_steady port win s
  | .dwAptWrite port value => execDwAptWrite_steady port value s
  | .dwRead port offset len env => execDwRead_steady port offset len env s
  | .dwStore port offset bytes env => execDwStore_steady port offset bytes env s
  | .epoCtrlClose port => execEpoCtrlClose_steady port s
  | .autoCloseExpiry => execAutoCloseExpiry_steady s
  | .sealArrive tile => execSealArrive_steady tile s
  | .sealReport tile => execSealReport_steady tile s
  | .sealWalkStep tile => execSealWalkStep_steady tile s
  | .markerWrite tile => execMarkerWrite_steady tile s
  | .abortStart => execAbortStart_steady s
  | .rollbackEnd => execRollbackEnd_steady s
  | .coordinatorTakeover => execCoordinatorTakeover_steady s
  | .coordinatorTakeback => execCoordinatorTakeback_steady s
  | .partTimeFailover => execPartTimeFailover_steady s
  | .stripeProgram tile spn pieces pad => execStripeProgram_steady tile spn pieces pad s
  | .stripeProgramDone tile spn => execStripeProgramDone_steady tile spn s
  | .coolingSweep tile => execCoolingSweep_steady tile s
  | .folioMerge tile folio spn slot => execFolioMerge_steady tile folio spn slot s
  | .weedRelocate tile victim dest spn => execWeedRelocate_steady tile victim dest spn s
  | .relocVerifyDone tile ok => execRelocVerifyDone_steady tile ok s
  | .relocEraseDone tile ok => execRelocEraseDone_steady tile ok s
  | .lostScanDone tile => execLostScanDone_steady tile s
  | .rebuildScan tile => execRebuildScan_steady tile s
  | .slotGrant tile ch => execSlotGrant_steady tile ch s
  | .phaseStart tile => execPhaseStart_steady tile s
  | .phaseStatusCheck tile ends => execPhaseStatusCheck_steady tile ends s
  | .stretchExpiry tile ch target block prog => execStretchExpiry_steady tile ch target block prog s
  | .lineReadDispatch tile line => execLineReadDispatch_steady tile line s
  | .codewordDecoded tile line ch ecc kidOk tagOk => execCodewordDecoded_steady tile line ch ecc kidOk tagOk s
  | .rescueHoldTimeout tile ch line => execRescueHoldTimeout_steady tile ch line s
  | .mediaTempPoll tile ch target eighths => execMediaTempPoll_steady tile ch target eighths s
  | .mediaAlert tile ch target crc thermal => execMediaAlert_steady tile ch target crc thermal s
  | .calibrationRead tile ch block corrected => execCalibrationRead_steady tile ch block corrected s
  | .mediaScrubRead tile ch block spn ecc forged => execMediaScrubRead_steady tile ch block spn ecc forged s
  | .ddrScrubStep tile block ecc => execDdrScrubStep_steady tile block ecc s
  | .sramScrubStep tile array way dirty ecc => execSramScrubStep_steady tile array way dirty ecc s
  | .reqReadS src line env peers => execReqReadS_steady src line env peers s
  | .reqReadX src line env peers => execReqReadX_steady src line env peers s
  | .upgrade src line env peers => execUpgrade_steady src line env peers s
  | .claim src line epoch peers => execClaim_steady src line epoch peers s
  | .evict src line c => execEvict_steady src line c s
  | .writeback src line c => execWriteback_steady src line c s
  | .snpS dst line => execSnpS_steady dst line s
  | .snpI dst line => execSnpI_steady dst line s
  | .snpF dst line => execSnpF_steady dst line s
  | .data dst line g c => execData_steady dst line g c s
  | .grant dst line => execGrant_steady dst line s
  | .nack dst line => execNack_steady dst line s
  | .nackResend dst line => execNackResend_steady dst line s
  | .ticket dst line num => execTicket_steady dst line num s
  | .evictAck dst line => execEvictAck_steady dst line s
  | .wbAck dst line => execWbAck_steady dst line s
  | .ackNp src line => execAckNp_steady src line s
  | .ackI src line kind c => execAckI_steady src line kind c s
  | .ackD src line c => execAckD_steady src line c s
  | .gone src line => execGone_steady src line s
  | .done src line => execDone_steady src line s
  | .victimEvict tile line => execVictimEvict_steady tile line s
  | .ncLockWrite port tile value => execNcLockWrite_steady port tile value s
  | .pinnedRefill tile line => execPinnedRefill_steady tile line s
  | .landingReeval tile entry => execLandingReeval_steady tile entry s
  | .slkBondWrite port tile value => execSlkBondWrite_steady port tile value s
  | .slkPortCfgWrite port tile sp value => execSlkPortCfgWrite_steady port tile sp value s
  | .slkGcmKeyWrite port tile sp idx value => execSlkGcmKeyWrite_steady port tile sp idx value s
  | .rekey port tile sp => execRekey_steady port tile sp s
  | .portResetDone tile sp => execPortResetDone_steady tile sp s
  | .signalDetect tile sp => execSignalDetect_steady tile sp s
  | .eqFrame tile sp lane control inverted rxGood => execEqFrame_steady tile sp lane control inverted rxGood s
  | .eqTimeout tile sp => execEqTimeout_steady tile sp s
  | .lockMarker tile sp lane marker phase => execLockMarker_steady tile sp lane marker phase s
  | .lockTimeout tile sp => execLockTimeout_steady tile sp s
  | .config tile sp f => execConfig_steady tile sp f s
  | .configAck tile sp f => execConfigAck_steady tile sp f s
  | .configRepeat tile sp => execConfigRepeat_steady tile sp s
  | .configTimeout tile sp => execConfigTimeout_steady tile sp s
  | .retrain tile sp cause => execRetrain_steady tile sp cause s
  | .idle tile sp f => execIdle_steady tile sp f s
  | .req tile sp cycle f => execReq_steady tile sp cycle f s
  | .cap tile sp f => execCap_steady tile sp f s
  | .tag tile sp f => execTag_steady tile sp f s
  | .rekeyReceive tile sp f => execRekeyReceive_steady tile sp f s
  | .retrainReceive tile sp f => execRetrainReceive_steady tile sp f s
  | .badFlit tile sp b => execBadFlit_steady tile sp b s
  | .tagTimeout tile sp => execTagTimeout_steady tile sp s
  | .rekeyTimeout tile sp => execRekeyTimeout_steady tile sp s
  | .gcmGroupClose tile sp => execGcmGroupClose_steady tile sp s
  | .dataFlitSend tile sp cycle => execDataFlitSend_steady tile sp cycle s
  | .switchTakeEffect tile sp => execSwitchTakeEffect_steady tile sp s
  | .prefetchRead tile sp env => execPrefetchRead_steady tile sp env s
  | .lineArrive tile sp line c => execLineArrive_steady tile sp line c s
  | .retireComplete tile route => execRetireComplete_steady tile route s
  | .ingestRead tile sp upset => execIngestRead_steady tile sp upset s
  | .recordCommit tile sp region => execRecordCommit_steady tile sp region s
  | .homeStatePublish home => execHomeStatePublish_steady home s
  | .passReset r items writes => execPassReset_steady r items writes s
  | .passReopen tile pass => execPassReopen_steady tile pass s
  | .saddleFrame tile k crcOk => execSaddleFrame_steady tile k crcOk s
  | .ddrBurstRead tile sub block device ecc macOk => execDdrBurstRead_steady tile sub block device ecc macOk s
  | .tractFirstWrite tile tract => execTractFirstWrite_steady tile tract s
  | .minorOverflow tile leaf => execMinorOverflow_steady tile leaf s
  | .counterEvict tile node => execCounterEvict_steady tile node s
  | .ddrRekey port tile => execDdrRekey_steady port tile s
  | .ddrRekeyDone tile => execDdrRekeyDone_steady tile s
  | .keyRotationDone kid => execKeyRotationDone_steady kid s
  | .ddrTempPoll tile k hottest above => execDdrTempPoll_steady tile k hottest above s
  | .haltBroadcastArrive tile => execHaltBroadcastArrive_steady tile s
  | .tamperTrip tile sensor reading => execTamperTrip_steady tile sensor reading s
  | .faultWindowEnd tile source => execFaultWindowEnd_steady tile source s
  | .fltSrcCfgWrite port tile source value => execFltSrcCfgWrite_steady port tile source value s
  | .escalationCancel actor tile slot => execEscalationCancel_steady actor tile slot s
  | .escalationNow actor tile slot => execEscalationNow_steady actor tile slot s
  | .escalationExpiry tile slot => execEscalationExpiry_steady tile slot s
  | .tileReadyTimeout tile => execTileReadyTimeout_steady tile s
  | .anlRdLoad port seq => execAnlRdLoad_steady port seq s
  | .annalsMirror cur tile flashOk => execAnnalsMirror_steady cur tile flashOk s
  | .spareSample => execSpareSample_steady s
  | .sensorHistorySample => execSensorHistorySample_steady s
  | .heartbeat cur => execHeartbeat_steady cur s
  | .curatorTakeover cause => execCuratorTakeover_steady cause s
  | .standbySynced => execStandbySynced_steady s
  | .sensorConvert tile sensor eighths => execSensorConvert_steady tile sensor eighths s
  | .powerdownWaitEnd => execPowerdownWaitEnd_steady s
  | .enable => execEnable_steady s
  | .disable => execDisable_steady s
  | .wait => execWait_steady s
  | .check => execCheck_steady s
  | .jumpStep => execJumpStep_steady s
  | .seqEnd => execSeqEnd_steady s
  | .monitorScan monitor mv => execMonitorScan_steady monitor mv s
  | .holdOffExpiry => execHoldOffExpiry_steady s
  | .pwrOffReq => execPwrOffReq_steady s
  | .pwrOnReq => execPwrOnReq_steady s
  | .supplyOkFall => execSupplyOkFall_steady s
  | .supplyOkReturn => execSupplyOkReturn_steady s
  | .vaonFall => execVaonFall_steady s
  | .por => absurd rfl h
  | .coldReset => execColdReset_steady s
  | .warmReset port value => execWarmReset_steady port value s
  | .tileReset tile => execTileReset_steady tile s
  | .flr port => execFlr_steady port s
  | .perst port low => execPerst_steady port low s
  | .hostLinkLoss port => execHostLinkLoss_steady port s
  | .curReset cur => execCurReset_steady cur s
  | .p1Wake => execP1Wake_steady s
  | .p3DurabilityTimeout => execP3DurabilityTimeout_steady s
  | .transitionDone => execTransitionDone_steady s
  | .bootReady b => execBootReady_steady b s
  | .seqCommit port => execSeqCommit_steady port s
  | .seqCommitDone flashOk => execSeqCommitDone_steady flashOk s
  | .pmcCfgWrite port tile idx value => execPmcCfgWrite_steady port tile idx value s
  | .pmcCntWrite port tile idx high value => execPmcCntWrite_steady port tile idx high value s
  | .clearTd port tile => execClearTd_steady port tile s
  | .clearProg port tile => execClearProg_steady port tile s
  | .freeze port => execFreeze_steady port s
  | .thaw port => execThaw_steady port s
  | .snap port => execSnap_steady port s
  | .pmcActionAtT tile => execPmcActionAtT_steady tile s
  | .laneSignalTimeout tile sp lane => execLaneSignalTimeout_steady tile sp lane s
  | .conversionMissed tile sensor => execConversionMissed_steady tile sensor s
  | .tileReady tile => execTileReady_steady tile s
  | .hostLinkUp port speed width msixEn fmask => execHostLinkUp_steady port speed width msixEn fmask s
  | .resetNRelease => execResetNRelease_steady s
  | .fwRestartTimeout cur => execFwRestartTimeout_steady cur s
  | .curatorRestartDone version => execCuratorRestartDone_steady version s

theorem step_cons {c : Instr} {rest : List Instr} {s : State} (h : s.pending = c :: rest) :
    step s = exec c { s with pending := rest } := by
  simp [step, h]

/-- Settles O55: every row but POR is steady, and POR is but for part time. -/
theorem commandsLeaveTheQueueAndMember : Obligations.CommandsLeaveTheQueueAndMember := by
  have queueAndMember : ∀ (c : Instr) (s t : State), exec c s = .next t → t.pending = s.pending ∧ t.member = s.member := by
    intro c s t h
    by_cases hc : c = .por
    · subst hc
      obtain ⟨hq, hm, -⟩ := execPor_kept h
      exact ⟨hq, hm⟩
    · obtain ⟨⟨hq, hm, -⟩, -⟩ := exec_steady c s hc t h
      exact ⟨hq, hm⟩
  unfold Obligations.CommandsLeaveTheQueueAndMember
  refine ⟨queueAndMember, ?now, ?marks, ?step⟩
  case now =>
    intro c s t hc h
    obtain ⟨⟨-, -, hn⟩, -⟩ := exec_steady c s hc t h
    exact hn
  case marks =>
    intro c s t hstuck hforged h
    have hs : s.noMarks := (State.noMarks_iff s).mpr ⟨hstuck, hforged⟩
    rw [← State.noMarks_iff]
    by_cases hc : c = .por
    · subst hc
      obtain ⟨-, -, hmarks⟩ := execPor_kept h
      exact State.noMarks_of_marks hmarks hs
    · exact (exec_steady c s hc t h).2 hs
  case step =>
    intro c rest s t hp h
    rw [step_cons hp] at h
    exact (queueAndMember c _ t h).1

end Sys2Proof.Machine
end

section
/-! Settles the step at a state with a command at the front of its queue (R20, R52). -/

namespace Sys2Proof.Machine

/-- Settles O50: `step_cons` at the queue `c :: rest`, whose tail put in its place is that of `s` with the queue `rest`. -/
theorem stepRunsTheFrontCommand : Obligations.StepRunsTheFrontCommand := by
  unfold Obligations.StepRunsTheFrontCommand
  intro c rest s
  exact step_cons (s := { s with pending := c :: rest }) rfl

end Sys2Proof.Machine
end

section
/-! The rings of a host port: what vectors, records, doorbells and configuration writes leave of them (R43 to R46). -/

namespace Sys2Proof.Machine

/-! ## Tables -/

theorem tput_tput_self {V : Type} (m : Tbl V) (k : Nat) (v w : V) : tput (tput m k v) k w = tput m k w := by
  induction m with
  | nil => simp [tput]
  | cons e m ih =>
    rcases Nat.lt_trichotomy k e.1 with h | h | h
    · simp [tput, h]
    · simp [tput, h]
    · simp [tput, Nat.lt_asymm h, Nat.ne_of_gt h, ih]

theorem tdrop_idem {V : Type} (p : Nat → Bool) (m : Tbl V) : tdrop p (tdrop p m) = tdrop p m := by
  simp [tdrop]

/-- Writing an entry once more as it is changes nothing. -/
@[simp] theorem tset_tset_same {V : Type} [DecidableEq V] (d : Nat → V) (m : Tbl V) (k : Nat) (v : V) :
    tset d (tset d m k v) k v = tset d m k v := by
  unfold tset
  split
  · exact tdrop_idem _ m
  · exact tput_tput_self m k v v

@[simp] theorem State.setCq_setCq_same (p n : Nat) (v : Cq) (s : State) : (s.setCq p n v).setCq p n v = s.setCq p n v := by
  simp [State.setCq]

/-! ## Vectors and records -/

/-- A raise changes no more of the host side than its pending bits. -/
@[simp] theorem State.raiseVector_host (p v : Nat) (s : State) :
    (s.raiseVector p v).host.ports = s.host.ports ∧ (s.raiseVector p v).host.sqs = s.host.sqs ∧
    (s.raiseVector p v).host.cqs = s.host.cqs ∧ (s.raiseVector p v).host.cmds = s.host.cmds ∧
    (s.raiseVector p v).host.srcQ = s.host.srcQ ∧ (s.raiseVector p v).host.srcWait = s.host.srcWait := by
  unfold State.raiseVector
  split
  · simp
  · split <;> simp

@[simp] theorem State.raiseOn_host (p k : Nat) (s : State) :
    (s.raiseOn p k).host.ports = s.host.ports ∧ (s.raiseOn p k).host.sqs = s.host.sqs ∧
    (s.raiseOn p k).host.cqs = s.host.cqs ∧ (s.raiseOn p k).host.cmds = s.host.cmds ∧
    (s.raiseOn p k).host.srcQ = s.host.srcQ ∧ (s.raiseOn p k).host.srcWait = s.host.srcWait := by
  unfold State.raiseOn
  split <;> simp

@[simp] theorem State.refusedWrite_rings (k a o w p n : Nat) (s : State) :
    (s.refusedWrite k a o w).sq p n = s.sq p n ∧ (s.refusedWrite k a o w).cq p n = s.cq p n := by
  simp [State.sq, State.cq]

@[simp] theorem State.refusedWrite_port (k a o w p : Nat) (s : State) : (s.refusedWrite k a o w).port p = s.port p := by
  simp [State.port]

@[simp] theorem State.ringRecord_rings (q a v p n : Nat) (s : State) :
    (s.ringRecord q a v).sq p n = s.sq p n ∧ (s.ringRecord q a v).cq p n = s.cq p n := by
  simp [State.sq, State.cq]

@[simp] theorem State.raiseOn_rings (q k p n : Nat) (s : State) :
    (s.raiseOn q k).sq p n = s.sq p n ∧ (s.raiseOn q k).cq p n = s.cq p n := by
  simp [State.sq, State.cq]

@[simp] theorem State.setSq_cq (q m : Nat) (v : Sq) (p n : Nat) (s : State) : (s.setSq q m v).cq p n = s.cq p n := rfl

@[simp] theorem State.setCq_sq (q m : Nat) (v : Cq) (p n : Nat) (s : State) : (s.setCq q m v).sq p n = s.sq p n := rfl

/-! ## Errors -/

@[simp] theorem State.sqError_sq (p n code : Nat) (s : State) :
    (s.sqError p n code).sq p n = { s.sq p n with err := true, code := BitVec.ofNat 5 code } := by
  simp [State.sqError]

@[simp] theorem State.sqError_cq (q m code p n : Nat) (s : State) : (s.sqError q m code).cq p n = s.cq p n := by
  simp [State.sqError]

theorem foldl_sqError_cq (q code : Nat) (l : List Nat) (p n : Nat) (s : State) :
    (l.foldl (fun s m => s.sqError q m code) s).cq p n = s.cq p n := by
  induction l generalizing s with
  | nil => rfl
  | cons m l ih => rw [List.foldl_cons, ih, State.sqError_cq]

/-- A CQ in error keeps all but its error and code. -/
theorem State.cqError_cq (p n code : Nat) (s : State) :
    (s.cqError p n code).cq p n = { s.cq p n with err := true, code := BitVec.ofNat 5 code } := by
  simp [State.cqError, foldl_sqError_cq]

theorem State.bindError_ok {p n : Nat} {s : State} (h : (s.cq p (s.sq p n).cq.toNat).err = false) : s.bindError p n = s := by
  simp [State.bindError, h]

theorem State.bindError_sq {p n : Nat} {s : State} (h : (s.cq p (s.sq p n).cq.toNat).err = true)
    (he : (s.sq p n).err = false) : (s.bindError p n).sq p n = { s.sq p n with err := true, code := 4 } := by
  simp [State.bindError, h, he]

/-! ## Held completions -/

/-- A CQ that holds no completion has none to write. -/
theorem State.deliverHeld_none {p n : Nat} {v : Cq} {s : State} (h : v.held = []) :
    (s.setCq p n v).deliverHeld p n = s.setCq p n v := by
  have hv : { v with held := [] } = v := by rw [← h]
  simp [State.deliverHeld, h, hv]

/-! ## Rows -/

theorem exec_sqDoorbell {p n : Nat} {v : BitVec 12} {s : State} (h : s.takesWrite p = true) (hn : n < 64) :
    exec (.sqDoorbell p n v) s = .next (s.commitStore.sqTail p n v.toNat) := by
  have : exec (.sqDoorbell p n v) s = s.bar0 p (fun s => s.sqTail p (n % 64) v.toNat) := rfl
  rw [this, bar0_open _ _ _ h, Nat.mod_eq_of_lt hn]

theorem exec_cqDoorbell {p n : Nat} {v : BitVec 12} {s : State} (h : s.takesWrite p = true) (hn : n < 64) :
    exec (.cqDoorbell p n v) s = .next (s.commitStore.cqHead p n v.toNat) := by
  have : exec (.cqDoorbell p n v) s = s.bar0 p (fun s => s.cqHead p (n % 64) v.toNat) := rfl
  rw [this, bar0_open _ _ _ h, Nat.mod_eq_of_lt hn]

/-- Settles O1: the branches of `sqTail` and of `cqHead`, each with the ring it leaves. -/
theorem doorbellRule : Obligations.DoorbellRule := by
  unfold Obligations.DoorbellRule
  refine ⟨?sqSet, ?sqRange, ?sqOff, ?sqErr, ?cqSet, ?cqPast, ?cqRange, ?cqErr, ?cqOff⟩
  case sqSet =>
    intro p n v s h hn hen herr hv
    rw [exec_sqDoorbell h hn]
    simp [State.sqTail, hen, herr, hv]
  case sqRange =>
    intro p n v s h hn hen herr hv
    rw [exec_sqDoorbell h hn]
    simp [State.sqTail, hen, herr, hv]
  case sqOff =>
    intro p n v s h hn hen
    rw [exec_sqDoorbell h hn]
    simp [State.sqTail, hen]
  case sqErr =>
    intro p n v s h hn hen herr
    rw [exec_sqDoorbell h hn]
    simp [State.sqTail, hen, herr]
  case cqSet =>
    intro p n v s h hn hen herr hheld hv hd
    rw [exec_cqDoorbell h hn]
    simp [State.cqHead, hen, herr, Nat.not_le.mpr hv, Nat.not_lt.mpr hd, State.deliverHeld_none, hheld]
  case cqPast =>
    intro p n v s h hn hen herr hv hd
    rw [exec_cqDoorbell h hn]
    simp [State.cqHead, hen, herr, Nat.not_le.mpr hv, hd, State.cqError_cq]
  case cqRange =>
    intro p n v s h hn hen herr hv
    rw [exec_cqDoorbell h hn]
    simp [State.cqHead, hen, herr, hv, State.cqError_cq]
  case cqErr =>
    intro p n v s h hn hen herr
    rw [exec_cqDoorbell h hn]
    simp [State.cqHead, hen, herr]
  case cqOff =>
    intro p n v s h hn hen
    rw [exec_cqDoorbell h hn]
    simp [State.cqHead, hen]

end Sys2Proof.Machine
end

section
/-! What a configuration write leaves of a ring (R43, R44, R46). -/

namespace Sys2Proof.Machine

theorem exec_sqCfgWrite {p n : Nat} {w : Word} {s : State} (h : s.takesWrite p = true) (hn : n < 64) :
    exec (.sqCfgWrite p n w) s = .next (s.commitStore.writeSqCfg p n w.toNat) := by
  have : exec (.sqCfgWrite p n w) s = s.bar0 p (fun s => s.writeSqCfg p (n % 64) w.toNat) := rfl
  rw [this, bar0_open _ _ _ h, Nat.mod_eq_of_lt hn]

theorem exec_cqCfgWrite {p n : Nat} {w : Word} {s : State} (h : s.takesWrite p = true) (hn : n < 64) :
    exec (.cqCfgWrite p n w) s = .next (s.commitStore.writeCqCfg p n w.toNat) := by
  have : exec (.cqCfgWrite p n w) s = s.bar0 p (fun s => s.writeCqCfg p (n % 64) w.toNat) := rfl
  rw [this, bar0_open _ _ _ h, Nat.mod_eq_of_lt hn]

/-! ## The fields that a configuration write takes -/

@[simp] theorem Sq.fields_state (q : Sq) (w : Nat) :
    (q.fields w).enable = q.enable ∧ (q.fields w).err = q.err ∧ (q.fields w).code = q.code := ⟨rfl, rfl, rfl⟩

@[simp] theorem Cq.fields_state (q : Cq) (w : Nat) :
    (q.fields w).enable = q.enable ∧ (q.fields w).held = q.held ∧ (q.fields w).unsig = q.unsig := ⟨rfl, rfl, rfl⟩

/-- Vectors 64 to 127 are not taken (R44). -/
theorem Cq.fields_vector {q : Cq} {w : Nat} (hlo : 64 ≤ bits w 10 0) (hhi : bits w 10 0 ≤ 127) :
    (q.fields w).vector = q.vector := by
  simp [Cq.fields, hlo, hhi]

/-! ## Coalescing and delivery leave the vector of a ring -/

@[simp] theorem State.raiseVector_cq (q v p n : Nat) (s : State) : (s.raiseVector q v).cq p n = s.cq p n := by
  simp [State.cq]

@[simp] theorem State.pmcEdge_cq (t ev i p n : Nat) (s : State) : (s.pmcEdge t ev i).cq p n = s.cq p n := by
  simp [State.cq]

@[simp] theorem State.emit_cq (o : Out) (p n : Nat) (s : State) : (s.emit o).cq p n = s.cq p n := rfl

/-- With the interrupt disabled nothing is signalled. -/
theorem State.coalesce_intOff {p n : Nat} {s : State} (h : (s.cq p n).intEn = false) : s.coalesce p n = s := by
  simp [State.coalesce, h]

/-- Nor where no entry is unsignalled. -/
theorem State.coalesce_none {p n : Nat} {s : State} (h : (s.cq p n).unsig = 0) : s.coalesce p n = s := by
  simp [State.coalesce, State.coalesced, h]

@[simp] theorem State.coalesce_vector (p n : Nat) (s : State) : ((s.coalesce p n).cq p n).vector = (s.cq p n).vector := by
  unfold State.coalesce State.signalCq
  dsimp only
  split <;> simp

@[simp] theorem State.enterCqe_vector (p n : Nat) (e : Cqe) (s : State) :
    ((s.enterCqe p n e).cq p n).vector = (s.cq p n).vector := by
  unfold State.enterCqe
  dsimp only
  split <;> simp [Cq.entered]

theorem foldl_enterCqe_vector (p n : Nat) (es : List Cqe) (s : State) :
    ((es.foldl (fun s e => s.enterCqe p n e) s).cq p n).vector = (s.cq p n).vector := by
  induction es generalizing s with
  | nil => rfl
  | cons e es ih => rw [List.foldl_cons, ih, State.enterCqe_vector]

@[simp] theorem State.writeCqes_vector (p n : Nat) (es : List Cqe) (s : State) :
    ((s.writeCqes p n es).cq p n).vector = (s.cq p n).vector := by
  unfold State.writeCqes
  dsimp only
  rw [foldl_enterCqe_vector]
  repeat' split
  all_goals rfl

@[simp] theorem State.deliver_vector (p n : Nat) (es : List Cqe) (s : State) :
    ((s.deliver p n es).cq p n).vector = (s.cq p n).vector := by
  simp [State.deliver]

@[simp] theorem State.deliverHeld_vector (p n : Nat) (s : State) :
    ((s.deliverHeld p n).cq p n).vector = (s.cq p n).vector := by
  have delivered (es : List Cqe) (s : State) :
      ((es.foldl (fun s e => s.deliver p n [e]) s).cq p n).vector = (s.cq p n).vector := by
    induction es generalizing s with
    | nil => rfl
    | cons e es ih => rw [List.foldl_cons, ih, State.deliver_vector]
  simp [State.deliverHeld, delivered]

/-! ## The branches of a configuration write -/

/-- Setting enable starts an SQ of 2 or more entries (R43). -/
theorem writeSqCfg_start {p n w : Nat} {s : State} (hen : (s.sq p n).enable = false) (hset : bits w 31 31 = 1)
    (hsize : ((s.sq p n).fields w).sizeM1 ≠ 0) :
    s.writeSqCfg p n w =
      (s.setSq p n { (s.sq p n).fields w with enable := true, err := false, code := 0, head := 0, tail := 0 }).bindError
        p n := by
  have hone : (((s.sq p n).fields w).sizeM1 == 0) = false := beq_false_of_ne hsize
  simp only [State.writeSqCfg, hen, hset, hone, beq_self_eq_true, Bool.and_false, Bool.false_eq_true, if_false, if_true]

/-- Clearing enable stops an SQ and drops the data of its outstanding fetches (R44). -/
theorem writeSqCfg_stop {p n w : Nat} {s : State} (hen : (s.sq p n).enable = true) (hclear : bits w 31 31 = 0) :
    (s.writeSqCfg p n w).sq p n = { s.sq p n with enable := false } ∧
    ((s.writeSqCfg p n w).port p).fetches =
      (s.port p).fetches.map (fun x => if x.sq == n && x.got.isNone then { x with dead := true } else x) := by
  unfold State.writeSqCfg
  dsimp only
  rw [if_pos hen, if_neg (by simp [hclear])]
  constructor
  · exact State.setSq_sq ..
  · rw [State.setPort_port]
    split <;> simp

/-- Setting enable starts a CQ of 2 or more entries, with phase 1 (R43), and writes what it holds. -/
theorem writeCqCfg_start {p n w : Nat} {s : State} (hen : (s.cq p n).enable = false) (hset : bits w 31 31 = 1)
    (hsize : ((s.cq p n).fields w).sizeM1 ≠ 0) (hvec : bits w 10 0 < 64 ∨ 127 < bits w 10 0) :
    s.writeCqCfg p n w =
      ((s.setCq p n { (s.cq p n).fields w with
          enable := true, err := false, code := 0, head := 0, tail := 0, phase := true }).coalesce p n).deliverHeld
        p n := by
  have hone : (((s.cq p n).fields w).sizeM1 == 0) = false := beq_false_of_ne hsize
  have hok : decide (64 ≤ bits w 10 0 ∧ bits w 10 0 ≤ 127) = false := by simp; omega
  simp only [State.writeCqCfg, hen, hset, hone, hok, bne, beq_self_eq_true, Bool.and_false, Bool.or_false, Bool.not_false,
    Bool.true_and, Bool.false_eq_true, if_false, if_true]

/-! ## The statement -/

/-- Settles O2: the branches of `writeSqCfg` and of `writeCqCfg`. -/
theorem ringEnableStartsEmpty : Obligations.RingEnableStartsEmpty := by
  unfold Obligations.RingEnableStartsEmpty
  refine ⟨?sqStart, ?sqBound, ?sqOne, ?sqStop, ?sqFixed, ?cqStart, ?cqVector, ?cqRecorded, ?cqStop⟩
  case sqStart =>
    intro p n w s h hn hen hset hsize hcq
    rw [exec_sqCfgWrite h hn, writeSqCfg_start (s := s.commitStore) hen hset hsize, State.bindError_ok]
    · rfl
    · simpa using hcq
  case sqBound =>
    intro p n w s h hn hen hset hsize hcq
    rw [exec_sqCfgWrite h hn, yields_next_iff, writeSqCfg_start (s := s.commitStore) hen hset hsize, State.bindError_sq]
    · simp
    · simpa using hcq
    · simp
  case sqOne =>
    intro p n w s h hn hen herr hset hsize hcq
    rw [exec_sqCfgWrite h hn]
    simp [State.writeSqCfg, hen, hset, hsize, State.bindError_ok, hcq]
  case sqStop =>
    intro p n w s h hn hen hclear
    obtain ⟨hsq, hfetches⟩ := writeSqCfg_stop (s := s.commitStore) hen hclear
    rw [exec_sqCfgWrite h hn, yields_next_iff, hsq, hfetches]
    refine ⟨rfl, fun f hf hq hgot => ?_⟩
    obtain ⟨x, -, rfl⟩ := List.mem_map.mp hf
    by_cases hx : x.sq = n ∧ x.got = none <;> simp_all
  case sqFixed =>
    intro p n w s h hn hen hset hdiff
    rw [exec_sqCfgWrite h hn]
    simp [State.writeSqCfg, hen, hset, hdiff]
  case cqStart =>
    intro p n w s h hn hen hheld hset hsize hvec hsig
    rw [exec_cqCfgWrite h hn, writeCqCfg_start (s := s.commitStore) hen hset hsize hvec]
    have quiet : (s.commitStore.setCq p n { (s.cq p n).fields w.toNat with
        enable := true, err := false, code := 0, head := 0, tail := 0, phase := true }).coalesce p n =
          s.commitStore.setCq p n { (s.cq p n).fields w.toNat with
            enable := true, err := false, code := 0, head := 0, tail := 0, phase := true } := by
      rcases hsig with hint | hunsig
      · exact State.coalesce_intOff (by simpa using hint)
      · exact State.coalesce_none (by simpa using hunsig)
    exact congrArg _ ((congrArg (State.deliverHeld p n) quiet).trans (State.deliverHeld_none (by simpa using hheld)))
  case cqVector =>
    intro p n w s h hn hlo hhi
    rw [exec_cqCfgWrite h hn, yields_next_iff]
    unfold State.writeCqCfg
    dsimp only
    repeat' split
    all_goals simp [Cq.fields_vector hlo hhi]
  case cqRecorded =>
    intro p n w s h hn hlo hhi hen hclear hint
    rw [exec_cqCfgWrite h hn]
    simp [State.writeCqCfg, hen, hclear, hlo, hhi, State.coalesce_intOff, hint]
  case cqStop =>
    intro p n w s h hn hen hclear
    rw [exec_cqCfgWrite h hn]
    simp [State.writeCqCfg, hen, hclear]

end Sys2Proof.Machine
end

section
/-! GET_FEATURE, SET_FEATURE, EPOCH_QUERY and EPOCH_CLOSE (R60, R95, R96). -/

namespace Sys2Proof.Machine

/-- A command of an opcode below 40h that is accepted runs its body at once. -/
theorem command_low {opc src : Nat} {c : Ctx} {ps : List Param} {body : State → State} {s : State} (ho : opc < 0x40)
    (h : s.accepts opc c ps = true) : s.command opc src c ps body = body s := by
  rw [command_accepted _ _ _ _ _ _ h, leaveHead_low _ _ _ ho]

/-- A row of such a command is its body on the state as it is. -/
theorem exec_accepted {i : Instr} {opc src : Nat} {c : Ctx} {ps : List Param} {body : State → State} {s : State}
    (h : s.accepts opc c ps = true) (ho : opc < 0x40) (hi : exec i s = .next (s.command opc src c ps body)) :
    exec i s = .next (body s) := by
  rw [hi, command_low ho h]

/-- With no seal in progress and no rollback a close trigger starts the seal of the open epoch (R95, R96). -/
theorem State.trigger_close {s : State} (c : Option Ctx) (m : Nat) (hr : s.epo.rollback = false)
    (hh : s.epo.heldTrig = []) (hs : s.epo.sealing = none) (hc : s.coordinated = true) :
    s.trigger (.close c m) = s.startSeal [.close c m] := by
  simp [State.trigger, hr, hh, hs, hc, State.actTriggers]

/-- Settles O8: the command runs its body, whose branch the premises choose. -/
theorem featuresAndEpochQueries : Obligations.FeaturesAndEpochQueries := by
  unfold Obligations.FeaturesAndEpochQueries
  refine ⟨?get, ?getNone, ?policy, ?auto, ?autoLow, ?wall, ?range, ?setNone, ?openE, ?durable, ?close, ?closeMode⟩
  case get =>
    intro c f v s h hf
    rw [exec_accepted h (by omega) rfl, hf]
  case getNone =>
    intro c f s h hf
    rw [exec_accepted h (by omega) rfl, hf]
  case policy =>
    intro c v s h hv
    rw [exec_accepted h (by omega) rfl]
    simp [State.feature, State.setFeature, hv]
  case auto =>
    intro c v s h hlo hhi
    rw [exec_accepted h (by omega) rfl]
    simp [State.feature, State.setFeature, hlo, hhi]
  case autoLow =>
    intro c v s h h0 hv
    have hout : ¬(v.toNat = 0 ∨ 100 ≤ v.toNat ∧ v.toNat ≤ 1000000) := by omega
    rw [exec_accepted h (by omega) rfl]
    simp [State.feature, State.setFeature, hout]
  case wall =>
    intro c v s h
    rw [exec_accepted h (by omega) rfl]
    rfl
  case range =>
    intro c f v x s h hf hset
    rw [exec_accepted h (by omega) rfl, hf]
    dsimp only
    rw [hset]
  case setNone =>
    intro c f v s h hf
    rw [exec_accepted h (by omega) rfl, hf]
  case openE =>
    intro c s h
    rw [exec_accepted h (by omega) rfl]
    rfl
  case durable =>
    intro c s h
    rw [exec_accepted h (by omega) rfl]
    rfl
  case close =>
    intro c m s h hm hr hh hs hc
    rw [exec_accepted h (by omega) rfl, if_neg (by omega), yields_next_iff, State.trigger_close _ _ hr hh hs hc]
    exact ⟨rfl, rfl⟩
  case closeMode =>
    intro c m s h hm
    rw [exec_accepted h (by omega) rfl, if_pos hm]

end Sys2Proof.Machine
end

section
/-! The completion collector: what one turn takes, writes and holds (R47, R66 to R70). -/

namespace Sys2Proof.Machine

/-! ## Staging queues and CQ entries -/

@[simp] theorem State.setStaged_staged (p x : Nat) (l : List (Nat × Cqe)) (s : State) :
    (s.setStaged p x l).staged p x = l := by
  simp [State.setStaged, State.staged]

theorem State.staged_congr {s t : State} (h : t.host.srcQ = s.host.srcQ) (p x : Nat) : t.staged p x = s.staged p x := by
  simp [State.staged, h]

theorem State.cq_congr {s t : State} (h : t.host.cqs = s.host.cqs) (p n : Nat) : t.cq p n = s.cq p n := by
  simp [State.cq, h]

theorem State.cqAddr_congr {s t : State} (h : t.regs = s.regs) (p n i : Nat) : t.cqAddr p n i = s.cqAddr p n i := by
  simp [State.cqAddr, State.reg, h]

@[simp] theorem State.setCq_srcQ (p n : Nat) (v : Cq) (s : State) : (s.setCq p n v).host.srcQ = s.host.srcQ := rfl

/-- Taking an entry leaves the CQs, the registers and what was sent as they were. -/
theorem State.takeCqe_frame (p x : Nat) (s : State) :
    (s.takeCqe p x).host.cqs = s.host.cqs ∧ (s.takeCqe p x).regs = s.regs ∧ (s.takeCqe p x).out = s.out :=
  ⟨rfl, rfl, rfl⟩

/-- With none waiting behind it, the entry leaves the rest of its staging queue. -/
theorem State.takeCqe_staged {p x : Nat} {s : State} (hw : s.waiting p x = []) :
    (s.takeCqe p x).staged p x = (s.staged p x).tail := by
  have hq : (s.takeCqe p x).host.srcQ = ((s.setStaged p x ((s.staged p x).tail ++ (s.waiting p x).take 1))).host.srcQ := rfl
  rw [State.staged_congr hq, State.setStaged_staged, hw]
  simp

/-- An entry that asks for no interrupt, or enters a ring that has none enabled, moves the index and the phase on and
counts as an event. -/
theorem State.enterCqe_quiet {p n : Nat} {e : Cqe} {s : State} (h : (s.cq p n).intEn = false) :
    s.enterCqe p n e = (s.setCq p n ((s.cq p n).entered e s.now)).pmcEdge p 0x62 0 := by
  have hq : (((s.setCq p n ((s.cq p n).entered e s.now)).pmcEdge p 0x62 0).cq p n).intEn = false := by
    simpa [Cq.entered] using h
  unfold State.enterCqe
  dsimp only
  rw [State.coalesce_intOff hq, ite_self]

/-- An entry with room before the end of its ring is written whole at the device write index (R47). -/
theorem State.writeCqes_one {p n : Nat} {e : Cqe} {s : State} (h : (s.cq p n).head < (s.cq p n).size) :
    s.writeCqes p n [e] =
      (s.emit (.hostWrite p (s.cqAddr p n (s.cq p n).head) (e.bytes (s.cq p n).phase))).enterCqe p n e := by
  obtain ⟨k, hk⟩ : ∃ k, (s.cq p n).size - (s.cq p n).head = k + 1 := ⟨_, (Nat.succ_pred (by omega)).symm⟩
  simp [State.writeCqes, hk]

/-- A CQ that takes entries and has room writes the entry and holds none. -/
theorem State.deliver_one {p n : Nat} {e : Cqe} {s : State} (hen : (s.cq p n).enable = true) (herr : (s.cq p n).err = false)
    (hheld : (s.cq p n).held = []) (hspace : 0 < (s.cq p n).space) :
    s.deliver p n [e] = (s.writeCqes p n [e]).setCq p n { (s.writeCqes p n [e]).cq p n with held := [] } := by
  obtain ⟨k, hk⟩ : ∃ k, (s.cq p n).space = k + 1 := ⟨_, (Nat.succ_pred (by omega)).symm⟩
  simp [State.deliver, hen, herr, hheld, hk]

/-- A CQ that is disabled or in error holds the entry behind those it holds already (R46). -/
theorem State.deliver_held {p n : Nat} {es : List Cqe} {s : State} (h : (s.cq p n).enable = false ∨ (s.cq p n).err = true) :
    s.deliver p n es = s.setCq p n { s.cq p n with held := (s.cq p n).held ++ es } := by
  have hk : ((s.cq p n).enable && !(s.cq p n).err && (s.cq p n).held.isEmpty) = false := by
    rcases h with h | h <;> simp [h]
  simp [State.deliver, hk, State.writeCqes]

/-! ## A turn of the collector -/

theorem exec_completionCollect {p : Nat} {b : Bool} {s : State} (hp : s.hasPort p = true) (hup : s.portsUp = true)
    (hrun : s.cry.haltCause = 0) : exec (.completionCollect p b) s = .next (s.collect p b) := by
  have : exec (.completionCollect p b) s =
      withUnit (s.hasPort p) (fun s => if s.cry.haltCause != 0 || !s.portsUp then s else s.collect p b) s := rfl
  rw [this, hp, withUnit_true, if_neg (by simp [hrun, hup])]

/-- A port whose collector has found posted-write credit. -/
def State.credited (p : Nat) (s : State) : State := s.setPort p { s.port p with noCredit := false }

/-- With credit and one source that has an entry, that entry is taken and delivered to its CQ (R68). -/
theorem State.collect_one {p x n : Nat} {e : Cqe} {rest : List (Nat × Cqe)} {s : State} (hx : s.nonEmpty p = [x])
    (he : s.staged p x = (n, e) :: rest) :
    s.collect p true = ((s.credited p).takeCqe p x).deliver p n [e] := by
  simp [State.collect, State.credited, hx, he, groupCqes, List.eraseDups_cons]

/-- The first turn without credit counts as an event (R68). -/
theorem State.collect_noCredit {p : Nat} {s : State} (h : (s.port p).noCredit = false) :
    s.collect p false = (s.pmcEdge p 0x63 0).setPort p { s.port p with noCredit := true } := by
  have hp : (s.pmcEdge p 0x63 0).port p = s.port p := by simp [State.port]
  simp [State.collect, h, hp]

/-- The one entry taken, where its CQ takes entries and has room (R47). -/
theorem State.deliver_writes {p n : Nat} {e : Cqe} {s : State} (hen : (s.cq p n).enable = true)
    (herr : (s.cq p n).err = false) (hheld : (s.cq p n).held = []) (hspace : 0 < (s.cq p n).space)
    (hhead : (s.cq p n).head < (s.cq p n).size) (hint : (s.cq p n).intEn = false) :
    (s.deliver p n [e]).out = s.out ++ [.hostWrite p (s.cqAddr p n (s.cq p n).head) (e.bytes (s.cq p n).phase)] ∧
    (s.deliver p n [e]).cq p n = { (s.cq p n).entered e s.now with held := [] } ∧
    (s.deliver p n [e]).host.srcQ = s.host.srcQ := by
  rw [State.deliver_one hen herr hheld hspace, State.writeCqes_one hhead, State.enterCqe_quiet (by simpa using hint)]
  refine ⟨?_, ?_, ?_⟩
  · simp [State.emit]
  · rw [State.setCq_cq, State.pmcEdge_cq, State.setCq_cq, State.emit_cq]
    rfl
  · simp [State.emit]

/-- Settles O4: without credit the collector only notes it; with credit the taken entry is written or held; the timer, a
pending vector and the head of the Curator queue each by their row's branch. -/
theorem completionsReachTheHost : Obligations.CompletionsReachTheHost := by
  unfold Obligations.CompletionsReachTheHost
  refine ⟨?holds, ?counts, ?writes, ?held, ?timer, ?pending, ?commits⟩
  case holds =>
    intro p s hp hup hrun hno
    rw [exec_completionCollect hp hup hrun]
    simp [State.collect, hno]
  case counts =>
    intro p s hp hup hrun hno
    rw [exec_completionCollect hp hup hrun, yields_next_iff, State.collect_noCredit hno]
    exact ⟨by simp, by simp [State.setPort], State.setPort_port .., by simp⟩
  case writes =>
    intro p x n e rest s hp hup hrun hx he hw hen herr hheld hspace hhead hint
    rw [exec_completionCollect hp hup hrun, yields_next_iff, State.collect_one hx he]
    obtain ⟨hcqs, hregs, hout⟩ := State.takeCqe_frame p x (s.credited p)
    have hcq : ((s.credited p).takeCqe p x).cq p n = s.cq p n :=
      State.cq_congr hcqs p n
    obtain ⟨hsent, hentered, hsrcQ⟩ := State.deliver_writes (e := e)
      (s := (s.credited p).takeCqe p x) (n := n) (by rwa [hcq]) (by rwa [hcq])
      (by rwa [hcq]) (by rwa [hcq]) (by rwa [hcq]) (by rwa [hcq])
    rw [hcq] at hsent hentered
    refine ⟨hsent.trans ?_, ?_, ?_, ?_⟩
    · rw [hout, State.cqAddr_congr hregs]
      rfl
    · rw [hentered]
      simp [Cq.entered]
    · rw [hentered]
      simp [Cq.entered]
    · rw [State.staged_congr hsrcQ, State.takeCqe_staged (s := s.credited p) hw]
      exact congrArg List.tail he
  case held =>
    intro p x n e rest s hp hup hrun hx he hoff
    rw [exec_completionCollect hp hup hrun, yields_next_iff, State.collect_one hx he]
    obtain ⟨hcqs, -, hout⟩ := State.takeCqe_frame p x (s.credited p)
    have hcq : ((s.credited p).takeCqe p x).cq p n = s.cq p n :=
      State.cq_congr hcqs p n
    rw [State.deliver_held (by rwa [hcq]), hcq, State.setCq_cq]
    exact ⟨hout, rfl⟩
  case timer =>
    intro p n s hp hn hdue hint
    have : exec (.cqCoalTimer p n) s = withUnit (s.hasPort p) (fun s =>
        if s.coalDue p (n % 64) && (s.cq p (n % 64)).intEn then s.signalCq p (n % 64) else s) s := rfl
    rw [this, hp, withUnit_true, Nat.mod_eq_of_lt hn]
    simp [hdue, hint, State.signalCq]
  case pending =>
    intro p v s hp hv hpba hsend
    have : exec (.msixPendingSend p v) s = withUnit (s.hasPort p) (fun s => s.sendPending p (v % 2048)) s := rfl
    rw [this, hp, withUnit_true, Nat.mod_eq_of_lt hv]
    simp [State.sendPending, hpba, hsend, State.emit]
  case commits =>
    intro m ms s hprim hrun hq hm
    have : exec .curatorCommandExecute s = .next (if s.cur.primary.isSome then s.commitHead else s) := rfl
    rw [this, if_pos hprim]
    have hrest : ms.map (fun x => if x == m then { x with committed := true } else x) = ms := by
      refine (List.map_congr_left fun x hx => if_neg ?_).trans (List.map_id' ms)
      simpa using ne_of_mem_of_not_mem hx hm
    simp only [State.commitHead, State.queueHead, hrun, hq, beq_self_eq_true, if_true, List.head?_cons, List.map_cons, hrest]

end Sys2Proof.Machine
end

section
/-! What a row leaves as it was, from what its operation leaves (R20, R53, R61). -/

namespace Sys2Proof.Machine

/-- The fields that are not named, one by one. -/
theorem changesOnly_iff (fs : List Field) (s t : State) : ChangesOnly fs s t ↔
    (.member ∉ fs → t.member = s.member) ∧ (.now ∉ fs → t.now = s.now) ∧ (.regs ∉ fs → t.regs = s.regs) ∧
    (.unstored ∉ fs → t.unstored = s.unstored) ∧ (.host ∉ fs → t.host = s.host) ∧ (.epo ∉ fs → t.epo = s.epo) ∧
    (.cat ∉ fs → t.cat = s.cat) ∧ (.med ∉ fs → t.med = s.med) ∧ (.coh ∉ fs → t.coh = s.coh) ∧
    (.lnk ∉ fs → t.lnk = s.lnk) ∧ (.rte ∉ fs → t.rte = s.rte) ∧ (.cap ∉ fs → t.cap = s.cap) ∧
    (.cry ∉ fs → t.cry = s.cry) ∧ (.flt ∉ fs → t.flt = s.flt) ∧ (.anl ∉ fs → t.anl = s.anl) ∧
    (.cur ∉ fs → t.cur = s.cur) ∧ (.thm ∉ fs → t.thm = s.thm) ∧ (.pwr ∉ fs → t.pwr = s.pwr) ∧
    (.pmc ∉ fs → t.pmc = s.pmc) ∧ (.out ∉ fs → t.out = s.out) ∧ (.net ∉ fs → t.net = s.net) ∧
    (.freeCtr ∉ fs → t.freeCtr = s.freeCtr) ∧ (.pending ∉ fs → t.pending = s.pending) := by
  constructor
  · intro h
    exact ⟨h .member, h .now, h .regs, h .unstored, h .host, h .epo, h .cat, h .med, h .coh, h .lnk, h .rte, h .cap,
      h .cry, h .flt, h .anl, h .cur, h .thm, h .pwr, h .pmc, h .out, h .net, h .freeCtr, h .pending⟩
  · rintro ⟨h1, h2, h3, h4, h5, h6, h7, h8, h9, h10, h11, h12, h13, h14, h15, h16, h17, h18, h19, h20, h21, h22, h23⟩ f hf
    cases f with
    | member => exact h1 hf
    | now => exact h2 hf
    | regs => exact h3 hf
    | unstored => exact h4 hf
    | host => exact h5 hf
    | epo => exact h6 hf
    | cat => exact h7 hf
    | med => exact h8 hf
    | coh => exact h9 hf
    | lnk => exact h10 hf
    | rte => exact h11 hf
    | cap => exact h12 hf
    | cry => exact h13 hf
    | flt => exact h14 hf
    | anl => exact h15 hf
    | cur => exact h16 hf
    | thm => exact h17 hf
    | pwr => exact h18 hf
    | pmc => exact h19 hf
    | out => exact h20 hf
    | net => exact h21 hf
    | freeCtr => exact h22 hf
    | pending => exact h23 hf

/-! ## Rows -/

theorem keeps_unit {b : Bool} {f : State → State} {s : State} {fs : List Field} (h : ChangesOnly fs s (f s)) :
    Keeps (withUnit b f s) fs s := by
  cases b
  · exact keeps_next s s fs (changesOnly_refl fs s)
  · exact keeps_next s (f s) fs h

/-- A BAR0 write also commits what earlier writes left to be stored (R16). -/
theorem changesOnly_commitStore {fs : List Field} (hu : .unstored ∈ fs) (s : State) : ChangesOnly fs s s.commitStore := by
  intro f hf
  cases f with
  | unstored => exact absurd hu hf
  | _ => rfl

theorem keeps_bar0 {p : Nat} {f : State → State} {s : State} {fs : List Field} (hu : .unstored ∈ fs)
    (h : ∀ u, ChangesOnly fs u (f u)) : Keeps (s.bar0 p f) fs s :=
  keeps_unit (changesOnly_trans fs _ _ _ (changesOnly_commitStore hu s) (h _))

/-- A command that arrives or is refused changes the groups of its reply and of the Curator queue. -/
theorem changesOnly_command {opc src : Nat} {c : Ctx} {ps : List Param} {body : State → State} {fs : List Field}
    (hfs : ∀ f ∈ [Field.regs, .host, .cur, .pmc, .out], f ∈ fs) (h : ∀ u, ChangesOnly fs u (body u)) (s : State) :
    ChangesOnly fs s (s.command opc src c ps body) := by
  have left : ChangesOnly fs s (s.leaveHead opc c) :=
    changesOnly_mono _ _ _ _ (by simp [changesOnly_iff, State.leaveHead_kept]) hfs
  have answered (st : Status) (u : State) : ChangesOnly fs u (u.reply src c st 0) :=
    changesOnly_mono _ _ _ _ (by simp [changesOnly_iff]) hfs
  unfold State.command
  split
  · exact changesOnly_mono _ _ _ _ (by simp [changesOnly_iff, State.enqueue_kept]) hfs
  · split
    · split
      · exact changesOnly_trans fs _ _ _ left (answered _ _)
      · exact changesOnly_trans fs _ _ _ left (h _)
    · exact changesOnly_refl fs s

theorem keeps_command {opc src : Nat} {c : Ctx} {ps : List Param} {body : State → State} {fs : List Field}
    (hfs : ∀ f ∈ [Field.regs, .host, .cur, .pmc, .out], f ∈ fs) (h : ∀ u, ChangesOnly fs u (body u)) (s : State) :
    Keeps (.next (s.command opc src c ps body)) fs s :=
  keeps_next _ _ _ (changesOnly_command hfs h s)

/-- A whole operation also raises what it has met, and may stop the part (assumption 99). -/
theorem changesOnly_whole {f : State → State} {fs : List Field}
    (hfs : ∀ f ∈ [Field.regs, .host, .epo, .cat, .lnk, .cap, .cry, .flt, .anl, .cur, .pwr, .pmc, .out, .freeCtr], f ∈ fs)
    (h : ∀ u, ChangesOnly fs u (f u)) (s : State) : ChangesOnly fs s (s.whole f) := by
  have told (u : State) : ChangesOnly fs u u.tellFaults.undoTriggers :=
    changesOnly_mono _ _ _ _ (by simp [changesOnly_iff, State.undoTriggers_kept, State.tellFaults_kept]) hfs
  unfold State.whole
  dsimp only
  split
  · exact changesOnly_mono _ _ _ _ (by simp [changesOnly_iff]) hfs
  · split
    · exact changesOnly_mono _ _ _ _ (by simp [changesOnly_iff, State.asking_kept]) hfs
    · exact changesOnly_trans fs _ _ _ (h s) (told _)

theorem keeps_wholeCommand {opc src : Nat} {c : Ctx} {ps : List Param} {f : State → State} {fs : List Field}
    (hfs : ∀ f ∈ [Field.regs, .host, .epo, .cat, .lnk, .cap, .cry, .flt, .anl, .cur, .pwr, .pmc, .out, .freeCtr], f ∈ fs)
    (h : ∀ u, ChangesOnly fs u (f u)) (s : State) : Keeps (.next (s.command opc src c ps (State.whole f))) fs s :=
  keeps_command (fun g hg => hfs g (by revert g; decide)) (changesOnly_whole hfs h) s

theorem keeps_wholeUnit {b : Bool} {f : State → State} {s : State} {fs : List Field}
    (hfs : ∀ f ∈ [Field.regs, .host, .epo, .cat, .lnk, .cap, .cry, .flt, .anl, .cur, .pwr, .pmc, .out, .freeCtr], f ∈ fs)
    (h : ∀ u, ChangesOnly fs u (f u)) : Keeps (withUnit b (State.whole f) s) fs s :=
  keeps_unit (changesOnly_whole hfs h s)

/-- A mailbox request changes what its body does and answers in the mailbox's registers (R433). -/
theorem changesOnly_mbRequest {port code : Nat} {fits : Bool} {body : State → Status × Nat × State} {s : State}
    {fs : List Field} (hfs : ∀ f ∈ [Field.regs, .cur], f ∈ fs) (h : ∀ u, ChangesOnly fs u (body u).2.2) :
    ChangesOnly fs s (s.mbRequest port code fits body) := by
  have answered (st : Status) (v : Nat) (u : State) : ChangesOnly fs u (u.mbAnswer st v) :=
    changesOnly_mono _ _ _ _ (by simp [changesOnly_iff, State.mbAnswer_kept]) hfs
  unfold State.mbRequest
  split
  · split
    · exact answered _ _ s
    · exact changesOnly_trans fs _ _ _ (h s) (answered _ _ _)
  · exact changesOnly_refl fs s

end Sys2Proof.Machine
end

section
/-! Settles the frames of the host, epoch, Catalogue and media rows: each row's wrapper and what its operation leaves. -/

namespace Sys2Proof.Machine

theorem execIdentify_keeps (c : Ctx) (cns tile : Byte) (slot : Word) (own : SlotRead) (s : State) :
    Keeps (execIdentify c cns tile slot own s) [.regs, .host, .anl, .cur, .pmc, .out] s :=
  keeps_command (by decide) (fun u => by
    repeat' split
    all_goals simp [changesOnly_iff]) s

theorem execGetFeature_keeps (c : Ctx) (fid : Byte) (s : State) :
    Keeps (execGetFeature c fid s) [.regs, .host, .cur, .pmc, .out] s :=
  keeps_command (by decide) (fun u => by
    repeat' split
    all_goals simp [changesOnly_iff]) s

theorem execSetFeature_keeps (c : Ctx) (fid : Byte) (value : DWord) (s : State) :
    Keeps (execSetFeature c fid value s) [.regs, .host, .epo, .med, .cur, .pmc, .out] s :=
  keeps_command (by decide) (fun u => by
    split
    · simp [changesOnly_iff]
    · split
      · simp [changesOnly_iff]
      case h_2 t ht =>
        have kept := State.setFeature_kept _ _ _ _ ht
        simp [changesOnly_iff, kept]) s

theorem execReadX_keeps (c : Ctx) (pa : DWord) (len slot : Word) (own : SlotRead) (env : MediaEnv) (s : State) :
    Keeps (execReadX c pa len slot own env s) [.regs, .host, .epo, .cat, .med, .coh, .lnk, .cap, .cry, .flt, .anl,
      .cur, .pwr, .pmc, .out, .net, .freeCtr] s :=
  keeps_wholeCommand (by decide) (fun u => by
    repeat' split
    all_goals simp [changesOnly_iff]) s

theorem execWriteX_keeps (c : Ctx) (pa : DWord) (len slot : Word) (own : SlotRead) (data : HostData) (env : MediaEnv)
    (s : State) :
    Keeps (execWriteX c pa len slot own data env s) [.regs, .host, .epo, .cat, .med, .coh, .lnk, .cap, .cry, .flt,
      .anl, .cur, .pwr, .pmc, .out, .net, .freeCtr] s :=
  keeps_wholeCommand (by decide) (fun u => by
    repeat' split
    all_goals simp [changesOnly_iff]) s

theorem execCopy_keeps (c : Ctx) (src dst len : DWord) (env : MediaEnv) (s : State) :
    Keeps (execCopy c src dst len env s) [.regs, .host, .epo, .cat, .med, .coh, .lnk, .cap, .cry, .flt, .anl, .cur,
      .pwr, .pmc, .out, .net, .freeCtr] s :=
  keeps_wholeCommand (by decide) (fun u => by
    repeat' split
    all_goals simp [changesOnly_iff]) s

theorem execZeroRange_keeps (c : Ctx) (pa len : DWord) (env : MediaEnv) (s : State) :
    Keeps (execZeroRange c pa len env s) [.regs, .host, .epo, .cat, .med, .coh, .lnk, .cap, .cry, .flt, .anl, .cur,
      .pwr, .pmc, .out, .net, .freeCtr] s :=
  keeps_wholeCommand (by decide) (fun u => by
    repeat' split
    all_goals simp [changesOnly_iff]) s

theorem execDiscard_keeps (c : Ctx) (pa len : DWord) (s : State) :
    Keeps (execDiscard c pa len s) [.regs, .host, .epo, .cat, .lnk, .cap, .cry, .flt, .anl, .cur, .pwr, .pmc, .out,
      .freeCtr] s :=
  keeps_wholeCommand (by decide) (fun u => by
    repeat' split
    all_goals simp [changesOnly_iff]) s

theorem execFlushRange_keeps (c : Ctx) (pa len : DWord) (s : State) :
    Keeps (execFlushRange c pa len s) [.regs, .host, .epo, .cat, .coh, .lnk, .cap, .cry, .flt, .anl, .cur, .pwr, .pmc,
      .out, .net, .freeCtr] s :=
  keeps_wholeCommand (by decide) (fun u => by
    repeat' split
    all_goals simp [changesOnly_iff]) s

theorem execInvalRange_keeps (c : Ctx) (pa len : DWord) (s : State) :
    Keeps (execInvalRange c pa len s) [.regs, .host, .epo, .cat, .coh, .lnk, .cap, .cry, .flt, .anl, .cur, .pwr, .pmc,
      .out, .net, .freeCtr] s :=
  keeps_wholeCommand (by decide) (fun u => by
    repeat' split
    all_goals simp [changesOnly_iff]) s

theorem execEpochClose_keeps (c : Ctx) (mode : Byte) (s : State) :
    Keeps (execEpochClose c mode s) [.regs, .host, .epo, .anl, .cur, .pmc, .out] s :=
  keeps_command (by decide) (fun u => by
    repeat' split
    all_goals simp [changesOnly_iff]) s

theorem execEpochQuery_keeps (c : Ctx) (mode : Byte) (s : State) :
    Keeps (execEpochQuery c mode s) [.regs, .host, .anl, .cur, .pmc, .out] s :=
  keeps_command (by decide) (fun u => by
    repeat' split
    all_goals simp [changesOnly_iff]) s

theorem execRouteDefine_keeps (c : Ctx) (tile : Byte) (route : BitVec 16) (slot count : Word) (latency : BitVec 16)
    (port : Byte) (own : SlotRead) (data : HostData) (s : State) :
    Keeps (execRouteDefine c tile route slot count latency port own data s) [.regs, .host, .rte, .anl, .cur, .pmc,
      .out] s :=
  keeps_command (by decide) (fun u => by
    repeat' split
    all_goals simp [changesOnly_iff]) s

theorem execRouteArm_keeps (c : Ctx) (tile : Byte) (route vector : BitVec 16) (start : Byte) (s : State) :
    Keeps (execRouteArm c tile route vector start s) [.regs, .host, .rte, .anl, .cur, .pmc, .out] s :=
  keeps_command (by decide) (fun u => by
    dsimp only
    repeat' split
    all_goals simp [changesOnly_iff]) s

theorem execRouteRetire_keeps (c : Ctx) (tile : Byte) (route : BitVec 16) (mode : Byte) (s : State) :
    Keeps (execRouteRetire c tile route mode s) [.regs, .host, .lnk, .rte, .anl, .cur, .pmc, .out] s :=
  keeps_command (by decide) (fun u => by
    dsimp only
    repeat' split
    all_goals simp [changesOnly_iff]) s

theorem execPinLines_keeps (c : Ctx) (tile : Byte) (pa : DWord) (lines : Word) (env : MediaEnv) (s : State) :
    Keeps (execPinLines c tile pa lines env s) [.regs, .host, .epo, .cat, .med, .coh, .lnk, .cap, .cry, .flt, .anl,
      .cur, .pwr, .pmc, .out, .net, .freeCtr] s :=
  keeps_wholeCommand (by decide) (fun u => by
    dsimp only
    repeat' split
    all_goals simp [changesOnly_iff]) s

theorem execUnpinLines_keeps (c : Ctx) (tile : Byte) (pa : DWord) (lines : Word) (s : State) :
    Keeps (execUnpinLines c tile pa lines s) [.regs, .host, .epo, .cat, .coh, .lnk, .cap, .cry, .flt, .anl, .cur,
      .pwr, .pmc, .out, .net, .freeCtr] s :=
  keeps_wholeCommand (by decide) (fun u => by
    dsimp only
    repeat' split
    all_goals simp [changesOnly_iff]) s

theorem execCaptureOpen_keeps (c : Ctx) (tile port region flags : Byte) (vector : BitVec 16) (pa len : DWord) (s :
    State) :
    Keeps (execCaptureOpen c tile port region flags vector pa len s) [.regs, .host, .cap, .cur, .pmc, .out] s :=
  keeps_command (by decide) (fun u => by
    dsimp only
    repeat' split
    all_goals simp [changesOnly_iff]) s

theorem execCaptureClose_keeps (c : Ctx) (tile port region mode : Byte) (s : State) :
    Keeps (execCaptureClose c tile port region mode s) [.regs, .host, .epo, .cap, .anl, .cur, .pmc, .out] s :=
  keeps_command (by decide) (fun u => by
    dsimp only
    repeat' split
    all_goals simp [changesOnly_iff]) s

theorem execCaptureDrain_keeps (c : Ctx) (tile port region : Byte) (s : State) :
    Keeps (execCaptureDrain c tile port region s) [.regs, .host, .epo, .cat, .coh, .lnk, .cap, .cry, .flt, .anl, .cur,
      .pwr, .pmc, .out, .net, .freeCtr] s :=
  keeps_wholeCommand (by decide) (fun u => by
    dsimp only
    repeat' split
    all_goals simp [changesOnly_iff]) s

theorem execGetLog_keeps (c : Ctx) (log tile : Byte) (slot : Word) (own : SlotRead) (offset : DWord) (s : State) :
    Keeps (execGetLog c log tile slot own offset s) [.regs, .host, .anl, .cur, .pmc, .out] s :=
  keeps_command (by decide) (fun u => by
    simp [changesOnly_iff]) s

theorem execClearLog_keeps (c : Ctx) (log tile : Byte) (slot : Word) (tok : Token) (s : State) :
    Keeps (execClearLog c log tile slot tok s) [.regs, .host, .flt, .anl, .cur, .pmc, .out] s :=
  keeps_next _ _ _ <| by
    simp [changesOnly_iff]

theorem execSensorRead_keeps (c : Ctx) (tile sensor : Byte) (s : State) :
    Keeps (execSensorRead c tile sensor s) [.regs, .host, .cur, .pmc, .out, .freeCtr] s :=
  keeps_command (by decide) (fun u => by
    repeat' split
    all_goals simp [changesOnly_iff]) s

theorem execFaultInject_keeps (c : Ctx) (tile : Byte) (source : BitVec 12) (slot : Word) (tok : Token) (mask : DWord)
    (count : BitVec 16) (s : State) :
    Keeps (execFaultInject c tile source slot tok mask count s) [.regs, .host, .flt, .anl, .cur, .pmc, .out] s :=
  keeps_next _ _ _ <| by
    simp [changesOnly_iff]

theorem execPowerState_keeps (c : Ctx) (state : Byte) (s : State) :
    Keeps (execPowerState c state s) [.regs, .host, .epo, .cur, .pwr, .pmc, .out] s :=
  keeps_command (by decide) (fun u => by
    simp [changesOnly_iff]) s

theorem execFwStage_keeps (c : Ctx) (slot : Word) (own : SlotRead) (offset : Word) (flags : Byte) (data : HostData)
    (sigOk : Bool) (s : State) :
    Keeps (execFwStage c slot own offset flags data sigOk s) [.regs, .host, .anl, .cur, .pmc, .out] s :=
  keeps_command (by decide) (fun u => by
    simp [changesOnly_iff]) s

theorem execFwActivate_keeps (c : Ctx) (mode : Byte) (s : State) :
    Keeps (execFwActivate c mode s) [.regs, .host, .epo, .cat, .med, .coh, .lnk, .rte, .cap, .cry, .flt, .anl, .cur,
      .pwr, .pmc, .out, .net, .freeCtr] s :=
  keeps_command (by decide) (fun u => by
    simp [changesOnly_iff]) s

theorem execAttest_keeps (c : Ctx) (slot : Word) (own : SlotRead) (nonce : BitVec 256) (reserveOk : Bool) (s : State) :
    Keeps (execAttest c slot own nonce reserveOk s) [.regs, .host, .anl, .cur, .pmc, .out, .freeCtr] s :=
  keeps_command (by decide) (fun u => by
    repeat' split
    all_goals simp [changesOnly_iff]) s

theorem execKeyCreate_keeps (c : Ctx) (kid : Byte) (pa len : DWord) (s : State) :
    Keeps (execKeyCreate c kid pa len s) [.regs, .host, .epo, .cat, .med, .coh, .cap, .cry, .flt, .anl, .cur, .pmc,
      .out, .net, .freeCtr] s :=
  keeps_command (by decide) (fun u => by
    repeat' split
    all_goals simp [changesOnly_iff]) s

theorem execKeyRetire_keeps (c : Ctx) (kid : Byte) (slot : Word) (tok : Token) (s : State) :
    Keeps (execKeyRetire c kid slot tok s) [.regs, .host, .epo, .cat, .med, .coh, .cap, .cry, .flt, .anl, .cur, .pmc,
      .out, .net, .freeCtr] s :=
  keeps_next _ _ _ <| by
    repeat' split
    all_goals simp [changesOnly_iff]

theorem execRightsSet_keeps (c : Ctx) (kid master rights : Byte) (s : State) :
    Keeps (execRightsSet c kid master rights s) [.regs, .host, .cry, .cur, .pmc, .out] s :=
  keeps_command (by decide) (fun u => by
    dsimp only
    repeat' split
    all_goals simp [changesOnly_iff]) s

theorem execSpareStatus_keeps (c : Ctx) (tile : Byte) (slot : Word) (own : SlotRead) (s : State) :
    Keeps (execSpareStatus c tile slot own s) [.regs, .host, .anl, .cur, .pmc, .out] s :=
  keeps_command (by decide) (fun u => by
    simp [changesOnly_iff]) s

theorem execFormat_keeps (c : Ctx) (spare : Byte) (slot : Word) (tok : Token) (s : State) :
    Keeps (execFormat c spare slot tok s) [.regs, .host, .epo, .cat, .med, .coh, .cap, .cry, .flt, .anl, .cur, .pmc,
      .out, .net, .freeCtr] s :=
  keeps_next _ _ _ <| by
    repeat' split
    all_goals simp [changesOnly_iff]

theorem execMediaProfile_keeps (c : Ctx) (action tile channel target : Byte) (slot : Word) (own : SlotRead) (data :
    HostData) (s : State) :
    Keeps (execMediaProfile c action tile channel target slot own data s) [.regs, .host, .med, .anl, .cur, .pmc, .out]
      s :=
  keeps_command (by decide) (fun u => by
    repeat' split
    all_goals simp [changesOnly_iff]) s

theorem execLifecycle_keeps (port : Nat) (tok : Token) (s : State) :
    Keeps (execLifecycle port tok s) [.regs, .host, .epo, .cat, .med, .coh, .cap, .cry, .flt, .anl, .cur, .pmc, .out,
      .net, .freeCtr] s :=
  keeps_unit <| by
    split
    · exact changesOnly_refl _ s
    · exact changesOnly_mbRequest (by decide) fun u => by simp [changesOnly_iff]

theorem execSensorDisable_keeps (port : Nat) (tok : Token) (s : State) :
    Keeps (execSensorDisable port tok s) [.regs, .host, .epo, .cat, .med, .coh, .lnk, .rte, .cap, .cry, .flt, .anl,
      .cur, .thm, .pwr, .pmc, .out, .net] s :=
  keeps_unit <| changesOnly_mbRequest (by decide) fun u => by
    simp [changesOnly_iff]

theorem execRoleSwap_keeps (port : Nat) (s : State) :
    Keeps (execRoleSwap port s) [.regs, .host, .anl, .cur, .out, .freeCtr] s :=
  keeps_unit <| changesOnly_mbRequest (by decide) fun u => by
    repeat' split
    all_goals simp [changesOnly_iff]

theorem execOwnerSet_keeps (port : Nat) (key : BitVec 544) (s : State) :
    Keeps (execOwnerSet port key s) [.regs, .cur] s :=
  keeps_unit <| changesOnly_mbRequest (by decide) fun u => by
    simp [changesOnly_iff]

theorem execRootRevoke_keeps (port : Nat) (tok : Token) (s : State) :
    Keeps (execRootRevoke port tok s) [.regs, .cur] s :=
  keeps_unit <| changesOnly_mbRequest (by decide) fun u => by
    dsimp only
    repeat' split
    all_goals simp [changesOnly_iff]

theorem execMbClaim_keeps (port : Nat) (s : State) :
    Keeps (execMbClaim port s) [.unstored, .cur] s :=
  keeps_bar0 (by decide) fun u => by
    simp [changesOnly_iff]

theorem execMbRelease_keeps (port : Nat) (s : State) :
    Keeps (execMbRelease port s) [.unstored, .cur] s :=
  keeps_bar0 (by decide) fun u => by
    simp [changesOnly_iff]

theorem execMbIdleTimeout_keeps (s : State) :
    Keeps (execMbIdleTimeout s) [.cur] s :=
  keeps_next _ _ _ <| by
    repeat' split
    all_goals simp [changesOnly_iff]

theorem execRegisterWrite_keeps (port : Nat) (offset : BitVec 24) (size : Nat) (value : DWord) (s : State) :
    Keeps (execRegisterWrite port offset size value s) [.regs, .unstored, .host, .epo, .cat, .med, .coh, .lnk, .rte,
      .cap, .cry, .flt, .anl, .cur, .thm, .pwr, .pmc, .out, .net, .freeCtr] s :=
  keeps_bar0 (by decide) fun u => by
    simp [changesOnly_iff]

theorem execSqDoorbell_keeps (port sq : Nat) (tail : BitVec 12) (s : State) :
    Keeps (execSqDoorbell port sq tail s) [.regs, .unstored, .host, .anl, .out] s :=
  keeps_bar0 (by decide) fun u => by
    simp [changesOnly_iff]

theorem execCqDoorbell_keeps (port cq : Nat) (head : BitVec 12) (s : State) :
    Keeps (execCqDoorbell port cq head s) [.regs, .unstored, .host, .anl, .pmc, .out] s :=
  keeps_bar0 (by decide) fun u => by
    simp [changesOnly_iff]

theorem execSqCfgWrite_keeps (port sq : Nat) (value : Word) (s : State) :
    Keeps (execSqCfgWrite port sq value s) [.regs, .unstored, .host, .anl, .out] s :=
  keeps_bar0 (by decide) fun u => by
    simp [changesOnly_iff]

theorem execCqCfgWrite_keeps (port cq : Nat) (value : Word) (s : State) :
    Keeps (execCqCfgWrite port cq value s) [.regs, .unstored, .host, .anl, .pmc, .out] s :=
  keeps_bar0 (by decide) fun u => by
    simp [changesOnly_iff]

theorem execFetchResume_keeps (port : Nat) (s : State) :
    Keeps (execFetchResume port s) [.regs, .unstored, .host, .anl, .cur, .pwr, .pmc, .out] s :=
  keeps_bar0 (by decide) fun u => by
    simp [changesOnly_iff]

theorem execSqFetchIssue_keeps (port : Nat) (s : State) :
    Keeps (execSqFetchIssue port s) [.host, .out] s :=
  keeps_unit <| by
    simp [changesOnly_iff]

theorem execSqFetchReturn_keeps (port sq first : Nat) (entries : List Fetched) (s : State) :
    Keeps (execSqFetchReturn port sq first entries s) [.regs, .host, .anl, .cur, .pwr, .pmc, .out] s :=
  keeps_unit <| by
    simp [changesOnly_iff]

theorem execFencedCommandStart_keeps (port sq : Nat) (s : State) :
    Keeps (execFencedCommandStart port sq s) [.regs, .host, .anl, .cur, .pwr, .pmc, .out] s :=
  keeps_unit <| by
    simp [changesOnly_iff]

theorem execCuratorCommandExecute_keeps (s : State) :
    Keeps (execCuratorCommandExecute s) [.cur] s :=
  keeps_next _ _ _ <| by
    repeat' split
    all_goals simp [changesOnly_iff]

theorem execCompletionCollect_keeps (port : Nat) (credit : Bool) (s : State) :
    Keeps (execCompletionCollect port credit s) [.host, .pmc, .out] s :=
  keeps_unit <| by
    repeat' split
    all_goals simp [changesOnly_iff]

theorem execCqCoalTimer_keeps (port cq : Nat) (s : State) :
    Keeps (execCqCoalTimer port cq s) [.host, .out] s :=
  keeps_unit <| by
    repeat' split
    all_goals simp [changesOnly_iff]

theorem execMsixPendingSend_keeps (port vector : Nat) (s : State) :
    Keeps (execMsixPendingSend port vector s) [.host, .out] s :=
  keeps_unit <| by
    simp [changesOnly_iff]

theorem execXwWinCfgWrite_keeps (port win : Nat) (value : Word) (s : State) :
    Keeps (execXwWinCfgWrite port win value s) [.regs, .unstored, .host, .anl] s :=
  keeps_bar0 (by decide) fun u => by
    simp [changesOnly_iff]

theorem execWindowDrainEnd_keeps (port win : Nat) (s : State) :
    Keeps (execWindowDrainEnd port win s) [.host] s :=
  keeps_unit <| by
    simp [changesOnly_iff]

theorem execDwAptWrite_keeps (port : Nat) (value : Word) (s : State) :
    Keeps (execDwAptWrite port value s) [.regs, .unstored] s :=
  keeps_bar0 (by decide) fun u => by
    simp [changesOnly_iff]

theorem execDwRead_keeps (port : Nat) (offset : DWord) (len : Nat) (env : MediaEnv) (s : State) :
    Keeps (execDwRead port offset len env s) [.regs, .host, .epo, .cat, .med, .coh, .lnk, .cap, .cry, .flt, .anl,
      .cur, .pwr, .pmc, .out, .net, .freeCtr] s :=
  keeps_unit <| by
    repeat' split
    all_goals simp [changesOnly_iff]

theorem execDwStore_keeps (port : Nat) (offset : DWord) (bytes : List (Option Byte)) (env : MediaEnv) (s : State) :
    Keeps (execDwStore port offset bytes env s) [.regs, .host, .epo, .cat, .med, .coh, .lnk, .cap, .cry, .flt, .anl,
      .cur, .pwr, .pmc, .out, .net, .freeCtr] s :=
  keeps_unit <| by
    repeat' split
    all_goals simp [changesOnly_iff]

theorem execEpoCtrlClose_keeps (port : Nat) (s : State) :
    Keeps (execEpoCtrlClose port s) [.unstored, .host, .epo] s :=
  keeps_bar0 (by decide) fun u => by
    repeat' split
    all_goals simp [changesOnly_iff]

theorem execAutoCloseExpiry_keeps (s : State) :
    Keeps (execAutoCloseExpiry s) [.epo] s :=
  keeps_next _ _ _ <| by
    repeat' split
    all_goals simp [changesOnly_iff]

theorem execSealArrive_keeps (tile : Nat) (s : State) :
    Keeps (execSealArrive tile s) [.regs, .epo, .cat, .med, .coh, .rte, .cap, .cry, .flt, .anl, .pmc, .out, .net,
      .freeCtr] s :=
  keeps_unit <| by
    repeat' split
    all_goals simp [changesOnly_iff]

theorem execSealReport_keeps (tile : Nat) (s : State) :
    Keeps (execSealReport tile s) [.regs, .host, .epo, .cat, .med, .coh, .rte, .cap, .cry, .flt, .anl, .cur, .pwr,
      .pmc, .out, .net, .freeCtr] s :=
  keeps_unit <| by
    repeat' split
    all_goals simp [changesOnly_iff]

theorem execSealWalkStep_keeps (tile : Nat) (s : State) :
    Keeps (execSealWalkStep tile s) [.epo, .coh, .pmc, .net] s :=
  keeps_unit <| by
    repeat' split
    all_goals simp [changesOnly_iff]

theorem execMarkerWrite_keeps (tile : Nat) (s : State) :
    Keeps (execMarkerWrite tile s) [.regs, .host, .epo, .cat, .rte, .cap, .cur, .pmc, .out] s :=
  keeps_unit <| by
    repeat' split
    all_goals simp [changesOnly_iff]

theorem execAbortStart_keeps (s : State) :
    Keeps (execAbortStart s) [.regs, .host, .epo, .anl, .cur, .pmc, .out, .freeCtr] s :=
  keeps_next _ _ _ <| by
    repeat' split
    all_goals simp [changesOnly_iff]

theorem execRollbackEnd_keeps (s : State) :
    Keeps (execRollbackEnd s) [.regs, .host, .epo, .cat, .med, .coh, .lnk, .rte, .cap, .cry, .flt, .anl, .cur, .pwr,
      .pmc, .out, .net, .freeCtr] s :=
  keeps_next _ _ _ <| by
    repeat' split
    all_goals simp [changesOnly_iff]

theorem execCoordinatorTakeover_keeps (s : State) :
    Keeps (execCoordinatorTakeover s) [.regs, .host, .epo, .cap, .cur, .pwr, .out] s :=
  keeps_next _ _ _ <| by
    dsimp only
    repeat' split
    all_goals simp [changesOnly_iff]

theorem execCoordinatorTakeback_keeps (s : State) :
    Keeps (execCoordinatorTakeback s) [.epo] s :=
  keeps_next _ _ _ <| by
    repeat' split
    all_goals simp [changesOnly_iff]

theorem execPartTimeFailover_keeps (s : State) :
    Keeps (execPartTimeFailover s) [.epo] s :=
  keeps_next _ _ _ <| by
    simp [changesOnly_iff]

theorem execStripeProgram_keeps (tile spn : Nat) (pieces : List Piece) (pad : Nat) (s : State) :
    Keeps (execStripeProgram tile spn pieces pad s) [.regs, .host, .epo, .cat, .med, .lnk, .cap, .cry, .flt, .anl,
      .cur, .pwr, .pmc, .out, .freeCtr] s :=
  keeps_wholeUnit (by decide) fun u => by
    repeat' split
    all_goals simp [changesOnly_iff]

theorem execStripeProgramDone_keeps (tile spn : Nat) (s : State) :
    Keeps (execStripeProgramDone tile spn s) [.regs, .host, .epo, .cat, .med, .lnk, .cap, .cry, .flt, .anl, .cur,
      .pwr, .pmc, .out, .freeCtr] s :=
  keeps_wholeUnit (by decide) fun u => by
    repeat' split
    all_goals simp [changesOnly_iff]

theorem execCoolingSweep_keeps (tile : Nat) (s : State) :
    Keeps (execCoolingSweep tile s) [.cat] s :=
  keeps_unit <| by
    repeat' split
    all_goals simp [changesOnly_iff]

theorem execFolioMerge_keeps (tile folio spn slot : Nat) (s : State) :
    Keeps (execFolioMerge tile folio spn slot s) [.regs, .cat, .med] s :=
  keeps_unit <| by
    repeat' split
    all_goals simp [changesOnly_iff]

theorem execWeedRelocate_keeps (tile victim dest spn : Nat) (s : State) :
    Keeps (execWeedRelocate tile victim dest spn s) [.regs, .cat, .med] s :=
  keeps_unit <| by
    repeat' split
    all_goals simp [changesOnly_iff]

theorem execRelocVerifyDone_keeps (tile : Nat) (ok : Bool) (s : State) :
    Keeps (execRelocVerifyDone tile ok s) [.regs, .host, .cat, .med, .cry, .anl, .pmc, .out, .freeCtr] s :=
  keeps_unit <| by
    repeat' split
    all_goals simp [changesOnly_iff]

theorem execRelocEraseDone_keeps (tile : Nat) (ok : Bool) (s : State) :
    Keeps (execRelocEraseDone tile ok s) [.regs, .host, .cat, .med, .anl, .out, .freeCtr] s :=
  keeps_unit <| by
    repeat' split
    all_goals simp [changesOnly_iff]

theorem execLostScanDone_keeps (tile : Nat) (s : State) :
    Keeps (execLostScanDone tile s) [.regs, .cat, .cry, .pmc, .out, .freeCtr] s :=
  keeps_unit <| by
    repeat' split
    all_goals simp [changesOnly_iff]

theorem execRebuildScan_keeps (tile : Nat) (s : State) :
    Keeps (execRebuildScan tile s) [.regs, .cat, .med, .cry, .pwr, .pmc, .out, .freeCtr] s :=
  keeps_unit <| by
    repeat' split
    all_goals simp [changesOnly_iff]

theorem execSlotGrant_keeps (tile ch : Nat) (s : State) :
    Keeps (execSlotGrant tile ch s) [.regs, .epo, .cat, .med, .coh, .cap, .cry, .flt, .anl, .pmc, .out, .net,
      .freeCtr] s :=
  keeps_unit <| by
    repeat' split
    all_goals simp [changesOnly_iff]

theorem execPhaseStart_keeps (tile : Nat) (s : State) :
    Keeps (execPhaseStart tile s) [.regs, .med, .pmc, .out] s :=
  keeps_unit <| by
    repeat' split
    all_goals simp [changesOnly_iff]

theorem execPhaseStatusCheck_keeps (tile : Nat) (ends : List OpStatus) (s : State) :
    Keeps (execPhaseStatusCheck tile ends s) [.regs, .host, .epo, .cat, .med, .anl, .pmc, .out] s :=
  keeps_unit <| by
    repeat' split
    all_goals simp [changesOnly_iff]

theorem execStretchExpiry_keeps (tile ch target block : Nat) (prog : Bool) (s : State) :
    Keeps (execStretchExpiry tile ch target block prog s) [.regs, .host, .epo, .cat, .med, .cap, .flt, .anl, .cur,
      .pwr, .pmc, .out, .freeCtr] s :=
  keeps_unit <| by
    repeat' split
    all_goals simp [changesOnly_iff]

theorem execLineReadDispatch_keeps (tile line : Nat) (s : State) :
    Keeps (execLineReadDispatch tile line s) [.regs, .epo, .cat, .med, .coh, .cap, .cry, .flt, .anl, .pmc, .out, .net,
      .freeCtr] s :=
  keeps_unit <| by
    repeat' split
    all_goals simp [changesOnly_iff]

theorem execCodewordDecoded_keeps (tile line ch : Nat) (ecc : Ecc) (kidOk tagOk : Bool) (s : State) :
    Keeps (execCodewordDecoded tile line ch ecc kidOk tagOk s) [.regs, .host, .epo, .cat, .med, .coh, .lnk, .cap,
      .cry, .flt, .anl, .cur, .pwr, .pmc, .out, .net, .freeCtr] s :=
  keeps_unit <| by
    repeat' split
    all_goals simp [changesOnly_iff]

theorem execRescueHoldTimeout_keeps (tile ch line : Nat) (s : State) :
    Keeps (execRescueHoldTimeout tile ch line s) [.med] s :=
  keeps_unit <| by
    simp [changesOnly_iff]

theorem execMediaTempPoll_keeps (tile ch target : Nat) (eighths : Int) (s : State) :
    Keeps (execMediaTempPoll tile ch target eighths s) [.regs, .host, .epo, .cat, .med, .coh, .lnk, .rte, .cap, .cry,
      .flt, .anl, .cur, .thm, .pwr, .pmc, .out, .net] s :=
  keeps_unit <| by
    repeat' split
    all_goals simp [changesOnly_iff]

theorem execMediaAlert_keeps (tile ch target : Nat) (crc thermal : Bool) (s : State) :
    Keeps (execMediaAlert tile ch target crc thermal s) [.regs, .host, .epo, .cat, .med, .coh, .lnk, .rte, .cap, .cry,
      .flt, .anl, .cur, .thm, .pwr, .pmc, .out, .net, .freeCtr] s :=
  keeps_unit <| by
    repeat' split
    all_goals simp [changesOnly_iff]

theorem execCalibrationRead_keeps (tile ch block : Nat) (corrected : List (Nat × Nat)) (s : State) :
    Keeps (execCalibrationRead tile ch block corrected s) [.regs, .epo, .cat, .med, .out] s :=
  keeps_unit <| by
    repeat' split
    all_goals simp [changesOnly_iff]

theorem execMediaScrubRead_keeps (tile ch block spn : Nat) (ecc : Ecc) (forged : Option (Nat × Nat)) (s : State) :
    Keeps (execMediaScrubRead tile ch block spn ecc forged s) [.regs, .host, .epo, .cat, .med, .lnk, .cap, .cry, .flt,
      .anl, .cur, .pwr, .pmc, .out, .freeCtr] s :=
  keeps_unit <| by
    repeat' split
    all_goals simp [changesOnly_iff]

theorem execDdrScrubStep_keeps (tile block : Nat) (ecc : Ecc) (s : State) :
    Keeps (execDdrScrubStep tile block ecc s) [.regs, .host, .epo, .cat, .med, .lnk, .cap, .cry, .flt, .anl, .cur,
      .pwr, .pmc, .out, .freeCtr] s :=
  keeps_unit <| by
    repeat' split
    all_goals simp [changesOnly_iff]

theorem execSramScrubStep_keeps (tile array way : Nat) (dirty : Bool) (ecc : Ecc) (s : State) :
    Keeps (execSramScrubStep tile array way dirty ecc s) [.regs, .host, .epo, .cat, .med, .coh, .lnk, .cap, .cry,
      .flt, .anl, .cur, .pwr, .pmc, .out, .net, .freeCtr] s :=
  keeps_wholeUnit (by decide) fun u => by
    repeat' split
    all_goals simp [changesOnly_iff]

/-- Settles O58: each row by the lemma of its operation. -/
theorem framesOfHostAndMediaCommands : Obligations.FramesOfHostAndMediaCommands := by
  unfold Obligations.FramesOfHostAndMediaCommands
  exact ⟨execIdentify_keeps, execGetFeature_keeps, execSetFeature_keeps, execReadX_keeps, execWriteX_keeps,
    execCopy_keeps, execZeroRange_keeps, execDiscard_keeps, execFlushRange_keeps, execInvalRange_keeps,
    execEpochClose_keeps, execEpochQuery_keeps, execRouteDefine_keeps, execRouteArm_keeps, execRouteRetire_keeps,
    execPinLines_keeps, execUnpinLines_keeps, execCaptureOpen_keeps, execCaptureClose_keeps,
    execCaptureDrain_keeps, execGetLog_keeps, execClearLog_keeps, execSensorRead_keeps, execFaultInject_keeps,
    execPowerState_keeps, execFwStage_keeps, execFwActivate_keeps, execAttest_keeps, execKeyCreate_keeps,
    execKeyRetire_keeps, execRightsSet_keeps, execSpareStatus_keeps, execFormat_keeps, execMediaProfile_keeps,
    execLifecycle_keeps, execSensorDisable_keeps, execRoleSwap_keeps, execOwnerSet_keeps, execRootRevoke_keeps,
    execMbClaim_keeps, execMbRelease_keeps, execMbIdleTimeout_keeps, execRegisterWrite_keeps,
    execSqDoorbell_keeps, execCqDoorbell_keeps, execSqCfgWrite_keeps, execCqCfgWrite_keeps,
    execFetchResume_keeps, execSqFetchIssue_keeps, execSqFetchReturn_keeps, execFencedCommandStart_keeps,
    execCuratorCommandExecute_keeps, execCompletionCollect_keeps, execCqCoalTimer_keeps,
    execMsixPendingSend_keeps, execXwWinCfgWrite_keeps, execWindowDrainEnd_keeps, execDwAptWrite_keeps,
    execDwRead_keeps, execDwStore_keeps, execEpoCtrlClose_keeps, execAutoCloseExpiry_keeps, execSealArrive_keeps,
    execSealReport_keeps, execSealWalkStep_keeps, execMarkerWrite_keeps, execAbortStart_keeps,
    execRollbackEnd_keeps, execCoordinatorTakeover_keeps, execCoordinatorTakeback_keeps,
    execPartTimeFailover_keeps, execStripeProgram_keeps, execStripeProgramDone_keeps, execCoolingSweep_keeps,
    execFolioMerge_keeps, execWeedRelocate_keeps, execRelocVerifyDone_keeps, execRelocEraseDone_keeps,
    execLostScanDone_keeps, execRebuildScan_keeps, execSlotGrant_keeps, execPhaseStart_keeps,
    execPhaseStatusCheck_keeps, execStretchExpiry_keeps, execLineReadDispatch_keeps, execCodewordDecoded_keeps,
    execRescueHoldTimeout_keeps, execMediaTempPoll_keeps, execMediaAlert_keeps, execCalibrationRead_keeps,
    execMediaScrubRead_keeps, execDdrScrubStep_keeps, execSramScrubStep_keeps⟩

end Sys2Proof.Machine
end

section
/-! IDENTIFY, READ_X and WRITE_X once their slot has passed (R51, R60, R71, R79 to R81). -/

namespace Sys2Proof.Machine

/-! ## Slots -/

/-- On the sideband no slot is named: the data come with the reply (R71). -/
theorem withSlot_sideband {src : Nat} {c : Ctx} {w : Word} {o : SlotRead} {b : Bool} {l : Win → DWord → Bool}
    {body : Option SlotRef → State → SlotAnswer} {s : State} (h : c.path = .sideband) :
    s.withSlot src c w o b l body =
      (body none s).after.replyWith src c (body none s).st (body none s).result (body none s).data := by
  simp only [State.withSlot, State.slotReply, h]

/-- A slot that has passed its checks takes the data, is returned, and then the command is answered (R51, R81). -/
theorem withSlot_pass {src p q i : Nat} {c : Ctx} {w : Word} {o : SlotRead} {b : Bool} {l : Win → DWord → Bool}
    {body : Option SlotRef → State → SlotAnswer} {r : SlotRef} {s : State} (h : c.path = .ring p q i)
    (hs : s.slotCheck p q i w o b l = .pass r) :
    s.withSlot src c w o b l body =
      ((if (body (some r) s).data.isEmpty then (body (some r) s).after
        else (body (some r) s).after.writeSlot p q i r (body (some r) s).data).returnSlot p q i r (body (some r) s).st
          (body (some r) s).len).reply src c (body (some r) s).st (body (some r) s).result := by
  simp only [State.withSlot, State.slotReply, h, hs]

/-! ## Whole commands -/

/-- A command that runs as a whole, once it has nothing to wait for and meets no forged line. -/
theorem exec_whole {i : Instr} {opc src : Nat} {c : Ctx} {ps : List Param} {f : State → State} {s t : State}
    (h : s.accepts opc c ps = true) (ho : opc < 0x40) (hi : exec i s = .next (s.command opc src c ps (State.whole f)))
    (hf : f s = t) (hs : t.cat.stuck = false) (hforged : t.cat.forged = none) :
    exec i s = .next t.tellFaults.undoTriggers := by
  subst hf
  rw [exec_accepted h ho hi, whole_runs f s hforged hs]

/-! ## IDENTIFY -/

theorem identifyPart_nonempty (s : State) : s.identifyPart.isEmpty = false := by
  rw [← Bool.not_eq_true, List.isEmpty_iff_length_eq_zero]
  simp [State.identifyPart, layout]

/-! ## READ_X and WRITE_X -/

theorem State.readDone_denied {c : Ctx} {a n : Nat} {e : MediaEnv} {x : Status} {s : State}
    (h : s.deniedRange (masterOf c) a n false = some x) :
    s.readDone c a n e = { st := x, after := s.deny (masterOf c) (a / 128) } := by
  simp only [State.readDone, h]

theorem State.readDone_done {c : Ctx} {a n : Nat} {e : MediaEnv} {s : State}
    (h : s.deniedRange (masterOf c) a n false = none) (hf : (s.readRange a n e).fail.isNone = true)
    (hr : (s.readRange a n e).rebuilt = false) :
    s.readDone c a n e = ⟨.done, n, (s.readRange a n e).bytes, (s.readRange a n e).bytes.length, (s.readRange a n e).after⟩ := by
  simp only [State.readDone, h, verdict, Option.isNone_iff_eq_none.mp hf, hr, Bool.false_eq_true, if_false]

theorem State.writeDone_readOnly {c : Ctx} {a n : Nat} {d : HostData} {e : MediaEnv} {s : State}
    (h : s.med.readOnly = true) : s.writeDone c a n d e = { st := .readOnly, len := n, after := s } := by
  simp only [State.writeDone, h, if_true]

/-- The lines that a WRITE_X of some host data writes. -/
def State.writeRun (a n : Nat) (d : HostData) (e : MediaEnv) (s : State) : WriteRun :=
  s.writeRange (linesOf a n) a n (fun i => d.bytes.getD i 0) (fun s l => s.home l) e

theorem State.writeDone_done {c : Ctx} {a n : Nat} {d : HostData} {e : MediaEnv} {s : State}
    (hro : s.med.readOnly = false) (h : s.deniedRange (masterOf c) a n true = none) (hd : d.ok = true)
    (hf : (s.writeRun a n d e).fail.isNone = true) (hr : (s.writeRun a n d e).rebuilt = false) :
    s.writeDone c a n d e =
      { st := .done, result := (s.writeRun a n d e).epoch, len := n, after := (s.writeRun a n d e).after } := by
  unfold State.writeRun at hf hr ⊢
  simp only [State.writeDone, hro, h, hd, verdict, Option.isNone_iff_eq_none.mp hf, hr, Bool.not_true, Bool.false_eq_true,
    if_false]

/-- Settles O9: the slot has passed, so the answer of the command's body is written, returned and replied. -/
theorem transferCommands : Obligations.TransferCommands := by
  unfold Obligations.TransferCommands
  refine ⟨?inline, ?identify, ?read, ?readDenied, ?write, ?writeReadOnly⟩
  case inline =>
    intro c w o s h hc hw
    rw [exec_accepted h (by omega) rfl]
    simp [withSlot_sideband hc, State.identified, State.replyWith, hc, Status.done]
  case identify =>
    intro p q i c w o r s h hc hs
    rw [exec_accepted h (by omega) rfl]
    simp [withSlot_pass hc hs, State.identified, identifyPart_nonempty]
  case read =>
    intro p q i c a n w o e r s h hc hrange hs hd hf hr hb hstuck hforged
    refine exec_whole h (by omega) rfl ?_ hstuck hforged
    simp only [hrange]
    rw [withSlot_pass hc hs, State.readDone_done hd hf hr]
    simp [hb]
  case readDenied =>
    intro p q i c a n w o e r x s h hc hrange hs hd hstuck hforged hn
    refine exec_whole h (by omega) rfl ?_ (by simpa [State.returnSlot_kept] using hstuck)
      (by simpa [State.returnSlot_kept] using hforged)
    simp only [hrange]
    rw [withSlot_pass hc hs, State.readDone_denied hd]
    simp only [List.isEmpty_nil, if_true]
  case write =>
    intro p q i c a n w o d e r s h hc hrange hs hro hd hok hf hr hstuck hforged
    refine exec_whole h (by omega) rfl ?_ hstuck hforged
    simp only [hrange]
    rw [withSlot_pass hc hs, State.writeDone_done hro hd hok hf hr]
    rfl
  case writeReadOnly =>
    intro p q i c a n w o d e r s h hc hrange hs hro hstuck hforged
    refine exec_whole h (by omega) rfl ?_ hstuck hforged
    simp only [hrange]
    rw [withSlot_pass hc hs, State.writeDone_readOnly hro]
    rfl

end Sys2Proof.Machine
end

section
/-! The states of the refutations: a part that is up, with a command started on a ring or at the head of the Curator queue. -/

namespace Sys2Proof.Machine

/-- A VZM-2020 that is up and ready, both host links trained, media on its two tiles, and Curator 0 primary. -/
def readyPart : State :=
  { State.reset with
    member := .vzm2020
    host := { ({} : HostState) with ports := [(0, { linkUp := true }), (1, { linkUp := true })] }
    pwr := { PowerState.reset with st := .up, ready := true, islands := true, mediaPages := [(0, 2 ^ 20), (1, 2 ^ 20)] }
    cur := { ({} : CuratorState) with primary := some 0, restart := none } }

/-- The header of the command at entry 0 of SQ 0 of HP0. -/
def ringHeader : Ctx := { path := .ring 0 0 0, tag := 0, noInt := false, rsv := false }

/-- The header of a sideband request. -/
def sidebandHeader : Ctx := { path := .sideband, tag := 0, noInt := false, rsv := false }

/-- The packet of an opcode and its parameters. -/
def packetBits (opc : Nat) (ps : List Param) : BitVec 512 :=
  BitVec.ofNat 512 (ps.foldl (fun n f => n + f.value * 2 ^ f.lo) opc)

/-- The part with a command of that ring entry started. -/
def startedPart (opc : Nat) (ps : List Param) : State :=
  { readyPart with host := { readyPart.host with
      cmds := [{ port := 0, sq := 0, idx := 0, packet := packetBits opc ps, next := 1, cq := 0, started := true, passed := false,
                 held := false, dropped := false }] } }

/-- The part with a sideband request the committed head of the Curator queue. -/
def queuedPart (opc : Nat) (ps : List Param) : State :=
  { readyPart with cur := { readyPart.cur with
      queue := [{ ctx := some sidebandHeader, mailbox := none, opcode := BitVec.ofNat 8 opc, params := ps,
                  committed := true }] } }

end Sys2Proof.Machine
end

section
/-! INVAL_RANGE and a line that is being refilled (R54, R227). -/

namespace Sys2Proof.Machine

theorem execInvalRange_runs {c : Ctx} {a n : DWord} {s : State} (h : s.accepts 0x16 c (rangeParams a n) = true)
    (hr : s.rangeCheck a.toNat n.toNat s.capacity = none) (hs : (s.invalRange c a.toNat n.toNat).cat.stuck = false)
    (hf : (s.invalRange c a.toNat n.toNat).cat.forged = none) :
    exec (.invalRange c a n) s = .next (s.invalRange c a.toNat n.toNat).tellFaults.undoTriggers :=
  exec_whole h (by omega) rfl (by simp only [hr]) hs hf

/-- Tile 1 refills line 1 (not pinned), and the directory of the line names tile 1 as a sharer: a state in which a host
command INVAL_RANGE of the first 256 bytes is running. -/
def refillingTile : State :=
  ((startedPart 0x16 (rangeParams 0 256)).setNc 1 1 { st := .refill }).setDir 1
    { st := .ex, sharers := 2 }

theorem refillingTile_accepts : refillingTile.accepts 0x16 ringHeader (rangeParams 0 256) = true := by decide +kernel

theorem refillingTile_inRange : refillingTile.rangeCheck (0 : DWord).toNat (256 : DWord).toNat refillingTile.capacity = none := by
  decide +kernel

/-- The snoop of INVAL_RANGE does not end the refill: tile 1 still holds line 1 in REFILL. -/
theorem refillingTile_keepsRefill :
    (refillingTile.invalRange ringHeader (0 : DWord).toNat (256 : DWord).toNat).cat.stuck = false ∧
    (refillingTile.invalRange ringHeader (0 : DWord).toNat (256 : DWord).toNat).cat.forged = none ∧
    ((refillingTile.invalRange ringHeader (0 : DWord).toNat (256 : DWord).toNat).nc 1 1).st = .refill := by
  decide +kernel

theorem refillingTile_named :
    1 ∈ linesOf (0 : DWord).toNat (256 : DWord).toNat ∧ 1 ∈ refillingTile.tileList ∧
    ((refillingTile.dir 1).sharers ||| (refillingTile.dir 1).pins).getLsbD 1 = true := by
  decide +kernel

theorem tellFaults_undoTriggers_nc (k l : Nat) (s : State) : s.tellFaults.undoTriggers.nc k l = s.nc k l := by
  simp [State.nc, State.undoTriggers_kept, State.tellFaults_kept]

/-- Refutes O10: a near cache that a line's directory entry names may hold the line in REFILL, and INVAL_RANGE leaves it
there, so the line is not I afterwards. -/
theorem not_rangeCommands : ¬ Obligations.RangeCommands := by
  unfold Obligations.RangeCommands
  intro h
  obtain ⟨_, _, _, _, _, _, _, _, hinval⟩ := h
  obtain ⟨hstuck, hforged, hrefill⟩ := refillingTile_keepsRefill
  obtain ⟨hline, htile, hbit⟩ := refillingTile_named
  have hrun := execInvalRange_runs refillingTile_accepts refillingTile_inRange hstuck hforged
  have hi := hinval ringHeader 0 256 refillingTile refillingTile_accepts refillingTile_inRange hstuck hforged
  rw [hrun, yields_next_iff] at hi
  have hst := hi 1 hline 1 htile hbit
  rw [tellFaults_undoTriggers_nc, hrefill] at hst
  exact absurd hst (by decide)

end Sys2Proof.Machine
end

section
/-! UNPIN_LINES and the move of pinned lines out of a way to be disabled (R224, R230). -/

namespace Sys2Proof.Machine

/-- The lines of UNPIN_LINES in turn: how many had been pinned, and the state after the last. -/
def State.unpinRun (k a n : Nat) (s : State) : Nat × State :=
  pinRun (fun l s => s.unpinLine k l) (linesOf a (128 * n)) s

theorem execUnpinLines_runs {c : Ctx} {k : Byte} {a : DWord} {n : Word} {s : State}
    (h : s.accepts 0x24 c (pinParams k a n) = true) (hp : s.pinCheck k.toNat a.toNat n.toNat = none)
    (hs : ((s.unpinRun k.toNat a.toNat n.toNat).2.settlePending k.toNat).cat.stuck = false)
    (hf : ((s.unpinRun k.toNat a.toNat n.toNat).2.settlePending k.toNat).cat.forged = none) :
    exec (.unpinLines c k a n) s =
      .next (((s.unpinRun k.toNat a.toNat n.toNat).2.settlePending k.toNat).reply (srcStream k.toNat) c .done
        (s.unpinRun k.toNat a.toNat n.toNat).1).tellFaults.undoTriggers :=
  exec_whole h (by omega) rfl (by simp only [hp, State.unpinRun]) (by simpa using hs) (by simpa using hf)

/-- A near-cache table of tile 0 that lists line 0 twice, in way 3: first clean and not pinned, then dirty and pinned. Ways 3
and 5 are locked, way 3 waits to be disabled, and tile 0 has used all its WB credit; a host command UNPIN_LINES of line 0 is
running. -/
def linePinnedBelow : State :=
  let s := startedPart 0x24 (pinParams 0 0 1)
  (({ s with coh := { s.coh with
      nc := [(ncKey 0 0, { st := .s, way := 3 }), (ncKey 0 0, { st := .m, pin := true, way := 3 })],
      wbUsed := [(wbKey (s.home 0) 0, 32)] } } : State).putField
    .ncLock 0 0 15 0 0x28).putField .ncWaydis 0 0 31 16 0x8

theorem linePinnedBelow_accepts : linePinnedBelow.accepts 0x24 ringHeader (pinParams 0 0 1) = true := by decide +kernel

theorem linePinnedBelow_inRange :
    linePinnedBelow.pinCheck (0 : Byte).toNat (0 : DWord).toNat (1 : Word).toNat = none := by
  decide +kernel

theorem linePinnedBelow_named : 0 ∈ linesOf (0 : DWord).toNat (128 * (1 : Word).toNat) := by decide

/-- The line is not unpinned, since the table's first entry is not pinned; the move of way 3 then brings up the second. -/
theorem linePinnedBelow_staysPinned :
    let t := (linePinnedBelow.unpinRun (0 : Byte).toNat (0 : DWord).toNat (1 : Word).toNat).2.settlePending (0 : Byte).toNat
    t.cat.stuck = false ∧ t.cat.forged = none ∧ (t.nc (0 : Byte).toNat 0).pin = true := by
  decide +kernel

theorem State.reply_nc (src : Nat) (c : Ctx) (st : Status) (r k l : Nat) (s : State) : (s.reply src c st r).nc k l = s.nc k l := by
  simp only [State.nc, State.reply_kept]

/-- Refutes O34: the statement is over every state, also one whose near-cache table is not in canonical form. Where the table
lists a line twice, UNPIN_LINES sees the first entry alone, and the move of a way that waits to be disabled (R230) writes the
second, pinned one over it. -/
theorem not_pinsAndLocks : ¬ Obligations.PinsAndLocks := by
  unfold Obligations.PinsAndLocks
  intro h
  obtain ⟨_, _, _, _, _, hunpin, _⟩ := h
  obtain ⟨hstuck, hforged, hpin⟩ := linePinnedBelow_staysPinned
  have hrun := execUnpinLines_runs linePinnedBelow_accepts linePinnedBelow_inRange hstuck hforged
  unfold State.unpinRun at hstuck hforged
  have hno := hunpin ringHeader 0 0 1 linePinnedBelow linePinnedBelow_accepts linePinnedBelow_inRange hstuck hforged
  rw [hrun, yields_next_iff] at hno
  have hoff := hno 0 linePinnedBelow_named
  rw [tellFaults_undoTriggers_nc, State.reply_nc, hpin] at hoff
  exact absurd hoff (by decide)

end Sys2Proof.Machine
end

section
/-! What a fault event leaves standing: the islands, the last reset, the host links, and the TILE resets of other tiles
(R401 to R410). An escalation may halt or fail a tile, abort the open epochs and end a seal; it touches none of these. -/

namespace Sys2Proof.Machine

/-- The islands, the last reset, and the link and PERST# of each host port. -/
def State.footing (s : State) : Bool × Nat × (Nat → Bool × Bool) :=
  (s.pwr.islands, s.pwr.lastReset, fun q => ((s.port q).linkUp, (s.port q).perstLow))

theorem State.footing_congr {s t : State} (hp : t.pwr = s.pwr) (hq : t.host.ports = s.host.ports) : t.footing = s.footing := by
  simp only [State.footing, State.port, hp, hq]

/-- What each step of a fold leaves as it was, the fold leaves as it was. -/
theorem foldl_same {A V : Type} (g : State → V) (f : State → A → State) (h : ∀ s x, g (f s x) = g s) (l : List A) (s : State) :
    g (l.foldl f s) = g s := by
  induction l generalizing s with
  | nil => rfl
  | cons x l ih => rw [List.foldl_cons, ih, h]

/-! ## Host rings and replies -/

@[simp] theorem State.raiseEvent_ports (k : Nat) (s : State) : (s.raiseEvent k).host.ports = s.host.ports :=
  foldl_same (fun s => s.host.ports) _ (fun s p => (State.raiseOn_host p k s).1) _ s

@[simp] theorem State.sqError_ports (p n c : Nat) (s : State) : (s.sqError p n c).host.ports = s.host.ports := by
  simp [State.sqError, State.ringRecord, State.setSq]

@[simp] theorem State.release_ports (p c n : Nat) (s : State) : (s.release p c n).host.ports = s.host.ports := rfl

@[simp] theorem State.stageCqe_ports (p src : Nat) (e : Nat × Cqe) (s : State) :
    (s.stageCqe p src e).host.ports = s.host.ports := by
  unfold State.stageCqe
  split <;> rfl

@[simp] theorem State.leaveQueue_host (c : Ctx) (s : State) : (s.leaveQueue c).host = s.host := by
  unfold State.leaveQueue
  split <;> rfl

theorem State.answer_ports (src : Nat) (k : Cmd) (st : Status) (r : Nat) (s : State) :
    (s.answer src k st r).host.ports = s.host.ports := by
  unfold State.answer
  dsimp only
  split <;> simp [State.setCmds]

@[simp] theorem State.reply_ports (src : Nat) (c : Ctx) (st : Status) (r : Nat) (s : State) :
    (s.reply src c st r).host.ports = s.host.ports := by
  simp only [State.reply, State.replyWith]
  repeat' split
  · rfl
  · rfl
  · exact State.answer_ports ..

theorem State.raiseEvent_footing (k : Nat) (s : State) : (s.raiseEvent k).footing = s.footing :=
  State.footing_congr (by simp) (by simp)

theorem State.reply_footing (src : Nat) (c : Ctx) (st : Status) (r : Nat) (s : State) :
    (s.reply src c st r).footing = s.footing :=
  State.footing_congr (by simp) (by simp)

/-- A write of a host port that keeps its link and PERST#. -/
theorem State.setPort_footing {p : Nat} {v : HostPort} {s : State} (hl : v.linkUp = (s.port p).linkUp)
    (hp : v.perstLow = (s.port p).perstLow) : (s.setPort p v).footing = s.footing := by
  have hq (q : Nat) : (((s.setPort p v).port q).linkUp, ((s.setPort p v).port q).perstLow) =
      ((s.port q).linkUp, (s.port q).perstLow) := by
    by_cases h : q = p
    · subst h; rw [State.setPort_port, hl, hp]
    · simp only [State.port, State.setPort, tget_tset_ne _ _ _ h]
  simp only [State.footing, hq]
  rfl

theorem State.setFetches_footing (p : Nat) (l : List Fetch) (s : State) :
    (s.setPort p { s.port p with fetches := l }).footing = s.footing :=
  State.setPort_footing rfl rfl

theorem State.giveUp_footing (p : Nat) (l : List Fetch) (f : Fetch) (s : State) : (s.giveUp p l f).footing = s.footing := by
  simp only [State.giveUp]
  split
  · rfl
  · rw [State.setFetches_footing]; rfl

theorem State.placeFetch_footing (p : Nat) (f : Fetch) (es : List Fetched) (s : State) :
    (s.placeFetch p f es).footing = s.footing := by
  have herr (p n c : Nat) (s : State) : (s.sqError p n c).footing = s.footing :=
    State.footing_congr (by simp [State.sqError, State.ringRecord]) (by simp)
  have hrelease (p c n : Nat) (s : State) : (s.release p c n).footing = s.footing := rfl
  have hedges (l : List Fetched) (s : State) : (l.foldl (fun (s : State) _ => s.pmcEdge p 0x61 0) s).footing = s.footing :=
    foldl_same State.footing _ (fun s _ => State.footing_congr (by simp) (by simp)) l s
  simp only [State.placeFetch]
  repeat' split
  · exact hrelease ..
  · rw [hedges]; rfl
  · rw [State.raiseEvent_footing, State.setFetches_footing, hrelease, herr, hedges]; rfl

theorem State.placeReturned_footing (p : Nat) (f : Fetch) (s : State) : (s.placeReturned p f).footing = s.footing := by
  simp only [State.placeReturned]
  split
  · rfl
  · rw [State.placeFetch_footing, State.setFetches_footing]

theorem State.dropFetches_footing (p : Nat) (s : State) : (s.dropFetches p).footing = s.footing := by
  simp only [State.dropFetches]
  rw [foldl_same State.footing _ (fun s f => State.placeReturned_footing p f s), foldl_same State.footing _ (fun s f => State.giveUp_footing p _ f s)]

/-! ## Aborts and seals -/

theorem State.abortCommand_footing (ws : List Ctx) (k : Cmd) (s : State) : (s.abortCommand ws k).footing = s.footing := by
  simp only [State.abortCommand]
  repeat' split
  all_goals exact State.footing_congr (by simp [State.returnSlot_kept]) (by simp [State.returnSlot_kept])

theorem State.startAbort_footing (s : State) : s.startAbort.footing = s.footing := by
  simp only [State.startAbort]
  split
  · rfl
  · rw [foldl_same State.footing _ (fun s t => State.footing_congr (by simp) (by simp)), State.raiseEvent_footing,
      foldl_same State.footing _ (fun s k => State.abortCommand_footing _ k s),
      foldl_same State.footing _ (fun s p => (State.footing_congr (by simp) (by simp)).trans (State.dropFetches_footing p s))]
    rfl

theorem State.afterSeal_footing (n : Nat) (s : State) (t : Trigger) : (s.afterSeal n t).footing = s.footing := by
  rcases t with (_ | _) | _ | _ | _ | _ | _ | _ <;> rfl

theorem State.answerWaiters_footing (s : State) : s.answerWaiters.footing = s.footing := by
  simp only [State.answerWaiters]
  rw [foldl_same State.footing _ (fun s w => State.reply_footing _ _ _ _ s)]
  rfl

theorem State.finishSeal_footing (s : State) : s.finishSeal.footing = s.footing := by
  have hact (l : List Trigger) (s : State) : (s.actTriggers l).footing = s.footing :=
    State.footing_congr (by simp [State.actTriggers_kept]) (by simp [State.actTriggers_kept])
  simp only [State.finishSeal]
  repeat' split
  · rfl
  · rw [hact, State.answerWaiters_footing, foldl_same State.footing _ (fun s t => State.afterSeal_footing _ s t)]; rfl
  · rw [State.answerWaiters_footing, foldl_same State.footing _ (fun s t => State.afterSeal_footing _ s t)]; rfl
  · rfl

/-! ## Escalations and fault events -/

theorem State.failTile_footing (t : Nat) (s : State) : (s.failTile t).footing = s.footing := by
  simp only [State.failTile]
  rw [State.finishSeal_footing]
  exact State.footing_congr (by simp) (by simp)

theorem State.annal_footing (t : Nat) (e : AEvent) (s : State) : (s.annal t e).footing = s.footing :=
  State.footing_congr (by simp) (by simp)

theorem State.escalate_footing (t id sev slot : Nat) (s : State) : (s.escalate t id sev slot).footing = s.footing := by
  simp only [State.escalate, State.proceed, State.tileHalt]
  repeat' split
  · rw [State.failTile_footing]; exact State.annal_footing ..
  · exact State.annal_footing ..
  · rw [State.startAbort_footing, State.annal_footing]

theorem State.openSlot_footing (t id sev : Nat) (s : State) : (s.openSlot t id sev).footing = s.footing := by
  simp only [State.openSlot]
  repeat' split
  · rfl
  · rfl
  · rfl
  · exact State.escalate_footing ..
  · rfl
  · exact State.escalate_footing ..

theorem State.event_footing (t id : Nat) (i : FaultInfo) (s : State) : (s.event t id i).footing = s.footing := by
  have hput (r : Reg) (u i v : Nat) (s : State) : (s.putReg r u i v).footing = s.footing := State.footing_congr (by simp) (by simp)
  have hfield (r : Reg) (u i hi lo v : Nat) (s : State) : (s.putField r u i hi lo v).footing = s.footing := hput ..
  have hdrawn (n : Nat) (s : State) : (s.drawn n).footing = s.footing := rfl
  have hsrc (v : Src) : (s.setSrc t id v).footing = s.footing := rfl
  simp only [State.event, apply_ite State.footing, State.openSlot_footing, State.raiseEvent_footing, State.annal_footing, hput,
    hfield, hdrawn, hsrc, ite_self]

theorem State.fault_footing (t id : Nat) (i : FaultInfo) (s : State) : (s.fault t id i).footing = s.footing := by
  simp only [State.fault]
  split
  · exact State.event_footing ..
  · rfl

theorem State.closePasses_footing (t : Nat) (l : List Nat) (n : Nat) (w o b : Bool) (s : State) :
    (s.closePasses t l n w o b).footing = s.footing := by
  simp only [State.closePasses]
  rw [State.fault_footing]
  exact State.footing_congr (by simp) (by simp)

/-! ## TILE resets in progress -/

theorem State.underReset_congr {s t : State} (h : t.flt.resetting = s.flt.resetting) (k : Nat) :
    t.underReset k = s.underReset k := by
  simp only [State.underReset, h]

/-- A tile that fails is no longer under reset; every other one is as it was (R410). -/
theorem State.failTile_underReset {t k : Nat} (h : k ≠ t) (s : State) : (s.failTile t).underReset k = s.underReset k := by
  have hany (l : List (Nat × Nat)) : (l.filter (fun e => e.1 != t)).any (fun e => e.1 == k) = l.any (fun e => e.1 == k) := by
    rw [Bool.eq_iff_iff]
    simp only [List.any_filter, List.any_eq_true]
    exact exists_congr fun e => and_congr_right fun _ => by
      simp only [Bool.and_eq_true, bne_iff_ne, beq_iff_eq, and_iff_right_iff_imp]
      rintro rfl
      exact h
  simp only [State.failTile, State.underReset, State.finishSeal_kept, State.raiseEvent_kept, hany]

theorem State.escalate_underReset {t k : Nat} (h : k ≠ t) (id sev slot : Nat) (s : State) :
    (s.escalate t id sev slot).underReset k = s.underReset k := by
  simp only [State.escalate, State.proceed, State.tileHalt]
  repeat' split
  · rw [State.failTile_underReset h]; exact State.underReset_congr (by simp) k
  · exact State.underReset_congr (by simp) k
  · exact State.underReset_congr (by simp) k

theorem State.openSlot_underReset {t k : Nat} (h : k ≠ t) (id sev : Nat) (s : State) :
    (s.openSlot t id sev).underReset k = s.underReset k := by
  simp only [State.openSlot]
  repeat' split
  · rfl
  · rfl
  · rfl
  · exact State.escalate_underReset h ..
  · rfl
  · exact State.escalate_underReset h ..

theorem State.event_underReset {t k : Nat} (h : k ≠ t) (id : Nat) (i : FaultInfo) (s : State) :
    (s.event t id i).underReset k = s.underReset k := by
  have hput (r : Reg) (u i v : Nat) (s : State) : (s.putReg r u i v).underReset k = s.underReset k :=
    State.underReset_congr (by simp) k
  have hfield (r : Reg) (u i hi lo v : Nat) (s : State) : (s.putField r u i hi lo v).underReset k = s.underReset k := hput ..
  have hraise (n : Nat) (s : State) : (s.raiseEvent n).underReset k = s.underReset k := State.underReset_congr (by simp) k
  have hannal (e : AEvent) (s : State) : (s.annal t e).underReset k = s.underReset k := State.underReset_congr (by simp) k
  have hdrawn (n : Nat) (s : State) : (s.drawn n).underReset k = s.underReset k := rfl
  have hsrc (v : Src) : (s.setSrc t id v).underReset k = s.underReset k := rfl
  simp only [State.event, apply_ite (State.underReset · k), State.openSlot_underReset h, hraise, hannal, hput, hfield, hdrawn,
    hsrc, ite_self]

theorem State.fault_underReset {t k : Nat} (h : k ≠ t) (id : Nat) (i : FaultInfo) (s : State) :
    (s.fault t id i).underReset k = s.underReset k := by
  simp only [State.fault]
  split
  · rw [State.event_underReset h]; rfl
  · rfl

theorem State.closePasses_underReset {t k : Nat} (h : k ≠ t) (l : List Nat) (n : Nat) (w o b : Bool) (s : State) :
    (s.closePasses t l n w o b).underReset k = s.underReset k := by
  simp only [State.closePasses]
  rw [State.fault_underReset h]
  exact State.underReset_congr (by simp) k

end Sys2Proof.Machine
end

section
/-! COLD, WARM, TILE and port resets, and host links (R64, R83, R356, R410, R484 to R486). -/

namespace Sys2Proof.Machine

/-! ## COLD and WARM -/

theorem State.noteReset_pwr (kind v : Nat) (s : State) : (s.noteReset kind v).pwr = s.pwr := by simp

theorem State.noteReset_cur (kind v : Nat) (s : State) : (s.noteReset kind v).cur = s.cur := by simp

theorem State.noteReset_host (kind v : Nat) (s : State) : (s.noteReset kind v).host = s.host := by simp

theorem State.releaseIslands_cur (s : State) : s.releaseIslands.cur = s.cur := by simp

theorem State.coldStart_pwr (s : State) :
    s.coldStart.pwr.islands = false ∧ s.coldStart.pwr.lastReset = s.lastAfter 1 ∧ s.coldStart.pwr.ready = false ∧
    s.coldStart.pwr.resetN = s.pwr.resetN :=
  ⟨rfl, rfl, rfl, rfl⟩

theorem State.coldStart_cleared (s : State) :
    s.coldStart.cur.primary = none ∧ s.coldStart.coh.nc = [] ∧ s.coldStart.host.cmds = [] :=
  ⟨rfl, rfl, rfl⟩

theorem State.releaseIslands_pwr (s : State) :
    s.releaseIslands.pwr.islands = true ∧ s.releaseIslands.pwr.lastReset = s.pwr.lastReset := by
  simp only [State.releaseIslands]
  split
  · exact ⟨rfl, rfl⟩
  · rw [foldl_same State.pwr _ (fun s t => by simp)]
    exact ⟨rfl, rfl⟩

theorem State.afterWarm_pwr (s : State) :
    s.afterWarm.pwr.islands = true ∧ s.afterWarm.pwr.warmBoot = true ∧
    s.afterWarm.pwr.lastReset = (if s.pwr.ready then 2 else min 2 s.pwr.lastReset) :=
  ⟨rfl, rfl, rfl⟩

theorem State.afterWarm_cleared (s : State) : s.afterWarm.cur.primary = none ∧ s.afterWarm.host.cmds = [] := by
  refine ⟨rfl, ?_⟩
  simp [State.afterWarm, State.rebootCurators_kept, State.bootEpochs_kept, State.killAll_kept, State.restoreData_kept]
  rfl

theorem exec_coldReset_up {s : State} (h : s.pwr.vaonOk = true) (hst : s.pwr.st = .up) :
    exec .coldReset s = .next ((({ s with pwr := { s.pwr with resetN := false } } : State).coldStart).noteReset 1 0) := by
  change execColdReset s = _
  simp only [execColdReset, h, if_true, State.resetLow, hst]

theorem exec_warmReset {p : Nat} {w : Word} {s : State} (h : s.takesWrite p = true) :
    exec (.warmReset p w) s = .next (s.commitStore.writePartReset p w.toNat) :=
  bar0_open p _ s h

/-- A WARM reset that reaches running islands (R486). -/
theorem exec_warmReset_keyed {p : Nat} {w : Word} {s : State} (h : s.takesWrite p = true) (hk : bits w.toNat 31 16 = 0x5741)
    (hw : bits w.toNat 0 0 = 1) (hst : s.pwr.st = .up) (hi : s.pwr.islands = true) :
    exec (.warmReset p w) s = .next ((s.commitStore.warmStart).noteReset 2 0) := by
  have hst' : s.commitStore.pwr.st = .up := hst
  have hi' : s.commitStore.pwr.islands = true := hi
  rw [exec_warmReset h]
  simp only [State.writePartReset, hk, hw, hst', hi', and_self, if_true]

theorem exec_warmReset_refused {p : Nat} {w : Word} {s : State} (h : s.takesWrite p = true)
    (hk : bits w.toNat 31 16 ≠ 0x5741) :
    exec (.warmReset p w) s = .next (s.commitStore.refusedWrite 0 p partResetOff w.toNat) := by
  rw [exec_warmReset h]
  simp only [State.writePartReset, hk, false_and, if_false]

/-- Before the part is ready a WARM reset leaves an earlier COLD reset the last one (R17). -/
theorem State.warmStart_early {s : State} (hr : s.pwr.ready = false) (hl : s.pwr.lastReset = 1) :
    s.warmStart.pwr.lastReset = 1 := by
  simp only [State.warmStart, hr, Bool.false_or]
  split
  · rw [s.afterWarm_pwr.2.2, hr, hl]; rfl
  · rw [s.coldStart.releaseIslands_pwr.2, s.coldStart_pwr.2.1, State.lastAfter, hr, hl]; rfl

/-! ## TILE resets -/

theorem xor_two_pow_ne (t k : Nat) : t ≠ t ^^^ 2 ^ k := by
  intro h
  have h0 : t ^^^ (t ^^^ 2 ^ k) = 0 := by rw [← h, Nat.xor_self]
  rw [← Nat.xor_assoc, Nat.xor_self, Nat.zero_xor] at h0
  exact absurd h0 (by positivity)

/-- The closed passes of its neighbours leave the TILE reset in progress. -/
theorem State.closeNeighbours_underReset (t : Nat) (s : State) : (s.closeNeighbours t).underReset t = s.underReset t := by
  unfold State.closeNeighbours
  refine foldl_same (State.underReset · t) _ (fun s k => ?_) _ s
  change (State.closePasses ..).underReset t = _
  exact State.closePasses_underReset (xor_two_pow_ne t k) ..

theorem State.closeNeighbours_footing (t : Nat) (s : State) : (s.closeNeighbours t).footing = s.footing := by
  unfold State.closeNeighbours
  refine foldl_same State.footing _ (fun s k => ?_) _ s
  change (State.closePasses ..).footing = _
  exact State.closePasses_footing ..

theorem State.startAbort_rollback (s : State) : s.startAbort.epo.rollback = true := by
  have hdrop (l : List Nat) (s : State) :
      (l.foldl (fun (s : State) p => ((s.dropFetches p).putField .ringGctrl p 0 31 31 1).putField .ringGctrl p 0 1 1 1) s).epo =
        s.epo :=
    foldl_same State.epo _ (fun s p => by simp [State.dropFetches_kept]) l s
  simp only [State.startAbort]
  split
  next h => exact h
  · rw [foldl_same State.epo _ (fun s t => by simp), (State.raiseEvent_kept 1 _).2.2.2.1,
      foldl_same State.epo _ (fun s k => by simp [State.abortCommand_kept]), hdrop]

theorem State.noteReset_startAbort_frame (kind v : Nat) (s : State) :
    (s.noteReset kind v).startAbort.flt = s.flt ∧ (s.noteReset kind v).startAbort.pwr = s.pwr := by
  constructor <;> simp

/-- A TILE reset is in progress, it is the last reset, and the open epochs abort (R65, R410). -/
theorem State.tileReset_done (k : Nat) (s : State) :
    (s.tileReset k).underReset k = true ∧ (s.tileReset k).pwr.lastReset = s.lastAfter 3 ∧
    (s.tileReset k).epo.rollback = true := by
  unfold State.tileReset
  dsimp only
  refine ⟨?reset, ?last, State.startAbort_rollback _⟩
  case reset =>
    rw [State.underReset_congr (congrArg FaultState.resetting (State.noteReset_startAbort_frame ..).1),
      State.closeNeighbours_underReset]
    simp [State.underReset]
  case last =>
    rw [(State.noteReset_startAbort_frame ..).2]
    exact congrArg (fun x => x.2.1) (State.closeNeighbours_footing k _)

/-! ## Host ports -/

/-- FLR leaves of the port's commands only started ones, whose results are dropped (R83). -/
theorem State.flrPort_cmds {p : Nat} {c : Cmd} {s : State} (h : c ∈ (s.flrPort p).host.cmds) (hp : c.port = p) :
    c.started = true ∧ c.dropped = true := by
  simp only [State.flrPort, State.setCmds, List.mem_map, List.mem_filter, Bool.or_eq_true, bne_iff_ne, ne_eq] at h
  obtain ⟨k, ⟨_, hk⟩, rfl⟩ := h
  by_cases hkp : k.port = p
  · simp only [hkp, beq_self_eq_true, if_true, and_true]
    simpa [hkp] using hk
  · simp only [beq_eq_false_iff_ne.mpr hkp, Bool.false_eq_true, if_false] at hp
    exact absurd hp hkp

theorem State.flrPort_footing (p : Nat) (s : State) : (s.flrPort p).footing = s.footing := by
  have hclear (s : State) : (s.clearBank p).footing = s.footing := by
    unfold State.clearBank
    exact State.setPort_footing (v := { s.port p with
      msixEn := false, fmask := false, rotUrg := 0, rotNorm := 0, nextSrc := 0, fetches := [], heldDw := [] }) rfl rfl
  have hcount (n : Nat) (s : State) : (s.count .ringFlrDrops p 0 31 0 n).footing = s.footing :=
    State.footing_congr (by simp) (by simp)
  have hcmds (l : List Cmd) (s : State) : (s.setCmds l).footing = s.footing := rfl
  have hregs (s : State) (m : Tbl Word) : ({ s with regs := m } : State).footing = s.footing := rfl
  simp only [State.flrPort, hcmds, hcount, hclear, hregs]

theorem State.closeHost_footing (p : Nat) (s : State) : (s.closeHost p).footing = s.footing := by
  simp only [State.closeHost]
  split
  · rfl
  · exact State.closePasses_footing ..

theorem passKey_inj {t n m : Nat} (h : n ≠ m) : passKey t n ≠ passKey t m := by
  simp only [passKey]
  omega

/-- Once the passes of a host port have closed, the first of them is closed (R356). -/
theorem State.closeHost_closed (p : Nat) (s : State) : (s.closeHost p).passClosed p 0 = true := by
  have hclose (s : State) : ([0, 1, 90].foldl (fun (s : State) n => s.setPass p n true) s).passClosed p 0 = true := by
    simp only [List.foldl, State.passClosed, State.setPass]
    rw [tget_tset_ne _ _ _ (passKey_inj (by decide)), tget_tset_ne _ _ _ (passKey_inj (by decide)), tget_tset_self]
  simp only [State.closeHost]
  split
  next h => exact h
  · simp only [State.passClosed, State.closePasses, State.drawn_kept, State.fault_kept, State.putReg_kept, State.count_kept,
      State.bump_kept]
    exact hclose s

theorem State.port_of_footing {p : Nat} {s t : State} (h : t.footing = s.footing) :
    (t.port p).linkUp = (s.port p).linkUp ∧ (t.port p).perstLow = (s.port p).perstLow := by
  have hp : ((t.port p).linkUp, (t.port p).perstLow) = ((s.port p).linkUp, (s.port p).perstLow) :=
    congrFun (congrArg (fun x => x.2.2) h) p
  exact Prod.mk.inj hp

theorem State.pwr_of_footing {s t : State} (h : t.footing = s.footing) :
    t.pwr.islands = s.pwr.islands ∧ t.pwr.lastReset = s.pwr.lastReset :=
  ⟨congrArg (fun x => x.1) h, congrArg (fun x => x.2.1) h⟩

/-- A port whose PERST# falls in dual host mode, its partner's being high, resets alone (R485). -/
theorem State.perstFalls_alone {p : Nat} {s : State} (hst : s.pwr.st = .up) (hi : s.pwr.islands = true) (hd : s.dual = true)
    (hq : (s.port (1 - p)).perstLow = false) :
    s.perstFalls p = ((s.setPort p { s.port p with perstLow := true, linkUp := false }).closeHost p).flrPort p := by
  simp [State.perstFalls, hst, hi, hd, hq]

/-- In single host mode PERST# is a COLD reset that ends at once (R485). -/
theorem State.perstFalls_single {p : Nat} {s : State} (hst : s.pwr.st = .up) (hi : s.pwr.islands = true) (hd : s.dual = false) :
    s.perstFalls p =
      (((s.setPort p { s.port p with perstLow := true, linkUp := false }).coldStart).noteReset 1 0).releaseIslands := by
  simp [State.perstFalls, hst, hi, hd]

theorem exec_perst_low {p : Nat} {s : State} (hp : s.hasPort p = true) (hl : (s.port p).perstLow = false) :
    exec (.perst p true) s = .next (s.perstFalls p) := by
  change execPerst p true s = _
  simp [execPerst, withUnit_true, hp, hl]

theorem exec_hostLinkLoss {p : Nat} {s : State} (hp : s.hasPort p = true) :
    exec (.hostLinkLoss p) s =
      .next (if (s.port p).linkUp then (s.setPort p { s.port p with linkUp := false }).closeHost p else s) := by
  change execHostLinkLoss p s = _
  simp only [execHostLinkLoss, hp, withUnit_true]

theorem exec_hostLinkUp {p : Nat} {a b : Byte} {m f : Bool} {s : State} (hp : s.hasPort p = true) :
    exec (.hostLinkUp p a b m f) s = .next (if s.canTrain p then s.linkTrains p a b m f else s) := by
  change execHostLinkUp p a b m f s = _
  simp only [execHostLinkUp, hp, withUnit_true]

theorem exec_tileReset {k : Nat} {s : State} (hk : s.hasTile k = true) :
    exec (.tileReset k) s = .next (if s.canReset k then s.tileReset k else s) := by
  change execTileReset k s = _
  simp only [execTileReset, hk, withUnit_true]

theorem exec_flr {p : Nat} {s : State} (hp : s.hasPort p = true) (hu : s.hostUp p = true) :
    exec (.flr p) s = .next ((s.flrPort p).noteReset 4 p) := by
  change withUnit (s.hasPort p) (fun s => if s.hostUp p then (s.flrPort p).noteReset 4 p else s) s = _
  rw [withUnit_of _ _ s hp, if_pos hu]

theorem exec_perst_high {p : Nat} {s : State} (hp : s.hasPort p = true) :
    exec (.perst p false) s = .next (s.setPort p { s.port p with perstLow := false }) := by
  change execPerst p false s = _
  simp only [execPerst, hp, withUnit_true, Bool.not_false, if_true]

/-- Settles O46: each reset as its own lemma gives it; a fault event met on the way leaves the islands, the last reset and
the links standing. -/
theorem resetsAndLinks : Obligations.ResetsAndLinks := by
  unfold Obligations.ResetsAndLinks
  refine ⟨?cold, ?coldOff, ?warm, ?warmRefused, ?warmEarly, ?tile, ?tileNot, ?flr, ?perstHigh, ?perstDual, ?perstSingle, ?loss,
    ?lossDown, ?linkUp, ?linkNot⟩
  case cold =>
    intro s hv hst
    rw [exec_coldReset_up hv hst, yields_next_iff]
    obtain ⟨hislands, hlast, hready, hresetN⟩ := State.coldStart_pwr { s with pwr := { s.pwr with resetN := false } }
    obtain ⟨hprimary, hnc, hcmds⟩ := State.coldStart_cleared { s with pwr := { s.pwr with resetN := false } }
    simp only [State.noteReset_kept]
    exact ⟨hresetN, hislands, hlast, hready, hprimary, hnc, hcmds⟩
  case coldOff =>
    intro s hv
    change execColdReset s = _
    simp only [execColdReset, hv, Bool.false_eq_true, if_false]
  case warm =>
    intro p w s h hk hw hst hi hr
    have hr' : s.commitStore.pwr.ready = true := hr
    rw [exec_warmReset_keyed h hk hw hst hi, yields_next_iff]
    obtain ⟨hislands, hboot, hlast⟩ := s.commitStore.afterWarm_pwr
    obtain ⟨hprimary, hcmds⟩ := s.commitStore.afterWarm_cleared
    simp only [State.noteReset_kept, State.warmStart, hr', Bool.true_or, if_true] at hlast ⊢
    exact ⟨hlast, hislands, hboot, hprimary, hcmds⟩
  case warmRefused => exact fun p w s h hk => exec_warmReset_refused h hk
  case warmEarly =>
    intro p w s h hk hw hst hi hr hl
    rw [exec_warmReset_keyed h hk hw hst hi, yields_next_iff, State.noteReset_pwr]
    exact State.warmStart_early hr hl
  case tile =>
    intro k s hk hr
    rw [exec_tileReset hk, yields_next_iff, if_pos hr]
    exact s.tileReset_done k
  case tileNot =>
    intro k s hk hr
    rw [exec_tileReset hk, hr]
    rfl
  case flr =>
    intro p s hp hu
    rw [exec_flr hp hu, yields_next_iff, State.noteReset_host]
    exact fun c hc hcp => State.flrPort_cmds hc hcp
  case perstHigh => exact fun p s hp => exec_perst_high hp
  case perstDual =>
    intro p s hp hl hst hi hd hq
    rw [exec_perst_low hp hl, yields_next_iff, State.perstFalls_alone hst hi hd hq]
    have hf := (State.flrPort_footing p _).trans
      (State.closeHost_footing p (s.setPort p { s.port p with perstLow := true, linkUp := false }))
    obtain ⟨hlink, hperst⟩ := State.port_of_footing (p := p) hf
    obtain ⟨hislands, hlast⟩ := State.pwr_of_footing hf
    rw [State.setPort_port] at hlink hperst
    exact ⟨hlink, hperst, hlast, hislands.trans hi⟩
  case perstSingle =>
    intro p s hp hl hst hi hd
    rw [exec_perst_low hp hl, yields_next_iff, State.perstFalls_single hst hi hd]
    obtain ⟨hislands, hlast⟩ := State.releaseIslands_pwr
      (((s.setPort p { s.port p with perstLow := true, linkUp := false }).coldStart).noteReset 1 0)
    rw [State.noteReset_pwr, (State.coldStart_pwr _).2.1] at hlast
    refine ⟨hlast, hislands, ?_⟩
    rw [State.releaseIslands_cur, State.noteReset_cur, (State.coldStart_cleared _).1]
  case loss =>
    intro p s hp hl
    rw [exec_hostLinkLoss hp, yields_next_iff, if_pos hl]
    have hlink := (State.port_of_footing (p := p) (State.closeHost_footing p (s.setPort p { s.port p with linkUp := false }))).1
    rw [State.setPort_port] at hlink
    exact ⟨hlink, State.closeHost_closed p _⟩
  case lossDown =>
    intro p s hp hl
    rw [exec_hostLinkLoss hp, hl]
    rfl
  case linkUp =>
    intro p a b m f s hp hc
    rw [exec_hostLinkUp hp, if_pos hc]
    rfl
  case linkNot =>
    intro p a b m f s hp hc
    rw [exec_hostLinkUp hp, hc]
    rfl

end Sys2Proof.Machine
end

section
/-! GET_LOG of the sensor history, and the size of its entries (R420, R422). -/

namespace Sys2Proof.Machine

/-- A sensor history whose one entry holds no junction temperature, and a sideband GET_LOG of log 04h at the head of the
Curator's queue. -/
def shortSensorEntry : State :=
  let s := queuedPart 0x40 (getLogParams 4 0 0 0)
  { s with anl := { s.anl with
      sensorH := [{ t := 0, boot := 0, tile := 0, level := 0, ddr := 0, jmax := [], mmax := 0, mtgt := 0 }] } }

theorem shortSensorEntry_accepts : shortSensorEntry.accepts 0x40 sidebandHeader (getLogParams 4 0 0 0) = true := by decide +kernel

theorem shortSensorEntry_hasLog : shortSensorEntry.logStatus (4 : Byte).toNat (0 : Byte).toNat = none := by decide +kernel

/-- The entry has its 16 bytes that are no junction temperatures, and not the 32 of log 04h. -/
theorem shortSensorEntry_length :
    (shortSensorEntry.logBytes (shortSensorEntry.cur.primary.getD 0) (4 : Byte).toNat (0 : Byte).toNat (0 : DWord).toNat
      4096).length = 16 := by
  decide +kernel

/-- Refutes O31: the statement is over every state, also one whose sensor history holds an entry with fewer than the eight
junction temperatures of R422. Such an entry has fewer than 32 bytes, so GET_LOG of log 04h answers no multiple of 32. -/
theorem not_logsAreReadAndCleared : ¬ Obligations.LogsAreReadAndCleared := by
  unfold Obligations.LogsAreReadAndCleared
  intro h
  obtain ⟨_, hwhole, _⟩ := h
  obtain ⟨hdvd, _⟩ := hwhole sidebandHeader 4 0 0 ⟨true, 0⟩ 0 shortSensorEntry shortSensorEntry_accepts rfl (by decide)
    shortSensorEntry_hasLog
  rw [shortSensorEntry_length] at hdvd
  exact absurd hdvd (by decide)

end Sys2Proof.Machine
end

section
/-! Registers whose copy number is out of range share the keys of others (R424). -/

namespace Sys2Proof.Machine

/-- The first register, read with a copy number out of its range, is any other register: their keys are the same. -/
theorem State.reg_beyond (r : Reg) (u i : Nat) (s : State) : s.reg .ringSqBaseLo (16 * r.ctorIdx + u) i = s.reg r u i := by
  have hkey : regKey .ringSqBaseLo (16 * r.ctorIdx + u) i = regKey r u i := by
    have h0 : Reg.ctorIdx .ringSqBaseLo = 0 := rfl
    simp only [regKey, h0]
    ring
  simp only [State.reg, hkey]

theorem exec_anlRdLoad {p : Nat} {w : Word} {s : State} (h : s.takesWrite p = true) :
    exec (.anlRdLoad p w) s = .next (s.commitStore.loadRecord w.toNat) :=
  bar0_open p _ s h

theorem readyPart_takesWrite : readyPart.takesWrite 0 = true := by decide +kernel

/-- A read-port load of a sequence number that no record of the tile has shows that number. -/
theorem readyPart_loadRecord_seq :
    readyPart.reg .anlRdSeq 0 0 = 0 ∧ (readyPart.commitStore.loadRecord (5 : Word).toNat).reg .anlRdSeq 0 0 = 5 := by
  decide +kernel

/-- Refutes O60: the statement is over every copy number of a register, also those the register does not have. There another
register's bits lie: ANL_RD_SEQ, which a read-port load changes, is also the first register with a copy number out of its
range, and that register is not named for the load. -/
theorem not_registerFrames : ¬ Obligations.RegisterFrames := by
  unfold Obligations.RegisterFrames
  intro h
  obtain ⟨_, _, _, _, _, _, _, _, _, _, hload, _⟩ := h
  obtain ⟨hbefore, hafter⟩ := readyPart_loadRecord_seq
  have hsame := hload 0 5 readyPart _ (exec_anlRdLoad readyPart_takesWrite) .ringSqBaseLo (16 * Reg.ctorIdx .anlRdSeq + 0) 0 (by decide)
  rw [State.reg_beyond, State.reg_beyond, hbefore, hafter] at hsame
  exact absurd hsame (by decide)

end Sys2Proof.Machine
end

section
/-! Exchange windows and the aperture of the Direct Window: the branches of their configuration writes (R75, R76, R82, R85,
R86). -/

namespace Sys2Proof.Machine

/-! ## Rows -/

theorem exec_xwWinCfgWrite {p n : Nat} {w : Word} {s : State} (h : s.takesWrite p = true) (hn : n < 4) :
    exec (.xwWinCfgWrite p n w) s = .next (s.commitStore.writeWinCfg p n w.toNat) := by
  have : exec (.xwWinCfgWrite p n w) s = s.bar0 p (fun s => s.writeWinCfg p (n % 4) w.toNat) := rfl
  rw [this, bar0_open _ _ _ h, Nat.mod_eq_of_lt hn]

theorem exec_windowDrainEnd {p n : Nat} {s : State} (h : s.hasPort p = true) (hn : n < 4) :
    exec (.windowDrainEnd p n) s = .next (s.drainEnd p n) := by
  have : exec (.windowDrainEnd p n) s = withUnit (s.hasPort p) (fun s => s.drainEnd p (n % 4)) s := rfl
  rw [this, withUnit_of _ _ _ h, Nat.mod_eq_of_lt hn]

theorem exec_dwAptWrite {p : Nat} {w : Word} {s : State} (h : s.takesWrite p = true) :
    exec (.dwAptWrite p w) s = .next (s.commitStore.writeApt p w.toNat) :=
  bar0_open p _ s h

/-! ## The branches of XW_WIN_CFG -/

/-- A window that is neither registered nor draining takes its fields, and its enable where they are in range. -/
theorem State.writeWinCfg_idle {p n w : Nat} {s : State} (hen : (s.win p n).enable = false)
    (hdr : (s.win p n).draining = false) (hset : bits w 31 31 = 1) (hok : ((s.win p n).fields w).refused = false) :
    s.writeWinCfg p n w = s.setWin p n { (s.win p n).fields w with enable := true } := by
  simp [State.writeWinCfg, hen, hdr, hset, hok]

/-- An enable out of range is recorded, and the window takes the other fields (R76). -/
theorem State.writeWinCfg_refused {p n w : Nat} {s : State} (hen : (s.win p n).enable = false)
    (hdr : (s.win p n).draining = false) (hset : bits w 31 31 = 1) (hbad : ((s.win p n).fields w).refused = true) :
    s.writeWinCfg p n w = (s.setWin p n ((s.win p n).fields w)).refusedWrite p p (winCfgOff n) w := by
  simp [State.writeWinCfg, hen, hdr, hset, hbad]

/-- A registered window whose enable is cleared drains while commands in flight name it (R82). -/
theorem State.writeWinCfg_clear {p n w : Nat} {s : State} (hen : (s.win p n).enable = true) (hclear : bits w 31 31 = 0) :
    (s.writeWinCfg p n w).win p n = { s.win p n with enable := false, draining := !(s.inflight p n).isEmpty } := by
  simp [State.writeWinCfg, hen, hclear]

@[simp] theorem State.commitStore_inflight (p n : Nat) (s : State) : s.commitStore.inflight p n = s.inflight p n := rfl

/-! ## The statement -/

/-- Settles O5: the branches of `writeWinCfg`, `drainEnd` and `writeApt`. -/
theorem windowRules : Obligations.WindowRules := by
  unfold Obligations.WindowRules
  refine ⟨?takes, ?refused, ?clear, ?drained, ?drains, ?aperture, ?full⟩
  case takes =>
    intro p n w s h hn hen hdr hset hok
    rw [exec_xwWinCfgWrite h hn, State.writeWinCfg_idle (s := s.commitStore) hen hdr hset hok, commitStore_win]
  case refused =>
    intro p n w s h hn hen hdr hset hbad
    rw [exec_xwWinCfgWrite h hn, State.writeWinCfg_refused (s := s.commitStore) hen hdr hset hbad, commitStore_win]
    exact ⟨rfl, hen⟩
  case clear =>
    intro p n w s h hn hen hclear
    rw [exec_xwWinCfgWrite h hn, yields_next_iff, State.writeWinCfg_clear (s := s.commitStore) hen hclear, commitStore_win,
      State.commitStore_inflight]
  case drained =>
    intro p n s h hn hdr hnone
    rw [exec_windowDrainEnd h hn, State.drainEnd, hdr, hnone]
    rfl
  case drains =>
    intro p n s h hn hsome
    rw [exec_windowDrainEnd h hn, State.drainEnd, hsome, Bool.and_false, if_neg Bool.false_ne_true]
  case aperture =>
    intro p w s h hmode
    rw [exec_dwAptWrite h, State.writeApt, if_pos (by simpa using hmode)]
  case full =>
    intro p w s h hmode
    rw [exec_dwAptWrite h, State.writeApt, if_neg (by simp [hmode])]

end Sys2Proof.Machine
end

section
/-! Close triggers: where one that reaches the coordinator goes, and the rows that send one (R91, R95, R96, R534). -/

namespace Sys2Proof.Machine

/-! ## A trigger at the coordinator -/

/-- A rollback holds a trigger. -/
theorem State.trigger_held {tr : Trigger} {s : State} (h : s.epo.rollback = true) :
    s.trigger tr = { s with epo := { s.epo with heldTrig := s.epo.heldTrig ++ [tr] } } := by
  simp [State.trigger, h]

/-- A seal in progress leaves a trigger for the next epoch. -/
theorem State.trigger_left {tr : Trigger} {s : State} (hr : s.epo.rollback = false) (hh : s.epo.heldTrig = [])
    (hs : s.epo.sealing.isSome = true) :
    s.trigger tr = { s with epo := { s.epo with later := s.epo.later ++ [tr] } } := by
  simp [State.trigger, hr, hh, hs]

/-- With no rollback and no seal in progress a trigger acts, once no held one is before it; the auto-close timer does not wait for
those. -/
theorem State.trigger_acts {tr : Trigger} {s : State} (hr : s.epo.rollback = false)
    (hh : s.epo.heldTrig = [] ∨ tr = .auto) (hs : s.epo.sealing = none) (hc : s.coordinated = true) :
    s.trigger tr = s.actTriggers [tr] := by
  rcases hh with hh | rfl
  · simp [State.trigger, hr, hh, hs, hc]
  · simp [State.trigger, hr, hs, hc]

/-! ## Rows -/

theorem exec_epoCtrlClose {p : Nat} {s : State} (h : s.takesWrite p = true) (hup : s.coreUp = true) :
    exec (.epoCtrlClose p) s = .next (s.commitStore.closeNow p) := by
  have hrow : exec (.epoCtrlClose p) s = s.bar0 p (fun s => if s.coreUp then s.closeNow p else s) := rfl
  have hup' : s.commitStore.coreUp = true := hup
  rw [hrow, bar0_open _ _ _ h, if_pos hup']

/-- A close with no store of its port before it is a trigger at once (R91). -/
theorem State.closeNow_noStore {p : Nat} {s : State} (h : (s.port p).heldDw = []) : s.closeNow p = s.trigger .ctrl := by
  simp [State.closeNow, h]

/-- A rollback takes a close whatever its port holds; it holds the trigger itself (R534). -/
theorem State.closeNow_rollback {p : Nat} {s : State} (h : s.epo.rollback = true) : s.closeNow p = s.trigger .ctrl := by
  simp [State.closeNow, h]

/-- A close behind stores that wait is kept for their end (R91). -/
theorem State.closeNow_behind {p : Nat} {s : State} (hr : s.epo.rollback = false)
    (h : (s.port p).heldDw.all (fun x => x.store.isNone) = false) :
    s.closeNow p = s.setPort p { s.port p with closeHeld := true } := by
  simp only [State.closeNow, hr, h]
  rfl

theorem exec_autoCloseExpiry (s : State) :
    exec .autoCloseExpiry s = .next (if s.coreUp then s.autoExpiry else s) := rfl

/-- The timer that runs out starts again; with no rollback and no seal in progress its trigger acts. -/
theorem State.autoExpiry_acts {s : State} (hdue : s.autoDue = true) (hr : s.epo.rollback = false)
    (hs : s.epo.sealing = none) (hc : s.coordinated = true) :
    s.autoExpiry = ({ s with epo := { s.epo with autoStart := s.now } } : State).actTriggers [.auto] := by
  rw [State.autoExpiry, if_pos hdue]
  exact State.trigger_acts hr (.inr rfl) hs hc

theorem State.autoExpiry_early {s : State} (h : s.autoDue = false) : s.autoExpiry = s := by
  rw [State.autoExpiry, if_neg (by simp [h])]

/-! ## The statement -/

/-- Settles O11: each row sends its trigger, and the coordinator's state says where it goes. -/
theorem closeTriggers : Obligations.CloseTriggers := by
  unfold Obligations.CloseTriggers
  refine ⟨?seals, ?left, ?behind, ?held, ?auto, ?unwritten, ?early⟩
  case seals =>
    intro p s h hup hr hh hdw hs hc
    rw [exec_epoCtrlClose h hup, State.closeNow_noStore (s := s.commitStore) hdw,
      State.trigger_acts (s := s.commitStore) hr (.inl hh) hs hc, yields_next_iff]
    rfl
  case left =>
    intro p s h hup hr hh hdw hs
    rw [exec_epoCtrlClose h hup, State.closeNow_noStore (s := s.commitStore) hdw,
      State.trigger_left (s := s.commitStore) hr hh hs, yields_next_iff]
    rfl
  case behind =>
    intro p s h hup hr hdw
    rw [exec_epoCtrlClose h hup, State.closeNow_behind (s := s.commitStore) hr hdw, commitStore_port]
  case held =>
    intro p s h hup hr
    rw [exec_epoCtrlClose h hup, State.closeNow_rollback (s := s.commitStore) hr,
      State.trigger_held (s := s.commitStore) hr, yields_next_iff]
    rfl
  case auto =>
    intro s hup hdue hr hs hc hw
    rw [exec_autoCloseExpiry, if_pos hup, State.autoExpiry_acts hdue hr hs hc, yields_next_iff]
    simp [State.actTriggers, State.startSeal, hw]
  case unwritten =>
    intro s hup hdue hr hs hc hw
    rw [exec_autoCloseExpiry, if_pos hup, State.autoExpiry_acts hdue hr hs hc, yields_next_iff]
    simp [State.actTriggers, hw]
  case early =>
    intro s hdue
    rw [exec_autoCloseExpiry, State.autoExpiry_early hdue, ite_self]

end Sys2Proof.Machine
end

section
/-! Seals: the tiles that the broadcast reaches, their reports, and the walks of their near caches (R96, R97, R220). -/

namespace Sys2Proof.Machine

/-! ## Rows -/

theorem exec_sealArrive {k : Nat} {g : Sealing} {s : State} (hk : s.hasTile k = true) (hg : s.epo.sealing = some g) :
    exec (.sealArrive k) s =
      .next (if s.coreUp && s.tileRuns k && !g.arrived.contains k then s.sealReaches k g.n g else s) := by
  change execSealArrive k s = _
  rw [execSealArrive, withUnit_of _ _ _ hk]
  simp only [hg]

theorem exec_sealReport {k : Nat} {g : Sealing} {s : State} (hk : s.hasTile k = true) (hg : s.epo.sealing = some g)
    (hup : s.coreUp = true) (hc : s.coordinated = true) (harr : g.arrived.contains k = true)
    (hrep : g.reported.contains k = false) : exec (.sealReport k) s = .next (s.sealReported k g) := by
  change execSealReport k s = _
  rw [execSealReport, withUnit_of _ _ _ hk]
  simp only [hg, hup, hc, harr, hrep, Bool.and_self, Bool.not_false, if_true]

theorem exec_sealWalkStep {k : Nat} {w : Walk} {s : State} (hk : s.hasTile k = true) (hw : s.walk k = some w)
    (hup : s.coreUp = true) (hrun : s.tileRuns k = true) : exec (.sealWalkStep k) s = .next (s.walkStep k w) := by
  change execSealWalkStep k s = _
  rw [execSealWalkStep, withUnit_of _ _ _ hk]
  simp only [hw, hup, hrun, Bool.and_self, if_true]

/-! ## The broadcast -/

theorem State.pmcEdge_walk (t ev i k : Nat) (s : State) : (s.pmcEdge t ev i).walk k = s.walk k := by
  simp only [State.walk, State.pmcEdge_kept]

/-- The walks of the near caches alone change where one begins. -/
theorem State.beginWalk_epo (k n : Nat) (s : State) :
    (s.beginWalk k n).epo.sealing = s.epo.sealing ∧ (s.beginWalk k n).epo.stamp = s.epo.stamp := ⟨rfl, rfl⟩

/-- What the tile that a seal reaches has of it: its stamp, its walk, and its place among those reached. -/
theorem State.sealReaches_epo (k n : Nat) (g : Sealing) (s : State) :
    (s.sealReaches k n g).stampOf k = n + 1 ∧ ((s.sealReaches k n g).walk k).map Walk.upto = some n ∧
    (s.sealReaches k n g).epo.sealing = some { g with arrived := g.arrived ++ [k] } := by
  unfold State.sealReaches
  dsimp only
  refine ⟨?stamp, ?walk, ?sealing⟩
  case stamp => simp [State.stampOf, State.beginWalk_epo, State.markTile_kept]
  case walk => rw [State.pmcEdge_walk, State.beginWalk, State.setWalk_walk]; rfl
  case sealing => simp [State.beginWalk_epo, State.markTile_kept]

/-! ## The last report -/

/-- What a trigger asks for once its epoch is SEALED leaves the epochs and the seal as they are: it adds waiting replies. -/
theorem State.afterSeal_epo (n : Nat) (s : State) (t : Trigger) :
    (s.afterSeal n t).epo = { s.epo with waiters := (s.afterSeal n t).epo.waiters } := by
  rcases t with (_ | _) | _ | _ | _ | _ | _ | _ <;> rfl

theorem foldl_afterSeal_epo (n : Nat) (l : List Trigger) (s : State) :
    (l.foldl (fun s t => s.afterSeal n t) s).epo =
      { s.epo with waiters := (l.foldl (fun s t => s.afterSeal n t) s).epo.waiters } := by
  induction l generalizing s with
  | nil => rfl
  | cons t l ih => rw [List.foldl_cons, ih, State.afterSeal_epo]

/-- Answers take waiting replies, and change nothing else of the epochs. -/
theorem State.answerWaiters_epo (s : State) :
    s.answerWaiters.epo = { s.epo with waiters := s.answerWaiters.epo.waiters } := by
  have hreply (l : List Waiter) (s : State) : (l.foldl (fun s w => s.reply w.src w.ctx .done w.epoch) s).epo = s.epo :=
    foldl_same State.epo _ (fun s w => by simp) l s
  simp only [State.answerWaiters, hreply]

/-- Triggers that act on the open epoch start its seal or the timer, and neither seal nor open an epoch. -/
theorem State.actTriggers_epochs (l : List Trigger) (s : State) :
    (s.actTriggers l).epo.sealed = s.epo.sealed ∧ (s.actTriggers l).epo.openE = s.epo.openE ∧
    (s.actTriggers l).epo.stamp = s.epo.stamp := by
  simp only [State.actTriggers]
  split <;> exact ⟨rfl, rfl, rfl⟩

theorem State.actTriggers_none (s : State) : (s.actTriggers []).epo.sealing = s.epo.sealing := rfl

/-- The report of the last tile: n is SEALED and n + 1 is open, and where no trigger was left for it no seal is in progress. -/
theorem State.finishSeal_done {g : Sealing} {s : State} (hg : s.epo.sealing = some g) (hc : s.coordinated = true)
    (hall : s.sealTiles.all (fun t => g.reported.contains t) = true) :
    s.finishSeal.epo.sealed = g.n ∧ s.finishSeal.epo.openE = g.n + 1 ∧
    (s.epo.later = [] → s.finishSeal.epo.sealing = none ∧ s.finishSeal.epo.stamp = []) := by
  unfold State.finishSeal
  simp only [hg, hc, hall, Bool.and_self, if_true]
  generalize hu : State.answerWaiters _ = u
  have hepo : u.epo.sealed = g.n ∧ u.epo.openE = g.n + 1 ∧ u.epo.later = s.epo.later ∧ u.epo.sealing = none ∧
      u.epo.stamp = [] := by
    rw [← hu, State.answerWaiters_epo, foldl_afterSeal_epo]
    exact ⟨rfl, rfl, rfl, rfl, rfl⟩
  obtain ⟨hsealed, hopen, hlater, hsealing, hstamp⟩ := hepo
  split
  case isTrue =>
    obtain ⟨hs, ho, hst⟩ := State.actTriggers_epochs u.epo.later u
    refine ⟨hs.trans hsealed, ho.trans hopen, fun hnone => ⟨?_, hst.trans hstamp⟩⟩
    rw [hlater, hnone, State.actTriggers_none, hsealing]
  case isFalse => exact ⟨hsealed, hopen, fun _ => ⟨hsealing, hstamp⟩⟩

theorem State.finishSeal_waits {g : Sealing} {s : State} (hg : s.epo.sealing = some g)
    (hall : s.sealTiles.all (fun t => g.reported.contains t) = false) : s.finishSeal = s := by
  unfold State.finishSeal
  simp only [hg, hall, Bool.and_false, Bool.false_eq_true, if_false]

/-! ## Walks -/

/-- A set that holds no line is left at once: for the next, or with the walk's end (R220). -/
theorem State.walkStep_empty {k : Nat} {w : Walk} {s : State} (h : s.setLines k w.set = []) :
    s.walkStep k w = if w.left ≤ 1 then
        { s.setWalk k none with epo := { (s.setWalk k none).epo with
          walked := tset (fun _ => 0) s.epo.walked k (max (s.walked k) w.upto) } }
      else s.setWalk k (some { w with set := (w.set + 1) % ncSets, left := w.left - 1 }) := by
  simp only [State.walkStep, h, List.map_nil, List.foldl_nil, List.any_nil, Bool.false_eq_true, if_false]
  rfl

/-! ## The statement -/

/-- Settles O12: the broadcast by `sealReaches_epo`, the reports by the two branches of `finishSeal`, the walk by that of an
empty set. -/
theorem sealReachesEveryTile : Obligations.SealReachesEveryTile := by
  unfold Obligations.SealReachesEveryTile
  refine ⟨?reaches, ?again, ?reports, ?last, ?next, ?ends⟩
  case reaches =>
    intro k g s hk hg hup hrun harr
    rw [exec_sealArrive hk hg, hup, hrun, harr, yields_next_iff]
    exact State.sealReaches_epo k g.n g s
  case again =>
    intro k g s hk hg harr
    rw [exec_sealArrive hk hg, harr, Bool.not_true, Bool.and_false, if_neg Bool.false_ne_true]
  case reports =>
    intro k g s hk hg hup hc harr hrep hall
    rw [exec_sealReport hk hg hup hc harr hrep, State.sealReported, State.finishSeal_waits rfl hall, yields_next_iff]
  case last =>
    intro k g s hk hg hup hc harr hrep hall
    rw [exec_sealReport hk hg hup hc harr hrep, yields_next_iff]
    exact State.finishSeal_done (g := { g with reported := g.reported ++ [k] }) rfl hc hall
  case next =>
    intro k w s hk hw hup hrun hset hleft
    rw [exec_sealWalkStep hk hw hup hrun, State.walkStep_empty hset, if_neg (by omega)]
  case ends =>
    intro k w s hk hw hup hrun hset hleft
    rw [exec_sealWalkStep hk hw hup hrun, State.walkStep_empty hset, if_pos hleft, yields_next_iff]
    exact ⟨State.setWalk_walk k none s, by simp only [State.walked, tget_tset_self]⟩

end Sys2Proof.Machine
end

section
/-! Markers: the highest epoch drained on a tile, and D (R98, R100). -/

namespace Sys2Proof.Machine

theorem exec_markerWrite {k : Nat} {s : State} (hk : s.hasTile k = true) :
    exec (.markerWrite k) s =
      .next (if s.coreUp && s.tileRuns k && s.cry.haltCause == 0 then s.writeMarker k else s) := by
  change execMarkerWrite k s = _
  rw [execMarkerWrite, withUnit_of _ _ _ hk]

/-- D rises to the lowest marker where that is higher; the markers stay. -/
theorem State.advanceD_epo (s : State) :
    s.advanceD.epo.durable = max s.epo.durable s.lowMarker ∧ s.advanceD.epo.marker = s.epo.marker := by
  have hsweep (l : List Nat) (s : State) : (l.foldl (fun s t => s.sweepGroups t) s).epo = s.epo :=
    foldl_same State.epo _ (fun s t => by simp) l s
  have hevent (l : List Nat) (s : State) :
      (l.foldl (fun s k => s.regionEvent (k / 512) (k / 64 % 8) (k % 64) 5) s).epo = s.epo :=
    foldl_same State.epo _ (fun s k => by simp) l s
  simp only [State.advanceD]
  split
  next hsame => exact ⟨hsame.symm, rfl⟩
  next =>
    rw [State.answerWaiters_epo, hevent]
    simp only [State.undoLow, hsweep, and_self]

theorem State.lowMarker_congr {s t : State} (hm : t.member = s.member) (he : t.epo.marker = s.epo.marker) :
    t.lowMarker = s.lowMarker := by
  simp only [State.lowMarker, State.tileList, State.tiles, hm, he]

/-- A marker is written where a higher epoch is drained. -/
theorem State.writeMarker_low {k : Nat} {s : State} (h : s.drainedTo k ≤ tget (fun _ => 0) s.epo.marker k) :
    s.writeMarker k = s := by
  rw [State.writeMarker, if_neg (by omega)]

/-- What a marker that is written leaves: the tile's own, and D raised to the lowest. -/
theorem State.writeMarker_epo {k : Nat} {s : State} (h : tget (fun _ => 0) s.epo.marker k < s.drainedTo k) :
    (s.writeMarker k).epo.marker = tset (fun _ => 0) s.epo.marker k (s.drainedTo k) ∧
    (s.writeMarker k).epo.durable = max s.epo.durable (s.writeMarker k).lowMarker := by
  simp only [State.writeMarker, if_pos h]
  generalize hu : ({ s with epo := { s.epo with marker := _ } } : State) = u
  obtain ⟨hdurable, hmarker⟩ := State.advanceD_epo u
  have hlow : u.advanceD.lowMarker = u.lowMarker := State.lowMarker_congr (by simp [State.advanceD_kept]) hmarker
  rw [hmarker, hdurable, hlow, ← hu]
  exact ⟨rfl, rfl⟩

/-- Neither a marker nor D falls. -/
theorem State.writeMarker_rises (k : Nat) (s : State) :
    s.epo.durable ≤ (s.writeMarker k).epo.durable ∧
    ∀ j, tget (fun _ => 0) s.epo.marker j ≤ tget (fun _ => 0) (s.writeMarker k).epo.marker j := by
  by_cases h : tget (fun _ => 0) s.epo.marker k < s.drainedTo k
  case pos =>
    obtain ⟨hmarker, hdurable⟩ := State.writeMarker_epo h
    refine ⟨hdurable ▸ Nat.le_max_left .., fun j => ?_⟩
    rw [hmarker]
    by_cases hj : j = k
    · subst hj; rw [tget_tset_self]; exact h.le
    · rw [tget_tset_ne _ _ _ hj]
  case neg =>
    rw [State.writeMarker_low (by omega)]
    exact ⟨le_rfl, fun j => le_rfl⟩

/-- Settles O13: a marker that is written, one that is not, and that neither it nor D falls. -/
theorem markersRaiseD : Obligations.MarkersRaiseD := by
  unfold Obligations.MarkersRaiseD
  refine ⟨?raises, ?low, ?rises⟩
  case raises =>
    intro k s hk hup hrun hhalt h
    obtain ⟨hmarker, hdurable⟩ := State.writeMarker_epo h
    rw [exec_markerWrite hk, if_pos (by simp [hup, hrun, hhalt]), yields_next_iff]
    exact ⟨by rw [hmarker, tget_tset_self], hdurable⟩
  case low =>
    intro k s hk h
    rw [exec_markerWrite hk, State.writeMarker_low h, ite_self]
  case rises =>
    intro k s hk
    rw [exec_markerWrite hk, yields_next_iff]
    split
    case isTrue =>
      obtain ⟨hdurable, hmarker⟩ := State.writeMarker_rises k s
      exact ⟨hdurable, fun j _ => hmarker j⟩
    case isFalse => exact ⟨le_rfl, fun j _ => le_rfl⟩

end Sys2Proof.Machine
end

section
/-! The end of a rollback and an access that a port held through it (R105, R361, R404, R409). -/

namespace Sys2Proof.Machine

/-- A rollback whose end meets a failing pass: HP0 holds a BAR2 read of 4 bytes, an injection is armed on the pass that carries
its data to the port, and escalations proceed at once (the timer of FLT_ESC is 0). -/
def rollbackHoldsRead : State :=
  ({ readyPart with
    host := { readyPart.host with ports :=
      [(0, { linkUp := true, heldDw := [{ offset := 0, len := 4, store := none, env := { recon := [], unrec := [] } }] }),
       (1, { linkUp := true })] }
    epo := { readyPart.epo with rollback := true, abortFirst := 1, abortLast := 1 }
    flt := { readyPart.flt with inj := [{ tile := 0, source := srcId 0x06 1, mask := 1, count := 1 }] } } :
    State).putField .fltEsc 0 0 15 0 0

theorem rollbackHoldsRead_mayEnd :
    rollbackHoldsRead.epo.rollback = true ∧ rollbackHoldsRead.coreUp = true ∧ rollbackHoldsRead.cry.haltCause = 0 ∧
    rollbackHoldsRead.coh.txs = [] ∧ rollbackHoldsRead.epo.sealing = none := by
  decide +kernel

/-- The held read is served as the rollback ends; its data fails parity, an event of severity abort, and the next abort starts. -/
theorem rollbackHoldsRead_aborts : rollbackHoldsRead.endRollback.epo.rollback = true := by
  decide +kernel

theorem exec_rollbackEnd {s : State} (hr : s.epo.rollback = true) (hup : s.coreUp = true) (hhalt : s.cry.haltCause = 0)
    (htx : s.coh.txs = []) : exec .rollbackEnd s = .next s.endRollback := by
  change execRollbackEnd s = _
  simp [execRollbackEnd, hr, hup, hhalt, htx]

/-- Refutes O14: the accesses that a rollback held proceed as it ends (R105), and one that meets a fault of severity abort whose
escalation proceeds at once starts the next abort in the same step, so a rollback is in progress afterwards. -/
theorem not_abortAndRollback : ¬ Obligations.AbortAndRollback := by
  unfold Obligations.AbortAndRollback
  intro h
  obtain ⟨_, _, hend, _⟩ := h
  obtain ⟨hr, hup, hhalt, htx, hseal⟩ := rollbackHoldsRead_mayEnd
  have hover := hend rollbackHoldsRead hr hup hhalt htx hseal
  rw [exec_rollbackEnd hr hup hhalt htx, yields_next_iff] at hover
  obtain ⟨hdone, _, _⟩ := hover
  rw [rollbackHoldsRead_aborts] at hdone
  exact absurd hdone (by decide)

end Sys2Proof.Machine
end

section
/-! What an operation leaves of the accesses and triggers that a port and the coordinator hold (R91, R105, R534). -/

namespace Sys2Proof.Machine

/-- No held trigger may act: a rollback holds them, or there is none. -/
def EpochState.calm (e : EpochState) : Bool := e.rollback || e.heldTrig.isEmpty

/-- No close is kept behind a port's stores that was not, and no held trigger becomes due to act. -/
structure Quiet (s t : State) : Prop where
  closeHeld : ∀ q, (t.port q).closeHeld = (s.port q).closeHeld
  calm : s.epo.calm = true → t.epo.calm = true

theorem Quiet.refl (s : State) : Quiet s s := ⟨fun _ => rfl, id⟩

theorem Quiet.trans {s t u : State} (h : Quiet s t) (g : Quiet t u) : Quiet s u :=
  ⟨fun q => (g.closeHeld q).trans (h.closeHeld q), fun hs => g.calm (h.calm hs)⟩

/-- An operation that keeps the host ports. -/
theorem quiet_of {s t : State} (hp : t.host.ports = s.host.ports) (hc : s.epo.calm = true → t.epo.calm = true) : Quiet s t :=
  ⟨fun q => by simp only [State.port, hp], hc⟩

theorem quiet_of_kept {s t : State} (hh : t.host = s.host) (hc : t.epo.calm = s.epo.calm) : Quiet s t :=
  quiet_of (by rw [hh]) (by rw [hc]; exact id)

/-! ## Lines -/

@[simp] theorem ite_calm (c : Prop) [Decidable c] (a b : EpochState) :
    (if c then a else b).calm = if c then a.calm else b.calm := apply_ite _ _ _ _

@[simp] theorem State.rewalk_calm (t line epoch : Nat) (s : State) : (s.rewalk t line epoch).epo.calm = s.epo.calm := by
  unfold State.rewalk
  repeat' split
  all_goals rfl

@[simp] theorem State.carried_calm (e : Nat) (s : State) : (s.carried e).epo.calm = s.epo.calm := rfl

@[simp] theorem State.install_calm (t line : Nat) (st : LState) (v : Stored) (epoch : Nat) (s : State) :
    (s.install t line st v epoch).epo.calm = s.epo.calm := by
  unfold State.install
  dsimp only
  split <;> simp [State.makeRoom_kept]

@[simp] theorem State.takeDirty_calm (t line : Nat) (v : NcLine) (s : State) :
    (s.takeDirty t line v).2.epo.calm = s.epo.calm := by
  unfold State.takeDirty
  simp

theorem State.missHome_calm (k : ReqKind) (t line : Nat) (env : MediaEnv) (s : State) :
    (s.missHome k t line env).2.epo.calm = s.epo.calm := by
  unfold State.missHome
  dsimp only
  repeat' split
  all_goals simp [State.homeRead_kept, State.markForged_kept, State.mediaLost_kept]

theorem State.missHeld_calm (t line o : Nat) (env : MediaEnv) (s : State) :
    (s.missHeld t line o env).2.epo.calm = s.epo.calm := by
  unfold State.missHeld
  dsimp only
  repeat' split
  all_goals simp [State.missHome_calm, State.snoopI_kept]

@[simp] theorem State.missLine_calm (k : ReqKind) (t line : Nat) (env : MediaEnv) (s : State) :
    (s.missLine k t line env).2.epo.calm = s.epo.calm := by
  have hsnoop := State.snoopAll_kept line (s.sharersBut t line) (s.pmcEdge (s.home line) 0x07 0)
  unfold State.missLine
  dsimp only
  repeat' split
  all_goals simp_all [State.missHeld_calm, State.missHome_calm]

@[simp] theorem State.attempt_calm (f : State → State) (s : State) (h : (f s).epo.calm = s.epo.calm) :
    (s.attempt f).epo.calm = s.epo.calm := by
  simp only [State.attempt]
  split
  · simp [State.asking_kept]
  · exact h

theorem State.readLine_calm (t line : Nat) (env : MediaEnv) (s : State) :
    (s.readLine t line env).2.epo.calm = s.epo.calm := by
  unfold State.readLine State.readBy
  dsimp only
  split
  · simp [State.waitRefill_kept]
  · rw [State.attempt_calm _ _ (State.missLine_calm ..)]
    simp [State.waitRefill_kept]

@[simp] theorem State.ownLine_calm (t line : Nat) (env : MediaEnv) (s : State) :
    (s.ownLine t line env).2.epo.calm = s.epo.calm := by
  unfold State.ownLine
  dsimp only
  repeat' split
  all_goals simp [State.waitRefill_kept]

@[simp] theorem State.writeHeld_calm (t line e : Nat) (data : Line) (s : State) :
    (s.writeHeld t line e data).epo.calm = s.epo.calm := by
  unfold State.writeHeld
  simp

theorem State.writeBytes_calm (t line : Nat) (f : Nat → Option Byte) (env : MediaEnv) (s : State) :
    (s.writeBytes t line f env).2.epo.calm = s.epo.calm := by
  unfold State.writeBytes State.writeLine State.mergeInto
  dsimp only
  repeat' split
  all_goals simp [State.waitRefill_kept, State.claimLine_kept]

theorem State.readLine_quiet (t line : Nat) (env : MediaEnv) (s : State) : Quiet s (s.readLine t line env).2 :=
  quiet_of_kept (by simp [State.readLine_kept]) (State.readLine_calm ..)

theorem State.writeBytes_quiet (t line : Nat) (f : Nat → Option Byte) (env : MediaEnv) (s : State) :
    Quiet s (s.writeBytes t line f env).2 :=
  quiet_of_kept (by simp [State.writeBytes_kept]) (State.writeBytes_calm ..)

end Sys2Proof.Machine
end

section
/-! What a fault event, with the abort or the tile halt it may escalate to, leaves of the accesses and triggers held, and of
what the part has sent (R401 to R410). -/

namespace Sys2Proof.Machine

/-- An operation that is quiet and only adds to what the part has sent. -/
structure Onward (s t : State) : Prop where
  quiet : Quiet s t
  sent : s.out <+: t.out

theorem Onward.refl (s : State) : Onward s s := ⟨.refl s, List.prefix_rfl⟩

theorem Onward.trans {s t u : State} (h : Onward s t) (g : Onward t u) : Onward s u :=
  ⟨h.quiet.trans g.quiet, h.sent.trans g.sent⟩

theorem onward_foldl {A : Type} {f : State → A → State} (h : ∀ s x, Onward s (f s x)) (l : List A) (s : State) :
    Onward s (l.foldl f s) := by
  induction l generalizing s with
  | nil => exact .refl s
  | cons x l ih => exact (h s x).trans (ih (f s x))

theorem onward_ite {s t u : State} {c : Prop} [Decidable c] (ht : Onward s t) (hu : Onward s u) :
    Onward s (if c then t else u) := by
  split
  · exact ht
  · exact hu

theorem onward_of {s t : State} (hp : t.host.ports = s.host.ports) (hc : s.epo.calm = true → t.epo.calm = true)
    (ho : s.out <+: t.out) : Onward s t := ⟨quiet_of hp hc, ho⟩

/-- An operation that keeps the host ports, the epochs and what was sent. -/
theorem onward_of_kept {s t : State} (hp : t.host.ports = s.host.ports) (he : t.epo = s.epo) (ho : t.out = s.out) :
    Onward s t := onward_of hp (by rw [he]; exact id) (by rw [ho])

theorem State.emit_onward (o : Out) (s : State) : Onward s (s.emit o) :=
  onward_of rfl id (List.prefix_append ..)

/-! ## Records, vectors and replies -/

theorem State.annal_onward (t : Nat) (e : AEvent) (s : State) : Onward s (s.annal t e) :=
  onward_of_kept (by simp) (by simp) (by simp)

theorem State.putReg_onward (r : Reg) (u i v : Nat) (s : State) : Onward s (s.putReg r u i v) :=
  onward_of_kept (by simp) (by simp) (by simp)

theorem State.putField_onward (r : Reg) (u i hi lo v : Nat) (s : State) : Onward s (s.putField r u i hi lo v) :=
  onward_of_kept (by simp) (by simp) (by simp)

theorem State.pmcEdge_onward (t ev i : Nat) (s : State) : Onward s (s.pmcEdge t ev i) :=
  onward_of_kept (by simp) (by simp) (by simp)

theorem State.raiseVector_onward (p v : Nat) (s : State) : Onward s (s.raiseVector p v) := by
  unfold State.raiseVector
  repeat' split
  · exact .refl s
  · exact State.emit_onward ..
  · exact onward_of_kept rfl rfl rfl

theorem State.raiseOn_onward (p k : Nat) (s : State) : Onward s (s.raiseOn p k) := by
  unfold State.raiseOn
  split
  · exact .refl s
  · exact (State.putField_onward ..).trans (State.raiseVector_onward ..)

theorem State.raiseEvent_onward (k : Nat) (s : State) : Onward s (s.raiseEvent k) :=
  onward_foldl (fun s p => State.raiseOn_onward p k s) _ s

theorem State.reply_onward (src : Nat) (c : Ctx) (st : Status) (r : Nat) (s : State) : Onward s (s.reply src c st r) := by
  simp only [State.reply, State.replyWith]
  repeat' split
  · exact State.emit_onward ..
  · exact .refl s
  · exact onward_of_kept (State.answer_ports ..) (by simp [State.answer_kept]) (by simp [State.answer_kept])

theorem State.returnSlot_onward (p q i : Nat) (r : SlotRef) (st : Status) (len : Nat) (s : State) :
    Onward s (s.returnSlot p q i r st len) := by
  simp only [State.returnSlot]
  repeat' split
  · exact .refl s
  · exact State.emit_onward ..
  · exact .refl s

/-! ## Aborts -/

/-- A port's fetches change; what it holds does not. -/
theorem State.setFetches_onward (p : Nat) (l : List Fetch) (s : State) :
    Onward s (s.setPort p { s.port p with fetches := l }) := by
  refine ⟨⟨fun q => ?_, id⟩, List.prefix_rfl⟩
  by_cases h : q = p
  · subst h; rw [State.setPort_port]
  · simp only [State.port, State.setPort, tget_tset_ne _ _ _ h]

theorem State.giveUp_onward (p : Nat) (l : List Fetch) (f : Fetch) (s : State) : Onward s (s.giveUp p l f) := by
  simp only [State.giveUp]
  split
  · exact .refl s
  · refine Onward.trans ?_ (State.setFetches_onward p _ _)
    exact onward_of_kept rfl rfl rfl

theorem State.sqError_onward (p n c : Nat) (s : State) : Onward s (s.sqError p n c) :=
  onward_of_kept (by simp) (by simp) (by simp)

theorem State.release_onward (p c n : Nat) (s : State) : Onward s (s.release p c n) := onward_of_kept rfl rfl rfl

theorem State.placeFetch_onward (p : Nat) (f : Fetch) (es : List Fetched) (s : State) : Onward s (s.placeFetch p f es) := by
  have hedges (l : List Fetched) (s : State) : Onward s (l.foldl (fun (s : State) _ => s.pmcEdge p 0x61 0) s) :=
    onward_foldl (fun s _ => State.pmcEdge_onward p 0x61 0 s) l s
  have hcmds (l : List Cmd) (s : State) : Onward s (s.setCmds l) := onward_of_kept rfl rfl rfl
  simp only [State.placeFetch]
  repeat' split
  · exact State.release_onward ..
  · exact (hcmds _ s).trans (hedges _ _)
  · exact (((((hcmds _ s).trans (hedges _ _)).trans (State.sqError_onward ..)).trans (State.release_onward ..)).trans
      (State.setFetches_onward p _ _)).trans (State.raiseEvent_onward ..)

theorem State.placeReturned_onward (p : Nat) (f : Fetch) (s : State) : Onward s (s.placeReturned p f) := by
  simp only [State.placeReturned]
  split
  · exact .refl s
  · exact (State.setFetches_onward ..).trans (State.placeFetch_onward ..)

theorem State.dropFetches_onward (p : Nat) (s : State) : Onward s (s.dropFetches p) :=
  (onward_foldl (fun s f => State.giveUp_onward p _ f s) _ s).trans
    (onward_foldl (fun s f => State.placeReturned_onward p f s) _ _)

theorem State.abortCommand_onward (ws : List Ctx) (k : Cmd) (s : State) : Onward s (s.abortCommand ws k) := by
  have hdrawn : Onward s (s.drawn 1) := onward_of_kept rfl rfl rfl
  simp only [State.abortCommand]
  repeat' split
  · exact hdrawn.trans (State.reply_onward ..)
  · exact hdrawn.trans ((State.returnSlot_onward ..).trans (State.reply_onward ..))
  · exact hdrawn.trans (State.reply_onward ..)

/-- An abort that starts holds the triggers it overtakes: the rollback is in progress. -/
theorem State.startAbort_onward (s : State) : Onward s s.startAbort := by
  simp only [State.startAbort]
  split
  · exact .refl s
  · refine Onward.trans ?_ (onward_foldl (fun s t => State.pmcEdge_onward t 0x10 0 s) _ _)
    refine Onward.trans ?_ (State.raiseEvent_onward ..)
    refine Onward.trans ?_ (onward_foldl (fun s k => State.abortCommand_onward _ k s) _ _)
    refine Onward.trans ?_ (onward_foldl (fun s p => (State.dropFetches_onward p s).trans
      ((State.putField_onward ..).trans (State.putField_onward ..))) _ _)
    exact onward_of rfl (fun _ => rfl) List.prefix_rfl

/-! ## Seals and triggers -/

theorem State.afterSeal_onward (n : Nat) (s : State) (t : Trigger) : Onward s (s.afterSeal n t) := by
  rcases t with (_ | _) | _ | _ | _ | _ | _ | _ <;> exact onward_of rfl id List.prefix_rfl

theorem State.answerWaiters_onward (s : State) : Onward s s.answerWaiters := by
  refine Onward.trans ?_ (onward_foldl (fun s (w : Waiter) => State.reply_onward w.src w.ctx .done w.epoch s) _ _)
  exact onward_of rfl id List.prefix_rfl

theorem State.actTriggers_onward (l : List Trigger) (s : State) : Onward s (s.actTriggers l) := by
  simp only [State.actTriggers]
  split <;> exact onward_of rfl id List.prefix_rfl

theorem State.finishSeal_onward (s : State) : Onward s s.finishSeal := by
  simp only [State.finishSeal]
  split
  · exact .refl s
  next g _ =>
    split
    case isFalse => exact .refl s
    case isTrue =>
      have hsealed (t : State) (h : Onward s t) :
          Onward s (g.triggers.foldl (fun s t => s.afterSeal g.n t) t).answerWaiters :=
        (h.trans (onward_foldl (fun s t => State.afterSeal_onward g.n s t) _ t)).trans (State.answerWaiters_onward _)
      refine onward_ite (Onward.trans ?_ (State.actTriggers_onward ..)) ?_
      all_goals exact hsealed _ (onward_of rfl id List.prefix_rfl)

/-- A trigger where no held one may act joins those a rollback holds, or is not held. -/
theorem State.trigger_onward (tr : Trigger) (s : State) : Onward s (s.trigger tr) := by
  simp only [State.trigger]
  repeat' split
  case isTrue hheld =>
    refine onward_of rfl (fun hcalm => ?_) List.prefix_rfl
    by_cases hr : s.epo.rollback = true
    · exact Bool.or_eq_true_iff.mpr (.inl hr)
    · simp_all [EpochState.calm]
  · exact onward_of rfl id List.prefix_rfl
  · exact State.actTriggers_onward ..

theorem State.undoTriggers_onward (s : State) : Onward s s.undoTriggers := by
  refine onward_foldl (fun s t => ?_) _ s
  simp only [State.undoTrigger]
  split
  · refine Onward.trans ?_ (State.trigger_onward ..)
    exact onward_of rfl id List.prefix_rfl
  · exact .refl s

/-! ## Escalations and fault events -/

theorem State.failTile_onward (t : Nat) (s : State) : Onward s (s.failTile t) := by
  refine Onward.trans (Onward.trans ?_ (State.raiseEvent_onward ..)) (State.finishSeal_onward _)
  exact onward_of_kept rfl rfl rfl

theorem State.tileHalt_onward (t : Nat) (s : State) : Onward s (s.tileHalt t) := by
  refine onward_ite (Onward.trans ?_ (State.failTile_onward ..)) ?_
  all_goals exact onward_of_kept rfl rfl rfl

theorem State.escalate_onward (t id sev slot : Nat) (s : State) : Onward s (s.escalate t id sev slot) :=
  (State.annal_onward t _ s).trans (onward_ite (State.tileHalt_onward ..) (State.startAbort_onward _))

theorem State.openSlot_onward (t id sev : Nat) (s : State) : Onward s (s.openSlot t id sev) := by
  simp only [State.openSlot]
  repeat' split
  · exact .refl s
  · exact onward_of_kept rfl rfl rfl
  · exact .refl s
  · exact State.escalate_onward ..
  · exact onward_of_kept rfl rfl rfl
  · exact State.escalate_onward ..

theorem State.event_onward (t id : Nat) (i : FaultInfo) (s : State) : Onward s (s.event t id i) := by
  have hsrc (v : Src) (s : State) : Onward s (s.setSrc t id v) := onward_of_kept rfl rfl rfl
  have hdrawn (s : State) : Onward s (s.drawn 1) := onward_of_kept rfl rfl rfl
  have hif {s t u : State} {c : Prop} [Decidable c] (h : Onward s t) (g : Onward t u) : Onward s (if c then u else t) :=
    onward_ite (h.trans g) h
  simp only [State.event]
  refine hif (hif (hif ?_ (State.putField_onward ..)) (State.raiseEvent_onward ..)) (State.openSlot_onward ..)
  exact (((hsrc _ s).trans (State.annal_onward ..)).trans (hdrawn _)).trans (State.putReg_onward ..)

theorem State.fault_onward (t id : Nat) (i : FaultInfo) (s : State) : Onward s (s.fault t id i) := by
  simp only [State.fault]
  split
  · refine Onward.trans ?_ (State.event_onward ..)
    exact onward_of_kept rfl rfl rfl
  · exact onward_of_kept rfl rfl rfl

theorem State.tellFaults_onward (s : State) : Onward s s.tellFaults := by
  simp only [State.tellFaults]
  split
  · exact .refl s
  · refine Onward.trans ?_ (onward_foldl (fun s e => State.fault_onward ..) _ _)
    exact onward_of_kept rfl rfl rfl

theorem State.passItem_onward (t n : Nat) (s : State) : Onward s (s.passItem t n).2 := by
  have hcheck (id : Nat) : Onward s (s.check t id).2 :=
    onward_of_kept (by simp [State.check_kept]) (by simp [State.check_kept]) (by simp [State.check_kept])
  simp only [State.passItem]
  split
  · exact (hcheck _).trans (State.fault_onward ..)
  · exact hcheck _

end Sys2Proof.Machine
end

section
/-! BAR2 accesses: what a read or a store of a port does once it is its turn, and the rows that take one (R85 to R93, R105,
R187). -/

namespace Sys2Proof.Machine

/-! ## Reads and stores are quiet -/

theorem State.outOfRange_quiet (p pa : Nat) (s : State) : Quiet s (s.outOfRange p pa) :=
  quiet_of_kept (by simp [State.outOfRange_kept]) (by simp [State.outOfRange_kept])

theorem State.deny_quiet (p l : Nat) (s : State) : Quiet s (s.deny p l) :=
  quiet_of_kept (by simp) (by simp)

theorem State.dwLine_quiet (p l : Nat) (env : MediaEnv) (s : State) : Quiet s (s.dwLine p l env).2 := by
  simp only [State.dwLine]
  repeat' split
  · exact State.deny_quiet ..
  · exact State.readLine_quiet ..
  · exact State.readLine_quiet ..

theorem quiet_foldl {A : Type} {f : State → A → State} (h : ∀ s x, Quiet s (f s x)) (l : List A) (s : State) :
    Quiet s (l.foldl f s) := by
  induction l generalizing s with
  | nil => exact .refl s
  | cons x l ih => exact (h s x).trans (ih (f s x))

theorem quiet_foldl_snd {A B : Type} {f : B × State → A → B × State} (h : ∀ a x, Quiet a.2 (f a x).2) (l : List A)
    (a : B × State) : Quiet a.2 (l.foldl f a).2 := by
  induction l generalizing a with
  | nil => exact .refl a.2
  | cons x l ih => exact (h a x).trans (ih (f a x))

theorem State.dwBytes_quiet (p pa len : Nat) (env : MediaEnv) (s : State) : Quiet s (s.dwBytes p pa len env).2 := by
  refine quiet_foldl_snd (fun a l => ?_) (linesOf pa len) (some [], s)
  have hline := State.dwLine_quiet p l env a.2
  split
  · exact .refl a.2
  · split <;> simpa [*] using hline

theorem State.serveRead_quiet (p pa len : Nat) (env : MediaEnv) (s : State) : Quiet s (s.serveRead p pa len env) := by
  simp only [State.serveRead]
  generalize hu : (if s.capacity < pa + max 1 len then s.outOfRange p pa else s) = u
  have hrange : Quiet s u := by
    rw [← hu]
    split
    · exact State.outOfRange_quiet ..
    · exact .refl s
  have hbytes := hrange.trans (State.dwBytes_quiet p pa len env u)
  split
  next b s1 hs1 =>
    rw [hs1] at hbytes
    exact hbytes.trans ((State.passItem_onward p 1 s1).trans (State.emit_onward ..)).quiet
  next s1 hs1 =>
    rw [hs1] at hbytes
    exact hbytes.trans (State.emit_onward ..).quiet

theorem State.storeLost_quiet (p l cause : Nat) (s : State) : Quiet s (s.storeLost p l cause) :=
  quiet_of_kept (by simp [State.storeLost_kept]) (by simp [State.storeLost_kept])

theorem State.storeLine_quiet (p pa : Nat) (b : List (Option Byte)) (env : MediaEnv) (l : Nat) (s : State) :
    Quiet s (s.storeLine p pa b env l) := by
  have hwrite := State.writeBytes_quiet p l (storeBytes pa b l) env s
  have hlost (s : State) : Quiet s ((s.storeLost p l 2).raiseEvent 2) :=
    (State.storeLost_quiet ..).trans (State.raiseEvent_onward ..).quiet
  simp only [State.storeLine]
  repeat' split
  · exact .refl s
  · exact (State.deny_quiet ..).trans (State.storeLost_quiet ..)
  next hw => rw [hw] at hwrite; exact hwrite
  next hw => rw [hw] at hwrite; exact hwrite.trans (hlost _)
  next hw => rw [hw] at hwrite; exact hwrite.trans (hlost _)

theorem State.serveStore_quiet (p pa : Nat) (b : List (Option Byte)) (env : MediaEnv) (s : State) :
    Quiet s (s.serveStore p pa b env) := by
  simp only [State.serveStore]
  generalize hu : (if s.capacity < pa + b.length then s.outOfRange p pa else s) = u
  have hrange : Quiet s u := by
    rw [← hu]
    split
    · exact State.outOfRange_quiet ..
    · exact .refl s
  refine hrange.trans ?_
  repeat' split
  · exact .refl u
  · exact quiet_of_kept (by simp) (by simp)
  · exact quiet_foldl (fun s l => State.storeLine_quiet p pa b env l s) _ u

theorem State.serveDw_quiet (p : Nat) (h : HeldAccess) (s : State) : Quiet s (s.serveDw p h) := by
  simp only [State.serveDw]
  split
  · exact State.serveStore_quiet ..
  · exact State.serveRead_quiet ..

/-! ## An access alone at its port -/

/-- A BAR2 access counts (R499) and takes its place behind those its port holds. -/
def State.queueDw (p : Nat) (h : HeldAccess) (s : State) : State := (s.pmcEdge p 0x60 0).holdDw p h

theorem State.queueDw_kept (p : Nat) (h : HeldAccess) (s : State) :
    (s.queueDw p h).member = s.member ∧ (s.queueDw p h).epo = s.epo ∧ (s.queueDw p h).cat = s.cat ∧
    (s.queueDw p h).med = s.med ∧ (s.queueDw p h).cry = s.cry ∧ (s.queueDw p h).pwr = s.pwr ∧
    (s.queueDw p h).out = s.out := by
  simp [State.queueDw, State.holdDw_kept]

/-- The port holds the access last, and no close that it did not hold before. -/
theorem State.queueDw_port (p : Nat) (h : HeldAccess) (s : State) :
    (s.queueDw p h).port p = { s.port p with heldDw := (s.port p).heldDw ++ [h] } := by
  have hport : (s.pmcEdge p 0x60 0).port p = s.port p := by simp only [State.port, State.pmcEdge_kept]
  simp only [State.queueDw, State.holdDw, State.setPort_port, hport]

/-- The only access that a port holds is served as far as it need not wait; the port holds nothing after, and no close and no
trigger is due. -/
theorem State.releaseHeld_one {p : Nat} {h : HeldAccess} {s : State} (hone : (s.port p).heldDw = [h])
    (hclose : (s.port p).closeHeld = false) (hcalm : s.epo.calm = true) (hstuck : (s.serveDw p h).cat.stuck = false)
    (hforged : (s.serveDw p h).cat.forged = none) :
    s.releaseHeld p = (s.serveDw p h).tellFaults.undoTriggers.setPort p
      { (s.serveDw p h).tellFaults.undoTriggers.port p with heldDw := [] } := by
  have hserve : s.serveHeld p [h] = (s.serveDw p h).tellFaults.undoTriggers.setPort p
      { (s.serveDw p h).tellFaults.undoTriggers.port p with heldDw := [] } := by
    simp [State.serveHeld, hforged, hstuck]
  have hquiet : Quiet s (s.serveDw p h).tellFaults.undoTriggers :=
    (State.serveDw_quiet p h s).trans ((State.tellFaults_onward _).trans (State.undoTriggers_onward _)).quiet
  rw [State.releaseHeld, hone, hserve]
  generalize (s.serveDw p h).tellFaults.undoTriggers = u at hquiet ⊢
  have hlate : (u.setPort p { u.port p with heldDw := [] }).closeLate p = u.setPort p { u.port p with heldDw := [] } := by
    simp [State.closeLate, hquiet.closeHeld p, hclose]
  have hact : (u.epo.rollback || u.epo.heldTrig.isEmpty) = true := hquiet.calm hcalm
  rw [hlate, State.actHeld, if_pos]
  simp only [State.setPort_frame, hact, Bool.true_or]

/-- An access that comes during a rollback takes its place, and nothing else of it happens at its port. -/
theorem State.takeDw_rollback {p : Nat} {h : HeldAccess} {s : State} (hr : s.epo.rollback = true) :
    ((s.takeDw p h).port p).heldDw = (s.port p).heldDw ++ [h] := by
  have hwake (s : State) : s.wake.host.ports = s.host.ports := by
    unfold State.wake State.enterPower
    split <;> simp [State.endQuiet_kept]
  have hport : (s.pmcEdge p 0x60 0).wake.port p = s.port p := by simp only [State.port, hwake, State.pmcEdge_kept]
  simp only [State.takeDw, State.holdDw, State.setPort_frame, State.wake_kept, State.pmcEdge_kept, hr, if_true,
    State.setPort_port, hport]

/-- One that comes to a port that holds nothing, in P0 and outside a rollback, is served at once. -/
theorem State.takeDw_alone {p : Nat} {h : HeldAccess} {s : State} (hr : s.epo.rollback = false) (hp0 : s.pwr.pwr = .p0)
    (hnone : (s.port p).heldDw = []) (hclose : (s.port p).closeHeld = false) (htrig : s.epo.heldTrig = [])
    (hstuck : ((s.queueDw p h).serveDw p h).cat.stuck = false) (hforged : ((s.queueDw p h).serveDw p h).cat.forged = none) :
    s.takeDw p h = ((s.queueDw p h).serveDw p h).tellFaults.undoTriggers.setPort p
      { ((s.queueDw p h).serveDw p h).tellFaults.undoTriggers.port p with heldDw := [] } := by
  obtain ⟨_, hepo, _⟩ := State.queueDw_kept p h s
  have hport := State.queueDw_port p h s
  have hawake : (s.pmcEdge p 0x60 0).wake = s.pmcEdge p 0x60 0 := by simp [State.wake, hp0]
  have htake : s.takeDw p h = (s.queueDw p h).releaseHeld p := by
    rw [State.takeDw, hawake]
    exact if_neg (by rw [← State.queueDw, hepo, hr]; exact Bool.false_ne_true)
  rw [htake]
  refine State.releaseHeld_one ?_ ?_ ?_ hstuck hforged
  · rw [hport, hnone]; rfl
  · rw [hport]; exact hclose
  · rw [hepo, EpochState.calm, htrig]; exact Bool.or_true _

/-! ## What capacity, homes and rights depend on -/

theorem State.capacity_congr {s t : State} (hm : t.member = s.member) (hp : t.pwr = s.pwr) (hd : t.med = s.med) :
    t.capacity = s.capacity := by
  simp only [State.capacity, State.tileList, State.tiles, State.spareEnc, hm, hp, hd]

theorem State.home_congr {s t : State} (hm : t.member = s.member) (l : Nat) : t.home l = s.home l := by
  simp only [State.home, State.tiles, hm]

theorem State.denied_congr {s t : State} (hc : t.cry = s.cry) (m f : Nat) (w : Bool) :
    t.denied m (t.kidOf f) w = s.denied m (s.kidOf f) w := by
  have hkid : t.kidOf f = s.kidOf f := by simp only [State.kidOf, hc]
  have hkids : t.kid = s.kid := by funext k; simp only [State.kid, hc]
  have hrights : t.rights = s.rights := by funext m k; simp only [State.rights, hc]
  unfold State.denied
  rw [hkid, hkids, hrights]

/-! ## What a read or a store does -/

/-- A range that does not leave its first line. -/
theorem linesOf_one {pa len : Nat} (hpos : 0 < len) (hin : pa % 128 + len ≤ 128) : linesOf pa len = [pa / 128] := by
  have hlast : (pa + len - 1) / 128 - pa / 128 + 1 = 1 := by omega
  simp [linesOf, Nat.ne_of_gt hpos, hlast]

/-- A read of one line without the right is recorded and answered as poisoned (R92). -/
theorem State.serveRead_denied {p pa len : Nat} {env : MediaEnv} {s : State} (hpos : 0 < len) (hone : pa % 128 + len ≤ 128)
    (hin : pa + len ≤ s.capacity) (hd : (s.denied p (s.kidOf (folioOf (pa / 128))) false).isSome = true) :
    s.serveRead p pa len env = (s.deny p (pa / 128)).emit (.dwReply p true true []) := by
  have hrange : ¬ s.capacity < pa + max 1 len := by omega
  have hline : ¬ s.capacity ≤ 128 * (pa / 128) := by omega
  simp only [State.serveRead, State.dwBytes, State.dwLine, linesOf_one hpos hone, List.foldl_cons, List.foldl_nil, hrange, hline,
    hd, if_true, if_false]

/-- A store while the part is read-only counts once, at the home of its first line (R187). -/
theorem State.serveStore_readOnly {p pa : Nat} {b : List (Option Byte)} {env : MediaEnv} {s : State}
    (hro : s.med.readOnly = true) (hpos : 0 < b.length) (hin : pa + b.length ≤ s.capacity) :
    s.serveStore p pa b env = s.bump .medRoWrites (s.home (pa / 128)) 0 := by
  have hrange : ¬ s.capacity < pa + b.length := by omega
  have hfirst : ¬ s.capacity ≤ pa := by omega
  simp [State.serveStore, hrange, hro, hfirst]

/-! ## Accesses as they arrive -/

/-- A BAR2 read, with the part address it arrives at (R85). -/
def readAccess (pa len : Nat) (env : MediaEnv) : HeldAccess :=
  { offset := BitVec.ofNat 64 pa, len := len, store := none, env := env }

/-- A BAR2 store, with the part address it arrives at (R85). -/
def storeAccess (pa : Nat) (b : List (Option Byte)) (env : MediaEnv) : HeldAccess :=
  { offset := BitVec.ofNat 64 pa, len := b.length, store := some b, env := env }

theorem State.serveDw_readAccess {p pa n : Nat} {env : MediaEnv} (hpa : pa < 2 ^ 64) (s : State) :
    s.serveDw p (readAccess pa n env) = s.serveRead p pa n env := by
  change s.serveRead p (BitVec.ofNat 64 pa).toNat n env = _
  rw [BitVec.toNat_ofNat, Nat.mod_eq_of_lt hpa]

theorem State.serveDw_storeAccess {p pa : Nat} {b : List (Option Byte)} {env : MediaEnv} (hpa : pa < 2 ^ 64) (s : State) :
    s.serveDw p (storeAccess pa b env) = s.serveStore p pa b env := by
  change s.serveStore p (BitVec.ofNat 64 pa).toNat b env = _
  rw [BitVec.toNat_ofNat, Nat.mod_eq_of_lt hpa]

/-- A read of one line without the right, once it has taken its place. -/
theorem State.serveDw_denied {p pa n : Nat} {env : MediaEnv} {s : State} (hpa : pa < 2 ^ 64) (hpos : 0 < n)
    (hone : pa % 128 + n ≤ 128) (hin : pa + n ≤ s.capacity)
    (hd : (s.denied p (s.kidOf (folioOf (pa / 128))) false).isSome = true) (h : HeldAccess) :
    (s.queueDw p h).serveDw p (readAccess pa n env) =
      ((s.queueDw p h).deny p (pa / 128)).emit (.dwReply p true true []) := by
  obtain ⟨hm, _, _, hmed, hcry, hpwr, _⟩ := State.queueDw_kept p h s
  rw [State.serveDw_readAccess hpa]
  refine State.serveRead_denied hpos hone ?_ ?_
  · rw [State.capacity_congr hm hpwr hmed]; exact hin
  · rw [State.denied_congr hcry]; exact hd

/-- A store of a read-only part, once it has taken its place. -/
theorem State.serveDw_readOnly {p pa : Nat} {b : List (Option Byte)} {env : MediaEnv} {s : State} (hpa : pa < 2 ^ 64)
    (hro : s.med.readOnly = true) (hpos : 0 < b.length) (hin : pa + b.length ≤ s.capacity) (h : HeldAccess) :
    (s.queueDw p h).serveDw p (storeAccess pa b env) = (s.queueDw p h).bump .medRoWrites (s.home (pa / 128)) 0 := by
  obtain ⟨hm, _, _, hmed, _, hpwr, _⟩ := State.queueDw_kept p h s
  rw [State.serveDw_storeAccess hpa, State.serveStore_readOnly (by rw [hmed]; exact hro) hpos
    (by rw [State.capacity_congr hm hpwr hmed]; exact hin), State.home_congr hm]

/-! ## Rows -/

/-- A served read reaches the port with its part address (R85). -/
theorem exec_dwRead_open {p n : Nat} {o : DWord} {env : MediaEnv} {s : State} (hp : s.hasPort p = true)
    (hup : s.hostUp p = true) (hb : s.bar2 p = true) :
    exec (.dwRead p o n env) s = .next (s.takeDw p (readAccess (s.dwPa p o.toNat) n env)) := by
  obtain ⟨hopen, hruns⟩ : s.bar2Open = true ∧ s.tileRuns p = true := by simpa [State.bar2] using hb
  change execDwRead p o n env s = _
  rw [execDwRead, withUnit_of _ _ _ hp, hup, hopen, hruns]
  rfl

theorem exec_dwRead_shut {p n : Nat} {o : DWord} {env : MediaEnv} {s : State} (hp : s.hasPort p = true)
    (hup : s.hostUp p = true) (hb : s.bar2Open = false) :
    exec (.dwRead p o n env) s = .next (s.emit (.dwReply p false false [])) := by
  change execDwRead p o n env s = _
  rw [execDwRead, withUnit_of _ _ _ hp, hup, hb]
  rfl

theorem exec_dwStore_open {p : Nat} {o : DWord} {b : List (Option Byte)} {env : MediaEnv} {s : State}
    (hp : s.hasPort p = true) (hup : s.hostUp p = true) (hb : s.bar2 p = true) :
    exec (.dwStore p o b env) s = .next (s.takeDw p (storeAccess (s.dwPa p o.toNat) b env)) := by
  change execDwStore p o b env s = _
  rw [execDwStore, withUnit_of _ _ _ hp, hup, hb]
  rfl

theorem exec_dwStore_shut {p : Nat} {o : DWord} {b : List (Option Byte)} {env : MediaEnv} {s : State}
    (hp : s.hasPort p = true) (hb : s.bar2 p = false) : exec (.dwStore p o b env) s = .next s := by
  change execDwStore p o b env s = _
  rw [execDwStore, withUnit_of _ _ _ hp, hb, Bool.not_false, Bool.or_true]
  rfl

/-! ## The statement -/

/-- Settles O6: an access alone at its port is served whole by `takeDw_alone`; a rollback holds it; the read without the right
and the store of a read-only part by what serving them does. -/
theorem directWindowServes : Obligations.DirectWindowServes := by
  unfold Obligations.DirectWindowServes
  refine ⟨?shut, ?read, ?denied, ?readHeld, ?dropped, ?readOnly, ?store, ?storeHeld⟩
  case shut => exact fun p o n env s hp hup hb => exec_dwRead_shut hp hup hb
  case read =>
    intro p o n env s hp hup hb hr hp0 hnone hclose htrig hstuck hforged
    rw [exec_dwRead_open hp hup hb]
    exact congrArg Host.Outcome.next (State.takeDw_alone hr hp0 hnone hclose htrig hstuck hforged)
  case denied =>
    intro p o n env s hp hup hb hr hp0 hnone hclose htrig hstuck hforged hpa hpos hone hin hd
    have hmod : s.dwPa p o.toNat % 128 = o.toNat % 128 := by unfold State.dwPa; omega
    generalize ha : readAccess (s.dwPa p o.toNat) n env = a
    obtain ⟨_, _, hcat, _, _, _, hout⟩ := State.queueDw_kept p a s
    have hserve := State.serveDw_denied (env := env) hpa hpos (by omega) hin hd a
    rw [ha] at hserve
    have hcat' : ((s.queueDw p a).serveDw p a).cat = s.cat := by rw [hserve]; simp [hcat]
    have hout' : ((s.queueDw p a).serveDw p a).out = s.out ++ [.dwReply p true true []] := by
      rw [hserve]; simp [State.emit, hout]
    obtain ⟨l, hl⟩ := ((State.tellFaults_onward ((s.queueDw p a).serveDw p a)).trans (State.undoTriggers_onward _)).sent
    rw [exec_dwRead_open hp hup hb, ha, yields_next_iff,
      State.takeDw_alone hr hp0 hnone hclose htrig (hcat' ▸ hstuck) (hcat' ▸ hforged)]
    refine ⟨?_, by rw [State.setPort_port]⟩
    simp only [State.setPort_frame]
    rw [← hl, hout']
    simp
  case readHeld =>
    intro p o n env s hp hup hb hr
    rw [exec_dwRead_open hp hup hb, yields_next_iff, State.takeDw_rollback hr]
    rfl
  case dropped => exact fun p o b env s hp hb => exec_dwStore_shut hp hb
  case readOnly =>
    intro p o b env s hp hup hb hr hp0 hnone hclose htrig hstuck hforged hro hpa hin hpos
    generalize ha : storeAccess (s.dwPa p o.toNat) b env = a
    obtain ⟨_, _, hcat, _⟩ := State.queueDw_kept p a s
    have hserve := State.serveDw_readOnly (p := p) (env := env) hpa hro hpos hin a
    rw [ha] at hserve
    have hcat' : ((s.queueDw p a).serveDw p a).cat = s.cat := by rw [hserve]; simp [hcat]
    rw [exec_dwStore_open hp hup hb, ha,
      State.takeDw_alone hr hp0 hnone hclose htrig (hcat' ▸ hstuck) (hcat' ▸ hforged), hserve, ← ha]
    rfl
  case store =>
    intro p o b env s hp hup hb hr hp0 hnone hclose htrig hstuck hforged
    rw [exec_dwStore_open hp hup hb]
    exact congrArg Host.Outcome.next (State.takeDw_alone hr hp0 hnone hclose htrig hstuck hforged)
  case storeHeld =>
    intro p o b env s hp hup hb hr
    rw [exec_dwStore_open hp hup hb, yields_next_iff, State.takeDw_rollback hr]
    rfl

end Sys2Proof.Machine
end

section
/-! A merge that waits behind degraded stripe blocks (R124, R183). -/

namespace Sys2Proof.Machine

theorem exec_folioMerge {k f spn n : Nat} {s : State} (hk : s.hasTile k = true) (hr : s.coreRuns k = true) :
    exec (.folioMerge k f spn n) s = .next (s.mergeFolio k f spn (n % 3)) := by
  change execFolioMerge k f spn n s = _
  rw [execFolioMerge, withUnit_of _ _ _ hk, if_pos hr]

/-- While a degraded stripe block waits for its relocation, no folio is merged: a merge is weeding too (R124, R183). -/
theorem State.mergeFolio_degraded {k f spn n : Nat} {s : State} (h : s.degradedWaits k = true) :
    s.mergeFolio k f spn n = s := by
  simp [State.mergeFolio, h]

theorem State.page_none_of_pageFree {k spn : Nat} {s : State} (h : s.pageFree k spn = true) : s.page k spn = none := by
  simp only [State.pageFree, Bool.and_eq_true, Option.isNone_iff_eq_none] at h
  obtain ⟨⟨⟨⟨⟨hpage, _⟩, _⟩, _⟩, _⟩, _⟩ := h
  exact hpage

/-- Every channel of tile 0 has one target in use; the last cooling sweep left folio 0, which is split, cold; stripe block 1 is
degraded and waits to be dissolved. -/
def mergeBehindDegraded : State :=
  { readyPart with
    cat := { readyPart.cat with
      folios := [(0, { place := .split 0 })]
      groups := [(0, [0])]
      mergeDue := [0]
      blocks := [(blockKey 0 1, { members := List.replicate 16 0, free := false, degraded := true })] }
    med := { readyPart.med with
      targets := (List.range 16).map (fun c => (targetKey 0 c 0, { present := true, qualified := true, mapped := true })) } }

theorem mergeBehindDegraded_runs :
    mergeBehindDegraded.hasTile 0 = true ∧ mergeBehindDegraded.coreRuns 0 = true := by decide +kernel

theorem mergeBehindDegraded_ready :
    mergeBehindDegraded.mergeable 0 0 = true ∧ mergeBehindDegraded.pageFree 0 0 = true ∧
      mergeBehindDegraded.weedReady 0 = true := by
  decide +kernel

theorem mergeBehindDegraded_waits : mergeBehindDegraded.degradedWaits 0 = true := by decide +kernel

/-- Refutes O15: its clause of the merge does not ask that no degraded stripe block waits. The pieces of degraded blocks go ahead
of all other weeding (R183), so where one waits a folio that may merge is not programmed yet, and its page stays free. -/
theorem not_stagerProgramsPages : ¬ Obligations.StagerProgramsPages := by
  unfold Obligations.StagerProgramsPages
  intro h
  obtain ⟨_, _, _, _, _, hmerge, _, _⟩ := h
  obtain ⟨hk, hrun⟩ := mergeBehindDegraded_runs
  obtain ⟨hmergeable, hfree, hready⟩ := mergeBehindDegraded_ready
  have hpage := hmerge 0 0 0 0 mergeBehindDegraded hk hrun (by omega) hmergeable hfree hready
  rw [exec_folioMerge hk hrun, State.mergeFolio_degraded mergeBehindDegraded_waits, yields_next_iff,
    State.page_none_of_pageFree hfree] at hpage
  obtain ⟨_, hreloc, _⟩ := hpage
  exact absurd hreloc (by decide)

end Sys2Proof.Machine
end

section
/-! The weeder: what its steps leave of the stripe pages and relocations of a tile (R130 to R132). -/

namespace Sys2Proof.Machine

/-! ## Registers that a write does not reach -/

/-- The keys of two registers differ where their copies and indices are in range. -/
theorem regKey_ne {r q : Reg} {u v i j : Nat} (h : r.ctorIdx ≠ q.ctorIdx) (hu : u < 16) (hv : v < 16) (hi : i < 4096)
    (hj : j < 4096) : regKey r u i ≠ regKey q v j := by
  unfold regKey
  omega

theorem State.putReg_reg_ne {r q : Reg} {u v i j w : Nat} (h : regKey q v j ≠ regKey r u i) (s : State) :
    (s.putReg r u i w).reg q v j = s.reg q v j := by
  simp only [State.reg, State.putReg, tget_tset_ne _ _ _ h]

theorem State.bump_reg_ne {r q : Reg} {u v i j : Nat} (h : regKey q v j ≠ regKey r u i) (s : State) :
    (s.bump r u i).reg q v j = s.reg q v j :=
  State.putReg_reg_ne h s

theorem State.reg_congr {s t : State} (h : t.regs = s.regs) (r : Reg) (u i : Nat) : t.reg r u i = s.reg r u i := by
  simp only [State.reg, h]

/-- A counter that rises from the same value reads the same. -/
theorem State.bump_reg_congr {s t : State} {r : Reg} {u i : Nat} (h : t.reg r u i = s.reg r u i) :
    (t.bump r u i).reg r u i = (s.bump r u i).reg r u i := by
  simp only [State.bump, State.count, State.putField, State.field, State.putReg_reg, h]

theorem lt_eight_of_hasTile {k : Nat} {s : State} (h : s.hasTile k = true) : k < 8 := by
  have hk : k < s.member.tiles := of_decide_eq_true h
  cases hm : s.member <;> simp only [hm, Member.tiles] at hk <;> omega

/-! ## Registers that a use of the Catalogue cache leaves as they were -/

/-- A register that no minor overflow of a tile counts in (R371). -/
def notOverflow (r : Reg) (u i : Nat) : Prop := ∀ t < 8, regKey r u i ≠ regKey .cryMinorOvf t 0

section
variable {r : Reg} {u i : Nat}

theorem State.writeDdr_reg (t n j : Nat) (s : State) : (s.writeDdr t n j).reg r u i = s.reg r u i :=
  State.reg_congr (by simp only [State.writeDdr_kept]) ..

theorem State.dirtyNode_reg (t l n : Nat) (s : State) : (s.dirtyNode t l n).reg r u i = s.reg r u i :=
  State.reg_congr (by simp only [State.dirtyNode_kept]) ..

theorem State.majorUp_reg (h : notOverflow r u i) {t : Nat} (ht : t < 8) (n : Nat) (s : State) :
    (s.majorUp t n).reg r u i = s.reg r u i :=
  (foldl_same (fun s => s.reg r u i) _ (fun s j => State.writeDdr_reg t n j s) _ _).trans
    ((State.dirtyNode_reg ..).trans (State.bump_reg_ne (h t ht) _))

theorem State.bumpMinor_reg (h : notOverflow r u i) {t : Nat} (ht : t < 8) (n j : Nat) (s : State) :
    (s.bumpMinor t n j).reg r u i = s.reg r u i := by
  have hfresh : (s.freshLeaf t n).reg r u i = s.reg r u i := State.reg_congr (by simp only [State.freshLeaf_kept]) ..
  unfold State.bumpMinor
  dsimp only
  split
  · exact (State.majorUp_reg h ht ..).trans hfresh
  · exact (State.dirtyNode_reg ..).trans hfresh

theorem State.ddrStore_reg (h : notOverflow r u i) {t : Nat} (ht : t < 8) (a : Nat) (s : State) :
    (s.ddrStore t a).reg r u i = s.reg r u i := by
  unfold State.ddrStore
  dsimp only
  split
  · exact (State.writeDdr_reg ..).trans (State.bumpMinor_reg h ht ..)
  · rfl

theorem State.entryHome_lt_eight (leaf : Bool) (key : Nat) (s : State) : s.entryHome leaf key < 8 := by
  have hpos : 0 < s.member.tiles ∧ s.member.tiles ≤ 8 := by cases s.member <;> decide
  exact Nat.lt_of_lt_of_le (Nat.mod_lt _ hpos.1) hpos.2

theorem State.setEntry_reg (h : notOverflow r u i) (leaf : Bool) (key : Nat) (v : Entry) (s : State) :
    (s.setEntry leaf key v).reg r u i = s.reg r u i := by
  change (s.useEntry leaf key true).reg r u i = s.reg r u i
  unfold State.useEntry
  dsimp only
  split
  · rfl
  · refine (foldl_same (fun s => s.reg r u i) _
      (fun s x => State.ddrStore_reg h (State.entryHome_lt_eight leaf key s) ..) _ _).trans ?_
    exact State.reg_congr (by simp only [State.pmcEdge_kept]) ..

theorem State.repoint_reg (h : notOverflow r u i) (t src dst : Nat) (p : Page) (s : State) :
    (s.repoint t src dst p).reg r u i = s.reg r u i := by
  refine foldl_same (fun s => s.reg r u i) _ (fun s e => ?_) p.entries s
  unfold State.repointEntry
  split
  · split
    · exact State.setEntry_reg h ..
    · rfl
  all_goals rfl

end

end Sys2Proof.Machine
end

section
/-! Stripe pages and relocations under the operations of the weeder (R130 to R132, R181 to R183). -/

namespace Sys2Proof.Machine

/-- The stripe pages and the relocations of every tile. -/
def State.copies (s : State) : Tbl (Option Page) × Tbl (Option Reloc) := (s.cat.pages, s.cat.relocs)

theorem State.copies_congr {s t : State} (h : t.cat = s.cat) : t.copies = s.copies := by simp only [State.copies, h]

theorem State.page_congr {s t : State} (h : t.copies = s.copies) (k spn : Nat) : t.page k spn = s.page k spn := by
  have hpages : t.cat.pages = s.cat.pages := congrArg Prod.fst h
  simp only [State.page, hpages]

theorem State.relocs_congr {s t : State} (h : t.copies = s.copies) : t.cat.relocs = s.cat.relocs := congrArg Prod.snd h

/-! ## Stripe blocks -/

theorem State.setBlock_copies (t b : Nat) (v : StripeBlock) (s : State) : (s.setBlock t b v).copies = s.copies := rfl

theorem State.openBlock_copies (t b : Nat) (s : State) : (s.openBlock t b).copies = s.copies := by
  unfold State.openBlock
  split <;> rfl

theorem State.degrade_copies (t c : Nat) (p : Nat → Bool) (s : State) : (s.degrade t c p).copies = s.copies := by
  unfold State.degrade
  rw [State.copies_congr (State.showDegraded_kept ..).2.2.2.2.2.1]
  refine foldl_same State.copies _ (fun s e => ?_) _ s
  split <;> rfl

theorem State.retireBlock_copies (t c b cause : Nat) (s : State) : (s.retireBlock t c b cause).copies = s.copies := by
  have hcheck (s : State) : (s.spareCheck t).copies = s.copies := State.copies_congr (by simp only [State.spareCheck_kept])
  have hentry (n d : Nat) (s : State) : (s.spareEntry t n d).copies = s.copies :=
    State.copies_congr (by simp only [State.spareEntry_kept])
  have hannal (e : AEvent) (s : State) : (s.annal t e).copies = s.copies := State.copies_congr (by simp)
  have hshow (s : State) : (s.showBlocks t).copies = s.copies := State.copies_congr (by simp only [State.showBlocks_kept])
  unfold State.retireBlock
  dsimp only
  split
  · rfl
  · rw [hcheck, hentry, State.degrade_copies, hannal, hshow]
    rfl

theorem State.retireFailed_copies (t : Nat) (v : StripeBlock) (s : State) : (s.retireFailed t v).copies = s.copies := by
  refine foldl_same State.copies _ (fun s c => ?_) _ s
  split
  · exact State.retireBlock_copies ..
  · rfl

/-! ## A page that is laid out -/

theorem State.queueLoads_copies (t spn : Nat) (s : State) : (s.queueLoads t spn).copies = s.copies :=
  State.copies_congr (by simp only [State.queueLoads_kept])

theorem State.showFree_copies (t : Nat) (s : State) : (s.showFree t).copies = s.copies :=
  State.copies_congr (by simp only [State.showFree_kept])

/-- The page that ADD_PAGE lays out: it takes the tile's next write sequence, and the members of its block that carry nothing are
missing from it (R120, R144). -/
def State.laidPage (t spn epoch : Nat) (reloc merge : Bool) (items : List PageItem) (s : State) : Page :=
  let b := spn / s.ppb t
  let s1 := s.openBlock t b
  { epoch := epoch, seq := s1.nextSeq t, reloc := reloc, items := items, programmed := false, merge := merge,
    missing := (List.range 16).filter (fun c => !s1.carries t c ((s1.block t b).member c)),
    wbands := (List.range 16).map (fun c => s1.memberBand t c b), wtime := s1.wtimeNow }

theorem State.addPage_page (t spn e : Nat) (reloc merge : Bool) (l : List PageItem) (s : State) :
    (s.addPage t spn e reloc merge l).page t spn = some (s.laidPage t spn e reloc merge l) := by
  unfold State.addPage State.laidPage
  dsimp only
  rw [State.page_congr ((State.queueLoads_copies ..).trans (State.showFree_copies ..))]
  split <;> simp [State.page, State.setPage, State.setBlock]

end Sys2Proof.Machine
end

section
/-! The rows of the weeder and of the media scans (R130 to R132, R135 to R137). -/

namespace Sys2Proof.Machine

/-! ## Relocations -/

theorem State.weedSpent_copies (k : Nat) (s : State) : (s.weedSpent k).copies = s.copies := rfl

theorem State.queueErase_copies (k b : Nat) (s : State) : (s.queueErase k b).copies = s.copies := rfl

@[simp] theorem State.setReloc_page (k : Nat) (r : Option Reloc) (j spn : Nat) (s : State) :
    (s.setReloc k r).page j spn = s.page j spn := rfl

@[simp] theorem State.setReloc_relocs (k : Nat) (r : Option Reloc) (s : State) :
    tget (fun _ => none) (s.setReloc k r).cat.relocs k = r := by
  simp [State.setReloc]

/-! ## Copies -/

theorem exec_weedRelocate {k v d spn : Nat} {s : State} (hk : s.hasTile k = true) (hr : s.coreRuns k = true) :
    exec (.weedRelocate k v d spn) s = .next (s.relocate k v d spn) := by
  change execWeedRelocate k v d spn s = _
  rw [execWeedRelocate, withUnit_of _ _ _ hk, if_pos hr]

/-- The first page of a victim's live set as it is copied: it is read, laid out on the destination, and noted (R131 steps 1 to
3). -/
def State.firstCopy (k v d spn src : Nat) (l : List PageItem) (todo : List (Nat × List PageItem)) (s : State) : State :=
  let items := l.map s.recrypted
  let s1 := (s.showRate k (s.victimRatio k v)).queueReads k src (items.flatMap (fun i => pieceQuarters i.piece))
  ((s1.addPage k spn (copyEpoch (((s.page k src).map Page.epoch).getD 0) items) true false items).setReloc k
    (some { victim := v, dest := d, src := src, spn := spn, step := 3, todo := todo })).weedSpent k

theorem State.relocate_first {k v d spn src : Nat} {l : List PageItem} {m : List (Nat × List PageItem)} {s : State}
    (hnone : tget (fun _ => none) s.cat.relocs k = none) (hv : s.victimOk k v = true) (hfree : s.pageFree k spn = true)
    (hready : s.weedReady k = true) (hd : spn / s.ppb k = d) (hne : d ≠ v) (hlive : s.liveSet k v = (src, l) :: m) :
    s.relocate k v d spn = s.firstCopy k v d spn src l ((src, l) :: m) := by
  simp [State.relocate, State.firstCopy, State.toCopy, hnone, hv, hfree, hready, hd, hne, hlive]

theorem State.firstCopy_page (k v d spn src : Nat) (l : List PageItem) (m : List (Nat × List PageItem)) (s : State) :
    ∃ g, (s.firstCopy k v d spn src l m).page k spn = some g ∧
      g.epoch = copyEpoch (((s.page k src).map Page.epoch).getD 0) (l.map s.recrypted) ∧ g.reloc = true ∧
      g.items = l.map s.recrypted := by
  unfold State.firstCopy
  dsimp only
  rw [State.page_congr (State.weedSpent_copies ..), State.setReloc_page, State.addPage_page]
  exact ⟨_, rfl, rfl, rfl, rfl⟩

theorem State.firstCopy_reloc (k v d spn src : Nat) (l : List PageItem) (m : List (Nat × List PageItem)) (s : State) :
    tget (fun _ => none) (s.firstCopy k v d spn src l m).cat.relocs k =
      some { victim := v, dest := d, src := src, spn := spn, step := 3, todo := m } := by
  unfold State.firstCopy
  dsimp only
  rw [State.relocs_congr (State.weedSpent_copies ..), State.setReloc_relocs]

/-! ## Verification of a copy -/

theorem exec_relocVerifyDone {k : Nat} {ok : Bool} {s : State} (hk : s.hasTile k = true) (hr : s.coreRuns k = true) :
    exec (.relocVerifyDone k ok) s = .next (s.verified k ok) := by
  change execRelocVerifyDone k ok s = _
  rw [execRelocVerifyDone, withUnit_of _ _ _ hk, if_pos hr]

theorem State.verified_of {k : Nat} {ok : Bool} {r : Reloc} {g : Page} {s : State}
    (hr : tget (fun _ => none) s.cat.relocs k = some r) (h3 : r.step = 3)
    (hops : s.opsPending k (fun o => o.prog && o.spn == r.spn) = false) (hg : s.page k r.spn = some g) :
    s.verified k ok = if ok then s.copyDone k r g else
      (s.drawn 1).copyFailed k ((Config.free s.freeCtr).toNat % 16) r := by
  simp [State.verified, hr, h3, hops, hg]

theorem notOverflow_catRelocs {k : Nat} (h : k < 8) : notOverflow .catRelocs k 0 :=
  fun _ ht => regKey_ne (by decide) (by omega) (by omega) (by omega) (by omega)

/-- A verified copy counts one relocation, and leaves what is left of the victim's live set (R131 steps 5 and 6). -/
theorem State.copyDone_counts {k : Nat} (h : k < 8) (r : Reloc) (g : Page) (s : State) :
    (s.copyDone k r g).reg .catRelocs k 0 = (s.bump .catRelocs k 0).reg .catRelocs k 0 := by
  have hbefore : ((((s.setPage k r.spn (some { g with programmed := true })).markEighth k r.spn g).repoint k r.src r.spn
      g).reg .catRelocs k 0) = s.reg .catRelocs k 0 :=
    (State.repoint_reg (notOverflow_catRelocs h) ..).trans (State.reg_congr (by simp [State.markEighth_kept]) ..)
  rw [← State.bump_reg_congr hbefore]
  unfold State.copyDone
  dsimp only
  split
  · exact State.reg_congr (by simp [State.queueErase_kept]) ..
  · rfl

theorem State.copyDone_reloc (k : Nat) (r : Reloc) (g : Page) (s : State) :
    tget (fun _ => none) (s.copyDone k r g).cat.relocs k =
      some { r with step := if r.todo.tail.isEmpty then 6 else 5, todo := r.todo.tail } := by
  unfold State.copyDone
  dsimp only
  split
  · next hempty =>
    rw [State.relocs_congr (State.queueErase_copies ..), List.isEmpty_iff.mp hempty, State.setReloc_relocs]
  · exact State.setReloc_relocs ..

/-! ## A copy that failed -/

theorem State.copyAgain_reloc {k : Nat} {r : Reloc} {s : State} (hr : tget (fun _ => none) s.cat.relocs k = some r)
    (h3 : r.step = 3) :
    tget (fun _ => none) (s.copyAgain k r.spn).cat.relocs k = some { r with step := 5, own := true } := by
  simp [State.copyAgain, hr, h3, State.setReloc, State.bump, State.count]

theorem State.copyAgain_pages (k spn : Nat) (s : State) : (s.copyAgain k spn).cat.pages = s.cat.pages := by
  unfold State.copyAgain
  split
  · split <;> rfl
  · rfl

theorem State.failPage_relocs (k spn : Nat) (s : State) : (s.failPage k spn).cat.relocs = s.cat.relocs := by
  unfold State.failPage
  split
  · rfl
  · dsimp only
    split
    · rfl
    · exact (State.relocs_congr (State.showFree_copies ..)).trans rfl

theorem State.failPage_page {k spn : Nat} {g : Page} {s : State} (hg : s.page k spn = some g) (hp : g.programmed = false) :
    (s.failPage k spn).page k spn = none := by
  simp only [State.failPage, hg, hp, Bool.false_eq_true, if_false]
  rw [State.page_congr (State.showFree_copies ..), State.page_congr (State.setBlock_copies ..), State.setPage_page]

theorem State.settleOwn_pages (k : Nat) (s : State) : (s.settleOwn k).cat.pages = s.cat.pages := by
  unfold State.settleOwn
  split
  · split <;> rfl
  · rfl

theorem State.settleOwn_step (k : Nat) (s : State) :
    (tget (fun _ => none) (s.settleOwn k).cat.relocs k).map Reloc.step =
      (tget (fun _ => none) s.cat.relocs k).map Reloc.step := by
  unfold State.settleOwn
  split
  · next r hr =>
    split
    · rw [State.setReloc_relocs, hr]
      rfl
    · rfl
  · rfl

/-- A copy that failed is to be made again, and its page holds nothing (R132). -/
theorem State.copyFailed_gives_up {k c : Nat} {r : Reloc} {g : Page} {s : State}
    (hr : tget (fun _ => none) s.cat.relocs k = some r) (h3 : r.step = 3) (hg : s.page k r.spn = some g)
    (hp : g.programmed = false) :
    (s.copyFailed k c r).page k r.spn = none ∧
      (tget (fun _ => none) (s.copyFailed k c r).cat.relocs k).map Reloc.step = some 5 := by
  have hg' : (s.copyAgain k r.spn).page k r.spn = some g := by
    simpa only [State.page, State.copyAgain_pages] using hg
  unfold State.copyFailed
  constructor
  · rw [State.page, State.settleOwn_pages]
    exact (State.page_congr (State.retireBlock_copies ..) ..).trans (State.failPage_page hg' hp)
  · rw [State.settleOwn_step, State.relocs_congr (State.retireBlock_copies ..), State.failPage_relocs,
      State.copyAgain_reloc hr h3]
    rfl

/-! ## The erase of a victim -/

theorem exec_relocEraseDone {k : Nat} {ok : Bool} {s : State} (hk : s.hasTile k = true) (hr : s.coreRuns k = true) :
    exec (.relocEraseDone k ok) s = .next (s.erased k ok) := by
  change execRelocEraseDone k ok s = _
  rw [execRelocEraseDone, withUnit_of _ _ _ hk, if_pos hr]

theorem State.erased_ok {k : Nat} {r : Reloc} {s : State} (hr : tget (fun _ => none) s.cat.relocs k = some r)
    (h6 : r.step = 6) (hops : s.opsPending k (fun o => !o.prog && o.spn == r.victim * s.ppb k) = false) :
    s.erased k true =
      (((s.setReloc k none).freeBlock k r.victim).retireFailed k (s.block k r.victim)).spareCheck k := by
  simp [State.erased, hr, h6, hops, State.setReloc]

theorem State.freeBlock_copies (k b : Nat) (s : State) :
    (s.freeBlock k b).copies = (tdrop (fun n => n / 2 ^ 28 == k && n % 2 ^ 28 / s.ppb k == b) s.cat.pages, s.cat.relocs) := by
  have hshown (s : State) : ((((s.showFree k).showDegraded k).showUncal k).showWear k).copies = s.copies :=
    State.copies_congr (by simp only [State.showWear_kept, State.showUncal_kept, State.showDegraded_kept, State.showFree_kept])
  unfold State.freeBlock
  dsimp only
  rw [hshown, State.setBlock_copies]
  generalize hu : List.foldl _ s _ = u
  have hcat : u.cat = s.cat := by
    rw [← hu]
    simp
  simp only [State.copies, hcat]

theorem State.freeBlock_pages (k b : Nat) (s : State) :
    (s.freeBlock k b).cat.pages = tdrop (fun n => n / 2 ^ 28 == k && n % 2 ^ 28 / s.ppb k == b) s.cat.pages :=
  congrArg Prod.fst (State.freeBlock_copies k b s)

theorem State.freeBlock_relocs (k b : Nat) (s : State) : (s.freeBlock k b).cat.relocs = s.cat.relocs :=
  congrArg Prod.snd (State.freeBlock_copies k b s)

theorem pageKey_tile {k spn : Nat} (h : spn < 2 ^ 28) : pageKey k spn / 2 ^ 28 = k ∧ pageKey k spn % 2 ^ 28 = spn := by
  unfold pageKey
  omega

theorem State.freeBlock_page {k b spn : Nat} {s : State} (h : spn < 2 ^ 28) (hb : spn / s.ppb k = b) :
    (s.freeBlock k b).page k spn = none := by
  obtain ⟨htile, hspn⟩ := pageKey_tile (k := k) h
  rw [State.page, State.freeBlock_pages, tget_tdrop, htile, hspn, hb]
  simp

/-- Once the erase of a victim has ended, no page of it is left, and its relocation is over (R131 step 6). -/
theorem State.erased_leaves_nothing {k spn : Nat} {r : Reloc} {s : State}
    (hr : tget (fun _ => none) s.cat.relocs k = some r) (h6 : r.step = 6)
    (hops : s.opsPending k (fun o => !o.prog && o.spn == r.victim * s.ppb k) = false) (h : spn < 2 ^ 28)
    (hb : spn / s.ppb k = r.victim) :
    (s.erased k true).page k spn = none ∧ tget (fun _ => none) (s.erased k true).cat.relocs k = none := by
  have hkept : (s.erased k true).copies = ((s.setReloc k none).freeBlock k r.victim).copies := by
    rw [State.erased_ok hr h6 hops, State.copies_congr (t := State.spareCheck ..) (State.spareCheck_kept ..).2.2.2.2.1,
      State.retireFailed_copies]
  constructor
  · rw [State.page_congr hkept]
    exact State.freeBlock_page h hb
  · rw [State.relocs_congr hkept, State.freeBlock_relocs, State.setReloc_relocs]

end Sys2Proof.Machine
end

section
/-! The scans of the media: of lost ranges, and of a whole tile at a boot (R135 to R137). -/

namespace Sys2Proof.Machine

/-! ## The scan of lost ranges -/

theorem exec_lostScanDone {k : Nat} {s : State} (hk : s.hasTile k = true) (hr : s.coreRuns k = true)
    (hw : s.scanWaits k = false) : exec (.lostScanDone k) s = .next (s.lostScanDone k) := by
  change execLostScanDone k s = _
  rw [execLostScanDone, withUnit_of _ _ _ hk, hr, hw]
  rfl

theorem bits_word (w : Nat) : bits (w % 2 ^ 32) 30 30 = bits w 30 30 := by
  simp only [bits, Nat.reduceAdd, Nat.reduceSub, Nat.reducePow]
  omega

theorem bits_setBits_below (w v : Nat) : bits (setBits w 15 0 v) 30 30 = bits w 30 30 := by
  simp only [bits, setBits, Nat.reduceAdd, Nat.reduceSub, Nat.reducePow]
  omega

theorem bits_setBits_cleared (w : Nat) : bits (setBits w 30 30 0) 30 30 = 0 := by
  simp only [bits, setBits, Nat.reduceAdd, Nat.reduceSub, Nat.reducePow]
  omega

/-- CAT_RBLD.running, once cleared, stays clear as the duration is written below it. -/
theorem State.duration_keeps_running (k v : Nat) (s : State) :
    (((s.putField .catRbld k 0 30 30 0).drawn 1).putField .catRbld k 0 15 0 v).field .catRbld k 0 30 30 = 0 := by
  have hread (u : State) : (u.drawn 1).reg .catRbld k 0 = u.reg .catRbld k 0 := State.reg_congr rfl ..
  rw [State.putField, State.field, State.putReg_reg, bits_word, bits_setBits_below, hread, State.putField, State.putReg_reg,
    bits_word, bits_setBits_cleared]

theorem State.lostScanDone_running (k : Nat) (s : State) : (s.lostScanDone k).field .catRbld k 0 30 30 = 0 := by
  unfold State.lostScanDone
  dsimp only
  exact State.duration_keeps_running ..

theorem State.lostScanDone_lost (k : Nat) (s : State) : ∀ r ∈ (s.lostScanDone k).cat.lost, r.1 / 2 ^ 33 ≠ k := by
  have hlost : ∃ l : List (Nat × Nat), (s.lostScanDone k).cat.lost = l.filter (fun r => r.1 / 2 ^ 33 != k) := ⟨_, rfl⟩
  obtain ⟨l, hl⟩ := hlost
  intro r hr
  rw [hl, List.mem_filter] at hr
  exact bne_iff_ne.mp hr.2

/-! ## The scan of a whole tile -/

theorem exec_rebuildScan {k : Nat} {s : State} (hk : s.hasTile k = true) :
    exec (.rebuildScan k) s = .next (if s.pwr.scanning then s.rebuildScan k else s) := by
  change execRebuildScan k s = _
  rw [execRebuildScan, withUnit_of _ _ _ hk]

/-- The undo log and the staging buffers. -/
def State.logs (s : State) : List Undo × List Buf := (s.cat.undo, s.cat.bufs)

theorem State.logs_congr {s t : State} (h : t.cat = s.cat) : t.logs = s.logs := by simp only [State.logs, h]

theorem State.setEntry_logs (leaf : Bool) (key : Nat) (v : Entry) (s : State) : (s.setEntry leaf key v).logs = s.logs := by
  change (s.useEntry leaf key true).logs = s.logs
  unfold State.useEntry
  dsimp only
  split
  · rfl
  · exact (foldl_same State.logs _ (fun s x => State.logs_congr (by simp only [State.ddrStore_kept])) _ _).trans
      (State.logs_congr (by simp only [State.pmcEdge_kept]))

theorem State.takeGroup_logs (t g : Nat) (s : State) : (s.takeGroup t g).logs = s.logs := rfl

theorem State.scanEntry_logs (t limit f : Nat) (s : State) : (s.scanEntry t limit f).logs = s.logs := by
  unfold State.scanEntry
  dsimp only
  split
  · rw [foldl_same State.logs _ (fun s j => State.setEntry_logs ..), State.takeGroup_logs, State.setEntry_logs]
  all_goals exact State.setEntry_logs ..

/-- A tile as its headers have been read: what is dead or unread holds nothing (R137 steps 1 and 2). -/
def State.headersRead (k : Nat) (s : State) : State :=
  (((s.readHeaders k).killPages k s.bootD).killUnprogrammed k).killUnread k

theorem State.headersRead_member (k : Nat) (s : State) : (s.headersRead k).member = s.member := by
  simp only [State.headersRead, State.killUnread_kept, State.killUnprogrammed_kept, State.killPages_kept, State.readHeaders_kept]

/-- The scan leaves nothing of the tile's undo log and staging (R137 step 5). -/
theorem State.rebuildScan_logs (k : Nat) (s : State) :
    (s.rebuildScan k).logs =
      ((s.headersRead k).cat.undo.filter (fun u => !((s.headersRead k).entryHome u.leaf u.key == k)),
        (s.headersRead k).cat.bufs.filter (fun b => !((s.headersRead k).entryHome b.leaf b.key == k))) := by
  have hshown (u : State) (a b : Nat) :
      (((((u.drawn 1).putReg .catRbld k 0 a).putReg .catRate k 0 b).showUncal k).showFree k).logs = u.logs :=
    State.logs_congr (by simp only [State.showFree_kept, State.showUncal_kept, State.putReg_frame, State.drawn_frame])
  have hmarks (u : State) : (u.restoreMarks k).logs = u.logs := State.logs_congr (by simp only [State.restoreMarks_kept])
  have hscan (l : List Nat) (d : Nat) (u : State) : (l.foldl (fun s f => s.scanEntry k d f) u).logs = u.logs :=
    foldl_same State.logs _ (fun s f => State.scanEntry_logs ..) l u
  unfold State.rebuildScan
  extract_lets d s1 mine cat1 s2 s3 native med3 spare3 s4 s5 pwr5
  have h5 : s5.logs = s4.logs := hshown s4 ..
  have h4 : s4.logs = s3.logs := State.logs_congr (by dsimp only [s4])
  have h3 : s3.logs = s2.logs := (hmarks _).trans (hscan ..)
  have hpwr (p : PowerState) : State.logs { s5 with pwr := p } = s5.logs := State.logs_congr (by dsimp only)
  exact (hpwr _).trans (h5.trans (h4.trans h3))

theorem State.rebuildScan_scanned (k : Nat) (s : State) : k ∈ (s.rebuildScan k).pwr.scanned := by
  unfold State.rebuildScan
  extract_lets d s1 mine cat1 s2 s3 native med3 spare3 s4 s5 pwr5
  dsimp only
  split
  · next h => exact List.contains_iff_mem.mp h
  · exact List.mem_append_right _ (List.mem_singleton.mpr rfl)

theorem State.rebuildScan_empties (k : Nat) (s : State) :
    (∀ u ∈ (s.rebuildScan k).cat.undo, (s.rebuildScan k).entryHome u.leaf u.key ≠ k) ∧
      ∀ b ∈ (s.rebuildScan k).cat.bufs, (s.rebuildScan k).entryHome b.leaf b.key ≠ k := by
  have hhome (leaf : Bool) (key : Nat) : (s.rebuildScan k).entryHome leaf key = (s.headersRead k).entryHome leaf key := by
    simp only [State.entryHome, State.tiles, State.rebuildScan_kept, State.headersRead_member]
  obtain ⟨hundo, hbufs⟩ := Prod.mk.inj (State.rebuildScan_logs k s)
  constructor
  · intro u hu
    rw [hundo, List.mem_filter] at hu
    simpa only [hhome, Bool.not_eq_true', beq_eq_false_iff_ne] using hu.2
  · intro b hb
    rw [hbufs, List.mem_filter] at hb
    simpa only [hhome, Bool.not_eq_true', beq_eq_false_iff_ne] using hb.2

end Sys2Proof.Machine
end

section
/-! Settles the statement of the weeder: copies, their verification, and the erase of a victim. -/

namespace Sys2Proof.Machine

/-- Settles O16: each row runs its operation, whose pages and relocation the lemmas above give. -/
theorem weederKeepsEpochs : Obligations.WeederKeepsEpochs := by
  unfold Obligations.WeederKeepsEpochs
  refine ⟨?copy, ?verified, ?failed, ?erased, ?lostScan, ?scan, ?noScan⟩
  case copy =>
    intro k v d spn src l m s hk hrun hnone hv hfree hready hd hne hlive
    rw [exec_weedRelocate hk hrun, yields_next_iff, State.relocate_first hnone hv hfree hready hd hne hlive]
    obtain ⟨g, hg, hepoch, hreloc, hitems⟩ := State.firstCopy_page k v d spn src l ((src, l) :: m) s
    rw [hg, State.firstCopy_reloc]
    exact ⟨congrArg some hepoch, congrArg some hreloc, congrArg some hitems, rfl⟩
  case verified =>
    intro k r g s hk hrun hr h3 hops hg
    rw [exec_relocVerifyDone hk hrun, yields_next_iff, State.verified_of hr h3 hops hg]
    exact ⟨State.copyDone_counts (lt_eight_of_hasTile hk) r g s, State.copyDone_reloc k r g s⟩
  case failed =>
    intro k r g s hk hrun hr h3 hops hg hp
    rw [exec_relocVerifyDone hk hrun, yields_next_iff, State.verified_of hr h3 hops hg]
    exact State.copyFailed_gives_up (s := s.drawn 1) hr h3 hg hp
  case erased =>
    intro k spn r s hk hrun hr h6 hops hlt hvictim
    rw [exec_relocEraseDone hk hrun, yields_next_iff]
    exact State.erased_leaves_nothing hr h6 hops hlt hvictim
  case lostScan =>
    intro k s hk hrun hw
    rw [exec_lostScanDone hk hrun hw, yields_next_iff]
    exact ⟨State.lostScanDone_running k s, State.lostScanDone_lost k s⟩
  case scan =>
    intro k s hk hs
    rw [exec_rebuildScan hk, if_pos hs, yields_next_iff]
    exact ⟨State.rebuildScan_scanned k s, State.rebuildScan_empties k s⟩
  case noScan =>
    intro k s hk hs
    rw [exec_rebuildScan hk, hs]
    rfl

end Sys2Proof.Machine
end

section
/-! Ring commands of the Curator, and the slot that a command does not name (R55, R62, R80). -/

namespace Sys2Proof.Machine

/-- An accepted command of a ring runs its body on the state as it is: it stays in the Curator queue until its entry
completes. -/
theorem command_ring {opc src p q i : Nat} {c : Ctx} {ps : List Param} {body : State → State} {s : State}
    (hc : c.path = .ring p q i) (h : s.accepts opc c ps = true) : s.command opc src c ps body = body s := by
  obtain ⟨path, tag, noInt, rsv⟩ := c
  obtain rfl : path = .ring p q i := hc
  rw [command_accepted _ _ _ _ _ _ h, leaveHead_ring]

/-- A command that may go without a slot and names none answers in its completion entry alone (R55). -/
theorem withSlot_absent {src p q i : Nat} {c : Ctx} {w : Word} {o : SlotRead} {l : Win → DWord → Bool}
    {body : Option SlotRef → State → SlotAnswer} {s : State} (hc : c.path = .ring p q i)
    (hw : (slotRef w.toNat).present = false) :
    s.withSlot src c w o false l body =
      (body none s).after.replyWith src c (body none s).st (body none s).result (body none s).data := by
  have habsent : s.slotCheck p q i w o false l = .absent := by simp [State.slotCheck, hw]
  simp only [State.withSlot, State.slotReply, hc, habsent]

/-- A command whose token passes on the slot it names: the token is used, the command has its effect, and the slot is
returned whole (R79, R457). -/
theorem tokenCommand_pass {opc p q i purpose bind : Nat} {c : Ctx} {ps : List Param} {w : Word} {x : Token} {r : SlotRef}
    {optional : Bool} {body : State → SlotAnswer} {s : State} (hc : c.path = .ring p q i) (h : s.accepts opc c ps = true)
    (hs : s.slotCheck p q i w x.own false (fun w x => decide (1 ≤ ownLen x ∧ ownLen x ≤ w.slotSize)) = .pass r)
    (hlen : 2948 ≤ ownLen x.own.word) (hx : s.tokenFails x purpose bind (fun n => s.commonSigner n) = none)
    (hdata : (body (s.useToken x)).data = []) :
    s.tokenCommand opc c ps w x optional purpose bind body =
      ((body (s.useToken x)).after.returnSlot p q i r (body (s.useToken x)).st (ownLen x.own.word)).reply srcCurator c
        (body (s.useToken x)).st (body (s.useToken x)).result := by
  have hcut : decide (ownLen x.own.word < 2948) = false := decide_eq_false (Nat.not_lt.mpr hlen)
  rw [State.tokenCommand, command_ring hc h, withSlot_pass hc hs]
  simp [State.withToken, hc, hcut, hx, hdata]

end Sys2Proof.Machine
end

section
/-! What FORMAT does to the media state: the spare setting, the end of read-only, and a baseline on every tile (R184, R188). -/

namespace Sys2Proof.Machine

/-! ## Good capacity -/

theorem State.goodCapacity_congr {s t : State} (hp : t.ppb = s.ppb) (hc : t.med.chans = s.med.chans)
    (ht : t.med.targets = s.med.targets) (hb : t.med.mblocks = s.med.mblocks) : t.goodCapacity = s.goodCapacity := by
  funext k
  simp only [State.goodCapacity, State.goodBlocks, State.goodOn, State.retiredOn, State.chan, State.target, hp, hc, ht, hb]
  rfl

theorem State.settingFits_congr {s t : State} (hm : t.member = s.member) (hp : t.pwr = s.pwr) (hd : t.med = s.med) :
    t.settingFits = s.settingFits := by
  have hcap : t.goodCapacity = s.goodCapacity :=
    State.goodCapacity_congr (by funext k; simp only [State.ppb, hd]) (by rw [hd]) (by rw [hd]) (by rw [hd])
  simp only [State.settingFits, State.tileList, State.tiles, State.capacity_congr hm hp hd, hm, hcap]
  rfl

/-- A change of a tile's spare record leaves the others alone. -/
theorem State.setSpare_spare_ne {t k : Nat} (v : Spare) (s : State) (h : k ≠ t) : (s.setSpare t v).spare k = s.spare k := by
  simp only [State.setSpare, State.spare]
  exact tget_tset_ne _ _ v h

/-! ## One baseline -/

/-- The spare record that a baseline leaves. -/
def State.baseline (s : State) (t : Nat) : Spare :=
  { s.spare t with c0 := s.goodCapacity t, h := s.capacity / s.tiles, q := s.goodCapacity t / 100 }

theorem State.takeBaseline_spare (t : Nat) (s : State) : (s.takeBaseline t).spare t = s.baseline t := by
  simp only [State.takeBaseline, State.spare, State.spareEntry_kept, State.putField_kept]
  exact State.setSpare_spare t _ _

theorem State.takeBaseline_spare_ne {t k : Nat} (s : State) (h : k ≠ t) : (s.takeBaseline t).spare k = s.spare k := by
  simp only [State.takeBaseline, State.spare, State.spareEntry_kept, State.putField_kept]
  exact State.setSpare_spare_ne _ _ h

/-- What a baseline leaves as it was: the setting, whether the part is read-only, and what the good capacity of a tile is
counted from. -/
def State.gauge (s : State) : Option (BitVec 2) × Bool × Tbl Chan × Tbl Target × Tbl MBlock × (Nat → Nat) :=
  (s.med.spareSet, s.med.readOnly, s.med.chans, s.med.targets, s.med.mblocks, s.ppb)

theorem State.gauge_goodCapacity {s t : State} (h : t.gauge = s.gauge) : t.goodCapacity = s.goodCapacity := by
  simp only [State.gauge, Prod.mk.injEq] at h
  obtain ⟨_, _, hc, ht, hb, hp⟩ := h
  exact State.goodCapacity_congr hp hc ht hb

theorem State.gauge_congr {s t : State} (h : t.med = s.med) : t.gauge = s.gauge := by
  have hp : t.ppb = s.ppb := by funext k; simp only [State.ppb, h]
  simp only [State.gauge, hp, h]

@[simp] theorem State.baseline_ppb (s : State) (t : Nat) : (s.baseline t).ppb = (s.spare t).ppb := by
  simp only [State.baseline]

theorem State.takeBaseline_ppb (t : Nat) (s : State) : (s.takeBaseline t).ppb = s.ppb := by
  funext k
  show max 1 ((s.takeBaseline t).spare k).ppb = max 1 (s.spare k).ppb
  by_cases h : k = t
  · rw [h, State.takeBaseline_spare, State.baseline_ppb]
  · rw [State.takeBaseline_spare_ne s h]

theorem State.takeBaseline_gauge (t : Nat) (s : State) : (s.takeBaseline t).gauge = s.gauge := by
  simp only [State.gauge, State.takeBaseline_ppb]
  simp [State.takeBaseline, State.setSpare]

/-- A tile's baseline holds its good capacity, and the reserve is one hundredth of it. -/
def State.Baselined (s : State) (k : Nat) : Prop :=
  (s.spare k).c0 = s.goodCapacity k ∧ (s.spare k).q = s.goodCapacity k / 100

theorem State.takeBaseline_baselined (t : Nat) (s : State) : (s.takeBaseline t).Baselined t := by
  rw [State.Baselined, State.takeBaseline_spare, State.gauge_goodCapacity (State.takeBaseline_gauge t s)]
  exact ⟨rfl, rfl⟩

/-- A baseline of one tile leaves that of another standing. -/
theorem State.Baselined.takeBaseline {k : Nat} {s : State} (h : s.Baselined k) (t : Nat) : (s.takeBaseline t).Baselined k := by
  by_cases hk : k = t
  · rw [hk]
    exact State.takeBaseline_baselined t s
  · rw [State.Baselined, State.takeBaseline_spare_ne s hk, State.gauge_goodCapacity (State.takeBaseline_gauge t s)]
    exact h

theorem State.Baselined.congr {k : Nat} {s t : State} (h : s.Baselined k) (hd : t.med = s.med) : t.Baselined k := by
  rw [State.Baselined, State.gauge_goodCapacity (State.gauge_congr hd), State.spare, hd]
  exact h

/-! ## A baseline on every tile -/

/-- A tile's warnings end and it takes a baseline. -/
def State.rebase (s : State) (t : Nat) : State :=
  ((s.putField .medSpare t 0 29 29 0).putField .medSpare t 0 30 30 0).takeBaseline t

theorem State.rebase_gauge (s : State) (t : Nat) : (s.rebase t).gauge = s.gauge :=
  (State.takeBaseline_gauge t _).trans (State.gauge_congr (by simp))

theorem State.rebases_baselined (l : List Nat) {k : Nat} (hk : k ∈ l) (s : State) :
    (l.foldl State.rebase s).Baselined k := by
  have hstep : ∀ (l : List Nat) (s : State), s.Baselined k → (l.foldl State.rebase s).Baselined k := by
    intro l
    induction l with
    | nil => exact fun s h => h
    | cons t l ih => exact fun s h => ih _ (State.Baselined.takeBaseline (h.congr (by simp)) t)
  induction l generalizing s with
  | nil => exact absurd hk List.not_mem_nil
  | cons t l ih =>
    rcases List.mem_cons.mp hk with rfl | hmem
    · exact hstep l _ (State.takeBaseline_baselined _ _)
    · exact ih hmem _

theorem State.newBaselines_gauge (s : State) :
    s.newBaselines.gauge = ({ s with med := { s.med with readOnly := false, baseline := true } } : State).gauge :=
  foldl_same State.gauge State.rebase State.rebase_gauge _ _

theorem State.newBaselines_baselined {k : Nat} {s : State} (hk : k ∈ s.tileList) : s.newBaselines.Baselined k :=
  State.rebases_baselined s.tileList hk _

/-! ## The whole of FORMAT -/

/-- Dropping the near caches leaves the media state alone. -/
theorem State.dropFolios_med (p : Nat → Bool) (s : State) : (s.dropFolios p).med = s.med := by
  unfold State.dropFolios
  refine foldl_same State.med _ (fun s e => ?_) _ s
  split
  · exact (State.vacate_kept e.1 e.2.1 s).2.2.2.2.2.1
  · split
    · simp [State.clearEv_kept]
    · simp


theorem State.emptySpace_med (s : State) : s.emptySpace.med = s.med := by
  simp only [State.emptySpace, State.dropFolios_med]

/-- User space holds nothing, no region is bound, and no KID but 0 has a key. -/
structure State.Blank (s : State) : Prop where
  folios : s.cat.folios = []
  leaves : s.cat.leaves = []
  bufs : s.cat.bufs = []
  regions : s.cry.regions = []
  kids : ∀ n, n ≠ 0 → (s.kid n).st = .empty

theorem State.Blank.congr {s t : State} (h : s.Blank) (hc : t.cat = s.cat) (hk : t.cry = s.cry) : t.Blank where
  folios := by rw [hc, h.folios]
  leaves := by rw [hc, h.leaves]
  bufs := by rw [hc, h.bufs]
  regions := by rw [hk, h.regions]
  kids n hn := by rw [State.kid, hk]; exact h.kids n hn

theorem State.emptySpace_cat (s : State) :
    s.emptySpace.cat.folios = [] ∧ s.emptySpace.cat.leaves = [] ∧ s.emptySpace.cat.bufs = [] :=
  ⟨rfl, rfl, rfl⟩

theorem State.emptyKids_regions (s : State) : s.emptyKids.cry.regions = [] := rfl

/-- A KID other than 0 reads as the default once the KIDs are emptied (R390). -/
theorem State.emptyKids_kid {n : Nat} (hn : n ≠ 0) (s : State) : (s.emptyKids.kid n).st = .empty := by
  have hread : s.emptyKids.kid n = tget kidDefault (tdrop (fun k => k != 0) s.cry.kids) n :=
    tget_tset_ne _ _ _ hn
  rw [hread, tget_tdrop, if_pos (by simpa using hn), kidDefault, if_neg hn]

/-- The part with its new setting, its user space and its keys emptied: what FORMAT leaves before the baselines. -/
def State.emptied (s : State) (a : Nat) : State := ((s.withSetting (s.formatSetting a)).emptySpace).emptyKids

theorem State.formatPart_eq (a : Nat) (s : State) : s.formatPart a = (s.emptied a).newBaselines := rfl

theorem State.formatPart_blank (a : Nat) (s : State) : (s.formatPart a).Blank := by
  refine State.Blank.congr (s := s.emptied a) ?_ ?_ ?_
  · obtain ⟨hf, hl, hb⟩ := State.emptySpace_cat (s.withSetting (s.formatSetting a))
    have hc : (s.emptied a).cat = (s.withSetting (s.formatSetting a)).emptySpace.cat := by
      simp [State.emptied, State.emptyKids_kept]
    exact ⟨by rw [hc, hf], by rw [hc, hl], by rw [hc, hb], State.emptyKids_regions _,
      fun n hn => State.emptyKids_kid hn _⟩
  · simp [State.formatPart_eq, State.newBaselines_kept]
  · simp [State.formatPart_eq, State.newBaselines_kept]

/-- FORMAT leaves the part writable with the setting it names (R188). -/
theorem State.formatPart_setting {a : Nat} (ha : a < 4) (s : State) :
    (s.formatPart a).med.spareSet = some (BitVec.ofNat 2 a) ∧ (s.formatPart a).med.readOnly = false := by
  have hg := State.newBaselines_gauge (s.emptied a)
  simp only [State.gauge, Prod.mk.injEq] at hg
  obtain ⟨hset, hro, _⟩ := hg
  have hmed : (s.emptied a).med = (s.withSetting (s.formatSetting a)).med := by
    simp [State.emptied, State.emptyKids_kept, State.emptySpace_med]
  rw [State.formatPart_eq]
  refine ⟨?_, hro⟩
  rw [hset, hmed, State.withSetting, State.formatSetting, if_neg (by omega)]

theorem State.formatPart_baselined {k : Nat} (a : Nat) {s : State} (hk : k ∈ s.tileList) : (s.formatPart a).Baselined k := by
  rw [State.formatPart_eq]
  refine State.newBaselines_baselined ?_
  simpa [State.emptied, State.tileList, State.tiles, State.emptyKids_kept, State.emptySpace_kept, State.withSetting_kept] using hk

end Sys2Proof.Machine
end

section
/-! Settles the statement of media management: SPARE_STATUS, FORMAT and MEDIA_PROFILE. -/

namespace Sys2Proof.Machine

/-! ## SPARE_STATUS (R184) -/

theorem exec_spareStatus (c : Ctx) (k : Byte) (w : Word) (o : SlotRead) (s : State) :
    exec (.spareStatus c k w o) s = .next (s.command 0x58 srcCurator c (spareStatusParams k w) (fun s =>
      s.withSlot srcCurator c w o false (fun _ _ => true) (fun r s => s.spareStatus c k.toNat r))) := rfl

/-- Without a slot SPARE_STATUS answers its value and no bytes. -/
theorem State.spareStatus_noSlot {tile : Nat} (c : Ctx) {s : State} (h : tile = 255 ∨ s.hasTile tile = true) :
    s.spareStatus c tile none = { st := .done, result := s.spareResult tile, after := s } := by
  have hknown : (tile != 255 && !s.hasTile tile) = false := by
    rcases h with h | h <;> simp [h]
  simp [State.spareStatus, hknown]

theorem exec_spareStatus_noSlot {p q i : Nat} {c : Ctx} {k : Byte} {w : Word} {s : State} (o : SlotRead)
    (h : s.accepts 0x58 c (spareStatusParams k w) = true) (hc : c.path = .ring p q i)
    (hw : (slotRef w.toNat).present = false) (hk : k.toNat = 255 ∨ s.hasTile k.toNat = true) :
    exec (.spareStatus c k w o) s = .next (s.reply srcCurator c .done (s.spareResult k.toNat)) := by
  rw [exec_spareStatus, command_ring hc h, withSlot_absent hc hw, State.spareStatus_noSlot c hk]
  rfl

theorem State.spareResult_tile {k : Nat} (s : State) (hk : k ≠ 255) : s.spareResult k = s.remaining k := by
  simp [State.spareResult, State.namedTiles, hk]

/-- For FFh the value is the least of the tiles'. -/
theorem State.spareResult_all {k : Nat} {s : State} (hk : k ∈ s.tileList) : s.spareResult 255 ≤ s.remaining k := by
  simp only [State.spareResult, State.namedTiles, if_pos]
  exact List.min?_getD_le_of_mem (List.mem_map_of_mem hk)

/-! ## FORMAT (R139, R188, R390) -/

theorem exec_format (c : Ctx) (a : Byte) (w : Word) (x : Token) (s : State) :
    exec (.format c a w x) s = .next (if s.spaceBusy then s
      else s.tokenCommand 0x59 c (formatParams a w) w x false 5 a.toNat (fun s => s.format a.toNat)) := rfl

/-- The token does not bear on whether a setting fits. -/
theorem State.useToken_settingFits (x : Token) (a : Nat) (s : State) :
    ((s.useToken x).withSetting ((s.useToken x).formatSetting a)).settingFits =
      (s.withSetting (s.formatSetting a)).settingFits :=
  State.settingFits_congr (by simp [State.withSetting_kept, State.useToken_kept])
    (by simp [State.withSetting_kept, State.useToken_kept])
    (by simp [State.withSetting, State.formatSetting, State.useToken_kept])

theorem State.format_fits {a : Nat} {s : State} (ha : a < 4)
    (h : (s.withSetting (s.formatSetting a)).settingFits = true) :
    s.format a = { st := .done, after := s.formatPart a } := by
  simp [State.format, h, show ¬ 4 ≤ a by omega]

theorem State.format_unfit {a : Nat} {s : State} (ha : a < 4)
    (h : (s.withSetting (s.formatSetting a)).settingFits = false) :
    s.format a = { st := .state, after := s } := by
  simp [State.format, h, show ¬ 4 ≤ a by omega]

section
variable {p q i : Nat} {r : SlotRef} {c : Ctx} {a : Byte} {w : Word} {x : Token} {s : State}

/-- FORMAT whose setting fits does its work, returns its slot and is answered. -/
theorem exec_format_fits (hb : s.spaceBusy = false) (h : s.accepts 0x59 c (formatParams a w) = true) (hc : c.path = .ring p q i)
    (hs : s.slotCheck p q i w x.own false (fun w x => decide (1 ≤ ownLen x ∧ ownLen x ≤ w.slotSize)) = .pass r)
    (hlen : 2948 ≤ ownLen x.own.word) (hx : s.tokenFails x 5 a.toNat (fun n => s.commonSigner n) = none) (ha : a.toNat < 4)
    (hfit : (s.withSetting (s.formatSetting a.toNat)).settingFits = true) :
    exec (.format c a w x) s = .next ((((s.useToken x).formatPart a.toNat).returnSlot p q i r .done
      (ownLen x.own.word)).reply srcCurator c .done 0) := by
  have hwork := State.format_fits ha ((State.useToken_settingFits x a.toNat s).trans hfit)
  rw [exec_format, hb, if_neg Bool.false_ne_true, tokenCommand_pass hc h hs hlen hx (by rw [hwork]), hwork]

/-- FORMAT whose setting does not fit has used its token, and changes nothing else. -/
theorem exec_format_unfit (hb : s.spaceBusy = false) (h : s.accepts 0x59 c (formatParams a w) = true) (hc : c.path = .ring p q i)
    (hs : s.slotCheck p q i w x.own false (fun w x => decide (1 ≤ ownLen x ∧ ownLen x ≤ w.slotSize)) = .pass r)
    (hlen : 2948 ≤ ownLen x.own.word) (hx : s.tokenFails x 5 a.toNat (fun n => s.commonSigner n) = none) (ha : a.toNat < 4)
    (hfit : (s.withSetting (s.formatSetting a.toNat)).settingFits = false) :
    exec (.format c a w x) s = .next (((s.useToken x).returnSlot p q i r .state (ownLen x.own.word)).reply srcCurator c
      .state 0) := by
  have hwork := State.format_unfit ha ((State.useToken_settingFits x a.toNat s).trans hfit)
  rw [exec_format, hb, if_neg Bool.false_ne_true, tokenCommand_pass hc h hs hlen hx (by rw [hwork]), hwork]

end

/-! ## MEDIA_PROFILE (R157, R174) -/

/-- Outside action 2 the channel and target bytes are 0. -/
theorem exec_mediaProfile_ring {p q i : Nat} {c : Ctx} {act k : Byte} {w : Word} {s : State} (o : SlotRead) (d : HostData)
    (h : s.accepts 0x5A c (mediaProfileParams act k 0 0 w) = true) (hc : c.path = .ring p q i) :
    exec (.mediaProfile c act k 0 0 w o d) s =
      .next (s.withSlot srcCurator c w o true (fun _ w => act != 1 || ownLen w == driftBytes)
        (fun r s => s.mediaProfile c act.toNat k.toNat 0 0 r d)) := by
  have hexec : exec (.mediaProfile c act k 0 0 w o d) s = execMediaProfile c act k 0 0 w o d s := rfl
  rw [hexec, execMediaProfile, command_ring hc h]
  simp

/-- Action 0 asks nothing of the slot's length. -/
theorem profileLen_read :
    (fun (_ : Win) (v : DWord) => (0 : Byte) != 1 || ownLen v == driftBytes) = fun _ _ => true := by simp

/-- Action 1 asks for a slot of a drift table's size. -/
theorem profileLen_store :
    (fun (_ : Win) (v : DWord) => (1 : Byte) != 1 || ownLen v == driftBytes) = fun _ v => ownLen v == driftBytes := by simp

/-- Action 0 answers the bytes of the table in use that fit. -/
theorem State.mediaProfile_read {tile p q i : Nat} {c : Ctx} (r : SlotRef) (d : HostData) {s : State} (hc : c.path = .ring p q i)
    (h : s.hasTile tile = true) :
    s.mediaProfile c 0 tile 0 0 (some r) d =
      { st := .done, result := ((s.driftTable tile).take (s.win p r.window).slotSize).length,
        data := (s.driftTable tile).take (s.win p r.window).slotSize,
        len := ((s.driftTable tile).take (s.win p r.window).slotSize).length, after := s } := by
  simp [State.mediaProfile, State.slotSpace, h, hc]

/-- Action 1 stores a table that the tile accepts for its next reset. -/
theorem State.mediaProfile_store {tile : Nat} {d : HostData} (c : Ctx) (r : Option SlotRef) {s : State}
    (h : s.hasTile tile = true) (hd : d.ok = true) (ha : (s.spare tile).accepts d.bytes = true) :
    s.mediaProfile c 1 tile 0 0 r d =
      { st := .done, result := driftBytes, len := driftBytes,
        after := s.setSpare tile { s.spare tile with next := some d.bytes } } := by
  simp [State.mediaProfile, h, hd, ha]

/-- Action 1 refuses a table that the tile does not accept. -/
theorem State.mediaProfile_refuse {tile : Nat} {d : HostData} (c : Ctx) (r : Option SlotRef) {s : State}
    (h : s.hasTile tile = true) (hd : d.ok = true) (ha : (s.spare tile).accepts d.bytes = false) :
    s.mediaProfile c 1 tile 0 0 r d = { st := .param, len := driftBytes, after := s } := by
  simp [State.mediaProfile, h, hd, ha]

/-- The return of a slot and the answer leave the Catalogue, the media and the keys alone. -/
theorem reply_returnSlot_kept (p q i : Nat) (r : SlotRef) (st : Status) (len src : Nat) (c : Ctx) (result : Nat) (s : State) :
    ((s.returnSlot p q i r st len).reply src c st result).cat = s.cat ∧
      ((s.returnSlot p q i r st len).reply src c st result).med = s.med ∧
      ((s.returnSlot p q i r st len).reply src c st result).cry = s.cry := by
  simp [State.returnSlot_kept]

/-! ## The statement -/

/-- Settles O43: each row runs its command on the state as it is, and the branch that its premises choose says what is left. -/
theorem mediaManagement : Obligations.MediaManagement := by
  unfold Obligations.MediaManagement
  refine ⟨?spareOne, ?spareAll, ?formatFits, ?formatUnfit, ?formatWaits, ?profileRead, ?profileStore, ?profileRefused⟩
  case spareOne =>
    intro p q i c k w o s h hc hw hk hne
    rw [exec_spareStatus_noSlot o h hc hw (.inr hk), State.spareResult_tile s hne]
  case spareAll =>
    intro p q i c w o s h hc hw
    rw [exec_spareStatus_noSlot o h hc hw (.inl rfl), yields_next_iff]
    exact ⟨s.spareResult 255, rfl, fun k hk => State.spareResult_all hk⟩
  case formatFits =>
    intro p q i r c a w x s hb h hc hs _ hlen hx ha hfit
    rw [exec_format_fits hb h hc hs hlen hx ha hfit, yields_next_iff]
    obtain ⟨hcat, hmed, hcry⟩ := reply_returnSlot_kept p q i r .done (ownLen x.own.word) srcCurator c 0
      ((s.useToken x).formatPart a.toNat)
    generalize (((s.useToken x).formatPart a.toNat).returnSlot p q i r .done (ownLen x.own.word)).reply srcCurator c .done 0 = t
      at hcat hmed hcry ⊢
    have hblank := (State.formatPart_blank a.toNat (s.useToken x)).congr hcat hcry
    obtain ⟨hset, hro⟩ := State.formatPart_setting ha (s.useToken x)
    refine ⟨hblank.folios, hblank.leaves, hblank.bufs, hblank.regions, by rw [hmed, hro], by rw [hmed, hset],
      fun n _ hn => hblank.kids n hn, fun k hk => ?_⟩
    have hk' : k ∈ (s.useToken x).tileList := by
      simpa [State.tileList, State.tiles, State.useToken_kept] using hk
    exact (State.formatPart_baselined a.toNat hk').congr hmed
  case formatUnfit =>
    intro p q i r c a w x s hb h hc hs _ hlen hx ha hfit
    exact exec_format_unfit hb h hc hs hlen hx ha hfit
  case formatWaits =>
    intro c a w x s hb
    rw [exec_format, if_pos hb]
  case profileRead =>
    intro p q i r c k w o d s h hc hs hk hne
    rw [exec_mediaProfile_ring o d h hc, profileLen_read, withSlot_pass hc hs, yields_next_iff]
    have hwork := State.mediaProfile_read r d hc hk
    simp only [show (0 : Byte).toNat = 0 from rfl, hwork, hne, Bool.false_eq_true, if_false]
  case profileStore =>
    intro p q i c k w o d r s h hc hs hk hd hacc
    rw [exec_mediaProfile_ring o d h hc, profileLen_store, withSlot_pass hc hs, yields_next_iff]
    have hwork := State.mediaProfile_store c (some r) hk hd hacc
    simp only [show (1 : Byte).toNat = 1 from rfl, hwork]
    rw [State.spare, (reply_returnSlot_kept ..).2.1]
    exact congrArg Spare.next (State.setSpare_spare k.toNat _ s)
  case profileRefused =>
    intro p q i c k w o d r s h hc hs hk hd hacc
    rw [exec_mediaProfile_ring o d h hc, profileLen_store, withSlot_pass hc hs, yields_next_iff]
    have hwork := State.mediaProfile_refuse c (some r) hk hd hacc
    simp only [show (1 : Byte).toNat = 1 from rfl, hwork]
    exact (reply_returnSlot_kept ..).2.1

end Sys2Proof.Machine
end

section
/-! The calendars and the targets of the media under the operations of a phase (R160, R161, R182, R183). -/

namespace Sys2Proof.Machine

/-- The calendars of every tile, and the targets of its channels. -/
def State.devices (s : State) : Tbl Calendar × Tbl Target := (s.med.cals, s.med.targets)

theorem State.devices_congr {s t : State} (h : t.med = s.med) : t.devices = s.devices := by simp only [State.devices, h]

theorem State.cal_congr {s t : State} (h : t.devices = s.devices) (k : Nat) : t.cal k = s.cal k := by
  have hcals : t.med.cals = s.med.cals := congrArg Prod.fst h
  simp only [State.cal, hcals]

theorem State.target_congr {s t : State} (h : t.devices = s.devices) (k c j : Nat) : t.target k c j = s.target k c j := by
  have htargets : t.med.targets = s.med.targets := congrArg Prod.snd h
  simp only [State.target, htargets]

/-! ## Retirement and the failure of a target -/

theorem State.putReg_devices (r : Reg) (u i v : Nat) (s : State) : (s.putReg r u i v).devices = s.devices := rfl

theorem State.putField_devices (r : Reg) (u i hi lo v : Nat) (s : State) : (s.putField r u i hi lo v).devices = s.devices := rfl

theorem State.bump_devices (r : Reg) (u i : Nat) (s : State) : (s.bump r u i).devices = s.devices := rfl

theorem State.setChan_devices (t c : Nat) (v : Chan) (s : State) : (s.setChan t c v).devices = s.devices := rfl

theorem State.spareNotice_devices (t level : Nat) (s : State) : (s.spareNotice t level).devices = s.devices :=
  State.devices_congr (by simp only [State.spareNotice_kept])

theorem State.spareWarn_devices (t bit level : Nat) (s : State) : (s.spareWarn t bit level).devices = s.devices := by
  unfold State.spareWarn
  dsimp only
  split
  · rfl
  · exact (State.spareNotice_devices ..).trans rfl

theorem State.spareCheck_devices (t : Nat) (s : State) : (s.spareCheck t).devices = s.devices := by
  have hwarn (p : Prop) [Decidable p] (bit level : Nat) (u : State) :
      (if p then u.spareWarn t bit level else u).devices = u.devices := by
    split
    · exact State.spareWarn_devices ..
    · rfl
  unfold State.spareCheck
  extract_lets r s1 s2 s3
  have h3 : s3.devices = s.devices := (hwarn ..).trans ((hwarn ..).trans rfl)
  split
  · rfl
  · split
    · exact (State.spareNotice_devices ..).trans h3
    · exact h3

theorem State.degrade_devices (t c : Nat) (p : Nat → Bool) (s : State) : (s.degrade t c p).devices = s.devices :=
  State.devices_congr (by simp only [State.degrade_kept])

theorem State.showBlocks_devices (t : Nat) (s : State) : (s.showBlocks t).devices = s.devices :=
  State.devices_congr (by simp only [State.showBlocks_kept])

theorem State.retireBlock_devices (t c b cause : Nat) (s : State) : (s.retireBlock t c b cause).devices = s.devices := by
  unfold State.retireBlock
  dsimp only
  split
  · rfl
  · have hentry (n d : Nat) (u : State) : (u.spareEntry t n d).devices = u.devices := State.devices_congr (by simp)
    have hannal (e : AEvent) (u : State) : (u.annal t e).devices = u.devices := State.devices_congr (by simp)
    rw [State.spareCheck_devices, hentry, State.degrade_devices, hannal, State.showBlocks_devices]
    rfl

theorem State.failTarget_cal (t c k j : Nat) (s : State) : (s.failTarget t c k).cal j = s.cal j := by
  unfold State.failTarget
  dsimp only
  rw [State.cal_congr ((State.spareCheck_devices ..).trans ((State.showBlocks_devices ..).trans (State.degrade_devices ..)))]
  rfl

theorem State.failTarget_failed (t c k : Nat) (s : State) : ((s.failTarget t c k).target t c k).failed = true := by
  unfold State.failTarget
  dsimp only
  rw [State.target_congr ((State.spareCheck_devices ..).trans ((State.showBlocks_devices ..).trans (State.degrade_devices ..)))]
  exact congrArg Target.failed (State.setTarget_target ..)

/-! ## The end of an operation -/

theorem State.endOp_started (t c b : Nat) (s : State) :
    ((s.endOp t c b).cal t).started = (s.cal t).started.filter (fun o => !(o.ch == c && o.block == b)) :=
  congrArg Calendar.started (State.setCal_cal ..)

theorem State.cancelOps_cal (t : Nat) (p : StartedOp → Bool) (s : State) :
    (s.cancelOps t p).cal t = { s.cal t with
      ready := (s.cal t).ready.filter (fun o => !p o), due := (s.cal t).due.filter (fun o => !p o) } := by
  unfold State.cancelOps
  refine (State.cal_congr (foldl_same State.devices _ (fun u x => ?_) _ _) t).trans (State.setCal_cal ..)
  rfl

theorem State.programFailed_started (t c b spn cause : Nat) (s : State) :
    ((s.programFailed t c b spn cause).cal t).started =
      (s.cal t).started.filter (fun o => !(o.ch == c && o.block == b)) := by
  have hown (u : State) : (u.settleOwn t).devices = u.devices := State.devices_congr (by simp only [State.settleOwn_kept])
  have hpage (u : State) : (u.failPage t spn).devices = u.devices := State.devices_congr (by simp only [State.failPage_kept])
  have hcopy (u : State) : (u.copyAgain t spn).devices = u.devices := State.devices_congr (by simp only [State.copyAgain_kept])
  unfold State.programFailed
  rw [State.cal_congr (hown _), State.cal_congr (State.retireBlock_devices ..), State.cal_congr (State.bump_devices ..),
    State.cal_congr (hpage _), State.cal_congr (hcopy _), State.cancelOps_cal]
  exact State.endOp_started t c b s

theorem State.eraseFailed_started (t c b cause : Nat) (s : State) :
    ((s.eraseFailed t c b cause).cal t).started = (s.cal t).started.filter (fun o => !(o.ch == c && o.block == b)) := by
  unfold State.eraseFailed
  rw [State.cal_congr (State.retireBlock_devices ..), State.cal_congr (State.bump_devices ..), State.cancelOps_cal]
  exact State.endOp_started t c b s

/-! ## Stretches -/

/-- A phase of which nothing is busy any more is not stretched. -/
theorem State.unstretch_ended {t : Nat} {s : State} (h : (s.cal t).started = []) :
    ((s.unstretch t).cal t).started = [] ∧ ((s.unstretch t).cal t).stretching = none := by
  unfold State.unstretch
  dsimp only
  split
  · rw [State.cal_congr (State.putField_devices ..), State.setCal_cal]
    exact ⟨h, rfl⟩
  · next hnot => exact ⟨h, by simpa [h] using hnot⟩

theorem State.unstretch_busy {t : Nat} {s : State} (h : (s.cal t).started ≠ []) : s.unstretch t = s := by
  simp [State.unstretch, h]

end Sys2Proof.Machine
end

section
/-! The phases of the calendar: what begins one, what ends its operations, and what stretches it (R160, R161). -/

namespace Sys2Proof.Machine

/-! ## The beginning of a phase -/

theorem exec_phaseStart {k : Nat} {s : State} (hk : s.hasTile k = true) (hr : s.mediaRuns k = true) :
    exec (.phaseStart k) s = .next (s.startPhase k) := by
  change execPhaseStart k s = _
  rw [execPhaseStart, withUnit_of _ _ _ hk, if_pos hr]

theorem State.startPhase_stretched {t : Nat} {s : State} (h : (s.cal t).stretching.isSome = true) : s.startPhase t = s := by
  simp [State.startPhase, h]

/-- The operations that start in a new phase. -/
def State.phaseOps (s : State) (t : Nat) : List StartedOp :=
  startable (decide (2 ≤ s.levelOf t))
    (onePerPlane (((s.cal t).due ++ (s.cal t).ready).filter (fun o => o.ch % 8 == s.phaseNow)))

/-- A calendar as a new phase begins: its operations are due, and the others stay ready. -/
def State.phaseCal (s : State) (t : Nat) : Calendar :=
  { s.cal t with
    phase := s.phaseNow, startAt := s.phaseStart t, begun := some (s.now / 24000), due := s.phaseOps t,
    ready := ((s.cal t).due ++ (s.cal t).ready).filter (fun o => !(s.phaseOps t).contains o) }

/-- A phase that has begun, before its first operations start. -/
def State.newPhase (t : Nat) (s : State) : State := (s.setCal t (s.phaseCal t)).putField .calStat t 0 2 0 s.phaseNow

theorem State.newPhase_cal (t : Nat) (s : State) : (s.newPhase t).cal t = s.phaseCal t := State.setCal_cal ..

theorem State.startPhase_begins {t : Nat} {s : State} (hstretch : (s.cal t).stretching = none)
    (hbegun : (s.cal t).begun ≠ some (s.now / 24000)) (hstarted : (s.cal t).started = []) :
    s.startPhase t = if s.phaseNow = 0 then (((s.newPhase t).startDue t).queueDue t).applyTable t
      else ((s.newPhase t).startDue t).queueDue t := by
  simp [State.startPhase, hstretch, hbegun, hstarted, State.newPhase, State.phaseCal, State.phaseOps]

/-- A ready operation of the running group is what a phase starts, whatever the level. -/
theorem State.phaseCal_one {t : Nat} {o : StartedOp} {s : State} (hdue : (s.cal t).due = []) (hready : (s.cal t).ready = [o])
    (hgroup : o.ch % 8 = s.phaseNow) :
    s.phaseCal t = { s.cal t with
      phase := s.phaseNow, startAt := s.phaseStart t, begun := some (s.now / 24000), due := [o], ready := [] } := by
  have hops : s.phaseOps t = [o] := by
    simp [State.phaseOps, hdue, hready, hgroup, onePerPlane, startable]
  simp [State.phaseCal, hops, hdue, hready]

theorem State.startDue_one {t : Nat} {o : StartedOp} {s : State} (hdue : (s.cal t).due = [o])
    (hnow : s.now < s.phaseStart t + 1000) (hsensed : s.unsensed t o = false) : s.startDue t = s.startOp t o := by
  simp [State.startDue, hdue, Nat.not_le.mpr hnow, hsensed]

theorem State.queueBack_cals (t c : Nat) (l : List BackWin) (s : State) : (s.queueBack t c l).med.cals = s.med.cals := rfl

theorem State.startOp_cal (t : Nat) (o : StartedOp) (s : State) :
    (s.startOp t o).cal t = { s.cal t with started := (s.cal t).started ++ [o], due := (s.cal t).due.erase o } := by
  have hsent (ev : Nat) (cmd : WitisCmd) (page : Nat) :
      (((s.pmcEdge t ev o.ch).sendBlock t o.ch o.block cmd page o.seg []).cal t) = s.cal t :=
    State.cal_congr (State.devices_congr (by simp)) t
  unfold State.startOp
  dsimp only
  split
  · rw [State.setCal_cal, hsent]
  · rw [State.cal, State.queueBack_cals]
    exact (State.setCal_cal ..).trans (by rw [hsent])

/-! ## Background windows that a phase queues -/

theorem State.queueTemps_cals (t c : Nat) (s : State) : (s.queueTemps t c).med.cals = s.med.cals := by
  unfold State.queueTemps
  refine foldl_same (fun s => s.med.cals) _ (fun u k => ?_) _ s
  rfl

theorem State.queueScrub_cals (t c : Nat) (s : State) : (s.queueScrub t c).med.cals = s.med.cals := by
  unfold State.queueScrub
  split
  · rfl
  · split <;> rfl

theorem State.queueCal_cals (t c : Nat) (s : State) : (s.queueCal t c).med.cals = s.med.cals := by
  unfold State.queueCal
  split
  · rfl
  · split <;> rfl

theorem State.queueDue_cals (t : Nat) (s : State) : (s.queueDue t).med.cals = s.med.cals := by
  unfold State.queueDue
  refine foldl_same (fun s => s.med.cals) _ (fun u c => ?_) _ s
  split
  · rfl
  · rw [State.queueCal_cals, State.queueScrub_cals, State.queueTemps_cals]

theorem State.applyTable_cals (t : Nat) (s : State) : (s.applyTable t).med.cals = s.med.cals := by
  have hshow (u : State) : (u.showDrift t).med = u.med := by simp only [State.showDrift_kept]
  unfold State.applyTable
  dsimp only
  split
  · rfl
  · rw [hshow]
    rfl

theorem State.startPhase_cal {t : Nat} {s : State} (hstretch : (s.cal t).stretching = none)
    (hbegun : (s.cal t).begun ≠ some (s.now / 24000)) (hstarted : (s.cal t).started = []) :
    (s.startPhase t).cal t = ((s.newPhase t).startDue t).cal t := by
  rw [State.startPhase_begins hstretch hbegun hstarted]
  split <;> simp only [State.cal, State.applyTable_cals, State.queueDue_cals]

/-- A new phase starts the one operation of its group that is ready. -/
theorem State.startPhase_starts {t : Nat} {o : StartedOp} {s : State} (hstretch : (s.cal t).stretching = none)
    (hbegun : (s.cal t).begun ≠ some (s.now / 24000)) (hstarted : (s.cal t).started = []) (hdue : (s.cal t).due = [])
    (hready : (s.cal t).ready = [o]) (hgroup : o.ch % 8 = s.phaseNow) (hnow : s.now < s.phaseStart t + 1000)
    (hsensed : s.unsensed t o = false) :
    (s.startPhase t).cal t = { s.cal t with
      phase := s.phaseNow, startAt := s.phaseStart t, begun := some (s.now / 24000), started := [o], due := [],
      ready := [] } := by
  have hcal := (State.newPhase_cal t s).trans (State.phaseCal_one hdue hready hgroup)
  have hstart : (s.newPhase t).phaseStart t = s.phaseStart t := by
    simp only [State.phaseStart, hcal]
    rfl
  rw [State.startPhase_cal hstretch hbegun hstarted, State.startDue_one (congrArg Calendar.due hcal) (hstart ▸ hnow) hsensed,
    State.startOp_cal, hcal]
  simp [hstarted]

/-! ## The completion check -/

theorem exec_phaseStatusCheck {k : Nat} {l : List OpStatus} {s : State} (hk : s.hasTile k = true)
    (hr : s.mediaRuns k = true) (ht : (s.cal k).startAt + 21500 ≤ s.now) :
    exec (.phaseStatusCheck k l) s = .next (s.checkPhase k l) := by
  change execPhaseStatusCheck k l s = _
  rw [execPhaseStatusCheck, withUnit_of _ _ _ hk, hr, decide_eq_true ht]
  rfl

/-- The check of one STATUS whose window has been carried. -/
theorem State.checkPhase_one {t : Nat} {e : OpStatus} {s : State}
    (h : s.carriedBack t e.ch .status (fun w => blockTarget w.block == e.target) = true) :
    s.checkPhase t [e] = ((s.opStatus t e).statusTaken t e.ch e.target).unstretch t := by
  simp [State.checkPhase, h, List.eraseDups_cons]

theorem State.statusTaken_cal (t c k : Nat) (s : State) : (s.statusTaken t c k).cal t = s.cal t := by
  unfold State.statusTaken
  dsimp only
  split <;> rfl

theorem State.opStatus_done {t : Nat} {o : StartedOp} {s : State} (h : (s.cal t).started = [o]) :
    s.opStatus t ⟨o.ch, o.target, o.block, .done⟩ = s.endOp t o.ch o.block := by
  simp [State.opStatus, h]

theorem State.opStatus_busy {t : Nat} {o : StartedOp} {s : State} (h : (s.cal t).started = [o]) :
    s.opStatus t ⟨o.ch, o.target, o.block, .busy⟩ = s.stretch t := by
  simp [State.opStatus, h]

theorem State.checkPhase_done {t : Nat} {o : StartedOp} {s : State} (h : (s.cal t).started = [o])
    (hc : s.carriedBack t o.ch .status (fun w => blockTarget w.block == o.target) = true) :
    ((s.checkPhase t [⟨o.ch, o.target, o.block, .done⟩]).cal t).started = [] ∧
      ((s.checkPhase t [⟨o.ch, o.target, o.block, .done⟩]).cal t).stretching = none := by
  rw [State.checkPhase_one hc, State.opStatus_done h]
  refine State.unstretch_ended ?_
  rw [State.statusTaken_cal, State.endOp_started, h]
  simp

theorem State.stretch_cal {t : Nat} {s : State} (h : (s.cal t).stretching = none) :
    (s.stretch t).cal t = { s.cal t with stretching := some s.now } := by
  have hpmc (ev i ev' i' : Nat) (u : State) : ((u.pmcEdge t ev i).pmcEdge t ev' i').med = u.med := by simp
  simp only [State.stretch, h, Option.isSome_none, Bool.false_eq_true, if_false]
  rw [State.cal_congr (State.devices_congr (hpmc ..)), State.cal_congr (State.bump_devices ..),
    State.cal_congr (State.putField_devices ..), State.setCal_cal]

/-- CAL_STAT.stretched, once set, reads as set. -/
theorem bits_setBits_set (w : Nat) : bits (setBits w 30 30 1) 30 30 = 1 := by
  simp only [bits, setBits, Nat.reduceAdd, Nat.reduceSub, Nat.reducePow]
  omega

theorem State.stretch_shows {t : Nat} (ht : t < 8) {s : State} (h : (s.cal t).stretching = none) :
    (s.stretch t).field .calStat t 0 30 30 = 1 := by
  have hne : regKey .calStat t 0 ≠ regKey .calStretches t 0 :=
    regKey_ne (by decide) (by omega) (by omega) (by omega) (by omega)
  have hpmc (ev i ev' i' : Nat) (u : State) : ((u.pmcEdge t ev i).pmcEdge t ev' i').regs = u.regs := by simp
  simp only [State.stretch, h, Option.isSome_none, Bool.false_eq_true, if_false]
  rw [State.field, State.reg_congr (hpmc ..), State.bump_reg_ne hne, State.putField, State.putReg_reg, bits_word,
    bits_setBits_set]

theorem State.checkPhase_busy {t : Nat} {o : StartedOp} {s : State} (h : (s.cal t).started = [o])
    (hstretch : (s.cal t).stretching = none)
    (hc : s.carriedBack t o.ch .status (fun w => blockTarget w.block == o.target) = true) :
    s.checkPhase t [⟨o.ch, o.target, o.block, .busy⟩] = (s.stretch t).statusTaken t o.ch o.target := by
  rw [State.checkPhase_one hc, State.opStatus_busy h]
  refine State.unstretch_busy ?_
  rw [State.statusTaken_cal, State.stretch_cal hstretch, h]
  exact List.cons_ne_nil _ _

/-! ## A stretch that lasts too long -/

theorem exec_stretchExpiry {k c j b : Nat} {prog : Bool} {s : State} (hk : s.hasTile k = true) (hc : c < 16) (hj : j < 4)
    (hr : s.mediaRuns k = true) : exec (.stretchExpiry k c j b prog) s = .next (s.expireStretch k c j b prog) := by
  change execStretchExpiry k c j b prog s = _
  rw [execStretchExpiry, withUnit_of _ _ _ (by simp [hk, hc, hj]), if_pos hr]

/-- A target is reset because its phase has been stretched for too long (R161, R403). -/
def State.resetTarget (t c k : Nat) (s : State) : State :=
  ((s.sendPacket t c k { cmd := .reset }).bump .calResets t 0).fault t (srcId 0x01 c) { aux := c }

theorem State.resetTarget_devices (t c k : Nat) (s : State) : (s.resetTarget t c k).devices = s.devices := by
  have hfault (i : FaultInfo) (u : State) : (u.fault t (srcId 0x01 c) i).devices = u.devices :=
    State.devices_congr (by simp only [State.fault_kept])
  unfold State.resetTarget
  rw [hfault, State.bump_devices]
  rfl

/-- The operation of a target that has been reset has failed. -/
def State.opExpired (t : Nat) (o : StartedOp) (s : State) : State :=
  if o.prog then s.programFailed t o.ch o.block o.spn 3 else s.eraseFailed t o.ch o.block 3

theorem State.opExpired_started (t : Nat) (o : StartedOp) (s : State) :
    ((s.opExpired t o).cal t).started = (s.cal t).started.filter (fun x => !(x.ch == o.ch && x.block == o.block)) := by
  unfold State.opExpired
  split
  · exact State.programFailed_started ..
  · exact State.eraseFailed_started ..

theorem State.expireStretch_one {t n : Nat} {o : StartedOp} {s : State} (h : (s.cal t).started = [o])
    (hstretch : (s.cal t).stretching = some n) (hn : n + 16000 ≤ s.now) :
    s.expireStretch t o.ch o.target o.block o.prog =
      (((s.resetTarget t o.ch o.target).opExpired t o).unstretch t).failTarget t o.ch o.target := by
  simp [State.expireStretch, h, hstretch, Nat.not_lt.mpr hn, State.resetTarget, State.opExpired]

end Sys2Proof.Machine
end

section
/-! The slots of a channel: what is granted at a slot boundary, and what a read sends (R150, R158, R159). -/

namespace Sys2Proof.Machine

theorem exec_slotGrant {k c : Nat} {s : State} (hk : s.hasTile k = true) (hc : c < 16) (hr : s.mediaRuns k = true) :
    exec (.slotGrant k c) s = .next (s.grantSlot k c) := by
  change execSlotGrant k c s = _
  rw [execSlotGrant, withUnit_of _ _ _ (by simp [hk, hc]), if_pos hr]

theorem State.grantSlot_untrained {t c : Nat} {s : State} (h : (s.chan t c).rate = 3) : s.grantSlot t c = s := by
  simp [State.grantSlot, h]

/-! ## What comes next -/

/-- A rescue window goes first while background work has waited for fewer than two windows (R159). -/
theorem State.pickWindow_rescue {t c : Nat} {w : Window} {s : State} (hbg : (s.chan t c).sinceBg < 2)
    (hw : ((s.chan t c).queue.filter (fun x => s.planeIdle t c (s.memberOf t c x.spn))).find? (fun x => x.kind == .rescue) =
      some w) : s.pickWindow t c = some (.read w) := by
  simp only [State.pickWindow, State.nextRead, hw, Nat.not_le.mpr hbg, decide_false, Bool.false_and, Bool.false_eq_true,
    if_false, Option.some_or, Option.map_some]

theorem State.pickWindow_empty {t c : Nat} {s : State} (hq : (s.chan t c).queue = []) (hl : (s.chan t c).loads = [])
    (hb : (s.chan t c).back = []) : s.pickWindow t c = none := by
  simp [State.pickWindow, State.nextRead, State.nextBack, hq, hl, hb]

theorem State.grantSlot_idle {t c : Nat} {s : State} (hrate : (s.chan t c).rate ≠ 3) (h : s.pickWindow t c = none) :
    s.grantSlot t c = (s.setChan t c { s.chan t c with granted := none }).topDown t (8 + c) 2 1 := by
  rw [State.grantSlot, if_neg (hrate ∘ eq_of_beq), h]

/-- The slot that a read takes ends an idle time of its channel, which is counted (R501). -/
theorem State.grantSlot_read {t c : Nat} {w : Window} {s : State} (hrate : (s.chan t c).rate ≠ 3)
    (h : s.pickWindow t c = some (.read w)) :
    ∃ u : State, u.med = s.med ∧ u.cat = s.cat ∧ u.out = s.out ∧ s.grantSlot t c = u.grantRead t c w := by
  refine ⟨if (s.chan t c).granted.isNone then s.pmcEdge t 0x27 c else s, ?_, ?_, ?_,
    by rw [State.grantSlot, if_neg (hrate ∘ eq_of_beq), h]⟩
  all_goals split <;> simp

/-! ## What a read does -/

theorem State.schedule_med (t b : Nat) (s : State) : (s.schedule t b).med = s.med := by simp only [State.schedule_kept]

theorem State.countSenses_chan (t c m b n j i : Nat) (s : State) : (s.countSenses t c m b n).chan j i = s.chan j i := by
  unfold State.countSenses
  dsimp only
  split
  · rw [State.chan, State.schedule_med]
    rfl
  · rfl

/-- A sense is all that a READ_CW adds to its channel. -/
theorem State.sense_chan (t c b : Nat) (s : State) :
    ∃ l, (s.sense t c b).chan t c = { s.chan t c with sensing := l } := by
  unfold State.sense State.startSense
  dsimp only
  rw [State.countSenses_chan, State.setChan_chan]
  exact ⟨_, rfl⟩

theorem State.grantRead_chan (t c : Nat) (w : Window) (s : State) :
    ((s.grantRead t c w).chan t c).granted = some w ∧
      ((s.grantRead t c w).chan t c).queue = (s.chan t c).queue.erase w ∧
      ((s.grantRead t c w).chan t c).ended = (s.chan t c).ended ++ [(w, !((s.chan t c).queue.erase w).isEmpty)] := by
  unfold State.grantRead
  extract_lets h rest s1
  obtain ⟨l, hl⟩ := State.sense_chan t c (w.spn / s.ppb t)
    ((s1.pmcEdge t 0x20 c).sendBlock t c (s.memberOf t c w.spn) .readCw (w.spn % s.ppb t) w.unit w.offs)
  have hmed : ((s1.pmcEdge t 0x20 c).sendBlock t c (s.memberOf t c w.spn) .readCw (w.spn % s.ppb t) w.unit w.offs).med =
      s1.med := by simp
  rw [hl, State.chan, hmed, ← State.chan, State.setChan_chan]
  exact ⟨rfl, rfl, rfl⟩

theorem State.sendBlock_out (t c m : Nat) (cmd : WitisCmd) (page unit : Nat) (offs : List Byte) (s : State) :
    (s.sendBlock t c m cmd page unit offs).out =
      s.out ++ [.mediaCmd t c (blockTarget m) (s.blockPacket t c m cmd page unit offs).bits] := rfl

theorem State.sendBlock_out_congr {s u : State} (hout : u.out = s.out) (hdev : u.devices = s.devices) (t c m : Nat)
    (cmd : WitisCmd) (page unit : Nat) (offs : List Byte) :
    (u.sendBlock t c m cmd page unit offs).out = (s.sendBlock t c m cmd page unit offs).out := by
  simp only [State.sendBlock_out, State.blockPacket, hout, State.target_congr hdev]

theorem State.grantRead_out (t c : Nat) (w : Window) (s : State) :
    (s.grantRead t c w).out =
      (s.sendBlock t c (s.memberOf t c w.spn) .readCw (w.spn % s.ppb t) w.unit w.offs).out := by
  have hsense (b : Nat) (u : State) : (u.sense t c b).out = u.out := by simp only [State.sense_kept]
  have hpmc (u : State) : (u.pmcEdge t 0x20 c).devices = u.devices := State.devices_congr (by simp)
  unfold State.grantRead
  dsimp only
  rw [hsense]
  exact State.sendBlock_out_congr (by simp) ((hpmc _).trans (State.setChan_devices ..)) ..

end Sys2Proof.Machine
end

section
/-! Settles the statement of the slots and phases of a channel. -/

namespace Sys2Proof.Machine

/-- Settles O17: each row runs its event, whose channel, calendar and target the lemmas above give. -/
theorem channelSlotsAndPhases : Obligations.ChannelSlotsAndPhases := by
  unfold Obligations.ChannelSlotsAndPhases
  refine ⟨?rescue, ?untrained, ?idle, ?begins, ?delayed, ?done, ?busy, ?expired⟩
  case rescue =>
    intro k c w s hk hc hr hrate hbg hw
    obtain ⟨u, hmed, hcat, hout, hu⟩ := State.grantSlot_read hrate (State.pickWindow_rescue hbg hw)
    rw [exec_slotGrant hk hc hr, yields_next_iff, hu]
    have hchan : u.chan k c = s.chan k c := by simp only [State.chan, hmed]
    have hppb : u.ppb k = s.ppb k := by simp only [State.ppb, hmed]
    have hmember : u.memberOf k c w.spn = s.memberOf k c w.spn := by simp only [State.memberOf, State.block, hcat, hppb]
    obtain ⟨hgranted, hqueue, hended⟩ := State.grantRead_chan k c w u
    refine ⟨hgranted, hchan ▸ hqueue, hchan ▸ hended, ?_⟩
    rw [State.grantRead_out, hppb, hmember, State.sendBlock_out_congr hout (State.devices_congr hmed)]
  case untrained =>
    intro k c s hk hc hr hrate
    rw [exec_slotGrant hk hc hr, State.grantSlot_untrained hrate]
  case idle =>
    intro k c s hk hc hr hrate hq hl hb
    rw [exec_slotGrant hk hc hr, State.grantSlot_idle hrate (State.pickWindow_empty hq hl hb)]
  case begins =>
    intro k o s hk hr hstretch hstarted hdue hready hgroup _ hbegun hnow hsensed
    rw [exec_phaseStart hk hr, yields_next_iff,
      State.startPhase_starts hstretch hbegun hstarted hdue hready hgroup hnow hsensed]
    exact ⟨rfl, rfl, rfl, rfl, rfl, rfl⟩
  case delayed =>
    intro k s hk hr hstretch
    rw [exec_phaseStart hk hr, State.startPhase_stretched hstretch]
  case done =>
    intro k o s hk hr ht hstarted hcarried
    rw [exec_phaseStatusCheck hk hr ht, yields_next_iff]
    exact State.checkPhase_done hstarted hcarried
  case busy =>
    intro k o s hk hr ht hstarted hstretch hcarried
    have hregs (u : State) : (u.statusTaken k o.ch o.target).regs = u.regs := by simp only [State.statusTaken_kept]
    rw [exec_phaseStatusCheck hk hr ht, yields_next_iff, State.checkPhase_busy hstarted hstretch hcarried,
      State.statusTaken_cal, State.stretch_cal hstretch, State.field, State.reg_congr (hregs _)]
    exact ⟨hstarted, rfl, State.stretch_shows (lt_eight_of_hasTile hk) hstretch⟩
  case expired =>
    intro k o n s hk hc hj hr hstarted hstretch hn
    rw [exec_stretchExpiry hk hc hj hr, yields_next_iff, State.expireStretch_one hstarted hstretch hn, State.failTarget_cal]
    refine ⟨State.failTarget_failed .., State.unstretch_ended ?_⟩
    rw [State.opExpired_started, State.cal_congr (State.resetTarget_devices ..), hstarted]
    simp

end Sys2Proof.Machine
end

section
/-! Temperatures, alerts, calibrations and scrub reads of the media (R170, R176, R178, R180, R442). -/

namespace Sys2Proof.Machine

/-! ## Temperatures and alerts -/

theorem exec_mediaTempPoll {k c j : Nat} {e : Int} {s : State} (hk : s.hasTile k = true) (hc : c < 16) (hj : j < 4)
    (hr : s.mediaRuns k = true) : exec (.mediaTempPoll k c j e) s = .next (s.pollMedia k c j e) := by
  change execMediaTempPoll k c j e s = _
  rw [execMediaTempPoll, withUnit_of _ _ _ (by simp [hk, hc, hj]), if_pos hr]

/-- A reading whose status window has been carried is stored with its band, and the blocks and the level follow (R170, R180). -/
theorem State.pollMedia_carried {t c j : Nat} {e : Int} {s : State}
    (h : s.carriedBack t c .temp (fun x => blockTarget x.block == j) = true) :
    s.pollMedia t c j e = ((((s.takeBack t c .temp (fun x => blockTarget x.block == j)).setTarget t c j { s.target t c j with
      temp := e, band := nextBand (s.target t c j).band (s.field .drfHyst t 0 3 0) e,
      hot := decide (degC 95 ≤ e) }).scheduleCritical t).relevel t) := by
  simp [State.pollMedia, h]

theorem State.pollMedia_absent {t c j : Nat} {e : Int} {s : State}
    (h : s.carriedBack t c .temp (fun x => blockTarget x.block == j) = false) : s.pollMedia t c j e = s := by
  simp [State.pollMedia, h]

theorem exec_mediaAlert {k c j : Nat} {crc thermal : Bool} {s : State} (hk : s.hasTile k = true) (hc : c < 16) (hj : j < 4)
    (hr : s.mediaRuns k = true) : exec (.mediaAlert k c j crc thermal) s = .next (s.mediaAlert k c j crc thermal) := by
  change execMediaAlert k c j crc thermal s = _
  rw [execMediaAlert, withUnit_of _ _ _ (by simp [hk, hc, hj]), if_pos hr]

/-! ## Calibrations -/

theorem exec_calibrationRead {k c b : Nat} {l : List (Nat × Nat)} {s : State} (hk : s.hasTile k = true) (hc : c < 16)
    (hr : s.mediaRuns k = true) : exec (.calibrationRead k c b l) s = .next (s.calibrate k c b l) := by
  change execCalibrationRead k c b l s = _
  rw [execCalibrationRead, withUnit_of _ _ _ (by simp [hk, hc]), if_pos hr]

/-- A block calibrated to a class: its effective write time is that class's lower edge, from now (R176). -/
def State.calibrated (s : State) (t c m cls : Nat) : MBlock :=
  { s.mblock t c m with uncal := false, ageCls := cls, calAt := s.now }

/-- Of two reads, the second is taken only where it corrects fewer bits than the first. -/
theorem State.calibrate_two {t c m : Nat} {x y : Nat × Nat} {s : State} (huncal : (s.mblock t c m).uncal = true)
    (hcls : calClasses [x.1, y.1] = true) (hcarried : s.calCarried t c m 2 = true) :
    s.calibrate t c m [x, y] = ((((s.calReads t c m [x.1, y.1]).calTaken t c m).setMblock t c m
      (s.calibrated t c m (if y.2 < x.2 then y.1 else x.1))).calSenses t c m 2).showUncal t := by
  have hbest : (if y.2 < x.2 then y else x).1 = if y.2 < x.2 then y.1 else x.1 := apply_ite Prod.fst ..
  simp [State.calibrate, huncal, hcls, hcarried, State.calibrated, hbest]

theorem State.calReads_spares (t c m : Nat) (l : List Nat) (s : State) : (s.calReads t c m l).med.spares = s.med.spares := by
  unfold State.calReads
  refine foldl_same (fun s => s.med.spares) _ (fun u cls => ?_) l s
  rfl

theorem State.countSenses_mblock (t c m b n : Nat) (s : State) :
    (s.countSenses t c m b n).mblock t c m = { s.mblock t c m with senses := some (s.senses t c m + n) } := by
  unfold State.countSenses
  dsimp only
  split
  · rw [State.mblock, State.schedule_med]
    exact State.setMblock_mblock ..
  · exact State.setMblock_mblock ..

theorem State.calSenses_mblock (t c m n : Nat) (s : State) :
    (s.calSenses t c m n).mblock t c m = { s.mblock t c m with senses := some (s.senses t c m + n) } := by
  unfold State.calSenses
  split
  · exact State.countSenses_mblock ..
  · exact State.setMblock_mblock ..

/-- The reads of a calibration are not counted as they go: a record with the block's old count reads as that count. -/
theorem State.calTaken_senses {t c m : Nat} (l : List Nat) {v : MBlock} {s : State}
    (hv : v.senses = (s.mblock t c m).senses) :
    (((s.calReads t c m l).calTaken t c m).setMblock t c m v).senses t c m = s.senses t c m := by
  have hspare : (((s.calReads t c m l).calTaken t c m).setMblock t c m v).spare t = s.spare t := by
    change tget (fun _ => {}) (s.calReads t c m l).med.spares t = _
    rw [State.calReads_spares, State.spare]
  rw [State.senses, State.setMblock_mblock, hspare, hv, State.senses]

/-- A calibration of two reads leaves its block calibrated, with both senses counted (R176, R179). -/
theorem State.calibrate_mblock {t c m : Nat} {x y : Nat × Nat} {s : State} (huncal : (s.mblock t c m).uncal = true)
    (hcls : calClasses [x.1, y.1] = true) (hcarried : s.calCarried t c m 2 = true) :
    (s.calibrate t c m [x, y]).mblock t c m = { s.calibrated t c m (if y.2 < x.2 then y.1 else x.1) with
      senses := some (s.senses t c m + 2) } := by
  have hshown (u : State) : (u.showUncal t).mblock t c m = u.mblock t c m := by simp only [State.mblock, State.showUncal_kept]
  rw [State.calibrate_two huncal hcls hcarried, hshown, State.calSenses_mblock, State.setMblock_mblock]
  have hsenses := State.calTaken_senses [x.1, y.1] (v := s.calibrated t c m (if y.2 < x.2 then y.1 else x.1)) (s := s) rfl
  rw [hsenses]

/-! ## Scrub reads -/

/-- A scrub read of a unit that exists, while its media run or not. -/
theorem exec_mediaScrubRead {k c m spn : Nat} {e : Ecc} {f : Option (Nat × Nat)} {s : State} (hk : s.hasTile k = true)
    (hc : c < 16) :
    exec (.mediaScrubRead k c m spn e f) s = .next (if s.mediaRuns k then s.scrubRead k c m spn e f else s) := by
  change execMediaScrubRead k c m spn e f s = _
  rw [execMediaScrubRead, withUnit_of _ _ _ (by simp [hk, hc])]

theorem State.scrubRead_absent {t c m spn : Nat} {e : Ecc} {f : Option (Nat × Nat)} {s : State}
    (h : (s.chan t c).carried.find? (fun x => x.kind == .scrub && x.block == m && x.spn == spn) = none) :
    s.scrubRead t c m spn e f = s := by
  simp only [State.scrubRead, h]

theorem State.check_regs (t id : Nat) (s : State) : (s.check t id).2.regs = s.regs := by
  unfold State.check
  split <;> rfl

/-- A codeword of a scrub read as it is checked: its window is taken, and an armed injection may invert check bits. -/
def State.scrubCheck (t c : Nat) (w : BackWin) (s : State) : Bool × State :=
  (s.takeBack t c .scrub (· == w)).check t ((s.takeBack t c .scrub (· == w)).targetSrc t c w.spn)

theorem State.scrubCheck_kept (t c : Nat) (w : BackWin) (s : State) :
    (s.scrubCheck t c w).2.cat = s.cat ∧ (s.scrubCheck t c w).2.pwr = s.pwr ∧ (s.scrubCheck t c w).2.regs = s.regs := by
  unfold State.scrubCheck
  simp [State.takeBack_kept, State.check_regs]

/-- The failure of a scrubbed codeword is an event of its target, and its page is read to rebuild it (R178, R403). -/
def State.scrubFailed (t c : Nat) (w : BackWin) (s : State) : State :=
  ((s.scrubCheck t c w).2.fault t ((s.scrubCheck t c w).2.targetSrc t c w.spn)
    { inject := (s.scrubCheck t c w).1 }).scrubRebuild t c w

theorem State.scrubFailed_cat (t c : Nat) (w : BackWin) (s : State) : (s.scrubFailed t c w).cat = s.cat := by
  unfold State.scrubFailed
  simp [State.scrubRebuild_kept, State.scrubCheck_kept]

section
variable {t c : Nat} {w : BackWin} {s : State}

/-- A window is current while its page holds something and its block is still the member of its channel. -/
theorem State.scrubRead_current (hpage : (s.page t w.spn).isSome = true)
    (hmember : (s.block t (w.spn / s.ppb t)).member c = w.block) :
    ((s.page t w.spn).isNone || (s.block t (w.spn / s.ppb t)).member c != w.block) = false := by
  simp [Option.isNone_eq_false_iff.mpr hpage, hmember]

/-- A codeword that fails schedules its stripe block. -/
theorem State.scrubRead_fails {e : Ecc} (f : Option (Nat × Nat)) (hprof : s.pwr.straps.profile = false)
    (hpage : (s.page t w.spn).isSome = true) (hmember : (s.block t (w.spn / s.ppb t)).member c = w.block)
    (hw : (s.chan t c).carried.find? (fun x => x.kind == .scrub && x.block == w.block && x.spn == w.spn) = some w)
    (hbad : ((s.scrubCheck t c w).1 || e == .bad) = true) :
    s.scrubRead t c w.block w.spn e f = (s.scrubFailed t c w).schedule t (w.spn / s.ppb t) := by
  simp only [State.scrubRead, hw, State.scrubRead_current hpage hmember, Bool.false_eq_true, if_false, hprof]
  exact if_pos hbad

/-- A codeword that decodes with more corrected bits than the threshold schedules its stripe block. -/
theorem State.scrubRead_corrects {n : Nat} (hprof : s.pwr.straps.profile = false) (hpage : (s.page t w.spn).isSome = true)
    (hmember : (s.block t (w.spn / s.ppb t)).member c = w.block)
    (hw : (s.chan t c).carried.find? (fun x => x.kind == .scrub && x.block == w.block && x.spn == w.spn) = some w)
    (hgood : (s.scrubCheck t c w).1 = false) (hn : s.field .medScrub t 0 31 24 < n) :
    s.scrubRead t c w.block w.spn (.corrected n) none = (s.scrubCheck t c w).2.schedule t (w.spn / s.ppb t) := by
  have hok : ((s.scrubCheck t c w).1 || Ecc.corrected n == .bad) = false := by simp [hgood]
  obtain ⟨-, hpwr, hregs⟩ := State.scrubCheck_kept t c w s
  have hbits : (s.scrubCheck t c w).2.scrubBits t c (w.spn / s.ppb t) n =
      (s.scrubCheck t c w).2.schedule t (w.spn / s.ppb t) := by
    have hfield : (s.scrubCheck t c w).2.field .medScrub t 0 31 24 < n := by
      rwa [State.field, State.reg_congr hregs]
    simp [State.scrubBits, State.mladBits, hpwr, hprof, hfield]
  simp only [State.scrubRead, hw, State.scrubRead_current hpage hmember, Bool.false_eq_true, if_false]
  exact (if_neg (Bool.eq_false_iff.mp hok)).trans hbits

theorem State.schedule_scheduled {b : Nat} (h : (s.block t b).free = false) :
    ((s.schedule t b).block t b).scheduled = true := by
  simp [State.schedule, h]

/-- A scrub read that fails or corrects too many bits leaves its stripe block, where it is in use, scheduled for rewrite. -/
theorem State.scrubRead_schedules {e : Ecc} {f : Option (Nat × Nat)} (hprof : s.pwr.straps.profile = false)
    (hpage : (s.page t w.spn).isSome = true) (huse : (s.block t (w.spn / s.ppb t)).free = false)
    (hmember : (s.block t (w.spn / s.ppb t)).member c = w.block)
    (hw : (s.chan t c).carried.find? (fun x => x.kind == .scrub && x.block == w.block && x.spn == w.spn) = some w)
    (hout : e = .bad ∨ ∃ n, e = .corrected n ∧ f = none ∧ s.field .medScrub t 0 31 24 < n) :
    ((s.scrubRead t c w.block w.spn e f).block t (w.spn / s.ppb t)).scheduled = true := by
  have hcat {u : State} (h : u.cat = s.cat) : ((u.schedule t (w.spn / s.ppb t)).block t (w.spn / s.ppb t)).scheduled = true :=
    State.schedule_scheduled (by simpa only [State.block, h] using huse)
  by_cases hbad : ((s.scrubCheck t c w).1 || e == .bad) = true
  · rw [State.scrubRead_fails f hprof hpage hmember hw hbad]
    exact hcat (State.scrubFailed_cat ..)
  · obtain ⟨hgood, he⟩ := Bool.or_eq_false_iff.mp (Bool.eq_false_iff.mpr hbad)
    obtain rfl | ⟨n, rfl, rfl, hn⟩ := hout
    · exact absurd he (by decide)
    · rw [State.scrubRead_corrects hprof hpage hmember hw hgood hn]
      exact hcat (State.scrubCheck_kept ..).1

end

end Sys2Proof.Machine
end

section
/-! Settles the statement of the health of the media. -/

namespace Sys2Proof.Machine

/-- Settles O19: each row runs its event on the state as it is, and the reading decides what is scheduled. -/
theorem mediaHealth : Obligations.MediaHealth := by
  unfold Obligations.MediaHealth
  refine ⟨?temp, ?tempAbsent, ?alert, ?crcAlert, ?firstClass, ?secondClass, ?scrubBad, ?scrubCorrected, ?scrubAbsent⟩
  case temp =>
    intro k c j e s hk hc hj hr hcarried
    rw [exec_mediaTempPoll hk hc hj hr, State.pollMedia_carried hcarried]
  case tempAbsent =>
    intro k c j e s hk hc hj hr hcarried
    rw [exec_mediaTempPoll hk hc hj hr, State.pollMedia_absent hcarried]
  case alert =>
    intro k c j a s hk hc hj hr
    exact exec_mediaAlert hk hc hj hr
  case crcAlert =>
    intro k c j a s hk hc hj hr
    exact exec_mediaAlert hk hc hj hr
  case firstClass =>
    intro k c b x y s hk hc hr huncal hcls hcarried hle
    rw [exec_calibrationRead hk hc hr, yields_next_iff, State.calibrate_mblock huncal hcls hcarried,
      if_neg (Nat.not_lt.mpr hle)]
    rfl
  case secondClass =>
    intro k c b x y s hk hc hr huncal hcls hcarried hlt
    rw [exec_calibrationRead hk hc hr, yields_next_iff, State.calibrate_mblock huncal hcls hcarried, if_pos hlt]
    rfl
  case scrubBad =>
    intro k c w f s hk hc hr hprof hpage huse hmember hw
    rw [exec_mediaScrubRead hk hc, if_pos hr, yields_next_iff]
    exact State.scrubRead_schedules hprof hpage huse hmember hw (.inl rfl)
  case scrubCorrected =>
    intro k c n w s hk hc hr hprof hpage huse hmember hw hn
    rw [exec_mediaScrubRead hk hc, if_pos hr, yields_next_iff]
    exact State.scrubRead_schedules hprof hpage huse hmember hw (.inr ⟨n, rfl, rfl, hn⟩)
  case scrubAbsent =>
    intro k c m spn e f s hk hc hw
    rw [exec_mediaScrubRead hk hc, State.scrubRead_absent hw, ite_self]

end Sys2Proof.Machine
end

section
/-! A coherence message as it leaves, and what a holder answers to a snoop (R198, R199, R201). -/

namespace Sys2Proof.Machine

/-! ## Messages that leave -/

theorem State.walks_congr {s t : State} (hm : t.member = s.member) (hup : t.coh.saddleUp = s.coh.saddleUp) (n : Nat) :
    ∀ a b, t.walks n a b = s.walks n a b := by
  have hlink (a k : Nat) : t.linkUp a k = s.linkUp a k := by
    unfold State.linkUp State.hasSaddle State.tiles
    rw [hm, hup]
  induction n with
  | zero => exact fun _ _ => rfl
  | succ n ih => exact fun a b => by simp only [State.walks, hlink, ih]

/-- What a message carries depends on the member, the saddle links, the miss entries and the transactions (R26, R199). -/
theorem State.send_net_congr {s t : State} (hm : t.member = s.member) (hmiss : t.coh.miss = s.coh.miss)
    (htx : t.coh.txs = s.coh.txs) (hup : t.coh.saddleUp = s.coh.saddleUp) (hn : t.net = s.net) (m : Msg) :
    (t.send m).net = (s.send m).net := by
  have hentry : t.entryOf m = s.entryOf m := by simp only [State.entryOf, hmiss, htx]
  have hvia : t.saddlePath m.src m.dst = s.saddlePath m.src m.dst := by
    simp only [State.saddlePath, State.walks_congr hm hup]
  simp only [State.send, hentry, hvia, hn]

theorem State.setNc_send_net (d l : Nat) (v : NcLine) (m : Msg) (s : State) :
    ((s.setNc d l v).send m).net = (s.send m).net :=
  State.send_net_congr rfl rfl rfl rfl rfl m

theorem State.sendWb_net (d l : Nat) (k : MsgKind) (v : NcLine) (s : State) :
    (s.sendWb d l k v).net =
      (s.send { kind := k, src := d, dst := s.home l, line := l, content := some v.content }).net := by
  unfold State.sendWb
  dsimp only
  split
  · refine (State.send_net_congr (s := s) ?_ ?_ ?_ ?_ ?_ _).trans ?_
    all_goals simp [NcLine.content, State.home, State.tiles]
  · exact State.send_net_congr rfl rfl rfl rfl rfl _

theorem State.sendWb_coh (d l : Nat) (k : MsgKind) (v : NcLine) (s : State) :
    (s.sendWb d l k v).coh = { s.coh with
      wbUsed := (tset (fun _ => 0) s.coh.wbUsed (wbKey (s.home l) d)
        (tget (fun _ => 0) s.coh.wbUsed (wbKey (s.home l) d) + 1)) } := by
  unfold State.sendWb
  dsimp only
  split <;> simp

/-! ## Answers to snoops -/

section
variable {d l : Nat} {s : State}

theorem State.invalidate_unreadable (d l : Nat) (s : State) : ((s.invalidate d l).nc d l).readable = false := by
  unfold State.invalidate
  dsimp only
  rw [State.setNc_nc]
  split <;> rfl

theorem State.answerS_i (h : (s.nc d l).st = .i) : s.answerS d l = s.reply2 d l .ackNp none := by
  simp only [State.answerS, h]

theorem State.answerS_s (h : (s.nc d l).st = .s) : s.answerS d l = s.reply2 d l .ackS none := by
  simp only [State.answerS, h]

theorem State.answerS_e (h : (s.nc d l).st = .e) :
    s.answerS d l = (s.setNc d l { s.nc d l with st := .s }).reply2 d l .ackS (some (s.nc d l).content) := by
  simp only [State.answerS, h]

theorem State.answerS_m (h : (s.nc d l).st = .m) :
    s.answerS d l = (s.invalidate d l).reply2 d l .ackD (some (s.nc d l).content) := by
  simp only [State.answerS, h]

theorem State.answerS_ev (h : (s.nc d l).st = .ev) : s.answerS d l = s.reply2 d l .gone none := by
  simp only [State.answerS, h]

theorem State.answerI_i (h : (s.nc d l).st = .i) : s.answerI d l = s.reply2 d l .ackNp none := by
  simp only [State.answerI, h]

theorem State.answerI_clean (h : (s.nc d l).st = .s ∨ (s.nc d l).st = .e) :
    s.answerI d l = (s.invalidate d l).reply2 d l .ackI none := by
  obtain h | h := h <;> simp only [State.answerI, h]

theorem State.answerI_m (h : (s.nc d l).st = .m) :
    s.answerI d l = (s.invalidate d l).reply2 d l .ackD (some (s.nc d l).content) := by
  simp only [State.answerI, h]

theorem State.answerI_ev (h : (s.nc d l).st = .ev) : s.answerI d l = s.reply2 d l .gone none := by
  simp only [State.answerI, h]

theorem State.answerF_i (h : (s.nc d l).st = .i) : s.answerF d l = s.reply2 d l .ackNp none := by
  simp only [State.answerF, h]

theorem State.answerF_e (h : (s.nc d l).st = .e) : s.answerF d l = s.reply2 d l .ackI none := by
  simp only [State.answerF, h]

theorem State.answerF_m (h : (s.nc d l).st = .m) :
    s.answerF d l = ((s.sendWb d l .writeback (s.nc d l)).setNc d l { s.nc d l with st := .e, wb := true }).reply2 d l
      .ackI none := by
  simp only [State.answerF, h]

theorem State.answerF_ev (h : (s.nc d l).st = .ev) : s.answerF d l = s.reply2 d l .gone none := by
  simp only [State.answerF, h]

/-- A copy that is given up with an answer: the answer is on its way and the copy is no longer readable. -/
theorem State.invalidate_reply2 (k : MsgKind) (c : Option Content) :
    ((s.invalidate d l).reply2 d l k c).net =
        (s.send { kind := k, src := d, dst := s.home l, line := l, content := c }).net ∧
      (((s.invalidate d l).reply2 d l k c).nc d l).readable = false :=
  ⟨State.setNc_send_net .., State.invalidate_unreadable d l s⟩

/-- A dirty line that SNP_F writes back: the WRITEBACK leaves ahead of the answer, and the line is kept in E (R219). -/
theorem State.writeBack_reply2 (v w : NcLine) :
    (((s.sendWb d l .writeback v).setNc d l w).reply2 d l .ackI none).net =
        ((s.send { kind := .writeback, src := d, dst := s.home l, line := l, content := some v.content }).send
          { kind := .ackI, src := d, dst := s.home l, line := l }).net ∧
      (((s.sendWb d l .writeback v).setNc d l w).reply2 d l .ackI none).nc d l = w := by
  constructor
  · have hhome : ((s.sendWb d l .writeback v).setNc d l w).home l = s.home l := by
      simp [State.home, State.tiles, State.sendWb_kept]
    unfold State.reply2
    rw [hhome, State.setNc_send_net]
    refine State.send_net_congr ?_ ?_ ?_ ?_ (State.sendWb_net ..) _
    all_goals simp [State.sendWb_kept, State.sendWb_coh]
  · exact State.setNc_nc ..

/-! ## The rows -/

theorem withUnit_snooped (hd : s.hasTile d = true) (hr : s.cohRuns d l = true) (k : MsgKind) (f : State → State) :
    withUnit (s.hasTile d) (fun s => s.snooped d l k f) s =
      .next (f (s.receive { kind := k, src := s.home l, dst := d, line := l })) := by
  rw [withUnit_of _ _ _ hd, State.snooped, if_pos hr]

theorem exec_snpS (hd : s.hasTile d = true) (hr : s.cohRuns d l = true) : exec (.snpS d l) s =
    .next ((s.receive { kind := .snpS, src := s.home l, dst := d, line := l }).answerS d l) :=
  withUnit_snooped hd hr ..

theorem exec_snpI (hd : s.hasTile d = true) (hr : s.cohRuns d l = true) : exec (.snpI d l) s =
    .next ((s.receive { kind := .snpI, src := s.home l, dst := d, line := l }).answerI d l) :=
  withUnit_snooped hd hr ..

theorem exec_snpF (hd : s.hasTile d = true) (hr : s.cohRuns d l = true) : exec (.snpF d l) s =
    .next ((s.receive { kind := .snpF, src := s.home l, dst := d, line := l }).answerF d l) :=
  withUnit_snooped hd hr ..

end

/-- Settles O27: the answer that each state of the line gives, and what the holder keeps. -/
theorem snoopsByState : Obligations.SnoopsByState := by
  unfold Obligations.SnoopsByState
  refine ⟨?sAbsent, ?sShared, ?sClean, ?sDirty, ?sGone, ?iAbsent, ?iShared, ?iClean, ?iDirty, ?iGone, ?fAbsent, ?fClean,
    ?fGone, ?fDirty⟩ <;> intro d l s hd hr hst
  case sAbsent =>
    rw [exec_snpS hd hr, yields_next_iff, State.answerS_i (s := s.receive _) hst]
    exact ⟨rfl, rfl⟩
  case sShared =>
    rw [exec_snpS hd hr, yields_next_iff, State.answerS_s (s := s.receive _) hst]
    exact ⟨rfl, rfl⟩
  case sClean =>
    rw [exec_snpS hd hr, yields_next_iff, State.answerS_e (s := s.receive _) hst]
    exact ⟨State.setNc_send_net .., State.setNc_nc ..⟩
  case sDirty =>
    rw [exec_snpS hd hr, yields_next_iff, State.answerS_m (s := s.receive _) hst]
    exact State.invalidate_reply2 ..
  case sGone =>
    rw [exec_snpS hd hr, yields_next_iff, State.answerS_ev (s := s.receive _) hst]
    exact ⟨rfl, rfl⟩
  case iAbsent =>
    rw [exec_snpI hd hr, yields_next_iff, State.answerI_i (s := s.receive _) hst]
    exact ⟨rfl, rfl⟩
  case iShared =>
    rw [exec_snpI hd hr, yields_next_iff, State.answerI_clean (s := s.receive _) (.inl hst)]
    exact State.invalidate_reply2 ..
  case iClean =>
    rw [exec_snpI hd hr, yields_next_iff, State.answerI_clean (s := s.receive _) (.inr hst)]
    exact State.invalidate_reply2 ..
  case iDirty =>
    rw [exec_snpI hd hr, yields_next_iff, State.answerI_m (s := s.receive _) hst]
    exact State.invalidate_reply2 ..
  case iGone =>
    rw [exec_snpI hd hr, yields_next_iff, State.answerI_ev (s := s.receive _) hst]
    exact ⟨rfl, rfl⟩
  case fAbsent =>
    rw [exec_snpF hd hr, yields_next_iff, State.answerF_i (s := s.receive _) hst]
    exact ⟨rfl, rfl⟩
  case fClean =>
    rw [exec_snpF hd hr, yields_next_iff, State.answerF_e (s := s.receive _) hst]
    exact ⟨rfl, rfl⟩
  case fGone =>
    rw [exec_snpF hd hr, yields_next_iff, State.answerF_ev (s := s.receive _) hst]
    exact ⟨rfl, rfl⟩
  case fDirty =>
    rw [exec_snpF hd hr, yields_next_iff, State.answerF_m (s := s.receive _) hst]
    exact (State.writeBack_reply2 _ _).symm

end Sys2Proof.Machine
end

section
/-! READ_X of two tiles for a busy line, and a fault event that is still to be raised (R207, R407). -/

namespace Sys2Proof.Machine

theorem reqRow_runs {q : Tkt} {ps : List Nat} {s t : State} (hq : s.hasTile q.tile = true)
    (ht : s.requested q (fun s => (s.meet q ps).arrivals q ps) = t) (hforged : t.cat.forged = none)
    (hstuck : t.cat.stuck = false) : reqRow q ps s = .next t.tellFaults.undoTriggers := by
  subst ht
  exact (withUnit_of _ _ _ hq).trans (congrArg _ (whole_runs _ _ hforged hstuck))

/-- A command dropped by a reset, under a port number whose copy of RING_FLR_DROPS has the key of DIR_ROT of tile 0. -/
def droppedCmd : Cmd :=
  { port := 16 * (Reg.ctorIdx .dirRot - Reg.ctorIdx .ringFlrDrops), sq := 0, idx := 0, packet := packetBits 0x13 [],
    next := 1, cq := 0, started := true, passed := true, held := false, dropped := true }

/-- A READ_X of a tile for line 0, on its way to tile 0. -/
def readXOf (r : Nat) : Msg := { kind := .req .readX, src := r, dst := 0, line := 0 }

/-- A miss entry whose request has been sent and not refused. -/
def sentMiss (k : ReqKind) (n : Nat) : Miss :=
  { num := n, kind := k, stream := false, reserved := false, refusals := 0, ticketed := false, waiting := false,
    nackAt := none }

/-- Line 0 is busy, both tiles have sent READ_X for it, a fault event of unit 13h (severity abort) is still to be raised,
escalations have no time (FLT_ESC timer 0), and a dropped command is outstanding. -/
def meetingPart : State :=
  (((({ readyPart with
      host := { readyPart.host with cmds := [droppedCmd] }
      cat := { readyPart.cat with faults := [{ tile := 0, id := srcId 0x13 0, inject := false, addr := 0 }] }
      net := [readXOf 0, readXOf 1] } : State).putReg .fltEsc 0 0 0).setMiss 0 0 (some (sentMiss .readX 0))).setMiss 1 0
    (some (sentMiss .readX 0))).setDir 0 { busy := true }

/-- The request of tile 0 in `meetingPart`. -/
def meetingReq : Tkt := { line := 0, tile := 0, kind := .readX, epoch := 0, env := { recon := [], unrec := [] } }

/-- `meetingPart` after the two requests have met. -/
def metPart : State := meetingPart.requested meetingReq (fun s => (s.meet meetingReq [1]).arrivals meetingReq [1])

theorem meetingPart_up :
    meetingPart.cat.stuck = false ∧ meetingPart.cat.forged = none ∧ meetingPart.hasTile 0 = true ∧
    meetingPart.coreUp = true ∧ meetingPart.tileRuns 0 = true ∧ meetingPart.tileRuns (meetingPart.home 0) = true ∧
    meetingPart.epo.rollback = false := by
  decide +kernel

theorem meetingPart_requests :
    (meetingPart.missOf 0 0).isSome = true ∧ meetingPart.wbFrom 0 0 = none ∧
    meetingPart.net.any (fun m => m.kind == .req .readX && m.src == 0 && m.line == 0) = true ∧
    meetingPart.wbFrom 1 0 = none ∧ meetingPart.lineBusy 0 = true ∧
    (meetingPart.missOf 1 0).map Miss.refusals = some 0 ∧ (meetingPart.missOf 0 0).map Miss.refusals = some 0 ∧
    (meetingPart.reqFrom 1 0 meetingReq.env).isSome = true ∧
    rotated meetingPart.tiles (meetingPart.field .dirRot (meetingPart.home 0) 0 2 0) [0, 1] = some 1 := by
  decide +kernel

theorem metPart_done : metPart.cat.forged = none ∧ metPart.cat.stuck = false := by decide +kernel

/-- The event aborts the command at once, and the count of its dropped reply lands in DIR_ROT. -/
theorem metPart_rotation :
    metPart.tellFaults.undoTriggers.field .dirRot (meetingPart.home 0) 0 2 0 = 2 := by
  decide +kernel

/-- Refutes O26: nothing in the last clause keeps a fault event from being raised at the end of the row; the abort that it
starts replies to a dropped command, whose port number the statement leaves free, and the count overwrites DIR_ROT: it
reads 2, where the rotation chose tile 1. -/
theorem not_homeServesRequests : ¬ Obligations.HomeServesRequests := by
  unfold Obligations.HomeServesRequests
  intro h
  obtain ⟨_, _, _, _, _, _, _, _, hmeet⟩ := h
  obtain ⟨hstuck, hforged, htile, hup, hruns, hhome, hroll⟩ := meetingPart_up
  obtain ⟨hmiss, hwb, hreq, hwb1, hbusy, href1, href0, hfrom, hrot⟩ := meetingPart_requests
  obtain ⟨k, hk⟩ := Option.isSome_iff_exists.mp hfrom
  have hi := hmeet 0 1 1 0 k meetingReq.env meetingPart hstuck hforged htile hup hruns hhome hroll hmiss hwb hreq
    (by decide) hwb1 hbusy href1 href0 hk hrot
  have hrun : exec (.reqReadX 0 0 meetingReq.env [1]) meetingPart = .next metPart.tellFaults.undoTriggers :=
    reqRow_runs (q := meetingReq) htile rfl metPart_done.1 metPart_done.2
  rw [hrun, yields_next_iff, metPart_rotation] at hi
  exact absurd hi.1 (by decide)

end Sys2Proof.Machine
end

section
/-! DATA at a tile whose miss entries are all in use (R195, R201). -/

namespace Sys2Proof.Machine

theorem exec_data_runs {d l : Nat} {g : Grant} {c : Content} {s t : State} (hd : s.hasTile d = true)
    (hr : s.cohRuns d l = true) (hplace : (s.fillPlace d l).1 = true)
    (ht : ((s.fillPlace d l).2.receive
      { kind := .data g, src := s.home l, dst := d, line := l, content := some c }).granted d l (grantState g)
      { data := c.data, poison := c.poison } c.epoch c.kid = t)
    (hforged : t.cat.forged = none) (hstuck : t.cat.stuck = false) :
    exec (.data d l g c) s = .next t.tellFaults.undoTriggers := by
  refine (withUnit_of _ _ _ hd).trans (congrArg _ ?_)
  have hrun : (if s.cohRuns d l then
      if (s.fillPlace d l).1 then
        ((s.fillPlace d l).2.receive { kind := .data g, src := s.home l, dst := d, line := l, content := some c }).granted
          d l (grantState g) { data := c.data, poison := c.poison } c.epoch c.kid
      else s
    else s) = t := by rw [if_pos hr, if_pos hplace, ht]
  exact (whole_runs _ _ (by rw [← hforged, ← hrun]) (by rw [← hstuck, ← hrun])).trans (by rw [← hrun])

/-- A line of zeros. -/
def zeroContent : Content := { data := 0, kid := 0, epoch := 0, poison := false }

/-- DATA in E for line 0, from its home to tile 0 itself. -/
def zeroData : Msg := { kind := .data .e, src := 0, dst := 0, line := 0, content := some zeroContent }

/-- The 240 miss entries that tile 0's agents may use are taken, each by a READ_S of a line from 0 up; a READ_S of line 240
waits for an entry, and DATA for line 0 is on its way to the tile. -/
def fullMisses : State :=
  { readyPart with
    coh := { readyPart.coh with
      miss := (List.range 240).map (fun l => (ncKey 0 l, some (sentMiss .readS l)))
      waits := [{ tile := 0, line := 240, kind := .readS, reserved := false }] }
    net := [zeroData] }

/-- `fullMisses` after the DATA message has been taken. -/
def filledLine : State :=
  ((fullMisses.fillPlace 0 0).2.receive zeroData).granted 0 0 (grantState .e) {} 0 0

theorem fullMisses_takesData :
    fullMisses.cat.stuck = false ∧ fullMisses.cat.forged = none ∧ fullMisses.hasTile 0 = true ∧
    fullMisses.cohRuns 0 0 = true ∧ (fullMisses.fillPlace 0 0).1 = true ∧ (fullMisses.nc 0 0).wb = false ∧
    fullMisses.missFull 0 false = true := by
  decide +kernel

theorem fullMisses_home : fullMisses.home 0 = 0 := by decide +kernel

theorem filledLine_done : filledLine.cat.forged = none ∧ filledLine.cat.stuck = false := by decide +kernel

/-- DONE and the READ_S that waited are both on their way, where the obligation's clause has DONE alone. -/
theorem filledLine_messages :
    filledLine.tellFaults.undoTriggers.net.length = 2 ∧
    ((fullMisses.receive zeroData).send { kind := .done, src := 0, dst := 0, line := 0 }).net.length = 1 := by
  decide +kernel

/-- Refutes O28: the miss entry that DATA frees goes to the oldest request that waited for one (R195), whose READ_S leaves
beside DONE. -/
theorem not_requesterTakesItsAnswer : ¬ Obligations.RequesterTakesItsAnswer := by
  unfold Obligations.RequesterTakesItsAnswer
  intro h
  obtain ⟨hdata, _⟩ := h
  obtain ⟨hstuck, hforged, htile, hruns, hplace, hwb, _⟩ := fullMisses_takesData
  obtain ⟨hsent, hdone⟩ := filledLine_messages
  have hi := hdata 0 0 .e zeroContent fullMisses hstuck hforged htile hruns hplace hwb
  have hrun : exec (.data 0 0 .e zeroContent) fullMisses = .next filledLine.tellFaults.undoTriggers :=
    exec_data_runs htile hruns hplace (by rw [fullMisses_home]; rfl) filledLine_done.1 filledLine_done.2
  rw [hrun, yields_next_iff] at hi
  obtain ⟨_, _, _, _, _, _, hnet⟩ := hi
  rw [hnet, fullMisses_home] at hsent
  exact absurd (hsent.symm.trans hdone) (by decide)

end Sys2Proof.Machine
end

section
/-! PINNED_REFILL of a line whose home has failed (R222, R226). -/

namespace Sys2Proof.Machine

theorem exec_pinnedRefill_runs {d l : Nat} {s : State} (hd : s.hasTile d = true) (hup : s.coreUp = true)
    (hr : s.tileRuns d = true) : exec (.pinnedRefill d l) s = .next (s.refill d l) := by
  refine (withUnit_of _ _ _ hd).trans (congrArg _ ?_)
  simp only [hup, hr, Bool.and_self, if_true]

/-- Tile 0 has failed, and tile 1 holds the pinned line 0, whose home it was, in REFILL. -/
def orphanedPin : State :=
  ({ readyPart with flt := { readyPart.flt with failed := tileBit 0 } } : State).setNc 1 0 { st := .refill, pin := true }

theorem orphanedPin_waits :
    orphanedPin.hasTile 1 = true ∧ orphanedPin.coreUp = true ∧ orphanedPin.tileRuns 1 = true ∧
    (orphanedPin.nc 1 0).st = .refill ∧ orphanedPin.missOf 1 0 = none ∧ orphanedPin.epo.rollback = false := by
  decide +kernel

/-- The slot is filled with internal poison, and no miss entry is taken. -/
theorem orphanedPin_poisoned :
    (orphanedPin.refill 1 0).missOf 1 0 = none ∧ ((orphanedPin.refill 1 0).nc 1 0).poison = true := by
  decide +kernel

/-- Refutes O29: PINNED_REFILL of a line whose home tile has failed fills the slot with internal poison and asks nobody, so
there is no miss entry. -/
theorem not_writeBacksAndVictims : ¬ Obligations.WriteBacksAndVictims := by
  unfold Obligations.WriteBacksAndVictims
  intro h
  obtain ⟨_, _, _, _, _, _, _, _, hrefill⟩ := h
  obtain ⟨htile, hup, hruns, hst, hmiss, hroll⟩ := orphanedPin_waits
  have hi := hrefill 1 0 orphanedPin htile hup hruns hst hmiss hroll
  rw [exec_pinnedRefill_runs htile hup hruns, yields_next_iff, orphanedPin_poisoned.1] at hi
  exact absurd hi.1 (by decide)

end Sys2Proof.Machine
end

section
/-! ACK_D behind a WRITEBACK that staging has no room for (R26, R116, R133, R205). -/

namespace Sys2Proof.Machine

/-- An answer waits while a WRITEBACK that its tile sent before it cannot be accepted. -/
theorem State.answered_waits {r l : Nat} {k : MsgKind} {c : Option Content} {f : Tx → Tx} {clear : Bool} {s : State}
    (h : (s.wbBefore r l).wbUnderway r l = true) : s.answered r l k c f clear = s := by
  unfold State.answered
  dsimp only
  split
  · rfl
  · rw [if_pos (by simp [h])]

theorem exec_ackD_waits {r l : Nat} {c : Content} {s : State} (hr : s.hasTile r = true)
    (h : (s.wbBefore r l).wbUnderway r l = true) (hstuck : s.cat.stuck = false) (hforged : s.cat.forged = none) :
    exec (.ackD r l c) s = .next s.tellFaults.undoTriggers := by
  refine (withUnit_of _ _ _ hr).trans (congrArg _ ?_)
  have hsame := State.answered_waits (k := .ackD) (c := some c) (f := fun x => { x with line := some c, dirty := true })
    (clear := true) h
  exact (whole_runs _ _ (by rw [hsame, hforged]) (by rw [hsame, hstuck])).trans (by rw [hsame])

/-- The transaction of tile 0's READ_X of line 0, which waits for the answer of tile 1. -/
def ownedTx : Tx :=
  { req := 0, kind := .readX, epoch := 0, env := { recon := [], unrec := [] }, shared := false, await := [1], line := none,
    dirty := false, kept := false, gone := [], sent := false, room := none }

/-- Tile 0 asks for line 0, which tile 1 owns and has written back just before: its WRITEBACK and its ACK_D are on their
way, and staging has no room (CAT_FREE reads 0). -/
def writtenBefore : State :=
  (({ readyPart with net :=
      [{ kind := .writeback, src := 1, dst := 0, line := 0, content := some zeroContent },
       { kind := .ackD, src := 1, dst := 0, line := 0, content := some zeroContent }] } : State).setTx 0
    (some ownedTx)).setDir 0 { st := .ex, sharers := tileBit 1, busy := true }

theorem writtenBefore_awaits :
    writtenBefore.cat.stuck = false ∧ writtenBefore.cat.forged = none ∧ writtenBefore.hasTile 1 = true ∧
    writtenBefore.cohRuns (writtenBefore.home 0) 0 = true ∧ writtenBefore.tx 0 = some ownedTx ∧
    (writtenBefore.dir 0).held = true := by
  decide +kernel

theorem writtenBefore_blocked : (writtenBefore.wbBefore 1 0).wbUnderway 1 0 = true := by decide +kernel

theorem State.tellFaults_undoTriggers_tx (l : Nat) (s : State) : s.tellFaults.undoTriggers.tx l = s.tx l := by
  simp [State.tx, State.undoTriggers_kept, State.tellFaults_kept]

/-- Refutes O30: while the WRITEBACK that the owner sent first has to wait for staging, its ACK_D waits behind it
(assumption 58), so nothing has been granted. -/
theorem not_homeCollectsAnswers : ¬ Obligations.HomeCollectsAnswers := by
  unfold Obligations.HomeCollectsAnswers
  intro h
  obtain ⟨_, _, _, _, hlast, _⟩ := h
  obtain ⟨hstuck, hforged, htile, hruns, htx, hheld⟩ := writtenBefore_awaits
  have hi := hlast 1 0 ownedTx zeroContent writtenBefore hstuck hforged htile hruns htx rfl rfl rfl (by decide) (by decide)
    hheld
  rw [exec_ackD_waits htile writtenBefore_blocked hstuck hforged, yields_next_iff, State.tellFaults_undoTriggers_tx, htx]
    at hi
  exact absurd hi.1 (by decide)

end Sys2Proof.Machine
end

section
/-! The frames of the coherence, stream, capture, fault, Curator, power and counter rows: each row's wrapper and what its
operation leaves (R198 to R506). -/

namespace Sys2Proof.Machine

theorem keeps_tileWrite {p t : Nat} {ok : Bool} {f : State → State} {s : State} {fs : List Field}
    (hu : .unstored ∈ fs) (h : ∀ u, ChangesOnly fs u (f u)) : Keeps (s.tileWrite p t ok f) fs s :=
  keeps_unit (changesOnly_trans fs _ _ _ (changesOnly_commitStore hu s) (h _))

/-! ## Coherence (R198 to R226) -/

theorem reqRow_keeps (q : Tkt) (peers : List Nat) (s : State) :
    Keeps (reqRow q peers s) [.regs, .host, .epo, .cat, .med, .coh, .lnk, .cap, .cry, .flt, .anl, .cur, .pwr, .pmc,
      .out, .net, .freeCtr] s :=
  keeps_wholeUnit (by decide) fun u => by simp [changesOnly_iff]

theorem execReqReadS_keeps (src line : Nat) (env : MediaEnv) (peers : List Nat) (s : State) :
    Keeps (execReqReadS src line env peers s) [.regs, .host, .epo, .cat, .med, .coh, .lnk, .cap, .cry, .flt, .anl,
      .cur, .pwr, .pmc, .out, .net, .freeCtr] s :=
  reqRow_keeps _ _ _

theorem execReqReadX_keeps (src line : Nat) (env : MediaEnv) (peers : List Nat) (s : State) :
    Keeps (execReqReadX src line env peers s) [.regs, .host, .epo, .cat, .med, .coh, .lnk, .cap, .cry, .flt, .anl,
      .cur, .pwr, .pmc, .out, .net, .freeCtr] s :=
  reqRow_keeps _ _ _

theorem execUpgrade_keeps (src line : Nat) (env : MediaEnv) (peers : List Nat) (s : State) :
    Keeps (execUpgrade src line env peers s) [.regs, .host, .epo, .cat, .med, .coh, .lnk, .cap, .cry, .flt, .anl,
      .cur, .pwr, .pmc, .out, .net, .freeCtr] s :=
  reqRow_keeps _ _ _

theorem execClaim_keeps (src line epoch : Nat) (peers : List Nat) (s : State) :
    Keeps (execClaim src line epoch peers s) [.regs, .host, .epo, .cat, .med, .coh, .lnk, .cap, .cry, .flt, .anl,
      .cur, .pwr, .pmc, .out, .net, .freeCtr] s :=
  reqRow_keeps _ _ _

theorem execEvict_keeps (src line : Nat) (c : Content) (s : State) :
    Keeps (execEvict src line c s) [.regs, .host, .epo, .cat, .med, .coh, .lnk, .cap, .cry, .flt, .anl, .cur, .pwr,
      .pmc, .out, .net, .freeCtr] s :=
  keeps_wholeUnit (by decide) fun u => by simp [changesOnly_iff]

theorem execWriteback_keeps (src line : Nat) (c : Content) (s : State) :
    Keeps (execWriteback src line c s) [.regs, .host, .epo, .cat, .med, .coh, .lnk, .cap, .cry, .flt, .anl, .cur,
      .pwr, .pmc, .out, .net, .freeCtr] s :=
  keeps_wholeUnit (by decide) fun u => by simp [changesOnly_iff]

theorem execSnpS_keeps (dst line : Nat) (s : State) :
    Keeps (execSnpS dst line s) [.coh, .net] s :=
  keeps_unit <| by simp [changesOnly_iff]

theorem execSnpI_keeps (dst line : Nat) (s : State) :
    Keeps (execSnpI dst line s) [.coh, .net] s :=
  keeps_unit <| by simp [changesOnly_iff]

theorem execSnpF_keeps (dst line : Nat) (s : State) :
    Keeps (execSnpF dst line s) [.coh, .pmc, .net] s :=
  keeps_unit <| by simp [changesOnly_iff]

theorem execData_keeps (dst line : Nat) (g : Grant) (c : Content) (s : State) :
    Keeps (execData dst line g c s) [.regs, .host, .epo, .cat, .med, .coh, .lnk, .cap, .cry, .flt, .anl, .cur, .pwr,
      .pmc, .out, .net, .freeCtr] s :=
  keeps_wholeUnit (by decide) fun u => by
    dsimp only
    repeat' split
    all_goals simp [changesOnly_iff]

theorem execGrant_keeps (dst line : Nat) (s : State) :
    Keeps (execGrant dst line s) [.regs, .host, .epo, .cat, .med, .coh, .lnk, .cap, .cry, .flt, .anl, .cur, .pwr,
      .pmc, .out, .net, .freeCtr] s :=
  keeps_wholeUnit (by decide) fun u => by
    dsimp only
    repeat' split
    all_goals simp [changesOnly_iff]

theorem execNack_keeps (dst line : Nat) (s : State) :
    Keeps (execNack dst line s) [.coh, .pmc, .net] s :=
  keeps_unit <| by simp [changesOnly_iff]

theorem execNackResend_keeps (dst line : Nat) (s : State) :
    Keeps (execNackResend dst line s) [.coh, .net] s :=
  keeps_unit <| by
    repeat' split
    all_goals simp [changesOnly_iff]

theorem execTicket_keeps (dst line num : Nat) (s : State) :
    Keeps (execTicket dst line num s) [.coh, .pmc, .net] s :=
  keeps_unit <| by simp [changesOnly_iff]

theorem execEvictAck_keeps (dst line : Nat) (s : State) :
    Keeps (execEvictAck dst line s) [.regs, .host, .epo, .cat, .med, .coh, .lnk, .cap, .cry, .flt, .anl, .cur, .pwr,
      .pmc, .out, .net, .freeCtr] s :=
  keeps_wholeUnit (by decide) fun u => by
    dsimp only
    repeat' split
    all_goals simp [changesOnly_iff]

theorem execWbAck_keeps (dst line : Nat) (s : State) :
    Keeps (execWbAck dst line s) [.regs, .epo, .cat, .med, .coh, .cap, .cry, .flt, .anl, .pmc, .out, .net, .freeCtr]
      s :=
  keeps_unit <| by
    dsimp only
    repeat' split
    all_goals simp [changesOnly_iff]

theorem execAckNp_keeps (src line : Nat) (s : State) :
    Keeps (execAckNp src line s) [.regs, .host, .epo, .cat, .med, .coh, .lnk, .cap, .cry, .flt, .anl, .cur, .pwr,
      .pmc, .out, .net, .freeCtr] s :=
  keeps_wholeUnit (by decide) fun u => by
    repeat' split
    all_goals simp [changesOnly_iff]

theorem execAckI_keeps (src line : Nat) (kind : AckKind) (c : Option Content) (s : State) :
    Keeps (execAckI src line kind c s) [.regs, .host, .epo, .cat, .med, .coh, .lnk, .cap, .cry, .flt, .anl, .cur,
      .pwr, .pmc, .out, .net, .freeCtr] s :=
  keeps_wholeUnit (by decide) fun u => by
    repeat' split
    all_goals simp [changesOnly_iff]

theorem execAckD_keeps (src line : Nat) (c : Content) (s : State) :
    Keeps (execAckD src line c s) [.regs, .host, .epo, .cat, .med, .coh, .lnk, .cap, .cry, .flt, .anl, .cur, .pwr,
      .pmc, .out, .net, .freeCtr] s :=
  keeps_wholeUnit (by decide) fun u => by simp [changesOnly_iff]

theorem execGone_keeps (src line : Nat) (s : State) :
    Keeps (execGone src line s) [.regs, .host, .epo, .cat, .med, .coh, .lnk, .cap, .cry, .flt, .anl, .cur, .pwr,
      .pmc, .out, .net, .freeCtr] s :=
  keeps_wholeUnit (by decide) fun u => by
    dsimp only
    repeat' split
    all_goals simp [changesOnly_iff]

theorem execDone_keeps (src line : Nat) (s : State) :
    Keeps (execDone src line s) [.regs, .host, .epo, .cat, .med, .coh, .lnk, .cap, .cry, .flt, .anl, .cur, .pwr,
      .pmc, .out, .net, .freeCtr] s :=
  keeps_wholeUnit (by decide) fun u => by
    repeat' split
    all_goals simp [changesOnly_iff]

theorem execVictimEvict_keeps (tile line : Nat) (s : State) :
    Keeps (execVictimEvict tile line s) [.regs, .epo, .cat, .med, .coh, .cap, .cry, .flt, .anl, .pmc, .out, .net,
      .freeCtr] s :=
  keeps_unit <| by
    repeat' split
    all_goals simp [changesOnly_iff]

theorem execNcLockWrite_keeps (port tile : Nat) (value : Word) (s : State) :
    Keeps (execNcLockWrite port tile value s) [.regs, .unstored, .host, .epo, .cat, .coh, .lnk, .cap, .cry, .flt,
      .anl, .cur, .pwr, .pmc, .out, .net, .freeCtr] s :=
  keeps_tileWrite (by decide) fun u => by simp [changesOnly_iff]

theorem execPinnedRefill_keeps (tile line : Nat) (s : State) :
    Keeps (execPinnedRefill tile line s) [.regs, .epo, .cat, .med, .coh, .cap, .cry, .flt, .anl, .pmc, .out, .net,
      .freeCtr] s :=
  keeps_unit <| by
    repeat' split
    all_goals simp [changesOnly_iff]

/-! ## Routes and the stream link (R238 to R301) -/

theorem execLandingReeval_keeps (tile entry : Nat) (s : State) :
    Keeps (execLandingReeval tile entry s) [.regs, .host, .rte, .out] s :=
  keeps_unit <| by
    repeat' split
    all_goals simp [changesOnly_iff]

theorem execSlkBondWrite_keeps (port tile : Nat) (value : Word) (s : State) :
    Keeps (execSlkBondWrite port tile value s) [.regs, .unstored, .host, .lnk, .rte, .cap, .anl, .out] s :=
  keeps_tileWrite (by decide) fun u => by simp [changesOnly_iff]

theorem execSlkPortCfgWrite_keeps (port tile sp : Nat) (value : Word) (s : State) :
    Keeps (execSlkPortCfgWrite port tile sp value s) [.regs, .unstored, .host, .lnk, .rte, .cap, .anl, .out] s :=
  keeps_tileWrite (by decide) fun u => by simp [changesOnly_iff]

theorem execSlkGcmKeyWrite_keeps (port tile sp i : Nat) (value : Word) (s : State) :
    Keeps (execSlkGcmKeyWrite port tile sp i value s) [.regs, .unstored, .lnk] s :=
  keeps_tileWrite (by decide) fun u => by simp [changesOnly_iff]

theorem execRekey_keeps (port tile sp : Nat) (s : State) :
    Keeps (execRekey port tile sp s) [.unstored, .lnk, .pmc, .out, .freeCtr] s :=
  keeps_tileWrite (by decide) fun u => by simp [changesOnly_iff]

theorem execPortResetDone_keeps (tile sp : Nat) (s : State) :
    Keeps (execPortResetDone tile sp s) [.lnk] s :=
  keeps_unit <| by
    dsimp only
    repeat' split
    all_goals simp [changesOnly_iff]

theorem execSignalDetect_keeps (tile sp : Nat) (s : State) :
    Keeps (execSignalDetect tile sp s) [.regs, .lnk, .out, .freeCtr] s :=
  keeps_unit <| by
    dsimp only
    repeat' split
    all_goals simp [changesOnly_iff]

theorem execEqFrame_keeps (tile sp lane : Nat) (control : BitVec 128) (inverted rxGood : Bool) (s : State) :
    Keeps (execEqFrame tile sp lane control inverted rxGood s) [.regs, .lnk, .out, .freeCtr] s :=
  keeps_unit <| by
    repeat' split
    all_goals simp [changesOnly_iff]

theorem execEqTimeout_keeps (tile sp : Nat) (s : State) :
    Keeps (execEqTimeout tile sp s) [.regs, .host, .epo, .lnk, .rte, .cap, .flt, .anl, .cur, .pwr, .pmc, .out,
      .freeCtr] s :=
  keeps_unit <| by
    dsimp only
    repeat' split
    all_goals simp [changesOnly_iff]

theorem execLockMarker_keeps (tile sp lane : Nat) (marker : BitVec 40) (phase : Byte) (s : State) :
    Keeps (execLockMarker tile sp lane marker phase s) [.lnk, .out, .freeCtr] s :=
  keeps_unit <| by
    repeat' split
    all_goals simp [changesOnly_iff]

theorem execLockTimeout_keeps (tile sp : Nat) (s : State) :
    Keeps (execLockTimeout tile sp s) [.regs, .host, .epo, .lnk, .rte, .cap, .flt, .anl, .cur, .pwr, .pmc, .out,
      .freeCtr] s :=
  keeps_unit <| by
    dsimp only
    repeat' split
    all_goals simp [changesOnly_iff]

theorem execConfig_keeps (tile sp : Nat) (f : Flit) (s : State) :
    Keeps (execConfig tile sp f s) [.regs, .host, .epo, .lnk, .rte, .cap, .flt, .anl, .cur, .pwr, .pmc, .out,
      .freeCtr] s :=
  keeps_unit <| by
    dsimp only
    repeat' split
    all_goals simp [changesOnly_iff]

theorem execConfigAck_keeps (tile sp : Nat) (f : Flit) (s : State) :
    Keeps (execConfigAck tile sp f s) [.regs, .host, .epo, .lnk, .rte, .cap, .flt, .anl, .cur, .pwr, .pmc, .out,
      .freeCtr] s :=
  keeps_unit <| by
    dsimp only
    repeat' split
    all_goals simp [changesOnly_iff]

theorem execConfigRepeat_keeps (tile sp : Nat) (s : State) :
    Keeps (execConfigRepeat tile sp s) [.lnk, .out] s :=
  keeps_unit <| by
    dsimp only
    repeat' split
    all_goals simp [changesOnly_iff]

theorem execConfigTimeout_keeps (tile sp : Nat) (s : State) :
    Keeps (execConfigTimeout tile sp s) [.lnk, .out] s :=
  keeps_unit <| by
    repeat' split
    all_goals simp [changesOnly_iff]

theorem execRetrain_keeps (tile sp : Nat) (cause : Byte) (s : State) :
    Keeps (execRetrain tile sp cause s) [.regs, .host, .epo, .lnk, .rte, .cap, .flt, .anl, .cur, .pwr, .pmc, .out,
      .freeCtr] s :=
  keeps_unit <| by
    repeat' split
    all_goals simp [changesOnly_iff]

theorem execIdle_keeps (tile sp : Nat) (f : Flit) (s : State) :
    Keeps (execIdle tile sp f s) [.regs, .host, .epo, .lnk, .rte, .cap, .flt, .anl, .cur, .pwr, .pmc, .out, .freeCtr]
      s :=
  keeps_unit <| by simp [changesOnly_iff]

theorem execReq_keeps (tile sp cycle : Nat) (f : Flit) (s : State) :
    Keeps (execReq tile sp cycle f s) [.regs, .host, .epo, .lnk, .rte, .cap, .flt, .anl, .cur, .pwr, .pmc, .out,
      .freeCtr] s :=
  keeps_unit <| by simp [changesOnly_iff]

theorem execCap_keeps (tile sp : Nat) (f : Flit) (s : State) :
    Keeps (execCap tile sp f s) [.regs, .host, .epo, .lnk, .rte, .cap, .flt, .anl, .cur, .pwr, .pmc, .out, .freeCtr]
      s :=
  keeps_unit <| by simp [changesOnly_iff]

theorem execTag_keeps (tile sp : Nat) (f : Flit) (s : State) :
    Keeps (execTag tile sp f s) [.regs, .host, .epo, .lnk, .rte, .cap, .flt, .anl, .cur, .pwr, .pmc, .out, .freeCtr]
      s :=
  keeps_unit <| by simp [changesOnly_iff]

theorem execRekeyReceive_keeps (tile sp : Nat) (f : Flit) (s : State) :
    Keeps (execRekeyReceive tile sp f s) [.regs, .host, .epo, .lnk, .rte, .cap, .flt, .anl, .cur, .pwr, .pmc, .out,
      .freeCtr] s :=
  keeps_unit <| by simp [changesOnly_iff]

theorem execRetrainReceive_keeps (tile sp : Nat) (f : Flit) (s : State) :
    Keeps (execRetrainReceive tile sp f s) [.regs, .host, .epo, .lnk, .rte, .cap, .flt, .anl, .cur, .pwr, .pmc, .out,
      .freeCtr] s :=
  keeps_unit <| by simp [changesOnly_iff]

theorem execBadFlit_keeps (tile sp : Nat) (b : BadFlit) (s : State) :
    Keeps (execBadFlit tile sp b s) [.regs, .host, .epo, .lnk, .rte, .cap, .flt, .anl, .cur, .pwr, .pmc, .out,
      .freeCtr] s :=
  keeps_unit <| by
    repeat' split
    all_goals simp [changesOnly_iff]

theorem execTagTimeout_keeps (tile sp : Nat) (s : State) :
    Keeps (execTagTimeout tile sp s) [.regs, .host, .epo, .lnk, .rte, .cap, .flt, .anl, .cur, .pwr, .pmc, .out,
      .freeCtr] s :=
  keeps_unit <| by
    dsimp only
    repeat' split
    all_goals simp [changesOnly_iff]

theorem execRekeyTimeout_keeps (tile sp : Nat) (s : State) :
    Keeps (execRekeyTimeout tile sp s) [.regs, .host, .epo, .lnk, .rte, .cap, .flt, .anl, .cur, .pwr, .pmc, .out,
      .freeCtr] s :=
  keeps_unit <| by
    dsimp only
    repeat' split
    all_goals simp [changesOnly_iff]

theorem execGcmGroupClose_keeps (tile sp : Nat) (s : State) :
    Keeps (execGcmGroupClose tile sp s) [.lnk, .pmc, .out] s :=
  keeps_unit <| by
    dsimp only
    repeat' split
    all_goals simp [changesOnly_iff]

theorem execDataFlitSend_keeps (tile sp cycle : Nat) (s : State) :
    Keeps (execDataFlitSend tile sp cycle s) [.regs, .host, .epo, .cat, .med, .coh, .lnk, .rte, .cap, .cry, .flt,
      .anl, .pmc, .out, .net, .freeCtr] s :=
  keeps_unit <| by
    repeat' split
    all_goals simp [changesOnly_iff]

theorem execSwitchTakeEffect_keeps (tile sp : Nat) (s : State) :
    Keeps (execSwitchTakeEffect tile sp s) [.regs, .host, .lnk, .rte, .pmc, .out] s :=
  keeps_unit <| by
    repeat' split
    all_goals simp [changesOnly_iff]

theorem execPrefetchRead_keeps (tile sp : Nat) (env : MediaEnv) (s : State) :
    Keeps (execPrefetchRead tile sp env s) [.regs, .host, .epo, .cat, .med, .coh, .lnk, .rte, .cap, .cry, .flt, .anl,
      .cur, .pwr, .pmc, .out, .net, .freeCtr] s :=
  keeps_wholeUnit (by decide) fun u => by
    repeat' split
    all_goals simp [changesOnly_iff]

theorem execLineArrive_keeps (tile sp line : Nat) (_c : Content) (s : State) :
    Keeps (execLineArrive tile sp line _c s) [.regs, .host, .epo, .cat, .med, .coh, .rte, .cap, .cry, .flt, .anl,
      .cur, .pwr, .pmc, .out, .net, .freeCtr] s :=
  keeps_unit <| by
    dsimp only
    repeat' split
    all_goals simp [changesOnly_iff]

theorem execRetireComplete_keeps (tile route : Nat) (s : State) :
    Keeps (execRetireComplete tile route s) [.regs, .host, .rte, .out] s :=
  keeps_unit <| by
    dsimp only
    repeat' split
    all_goals simp [changesOnly_iff]

/-! ## Capture (R312 to R331) -/

theorem execIngestRead_keeps (tile sp : Nat) (upset : BitVec 82) (s : State) :
    Keeps (execIngestRead tile sp upset s) [.regs, .host, .epo, .cat, .coh, .lnk, .cap, .cry, .flt, .anl, .cur, .pwr,
      .pmc, .out, .net, .freeCtr] s :=
  keeps_wholeUnit (by decide) fun u => by
    repeat' split
    all_goals simp [changesOnly_iff]

theorem execRecordCommit_keeps (tile sp region : Nat) (s : State) :
    Keeps (execRecordCommit tile sp region s) [.regs, .host, .epo, .cat, .coh, .lnk, .cap, .cry, .flt, .anl, .cur,
      .pwr, .pmc, .out, .net, .freeCtr] s :=
  keeps_wholeUnit (by decide) fun u => by
    repeat' split
    all_goals simp [changesOnly_iff]

theorem execHomeStatePublish_keeps (home : Nat) (s : State) :
    Keeps (execHomeStatePublish home s) [.cap, .pmc] s :=
  keeps_unit <| by
    repeat' split
    all_goals simp [changesOnly_iff]

/-! ## Passes and data protection (R344 to R397) -/

theorem execPassReset_keeps (r : PassReset) (items : Nat) (writes : Bool) (s : State) :
    Keeps (execPassReset r items writes s) [.regs, .host, .epo, .cat, .med, .coh, .lnk, .rte, .cap, .cry, .flt, .anl,
      .cur, .pwr, .pmc, .out, .net, .freeCtr] s :=
  keeps_unit <| by
    repeat' split
    all_goals simp [changesOnly_iff]

theorem execPassReopen_keeps (tile pass : Nat) (s : State) :
    Keeps (execPassReopen tile pass s) [.med, .lnk, .cry] s :=
  keeps_unit <| by
    dsimp only
    repeat' split
    all_goals simp [changesOnly_iff]

theorem execSaddleFrame_keeps (tile k : Nat) (crcOk : Bool) (s : State) :
    Keeps (execSaddleFrame tile k crcOk s) [.regs, .host, .epo, .coh, .cap, .flt, .anl, .cur, .pwr, .pmc, .out, .net,
      .freeCtr] s :=
  keeps_unit <| by
    repeat' split
    all_goals simp [changesOnly_iff]

theorem execDdrBurstRead_keeps (tile sub block device : Nat) (ecc : Ecc) (macOk : Bool) (s : State) :
    Keeps (execDdrBurstRead tile sub block device ecc macOk s) [.regs, .host, .epo, .cat, .med, .lnk, .cap, .cry,
      .flt, .anl, .cur, .pwr, .pmc, .out, .freeCtr] s :=
  keeps_unit <| by
    repeat' split
    all_goals simp [changesOnly_iff]

theorem execTractFirstWrite_keeps (tile tract : Nat) (s : State) :
    Keeps (execTractFirstWrite tile tract s) [.regs, .cry, .pmc, .out] s :=
  keeps_unit <| by
    repeat' split
    all_goals simp [changesOnly_iff]

theorem execMinorOverflow_keeps (tile leaf : Nat) (s : State) :
    Keeps (execMinorOverflow tile leaf s) [.regs, .cry, .pmc, .out] s :=
  keeps_unit <| by
    repeat' split
    all_goals simp [changesOnly_iff]

theorem execCounterEvict_keeps (tile node : Nat) (s : State) :
    Keeps (execCounterEvict tile node s) [.cry, .pmc, .out] s :=
  keeps_unit <| by
    repeat' split
    all_goals simp [changesOnly_iff]

theorem execDdrRekey_keeps (port tile : Nat) (s : State) :
    Keeps (execDdrRekey port tile s) [.regs, .unstored, .cry, .freeCtr] s :=
  keeps_tileWrite (by decide) fun u => by
    repeat' split
    all_goals simp [changesOnly_iff]

theorem execDdrRekeyDone_keeps (tile : Nat) (s : State) :
    Keeps (execDdrRekeyDone tile s) [.regs, .cry, .pmc, .out] s :=
  keeps_unit <| by
    repeat' split
    all_goals simp [changesOnly_iff]

theorem execKeyRotationDone_keeps (kid : Nat) (s : State) :
    Keeps (execKeyRotationDone kid s) [.cry] s :=
  keeps_unit <| by
    repeat' split
    all_goals simp [changesOnly_iff]

theorem execDdrTempPoll_keeps (tile k : Nat) (hottest : Int) (above : Bool) (s : State) :
    Keeps (execDdrTempPoll tile k hottest above s) [.regs, .host, .epo, .cat, .med, .coh, .lnk, .rte, .cap, .cry,
      .flt, .anl, .cur, .thm, .pwr, .pmc, .out, .net] s :=
  keeps_unit <| by
    repeat' split
    all_goals simp [changesOnly_iff]

theorem execHaltBroadcastArrive_keeps (tile : Nat) (s : State) :
    Keeps (execHaltBroadcastArrive tile s) [.regs, .lnk, .cry] s :=
  keeps_unit <| by
    repeat' split
    all_goals simp [changesOnly_iff]

theorem execTamperTrip_keeps (tile sensor : Nat) (reading : DWord) (s : State) :
    Keeps (execTamperTrip tile sensor reading s) [.regs, .host, .cat, .lnk, .cry, .anl, .cur, .pmc, .out] s :=
  keeps_unit <| by
    repeat' split
    all_goals simp [changesOnly_iff]

/-! ## Faults, escalations and the Annals (R403 to R424) -/

theorem execFaultWindowEnd_keeps (tile source : Nat) (s : State) :
    Keeps (execFaultWindowEnd tile source s) [.flt] s :=
  keeps_unit <| by simp [changesOnly_iff]

theorem execFltSrcCfgWrite_keeps (port tile source : Nat) (value : Word) (s : State) :
    Keeps (execFltSrcCfgWrite port tile source value s) [.regs, .unstored, .flt, .anl] s :=
  keeps_tileWrite (by decide) fun u => by simp [changesOnly_iff]

theorem execEscalationCancel_keeps (actor tile slot : Nat) (s : State) :
    Keeps (execEscalationCancel actor tile slot s) [.regs, .unstored, .host, .epo, .cap, .flt, .anl, .cur, .pwr,
      .pmc, .out, .freeCtr] s :=
  keeps_unit <| by simp [changesOnly_iff]

theorem execEscalationNow_keeps (actor tile slot : Nat) (s : State) :
    Keeps (execEscalationNow actor tile slot s) [.regs, .unstored, .host, .epo, .cap, .flt, .anl, .cur, .pwr, .pmc,
      .out, .freeCtr] s :=
  keeps_unit <| by simp [changesOnly_iff]

theorem execEscalationExpiry_keeps (tile slot : Nat) (s : State) :
    Keeps (execEscalationExpiry tile slot s) [.regs, .host, .epo, .cap, .flt, .anl, .cur, .pwr, .pmc, .out, .freeCtr]
      s :=
  keeps_unit <| by simp [changesOnly_iff]

theorem execTileReadyTimeout_keeps (tile : Nat) (s : State) :
    Keeps (execTileReadyTimeout tile s) [.regs, .host, .epo, .coh, .cap, .flt, .cur, .pwr, .out] s :=
  keeps_unit <| by simp [changesOnly_iff]

theorem execAnlRdLoad_keeps (port : Nat) (seq : Word) (s : State) :
    Keeps (execAnlRdLoad port seq s) [.regs, .unstored] s :=
  keeps_bar0 (by decide) fun u => by simp [changesOnly_iff]

theorem execAnnalsMirror_keeps (cur tile : Nat) (flashOk : Bool) (s : State) :
    Keeps (execAnnalsMirror cur tile flashOk s) [.regs, .host, .epo, .cap, .flt, .anl, .cur, .pwr, .pmc, .out,
      .freeCtr] s :=
  keeps_unit <| by
    repeat' split
    all_goals simp [changesOnly_iff]

theorem execSpareSample_keeps (s : State) :
    Keeps (execSpareSample  s) [.anl, .thm] s :=
  keeps_next _ _ _ <| by
    repeat' split
    all_goals simp [changesOnly_iff]

theorem execSensorHistorySample_keeps (s : State) :
    Keeps (execSensorHistorySample  s) [.anl, .thm, .freeCtr] s :=
  keeps_next _ _ _ <| by
    repeat' split
    all_goals simp [changesOnly_iff]

/-! ## Curators and sensors (R426 to R442) -/

theorem execHeartbeat_keeps (cur : Nat) (s : State) :
    Keeps (execHeartbeat cur s) [.cur] s :=
  keeps_unit <| by
    repeat' split
    all_goals simp [changesOnly_iff]

theorem execCuratorTakeover_keeps (cause : BitVec 2) (s : State) :
    Keeps (execCuratorTakeover cause s) [.regs, .host, .epo, .cat, .med, .coh, .lnk, .rte, .cap, .cry, .flt, .anl,
      .cur, .pwr, .pmc, .out, .net, .freeCtr] s :=
  keeps_next _ _ _ <| by
    repeat' split
    all_goals simp [changesOnly_iff]

theorem execStandbySynced_keeps (s : State) :
    Keeps (execStandbySynced  s) [.regs, .host, .epo, .cat, .med, .coh, .lnk, .rte, .cap, .cry, .flt, .anl, .cur,
      .pwr, .pmc, .out, .net, .freeCtr] s :=
  keeps_next _ _ _ <| by
    repeat' split
    all_goals simp [changesOnly_iff]

theorem execSensorConvert_keeps (tile sensor : Nat) (eighths : Int) (s : State) :
    Keeps (execSensorConvert tile sensor eighths s) [.regs, .host, .epo, .cat, .med, .coh, .lnk, .rte, .cap, .cry,
      .flt, .anl, .cur, .thm, .pwr, .pmc, .out, .net, .freeCtr] s :=
  keeps_unit <| by
    repeat' split
    all_goals simp [changesOnly_iff]

/-! ## The rail sequencer (R464 to R476) -/

theorem execPowerdownWaitEnd_keeps (s : State) :
    Keeps (execPowerdownWaitEnd  s) [.regs, .host, .epo, .cat, .med, .coh, .lnk, .rte, .cap, .cry, .flt, .anl, .cur,
      .thm, .pwr, .pmc, .net] s :=
  keeps_next _ _ _ <| by
    repeat' split
    all_goals simp [changesOnly_iff]

theorem execEnable_keeps (s : State) :
    Keeps (execEnable  s) [.pwr] s :=
  keeps_next _ _ _ <| by
    dsimp only
    repeat' split
    all_goals simp [changesOnly_iff]

theorem execDisable_keeps (s : State) :
    Keeps (execDisable  s) [.pwr] s :=
  keeps_next _ _ _ <| by
    dsimp only
    repeat' split
    all_goals simp [changesOnly_iff]

theorem execWait_keeps (s : State) :
    Keeps (execWait  s) [.pwr] s :=
  keeps_next _ _ _ <| by
    repeat' split
    all_goals simp [changesOnly_iff]

theorem execCheck_keeps (s : State) :
    Keeps (execCheck  s) [.regs, .host, .epo, .cat, .med, .coh, .lnk, .rte, .cap, .cry, .flt, .anl, .cur, .thm, .pwr,
      .pmc, .out, .net, .freeCtr] s :=
  keeps_next _ _ _ <| by
    repeat' split
    all_goals simp [changesOnly_iff]

theorem execJumpStep_keeps (s : State) :
    Keeps (execJumpStep  s) [.pwr] s :=
  keeps_next _ _ _ <| by
    repeat' split
    all_goals simp [changesOnly_iff]

theorem execSeqEnd_keeps (s : State) :
    Keeps (execSeqEnd  s) [.regs, .host, .epo, .cat, .med, .coh, .lnk, .rte, .cap, .cry, .flt, .anl, .cur, .thm,
      .pwr, .pmc, .out, .net] s :=
  keeps_next _ _ _ <| by
    repeat' split
    all_goals simp [changesOnly_iff]

theorem execMonitorScan_keeps (monitor mv : Nat) (s : State) :
    Keeps (execMonitorScan monitor mv s) [.regs, .host, .epo, .cat, .med, .coh, .lnk, .rte, .cap, .cry, .flt, .anl,
      .cur, .thm, .pwr, .pmc, .out, .net, .freeCtr] s :=
  keeps_unit <| by
    repeat' split
    all_goals simp [changesOnly_iff]

theorem execHoldOffExpiry_keeps (s : State) :
    Keeps (execHoldOffExpiry  s) [.pwr] s :=
  keeps_next _ _ _ <| by
    dsimp only
    repeat' split
    all_goals simp [changesOnly_iff]

theorem execPwrOffReq_keeps (s : State) :
    Keeps (execPwrOffReq  s) [.regs, .host, .epo, .cat, .med, .coh, .lnk, .rte, .cap, .cry, .flt, .anl, .cur, .thm,
      .pwr, .pmc, .net] s :=
  keeps_next _ _ _ <| by
    repeat' split
    all_goals simp [changesOnly_iff]

theorem execPwrOnReq_keeps (s : State) :
    Keeps (execPwrOnReq  s) [.pwr] s :=
  keeps_next _ _ _ <| by
    repeat' split
    all_goals simp [changesOnly_iff]

theorem execSupplyOkFall_keeps (s : State) :
    Keeps (execSupplyOkFall  s) [.regs, .host, .epo, .cat, .med, .coh, .lnk, .rte, .cap, .cry, .flt, .anl, .cur,
      .thm, .pwr, .pmc, .net] s :=
  keeps_next _ _ _ <| by
    dsimp only
    repeat' split
    all_goals simp [changesOnly_iff]

theorem execSupplyOkReturn_keeps (s : State) :
    Keeps (execSupplyOkReturn  s) [.pwr] s :=
  keeps_next _ _ _ <| by
    dsimp only
    repeat' split
    all_goals simp [changesOnly_iff]

theorem execVaonFall_keeps (s : State) :
    Keeps (execVaonFall  s) [.regs, .unstored, .host, .epo, .cat, .med, .coh, .lnk, .rte, .cap, .cry, .flt, .anl,
      .cur, .thm, .pwr, .pmc, .net] s :=
  keeps_next _ _ _ <| by
    repeat' split
    all_goals simp [changesOnly_iff]

/-! ## Resets and power states (R478 to R495) -/

theorem execPor_keeps (s : State) :
    Keeps (execPor  s) [.now, .regs, .host, .epo, .cat, .med, .coh, .lnk, .rte, .cap, .cry, .flt, .anl, .cur, .thm,
      .pwr, .pmc, .out, .net, .freeCtr] s :=
  keeps_next _ _ _ <| by
    repeat' split
    all_goals simp [changesOnly_iff]

theorem execColdReset_keeps (s : State) :
    Keeps (execColdReset  s) [.regs, .host, .epo, .cat, .med, .coh, .lnk, .rte, .cap, .cry, .flt, .anl, .cur, .thm,
      .pwr, .pmc, .net] s :=
  keeps_next _ _ _ <| by
    repeat' split
    all_goals simp [changesOnly_iff]

theorem execWarmReset_keeps (port : Nat) (value : Word) (s : State) :
    Keeps (execWarmReset port value s) [.regs, .unstored, .host, .epo, .cat, .med, .coh, .lnk, .rte, .cap, .cry,
      .flt, .anl, .cur, .thm, .pwr, .pmc, .out, .net] s :=
  keeps_bar0 (by decide) fun u => by simp [changesOnly_iff]

theorem execTileReset_keeps (tile : Nat) (s : State) :
    Keeps (execTileReset tile s) [.regs, .host, .epo, .cat, .med, .coh, .lnk, .rte, .cap, .cry, .flt, .anl, .cur,
      .pwr, .pmc, .out, .net, .freeCtr] s :=
  keeps_unit <| by
    repeat' split
    all_goals simp [changesOnly_iff]

theorem execFlr_keeps (port : Nat) (s : State) :
    Keeps (execFlr port s) [.regs, .host, .anl] s :=
  keeps_unit <| by
    repeat' split
    all_goals simp [changesOnly_iff]

theorem execPerst_keeps (port : Nat) (low : Bool) (s : State) :
    Keeps (execPerst port low s) [.regs, .host, .epo, .cat, .med, .coh, .lnk, .rte, .cap, .cry, .flt, .anl, .cur,
      .thm, .pwr, .pmc, .out, .net, .freeCtr] s :=
  keeps_unit <| by
    dsimp only
    repeat' split
    all_goals simp [changesOnly_iff]

theorem execHostLinkLoss_keeps (port : Nat) (s : State) :
    Keeps (execHostLinkLoss port s) [.regs, .host, .epo, .cap, .cry, .flt, .anl, .cur, .pwr, .pmc, .out, .freeCtr] s
      :=
  keeps_unit <| by
    dsimp only
    repeat' split
    all_goals simp [changesOnly_iff]

theorem execCurReset_keeps (cur : Nat) (s : State) :
    Keeps (execCurReset cur s) [.regs, .host, .epo, .cat, .med, .coh, .lnk, .rte, .cap, .cry, .flt, .anl, .cur, .pwr,
      .pmc, .out, .net, .freeCtr] s :=
  keeps_unit <| by simp [changesOnly_iff]

theorem execP1Wake_keeps (s : State) :
    Keeps (execP1Wake  s) [.regs, .host, .anl, .pwr, .out] s :=
  keeps_next _ _ _ <| by
    repeat' split
    all_goals simp [changesOnly_iff]

theorem execP3DurabilityTimeout_keeps (s : State) :
    Keeps (execP3DurabilityTimeout  s) [.regs, .host, .lnk, .anl, .cur, .pwr, .out] s :=
  keeps_next _ _ _ <| by
    repeat' split
    all_goals simp [changesOnly_iff]

theorem execTransitionDone_keeps (s : State) :
    Keeps (execTransitionDone  s) [.regs, .host, .epo, .cat, .med, .coh, .lnk, .rte, .cap, .cry, .flt, .anl, .cur,
      .thm, .pwr, .pmc, .out, .net] s :=
  keeps_next _ _ _ <| by
    repeat' split
    all_goals simp [changesOnly_iff]

theorem execBootReady_keeps (b : BootEnv) (s : State) :
    Keeps (execBootReady b s) [.regs, .host, .epo, .cat, .med, .coh, .cap, .cry, .flt, .anl, .cur, .pwr, .pmc, .out,
      .freeCtr] s :=
  keeps_next _ _ _ <| by
    repeat' split
    all_goals simp [changesOnly_iff]

theorem execSeqCommit_keeps (port : Nat) (s : State) :
    Keeps (execSeqCommit port s) [.regs, .unstored, .anl, .pwr] s :=
  keeps_bar0 (by decide) fun u => by simp [changesOnly_iff]

theorem execSeqCommitDone_keeps (flashOk : Bool) (s : State) :
    Keeps (execSeqCommitDone flashOk s) [.regs, .pwr] s :=
  keeps_next _ _ _ <| by
    dsimp only
    repeat' split
    all_goals simp [changesOnly_iff]

/-! ## Performance counters (R496 to R505) -/

theorem execPmcCfgWrite_keeps (port tile i : Nat) (value : Word) (s : State) :
    Keeps (execPmcCfgWrite port tile i value s) [.regs, .unstored, .anl] s :=
  keeps_tileWrite (by decide) fun u => by simp [changesOnly_iff]

theorem execPmcCntWrite_keeps (port tile i : Nat) (high : Bool) (value : Word) (s : State) :
    Keeps (execPmcCntWrite port tile i high value s) [.unstored, .pmc] s :=
  keeps_tileWrite (by decide) fun u => by simp [changesOnly_iff]

theorem execClearTd_keeps (port tile : Nat) (s : State) :
    Keeps (execClearTd port tile s) [.unstored, .pmc] s :=
  keeps_tileWrite (by decide) fun u => by simp [changesOnly_iff]

theorem execClearProg_keeps (port tile : Nat) (s : State) :
    Keeps (execClearProg port tile s) [.unstored, .pmc] s :=
  keeps_tileWrite (by decide) fun u => by simp [changesOnly_iff]

theorem execFreeze_keeps (port : Nat) (s : State) :
    Keeps (execFreeze port s) [.regs, .unstored, .anl, .pmc] s :=
  keeps_bar0 (by decide) fun u => by simp [changesOnly_iff]

theorem execThaw_keeps (port : Nat) (s : State) :
    Keeps (execThaw port s) [.regs, .unstored, .anl, .pmc] s :=
  keeps_bar0 (by decide) fun u => by simp [changesOnly_iff]

theorem execSnap_keeps (port : Nat) (s : State) :
    Keeps (execSnap port s) [.regs, .unstored, .anl, .pmc] s :=
  keeps_bar0 (by decide) fun u => by simp [changesOnly_iff]

theorem execPmcActionAtT_keeps (tile : Nat) (s : State) :
    Keeps (execPmcActionAtT tile s) [.pmc] s :=
  keeps_unit <| by
    repeat' split
    all_goals simp [changesOnly_iff]

/-! ## Links and units that return (R258, R410, R430, R448) -/

theorem execLaneSignalTimeout_keeps (tile sp lane : Nat) (s : State) :
    Keeps (execLaneSignalTimeout tile sp lane s) [.regs, .host, .epo, .lnk, .rte, .cap, .flt, .anl, .cur, .pwr, .pmc,
      .out, .freeCtr] s :=
  keeps_unit <| by
    dsimp only
    repeat' split
    all_goals simp [changesOnly_iff]

theorem execConversionMissed_keeps (tile sensor : Nat) (s : State) :
    Keeps (execConversionMissed tile sensor s) [.regs, .host, .epo, .cat, .med, .coh, .lnk, .rte, .cap, .cry, .flt,
      .anl, .cur, .thm, .pwr, .pmc, .out, .net, .freeCtr] s :=
  keeps_unit <| by
    repeat' split
    all_goals simp [changesOnly_iff]

theorem execTileReady_keeps (tile : Nat) (s : State) :
    Keeps (execTileReady tile s) [.regs, .host, .med, .coh, .lnk, .flt, .anl, .out, .net] s :=
  keeps_unit <| by
    repeat' split
    all_goals simp [changesOnly_iff]

theorem execHostLinkUp_keeps (port : Nat) (speed width : Byte) (msixEn fmask : Bool) (s : State) :
    Keeps (execHostLinkUp port speed width msixEn fmask s) [.host] s :=
  keeps_unit <| by
    repeat' split
    all_goals simp [changesOnly_iff]

theorem execResetNRelease_keeps (s : State) :
    Keeps (execResetNRelease  s) [.regs, .lnk, .pwr] s :=
  keeps_next _ _ _ <| by
    dsimp only
    repeat' split
    all_goals simp [changesOnly_iff]

theorem execFwRestartTimeout_keeps (cur : Nat) (s : State) :
    Keeps (execFwRestartTimeout cur s) [.regs, .host, .cur, .out] s :=
  keeps_unit <| by
    repeat' split
    all_goals simp [changesOnly_iff]

theorem execCuratorRestartDone_keeps (version : Word) (s : State) :
    Keeps (execCuratorRestartDone version s) [.regs, .host, .anl, .cur, .out, .freeCtr] s :=
  keeps_next _ _ _ <| by
    repeat' split
    all_goals simp [changesOnly_iff]

/-- Settles O59: each row by the lemma of its operation. -/
theorem framesOfLinkAndPartCommands : Obligations.FramesOfLinkAndPartCommands := by
  unfold Obligations.FramesOfLinkAndPartCommands
  exact ⟨execReqReadS_keeps, execReqReadX_keeps, execUpgrade_keeps, execClaim_keeps, execEvict_keeps,
    execWriteback_keeps, execSnpS_keeps, execSnpI_keeps, execSnpF_keeps, execData_keeps, execGrant_keeps,
    execNack_keeps, execNackResend_keeps, execTicket_keeps, execEvictAck_keeps, execWbAck_keeps,
    execAckNp_keeps, execAckI_keeps, execAckD_keeps, execGone_keeps, execDone_keeps, execVictimEvict_keeps,
    execNcLockWrite_keeps, execPinnedRefill_keeps, execLandingReeval_keeps, execSlkBondWrite_keeps,
    execSlkPortCfgWrite_keeps, execSlkGcmKeyWrite_keeps, execRekey_keeps, execPortResetDone_keeps,
    execSignalDetect_keeps, execEqFrame_keeps, execEqTimeout_keeps, execLockMarker_keeps, execLockTimeout_keeps,
    execConfig_keeps, execConfigAck_keeps, execConfigRepeat_keeps, execConfigTimeout_keeps, execRetrain_keeps,
    execIdle_keeps, execReq_keeps, execCap_keeps, execTag_keeps, execRekeyReceive_keeps,
    execRetrainReceive_keeps, execBadFlit_keeps, execTagTimeout_keeps, execRekeyTimeout_keeps,
    execGcmGroupClose_keeps, execDataFlitSend_keeps, execSwitchTakeEffect_keeps, execPrefetchRead_keeps,
    execLineArrive_keeps, execRetireComplete_keeps, execIngestRead_keeps, execRecordCommit_keeps,
    execHomeStatePublish_keeps, execPassReset_keeps, execPassReopen_keeps, execSaddleFrame_keeps,
    execDdrBurstRead_keeps, execTractFirstWrite_keeps, execMinorOverflow_keeps, execCounterEvict_keeps,
    execDdrRekey_keeps, execDdrRekeyDone_keeps, execKeyRotationDone_keeps, execDdrTempPoll_keeps,
    execHaltBroadcastArrive_keeps, execTamperTrip_keeps, execFaultWindowEnd_keeps, execFltSrcCfgWrite_keeps,
    execEscalationCancel_keeps, execEscalationNow_keeps, execEscalationExpiry_keeps, execTileReadyTimeout_keeps,
    execAnlRdLoad_keeps, execAnnalsMirror_keeps, execSpareSample_keeps, execSensorHistorySample_keeps,
    execHeartbeat_keeps, execCuratorTakeover_keeps, execStandbySynced_keeps, execSensorConvert_keeps,
    execPowerdownWaitEnd_keeps, execEnable_keeps, execDisable_keeps, execWait_keeps, execCheck_keeps,
    execJumpStep_keeps, execSeqEnd_keeps, execMonitorScan_keeps, execHoldOffExpiry_keeps, execPwrOffReq_keeps,
    execPwrOnReq_keeps, execSupplyOkFall_keeps, execSupplyOkReturn_keeps, execVaonFall_keeps, execPor_keeps,
    execColdReset_keeps, execWarmReset_keeps, execTileReset_keeps, execFlr_keeps, execPerst_keeps,
    execHostLinkLoss_keeps, execCurReset_keeps, execP1Wake_keeps, execP3DurabilityTimeout_keeps,
    execTransitionDone_keeps, execBootReady_keeps, execSeqCommit_keeps, execSeqCommitDone_keeps,
    execPmcCfgWrite_keeps, execPmcCntWrite_keeps, execClearTd_keeps, execClearProg_keeps, execFreeze_keeps,
    execThaw_keeps, execSnap_keeps, execPmcActionAtT_keeps, execLaneSignalTimeout_keeps,
    execConversionMissed_keeps, execTileReady_keeps, execHostLinkUp_keeps, execResetNRelease_keeps,
    execFwRestartTimeout_keeps, execCuratorRestartDone_keeps⟩

end Sys2Proof.Machine
end

section
/-! Settles the statement of commands that name a stream port (R240). -/

namespace Sys2Proof.Machine

set_option Elab.async false

/-- Settles O57: each command answers an unknown object where the tile has no port of that number. -/
theorem commandsNameBondedPorts : Obligations.CommandsNameBondedPorts := by
  unfold Obligations.CommandsNameBondedPorts
  refine ⟨?define, ?opening, ?close, ?drain, ?arm⟩
  case define =>
    intro c k r w n l p o h s hacc hport
    exact (exec_accepted hacc (by omega) rfl).trans (by simp [hport, Status.unknown])
  case opening =>
    intro c k p r f v a n s hacc _ _ hport
    exact (exec_accepted hacc (by omega) rfl).trans (by simp [State.openCheck, hport, Status.unknown])
  case close =>
    intro c k p r m s hacc hport
    exact (exec_accepted hacc (by omega) rfl).trans (by simp [hport, Status.unknown])
  case drain =>
    intro c k p r s hacc hport hstuck hforged
    exact exec_whole hacc (by omega) rfl (by simp [hport, Status.unknown]) hstuck hforged
  case arm =>
    intro c k r v m d s hacc htile hr hd hport
    exact (exec_accepted hacc (by omega) rfl).trans (by simp [htile, Nat.not_le.mpr hr, hd, hport, Status.unknown])

end Sys2Proof.Machine
end

section
/-! What an operation leaves of a stream port of a tile, and what the operations of training make of it (R252 to R258). -/

namespace Sys2Proof.Machine

set_option Elab.async false

/-! ## The port tables -/

theorem State.sport_congr {s t : State} (h : t.lnk = s.lnk) (k p : Nat) : t.sport k p = s.sport k p := by
  simp only [State.sport, h]

section
variable (k p : Nat) (s : State)

@[simp] theorem State.emit_sport (o : Out) : (s.emit o).sport k p = s.sport k p := State.sport_congr rfl k p

@[simp] theorem State.drawn_sport (n : Nat) : (s.drawn n).sport k p = s.sport k p := State.sport_congr rfl k p

@[simp] theorem State.putReg_sport (r : Reg) (u i v : Nat) : (s.putReg r u i v).sport k p = s.sport k p :=
  State.sport_congr rfl k p

@[simp] theorem State.putField_sport (r : Reg) (u i hi lo v : Nat) : (s.putField r u i hi lo v).sport k p = s.sport k p :=
  State.sport_congr rfl k p

@[simp] theorem State.annal_sport (t : Nat) (e : AEvent) : (s.annal t e).sport k p = s.sport k p :=
  State.sport_congr (by simp) k p

@[simp] theorem State.fault_sport (t id : Nat) (i : FaultInfo) : (s.fault t id i).sport k p = s.sport k p :=
  State.sport_congr (by simp) k p

@[simp] theorem State.leaveActive_sport (t q : Nat) : (s.leaveActive t q).sport k p = s.sport k p :=
  State.sport_congr (by simp) k p

@[simp] theorem State.idleLanes_sport (t : Nat) (l : List Nat) : (s.idleLanes t l).sport k p = s.sport k p :=
  State.sport_congr (by simp) k p

@[simp] theorem State.answerEq_sport (t q l : Nat) (good : Bool) : (s.answerEq t q l good).sport k p = s.sport k p :=
  State.sport_congr rfl k p

/-! ## Training -/

/-- A port is in a state exactly where its tile's links run and it is. -/
theorem State.portIn_iff (st : PState) : s.portIn k p st = true ↔ s.linkRuns k = true ∧ (s.sport k p).st = st := by
  simp [State.portIn]

/-- A port that fails is FAILED (R258). -/
theorem State.failPort_st (cause : Nat) : ((s.failPort k p cause).sport k p).st = .failed := by
  simp [State.failPort]

/-- The first training frame of each lane leaves the port as it is (R253). -/
@[simp] theorem State.answerLanes_sport (l : List Nat) (s : State) :
    (l.foldl (fun s l => (s.putReg .slkLane k l (2 ^ 31)).answerEq k p (l - p) false) s).sport k p = s.sport k p :=
  foldl_same (fun s => s.sport k p) _ (fun s l => by simp) l s

/-- EQ ends in LOCK, from now on (R254). -/
theorem State.eqDone_sport :
    (s.eqDone k p).sport k p = { s.sport k p with st := .lock, since := s.now, lockRun := [] } := by
  unfold State.eqDone
  exact (foldl_same (fun s => s.sport k p) _ (fun s l => by simp) _ _).trans (by simp)

/-- A port that has locked is in CONFIG, with the phase of its markers and nothing exchanged (R254, R256). -/
theorem State.enterConfig_sport (phase : Byte) :
    ((s.enterConfig k p phase).sport k p).st = .config ∧ ((s.enterConfig k p phase).sport k p).rxPhase = phase ∧
    ((s.enterConfig k p phase).sport k p).cfgGot = false ∧ ((s.enterConfig k p phase).sport k p).cfgAcked = false := by
  simp [State.enterConfig, State.sendConfig, State.putCtrl, State.sendFlit, SPort.returned, SPort.returns]

end

end Sys2Proof.Machine
end

section
/-! Settles the statement of training: each row's condition, and the step it takes (R252 to R258). -/

namespace Sys2Proof.Machine

set_option Elab.async false

/-- The frame that brings every lane of a one-lane port to four ready frames in a row ends EQ (R253, R254). -/
theorem State.trainFrame_last {k p : Nat} {x : BitVec 128} {a : Bool} {s : State} (hw : s.width k p = 1)
    (hready : x.getLsbD 24 = true) (hrun : tget (fun _ => 0) (s.sport k p).readyRun 0 = 3) :
    ((s.trainFrame k p 0 x a true).sport k p).st = .lock ∧ ((s.trainFrame k p 0 x a true).sport k p).since = s.now ∧
    ((s.trainFrame k p 0 x a true).sport k p).eqTmo = (s.sport k p).eqTmo := by
  simp [State.trainFrame, hw, hready, hrun, State.eqDone_sport]

/-- The marker that brings the lane of a one-lane port to four in a row ends LOCK (R254). -/
theorem State.marked_last {k p : Nat} {f : Byte} {s : State} (hw : s.width k p = 1)
    (hrun : tget (fun _ => 0) (s.sport k p).lockRun 0 = 3) :
    s.marked k p 0 f =
      (s.setSport k p { s.sport k p with lockRun := tset (fun _ => 0) (s.sport k p).lockRun 0 4 }).enterConfig k p f := by
  simp [State.marked, hw, hrun]

/-- Settles O36: each row does what its condition says, and a port that fails is FAILED by `State.failPort_st`. -/
theorem trainingAdvances : Obligations.TrainingAdvances := by
  unfold Obligations.TrainingAdvances
  refine ⟨?resetDone, ?resetEarly, ?signal, ?badFrame, ?lastFrame, ?eqTimeout, ?eqFails, ?lastMarker, ?noMarker, ?lockTimeout,
    ?lockFails, ?noSignal⟩
  case resetDone =>
    intro k p s hp hin ht
    change execPortResetDone k p s = _
    simp [execPortResetDone, hp, hin, ht]
  case resetEarly =>
    intro k p s hp ht
    change execPortResetDone k p s = _
    simp [execPortResetDone, hp, Nat.not_le.mpr ht]
  case signal =>
    intro k p s hp hin
    change Yields (execSignalDetect k p s) _
    rw [execSignalDetect, withUnit_of _ _ _ hp, yields_next_iff, if_pos hin, State.answerLanes_sport, State.setSport_sport]
    exact ⟨rfl, rfl⟩
  case badFrame =>
    intro k p l x a g s hp hin hl hx
    change execEqFrame k p l x a g s = _
    simp [execEqFrame, hp, hl, hx]
  case lastFrame =>
    intro k p x a s hp hin hw hx hready hrun
    change Yields (execEqFrame k p 0 x a true s) _
    rw [execEqFrame, withUnit_of _ _ _ (by simp [hp, hw]), yields_next_iff, if_pos (by simp [hin, hx])]
    exact State.trainFrame_last hw hready hrun
  case eqTimeout =>
    intro k p s hp hin ht hn
    change execEqTimeout k p s = _
    simp [execEqTimeout, hp, hin, ht, Nat.not_le.mpr hn]
  case eqFails =>
    intro k p s hp hin ht hn
    change Yields (execEqTimeout k p s) _
    simp [execEqTimeout, hp, hin, ht, hn, State.failPort_st]
  case lastMarker =>
    intro k p f s hp hin hw hrun
    change Yields (execLockMarker k p 0 (lockMarker 0) f s) _
    simp only [execLockMarker, hp, hw, hin, zero_lt_one, decide_true, Bool.and_self, withUnit_true, if_true, beq_self_eq_true,
      yields_next_iff, State.marked_last hw hrun]
    exact State.enterConfig_sport ..
  case noMarker =>
    intro k p l m f s hp hin hl hm
    change execLockMarker k p l m f s = _
    simp [execLockMarker, hp, hl, hin, hm]
  case lockTimeout =>
    intro k p s hp hin ht hn
    change execLockTimeout k p s = _
    simp [execLockTimeout, hp, hin, ht, Nat.not_le.mpr hn]
  case lockFails =>
    intro k p s hp hin ht hn
    change Yields (execLockTimeout k p s) _
    simp [execLockTimeout, hp, hin, ht, hn, State.failPort_st]
  case noSignal =>
    intro k p l s hp hin hl hs ht
    change Yields (execLaneSignalTimeout k p l s) _
    rw [execLaneSignalTimeout, withUnit_of _ _ _ (by simp [hp, hl]), yields_next_iff, if_pos (by simp [hin, hs, ht])]
    exact State.failPort_st ..

end Sys2Proof.Machine
end

section
/-! What a port that leaves ACTIVE, or restarts, leaves of the registers below SLK_LANE, among them SLK_BOND and SLK_PORT_CFG
(R239, R252). -/

namespace Sys2Proof.Machine

set_option Elab.async false

/-- A register whose key lies below those of SLK_LANE, the first of the registers that a port writes as it leaves ACTIVE. -/
def belowLanes (r : Reg) (u i : Nat) : Prop := regKey r u i < regKey .slkLane 0 0

section
variable {r : Reg} {u i : Nat} (h : belowLanes r u i) (t p : Nat) (s : State)
include h

theorem State.putReg_below {q : Reg} (hq : Reg.ctorIdx .slkLane ≤ q.ctorIdx) (v j w : Nat) :
    (s.putReg q v j w).reg r u i = s.reg r u i := by
  refine State.putReg_reg_ne (fun he => ?_) s
  unfold belowLanes at h
  simp only [regKey] at h he
  omega

theorem State.bump_below {q : Reg} (hq : Reg.ctorIdx .slkLane ≤ q.ctorIdx) (v j : Nat) :
    (s.bump q v j).reg r u i = s.reg r u i :=
  State.putReg_below h s hq v j _

theorem State.putField_below {q : Reg} (hq : Reg.ctorIdx .slkLane ≤ q.ctorIdx) (v j hi lo w : Nat) :
    (s.putField q v j hi lo w).reg r u i = s.reg r u i :=
  State.putReg_below h s hq v j _

theorem State.ringWrite_below (e : AEvent) (n : Nat) : (s.ringWrite t e n).reg r u i = s.reg r u i := by
  have hlost (b : Prop) [Decidable b] : (if b then s.bump .anlUnmirrored 0 t else s).reg r u i = s.reg r u i := by
    split
    · exact State.bump_below h s (by decide) 0 t
    · rfl
  exact (State.reg_congr rfl r u i).trans (hlost _)

omit h in
theorem State.setBucket_reg (code n : Nat) (take : Bool) : (s.setBucket t code take n).reg r u i = s.reg r u i :=
  State.reg_congr rfl r u i

theorem State.annal_below (e : AEvent) : (s.annal t e).reg r u i = s.reg r u i := by
  simp only [State.annal]
  repeat' split
  · exact State.reg_congr (by simp [State.mirrorWrite_kept]) r u i
  · rw [State.ringWrite_below h, State.setBucket_reg]
  · exact State.reg_congr rfl r u i
  · rw [State.ringWrite_below h]
  · rw [State.ringWrite_below h, State.setBucket_reg]
  · rw [State.bump_below h _ (by decide), State.setBucket_reg]

omit h in
theorem State.raiseVector_reg (q v : Nat) : (s.raiseVector q v).reg r u i = s.reg r u i :=
  State.reg_congr (by simp) r u i

theorem State.routeEvent_below (n b : Nat) : (s.routeEvent t n b).reg r u i = s.reg r u i := by
  have hput := State.putField_below h s (q := .rteRouteEvt) (by decide) t n b b 1
  simp only [State.routeEvent]
  repeat' split
  · rfl
  · exact hput
  · rw [State.raiseVector_reg, hput]

theorem State.regionEvent_below (n b : Nat) : (s.regionEvent t p n b).reg r u i = s.reg r u i := by
  have hput := State.putField_below h s (q := .capRgnEvt) (by decide) t (64 * p + n) b b 1
  simp only [State.regionEvent]
  repeat' split
  · rfl
  · exact hput
  · rw [State.raiseVector_reg, hput]

theorem State.countRewind_below (n c : Nat) : (s.countRewind t p n c).reg r u i = s.reg r u i := by
  simp only [State.countRewind, State.lossRecord]
  rw [State.annal_below h, State.regionEvent_below h, State.bump_below h _ (by decide)]
  rfl

theorem State.rewind_below (n c : Nat) : (s.rewind t p n c).reg r u i = s.reg r u i := by
  have hleft (b : Bool) (x : State) (hx : x.reg r u i = s.reg r u i) :
      (if b then x else x.countRewind t p n c).reg r u i = s.reg r u i := by
    split
    · exact hx
    · rw [State.countRewind_below h, hx]
  unfold State.rewind
  dsimp only
  split
  · rfl
  · exact hleft _ _ rfl

theorem State.rewindPort_below (c : Nat) : (s.rewindPort t p c).reg r u i = s.reg r u i :=
  foldl_same (fun s => s.reg r u i) _ (fun s n => State.rewind_below h t p s n c) _ s

theorem State.rewindUntagged_below : (s.rewindUntagged t p).reg r u i = s.reg r u i := by
  have hlive (b : Bool) (n : Nat) (x : State) : (if b then x.countRewind t p n 5 else x).reg r u i = x.reg r u i := by
    split
    · exact State.countRewind_below h t p x n 5
    · rfl
  refine foldl_same (fun s => s.reg r u i) _ (fun s g => ?_) _ s
  dsimp only
  rw [hlive]
  rfl

theorem State.routesDown_below : (s.routesDown t p).reg r u i = s.reg r u i := by
  simp only [State.routesDown, State.endRoute]
  split
  · rfl
  · rw [State.routeEvent_below h]
    split <;> rfl

theorem State.leaveActive_below : (s.leaveActive t p).reg r u i = s.reg r u i := by
  simp only [State.leaveActive]
  split
  · rw [State.rewindPort_below h, State.rewindUntagged_below h, State.routesDown_below h]
  · rfl

theorem State.idleLanes_below (l : List Nat) : (s.idleLanes t l).reg r u i = s.reg r u i :=
  foldl_same (fun s => s.reg r u i) _ (fun s j => State.putReg_below h s (by decide) t j 0) l s

theorem State.restartPort_below : (s.restartPort t p).reg r u i = s.reg r u i := by
  simp only [State.restartPort]
  rw [State.idleLanes_below h]
  exact State.leaveActive_below h t p s

end

end Sys2Proof.Machine
end

section
/-! Settles the statement of the link registers: bonding, the enable of a port, its key words and a rekey (R238, R239, R252,
R272, R276). -/

namespace Sys2Proof.Machine

set_option Elab.async false

/-! ## A host's write of SLK_BOND and SLK_PORT_CFG -/

theorem State.writeReg_reg (r : Reg) (u i : Nat) (rwl : Bool) (w : Nat) (s : State) :
    (s.writeReg r u i rwl w).reg r u i = r.desc.write rwl (s.reg r u i) w % 2 ^ 32 := by
  have hput := State.putReg_reg r u i (r.desc.write rwl (s.reg r u i) w) s
  simp only [State.writeReg]
  split
  · exact hput
  · exact hput

theorem State.writeReg_reg_ne {r q : Reg} {u v i j : Nat} (h : regKey q v j ≠ regKey r u i) (rwl : Bool) (w : Nat) (s : State) :
    (s.writeReg r u i rwl w).reg q v j = s.reg q v j := by
  have hput := State.putReg_reg_ne (w := r.desc.write rwl (s.reg r u i) w) h s
  simp only [State.writeReg]
  split
  · exact hput
  · exact hput

/-- A field that is written over the low bits of a word adds its own bits of that word. -/
theorem setBits_low (v : Nat) {hi lo : Nat} (h : lo ≤ hi + 1) :
    setBits (v % 2 ^ lo) hi lo (bits v hi lo) = v % 2 ^ (hi + 1) := by
  have hnone : v % 2 ^ lo / 2 ^ lo = 0 := Nat.div_eq_of_lt (Nat.mod_lt v (Nat.two_pow_pos lo))
  have hsplit : v % 2 ^ (hi + 1) = v % 2 ^ lo + 2 ^ lo * (v / 2 ^ lo % 2 ^ (hi + 1 - lo)) := by
    rw [← Nat.mod_mul, ← pow_add, Nat.add_sub_cancel' h]
  simp only [setBits, bits, hnone, Nat.zero_mod, Nat.zero_mul, Nat.sub_zero, Nat.mod_mod, hsplit, Nat.mul_comm]

/-- Every bit that SLK_BOND has is written (R279). -/
theorem slkBond_write (rwl : Bool) (old v : Nat) : (Reg.desc .slkBond).write rwl old v = v % 2 ^ 24 := by
  have hdesc : (Reg.desc .slkBond).fields = [⟨2, 0, .rw, 0, .n⟩, ⟨5, 3, .rw, 0, .n⟩, ⟨8, 6, .rw, 0, .n⟩, ⟨11, 9, .rw, 0, .n⟩,
    ⟨14, 12, .rw, 0, .n⟩, ⟨17, 15, .rw, 0, .n⟩, ⟨20, 18, .rw, 0, .n⟩, ⟨23, 21, .rw, 0, .n⟩] := rfl
  have hfirst : setBits 0 2 0 (bits v 2 0) = v % 2 ^ (2 + 1) := by
    rw [← setBits_low v (Nat.zero_le (2 + 1)), pow_zero, Nat.mod_one]
  have hnext {hi lo : Nat} (h : lo ≤ hi + 1) := setBits_low v h
  simp only [RDesc.write, hdesc, List.foldl_cons, List.foldl_nil, RField.written, hfirst, Nat.reduceAdd, Nat.reduceLeDiff,
    hnext]

/-- The enable of a port is written (R279). -/
theorem slkPortCfg_write_enable (rwl : Bool) (old v : Nat) :
    bits ((Reg.desc .slkPortCfg).write rwl old v % 2 ^ 32) 31 31 = bits v 31 31 := by
  have hdesc : (Reg.desc .slkPortCfg).fields = [⟨31, 31, .rw, 0, .n⟩, ⟨30, 30, .rw, 0, .n⟩, ⟨29, 29, .rw, 0, .n⟩,
    ⟨7, 0, .rw, 4, .n⟩] := rfl
  have hword (w : Nat) : bits (w % 2 ^ 32) 31 31 = bits w 31 31 := by simp only [bits]; omega
  have h7 (w x : Nat) : bits (setBits w 7 0 x) 31 31 = bits w 31 31 := by simp only [setBits, bits]; omega
  have h29 (w x : Nat) : bits (setBits w 29 29 x) 31 31 = bits w 31 31 := by simp only [setBits, bits]; omega
  have h30 (w x : Nat) : bits (setBits w 30 30 x) 31 31 = bits w 31 31 := by simp only [setBits, bits]; omega
  have h31 (x : Nat) : bits (setBits 0 31 31 (bits x 31 31)) 31 31 = bits x 31 31 := by simp only [setBits, bits]; omega
  simp only [RDesc.write, hdesc, List.foldl_cons, List.foldl_nil, RField.written, hword, h7, h29, h30, h31]

/-- A threshold of 0, which is not taken, leaves the enable that is written (R257). -/
theorem bits_setBits_threshold (w v : Nat) : bits (setBits w 7 0 v) 31 31 = bits w 31 31 := by
  simp only [setBits, bits]
  omega

/-! ## Bonding (R238, R239) -/

theorem slkBond_belowLanes {t : Nat} (ht : t < 8) : belowLanes .slkBond t 0 := by
  have hidx : Reg.ctorIdx .slkBond + 1 ≤ Reg.ctorIdx .slkLane := by decide
  simp only [belowLanes, regKey]
  omega

theorem slkPortCfg_belowLanes {t p : Nat} (ht : t < 8) (hp : p < 8) : belowLanes .slkPortCfg t p := by
  have hidx : Reg.ctorIdx .slkPortCfg + 1 ≤ Reg.ctorIdx .slkLane := by decide
  simp only [belowLanes, regKey]
  omega

/-- A bonding that is taken is what SLK_BOND then holds: the ports that restart leave it. -/
theorem State.writeBond_reg {a t v : Nat} {s : State} (hbad : bondBad v = false)
    (huse : (s.bondChanged t v).any (fun p => s.portInUse t p) = false) (ht : t < 8) :
    (s.writeBond a t v).reg .slkBond t 0 = v % 2 ^ 24 := by
  simp only [State.writeBond, hbad, huse, Bool.or_self, Bool.false_eq_true, if_false]
  rw [foldl_same (fun s => s.reg .slkBond t 0) _ (fun s p => State.restartPort_below (slkBond_belowLanes ht) t p s), State.writeReg_reg,
    slkBond_write, Nat.mod_eq_of_lt (Nat.lt_trans (Nat.mod_lt v (by decide)) (by decide))]

/-! ## The enable of a port (R252) -/

theorem State.hasTile_congr {s t : State} (hm : t.member = s.member) (k : Nat) : t.hasTile k = s.hasTile k := by
  unfold State.hasTile State.tiles
  rw [hm]

theorem State.linkRuns_congr {s t : State} (hm : t.member = s.member) (hp : t.pwr = s.pwr) (hf : t.flt = s.flt) (k : Nat) :
    t.linkRuns k = s.linkRuns k := by
  simp only [State.linkRuns, State.coreUp, State.tileRuns, State.hasTile_congr hm, hp, hf]

theorem State.hasSport_congr {s t : State} {k : Nat} (hm : t.member = s.member) (hr : t.reg .slkBond k 0 = s.reg .slkBond k 0)
    (p : Nat) : t.hasSport k p = s.hasSport k p := by
  simp only [State.hasSport, State.hasTile_congr hm, State.width, State.field, hr]

theorem State.lt_eight_of_hasSport {s : State} {k p : Nat} (h : s.hasSport k p = true) : k < 8 ∧ p < 8 := by
  simp only [State.hasSport, Bool.and_eq_true, decide_eq_true_eq] at h
  exact ⟨lt_eight_of_hasTile h.1.1, h.1.2⟩

theorem State.hasTile_of_hasSport {s : State} {k p : Nat} (h : s.hasSport k p = true) : s.hasTile k = true := by
  simp only [State.hasSport, Bool.and_eq_true] at h
  exact h.1.1

/-- A port that is enabled, and whose tile's links run, restarts in RESET, from now on (R252). -/
theorem State.restartPort_enabled {k p : Nat} {s : State} (hp : s.hasSport k p = true) (hr : s.linkRuns k = true)
    (hon : s.field .slkPortCfg k p 31 31 = 1) :
    (s.restartPort k p).sport k p = (s.sport k p).fresh s.now := by
  obtain ⟨hk8, hp8⟩ := State.lt_eight_of_hasSport hp
  have hfield : (s.leaveActive k p).field .slkPortCfg k p 31 31 = 1 := by
    rw [← hon]
    exact congrArg (bits · 31 31) (State.leaveActive_below (slkPortCfg_belowLanes hk8 hp8) k p s)
  have hport : (s.leaveActive k p).hasSport k p = true :=
    (State.hasSport_congr (by simp) (State.leaveActive_below (slkBond_belowLanes hk8) k p s) p).trans hp
  have hruns : (s.leaveActive k p).linkRuns k = true := (State.linkRuns_congr (by simp) (by simp) (by simp) k).trans hr
  simp [State.restartPort, hfield, hport, hruns]

/-- The word of SLK_PORT_CFG that a write stores: a threshold of 0 is not taken (R257). -/
def State.portCfgWord (s : State) (t p v : Nat) : Nat :=
  if bits v 7 0 = 0 then setBits v 7 0 (s.field .slkPortCfg t p 7 0) else v

theorem State.portCfgWord_enable (s : State) (t p v : Nat) : bits (s.portCfgWord t p v) 31 31 = bits v 31 31 := by
  unfold State.portCfgWord
  split
  · exact bits_setBits_threshold ..
  · rfl

theorem State.writePortCfg_eq (t p v : Nat) (s : State) :
    s.writePortCfg t p v =
      if bits v 31 31 = s.field .slkPortCfg t p 31 31 then s.writeReg .slkPortCfg t p false (s.portCfgWord t p v)
      else (s.writeReg .slkPortCfg t p false (s.portCfgWord t p v)).restartPort t p := by
  rw [← State.portCfgWord_enable s t p v]
  rfl

/-- A port that a write enables is in RESET from then on. -/
theorem State.writePortCfg_enables {k p v : Nat} {s : State} (hp : s.hasSport k p = true) (hr : s.linkRuns k = true)
    (hoff : s.field .slkPortCfg k p 31 31 = 0) (hv : bits v 31 31 = 1) :
    ((s.writePortCfg k p v).sport k p).st = .reset ∧ ((s.writePortCfg k p v).sport k p).since = s.now := by
  obtain ⟨hk8, hp8⟩ := State.lt_eight_of_hasSport hp
  have hne : regKey .slkBond k 0 ≠ regKey .slkPortCfg k p := regKey_ne (by decide) (by omega) (by omega) (by omega) (by omega)
  have hon : (s.writeReg .slkPortCfg k p false (s.portCfgWord k p v)).field .slkPortCfg k p 31 31 = 1 := by
    rw [← hv, ← State.portCfgWord_enable s k p v, State.field, State.writeReg_reg, slkPortCfg_write_enable]
  have hport : (s.writeReg .slkPortCfg k p false (s.portCfgWord k p v)).hasSport k p = true :=
    (State.hasSport_congr (by simp) (State.writeReg_reg_ne hne ..) p).trans hp
  have hruns : (s.writeReg .slkPortCfg k p false (s.portCfgWord k p v)).linkRuns k = true :=
    (State.linkRuns_congr (by simp) (by simp) (by simp) k).trans hr
  rw [State.writePortCfg_eq, if_neg (by omega), State.restartPort_enabled hport hruns hon]
  exact ⟨rfl, by simp [SPort.fresh]⟩

/-! ## Keys (R272, R276) -/

theorem tileBit_getLsbD : ∀ i < 8, (tileBit i).getLsbD i = true := by decide

@[simp] theorem State.topDown_sport (t g c n k p : Nat) (s : State) : (s.topDown t g c n).sport k p = s.sport k p :=
  State.sport_congr (by simp) k p

theorem SPort.returned_rekeyAt (v : SPort) : v.returned.rekeyAt = v.rekeyAt := by
  simp only [SPort.returned]
  split <;> rfl

/-- A CTRL flit, sent or waiting, leaves the group counter that a rekey names. -/
theorem State.sendCtrl_rekeyAt (k p sub : Nat) (l : Line) (s : State) :
    ((s.sendCtrl k p sub l).sport k p).rekeyAt = (s.sport k p).rekeyAt := by
  simp only [State.sendCtrl]
  split
  · rw [State.setSport_sport]
  · simp [State.spendCtrl, State.putCtrl, State.sendFlit, SPort.returned_rekeyAt]

/-- A rekey of an ACTIVE port that runs GCM names the 16th group on, and is sent now. -/
theorem State.rekeyPort_sport {k p : Nat} {s : State} (hh : s.cry.haltCause = 0) (hin : s.portIn k p .active = true)
    (hg : (s.sport k p).gcm = true) :
    ((s.rekeyPort k p).sport k p).rekeyAt = some ((s.sport k p).tx.ctr + 16) ∧
    ((s.rekeyPort k p).sport k p).rekeySent = some s.now := by
  obtain ⟨hr, hst⟩ := (State.portIn_iff k p s .active).mp hin
  simp [State.rekeyPort, hh, hr, hst, hg, State.startRekeyPort, State.sendCtrl_rekeyAt]

/-! ## The statement -/

theorem State.takesWrite_cry {s : State} {a : Nat} (h : s.takesWrite a = true) : s.cry.haltCause = 0 := by
  simp only [State.takesWrite, Bool.and_eq_true, beq_iff_eq] at h
  exact h.2

/-- Settles O35: a bonding by `State.writeBond_reg`, an enable by `State.writePortCfg_enables`, a rekey by
`State.rekeyPort_sport`. -/
theorem linkRegisters : Obligations.LinkRegisters := by
  unfold Obligations.LinkRegisters
  refine ⟨?badBond, ?bond, ?enable, ?sameEnable, ?key, ?rekey, ?noRekey⟩
  case badBond =>
    intro a k w s ha hk hbad
    refine (tileWrite_open a k _ _ s ha hk rfl).trans (congrArg _ ?_)
    exact if_pos (Bool.or_eq_true_iff.mpr (.inl hbad))
  case bond =>
    intro a k p w s ha hk hp hbad huse
    refine ⟨_, tileWrite_open a k _ _ s ha hk rfl, ?_⟩
    have hreg := State.writeBond_reg (a := a) hbad huse (lt_eight_of_hasTile hk)
    exact congrArg (fun v => widthOf (bits v (3 * p + 2) (3 * p))) (hreg.trans (Nat.mod_mod ..))
  case enable =>
    intro a k p w s ha hp hoff hon hr
    obtain ⟨hk8, hp8⟩ := State.lt_eight_of_hasSport hp
    refine ⟨_, tileWrite_open a k _ _ s ha (State.hasTile_of_hasSport hp) (decide_eq_true hp8), ?_⟩
    exact State.writePortCfg_enables (s := s.commitStore) hp hr hoff hon
  case sameEnable =>
    intro a k p w s ha hp hsame
    obtain ⟨hk8, hp8⟩ := State.lt_eight_of_hasSport hp
    refine ⟨_, tileWrite_open a k _ _ s ha (State.hasTile_of_hasSport hp) (decide_eq_true hp8), ?_⟩
    have hlnk : (s.commitStore.writeReg .slkPortCfg k p false (s.commitStore.portCfgWord k p w.toNat)).lnk = s.lnk := by simp
    exact (congrArg State.lnk ((State.writePortCfg_eq k p w.toNat s.commitStore).trans (if_pos hsame))).trans hlnk
  case key =>
    intro a k p i w s ha hk hp hi
    refine ⟨_, tileWrite_open a k _ _ s ha hk (decide_eq_true ⟨hp, hi⟩), ?_⟩
    refine ⟨?_, ?_⟩
    · exact (State.putReg_reg ..).trans (Nat.mod_eq_of_lt w.isLt)
    · simp [State.writeKey, tileBit_getLsbD i hi]
  case rekey =>
    intro a k p s ha hk hp hin hg
    refine ⟨_, tileWrite_open a k _ _ s ha hk (decide_eq_true hp), ?_⟩
    exact State.rekeyPort_sport (s := s.commitStore) (State.takesWrite_cry ha) hin hg
  case noRekey =>
    intro a k p s ha hk hp hg
    refine (tileWrite_open a k _ _ s ha hk (decide_eq_true hp)).trans (congrArg _ ?_)
    simp [State.rekeyPort, hg]

end Sys2Proof.Machine
end

section
/-! The states and flits of the refutations of the stream link: port 0 of tile 0 of a part that is up, bonded with one lane. -/

namespace Sys2Proof.Machine

set_option Elab.async false

/-- The part with SLK_BOND of tile 0 at width 1 for port 0, and what that port holds. -/
def linkedPart (v : SPort) : State := (readyPart.putReg .slkBond 0 0 1).setSport 0 0 v

/-- A flit with bytes 0 to 5 of its header as a number, and the CRC that they have (R259). -/
def soundFlit (low : Nat) (payload : Line) (codewords : List (List Nat)) : Flit :=
  { hdr := BitVec.ofNat 64 (low + 2 ^ 48 * crc16 (leBytes 6 low)), payload, codewords }

end Sys2Proof.Machine
end

section
/-! The time that a GCM group waits for its TAG: it counts from the group's last flit as it came (R273, R274). -/

namespace Sys2Proof.Machine

set_option Elab.async false

/-- Port 0 of tile 0 runs GCM, and has just received the first flit of a group. -/
def newGroup : State :=
  { linkedPart { st := .active, gcm := true,
                 rx := { flits := [{ seq := 0, record := none, aad := 0, payload := 0, came := 293 }] } } with now := 293 }

theorem newGroup_waits :
    newGroup.hasSport 0 0 = true ∧ newGroup.portIn 0 0 .active = true ∧ (newGroup.sport 0 0).gcm = true ∧
    (newGroup.sport 0 0).rx.flits.isEmpty = false ∧ (newGroup.sport 0 0).rx.stamp + 293 ≤ newGroup.now := by
  decide +kernel

/-- The wait of a group whose last flit came less than 293 ns ago is not over (R274). -/
theorem execTagTimeout_early {k p : Nat} {s : State}
    (h : ∀ f ∈ (s.sport k p).dueGroup.getLast?, s.now < f.came + 293) : execTagTimeout k p s = .next s := by
  unfold execTagTimeout withUnit
  dsimp only
  split
  · split
    · next f hf => rw [if_neg (by simp [Nat.not_le.mpr (h f hf)])]
    · rfl
  · rfl

theorem newGroup_early : ∀ f ∈ (newGroup.sport 0 0).dueGroup.getLast?, newGroup.now < f.came + 293 := by decide +kernel

theorem newGroup_active : (newGroup.sport 0 0).st = .active := by decide +kernel

/-- Refutes O39: its clause of the late TAG counts from `rx.stamp`, which a received flit does not set; the 293 ns of R274 run
from the group's last flit, and a group that began just now still waits. -/
theorem not_gcmGroupsVerify : ¬ Obligations.GcmGroupsVerify := by
  unfold Obligations.GcmGroupsVerify
  intro h
  obtain ⟨_, _, _, hlate, _⟩ := h
  obtain ⟨hport, hin, hgcm, hflits, hstamp⟩ := newGroup_waits
  have hi := hlate 0 0 newGroup hport hin hgcm hflits hstamp
  change Yields (execTagTimeout 0 0 newGroup) _ at hi
  rw [execTagTimeout_early newGroup_early, yields_next_iff, newGroup_active] at hi
  exact absurd hi (by decide)

end Sys2Proof.Machine
end

section
/-! A CONFIG that fails, and the codeword that its flit ends in (R244, R256, R257). -/

namespace Sys2Proof.Machine

set_option Elab.async false

/-! ## Codewords -/

theorem gfMul_zero_left (m p b : Nat) : gfMul m p 0 b = 0 := by
  refine List.foldlRecOn (List.range m) _ rfl (motive := (· = 0)) (fun acc hacc i _ => ?_)
  have hm : 0 < 2 ^ m := Nat.two_pow_pos m
  simp [hacc]

/-- The word of zeros is a codeword of every code. -/
theorem RsCode.holds_zeros (c : RsCode) (n : Nat) : c.holds (List.replicate n 0) = true := by
  have hsyn (i : Nat) : c.syndrome (List.replicate n 0) i = 0 := by
    refine List.foldlRecOn _ _ rfl (motive := (· = 0)) (fun acc hacc x hx => ?_)
    rw [hacc, gfMul_zero_left, List.eq_of_mem_replicate hx]
    rfl
  simp [RsCode.holds, hsyn]

/-- A flit whose one codeword is that of zeros needs no correction. -/
theorem Flit.zeros_clean {f : Flit} {n : Nat} (h : f.codewords = [List.replicate n 0]) : f.lost = 0 ∧ f.fixed = 0 := by
  have hholds := RsCode.holds_zeros linkCode n
  have hcorrected : corrected (List.replicate n 0) = some (List.replicate n 0) := by
    simp only [corrected, RsCode.correct, hholds, if_true]
  simp [Flit.lost, Flit.fixed, h, hcorrected, hholds]

theorem SPort.newCws_fixed (v : SPort) {f : Flit} (h : f.fixed = 0) : (v.newCws f).fixed = 0 := by
  unfold SPort.newCws
  split
  · next c l hl =>
    split
    · simp only [Flit.fixed, hl, List.length_eq_zero_iff, List.filter_eq_nil_iff] at h ⊢
      exact fun w hw => h w (List.mem_cons_of_mem c hw)
    · exact h
  · exact h

/-- A flit without a corrected codeword only leaves its last one with the port (R257). -/
theorem State.countFixed_clean {k p : Nat} {f : Flit} {s : State} (h : f.fixed = 0) :
    s.countFixed k p f =
      s.setSport k p { s.sport k p with lastCw := f.codewords.getLast?.getD (s.sport k p).lastCw } := by
  simp [State.countFixed, SPort.newCws_fixed _ h]

/-! ## The refutation -/

theorem State.backToLock_lastCw (k p : Nat) (s : State) : ((s.backToLock k p).sport k p).lastCw = (s.sport k p).lastCw := by
  simp [State.backToLock]

/-- A CONFIG of another version fails (R256). -/
theorem State.configFails_version {k p : Nat} {b : ConfigBody} {s : State} (h : b.version ≠ 0x0100) :
    s.configFails k p b = true := by
  have hb : (b.version != 0x0100) = true := bne_iff_ne.mpr h
  rw [State.configFails, hb]
  rfl

/-- A CONFIG that fails takes the port back to LOCK, once its codewords have been counted (R256, R270). -/
theorem execConfig_fails {k p : Nat} {f : Flit} {s : State} (hp : s.hasSport k p = true) (hin : s.portIn k p .config = true)
    (hlost : f.lost = 0) (hcrc : f.hcrcOk = true) (hlegal : f.legal .ctrl = true) (hid : f.id = 1)
    (hfails : (s.countFixed k p f).configFails k p (configOf f.payload) = true) :
    execConfig k p f s = .next ((s.countFixed k p f).backToLock k p) := by
  simp [execConfig, hp, hin, State.configFlit, State.ofSubtype, hlost, hcrc, hlegal, hid, hfails]

/-- Port 0 of tile 0 in CONFIG. -/
def exchanging : State := linkedPart { st := .config }

/-- A CONFIG of version 0 in a codeword of zeros. -/
def oldConfig : Flit := soundFlit (FlitKind.ctrl.code + 2 ^ 8 * 1) 0 [List.replicate 544 0]

theorem oldConfig_legal : oldConfig.hcrcOk = true ∧ oldConfig.legal .ctrl = true ∧ oldConfig.id = 1 := by decide +kernel

theorem exchanging_awaits : exchanging.hasSport 0 0 = true ∧ exchanging.portIn 0 0 .config = true := by decide +kernel

theorem oldConfig_version : (configOf oldConfig.payload).version ≠ 0x0100 := by decide +kernel

/-- The port had kept no codeword before. -/
theorem oldConfig_lastCw :
    oldConfig.codewords.getLast?.getD (exchanging.sport 0 0).lastCw ≠ (exchanging.sport 0 0).lastCw := by
  decide +kernel

/-- Refutes O37: a CONFIG that fails leaves more than the state LOCK: the port keeps the last codeword of its flit, so that the
next flit, which may begin in it, does not count it twice (R257, R270). -/
theorem not_configExchangeRule : ¬ Obligations.ConfigExchangeRule := by
  unfold Obligations.ConfigExchangeRule
  intro h
  obtain ⟨hfail, _⟩ := h
  obtain ⟨hlost, hfixed⟩ := Flit.zeros_clean (f := oldConfig) rfl
  obtain ⟨hcrc, hlegal, hid⟩ := oldConfig_legal
  obtain ⟨hport, hin⟩ := exchanging_awaits
  have hkept := State.countFixed_clean (k := 0) (p := 0) (s := exchanging) hfixed
  have hrun := execConfig_fails hport hin hlost hcrc hlegal hid (State.configFails_version oldConfig_version)
  have hi := hfail 0 0 oldConfig exchanging hport hin hlost hfixed hcrc hlegal hid (State.configFails_version oldConfig_version)
  change execConfig 0 0 oldConfig exchanging = _ at hi
  rw [hrun, hkept] at hi
  injection hi with hi
  have hlast := congrArg (fun t => (t.sport 0 0).lastCw) hi
  simp only [State.backToLock_lastCw, State.setSport_sport] at hlast
  exact absurd hlast oldConfig_lastCw

end Sys2Proof.Machine
end

section
/-! A REQ that returns a CTRL credit, and the flit that leaves with it (R264, R265, R292). -/

namespace Sys2Proof.Machine

set_option Elab.async false

/-- A route of port 0 of one segment of two lines. -/
def twoLines : RouteDef :=
  { port := 0, lat := 280, depth := 0, epoch := 1,
    segs := [{ line := 0, loopTo := 0, lines := 2, kind := 2, land := false, next := 0, rep := 0, rsv := false }] }

/-- Route 0 of tile 0 is armed. Its port holds no CTRL credit, so that a REQ_LOST waits; one REQ credit is with the peer, and
one is freed and not yet returned. -/
def waitingLost : State :=
  (linkedPart { st := .active, reqOut := 1, freed := [2], ctrlQ := [(5, 0)] }).setRoute 0 0 { st := .armed, defn := some twoLines }

/-- A JUMP to the start of route 0 that returns a CTRL credit. -/
def jumpReq : Flit := soundFlit (FlitKind.req.code + 2 ^ 39 * 3 + 2 ^ 41 * 1) (payloadOf [(1, 2)]) []

theorem jumpReq_legal :
    jumpReq.lost = 0 ∧ jumpReq.hcrcOk = true ∧ jumpReq.legal .req = true ∧ jumpReq.route = 0 ∧
    jumpReq.seq = (waitingLost.sport 0 0).rxSeq.toNat := by
  decide +kernel

theorem waitingLost_takesReq :
    waitingLost.hasSport 0 0 = true ∧ waitingLost.portIn 0 0 .active = true ∧ waitingLost.flt.inj = [] ∧
    (waitingLost.sport 0 0).reqOut = 1 ∧ (waitingLost.sport 0 0).gcm = false ∧
    waitingLost.pathOf 0 0 (reqOf jumpReq.route 0 jumpReq.payload) = some (some { seg := 0, off := 0, stack := [] }) ∧
    (waitingLost.route 0 jumpReq.route).defn = some twoLines := by
  decide +kernel

/-- `waitingLost` after the REQ. -/
def decidedReq : State :=
  waitingLost.flit 0 0 jumpReq .req .reqHdrGood (fun l s => s.decideReq 0 0 (reqOf jumpReq.route 0 l))

/-- The REQ_LOST has left with the freed REQ credit: as many are with the peer as before. -/
theorem decidedReq_credits : (decidedReq.sport 0 0).reqOut = 1 := by decide +kernel

/-- Refutes O38: a REQ may return a CTRL credit, with which a CTRL flit that waited leaves, and that flit returns a REQ credit
that was free (R265); the REQ credits with the peer are then as many as before. -/
theorem not_flitsInOrder : ¬ Obligations.FlitsInOrder := by
  unfold Obligations.FlitsInOrder
  intro h
  obtain ⟨_, _, hreq, _⟩ := h
  obtain ⟨hlost, hcrc, hlegal, _, hseq⟩ := jumpReq_legal
  obtain ⟨hport, hin, hinj, hout, hgcm, hpath, hdefn⟩ := waitingLost_takesReq
  have hi := hreq 0 0 0 jumpReq _ twoLines waitingLost hport hin hinj hlost hcrc hlegal hseq (by simp [hout]) hgcm hpath hdefn
  have hrun : exec (.req 0 0 0 jumpReq) waitingLost = .next decidedReq := withUnit_of _ _ _ hport
  rw [hrun, yields_next_iff, decidedReq_credits, hout] at hi
  obtain ⟨_, hcredit, _⟩ := hi
  exact absurd hcredit (by decide)

end Sys2Proof.Machine
end

section
/-! The first DATA flit of a path, and the pad words ahead of it (R247, R251, R293). -/

namespace Sys2Proof.Machine

set_option Elab.async false

/-- Route 0 of tile 0 starts on port 0, whose stream has sent no word yet; its first line is in the buffer. -/
def startingPath : State :=
  ((linkedPart { st := .active, dataCr := 1 }).setRoute 0 0 { st := .active, defn := some twoLines }).setEngine 0 0
    { current := some 0, pos := some { seg := 0, off := 0, stack := [] }, pathStart := true, buffer := [(0, zeroContent)] }

theorem startingPath_due :
    startingPath.hasSport 0 0 = true ∧ startingPath.coreUp = true ∧ startingPath.tileRuns 0 = true ∧
    (startingPath.sport 0 0).st = .active ∧ (startingPath.route 0 0).defn = some twoLines ∧
    (startingPath.route 0 0).st = .active ∧ (startingPath.sport 0 0).dataCr ≠ 0 ∧ startingPath.out = [] ∧
    (startingPath.engine 0 0) =
      { current := some 0, pos := some { seg := 0, off := 0, stack := [] }, pathStart := true, buffer := [(0, zeroContent)] } := by
  decide +kernel

/-- The flit that departs in cycle 1 begins with word 1, so that one pad word goes ahead of it. -/
theorem startingPath_pads : (startingPath.sendData 0 0 1).out.length = 2 := by decide +kernel

/-- Refutes O24: the first DATA flit of a path is not all that leaves: pad words go ahead of it, up to its departure word
(R251, R293). -/
theorem not_portEnginesWalkTheirRoutes : ¬ Obligations.PortEnginesWalkTheirRoutes := by
  unfold Obligations.PortEnginesWalkTheirRoutes
  intro h
  obtain ⟨hsend, _⟩ := h
  obtain ⟨hport, hup, hruns, hst, hdefn, hactive, hcr, hout, he⟩ := startingPath_due
  have hi := hsend 0 0 1 0 0 { seg := 0, off := 0, stack := [] } twoLines { seg := 0, off := 1, stack := [] } zeroContent []
    startingPath hport hup hruns hst (by rw [he]) (by rw [he]) hdefn rfl (by rw [he]) (by rw [he]) rfl hactive hcr (by rw [he])
  have hrun : exec (.dataFlitSend 0 0 1) startingPath = .next (startingPath.sendData 0 0 1) := by
    change execDataFlitSend 0 0 1 startingPath = _
    simp [execDataFlitSend, hport, hup, hruns, hst]
  rw [hrun, yields_next_iff] at hi
  obtain ⟨_, _, _, _, _, hflit⟩ := hi
  have hlen := startingPath_pads
  rw [hflit, hout, List.nil_append, List.length_singleton] at hlen
  exact absurd hlen (by decide)

end Sys2Proof.Machine
end

section
/-! ROUTE_RETIRE of an ARMED route by a command whose reply is discarded: the event bit, and where the discarded reply is counted
(R64, R279, R303). -/

namespace Sys2Proof.Machine

set_option Elab.async false

/-- ROUTE_RETIRE of a route that has a definition and is not RETIRING retires it by its state, and answers success. -/
theorem exec_routeRetire_retires {c : Ctx} {k m : Byte} {r : BitVec 16} {d : RouteDef} {s : State}
    (h : s.accepts 0x22 c (routeRetireParams k r m) = true) (hk : s.hasTile k.toNat = true) (hr : r.toNat < 1024)
    (hm : m.toNat < 2) (hd : (s.route k.toNat r.toNat).defn = some d) (hst : (s.route k.toNat r.toNat).st ≠ .retiring) :
    exec (.routeRetire c k r m) s =
      .next ((s.retire k.toNat r.toNat m.toNat d).reply (srcStream k.toNat) c .done 0) := by
  rw [exec_accepted h (by omega) rfl]
  simp [hk, hd, hst, Nat.not_le.mpr hr, Nat.not_le.mpr hm]

/-- ROUTE_RETIRE of route 0 of tile 0 in mode 0, dropped by a reset, under a port number whose copy of RING_FLR_DROPS has the
key of RTE_ROUTE_EVT of that route. -/
def droppedRetire : Cmd :=
  { port := 16 * (Reg.ctorIdx .rteRouteEvt - Reg.ctorIdx .ringFlrDrops), sq := 0, idx := 0,
    packet := packetBits 0x22 (routeRetireParams 0 0 0), next := 1, cq := 0, started := true, passed := false, held := false,
    dropped := true }

/-- That command is running, route 0 of tile 0 is ARMED, and the five event bits of the route below `retired` are set. -/
def armedRoute : State :=
  (({ readyPart with host := { readyPart.host with cmds := [droppedRetire] } } : State).setRoute 0 0
    { st := .armed, defn := some twoLines }).putReg .rteRouteEvt 0 0 31

theorem armedRoute_accepts : armedRoute.accepts 0x22 droppedRetire.ctx (routeRetireParams 0 0 0) = true := by decide +kernel

theorem armedRoute_armed :
    armedRoute.hasTile 0 = true ∧ (armedRoute.route 0 0).defn = some twoLines ∧ (armedRoute.route 0 0).st = .armed := by
  decide +kernel

/-- Retiring the route sets bit 5 of its events, and the discarded reply counts the register that holds them from 63 to 64: the
bit is clear again. -/
theorem armedRoute_event :
    (armedRoute.retire 0 0 0 twoLines).field .rteRouteEvt 0 0 5 5 = 1 ∧
    ((armedRoute.retire 0 0 0 twoLines).reply (srcStream 0) droppedRetire.ctx .done 0).field .rteRouteEvt 0 0 5 5 = 0 := by
  decide +kernel

/-- Refutes O23: the statement leaves the port number of a command free. When the reply of a ROUTE_RETIRE of an ARMED route is
discarded, it is counted in that port's RING_FLR_DROPS (R64); under a port number out of range the count lands in
RTE_ROUTE_EVT of the route, and the retired bit just set is clear in the next state. -/
theorem not_routeTablesAndArming : ¬ Obligations.RouteTablesAndArming := by
  unfold Obligations.RouteTablesAndArming
  intro h
  obtain ⟨_, _, _, _, _, _, hretire, _⟩ := h
  obtain ⟨htile, hdefn, hst⟩ := armedRoute_armed
  have hi := hretire droppedRetire.ctx 0 0 0 twoLines armedRoute armedRoute_accepts htile (by decide) (by decide) hdefn hst
  have hrun := exec_routeRetire_retires armedRoute_accepts htile (by decide) (by decide) hdefn
    (ne_of_eq_of_ne hst (by decide))
  rw [hrun, yields_next_iff] at hi
  obtain ⟨_, hevent, _⟩ := hi
  obtain ⟨_, hclear⟩ := armedRoute_event
  exact absurd (hclear.symm.trans hevent) (by decide)

end Sys2Proof.Machine
end

section
/-! A word of the ingest FIFO whose region number does not fit the six bits of its tag (R317, R318). -/

namespace Sys2Proof.Machine

set_option Elab.async false

/-- A word none of whose bits changed in the FIFO goes to the region that the six bits of its tag name (R317). -/
theorem FWord.changed_zero_region (w : FWord) : (w.changed 0).region = w.region % 64 := by
  have htag : w.tag % 64 = w.region % 64 := by simp only [FWord.tag]; omega
  simpa [FWord.changed, bits] using htag

theorem State.check_uninjected {t id : Nat} {s : State} (h : s.flt.inj = []) : s.check t id = (false, s) := by
  simp [State.check, h]

/-- A word of a region that is CLOSED is discarded: of the state only the FIFO changes (R321). -/
theorem State.takeWord_closed {t p : Nat} {w : FWord} {i : Ingest} {s : State} (h : (s.region t p w.region).st = .closed) :
    s.takeWord t p w i =
      s.setIngest t p { i with skipping := if w.first then i.skipping.filter (· != w.region) else i.skipping } := by
  simp only [State.takeWord, h, BEq.rfl, if_true]

theorem State.ingestWord_closed {t p : Nat} {w : FWord} {i : Ingest} {s : State} (hp0 : s.pwr.pwr = .p0)
    (hinj : s.flt.inj = []) (hpop : (s.ingest t p).pop = some (w, i)) (h : (s.region t p (w.region % 64)).st = .closed) :
    ∃ j, s.ingestWord t p 0 = s.setIngest t p j := by
  have hword : s.ingestWord t p 0 = s.takeWord t p (w.changed 0) i := by
    have hparity : parityOk (0#82) = true := by decide
    simp [State.ingestWord, hp0, hpop, State.check_uninjected hinj, hparity]
  exact ⟨_, hword.trans (State.takeWord_closed (by rw [FWord.changed_zero_region, h]))⟩

theorem State.tellFaults_none {s : State} (h : s.cat.faults = []) : s.tellFaults = s := by
  simp [State.tellFaults, h]

/-- INGEST_READ of a word whose tag names a CLOSED region leaves every region of its port as it was. -/
theorem exec_ingestRead_closed {t p : Nat} {w : FWord} {i : Ingest} {s : State} (hport : s.hasSport t p = true)
    (hup : s.coreUp = true) (hruns : s.tileRuns t = true) (hp0 : s.pwr.pwr = .p0) (hinj : s.flt.inj = [])
    (hstuck : s.cat.stuck = false) (hforged : s.cat.forged = none) (hfaults : s.cat.faults = [])
    (hpop : (s.ingest t p).pop = some (w, i)) (h : (s.region t p (w.region % 64)).st = .closed) :
    ∃ u, exec (.ingestRead t p 0) s = .next u ∧ ∀ r, u.region t p r = s.region t p r := by
  obtain ⟨j, hj⟩ := State.ingestWord_closed hp0 hinj hpop h
  refine ⟨((s.setIngest t p j).grantCap t p).undoTriggers, ?_, fun r => ?_⟩
  · have hread : (if s.coreUp && s.tileRuns t then (s.ingestWord t p 0).grantCap t p else s) =
        (s.setIngest t p j).grantCap t p := by rw [hup, hruns, hj]; rfl
    have hcat : ((s.setIngest t p j).grantCap t p).cat = s.cat := by simp [State.setIngest]
    refine (withUnit_of _ _ _ hport).trans (congrArg _ ?_)
    rw [whole_runs _ _ (by rw [hread, hcat, hforged]) (by rw [hread, hcat, hstuck]), hread,
      State.tellFaults_none (by rw [hcat, hfaults])]
  · simp [State.region, State.undoTriggers_kept, State.setIngest]

/-- The first word of a record, under region number 64. -/
def outOfRangeWord : FWord :=
  { region := 64, first := true, last := false, rawWord := false, data := 7, num := 0, flits := 1, bad := 0, tFirst := 0 }

/-- Port 0 of tile 0 has that word in its FIFO. Region 0 of the port is CLOSED; what its number 64 reads, region 0 of port 1, is
OPEN. -/
def outOfRangeFifo : State :=
  ((linkedPart {}).setRegion 0 0 64 { st := .opened }).setIngest 0 0 { words0 := [outOfRangeWord] }

theorem outOfRangeFifo_due :
    outOfRangeFifo.hasSport 0 0 = true ∧ outOfRangeFifo.coreUp = true ∧ outOfRangeFifo.tileRuns 0 = true ∧
    outOfRangeFifo.pwr.pwr = .p0 ∧ outOfRangeFifo.flt.inj = [] ∧
    (outOfRangeFifo.ingest 0 0).pop = some (outOfRangeWord, {}) := by
  decide +kernel

theorem outOfRangeFifo_regions :
    (outOfRangeFifo.region 0 0 64).st = .opened ∧ (outOfRangeFifo.region 0 0 64).eng = none ∧
    (outOfRangeFifo.region 0 0 64).full = false ∧ (outOfRangeFifo.region 0 0 (outOfRangeWord.region % 64)).st = .closed := by
  decide +kernel

theorem outOfRangeFifo_cat :
    outOfRangeFifo.cat.stuck = false ∧ outOfRangeFifo.cat.forged = none ∧ outOfRangeFifo.cat.faults = [] := by
  decide +kernel

/-- Refutes O25: the clause of a record's first word leaves the word's region number free, and the tag of a word holds six bits
of it (R317). The first word of region number 64 goes to region 0, which is CLOSED, and is discarded; no record begins at the
engine under the number that the clause reads. -/
theorem not_captureRegionsAndRecords : ¬ Obligations.CaptureRegionsAndRecords := by
  unfold Obligations.CaptureRegionsAndRecords
  intro h
  obtain ⟨_, _, _, _, _, _, hfirst, _⟩ := h
  obtain ⟨hport, hup, hruns, hp0, hinj, hpop⟩ := outOfRangeFifo_due
  obtain ⟨hopen, heng, hfull, hclosed⟩ := outOfRangeFifo_regions
  obtain ⟨hstuck, hforged, hfaults⟩ := outOfRangeFifo_cat
  obtain ⟨j, hj⟩ := State.ingestWord_closed hp0 hinj hpop hclosed
  have hi := hfirst 0 0 outOfRangeWord {} outOfRangeFifo hport hup hruns hp0 hinj hpop rfl rfl
    (ne_of_eq_of_ne hopen (by decide)) heng hfull (by rw [hj]; exact hstuck) (by rw [hj]; exact hforged)
  obtain ⟨u, hrun, hsame⟩ := exec_ingestRead_closed hport hup hruns hp0 hinj hstuck hforged hfaults hpop hclosed
  rw [hrun, yields_next_iff, hsame] at hi
  exact absurd (heng.symm.trans hi) (by simp)

end Sys2Proof.Machine
end

section
/-! A saddle frame sent while a programmable counter counts the frames of its link (R344, R496, R499). -/

namespace Sys2Proof.Machine

set_option Elab.async false

theorem exec_saddleFrame_up {k j : Nat} {ok : Bool} {s : State} (hk : s.hasTile k = true) (hj : j < 3)
    (hl : s.hasSaddle j = true) (hup : s.coreUp = true)
    (hlink : (tget (fun _ => (0 : BitVec 3)) s.coh.saddleUp k).getLsbD j = true) :
    exec (.saddleFrame k j ok) s = .next (s.frame k j ok) := by
  change execSaddleFrame k j ok s = _
  rw [execSaddleFrame, withUnit_of _ _ _ (by simp [hk, hj, hl]), if_pos (Bool.and_eq_true_iff.mpr ⟨hup, hlink⟩)]

/-- With no injection armed, a pass carries an item and changes nothing. -/
theorem State.passItem_uninjected {t n : Nat} {s : State} (h : s.flt.inj = []) : s.passItem t n = (false, s) := by
  simp [State.passItem, State.check_uninjected h]

/-- A good frame on an uninjected link ends a replay, and the counters of the tile see a frame sent (R344, R499). -/
theorem State.frame_good {t k : Nat} {s : State} (h : s.flt.inj = []) :
    s.frame t k true =
      { (s.pmcEdge t 0x50 k).pmcEdge t 0x52 k with
        coh := { s.coh with replay := tset (fun _ => false) s.coh.replay (linkKey t k) false } } := by
  have hinj : ((s.pmcEdge t 0x50 k).pmcEdge t 0x52 k).flt.inj = [] := by simp [h]
  simp [State.frame, State.passItem_uninjected hinj, State.check_uninjected hinj]

/-- The part with saddle link 0 up at both tiles, and PMC 0 of tile 0 counting the frames sent on it: PMC_CFG enabled, in edge
mode, event 50h, instance 0. -/
def countingPart : State :=
  ({ readyPart with coh := { readyPart.coh with saddleUp := [(0, 1), (1, 1)] } } : State).putReg .pmcCfg 0 0
    (2 ^ 31 + 0x50 * 2 ^ 16)

theorem countingPart_linked :
    countingPart.hasTile 0 = true ∧ countingPart.hasSaddle 0 = true ∧ countingPart.coreUp = true ∧
    (tget (fun _ => (0 : BitVec 3)) countingPart.coh.saddleUp 0).getLsbD 0 = true ∧ countingPart.flt.inj = [] := by
  decide +kernel

theorem countingPart_counts :
    countingPart.pmc.cnt = [] ∧ ((countingPart.pmcEdge 0 0x50 0).pmcEdge 0 0x52 0).pmc.cnt = [(0, 1)] := by
  decide +kernel

/-- Refutes O33: its clause of the good saddle frame leaves the whole state but the replay mark as it was, for every state. A
frame sent is event 50h of the saddle island (R499), so that a programmable counter set to that event rises with it (R496). -/
theorem not_passesCloseAndReopen : ¬ Obligations.PassesCloseAndReopen := by
  unfold Obligations.PassesCloseAndReopen
  intro h
  obtain ⟨_, _, _, _, _, hgood, _⟩ := h
  obtain ⟨htile, hsaddle, hup, hlink, hinj⟩ := countingPart_linked
  obtain ⟨hbefore, hafter⟩ := countingPart_counts
  have hi := hgood 0 0 countingPart htile (by decide) hsaddle hup hlink hinj
  rw [exec_saddleFrame_up htile (by decide) hsaddle hup hlink, State.frame_good hinj] at hi
  injection hi with hi
  have hcnt : ((countingPart.pmcEdge 0 0x50 0).pmcEdge 0 0x52 0).pmc.cnt = countingPart.pmc.cnt :=
    congrArg (fun t => t.pmc.cnt) hi
  rw [hafter, hbefore] at hcnt
  exact absurd hcnt (by decide)

end Sys2Proof.Machine
end

section
/-! What the fuses, the lifecycle and the straps are after every command (R433, R449, R455, R456, R460, R461, R484, R488). -/

namespace Sys2Proof.Machine

/-! ## Steps that leave the locks -/

/-- The straps, the lifecycle and its fuses are as they were. -/
def Locked (s t : State) : Prop :=
  t.pwr.straps = s.pwr.straps ∧ t.cur.lifecycle = s.cur.lifecycle ∧ t.cur.rootGen = s.cur.rootGen ∧
    t.cur.returns = s.cur.returns ∧ t.cur.revoked = s.cur.revoked

theorem Locked.refl (s : State) : Locked s s := ⟨rfl, rfl, rfl, rfl, rfl⟩

theorem Locked.trans {s t u : State} (h : Locked s t) (g : Locked t u) : Locked s u := by
  obtain ⟨h1, h2, h3, h4, h5⟩ := h
  obtain ⟨g1, g2, g3, g4, g5⟩ := g
  exact ⟨g1.trans h1, g2.trans h2, g3.trans h3, g4.trans h4, g5.trans h5⟩

theorem locked_ite {c : Prop} [Decidable c] {s t u : State} (h : Locked s t) (g : Locked s u) :
    Locked s (if c then t else u) := by
  split
  · exact h
  · exact g

theorem foldl_locked {A : Type} {f : State → A → State} (h : ∀ s x, Locked s (f s x)) (l : List A) (s : State) :
    Locked s (l.foldl f s) := by
  induction l generalizing s with
  | nil => exact Locked.refl s
  | cons x l ih => exact (h s x).trans (ih _)

theorem command_locked {opc src : Nat} {c : Ctx} {ps : List Param} {body : State → State} (h : ∀ s, Locked s (body s))
    (s : State) : Locked s (s.command opc src c ps body) := by
  have left : Locked s (s.leaveHead opc c) := by simp [Locked, State.leaveHead_kept]
  unfold State.command
  split
  · simp [Locked, State.enqueue_kept]
  · split
    · split
      · exact left.trans (by simp [Locked])
      · exact left.trans (h _)
    · exact Locked.refl s

/-- A whole operation also raises what it has met, which moves no lock (assumption 99). -/
theorem whole_locked {f : State → State} (h : ∀ s, Locked s (f s)) (s : State) : Locked s (s.whole f) :=
  ⟨State.whole_pwr_straps f s fun u => (h u).1, State.whole_cur_lifecycle f s fun u => (h u).2.1,
    State.whole_cur_rootGen f s fun u => (h u).2.2.1, State.whole_cur_returns f s fun u => (h u).2.2.2.1,
    State.whole_cur_revoked f s fun u => (h u).2.2.2.2⟩

/-- An operation tried while time passes asks for what it waits for (assumption 99). -/
theorem attempt_locked {f : State → State} {s : State} (h : Locked s (f s)) : Locked s (s.attempt f) := by
  unfold State.attempt
  exact locked_ite (by simp [Locked, State.asking_kept]) h

theorem flit_locked {t p : Nat} {f : Flit} {k : FlitKind} {bad : BadFlit} {act : Line → State → State} {s : State}
    (h : ∀ l u, Locked u (act l u)) : Locked s (State.flit t p f k bad act s) :=
  ⟨State.flit_pwr_straps _ _ _ _ _ _ _ fun l u => (h l u).1, State.flit_cur_lifecycle _ _ _ _ _ _ _ fun l u => (h l u).2.1,
    State.flit_cur_rootGen _ _ _ _ _ _ _ fun l u => (h l u).2.2.1,
    State.flit_cur_returns _ _ _ _ _ _ _ fun l u => (h l u).2.2.2.1,
    State.flit_cur_revoked _ _ _ _ _ _ _ fun l u => (h l u).2.2.2.2⟩

theorem ofSubtype_locked {t p n : Nat} {f : Flit} {act : State → State} {s : State} (h : ∀ u, Locked u (act u)) :
    Locked s (State.ofSubtype t p n f act s) :=
  locked_ite (h s) (by simp [Locked])

/-- A CTRL flit in CONFIG counts its codewords first (R270). -/
theorem configFlit_locked {t p : Nat} {f : Flit} {act : State → State} {s : State} (h : ∀ u, Locked u (act u)) :
    Locked s (State.configFlit t p f act s) := by
  have fixed : Locked s (s.countFixed t p f) := by simp [Locked, State.countFixed_kept]
  unfold State.configFlit
  refine locked_ite (fixed.trans ?_) (locked_ite (fixed.trans ?_) (locked_ite (fixed.trans ?_) (fixed.trans (h _))))
  · exact foldl_locked (fun _ _ => by simp [Locked]) _ _
  · simp [Locked]
  · simp [Locked]

/-! ## Mailbox requests (R433) -/

/-- A mailbox request does nothing but answer, or answers what its body does. -/
theorem mbRequest_cases (port code : Nat) (fits : Bool) (body : State → Status × Nat × State) (s : State) :
    Locked s (s.mbRequest port code fits body) ∨ Locked (body s).2.2 (s.mbRequest port code fits body) := by
  have answered (st : Status) (v : Nat) (u : State) : Locked u (u.mbAnswer st v) := by simp [Locked, State.mbAnswer_kept]
  unfold State.mbRequest
  split
  · split
    · exact .inl (answered _ _ s)
    · exact .inr (answered _ _ _)
  · exact .inl (Locked.refl s)

theorem mbRequest_locked {port code : Nat} {fits : Bool} {body : State → Status × Nat × State} {s : State}
    (h : ∀ u, Locked u (body u).2.2) : Locked s (s.mbRequest port code fits body) :=
  (mbRequest_cases port code fits body s).elim id (h s).trans

/-- A request with a token is refused, or does what its body does once the token is used (R457, R458). -/
theorem mbToken_cases (t : Token) (purpose bind : Nat) (signer : Nat → Bool) (body : State → Status × Nat × State)
    (s : State) : (s.mbToken t purpose bind signer body).2.2 = s ∨
      t.present = true ∧ (s.mbToken t purpose bind signer body).2.2 = (body (s.useToken t)).2.2 := by
  unfold State.mbToken
  split
  · exact .inl rfl
  case isFalse hpresent =>
    split
    · exact .inl rfl
    · exact .inr ⟨by simpa using hpresent, rfl⟩

theorem useToken_locked (t : Token) (s : State) : Locked s (s.useToken t) := by simp [Locked, State.useToken_kept]

theorem mbToken_locked {t : Token} {purpose bind : Nat} {signer : Nat → Bool} {body : State → Status × Nat × State}
    {s : State} (h : ∀ u, Locked u (body u).2.2) : Locked s (s.mbToken t purpose bind signer body).2.2 := by
  rcases mbToken_cases t purpose bind signer body s with e | ⟨-, e⟩
  · rw [e]
    exact Locked.refl s
  · rw [e]
    exact (useToken_locked t s).trans (h _)

/-! ## Rows that leave the locks -/

/-- A row, if it answers a next state, leaves the locks as they were. -/
def LockedRow (o : Host.Outcome State Fault Refusal) (s : State) : Prop := ∀ t, o = .next t → Locked s t

theorem lockedRow_next {s t : State} (h : Locked s t) : LockedRow (.next t) s := by
  rintro u ⟨⟩
  exact h

theorem lockedRow_unit {b : Bool} {f : State → State} {s : State} (h : Locked s (f s)) : LockedRow (withUnit b f s) s := by
  cases b
  · exact lockedRow_next (Locked.refl s)
  · exact lockedRow_next h

theorem lockedRow_bar0 {p : Nat} {f : State → State} {s : State} (h : Locked s (f s.commitStore)) :
    LockedRow (s.bar0 p f) s :=
  lockedRow_unit h

theorem lockedRow_tileWrite {p t : Nat} {ok : Bool} {f : State → State} {s : State} (h : Locked s (f s.commitStore)) :
    LockedRow (s.tileWrite p t ok f) s :=
  lockedRow_unit h

theorem lockedRow_command {opc src : Nat} {c : Ctx} {ps : List Param} {body : State → State} {s : State}
    (h : ∀ u, Locked u (body u)) : LockedRow (.next (s.command opc src c ps body)) s :=
  lockedRow_next (command_locked h s)

theorem lockedRow_wholeCommand {opc src : Nat} {c : Ctx} {ps : List Param} {f : State → State} {s : State}
    (h : ∀ u, Locked u (f u)) : LockedRow (.next (s.command opc src c ps (State.whole f))) s :=
  lockedRow_command (whole_locked h)

theorem lockedRow_wholeUnit {b : Bool} {f : State → State} {s : State} (h : ∀ u, Locked u (f u)) :
    LockedRow (withUnit b (State.whole f) s) s :=
  lockedRow_unit (whole_locked h s)

/-- SET_FEATURE writes a feature's field and answers the old value (R60). -/
theorem setFeature_locked (c : Ctx) (fid : Nat) (value : Nat) (u : State) :
    Locked u (match u.feature fid with
      | none => u.reply srcInterp c .unknown 0
      | some old =>
        match u.setFeature fid value with
        | none => u.reply srcInterp c .param 0
        | some t => t.reply srcInterp c .done old) := by
  split
  · simp [Locked]
  · split
    · simp [Locked]
    case h_2 t ht =>
      have kept := State.setFeature_kept _ _ _ _ ht
      simp [Locked, kept]

/-- The commands that set the locks: POR samples the straps, and the others move the lifecycle or blow a fuse. -/
def setsLocks (c : Instr) : Bool :=
  match c with
  | .por | .lifecycle .. | .tamperTrip .. | .rootRevoke .. => true
  | _ => false

/-- Every other command leaves the locks: the rows, gathered by the shape they have. -/
theorem exec_locked (c : Instr) (s : State) (h : setsLocks c = false) : LockedRow (exec c s) s := by
  cases c
  all_goals dsimp only [exec]
  case coolingSweep | folioMerge | weedRelocate | relocVerifyDone | relocEraseDone | lostScanDone | rebuildScan | snpS
      | snpI | snpF | nack | ticket | wbAck | victimEvict | pinnedRefill | sqFetchIssue | sqFetchReturn |
      fencedCommandStart | completionCollect | cqCoalTimer | msixPendingSend | windowDrainEnd | monitorScan |
      sensorConvert | conversionMissed | ddrTempPoll | annalsMirror | ddrBurstRead | ddrScrubStep | tractFirstWrite |
      minorOverflow | counterEvict | ddrRekeyDone | switchTakeEffect | dataFlitSend | homeStatePublish | portResetDone |
      signalDetect | eqFrame | eqTimeout | lockMarker | lockTimeout | idle | req | cap | configRepeat | configTimeout |
      retrain | badFlit | laneSignalTimeout | rekeyReceive | slotGrant | phaseStart | phaseStatusCheck | stretchExpiry |
      lineReadDispatch | codewordDecoded | rescueHoldTimeout | mediaTempPoll | mediaAlert | calibrationRead |
      mediaScrubRead | passReset | passReopen | saddleFrame | heartbeat | curReset | keyRotationDone | haltBroadcastArrive
      | ownerSet | tileReset | flr | perst | hostLinkLoss | hostLinkUp | markerWrite | faultWindowEnd | escalationCancel |
      escalationNow | escalationExpiry | tileReady | tileReadyTimeout =>
    exact lockedRow_unit (by simp [Locked, -ite_cur, -ite_pwr])
  case curatorCommandExecute | holdOffExpiry | pwrOffReq | pwrOnReq | supplyOkFall | supplyOkReturn | resetNRelease |
      seqCommitDone | clearLog | spareSample | sensorHistorySample | mbIdleTimeout | keyRetire | format | p1Wake |
      vaonFall | coldReset | bootReady | autoCloseExpiry | abortStart | coordinatorTakeover | coordinatorTakeback |
      partTimeFailover | faultInject =>
    exact lockedRow_next (by simp [Locked, -ite_cur, -ite_pwr])
  case sqDoorbell | cqDoorbell | sqCfgWrite | cqCfgWrite | fetchResume | xwWinCfgWrite | dwAptWrite | seqCommit |
      anlRdLoad | mbClaim | mbRelease | warmReset | freeze | thaw | snap | epoCtrlClose | registerWrite =>
    exact lockedRow_bar0 (by simp [Locked, -ite_cur, -ite_pwr])
  case ddrRekey | slkBondWrite | slkPortCfgWrite | slkGcmKeyWrite | rekey | pmcCfgWrite | pmcCntWrite | clearTd |
      clearProg | fltSrcCfgWrite | ncLockWrite =>
    exact lockedRow_tileWrite (by simp [Locked, -ite_cur, -ite_pwr])
  case stripeProgram | stripeProgramDone | evict | writeback | data | grant | evictAck | ackD | sramScrubStep |
      prefetchRead | ingestRead | recordCommit | reqReadS | reqReadX | upgrade | claim =>
    exact lockedRow_wholeUnit fun u => by simp [Locked, -ite_cur, -ite_pwr]
  case identify | epochClose | getLog | routeDefine | fwStage | fwActivate | rightsSet | spareStatus | mediaProfile |
      powerState =>
    exact lockedRow_command fun u => by simp [Locked, -ite_cur, -ite_pwr]
  case captureDrain =>
    exact lockedRow_wholeCommand fun u => by simp [Locked, -ite_cur, -ite_pwr]
  case nackResend | landingReeval | fwRestartTimeout | pmcActionAtT | sealArrive | sealReport | sealWalkStep |
      retireComplete | lineArrive | tagTimeout | rekeyTimeout | gcmGroupClose | dwRead | dwStore =>
    exact lockedRow_unit <| by
      dsimp only [Locked]
      repeat' split
      all_goals simp
  case enable | disable | wait | check | jumpStep | seqEnd | powerdownWaitEnd | curatorTakeover | standbySynced |
      curatorRestartDone | transitionDone | p3DurabilityTimeout | rollbackEnd =>
    exact lockedRow_next <| by
      dsimp only [Locked]
      repeat' split
      all_goals simp
  case getFeature | epochQuery | attest | keyCreate | sensorRead | routeArm | routeRetire | captureOpen | captureClose
      =>
    exact lockedRow_command fun u => by
      dsimp only [Locked]
      repeat' split
      all_goals simp
  case readX | writeX | copy | discard | zeroRange | flushRange | invalRange | pinLines | unpinLines =>
    exact lockedRow_wholeCommand fun u => by
      dsimp only [Locked]
      repeat' split
      all_goals simp
  case roleSwap =>
    exact lockedRow_unit <| mbRequest_locked fun u => by
      dsimp only [Locked]
      repeat' split
      all_goals simp
  case config =>
    refine lockedRow_unit (locked_ite (configFlit_locked fun u => ofSubtype_locked fun v => ?_)
      (flit_locked fun l u => ofSubtype_locked fun v => ?_))
    · exact locked_ite (by simp [Locked]) (by simp [Locked])
    · exact locked_ite (Locked.refl v) (by simp [Locked])
  case configAck =>
    refine lockedRow_unit (locked_ite (configFlit_locked fun u => ofSubtype_locked fun v => ?_)
      (flit_locked fun l u => ofSubtype_locked Locked.refl))
    exact locked_ite (by simp [Locked]) (by simp [Locked])
  case tag | retrainReceive =>
    exact lockedRow_unit (flit_locked fun l u => ofSubtype_locked fun v => by simp [Locked])
  case sensorDisable =>
    exact lockedRow_unit (mbRequest_locked fun u => mbToken_locked fun v => by simp [Locked])
  case setFeature =>
    exact lockedRow_command fun u => setFeature_locked ..
  case por | lifecycle | tamperTrip | rootRevoke =>
    cases h
  -- ACK_NP, ACK_I and GONE are left, and DONE, whose name is a keyword here.
  all_goals
    exact lockedRow_wholeUnit fun u => by
      dsimp only [Locked]
      repeat' split
      all_goals simp

/-! ## Commands that set the locks -/

theorem Locked.fusesOk {s t : State} (h : Locked s t) : t.fusesOk = s.fusesOk := by
  obtain ⟨-, -, hgen, hret, hrev⟩ := h
  simp [State.fusesOk, hgen, hret, hrev]

/-- The fuses turn one way only: they stay in order, no root key comes back, and outside BLANK the root generation does
not fall (R456, R461). -/
def FusesTurn (s t : State) : Prop :=
  (s.fusesOk = true → t.fusesOk = true) ∧ s.cur.revoked &&& ~~~t.cur.revoked = 0 ∧
    (s.fusesOk = true → s.cur.lifecycle ≠ .blank → s.cur.rootGen ≤ t.cur.rootGen)

theorem Locked.fusesTurn {s t : State} (h : Locked s t) : FusesTurn s t := by
  have hok := h.fusesOk
  obtain ⟨-, -, hgen, -, hrev⟩ := h
  exact ⟨fun hs => hok.trans hs, by simp [hrev], fun _ _ => hgen.ge⟩

/-- What a step between two that leave the locks does to the fuses. -/
theorem FusesTurn.between {s u v t : State} (hs : Locked s u) (h : FusesTurn u v) (ht : Locked v t) : FusesTurn s t := by
  have hsok := hs.fusesOk
  have htok := ht.fusesOk
  obtain ⟨-, hlife, hgen, -, hrev⟩ := hs
  obtain ⟨-, -, tgen, -, trev⟩ := ht
  obtain ⟨hok, hkeys, hup⟩ := h
  exact ⟨fun e => htok.trans (hok (hsok.trans e)), by rw [trev, ← hrev]; exact hkeys, fun e hb =>
    tgen ▸ hgen ▸ hup (hsok.trans e) (hlife ▸ hb)⟩

/-- The transitions of the lifecycle (R456). -/
def lifeMoves : List (Life × Life) :=
  [(.blank, .opened), (.opened, .sealed), (.sealed, .opened), (.opened, .scrapped), (.sealed, .scrapped)]

theorem fusesOk_iff (s : State) : s.fusesOk = true ↔ s.cur.rootGen ≤ 63 ∧ s.cur.returns ≤ 31 ∧ s.cur.revoked ≠ 15 := by
  simp [State.fusesOk, and_assoc]

theorem State.setLife_lifecycle (v : Life) (s : State) : (s.setLife v).cur.lifecycle = v := rfl

theorem State.zeroize_rootGen (s : State) : s.zeroize.cur.rootGen = min 63 (s.cur.rootGen + 1) := by
  simp [State.zeroize, State.loseStaged_kept]

/-- Zeroize counts the root generation up to 63 and turns no other fuse (R461). -/
theorem State.zeroize_fusesTurn (s : State) : FusesTurn s s.zeroize := by
  have kept := s.zeroize_kept
  refine ⟨fun hs => ?_, by simp [kept], fun hs _ => ?_⟩
  · rw [fusesOk_iff] at hs ⊢
    obtain ⟨-, hret, hrev⟩ := hs
    exact ⟨by rw [State.zeroize_rootGen]; omega, by simpa [kept] using hret, by simpa [kept] using hrev⟩
  · obtain ⟨hgen, -, -⟩ := (fusesOk_iff s).mp hs
    rw [State.zeroize_rootGen]
    omega

/-- A return to OPEN zeroizes and counts itself (R456, R461). -/
theorem State.reopen_cur (s : State) : s.reopen.cur.lifecycle = .opened ∧
    s.reopen.cur.rootGen = min 63 (s.cur.rootGen + 1) ∧ s.reopen.cur.returns = s.cur.returns + 1 ∧
    s.reopen.cur.revoked = s.cur.revoked := by
  unfold State.reopen
  simp [State.setLife_lifecycle, State.setLife_kept, State.emptySpace_kept, State.emptyKids_kept, State.formatPart_kept,
    State.newDdrKeys_kept, State.zeroize_kept, State.zeroize_rootGen]

/-- The lifecycle moves without a fuse. -/
theorem FusesTurn.setLife {s u : State} (h : FusesTurn s u) (v : Life) : FusesTurn s (u.setLife v) := by
  simpa [FusesTurn, fusesOk_iff, State.setLife_kept] using h

/-- A return to OPEN is taken where one is left (R456), and counts the root generation and itself. -/
theorem State.reopen_fusesTurn {s : State} (hret : s.cur.returns < 31) (hgen : s.cur.rootGen < 63) :
    FusesTurn s s.reopen := by
  obtain ⟨-, gen, ret, rev⟩ := s.reopen_cur
  refine ⟨fun hs => ?_, by simp [rev], fun _ _ => by omega⟩
  obtain ⟨-, -, hrev⟩ := (fusesOk_iff s).mp hs
  exact (fusesOk_iff _).mpr ⟨by omega, by omega, by rwa [rev]⟩

/-- LIFECYCLE makes a transition of R456, or none, and turns the fuses one way. -/
theorem State.moveLife_turns (k : Nat) (s : State) :
    ((s.moveLife k).2.2.cur.lifecycle = s.cur.lifecycle ∨
      (s.cur.lifecycle, (s.moveLife k).2.2.cur.lifecycle) ∈ lifeMoves) ∧ FusesTurn s (s.moveLife k).2.2 := by
  have stay : FusesTurn s s := (Locked.refl s).fusesTurn
  unfold State.moveLife
  split
  · exact ⟨.inl rfl, stay⟩
  · split
    case h_1 hblank _ =>
      refine ⟨.inr (by simp [hblank, State.setLife_lifecycle, lifeMoves]), FusesTurn.setLife ⟨fun hs => ?_, ?_, ?_⟩ _⟩
      · obtain ⟨-, hret, hrev⟩ := (fusesOk_iff s).mp hs
        exact (fusesOk_iff _).mpr ⟨by simp, hret, hrev⟩
      · simp
      · exact fun _ h => absurd hblank h
    case h_2 hopen _ => exact ⟨.inr (by simp [hopen, State.setLife_lifecycle, lifeMoves]), stay.setLife _⟩
    case h_3 hsealed _ =>
      split
      · exact ⟨.inl rfl, stay⟩
      case isFalse hleft =>
        obtain ⟨life, -⟩ := s.reopen_cur
        exact ⟨.inr (by simp [hsealed, life, lifeMoves]), State.reopen_fusesTurn (by omega) (by omega)⟩
    case h_4 hopen _ =>
      exact ⟨.inr (by simp [hopen, State.setLife_lifecycle, lifeMoves]), s.zeroize_fusesTurn.setLife _⟩
    case h_5 hsealed _ =>
      exact ⟨.inr (by simp [hsealed, State.setLife_lifecycle, lifeMoves]), s.zeroize_fusesTurn.setLife _⟩
    case h_6 => exact ⟨.inl rfl, stay⟩

/-- A tamper trip moves the lifecycle to SCRAPPED at most, and turns the fuses one way (R460, R461). -/
theorem State.trip_turns (t k : Nat) (reading : DWord) (s : State) :
    ((s.trip t k reading).cur.lifecycle = s.cur.lifecycle ∨ (s.trip t k reading).cur.lifecycle = .scrapped) ∧
      FusesTurn s (s.trip t k reading) := by
  have calm {u : State} (h : Locked s u) :
      (u.cur.lifecycle = s.cur.lifecycle ∨ u.cur.lifecycle = .scrapped) ∧ FusesTurn s u :=
    ⟨.inl h.2.1, h.fusesTurn⟩
  have scrapped (u : State) (h : Locked s u) :
      ((u.scrap t).cur.lifecycle = s.cur.lifecycle ∨ (u.scrap t).cur.lifecycle = .scrapped) ∧ FusesTurn s (u.scrap t) := by
    have gone : FusesTurn s u.zeroize := .between h u.zeroize_fusesTurn (Locked.refl _)
    unfold State.scrap
    dsimp only
    split
    case isTrue hs =>
      exact ⟨.inr (by simpa using hs), .between (Locked.refl s) gone (by simp [Locked])⟩
    case isFalse =>
      exact ⟨.inr (by simp [State.setLife_lifecycle]), .between (Locked.refl s) (gone.setLife .scrapped) (by simp [Locked])⟩
  unfold State.trip
  extract_lets key first level s1 s2
  have noted : Locked s s2 := by simp [s2, s1, Locked]
  split
  · exact calm (noted.trans (by simp +zetaDelta [Locked]))
  · split
    · exact calm (noted.trans (by simp [Locked]))
    · split
      · exact scrapped s2 noted
      · exact calm noted

/-- A key that is revoked, or is not the last one, may be revoked. -/
theorem revoked_ne_full : ∀ (r : BitVec 4) (k : Fin 4), r ≠ 15 →
    (r.getLsbD k = true ∨ ∃ j : Fin 4, j ≠ k ∧ r.getLsbD j = false) → r ||| BitVec.ofNat 4 (2 ^ k.val) ≠ 15 := by
  decide

/-- Where a root key is not the last one, it is revoked, or another is not. -/
theorem State.otherRoot {s : State} {k : Fin 4} (h : s.lastRoot k = false) :
    s.cur.revoked.getLsbD k = true ∨ ∃ j : Fin 4, j ≠ k ∧ s.cur.revoked.getLsbD j = false := by
  simp only [State.lastRoot, State.rootSigner, Bool.and_eq_false_iff, Bool.not_eq_false', List.any_eq_true,
    List.mem_range] at h
  rcases h with h | ⟨j, hj, h⟩
  · left
    simpa using h
  · right
    refine ⟨⟨j, hj⟩, ?_⟩
    simp at h
    exact ⟨fun e => h.1 (congrArg Fin.val e), by simpa using h.2.2⟩

theorem Locked.lastRoot {s u : State} (h : Locked s u) (k : Nat) : u.lastRoot k = s.lastRoot k := by
  obtain ⟨-, -, -, -, hrev⟩ := h
  simp [State.lastRoot, State.rootSigner, hrev]

/-- A root key that is not the last one goes; none comes back (R449). -/
theorem State.revokeRoot_turns {k : Nat} {s : State} (hlast : s.lastRoot k = false) : FusesTurn s (s.revokeRoot k).2.2 := by
  unfold State.revokeRoot
  split
  · exact (Locked.refl s).fusesTurn
  case isFalse hk =>
    refine ⟨fun hs => ?_, ?_, fun _ _ => le_rfl⟩
    · obtain ⟨hgen, hret, hrev⟩ := (fusesOk_iff s).mp hs
      exact (fusesOk_iff _).mpr ⟨hgen, hret,
        revoked_ne_full s.cur.revoked ⟨k, by omega⟩ hrev (State.otherRoot (k := ⟨k, by omega⟩) hlast)⟩
    · ext i
      cases hi : s.cur.revoked[i] <;> simp [hi]

/-! ## Every command -/

theorem withUnit_cases {b : Bool} {f : State → State} {s t : State} (h : withUnit b f s = .next t) : t = s ∨ t = f s := by
  cases h
  cases b
  · exact .inl rfl
  · exact .inr rfl

/-- What LIFECYCLE may do to the locks (R456). -/
def LifeTurns (s t : State) : Prop :=
  (t.cur.lifecycle = s.cur.lifecycle ∨ (s.cur.lifecycle, t.cur.lifecycle) ∈ lifeMoves) ∧ FusesTurn s t ∧
    t.pwr.straps = s.pwr.straps

theorem Locked.lifeTurns {s t : State} (h : Locked s t) : LifeTurns s t := ⟨.inl h.2.1, h.fusesTurn, h.1⟩

theorem LifeTurns.between {s u v t : State} (hs : Locked s u) (h : LifeTurns u v) (ht : Locked v t) : LifeTurns s t := by
  obtain ⟨hmove, hturn, hstraps⟩ := h
  have turns := FusesTurn.between hs hturn ht
  obtain ⟨sstraps, slife, -⟩ := hs
  obtain ⟨tstraps, tlife, -⟩ := ht
  exact ⟨by rw [tlife, ← slife]; exact hmove, turns, tstraps.trans (hstraps.trans sstraps)⟩

theorem execLifecycle_turns {port : Nat} {tok : Token} {s t : State} (h : execLifecycle port tok s = .next t) :
    LifeTurns s t := by
  have moved (k : Nat) (u : State) : LifeTurns u (u.moveLife k).2.2 := by
    obtain ⟨hmove, hturn⟩ := u.moveLife_turns k
    exact ⟨hmove, hturn, by simp⟩
  rcases withUnit_cases h with rfl | rfl
  · exact (Locked.refl t).lifeTurns
  · split
    · exact (Locked.refl s).lifeTurns
    · rcases mbRequest_cases port 1 (s.mbHolds tok) _ s with same | acted
      · exact same.lifeTurns
      · refine .between (Locked.refl s) ?_ acted
        rcases mbToken_cases tok 1 (tok.bind.toNat % 256) (fun n => s.lifeSigner (boundByte tok 0) n)
          (fun s => s.moveLife (boundByte tok 0)) s with e | ⟨-, e⟩
        · rw [e]
          exact (Locked.refl s).lifeTurns
        · rw [e]
          exact .between (useToken_locked tok s) (moved _ _) (Locked.refl _)

theorem execTamperTrip_turns {tile sensor : Nat} {reading : DWord} {s t : State}
    (h : execTamperTrip tile sensor reading s = .next t) :
    (t.cur.lifecycle = s.cur.lifecycle ∨ t.cur.lifecycle = .scrapped) ∧ FusesTurn s t ∧ t.pwr.straps = s.pwr.straps := by
  have calm : FusesTurn s s := (Locked.refl s).fusesTurn
  rcases withUnit_cases h with rfl | rfl
  · exact ⟨.inl rfl, calm, rfl⟩
  · split
    · obtain ⟨hlife, hturn⟩ := s.trip_turns tile sensor reading
      exact ⟨hlife, hturn, by simp⟩
    · exact ⟨.inl rfl, calm, rfl⟩

theorem execRootRevoke_turns {port : Nat} {tok : Token} {s t : State} (h : execRootRevoke port tok s = .next t) :
    t.cur.lifecycle = s.cur.lifecycle ∧ FusesTurn s t ∧ t.pwr.straps = s.pwr.straps := by
  have calm {u : State} (h : Locked s u) : u.cur.lifecycle = s.cur.lifecycle ∧ FusesTurn s u ∧ u.pwr.straps = s.pwr.straps :=
    ⟨h.2.1, h.fusesTurn, h.1⟩
  rcases withUnit_cases h with rfl | rfl
  · exact calm (Locked.refl _)
  · rcases mbRequest_cases port 5 (s.mbHolds tok) _ s with same | acted
    · exact calm same
    · revert acted
      dsimp only
      split
      · exact fun acted => calm acted
      case isFalse hkey =>
        rcases mbToken_cases tok 7 (tok.bind.toNat % 256) (fun n => s.rootSigner n && n != boundByte tok 0)
          (fun s => s.revokeRoot (boundByte tok 0)) s with e | ⟨hp, e⟩
        · rw [e]
          exact calm
        · rw [e]
          intro acted
          have used := useToken_locked tok s
          have hlast : (s.useToken tok).lastRoot (boundByte tok 0) = false := by
            rw [used.lastRoot]
            simpa [hp] using hkey
          have turns := FusesTurn.between used (State.revokeRoot_turns hlast) acted
          obtain ⟨ustraps, ulife, -⟩ := used
          obtain ⟨tstraps, tlife, -⟩ := acted
          exact ⟨by simpa [ulife] using tlife, turns, by simpa [ustraps] using tstraps⟩

theorem execPor_turns {s t : State} (h : execPor s = .next t) : t.cur.lifecycle = s.cur.lifecycle ∧ FusesTurn s t := by
  cases h
  split
  · exact ⟨rfl, (Locked.refl s).fusesTurn⟩
  · simp [FusesTurn, fusesOk_iff]

/-- Every command turns the fuses one way. -/
theorem exec_fusesTurn {c : Instr} {s t : State} (h : exec c s = .next t) : FusesTurn s t := by
  cases hc : setsLocks c
  case false => exact (exec_locked c s hc t h).fusesTurn
  case true =>
    cases c
    case por => exact (execPor_turns h).2
    case lifecycle => exact (execLifecycle_turns h).2.1
    case tamperTrip => exact (execTamperTrip_turns h).2.1
    case rootRevoke => exact (execRootRevoke_turns h).2.1
    all_goals cases hc

/-! ## Time that passes -/

theorem tendPort_locked (p : Nat) (s : State) : Locked s (s.tendPort p) :=
  locked_ite (Locked.refl s) (by simp [Locked, State.releaseHeld_kept])

theorem tendEvicts_locked (s : State) : Locked s s.tendEvicts :=
  foldl_locked (fun u _ => locked_ite (by simp [Locked, State.sendEvict_kept]) (Locked.refl u)) _ s

theorem tendTickets_locked (s : State) : Locked s s.tendTickets :=
  locked_ite (Locked.refl s) (foldl_locked (fun u _ => locked_ite (Locked.refl u)
    (attempt_locked (by simp [Locked, State.nextTicket_kept]))) _ s)

theorem tendWays_locked (t : Nat) (s : State) : Locked s (s.tendWays t) := by
  have sent : Locked s (s.sendEach t (s.leaving t)) := by simp [Locked, State.sendEach_kept]
  exact locked_ite (sent.trans (attempt_locked (by simp [Locked]))) (Locked.refl s)

theorem tendBroken_locked (s : State) : Locked s s.tendBroken :=
  foldl_locked (fun u _ => locked_ite (by simp [Locked, State.lostLine_kept]) (Locked.refl u)) _ _

theorem tend_locked (s : State) : Locked s s.tend := by
  have freed : Locked s s.tendBroken.releaseMisses :=
    (tendBroken_locked s).trans (by simp [Locked, State.releaseMisses_kept])
  have ports := freed.trans (foldl_locked (fun u p => tendPort_locked p u) s.ports _)
  have lines := (ports.trans (tendEvicts_locked _)).trans (tendTickets_locked _)
  have ways := lines.trans (foldl_locked (fun u t => tendWays_locked t u) s.tileList _)
  exact locked_ite (ways.trans (by simp [Locked, State.tellFaults_kept, State.undoTriggers_kept])) (Locked.refl s)

theorem idle_locked (s : State) : Locked s s.idle :=
  (tend_locked s).trans (by simp [Locked, State.idle, State.levels_kept])

/-- Settles O53: the idle step leaves the fuses, and every command turns them one way. -/
theorem fusesStayInOrder : Obligations.FusesStayInOrder := by
  unfold Obligations.FusesStayInOrder
  intro s t hs h
  cases hq : s.pending with
  | nil =>
    rw [step_nil _ hq] at h
    cases h
    rw [(idle_locked s).fusesOk]
    exact hs
  | cons c rest =>
    rw [step_cons hq] at h
    obtain ⟨inOrder, -, -⟩ := exec_fusesTurn h
    exact inOrder hs

/-- Settles O54: the rows that set the locks do so along R456, R460 and R461, and the others leave them. -/
theorem lifecycleAndStrapsMoveOnlyByTheirOwn : Obligations.LifecycleAndStrapsMoveOnlyByTheirOwn := by
  unfold Obligations.LifecycleAndStrapsMoveOnlyByTheirOwn
  refine ⟨?only, ?life, ?trip, ?keys, ?gen, ?straps⟩
  case only =>
    intro c s t h hmoved
    cases hc : setsLocks c
    case false => exact absurd (exec_locked c s hc t h).2.1 hmoved
    case true =>
      cases c
      case lifecycle p x => exact .inl ⟨p, x, rfl⟩
      case tamperTrip k i r => exact .inr ⟨k, i, r, rfl⟩
      case por => exact absurd (execPor_turns h).1 hmoved
      case rootRevoke => exact absurd (execRootRevoke_turns h).1 hmoved
      all_goals cases hc
  case life => exact fun p x s t h => (execLifecycle_turns h).1
  case trip => exact fun k i r s t h => (execTamperTrip_turns h).1
  case keys => exact fun c s t h => (exec_fusesTurn h).2.1
  case gen => exact fun c s t h => (exec_fusesTurn h).2.2
  case straps =>
    intro c s t hpor h
    cases hc : setsLocks c
    case false => exact (exec_locked c s hc t h).1
    case true =>
      cases c
      case lifecycle => exact (execLifecycle_turns h).2.2
      case tamperTrip => exact (execTamperTrip_turns h).2.2
      case rootRevoke => exact (execRootRevoke_turns h).2.2
      case por => exact absurd rfl hpor
      all_goals cases hc

end Sys2Proof.Machine
end

section
/-! The reset that a write of PART_RESET starts (R486). -/

namespace Sys2Proof.Machine

theorem State.afterWarm_ready (s : State) : s.afterWarm.pwr.ready = false := by
  simp [State.afterWarm, State.rebootCurators_kept, State.bootEpochs_kept, State.killAll_kept, State.restoreData_kept]
  rfl

/-- A write of PART_RESET without the key, or without warm, is recorded and nothing else. -/
theorem exec_warmReset_unkeyed {p : Nat} {w : Word} {s : State} (h : s.takesWrite p = true)
    (hk : ¬(bits w.toNat 31 16 = 0x5741 ∧ bits w.toNat 0 0 = 1)) :
    exec (.warmReset p w) s = .next (s.commitStore.refusedWrite 0 p partResetOff w.toNat) := by
  rw [exec_warmReset h]
  simp only [State.writePartReset, hk, if_false]

/-- Settles O56: with the key and warm a ready part warm-starts; without, the write is recorded. -/
theorem partResetTakesItsKey : Obligations.PartResetTakesItsKey := by
  unfold Obligations.PartResetTakesItsKey
  constructor
  case left =>
    rintro p w s h hst hi hready ⟨hkey, hwarm⟩
    refine ⟨_, exec_warmReset_keyed h hkey hwarm hst hi, ?_⟩
    have start : s.commitStore.warmStart = s.commitStore.afterWarm := if_pos (by simp [hready])
    have hready' : s.commitStore.pwr.ready = true := hready
    obtain ⟨-, hboot, hlast⟩ := s.commitStore.afterWarm_pwr
    obtain ⟨hprim, -⟩ := s.commitStore.afterWarm_cleared
    dsimp only
    rw [State.noteReset_pwr, State.noteReset_cur, start]
    exact ⟨by rw [hlast, hready', if_pos rfl], hboot, State.afterWarm_ready _, hprim⟩
  case right =>
    intro p w s h hk
    exact ⟨_, exec_warmReset_unkeyed h hk, rfl, by simp, by simp, by simp⟩

end Sys2Proof.Machine
end

section
/-! What the SRAM walk does beside its array: it tells the faults that are due (R401, R403). -/

namespace Sys2Proof.Machine

/-- Telling the faults that are due leaves none due. -/
theorem State.tellFaults_faults (s : State) : s.tellFaults.cat.faults = [] := by
  unfold State.tellFaults
  split
  case isTrue h => exact List.isEmpty_iff.mp h
  case isFalse => simp

/-- A clean step of the SRAM walk, with no injection armed, is the end of a whole operation alone. -/
theorem exec_sramScrubStep_clean {k a w : Nat} {d : Bool} {s : State} (hstuck : s.cat.stuck = false)
    (hforged : s.cat.forged = none) (htile : s.hasTile k = true) (ha : a < 13) (hw : w < 16) (hrun : s.ddrRuns k = true)
    (hinj : s.flt.inj = []) : exec (.sramScrubStep k a w d .clean) s = .next s.tellFaults.undoTriggers := by
  have step : s.sramStep k a w d .clean = s := by simp [State.sramStep, State.check_uninjected hinj]
  have row : exec (.sramScrubStep k a w d .clean) s = withUnit (s.hasTile k && decide (a < 13) && decide (w < 16))
      (State.whole fun s => if s.ddrRuns k then s.sramStep k a w d .clean else s) s := rfl
  rw [row, htile, decide_eq_true ha, decide_eq_true hw, Bool.and_self, Bool.and_self, withUnit_true]
  simp only [State.whole, hrun, if_true, step, hforged, hstuck, Bool.false_eq_true, if_false]

/-- A running part that owes a fault event of tile 0's array 0. -/
def owingPart : State := { readyPart with cat := { readyPart.cat with faults := [⟨0, srcId 0x05 0, false, 0⟩] } }

theorem owingPart_runs : owingPart.hasTile 0 = true ∧ owingPart.ddrRuns 0 = true := by decide +kernel

/-- Refutes O20: a clean step of the SRAM walk also tells the faults that earlier operations have met, where the clause lets
it leave the state but for the undo triggers, which tell none. -/
theorem not_ddrBurstOutcomes : ¬ Obligations.DdrBurstOutcomes := by
  unfold Obligations.DdrBurstOutcomes
  rintro ⟨-, -, -, -, -, -, -, -, sram, -⟩
  obtain ⟨htile, hrun⟩ := owingPart_runs
  have claimed := sram 0 0 0 false owingPart rfl rfl htile (by omega) (by omega) hrun rfl
  rw [exec_sramScrubStep_clean rfl rfl htile (by omega) (by omega) hrun rfl] at claimed
  have same : owingPart.tellFaults.undoTriggers = owingPart.undoTriggers := by injection claimed
  have faults := congrArg (fun s => s.cat.faults) same
  simp only [State.undoTriggers_kept, State.tellFaults_faults] at faults
  exact absurd faults (by decide)

end Sys2Proof.Machine
end

section
/-! The registers of the performance counters, and what a tile does at the time T of a freeze, thaw or snapshot (R496 to R506). -/

namespace Sys2Proof.Machine

/-! ## PMC_CFG and PMC_CNT (R498, R502, R506) -/

theorem pmcCfg_write (rwl : Bool) (old w : Nat) : Reg.pmcCfg.desc.write rwl old w =
    bits w 31 31 * 2 ^ 31 + bits w 30 30 * 2 ^ 30 + bits w 23 16 * 2 ^ 16 + bits w 15 8 * 2 ^ 8 := by
  have hd : Reg.pmcCfg.desc.fields = [⟨31, 31, .rw, 0, .w⟩, ⟨30, 30, .rw, 0, .w⟩, ⟨23, 16, .rw, 0, .w⟩,
    ⟨15, 8, .rw, 0, .w⟩] := rfl
  simp only [RDesc.write, hd, RField.written, setBits, bits, List.foldl]
  omega

/-- What PMC_CFG stores has the fields of what was written. -/
theorem pmcCfg_stored (w : Nat) : let v := (bits w 31 31 * 2 ^ 31 + bits w 30 30 * 2 ^ 30 + bits w 23 16 * 2 ^ 16 +
      bits w 15 8 * 2 ^ 8) % 2 ^ 32
    cfgOn v = cfgOn w ∧ cfgLevel v = cfgLevel w ∧ cfgEvent v = cfgEvent w ∧ cfgInst v = cfgInst w := by
  have fields : ∀ v : Nat, v = (bits w 31 31 * 2 ^ 31 + bits w 30 30 * 2 ^ 30 + bits w 23 16 * 2 ^ 16 +
      bits w 15 8 * 2 ^ 8) % 2 ^ 32 → bits v 31 31 = bits w 31 31 ∧ bits v 30 30 = bits w 30 30 ∧
      bits v 23 16 = bits w 23 16 ∧ bits v 15 8 = bits w 15 8 := by
    intro v hv
    simp only [bits] at hv ⊢
    omega
  obtain ⟨hon, hlevel, hevent, hinst⟩ := fields _ rfl
  exact ⟨by rw [cfgOn, hon, cfgOn], by rw [cfgLevel, hlevel, cfgLevel], hevent, hinst⟩

theorem State.writePmcCnt_cnt (k i : Nat) (high : Bool) (w : Nat) (s : State) :
    tget (fun _ => 0) (s.writePmcCnt k i high w).pmc.cnt (64 * k + i) =
      if high then w * 2 ^ 32 + tget (fun _ => 0) s.pmc.cnt (64 * k + i) % 2 ^ 32
      else tget (fun _ => 0) s.pmc.cnt (64 * k + i) / 2 ^ 32 * 2 ^ 32 + w := by
  simp [State.writePmcCnt]

/-- The entries of a unit read 0 once its keys are dropped. -/
theorem tget_tdrop_unit {n k j : Nat} (hj : j < n) (m : Tbl Nat) :
    tget (fun _ => 0) (tdrop (fun x => x / n == k) m) (n * k + j) = 0 := by
  have hkey : (n * k + j) / n = k := by
    rw [Nat.mul_add_div (by omega), Nat.div_eq_of_lt hj, Nat.add_zero]
  rw [tget_tdrop, if_pos (by simp [hkey])]

/-! ## At T (R503 to R505) -/

/-- A table with a list of entries put over it reads the first of them with the key. -/
theorem tget_foldr_tset (l dst : Tbl Nat) (x : Nat) :
    tget (fun _ => 0) (l.foldr (fun e m => tset (fun _ => 0) m e.1 e.2) dst) x = (l.lookup x).getD (tget (fun _ => 0) dst x) := by
  induction l with
  | nil => rfl
  | cons e l ih =>
    by_cases hx : x = e.1
    · subst hx
      simp [List.lookup]
    · simp [List.lookup, tget_tset_ne _ _ _ hx, ih, beq_eq_false_iff_ne.mpr hx]

/-- A tile's copy reads as its counters. -/
theorem tget_copyKeys {n t x : Nat} (hx : x / n = t) (src dst : Tbl Nat) :
    tget (fun _ => 0) (copyKeys n t src dst) x = tget (fun _ => 0) src x := by
  have kept : (src.filter (fun e => e.1 / n == t)).lookup x = src.lookup x := by
    induction src with
    | nil => rfl
    | cons e l ih =>
      by_cases he : x = e.1
      · subst he
        simp [List.filter, hx, List.lookup]
      · have hne : (x == e.1) = false := beq_eq_false_iff_ne.mpr he
        cases hk : e.1 / n == t <;> simp [List.filter, hk, List.lookup, hne, ih]
  have dropped : tget (fun _ => 0) (tdrop (fun k => k / n == t) dst) x = 0 := by
    rw [tget_tdrop, if_pos (by simp [hx])]
  rw [copyKeys, tget_foldr_tset, kept, dropped]
  rfl

theorem tileBit_or_getLsbD : ∀ (v : BitVec 8) (k : Fin 8), (v ||| tileBit k).getLsbD k = true := by decide

theorem tileBit_clear_getLsbD : ∀ (v : BitVec 8) (k : Fin 8), (v &&& ~~~tileBit k).getLsbD k = false := by decide

/-- A running tile that meets T in time acts on the counters it had. -/
theorem State.pmcMeet_acts {k : Nat} {a : PmcAction} {s : State} (hk : k < 8) (hrun : s.tileRuns k = true)
    (hlate : s.now ≤ a.t + 4000) : let t := s.pmcMeet k a
    t.pmc.done.getLsbD k = true ∧ (a.freeze = true → t.pmc.frozenT.getLsbD k = true) ∧
      (a.freeze = false → a.thaw = true → t.pmc.frozenT.getLsbD k = false) ∧
      (a.snap = true → ∀ i ∈ List.range 64,
        tget (fun _ => 0) t.pmc.snapCnt (64 * k + i) = tget (fun _ => 0) s.pmc.cnt (64 * k + i)) := by
  intro t
  obtain ⟨s1, hs1, cnt⟩ : ∃ s1 : State, (t.pmc.done = (s1.pmcAct k a).pmc.done ∧
      t.pmc.frozenT = (s1.pmcAct k a).pmc.frozenT ∧ t.pmc.snapCnt = (s1.pmcAct k a).pmc.snapCnt) ∧
      s1.pmc.cnt = s.pmc.cnt := by
    have onTime : ¬ a.t + 4000 < s.now := by omega
    by_cases hfirst : a.acted.isEmpty = true
    · refine ⟨s.pmcShown a, ?_, rfl⟩
      have hrun' : (s.pmcShown a).tileRuns k = true := hrun
      simp [t, State.pmcMeet, hfirst, hrun', onTime]
    · refine ⟨s, ?_, rfl⟩
      simp [t, State.pmcMeet, hfirst, hrun, onTime]
  obtain ⟨hdone, hfrozen, hsnap⟩ := hs1
  refine ⟨?_, fun hf => ?_, fun hf ht => ?_, fun hsn i hi => ?_⟩
  · rw [hdone]
    exact tileBit_or_getLsbD _ ⟨k, hk⟩
  · rw [hfrozen]
    simpa [State.pmcAct, hf] using tileBit_or_getLsbD s1.pmc.frozenT ⟨k, hk⟩
  · rw [hfrozen]
    simpa [State.pmcAct, hf, ht] using tileBit_clear_getLsbD s1.pmc.frozenT ⟨k, hk⟩
  · rw [hsnap, ← cnt]
    have hkey : (64 * k + i) / 64 = k := by
      have := List.mem_range.mp hi
      omega
    simpa [State.pmcAct, hsn] using tget_copyKeys hkey s1.pmc.cnt s1.pmc.snapCnt

/-! ## The statement -/

/-- Settles O49: each write by its row, the three requests of PMC_FREEZE by State.pmcRequest, and the tile at T by what it acts
on. -/
theorem countersAreProgrammedAndFrozen : Obligations.CountersAreProgrammedAndFrozen := by
  unfold Obligations.CountersAreProgrammedAndFrozen
  have cfg {p k i : Nat} {w : Word} {s : State} (h : s.takesWrite p = true) (ht : s.hasTile k = true) (hi : i < 64) :
      exec (.pmcCfgWrite p k i w) s = .next (s.commitStore.writePmcCfg p k i w.toNat) :=
    tileWrite_open p k _ _ s h ht (decide_eq_true hi)
  have cnt {p k i : Nat} {high : Bool} {w : Word} {s : State} (h : s.takesWrite p = true) (ht : s.hasTile k = true)
      (hi : i < 64) : exec (.pmcCntWrite p k i high w) s = .next (s.commitStore.writePmcCnt k i high w.toNat) :=
    tileWrite_open p k _ _ s h ht (decide_eq_true hi)
  have freeze {p : Nat} {s : State} (h : s.takesWrite p = true) :
      exec (.freeze p) s = .next (s.commitStore.pmcRequest p 1) := bar0_open p _ s h
  have thaw {p : Nat} {s : State} (h : s.takesWrite p = true) :
      exec (.thaw p) s = .next (s.commitStore.pmcRequest p 2) := bar0_open p _ s h
  have snap {p : Nat} {s : State} (h : s.takesWrite p = true) :
      exec (.snap p) s = .next (s.commitStore.pmcRequest p 4) := bar0_open p _ s h
  have commit (s : State) : s.commitStore.pmc = s.pmc ∧ s.commitStore.now = s.now := ⟨rfl, rfl⟩
  refine ⟨?allowed, ?refused, ?low, ?high, ?clearTd, ?clearProg, ?freeze, ?thaw, ?snap, ?busy, ?act, ?early⟩
  case allowed =>
    intro p k i w s h ht hi hw
    have hw' : s.commitStore.cfgAllowed k i w.toNat = true := hw
    rw [cfg h ht hi, yields_next_iff, State.writePmcCfg, if_pos hw', writeReg_reg, pmcCfg_write]
    exact pmcCfg_stored w.toNat
  case refused =>
    intro p k i w s h ht hi hw
    have hw' : s.commitStore.cfgAllowed k i w.toNat = false := hw
    rw [cfg h ht hi, State.writePmcCfg, if_neg (by simp [hw'])]
  case low =>
    intro p k i w s h ht hi
    have hlt := w.isLt
    rw [cnt h ht hi, yields_next_iff, State.writePmcCnt_cnt, (commit s).1]
    simp only [Bool.false_eq_true, if_false]
    omega
  case high =>
    intro p k i w s h ht hi
    rw [cnt h ht hi, yields_next_iff, State.writePmcCnt_cnt, (commit s).1]
    simp only [if_true]
    omega
  case clearTd =>
    intro p k s h ht
    have row : exec (.clearTd p k) s = .next (s.commitStore.clearTopDown k) := tileWrite_open p k _ _ s h ht rfl
    rw [row, yields_next_iff]
    exact ⟨fun j hj => tget_tdrop_unit (List.mem_range.mp hj) _, rfl⟩
  case clearProg =>
    intro p k s h ht
    have row : exec (.clearProg p k) s = .next (s.commitStore.clearCounters k) := tileWrite_open p k _ _ s h ht rfl
    rw [row, yields_next_iff]
    exact ⟨fun j hj => tget_tdrop_unit (List.mem_range.mp hj) _, rfl⟩
  case freeze =>
    intro p s h hbusy hfrozen
    rw [freeze h, thaw h, yields_next_iff]
    simp [State.pmcRequest, hbusy, hfrozen, bits]
  case thaw =>
    intro p s h hbusy hfrozen
    rw [freeze h, thaw h, yields_next_iff]
    simp [State.pmcRequest, hbusy, hfrozen, bits]
  case snap =>
    intro p s h hbusy
    rw [snap h, yields_next_iff]
    simp [State.pmcRequest, hbusy, bits]
  case busy =>
    intro p s h hbusy
    rw [freeze h, thaw h, snap h]
    simp [State.pmcRequest, hbusy]
  case act =>
    intro k a s ht hk hrun ha hdue hlate hacted
    have row : exec (.pmcActionAtT k) s = .next (s.pmcMeet k a) := by
      change execPmcActionAtT k s = _
      simp only [execPmcActionAtT, ht, withUnit_true, ha, hdue, hacted, decide_true, Bool.not_false, Bool.and_self, if_true]
    rw [row, yields_next_iff]
    exact State.pmcMeet_acts hk hrun hlate
  case early =>
    intro k a s ht ha hnow
    have hdue : ¬ a.t ≤ s.now := by omega
    change execPmcActionAtT k s = _
    simp only [execPmcActionAtT, ht, withUnit_true, ha, hdue, decide_false, Bool.false_and, Bool.false_eq_true, if_false]

end Sys2Proof.Machine
end

section
/-! What a fault event leaves of the power group: all but what the seals it completes tell (R97, R409, R472, R479). -/

namespace Sys2Proof.Machine

/-- The power group without the transition and the orderly power-down, which a finished seal tells of its epoch. -/
def State.rails (s : State) : PowerState := { s.pwr with trans := none, down := none }

theorem State.rails_congr {s t : State} (h : t.pwr = s.pwr) : t.rails = s.rails := by simp only [State.rails, h]

theorem State.afterSeal_rails (n : Nat) (s : State) (t : Trigger) : (s.afterSeal n t).rails = s.rails := by
  rcases t with (_ | _) | _ | _ | _ | _ | _ | _ <;> rfl

theorem State.finishSeal_rails (s : State) : s.finishSeal.rails = s.rails := by
  have act (l : List Trigger) (s : State) : (s.actTriggers l).rails = s.rails :=
    State.rails_congr (by simp [State.actTriggers_kept])
  have answer (s : State) : s.answerWaiters.rails = s.rails := State.rails_congr (by simp [State.answerWaiters_kept])
  simp only [State.finishSeal]
  repeat' split
  · rfl
  · rw [act, answer, foldl_same State.rails _ (fun s t => State.afterSeal_rails _ s t)]; rfl
  · rw [answer, foldl_same State.rails _ (fun s t => State.afterSeal_rails _ s t)]; rfl
  · rfl

theorem State.failTile_rails (t : Nat) (s : State) : (s.failTile t).rails = s.rails := by
  simp only [State.failTile]
  rw [State.finishSeal_rails]
  exact State.rails_congr (by simp)

theorem State.escalate_rails (t id sev slot : Nat) (s : State) : (s.escalate t id sev slot).rails = s.rails := by
  simp only [State.escalate, State.proceed, State.tileHalt]
  repeat' split
  · rw [State.failTile_rails]; exact State.rails_congr (by simp)
  · exact State.rails_congr (by simp)
  · exact State.rails_congr (by simp)

theorem State.openSlot_rails (t id sev : Nat) (s : State) : (s.openSlot t id sev).rails = s.rails := by
  simp only [State.openSlot]
  repeat' split
  · rfl
  · rfl
  · rfl
  · exact State.escalate_rails ..
  · rfl
  · exact State.escalate_rails ..

theorem State.event_rails (t id : Nat) (i : FaultInfo) (s : State) : (s.event t id i).rails = s.rails := by
  have hput (r : Reg) (u i v : Nat) (s : State) : (s.putReg r u i v).rails = s.rails := State.rails_congr (by simp)
  have hfield (r : Reg) (u i hi lo v : Nat) (s : State) : (s.putField r u i hi lo v).rails = s.rails := hput ..
  have hraise (n : Nat) (s : State) : (s.raiseEvent n).rails = s.rails := State.rails_congr (by simp)
  have hannal (e : AEvent) (s : State) : (s.annal t e).rails = s.rails := State.rails_congr (by simp)
  have hdrawn (n : Nat) (s : State) : (s.drawn n).rails = s.rails := rfl
  have hsrc (v : Src) : (s.setSrc t id v).rails = s.rails := rfl
  simp only [State.event, apply_ite State.rails, State.openSlot_rails, hraise, hannal, hput, hfield, hdrawn, hsrc, ite_self]

theorem State.fault_rails (t id : Nat) (i : FaultInfo) (s : State) : (s.fault t id i).rails = s.rails := by
  simp only [State.fault]
  split
  · exact State.event_rails ..
  · rfl

/-- The sequencer's part of it, field by field. -/
theorem State.rails_eq {s t : State} (h : t.rails = s.rails) :
    t.pwr.st = s.pwr.st ∧ t.pwr.step = s.pwr.step ∧ t.pwr.prog = s.pwr.prog ∧ t.pwr.en = s.pwr.en ∧
      t.pwr.islands = s.pwr.islands ∧ t.pwr.resetN = s.pwr.resetN ∧ t.pwr.vaonOk = s.pwr.vaonOk ∧
      t.pwr.straps = s.pwr.straps ∧ t.pwr.pwr = s.pwr.pwr ∧ t.pwr.lastReset = s.pwr.lastReset := by
  simp only [State.rails, PowerState.mk.injEq] at h
  simp only [h, and_self]

end Sys2Proof.Machine
end

section
/-! The steps of a sequencer program (R466, R467, R470, R471, R473). -/

namespace Sys2Proof.Machine

/-- A rail fault is told and kept in SEQ_FAULT; it moves no program by itself (R467, R470). -/
theorem State.railFault_rails (m mv : Nat) (s : State) : (s.railFault m mv).rails = s.rails := by
  have put (v : Nat) (s : State) : (s.putReg .seqFault 0 0 v).rails = s.rails := State.rails_congr (by simp)
  simp only [State.railFault]
  rw [put, State.fault_rails]
  exact State.rails_congr (by simp)

/-- SEQ_FAULT shows the monitor that failed. -/
theorem State.railFault_shows {m : Nat} (hm : m < 32) (mv : Nat) (s : State) :
    (s.railFault m mv).field .seqFault 0 0 31 31 = 1 ∧ (s.railFault m mv).field .seqFault 0 0 28 24 = m := by
  have shown : (s.railFault m mv).reg .seqFault 0 0 =
      (2 ^ 31 + m * 2 ^ 24 + (s.annal 0 { code := 0x9003, addr := m, value := mv }).pwr.step % 256 * 2 ^ 16 + mv % 4096) % 2 ^ 32 := by
    simp [State.railFault]
  simp only [State.field, shown, bits]
  omega

/-- A field is read from the registers alone. -/
theorem State.field_congr {s t : State} (h : t.regs = s.regs) (r : Reg) (u i hi lo : Nat) :
    t.field r u i hi lo = s.field r u i hi lo := by
  simp only [State.field, State.reg_congr h]

theorem State.enterFalling_rising {n : Nat} {s : State} (h : s.pwr.st = .rising) :
    (s.enterFalling n).regs = s.regs ∧ (s.enterFalling n).pwr.st = .falling ∧ (s.enterFalling n).pwr.step = n ∧
      (s.enterFalling n).pwr.armed = [] := by
  simp [State.enterFalling, h]

theorem stepMon_lt (w : DWord) : stepMon w < 32 := Nat.mod_lt _ (by decide)

/-! ## END (R471) -/

theorem State.releaseIslands_group (s : State) :
    s.releaseIslands.pwr = { s.pwr with islands := true, scanning := true, resetAt := s.now } := by
  unfold State.releaseIslands
  dsimp only
  split
  · rfl
  · simp

theorem State.enterPower_group (v : PwrSt) (s : State) :
    (s.enterPower v).pwr = { s.pwr with pwr := v, quietAt := s.now } := by
  simp [State.enterPower, State.endQuiet_kept]

/-- What END of power-up makes of the state once the sequencer is UP: P0, and no island held but by RESET_N. -/
def State.endUp (s : State) : State :=
  let t := if s.pwr.pwr == .p0 then s else s.enterPower .p0
  if t.pwr.resetN then t.releaseIslands else t

theorem State.endUp_group (s : State) :
    s.endUp.pwr.st = s.pwr.st ∧ s.endUp.pwr.pwr = .p0 ∧ (s.pwr.resetN = true → s.endUp.pwr.islands = true) := by
  have entered : ∃ t : State, s.endUp = (if t.pwr.resetN then t.releaseIslands else t) ∧ t.pwr.st = s.pwr.st ∧
      t.pwr.pwr = .p0 ∧ t.pwr.resetN = s.pwr.resetN := by
    by_cases h : s.pwr.pwr = .p0
    · exact ⟨s, by simp [State.endUp, h], rfl, h, rfl⟩
    · exact ⟨s.enterPower .p0, by simp [State.endUp, h], by simp [State.enterPower_group]⟩
  obtain ⟨t, e, hst, hp0, hn⟩ := entered
  rw [e]
  cases hr : t.pwr.resetN
  · exact ⟨hst, hp0, fun h => by simp [← hn, hr] at h⟩
  · simp [State.releaseIslands_group, hst, hp0]

/-- A program that ends rising, with no off request latched, ends power-up. -/
theorem State.endStep_rising {s : State} (hst : s.pwr.st = .rising) (hoff : s.pwr.offLatched = false) :
    s.endStep = ({ s with pwr := { s.pwr with st := .up, offLatched := false } } : State).endUp := by
  simp only [State.endStep, hst, beq_self_eq_true, if_true, hoff, Bool.false_eq_true, if_false]
  rfl

/-! ## The rows -/

section
variable {s : State} {w : DWord} (hw : s.seqStep = some w)
include hw

theorem exec_check_scanned (hop : stepOp w = 4) (hf : s.pwr.fresh.getLsbD (stepMon w) = true) :
    exec .check s = .next (s.checkStep w) := by
  change execCheck s = _
  simp only [execCheck, hw, hop, hf, beq_self_eq_true, Bool.and_self, if_true]

theorem exec_seqEnd_runs (hop : stepOp w = 6) : exec .seqEnd s = .next s.endStep := by
  change execSeqEnd s = _
  simp only [execSeqEnd, hw, hop, beq_self_eq_true, if_true]

end

/-- Settles O44: each kind of step by its row, CHECK by the branch of State.checkStep its reading takes. -/
theorem sequencerSteps : Obligations.SequencerSteps := by
  unfold Obligations.SequencerSteps
  refine ⟨?enable, ?disable, ?waited, ?waits, ?inRange, ?latched, ?timeout, ?again, ?unscanned, ?jump, ?up, ?off, ?none⟩
  case enable =>
    intro w s hw hop
    change execEnable s = _
    simp only [execEnable, hw, hop, beq_self_eq_true, if_true]
    rfl
  case disable =>
    intro w s hw hop
    change execDisable s = _
    simp only [execDisable, hw, hop, beq_self_eq_true, if_true]
    rfl
  case waited =>
    intro w s hw hop ht
    change execWait s = _
    simp only [execWait, hw, hop, ht, beq_self_eq_true, decide_true, Bool.and_self, if_true]
    rfl
  case waits =>
    intro w s hw hop ht
    have ht' : ¬ s.pwr.stepAt + bits w.toNat 31 0 * 1000 ≤ s.now := by omega
    change execWait s = _
    simp only [execWait, hw, ht', decide_false, Bool.and_false, Bool.false_eq_true, if_false]
  case inRange =>
    intro w s hw hop hf hoff hlo hhi
    have going : (s.pwr.st == .rising && s.pwr.offLatched) = false := by
      rcases hoff with h | h <;> simp [h]
    rw [exec_check_scanned hw hop hf, yields_next_iff]
    simp only [State.checkStep, going, hlo, hhi, decide_true, Bool.and_self, Bool.false_eq_true, if_false, if_true]
    by_cases harm : stepArm w = 0
    · simp [harm, State.goStep]
    · simp [harm, State.goStep]
  case latched =>
    intro w s hw hop hf hst hoff
    obtain ⟨-, falling⟩ := State.enterFalling_rising (n := stepUnwind w) hst
    rw [exec_check_scanned hw hop hf, yields_next_iff]
    simp only [State.checkStep, hst, hoff, beq_self_eq_true, Bool.and_self, if_true]
    exact falling
  case timeout =>
    intro w s hw hop hf hst hoff hhi ht helse
    obtain ⟨hst', -⟩ := State.rails_eq (s.railFault_rails (stepMon w) (s.field .seqMon 0 (stepMon w) 11 0))
    obtain ⟨regs, falling, hstep, -⟩ := State.enterFalling_rising (n := stepElse w) (hst'.trans hst)
    obtain ⟨hbit, hmon⟩ := State.railFault_shows (stepMon_lt w) (s.field .seqMon 0 (stepMon w) 11 0) s
    have high : ¬ s.field .seqMon 0 (stepMon w) 11 0 ≤ stepHi w := by omega
    rw [exec_check_scanned hw hop hf, yields_next_iff]
    simp only [State.checkStep, hst, hoff, high, ht, helse, beq_self_eq_true, decide_true, decide_false, Bool.and_false,
      Bool.or_true, Bool.and_self, Bool.false_eq_true, if_true, if_false]
    exact ⟨falling, hstep, (State.field_congr regs ..).trans hbit, (State.field_congr regs ..).trans hmon⟩
  case again =>
    intro w s hw hop hf hoff hhi ht0 ht
    have high : ¬ s.field .seqMon 0 (stepMon w) 11 0 ≤ stepHi w := by omega
    have early : ¬ s.pwr.stepAt + stepTimeout w * 1000000 ≤ s.now := by omega
    rw [exec_check_scanned hw hop hf]
    simp only [State.checkStep, hoff, high, ht0, early, decide_false, Bool.and_false, Bool.or_self, Bool.false_eq_true,
      if_false]
  case unscanned =>
    intro w s hw hop hf
    change execCheck s = _
    simp only [execCheck, hw, hf, Bool.and_false, Bool.false_eq_true, if_false]
  case jump =>
    intro w s hw hop
    change execJumpStep s = _
    simp only [execJumpStep, hw, hop, beq_self_eq_true, if_true]
    rfl
  case up =>
    intro w s hw hop hst hoff
    rw [exec_seqEnd_runs hw hop, yields_next_iff, State.endStep_rising hst hoff]
    exact State.endUp_group _
  case off =>
    intro w s hw hop hst
    rw [exec_seqEnd_runs hw hop]
    simp [State.endStep, hst]
  case none =>
    intro s hw
    change execEnable s = _ ∧ execDisable s = _ ∧ execWait s = _ ∧ execCheck s = _ ∧ execJumpStep s = _ ∧ execSeqEnd s = _
    simp only [execEnable, execDisable, execWait, execCheck, execJumpStep, execSeqEnd, hw, and_self]

end Sys2Proof.Machine
end

section
/-! What a fault event leaves of a host side that holds nothing (R64, R102, R484). -/

namespace Sys2Proof.Machine

/-- No ring is enabled, no command or fetch is in progress, and no seal is. -/
structure HostIdle (s : State) : Prop where
  sqs : s.host.sqs = []
  cqs : s.host.cqs = []
  cmds : s.host.cmds = []
  fetches : ∀ p, (s.port p).fetches = []
  sealing : s.epo.sealing = none

/-- What of a state its host side's being idle rests on. -/
def State.hostWork (s : State) : Tbl HostPort × Tbl Sq × Tbl Cq × List Cmd × Option Sealing :=
  (s.host.ports, s.host.sqs, s.host.cqs, s.host.cmds, s.epo.sealing)

theorem HostIdle.congr {s t : State} (h : HostIdle s) (e : t.hostWork = s.hostWork) : HostIdle t := by
  simp only [State.hostWork, Prod.mk.injEq] at e
  obtain ⟨hports, hsqs, hcqs, hcmds, hseal⟩ := e
  exact ⟨hsqs.trans h.sqs, hcqs.trans h.cqs, hcmds.trans h.cmds,
    fun p => by simpa only [State.port, hports] using h.fetches p, hseal.trans h.sealing⟩

theorem State.hostWork_congr {s t : State} (hh : t.host = s.host) (he : t.epo = s.epo) : t.hostWork = s.hostWork := by
  simp only [State.hostWork, hh, he]

theorem State.raiseEvent_hostWork (k : Nat) (s : State) : (s.raiseEvent k).hostWork = s.hostWork :=
  foldl_same State.hostWork _ (fun s p => by simp [State.hostWork]) _ s

theorem HostIdle.dropFetches {s : State} (h : HostIdle s) (p : Nat) : s.dropFetches p = s := by
  simp only [State.dropFetches, h.fetches p, List.reverse_nil, List.foldl_nil]

/-- An abort finds nothing to drop or answer. -/
theorem HostIdle.startAbort {s : State} (h : HostIdle s) : HostIdle s.startAbort := by
  have port (u : State) (p : Nat) (hu : HostIdle u) :
      HostIdle (((u.dropFetches p).putField .ringGctrl p 0 31 31 1).putField .ringGctrl p 0 1 1 1) := by
    rw [hu.dropFetches p]
    exact hu.congr (State.hostWork_congr (by simp) (by simp))
  have ports (l : List Nat) (u : State) (hu : HostIdle u) : HostIdle (l.foldl (fun (s : State) p =>
      ((s.dropFetches p).putField .ringGctrl p 0 31 31 1).putField .ringGctrl p 0 1 1 1) u) := by
    induction l generalizing u with
    | nil => exact hu
    | cons p l ih => exact ih _ (port u p hu)
  have commands (ws : List Ctx) (u : State) (hu : HostIdle u) :
      HostIdle ((u.host.cmds.filter (fun k => k.opcode < 0x40)).foldl (fun s k => s.abortCommand ws k) u) := by
    rw [hu.cmds]
    exact hu
  simp only [State.startAbort]
  split
  · exact h
  · refine HostIdle.congr ?_ (foldl_same State.hostWork _ (fun u t => State.hostWork_congr (by simp) (by simp)) _ _)
    refine HostIdle.congr (commands _ _ (ports s.ports _ ?_)) (State.raiseEvent_hostWork ..)
    exact ⟨h.sqs, h.cqs, h.cmds, h.fetches, rfl⟩

theorem HostIdle.failTile {s : State} (h : HostIdle s) (t : Nat) : HostIdle (s.failTile t) := by
  have raised : HostIdle (({ s with flt := { s.flt with
      failed := s.flt.failed ||| tileBit t, resetting := s.flt.resetting.filter (fun e => e.1 != t) } } : State).raiseEvent 2) :=
    HostIdle.congr ⟨h.sqs, h.cqs, h.cmds, h.fetches, h.sealing⟩ (State.raiseEvent_hostWork ..)
  simp only [State.failTile, State.finishSeal, raised.sealing]
  exact raised

theorem HostIdle.annal {s : State} (h : HostIdle s) (t : Nat) (e : AEvent) : HostIdle (s.annal t e) :=
  h.congr (State.hostWork_congr (by simp) (by simp))

theorem HostIdle.escalate {s : State} (h : HostIdle s) (t id sev slot : Nat) : HostIdle (s.escalate t id sev slot) := by
  simp only [State.escalate, State.proceed, State.tileHalt]
  repeat' split
  · refine HostIdle.failTile ?_ t
    exact (h.annal ..).congr rfl
  · exact (h.annal ..).congr rfl
  · exact (h.annal ..).startAbort

theorem HostIdle.openSlot {s : State} (h : HostIdle s) (t id sev : Nat) : HostIdle (s.openSlot t id sev) := by
  simp only [State.openSlot]
  repeat' split
  · exact h
  · exact h.congr rfl
  · exact h
  · exact h.escalate ..
  · exact h.congr rfl
  · exact h.escalate ..

theorem HostIdle.event {s : State} (h : HostIdle s) (t id : Nat) (i : FaultInfo) : HostIdle (s.event t id i) := by
  have put {u : State} (hu : HostIdle u) (r : Reg) (k i v : Nat) : HostIdle (u.putReg r k i v) :=
    hu.congr (State.hostWork_congr (by simp) (by simp))
  have field {u : State} (hu : HostIdle u) (r : Reg) (k i hi lo v : Nat) : HostIdle (u.putField r k i hi lo v) := put hu ..
  have raise {u : State} (hu : HostIdle u) (k : Nat) : HostIdle (u.raiseEvent k) := hu.congr (State.raiseEvent_hostWork ..)
  unfold State.event
  extract_lets v sev s1 fresh s2 s3 s4 s5
  have noted : HostIdle s2 := (h.congr (t := s1) rfl).annal ..
  have told : HostIdle s3 := put (noted.congr (t := s2.drawn 1) rfl) ..
  have summed : HostIdle s4 := by
    unfold s4
    split
    · exact field told ..
    · exact told
  have raised : HostIdle s5 := by
    unfold s5
    split
    · exact raise summed _
    · exact summed
  split
  · exact raised.openSlot ..
  · exact raised

theorem HostIdle.fault {s : State} (h : HostIdle s) (t id : Nat) (i : FaultInfo) : HostIdle (s.fault t id i) := by
  simp only [State.fault]
  split
  · refine HostIdle.event ?_ t id i
    exact h.congr rfl
  · exact h.congr rfl

/-! ## After a reset of every island -/

/-- What every entry of a list meets, the one looked up meets. -/
theorem lookup_of_forall {V : Type} {P : V → Prop} {l : List (Nat × V)} (h : ∀ e ∈ l, P e.2) {k : Nat} {v : V}
    (hv : l.lookup k = some v) : P v := by
  induction l with
  | nil => cases hv
  | cons e l ih =>
    obtain ⟨hhead, htail⟩ := List.forall_mem_cons.mp h
    by_cases hk : (k == e.1) = true
    · simp only [List.lookup, hk, Option.some.injEq] at hv
      exact hv ▸ hhead
    · simp only [List.lookup, hk] at hv
      exact ih htail hv

/-- What every value of a map meets, and the default too, an entry of the mapped table meets. -/
theorem tget_tmap_of {V : Type} [DecidableEq V] {d : Nat → V} {f : Nat → V → V} {m : Tbl V} {P : V → Prop}
    (hf : ∀ k v, P (f k v)) (hd : ∀ k, P (d k)) (k : Nat) : P (tget d (tmap d f m) k) := by
  unfold tget
  cases h : (tmap d f m).lookup k with
  | none => exact hd k
  | some v =>
    refine lookup_of_forall (fun e he => ?_) h
    obtain ⟨x, -, rfl⟩ := List.mem_map.mp (List.mem_of_mem_filter he)
    exact hf ..

theorem State.afterHard_hostIdle (e : Rst) (s : State) : HostIdle (s.afterHard e) where
  sqs := by simp [State.afterHard, State.bootEpochs_kept]; rfl
  cqs := by simp [State.afterHard, State.bootEpochs_kept]; rfl
  cmds := by simp [State.afterHard, State.bootEpochs_kept]; rfl
  sealing := rfl
  fetches p := by
    have ports : (s.afterHard e).host.ports = tmap (fun _ => {}) (fun _ h => { perstLow := h.perstLow }) s.host.ports := by
      simp [State.afterHard, State.bootEpochs_kept]
      rfl
    rw [State.port, ports]
    exact tget_tmap_of (P := fun v : HostPort => v.fetches = []) (fun _ _ => rfl) (fun _ => rfl) p

end Sys2Proof.Machine
end

section
/-! Scans, requests, supply and VAON changes of the rail sequencer, and the commit of its program (R464, R470 to R476, R488, R495). -/

namespace Sys2Proof.Machine

/-! ## Scans (R470) -/

theorem State.scan_field (m v : Nat) (s : State) : (s.putField .seqMon 0 m 11 0 (min v monitorTop)).field .seqMon 0 m 11 0 = min v monitorTop := by
  have top : min v monitorTop ≤ 2000 := Nat.min_le_right ..
  simp only [State.field, State.putField, State.putReg_reg, bits, setBits]
  omega

theorem exec_monitorScan_due {m v : Nat} {s : State} (hm : m < 32) (h : s.scans m = true) :
    exec (.monitorScan m v) s = .next (s.scanMonitor m v) := by
  change execMonitorScan m v s = _
  simp only [execMonitorScan, hm, decide_true, withUnit_true, h, if_true]

/-! ## Entries of the shut-down program (R470 to R475) -/

theorem State.enterFalling_group (n : Nat) (s : State) :
    (s.enterFalling n).pwr.st = .falling ∧ (s.enterFalling n).pwr.step = n ∧ (s.enterFalling n).pwr.islands = false ∧
      (s.enterFalling n).pwr.armed = [] := ⟨rfl, rfl, rfl, rfl⟩

theorem State.resetIslands_pwr (e : Rst) (s : State) : (s.resetIslands e).pwr = { s.pwr with
    pwr := .p0, trans := none, down := none, ready := false, scanning := false, scanned := []
    mediaPages := [], ddrGib := [], resetAt := s.now } := rfl

theorem State.afterHard_pwr (e : Rst) (s : State) : (s.afterHard e).pwr = { s.pwr with
    pwr := .p0, trans := none, down := none, ready := false, scanning := false, scanned := []
    mediaPages := [], ddrGib := [], resetAt := s.now, warmBoot := false } := by
  simp [State.afterHard, State.bootEpochs_kept, State.resetIslands_pwr]

theorem State.enterFalling_supplyOk (n : Nat) (s : State) : (s.enterFalling n).pwr.supplyOk = s.pwr.supplyOk := by
  unfold State.enterFalling
  dsimp only
  split
  · rw [State.afterHard_pwr]
  · rfl

theorem State.shutDown_up {s : State} (h : s.pwr.st = .up) : s.shutDown = s.enterFalling s.pwr.prog.sdEntry := by
  simp only [State.shutDown, h]

theorem exec_pwrOffReq {s : State} (h : s.pwr.vaonOk = true) : exec .pwrOffReq s = .next s.offRequest := by
  change execPwrOffReq s = _
  simp only [execPwrOffReq, h, if_true]

theorem exec_pwrOnReq {s : State} (h : s.pwr.vaonOk = true) : exec .pwrOnReq s = .next s.onRequest := by
  change execPwrOnReq s = _
  simp only [execPwrOnReq, h, if_true]

/-! ## The commit (R495) -/

theorem exec_seqCommit {p : Nat} {s : State} (h : s.takesWrite p = true) :
    exec (.seqCommit p) s = .next (s.commitStore.commitProgram p) := bar0_open p _ s h

theorem imageError_le (b : List Byte) : imageError b ≤ 2 := by
  unfold imageError
  repeat' split
  all_goals decide

/-- In OPEN a valid image starts its flash write, and any other shows its error. -/
theorem State.commitProgram_opened (p : Nat) {s : State} (hlife : s.cur.lifecycle = .opened) (hbusy : s.pwr.commitBusy = false) :
    let t := s.commitStore.commitProgram p
    t.reg .seqCommit 0 0 = (if imageError s.stagedImage = 0 then 2 ^ 31 else imageError s.stagedImage) ∧
      t.pwr.commitBusy = decide (imageError s.stagedImage = 0) ∧
      (imageError s.stagedImage = 0 → t.pwr.commitImg = s.stagedImage) ∧ t.pwr.flash = s.pwr.flash := by
  have hlife' : s.commitStore.cur.lifecycle = .opened := hlife
  have hbusy' : s.commitStore.pwr.commitBusy = false := hbusy
  have image : s.commitStore.stagedImage = s.stagedImage := rfl
  have le := imageError_le s.stagedImage
  have opened : (Life.opened == Life.sealed || Life.opened == Life.scrapped) = false := rfl
  intro t
  by_cases he : imageError s.stagedImage = 0
  · have ht : t = ({ s.commitStore with pwr := { s.commitStore.pwr with
        commitBusy := true, commitImg := s.stagedImage } } : State).putReg .seqCommit 0 0 (2 ^ 31) := by
      simp only [t, State.commitProgram, hlife', opened, hbusy', image, he, Bool.false_eq_true, if_false, if_true]
    rw [ht]
    simp [he]
  · have ht : t = s.commitStore.putReg .seqCommit 0 0 (imageError s.stagedImage) := by
      simp only [t, State.commitProgram, hlife', opened, hbusy', image, he, Bool.false_eq_true, if_false]
    rw [ht]
    simp only [State.putReg_reg, State.putReg_kept, he, if_false, decide_false, false_implies, true_and]
    exact ⟨Nat.mod_eq_of_lt (by omega), hbusy, rfl⟩

/-! ## POR (R476, R488) -/

/-- A program that does not fit the strap is told of; the part goes on with the built-in one (R468). -/
theorem State.chooseProgram_keeps {s : State} (h : HostIdle s) :
    HostIdle s.chooseProgram ∧ s.chooseProgram.now = s.now ∧ s.chooseProgram.pwr.vaonOk = s.pwr.vaonOk ∧
      s.chooseProgram.pwr.straps = s.pwr.straps ∧ s.chooseProgram.pwr.lastReset = s.pwr.lastReset ∧
      s.chooseProgram.pwr.en = s.pwr.en ∧ s.chooseProgram.pwr.st = s.pwr.st := by
  unfold State.chooseProgram
  split
  · exact ⟨h.congr rfl, rfl, rfl, rfl, rfl, rfl, rfl⟩
  · split
    · exact ⟨h.congr rfl, rfl, rfl, rfl, rfl, rfl, rfl⟩
    · have idle : HostIdle { s with pwr := { s.pwr with prog := Program.builtin, builtin := true, progBad := true } } :=
        h.congr rfl
      obtain ⟨hst, -, -, hen, -, -, hvaon, hstraps, -, hlast⟩ := State.rails_eq (State.fault_rails 0 (srcId 0x11 0) {}
        { s with pwr := { s.pwr with prog := Program.builtin, builtin := true, progBad := true } })
      exact ⟨idle.fault .., by simp, hvaon, hstraps, hlast, hen, hst⟩

/-- The part as POR leaves it before it chooses its program. -/
def State.powered (s : State) : State :=
  let s0 : State := { s with pwr := { s.pwr with vaonOk := true } }
  let s2 := (((s0.afterHard .por).zeroTimes).sampleStraps).rebootCurators
  { s2 with pwr := { s2.pwr with st := .down, step := 0, en := 0, armed := [], lastReset := 0, islands := false } }

theorem State.powerOn_eq (s : State) : s.powerOn =
    let u := s.powered.chooseProgram.noteReset 0 0
    if u.pwr.prog.autoOn then u.startRising else u := rfl

theorem State.powered_group (s : State) : HostIdle s.powered ∧ s.powered.now = 0 ∧ s.powered.pwr.vaonOk = true ∧
    s.powered.pwr.straps = s.pwr.pins ∧ s.powered.pwr.lastReset = 0 ∧ s.powered.pwr.en = 0 ∧ s.powered.pwr.st = .down := by
  refine ⟨HostIdle.congr (State.afterHard_hostIdle .por _) rfl, rfl, ?_, ?_, rfl, rfl, rfl⟩
  · simp [State.powered, State.rebootCurators_kept, State.sampleStraps, State.zeroTimes, State.afterHard_pwr]
  · simp [State.powered, State.rebootCurators_kept, State.sampleStraps, State.zeroTimes, State.afterHard_pwr]

theorem State.startRising_group (s : State) : s.startRising.pwr.st = .rising ∧ s.startRising.pwr.step = 0 ∧
    s.startRising.pwr.vaonOk = s.pwr.vaonOk ∧ s.startRising.pwr.straps = s.pwr.straps ∧
    s.startRising.pwr.lastReset = s.pwr.lastReset ∧ s.startRising.pwr.en = s.pwr.en ∧
    s.startRising.pwr.prog = s.pwr.prog := ⟨rfl, rfl, rfl, rfl, rfl, rfl, rfl⟩

/-- POR: part time 0, the straps sampled, no enable, no ring, and the program begun where auto_on is set. -/
theorem State.powerOn_group (s : State) : let t := s.powerOn
    t.pwr.vaonOk = true ∧ t.now = 0 ∧ t.pwr.straps = s.pwr.pins ∧ t.pwr.lastReset = 0 ∧ t.pwr.en = 0 ∧
      t.pwr.st = (if t.pwr.prog.autoOn then .rising else .down) ∧ t.host.sqs = [] ∧ t.host.cqs = [] := by
  obtain ⟨idle, now, vaon, straps, last, en, st⟩ := s.powered_group
  obtain ⟨idle', now', vaon', straps', last', en', st'⟩ := State.chooseProgram_keeps idle
  have noted : (s.powered.chooseProgram.noteReset 0 0).pwr = s.powered.chooseProgram.pwr := State.noteReset_pwr ..
  have sqs : (s.powered.chooseProgram.noteReset 0 0).host.sqs = [] := by rw [State.noteReset_host, idle'.sqs]
  have cqs : (s.powered.chooseProgram.noteReset 0 0).host.cqs = [] := by rw [State.noteReset_host, idle'.cqs]
  have time : (s.powered.chooseProgram.noteReset 0 0).now = 0 := by simp [now', now]
  rw [State.powerOn_eq]
  dsimp only
  split
  case isTrue auto =>
    obtain ⟨rst, -, rvaon, rstraps, rlast, ren, rprog⟩ := (s.powered.chooseProgram.noteReset 0 0).startRising_group
    rw [rst, rvaon, rstraps, rlast, ren, rprog, auto, noted]
    exact ⟨vaon'.trans vaon, time, straps'.trans straps, last'.trans last, en'.trans en, rfl, sqs, cqs⟩
  case isFalse =>
    rw [noted]
    exact ⟨vaon'.trans vaon, time, straps'.trans straps, last'.trans last, en'.trans en, st'.trans st, sqs, cqs⟩

/-! ## The statement -/

/-- Settles O45, clause by clause: a rail fault moves no program by itself, and what POR leaves of the host side is idle, so that
the fault of a bad program finds nothing there. -/
theorem sequencerRequests : Obligations.SequencerRequests := by
  unfold Obligations.SequencerRequests
  refine ⟨?scan, ?armed, ?expired, ?holds, ?offRising, ?offAlone, ?orderly, ?onDown, ?onQuiet, ?fall, ?returned, ?noRestart,
    ?release, ?commit, ?sealed, ?written, ?vaon, ?por, ?powered⟩
  case scan =>
    intro m v s hm hscan harmed
    rw [exec_monitorScan_due hm hscan, yields_next_iff]
    simp only [State.scanMonitor, harmed]
    exact ⟨State.scan_field m v s, by simp⟩
  case armed =>
    intro m v a s hm hscan harmed hdown hhi hst
    have high : ¬ min v monitorTop ≤ a.hi := by omega
    rw [exec_monitorScan_due hm hscan, yields_next_iff]
    simp only [State.scanMonitor, harmed, hdown, high, decide_false, Bool.and_false, Bool.false_eq_true, if_false, if_true]
    have rails : (State.railFault m (min v monitorTop) { s.putField .seqMon 0 m 11 0 (min v monitorTop) with
        pwr := { (s.putField .seqMon 0 m 11 0 (min v monitorTop)).pwr with
          fresh := (s.putField .seqMon 0 m 11 0 (min v monitorTop)).pwr.fresh ||| BitVec.ofNat 32 (2 ^ m) } }).rails = _ :=
      State.railFault_rails ..
    obtain ⟨st, -, prog, -⟩ := State.rails_eq rails
    rw [State.shutDown_up (by rw [st]; exact hst), prog]
    exact State.enterFalling_group _ _
  case expired =>
    intro s hst hoff
    have row : exec .holdOffExpiry s = .next (if s.pwr.onLatched then s.startRising
        else { s with pwr := { s.pwr with st := .down } }) := by
      change execHoldOffExpiry s = _
      simp only [execHoldOffExpiry, hst, hoff, beq_self_eq_true, decide_true, Bool.and_self, if_true]
    rw [row, yields_next_iff]
    cases s.pwr.onLatched <;> rfl
  case holds =>
    intro s hst hoff
    have early : ¬ s.pwr.offAt + max 100 s.pwr.prog.minOff * 1000000 ≤ s.now := by omega
    change execHoldOffExpiry s = _
    simp only [execHoldOffExpiry, early, decide_false, Bool.and_false, Bool.false_eq_true, if_false]
  case offRising =>
    intro s hv hst
    rw [exec_pwrOffReq hv, State.offRequest, hst]
  case offAlone =>
    intro s hv hst hprim
    have alone : s.orderlyOff = s.enterFalling s.pwr.prog.sdEntry := by simp [State.orderlyOff, hprim]
    rw [exec_pwrOffReq hv, State.offRequest, hst, yields_next_iff]
    simp only [alone]
    exact ⟨rfl, rfl⟩
  case orderly =>
    intro s hv hst hprim hhalt hdown htrans
    have waits : s.orderlyOff = ({ s with pwr := { s.pwr with down := some (0, s.now) } } : State).trigger .powerDown := by
      simp [State.orderlyOff, hhalt, hdown, htrans, Option.isNone_eq_false_iff.mpr hprim]
    rw [exec_pwrOffReq hv, State.offRequest, hst, yields_next_iff]
    simp only [waits, State.trigger_kept]
    exact ⟨hst, rfl⟩
  case onDown =>
    intro s hv hst
    rw [exec_pwrOnReq hv, State.onRequest, hst, yields_next_iff]
    exact ⟨rfl, rfl⟩
  case onQuiet =>
    intro s hv hst hp htrans
    rw [exec_pwrOnReq hv, State.onRequest, hst, yields_next_iff]
    simp [hp, htrans, State.startTransition]
  case fall =>
    intro s hv hst
    have row : exec .supplyOkFall s = .next
        (({ s with pwr := { s.pwr with supplyOk := false } } : State).enterFalling s.pwr.prog.sdEntry) := by
      change execSupplyOkFall s = _
      simp only [execSupplyOkFall, hv, if_true, State.shutDown, hst]
    rw [row, yields_next_iff]
    exact ⟨State.enterFalling_supplyOk .., rfl, rfl⟩
  case returned =>
    intro s hv hrestart hst
    have row : exec .supplyOkReturn s = .next ({ s with pwr := { s.pwr with supplyOk := true } } : State).startRising := by
      change execSupplyOkReturn s = _
      simp only [execSupplyOkReturn, hv, hrestart, hst, State.onRequest, Bool.and_self, bne_iff_ne, ne_eq, reduceCtorEq,
        not_false_eq_true, Bool.and_eq_true, and_self, if_true]
    rw [row, yields_next_iff]
    exact ⟨rfl, rfl, rfl⟩
  case noRestart =>
    intro s hrestart
    change execSupplyOkReturn s = _
    simp only [execSupplyOkReturn, hrestart, Bool.and_false, Bool.false_and, Bool.false_eq_true, if_false]
  case release =>
    intro s hst hi
    have row : exec .resetNRelease s = .next ({ s with pwr := { s.pwr with resetN := true } } : State).releaseIslands := by
      change execResetNRelease s = _
      simp only [execResetNRelease, hst, hi, beq_self_eq_true, Bool.not_false, Bool.and_self, if_true]
    rw [row, yields_next_iff, State.releaseIslands_group]
    exact ⟨rfl, rfl, rfl⟩
  case commit =>
    intro p s h hlife hbusy
    rw [exec_seqCommit h, yields_next_iff]
    exact State.commitProgram_opened p hlife hbusy
  case sealed =>
    intro p s h hlife
    have hlife' : s.commitStore.cur.lifecycle = .sealed := hlife
    rw [exec_seqCommit h]
    simp only [State.commitProgram, hlife', beq_self_eq_true, Bool.true_or, if_true]
  case written =>
    intro s hbusy
    have row (ok : Bool) : exec (.seqCommitDone ok) s = .next (({ s with pwr := { s.pwr with
        commitBusy := false, commitImg := [], commitOk := ok, flash := if ok then s.pwr.commitImg else s.pwr.flash } } : State).putReg
          .seqCommit 0 0 (if ok then 0 else 3)) := by
      change execSeqCommitDone ok s = _
      simp only [execSeqCommitDone, hbusy, if_true]
    rw [row, row, yields_next_iff, yields_next_iff]
    simp
  case vaon =>
    intro s hv
    have row : exec .vaonFall s = .next s.loseVaon := by
      change execVaonFall s = _
      simp only [execVaonFall, hv, if_true]
    rw [row, yields_next_iff]
    exact ⟨rfl, rfl, rfl, rfl, rfl⟩
  case por =>
    intro s hv
    have row : exec .por s = .next s.powerOn := by
      change execPor s = _
      simp only [execPor, hv, Bool.false_eq_true, if_false]
    rw [row, yields_next_iff]
    exact s.powerOn_group
  case powered =>
    intro s hv
    change execPor s = _
    simp only [execPor, hv, if_true]

end Sys2Proof.Machine
end

section
/-! The key commands and the end of a rotation (R383, R385, R386, R388, R389, R394). -/

namespace Sys2Proof.Machine

/-- A command that the sideband does not accept is in no Curator queue entry of it (R62, R72). -/
theorem leaveHead_ringOnly {opc : Nat} (h : sidebandOpcode opc = false) (c : Ctx) (s : State) : s.leaveHead opc c = s := by
  unfold State.leaveHead
  split
  · rw [h, Bool.and_false, if_neg Bool.false_ne_true]
  · rfl

/-- An accepted command of such an opcode is its body on the state as it is. -/
theorem command_ringOnly {opc src : Nat} {c : Ctx} {ps : List Param} {body : State → State} {s : State}
    (ho : sidebandOpcode opc = false) (h : s.accepts opc c ps = true) : s.command opc src c ps body = body s := by
  rw [command_accepted opc src c ps body s h, leaveHead_ringOnly ho]

/-! ## KEY_CREATE -/

theorem exec_keyCreate {c : Ctx} {k : Byte} {a n : DWord} {s : State} (h : s.accepts 0x50 c (keyCreateParams k a n) = true)
    (hr : s.rangeCheck a.toNat n.toNat (2 ^ 40) = none) :
    exec (.keyCreate c k a n) s = .next (if a.toNat % 65536 ≠ 0 || n.toNat % 65536 ≠ 0 then s.reply srcCurator c .param 0
      else s.keyCreate c k.toNat (a.toNat / 65536) (n.toNat / 65536)) := by
  change execKeyCreate c k a n s = _
  simp only [execKeyCreate, command_ringOnly (show sidebandOpcode 0x50 = false from rfl) h, hr]

theorem exec_keyCreate_aligned {c : Ctx} {k : Byte} {a n : DWord} {s : State}
    (h : s.accepts 0x50 c (keyCreateParams k a n) = true) (hr : s.rangeCheck a.toNat n.toNat (2 ^ 40) = none)
    (ha : a.toNat % 65536 = 0) (hn : n.toNat % 65536 = 0) :
    exec (.keyCreate c k a n) s = .next (s.keyCreate c k.toNat (a.toNat / 65536) (n.toNat / 65536)) := by
  rw [exec_keyCreate h hr]
  simp [ha, hn]

/-- A rotation counts the version and keeps the key in use as the previous one (R388). -/
theorem State.rotateKey_kid (k : Nat) (s : State) : ((s.rotateKey k).kid k).version = (s.kid k).version + 1 ∧
    ((s.rotateKey k).kid k).prevKey = some (s.curKeyOf k) := by
  have row : (s.rotateKey k).kid k =
      { st := .rotating, version := (s.kid k).version + 1, curKey := some s.freshKey, prevKey := some (s.curKeyOf k),
        rotSeq := s.seqsNow } := State.setKid_kid ..
  rw [row]
  exact ⟨rfl, rfl⟩

/-! ## KEY_RETIRE -/

theorem exec_keyRetire_absent {p q i : Nat} {c : Ctx} {k : Byte} {o : Token} {s : State}
    (h : s.accepts 0x51 c (keyRetireParams k 0) = true) (hc : c.path = .ring p q i) (hroll : s.epo.rollback = false)
    (hbusy : s.foliosBusy (fun f => s.ofKid k.toNat f) = false) :
    exec (.keyRetire c k 0 o) s = .next (let a := s.withToken o false true 4 k.toNat (fun s => s.keyRetire k.toNat)
      a.after.replyWith srcCurator c a.st a.result a.data) := by
  change execKeyRetire c k 0 o s = _
  have idle : (s.epo.rollback || s.foliosBusy (fun f => s.ofKid k.toNat f)) = false := by rw [hroll, hbusy]; rfl
  rw [execKeyRetire, idle, if_neg Bool.false_ne_true, State.tokenCommand,
    command_ringOnly (show sidebandOpcode 0x51 = false from rfl) h, withSlot_absent hc (by decide)]
  simp [hc]

/-- What KEY_RETIRE leaves of a KID with a key (R389). -/
def State.retired (k : Nat) (s : State) : SlotAnswer :=
  { st := .done
    after := (s.dropFolios (fun f => s.ofKid k f)).setKid k { s.kid k with st := .retired, curKey := none, prevKey := none } }

theorem State.reply_kid (src : Nat) (c : Ctx) (st : Status) (r k : Nat) (s : State) :
    (s.reply src c st r).kid k = s.kid k := by
  simp [State.kid]

/-! ## RIGHTS_SET -/

theorem rights_reserved : ∀ r : Byte, 4 ≤ r.toNat → (r.toNat &&& (2 ^ 8 - 2 ^ 2)) != 0 := by decide

/-- Bits 7 to 2 of the rights are reserved (R53, R394). -/
theorem rightsSetParams_bad {k m r : Byte} (h : 4 ≤ r.toNat) : (rightsSetParams k m r).any (fun f => f.bad) = true := by
  have bad := rights_reserved r h
  simp [rightsSetParams, Param.bad, parTop, par] at bad ⊢
  exact bad

/-- Settles O22: an accepted command is its body, a KID reads what was written of it, and a rotation ends by its counts. -/
theorem keyCommands : Obligations.KeyCommands := by
  unfold Obligations.KeyCommands
  refine ⟨?rotate, ?bind, ?unaligned, ?retire, ?sealed, ?rights, ?reserved, ?done, ?other⟩
  case rotate =>
    intro c k a n s h ha hn hr hact hro hroll
    refine ⟨?_, State.rotateKey_kid ..⟩
    rw [exec_keyCreate_aligned h hr ha hn, State.keyCreate, hact]
    simp only [hro, hroll, Bool.false_eq_true, if_false]
  case bind =>
    intro c k a n f l s h ha hn hr hact hro hroll hbusy
    rw [exec_keyCreate_aligned h hr ha hn, State.keyCreate, hact]
    simp only [hro, hroll, hbusy, Bool.or_self, Bool.false_eq_true, if_false]
  case unaligned =>
    intro c k a n s h hr halign
    rw [exec_keyCreate h hr, if_pos]
    have h := not_and_or.mp halign
    simpa using h
  case retire =>
    intro p q i c k o s h hc hroll hbusy hlife hk hlive
    have hk' : k.toNat ≠ 0 := fun e => hk (BitVec.eq_of_toNat_eq e)
    have answer : s.keyRetire k.toNat = s.retired k.toNat := by
      simp only [State.keyRetire, hk', hlive, if_false, State.retired]
    rw [exec_keyRetire_absent h hc hroll hbusy, yields_next_iff]
    have opened : (Life.opened == Life.sealed) = false := rfl
    simp only [State.withToken, hlife, opened, answer, Bool.not_false, Bool.false_eq_true, if_true, if_false]
    have kid : (((s.retired k.toNat).after.reply srcCurator c .done 0).kid k.toNat) = _ :=
      (State.reply_kid ..).trans (State.setKid_kid ..)
    change (((s.retired k.toNat).after.reply srcCurator c .done 0).kid k.toNat).st = _ ∧
      (((s.retired k.toNat).after.reply srcCurator c .done 0).kid k.toNat).curKey = _ ∧
      (((s.retired k.toNat).after.reply srcCurator c .done 0).kid k.toNat).prevKey = _
    rw [kid]
    exact ⟨rfl, rfl, rfl⟩
  case sealed =>
    intro p q i c k o s h hc hroll hbusy hlife
    rw [exec_keyRetire_absent h hc hroll hbusy]
    simp only [State.withToken, hlife, beq_self_eq_true, Bool.not_false, if_true]
    rfl
  case rights =>
    intro c k m r s h hr hm hlife
    have row : exec (.rightsSet c k m r) s = .next ((s.setRights m.toNat k.toNat (r.setWidth 2)).reply srcCurator c .done
        (s.rights m.toNat k.toNat).toNat) := by
      have low : ¬ 8 ≤ m.toNat := by omega
      have opened : (Life.opened == Life.sealed) = false := rfl
      change execRightsSet c k m r s = _
      simp only [execRightsSet, command_ringOnly (show sidebandOpcode 0x52 = false from rfl) h, low, hlife, opened,
        Bool.false_and, Bool.false_eq_true, if_false]
    rw [row, yields_next_iff]
    refine ⟨rfl, ?_⟩
    have rights : ((s.setRights m.toNat k.toNat (r.setWidth 2)).reply srcCurator c .done
        (s.rights m.toNat k.toNat).toNat).cry = (s.setRights m.toNat k.toNat (r.setWidth 2)).cry := by simp
    rw [State.rights, rights]
    exact State.setRights_rights ..
  case reserved =>
    intro p q i c k m r s hc hruns hr
    have ring : (c.path == Path.sideband) = false := by rw [hc]; rfl
    have arrives : s.arrives 0x52 c (rightsSetParams k m r) = false := by
      simp only [State.arrives, ring, Bool.false_and]
    have check : s.precheck 0x52 c (rightsSetParams k m r) = some .reserved := by
      simp only [State.precheck, ring, Bool.false_and, Bool.or_false, rightsSetParams_bad hr, Bool.or_true,
        Bool.false_eq_true, if_false, if_true]
    change execRightsSet c k m r s = _
    rw [execRightsSet, command_refused _ _ _ _ _ _ _ arrives hruns check, leaveHead_ringOnly rfl]
  case done =>
    intro k s hk hhalt hst hold
    change execKeyRotationDone k s = _
    simp only [execKeyRotationDone, hk, decide_true, withUnit_true, hhalt, beq_self_eq_true, if_true, State.rotationDone, hst,
      hold, Bool.and_self]
  case other =>
    intro k s hk hst
    have same : s.rotationDone k = s := by simp [State.rotationDone, hst]
    change execKeyRotationDone k s = _
    simp only [execKeyRotationDone, hk, decide_true, withUnit_true, same, ite_self]

end Sys2Proof.Machine
end

section
/-! The counters and keys of a tile's DDR5 (R364, R370, R371, R374, R376). -/

namespace Sys2Proof.Machine

/-! ## What a new counter leaves of the tracts, and the majors that only rise -/

/-- The tract valid maps are the same, and tile `k` has taken back no major. -/
structure CountersRise (k : Nat) (s t : State) : Prop where
  tracts : t.cry.tracts = s.cry.tracts
  major  : s.topMajor k ≤ t.topMajor k

variable {k : Nat}

theorem CountersRise.trans {s t u : State} (h1 : CountersRise k s t) (h2 : CountersRise k t u) : CountersRise k s u :=
  ⟨h2.tracts.trans h1.tracts, h1.major.trans h2.major⟩

theorem CountersRise.of_cry {s t : State} (h : t.cry = s.cry) : CountersRise k s t :=
  ⟨by rw [h], Nat.le_of_eq (by rw [State.topMajor, State.topMajor, h])⟩

theorem State.writeDdr_rise (i j : Nat) (s : State) : CountersRise k s (s.writeDdr k i j) :=
  .of_cry (by simp only [State.writeDdr_kept])

theorem State.majorUp_cry (i : Nat) (s : State) : (s.majorUp k i).cry =
    { s.cry with
      major := tset (fun _ => 0) s.cry.major k (s.topMajor k + 1)
      leaves := tset (fun _ => {}) s.cry.leaves (leafKey k i) { major := s.topMajor k + 1, minors := [] }
      nodes := tset (fun _ => {}) s.cry.nodes (nodeKey k 0 i) { s.cnode k 0 i with cached := true, dirty := true } } := by
  rw [State.majorUp, foldl_cry _ _ (fun s j => by simp only [State.writeDdr_kept])]
  rfl

theorem State.topMajor_tset {s : State} {v : Nat} {t : State} (h : t.cry.major = tset (fun _ => 0) s.cry.major k v) :
    t.topMajor k = v := by
  rw [State.topMajor, h, tget_tset_self]

theorem State.majorUp_topMajor (i : Nat) (s : State) : (s.majorUp k i).topMajor k = s.topMajor k + 1 :=
  State.topMajor_tset (congrArg CryState.major (State.majorUp_cry i s))

theorem State.majorUp_rise (i : Nat) (s : State) : CountersRise k s (s.majorUp k i) where
  tracts := by rw [State.majorUp_cry]
  major := by rw [State.majorUp_topMajor]; exact Nat.le_succ _

theorem State.freshLeaf_rise (i : Nat) (s : State) : CountersRise k s (s.freshLeaf k i) := by
  unfold State.freshLeaf
  dsimp only
  split
  · exact ⟨rfl, (Nat.le_succ _).trans (Nat.le_of_eq (State.topMajor_tset rfl).symm)⟩
  · exact .of_cry rfl

theorem State.bumpMinor_rise (i j : Nat) (s : State) : CountersRise k s (s.bumpMinor k i j) := by
  have fresh := State.freshLeaf_rise (k := k) i s
  unfold State.bumpMinor
  dsimp only
  split
  · exact fresh.trans (State.majorUp_rise ..)
  · exact fresh.trans ⟨rfl, Nat.le_refl _⟩

theorem foldl_rise {A : Type} {f : State → A → State} (h : ∀ s x, CountersRise k s (f s x)) (l : List A) (s : State) :
    CountersRise k s (l.foldl f s) := by
  induction l generalizing s with
  | nil => exact .of_cry rfl
  | cons x l ih => exact (h s x).trans (ih _)

/-- A tract that is written anew has a new counter in each of its lines, and is as valid as it was (R370). -/
theorem State.rewriteTract_rise (n : Nat) (s : State) : CountersRise k s (s.rewriteTract k n) :=
  foldl_rise (fun s _ => (State.bumpMinor_rise _ _ s).trans (State.writeDdr_rise ..)) _ _

/-! ## The first write of a tract (R364) -/

theorem State.firstWrite_inside {n : Nat} {s : State} (hv : s.tractValid k n = false) (hlo : (s.ddrMap k).leafPool ≤ n * 4096)
    (hhi : n * 4096 + 4096 ≤ (s.ddrMap k).top) : s.firstWrite k n =
      { s.rewriteTract k n with cry := { (s.rewriteTract k n).cry with
        tracts := tset (fun _ => false) s.cry.tracts (tractKey k n) true } } := by
  have store : ¬ n * 4096 < (s.ddrMap k).leafPool := by omega
  have beyond : ¬ (s.ddrMap k).top < n * 4096 + 4096 := by omega
  rw [State.firstWrite, hv, decide_eq_false store, decide_eq_false beyond, ← (State.rewriteTract_rise n s).tracts]
  rfl

/-- A tract that is valid, in the counter store or past the end of the DDR5 has no first write. -/
theorem State.firstWrite_cases (n : Nat) (s : State) : s.firstWrite k n = s ∨
    (s.firstWrite k n).cry.tracts = tset (fun _ => false) s.cry.tracts (tractKey k n) true := by
  unfold State.firstWrite
  dsimp only
  split
  · exact .inl rfl
  · exact .inr (by rw [← (State.rewriteTract_rise n s).tracts])

theorem State.firstWrite_valid_ne {n m : Nat} (s : State) (_ : n < 2 ^ 24) (_ : m < 2 ^ 24) (hne : m ≠ n) :
    (s.firstWrite k n).tractValid k m = s.tractValid k m := by
  have key : tractKey k m ≠ tractKey k n := by unfold tractKey; omega
  rcases State.firstWrite_cases n s with same | set
  · rw [same]
  · rw [State.tractValid, set, tget_tset_ne _ _ _ key, State.tractValid]

/-! ## A node leaves the counter cache (R374) -/

theorem nodeKey_parent_ne {l j : Nat} (h : j < 2 ^ 32) : nodeKey k l j ≠ nodeKey k (l + 1) (j / 8) := by
  unfold nodeKey
  omega

theorem State.setCnode_self (l j : Nat) (v : CNode) (s : State) : (s.setCnode k l j v).cnode k l j = v :=
  tget_tset_self ..

theorem State.dirtyNode_dirty (l j : Nat) (s : State) : ((s.dirtyNode k l j).cnode k l j).dirty = true := by
  rw [State.dirtyNode, State.setCnode_self]

theorem State.dirtyNode_parent {l j : Nat} (h : j < 2 ^ 32) (s : State) :
    (s.dirtyNode k (l + 1) (j / 8)).cnode k l j = s.cnode k l j := by
  rw [State.cnode, State.dirtyNode, State.setCnode, tget_tset_ne _ _ _ (nodeKey_parent_ne h), State.cnode]

/-- The evicted block is clean with its counter one higher, whatever its parent is. -/
theorem State.evictAt_cnode {l j : Nat} (h : j < 2 ^ 32) (s : State) : (s.evictAt k l j).cnode k l j =
    { cached := false, dirty := false, ctr := ((s.cnode k l j).ctr + 1) % 2 ^ 56,
      mac := s.nodeMac k l j (((s.cnode k l j).ctr + 1) % 2 ^ 56) } := by
  unfold State.evictAt
  dsimp only
  split
  · simp only [State.cnode, State.setCnode, State.emit_kept, State.pmcEdge_kept, tget_tset_self]
  · rw [State.dirtyNode_parent h]
    simp only [State.cnode, State.setCnode, State.emit_kept, State.pmcEdge_kept, tget_tset_self]

theorem State.evictAt_parent {l j : Nat} (s : State) (h : l ≠ topLevel (s.leafCount k) 9) :
    ((s.evictAt k l j).cnode k (l + 1) (j / 8)).dirty = true := by
  unfold State.evictAt
  dsimp only
  rw [if_neg h, State.dirtyNode_dirty]

/-! ## Rekeys (R376) -/

/-- Where a tile's DDR5 runs, its register takes a rekey. -/
theorem State.takesRekey_of_ddrRuns {s : State} (h : s.ddrRuns k = true) : s.commitStore.takesRekey k = true := by
  simp only [State.ddrRuns, State.coreRuns, Bool.and_eq_true] at h
  obtain ⟨⟨⟨hruns, hup⟩, hhalt⟩, -⟩ := h
  change (s.tileRuns k && s.cry.haltCause == 0 && s.coreUp) = true
  rw [hruns, hup, hhalt]
  rfl

/-- A rekey that starts keeps the two keys in use. -/
theorem State.startRekey_keys {s : State} (h : tget (fun _ => false) s.cry.rekeying k = false) :
    tget (fun _ => false) (s.startRekey k).cry.rekeying k = true ∧ tget (fun _ => none) (s.startRekey k).cry.oldKey k =
      some (tget (fun _ => (0 : BitVec 256)) s.cry.ddrKey k, tget (fun _ => (0 : BitVec 256)) s.cry.treeKey k) := by
  simp only [State.startRekey, h, Bool.false_eq_true, if_false, State.putReg_kept, tget_tset_self, and_self]

theorem exec_ddrRekey {p : Nat} {s : State} (h : s.takesWrite p = true) (hk : s.hasTile k = true) :
    exec (.ddrRekey p k) s = .next (if s.commitStore.takesRekey k then s.commitStore.startRekey k else s.commitStore) :=
  tileWrite_open _ _ _ _ _ h hk rfl

/-- Settles O21: the majors of a tile only rise, an evicted block's own counter rises, and a rekey keeps both keys till its end. -/
theorem countersNeverRepeat : Obligations.CountersNeverRepeat := by
  unfold Obligations.CountersNeverRepeat
  have first (k n : Nat) (s : State) (hk : s.hasTile k = true) (hr : s.ddrRuns k = true) :
      exec (.tractFirstWrite k n) s = .next (s.firstWrite k n) := by
    change execTractFirstWrite k n s = _
    rw [execTractFirstWrite, withUnit_of _ _ _ hk, if_pos hr]
  refine ⟨?first, ?others, ?valid, ?overflow, ?evict, ?rekey, ?again, ?done⟩
  case first =>
    intro k n s hk hr hv hlo hhi
    rw [first k n s hk hr, yields_next_iff, State.firstWrite_inside hv hlo hhi]
    exact ⟨by rw [State.tractValid, tget_tset_self], (State.rewriteTract_rise n s).major⟩
  case others =>
    intro k n m s hk hr hn hm hne
    rw [first k n s hk hr, yields_next_iff]
    exact State.firstWrite_valid_ne s hn hm hne
  case valid =>
    intro k n s hk hr hv
    rw [first k n s hk hr, State.firstWrite, hv]
    rfl
  case overflow =>
    intro k i s hk hr hi
    have row : exec (.minorOverflow k i) s = .next (s.majorUp k i) := by
      change execMinorOverflow k i s = _
      rw [execMinorOverflow, withUnit_of _ _ _ hk, hr, decide_eq_true hi]
      rfl
    rw [row, yields_next_iff, State.majorUp_topMajor, State.majorUp_cry, tget_tset_self]
    exact ⟨rfl, rfl⟩
  case evict =>
    intro k b l j s hk hr hnode hj
    have row : exec (.counterEvict k b) s = .next (s.evictAt k l j) := by
      change execCounterEvict k b s = _
      rw [execCounterEvict, withUnit_of _ _ _ hk, if_pos hr, State.evictNode, hnode]
      rfl
    rw [row, yields_next_iff]
    have evicted := State.evictAt_cnode (k := k) (l := l) hj s
    exact ⟨congrArg CNode.ctr evicted, congrArg CNode.dirty evicted, State.evictAt_parent s⟩
  case rekey =>
    intro p k s hp hk hr hidle
    rw [exec_ddrRekey hp hk, if_pos (State.takesRekey_of_ddrRuns hr), yields_next_iff]
    exact State.startRekey_keys (s := s.commitStore) hidle
  case again =>
    intro p k s hp hk hbusy
    have ignored : s.commitStore.startRekey k = s.commitStore := if_pos hbusy
    rw [exec_ddrRekey hp hk, ignored, ite_self]
  case done =>
    intro k s hk hr hbusy
    have row : exec (.ddrRekeyDone k) s = .next (s.rekeyDone k) := by
      change execDdrRekeyDone k s = _
      rw [execDdrRekeyDone, withUnit_of _ _ _ hk, hr, hbusy]
      rfl
    rw [row, yields_next_iff, State.rekeyDone]
    exact ⟨by rw [tget_tset_self], by rw [tget_tset_self]⟩

end Sys2Proof.Machine
end

section
/-! The lifecycle, its keys and the tamper alarms (R433, R440, R449, R455, R456, R459 to R461). -/

namespace Sys2Proof.Machine

/-! ## Fields that the part writes -/

/-- A field lies in the 32 bits of its register. -/
theorem bits_mod_word {hi lo : Nat} (hle : lo ≤ hi) (h : hi < 32) (w : Nat) : bits (w % 2 ^ 32) hi lo = bits w hi lo := by
  have split : 2 ^ 32 = 2 ^ lo * 2 ^ (32 - lo) := by rw [← pow_add]; congr 1; omega
  rw [bits, split, Nat.mod_mul_right_div_self, Nat.mod_mod_of_dvd _ (pow_dvd_pow 2 (by omega)), bits]

theorem setBits_div (w hi lo v : Nat) : setBits w hi lo v / 2 ^ lo =
    v % 2 ^ (hi + 1 - lo) + 2 ^ (hi + 1 - lo) * (w / 2 ^ lo / 2 ^ (hi + 1 - lo)) := by
  have parts : w = w % 2 ^ lo + 2 ^ lo * (bits w hi lo + 2 ^ (hi + 1 - lo) * (w / 2 ^ lo / 2 ^ (hi + 1 - lo))) := by
    rw [bits, Nat.mod_add_div, Nat.mod_add_div]
  have written : setBits w hi lo v =
      w % 2 ^ lo + 2 ^ lo * (v % 2 ^ (hi + 1 - lo) + 2 ^ (hi + 1 - lo) * (w / 2 ^ lo / 2 ^ (hi + 1 - lo))) := by
    rw [Nat.mul_add] at parts ⊢
    rw [setBits, Nat.mul_comm (bits w hi lo), Nat.mul_comm (v % _)]
    omega
  rw [written, Nat.add_mul_div_left _ _ (Nat.two_pow_pos lo), Nat.div_eq_of_lt (Nat.mod_lt _ (Nat.two_pow_pos lo)),
    Nat.zero_add]

/-- A written field holds the low bits of its value. -/
theorem bits_setBits_self (w hi lo v : Nat) : bits (setBits w hi lo v) hi lo = v % 2 ^ (hi + 1 - lo) := by
  rw [bits, setBits_div, Nat.add_mul_mod_self_left, Nat.mod_mod]

theorem State.putField_field {hi lo : Nat} (hle : lo ≤ hi) (h : hi < 32) (r : Reg) (u i v : Nat) (s : State) :
    (s.putField r u i hi lo v).field r u i hi lo = v % 2 ^ (hi + 1 - lo) := by
  rw [State.field, State.putField, State.putReg_reg, bits_mod_word hle h, bits_setBits_self]

/-! ## Mailbox requests (R432, R433) -/

/-- A committed request whose checks pass is its body, and then the answer of it. -/
theorem State.mbRequest_accepted {p code : Nat} {fits : Bool} {s : State} (hr : s.mbRuns p code = true) (hf : fits = true)
    (hc : s.mbCheck code = none) (body : State → Status × Nat × State) :
    s.mbRequest p code fits body = (body s).2.2.mbAnswer (body s).1 (body s).2.1 := by
  simp only [State.mbRequest, hr, hf, Bool.and_self, if_true, hc]

theorem State.mbToken_passed {x : Token} {purpose bind : Nat} {signer : Nat → Bool} {s : State} (hp : x.present = true)
    (hf : s.tokenFails x purpose bind signer = none) (body : State → Status × Nat × State) :
    s.mbToken x purpose bind signer body = body (s.useToken x) := by
  simp only [State.mbToken, hp, Bool.not_true, Bool.false_eq_true, if_false, hf]

theorem State.mbAnswer_cur (st : Status) (v : Nat) (s : State) : (s.mbAnswer st v).cur =
    { s.cur with
      queue := s.cur.queue.filter (fun m => m.mailbox.isNone)
      mailbox := { s.cur.mailbox with busy := false, last := s.now } } := rfl

/-- CUR_MB_RPL of a request that is done reads 0. -/
theorem State.mbAnswer_done (v : Nat) (s : State) : (s.mbAnswer .done v).reg .curMbRpl 0 0 = 0 := by
  rw [State.mbAnswer, State.putReg_reg_ne (by decide), State.putReg_reg_ne (by decide), State.putReg_reg]
  rfl

/-! ## LIFECYCLE (R455, R456) -/

theorem exec_lifecycle {p : Nat} {x : Token} {s : State} (hp : s.hasPort p = true) (hr : s.mbRuns p 1 = true)
    (hc : s.mbCheck 1 = none) (hx : x.present = true) (hm : s.mbHolds x = true)
    (hf : s.tokenFails x 1 (x.bind.toNat % 256) (fun n => s.lifeSigner (boundByte x 0) n) = none)
    (hw : s.lifeWaits x = false) : exec (.lifecycle p x) s =
      .next (let a := (s.useToken x).moveLife (boundByte x 0); a.2.2.mbAnswer a.1 a.2.1) := by
  change execLifecycle p x s = _
  rw [execLifecycle, withUnit_of _ _ _ hp, hw, if_neg Bool.false_ne_true, State.mbRequest_accepted hr hm hc,
    State.mbToken_passed hx hf]

/-- Only a return to OPEN waits (assumption 46). -/
theorem State.lifeWaits_of_not_sealed {x : Token} {s : State} (h : s.cur.lifecycle ≠ .sealed) : s.lifeWaits x = false := by
  rw [State.lifeWaits, beq_eq_false_iff_ne.mpr h]
  rfl

/-- The transitions of R456, by the state and the target. -/
theorem State.moveLife_blank {s : State} (h : s.cur.lifecycle = .blank) :
    s.moveLife 1 = (.done, 1, ({ s with cur := { s.cur with rootGen := 1 } } : State).setLife .opened) := by
  simp only [State.moveLife, h, lifeOf, Nat.reduceLeDiff, if_false]

theorem State.moveLife_seal {s : State} (h : s.cur.lifecycle = .opened) : s.moveLife 2 = (.done, 2, s.setLife .sealed) := by
  simp only [State.moveLife, h, lifeOf, Nat.reduceLeDiff, if_false]

theorem State.moveLife_reopen {s : State} (h : s.cur.lifecycle = .sealed) (hret : s.cur.returns < 31)
    (hgen : s.cur.rootGen < 63) : s.moveLife 1 = (.done, 1, s.reopen) := by
  have left : ¬(31 ≤ s.cur.returns ∨ 63 ≤ s.cur.rootGen) := by omega
  simp only [State.moveLife, h, lifeOf, left, Nat.reduceLeDiff, if_false]

theorem State.moveLife_scrap {s : State} (h : s.cur.lifecycle = .opened) :
    s.moveLife 3 = (.done, 3, s.zeroize.setLife .scrapped) := by
  simp only [State.moveLife, h, lifeOf, Nat.reduceLeDiff, if_false]

theorem State.moveLife_same {s : State} (h : s.cur.lifecycle = .opened) : s.moveLife 1 = (.state, 0, s) := by
  simp only [State.moveLife, h, lifeOf, Nat.reduceLeDiff, if_false]

theorem State.zeroize_bufs (s : State) : s.zeroize.cat.bufs = [] := rfl

/-! ## Keys and sensors (R433, R440, R449) -/

theorem exec_ownerSet {p : Nat} {k : BitVec 544} {s : State} (hp : s.hasPort p = true) (hr : s.mbRuns p 4 = true)
    (hc : s.mbCheck 4 = none) (hk : k.toNat = s.mbValue 17) :
    exec (.ownerSet p k) s = .next ((s.setOwner k).2.2.mbAnswer (s.setOwner k).1 (s.setOwner k).2.1) := by
  change execOwnerSet p k s = _
  rw [execOwnerSet, withUnit_of _ _ _ hp, State.mbRequest_accepted hr (beq_iff_eq.mpr hk) hc]

theorem exec_sensorDisable {p : Nat} {x : Token} {s : State} (hp : s.hasPort p = true) (hr : s.mbRuns p 2 = true)
    (hc : s.mbCheck 2 = none) (hx : x.present = true) (hm : s.mbHolds x = true)
    (hf : s.tokenFails x 6 (x.bind.toNat % 2 ^ 24) (fun n => s.commonSigner n) = none) : exec (.sensorDisable p x) s =
      .next (let a := (s.useToken x).sensorSwitch (boundByte x 0) (boundByte x 1) (boundByte x 2); a.2.2.mbAnswer a.1 a.2.1) := by
  change execSensorDisable p x s = _
  rw [execSensorDisable, withUnit_of _ _ _ hp, State.mbRequest_accepted hr hm hc, State.mbToken_passed hx hf]

/-- Whether a sensor is the last working one does not depend on a token. -/
theorem State.sensorSwitch_disable {t k : Nat} {s : State} (ht : s.hasTile t = true) (hk : k < 8) : s.sensorSwitch t k 0 =
    if s.otherWorking t k then (.done, bit (s.sensor t k).enabled 0, s.enableSensor t k false) else (.state, 0, s) := by
  have range : ¬ 8 ≤ k := by omega
  cases hw : s.otherWorking t k <;> simp [State.sensorSwitch, ht, range, hw]

/-! ## Tamper trips (R459, R460) -/

theorem exec_tamperTrip {k i : Nat} {r : DWord} {s : State} (hk : s.hasTile k = true) (hi : i < 5) (hv : s.pwr.vaonOk = true)
    (hw : i ≠ 4 ∨ s.cur.lifecycle = .sealed) : exec (.tamperTrip k i r) s = .next (s.trip k i r) := by
  have watches : (s.pwr.vaonOk && (i != 4 || s.cur.lifecycle == .sealed)) = true := by
    simpa [hv] using hw
  change execTamperTrip k i r s = _
  rw [execTamperTrip, hk, decide_eq_true hi, Bool.and_self, withUnit_true, if_pos watches]

/-- What a trip has recorded before its level acts. -/
def State.tripped (t k level : Nat) (reading : DWord) (s : State) : State :=
  (s.annal t { code := 0x8002, addr := k, value := level, aux := reading.toNat }).putField .curTamperStat 0 0 k k 1

theorem State.tripped_kept (t k level : Nat) (reading : DWord) (s : State) :
    (s.tripped t k level reading).cur = s.cur ∧ (s.tripped t k level reading).cry = s.cry ∧
      (s.tripped t k level reading).now = s.now := by
  simp [State.tripped, State.putField]

/-- CUR_TAMPER_STAT shows the sensor that tripped. -/
theorem State.tripped_shows {k : Nat} (hk : k < 5) (t level : Nat) (reading : DWord) (s : State) :
    (s.tripped t k level reading).field .curTamperStat 0 0 k k = 1 := by
  rw [State.tripped, State.putField_field (Nat.le_refl k) (by omega), Nat.add_sub_cancel_left]
  rfl

/-- A first trip of an A1 sensor is counted. -/
theorem State.trip_counts {t k : Nat} {reading : DWord} {s : State} (hl : s.tamperLevel k = 1)
    (hn : s.recentA1 (8 * t + k) < 7) : s.trip t k reading =
      ({ s.tripped t k 1 reading with cur := { (s.tripped t k 1 reading).cur with
          a1Trips := (s.tripped t k 1 reading).cur.a1Trips ++ [(8 * t + k, (s.tripped t k 1 reading).now)] } } : State).bump
        .curAlarmA1 0 0 := by
  have first : ¬ 7 ≤ s.recentA1 (8 * t + k) := by omega
  simp only [State.trip, hl, first, and_false, if_false, if_true]
  rfl

theorem State.trip_halts {t k : Nat} {reading : DWord} {s : State} (hl : s.tamperLevel k = 2) :
    s.trip t k reading = (s.tripped t k 2 reading).securityHalt 4 t 0 := by
  simp only [State.trip, hl, OfNat.ofNat_ne_one, false_and, if_false, if_true]
  rfl

theorem State.trip_scraps {t k : Nat} {reading : DWord} {s : State} (hl : s.tamperLevel k = 3) :
    s.trip t k reading = (s.tripped t k 3 reading).scrap t := by
  simp only [State.trip, hl, OfNat.ofNat_ne_one, Nat.reduceEqDiff, false_and, if_false, if_true]
  rfl

/-- A halt that begins shows its cause and tile (R396). -/
theorem State.securityHalt_begins {c t a : Nat} {s : State} (h : s.cry.haltCause = 0) :
    (s.securityHalt c t a).cry.haltCause = c ∧ (s.securityHalt c t a).cry.haltTile = t := by
  simp [State.securityHalt, h, State.disablePorts_kept]

theorem State.securityHalt_halted {c : Nat} (hc : c ≠ 0) (t a : Nat) (s : State) : (s.securityHalt c t a).cry.haltCause ≠ 0 := by
  by_cases h : s.cry.haltCause = 0
  · rw [(State.securityHalt_begins h).1]
    exact hc
  · rw [State.securityHalt, if_pos (bne_iff_ne.mpr h)]
    exact h

theorem State.scrap_halted (t : Nat) (s : State) : (s.scrap t).cry.haltCause ≠ 0 := by
  unfold State.scrap
  exact State.securityHalt_halted (by decide : 4 ≠ 0) _ _ _

/-- A part that is scrapped already is so still. -/
theorem State.scrap_lifecycle (t : Nat) (s : State) : (s.scrap t).cur.lifecycle = .scrapped := by
  unfold State.scrap
  dsimp only
  split
  next h => simpa using h
  next => simp [State.setLife_lifecycle]

/-- Settles O42: each request that passes its checks is its body and the answer of it, and a trip acts at the level set for it. -/
theorem lifecycleKeysAndTamper : Obligations.LifecycleKeysAndTamper := by
  unfold Obligations.LifecycleKeysAndTamper
  refine ⟨?first, ?close, ?reopen, ?scrap, ?refused, ?owner, ?ownerSealed, ?revoke, ?lastRoot, ?disable, ?lastSensor, ?counts,
    ?halts, ?scraps, ?sealedOnly⟩
  case first =>
    intro p x s hp hr hc hx hm hf hl hb
    rw [exec_lifecycle hp hr hc hx hm hf (State.lifeWaits_of_not_sealed (by simp [hl])), yields_next_iff, hb,
      State.moveLife_blank (s := s.useToken x) hl]
    exact ⟨rfl, by simp [State.mbAnswer_kept, State.setLife_kept], rfl, State.mbAnswer_done ..⟩
  case close =>
    intro p x s hp hr hc hx hm hf hl hb
    rw [exec_lifecycle hp hr hc hx hm hf (State.lifeWaits_of_not_sealed (by simp [hl])), yields_next_iff, hb,
      State.moveLife_seal (s := s.useToken x) hl]
    exact ⟨rfl, by simp [State.mbAnswer_kept, State.setLife_kept, State.useToken_kept],
      by simp [State.mbAnswer_kept, State.setLife_kept, State.useToken_kept]⟩
  case reopen =>
    intro p x s hp hr hc hx hm hf hl hb hw hret hgen
    have waits : s.lifeWaits x = false := by rw [State.lifeWaits, hw, Bool.and_false]
    rw [exec_lifecycle hp hr hc hx hm hf waits, yields_next_iff, hb,
      State.moveLife_reopen (s := s.useToken x) hl hret hgen]
    obtain ⟨life, gen, ret, -⟩ := (s.useToken x).reopen_cur
    refine ⟨life, gen.trans ?_, ret⟩
    change min 63 (s.cur.rootGen + 1) = _
    omega
  case scrap =>
    intro p x s hp hr hc hx hm hf hl hb
    rw [exec_lifecycle hp hr hc hx hm hf (State.lifeWaits_of_not_sealed (by simp [hl])), yields_next_iff, hb,
      State.moveLife_scrap (s := s.useToken x) hl]
    refine ⟨rfl, ?_, ?_⟩
    · simp only [State.mbAnswer_kept, State.setLife_kept, State.zeroize_rootGen, State.useToken_kept]
    · simp only [State.mbAnswer_kept, State.setLife_kept, State.zeroize_bufs]
  case refused =>
    intro p x s hp hr hc hx hm hf hl hb
    rw [exec_lifecycle hp hr hc hx hm hf (State.lifeWaits_of_not_sealed (by simp [hl])), hb,
      State.moveLife_same (s := s.useToken x) hl]
  case owner =>
    intro p k s hp hr hc hk hl hn
    have set : s.setOwner k = (.done, 0, { s with cur := { s.cur with ownerKey := some k, lastOwner := 0 } }) := by
      simp only [State.setOwner, hl, hn, bne_self_eq_false, Bool.false_eq_true, if_false]
    rw [exec_ownerSet hp hr hc hk, set, yields_next_iff]
    exact ⟨rfl, rfl, rfl⟩
  case ownerSealed =>
    intro p k s hp hr hc hk hl
    have kept : s.setOwner k = (.lifecycle, 0, s) := by
      rw [State.setOwner, hl]
      rfl
    rw [exec_ownerSet hp hr hc hk, kept]
  case revoke =>
    intro p x s hp hr hc hx hm hf hlast hb
    have row : exec (.rootRevoke p x) s = .next (((s.useToken x).revokeRoot (boundByte x 0)).2.2.mbAnswer
        ((s.useToken x).revokeRoot (boundByte x 0)).1 ((s.useToken x).revokeRoot (boundByte x 0)).2.1) := by
      change execRootRevoke p x s = _
      rw [execRootRevoke, withUnit_of _ _ _ hp, State.mbRequest_accepted hr hm hc]
      simp only [hx, hlast, Bool.and_false, Bool.false_eq_true, if_false, State.mbToken_passed hx hf]
    have key : ¬ 4 ≤ boundByte x 0 := by omega
    rw [row, yields_next_iff, State.revokeRoot, if_neg key]
    dsimp only
    exact ⟨rfl, State.mbAnswer_done ..⟩
  case lastRoot =>
    intro p x s hp hr hc hx hm hlast
    change execRootRevoke p x s = _
    rw [execRootRevoke, withUnit_of _ _ _ hp, State.mbRequest_accepted hr hm hc]
    simp only [hx, hlast, Bool.and_self, if_true]
  case disable =>
    intro p x s hp hr hc hx hm hf ht hk hop hw
    rw [exec_sensorDisable hp hr hc hx hm hf, hop, State.sensorSwitch_disable (s := s.useToken x) ht hk,
      if_pos (show (s.useToken x).otherWorking _ _ = true from hw)]
    rfl
  case lastSensor =>
    intro p x s hp hr hc hx hm hf ht hk hop hw
    have last : (s.useToken x).otherWorking (boundByte x 0) (boundByte x 1) = false := hw
    rw [exec_sensorDisable hp hr hc hx hm hf, hop, State.sensorSwitch_disable (s := s.useToken x) ht hk, last,
      if_neg Bool.false_ne_true]
  case counts =>
    intro k i r s hk hi hv hw hl hn
    obtain ⟨hcur, hcry, hnow⟩ := s.tripped_kept k i 1 r
    rw [exec_tamperTrip hk hi hv hw, yields_next_iff, State.trip_counts hl hn]
    refine ⟨by simp [hcur, hnow], by simp [hcry], ?_⟩
    rw [State.field, State.bump_reg_ne (by decide)]
    change (s.tripped k i 1 r).field .curTamperStat 0 0 i i = 1
    exact State.tripped_shows hi ..
  case halts =>
    intro k i r s hk hi hv hw hl hrun
    obtain ⟨hcur, hcry, -⟩ := s.tripped_kept k i 2 r
    rw [exec_tamperTrip hk hi hv hw, yields_next_iff, State.trip_halts hl]
    obtain ⟨cause, tile⟩ := State.securityHalt_begins (c := 4) (t := k) (a := 0) (s := s.tripped k i 2 r) (by rw [hcry, hrun])
    exact ⟨cause, tile, by simp only [State.securityHalt_kept, hcur]⟩
  case scraps =>
    intro k i r s hk hi hv hw hl
    rw [exec_tamperTrip hk hi hv hw, yields_next_iff, State.trip_scraps hl]
    exact ⟨State.scrap_halted _ _, State.scrap_lifecycle ..⟩
  case sealedOnly =>
    intro k r s hk hl
    have sleeps : (s.pwr.vaonOk && ((4 : Nat) != 4 || s.cur.lifecycle == .sealed)) = false := by
      rw [beq_eq_false_iff_ne.mpr hl]
      simp
    change execTamperTrip k 4 r s = _
    rw [execTamperTrip, withUnit_of _ _ _ (by rw [hk]; rfl), if_neg (by rw [sleeps]; exact Bool.false_ne_true)]

end Sys2Proof.Machine
end

section
/-! What replies and fault events leave of the Curator group: all but its queue and its mailbox (R62, R356, R432). -/

namespace Sys2Proof.Machine

/-- The Curator group without the requests that are queued and the mailbox they may come by. -/
def State.office (s : State) : CuratorState := { s.cur with queue := [], mailbox := {} }

theorem State.office_congr {s t : State} (h : t.cur = s.cur) : t.office = s.office := by simp only [State.office, h]

/-- Its parts, field by field. -/
theorem State.office_eq {s t : State} (h : t.office = s.office) :
    t.cur.primary = s.cur.primary ∧ t.cur.standby = s.cur.standby ∧ t.cur.images = s.cur.images ∧
      t.cur.chunks = s.cur.chunks ∧ t.cur.runSlot = s.cur.runSlot ∧ t.cur.staged = s.cur.staged ∧
      t.cur.activation = s.cur.activation ∧ t.cur.reserved = s.cur.reserved ∧ t.cur.nextIndex = s.cur.nextIndex ∧
      t.cur.report = s.cur.report ∧ t.cur.restart = s.cur.restart := by
  simp only [State.office, CuratorState.mk.injEq] at h
  simp only [h, and_self]

/-! ## Replies -/

theorem State.leaveQueue_office (c : Ctx) (s : State) : (s.leaveQueue c).office = s.office := by
  unfold State.leaveQueue
  split <;> rfl

theorem State.leaveHead_office (opc : Nat) (c : Ctx) (s : State) : (s.leaveHead opc c).office = s.office := by
  unfold State.leaveHead
  split
  · split <;> rfl
  · rfl

theorem State.answer_office (src : Nat) (k : Cmd) (st : Status) (r : Nat) (s : State) :
    (s.answer src k st r).office = s.office := by
  have left : ((s.setCmds (s.host.cmds.filter (fun j => !j.is k.port k.sq k.idx))).leaveQueue k.ctx).office = s.office :=
    State.leaveQueue_office ..
  unfold State.answer
  dsimp only
  split
  · exact (State.office_congr (by simp)).trans left
  · exact (State.office_congr (by simp [State.stageCqe_kept])).trans left

theorem State.replyWith_office (src : Nat) (c : Ctx) (st : Status) (r : Nat) (b : List Byte) (s : State) :
    (s.replyWith src c st r b).office = s.office := by
  unfold State.replyWith
  split
  · rfl
  · split
    · rfl
    · exact State.answer_office ..

theorem State.reply_office (src : Nat) (c : Ctx) (st : Status) (r : Nat) (s : State) :
    (s.reply src c st r).office = s.office := State.replyWith_office ..

theorem State.mbAnswer_office (st : Status) (v : Nat) (s : State) : (s.mbAnswer st v).office = s.office := by
  rw [State.office, State.mbAnswer_cur, State.office]

theorem State.raiseEvent_office (k : Nat) (s : State) : (s.raiseEvent k).office = s.office :=
  State.office_congr (by simp only [State.raiseEvent_kept])

theorem State.drawn_office (n : Nat) (s : State) : (s.drawn n).office = s.office :=
  State.office_congr (by simp only [State.drawn_kept])

/-! ## Fault events (R407 to R410) -/

theorem State.finishSeal_office (s : State) : s.finishSeal.office = s.office := by
  have act (l : List Trigger) (s : State) : (s.actTriggers l).office = s.office :=
    State.office_congr (by simp [State.actTriggers_kept])
  have after (n : Nat) (s : State) (t : Trigger) : (s.afterSeal n t).office = s.office :=
    State.office_congr (by simp [State.afterSeal_kept])
  have answer (s : State) : s.answerWaiters.office = s.office :=
    foldl_same State.office _ (fun s w => State.reply_office ..) _ _
  simp only [State.finishSeal]
  repeat' split
  · rfl
  · rw [act, answer, foldl_same State.office _ (fun s t => after _ s t)]; rfl
  · rw [answer, foldl_same State.office _ (fun s t => after _ s t)]; rfl
  · rfl

theorem State.failTile_office (t : Nat) (s : State) : (s.failTile t).office = s.office := by
  simp only [State.failTile]
  rw [State.finishSeal_office]
  exact State.office_congr (by simp)

theorem State.abortCommand_office (ws : List Ctx) (k : Cmd) (s : State) : (s.abortCommand ws k).office = s.office := by
  simp only [State.abortCommand]
  repeat' split
  · exact State.reply_office ..
  · exact (State.reply_office ..).trans (State.office_congr (by simp [State.returnSlot_kept]))
  · exact State.reply_office ..

theorem State.startAbort_office (s : State) : s.startAbort.office = s.office := by
  have port (s : State) (p : Nat) :
      (((s.dropFetches p).putField .ringGctrl p 0 31 31 1).putField .ringGctrl p 0 1 1 1).office = s.office :=
    State.office_congr (by simp [State.dropFetches_kept])
  simp only [State.startAbort]
  split
  · rfl
  · refine (foldl_same State.office _ (fun s t => State.office_congr (by simp)) _ _).trans ?_
    refine (State.raiseEvent_office ..).trans ?_
    refine (foldl_same State.office _ (fun s k => State.abortCommand_office ..) _ _).trans ?_
    exact (foldl_same State.office _ port _ _).trans (State.office_congr rfl)

theorem State.escalate_office (t id sev slot : Nat) (s : State) : (s.escalate t id sev slot).office = s.office := by
  simp only [State.escalate, State.proceed, State.tileHalt]
  repeat' split
  · rw [State.failTile_office]; exact State.office_congr (by simp)
  · exact State.office_congr (by simp)
  · rw [State.startAbort_office]; exact State.office_congr (by simp)

theorem State.openSlot_office (t id sev : Nat) (s : State) : (s.openSlot t id sev).office = s.office := by
  simp only [State.openSlot]
  repeat' split
  · rfl
  · rfl
  · rfl
  · exact State.escalate_office ..
  · rfl
  · exact State.escalate_office ..

theorem State.event_office (t id : Nat) (i : FaultInfo) (s : State) : (s.event t id i).office = s.office := by
  have hput (r : Reg) (u i v : Nat) (s : State) : (s.putReg r u i v).office = s.office := State.office_congr (by simp)
  have hfield (r : Reg) (u i hi lo v : Nat) (s : State) : (s.putField r u i hi lo v).office = s.office := hput ..
  have hraise (n : Nat) (s : State) : (s.raiseEvent n).office = s.office := State.office_congr (by simp)
  have hannal (e : AEvent) (s : State) : (s.annal t e).office = s.office := State.office_congr (by simp)
  have hdrawn (n : Nat) (s : State) : (s.drawn n).office = s.office := rfl
  have hsrc (v : Src) : (s.setSrc t id v).office = s.office := rfl
  simp only [State.event, apply_ite State.office, State.openSlot_office, hraise, hannal, hput, hfield, hdrawn, hsrc, ite_self]

theorem State.fault_office (t id : Nat) (i : FaultInfo) (s : State) : (s.fault t id i).office = s.office := by
  simp only [State.fault]
  split
  · exact State.event_office ..
  · rfl

theorem State.closePasses_office (t : Nat) (l : List Nat) (n : Nat) (writes orderly side : Bool) (s : State) :
    (s.closePasses t l n writes orderly side).office = s.office := by
  simp only [State.closePasses]
  rw [State.fault_office]
  exact State.office_congr (by simp)

/-- The passes of a Curator close with a fault event, and no abort follows (R356). -/
theorem State.curPasses_office (t : Nat) (orderly : Bool) (s : State) : (s.curPasses t orderly).office = s.office := by
  have noAbort : resetAborts (.curator t orderly) false = false := rfl
  have reset (n : Nat) : (s.passReset (.curator t orderly) n false).office = s.office := by
    unfold State.passReset
    dsimp only
    split
    · rfl
    · rw [noAbort, if_neg Bool.false_ne_true, State.closePasses_office]
      exact State.office_congr (by simp only [State.disarm_kept, State.resetUnit])
  rw [State.curPasses, State.drawn_office, reset]

theorem State.dropQueue_office (s : State) : s.dropQueue.office = s.office := by
  refine Eq.trans rfl (foldl_same State.office _ (fun s m => ?_) _ s)
  split
  · exact State.reply_office ..
  · exact State.mbAnswer_office ..

theorem State.endActivation_office (st : Status) (r : Nat) (s : State) :
    (s.endActivation st r).office = { s.office with activation := none } := by
  unfold State.endActivation
  split
  next h => exact State.reply_office ..
  next h => rw [State.office, h]

end Sys2Proof.Machine
end

section
/-! The mailbox and the roles of the Curators (R426 to R433). -/

namespace Sys2Proof.Machine

/-! ## The queue (R62, R66) -/

/-- A reply takes entries of the Curator queue away and adds none. -/
theorem State.reply_queue {src : Nat} {c : Ctx} {st : Status} {r : Nat} {s : State} {m : Mgmt}
    (h : m ∈ (s.reply src c st r).cur.queue) : m ∈ s.cur.queue := by
  have left (k : Cmd) (hm : m ∈ ((s.setCmds (s.host.cmds.filter (fun j => !j.is k.port k.sq k.idx))).leaveQueue k.ctx).cur.queue) :
      m ∈ s.cur.queue := by
    unfold State.leaveQueue at hm
    split at hm
    · exact hm
    · exact List.mem_of_mem_eraseP hm
  unfold State.reply State.replyWith at h
  split at h
  · exact h
  · split at h
    · exact h
    next k _ =>
      unfold State.answer at h
      dsimp only at h
      split at h
      · simp only [State.bump_kept] at h
        exact left k h
      · simp only [State.stageCqe_kept] at h
        exact left k h

theorem State.dropQueue_committed {s : State} {m : Mgmt} (h : m ∈ s.dropQueue.cur.queue) : m.committed = true :=
  (List.mem_filter.mp h).2

theorem State.endActivation_queue {st : Status} {r : Nat} {s : State} {m : Mgmt}
    (h : m ∈ (s.endActivation st r).cur.queue) : m ∈ s.cur.queue := by
  unfold State.endActivation at h
  split at h
  · have hm := State.reply_queue h
    exact hm
  · exact h

/-! ## The mailbox's owner (R432) -/

theorem State.mbClaim_free {p : Nat} {s : State} (hp : s.cur.primary.isSome = true) (h : s.cur.mailbox.owner = none) :
    s.mbClaim p = { s with cur := { s.cur with mailbox := { s.cur.mailbox with owner := some p, last := s.now } } } := by
  obtain ⟨q, hq⟩ := Option.isSome_iff_exists.mp hp
  rw [State.mbClaim, hq, h]
  rfl

theorem State.mbClaim_taken {p q : Nat} {s : State} (h : s.cur.mailbox.owner = some q) (hne : q ≠ p) : s.mbClaim p = s := by
  simp only [State.mbClaim, h, hne, if_false, ite_self]

theorem State.mbRelease_other {p q : Nat} {s : State} (h : s.cur.mailbox.owner = some q) (hne : q ≠ p) :
    s.mbRelease p = s := by
  rw [State.mbRelease, h, if_neg (by simpa using hne)]

theorem State.mbRelease_owner {p : Nat} {s : State} (h : s.cur.mailbox.owner = some p) :
    s.mbRelease p = { s with cur := { s.cur with mailbox := { s.cur.mailbox with owner := none } } } := by
  rw [State.mbRelease, h, if_pos (beq_self_eq_true _)]

/-! ## Roles (R427 to R431) -/

theorem State.makePrimary_cur (t : Nat) (s : State) : (s.makePrimary t).cur =
    { s.cur with
      primary := some t
      restart := none
      report := none
      nextIndex := tset (fun t => t * indexSpan) s.cur.nextIndex t (s.reservedEnd t) } := rfl

/-- CUR_FW_RUN shows what the primary runs (R462). -/
theorem State.makePrimary_shows (t : Nat) (s : State) : (s.makePrimary t).reg .curFwRun 0 0 = (s.runVersion t).toNat :=
  (State.putReg_reg ..).trans (Nat.mod_eq_of_lt (s.runVersion t).isLt)

theorem State.swapRoles_cur (p : Nat) (s : State) : (s.swapRoles p).cur = (s.makePrimary (1 - p)).cur := by
  simp only [State.swapRoles, State.roleChanged_kept]

/-- What a unit that takes over finds: no activation, and no request left that had not committed. -/
def State.vacated (p : Nat) (s : State) : State := (s.curPasses p false).dropQueue.endActivation .roleChange 0

theorem State.vacated_office (p : Nat) (s : State) : (s.vacated p).office = { s.office with activation := none } := by
  rw [State.vacated, State.endActivation_office, State.dropQueue_office, State.curPasses_office]

theorem State.vacated_committed {p : Nat} {s : State} {m : Mgmt} (h : m ∈ (s.vacated p).cur.queue) : m.committed = true :=
  State.dropQueue_committed (State.endActivation_queue h)

/-- A take-over makes the other unit primary and the former one failed; a unit's third failure keeps it so (R428, R429). -/
theorem State.takeOver_cur (p : Nat) (s : State) : ∃ l d, (s.takeOver p).cur =
    { ((s.vacated p).makePrimary (1 - p)).cur with standby := .failed, fails := l, dead := d } := by
  rw [State.takeOver, ← State.vacated]
  simp only [State.roleChanged_kept]
  split
  · exact ⟨_, _, rfl⟩
  · exact ⟨_, _, rfl⟩

/-! ## Restarts (R430, R447, R491) -/

theorem State.startStandby_roles (s : State) : s.startStandby.regs = s.regs ∧ s.startStandby.cur.primary = s.cur.primary ∧
    s.startStandby.cur.restart = s.cur.restart := by
  unfold State.startStandby
  split
  · split
    · exact ⟨rfl, rfl, rfl⟩
    · exact ⟨rfl, rfl, rfl⟩
  · exact ⟨rfl, rfl, rfl⟩

/-- A unit that serves as primary again is no longer restarting, and CUR_FW_RUN shows what it runs. -/
theorem State.serves_again (t : Nat) (s : State) : (s.makePrimary t).writeDue.startStandby.cur.primary = some t ∧
    (s.makePrimary t).writeDue.startStandby.cur.restart = none ∧
    (s.makePrimary t).writeDue.startStandby.reg .curFwRun 0 0 = (s.runVersion t).toNat := by
  obtain ⟨hregs, hp, hr⟩ := State.startStandby_roles (s.makePrimary t).writeDue
  have due : (s.makePrimary t).writeDue.cur = (s.makePrimary t).cur := rfl
  have regs : (s.makePrimary t).writeDue.regs = (s.makePrimary t).regs := rfl
  rw [hp, hr, due, State.makePrimary_cur, State.reg_congr hregs, State.reg_congr regs, State.makePrimary_shows]
  exact ⟨rfl, rfl, rfl⟩

/-- A unit runs the version that it measured. -/
theorem State.setImage_runVersion (t : Nat) (v : Word) (s : State) :
    (s.setImage t (s.runSlot t) { s.image t (s.runSlot t) with version := v, valid := true }).runVersion t = v := by
  have image : (s.setImage t (s.runSlot t) { s.image t (s.runSlot t) with version := v, valid := true }).image t (s.runSlot t) =
      { s.image t (s.runSlot t) with version := v, valid := true } := by
    rw [State.image, State.setImage]
    exact tget_tset_self (fun _ => ({} : Image)) ..
  have slot : (s.setImage t (s.runSlot t) { s.image t (s.runSlot t) with version := v, valid := true }).runSlot t = s.runSlot t := rfl
  rw [State.runVersion, slot, image]
  rfl

/-- Settles O40: a role changes hands with what the units keep in their group, and each request is its body and its answer. -/
theorem mailboxAndRoles : Obligations.MailboxAndRoles := by
  unfold Obligations.MailboxAndRoles
  have claim {p : Nat} {s : State} (h : s.takesWrite p = true) : exec (.mbClaim p) s = .next (s.commitStore.mbClaim p) :=
    bar0_open p _ s h
  have release {p : Nat} {s : State} (h : s.takesWrite p = true) :
      exec (.mbRelease p) s = .next (s.commitStore.mbRelease p) := bar0_open p _ s h
  have timeout (s : State) : exec .mbIdleTimeout s = .next
      (if s.mbIdle then { s with cur := { s.cur with mailbox := { s.cur.mailbox with owner := none } } } else s) := rfl
  have swap {p : Nat} {s : State} (hp : s.hasPort p = true) (hr : s.mbRuns p 3 = true) (hc : s.mbCheck 3 = none)
      (body : State → Status × Nat × State) : withUnit (s.hasPort p) (fun s => s.mbRequest p 3 true body) s =
        .next ((body s).2.2.mbAnswer (body s).1 (body s).2.1) := by
    rw [withUnit_of _ _ _ hp, State.mbRequest_accepted hr rfl hc]
  refine ⟨?free, ?others, ?released, ?idle, ?busy, ?beat, ?failed, ?works, ?synced, ?swapped, ?unsynced, ?dead, ?alone,
    ?restarted⟩
  case free =>
    intro p s hp hprim hfree
    rw [claim hp, yields_next_iff, State.mbClaim_free (s := s.commitStore) hprim hfree]
    rfl
  case others =>
    intro p q s hp hq hne
    exact ⟨by rw [claim hp, State.mbClaim_taken (s := s.commitStore) hq hne],
      by rw [release hp, State.mbRelease_other (s := s.commitStore) hq hne]⟩
  case released =>
    intro p s hp hq
    rw [release hp, yields_next_iff, State.mbRelease_owner (s := s.commitStore) hq]
    rfl
  case idle =>
    intro p s hq hbusy hlast
    have idle : s.mbIdle = true := by simp [State.mbIdle, hq, hbusy, hlast]
    rw [timeout, yields_next_iff, if_pos idle]
  case busy =>
    intro s hlast
    have idle : s.mbIdle = false := by
      rw [State.mbIdle, decide_eq_false (by omega), Bool.and_false]
    rw [timeout, idle, if_neg Bool.false_ne_true]
  case beat =>
    intro u s hu hruns
    have row : exec (.heartbeat u) s = .next (s.heartbeat u) := by
      change execHeartbeat u s = _
      rw [execHeartbeat, withUnit_of _ _ _ (decide_eq_true hu), if_pos hruns]
    rw [row, yields_next_iff, State.heartbeat]
    exact tget_tset_self (fun _ => 0) ..
  case failed =>
    intro x p s hp hstand hfail hq
    have row : exec (.curatorTakeover x) s = .next (s.takeOver p) := by
      change execCuratorTakeover x s = _
      simp only [execCuratorTakeover, hp, hstand, hfail, Bool.and_self, if_true]
    obtain ⟨l, d, hcur⟩ := s.takeOver_cur p
    have office := s.vacated_office p
    have act : (s.vacated p).office.activation = none := by rw [office]
    have reserved : (s.vacated p).office.reserved = s.office.reserved := by rw [office]
    change (s.vacated p).cur.reserved = s.cur.reserved at reserved
    rw [row, yields_next_iff, State.nextIndex, hcur, State.makePrimary_cur]
    refine ⟨rfl, rfl, act, fun m hm => State.vacated_committed hm, ?_⟩
    rw [tget_tset_self, State.reservedEnd, reserved, State.reservedEnd]
  case works =>
    intro x p s hp hfail
    change execCuratorTakeover x s = _
    simp only [execCuratorTakeover, hp, hfail, Bool.and_false, Bool.false_eq_true, if_false]
  case synced =>
    intro s hprim hsync hact
    obtain ⟨p, hp⟩ := Option.isSome_iff_exists.mp hprim
    have row : exec .standbySynced s = .next { s with cur := { s.cur with standby := .synced } } := by
      change execStandbySynced s = _
      simp only [execStandbySynced, hp, hsync, beq_self_eq_true, if_true, State.synced, hact]
    rw [row, yields_next_iff]
    exact ⟨rfl, rfl⟩
  case swapped =>
    intro p q s hp hr hc hact hq hlt hsync
    have row : exec (.roleSwap p) s = .next ((s.swapRoles q).mbAnswer .done (1 - q)) := by
      refine (swap hp hr hc _).trans ?_
      simp only [hact, Option.isSome_none, Bool.false_eq_true, if_false, hq, hsync, beq_self_eq_true, if_true]
    rw [row, yields_next_iff, State.mbAnswer_cur, State.swapRoles_cur, State.makePrimary_cur]
    refine ⟨rfl, hsync, rfl, State.mbAnswer_done .., ?_⟩
    rw [State.mbAnswer, State.putReg_reg_ne (by decide), State.putReg_reg]
    omega
  case unsynced =>
    intro p s hp hr hc hact hsync
    refine (swap hp hr hc _).trans ?_
    simp only [hact, Option.isSome_none, Bool.false_eq_true, if_false]
    cases hq : s.cur.primary with
    | none => rfl
    | some q => simp only [beq_eq_false_iff_ne.mpr hsync, Bool.false_eq_true, if_false]
  case dead =>
    intro u s hu hdead
    change execCurReset u s = _
    rw [execCurReset, withUnit_of _ _ _ (decide_eq_true hu), State.curReset, if_pos hdead]
  case alone =>
    intro u s hu hdead hprim hstand
    change Yields (execCurReset u s) _
    have mine : (s.cur.primary == some u) = true := beq_iff_eq.mpr hprim
    rw [execCurReset, withUnit_of _ _ _ (decide_eq_true hu), yields_next_iff, State.curReset,
      if_neg (by rw [hdead]; exact Bool.false_ne_true), if_pos mine]
    dsimp only
    rw [hstand, if_neg Bool.false_ne_true]
    exact ⟨rfl, rfl, rfl⟩
  case restarted =>
    intro v u s hu hprim hv hact
    have row : exec (.curatorRestartDone v) s = .next (s.restarted u v) := by
      change execCuratorRestartDone v s = _
      simp only [execCuratorRestartDone, hu, hprim, hv, Option.isNone_none, Bool.and_self, if_true]
    rw [row, yields_next_iff, State.restarted, hact]
    dsimp only
    obtain ⟨prim, gone, shows⟩ := State.serves_again u
      (s.setImage u (s.runSlot u) { s.image u (s.runSlot u) with version := v, valid := true })
    rw [State.setImage_runVersion] at shows
    exact ⟨prim, gone, shows⟩

end Sys2Proof.Machine
end

section
/-! Firmware images, their activation, and attestation (R443, R446 to R448, R451, R453, R454). -/

namespace Sys2Proof.Machine

/-! ## What an image slot holds -/

theorem State.image_congr {s t : State} (h : t.office = s.office) (u b : Nat) : t.image u b = s.image u b := by
  obtain ⟨-, -, images, -⟩ := State.office_eq h
  rw [State.image, images, State.image]

theorem State.setImage_image (u b : Nat) (v : Image) (s : State) : (s.setImage u b v).image u b = v := by
  rw [State.image, State.setImage]
  exact tget_tset_self (fun _ => ({} : Image)) ..

/-- What FW_STAGE has made of the Curator group, its reply shows (R56, R81). -/
theorem returned_office (p q i : Nat) (r : SlotRef) (c : Ctx) (a : SlotAnswer) :
    ((a.after.returnSlot p q i r a.st a.len).reply srcCurator c a.st a.result).office = a.after.office :=
  (State.reply_office ..).trans (State.office_congr (by simp [State.returnSlot_kept]))

/-! ## FW_STAGE (R446) -/

/-- FW_STAGE answers with no data: its slot is returned and the command is answered. -/
theorem State.fwStage_data (off : Nat) (last : Bool) (n : Nat) (d : HostData) (g : Bool) (s : State) :
    (s.fwStage off last n d g).data = [] := by
  unfold State.fwStage
  dsimp only
  split
  · rfl
  split
  · rfl
  split
  · rfl
  split
  · split <;> rfl
  · rfl

theorem exec_fwStage {p q i : Nat} {r : SlotRef} {c : Ctx} {w : Word} {o : SlotRead} {a : Word} {f : Byte} {d : HostData}
    {g : Bool} {s : State} (h : s.accepts 0x48 c (fwStageParams w a f) = true) (hc : c.path = .ring p q i)
    (hs : s.slotCheck p q i w o true (fun w x => decide (1 ≤ ownLen x ∧ ownLen x ≤ w.slotSize)) = .pass r) :
    ∃ t, exec (.fwStage c w o a f d g) s = .next t ∧
      t.office = (s.fwStage a.toNat (f.toNat == 1) (ownLen o.word) d g).after.office := by
  refine ⟨_, ?_, returned_office p q i r c (s.fwStage a.toNat (f.toNat == 1) (ownLen o.word) d g)⟩
  change execFwStage c w o a f d g s = _
  rw [execFwStage, command_ring hc h, withSlot_pass hc hs, State.fwStage_data]
  rfl

section
variable {a n u b : Nat} {d : HostData} {g : Bool} {s : State} (hact : s.cur.activation = none) (hfit : a + n ≤ 8388608)
  (hd : d.ok = true) (ht : s.targetSlot (s.cur.primary.getD 0) = (u, b))
include hact hfit hd ht

/-- A chunk that is not the last one is written. -/
theorem State.fwStage_more : (s.fwStage a false n d g).after =
    s.stageChunk u b a ((List.range n).map (fun i => d.bytes.getD i 0)) false := by
  have fits : ¬ imageSpace < a + n := by simp only [imageSpace]; omega
  simp only [State.fwStage, hact, fits, hd, ht, Option.isSome_none, Bool.not_true, Bool.false_eq_true, if_false]

/-- After the last chunk the image is verified, and an image that fails changes nothing (R57). -/
theorem State.fwStage_last : (s.fwStage a true n d g).after =
    (let v := (s.stageChunk u b a ((List.range n).map (fun i => d.bytes.getD i 0)) true).verifyImage u b g
     if v.1 = .done then v.2 else s) := by
  have fits : ¬ imageSpace < a + n := by simp only [imageSpace]; omega
  simp only [State.fwStage, hact, fits, hd, ht, Option.isSome_none, Bool.not_true, Bool.false_eq_true, if_false, if_true]
  split <;> rfl

end

/-- A chunk leaves the image not valid and nothing verified. -/
theorem State.stageChunk_cur (u b off : Nat) (l : List Byte) (last : Bool) (s : State) :
    ((s.stageChunk u b off l last).image u b).valid = false ∧
      (s.stageChunk u b off l last).cur.staged.verified = none ∧ (s.stageChunk u b off l last).cur.staged.ended = last := by
  refine ⟨?_, rfl, rfl⟩
  rw [State.stageChunk, State.writeChunk, State.image]
  exact congrArg Image.valid (tget_tset_self (fun _ => ({} : Image)) ..)

/-- A chunk does not move the version floor. -/
theorem State.stageChunk_floor (u b off : Nat) (l : List Byte) (last : Bool) (s : State) :
    (s.stageChunk u b off l last).reg .curFwMin 0 0 = s.reg .curFwMin 0 0 :=
  State.putReg_reg_ne (by rw [regKey, regKey]; simp only [Reg.ctorIdx]; omega) _

/-- An image verifies where its signature, header, version and digest do (R444 to R446). -/
theorem State.verifyImage_passes {u b : Nat} {h : ImageHeader} {s : State}
    (hh : imageHeaderOf (s.slotBytes u b 0 4096) = h) (hgood : h.good = true) (hroot : s.rootSigner h.root = true)
    (hlen : h.length + 4096 ≤ imageSpace) (hdigest : h.digest = bodyDigest (s.slotBytes u b 4096 h.length))
    (hmin : s.reg .curFwMin 0 0 ≤ h.version.toNat) : s.verifyImage u b true =
      (.done, ({ s with cur := { s.cur with staged := { s.cur.staged with verified := some (h.version, h.floor) } } } : State).setImage
        u b { version := h.version, floor := h.floor, valid := true, digest := some h.digest }) := by
  have version : ¬ h.version.toNat < s.reg .curFwMin 0 0 := by omega
  have length : ¬ imageSpace - 4096 < h.length := by omega
  have same : (h.digest != bodyDigest (s.slotBytes u b 4096 h.length)) = false := by rw [← hdigest, bne_self_eq_false]
  simp only [State.verifyImage, hh, hroot, hgood, version, length, same, decide_false, Bool.not_true,
    Bool.or_self, Bool.false_eq_true, if_false]

/-- An image below the floor does not verify. -/
theorem State.verifyImage_low {u b : Nat} {g : Bool} {h : ImageHeader} {s : State}
    (hh : imageHeaderOf (s.slotBytes u b 0 4096) = h) (hmin : h.version.toNat < s.reg .curFwMin 0 0) :
    (s.verifyImage u b g).1 ≠ .done := by
  have token : Status.token ≠ .done := by decide
  have param : Status.param ≠ .done := by decide
  rw [State.verifyImage, hh]
  dsimp only
  split
  · exact token
  · rw [decide_eq_true hmin, Bool.or_true, Bool.true_or, Bool.true_or, if_pos rfl]
    exact param

theorem State.verifyImage_unsigned (u b : Nat) (s : State) : (s.verifyImage u b false).1 ≠ .done := by
  simp [State.verifyImage]
  decide

/-! ## FW_ACTIVATE (R446 to R448) -/

theorem exec_fwActivate {c : Ctx} {s : State} (h : s.accepts 0x49 c (fwActivateParams 0) = true) :
    exec (.fwActivate c 0) s = .next (s.fwActivate c) := by
  change execFwActivate c 0 s = _
  rw [execFwActivate, command_ringOnly rfl h]

/-- A restart changes the slot that the unit runs from, and no activation. -/
theorem State.restartFrom_cur (u b : Nat) (s : State) : (s.restartFrom u b).cur.activation = s.cur.activation ∧
    (s.restartFrom u b).runSlot u = b := by
  obtain ⟨-, -, -, -, slot, -, act, -⟩ := State.office_eq ((s.setRunSlot u b).curPasses_office u true)
  refine ⟨act, ?_⟩
  rw [State.runSlot, State.restartFrom, slot]
  exact tget_tset_self (fun _ => 0) ..

/-- A standby restarts from the target slot, with the activation at its first step. -/
theorem State.startActivation_standby {c : Ctx} {p u b : Nat} {v f : Word} {s : State} (ht : s.targetSlot p = (u, b))
    (hne : u ≠ p) : (s.startActivation c p v f).cur.activation =
        some { ctx := c, version := v, floor := f, step := 1, since := s.now } ∧
      (s.startActivation c p v f).runSlot u = b ∧ (s.startActivation c p v f).cur.standby = .syncing := by
  unfold State.startActivation
  rw [ht]
  dsimp only
  rw [if_neg hne, if_neg hne]
  exact ⟨(State.restartFrom_cur u b _).1, (State.restartFrom_cur u b _).2, rfl⟩

/-! ## Attestation (R451, R453, R454) -/

section
variable {c : Ctx} {w : Word} {o : SlotRead} {n : BitVec 256} {g : Bool} {p : Nat} {s : State}

/-- ATTEST on the sideband with no report to go on with signs a new one. -/
theorem exec_attest_new (h : s.accepts 0x4A c (attestParams w n) = true) (hc : c.path = .sideband)
    (hrep : s.cur.report = none) : exec (.attest c w o n g) s =
      .next (let a := (s.leaveHead 0x4A c).newReport n g
        a.after.replyWith srcCurator c a.st a.result a.data) := by
  obtain ⟨-, -, -, -, -, -, -, -, -, report, -⟩ := State.office_eq (s.leaveHead_office 0x4A c)
  have piece : (s.leaveHead 0x4A c).attestPiece n g = (s.leaveHead 0x4A c).newReport n g := by
    rw [State.attestPiece, report, hrep, Option.elim_none]
  change execAttest c w o n g s = _
  rw [execAttest, command_accepted _ _ _ _ _ _ h, withSlot_sideband hc]
  simp only [hc, piece]

/-- The indices of a unit are the same once the request has left the queue. -/
theorem State.leaveHead_indices (opc : Nat) (c : Ctx) (s : State) : (s.leaveHead opc c).cur.primary = s.cur.primary ∧
    (s.leaveHead opc c).nextIndex p = s.nextIndex p ∧ (s.leaveHead opc c).reservedEnd p = s.reservedEnd p := by
  obtain ⟨primary, -, -, -, -, -, -, reserved, next, -⟩ := State.office_eq (s.leaveHead_office opc c)
  exact ⟨primary, by rw [State.nextIndex, next, State.nextIndex], by rw [State.reservedEnd, reserved, State.reservedEnd]⟩

/-- A piece that is handed out is counted in the report, and its reply changes nothing of that (R453). -/
theorem givePiece_replied (c : Ctx) (r : Report) (u : State) :
    ((u.givePiece r).after.replyWith srcCurator c (u.givePiece r).st (u.givePiece r).result (u.givePiece r).data).nextIndex p =
        u.nextIndex p ∧
      ((u.givePiece r).after.replyWith srcCurator c (u.givePiece r).st (u.givePiece r).result
        (u.givePiece r).data).cur.report = some { r with piece := r.piece + 1, last := u.now } := by
  obtain ⟨-, -, -, -, -, -, -, -, index, report, -⟩ := State.office_eq (State.replyWith_office srcCurator c (u.givePiece r).st
    (u.givePiece r).result (u.givePiece r).data (u.givePiece r).after)
  rw [State.nextIndex, index, report]
  exact ⟨rfl, rfl⟩

theorem State.newReport_signed (hp : s.cur.primary = some p) (hres : s.nextIndex p < s.reservedEnd p)
    (hhalf : s.nextIndex p < (p + 1) * indexSpan) : s.newReport n g =
      ((s.useIndex p (s.reservedEnd p)).drawn reportFree).givePiece
        { nonce := n, bytes := s.attestReport p n, piece := 0, last := s.now } := by
  simp only [State.newReport, State.sign, hp, Option.getD_some, State.takeIndex, Nat.not_le.mpr hhalf, hres, if_false, if_true,
    Option.map_some, Option.elim_some]

theorem State.newReport_none (hp : s.cur.primary = some p) (hres : s.reservedEnd p ≤ s.nextIndex p) :
    s.newReport n false = { st := .state, after := s } := by
  have none : s.takeIndex p false = none := by
    simp only [State.takeIndex, Nat.not_lt.mpr hres, if_false, Bool.false_eq_true, ite_self]
  simp only [State.newReport, State.sign, hp, Option.getD_some, none, Option.map_none, Option.elim_none]

end

/-- Settles O41: what a firmware command or ATTEST writes of the Curator group, its reply leaves as it is. -/
theorem firmwareAndReports : Obligations.FirmwareAndReports := by
  unfold Obligations.FirmwareAndReports
  have unchanged {s t u : State} (h : t.office = u.office) (e : u = s) (k b : Nat) :
      t.image k b = s.image k b ∧ t.cur.staged = s.cur.staged ∧ t.cur.chunks = s.cur.chunks := by
    obtain ⟨-, -, -, chunks, -, staged, -⟩ := State.office_eq h
    rw [State.image_congr h, staged, chunks, e]
    exact ⟨rfl, rfl, rfl⟩
  refine ⟨?chunk, ?verified, ?low, ?unsigned, ?activated, ?stale, ?unverified, ?late, ?quiet, ?signed, ?spent⟩
  case chunk =>
    intro p q i r c w o a d g u b s h hc hs hact hfit hd ht
    obtain ⟨t, row, office⟩ := exec_fwStage (d := d) (g := g) h hc hs
    have after := State.fwStage_more (g := g) hact hfit hd ht
    obtain ⟨-, -, -, -, -, staged, -⟩ := State.office_eq office
    rw [row, yields_next_iff, State.image_congr office, staged]
    change ((s.fwStage a.toNat false (ownLen o.word) d g).after.image u b).valid = false ∧
      (s.fwStage a.toNat false (ownLen o.word) d g).after.cur.staged.verified = none ∧
      (s.fwStage a.toNat false (ownLen o.word) d g).after.cur.staged.ended = false
    rw [after]
    exact State.stageChunk_cur ..
  case verified =>
    intro p q i r c w o a d g h u b s hacc hc hs hact hfit hd ht hh hgood hroot hlen hdigest hg hmin
    subst hg
    obtain ⟨t, row, office⟩ := exec_fwStage (d := d) (g := true) hacc hc hs
    have after := State.fwStage_last (g := true) hact hfit hd ht
    have floor := State.stageChunk_floor u b a.toNat ((List.range (ownLen o.word)).map (fun i => d.bytes.getD i 0)) true s
    rw [State.verifyImage_passes hh hgood hroot hlen hdigest (by rw [floor]; exact hmin)] at after
    obtain ⟨-, -, -, -, -, staged, -⟩ := State.office_eq office
    rw [row, yields_next_iff, State.image_congr office, staged]
    change (s.fwStage a.toNat true (ownLen o.word) d true).after.image u b = _ ∧
      (s.fwStage a.toNat true (ownLen o.word) d true).after.cur.staged.verified = _
    rw [after, if_pos rfl, State.setImage_image]
    exact ⟨rfl, rfl⟩
  case low =>
    intro p q i r c w o a d g h u b s hacc hc hs hact hfit hd ht hh hgood hroot hlen hdigest hmin
    obtain ⟨t, row, office⟩ := exec_fwStage (d := d) (g := g) hacc hc hs
    have after := State.fwStage_last (g := g) hact hfit hd ht
    have floor := State.stageChunk_floor u b a.toNat ((List.range (ownLen o.word)).map (fun i => d.bytes.getD i 0)) true s
    rw [if_neg (State.verifyImage_low hh (by rw [floor]; exact hmin))] at after
    rw [row, yields_next_iff]
    exact unchanged office after u b
  case unsigned =>
    intro p q i r c w o a d u b s h hc hs hact hfit hd ht
    obtain ⟨t, row, office⟩ := exec_fwStage (d := d) (g := false) h hc hs
    have after := State.fwStage_last (g := false) hact hfit hd ht
    rw [if_neg (State.verifyImage_unsigned u b _)] at after
    rw [row, yields_next_iff]
    exact unchanged office after u b
  case activated =>
    intro c v f p b s h hact hver hp hlt hsync ht hvalid hv
    have row : s.fwActivate c = s.startActivation c p v f := by
      simp [State.fwActivate, hact, hver, hp, hsync, ht, hvalid, hv]
    rw [exec_fwActivate h, row, yields_next_iff]
    exact State.startActivation_standby ht (by omega)
  case stale =>
    intro c v f p k b s h hact hver hp ht himg
    have bad : (s.cur.standby == .syncing || !(s.image k b).valid || (s.image k b).version != v) = true := by
      rcases himg with hvalid | hv
      · simp [hvalid]
      · simp [hv]
    rw [exec_fwActivate h, State.fwActivate, hact, hver, hp]
    simp only [ht, bad, Option.isSome_none, Bool.false_eq_true, if_false, if_true]
  case unverified =>
    intro c s h hact hver
    rw [exec_fwActivate h, State.fwActivate, hact, hver]
    rfl
  case late =>
    intro u a s hu hact hres hlast
    have row : exec (.fwRestartTimeout u) s = .next (s.restartLate u) := by
      change execFwRestartTimeout u s = _
      simp only [execFwRestartTimeout, hu, decide_true, withUnit_true, hact, hres, beq_self_eq_true, hlast, Bool.and_self, if_true]
    have office := State.endActivation_office .state 0 (s.setRunSlot u (1 - s.runSlot u))
    change (s.restartLate u).office = _ at office
    have act : (s.restartLate u).office.activation = none := by rw [office]
    have slot : (s.restartLate u).office.runSlot = (s.setRunSlot u (1 - s.runSlot u)).office.runSlot := by rw [office]
    rw [row, yields_next_iff]
    refine ⟨act, ?_⟩
    change tget (fun _ => 0) (s.restartLate u).office.runSlot u = _
    rw [slot]
    exact tget_tset_self (fun _ => 0) ..
  case quiet =>
    intro u s hu hact
    change execFwRestartTimeout u s = _
    simp only [execFwRestartTimeout, hu, decide_true, withUnit_true, hact]
  case signed =>
    intro c w o n p s h hc hw hrep hp hres hhalf
    obtain ⟨prim, next, reserved⟩ := s.leaveHead_indices (p := p) 0x4A c
    rw [exec_attest_new h hc hrep, State.newReport_signed (prim.trans hp) (by rw [next, reserved]; exact hres)
      (by rw [next]; exact hhalf), yields_next_iff]
    obtain ⟨index, report⟩ := givePiece_replied (p := p) c
      ⟨n, (s.leaveHead 0x4A c).attestReport p n, 0, (s.leaveHead 0x4A c).now⟩
      (((s.leaveHead 0x4A c).useIndex p ((s.leaveHead 0x4A c).reservedEnd p)).drawn reportFree)
    refine ⟨index.trans (Eq.trans ?_ (congrArg (· + 1) next)), by rw [report]; rfl⟩
    exact tget_tset_self (fun t => t * indexSpan) ..
  case spent =>
    intro c w o n p s h hc hw hrep hp hres
    obtain ⟨prim, next, reserved⟩ := s.leaveHead_indices (p := p) 0x4A c
    rw [exec_attest_new h hc hrep, State.newReport_none (prim.trans hp) (by rw [next, reserved]; exact hres)]
    rfl

end Sys2Proof.Machine
end

section
/-! The power states of the part and its boot (R478 to R480, R482, R483, R491, R492). -/

namespace Sys2Proof.Machine

/-! ## POWER_STATE (R479, R482) -/

theorem exec_powerState {c : Ctx} {n : Byte} {s : State} (h : s.accepts 0x44 c (powerStateParams n) = true) :
    exec (.powerState c n) s = .next ((s.leaveHead 0x44 c).powerState c n.toNat) := by
  change execPowerState c n s = _
  rw [execPowerState, command_accepted _ _ _ _ _ _ h]

/-- What a state is and what refuses a transition, a request that leaves the Curator queue does not change. -/
theorem State.leaveHead_power (opc : Nat) (c : Ctx) (n : Nat) (s : State) :
    (s.leaveHead opc c).isState n = s.isState n ∧ (s.leaveHead opc c).powerRefused n = s.powerRefused n := by
  simp only [State.isState, State.powerRefused, State.leaveHead_kept, and_self]

theorem State.powerState_asked {c : Ctx} {s : State} (hn : s.isState 1 = false) : s.powerState c 1 =
    if s.powerRefused 1 then s.reply srcCurator c .state 0 else s.enterBy c 1 := by
  have other : ¬(c.path == .sideband && (1 : Nat) == 0 && s.pwr.st != .up) = true := by simp
  rw [State.powerState, if_neg (by decide), hn, if_neg Bool.false_ne_true, if_neg other]

/-! ## The steps of a transition (R479, R483) -/

/-- The reply of a transition is noted in it, and changes nothing else of the power group. -/
theorem State.replyTransition_power (x : Transition) (st : Status) (s : State) :
    (s.replyTransition x st).pwr.pwr = s.pwr.pwr := by
  unfold State.replyTransition
  split
  · split
    · rfl
    · simp only [State.reply_kept]
  · rfl

theorem State.toRun_power (s : State) : s.toRun.pwr = { s.pwr with pwr := .p0, quietAt := s.now } := by
  unfold State.toRun
  dsimp only
  split
  · rw [foldl_pwr _ _ (fun s t => by simp only [State.trainPorts_kept]), State.enterPower_group]
  · exact State.enterPower_group ..

/-- A transition with no reset in progress, and a Curator to answer its command, is not held. -/
theorem transition_free {x : Transition} {s : State} (hx : x.ctx = none ∨ s.cur.primary.isSome = true)
    (hr : s.flt.resetting = []) : (!s.flt.resetting.isEmpty || (x.ctx.isSome && s.cur.primary.isNone)) = false := by
  rw [hr]
  rcases hx with hx | hx
  · rw [hx]
    rfl
  · rw [← Option.not_isSome, hx, Bool.not_true, Bool.and_false]
    rfl

theorem exec_transitionDone {x : Transition} {s : State} (hst : s.pwr.st = .up) (hx : s.pwr.trans = some x) :
    exec .transitionDone s = .next (s.transition x) := by
  change execTransitionDone s = _
  simp only [execTransitionDone, hx, hst, beq_self_eq_true, if_true]

theorem State.wake_quiet {s : State} (h : s.pwr.pwr = .p1) : s.wake = s.enterPower .p0 := by
  rw [State.wake, h, if_pos (beq_self_eq_true _)]

/-! ## Boot (R491, R492) -/

/-- A boot ends with its report: ready, and the auto-close interval begins. -/
theorem State.reportReady_shows (s : State) :
    s.reportReady.pwr.ready = true ∧ s.reportReady.pwr.scanning = false ∧ s.reportReady.epo.autoStart = s.now := by
  unfold State.reportReady
  dsimp only
  simp only [State.startStandby_kept, State.putReg_kept, and_self]

theorem State.bootReady_shows (b : BootEnv) (s : State) : (s.bootReady b).pwr.ready = true ∧
    (s.bootReady b).pwr.scanning = false ∧ (s.bootReady b).epo.autoStart = s.now := by
  have boot : ∃ u : State, s.bootReady b = u.reportReady ∧ u.now = s.now := by
    refine ⟨_, rfl, ?_⟩
    simp only [State.bootSpare_kept]
    rw [foldl_now _ _ (fun s t => by simp only [State.bootTile_kept])]
    split
    · rfl
    · simp only [State.newBoot_kept]
  obtain ⟨u, e, now⟩ := boot
  rw [e, ← now]
  exact u.reportReady_shows

/-- Settles O47: a transition that is not held takes its last step, and boot ends with its report. -/
theorem powerStatesAndBoot : Obligations.PowerStatesAndBoot := by
  unfold Obligations.PowerStatesAndBoot
  refine ⟨?above, ?current, ?starts, ?refused, ?toP1, ?toP0, ?waits, ?timeout, ?none, ?wakes, ?awake, ?boots, ?ready⟩
  case above =>
    intro c n s h hn
    rw [exec_powerState h, State.powerState, if_pos hn]
  case current =>
    intro c n s h hn his
    rw [exec_powerState h, State.powerState, if_neg (by omega), (s.leaveHead_power 0x44 c n.toNat).1, if_pos his]
  case starts =>
    intro c s h his href
    obtain ⟨same, refused⟩ := s.leaveHead_power 0x44 c 1
    have row : (s.leaveHead 0x44 c).powerState c 1 = (s.leaveHead 0x44 c).enterBy c 1 := by
      rw [State.powerState_asked (same.trans his), refused, href, if_neg Bool.false_ne_true]
    rw [exec_powerState h, yields_next_iff]
    change ((s.leaveHead 0x44 c).powerState c 1).pwr.trans = _ ∧ ((s.leaveHead 0x44 c).powerState c 1).pwr.pwr = _
    rw [row, State.enterBy, if_neg (by decide), State.startTransition]
    simp only [State.leaveQueue_kept, State.leaveHead_kept, pwrOf, Option.isNone_some, and_self]
  case refused =>
    intro c s h his href
    obtain ⟨same, refused⟩ := s.leaveHead_power 0x44 c 1
    rw [exec_powerState h]
    change Host.Outcome.next ((s.leaveHead 0x44 c).powerState c 1) = _
    rw [State.powerState_asked (same.trans his), refused, href, if_pos rfl]
  case toP1 =>
    intro x s hst hx htarget hctx hr hq
    have row : s.transition x = ((s.replyTransition x .done).routesQuiet.enterPower .p1).endTransition := by
      simp only [State.transition, transition_free hctx hr, htarget, hq, Bool.false_eq_true, if_false, if_true]
    rw [exec_transitionDone hst hx, row, yields_next_iff, State.endTransition, State.enterPower_group]
    exact ⟨rfl, rfl⟩
  case toP0 =>
    intro x s hst hx htarget hctx hr
    have row : s.transition x = ((s.replyTransition x .done).toRun).endTransition := by
      simp only [State.transition, transition_free hctx hr, htarget, Bool.false_eq_true, if_false]
    rw [exec_transitionDone hst hx, row, yields_next_iff, State.endTransition, State.toRun_power]
    exact ⟨rfl, rfl⟩
  case waits =>
    intro x s hx htarget hdur
    have row : s.transition x = s := by
      simp only [State.transition, htarget, hdur, or_true, if_true, ite_self]
    change execTransitionDone s = _
    simp only [execTransitionDone, hx, row, ite_self]
  case timeout =>
    intro x s hst hx hout
    have row : exec .p3DurabilityTimeout s = .next (s.abandonP3 x) := by
      change execP3DurabilityTimeout s = _
      simp only [execP3DurabilityTimeout, hx, hst, hout, beq_self_eq_true, Bool.and_self, if_true]
    rw [row, yields_next_iff, State.abandonP3]
    split
    next h => exact ⟨rfl, by simpa using h⟩
    next h =>
      rw [State.toRun_power]
      exact ⟨rfl, rfl⟩
  case none =>
    intro s hx
    constructor
    · change execP3DurabilityTimeout s = _
      simp only [execP3DurabilityTimeout, hx]
    · change execTransitionDone s = _
      simp only [execTransitionDone, hx]
  case wakes =>
    intro s hst hp1
    have row : exec .p1Wake s = .next (s.enterPower .p0) := by
      change execP1Wake s = _
      simp only [execP1Wake, hst, beq_self_eq_true, if_true, State.wake_quiet hp1]
    rw [row, yields_next_iff, State.enterPower_group]
    simp only [State.enterPower_kept, and_self]
  case awake =>
    intro s hp1
    have same : s.wake = s := by rw [State.wake, if_neg (by simpa using hp1)]
    change execP1Wake s = _
    simp only [execP1Wake, same, ite_self]
  case boots =>
    intro b s hst hisl hp0 hready hstrap hscans
    have row : exec (.bootReady b) s = .next (s.bootReady b) := by
      change execBootReady b s = _
      simp only [execBootReady, hst, hisl, hp0, hready, hstrap, hscans, beq_self_eq_true, Bool.not_false, Bool.and_self, if_true]
    rw [row, yields_next_iff]
    exact s.bootReady_shows b
  case ready =>
    intro b s hready
    change execBootReady b s = _
    simp only [execBootReady, hready, Bool.not_true, Bool.and_false, Bool.false_and, Bool.false_eq_true, if_false]

end Sys2Proof.Machine
end

section
/-! Sensors, thermal levels and DDR5 refresh (R434, R435, R437, R439, R441, R472). -/

namespace Sys2Proof.Machine

/-! ## Sensors -/

section
variable {t k j : Nat}

theorem State.setSensor_other (v : Sensor) (s : State) (h : j ≠ k) : (s.setSensor t k v).sensor t j = s.sensor t j := by
  rw [State.sensor, State.setSensor]
  exact tget_tset_ne (fun _ => ({} : Sensor)) _ _ (by omega)

theorem State.sensor_congr {s u : State} (h : u.thm.sensors = s.thm.sensors) : u.sensor t j = s.sensor t j := by
  rw [State.sensor, h, State.sensor]

/-- What of a sensor counts for its tile's level (R435). -/
def Sensor.counts (v : Sensor) : Bool × Bool × Int := (v.enabled, v.broken, v.reading)

theorem Sensor.seen_counts (v : Sensor) (k : Nat) (r : Int) : (v.seen k r).counts = v.counts := by
  unfold Sensor.seen
  split <;> rfl

end

/-! ## Levels below shut-down (R435) -/

/-- No working sensor has reached 115 °C. -/
def State.Mild (s : State) (t : Nat) : Prop := ∀ j < 8, (s.sensor t j).enabled = true → (s.sensor t j).broken = false →
  (s.sensor t j).reading < 920

theorem State.mild_of_readings {s : State} {t : Nat} (h : (List.range 8).all (fun j => decide ((s.sensor t j).reading < 920)) = true) :
    s.Mild t := by
  intro j hj _ _
  have below := List.all_eq_true.mp h j (List.mem_range.mpr hj)
  exact of_decide_eq_true below

theorem State.Mild.max {s : State} {t : Nat} (h : s.Mild t) : (s.workingMax t).any (fun r => degC 115 ≤ r) = false := by
  cases hm : s.workingMax t with
  | none => rfl
  | some r =>
    obtain ⟨mem, -⟩ := List.max?_eq_some_iff.mp hm
    obtain ⟨v, hv, hr⟩ := List.mem_filterMap.mp mem
    obtain ⟨j, hj, rfl⟩ := List.mem_map.mp hv
    split at hr
    next hw =>
      obtain ⟨en, br⟩ := Bool.and_eq_true_iff.mp hw
      have low := h j (List.mem_range.mp hj) en (by simpa using br)
      obtain rfl : (s.sensor t j).reading = r := by simpa using hr
      have below : ¬ degC 115 ≤ (s.sensor t j).reading := by simp only [degC]; omega
      exact decide_eq_false below
    next => cases hr

/-- The level rises at most to 2 where no working sensor has reached 115 °C. -/
theorem State.Mild.nextLevel {s : State} {t : Nat} (h : s.Mild t) (hn : s.nextLevel t ≠ s.levelOf t) : s.nextLevel t ≠ 3 := by
  have max := h.max
  unfold State.nextLevel at hn ⊢
  rw [max] at hn ⊢
  simp only [Bool.false_eq_true, if_false] at hn ⊢
  split_ifs at hn ⊢ <;> omega

section
variable {r : Reg} {u i : Nat} (hu : u < 16) (hi : i < 4096)
include hu hi

/-- A record counts in ANL_UNMIRRORED and ANL_SUPPR, and in no other register (R416, R418). -/
theorem State.annal_reg_ne (hr : r.ctorIdx ≠ Reg.ctorIdx .anlUnmirrored) (hs : r.ctorIdx ≠ Reg.ctorIdx .anlSuppr) {t : Nat}
    (ht : t < 8) (e : AEvent) (s : State) : (s.annal t e).reg r u i = s.reg r u i := by
  have bump {q : Reg} {j : Nat} (hq : r.ctorIdx ≠ q.ctorIdx) (hj : j < 4096) (s : State) :
      (s.bump q 0 j).reg r u i = s.reg r u i :=
    State.bump_reg_ne (regKey_ne hq hu (by decide) hi hj) s
  have write (n : Nat) (s : State) : (s.ringWrite t e n).reg r u i = s.reg r u i := by
    have lost (b : Prop) [Decidable b] : (if b then s.bump .anlUnmirrored 0 t else s).reg r u i = s.reg r u i := by
      split
      · exact bump (j := t) hr (by omega) s
      · rfl
    exact (State.reg_congr rfl ..).trans (lost _)
  simp only [State.annal]
  repeat' split
  · exact State.reg_congr (by simp [State.mirrorWrite_kept]) ..
  · rw [write, State.setBucket_reg]
  · exact State.reg_congr rfl ..
  · rw [write]
  · rw [write, State.setBucket_reg]
  · rw [bump hs (by decide), State.setBucket_reg]

/-- An event vector shows in HP_EVENT alone (R69). -/
theorem State.raiseEvent_reg_ne (hr : r.ctorIdx ≠ Reg.ctorIdx .hpEvent) (k : Nat) (s : State) :
    (s.raiseEvent k).reg r u i = s.reg r u i := by
  have port {p : Nat} (hp : p < 16) (s : State) : (s.raiseOn p k).reg r u i = s.reg r u i := by
    unfold State.raiseOn
    split
    · rfl
    · rw [State.raiseVector_reg]
      exact State.putReg_reg_ne (regKey_ne hr hu hp hi (by decide)) s
  unfold State.raiseEvent State.ports
  split
  · exact (port (p := 1) (by decide) _).trans (port (p := 0) (by decide) s)
  · exact port (p := 0) (by decide) s

theorem State.showThrottle_reg_ne (hr : r.ctorIdx ≠ Reg.ctorIdx .calStat) {t : Nat} (ht : t < 8) (s : State) :
    (s.showThrottle t).reg r u i = s.reg r u i :=
  State.putReg_reg_ne (regKey_ne hr hu (by omega) hi (by decide)) s

end

/-- What setting a level anew shows, where it is not the shut-down level: the level, and CAL_STAT and the Annals besides. -/
theorem State.Mild.relevel {s : State} {t : Nat} (h : s.Mild t) : (s.relevel t).levelOf t = s.nextLevel t ∧
    (s.relevel t).thm.sensors = s.thm.sensors ∧ (s.relevel t).thm.ddrForced = s.thm.ddrForced ∧
    (t < 8 → (s.relevel t).reg .tmpDdr 0 0 = s.reg .tmpDdr 0 0) := by
  by_cases hn : s.nextLevel t = s.levelOf t
  · rw [State.relevel, if_pos hn]
    exact ⟨hn.symm, rfl, rfl, fun _ => rfl⟩
  · unfold State.relevel
    dsimp only
    rw [if_neg hn, if_neg (h.nextLevel hn)]
    refine ⟨?_, ?_, ?_, fun ht => ?_⟩
    · simp only [State.levelOf, State.showThrottle_kept, tget_tset_self]
    · simp only [State.showThrottle_kept, State.raiseEvent_kept, State.annal_kept]
    · simp only [State.showThrottle_kept, State.raiseEvent_kept, State.annal_kept]
    · rw [State.showThrottle_reg_ne (by decide) (by decide) (by decide) ht]
      exact (State.raiseEvent_reg_ne (by decide) (by decide) (by decide) ..).trans
        (State.annal_reg_ne (by decide) (by decide) (by decide) (by decide) ht ..)

/-- A level reaches at least what the readings or a device ask for. -/
theorem State.nextLevel_ge_one {s : State} {t : Nat} (h : s.reaches t 95 = true) (h90 : s.reaches t 90 = true) :
    1 ≤ s.nextLevel t := by
  unfold State.nextLevel
  rw [h, h90]
  simp only [if_true, Bool.not_true, Bool.and_false, Bool.false_eq_true, if_false]
  split_ifs <;> omega

theorem State.nextLevel_ge_two {s : State} {t : Nat} (h : s.reaches t 105 = true ∧ s.reaches t 100 = true ∨ s.forced t = true) :
    2 ≤ s.nextLevel t := by
  have up : (s.reaches t 105 || s.forced t) = true := by
    rcases h with ⟨h105, -⟩ | hf
    · rw [h105, Bool.true_or]
    · rw [hf, Bool.or_true]
  have stays : (!s.reaches t 100 && !s.forced t) = false := by
    rcases h with ⟨-, h100⟩ | hf
    · rw [h100]
      rfl
    · rw [hf, Bool.not_true, Bool.and_false]
  unfold State.nextLevel
  dsimp only
  rw [Bool.and_assoc, stays, up]
  simp only [if_true, Bool.and_false, Bool.false_eq_true, if_false, Bool.and_eq_true, decide_eq_true_eq]
  split_ifs <;> omega

/-- A working sensor's reading is one of those that its tile counts. -/
theorem State.reaches_of_reading {s : State} {t j : Nat} {n : Int} (hj : j < 8) (he : (s.sensor t j).enabled = true)
    (hb : (s.sensor t j).broken = false) (hr : 8 * n ≤ (s.sensor t j).reading) : s.reaches t n = true := by
  refine List.any_eq_true.mpr ⟨(s.sensor t j).reading, ?_, decide_eq_true hr⟩
  refine List.mem_filterMap.mpr ⟨s.sensor t j, List.mem_map.mpr ⟨j, List.mem_range.mpr hj, rfl⟩, ?_⟩
  rw [he, hb]
  rfl

/-! ## Conversions (R434, R439) -/

/-- A sensor with a reading just taken. -/
def State.converted (s : State) (t k : Nat) (r : Int) : Sensor :=
  { ((s.sensor t k).run r ((List.range 8).map (fun j => if j = k then r else (s.sensor t j).reading))) with
    reading := r, convAt := s.now, maxIv := max (s.sensor t k).maxIv r }

theorem State.converted_shows (s : State) (t k : Nat) (r : Int) : (s.converted t k r).reading = r ∧
    (s.converted t k r).convAt = s.now ∧ (s.converted t k r).enabled = (s.sensor t k).enabled ∧
    (s.converted t k r).broken = (s.sensor t k).broken := by
  have run (v : Sensor) (l : List Int) : (v.run r l).enabled = v.enabled ∧ (v.run r l).broken = v.broken := by
    unfold Sensor.run
    split <;> exact ⟨rfl, rfl⟩
  exact ⟨rfl, rfl, run _ _⟩

/-- A tile's sensors once one of them has converted and those of it that work have heard of it, before the tests. -/
def State.heard (t k : Nat) (r : Int) (s : State) : State :=
  let s1 := (s.setSensor t k (s.converted t k r)).pmcEdge t 0x71 0
  if (s.sensor t k).enabled && !(s.sensor t k).broken then
    (List.range 8).foldl (fun s j => if j = k then s else s.setSensor t j ((s.sensor t j).seen k r)) s1
  else s1

/-- A conversion of a sensor that does not work ends there; another is tested, and the level follows (R438, R439). -/
theorem State.convert_eq (t k : Nat) (r : Int) (s : State) : ∃ stuck : Bool,
    (stuck = true → 4095 ≤ (s.sensor t k).same) ∧ s.convert t k r =
      if !((s.sensor t k).enabled && !(s.sensor t k).broken) then s.heard t k r
      else if r < degC (-40) || degC 150 < r then (s.heard t k r).sensorBroken t k 2
      else if stuck then (s.heard t k r).sensorBroken t k 1
      else (s.heard t k r).relevel t := by
  refine ⟨_, fun h => ?_, rfl⟩
  simp only [Bool.and_eq_true, decide_eq_true_eq] at h
  obtain ⟨⟨run, -⟩, -⟩ := h
  unfold Sensor.run at run
  split at run
  · exact Nat.le_of_succ_le_succ run
  · exact absurd run (show ¬ 4096 ≤ 1 by decide)

/-- What a fold over the other sensors leaves, where each of them hears of the reading. -/
theorem State.heard_same {V : Type} (g : State → V) {t k : Nat} {r : Int} {s : State}
    (hs : ∀ (j : Nat) (u : State), j ≠ k → g (u.setSensor t j ((u.sensor t j).seen k r)) = g u) :
    g (s.heard t k r) = g ((s.setSensor t k (s.converted t k r)).pmcEdge t 0x71 0) := by
  unfold State.heard
  dsimp only
  split
  · refine foldl_same g _ (fun u j => ?_) _ _
    split
    · rfl
    next h => exact hs j u h
  · rfl

theorem State.heard_level (t k : Nat) (r : Int) (s : State) : (s.heard t k r).thm.level = s.thm.level ∧
    (s.heard t k r).anl = s.anl := by
  rw [State.heard_same (fun u => u.thm.level) (fun _ _ _ => rfl), State.heard_same (fun u => u.anl) (fun _ _ _ => rfl)]
  simp only [State.pmcEdge_kept]
  exact ⟨rfl, rfl⟩

theorem State.pmcEdge_sensor (t e i u j : Nat) (s : State) : (s.pmcEdge t e i).sensor u j = s.sensor u j :=
  State.sensor_congr (by simp only [State.pmcEdge_kept])

theorem State.heard_self (t k : Nat) (r : Int) (s : State) : (s.heard t k r).sensor t k = s.converted t k r := by
  rw [State.heard_same (fun u => u.sensor t k) (fun j u h => State.setSensor_other _ u (Ne.symm h)), State.pmcEdge_sensor,
    State.setSensor_sensor]

theorem State.heard_other (t : Nat) {k j : Nat} (h : j ≠ k) (r : Int) (s : State) :
    ((s.heard t k r).sensor t j).counts = (s.sensor t j).counts := by
  have hears (i : Nat) (u : State) (_ : i ≠ k) :
      ((u.setSensor t i ((u.sensor t i).seen k r)).sensor t j).counts = (u.sensor t j).counts := by
    by_cases hi : j = i
    · subst hi
      rw [State.setSensor_sensor, Sensor.seen_counts]
    · rw [State.setSensor_other _ u hi]
  rw [State.heard_same (fun u => (u.sensor t j).counts) hears, State.pmcEdge_sensor, State.setSensor_other _ s h]

/-- A tile stays below shut-down where its other sensors are below it and the one that converts is too, or does not work. -/
theorem State.Mild.heard {t k : Nat} {r : Int} {s : State} (h : s.Mild t) (hr : r < 920) : (s.heard t k r).Mild t := by
  intro j hj he hb
  by_cases hk : j = k
  · subst hk
    rw [s.heard_self t j r]
    exact hr
  · have counts := State.heard_other t hk r s
    simp only [Sensor.counts, Prod.mk.injEq] at counts
    obtain ⟨en, br, rd⟩ := counts
    rw [rd]
    exact h j hj (en ▸ he) (br ▸ hb)

/-- A sensor declared broken shows why, whatever level follows (R439). -/
theorem State.sensorBroken_shows {t k : Nat} {s : State} (h : ∀ j < 8, j ≠ k → (s.sensor t j).enabled = true →
      (s.sensor t j).broken = false → (s.sensor t j).reading < 920) (cause : Nat) :
    ((s.sensorBroken t k cause).sensor t k).broken = true ∧ ((s.sensorBroken t k cause).sensor t k).cause = cause := by
  let m := ((s.setSensor t k { s.sensor t k with broken := true, cause := cause }).fault t (srcId 0x10 k) { minSev := 2 }).annal t
    { code := 0xA002, addr := k, value := cause }
  have kept (j : Nat) : m.sensor t j = (s.setSensor t k { s.sensor t k with broken := true, cause := cause }).sensor t j :=
    State.sensor_congr (by simp only [m, State.annal_kept, State.fault_kept])
  have mild : m.Mild t := by
    intro j hj he hb
    rw [kept] at he hb ⊢
    by_cases hk : j = k
    · subst hk
      rw [State.setSensor_sensor] at hb
      exact absurd hb (by simp)
    · rw [State.setSensor_other _ _ hk] at he hb ⊢
      exact h j hj hk he hb
  obtain ⟨-, sensors, -⟩ := mild.relevel
  change ((m.relevel t).sensor t k).broken = true ∧ ((m.relevel t).sensor t k).cause = cause
  rw [State.sensor_congr sensors, kept, State.setSensor_sensor]
  exact ⟨rfl, rfl⟩

theorem exec_sensorConvert {k i : Nat} {r : Int} {s : State} (hk : s.hasTile k = true) (hi : i < 8)
    (hv : s.pwr.vaonOk = true) : exec (.sensorConvert k i r) s = .next (s.convert k i r) := by
  change execSensorConvert k i r s = _
  rw [execSensorConvert, hk, decide_eq_true hi, Bool.and_self, withUnit_true, if_pos hv]

theorem exec_conversionMissed {k i : Nat} {s : State} (hk : s.hasTile k = true) (hi : i < 8) :
    exec (.conversionMissed k i) s = .next (if s.pwr.vaonOk then s.missed k i else s) := by
  change execConversionMissed k i s = _
  rw [execConversionMissed, hk, decide_eq_true hi, Bool.and_self, withUnit_true]

/-! ## DDR5 (R441) -/

/-- A controller's rate and its devices' limits as MR4 shows them. -/
def State.polled (t k n : Nat) (above : Bool) (s : State) : State :=
  let s1 := s.putField .tmpDdr 0 0 (4 * t + 2 * k + 1) (4 * t + 2 * k) n
  let old := tget (fun _ => (0 : BitVec 2)) s1.thm.ddrForced t
  { s1 with thm := { s1.thm with
      ddrForced := tset (fun _ => 0) s1.thm.ddrForced t
        (if above then old ||| BitVec.ofNat 2 (2 ^ k) else old &&& ~~~(BitVec.ofNat 2 (2 ^ k)))
      maxDdr := tset (fun _ => 0) s1.thm.maxDdr (2 * t + k) (max n (tget (fun _ => 0) s1.thm.maxDdr (2 * t + k))) } }

theorem State.pollDdr_eq (t k : Nat) (c : Int) (above : Bool) (s : State) :
    s.pollDdr t k c above = (s.polled t k (nextRate (s.ddrRate t k) c) above).relevel t := rfl

theorem bitOfTwo : ∀ k < 2, ∀ (v : BitVec 2) (b : Bool),
    (if b then v ||| BitVec.ofNat 2 (2 ^ k) else v &&& ~~~(BitVec.ofNat 2 (2 ^ k))).getLsbD k = b := by decide

theorem State.polled_forced {k : Nat} (hk : k < 2) (t n : Nat) (above : Bool) (s : State) :
    (tget (fun _ => (0 : BitVec 2)) (s.polled t k n above).thm.ddrForced t).getLsbD k = above := by
  rw [State.polled, tget_tset_self]
  exact bitOfTwo k hk _ _

theorem State.forced_of_bit {t k : Nat} {s : State} (h : (tget (fun _ => (0 : BitVec 2)) s.thm.ddrForced t).getLsbD k = true) :
    s.forced t = true := by
  have some : tget (fun _ => (0 : BitVec 2)) s.thm.ddrForced t ≠ 0 := by
    intro zero
    rw [zero] at h
    simp at h
  rw [State.forced, bne_iff_ne.mpr some, Bool.true_or]

theorem nextRate_lt {cur : Nat} (h : cur < 4) (c : Int) : nextRate cur c < 4 := by
  unfold nextRate
  dsimp only
  split_ifs <;> omega

theorem State.ddrRate_lt (t k : Nat) (s : State) : s.ddrRate t k < 4 := by
  have width : 4 * t + 2 * k + 1 + 1 - (4 * t + 2 * k) = 2 := by omega
  rw [State.ddrRate, State.field, bits, width]
  exact Nat.mod_lt _ (by decide)

theorem State.polled_rate {t k n : Nat} (ht : t < 8) (hk : k < 2) (hn : n < 4) (above : Bool) (s : State) :
    (s.polled t k n above).ddrRate t k = n := by
  have width : 4 * t + 2 * k + 1 + 1 - (4 * t + 2 * k) = 2 := by omega
  refine (State.field_congr rfl ..).trans ((State.putField_field (by omega) (by omega) .tmpDdr 0 0 n s).trans ?_)
  rw [width]
  exact Nat.mod_eq_of_lt hn

/-- Settles O48: below shut-down a new level leaves the sensors as they are, and shows what they or a DDR5 device ask for. -/
theorem sensorsAndRefresh : Obligations.SensorsAndRefresh := by
  unfold Obligations.SensorsAndRefresh
  refine ⟨?kept, ?disabled, ?range, ?silent, ?heard, ?polled, ?gated, ?falls, ?waits⟩
  case kept =>
    intro k i r s hk hi hv he hb hsame hlo hhi hcool
    obtain ⟨stuck, long, row⟩ := s.convert_eq k i r
    have works : (!((s.sensor k i).enabled && !(s.sensor k i).broken)) = false := by rw [he, hb]; rfl
    have range : (decide (r < degC (-40)) || decide (degC 150 < r)) = false := by
      rw [decide_eq_false (by simp only [degC]; omega), decide_eq_false (by simp only [degC]; omega), Bool.or_self]
    have free : ¬ stuck = true := fun h => by have := long h; omega
    rw [works, if_neg Bool.false_ne_true, range, if_neg Bool.false_ne_true, if_neg free] at row
    obtain ⟨hread, hconv, hen, hbr⟩ := s.converted_shows k i r
    obtain ⟨level, sensors, -⟩ := ((State.mild_of_readings hcool).heard (k := i) hhi).relevel
    have self := s.heard_self k i r
    have reach {n : Int} (h : 8 * n ≤ r) : (s.heard k i r).reaches k n = true :=
      State.reaches_of_reading hi (by rw [self, hen, he]) (by rw [self, hbr, hb]) (by rw [self, hread]; exact h)
    rw [exec_sensorConvert hk hi hv, yields_next_iff, row, State.sensor_congr sensors, self, level]
    exact ⟨hread, hconv, hbr.trans hb, fun h => State.nextLevel_ge_one (reach (by omega)) (reach (by omega)),
      fun h => State.nextLevel_ge_two (.inl ⟨reach (by omega), reach (by omega)⟩)⟩
  case disabled =>
    intro k i r s hk hi hv he
    obtain ⟨stuck, -, row⟩ := s.convert_eq k i r
    rw [he, Bool.false_and, Bool.not_false, if_pos rfl] at row
    rw [exec_sensorConvert hk hi hv, yields_next_iff, row, State.heard_self]
    exact ⟨(s.converted_shows k i r).1, s.heard_level k i r⟩
  case range =>
    intro k i r s hk hi hv he hb hr hcool
    obtain ⟨stuck, -, row⟩ := s.convert_eq k i r
    have works : (!((s.sensor k i).enabled && !(s.sensor k i).broken)) = false := by rw [he, hb]; rfl
    have range : (decide (r < degC (-40)) || decide (degC 150 < r)) = true := by
      rw [decide_eq_true (p := degC 150 < r) (by simp only [degC]; omega), Bool.or_true]
    rw [works, if_neg Bool.false_ne_true, range, if_pos rfl] at row
    rw [exec_sensorConvert hk hi hv, yields_next_iff, row]
    refine State.sensorBroken_shows (fun j hj hne hen hbr => ?_) 2
    have counts := State.heard_other k hne r s
    simp only [Sensor.counts, Prod.mk.injEq] at counts
    obtain ⟨en, br, rd⟩ := counts
    rw [rd]
    exact State.mild_of_readings hcool j hj (en ▸ hen) (br ▸ hbr)
  case silent =>
    intro k i s hk hi hv he hb hlast hcool
    have late : s.missed k i = s.sensorBroken k i 3 := by
      simp only [State.missed, he, hb, hlast, Bool.not_false, decide_true, Bool.and_self, if_true]
    rw [exec_conversionMissed hk hi, if_pos hv, late, yields_next_iff]
    exact State.sensorBroken_shows (fun j hj _ => State.mild_of_readings hcool j hj) 3
  case heard =>
    intro k i s hk hi hlast
    have early : s.missed k i = s := by
      rw [State.missed, decide_eq_false (by omega), Bool.and_false, if_neg Bool.false_ne_true]
    rw [exec_conversionMissed hk hi, early, ite_self]
  case polled =>
    intro k i c a s hk hi hup hun hcool
    have row : exec (.ddrTempPoll k i c a) s = .next (s.pollDdr k i c a) := by
      change execDdrTempPoll k i c a s = _
      rw [execDdrTempPoll, hk, decide_eq_true hi, Bool.and_self, withUnit_true, hup, hun]
      rfl
    have rate : nextRate (s.ddrRate k i) c < 4 := nextRate_lt (s.ddrRate_lt k i) c
    have mild : (s.polled k i (nextRate (s.ddrRate k i) c) a).Mild k := State.mild_of_readings hcool
    obtain ⟨level, -, forced, reg⟩ := mild.relevel
    have bit := State.polled_forced hi k (nextRate (s.ddrRate k i) c) a s
    rw [row, yields_next_iff, State.pollDdr_eq]
    refine ⟨?_, by rw [forced, bit], fun ha => ?_⟩
    · rw [State.ddrRate, State.field, reg (lt_eight_of_hasTile hk)]
      exact State.polled_rate (lt_eight_of_hasTile hk) hi rate a s
    · rw [level]
      exact State.nextLevel_ge_two (.inr (State.forced_of_bit (bit.trans ha)))
  case gated =>
    intro k i c a s hk hi hoff
    have stopped : (s.coreUp && s.ungated k) = false := by
      rcases hoff with h | h
      · rw [h, Bool.false_and]
      · rw [h, Bool.and_false]
    change execDdrTempPoll k i c a s = _
    rw [execDdrTempPoll, hk, decide_eq_true hi, Bool.and_self, withUnit_true, stopped, if_neg Bool.false_ne_true]
  case falls =>
    intro n x s hdown hn hdur
    have row : exec .powerdownWaitEnd s = .next (s.enterFalling s.pwr.prog.sdEntry) := by
      change execPowerdownWaitEnd s = _
      simp only [execPowerdownWaitEnd, hdown, bne_iff_ne.mpr hn, hdur, decide_true, Bool.and_self, Bool.true_or, if_true]
    obtain ⟨st, step, -⟩ := s.enterFalling_group s.pwr.prog.sdEntry
    rw [row, yields_next_iff]
    exact ⟨st, step, rfl⟩
  case waits =>
    intro n x s hdown hdur hlast
    change execPowerdownWaitEnd s = _
    simp only [execPowerdownWaitEnd, hdown, decide_eq_false (Nat.not_le.mpr hdur), decide_eq_false (Nat.not_le.mpr hlast),
      Bool.and_false, Bool.or_self, Bool.false_eq_true, if_false]

end Sys2Proof.Machine
end

section
/-! Fault sources, injections and escalation slots (R403 to R405, R408 to R410, R412). -/

namespace Sys2Proof.Machine

/-! ## Injection (R412) -/

/-- FAULT_INJECT on the sideband, with no token, outside SEALED. -/
theorem exec_faultInject {c : Ctx} {k : Byte} {i : BitVec 12} {w : Word} {x : Token} {m : DWord} {n : BitVec 16} {s : State}
    (h : s.accepts 0x43 c (faultInjectParams k i w m n) = true) (hc : c.path = .sideband) (hx : x.present = false)
    (hl : s.cur.lifecycle ≠ .sealed) : ∃ t, exec (.faultInject c k i w x m n) s = .next t ∧
      t.flt = ((s.leaveHead 0x43 c).inject k.toNat i.toNat m n.toNat).after.flt := by
  have opened : ((s.leaveHead 0x43 c).cur.lifecycle == .sealed) = false := by
    simp only [State.leaveHead_kept, beq_eq_false_iff_ne.mpr hl]
  refine ⟨((s.leaveHead 0x43 c).inject k.toNat i.toNat m n.toNat).after.replyWith srcCurator c
    ((s.leaveHead 0x43 c).inject k.toNat i.toNat m n.toNat).st ((s.leaveHead 0x43 c).inject k.toNat i.toNat m n.toNat).result
    ((s.leaveHead 0x43 c).inject k.toNat i.toNat m n.toNat).data, ?_, by simp only [State.replyWith_kept]⟩
  change execFaultInject c k i w x m n s = _
  rw [execFaultInject, State.tokenCommand, command_accepted _ _ _ _ _ _ h, withSlot_sideband hc]
  simp only [hc, hx, Option.isSome_none, Bool.false_and, Bool.false_eq_true, if_false, State.withToken, Bool.not_false, if_true,
    opened]

/-- The checks read nothing of the Curator queue. -/
theorem State.leaveHead_injectStatus (opc : Nat) (c : Ctx) (t id n : Nat) (s : State) :
    (s.leaveHead opc c).injectStatus t id n = s.injectStatus t id n := by
  unfold State.leaveHead
  split
  · split <;> rfl
  · rfl

theorem State.arm_inj (t id : Nat) (mask : DWord) (count : Nat) (s : State) : (s.arm t id mask count).flt.inj =
    if mask == 0 then s.flt.inj.filter (fun j => !(j.tile == t && j.source == id))
    else s.flt.inj.filter (fun j => !(j.tile == t && j.source == id)) ++
      [{ tile := t, source := id, mask := mask, count := count }] := by
  simp only [State.arm, State.annal_kept]

/-- No other injection is of the same source. -/
theorem find_others (t id : Nat) (l : List Inj) :
    (l.filter (fun j => !(j.tile == t && j.source == id))).find? (fun j => j.tile == t && j.source == id) = none := by
  refine List.find?_eq_none.mpr (fun j hj => ?_)
  have other := (List.mem_filter.mp hj).2
  rw [Bool.not_eq_true'] at other
  rw [other]
  exact Bool.false_ne_true

/-! ## Sources (R404, R405) -/

theorem State.src_congr {s u : State} (h : u.flt = s.flt) (t id : Nat) : u.src t id = s.src t id := by
  rw [State.src, h, State.src]

/-- A window that has ended by now is closed, with what it counted in the total (R405). -/
theorem Src.settle_ended {v : Src} {w now : Nat} (hw : v.winAt = some w) (h : w + v.winLen ≤ now) :
    (v.settle now).winAt = none ∧ (v.settle now).window = 0 ∧ (v.settle now).total = v.total := by
  rw [Src.settle, hw]
  dsimp only
  rw [if_neg (by omega)]
  exact ⟨rfl, rfl, rfl⟩

theorem Src.settle_base (v : Src) (now : Nat) : (v.settle now).base = v.base := by
  unfold Src.settle
  dsimp only
  split
  · rfl
  · split <;> rfl

/-- A write of FLT_SRC_CFG, whether or not its base is recorded as refused. -/
theorem exec_fltSrcCfgWrite {p k i : Nat} {w : Word} {s : State} (hp : s.takesWrite p = true) (hi : i < 4096)
    (hsrc : s.hasSource k i = true) : ∃ t, exec (.fltSrcCfgWrite p k i w) s = .next t ∧ t.src k i =
      ((s.src k i).settle s.now).written ((unitInfo (i / 128)).elim 0 (·.floor)) w.toNat := by
  have row : exec (.fltSrcCfgWrite p k i w) s = .next (s.commitStore.writeSrc p k i w.toNat) := by
    have tile : s.hasTile k = true := by
      simp only [State.hasSource, Bool.and_eq_true] at hsrc
      exact hsrc.1
    have id : i % 4096 = i := Nat.mod_eq_of_lt hi
    change execFltSrcCfgWrite p k i w s = _
    rw [execFltSrcCfgWrite, tileWrite_open _ _ _ _ _ hp tile rfl, id]
  have has : s.commitStore.hasSource k i = true := hsrc
  have stored (old : Src) (u : State) : (u.storeSrc k i old).src k i = u.src k i :=
    State.src_congr (by simp only [State.storeSrc_kept]) k i
  have refused (a off v : Nat) (u : State) : (u.refusedWrite k a off v).src k i = u.src k i :=
    State.src_congr (by simp only [State.refusedWrite_kept]) k i
  refine ⟨_, row, ?_⟩
  simp only [State.writeSrc, has, Bool.not_true, Bool.false_eq_true, if_false]
  split
  · rw [refused, stored, State.setSrc_src]
    cases unitInfo (i / 128) <;> rfl
  · rw [stored, State.setSrc_src]
    cases unitInfo (i / 128) <;> rfl

/-! ## Escalation slots (R408, R409) -/

theorem State.slot_congr {s u : State} (h : u.flt = s.flt) (t n : Nat) : u.slot t n = s.slot t n := by
  rw [State.slot, h, State.slot]

theorem State.annal_slot (a k n : Nat) (e : AEvent) (s : State) : (s.annal a e).slot k n = s.slot k n :=
  State.slot_congr (by simp only [State.annal_kept]) k n

/-- A write of FLT_PEND_ACT acts on the part as the actor finds it. -/
theorem State.slotWrite_acts (a k n w : Nat) (s : State) :
    s.slotWrite a k n w = (if a = 255 then s else s.commitStore).actOnSlot a k n w := by
  unfold State.slotWrite
  split <;> rfl

section
variable {k n : Nat} {s : State} (hrun : s.cry.haltCause = 0)
include hrun

/-- A slot that is not open refuses an action (R408). -/
theorem State.actOnSlot_closed {w : Nat} (a : Nat) (hw : w % 4 = 1 ∨ w % 4 = 2) (h : s.slotOpen k n = false) :
    s.actOnSlot a k n w = s.refusedWrite k a (pendActOff k n) w := by
  have acts : (s.cry.haltCause != 0 || w % 4 == 0) = false := by
    rw [hrun]
    rcases hw with hw | hw <;> rw [hw] <;> rfl
  simp only [State.actOnSlot, acts, h, Bool.not_false, Bool.or_true, Bool.false_eq_true, if_false, if_true]

/-- An open one closes, and proceeds where the action is not to cancel it (R408, R409). -/
theorem State.actOnSlot_open {w : Nat} (a : Nat) (hw : w % 4 = 1 ∨ w % 4 = 2) (h : s.slotOpen k n = true) :
    ∃ e : AEvent, s.actOnSlot a k n w =
      if w % 4 = 1 then (s.setSlot k n {}).annal k e
      else ((s.setSlot k n {}).annal k e).proceed k (if (s.slot k n).fatal then 4 else 3) := by
  have acts : (s.cry.haltCause != 0 || w % 4 == 0) = false := by
    rw [hrun]
    rcases hw with hw | hw <;> rw [hw] <;> rfl
  have one : (w % 4 == 3 || !s.slotOpen k n) = false := by
    rw [h]
    rcases hw with hw | hw <;> rw [hw] <;> rfl
  rw [State.actOnSlot, acts, if_neg Bool.false_ne_true, one, if_neg Bool.false_ne_true]
  exact ⟨_, rfl⟩

end

/-- An escalation of an epoch fault starts the abort, and its slot stays as it is (R409). -/
theorem State.proceed_aborts (k n : Nat) (e : AEvent) (s : State) :
    (((s.setSlot k n {}).annal k e).proceed k 3).slot k n = {} ∧
      (((s.setSlot k n {}).annal k e).proceed k 3).epo.rollback = true := by
  have aborted (u : State) : u.startAbort.slot k n = u.slot k n := State.slot_congr (by simp only [State.startAbort_kept]) k n
  rw [State.proceed, if_neg (by decide), aborted, State.annal_slot, State.setSlot_slot]
  exact ⟨rfl, State.startAbort_rollback _⟩

/-- The same of an escalation, which is recorded first. -/
theorem State.escalate_aborts (k n id : Nat) (s : State) :
    ((s.setSlot k n {}).escalate k id 3 n).slot k n = {} ∧ ((s.setSlot k n {}).escalate k id 3 n).epo.rollback = true := by
  unfold State.escalate
  exact State.proceed_aborts ..

theorem exec_escalationCancel {a k n : Nat} {s : State} (ha : s.hasActor a = true) (hk : s.hasTile k = true) (hn : n < 32) :
    exec (.escalationCancel a k n) s = .next ((if a = 255 then s else s.commitStore).actOnSlot a k n 1) := by
  change execEscalationCancel a k n s = _
  rw [execEscalationCancel, ha, hk, decide_eq_true hn, Bool.and_self, Bool.and_self, withUnit_true, State.slotWrite_acts]

theorem exec_escalationNow {a k n : Nat} {s : State} (ha : s.hasActor a = true) (hk : s.hasTile k = true) (hn : n < 32) :
    exec (.escalationNow a k n) s = .next ((if a = 255 then s else s.commitStore).actOnSlot a k n 2) := by
  change execEscalationNow a k n s = _
  rw [execEscalationNow, ha, hk, decide_eq_true hn, Bool.and_self, Bool.and_self, withUnit_true, State.slotWrite_acts]

/-- The part as an actor finds it is the same but for what waits to be stored. -/
theorem actor_sees {P : State → Prop} {a : Nat} {s : State} (h1 : P s) (h2 : P s.commitStore) :
    P (if a = 255 then s else s.commitStore) := by
  split
  · exact h1
  · exact h2

theorem exec_escalationExpiry {k n : Nat} {s : State} (hk : s.hasTile k = true) (hn : n < 32) :
    exec (.escalationExpiry k n) s = .next (s.expire k n) := by
  change execEscalationExpiry k n s = _
  rw [execEscalationExpiry, hk, decide_eq_true hn, Bool.and_self, withUnit_true]

/-! ## The end of a tile's reset (R410) -/

section
variable {t : Nat} (ht : t < 8)
include ht

/-- A register of a tile is not ANL_BOOT. -/
theorem State.putReg_boot {q : Reg} (hq : Reg.ctorIdx .anlBoot ≠ q.ctorIdx) (v : Nat) (s : State) :
    (s.putReg q t 0 v).reg .anlBoot 0 0 = s.reg .anlBoot 0 0 :=
  State.putReg_reg_ne (regKey_ne hq (by decide) (by omega) (by decide) (by decide)) s

theorem State.putField_boot {q : Reg} (hq : Reg.ctorIdx .anlBoot ≠ q.ctorIdx) (hi lo v : Nat) (s : State) :
    (s.putField q t 0 hi lo v).reg .anlBoot 0 0 = s.reg .anlBoot 0 0 :=
  State.putReg_boot ht hq _ s

theorem State.measure_boot (s : State) : (s.measure t).reg .anlBoot 0 0 = s.reg .anlBoot 0 0 := by
  rw [State.measure, State.showCap, State.putField_boot ht (by decide), State.showDrift, State.putField_boot ht (by decide),
    State.putField_boot ht (by decide), State.putField_boot ht (by decide), State.putReg_boot ht (by decide), State.showUncal,
    State.putField_boot ht (by decide), State.putField_boot ht (by decide), State.showFree,
    State.putReg_boot ht (by decide), State.showDegraded, State.putReg_boot ht (by decide), State.showWear,
    State.putReg_boot ht (by decide), State.showRetired, State.putReg_boot ht (by decide)]

theorem State.showSpare_boot (s : State) : (s.showSpare t).reg .anlBoot 0 0 = s.reg .anlBoot 0 0 := by
  unfold State.showSpare
  dsimp only
  split
  · rfl
  · rw [State.putField_boot ht (by decide), State.putField_boot ht (by decide), State.putField_boot ht (by decide)]

/-- A spare notice is recorded, and the boot stays the one it was. -/
theorem State.spareNotice_boot (level : Nat) (s : State) : (s.spareNotice t level).reg .anlBoot 0 0 = s.reg .anlBoot 0 0 := by
  have entry (c d : Nat) (u : State) : (u.spareEntry t c d).reg .anlBoot 0 0 = u.reg .anlBoot 0 0 := by
    unfold State.spareEntry
    split <;> rfl
  rw [State.spareNotice, entry, State.raiseEvent_reg_ne (by decide) (by decide) (by decide),
    State.annal_reg_ne (by decide) (by decide) (by decide) (by decide) ht]

theorem State.spareWarn_boot (b level : Nat) (s : State) : (s.spareWarn t b level).reg .anlBoot 0 0 = s.reg .anlBoot 0 0 := by
  unfold State.spareWarn
  dsimp only
  split
  · exact State.putField_boot ht (by decide) ..
  · exact (State.spareNotice_boot ht ..).trans (State.putField_boot ht (q := .medSpare) (by decide) ..)

theorem State.spareCheck_boot (s : State) : (s.spareCheck t).reg .anlBoot 0 0 = s.reg .anlBoot 0 0 := by
  have warned (b level : Nat) (p : Prop) [Decidable p] (u : State) :
      (if p then u.spareWarn t b level else u).reg .anlBoot 0 0 = u.reg .anlBoot 0 0 := by
    split
    · exact State.spareWarn_boot ht ..
    · rfl
  have readOnly (u : State) : ({ u with med := { u.med with readOnly := true } } : State).reg .anlBoot 0 0 = u.reg .anlBoot 0 0 :=
    State.reg_congr rfl ..
  unfold State.spareCheck
  split
  · rfl
  · extract_lets r s1 s2 s3
    have reached : s3.reg .anlBoot 0 0 = s.reg .anlBoot 0 0 := by
      rw [warned, warned, State.putField_boot ht (by decide)]
    split
    · rw [State.spareNotice_boot ht, readOnly, reached]
    · exact reached

/-- A tile's return leaves the boot number. -/
theorem State.tileIsReady_boot (s : State) : (s.tileIsReady t).reg .anlBoot 0 0 = s.reg .anlBoot 0 0 := by
  have missed (u : State) : u.releaseMisses.reg .anlBoot 0 0 = u.reg .anlBoot 0 0 :=
    State.reg_congr (by simp only [State.releaseMisses_kept]) ..
  have trained (u : State) : (u.trainPorts t).reg .anlBoot 0 0 = u.reg .anlBoot 0 0 :=
    State.reg_congr (by simp only [State.trainPorts_kept]) ..
  have saddles (u : State) : (u.saddlesUp t).reg .anlBoot 0 0 = u.reg .anlBoot 0 0 := rfl
  have unhalted : (s.unhalt t).reg .anlBoot 0 0 = s.reg .anlBoot 0 0 := rfl
  rw [State.tileIsReady, missed, trained, saddles, State.showThrottle_reg_ne (by decide) (by decide) (by decide) ht,
    State.spareCheck_boot ht, State.showSpare_boot ht, State.measure_boot ht, unhalted]

end

theorem State.tileIsReady_flt (t : Nat) (s : State) : (s.tileIsReady t).flt = (s.unhalt t).flt := by
  simp only [State.tileIsReady, State.releaseMisses_kept, State.trainPorts_kept, State.saddlesUp_kept, State.showThrottle_kept,
    State.spareCheck_kept, State.showSpare_kept, State.measure_kept]

/-- A tile whose resets are taken off the list is under none. -/
theorem any_filter_others (t : Nat) (l : List (Nat × Nat)) : (l.filter (fun e => e.1 != t)).any (fun e => e.1 == t) = false := by
  refine List.any_eq_false.mpr (fun e he => ?_)
  have other := (List.mem_filter.mp he).2
  simpa using other

theorem State.failTile_underReset_same (t : Nat) (s : State) : (s.failTile t).underReset t = false := by
  simp only [State.underReset, State.failTile, State.finishSeal_kept, State.raiseEvent_kept]
  exact any_filter_others ..

theorem State.failTile_failed {t : Nat} (ht : t < 8) (s : State) : (s.failTile t).flt.failed.getLsbD t = true := by
  simp only [State.failTile, State.finishSeal_kept, State.raiseEvent_kept]
  exact tileBit_or_getLsbD _ ⟨t, ht⟩

theorem exec_tileReadyTimeout {k : Nat} {s : State} (hk : s.hasTile k = true) :
    exec (.tileReadyTimeout k) s = .next (s.readyTimeout k) := by
  change execTileReadyTimeout k s = _
  rw [execTileReadyTimeout, withUnit_of _ _ _ hk]

/-- Settles O32: an injection replaces the one its source had, what a source counts and its settings are read back from the
one entry it has, an open slot closes before it proceeds to an abort, and a tile's return or failure takes its resets off
the list. -/
theorem faultSourcesAndSlots : Obligations.FaultSourcesAndSlots := by
  unfold Obligations.FaultSourcesAndSlots
  refine ⟨?arms, ?disarms, ?fails, ?window, ?sets, ?keeps, ?cancels, ?cancelled, ?acted, ?now, ?expires, ?early, ?ready, ?late,
    ?running, ?runningLate⟩
  case arms =>
    intro c k i w x m n s h hc hw hx hl hst hm
    obtain ⟨t, row, flt⟩ := exec_faultInject (m := m) (n := n) h hc hx hl
    have armed : (s.leaveHead 0x43 c).inject k.toNat i.toNat m n.toNat =
        { st := .done, after := (s.leaveHead 0x43 c).arm k.toNat i.toNat m n.toNat } := by
      rw [State.inject, State.leaveHead_injectStatus, hst]
    rw [row, yields_next_iff, flt, armed, State.arm_inj, if_neg (by simpa using hm), List.find?_append, find_others]
    simp
  case disarms =>
    intro c k i w x m n s h hc hw hx hl hst hm
    obtain ⟨t, row, flt⟩ := exec_faultInject (m := m) (n := n) h hc hx hl
    have armed : (s.leaveHead 0x43 c).inject k.toNat i.toNat m n.toNat =
        { st := .done, after := (s.leaveHead 0x43 c).arm k.toNat i.toNat m n.toNat } := by
      rw [State.inject, State.leaveHead_injectStatus, hst]
    rw [row, yields_next_iff, flt, armed, State.arm_inj, if_pos (by simpa using hm), find_others]
  case fails =>
    intro c k i w x m n s h hc hw hx hl hst
    obtain ⟨t, row, flt⟩ := exec_faultInject (m := m) (n := n) h hc hx hl
    obtain ⟨st, hst⟩ := Option.isSome_iff_exists.mp hst
    rw [row, yields_next_iff, flt, State.inject, State.leaveHead_injectStatus, hst]
    simp only [State.leaveHead_kept]
  case window =>
    intro k i s hsrc hwin
    obtain ⟨hsome, hend⟩ := hwin
    obtain ⟨w, hw⟩ := Option.isSome_iff_exists.mp hsome
    have row : exec (.faultWindowEnd k i) s = .next (s.windowEnd k i) := by
      change execFaultWindowEnd k i s = _
      rw [execFaultWindowEnd, withUnit_of _ _ _ hsrc]
    rw [row, yields_next_iff, State.windowEnd, State.setSrc_src]
    exact Src.settle_ended hw (hend w hw)
  case sets =>
    intro p k i u w s hp hi hsrc hu hbase
    obtain ⟨t, row, src⟩ := exec_fltSrcCfgWrite (w := w) hp hi hsrc
    rw [row, yields_next_iff, src, hu, Src.written]
    exact ⟨if_neg (by omega), rfl, rfl⟩
  case keeps =>
    intro p k i w s hp hi hsrc hbase
    obtain ⟨t, row, src⟩ := exec_fltSrcCfgWrite (w := w) hp hi hsrc
    rw [row, yields_next_iff, src, Src.written]
    exact ⟨(if_pos hbase).trans (Src.settle_base ..), rfl, rfl⟩
  case cancels =>
    intro a k n s ha hk hn hrun hopen
    rw [exec_escalationCancel ha hk hn, yields_next_iff]
    have closes {u : State} (hr : u.cry.haltCause = 0) (ho : u.slotOpen k n = true) :
        ((u.actOnSlot a k n 1).slot k n).opened = false ∧ (u.actOnSlot a k n 1).flt.halted = u.flt.halted ∧
          (u.actOnSlot a k n 1).epo = u.epo := by
      obtain ⟨e, act⟩ := State.actOnSlot_open hr a (w := 1) (.inl rfl) ho
      rw [act, if_pos rfl, State.annal_slot, State.setSlot_slot]
      simp only [State.annal_kept]
      exact ⟨trivial, rfl, rfl⟩
    exact actor_sees (P := fun u => ((u.actOnSlot a k n 1).slot k n).opened = false ∧
      (u.actOnSlot a k n 1).flt.halted = s.flt.halted ∧ (u.actOnSlot a k n 1).epo = s.epo) (closes hrun hopen)
      (closes (u := s.commitStore) hrun hopen)
  case cancelled =>
    intro a k n s ha hk hn hrun hclosed
    rw [exec_escalationCancel ha hk hn]
    exact congrArg _ (actor_sees (P := fun u => u.actOnSlot a k n 1 = u.refusedWrite k a (pendActOff k n) 1)
      (State.actOnSlot_closed hrun a (.inl rfl) hclosed)
      (State.actOnSlot_closed (s := s.commitStore) hrun a (.inl rfl) hclosed))
  case acted =>
    intro a k n s ha hk hn hrun hclosed
    rw [exec_escalationNow ha hk hn]
    exact congrArg _ (actor_sees (P := fun u => u.actOnSlot a k n 2 = u.refusedWrite k a (pendActOff k n) 2)
      (State.actOnSlot_closed hrun a (.inr rfl) hclosed)
      (State.actOnSlot_closed (s := s.commitStore) hrun a (.inr rfl) hclosed))
  case now =>
    intro a k n s ha hk hn hrun hopen hfatal _
    rw [exec_escalationNow ha hk hn, yields_next_iff]
    have aborts {u : State} (hr : u.cry.haltCause = 0) (ho : u.slotOpen k n = true) (hf : (u.slot k n).fatal = false) :
        ((u.actOnSlot a k n 2).slot k n).opened = false ∧ (u.actOnSlot a k n 2).epo.rollback = true := by
      obtain ⟨e, act⟩ := State.actOnSlot_open hr a (w := 2) (.inr rfl) ho
      obtain ⟨slot, roll⟩ := State.proceed_aborts k n e u
      rw [act, if_neg (by decide), hf, if_neg Bool.false_ne_true, slot, roll]
      exact ⟨rfl, rfl⟩
    exact actor_sees (P := fun u => ((u.actOnSlot a k n 2).slot k n).opened = false ∧
      (u.actOnSlot a k n 2).epo.rollback = true) (aborts hrun hopen hfatal) (aborts (u := s.commitStore) hrun hopen hfatal)
  case expires =>
    intro k n s hk hn hrun hopen hdead hfatal _
    have due : (s.cry.haltCause != 0 || !(s.slot k n).opened || decide (s.now < (s.slot k n).deadline)) = false := by
      rw [hrun, hopen, decide_eq_false (Nat.not_lt.mpr hdead)]
      rfl
    have row : s.expire k n = (s.setSlot k n {}).escalate k (s.slot k n).source 3 n := by
      rw [State.expire, due, if_neg Bool.false_ne_true, hfatal, if_neg Bool.false_ne_true]
    obtain ⟨slot, roll⟩ := State.escalate_aborts k n (s.slot k n).source s
    rw [exec_escalationExpiry hk hn, yields_next_iff, row, slot, roll]
    exact ⟨rfl, rfl⟩
  case early =>
    intro k n s hk hn hdead
    have same : s.expire k n = s := by
      rw [State.expire, decide_eq_true hdead, Bool.or_true, if_pos rfl]
    rw [exec_escalationExpiry hk hn, same]
  case ready =>
    intro k s hk hlt hreset
    have row : exec (.tileReady k) s = .next (s.tileIsReady k) := by
      change execTileReady k s = _
      rw [execTileReady, withUnit_of _ _ _ hk, if_pos hreset]
    rw [row, yields_next_iff, State.underReset, State.tileIsReady_flt, State.tileIsReady_boot hlt]
    exact ⟨any_filter_others .., tileBit_clear_getLsbD _ ⟨k, hlt⟩, rfl⟩
  case late =>
    intro k s hk hlt hlate
    rw [exec_tileReadyTimeout hk, yields_next_iff, State.readyTimeout, if_pos hlate]
    exact ⟨State.failTile_underReset_same .., State.failTile_failed hlt _⟩
  case running =>
    intro k s hk hreset
    change execTileReady k s = _
    rw [execTileReady, withUnit_of _ _ _ hk, hreset, if_neg Bool.false_ne_true]
  case runningLate =>
    intro k s hk hreset
    have quiet : s.flt.resetting.any (fun e => e.1 == k && decide (e.2 + 1000000000 ≤ s.now)) = false :=
      List.any_eq_false.mpr (fun e he hdue => List.any_eq_false.mp hreset e he (Bool.and_eq_true_iff.mp hdue).1)
    rw [exec_tileReadyTimeout hk, State.readyTimeout, quiet, if_neg Bool.false_ne_true]

end Sys2Proof.Machine
end
